-- ==== Sys2Proof/Word.lean ====
section
/-!
DEFINITION. Word.lean: the word types and the tables of plain data the model is written in.
-/

namespace Sys2Proof

/-- A register or memory word of 32 bits (R10). -/
abbrev W32 := BitVec 32

/-- A 64-bit count or address. -/
abbrev W64 := BitVec 64

/-- A byte of a structure the MY96 gives to the host. -/
abbrev Byte := BitVec 8

/-- A table of plain data: (key, value) pairs, keys strictly rising, no value equal to what an unlisted key reads as. -/
abbrev Tbl (α : Type) := List (Nat × α)

end Sys2Proof
end

