-- ==== Sys2Proof/Syntax.lean ====
section
/-!
DEFINITION. Syntax.lean: the commands the MY96 takes, one constructor for each row of
spec/opcode_table.json.  The table gives its rows no operand bits; the operands below are what the rule of each
row leaves to the sender: which register, tile, function, block or plan entry is meant, and what the world outside
the controller (a die, a decoder, a host memory, a clock, a pin, a signature check) answered.
-/

namespace Sys2Proof

/-- A path of R500 (and of SEC_MBX_STATUS.PATH, R370): port A, port B, the sideband, on-chip. -/
inductive Path where
  | portA | portB | sideband | onChip
  deriving DecidableEq, Repr

/-- A unit that a plan writer plans (The plan pipeline, R34, R38, R109): flash channel n, course-engine lane n,
the MAC plan of planner p, the completion plan of host-front core c on the port it posts to, the Hod. -/
inductive PlanUnit where
  | fch (n : Nat) | lane (n : Nat) | mac (p : Nat) | poster (c : Nat) | hod
  deriving DecidableEq, Repr

/-- One plan entry of 16 bytes.  The fields every unit's format shares are named; `body` holds the bytes 3 to 11
of the unit's own format as one little-endian number (R38, R108, R191, R312, R377). -/
structure PlanEntry where
  slot : Nat
  cls : Nat
  len : Nat
  join : Bool
  op : Nat
  body : Nat
  ticket : Nat
  tile : Nat
  deriving DecidableEq, Repr

/-- What the writer of a channel plan entry knows of the work it plans, by which R73 charges it. -/
inductive Account where
  | tile (t : Nat)
  | trowel
  deriving DecidableEq, Repr

/-- What a die answers to STATUS. -/
inductive DieStatus where
  | busy | done | failed
  deriving DecidableEq, Repr

/-- The head of an NVMe command as fetched: function, submission queue, command identifier, namespace. -/
structure CmdHead where
  fn : Nat
  qid : Nat
  cid : Nat
  nsid : Nat
  deriving DecidableEq, Repr

/-- The placement-matcher inputs a command carries besides its addresses (R160): DSM, DTYPE, directive specific
(the placement handle), FUA and Limited Retry. -/
structure Hints where
  dsm : Nat
  dtype : Nat
  dspec : Nat
  fua : Bool
  lr : Bool
  deriving DecidableEq, Repr

/-- One block of a write as it arrives: its data as a little-endian number, its metadata, and what its
protection information check answered (R101). -/
structure BlockIn where
  off : Nat
  data : Nat
  metaField : Nat
  piOk : Bool
  deriving DecidableEq, Repr

/-- What went wrong with a protection information check (R101). -/
inductive PiError where
  | guard | appTag | refTag
  deriving DecidableEq, Repr

/-- The outcome of one start step (R475): whether its primary, and its alternate, succeeds; `slow` says that the step
runs until START_STEP_TIMEOUT or START_INTERRUPTED ends it. -/
structure StepTry where
  primary : Bool
  alternate : Bool
  slow : Bool
  deriving DecidableEq, Repr

/-- What the world answers during a start (R475 to R477): straps, the steps whose primary or alternate fails, the boot
sources whose image can be read and verifies (coded as SEC_STATUS.BOOT_SRC, R370), the units that fail, the planners'
self-checks, the channels present and the map memory found, the flash pages of the grout and the journal that cannot be
read, and the times taken. -/
structure StartInput where
  strapPort : Nat
  strapSris : Bool
  strapNandIf : Bool
  strapSideband : Bool
  strapSbAddr : Nat
  strapRecovery : Bool
  steps : List StepTry
  sources : List Nat
  entropyOk : Bool
  mmFail : List Nat
  fchFail : List Nat
  lunFail : List (Nat × Nat)
  plannerOk : List Bool
  width : Nat
  mmGib : Nat
  recorderMemOk : Bool
  /-- The manifest of the grout can be read; the yard slots whose grout MU cannot. -/
  manifestOk : Bool
  groutLost : List Nat
  /-- The first journal sequence that cannot be read, and how many records above JDUR lie on flash. -/
  gapAt : Option Nat
  later : Nat
  ms : Nat
  ms10 : Nat
  ms11 : Nat
  deriving DecidableEq, Repr

/-- The image header facts of R340 and R343 that a commit or a boot checks, FR as a number, and the SHA-384 of the signed
body. -/
structure ImageInfo where
  failedCondition : Nat
  svn : Nat
  root : Nat
  compatMin : Nat
  compatMax : Nat
  stateVersion : Nat
  stateMin : Nat
  sameSecurity : Bool
  rev : Nat
  digest : Nat
  deriving DecidableEq, Repr

/-- One Dataset Management range. -/
structure DsmRange where
  slba : Nat
  nlb : Nat
  deriving DecidableEq, Repr

/-- The ladder-relevant answer of a decoder (R231, R232). -/
structure DecodeResult where
  ok : Bool
  corrected : Nat
  waitedBeats : Nat
  deriving DecidableEq, Repr

/-- The 32-byte Hod descriptor of R372, fields in order. -/
structure HodDesc where
  next : Nat
  src : Nat
  dst : Nat
  length : Nat
  control : Nat
  status : Nat
  deriving DecidableEq, Repr

/-- The access of a Hod channel that failed (R383). -/
inductive HodAccess where
  | source | destination | readback | fetch | writeback
  deriving DecidableEq, Repr

/-- Kinds of memory access an error was met by (R395). -/
inductive ErrSource where
  | read | merge | scrub
  deriving DecidableEq, Repr

/-- An authorisation of R361 as presented: its purpose, scope, target, root, nonce, whether DEVICE_ID matches, and
whether conditions 2 to 4 of R340 verified. -/
structure Authorisation where
  purpose : Nat
  scope : Nat
  target : Nat
  root : Nat
  nonce : Nat
  deviceIdOk : Bool
  verified : Bool
  deriving DecidableEq, Repr

/-- The vendor admin command 0xC1 that carries a tile operation (R123), with the staging values of its data: the words of
TILE_BIND to TILE_EVT_VIS in order.  An operation without one is written to TILE_CMD. -/
structure TileReq where
  h : CmdHead
  staging : List W32
  deriving DecidableEq, Repr

/-- An SPDM connection (R346): the storage binding of a function, the DOE mailbox of a port, MCTP. -/
inductive Conn where
  | storage (fn : Nat) | doe (port : Nat) | mctp
  deriving DecidableEq, Repr

/-- The commands of the MY96, in the order of spec/opcode_table.json. -/
inductive Instr where
  -- The beat (R31 to R63)
  | beatBoundary
  | headerBeat
  | journalFlushPoint (mirrorOk : Bool)
  | epochBoundary (picks : List (Nat × Nat))
  | sealEpochClose
  | sealSigned (epoch : Nat)
  | sealLate (epoch : Nat)
  | planCommit (u : PlanUnit) (writer target : Nat) (entries : List PlanEntry) (accts : List Account)
  | planWriteClosedBuffer (u : PlanUnit) (buf : Nat) (posted : Bool)
  | plannerFailed (p : Nat)
  -- Channel plan entries (R39, R40): entry `idx` of the plan that channel `ch` is executing
  | fchNop (ch idx : Nat)
  | readPage (ch idx : Nat)
  | readSoft (ch idx : Nat)
  | program (ch idx : Nat)
  | erase (ch idx : Nat)
  | suspend (ch idx : Nat)
  | resume (ch idx : Nat)
  | status (ch idx : Nat) (r : DieStatus)
  | dieOpTimeout (ch lun : Nat)
  | load (ch idx : Nat) (xferErr : Bool)
  | fetch (ch idx : Nat) (stillBusy xferErr : Bool)
  | setTrim (ch idx : Nat)
  | resetLun (ch idx : Nat)
  | courseStep (ch idx : Nat)
  -- Course-engine, MAC, completion and Hod plan entries (R191, R312, R108, R377)
  | laneNop (lane idx : Nat)
  | accum (lane idx : Nat)
  | emit (lane idx : Nat)
  | arm (lane idx : Nat)
  | clear (lane idx : Nat)
  | waveConfirm (ctx : Nat)
  | macNop (p idx : Nat)
  | verifyEntry (p idx : Nat) (rds : List Nat)
  | retag (p idx : Nat) (rds : List Nat)
  | raw (p idx : Nat)
  | cplNop (c idx : Nat)
  | post (c idx : Nat) (linkOk : Bool)
  | postQuiet (c idx : Nat) (linkOk : Bool)
  | hodNop (idx : Nat)
  | window (idx : Nat)
  -- The read and write paths
  | ldpcDecodeDone (rd : Nat) (r : DecodeResult)
  | macCheckDone (rd : Nat) (pi : Option PiError)
  | readDataTransferred (cmd slot : Nat)
  | writeDataArrival (cmd : Nat) (blocks : List BlockIn) (pi : Option PiError)
  | writeAdmitted (cmd : Nat)
  | palletIdle (course : Nat)
  -- Background windows and the time lock (R49 to R59)
  | bgWindowApply
  | bgWindowEnd (ch lun : Nat) (dieAllows : Bool)
  | beatWinApplyWrite (v : W32)
  | beatSrcWrite (v : W32)
  | beatHostOffsetWrite (v : W32)
  | beatOriginWrite (hi : Bool) (v : W32)
  | beatCountLoRead
  | ptmExchange (err : Int) (hostTime : Nat)
  | ptmExchangeFail (notEnabled : Bool)
  | syncInEdge (err : Int)
  | syncInMissing
  | syncOutPulse
  -- Tiles (R64 to R89)
  | tileProvision (t : Nat) (req : Option TileReq)
  | tileStart (t : Nat) (req : Option TileReq)
  | tileStop (t : Nat) (req : Option TileReq)
  | tileRelease (t : Nat) (req : Option TileReq)
  | tileSetShares (t : Nat) (req : Option TileReq)
  | tileQuiesced (t : Nat)
  | tileScrubbed (t : Nat)
  -- Queues and fetch (R104 to R109, R159 to R168)
  | sqDoorbellWrite (fn qid tail : Nat)
  | cqDoorbellWrite (fn qid head : Nat)
  | commandFetch (port : Nat)
  | matcherSearch (cmd : Nat)
  -- Admin commands (R98)
  | unsupportedOpcode (h : CmdHead) (opcode : Nat)
  | createIoSq (h : CmdHead) (sqid size prio cqid : Nat)
  | deleteIoSq (h : CmdHead) (sqid : Nat)
  | createIoCq (h : CmdHead) (cqid size vector : Nat)
  | deleteIoCq (h : CmdHead) (cqid : Nat)
  | getLogPage (h : CmdHead) (lid offset len : Nat) (rae : Bool)
  | getLogPageC0 (h : CmdHead) (entries : Nat) (rae : Bool)
  | getLogPageC1 (h : CmdHead) (entries : Nat) (rae : Bool)
  | getLogPageC2 (h : CmdHead) (rae : Bool)
  | getLogPageC3 (h : CmdHead) (first entries : Nat) (rae : Bool)
  | getLogPageC4 (h : CmdHead) (offsetType : Bool) (offset len : Nat)
  | getLogPageC5 (h : CmdHead)
  | identify (h : CmdHead) (cns : Nat)
  | abort (h : CmdHead) (sqid cid : Nat)
  | setFeatures (h : CmdHead) (fid v : Nat)
  | setFeaturesPowerManagement (h : CmdHead) (ps : Nat)
  | setFeaturesArbitration (h : CmdHead) (burst lpw mpw hpw : Nat)
  | setFeaturesVwc (h : CmdHead) (wce : Bool)
  | setFeaturesFdp (h : CmdHead) (enable : Bool)
  | setFeaturesFdpEvents (h : CmdHead) (enable : Bool) (kinds : List Nat)
  | setFeaturesTimestamp (h : CmdHead) (ms : Nat)
  | getFeatures (h : CmdHead) (fid : Nat)
  | asyncEventRequest (h : CmdHead)
  | namespaceCreate (h : CmdHead) (csi nsze lbaf : Nat) (handles : List Nat)
  | namespaceDelete (h : CmdHead)
  | namespaceAttachment (h : CmdHead) (attach : Bool)
  | formatNvm (h : CmdHead) (lbaf ses : Nat)
  | deviceSelfTest (h : CmdHead) (stc : Nat)
  | securitySend (h : CmdHead)
  | securityReceive (h : CmdHead)
  | directiveSend (h : CmdHead)
  | directiveReceive (h : CmdHead)
  | firmwareImageDownload (h : CmdHead) (offset len data : Nat)
  | fwCommitStore (h : CmdHead) (fs : Nat) (img : ImageInfo)
  | fwCommitStoreActivateReset (h : CmdHead) (fs : Nat) (img : ImageInfo)
  | fwCommitActivateReset (h : CmdHead) (fs : Nat) (img : ImageInfo)
  | fwCommitActivateNow (h : CmdHead) (fs : Nat) (img : ImageInfo)
  | fwImageStored
  | sanitize (h : CmdHead) (act : Nat)
  | sanitizeDone (reachedStandalone : Bool)
  | modeRequest (h : CmdHead) (mode : Nat)
  | managementRead (h : CmdHead) (offset count : Nat)
  | managementWrite (h : CmdHead) (offset : Nat) (words : List W32)
  | recorderFreeze (req : Option CmdHead) (path : Nat)
  | recorderThaw (req : Option CmdHead) (path : Nat)
  -- I/O commands
  | write (h : CmdHead) (slba nlb : Nat) (hints : Hints)
  | read (h : CmdHead) (slba nlb : Nat) (hints : Hints) (slot : Nat)
  | flush (h : CmdHead) (late : Bool)
  | writeZeroes (h : CmdHead) (slba nlb : Nat) (hints : Hints)
  | datasetManagement (h : CmdHead) (deallocate : Bool) (ranges : List DsmRange)
  | verify (h : CmdHead) (slba nlb : Nat)
  | ioManagementSend (h : CmdHead) (handles : List Nat)
  | ioManagementReceive (h : CmdHead)
  | zoneAppend (h : CmdHead) (zslba nlb : Nat) (hints : Hints)
  | zoneManagementReceive (h : CmdHead) (slba count : Nat) (extended : Bool)
  | openZone (h : CmdHead) (zslba : Nat) (all : Bool)
  | closeZone (h : CmdHead) (zslba : Nat) (all : Bool)
  | finishZone (h : CmdHead) (zslba : Nat) (all : Bool)
  | resetZone (h : CmdHead) (zslba : Nat) (all : Bool)
  | offlineZone (h : CmdHead) (zslba : Nat) (all : Bool)
  | setZoneDescriptorExtension (h : CmdHead)
  | zoneSealed (nsid zone : Nat)
  | zoneFinishRecommended (nsid zone : Nat)
  | zoneAudit (h : CmdHead) (zslba nonce : Nat)
  | readTags (h : CmdHead) (slba count : Nat)
  -- Controllers, functions and ports (R90 to R97, R120, R121)
  | controllerReset (fn : Nat)
  | shutdownNotification (fn : Nat)
  | shutdownComplete (fn : Nat)
  | functionLevelReset (fn : Nat)
  | portReset (p : Nat)
  | hostLinkUp (p speed width : Nat) (flit : Bool)
  | hostLinkDown (p : Nat)
  | hostLinkRetrain (p : Nat)
  | hostCplTimeout (cmd : Nat)
  | linkWidthChange (p : Nat) (upconfigure : Bool)
  -- The placement matcher (R161 to R180)
  | sortEntryStage (i word : Nat) (v : W32)
  | sortEntryCommit (i : Nat) (v : W32)
  | sortInsert (i j : Nat)
  | sortDelete (i j : Nat)
  | sortInvalidate (i j : Nat)
  | sortSave
  | sortSaveDone (ok : Bool)
  | sortUpdateStep
  | sortCfgWrite (v : W32)
  | shadowRewrite (i : Nat) (shadowUe : Bool)
  | sortAutosave (ok : Bool)
  | yardCfgWrite (v : W32)
  | trowelBudgetWrite (v : W32)
  | fchRetrain (ch : Nat) (ok : Bool)
  -- Power loss (R279 to R289)
  | holdupOkDeasserted
  | holdupOkAsserted
  | powerFailRecognised
  | pgCoreFall
  | groutSealed (retriedWaves : Nat)
  | groutRestart (inp : StartInput)
  | fatalEvent (src : Nat)
  -- Integrity (R307 to R335)
  | macKat (engine : Nat) (ok : Bool)
  | maskReseed (engine : Nat)
  | drbgReseed
  | entropyHealthTest (ok : Bool)
  | drbgExhausted
  | wseqLimitReached
  | keyGenerate (t v : Nat)
  | keyLoad (t v : Nat) (restore : Bool) (key : BitVec 256)
  | keySetCurrent (t v : Nat)
  | keyCurrentSwitch (t : Nat)
  | keyErase (t v : Nat)
  | keyEraseEffect (slot : Nat)
  | keyOldCopyRetired (slot : Nat)
  | keyStatus (t : Nat)
  | slhSignatureGet (c : Conn)
  | slhChainGet (c : Conn)
  -- SPDM and the mailbox (R346 to R353, R368)
  | spdmGetVersion (c : Conn)
  | spdmGetCapabilities (c : Conn)
  | spdmNegotiateAlgorithms (c : Conn)
  | spdmGetDigests (c : Conn)
  | spdmGetCertificate (c : Conn) (slot offset len : Nat)
  | spdmChallenge (c : Conn) (slot nonce : Nat)
  | spdmGetMeasurements (c : Conn) (index nonce : Nat) (signed : Bool)
  | spdmKeyExchange (c : Conn) (mutAuth : Bool) (owner : Nat)
  | spdmFinish (c : Conn) (mutAuth verified : Bool) (owner : Nat)
  | spdmKeyUpdate (c : Conn)
  | spdmEndSession (c : Conn)
  | spdmSessionLimit (c : Conn)
  | mbxKeyErase (path : Path)
  | mbxSessionEnd (path : Path)
  | mbxChallenge (path : Path)
  | mbxDebugUnlock (path : Path) (auth : Authorisation)
  | mbxSvnCommit (path : Path) (readBack : Bool)
  | mbxRootRevoke (path : Path) (auth : Authorisation)
  -- Hitless activation (R357 to R359)
  | activationStandbyLoaded
  | activationPauseStart
  | activationBankSwitch
  | activationPauseEnd
  | activationDone
  | activationRevert
  | activationFailed
  -- Rirus and MCTP (R362 to R367)
  | rirusIdentify (tag : Nat)
  | rirusMgmtRead (tag offset count : Nat)
  | rirusMgmtWrite (tag : Nat) (inSession : Bool) (offset : Nat) (words : List W32)
  | rirusTileOp (tag : Nat) (inSession : Bool) (t op : Nat) (staging : List W32)
  | rirusModeRequest (tag : Nat) (inSession : Bool) (mode : Nat)
  | rirusLogRead (tag lid offset len : Nat)
  | rirusRecorderControl (tag : Nat) (inSession freeze thaw : Bool)
  | rirusFwDownload (tag : Nat) (inSession : Bool) (offset len data : Nat)
  | rirusFwCommit (tag : Nat) (inSession : Bool) (action fs : Nat) (img : ImageInfo)
  | rirusHealth (tag : Nat)
  | mctpSetEndpointId (eid : Nat)
  | mctpGetEndpointId
  | mctpGetVersionSupport
  | mctpGetMessageTypeSupport
  | mctpGetVendorMsgSupport
  -- The Hod (R371 to R388)
  | hodStart (k : Nat)
  | hodKick (k : Nat)
  | hodAbort (k : Nat)
  | hodDescFetched (k : Nat) (d : HodDesc)
  | hodBurstIssue (slot : Nat) (acked : List Nat)
  | hodTransferDone (k : Nat)
  | hodReadbackDone (k : Nat)
  | hodWritebackDone (k : Nat)
  | hodReqLineAssert (line : Nat)
  | hodWithdrawal (k : Nat)
  | hodBusError (k : Nat) (acc : HodAccess)
  | hodSwreqWrite (v : W32)
  | hodChNextWrite (k : Nat) (hi : Bool) (v : W32)
  -- Memory and fabric protection (R389 to R415)
  | memoryUncorrectable (m word syndrome : Nat) (src : ErrSource) (write posted poisoned : Bool)
  | memoryCorrectable (m word syndrome : Nat) (src : ErrSource)
  | scrubPeriod (m : Nat) (granted : Nat)
  | mapmemAlert (c nth : Nat)
  | mapRestoreDone (ms : Nat)
  | mapmemRetrain (c : Nat) (ok : Bool)
  | fabParityError (sender receiver : Nat) (response posted : Bool) (failure addr : Nat)
  -- Power states (R416 to R431)
  | wakeInRise
  | powerStateEntered
  | ioWakeReturn
  | offEntry
  | domainDrainTimeout (d : Nat)
  | domainWakeDone
  | wakeStepTimeout (d step : Nat) (retryFailed otherClockGood : Bool)
  | accessStallTimeout (addr : Nat) (isWrite : Bool)
  | refclkLost (otherGood : Bool)
  -- The Kiln (R432 to R445)
  | kilnSample (temps : List (Option Int))
  | kilnLevelEval
  | thermalPowerdownTimeout
  | thermTripRelease
  | kilnMinLevelWrite (v : W32)
  -- Events and the recorder (R446 to R470)
  | evtForceWrite (base : Nat) (v : W32)
  | evtEnWrite (base : Nat) (v : W32)
  | evtPendClear (base : Nat) (v : W32)
  | evtRouteWrite (src : Nat) (v : W32)
  | evtMsixSend (p : Nat) (deliverable : Bool)
  | evtFwRaiseWrite (v : W32)
  | recordIntake
  | recNext
  | recRefill
  | recCursorWrite (v : W32)
  | freezeTimeout
  | timeAnchorPeriodic
  -- Start-up (R471 to R491)
  | powerOnStart (inp : StartInput)
  | offExit (inp : StartInput)
  | startStepTimeout (step : Nat) (alternateLeft : Bool)
  | startInterrupted (thermal : Bool)
  | topRestart
  | topLedgerClear
  | topCompatWrite (v : W32)
  -- The common page layout and the window (R492 to R502)
  | blkSoftReset (base : Nat)
  | blkEnableWrite (base : Nat) (v : W32)
  | blkPowerVoteWrite (base : Nat) (v : W32)
  | blkLockSet (base : Nat)
  | errInfoRead (base : Nat)
  | rcCounterRead (a : Nat)
  | latchingLoRead (a : Nat)
  | disabledBlockAccess (a : Nat) (isWrite : Bool)
  | registerWrite (path : Path) (a : Nat) (v : W32) (bytes : Nat)
  -- The rows that end the table
  | controllerEnable (fn : Nat)
  | autonomousPowerStateTransition (fn ps : Nat)
  | perstDeasserted (p : Nat)
  | vfEnable (port numVfs : Nat) (enable : Bool)
  | aerError (p : Nat) (correctable : Bool)
  | linkRecoveryExit (p width : Nat)
  | spdmChunkGet (c : Conn) (chunk : Nat)
  | spdmChunkSend (c : Conn) (chunk : Nat) (last : Bool)
  | dynamicAddressAssignment (addr : Nat)
  deriving DecidableEq, Repr

end Sys2Proof
end

