-- ==== Sys2Proof/Config.lean ====
section
/-!
DEFINITION. Config.lean: what the spec leaves open.  Every constant here is opaque: nothing in Lean can evaluate
it, so a statement that holds of the model holds whatever these are.  The first argument of the counters is
`State.freeCtr`, which each use advances, so that two uses are two independent values (log 3).
-/

namespace Sys2Proof.Config

/-- The core cycle of a beat at which a happening falls (R48, R41): the model has no clock below the beat (log 4). -/
opaque coreCycle : Nat → BitVec 15

/-- The rate correction, in ppb, that the servo sets in a header beat while the lock is not FREE (R52): the spec gives
its limits and no law. -/
opaque rateAdj : Nat → Int

/-- Which of two multiples of 64 beats equally near to the phase error the step takes (R51): true the higher. -/
opaque stepTie : Int → Bool

/-- AES-CMAC with AES-256 of a message of bytes (R307), as NIST SP 800-38B defines it: not defined in the spec, so
uninterpreted here. -/
opaque cmac : BitVec 256 → List Byte → BitVec 128

/-- The system keys of R309 by slot, which the security core derives from the fused device secret. -/
opaque systemKey : Nat → BitVec 256

/-- A key that the DRBG makes (R314, R316), and the key check value of a key: the first 8 bytes of AES-256 of the all-zero
block under it (R316), with AES uninterpreted. -/
opaque drbgKey : Nat → BitVec 256
opaque kcvOf : BitVec 256 → BitVec 64

/-- SHA-384 (R324), as FIPS 180-4 defines it: not defined in the spec, so uninterpreted here. -/
opaque sha384 : List Byte → BitVec 384

/-- RSASSA-PSS and SLH-DSA-SHA2-128f signatures under the device identity keys (R326): which signing it is, and what is
signed. -/
opaque sigRsa : Nat → List Byte → BitVec 3072
opaque sigSlh : Nat → List Byte → BitVec 136704

/-- DEVICE_ID (R328, R336): the spec gives the part no number. -/
opaque deviceId : BitVec 384

/-- Metadata of a deallocated block in a namespace of LBAF 2 (R236): its Guard is the CRC of zeroes in the Guard width
that the host chose, its other fields all ones. -/
opaque deallocMeta : Nat → BitVec 128

/-- Which queue the weighted round robin of a controller serves next among those that hold a command (R104): NVMe's
weights bind it over time only. -/
opaque wrrPick : Nat → Nat

/-- Which user of a memory an uncorrectable word belongs to, where the spec does not lay the memory out (R400): the
memory, the word and the users there are. -/
opaque memUser : Nat → Nat → Nat → Nat

/-- The certificate chains of R346 and R347 (0 the RSA chain of slot 0, 1 the SLH-DSA chain), which depend on the alias
layer and so on measurements 1 to 4 (R345); and the digest of the ROM (R349). -/
opaque certChain : Nat → List Byte → List Byte
opaque romDigest : BitVec 384

/-- Nonces that the security core draws (R360, R346): 32 bytes. -/
opaque nonce : Nat → BitVec 256

/-- The signatures of an authorisation verify under a root (R360, R361): the root and the buffer's bytes. -/
opaque authVerifies : Nat → List Byte → Bool

/-- How many of the fuse steps being blown stand where one of them does not read back (R338, R368); and whether all read
back, where the sender does not say. -/
opaque fuseSteps : Nat → Nat
opaque fuseReadBack : Nat → Bool

/-- A byte of a standard log page (R127): which read it is, the page, the offset; and of an Identify data structure (R98):
the structure and the offset.  NVMe lays them out and the spec gives a few of their fields only. -/
opaque logByte : Nat → Nat → Nat → BitVec 8
opaque idByte : Nat → Nat → BitVec 8

/-- The beats that a grout takes (R288): the spec gives their upper bound. -/
opaque groutBeats : Nat → Nat

/-- The word at which the test of the recorder's memory at a start fails (R466). -/
opaque recorderWord : Nat → BitVec 32

/-- The LTSSM state code of a port (R128), whose codes the spec does not give. -/
opaque ltssm : Nat → BitVec 6

/-- A byte that the Hod reads from memory outside the part, or from memory that the spec does not lay out (R371): which read
it is, and the Hod address. -/
opaque hodByte : Nat → Nat → BitVec 8

end Sys2Proof.Config
end

