-- ==== Sys2Proof/Machine/RegMap.lean ====
section
/-!
DEFINITION. Machine/RegMap.lean: the management window's registers (R492, R494, R502), as the
register tables of spec/ give them.  `Reg` holds one address for each register, `F` one field for each
named field, and the `rows…` lists hold each field's access code (R11) and reset value (R12) by block.
Resets the tables give in words (per instance, per strap, per severity) stand in `wordyReset`.
-/

namespace Sys2Proof.Machine

/-- A field of a register: the register's window address, its least significant bit and its width. -/
structure Fld where
  addr : Nat
  lo : Nat
  w : Nat
  deriving DecidableEq, Repr

/-- The access codes of R11. -/
inductive Acc where
  | rw | ro | wo | w1c | w1s | rc | rwl | rws
  deriving DecidableEq, Repr

/-- One field of a register row: its place, its access code and its reset value. -/
structure RegFld where
  lo : Nat
  w : Nat
  acc : Acc
  rst : Nat
  deriving DecidableEq, Repr

/-- One row of a block's register table: the offset of instance 0, the stride and the number of its
instances inside the block, and its fields; every bit in no field is reserved (R13). -/
structure RegRow where
  off : Nat
  stride : Nat
  count : Nat
  flds : List RegFld
  deriving DecidableEq, Repr

namespace Reg

abbrev BEAT_CTRL : Nat := 0x3100
abbrev BEAT_STATUS : Nat := 0x3104
abbrev BEAT_COUNT_LO : Nat := 0x3108
abbrev BEAT_COUNT_HI : Nat := 0x310C
abbrev BEAT_CYCLE : Nat := 0x3110
abbrev BEAT_HOST_OFFSET_LO : Nat := 0x3114
abbrev BEAT_HOST_OFFSET_HI : Nat := 0x3118
abbrev BEAT_ORIGIN_LO : Nat := 0x311C
abbrev BEAT_ORIGIN_HI : Nat := 0x3120
abbrev BEAT_PHASE_ERR : Nat := 0x3124
abbrev BEAT_RATE_ADJ : Nat := 0x3128
abbrev BEAT_PTM_CFG : Nat := 0x312C
abbrev BEAT_SYNC_CFG : Nat := 0x3130
abbrev BEAT_LOCK_CFG : Nat := 0x3134
abbrev BEAT_FAILOVER : Nat := 0x3138
abbrev BEAT_LATE (u : Nat) : Nat := 0x3140 + 4 * u
abbrev BEAT_WIN_APPLY : Nat := 0x3180
abbrev BEAT_WIN_PERIOD (k : Nat) : Nat := 0x3190 + 16 * k
abbrev BEAT_WIN_START (k : Nat) : Nat := 0x3194 + 16 * k
abbrev BEAT_WIN_LEN (k : Nat) : Nat := 0x3198 + 16 * k
abbrev TILE_STATE (t : Nat) : Nat := 0x40100 + 0x1000 * t
abbrev TILE_CMD (t : Nat) : Nat := 0x40104 + 0x1000 * t
abbrev TILE_BIND (t : Nat) : Nat := 0x40108 + 0x1000 * t
abbrev TILE_DIE_SHARE (t : Nat) : Nat := 0x4010C + 0x1000 * t
abbrev TILE_YARD (t : Nat) : Nat := 0x40110 + 0x1000 * t
abbrev TILE_QUEUES (t : Nat) : Nat := 0x40114 + 0x1000 * t
abbrev TILE_CMDS (t : Nat) : Nat := 0x40118 + 0x1000 * t
abbrev TILE_NS (t : Nat) : Nat := 0x4011C + 0x1000 * t
abbrev TILE_ZONES (t : Nat) : Nat := 0x40120 + 0x1000 * t
abbrev TILE_COURSES (t : Nat) : Nat := 0x40124 + 0x1000 * t
abbrev TILE_SORT (t : Nat) : Nat := 0x40128 + 0x1000 * t
abbrev TILE_KEYS (t : Nat) : Nat := 0x4012C + 0x1000 * t
abbrev TILE_EVT_VIS (t : Nat) : Nat := 0x40130 + 0x1000 * t
abbrev TILE_DIE_GUAR (t : Nat) : Nat := 0x40140 + 0x1000 * t
abbrev TILE_DIE_BORROW (t : Nat) : Nat := 0x40144 + 0x1000 * t
abbrev TILE_DIE_DEFER (t : Nat) : Nat := 0x40148 + 0x1000 * t
abbrev TILE_YARD_USE (t : Nat) : Nat := 0x4014C + 0x1000 * t
abbrev TILE_INFLIGHT (t : Nat) : Nat := 0x40150 + 0x1000 * t
abbrev TILE_COURSE_USE (t : Nat) : Nat := 0x40154 + 0x1000 * t
abbrev HOST_PORT_CFG (p : Nat) : Nat := 0x14100 + 0x1000 * p
abbrev HOST_LINK_CTRL (p : Nat) : Nat := 0x14104 + 0x1000 * p
abbrev HOST_LINK_STATUS (p : Nat) : Nat := 0x14108 + 0x1000 * p
abbrev HOST_FETCH_CFG (p : Nat) : Nat := 0x1410C + 0x1000 * p
abbrev HOST_ATOMIC (p : Nat) : Nat := 0x14110 + 0x1000 * p
abbrev HOST_CPL_STAT (p : Nat) : Nat := 0x14114 + 0x1000 * p
abbrev HOST_FETCHED (p : Nat) : Nat := 0x14120 + 0x1000 * p
abbrev HOST_POSTED (p : Nat) : Nat := 0x14124 + 0x1000 * p
abbrev HOST_CQ_FULL (p : Nat) : Nat := 0x14128 + 0x1000 * p
abbrev HOST_ABORTED (p : Nat) : Nat := 0x1412C + 0x1000 * p
abbrev HOST_NOT_ABORTED (p : Nat) : Nat := 0x14130 + 0x1000 * p
abbrev HOST_DWE_DELIVERED (p : Nat) : Nat := 0x14134 + 0x1000 * p
abbrev HOST_REPLAY (p : Nat) : Nat := 0x14138 + 0x1000 * p
abbrev HOST_CREDIT_STALL (p : Nat) : Nat := 0x1413C + 0x1000 * p
abbrev HOST_LAST_PAUSE (p : Nat) : Nat := 0x14140 + 0x1000 * p
abbrev SORT_CFG : Nat := 0xE100
abbrev SORT_CMD : Nat := 0xE104
abbrev SORT_STATUS : Nat := 0xE108
abbrev SORT_THROTTLE : Nat := 0xE10C
abbrev SORT_UPD_CFG : Nat := 0xE110
abbrev SORT_SEARCHES : Nat := 0xE120
abbrev SORT_DEFAULTS : Nat := 0xE124
abbrev SORT_UPDATES : Nat := 0xE128
abbrev SORT_FIXED : Nat := 0xE12C
abbrev SORT_QUEUE_PEAK : Nat := 0xE130
abbrev SORT_WALKS : Nat := 0xE134
abbrev COURSE_CFG : Nat := 0x16100
abbrev COURSE_JOURNAL : Nat := 0x16104
abbrev COURSE_CKPT : Nat := 0x16108
abbrev COURSE_STATUS : Nat := 0x1610C
abbrev COURSE_JSEQ_LO : Nat := 0x16110
abbrev COURSE_JSEQ_HI : Nat := 0x16114
abbrev COURSE_JDUR_LO : Nat := 0x16118
abbrev COURSE_JDUR_HI : Nat := 0x1611C
abbrev COURSE_WSEQ_LO : Nat := 0x16120
abbrev COURSE_WSEQ_HI : Nat := 0x16124
abbrev COURSE_CKPT_POS : Nat := 0x16128
abbrev COURSE_WAVES : Nat := 0x16140
abbrev COURSE_PROG_FAILS : Nat := 0x16144
abbrev COURSE_MERGES : Nat := 0x16148
abbrev COURSE_PALLET_MUS : Nat := 0x1614C
abbrev COURSE_FOLD_MUS : Nat := 0x16150
abbrev YARD_CFG : Nat := 0x19100
abbrev YARD_STATUS : Nat := 0x19104
abbrev YARD_POOL : Nat := 0x19108
abbrev YARD_PEAK : Nat := 0x1910C
abbrev YARD_UE : Nat := 0x19110
abbrev YARD_SUPERSEDED : Nat := 0x19114
abbrev FCH_CFG (n : Nat) : Nat := 0x20100 + 0x1000 * n
abbrev FCH_PLAN_BASE (n : Nat) : Nat := 0x20104 + 0x1000 * n
abbrev FCH_PROF_SLC (n : Nat) : Nat := 0x20108 + 0x1000 * n
abbrev FCH_PROF_TLC (n : Nat) : Nat := 0x2010C + 0x1000 * n
abbrev FCH_PROF_QLC (n : Nat) : Nat := 0x20110 + 0x1000 * n
abbrev FCH_PROF_PLC (n : Nat) : Nat := 0x20114 + 0x1000 * n
abbrev FCH_PROF_ERASE (n : Nat) : Nat := 0x20118 + 0x1000 * n
abbrev FCH_LUN_LOST_LO (n : Nat) : Nat := 0x2011C + 0x1000 * n
abbrev FCH_LUN_LOST_HI (n : Nat) : Nat := 0x20120 + 0x1000 * n
abbrev FCH_PROG_FAIL (n : Nat) : Nat := 0x20124 + 0x1000 * n
abbrev FCH_XFER_ERR (n : Nat) : Nat := 0x20128 + 0x1000 * n
abbrev FCH_PROF_READ (n : Nat) : Nat := 0x20180 + 0x1000 * n
abbrev FCH_PROF_SOFT (n : Nat) : Nat := 0x20184 + 0x1000 * n
abbrev FCH_PROF_SUS (n : Nat) : Nat := 0x20188 + 0x1000 * n
abbrev FCH_READ_CFG (n : Nat) : Nat := 0x2018C + 0x1000 * n
abbrev FCH_READS (n : Nat) : Nat := 0x201A0 + 0x1000 * n
abbrev FCH_SUSPENDS (n : Nat) : Nat := 0x201A4 + 0x1000 * n
abbrev FCH_SUS_EXHAUSTED (n : Nat) : Nat := 0x201A8 + 0x1000 * n
abbrev FCH_READ_LATE (n : Nat) : Nat := 0x201AC + 0x1000 * n
abbrev FCH_RA_TARGET (n : Nat) : Nat := 0x201B0 + 0x1000 * n
abbrev LDPC_CFG : Nat := 0x18100
abbrev LDPC_LADDER : Nat := 0x18104
abbrev LDPC_STATUS : Nat := 0x18108
abbrev LDPC_HARD_CW : Nat := 0x18120
abbrev LDPC_HARD_FAIL : Nat := 0x18124
abbrev LDPC_STEP1_OK : Nat := 0x18128
abbrev LDPC_STEP2_OK : Nat := 0x1812C
abbrev LDPC_STEP3_OK : Nat := 0x18130
abbrev LDPC_STEP4_OK : Nat := 0x18134
abbrev LDPC_UNRECOVERED : Nat := 0x18138
abbrev LDPC_MAC_FAIL : Nat := 0x1813C
abbrev LDPC_RA_LATENCY : Nat := 0x18140
abbrev LDPC_MARGIN_HITS : Nat := 0x18144
abbrev TROWEL_CFG : Nat := 0x17100
abbrev TROWEL_BUDGET : Nat := 0x17104
abbrev TROWEL_YARD : Nat := 0x17108
abbrev TROWEL_GC : Nat := 0x1710C
abbrev TROWEL_GC_URGENT : Nat := 0x17110
abbrev TROWEL_DISTURB_A : Nat := 0x17114
abbrev TROWEL_DISTURB_B : Nat := 0x17118
abbrev TROWEL_RETENTION : Nat := 0x1711C
abbrev TROWEL_WEAR : Nat := 0x17120
abbrev TROWEL_WEAR_COLD : Nat := 0x17124
abbrev TROWEL_SPARE : Nat := 0x17128
abbrev TROWEL_LUN_CFG : Nat := 0x1712C
abbrev TROWEL_STATUS : Nat := 0x17140
abbrev TROWEL_SPARES : Nat := 0x17144
abbrev TROWEL_REBUILD_LEFT : Nat := 0x17148
abbrev TROWEL_ERASE_SPREAD : Nat := 0x1714C
abbrev TROWEL_ERASE_AVG : Nat := 0x17150
abbrev TROWEL_FREE : Nat := 0x17154
abbrev TROWEL_GC_MUS : Nat := 0x17160
abbrev TROWEL_REFRESH_MUS : Nat := 0x17164
abbrev TROWEL_WEAR_MUS : Nat := 0x17168
abbrev TROWEL_REBUILT : Nat := 0x1716C
abbrev TROWEL_ERASES : Nat := 0x17170
abbrev TROWEL_ERASE_FAILS : Nat := 0x17174
abbrev TROWEL_RETIRED : Nat := 0x17178
abbrev TROWEL_OVER_BUDGET : Nat := 0x1717C
abbrev PWR_HOLDUP_CFG : Nat := 0x1200
abbrev PWR_HOLDUP_STAT : Nat := 0x1204
abbrev PWR_GROUT_LAST : Nat := 0x1208
abbrev PWR_GROUT_ID_LO : Nat := 0x120C
abbrev PWR_GROUT_ID_HI : Nat := 0x1210
abbrev PWR_REPLAY_STAT : Nat := 0x1214
abbrev PWR_REPLAY_RECORDS : Nat := 0x1218
abbrev PWR_REPLAY_MUS : Nat := 0x121C
abbrev PWR_REPLAY_SCAN : Nat := 0x1220
abbrev PWR_REPLAY_REJECT : Nat := 0x1224
abbrev PWR_REPLAY_MS : Nat := 0x1228
abbrev PWR_GROUT_COUNT : Nat := 0x122C
abbrev MAC_CFG : Nat := 0x12100
abbrev MAC_STATUS : Nat := 0x12104
abbrev MAC_ENGINE_OK : Nat := 0x12108
abbrev MAC_DRBG_LEFT : Nat := 0x1210C
abbrev MAC_TAGS_FORMED : Nat := 0x12120
abbrev MAC_TAGS_CHECKED : Nat := 0x12124
abbrev MAC_TAG_FAIL : Nat := 0x12128
abbrev MAC_UNVERIFIABLE : Nat := 0x1212C
abbrev MAC_KEY_ERASED_OPS : Nat := 0x12130
abbrev MAC_SEAL_EPOCH_LO : Nat := 0x12140
abbrev MAC_SEAL_EPOCH_HI : Nat := 0x12144
abbrev MAC_SEAL_ZONES : Nat := 0x12148
abbrev MAC_TILE_KEY (t : Nat) : Nat := 0x12200 + 4 * t
abbrev MAC_SLOT (s : Nat) : Nat := 0x12400 + 4 * s
abbrev MAC_SLOT_TAGGED (s : Nat) : Nat := 0x12900 + 4 * s
abbrev SEC_STATUS : Nat := 0x13100
abbrev SEC_SVN : Nat := 0x13104
abbrev SEC_FW_REV_LO : Nat := 0x13108
abbrev SEC_FW_REV_HI : Nat := 0x1310C
abbrev SEC_SIDEBAND : Nat := 0x13110
abbrev SEC_SESSIONS : Nat := 0x13114
abbrev SEC_AUTH_FAILS : Nat := 0x13118
abbrev SEC_SESSION_LIMIT : Nat := 0x1311C
abbrev SEC_UNIT_ID (k : Nat) : Nat := 0x13120 + 4 * k
abbrev SEC_DEVICE_ID (k : Nat) : Nat := 0x13140 + 4 * k
abbrev SEC_MBX_CMD : Nat := 0x13180
abbrev SEC_MBX_STATUS : Nat := 0x13184
abbrev SEC_MBX_ARG (k : Nat) : Nat := 0x13188 + 4 * k
abbrev SEC_MBX_BANK : Nat := 0x131A8
abbrev SEC_MBX_LEN : Nat := 0x131AC
abbrev SEC_MBX_DATA (i : Nat) : Nat := 0x13800 + 4 * i
abbrev HOD_RETRY : Nat := 0x11100
abbrev HOD_SWREQ : Nat := 0x11104
abbrev HOD_ACTIVE : Nat := 0x11108
abbrev HOD_HALTED : Nat := 0x1110C
abbrev HOD_PLAN_BASE : Nat := 0x11110
abbrev HOD_BYTES : Nat := 0x11120
abbrev HOD_BUS_ERR : Nat := 0x11124
abbrev HOD_WITHDRAWALS : Nat := 0x11128
abbrev HOD_CH_CTRL (k : Nat) : Nat := 0x10100 + 0x80 * k
abbrev HOD_CH_CFG (k : Nat) : Nat := 0x10104 + 0x80 * k
abbrev HOD_CH_STAT (k : Nat) : Nat := 0x10108 + 0x80 * k
abbrev HOD_CH_CAUSE (k : Nat) : Nat := 0x1010C + 0x80 * k
abbrev HOD_CH_CAUSE_EN (k : Nat) : Nat := 0x10110 + 0x80 * k
abbrev HOD_CH_NEXT_LO (k : Nat) : Nat := 0x10114 + 0x80 * k
abbrev HOD_CH_NEXT_HI (k : Nat) : Nat := 0x10118 + 0x80 * k
abbrev HOD_CH_CUR_LO (k : Nat) : Nat := 0x1011C + 0x80 * k
abbrev HOD_CH_CUR_HI (k : Nat) : Nat := 0x10120 + 0x80 * k
abbrev HOD_CH_MOVED (k : Nat) : Nat := 0x10124 + 0x80 * k
abbrev HOD_CH_RETRIES (k : Nat) : Nat := 0x10128 + 0x80 * k
abbrev HOD_CH_DESCS (k : Nat) : Nat := 0x1012C + 0x80 * k
abbrev MEMCHK_ID (m : Nat) : Nat := 0x9000 + 0x100 * m
abbrev MEMCHK_CFG (m : Nat) : Nat := 0x9004 + 0x100 * m
abbrev MEMCHK_SCRUB (m : Nat) : Nat := 0x9008 + 0x100 * m
abbrev MEMCHK_BUCKET (m : Nat) : Nat := 0x900C + 0x100 * m
abbrev MEMCHK_CE_COUNT (m : Nat) : Nat := 0x9010 + 0x100 * m
abbrev MEMCHK_UE_COUNT (m : Nat) : Nat := 0x9014 + 0x100 * m
abbrev MEMCHK_POISON_WR (m : Nat) : Nat := 0x9018 + 0x100 * m
abbrev MEMCHK_SCRUB_POS (m : Nat) : Nat := 0x901C + 0x100 * m
abbrev MEMCHK_SCRUB_PASSES (m : Nat) : Nat := 0x9020 + 0x100 * m
abbrev MEMCHK_CAUSE (m : Nat) : Nat := 0x9024 + 0x100 * m
abbrev MEMCHK_CAUSE_EN (m : Nat) : Nat := 0x9028 + 0x100 * m
abbrev MEMCHK_LOG_SEL (m : Nat) : Nat := 0x902C + 0x100 * m
abbrev MEMCHK_LOG_ADDR (m : Nat) : Nat := 0x9030 + 0x100 * m
abbrev MEMCHK_LOG_INFO (m : Nat) : Nat := 0x9034 + 0x100 * m
abbrev MEMCHK_LOG_BEAT (m : Nat) : Nat := 0x9038 + 0x100 * m
abbrev MEMCHK_LOG_DROPPED (m : Nat) : Nat := 0x903C + 0x100 * m
abbrev MEMCHK_REMAP_SEL (m : Nat) : Nat := 0x9040 + 0x100 * m
abbrev MEMCHK_REMAP_ENTRY (m : Nat) : Nat := 0x9044 + 0x100 * m
abbrev MEMCHK_REMAP_USED (m : Nat) : Nat := 0x9048 + 0x100 * m
abbrev MAPMEM_CFG (c : Nat) : Nat := 0xA100 + 0x1000 * c
abbrev MAPMEM_STATUS (c : Nat) : Nat := 0xA104 + 0x1000 * c
abbrev MAPMEM_SIZE (c : Nat) : Nat := 0xA108 + 0x1000 * c
abbrev MAPMEM_SCRUB (c : Nat) : Nat := 0xA10C + 0x1000 * c
abbrev MAPMEM_BUCKET (c : Nat) : Nat := 0xA110 + 0x1000 * c
abbrev MAPMEM_CE_COUNT (c : Nat) : Nat := 0xA114 + 0x1000 * c
abbrev MAPMEM_UE_COUNT (c : Nat) : Nat := 0xA118 + 0x1000 * c
abbrev MAPMEM_POISON_WR (c : Nat) : Nat := 0xA11C + 0x1000 * c
abbrev MAPMEM_CRC_RETRY (c : Nat) : Nat := 0xA120 + 0x1000 * c
abbrev MAPMEM_SCRUB_POS (c : Nat) : Nat := 0xA124 + 0x1000 * c
abbrev MAPMEM_SCRUB_PASSES (c : Nat) : Nat := 0xA128 + 0x1000 * c
abbrev MAPMEM_CAUSE (c : Nat) : Nat := 0xA12C + 0x1000 * c
abbrev MAPMEM_CAUSE_EN (c : Nat) : Nat := 0xA130 + 0x1000 * c
abbrev MAPMEM_LOG_SEL (c : Nat) : Nat := 0xA134 + 0x1000 * c
abbrev MAPMEM_LOG_ADDR (c : Nat) : Nat := 0xA138 + 0x1000 * c
abbrev MAPMEM_LOG_INFO (c : Nat) : Nat := 0xA13C + 0x1000 * c
abbrev MAPMEM_LOG_BEAT (c : Nat) : Nat := 0xA140 + 0x1000 * c
abbrev MAPMEM_REMAP_SEL (c : Nat) : Nat := 0xA144 + 0x1000 * c
abbrev MAPMEM_REMAP_ENTRY (c : Nat) : Nat := 0xA148 + 0x1000 * c
abbrev MAPMEM_LOSS_CFG (c : Nat) : Nat := 0xA180 + 0x1000 * c
abbrev MAPMEM_LAYOUT (c : Nat) : Nat := 0xA184 + 0x1000 * c
abbrev MAPMEM_RESTORE (c : Nat) : Nat := 0xA188 + 0x1000 * c
abbrev MAPMEM_RESTORE_MS (c : Nat) : Nat := 0xA18C + 0x1000 * c
abbrev FAB_CFG : Nat := 0xF100
abbrev FAB_REPLAYS : Nat := 0xF104
abbrev FAB_FATALS : Nat := 0xF108
abbrev FAB_POISON_CPL : Nat := 0xF10C
abbrev FAB_LAST_FATAL : Nat := 0xF110
abbrev PWR_STATE : Nat := 0x1100
abbrev PWR_CFG : Nat := 0x1104
abbrev PWR_DOM_STAT : Nat := 0x1108
abbrev PWR_DOM_DRAIN : Nat := 0x110C
abbrev PWR_WAKE_CFG : Nat := 0x1110
abbrev PWR_WAKE_FAIL : Nat := 0x1114
abbrev PWR_REFCLK : Nat := 0x1118
abbrev PWR_PG : Nat := 0x111C
abbrev PWR_STALL_MAX : Nat := 0x1120
abbrev PWR_WAKES : Nat := 0x1124
abbrev PWR_WAKE_TIMEOUTS : Nat := 0x1128
abbrev PWR_FAILOVERS : Nat := 0x112C
abbrev PWR_RES (s : Nat) : Nat := 0x1140 + 4 * s
abbrev KILN_CFG : Nat := 0x2100
abbrev KILN_THRESH : Nat := 0x2104
abbrev KILN_HYST : Nat := 0x2108
abbrev KILN_RISE : Nat := 0x210C
abbrev KILN_STEP : Nat := 0x2110
abbrev KILN_UNITS : Nat := 0x2114
abbrev KILN_RESTART : Nat := 0x2118
abbrev KILN_STATUS : Nat := 0x2120
abbrev KILN_TMAX : Nat := 0x2124
abbrev KILN_TPEAK : Nat := 0x2128
abbrev KILN_SENSOR_FAULT : Nat := 0x212C
abbrev KILN_DEFERRED : Nat := 0x2130
abbrev KILN_TRIPS : Nat := 0x2134
abbrev KILN_LAST_TRIP : Nat := 0x2138
abbrev KILN_TEMP (s : Nat) : Nat := 0x2140 + 4 * s
abbrev KILN_RES (k : Nat) : Nat := 0x21A0 + 4 * k
abbrev EVT_ALERT : Nat := 0x4100
abbrev EVT_MSIX_A : Nat := 0x4104
abbrev EVT_MSIX_B : Nat := 0x4108
abbrev EVT_MSIX_LOST : Nat := 0x410C
abbrev EVT_INTAKE : Nat := 0x4110
abbrev EVT_ASSERTED (k : Nat) : Nat := 0x4200 + 4 * k
abbrev EVT_ROUTE (s : Nat) : Nat := 0x4400 + 4 * s
abbrev EVT_COUNT (s : Nat) : Nat := 0x5000 + 4 * s
abbrev EVT_FW_BODY (i : Nat) : Nat := 0x6000 + 4 * i
abbrev EVT_FW_RAISE : Nat := 0x60F0
abbrev REC_CTRL : Nat := 0x8100
abbrev REC_CFG : Nat := 0x8104
abbrev REC_STATUS : Nat := 0x8108
abbrev REC_CELLS : Nat := 0x810C
abbrev REC_CURSOR : Nat := 0x8110
abbrev REC_WIN_FIRST : Nat := 0x8114
abbrev REC_WIN_INFO : Nat := 0x8118
abbrev REC_NEXT_SEQ : Nat := 0x811C
abbrev REC_OLDEST_SEQ : Nat := 0x8120
abbrev REC_MIRROR_SEQ : Nat := 0x8124
abbrev REC_DROPPED (v : Nat) : Nat := 0x8130 + 4 * v
abbrev REC_EVICTED (v : Nat) : Nat := 0x8150 + 4 * v
abbrev TOP_CHIP_ID : Nat := 0x100
abbrev TOP_STEPPING : Nat := 0x104
abbrev TOP_STRAP : Nat := 0x108
abbrev TOP_MODE : Nat := 0x10C
abbrev TOP_MODE_CAUSE : Nat := 0x110
abbrev TOP_COMPAT : Nat := 0x114
abbrev TOP_CTRL : Nat := 0x118
abbrev TOP_LEDGER_STEP : Nat := 0x11C
abbrev TOP_LEDGER_OUT_LO : Nat := 0x120
abbrev TOP_LEDGER_OUT_HI : Nat := 0x124
abbrev TOP_LEDGER_FAILS : Nat := 0x128
abbrev TOP_LEDGER_BEAT_LO : Nat := 0x12C
abbrev TOP_LEDGER_BEAT_HI : Nat := 0x130
abbrev TOP_START_COUNT : Nat := 0x134
abbrev TOP_START_MS : Nat := 0x138
abbrev TOP_LEFT_OUT_FCH : Nat := 0x13C
abbrev TOP_LEFT_OUT_MM : Nat := 0x140
abbrev TOP_PLANNER_OK : Nat := 0x144
abbrev BLK_ID (base : Nat) : Nat := base + 0x000
abbrev BLK_CAP (base : Nat) : Nat := base + 0x004
abbrev BLK_CTRL (base : Nat) : Nat := base + 0x008
abbrev BLK_STAT (base : Nat) : Nat := base + 0x00C
abbrev EVT_RAW (base : Nat) : Nat := base + 0x010
abbrev EVT_EN (base : Nat) : Nat := base + 0x014
abbrev EVT_PEND (base : Nat) : Nat := base + 0x018
abbrev EVT_FORCE (base : Nat) : Nat := base + 0x01C
abbrev ERR_INFO (base : Nat) : Nat := base + 0x020
abbrev ERR_ADDR_LO (base : Nat) : Nat := base + 0x024
abbrev ERR_ADDR_HI (base : Nat) : Nat := base + 0x028
abbrev BLK_LOCK (base : Nat) : Nat := base + 0x02C

end Reg

namespace F

abbrev BEAT_CTRL_SRC : Fld := ⟨Reg.BEAT_CTRL, 0, 2⟩
abbrev BEAT_CTRL_PTM_PORT : Fld := ⟨Reg.BEAT_CTRL, 2, 1⟩
abbrev BEAT_CTRL_PTM_FAILOVER : Fld := ⟨Reg.BEAT_CTRL, 3, 1⟩
abbrev BEAT_CTRL_SYNC_OUT_MODE : Fld := ⟨Reg.BEAT_CTRL, 4, 2⟩
abbrev BEAT_CTRL_BG_WINDOWS_ONLY : Fld := ⟨Reg.BEAT_CTRL, 6, 1⟩
abbrev BEAT_STATUS_LOCK_STATE : Fld := ⟨Reg.BEAT_STATUS, 0, 3⟩
abbrev BEAT_STATUS_BG_BEAT : Fld := ⟨Reg.BEAT_STATUS, 3, 1⟩
abbrev BEAT_STATUS_WIN_HIT : Fld := ⟨Reg.BEAT_STATUS, 4, 4⟩
abbrev BEAT_STATUS_SLOT : Fld := ⟨Reg.BEAT_STATUS, 8, 6⟩
abbrev BEAT_STATUS_WIN_ARMED : Fld := ⟨Reg.BEAT_STATUS, 14, 1⟩
abbrev BEAT_STATUS_COUNT_VALID : Fld := ⟨Reg.BEAT_STATUS, 15, 1⟩
abbrev BEAT_COUNT_LO_COUNT : Fld := ⟨Reg.BEAT_COUNT_LO, 0, 32⟩
abbrev BEAT_COUNT_HI_COUNT : Fld := ⟨Reg.BEAT_COUNT_HI, 0, 32⟩
abbrev BEAT_CYCLE_CYCLE : Fld := ⟨Reg.BEAT_CYCLE, 0, 15⟩
abbrev BEAT_HOST_OFFSET_LO_OFFSET : Fld := ⟨Reg.BEAT_HOST_OFFSET_LO, 6, 26⟩
abbrev BEAT_HOST_OFFSET_HI_OFFSET : Fld := ⟨Reg.BEAT_HOST_OFFSET_HI, 0, 32⟩
abbrev BEAT_ORIGIN_LO_ORIGIN : Fld := ⟨Reg.BEAT_ORIGIN_LO, 0, 32⟩
abbrev BEAT_ORIGIN_HI_ORIGIN : Fld := ⟨Reg.BEAT_ORIGIN_HI, 0, 32⟩
abbrev BEAT_PHASE_ERR_ERR : Fld := ⟨Reg.BEAT_PHASE_ERR, 0, 32⟩
abbrev BEAT_RATE_ADJ_ADJ : Fld := ⟨Reg.BEAT_RATE_ADJ, 0, 32⟩
abbrev BEAT_PTM_CFG_INTERVAL : Fld := ⟨Reg.BEAT_PTM_CFG, 0, 8⟩
abbrev BEAT_PTM_CFG_LOSS_COUNT : Fld := ⟨Reg.BEAT_PTM_CFG, 8, 8⟩
abbrev BEAT_SYNC_CFG_FRAMES : Fld := ⟨Reg.BEAT_SYNC_CFG, 0, 11⟩
abbrev BEAT_SYNC_CFG_MISS_LIMIT : Fld := ⟨Reg.BEAT_SYNC_CFG, 16, 4⟩
abbrev BEAT_LOCK_CFG_LOCK_FRAMES : Fld := ⟨Reg.BEAT_LOCK_CFG, 0, 8⟩
abbrev BEAT_LOCK_CFG_LOCK_TOL : Fld := ⟨Reg.BEAT_LOCK_CFG, 8, 8⟩
abbrev BEAT_LOCK_CFG_UNLOCK_TOL : Fld := ⟨Reg.BEAT_LOCK_CFG, 16, 8⟩
abbrev BEAT_FAILOVER_BEATS : Fld := ⟨Reg.BEAT_FAILOVER, 0, 8⟩
abbrev BEAT_LATE_COUNT (u : Nat) : Fld := ⟨Reg.BEAT_LATE u, 0, 32⟩
abbrev BEAT_WIN_APPLY_FRAME : Fld := ⟨Reg.BEAT_WIN_APPLY, 0, 31⟩
abbrev BEAT_WIN_APPLY_ARM : Fld := ⟨Reg.BEAT_WIN_APPLY, 31, 1⟩
abbrev BEAT_WIN_PERIOD_PERIOD (k : Nat) : Fld := ⟨Reg.BEAT_WIN_PERIOD k, 0, 17⟩
abbrev BEAT_WIN_START_START (k : Nat) : Fld := ⟨Reg.BEAT_WIN_START k, 0, 22⟩
abbrev BEAT_WIN_LEN_LEN (k : Nat) : Fld := ⟨Reg.BEAT_WIN_LEN k, 0, 23⟩
abbrev TILE_STATE_STATE (t : Nat) : Fld := ⟨Reg.TILE_STATE t, 0, 3⟩
abbrev TILE_STATE_BUSY (t : Nat) : Fld := ⟨Reg.TILE_STATE t, 3, 1⟩
abbrev TILE_STATE_RESULT (t : Nat) : Fld := ⟨Reg.TILE_STATE t, 4, 4⟩
abbrev TILE_CMD_OP (t : Nat) : Fld := ⟨Reg.TILE_CMD t, 0, 3⟩
abbrev TILE_BIND_FN (t : Nat) : Fld := ⟨Reg.TILE_BIND t, 0, 6⟩
abbrev TILE_BIND_BOUND (t : Nat) : Fld := ⟨Reg.TILE_BIND t, 6, 1⟩
abbrev TILE_BIND_PORT (t : Nat) : Fld := ⟨Reg.TILE_BIND t, 7, 1⟩
abbrev TILE_DIE_SHARE_SHARE (t : Nat) : Fld := ⟨Reg.TILE_DIE_SHARE t, 0, 13⟩
abbrev TILE_DIE_SHARE_WEIGHT (t : Nat) : Fld := ⟨Reg.TILE_DIE_SHARE t, 16, 8⟩
abbrev TILE_YARD_MIN (t : Nat) : Fld := ⟨Reg.TILE_YARD t, 0, 12⟩
abbrev TILE_YARD_MAX (t : Nat) : Fld := ⟨Reg.TILE_YARD t, 16, 12⟩
abbrev TILE_QUEUES_MAX_QP (t : Nat) : Fld := ⟨Reg.TILE_QUEUES t, 0, 13⟩
abbrev TILE_QUEUES_MAX_VEC (t : Nat) : Fld := ⟨Reg.TILE_QUEUES t, 16, 9⟩
abbrev TILE_CMDS_MAX_INFLIGHT (t : Nat) : Fld := ⟨Reg.TILE_CMDS t, 0, 19⟩
abbrev TILE_NS_MAX_NS (t : Nat) : Fld := ⟨Reg.TILE_NS t, 0, 11⟩
abbrev TILE_NS_MAX_PH (t : Nat) : Fld := ⟨Reg.TILE_NS t, 16, 9⟩
abbrev TILE_ZONES_MAX_OPEN (t : Nat) : Fld := ⟨Reg.TILE_ZONES t, 0, 13⟩
abbrev TILE_ZONES_MAX_ACTIVE (t : Nat) : Fld := ⟨Reg.TILE_ZONES t, 16, 13⟩
abbrev TILE_COURSES_MAX (t : Nat) : Fld := ⟨Reg.TILE_COURSES t, 0, 18⟩
abbrev TILE_SORT_BASE (t : Nat) : Fld := ⟨Reg.TILE_SORT t, 0, 12⟩
abbrev TILE_SORT_COUNT (t : Nat) : Fld := ⟨Reg.TILE_SORT t, 16, 13⟩
abbrev TILE_KEYS_FIRST_SLOT (t : Nat) : Fld := ⟨Reg.TILE_KEYS t, 0, 9⟩
abbrev TILE_KEYS_LOADED (t : Nat) : Fld := ⟨Reg.TILE_KEYS t, 16, 4⟩
abbrev TILE_EVT_VIS_DRIVE (t : Nat) : Fld := ⟨Reg.TILE_EVT_VIS t, 0, 1⟩
abbrev TILE_EVT_VIS_MEDIA (t : Nat) : Fld := ⟨Reg.TILE_EVT_VIS t, 1, 1⟩
abbrev TILE_DIE_GUAR_COUNT (t : Nat) : Fld := ⟨Reg.TILE_DIE_GUAR t, 0, 32⟩
abbrev TILE_DIE_BORROW_COUNT (t : Nat) : Fld := ⟨Reg.TILE_DIE_BORROW t, 0, 32⟩
abbrev TILE_DIE_DEFER_COUNT (t : Nat) : Fld := ⟨Reg.TILE_DIE_DEFER t, 0, 32⟩
abbrev TILE_YARD_USE_SLOTS (t : Nat) : Fld := ⟨Reg.TILE_YARD_USE t, 0, 12⟩
abbrev TILE_INFLIGHT_COUNT (t : Nat) : Fld := ⟨Reg.TILE_INFLIGHT t, 0, 19⟩
abbrev TILE_COURSE_USE_COUNT (t : Nat) : Fld := ⟨Reg.TILE_COURSE_USE t, 0, 18⟩
abbrev HOST_PORT_CFG_LAYOUT (p : Nat) : Fld := ⟨Reg.HOST_PORT_CFG p, 0, 2⟩
abbrev HOST_PORT_CFG_SRIS (p : Nat) : Fld := ⟨Reg.HOST_PORT_CFG p, 2, 1⟩
abbrev HOST_PORT_CFG_TOTAL_VF (p : Nat) : Fld := ⟨Reg.HOST_PORT_CFG p, 3, 6⟩
abbrev HOST_LINK_CTRL_MAX_SPEED (p : Nat) : Fld := ⟨Reg.HOST_LINK_CTRL p, 0, 3⟩
abbrev HOST_LINK_CTRL_RETRAIN (p : Nat) : Fld := ⟨Reg.HOST_LINK_CTRL p, 3, 1⟩
abbrev HOST_LINK_CTRL_L1_EN (p : Nat) : Fld := ⟨Reg.HOST_LINK_CTRL p, 4, 1⟩
abbrev HOST_LINK_CTRL_L1SS_EN (p : Nat) : Fld := ⟨Reg.HOST_LINK_CTRL p, 5, 1⟩
abbrev HOST_LINK_STATUS_SPEED (p : Nat) : Fld := ⟨Reg.HOST_LINK_STATUS p, 0, 3⟩
abbrev HOST_LINK_STATUS_WIDTH (p : Nat) : Fld := ⟨Reg.HOST_LINK_STATUS p, 3, 5⟩
abbrev HOST_LINK_STATUS_FLIT (p : Nat) : Fld := ⟨Reg.HOST_LINK_STATUS p, 8, 1⟩
abbrev HOST_LINK_STATUS_UP (p : Nat) : Fld := ⟨Reg.HOST_LINK_STATUS p, 9, 1⟩
abbrev HOST_LINK_STATUS_LTSSM (p : Nat) : Fld := ⟨Reg.HOST_LINK_STATUS p, 10, 6⟩
abbrev HOST_FETCH_CFG_TILE_BURST (p : Nat) : Fld := ⟨Reg.HOST_FETCH_CFG p, 0, 8⟩
abbrev HOST_FETCH_CFG_URGENT_PER_BEAT (p : Nat) : Fld := ⟨Reg.HOST_FETCH_CFG p, 8, 8⟩
abbrev HOST_ATOMIC_MY72 (p : Nat) : Fld := ⟨Reg.HOST_ATOMIC p, 0, 1⟩
abbrev HOST_ATOMIC_ACTIVE (p : Nat) : Fld := ⟨Reg.HOST_ATOMIC p, 1, 1⟩
abbrev HOST_CPL_STAT_PAUSED (p : Nat) : Fld := ⟨Reg.HOST_CPL_STAT p, 0, 1⟩
abbrev HOST_CPL_STAT_DWE_PENDING (p : Nat) : Fld := ⟨Reg.HOST_CPL_STAT p, 1, 1⟩
abbrev HOST_FETCHED_COUNT (p : Nat) : Fld := ⟨Reg.HOST_FETCHED p, 0, 32⟩
abbrev HOST_POSTED_COUNT (p : Nat) : Fld := ⟨Reg.HOST_POSTED p, 0, 32⟩
abbrev HOST_CQ_FULL_COUNT (p : Nat) : Fld := ⟨Reg.HOST_CQ_FULL p, 0, 32⟩
abbrev HOST_ABORTED_COUNT (p : Nat) : Fld := ⟨Reg.HOST_ABORTED p, 0, 32⟩
abbrev HOST_NOT_ABORTED_COUNT (p : Nat) : Fld := ⟨Reg.HOST_NOT_ABORTED p, 0, 32⟩
abbrev HOST_DWE_DELIVERED_COUNT (p : Nat) : Fld := ⟨Reg.HOST_DWE_DELIVERED p, 0, 32⟩
abbrev HOST_REPLAY_COUNT (p : Nat) : Fld := ⟨Reg.HOST_REPLAY p, 0, 32⟩
abbrev HOST_CREDIT_STALL_COUNT (p : Nat) : Fld := ⟨Reg.HOST_CREDIT_STALL p, 0, 32⟩
abbrev HOST_LAST_PAUSE_US (p : Nat) : Fld := ⟨Reg.HOST_LAST_PAUSE p, 0, 12⟩
abbrev SORT_CFG_LBA_SHIFT : Fld := ⟨Reg.SORT_CFG, 0, 4⟩
abbrev SORT_CFG_ZG_SHIFT : Fld := ⟨Reg.SORT_CFG, 8, 4⟩
abbrev SORT_CFG_READ_HINTS : Fld := ⟨Reg.SORT_CFG, 16, 1⟩
abbrev SORT_CMD_INDEX : Fld := ⟨Reg.SORT_CMD, 0, 12⟩
abbrev SORT_CMD_END : Fld := ⟨Reg.SORT_CMD, 12, 12⟩
abbrev SORT_CMD_OP : Fld := ⟨Reg.SORT_CMD, 24, 3⟩
abbrev SORT_STATUS_BUSY : Fld := ⟨Reg.SORT_STATUS, 0, 1⟩
abbrev SORT_STATUS_RESULT : Fld := ⟨Reg.SORT_STATUS, 1, 3⟩
abbrev SORT_STATUS_STAGE_INDEX : Fld := ⟨Reg.SORT_STATUS, 4, 12⟩
abbrev SORT_STATUS_STAGE_VALID : Fld := ⟨Reg.SORT_STATUS, 16, 1⟩
abbrev SORT_STATUS_DIRTY : Fld := ⟨Reg.SORT_STATUS, 17, 1⟩
abbrev SORT_STATUS_SHADOW_UE : Fld := ⟨Reg.SORT_STATUS, 18, 1⟩
abbrev SORT_STATUS_LEVEL : Fld := ⟨Reg.SORT_STATUS, 19, 2⟩
abbrev SORT_THROTTLE_SKIP1 : Fld := ⟨Reg.SORT_THROTTLE, 0, 3⟩
abbrev SORT_THROTTLE_SKIP2 : Fld := ⟨Reg.SORT_THROTTLE, 4, 3⟩
abbrev SORT_THROTTLE_SKIP3 : Fld := ⟨Reg.SORT_THROTTLE, 8, 3⟩
abbrev SORT_UPD_CFG_PROMOTE : Fld := ⟨Reg.SORT_UPD_CFG, 0, 4⟩
abbrev SORT_SEARCHES_COUNT : Fld := ⟨Reg.SORT_SEARCHES, 0, 32⟩
abbrev SORT_DEFAULTS_COUNT : Fld := ⟨Reg.SORT_DEFAULTS, 0, 32⟩
abbrev SORT_UPDATES_COUNT : Fld := ⟨Reg.SORT_UPDATES, 0, 32⟩
abbrev SORT_FIXED_COUNT : Fld := ⟨Reg.SORT_FIXED, 0, 32⟩
abbrev SORT_QUEUE_PEAK_DEPTH : Fld := ⟨Reg.SORT_QUEUE_PEAK, 0, 10⟩
abbrev SORT_WALKS_COUNT : Fld := ⟨Reg.SORT_WALKS, 0, 32⟩
abbrev COURSE_CFG_WIDTH : Fld := ⟨Reg.COURSE_CFG, 0, 6⟩
abbrev COURSE_CFG_CELL : Fld := ⟨Reg.COURSE_CFG, 6, 2⟩
abbrev COURSE_CFG_CONTEXTS : Fld := ⟨Reg.COURSE_CFG, 8, 5⟩
abbrev COURSE_JOURNAL_INTERVAL : Fld := ⟨Reg.COURSE_JOURNAL, 0, 7⟩
abbrev COURSE_CKPT_CYCLE : Fld := ⟨Reg.COURSE_CKPT, 0, 17⟩
abbrev COURSE_STATUS_CTX_BUSY : Fld := ⟨Reg.COURSE_STATUS, 0, 5⟩
abbrev COURSE_STATUS_REPLACING : Fld := ⟨Reg.COURSE_STATUS, 5, 1⟩
abbrev COURSE_JSEQ_LO_JSEQ : Fld := ⟨Reg.COURSE_JSEQ_LO, 0, 32⟩
abbrev COURSE_JSEQ_HI_JSEQ : Fld := ⟨Reg.COURSE_JSEQ_HI, 0, 32⟩
abbrev COURSE_JDUR_LO_JDUR : Fld := ⟨Reg.COURSE_JDUR_LO, 0, 32⟩
abbrev COURSE_JDUR_HI_JDUR : Fld := ⟨Reg.COURSE_JDUR_HI, 0, 32⟩
abbrev COURSE_WSEQ_LO_WSEQ : Fld := ⟨Reg.COURSE_WSEQ_LO, 0, 32⟩
abbrev COURSE_WSEQ_HI_WSEQ : Fld := ⟨Reg.COURSE_WSEQ_HI, 0, 24⟩
abbrev COURSE_CKPT_POS_SEGMENT : Fld := ⟨Reg.COURSE_CKPT_POS, 0, 16⟩
abbrev COURSE_WAVES_COUNT : Fld := ⟨Reg.COURSE_WAVES, 0, 32⟩
abbrev COURSE_PROG_FAILS_COUNT : Fld := ⟨Reg.COURSE_PROG_FAILS, 0, 32⟩
abbrev COURSE_MERGES_COUNT : Fld := ⟨Reg.COURSE_MERGES, 0, 32⟩
abbrev COURSE_PALLET_MUS_COUNT : Fld := ⟨Reg.COURSE_PALLET_MUS, 0, 32⟩
abbrev COURSE_FOLD_MUS_COUNT : Fld := ⟨Reg.COURSE_FOLD_MUS, 0, 32⟩
abbrev YARD_CFG_EXTRA : Fld := ⟨Reg.YARD_CFG, 0, 6⟩
abbrev YARD_CFG_PALLET_IDLE : Fld := ⟨Reg.YARD_CFG, 8, 8⟩
abbrev YARD_STATUS_FREE : Fld := ⟨Reg.YARD_STATUS, 0, 12⟩
abbrev YARD_STATUS_RESERVE : Fld := ⟨Reg.YARD_STATUS, 12, 12⟩
abbrev YARD_STATUS_CFG_REFUSED : Fld := ⟨Reg.YARD_STATUS, 24, 1⟩
abbrev YARD_POOL_USER_POOL : Fld := ⟨Reg.YARD_POOL, 0, 12⟩
abbrev YARD_POOL_SHARED_FREE : Fld := ⟨Reg.YARD_POOL, 16, 12⟩
abbrev YARD_PEAK_SLOTS : Fld := ⟨Reg.YARD_PEAK, 0, 12⟩
abbrev YARD_UE_COUNT : Fld := ⟨Reg.YARD_UE, 0, 32⟩
abbrev YARD_SUPERSEDED_COUNT : Fld := ⟨Reg.YARD_SUPERSEDED, 0, 32⟩
abbrev FCH_CFG_IFACE (n : Nat) : Fld := ⟨Reg.FCH_CFG n, 0, 1⟩
abbrev FCH_CFG_RATE (n : Nat) : Fld := ⟨Reg.FCH_CFG n, 1, 3⟩
abbrev FCH_CFG_CE_MASK (n : Nat) : Fld := ⟨Reg.FCH_CFG n, 4, 8⟩
abbrev FCH_CFG_LUNS_PER_CE (n : Nat) : Fld := ⟨Reg.FCH_CFG n, 12, 2⟩
abbrev FCH_CFG_PLANES (n : Nat) : Fld := ⟨Reg.FCH_CFG n, 14, 2⟩
abbrev FCH_CFG_RETRAIN (n : Nat) : Fld := ⟨Reg.FCH_CFG n, 16, 1⟩
abbrev FCH_PLAN_BASE_BASE (n : Nat) : Fld := ⟨Reg.FCH_PLAN_BASE n, 0, 32⟩
abbrev FCH_PROF_SLC_NOM (n : Nat) : Fld := ⟨Reg.FCH_PROF_SLC n, 0, 8⟩
abbrev FCH_PROF_SLC_MAX (n : Nat) : Fld := ⟨Reg.FCH_PROF_SLC n, 8, 8⟩
abbrev FCH_PROF_TLC_NOM (n : Nat) : Fld := ⟨Reg.FCH_PROF_TLC n, 0, 8⟩
abbrev FCH_PROF_TLC_MAX (n : Nat) : Fld := ⟨Reg.FCH_PROF_TLC n, 8, 8⟩
abbrev FCH_PROF_QLC_NOM (n : Nat) : Fld := ⟨Reg.FCH_PROF_QLC n, 0, 8⟩
abbrev FCH_PROF_QLC_MAX (n : Nat) : Fld := ⟨Reg.FCH_PROF_QLC n, 8, 8⟩
abbrev FCH_PROF_PLC_NOM (n : Nat) : Fld := ⟨Reg.FCH_PROF_PLC n, 0, 8⟩
abbrev FCH_PROF_PLC_MAX (n : Nat) : Fld := ⟨Reg.FCH_PROF_PLC n, 8, 8⟩
abbrev FCH_PROF_ERASE_NOM (n : Nat) : Fld := ⟨Reg.FCH_PROF_ERASE n, 0, 11⟩
abbrev FCH_PROF_ERASE_MAX (n : Nat) : Fld := ⟨Reg.FCH_PROF_ERASE n, 16, 11⟩
abbrev FCH_LUN_LOST_LO_LOST (n : Nat) : Fld := ⟨Reg.FCH_LUN_LOST_LO n, 0, 32⟩
abbrev FCH_LUN_LOST_HI_LOST (n : Nat) : Fld := ⟨Reg.FCH_LUN_LOST_HI n, 0, 32⟩
abbrev FCH_PROG_FAIL_COUNT (n : Nat) : Fld := ⟨Reg.FCH_PROG_FAIL n, 0, 32⟩
abbrev FCH_XFER_ERR_COUNT (n : Nat) : Fld := ⟨Reg.FCH_XFER_ERR n, 0, 32⟩
abbrev FCH_PROF_READ_TR (n : Nat) : Fld := ⟨Reg.FCH_PROF_READ n, 0, 12⟩
abbrev FCH_PROF_READ_TR_MAX (n : Nat) : Fld := ⟨Reg.FCH_PROF_READ n, 16, 12⟩
abbrev FCH_PROF_SOFT_SR2 (n : Nat) : Fld := ⟨Reg.FCH_PROF_SOFT n, 0, 12⟩
abbrev FCH_PROF_SOFT_SR3 (n : Nat) : Fld := ⟨Reg.FCH_PROF_SOFT n, 16, 12⟩
abbrev FCH_PROF_SUS_TSUS (n : Nat) : Fld := ⟨Reg.FCH_PROF_SUS n, 0, 8⟩
abbrev FCH_PROF_SUS_PROG_MAX (n : Nat) : Fld := ⟨Reg.FCH_PROF_SUS n, 8, 8⟩
abbrev FCH_PROF_SUS_ERASE_MAX (n : Nat) : Fld := ⟨Reg.FCH_PROF_SUS n, 16, 8⟩
abbrev FCH_READ_CFG_DEFAULT_SET (n : Nat) : Fld := ⟨Reg.FCH_READ_CFG n, 0, 4⟩
abbrev FCH_READ_CFG_SETS (n : Nat) : Fld := ⟨Reg.FCH_READ_CFG n, 4, 4⟩
abbrev FCH_READ_CFG_INDEP_PLANE (n : Nat) : Fld := ⟨Reg.FCH_READ_CFG n, 8, 1⟩
abbrev FCH_READS_COUNT (n : Nat) : Fld := ⟨Reg.FCH_READS n, 0, 32⟩
abbrev FCH_SUSPENDS_COUNT (n : Nat) : Fld := ⟨Reg.FCH_SUSPENDS n, 0, 32⟩
abbrev FCH_SUS_EXHAUSTED_COUNT (n : Nat) : Fld := ⟨Reg.FCH_SUS_EXHAUSTED n, 0, 32⟩
abbrev FCH_READ_LATE_COUNT (n : Nat) : Fld := ⟨Reg.FCH_READ_LATE n, 0, 32⟩
abbrev FCH_RA_TARGET_COUNT (n : Nat) : Fld := ⟨Reg.FCH_RA_TARGET n, 0, 32⟩
abbrev LDPC_CFG_HARD_ITER : Fld := ⟨Reg.LDPC_CFG, 0, 6⟩
abbrev LDPC_CFG_SOFT_ITER : Fld := ⟨Reg.LDPC_CFG, 8, 6⟩
abbrev LDPC_CFG_MARGIN : Fld := ⟨Reg.LDPC_CFG, 16, 10⟩
abbrev LDPC_LADDER_STEP1_EN : Fld := ⟨Reg.LDPC_LADDER, 0, 1⟩
abbrev LDPC_LADDER_STEP2_EN : Fld := ⟨Reg.LDPC_LADDER, 1, 1⟩
abbrev LDPC_LADDER_STEP3_EN : Fld := ⟨Reg.LDPC_LADDER, 2, 1⟩
abbrev LDPC_LADDER_LR_SKIP_SOFT : Fld := ⟨Reg.LDPC_LADDER, 3, 1⟩
abbrev LDPC_STATUS_HARD_BUSY : Fld := ⟨Reg.LDPC_STATUS, 0, 5⟩
abbrev LDPC_STATUS_SOFT_BUSY : Fld := ⟨Reg.LDPC_STATUS, 5, 3⟩
abbrev LDPC_HARD_CW_COUNT : Fld := ⟨Reg.LDPC_HARD_CW, 0, 32⟩
abbrev LDPC_HARD_FAIL_COUNT : Fld := ⟨Reg.LDPC_HARD_FAIL, 0, 32⟩
abbrev LDPC_STEP1_OK_COUNT : Fld := ⟨Reg.LDPC_STEP1_OK, 0, 32⟩
abbrev LDPC_STEP2_OK_COUNT : Fld := ⟨Reg.LDPC_STEP2_OK, 0, 32⟩
abbrev LDPC_STEP3_OK_COUNT : Fld := ⟨Reg.LDPC_STEP3_OK, 0, 32⟩
abbrev LDPC_STEP4_OK_COUNT : Fld := ⟨Reg.LDPC_STEP4_OK, 0, 32⟩
abbrev LDPC_UNRECOVERED_COUNT : Fld := ⟨Reg.LDPC_UNRECOVERED, 0, 32⟩
abbrev LDPC_MAC_FAIL_COUNT : Fld := ⟨Reg.LDPC_MAC_FAIL, 0, 32⟩
abbrev LDPC_RA_LATENCY_COUNT : Fld := ⟨Reg.LDPC_RA_LATENCY, 0, 32⟩
abbrev LDPC_MARGIN_HITS_COUNT : Fld := ⟨Reg.LDPC_MARGIN_HITS, 0, 32⟩
abbrev TROWEL_CFG_GC_EN : Fld := ⟨Reg.TROWEL_CFG, 0, 1⟩
abbrev TROWEL_CFG_REFRESH_EN : Fld := ⟨Reg.TROWEL_CFG, 1, 1⟩
abbrev TROWEL_CFG_WEAR_EN : Fld := ⟨Reg.TROWEL_CFG, 2, 1⟩
abbrev TROWEL_CFG_REBUILD_ANYTIME : Fld := ⟨Reg.TROWEL_CFG, 3, 1⟩
abbrev TROWEL_CFG_CONTEXTS : Fld := ⟨Reg.TROWEL_CFG, 4, 3⟩
abbrev TROWEL_BUDGET_SHARE : Fld := ⟨Reg.TROWEL_BUDGET, 0, 13⟩
abbrev TROWEL_YARD_MAX : Fld := ⟨Reg.TROWEL_YARD, 0, 12⟩
abbrev TROWEL_GC_HEADROOM_PM : Fld := ⟨Reg.TROWEL_GC, 0, 10⟩
abbrev TROWEL_GC_START_PM : Fld := ⟨Reg.TROWEL_GC, 16, 10⟩
abbrev TROWEL_GC_URGENT_URGENT_PM : Fld := ⟨Reg.TROWEL_GC_URGENT, 0, 10⟩
abbrev TROWEL_DISTURB_A_SLC : Fld := ⟨Reg.TROWEL_DISTURB_A, 0, 16⟩
abbrev TROWEL_DISTURB_A_TLC : Fld := ⟨Reg.TROWEL_DISTURB_A, 16, 16⟩
abbrev TROWEL_DISTURB_B_QLC : Fld := ⟨Reg.TROWEL_DISTURB_B, 0, 16⟩
abbrev TROWEL_DISTURB_B_PLC : Fld := ⟨Reg.TROWEL_DISTURB_B, 16, 16⟩
abbrev TROWEL_RETENTION_SAMPLES : Fld := ⟨Reg.TROWEL_RETENTION, 0, 8⟩
abbrev TROWEL_RETENTION_MAX_AGE : Fld := ⟨Reg.TROWEL_RETENTION, 16, 16⟩
abbrev TROWEL_WEAR_SPREAD_LIMIT : Fld := ⟨Reg.TROWEL_WEAR, 0, 16⟩
abbrev TROWEL_WEAR_PE_RATED : Fld := ⟨Reg.TROWEL_WEAR, 16, 16⟩
abbrev TROWEL_WEAR_COLD_COLD : Fld := ⟨Reg.TROWEL_WEAR_COLD, 0, 16⟩
abbrev TROWEL_SPARE_LOW : Fld := ⟨Reg.TROWEL_SPARE, 0, 18⟩
abbrev TROWEL_LUN_CFG_RETIRE_LIMIT : Fld := ⟨Reg.TROWEL_LUN_CFG, 0, 8⟩
abbrev TROWEL_LUN_CFG_TIMEOUT_LIMIT : Fld := ⟨Reg.TROWEL_LUN_CFG, 8, 4⟩
abbrev TROWEL_LUN_CFG_XFER_LIMIT : Fld := ⟨Reg.TROWEL_LUN_CFG, 16, 8⟩
abbrev TROWEL_STATUS_JOB : Fld := ⟨Reg.TROWEL_STATUS, 0, 3⟩
abbrev TROWEL_STATUS_REBUILD_ACTIVE : Fld := ⟨Reg.TROWEL_STATUS, 3, 1⟩
abbrev TROWEL_STATUS_SPARES_LOW : Fld := ⟨Reg.TROWEL_STATUS, 4, 1⟩
abbrev TROWEL_STATUS_SPARES_EXHAUSTED : Fld := ⟨Reg.TROWEL_STATUS, 5, 1⟩
abbrev TROWEL_STATUS_GC_URGENT : Fld := ⟨Reg.TROWEL_STATUS, 6, 1⟩
abbrev TROWEL_STATUS_CFG_REFUSED : Fld := ⟨Reg.TROWEL_STATUS, 7, 1⟩
abbrev TROWEL_SPARES_BRICKS : Fld := ⟨Reg.TROWEL_SPARES, 0, 18⟩
abbrev TROWEL_REBUILD_LEFT_COURSES : Fld := ⟨Reg.TROWEL_REBUILD_LEFT, 0, 18⟩
abbrev TROWEL_ERASE_SPREAD_MIN : Fld := ⟨Reg.TROWEL_ERASE_SPREAD, 0, 16⟩
abbrev TROWEL_ERASE_SPREAD_MAX : Fld := ⟨Reg.TROWEL_ERASE_SPREAD, 16, 16⟩
abbrev TROWEL_ERASE_AVG_AVG : Fld := ⟨Reg.TROWEL_ERASE_AVG, 0, 16⟩
abbrev TROWEL_FREE_COURSES : Fld := ⟨Reg.TROWEL_FREE, 0, 18⟩
abbrev TROWEL_GC_MUS_COUNT : Fld := ⟨Reg.TROWEL_GC_MUS, 0, 32⟩
abbrev TROWEL_REFRESH_MUS_COUNT : Fld := ⟨Reg.TROWEL_REFRESH_MUS, 0, 32⟩
abbrev TROWEL_WEAR_MUS_COUNT : Fld := ⟨Reg.TROWEL_WEAR_MUS, 0, 32⟩
abbrev TROWEL_REBUILT_COUNT : Fld := ⟨Reg.TROWEL_REBUILT, 0, 32⟩
abbrev TROWEL_ERASES_COUNT : Fld := ⟨Reg.TROWEL_ERASES, 0, 32⟩
abbrev TROWEL_ERASE_FAILS_COUNT : Fld := ⟨Reg.TROWEL_ERASE_FAILS, 0, 32⟩
abbrev TROWEL_RETIRED_COUNT : Fld := ⟨Reg.TROWEL_RETIRED, 0, 32⟩
abbrev TROWEL_OVER_BUDGET_COUNT : Fld := ⟨Reg.TROWEL_OVER_BUDGET, 0, 32⟩
abbrev PWR_HOLDUP_CFG_PF_FILTER : Fld := ⟨Reg.PWR_HOLDUP_CFG, 0, 8⟩
abbrev PWR_HOLDUP_CFG_OK_FRAMES : Fld := ⟨Reg.PWR_HOLDUP_CFG, 8, 8⟩
abbrev PWR_HOLDUP_CFG_RESTART_FRAMES : Fld := ⟨Reg.PWR_HOLDUP_CFG, 16, 8⟩
abbrev PWR_HOLDUP_STAT_HOLDUP_OK : Fld := ⟨Reg.PWR_HOLDUP_STAT, 0, 1⟩
abbrev PWR_HOLDUP_STAT_WRITE_THROUGH : Fld := ⟨Reg.PWR_HOLDUP_STAT, 1, 1⟩
abbrev PWR_HOLDUP_STAT_DRAINING : Fld := ⟨Reg.PWR_HOLDUP_STAT, 2, 1⟩
abbrev PWR_HOLDUP_STAT_ARMED : Fld := ⟨Reg.PWR_HOLDUP_STAT, 3, 2⟩
abbrev PWR_GROUT_LAST_BEATS : Fld := ⟨Reg.PWR_GROUT_LAST, 0, 9⟩
abbrev PWR_GROUT_LAST_CAUSE : Fld := ⟨Reg.PWR_GROUT_LAST, 16, 5⟩
abbrev PWR_GROUT_LAST_SEALED : Fld := ⟨Reg.PWR_GROUT_LAST, 21, 1⟩
abbrev PWR_GROUT_ID_LO_ID : Fld := ⟨Reg.PWR_GROUT_ID_LO, 0, 32⟩
abbrev PWR_GROUT_ID_HI_ID : Fld := ⟨Reg.PWR_GROUT_ID_HI, 0, 32⟩
abbrev PWR_REPLAY_STAT_REPLAYED : Fld := ⟨Reg.PWR_REPLAY_STAT, 0, 1⟩
abbrev PWR_REPLAY_STAT_GAP : Fld := ⟨Reg.PWR_REPLAY_STAT, 1, 1⟩
abbrev PWR_REPLAY_STAT_UNSEALED : Fld := ⟨Reg.PWR_REPLAY_STAT, 2, 1⟩
abbrev PWR_REPLAY_STAT_NO_MANIFEST : Fld := ⟨Reg.PWR_REPLAY_STAT, 3, 1⟩
abbrev PWR_REPLAY_RECORDS_COUNT : Fld := ⟨Reg.PWR_REPLAY_RECORDS, 0, 32⟩
abbrev PWR_REPLAY_MUS_COUNT : Fld := ⟨Reg.PWR_REPLAY_MUS, 0, 32⟩
abbrev PWR_REPLAY_SCAN_COUNT : Fld := ⟨Reg.PWR_REPLAY_SCAN, 0, 32⟩
abbrev PWR_REPLAY_REJECT_COUNT : Fld := ⟨Reg.PWR_REPLAY_REJECT, 0, 32⟩
abbrev PWR_REPLAY_MS_S10 : Fld := ⟨Reg.PWR_REPLAY_MS, 0, 16⟩
abbrev PWR_REPLAY_MS_S11 : Fld := ⟨Reg.PWR_REPLAY_MS, 16, 16⟩
abbrev PWR_GROUT_COUNT_COUNT : Fld := ⟨Reg.PWR_GROUT_COUNT, 0, 32⟩
abbrev MAC_CFG_KAT_EPOCH : Fld := ⟨Reg.MAC_CFG, 0, 1⟩
abbrev MAC_STATUS_WRITE_ACTIVE : Fld := ⟨Reg.MAC_STATUS, 0, 3⟩
abbrev MAC_STATUS_READ_ACTIVE : Fld := ⟨Reg.MAC_STATUS, 3, 3⟩
abbrev MAC_STATUS_ENTROPY_OK : Fld := ⟨Reg.MAC_STATUS, 6, 1⟩
abbrev MAC_STATUS_REFUSING : Fld := ⟨Reg.MAC_STATUS, 7, 1⟩
abbrev MAC_STATUS_WSEQ_LIMIT : Fld := ⟨Reg.MAC_STATUS, 8, 1⟩
abbrev MAC_ENGINE_OK_WRITE : Fld := ⟨Reg.MAC_ENGINE_OK, 0, 5⟩
abbrev MAC_ENGINE_OK_READ : Fld := ⟨Reg.MAC_ENGINE_OK, 8, 5⟩
abbrev MAC_DRBG_LEFT_COUNT : Fld := ⟨Reg.MAC_DRBG_LEFT, 0, 32⟩
abbrev MAC_TAGS_FORMED_COUNT : Fld := ⟨Reg.MAC_TAGS_FORMED, 0, 32⟩
abbrev MAC_TAGS_CHECKED_COUNT : Fld := ⟨Reg.MAC_TAGS_CHECKED, 0, 32⟩
abbrev MAC_TAG_FAIL_COUNT : Fld := ⟨Reg.MAC_TAG_FAIL, 0, 32⟩
abbrev MAC_UNVERIFIABLE_COUNT : Fld := ⟨Reg.MAC_UNVERIFIABLE, 0, 32⟩
abbrev MAC_KEY_ERASED_OPS_COUNT : Fld := ⟨Reg.MAC_KEY_ERASED_OPS, 0, 32⟩
abbrev MAC_SEAL_EPOCH_LO_EPOCH : Fld := ⟨Reg.MAC_SEAL_EPOCH_LO, 0, 32⟩
abbrev MAC_SEAL_EPOCH_HI_EPOCH : Fld := ⟨Reg.MAC_SEAL_EPOCH_HI, 0, 32⟩
abbrev MAC_SEAL_ZONES_COUNT : Fld := ⟨Reg.MAC_SEAL_ZONES, 0, 32⟩
abbrev MAC_TILE_KEY_CUR (t : Nat) : Fld := ⟨Reg.MAC_TILE_KEY t, 0, 2⟩
abbrev MAC_TILE_KEY_SWEEPING (t : Nat) : Fld := ⟨Reg.MAC_TILE_KEY t, 2, 1⟩
abbrev MAC_TILE_KEY_RESULT (t : Nat) : Fld := ⟨Reg.MAC_TILE_KEY t, 4, 4⟩
abbrev MAC_SLOT_STATE (s : Nat) : Fld := ⟨Reg.MAC_SLOT s, 0, 3⟩
abbrev MAC_SLOT_SOURCE (s : Nat) : Fld := ⟨Reg.MAC_SLOT s, 3, 1⟩
abbrev MAC_SLOT_GEN (s : Nat) : Fld := ⟨Reg.MAC_SLOT s, 4, 24⟩
abbrev MAC_SLOT_TAGGED_COUNT (s : Nat) : Fld := ⟨Reg.MAC_SLOT_TAGGED s, 0, 32⟩
abbrev SEC_STATUS_BOOT_SRC : Fld := ⟨Reg.SEC_STATUS, 0, 3⟩
abbrev SEC_STATUS_ACTIVE_SLOT : Fld := ⟨Reg.SEC_STATUS, 3, 2⟩
abbrev SEC_STATUS_PENDING : Fld := ⟨Reg.SEC_STATUS, 5, 1⟩
abbrev SEC_STATUS_DEBUG_UNLOCKED : Fld := ⟨Reg.SEC_STATUS, 6, 1⟩
abbrev SEC_STATUS_DEBUG_NEVER : Fld := ⟨Reg.SEC_STATUS, 7, 1⟩
abbrev SEC_STATUS_ACT_PHASE : Fld := ⟨Reg.SEC_STATUS, 8, 2⟩
abbrev SEC_STATUS_LAST_REVERTED : Fld := ⟨Reg.SEC_STATUS, 10, 1⟩
abbrev SEC_SVN_FUSE_COUNT : Fld := ⟨Reg.SEC_SVN, 0, 7⟩
abbrev SEC_SVN_RUNNING : Fld := ⟨Reg.SEC_SVN, 8, 7⟩
abbrev SEC_SVN_ROOT_REVOKED : Fld := ⟨Reg.SEC_SVN, 16, 4⟩
abbrev SEC_SVN_ROOT : Fld := ⟨Reg.SEC_SVN, 20, 2⟩
abbrev SEC_FW_REV_LO_FR : Fld := ⟨Reg.SEC_FW_REV_LO, 0, 32⟩
abbrev SEC_FW_REV_HI_FR : Fld := ⟨Reg.SEC_FW_REV_HI, 0, 32⟩
abbrev SEC_SIDEBAND_ENABLE : Fld := ⟨Reg.SEC_SIDEBAND, 0, 1⟩
abbrev SEC_SIDEBAND_REQUIRE_SESSION : Fld := ⟨Reg.SEC_SIDEBAND, 1, 1⟩
abbrev SEC_SIDEBAND_MODE : Fld := ⟨Reg.SEC_SIDEBAND, 2, 1⟩
abbrev SEC_SIDEBAND_ADDRESS : Fld := ⟨Reg.SEC_SIDEBAND, 4, 7⟩
abbrev SEC_SESSIONS_TILE : Fld := ⟨Reg.SEC_SESSIONS, 0, 7⟩
abbrev SEC_SESSIONS_MGMT : Fld := ⟨Reg.SEC_SESSIONS, 8, 4⟩
abbrev SEC_AUTH_FAILS_COUNT : Fld := ⟨Reg.SEC_AUTH_FAILS, 0, 32⟩
abbrev SEC_SESSION_LIMIT_COUNT : Fld := ⟨Reg.SEC_SESSION_LIMIT, 0, 32⟩
abbrev SEC_UNIT_ID_ID (k : Nat) : Fld := ⟨Reg.SEC_UNIT_ID k, 0, 32⟩
abbrev SEC_DEVICE_ID_ID (k : Nat) : Fld := ⟨Reg.SEC_DEVICE_ID k, 0, 32⟩
abbrev SEC_MBX_CMD_OP : Fld := ⟨Reg.SEC_MBX_CMD, 0, 8⟩
abbrev SEC_MBX_STATUS_BUSY : Fld := ⟨Reg.SEC_MBX_STATUS, 0, 1⟩
abbrev SEC_MBX_STATUS_RESULT : Fld := ⟨Reg.SEC_MBX_STATUS, 4, 4⟩
abbrev SEC_MBX_STATUS_PATH : Fld := ⟨Reg.SEC_MBX_STATUS, 8, 2⟩
abbrev SEC_MBX_ARG_ARG (k : Nat) : Fld := ⟨Reg.SEC_MBX_ARG k, 0, 32⟩
abbrev SEC_MBX_BANK_BANK : Fld := ⟨Reg.SEC_MBX_BANK, 0, 3⟩
abbrev SEC_MBX_LEN_LEN : Fld := ⟨Reg.SEC_MBX_LEN, 0, 15⟩
abbrev SEC_MBX_DATA_DATA (i : Nat) : Fld := ⟨Reg.SEC_MBX_DATA i, 0, 32⟩
abbrev HOD_RETRY_COUNT : Fld := ⟨Reg.HOD_RETRY, 0, 3⟩
abbrev HOD_SWREQ_LINE : Fld := ⟨Reg.HOD_SWREQ, 0, 16⟩
abbrev HOD_ACTIVE_CH : Fld := ⟨Reg.HOD_ACTIVE, 0, 32⟩
abbrev HOD_HALTED_CH : Fld := ⟨Reg.HOD_HALTED, 0, 32⟩
abbrev HOD_PLAN_BASE_BASE : Fld := ⟨Reg.HOD_PLAN_BASE, 0, 32⟩
abbrev HOD_BYTES_COUNT : Fld := ⟨Reg.HOD_BYTES, 0, 32⟩
abbrev HOD_BUS_ERR_COUNT : Fld := ⟨Reg.HOD_BUS_ERR, 0, 32⟩
abbrev HOD_WITHDRAWALS_COUNT : Fld := ⟨Reg.HOD_WITHDRAWALS, 0, 32⟩
abbrev HOD_CH_CTRL_START (k : Nat) : Fld := ⟨Reg.HOD_CH_CTRL k, 0, 1⟩
abbrev HOD_CH_CTRL_KICK (k : Nat) : Fld := ⟨Reg.HOD_CH_CTRL k, 1, 1⟩
abbrev HOD_CH_CTRL_ABORT (k : Nat) : Fld := ⟨Reg.HOD_CH_CTRL k, 2, 1⟩
abbrev HOD_CH_CFG_CLASS (k : Nat) : Fld := ⟨Reg.HOD_CH_CFG k, 0, 2⟩
abbrev HOD_CH_CFG_POLL (k : Nat) : Fld := ⟨Reg.HOD_CH_CFG k, 2, 1⟩
abbrev HOD_CH_CFG_OWNER (k : Nat) : Fld := ⟨Reg.HOD_CH_CFG k, 4, 4⟩
abbrev HOD_CH_STAT_STATE (k : Nat) : Fld := ⟨Reg.HOD_CH_STAT k, 0, 3⟩
abbrev HOD_CH_STAT_IGNORED (k : Nat) : Fld := ⟨Reg.HOD_CH_STAT k, 3, 1⟩
abbrev HOD_CH_STAT_HALT_CAUSE (k : Nat) : Fld := ⟨Reg.HOD_CH_STAT k, 4, 3⟩
abbrev HOD_CH_STAT_LAST_CODE (k : Nat) : Fld := ⟨Reg.HOD_CH_STAT k, 8, 4⟩
abbrev HOD_CH_STAT_IN_FLIGHT (k : Nat) : Fld := ⟨Reg.HOD_CH_STAT k, 12, 3⟩
abbrev HOD_CH_CAUSE_CAUSE (k : Nat) : Fld := ⟨Reg.HOD_CH_CAUSE k, 0, 5⟩
abbrev HOD_CH_CAUSE_EN_EN (k : Nat) : Fld := ⟨Reg.HOD_CH_CAUSE_EN k, 0, 5⟩
abbrev HOD_CH_NEXT_LO_ADDR (k : Nat) : Fld := ⟨Reg.HOD_CH_NEXT_LO k, 0, 32⟩
abbrev HOD_CH_NEXT_HI_ADDR (k : Nat) : Fld := ⟨Reg.HOD_CH_NEXT_HI k, 0, 32⟩
abbrev HOD_CH_CUR_LO_ADDR (k : Nat) : Fld := ⟨Reg.HOD_CH_CUR_LO k, 0, 32⟩
abbrev HOD_CH_CUR_HI_ADDR (k : Nat) : Fld := ⟨Reg.HOD_CH_CUR_HI k, 0, 32⟩
abbrev HOD_CH_MOVED_BYTES (k : Nat) : Fld := ⟨Reg.HOD_CH_MOVED k, 0, 32⟩
abbrev HOD_CH_RETRIES_COUNT (k : Nat) : Fld := ⟨Reg.HOD_CH_RETRIES k, 0, 32⟩
abbrev HOD_CH_DESCS_COUNT (k : Nat) : Fld := ⟨Reg.HOD_CH_DESCS k, 0, 32⟩
abbrev MEMCHK_ID_INDEX (m : Nat) : Fld := ⟨Reg.MEMCHK_ID m, 0, 4⟩
abbrev MEMCHK_ID_GROUPS (m : Nat) : Fld := ⟨Reg.MEMCHK_ID m, 8, 8⟩
abbrev MEMCHK_ID_SIZE (m : Nat) : Fld := ⟨Reg.MEMCHK_ID m, 16, 16⟩
abbrev MEMCHK_CFG_HARD_COUNT (m : Nat) : Fld := ⟨Reg.MEMCHK_CFG m, 0, 4⟩
abbrev MEMCHK_CFG_REMAP_EN (m : Nat) : Fld := ⟨Reg.MEMCHK_CFG m, 4, 1⟩
abbrev MEMCHK_SCRUB_WORDS (m : Nat) : Fld := ⟨Reg.MEMCHK_SCRUB m, 0, 11⟩
abbrev MEMCHK_SCRUB_BEATS (m : Nat) : Fld := ⟨Reg.MEMCHK_SCRUB m, 16, 7⟩
abbrev MEMCHK_BUCKET_DEPTH (m : Nat) : Fld := ⟨Reg.MEMCHK_BUCKET m, 0, 8⟩
abbrev MEMCHK_BUCKET_LEAK (m : Nat) : Fld := ⟨Reg.MEMCHK_BUCKET m, 8, 8⟩
abbrev MEMCHK_BUCKET_LEVEL (m : Nat) : Fld := ⟨Reg.MEMCHK_BUCKET m, 16, 8⟩
abbrev MEMCHK_CE_COUNT_COUNT (m : Nat) : Fld := ⟨Reg.MEMCHK_CE_COUNT m, 0, 32⟩
abbrev MEMCHK_UE_COUNT_COUNT (m : Nat) : Fld := ⟨Reg.MEMCHK_UE_COUNT m, 0, 32⟩
abbrev MEMCHK_POISON_WR_COUNT (m : Nat) : Fld := ⟨Reg.MEMCHK_POISON_WR m, 0, 32⟩
abbrev MEMCHK_SCRUB_POS_WORD (m : Nat) : Fld := ⟨Reg.MEMCHK_SCRUB_POS m, 0, 24⟩
abbrev MEMCHK_SCRUB_PASSES_COUNT (m : Nat) : Fld := ⟨Reg.MEMCHK_SCRUB_PASSES m, 0, 32⟩
abbrev MEMCHK_CAUSE_CE_OVERFLOW (m : Nat) : Fld := ⟨Reg.MEMCHK_CAUSE m, 0, 1⟩
abbrev MEMCHK_CAUSE_UE (m : Nat) : Fld := ⟨Reg.MEMCHK_CAUSE m, 1, 1⟩
abbrev MEMCHK_CAUSE_POISON_WRITE (m : Nat) : Fld := ⟨Reg.MEMCHK_CAUSE m, 2, 1⟩
abbrev MEMCHK_CAUSE_REMAP (m : Nat) : Fld := ⟨Reg.MEMCHK_CAUSE m, 3, 1⟩
abbrev MEMCHK_CAUSE_REMAP_FULL (m : Nat) : Fld := ⟨Reg.MEMCHK_CAUSE m, 4, 1⟩
abbrev MEMCHK_CAUSE_LOG_FULL (m : Nat) : Fld := ⟨Reg.MEMCHK_CAUSE m, 5, 1⟩
abbrev MEMCHK_CAUSE_EN_EN (m : Nat) : Fld := ⟨Reg.MEMCHK_CAUSE_EN m, 0, 6⟩
abbrev MEMCHK_LOG_SEL_ENTRY (m : Nat) : Fld := ⟨Reg.MEMCHK_LOG_SEL m, 0, 4⟩
abbrev MEMCHK_LOG_ADDR_WORD (m : Nat) : Fld := ⟨Reg.MEMCHK_LOG_ADDR m, 0, 24⟩
abbrev MEMCHK_LOG_INFO_SYNDROME (m : Nat) : Fld := ⟨Reg.MEMCHK_LOG_INFO m, 0, 15⟩
abbrev MEMCHK_LOG_INFO_VALID (m : Nat) : Fld := ⟨Reg.MEMCHK_LOG_INFO m, 15, 1⟩
abbrev MEMCHK_LOG_INFO_KIND (m : Nat) : Fld := ⟨Reg.MEMCHK_LOG_INFO m, 16, 2⟩
abbrev MEMCHK_LOG_INFO_SOURCE (m : Nat) : Fld := ⟨Reg.MEMCHK_LOG_INFO m, 18, 2⟩
abbrev MEMCHK_LOG_BEAT_BEAT (m : Nat) : Fld := ⟨Reg.MEMCHK_LOG_BEAT m, 0, 32⟩
abbrev MEMCHK_LOG_DROPPED_COUNT (m : Nat) : Fld := ⟨Reg.MEMCHK_LOG_DROPPED m, 0, 32⟩
abbrev MEMCHK_REMAP_SEL_ENTRY (m : Nat) : Fld := ⟨Reg.MEMCHK_REMAP_SEL m, 0, 5⟩
abbrev MEMCHK_REMAP_SEL_GROUP (m : Nat) : Fld := ⟨Reg.MEMCHK_REMAP_SEL m, 8, 6⟩
abbrev MEMCHK_REMAP_ENTRY_WORD (m : Nat) : Fld := ⟨Reg.MEMCHK_REMAP_ENTRY m, 0, 24⟩
abbrev MEMCHK_REMAP_ENTRY_VALID (m : Nat) : Fld := ⟨Reg.MEMCHK_REMAP_ENTRY m, 31, 1⟩
abbrev MEMCHK_REMAP_USED_COUNT (m : Nat) : Fld := ⟨Reg.MEMCHK_REMAP_USED m, 0, 16⟩
abbrev MAPMEM_CFG_RATE (c : Nat) : Fld := ⟨Reg.MAPMEM_CFG c, 0, 2⟩
abbrev MAPMEM_CFG_RETRAIN (c : Nat) : Fld := ⟨Reg.MAPMEM_CFG c, 2, 1⟩
abbrev MAPMEM_STATUS_STATE (c : Nat) : Fld := ⟨Reg.MAPMEM_STATUS c, 0, 3⟩
abbrev MAPMEM_STATUS_CONSERVATIVE (c : Nat) : Fld := ⟨Reg.MAPMEM_STATUS c, 3, 1⟩
abbrev MAPMEM_SIZE_GIB (c : Nat) : Fld := ⟨Reg.MAPMEM_SIZE c, 0, 8⟩
abbrev MAPMEM_SCRUB_WORDS (c : Nat) : Fld := ⟨Reg.MAPMEM_SCRUB c, 0, 11⟩
abbrev MAPMEM_SCRUB_BEATS (c : Nat) : Fld := ⟨Reg.MAPMEM_SCRUB c, 16, 7⟩
abbrev MAPMEM_BUCKET_DEPTH (c : Nat) : Fld := ⟨Reg.MAPMEM_BUCKET c, 0, 8⟩
abbrev MAPMEM_BUCKET_LEAK (c : Nat) : Fld := ⟨Reg.MAPMEM_BUCKET c, 8, 8⟩
abbrev MAPMEM_BUCKET_LEVEL (c : Nat) : Fld := ⟨Reg.MAPMEM_BUCKET c, 16, 8⟩
abbrev MAPMEM_CE_COUNT_COUNT (c : Nat) : Fld := ⟨Reg.MAPMEM_CE_COUNT c, 0, 32⟩
abbrev MAPMEM_UE_COUNT_COUNT (c : Nat) : Fld := ⟨Reg.MAPMEM_UE_COUNT c, 0, 32⟩
abbrev MAPMEM_POISON_WR_COUNT (c : Nat) : Fld := ⟨Reg.MAPMEM_POISON_WR c, 0, 32⟩
abbrev MAPMEM_CRC_RETRY_COUNT (c : Nat) : Fld := ⟨Reg.MAPMEM_CRC_RETRY c, 0, 32⟩
abbrev MAPMEM_SCRUB_POS_WORD (c : Nat) : Fld := ⟨Reg.MAPMEM_SCRUB_POS c, 0, 32⟩
abbrev MAPMEM_SCRUB_PASSES_COUNT (c : Nat) : Fld := ⟨Reg.MAPMEM_SCRUB_PASSES c, 0, 32⟩
abbrev MAPMEM_CAUSE_CE_OVERFLOW (c : Nat) : Fld := ⟨Reg.MAPMEM_CAUSE c, 0, 1⟩
abbrev MAPMEM_CAUSE_UE (c : Nat) : Fld := ⟨Reg.MAPMEM_CAUSE c, 1, 1⟩
abbrev MAPMEM_CAUSE_POISON_WRITE (c : Nat) : Fld := ⟨Reg.MAPMEM_CAUSE c, 2, 1⟩
abbrev MAPMEM_CAUSE_REMAP (c : Nat) : Fld := ⟨Reg.MAPMEM_CAUSE c, 3, 1⟩
abbrev MAPMEM_CAUSE_REMAP_FULL (c : Nat) : Fld := ⟨Reg.MAPMEM_CAUSE c, 4, 1⟩
abbrev MAPMEM_CAUSE_LOG_FULL (c : Nat) : Fld := ⟨Reg.MAPMEM_CAUSE c, 5, 1⟩
abbrev MAPMEM_CAUSE_LINE_RESTORED (c : Nat) : Fld := ⟨Reg.MAPMEM_CAUSE c, 6, 1⟩
abbrev MAPMEM_CAUSE_JOURNAL_LOST (c : Nat) : Fld := ⟨Reg.MAPMEM_CAUSE c, 7, 1⟩
abbrev MAPMEM_CAUSE_EN_EN (c : Nat) : Fld := ⟨Reg.MAPMEM_CAUSE_EN c, 0, 8⟩
abbrev MAPMEM_LOG_SEL_ENTRY (c : Nat) : Fld := ⟨Reg.MAPMEM_LOG_SEL c, 0, 4⟩
abbrev MAPMEM_LOG_ADDR_WORD (c : Nat) : Fld := ⟨Reg.MAPMEM_LOG_ADDR c, 0, 32⟩
abbrev MAPMEM_LOG_INFO_SYNDROME (c : Nat) : Fld := ⟨Reg.MAPMEM_LOG_INFO c, 0, 15⟩
abbrev MAPMEM_LOG_INFO_VALID (c : Nat) : Fld := ⟨Reg.MAPMEM_LOG_INFO c, 15, 1⟩
abbrev MAPMEM_LOG_INFO_KIND (c : Nat) : Fld := ⟨Reg.MAPMEM_LOG_INFO c, 16, 2⟩
abbrev MAPMEM_LOG_INFO_SOURCE (c : Nat) : Fld := ⟨Reg.MAPMEM_LOG_INFO c, 18, 2⟩
abbrev MAPMEM_LOG_BEAT_BEAT (c : Nat) : Fld := ⟨Reg.MAPMEM_LOG_BEAT c, 0, 32⟩
abbrev MAPMEM_REMAP_SEL_ENTRY (c : Nat) : Fld := ⟨Reg.MAPMEM_REMAP_SEL c, 0, 6⟩
abbrev MAPMEM_REMAP_ENTRY_LINE (c : Nat) : Fld := ⟨Reg.MAPMEM_REMAP_ENTRY c, 0, 29⟩
abbrev MAPMEM_REMAP_ENTRY_VALID (c : Nat) : Fld := ⟨Reg.MAPMEM_REMAP_ENTRY c, 31, 1⟩
abbrev MAPMEM_LOSS_CFG_UE_LIMIT (c : Nat) : Fld := ⟨Reg.MAPMEM_LOSS_CFG c, 0, 8⟩
abbrev MAPMEM_LAYOUT_LOST (c : Nat) : Fld := ⟨Reg.MAPMEM_LAYOUT c, 0, 2⟩
abbrev MAPMEM_LAYOUT_DEGRADED_LAYOUT (c : Nat) : Fld := ⟨Reg.MAPMEM_LAYOUT c, 2, 1⟩
abbrev MAPMEM_LAYOUT_DEG_OK (c : Nat) : Fld := ⟨Reg.MAPMEM_LAYOUT c, 3, 1⟩
abbrev MAPMEM_LAYOUT_DEG_BASE (c : Nat) : Fld := ⟨Reg.MAPMEM_LAYOUT c, 16, 8⟩
abbrev MAPMEM_RESTORE_ACTIVE (c : Nat) : Fld := ⟨Reg.MAPMEM_RESTORE c, 0, 1⟩
abbrev MAPMEM_RESTORE_STEP (c : Nat) : Fld := ⟨Reg.MAPMEM_RESTORE c, 1, 3⟩
abbrev MAPMEM_RESTORE_MS_MS (c : Nat) : Fld := ⟨Reg.MAPMEM_RESTORE_MS c, 0, 32⟩
abbrev FAB_CFG_REPLAYS : Fld := ⟨Reg.FAB_CFG, 0, 2⟩
abbrev FAB_REPLAYS_COUNT : Fld := ⟨Reg.FAB_REPLAYS, 0, 32⟩
abbrev FAB_FATALS_COUNT : Fld := ⟨Reg.FAB_FATALS, 0, 32⟩
abbrev FAB_POISON_CPL_COUNT : Fld := ⟨Reg.FAB_POISON_CPL, 0, 32⟩
abbrev FAB_LAST_FATAL_SENDER : Fld := ⟨Reg.FAB_LAST_FATAL, 0, 6⟩
abbrev FAB_LAST_FATAL_RECEIVER : Fld := ⟨Reg.FAB_LAST_FATAL, 6, 6⟩
abbrev FAB_LAST_FATAL_RESPONSE : Fld := ⟨Reg.FAB_LAST_FATAL, 12, 1⟩
abbrev PWR_STATE_CUR : Fld := ⟨Reg.PWR_STATE, 0, 3⟩
abbrev PWR_STATE_SEL_A : Fld := ⟨Reg.PWR_STATE, 3, 3⟩
abbrev PWR_STATE_SEL_B : Fld := ⟨Reg.PWR_STATE, 6, 3⟩
abbrev PWR_STATE_IN_TRANSITION : Fld := ⟨Reg.PWR_STATE, 9, 1⟩
abbrev PWR_STATE_IO_WAKE : Fld := ⟨Reg.PWR_STATE, 10, 1⟩
abbrev PWR_CFG_RETURN_FRAMES : Fld := ⟨Reg.PWR_CFG, 0, 8⟩
abbrev PWR_CFG_GRACE : Fld := ⟨Reg.PWR_CFG, 8, 8⟩
abbrev PWR_CFG_FAILOVER_EN : Fld := ⟨Reg.PWR_CFG, 16, 1⟩
abbrev PWR_DOM_STAT_ON : Fld := ⟨Reg.PWR_DOM_STAT, 0, 10⟩
abbrev PWR_DOM_STAT_RET : Fld := ⟨Reg.PWR_DOM_STAT, 10, 10⟩
abbrev PWR_DOM_DRAIN_DOMAIN : Fld := ⟨Reg.PWR_DOM_DRAIN, 0, 4⟩
abbrev PWR_DOM_DRAIN_FAILED : Fld := ⟨Reg.PWR_DOM_DRAIN, 4, 1⟩
abbrev PWR_WAKE_CFG_PG_US : Fld := ⟨Reg.PWR_WAKE_CFG, 0, 10⟩
abbrev PWR_WAKE_CFG_OSC_US : Fld := ⟨Reg.PWR_WAKE_CFG, 10, 11⟩
abbrev PWR_WAKE_CFG_PLL_US : Fld := ⟨Reg.PWR_WAKE_CFG, 21, 8⟩
abbrev PWR_WAKE_FAIL_DOMAIN : Fld := ⟨Reg.PWR_WAKE_FAIL, 0, 4⟩
abbrev PWR_WAKE_FAIL_STEP : Fld := ⟨Reg.PWR_WAKE_FAIL, 4, 3⟩
abbrev PWR_WAKE_FAIL_ALT_NEXT : Fld := ⟨Reg.PWR_WAKE_FAIL, 7, 1⟩
abbrev PWR_WAKE_FAIL_VALID : Fld := ⟨Reg.PWR_WAKE_FAIL, 8, 1⟩
abbrev PWR_REFCLK_ACTIVE : Fld := ⟨Reg.PWR_REFCLK, 0, 1⟩
abbrev PWR_REFCLK_A_OK : Fld := ⟨Reg.PWR_REFCLK, 1, 1⟩
abbrev PWR_REFCLK_B_OK : Fld := ⟨Reg.PWR_REFCLK, 2, 1⟩
abbrev PWR_PG_PG : Fld := ⟨Reg.PWR_PG, 0, 5⟩
abbrev PWR_STALL_MAX_US : Fld := ⟨Reg.PWR_STALL_MAX, 0, 10⟩
abbrev PWR_WAKES_COUNT : Fld := ⟨Reg.PWR_WAKES, 0, 32⟩
abbrev PWR_WAKE_TIMEOUTS_COUNT : Fld := ⟨Reg.PWR_WAKE_TIMEOUTS, 0, 32⟩
abbrev PWR_FAILOVERS_COUNT : Fld := ⟨Reg.PWR_FAILOVERS, 0, 32⟩
abbrev PWR_RES_MS (s : Nat) : Fld := ⟨Reg.PWR_RES s, 0, 32⟩
abbrev KILN_CFG_RISE_EN : Fld := ⟨Reg.KILN_CFG, 0, 1⟩
abbrev KILN_CFG_AUTO_RESTART : Fld := ⟨Reg.KILN_CFG, 1, 1⟩
abbrev KILN_CFG_LINK_EN : Fld := ⟨Reg.KILN_CFG, 2, 1⟩
abbrev KILN_CFG_FAULT_LIMIT : Fld := ⟨Reg.KILN_CFG, 4, 4⟩
abbrev KILN_CFG_MIN_LEVEL : Fld := ⟨Reg.KILN_CFG, 8, 2⟩
abbrev KILN_THRESH_WARN : Fld := ⟨Reg.KILN_THRESH, 0, 8⟩
abbrev KILN_THRESH_THROTTLE : Fld := ⟨Reg.KILN_THRESH, 8, 8⟩
abbrev KILN_THRESH_SHUTDOWN : Fld := ⟨Reg.KILN_THRESH, 16, 8⟩
abbrev KILN_HYST_WARN_H : Fld := ⟨Reg.KILN_HYST, 0, 4⟩
abbrev KILN_HYST_THR_H : Fld := ⟨Reg.KILN_HYST, 4, 4⟩
abbrev KILN_HYST_SHUT_H : Fld := ⟨Reg.KILN_HYST, 8, 4⟩
abbrev KILN_RISE_DELTA : Fld := ⟨Reg.KILN_RISE, 0, 8⟩
abbrev KILN_RISE_WINDOW : Fld := ⟨Reg.KILN_RISE, 8, 8⟩
abbrev KILN_STEP_UP : Fld := ⟨Reg.KILN_STEP, 0, 8⟩
abbrev KILN_STEP_DOWN : Fld := ⟨Reg.KILN_STEP, 8, 12⟩
abbrev KILN_UNITS_DIE1 : Fld := ⟨Reg.KILN_UNITS, 0, 6⟩
abbrev KILN_UNITS_DIE2 : Fld := ⟨Reg.KILN_UNITS, 6, 6⟩
abbrev KILN_UNITS_DIE3 : Fld := ⟨Reg.KILN_UNITS, 12, 6⟩
abbrev KILN_UNITS_MAC1 : Fld := ⟨Reg.KILN_UNITS, 18, 3⟩
abbrev KILN_UNITS_MAC2 : Fld := ⟨Reg.KILN_UNITS, 21, 3⟩
abbrev KILN_UNITS_MAC3 : Fld := ⟨Reg.KILN_UNITS, 24, 3⟩
abbrev KILN_UNITS_LINK2 : Fld := ⟨Reg.KILN_UNITS, 27, 2⟩
abbrev KILN_UNITS_LINK3 : Fld := ⟨Reg.KILN_UNITS, 29, 2⟩
abbrev KILN_RESTART_TEMP : Fld := ⟨Reg.KILN_RESTART, 0, 8⟩
abbrev KILN_STATUS_LEVEL : Fld := ⟨Reg.KILN_STATUS, 0, 2⟩
abbrev KILN_STATUS_WARN : Fld := ⟨Reg.KILN_STATUS, 2, 1⟩
abbrev KILN_STATUS_HOT : Fld := ⟨Reg.KILN_STATUS, 3, 1⟩
abbrev KILN_STATUS_LINK_FIXED : Fld := ⟨Reg.KILN_STATUS, 4, 1⟩
abbrev KILN_STATUS_MAX_SENSOR : Fld := ⟨Reg.KILN_STATUS, 5, 5⟩
abbrev KILN_STATUS_FAULTED : Fld := ⟨Reg.KILN_STATUS, 10, 5⟩
abbrev KILN_TMAX_TEMP : Fld := ⟨Reg.KILN_TMAX, 0, 16⟩
abbrev KILN_TPEAK_TEMP : Fld := ⟨Reg.KILN_TPEAK, 0, 16⟩
abbrev KILN_SENSOR_FAULT_MASK : Fld := ⟨Reg.KILN_SENSOR_FAULT, 0, 24⟩
abbrev KILN_DEFERRED_COUNT : Fld := ⟨Reg.KILN_DEFERRED, 0, 32⟩
abbrev KILN_TRIPS_COUNT : Fld := ⟨Reg.KILN_TRIPS, 0, 32⟩
abbrev KILN_LAST_TRIP_TEMP : Fld := ⟨Reg.KILN_LAST_TRIP, 0, 16⟩
abbrev KILN_LAST_TRIP_SENSOR : Fld := ⟨Reg.KILN_LAST_TRIP, 16, 5⟩
abbrev KILN_TEMP_TEMP (s : Nat) : Fld := ⟨Reg.KILN_TEMP s, 0, 16⟩
abbrev KILN_RES_MS (k : Nat) : Fld := ⟨Reg.KILN_RES k, 0, 32⟩
abbrev EVT_ALERT_ENABLE : Fld := ⟨Reg.EVT_ALERT, 0, 1⟩
abbrev EVT_ALERT_LEVEL : Fld := ⟨Reg.EVT_ALERT, 1, 1⟩
abbrev EVT_MSIX_A_VECTOR : Fld := ⟨Reg.EVT_MSIX_A, 0, 8⟩
abbrev EVT_MSIX_A_ENABLE : Fld := ⟨Reg.EVT_MSIX_A, 8, 1⟩
abbrev EVT_MSIX_B_VECTOR : Fld := ⟨Reg.EVT_MSIX_B, 0, 8⟩
abbrev EVT_MSIX_B_ENABLE : Fld := ⟨Reg.EVT_MSIX_B, 8, 1⟩
abbrev EVT_MSIX_LOST_COUNT : Fld := ⟨Reg.EVT_MSIX_LOST, 0, 32⟩
abbrev EVT_INTAKE_DEPTH : Fld := ⟨Reg.EVT_INTAKE, 0, 9⟩
abbrev EVT_INTAKE_PEAK : Fld := ⟨Reg.EVT_INTAKE, 16, 9⟩
abbrev EVT_ASSERTED_SRC (k : Nat) : Fld := ⟨Reg.EVT_ASSERTED k, 0, 32⟩
abbrev EVT_ROUTE_MSIX (s : Nat) : Fld := ⟨Reg.EVT_ROUTE s, 0, 1⟩
abbrev EVT_ROUTE_CORE (s : Nat) : Fld := ⟨Reg.EVT_ROUTE s, 1, 1⟩
abbrev EVT_ROUTE_ALERT (s : Nat) : Fld := ⟨Reg.EVT_ROUTE s, 2, 1⟩
abbrev EVT_ROUTE_REC (s : Nat) : Fld := ⟨Reg.EVT_ROUTE s, 3, 1⟩
abbrev EVT_ROUTE_CORE_SEL (s : Nat) : Fld := ⟨Reg.EVT_ROUTE s, 4, 4⟩
abbrev EVT_ROUTE_SEV (s : Nat) : Fld := ⟨Reg.EVT_ROUTE s, 8, 3⟩
abbrev EVT_COUNT_COUNT (s : Nat) : Fld := ⟨Reg.EVT_COUNT s, 0, 32⟩
abbrev EVT_FW_BODY_DATA (i : Nat) : Fld := ⟨Reg.EVT_FW_BODY i, 0, 32⟩
abbrev EVT_FW_RAISE_SOURCE : Fld := ⟨Reg.EVT_FW_RAISE, 0, 8⟩
abbrev EVT_FW_RAISE_TYPE : Fld := ⟨Reg.EVT_FW_RAISE, 8, 8⟩
abbrev EVT_FW_RAISE_WORDS : Fld := ⟨Reg.EVT_FW_RAISE, 16, 6⟩
abbrev REC_CTRL_FREEZE : Fld := ⟨Reg.REC_CTRL, 0, 1⟩
abbrev REC_CTRL_THAW : Fld := ⟨Reg.REC_CTRL, 1, 1⟩
abbrev REC_CTRL_NEXT : Fld := ⟨Reg.REC_CTRL, 2, 1⟩
abbrev REC_CTRL_REFILL : Fld := ⟨Reg.REC_CTRL, 3, 1⟩
abbrev REC_CFG_MIRROR_SEV : Fld := ⟨Reg.REC_CFG, 0, 3⟩
abbrev REC_CFG_ANCHOR_EPOCHS : Fld := ⟨Reg.REC_CFG, 8, 8⟩
abbrev REC_CFG_FREEZE_MAX : Fld := ⟨Reg.REC_CFG, 16, 16⟩
abbrev REC_STATUS_FROZEN : Fld := ⟨Reg.REC_STATUS, 0, 1⟩
abbrev REC_STATUS_MEM_FAILED : Fld := ⟨Reg.REC_STATUS, 1, 1⟩
abbrev REC_STATUS_GAP : Fld := ⟨Reg.REC_STATUS, 2, 1⟩
abbrev REC_STATUS_EMPTY : Fld := ⟨Reg.REC_STATUS, 3, 1⟩
abbrev REC_STATUS_FIFO : Fld := ⟨Reg.REC_STATUS, 4, 7⟩
abbrev REC_CELLS_USED : Fld := ⟨Reg.REC_CELLS, 0, 13⟩
abbrev REC_CURSOR_SEQ : Fld := ⟨Reg.REC_CURSOR, 0, 32⟩
abbrev REC_WIN_FIRST_SEQ : Fld := ⟨Reg.REC_WIN_FIRST, 0, 32⟩
abbrev REC_WIN_INFO_BYTES : Fld := ⟨Reg.REC_WIN_INFO, 0, 13⟩
abbrev REC_WIN_INFO_COUNT : Fld := ⟨Reg.REC_WIN_INFO, 16, 9⟩
abbrev REC_NEXT_SEQ_SEQ : Fld := ⟨Reg.REC_NEXT_SEQ, 0, 32⟩
abbrev REC_OLDEST_SEQ_SEQ : Fld := ⟨Reg.REC_OLDEST_SEQ, 0, 32⟩
abbrev REC_MIRROR_SEQ_SEQ : Fld := ⟨Reg.REC_MIRROR_SEQ, 0, 32⟩
abbrev REC_DROPPED_COUNT (v : Nat) : Fld := ⟨Reg.REC_DROPPED v, 0, 32⟩
abbrev REC_EVICTED_COUNT (v : Nat) : Fld := ⟨Reg.REC_EVICTED v, 0, 32⟩
abbrev TOP_CHIP_ID_ID : Fld := ⟨Reg.TOP_CHIP_ID, 0, 32⟩
abbrev TOP_STEPPING_STEP : Fld := ⟨Reg.TOP_STEPPING, 0, 8⟩
abbrev TOP_STRAP_PORT : Fld := ⟨Reg.TOP_STRAP, 0, 2⟩
abbrev TOP_STRAP_SRIS : Fld := ⟨Reg.TOP_STRAP, 2, 1⟩
abbrev TOP_STRAP_NAND_IF : Fld := ⟨Reg.TOP_STRAP, 3, 1⟩
abbrev TOP_STRAP_SIDEBAND : Fld := ⟨Reg.TOP_STRAP, 4, 1⟩
abbrev TOP_STRAP_SB_ADDR : Fld := ⟨Reg.TOP_STRAP, 5, 3⟩
abbrev TOP_STRAP_RECOVERY : Fld := ⟨Reg.TOP_STRAP, 8, 1⟩
abbrev TOP_MODE_MODE : Fld := ⟨Reg.TOP_MODE, 0, 4⟩
abbrev TOP_MODE_BASE : Fld := ⟨Reg.TOP_MODE, 4, 4⟩
abbrev TOP_MODE_FIRST_START : Fld := ⟨Reg.TOP_MODE, 8, 1⟩
abbrev TOP_MODE_CAUSE_REC_STRAP : Fld := ⟨Reg.TOP_MODE_CAUSE, 0, 1⟩
abbrev TOP_MODE_CAUSE_REC_STEP : Fld := ⟨Reg.TOP_MODE_CAUSE, 1, 1⟩
abbrev TOP_MODE_CAUSE_REC_IMAGE : Fld := ⟨Reg.TOP_MODE_CAUSE, 2, 1⟩
abbrev TOP_MODE_CAUSE_SANITIZING : Fld := ⟨Reg.TOP_MODE_CAUSE, 3, 1⟩
abbrev TOP_MODE_CAUSE_EVAC_HOST : Fld := ⟨Reg.TOP_MODE_CAUSE, 4, 1⟩
abbrev TOP_MODE_CAUSE_EVAC_SPARES : Fld := ⟨Reg.TOP_MODE_CAUSE, 5, 1⟩
abbrev TOP_MODE_CAUSE_EVAC_WSEQ : Fld := ⟨Reg.TOP_MODE_CAUSE, 6, 1⟩
abbrev TOP_MODE_CAUSE_DEG_CHANNEL : Fld := ⟨Reg.TOP_MODE_CAUSE, 7, 1⟩
abbrev TOP_MODE_CAUSE_DEG_SPARES_LOW : Fld := ⟨Reg.TOP_MODE_CAUSE, 8, 1⟩
abbrev TOP_MODE_CAUSE_DEG_MAPMEM : Fld := ⟨Reg.TOP_MODE_CAUSE, 9, 1⟩
abbrev TOP_MODE_CAUSE_DEG_PLANNER : Fld := ⟨Reg.TOP_MODE_CAUSE, 10, 1⟩
abbrev TOP_COMPAT_LEVEL : Fld := ⟨Reg.TOP_COMPAT, 0, 8⟩
abbrev TOP_COMPAT_REQUEST : Fld := ⟨Reg.TOP_COMPAT, 8, 8⟩
abbrev TOP_COMPAT_MAX : Fld := ⟨Reg.TOP_COMPAT, 16, 8⟩
abbrev TOP_COMPAT_REFUSED : Fld := ⟨Reg.TOP_COMPAT, 24, 1⟩
abbrev TOP_CTRL_RESTART : Fld := ⟨Reg.TOP_CTRL, 0, 1⟩
abbrev TOP_CTRL_LEDGER_CLEAR : Fld := ⟨Reg.TOP_CTRL, 1, 1⟩
abbrev TOP_LEDGER_STEP_STEP : Fld := ⟨Reg.TOP_LEDGER_STEP, 0, 4⟩
abbrev TOP_LEDGER_STEP_PREV : Fld := ⟨Reg.TOP_LEDGER_STEP, 4, 4⟩
abbrev TOP_LEDGER_STEP_COLD : Fld := ⟨Reg.TOP_LEDGER_STEP, 8, 1⟩
abbrev TOP_LEDGER_STEP_TRIGGER : Fld := ⟨Reg.TOP_LEDGER_STEP, 9, 3⟩
abbrev TOP_LEDGER_OUT_LO_OUT : Fld := ⟨Reg.TOP_LEDGER_OUT_LO, 0, 32⟩
abbrev TOP_LEDGER_OUT_HI_OUT : Fld := ⟨Reg.TOP_LEDGER_OUT_HI, 0, 16⟩
abbrev TOP_LEDGER_FAILS_FAILS : Fld := ⟨Reg.TOP_LEDGER_FAILS, 0, 24⟩
abbrev TOP_LEDGER_BEAT_LO_BEAT : Fld := ⟨Reg.TOP_LEDGER_BEAT_LO, 0, 32⟩
abbrev TOP_LEDGER_BEAT_HI_BEAT : Fld := ⟨Reg.TOP_LEDGER_BEAT_HI, 0, 32⟩
abbrev TOP_START_COUNT_COUNT : Fld := ⟨Reg.TOP_START_COUNT, 0, 32⟩
abbrev TOP_START_MS_MS : Fld := ⟨Reg.TOP_START_MS, 0, 16⟩
abbrev TOP_LEFT_OUT_FCH_CH : Fld := ⟨Reg.TOP_LEFT_OUT_FCH, 0, 32⟩
abbrev TOP_LEFT_OUT_MM_CH : Fld := ⟨Reg.TOP_LEFT_OUT_MM, 0, 4⟩
abbrev TOP_PLANNER_OK_OK : Fld := ⟨Reg.TOP_PLANNER_OK, 0, 8⟩
abbrev BLK_ID_MINOR (base : Nat) : Fld := ⟨Reg.BLK_ID base, 0, 8⟩
abbrev BLK_ID_MAJOR (base : Nat) : Fld := ⟨Reg.BLK_ID base, 8, 8⟩
abbrev BLK_ID_INSTANCE (base : Nat) : Fld := ⟨Reg.BLK_ID base, 16, 8⟩
abbrev BLK_ID_TYPE (base : Nat) : Fld := ⟨Reg.BLK_ID base, 24, 8⟩
abbrev BLK_CAP_EVT_BITS (base : Nat) : Fld := ⟨Reg.BLK_CAP base, 0, 8⟩
abbrev BLK_CAP_PAGES (base : Nat) : Fld := ⟨Reg.BLK_CAP base, 8, 3⟩
abbrev BLK_CAP_SOFT_RESET (base : Nat) : Fld := ⟨Reg.BLK_CAP base, 11, 1⟩
abbrev BLK_CAP_DISABLE (base : Nat) : Fld := ⟨Reg.BLK_CAP base, 12, 1⟩
abbrev BLK_CAP_VOTABLE (base : Nat) : Fld := ⟨Reg.BLK_CAP base, 13, 1⟩
abbrev BLK_CTRL_ENABLE (base : Nat) : Fld := ⟨Reg.BLK_CTRL base, 0, 1⟩
abbrev BLK_CTRL_SOFT_RESET (base : Nat) : Fld := ⟨Reg.BLK_CTRL base, 1, 1⟩
abbrev BLK_CTRL_POWER_VOTE (base : Nat) : Fld := ⟨Reg.BLK_CTRL base, 2, 2⟩
abbrev BLK_STAT_READY (base : Nat) : Fld := ⟨Reg.BLK_STAT base, 0, 1⟩
abbrev BLK_STAT_BUSY (base : Nat) : Fld := ⟨Reg.BLK_STAT base, 1, 1⟩
abbrev BLK_STAT_AWAKE (base : Nat) : Fld := ⟨Reg.BLK_STAT base, 2, 1⟩
abbrev BLK_STAT_FAULT (base : Nat) : Fld := ⟨Reg.BLK_STAT base, 3, 1⟩
abbrev EVT_RAW_RAW (base : Nat) : Fld := ⟨Reg.EVT_RAW base, 0, 32⟩
abbrev EVT_EN_EN (base : Nat) : Fld := ⟨Reg.EVT_EN base, 0, 32⟩
abbrev EVT_PEND_PEND (base : Nat) : Fld := ⟨Reg.EVT_PEND base, 0, 32⟩
abbrev EVT_FORCE_FORCE (base : Nat) : Fld := ⟨Reg.EVT_FORCE base, 0, 32⟩
abbrev ERR_INFO_CODE (base : Nat) : Fld := ⟨Reg.ERR_INFO base, 0, 8⟩
abbrev ERR_INFO_MORE (base : Nat) : Fld := ⟨Reg.ERR_INFO base, 8, 1⟩
abbrev ERR_INFO_DETAIL (base : Nat) : Fld := ⟨Reg.ERR_INFO base, 16, 16⟩
abbrev ERR_ADDR_LO_ADDR (base : Nat) : Fld := ⟨Reg.ERR_ADDR_LO base, 0, 32⟩
abbrev ERR_ADDR_HI_ADDR (base : Nat) : Fld := ⟨Reg.ERR_ADDR_HI base, 0, 32⟩
abbrev BLK_LOCK_LOCK (base : Nat) : Fld := ⟨Reg.BLK_LOCK base, 0, 1⟩

end F

/-- Rows of the BEAT page (R62). -/
def rowsBeat : List RegRow := [
  ⟨0x100, 0, 1, [⟨0, 2, .rw, 0⟩, ⟨2, 1, .rw, 0⟩, ⟨3, 1, .rw, 1⟩, ⟨4, 2, .rw, 0⟩, ⟨6, 1, .rw, 0⟩]⟩,
  ⟨0x104, 0, 1, [⟨0, 3, .ro, 0⟩, ⟨3, 1, .ro, 1⟩, ⟨4, 4, .ro, 0⟩, ⟨8, 6, .ro, 0⟩, ⟨14, 1, .ro, 0⟩, ⟨15, 1, .ro, 0⟩]⟩,
  ⟨0x108, 0, 1, [⟨0, 32, .ro, 0⟩]⟩,
  ⟨0x10C, 0, 1, [⟨0, 32, .ro, 0⟩]⟩,
  ⟨0x110, 0, 1, [⟨0, 15, .ro, 0⟩]⟩,
  ⟨0x114, 0, 1, [⟨6, 26, .rw, 0⟩]⟩,
  ⟨0x118, 0, 1, [⟨0, 32, .rw, 0⟩]⟩,
  ⟨0x11C, 0, 1, [⟨0, 32, .rw, 0⟩]⟩,
  ⟨0x120, 0, 1, [⟨0, 32, .rw, 0⟩]⟩,
  ⟨0x124, 0, 1, [⟨0, 32, .ro, 0⟩]⟩,
  ⟨0x128, 0, 1, [⟨0, 32, .ro, 0⟩]⟩,
  ⟨0x12C, 0, 1, [⟨0, 8, .rw, 16⟩, ⟨8, 8, .rw, 4⟩]⟩,
  ⟨0x130, 0, 1, [⟨0, 11, .rw, 1⟩, ⟨16, 4, .rw, 4⟩]⟩,
  ⟨0x134, 0, 1, [⟨0, 8, .rw, 16⟩, ⟨8, 8, .rw, 10⟩, ⟨16, 8, .rw, 40⟩]⟩,
  ⟨0x138, 0, 1, [⟨0, 8, .rwl, 64⟩]⟩,
  ⟨0x140, 4, 11, [⟨0, 32, .rc, 0⟩]⟩,
  ⟨0x180, 0, 1, [⟨0, 31, .rw, 0⟩, ⟨31, 1, .rw, 0⟩]⟩,
  ⟨0x190, 16, 4, [⟨0, 17, .rw, 0⟩]⟩,
  ⟨0x194, 16, 4, [⟨0, 22, .rw, 0⟩]⟩,
  ⟨0x198, 16, 4, [⟨0, 23, .rw, 0⟩]⟩
]

/-- Rows of the TILE page (R88). -/
def rowsTile : List RegRow := [
  ⟨0x100, 0, 1, [⟨0, 3, .ro, 0⟩, ⟨3, 1, .ro, 0⟩, ⟨4, 4, .ro, 0⟩]⟩,
  ⟨0x104, 0, 1, [⟨0, 3, .wo, 0⟩]⟩,
  ⟨0x108, 0, 1, [⟨0, 6, .rw, 0⟩, ⟨6, 1, .rw, 0⟩, ⟨7, 1, .ro, 0⟩]⟩,
  ⟨0x10C, 0, 1, [⟨0, 13, .rw, 0⟩, ⟨16, 8, .rw, 16⟩]⟩,
  ⟨0x110, 0, 1, [⟨0, 12, .rw, 0⟩, ⟨16, 12, .rw, 0⟩]⟩,
  ⟨0x114, 0, 1, [⟨0, 13, .rw, 0⟩, ⟨16, 9, .rw, 1⟩]⟩,
  ⟨0x118, 0, 1, [⟨0, 19, .rw, 0⟩]⟩,
  ⟨0x11C, 0, 1, [⟨0, 11, .rw, 0⟩, ⟨16, 9, .rw, 0⟩]⟩,
  ⟨0x120, 0, 1, [⟨0, 13, .rw, 0⟩, ⟨16, 13, .rw, 0⟩]⟩,
  ⟨0x124, 0, 1, [⟨0, 18, .rw, 0⟩]⟩,
  ⟨0x128, 0, 1, [⟨0, 12, .rw, 0⟩, ⟨16, 13, .rw, 0⟩]⟩,
  ⟨0x12C, 0, 1, [⟨0, 9, .ro, 0⟩, ⟨16, 4, .ro, 0⟩]⟩,
  ⟨0x130, 0, 1, [⟨0, 1, .rw, 1⟩, ⟨1, 1, .rw, 0⟩]⟩,
  ⟨0x140, 0, 1, [⟨0, 32, .rc, 0⟩]⟩,
  ⟨0x144, 0, 1, [⟨0, 32, .rc, 0⟩]⟩,
  ⟨0x148, 0, 1, [⟨0, 32, .rc, 0⟩]⟩,
  ⟨0x14C, 0, 1, [⟨0, 12, .ro, 0⟩]⟩,
  ⟨0x150, 0, 1, [⟨0, 19, .ro, 0⟩]⟩,
  ⟨0x154, 0, 1, [⟨0, 18, .ro, 0⟩]⟩
]

/-- Rows of the HOST page (R128). -/
def rowsHost : List RegRow := [
  ⟨0x100, 0, 1, [⟨0, 2, .ro, 0⟩, ⟨2, 1, .ro, 0⟩, ⟨3, 6, .ro, 63⟩]⟩,
  ⟨0x104, 0, 1, [⟨0, 3, .rw, 6⟩, ⟨3, 1, .wo, 0⟩, ⟨4, 1, .rw, 1⟩, ⟨5, 1, .rw, 1⟩]⟩,
  ⟨0x108, 0, 1, [⟨0, 3, .ro, 0⟩, ⟨3, 5, .ro, 0⟩, ⟨8, 1, .ro, 0⟩, ⟨9, 1, .ro, 0⟩, ⟨10, 6, .ro, 0⟩]⟩,
  ⟨0x10C, 0, 1, [⟨0, 8, .rw, 8⟩, ⟨8, 8, .rw, 16⟩]⟩,
  ⟨0x110, 0, 1, [⟨0, 1, .rws, 0⟩, ⟨1, 1, .ro, 0⟩]⟩,
  ⟨0x114, 0, 1, [⟨0, 1, .ro, 0⟩, ⟨1, 1, .ro, 0⟩]⟩,
  ⟨0x120, 0, 1, [⟨0, 32, .rc, 0⟩]⟩,
  ⟨0x124, 0, 1, [⟨0, 32, .rc, 0⟩]⟩,
  ⟨0x128, 0, 1, [⟨0, 32, .rc, 0⟩]⟩,
  ⟨0x12C, 0, 1, [⟨0, 32, .rc, 0⟩]⟩,
  ⟨0x130, 0, 1, [⟨0, 32, .rc, 0⟩]⟩,
  ⟨0x134, 0, 1, [⟨0, 32, .rc, 0⟩]⟩,
  ⟨0x138, 0, 1, [⟨0, 32, .rc, 0⟩]⟩,
  ⟨0x13C, 0, 1, [⟨0, 32, .rc, 0⟩]⟩,
  ⟨0x140, 0, 1, [⟨0, 12, .ro, 0⟩]⟩
]

/-- Rows of the SORT page (R180). -/
def rowsSort : List RegRow := [
  ⟨0x100, 0, 1, [⟨0, 4, .rw, 8⟩, ⟨8, 4, .rw, 2⟩, ⟨16, 1, .rw, 1⟩]⟩,
  ⟨0x104, 0, 1, [⟨0, 12, .wo, 0⟩, ⟨12, 12, .wo, 0⟩, ⟨24, 3, .wo, 0⟩]⟩,
  ⟨0x108, 0, 1, [⟨0, 1, .ro, 0⟩, ⟨1, 3, .ro, 0⟩, ⟨4, 12, .ro, 0⟩, ⟨16, 1, .ro, 0⟩, ⟨17, 1, .ro, 0⟩, ⟨18, 1, .w1c, 0⟩, ⟨19, 2, .ro, 0⟩]⟩,
  ⟨0x10C, 0, 1, [⟨0, 3, .rw, 2⟩, ⟨4, 3, .rw, 4⟩, ⟨8, 3, .rw, 6⟩]⟩,
  ⟨0x110, 0, 1, [⟨0, 4, .rw, 8⟩]⟩,
  ⟨0x120, 0, 1, [⟨0, 32, .rc, 0⟩]⟩,
  ⟨0x124, 0, 1, [⟨0, 32, .rc, 0⟩]⟩,
  ⟨0x128, 0, 1, [⟨0, 32, .rc, 0⟩]⟩,
  ⟨0x12C, 0, 1, [⟨0, 32, .rc, 0⟩]⟩,
  ⟨0x130, 0, 1, [⟨0, 10, .rc, 0⟩]⟩,
  ⟨0x134, 0, 1, [⟨0, 32, .rc, 0⟩]⟩
]

/-- Rows of the COURSE page (R216). -/
def rowsCourse : List RegRow := [
  ⟨0x100, 0, 1, [⟨0, 6, .rwl, 32⟩, ⟨6, 2, .rwl, 2⟩, ⟨8, 5, .ro, 16⟩]⟩,
  ⟨0x104, 0, 1, [⟨0, 7, .rw, 4⟩]⟩,
  ⟨0x108, 0, 1, [⟨0, 17, .rw, 1024⟩]⟩,
  ⟨0x10C, 0, 1, [⟨0, 5, .ro, 0⟩, ⟨5, 1, .ro, 0⟩]⟩,
  ⟨0x110, 0, 1, [⟨0, 32, .ro, 0⟩]⟩,
  ⟨0x114, 0, 1, [⟨0, 32, .ro, 0⟩]⟩,
  ⟨0x118, 0, 1, [⟨0, 32, .ro, 0⟩]⟩,
  ⟨0x11C, 0, 1, [⟨0, 32, .ro, 0⟩]⟩,
  ⟨0x120, 0, 1, [⟨0, 32, .ro, 0⟩]⟩,
  ⟨0x124, 0, 1, [⟨0, 24, .ro, 0⟩]⟩,
  ⟨0x128, 0, 1, [⟨0, 16, .ro, 0⟩]⟩,
  ⟨0x140, 0, 1, [⟨0, 32, .rc, 0⟩]⟩,
  ⟨0x144, 0, 1, [⟨0, 32, .rc, 0⟩]⟩,
  ⟨0x148, 0, 1, [⟨0, 32, .rc, 0⟩]⟩,
  ⟨0x14C, 0, 1, [⟨0, 32, .rc, 0⟩]⟩,
  ⟨0x150, 0, 1, [⟨0, 32, .rc, 0⟩]⟩
]

/-- Rows of the YARD page (R217). -/
def rowsYard : List RegRow := [
  ⟨0x100, 0, 1, [⟨0, 6, .rw, 32⟩, ⟨8, 8, .rw, 16⟩]⟩,
  ⟨0x104, 0, 1, [⟨0, 12, .ro, 2048⟩, ⟨12, 12, .ro, 96⟩, ⟨24, 1, .w1c, 0⟩]⟩,
  ⟨0x108, 0, 1, [⟨0, 12, .ro, 1952⟩, ⟨16, 12, .ro, 1952⟩]⟩,
  ⟨0x10C, 0, 1, [⟨0, 12, .rc, 0⟩]⟩,
  ⟨0x110, 0, 1, [⟨0, 32, .rc, 0⟩]⟩,
  ⟨0x114, 0, 1, [⟨0, 32, .rc, 0⟩]⟩
]

/-- Rows of the FCH page (R218, R241). -/
def rowsFch : List RegRow := [
  ⟨0x100, 0, 1, [⟨0, 1, .ro, 0⟩, ⟨1, 3, .rw, 6⟩, ⟨4, 8, .ro, 0⟩, ⟨12, 2, .ro, 0⟩, ⟨14, 2, .ro, 2⟩, ⟨16, 1, .wo, 0⟩]⟩,
  ⟨0x104, 0, 1, [⟨0, 32, .ro, 0⟩]⟩,
  ⟨0x108, 0, 1, [⟨0, 8, .rw, 3⟩, ⟨8, 8, .rw, 8⟩]⟩,
  ⟨0x10C, 0, 1, [⟨0, 8, .rw, 40⟩, ⟨8, 8, .rw, 100⟩]⟩,
  ⟨0x110, 0, 1, [⟨0, 8, .rw, 56⟩, ⟨8, 8, .rw, 125⟩]⟩,
  ⟨0x114, 0, 1, [⟨0, 8, .rw, 80⟩, ⟨8, 8, .rw, 200⟩]⟩,
  ⟨0x118, 0, 1, [⟨0, 11, .rw, 625⟩, ⟨16, 11, .rw, 1250⟩]⟩,
  ⟨0x11C, 0, 1, [⟨0, 32, .ro, 0⟩]⟩,
  ⟨0x120, 0, 1, [⟨0, 32, .ro, 0⟩]⟩,
  ⟨0x124, 0, 1, [⟨0, 32, .rc, 0⟩]⟩,
  ⟨0x128, 0, 1, [⟨0, 32, .rc, 0⟩]⟩,
  ⟨0x180, 0, 1, [⟨0, 12, .rw, 360⟩, ⟨16, 12, .rw, 480⟩]⟩,
  ⟨0x184, 0, 1, [⟨0, 12, .rw, 800⟩, ⟨16, 12, .rw, 1200⟩]⟩,
  ⟨0x188, 0, 1, [⟨0, 8, .rw, 24⟩, ⟨8, 8, .rw, 16⟩, ⟨16, 8, .rw, 128⟩]⟩,
  ⟨0x18C, 0, 1, [⟨0, 4, .rw, 0⟩, ⟨4, 4, .rw, 8⟩, ⟨8, 1, .rw, 1⟩]⟩,
  ⟨0x1A0, 0, 1, [⟨0, 32, .rc, 0⟩]⟩,
  ⟨0x1A4, 0, 1, [⟨0, 32, .rc, 0⟩]⟩,
  ⟨0x1A8, 0, 1, [⟨0, 32, .rc, 0⟩]⟩,
  ⟨0x1AC, 0, 1, [⟨0, 32, .rc, 0⟩]⟩,
  ⟨0x1B0, 0, 1, [⟨0, 32, .rc, 0⟩]⟩
]

/-- Rows of the LDPC page (R242). -/
def rowsLdpc : List RegRow := [
  ⟨0x100, 0, 1, [⟨0, 6, .rw, 20⟩, ⟨8, 6, .rw, 40⟩, ⟨16, 10, .rw, 48⟩]⟩,
  ⟨0x104, 0, 1, [⟨0, 1, .rw, 1⟩, ⟨1, 1, .rw, 1⟩, ⟨2, 1, .rw, 1⟩, ⟨3, 1, .rw, 1⟩]⟩,
  ⟨0x108, 0, 1, [⟨0, 5, .ro, 0⟩, ⟨5, 3, .ro, 0⟩]⟩,
  ⟨0x120, 0, 1, [⟨0, 32, .rc, 0⟩]⟩,
  ⟨0x124, 0, 1, [⟨0, 32, .rc, 0⟩]⟩,
  ⟨0x128, 0, 1, [⟨0, 32, .rc, 0⟩]⟩,
  ⟨0x12C, 0, 1, [⟨0, 32, .rc, 0⟩]⟩,
  ⟨0x130, 0, 1, [⟨0, 32, .rc, 0⟩]⟩,
  ⟨0x134, 0, 1, [⟨0, 32, .rc, 0⟩]⟩,
  ⟨0x138, 0, 1, [⟨0, 32, .rc, 0⟩]⟩,
  ⟨0x13C, 0, 1, [⟨0, 32, .rc, 0⟩]⟩,
  ⟨0x140, 0, 1, [⟨0, 32, .rc, 0⟩]⟩,
  ⟨0x144, 0, 1, [⟨0, 32, .rc, 0⟩]⟩
]

/-- Rows of the TROWEL page (R278). -/
def rowsTrowel0 : List RegRow := [
  ⟨0x100, 0, 1, [⟨0, 1, .rw, 1⟩, ⟨1, 1, .rw, 1⟩, ⟨2, 1, .rw, 1⟩, ⟨3, 1, .rw, 0⟩, ⟨4, 3, .rw, 4⟩]⟩,
  ⟨0x104, 0, 1, [⟨0, 13, .rw, 1024⟩]⟩,
  ⟨0x108, 0, 1, [⟨0, 12, .rw, 256⟩]⟩,
  ⟨0x10C, 0, 1, [⟨0, 10, .rwl, 109⟩, ⟨16, 10, .rw, 500⟩]⟩,
  ⟨0x110, 0, 1, [⟨0, 10, .rw, 50⟩]⟩,
  ⟨0x114, 0, 1, [⟨0, 16, .rw, 1000⟩, ⟨16, 16, .rw, 500⟩]⟩,
  ⟨0x118, 0, 1, [⟨0, 16, .rw, 200⟩, ⟨16, 16, .rw, 100⟩]⟩,
  ⟨0x11C, 0, 1, [⟨0, 8, .rw, 16⟩, ⟨16, 16, .rw, 0⟩]⟩,
  ⟨0x120, 0, 1, [⟨0, 16, .rw, 200⟩, ⟨16, 16, .rw, 1500⟩]⟩,
  ⟨0x124, 0, 1, [⟨0, 16, .rw, 80⟩]⟩,
  ⟨0x128, 0, 1, [⟨0, 18, .rw, 8192⟩]⟩,
  ⟨0x12C, 0, 1, [⟨0, 8, .rw, 128⟩, ⟨8, 4, .rw, 4⟩, ⟨16, 8, .rw, 16⟩]⟩,
  ⟨0x140, 0, 1, [⟨0, 3, .ro, 0⟩, ⟨3, 1, .ro, 0⟩, ⟨4, 1, .ro, 0⟩, ⟨5, 1, .ro, 0⟩, ⟨6, 1, .ro, 0⟩, ⟨7, 1, .w1c, 0⟩]⟩,
  ⟨0x144, 0, 1, [⟨0, 18, .ro, 0⟩]⟩,
  ⟨0x148, 0, 1, [⟨0, 18, .ro, 0⟩]⟩,
  ⟨0x14C, 0, 1, [⟨0, 16, .ro, 0⟩, ⟨16, 16, .ro, 0⟩]⟩,
  ⟨0x150, 0, 1, [⟨0, 16, .ro, 0⟩]⟩,
  ⟨0x154, 0, 1, [⟨0, 18, .ro, 0⟩]⟩,
  ⟨0x160, 0, 1, [⟨0, 32, .rc, 0⟩]⟩,
  ⟨0x164, 0, 1, [⟨0, 32, .rc, 0⟩]⟩
]

/-- Rows of the TROWEL page (R278). -/
def rowsTrowel1 : List RegRow := [
  ⟨0x168, 0, 1, [⟨0, 32, .rc, 0⟩]⟩,
  ⟨0x16C, 0, 1, [⟨0, 32, .rc, 0⟩]⟩,
  ⟨0x170, 0, 1, [⟨0, 32, .rc, 0⟩]⟩,
  ⟨0x174, 0, 1, [⟨0, 32, .rc, 0⟩]⟩,
  ⟨0x178, 0, 1, [⟨0, 32, .rc, 0⟩]⟩,
  ⟨0x17C, 0, 1, [⟨0, 32, .rc, 0⟩]⟩
]

/-- All rows of the TROWEL page. -/
def rowsTrowel : List RegRow := rowsTrowel0 ++ rowsTrowel1

/-- Rows of the PWR page (R306, R431). -/
def rowsPwr0 : List RegRow := [
  ⟨0x200, 0, 1, [⟨0, 8, .rw, 25⟩, ⟨8, 8, .rw, 64⟩, ⟨16, 8, .rw, 16⟩]⟩,
  ⟨0x204, 0, 1, [⟨0, 1, .ro, 0⟩, ⟨1, 1, .ro, 1⟩, ⟨2, 1, .ro, 0⟩, ⟨3, 2, .ro, 0⟩]⟩,
  ⟨0x208, 0, 1, [⟨0, 9, .ro, 0⟩, ⟨16, 5, .ro, 0⟩, ⟨21, 1, .ro, 0⟩]⟩,
  ⟨0x20C, 0, 1, [⟨0, 32, .ro, 0⟩]⟩,
  ⟨0x210, 0, 1, [⟨0, 32, .ro, 0⟩]⟩,
  ⟨0x214, 0, 1, [⟨0, 1, .ro, 0⟩, ⟨1, 1, .ro, 0⟩, ⟨2, 1, .ro, 0⟩, ⟨3, 1, .ro, 0⟩]⟩,
  ⟨0x218, 0, 1, [⟨0, 32, .ro, 0⟩]⟩,
  ⟨0x21C, 0, 1, [⟨0, 32, .ro, 0⟩]⟩,
  ⟨0x220, 0, 1, [⟨0, 32, .ro, 0⟩]⟩,
  ⟨0x224, 0, 1, [⟨0, 32, .ro, 0⟩]⟩,
  ⟨0x228, 0, 1, [⟨0, 16, .ro, 0⟩, ⟨16, 16, .ro, 0⟩]⟩,
  ⟨0x22C, 0, 1, [⟨0, 32, .ro, 0⟩]⟩,
  ⟨0x100, 0, 1, [⟨0, 3, .ro, 0⟩, ⟨3, 3, .ro, 0⟩, ⟨6, 3, .ro, 4⟩, ⟨9, 1, .ro, 0⟩, ⟨10, 1, .ro, 0⟩]⟩,
  ⟨0x104, 0, 1, [⟨0, 8, .rw, 64⟩, ⟨8, 8, .rw, 16⟩, ⟨16, 1, .rw, 1⟩]⟩,
  ⟨0x108, 0, 1, [⟨0, 10, .ro, 1023⟩, ⟨10, 10, .ro, 0⟩]⟩,
  ⟨0x10C, 0, 1, [⟨0, 4, .ro, 0⟩, ⟨4, 1, .w1c, 0⟩]⟩,
  ⟨0x110, 0, 1, [⟨0, 10, .rwl, 200⟩, ⟨10, 11, .rwl, 2000⟩, ⟨21, 8, .rwl, 100⟩]⟩,
  ⟨0x114, 0, 1, [⟨0, 4, .ro, 0⟩, ⟨4, 3, .ro, 0⟩, ⟨7, 1, .ro, 0⟩, ⟨8, 1, .w1c, 0⟩]⟩,
  ⟨0x118, 0, 1, [⟨0, 1, .ro, 0⟩, ⟨1, 1, .ro, 0⟩, ⟨2, 1, .ro, 0⟩]⟩,
  ⟨0x11C, 0, 1, [⟨0, 5, .ro, 0⟩]⟩
]

/-- Rows of the PWR page (R431). -/
def rowsPwr1 : List RegRow := [
  ⟨0x120, 0, 1, [⟨0, 10, .rc, 0⟩]⟩,
  ⟨0x124, 0, 1, [⟨0, 32, .rc, 0⟩]⟩,
  ⟨0x128, 0, 1, [⟨0, 32, .rc, 0⟩]⟩,
  ⟨0x12C, 0, 1, [⟨0, 32, .rc, 0⟩]⟩,
  ⟨0x140, 4, 4, [⟨0, 32, .rc, 0⟩]⟩
]

/-- All rows of the PWR page. -/
def rowsPwr : List RegRow := rowsPwr0 ++ rowsPwr1

/-- Rows of the MAC page (R335). -/
def rowsMac : List RegRow := [
  ⟨0x100, 0, 1, [⟨0, 1, .rw, 1⟩]⟩,
  ⟨0x104, 0, 1, [⟨0, 3, .ro, 5⟩, ⟨3, 3, .ro, 5⟩, ⟨6, 1, .ro, 1⟩, ⟨7, 1, .ro, 0⟩, ⟨8, 1, .ro, 0⟩]⟩,
  ⟨0x108, 0, 1, [⟨0, 5, .ro, 31⟩, ⟨8, 5, .ro, 31⟩]⟩,
  ⟨0x10C, 0, 1, [⟨0, 32, .ro, 4294967295⟩]⟩,
  ⟨0x120, 0, 1, [⟨0, 32, .rc, 0⟩]⟩,
  ⟨0x124, 0, 1, [⟨0, 32, .rc, 0⟩]⟩,
  ⟨0x128, 0, 1, [⟨0, 32, .rc, 0⟩]⟩,
  ⟨0x12C, 0, 1, [⟨0, 32, .rc, 0⟩]⟩,
  ⟨0x130, 0, 1, [⟨0, 32, .rc, 0⟩]⟩,
  ⟨0x140, 0, 1, [⟨0, 32, .ro, 0⟩]⟩,
  ⟨0x144, 0, 1, [⟨0, 32, .ro, 0⟩]⟩,
  ⟨0x148, 0, 1, [⟨0, 32, .ro, 0⟩]⟩,
  ⟨0x200, 4, 64, [⟨0, 2, .ro, 0⟩, ⟨2, 1, .ro, 0⟩, ⟨4, 4, .ro, 0⟩]⟩,
  ⟨0x400, 4, 272, [⟨0, 3, .ro, 0⟩, ⟨3, 1, .ro, 0⟩, ⟨4, 24, .ro, 0⟩]⟩,
  ⟨0x900, 4, 256, [⟨0, 32, .ro, 0⟩]⟩
]

/-- Rows of the SEC page (R370). -/
def rowsSec : List RegRow := [
  ⟨0x100, 0, 1, [⟨0, 3, .ro, 0⟩, ⟨3, 2, .ro, 1⟩, ⟨5, 1, .ro, 0⟩, ⟨6, 1, .ro, 0⟩, ⟨7, 1, .ro, 0⟩, ⟨8, 2, .ro, 0⟩, ⟨10, 1, .ro, 0⟩]⟩,
  ⟨0x104, 0, 1, [⟨0, 7, .ro, 0⟩, ⟨8, 7, .ro, 0⟩, ⟨16, 4, .ro, 0⟩, ⟨20, 2, .ro, 0⟩]⟩,
  ⟨0x108, 0, 1, [⟨0, 32, .ro, 0⟩]⟩,
  ⟨0x10C, 0, 1, [⟨0, 32, .ro, 0⟩]⟩,
  ⟨0x110, 0, 1, [⟨0, 1, .rw, 1⟩, ⟨1, 1, .rws, 0⟩, ⟨2, 1, .ro, 0⟩, ⟨4, 7, .ro, 0⟩]⟩,
  ⟨0x114, 0, 1, [⟨0, 7, .ro, 0⟩, ⟨8, 4, .ro, 0⟩]⟩,
  ⟨0x118, 0, 1, [⟨0, 32, .rc, 0⟩]⟩,
  ⟨0x11C, 0, 1, [⟨0, 32, .rc, 0⟩]⟩,
  ⟨0x120, 4, 4, [⟨0, 32, .ro, 0⟩]⟩,
  ⟨0x140, 4, 12, [⟨0, 32, .ro, 0⟩]⟩,
  ⟨0x180, 0, 1, [⟨0, 8, .wo, 0⟩]⟩,
  ⟨0x184, 0, 1, [⟨0, 1, .ro, 0⟩, ⟨4, 4, .ro, 0⟩, ⟨8, 2, .ro, 0⟩]⟩,
  ⟨0x188, 4, 8, [⟨0, 32, .rw, 0⟩]⟩,
  ⟨0x1A8, 0, 1, [⟨0, 3, .rw, 0⟩]⟩,
  ⟨0x1AC, 0, 1, [⟨0, 15, .rw, 0⟩]⟩,
  ⟨0x800, 4, 512, [⟨0, 32, .rw, 0⟩]⟩
]

/-- Rows of the HOD page (R387, R388). -/
def rowsHod : List RegRow := [
  ⟨0x1100, 0, 1, [⟨0, 3, .rw, 2⟩]⟩,
  ⟨0x1104, 0, 1, [⟨0, 16, .rw, 0⟩]⟩,
  ⟨0x1108, 0, 1, [⟨0, 32, .ro, 0⟩]⟩,
  ⟨0x110C, 0, 1, [⟨0, 32, .ro, 0⟩]⟩,
  ⟨0x1110, 0, 1, [⟨0, 32, .ro, 2097152⟩]⟩,
  ⟨0x1120, 0, 1, [⟨0, 32, .rc, 0⟩]⟩,
  ⟨0x1124, 0, 1, [⟨0, 32, .rc, 0⟩]⟩,
  ⟨0x1128, 0, 1, [⟨0, 32, .rc, 0⟩]⟩,
  ⟨0x100, 128, 32, [⟨0, 1, .wo, 0⟩, ⟨1, 1, .wo, 0⟩, ⟨2, 1, .wo, 0⟩]⟩,
  ⟨0x104, 128, 32, [⟨0, 2, .rw, 3⟩, ⟨2, 1, .rw, 0⟩, ⟨4, 4, .rw, 10⟩]⟩,
  ⟨0x108, 128, 32, [⟨0, 3, .ro, 0⟩, ⟨3, 1, .w1c, 0⟩, ⟨4, 3, .ro, 0⟩, ⟨8, 4, .ro, 0⟩, ⟨12, 3, .ro, 0⟩]⟩,
  ⟨0x10C, 128, 32, [⟨0, 5, .w1c, 0⟩]⟩,
  ⟨0x110, 128, 32, [⟨0, 5, .rw, 2⟩]⟩,
  ⟨0x114, 128, 32, [⟨0, 32, .rw, 0⟩]⟩,
  ⟨0x118, 128, 32, [⟨0, 32, .rw, 0⟩]⟩,
  ⟨0x11C, 128, 32, [⟨0, 32, .ro, 0⟩]⟩,
  ⟨0x120, 128, 32, [⟨0, 32, .ro, 0⟩]⟩,
  ⟨0x124, 128, 32, [⟨0, 32, .ro, 0⟩]⟩,
  ⟨0x128, 128, 32, [⟨0, 32, .rc, 0⟩]⟩,
  ⟨0x12C, 128, 32, [⟨0, 32, .rc, 0⟩]⟩
]

/-- Rows of the MEMCHK page (R413). -/
def rowsMemchk : List RegRow := [
  ⟨0x100, 256, 12, [⟨0, 4, .ro, 0⟩, ⟨8, 8, .ro, 0⟩, ⟨16, 16, .ro, 0⟩]⟩,
  ⟨0x104, 256, 12, [⟨0, 4, .rw, 2⟩, ⟨4, 1, .rw, 1⟩]⟩,
  ⟨0x108, 256, 12, [⟨0, 11, .rw, 0⟩, ⟨16, 7, .rw, 1⟩]⟩,
  ⟨0x10C, 256, 12, [⟨0, 8, .rw, 16⟩, ⟨8, 8, .rw, 1⟩, ⟨16, 8, .ro, 0⟩]⟩,
  ⟨0x110, 256, 12, [⟨0, 32, .rc, 0⟩]⟩,
  ⟨0x114, 256, 12, [⟨0, 32, .rc, 0⟩]⟩,
  ⟨0x118, 256, 12, [⟨0, 32, .rc, 0⟩]⟩,
  ⟨0x11C, 256, 12, [⟨0, 24, .ro, 0⟩]⟩,
  ⟨0x120, 256, 12, [⟨0, 32, .rc, 0⟩]⟩,
  ⟨0x124, 256, 12, [⟨0, 1, .w1c, 0⟩, ⟨1, 1, .w1c, 0⟩, ⟨2, 1, .w1c, 0⟩, ⟨3, 1, .w1c, 0⟩, ⟨4, 1, .w1c, 0⟩, ⟨5, 1, .w1c, 0⟩]⟩,
  ⟨0x128, 256, 12, [⟨0, 6, .rw, 55⟩]⟩,
  ⟨0x12C, 256, 12, [⟨0, 4, .rw, 0⟩]⟩,
  ⟨0x130, 256, 12, [⟨0, 24, .ro, 0⟩]⟩,
  ⟨0x134, 256, 12, [⟨0, 15, .ro, 0⟩, ⟨15, 1, .ro, 0⟩, ⟨16, 2, .ro, 0⟩, ⟨18, 2, .ro, 0⟩]⟩,
  ⟨0x138, 256, 12, [⟨0, 32, .ro, 0⟩]⟩,
  ⟨0x13C, 256, 12, [⟨0, 32, .rc, 0⟩]⟩,
  ⟨0x140, 256, 12, [⟨0, 5, .rw, 0⟩, ⟨8, 6, .rw, 0⟩]⟩,
  ⟨0x144, 256, 12, [⟨0, 24, .ro, 0⟩, ⟨31, 1, .ro, 0⟩]⟩,
  ⟨0x148, 256, 12, [⟨0, 16, .ro, 0⟩]⟩
]

/-- Rows of the MAPMEM page (R414). -/
def rowsMapmem0 : List RegRow := [
  ⟨0x100, 0, 1, [⟨0, 2, .rw, 2⟩, ⟨2, 1, .wo, 0⟩]⟩,
  ⟨0x104, 0, 1, [⟨0, 3, .ro, 0⟩, ⟨3, 1, .ro, 0⟩]⟩,
  ⟨0x108, 0, 1, [⟨0, 8, .ro, 0⟩]⟩,
  ⟨0x10C, 0, 1, [⟨0, 11, .rw, 51⟩, ⟨16, 7, .rw, 16⟩]⟩,
  ⟨0x110, 0, 1, [⟨0, 8, .rw, 16⟩, ⟨8, 8, .rw, 1⟩, ⟨16, 8, .ro, 0⟩]⟩,
  ⟨0x114, 0, 1, [⟨0, 32, .rc, 0⟩]⟩,
  ⟨0x118, 0, 1, [⟨0, 32, .rc, 0⟩]⟩,
  ⟨0x11C, 0, 1, [⟨0, 32, .rc, 0⟩]⟩,
  ⟨0x120, 0, 1, [⟨0, 32, .rc, 0⟩]⟩,
  ⟨0x124, 0, 1, [⟨0, 32, .ro, 0⟩]⟩,
  ⟨0x128, 0, 1, [⟨0, 32, .rc, 0⟩]⟩,
  ⟨0x12C, 0, 1, [⟨0, 1, .w1c, 0⟩, ⟨1, 1, .w1c, 0⟩, ⟨2, 1, .w1c, 0⟩, ⟨3, 1, .w1c, 0⟩, ⟨4, 1, .w1c, 0⟩, ⟨5, 1, .w1c, 0⟩, ⟨6, 1, .w1c, 0⟩, ⟨7, 1, .w1c, 0⟩]⟩,
  ⟨0x130, 0, 1, [⟨0, 8, .rw, 247⟩]⟩,
  ⟨0x134, 0, 1, [⟨0, 4, .rw, 0⟩]⟩,
  ⟨0x138, 0, 1, [⟨0, 32, .ro, 0⟩]⟩,
  ⟨0x13C, 0, 1, [⟨0, 15, .ro, 0⟩, ⟨15, 1, .ro, 0⟩, ⟨16, 2, .ro, 0⟩, ⟨18, 2, .ro, 0⟩]⟩,
  ⟨0x140, 0, 1, [⟨0, 32, .ro, 0⟩]⟩,
  ⟨0x144, 0, 1, [⟨0, 6, .rw, 0⟩]⟩,
  ⟨0x148, 0, 1, [⟨0, 29, .ro, 0⟩, ⟨31, 1, .ro, 0⟩]⟩,
  ⟨0x180, 0, 1, [⟨0, 8, .rw, 64⟩]⟩
]

/-- Rows of the MAPMEM page (R414). -/
def rowsMapmem1 : List RegRow := [
  ⟨0x184, 0, 1, [⟨0, 2, .ro, 0⟩, ⟨2, 1, .ro, 0⟩, ⟨3, 1, .ro, 0⟩, ⟨16, 8, .ro, 0⟩]⟩,
  ⟨0x188, 0, 1, [⟨0, 1, .ro, 0⟩, ⟨1, 3, .ro, 0⟩]⟩,
  ⟨0x18C, 0, 1, [⟨0, 32, .ro, 0⟩]⟩
]

/-- All rows of the MAPMEM page. -/
def rowsMapmem : List RegRow := rowsMapmem0 ++ rowsMapmem1

/-- Rows of the FAB page (R415). -/
def rowsFab : List RegRow := [
  ⟨0x100, 0, 1, [⟨0, 2, .ro, 3⟩]⟩,
  ⟨0x104, 0, 1, [⟨0, 32, .rc, 0⟩]⟩,
  ⟨0x108, 0, 1, [⟨0, 32, .rc, 0⟩]⟩,
  ⟨0x10C, 0, 1, [⟨0, 32, .rc, 0⟩]⟩,
  ⟨0x110, 0, 1, [⟨0, 6, .ro, 0⟩, ⟨6, 6, .ro, 0⟩, ⟨12, 1, .ro, 0⟩]⟩
]

/-- Rows of the KILN page (R445). -/
def rowsKiln : List RegRow := [
  ⟨0x100, 0, 1, [⟨0, 1, .rw, 1⟩, ⟨1, 1, .rws, 1⟩, ⟨2, 1, .rw, 1⟩, ⟨4, 4, .rw, 4⟩, ⟨8, 2, .rw, 0⟩]⟩,
  ⟨0x104, 0, 1, [⟨0, 8, .rw, 110⟩, ⟨8, 8, .rw, 120⟩, ⟨16, 8, .rwl, 135⟩]⟩,
  ⟨0x108, 0, 1, [⟨0, 4, .rw, 5⟩, ⟨4, 4, .rw, 5⟩, ⟨8, 4, .rw, 5⟩]⟩,
  ⟨0x10C, 0, 1, [⟨0, 8, .rw, 8⟩, ⟨8, 8, .rw, 10⟩]⟩,
  ⟨0x110, 0, 1, [⟨0, 8, .rw, 64⟩, ⟨8, 12, .rw, 256⟩]⟩,
  ⟨0x114, 0, 1, [⟨0, 6, .rw, 8⟩, ⟨6, 6, .rw, 4⟩, ⟨12, 6, .rw, 2⟩, ⟨18, 3, .rw, 4⟩, ⟨21, 3, .rw, 3⟩, ⟨24, 3, .rw, 2⟩, ⟨27, 2, .rw, 1⟩, ⟨29, 2, .rw, 2⟩]⟩,
  ⟨0x118, 0, 1, [⟨0, 8, .rws, 95⟩]⟩,
  ⟨0x120, 0, 1, [⟨0, 2, .ro, 0⟩, ⟨2, 1, .ro, 0⟩, ⟨3, 1, .ro, 0⟩, ⟨4, 1, .ro, 0⟩, ⟨5, 5, .ro, 0⟩, ⟨10, 5, .ro, 0⟩]⟩,
  ⟨0x124, 0, 1, [⟨0, 16, .ro, 0⟩]⟩,
  ⟨0x128, 0, 1, [⟨0, 16, .rc, 0⟩]⟩,
  ⟨0x12C, 0, 1, [⟨0, 24, .ro, 0⟩]⟩,
  ⟨0x130, 0, 1, [⟨0, 32, .rc, 0⟩]⟩,
  ⟨0x134, 0, 1, [⟨0, 32, .rws, 0⟩]⟩,
  ⟨0x138, 0, 1, [⟨0, 16, .rws, 0⟩, ⟨16, 5, .rws, 0⟩]⟩,
  ⟨0x140, 4, 24, [⟨0, 16, .ro, 0⟩]⟩,
  ⟨0x1A0, 4, 4, [⟨0, 32, .rc, 0⟩]⟩
]

/-- Rows of the EVT page (R469). -/
def rowsEvt : List RegRow := [
  ⟨0x100, 0, 1, [⟨0, 1, .rw, 1⟩, ⟨1, 1, .ro, 0⟩]⟩,
  ⟨0x104, 0, 1, [⟨0, 8, .rw, 255⟩, ⟨8, 1, .rw, 1⟩]⟩,
  ⟨0x108, 0, 1, [⟨0, 8, .rw, 255⟩, ⟨8, 1, .rw, 1⟩]⟩,
  ⟨0x10C, 0, 1, [⟨0, 32, .rc, 0⟩]⟩,
  ⟨0x110, 0, 1, [⟨0, 9, .ro, 0⟩, ⟨16, 9, .rc, 0⟩]⟩,
  ⟨0x200, 4, 8, [⟨0, 32, .ro, 0⟩]⟩,
  ⟨0x400, 4, 256, [⟨0, 1, .rw, 0⟩, ⟨1, 1, .rw, 0⟩, ⟨2, 1, .rw, 0⟩, ⟨3, 1, .rw, 1⟩, ⟨4, 4, .rw, 10⟩, ⟨8, 3, .rw, 0⟩]⟩,
  ⟨0x1000, 4, 256, [⟨0, 32, .rc, 0⟩]⟩,
  ⟨0x2000, 4, 60, [⟨0, 32, .rw, 0⟩]⟩,
  ⟨0x20F0, 0, 1, [⟨0, 8, .wo, 0⟩, ⟨8, 8, .wo, 0⟩, ⟨16, 6, .wo, 0⟩]⟩
]

/-- Rows of the REC page (R470). -/
def rowsRec : List RegRow := [
  ⟨0x100, 0, 1, [⟨0, 1, .wo, 0⟩, ⟨1, 1, .wo, 0⟩, ⟨2, 1, .wo, 0⟩, ⟨3, 1, .wo, 0⟩]⟩,
  ⟨0x104, 0, 1, [⟨0, 3, .rw, 1⟩, ⟨8, 8, .rw, 64⟩, ⟨16, 16, .rw, 4096⟩]⟩,
  ⟨0x108, 0, 1, [⟨0, 1, .ro, 0⟩, ⟨1, 1, .ro, 0⟩, ⟨2, 1, .ro, 0⟩, ⟨3, 1, .ro, 1⟩, ⟨4, 7, .ro, 0⟩]⟩,
  ⟨0x10C, 0, 1, [⟨0, 13, .ro, 0⟩]⟩,
  ⟨0x110, 0, 1, [⟨0, 32, .rw, 0⟩]⟩,
  ⟨0x114, 0, 1, [⟨0, 32, .ro, 0⟩]⟩,
  ⟨0x118, 0, 1, [⟨0, 13, .ro, 0⟩, ⟨16, 9, .ro, 0⟩]⟩,
  ⟨0x11C, 0, 1, [⟨0, 32, .ro, 0⟩]⟩,
  ⟨0x120, 0, 1, [⟨0, 32, .ro, 0⟩]⟩,
  ⟨0x124, 0, 1, [⟨0, 32, .ro, 0⟩]⟩,
  ⟨0x130, 4, 6, [⟨0, 32, .rc, 0⟩]⟩,
  ⟨0x150, 4, 6, [⟨0, 32, .rc, 0⟩]⟩
]

/-- Rows of the TOP page (R491). -/
def rowsTop : List RegRow := [
  ⟨0x100, 0, 1, [⟨0, 32, .ro, 1314559488⟩]⟩,
  ⟨0x104, 0, 1, [⟨0, 8, .ro, 161⟩]⟩,
  ⟨0x108, 0, 1, [⟨0, 2, .ro, 0⟩, ⟨2, 1, .ro, 0⟩, ⟨3, 1, .ro, 0⟩, ⟨4, 1, .ro, 0⟩, ⟨5, 3, .ro, 0⟩, ⟨8, 1, .ro, 0⟩]⟩,
  ⟨0x10C, 0, 1, [⟨0, 4, .ro, 15⟩, ⟨4, 4, .ro, 1⟩, ⟨8, 1, .ro, 0⟩]⟩,
  ⟨0x110, 0, 1, [⟨0, 1, .ro, 0⟩, ⟨1, 1, .ro, 0⟩, ⟨2, 1, .ro, 0⟩, ⟨3, 1, .ro, 0⟩, ⟨4, 1, .ro, 0⟩, ⟨5, 1, .ro, 0⟩, ⟨6, 1, .ro, 0⟩, ⟨7, 1, .ro, 0⟩, ⟨8, 1, .ro, 0⟩, ⟨9, 1, .ro, 0⟩, ⟨10, 1, .ro, 0⟩]⟩,
  ⟨0x114, 0, 1, [⟨0, 8, .ro, 1⟩, ⟨8, 8, .rw, 1⟩, ⟨16, 8, .ro, 1⟩, ⟨24, 1, .w1c, 0⟩]⟩,
  ⟨0x118, 0, 1, [⟨0, 1, .wo, 0⟩, ⟨1, 1, .wo, 0⟩]⟩,
  ⟨0x11C, 0, 1, [⟨0, 4, .ro, 0⟩, ⟨4, 4, .ro, 0⟩, ⟨8, 1, .ro, 0⟩, ⟨9, 3, .ro, 0⟩]⟩,
  ⟨0x120, 0, 1, [⟨0, 32, .ro, 0⟩]⟩,
  ⟨0x124, 0, 1, [⟨0, 16, .ro, 0⟩]⟩,
  ⟨0x128, 0, 1, [⟨0, 24, .ro, 0⟩]⟩,
  ⟨0x12C, 0, 1, [⟨0, 32, .ro, 0⟩]⟩,
  ⟨0x130, 0, 1, [⟨0, 32, .ro, 0⟩]⟩,
  ⟨0x134, 0, 1, [⟨0, 32, .ro, 0⟩]⟩,
  ⟨0x138, 0, 1, [⟨0, 16, .ro, 0⟩]⟩,
  ⟨0x13C, 0, 1, [⟨0, 32, .ro, 0⟩]⟩,
  ⟨0x140, 0, 1, [⟨0, 4, .ro, 0⟩]⟩,
  ⟨0x144, 0, 1, [⟨0, 8, .ro, 0⟩]⟩
]

/-- Rows of the COMMON page (R494). -/
def rowsCommon : List RegRow := [
  ⟨0x0, 0, 1, [⟨0, 8, .ro, 0⟩, ⟨8, 8, .ro, 1⟩, ⟨16, 8, .ro, 0⟩, ⟨24, 8, .ro, 0⟩]⟩,
  ⟨0x4, 0, 1, [⟨0, 8, .ro, 0⟩, ⟨8, 3, .ro, 0⟩, ⟨11, 1, .ro, 0⟩, ⟨12, 1, .ro, 0⟩, ⟨13, 1, .ro, 0⟩]⟩,
  ⟨0x8, 0, 1, [⟨0, 1, .rw, 1⟩, ⟨1, 1, .wo, 0⟩, ⟨2, 2, .rw, 0⟩]⟩,
  ⟨0xC, 0, 1, [⟨0, 1, .ro, 0⟩, ⟨1, 1, .ro, 0⟩, ⟨2, 1, .ro, 0⟩, ⟨3, 1, .ro, 0⟩]⟩,
  ⟨0x10, 0, 1, [⟨0, 32, .ro, 0⟩]⟩,
  ⟨0x14, 0, 1, [⟨0, 32, .rw, 0⟩]⟩,
  ⟨0x18, 0, 1, [⟨0, 32, .w1c, 0⟩]⟩,
  ⟨0x1C, 0, 1, [⟨0, 32, .wo, 0⟩]⟩,
  ⟨0x20, 0, 1, [⟨0, 8, .rc, 0⟩, ⟨8, 1, .rc, 0⟩, ⟨16, 16, .rc, 0⟩]⟩,
  ⟨0x24, 0, 1, [⟨0, 32, .ro, 0⟩]⟩,
  ⟨0x28, 0, 1, [⟨0, 32, .ro, 0⟩]⟩,
  ⟨0x2C, 0, 1, [⟨0, 1, .w1s, 0⟩]⟩
]

/-! ## Blocks of the window -/

/-- The severity of event source `s` (R446), from the event tables of the blocks' chapters: R490, R430,
R305, R444, R61, R410, R411, R179, R386, R334, R369, R129, R215, R214, R277, R240, R86, R468, R412, R453.
A reserved source has severity 0 and is never raised (R447). -/
def severityOf (s : Nat) : Nat :=
  if s < 16 then [1, 0, 2, 3, 4, 2, 2, 2, 5].getD s 0
  else if s < 32 then [0, 2, 2, 1, 2, 4, 4, 4, 2, 1, 4, 3, 3, 0, 0, 0].getD (s - 16) 0
  else if s < 40 then [2, 2, 1, 4, 3, 1, 2, 0].getD (s - 32) 0
  else if s < 48 then [2, 3, 4, 1, 1, 3, 2, 2].getD (s - 40) 0
  else if s < 61 then 3
  else if s < 64 then 0
  else if s < 72 then (if s % 2 = 0 then 3 else 4)
  else if s < 80 then [1, 3, 0, 2, 2, 2, 0, 0].getD (s - 72) 0
  else if s < 112 then 3
  else if s < 120 then [3, 4, 4, 1, 1, 0, 3, 3].getD (s - 112) 0
  else if s < 136 then [2, 3, 1, 1, 3, 5, 1, 2, 4, 2, 1, 0, 1, 3, 2, 0].getD (s - 120) 0
  else if s < 152 then [1, 3, 2, 0, 3, 3, 3, 1].getD ((s - 136) % 8) 0
  else if s < 184 then 3
  else if s < 190 then [3, 1, 2, 2, 0, 3].getD (s - 184) 0
  else if s < 196 then [4, 4, 1, 2, 4, 2].getD (s - 190) 0
  else if s < 200 then [3, 2, 0, 2].getD (s - 196) 0
  else if s < 216 then 2
  else if s < 224 then [1, 1, 2, 4, 3, 0, 0, 0].getD (s - 216) 0
  else if s = 224 then 2
  else if s = 232 then 0
  else if s = 233 then 4
  else 0

/-- The block a window address lies in: type code, instance and base address (R492); none in reserved
space, in the entry window and in the recorder window. -/
def blockOf (a : Nat) : Option (Nat × Nat × Nat) :=
  if a < 0x1000 then some (1, 0, 0)
  else if a < 0x2000 then some (2, 0, 0x1000)
  else if a < 0x3000 then some (3, 0, 0x2000)
  else if a < 0x4000 then some (4, 0, 0x3000)
  else if a < 0x8000 then some (5, 0, 0x4000)
  else if a < 0x9000 then some (6, 0, 0x8000)
  else if a < 0xA000 then some (7, 0, 0x9000)
  else if a < 0xE000 then some (8, (a - 0xA000) / 0x1000, a / 0x1000 * 0x1000)
  else if a < 0xF000 then some (9, 0, 0xE000)
  else if a < 0x10000 then some (10, 0, 0xF000)
  else if a < 0x12000 then some (11, 0, 0x10000)
  else if a < 0x13000 then some (12, 0, 0x12000)
  else if a < 0x14000 then some (13, 0, 0x13000)
  else if a < 0x16000 then some (14, (a - 0x14000) / 0x1000, a / 0x1000 * 0x1000)
  else if a < 0x17000 then some (15, 0, 0x16000)
  else if a < 0x18000 then some (16, 0, 0x17000)
  else if a < 0x19000 then some (17, 0, 0x18000)
  else if a < 0x1A000 then some (18, 0, 0x19000)
  else if a < 0x20000 then none
  else if a < 0x40000 then some (19, (a - 0x20000) / 0x1000, a / 0x1000 * 0x1000)
  else if a < 0x80000 then some (20, (a - 0x40000) / 0x1000, a / 0x1000 * 0x1000)
  else none

/-- The rows of a block type beyond the common layout. -/
def blockRows (ty : Nat) : List RegRow :=
  match ty with
  | 1 => rowsTop | 2 => rowsPwr | 3 => rowsKiln | 4 => rowsBeat | 5 => rowsEvt | 6 => rowsRec
  | 7 => rowsMemchk | 8 => rowsMapmem | 9 => rowsSort | 10 => rowsFab | 11 => rowsHod | 12 => rowsMac
  | 13 => rowsSec | 14 => rowsHost | 15 => rowsCourse | 16 => rowsTrowel | 17 => rowsLdpc
  | 18 => rowsYard | 19 => rowsFch | 20 => rowsTile | _ => []

/-- The row of a table that holds offset `o`, if any. -/
def findRow (rows : List RegRow) (o : Nat) : Option RegRow :=
  rows.find? fun r =>
    decide (r.off ≤ o) && (if r.stride = 0 then decide (o = r.off)
      else decide ((o - r.off) % r.stride = 0) && decide ((o - r.off) / r.stride < r.count))

/-- The register row at a window address (R502), or none where the address is reserved (R13). -/
def rowAt (a : Nat) : Option RegRow :=
  match blockOf a with
  | none => none
  | some (ty, _, base) =>
    if a - base < 0x30 then findRow rowsCommon (a - base) else findRow (blockRows ty) (a - base)

/-- A page's number of defined event bits, BLK_CAP.EVT_BITS (R494), from the blocks' event tables. -/
def evtBits (ty : Nat) : Nat :=
  match ty with
  | 1 => 9 | 2 => 14 | 3 => 7 | 4 => 8 | 5 => 1 | 6 => 7 | 7 => 13 | 8 => 2 | 9 => 7 | 10 => 2
  | 11 => 32 | 12 => 8 | 13 => 16 | 14 => 8 | 15 => 6 | 16 => 6 | 17 => 4 | 18 => 0 | 19 => 8 | 20 => 6
  | _ => 0

/-- EVT_EN at reset, from the "EVT_EN reset" columns (R490, R430, R305, R444, R61, R468, R410, R411, R179,
R412, R386, R334, R369, R129, R214, R277, R240, R215, R239, R89).  R61 and R386 give no column: BEAT's and
the Hod's are taken as 1 (DESIGN CHOICE, log 7). -/
def evtEnReset (ty : Nat) : Nat :=
  match ty with
  | 1 => 0b111111101 | 2 => 0b0001111111111110 | 3 => 0b01111111 | 4 => 0xFF | 5 => 1 | 6 => 0b1111100
  | 7 => 0x1FFF | 8 => 3 | 9 => 0b00111011 | 10 => 0b10 | 11 => 0xFFFFFFFF | 12 => 0b11011111
  | 13 => 0b0011011111111111 | 14 => 0b11110111 | 15 => 0b101111 | 16 => 0b111111 | 17 => 0b1011
  | 18 => 0 | 19 => 0b00011111 | 20 => 0b010111 | _ => 0

/-- Macro groups, size in 64 KiB units and SCRUB.WORDS at reset of protected memory `m` (R389). -/
def memShape (m : Nat) : Nat × Nat × Nat :=
  match m with
  | 1 => (32, 2048, 68) | 2 => (4, 256, 9) | 3 => (1, 64, 3) | 4 => (1, 64, 3) | 5 => (1, 48, 2)
  | 6 => (1, 64, 3) | 7 => (1, 32, 2) | 8 => (1, 32, 2) | 9 => (1, 16, 1) | 10 => (1, 24, 1)
  | 11 => (1, 16, 1) | 12 => (1, 8, 1) | _ => (1, 16, 1)

/-- Resets that a register table states in words: per instance, per severity (R449) or per page (R494).
Strap and fuse fields reset to 0, every strap pin being pulled down (R515) and every fuse unblown
(DESIGN CHOICE, log 6). -/
def wordyReset (ty inst o : Nat) : Option Nat :=
  if o = 0 then some (ty * 0x1000000 + inst * 0x10000 + 0x100)
  else if o = 4 then
    some (evtBits ty + (if ty = 5 then 3 else if ty = 11 then 1 else 0) * 0x100
      + (if ty = 11 then 0x1800 else 0) + (if ty = 11 ∨ (ty = 14 ∧ inst = 1) then 0x2000 else 0))
  else if o = 8 then (if ty = 14 ∧ inst = 1 then some 0 else some 1)
  else if o = 0x14 then some (evtEnReset ty)
  else
    match ty with
    | 5 =>
      if 0x400 ≤ o ∧ o < 0x800 ∧ o % 4 = 0 then
        let v := severityOf ((o - 0x400) / 4)
        some ((if v ≥ 3 then 3 else 0) + (if v ≥ 4 then 4 else 0) + 8 + 0xA0 + v * 0x100)
      else if o = 0x108 then some 255
      else none
    | 7 =>
      let m := o / 0x100
      if 1 ≤ m ∧ m ≤ 12 ∧ o % 0x100 = 0 then
        some (m + (memShape m).1 * 0x100 + (memShape m).2.1 * 0x10000)
      else if 1 ≤ m ∧ m ≤ 12 ∧ o % 0x100 = 8 then some ((memShape m).2.2 + 0x10000)
      else none
    | 14 => if o = 0x100 then some (63 * 8)
            else if o = 0x104 then some (if inst = 0 then 0b110110 else 0b010110)
            else none
    | 19 => if o = 0x104 then some (inst * 0x10000) else none
    | 20 =>
      if inst = 0 then
        match o with
        | 0x100 => some 2 | 0x108 => some 0x40 | 0x10C => some (3072 + 16 * 0x10000)
        | 0x110 => some 0x08000000 | 0x114 => some (4096 + 256 * 0x10000) | 0x118 => some 262144
        | 0x11C => some (1024 + 256 * 0x10000) | 0x120 => some (4096 + 4096 * 0x10000)
        | 0x124 => some 0x3FFFF | 0x128 => some (4096 * 0x10000) | 0x130 => some 3
        | _ => none
      else
        match o with
        | 0x114 => some 0x10000
        | 0x12C => some (4 * inst)
        | _ => none
    | _ => none

/-- The reset value a row's fields spell (R12). -/
def rowReset (r : RegRow) : Nat :=
  r.flds.foldl (fun acc f => acc + f.rst * 2 ^ f.lo) 0

/-- The value of the register at a window address after a power-on reset (R12); reserved space reads 0 (R13). -/
def resetValue (a : Nat) : BitVec 32 :=
  match blockOf a with
  | none => 0
  | some (ty, inst, base) =>
    match wordyReset ty inst (a - base) with
    | some v => BitVec.ofNat 32 v
    | none =>
      match rowAt a with
      | some r => BitVec.ofNat 32 (rowReset r)
      | none => 0

end Sys2Proof.Machine
end

