-- ==== Sys2Proof/Machine/Tbl.lean ====
section
/-!
DEFINITION. Machine/Tbl.lean: tables of plain data in one canonical form: keys strictly rising, and no entry whose
value is what an unlisted key reads as.  `d` is always what an unlisted key reads as.
-/

namespace Sys2Proof.Machine

/-- What key `k` of a table reads as. -/
def tget {α : Type} (d : Nat → α) (t : Tbl α) (k : Nat) : α :=
  match t.find? (fun p => p.1 == k) with
  | some p => p.2
  | none => d k

/-- The table without key `k`. -/
def terase {α : Type} (k : Nat) (t : Tbl α) : Tbl α :=
  t.filter (fun p => p.1 != k)

/-- Put an entry in at its place. -/
def tinsert {α : Type} (k : Nat) (v : α) : Tbl α → Tbl α
  | [] => [(k, v)]
  | p :: t => if k < p.1 then (k, v) :: p :: t else p :: tinsert k v t

/-- The table with key `k` reading `v`; a value equal to the default removes the entry. -/
def tset {α : Type} [DecidableEq α] (d : Nat → α) (k : Nat) (v : α) (t : Tbl α) : Tbl α :=
  if v = d k then terase k t else tinsert k v (terase k t)

/-- Keys strictly rising. -/
def tsorted {α : Type} : Tbl α → Bool
  | [] => true
  | p :: t => (match t with
    | [] => true
    | q :: _ => decide (p.1 < q.1)) && tsorted t

/-- The canonical form: keys strictly rising, no entry equal to what an unlisted key reads as. -/
def twf {α : Type} [DecidableEq α] (d : Nat → α) (t : Tbl α) : Bool :=
  tsorted t && t.all (fun p => decide (p.2 ≠ d p.1))

/-- Bits `lo` to `lo + w - 1` of `x`. -/
def bitsOf (x lo w : Nat) : Nat := x / 2 ^ lo % 2 ^ w

/-- `x` with bits `lo` to `lo + w - 1` replaced by the low `w` bits of `v`. -/
def putBits (x lo w v : Nat) : Nat := x % 2 ^ lo + v % 2 ^ w * 2 ^ lo + x / 2 ^ (lo + w) * 2 ^ (lo + w)

/-- `n` as `k` bytes, little-endian (R8). -/
def leBytes : Nat → Nat → List Byte
  | 0, _ => []
  | k + 1, n => BitVec.ofNat 8 n :: leBytes k (n / 256)

/-- Little-endian bytes as a number (R8). -/
def leNat : List Byte → Nat
  | [] => 0
  | b :: bs => b.toNat + 256 * leNat bs

end Sys2Proof.Machine
end

