-- ==== Sys2Proof/Machine/State.lean ====
section
/-!
DEFINITION. Machine/State.lean: everything the spec gives the MY96, as plain data.  The management registers are one
table, `regs`, keyed by window byte address; every field that the register tables name lives there.  The other
fields hold what is wider than a register, what the registers only show, and what lies outside the window.
-/

namespace Sys2Proof.Machine

/-- The stops of the model. -/
inductive Fault where
  /-- Raised by every command that carries a window address outside the 64 MiB window (R492): safe, the spec gives
  such an access no path. -/
  | outsideWindow
  deriving DecidableEq, Repr

/-- Commands without a meaning. -/
inductive Refusal where
  /-- Raised by an arm of `exec` that has no meaning yet: safe. -/
  | notModelled (mnemonic : String)
  deriving DecidableEq, Repr

/-! ## The beat (02) -/

/-- A plan entry in its buffer: the entry, its status code, RETIRED (R38), and what PLAN_COMMIT charged for it:
the account (64 is the Trowel's budget), the LUN-slots, and whether they were borrowed (R73, R75). -/
structure PEnt where
  e : PlanEntry
  code : Nat
  retired : Bool
  acct : Nat
  charge : Nat
  borrowed : Bool
  deriving DecidableEq, Repr

/-- A plan buffer (R38). -/
structure PlanBuf where
  target : Nat
  valid : Bool
  held : Bool
  invalid : Bool
  done : Bool
  writer : Nat
  ents : List PEnt
  deriving DecidableEq, Repr

/-- The BEAT block and the plan pipeline. -/
structure BeatSt where
  /-- BEAT_COUNT (R31). -/
  count : W64
  /-- BEAT_HOST_OFFSET in effect (R49). -/
  offset : W64
  /-- The active copy of BG_WINDOWS_ONLY (R59). -/
  bgOnly : Bool
  /-- The active window set: period in frames, start and length in beats (R56). -/
  wins : List (Nat × Nat × Nat)
  /-- One more than the frame since which the phase error has stayed within LOCK_TOL; 0 for none (R50). -/
  inTol : Nat
  /-- Consecutive failed PTM exchanges (R50). -/
  ptmFails : Nat
  /-- Consecutive missing SYNC_IN edges (R50). -/
  syncMisses : Nat
  /-- The next measurement is the first after FREE, or after a wake that stopped the count (R51, R420). -/
  firstMeas : Bool
  /-- BEAT_SYNC_FAULT has been raised for this loss (R53). -/
  faulted : Bool
  /-- The phase error still to be removed, in ns (R52). -/
  residual : Int
  /-- Level of SYNC_OUT (R55). -/
  syncOut : Bool
  /-- Host time and beat of the last measurement or Timestamp (R463); no measurement yet is none. -/
  hostTime : Option (Nat × W64)
  /-- Plan buffers by unit number × 4 + buffer (R34). -/
  plans : Tbl PlanBuf
  /-- Consecutive holding beats of each flash channel (R45). -/
  holdRun : Tbl Nat
  /-- Planners declared failed since the start (R17, R45). -/
  failed : List Nat
  /-- Happenings that R44, R450 and R458 allow once a frame and that this frame has had. -/
  frameRaised : List Nat
  /-- Work that falls once in a beat and that this beat has had: 0 the header beat, 1 the flush point, 2 the epoch boundary,
  3 the periodic anchor. -/
  once : List Nat
  deriving DecidableEq, Repr

/-! ## Events and the recorder (17) -/

/-- A record (R456); the header's LENGTH follows from the body. -/
structure Rec where
  sev : Nat
  coalesced : Bool
  forced : Bool
  replayed : Bool
  src : Nat
  typ : Nat
  seq : Nat
  beat : W64
  body : List Byte
  deriving DecidableEq, Repr

/-- An entry of the intake queue (R455).  `counted` says that the body begins with CYCLE and COUNT, as the EVENT
and SORT_TRACE bodies do (R457); `rest` is the body after them. -/
structure IntakeEnt where
  src : Nat
  typ : Nat
  sev : Nat
  forced : Bool
  count : Nat
  beat : W64
  cycle : Nat
  counted : Bool
  rest : List Byte
  deriving DecidableEq, Repr

/-- The event recorder (R455 to R466). -/
structure RecSt where
  intake : List IntakeEnt
  /-- Records of the ring in sequence order (R458). -/
  ring : List Rec
  /-- The holding FIFO of a freeze (R461). -/
  fifo : List Rec
  /-- The mirror in the NAND system area (R459). -/
  mirror : List Rec
  /-- Sequence numbers mirrored or being laid. -/
  mirrored : List Nat
  /-- Cells 1 to 15 of the sticky store (R459). -/
  sticky : List Rec
  /-- Cell 0: the recorder memory failed, with the failing word and the beat (R465, R466). -/
  failCell : Option (Nat × W64)
  /-- The snapshot the read window shows (R460). -/
  snap : List Rec
  /-- Records dropped since the last DROP_SUMMARY, by severity (R457). -/
  dropSum : List Nat
  /-- Records dropped during the freeze, by severity (R457). -/
  dropFrz : List Nat
  /-- Frame in which the freeze took effect (R461). -/
  frozenAt : Nat
  /-- Occurrences held while the part sleeps (R454): source, type, forced, and whether the body begins with CYCLE
  and COUNT, with the rest of it. -/
  held : List (Nat × Nat × Bool × List Byte)
  deriving DecidableEq, Repr

/-- What leaves the part: what a host, a controller of the sideband or a board sees (the model's own record). -/
inductive Out where
  | msix (fn vec : Nat)
  | cqe (fn cq sqid sqhd cid : Nat) (phase : Bool) (sct sc : Nat) (dnr : Bool) (dw0 dw1 : Nat) (data : List Byte)
  | aen (fn typ info lid : Nat)
  | rirus (tag status : Nat) (data : List Byte)
  | mctp (cmd code : Nat) (data : List Byte)
  | spdm (c : Conn) (code : Nat) (data : List Byte)
  | readData (path : Path) (a : Nat) (v : W32)
  | block (fn cid lba data metaF : Nat)
  | busError
  | coreIrq (core : Nat)
  | hodWrite (a : Nat) (data : List Byte)
  deriving DecidableEq, Repr

/-! ## Tiles (03) -/

/-- Die time and backpressure of the tiles; everything else of a tile is in its page. -/
structure TileSt where
  /-- Fields coded RW that R88 calls staging values, by window byte address. -/
  stage : Tbl W32
  /-- LUN-slots charged in this frame by account × 2048 + LUN; account 64 is the Trowel's budget (R73, R74). -/
  charge : Tbl Nat
  /-- Deficit round robin credit of each tile (R75). -/
  credit : Tbl Nat
  /-- Tiles with borrowed demand in this beat (R75). -/
  demand : List Nat
  /-- LUN-slots not yet counted in TILE_DIE_GUAR (key t) and TILE_DIE_BORROW (key 64 + t), which count
  thousands (R88). -/
  rem : Tbl Nat
  /-- Tiles whose lowered share takes effect at the next header beat: tile, DIE_SHARE and YARD words (R65). -/
  sharesDue : List (Nat × W32 × W32)
  /-- Tiles that wait for a yard slot (R79). -/
  waiting : List Nat
  /-- The digest of the owner certificate bound to each tile (R350); 0 is no owner. -/
  owner : Tbl Nat
  /-- What the system area holds of the tile pages: effective and staging words by window byte address (R526). -/
  nv : Tbl W32
  nvStage : Tbl W32
  deriving DecidableEq, Repr

/-! ## The host side (04) -/

/-- The 4,144 information bytes of a codeword (R189): data, tag header, metadata field, MAC, in that order. -/
abbrev Blk := BitVec 33152

/-- An NVMe status. -/
structure Sts where
  sct : Nat
  sc : Nat
  dnr : Bool
  deriving DecidableEq, Repr

/-- A submission queue: entries, priority (0 Urgent to 3 Low), completion queue, the host's tail, the head that
completions report, entries granted by the arbiter whose command is not yet known, and the command held at its head
(R106). -/
structure Sq where
  size : Nat
  prio : Nat
  cq : Nat
  tail : Nat
  head : Nat
  granted : Nat
  held : Option Nat
  deriving DecidableEq, Repr

/-- A completion queue: entries, MSI-X vector, the host's head, the tail and the phase tag. -/
structure Cq where
  size : Nat
  vector : Nat
  head : Nat
  tail : Nat
  phase : Bool
  deriving DecidableEq, Repr

/-- What a command in the command table is. -/
inductive CmdKind where
  | admin (opcode : Nat)
  | write | writeZeroes | append | read | flush | dsm | verify | zoneSend (action : Nat) | zoneReceive
  | audit | readTags | ioMgmt
  | aer
  deriving DecidableEq, Repr

/-- How far a command is. -/
inductive CmdSt where
  | fetched   -- waits for its first effect
  | started   -- past its admission, or its first die operation or its first byte in the yard
  | working   -- an admin command or an action that ends in a later step
  | ready     -- its completion is formed and waits to be posted
  deriving DecidableEq, Repr

/-- What Zone Audit and Read Tags found of a block (R330, R331): header, metadata, MAC, RESULT and MAP. -/
structure TagRes where
  hdr : Nat
  metaF : Nat
  mac : Nat
  res : Nat
  mapB : Nat
  deriving DecidableEq, Repr

/-- A command in the command table (R105, R108). -/
structure Cmd where
  h : CmdHead
  kind : CmdKind
  st : CmdSt
  tile : Option Nat
  /-- Beat of the fetch, and its slot class: deadlines count from it (R220). -/
  beat : Nat
  qos : Nat
  slba : Nat
  nlb : Nat
  hints : Hints
  wall : Nat
  /-- Blocks still to arrive (a write), to be sent (a read) or to be programmed (write-through). -/
  left : List Nat
  /-- Yard slots that this command waits to see programmed (R119, R18). -/
  waits : List Nat
  /-- The yard slot of each MU of a write, in LBA order. -/
  slots : List Nat
  /-- Blocks of a write that have arrived and are tagged, by LBA, until the last has. -/
  arrived : Tbl Blk
  /-- Ranges of a Dataset Management: first LBA and length. -/
  ranges : List (Nat × Nat)
  /-- Zone Audit: the nonce; Zone Audit and Read Tags: what each block gave. -/
  nonce : Nat
  tags : Tbl TagRes
  status : Sts
  failLba : Option Nat
  dw0 : Nat
  dw1 : Nat
  data : List Byte
  /-- The earliest beat whose completion plan can carry the completion (R223), and whether one does (R290). -/
  due : Nat
  planned : Bool
  /-- The matcher search of the command is made, or it needs none (R159). -/
  searched : Bool
  deriving DecidableEq, Repr

/-- A function's NVMe controller. -/
structure Fn where
  /-- CC.EN, CSTS.RDY, CSTS.SHST = 0b10. -/
  en : Bool
  rdy : Bool
  shut : Bool
  /-- A shutdown notification waits for the tile's yard data (R120). -/
  shutting : Bool
  wce : Bool
  /-- Features by identifier, as Set Features left them. -/
  feat : Tbl Nat
  /-- Power state selected and the one that waits for the mode to end (R23). -/
  ps : Nat
  psHeld : Option Nat
  /-- Outstanding Asynchronous Event Requests, oldest first (command indices). -/
  aers : List Nat
  /-- Asynchronous events that wait for a request: type, information, log. -/
  aens : List (Nat × Nat × Nat)
  /-- Asynchronous events sent and not re-armed. -/
  masked : List (Nat × Nat × Nat)
  /-- The virtual function is enabled (R94). -/
  vf : Bool
  /-- LOST of the 0xC0 and 0xC1 logs in this function's view (R115, R158). -/
  lostC0 : Nat
  lostC1 : Nat
  /-- Error Information log entries, newest first: command, status, LBA. -/
  errLog : List (Nat × Nat × Nat × Nat)
  deriving DecidableEq, Repr

/-- An entry of log 0xC0 or 0xC1 (R115, R158), with the views it has left. -/
structure LossEnt where
  beat : Nat
  slba : Nat
  nlb : Nat
  nsid : Nat
  tile : Nat
  kind : Nat
  cause : Nat
  seq : Nat
  outOwn : Bool
  outFn0 : Bool
  deriving DecidableEq, Repr

/-- A namespace (R133, R134, R150). -/
structure Ns where
  tile : Nat
  zoned : Bool
  nsze : Nat
  lbaf : Nat
  handles : List Nat
  attached : Bool
  /-- First map line (R206). -/
  base : Nat
  /-- Courses reserved, garbage-collection headroom included (R134). -/
  reserved : Nat
  /-- The deferred-error flag (R113). -/
  dwe : Bool
  deriving DecidableEq, Repr

/-- The host interface. -/
structure HostSt where
  fns : Tbl Fn
  sqs : Tbl Sq
  cqs : Tbl Cq
  cmds : Tbl Cmd
  /-- Next index of the command table. -/
  nextCmd : Nat
  ns : Tbl Ns
  dweLog : List LossEnt
  dweSeq : Nat
  lostLog : List LossEnt
  lostSeq : Nat
  /-- Rotating pointers of the fetch arbiters by port (R104, R47) and urgent grants of each tile in this beat. -/
  fetchPtr : Tbl Nat
  urgent : Tbl Nat
  /-- Round-robin position within a tile, by function (R104). -/
  rr : Tbl Nat
  /-- FDP: function-enabled tiles, enabled events, and log 0x23 entries: tile, kind, handle, blocks. -/
  fdpTiles : List Nat
  fdpEvents : Tbl Nat
  fdpLog : List (Nat × Nat × Nat × Nat)
  /-- Changed Zone List: namespace and zone. -/
  changed : List (Nat × Nat)
  /-- Zone Management Send actions that wait for writes admitted before them (R139): command, action, namespace,
  zones. -/
  zoneActs : List (Nat × Nat × Nat × List Nat)
  /-- The host timestamp in ms and the beat it was set in (R463). -/
  timestamp : Option (Nat × Nat)
  /-- Ports whose link is in Recovery (R429, R440). -/
  recov : List Nat
  /-- Trained width of each port's link (R440). -/
  trained : Tbl Nat
  /-- What waits for an activation pause to end: kind (0 controller reset, 1 function level reset, 2 port reset, 3 Abort)
  and the function, port or command (R122). -/
  paused : List (Nat × Nat)
  deriving DecidableEq, Repr

/-! ## Zones and walls (05) -/

/-- The zone states of R136. -/
inductive ZSt where
  | empty | implOpen | explOpen | closed | full | readOnly | offline
  deriving DecidableEq, Repr

/-- A zone and its descriptor extension (R136, R154). -/
structure Zone where
  st : ZSt
  /-- The Zone Report shows Full only once the seal root is formed (R155). -/
  reported : ZSt
  course : Option Nat
  cap : Nat
  /-- Write pointer as an offset in the zone. -/
  wp : Nat
  /-- Beat of the last admitted write (R140, R141). -/
  lastAdm : Nat
  finishRec : Bool
  zdev : Bool
  root : BitVec 384
  sealEpoch : Nat
  blocks : Nat
  signed : Bool
  partialSeal : Bool
  deriving DecidableEq, Repr

/-! ## Courses, waves, the yard, the map and the journal (07) -/

/-- A brick address of the course table (R183). -/
structure BrickAddr where
  ch : Nat
  lun : Nat
  brick : Nat
  valid : Bool
  deriving DecidableEq, Repr

/-- What a course is for. -/
inductive CourseUse where
  | none | zone (nsid zone : Nat) | wall (w : Nat) | reloc | pallet | journal | ckpt | grout
  deriving DecidableEq, Repr

/-- Where a course is in its life. -/
inductive CourseSt where
  | erased | taken | full | toErase | erasing | givenUp
  deriving DecidableEq, Repr

/-- A course: its owner and its place in the course state (R207), and the course table where a brick has been
replaced; an empty table is the formation of R182. -/
structure Course where
  use : CourseUse
  st : CourseSt
  tile : Nat
  mapped : Nat
  nextWave : Nat
  /-- Wave under way, and a replacement under R203 in progress. -/
  laying : Bool
  replacing : Bool
  refresh : Bool
  lastAdm : Nat
  /-- Bricks whose erase has returned done in the present erase. -/
  erasedBricks : List Nat
  table : List BrickAddr
  /-- One more than the last JSEQ that moved an MU out of the course or unmapped one, that released it, and that
  recorded its erase (R295); 0 for none. -/
  lastOut : Nat
  relSeq : Nat
  erasedSeq : Nat
  /-- Beat of the last program (R256). -/
  lastProg : Nat
  deriving DecidableEq, Repr

/-- What the brick table holds of a brick (R207). -/
structure Brick where
  erases : Nat
  reads : Nat
  retired : Bool
  spare : Bool
  lastProg : Nat
  deriving DecidableEq, Repr

/-- The slot states of R197. -/
inductive SlotSt where
  | free | filling | staged | laid | mortar
  deriving DecidableEq, Repr

/-- A yard slot: the descriptor of R197, its blocks, and the owner of each block as the tag carries it. -/
structure Slot where
  st : SlotSt
  tile : Nat
  nsid : Nat
  /-- First LBA of the MU. -/
  lba : Nat
  line : Nat
  idx : Nat
  /-- Key version every block of the slot is tagged with (R317). -/
  kver : Nat
  present : BitVec 16
  old : BitVec 40
  /-- The slot holds a Trowel copy, whose source `old` is (R247). -/
  reloc : Bool
  blks : Tbl Blk
  /-- The course that the slot's MU is to be laid on. -/
  course : Option Nat
  /-- Reads that have pinned the slot (R226). -/
  pins : List Nat
  /-- Blocks of commands whose completion was committed to a plan (R290). -/
  acked : BitVec 16
  /-- Mortar blocks of the slot that hold an uncorrectable word (R200). -/
  poisoned : Bool
  deriving DecidableEq, Repr

/-- What a parity context serves: a wave, a journal flush up to a sequence, a checkpoint segment with its
START_JSEQ, or a rebuilt word line of one brick (R190, R210, R212, R271). -/
inductive CtxKind where
  | wave | flush (last : Nat) | ckpt (seg start : Nat) | rebuild
  deriving DecidableEq, Repr

/-- A parity context of the course engine (R188). -/
structure Ctx where
  kind : CtxKind
  course : Nat
  wave : Nat
  mw : Nat
  mortar : List Nat
  /-- Lanes armed, and brick positions of the course whose program returned done, or failed (R190, R203). -/
  armed : List Nat
  done : List Nat
  failed : List Nat
  /-- Loaded data: MU position k within the wave, position in the course, yard slot. -/
  loads : List (Nat × Nat × Nat)
  /-- Beat of the last STATUS that returned done. -/
  doneBeat : Nat
  deriving DecidableEq, Repr

/-- The kinds of die operation. -/
inductive DieKind where
  | read | soft | program | erase | reset
  deriving DecidableEq, Repr

/-- An operation on a LUN: what it works on (brick, page, planes; one target for each joined read), its parameters,
the account and tile it is charged to, and when it was launched. -/
structure DieOp where
  kind : DieKind
  targets : List (Nat × Nat × Nat)
  cell : Nat
  param : Nat
  tile : Nat
  bg : Bool
  borrowed : Bool
  beat : Nat
  slot : Nat
  /-- Suspensions used, and the beat of the present one (R228). -/
  susUsed : Nat
  susBeat : Nat
  deriving DecidableEq, Repr

/-- A LUN: its operation, the operation it holds suspended, the plane-pages loaded for the word line that is next to
be programmed (plane-page and yard slot), and what its page registers hold after a read (brick, page, planes). -/
structure Lun where
  op : Option DieOp
  susp : Option DieOp
  loads : List (Nat × Nat)
  sensed : List (Nat × Nat × Nat)
  deriving DecidableEq, Repr

/-- What a read is for. -/
inductive RdKind where
  | host | verify | audit | tags | fill (slot : Nat) | fold (slot : Nat) | reloc | sample | source (rd : Nat)
  deriving DecidableEq, Repr

/-- How far a read of one block is: waits for its die, on the die, with a decoder, decoded (or copied from the yard),
with the MAC engines, ended. -/
inductive RdSt where
  | waiting | launched | fetched | decoded | checked | dead
  deriving DecidableEq, Repr

/-- The read of one block (R222 to R237): its command, its target and its place on the ladder. -/
structure Rd where
  kind : RdKind
  cmd : Nat
  nsid : Nat
  lba : Nat
  tile : Nat
  /-- Beat of the fetch and the deadline in beats; 0 for a read without one (R220, R221). -/
  beat : Nat
  deadline : Nat
  lr : Bool
  entry : BitVec 40
  ch : Nat
  lun : Nat
  brick : Nat
  u : Nat
  t : Nat
  step : Nat
  st : RdSt
  /-- Beat in which it entered its present state. -/
  since : Nat
  blk : Blk
  /-- Sources of a read-around still to come, and the XOR of those decoded (R234). -/
  sources : List Nat
  acc : Blk
  deriving DecidableEq, Repr

/-- A journal record (R209): its sequence and its remaining 96 bits. -/
structure JRec where
  seq : Nat
  typ : Nat
  body : Nat
  deriving DecidableEq, Repr

/-- The write path, the map and the journal. -/
structure MapSt where
  /-- The map is in map memory: S10 has loaded it (R297). -/
  loaded : Bool
  slots : Tbl Slot
  ctxs : Tbl Ctx
  courses : Tbl Course
  bricks : Tbl Brick
  luns : Tbl Lun
  /-- Programmed blocks by brick × 65,536 + MU position × 16 + block. -/
  flash : Tbl Blk
  rds : Tbl Rd
  nextRd : Nat
  zones : Tbl Zone
  /-- Open course of wall w of tile t by t × 512 + w; w = 256 is the warm and 257 the cold Trowel course (R146, R249). -/
  walls : Tbl Nat
  /-- Pallet course being filled, by tile (R201). -/
  pallets : Tbl Nat
  /-- Map lines: 12 entries of 40 bits and LINE_EPOCH (R206). -/
  lines : Tbl (BitVec 512)
  /-- Next journal sequence, last durable one, and the records above it (R210). -/
  jseq : Nat
  jdur : Nat
  tail : List JRec
  /-- Flushes laid and not yet confirmed: the last sequence of each. -/
  flushes : List Nat
  /-- Records known durable, oldest first. -/
  journal : List JRec
  /-- Next write sequence and its last durable reservation (R195). -/
  wseq : Nat
  wseqRes : Nat
  /-- Checkpoint segments complete: segment and START_JSEQ; and the one being laid. -/
  ckpt : Tbl Nat
  ckptNow : Option (Nat × Nat)
  /-- What the checkpoint says of the time before the first record of `journal` (R212, R213): the map and the courses. -/
  base : Tbl (BitVec 512)
  baseCourses : Tbl Course
  /-- Threshold set that last succeeded on a brick (R232). -/
  sets : Tbl Nat
  /-- Codewords not yet counted in the counters of thousands, by counter address. -/
  rem : Tbl Nat
  deriving DecidableEq, Repr

/-- The Trowel and what the planners keep about the media (09). -/
structure TrowelSt where
  /-- Courses queued for refresh: reason (0 margin or sample, 1 read count, 2 age) and course (R257). -/
  refresh : List (Nat × Nat)
  /-- Courses that wait for rebuild (R270). -/
  rebuild : List Nat
  /-- The rebuild under way: course, position, the lost brick and the next wave (R271). -/
  rebuildNow : Option (Nat × Nat × Nat × Nat)
  /-- MUs handed to the Trowel as salvage: line and index (R237). -/
  salvage : List (Nat × Nat)
  /-- Courses handed for erase. -/
  erase : List Nat
  /-- Tiles whose garbage collection runs, and those for which it is urgent (R253). -/
  gc : List Nat
  gcUrgent : List Nat
  /-- Courses available for user data (R261), and courses rebuilt since first start. -/
  userCourses : Nat
  rebuilt : Nat
  /-- MUs laid for host writes and relocated, and deferred requests, by tile since first start (R276). -/
  hostMus : Tbl Nat
  trowelMus : Tbl Nat
  dieDefer : Tbl Nat
  /-- Consecutive timeouts and failed resets of each LUN; consecutive transfer errors of each channel, the LUNs
  they lie on, and failed retrains in a row (R262, R263). -/
  timeouts : Tbl Nat
  resets : Tbl Nat
  xfers : Tbl Nat
  xferLuns : Tbl Nat
  retrains : Tbl Nat
  /-- Next course of the retention samples (R256). -/
  sample : Nat
  /-- Blocks found unrecoverable in EVACUATE: namespace and LBA (R275). -/
  evacLost : List (Nat × Nat)
  deriving DecidableEq, Repr

/-- What a grout holds (R287, R290). -/
structure GroutImg where
  cause : Nat
  id : Nat
  beat : Nat
  wseqNext : Nat
  jseqFirst : Nat
  jseqNext : Nat
  slots : Tbl Slot
  tail : List JRec
  done : Bool
  retried : Bool
  beats : Nat
  deriving DecidableEq, Repr

/-- Power loss and the grout (10). -/
structure GroutSt where
  /-- The grout under way: its beat n, and whether the map is frozen (R285). -/
  beat : Option Nat
  frozen : Bool
  /-- The image the next start replays. -/
  img : Option GroutImg
  /-- The last GROUT_ID. -/
  lastId : Nat
  /-- Frame in which the filter of HOLDUP_OK last began anew: a start, or a deassertion (R280). -/
  okFrom : Nat
  /-- Yard slots whose program the drain of R281 waits for. -/
  drain : List Nat
  /-- Grout courses used and not yet armed again, by set. -/
  used : List Nat
  /-- Yard slots that the last start restored from the grout or assembled and that are not yet programmed, and one more
  than the last record that must be durable before the used sets may be erased (R295). -/
  restored : List Nat
  fence : Nat
  deriving DecidableEq, Repr

/-! ## Keys (11) -/

/-- A zone record (R328). -/
structure ZRec where
  tile : Nat
  part : Bool
  nsid : Nat
  zslba : Nat
  blocks : Nat
  beat : Nat
  root : BitVec 384
  deriving DecidableEq, Repr

/-- A signed seal epoch (R328): its statement's fields, its zone records in leaf order, and the two signatures. -/
structure SealEp where
  epoch : Nat
  restarted : Bool
  root : BitVec 384
  prev : BitVec 384
  recs : List ZRec
  sigRsa : BitVec 3072
  sigSlh : BitVec 136704
  deriving DecidableEq, Repr

/-- The MAC engines' keys and the seals. -/
structure MacSt where
  /-- Key of each tile slot that is LOADED or RETIRING; the old copy while RETIRING; the key check value (R316). -/
  keys : Tbl (BitVec 256)
  old : Tbl (BitVec 256)
  kcv : Tbl W64
  /-- GEN of each tile slot, all 32 bits; reads under check that are bound to the GEN before a RETIRING slot's (R316, R317). -/
  gens : Tbl Nat
  bound : List Nat
  /-- SET_CURRENT that takes effect at the next beat boundary: tile and version (R320). -/
  curDue : List (Nat × Nat)
  /-- Erases whose effect comes at the next beat boundary (R318). -/
  eraseDue : List Nat
  /-- Tiles with a sweep under way. -/
  sweeping : List Nat
  /-- Seal stack of each zone, newest subtree first: leaves and digest (R325); as last saved; and the zones whose
  stack has yet to catch up after a start. -/
  trees : Tbl (List (Nat × BitVec 384))
  saved : Tbl (List (Nat × BitVec 384))
  behind : List Nat
  /-- Zone records of seal epochs not yet signed, and the seal epochs closed and being signed, with RESTARTED (R326). -/
  recs : List ZRec
  closing : List (Nat × Bool)
  /-- Signed seal epochs held, oldest first, and those dropped (R327). -/
  epochs : List SealEp
  dropped : Nat
  /-- DRBG requests since its last reseed, and that refusal ends at the next beat boundary (R314, R315). -/
  drbg : Nat
  resume : Bool
  deriving DecidableEq, Repr

/-! ## The placement matcher (06) -/

/-- A matcher entry (R161). -/
structure SEnt where
  key : BitVec 96
  care : BitVec 96
  action : W32
  prio : Nat
  valid : Bool
  shadowed : Bool
  hits : Nat
  deriving DecidableEq, Repr

/-- The operations of SORT_CMD that take more than one step. -/
inductive SortOp where
  | insert | delete | invalidate
  deriving DecidableEq, Repr

/-- The placement matcher. -/
structure SortSt where
  /-- Entries in the array and in the shadow; HITS lives in the shadow only (R176). -/
  arr : Tbl SEnt
  shadow : Tbl SEnt
  /-- The staging buffer: words by offset (R163). -/
  stage : Tbl W32
  /-- The operation under way: its span, its next step and the entry that an INSERT lands (R172, R173). -/
  op : Option (SortOp × Nat × Nat × Nat × SEnt)
  /-- The save under way: whether SORT_CMD ordered it, and the copy it took (R178). -/
  save : Option (Bool × Tbl SEnt × W32)
  /-- A change was made since the save under way began. -/
  changed : Bool
  /-- What the system area holds. -/
  saved : Tbl SEnt
  savedCfg : W32
  /-- The comparer's walk is under way. -/
  walking : Bool
  searches : Nat
  defaults : Nat
  deriving DecidableEq, Repr

/-! ## The Kiln (16) -/

/-- The thermal monitor and the level logic; the readings are in the KILN page. -/
structure KilnSt where
  /-- Sampled time in microseconds, and the Tmax of the samples of the last 256 ms with their time, newest first. -/
  clock : Nat
  hist : List (Nat × Int)
  /-- Time of the last sample that was not hot, and not cool, or of the last change of level (R436). -/
  hotFrom : Nat
  coolFrom : Nat
  /-- Time of the last evaluation while the beat grid is stopped (R436). -/
  evalAt : Nat
  /-- Level in force from the next beat boundary (R436). -/
  due : Option Nat
  /-- First beat whose plans the present level binds, and the level that binds the plans before it (R438). -/
  capBeat : Nat
  capOld : Nat
  /-- Microseconds not yet counted in KILN_RES, by level, and in PWR_RES, by 4 + state. -/
  rem : Tbl Nat
  /-- Sensors at or above SHUTDOWN at the last sample (R442). -/
  atTrip : List Nat
  /-- Time at which the thermal shutdown under way began (R442). -/
  trip : Option Nat
  /-- Time from which Tmax has stayed below RESTART.TEMP after a shutdown (R443). -/
  belowFrom : Option Nat
  /-- A start after a thermal shutdown raises KILN_RESTART at S12. -/
  restart : Bool
  /-- The highest Tmax since KILN_TPEAK was last read. -/
  peak : Option Int
  deriving DecidableEq, Repr

/-! ## The security island, firmware and the sideband (12) -/

/-- An SPDM connection: how far negotiation is (1 version, 2 capabilities, 3 algorithms), a KEY_EXCHANGE that waits for
its FINISH (mutual authentication and the requester's key digest), the sessions open, the SLH-DSA signature held
(R347), the rest of a large response that is given out in chunks with the number of the next one, and the chunks of a
large request received. -/
structure SpdmSt where
  neg : Nat
  exch : Option (Bool × Nat)
  sessions : Nat
  sig : Option (BitVec 136704)
  large : Option (Nat × List Byte)
  chunks : Nat
  deriving DecidableEq, Repr

/-- A firmware slot: its image, and whether the boot descriptor marks it failed (R339). -/
structure FwSlot where
  img : Option ImageInfo
  failed : Bool
  deriving DecidableEq, Repr

/-- A Firmware Commit in hand: the command that waits for it or the sideband message's tag, action, slot, image. -/
structure FwCommit where
  cmd : Option Nat
  tag : Nat
  action : Nat
  fs : Nat
  img : ImageInfo
  deriving DecidableEq, Repr

/-- A hitless activation (R357): its commit, 0 loading, 1 notices sent, 2 paused, 3 switched, 4 pause over,
5 reverting; the beat H; and the planners that had failed by then. -/
structure FwAct where
  commit : FwCommit
  phase : Nat
  h : Nat
  failed : Nat
  deriving DecidableEq, Repr

/-- The security island and the firmware. -/
structure SecSt where
  spdm : Tbl SpdmSt
  /-- Pieces of the staging buffer (offset, length, content) and the function that it is assigned to (R354). -/
  staging : List (Nat × Nat × Nat)
  stagingFn : Option Nat
  /-- Slots 1 and 2, and the recovery image as 3; the slot that the next controller reset of FN 0 activates, and the slot
  that the next start runs (R355, R356). -/
  slots : Tbl FwSlot
  onReset : Option Nat
  nextStart : Option Nat
  /-- The active slot of the boot descriptor (R339). -/
  active : Nat
  /-- The image that runs. -/
  running : ImageInfo
  commit : Option FwCommit
  act : Option FwAct
  /-- Debug scopes open (R360), and the mailbox nonce (R368). -/
  scopes : Nat
  nonce : Option Nat
  /-- The mailbox buffer by byte, and the operation in hand that waits for erases: operation and scopes. -/
  buf : Tbl Nat
  mbxOp : Option (Nat × Nat)
  /-- Rirus messages that wait for the end of an activation pause: tag and whether it is HEALTH (R366). -/
  waiting : List (Nat × Bool)
  /-- The MCTP endpoint identifier and the I3C dynamic address; 0 for none. -/
  eid : Nat
  dynAddr : Nat
  deriving DecidableEq, Repr

/-! ## The Hod (13) -/

/-- A Hod channel: the descriptor in hand and its address, the address that HOD_CH_CUR shows, the bursts in flight (offset and length), bytes issued, tries of
the failing access, the code the descriptor is to end with, and whether the write-back is under way. -/
structure HodCh where
  desc : HodDesc
  cur : Nat
  shown : Nat
  inflight : List (Nat × Nat)
  issued : Nat
  tries : Nat
  retries : Nat
  code : Nat
  failed : Bool
  writing : Bool
  deriving DecidableEq, Repr

/-- The Hod: its channels, the arbiter's pointer, bursts used by plan entry in this beat, bytes not yet counted in KiB, and
that a soft reset waits for the channels (R495). -/
structure HodSt where
  chs : Tbl HodCh
  ptr : Nat
  used : Tbl Nat
  rem : Nat
  resetting : Bool
  deriving DecidableEq, Repr

/-! ## Memory protection (14) -/

/-- An entry of a memory's log (R395): kind 0 CE, 1 UE, 2 POISON_WRITE; source 0 READ, 1 MERGE, 2 SCRUB. -/
structure MemLog where
  no : Nat
  word : Nat
  syndrome : Nat
  kind : Nat
  source : Nat
  beat : Nat
  deriving DecidableEq, Repr

/-- A protected memory: its log, the words that are poisoned, the remapped words (macro group and word, in the order of
the entries), errors found (word, syndrome, times; R398), and words owed to Pointing (R397). -/
structure MemSt where
  log : List MemLog
  poisoned : List Nat
  remaps : List (Nat × Nat)
  found : List (Nat × Nat × Nat)
  owed : Nat
  /-- Level of memory 0's leaky bucket, which has no register. -/
  level : Nat
  deriving DecidableEq, Repr

/-- The memories by index, map-memory channel c as 16 + c; what R403 to R407 keep of the channels: uncorrectable words in
this frame, write CRC failures and failed retrains in a row, the lost channel and the lines under restoration, the
checkpoint segments still to be laid after lost journal records, and the restoration's start. -/
structure MemsSt where
  mems : Tbl MemSt
  nextNo : Nat
  ueFrame : Tbl Nat
  crcTries : Tbl Nat
  retrains : Tbl Nat
  absentCh : Option Nat
  absentLines : List Nat
  owedSegs : List Nat
  deriving DecidableEq, Repr

/-! ## Start-up, modes and power states (15, 18) -/

/-- A start record of log 0xC5 (R489). -/
structure StartRec where
  no : Nat
  beat : Nat
  kind : Nat
  mode : Nat
  last : Nat
  outcome : List Nat
  ms : Nat
  deriving DecidableEq, Repr

/-- A Management Read or Write, or its Rirus message, that waits for a sleeping domain at its next word (R423, R500): the
command or the message's tag, the word's address, the words still to read or to write, and the data read so far. -/
structure MgmtWait where
  cmd : Option Nat
  tag : Nat
  addr : Nat
  left : Nat
  write : Bool
  words : List W32
  data : List Byte
  deriving DecidableEq, Repr

/-- A start under way (R475): what the world answers, its trigger, whether it is cold, its next step, and the source whose
image header S06 fetched, coded as SEC_STATUS.BOOT_SRC. -/
structure StartRun where
  inp : StartInput
  trigger : Nat
  cold : Bool
  step : Nat
  src : Option Nat
  deriving DecidableEq, Repr

/-- Start-up and power. -/
structure TopSt where
  /-- The part is in Off, or halted in a start (R419, R475). -/
  off : Bool
  halted : Bool
  starts : List StartRec
  /-- BEAT_COUNT of the ledger, in the sticky store and in the system area (R481). -/
  ledgerSticky : Nat
  ledgerNv : Nat
  /-- A valid ledger is in the system area: not a first start (R486). -/
  nvValid : Bool
  /-- A start is under way (R472). -/
  starting : Bool
  start : Option StartRun
  /-- TOP_START_COUNT in the system area (R491). -/
  startCount : Nat
  /-- Frame in which a grout ended or a start was ended, for RESTART_FRAMES (R289, R472). -/
  sealFrame : Option Nat
  /-- Power state to be entered, and whether it was requested; the frame from which IO_WAKE waits (R418, R24). -/
  target : Option Nat
  requested : Bool
  waitFrom : Nat
  /-- Frame in which PS4's completion was posted (R419). -/
  offFrom : Option Nat
  /-- FAULT_N asserted; THERM_TRIP_N asserted; WAKE_IN level; PERST of each port asserted. -/
  faultN : Bool
  thermTrip : Bool
  wakeIn : Bool
  perst : List Nat
  /-- Accesses held while a domain wakes: path, address, value and bytes of a write (R423). -/
  stalled : List (Path × Nat × Option (W32 × Nat))
  mgmt : List MgmtWait
  /-- Domains that a wake is under way for, and domains an access has woken while the state leaves them gated
  (R423). -/
  waking : List Nat
  woken : List Nat
  /-- Level of the request saved in the system area (R488). -/
  compatNv : Nat
  /-- Domain whose next wake takes the longer path (R428). -/
  altNext : List Nat
  /-- The drive as a whole is waking to Run; and domains that drain for a vote (R422, R425). -/
  wakeRun : Bool
  drains : List Nat
  /-- A start that is due without a further trigger, by its code (R289, R443, R471). -/
  startDue : Option Nat
  /-- The next start comes up in RECOVERY (R403). -/
  recNext : Bool
  /-- Sanitize status as NVMe codes it: 0 never, 1 completed, 2 in progress, 3 failed (R484). -/
  sanStat : Nat
  /-- Size of the STANDALONE namespace in blocks, fixed at first start (R252). -/
  standalone : Nat
  deriving DecidableEq, Repr

/-! ## The whole -/

/-- The machine. -/
structure State where
  /-- Commands that wait, the oldest first. -/
  pending : List Instr
  /-- The management registers by window byte address; an unlisted register holds its reset value. -/
  regs : Tbl W32
  beat : BeatSt
  recd : RecSt
  tiles : TileSt
  host : HostSt
  map : MapSt
  trowel : TrowelSt
  grout : GroutSt
  mac : MacSt
  sort : SortSt
  kiln : KilnSt
  sec : SecSt
  hod : HodSt
  mems : MemsSt
  top : TopSt
  /-- Pages whose ERR_INFO holds an error not yet read, by base address (R497). -/
  errHeld : List Nat
  /-- Ports with an MSI-X message due, and the beat of each port's last message (R450). -/
  msixDue : List Nat
  msixBeat : Tbl Nat
  /-- What has left the part, newest first (the model's own field). -/
  out : List Out
  /-- The model's own counter: each free value is an opaque constant of Config applied to it (log 3). -/
  freeCtr : Nat
  deriving DecidableEq, Repr

/-! ## After reset -/

def BeatSt.reset : BeatSt :=
  { count := 0, offset := 0, bgOnly := false, wins := List.replicate 4 (0, 0, 0), inTol := 0, ptmFails := 0
    syncMisses := 0, firstMeas := true, faulted := false, residual := 0, syncOut := false, hostTime := none
    plans := [], holdRun := [], failed := [], frameRaised := [], once := [] }

def RecSt.reset : RecSt :=
  { intake := [], ring := [], fifo := [], mirror := [], mirrored := [], sticky := [], failCell := none, snap := []
    dropSum := List.replicate 6 0, dropFrz := List.replicate 6 0, frozenAt := 0, held := [] }

def TileSt.reset : TileSt :=
  { stage := [], charge := [], credit := [], demand := [], rem := [], sharesDue := [], waiting := [], owner := [], nv := [], nvStage := [] }

def HostSt.reset : HostSt :=
  { fns := [], sqs := [], cqs := [], cmds := [], nextCmd := 0, ns := [], dweLog := [], dweSeq := 0, lostLog := []
    lostSeq := 0, fetchPtr := [], urgent := [], rr := [], fdpTiles := [], fdpEvents := [], fdpLog := [], changed := []
    zoneActs := [], timestamp := none, recov := [], trained := [], paused := [] }

def MapSt.reset : MapSt :=
  { loaded := false, slots := [], ctxs := [], courses := [], bricks := [], luns := [], flash := [], rds := [], nextRd := 0, zones := []
    walls := [], pallets := [], lines := [], jseq := 0, jdur := 0, tail := [], flushes := [], journal := [], wseq := 0
    wseqRes := 0, ckpt := [], ckptNow := none, base := [], baseCourses := [], sets := [], rem := [] }

def TrowelSt.reset : TrowelSt :=
  { refresh := [], rebuild := [], rebuildNow := none, salvage := [], erase := [], gc := [], gcUrgent := [], userCourses := 0, rebuilt := 0
    hostMus := [], trowelMus := [], dieDefer := [], timeouts := [], resets := [], xfers := [], xferLuns := []
    retrains := [], sample := 0, evacLost := [] }

def GroutSt.reset : GroutSt :=
  { beat := none, frozen := false, img := none, lastId := 0, okFrom := 0
    drain := [], used := [], restored := [], fence := 0 }

def MacSt.reset : MacSt :=
  { keys := [], old := [], kcv := [], gens := [], bound := [], curDue := [], eraseDue := [], sweeping := [], trees := [], saved := [], behind := []
    recs := [], closing := [], epochs := [], dropped := 0, drbg := 0, resume := false }

def SortSt.reset : SortSt :=
  { arr := [], shadow := [], stage := [], op := none, save := none, changed := false, saved := [], savedCfg := 0x10208
    walking := false, searches := 0, defaults := 0 }

def KilnSt.reset : KilnSt :=
  { clock := 0, hist := [], hotFrom := 0, coolFrom := 0, evalAt := 0, due := none, capBeat := 0, capOld := 0, rem := []
    atTrip := [], trip := none, belowFrom := none, restart := false, peak := none }

/-- The image that a part holds in slot 1, and its recovery image, when it is new (log 23). -/
def image0 : ImageInfo :=
  { failedCondition := 0, svn := 0, root := 0, compatMin := 0, compatMax := 0xFFFF, stateVersion := 0, stateMin := 0
    sameSecurity := true, rev := 0, digest := 0 }

def SecSt.reset : SecSt :=
  { spdm := [], staging := [], stagingFn := none, slots := [(1, { img := some image0, failed := false })
      , (3, { img := some image0, failed := false })], onReset := none, nextStart := none, active := 1, running := image0
    commit := none, act := none, scopes := 0, nonce := none, buf := [], mbxOp := none, waiting := [], eid := 0, dynAddr := 0 }

def HodSt.reset : HodSt := { chs := [], ptr := 0, used := [], rem := 0, resetting := false }

def MemsSt.reset : MemsSt :=
  { mems := [], nextNo := 0, ueFrame := [], crcTries := [], retrains := [], absentCh := none, absentLines := [], owedSegs := [] }

def TopSt.reset : TopSt :=
  { off := false, halted := false, starts := [], ledgerSticky := 0, ledgerNv := 0, nvValid := false
    starting := false, start := none, startCount := 0, sealFrame := none, target := none, requested := false, waitFrom := 0, offFrom := none
    faultN := false, thermTrip := false, wakeIn := false, perst := [0, 1], stalled := [], mgmt := [], waking := [], woken := []
    compatNv := 0, altNext := [], wakeRun := false, drains := [], startDue := none, recNext := false, sanStat := 0, standalone := 0 }

/-- The machine right after a power-on reset, before step S01: every register at its reset value. -/
def State.reset : State :=
  { pending := [], regs := [], beat := .reset, recd := .reset, tiles := .reset, host := .reset
    map := .reset, trowel := .reset, grout := .reset, mac := .reset, sort := .reset, kiln := .reset
    sec := .reset, hod := .reset, mems := .reset, top := .reset, errHeld := [], msixDue := [], msixBeat := [], out := [], freeCtr := 0 }

end Sys2Proof.Machine
end

