-- ==== Sys2Proof/Machine/Ops.lean ====
section
/-!
DEFINITION. Machine/Ops.lean: the named operations the meanings share: registers and their fields, time, free values,
and events (R446 to R455, R496, R497).
-/

namespace Sys2Proof.Machine

/-- The outcome of every meaning. -/
abbrev Res := Host.Outcome State Fault Refusal

/-! ## Registers -/

/-- The word held at a window address. -/
def rd (s : State) (a : Nat) : W32 := tget resetValue s.regs a

/-- The word held at a window address, as a number. -/
def getR (s : State) (a : Nat) : Nat := (rd s a).toNat

/-- A register takes a value. -/
def setR (a v : Nat) (s : State) : State :=
  { s with regs := tset resetValue a (BitVec.ofNat 32 v) s.regs }

/-- The value of a field. -/
def getF (s : State) (f : Fld) : Nat := bitsOf (getR s f.addr) f.lo f.w

/-- A field takes a value; the register's other bits stay. -/
def setF (f : Fld) (v : Nat) (s : State) : State :=
  setR f.addr (putBits (getR s f.addr) f.lo f.w v) s

/-- A one-bit field is set. -/
def isSet (s : State) (f : Fld) : Bool := decide (getF s f ≠ 0)

/-- A counter field rises by `n` and stays at its largest value (the counters "saturate"). -/
def addF (f : Fld) (n : Nat) (s : State) : State :=
  setF f (min (2 ^ f.w - 1) (getF s f + n)) s

/-- A field that keeps the largest value it has seen. -/
def maxF (f : Fld) (v : Nat) (s : State) : State :=
  setF f (max (getF s f) (min v (2 ^ f.w - 1))) s

/-- Bit `i` of a register as a field. -/
def bitF (a i : Nat) : Fld := ⟨a, i, 1⟩

/-- A field read with 0 taken as 1. -/
def getNZ (s : State) (f : Fld) : Nat := if getF s f = 0 then 1 else getF s f

/-! ## Lists as sets -/

/-- Put a number into a list without repeats. -/
def insertNat (n : Nat) (l : List Nat) : List Nat := if l.contains n then l else l ++ [n]

/-- Take a number out of a list. -/
def removeNat (n : Nat) (l : List Nat) : List Nat := l.filter (fun m => m != n)

/-! ## Free values and time -/

/-- The model's counter advances, so that the next free value is another one (log 3). -/
def tick (s : State) : State := { s with freeCtr := s.freeCtr + 1 }

/-- BEAT_COUNT as a number (R31). -/
def beatNow (s : State) : Nat := s.beat.count.toNat

/-- The present frame and epoch (R32). -/
def frameNow (s : State) : Nat := beatNow s / 64
def epochNow (s : State) : Nat := beatNow s / 65536

/-- The present seal epoch, BEAT_COUNT[63:20] (R32). -/
def sealEpochNow (s : State) : Nat := beatNow s / 1048576

/-- The operating mode as TOP_MODE.MODE encodes it (R482). -/
def modeNow (s : State) : Nat := getF s F.TOP_MODE_MODE

def modeRecovery : Nat := 0
def modeStandalone : Nat := 1
def modeZoned : Nat := 2
def modeDegraded : Nat := 3
def modeEvacuate : Nat := 4
def modeSanitize : Nat := 5

/-- The part is in Sleep or Deep sleep (R416). -/
def asleep (s : State) : Bool := decide (2 ≤ getF s F.PWR_STATE_CUR)

/-- BEAT_COUNT is valid (R31). -/
def countValid (s : State) : Bool := isSet s F.BEAT_STATUS_COUNT_VALID

/-- The two-port layouts; 0b00 and 0b11 are the x16 layout (R91). -/
def twoPort (s : State) : Bool :=
  decide (getF s F.TOP_STRAP_PORT = 1) || decide (getF s F.TOP_STRAP_PORT = 2)

/-- The port of a function (R70). -/
def portOf (s : State) (fn : Nat) : Nat := if twoPort s && decide (32 ≤ fn) then 1 else 0

/-- The PF0 functions (R95). -/
def isPF0 (s : State) (fn : Nat) : Bool := decide (fn = 0) || (twoPort s && decide (fn = 32))

/-- Something has left the part. -/
def emit (o : Out) (s : State) : State := { s with out := o :: s.out }

/-! ## Event pages -/

/-- Base addresses of the blocks' pages (R492). -/
def baseTop : Nat := 0
def basePwr : Nat := 0x1000
def baseKiln : Nat := 0x2000
def baseBeat : Nat := 0x3000
def baseEvt : Nat := 0x4000
def baseRec : Nat := 0x8000
def baseMemchk : Nat := 0x9000
def baseMapmem (c : Nat) : Nat := 0xA000 + 0x1000 * c
def baseSort : Nat := 0xE000
def baseFab : Nat := 0xF000
def baseHod : Nat := 0x10000
def baseMac : Nat := 0x12000
def baseSec : Nat := 0x13000
def baseHost (p : Nat) : Nat := 0x14000 + 0x1000 * p
def baseCourse : Nat := 0x16000
def baseTrowel : Nat := 0x17000
def baseLdpc : Nat := 0x18000
def baseYard : Nat := 0x19000
def baseFch (n : Nat) : Nat := 0x20000 + 0x1000 * n
def baseTile (t : Nat) : Nat := 0x40000 + 0x1000 * t

/-- The source that bit `i` of a page belongs to (R447, R86, R215, R410, R411, R386, R129). -/
def srcOf (base i : Nat) : Nat :=
  match blockOf base with
  | none => 0
  | some (ty, inst, _) =>
    match ty with
    | 1 => i | 2 => 16 + i | 3 => 32 + i | 4 => 40 + i | 5 => 224 + i | 6 => 216 + i | 7 => 48 + i
    | 8 => 64 + 2 * inst + i | 9 => 72 + i | 10 => 232 + i | 11 => 80 + i | 12 => 112 + i | 13 => 120 + i
    | 14 => 136 + 8 * inst + i | 15 => 184 + i | 16 => 190 + i | 17 => 196 + i | 19 => 152 + inst
    | 20 => 200 + inst / 4 | _ => 0

/-- The pages whose bits follow cause registers: HOD, MEMCHK and MAPMEM (R496). -/
def causePage (base : Nat) : Bool :=
  match blockOf base with
  | some (7, _, _) => true
  | some (8, _, _) => true
  | some (11, _, _) => true
  | _ => false

/-- A cause register holds a cause that its enable register enables. -/
def causeOn (s : State) (cause en : Nat) : Bool := decide (Nat.land (getR s cause) (getR s en) ≠ 0)

/-- EVT_RAW of a page as it reads (R496).  On the cause pages a bit with no readable cause register (memory 0's bit
and a lost map-memory channel's) is held in EVT_RAW itself (R410, R411). -/
def rawWord (s : State) (base : Nat) : Nat :=
  match blockOf base with
  | some (7, _, _) =>
    (List.range 12).foldl
      (fun w m => if causeOn s (Reg.MEMCHK_CAUSE (m + 1)) (Reg.MEMCHK_CAUSE_EN (m + 1)) then w + 2 ^ (m + 1) else w)
      (getF s (bitF (Reg.EVT_RAW base) 0))
  | some (8, c, _) =>
    (if causeOn s (Reg.MAPMEM_CAUSE c) (Reg.MAPMEM_CAUSE_EN c) then 1 else 0)
      + 2 * getF s (bitF (Reg.EVT_RAW base) 1)
  | some (11, _, _) =>
    (List.range 32).foldl
      (fun w k => if causeOn s (Reg.HOD_CH_CAUSE k) (Reg.HOD_CH_CAUSE_EN k) then w + 2 ^ k else w) 0
  | _ => getR s (Reg.EVT_RAW base)

/-- EVT_EN of a page; REC's bits of sources 221 and 222 read 1 (R449). -/
def enWord (s : State) (base : Nat) : Nat :=
  if base = baseRec then Nat.lor (getR s (Reg.EVT_EN base)) 0x60 else getR s (Reg.EVT_EN base)

/-- EVT_PEND of a page as it reads (R496). -/
def pendWord (s : State) (base : Nat) : Nat :=
  if causePage base then Nat.land (rawWord s base) (enWord s base) else getR s (Reg.EVT_PEND base)

/-- Bit `i` of a page is set and enabled. -/
def bitOn (s : State) (base i : Nat) : Bool :=
  decide (bitsOf (pendWord s base) i 1 = 1) && decide (bitsOf (enWord s base) i 1 = 1)

/-- A source is asserted while any bit that belongs to it is set and enabled (R448). -/
def srcOn (s : State) (src : Nat) : Bool :=
  if src < 16 then bitOn s baseTop src
  else if src < 32 then bitOn s basePwr (src - 16)
  else if src < 40 then bitOn s baseKiln (src - 32)
  else if src < 48 then bitOn s baseBeat (src - 40)
  else if src < 64 then bitOn s baseMemchk (src - 48)
  else if src < 72 then bitOn s (baseMapmem ((src - 64) / 2)) ((src - 64) % 2)
  else if src < 80 then bitOn s baseSort (src - 72)
  else if src < 112 then bitOn s baseHod (src - 80)
  else if src < 120 then bitOn s baseMac (src - 112)
  else if src < 136 then bitOn s baseSec (src - 120)
  else if src < 152 then bitOn s (baseHost ((src - 136) / 8)) ((src - 136) % 8)
  else if src < 184 then (List.range 8).any (fun i => bitOn s (baseFch (src - 152)) i)
  else if src < 190 then bitOn s baseCourse (src - 184)
  else if src < 196 then bitOn s baseTrowel (src - 190)
  else if src < 200 then bitOn s baseLdpc (src - 196)
  else if src < 216 then
    (List.range 4).any (fun j => (List.range 6).any (fun i => bitOn s (baseTile (4 * (src - 200) + j)) i))
  else if src < 224 then bitOn s baseRec (src - 216)
  else if src < 232 then bitOn s baseEvt (src - 224)
  else if src < 248 then bitOn s baseFab (src - 232)
  else false

/-- The severity of a source in force: for 248 to 255 it is EVT_ROUTE.SEV, 5 and above taken as 4 (R446, R453). -/
def sevOf (s : State) (src : Nat) : Nat :=
  if 248 ≤ src then min 4 (getF s (F.EVT_ROUTE_SEV src)) else severityOf src

/-- ALERT_N is driven low (R452). -/
def alertLow (s : State) : Bool :=
  isSet s F.EVT_ALERT_ENABLE &&
    (List.range 256).any (fun src => isSet s (F.EVT_ROUTE_ALERT src) && srcOn s src)

/-! ## ERR_INFO -/

/-- An error is recorded in a page's ERR_INFO: the first since the last read is held, a later one sets MORE (R497). -/
def noteErr (base code detail addr : Nat) (s : State) : State :=
  if s.errHeld.contains base then setF (F.ERR_INFO_MORE base) 1 s
  else
    setR (Reg.ERR_ADDR_HI base) (addr / 2 ^ 32) (setR (Reg.ERR_ADDR_LO base) addr
      (setF (F.ERR_INFO_DETAIL base) detail (setF (F.ERR_INFO_CODE base) code
        { s with errHeld := base :: s.errHeld })))

/-! ## Occurrences -/

/-- The EVENT body after CYCLE and COUNT: EVT_RAW, ERR_INFO and ERR_ADDR of the page (R457). -/
def eventRest (s : State) (base : Nat) : List Byte :=
  leBytes 4 (rawWord s base) ++ leBytes 4 (getR s (Reg.ERR_INFO base)) ++ leBytes 4 0
    ++ leBytes 4 (getR s (Reg.ERR_ADDR_LO base)) ++ leBytes 4 (getR s (Reg.ERR_ADDR_HI base))

/-- A record request enters the intake queue: one entry per source, which counts later requests; a TIME_ANCHOR keeps
the body of its latest (R455).  In Sleep and Deep sleep it is held instead (R454).  Before the count is valid the
entry carries CYCLE 0x7FFF (R481). -/
def request (src typ : Nat) (forced counted : Bool) (rest : List Byte) (s : State) : State :=
  if asleep s then { s with recd := { s.recd with held := s.recd.held ++ [(src, typ, forced, rest)] } }
  else if s.recd.intake.any (fun e => e.src == src) then
    { s with recd := { s.recd with intake := s.recd.intake.map (fun e =>
        if e.src = src then { e with count := e.count + 1, rest := if typ = 1 then rest else e.rest } else e) } }
  else
    let e : IntakeEnt :=
      { src := src, typ := typ, sev := sevOf s src, forced := forced, count := 1, beat := s.beat.count
        cycle := if countValid s then (Config.coreCycle s.freeCtr).toNat else 0x7FFF
        counted := counted, rest := rest }
    maxF F.EVT_INTAKE_PEAK (s.recd.intake.length + 1)
      (tick { s with recd := { s.recd with intake := s.recd.intake ++ [e] } })

/-- The sources whose records the recorder writes of its own accord, and which an unforced occurrence therefore does
not record (R449). -/
def ownRecord (src : Nat) : Bool :=
  decide (216 ≤ src) && decide (src ≤ 222) && decide (src ≠ 220)

/-- A source that has just become asserted acts on the MSI-X target; CORE and ALERT are levels (R450 to R452). -/
def onAssert (src : Nat) (s : State) : State :=
  if isSet s (F.EVT_ROUTE_MSIX src) then
    let a := if isSet s F.EVT_MSIX_A_ENABLE then insertNat 0 s.msixDue else s.msixDue
    { s with msixDue := if isSet s F.EVT_MSIX_B_ENABLE && twoPort s then insertNat 1 a else a }
  else s

/-- The occurrence of a source (R448): counted, recorded where routed, and asserting it if it was not asserted. -/
def occur (src typ : Nat) (forced was : Bool) (rest : List Byte) (s : State) : State :=
  let s1 := addF (F.EVT_COUNT_COUNT src) 1 s
  let s2 := if isSet s1 (F.EVT_ROUTE_REC src) && (forced || !ownRecord src)
    then request src (if forced then 0 else typ) forced true rest s1 else s1
  if was then s2 else onAssert src s2

/-- One happening of cause `i` of an ordinary page (R496, R448): EVT_RAW is set; where EVT_EN is set, EVT_PEND too,
as one occurrence.  `typ` and `extra` are the record's type and what its body holds after the EVENT body. -/
def happenAs (base i typ : Nat) (extra : List Byte) (forced : Bool) (s : State) : State :=
  let s1 := setF (bitF (Reg.EVT_RAW base) i) 1 s
  if bitsOf (enWord s1 base) i 1 = 1 then
    let was := srcOn s1 (srcOf base i)
    let s2 := setF (bitF (Reg.EVT_PEND base) i) 1 s1
    occur (srcOf base i) typ forced was (eventRest s2 base ++ extra) s2
  else s1

/-- One happening of cause `i` of an ordinary page, recorded as an EVENT. -/
def happen (base i : Nat) (s : State) : State := happenAs base i 0 [] false s

/-- A happening of a tile's page, its tile number in ERR_INFO (R86, R497). -/
def happenTile (t i : Nat) (s : State) : State := happen (baseTile t) i (noteErr (baseTile t) 0 t 0 s)

/-- A cause bit of HOD, MEMCHK or MAPMEM is set (R496): where its cause enable and the page's EVT_EN are set, that is
an occurrence of the source that page bit `i` belongs to. -/
def happenCause (base i : Nat) (cause en bit : Nat) (s : State) : State :=
  let was := srcOn s (srcOf base i)
  let s1 := setF (bitF cause bit) 1 s
  if bitsOf (getR s1 en) bit 1 = 1 ∧ bitsOf (enWord s1 base) i 1 = 1 then
    occur (srcOf base i) 0 false was (eventRest s1 base) s1
  else s1

/-- A happening that is raised at most once a frame: `key` names it (R44, R170, R231, R450, R458). -/
def oncePerFrame (key : Nat) (f : State → State) (s : State) : State :=
  if s.beat.frameRaised.contains key then s
  else f { s with beat := { s.beat with frameRaised := key :: s.beat.frameRaised } }

/-- Work that falls once in a beat: `key` names it. -/
def oncePerBeat (key : Nat) (f : State → State) (s : State) : State :=
  if s.beat.once.contains key then s
  else f { s with beat := { s.beat with once := key :: s.beat.once } }

end Sys2Proof.Machine
end

