-- ==== Sys2Proof/Machine/Access.lean ====
section
/-!
DEFINITION. Machine/Access.lean: whether a window access reaches its page (R423, R424, R492, R493, R495).
-/

namespace Sys2Proof.Machine

/-- The base address of a block's first page (R492). -/
def isPage (base : Nat) : Bool :=
  match blockOf base with
  | some (_, _, b) => decide (b = base)
  | none => false

/-- The power domain of a window address (R492). -/
def domainOf (a : Nat) : Nat :=
  if 0x100000 ≤ a ∧ a < 0x140000 then 5
  else match blockOf a with
    | none => if 0x140000 ≤ a ∧ a < 0x141000 then 3 else 0
    | some (ty, inst, _) =>
      match ty with
      | 1 => 0 | 2 => 0 | 9 => 5 | 11 => 6 | 12 => 5 | 13 => 4 | 14 => 1 + inst | 15 => 5 | 17 => 5
      | 18 => 5 | 19 => 5 | _ => 3

/-- The blocks of CORE that keep running in Idle: KILN, BEAT and EVT (R421). -/
def idleBlock (a : Nat) : Bool :=
  match blockOf a with
  | some (ty, _, _) => decide (ty = 3 ∨ ty = 4 ∨ ty = 5)
  | none => false

/-- The domain of a page is ready for an access: on, and neither gated, in retention nor voted off (R421, R423). -/
def domReady (s : State) (a : Nat) : Bool :=
  let d := domainOf a
  if d = 0 then true
  else if s.top.woken.contains d then true
  else if bitsOf (getR s Reg.PWR_DOM_STAT) d 1 = 0 then false
  else match getF s F.PWR_STATE_CUR with
    | 0 => true
    | 1 => decide (d ≠ 3 ∧ d ≠ 5) || idleBlock a
    | _ => decide (d ≤ 2)

/-- A block disabled by fuse or strap, or a channel beyond the width (R424, R493). -/
def blockOff (s : State) (a : Nat) : Bool :=
  match blockOf a with
  | some (14, 1, _) => !twoPort s
  | some (19, n, _) => decide (getF s F.COURSE_CFG_WIDTH ≤ n)
  | _ => false

/-- A block disabled by BLK_CTRL.ENABLE = 0, met at offset 0x030 or above (R424, R495). -/
def pageOff (s : State) (a : Nat) : Bool :=
  match blockOf a with
  | some (11, _, base) => decide (0x30 ≤ a - base) && decide (getF s (F.BLK_CTRL_ENABLE base) = 0)
  | _ => false

/-- What an access meets. -/
inductive Reach where
  | ok | disabled | sleeping
  deriving DecidableEq, Repr

/-- What an access to a window address meets. -/
def reach (s : State) (a : Nat) : Reach :=
  if blockOff s a then .disabled
  else if !domReady s a then .sleeping
  else if pageOff s a then .disabled
  else .ok

/-- An access met a disabled block: TOP's ERR_INFO and TOP_ACCESS_DISABLED (R424, R497). -/
def accessDisabled (a : Nat) (s : State) : State :=
  match blockOf a with
  | some (ty, inst, _) => happen baseTop 5 (noteErr baseTop 0xF1 (ty * 256 + inst) a s)
  | none => s

/-- An access to a domain that is not ready wakes it and stalls (R423); a write carries its word and, by bits, the bytes of it
that it covers. -/
def stallBytes (path : Path) (a : Nat) (w : Option (W32 × Nat)) (s : State) : State :=
  setF F.PWR_STATE_IN_TRANSITION 1
    { s with top := { s.top with
        stalled := s.top.stalled ++ [(path, a, w)]
        waking := insertNat (domainOf a) s.top.waking } }

/-- A read, or a write of a whole word, stalls. -/
def accessStall (path : Path) (a : Nat) (w : Option W32) (s : State) : State := stallBytes path a (w.map (·, 15)) s

/-- A register write takes effect where its page answers; else it is dropped, or stalls while its domain wakes. -/
def guarded (path : Path) (a : Nat) (v : W32) (f : State → State) (s : State) : State :=
  match reach s a with
  | .ok => f s
  | .disabled => accessDisabled a s
  | .sleeping => accessStall path a (some v) s

end Sys2Proof.Machine
end

