-- ==== Sys2Proof/Machine/Recorder.lean ====
section
/-!
DEFINITION. Machine/Recorder.lean: the event recorder and the rows of Events and the Event Recorder (17).
-/

namespace Sys2Proof.Machine

/-! ## Records -/

/-- A record's bytes (R456). -/
def recBytes (r : Rec) : List Byte :=
  leBytes 1 ((16 + r.body.length) / 4)
    ++ leBytes 1 (r.sev + (if r.coalesced then 8 else 0) + (if r.forced then 16 else 0) + (if r.replayed then 32 else 0))
    ++ leBytes 1 r.src ++ leBytes 1 r.typ ++ leBytes 4 r.seq ++ leBytes 8 r.beat.toNat ++ r.body

/-- Add one to the count of severity `v`. -/
def bumpSev (v : Nat) (l : List Nat) : List Nat := l.modify v (· + 1)

/-- Six zero counts. -/
def sixZeros : List Nat := List.replicate 6 0

/-- The counts of a list of six, 4 bytes each (R457). -/
def sixBytes (l : List Nat) : List Byte := l.flatMap (fun n => leBytes 4 (min n 0xFFFFFFFF))

/-- Cells of the ring: 4,096, or the 15 of the sticky store once the recorder memory has failed (R458, R465). -/
def ringCap (s : State) : Nat := if isSet s F.REC_STATUS_MEM_FAILED then 15 else 4096

/-- The records of the ring; where the sticky store is the whole ring it holds the same (R465). -/
def setRing (l : List Rec) (s : State) : State :=
  { s with recd := { s.recd with
      ring := l, sticky := if isSet s F.REC_STATUS_MEM_FAILED then l else s.recd.sticky } }

/-- The recorder is frozen (R461). -/
def frozen (s : State) : Bool := isSet s F.REC_STATUS_FROZEN

/-- A DROP_SUMMARY waits in the holding FIFO (R461). -/
def summaryWaits (s : State) : Bool := s.recd.fifo.any (fun r => decide (r.typ = 3))

/-- A record is dropped: counted, and REC_DROPPED raised at most once a frame, with a DROP_SUMMARY unless one waits
in the FIFO (R458, R461). -/
def dropRec (r : Rec) (s : State) : State :=
  let s1 := addF (F.REC_DROPPED_COUNT r.sev) 1
    { s with recd := { s.recd with
        dropSum := bumpSev r.sev s.recd.dropSum
        dropFrz := if frozen s then bumpSev r.sev s.recd.dropFrz else s.recd.dropFrz } }
  oncePerFrame 1000
    (fun t => happen baseRec 2 (if summaryWaits t then t else request 218 3 false false [] t)) s1

/-- The oldest record of severity `v` or below leaves the list (R458). -/
def evictFirst (v : Nat) : List Rec → Option (Rec × List Rec)
  | [] => none
  | r :: rs => if r.sev ≤ v then some (r, rs) else
    match evictFirst v rs with
    | some (x, xs) => some (x, r :: xs)
    | none => none

/-- A record enters the ring (R458). -/
def storeRec (r : Rec) (s : State) : State :=
  if s.recd.ring.length < ringCap s then setRing (s.recd.ring ++ [r]) s
  else match evictFirst (if r.typ = 3 ∧ r.src = 218 then 7 else r.sev) s.recd.ring with
    | some (x, xs) => addF (F.REC_EVICTED_COUNT x.sev) 1 (setRing (xs ++ [r]) s)
    | none => dropRec r s

/-- The next sequence number is given (R455). -/
def nextSeq (s : State) : Nat × State :=
  (getF s F.REC_NEXT_SEQ_SEQ, setF F.REC_NEXT_SEQ_SEQ (getF s F.REC_NEXT_SEQ_SEQ + 1) s)

/-- Every CRITICAL and FATAL record is also copied into the sticky store, which keeps the latest 15 (R459). -/
def stickyCopy (r : Rec) (s : State) : State :=
  if 4 ≤ r.sev ∧ ¬ isSet s F.REC_STATUS_MEM_FAILED then
    { s with recd := { s.recd with
        sticky := (s.recd.sticky ++ [r]).drop (s.recd.sticky.length + 1 - 15) } }
  else s

/-- A record the recorder writes at once: it takes the next sequence number and enters the ring. -/
def writeNow (src typ : Nat) (body : List Byte) (s : State) : State :=
  let (q, s1) := nextSeq s
  let r : Rec := { sev := sevOf s src, coalesced := false, forced := false, replayed := false, src := src,
                   typ := typ, seq := q, beat := s.beat.count, body := body }
  storeRec r (stickyCopy r s1)

/-- The freeze ends (R461): the FIFO drains into the ring, then the record that ended the freeze, then THAW. -/
def endFreeze (reason : Nat) (last : Option Rec) (s : State) : State :=
  let counts := s.recd.dropFrz
  let s1 := setF F.REC_STATUS_FROZEN 0 { s with recd := { s.recd with fifo := [] } }
  let s2 := s.recd.fifo.foldl (fun t r => storeRec r t) s1
  let s3 := match last with
    | some r => storeRec r s2
    | none => s2
  happen baseRec 1 (writeNow 217 6 (leBytes 1 reason ++ leBytes 3 0 ++ sixBytes counts) s3)

/-- A freeze request (R461, R462): FREEZE is the last record before the freeze.  No effect while frozen. -/
def startFreeze (path : Nat) (s : State) : State :=
  if frozen s then s
  else
    let s1 := writeNow 216 5 (leBytes 1 path ++ leBytes 3 0) s
    happen baseRec 0 (setF F.REC_STATUS_FROZEN 1
      { s1 with recd := { s1.recd with frozenAt := frameNow s, dropFrz := sixZeros } })

/-- A thaw request (R461, R462).  No effect while not frozen. -/
def thaw (reason : Nat) (s : State) : State := if frozen s then endFreeze reason none s else s

/-- A record taken in is stored: in the ring, or while frozen in the holding FIFO (R458, R461). -/
def placeRec (r : Rec) (s : State) : State :=
  if frozen s then
    if 4 ≤ r.sev then endFreeze 1 (some r) s
    else if s.recd.fifo.length < 63 ∨ (r.typ = 3 ∧ s.recd.fifo.length < 64) then
      { s with recd := { s.recd with fifo := s.recd.fifo ++ [r] } }
    else dropRec r s
  else storeRec r s

/-- The record an intake entry becomes (R455, R457). -/
def recOf (e : IntakeEnt) (q : Nat) (drops : List Nat) : Rec :=
  { sev := e.sev, coalesced := decide (1 < e.count), forced := e.forced, replayed := false, src := e.src
    typ := e.typ, seq := q, beat := e.beat
    body := if e.counted then leBytes 2 e.cycle ++ leBytes 2 (min e.count 0xFFFF) ++ e.rest
      else if e.typ = 1 then leBytes 2 e.cycle ++ e.rest
      else if e.typ = 3 then sixBytes drops
      else e.rest }

/-- The oldest entry of the intake is taken in (R455). -/
def takeIn (s : State) : State :=
  match s.recd.intake with
  | [] => s
  | e :: es =>
    let (q, s1) := nextSeq { s with recd := { s.recd with intake := es } }
    let r := recOf e q s.recd.dropSum
    let s2 := if e.typ = 3 ∧ e.src = 218 then { s1 with recd := { s1.recd with dropSum := sixZeros } } else s1
    placeRec r (stickyCopy r s2)

/-! ## The read window (R460) -/

/-- Whole records that fit in `room` bytes. -/
def fitRecs : Nat → List Rec → List Rec
  | _, [] => []
  | room, r :: rs => if 16 + r.body.length ≤ room then r :: fitRecs (room - (16 + r.body.length)) rs else []

/-- Bytes of a list of records. -/
def recsLen (l : List Rec) : Nat := l.foldl (fun n r => n + 16 + r.body.length) 0

/-- A snapshot is taken at the cursor. -/
def snapshot (s : State) : State :=
  let cur := getF s F.REC_CURSOR_SEQ
  let l := (fitRecs 4096 (s.recd.ring.filter (fun r => decide (cur ≤ r.seq)))).take 256
  let first := match l with
    | [] => 0
    | r :: _ => r.seq
  setF F.REC_STATUS_EMPTY (if l = [] then 1 else 0)
    (setF F.REC_STATUS_GAP (if l ≠ [] ∧ first ≠ cur then 1 else 0)
      (setF F.REC_WIN_INFO_COUNT l.length (setF F.REC_WIN_INFO_BYTES (recsLen l)
        (setF F.REC_WIN_FIRST_SEQ first { s with recd := { s.recd with snap := l } }))))

/-- REC_CTRL.NEXT: the cursor moves past the snapshot, then a new snapshot is taken. -/
def recNextDo (s : State) : State :=
  match s.recd.snap.getLast? with
  | none => snapshot s
  | some r => snapshot (setF F.REC_CURSOR_SEQ (r.seq + 1) s)

/-- A write of REC_CURSOR. -/
def recCursorDo (v : Nat) (s : State) : State := snapshot (setR Reg.REC_CURSOR v s)

/-- The bytes the read window shows. -/
def windowBytes (s : State) : List Byte := s.recd.snap.flatMap recBytes

/-- The word of the read window at an offset; bytes beyond the records read 0. -/
def windowWord (s : State) (off : Nat) : W32 :=
  let b := ((windowBytes s).drop off).take 4
  BitVec.ofNat 32 (leNat b)

/-! ## The mirror (R459) -/

/-- The lowest severity mirrored; 6 and 7 are taken as 5. -/
def mirrorSev (s : State) : Nat := min 5 (getF s F.REC_CFG_MIRROR_SEV)

/-- The records a flush point lays in the mirror: severity at or above MIRROR_SEV, or a RECORDER_MEMORY_FAILED
(R465), not mirrored yet. -/
def mirrorDue (s : State) : List Rec :=
  s.recd.ring.filter (fun r =>
    (decide (mirrorSev s ≤ r.sev) || decide (r.typ = 4)) && !s.recd.mirrored.contains r.seq)

/-- The mirror part of a flush point: durable, or failed and laid again at the next one. -/
def mirrorFlush (ok : Bool) (s : State) : State :=
  let l := mirrorDue s
  if l = [] then s
  else if ok then
    let m := s.recd.mirror ++ l
    setF F.REC_MIRROR_SEQ_SEQ ((l.getLast?.map (·.seq)).getD 0)
      { s with recd := { s.recd with
          mirror := m.drop (m.length - 1048576), mirrored := s.recd.mirrored ++ l.map (·.seq) } }
  else happen baseRec 4 s

/-! ## Time anchors (R463) -/

/-- The host-grid beat number h = BEAT_COUNT − BEAT_HOST_OFFSET. -/
def hostGrid (s : State) : W64 := s.beat.count - s.beat.offset

/-- BEAT_ORIGIN in ns. -/
def origin (s : State) : Nat := getR s Reg.BEAT_ORIGIN_LO + 2 ^ 32 * getR s Reg.BEAT_ORIGIN_HI

/-- HOST_TIME of an anchor and whether it is valid: by PTM from the last measurement, by SYNC_IN from the origin, and
free-running from the last Timestamp (R463). -/
def hostTimeNow (s : State) : Nat × Bool :=
  if getF s F.BEAT_CTRL_SRC = 2 then (origin s + 16000 * (hostGrid s).toNat, true)
  else match s.beat.hostTime with
    | some (t, b) => (t + 16000 * (s.beat.count - b).toNat, true)
    | none => (0, false)

/-- A TIME_ANCHOR record and the REC_TIME_ANCHOR event. -/
def anchor (reason : Nat) (s : State) : State :=
  let (t, ok) := hostTimeNow s
  happen baseRec 5 (request 221 1 false false
    (leBytes 1 reason ++ leBytes 1 (getF s F.BEAT_STATUS_LOCK_STATE + (if ok then 8 else 0)) ++ leBytes 8 t
      ++ leBytes 8 s.beat.offset.toNat ++ leBytes 8 (origin s) ++ leBytes 4 (getR s Reg.BEAT_PHASE_ERR)
      ++ leBytes 4 0) s)

/-! ## Failure of the recorder memory (R465) -/

/-- The recorder memory fails at a word: the ring is abandoned for the sticky store. -/
def recorderFailed (word : Nat) (again : Bool) (s : State) : State :=
  if isSet s F.REC_STATUS_MEM_FAILED then s
  else
    let s1 := setF F.REC_STATUS_MEM_FAILED 1
      { s with recd := { s.recd with ring := s.recd.sticky, failCell := some (word, s.beat.count) } }
    happen baseRec 3 (request 219 4 false false
      (leBytes 4 word ++ leBytes 8 s.beat.count.toNat ++ leBytes 4 (if again then 1 else 0)) s1)

/-- On wake, each held occurrence makes its record request, stamped with the beat at which the count stopped and with
CYCLE 0x7FFF (R454). -/
def releaseHeld (s : State) : State :=
  let l := s.recd.held
  l.foldl (fun t (x : Nat × Nat × Bool × List Byte) =>
      let t1 := request x.1 x.2.1 x.2.2.1 (x.2.1 ≠ 1 ∧ x.2.1 ≠ 4 ∧ x.2.1 ≠ 3) x.2.2.2 t
      { t1 with recd := { t1.recd with
          intake := t1.recd.intake.map (fun e => if e.src = x.1 then { e with cycle := 0x7FFF } else e) } })
    { s with recd := { s.recd with held := [] } }

/-! ## The rows -/

/-- Each set bit of `v` below `n`, lowest first. -/
def bitsList (v n : Nat) : List Nat := (List.range n).filter (fun i => decide (bitsOf v i 1 = 1))

/-- The number of event bits of the page at `base`. -/
def pageBits (base : Nat) : Nat :=
  match blockOf base with
  | some (ty, _, _) => evtBits ty
  | none => 0

/-- EVT_FORCE: each bit written as 1 acts as one happening, FORCED in its record; on the cause pages, one FORCED
occurrence that sets nothing (R448). -/
def forceWrite (base : Nat) (v : W32) (s : State) : State :=
  (bitsList v.toNat (pageBits base)).foldl (fun t i =>
    if causePage base then
      if bitsOf (enWord t base) i 1 = 1 then
        occur (srcOf base i) 0 true true (eventRest t base) t
      else t
    else happenAs base i 0 [] true t) s

/-- EVT_EN: a source whose pending bit becomes enabled is asserted without an occurrence (R448, R450). -/
def enWrite (base : Nat) (v : W32) (s : State) : State :=
  let n := pageBits base
  let s1 := setR (Reg.EVT_EN base) (v.toNat % 2 ^ n) s
  (List.range n).foldl (fun t i =>
    if srcOn s1 (srcOf base i) && !srcOn s (srcOf base i) then onAssert (srcOf base i) t else t) s1

/-- EVT_PEND: a 1 clears EVT_PEND and EVT_RAW of its bit; ignored on the cause pages (R496). -/
def pendWrite (base : Nat) (v : W32) (s : State) : State :=
  if causePage base then s
  else
    let m := Nat.xor (v.toNat % 2 ^ 32) 0xFFFFFFFF
    setR (Reg.EVT_RAW base) (Nat.land (getR s (Reg.EVT_RAW base)) m)
      (setR (Reg.EVT_PEND base) (Nat.land (getR s (Reg.EVT_PEND base)) m) s)

/-- EVT_ROUTE_s: RW targets and CORE_SEL, REC fixed at 1 for 221 and 222, SEV writable for 248 to 255 only; a source
that becomes routed while asserted acts as if just asserted (R449, R469). -/
def routeWrite (src : Nat) (v : W32) (s : State) : State :=
  let old := getR s (Reg.EVT_ROUTE src)
  let lo := bitsOf v.toNat 0 8
  let lo' := if src = 221 ∨ src = 222 then putBits lo 3 1 1 else lo
  let sev := if 248 ≤ src then bitsOf v.toNat 8 3 else bitsOf old 8 3
  let s1 := setR (Reg.EVT_ROUTE src) (lo' + 256 * sev) s
  if bitsOf old 0 1 = 0 ∧ srcOn s src then onAssert src s1 else s1

/-- EVT_FW_RAISE: the body buffer is copied into a record request of a source 248 to 255 and a type of 0x80 or above;
any other is ignored (R453, R469). -/
def fwRaise (v : W32) (s : State) : State :=
  let src := bitsOf v.toNat 0 8
  let typ := bitsOf v.toNat 8 8
  let n := min 60 (bitsOf v.toNat 16 6)
  if 248 ≤ src ∧ 128 ≤ typ then
    let body := (List.range n).flatMap (fun i => leBytes 4 (getR s (Reg.EVT_FW_BODY i)))
    let s1 := addF (F.EVT_COUNT_COUNT src) 1 s
    if isSet s1 (F.EVT_ROUTE_REC src) then request src typ false false body s1 else s1
  else s

/-- One MSI-X message of a port for the asserted sources: at most one per port per beat; one that cannot be sent is
counted and raises EVT_MSIX_LOST at most once a frame (R450). -/
def msixSend (p : Nat) (deliverable : Bool) (s : State) : State :=
  if s.msixDue.contains p ∧ tget (fun _ => 0) s.msixBeat p ≠ beatNow s + 1 then
    let s1 := { s with
      msixDue := removeNat p s.msixDue
      msixBeat := tset (fun _ => 0) p (beatNow s + 1) s.msixBeat }
    let vec := getF s (if p = 0 then F.EVT_MSIX_A_VECTOR else F.EVT_MSIX_B_VECTOR)
    if deliverable && isSet s (F.HOST_LINK_STATUS_UP p) then emit (.msix (32 * p) vec) s1
    else oncePerFrame 1001 (happen baseEvt 0) (addF F.EVT_MSIX_LOST_COUNT 1 s1)
  else s

/-- A freeze that has lasted FREEZE_MAX frames ends; 0 is no limit (R461). -/
def freezeExpired (s : State) : Bool :=
  frozen s && decide (getF s F.REC_CFG_FREEZE_MAX ≠ 0) &&
    decide (s.recd.frozenAt + getF s F.REC_CFG_FREEZE_MAX ≤ frameNow s)

def execEvtForceWrite (base : Nat) (v : W32) (s : State) : Res :=
  .next (if isPage base then guarded .onChip (Reg.EVT_FORCE base) v (forceWrite base v) s else s)
def execEvtEnWrite (base : Nat) (v : W32) (s : State) : Res :=
  .next (if isPage base then guarded .onChip (Reg.EVT_EN base) v (enWrite base v) s else s)
def execEvtPendClear (base : Nat) (v : W32) (s : State) : Res :=
  .next (if isPage base then guarded .onChip (Reg.EVT_PEND base) v (pendWrite base v) s else s)
def execEvtRouteWrite (src : Nat) (v : W32) (s : State) : Res :=
  .next (if src < 256 then guarded .onChip (Reg.EVT_ROUTE src) v (routeWrite src v) s else s)
def execEvtMsixSend (p : Nat) (deliverable : Bool) (s : State) : Res := .next (msixSend p deliverable s)
def execEvtFwRaiseWrite (v : W32) (s : State) : Res :=
  .next (guarded .onChip Reg.EVT_FW_RAISE v (fwRaise v) s)

/-- RECORD_INTAKE; before S12 the recorder takes nothing in (R466). -/
def execRecordIntake (s : State) : Res := .next (if modeNow s = 15 then s else takeIn s)
def execRecNext (s : State) : Res := .next (guarded .onChip Reg.REC_CTRL 4 recNextDo s)
def execRecRefill (s : State) : Res := .next (guarded .onChip Reg.REC_CTRL 8 snapshot s)
def execRecCursorWrite (v : W32) (s : State) : Res :=
  .next (guarded .onChip Reg.REC_CURSOR v (recCursorDo v.toNat) s)
def execFreezeTimeout (s : State) : Res := .next (if freezeExpired s then endFreeze 2 none s else s)

/-- A periodic anchor: every ANCHOR_EPOCHS epochs while the lock is LOCKED; 0 disables (R463). -/
def execTimeAnchorPeriodic (s : State) : Res :=
  .next (if getF s F.REC_CFG_ANCHOR_EPOCHS ≠ 0 ∧ getF s F.BEAT_STATUS_LOCK_STATE = 2 ∧
      beatNow s % (65536 * getF s F.REC_CFG_ANCHOR_EPOCHS) = 0 then oncePerBeat 3 (anchor 3) s else s)

end Sys2Proof.Machine
end

