-- ==== Sys2Proof/Machine/Cmds.lean ====
section
/-!
DEFINITION. Machine/Cmds.lean: functions, queues, the command table and asynchronous events: what every command of the
host interface shares (R94 to R108, R125, R126).  Status codes that the spec names by their NVMe names carry the
values of the NVM Express specifications (log 10).
-/

namespace Sys2Proof.Machine

/-! ## Statuses -/

def stOk : Sts := ⟨0, 0, false⟩
def stOpcode : Sts := ⟨0, 0x01, false⟩
def stField : Sts := ⟨0, 0x02, false⟩
def stXfer : Sts := ⟨0, 0x04, false⟩
def stAborted : Sts := ⟨0, 0x07, false⟩
def stNs : Sts := ⟨0, 0x0B, false⟩
def stSequence : Sts := ⟨0, 0x0C, false⟩
def stSanitize : Sts := ⟨0, 0x1D, false⟩
def stWriteProt : Sts := ⟨0, 0x20, false⟩
def stLbaRange : Sts := ⟨0, 0x80, false⟩
def stCqInvalid : Sts := ⟨1, 0x00, false⟩
def stQid : Sts := ⟨1, 0x01, false⟩
def stQsize : Sts := ⟨1, 0x02, false⟩
def stAerLimit : Sts := ⟨1, 0x05, false⟩
def stFwSlot : Sts := ⟨1, 0x06, false⟩
def stFwImage : Sts := ⟨1, 0x07, false⟩
def stVector : Sts := ⟨1, 0x08, false⟩
def stLogPage : Sts := ⟨1, 0x09, false⟩
def stFormat : Sts := ⟨1, 0x0A, false⟩
def stQueueDel : Sts := ⟨1, 0x0C, false⟩
def stFwReset : Sts := ⟨1, 0x11, false⟩
def stFwProhibited : Sts := ⟨1, 0x13, false⟩
def stFwOverlap : Sts := ⟨1, 0x14, false⟩
def stCapacity : Sts := ⟨1, 0x15, false⟩
def stNsUnavailable : Sts := ⟨1, 0x16, false⟩
def stNsAttached : Sts := ⟨1, 0x18, false⟩
def stNsNotAttached : Sts := ⟨1, 0x1A, false⟩
def stZoneBoundary : Sts := ⟨1, 0xB8, false⟩
def stZoneFull : Sts := ⟨1, 0xB9, false⟩
def stZoneReadOnly : Sts := ⟨1, 0xBA, false⟩
def stZoneOffline : Sts := ⟨1, 0xBB, false⟩
def stZoneInvalidWrite : Sts := ⟨1, 0xBC, false⟩
def stTooManyActive : Sts := ⟨1, 0xBD, false⟩
def stTooManyOpen : Sts := ⟨1, 0xBE, false⟩
def stZoneTransition : Sts := ⟨1, 0xBF, false⟩
def stWriteFault : Sts := ⟨2, 0x80, false⟩
def stUnrecovered : Sts := ⟨2, 0x81, true⟩
def stGuard : Sts := ⟨2, 0x82, false⟩
def stAppTag : Sts := ⟨2, 0x83, false⟩
def stRefTag : Sts := ⟨2, 0x84, false⟩
/-- The vendor statuses of R125. -/
def stDeferred : Sts := ⟨7, 0x80, false⟩
def stTileRefused (busy : Bool) : Sts := ⟨7, 0x82, !busy⟩
def stModeRefused : Sts := ⟨7, 0x83, true⟩

/-! ## Tiles and functions -/

/-- Tile states of R64 by code. -/
def tFree : Nat := 0
def tStopped : Nat := 1
def tActive : Nat := 2
def tQuiescing : Nat := 3
def tScrubbing : Nat := 4

def tileState (s : State) (t : Nat) : Nat := getF s (F.TILE_STATE_STATE t)

/-- The tile bound to a function (R70). -/
def tileOfFn (s : State) (fn : Nat) : Option Nat :=
  (List.range 64).find? (fun t =>
    decide (tileState s t ≠ tFree) && decide (tileState s t ≠ tScrubbing) && isSet s (F.TILE_BIND_BOUND t)
      && decide (getF s (F.TILE_BIND_FN t) = fn))

/-- The function a tile is bound to. -/
def fnOfTile (s : State) (t : Nat) : Option Nat :=
  if tileState s t ≠ tFree ∧ tileState s t ≠ tScrubbing ∧ isSet s (F.TILE_BIND_BOUND t) then
    some (getF s (F.TILE_BIND_FN t))
  else none

/-- A function's controller as it stands after reset: disabled, volatile write cache enabled (log 11). -/
def fn0 : Fn :=
  { en := false, rdy := false, shut := false, shutting := false, wce := true, feat := [], ps := 0, psHeld := none
    aers := [], aens := [], masked := [], vf := false, lostC0 := 0, lostC1 := 0, errLog := [] }

def fnD (_ : Nat) : Fn := fn0
def getFn (s : State) (fn : Nat) : Fn := tget fnD s.host.fns fn
def setFn (fn : Nat) (v : Fn) (s : State) : State := { s with host := { s.host with fns := tset fnD fn v s.host.fns } }

/-- A queue is named by function and queue identifier. -/
def qKey (fn qid : Nat) : Nat := fn * 8192 + qid

def sq0 : Sq := { size := 0, prio := 0, cq := 0, tail := 0, head := 0, granted := 0, held := none }
def sqD (_ : Nat) : Sq := sq0
def getSq (s : State) (fn qid : Nat) : Sq := tget sqD s.host.sqs (qKey fn qid)
def setSq (fn qid : Nat) (v : Sq) (s : State) : State :=
  { s with host := { s.host with sqs := tset sqD (qKey fn qid) v s.host.sqs } }

def cq0 : Cq := { size := 0, vector := 0, head := 0, tail := 0, phase := true }
def cqD (_ : Nat) : Cq := cq0
def getCq (s : State) (fn qid : Nat) : Cq := tget cqD s.host.cqs (qKey fn qid)
def setCq (fn qid : Nat) (v : Cq) (s : State) : State :=
  { s with host := { s.host with cqs := tset cqD (qKey fn qid) v s.host.cqs } }

/-! ## The command table -/

def head0 : CmdHead := ⟨0, 0, 0, 0⟩
def hints0 : Hints := ⟨0, 0, 0, false, false⟩
def cmd0 : Cmd :=
  { h := head0, kind := .admin 0, st := .fetched, tile := none, beat := 0, qos := 0, slba := 0, nlb := 0
    hints := hints0, wall := 0, left := [], waits := [], slots := [], arrived := [], ranges := [], nonce := 0, tags := [], status := stOk, failLba := none, dw0 := 0, dw1 := 0, data := []
    due := 0, planned := false, searched := true }
def cmdD (_ : Nat) : Cmd := cmd0
def getCmd (s : State) (i : Nat) : Cmd := tget cmdD s.host.cmds i
def setCmd (i : Nat) (c : Cmd) (s : State) : State :=
  { s with host := { s.host with cmds := tset cmdD i c s.host.cmds } }
def hasCmd (s : State) (i : Nat) : Bool := s.host.cmds.any (fun p => p.1 == i)
def dropCmd (i : Nat) (s : State) : State := { s with host := { s.host with cmds := terase i s.host.cmds } }

/-- Commands in flight of a tile (R105). -/
def inflight (s : State) (t : Nat) : Nat := (s.host.cmds.filter (fun p => p.2.tile == some t)).length

/-- The completion of a command is formed and waits to be posted (R108). -/
def ready (i : Nat) (sts : Sts) (dw0 : Nat) (data : List Byte) (s : State) : State :=
  setCmd i { getCmd s i with st := .ready, status := sts, dw0 := dw0, data := data } s

/-- The command index the table gives next: entries are used in turn over the 2^18 indices (log 12). -/
def allocCmd (c : Cmd) (s : State) : Nat × State :=
  let i := s.host.nextCmd
  (i, setCmd i c { s with host := { s.host with nextCmd := (i + 1) % 262144 } })

/-- The function's controller serves commands: enabled, ready, not shut down, its virtual function enabled, its port
up and not in Recovery, no activation pause, the drive in Run, and no grout (R94, R105, R122, R285, R418, R440). -/
def serving (s : State) (fn : Nat) : Bool :=
  (getFn s fn).en && (getFn s fn).rdy && !(getFn s fn).shut && isSet s (F.HOST_LINK_STATUS_UP (portOf s fn))
    && !isSet s (F.HOST_CPL_STAT_PAUSED (portOf s fn)) && !s.host.recov.contains (portOf s fn)
    && decide (getF s F.PWR_STATE_CUR = 0) && decide (modeNow s ≠ 15) && s.grout.beat.isNone && s.top.sealFrame.isNone

/-- Commands of a function are fetched: its tile, where it has one, is ACTIVE (R64, R71). -/
def fetches (s : State) (fn : Nat) : Bool :=
  match tileOfFn s fn with
  | some t => decide (tileState s t = tActive)
  | none => true

/-- A command is taken from its submission queue: one that the fetch arbiter has granted, or, where none is, the entry
at the head, whose fetch is then part of this step (log 13).  None where the queue holds no command or is blocked. -/
def takeCmd (h : CmdHead) (s : State) : Option State :=
  let q := getSq s h.fn h.qid
  if !serving s h.fn || decide (q.size = 0) || q.held.isSome then none
  else if 0 < q.granted then some (setSq h.fn h.qid { q with granted := q.granted - 1 } s)
  else if q.head ≠ q.tail ∧ fetches s h.fn then
    some (addF (F.HOST_FETCHED_COUNT (portOf s h.fn)) 1
      (setSq h.fn h.qid { q with head := (q.head + 1) % q.size } s))
  else none

/-- The QoS class of a queue's priority; the admin queue counts as Urgent (R107, R170). -/
def queueQos (s : State) (h : CmdHead) : Nat := if h.qid = 0 then 0 else (getSq s h.fn h.qid).prio

/-- A command enters the table. -/
def cmdOf (h : CmdHead) (kind : CmdKind) (s : State) : Cmd :=
  { cmd0 with h := h, kind := kind, tile := tileOfFn s h.fn, beat := beatNow s, qos := queueQos s h }

/-- A command that ends at once. -/
def answer (h : CmdHead) (kind : CmdKind) (sts : Sts) (dw0 : Nat) (data : List Byte) (s : State) : State :=
  (allocCmd { cmdOf h kind s with st := .ready, status := sts, dw0 := dw0, data := data } s).2

/-! ## Search queues (R159, R170) -/

/-- Searches that wait in a port's search queue. -/
def searchDepth (s : State) (p : Nat) : Nat :=
  (s.host.cmds.filter (fun c => !c.2.searched && decide (portOf s c.2.h.fn = p))).length

/-- A command enters its port's search queue; a full one says so once a frame. -/
def queueSearch (i : Nat) (s : State) : State :=
  let s1 := setCmd i { getCmd s i with searched := false } s
  let n := searchDepth s1 (portOf s (getCmd s i).h.fn)
  let s2 := maxF F.SORT_QUEUE_PEAK_DEPTH n s1
  if 512 ≤ n then oncePerFrame 1003 (happen baseSort 5) s2 else s2

/-! ## Which commands the mode admits (R98, R102) -/

/-- What R102 answers an admin command in SANITIZE and RECOVERY; `always` lists whether SANITIZE serves it and whether
RECOVERY serves it; `evac` is false for the three commands that EVACUATE refuses. -/
def adminGate (s : State) (sanOk recOk evac : Bool) : Option Sts :=
  match modeNow s with
  | 5 => if sanOk then none else some stSanitize
  | 0 => if recOk then none else some stSequence
  | 4 => if evac then none else some stSequence
  | _ => none

/-- What R102 answers an I/O command: `reads` is whether it is one that EVACUATE serves. -/
def ioGate (s : State) (reads : Bool) : Option Sts :=
  match modeNow s with
  | 5 => some stSanitize
  | 0 => some stNs
  | 4 => if reads then none else some stWriteProt
  | _ => none

/-- An admin command as fetched: refused by R98 where it is a PF0 command on another function, and by R102; else
served by `f` on the state after its fetch. -/
def adminCmd (h : CmdHead) (op : Nat) (pf0 sanOk recOk evac : Bool) (f : State → State) (s : State) : State :=
  match takeCmd h s with
  | none => s
  | some s1 =>
    if pf0 && !isPF0 s1 h.fn then answer h (.admin op) stOpcode 0 [] s1
    else match adminGate s1 sanOk recOk evac with
      | some st => answer h (.admin op) st 0 [] s1
      | none => f s1

/-! ## Asynchronous events (R126) -/

/-- Asynchronous event of a type, information and log to one function: sent once, through an outstanding request or
when one comes, and not again until it is re-armed. -/
def aen (fn typ info lid : Nat) (s : State) : State :=
  let f := getFn s fn
  if f.masked.contains (typ, info, lid) || f.aens.contains (typ, info, lid) then s
  else match f.aers with
    | [] => setFn fn { f with aens := f.aens ++ [(typ, info, lid)] } s
    | i :: rest =>
      ready i stOk (typ + 256 * info + 65536 * lid) []
        (setFn fn { f with aers := rest, masked := (typ, info, lid) :: f.masked } s)

/-- A log read with RAE cleared re-arms its asynchronous events on the reading function. -/
def rearm (fn lid : Nat) (s : State) : State :=
  let f := getFn s fn
  setFn fn { f with masked := f.masked.filter (fun e => e.2.2 != lid) } s

/-- The drive-wide event of mode, throttle level, hold-up and media (R85, R126): to tile 0's function, and to another
tile's where TILE_EVT_VIS.DRIVE is set. -/
def driveAen (s : State) : State :=
  (List.range 64).foldl (fun t k =>
    match fnOfTile s k with
    | some fn => if k = 0 ∨ isSet s (F.TILE_EVT_VIS_DRIVE k) then aen fn 7 0x82 0xC2 t else t
    | none => t) s

/-- An asynchronous event to a tile's function. -/
def tileAen (t typ info lid : Nat) (s : State) : State :=
  match fnOfTile s t with
  | some fn => aen fn typ info lid s
  | none => s

/-! ## SPDM messages -/

/-- A connection's number in the table: the storage binding of a function, a port's DOE mailbox, MCTP (R346). -/
def connKey (c : Conn) : Nat :=
  match c with
  | .storage fn => fn
  | .doe p => 64 + p
  | .mctp => 66

def spdm0 : SpdmSt := { neg := 0, exch := none, sessions := 0, sig := none, large := none, chunks := 0 }
def spdmD (_ : Nat) : SpdmSt := spdm0
def getConn (s : State) (c : Conn) : SpdmSt := tget spdmD s.sec.spdm (connKey c)
def setConn (c : Conn) (v : SpdmSt) (s : State) : State :=
  { s with sec := { s.sec with spdm := tset spdmD (connKey c) v s.sec.spdm } }

/-- Message codes of DSP0274 (log 28). -/
def spdmVendor : Nat := 0x7E
def spdmError : Nat := 0x7F
def errInvalid : Nat := 0x01
def errSession : Nat := 0x02
def errUnexpected : Nat := 0x04
def errUnspecified : Nat := 0x05
def errLimit : Nat := 0x0A

def errLarge : Nat := 0x0F
def spdmSay (c : Conn) (code : Nat) (data : List Byte) (s : State) : State := emit (.spdm c code data) s
def spdmErr (c : Conn) (e : Nat) (s : State) : State := spdmSay c spdmError (leBytes 1 e) s

/-- Any request but SLH_SIGNATURE_GET discards the signature held, and what is left of a large response (R347). -/
def dropSig (c : Conn) (s : State) : State := setConn c { getConn s c with sig := none, large := none } s
/-- The sessions of a connection end (R353). -/
def endSession (c : Conn) (s : State) : State := setConn c { getConn s c with sessions := 0, exch := none } s

/-! ## FDP events (R153) -/

/-- Events of log 0x23 (R151 to R153), where enabled: kind, handle, blocks. -/
def fdpNote (t kind handle n : Nat) (s : State) : State :=
  if bitsOf (tget (fun _ => 0) s.host.fdpEvents t) kind 1 = 1 then
    { s with host := { s.host with fdpLog := s.host.fdpLog ++ [(t, kind, handle, n)] } }
  else s
def fdpUnwritten : Nat := 0
def fdpInvalid : Nat := 3
def fdpReset : Nat := 2
def fdpRealloc : Nat := 0x80

/-! ## Namespaces -/

def ns0 : Ns :=
  { tile := 0, zoned := false, nsze := 0, lbaf := 0, handles := [], attached := false, base := 0, reserved := 0, dwe := false }
def nsD (_ : Nat) : Ns := ns0
/-- A namespace; one with size 0 does not exist. -/
def getNs (s : State) (n : Nat) : Ns := tget nsD s.host.ns n
def setNs (n : Nat) (v : Ns) (s : State) : State := { s with host := { s.host with ns := tset nsD n v s.host.ns } }
def nsExists (s : State) (n : Nat) : Bool := decide ((getNs s n).nsze ≠ 0)

/-- The namespace of a command belongs to the tile of its function and is attached (step 1 of a write or a read). -/
def nsOk (s : State) (h : CmdHead) : Bool :=
  match tileOfFn s h.fn with
  | some t => nsExists s h.nsid && decide ((getNs s h.nsid).tile = t) && (getNs s h.nsid).attached
  | none => false

/-- Some namespace of the port's functions has its deferred-error flag set (R128). -/
def dwePending (s : State) (p : Nat) : Bool :=
  s.host.ns.any (fun n => n.2.dwe &&
    match fnOfTile s n.2.tile with
    | some fn => decide (portOf s fn = p)
    | none => false)

end Sys2Proof.Machine
end

