-- ==== Sys2Proof/Machine/Beat.lean ====
section
/-!
DEFINITION. Machine/Beat.lean: time on the beat grid (02): the lock to host time (R49 to R55), background windows
(R56 to R59) and the BEAT registers' own writes (R62).
-/

namespace Sys2Proof.Machine

/-! ## Background windows -/

/-- A beat with host-grid number `h` lies in a window: S ≤ (h mod 64P) < S + L; a period of 0 disables it (R56). -/
def inWin (h : Nat) (w : Nat × Nat × Nat) : Bool :=
  decide (w.1 ≠ 0) && decide (w.2.1 ≤ h % (64 * w.1)) && decide (h % (64 * w.1) < w.2.1 + w.2.2)

/-- The active windows that contain the present beat, one bit each (BEAT_STATUS.WIN_HIT). -/
def winHit (s : State) : Nat :=
  (List.range 4).foldl
    (fun n k => if inWin (hostGrid s).toNat (s.beat.wins.getD k (0, 0, 0)) then n + 2 ^ k else n) 0

/-- The present beat is a background beat (R56, R57). -/
def bgBeat (s : State) : Bool := !s.beat.bgOnly || decide (winHit s ≠ 0)

/-- The pending window set (R59). -/
def pendingWins (s : State) : List (Nat × Nat × Nat) :=
  (List.range 4).map (fun k =>
    (getF s (F.BEAT_WIN_PERIOD_PERIOD k), getF s (F.BEAT_WIN_START_START k), getF s (F.BEAT_WIN_LEN_LEN k)))

/-- A window fits its period: not S + L > 64P; a disabled window always does (R56). -/
def winFits (w : Nat × Nat × Nat) : Bool := decide (w.1 = 0) || decide (w.2.1 + w.2.2 ≤ 64 * w.1)

/-- The host-grid frame number, low 31 bits. -/
def hostFrame31 (s : State) : Nat := (hostGrid s).toNat / 64 % 2 ^ 31

/-- The armed frame has come or has passed (R59). -/
def winDue (s : State) : Bool :=
  isSet s F.BEAT_WIN_APPLY_ARM &&
    (decide (getF s F.BEAT_WIN_APPLY_FRAME = hostFrame31 s) ||
      decide (2 ^ 30 ≤ (getF s F.BEAT_WIN_APPLY_FRAME + 2 ^ 31 - hostFrame31 s) % 2 ^ 31))

/-- The pending set replaces the active set as one whole, or is refused; either way ARM clears (R56, R59). -/
def applyWins (s : State) : State :=
  if winDue s then
    let s1 := setF F.BEAT_WIN_APPLY_ARM 0 s
    if (pendingWins s).all winFits then
      { s1 with beat := { s1.beat with wins := pendingWins s, bgOnly := isSet s F.BEAT_CTRL_BG_WINDOWS_ONLY } }
    else happen baseBeat 5 s1
  else s

/-! ## The lock -/

def lockFree : Nat := 0
def lockAcquire : Nat := 1
def lockLocked : Nat := 2
def lockHoldover : Nat := 3

def lockState (s : State) : Nat := getF s F.BEAT_STATUS_LOCK_STATE

/-- The lock source; 0b11 is treated as FREE (R62). -/
def lockSrc (s : State) : Nat := if getF s F.BEAT_CTRL_SRC = 3 then 0 else getF s F.BEAT_CTRL_SRC

/-- The lock moves; entering or leaving LOCKED raises BEAT_LOCK_CHANGE (R50, R61), entering it writes an anchor
(R463). -/
def setLock (n : Nat) (s : State) : State :=
  let was := lockState s
  let s1 := setF F.BEAT_STATUS_LOCK_STATE n { s with beat := { s.beat with inTol := 0 } }
  if was = n then s1
  else if n = lockLocked then anchor 2 (happen baseBeat 3 s1)
  else if was = lockLocked then happen baseBeat 3 s1
  else s1

/-- A signed value of 32 bits, saturating (BEAT_PHASE_ERR, BEAT_RATE_ADJ). -/
def sat32 (e : Int) : Nat :=
  let c := max (-(2 ^ 31 : Int)) (min (2 ^ 31 - 1 : Int) e)
  (c % (2 ^ 32 : Int)).toNat

/-- The multiple of 64 beats nearest to a phase error in ns, counted in frames of 1,024,000 ns (R51). -/
def nearestFrames (e : Int) : Int :=
  let q := e / 1024000
  let r := e % 1024000
  if r < 512000 then q else if r > 512000 then q + 1 else if Config.stepTie e then q + 1 else q

/-- BEAT_HOST_OFFSET takes a value: in effect and in its registers. -/
def setOffset (v : W64) (s : State) : State :=
  setR Reg.BEAT_HOST_OFFSET_HI (v.toNat / 2 ^ 32)
    (setR Reg.BEAT_HOST_OFFSET_LO (v.toNat % 2 ^ 32) { s with beat := { s.beat with offset := v } })

/-- R51: BEAT_HOST_OFFSET steps against the error, BEAT_COUNT stays, BEAT_TIME_STEP and an anchor; the residual is
left to R52. -/
def timeStep (e : Int) (s : State) : State :=
  let k := nearestFrames e
  let s1 := setOffset (s.beat.offset - BitVec.ofInt 64 (64 * k)) s
  anchor 1 (happen baseBeat 4 { s1 with beat := { s1.beat with residual := e - 1024000 * k, firstMeas := false } })

/-- The frame from which the error has been in tolerance, after one more measurement in tolerance. -/
def inTolNext (s : State) : Nat := if s.beat.inTol = 0 then frameNow s + 1 else s.beat.inTol

/-- The lock's answer to a measured error (R50): LOCKED after LOCK_FRAMES consecutive frames within LOCK_TOL, ACQUIRE
beyond UNLOCK_TOL, and out of HOLDOVER. -/
def lockMeasure (e : Int) (s : State) : State :=
  let tol : Int := 100 * getF s F.BEAT_LOCK_CFG_LOCK_TOL
  let utol : Int := 100 * getF s F.BEAT_LOCK_CFG_UNLOCK_TOL
  match lockState s with
  | 1 =>
    if e ≤ tol ∧ -tol ≤ e then
      let f := inTolNext s
      if getF s F.BEAT_LOCK_CFG_LOCK_FRAMES ≤ frameNow s + 2 - f then setLock lockLocked s
      else { s with beat := { s.beat with inTol := f } }
    else { s with beat := { s.beat with inTol := 0 } }
  | 2 => if utol < e ∨ utol < -e then setLock lockAcquire s else s
  | 3 => setLock lockAcquire s
  | _ => s

/-- A measurement of the phase error in ns (R50, R51). -/
def measure (e : Int) (s : State) : State :=
  let s1 := setR Reg.BEAT_PHASE_ERR (sat32 e)
    { s with beat := { s.beat with ptmFails := 0, syncMisses := 0, faulted := false, residual := e } }
  let s2 := if 512000 < e ∨ 512000 < -e ∨ s.beat.firstMeas then timeStep e s1 else s1
  lockMeasure e s2

/-- The lock loses its source: HOLDOVER, the last rate kept, BEAT_SYNC_FAULT (R50). -/
def toHoldover (s : State) : State := happen baseBeat 7 (setLock lockHoldover s)

/-- R52 in a header beat: up to 1 µs of phase is removed, and the servo sets the rate within ±2,500 ppm; in FREE
neither. -/
def phaseCorrect (s : State) : State :=
  if lockState s = lockFree then { s with beat := { s.beat with residual := 0 } }
  else
    let d : Int := max (-1000) (min 1000 s.beat.residual)
    let r : Int := max (-2500000) (min 2500000 (Config.rateAdj s.freeCtr))
    let s1 := tick { s with beat := { s.beat with residual := s.beat.residual - d } }
    if lockState s = lockHoldover then s1 else setR Reg.BEAT_RATE_ADJ (sat32 r) s1

/-- BEAT_CTRL is written: SRC moves the lock (R50); BG_WINDOWS_ONLY is the pending copy (R59). -/
def ctrlWrite (v : W32) (s : State) : State :=
  let s1 := setR Reg.BEAT_CTRL (v.toNat % 128) s
  if lockSrc s1 = 0 then
    if lockState s = lockFree then s1 else setLock lockFree (setR Reg.BEAT_RATE_ADJ 0 s1)
  else if lockState s = lockFree then
    setLock lockAcquire { s1 with beat := { s1.beat with firstMeas := true, faulted := false,
                                                           ptmFails := 0, syncMisses := 0 } }
  else s1

/-- The port that PTM exchanges are made on: the named one, or the other where the named one is down and
PTM_FAILOVER is set (R53). -/
def ptmPort (s : State) : Nat :=
  let p := getF s F.BEAT_CTRL_PTM_PORT
  if isSet s F.BEAT_CTRL_PTM_FAILOVER && twoPort s && !isSet s (F.HOST_LINK_STATUS_UP p) then 1 - p else p

/-- A PTM exchange measures (R53). -/
def ptmExchangeDo (e : Int) (t : Nat) (s : State) : State :=
  if lockSrc s = 1 ∧ isSet s (F.HOST_LINK_STATUS_UP (ptmPort s)) then
    measure e { s with beat := { s.beat with hostTime := some (t, s.beat.count) } }
  else s

/-- A PTM exchange fails, or cannot be made because the host has not enabled PTM (R50, R53). -/
def ptmFailDo (notEnabled : Bool) (s : State) : State :=
  if lockSrc s ≠ 1 then s
  else if notEnabled then
    if s.beat.faulted then s else happen baseBeat 7 { s with beat := { s.beat with faulted := true } }
  else
    let n := s.beat.ptmFails + 1
    let s1 := { s with beat := { s.beat with ptmFails := n } }
    if (lockState s = lockAcquire ∨ lockState s = lockLocked) ∧ getF s F.BEAT_PTM_CFG_LOSS_COUNT ≤ n then
      toHoldover s1
    else s1

/-- MISS_LIMIT consecutive missing SYNC_IN edges move the lock to HOLDOVER (R50). -/
def syncMissDo (s : State) : State :=
  if lockSrc s ≠ 2 then s
  else
    let n := s.beat.syncMisses + 1
    let s1 := { s with beat := { s.beat with syncMisses := n } }
    if (lockState s = lockAcquire ∨ lockState s = lockLocked) ∧ getF s F.BEAT_SYNC_CFG_MISS_LIMIT ≤ n then
      toHoldover s1
    else s1

/-- SYNC_OUT's period in host-grid frames, none where it is held low (R55). -/
def syncOutPeriod (s : State) : Option Nat :=
  match getF s F.BEAT_CTRL_SYNC_OUT_MODE with
  | 1 => some (getNZ s F.BEAT_SYNC_CFG_FRAMES)
  | 2 => some 1024
  | _ => none

/-- SYNC_OUT at the start of a beat: high for the first beat of the host-grid frames its mode selects (R55). -/
def syncOutDo (s : State) : State :=
  let h := (hostGrid s).toNat
  let up := match syncOutPeriod s with
    | some p => decide (h % 64 = 0) && decide (h / 64 % p = 0)
    | none => false
  { s with beat := { s.beat with syncOut := up } }

/-- A write of BEAT_HOST_OFFSET_HI takes effect with LO's value, and writes an anchor (R62, R463). -/
def offsetWrite (v : W32) (s : State) : State :=
  anchor 4 (setOffset (BitVec.ofNat 64 (v.toNat * 2 ^ 32 + getR s Reg.BEAT_HOST_OFFSET_LO / 64 * 64)) s)

/-- A write of BEAT_ORIGIN_LO or HI writes an anchor (R463). -/
def originWrite (hi : Bool) (v : W32) (s : State) : State :=
  anchor 4 (setR (if hi then Reg.BEAT_ORIGIN_HI else Reg.BEAT_ORIGIN_LO) v.toNat s)

/-- A read of BEAT_COUNT_LO latches BEAT_COUNT_HI (R62); the count reads 0 until it is valid (R31). -/
def countRead (s : State) : State :=
  setR Reg.BEAT_COUNT_HI (if countValid s then beatNow s / 2 ^ 32 else 0) s

/-! ## The rows -/

def execBgWindowApply (s : State) : Res := .next (applyWins s)
def execBeatWinApplyWrite (v : W32) (s : State) : Res :=
  .next (guarded .onChip Reg.BEAT_WIN_APPLY v (setR Reg.BEAT_WIN_APPLY v.toNat) s)
def execBeatSrcWrite (v : W32) (s : State) : Res := .next (guarded .onChip Reg.BEAT_CTRL v (ctrlWrite v) s)
def execBeatHostOffsetWrite (v : W32) (s : State) : Res :=
  .next (guarded .onChip Reg.BEAT_HOST_OFFSET_HI v (offsetWrite v) s)
def execBeatOriginWrite (hi : Bool) (v : W32) (s : State) : Res :=
  .next (guarded .onChip (if hi then Reg.BEAT_ORIGIN_HI else Reg.BEAT_ORIGIN_LO) v (originWrite hi v) s)
def execBeatCountLoRead (s : State) : Res :=
  .next (match reach s Reg.BEAT_COUNT_LO with
    | .ok => countRead s
    | .disabled => accessDisabled Reg.BEAT_COUNT_LO s
    | .sleeping => accessStall .onChip Reg.BEAT_COUNT_LO none s)
def execPtmExchange (e : Int) (t : Nat) (s : State) : Res := .next (ptmExchangeDo e t s)
def execPtmExchangeFail (notEnabled : Bool) (s : State) : Res := .next (ptmFailDo notEnabled s)
def execSyncInEdge (e : Int) (s : State) : Res := .next (if lockSrc s = 2 then measure e s else s)
def execSyncInMissing (s : State) : Res := .next (syncMissDo s)
def execSyncOutPulse (s : State) : Res := .next (syncOutDo s)

end Sys2Proof.Machine
end

