-- ==== Sys2Proof/Machine/Fail.lean ====
section
/-!
DEFINITION. Machine/Fail.lean: what any part can bring about: causes of the operating modes (R482), the start of the
grout (R284, R28), the asynchronous events of state changes.
-/

namespace Sys2Proof.Machine

/-- The part runs: a start has reached S12, and it is neither off nor halted nor sealed by a grout. -/
def running (s : State) : Bool :=
  decide (modeNow s ≠ 15) && !s.top.starting && !s.top.off && !s.top.halted && s.top.sealFrame.isNone

/-- A grout is under way (R285). -/
def grouting (s : State) : Bool := s.grout.beat.isSome

/-- The map takes no change: a grout has frozen it (R285), or no start has loaded it (R475). -/
def mapStill (s : State) : Bool := s.grout.frozen || !s.map.loaded

/-- The map may change. -/
def mapOpen (s : State) : Bool := running s && !mapStill s

/-- The NVMe engine moves data: until the cause of a grout is recognised (R285). -/
def moving (s : State) : Bool := mapOpen s && !grouting s

/-- Data goes to a host. -/
def toHost (o : Out) (s : State) : State := if grouting s then s else emit o s

/-- A cause of an operating mode arises; the mode follows at the next beat boundary (R482). -/
def setCause (f : Fld) (s : State) : State := setF f 1 s

def grout0 (s : State) : GroutImg :=
  { cause := 0, id := s.grout.lastId + 1, beat := beatNow s, wseqNext := s.map.wseq, jseqFirst := s.map.jdur + 1
    jseqNext := s.map.jseq, slots := [], tail := [], done := false, retried := false, beats := 0 }

/-- The grout that a cause begins: a new one, or the one not yet replayed where no start has loaded the map. -/
def groutBegun (s : State) : GroutImg :=
  if grouting s || !s.map.loaded then s.grout.img.getD (grout0 s) else grout0 s

/-- A cause of the grout sequence: the first starts it, a later one joins its CAUSE mask; before S12, in a start and
in Off none does (R284, R25).  The map is frozen at the next beat boundary, and at once where the beat has stopped
(R285, R289). -/
def groutCause (bit : Nat) (s0 : State) : State :=
  if !running s0 then s0
  else
    let s := if grouting s0 then s0 else happen basePwr 10 s0
    let img := groutBegun s
    { s with grout := { s.grout with
        beat := if grouting s then s.grout.beat else some (beatNow s)
        frozen := s.grout.frozen || asleep s
        img := some { img with cause := Nat.lor img.cause (2 ^ bit) } } }

/-- A FATAL event of the die's own checkers: bit `i` of a page, FAULT_N and the grout (R28). -/
def fatal (base i : Nat) (s : State) : State :=
  let s1 := happen base i s
  groutCause 2 (if running s then { s1 with top := { s1.top with faultN := true } } else s1)

/-- A tile's BUSY counter field rises: events of R89 that carry the tile number. -/
def mediaAen (s : State) : State :=
  (List.range 64).foldl (fun t k =>
    match fnOfTile s k with
    | some fn => if k = 0 ∨ isSet s (F.TILE_EVT_VIS_MEDIA k) then aen fn 7 0x82 0xC2 t else t
    | none => t) s

/-- A counter of thousands: the remainder is kept until it makes a thousand. -/
def addThousand (key : Nat) (f : Fld) (n : Nat) (s : State) : State :=
  let m := tget (fun _ => 0) s.map.rem key + n
  let s1 := { s with map := { s.map with rem := tset (fun _ => 0) key (m % 1000) s.map.rem } }
  if 1000 ≤ m then addF f (m / 1000) s1 else s1

end Sys2Proof.Machine
end

