-- ==== Sys2Proof/Machine/Hash.lean ====
section
/-!
DEFINITION. Machine/Hash.lean: seal leaves, Merkle roots and audit paths (R324).
-/

namespace Sys2Proof.Machine

/-- A digest as its 48 bytes. -/
def digBytes (d : BitVec 384) : List Byte := leBytes 48 d.toNat

/-- An interior node (R324). -/
def sealNode (l r : BitVec 384) : BitVec 384 := Config.sha384 (1 :: (digBytes l ++ digBytes r))

/-- The seal leaf of a tag header and metadata field, KVER and RELOC taken as 0 (R324). -/
def sealLeaf (hdr metaF : Nat) : BitVec 384 :=
  Config.sha384 (0 :: (leBytes 16 (putBits (putBits hdr 112 2 0) 125 1 0) ++ leBytes 16 metaF))

/-- A subtree joins a stack: equal neighbours fold (R325). -/
def pushTree (n : Nat) (d : BitVec 384) : List (Nat × BitVec 384) → List (Nat × BitVec 384)
  | [] => [(n, d)]
  | p :: t => if p.1 = n then pushTree (n + n) (sealNode p.2 d) t else (n, d) :: p :: t

/-- Leaves of a stack. -/
def stackCount (l : List (Nat × BitVec 384)) : Nat := l.foldl (fun n p => n + p.1) 0

/-- The Merkle tree hash of a stack's leaves (R324). -/
def stackRoot : List (Nat × BitVec 384) → BitVec 384
  | [] => Config.sha384 []
  | p :: t => t.foldl (fun acc q => sealNode q.2 acc) p.2

/-- The Merkle tree hash of a list of leaves (R324). -/
def treeRoot (l : List (BitVec 384)) : BitVec 384 := stackRoot (l.foldl (fun st d => pushTree 1 d st) [])

/-- The audit path of leaf `m` of a tree (RFC 6962), the sibling nearest the leaf first; `n` bounds its depth. -/
def auditPath : Nat → Nat → List (BitVec 384) → List (BitVec 384)
  | 0, _, _ => []
  | n + 1, m, l =>
    if l.length ≤ 1 then []
    else
      let k := 2 ^ (Nat.clog 2 l.length - 1)
      if m < k then auditPath n m (l.take k) ++ [treeRoot (l.drop k)]
      else auditPath n (m - k) (l.drop k) ++ [treeRoot (l.take k)]

end Sys2Proof.Machine
end

