-- ==== Sys2Proof/Machine/Map.lean ====
section
/-!
DEFINITION. Machine/Map.lean: blocks and their tags (R189, R193, R307 to R309), the flash geometry (R182 to R187), the
yard (R197, R199, R79), courses and spares (R250, R266 to R268), the map and the journal (R205 to R213, R291 to R295),
and the logs of lost data (R113, R115, R157, R158).
-/

namespace Sys2Proof.Machine

/-! ## Blocks and tags -/

/-- The fields of a block as LDPC carries it (R189). -/
def blkData (b : Blk) : Nat := bitsOf b.toNat 0 32768
def blkHdr (b : Blk) : Nat := bitsOf b.toNat 32768 128
def blkMeta (b : Blk) : Nat := bitsOf b.toNat 32896 128
def blkMac (b : Blk) : Nat := bitsOf b.toNat 33024 128

def mkBlk (data hdr metaF mac : Nat) : Blk :=
  BitVec.ofNat 33152 (data % 2 ^ 32768 + hdr % 2 ^ 128 * 2 ^ 32768 + metaF % 2 ^ 128 * 2 ^ 32896 + mac % 2 ^ 128 * 2 ^ 33024)

/-- A tag header (R193). -/
structure Hdr where
  tile : Nat
  ns : Nat
  lba : Nat
  wseq : Nat
  kver : Nat
  ag : Bool
  agPos : Nat
  agLast : Nat
  reloc : Bool
  kind : Nat
  deriving DecidableEq, Repr

def kindData : Nat := 0
def kindZeroes : Nat := 1
def kindDealloc : Nat := 2
def kindLost : Nat := 3

def hdrBits (h : Hdr) : Nat :=
  h.tile % 64 + h.ns % 1024 * 2 ^ 6 + h.lba % 2 ^ 40 * 2 ^ 16 + h.wseq % 2 ^ 56 * 2 ^ 56 + h.kver % 4 * 2 ^ 112
    + (if h.ag then 2 ^ 114 else 0) + h.agPos % 32 * 2 ^ 115 + h.agLast % 32 * 2 ^ 120
    + (if h.reloc then 2 ^ 125 else 0) + h.kind % 4 * 2 ^ 126

def hdrOf (n : Nat) : Hdr :=
  { tile := bitsOf n 0 6, ns := bitsOf n 6 10, lba := bitsOf n 16 40, wseq := bitsOf n 56 56, kver := bitsOf n 112 2
    ag := decide (bitsOf n 114 1 = 1), agPos := bitsOf n 115 5, agLast := bitsOf n 120 5
    reloc := decide (bitsOf n 125 1 = 1), kind := bitsOf n 126 2 }

def blkTag (b : Blk) : Hdr := hdrOf (blkHdr b)

/-- Quarter `q` of the MAC's input (R307). -/
def macPart (q hdr data metaF : Nat) : List Byte :=
  leBytes 16 q ++ leBytes 16 hdr ++ leBytes 1024 (bitsOf data (8192 * q) 8192) ++ (if q = 3 then leBytes 16 metaF else [])

/-- The MAC of a block under a key (R307). -/
def macOf (k : BitVec 256) (hdr data metaF : Nat) : BitVec 128 :=
  Config.cmac k (macPart 0 hdr data metaF) ^^^ Config.cmac k (macPart 1 hdr data metaF)
    ^^^ Config.cmac k (macPart 2 hdr data metaF) ^^^ Config.cmac k (macPart 3 hdr data metaF)

/-- The key of a slot: a tile's, or a system key (R309). -/
def slotKey (s : State) (slot : Nat) : BitVec 256 :=
  if 256 ≤ slot then Config.systemKey slot else tget (fun _ => 0) s.mac.keys slot

/-- A block with its tag formed under key version KVER of its tile (R195, R307); a block of KIND deallocated or lost
stores zeroes. -/
def formBlk (s : State) (h : Hdr) (data metaF : Nat) : Blk :=
  let d := if h.kind = kindDealloc ∨ h.kind = kindLost then 0 else data
  mkBlk d (hdrBits h) metaF (macOf (slotKey s (4 * h.tile + h.kver)) (hdrBits h) d metaF).toNat

/-- The MAC of a block verifies under a key (R308). -/
def macUnder (k : BitVec 256) (b : Blk) : Bool :=
  decide (blkMac b = (macOf k (blkHdr b) (blkData b) (blkMeta b)).toNat)

/-- The MAC of a block verifies under a tile's key version (R308). -/
def macOk (s : State) (tile kver : Nat) (b : Blk) : Bool := macUnder (slotKey s (4 * tile + kver)) b

/-- R20 and R308: MAC under the tile and the map entry's version, and the header names tile, namespace, LBA and
version. -/
def hdrOk (tile nsid lba kver : Nat) (b : Blk) : Bool :=
  let h := blkTag b
  decide (h.tile = tile) && decide (h.ns = (nsid - 1) % 1024) && decide (h.lba = lba) && decide (h.kver = kver)

def blkOk (s : State) (tile nsid lba kver : Nat) (b : Blk) : Bool :=
  macOk s tile kver b && hdrOk tile nsid lba kver b

/-- A key slot's state (R316). -/
def keyState (s : State) (slot : Nat) : Nat := getF s (F.MAC_SLOT_STATE slot)
def keyEmpty : Nat := 0
def keyLoaded : Nat := 1
def keyRetiring : Nat := 2
def keyErased : Nat := 3

/-- A tile slot's key is erased and its copies are zeroised (R318). -/
def keyGone (s : State) (slot : Nat) : Bool := decide (keyState s slot = keyErased) && !s.mac.eraseDue.contains slot

/-- A tile's current key version. -/
def curVer (s : State) (t : Nat) : Nat := getF s (F.MAC_TILE_KEY_CUR t)

/-! ## Geometry -/

/-- The reference build: blocks in a plane, pages in a block, LUNs on a channel (R2; log 14). -/
def blocksPerPlane : Nat := 2800
def pagesPerBlock : Nat := 3072
def lunsPerCh : Nat := 64
def allCourses : Nat := 179200

def planes (s : State) : Nat :=
  match getF s (F.FCH_CFG_PLANES 0) with
  | 1 => 2
  | 3 => 8
  | _ => 4

def width (s : State) : Nat := getF s F.COURSE_CFG_WIDTH

/-- The cell mode of user courses; SLC is treated as QLC (R216). -/
def userCell (s : State) : Nat := if getF s F.COURSE_CFG_CELL = 0 then 2 else getF s F.COURSE_CFG_CELL

/-- Bits per cell of a CELL code (R38). -/
def cellBits (cell : Nat) : Nat :=
  match cell with
  | 0 => 1
  | 1 => 3
  | 2 => 4
  | _ => 5

/-- MU positions a wave lays on each brick (R186). -/
def muPerWave (s : State) (cell : Nat) : Nat :=
  let n := cellBits cell
  n * planes s * (if planes s = 2 ∧ n % 2 = 1 then 2 else 1) / 4

/-- MU positions of a brick (R184); a brick in another cell mode has the same word lines. -/
def muPerBrick (s : State) (cell : Nat) : Nat := planes s * (pagesPerBlock / cellBits (userCell s) * cellBits cell) / 4

/-- The capacity in blocks of a course of width `w` (R130). -/
def zcapOf (s : State) (w : Nat) : Nat := (w - 1) * planes s * pagesPerBlock * 4

/-- The zone size: the smallest power of two that holds a zone of the build's full width (R130). -/
def zsze (s : State) : Nat := 2 ^ Nat.clog 2 (zcapOf s (width s))

/-- A brick, by channel, LUN and number. -/
def brickKey (ch lun b : Nat) : Nat := (ch * lunsPerCh + lun) * 4096 + b
def flashKey (ch lun b u t : Nat) : Nat := brickKey ch lun b * 65536 + u * 16 + t
def lunKey (ch lun : Nat) : Nat := ch * lunsPerCh + lun

/-- A LUN is marked lost (R264). -/
def lunLost (s : State) (ch lun : Nat) : Bool :=
  if lun < 32 then isSet s (bitF (Reg.FCH_LUN_LOST_LO ch) lun) else isSet s (bitF (Reg.FCH_LUN_LOST_HI ch) (lun - 32))

/-- A channel is lost: every LUN of it is (R263). -/
def chLost (s : State) (ch : Nat) : Bool := (List.range lunsPerCh).all (lunLost s ch)

/-! ## Bricks and courses -/

/-- What a course's brick number makes it at first start (R267, log 15): 0 user data, 1 spare bricks, 2 pallet, 3 grout,
4 journal and checkpoint, 5 system area. -/
def roleOf (c : Nat) : Nat :=
  let b := c % blocksPerPlane
  if b < 2688 then 0 else if b < 2752 then 1 else if b < 2776 then 2 else if b < 2780 then 3 else if b < 2796 then 4 else 5

def brickD (k : Nat) : Brick :=
  { erases := 0, reads := 0, retired := false, spare := decide (roleOf (k % 4096) = 1), lastProg := 0 }
def getBrick (s : State) (k : Nat) : Brick := tget brickD s.map.bricks k
def setBrick (k : Nat) (v : Brick) (s : State) : State :=
  { s with map := { s.map with bricks := tset brickD k v s.map.bricks } }

def course0 : Course :=
  { use := .none, st := .erased, tile := 0, mapped := 0, nextWave := 0, laying := false, replacing := false
    refresh := false, lastAdm := 0, erasedBricks := [], table := [], lastOut := 0, relSeq := 0, erasedSeq := 0
    lastProg := 0 }
def courseD (_ : Nat) : Course := course0
def getCourse (s : State) (c : Nat) : Course := tget courseD s.map.courses c
def setCourse (c : Nat) (v : Course) (s : State) : State :=
  { s with map := { s.map with courses := tset courseD c v s.map.courses } }

/-- The bricks of a course in position order: its course-table row's VALID entries (R183, R266), or its formation
(R182). -/
def courseTable (s : State) (c : Nat) : List BrickAddr :=
  if (getCourse s c).table = [] then
    (List.range (width s)).map (fun k =>
      { ch := k, lun := c / blocksPerPlane, brick := c % blocksPerPlane, valid := true })
  else (getCourse s c).table.filter (·.valid)

def courseWidth (s : State) (c : Nat) : Nat := (courseTable s c).length

/-- The cell mode a course is laid in (R181). -/
def courseCell (s : State) (c : Nat) : Nat :=
  match (getCourse s c).use with
  | .pallet => 0
  | .journal => 0
  | .ckpt => 0
  | .grout => 0
  | _ => userCell s

/-- The mortar position (R185). -/
def mortarPos (c u w : Nat) : Nat := (c + u) % w

/-- Where the j-th data MU of a course lands: wave, MU position and position in the course (R187). -/
def landing (c j mw w : Nat) : Nat × Nat × Nat :=
  let per := mw * (w - 1)
  let u := mw * (j / per) + j % per / (w - 1)
  (j / per, u, (mortarPos c u w + 1 + j % per % (w - 1)) % w)

/-- Data MUs of a course. -/
def courseMus (s : State) (c : Nat) : Nat := muPerBrick s (courseCell s c) * (courseWidth s c - 1)

def isBrick (ch lun b : Nat) (a : BrickAddr) : Bool := decide (a.ch = ch) && decide (a.lun = lun) && decide (a.brick = b)

/-- The course that a brick belongs to. -/
def courseOf (s : State) (ch lun b : Nat) : Option Nat :=
  let c := lun * blocksPerPlane + b
  if (courseTable s c).any (isBrick ch lun b) then some c
  else (s.map.courses.find? (fun p => p.2.table.any (isBrick ch lun b))).map (·.1)

/-- The position of a brick in a course. -/
def posOf (s : State) (c ch lun b : Nat) : Option Nat := (courseTable s c).findIdx? (isBrick ch lun b)

def brickErases (s : State) (a : BrickAddr) : Nat := (getBrick s (brickKey a.ch a.lun a.brick)).erases

/-- A course's erase count (R250). -/
def courseErases (s : State) (c : Nat) : Nat := (courseTable s c).foldl (fun m a => max m (brickErases s a)) 0

/-- The bricks a course has once those on lost channels are dropped (R266). -/
def boundRow (s : State) (c : Nat) : List BrickAddr := (courseTable s c).filter (fun a => !chLost s a.ch)

/-- An erased course that may be bound: erased, its ERASED record durable, of the role asked for (R295). -/
def bindable (s : State) (role c : Nat) : Bool :=
  let k := getCourse s c
  decide (roleOf c = role) && decide (k.st = .erased) && decide (k.use = .none) && decide (k.erasedSeq ≤ s.map.jdur + 1)

/-- The first number from `n` on that `next` reaches and that no entry of a table has. -/
def firstGap {α : Type} (next : Nat → Nat) : Nat → Tbl α → Nat
  | n, [] => next n
  | n, p :: t => if p.1 < next n then firstGap next n t else if p.1 = next n then firstGap next (next n + 1) t else next n

/-- The first brick number of each role, and one past its last. -/
def roleSpan (role : Nat) : Nat × Nat :=
  match role with
  | 0 => (0, 2688)
  | 1 => (2688, 2752)
  | 2 => (2752, 2776)
  | 3 => (2776, 2780)
  | 4 => (2780, 2796)
  | _ => (2796, 2800)

/-- The first course of a role at or after `n`. -/
def nextOfRole (role n : Nat) : Nat :=
  let b := n % blocksPerPlane
  let span := roleSpan role
  if b < span.1 then n - b + span.1 else if b < span.2 then n else n - b + blocksPerPlane + span.1

/-- Candidates for a binding: every listed course that may be bound, and the first course that has never been used;
any other unlisted course equals that one but for its number. -/
def bindCands (s : State) (role : Nat) : List Nat :=
  let g := firstGap (nextOfRole role) 0 s.map.courses
  (s.map.courses.filter (fun p => bindable s role p.1)).map (·.1) ++ (if g < allCourses then [g] else [])

/-- `a` is taken before `b` under R250: wider, then by erase count, then by number. -/
def takenBefore (s : State) (cold : Bool) (a b : Nat) : Bool :=
  let wa := (boundRow s a).length
  let wb := (boundRow s b).length
  if wa ≠ wb then decide (wb < wa)
  else if courseErases s a ≠ courseErases s b then
    (if cold then decide (courseErases s b < courseErases s a) else decide (courseErases s a < courseErases s b))
  else decide (a < b)

/-- The erased course that R250 takes. -/
def chooseCourse (s : State) (role : Nat) (cold : Bool) : Option Nat :=
  (bindCands s role).foldl (fun best c =>
    match best with
    | none => some c
    | some b => if takenBefore s cold c b then some c else best) none

/-! ### Spares -/

/-- A spare that may replace a brick of a course: a good spare on a LUN that is not lost and holds no other brick of
the course (R268). -/
def spareFits (s : State) (row : List BrickAddr) (ch lun b : Nat) : Bool :=
  let k := getBrick s (brickKey ch lun b)
  k.spare && !k.retired && !lunLost s ch lun && !row.any (fun a => decide (a.ch = ch) && decide (a.lun = lun))

/-- The spare with the lowest erase count on a channel, the lowest LUN and brick among equals (log 16). -/
def spareOn (s : State) (row : List BrickAddr) (ch : Nat) : Option BrickAddr :=
  let fresh := (List.range lunsPerCh).findSome? (fun lun =>
    (List.range 64).findSome? (fun i =>
      let b := 2688 + i
      if spareFits s row ch lun b && decide ((getBrick s (brickKey ch lun b)).erases = 0) then
        some (BrickAddr.mk ch lun b true) else none))
  match fresh with
  | some a => some a
  | none =>
    (s.map.bricks.filter (fun p => decide (p.1 / 4096 / lunsPerCh = ch))).foldl (fun best p =>
      let a := BrickAddr.mk ch (p.1 / 4096 % lunsPerCh) (p.1 % 4096) true
      if spareFits s row ch a.lun a.brick then
        match best with
        | none => some a
        | some x => if p.2.erases < brickErases s x then some a else best
      else best) none

/-- Spare bricks on a channel. -/
def sparesOn (s : State) (ch : Nat) : Nat :=
  lunsPerCh * 64
    + (s.map.bricks.filter (fun p => decide (p.1 / 4096 / lunsPerCh = ch) && p.2.spare
        && decide (roleOf (p.1 % 4096) ≠ 1))).length
    - (s.map.bricks.filter (fun p => decide (p.1 / 4096 / lunsPerCh = ch) && !p.2.spare
        && decide (roleOf (p.1 % 4096) = 1))).length

/-- The channels, those with the most spares first, that are not lost. -/
def spareChannels (s : State) : List Nat :=
  ((List.range (width s)).filter (fun ch => !chLost s ch)).mergeSort (fun a b => decide (sparesOn s b ≤ sparesOn s a))

/-- Steps 1 and 2 of R268. -/
def pickSpare (s : State) (row : List BrickAddr) (ch : Nat) : Option BrickAddr :=
  match spareOn s row ch with
  | some a => some a
  | none => (spareChannels s).findSome? (spareOn s row)

/-! ## The yard -/

def slot0 : Slot :=
  { st := .free, tile := 0, nsid := 0, lba := 0, line := 0, idx := 0, kver := 0, present := 0, old := 0, reloc := false
    blks := [], course := none, pins := [], acked := 0, poisoned := false }
def slotD (_ : Nat) : Slot := slot0
def getSlot (s : State) (k : Nat) : Slot := tget slotD s.map.slots k
def setSlot (k : Nat) (v : Slot) (s : State) : State :=
  { s with map := { s.map with slots := tset slotD k v s.map.slots } }

def blk0 (_ : Nat) : Blk := 0
def slotBlk (x : Slot) (t : Nat) : Blk := tget blk0 x.blks t
def present (x : Slot) (t : Nat) : Bool := x.present.getLsbD t

/-- Put a block into a slot. -/
def putBlk (t : Nat) (b : Blk) (x : Slot) : Slot :=
  { x with blks := tset blk0 t b x.blks, present := x.present ||| BitVec.ofNat 16 (2 ^ t) }

def allPresent : BitVec 16 := 0xFFFF

/-- Slots in use. -/
def slotsUsed (s : State) : Nat := (s.map.slots.filter (fun p => decide (p.2.st ≠ .free))).length

/-- The yard reserve and the user pool (R199). -/
def yardReserve (s : State) : Nat := 16 * muPerWave s (userCell s) + max 16 (getF s F.YARD_CFG_EXTRA)
def userPool (s : State) : Nat := 2048 - yardReserve s

/-- Yard slots a tile holds. -/
def yardUse (s : State) (t : Nat) : Nat :=
  (s.map.slots.filter (fun p => decide (p.2.tile = t) && !p.2.reloc
    && (decide (p.2.st = .filling) || decide (p.2.st = .staged) || decide (p.2.st = .laid)))).length

def yardMin (s : State) (t : Nat) : Nat := getF s (F.TILE_YARD_MIN t)
def yardMax (s : State) (t : Nat) : Nat := getF s (F.TILE_YARD_MAX t)
def yardMinSum (s : State) : Nat := (List.range 64).foldl (fun n t => n + yardMin s t) 0

/-- Shared slots in use: what tiles hold above their guarantees, and what the Trowel holds above its reserve (R79,
R246). -/
def sharedUsed (s : State) : Nat :=
  (List.range 64).foldl (fun n t => n + (yardUse s t - yardMin s t)) 0
def sharedFree (s : State) : Nat := userPool s - yardMinSum s - sharedUsed s

/-- A tile may take `n` more slots (R79). -/
def yardAllows (s : State) (t n : Nat) : Bool :=
  let u := yardUse s t
  decide (u + n ≤ yardMax s t) && decide ((u + n - yardMin s t) - (u - yardMin s t) ≤ sharedFree s)

/-- A slot may be taken: free, and no read has pinned it (R226). -/
def slotOpen (s : State) (k : Nat) : Bool :=
  decide ((getSlot s k).st = .free) && decide ((getSlot s k).pins = [])

/-- The lowest slots that may be taken (log 17). -/
def freeSlots (s : State) (n : Nat) : List Nat := ((List.range 2048).filter (slotOpen s)).take n

/-- A slot returns to FREE; its data stays for the reads that have pinned it. -/
def freeSlot (k : Nat) (s : State) : State :=
  let x := getSlot s k
  if x.pins = [] then setSlot k slot0 s else setSlot k { x with st := .free } s

/-- YARD_PEAK. -/
def notePeak (s : State) : State := maxF F.YARD_PEAK_SLOTS (slotsUsed s) s

/-! ## Parity contexts -/

def ctx0 : Ctx :=
  { kind := .wave, course := 0, wave := 0, mw := 0, mortar := [], armed := [], done := [], failed := [], loads := []
    doneBeat := 0 }
def ctxD (_ : Nat) : Ctx := ctx0
def getCtx (s : State) (i : Nat) : Ctx := tget ctxD s.map.ctxs i
def setCtx (i : Nat) (v : Ctx) (s : State) : State := { s with map := { s.map with ctxs := tset ctxD i v s.map.ctxs } }
def hasCtx (s : State) (i : Nat) : Bool := s.map.ctxs.any (fun p => p.1 == i)
def dropCtx (i : Nat) (s : State) : State := { s with map := { s.map with ctxs := terase i s.map.ctxs } }

/-! ## Map entries -/

abbrev Ent := BitVec 40
def entYard (e : Ent) : Bool := e.getLsbD 0
def entState (e : Ent) : Nat := bitsOf e.toNat 1 2
def entKver (e : Ent) : Nat := bitsOf e.toNat 3 2
def entU (e : Ent) : Nat := bitsOf e.toNat 5 12
def entBrick (e : Ent) : Nat := bitsOf e.toNat 17 12
def entLun (e : Ent) : Nat := bitsOf e.toNat 29 6
def entCh (e : Ent) : Nat := bitsOf e.toNat 35 5
def entSlot (e : Ent) : Nat := bitsOf e.toNat 5 11
def stUnmapped : Nat := 0
def stMapped : Nat := 1
def stLost : Nat := 2
def stReloc : Nat := 3
def flashEnt (ch lun b u kver st : Nat) : Ent :=
  BitVec.ofNat 40 (st % 4 * 2 + kver % 4 * 8 + u % 4096 * 2 ^ 5 + b % 4096 * 2 ^ 17 + lun % 64 * 2 ^ 29 + ch % 32 * 2 ^ 35)
def yardEnt (slot kver : Nat) : Ent := BitVec.ofNat 40 (1 + 2 + kver % 4 * 8 + slot % 2048 * 2 ^ 5)
def lostEnt (kver : Nat) : Ent := BitVec.ofNat 40 (4 + kver % 4 * 8)
/-- An entry names flash. -/
def onFlash (e : Ent) : Bool := !entYard e && (decide (entState e = stMapped) || decide (entState e = stReloc))
/-- An entry with another STATE. -/
def withState (e : Ent) (st : Nat) : Ent := BitVec.ofNat 40 (putBits e.toNat 1 2 st)

def lineD (_ : Nat) : BitVec 512 := 0
def getLine (s : State) (l : Nat) : BitVec 512 := tget lineD s.map.lines l
def getEnt (s : State) (l i : Nat) : Ent := BitVec.ofNat 40 (bitsOf (getLine s l).toNat (40 * i) 40)
def lineWith (x : BitVec 512) (lo w v : Nat) : BitVec 512 := BitVec.ofNat 512 (putBits x.toNat lo w v)
def setLine (l : Nat) (x : BitVec 512) (s : State) : State :=
  { s with map := { s.map with lines := tset lineD l x s.map.lines } }

/-- The map line and index of the MU that holds an LBA of a namespace (R206). -/
def muOf (s : State) (nsid lba : Nat) : Nat × Nat :=
  let n := getNs s nsid
  if n.zoned then
    let z := lba / zsze s
    let m := lba % zsze s / 16
    (n.base + z * (zcapOf s (width s) / 192) + m / 12, m % 12)
  else (n.base + lba / 16 / 12, lba / 16 % 12)

/-- The map-memory channel that a map line lies on in the layout of four channels (R401). -/
def lineChannel (l : Nat) : Nat := l / 64 % 4

/-- A map line that restoration has yet to bring back (R405, R406). -/
def lineAbsent (s : State) (l : Nat) : Bool :=
  s.mems.absentLines.contains l || s.mems.absentCh == some (lineChannel l)

/-- No line of a range of blocks is absent. -/
def mapReady (s : State) (nsid slba nlb : Nat) : Bool :=
  (decide (s.mems.absentLines = []) && s.mems.absentCh.isNone) ||
    (List.range ((slba % 16 + nlb + 15) / 16)).all (fun k => !lineAbsent s (muOf s nsid (slba / 16 * 16 + 16 * k)).1)

/-- The map entry of an LBA. -/
def entOf (s : State) (nsid lba : Nat) : Ent := let m := muOf s nsid lba; getEnt s m.1 m.2

/-! ## The journal -/

/-- A journal record is written (R209); none once a grout has frozen the map (R285). -/
def journal (typ body : Nat) (s : State) : State :=
  if mapStill s then s else
  let r : JRec := { seq := s.map.jseq, typ := typ, body := body % 2 ^ 92 }
  { s with map := { s.map with tail := s.map.tail ++ [r], jseq := s.map.jseq + 1 } }

/-- UNMAP_SEQ (R293). -/
def unmapSeq (s : State) : Nat := s.map.wseq % 2 ^ 32

/-- Kinds of COURSE_BIND records (R291). -/
def useKind (u : CourseUse) : Nat :=
  match u with
  | .reloc => 1
  | .pallet => 3
  | .journal => 4
  | .ckpt => 5
  | .grout => 6
  | _ => 0

/-- A COURSE_BIND record: OP 0 BIND, 1 WAVE, 2 RELEASE, 3 GIVE_UP (R291). -/
def bindRecord (c op wave : Nat) (s : State) : State :=
  let k := getCourse s c
  let (okind, ns, owner) : Nat × Nat × Nat :=
    match k.use with
    | .zone n z => (0, n - 1, z)
    | .wall w => (1, 0x3FF, w)
    | u => (1, 0x3FF, useKind u * 2 ^ 21)
  journal 3 (c + op * 2 ^ 18 + k.tile * 2 ^ 20 + wave * 2 ^ 26 + okind * 2 ^ 38 + ns % 1024 * 2 ^ 39 + owner * 2 ^ 49) s

/-- A COURSE_TABLE record (R291). -/
def tableRecord (c pos : Nat) (a : BrickAddr) (s : State) : State :=
  journal 4 (c + pos * 2 ^ 18 + (a.ch + a.lun * 2 ^ 5 + a.brick * 2 ^ 11 + (if a.valid then 2 ^ 23 else 0)) * 2 ^ 23) s

/-! ## Changing an entry -/

/-- A course loses a mapped MU (R259, R295). -/
def courseOut (e : Ent) (s : State) : State :=
  if onFlash e then
    match courseOf s (entCh e) (entLun e) (entBrick e) with
    | some c =>
      let k := getCourse s c
      setCourse c { k with mapped := k.mapped - 1, lastOut := s.map.jseq } s
    | none => s
  else s

/-- A course gains one. -/
def courseIn (e : Ent) (s : State) : State :=
  if onFlash e then
    match courseOf s (entCh e) (entLun e) (entBrick e) with
    | some c => setCourse c { getCourse s c with mapped := (getCourse s c).mapped + 1 } s
    | none => s
  else s

/-- A slot in FILLING or STAGED that the map no longer names is superseded (R197). -/
def supersede (k : Nat) (s : State) : State :=
  if (getSlot s k).st = .filling ∨ (getSlot s k).st = .staged then addF F.YARD_SUPERSEDED_COUNT 1 (freeSlot k s) else s

/-- An entry takes a value: the line, the courses' mapped-MU counts and the slot no longer named. -/
def putEnt (l i : Nat) (e : Ent) (s : State) : State :=
  if mapStill s then s else
  let o := getEnt s l i
  let s1 := setLine l (lineWith (getLine s l) (40 * i) 40 e.toNat) s
  let s2 := if withState o 1 = withState e 1 ∧ onFlash o ∧ onFlash e then s1 else courseIn e (courseOut o s1)
  if entYard o && !(entYard e && decide (entSlot e = entSlot o)) then supersede (entSlot o) s2 else s2

/-- A journalled map change (R209, R293): MAP_SET, with UNMAP_SEQ in an entry of STATE 00; the line takes the record's
JSEQ as its LINE_EPOCH. -/
def mapSet (l i : Nat) (e : Ent) (s : State) : State :=
  if mapStill s then s else
  let re := if entState e = stUnmapped then unmapSeq s * 2 ^ 8 else e.toNat
  let q := s.map.jseq % 2 ^ 32
  let s1 := putEnt l i e (journal 1 (i + l * 2 ^ 4 + re * 2 ^ 36) s)
  setLine l (lineWith (getLine s1 l) 480 32 q) s1

/-- A map update that names a yard slot is not journalled (R208). -/
def mapYard (l i slot kver : Nat) (s : State) : State := putEnt l i (yardEnt slot kver) s

/-- Every entry of a span of lines is unmapped, in one map update (R209, R293); spans of 2^29 lines and more take
several records.  A line that no record has ever named keeps LINE_EPOCH 0 (log 19). -/
def unmapLines (first count : Nat) (s : State) : State :=
  if mapStill s then s else
  let s1 := (s.map.lines.filter (fun p => decide (first ≤ p.1) && decide (p.1 < first + count))).foldl
    (fun t p => (List.range 12).foldl (fun x i => putEnt p.1 i 0 x) t) s
  let most := 2 ^ 29 - 1
  (List.range ((count + most - 1) / most)).foldl (fun t r =>
    let f := first + r * most
    let n := min most (count - r * most)
    let q := t.map.jseq % 2 ^ 32
    let t1 := journal 2 (f + n * 2 ^ 31 + unmapSeq t * 2 ^ 60) t
    (t1.map.lines.filter (fun p => decide (f ≤ p.1) && decide (p.1 < f + n))).foldl
      (fun x p => setLine p.1 (lineWith (getLine x p.1) 480 32 q) x) t1) s1

/-! ## Logs of lost data -/

/-- An entry enters log 0xC0 or 0xC1, which keep 4,096 (R115, R158). -/
def pushLog (e : LossEnt) (l : List LossEnt) : List LossEnt × Option LossEnt :=
  if l.length < 4096 then (l ++ [e], none) else (l.drop 1 ++ [e], l.head?)

/-- A view that still holds the entry dropped counts it in its LOST. -/
def countLost (c1 : Bool) (d : LossEnt) (s : State) : State :=
  let bump (fn : Nat) (t : State) : State :=
    let f := getFn t fn
    setFn fn (if c1 then { f with lostC1 := f.lostC1 + 1 } else { f with lostC0 := f.lostC0 + 1 }) t
  let s1 := if d.outFn0 then s else bump 0 s
  match fnOfTile s d.tile with
  | some fn => if d.outOwn ∨ fn = 0 then s1 else bump fn s1
  | none => s1

/-- A deferred write error: log 0xC0, the namespace's flag, HOST_DEFERRED_WRITE and event 0x80 (R113). -/
def deferredError (nsid lba n cause : Nat) (s : State) : State :=
  let t := (getNs s nsid).tile
  let e : LossEnt :=
    { beat := beatNow s, slba := lba, nlb := n, nsid := nsid, tile := t, kind := 0, cause := cause
      seq := s.host.dweSeq, outOwn := false, outFn0 := false }
  let (l, d) := pushLog e s.host.dweLog
  let s1 := { s with host := { s.host with dweLog := l, dweSeq := s.host.dweSeq + 1 } }
  let s2 := match d with
    | some x => countLost false x s1
    | none => s1
  let s3 := setNs nsid { getNs s2 nsid with dwe := true } s2
  let p := match fnOfTile s t with
    | some fn => portOf s fn
    | none => 0
  tileAen t 7 0x80 0xC0 (happen (baseHost p) 5 s3)

/-- An entry of log 0xC1, with event 0x81 to the tile's function (R157, R158). -/
def lossEntry (nsid slba n kind cause : Nat) (s : State) : State :=
  let t := (getNs s nsid).tile
  let e : LossEnt :=
    { beat := beatNow s, slba := slba, nlb := n, nsid := nsid, tile := t, kind := kind, cause := cause
      seq := s.host.lostSeq, outOwn := false, outFn0 := false }
  let (l, d) := pushLog e s.host.lostLog
  let s1 := { s with host := { s.host with lostLog := l, lostSeq := s.host.lostSeq + 1 } }
  let s2 := match d with
    | some x => countLost true x s1
    | none => s1
  tileAen t 7 0x81 0xC1 s2

/-! ## Zones as the map sees them -/

def zone0 : Zone :=
  { st := .empty, reported := .empty, course := none, cap := 0, wp := 0, lastAdm := 0, finishRec := false, zdev := false
    root := 0, sealEpoch := 0, blocks := 0, signed := false, partialSeal := false }
def zoneD (_ : Nat) : Zone := zone0
def zKey (nsid z : Nat) : Nat := nsid * 2 ^ 20 + z
def getZone (s : State) (nsid z : Nat) : Zone := tget zoneD s.map.zones (zKey nsid z)
def setZone (nsid z : Nat) (v : Zone) (s : State) : State :=
  { s with map := { s.map with zones := tset zoneD (zKey nsid z) v s.map.zones } }

/-- A zone's descriptor changed: the Changed Zone List and its notice (R132, R141; log 10). -/
def zoneChanged (nsid z : Nat) (s : State) : State :=
  tileAen (getNs s nsid).tile 2 0xEF 0xBF
    { s with host := { s.host with
        changed := if s.host.changed.contains (nsid, z) then s.host.changed else s.host.changed ++ [(nsid, z)] } }

/-- A block is lost for good: STATE 10, or KIND lost on flash or in its slot. -/
def blockLost (s : State) (e : Ent) (t : Nat) : Bool :=
  if entState e = stLost then true
  else if entYard e then present (getSlot s (entSlot e)) t && decide ((blkTag (slotBlk (getSlot s (entSlot e)) t)).kind = kindLost)
  else if onFlash e then
    decide ((blkTag (tget blk0 s.map.flash (flashKey (entCh e) (entLun e) (entBrick e) (entU e) t))).kind = kindLost)
  else false

/-- The course of a zone, or one deleted or emptied, is handed to the Trowel for erase, once no wave of it is in flight
(R142, R134); COURSE_BIND RELEASE is journalled (R292). -/
def handForErase (c : Nat) (s : State) : State :=
  let k := getCourse s c
  if k.laying ∨ s.trowel.erase.contains c then s
  else
    let s1 := bindRecord c 2 0 s
    { setCourse c { k with st := .toErase, relSeq := s1.map.jseq } s1 with
      trowel := { s1.trowel with erase := s1.trowel.erase ++ [c] } }

/-- A course whose data is gone: handed for erase now, or by the confirmation of its wave. -/
def releaseCourse (c : Nat) (s : State) : State :=
  handForErase c (setCourse c { getCourse s c with st := if (getCourse s c).laying then .toErase else (getCourse s c).st } s)

/-- A zone goes Offline (R136): course handed over, entries unmapped, log 0xC1. -/
def zoneOffline (nsid z n cause : Nat) (s : State) : State :=
  let zn := getZone s nsid z
  let m := muOf s nsid (z * zsze s)
  let s1 := unmapLines m.1 (zcapOf s (width s) / 192) s
  let s2 := match zn.course with
    | some c => releaseCourse c s1
    | none => s1
  lossEntry nsid (z * zsze s) n 2 cause (zoneChanged nsid z
    (setZone nsid z { zn with st := .offline, reported := .offline, course := none } s2))

/-- A zone goes Read Only (R136, R157), once. -/
def zoneReadOnly (nsid z n cause : Nat) (s : State) : State :=
  let zn := getZone s nsid z
  if zn.st = .readOnly ∨ zn.st = .offline ∨ zn.st = .empty then s
  else lossEntry nsid (z * zsze s) n 1 cause (zoneChanged nsid z (setZone nsid z { zn with st := .readOnly, reported := .readOnly } s))

/-- Every written block of a zone is lost. -/
def zoneAllLost (s : State) (nsid z : Nat) : Bool :=
  (List.range (getZone s nsid z).wp).all (fun o => blockLost s (entOf s nsid (z * zsze s + o)) (o % 16))

/-- Blocks of a namespace are lost (R157): the zone goes Read Only, then Offline when nothing written is left; a
conventional extent is logged. -/
def blocksLost (nsid lba n cause : Nat) (s : State) : State :=
  if (getNs s nsid).zoned then
    let z := lba / zsze s
    let s1 := zoneReadOnly nsid z n cause s
    if (getZone s1 nsid z).st = .readOnly ∧ zoneAllLost s1 nsid z then zoneOffline nsid z n cause s1 else s1
  else lossEntry nsid lba n 3 cause s

/-! ## Bindings -/

/-- The bricks of a course that is to be bound: those on lost channels dropped, those on lost LUNs or retired replaced
by spares (R266, R270); none where a replacement cannot be had. -/
def replaceBad (s : State) : List BrickAddr → List BrickAddr → Option (List BrickAddr)
  | row, [] => some row
  | row, a :: rest =>
    if lunLost s a.ch a.lun || (getBrick s (brickKey a.ch a.lun a.brick)).retired then
      match pickSpare s (row ++ rest) a.ch with
      | some x => replaceBad s (row ++ [x]) rest
      | none => none
    else replaceBad s (row ++ [a]) rest

/-- TROWEL_SPARES and SPARES_LOW after the pool has changed (R269, R274). -/
def noteSpares (s : State) : State :=
  let low := decide (getF s F.TROWEL_SPARES_BRICKS < getF s F.TROWEL_SPARE_LOW)
  if low && !isSet s F.TROWEL_STATUS_SPARES_LOW then
    mediaAen (setCause F.TOP_MODE_CAUSE_DEG_SPARES_LOW (happen baseTrowel 3 (setF F.TROWEL_STATUS_SPARES_LOW 1 s)))
  else if !low && isSet s F.TROWEL_STATUS_SPARES_LOW then
    setF F.TOP_MODE_CAUSE_DEG_SPARES_LOW 0 (setF F.TROWEL_STATUS_SPARES_LOW 0 s)
  else s

/-- A spare is used. -/
def takeSpare (a : BrickAddr) (s : State) : State :=
  let k := brickKey a.ch a.lun a.brick
  noteSpares (setF F.TROWEL_SPARES_BRICKS (getF s F.TROWEL_SPARES_BRICKS - 1) (setBrick k { getBrick s k with spare := false } s))

/-- The rows of the course table that change are journalled (R183, R292). -/
def setRow (c : Nat) (row : List BrickAddr) (s : State) : State :=
  let old := courseTable s c
  let s1 := (row.filter (fun a => !old.contains a)).foldl (fun t a => takeSpare a t) s
  let s2 := setCourse c { getCourse s1 c with table := row } s1
  (List.range old.length).foldl (fun t k =>
    match row[k]?, old[k]? with
    | some a, some b => if a = b then t else tableRecord c k a t
    | none, some b => tableRecord c k { b with valid := false } t
    | _, _ => t) s2

/-- An erased course is bound to a use of a tile (R131, R146, R249, R292). -/
def bindCourse (c t : Nat) (use : CourseUse) (row : List BrickAddr) (s : State) : State :=
  let s1 := if row = courseTable s c then s else setRow c row s
  bindRecord c 0 0 (setCourse c
    { getCourse s1 c with
        use := use, st := .taken, tile := t, mapped := 0, nextWave := 0, laying := false, replacing := false
        refresh := false, lastAdm := beatNow s, erasedBricks := [] } s1)

/-- A course is chosen and bound; none where none can be had (R250, R273). -/
def takeCourse (role t : Nat) (use : CourseUse) (cold : Bool) (s : State) : Option (Nat × State) :=
  match chooseCourse s role cold with
  | none => none
  | some c =>
    match replaceBad s [] (boundRow s c) with
    | none => none
    | some row => some (c, bindCourse c t use row s)

/-- The spares are exhausted (R273): EVACUATE, the event and asynchronous event 0x82. -/
def sparesExhausted (s : State) : State :=
  if isSet s F.TROWEL_STATUS_SPARES_EXHAUSTED then s
  else mediaAen (setCause F.TOP_MODE_CAUSE_EVAC_SPARES (happen baseTrowel 4 (setF F.TROWEL_STATUS_SPARES_EXHAUSTED 1 s)))

/-- Courses a tile holds (TILE_COURSE_USE). -/
def coursesHeld (s : State) (t : Nat) : Nat :=
  (s.map.courses.filter (fun p => decide (p.2.tile = t) && decide (p.2.use ≠ .none)
    && (decide (p.2.st = .taken) || decide (p.2.st = .full)))).length

/-- TAGGED of a key slot (R316): entries of the tile's namespaces in STATE 01 or 11 on flash with the version, and the
tile's yard slots of it. -/
def lineTile (s : State) (l : Nat) : Option Nat :=
  (s.host.ns.find? (fun p => decide (p.2.base ≤ l) &&
    decide (l < p.2.base + (if p.2.zoned then p.2.nsze / zsze s * (zcapOf s (width s) / 192) else (p.2.nsze + 191) / 192)))).map
      (·.2.tile)

def taggedOf (s : State) (t v : Nat) : Nat :=
  (s.map.lines.filter (fun p => lineTile s p.1 == some t)).foldl (fun n p =>
      n + ((List.range 12).filter (fun i => onFlash (getEnt s p.1 i) && decide (entKver (getEnt s p.1 i) = v))).length) 0
    + (s.map.slots.filter (fun p => decide (p.2.tile = t) && decide (p.2.kver = v)
        && (decide (p.2.st = .filling) || decide (p.2.st = .staged) || decide (p.2.st = .laid)))).length

/-- ERASED slots whose TAGGED has reached 0 become EMPTY (R316), and a key sweep that is done says so (R320). -/
def keysSettle (s : State) : State :=
  if !s.map.loaded then s else
  let s1 := (List.range 256).foldl (fun t k =>
    if keyGone t k ∧ taggedOf t (k / 4) (k % 4) = 0 then
      let t1 := setF (F.MAC_SLOT_STATE k) keyEmpty t
      { t1 with mac := { t1.mac with kcv := terase k t1.mac.kcv } }
    else t) s
  s1.mac.sweeping.foldl (fun t k =>
    if (List.range 4).all (fun v => v == curVer t k || decide (keyState t (4 * k + v) ≠ keyLoaded)
        || decide (taggedOf t k v = 0)) then
      let t1 := setF (F.MAC_TILE_KEY_SWEEPING k) 0 t
      happen baseMac 4 { t1 with mac := { t1.mac with sweeping := removeNat k t1.mac.sweeping } }
    else t) s1

end Sys2Proof.Machine
end

