-- ==== Sys2Proof/Machine/Plan.lean ====
section
/-!
DEFINITION. Machine/Plan.lean: plan buffers and their entries (R34 to R40, R43): where an entry stands, how it retires,
and what the fields of each unit's entries say (R38, R108, R191, R312, R377).
-/

namespace Sys2Proof.Machine

/-! ## Units and buffers -/

/-- The number of a unit. -/
def unitNo (u : PlanUnit) : Nat :=
  match u with
  | .fch n => n
  | .lane n => 32 + n
  | .mac p => 64 + p
  | .poster c => 72 + c
  | .hod => 74

/-- The planner that plans channel `ch` now: its own, or that one's pair once it has failed (R17). -/
def plannerOf (s : State) (ch : Nat) : Nat :=
  if s.beat.failed.contains (ch / 4) then Nat.xor (ch / 4) 1 else ch / 4

/-- The writer of a unit's plans, by core number (R34, R38). -/
def writerOf (s : State) (u : PlanUnit) : Nat :=
  match u with
  | .fch n => plannerOf s n
  | .lane n => plannerOf s n
  | .mac p => if s.beat.failed.contains p then Nat.xor p 1 else p
  | .poster c => 8 + c
  | .hod => 10

/-- Entries a buffer of the unit holds (R38). -/
def bufLimit (u : PlanUnit) : Nat :=
  match u with
  | .fch _ => 1022
  | .poster _ => 1022
  | _ => 126

/-- The highest OP code of a unit that is not reserved (R39, R108, R191, R312, R377). -/
def opLimit (u : PlanUnit) : Nat :=
  match u with
  | .fch _ => 0x0C
  | .lane _ => 4
  | .mac _ => 3
  | .poster _ => 2
  | .hod => 1

def buf0 : PlanBuf := { target := 0, valid := false, held := false, invalid := false, done := false, writer := 0, ents := [] }
def bufD (_ : Nat) : PlanBuf := buf0
def bufKey (u : PlanUnit) (b : Nat) : Nat := unitNo u * 4 + b % 4
def getBuf (s : State) (u : PlanUnit) (b : Nat) : PlanBuf := tget bufD s.beat.plans (bufKey u b)
def setBuf (u : PlanUnit) (b : Nat) (v : PlanBuf) (s : State) : State :=
  { s with beat := { s.beat with plans := tset bufD (bufKey u b) v s.beat.plans } }

/-! ## Fields of the entries -/

/-- Flash channel entries (R38). -/
def eLun (e : PlanEntry) : Nat := bitsOf e.body 0 3 * 8 + bitsOf e.body 3 3
def eCell (e : PlanEntry) : Nat := bitsOf e.body 6 2
def eMask (e : PlanEntry) : Nat := bitsOf e.body 8 8
def eParam (e : PlanEntry) : Nat := bitsOf e.body 16 8
def eBrick (e : PlanEntry) : Nat := bitsOf e.body 24 12
def ePage (e : PlanEntry) : Nat := bitsOf e.body 40 12
def eYard (e : PlanEntry) : Nat := bitsOf e.body 56 11
def eYardValid (e : PlanEntry) : Bool := decide (bitsOf e.body 71 1 = 1)

/-- Course-engine entries (R191). -/
def eCtx (e : PlanEntry) : Nat := bitsOf e.body 0 4
def eK (e : PlanEntry) : Nat := bitsOf e.body 4 4
def eWave (e : PlanEntry) : Nat := bitsOf e.body 8 11
def eCourse (e : PlanEntry) : Nat := bitsOf e.body 24 18

/-- Completion entries (R108). -/
def eFn (e : PlanEntry) : Nat := bitsOf e.body 0 6
def eCmd (e : PlanEntry) : Nat := bitsOf e.body 8 18

/-- MAC entries (R312). -/
def eCh (e : PlanEntry) : Nat := bitsOf e.body 0 5
def eCount (e : PlanEntry) : Nat := bitsOf e.body 8 8
def eNewVer (e : PlanEntry) : Nat := bitsOf e.body 16 2

/-- Hod windows (R377). -/
def eSpaces (e : PlanEntry) : Nat := bitsOf e.body 0 5
def eChMask (e : PlanEntry) : Nat := bitsOf e.body 8 32
def eBursts (e : PlanEntry) : Nat := bitsOf e.body 40 16

/-- A channel entry starts a die operation (R39). -/
def dieStarting (op : Nat) : Bool :=
  decide (1 ≤ op ∧ op ≤ 4) || decide (op = 6) || decide (op = 0x0B)

/-! ## Running an entry -/

/-- The plan, or the holding plan, that a unit executes in the present beat (R35, R43). -/
def running? (s : State) (u : PlanUnit) : Option PlanBuf :=
  let b := getBuf s u (beatNow s)
  if (b.held || (b.valid && !b.invalid)) && decide (b.target = beatNow s % 2 ^ 32) then some b else none

/-- Entry `idx` of the plan that a unit executes, not retired yet, with operation `op`. -/
def entryAt (s : State) (u : PlanUnit) (idx op : Nat) : Option PEnt :=
  match running? s u with
  | none => none
  | some b =>
    match b.ents[idx]? with
    | none => none
    | some p => if p.e.op = op ∧ ¬ p.retired then some p else none

/-- A die-time charge is given back (R73). -/
def refund (p : PEnt) (s : State) : State :=
  match s.tiles.charge.find? (fun x => x.1 == p.acct) with
  | some x => { s with tiles := { s.tiles with charge := tset (fun _ => 0) p.acct (x.2 - p.charge) s.tiles.charge } }
  | none => s

/-- An entry retires with a code; DONE is set once every entry has (R38, R40). -/
def retire (u : PlanUnit) (idx code : Nat) (s : State) : State :=
  let b := getBuf s u (beatNow s)
  let ents := b.ents.modify idx (fun p => { p with code := code, retired := true })
  let s1 := setBuf u (beatNow s) { b with ents := ents, done := ents.all (·.retired) } s
  match b.ents[idx]? with
  | some p => if code = 2 ∨ code = 6 then refund p s1 else s1
  | none => s1

/-- Run entry `idx` of unit `u`, expected to be operation `op`; nothing happens where there is no such entry. -/
def onEntry (u : PlanUnit) (idx op : Nat) (f : PEnt → State → State) (s : State) : State :=
  match entryAt s u idx op with
  | some p => f p s
  | none => s

/-- A NOP retires done and does nothing else. -/
def nopEntry (u : PlanUnit) (idx : Nat) (s : State) : State := onEntry u idx 0 (fun _ => retire u idx 1) s

/-! ## Closed buffers -/

/-- A write to a sealed, executing or retired buffer is dropped: a bus error to a non-posted writer, or
BEAT_PLAN_INVALID for a posted one (R36). -/
def closedWrite (posted : Bool) (s : State) : State := if posted then happen baseBeat 1 s else emit .busError s

/-- A buffer is the open one of the present beat (R34). -/
def openBuf (s : State) (b : Nat) : Bool := decide (b % 4 = (beatNow s + 2) % 4)

/-! ## The die cap (R437, R438) -/

def levelNow (s : State) : Nat := getF s F.KILN_STATUS_LEVEL

/-- The die cap of a level; none at T0. -/
def levelCap (s : State) (k : Nat) : Option Nat :=
  match k with
  | 0 => none
  | 1 => some (getNZ s F.KILN_UNITS_DIE1)
  | 2 => some (getNZ s F.KILN_UNITS_DIE2)
  | _ => some (getNZ s F.KILN_UNITS_DIE3)

/-- The die cap of the plan for a beat. -/
def dieCap (s : State) (beat : Nat) : Option Nat :=
  levelCap s (if beat < s.kiln.capBeat then s.kiln.capOld else levelNow s)

/-- A channel plan for a beat holds no more die-starting entries than the cap. -/
def withinCap (s : State) (beat : Nat) (ents : List PlanEntry) : Bool :=
  match dieCap s beat with
  | none => true
  | some c => decide ((ents.filter (fun e => dieStarting e.op)).length ≤ c)

/-! ## A failed planner -/

/-- The channels of a planner that are there and are not lost (R34). -/
def channelsOf (s : State) (p : Nat) : List Nat :=
  [4 * p, 4 * p + 1, 4 * p + 2, 4 * p + 3].filter (fun ch => decide (ch < width s) && !chLost s ch)

/-- Every channel of a planner has run holding plans for BEAT_FAILOVER.BEATS consecutive beats; 0 is treated as 1
(R45). -/
def plannerSilent (s : State) (p : Nat) : Bool :=
  decide (channelsOf s p ≠ []) &&
    (channelsOf s p).all (fun ch => decide (getNZ s F.BEAT_FAILOVER_BEATS ≤ tget (fun _ => 0) s.beat.holdRun ch))

/-- A planner is declared failed: BEAT_PLANNER_FAILED, its channels pass to its pair and the part enters DEGRADED; a
second failure in the pair is FATAL (R17, R45). -/
def plannerFail (p : Nat) (s : State) : State :=
  if p < 8 ∧ ¬ s.beat.failed.contains p ∧ plannerSilent s p then
    let both := s.beat.failed.contains (Nat.xor p 1)
    let s1 := happen baseBeat 2 { s with beat := { s.beat with failed := insertNat p s.beat.failed } }
    let s2 := setCause F.TOP_MODE_CAUSE_DEG_PLANNER s1
    if both then fatal baseTop 8 s2 else s2
  else s

def execPlanWriteClosedBuffer (_u : PlanUnit) (buf : Nat) (posted : Bool) (s : State) : Res :=
  .next (if openBuf s buf then s else closedWrite posted s)
def execPlannerFailed (p : Nat) (s : State) : Res := .next (plannerFail p s)
def execFchNop (ch idx : Nat) (s : State) : Res := .next (nopEntry (.fch ch) idx s)
def execSetTrim (ch idx : Nat) (s : State) : Res := .next (onEntry (.fch ch) idx 0x0A (fun _ => retire (.fch ch) idx 1) s)
def execCourseStep (ch idx : Nat) (s : State) : Res :=
  .next (onEntry (.fch ch) idx 0x0C (fun _ => retire (.fch ch) idx 1) s)
def execLaneNop (lane idx : Nat) (s : State) : Res := .next (nopEntry (.lane lane) idx s)
def execMacNop (p idx : Nat) (s : State) : Res := .next (nopEntry (.mac p) idx s)
def execCplNop (c idx : Nat) (s : State) : Res := .next (nopEntry (.poster c) idx s)
def execHodNop (idx : Nat) (s : State) : Res := .next (nopEntry .hod idx s)

end Sys2Proof.Machine
end

