-- ==== Sys2Proof/Machine/Trowel.lean ====
section
/-!
DEFINITION. Machine/Trowel.lean: media care (09): refresh, garbage-collection and wear triggers, retired bricks,
replacement and spares, lost LUNs and channels, rebuild.
-/

namespace Sys2Proof.Machine

/-! ## Reading the map backwards -/

/-- The namespace and first LBA of the MU at a map line and index (R206). -/
def muLba (s : State) (l i : Nat) : Option (Nat × Nat) :=
  let per := zcapOf s (width s) / 192
  (s.host.ns.find? (fun p => decide (p.2.base ≤ l) &&
    decide (l < p.2.base + (if p.2.zoned then p.2.nsze / zsze s * per else (p.2.nsze + 191) / 192)))).map
    (fun p => if p.2.zoned then (p.1, (l - p.2.base) / per * zsze s + ((l - p.2.base) % per * 12 + i) * 16)
              else (p.1, ((l - p.2.base) * 12 + i) * 16))

/-- Every map entry on flash that satisfies a test: line and index. -/
def entsWhere (s : State) (f : Ent → Bool) : List (Nat × Nat) :=
  s.map.lines.flatMap (fun p =>
    ((List.range 12).filter (fun i => onFlash (getEnt s p.1 i) && f (getEnt s p.1 i))).map (fun i => (p.1, i)))

/-- Runs of consecutive MUs of one namespace: namespace, first LBA, blocks. -/
def extents : List (Nat × Nat) → List (Nat × Nat × Nat)
  | [] => []
  | (n, a) :: t =>
    match extents t with
    | (m, b, k) :: r => if n = m ∧ a + 16 = b then (n, a, k + 16) :: r else (n, a, 16) :: (m, b, k) :: r
    | [] => [(n, a, 16)]

/-- MUs are lost: their entries go to STATE 10, and R157 and, where asked, R113 record the extents. -/
def loseMus (mus : List (Nat × Nat)) (cause1 : Nat) (cause0 : Option Nat) (s : State) : State :=
  let at_ := mus.filterMap (fun m => muLba s m.1 m.2)
  let s1 := mus.foldl (fun t m => mapSet m.1 m.2 (lostEnt (entKver (getEnt t m.1 m.2))) t) s
  (extents at_).foldl (fun t x =>
    let t1 := blocksLost x.1 x.2.1 x.2.2 cause1 t
    match cause0 with
    | some c => deferredError x.1 x.2.1 x.2.2 c t1
    | none => t1) s1

/-! ## Refresh (R255 to R257) -/

/-- A course is queued for refresh, once. -/
def queueRefresh (reason c : Nat) (s : State) : State :=
  if !isSet s F.TROWEL_CFG_REFRESH_EN || s.trowel.refresh.any (fun r => r.2 == c) then s
  else
    let s1 := setCourse c { getCourse s c with refresh := true } s
    { s1 with trowel := { s1.trowel with refresh := s1.trowel.refresh ++ [(reason, c)] } }

/-- The next course to refresh: by reason, then in the order queued (R257). -/
def nextRefresh (s : State) : Option Nat :=
  ([0, 1, 2].findSome? (fun r => s.trowel.refresh.find? (fun x => x.1 == r))).map (·.2)

/-- The read-count threshold of a cell mode (R255). -/
def disturbLimit (s : State) (cell : Nat) : Nat :=
  100 * getF s (match cell with
    | 0 => F.TROWEL_DISTURB_A_SLC
    | 1 => F.TROWEL_DISTURB_A_TLC
    | 2 => F.TROWEL_DISTURB_B_QLC
    | _ => F.TROWEL_DISTURB_B_PLC)

/-- A read of a brick is counted, and queues its course at the threshold. -/
def countRead1 (ch lun b : Nat) (s : State) : State :=
  let k := getBrick s (brickKey ch lun b)
  let s1 := setBrick (brickKey ch lun b) { k with reads := k.reads + 1 } s
  match courseOf s ch lun b with
  | some c => if k.reads + 1 = disturbLimit s (courseCell s c) then queueRefresh 1 c s1 else s1
  | none => s1

/-- A brick reported at margin queues its course (R257). -/
def atMargin (ch lun b : Nat) (s : State) : State :=
  match courseOf s ch lun b with
  | some c => queueRefresh 0 c s
  | none => s

/-! ## Garbage collection (R252, R253) -/

/-- Courses of data and of headroom of a conventional namespace (R252). -/
def convCourses (s : State) (n : Ns) : Nat × Nat :=
  let d := (n.nsze + zcapOf s (width s) - 1) / zcapOf s (width s)
  (d, (d * getF s F.TROWEL_GC_HEADROOM_PM + 999) / 1000)

def tileConv (s : State) (t : Nat) : List Ns :=
  (s.host.ns.filter (fun p => decide (p.2.tile = t) && !p.2.zoned)).map (·.2)

/-- A tile's conventional headroom H and free count F (R253). -/
def gcHeadroom (s : State) (t : Nat) : Nat := (tileConv s t).foldl (fun n x => n + (convCourses s x).2) 0
def convHeld (s : State) (t : Nat) : Nat :=
  (s.map.courses.filter (fun p => decide (p.2.tile = t) && decide (p.2.st ≠ .erased) &&
    (match p.2.use with
     | .wall _ => true
     | .reloc => true
     | _ => false))).length
def gcFree (s : State) (t : Nat) : Nat :=
  (tileConv s t).foldl (fun n x => n + (convCourses s x).1 + (convCourses s x).2) 0 - convHeld s t

def gcStart (s : State) (t : Nat) : Nat := gcHeadroom s t * getF s F.TROWEL_GC_START_PM / 1000
def gcUrgentAt (s : State) (t : Nat) : Nat := max 2 (gcHeadroom s t * getF s F.TROWEL_GC_URGENT_URGENT_PM / 1000)

/-- R253 after a tile's free count has changed: urgency also runs with GC_EN clear. -/
def gcTrigger (t : Nat) (s : State) : State :=
  if tileConv s t = [] then s
  else
    let f := gcFree s t
    let urgent := decide (f ≤ gcUrgentAt s t)
    let run := urgent || (isSet s F.TROWEL_CFG_GC_EN &&
      (decide (f ≤ gcStart s t) || (s.trowel.gc.contains t && decide (f < gcStart s t + 64))))
    let was := s.trowel.gcUrgent.contains t
    let s1 := { s with trowel := { s.trowel with
      gc := if run then insertNat t s.trowel.gc else removeNat t s.trowel.gc
      gcUrgent := if urgent then insertNat t s.trowel.gcUrgent else removeNat t s.trowel.gcUrgent } }
    let s2 := setF F.TROWEL_STATUS_GC_URGENT (if s1.trowel.gcUrgent = [] then 0 else 1) s1
    if urgent && !was then happen baseTrowel 5 s2 else s2

/-- The victim of garbage collection for a tile (R254). -/
def gcVictim (s : State) (t : Nat) : Option Nat :=
  (s.map.courses.filter (fun p => decide (p.2.tile = t) && decide (p.2.st = .full) && !p.2.laying &&
    (match p.2.use with
     | .wall _ => true
     | .reloc => true
     | _ => false))).foldl (fun best p =>
      match best with
      | none => some p.1
      | some b =>
        let k := getCourse s b
        if p.2.mapped < k.mapped ∨ (p.2.mapped = k.mapped ∧ p.2.lastProg < k.lastProg) then some p.1 else best) none

/-! ## Giving up, replacing, retiring (R260, R261, R268, R269) -/

/-- Courses reserved by every tile. -/
def reservedAll (s : State) : Nat := s.host.ns.foldl (fun n p => n + p.2.reserved) 0

/-- An erased user course may be given up (R261). -/
def mayGiveUp (s : State) : Bool := decide (reservedAll s < s.trowel.userCourses)

/-- A course is given up: its good bricks join the spare pool (R261). -/
def giveUp (c : Nat) (s : State) : State :=
  let good := (courseTable s c).filter (fun a =>
    !(getBrick s (brickKey a.ch a.lun a.brick)).retired && !lunLost s a.ch a.lun)
  let s1 := good.foldl (fun t a =>
    let k := brickKey a.ch a.lun a.brick
    setBrick k { getBrick t k with spare := true } t) s
  let s2 := setF F.TROWEL_SPARES_BRICKS (getF s F.TROWEL_SPARES_BRICKS + good.length) s1
  let s3 := bindRecord c 3 0 s2
  noteSpares { setCourse c { getCourse s3 c with st := .givenUp, table := [] } s3 with
    trowel := { s3.trowel with userCourses := s3.trowel.userCourses - 1 } }

/-- An erased course is given up where one may be (R261, R269); the choice is R250's (log 18). -/
def giveUpOne (s : State) : Option State :=
  if mayGiveUp s then (chooseCourse s 0 false).map (fun c => giveUp c s) else none

/-- While SPARES_LOW is set, erased courses are given up until the pool holds LOW bricks or none may be (R269). -/
def relieveSpares : Nat → State → State
  | 0, s => s
  | n + 1, s =>
    if isSet s F.TROWEL_STATUS_SPARES_LOW then
      match giveUpOne s with
      | some s1 => relieveSpares n s1
      | none => s
    else s

/-- A replacement for position `k` of a course (R268); none where neither the pool nor giving up a course meets it. -/
def replaceAt (c k : Nat) (s : State) : Option State :=
  let row := courseTable s c
  match row[k]? with
  | none => none
  | some a =>
    let others := row.eraseIdx k
    let go (t : State) : Option State :=
      (pickSpare t others a.ch).map (fun x => setRow c (row.set k x) t)
    match go s with
    | some t => some t
    | none =>
      match giveUpOne s with
      | some t => go t
      | none => none

/-- Retired bricks on a LUN. -/
def retiredOn (s : State) (ch lun : Nat) : Nat :=
  (s.map.bricks.filter (fun p => decide (p.1 / 4096 = lunKey ch lun) && p.2.retired)).length

/-- A brick is retired: never programmed again, out of the spare pool, counted (R260). -/
def retireBrick (ch lun b : Nat) (s : State) : State :=
  let k := brickKey ch lun b
  let x := getBrick s k
  if x.retired then s
  else
    let s1 := addF F.TROWEL_RETIRED_COUNT 1 (setBrick k { x with retired := true, spare := false } s)
    if x.spare then noteSpares (setF F.TROWEL_SPARES_BRICKS (getF s1 F.TROWEL_SPARES_BRICKS - 1) s1) else s1

/-! ## Loss (R262 to R264, R270, R30) -/

/-- A course holds data. -/
def holdsData (k : Course) : Bool := decide (k.st = .taken) || decide (k.st = .full)

/-- Bricks of a course on lost LUNs. -/
def lostBricks (s : State) (c : Nat) : List BrickAddr := (courseTable s c).filter (fun a => lunLost s a.ch a.lun)

/-- The order of R270: system courses, open courses, others by number. -/
def rebuildRank (k : Course) : Nat :=
  match k.use with
  | .pallet => 0
  | .journal => 0
  | .ckpt => 0
  | .grout => 0
  | _ => if k.st = .taken then 1 else 2

/-- A conventional course with few mapped MUs is left to garbage collection while an erased course is free (R270). -/
def leftToGc (s : State) (c : Nat) : Bool :=
  (match (getCourse s c).use with
   | .wall _ => true
   | _ => false) && decide (4 * (getCourse s c).mapped ≤ courseMus s c) && (chooseCourse s 0 false).isSome

/-- The courses that wait for rebuild, in order; REBUILD_ACTIVE and REBUILD_LEFT follow, and the end of the last rebuild
is raised (R270). -/
def noteRebuild (s : State) : State :=
  let l := ((s.map.courses.filter (fun p =>
    holdsData p.2 && decide (lostBricks s p.1 ≠ []) && !leftToGc s p.1)).map (·.1)).mergeSort
    (fun a b => decide (rebuildRank (getCourse s a) ≤ rebuildRank (getCourse s b)))
  let was := isSet s F.TROWEL_STATUS_REBUILD_ACTIVE
  let idle := decide (l = []) && s.trowel.rebuildNow.isNone
  let s1 := setF F.TROWEL_STATUS_REBUILD_ACTIVE (if idle then 0 else 1)
    (setF F.TROWEL_REBUILD_LEFT_COURSES (l.length + (if s.trowel.rebuildNow.isSome then 1 else 0))
      { s with trowel := { s.trowel with rebuild := l } })
  if was && idle then mediaAen (happen baseTrowel 2 s1) else s1

/-- The next rebuild begins: the lost position takes its replacement (R264, R268, R270); none runs in EVACUATE (R275),
and where no replacement can be had the spares are exhausted (R273). -/
def startRebuild (s : State) : State :=
  if s.trowel.rebuildNow.isSome ∨ modeNow s = modeEvacuate then s
  else match s.trowel.rebuild with
    | [] => s
    | c :: _ =>
      match (courseTable s c).findIdx? (fun a => lunLost s a.ch a.lun), (lostBricks s c).head? with
      | some k, some a =>
        match replaceAt c k s with
        | some t => noteRebuild { t with trowel := { t.trowel with rebuildNow := some (c, k, brickKey a.ch a.lun a.brick, 0) } }
        | none => sparesExhausted s
      | _, _ => s

/-- A course that has lost a second brick: what lay on its lost bricks cannot be reconstructed (R30). -/
def secondLoss (c : Nat) (s : State) : State :=
  let gone := lostBricks s c
  if 2 ≤ gone.length then
    loseMus (entsWhere s (fun e => gone.any (isBrick (entCh e) (entLun e) (entBrick e)))) 0x01 (some 0x02) s
  else s

/-- A LUN is declared lost (R264). -/
def loseLun (ch lun : Nat) (s : State) : State :=
  if lunLost s ch lun then s
  else
    let s1 := if lun < 32 then setF (bitF (Reg.FCH_LUN_LOST_LO ch) lun) 1 s
      else setF (bitF (Reg.FCH_LUN_LOST_HI ch) (lun - 32)) 1 s
    let s2 := (List.range blocksPerPlane).foldl (fun t b => retireBrick ch lun b t) s1
    let s3 := if chLost s2 ch then setCause F.TOP_MODE_CAUSE_DEG_CHANNEL (happen baseTrowel 1 s2)
      else happen baseTrowel 0 s2
    let s4 := (s3.map.courses.filter (fun p => holdsData p.2)).foldl (fun t p =>
      if (courseTable t p.1).any (fun a => decide (a.ch = ch) && decide (a.lun = lun)) then secondLoss p.1 t else t) s3
    startRebuild (noteRebuild (mediaAen s4))

/-- A channel is declared lost: every LUN of it is (R263). -/
def loseChannel (ch : Nat) (s : State) : State := (List.range lunsPerCh).foldl (fun t l => loseLun ch l t) s

/-- Retired bricks that reach RETIRE_LIMIT make their LUN lost (R262). -/
def checkRetired (ch lun : Nat) (s : State) : State :=
  if getNZ s F.TROWEL_LUN_CFG_RETIRE_LIMIT ≤ retiredOn s ch lun then loseLun ch lun s else s

/-- Tables of counts. -/
def zeroD (_ : Nat) : Nat := 0
def bumpT (k : Nat) (t : Tbl Nat) : Tbl Nat := tset zeroD k (tget zeroD t k + 1) t

/-- Two failed resets after TIMEOUT_LIMIT consecutive timeouts make a LUN lost (R262). -/
def checkResets (ch lun : Nat) (s : State) : State :=
  if getNZ s F.TROWEL_LUN_CFG_TIMEOUT_LIMIT ≤ tget zeroD s.trowel.timeouts (lunKey ch lun) ∧
      2 ≤ tget zeroD s.trowel.resets (lunKey ch lun) then loseLun ch lun s else s

/-- A transfer error on a channel: consecutive ones are counted with the LUNs they lie on (R263). -/
def noteXfer (ch lun : Nat) (s : State) : State :=
  addF (F.FCH_XFER_ERR_COUNT ch) 1 (happen (baseFch ch) 3 { s with trowel := { s.trowel with
    xfers := bumpT ch s.trowel.xfers
    xferLuns := tset zeroD ch (Nat.lor (tget zeroD s.trowel.xferLuns ch) (2 ^ lun)) s.trowel.xferLuns } })

/-- An entry that transferred well ends a run of transfer errors. -/
def xferGood (ch : Nat) (s : State) : State :=
  { s with trowel := { s.trowel with xfers := terase ch s.trowel.xfers, xferLuns := terase ch s.trowel.xferLuns } }

/-- The run of transfer errors of a channel reaches XFER_LIMIT over at least two LUNs (R263). -/
def xferLimit (s : State) (ch : Nat) : Bool :=
  let m := tget zeroD s.trowel.xferLuns ch
  decide (getNZ s F.TROWEL_LUN_CFG_XFER_LIMIT ≤ tget zeroD s.trowel.xfers ch) && decide (m ≠ 2 ^ Nat.log2 m)

/-- A retrain of a channel ends (R218, R263): two in a row that do not clear the fault lose the channel. -/
def fchRetrainDo (ch : Nat) (ok : Bool) (s : State) : State :=
  if ok then
    xferGood ch { s with trowel := { s.trowel with retrains := terase ch s.trowel.retrains } }
  else
    let s1 := { s with trowel := { s.trowel with retrains := bumpT ch s.trowel.retrains } }
    if 2 ≤ tget zeroD s1.trowel.retrains ch ∧ xferLimit s ch then loseChannel ch s1 else s1

def execFchRetrain (ch : Nat) (ok : Bool) (s : State) : Res :=
  .next (if ch < width s ∧ ¬ chLost s ch then fchRetrainDo ch ok s else s)

/-! ## A program or an erase fails (R203, R260) -/

/-- The context whose wave a brick's program belongs to, and the brick's position in its course. -/
def ctxOf (s : State) (ch lun b : Nat) : Option (Nat × Nat) :=
  match courseOf s ch lun b with
  | none => none
  | some c =>
    match s.map.ctxs.find? (fun p => decide (p.2.kind = .wave) && decide (p.2.course = c)) with
    | none => none
    | some p => (posOf s c ch lun b).map (fun k => (p.1, k))

/-- A failed program (R203, R260): counted and raised, the brick retired, its position replaced; where that cannot be,
the spares are exhausted (R273). -/
def programFailed (ch lun b : Nat) (s : State) : State :=
  let s0 := addF (F.FCH_PROG_FAIL_COUNT ch) 1 (addF F.COURSE_PROG_FAILS_COUNT 1
    (happen baseCourse 0 (happen (baseFch ch) 0 s)))
  let where_ := ctxOf s ch lun b
  let s1 := retireBrick ch lun b s0
  let s2 := match where_ with
    | none => s1
    | some (i, k) =>
      let x := getCtx s1 i
      let s' := setF F.COURSE_STATUS_REPLACING 1 (setCourse x.course { getCourse s1 x.course with replacing := true } s1)
      let s'' := setCtx i { x with failed := x.failed ++ [k + 64 * brickKey ch lun b] } s'
      match replaceAt x.course k s'' with
      | some t => t
      | none => sparesExhausted s''
  relieveSpares 8192 (checkRetired ch lun s2)

/-- A failed erase (R260). -/
def eraseFailed (ch lun b : Nat) (s : State) : State :=
  relieveSpares 8192 (checkRetired ch lun (retireBrick ch lun b
    (addF F.TROWEL_ERASE_FAILS_COUNT 1 (happen (baseFch ch) 1 s))))

/-- The courses of a grout set: eight of different ranks (R283; the choice of log 32). -/
def setCourses (n : Nat) : List Nat :=
  (List.range 8).map (fun i => (8 * (n % 8) + i) * blocksPerPlane + 2776 + n / 8)

/-- Grout sets that may be armed: 32 but for those used and not yet erased; two are kept armed (R283). -/
def noteArmed (s : State) : State := setF F.PWR_HOLDUP_STAT_ARMED (min 2 (32 - s.grout.used.length)) s

/-- A used set whose courses are all erased is armed again. -/
def armSets (s : State) : State :=
  let done := s.grout.used.filter (fun n => (setCourses n).all (fun c => decide ((getCourse s c).st = .erased)))
  if done = [] then s
  else noteArmed { s with grout := { s.grout with used := s.grout.used.filter (fun n => !done.contains n) } }

/-- Every brick of a handed-over course has come back erased or retired: the course joins the erased pool, with its
ERASED record; a retired brick takes a spare while the pool is above LOW, and otherwise the course is given up
(R259, R260, R292). -/
def courseErased (c : Nat) (s : State) : State :=
  let k := getCourse s c
  let live := (courseTable s c).filter (fun a => !(getBrick s (brickKey a.ch a.lun a.brick)).retired)
  if k.st = .erasing ∧ live.all (fun a => k.erasedBricks.contains (brickKey a.ch a.lun a.brick)) then
    let s1 := journal 5 c s
    let s2 := addF F.TROWEL_ERASES_COUNT 1
      { setCourse c { getCourse s1 c with
            use := .none, st := .erased, erasedBricks := [], mapped := 0, nextWave := 0
            erasedSeq := s1.map.jseq, refresh := false } s1 with
        trowel := { s1.trowel with
          erase := removeNat c s1.trowel.erase
          refresh := s1.trowel.refresh.filter (fun r => r.2 != c) } }
    let bad := (courseTable s2 c).filter (fun a =>
      (getBrick s2 (brickKey a.ch a.lun a.brick)).retired && !chLost s2 a.ch)
    if bad = [] ∨ roleOf c ≠ 0 then armSets s2
    else if getF s2 F.TROWEL_SPARE_LOW < getF s2 F.TROWEL_SPARES_BRICKS then
      match replaceBad s2 [] (courseTable s2 c) with
      | some row => setRow c row s2
      | none => s2
    else if mayGiveUp s2 then giveUp c s2
    else match replaceBad s2 [] (courseTable s2 c) with
      | some row => setRow c row s2
      | none => s2
  else s

/-- The erase fence lets a course be erased (R259, R295). -/
def fenceOpen (s : State) (c : Nat) : Bool :=
  let k := getCourse s c
  decide (k.mapped = 0) && decide (k.lastOut ≤ s.map.jdur + 1) && decide (k.relSeq ≤ s.map.jdur + 1)
    && (decide (k.st = .toErase) || decide (k.st = .erasing))

/-! ## Wear (R258) -/

/-- Erase counts of the bricks of user courses that are neither spare nor retired; a brick never erased counts 0. -/
def wearCounts (s : State) : List Nat :=
  0 :: (s.map.bricks.filter (fun p => !p.2.spare && !p.2.retired && decide (roleOf (p.1 % 4096) = 0))).map (·.2.erases)

/-- Bricks of the courses available for user data, and the lowest, highest and mean erase count over them (R258). -/
def wearBricks (s : State) : Nat := s.trowel.userCourses * width s
def wearMin (s : State) : Nat :=
  if wearBricks s ≤ (wearCounts s).length - 1 then ((wearCounts s).drop 1).foldl min (2 ^ 16) else 0
def wearMax (s : State) : Nat := (wearCounts s).foldl max 0
def wearAvg (s : State) : Nat :=
  (wearCounts s).foldl (· + ·) 0 / max 1 (wearBricks s)

/-- TROWEL_ERASE_SPREAD and TROWEL_ERASE_AVG follow the brick table. -/
def noteWear (s : State) : State :=
  setF F.TROWEL_ERASE_AVG_AVG (wearAvg s) (setF F.TROWEL_ERASE_SPREAD_MAX (wearMax s) (setF F.TROWEL_ERASE_SPREAD_MIN (wearMin s) s))

/-- The erase count of a course's youngest brick. -/
def youngest (s : State) (c : Nat) : Nat := (courseTable s c).foldl (fun m a => min m (brickErases s a)) (2 ^ 32)

/-- The course that wear levelling moves: cold enough, with the lowest youngest brick (R258). -/
def wearVictim (s : State) : Option Nat :=
  if isSet s F.TROWEL_CFG_WEAR_EN && decide (getF s F.TROWEL_WEAR_SPREAD_LIMIT < wearMax s - wearMin s) then
    ((s.map.courses.filter (fun p => decide (p.2.st = .full) &&
      decide (p.2.lastProg / 65536 + getF s F.TROWEL_WEAR_COLD_COLD * 1024 ≤ epochNow s))).foldl (fun best p =>
        match best with
        | none => some p.1
        | some b => if youngest s p.1 < youngest s b then some p.1 else best) none)
  else none

/-- The job that runs, by the order of R243. -/
def trowelJob (s : State) : Nat :=
  let halted := decide (modeNow s = modeEvacuate)
  if halted then (if s.trowel.erase ≠ [] then 3 else 0)
  else if s.trowel.salvage ≠ [] ∨ isSet s F.COURSE_STATUS_REPLACING then 1
  else if s.trowel.rebuild ≠ [] then 2
  else if s.trowel.erase ≠ [] then 3
  else if s.trowel.gc ≠ [] then 4
  else if s.trowel.refresh ≠ [] then 5
  else if (wearVictim s).isSome then 6
  else if s.mac.sweeping ≠ [] then 7
  else 0

end Sys2Proof.Machine
end

