-- ==== Sys2Proof/Machine/Read.lean ====
section
/-!
DEFINITION. Machine/Read.lean: the read of one block from its launch to its check (08): the retry ladder, read-around,
unrecoverable blocks, and the blocks that fills, folds and relocations bring into yard slots.
-/

namespace Sys2Proof.Machine

/-! ## The table of reads -/

def rd0 : Rd :=
  { kind := .host, cmd := 0, nsid := 0, lba := 0, tile := 0, beat := 0, deadline := 0, lr := false, entry := 0, ch := 0
    lun := 0, brick := 0, u := 0, t := 0, step := 0, st := .dead, since := 0, blk := 0, sources := [], acc := 0 }
def rdD (_ : Nat) : Rd := rd0
def getRd (s : State) (i : Nat) : Rd := tget rdD s.map.rds i
def setRd (i : Nat) (v : Rd) (s : State) : State := { s with map := { s.map with rds := tset rdD i v s.map.rds } }
def newRd (r : Rd) (s : State) : Nat × State :=
  (s.map.nextRd, setRd s.map.nextRd r { s with map := { s.map with nextRd := s.map.nextRd + 1 } })
def hasRd (s : State) (i : Nat) : Bool := s.map.rds.any (fun p => p.1 == i)

/-- The deadline in beats of a QoS class (R220). -/
def deadlineOf (qos : Nat) : Nat :=
  match qos with
  | 0 => 8
  | 1 => 16
  | 2 => 32
  | _ => 256

/-- A read leaves the table; a slot it had pinned is released (R226). -/
def dropRd (i : Nat) (s : State) : State :=
  let s1 := { s with map := { s.map with rds := terase i s.map.rds } }
  (s.map.slots.filter (fun p => p.2.pins.contains i)).foldl (fun t p =>
    let x := getSlot t p.1
    let y := { x with pins := removeNat i x.pins }
    setSlot p.1 (if y.st = .free ∧ y.pins = [] then slot0 else y) t) s1

/-- A read moves on to another state in this beat. -/
def rdTo (i : Nat) (st : RdSt) (s : State) : State := setRd i { getRd s i with st := st, since := beatNow s } s

/-! ## The MAC sides -/

/-- The read side, and the write side, can carry operations (R313, R315, R333). -/
def readSideUp (s : State) : Bool := !isSet s F.MAC_STATUS_REFUSING && decide (getF s F.MAC_ENGINE_OK_READ ≠ 0)
def writeSideUp (s : State) : Bool := !isSet s F.MAC_STATUS_REFUSING && decide (getF s F.MAC_ENGINE_OK_WRITE ≠ 0)

def stUnverifiable : Sts := ⟨7, 0x90, true⟩
def stKeyErased : Sts := ⟨7, 0x91, false⟩
def stNoKey : Sts := ⟨7, 0x92, true⟩
def stNoEngine : Sts := ⟨7, 0x93, false⟩
def stNotSealed : Sts := ⟨7, 0x94, true⟩

/-! ## Blocks of a command -/

/-- One block of a command has ended: well, or with a status; the status of the lowest failing LBA stands (R237). -/
def blockDone (i lba : Nat) (bad : Option Sts) (s : State) : State :=
  if !hasCmd s i then s
  else
    let c := getCmd s i
    let c1 := { c with left := removeNat lba c.left }
    let worse := match c.failLba with
      | some f => decide (lba < f)
      | none => true
    setCmd i (match bad with
      | some st => if worse then { c1 with status := st, failLba := some lba } else c1
      | none => c1) s

/-- The Error Information log gets the LBA of a failed command (R237). -/
def errInfoLog (i : Nat) (s : State) : State :=
  let c := getCmd s i
  let f := getFn s c.h.fn
  setFn c.h.fn { f with errLog :=
    ((c.h.qid, c.h.cid, c.status.sct * 256 + c.status.sc, c.failLba.getD 0) :: f.errLog).take 64 } s

/-- What an audit or a Read Tags found of a block (R331). -/
def tagRes0 : TagRes := { hdr := 0, metaF := 0, mac := 0, res := 3, mapB := 0 }
def tagResD (_ : Nat) : TagRes := tagRes0
def mapByte (e : Ent) : Nat := e.toNat % 32
def noteTag (i lba : Nat) (x : TagRes) (s : State) : State :=
  let c := getCmd s i
  if hasCmd s i then setCmd i { c with tags := tset tagResD lba x c.tags, left := removeNat lba c.left } s else s

def blkRes (b : Blk) (res : Nat) (e : Ent) : TagRes :=
  { hdr := blkHdr b, metaF := blkMeta b, mac := blkMac b, res := res, mapB := mapByte e }

/-- A Read Tags record's 64 bytes (R331). -/
def tagBytes (x : TagRes) : List Byte :=
  leBytes 16 x.hdr ++ leBytes 16 x.metaF ++ leBytes 16 x.mac ++ leBytes 1 x.res ++ leBytes 1 x.mapB ++ leBytes 14 0

def tagsBytes (c : Cmd) : List Byte := (List.range c.nlb).flatMap (fun k => tagBytes (tget tagResD c.tags (c.slba + k)))

/-- How many blocks of a command satisfy a test. -/
def countTags (c : Cmd) (f : TagRes → Bool) : Nat :=
  ((List.range c.nlb).filter (fun k => f (tget tagResD c.tags (c.slba + k)))).length

/-- A block of an audit is lost: STATE 10, or of KIND lost (R330). -/
def tagLost (x : TagRes) : Bool := decide (x.res = 4) || (decide (x.res = 0) && decide ((hdrOf x.hdr).kind = kindLost))

/-- The verdict of a Zone Audit (R330). -/
def verdict (s : State) (c : Cmd) : List Byte :=
  let z := getZone s c.h.nsid (c.slba / zsze s)
  let root := treeRoot ((List.range c.nlb).map (fun k =>
    let x := tget tagResD c.tags (c.slba + k)
    sealLeaf x.hdr x.metaF))
  let failed := countTags c (fun x => decide (x.res = 1))
  let unver := countTags c (fun x => decide (x.res = 2))
  let lost := countTags c tagLost
  let res := if failed + lost ≠ 0 then 2 else if unver ≠ 0 then 3 else if root = z.root then 0 else 1
  leBytes 2 1 ++ leBytes 1 res ++ leBytes 1 ((if z.signed then 1 else 0) + (if z.partialSeal then 2 else 0))
    ++ leBytes 4 c.h.nsid ++ leBytes 8 c.slba ++ leBytes 4 c.nlb
    ++ leBytes 4 (countTags c (fun x => decide (x.res = 0))) ++ leBytes 4 failed ++ leBytes 4 unver ++ leBytes 4 lost
    ++ leBytes 1 (getNs s c.h.nsid).tile ++ leBytes 3 0 ++ leBytes 8 z.sealEpoch ++ leBytes 8 (beatNow s)
    ++ leBytes 16 c.nonce ++ digBytes z.root ++ digBytes root ++ digBytes Config.deviceId ++ leBytes 40 0

/-- Verify, Zone Audit and Read Tags end with their last block (R238, R329, R331). -/
def endIfDone (i : Nat) (s : State) : State :=
  let c := getCmd s i
  if hasCmd s i ∧ c.left = [] ∧ c.st ≠ .ready then
    match c.kind with
    | .verify => ready i c.status c.dw0 c.data (if c.failLba.isSome then errInfoLog i s else s)
    | .audit =>
      let v := verdict s c
      ready i stOk 0 (v ++ leBytes 384 (Config.sigRsa s.freeCtr v).toNat ++ leBytes 17088 (Config.sigSlh s.freeCtr v).toNat)
        (tick s)
    | .readTags => ready i c.status 0 (if c.status = stOk then tagsBytes c else []) s
    | _ => s
  else s

/-! ## Slots that reads fill -/

/-- The tag a copied block takes (R196): the header kept, RELOC set, the slot's key version and a new MAC. -/
def copyBlk (s : State) (x : Slot) (b : Blk) : Blk :=
  formBlk s { blkTag b with reloc := true, kver := x.kver } (blkData b) (blkMeta b)

/-- A block that could not be read is laid with KIND lost and a fresh tag (R198, R200, R247). -/
def lostBlk (s : State) (x : Slot) (t wseq : Nat) : Blk :=
  formBlk s { tile := x.tile, ns := (x.nsid - 1) % 1024, lba := x.lba + t, wseq := wseq, kver := x.kver, ag := false
              agPos := 0, agLast := 0, reloc := true, kind := kindLost } 0 0

/-- A deallocated block (R198, R201). -/
def deallocBlk (s : State) (x : Slot) (t wseq : Nat) : Blk :=
  formBlk s { tile := x.tile, ns := (x.nsid - 1) % 1024, lba := x.lba + t, wseq := wseq, kver := x.kver, ag := false
              agPos := 0, agLast := 0, reloc := false, kind := kindDealloc } 0 0

/-- The next write sequence (R195). -/
def nextWseq (s : State) : Nat × State := (s.map.wseq, { s with map := { s.map with wseq := s.map.wseq + 1 } })

/-- A block comes into a slot that does not hold it yet; with all sixteen present the slot is STAGED (R197). -/
def fillSlot (k t : Nat) (b : Blk) (s : State) : State :=
  let x := if present (getSlot s k) t then getSlot s k else putBlk t b (getSlot s k)
  setSlot k (if x.st = .filling ∧ x.present = allPresent then { x with st := .staged } else x) s

/-- A block that the yard takes in with KIND lost. -/
def fillLost (k t : Nat) (s : State) : State :=
  let (q, s1) := nextWseq s
  fillSlot k t (lostBlk s1 (getSlot s1 k) t q) s1

/-! ## The ladder -/

/-- A first die operation planned now launches two beats on; the step may be taken by the deadline (R233). -/
def inTime (s : State) (r : Rd) : Bool := decide (r.deadline = 0) || decide (beatNow s + 2 ≤ r.beat + r.deadline)

def isSource (r : Rd) : Bool :=
  match r.kind with
  | .source _ => true
  | _ => false

/-- A step of 1 to 3 that the read may take (R232, R233). -/
def stepAllowed (s : State) (r : Rd) (k : Nat) : Bool :=
  let soft := r.lr && isSet s F.LDPC_LADDER_LR_SKIP_SOFT && !isSource r
  inTime s r && !lunLost s r.ch r.lun &&
    (match k with
     | 1 => isSet s F.LDPC_LADDER_STEP1_EN
     | 2 => isSet s F.LDPC_LADDER_STEP2_EN && !soft
     | 3 => isSet s F.LDPC_LADDER_STEP3_EN && !soft
     | _ => false)

/-- The next step after step `k` (R233): the lowest allowed of 1 to 3, else 4, then 5; a source read ends after 3. -/
def nextStep (s : State) (r : Rd) (k : Nat) : Nat :=
  match ([1, 2, 3].filter (fun j => decide (k < j) && stepAllowed s r j)).head? with
  | some j => j
  | none => if k < 4 ∧ ¬ isSource r then 4 else 5

/-- The blocks of the other positions of a course that a read-around reads: none where one lies on a lost LUN or the
course is not known (R234). -/
def sourcesOf (s : State) (r : Rd) : Option (List BrickAddr) :=
  match courseOf s r.ch r.lun r.brick with
  | none => none
  | some c =>
    let l := (courseTable s c).filter (fun a => !isBrick r.ch r.lun r.brick a)
    if l.any (fun a => lunLost s a.ch a.lun) then none else some l

/-- A block is unrecoverable (R237): counted and raised, its MU handed to the Trowel, or in EVACUATE recorded (R275),
and its loss recorded under R157. -/
def unrecoverable (i : Nat) (s : State) : State :=
  let r := getRd s i
  let m := muOf s r.nsid r.lba
  let s1 := happen (baseFch r.ch) 4 (happen baseLdpc 0 (addF F.LDPC_UNRECOVERED_COUNT 1 s))
  let s2 := if modeNow s = modeEvacuate then
      { s1 with trowel := { s1.trowel with evacLost := s1.trowel.evacLost ++ [(r.nsid, r.lba)] } }
    else { s1 with trowel := { s1.trowel with
      salvage := if s1.trowel.salvage.contains m then s1.trowel.salvage else s1.trowel.salvage ++ [m] } }
  blocksLost r.nsid r.lba 1 0x06 s2

/-- A read ends at step 5. -/
def rdFail (i : Nat) (s : State) : State :=
  let r := getRd s i
  match r.kind with
  | .host => dropRd i (blockDone r.cmd r.lba (some stUnrecovered) (unrecoverable i s))
  | .verify => endIfDone r.cmd (dropRd i (blockDone r.cmd r.lba (some stUnrecovered) (unrecoverable i s)))
  | .audit => endIfDone r.cmd (dropRd i (noteTag r.cmd r.lba { tagRes0 with res := 1, mapB := mapByte r.entry } (unrecoverable i s)))
  | .tags => endIfDone r.cmd (dropRd i (noteTag r.cmd r.lba { tagRes0 with res := 1, mapB := mapByte r.entry } (unrecoverable i s)))
  | .fill k => dropRd i (fillLost k r.t (blocksLost r.nsid r.lba 1 0x06 s))
  | .fold k => dropRd i (fillLost k r.t (blocksLost r.nsid r.lba 1 0x06 s))
  | .reloc =>
    match (s.map.slots.find? (fun p => p.2.reloc && decide (p.2.old = r.entry))).map (·.1) with
    | some k => dropRd i (fillLost k r.t (blocksLost r.nsid r.lba 1 0x06 s))
    | none => dropRd i s
  | .sample =>
    match courseOf s r.ch r.lun r.brick with
    | some c => dropRd i (queueRefresh 0 c s)
    | none => dropRd i s
  | .source _ => dropRd i s

/-- Read-around starts: one source read for every other position of the course (R234). -/
def readAround (i : Nat) (s : State) : State :=
  let r := getRd s i
  match sourcesOf s r with
  | none => rdFail i s
  | some l =>
    let s1 := addF (F.FCH_RA_TARGET_COUNT r.ch) 1 s
    let (ids, s2) := l.foldl (fun (acc : List Nat × State) a =>
        let (j, t) := newRd { r with kind := .source i, ch := a.ch, lun := a.lun, brick := a.brick, step := 0, st := .waiting,
                                      deadline := 0, since := beatNow s, sources := [], acc := 0 } acc.2
        (acc.1 ++ [j], t)) ([], s1)
    setRd i { r with step := 4, st := .waiting, sources := ids, acc := 0, since := beatNow s } s2

/-- The read goes to a ladder step; a soft step is counted and raised (R239, R240). -/
def goStep (i k : Nat) (s : State) : State :=
  let r := getRd s i
  match k with
  | 4 => readAround i s
  | 5 => rdFail i s
  | _ =>
    let s1 := setRd i { r with step := k, st := .waiting, since := beatNow s } s
    if k = 2 then happen (baseFch r.ch) 6 (happen baseLdpc 2 s1) else s1

/-- A failure at the present step: the read climbs; a source that has failed step 3 ends its read-around at step 5. -/
def climb (i : Nat) (s : State) : State :=
  let r := getRd s i
  match r.kind with
  | .source p =>
    let k := nextStep s r r.step
    if k = 5 then
      let pr := getRd s p
      let s1 := (pr.sources.filter (fun j => j ≠ i)).foldl (fun t j => dropRd j t) (dropRd i s)
      rdFail p (setRd p { pr with sources := [] } s1)
    else goStep i k s
  | .sample => rdFail i s
  | _ => goStep i (nextStep s r r.step) s

/-- The threshold set a brick is read with first (R232). -/
def setOf (s : State) (ch lun b : Nat) : Nat :=
  tget (fun _ => 0) s.map.sets (brickKey ch lun b) - 1

def firstSet (s : State) (ch lun b : Nat) : Nat :=
  if tget (fun _ => 0) s.map.sets (brickKey ch lun b) = 0 then getF s (F.FCH_READ_CFG_DEFAULT_SET ch) else setOf s ch lun b

/-- A step that succeeds records its threshold set for the brick (R232): step 1 the next in order. -/
def recordSet (r : Rd) (s : State) : State :=
  let f := firstSet s r.ch r.lun r.brick
  let v := if r.step = 1 then (f + 1) % getNZ s (F.FCH_READ_CFG_SETS r.ch) else f
  if r.step ≤ 1 then
    { s with map := { s.map with sets := tset (fun _ => 0) (brickKey r.ch r.lun r.brick) (v + 1) s.map.sets } }
  else s

/-- Keys of the remainders of counters of thousands. -/
def remHardCw : Nat := 0
def remChecked : Nat := 1
def remFormed : Nat := 2
def remReads (ch : Nat) : Nat := 16 + ch
def remGc : Nat := 3
def remRefresh : Nat := 4
def remWear : Nat := 5
def remOver : Nat := 6
def remGuar (t : Nat) : Nat := 64 + t
def remBorrow (t : Nat) : Nat := 128 + t

/-- A source of a read-around has decoded: its information bytes are XORed in; after the last the result is the block,
with its tag (R234). -/
def sourceDone (i : Nat) (b : Blk) (s : State) : State :=
  match (getRd s i).kind with
  | .source p =>
    let pr := getRd s p
    let rest := removeNat i pr.sources
    let acc := pr.acc ^^^ b
    let s1 := dropRd i s
    setRd p { pr with sources := rest, acc := acc, st := if rest = [] then .decoded else pr.st
                      blk := if rest = [] then acc else pr.blk, since := beatNow s } s1
  | _ => s

/-- A sample has decoded: at margin it queues its course (R256). -/
def sampleDone (i : Nat) (margin : Bool) (s : State) : State :=
  let r := getRd s i
  dropRd i (if margin then atMargin r.ch r.lun r.brick s else s)

/-- A decoder finishes a codeword (R231). -/
def decodeDone (i : Nat) (d : DecodeResult) (s : State) : State :=
  let r := getRd s i
  if r.st ≠ .fetched then s
  else
    let hard := decide (r.step ≤ 1)
    let s1 := if 1 < d.waitedBeats then oncePerFrame 1002 (happen baseLdpc 3) s else s
    let s2 := if hard then addThousand remHardCw F.LDPC_HARD_CW_COUNT 1 s1 else s1
    if d.ok then
      let margin := decide (getF s F.LDPC_CFG_MARGIN ≤ d.corrected)
      let s3 := if margin then atMargin r.ch r.lun r.brick (addF F.LDPC_MARGIN_HITS_COUNT 1 s2) else s2
      let b := tget blk0 s.map.flash (flashKey r.ch r.lun r.brick r.u r.t)
      match r.kind with
      | .source _ => sourceDone i b s3
      | .sample => sampleDone i margin s3
      | _ => setRd i { getRd s3 i with st := .decoded, blk := b, since := beatNow s } s3
    else climb i (if hard then addF F.LDPC_HARD_FAIL_COUNT 1 s2 else s2)

/-! ## The MAC check -/

/-- A block recovered above the first read is counted by its step (R242). -/
def countStep (r : Rd) (s : State) : State :=
  match r.step with
  | 1 => addF F.LDPC_STEP1_OK_COUNT 1 s
  | 2 => addF F.LDPC_STEP2_OK_COUNT 1 s
  | 3 => addF F.LDPC_STEP3_OK_COUNT 1 s
  | 4 => addF F.LDPC_STEP4_OK_COUNT 1 s
  | _ => s

/-- The slot a relocation brings its blocks into (R247). -/
def relocSlot (s : State) (r : Rd) : Option Nat :=
  (s.map.slots.find? (fun p => p.2.reloc && decide (p.2.old = r.entry))).map (·.1)

def piStatus (p : PiError) : Sts :=
  match p with
  | .guard => stGuard
  | .appTag => stAppTag
  | .refTag => stRefTag

/-- The metadata a deallocated block reads with (R236): none or zero without protection information; with the 16b Guard
of LBAF 1 the CRC of zeroes, which is 0, and all ones; LBAF 2 allows several layouts, which the namespace's format
chose (log 21). -/
def deallocMeta (s : State) (nsid : Nat) : Nat :=
  match (getNs s nsid).lbaf with
  | 0 => 0
  | 1 => 0xFFFFFFFFFFFF0000
  | _ => (Config.deallocMeta nsid).toNat

/-- A block of a read leaves for the host: its data and metadata, zeroes where it is deallocated (R236); its protection
information is checked first (R101). -/
def sendBlock (r : Rd) (s0 : State) : State :=
  let c := getCmd s0 r.cmd
  let s := setCmd r.cmd { c with st := .working } s0
  if (blkTag r.blk).kind = kindDealloc then toHost (.block c.h.fn c.h.cid r.lba 0 (deallocMeta s r.nsid)) s
  else toHost (.block c.h.fn c.h.cid r.lba (blkData r.blk) (blkMeta r.blk)) s

/-- A tag is formed. -/
def tagFormed (s : State) : State := addThousand remFormed F.MAC_TAGS_FORMED_COUNT 1 s

/-- What a verified block does (R20, R198, R236, R238, R247). -/
def verified (i : Nat) (pi : Option PiError) (s : State) : State :=
  let r := getRd s i
  let k := (blkTag r.blk).kind
  match r.kind with
  | .host =>
    if k = kindLost then dropRd i (blockDone r.cmd r.lba (some stUnrecovered) s)
    else match pi with
      | some p => dropRd i (blockDone r.cmd r.lba (some (piStatus p)) s)
      | none => dropRd i (blockDone r.cmd r.lba none (sendBlock r s))
  | .verify =>
    endIfDone r.cmd (dropRd i (blockDone r.cmd r.lba
      (if k = kindLost then some stUnrecovered else pi.map piStatus) s))
  | .audit => endIfDone r.cmd (dropRd i (noteTag r.cmd r.lba (blkRes r.blk 0 r.entry) s))
  | .tags => endIfDone r.cmd (dropRd i (noteTag r.cmd r.lba (blkRes r.blk 0 r.entry) s))
  | .fill x => dropRd i (fillSlot x r.t (copyBlk s (getSlot s x) r.blk) (tagFormed s))
  | .fold x => dropRd i (fillSlot x r.t (copyBlk s (getSlot s x) r.blk) (tagFormed s))
  | .reloc =>
    match relocSlot s r with
    | some x => dropRd i (fillSlot x r.t (copyBlk s (getSlot s x) r.blk) (tagFormed s))
    | none => dropRd i s
  | _ => dropRd i s

/-- A block whose version's key is erased is not verified (R319): for the host it is Integrity Unverifiable, a fill cannot
recover it (R198), and the Trowel moves it raw (R321). -/
def unverifiable (i : Nat) (s : State) : State :=
  let r := getRd s i
  let s1 := addF F.MAC_UNVERIFIABLE_COUNT 1 s
  match r.kind with
  | .host => dropRd i (blockDone r.cmd r.lba (some stUnverifiable) s1)
  | .verify => endIfDone r.cmd (dropRd i (blockDone r.cmd r.lba (some stUnverifiable) s1))
  | .audit => endIfDone r.cmd (dropRd i (noteTag r.cmd r.lba { tagRes0 with res := 2, mapB := mapByte r.entry } s1))
  | .tags => endIfDone r.cmd (dropRd i (noteTag r.cmd r.lba (blkRes r.blk 2 r.entry) s1))
  | .fill k => dropRd i (fillLost k r.t (blocksLost r.nsid r.lba 1 0x06 s))
  | _ => dropRd i s

/-- The check of a block ends (R308, R233): a failure is a failed decode at its step; one whose block came from the
yard has no die to read again. -/
def macCheck (i : Nat) (pi : Option PiError) (s : State) : State :=
  let r := getRd s i
  let direct := entYard r.entry || decide (r.step = 4)
  if !(decide (r.st = .checked) || (decide (r.st = .decoded) && direct)) || !readSideUp s then s
  else if keyGone s (4 * r.tile + entKver r.entry) then unverifiable i s
  else if (if s.mac.bound.contains i then
      hdrOk r.tile r.nsid r.lba (entKver r.entry) r.blk
        && macUnder (tget (fun _ => 0) s.mac.old (4 * r.tile + entKver r.entry)) r.blk
    else blkOk s r.tile r.nsid r.lba (entKver r.entry) r.blk) then
    verified i pi (recordSet r (countStep r (addThousand remChecked F.MAC_TAGS_CHECKED_COUNT 1 s)))
  else
    let s1 := addF F.MAC_TAG_FAIL_COUNT 1 (addF F.LDPC_MAC_FAIL_COUNT 1 (happen baseLdpc 1 s))
    if entYard r.entry then rdFail i s1 else climb i s1

/-- VERIFY and RETAG take decoded blocks into the read side; the entry says whether a key was erased or a block failed
(R312). -/
def macEntry (p idx op : Nat) (rds : List Nat) (s : State) : State :=
  onEntry (.mac p) idx op (fun e t =>
    let l := (rds.filter (fun i => hasRd t i && decide ((getRd t i).st = .decoded) && decide ((getRd t i).ch = eCh e.e))).take
      (eCount e.e)
    let gone := l.any (fun i => decide (keyState t (4 * e.e.tile + entKver (getRd t i).entry) = keyErased))
    let due := l.any (fun i => t.mac.eraseDue.contains (4 * e.e.tile + entKver (getRd t i).entry))
    let bad := l.any (fun i => let r := getRd t i; !blkOk t r.tile r.nsid r.lba (entKver r.entry) r.blk)
    retire (.mac p) idx (if due then 3 else if gone then 4 else if bad then 2 else 1) (l.foldl (fun x i => rdTo i .checked x) t)) s

/-- RETAG also gives the slot the blocks go to the version NEWVER (R312, R320). -/
def retagVersions (p idx : Nat) (rds : List Nat) (s : State) : State :=
  match entryAt s (.mac p) idx 2 with
  | none => s
  | some e =>
    rds.foldl (fun t i =>
      match relocSlot t (getRd t i) with
      | some k =>
        let x := getSlot t k
        if hasRd t i ∧ x.present = 0 then setSlot k { x with kver := eNewVer e.e } t else t
      | none => t) s

/-- The slot that a raw move brings a block into: of a relocation, or of the fold of a pallet. -/
def rawSlot (s : State) (r : Rd) : Option Nat :=
  match r.kind with
  | .reloc => relocSlot s r
  | .fold k => some k
  | _ => none

/-- RAW passes blocks unchecked into their slot, tag and MAC unchanged, for a move under an erased version (R321). -/
def rawEntry (p idx : Nat) (s : State) : State :=
  onEntry (.mac p) idx 3 (fun e t =>
    let l := ((t.map.rds.filter (fun x => (rawSlot t x.2).isSome && decide (x.2.st = .decoded)
      && decide (x.2.ch = eCh e.e)
      && decide (keyState t (4 * x.2.tile + entKver x.2.entry) = keyErased))).map (·.1)).take (eCount e.e)
    retire (.mac p) idx 1 (l.foldl (fun x i =>
      match rawSlot x (getRd x i) with
      | some k => dropRd i (fillSlot k (getRd x i).t (getRd x i).blk
          (setSlot k { getSlot x k with kver := entKver (getRd x i).entry } x))
      | none => x) t)) s

def execLdpcDecodeDone (rd : Nat) (r : DecodeResult) (s : State) : Res :=
  .next (if hasRd s rd then decodeDone rd r s else s)
def execMacCheckDone (rd : Nat) (pi : Option PiError) (s : State) : Res :=
  .next (if hasRd s rd then macCheck rd pi s else s)
def execVerifyEntry (p idx : Nat) (rds : List Nat) (s : State) : Res := .next (macEntry p idx 1 rds s)
def execRetag (p idx : Nat) (rds : List Nat) (s : State) : Res := .next (macEntry p idx 2 rds (retagVersions p idx rds s))
def execRaw (p idx : Nat) (s : State) : Res := .next (rawEntry p idx s)

end Sys2Proof.Machine
end

