-- ==== Sys2Proof/Machine/Commit.lean ====
section
/-!
DEFINITION. Machine/Commit.lean: what comes about when a plan is committed (R35): die-time charges (R73 to R77), the
marks of relocations (R247), the reads of fills and folds (R198, R202), and completions taken into a plan (R290).
-/

namespace Sys2Proof.Machine

/-! ## Die time -/

/-- The entries of one independent-plane read that entry `i` belongs to (R225): an entry and those after it with JOIN
set. -/
def joinStart (ents : List PlanEntry) : Nat → Nat
  | 0 => 0
  | i + 1 =>
    match ents[i + 1]? with
    | some e => if e.join then joinStart ents i else i + 1
    | none => i + 1

def joinLength (ents : List PlanEntry) (i : Nat) : Nat :=
  1 + ((ents.drop (joinStart ents i + 1)).takeWhile (·.join)).length

/-- The nominal program time of a cell mode, in beats. -/
def progNom (s : State) (ch cell : Nat) : Nat :=
  getF s (match cell with
    | 0 => F.FCH_PROF_SLC_NOM ch
    | 1 => F.FCH_PROF_TLC_NOM ch
    | 2 => F.FCH_PROF_QLC_NOM ch
    | _ => F.FCH_PROF_PLC_NOM ch)

/-- The longest program of a cell mode before status 0x4, in beats. -/
def progMax (s : State) (ch cell : Nat) : Nat :=
  getF s (match cell with
    | 0 => F.FCH_PROF_SLC_MAX ch
    | 1 => F.FCH_PROF_TLC_MAX ch
    | 2 => F.FCH_PROF_QLC_MAX ch
    | _ => F.FCH_PROF_PLC_MAX ch)

/-- The nominal busy time of an entry in slots (R73): a joined read is charged once, shared and rounded up (R225). -/
def nominal (s : State) (ch : Nat) (ents : List PlanEntry) (i : Nat) (e : PlanEntry) : Nat :=
  match e.op with
  | 1 => let n := joinLength ents i; (getF s (F.FCH_PROF_READ_TR ch) + n - 1) / n
  | 2 => if eParam e = 3 then getF s (F.FCH_PROF_SOFT_SR3 ch) else getF s (F.FCH_PROF_SOFT_SR2 ch)
  | 3 => 64 * progNom s ch (eCell e)
  | 4 => 64 * getF s (F.FCH_PROF_ERASE_NOM ch)
  | _ => 0

/-- The account of an entry (R73): the Trowel's budget (64) for class background, else as the writer says. -/
def accountOf (e : PlanEntry) (a : Option Account) : Nat :=
  if e.cls = 3 then 64
  else match a with
    | some (.tile t) => t % 64
    | some .trowel => 64
    | none => e.tile % 64

/-- The key of a charge: the frame the entry runs in, by parity, the account and the LUN (R74). -/
def chargeKey (beat acct ch lun : Nat) : Nat := beat / 64 % 2 * 2 ^ 18 + acct * 2048 + lunKey ch lun

/-- A tile's share on a LUN: half where a surviving planner plans the channel (R78). -/
def shareOn (s : State) (t ch : Nat) : Nat :=
  let n := getF s (F.TILE_DIE_SHARE_SHARE t)
  if s.beat.failed.contains (ch / 4) then n / 2 else n

/-- An entry outside its account's share: borrowed time of a tile, or Trowel work beyond its budget. -/
def outside (s : State) (acct ch total : Nat) : Bool :=
  if acct = 64 then decide (getF s F.TROWEL_BUDGET_SHARE < total) else decide (shareOn s acct ch < total)

/-- The charge of one entry, with the counters of guaranteed, borrowed and over-budget time and the round robin's
credit (R73, R75, R88, R244). -/
def chargeEntry (beat ch lun acct cost : Nat) (urgent : Bool) (s : State) : State :=
  let key := chargeKey beat acct ch lun
  let total := tget zeroD s.tiles.charge key + cost
  let s1 := { s with tiles := { s.tiles with charge := tset zeroD key total s.tiles.charge } }
  if cost = 0 then s1
  else if acct = 64 then
    if outside s acct ch total && urgent then addThousand remOver F.TROWEL_OVER_BUDGET_COUNT cost s1 else s1
  else if outside s acct ch total then
    addThousand (remBorrow acct) (F.TILE_DIE_BORROW_COUNT acct) cost
      { s1 with tiles := { s1.tiles with
          credit := tset zeroD acct (tget zeroD s1.tiles.credit acct - cost) s1.tiles.credit
          demand := insertNat acct s1.tiles.demand } }
  else addThousand (remGuar acct) (F.TILE_DIE_GUAR_COUNT acct) cost s1

/-! ## Copies into yard slots -/

/-- The location and blocks a READ_PAGE or READ_SOFT names: MU position and block numbers (R184, R189). -/
def readBlocks (s : State) (e : PlanEntry) : Nat × List Nat :=
  let q := ePage e * planes s
  let l := (List.range (planes s)).filter (fun p => decide (bitsOf (eMask e) p 1 = 1))
  let u := (q + (l.head?.getD 0)) / 4
  (u, (List.range 16).filter (fun t =>
    decide ((4 * u + t / 4) / planes s = ePage e) && l.contains ((4 * u + t / 4) % planes s)))

/-- The flash address of an entry's MU in the format of a map entry, whatever its KVER and STATE. -/
def sameMu (e : Ent) (ch lun b u : Nat) : Bool :=
  onFlash e && decide (entCh e = ch) && decide (entLun e = lun) && decide (entBrick e = b) && decide (entU e = u)

/-- Reads of the blocks of an MU, one each. -/
def startReads (kind : RdKind) (tile nsid lba : Nat) (ent : Ent) (ts : List Nat) (s : State) : State :=
  ts.foldl (fun t k =>
    (newRd { rd0 with kind := kind, nsid := nsid, lba := lba + k, tile := tile, beat := beatNow s, entry := ent
                      ch := entCh ent, lun := entLun ent, brick := entBrick ent, u := entU ent, t := k, st := .waiting
                      since := beatNow s } t).2) s

/-- The MU that the blocks at a flash location say they belong to (R193): namespace and first LBA. -/
def muAt (s : State) (ch lun b u : Nat) : Option (Nat × Nat) :=
  let h := blkTag (tget blk0 s.map.flash (flashKey ch lun b u 0))
  if tget blk0 s.map.flash (flashKey ch lun b u 0) = 0 then none else some (h.ns + 1, h.lba)

/-- R247 step 1: a relocation's first read is committed; its entry goes to STATE 11 where it still holds STATE 01 and
names the source, and a slot takes the copy.  Later reads of the same MU join it. -/
def startReloc (slot ch lun b u : Nat) (ts : List Nat) (s : State) : State :=
  let x := getSlot s slot
  if x.reloc ∧ sameMu x.old ch lun b u then
    startReads .reloc x.tile x.nsid x.lba x.old (ts.filter (fun t => !present x t)) s
  else if slotOpen s slot then
    match muAt s ch lun b u with
    | none => s
    | some (nsid, lba) =>
      let m := muOf s nsid lba
      let e := getEnt s m.1 m.2
      if nsExists s nsid ∧ sameMu e ch lun b u ∧ entState e = stMapped then
        let e1 := withState e stReloc
        let t := (getNs s nsid).tile
        let s1 := putEnt m.1 m.2 e1 s
        notePeak (startReads .reloc t nsid lba e1 ts (setSlot slot
          { slot0 with st := .filling, tile := t, nsid := nsid, lba := lba, line := m.1, idx := m.2
                       kver := curVer s t, old := e1, reloc := true } s1))
      else s
  else s

/-- A fold reads a pallet's MU back into a new slot, which the map then names (R202). -/
def startFold (slot ch lun b u : Nat) (ts : List Nat) (s : State) : State :=
  match muAt s ch lun b u with
  | none => s
  | some (nsid, lba) =>
    let m := muOf s nsid lba
    let e := getEnt s m.1 m.2
    if nsExists s nsid ∧ sameMu e ch lun b u ∧ entState e = stMapped ∧ slotOpen s slot then
      let t := (getNs s nsid).tile
      let z := getZone s nsid (lba / zsze s)
      let keep := if (getNs s nsid).zoned then
          ts.filter (fun k => decide (lba % zsze s + k < z.wp)) else ts
      let s1 := setSlot slot
        { slot0 with st := .filling, tile := t, nsid := nsid, lba := lba, line := m.1, idx := m.2, kver := curVer s t
                     old := e } s
      notePeak (addF F.COURSE_FOLD_MUS_COUNT 1 (startReads (.fold slot) t nsid lba e keep
        (mapYard m.1 m.2 slot (curVer s t) s1)))
    else s

def isWrite (k : CmdKind) : Bool := decide (k = .write ∨ k = .append ∨ k = .writeZeroes)

/-- A write that is admitted will bring block `t` of slot `k`. -/
def claimed (s : State) (k t : Nat) : Bool :=
  let x := getSlot s k
  s.host.cmds.any (fun p => isWrite p.2.kind && decide (p.2.st = .started) && p.2.slots.contains k
    && decide (p.2.slba ≤ x.lba + t) && decide (x.lba + t < p.2.slba + p.2.nlb))

/-- The blocks a fill reads (R198): the absent ones, and in a zoned namespace only those below the write pointer. -/
def fillBlocks (s : State) (k : Nat) (ts : List Nat) : List Nat :=
  let x := getSlot s k
  ts.filter (fun t => !present x t && !claimed s k t &&
    (!(getNs s x.nsid).zoned || decide (x.lba % zsze s + t < (getZone s x.nsid (x.lba / zsze s)).wp)))

/-- A READ_PAGE or READ_SOFT with a yard slot: a fill, a fold or a relocation, by what the slot and the course are. -/
def startCopy (ch : Nat) (e : PlanEntry) (s : State) : State :=
  let lun := eLun e
  let b := eBrick e
  let (u, ts) := readBlocks s e
  let x := getSlot s (eYard e)
  if x.st = .filling ∧ ¬ x.reloc ∧ sameMu x.old ch lun b u then
    addF F.COURSE_MERGES_COUNT 1
      (startReads (.fill (eYard e)) x.tile x.nsid x.lba x.old (fillBlocks s (eYard e) ts) s)
  else match courseOf s ch lun b with
    | some c =>
      if (getCourse s c).use = .pallet then startFold (eYard e) ch lun b u ts s
      else startReloc (eYard e) ch lun b u ts s
    | none => s

/-! ## Deadlines -/

/-- The reads that an entry would launch in a beat: those looked up at least two beats before it (R222, R233). -/
def waitingAt (s : State) (beat ch : Nat) (e : PlanEntry) : List Nat :=
  let (u, ts) := readBlocks s e
  (s.map.rds.filter (fun p => decide (p.2.st = .waiting) && decide (p.2.since + 2 ≤ beat) && decide (p.2.sources = []) && decide (p.2.ch = ch)
    && decide (p.2.lun = eLun e) && decide (p.2.brick = eBrick e) && decide (p.2.u = u) && ts.contains p.2.t
    && (if e.op = 2 then decide (p.2.step = eParam e) else decide (p.2.step ≤ 1)))).map (·.1)

/-- The operation on the LUN has run past its nominal duration (R229). -/
def pastNominal (s : State) (ch lun : Nat) (op : Option DieOp) : Bool :=
  match op with
  | some o =>
    (match o.kind with
     | .program => decide (o.beat + progNom s ch o.cell < beatNow s)
     | .erase => decide (o.beat + getF s (F.FCH_PROF_ERASE_NOM ch) < beatNow s)
     | _ => false) && decide (lun < 64)
  | none => false

def lun0 : Lun := { op := none, susp := none, loads := [], sensed := [] }
def lunD (_ : Nat) : Lun := lun0
def getLun (s : State) (ch lun : Nat) : Lun := tget lunD s.map.luns (lunKey ch lun)
def setLun (ch lun : Nat) (v : Lun) (s : State) : State :=
  { s with map := { s.map with luns := tset lunD (lunKey ch lun) v s.map.luns } }

/-- A READ_PAGE that no read waits for at its place, and that reads a course-mate of a host read whose LUN is busy and not
lost: the planner has chosen read-around for that read (R229 cases 2 and 3, R234). -/
def chosenFor (s : State) (beat ch : Nat) (e : PlanEntry) : Option Nat :=
  if e.op ≠ 1 ∨ waitingAt s beat ch e ≠ [] then none
  else
    let (u, ts) := readBlocks s e
    (s.map.rds.find? (fun p => decide (p.2.st = .waiting) && decide (p.2.kind = .host) && decide (p.2.step = 0)
      && decide (p.2.sources = []) && decide (p.2.since + 2 ≤ beat) && decide (p.2.u = u) && ts.contains p.2.t
      && !lunLost s p.2.ch p.2.lun && (getLun s p.2.ch p.2.lun).op.isSome
      && (match sourcesOf s p.2 with
          | some l => l.any (isBrick ch (eLun e) (eBrick e))
          | none => false))).map (·.1)

/-- The beats that a throttle level adds to the bound of a read: its place among those that wait on its channel under the
level's die cap, and one at T2 and T3 (R441). -/
def levelGrace (s : State) (r : Rd) : Nat :=
  let k := getF s F.KILN_STATUS_LEVEL
  let cap := (levelCap s k).getD 0
  let u := (s.map.rds.filter (fun p => decide (p.2.st = .waiting) && decide (p.2.ch = r.ch) && decide (p.2.deadline ≠ 0)
    && decide (p.2.deadline ≤ r.deadline) && decide (p.2.beat + p.2.deadline ≤ r.beat + r.deadline))).length
  if cap = 0 then 0 else (u + cap - 1) / cap - 1 + (if 2 ≤ k then 1 else 0)

/-- A read planned after its deadline is counted (R77, R229, R239, R441): inside the share, with no operation past its
nominal duration and no throttle limit to blame, SHARE_MISS is set too. -/
def noteLate (s0 : State) (beat : Nat) (l : List Nat) (tile ch lun : Nat) (out : Bool) (s : State) : State :=
  let late := l.filter (fun i =>
    let r := getRd s0 i
    decide (r.step = 0) && decide (r.deadline ≠ 0) && decide (r.beat + r.deadline < beat))
  if late = [] then s
  else
    let t := tile % 64
    let s1 := addF (F.TILE_DIE_DEFER_COUNT t) 1 { s with trowel := { s.trowel with dieDefer := bumpT t s.trowel.dieDefer } }
    let s2 := if getF s F.KILN_STATUS_LEVEL = 0 then s1 else addF F.KILN_DEFERRED_COUNT late.length s1
    if out then s2
    else if pastNominal s ch lun (getLun s ch lun).op then
      happen (baseFch ch) 5 (addF (F.FCH_SUS_EXHAUSTED_COUNT ch) 1 s2)
    else if late.any (fun i => decide ((getRd s0 i).beat + (getRd s0 i).deadline + levelGrace s0 (getRd s0 i) < beat)) then
      happenTile t 4 s2
    else s2

/-- Read-around is chosen for the sake of latency. -/
def chooseAround (i : Nat) (s : State) : State :=
  readAround i (happen (baseFch (getRd s i).ch) 7 (addF F.LDPC_RA_LATENCY_COUNT 1 s))

/-! ## The commit -/


/-- A read command starts when die work of it is committed (R120). -/
def readStarts (i : Nat) (s : State) : State :=
  let c := getCmd s i
  if hasCmd s i ∧ c.st = .fetched then setCmd i { c with st := .started } s else s

/-- A channel entry is committed. -/
def commitFch (ch beat : Nat) (ents : List PlanEntry) (i : Nat) (e : PlanEntry) (a : Option Account) (s : State) :
    PEnt × State :=
  if dieStarting e.op then
    let acct := accountOf e a
    let cost := nominal s ch ents i e
    let key := chargeKey beat acct ch (eLun e)
    let out := outside s acct ch (tget zeroD s.tiles.charge key + cost)
    let s1 := chargeEntry beat ch (eLun e) acct cost (decide (e.cls ≠ 3)) s
    let away := out && decide (acct < 64)
    let s2 := if e.op ≤ 2 then noteLate s beat (waitingAt s beat ch e) e.tile ch (eLun e) away s1 else s1
    let s3 := if e.op ≤ 2 ∧ eYardValid e ∧ mapOpen s then startCopy ch e s2
      else if e.op ≤ 2 then
        match chosenFor s beat ch e with
        | some i =>
          let r := getRd s i
          chooseAround i (readStarts r.cmd (noteLate s beat [i] r.tile r.ch r.lun away s2))
        | none => (waitingAt s beat ch e).foldl (fun t j => readStarts (getRd t j).cmd t) s2
      else s2
    ({ e := e, code := 0, retired := false, acct := key, charge := cost, borrowed := out && decide (acct < 64) }, s3)
  else ({ e := e, code := 0, retired := false, acct := 0, charge := 0, borrowed := false }, s)

/-- The blocks of a slot that a command's LBA range covers. -/
def cmdMask (c : Cmd) (x : Slot) : BitVec 16 :=
  (List.range 16).foldl (fun m t =>
    if x.nsid = c.h.nsid ∧ c.slba ≤ x.lba + t ∧ x.lba + t < c.slba + c.nlb then m ||| BitVec.ofNat 16 (2 ^ t) else m) 0

/-- A completion is committed to a plan: the blocks of a write are acknowledged from now on (R116, R290). -/
def commitPost (e : PlanEntry) (s : State) : State :=
  let i := eCmd e
  let c := getCmd s i
  if (e.op = 1 ∨ e.op = 2) ∧ hasCmd s i ∧ c.st = .ready ∧ c.h.fn = eFn e then
    let s1 := setCmd i { c with planned := true } s
    (s.map.slots.filter (fun p => decide (p.2.nsid = c.h.nsid) && !p.2.reloc)).foldl (fun t p =>
      let x := getSlot t p.1
      if c.kind = .write ∨ c.kind = .append ∨ c.kind = .writeZeroes then
        setSlot p.1 { x with acked := x.acked ||| (cmdMask c x &&& x.present) } t
      else t) s1
  else s

/-- A plain plan entry. -/
def plainEnt (e : PlanEntry) : PEnt := { e := e, code := 0, retired := false, acct := 0, charge := 0, borrowed := false }

/-- The entries of a plan in their buffer, and what committing them brings about. -/
def commitAll (u : PlanUnit) (beat : Nat) (ents : List PlanEntry) (accts : List Account) (s : State) : List PEnt × State :=
  match u with
  | .fch ch =>
    (List.range ents.length).foldl (fun (acc : List PEnt × State) i =>
      match ents[i]? with
      | some e =>
        let (p, t) := commitFch ch beat ents i e accts[i]? acc.2
        (acc.1 ++ [p], t)
      | none => acc) ([], s)
  | .poster _ => (ents.map plainEnt, ents.foldl (fun t e => commitPost e t) s)
  | _ => (ents.map plainEnt, s)

/-- A planner commits no channel plan beyond its die cap (R438). -/
def capKept (s : State) (u : PlanUnit) (beat : Nat) (ents : List PlanEntry) : Bool :=
  match u with
  | .fch _ => withinCap s beat ents
  | _ => true

/-- PLAN_COMMIT (R35): the header word of the open buffer, with VALID and TARGET_BEAT, by the unit's writer; a buffer
that is not open, or another writer's, drops the write (R34, R36); once a grout
sequencer plans the channels no writer does (R285). -/
def planCommit (u : PlanUnit) (writer target : Nat) (ents : List PlanEntry) (accts : List Account) (s : State) : State :=
  if !capKept s u (beatNow s + 2) ents || s.grout.frozen then s
  else if openBuf s target ∧ writer = writerOf s u ∧ running s then
    let (ps, s1) := commitAll u (beatNow s + 2) ents accts s
    setBuf u target { target := target % 2 ^ 32, valid := true, held := false, invalid := false, done := false
                      writer := writer, ents := ps } s1
  else closedWrite true s

def execPlanCommit (u : PlanUnit) (writer target : Nat) (entries : List PlanEntry) (accts : List Account) (s : State) : Res :=
  .next (planCommit u writer target entries accts s)

end Sys2Proof.Machine
end

