-- ==== Sys2Proof/Machine/Die.lean ====
section
/-!
DEFINITION. Machine/Die.lean: the flash channel's plan entries (R39, R40, R224 to R228, R57, R58) and the ends of die
operations (R203, R259, R260, R262).
-/

namespace Sys2Proof.Machine

/-! ## Launching -/

/-- The gate of a die-starting entry (R40, R57): skipped with 0x6 outside the background windows, with 0x2 on a busy
LUN; else launched. -/
def launch (ch idx : Nat) (p : PEnt) (free : Bool) (go : State → State) (s : State) : State :=
  if p.e.cls = 3 ∧ ¬ bgBeat s then retire (.fch ch) idx 6 s
  else if !free && (getLun s ch (eLun p.e)).op.isSome then retire (.fch ch) idx 2 s
  else retire (.fch ch) idx 1 (go s)

/-- The die operation that an entry starts. -/
def opOf (s : State) (kind : DieKind) (p : PEnt) : DieOp :=
  { kind := kind, targets := [(eBrick p.e, ePage p.e, eMask p.e)], cell := eCell p.e, param := eParam p.e
    tile := p.e.tile, bg := decide (p.e.cls = 3), borrowed := p.borrowed, beat := beatNow s, slot := p.e.slot
    susUsed := 0, susBeat := 0 }

def startOp (ch : Nat) (p : PEnt) (kind : DieKind) (s : State) : State :=
  setLun ch (eLun p.e) { getLun s ch (eLun p.e) with op := some (opOf s kind p) } s

/-- The reads an entry launches are on the die from now on; the brick's read is counted (R231, R255). -/
def launchReads (ch : Nat) (e : PlanEntry) (s : State) : State :=
  let l := waitingAt s (beatNow s) ch e
  addThousand (remReads ch) (F.FCH_READS_COUNT ch) 1
    (countRead1 ch (eLun e) (eBrick e) (l.foldl (fun t i => rdTo i .launched t) s))

/-- A joined read senses with the READ_PAGE before it (R225). -/
def joinRead (ch : Nat) (p : PEnt) (s : State) : State :=
  let x := getLun s ch (eLun p.e)
  match x.op with
  | some o => setLun ch (eLun p.e) { x with op := some { o with
      targets := o.targets ++ [(eBrick p.e, ePage p.e, eMask p.e)] } } s
  | none => startOp ch p .read s

/-- The LUN's operation is the read that this entry joins. -/
def joins (s : State) (ch : Nat) (p : PEnt) : Bool :=
  p.e.join && (match (getLun s ch (eLun p.e)).op with
    | some o => decide (o.kind = .read) && decide (o.beat = beatNow s) && decide (o.slot = p.e.slot)
    | none => false)

def readPageDo (ch idx : Nat) (s : State) : State :=
  onEntry (.fch ch) idx 1 (fun p t =>
    if joins t ch p then launch ch idx p true (fun x => launchReads ch p.e (joinRead ch p x)) t
    else launch ch idx p false (fun x => launchReads ch p.e (startOp ch p .read x)) t) s

def readSoftDo (ch idx : Nat) (s : State) : State :=
  onEntry (.fch ch) idx 2 (fun p t => launch ch idx p false (fun x => launchReads ch p.e (startOp ch p .soft x)) t) s

def programDo (ch idx : Nat) (s : State) : State :=
  onEntry (.fch ch) idx 3 (fun p t => launch ch idx p false (startOp ch p .program) t) s

/-- A brick may be erased now: of a handed-over course under the fence, of no course, or of a used grout set (R259,
R283, R295). -/
def mayErase (s : State) (ch lun b : Nat) : Bool :=
  match courseOf s ch lun b with
  | none => true
  | some c => fenceOpen s c || (decide (roleOf c = 3) && decide ((getCourse s c).use = .none))

/-- ERASE (R259): the course is under erase from its first brick on. -/
def eraseDo (ch idx : Nat) (s : State) : State :=
  onEntry (.fch ch) idx 4 (fun p t =>
    if mayErase t ch (eLun p.e) (eBrick p.e) then
      launch ch idx p false (fun x =>
        let y := startOp ch p .erase x
        match courseOf x ch (eLun p.e) (eBrick p.e) with
        | some c => if (getCourse y c).st = .toErase then setCourse c { getCourse y c with st := .erasing } y else y
        | none => y) t
    else t) s

/-- An operation may be suspended once more (R227, R228). -/
def suspendable (s : State) (ch : Nat) (o : DieOp) : Bool :=
  match o.kind with
  | .program => decide (o.cell ≠ 0) && decide (o.susUsed < getF s (F.FCH_PROF_SUS_PROG_MAX ch))
  | .erase => decide (o.susUsed < getF s (F.FCH_PROF_SUS_ERASE_MAX ch))
  | _ => false

/-- The LUN's operation is suspended. -/
def suspendOp (ch lun : Nat) (o : DieOp) (s : State) : State :=
  let x := getLun s ch lun
  addF (F.FCH_SUSPENDS_COUNT ch) 1 (setLun ch lun
    { x with op := none, susp := some { o with susUsed := o.susUsed + 1, susBeat := beatNow s } } s)

/-- SUSPEND, only at slot 0 of a beat (R228). -/
def suspendDo (ch idx : Nat) (s : State) : State :=
  onEntry (.fch ch) idx 5 (fun p t =>
    retire (.fch ch) idx 1 (match (getLun t ch (eLun p.e)).op with
      | some o => if p.e.slot = 0 ∧ suspendable t ch o then suspendOp ch (eLun p.e) o t else t
      | none => t)) s

/-- RESUME: the operation's STATUS moves later by the beats it spent suspended (R228). -/
def resumeDo (ch idx : Nat) (s : State) : State :=
  onEntry (.fch ch) idx 6 (fun p t => launch ch idx p false (fun y =>
    let x := getLun y ch (eLun p.e)
    match x.susp with
    | some o => setLun ch (eLun p.e)
        { x with op := some { o with beat := o.beat + (beatNow y - o.susBeat) }, susp := none } y
    | none => y) t) s

def resetLunDo (ch idx : Nat) (s : State) : State :=
  onEntry (.fch ch) idx 0x0B (fun p t => launch ch idx p false (startOp ch p .reset) t) s

/-! ## The end of a die operation -/

/-- The loaded plane-pages are programmed: each holds four blocks of its slot's MU (R184, R189). -/
def writeLoads (ch lun b : Nat) (loads : List (Nat × Nat)) (s : State) : State :=
  loads.foldl (fun t l =>
    let x := getSlot t l.2
    (List.range 4).foldl (fun y i =>
      let k := l.1 % 4 * 4 + i
      { y with map := { y.map with flash := tset blk0 (flashKey ch lun b (l.1 / 4) k) (slotBlk x k) y.map.flash } }) t) s

/-- A program has returned done: the pages are on flash, and the context that counts this channel's program marks the
brick (R190, R191). -/
def programDone (ch lun b : Nat) (s : State) : State :=
  let x := getLun s ch lun
  let s1 := writeLoads ch lun b x.loads (setLun ch lun { x with loads := [] } s)
  let s2 := setBrick (brickKey ch lun b) { getBrick s1 (brickKey ch lun b) with lastProg := beatNow s } s1
  match courseOf s ch lun b with
  | none => s2
  | some c =>
    let s3 := setCourse c { getCourse s2 c with lastProg := beatNow s } s2
    match s3.map.ctxs.find? (fun p => decide (p.2.course = c) && p.2.armed.contains ch
        && (decide (p.2.kind = .wave) || decide (p.2.kind = .rebuild))), posOf s c ch lun b with
    | some p, some k => setCtx p.1 { p.2 with done := insertNat k p.2.done, doneBeat := beatNow s } s3
    | _, _ => s3

/-- An erase has returned done: the brick is empty, its erase count one higher and its read count 0 (R259). -/
def eraseDone (ch lun b : Nat) (s : State) : State :=
  let k := brickKey ch lun b
  let x := getBrick s k
  let s1 := setBrick k { x with erases := x.erases + 1, reads := 0 }
    { s with map := { s.map with flash := s.map.flash.filter (fun p => decide (p.1 / 65536 ≠ k))
                                 sets := terase k s.map.sets } }
  match courseOf s ch lun b with
  | none => noteWear s1
  | some c => noteWear (courseErased c (setCourse c
      { getCourse s1 c with erasedBricks := insertNat k (getCourse s1 c).erasedBricks } s1))

/-- The reads on a LUN. -/
def launchedOn (s : State) (ch lun : Nat) : List Nat :=
  (s.map.rds.filter (fun p => decide (p.2.st = .launched) && decide (p.2.ch = ch) && decide (p.2.lun = lun))).map (·.1)

/-- A read that failed or timed out counts as a failed decode at its step (R224). -/
def readsFail (ch lun : Nat) (s : State) : State := (launchedOn s ch lun).foldl (fun t i => climb i t) s

/-- The operation of a LUN ends done. -/
def opDone (ch lun : Nat) (o : DieOp) (s : State) : State :=
  let x := getLun s ch lun
  let s1 := { setLun ch lun { x with op := none } s with
    trowel := { s.trowel with timeouts := terase (lunKey ch lun) s.trowel.timeouts } }
  let b := (o.targets.head?.map (·.1)).getD 0
  match o.kind with
  | .read => setLun ch lun { x with op := none, sensed := o.targets } s1
  | .soft => setLun ch lun { x with op := none, sensed := o.targets } s1
  | .program => programDone ch lun b s1
  | .erase => eraseDone ch lun b s1
  | .reset => { s1 with trowel := { s1.trowel with resets := terase (lunKey ch lun) s1.trowel.resets } }

/-- The operation of a LUN ends with 0x3, or with 0x4 after its maximum (R40, R203, R260, R262). -/
def opFailed (ch lun : Nat) (o : DieOp) (s : State) : State :=
  let x := getLun s ch lun
  let b := (o.targets.head?.map (·.1)).getD 0
  let s1 := setLun ch lun { x with op := none } s
  match o.kind with
  | .read => readsFail ch lun s1
  | .soft => readsFail ch lun s1
  | .program => programFailed ch lun b (setLun ch lun { x with op := none, loads := [] } s1)
  | .erase =>
    let s2 := eraseFailed ch lun b s1
    match courseOf s2 ch lun b with
    | some c => courseErased c s2
    | none => s2
  | .reset => checkResets ch lun { s1 with trowel := { s1.trowel with resets := bumpT (lunKey ch lun) s1.trowel.resets } }

/-- STATUS (R40): the die answers; the operation retires with its code, which the entry carries. -/
def statusDo (ch idx : Nat) (r : DieStatus) (s : State) : State :=
  onEntry (.fch ch) idx 7 (fun p t =>
    let lun := eLun p.e
    match (getLun t ch lun).op with
    | none => retire (.fch ch) idx 1 t
    | some o =>
      match r with
      | .busy => retire (.fch ch) idx 1 t
      | .done => retire (.fch ch) idx 1 (opDone ch lun o t)
      | .failed => retire (.fch ch) idx 3 (opFailed ch lun o t)) s

/-- The slots an operation has run, at the latest of the present beat. -/
def slotsRun (s : State) (o : DieOp) : Nat := (beatNow s - o.beat) * 64 + 63 - o.slot

/-- An operation is beyond its profile's maximum (R40, R224). -/
def overdue (s : State) (ch : Nat) (o : DieOp) : Bool :=
  let tr := getF s (F.FCH_PROF_READ_TR_MAX ch)
  let more := tr - getF s (F.FCH_PROF_READ_TR ch)
  match o.kind with
  | .read => decide (tr ≤ slotsRun s o)
  | .soft => decide ((if o.param = 3 then getF s (F.FCH_PROF_SOFT_SR3 ch) else getF s (F.FCH_PROF_SOFT_SR2 ch)) + more
      ≤ slotsRun s o)
  | .program => decide (o.beat + progMax s ch o.cell ≤ beatNow s)
  | .erase => decide (o.beat + getF s (F.FCH_PROF_ERASE_MAX ch) ≤ beatNow s)
  | .reset => decide (o.beat < beatNow s)

/-- A die operation still busy beyond its maximum retires with 0x4: TIMEOUT, one more consecutive timeout of the LUN
(R262). -/
def timeoutDo (ch lun : Nat) (s : State) : State :=
  match (getLun s ch lun).op with
  | none => s
  | some o =>
    if overdue s ch o ∧ s.grout.frozen = false then
      let s1 := happen (baseFch ch) 2 { s with trowel := { s.trowel with timeouts := bumpT (lunKey ch lun) s.trowel.timeouts } }
      checkResets ch lun (opFailed ch lun o s1)
    else s

/-! ## Transfers -/

/-- Absent blocks of a slot laid to a pallet take KIND deallocated (R197, R201). -/
def padSlot (k : Nat) (s : State) : State :=
  ((List.range 16).filter (fun t => !present (getSlot s k) t)).foldl (fun y t =>
    let (q, y1) := nextWseq y
    let x := getSlot y1 k
    setSlot k { x with blks := tset blk0 t (deallocBlk y1 x t q) x.blks } y1) s

/-- A slot is loaded (R197). -/
def slotLoaded (k : Nat) (s : State) : State :=
  let x := getSlot s k
  match x.st with
  | .staged => setSlot k { x with st := .laid } s
  | .filling => let s1 := padSlot k s; setSlot k { getSlot s1 k with st := .laid } s1
  | _ => s

/-- LOAD: the slot's MU goes to the planes named (R190, R204); 0x5 programs nothing. -/
def loadDo (ch idx : Nat) (xferErr : Bool) (s : State) : State :=
  onEntry (.fch ch) idx 8 (fun p t =>
    let lun := eLun p.e
    if xferErr then retire (.fch ch) idx 5 (noteXfer ch lun t)
    else if !eYardValid p.e then retire (.fch ch) idx 1 t
    else
      let x := getLun t ch lun
      let qs := ((List.range (planes t)).filter (fun i => decide (bitsOf (eMask p.e) i 1 = 1))).map
        (fun i => (ePage p.e * planes t + i, eYard p.e))
      retire (.fch ch) idx 1 (slotLoaded (eYard p.e)
        (setLun ch lun { x with loads := x.loads.filter (fun l => !qs.any (fun q => q.1 == l.1)) ++ qs } (xferGood ch t)))) s

/-- The reads whose codewords a FETCH moves: on the sensed page, in the planes named. -/
def fetchable (s : State) (ch : Nat) (e : PlanEntry) : List Nat :=
  let x := getLun s ch (eLun e)
  let (u, ts) := readBlocks s e
  (launchedOn s ch (eLun e)).filter (fun i =>
    let r := getRd s i
    decide (r.brick = eBrick e) && decide (r.u = u) && ts.contains r.t
      && x.sensed.any (fun g => decide (g.1 = eBrick e) && decide (g.2.1 = ePage e)))

/-- FETCH (R224): codewords go to the decoders; on a busy LUN it moves none and retires with 0x2. -/
def fetchDo (ch idx : Nat) (stillBusy xferErr : Bool) (s : State) : State :=
  onEntry (.fch ch) idx 9 (fun p t =>
    if stillBusy then retire (.fch ch) idx 2 (addF (F.FCH_READ_LATE_COUNT ch) 1 t)
    else if xferErr then retire (.fch ch) idx 5 (noteXfer ch (eLun p.e) t)
    else retire (.fch ch) idx 1 ((fetchable t ch p.e).foldl (fun x i => rdTo i .fetched x) (xferGood ch t))) s

/-! ## The end of a background window (R58) -/

/-- A background operation still running at its window's end is suspended where the die allows it, and otherwise runs on
with BEAT_WIN_OVERRUN. -/
def windowEnd (ch lun : Nat) (dieAllows : Bool) (s : State) : State :=
  match (getLun s ch lun).op with
  | none => s
  | some o =>
    if o.bg && !bgBeat s && (decide (o.kind = .program) || decide (o.kind = .erase)) then
      if dieAllows && suspendable s ch o then suspendOp ch lun o s else happen baseBeat 6 s
    else s

def execReadPage (ch idx : Nat) (s : State) : Res := .next (readPageDo ch idx s)
def execReadSoft (ch idx : Nat) (s : State) : Res := .next (readSoftDo ch idx s)
def execProgram (ch idx : Nat) (s : State) : Res := .next (programDo ch idx s)
def execErase (ch idx : Nat) (s : State) : Res := .next (eraseDo ch idx s)
def execSuspend (ch idx : Nat) (s : State) : Res := .next (suspendDo ch idx s)
def execResume (ch idx : Nat) (s : State) : Res := .next (resumeDo ch idx s)
def execStatus (ch idx : Nat) (r : DieStatus) (s : State) : Res := .next (statusDo ch idx r s)
def execDieOpTimeout (ch lun : Nat) (s : State) : Res := .next (timeoutDo ch lun s)
def execLoad (ch idx : Nat) (xferErr : Bool) (s : State) : Res := .next (loadDo ch idx xferErr s)
def execFetch (ch idx : Nat) (stillBusy xferErr : Bool) (s : State) : Res := .next (fetchDo ch idx stillBusy xferErr s)
def execResetLun (ch idx : Nat) (s : State) : Res := .next (resetLunDo ch idx s)
def execBgWindowEnd (ch lun : Nat) (dieAllows : Bool) (s : State) : Res := .next (windowEnd ch lun dieAllows s)

end Sys2Proof.Machine
end

