-- ==== Sys2Proof/Machine/Journal.lean ====
section
/-!
DEFINITION. Machine/Journal.lean: what a journal record says of the map and of the courses (R209, R211, R291, R293): the
reading of the records that Map.lean writes.
-/

namespace Sys2Proof.Machine

/-! ## The map -/

/-- A record's sequence is new to a line (R211). -/
def recNew (q : Nat) (x : BitVec 512) : Bool :=
  let d := (q + 2 ^ 32 - bitsOf x.toNat 480 32) % 2 ^ 32
  decide (1 ≤ d) && decide (d < 2 ^ 31)

/-- The entries that a record of type MAP_SET or RANGE_UNMAP changes are changed, with the line's LINE_EPOCH (R209). -/
def recLines (r : JRec) (lines : Tbl (BitVec 512)) : Tbl (BitVec 512) :=
  let q := r.seq % 2 ^ 32
  match r.typ with
  | 1 =>
    let i := bitsOf r.body 0 4
    let l := bitsOf r.body 4 31
    let e := bitsOf r.body 36 40
    let e1 := if bitsOf e 1 2 = stUnmapped then e % 2 ^ 8 else e
    if recNew q (tget lineD lines l) then tset lineD l (lineWith (lineWith (tget lineD lines l) (40 * i) 40 e1) 480 32 q) lines
    else lines
  | 2 =>
    let f := bitsOf r.body 0 31
    let n := bitsOf r.body 31 29
    (lines.filter (fun p => decide (f ≤ p.1) && decide (p.1 < f + n) && recNew q p.2)).foldl
      (fun t p => tset lineD p.1 (lineWith (lineWith p.2 0 480 0) 480 32 q) t) lines
  | _ => lines

/-- The UNMAP_SEQ that each MU a record leaves at STATE 00 keeps (R297), by line × 12 + index, one more than its value: a
MAP_SET to flash ends it.  A RANGE_UNMAP gives its own to every MU of the lines it names, kept as the ranges replayed. -/
structure Unmaps where
  single : Tbl Nat
  ranges : List (Nat × Nat × Nat)
  deriving DecidableEq, Repr

def recUnmaps (r : JRec) (u : Unmaps) : Unmaps :=
  match r.typ with
  | 1 =>
    let k := bitsOf r.body 4 31 * 12 + bitsOf r.body 0 4
    let e := bitsOf r.body 36 40
    -- 1 says that a later MAP_SET to flash has ended every earlier unmap of the MU
    { u with single := tset (fun _ => 0) k (if bitsOf e 1 2 = stUnmapped then bitsOf e 8 32 + 2 else 1) u.single }
  | 2 =>
    let f := bitsOf r.body 0 31
    let n := bitsOf r.body 31 29
    { single := u.single.filter (fun p => !(decide (f ≤ p.1 / 12) && decide (p.1 / 12 < f + n)))
      ranges := (f, n, bitsOf r.body 60 32) :: u.ranges }
  | _ => u

/-- The UNMAP_SEQ that an MU holds. -/
def unmapOf (u : Unmaps) (l i : Nat) : Option Nat :=
  match tget (fun _ => 0) u.single (l * 12 + i) with
  | 0 => (u.ranges.find? (fun x => decide (x.1 ≤ l) && decide (l < x.1 + x.2.1))).map (·.2.2)
  | 1 => none
  | n => some (n - 2)

/-! ## The courses -/

/-- What a COURSE_BIND record says a course is for (R291). -/
def recUse (body : Nat) : CourseUse :=
  let owner := bitsOf body 49 24
  if bitsOf body 38 1 = 0 then .zone (bitsOf body 39 10 + 1) owner
  else match owner / 2 ^ 21 with
    | 0 => .wall owner
    | 1 => .reloc
    | 2 => .reloc
    | 3 => .pallet
    | 4 => .journal
    | 5 => .ckpt
    | 6 => .grout
    | _ => .none

/-- The formation of a course (R182), where no record has replaced a brick of it. -/
def formation (s : State) (c : Nat) : List BrickAddr :=
  (List.range (width s)).map (fun k => { ch := k, lun := c / blocksPerPlane, brick := c % blocksPerPlane, valid := true })

/-- Waves that a course of a use takes. -/
def wavesOf (s : State) (u : CourseUse) : Nat :=
  let cell := match u with
    | .pallet => 0
    | .journal => 0
    | .ckpt => 0
    | .grout => 0
    | _ => userCell s
  (muPerBrick s cell + muPerWave s cell - 1) / max 1 (muPerWave s cell)

/-- What a record says of a course (R291, R292). -/
def recCourses (s : State) (r : JRec) (cs : Tbl Course) : Tbl Course :=
  let c := bitsOf r.body 0 18
  let k := tget courseD cs c
  let put (x : Course) : Tbl Course := tset courseD c x cs
  match r.typ with
  | 3 =>
    (match bitsOf r.body 18 2 with
     | 0 => put { course0 with use := recUse r.body, st := .taken, tile := bitsOf r.body 20 6, table := k.table }
     | 1 =>
       let w := bitsOf r.body 26 12 + 1
       put { k with nextWave := w, st := if k.st = .taken ∧ wavesOf s k.use ≤ w then .full else k.st }
     | 2 => put { k with st := .toErase }
     | _ => put { k with st := .givenUp, table := [] })
  | 4 =>
    let v := r.body / 2 ^ 23
    let a : BrickAddr :=
      { ch := bitsOf v 0 5, lun := bitsOf v 5 6, brick := bitsOf v 11 12, valid := decide (bitsOf v 23 1 = 1) }
    put { k with table := (if k.table = [] then formation s c else k.table).set (bitsOf r.body 18 5) a }
  | 5 => put { course0 with table := k.table }
  | _ => cs

end Sys2Proof.Machine
end

