-- ==== Sys2Proof/Machine/Lane.lean ====
section
/-!
DEFINITION. Machine/Lane.lean: the course engine (R188, R190, R191, R200, R203): its plan entries, the confirmation of a
wave, and what a confirmation brings about (R119, R134, R142, R210, R212, R253, R270, R271, R281, R316, R320).
-/

namespace Sys2Proof.Machine

/-! ## Contexts -/

/-- A context is taken for a wave, with the mortar slots it owns (R188, R197): the rebuild's where the course is the one
under rebuild (R271). -/
def openCtx (i : Nat) (e : PlanEntry) (s : State) : State :=
  if hasCtx s i then s
  else
    let c := eCourse e
    let mw := muPerWave s (courseCell s c)
    let slots := freeSlots s mw
    let kind := match s.trowel.rebuildNow with
      | some r => if r.1 = c then CtxKind.rebuild else CtxKind.wave
      | none => CtxKind.wave
    if slots.length < mw then s
    else
      let s1 := slots.foldl (fun t k => setSlot k { slot0 with st := .mortar } t) s
      let s2 := setCourse c { getCourse s1 c with laying := true } s1
      notePeak (setCtx i { ctx0 with kind := kind, course := c, wave := eWave e, mw := mw, mortar := slots } s2)

/-- The entry's context serves the entry's wave. -/
def ctxFits (s : State) (e : PlanEntry) : Bool :=
  hasCtx s (eCtx e) && decide ((getCtx s (eCtx e)).course = eCourse e) && decide ((getCtx s (eCtx e)).wave = eWave e)

/-- The LOAD at a slot of a channel's executing plan, once it has retired done. -/
def loadAt (s : State) (ch slot : Nat) : Option PlanEntry :=
  match running? s (.fch ch) with
  | none => none
  | some b => (b.ents.find? (fun p => decide (p.e.op = 8) && decide (p.e.slot = slot) && p.retired && decide (p.code = 1))).map (·.e)

/-- XOR of some blocks of a slot into another slot. -/
def xorInto (src dst : Nat) (ts : List Nat) (s : State) : State :=
  let x := getSlot s src
  setSlot dst (ts.foldl (fun y t => { y with blks := tset blk0 t (slotBlk y t ^^^ slotBlk x t) y.blks }) (getSlot s dst)) s

/-- ACCUM: the LOAD of this slot is XORed into the context's mortar slot for its MU position (R190). -/
def accumDo (lane idx : Nat) (s : State) : State :=
  onEntry (.lane lane) idx 1 (fun p t =>
    let t1 := openCtx (eCtx p.e) p.e t
    match ctxFits t1 p.e, loadAt t1 lane p.e.slot with
    | true, some l =>
      let x := getCtx t1 (eCtx p.e)
      match x.mortar[eK p.e]?, posOf t1 x.course lane (eLun l) (eBrick l) with
      | some m, some pos =>
        let ld := (eK p.e, pos, eYard l)
        let t2 := xorInto (eYard l) m (readBlocks t1 l).2 t1
        retire (.lane lane) idx 1 (setCtx (eCtx p.e)
          { x with loads := if x.loads.contains ld then x.loads else x.loads ++ [ld] } t2)
      | _, _ => retire (.lane lane) idx 1 t1
    | _, _ => retire (.lane lane) idx 1 t1) s

/-- The mortar of an MU position is formed again from the wave's data slots (R200). -/
def rebuildMortar (x : Ctx) (k m : Nat) (s : State) : State :=
  let s1 := setSlot m { getSlot s m with blks := [], poisoned := false } s
  (x.loads.filter (fun l => l.1 == k)).foldl (fun t l => xorInto l.2.2 m (List.range 16) t) s1

/-- EMIT: this slot's LOAD comes from the mortar slot; a poisoned one is not emitted and is formed again (R190, R200). -/
def emitDo (lane idx : Nat) (s : State) : State :=
  onEntry (.lane lane) idx 2 (fun p t =>
    if !ctxFits t p.e then retire (.lane lane) idx 1 t
    else
      let x := getCtx t (eCtx p.e)
      match x.mortar[eK p.e]? with
      | none => retire (.lane lane) idx 1 t
      | some m =>
        if (getSlot t m).poisoned then retire (.lane lane) idx 2 (rebuildMortar x (eK p.e) m t)
        else retire (.lane lane) idx 1 t) s

/-- ARM: this channel's PROGRAM and STATUS count toward the wave. -/
def armDo (lane idx : Nat) (s : State) : State :=
  onEntry (.lane lane) idx 3 (fun p t =>
    let t1 := openCtx (eCtx p.e) p.e t
    if ctxFits t1 p.e then
      let x := getCtx t1 (eCtx p.e)
      retire (.lane lane) idx 1 (setCtx (eCtx p.e) { x with armed := insertNat lane x.armed } t1)
    else retire (.lane lane) idx 1 t1) s

/-- CLEAR: the context's mortar slots are taken and zeroed. -/
def clearDo (lane idx : Nat) (s : State) : State :=
  onEntry (.lane lane) idx 4 (fun p t =>
    let t1 := openCtx (eCtx p.e) p.e t
    if ctxFits t1 p.e then
      retire (.lane lane) idx 1 ((getCtx t1 (eCtx p.e)).mortar.foldl (fun y m => setSlot m { slot0 with st := .mortar } y) t1)
    else retire (.lane lane) idx 1 t1) s

/-! ## What waits for a program -/

/-- A slot still holds data that waits for its program. -/
def slotHeld (s : State) (k : Nat) : Bool :=
  match (getSlot s k).st with
  | .filling => true
  | .staged => true
  | .laid => true
  | _ => false

/-- A command that waits for programs is ready once none of its slots still holds its data. -/
def settleCmd (i : Nat) (x : Cmd) (s : State) : State :=
  let c : Cmd := { x with waits := x.waits.filter (slotHeld s) }
  setCmd i (if c.waits = [] ∧ c.left = [] ∧ c.st = .working then { c with st := .ready } else c) s

/-- Commands that waited for programs, and the drain of R281, after slots have been freed (R18, R119, R281). -/
def settleWaits (s : State) : State :=
  let s0 := (s.host.cmds.filter (fun p => decide (p.2.waits ≠ []))).foldl (fun t p => settleCmd p.1 p.2 t) s
  let left := s0.grout.restored.filter (slotHeld s0)
  let s1 := if s0.grout.restored = [] then s0
    else { s0 with grout := { s0.grout with
      restored := left, fence := if left = [] then s0.map.jseq else s0.grout.fence } }
  if s1.grout.drain = [] then s1
  else
    let d := s1.grout.drain.filter (slotHeld s1)
    let s2 := { s1 with grout := { s1.grout with drain := d } }
    if d = [] then setF F.PWR_HOLDUP_STAT_DRAINING 0 s2 else s2

/-! ## Confirming -/

/-- Which job a relocation belongs to, for the counters of R278. -/
def relocCount (tile : Nat) (src : Ent) (s : State) : State :=
  let s1 := fdpNote tile fdpRealloc 0 16 { s with trowel := { s.trowel with trowelMus := bumpT tile s.trowel.trowelMus } }
  match courseOf s (entCh src) (entLun src) (entBrick src) with
  | none => s1
  | some c =>
    if (getCourse s c).refresh then addThousand remRefresh F.TROWEL_REFRESH_MUS_COUNT 1 s1
    else if s.trowel.gc.contains tile ∨ s.trowel.salvage ≠ [] then addThousand remGc F.TROWEL_GC_MUS_COUNT 1 s1
    else addThousand remWear F.TROWEL_WEAR_MUS_COUNT 1 s1

/-- R191 step 1 for one loaded MU, and R247 step 5 for a Trowel copy: the entry is rewritten and journalled if it still
names the slot, or still holds STATE 11 and names the source. -/
def confirmLoad (c wave mw : Nat) (l : Nat × Nat × Nat) (s : State) : State :=
  let x := getSlot s l.2.2
  match (courseTable s c)[l.2.1]? with
  | none => s
  | some a =>
    let e := flashEnt a.ch a.lun a.brick (mw * wave + l.1) x.kver stMapped
    let cur := getEnt s x.line x.idx
    if x.reloc then
      if cur = x.old ∧ entState cur = stReloc then
        let s1 := relocCount x.tile cur s
        mapSet x.line x.idx e { s1 with trowel := { s1.trowel with
          salvage := s1.trowel.salvage.filter (fun m => m != (x.line, x.idx)) } }
      else s
    else if entYard cur && decide (entSlot cur = l.2.2) then
      let s1 := mapSet x.line x.idx e s
      let s2 := { s1 with trowel := { s1.trowel with hostMus := bumpT x.tile s1.trowel.hostMus } }
      if (getCourse s c).use = .pallet then addF F.COURSE_PALLET_MUS_COUNT 1 s2 else s2
    else s

/-- Courses emptied of data are handed for erase (R259, R292): full walls, Trowel and pallet courses with no mapped
MU. -/
def handEmptied (s : State) : State :=
  (s.map.courses.filter (fun p => decide (p.2.st = .full) && decide (p.2.mapped = 0) && !p.2.laying &&
    (match p.2.use with
     | .wall _ => true
     | .reloc => true
     | .pallet => true
     | _ => false))).foldl (fun t p => handForErase p.1 t) s

/-- The positions of a wave that had failed: what lay on the failed brick below the wave is on the spare (R203 step 3),
and COURSE_REPLACED is raised. -/
def replacedDone (x : Ctx) (s : State) : State :=
  let s1 := x.failed.foldl (fun t f =>
    match (courseTable t x.course)[f % 64]? with
    | none => t
    | some a =>
      let old := f / 64
      let new := brickKey a.ch a.lun a.brick
      happen baseCourse 1 ((List.range (x.mw * x.wave * 16)).foldl (fun y j =>
        { y with map := { y.map with
          flash := tset blk0 (new * 65536 + j) (tget blk0 y.map.flash (old * 65536 + j)) y.map.flash } }) t)) s
  if x.failed = [] then s1
  else
    let s2 := setCourse x.course { getCourse s1 x.course with replacing := false } s1
    setF F.COURSE_STATUS_REPLACING (if s2.map.courses.any (fun p => p.2.replacing) then 1 else 0) s2

/-- Every brick of the wave has returned done, in an earlier beat (R190, R191). -/
def waveDone (s : State) (x : Ctx) : Bool :=
  decide (x.doneBeat < beatNow s) && (List.range (courseWidth s x.course)).all (fun k => x.done.contains k)

/-- A wave is confirmed (R191). -/
def confirmWave (i : Nat) (s : State) : State :=
  let x := getCtx s i
  let s1 := x.loads.foldl (fun t l => confirmLoad x.course x.wave x.mw l t) s
  let s2 := bindRecord x.course 1 x.wave s1
  let s3 := x.loads.foldl (fun t l => freeSlot l.2.2 t) s2
  let s4 := x.mortar.foldl (fun t m => setSlot m slot0 t) (dropCtx i s3)
  let s5 := replacedDone x (addF F.COURSE_WAVES_COUNT 1 s4)
  let k := getCourse s5 x.course
  let last := decide (muPerBrick s5 (courseCell s5 x.course) ≤ x.mw * (x.wave + 1))
  let s6 := setCourse x.course { k with
    nextWave := x.wave + 1, laying := false, st := if k.st = .taken ∧ last then .full else k.st } s5
  let s7 := if (getCourse s6 x.course).st = .toErase then handForErase x.course s6 else s6
  keysSettle (gcTrigger (getCourse s x.course).tile (handEmptied (settleWaits s7)))

/-- The used grout sets whose fence is open are handed for erase: every slot that the replay restored is programmed, and
the journal up to then is durable (R295). -/
def groutRelease (s : State) : State :=
  if s.grout.used = [] ∨ s.grout.restored ≠ [] ∨ s.map.jdur + 1 < s.grout.fence then s
  else (s.grout.used.flatMap setCourses).foldl (fun t c =>
    if (getCourse t c).st = .taken then handForErase c t else t) s

/-- The records up to a sequence are durable (R210), and with them a write-sequence reservation (R195). -/
def flushDone (last : Nat) (s : State) : State :=
  groutRelease { s with map := { s.map with
      jdur := max s.map.jdur last
      wseqRes := (s.map.tail.filter (fun r => decide (r.seq ≤ last) && decide (r.typ = 6))).foldl
        (fun n r => max n (bitsOf r.body 0 56)) s.map.wseqRes
      journal := s.map.journal ++ s.map.tail.filter (fun r => decide (r.seq ≤ last))
      tail := s.map.tail.filter (fun r => decide (last < r.seq)) } }

/-- A flush is laid on a context, the oldest waiting first; it waits where none is free (R210). -/
def layFlush (s : State) : State :=
  match s.map.flushes, (List.range 16).find? (fun i => !hasCtx s i) with
  | q :: rest, some i => setCtx i { ctx0 with kind := .flush q, doneBeat := beatNow s } { s with map := { s.map with flushes := rest } }
  | _, _ => s

/-- Checkpoint segments of a cycle. -/
def ckptCycle (s : State) : Nat := max 64 (getF s F.COURSE_CKPT_CYCLE)

/-- The journal is kept from the smallest START_JSEQ of the latest complete segments; what those hold is the state before
it (R213). -/
def trimJournal (s : State) : State :=
  if s.map.ckpt.length = ckptCycle s then
    let low := s.map.ckpt.foldl (fun m p => min m p.2) s.map.jseq
    let gone := s.map.journal.filter (fun r => decide (r.seq < low))
    { s with map := { s.map with
        journal := s.map.journal.filter (fun r => decide (low ≤ r.seq))
        base := gone.foldl (fun l r => recLines r l) s.map.base
        baseCourses := gone.foldl (fun l r => recCourses s r l) s.map.baseCourses } }
  else s

/-- A checkpoint segment is complete (R212): its CKPT_SEG record is journalled. -/
def ckptDone (seg start : Nat) (s : State) : State :=
  trimJournal (journal 7 (seg + start % 2 ^ 32 * 2 ^ 16)
    { s with map := { s.map with
        ckpt := tset (fun _ => 0) seg start s.map.ckpt
        ckptNow := if s.map.ckptNow = some (seg, start) then none else s.map.ckptNow } })

/-- The word line of a rebuilt brick: the XOR of the course's other bricks, and the entries that named the lost brick
now name the spare (R271). -/
def rebuiltLine (c k old mw wave : Nat) (a : BrickAddr) (s : State) : State :=
  let others := (courseTable s c).eraseIdx k
  let new := brickKey a.ch a.lun a.brick
  let s1 := (List.range (mw * 16)).foldl (fun t j =>
    let at_ := mw * wave * 16 + j
    let b := others.foldl (fun (acc : Blk) o => acc ^^^ tget blk0 t.map.flash (brickKey o.ch o.lun o.brick * 65536 + at_)) 0
    { t with map := { t.map with flash := tset blk0 (new * 65536 + at_) b t.map.flash } }) s
  (entsWhere s1 (fun e => decide (brickKey (entCh e) (entLun e) (entBrick e) = old)
      && decide (mw * wave ≤ entU e) && decide (entU e < mw * (wave + 1)))).foldl (fun t m =>
    let e := getEnt t m.1 m.2
    mapSet m.1 m.2 (flashEnt a.ch a.lun a.brick (entU e) (entKver e) stMapped) t) s1

/-- A rebuilt word line is confirmed; with the last one the brick is rebuilt and the next rebuild begins (R270, R271). -/
def confirmRebuild (i : Nat) (s : State) : State :=
  let x := getCtx s i
  match s.trowel.rebuildNow with
  | none => dropCtx i s
  | some (c, k, old, g) =>
    match (courseTable s c)[k]? with
    | none => dropCtx i s
    | some a =>
      let s1 := rebuiltLine c k old x.mw g a s
      let s2 := x.mortar.foldl (fun t m => setSlot m slot0 t)
        (dropCtx i (setCourse c { getCourse s1 c with laying := false } s1))
      if (getCourse s2 c).nextWave ≤ g + 1 then
        startRebuild (noteRebuild (addF F.TROWEL_REBUILT_COUNT 1 { s2 with trowel := { s2.trowel with
          rebuildNow := none, rebuilt := s2.trowel.rebuilt + 1 } }))
      else { s2 with trowel := { s2.trowel with rebuildNow := some (c, k, old, g + 1) } }

/-- WAVE_CONFIRM of a context, whatever it serves; one that needs an absent map unit waits (R406). -/
def confirm (i : Nat) (s : State) : State :=
  if !hasCtx s i || !mapOpen s then s
  else
    let x := getCtx s i
    match x.kind with
    | .wave =>
      if waveDone s x && x.loads.all (fun l => !lineAbsent s (getSlot s l.2.2).line) then confirmWave i s else s
    | .flush q => if x.doneBeat < beatNow s then layFlush (flushDone q (dropCtx i s)) else s
    | .ckpt g q => if x.doneBeat < beatNow s then ckptDone g q (dropCtx i s) else s
    | .rebuild => if x.doneBeat < beatNow s ∧ x.done ≠ [] then confirmRebuild i s else s

def execAccum (lane idx : Nat) (s : State) : Res := .next (accumDo lane idx s)
def execEmit (lane idx : Nat) (s : State) : Res := .next (emitDo lane idx s)
def execArm (lane idx : Nat) (s : State) : Res := .next (armDo lane idx s)
def execClear (lane idx : Nat) (s : State) : Res := .next (clearDo lane idx s)
def execWaveConfirm (ctx : Nat) (s : State) : Res := .next (confirm ctx s)

end Sys2Proof.Machine
end

