-- ==== Sys2Proof/Machine/Seal.lean ====
section
/-!
DEFINITION. Machine/Seal.lean: seal stacks (R325), zone records and signed seal epochs (R326 to
R328).
-/

namespace Sys2Proof.Machine

/-! ## Stacks -/

def stackD (_ : Nat) : List (Nat × BitVec 384) := []
def getStack (s : State) (z : Nat) : List (Nat × BitVec 384) := tget stackD s.mac.trees z
def setStack (z : Nat) (l : List (Nat × BitVec 384)) (s : State) : State :=
  { s with mac := { s.mac with trees := tset stackD z l s.mac.trees } }

/-- The block of an LBA as its slot or the flash holds it, with its tag; none where it has none yet. -/
def taggedBlk (s : State) (nsid lba : Nat) : Option Blk :=
  let m := muOf s nsid lba
  let e := getEnt s m.1 m.2
  let t := lba % 16
  let inSlot := s.map.slots.find? (fun p => decide (p.2.line = m.1) && decide (p.2.idx = m.2) && decide (p.2.nsid = nsid)
    && !p.2.reloc && decide (p.2.st ≠ .free) && decide (p.2.st ≠ .mortar) && present p.2 t)
  match inSlot with
  | some p => some (slotBlk p.2 t)
  | none =>
    if onFlash e then
      let b := tget blk0 s.map.flash (flashKey (entCh e) (entLun e) (entBrick e) (entU e) t)
      if b = 0 then none else some b
    else none

/-- The leaves of a zone's next blocks are folded in while their blocks are tagged, below its write pointer (R325). -/
def foldLeaves : Nat → Nat → Nat → State → State
  | 0, _, _, s => s
  | n + 1, nsid, z, s =>
    let st := getStack s (zKey nsid z)
    let o := stackCount st
    if o < (getZone s nsid z).wp then
      match taggedBlk s nsid (z * zsze s + o) with
      | some b => foldLeaves n nsid z (setStack (zKey nsid z) (pushTree 1 (sealLeaf (blkHdr b) (blkMeta b)) st) s)
      | none => s
    else s

/-- A zone's stack takes every leaf that is formed; with all of them it has caught up. -/
def catchUp (nsid z : Nat) (s : State) : State :=
  let s1 := foldLeaves (getZone s nsid z).wp nsid z s
  if stackCount (getStack s1 (zKey nsid z)) = (getZone s nsid z).wp then
    { s1 with mac := { s1.mac with behind := removeNat (zKey nsid z) s1.mac.behind } }
  else s1

/-- Every stack is saved (R325). -/
def saveStacks (s : State) : State := { s with mac := { s.mac with saved := s.mac.trees } }

/-! ## Zone records and seal epochs -/

/-- A zone record's 80 bytes (R328). -/
def recBytes80 (r : ZRec) : List Byte :=
  leBytes 1 r.tile ++ leBytes 1 (if r.part then 1 else 0) ++ leBytes 2 0 ++ leBytes 4 r.nsid ++ leBytes 8 r.zslba
    ++ leBytes 4 r.blocks ++ leBytes 4 0 ++ leBytes 8 r.beat ++ digBytes r.root

/-- The statement's 160 bytes (R328). -/
def statement (epoch : Nat) (restarted : Bool) (zones : Nat) (root prev : BitVec 384) : List Byte :=
  leBytes 2 1 ++ leBytes 2 (if restarted then 1 else 0) ++ leBytes 4 zones ++ leBytes 8 epoch
    ++ digBytes Config.deviceId ++ digBytes root ++ digBytes prev

def epStatement (e : SealEp) : List Byte := statement e.epoch e.restarted e.recs.length e.root e.prev

/-- A zone's sealing is done (R155, R325, R328): its zone record is durable in this beat. -/
def zoneSeal (nsid z : Nat) (s : State) : State :=
  let s0 := catchUp nsid z s
  let x := getZone s0 nsid z
  let st := getStack s0 (zKey nsid z)
  if x.st = .full ∧ x.reported ≠ .full ∧ stackCount st = x.wp then
    let root := stackRoot st
    let part := decide (x.wp < x.cap)
    let s1 := setZone nsid z { x with
      reported := .full, zdev := true, root := root, sealEpoch := sealEpochNow s, blocks := x.wp, signed := false
      partialSeal := part } s0
    let r : ZRec := { tile := (getNs s nsid).tile, part := part, nsid := nsid, zslba := z * zsze s, blocks := x.wp
                      beat := beatNow s, root := root }
    setF F.MAC_SEAL_ZONES_COUNT ((s1.mac.recs.filter (fun q => decide (q.beat / 1048576 = sealEpochNow s))).length + 1)
      { (setStack (zKey nsid z) [] s1) with mac := { (setStack (zKey nsid z) [] s1).mac with recs := s1.mac.recs ++ [r] } }
  else s0

/-- The order of zone records (R326). -/
def recBefore (a b : ZRec) : Bool :=
  if a.tile ≠ b.tile then decide (a.tile < b.tile)
  else if a.nsid ≠ b.nsid then decide (a.nsid < b.nsid)
  else decide (a.zslba ≤ b.zslba)

/-- Records of a seal epoch, in leaf order. -/
def epochRecs (s : State) (ep : Nat) : List ZRec :=
  (s.mac.recs.filter (fun r => decide (r.beat / 1048576 = ep) && decide (r.blocks ≠ 0))).mergeSort recBefore

def recLeaf (r : ZRec) : BitVec 384 := Config.sha384 (0 :: recBytes80 r)

/-- A seal epoch closes: with a zone it is signed (R326); MAC_SEAL_ZONES counts the next one. -/
def closeEpoch (ep : Nat) (restarted : Bool) (s : State) : State :=
  let s1 := setF F.MAC_SEAL_ZONES_COUNT 0 s
  if epochRecs s ep = [] ∨ s.mac.closing.any (fun p => p.1 == ep) then s1
  else { s1 with mac := { s1.mac with closing := s1.mac.closing ++ [(ep, restarted)] } }

/-- Seal epochs the store holds (R327). -/
def sealStore : Nat := 2 ^ 20

/-- The statement of a closed seal epoch is durable (R326). -/
def sealSignedDo (ep : Nat) (s : State) : State :=
  match s.mac.closing.find? (fun p => p.1 == ep) with
  | none => s
  | some c =>
    let recs := epochRecs s ep
    let root := treeRoot (recs.map recLeaf)
    let prev := match s.mac.epochs.getLast? with
      | some e => Config.sha384 (epStatement e)
      | none => 0
    let stmt := statement ep c.2 recs.length root prev
    let e : SealEp := { epoch := ep, restarted := c.2, root := root, prev := prev, recs := recs
                        sigRsa := Config.sigRsa s.freeCtr stmt, sigSlh := Config.sigSlh s.freeCtr stmt }
    let drop := s.mac.epochs.length + 1 - sealStore
    let s1 := tick { s with mac := { s.mac with
      epochs := (s.mac.epochs ++ [e]).drop drop
      dropped := s.mac.dropped + drop
      closing := s.mac.closing.filter (fun p => p.1 != ep)
      recs := s.mac.recs.filter (fun r => decide (r.beat / 1048576 ≠ ep)) } }
    let s2 := setR Reg.MAC_SEAL_EPOCH_HI (ep / 2 ^ 32) (setR Reg.MAC_SEAL_EPOCH_LO (ep % 2 ^ 32) s1)
    let s3 := recs.foldl (fun t r =>
      let z := r.zslba / zsze t
      let x := getZone t r.nsid z
      if x.zdev ∧ x.root = r.root ∧ x.sealEpoch = ep then setZone r.nsid z { x with signed := true } t else t) s2
    happen baseMac 5 (((recs.map (·.tile)).dedup).foldl (fun t k => tileAen k 7 0x83 0xC3 t) s3)

def execZoneSealed (nsid zone : Nat) (s : State) : Res := .next (zoneSeal nsid zone s)

/-- SEAL_EPOCH_CLOSE: the header beat that begins a seal epoch closes the one before (R326). -/
def execSealEpochClose (s : State) : Res :=
  .next (if beatNow s % 1048576 = 0 ∧ beatNow s ≠ 0 ∧ running s then closeEpoch (sealEpochNow s - 1) false s else s)
def execSealSigned (epoch : Nat) (s : State) : Res := .next (sealSignedDo epoch s)

/-- SEAL_LATE: signing is not durable within one epoch of the close. -/
def execSealLate (epoch : Nat) (s : State) : Res :=
  .next (if s.mac.closing.any (fun p => p.1 == epoch) ∧ (epoch + 1) * 1048576 + 65536 ≤ beatNow s then happen baseMac 6 s
    else s)

end Sys2Proof.Machine
end

