-- ==== Sys2Proof/Machine/Power.lean ====
section
/-!
DEFINITION. Machine/Power.lean: power states and domains (R23 to R25, R416 to R430): selection, drain and entry, wakes
and their failures, reference clocks.
-/

namespace Sys2Proof.Machine

/-! ## Selection -/

/-- What R23's table says of a power state in the present mode: 0 permitted, 1 held, 2 refused. -/
def psAllowed (s : State) (ps : Nat) : Nat :=
  match modeNow s with
  | 0 => if ps = 2 ∨ ps = 3 then 2 else 0
  | 5 => if 2 ≤ ps then 1 else 0
  | _ => 0

/-- The state a PF0 function selects: PS4 while its port is down or its controller is not ready (R417). -/
def selectedBy (s : State) (fn : Nat) : Nat :=
  if (getFn s fn).rdy && isSet s (F.HOST_LINK_STATUS_UP (portOf s fn)) then (getFn s fn).ps else 4

/-- The drive's selected state: the shallower of those the PF0 functions select (R417). -/
def selected (s : State) : Nat := if twoPort s then min (selectedBy s 0) (selectedBy s 32) else selectedBy s 0

def powerNow (s : State) : Nat := getF s F.PWR_STATE_CUR

/-- PWR_STATE.SEL_A and SEL_B. -/
def noteSel (s : State) : State :=
  setF F.PWR_STATE_SEL_B (if twoPort s then (getFn s 32).ps else 4) (setF F.PWR_STATE_SEL_A (getFn s 0).ps s)

/-- The drain toward a state begins, or the selection is Run (R24, R418, R419). -/
def aimAt (requested : Bool) (s : State) : State :=
  let k := selected s
  let s1 := noteSel s
  if isSet s F.PWR_STATE_IO_WAKE ∧ k ≠ 4 then
    { setF F.PWR_STATE_IO_WAKE (if k = 0 then 0 else 1) s1 with
      top := { s1.top with target := none, requested := requested } }
  else if k = 0 ∨ k = powerNow s then { s1 with top := { s1.top with target := none } }
  else setF F.PWR_STATE_IN_TRANSITION (if 2 ≤ k then 1 else 0)
    { s1 with top := { s1.top with target := some k, requested := requested } }

/-- A PF0 function selects a state: at once, or when the mode ends (R23). -/
def selectPs (fn ps : Nat) (requested : Bool) (s : State) : State :=
  if psAllowed s ps = 1 then setFn fn { getFn s fn with psHeld := some ps } s
  else aimAt requested (setFn fn { getFn s fn with ps := ps, psHeld := none } s)

/-- Held requests take effect when the mode that held them ends. -/
def releasePs (s : State) : State :=
  [0, 32].foldl (fun t fn =>
    match (getFn t fn).psHeld with
    | some ps => if psAllowed t ps = 0 then selectPs fn ps true t else t
    | none => t) s

/-! ## The drain (R24) -/

/-- Commands in flight, Asynchronous Event Requests apart. -/
def busyCmds (s : State) : Bool := s.host.cmds.any (fun p => decide (p.2.kind ≠ .aer))

/-- The four parts of the drain are done; the Trowel stops with the plans. -/
def drained (s : State) : Bool :=
  !busyCmds s && (decide (s.map.tail = []) || !s.map.loaded) && decide (s.map.ctxs = [])
    && s.map.slots.all (fun p => decide (p.2.acked = 0) || decide (p.2.st = .free))

/-- Domains on or gated, and in retention, in a state (R421); LINK_B is off in the x16 layout. -/
def domsOn (s : State) (k : Nat) : Nat :=
  (match k with
   | 2 => 0x1FF
   | 3 => 0x107
   | _ => 0x3FF) - (if twoPort s then 0 else 4)
def domsRet (k : Nat) : Nat := if k = 3 then 0xF8 else 0

/-- The drive is in a power state. -/
def enterState (k : Nat) (s : State) : State :=
  let s1 := setF F.PWR_DOM_STAT_RET (domsRet k) (setF F.PWR_DOM_STAT_ON (domsOn s k)
    (setF F.PWR_STATE_IO_WAKE 0 (setF F.PWR_STATE_IN_TRANSITION 0 s)))
  setF F.PWR_STATE_CUR k (happen basePwr 0 { s1 with top := { s1.top with target := none, woken := [] } })

/-- POWER_STATE_ENTERED: Idle needs no drain. -/
def stateEntered (s : State) : State :=
  match s.top.target with
  | some k =>
    if k = 1 ∨ ((k = 2 ∨ k = 3) ∧ drained s) then enterState k s else s
  | none => s

/-- An autonomous transition is abandoned where a command arrives during the drain; a requested one is not (R24). -/
def abandon (s : State) : State :=
  if s.top.target.isSome ∧ ¬ s.top.requested then
    happen basePwr 13 (setF F.PWR_STATE_IN_TRANSITION 0 { s with top := { s.top with target := none } })
  else s

/-- Off: every domain but AON is down, and both links (R419, R421). -/
def enterOff (s : State) : State :=
  let s1 := setF F.PWR_DOM_STAT_RET 0 (setF F.PWR_DOM_STAT_ON 1 (setF F.PWR_STATE_IN_TRANSITION 0 s))
  let s2 := setF (F.HOST_LINK_STATUS_UP 1) 0 (setF (F.HOST_LINK_STATUS_SPEED 1) 0 (setF (F.HOST_LINK_STATUS_WIDTH 1) 0
    (setF (F.HOST_LINK_STATUS_UP 0) 0 (setF (F.HOST_LINK_STATUS_SPEED 0) 0 (setF (F.HOST_LINK_STATUS_WIDTH 0) 0 s1)))))
  { s2 with top := { s2.top with off := true, target := none, offFrom := none, wakeRun := false, waking := [], woken := [] } }

/-- OFF_ENTRY: GRACE frames after the completion that selected PS4 was posted, once the drain is done (R24, R419). -/
def offDue (s : State) : State :=
  match s.top.target, s.top.offFrom with
  | some 4, some f =>
    if f + getNZ s F.PWR_CFG_GRACE ≤ frameNow s ∧ drained s then
      enterOff (happen basePwr 0 s)
    else s
  | _, _ => s

/-- IO_WAKE_RETURN: RETURN_FRAMES frames with no command in flight (R418). -/
def ioReturn (s : State) : State :=
  if isSet s F.PWR_STATE_IO_WAKE ∧ ¬ busyCmds s ∧ s.top.waitFrom + getNZ s F.PWR_CFG_RETURN_FRAMES ≤ frameNow s then
    match selected s with
    | 0 => setF F.PWR_STATE_IO_WAKE 0 s
    | 1 => enterState 1 s
    | k => setF F.PWR_STATE_IN_TRANSITION 1 { s with top := { s.top with target := some k } }
  else s

/-! ## Waking (R418, R427) -/

/-- The time lock acquires anew after a wake that stopped the count (R420). -/
def relock (s : State) : State :=
  setF F.BEAT_STATUS_LOCK_STATE 1 { s with beat := { s.beat with firstMeas := true, inTol := 0 } }

/-- A wake from Sleep or Deep sleep releases the held occurrences, writes an anchor and locks to host time anew (R420, R454,
R463). -/
def sleptWake (s : State) : State :=
  let s1 := anchor 6 (releaseHeld s)
  if getF s1 F.BEAT_CTRL_SRC = 0 ∨ getF s1 F.BEAT_CTRL_SRC = 3 then s1 else relock s1

/-- What every wake to Run ends with: the count goes on, held occurrences are recorded, and the lock acquires anew
(R420, R454). -/
def runAgain (s : State) : State :=
  let slept := asleep s
  let s1 := happen basePwr 0 (setF F.PWR_STATE_CUR 0 (setF F.PWR_DOM_STAT_RET 0 (setF F.PWR_DOM_STAT_ON (domsOn s 0)
    (setF F.PWR_STATE_IN_TRANSITION 0 (addF F.PWR_WAKES_COUNT 1
      (setF F.PWR_STATE_IO_WAKE (if selected s = 0 then 0 else 1) s))))))
  let s2 := { s1 with top := { s1.top with wakeRun := false, waking := [], woken := [], waitFrom := frameNow s } }
  if slept then sleptWake s2 else s2

/-- Something of R418 wakes the drive: from Idle at once, from Sleep and Deep sleep through the wake steps; an
autonomous drain is abandoned. -/
def wakeDrive (s : State) : State :=
  match powerNow s with
  | 0 => abandon { s with top := { s.top with waitFrom := frameNow s } }
  | 1 => runAgain s
  | _ => setF F.PWR_STATE_IN_TRANSITION 1 { s with top := { s.top with wakeRun := true } }

/-- FAULT_N deasserts when a later wake of the domain that failed succeeds (R428). -/
def wakeOk (s : State) : State :=
  if s.top.altNext = [] then s
  else setF F.PWR_WAKE_FAIL_ALT_NEXT 0 { s with top := { s.top with altNext := [], faultN := false } }

/-- DOMAIN_WAKE_DONE: the drive is in Run, or the domains that accesses woke are ready. -/
def wakeDone (s : State) : State :=
  if s.top.wakeRun then wakeOk (runAgain s)
  else if s.top.waking = [] then s
  else
    let on := s.top.waking.foldl (fun n d => Nat.lor n (2 ^ d)) (getF s F.PWR_DOM_STAT_ON)
    wakeOk (setF F.PWR_STATE_IN_TRANSITION 0 (addF F.PWR_WAKES_COUNT 1 (setF F.PWR_DOM_STAT_ON on
      { s with top := { s.top with woken := s.top.waking.foldl (fun l d => insertNat d l) s.top.woken, waking := [] } })))

/-- A wake fails for good: the domain and the drive stay where they are (R428). -/
def wakeFails (d step bit : Nat) (s : State) : State :=
  let s1 := setF F.PWR_WAKE_FAIL_VALID 1 (setF F.PWR_WAKE_FAIL_ALT_NEXT 1
    (setF F.PWR_WAKE_FAIL_STEP step (setF F.PWR_WAKE_FAIL_DOMAIN d (happen basePwr bit s))))
  setF F.PWR_STATE_IN_TRANSITION 0 { s1 with top := { s1.top with
    faultN := true, wakeRun := false, waking := [], altNext := insertNat d s1.top.altNext } }

/-- The PLLs switch to the other reference clock (R429): a port on common clock enters Recovery. -/
def failover (s : State) : State :=
  let s1 := happen basePwr 4 (addF F.PWR_FAILOVERS_COUNT 1
    (setF F.PWR_REFCLK_ACTIVE (1 - getF s F.PWR_REFCLK_ACTIVE) s))
  if isSet s F.TOP_STRAP_SRIS then s1
  else { s1 with host := { s1.host with recov :=
    ([0, 1].filter (fun p => isSet s (F.HOST_LINK_STATUS_UP p))).foldl (fun l p => insertNat p l) s1.host.recov } }

/-- WAKE_STEP_TIMEOUT (R428): one retry, then the step's action; at the first failure the domain and step are noted. -/
def stepTimeout (d step : Nat) (retryFailed other : Bool) (s : State) : State :=
  if !s.top.wakeRun && !s.top.waking.contains d then s
  else
    let s1 := happen basePwr 3 s
    if !retryFailed then s1
    else
      match step with
      | 1 => wakeFails d 1 5 s1
      | 2 =>
        if other && isSet s F.PWR_CFG_FAILOVER_EN then
          failover (setF F.PWR_WAKE_FAIL_VALID 1 (setF F.PWR_WAKE_FAIL_STEP 2 (setF F.PWR_WAKE_FAIL_DOMAIN d s1)))
        else wakeFails d 2 7 s1
      | 3 =>
        if other then setF F.PWR_REFCLK_ACTIVE (1 - getF s F.PWR_REFCLK_ACTIVE)
          (setF F.PWR_WAKE_FAIL_VALID 1 (setF F.PWR_WAKE_FAIL_STEP 3 (setF F.PWR_WAKE_FAIL_DOMAIN d s1)))
        else wakeFails d 3 6 s1
      | _ => s1

/-- REFCLK_LOST (R429). -/
def refclkLostDo (other : Bool) (s : State) : State :=
  let s1 := setF (if getF s F.PWR_REFCLK_ACTIVE = 0 then F.PWR_REFCLK_A_OK else F.PWR_REFCLK_B_OK) 0 s
  if isSet s F.PWR_CFG_FAILOVER_EN && other then failover s1 else s1

/-- DOMAIN_DRAIN_TIMEOUT (R425): the domain stays on and the state entry is abandoned. -/
def drainTimeout (d : Nat) (s : State) : State :=
  if s.top.target.isNone && !s.top.drains.contains d then s
  else
    let s1 := happen basePwr 2 (setF F.PWR_DOM_DRAIN_FAILED 1 (setF F.PWR_DOM_DRAIN_DOMAIN d s))
    setF F.PWR_STATE_IN_TRANSITION 0 { s1 with top := { s1.top with
      target := none, drains := removeNat d s1.top.drains } }

/-- ACCESS_STALL_TIMEOUT (R423): 900 µs after its arrival a stalled access completes, a read with all ones. -/
def stallTimeout (a : Nat) (isWrite : Bool) (s : State) : State :=
  match s.top.stalled.find? (fun x => decide (x.2.1 = a) && decide (x.2.2.isSome = isWrite)) with
  | none => s
  | some x =>
    let s1 := addF F.PWR_WAKE_TIMEOUTS_COUNT 1 (maxF F.PWR_STALL_MAX_US 900 (happen basePwr 1 (noteErr basePwr 0xF3 (domainOf a) a
      { s with top := { s.top with stalled := s.top.stalled.erase x } })))
    if isWrite then s1 else emit (.readData x.1 a 0xFFFFFFFF) s1

/-- A rising edge on WAKE_IN: a wake to Run, or the exit from Off that OFF_EXIT carries out (R418, R419). -/
def wakeIn (s : State) : State :=
  let s1 := { s with top := { s.top with wakeIn := true } }
  if s.top.off ∨ s.top.halted then s1 else wakeDrive s1

/-- A submission queue tail doorbell (R104, R418); the function's tile requests fetch while head and tail differ. -/
def sqDoorbell (fn qid tail : Nat) (s : State) : State :=
  let q := getSq s fn qid
  if q.size = 0 ∨ q.size ≤ tail ∨ s.top.off then s else wakeDrive (setSq fn qid { q with tail := tail } s)

/-- An autonomous transition that a PF0 function makes while no command is in flight (R417). -/
def apst (fn ps : Nat) (s : State) : State :=
  if isPF0 s fn && (getFn s fn).rdy && decide (ps ≤ 4) && !busyCmds s && decide (psAllowed s ps = 0)
      && decide (powerNow s = 0) then
    selectPs fn ps false s
  else s

/-- LINK_RECOVERY_EXIT (R429, R440): the link is up again at a width, and fetch and posting on the port resume. -/
def recoveryExit (p width : Nat) (s : State) : State :=
  if s.host.recov.contains p then
    setF (F.HOST_LINK_STATUS_WIDTH p) width { s with host := { s.host with recov := removeNat p s.host.recov } }
  else s

/-! ## The ledger (R478, R479, R489) -/

/-- OUTCOME of a start step in TOP_LEDGER_OUT. -/
def outF (i : Nat) : Fld := if i ≤ 8 then ⟨Reg.TOP_LEDGER_OUT_LO, 4 * i - 4, 4⟩ else ⟨Reg.TOP_LEDGER_OUT_HI, 4 * i - 36, 4⟩

/-- FAILS of a start step. -/
def failsF (i : Nat) : Fld := ⟨Reg.TOP_LEDGER_FAILS, 2 * i - 2, 2⟩

/-- A start ends: its record, of which 16 are kept, newest first. -/
def endStart (ms : Nat) (s : State) : State :=
  match s.top.start with
  | none => s
  | some r =>
    let e : StartRec :=
      { no := s.top.startCount, beat := beatNow s
        kind := (if r.cold then 1 else 0) + 2 * r.trigger + (if r.inp.strapRecovery then 16 else 0)
        mode := modeNow s, last := getF s F.TOP_LEDGER_STEP_STEP
        outcome := (List.range 12).map (fun i => getF s (outF (i + 1))), ms := ms }
    { s with top := { s.top with starts := (e :: s.top.starts).take 16, start := none, starting := false } }

/-- A start is cut short: its step is INTERRUPTED, and every domain except AON is powered down (R472). -/
def cutStart (s : State) : State :=
  match s.top.start with
  | none => s
  | some r => enterOff (endStart 0xFFFFFFFF (setF (outF r.step) 5 s))

def execWakeInRise (s : State) : Res := .next (wakeIn s)
def execPowerStateEntered (s : State) : Res := .next (stateEntered s)
def execIoWakeReturn (s : State) : Res := .next (ioReturn s)
def execOffEntry (s : State) : Res := .next (offDue s)
def execDomainDrainTimeout (d : Nat) (s : State) : Res := .next (drainTimeout d s)
def execWakeStepTimeout (d step : Nat) (retryFailed otherClockGood : Bool) (s : State) : Res :=
  .next (stepTimeout d step retryFailed otherClockGood s)
def execRefclkLost (otherGood : Bool) (s : State) : Res := .next (refclkLostDo otherGood s)
def execSqDoorbellWrite (fn qid tail : Nat) (s : State) : Res := .next (sqDoorbell fn qid tail s)
def execAutonomousPowerStateTransition (fn ps : Nat) (s : State) : Res := .next (apst fn ps s)
def execLinkRecoveryExit (p width : Nat) (s : State) : Res := .next (recoveryExit p width s)

end Sys2Proof.Machine
end

