-- ==== Sys2Proof/Machine/Zone.lean ====
section
/-!
DEFINITION. Machine/Zone.lean: what every I/O command meets at its fetch (R98, R102, R114), zones and their limits (R131,
R136, R137, R140 to R144), the pallets (R201), and the Zone Management Send rows.
-/

namespace Sys2Proof.Machine

/-! ## I/O commands -/

/-- The NSID that names every namespace. -/
def allNs : Nat := 0xFFFFFFFF

/-- A command for the namespace already carries the Deferred Write Error that clears the flag (R114). -/
def delivering (s : State) (nsid : Nat) : Bool :=
  s.host.cmds.any (fun p => decide (p.2.status = stDeferred)
    && (decide (p.2.h.nsid = nsid) || (decide (p.2.h.nsid = allNs) && decide (p.2.tile = some (getNs s nsid).tile))))

/-- The next I/O command of the namespace reports its deferred-error flag (R114). -/
def dweDue (s : State) (nsid : Nat) : Bool := (getNs s nsid).dwe && !delivering s nsid

/-- An I/O command as fetched: answered at once where the mode, the namespace or the deferred-error flag says so
(R102, step 1 of a write or a read, R114), else served by `f`.  `reads` lists the commands that EVACUATE serves. -/
def ioCmd (h : CmdHead) (kind : CmdKind) (reads : Bool) (f : State → State) (s : State) : State :=
  match takeCmd h s with
  | none => s
  | some s1 =>
    match (if modeNow s1 = modeEvacuate then none else ioGate s1 reads) with
    | some st => answer h kind st 0 [] s1
    | none =>
      if !nsOk s1 h then answer h kind stNs 0 [] s1
      else if dweDue s1 h.nsid then answer h kind stDeferred 0 [] s1
      else match ioGate s1 reads with
        | some st => answer h kind st 0 [] s1
        | none => f s1

/-- The tile of a command's namespace. -/
def tileOf (s : State) (h : CmdHead) : Nat := (getNs s h.nsid).tile

/-! ## Counting zones -/

def isOpen (st : ZSt) : Bool := decide (st = .implOpen ∨ st = .explOpen)
def isActive (st : ZSt) : Bool := decide (st = .implOpen ∨ st = .explOpen ∨ st = .closed)

/-- Zones of a tile whose state satisfies a test, over all its namespaces (R140). -/
def tileZones (s : State) (t : Nat) (f : ZSt → Bool) : List (Nat × Nat) :=
  (s.map.zones.filter (fun p => f p.2.st && decide ((getNs s (p.1 / 2 ^ 20)).tile = t))).map
    (fun p => (p.1 / 2 ^ 20, p.1 % 2 ^ 20))

def openCount (s : State) (t : Nat) : Nat := (tileZones s t isOpen).length
def activeCount (s : State) (t : Nat) : Nat := (tileZones s t isActive).length
def openMax (s : State) (t : Nat) : Nat := getF s (F.TILE_ZONES_MAX_OPEN t)
def activeMax (s : State) (t : Nat) : Nat := getF s (F.TILE_ZONES_MAX_ACTIVE t)

/-- A tile limit was met (R89 bit 5). -/
def limitHit (t : Nat) (s : State) : State := happenTile t 5 s

/-- The capacity reported for an Empty zone: that of the narrowest course that can be bound (R132). -/
def emptyCap (s : State) : Nat := zcapOf s ((List.range (width s)).filter (fun ch => !chLost s ch)).length

/-- The capacity of a zone. -/
def zoneCap (s : State) (nsid z : Nat) : Nat :=
  if (getZone s nsid z).course.isSome then (getZone s nsid z).cap else emptyCap s

/-- Zones of a namespace. -/
def nsZones (s : State) (nsid : Nat) : Nat := (getNs s nsid).nsze / zsze s

def stCapExceeded : Sts := ⟨0, 0x81, false⟩

/-! ## Pallets (R201) -/

/-- Slots that wait for a program on a course. -/
def slotsOn (s : State) (c : Nat) : Nat :=
  (s.map.slots.filter (fun p => decide (p.2.course = some c)
    && (decide (p.2.st = .filling) || decide (p.2.st = .staged) || decide (p.2.st = .laid)))).length

/-- Data MUs for which a course still has room. -/
def roomOn (s : State) (c : Nat) : Nat :=
  courseMus s c - (getCourse s c).nextWave * muPerWave s (courseCell s c) * (courseWidth s c - 1) - slotsOn s c

def zeroT (_ : Nat) : Nat := 0

/-- The pallet course a tile fills: the present one, or a new one. -/
def palletFor (t : Nat) (s : State) : Option (Nat × State) :=
  let c := tget zeroT s.map.pallets t - 1
  if tget zeroT s.map.pallets t ≠ 0 ∧ (getCourse s c).st = .taken ∧ (getCourse s c).use = .pallet ∧ 0 < roomOn s c then
    some (c, s)
  else match takeCourse 2 t .pallet false s with
    | some (c1, s1) => some (c1, { s1 with map := { s1.map with pallets := tset zeroT t (c1 + 1) s1.map.pallets } })
    | none => none

/-- A staged slot is to be laid on a pallet. -/
def toPallet (k : Nat) (s : State) : State :=
  let x := getSlot s k
  match palletFor x.tile s with
  | some (c, s1) => setSlot k { getSlot s1 k with course := some c } s1
  | none => sparesExhausted s

/-- The FILLING and STAGED slots of a course that no wave has loaded move to pallets. -/
def palletMove (c : Nat) (s : State) : State :=
  if (getCourse s c).use = .pallet then s
  else (s.map.slots.filter (fun p => decide (p.2.course = some c)
      && (decide (p.2.st = .filling) || decide (p.2.st = .staged)))).foldl (fun t p => toPallet p.1 t) s

/-- PALLET_IDLE: no write has been admitted to the course for YARD_CFG.PALLET_IDLE frames. -/
def palletIdleDo (c : Nat) (s : State) : State :=
  if (getCourse s c).lastAdm / 64 + getNZ s F.YARD_CFG_PALLET_IDLE ≤ frameNow s ∧ (getCourse s c).st = .taken ∧ mapOpen s then
    palletMove c s
  else s

/-! ## Opening and closing -/

/-- A zone becomes Closed: its staged data moves to pallets (R136, R201). -/
def closeZone (nsid z : Nat) (s : State) : State :=
  let x := getZone s nsid z
  let s1 := setZone nsid z { x with st := .closed, reported := .closed } s
  match x.course with
  | some c => palletMove c s1
  | none => s1

/-- The implicitly opened zone of a tile whose last admitted write is oldest (R140). -/
def oldestImplicit (s : State) (t : Nat) : Option (Nat × Nat) :=
  (tileZones s t (fun st => decide (st = .implOpen))).foldl (fun best p =>
    match best with
    | none => some p
    | some b => if (getZone s p.1 p.2).lastAdm < (getZone s b.1 b.2).lastAdm then some p else best) none

/-- A course is bound to a zone (R131, R273). -/
def bindZone (nsid z : Nat) (s : State) : Sts × State :=
  match takeCourse 0 (getNs s nsid).tile (.zone nsid z) false s with
  | some (c, s1) =>
    (stOk, setZone nsid z { getZone s1 nsid z with course := some c, cap := zcapOf s1 (courseWidth s1 c) } s1)
  | none => (stCapExceeded, sparesExhausted s)

/-- A zone that is open already, or is opened as `st`: the active limit, the open limit and the course (R140); `implicit`
closes the oldest implicitly opened zone at the open limit. -/
def openZone (nsid z : Nat) (implicit : Bool) (s : State) : Sts × State :=
  let x := getZone s nsid z
  let t := (getNs s nsid).tile
  let st : ZSt := if implicit then .implOpen else .explOpen
  let enter (y : State) : State :=
    setZone nsid z { getZone y nsid z with st := st, reported := st, lastAdm := beatNow s, finishRec := false } y
  if isOpen x.st then
    (stOk, if implicit then s else setZone nsid z { x with st := .explOpen, reported := .explOpen } s)
  else if x.st = .empty ∧ activeMax s t ≤ activeCount s t then (stTooManyActive, limitHit t s)
  else if openMax s t ≤ openCount s t then
    match (if implicit then oldestImplicit s t else none) with
    | none => (stTooManyOpen, limitHit t s)
    | some o =>
      if x.st = .empty then
        let (r, s1) := bindZone nsid z s
        if r = stOk then (stOk, enter (closeZone o.1 o.2 s1)) else (r, s1)
      else (stOk, enter (closeZone o.1 o.2 s))
  else if x.st = .empty then
    let (r, s1) := bindZone nsid z s
    if r = stOk then (stOk, enter s1) else (r, s1)
  else (stOk, enter s)

/-! ## The actions on one zone (R136) -/

def actClose : Nat := 1
def actFinish : Nat := 2
def actOpen : Nat := 3
def actReset : Nat := 4
def actOffline : Nat := 5

/-- Finish Zone (R143, R155): Full from Empty at once; else Full for every check, and shown so once sealed. -/
def finishZone (nsid z : Nat) (s : State) : State :=
  let x := getZone s nsid z
  if x.st = .empty then setZone nsid z { x with st := .full, reported := .full } s
  else
    let s1 := setZone nsid z { x with st := .full } s
    match x.course with
    | some c =>
      let s2 := palletMove c s1
      setCourse c { getCourse s2 c with st := if (getCourse s2 c).st = .taken then .full else (getCourse s2 c).st } s2
    | none => s1

/-- Reset Zone (R142). -/
def resetZone (nsid z : Nat) (s : State) : State :=
  let x := getZone s nsid z
  let m := muOf s nsid (z * zsze s)
  let s1 := unmapLines m.1 (zcapOf s (width s) / 192) s
  let s2 := match x.course with
    | some c => releaseCourse c s1
    | none => s1
  let s3 := setStack (zKey nsid z) [] (setZone nsid z zone0 s2)
  keysSettle (settleWaits { s3 with mac := { s3.mac with behind := removeNat (zKey nsid z) s3.mac.behind } })

/-- One action on one zone, by the zone's state as it takes effect. -/
def zoneAct (a nsid z : Nat) (s : State) : Sts × State :=
  let st := (getZone s nsid z).st
  if a = actOffline then
    (if st = .readOnly then (stOk, zoneOffline nsid z 0 0x04 s)
     else if st = .offline then (stZoneOffline, s) else (stZoneTransition, s))
  else if st = .readOnly then (stZoneReadOnly, s)
  else if st = .offline then (stZoneOffline, s)
  else if a = actClose then (if isOpen st then (stOk, closeZone nsid z s) else (stZoneTransition, s))
  else if a = actFinish then
    (if st = .full then (stZoneTransition, s) else (stOk, finishZone nsid z s))
  else if a = actOpen then
    (if st = .implOpen ∨ st = .closed ∨ st = .empty then openZone nsid z false s else (stZoneTransition, s))
  else if a = actReset then (if st = .empty then (stZoneTransition, s) else (stOk, resetZone nsid z s))
  else (stField, s)

/-- The zones that Select All names (R144). -/
def selectAll (a nsid : Nat) (s : State) : List Nat :=
  (s.map.zones.filter (fun p => decide (p.1 / 2 ^ 20 = nsid) &&
    (if a = actClose then isOpen p.2.st
     else if a = actFinish then isActive p.2.st
     else if a = actOpen then decide (p.2.st = .closed)
     else if a = actReset then isActive p.2.st || decide (p.2.st = .full)
     else decide (p.2.st = .readOnly)))).map (fun p => p.1 % 2 ^ 20)

/-! ## When an action takes effect (R139, R325, R330) -/

/-- A command works on a zone. -/
def onZone (s : State) (nsid z : Nat) (c : Cmd) : Bool := decide (c.h.nsid = nsid) && decide (c.slba / zsze s = z)

/-- A write is admitted to the zone and its completion is not yet committed to a plan. -/
def writing (s : State) (nsid z : Nat) : Bool :=
  s.host.cmds.any (fun p => onZone s nsid z p.2 && !p.2.planned && decide (p.2.st ≠ .fetched)
    && decide (p.2.kind = .write ∨ p.2.kind = .append ∨ p.2.kind = .writeZeroes))

/-- A Zone Audit of the zone is in progress. -/
def auditing (s : State) (nsid z : Nat) : Bool :=
  s.host.cmds.any (fun p => onZone s nsid z p.2 && decide (p.2.kind = .audit) && decide (p.2.st = .started))

/-- The action must still wait on one zone. -/
def actWaits (a nsid : Nat) (s : State) (z : Nat) : Bool :=
  (decide (a = actClose ∨ a = actFinish ∨ a = actReset) && writing s nsid z)
    || (decide (a = actReset ∨ a = actOffline) && auditing s nsid z)
    || (decide (a = actFinish) && s.mac.behind.contains (zKey nsid z))

/-- An action takes effect as a whole, and its command is ready. -/
def actNow (i a nsid : Nat) (zs : List Nat) (s : State) : State :=
  match zs with
  | [z] => let (st, s1) := zoneAct a nsid z s; ready i st 0 [] s1
  | _ =>
    let l := selectAll a nsid s
    let t := (getNs s nsid).tile
    if a = actOpen ∧ openMax s t < openCount s t + l.length then ready i stTooManyOpen 0 [] (limitHit t s)
    else ready i stOk 0 [] (l.foldl (fun y z => (zoneAct a nsid z y).2) s)

/-- Two actions may meet on a zone. -/
def actsMeet (x y : Nat × Nat × Nat × List Nat) : Bool :=
  decide (x.2.2.1 = y.2.2.1) && (decide (x.2.2.2 = []) || decide (y.2.2.2 = []) || x.2.2.2.any (fun z => y.2.2.2.contains z))

/-- Every waiting action that may take effect does, in order (R138). -/
def runActs : List (Nat × Nat × Nat × List Nat) → List (Nat × Nat × Nat × List Nat) → State → State
  | kept, [], s => { s with host := { s.host with zoneActs := kept } }
  | kept, x :: rest, s =>
    let zs := if x.2.2.2 = [] then selectAll x.2.1 x.2.2.1 s else x.2.2.2
    if kept.any (actsMeet x) || zs.any (actWaits x.2.1 x.2.2.1 s) then runActs (kept ++ [x]) rest s
    else runActs kept rest (actNow x.1 x.2.1 x.2.2.1 x.2.2.2 s)

def settleActs (s : State) : State := if mapOpen s then runActs [] s.host.zoneActs s else s

/-- Zone Management Send (R98, R136, R139): admitted at its fetch, checked when it takes effect. -/
def zoneSend (a : Nat) (h : CmdHead) (zslba : Nat) (all : Bool) (s : State) : State :=
  ioCmd h (.zoneSend a) false (fun t =>
    if !(getNs t h.nsid).zoned then answer h (.zoneSend a) stOpcode 0 [] t
    else if !all && decide ((getNs t h.nsid).nsze ≤ zslba) then answer h (.zoneSend a) stLbaRange 0 [] t
    else if !all && decide (zslba % zsze t ≠ 0) then answer h (.zoneSend a) stField 0 [] t
    else
      let (i, t1) := allocCmd { cmdOf h (.zoneSend a) t with st := .working, slba := zslba } t
      settleActs { t1 with host := { t1.host with
        zoneActs := t1.host.zoneActs ++ [(i, a, h.nsid, if all then [] else [zslba / zsze t])] } }) s

/-- Set Zone Descriptor Extension (R154). -/
def setZdx (h : CmdHead) (s : State) : State :=
  ioCmd h (.zoneSend 0x10) false (fun t =>
    answer h (.zoneSend 0x10) (if (getNs t h.nsid).zoned then stField else stOpcode) 0 [] t) s

/-- Finish Zone Recommended (R141): no write for FRL = 259,200 s, which is 16,200,000,000 beats of 16 µs. -/
def finishRecommended (nsid z : Nat) (s : State) : State :=
  let x := getZone s nsid z
  if isActive x.st && !x.finishRec && decide (x.lastAdm + 16200000000 ≤ beatNow s) then
    zoneChanged nsid z (setZone nsid z { x with finishRec := true } s)
  else s

def execPalletIdle (course : Nat) (s : State) : Res := .next (palletIdleDo course s)
def execOpenZone (h : CmdHead) (zslba : Nat) (all : Bool) (s : State) : Res := .next (zoneSend actOpen h zslba all s)
def execCloseZone (h : CmdHead) (zslba : Nat) (all : Bool) (s : State) : Res := .next (zoneSend actClose h zslba all s)
def execFinishZone (h : CmdHead) (zslba : Nat) (all : Bool) (s : State) : Res := .next (zoneSend actFinish h zslba all s)
def execResetZone (h : CmdHead) (zslba : Nat) (all : Bool) (s : State) : Res := .next (zoneSend actReset h zslba all s)
def execOfflineZone (h : CmdHead) (zslba : Nat) (all : Bool) (s : State) : Res :=
  .next (zoneSend actOffline h zslba all s)
def execSetZoneDescriptorExtension (h : CmdHead) (s : State) : Res := .next (setZdx h s)
def execZoneFinishRecommended (nsid zone : Nat) (s : State) : Res := .next (finishRecommended nsid zone s)

end Sys2Proof.Machine
end

