-- ==== Sys2Proof/Machine/Write.lean ====
section
/-!
DEFINITION. Machine/Write.lean: the write path (steps 1 to 6 of a write; R18, R79, R106, R110, R111, R137, R138, R144,
R146 to R151, R195, R197, R198, R201, R527).
-/

namespace Sys2Proof.Machine

/-! ## MUs of a command -/

/-- First LBAs of the MUs that a range covers. -/
def musOf (slba nlb : Nat) : List Nat := (List.range ((slba % 16 + nlb + 15) / 16)).map (fun k => (slba / 16 + k) * 16)

/-- Blocks of an MU that a range covers. -/
def blocksIn (mu slba nlb : Nat) : List Nat :=
  (List.range 16).filter (fun t => decide (slba ≤ mu + t) && decide (mu + t < slba + nlb))

/-- The map names a slot. -/
def named (s : State) (k : Nat) : Bool :=
  let x := getSlot s k
  let e := getEnt s x.line x.idx
  entYard e && decide (entSlot e = k)

/-- The slot in FILLING or STAGED of an MU: one that the map does not name yet before one that it names (R197). -/
def slotOfMu (s : State) (nsid mu : Nat) : Option Nat :=
  let l := (s.map.slots.filter (fun p => decide (p.2.nsid = nsid) && decide (p.2.lba = mu) && !p.2.reloc
    && (decide (p.2.st = .filling) || decide (p.2.st = .staged)))).map (·.1)
  match l.find? (fun k => !named s k) with
  | some k => some k
  | none => l.head?

/-- The slot that takes blocks `ts` of an MU in place: FILLING, with all of them absent (R197). -/
def joinable (s : State) (nsid mu : Nat) (ts : List Nat) : Option Nat :=
  match slotOfMu s nsid mu with
  | some k => if (getSlot s k).st = .filling ∧ ts.all (fun t => !present (getSlot s k) t) then some k else none
  | none => none

/-! ## Walls (R146) -/

def wallKey (t w : Nat) : Nat := t * 512 + w

/-- The open course of a wall, or the next one it takes. -/
def wallCourse (t w : Nat) (s : State) : Option (Nat × State) :=
  let v := tget zeroT s.map.walls (wallKey t w)
  if v ≠ 0 ∧ (getCourse s (v - 1)).st = .taken ∧ 0 < roomOn s (v - 1) then some (v - 1, s)
  else match takeCourse 0 t (.wall w) false s with
    | some (c, s1) =>
      some (c, gcTrigger t { s1 with map := { s1.map with walls := tset zeroT (wallKey t w) (c + 1) s1.map.walls } })
    | none => none

/-- The course that a new slot of a command is to be laid on. -/
def courseFor (c : Cmd) (t : Nat) (s : State) : Option (Nat × State) :=
  if (getNs s c.h.nsid).zoned then
    ((getZone s c.h.nsid (c.slba / zsze s)).course).map (fun k => (k, s))
  else wallCourse t c.wall s

/-! ## Filling (R198) -/

/-- The blocks of a slot that are to be filled from OLD: absent, claimed by no write, and in a zoned namespace below the
write pointer. -/
def toFill (s : State) (k : Nat) : List Nat :=
  let x := getSlot s k
  (List.range 16).filter (fun t => !present x t && !claimed s k t &&
    (!(getNs s x.nsid).zoned || decide (x.lba % zsze s + t < (getZone s x.nsid (x.lba / zsze s)).wp)))

/-- One absent block: copied from the yard slot that OLD names, deallocated where OLD is unmapped, lost where OLD is; a
fill read brings one that OLD names on flash. -/
def fillOne (k t : Nat) (s : State) : State :=
  let x := getSlot s k
  if entYard x.old then
    let y := getSlot s (entSlot x.old)
    if present y t ∧ y.nsid = x.nsid ∧ y.lba = x.lba then tagFormed (fillSlot k t (copyBlk s x (slotBlk y t)) s) else s
  else if entState x.old = stUnmapped then
    let (q, s1) := nextWseq s
    tagFormed (fillSlot k t (deallocBlk s1 x t q) s1)
  else if entState x.old = stLost then tagFormed (fillLost k t s)
  else s

def fillNow (k : Nat) (s : State) : State :=
  if (getSlot s k).st = .filling then (toFill s k).foldl (fun y t => fillOne k t y) s else s

/-! ## Admission -/

/-- MUs of a range that need a new slot. -/
def newMus (s : State) (c : Cmd) : List Nat :=
  (musOf c.slba c.nlb).filter (fun mu => (joinable s c.h.nsid mu (blocksIn mu c.slba c.nlb)).isNone)

/-- A new slot of an MU (R197, R317); none where no course can be had. -/
def newSlot (c : Cmd) (t mu : Nat) (s : State) : Option (Nat × State) :=
  match (freeSlots s 1).head?, courseFor c t s with
  | some k, some (cr, s1) =>
    let m := muOf s c.h.nsid mu
    some (k, setCourse cr { getCourse s1 cr with lastAdm := beatNow s } (setSlot k
      { slot0 with st := .filling, tile := t, nsid := c.h.nsid, lba := mu, line := m.1, idx := m.2, kver := curVer s t
                   old := getEnt s m.1 m.2, course := some cr } s1))
  | _, _ => none

/-- Slots for each MU of a range, in order. -/
def takeSlots (c : Cmd) (t : Nat) : List Nat → State → Option (List Nat × State)
  | [], s => some ([], s)
  | mu :: rest, s =>
    let here := match joinable s c.h.nsid mu (blocksIn mu c.slba c.nlb) with
      | some k => some (k, s)
      | none => newSlot c t mu s
    match here with
    | none => none
    | some (k, s1) => (takeSlots c t rest s1).map (fun p => (k :: p.1, p.2))

/-- A command waits at the head of its queue (R79, R106): the queue's head steps back to it. -/
def holdCmd (i : Nat) (s : State) : State :=
  let c := getCmd s i
  let q := getSq s c.h.fn c.h.qid
  if q.held.isSome then s
  else setSq c.h.fn c.h.qid { q with held := some i, head := (q.head + q.size - 1) % q.size } s

/-- A command held at the head of its queue is past it. -/
def unhold (i : Nat) (s : State) : State :=
  let c := getCmd s i
  let q := getSq s c.h.fn c.h.qid
  if q.held = some i then setSq c.h.fn c.h.qid { q with held := none, head := (q.head + 1) % q.size } s else s

/-- The course to be moved to pallets for want of slots: of the tile itself, or of tiles above their guarantee, the one
with a staged slot whose blocks are oldest (R201). -/
def oldestSeq (x : Slot) : Nat := x.blks.foldl (fun m b => min m (blkTag b.2).wseq) (2 ^ 56)
def forcedCourse (s : State) (t : Nat) : Option Nat :=
  ((s.map.slots.filter (fun p => decide (p.2.st = .staged) && p.2.course.isSome
    && (match p.2.course with
        | some c => decide ((getCourse s c).use ≠ .pallet)
        | none => false)
    && (decide (p.2.tile = t) || decide (yardMin s p.2.tile < yardUse s p.2.tile)))).foldl (fun (best : Option Slot) p =>
      match best with
      | none => some p.2
      | some b => if oldestSeq p.2 < oldestSeq b then some p.2 else best) none).bind (·.course)

/-- A tile finds no slot (R79, R201). -/
def yardWait (t : Nat) (s : State) : State :=
  if s.tiles.waiting.contains t then s
  else
    let s1 := happenTile t 3 { s with tiles := { s.tiles with waiting := s.tiles.waiting ++ [t] } }
    match forcedCourse s1 t with
    | some c => happen baseCourse 4 (palletMove c s1)
    | none => s1

/-- The checks of R137, in their order, before the limits. -/
def zoneCheck (s : State) (c : Cmd) : Sts :=
  let z := c.slba / zsze s
  let zs := [z, (c.slba + c.nlb - 1) / zsze s]
  let x := getZone s c.h.nsid z
  let app := decide (c.kind = .append)
  let off := if app then x.wp else c.slba % zsze s
  if zs.any (fun k => decide ((getZone s c.h.nsid k).st = .offline)) then stZoneOffline
  else if zs.any (fun k => decide ((getZone s c.h.nsid k).st = .readOnly)) then stZoneReadOnly
  else if x.st = .full then stZoneFull
  else if zoneCap s c.h.nsid z < off + c.nlb then stZoneBoundary
  else if !app && decide (off ≠ x.wp) then stZoneInvalidWrite
  else if app && decide (c.slba % zsze s ≠ 0) then stField
  else stOk

/-- The command ends with a failing status. -/
def failCmd (i : Nat) (st : Sts) (s : State) : State := ready i st 0 [] s

/-- The value that all blocks of an atomic group share is taken at admission (R111, R195). -/
def atomicGroup (s : State) (c : Cmd) : Bool :=
  isSet s (F.HOST_ATOMIC_ACTIVE 0) && decide (2 ≤ c.nlb) && decide (c.nlb ≤ 32)

/-- The header of block `off` of a command, with its write sequence. -/
def hdrFor (s : State) (c : Cmd) (x : Slot) (off q kind : Nat) : Hdr :=
  let ag := atomicGroup s c
  { tile := x.tile, ns := (x.nsid - 1) % 1024, lba := c.slba + off, wseq := q, kver := x.kver, ag := ag
    agPos := if ag then off else 0, agLast := if ag then c.nlb - 1 else 0, reloc := false, kind := kind }

/-- The slot of a command that holds an LBA. -/
def slotFor (c : Cmd) (lba : Nat) : Nat := c.slots.getD (lba / 16 - c.slba / 16) 0

/-- The next write sequence for a block of a command: one value for a whole atomic group. -/
def seqFor (i : Nat) (s : State) : Nat × State :=
  let c := getCmd s i
  if atomicGroup s c then
    if c.nonce = 0 then
      let (q, s1) := nextWseq s
      (q, setCmd i { c with nonce := q + 1 } s1)
    else (c.nonce - 1, s)
  else nextWseq s

/-- A block of a command is tagged (R195) and waits for the others. -/
def tagBlock (i off kind data metaF : Nat) (s : State) : State :=
  let (q, s1) := seqFor i s
  let c := getCmd s1 i
  let x := getSlot s1 (slotFor c (c.slba + off))
  tagFormed (setCmd i { c with
    arrived := tset blk0 (c.slba + off) (formBlk s1 (hdrFor s1 c x off q kind) data metaF) c.arrived
    left := removeNat (c.slba + off) c.left } s1)

/-! ## Landing the blocks -/

/-- The newer of two copies of a block, by write sequence. -/
def newer (a b : Blk) : Bool := decide ((blkTag b).wseq < (blkTag a).wseq)

/-- An MU's entry is switched to a slot (R197, R208): what the slot named so far holds newer is carried over, and OLD
becomes the entry in effect on flash. -/
def switchMu (k : Nat) (s : State) : State :=
  let x := getSlot s k
  let e := getEnt s x.line x.idx
  if named s k then s
  else
    let s1 := if entYard e then
        let y := getSlot s (entSlot e)
        let s' := (List.range 16).foldl (fun t b =>
          let z := getSlot t k
          if present y b ∧ (¬ present z b ∨ newer (slotBlk y b) (slotBlk z b)) then
            setSlot k (putBlk b (copyBlk t z (slotBlk y b)) z) t
          else t) s
        setSlot k { getSlot s' k with old := y.old } s'
      else setSlot k { x with old := e } s
    mapYard x.line x.idx k x.kver s1

/-- A slot whose blocks are all present is STAGED. -/
def stageSlot (k : Nat) (s : State) : State :=
  let x := getSlot s k
  if x.st = .filling ∧ x.present = allPresent then setSlot k { x with st := .staged } s else s

/-- The arrived blocks of a command enter their slots. -/
def landBlocks (c : Cmd) (s : State) : State :=
  c.arrived.foldl (fun t p =>
    let k := slotFor c p.1
    setSlot k (putBlk (p.1 % 16) p.2 (getSlot t k)) t) s

/-- The slots of a command that some block of it has entered. -/
def landedSlots (c : Cmd) : List Nat := c.slots.filter (fun k => c.arrived.any (fun p => slotFor c p.1 == k))

/-- A slot that was laid to a pallet before its blocks came gives way to a new one of the same key version. -/
def renewSlots (i : Nat) (s : State) : State :=
  let c := getCmd s i
  let (l, s1) := c.slots.foldl (fun (acc : List Nat × State) k =>
    let x := getSlot acc.2 k
    if x.st = .filling ∨ x.st = .staged then (acc.1 ++ [k], acc.2)
    else match newSlot c (tileOf s c.h) ((c.slba / 16 + acc.1.length) * 16) acc.2 with
      | some (j, t) => (acc.1 ++ [j], setSlot j { getSlot t j with kver := x.kver } t)
      | none => (acc.1 ++ [k], acc.2)) (([] : List Nat), s)
  setCmd i { c with slots := l } s1

/-- Steps 4 and 5 of a write for every block that has arrived, in one map update. -/
def landWrite (i : Nat) (s0 : State) : State :=
  let s := renewSlots i s0
  let c := getCmd s i
  let l := landedSlots c
  let s1 := landBlocks c (setCmd i { c with arrived := [], st := .working } s)
  let s2 := l.foldl (fun t k => switchMu k t) s1
  let s3 := c.slots.foldl (fun t k => stageSlot k (fillNow k t)) s2
  if (getNs s c.h.nsid).zoned then catchUp c.h.nsid (c.slba / zsze s) s3 else s3

/-- Writes of a function complete only after their programs (R18, R119). -/
def writeThrough (s : State) (fn : Nat) : Bool := isSet s F.PWR_HOLDUP_STAT_WRITE_THROUGH || !(getFn s fn).wce

/-- A write is done: its completion is ready, in write-through once its slots are programmed. -/
def writeDone (i : Nat) (s : State) : State :=
  let s1 := landWrite i s
  let c := getCmd s1 i
  let w := if writeThrough s c.h.fn then c.slots.filter (slotHeld s1) else []
  setCmd i { c with st := if w = [] then .ready else .working, waits := w, left := [] } s1

/-- A write that is admitted: its slots are taken, absent blocks of them filled, and its blocks awaited; Write Zeroes
brings them itself (R144). -/
def startWrite (i : Nat) (slots : List Nat) (wp : Nat) (s : State) : State :=
  let c := getCmd s i
  let all := (List.range c.nlb).map (fun k => c.slba + k)
  let s1 := notePeak (setCmd i { c with
    st := .started, slots := slots, left := all
    dw0 := if c.kind = .append then wp % 2 ^ 32 else 0, dw1 := if c.kind = .append then wp / 2 ^ 32 else 0 } s)
  let s2 := slots.foldl (fun t k => fillNow k t) s1
  if c.kind = .writeZeroes then
    writeDone i ((List.range c.nlb).foldl (fun t k => tagBlock i k kindZeroes 0 0 t) s2)
  else s2

/-- The tile may have its slots now: those of R79, and free ones. -/
def slotsToHand (s : State) (t n : Nat) : Bool :=
  decide (n = 0) || (yardAllows s t n && decide (n ≤ (freeSlots s n).length))

/-- A write to a zone at its admission (R137 to R140, R273, R325). -/
def admitZoned (i t : Nat) (s : State) : State :=
  let c := getCmd s i
  let n := c.h.nsid
  let z := c.slba / zsze s
  let x := getZone s n z
  let meets := s.host.zoneActs.any (fun a => decide (a.2.2.1 = n) && (decide (a.2.2.2 = []) || a.2.2.2.contains z))
  let off := if c.kind = .append then x.wp else c.slba % zsze s
  if meets || (s.mac.behind.contains (zKey n z) && decide (zoneCap s n z ≤ off + c.nlb)) then holdCmd i s
  else
    let st := zoneCheck s c
    if st ≠ stOk then failCmd i st (unhold i s)
    else if isSet s F.TROWEL_STATUS_SPARES_EXHAUSTED && (match x.course with
        | some k => (getCourse s k).replacing
        | none => false) then
      failCmd i stZoneReadOnly (unhold i (zoneReadOnly n z 0 0x03 s))
    else
      let c1 := { c with slba := z * zsze s + off }
      if !slotsToHand s t (newMus s c1).length then yardWait t (holdCmd i s)
      else
        let (r, s1) := openZone n z true s
        if r ≠ stOk then failCmd i r (unhold i s1)
        else
          let s2 := setCmd i c1 (unhold i s1)
          match takeSlots c1 t (musOf c1.slba c1.nlb) s2 with
          | none => failCmd i stCapExceeded s2
          | some (slots, s3) =>
            let y := getZone s3 n z
            let wp := y.wp + c.nlb
            startWrite i slots c1.slba (setZone n z { y with
              wp := wp, lastAdm := beatNow s, st := if wp = y.cap then .full else y.st, finishRec := false } s3)

/-- A write to a conventional namespace at its admission (R146, R273). -/
def admitConventional (i t : Nat) (s : State) : State :=
  let c := getCmd s i
  if !slotsToHand s t (newMus s c).length then yardWait t (holdCmd i s)
  else match takeSlots c t (musOf c.slba c.nlb) (unhold i s) with
    | none => failCmd i stCapExceeded (sparesExhausted (unhold i s))
    | some (slots, s1) => startWrite i slots 0 s1

/-! ## Dataset Management (R527) -/

/-- Some range covers a block. -/
def covers (l : List (Nat × Nat)) (lba : Nat) : Bool := l.any (fun r => decide (r.1 ≤ lba) && decide (lba < r.1 + r.2))

/-- MUs at the ends of the ranges. -/
def dsmMus (l : List (Nat × Nat)) : List Nat :=
  ((l.flatMap (fun r => if r.2 = 0 then [] else [r.1 / 16 * 16, (r.1 + r.2 - 1) / 16 * 16])).dedup)

/-- MUs that the ranges cover only in part. -/
def partMus (l : List (Nat × Nat)) : List Nat :=
  (dsmMus l).filter (fun mu => (List.range 16).any (fun t => covers l (mu + t)) && !(List.range 16).all (fun t => covers l (mu + t)))

/-- Every mapped MU of a namespace that lies wholly inside the ranges is unmapped. -/
def unmapWhole (nsid : Nat) (l : List (Nat × Nat)) (s : State) : State :=
  (s.map.lines.flatMap (fun p => (List.range 12).map (fun k => (p.1, k)))).foldl (fun t m =>
    match muLba s m.1 m.2 with
    | some a =>
      if a.1 = nsid ∧ entState (getEnt t m.1 m.2) ≠ stUnmapped ∧ (List.range 16).all (fun k => covers l (a.2 + k)) then
        mapSet m.1 m.2 0 t
      else t
    | none => t) s

/-- A slot for a part-covered MU: its covered blocks become deallocated, the others keep their data. -/
def dsmPart (i t : Nat) (l : List (Nat × Nat)) (mu : Nat) (s : State) : State :=
  let c := { getCmd s i with slba := mu, nlb := 16 }
  match newSlot c t mu s with
  | none => sparesExhausted s
  | some (k, s1) =>
    let s2 := ((List.range 16).filter (fun b => covers l (mu + b))).foldl (fun y b =>
      let (q, y1) := nextWseq y
      tagFormed (setSlot k (putBlk b (deallocBlk y1 (getSlot y1 k) b q) (getSlot y1 k)) y1)) s1
    notePeak (stageSlot k (fillNow k (switchMu k s2)))

/-- A deallocation takes effect, in one map update, once its part-covered MUs have their slots. -/
def admitDsm (i t : Nat) (s : State) : State :=
  let c := getCmd s i
  let l := c.ranges
  let ps := partMus l
  if !slotsToHand s t ps.length then yardWait t (holdCmd i s)
  else
    let s1 := ps.foldl (fun y mu => dsmPart i t l mu y) (unhold i s)
    ready i stOk 0 [] (keysSettle (handEmptied (unmapWhole c.h.nsid l s1)))

/-! ## The rows -/

/-- WRITE_ADMITTED: a command that waits for its slots is admitted, or goes on waiting. -/
def admitWrite (i : Nat) (s : State) : State :=
  let c := getCmd s i
  if !hasCmd s i || decide (c.st ≠ .fetched) || !moving s then s
  else if !mapReady s c.h.nsid c.slba c.nlb then (if c.kind = .dsm || isWrite c.kind then holdCmd i s else s)
  else
    let t := tileOf s c.h
    if c.kind = .dsm then admitDsm i t s
    else if !isWrite c.kind then s
    else if (getNs s c.h.nsid).zoned then admitZoned i t s
    else admitConventional i t s

/-- A write that was held obtains its slots: the tile waits no longer. -/
def admitted (i : Nat) (s : State) : State :=
  let s1 := admitWrite i s
  let t := tileOf s (getCmd s i).h
  if (getCmd s i).st = .fetched ∧ (getCmd s1 i).st ≠ .fetched then
    { s1 with tiles := { s1.tiles with waiting := removeNat t s1.tiles.waiting } }
  else s1

/-- Slots that a command leaves behind: those that hold nothing are freed, the others filled (R198). -/
def leaveSlots (i : Nat) (slots : List Nat) (s : State) : State :=
  slots.foldl (fun t k =>
    let others := t.host.cmds.any (fun p => decide (p.1 ≠ i) && p.2.slots.contains k && decide (p.2.st = .started))
    if !named t k && decide ((getSlot t k).present = 0) && !others then setSlot k slot0 t
    else stageSlot k (fillNow k t)) s

/-- What a zoned write has not brought is laid with KIND deallocated (R120; log 20). -/
def deallocRest (i : Nat) (s : State) : State :=
  let c := getCmd s i
  c.left.foldl (fun t lba => tagBlock i (lba - c.slba) kindDealloc 0 0 t) s

/-- A started write is cut short: the blocks that have arrived are written where `keep`, and nothing more of it comes
(R101, R120). -/
def cutWrite (i : Nat) (keep : Bool) (s : State) : State :=
  let c := getCmd s i
  let all := if (getNs s c.h.nsid).zoned then (List.range c.nlb).map (fun k => c.slba + k) else []
  let s0 := if keep && !(atomicGroup s c && decide (c.left ≠ [])) then s
    else setCmd i { c with arrived := [], left := all } s
  let s1 := if (getNs s c.h.nsid).zoned then deallocRest i s0 else s0
  let s2 := landWrite i s1
  leaveSlots i c.slots (setCmd i { getCmd s2 i with left := [] } s2)

/-- WRITE_DATA_ARRIVAL (R101, R195): each block is tagged as it comes; with the last one every map entry is switched in
one update (R111, R197). -/
def dataArrival (i : Nat) (blocks : List BlockIn) (pi : Option PiError) (s : State) : State :=
  let c := getCmd s i
  if !hasCmd s i || decide (c.st ≠ .started) || !isWrite c.kind || !moving s then s
  else if pi.isSome || blocks.any (fun b => !b.piOk) then
    failCmd i (piStatus (pi.getD .guard)) (cutWrite i false s)
  else if !writeSideUp s then failCmd i stNoEngine (cutWrite i false s)
  else
    let s1 := (blocks.filter (fun b => c.left.contains (c.slba + b.off))).foldl
      (fun t b => tagBlock i b.off kindData b.data b.metaField t) s
    if (getCmd s1 i).left = [] then writeDone i s1 else s1

/-- A namespace places by FDP (R149, R150). -/
def fdpOn (s : State) (nsid : Nat) : Bool :=
  s.host.fdpTiles.contains (getNs s nsid).tile && decide ((getNs s nsid).handles ≠ [])

/-- The placement handle of a write: 0 without a data placement directive, and for one that is not valid (R151). -/
def handleOf (s : State) (nsid : Nat) (x : Hints) : Nat :=
  if fdpOn s nsid && decide (x.dtype = 2) && decide (x.dspec < (getNs s nsid).handles.length) then x.dspec else 0

/-- The wall of the default action (R148, R167). -/
def defaultWall (s : State) (nsid : Nat) (x : Hints) : Nat :=
  if fdpOn s nsid then (getNs s nsid).handles.getD (handleOf s nsid x) 0 else 0

/-- A write refused before its search: size, range, engines and key (R99, R318, R333). -/
def writeRefusal (s : State) (h : CmdHead) (slba nlb : Nat) : Option Sts :=
  let t := tileOf s h
  if nlb = 0 ∨ 512 < nlb then some stField
  else if (getNs s h.nsid).nsze < slba + nlb then some stLbaRange
  else if !writeSideUp s then some stNoEngine
  else if keyState s (4 * t + curVer s t) ≠ keyLoaded ∧ keyState s (4 * t + curVer s t) ≠ keyRetiring then some stNoKey
  else none

/-- A Write, Write Zeroes or Zone Append enters the table with the default action; MATCHER_SEARCH gives it another. -/
def writeCmd (kind : CmdKind) (h : CmdHead) (slba nlb : Nat) (hints : Hints) (s : State) : State :=
  ioCmd h kind false (fun t =>
    if kind = .append ∧ !(getNs t h.nsid).zoned then answer h kind stOpcode 0 [] t
    else match writeRefusal t h slba nlb with
      | some st => answer h kind st 0 [] t
      | none =>
        let t1 := if fdpOn t h.nsid && decide (hints.dtype = 2) && decide ((getNs t h.nsid).handles.length ≤ hints.dspec) then
            fdpNote (tileOf t h) fdpInvalid hints.dspec 0 t else t
        let (i, t2) := allocCmd { cmdOf h kind t1 with
          slba := slba, nlb := nlb, hints := hints, wall := defaultWall t h.nsid hints } t1
        queueSearch i t2) s

/-- Dataset Management (R144, R527): deallocate only (R98). -/
def dsmCmd (h : CmdHead) (dealloc : Bool) (ranges : List DsmRange) (s : State) : State :=
  ioCmd h .dsm false (fun t =>
    let l := ranges.map (fun r => (r.slba, r.nlb))
    if 256 < ranges.length then answer h .dsm stField 0 [] t
    else if l.any (fun r => decide ((getNs t h.nsid).nsze < r.1 + r.2)) then answer h .dsm stLbaRange 0 [] t
    else if !dealloc || (getNs t h.nsid).zoned then answer h .dsm stOk 0 [] t
    else if partMus l ≠ [] ∧ !writeSideUp t then answer h .dsm stNoEngine 0 [] t
    else
      let (i, t1) := allocCmd { cmdOf h .dsm t with ranges := l, wall := defaultWall t h.nsid hints0 } t
      admitted i t1) s

def execWrite (h : CmdHead) (slba nlb : Nat) (hints : Hints) (s : State) : Res := .next (writeCmd .write h slba nlb hints s)
def execWriteZeroes (h : CmdHead) (slba nlb : Nat) (hints : Hints) (s : State) : Res :=
  .next (writeCmd .writeZeroes h slba nlb hints s)
def execZoneAppend (h : CmdHead) (zslba nlb : Nat) (hints : Hints) (s : State) : Res :=
  .next (writeCmd .append h zslba nlb hints s)
def execDatasetManagement (h : CmdHead) (deallocate : Bool) (ranges : List DsmRange) (s : State) : Res :=
  .next (dsmCmd h deallocate ranges s)
def execWriteAdmitted (cmd : Nat) (s : State) : Res := .next (admitted cmd s)
def execWriteDataArrival (cmd : Nat) (blocks : List BlockIn) (pi : Option PiError) (s : State) : Res :=
  .next (dataArrival cmd blocks pi s)

end Sys2Proof.Machine
end

