-- ==== Sys2Proof/Machine/ReadCmd.lean ====
section
/-!
DEFINITION. Machine/ReadCmd.lean: Read, Verify, Zone Audit, Read Tags, Flush, I/O Management and Zone Management Receive
(R21, R114, R118, R119, R152, R219 to R238, R319, R329 to R331), and a timed-out read of host memory.
-/

namespace Sys2Proof.Machine

/-! ## Looking a block up -/

/-- Where a block stands: no data, lost for good, present in a yard slot, or on flash (R21, R226, R236). -/
inductive Place where
  | unmapped | lost | slot (k : Nat) (e : Ent) | flash (e : Ent)
  deriving DecidableEq, Repr

/-- Follow an entry, through OLD where the block is absent from a FILLING slot. -/
def placeFrom (s : State) (t : Nat) : Nat → Ent → Place
  | 0, _ => .unmapped
  | n + 1, e =>
    if entYard e then
      if present (getSlot s (entSlot e)) t then .slot (entSlot e) e else placeFrom s t n (getSlot s (entSlot e)).old
    else if entState e = stUnmapped then .unmapped
    else if entState e = stLost then .lost
    else .flash e

/-- Where the block of an LBA stands; at or past a zone's write pointer it is unmapped. -/
def placeOf (s : State) (nsid lba : Nat) : Place :=
  if (getNs s nsid).zoned && decide ((getZone s nsid (lba / zsze s)).wp ≤ lba % zsze s) then .unmapped
  else placeFrom s (lba % 16) 4 (entOf s nsid lba)

/-- The key version of a place is erased. -/
def erasedAt (s : State) (tile : Nat) (e : Ent) : Bool := decide (keyState s (4 * tile + entKver e) = keyErased)

/-- A block whose version is erased is not read for the host (R319). -/
def notRead (i lba : Nat) (kind : RdKind) (e : Ent) (s : State) : State :=
  let s1 := addF F.MAC_UNVERIFIABLE_COUNT 1 s
  match kind with
  | .audit => noteTag i lba { tagRes0 with res := 2, mapB := mapByte e } s1
  | _ => blockDone i lba (some stUnverifiable) s1

/-- The read of one block of a command begins; `slot` is the slot at which its lookup completes (R222). -/
def startBlock (i : Nat) (kind : RdKind) (slot lba : Nat) (s : State) : State :=
  let c := getCmd s i
  let n := c.h.nsid
  let tile := tileOf s c.h
  let r : Rd := { rd0 with
    kind := kind, cmd := i, nsid := n, lba := lba, tile := tile, beat := c.beat, deadline := deadlineOf c.qos, lr := c.hints.lr
    t := lba % 16, since := if 56 ≤ slot then beatNow s + 1 else beatNow s }
  match placeOf s n lba with
  | .unmapped =>
    (match kind with
     | .host => blockDone i lba none (toHost (.block c.h.fn c.h.cid lba 0 (deallocMeta s n)) (setCmd i { c with st := .working } s))
     | .verify => blockDone i lba none s
     | _ => noteTag i lba { tagRes0 with res := 3, mapB := mapByte (entOf s n lba) } s)
  | .lost =>
    (match kind with
     | .host => blockDone i lba (some stUnrecovered) s
     | .verify => blockDone i lba (some stUnrecovered) s
     | _ => noteTag i lba { tagRes0 with res := 4, mapB := mapByte (entOf s n lba) } s)
  | .slot k e =>
    if erasedAt s tile e ∧ kind ≠ .tags then notRead i lba kind e s
    else
      let (j, s1) := newRd { r with entry := e, st := .decoded, blk := slotBlk (getSlot s k) (lba % 16) } s
      setSlot k { getSlot s1 k with pins := (getSlot s1 k).pins ++ [j] } s1
  | .flash e =>
    if erasedAt s tile e ∧ kind ≠ .tags then notRead i lba kind e s
    else
      let (j, s1) := newRd { r with
        entry := e, ch := entCh e, lun := entLun e, brick := entBrick e, u := entU e, st := .waiting } s
      if lunLost s (entCh e) (entLun e) then readAround j s1 else s1

/-- Reads of every block of a command. -/
def startBlocks (i : Nat) (kind : RdKind) (slot : Nat) (s : State) : State :=
  (getCmd s i).left.foldl (fun t lba => startBlock i kind slot lba t) s

/-- Some zone of a range is Offline (R137). -/
def rangeOffline (s : State) (nsid slba nlb : Nat) : Bool :=
  (getNs s nsid).zoned &&
    [slba / zsze s, (slba + nlb - 1) / zsze s].any (fun z => decide ((getZone s nsid z).st = .offline))

/-- A block of the range needs the read side. -/
def needsRead (s : State) (nsid slba nlb : Nat) : Bool :=
  (List.range nlb).any (fun k => match placeOf s nsid (slba + k) with
    | .slot _ _ => true
    | .flash _ => true
    | _ => false)

/-- A read, Verify, Zone Audit or Read Tags refused before its lookups. -/
def readRefusal (s : State) (h : CmdHead) (slba nlb most : Nat) : Option Sts :=
  if nlb = 0 ∨ most < nlb then some stField
  else if (getNs s h.nsid).nsze < slba + nlb then some stLbaRange
  else if rangeOffline s h.nsid slba nlb then some stZoneOffline
  else if needsRead s h.nsid slba nlb && !readSideUp s then some stNoEngine
  else none

def lbas (slba nlb : Nat) : List Nat := (List.range nlb).map (fun k => slba + k)

/-- Read (R20 to R22, R236, R237). -/
def readCmd (h : CmdHead) (slba nlb : Nat) (hints : Hints) (slot : Nat) (s : State) : State :=
  ioCmd h .read true (fun t =>
    match readRefusal t h slba nlb 512 with
    | some st => answer h .read st 0 [] t
    | none =>
      let (i, t1) := allocCmd { cmdOf h .read t with slba := slba, nlb := nlb, hints := hints, left := lbas slba nlb } t
      let t2 := if hints.dsm ≠ 0 ∧ isSet t1 F.SORT_CFG_READ_HINTS then queueSearch i t1 else t1
      startBlocks i .host slot t2) s

/-- Verify (R238). -/
def verifyCmd (h : CmdHead) (slba nlb : Nat) (s : State) : State :=
  ioCmd h .verify true (fun t =>
    match readRefusal t h slba nlb 65536 with
    | some st => answer h .verify st 0 [] t
    | none =>
      let (i, t1) := allocCmd { cmdOf h .verify t with slba := slba, nlb := nlb, left := lbas slba nlb } t
      endIfDone i (startBlocks i .verify 0 t1)) s

/-- Read Tags (R331). -/
def readTagsCmd (h : CmdHead) (slba count : Nat) (s : State) : State :=
  ioCmd h .readTags true (fun t =>
    match readRefusal t h slba (count + 1) 32768 with
    | some st => answer h .readTags st 0 [] t
    | none =>
      let (i, t1) := allocCmd { cmdOf h .readTags t with slba := slba, nlb := count + 1, left := lbas slba (count + 1) } t
      endIfDone i (startBlocks i .tags 0 t1)) s

/-! ## Zone Audit (R329, R330) -/

/-- Zone Audits in progress. -/
def auditsNow (s : State) : Nat :=
  (s.host.cmds.filter (fun p => decide (p.2.kind = .audit) && decide (p.2.st = .started))).length

/-- An audit starts: every block of the zone is read. -/
def startAudit (i : Nat) (s : State) : State :=
  let c := getCmd s i
  endIfDone i (startBlocks i .audit 0 (setCmd i { c with st := .started, left := lbas c.slba c.nlb } s))

/-- Audits that wait start, sixteen at most being in progress. -/
def settleAudits (s : State) : State :=
  (s.host.cmds.filter (fun p => decide (p.2.kind = .audit) && decide (p.2.st = .fetched))).foldl (fun t p =>
    if auditsNow t < 16 ∧ mapReady t p.2.h.nsid p.2.slba p.2.nlb = true then startAudit p.1 t else t) s

def auditCmd (h : CmdHead) (zslba nonce : Nat) (s : State) : State :=
  ioCmd h .audit true (fun t =>
    let z := getZone t h.nsid (zslba / zsze t)
    if !(getNs t h.nsid).zoned || decide (zslba % zsze t ≠ 0) || decide ((getNs t h.nsid).nsze ≤ zslba) then
      answer h .audit stField 0 [] t
    else if z.st = .offline then answer h .audit stZoneOffline 0 [] t
    else if !z.zdev then answer h .audit stNotSealed 0 [] t
    else if !readSideUp t then answer h .audit stNoEngine 0 [] t
    else
      let (_, t1) := allocCmd { cmdOf h .audit t with slba := zslba, nlb := z.blocks, nonce := nonce } t
      settleAudits t1) s

/-! ## Ends -/

/-- The last block of a read is in host memory (R223): its completion can go into the plan for beat k + 2, or k + 3 from
slot 60 on. -/
def readTransferred (i slot : Nat) (s : State) : State :=
  let c := getCmd s i
  if hasCmd s i ∧ c.kind = .read ∧ c.left = [] ∧ c.st ≠ .ready then
    let s1 := if c.failLba.isSome then errInfoLog i s else s
    setCmd i { c with st := .ready, due := beatNow s + (if slot < 60 then 2 else 3) } s1
  else s

/-- Reads of a command end without their data. -/
def dropReads (i : Nat) (s : State) : State :=
  (s.map.rds.filter (fun p => decide (p.2.cmd = i) &&
    (match p.2.kind with
     | .host => true
     | .verify => true
     | .audit => true
     | .tags => true
     | .source j => decide ((getRd s j).cmd = i)
     | _ => false))).foldl (fun t p => dropRd p.1 t) s

/-- A read of host memory timed out: Data Transfer Error (R129 bit 6). -/
def cplTimeout (i : Nat) (s : State) : State :=
  let c := getCmd s i
  if hasCmd s i ∧ c.st ≠ .ready then
    let s1 := if isWrite c.kind ∧ c.st = .started then cutWrite i false s else dropReads i (unhold i s)
    happen (baseHost (portOf s c.h.fn)) 6 (failCmd i stXfer s1)
  else s

/-! ## Flush (R114, R118, R119) -/

/-- The namespaces that a Flush names. -/
def flushNs (s : State) (h : CmdHead) : List Nat :=
  if h.nsid = allNs then
    (s.host.ns.filter (fun p => p.2.attached && decide (tileOfFn s h.fn = some p.2.tile))).map (·.1)
  else [h.nsid]

/-- Slots whose acknowledged data a Flush waits for. -/
def flushSlots (s : State) (l : List Nat) : List Nat :=
  (s.map.slots.filter (fun p => l.contains p.2.nsid && decide (p.2.acked ≠ 0) && slotHeld s p.1)).map (·.1)

def flushBody (h : CmdHead) (late : Bool) (s : State) : State :=
  let l := flushNs s h
  if l.any (dweDue s) then answer h .flush stDeferred 0 [] s
  else
    let w := if writeThrough s h.fn then flushSlots s l else []
    (allocCmd { cmdOf h .flush s with
      st := if w = [] then .ready else .working, waits := w, due := beatNow s + (if late then 3 else 2) } s).2

def flushCmd (h : CmdHead) (late : Bool) (s : State) : State :=
  if h.nsid = allNs then
    match takeCmd h s with
    | none => s
    | some t =>
      match ioGate t true with
      | some st => answer h .flush st 0 [] t
      | none => if (tileOfFn t h.fn).isNone then answer h .flush stNs 0 [] t else flushBody h late t
  else ioCmd h .flush true (flushBody h late) s

/-! ## I/O Management (R152) -/

/-- Blocks of a course not laid yet. -/
def leftBlocks (s : State) (c : Nat) : Nat :=
  16 * (courseMus s c - (getCourse s c).nextWave * muPerWave s (courseCell s c) * (courseWidth s c - 1))

/-- The reclaim unit of a handle ends: its course is full where it stands, and what is staged for it goes to the wall's
next course. -/
def endUnit (t w : Nat) (s : State) : State :=
  let v := tget zeroT s.map.walls (wallKey t w)
  if v = 0 ∨ (getCourse s (v - 1)).st ≠ .taken then s
  else
    let c := v - 1
    let s1 := if leftBlocks s c = 0 then s else fdpNote t fdpUnwritten w (leftBlocks s c) s
    let s2 := setCourse c { getCourse s1 c with st := .full }
      { s1 with map := { s1.map with walls := tset zeroT (wallKey t w) 0 s1.map.walls } }
    handEmptied ((s2.map.slots.filter (fun p => decide (p.2.course = some c)
      && (decide (p.2.st = .filling) || decide (p.2.st = .staged)))).foldl (fun y p =>
        match wallCourse t w y with
        | some (k, y1) => setSlot p.1 { getSlot y1 p.1 with course := some k } y1
        | none => sparesExhausted y) s2)

/-- I/O Management Send, Reclaim Unit Handle Update, on placement handles of the namespace. -/
def ioSend (h : CmdHead) (handles : List Nat) (s : State) : State :=
  ioCmd h .ioMgmt false (fun t =>
    let l := (getNs t h.nsid).handles
    if !fdpOn t h.nsid || handles.any (fun p => decide (l.length ≤ p)) then answer h .ioMgmt stField 0 [] t
    else answer h .ioMgmt stOk 0 [] (handles.foldl (fun y p => endUnit (tileOf t h) (l.getD p 0) y) t)) s

/-- A reclaim unit handle status descriptor: placement identifier, handle, time limit, available media writes. -/
def ruhDesc (s : State) (t p w : Nat) : List Byte :=
  let v := tget zeroT s.map.walls (wallKey t w)
  let n := if v ≠ 0 ∧ (getCourse s (v - 1)).st = .taken then leftBlocks s (v - 1) else zcapOf s (width s)
  leBytes 2 p ++ leBytes 2 w ++ leBytes 4 0 ++ leBytes 8 n ++ leBytes 16 0

/-- I/O Management Receive, Reclaim Unit Handle Status. -/
def ioReceive (h : CmdHead) (s : State) : State :=
  ioCmd h .ioMgmt false (fun t =>
    if !fdpOn t h.nsid then answer h .ioMgmt stField 0 [] t
    else
      let l := (getNs t h.nsid).handles
      answer h .ioMgmt stOk 0 (leBytes 14 0 ++ leBytes 2 l.length ++
        (List.range l.length).flatMap (fun p => ruhDesc t (tileOf t h) p (l.getD p 0))) t) s

/-! ## Zone Management Receive -/

/-- Zone states as the Zone Descriptor encodes them. -/
def zsCode (st : ZSt) : Nat :=
  match st with
  | .empty => 1
  | .implOpen => 2
  | .explOpen => 3
  | .closed => 4
  | .readOnly => 0xD
  | .full => 0xE
  | .offline => 0xF

/-- The 64-byte zone descriptor extension (R154). -/
def zdxBytes (x : Zone) : List Byte :=
  if x.zdev then
    digBytes x.root ++ leBytes 8 x.sealEpoch ++ leBytes 4 x.blocks
      ++ leBytes 1 (1 + (if x.signed then 2 else 0) + (if x.partialSeal then 4 else 0)) ++ leBytes 3 0
  else leBytes 64 0

/-- A Zone Descriptor (R132, R141, R154): type, state, attributes, capacity, start, write pointer. -/
def zoneDesc (s : State) (nsid z : Nat) (extended : Bool) : List Byte :=
  let x := getZone s nsid z
  leBytes 1 2 ++ leBytes 1 (zsCode x.reported * 16) ++ leBytes 1 ((if x.finishRec then 2 else 0) + (if x.zdev then 128 else 0))
    ++ leBytes 5 0 ++ leBytes 8 (zoneCap s nsid z) ++ leBytes 8 (z * zsze s) ++ leBytes 8 (z * zsze s + x.wp) ++ leBytes 32 0
    ++ (if extended then zdxBytes x else [])

def zoneReceive (h : CmdHead) (slba count : Nat) (extended : Bool) (s : State) : State :=
  ioCmd h .zoneReceive true (fun t =>
    if !(getNs t h.nsid).zoned then answer h .zoneReceive stOpcode 0 [] t
    else if (getNs t h.nsid).nsze ≤ slba then answer h .zoneReceive stLbaRange 0 [] t
    else
      let z := slba / zsze t
      let n := nsZones t h.nsid - z
      answer h .zoneReceive stOk 0 (leBytes 8 n ++ leBytes 56 0 ++
        (List.range (min n count)).flatMap (fun k => zoneDesc t h.nsid (z + k) extended)) t) s

/-- A command whose lookups name an absent map unit waits in its queue until the unit is present (R406). -/
def whenPresent (h : CmdHead) (slba nlb : Nat) (f : State → State) (s : State) : State :=
  if mapReady s h.nsid slba nlb then f s else s

def execRead (h : CmdHead) (slba nlb : Nat) (hints : Hints) (slot : Nat) (s : State) : Res :=
  .next (whenPresent h slba nlb (readCmd h slba nlb hints slot) s)
def execVerify (h : CmdHead) (slba nlb : Nat) (s : State) : Res := .next (whenPresent h slba nlb (verifyCmd h slba nlb) s)
def execReadTags (h : CmdHead) (slba count : Nat) (s : State) : Res :=
  .next (whenPresent h slba (count + 1) (readTagsCmd h slba count) s)
def execZoneAudit (h : CmdHead) (zslba nonce : Nat) (s : State) : Res := .next (auditCmd h zslba nonce s)
def execReadDataTransferred (cmd slot : Nat) (s : State) : Res := .next (readTransferred cmd slot s)
def execHostCplTimeout (cmd : Nat) (s : State) : Res := .next (cplTimeout cmd s)
def execFlush (h : CmdHead) (late : Bool) (s : State) : Res := .next (flushCmd h late s)
def execIoManagementSend (h : CmdHead) (handles : List Nat) (s : State) : Res := .next (ioSend h handles s)
def execIoManagementReceive (h : CmdHead) (s : State) : Res := .next (ioReceive h s)
def execZoneManagementReceive (h : CmdHead) (slba count : Nat) (extended : Bool) (s : State) : Res :=
  .next (zoneReceive h slba count extended s)

end Sys2Proof.Machine
end

