-- ==== Sys2Proof/Machine/Host.lean ====
section
/-!
DEFINITION. Machine/Host.lean: fetching (R104, R105), completions on the beat (R108, R109, R114), controllers, functions
and links (R92, R94, R105, R120, R121, R128, R129).
-/

namespace Sys2Proof.Machine

/-! ## Fetching -/

/-- Queues of a function that hold a command and are not blocked by a held write (R106). -/
def fullQueues (s : State) (fn : Nat) : List Nat :=
  (s.host.sqs.filter (fun p => decide (p.1 / 8192 = fn) && decide (p.2.head ≠ p.2.tail) && p.2.held.isNone)).map
    (fun p => p.1 % 8192)

/-- A queue is urgent work: the admin queue, or one of Urgent priority. -/
def urgentQueue (s : State) (fn qid : Nat) : Bool := decide (qid = 0) || decide ((getSq s fn qid).prio = 0)

/-- Requesters of a port's arbiter with their functions: tiles by number, functions without a tile as 64 + FN (R104,
R105). -/
def requesters (s : State) (port : Nat) : List (Nat × Nat) :=
  ((List.range 64).filterMap (fun t =>
    match fnOfTile s t with
    | some fn =>
      if portOf s fn = port ∧ tileState s t = tActive ∧ serving s fn ∧ inflight s t < getF s (F.TILE_CMDS_MAX_INFLIGHT t)
          ∧ fullQueues s fn ≠ [] then some (t, fn) else none
    | none => none))
  ++ ((List.range 64).filterMap (fun fn =>
    if (tileOfFn s fn).isNone ∧ portOf s fn = port ∧ serving s fn ∧ (fullQueues s fn).contains 0 then some (64 + fn, fn)
    else none))

/-- A requester asks in class urgent (R104). -/
def asksUrgent (s : State) (port : Nat) (r : Nat × Nat) : Bool :=
  (fullQueues s r.2).any (urgentQueue s r.2)
    && decide (tget zeroT s.host.urgent r.1 < getNZ s (F.HOST_FETCH_CFG_URGENT_PER_BEAT port))

/-- The winner of an arbiter of R47 among requesters of one class: the lowest number at or above the pointer, counting
round. -/
def rotate (ptr : Nat) (l : List (Nat × Nat)) : Option (Nat × Nat) :=
  match l.find? (fun r => decide (ptr ≤ r.1)) with
  | some r => some r
  | none => l.head?

/-- The queue that a controller's own arbitration selects (R104): admin first, then Urgent queues in round robin, then the
weighted round robin, whose choice NVMe leaves to weights over time and is free here. -/
def pickQueue (s : State) (fn : Nat) : Nat :=
  let l := fullQueues s fn
  if l.contains 0 then 0
  else
    let u := l.filter (urgentQueue s fn)
    if u ≠ [] then
      match u.find? (fun q => decide (tget zeroT s.host.rr fn < q)) with
      | some q => q
      | none => u.headD 0
    else l.getD (Config.wrrPick s.freeCtr % max 1 l.length) 0

/-- COMMAND_FETCH: one grant of a port's arbiter; up to TILE_BURST commands of one queue are fetched; none
while the port's search queue is full (R170). -/
def fetchGrant (port : Nat) (s : State) : State :=
  let l := if 512 ≤ searchDepth s port then [] else requesters s port
  let u := l.filter (asksUrgent s port)
  let ptr := tget zeroT s.host.fetchPtr port
  match rotate ptr (if u ≠ [] then u else l) with
  | none => s
  | some r =>
    let q := pickQueue s r.2
    let x := getSq s r.2 q
    let room := match tileOfFn s r.2 with
      | some t => getF s (F.TILE_CMDS_MAX_INFLIGHT t) - inflight s t
      | none => 4096
    let n := min (min (getNZ s (F.HOST_FETCH_CFG_TILE_BURST port)) ((x.tail + x.size - x.head) % x.size)) room
    let s1 := setSq r.2 q { x with head := (x.head + n) % x.size, granted := x.granted + n } s
    addF (F.HOST_FETCHED_COUNT port) n (tick { s1 with host := { s1.host with
      fetchPtr := tset zeroT port (r.1 + 1) s1.host.fetchPtr
      urgent := if u ≠ [] then tset zeroT r.1 (tget zeroT s1.host.urgent r.1 + 1) s1.host.urgent else s1.host.urgent
      rr := if urgentQueue s r.2 q ∧ q ≠ 0 then tset zeroT r.2 q s1.host.rr else s1.host.rr } })

/-- A completion queue head doorbell frees entries. -/
def cqDoorbell (fn qid head : Nat) (s : State) : State :=
  let q := getCq s fn qid
  if q.size = 0 ∨ q.size ≤ head then s else setCq fn qid { q with head := head } s

/-! ## Posting (R108) -/

/-- The completion queue of a command. -/
def cqOf (s : State) (c : Cmd) : Nat := if c.h.qid = 0 then 0 else (getSq s c.h.fn c.h.qid).cq

def cqFull (q : Cq) : Bool := decide ((q.tail + 1) % max 1 q.size = q.head)

/-- Namespaces of the tile whose flag a Deferred Write Error clears when it is posted (R114). -/
def clearDwe (c : Cmd) (s : State) : State :=
  (s.host.ns.filter (fun p => p.2.dwe && (decide (p.1 = c.h.nsid)
    || (decide (c.h.nsid = allNs) && decide (c.tile = some p.2.tile))))).foldl
      (fun t p => setNs p.1 { getNs t p.1 with dwe := false } t) s

/-- The completion queue entry is written; the command leaves the table, and GRACE counts from the completion that
selected PS4 (R419). -/
def postNow (i : Nat) (signal : Bool) (s : State) : State :=
  let c := getCmd s i
  let k := cqOf s c
  let q := getCq s c.h.fn k
  let p := portOf s c.h.fn
  let s1 := emit (.cqe c.h.fn k c.h.qid (getSq s c.h.fn c.h.qid).head c.h.cid q.phase c.status.sct c.status.sc c.status.dnr
    c.dw0 c.dw1 c.data) s
  let s2 := if signal then emit (.msix c.h.fn q.vector) s1 else s1
  let s3 := setCq c.h.fn k { q with
    tail := (q.tail + 1) % q.size, phase := if (q.tail + 1) % q.size = 0 then !q.phase else q.phase } s2
  let s4 := if c.status = stDeferred then clearDwe c (addF (F.HOST_DWE_DELIVERED_COUNT p) 1 s3) else s3
  let s5 := addF (F.HOST_POSTED_COUNT p) 1 (dropCmd i s4)
  { s5 with top := { s5.top with
      waitFrom := frameNow s
      offFrom := if s5.top.target = some 4 ∧ s5.top.offFrom.isNone then some (frameNow s) else s5.top.offFrom } }

/-- POST and POST_QUIET. -/
def postEntry (c idx op : Nat) (linkOk : Bool) (s : State) : State :=
  onEntry (.poster c) idx op (fun p t =>
    let i := eCmd p.e
    let x := getCmd t i
    if grouting t || !running t then retire (.poster c) idx 0 t
    else if !hasCmd t i || decide (x.h.fn ≠ eFn p.e) then retire (.poster c) idx 3 t
    else if x.st ≠ .ready ∨ beatNow t < x.due ∨ isSet t (F.HOST_CPL_STAT_PAUSED (portOf t x.h.fn)) then t
    else if cqFull (getCq t x.h.fn (cqOf t x)) then
      retire (.poster c) idx 2 (addF (F.HOST_CQ_FULL_COUNT (portOf t x.h.fn)) 1 t)
    else if !linkOk then retire (.poster c) idx 5 t
    else retire (.poster c) idx 1 (postNow i (decide (op = 1)) t)) s

/-! ## Resets of a controller (R120) -/

/-- A fetched command of a reset function: unstarted it is dropped; a started write lands what has arrived; a started
read finishes on the dies and its data is discarded. -/
def resetCmd (i : Nat) (s : State) : State :=
  let c := getCmd s i
  let s1 := if isWrite c.kind ∧ c.st = .started then cutWrite i true s else s
  let s2 := { dropReads i s1 with host := { (dropReads i s1).host with
    zoneActs := (dropReads i s1).host.zoneActs.filter (fun a => a.1 != i) } }
  dropCmd i s2

/-- Every queue of a function is gone. -/
def dropQueues (fn : Nat) (s : State) : State :=
  { s with host := { s.host with
      sqs := s.host.sqs.filter (fun p => decide (p.1 / 8192 ≠ fn))
      cqs := s.host.cqs.filter (fun p => decide (p.1 / 8192 ≠ fn)) } }

/-- A controller reset of one function: its Asynchronous Event Requests end with its other commands. -/
def resetFn (fn : Nat) (s : State) : State :=
  let s0 := setFn fn { getFn s fn with aers := [] } s
  let s1 := (s.host.cmds.filter (fun p => decide (p.2.h.fn = fn))).foldl (fun t p => resetCmd p.1 t) s0
  let f := getFn s1 fn
  setFn fn { fn0 with vf := f.vf, lostC0 := f.lostC0, lostC1 := f.lostC1, errLog := f.errLog, ps := f.ps, psHeld := f.psHeld }
    (dropQueues fn (endSession (.storage fn) s1))

def pausedPort (s : State) (p : Nat) : Bool := isSet s (F.HOST_CPL_STAT_PAUSED p)

/-- During an activation pause a reset waits for its end (R122). -/
def orPaused (kind n port : Nat) (f : State → State) (s : State) : State :=
  if pausedPort s port then { s with host := { s.host with paused := s.host.paused ++ [(kind, n)] } } else f s

/-- A Function Level Reset also resets the function's configuration space, the virtual functions' enables excepted (R94,
R121). -/
def flr (fn : Nat) (s : State) : State :=
  let s1 := resetFn fn s
  setFn fn { fn0 with vf := (getFn s1 fn).vf, lostC0 := (getFn s1 fn).lostC0, lostC1 := (getFn s1 fn).lostC1 } s1

/-- Functions of a port. -/
def portFns (s : State) (p : Nat) : List Nat := (List.range 64).filter (fun fn => decide (portOf s fn = p))

/-- Every function of a port is reset (R121); the virtual functions go with the configuration space. -/
def resetPort (p : Nat) (s : State) : State :=
  (portFns s p).foldl (fun t fn => let t1 := resetFn fn t; setFn fn { getFn t1 fn with vf := false } t1) s

/-- A port exists in the present layout (R91). -/
def hasPort (s : State) (p : Nat) : Bool := decide (p = 0) || (decide (p = 1) && twoPort s)

/-- The link leaves DL_Active. -/
def linkDown (p : Nat) (s : State) : State :=
  if isSet s (F.HOST_LINK_STATUS_UP p) then
    let s1 := setF (F.HOST_LINK_STATUS_FLIT p) 0 (setF (F.HOST_LINK_STATUS_UP p) 0
      (setF (F.HOST_LINK_STATUS_WIDTH p) 0 (setF (F.HOST_LINK_STATUS_SPEED p) 0 s)))
    happen (baseHost p) 1 { s1 with host := { s1.host with recov := removeNat p s1.host.recov } }
  else s

/-- The layout's width of a port (R91). -/
def layoutWidth (s : State) : Nat :=
  match getF s F.TOP_STRAP_PORT with
  | 1 => 8
  | 2 => 4
  | _ => 16

/-- The highest speed that the port trains. -/
def maxSpeed (s : State) (p : Nat) : Nat :=
  let m := getF s (F.HOST_LINK_CTRL_MAX_SPEED p)
  if m = 0 ∨ m = 7 then 6 else m

/-- HOST_LINK_UP (R128, R129): PERST deasserted, the port present. -/
def linkUp (p speed w : Nat) (flit : Bool) (s : State) : State :=
  if !hasPort s p || s.top.perst.contains p || s.top.off || s.top.halted || isSet s (F.HOST_LINK_STATUS_UP p)
      || decide (speed = 0) || decide (maxSpeed s p < speed) || decide (layoutWidth s < w) then s
  else
    let s1 := setF (F.HOST_LINK_STATUS_FLIT p) (if flit then 1 else 0) (setF (F.HOST_LINK_STATUS_UP p) 1
      (setF (F.HOST_LINK_STATUS_WIDTH p) w (setF (F.HOST_LINK_STATUS_SPEED p) speed
        { s with host := { s.host with trained := tset (fun _ => 0) p w s.host.trained } })))
    let s2 := happen (baseHost p) 0 s1
    if speed < maxSpeed s p ∨ w < layoutWidth s then happen (baseHost p) 2 s2 else s2

/-- A link that trains again is in Recovery until LINK_RECOVERY_EXIT. -/
def retrain (p : Nat) (s : State) : State :=
  if isSet s (F.HOST_LINK_STATUS_UP p) then
    { s with host := { s.host with recov := insertNat p s.host.recov } } else s

/-- The width that the present throttle level gives a port: its trained width, or the fraction that KILN_UNITS names at
T2 and T3, down to no less than x1 (R437). -/
def levelWidth (s : State) (p : Nat) : Nat :=
  let w := tget (fun _ => 0) s.host.trained p
  let k := match getF s F.KILN_STATUS_LEVEL with
    | 2 => getF s F.KILN_UNITS_LINK2
    | 3 => getF s F.KILN_UNITS_LINK3
    | _ => 0
  max 1 (w / 2 ^ min k 2)

/-- LINK_WIDTH_CHANGE: the Kiln narrows or restores a port's width by an autonomous change through Recovery, where the
link partner supports one and LINK_EN is set; else the width stays as trained (R440). -/
def widthChange (p : Nat) (upconfigure : Bool) (s : State) : State :=
  if isSet s (F.HOST_LINK_STATUS_UP p) ∧ getF s (F.HOST_LINK_STATUS_WIDTH p) ≠ levelWidth s p then
    if upconfigure && isSet s F.KILN_CFG_LINK_EN then retrain p s
    else if isSet s F.KILN_STATUS_LINK_FIXED then s
    else happen baseKiln 6 (setF F.KILN_STATUS_LINK_FIXED 1 s)
  else s

/-- PERST of a port deasserts (R92): in Off or halted it is also an exit, which OFF_EXIT carries out (R419). -/
def perstHigh (p : Nat) (s : State) : State :=
  let s1 := { s with top := { s.top with perst := removeNat p s.top.perst } }
  if (s.top.off ∨ s.top.halted) ∧ s.top.perst.contains p then { s1 with top := { s1.top with wakeIn := true } } else s1

/-- A hot reset, or the assertion of PERST, of a port (R92, R121); PERST_B_N is ignored in the x16 layout. -/
def portResetDo (p : Nat) (s : State) : State :=
  if s.top.off ∨ s.top.halted then { s with top := { s.top with perst := insertNat p s.top.perst } }
  else if hasPort s p then
    let s1 := linkDown p { s with top := { s.top with perst := insertNat p s.top.perst } }
    orPaused 2 p p (resetPort p) s1
  else s

/-- CC.EN written from 0 to 1 (R105): a bound function's tile must be ACTIVE (R65); the admin queues have 4,096 entries
(log 22). -/
def enableFn (fn : Nat) (s : State) : State :=
  let f := getFn s fn
  let okTile := match tileOfFn s fn with
    | some t => decide (tileState s t = tActive)
    | none => true
  if f.en ∨ !okTile ∨ !(isPF0 s fn || f.vf) ∨ !isSet s (F.HOST_LINK_STATUS_UP (portOf s fn)) ∨ !running s then s
  else setCq fn 0 { cq0 with size := 4096 } (setSq fn 0 { sq0 with size := 4096 }
    (setFn fn { f with en := true, rdy := true, shut := false, shutting := false } s))

/-! ## Shutdown (R120) -/

/-- Yard data of a tile waits for programs. -/
def tileHeld (s : State) (t : Nat) : Bool := s.map.slots.any (fun p => decide (p.2.tile = t) && !p.2.reloc && slotHeld s p.1)

def shutdownNote (fn : Nat) (s : State) : State :=
  if (getFn s fn).en then setFn fn { getFn s fn with shutting := true } s else s

/-- With HOLDUP_OK the notification completes within a frame, and otherwise once the tile's yard data is programmed. -/
def shutdownEnd (fn : Nat) (s : State) : State :=
  let f := getFn s fn
  let held := match tileOfFn s fn with
    | some t => tileHeld s t
    | none => false
  if f.shutting && !(isSet s F.PWR_HOLDUP_STAT_WRITE_THROUGH && held) then
    setFn fn { f with shutting := false, shut := true } s
  else s

/-! ## Virtual functions (R94) -/

/-- VF Enable and NumVFs of a port's PF0. -/
def vfEnableDo (port numVfs : Nat) (enable : Bool) (s : State) : State :=
  if !hasPort s port then s
  else
    let pf := if port = 1 then 32 else 0
    let most := if twoPort s then 31 else 63
    ((List.range most).map (fun k => pf + k + 1)).foldl (fun t fn =>
      let on := enable && decide (fn - pf ≤ numVfs)
      if on then setFn fn { getFn t fn with vf := true } t
      else if (getFn t fn).vf then let t1 := resetFn fn t; setFn fn { getFn t1 fn with vf := false } t1
      else t) s

def execCommandFetch (port : Nat) (s : State) : Res := .next (fetchGrant port s)
def execCqDoorbellWrite (fn qid head : Nat) (s : State) : Res := .next (cqDoorbell fn qid head s)
def execPost (c idx : Nat) (linkOk : Bool) (s : State) : Res := .next (postEntry c idx 1 linkOk s)
def execPostQuiet (c idx : Nat) (linkOk : Bool) (s : State) : Res := .next (postEntry c idx 2 linkOk s)
def execFunctionLevelReset (fn : Nat) (s : State) : Res := .next (orPaused 1 fn (portOf s fn) (flr fn) s)
def execPortReset (p : Nat) (s : State) : Res := .next (portResetDo p s)
def execHostLinkUp (p speed width : Nat) (flit : Bool) (s : State) : Res := .next (linkUp p speed width flit s)
def execHostLinkDown (p : Nat) (s : State) : Res :=
  .next (if isSet s (F.HOST_LINK_STATUS_UP p) then orPaused 2 p p (resetPort p) (linkDown p s) else s)
def execHostLinkRetrain (p : Nat) (s : State) : Res :=
  .next (guarded .onChip (Reg.HOST_LINK_CTRL p) 8 (retrain p) s)
def execLinkWidthChange (p : Nat) (upconfigure : Bool) (s : State) : Res := .next (widthChange p upconfigure s)
def execPerstDeasserted (p : Nat) (s : State) : Res := .next (perstHigh p s)
def execControllerEnable (fn : Nat) (s : State) : Res := .next (enableFn fn s)
def execShutdownNotification (fn : Nat) (s : State) : Res := .next (shutdownNote fn s)
def execShutdownComplete (fn : Nat) (s : State) : Res := .next (shutdownEnd fn s)
def execVfEnable (port numVfs : Nat) (enable : Bool) (s : State) : Res := .next (vfEnableDo port numVfs enable s)
def execAerError (p : Nat) (correctable : Bool) (s : State) : Res :=
  .next (if isSet s (F.HOST_LINK_STATUS_UP p) then happen (baseHost p) (if correctable then 3 else 4) s else s)

end Sys2Proof.Machine
end

