-- ==== Sys2Proof/Machine/Kiln.lean ====
section
/-!
DEFINITION. Machine/Kiln.lean: temperature and throttling (R432 to R445).
-/

namespace Sys2Proof.Machine

/-! ## Sensors (R432, R433) -/

/-- A reading in units of 0.25 °C as a register holds it. -/
def tempCode (t : Int) : Nat := (t % 65536).toNat

/-- A reading that counts: converted, and within −50 °C to +150 °C. -/
def goodReading (r : Option Int) : Bool :=
  match r with
  | some t => decide (-200 ≤ t) && decide (t ≤ 600)
  | none => false

def faulted (s : State) (i : Nat) : Bool := isSet s (bitF Reg.KILN_SENSOR_FAULT i)

def faultCount (s : State) : Nat := ((List.range 24).filter (faulted s)).length

/-- A sensor is faulted until the next start: KILN_SENSOR_FAULT and its event. -/
def faultSensor (i : Nat) (s : State) : State :=
  if faulted s i then s
  else
    let s1 := setF (bitF Reg.KILN_SENSOR_FAULT i) 1 s
    happen baseKiln 4 (setF F.KILN_STATUS_FAULTED (faultCount s1) s1)

/-- One sensor's conversion. -/
def readSensor (i : Nat) (r : Option Int) (s : State) : State :=
  let s1 := match r with
    | some t => setF (F.KILN_TEMP_TEMP i) (tempCode t) s
    | none => s
  if goodReading r then s1 else faultSensor i s1

/-- The sensors that count, with their readings. -/
def liveReadings (s : State) (l : List (Option Int)) : List (Nat × Int) :=
  (List.range 24).filterMap (fun i =>
    if faulted s i then none
    else match l.getD i none with
      | some t => some (i, t)
      | none => none)

/-- The highest reading, of the lowest sensor that gives it. -/
def hottest : List (Nat × Int) → Option (Nat × Int)
  | [] => none
  | p :: l => match hottest l with
    | some q => if p.2 < q.2 then some q else some p
    | none => some p

/-- Microseconds between samples: one beat in Run and Idle, 1 ms else (R433). -/
def samplePeriod (s : State) : Nat := if asleep s || s.top.off then 1000 else 16

/-! ## Levels (R436) -/

/-- The engines per side that a level leaves in use (R437). -/
def levelEngines (s : State) (k : Nat) : Nat :=
  match k with
  | 0 => 5
  | 1 => min 5 (getNZ s F.KILN_UNITS_MAC1)
  | 2 => min 5 (getNZ s F.KILN_UNITS_MAC2)
  | _ => min 5 (getNZ s F.KILN_UNITS_MAC3)

/-- Engines of a side in service, from its five OK bits (R313). -/
def enginesOk (v : Nat) : Nat := ((List.range 5).filter (fun i => decide (bitsOf v i 1 = 1))).length

/-- MAC_STATUS shows the engines in use: those in service that the level leaves (R439). -/
def showEngines (s : State) : State :=
  let n := levelEngines s (levelNow s)
  setF F.MAC_STATUS_READ_ACTIVE (min n (enginesOk (getF s F.MAC_ENGINE_OK_READ)))
    (setF F.MAC_STATUS_WRITE_ACTIVE (min n (enginesOk (getF s F.MAC_ENGINE_OK_WRITE))) s)

/-- A level is in force. -/
def takeLevel (k : Nat) (s : State) : State :=
  if k = levelNow s then { s with kiln := { s.kiln with due := none } }
  else
    let s1 := { s with kiln := { s.kiln with
      due := none, hotFrom := s.kiln.clock, coolFrom := s.kiln.clock, capOld := levelNow s, capBeat := beatNow s + 2 } }
    driveAen (happen baseKiln 1 (showEngines (setF F.SORT_STATUS_LEVEL k (setF F.KILN_STATUS_LEVEL k s1))))

/-- A change that a sample or a write decides: from the next beat boundary, or at once while the beat grid is stopped. -/
def moveLevel (k : Nat) (s : State) : State :=
  if asleep s then takeLevel k s else { s with kiln := { s.kiln with due := some k } }

/-- The level that is in force or due. -/
def levelAhead (s : State) : Nat := s.kiln.due.getD (levelNow s)

def throttleAt (s : State) : Int := 4 * (getF s F.KILN_THRESH_THROTTLE : Int)
def coolAt (s : State) : Int := throttleAt s - 4 * (getNZ s F.KILN_HYST_THR_H : Int)

/-- SHUTDOWN as it acts: 100 to 135 °C (R442). -/
def shutdownAt (s : State) : Int := 4 * (max 100 (min 135 (getF s F.KILN_THRESH_SHUTDOWN)) : Nat)

/-- RESTART.TEMP as it acts: at most SHUTDOWN − SHUT_H (R443). -/
def restartAt (s : State) : Int :=
  min (4 * (getF s F.KILN_RESTART_TEMP : Int)) (shutdownAt s - 4 * (getNZ s F.KILN_HYST_SHUT_H : Int))

/-- Faulted sensors beyond the limit hold the level at T3. -/
def faultHold (s : State) : Bool := decide (getF s F.KILN_CFG_FAULT_LIMIT < faultCount s)

/-! ## A sample -/

/-- KILN_RES counts the milliseconds spent at the level. -/
def countLevel (us : Nat) (s : State) : State :=
  let k := levelNow s
  let n := tget (fun _ => 0) s.kiln.rem k + us
  addF (F.KILN_RES_MS k) (n / 1000) { s with kiln := { s.kiln with rem := tset (fun _ => 0) k (n % 1000) s.kiln.rem } }

/-- PWR_RES counts the milliseconds spent in the power state (R431). -/
def countPower (us : Nat) (s : State) : State :=
  let k := powerNow s
  let n := tget (fun _ => 0) s.kiln.rem (4 + k) + us
  if s.top.off ∨ 3 < k then s
  else addF (F.PWR_RES_MS k) (n / 1000)
    { s with kiln := { s.kiln with rem := tset (fun _ => 0) (4 + k) (n % 1000) s.kiln.rem } }

/-- WARN (R434). -/
def warnStep (t : Int) (s : State) : State :=
  let w := 4 * (getF s F.KILN_THRESH_WARN : Int)
  if isSet s F.KILN_STATUS_WARN then
    if t < w - 4 * (getNZ s F.KILN_HYST_WARN_H : Int) then setF F.KILN_STATUS_WARN 0 s else s
  else if w ≤ t then happen baseKiln 0 (setF F.KILN_STATUS_WARN 1 s) else s

/-- The rise trigger fires (R435): Tmax exceeds that of the sample taken WINDOW ms earlier by more than DELTA. -/
def rises (s : State) (t : Int) : Bool :=
  isSet s F.KILN_CFG_RISE_EN &&
    match s.kiln.hist.find? (fun p => decide (p.1 + 1000 * getNZ s F.KILN_RISE_WINDOW ≤ s.kiln.clock)) with
    | some p => decide (p.2 + (getF s F.KILN_RISE_DELTA : Int) < t)
    | none => false

/-- What Tmax does to the level at a sample (R436). -/
def levelStep (t : Int) (rise : Bool) (s : State) : State :=
  let s1 := { s with kiln := { s.kiln with
    hotFrom := if throttleAt s ≤ t then s.kiln.hotFrom else s.kiln.clock
    coolFrom := if t < coolAt s ∧ rise = false then s.kiln.coolFrom else s.kiln.clock } }
  if s1.top.off then s1
  else if faultHold s1 ∧ levelAhead s1 < 3 then moveLevel 3 s1
  else if levelAhead s1 = 0 ∧ (throttleAt s ≤ t ∨ rise = true) then moveLevel 1 s1
  else s1

/-- Thermal shutdown (R442): the pins, the trip registers, the event and cause bit 3 of the grout; before S12 the part
powers down at once. -/
def thermalTrip (i : Nat) (t : Int) (s : State) : State :=
  let s1 := { s with
    top := { s.top with thermTrip := true, faultN := true }, kiln := { s.kiln with trip := some s.kiln.clock } }
  let s2 := setF F.KILN_LAST_TRIP_SENSOR i (setF F.KILN_LAST_TRIP_TEMP (tempCode t) (addF F.KILN_TRIPS_COUNT 1 s1))
  let s3 := happen baseKiln 3 s2
  if running s then groutCause 3 s3
  else
    let s4 := enterOff (cutStart s3)
    { s4 with kiln := { s4.kiln with trip := none } }

/-- Whether a sensor has been at or above SHUTDOWN on two samples. -/
def tripStep (live : List (Nat × Int)) (s : State) : State :=
  let hot := (live.filter (fun p => decide (shutdownAt s ≤ p.2))).map (·.1)
  let s1 := { s with kiln := { s.kiln with atTrip := hot } }
  if s.top.off ∨ s.kiln.trip.isSome then s1
  else match live.find? (fun p => decide (shutdownAt s ≤ p.2) && s.kiln.atTrip.contains p.1) with
    | some p => thermalTrip p.1 p.2 s1
    | none => s1

/-- Tmax and what follows from it. -/
def tmaxStep (live : List (Nat × Int)) (s : State) : State :=
  match hottest live with
  | none => s
  | some (i, t) =>
    let peak := match s.kiln.peak with
      | some q => max q t
      | none => t
    let rise := rises s t
    let s1 := setF F.KILN_TPEAK_TEMP (tempCode peak) (setF F.KILN_TMAX_TEMP (tempCode t)
      (setF F.KILN_STATUS_HOT (if throttleAt s ≤ t then 1 else 0) (setF F.KILN_STATUS_MAX_SENSOR i s)))
    let s2 := { s1 with kiln := { s1.kiln with
      peak := some peak
      hist := (s.kiln.clock, t) :: s.kiln.hist.filter (fun p => decide (s.kiln.clock ≤ p.1 + 256000))
      belowFrom := if t < restartAt s then some (s.kiln.belowFrom.getD s.kiln.clock) else none } }
    let s3 := warnStep t s2
    levelStep t rise (if rise then happen baseKiln 2 s3 else s3)

/-- The monitor samples in every power state, and in Off only after a thermal shutdown. -/
def samples (s : State) : Bool := !s.top.off || s.top.thermTrip

/-- KILN_SAMPLE. -/
def kilnSampleDo (temps : List (Option Int)) (s : State) : State :=
  if samples s then
    let us := samplePeriod s
    let s1 := countPower us (countLevel us { s with kiln := { s.kiln with clock := s.kiln.clock + us } })
    let s2 := (List.range 24).foldl (fun t i => readSensor i (temps.getD i none) t) s1
    tripStep (liveReadings s2 temps) (tmaxStep (liveReadings s2 temps) s2)
  else s

/-! ## The header beat -/

/-- An evaluation falls here: at a header beat, or after 1.024 ms while the beat grid is stopped. -/
def evalDue (s : State) : Bool :=
  if s.top.off then false
  else if asleep s then decide (s.kiln.evalAt + 1024 ≤ s.kiln.clock)
  else decide (beatNow s % 64 = 0)

/-- Up after UP frames hot, down after DOWN frames cool; a step up decided for the same boundary goes first and is then
the only one. -/
def kilnEval (s : State) : State :=
  if !evalDue s then s
  else
    let s0 := { s with kiln := { s.kiln with evalAt := s.kiln.clock } }
    match s.kiln.due with
    | some k => takeLevel k s0
    | none =>
      let l := levelNow s
      if (l = 1 ∨ l = 2) ∧ s.kiln.hotFrom + 1024 * getNZ s F.KILN_STEP_UP ≤ s.kiln.clock then takeLevel (l + 1) s0
      else if getF s F.KILN_CFG_MIN_LEVEL < l ∧ s.kiln.coolFrom + 1024 * getNZ s F.KILN_STEP_DOWN ≤ s.kiln.clock
          ∧ ¬ (l = 3 ∧ faultHold s = true) then takeLevel (l - 1) s0
      else s0

/-- What a beat boundary does for the Kiln. -/
def kilnBoundary (s : State) : State :=
  match s.kiln.due with
  | some k => takeLevel k s
  | none => s

/-- KILN_CFG is written; a MIN_LEVEL above the level raises it. -/
def minLevelWrite (v : W32) (s : State) : State :=
  let s1 := setR Reg.KILN_CFG (Nat.land v.toNat 0x3F7) s
  if levelAhead s1 < getF s1 F.KILN_CFG_MIN_LEVEL then moveLevel (getF s1 F.KILN_CFG_MIN_LEVEL) s1 else s1

/-! ## Shutdown and restart (R442, R443) -/

/-- Every domain except AON is powered down. -/
def thermalOff (s : State) : State :=
  if s.kiln.trip.isSome ∧ ¬ s.top.off then { enterOff s with kiln := { (enterOff s).kiln with trip := none, belowFrom := none } }
  else s

/-- THERM_TRIP_N deasserts once Tmax has stayed below RESTART.TEMP for an epoch; with AUTO_RESTART a start is due. -/
def tripRelease (s : State) : State :=
  match s.top.thermTrip, s.top.off, s.kiln.belowFrom with
  | true, true, some b =>
    if b + 1048576 ≤ s.kiln.clock then
      { s with
        kiln := { s.kiln with restart := true }
        top := { s.top with
          thermTrip := false, startDue := if isSet s F.KILN_CFG_AUTO_RESTART then some 3 else s.top.startDue } }
    else s
  | _, _, _ => s

def execKilnSample (temps : List (Option Int)) (s : State) : Res := .next (kilnSampleDo temps s)
def execKilnLevelEval (s : State) : Res := .next (kilnEval s)
def execThermalPowerdownTimeout (s : State) : Res := .next (thermalOff s)
def execThermTripRelease (s : State) : Res := .next (tripRelease s)
def execKilnMinLevelWrite (v : W32) (s : State) : Res := .next (guarded .onChip Reg.KILN_CFG v (minLevelWrite v) s)

end Sys2Proof.Machine
end

