-- ==== Sys2Proof/Machine/Sort.lean ====
section
/-!
DEFINITION. Machine/Sort.lean: the placement matcher (R159 to R180).
-/

namespace Sys2Proof.Machine

/-! ## Entries -/

def sEnt0 : SEnt := { key := 0, care := 0, action := 0, prio := 0, valid := false, shadowed := false, hits := 0 }
def sD (_ : Nat) : SEnt := sEnt0

/-- The entry in effect, from the shadow (R161). -/
def getE (s : State) (i : Nat) : SEnt := tget sD s.sort.shadow i

/-- An entry without HITS, which the array does not hold. -/
def arrOf (e : SEnt) : SEnt := { e with hits := 0 }

/-- One update: array and shadow in the same slot (R169, R176). -/
def putE (i : Nat) (e : SEnt) (s : State) : State :=
  { s with sort := { s.sort with
      arr := tset sD i (arrOf e) s.sort.arr, shadow := tset sD i e s.sort.shadow, changed := true } }

/-- An update that is counted and is to be saved (R178). -/
def updateE (i : Nat) (e : SEnt) (s : State) : State :=
  addF F.SORT_UPDATES_COUNT 1 (setF F.SORT_STATUS_DIRTY 1 (putE i e s))

/-- The update's slot also clears SHADOWED in one other entry. -/
def unshadow (i : Nat) (s : State) : State :=
  if (getE s i).shadowed then putE i { getE s i with shadowed := false } s else s

/-! ## The search (R160, R162, R165 to R167) -/

/-- Entry `i` lies in a tile's range (R82). -/
def inSortRange (s : State) (t i : Nat) : Bool :=
  decide (getF s (F.TILE_SORT_BASE t) ≤ i) && decide (i < getF s (F.TILE_SORT_BASE t) + getF s (F.TILE_SORT_COUNT t))

/-- OP_CLASS. -/
def opClass (k : CmdKind) : Nat :=
  match k with
  | .writeZeroes => 1
  | .append => 2
  | .read => 3
  | _ => 0

/-- The search key of a command (R160). -/
def searchKey (s : State) (c : Cmd) : BitVec 96 :=
  let n := c.h.nsid
  let zg := if (getNs s n).zoned then c.slba / zsze s / 2 ^ getF s F.SORT_CFG_ZG_SHIFT % 65536 else 0
  BitVec.ofNat 96 (c.slba % 2 ^ 40 / 2 ^ getF s F.SORT_CFG_LBA_SHIFT % 2 ^ 32
    + zg * 2 ^ 32 + c.hints.dsm % 256 * 2 ^ 48
    + (if c.kind = .read then 0 else c.hints.dtype % 16) * 2 ^ 56
    + (if c.hints.fua then 2 ^ 60 else 0) + (if c.hints.lr then 2 ^ 61 else 0) + queueQos s c.h % 4 * 2 ^ 62
    + Nat.log 2 c.nlb % 16 * 2 ^ 64 + opClass c.kind * 2 ^ 68
    + (if c.kind = .read then 0 else handleOf s n c.hints) % 256 * 2 ^ 72
    + (n - 1) % 1024 * 2 ^ 80 + tileOf s c.h % 64 * 2 ^ 90)

/-- An entry matches a key: key bits 95 to 90 are never compared. -/
def entryMatches (e : SEnt) (key : BitVec 96) : Bool :=
  e.valid && !e.shadowed && decide (((key ^^^ e.key) &&& e.care).toNat % 2 ^ 90 = 0)

/-- The entries of a tile's range that match. -/
def hitsFor (s : State) (t : Nat) (key : BitVec 96) : List (Nat × SEnt) :=
  s.sort.arr.filter (fun p => inSortRange s t p.1 && entryMatches p.2 key)

/-- The winner: the highest PRIO, the lowest index among equals. -/
def winner : List (Nat × SEnt) → Option (Nat × SEnt)
  | [] => none
  | p :: l => match winner l with
    | some q => if p.2.prio < q.2.prio then some q else some p
    | none => some p

/-- A count in thousands with its remainder. -/
def countSearch (default : Bool) (s : State) : State :=
  let n := s.sort.searches + 1
  let d := if default then s.sort.defaults + 1 else s.sort.defaults
  addF F.SORT_DEFAULTS_COUNT (d / 1000) (addF F.SORT_SEARCHES_COUNT (n / 1000)
    { s with sort := { s.sort with searches := n % 1000, defaults := d % 1000 } })

/-- The result is bound to the command, and to the reads it has begun (R168, R220). -/
def bindResult (i wall qos : Nat) (s : State) : State :=
  let s1 := setCmd i { getCmd s i with wall := wall, qos := qos, searched := true } s
  { s1 with map := { s1.map with
      rds := s1.map.rds.map (fun p =>
        if p.2.cmd = i ∧ p.2.kind = .host then (p.1, { p.2 with deadline := deadlineOf qos }) else p) } }

/-- The body that a SORT_TRACE record adds to the EVENT body (R457). -/
def traceBody (c : Cmd) (i : Nat) : List Byte :=
  leBytes 1 c.h.fn ++ leBytes 1 0 ++ leBytes 2 c.h.cid ++ leBytes 2 i ++ leBytes 2 0 ++ leBytes 8 c.slba

/-- MATCHER_SEARCH. -/
def searchDo (i : Nat) (s : State) : State :=
  let c := getCmd s i
  if !hasCmd s i || c.searched then s
  else match winner (hitsFor s (tileOf s c.h) (searchKey s c)) with
    | none => bindResult i (defaultWall s c.h.nsid c.hints) (queueQos s c.h) (countSearch true s)
    | some (k, e) =>
      let a := e.action.toNat
      let h := getE s k
      let s1 := countSearch false { s with sort := { s.sort with
        shadow := tset sD k { h with hits := min (2 ^ 32 - 1) (h.hits + 1) } s.sort.shadow } }
      let s2 := bindResult i (bitsOf a 0 8) (if bitsOf a 10 1 = 1 then queueQos s c.h else bitsOf a 8 2) s1
      if bitsOf a 11 1 = 1 then happenAs baseSort 6 0x10 (traceBody c k) false s2 else s2

/-! ## Staging and commit (R163, R164) -/

def staged (s : State) (i : Nat) : Bool :=
  isSet s F.SORT_STATUS_STAGE_VALID && decide (getF s F.SORT_STATUS_STAGE_INDEX = i)

/-- A word of the window at offsets 0x00 to 0x18 of entry `i`. -/
def stageWord (i word : Nat) (v : W32) (s : State) : State :=
  if 6 < word then s
  else
    let lost := isSet s F.SORT_STATUS_STAGE_VALID && decide (getF s F.SORT_STATUS_STAGE_INDEX ≠ i)
    let s1 := if lost then
      happen baseSort 4 (setF F.SORT_STATUS_RESULT 6 { s with sort := { s.sort with stage := [] } }) else s
    setF F.SORT_STATUS_STAGE_VALID 1 (setF F.SORT_STATUS_STAGE_INDEX i
      { s1 with sort := { s1.sort with stage := s1.sort.stage.filter (fun p => p.1 != word) ++ [(word, v)] } })

/-- The staged word, where there is one. -/
def stagedWord (s : State) (word : Nat) : Option Nat := (s.sort.stage.find? (fun p => p.1 == word)).map (·.2.toNat)

/-- An entry with the words that are staged for it. -/
def withStaged (s : State) (i : Nat) (e : SEnt) : SEnt :=
  if staged s i then
    let w (k old : Nat) : Nat := (stagedWord s k).getD old
    { e with
      key := BitVec.ofNat 96 (w 0 (bitsOf e.key.toNat 0 32) + w 1 (bitsOf e.key.toNat 32 32) * 2 ^ 32
        + w 2 (bitsOf e.key.toNat 64 32) * 2 ^ 64)
      care := BitVec.ofNat 96 (w 3 (bitsOf e.care.toNat 0 32) + w 4 (bitsOf e.care.toNat 32 32) * 2 ^ 32
        + w 5 (bitsOf e.care.toNat 64 32) * 2 ^ 64)
      action := BitVec.ofNat 32 (w 6 e.action.toNat) }
  else e

/-- The staging buffer has been used. -/
def clearStage (i : Nat) (s : State) : State :=
  if staged s i then setF F.SORT_STATUS_STAGE_VALID 0 { s with sort := { s.sort with stage := [] } } else s

/-- The span lies in the range of one tile that is not FREE. -/
def spanOk (s : State) (i j : Nat) : Bool :=
  decide (i ≤ j) && (List.range 64).any (fun t => decide (tileState s t ≠ tFree) && inSortRange s t i && inSortRange s t j)

/-- The staged ACTION has a reserved bit set. -/
def badAction (s : State) (i : Nat) : Bool := staged s i && decide (4096 ≤ (stagedWord s 6).getD 0)

/-- The result of an operation with the event of a refusal, or of its end. -/
def sortRefuse (r : Nat) (s : State) : State := happen baseSort 3 (setF F.SORT_STATUS_RESULT r s)
def sortDone (r : Nat) (s : State) : State := happen baseSort 2 (setF F.SORT_STATUS_RESULT r s)

/-- What R164 refuses an operation on a span for. -/
def sortRefusal (s : State) (i j : Nat) : Option Nat :=
  if isSet s F.SORT_STATUS_BUSY then some 1
  else if !spanOk s i j then some 2
  else none

/-- A write to the word at 0x1C of entry `i` commits it. -/
def commitEntry (i : Nat) (v : W32) (s : State) : State :=
  match (if badAction s i && (sortRefusal s i i).isNone then some 3 else sortRefusal s i i) with
  | some r => sortRefuse r s
  | none =>
    let e := { withStaged s i (getE s i) with prio := bitsOf v.toNat 0 8, valid := decide (bitsOf v.toNat 8 1 = 1) }
    sortDone 0 (updateE i e (clearStage i s))

/-! ## SORT_CMD (R172 to R174) -/

/-- An operation is accepted. -/
def sortStart (op : SortOp) (i j : Nat) (e : SEnt) (s : State) : State :=
  setF F.SORT_STATUS_BUSY 1 { s with sort := { s.sort with op := some (op, i, j, 0, e) } }

def insertDo (i j : Nat) (s : State) : State :=
  match sortRefusal s i j with
  | some r => sortRefuse r s
  | none =>
    if badAction s i then sortRefuse 3 s
    else if (getE s j).valid then sortRefuse 4 s
    else if !staged s i then sortRefuse 5 s
    else sortStart .insert i j { withStaged s i (getE s i) with valid := true, shadowed := false, hits := 0 } s

def deleteDo (i j : Nat) (s : State) : State :=
  match sortRefusal s i j with
  | some r => sortRefuse r s
  | none => sortStart .delete i j sEnt0 s

def invalidateDo (i j : Nat) (s : State) : State :=
  match sortRefusal s i j with
  | some r => sortRefuse r s
  | none => sortStart .invalidate i j sEnt0 s

/-- Step `n` of an operation on entries `i` to `j`: one update. -/
def sortStep (op : SortOp) (i j n : Nat) (e : SEnt) (s : State) : State :=
  match op with
  | .insert =>
    if n < j - i then
      let k := j - 1 - n
      let s1 := updateE (k + 1) { getE s k with shadowed := true } s
      if n = 0 then s1 else unshadow (k + 2) s1
    else
      let s1 := clearStage i (updateE i { e with prio := (getE s i).prio } s)
      if i < j then unshadow (i + 1) s1 else s1
  | .delete =>
    if n < j - i then
      let k := i + n
      let s1 := updateE k { getE s (k + 1) with shadowed := true } s
      if n = 0 then s1 else unshadow (k - 1) s1
    else
      let s1 := updateE j { getE s j with valid := false, shadowed := false } s
      if i < j then unshadow (j - 1) s1 else s1
  | .invalidate => updateE (i + n) { getE s (i + n) with valid := false } s

/-- SORT_UPDATE_STEP: the update engine's next update; the last one ends the operation. -/
def updateStep (s : State) : State :=
  match s.sort.op with
  | none => s
  | some (op, i, j, n, e) =>
    let s1 := sortStep op i j n e s
    if n < j - i then { s1 with sort := { s1.sort with op := some (op, i, j, n + 1, e) } }
    else sortDone 0 (setF F.SORT_STATUS_BUSY 0 { s1 with sort := { s1.sort with op := none } })

/-- Entries that a tile operation takes out (R175). -/
def invalidateAll (f : Nat → Bool) (s : State) : State :=
  (s.sort.shadow.filter (fun p => f p.1 && p.2.valid)).foldl (fun t p =>
    updateE p.1 { getE t p.1 with valid := false, shadowed := false } t) s

/-! ## Saving (R178) -/

/-- SORT_CMD SAVE: a copy of entries and configuration is taken. -/
def saveDo (s : State) : State :=
  if isSet s F.SORT_STATUS_BUSY then sortRefuse 1 s
  else setF F.SORT_STATUS_BUSY 1 { s with sort := { s.sort with
    save := some (true, s.sort.arr, rd s Reg.SORT_CFG), changed := false } }

/-- SORT_SAVE_DONE. -/
def saveDone (ok : Bool) (s : State) : State :=
  match s.sort.save with
  | none => s
  | some (_, l, cfg) =>
    let s1 := setF F.SORT_STATUS_BUSY 0 { s with sort := { s.sort with save := none } }
    if ok then
      sortDone 0 (setF F.SORT_STATUS_DIRTY (if s.sort.changed then 1 else 0)
        { s1 with sort := { s1.sort with saved := l, savedCfg := cfg } })
    else sortDone 7 s1

/-- SORT_AUTOSAVE: every change reaches the system area within an epoch; one that fails is made again. -/
def autosave (ok : Bool) (s : State) : State :=
  if ok ∧ isSet s F.SORT_STATUS_DIRTY then
    happen baseSort 2 (setF F.SORT_STATUS_DIRTY 0 { s with sort := { s.sort with
      saved := s.sort.arr, savedCfg := rd s Reg.SORT_CFG, changed := false } })
  else s

/-- A write of SORT_CFG. -/
def sortCfg (v : W32) (s : State) : State :=
  setF F.SORT_STATUS_DIRTY 1 (setR Reg.SORT_CFG (Nat.land v.toNat 0x10F0F)
    { s with sort := { s.sort with changed := true } })

/-! ## The comparer (R176, R177) -/

/-- An entry whose shadow word is uncorrectable is taken out of both copies. -/
def shadowUeDo (i : Nat) (s : State) : State :=
  happen baseSort 1 (noteErr baseSort 0 i 0 (setF F.SORT_STATUS_SHADOW_UE 1 (setF F.SORT_STATUS_DIRTY 1
    (putE i { getE s i with valid := false } s))))

/-- SHADOW_REWRITE: the comparer found an array entry that differs from its shadow. -/
def shadowRewriteDo (i : Nat) (shadowUe : Bool) (s : State) : State :=
  if 4096 ≤ i ∨ s.sort.walking = false then s
  else if shadowUe then shadowUeDo i s
  else happen baseSort 0 (addF F.SORT_FIXED_COUNT 1 (addF F.SORT_UPDATES_COUNT 1
    { s with sort := { s.sort with arr := tset sD i (arrOf (getE s i)) s.sort.arr } }))

/-- The window address of an entry's word. -/
def sortWindow (i word : Nat) : Nat := 0x100000 + 64 * i + 4 * word

def execMatcherSearch (cmd : Nat) (s : State) : Res := .next (searchDo cmd s)
def execSortEntryStage (i word : Nat) (v : W32) (s : State) : Res :=
  .next (guarded .onChip (sortWindow i word) v (stageWord i word v) s)
def execSortEntryCommit (i : Nat) (v : W32) (s : State) : Res :=
  .next (guarded .onChip (sortWindow i 7) v (commitEntry i v) s)

/-- The word that a SORT_CMD write carries. -/
def sortCmdWord (op i j : Nat) : W32 := BitVec.ofNat 32 (i % 4096 + j % 4096 * 4096 + op * 2 ^ 24)

def execSortInsert (i j : Nat) (s : State) : Res :=
  .next (guarded .onChip Reg.SORT_CMD (sortCmdWord 2 i j) (insertDo (i % 4096) (j % 4096)) s)
def execSortDelete (i j : Nat) (s : State) : Res :=
  .next (guarded .onChip Reg.SORT_CMD (sortCmdWord 3 i j) (deleteDo (i % 4096) (j % 4096)) s)
def execSortInvalidate (i j : Nat) (s : State) : Res :=
  .next (guarded .onChip Reg.SORT_CMD (sortCmdWord 4 i j) (invalidateDo (i % 4096) (j % 4096)) s)
def execSortSave (s : State) : Res := .next (guarded .onChip Reg.SORT_CMD (sortCmdWord 5 0 0) saveDo s)
def execSortSaveDone (ok : Bool) (s : State) : Res := .next (saveDone ok s)
def execSortUpdateStep (s : State) : Res := .next (updateStep s)
def execSortCfgWrite (v : W32) (s : State) : Res := .next (guarded .onChip Reg.SORT_CFG v (sortCfg v) s)
def execShadowRewrite (i : Nat) (shadowUe : Bool) (s : State) : Res := .next (shadowRewriteDo i shadowUe s)
def execSortAutosave (ok : Bool) (s : State) : Res := .next (autosave ok s)

end Sys2Proof.Machine
end

