-- ==== Sys2Proof/Machine/Mem.lean ====
section
/-!
DEFINITION. Machine/Mem.lean: memory and fabric protection (R389 to R415): counting and logging, the leaky bucket, Pointing,
remapping, what an uncorrectable word does to its memory's owner, the loss of a map-memory channel and restoration.
A memory is named by its index of R389, channel c of map memory as 16 + c.
-/

namespace Sys2Proof.Machine

def mem0 : MemSt := { log := [], poisoned := [], remaps := [], found := [], owed := 0, level := 0 }
def memD (_ : Nat) : MemSt := mem0
def getMem (s : State) (m : Nat) : MemSt := tget memD s.mems.mems m
def setMem (m : Nat) (v : MemSt) (s : State) : State := { s with mems := { s.mems with mems := tset memD m v s.mems.mems } }

/-- The field of a memory: of its MEMCHK sub-block or of its channel's page. -/
def mF (m : Nat) (chk map : Nat → Fld) : Fld := if m < 16 then chk m else map (m - 16)

/-- A memory with registers of its own: the security island's has none (R389). -/
def hasRegs (m : Nat) : Bool := decide (1 ≤ m ∧ m ≤ 12) || decide (16 ≤ m ∧ m < 20)
def isMem (m : Nat) : Bool := hasRegs m || decide (m = 0)

/-- 64-bit words of a memory (R389, R401). -/
def memWords (s : State) (m : Nat) : Nat :=
  if 16 ≤ m then getF s (F.MAPMEM_SIZE_GIB (m - 16)) * 2 ^ 27
  else [131072, 16777216, 2097152, 524288, 524288, 393216, 524288, 262144, 262144, 131072, 196608, 131072, 65536].getD m 0

/-! ## Causes, counts and the log (R395, R396) -/

/-- Cause `bit` of a memory is set (R410, R411); memory 0 shows its event only. -/
def memCause (m bit : Nat) (s : State) : State :=
  if m = 0 then happen baseMemchk 0 s
  else if m < 16 then happenCause baseMemchk m (Reg.MEMCHK_CAUSE m) (Reg.MEMCHK_CAUSE_EN m) bit s
  else happenCause (baseMapmem (m - 16)) 0 (Reg.MAPMEM_CAUSE (m - 16)) (Reg.MAPMEM_CAUSE_EN (m - 16)) bit s

/-- A counter of a memory. -/
def memCount (m : Nat) (f : Fld) (n : Nat) (s : State) : State := if m = 0 then s else addF f n s

/-- The oldest CE entry of a log gives way to a new entry. -/
def replaceCe (e : MemLog) (l : List MemLog) : Option (List MemLog) :=
  match (l.filter (fun x => decide (x.kind = 0))).foldl (fun (b : Option MemLog) x =>
      match b with
      | none => some x
      | some y => if x.no < y.no then some x else b) none with
  | some old => some (l.map (fun x => if x.no = old.no then e else x))
  | none => none

/-- An entry for the log, kind 0 CE, 1 UE, 2 POISON_WRITE. -/
def memLog (m word syndrome kind : Nat) (src : ErrSource) (s : State) : State :=
  let x := getMem s m
  let e : MemLog :=
    { no := s.mems.nextNo, word := word, syndrome := syndrome, kind := kind, beat := beatNow s % 2 ^ 32
      source := match src with
        | .read => 0
        | .merge => 1
        | .scrub => 2 }
  let s1 := { s with mems := { s.mems with nextNo := s.mems.nextNo + 1 } }
  if x.log.length < 16 then setMem m { x with log := x.log ++ [e] } s1
  else match replaceCe e x.log with
    | some l => setMem m { x with log := l } s1
    | none => memCause m 5 (if m < 16 then memCount m (F.MEMCHK_LOG_DROPPED_COUNT m) 1 s1 else s1)

/-- The leaky bucket at a correctable error. -/
def bucketUp (m : Nat) (s : State) : State :=
  if m = 0 then
    let n := (getMem s 0).level + 1
    if 16 < n then memCause 0 0 (setMem 0 { getMem s 0 with level := 0 } s) else setMem 0 { getMem s 0 with level := n } s
  else
    let n := getF s (mF m F.MEMCHK_BUCKET_LEVEL F.MAPMEM_BUCKET_LEVEL) + 1
    if getF s (mF m F.MEMCHK_BUCKET_DEPTH F.MAPMEM_BUCKET_DEPTH) < n then
      memCause m 0 (setF (mF m F.MEMCHK_BUCKET_LEVEL F.MAPMEM_BUCKET_LEVEL) 0 s)
    else setF (mF m F.MEMCHK_BUCKET_LEVEL F.MAPMEM_BUCKET_LEVEL) n s

/-- The leak of every bucket at a header beat. -/
def bucketsLeak (s : State) : State :=
  let s1 := setMem 0 { getMem s 0 with level := (getMem s 0).level - 1 } s
  (((List.range 12).map (· + 1)) ++ [16, 17, 18, 19]).foldl (fun t m =>
    let f := mF m F.MEMCHK_BUCKET_LEVEL F.MAPMEM_BUCKET_LEVEL
    setF f (getF t f - getF t (mF m F.MEMCHK_BUCKET_LEAK F.MAPMEM_BUCKET_LEAK)) t) s1

/-! ## Remapping (R398, R399) -/

/-- Macro group of a word; a channel of map memory is one. -/
def groupOf (m word : Nat) : Nat := if 16 ≤ m then 0 else word / 524288

/-- What a remap entry names: a word, on map memory a 64-byte line. -/
def remapUnit (m word : Nat) : Nat := if 16 ≤ m then word / 8 else word

def remapRoom (s : State) (m g : Nat) : Bool :=
  decide (((getMem s m).remaps.filter (fun r => decide (r.1 = g))).length < if 16 ≤ m then 64 else 32)

/-- The hard-error threshold and whether remapping is on; map memory has no CFG of its own for them (log 24). -/
def hardCount (s : State) (m : Nat) : Nat := if m < 16 then getNZ s (F.MEMCHK_CFG_HARD_COUNT m) else 2
def remapOn (s : State) (m : Nat) : Bool := if m < 16 then isSet s (F.MEMCHK_CFG_REMAP_EN m) else true

/-- A word with a hard error is redirected to a spare; where there is none REMAP_FULL is set, which ends the recorder's
memory (R465). -/
def remap (m word : Nat) (s : State) : State :=
  let g := groupOf m word
  let u := remapUnit m word
  let x := getMem s m
  if x.remaps.contains (g, u) then s
  else if remapRoom s m g then
    let s1 := setMem m { x with remaps := x.remaps ++ [(g, u)], found := x.found.filter (fun p => p.1 != word) } s
    memCause m 3 (if m < 16 then addF (F.MEMCHK_REMAP_USED_COUNT m) 1 s1 else s1)
  else
    let s1 := memCause m 4 s
    if m = 9 then recorderFailed word false s1 else s1

/-- A correctable error at the same bit positions found again (R398). -/
def noteFound (m word syndrome : Nat) (s : State) : State :=
  let x := getMem s m
  let n := match x.found.find? (fun p => decide (p.1 = word) && decide (p.2.1 = syndrome)) with
    | some p => p.2.2 + 1
    | none => 1
  let s1 := setMem m { x with
    found := x.found.filter (fun p => !(decide (p.1 = word) && decide (p.2.1 = syndrome))) ++ [(word, syndrome, n)] } s
  if hardCount s m ≤ n ∧ remapOn s m = true then remap m word s1 else s1

/-- MEMORY_CORRECTABLE. -/
def correctable (m word syndrome : Nat) (src : ErrSource) (s : State) : State :=
  if !isMem m then s
  else
    let s1 := memLog m word syndrome 0 src (memCount m (mF m F.MEMCHK_CE_COUNT_COUNT F.MAPMEM_CE_COUNT_COUNT) 1 s)
    let s2 := bucketUp m s1
    if m = 0 then s2 else noteFound m word syndrome s2

/-! ## Map memory: places (R207, R401, R404) -/

/-- Lines of the map table: those of every zone of the courses for user data, nine tenths of them in STANDALONE (log 25). -/
def mapTableLines (s : State) : Nat :=
  let n := 2688 * lunsPerCh * (zcapOf s (width s) / 192)
  if getF s F.TOP_MODE_BASE = 2 then n else n * 9 / 10

/-- First 4 KiB unit of the journal buffer, behind the map, namespace, course, course-state and brick tables. -/
def journalUnit (s : State) : Nat :=
  (mapTableLines s * 64 + 65536 + allCourses * 128 + allCourses * 32 + allCourses * 32 * 16) / 4096

/-- Units of a channel. -/
def channelUnits (s : State) (c : Nat) : Nat := getF s (F.MAPMEM_SIZE_GIB c) * 262144

def degraded (s : State) : Bool := isSet s (F.MAPMEM_LAYOUT_DEGRADED_LAYOUT 0)

/-- The unit of the map-memory space at a channel-local unit. -/
def spaceUnit (s : State) (c i : Nat) : Nat :=
  let base := getF s (F.MAPMEM_LAYOUT_DEG_BASE 0) * 262144
  if degraded s && decide (base ≤ i) then
    let l := getF s (F.MAPMEM_LAYOUT_LOST 0)
    let j := ((List.range 4).filter (fun k => decide (k ≠ l))).findIdx (fun k => k == c)
    4 * (3 * (i - base) + j) + l
  else 4 * i + c

/-- What a word of a channel holds. -/
inductive MapWord where
  | line (l : Nat) | journal (k : Nat) | mirror (k : Nat) | other
  deriving DecidableEq, Repr

/-- A word of channel `c`, by its channel-local index: `k` counts the journal buffer's words. -/
def mapWord (s : State) (c word : Nat) : MapWord :=
  let i := word / 512
  let top := channelUnits s c
  if top - 1 ≤ i then .other
  else if top - 4097 ≤ i then
    .mirror ((4 * (i - (top - 4097)) + (c + 3) % 4) * 512 + word % 512)
  else
    let u := spaceUnit s c i
    if u * 64 + word % 512 / 8 < mapTableLines s then .line (u * 64 + word % 512 / 8)
    else if journalUnit s ≤ u ∧ u < journalUnit s + 16384 then .journal ((u - journalUnit s) * 512 + word % 512)
    else .other

/-- Journal records above the last durable one whose buffer word is lost leave the tail: record q stands in 16 bytes at
q modulo the buffer (log 26). -/
def loseRecord (k : Nat) (s : State) : State :=
  { s with map := { s.map with tail := s.map.tail.filter (fun r => decide (r.seq % 4194304 ≠ k / 2)) } }

/-! ## Loss of a channel, and restoration (R403 to R407) -/

/-- Restoration is under way. -/
def restoring (s : State) : Bool := isSet s (F.MAPMEM_RESTORE_ACTIVE 0)

def beginRestore (s : State) : State := setF (F.MAPMEM_RESTORE_STEP 0) 1 (setF (F.MAPMEM_RESTORE_ACTIVE 0) 1 s)

/-- A channel of map memory is declared lost. -/
def mapChannelLost (c : Nat) (s : State) : State :=
  if getF s (F.MAPMEM_STATUS_STATE c) = 4 then s
  else
    let s1 := setF (F.MAPMEM_STATUS_STATE c) 4 s
    if isSet s (F.MAPMEM_LAYOUT_DEG_OK 0) && !degraded s then
      let s2 := setCause F.TOP_MODE_CAUSE_DEG_MAPMEM (happen (baseMapmem c) 1 s1)
      beginRestore (setF (F.MAPMEM_LAYOUT_DEGRADED_LAYOUT 0) 1 (setF (F.MAPMEM_LAYOUT_LOST 0) c
        { s2 with mems := { s2.mems with absentCh := some c } }))
    else
      let s2 := fatal (baseMapmem c) 1 s1
      { s2 with top := { s2.top with recNext := true } }

/-- Records of the journal buffer are gone for good: the cause, and every checkpoint segment is laid at once (R407). -/
def journalLost (c k : Nat) (s : State) : State :=
  let s1 := memCause (16 + c) 7 (loseRecord k s)
  { s1 with mems := { s1.mems with owedSegs := List.range (ckptCycle s) } }

/-- An uncorrectable word of a channel of map memory. -/
def mapWordLost (c word : Nat) (s : State) : State :=
  let n := tget zeroT s.mems.ueFrame c + 1
  let s1 := { s with mems := { s.mems with ueFrame := tset zeroT c n s.mems.ueFrame } }
  if getNZ s (F.MAPMEM_LOSS_CFG_UE_LIMIT 0) ≤ n then mapChannelLost c s1
  else match mapWord s c word with
    | .line l => beginRestore { s1 with mems := { s1.mems with absentLines := insertNat l s1.mems.absentLines } }
    | .journal k =>
      let c2 := (c + 1) % 4
      let w2 := (channelUnits s c2 - 4097 + k / 512 / 4) * 512 + k % 512
      if (getMem s (16 + c2)).poisoned.contains w2 then journalLost c k s1 else s1
    | .mirror k =>
      let u := journalUnit s + k / 512
      if (getMem s (16 + u % 4)).poisoned.contains (u / 4 * 512 + k % 512) then journalLost c k s1 else s1
    | .other => s1

/-- An entry that restoration brings back with STATE 11 has STATE 01 at its source (R405). -/
def backToSource (l : Nat) (s : State) : State :=
  (List.range 12).foldl (fun t i =>
    if entState (getEnt t l i) = stReloc then setLine l (lineWith (getLine t l) (40 * i) 40 (withState (getEnt t l i) 1).toNat) t
    else t) s

/-- MAP_RESTORE_DONE. -/
def restoreDone (ms : Nat) (s : State) : State :=
  if !restoring s then s
  else
    let set := (s.map.lines.filter (fun p => lineAbsent s p.1)).map (·.1)
    let s1 := set.foldl (fun t l => backToSource l t) s
    let s2 := s.mems.absentLines.foldl (fun t l => memCause (16 + lineChannel l) 6 t) s1
    setF (F.MAPMEM_RESTORE_MS_MS 0) ms (setF (F.MAPMEM_RESTORE_STEP 0) 0 (setF (F.MAPMEM_RESTORE_ACTIVE 0) 0
      { s2 with mems := { s2.mems with absentCh := none, absentLines := [] } }))

/-- MAPMEM_ALERT: the nth CRC failure of a write; the fourth is a fault that a retrain may clear (R401, R403). -/
def mapAlert (c nth : Nat) (s : State) : State :=
  if 4 ≤ c then s
  else if nth < 4 then addF (F.MAPMEM_CRC_RETRY_COUNT c) 1 s
  else { s with mems := { s.mems with crcTries := tset zeroT c 1 s.mems.crcTries, retrains := tset zeroT c 0 s.mems.retrains } }

/-- MAPMEM_RETRAIN. -/
def mapRetrain (c : Nat) (ok : Bool) (s : State) : State :=
  if 4 ≤ c ∨ getF s (F.MAPMEM_STATUS_STATE c) = 4 then s
  else if ok then
    setF (F.MAPMEM_STATUS_STATE c) 2 { s with mems := { s.mems with
      crcTries := tset zeroT c 0 s.mems.crcTries, retrains := tset zeroT c 0 s.mems.retrains } }
  else
    let n := tget zeroT s.mems.retrains c + 1
    let s1 := { s with mems := { s.mems with retrains := tset zeroT c n s.mems.retrains } }
    if tget zeroT s.mems.crcTries c = 1 ∧ 2 ≤ n then mapChannelLost c s1 else s1

/-! ## What the owner does (R400) -/

/-- A block in the yard is lost: it is laid with KIND lost, and one whose write was acknowledged is reported (R200). -/
def yardBlockLost (k t : Nat) (s : State) : State :=
  let x := getSlot s k
  if !present x t then s
  else
    let (q, s1) := nextWseq s
    let s2 := tagFormed (setSlot k (putBlk t (lostBlk s1 x t q) (getSlot s1 k)) s1)
    let s3 := blocksLost x.nsid (x.lba + t) 1 0x01 s2
    if x.acked.getLsbD t then deferredError x.nsid (x.lba + t) 1 0x01 s3 else s3

/-- An uncorrectable word of a yard slot (R200): YARD_UE counts it; a mortar slot is formed again before its EMIT. -/
def yardWordLost (k t : Nat) (s : State) : State :=
  let x := getSlot s k
  let s1 := happen baseCourse 5 (addF F.YARD_UE_COUNT 1 s)
  match x.st with
  | .free => s
  | .mortar => setSlot k { x with poisoned := true } s1
  | _ => yardBlockLost k t s1

/-- A plan buffer whose words are lost is invalid (R37). -/
def planLost (u : PlanUnit) (b : Nat) (s : State) : State := setBuf u b { getBuf s u b with invalid := true } s

/-- Pick one of the users of a memory that the spec does not lay out. -/
def pickUser {α : Type} (m word : Nat) (l : List α) : Option α := l[Config.memUser m word l.length % max 1 l.length]?

/-- A command whose table entry is lost completes with Internal Error, and no data of it moves afterwards. -/
def stInternal : Sts := ⟨0, 0x06, false⟩
def loseCmd (i : Nat) (s : State) : State :=
  let c := getCmd s i
  let s1 := if isWrite c.kind && decide (c.st = .started) then cutWrite i false s else dropReads i (unhold i s)
  failCmd i stInternal s1

/-- The unit whose plan a word of memory 12 belongs to: the Hod's plans lie first (R387), then those of the lanes, the MAC
and the posters (log 27); the rest are system buffers. -/
def otherPlan (word : Nat) : Option (PlanUnit × Nat) :=
  let a := 8 * word
  if a < 0x2000 then some (.hod, a / 0x800 % 4)
  else if a < 0x42000 then some (.lane ((a - 0x2000) / 0x2000), (a - 0x2000) / 0x800 % 4)
  else if a < 0x52000 then some (.mac ((a - 0x42000) / 0x2000), (a - 0x42000) / 0x800 % 4)
  else if a < 0x72000 then some (.poster ((a - 0x52000) / 0x10000), (a - 0x52000) / 0x4000 % 4)
  else none

def ownerActs (m word : Nat) (s : State) : State :=
  match m with
  | 1 => yardWordLost (word / 8192) (word % 8192 / 512) s
  | 6 =>
    (match pickUser 6 word (s.map.rds.filter (fun p => decide (p.2.st = .fetched))) with
     | some p => climb p.1 s
     | none => s)
  | 7 => planLost (.fch (8 * word / 0x10000)) (8 * word / 0x4000 % 4) s
  | 8 => if word / 8 < 4096 then shadowUeDo (word / 8) s else s
  | 9 => recorderFailed word false s
  | 10 =>
    (match pickUser 10 word (s.host.cmds.filter (fun p => decide (p.2.st ≠ .ready))) with
     | some p => loseCmd p.1 s
     | none => s)
  | 11 =>
    (match pickUser 11 word (s.map.slots.filter (fun p => decide (p.2.st ≠ .free))) with
     | some p =>
       if p.2.st = .mortar then yardWordLost p.1 0 s
       else (List.range 15).foldl (fun t b => yardBlockLost p.1 (b + 1) t) (yardWordLost p.1 0 s)
     | none => s)
  | 12 =>
    (match otherPlan word with
     | some (u, b) => planLost u b s
     | none => s)
  | 16 => mapWordLost 0 word s
  | 17 => mapWordLost 1 word s
  | 18 => mapWordLost 2 word s
  | 19 => mapWordLost 3 word s
  | _ => s

/-- An uncorrectable word that is found for the first time: poisoned, counted, logged, its cause set, and its owner acts. -/
def newUe (m word syndrome : Nat) (src : ErrSource) (s : State) : State :=
  let s1 := memLog m word syndrome 1 src (memCount m (mF m F.MEMCHK_UE_COUNT_COUNT F.MAPMEM_UE_COUNT_COUNT) 1
    (setMem m { getMem s m with poisoned := insertNat word (getMem s m).poisoned } s))
  ownerActs m word (memCause m 1 s1)

/-- MEMORY_UNCORRECTABLE: a read gets a bus error (R392), and a write narrower than 64 bits leaves the word poisoned,
which a non-posted writer sees (R393). -/
def uncorrectable (m word syndrome : Nat) (src : ErrSource) (write posted poisoned : Bool) (s : State) : State :=
  if !isMem m then s
  else
    let old := poisoned || (getMem s m).poisoned.contains word
    let s1 := if old then s else newUe m word syndrome src s
    if write then
      let s2 := memCause m 2 (memLog m word syndrome 2 .merge
        (memCount m (mF m F.MEMCHK_POISON_WR_COUNT F.MAPMEM_POISON_WR_COUNT) 1 s1))
      if posted then s2 else emit .busError s2
    else if src = .scrub then s1
    else emit .busError (addF F.FAB_POISON_CPL_COUNT 1 s1)

/-! ## Pointing (R397) -/

/-- SCRUB_PERIOD: in each period of BEATS beats WORDS words are read; those the port did not grant are carried over. -/
def scrubDo (m granted : Nat) (s : State) : State :=
  let beats := if m = 0 then 1 else getNZ s (mF m F.MEMCHK_SCRUB_BEATS F.MAPMEM_SCRUB_BEATS)
  let words := if m = 0 then 1 else getF s (mF m F.MEMCHK_SCRUB_WORDS F.MAPMEM_SCRUB_WORDS)
  if !isMem m || asleep s || s.top.off || decide (beatNow s % beats ≠ 0) || decide (words = 0) then s
  else
    let x := getMem s m
    let g := min granted (x.owed + words)
    let s1 := setMem m { x with owed := x.owed + words - g } s
    if m = 0 then s1
    else
      let f := mF m F.MEMCHK_SCRUB_POS_WORD F.MAPMEM_SCRUB_POS_WORD
      let n := max 1 (memWords s m)
      let p := getF s f + g
      addF (mF m F.MEMCHK_SCRUB_PASSES_COUNT F.MAPMEM_SCRUB_PASSES_COUNT) (p / n) (setF f (p % n) s1)

/-! ## The fabric (R409, R412) -/

/-- The page of the block that a fabric port belongs to, where it has one. -/
def portBase (p : Nat) : Nat :=
  if p < 12 then (if p = 11 then baseSec else baseTop)
  else if p = 12 then baseHost 0 else if p = 13 then baseHost 1 else if p = 14 then baseHod else if p = 15 then baseMac
  else if p = 16 then baseCourse else if p = 17 then baseLdpc else if p = 18 then baseSort else if p = 19 then baseTrowel
  else if p < 24 then baseMapmem (p - 20) else if p = 24 then baseYard else if p = 25 then baseMemchk
  else if p = 26 then baseTop else if p < 59 then baseFch (p - 27) else baseFab

/-- FAB_PARITY_ERROR: the first three failures of a word are replayed; the fourth ends the transfer: a posted write is
dropped and logged by the sender's block, and any other requester gets a bus error. -/
def fabError (sender receiver : Nat) (response posted : Bool) (failure a : Nat) (s : State) : State :=
  if failure < 4 then happen baseFab 0 (addF F.FAB_REPLAYS_COUNT 1 s)
  else
    let s1 := happen baseFab 1 (addF F.FAB_FATALS_COUNT 1 (setF F.FAB_LAST_FATAL_RESPONSE (if response then 1 else 0)
      (setF F.FAB_LAST_FATAL_RECEIVER receiver (setF F.FAB_LAST_FATAL_SENDER sender s))))
    if posted && !response then noteErr (portBase sender) 0xF4 receiver a s1 else emit .busError s1

def execMemoryUncorrectable (m word syndrome : Nat) (src : ErrSource) (write posted poisoned : Bool) (s : State) : Res :=
  .next (uncorrectable m word syndrome src write posted poisoned s)
def execMemoryCorrectable (m word syndrome : Nat) (src : ErrSource) (s : State) : Res :=
  .next (correctable m word syndrome src s)
def execScrubPeriod (m granted : Nat) (s : State) : Res := .next (scrubDo m granted s)
def execMapmemAlert (c nth : Nat) (s : State) : Res := .next (mapAlert c nth s)
def execMapRestoreDone (ms : Nat) (s : State) : Res := .next (restoreDone ms s)
def execMapmemRetrain (c : Nat) (ok : Bool) (s : State) : Res :=
  .next (guarded .onChip (Reg.MAPMEM_CFG c) 4 (mapRetrain c ok) s)
def execFabParityError (sender receiver : Nat) (response posted : Bool) (failure addr : Nat) (s : State) : Res :=
  .next (fabError sender receiver response posted failure addr s)

end Sys2Proof.Machine
end

