-- ==== Sys2Proof/Machine/Keys.lean ====
section
/-!
DEFINITION. Machine/Keys.lean: the key slots and their operations (R316 to R322, R352), the MAC engines and their
randomness (R313 to R315, R323, R333).
-/

namespace Sys2Proof.Machine

/-- The activation pause: the security core's messages wait for its end (R358). -/
def pausing (s : State) : Bool := isSet s (F.HOST_CPL_STAT_PAUSED 0) || isSet s (F.HOST_CPL_STAT_PAUSED 1)

/-! ## Key slots (R316) -/

def keyResult (t r : Nat) (s : State) : State := setF (F.MAC_TILE_KEY_RESULT t) r s
def keyOk : Nat := 0
def keyBusy : Nat := 1
def keyCurrent : Nat := 2
def keyTagged : Nat := 3
def keyKcv : Nat := 4
def keyGenEnd : Nat := 5
def keyNotLoaded : Nat := 6

def genOf (s : State) (k : Nat) : Nat := tget zeroD s.mac.gens k

/-- GEN takes a value; MAC_SLOT shows its low 24 bits. -/
def setGen (k g : Nat) (s : State) : State :=
  setF (F.MAC_SLOT_GEN k) (g % 2 ^ 24) { s with mac := { s.mac with gens := tset zeroD k g s.mac.gens } }

/-- Another operation on the tile's slots is in progress: an erase whose effect is due. -/
def tileBusy (s : State) (t : Nat) : Bool := s.mac.eraseDue.any (fun k => decide (k / 4 = t))

/-- The reads of a slot that are bound to its present GEN (R317). -/
def boundReads (s : State) (k : Nat) : List Nat :=
  (s.map.rds.filter (fun p => decide (p.2.st = .checked) && decide (4 * p.2.tile + entKver p.2.entry = k))).map (·.1)

/-- The refusal table of R316 for GENERATE and LOAD, in its order. -/
def newKeyRefusal (t v : Nat) (restore : Option (BitVec 256)) (s : State) : Option Nat :=
  let k := 4 * t + v
  let st := keyState s k
  if st = keyRetiring ∨ tileBusy s t then some keyBusy
  else if curVer s t = v ∧ st = keyLoaded then some keyCurrent
  else if (st = keyLoaded ∧ taggedOf s t v ≠ 0) ∨ (st = keyErased ∧ restore.isNone) then some keyTagged
  else if (match restore with
    | some key => decide (st = keyEmpty) || decide (Config.kcvOf key ≠ tget (fun _ => 0) s.mac.kcv k)
    | none => false) then some keyKcv
  else if genOf s k = 2 ^ 32 - 1 then some keyGenEnd
  else none

/-- A key comes into a slot: from EMPTY or ERASED it is LOADED at once; over a LOADED key the old copy retires first. -/
def putKey (t v : Nat) (key : BitVec 256) (hostLoaded : Bool) (s : State) : State :=
  let k := 4 * t + v
  let over1 := decide (keyState s k = keyLoaded)
  let m := s.mac
  let s1 := { s with mac := { m with
    keys := tset (fun _ => 0) k key m.keys
    old := if over1 then tset (fun _ => 0) k (slotKey s k) m.old else m.old
    bound := if over1 then m.bound ++ boundReads s k else m.bound
    kcv := tset (fun _ => 0) k (Config.kcvOf key) m.kcv } }
  setF (F.MAC_SLOT_SOURCE k) (if hostLoaded then 1 else 0)
    (setF (F.MAC_SLOT_STATE k) (if over1 then keyRetiring else keyLoaded) (setGen k (genOf s k + 1) s1))

/-- The tile's session carries a key operation: one is open on the storage binding of the tile's function (R81, R352); the
operation waits while a pause lasts.  Outside a session the request is refused. -/
def inSession (t v : Nat) (f : Conn → State → State) (s : State) : State :=
  if 64 ≤ t ∨ 4 ≤ v ∨ pausing s ∨ !running s then s
  else match fnOfTile s t with
    | none => s
    | some fn => if (getConn s (.storage fn)).sessions = 0 then spdmErr (.storage fn) errUnexpected s
      else f (.storage fn) (dropSig (.storage fn) s)

/-- The result byte, and with it the KCV where the operation gives one. -/
def keyAnswer (c : Conn) (t r : Nat) (kcv : Option W64) (s : State) : State :=
  spdmSay c spdmVendor (leBytes 1 r ++ (match kcv with
    | some x => leBytes 8 x.toNat
    | none => [])) (keyResult t r s)

/-- KEY_GENERATE and KEY_LOAD. -/
def newKey (t v : Nat) (restore hostLoaded : Bool) (key : BitVec 256) (s : State) : State :=
  inSession t v (fun c s0 =>
    match newKeyRefusal t v (if restore then some key else none) s0 with
    | some r => keyAnswer c t r (some (tget (fun _ => 0) s0.mac.kcv (4 * t + v))) s0
    | none => keyAnswer c t keyOk (some (Config.kcvOf key)) (putKey t v key hostLoaded s0)) s

/-- SET_CURRENT takes effect at the next beat boundary (R320); a later one replaces it. -/
def setCurrent (t v : Nat) (s : State) : State :=
  inSession t v (fun c s0 =>
    let st := keyState s0 (4 * t + v)
    if st = keyRetiring ∨ tileBusy s0 t then keyAnswer c t keyBusy none s0
    else if st ≠ keyLoaded then keyAnswer c t keyNotLoaded none s0
    else keyAnswer c t keyOk none
      { s0 with mac := { s0.mac with curDue := s0.mac.curDue.filter (fun p => p.1 != t) ++ [(t, v)] } }) s

/-- The switch at the beat boundary: the sweep starts, or turns to the new version. -/
def currentSwitch (t : Nat) (s : State) : State :=
  match s.mac.curDue.find? (fun p => p.1 == t) with
  | none => s
  | some (_, v) =>
    let m := s.mac
    keysSettle (setF (F.MAC_TILE_KEY_SWEEPING t) 1 (setF (F.MAC_TILE_KEY_CUR t) v
      { s with mac := { m with curDue := m.curDue.filter (fun p => p.1 != t), sweeping := insertNat t m.sweeping } }))

/-! ## Erasing a key (R318) -/

/-- A LOADED or RETIRING slot moves to ERASED; its effect comes at the beat boundary.  Any other slot stays. -/
def eraseSlot (k : Nat) (s : State) : State :=
  if keyState s k = keyLoaded ∨ keyState s k = keyRetiring then
    let s1 := setGen k (min (2 ^ 32 - 1) (genOf s k + 1)) (setF (F.MAC_SLOT_STATE k) keyErased s)
    { s1 with mac := { s1.mac with eraseDue := insertNat k s1.mac.eraseDue } }
  else s

/-- KEY_ERASE through a session. -/
def keyEraseDo (t v : Nat) (s : State) : State :=
  inSession t v (fun c s0 =>
    if tileBusy s0 t then keyAnswer c t keyBusy none s0
    else keyAnswer c t keyOk none (eraseSlot (4 * t + v) s0)) s

/-- The plan entry that took a block says that its key was erased (R312, R318). -/
def markErased (r : Rd) (s : State) : State :=
  let u := PlanUnit.mac (plannerOf s r.ch)
  let b := beatNow s % 4
  let x := getBuf s u b
  setBuf u b { x with ents := x.ents.map (fun e =>
    if e.code = 1 ∧ eCh e.e = r.ch ∧ e.e.tile = r.tile ∧ (e.e.op = 1 ∨ e.e.op = 2) then { e with code := 3 } else e) } s

/-- A read whose verification was bound to the erased GEN ends KEY_ERASED. -/
def readErased (i : Nat) (s : State) : State :=
  let r := getRd s i
  let s1 := addF F.MAC_KEY_ERASED_OPS_COUNT 1 (markErased r s)
  match r.kind with
  | .host => dropRd i (blockDone r.cmd r.lba (some stKeyErased) s1)
  | .verify => endIfDone r.cmd (dropRd i (blockDone r.cmd r.lba (some stKeyErased) s1))
  | .audit => failCmd r.cmd stKeyErased (dropReads r.cmd (dropRd i s1))
  | .tags => failCmd r.cmd stKeyErased (dropReads r.cmd (dropRd i s1))
  | .fill k => dropRd i (fillLost k r.t (blocksLost r.nsid r.lba 1 0x06 s1))
  | _ => dropRd i s1

/-- A started write with blocks still to be tagged under the version writes none of them and ends with 0x91. -/
def writeErased (k i : Nat) (s : State) : State :=
  let c := getCmd s i
  if isWrite c.kind ∧ c.st = .started ∧ c.left.any (fun lba =>
      let x := getSlot s (slotFor c lba)
      decide (4 * x.tile + x.kver = k)) then
    failCmd i stKeyErased (addF F.MAC_KEY_ERASED_OPS_COUNT 1 (cutWrite i true s))
  else s

/-- Runs of set bits: first and length. -/
def runs (x : BitVec 16) : List (Nat × Nat) :=
  ((List.range 16).filter (fun t => x.getLsbD t && !(decide (0 < t) && x.getLsbD (t - 1)))).map (fun t =>
    (t, ((List.range 16).takeWhile (fun j => decide (t + j < 16) && x.getLsbD (t + j))).length))

/-- A slot of the version in FILLING or STAGED is lost: STATE 10, freed, a deferred write error with cause 0x04 for what
was acknowledged, and R157.  A Trowel copy leaves the entry with its source. -/
def slotErased (k : Nat) (s : State) : State :=
  let x := getSlot s k
  let mine := named s k
  let s1 := freeSlot k s
  let s2 := if mine then mapSet x.line x.idx (lostEnt x.kver) s1
    else if x.reloc ∧ getEnt s x.line x.idx = x.old ∧ entState x.old = stReloc then
      putEnt x.line x.idx (withState x.old stMapped) s1
    else s1
  if mine then
    let s3 := (runs x.present).foldl (fun t r => blocksLost x.nsid (x.lba + r.1) r.2 0x04 t) s2
    (runs (x.present &&& x.acked)).foldl (fun t r => deferredError x.nsid (x.lba + r.1) r.2 0x04 t) s3
  else s2

/-- Writes not yet completed that wait for a lost slot end with 0x91 too. -/
def waitersErased (lost : List Nat) (s : State) : State :=
  (s.host.cmds.filter (fun p => isWrite p.2.kind && decide (p.2.st = .working)
    && p.2.waits.any (fun k => lost.contains k))).foldl (fun t p => failCmd p.1 stKeyErased t) s

/-! ## The end of a mailbox operation (R368, R360) -/

/-- A mailbox operation completes with a result. -/
def mbxEnd (r : Nat) (s : State) : State :=
  happen baseSec 15 (setF F.SEC_MBX_STATUS_RESULT r (setF F.SEC_MBX_STATUS_BUSY 0 { s with sec := { s.sec with mbxOp := none } }))

/-- The debug scopes named open (R360 step 5). -/
def openScopes (n : Nat) (s : State) : State :=
  happen baseSec 8 (setF F.SEC_STATUS_DEBUG_UNLOCKED 1 { s with sec := { s.sec with scopes := n % 8 } })

/-- The mailbox operation in hand ends once no erase is left. -/
def mbxSettle (s : State) : State :=
  match s.sec.mbxOp with
  | some (op, n) =>
    if s.mac.eraseDue ≠ [] then s else if op = 4 then mbxEnd 0 (openScopes n s) else mbxEnd 0 s
  | none => s

/-- KEY_ERASE_EFFECT: the effect of an erase at the beat boundary. -/
def eraseEffect (k : Nat) (s : State) : State :=
  if !s.mac.eraseDue.contains k then s
  else
    let s1 := (s.host.cmds.map (·.1)).foldl (fun t i => writeErased k i t) s
    let s2 := (boundReads s1 k).foldl (fun t i => readErased i t) s1
    let lost := (s2.map.slots.filter (fun p => decide (4 * p.2.tile + p.2.kver = k)
      && (decide (p.2.st = .filling) || decide (p.2.st = .staged)))).map (·.1)
    let s3 := settleWaits (waitersErased lost (lost.foldl (fun t j => slotErased j t) s2))
    let m := s3.mac
    mbxSettle (happen baseMac 3 (keysSettle { s3 with mac := { m with
      keys := terase k m.keys, old := terase k m.old, eraseDue := removeNat k m.eraseDue } }))

/-- The last operation bound to the old GEN has retired: the old copy is zeroised (R316). -/
def oldRetired (k : Nat) (s : State) : State :=
  let live := s.mac.bound.filter (fun i => hasRd s i)
  if keyState s k ≠ keyRetiring ∨ live.any (fun i => decide (4 * (getRd s i).tile + entKver (getRd s i).entry = k)) then s
  else
    let m := s.mac
    keysSettle (setF (F.MAC_SLOT_STATE k) keyLoaded
      { s with mac := { m with old := terase k m.old, bound := live } })

/-- KEY_STATUS: state, GEN, SOURCE, KCV and TAGGED of the four slots. -/
def keyStatusData (s : State) (t : Nat) : List Byte :=
  (List.range 4).flatMap (fun v =>
    let k := 4 * t + v
    leBytes 1 (keyState s k) ++ leBytes 4 (genOf s k) ++ leBytes 1 (getF s (F.MAC_SLOT_SOURCE k))
      ++ leBytes 8 (tget (fun _ => 0) s.mac.kcv k : W64).toNat ++ leBytes 4 (taggedOf s t v))

def keyStatusDo (t : Nat) (s : State) : State :=
  inSession t 0 (fun c s0 => spdmSay c spdmVendor (keyStatusData s0 t) s0) s

/-! ## Engines and randomness -/

/-- The known-answer test of an engine: 0 to 4 the write side, 5 to 9 the read side, 10 and 11 the iterated ones, which no
register lists (R310, R313).  Its messages are computed again on another engine. -/
def macKat (e : Nat) (ok : Bool) (s : State) : State :=
  if !isSet s F.MAC_CFG_KAT_EPOCH || ok || decide (12 ≤ e) || !running s then s
  else if e < 5 then happen baseMac 7 (showEngines (setF (bitF Reg.MAC_ENGINE_OK e) 0 s))
  else if e < 10 then happen baseMac 7 (showEngines (setF (bitF Reg.MAC_ENGINE_OK (e + 3)) 0 s))
  else happen baseMac 7 s

/-- A local generator takes a reseed: one DRBG request, which counts down while the entropy source is not trusted. -/
def maskReseed (e : Nat) (s : State) : State :=
  if 12 ≤ e then s
  else
    let s1 := { s with mac := { s.mac with drbg := s.mac.drbg + 1 } }
    if isSet s F.MAC_STATUS_ENTROPY_OK then s1 else setF F.MAC_DRBG_LEFT_COUNT (getF s F.MAC_DRBG_LEFT_COUNT - 1) s1

/-- The DRBG reseeds from the entropy source every 2^20 requests, while that is healthy. -/
def drbgReseedDo (s : State) : State :=
  if isSet s F.MAC_STATUS_ENTROPY_OK && decide (2 ^ 20 ≤ s.mac.drbg) then { s with mac := { s.mac with drbg := 0 } } else s

/-- MAC_DRBG_LEFT has reached 0: new MAC operations are refused. -/
def drbgExhaustedDo (s : State) : State :=
  if getF s F.MAC_DRBG_LEFT_COUNT = 0 ∧ !isSet s F.MAC_STATUS_REFUSING then
    happen baseMac 1 (setF F.MAC_STATUS_REFUSING 1 s)
  else s

/-- The entropy health tests fail, or pass again; refusal then ends at the next beat boundary. -/
def entropyTest (ok : Bool) (s : State) : State :=
  if ok then
    if isSet s F.MAC_STATUS_ENTROPY_OK then s
    else setF F.MAC_STATUS_ENTROPY_OK 1 (setF F.MAC_DRBG_LEFT_COUNT 0xFFFFFFFF
      { s with mac := { s.mac with drbg := 0, resume := isSet s F.MAC_STATUS_REFUSING } })
  else if isSet s F.MAC_STATUS_ENTROPY_OK then
    happen baseMac 0 (setF F.MAC_STATUS_ENTROPY_OK 0 { s with mac := { s.mac with resume := false } })
  else s

/-- The end of refusal at the beat boundary. -/
def macResume (s : State) : State :=
  if s.mac.resume then setF F.MAC_STATUS_REFUSING 0 { s with mac := { s.mac with resume := false } } else s

/-- The write-sequence counter has reached its limit (R323). -/
def wseqLimit (s : State) : State :=
  if 2 ^ 56 - 2 ^ 32 ≤ s.map.wseq ∧ !isSet s F.MAC_STATUS_WSEQ_LIMIT then
    setCause F.TOP_MODE_CAUSE_EVAC_WSEQ (happen baseMac 2 (setF F.MAC_STATUS_WSEQ_LIMIT 1 s))
  else s

def execMacKat (engine : Nat) (ok : Bool) (s : State) : Res := .next (macKat engine ok s)
def execMaskReseed (engine : Nat) (s : State) : Res := .next (maskReseed engine s)
def execDrbgReseed (s : State) : Res := .next (drbgReseedDo s)
def execEntropyHealthTest (ok : Bool) (s : State) : Res := .next (entropyTest ok s)
def execDrbgExhausted (s : State) : Res := .next (drbgExhaustedDo s)
def execWseqLimitReached (s : State) : Res := .next (wseqLimit s)
def execKeyGenerate (t v : Nat) (s : State) : Res := .next (newKey t v false false (Config.drbgKey s.freeCtr) (tick s))
def execKeyLoad (t v : Nat) (restore : Bool) (key : BitVec 256) (s : State) : Res := .next (newKey t v restore true key s)
def execKeySetCurrent (t v : Nat) (s : State) : Res := .next (setCurrent t v s)
def execKeyCurrentSwitch (t : Nat) (s : State) : Res := .next (currentSwitch t s)
def execKeyErase (t v : Nat) (s : State) : Res := .next (keyEraseDo t v s)
def execKeyEraseEffect (slot : Nat) (s : State) : Res := .next (eraseEffect slot s)
def execKeyOldCopyRetired (slot : Nat) (s : State) : Res := .next (oldRetired slot s)
def execKeyStatus (t : Nat) (s : State) : Res := .next (keyStatusDo t s)

end Sys2Proof.Machine
end

