-- ==== Sys2Proof/Machine/Tiles.lean ====
section
/-!
DEFINITION. Machine/Tiles.lean: tile states, operations and their checks (R64 to R72, R87, R88, R526), the deletion of a
namespace (R134), and the two writes that are checked against the tiles' sums (R199, R245).
-/

namespace Sys2Proof.Machine

/-! ## Deleting a namespace (R134) -/

/-- Commands of a namespace that have not ended come to nothing. -/
def dropNsCmds (n : Nat) (s : State) : State :=
  (s.host.cmds.filter (fun p => decide (p.2.h.nsid = n) && decide (p.2.st ≠ .ready)
    && (match p.2.kind with
        | .admin _ => false
        | .aer => false
        | _ => true))).foldl (fun t p =>
      failCmd p.1 stNs (dropReads p.1 (unhold p.1 (setCmd p.1 { p.2 with left := [], arrived := [] } t)))) s

/-- Lines that a namespace takes (R206). -/
def nsLines (s : State) (n : Ns) : Nat :=
  if n.zoned then n.nsze / zsze s * (zcapOf s (width s) / 192) else (n.nsze + 191) / 192

/-- Courses of a use that a tile still holds. -/
def heldBy (s : State) (t : Nat) (f : CourseUse → Bool) : List Nat :=
  (s.map.courses.filter (fun p => decide (p.2.tile = t) && f p.2.use
    && (decide (p.2.st = .taken) || decide (p.2.st = .full)))).map (·.1)

def wallUse (u : CourseUse) : Bool :=
  match u with
  | .wall _ => true
  | .reloc => true
  | _ => false

def anyUse (u : CourseUse) : Bool := decide (u ≠ .none)

/-- A namespace loses its data: its entries unmapped in one update, its slots freed, its courses released; every zone is
Empty. -/
def wipeNs (n : Nat) (s : State) : State :=
  let x := getNs s n
  let s1 := dropNsCmds n s
  let s2 := unmapLines x.base (nsLines s x) s1
  let s3 := (s2.map.slots.filter (fun p => decide (p.2.nsid = n) && decide (p.2.st = .filling ∨ p.2.st = .staged))).foldl
    (fun t p => freeSlot p.1 t) s2
  let s4 := (s3.map.zones.filter (fun p => decide (p.1 / 2 ^ 20 = n))).foldl (fun t p =>
    match p.2.course with
    | some c => releaseCourse c t
    | none => t) s3
  { s4 with
    map := { s4.map with zones := s4.map.zones.filter (fun p => decide (p.1 / 2 ^ 20 ≠ n)) }
    mac := { s4.mac with trees := s4.mac.trees.filter (fun p => decide (p.1 / 2 ^ 20 ≠ n)) }
    host := { s4.host with
      zoneActs := s4.host.zoneActs.filter (fun a => a.2.2.1 != n)
      changed := s4.host.changed.filter (fun a => a.1 != n) } }

/-- Courses that have lost their last data are handed over: the walls of a tile without a conventional namespace, and
full ones without a mapped MU. -/
def dropWalls (t : Nat) (s : State) : State :=
  let s1 := if (tileConv s t) = [] then (heldBy s t wallUse).foldl (fun x c => releaseCourse c x) s else handEmptied s
  keysSettle (gcTrigger t (settleWaits s1))

/-- A namespace is deleted. -/
def deleteNs (n : Nat) (s : State) : State :=
  dropWalls (getNs s n).tile (setNs n ns0 (wipeNs n s))

/-! ## Values -/

/-- The staging registers of a tile (R88), in the order of command 0xC1's data. -/
def stageRegs (t : Nat) : List Nat :=
  [Reg.TILE_BIND t, Reg.TILE_DIE_SHARE t, Reg.TILE_YARD t, Reg.TILE_QUEUES t, Reg.TILE_CMDS t, Reg.TILE_NS t, Reg.TILE_ZONES t,
    Reg.TILE_COURSES t, Reg.TILE_SORT t]

/-- The bits of a staging register that are coded RW; TILE_BIND of tile 0 is fixed. -/
def stageMask (a : Nat) : Nat :=
  match a % 0x1000 with
  | 0x108 => if a = Reg.TILE_BIND 0 then 0 else 0x7F
  | 0x10C => 0x00FF1FFF
  | 0x110 => 0x0FFF0FFF
  | 0x114 => 0x01FF1FFF
  | 0x118 => 0x0007FFFF
  | 0x11C => 0x01FF07FF
  | 0x120 => 0x1FFF1FFF
  | 0x124 => 0x0003FFFF
  | 0x128 => 0x1FFF0FFF
  | _ => 0

/-- The staging value of a register: what was written since the last accepted operation, else the value in effect. -/
def stageD (s : State) (a : Nat) : W32 := rd s a
def staging (s : State) (a : Nat) : Nat :=
  match s.tiles.stage.find? (fun p => p.1 == a) with
  | some p => p.2.toNat
  | none => getR s a

/-- A staging value is written; TILE_BIND takes one only in FREE and STOPPED (R70). -/
def stageWrite (t a v : Nat) (s : State) : State :=
  if a = Reg.TILE_BIND t ∧ tileState s t ≠ tFree ∧ tileState s t ≠ tStopped then s
  else
    let w := Nat.lor (Nat.land v (stageMask a)) (Nat.land (getR s a) (2 ^ 32 - 1 - stageMask a))
    { s with tiles := { s.tiles with stage := tinsert a (BitVec.ofNat 32 w) (terase a s.tiles.stage) } }

/-- Command 0xC1's data: the words of TILE_BIND to TILE_SORT; TILE_KEYS is read-only, TILE_EVT_VIS plain. -/
def stageAll (t : Nat) (l : List W32) (s : State) : State :=
  let s1 := (List.range 9).foldl (fun x k =>
    match l[k]? with
    | some v => stageWrite t (Reg.TILE_BIND t + 4 * k) v.toNat x
    | none => x) s
  match l[10]? with
  | some v => setR (Reg.TILE_EVT_VIS t) (v.toNat % 4) s1
  | none => s1

/-- A reserved value of a tile that is not being changed: what it holds, or what it is about to at the next header beat. -/
def held (s : State) (t a : Nat) : Nat :=
  match s.tiles.sharesDue.find? (fun p => p.1 == t) with
  | some p => if a = Reg.TILE_DIE_SHARE t then p.2.1.toNat else if a = Reg.TILE_YARD t then p.2.2.toNat else getR s a
  | none => getR s a

/-- The value that an operation on tile `t` counts for tile `k`. -/
def counted (s : State) (t k : Nat) (r : Nat → Nat) : Nat := if k = t then staging s (r k) else held s k (r k)

def notFree (s : State) : List Nat := (List.range 64).filter (fun k => decide (tileState s k ≠ tFree))

/-- A sum of R67: over every tile that is not FREE, with the tile at its new values. -/
def sumOf (s : State) (t : Nat) (r : Nat → Nat) (lo w : Nat) : Nat :=
  (insertNat t (notFree s)).foldl (fun n k => n + bitsOf (counted s t k r) lo w) 0

/-- The courses' sum: a value above the total counts as the total. -/
def courseSum (s : State) (t : Nat) : Nat :=
  (insertNat t (notFree s)).foldl (fun n k =>
    n + min s.trowel.userCourses (bitsOf (counted s t k Reg.TILE_COURSES) 0 18)) 0

/-- The new matcher range lies within the array and overlaps no other tile's. -/
def sortFits (s : State) (t : Nat) : Bool :=
  let b := bitsOf (staging s (Reg.TILE_SORT t)) 0 12
  let n := bitsOf (staging s (Reg.TILE_SORT t)) 16 13
  decide (b + n ≤ 4096) && (notFree s).all (fun k =>
    let c := getF s (F.TILE_SORT_BASE k)
    let m := getF s (F.TILE_SORT_COUNT k)
    decide (k = t) || decide (n = 0) || decide (m = 0) || decide (b + n ≤ c) || decide (c + m ≤ b))

/-! ## Results -/

def tileOk : Nat := 0
def tileBadState : Nat := 2
def overDie : Nat := 3
def overYard : Nat := 4
def overQueues : Nat := 5
def overOther : Nat := 6
def fnInUse : Nat := 7
def badMode : Nat := 8
def rangeOverlap : Nat := 9
def tile0Fixed : Nat := 0xA

/-- The totals of R67, in the table's order. -/
def overcommit (s : State) (t : Nat) : Nat :=
  if 4096 - getF s F.TROWEL_BUDGET_SHARE < sumOf s t Reg.TILE_DIE_SHARE 0 13 then overDie
  else if userPool s < sumOf s t Reg.TILE_YARD 0 12 then overYard
  else if 4096 < sumOf s t Reg.TILE_QUEUES 0 13 then overQueues
  else if 262144 < sumOf s t Reg.TILE_CMDS 0 19 then overQueues
  else if 1024 < sumOf s t Reg.TILE_NS 0 11 then overOther
  else if 4096 < sumOf s t Reg.TILE_ZONES 0 13 ∨ 4096 < sumOf s t Reg.TILE_ZONES 16 13 then overOther
  else if s.trowel.userCourses < courseSum s t then overOther
  else if !sortFits s t then rangeOverlap
  else tileOk

/-- The new binding names a function that another tile is bound to (R70). -/
def fnTaken (s : State) (t : Nat) : Bool :=
  let b := staging s (Reg.TILE_BIND t)
  decide (bitsOf b 6 1 = 1) && (match tileOfFn s (bitsOf b 0 6) with
    | some k => decide (k ≠ t)
    | none => false)

/-- What a tile operation answers: 1 PROVISION, 2 START, 3 STOP, 4 RELEASE, 5 SET_SHARES (R65 to R69). -/
def tileCheck (s : State) (t op : Nat) : Nat :=
  let st := tileState s t
  let modeBad := decide (t ≠ 0) && decide (modeNow s ≠ modeZoned)
  match op with
  | 1 =>
    if modeBad then badMode
    else if st ≠ tFree ∧ st ≠ tStopped then tileBadState
    else if fnTaken s t then fnInUse
    else overcommit s t
  | 2 => if modeBad then badMode else if st ≠ tStopped then tileBadState else tileOk
  | 3 => if st ≠ tActive then tileBadState else tileOk
  | 4 => if t = 0 then tile0Fixed else if st ≠ tStopped then tileBadState else tileOk
  | _ =>
    if st ≠ tActive then tileBadState
    else if bitsOf (staging s (Reg.TILE_COURSES t)) 0 18 < coursesHeld s t then overOther
    else overcommit s t

/-! ## Effects -/

/-- The tile's page is saved in the system area (R526). -/
def saveTile (t : Nat) (s : State) : State :=
  let l := Reg.TILE_STATE t :: Reg.TILE_EVT_VIS t :: stageRegs t
  { s with tiles := { s.tiles with
      nv := l.foldl (fun x a => tinsert a (BitVec.ofNat 32 (held s t a)) (terase a x)) s.tiles.nv
      nvStage := s.tiles.nvStage.filter (fun p => decide (p.1 / 0x1000 ≠ baseTile t / 0x1000))
        ++ s.tiles.stage.filter (fun p => decide (p.1 / 0x1000 = baseTile t / 0x1000)) } }

def clearTileStage (t : Nat) (s : State) : State :=
  { s with tiles := { s.tiles with stage := s.tiles.stage.filter (fun p => decide (p.1 / 0x1000 ≠ baseTile t / 0x1000)) } }

def tileTo (t st : Nat) (s : State) : State := setF (F.TILE_STATE_STATE t) st s

/-- Matcher entries of a tile's old range that the new one leaves, and of the new that it lacked, are invalidated (R175). -/
def sortMoved (s : State) (t i : Nat) : Bool :=
  let old := inSortRange s t i
  let b := bitsOf (staging s (Reg.TILE_SORT t)) 0 12
  let n := bitsOf (staging s (Reg.TILE_SORT t)) 16 13
  old != (decide (b ≤ i) && decide (i < b + n))

/-- A staging register takes effect. -/
def takeStage (s0 : State) (a : Nat) (s : State) : State := setR a (staging s0 a) s

/-- The port of the bound function. -/
def showPort (t : Nat) (s : State) : State :=
  setF (F.TILE_BIND_PORT t) (portOf s (getF s (F.TILE_BIND_FN t))) s

/-- PROVISION: every resource and the binding, as one whole. -/
def provision (t : Nat) (s : State) : State :=
  let s1 := invalidateAll (sortMoved s t) s
  let s2 := tileTo t tStopped (showPort t ((stageRegs t).foldl (fun x a => takeStage s a x) s1))
  if tileState s t = tFree then
    { s2 with tiles := { s2.tiles with owner := terase t s2.tiles.owner } } else s2

/-- SET_SHARES: die share, weight and yard limits from the next header beat, the other limits now (R65, R69). -/
def setShares (t : Nat) (s : State) : State :=
  let l := [Reg.TILE_QUEUES t, Reg.TILE_CMDS t, Reg.TILE_NS t, Reg.TILE_ZONES t, Reg.TILE_COURSES t, Reg.TILE_SORT t]
  let s1 := l.foldl (fun x a => takeStage s a x) (invalidateAll (sortMoved s t) s)
  { s1 with tiles := { s1.tiles with sharesDue := s1.tiles.sharesDue.filter (fun p => p.1 != t)
      ++ [(t, BitVec.ofNat 32 (staging s (Reg.TILE_DIE_SHARE t)), BitVec.ofNat 32 (staging s (Reg.TILE_YARD t)))] } }

/-- START: the tile's namespaces are attached. -/
def startTile (t : Nat) (s : State) : State :=
  let l := s.host.ns.filter (fun p => decide (p.2.tile = t))
  tileTo t tActive (l.foldl (fun x p => setNs p.1 { getNs x p.1 with attached := true } x) s)

/-- RELEASE: keys erased, namespaces deleted, courses handed for erase, the function unbound, the session ended, the owner
cleared (R65, R350). -/
def releaseTile (t : Nat) (s : State) : State :=
  let s1 := (List.range 4).foldl (fun x v => eraseSlot (4 * t + v) x) s
  let s2 := match fnOfTile s t with
    | some fn => endSession (.storage fn) s1
    | none => s1
  let s3 := (s2.host.ns.filter (fun p => decide (p.2.tile = t))).foldl (fun x p => deleteNs p.1 x) s2
  let s4 := (heldBy s3 t anyUse).foldl (fun x c => releaseCourse c x) s3
  let s5 := invalidateAll (inSortRange s t) s4
  tileTo t tScrubbing (setF (F.TILE_BIND_PORT t) 0 (setF (F.TILE_BIND_BOUND t) 0
    { s5 with tiles := { s5.tiles with owner := terase t s5.tiles.owner } }))

/-- A tile operation: its result and what it does (R65); a refusal raises the tile's event and changes no other
register. -/
def tileOp (t op : Nat) (data : List W32) (s : State) : Nat × State :=
  let s0 := stageAll t data s
  let r := tileCheck s0 t op
  if r ≠ tileOk then (r, happenTile t 0 (setF (F.TILE_STATE_RESULT t) r s))
  else
    let s1 := match op with
      | 1 => clearTileStage t (provision t s0)
      | 2 => startTile t s0
      | 3 => tileTo t tQuiescing s0
      | 4 => clearTileStage t (releaseTile t s0)
      | _ => clearTileStage t (setShares t s0)
    (tileOk, saveTile t (setF (F.TILE_STATE_RESULT t) tileOk s1))

/-- A tile operation by TILE_CMD, or by vendor admin command 0xC1 (R123, R125). -/
def tileRow (t op : Nat) (req : Option TileReq) (s : State) : State :=
  if 64 ≤ t ∨ !running s then s
  else match req with
    | none => guarded .onChip (Reg.TILE_CMD t) (BitVec.ofNat 32 op) (fun x => (tileOp t op [] x).2) s
    | some r => adminCmd r.h 0xC1 true false true true (fun x =>
        let (res, y) := tileOp t op r.staging x
        answer r.h (.admin 0xC1) (if res = tileOk then stOk else stTileRefused (decide (res = 1))) res [] y) s

/-- The last fetched command of a QUIESCING tile has completed and its yard slots are programmed. -/
def quiesced (t : Nat) (s : State) : State :=
  let idle := !s.host.cmds.any (fun p => decide (p.2.tile = some t) && decide (p.2.kind ≠ .aer))
  let granted := match fnOfTile s t with
    | some fn => s.host.sqs.any (fun p => decide (p.1 / 8192 = fn) && decide (p.2.granted ≠ 0))
    | none => false
  if t < 64 ∧ tileState s t = tQuiescing ∧ idle ∧ !granted ∧ !tileHeld s t then
    happenTile t 1 (saveTile t (tileTo t tStopped s))
  else s

/-- The last course of a SCRUBBING tile is erased: every resource register goes to its reset value. -/
def scrubbed (t : Nat) (s : State) : State :=
  let left := s.map.courses.any (fun p => decide (p.2.tile = t) && decide (p.2.use ≠ .none))
  if t < 64 ∧ tileState s t = tScrubbing ∧ !left then
    let s1 := (Reg.TILE_EVT_VIS t :: stageRegs t).foldl (fun x a => setR a (resetValue a).toNat x) s
    happenTile t 2 (saveTile t (clearTileStage t (tileTo t tFree s1)))
  else s

/-- Lowered or raised shares take effect in a header beat (R65). -/
def takeShares (s : State) : State :=
  let s1 := s.tiles.sharesDue.foldl (fun x p => setR (Reg.TILE_YARD p.1) p.2.2.toNat (setR (Reg.TILE_DIE_SHARE p.1) p.2.1.toNat x)) s
  { s1 with tiles := { s1.tiles with sharesDue := [] } }

/-! ## Writes checked against the sums -/

/-- YARD_CFG: an EXTRA that would leave less than the guarantees is refused (R199). -/
def yardCfg (v : W32) (s : State) : State :=
  let s1 := setF F.YARD_CFG_PALLET_IDLE (bitsOf v.toNat 8 8) s
  let x := bitsOf v.toNat 0 6
  let reserve := 16 * muPerWave s (userCell s) + max 16 x
  if 2048 - reserve < yardMinSum s then setF F.YARD_STATUS_CFG_REFUSED 1 s1 else setF F.YARD_CFG_EXTRA x s1

/-- TROWEL_BUDGET.SHARE (R245). -/
def budgetWrite (v : W32) (s : State) : State :=
  let x := bitsOf v.toNat 0 13
  let sum := (notFree s).foldl (fun n k => n + bitsOf (held s k (Reg.TILE_DIE_SHARE k)) 0 13) 0
  if 4096 < x + sum then setF F.TROWEL_STATUS_CFG_REFUSED 1 s else setF F.TROWEL_BUDGET_SHARE x s

def execTileProvision (t : Nat) (req : Option TileReq) (s : State) : Res := .next (tileRow t 1 req s)
def execTileStart (t : Nat) (req : Option TileReq) (s : State) : Res := .next (tileRow t 2 req s)
def execTileStop (t : Nat) (req : Option TileReq) (s : State) : Res := .next (tileRow t 3 req s)
def execTileRelease (t : Nat) (req : Option TileReq) (s : State) : Res := .next (tileRow t 4 req s)
def execTileSetShares (t : Nat) (req : Option TileReq) (s : State) : Res := .next (tileRow t 5 req s)
def execTileQuiesced (t : Nat) (s : State) : Res := .next (quiesced t s)
def execTileScrubbed (t : Nat) (s : State) : Res := .next (scrubbed t s)
def execYardCfgWrite (v : W32) (s : State) : Res := .next (guarded .onChip Reg.YARD_CFG v (yardCfg v) s)
def execTrowelBudgetWrite (v : W32) (s : State) : Res := .next (guarded .onChip Reg.TROWEL_BUDGET v (budgetWrite v) s)

end Sys2Proof.Machine
end

