-- ==== Sys2Proof/Machine/Logs.lean ====
section
/-!
DEFINITION. Machine/Logs.lean: what the log pages hold: deferred write errors (R115), lost zones (R158), tile health (R276),
seal epochs (R328), the recorder extract (R467), the start ledger (R489) and the standard pages (R127).
-/

namespace Sys2Proof.Machine

/-- `n` zero bytes. -/
def zeros (n : Nat) : List Byte := List.replicate n 0

/-- A header of 64 bytes. -/
def header64 (l : List Byte) : List Byte := (l ++ zeros 64).take 64

/-- `len` bytes from an offset; a log reads zero past its end. -/
def slice (l : List Byte) (off len : Nat) : List Byte :=
  let x := (l.drop off).take len
  x ++ zeros (len - x.length)

def sat32' (n : Nat) : Nat := min n (2 ^ 32 - 1)

/-! ## Logs 0xC0 and 0xC1 -/

/-- The entry stands in a function's view (R85): FN 0 sees every tile's, another its own tile's. -/
def inView (s : State) (fn : Nat) (e : LossEnt) : Bool :=
  if fn = 0 then !e.outFn0 else decide (tileOfFn s fn = some e.tile) && !e.outOwn

/-- An entry removed from a function's view; tile 0's function is FN 0. -/
def outOf (fn : Nat) (e : LossEnt) : LossEnt :=
  if fn = 0 then { e with outFn0 := true, outOwn := e.outOwn || decide (e.tile = 0) } else { e with outOwn := true }

def lossBytes (c1 : Bool) (e : LossEnt) : List Byte :=
  leBytes 8 e.beat ++ leBytes 8 e.slba ++ leBytes 4 e.nlb ++ leBytes 4 e.nsid ++ leBytes 1 e.tile
    ++ (if c1 then leBytes 1 e.kind ++ leBytes 1 e.cause ++ zeros 1 else leBytes 1 e.cause ++ zeros 2) ++ leBytes 4 e.seq

/-- What a read of up to `n` entries returns. -/
def lossData (c1 : Bool) (fn n : Nat) (s : State) : List Byte :=
  let v := ((if c1 then s.host.lostLog else s.host.dweLog).filter (inView s fn)).take n
  let f := getFn s fn
  header64 (leBytes 4 v.length ++ leBytes 4 (sat32' (if c1 then f.lostC1 else f.lostC0))) ++ v.flatMap (lossBytes c1)

/-- With RAE cleared the entries returned leave the function's view; one that has left both views leaves the store. -/
def lossRead (c1 : Bool) (fn n : Nat) (s : State) : State :=
  let l := if c1 then s.host.lostLog else s.host.dweLog
  let seqs := ((l.filter (inView s fn)).take n).map (·.seq)
  let l1 := (l.map (fun e => if seqs.contains e.seq then outOf fn e else e)).filter (fun e => !(e.outOwn && e.outFn0))
  let f := getFn s fn
  let s1 := if c1 then setFn fn { f with lostC1 := 0 } { s with host := { s.host with lostLog := l1 } }
    else setFn fn { f with lostC0 := 0 } { s with host := { s.host with dweLog := l1 } }
  rearm fn (if c1 then 0xC1 else 0xC0) s1

/-! ## Log 0xC2 (R276) -/

/-- Courses of a tile that lack a brick. -/
def coursesReduced (s : State) (t : Nat) : Nat :=
  ((heldBy s t anyUse).filter (fun c => decide (courseWidth s c < width s)
    || (courseTable s c).any (fun a => !a.valid || lunLost s a.ch a.lun))).length

def zonesIn (s : State) (t : Nat) (st : ZSt) : Nat := (tileZones s t (fun x => decide (x = st))).length

/-- Blocks lost of a tile: 16 for each entry in STATE 10, and each block of KIND lost under an entry in 01 or 11. -/
def blocksLostOf (s : State) (t : Nat) : Nat :=
  (s.map.lines.filter (fun p => lineTile s p.1 == some t)).foldl (fun n p =>
    n + (List.range 12).foldl (fun m i =>
      let e := getEnt s p.1 i
      if entState e = stLost then m + 16
      else if entState e = stMapped ∨ entState e = stReloc then
        m + ((List.range 16).filter (fun j => blockLost s e j)).length
      else m) 0) 0

def tileHealth (s : State) (t : Nat) : List Byte :=
  leBytes 1 t ++ leBytes 1 (tileState s t)
    ++ leBytes 2 ((if s.trowel.gc.contains t then 1 else 0) + (if s.trowel.gcUrgent.contains t then 2 else 0))
    ++ leBytes 4 (coursesHeld s t) ++ leBytes 4 (coursesReduced s t) ++ leBytes 4 (gcFree s t)
    ++ leBytes 4 (zonesIn s t .readOnly) ++ leBytes 4 (zonesIn s t .offline) ++ leBytes 8 (blocksLostOf s t)
    ++ leBytes 8 (tget zeroD s.trowel.hostMus t) ++ leBytes 8 (tget zeroD s.trowel.trowelMus t)
    ++ leBytes 4 (tget zeroD s.trowel.dieDefer t) ++ zeros 12

/-- The tile whose visibility a function reads with; tile 0 through FN 0 sees everything (R85). -/
def seesDrive (s : State) (fn : Nat) : Bool :=
  decide (fn = 0) || (match tileOfFn s fn with
    | some t => isSet s (F.TILE_EVT_VIS_DRIVE t)
    | none => false)
def seesMedia (s : State) (fn : Nat) : Bool :=
  decide (fn = 0) || (match tileOfFn s fn with
    | some t => isSet s (F.TILE_EVT_VIS_MEDIA t)
    | none => false)

/-- Tiles whose entry a function reads. -/
def healthTiles (s : State) (fn : Nat) : List Nat :=
  (notFree s).filter (fun t => decide (fn = 0) || decide (tileOfFn s fn = some t))

def lostChannels (s : State) : List Nat := (List.range (width s)).filter (chLost s)
def lostLuns (s : State) : List Nat := (List.range 2048).filter (fun k => lunLost s (k / 64) (k % 64))
def maskOf (l : List Nat) : Nat := l.foldl (fun n k => n + 2 ^ k) 0

/-- Erased user courses in the pool. -/
def erasedPool (s : State) : Nat :=
  s.trowel.userCourses - (s.map.courses.filter (fun p => decide (roleOf p.1 = 0) && decide (p.2.st ≠ .erased)
    && decide (p.2.st ≠ .givenUp))).length

def healthData (fn : Nat) (s : State) : List Byte :=
  let d := seesDrive s fn
  let m := seesMedia s fn
  let hide (x : Bool) (l : List Byte) : List Byte := if x then l else zeros l.length
  let b (x : Bool) (n : Nat) : Nat := if x then n else 0
  let flags := b (isSet s F.PWR_HOLDUP_STAT_HOLDUP_OK) 1 + b (isSet s F.TROWEL_STATUS_REBUILD_ACTIVE) 2
    + b (isSet s F.TROWEL_STATUS_SPARES_LOW) 4 + b (isSet s F.TROWEL_STATUS_SPARES_EXHAUSTED) 8
    + b (isSet s F.TROWEL_STATUS_GC_URGENT) 16 + b (!d) 32 + b (!m) 64
  let ts := healthTiles s fn
  leBytes 2 1 ++ leBytes 2 ts.length ++ hide d (leBytes 1 (modeNow s) ++ leBytes 1 (getF s F.KILN_STATUS_LEVEL))
    ++ leBytes 2 flags ++ leBytes 8 (beatNow s)
    ++ hide d (leBytes 4 (getF s F.TROWEL_SPARES_BRICKS) ++ leBytes 4 (getF s F.TROWEL_SPARE_LOW)
      ++ leBytes 4 (getF s F.TROWEL_REBUILD_LEFT_COURSES) ++ leBytes 4 s.trowel.rebuilt)
    ++ hide (d && m) (leBytes 2 (lostLuns s).length ++ leBytes 1 (lostChannels s).length ++ zeros 1
      ++ leBytes 4 (maskOf (lostChannels s)))
    ++ hide d (leBytes 4 s.trowel.userCourses ++ leBytes 4 (erasedPool s) ++ leBytes 2 (wearMin s) ++ leBytes 2 (wearMax s)
      ++ leBytes 2 (wearAvg s) ++ leBytes 2 (getF s F.TROWEL_WEAR_PE_RATED) ++ leBytes 4 (getF s F.TROWEL_RETIRED_COUNT)
      ++ zeros 68)
    ++ hide m (leBytes 256 (maskOf (lostLuns s))) ++ ts.flatMap (tileHealth s)

/-! ## Log 0xC3 (R328) -/

/-- A zone record is in a function's scope (R85). -/
def inScope (s : State) (fn : Nat) (r : ZRec) : Bool := decide (fn = 0) || decide (tileOfFn s fn = some r.tile)

def zoneEntry (e : SealEp) (i : Nat) (r : ZRec) : List Byte :=
  let path := auditPath e.recs.length i (e.recs.map recLeaf)
  recBytes80 r ++ leBytes 4 i ++ leBytes 1 path.length ++ zeros 3
    ++ slice (path.flatMap digBytes) 0 1152

def epochEntry (s : State) (fn : Nat) (e : SealEp) : List Byte :=
  let l := ((List.range e.recs.length).zip e.recs).filter (fun p => inScope s fn p.2)
  leBytes 4 (17640 + 1240 * l.length) ++ leBytes 4 l.length ++ epStatement e ++ leBytes 384 e.sigRsa.toNat
    ++ leBytes 17088 e.sigSlh.toNat ++ l.flatMap (fun p => zoneEntry e p.1 p.2)

/-- Whole entries from a seal epoch on, as many as are asked for and are there. -/
def sealData (fn first n : Nat) (s : State) : List Byte :=
  let l := (s.mac.epochs.filter (fun e => decide (first ≤ e.epoch) && e.recs.any (inScope s fn))).take n
  let oldest := match s.mac.epochs.head? with
    | some e => e.epoch
    | none => 0
  let newest := match s.mac.epochs.getLast? with
    | some e => e.epoch
    | none => 0
  header64 (leBytes 4 l.length ++ leBytes 4 (sat32' s.mac.dropped) ++ leBytes 8 oldest ++ leBytes 8 newest)
    ++ l.flatMap (epochEntry s fn)

/-! ## Log 0xC4 (R467) -/

/-- The records held: the mirror's, then the ring's, each sequence once. -/
def heldRecs (s : State) : List Rec :=
  s.recd.mirror ++ s.recd.ring.filter (fun r => !s.recd.mirror.any (fun m => m.seq == r.seq))

def drop4 (s : State) : List Byte := (List.range 6).flatMap (fun v => leBytes 4 (getF s (F.REC_DROPPED_COUNT v)))

def extractHead (s : State) (l : List Rec) : List Byte :=
  let first := (heldRecs s).foldl (fun m r => min m r.seq) (getF s F.REC_NEXT_SEQ_SEQ)
  header64 (leBytes 4 l.length ++ leBytes 4 (recsLen l) ++ leBytes 4 first ++ leBytes 4 (getF s F.REC_NEXT_SEQ_SEQ) ++ drop4 s
    ++ leBytes 1 ((if isSet s F.REC_STATUS_MEM_FAILED then 1 else 0) + (if frozen s then 2 else 0)))

/-- Records that start at or after a byte offset of the extract. -/
def afterBytes : Nat → List Rec → List Rec
  | _, [] => []
  | off, r :: l => if off = 0 then r :: l else afterBytes (off - (16 + r.body.length)) l

def extractData (fn : Nat) (offsetType : Bool) (off len : Nat) (s : State) : List Byte :=
  if fn ≠ 0 then slice [] 0 (min len 64)
  else
    let l := if offsetType then (heldRecs s).filter (fun r => decide (off ≤ r.seq)) else afterBytes off (heldRecs s)
    let fit := fitRecs (len - 64) l
    slice (extractHead s fit ++ fit.flatMap recBytes) 0 len

/-! ## Log 0xC5 (R489) -/

def startBytes (r : StartRec) : List Byte :=
  leBytes 4 r.no ++ leBytes 8 r.beat ++ leBytes 1 r.kind ++ leBytes 1 r.mode ++ leBytes 1 r.last ++ zeros 1
    ++ slice (r.outcome.map (BitVec.ofNat 8)) 0 12 ++ leBytes 4 r.ms

def ledgerData (fn : Nat) (s : State) : List Byte :=
  if fn ≠ 0 then zeros 64
  else
    let l := s.top.starts.take 16
    header64 (leBytes 2 1 ++ leBytes 2 l.length ++ leBytes 4 (getF s F.TOP_START_COUNT_COUNT)
      ++ leBytes 4 (getF s F.TOP_LEDGER_FAILS_FAILS) ++ leBytes 4 (getF s F.TOP_LEFT_OUT_FCH_CH)
      ++ leBytes 1 (getF s F.TOP_LEFT_OUT_MM_CH) ++ leBytes 1 (modeNow s) ++ leBytes 1 (getF s F.TOP_MODE_BASE)
      ++ leBytes 1 (getF s F.TOP_COMPAT_LEVEL)) ++ l.flatMap startBytes

/-! ## The standard pages -/

/-- Error Information: the last failed commands with their LBA (R237; layout of log 10). -/
def errorInfo (s : State) (fn : Nat) : List Byte :=
  ((getFn s fn).errLog).flatMap (fun x =>
    leBytes 8 1 ++ leBytes 2 x.1 ++ leBytes 2 x.2.1 ++ leBytes 2 (2 * x.2.2.1) ++ zeros 2 ++ leBytes 8 x.2.2.2 ++ zeros 40)

/-- Firmware Slot Information: the slot that runs, the one to be activated, and the revisions held (R354). -/
def fwSlotLog (s : State) : List Byte :=
  let rev (k : Nat) : List Byte := match (tget (fun _ => { img := none, failed := false }) s.sec.slots k).img with
    | some i => leBytes 8 i.rev
    | none => zeros 8
  leBytes 1 (getF s F.SEC_STATUS_ACTIVE_SLOT + 16 * s.sec.onReset.getD 0) ++ zeros 7 ++ rev 1 ++ rev 2 ++ zeros 488

/-- The Changed Zone List of a function's tile (R132, R141). -/
def changedOf (s : State) (fn : Nat) : List (Nat × Nat) :=
  s.host.changed.filter (fun p => decide (some (getNs s p.1).tile = tileOfFn s fn))
def changedData (s : State) (fn : Nat) : List Byte :=
  let l := changedOf s fn
  leBytes 2 (min l.length 511) ++ zeros 6 ++ (l.take 511).flatMap (fun p => leBytes 8 (p.2 * zsze s))

/-- FDP Events of a function's tile (R153). -/
def fdpData (s : State) (fn : Nat) : List Byte :=
  let l := s.host.fdpLog.filter (fun e => decide (some e.1 = tileOfFn s fn))
  header64 (leBytes 4 l.length) ++ l.flatMap (fun e =>
    leBytes 1 e.2.1 ++ zeros 1 ++ leBytes 2 e.2.2.1 ++ zeros 12 ++ leBytes 8 e.2.2.2 ++ zeros 40)

/-- Sanitize Status (R484): the standard's progress and state fields. -/
def sanitizeLog (s : State) : List Byte := leBytes 2 (if s.top.sanStat = 2 then 0 else 0xFFFF) ++ leBytes 2 s.top.sanStat ++ zeros 508

/-- The pages that the spec or the state fixes; the others hold what NVMe gives them, which is free here (log 29). -/
def stdLog (s : State) (fn lid len : Nat) : Option (List Byte) :=
  match lid with
  | 0x01 => some (errorInfo s fn)
  | 0x03 => some (fwSlotLog s)
  | 0x23 => some (fdpData s fn)
  | 0x81 => some (sanitizeLog s)
  | 0xBF => some (changedData s fn)
  | 0xC0 => some (lossData false fn ((len - 64) / 32) s)
  | 0xC1 => some (lossData true fn ((len - 64) / 32) s)
  | 0xC2 => some (healthData fn s)
  | 0xC4 => some (extractData fn false 0 (min len 2097152) s)
  | 0xC5 => some (ledgerData fn s)
  | _ =>
    if [0x02, 0x04, 0x05, 0x06, 0x20, 0x21, 0x22].contains lid then
      some ((List.range 4096).map (fun k => Config.logByte s.freeCtr lid k))
    else none

end Sys2Proof.Machine
end

