-- ==== Sys2Proof/Machine/Admin.lean ====
section
/-!
DEFINITION. Machine/Admin.lean: the admin commands of R98 that need no window access and no security core: queues, logs,
Identify, Abort (R116, R117), features, asynchronous events, namespaces (R133 to R135), Format NVM, Sanitize (R103, R484),
Mode Request (R483) and Recorder Control.
-/

namespace Sys2Proof.Machine

/-! ## Queues (R99) -/

/-- I/O queues of a function. -/
def sqCount (s : State) (fn : Nat) : Nat :=
  (s.host.sqs.filter (fun p => decide (p.1 / 8192 = fn) && decide (p.1 % 8192 ≠ 0))).length
def cqCount (s : State) (fn : Nat) : Nat :=
  (s.host.cqs.filter (fun p => decide (p.1 / 8192 = fn) && decide (p.1 % 8192 ≠ 0))).length

/-- A refused creation that hits a limit of the tile raises LIMIT_HIT (R80, R89). -/
def answerLimit (h : CmdHead) (op : Nat) (st : Sts) (t : Nat) (s : State) : State :=
  answer h (.admin op) st 0 [] (limitHit t s)

def createSq (h : CmdHead) (sqid size prio cqid : Nat) (s : State) : State :=
  let no (st : Sts) := answer h (.admin 0x01) st 0 [] s
  match tileOfFn s h.fn with
  | none => no stQid
  | some t =>
    if sqid = 0 ∨ 4096 < sqid ∨ (getSq s h.fn sqid).size ≠ 0 then no stQid
    else if getF s (F.TILE_QUEUES_MAX_QP t) ≤ sqCount s h.fn then answerLimit h 0x01 stQid t s
    else if size < 2 ∨ 65536 < size then no stQsize
    else if cqid = 0 ∨ (getCq s h.fn cqid).size = 0 then no stCqInvalid
    else answer h (.admin 0x01) stOk 0 []
      (setSq h.fn sqid { sq0 with size := size, prio := prio % 4, cq := cqid } s)

def createCq (h : CmdHead) (cqid size vector : Nat) (s : State) : State :=
  let no (st : Sts) := answer h (.admin 0x05) st 0 [] s
  match tileOfFn s h.fn with
  | none => no stQid
  | some t =>
    if cqid = 0 ∨ 4096 < cqid ∨ (getCq s h.fn cqid).size ≠ 0 then no stQid
    else if getF s (F.TILE_QUEUES_MAX_QP t) ≤ cqCount s h.fn then answerLimit h 0x05 stQid t s
    else if size < 2 ∨ 65536 < size then no stQsize
    else if getF s (F.TILE_QUEUES_MAX_VEC t) ≤ vector then answerLimit h 0x05 stVector t s
    else answer h (.admin 0x05) stOk 0 [] (setCq h.fn cqid { cq0 with size := size, vector := vector } s)

/-- A submission queue is deleted with the commands taken from it. -/
def deleteSq (h : CmdHead) (sqid : Nat) (s : State) : State :=
  if sqid = 0 ∨ (getSq s h.fn sqid).size = 0 then answer h (.admin 0x00) stQid 0 [] s
  else
    let s1 := (s.host.cmds.filter (fun p => decide (p.2.h.fn = h.fn) && decide (p.2.h.qid = sqid))).foldl
      (fun t p => resetCmd p.1 t) s
    answer h (.admin 0x00) stOk 0 [] (setSq h.fn sqid sq0 s1)

def deleteCq (h : CmdHead) (cqid : Nat) (s : State) : State :=
  if cqid = 0 ∨ (getCq s h.fn cqid).size = 0 then answer h (.admin 0x04) stQid 0 [] s
  else if s.host.sqs.any (fun p => decide (p.1 / 8192 = h.fn) && decide (p.1 % 8192 ≠ 0) && decide (p.2.cq = cqid)) then
    answer h (.admin 0x04) stQueueDel 0 [] s
  else answer h (.admin 0x04) stOk 0 [] (setCq h.fn cqid cq0 s)

/-! ## Get Log Page (R127) -/

/-- The largest transfer, 2 MiB (R99). -/
def maxXfer : Nat := 2097152

def logCmd (h : CmdHead) (data : State → List Byte) (after : State → State) (s : State) : State :=
  adminCmd h 0x02 false true true true (fun t => answer h (.admin 0x02) stOk 0 (data t) (after t)) s

/-- Clearing RAE re-arms the page's events, and empties the lists that say so. -/
def logRead (fn lid len : Nat) (s : State) : State :=
  match lid with
  | 0xC0 => lossRead false fn ((len - 64) / 32) s
  | 0xC1 => lossRead true fn ((len - 64) / 32) s
  | 0xBF => rearm fn lid { s with host := { s.host with
      changed := s.host.changed.filter (fun p => decide (some (getNs s p.1).tile ≠ tileOfFn s fn)) } }
  | _ => rearm fn lid s

def getLog (h : CmdHead) (lid off len : Nat) (rae : Bool) (s : State) : State :=
  adminCmd h 0x02 false true true true (fun t =>
    if maxXfer < len then answer h (.admin 0x02) stField 0 [] t
    else match stdLog t h.fn lid len with
      | none => answer h (.admin 0x02) stLogPage 0 [] t
      | some l => answer h (.admin 0x02) stOk 0 (slice l off len) (tick (if rae then t else logRead h.fn lid len t))) s

/-! ## Identify (R97 to R100, R110, R111, R156) -/

/-- A data structure of 4,096 bytes: the fields that the spec gives, as offset, length and value; the rest is NVMe's. -/
def idData (cns : Nat) (fields : List (Nat × Nat × Nat)) : List Byte :=
  (List.range 4096).map (fun k =>
    match fields.find? (fun f => decide (f.1 ≤ k) && decide (k < f.1 + f.2.1)) with
    | some f => BitVec.ofNat 8 (f.2.2 / 256 ^ (k - f.1))
    | none => Config.idByte cns k)

/-- Data bytes of a course of full width (R156). -/
def courseBytes (s : State) : Nat := zcapOf s (width s) * 4096

def tileNs (s : State) (t : Nat) : List (Nat × Ns) := s.host.ns.filter (fun p => decide (p.2.tile = t))

/-- Courses that a tile's namespaces reserve, and those of deleted ones that still wait for their wave (R134). -/
def reservedOf (s : State) (t : Nat) : Nat := (tileNs s t).foldl (fun n p => n + p.2.reserved) 0
def leaving (s : State) (f : Nat → Bool) : Nat :=
  (s.map.courses.filter (fun p => f p.2.tile && decide (p.2.st = .toErase) && p.2.laying)).length

def tnvmCap (s : State) (t : Nat) : Nat :=
  if modeNow s = modeStandalone then (getNs s 1).nsze * 4096
  else min (getF s (F.TILE_COURSES_MAX t)) s.trowel.userCourses * courseBytes s
def unvmCap (s : State) (t : Nat) : Nat :=
  if modeNow s = modeStandalone then 0
  else tnvmCap s t - (reservedOf s t + leaving s (fun k => decide (k = t))) * courseBytes s

/-- NUSE: blocks of entries in STATE 01 or 11 (R156). -/
def nuse (s : State) (n : Ns) : Nat :=
  (s.map.lines.filter (fun p => decide (n.base ≤ p.1) && decide (p.1 < n.base + nsLines s n))).foldl (fun k p =>
    k + 16 * ((List.range 12).filter (fun i =>
      decide (entState (getEnt s p.1 i) = stMapped) || decide (entState (getEnt s p.1 i) = stReloc))).length) 0

/-- The controller's fields (offsets of NVMe, log 10): the limits of R99, the tile's capacity, the atomic write units. -/
def idController (s : State) (fn : Nat) : List Byte :=
  let cap := match tileOfFn s fn with
    | some t => (tnvmCap s t, unvmCap s t)
    | none => (0, 0)
  let aw := if isSet s (F.HOST_ATOMIC_ACTIVE 0) then 31 else 0
  idData 1 [(77, 1, 9), (80, 4, 0x00020100), (84, 4, 20000000), (88, 4, 10000), (258, 1, 7), (259, 1, 7), (260, 1, 0x14),
    (262, 1, 63), (263, 1, if isPF0 s fn then 4 else 0), (265, 1, if isPF0 s fn then 1 else 0), (270, 2, 1), (280, 16, cap.1),
    (296, 16, cap.2), (516, 4, 1024), (525, 1, 7), (526, 2, aw), (528, 2, aw)]

/-- The namespace's fields. -/
def idNs (s : State) (n : Ns) : List Byte :=
  idData 0 [(0, 8, n.nsze), (8, 8, n.nsze), (16, 8, nuse s n), (26, 1, n.lbaf), (30, 1, 0), (42, 2, 0), (44, 2, 0),
    (102, 2, n.tile + 1), (128, 4, 12 * 2 ^ 16), (132, 4, 12 * 2 ^ 16 + 8), (136, 4, 12 * 2 ^ 16 + 16)]

/-- The zoned namespace's fields: a variable zone capacity (R132), the zone limits of the tile, the zone size. -/
def idZns (s : State) (n : Ns) : List Byte :=
  idData 5 [(0, 2, 1), (4, 4, activeMax s n.tile - 1), (8, 4, openMax s n.tile - 1), (2816, 8, zsze s), (2824, 1, 1),
    (2832, 8, zsze s), (2840, 1, 1), (2848, 8, zsze s), (2856, 1, 1)]

/-- A namespace list: NSIDs above the one named. -/
def nsList (s : State) (fn above : Nat) (all : Bool) : List Byte :=
  match tileOfFn s fn with
  | none => zeros 4096
  | some t => slice (((tileNs s t).filter (fun p => (all || p.2.attached) && decide (above < p.1))).flatMap
      (fun p => leBytes 4 p.1)) 0 4096

/-- Identify by CNS; none for a value that names no structure. -/
def idOf (s : State) (h : CmdHead) (cns : Nat) : Option (Sts × List Byte) :=
  let own := nsOk s h
  let n := getNs s h.nsid
  match cns with
  | 0x00 => some (if own then (stOk, idNs s n) else if h.nsid = 0 ∨ 1024 < h.nsid then (stNs, []) else (stOk, zeros 4096))
  | 0x01 => some (stOk, idController s h.fn)
  | 0x02 => some (stOk, nsList s h.fn h.nsid false)
  | 0x03 => some (if own then (stOk, idData 3 []) else (stNs, []))
  | 0x05 => some (if own then (stOk, if n.zoned then idZns s n else idData 6 []) else (stNs, []))
  | 0x06 => some (stOk, idData 6 [(1, 1, 9)])
  | 0x07 => some (stOk, nsList s h.fn h.nsid false)
  | 0x08 => some (if own then (stOk, idData 8 []) else (stNs, []))
  | 0x10 => some (stOk, nsList s h.fn h.nsid true)
  | 0x11 => some (if nsExists s h.nsid && decide (some n.tile = tileOfFn s h.fn) then (stOk, idNs s n) else (stNs, []))
  | 0x1C => some (stOk, idData 0x1C [])
  | _ => none

def identifyCmd (h : CmdHead) (cns : Nat) (s : State) : State :=
  adminCmd h 0x06 false true true true (fun t =>
    match idOf t h cns with
    | some (st, d) => answer h (.admin 0x06) st 0 d t
    | none => answer h (.admin 0x06) stField 0 [] t) s

/-! ## Abort (R116, R117) -/

/-- A command can still be aborted. -/
def abortable (s : State) (c : Cmd) : Bool :=
  !c.planned && (match c.kind with
    | .admin _ => false
    | .aer => false
    | .write => if (getNs s c.h.nsid).zoned then decide (c.slots = []) && decide (c.st = .fetched)
        else decide (c.st ≠ .working) && decide (c.st ≠ .ready)
    | .writeZeroes => if (getNs s c.h.nsid).zoned then decide (c.slots = []) && decide (c.st = .fetched)
        else decide (c.st ≠ .working) && decide (c.st ≠ .ready)
    | .append => decide (c.st = .fetched)
    | .read => decide (c.st ≠ .working) && decide (c.st ≠ .ready)
    | .audit => decide (c.left ≠ [])
    | _ => decide (c.st ≠ .ready))

/-- The command named: the oldest of the function with the queue and identifier. -/
def findCmd (s : State) (fn sqid cid : Nat) : Option Nat :=
  (s.host.cmds.find? (fun p => decide (p.2.h.fn = fn) && decide (p.2.h.qid = sqid) && decide (p.2.h.cid = cid))).map (·.1)

/-- An entry that would launch reads of one command only. -/
def onlyOf (s : State) (i beat ch : Nat) (p : PEnt) : Bool :=
  let l := waitingAt s beat ch p.e
  decide (p.e.op = 1 ∨ p.e.op = 2) && !p.retired && !eYardValid p.e && decide (l ≠ [])
    && l.all (fun j => decide ((getRd s j).cmd = i))

/-- Planned die work of a command is dropped from the plans of the present beat and the two that follow, and its charge is
given back (R73, R117). -/
def dropPlanned (i : Nat) (s : State) : State :=
  (List.range 32).foldl (fun t ch => (List.range 3).foldl (fun x d =>
    let beat := beatNow s + d
    let b := getBuf x (.fch ch) beat
    if b.valid && decide (b.target = beat % 2 ^ 32) && b.ents.any (onlyOf s i beat ch) then
      let x1 := (b.ents.filter (onlyOf s i beat ch)).foldl (fun y p => refund p y) x
      setBuf (.fch ch) beat { b with ents := b.ents.map (fun p =>
        if onlyOf s i beat ch p then { p with retired := true } else p) } x1
    else x) t) s

/-- The target of an Abort ends. -/
def abortNow (i : Nat) (s0 : State) : State :=
  let s := dropPlanned i s0
  let c := getCmd s i
  let s1 := if isWrite c.kind ∧ c.st = .started then cutWrite i false s else dropReads i (unhold i s)
  let s2 := { s1 with host := { s1.host with zoneActs := s1.host.zoneActs.filter (fun a => a.1 != i) } }
  failCmd i stAborted (setCmd i { getCmd s2 i with left := [], waits := [] } s2)

def abortCmd (h : CmdHead) (sqid cid : Nat) (s : State) : State :=
  adminCmd h 0x08 false true false true (fun t =>
    let p := portOf t h.fn
    match findCmd t h.fn sqid cid with
    | some i =>
      if abortable t (getCmd t i) then
        answer h (.admin 0x08) stOk 0 [] (addF (F.HOST_ABORTED_COUNT p) 1 (abortNow i t))
      else answer h (.admin 0x08) stOk 1 [] (addF (F.HOST_NOT_ABORTED_COUNT p) 1 t)
    | none => answer h (.admin 0x08) stOk 1 [] (addF (F.HOST_NOT_ABORTED_COUNT p) 1 t)) s

/-! ## Features -/

def setFeat (fn fid v : Nat) (s : State) : State := setFn fn { getFn s fn with feat := tset zeroD fid v (getFn s fn).feat } s

/-- Set Features as an admin command. -/
def featCmd (h : CmdHead) (f : State → Sts × Nat × State) (s : State) : State :=
  adminCmd h 0x09 false false true true (fun t => let (st, d, t1) := f t; answer h (.admin 0x09) st d [] t1) s

/-- Power Management (R23, R417): only a PF0 function offers states other than PS0. -/
def featPs (fn ps : Nat) (s : State) : Sts × Nat × State :=
  if 4 < ps ∨ (!isPF0 s fn ∧ ps ≠ 0) ∨ psAllowed s ps = 2 then (stField, 0, s)
  else if !isPF0 s fn then (stOk, 0, s)
  else (stOk, 0, selectPs fn ps true s)

/-- Arbitration: burst, and the weights of the three classes (R104). -/
def featArb (fn burst lpw mpw hpw : Nat) (s : State) : Sts × Nat × State :=
  (stOk, 0, setFeat fn 0x01 (burst % 8 + lpw % 256 * 2 ^ 8 + mpw % 256 * 2 ^ 16 + hpw % 256 * 2 ^ 24) s)

/-- Volatile Write Cache: WCE = 0 is write-through (R119). -/
def featVwc (fn : Nat) (wce : Bool) (s : State) : Sts × Nat × State := (stOk, 0, setFn fn { getFn s fn with wce := wce } s)

/-- Flexible Data Placement, while the tile holds no namespaces (R149). -/
def featFdp (fn : Nat) (enable : Bool) (s : State) : Sts × Nat × State :=
  match tileOfFn s fn with
  | none => (stField, 0, s)
  | some t =>
    if tileNs s t ≠ [] then (stSequence, 0, s)
    else (stOk, 0, { s with host := { s.host with
      fdpTiles := if enable then insertNat t s.host.fdpTiles else removeNat t s.host.fdpTiles } })

/-- FDP Events: which kinds log 0x23 records (R153). -/
def featFdpEvents (fn : Nat) (enable : Bool) (kinds : List Nat) (s : State) : Sts × Nat × State :=
  match tileOfFn s fn with
  | none => (stField, 0, s)
  | some t =>
    if !s.host.fdpTiles.contains t then (stField, 0, s)
    else (stOk, 0, { s with host := { s.host with
      fdpEvents := tset zeroD t (kinds.foldl (fun m k => putBits m k 1 (if enable then 1 else 0)) (tget zeroD s.host.fdpEvents t))
        s.host.fdpEvents } })

/-- Timestamp: on a PF0 function it anchors the recorder's time (R95, R463). -/
def featTime (fn ms : Nat) (s : State) : Sts × Nat × State :=
  let s1 := { s with host := { s.host with timestamp := some (ms, beatNow s) } }
  if isPF0 s fn then
    let s2 := if lockSrc s = 0 then { s1 with beat := { s1.beat with hostTime := some (ms * 1000000, s.beat.count) } } else s1
    (stOk, 0, anchor 5 s2)
  else (stOk, 0, setFeat fn 0x0E ms s)

/-- The other features: those that NVMe defines for the controller are kept and read back (log 29). -/
def featOther (fn fid v : Nat) (s : State) : Sts × Nat × State :=
  match fid with
  | 0x01 => featArb fn (v % 8) (bitsOf v 8 8) (bitsOf v 16 8) (bitsOf v 24 8) s
  | 0x02 => featPs fn (v % 32) s
  | 0x06 => featVwc fn (decide (v % 2 = 1)) s
  | 0x07 =>
    match tileOfFn s fn with
    | none => (stField, 0, s)
    | some t =>
      let most := getF s (F.TILE_QUEUES_MAX_QP t) - 1
      let r := min (v % 65536) most + 65536 * min (v / 65536 % 65536) most
      (stOk, r, setFeat fn 0x07 r s)
  | 0x1D => featFdp fn (decide (v % 2 = 1)) s
  | _ => if [0x04, 0x05, 0x08, 0x09, 0x0A, 0x0B, 0x0C].contains fid then (stOk, 0, setFeat fn fid v s) else (stField, 0, s)

def getFeat (h : CmdHead) (fid : Nat) (s : State) : State :=
  adminCmd h 0x0A false true true true (fun t =>
    let f := getFn t h.fn
    let ok (v : Nat) := answer h (.admin 0x0A) stOk v [] t
    match fid with
    | 0x02 => ok f.ps
    | 0x06 => ok (if f.wce then 1 else 0)
    | 0x0E =>
      (match t.host.timestamp with
       | some (ms, b) => answer h (.admin 0x0A) stOk 0 (leBytes 6 (ms + (beatNow t - b) * 16 / 1000) ++ zeros 2) t
       | none => answer h (.admin 0x0A) stOk 0 (zeros 8) t)
    | 0x1D =>
      (match tileOfFn t h.fn with
       | some k => ok (if t.host.fdpTiles.contains k then 1 else 0)
       | none => answer h (.admin 0x0A) stField 0 [] t)
    | 0x1E =>
      (match tileOfFn t h.fn with
       | some k => ok (tget zeroD t.host.fdpEvents k % 2 ^ 32)
       | none => answer h (.admin 0x0A) stField 0 [] t)
    | _ => if [0x01, 0x04, 0x05, 0x07, 0x08, 0x09, 0x0A, 0x0B, 0x0C].contains fid then ok (tget zeroD f.feat fid)
      else answer h (.admin 0x0A) stField 0 [] t) s

/-! ## Asynchronous Event Request (R99, R126) -/

def aerCmd (h : CmdHead) (s : State) : State :=
  adminCmd h 0x0C false true false true (fun t =>
    let f := getFn t h.fn
    match f.aens with
    | e :: rest =>
      answer h .aer stOk (e.1 + 256 * e.2.1 + 65536 * e.2.2) []
        (setFn h.fn { f with aens := rest, masked := e :: f.masked } t)
    | [] =>
      if 8 ≤ f.aers.length then answer h (.admin 0x0C) stAerLimit 0 [] t
      else
        let (i, t1) := allocCmd (cmdOf h .aer t) t
        setFn h.fn { getFn t1 h.fn with aers := (getFn t1 h.fn).aers ++ [i] } t1) s

/-! ## Namespaces -/

/-- Namespace Management as its mode allows it (R133). -/
def nsAdmin (h : CmdHead) (op : Nat) (evac : Bool) (f : Nat → State → State) (s : State) : State :=
  adminCmd h op false false false evac (fun t =>
    if modeNow t = modeStandalone ∨ (modeNow t = modeDegraded ∧ getF t F.TOP_MODE_BASE = modeStandalone) then
      answer h (.admin op) stSequence 0 [] t
    else match tileOfFn t h.fn with
      | none => answer h (.admin op) stField 0 [] t
      | some k => f k t) s

/-- First line of a gap among the namespaces' lines; the lowest one that is wide enough (log 17). -/
def freeLines (s : State) (n : Nat) : Nat :=
  let spans := s.host.ns.map (fun p => (p.2.base, nsLines s p.2))
  let fits (b : Nat) : Bool := spans.all (fun x => decide (b + n ≤ x.1) || decide (x.1 + x.2 ≤ b))
  let cands := (0 :: spans.map (fun x => x.1 + x.2)).filter fits
  cands.foldl min (cands.headD 0)

/-- A conventional or zoned namespace of a tile, with its reservation (R134). -/
def newNs (s : State) (t : Nat) (zoned : Bool) (nsze lbaf : Nat) (handles : List Nat) : Ns :=
  let x : Ns := { ns0 with tile := t, zoned := zoned, nsze := nsze, lbaf := lbaf, handles := handles }
  let need := if zoned then nsze / zsze s else (convCourses s x).1 + (convCourses s x).2
  { x with base := freeLines s (nsLines s x), reserved := need }

def nsCreate (h : CmdHead) (csi nsze lbaf : Nat) (handles : List Nat) (s : State) : State :=
  nsAdmin h 0x0D false (fun t s0 =>
    let no (st : Sts) := answer h (.admin 0x0D) st 0 [] s0
    let zoned := decide (csi = 2)
    let fdp := s0.host.fdpTiles.contains t
    if (csi ≠ 0 ∧ csi ≠ 2) ∨ nsze = 0 ∨ (zoned && decide (nsze % zsze s0 ≠ 0)) then no stField
    else if 2 < lbaf then no stFormat
    else if handles ≠ [] ∧ (!fdp ∨ zoned ∨ handles.any (fun k => decide (256 ≤ k))) then no stField
    else if getF s0 (F.TILE_NS_MAX_PH t) < handles.length then answerLimit h 0x0D stField t s0
    else if getF s0 (F.TILE_NS_MAX_NS t) ≤ (tileNs s0 t).length then answerLimit h 0x0D stNsUnavailable t s0
    else match ((List.range 1024).map (· + 1)).find? (fun n => !nsExists s0 n) with
      | none => no stNsUnavailable
      | some n =>
        let x := newNs s0 t zoned nsze lbaf (if fdp && decide (handles = []) && !zoned then [0] else handles)
        if getF s0 (F.TILE_COURSES_MAX t) < reservedOf s0 t + leaving s0 (fun k => decide (k = t)) + x.reserved then
          answerLimit h 0x0D stCapacity t s0
        else if s0.trowel.userCourses < reservedAll s0 + leaving s0 (fun _ => true) + x.reserved then no stCapacity
        else answer h (.admin 0x0D) stOk n [] (setNs n x s0)) s

/-- The namespaces that a command names: one of the tile's, or with NSID 0xFFFF_FFFF every one. -/
def nsNamed (s : State) (h : CmdHead) (t : Nat) : List Nat :=
  if h.nsid = allNs then (tileNs s t).map (·.1)
  else if nsExists s h.nsid && decide ((getNs s h.nsid).tile = t) then [h.nsid] else []

def nsDelete (h : CmdHead) (s : State) : State :=
  nsAdmin h 0x0D true (fun t s0 =>
    let l := nsNamed s0 h t
    if l = [] then answer h (.admin 0x0D) stNs 0 [] s0
    else answer h (.admin 0x0D) stOk 0 [] (l.foldl (fun x n => deleteNs n x) s0)) s

def nsAttach (h : CmdHead) (attach : Bool) (s : State) : State :=
  nsAdmin h 0x15 true (fun t s0 =>
    if !(nsExists s0 h.nsid && decide ((getNs s0 h.nsid).tile = t)) then answer h (.admin 0x15) stNs 0 [] s0
    else if (getNs s0 h.nsid).attached = attach then
      answer h (.admin 0x15) (if attach then stNsAttached else stNsNotAttached) 0 [] s0
    else answer h (.admin 0x15) stOk 0 [] (setNs h.nsid { getNs s0 h.nsid with attached := attach } s0)) s

/-- Format NVM (R100): one namespace takes another format and loses its data. -/
def formatCmd (h : CmdHead) (lbaf ses : Nat) (s : State) : State :=
  adminCmd h 0x80 false false false false (fun t =>
    let x := getNs t h.nsid
    if !(nsExists t h.nsid && decide (some x.tile = tileOfFn t h.fn)) then answer h (.admin 0x80) stNs 0 [] t
    else if 1 < ses then answer h (.admin 0x80) stField 0 [] t
    else if 2 < lbaf then answer h (.admin 0x80) stFormat 0 [] t
    else answer h (.admin 0x80) stOk 0 [] (setNs h.nsid { x with lbaf := lbaf } (dropWalls x.tile (wipeNs h.nsid t)))) s

/-! ## Sanitize (R103, R484) -/

/-- Every course that holds anything is to be erased. -/
def eraseAll (s : State) : State :=
  (heldBy s 0 anyUse).foldl (fun t c => releaseCourse c t) (s.host.ns.foldl (fun t p => wipeNs p.1 t) s)

/-- Block Erase, NVMe's action 2; after a failure only a further Sanitize is accepted. -/
def sanitizeCmd (h : CmdHead) (act : Nat) (s : State) : State :=
  adminCmd h 0x84 true (decide (s.top.sanStat = 3)) false false (fun t =>
    if h.fn ≠ 0 then answer h (.admin 0x84) stSequence 0 [] t
    else if act ≠ 2 then answer h (.admin 0x84) stField 0 [] t
    else if (List.range 63).any (fun k => decide (tileState t (k + 1) ≠ tFree)) then answer h (.admin 0x84) stSequence 0 [] t
    else
      let t1 := setCause F.TOP_MODE_CAUSE_SANITIZING (eraseAll t)
      answer h (.admin 0x84) stOk 0 [] { t1 with top := { t1.top with sanStat := 2 } }) s

/-- The STANDALONE namespace: NSID 1 of tile 0, conventional, LBAF 0, attached. -/
def standaloneNs (s : State) : State :=
  let x := newNs s 0 false s.top.standalone 0 []
  setNs 1 { x with attached := true } s

/-- No course that is not given up still holds or waits for anything. -/
def allErased (s : State) : Bool :=
  s.map.courses.all (fun p => decide (roleOf p.1 ≠ 0) || decide (p.2.st = .erased) || decide (p.2.st = .givenUp))

/-- The Sanitize completes once every course is erased; without the courses that the STANDALONE namespace needs it
fails. -/
def sanitizeEnd (reached : Bool) (s : State) : State :=
  if !isSet s F.TOP_MODE_CAUSE_SANITIZING ∨ s.top.sanStat ≠ 2 ∨ !allErased s ∨ !running s then s
  else if !reached then { s with top := { s.top with sanStat := 3 } }
  else
    let s1 := (tileNs s 0).foldl (fun t p => deleteNs p.1 t) s
    let s2 := setF F.TOP_MODE_BASE modeStandalone (standaloneNs (invalidateAll (fun _ => true) s1))
    setF F.TOP_MODE_CAUSE_SANITIZING 0 { s2 with top := { s2.top with sanStat := 1 } }

/-! ## Mode Request (R483) -/

/-- What a Mode Request does; none where it is refused. -/
def modeOutcome (s : State) (m : Nat) : Option State :=
  let now := modeNow s
  let base := getF s F.TOP_MODE_BASE
  if m = now then some s
  else if now = modeSanitize ∨ now = modeRecovery then none
  else if m = modeZoned ∧ (now = modeStandalone ∨ (now = modeDegraded ∧ base = modeStandalone)) then
    some (setF F.TOP_MODE_BASE modeZoned s)
  else if m = modeEvacuate ∧ now ≠ modeEvacuate then some (setCause F.TOP_MODE_CAUSE_EVAC_HOST s)
  else if now = modeEvacuate ∧ m = base ∧ isSet s F.TOP_MODE_CAUSE_EVAC_HOST ∧ !isSet s F.TOP_MODE_CAUSE_EVAC_SPARES
      ∧ !isSet s F.TOP_MODE_CAUSE_EVAC_WSEQ then
    some (setF F.TOP_MODE_CAUSE_EVAC_HOST 0 s)
  else none

def modeRefused (s : State) : State := happen baseTop 6 s

def modeCmd (h : CmdHead) (m : Nat) (s : State) : State :=
  adminCmd h 0xC0 true false true true (fun t =>
    match modeOutcome t m with
    | some t1 => answer h (.admin 0xC0) stOk 0 [] t1
    | none => answer h (.admin 0xC0) stModeRefused 0 [] (modeRefused t)) s

/-! ## Recorder Control (R461) -/

/-- A freeze or thaw request by REC_CTRL or by vendor command 0xC4. -/
def recControl (req : Option CmdHead) (v : W32) (f : State → State) (s : State) : State :=
  match req with
  | none => guarded .onChip Reg.REC_CTRL v f s
  | some h => adminCmd h 0xC4 true false true true (fun t => answer h (.admin 0xC4) stOk 0 [] (f t)) s

/-! ## The rest -/

/-- Commands that end with Success and move what NVMe or SPDM carries in their data. -/
def plainAdmin (h : CmdHead) (op : Nat) (s : State) : State :=
  adminCmd h op false false false true (fun t => answer h (.admin op) stOk 0 [] t) s

/-- Device Self-test: the short and extended tests and their abort (log 29). -/
def selfTest (h : CmdHead) (stc : Nat) (s : State) : State :=
  adminCmd h 0x14 false false false true (fun t =>
    answer h (.admin 0x14) (if [1, 2, 0xF].contains stc then stOk else stField) 0 [] t) s

def execUnsupportedOpcode (h : CmdHead) (opcode : Nat) (s : State) : Res :=
  .next (adminCmd h opcode false true true true (fun t => answer h (.admin opcode) stOpcode 0 [] t) s)
def execCreateIoSq (h : CmdHead) (sqid size prio cqid : Nat) (s : State) : Res :=
  .next (adminCmd h 0x01 false false false true (createSq h sqid size prio cqid) s)
def execDeleteIoSq (h : CmdHead) (sqid : Nat) (s : State) : Res :=
  .next (adminCmd h 0x00 false false false true (deleteSq h sqid) s)
def execCreateIoCq (h : CmdHead) (cqid size vector : Nat) (s : State) : Res :=
  .next (adminCmd h 0x05 false false false true (createCq h cqid size vector) s)
def execDeleteIoCq (h : CmdHead) (cqid : Nat) (s : State) : Res :=
  .next (adminCmd h 0x04 false false false true (deleteCq h cqid) s)
def execGetLogPage (h : CmdHead) (lid offset len : Nat) (rae : Bool) (s : State) : Res := .next (getLog h lid offset len rae s)
def execGetLogPageC0 (h : CmdHead) (entries : Nat) (rae : Bool) (s : State) : Res :=
  .next (logCmd h (lossData false h.fn entries) (fun t => if rae then t else lossRead false h.fn entries t) s)
def execGetLogPageC1 (h : CmdHead) (entries : Nat) (rae : Bool) (s : State) : Res :=
  .next (logCmd h (lossData true h.fn entries) (fun t => if rae then t else lossRead true h.fn entries t) s)
def execGetLogPageC2 (h : CmdHead) (rae : Bool) (s : State) : Res :=
  .next (logCmd h (healthData h.fn) (fun t => if rae then t else rearm h.fn 0xC2 t) s)
def execGetLogPageC3 (h : CmdHead) (first entries : Nat) (rae : Bool) (s : State) : Res :=
  .next (logCmd h (sealData h.fn first entries) (fun t => if rae then t else rearm h.fn 0xC3 t) s)
def execGetLogPageC4 (h : CmdHead) (offsetType : Bool) (offset len : Nat) (s : State) : Res :=
  .next (adminCmd h 0x02 false true true true (fun t =>
    if maxXfer < len then answer h (.admin 0x02) stField 0 [] t
    else answer h (.admin 0x02) stOk 0 (extractData h.fn offsetType offset len t) t) s)
def execGetLogPageC5 (h : CmdHead) (s : State) : Res := .next (logCmd h (ledgerData h.fn) id s)
def execIdentify (h : CmdHead) (cns : Nat) (s : State) : Res := .next (identifyCmd h cns s)
def execAbort (h : CmdHead) (sqid cid : Nat) (s : State) : Res := .next (abortCmd h sqid cid s)
def execSetFeatures (h : CmdHead) (fid v : Nat) (s : State) : Res := .next (featCmd h (featOther h.fn fid v) s)
def execSetFeaturesPowerManagement (h : CmdHead) (ps : Nat) (s : State) : Res := .next (featCmd h (featPs h.fn ps) s)
def execSetFeaturesArbitration (h : CmdHead) (burst lpw mpw hpw : Nat) (s : State) : Res :=
  .next (featCmd h (featArb h.fn burst lpw mpw hpw) s)
def execSetFeaturesVwc (h : CmdHead) (wce : Bool) (s : State) : Res := .next (featCmd h (featVwc h.fn wce) s)
def execSetFeaturesFdp (h : CmdHead) (enable : Bool) (s : State) : Res := .next (featCmd h (featFdp h.fn enable) s)
def execSetFeaturesFdpEvents (h : CmdHead) (enable : Bool) (kinds : List Nat) (s : State) : Res :=
  .next (featCmd h (featFdpEvents h.fn enable kinds) s)
def execSetFeaturesTimestamp (h : CmdHead) (ms : Nat) (s : State) : Res := .next (featCmd h (featTime h.fn ms) s)
def execGetFeatures (h : CmdHead) (fid : Nat) (s : State) : Res := .next (getFeat h fid s)
def execAsyncEventRequest (h : CmdHead) (s : State) : Res := .next (aerCmd h s)
def execNamespaceCreate (h : CmdHead) (csi nsze lbaf : Nat) (handles : List Nat) (s : State) : Res :=
  .next (nsCreate h csi nsze lbaf handles s)
def execNamespaceDelete (h : CmdHead) (s : State) : Res := .next (nsDelete h s)
def execNamespaceAttachment (h : CmdHead) (attach : Bool) (s : State) : Res := .next (nsAttach h attach s)
def execFormatNvm (h : CmdHead) (lbaf ses : Nat) (s : State) : Res := .next (formatCmd h lbaf ses s)
def execDeviceSelfTest (h : CmdHead) (stc : Nat) (s : State) : Res := .next (selfTest h stc s)
def execSecuritySend (h : CmdHead) (s : State) : Res := .next (plainAdmin h 0x81 s)
def execSecurityReceive (h : CmdHead) (s : State) : Res := .next (plainAdmin h 0x82 s)
def execDirectiveSend (h : CmdHead) (s : State) : Res := .next (plainAdmin h 0x19 s)
def execDirectiveReceive (h : CmdHead) (s : State) : Res := .next (plainAdmin h 0x1A s)
def execSanitize (h : CmdHead) (act : Nat) (s : State) : Res := .next (sanitizeCmd h act s)
def execSanitizeDone (reachedStandalone : Bool) (s : State) : Res := .next (sanitizeEnd reachedStandalone s)
def execModeRequest (h : CmdHead) (mode : Nat) (s : State) : Res := .next (modeCmd h mode s)
def execRecorderFreeze (req : Option CmdHead) (path : Nat) (s : State) : Res :=
  .next (recControl req 1 (startFreeze path) s)
def execRecorderThaw (req : Option CmdHead) (_path : Nat) (s : State) : Res :=
  .next (recControl req 2 (thaw 0) s)

end Sys2Proof.Machine
end

