-- ==== Sys2Proof/Machine/Spdm.lean ====
section
/-!
DEFINITION. Machine/Spdm.lean: the SPDM Responder (R346 to R353): messages, signatures of both algorithms, measurements,
sessions, the claim of a tile, chunks.  The messages' codes and fields are DSP0274's (log 28).
-/

namespace Sys2Proof.Machine

/-! ## Messages -/

/-- A connection reaches the Responder: its function or port is up, or the sideband is served; never in Off or once the
part has halted (R346, R363). -/
def connUp (s : State) (c : Conn) : Bool :=
  !s.top.off && !s.top.halted && !s.top.starting && s.top.sealFrame.isNone && decide (modeNow s ≠ 15) &&
  match c with
  | .storage fn => (getFn s fn).rdy && isSet s (F.HOST_LINK_STATUS_UP (portOf s fn))
  | .doe p => decide (p < 2) && isSet s (F.HOST_LINK_STATUS_UP p)
  | .mctp => isSet s F.SEC_SIDEBAND_ENABLE && decide (getF s F.SEC_STATUS_BOOT_SRC ≠ 5)

/-- A message wakes the drive (R418); in Sleep and Deep sleep it is not taken until the drive has woken (R363). -/
def heard (up : Bool) (f : State → State) (s : State) : State :=
  if !up then s else if asleep s then wakeDrive s else f (wakeDrive s)

/-- The content of one chunk: DataTransferSize less the header of a CHUNK_RESPONSE (R346, log 28). -/
def chunkSize : Nat := 4080

/-- A response: at once, or in chunks where it is larger than DataTransferSize. -/
def respond (c : Conn) (code : Nat) (data : List Byte) (s : State) : State :=
  if data.length ≤ chunkSize then spdmSay c code data s
  else spdmErr c errLarge (setConn c { getConn s c with large := some (0, data) } s)

/-- A request after the negotiation has come as far as it needs: 1 version, 2 capabilities, 3 algorithms. -/
def spdmReq (c : Conn) (need : Nat) (f : State → State) (s : State) : State :=
  heard (connUp s c) (fun t =>
    let t1 := dropSig c t
    if (getConn t1 c).neg < need then spdmErr c errUnexpected t1 else f t1) s

/-- A request inside a session. -/
def inSess (c : Conn) (f : State → State) (s : State) : State :=
  spdmReq c 3 (fun t => if (getConn t c).sessions = 0 then spdmErr c errSession t else f t) s

/-- A response that ends in an RSA signature over some bytes; the SLH-DSA signature over the same is held (R347). -/
def signed (c : Conn) (code : Nat) (data : List Byte) (s : State) : State :=
  let s1 := setConn c { getConn s c with sig := some (Config.sigSlh s.freeCtr data) } s
  respond c code (data ++ leBytes 384 (Config.sigRsa s.freeCtr data).toNat) (tick s1)

/-! ## Negotiation (R346) -/

/-- GET_VERSION: 1.2 and 1.3; negotiation begins anew. -/
def getVersion (c : Conn) (s : State) : State :=
  spdmReq c 0 (fun t => spdmSay c 0x04 (leBytes 1 2 ++ leBytes 2 0x1200 ++ leBytes 2 0x1300)
    (setConn c { getConn t c with neg := 1, exch := none, chunks := 0 } t)) s

/-- CERT, CHAL, MEAS with signature, ENCRYPT, MAC, MUT_AUTH, KEY_EX, KEY_UPD, CHUNK. -/
def capFlags : Nat := 0x2 + 0x4 + 0x10 + 0x40 + 0x80 + 0x100 + 0x200 + 0x4000 + 0x20000

def getCapabilities (c : Conn) (s : State) : State :=
  spdmReq c 1 (fun t => spdmSay c 0x61 (leBytes 4 capFlags ++ leBytes 4 4096 ++ leBytes 4 65536)
    (setConn c { getConn t c with neg := 2 } t)) s

/-- MeasurementHashAlgo SHA-384, BaseAsymAlgo and ReqBaseAsymAlg RSAPSS_3072, BaseHashAlgo SHA-384, DHE secp384r1, AEAD
AES-256-GCM, KeySchedule SPDM. -/
def negotiate (c : Conn) (s : State) : State :=
  spdmReq c 2 (fun t => spdmSay c 0x63
    (leBytes 4 0x4 ++ leBytes 4 0x8 ++ leBytes 4 0x2 ++ leBytes 2 0x10 ++ leBytes 2 0x2 ++ leBytes 2 0x8 ++ leBytes 2 0x1)
    (setConn c { getConn t c with neg := 3 } t)) s

/-! ## Measurements (R349) -/

/-- The tile of a connection's session (R348). -/
def sessTile (s : State) (c : Conn) : Option Nat :=
  match c with
  | .storage fn => tileOfFn s fn
  | _ => none

/-- What measurements 3 to 5 digest. -/
def measureWords (s : State) (i : Nat) : List Byte :=
  match i with
  | 3 => leBytes 1 s.sec.running.svn ++ leBytes 1 (getF s F.SEC_SVN_FUSE_COUNT)
  | 4 => leBytes 1 s.sec.scopes ++ leBytes 1 (getF s F.SEC_STATUS_DEBUG_NEVER) ++ leBytes 1 s.sec.running.root
      ++ leBytes 1 (getF s F.SEC_SVN_ROOT_REVOKED)
  | _ => leBytes 1 (getF s F.TOP_COMPAT_LEVEL) ++ leBytes 1 (modeNow s)

/-- A matcher entry's bytes in the order of R161. -/
def sentBytes (e : SEnt) : List Byte :=
  leBytes 12 e.key.toNat ++ leBytes 12 e.care.toNat ++ leBytes 4 e.action.toNat ++ leBytes 1 e.prio
    ++ leBytes 1 ((if e.valid then 1 else 0) + (if e.shadowed then 2 else 0)) ++ zeros 2

/-- Measurement 6 of a tile session: the tile's registers in effect, and the entries of its matcher range. -/
def tileWords (s : State) (t : Nat) : List Byte :=
  (List.range 11).flatMap (fun k => leBytes 4 (getR s (Reg.TILE_BIND t + 4 * k)))
    ++ ((List.range 4096).filter (inSortRange s t)).flatMap (fun i => sentBytes (getE s i))

/-- The digest of a measurement block. -/
def measured (s : State) (c : Conn) (i : Nat) : List Byte :=
  match i with
  | 1 => digBytes Config.romDigest
  | 2 => leBytes 48 s.sec.running.digest
  | 6 =>
    (match sessTile s c with
     | some t => if (getConn s c).sessions = 0 then zeros 48 else digBytes (Config.sha384 (tileWords s t))
     | none => zeros 48)
  | _ => digBytes (Config.sha384 (measureWords s i))

/-- Measurements 1 to 4, on which the alias layer depends (R345). -/
def aliasBytes (s : State) (c : Conn) : List Byte := [1, 2, 3, 4].flatMap (measured s c)

/-- A block in the DMTF format: index, specification, size, value type, size and the digest. -/
def measureBlock (s : State) (c : Conn) (i : Nat) : List Byte :=
  leBytes 1 i ++ leBytes 1 1 ++ leBytes 2 51 ++ leBytes 1 1 ++ leBytes 2 48 ++ measured s c i

/-- GET_MEASUREMENTS: index 0 asks how many there are, 0xFF for all. -/
def getMeasurements (c : Conn) (index nonce : Nat) (sign : Bool) (s : State) : State :=
  spdmReq c 3 (fun t =>
    if index ≠ 0 ∧ index ≠ 0xFF ∧ 6 < index then spdmErr c errInvalid t
    else
      let l := if index = 0 then [] else if index = 0xFF then [1, 2, 3, 4, 5, 6] else [index]
      let body := leBytes 1 (if index = 0 then 6 else l.length) ++ l.flatMap (measureBlock t c)
      if sign then signed c 0x60 (body ++ leBytes 32 nonce ++ leBytes 32 (Config.nonce t.freeCtr).toNat) t
      else respond c 0x60 body t) s

/-! ## Certificates and authentication -/

/-- The chain of slot 0 (R346). -/
def chain (s : State) (c : Conn) : List Byte := Config.certChain 0 (aliasBytes s c)

def getDigests (c : Conn) (s : State) : State :=
  spdmReq c 3 (fun t => spdmSay c 0x01 (leBytes 1 1 ++ digBytes (Config.sha384 (chain t c))) t) s

def getCertificate (c : Conn) (slot off len : Nat) (s : State) : State :=
  spdmReq c 3 (fun t =>
    let l := chain t c
    if slot ≠ 0 ∨ l.length < off then spdmErr c errInvalid t
    else
      let d := (l.drop off).take len
      respond c 0x02 (leBytes 1 0 ++ leBytes 2 d.length ++ leBytes 2 (l.length - off - d.length) ++ d) t) s

def challenge (c : Conn) (slot nonce : Nat) (s : State) : State :=
  spdmReq c 3 (fun t =>
    if slot ≠ 0 then spdmErr c errInvalid t
    else signed c 0x03 (digBytes (Config.sha384 (chain t c)) ++ leBytes 32 nonce ++ leBytes 32 (Config.nonce t.freeCtr).toNat) t) s

/-- A failed authentication, authorisation or claim: the event and its counter. -/
def authFail (s : State) : State := happen baseSec 9 (addF F.SEC_AUTH_FAILS_COUNT 1 s)

/-- The owner recorded for a tile (R350). -/
def ownerOf (s : State) (t : Nat) : Option Nat :=
  match tget zeroD s.tiles.owner t with
  | 0 => none
  | n => some (n - 1)

/-- Management sessions open or being opened. -/
def mgmtSessions (s : State) : Nat :=
  (s.sec.spdm.filter (fun p => decide (64 ≤ p.1))).foldl (fun n p =>
    n + p.2.sessions + (if p.2.exch.isSome then 1 else 0)) 0

/-- KEY_EXCHANGE (R346, R348, R350): `owner` is the digest of the requester's leaf key. -/
def keyExchange (c : Conn) (mutAuth : Bool) (owner : Nat) (s : State) : State :=
  spdmReq c 3 (fun t =>
    match c with
    | .storage _ =>
      (match sessTile t c with
       | none => spdmErr c errInvalid t
       | some k =>
         if (match ownerOf t k with
             | some o => !mutAuth || decide (o ≠ owner)
             | none => false) then spdmErr c errUnspecified (authFail t)
         else signed c 0x64 (leBytes 32 (Config.nonce t.freeCtr).toNat)
           (setConn c { getConn t c with sessions := 0, exch := some (mutAuth, owner) } t))
    | _ =>
      if 8 ≤ mgmtSessions t then spdmErr c errLimit t
      else signed c 0x64 (leBytes 32 (Config.nonce t.freeCtr).toNat)
        (setConn c { getConn t c with exch := some (mutAuth, owner) } t)) s

/-- The answer to a FINISH that opens the session; with mutual authentication it carries a signature. -/
def finishRsp (c : Conn) (mutAuth : Bool) (s : State) : State :=
  let s1 := setConn c { getConn s c with exch := none, sessions := (getConn s c).sessions + 1 } s
  if mutAuth then signed c 0x65 [] s1 else spdmSay c 0x65 [] s1

/-- A FINISH that fails. -/
def finishBad (c : Conn) (s : State) : State :=
  spdmErr c errUnspecified (authFail (setConn c { getConn s c with exch := none } s))

/-- FINISH (R350): the first with mutual authentication on an unclaimed tile claims it. -/
def finish (c : Conn) (mutAuth ok : Bool) (owner : Nat) (s : State) : State :=
  spdmReq c 3 (fun t =>
    match (getConn t c).exch with
    | none => spdmErr c errUnexpected t
    | some (m, o) =>
      if !ok || m != mutAuth || decide (o ≠ owner) then finishBad c t
      else match sessTile t c with
        | none => finishRsp c mutAuth t
        | some k =>
          match ownerOf t k with
          | some x => if mutAuth && decide (x = owner) then finishRsp c mutAuth t else finishBad c t
          | none =>
            if mutAuth then
              finishRsp c mutAuth (happen baseSec 10
                { t with tiles := { t.tiles with owner := tset zeroD k (owner + 1) t.tiles.owner } })
            else finishRsp c mutAuth t) s

/-! ## Sessions -/

def keyUpdate (c : Conn) (s : State) : State := inSess c (spdmSay c 0x69 []) s

/-- One session of a connection ends. -/
def endOne (c : Conn) (s : State) : State := setConn c { getConn s c with sessions := (getConn s c).sessions - 1 } s

def endSess (c : Conn) (s : State) : State := inSess c (fun t => spdmSay c 0x6C [] (endOne c t)) s

/-- A session has protected 2^32 messages in one direction (R353). -/
def sessionLimit (c : Conn) (s : State) : State :=
  if (getConn s c).sessions = 0 then s
  else happen baseSec 11 (addF F.SEC_SESSION_LIMIT_COUNT 1 (endOne c s))

/-! ## The SLH-DSA messages and chunks (R347) -/

/-- SLH_SIGNATURE_GET: the signature held, in chunks. -/
def slhGet (c : Conn) (s : State) : State :=
  heard (connUp s c) (fun t =>
    match (getConn t c).sig with
    | none => spdmErr c errUnexpected (dropSig c t)
    | some g => respond c spdmVendor (leBytes 1 0x20 ++ leBytes 17088 g.toNat) (dropSig c t)) s

def slhChain (c : Conn) (s : State) : State :=
  spdmReq c 1 (fun t => respond c spdmVendor (leBytes 1 0x21 ++ Config.certChain 1 (aliasBytes t c)) t) s

/-- CHUNK_GET: the next chunk of the large response that is being given out. -/
def chunkGet (c : Conn) (k : Nat) (s : State) : State :=
  heard (connUp s c) (fun t =>
    match (getConn t c).large with
    | none => spdmErr c errUnexpected t
    | some (n, d) =>
      if k ≠ n then spdmErr c errInvalid t
      else
        let rest := d.drop chunkSize
        spdmSay c 0x06 (leBytes 2 n ++ leBytes 1 (if rest = [] then 1 else 0) ++ d.take chunkSize)
          (setConn c { getConn t c with large := if rest = [] then none else some (n + 1, rest) } t)) s

/-- CHUNK_SEND: the next chunk of a large request, of at most MaxSPDMmsgSize in all. -/
def chunkSend (c : Conn) (k : Nat) (last : Bool) (s : State) : State :=
  spdmReq c 2 (fun t =>
    let n := (getConn t c).chunks
    if k ≠ n ∨ 65536 ≤ k * chunkSize then spdmErr c errInvalid (setConn c { getConn t c with chunks := 0 } t)
    else spdmSay c 0x05 (leBytes 2 k) (setConn c { getConn t c with chunks := if last then 0 else n + 1 } t)) s

def execSlhSignatureGet (c : Conn) (s : State) : Res := .next (slhGet c s)
def execSlhChainGet (c : Conn) (s : State) : Res := .next (slhChain c s)
def execSpdmGetVersion (c : Conn) (s : State) : Res := .next (getVersion c s)
def execSpdmGetCapabilities (c : Conn) (s : State) : Res := .next (getCapabilities c s)
def execSpdmNegotiateAlgorithms (c : Conn) (s : State) : Res := .next (negotiate c s)
def execSpdmGetDigests (c : Conn) (s : State) : Res := .next (getDigests c s)
def execSpdmGetCertificate (c : Conn) (slot offset len : Nat) (s : State) : Res := .next (getCertificate c slot offset len s)
def execSpdmChallenge (c : Conn) (slot nonce : Nat) (s : State) : Res := .next (challenge c slot nonce s)
def execSpdmGetMeasurements (c : Conn) (index nonce : Nat) (sign : Bool) (s : State) : Res :=
  .next (getMeasurements c index nonce sign s)
def execSpdmKeyExchange (c : Conn) (mutAuth : Bool) (owner : Nat) (s : State) : Res := .next (keyExchange c mutAuth owner s)
def execSpdmFinish (c : Conn) (mutAuth verified : Bool) (owner : Nat) (s : State) : Res :=
  .next (finish c mutAuth verified owner s)
def execSpdmKeyUpdate (c : Conn) (s : State) : Res := .next (keyUpdate c s)
def execSpdmEndSession (c : Conn) (s : State) : Res := .next (endSess c s)
def execSpdmSessionLimit (c : Conn) (s : State) : Res := .next (sessionLimit c s)
def execSpdmChunkGet (c : Conn) (chunk : Nat) (s : State) : Res := .next (chunkGet c chunk s)
def execSpdmChunkSend (c : Conn) (chunk : Nat) (last : Bool) (s : State) : Res := .next (chunkSend c chunk last s)

end Sys2Proof.Machine
end

