-- ==== Sys2Proof/Machine/Mailbox.lean ====
section
/-!
DEFINITION. Machine/Mailbox.lean: the SEC mailbox (R368), debug unlock (R360, R361), anti-rollback and root revocation
(R344), and the conditions on an image (R340).
-/

namespace Sys2Proof.Machine

/-! ## Operations -/

/-- SEC_MBX_STATUS.PATH (R370). -/
def pathCode (p : Path) : Nat :=
  match p with
  | .portA => 0
  | .portB => 1
  | .sideband => 2
  | .onChip => 3

def mbxOk : Nat := 0
def mbxBusy : Nat := 1
def mbxBadOp : Nat := 2
def mbxBadSig : Nat := 3
def mbxBadNonce : Nat := 4
def mbxNotAllowed : Nat := 5
def mbxInUse : Nat := 6
def mbxFuse : Nat := 7

/-- A write of SEC_MBX_CMD: while BUSY is set the new operation ends with BUSY and the one in hand goes on. -/
def mbx (path : Path) (op : Nat) (f : State → State) (s : State) : State :=
  guarded path Reg.SEC_MBX_CMD (BitVec.ofNat 32 op) (fun t =>
    let t1 := setF F.SEC_MBX_STATUS_PATH (pathCode path) t
    if isSet t F.SEC_MBX_STATUS_BUSY then happen baseSec 15 (setF F.SEC_MBX_STATUS_RESULT mbxBusy t1) else f t1) s

/-- The operation waits for the erases that are due; with none it ends now. -/
def mbxWait (op n : Nat) (s : State) : State :=
  mbxSettle (setF F.SEC_MBX_STATUS_BUSY 1 { s with sec := { s.sec with mbxOp := some (op, n) } })

def mbxArg (s : State) (k : Nat) : Nat := getR s (Reg.SEC_MBX_ARG k)

/-- KEY_ERASE: ARG0 a tile, ARG1 a mask of versions. -/
def mbxKeyErase (path : Path) (s : State) : State :=
  mbx path 1 (fun t =>
    let k := mbxArg t 0
    if 64 ≤ k ∨ 16 ≤ mbxArg t 1 then mbxEnd mbxBadOp t
    else mbxWait 1 0 ((bitsList (mbxArg t 1) 4).foldl (fun x v => eraseSlot (4 * k + v) x) t)) s

/-- The connections of a table whose key satisfies a test lose their sessions. -/
def endSessions (f : Nat → Bool) (s : State) : State :=
  (s.sec.spdm.filter (fun p => f p.1)).foldl (fun (t : State) p =>
    { t with sec := { t.sec with spdm := tset spdmD p.1 { p.2 with sessions := 0, exch := none } t.sec.spdm } }) s

/-- SESSION_END (R353): a tile's session, every management session (0xFE), every tile session (0xFF). -/
def mbxSessionEnd (path : Path) (s : State) : State :=
  mbx path 2 (fun t =>
    let k := mbxArg t 0
    if k = 0xFE then mbxEnd mbxOk (endSessions (fun n => decide (64 ≤ n)) t)
    else if k = 0xFF then mbxEnd mbxOk (endSessions (fun n => decide (n < 64)) t)
    else if 64 ≤ k then mbxEnd mbxBadOp t
    else match fnOfTile t k with
      | some fn => mbxEnd mbxOk (endSession (.storage fn) t)
      | none => mbxEnd mbxOk t) s

/-- Bytes of the buffer from an offset take a value. -/
def putBuf (off : Nat) (l : List Byte) (s : State) : State :=
  { s with sec := { s.sec with
      buf := (List.range l.length).foldl (fun b i => tset zeroD (off + i) (l.getD i 0).toNat b) s.sec.buf } }

/-- A number of the buffer. -/
def bufNat (s : State) (off len : Nat) : Nat :=
  leNat ((List.range len).map (fun i => BitVec.ofNat 8 (tget zeroD s.sec.buf (off + i))))

/-- CHALLENGE: a fresh nonce and DEVICE_ID. -/
def mbxChallenge (path : Path) (s : State) : State :=
  mbx path 3 (fun t =>
    let n := Config.nonce t.freeCtr
    let t1 := tick { t with sec := { t.sec with nonce := some n.toNat } }
    mbxEnd mbxOk (putBuf 0 (leBytes 32 n.toNat ++ digBytes Config.deviceId) t1)) s

/-! ## Authorisations (R361) -/

/-- The authorisation in the buffer, for a write of SEC_MBX_CMD that comes without one: its signatures verify or not as
the free value says. -/
def authInBuf (s : State) : Authorisation :=
  { purpose := bufNat s 2 1, scope := bufNat s 4 2, target := bufNat s 6 1, root := bufNat s 3 1 % 4, nonce := bufNat s 56 32
    deviceIdOk := decide (bufNat s 8 48 = Config.deviceId.toNat)
    verified := decide (bufNat s 0 2 = 1) && Config.authVerifies (bufNat s 3 1 % 4)
      ((List.range 8336).map (fun i => BitVec.ofNat 8 (tget zeroD s.sec.buf i))) }

def rootRevoked (s : State) (r : Nat) : Bool := decide (bitsOf (getF s F.SEC_SVN_ROOT_REVOKED) r 1 = 1)

/-- A failed authorisation. -/
def authBad (r : Nat) (s : State) : State := mbxEnd r (authFail s)

/-- An authorisation for the current nonce and this device, verified under conditions 2 to 4 of R340; the nonce serves it
and no other. -/
def authorise (a : Authorisation) (f : State → State) (s : State) : State :=
  if s.sec.nonce ≠ some a.nonce ∨ !a.deviceIdOk then authBad mbxBadNonce s
  else
    let s1 := { s with sec := { s.sec with nonce := none } }
    if !a.verified || decide (4 ≤ a.root) || rootRevoked s a.root then authBad mbxBadSig s1 else f s1

/-- DEBUG_UNLOCK (R360): the keys of every tile are erased before the scopes open. -/
def mbxUnlock (path : Path) (a : Authorisation) (s : State) : State :=
  mbx path 4 (fun t =>
    if isSet t F.SEC_STATUS_DEBUG_NEVER then mbxEnd mbxNotAllowed t
    else if a.purpose ≠ 1 ∨ 8 ≤ a.scope then mbxEnd mbxBadOp t
    else authorise a (fun x => mbxWait 4 a.scope ((List.range 256).foldl (fun y k => eraseSlot k y) x)) t) s

/-- The images that a slot or the recovery slot holds. -/
def heldImages (s : State) : List ImageInfo := s.sec.slots.filterMap (fun p => p.2.img)

/-- SVN_COMMIT (R344): steps are blown until the count equals the SVN of the running image. -/
def mbxSvn (path : Path) (readBack : Bool) (s : State) : State :=
  mbx path 5 (fun t =>
    let n := getF t F.SEC_SVN_FUSE_COUNT
    let v := t.sec.running.svn
    if mbxArg t 0 ≠ v then mbxEnd mbxBadOp t
    else if v ≤ n ∨ (heldImages t).any (fun i => decide (i.svn < v)) then mbxEnd mbxNotAllowed t
    else
      let n1 := if readBack then v else n + Config.fuseSteps t.freeCtr % (v - n + 1)
      let t1 := setF F.SEC_SVN_FUSE_COUNT n1 (tick t)
      let t2 := if n < n1 then happen baseSec 6 t1 else t1
      let t3 := if 60 ≤ n1 then happen baseSec 7 t2 else t2
      mbxEnd (if readBack then mbxOk else mbxFuse) t3) s

/-- ROOT_REVOKE (R344): by an authorisation of another root that is not revoked. -/
def mbxRevoke (path : Path) (a : Authorisation) (s : State) : State :=
  mbx path 6 (fun t =>
    if a.purpose ≠ 2 ∨ 4 ≤ a.target then mbxEnd mbxBadOp t
    else authorise a (fun x =>
      let m := Nat.lor (getF x F.SEC_SVN_ROOT_REVOKED) (2 ^ a.target)
      if a.root = a.target ∨ m = 15 then mbxEnd mbxNotAllowed x
      else if (heldImages x).any (fun i => decide (i.root = a.target)) then mbxEnd mbxInUse x
      else if rootRevoked x a.target then mbxEnd mbxOk x
      else mbxEnd mbxOk (happen baseSec 12 (setF F.SEC_SVN_ROOT_REVOKED m x))) t) s

/-- A write of SEC_MBX_CMD by its value. -/
def mbxWrite (path : Path) (v : Nat) (s : State) : State :=
  match v % 256 with
  | 1 => mbxKeyErase path s
  | 2 => mbxSessionEnd path s
  | 3 => mbxChallenge path s
  | 4 => mbxUnlock path (authInBuf s) s
  | 5 => mbxSvn path (Config.fuseReadBack s.freeCtr) s
  | 6 => mbxRevoke path (authInBuf s) s
  | op => mbx path op (mbxEnd mbxBadOp) s

/-! ## Images (R340) -/

/-- The first condition of R340 that an image fails; 0 for an image that is accepted. -/
def imageFail (s : State) (i : ImageInfo) : Nat :=
  if i.failedCondition = 1 then 1
  else if i.failedCondition = 2 ∨ 4 ≤ i.root ∨ rootRevoked s i.root then 2
  else if i.failedCondition = 3 ∨ i.failedCondition = 4 then i.failedCondition
  else if i.failedCondition = 5 ∨ i.svn < getF s F.SEC_SVN_FUSE_COUNT ∨ 64 < i.svn then 5
  else if i.failedCondition = 6 ∨ getF s F.TOP_COMPAT_LEVEL < i.compatMin ∨ i.compatMax < getF s F.TOP_COMPAT_LEVEL then 6
  else i.failedCondition

/-- SEC_IMAGE_REJECTED, with the condition in ERR_INFO. -/
def rejected (n : Nat) (s : State) : State := happen baseSec 1 (noteErr baseSec 0 n 0 s)

/-- The SEC registers show the running image. -/
def showImage (s : State) : State :=
  let i := s.sec.running
  setR Reg.SEC_FW_REV_HI (i.rev / 2 ^ 32) (setR Reg.SEC_FW_REV_LO (i.rev % 2 ^ 32)
    (setF F.SEC_SVN_ROOT i.root (setF F.SEC_SVN_RUNNING i.svn s)))

def execMbxKeyErase (path : Path) (s : State) : Res := .next (mbxKeyErase path s)
def execMbxSessionEnd (path : Path) (s : State) : Res := .next (mbxSessionEnd path s)
def execMbxChallenge (path : Path) (s : State) : Res := .next (mbxChallenge path s)
def execMbxDebugUnlock (path : Path) (auth : Authorisation) (s : State) : Res := .next (mbxUnlock path auth s)
def execMbxSvnCommit (path : Path) (readBack : Bool) (s : State) : Res := .next (mbxSvn path readBack s)
def execMbxRootRevoke (path : Path) (auth : Authorisation) (s : State) : Res := .next (mbxRevoke path auth s)

end Sys2Proof.Machine
end

