-- ==== Sys2Proof/Machine/Firmware.lean ====
section
/-!
DEFINITION. Machine/Firmware.lean: firmware download and commit (R354 to R356), hitless activation (R122, R357 to R359),
and the controller reset of R120 that may begin one.
-/

namespace Sys2Proof.Machine

/-! ## Download (R354) -/

def stagingSize : Nat := 16777216

/-- A piece of the staging buffer from a function: its status and the buffer after it. -/
def stagePiece (fn off len data : Nat) (s : State) : Sts × State :=
  if len = 0 ∨ len % 4096 ≠ 0 ∨ stagingSize < off + len then (stField, s)
  else if off = 0 then (stOk, { s with sec := { s.sec with staging := [(0, len, data)], stagingFn := some fn } })
  else if s.sec.stagingFn.isSome ∧ s.sec.stagingFn ≠ some fn then (stSequence, s)
  else if s.sec.staging.any (fun p => decide (p.1 < off + len) && decide (off < p.1 + p.2.1)) then (stFwOverlap, s)
  else (stOk, { s with sec := { s.sec with staging := s.sec.staging ++ [(off, len, data)] } })

def fwDownload (h : CmdHead) (off len data : Nat) (s : State) : State :=
  adminCmd h 0x11 true false true true (fun t =>
    let (st, t1) := stagePiece h.fn off len data t
    answer h (.admin 0x11) st 0 [] t1) s

/-! ## Commit (R355, R356) -/

def fwSlot0 : FwSlot := { img := none, failed := false }
def fwSlotD (_ : Nat) : FwSlot := fwSlot0
def getSlotFw (s : State) (k : Nat) : FwSlot := tget fwSlotD s.sec.slots k
def setSlotFw (k : Nat) (v : FwSlot) (s : State) : State :=
  { s with sec := { s.sec with slots := tset fwSlotD k v s.sec.slots } }

/-- A commit completes: its command, or its Rirus message with the NVMe status in its data (R365). -/
def commitEnd (c : FwCommit) (st : Sts) (s : State) : State :=
  let s1 := { s with sec := { s.sec with commit := none } }
  match c.cmd with
  | some i => if hasCmd s i then ready i st 0 [] s1 else s1
  | none => emit (.rirus c.tag (if st = stOk then 0 else 3) (leBytes 1 st.sc ++ leBytes 1 st.sct)) s1

/-- The slot that a commit names: 0 is the slot that is not running. -/
def fwTarget (s : State) (fs : Nat) : Nat :=
  if fs = 0 then (if getF s F.SEC_STATUS_ACTIVE_SLOT = 1 then 2 else 1) else fs

/-- An image can be activated without a start (R356). -/
def hitless (s : State) (i : ImageInfo) : Bool := i.sameSecurity && decide (i.stateMin ≤ s.sec.running.stateVersion)

/-- The ROM's recovery loader runs (R341). -/
def inLoader (s : State) : Bool := decide (getF s F.SEC_STATUS_BOOT_SRC = 5)

/-- The next start runs a slot's image. -/
def pendSlot (fs : Nat) (s : State) : State :=
  setF F.SEC_STATUS_PENDING 1 { s with sec := { s.sec with nextStart := some fs } }

/-- A start from S01 is due for an activation (R356, R471 code 5). -/
def startFor (fs : Nat) (s : State) : State :=
  { s with sec := { s.sec with nextStart := some fs }, top := { s.top with startDue := some 5 } }

/-- The image in a slot is activated at the next controller reset of FN 0, where it can be without a start. -/
def activateOnReset (c : FwCommit) (s : State) : State :=
  if modeNow s ≠ modeRecovery ∧ !hitless s c.img then commitEnd c stFwReset (pendSlot c.fs s)
  else commitEnd c stOk { s with sec := { s.sec with onReset := some c.fs } }

/-- What an image that R340 refuses answers (R122). -/
def commitRefused (c : FwCommit) (n : Nat) (s : State) : State :=
  commitEnd c (if n = 5 then stFwProhibited else stFwImage) (rejected n s)

/-- A commit begins (R355). -/
def commitStart (c0 : FwCommit) (s : State) : State :=
  let fs := if inLoader s then 1 else fwTarget s c0.fs
  if s.sec.commit.isSome ∨ s.sec.act.isSome then
    let s1 := commitEnd c0 stSequence s
    { s1 with sec := { s1.sec with commit := s.sec.commit } }
  else if 4 ≤ c0.action then commitEnd c0 stField s
  else if 2 < fs ∨ (c0.action ≠ 2 ∧ fs = getF s F.SEC_STATUS_ACTIVE_SLOT) then commitEnd c0 stFwSlot s
  else
    let img := if c0.action = 2 then (getSlotFw s fs).img else if s.sec.staging = [] then none else some c0.img
    match img with
    | none => commitRefused c0 1 s
    | some i =>
      let c : FwCommit := { c0 with fs := fs, img := i }
      if imageFail s i ≠ 0 then commitRefused c (imageFail s i) s
      else if c.action = 2 then activateOnReset c s
      else { s with sec := { s.sec with commit := some c } }

/-- A Firmware Commit of a host. -/
def fwCommit (h : CmdHead) (action fs : Nat) (img : ImageInfo) (s : State) : State :=
  adminCmd h 0x10 true false true true (fun t =>
    let (i, t1) := allocCmd { cmdOf h (.admin 0x10) t with st := .working } t
    commitStart { cmd := some i, tag := 0, action := action, fs := fs, img := img } t1) s

/-- A hitless activation begins: the standby banks are being loaded (R357 step 1). -/
def beginAct (c : FwCommit) (s : State) : State :=
  setF F.SEC_STATUS_ACT_PHASE 1
    { s with sec := { s.sec with commit := none, act := some { commit := c, phase := 0, h := 0, failed := 0 } } }

/-- FW_IMAGE_STORED: the image is on SPI NOR and in the NAND mirror. -/
def fwStored (s : State) : State :=
  match s.sec.commit with
  | none => s
  | some c =>
    let s1 := setSlotFw c.fs { img := some c.img, failed := false } s
    if inLoader s then startFor c.fs (commitEnd c stOk s1)
    else match c.action with
      | 0 => commitEnd c stOk s1
      | 1 => activateOnReset c s1
      | _ =>
        if modeNow s = modeRecovery then startFor c.fs { s1 with sec := { s1.sec with commit := none } }
        else if hitless s c.img then beginAct c s1
        else commitEnd c stFwReset (pendSlot c.fs s1)

/-! ## Hitless activation -/

/-- A function wants Firmware Activation Notices: bit 9 of its Asynchronous Event Configuration (log 10). -/
def wantsNotice (s : State) (fn : Nat) : Bool := decide (bitsOf (tget zeroD (getFn s fn).feat 0x0B) 9 1 = 1)

/-- ACTIVATION_STANDBY_LOADED: the notices are sent, and H is at least one frame after them (R357 step 2). -/
def actLoaded (s : State) : State :=
  match s.sec.act with
  | some a =>
    if a.phase = 0 ∧ running s then
      let s1 := (List.range 64).foldl (fun t fn =>
        if (getFn t fn).rdy && wantsNotice t fn then aen fn 2 1 3 t else t) s
      { s1 with sec := { s1.sec with act := some { a with phase := 1, h := (beatNow s + 127) / 64 * 64 } } }
    else s
  | none => s

/-- The ports of the layout. -/
def ports (s : State) : List Nat := if twoPort s then [0, 1] else [0]

/-- Notices that no plan has posted yet. -/
def noticesWait (s : State) : Bool := s.host.cmds.any (fun p => decide (p.2.kind = .aer) && decide (p.2.st = .ready))

/-- ACTIVATION_PAUSE_START at header beat H (R357 step 3). -/
def actPause (s : State) : State :=
  match s.sec.act with
  | some a =>
    if a.phase = 1 ∧ beatNow s % 64 = 0 ∧ a.h ≤ beatNow s ∧ !noticesWait s ∧ running s ∧ !grouting s then
      let s1 := (ports s).foldl (fun t p => setF (F.HOST_CPL_STAT_PAUSED p) 1 t) s
      happen baseSec 2 (setF F.SEC_STATUS_ACT_PHASE 2 { s1 with sec := { s1.sec with
        act := some { a with phase := 2, h := beatNow s, failed := s.beat.failed.length } } })
    else s
  | none => s

/-- ACTIVATION_BANK_SWITCH at beat H + 64 (R357 step 4). -/
def actSwitch (s : State) : State :=
  match s.sec.act with
  | some a =>
    if a.phase = 2 ∧ beatNow s = a.h + 64 ∧ !grouting s then { s with sec := { s.sec with act := some { a with phase := 3 } } }
    else s
  | none => s

/-- Bytes of the answers to Rirus IDENTIFY and HEALTH (R365). -/
def identifyBytes (s : State) : List Byte :=
  leBytes 4 (getR s Reg.TOP_CHIP_ID) ++ leBytes 8 s.sec.running.rev ++ leBytes 1 (modeNow s) ++ digBytes Config.deviceId
def healthBytes (s : State) : List Byte :=
  leBytes 2 (getF s F.KILN_TMAX_TEMP) ++ leBytes 1 (getF s F.KILN_STATUS_LEVEL) ++ leBytes 1 (modeNow s)
    ++ leBytes 1 (getF s F.PWR_HOLDUP_STAT_HOLDUP_OK) ++ leBytes 4 (getF s F.TROWEL_SPARES_BRICKS)

/-- A controller reset (R120); that of FN 0 activates the image which waits for it (R355). -/
def ctrlReset (fn : Nat) (s : State) : State :=
  if !(getFn s fn).en then s
  else
    let s1 := resetFn fn s
    match (if fn = 0 then s.sec.onReset else none) with
    | none => s1
    | some fs =>
      let s2 := { s1 with sec := { s1.sec with onReset := none } }
      match (getSlotFw s2 fs).img with
      | none => s2
      | some i =>
        if imageFail s2 i ≠ 0 then rejected (imageFail s2 i) s2
        else if modeNow s2 = modeRecovery then startFor fs s2
        else if s2.sec.act.isSome ∨ s2.sec.commit.isSome ∨ !hitless s2 i then pendSlot fs s2
        else beginAct { cmd := none, tag := 0, action := 2, fs := fs, img := i } s2

/-- What waited for the end of the pause: resets in their order, then IDENTIFY and HEALTH (R122, R366). -/
def afterPause (s : State) : State :=
  let s1 := s.host.paused.foldl (fun t p =>
    match p.1 with
    | 0 => ctrlReset p.2 t
    | 1 => flr p.2 t
    | _ => resetPort p.2 t) { s with host := { s.host with paused := [] } }
  s1.sec.waiting.foldl (fun t p => emit (.rirus p.1 0 (if p.2 then healthBytes t else identifyBytes t)) t)
    { s1 with sec := { s1.sec with waiting := [] } }

/-- The pause ends: CSTS.PP reads 0, its length is recorded, and fetch and posting resume. -/
def endPause (h : Nat) (s : State) : State :=
  afterPause ((ports s).foldl (fun t p => happen (baseHost p) 7
    (setF (F.HOST_LAST_PAUSE_US p) (16 * (beatNow s - h)) (setF (F.HOST_CPL_STAT_PAUSED p) 0 t))) s)

/-- ACTIVATION_PAUSE_END: R, the first beat in which every unit runs a plan of the new image (R357 step 5), or of the old
one after a revert (R358). -/
def actEnd (s : State) : State :=
  match s.sec.act with
  | some a =>
    if a.phase = 3 ∧ a.h + 64 < beatNow s ∧ beatNow s ≤ a.h + 192 ∧ !grouting s then
      endPause a.h (setF F.SEC_STATUS_ACT_PHASE 0 (showImage { s with sec := { s.sec with
        act := some { a with phase := 4 }, running := a.commit.img } }))
    else if a.phase = 5 ∧ beatNow s ≤ a.h + 248 ∧ !grouting s then
      endPause a.h (setF F.SEC_STATUS_ACT_PHASE 0 { s with sec := { s.sec with act := none } })
    else s
  | none => s

/-- The completion of an activation that a command or a message waits for. -/
def actAnswer (c : FwCommit) (st : Sts) (s : State) : State := if c.action = 3 then commitEnd c st s else s

/-- ACTIVATION_DONE: the boot descriptor names the new slot (R357 step 6). -/
def actDone (s : State) : State :=
  match s.sec.act with
  | some a =>
    if a.phase = 4 ∧ !grouting s then
      happen baseSec 3 (actAnswer a.commit stOk (setF F.SEC_STATUS_BOOT_SRC (a.commit.fs - 1)
        (setF F.SEC_STATUS_ACTIVE_SLOT a.commit.fs (setF F.SEC_STATUS_PENDING 0
          { s with sec := { s.sec with act := none, nextStart := none } }))))
    else s
  | none => s

/-- ACTIVATION_REVERT: the pause would pass H + 192, or a planner was declared failed in it (R358, R359). -/
def actRevert (s : State) : State :=
  match s.sec.act with
  | some a =>
    if (a.phase = 2 ∨ a.phase = 3) ∧ !grouting s ∧
        ((a.phase = 3 ∧ a.h + 192 ≤ beatNow s) ∨ a.failed < s.beat.failed.length) then
      let s1 := setSlotFw a.commit.fs { getSlotFw s a.commit.fs with failed := true } s
      happen baseSec 4 (actAnswer a.commit stFwProhibited (setF F.SEC_STATUS_LAST_REVERTED 1 (setF F.SEC_STATUS_ACT_PHASE 3
        { s1 with sec := { s1.sec with act := some { a with phase := 5 } } })))
    else s
  | none => s

/-- ACTIVATION_FAILED: the old image has no plans by H + 248 (R358). -/
def actFailed (s : State) : State :=
  match s.sec.act with
  | some a =>
    if a.phase = 5 ∧ a.h + 248 ≤ beatNow s then
      fatal baseSec 5 { s with sec := { s.sec with act := none } }
    else s
  | none => s

def execFirmwareImageDownload (h : CmdHead) (offset len data : Nat) (s : State) : Res := .next (fwDownload h offset len data s)
def execFwCommitStore (h : CmdHead) (fs : Nat) (img : ImageInfo) (s : State) : Res := .next (fwCommit h 0 fs img s)
def execFwCommitStoreActivateReset (h : CmdHead) (fs : Nat) (img : ImageInfo) (s : State) : Res := .next (fwCommit h 1 fs img s)
def execFwCommitActivateReset (h : CmdHead) (fs : Nat) (img : ImageInfo) (s : State) : Res := .next (fwCommit h 2 fs img s)
def execFwCommitActivateNow (h : CmdHead) (fs : Nat) (img : ImageInfo) (s : State) : Res := .next (fwCommit h 3 fs img s)
def execFwImageStored (s : State) : Res := .next (fwStored s)
def execActivationStandbyLoaded (s : State) : Res := .next (actLoaded s)
def execActivationPauseStart (s : State) : Res := .next (actPause s)
def execActivationBankSwitch (s : State) : Res := .next (actSwitch s)
def execActivationPauseEnd (s : State) : Res := .next (actEnd s)
def execActivationDone (s : State) : Res := .next (actDone s)
def execActivationRevert (s : State) : Res := .next (actRevert s)
def execActivationFailed (s : State) : Res := .next (actFailed s)
def execControllerReset (fn : Nat) (s : State) : Res := .next (orPaused 0 fn (portOf s fn) (ctrlReset fn) s)

end Sys2Proof.Machine
end

