-- ==== Sys2Proof/Machine/Hod.lean ====
section
/-!
DEFINITION. Machine/Hod.lean: the Hod's channels (R371 to R388): their states, request lines, windows, arbitration and
errors.  What a burst and a write-back move stands in HodBurst.lean.
-/

namespace Sys2Proof.Machine

def hodDesc0 : HodDesc := { next := 0, src := 0, dst := 0, length := 0, control := 0, status := 0 }
def hodCh0 : HodCh :=
  { desc := hodDesc0, cur := 0, shown := 0, inflight := [], issued := 0, tries := 0, retries := 0, code := 0, failed := false
    writing := false }
def hodD (_ : Nat) : HodCh := hodCh0
def getCh (s : State) (k : Nat) : HodCh := tget hodD s.hod.chs k

/-- A channel takes a value; HOD_CH_STAT shows its bursts in flight. -/
def setCh (k : Nat) (v : HodCh) (s : State) : State :=
  setF (F.HOD_CH_STAT_IN_FLIGHT k) v.inflight.length { s with hod := { s.hod with chs := tset hodD k v s.hod.chs } }

/-! ## States (R376) -/

def hIdle : Nat := 0
def hFetch : Nat := 1
def hRun : Nat := 2
def hPace : Nat := 3
def hFinish : Nat := 4
def hWait : Nat := 5
def hHalted : Nat := 6
def hodState (s : State) (k : Nat) : Nat := getF s (F.HOD_CH_STAT_STATE k)
def setHod (k st : Nat) (s : State) : State := setF (F.HOD_CH_STAT_STATE k) st s

/-- Cause `bit` of a channel (R386). -/
def hodCause (k bit : Nat) (s : State) : State := happenCause baseHod k (Reg.HOD_CH_CAUSE k) (Reg.HOD_CH_CAUSE_EN k) bit s

/-- A START or KICK out of place, or a write of HOD_CH_NEXT that is ignored. -/
def hodIgnored (k : Nat) (s : State) : State := setF (F.HOD_CH_STAT_IGNORED k) 1 s

/-- The channel halts. -/
def hodHalt (k cause : Nat) (s : State) : State :=
  hodCause k 1 (setF (F.HOD_CH_STAT_HALT_CAUSE k) cause (setHod k hHalted s))

/-- HOD_CH_NEXT. -/
def hodNext (s : State) (k : Nat) : Nat := getR s (Reg.HOD_CH_NEXT_LO k) + 2 ^ 32 * getR s (Reg.HOD_CH_NEXT_HI k)
def setNext (k v : Nat) (s : State) : State :=
  setR (Reg.HOD_CH_NEXT_HI k) (v / 2 ^ 32) (setR (Reg.HOD_CH_NEXT_LO k) (v / 32 * 32 % 2 ^ 32) s)
/-- HOD_CH_CUR: its HI register shows what the last read of LO latched. -/
def setCur (k v : Nat) (s : State) : State := setCh k { getCh s k with shown := v } s

def startCh (k : Nat) (s : State) : State :=
  if hodState s k = hIdle then setHod k hFetch s
  else if hodState s k = hHalted then setF (F.HOD_CH_STAT_HALT_CAUSE k) 0 (setHod k hFetch s)
  else hodIgnored k s

def kickCh (k : Nat) (s : State) : State := if hodState s k = hWait then setHod k hFetch s else hodIgnored k s

/-! ## The descriptor (R372 to R375) -/

def dIrq (d : HodDesc) : Bool := decide (bitsOf d.control 0 1 = 1)
def dPaced (d : HodDesc) : Bool := decide (bitsOf d.control 1 1 = 1)
def dReq (d : HodDesc) : Nat := bitsOf d.control 2 5
def dSrcFixed (d : HodDesc) : Bool := decide (bitsOf d.control 7 1 = 1)
def dDstFixed (d : HodDesc) : Bool := decide (bitsOf d.control 8 1 = 1)
def dBurst (d : HodDesc) : Nat := 64 * 4 ^ bitsOf d.control 9 2
def dWdStop (d : HodDesc) : Bool := decide (bitsOf d.control 11 1 = 1)
def dOwn (d : HodDesc) : Bool := decide (bitsOf d.status 15 1 = 1)

/-- The space of a Hod address, by its bit in a window's SPACES; none is reserved (R371, R377). -/
def spaceBit (a : Nat) : Option Nat :=
  match a / 2 ^ 56 % 256 with
  | 0 => some 0
  | 1 => some 1
  | 2 => some 2
  | 0x10 => some 3
  | 0x11 => some 4
  | _ => none

/-- R375: an owned descriptor that moves nothing. -/
def badDesc (d : HodDesc) : Bool :=
  decide (bitsOf d.control 12 4 ≠ 0) || (spaceBit d.src).isNone || (spaceBit d.dst).isNone
    || (dSrcFixed d && (decide (d.src % 8 ≠ 0) || decide (d.length % 8 ≠ 0)))
    || (dDstFixed d && (decide (d.dst % 8 ≠ 0) || decide (d.length % 8 ≠ 0)))
    || decide (d.next % 32 ≠ 0)

/-- HOD_DESC_FETCHED; a descriptor of LENGTH 0 moves nothing and is written back at once. -/
def descFetched (k : Nat) (d : HodDesc) (s : State) : State :=
  if hodState s k ≠ hFetch then s
  else
    let a := hodNext s k
    let c : HodCh := { hodCh0 with desc := d, cur := a, shown := if dOwn d then a else (getCh s k).shown }
    if !dOwn d then hodCause k 3 (setHod k hWait (setCh k c s))
    else
      let s1 := setF (F.HOD_CH_MOVED_BYTES k) 0 s
      if badDesc d then setHod k hFinish (setCh k { c with code := 5, writing := true } s1)
      else if d.length = 0 then setHod k hFinish (setCh k { c with writing := true } s1)
      else setHod k (if dPaced d then hPace else hRun) (setCh k c s1)

/-! ## Request lines (R381, R382) -/

/-- A request line is high. -/
def lineHigh (s : State) (l : Nat) : Bool :=
  if l = 0 then s.recd.ring.any (fun r =>
    decide (getF s F.REC_CURSOR_SEQ ≤ r.seq) && !s.recd.snap.any (fun x => decide (x.seq = r.seq)))
  else if l = 1 then decide (s.sec.waiting ≠ [])
  else if l = 2 then true
  else if 16 ≤ l then decide (bitsOf (getF s F.HOD_SWREQ_LINE) (l - 16) 1 = 1)
  else false

/-- A code of the order of R384: errors, then ABORTED, then WITHDRAWN, then OK. -/
def codeRank (c : Nat) : Nat := if c = 2 ∨ c = 3 ∨ c = 4 ∨ c = 5 then 3 else if c = 6 then 2 else if c = 1 then 1 else 0

/-- The descriptor ends with a code, unless one that goes before it is set. -/
def endWith (k code : Nat) (s : State) : State :=
  let c := getCh s k
  setCh k (if codeRank c.code < codeRank code then { c with code := code } else c) s

/-- Nothing is in flight any more: the read-back, or where nothing was written the write-back, follows (R379). -/
def settleFinish (k : Nat) (s : State) : State :=
  let c := getCh s k
  if hodState s k = hFinish ∧ c.inflight = [] ∧ getF s (F.HOD_CH_MOVED_BYTES k) = 0 then setCh k { c with writing := true } s else s

/-- The request of a paced channel is withdrawn: with a burst in flight the descriptor ends, and without one the channel
waits; one with no bytes left ends OK. -/
def withdraw (k : Nat) (s : State) : State :=
  let c := getCh s k
  if hodState s k ≠ hRun ∨ !dPaced c.desc then s
  else if c.inflight = [] then setHod k hPace s
  else if c.issued = c.desc.length then s
  else setHod k hFinish (endWith k 1 s)

/-- Every paced channel of a line that has risen leaves PACE. -/
def lineRises (l : Nat) (s : State) : State :=
  if lineHigh s l then
    (List.range 32).foldl (fun t k =>
      if hodState t k = hPace ∧ dReq (getCh t k).desc = l then setHod k hRun t else t) s
  else s

/-- Every channel of a line that has fallen. -/
def lineFalls (l : Nat) (s : State) : State :=
  if lineHigh s l then s
  else (List.range 32).foldl (fun t k => if dReq (getCh t k).desc = l then withdraw k t else t) s

def swreqWrite (v : W32) (s : State) : State :=
  let s1 := setR Reg.HOD_SWREQ (v.toNat % 65536) s
  (List.range 16).foldl (fun t i => lineFalls (16 + i) (lineRises (16 + i) t)) s1

/-- HOD_WITHDRAWAL of a line that the environment drives. -/
def withdrawal (k : Nat) (s : State) : State :=
  if lineHigh s (dReq (getCh s k).desc) then s else withdraw k s

/-- ABORT (R376, R384). -/
def abortCh (k : Nat) (s : State) : State :=
  let st := hodState s k
  if st = hHalted then setHod k hIdle s
  else if st = hRun ∨ st = hPace ∨ st = hWait then
    settleFinish k (setHod k hFinish (endWith k 6
      (if st = hWait then setF (F.HOD_CH_MOVED_BYTES k) 0 (setCur k (getCh s k).cur s) else s)))
  else s

/-! ## Windows and the arbiter (R377, R378) -/

/-- The first entry of the Hod's plan, in plan order, that lets channel `k` issue in a slot. -/
def openWindow (s : State) (slot k : Nat) (d : HodDesc) : Option Nat :=
  match running? s .hod, spaceBit d.src, spaceBit d.dst with
  | some b, some i, some j =>
    ((List.range b.ents.length).zip b.ents).findSome? (fun p =>
      let e := p.2.e
      if e.op = 1 ∧ ¬ p.2.retired ∧ e.slot ≤ slot ∧ (e.len = 0 ∨ slot < e.slot + e.len)
          ∧ bitsOf (eChMask e) k 1 = 1 ∧ bitsOf (eSpaces e) i 1 = 1 ∧ bitsOf (eSpaces e) j 1 = 1
          ∧ (eBursts e = 0 ∨ tget (fun _ => 0) s.hod.used p.1 < eBursts e) then some p.1 else none)
  | _, _, _ => none

/-- Bursts in flight of the whole Hod. -/
def hodFlight (s : State) : Nat := s.hod.chs.foldl (fun n p => n + p.2.inflight.length) 0

/-- A channel that may issue in a slot. -/
def mayIssue (s : State) (slot k : Nat) : Bool :=
  let c := getCh s k
  decide (hodState s k = hRun) && decide (c.inflight.length < 4) && decide (hodFlight s < 64)
    && decide (c.issued < c.desc.length) && (!dPaced c.desc || lineHigh s (dReq c.desc))
    && (openWindow s slot k c.desc).isSome

/-- The arbiter of R47: the most urgent class, then the first channel at or above the pointer, counting round. -/
def hodGrant (s : State) (slot : Nat) : Option Nat :=
  let l := (List.range 32).filter (mayIssue s slot)
  let top := l.foldl (fun n k => min n (getF s (F.HOD_CH_CFG_CLASS k))) 3
  let u := l.filter (fun k => decide (getF s (F.HOD_CH_CFG_CLASS k) = top))
  match u.find? (fun k => decide (s.hod.ptr ≤ k)) with
  | some k => some k
  | none => u.head?

/-- One burst of the channel that the arbiter grants. -/
def issueBurst (slot : Nat) (s : State) : State :=
  match hodGrant s slot with
  | none => s
  | some k =>
    let c := getCh s k
    let n := min (dBurst c.desc) (c.desc.length - c.issued)
    let w := (openWindow s slot k c.desc).getD 0
    let s1 := setCh k { c with inflight := c.inflight ++ [(c.issued, n)], issued := c.issued + n } s
    { s1 with hod := { s1.hod with
        ptr := (k + 1) % 32, used := tset (fun _ => 0) w (tget (fun _ => 0) s.hod.used w + 1) s1.hod.used } }

/-- WINDOW retires: 0x2 where its BURSTS are used up. -/
def windowDo (idx : Nat) (s : State) : State :=
  onEntry .hod idx 1 (fun p t =>
    let full := decide (eBursts p.e ≠ 0) && decide (eBursts p.e ≤ tget (fun _ => 0) t.hod.used idx)
    retire .hod idx (if full then 2 else 1) t) s

/-! ## Errors (R383) -/

/-- The channel has the access in hand that failed. -/
def hasAccess (s : State) (k : Nat) (acc : HodAccess) : Bool :=
  let c := getCh s k
  let st := hodState s k
  match acc with
  | .fetch => decide (st = hFetch)
  | .writeback => decide (st = hFinish) && c.writing
  | .readback => decide (st = hFinish) && !c.writing && decide (c.inflight = [])
  | _ => (decide (st = hRun) || decide (st = hFinish)) && decide (c.inflight ≠ [])

/-- The failed access after its last retry. -/
def lastFailure (k : Nat) (acc : HodAccess) (s : State) : State :=
  let c := getCh s k
  match acc with
  | .fetch => hodHalt k 2 s
  | .writeback => hodHalt k 3 (setCh k { c with writing := false } s)
  | .readback => setCh k { getCh (endWith k 4 s) k with writing := true } s
  | .source => settleFinish k (setHod k hFinish (endWith k 2 (setCh k { c with inflight := [], failed := true } s)))
  | .destination => settleFinish k (setHod k hFinish (endWith k 3 (setCh k { c with inflight := [], failed := true } s)))

/-- HOD_BUS_ERROR: up to HOD_RETRY.COUNT retries, each counted. -/
def hodError (k : Nat) (acc : HodAccess) (s : State) : State :=
  if !hasAccess s k acc then s
  else
    let c := getCh s k
    let s1 := addF F.HOD_BUS_ERR_COUNT 1 s
    if c.tries < getF s F.HOD_RETRY_COUNT then
      addF (F.HOD_CH_RETRIES_COUNT k) 1 (setCh k { c with tries := c.tries + 1, retries := min 255 (c.retries + 1) } s1)
    else lastFailure k acc (setCh k { c with tries := 0 } s1)

/-- HOD_READBACK_DONE: the write-back follows (R380). -/
def readbackDone (k : Nat) (s : State) : State :=
  let c := getCh s k
  if hodState s k = hFinish ∧ c.inflight = [] ∧ c.writing = false then setCh k { c with writing := true, tries := 0 } s else s

/-- A write of HOD_CH_NEXT; in FETCH, RUN, PACE and FINISH it is ignored (R388). -/
def nextWrite (k : Nat) (hi : Bool) (v : W32) (s : State) : State :=
  let st := hodState s k
  if 1 ≤ st ∧ st ≤ 4 then hodIgnored k s
  else if hi then setR (Reg.HOD_CH_NEXT_HI k) v.toNat s
  else setR (Reg.HOD_CH_NEXT_LO k) (v.toNat / 32 * 32) s

/-- Channels in WAIT with POLL fetch again at a header beat. -/
def hodPoll (s : State) : State :=
  (List.range 32).foldl (fun t k =>
    if hodState t k = hWait ∧ isSet t (F.HOD_CH_CFG_POLL k) then setHod k hFetch t else t) s

/-- A write of HOD_CH_CTRL: the ABORT acts, and a START in the same cycle then meets the state it leaves (R384). -/
def ctrlCh (k : Nat) (v : W32) (s : State) : State :=
  let s1 := if bitsOf v.toNat 2 1 = 1 then abortCh k s else s
  let s2 := if bitsOf v.toNat 0 1 = 1 then (if bitsOf v.toNat 2 1 = 1 then hodIgnored k s1 else startCh k s1) else s1
  if bitsOf v.toNat 1 1 = 1 then kickCh k s2 else s2

/-- A channel number of the Hod. -/
def onCh (k : Nat) (f : State → State) (s : State) : State := if k < 32 then f s else s

def execHodStart (k : Nat) (s : State) : Res := .next (onCh k (guarded .onChip (Reg.HOD_CH_CTRL k) 1 (startCh k)) s)
def execHodKick (k : Nat) (s : State) : Res := .next (onCh k (guarded .onChip (Reg.HOD_CH_CTRL k) 2 (kickCh k)) s)
def execHodAbort (k : Nat) (s : State) : Res := .next (onCh k (guarded .onChip (Reg.HOD_CH_CTRL k) 4 (abortCh k)) s)
def execHodDescFetched (k : Nat) (d : HodDesc) (s : State) : Res := .next (onCh k (descFetched k d) s)
def execHodReqLineAssert (line : Nat) (s : State) : Res := .next (lineRises line s)
def execHodWithdrawal (k : Nat) (s : State) : Res := .next (onCh k (withdrawal k) s)
def execHodBusError (k : Nat) (acc : HodAccess) (s : State) : Res := .next (onCh k (hodError k acc) s)
def execHodSwreqWrite (v : W32) (s : State) : Res := .next (guarded .onChip Reg.HOD_SWREQ v (swreqWrite v) s)
def execHodChNextWrite (k : Nat) (hi : Bool) (v : W32) (s : State) : Res :=
  .next (onCh k (guarded .onChip (if hi then Reg.HOD_CH_NEXT_HI k else Reg.HOD_CH_NEXT_LO k) v (nextWrite k hi v)) s)
def execWindow (idx : Nat) (s : State) : Res := .next (windowDo idx s)

end Sys2Proof.Machine
end

