-- ==== Sys2Proof/Machine/Window.lean ====
section
/-!
DEFINITION. Machine/Window.lean: the management window (R10 to R13, R422 to R424, R492 to R502): what every register reads as,
what a read and a write of it do, and the paths that reach it.
-/

namespace Sys2Proof.Machine

/-! ## Words that the registers only show -/

def b2n (b : Bool) : Nat := if b then 1 else 0

/-- A source of a page with severity ERROR or above is asserted (BLK_STAT.FAULT). -/
def blockFault (s : State) (base : Nat) : Bool :=
  (List.range (pageBits base)).any (fun i => decide (3 ≤ sevOf s (srcOf base i)) && bitOn s base i)

/-- An operation of a block is in progress (BLK_STAT.BUSY). -/
def blockBusy (s : State) (ty : Nat) : Bool :=
  match ty with
  | 8 => isSet s (F.MAPMEM_RESTORE_ACTIVE 0)
  | 9 => isSet s F.SORT_STATUS_BUSY
  | 11 => s.hod.resetting
  | 13 => isSet s F.SEC_MBX_STATUS_BUSY
  | _ => false

/-- A block serves requests (BLK_STAT.READY): once a start has brought it up, and while it is enabled. -/
def blockReady (s : State) (base : Nat) : Bool :=
  decide (modeNow s ≠ 15) && !s.top.starting && isSet s (F.BLK_CTRL_ENABLE base)

/-- Words of the common page layout (R494). -/
def viewCommon (s : State) (ty base o : Nat) (awake : Bool) : Option Nat :=
  match o with
  | 0x0C => some (b2n (blockReady s base) + 2 * b2n (blockBusy s ty) + 4 * b2n awake + 8 * b2n (blockFault s base))
  | 0x10 => some (rawWord s base)
  | 0x14 => some (enWord s base)
  | 0x18 => some (pendWord s base)
  | _ => none

/-- The entry of a memory's log that LOG_SEL names: address, information, beat (R395). -/
def logView (s : State) (m sel k : Nat) : Nat :=
  match (getMem s m).log[sel]? with
  | none => 0
  | some e =>
    match k with
    | 0 => e.word % 2 ^ 32
    | 1 => e.syndrome % 32768 + 32768 + e.kind * 65536 + e.source * 262144
    | _ => e.beat

/-- The remap entry that REMAP_SEL names. -/
def remapView (s : State) (m g sel : Nat) : Nat :=
  match ((getMem s m).remaps.filter (fun r => decide (r.1 = g)))[sel]? with
  | some r => r.2 % 2 ^ 29 + 2 ^ 31
  | none => 0

/-- Decoders at work: reads whose codeword is with the decoder, at a hard or at a soft step. -/
def decoding (s : State) (soft : Bool) : Nat :=
  (s.map.rds.filter (fun p => decide (p.2.st = .fetched) && (decide (p.2.step = 2 ∨ p.2.step = 3) == soft))).length

/-- Sessions open on the storage binding, or on the management connections. -/
def sessionCount (s : State) (mgmt : Bool) : Nat :=
  (s.sec.spdm.filter (fun p => decide (64 ≤ p.1) == mgmt)).foldl (fun n p => n + p.2.sessions) 0

/-- The last signed seal epoch (R335). -/
def lastSealed (s : State) : Nat := ((s.mac.epochs.getLast?).map (·.epoch)).getD 0

/-- Bit k for each Hod channel in one of the states. -/
def hodMask (s : State) (f : Nat → Bool) : Nat :=
  (List.range 32).foldl (fun n k => if f (hodState s k) then n + 2 ^ k else n) 0

/-- Words of the pages of TOP to FAB that are computed. -/
def viewLow (s : State) (ty inst o w : Nat) : Option Nat :=
  match ty with
  | 1 => if o = 0x12C then some (s.top.ledgerSticky % 2 ^ 32) else none
  | 4 =>
    (match o with
     | 0x104 => some (lockState s + 8 * b2n (bgBeat s) + 16 * winHit s + 256 * ((Config.coreCycle s.freeCtr).toNat % 64)
         + 16384 * b2n (isSet s F.BEAT_WIN_APPLY_ARM) + 32768 * b2n (countValid s))
     | 0x108 => some (if countValid s then beatNow s % 2 ^ 32 else 0)
     | 0x110 => some (Config.coreCycle s.freeCtr).toNat
     | _ => none)
  | 5 =>
    if o = 0x100 then some (putBits w 1 1 (b2n (alertLow s)))
    else if o = 0x110 then some (putBits w 0 9 s.recd.intake.length)
    else if 0x200 ≤ o ∧ o < 0x220 then
      some ((List.range 32).foldl (fun n i => if srcOn s (32 * ((o - 0x200) / 4) + i) then n + 2 ^ i else n) 0)
    else none
  | 6 =>
    (match o with
     | 0x108 => some (putBits w 4 7 s.recd.fifo.length)
     | 0x10C => some s.recd.ring.length
     | 0x120 => some ((s.recd.ring.head?.map (·.seq)).getD 0)
     | _ => none)
  | 7 =>
    let m := o / 0x100
    (match o % 0x100 with
     | 0x30 => some (logView s m (getF s (F.MEMCHK_LOG_SEL_ENTRY m)) 0)
     | 0x34 => some (logView s m (getF s (F.MEMCHK_LOG_SEL_ENTRY m)) 1)
     | 0x38 => some (logView s m (getF s (F.MEMCHK_LOG_SEL_ENTRY m)) 2)
     | 0x44 => some (remapView s m (getF s (F.MEMCHK_REMAP_SEL_GROUP m)) (getF s (F.MEMCHK_REMAP_SEL_ENTRY m)))
     | _ => none)
  | 8 =>
    (match o with
     | 0x138 => some (logView s (16 + inst) (getF s (F.MAPMEM_LOG_SEL_ENTRY inst)) 0)
     | 0x13C => some (logView s (16 + inst) (getF s (F.MAPMEM_LOG_SEL_ENTRY inst)) 1)
     | 0x140 => some (logView s (16 + inst) (getF s (F.MAPMEM_LOG_SEL_ENTRY inst)) 2)
     | 0x148 => some (remapView s (16 + inst) 0 (getF s (F.MAPMEM_REMAP_SEL_ENTRY inst)))
     | _ => none)
  | _ => none

/-- Words of the other pages that are computed. -/
def viewHigh (s : State) (ty inst o w : Nat) : Option Nat :=
  match ty with
  | 11 =>
    if o = 0x1108 then some (hodMask s (fun x => decide (1 ≤ x ∧ x ≤ 4)))
    else if o = 0x110C then some (hodMask s (fun x => decide (x = hHalted)))
    else if o < 0x1100 ∧ o % 0x80 = 0x1C then some ((getCh s ((o - 0x100) / 0x80)).shown % 2 ^ 32)
    else none
  | 12 =>
    if o = 0x140 then some (lastSealed s % 2 ^ 32)
    else if 0x900 ≤ o ∧ o < 0xD00 then some (taggedOf s ((o - 0x900) / 16) ((o - 0x900) / 4 % 4))
    else none
  | 13 =>
    if o = 0x114 then some (sessionCount s false % 128 + 256 * (sessionCount s true % 16))
    else if 0x140 ≤ o ∧ o < 0x170 then some (bitsOf Config.deviceId.toNat (8 * (o - 0x140)) 32)
    else if 0x800 ≤ o then some (bufNat s (getF s F.SEC_MBX_BANK_BANK * 2048 + (o - 0x800)) 4)
    else none
  | 14 =>
    (match o with
     | 0x100 => some (getF s F.TOP_STRAP_PORT + 4 * getF s F.TOP_STRAP_SRIS + 8 * (if twoPort s then 31 else 63))
     | 0x108 => some (putBits w 10 6 (Config.ltssm s.freeCtr).toNat)
     | 0x110 => some (getR s (Reg.HOST_ATOMIC 0))
     | 0x114 => some (putBits w 1 1 (b2n (dwePending s inst)))
     | _ => none)
  | 15 =>
    (match o with
     | 0x10C => some (putBits w 0 5 s.map.ctxs.length)
     | 0x110 => some (s.map.jseq % 2 ^ 32)
     | 0x118 => some (s.map.jdur % 2 ^ 32)
     | 0x120 => some (s.map.wseq % 2 ^ 32)
     | 0x128 => some ((s.map.ckptNow.map (·.1)).getD 0)
     | _ => none)
  | 16 =>
    (match o with
     | 0x140 => some (putBits w 0 3 (trowelJob s))
     | 0x154 => some (erasedPool s)
     | _ => none)
  | 17 => if o = 0x108 then some (min 24 (decoding s false) + 32 * min 4 (decoding s true)) else none
  | 18 =>
    (match o with
     | 0x104 => some (2048 - slotsUsed s + 4096 * yardReserve s + 2 ^ 24 * getF s F.YARD_STATUS_CFG_REFUSED)
     | 0x108 => some (userPool s + 65536 * sharedFree s)
     | _ => none)
  | 20 =>
    (match o with
     | 0x12C => some (4 * inst + (List.range 4).foldl (fun n v =>
         if keyState s (4 * inst + v) = keyLoaded ∨ keyState s (4 * inst + v) = keyRetiring then n + 2 ^ (16 + v) else n) 0)
     | 0x14C => some (yardUse s inst)
     | 0x150 => some (inflight s inst)
     | 0x154 => some (coursesHeld s inst)
     | _ => none)
  | _ => none

/-- A word of the matcher's entry window (R161). -/
def sortWord (s : State) (i word : Nat) : Nat :=
  let e := getE s i
  if word < 3 then bitsOf e.key.toNat (32 * word) 32
  else if word < 6 then bitsOf e.care.toNat (32 * (word - 3)) 32
  else match word with
    | 6 => e.action.toNat
    | 7 => e.prio % 256 + 256 * b2n e.valid + 512 * b2n e.shadowed
    | 8 => e.hits
    | _ => 0

/-- The word that a read at a window address returns once its page is ready. -/
def viewWord (s : State) (a : Nat) (awake : Bool) : Nat :=
  if 0x100000 ≤ a ∧ a < 0x140000 then sortWord s ((a - 0x100000) / 64) (a % 64 / 4)
  else if 0x140000 ≤ a ∧ a < 0x141000 then (windowWord s (a - 0x140000)).toNat
  else match blockOf a, rowAt a with
    | some (ty, inst, base), some _ =>
      let w := getR s a
      if a - base < 0x30 then (viewCommon s ty base (a - base) awake).getD w
      else ((viewLow s ty inst (a - base) w).orElse (fun _ => viewHigh s ty inst (a - base) w)).getD w
    | _, _ => 0

/-! ## What a read does -/

/-- The value that the LO register at an address latches into its HI register (R62, R216, R335, R388, R491). -/
def latched (s : State) (a : Nat) : Option Nat :=
  match blockOf a with
  | some (1, _, _) => if a = Reg.TOP_LEDGER_BEAT_LO then some (s.top.ledgerSticky / 2 ^ 32) else none
  | some (4, _, _) => if a = Reg.BEAT_COUNT_LO then some (if countValid s then beatNow s / 2 ^ 32 else 0) else none
  | some (11, _, base) =>
    if a - base < 0x1100 ∧ (a - base) % 0x80 = 0x1C then some ((getCh s ((a - base - 0x100) / 0x80)).shown / 2 ^ 32) else none
  | some (12, _, _) => if a = Reg.MAC_SEAL_EPOCH_LO then some (lastSealed s / 2 ^ 32) else none
  | some (15, _, _) =>
    if a = Reg.COURSE_JSEQ_LO then some (s.map.jseq / 2 ^ 32)
    else if a = Reg.COURSE_JDUR_LO then some (s.map.jdur / 2 ^ 32)
    else if a = Reg.COURSE_WSEQ_LO then some (s.map.wseq / 2 ^ 32)
    else none
  | _ => none

/-- The RC fields of a register clear. -/
def clearRc (a : Nat) (s : State) : State :=
  match rowAt a with
  | some r => r.flds.foldl (fun t f => if f.acc = .rc then setF ⟨a, f.lo, f.w⟩ 0 t else t) s
  | none => s

/-- A read of ERR_INFO clears it and ERR_ADDR (R497). -/
def readErrInfo (base : Nat) (s : State) : State :=
  setR (Reg.ERR_ADDR_HI base) 0 (setR (Reg.ERR_ADDR_LO base) 0 (setR (Reg.ERR_INFO base) 0
    { s with errHeld := removeNat base s.errHeld }))

/-- A register whose reading is a free value. -/
def freeRead (a : Nat) : Bool :=
  decide (a = Reg.BEAT_STATUS) || decide (a = Reg.BEAT_CYCLE) || decide (a = Reg.HOST_LINK_STATUS 0)
    || decide (a = Reg.HOST_LINK_STATUS 1)

/-- The side effects of a read of one word. -/
def readEffect (a : Nat) (s : State) : State :=
  if 0x100000 ≤ a ∧ a < 0x140000 then
    let i := (a - 0x100000) / 64
    if a % 64 = 0x20 then
      { s with sort := { s.sort with shadow := tset sD i { getE s i with hits := 0 } s.sort.shadow } }
    else s
  else match blockOf a with
    | none => s
    | some (_, _, base) =>
      let s1 := match latched s a with
        | some h => setR (a + 4) h s
        | none => s
      let s2 := if a - base = 0x20 then readErrInfo base s1 else clearRc a s1
      let s3 := if a = Reg.KILN_TPEAK then { s2 with kiln := { s2.kiln with peak := none } } else s2
      if freeRead a then tick s3 else s3

/-- A read of one aligned word by a path: the data where it comes at once. -/
def readWord (path : Path) (a : Nat) (s : State) : Option Nat × State :=
  match reach s a with
  | .ok => (some (viewWord s a true), readEffect a s)
  | .disabled => (some 0xFFFFFFFF, accessDisabled a s)
  | .sleeping => (none, accessStall path a none s)

/-- A read whose data goes out to its path. -/
def readOut (path : Path) (a : Nat) (s : State) : State :=
  match readWord path a s with
  | (some v, t) => emit (.readData path a (BitVec.ofNat 32 v)) t
  | (none, t) => t

/-! ## What a write does -/

/-- The register after a write, field by field under the access codes of R11. -/
def writtenWord (r : RegRow) (old v : Nat) (locked : Bool) : Nat :=
  r.flds.foldl (fun w f =>
    let x := bitsOf v f.lo f.w
    let o := bitsOf old f.lo f.w
    match f.acc with
    | .rw => putBits w f.lo f.w x
    | .rws => putBits w f.lo f.w x
    | .rwl => if locked then w else putBits w f.lo f.w x
    | .w1c => putBits w f.lo f.w (Nat.land o (2 ^ f.w - 1 - x))
    | .w1s => putBits w f.lo f.w (Nat.lor o x)
    | _ => w) old

/-- Sources that an enable write has asserted act as newly asserted, without an occurrence (R448). -/
def nowAsserted (base : Nat) (s0 s : State) : State :=
  (List.range (pageBits base)).foldl (fun t i =>
    if srcOn s (srcOf base i) && !srcOn s0 (srcOf base i) then onAssert (srcOf base i) t else t) s

/-- A write to a register that has no rule of its own (R11). -/
def plainWrite (a v : Nat) (s : State) : State :=
  match blockOf a, rowAt a with
  | some (_, _, base), some r =>
    let s1 := setR a (writtenWord r (getR s a) v (isSet s (F.BLK_LOCK_LOCK base))) s
    if causePage base then nowAsserted base s s1 else s1
  | _, _ => s

/-- TOP_COMPAT (R488). -/
def compatWrite (v : Nat) (s : State) : State :=
  let x := bitsOf v 8 8
  let s1 := if bitsOf v 24 1 = 1 then setF F.TOP_COMPAT_REFUSED 0 s else s
  if getF s F.TOP_COMPAT_MAX < x ∨ x < s.sec.running.compatMin ∨ s.sec.running.compatMax < x then
    happen baseTop 7 (setF F.TOP_COMPAT_REFUSED 1 s1)
  else setF F.TOP_COMPAT_REQUEST x { s1 with top := { s1.top with compatNv := x } }

/-- TOP_CTRL.RESTART: the drain begins, and the start follows it (R471). -/
def restartWrite (s : State) : State :=
  if !running s ∨ grouting s then s
  else { s with top := { s.top with startDue := some 4, target := some 4, requested := true } }

/-- TOP_CTRL.LEDGER_CLEAR (R478). -/
def ledgerClear (s : State) : State := setF F.TOP_LEDGER_FAILS_FAILS 0 s

def topCtrl (v : Nat) (s : State) : State :=
  let s1 := if bitsOf v 1 1 = 1 then ledgerClear s else s
  if bitsOf v 0 1 = 1 then restartWrite s1 else s1

/-- REC_CTRL: FREEZE and THAW in one write are ignored (R470). -/
def recCtrlWrite (v : Nat) (s : State) : State :=
  let s1 := match bitsOf v 0 2 with
    | 1 => startFreeze 3 s
    | 2 => thaw 0 s
    | _ => s
  let s2 := if bitsOf v 2 1 = 1 then recNextDo s1 else s1
  if bitsOf v 3 1 = 1 then snapshot s2 else s2

/-- SORT_CMD (R172, R180); a reserved operation is ignored. -/
def sortCmdWrite (v : Nat) (s : State) : State :=
  let i := bitsOf v 0 12
  let j := bitsOf v 12 12
  match bitsOf v 24 3 with
  | 2 => insertDo i j s
  | 3 => deleteDo i j s
  | 4 => invalidateDo i j s
  | 5 => saveDo s
  | _ => s

/-- TILE_CMD; a reserved operation is ignored (R88). -/
def tileCmdWrite (t v : Nat) (s : State) : State :=
  let op := bitsOf v 0 3
  if 1 ≤ op ∧ op ≤ 5 ∧ running s then (tileOp t op [] s).2 else s

/-- HOST_LINK_CTRL: port B offers no L1 substates (R128). -/
def linkCtrlWrite (p v : Nat) (s : State) : State :=
  let s1 := plainWrite (Reg.HOST_LINK_CTRL p) (if p = 0 then v else putBits v 5 1 0) s
  if bitsOf v 3 1 = 1 then retrain p s1 else s1

/-- MAPMEM_CFG: RETRAIN begins a training, whose outcome MAPMEM_RETRAIN gives. -/
def mapCfgWrite (c v : Nat) (s : State) : State :=
  let s1 := plainWrite (Reg.MAPMEM_CFG c) v s
  if bitsOf v 2 1 = 1 ∧ getF s (F.MAPMEM_STATUS_STATE c) = 2 then setF (F.MAPMEM_STATUS_STATE c) 1 s1 else s1

/-! ## BLK_CTRL (R422, R495) -/

/-- The Hod's soft reset ends once every channel is IDLE: its fields take their reset values, save those coded RWS, and no
descriptor is in hand. -/
def hodReset (s : State) : State :=
  if s.hod.resetting && (List.range 32).all (fun k => decide (hodState s k = hIdle)) then
    let hodPage (a : Nat) : Bool := decide (baseHod ≤ a) && decide (a < baseHod + 0x2000)
    { s with
      regs := s.regs.filter (fun p => !hodPage p.1)
      errHeld := removeNat baseHod s.errHeld
      hod := { s.hod with chs := [], ptr := 0, used := [], rem := 0, resetting := false } }
  else s

/-- SOFT_RESET acts in the Hod only: ABORT to every channel, then the reset (R495). -/
def softReset (base : Nat) (s : State) : State :=
  if base ≠ baseHod ∨ isSet s (F.BLK_LOCK_LOCK base) then s
  else hodReset ((List.range 32).foldl (fun t k => abortCh k t) { s with hod := { s.hod with resetting := true } })

/-- A channel is in FETCH, RUN, PACE, FINISH or WAIT. -/
def hodInUse (s : State) : Bool := (List.range 32).any (fun k => decide (hodState s k ≠ hIdle) && decide (hodState s k ≠ hHalted))

/-- ENABLE is writable in the Hod only. -/
def enableWrite (base : Nat) (on : Bool) (s : State) : State :=
  if base ≠ baseHod then s
  else if !on && hodInUse s then noteErr base 0xF2 0 (Reg.BLK_CTRL base) s
  else setF (F.BLK_CTRL_ENABLE base) (b2n on) s

/-- A vote of the Hod or of port B's page: its domain goes off when the vote is 0b10, after a drain, and comes back with the
vote gone (R422, R425). -/
def voteDomain (base : Nat) : Option Nat :=
  if base = baseHod then some 6 else if base = baseHost 1 then some 2 else none

def domainUp (d : Nat) (s : State) : State := { s with top := { s.top with waking := insertNat d s.top.waking } }

def voteWrite (base v : Nat) (s : State) : State :=
  let s1 := setF (F.BLK_CTRL_POWER_VOTE base) v s
  match voteDomain base with
  | none => s1
  | some d =>
    if v = 2 then
      if bitsOf (getF s F.PWR_DOM_STAT_ON) d 1 = 1 then
        { s1 with top := { s1.top with drains := insertNat d s1.top.drains, woken := removeNat d s1.top.woken } }
      else s1
    else
      let s2 := { s1 with top := { s1.top with drains := removeNat d s1.top.drains } }
      if bitsOf (getF s F.PWR_DOM_STAT_ON) d 1 = 0 ∧ powerNow s ≤ 1 ∧ (d = 6 ∨ twoPort s) then domainUp d s2 else s2

/-- A write of BLK_CTRL. -/
def blkCtrlWrite (base v : Nat) (s : State) : State :=
  let s1 := voteWrite base (bitsOf v 2 2) s
  let s2 := enableWrite base (decide (bitsOf v 0 1 = 1)) s1
  if bitsOf v 1 1 = 1 then softReset base s2 else s2

/-- A domain that drains for a vote has come to rest: for the Hod no channel in RUN, PACE or FINISH; it is powered down, and
a channel in WAIT returns to IDLE (R384, R425). -/
def drainIdle (s : State) (d : Nat) : Bool :=
  if d = 6 then (List.range 32).all (fun k =>
    decide (hodState s k ≠ hRun) && decide (hodState s k ≠ hPace) && decide (hodState s k ≠ hFinish))
  else !isSet s (F.HOST_LINK_STATUS_UP 1)

def voteDown (d : Nat) (s : State) : State :=
  if !drainIdle s d ∨ 1 < powerNow s then s
  else
    let s1 := if d = 6 then (List.range 32).foldl (fun t k => if hodState t k = hWait then setHod k hIdle t else t) s else s
    let on := getF s F.PWR_DOM_STAT_ON
    setF F.PWR_DOM_STAT_ON (putBits on d 1 0) { s1 with top := { s1.top with drains := removeNat d s1.top.drains } }

/-- Every drain for a vote that can end, ends. -/
def voteDrains (s : State) : State := s.top.drains.foldl (fun t d => voteDown d t) s

/-! ## The dispatch of a write -/

/-- A write of a word of the common layout. -/
def writeCommon (base o v : Nat) (s : State) : State :=
  match o with
  | 0x08 => blkCtrlWrite base v s
  | 0x14 => enWrite base (BitVec.ofNat 32 v) s
  | 0x18 => pendWrite base (BitVec.ofNat 32 v) s
  | 0x1C => forceWrite base (BitVec.ofNat 32 v) s
  | 0x2C => plainWrite (base + o) v s
  | _ => s

/-- Writes of TOP to FAB that have a rule of their own. -/
def writeLow (ty inst o v : Nat) : Option (State → State) :=
  let w : W32 := BitVec.ofNat 32 v
  match ty with
  | 1 => if o = 0x114 then some (compatWrite v) else if o = 0x118 then some (topCtrl v) else none
  | 3 => if o = 0x100 then some (minLevelWrite w) else none
  | 4 =>
    (match o with
     | 0x100 => some (ctrlWrite w)
     | 0x118 => some (offsetWrite w)
     | 0x11C => some (originWrite false w)
     | 0x120 => some (originWrite true w)
     | _ => none)
  | 5 =>
    if 0x400 ≤ o ∧ o < 0x800 then some (routeWrite ((o - 0x400) / 4) w)
    else if o = 0x20F0 then some (fwRaise w)
    else none
  | 6 => if o = 0x100 then some (recCtrlWrite v) else if o = 0x110 then some (recCursorDo v) else none
  | 8 => if o = 0x100 then some (mapCfgWrite inst v) else none
  | 9 => if o = 0x100 then some (sortCfg w) else if o = 0x104 then some (sortCmdWrite v) else none
  | _ => none

/-- Writes of the other pages that have a rule of their own. -/
def writeHigh (path : Path) (ty inst o v : Nat) (s : State) : Option (State → State) :=
  let w : W32 := BitVec.ofNat 32 v
  match ty with
  | 11 =>
    if o = 0x1104 then some (swreqWrite w)
    else if 0x1100 ≤ o then none
    else (match o % 0x80 with
      | 0x00 => some (ctrlCh ((o - 0x100) / 0x80) w)
      | 0x14 => some (nextWrite ((o - 0x100) / 0x80) false w)
      | 0x18 => some (nextWrite ((o - 0x100) / 0x80) true w)
      | _ => none)
  | 13 =>
    if o = 0x180 then some (mbxWrite path v)
    else if (0x188 ≤ o ∧ o < 0x1A8) ∨ 0x800 ≤ o then
      if isSet s F.SEC_MBX_STATUS_BUSY then some id
      else if 0x800 ≤ o then some (putBuf (getF s F.SEC_MBX_BANK_BANK * 2048 + (o - 0x800)) (leBytes 4 v))
      else none
    else none
  | 14 =>
    (match o with
     | 0x104 => some (linkCtrlWrite inst v)
     | 0x110 => if inst = 1 then some id else none
     | _ => none)
  | 16 => if o = 0x104 then some (budgetWrite w) else none
  | 18 => if o = 0x100 then some (yardCfg w) else none
  | 20 =>
    if o = 0x104 then some (tileCmdWrite inst v)
    else if 0x108 ≤ o ∧ o ≤ 0x128 then some (stageWrite inst (baseTile inst + o) v)
    else none
  | _ => none

/-- A write of one aligned word whose page is ready. -/
def writeWord (path : Path) (a v : Nat) (s : State) : State :=
  if 0x100000 ≤ a ∧ a < 0x140000 then
    let i := (a - 0x100000) / 64
    if a % 64 = 0x1C then commitEntry i (BitVec.ofNat 32 v) s else stageWord i (a % 64 / 4) (BitVec.ofNat 32 v) s
  else match blockOf a, rowAt a with
    | some (ty, inst, base), some _ =>
      let o := a - base
      if o < 0x30 then writeCommon base o v s
      else match (writeLow ty inst o v).orElse (fun _ => writeHigh path ty inst o v s) with
        | some f => f s
        | none => plainWrite a v s
    | _, _ => s

/-- A partial write (R499): it lands in SEC_MBX_DATA and EVT_FW_BODY, and is dropped and reported elsewhere; `bytes` are the
bytes of the word that it covers, bit j for byte j. -/
def partialWrite (a v bytes : Nat) (s : State) : State :=
  let keep (old : Nat) : Nat := (List.range 4).foldl (fun w j =>
    if bitsOf bytes j 1 = 1 then putBits w (8 * j) 8 (bitsOf v (8 * j) 8) else w) old
  if 0x100000 ≤ a ∧ a < 0x140000 then noteErr baseSort 0xF0 ((a - 0x100000) / 4) a s
  else match blockOf a with
    | none => s
    | some (ty, _, base) =>
      let o := a - base
      if (ty = 13 ∧ 0x800 ≤ o) ∨ (ty = 5 ∧ 0x2000 ≤ o ∧ o < 0x20F0) then
        writeWord .onChip a (keep (viewWord s a true)) s
      else noteErr base 0xF0 (o / 4) a s

/-- A write by a path of the bytes of one word; whole words take effect under R11, and a page that sleeps or is disabled
answers under R423 and R424. -/
def writeAccess (path : Path) (a v bytes : Nat) (s : State) : State :=
  match reach s a with
  | .ok => if bytes % 16 = 15 then writeWord path a v s else partialWrite a v bytes s
  | .disabled => accessDisabled a s
  | .sleeping => stallBytes path a (some (BitVec.ofNat 32 v, bytes % 16)) s

/-! ## Management Read and Write (R123, R500) -/

/-- The words of a Management Read or Write, one after another, as far as the first that stalls. -/
def mgmtWords (path : Path) (write : Bool) : Nat → Nat → List W32 → List Byte → State →
    (Option (Nat × Nat × List W32)) × List Byte × State
  | 0, _, _, data, s => (none, data, s)
  | n + 1, a, ws, data, s =>
    match reach s a with
    | .sleeping =>
      (some (a, n + 1, ws), data, accessStall path a (if write then some (ws.headD 0) else none) s)
    | _ =>
      if write then mgmtWords path write n (a + 4) ws.tail data (writeAccess path a (ws.headD 0).toNat 15 s)
      else
        let (v, s1) := readWord path a s
        mgmtWords path write n (a + 4) ws (data ++ leBytes 4 (v.getD 0xFFFFFFFF)) s1

/-- The end of a Management Read or Write, or of the Rirus message that carried it. -/
def mgmtEnd (cmd : Option Nat) (tag : Nat) (data : List Byte) (s : State) : State :=
  match cmd with
  | some i => if hasCmd s i then ready i stOk 0 data s else s
  | none => emit (.rirus tag 0 data) s

/-- It goes on from a word; where that stalls it waits (R423). -/
def mgmtGo (path : Path) (cmd : Option Nat) (tag a n : Nat) (write : Bool) (ws : List W32) (data : List Byte) (s : State) : State :=
  match mgmtWords path write n a ws data s with
  | (none, d, t) => mgmtEnd cmd tag d t
  | (some (b, k, l), d, t) =>
    { t with top := { t.top with mgmt := t.top.mgmt ++
      [{ cmd := cmd, tag := tag, addr := b, left := k, write := write, words := l, data := d }] } }

/-- The path of a Management Read or Write: its port, or the sideband. -/
def mgmtPath (s : State) (m : MgmtWait) : Path :=
  match m.cmd with
  | some i => if portOf s (getCmd s i).h.fn = 1 then .portB else .portA
  | none => .sideband

/-- Those that wait go on. -/
def mgmtResume (s : State) : State :=
  s.top.mgmt.foldl (fun t m => mgmtGo (mgmtPath t m) m.cmd m.tag m.addr m.left m.write m.words m.data t)
    { s with top := { s.top with mgmt := [] } }

def windowSize : Nat := 0x4000000

/-- MANAGEMENT_READ and MANAGEMENT_WRITE. -/
def mgmtCmd (h : CmdHead) (op off count : Nat) (write : Bool) (words : List W32) (s : State) : State :=
  adminCmd h op true true true true (fun t =>
    if off % 4 ≠ 0 ∨ windowSize < off + 4 * count ∨ count = 0 ∨ 1024 < count then answer h (.admin op) stField 0 [] t
    else
      let (i, t1) := allocCmd { cmdOf h (.admin op) t with st := .working } t
      mgmtGo (if portOf t h.fn = 1 then .portB else .portA) (some i) 0 off count write words [] t1) s

/-! ## A sleeping domain wakes (R423, R427) -/

/-- The stalled accesses of the domains that are ready now complete, in the order they came. -/
def releaseStalled (s : State) : State :=
  let go := s.top.stalled.filter (fun x => decide (reach s x.2.1 = .ok))
  let s1 := { s with top := { s.top with stalled := s.top.stalled.filter (fun x => decide (reach s x.2.1 ≠ .ok)) } }
  let mine (t : State) (x : Path × Nat × Option (W32 × Nat)) : Bool :=
    t.top.mgmt.any (fun m => decide (m.addr = x.2.1) && decide (m.write = x.2.2.isSome))
  mgmtResume (go.foldl (fun t x =>
    if mine t x then t
    else match x.2.2 with
      | some (v, bytes) =>
        if bytes = 15 then writeWord x.1 x.2.1 v.toNat t else partialWrite x.2.1 v.toNat bytes t
      | none => emit (.readData x.1 x.2.1 (BitVec.ofNat 32 (viewWord t x.2.1 false))) (readEffect x.2.1 t)) s1)

def domainWoken (s : State) : State := releaseStalled (wakeDone s)

/-- A stalled word of a Management Read or Write ends after 900 µs: a read brings all ones, a write is dropped, and the next
word follows. -/
def mgmtTimeout (a : Nat) (isWrite : Bool) (s : State) : State :=
  match s.top.mgmt.find? (fun m => decide (m.addr = a) && decide (m.write = isWrite)) with
  | none => s
  | some m =>
    let s1 := { s with top := { s.top with mgmt := s.top.mgmt.erase m } }
    mgmtGo (mgmtPath s m) m.cmd m.tag (a + 4) (m.left - 1) m.write m.words.tail
      (if m.write then m.data else m.data ++ leBytes 4 0xFFFFFFFF) s1

/-! ## The rows -/

/-- A command with an address outside the 64 MiB window has no access to make. -/
def inWindow (a : Nat) (f : State → State) (s : State) : Res :=
  if a < windowSize then .next (f s) else .fault .outsideWindow

/-- A page of the common layout. -/
def onPage (base : Nat) (f : State → State) (s : State) : Res :=
  if windowSize ≤ base then .fault .outsideWindow
  else .next (if isPage base then f s else s)

/-- A row that is one access to a page of the common layout. -/
def blkRow (base o v : Nat) (f : State → State) (s : State) : Res :=
  onPage base (guarded .onChip (base + o) (BitVec.ofNat 32 v) f) s

def execBlkSoftReset (base : Nat) (s : State) : Res := blkRow base 8 2 (softReset base) s
def execBlkEnableWrite (base : Nat) (v : W32) (s : State) : Res :=
  blkRow base 8 v.toNat (enableWrite base (decide (bitsOf v.toNat 0 1 = 1))) s
def execBlkPowerVoteWrite (base : Nat) (v : W32) (s : State) : Res :=
  blkRow base 8 v.toNat (voteWrite base (bitsOf v.toNat 2 2)) s
def execBlkLockSet (base : Nat) (s : State) : Res := blkRow base 0x2C 1 (setF (F.BLK_LOCK_LOCK base) 1) s
def execErrInfoRead (base : Nat) (s : State) : Res := onPage base (readOut .onChip (Reg.ERR_INFO base)) s
def execRcCounterRead (a : Nat) (s : State) : Res := inWindow a (readOut .onChip (a / 4 * 4)) s
def execLatchingLoRead (a : Nat) (s : State) : Res := inWindow a (readOut .onChip (a / 4 * 4)) s
def execDisabledBlockAccess (a : Nat) (isWrite : Bool) (s : State) : Res :=
  inWindow a (fun t =>
    if reach t a = .disabled then
      if isWrite then accessDisabled a t else emit (.readData .onChip a 0xFFFFFFFF) (accessDisabled a t)
    else t) s
def execRegisterWrite (path : Path) (a : Nat) (v : W32) (bytes : Nat) (s : State) : Res :=
  inWindow a (writeAccess path (a / 4 * 4) v.toNat bytes) s
def execManagementRead (h : CmdHead) (offset count : Nat) (s : State) : Res :=
  .next (mgmtCmd h 0xC2 offset count false [] s)
def execManagementWrite (h : CmdHead) (offset : Nat) (words : List W32) (s : State) : Res :=
  .next (mgmtCmd h 0xC5 offset words.length true words s)
def execDomainWakeDone (s : State) : Res := .next (domainWoken s)
def execAccessStallTimeout (addr : Nat) (isWrite : Bool) (s : State) : Res :=
  .next (mgmtTimeout addr isWrite (stallTimeout addr isWrite s))
def execTopCompatWrite (v : W32) (s : State) : Res :=
  .next (guarded .onChip Reg.TOP_COMPAT v (compatWrite v.toNat) s)
def execTopLedgerClear (s : State) : Res := .next (guarded .onChip Reg.TOP_CTRL 2 ledgerClear s)
def execTopRestart (s : State) : Res := .next (guarded .onChip Reg.TOP_CTRL 1 restartWrite s)

end Sys2Proof.Machine
end

