-- ==== Sys2Proof/Machine/Boundary.lean ====
section
/-!
DEFINITION. Machine/Boundary.lean: beat boundaries and header beats (R31 to R37, R42 to R45), the operating mode (R482), the
journal flush point (R210), the epoch boundary (R212, R256, R325) and the freeze of the map by a grout (R285).
-/

namespace Sys2Proof.Machine

/-! ## The check of a sealed plan (R37) -/

/-- Slots of a beat that carry channel bus time (R42). -/
def busSlots (beat : Nat) : Nat := if beat % 64 = 0 then 59 else 63

/-- An entry's slot is lower than that of the entry before it. -/
def slotsFall : List PlanEntry → Bool
  | e :: f :: r => decide (f.slot < e.slot) || slotsFall (f :: r)
  | _ => false

/-- Two bus intervals overlap; the slots rise. -/
def busOverlap : Nat → List PlanEntry → Bool
  | _, [] => false
  | n, e :: r => if e.len = 0 then busOverlap n r else decide (e.slot < n) || busOverlap (e.slot + e.len) r

/-- An entry's bus time reaches into a reserved slot. -/
def pastBus (beat : Nat) (e : PlanEntry) : Bool := decide (e.len ≠ 0) && decide (busSlots beat < e.slot + e.len)

/-- JOIN where it may not be: not after a READ_PAGE of the same LUN and slot, on a plane that an entry of the same read
names, or with independent-plane reads off. -/
def joinBad (s : State) (ch : Nat) (ents : List PlanEntry) (i : Nat) (e : PlanEntry) : Bool :=
  if !e.join then false
  else if i = 0 ∨ isSet s (F.FCH_READ_CFG_INDEP_PLANE ch) = false then true
  else match ents[i - 1]? with
    | none => true
    | some d =>
      let j := joinStart ents (i - 1)
      !(decide (d.op = 1) && decide (e.op = 1) && decide (eLun d = eLun e) && decide (d.slot = e.slot))
        || ((ents.drop j).take (i - j)).any (fun x => decide (Nat.land (eMask x) (eMask e) ≠ 0))

/-- An entry names a LUN: all but NOP and COURSE_STEP, which act on none. -/
def namesLun (e : PlanEntry) : Bool := decide (e.op ≠ 0) && decide (e.op ≠ 0xC)

/-- The checks that depend on the unit's kind. -/
def unitBad (s : State) (u : PlanUnit) (beat : Nat) (ents : List PlanEntry) : Bool :=
  match u with
  | .fch ch =>
    (List.range ents.length).any (fun i => match ents[i]? with
      | some e => joinBad s ch ents i e
      | none => false)
      || busOverlap 0 ents || ents.any (pastBus beat) || ents.any (fun e => namesLun e && lunLost s ch (eLun e))
  | .hod => ents.any (pastBus beat)
  | _ => false

/-- A sealed plan for a beat is invalid. -/
def planBad (s : State) (u : PlanUnit) (beat : Nat) (b : PlanBuf) : Bool :=
  let ents := b.ents.map (·.e)
  decide (b.target ≠ beat % 2 ^ 32) || decide (bufLimit u < ents.length) || slotsFall ents
    || ents.any (fun e => decide (opLimit u < e.op)) || unitBad s u beat ents

/-! ## What each unit runs (R35, R43 to R45) -/

/-- The units that have plans: a lost channel has none. -/
def planUnits (s : State) : List PlanUnit :=
  let chs := (List.range (width s)).filter (fun ch => !chLost s ch)
  chs.map PlanUnit.fch ++ chs.map PlanUnit.lane ++ (List.range 8).map PlanUnit.mac ++ [.poster 0, .poster 1, .hod]

/-- The plan of a unit for the next beat, sealed at this boundary, is checked. -/
def sealUnit (s : State) (u : PlanUnit) : State :=
  let n := beatNow s + 1
  let b := getBuf s u n
  if b.valid && !b.invalid && planBad s u n b then happen baseBeat 1 (setBuf u n { b with invalid := true } s) else s

/-- The STATUS entry of a channel's holding plan for a LUN. -/
def statusEnt (slot lun : Nat) : PEnt :=
  plainEnt { slot := min slot 62, cls := 0, len := 0, join := false, op := 7, body := lun / 8 + lun % 8 * 8, ticket := 0
             tile := 0 }

/-- LUNs of a channel with an operation in flight, in order. -/
def busyLuns (s : State) (ch : Nat) : List Nat :=
  (s.map.luns.filter (fun p => decide (p.1 / lunsPerCh = ch) && p.2.op.isSome)).map (fun p => p.1 % lunsPerCh)

/-- The entries of a unit's holding plan (R43). -/
def holdingPlan (s : State) (u : PlanUnit) : List PEnt :=
  match u with
  | .fch ch => (busyLuns s ch).mapIdx statusEnt
  | _ => []

/-- A unit has a valid committed plan for the present beat. -/
def hasPlan (s : State) (u : PlanUnit) : Bool :=
  let b := getBuf s u (beatNow s)
  b.valid && !b.invalid && decide (b.target = beatNow s % 2 ^ 32)

/-- Between a bank switch and the end of the pause, holding beats are not counted (R358). -/
def lateExempt (s : State) : Bool :=
  match s.sec.act with
  | some a => (decide (a.phase = 2) || decide (a.phase = 3) || decide (a.phase = 5)) && decide (a.h + 64 ≤ beatNow s)
  | none => false

/-- The run of holding beats of a unit that is a channel. -/
def setRun (u : PlanUnit) (n : Nat) (s : State) : State :=
  match u with
  | .fch ch => { s with beat := { s.beat with holdRun := tset zeroD ch n s.beat.holdRun } }
  | _ => s

def holdRunOf (s : State) (u : PlanUnit) : Nat :=
  match u with
  | .fch ch => tget zeroD s.beat.holdRun ch
  | _ => 0

/-- A unit starts its plan for the present beat, or its holding plan. -/
def startUnit (s : State) (u : PlanUnit) : State :=
  if hasPlan s u then setRun u 0 s
  else
    let b := getBuf s u (beatNow s)
    let s1 := setBuf u (beatNow s) { b with
      target := beatNow s % 2 ^ 32, held := true, done := false, ents := holdingPlan s u } s
    if lateExempt s then s1 else setRun u (holdRunOf s u + 1) s1

/-- A writer whose unit runs a holding plan is late: counted once a beat, BEAT_PLAN_LATE once a frame (R44). -/
def lateWriter (s : State) (w : Nat) : State :=
  oncePerFrame (2000 + w) (happen baseBeat 0) (addF (F.BEAT_LATE_COUNT w) 1 s)

/-- The writers that are late in the present beat. -/
def lateWriters (s : State) : List Nat :=
  if lateExempt s then []
  else ((planUnits s).filter (fun u => (getBuf s u (beatNow s)).held)).foldl (fun l u => insertNat (writerOf s u) l) []

/-- The open buffers of the present beat are empty (R34). -/
def openBuffers (s : State) : State :=
  { s with beat := { s.beat with plans := s.beat.plans.filter (fun p => decide (p.1 % 4 ≠ (beatNow s + 2) % 4)) } }

/-- The plan pipeline at a beat boundary. -/
def pipeline (s : State) : State :=
  let s1 := (planUnits s).foldl sealUnit s
  let s2 := (planUnits s1).foldl startUnit (openBuffers s1)
  (lateWriters s2).foldl lateWriter s2

/-! ## The operating mode (R482) -/

/-- The mode that the causes give. -/
def derivedMode (s : State) : Nat :=
  let c := getR s Reg.TOP_MODE_CAUSE
  if bitsOf c 0 3 ≠ 0 then modeRecovery
  else if bitsOf c 3 1 ≠ 0 then modeSanitize
  else if bitsOf c 4 3 ≠ 0 then modeEvacuate
  else if bitsOf c 7 4 ≠ 0 then modeDegraded
  else getF s F.TOP_MODE_BASE

/-- A change of mode: TOP_MODE_CHANGE, asynchronous event 0x82, and the power states that the old mode held (R23). -/
def modeStep (s : State) : State :=
  let m := derivedMode s
  if modeNow s = 15 ∨ m = modeNow s then s
  else releasePs (driveAen (happen baseTop 0 (setF F.TOP_MODE_MODE m s)))

/-! ## The freeze (R285) -/

/-- The yard slots that the map names, as the grout saves them (R287). -/
def namedSlots (s : State) : Tbl Slot :=
  s.map.slots.filter (fun p => !p.2.reloc && named s p.1
    && (decide (p.2.st = .filling) || decide (p.2.st = .staged) || decide (p.2.st = .laid)))

/-- At the boundary after the beat of recognition the map is frozen, what the grout is to hold is fixed, and the plans are
discarded. -/
def freezeMap (s : State) : State :=
  match s.grout.beat, s.grout.img with
  | some n, some img =>
    if s.grout.frozen ∨ beatNow s ≤ n then s
    else if !s.map.loaded then { s with beat := { s.beat with plans := [] }, grout := { s.grout with frozen := true } }
    else { s with
      beat := { s.beat with plans := [] }
      grout := { s.grout with frozen := true, img := some { img with
        wseqNext := s.map.wseq, jseqFirst := s.map.jdur + 1, jseqNext := s.map.jseq, slots := namedSlots s
        tail := s.map.tail } } }
  | _, _ => s

/-! ## Journal, checkpoint and audits -/

/-- The checkpoint segment to be laid: one owed for lost records first (R407), then the epoch's (R212). -/
def nextSegment (s : State) : Option (Nat × Nat) :=
  match s.mems.owedSegs with
  | g :: _ => some (g, s.map.jseq)
  | [] => s.map.ckptNow

/-- A checkpoint segment is laid on a free context, one at a time. -/
def layCkpt (s : State) : State :=
  let laying := s.map.ctxs.any (fun p => match p.2.kind with
    | .ckpt _ _ => true
    | _ => false)
  match laying, nextSegment s, (List.range 16).find? (fun i => !hasCtx s i) with
  | false, some (g, q), some i =>
    setF F.COURSE_CKPT_POS_SEGMENT g (setCtx i { ctx0 with kind := .ckpt g q, doneBeat := beatNow s }
      { s with mems := { s.mems with owedSegs := s.mems.owedSegs.drop 1 } })
  | _, _, _ => s

/-- Key operations that take effect at a beat boundary (R315, R318, R320). -/
def keyBoundary (s : State) : State :=
  let s1 := s.mac.eraseDue.foldl (fun t k => eraseEffect k t) s
  macResume ((s1.mac.curDue.map (·.1)).foldl (fun t k => currentSwitch k t) s1)

/-- Tiles with borrowed demand gain credit (R75). -/
def gainCredit (s : State) : State :=
  { s with tiles := { s.tiles with
      credit := s.tiles.demand.foldl (fun t k => tset zeroD k (tget zeroD t k + 16 * getF s (F.TILE_DIE_SHARE_WEIGHT k)) t) s.tiles.credit
      demand := [] } }

/-- The shadow walk of 65,536 cycles has ended by the third beat of its frame (R176). -/
def walkEnd (s : State) : State :=
  if s.sort.walking && decide (3 ≤ beatNow s % 64) then
    addF F.SORT_WALKS_COUNT 1 { s with sort := { s.sort with walking := false } }
  else s

/-- Seal stacks that catch up after a start (R325). -/
def catchUps (s : State) : State := s.mac.behind.foldl (fun t z => catchUp (z / 2 ^ 20) (z % 2 ^ 20) t) s

/-- A drain under R24 is under way: toward Sleep, Deep sleep or Off, or for TOP_CTRL.RESTART. -/
def draining (s : State) : Bool :=
  match s.top.target with
  | some k => decide (2 ≤ k)
  | none => false

/-- A drain moves staged data to pallets (R201). -/
def drainPallets (s : State) : State :=
  if draining s then (s.map.slots.filterMap (·.2.course)).foldl (fun t c => palletMove c t) s else s

/-- Work that a beat boundary lets go on while the map may change. -/
def settleBeat (s : State) : State :=
  if s.map.loaded then catchUps (settleAudits (settleActs (layFlush (layCkpt (drainPallets s))))) else s

/-! ## The boundary -/

/-- The count runs: valid, in Run or Idle (R31). -/
def countRuns (s : State) : Bool := countValid s && !asleep s && !s.top.off

/-- The count rises by one, and what is counted by the beat begins anew. -/
def nextBeat (s : State) : State :=
  { s with
    beat := { s.beat with count := s.beat.count + 1, once := [] }
    host := { s.host with urgent := [] }
    hod := { s.hod with used := [] } }

/-- What a boundary does in a part that runs. -/
def boundaryWork (s : State) : State :=
  let s1 := modeStep (freezeMap s)
  let s2 := gainCredit (voteDrains (walkEnd (showEngines (kilnBoundary s1))))
  if s2.grout.frozen then s2
  else
    let s3 := keyBoundary s2
    settleBeat (if powerNow s3 = 0 then pipeline s3 else s3)

/-- BEAT_BOUNDARY. -/
def beatBoundaryDo (s : State) : State :=
  if !countRuns s then s
  else
    let s1 := nextBeat s
    if running s1 then boundaryWork s1 else s1

/-! ## The header beat (R33) -/

/-- The present beat is a header beat of a part that runs. -/
def headerNow (s : State) : Bool := countRuns s && running s && decide (beatNow s % 64 = 0)

/-- Every charge of the frame before is gone (R74); those of plans committed for this frame stay. -/
def chargesReset (s : State) : State :=
  { s with tiles := { s.tiles with charge := s.tiles.charge.filter (fun p => decide (p.1 / 2 ^ 18 = beatNow s / 64 % 2)) } }

/-- What is counted by the frame begins anew. -/
def nextFrame (s : State) : State :=
  { s with beat := { s.beat with frameRaised := [] }, mems := { s.mems with ueFrame := [] } }

/-- The work of the header beat that has no row of its own: phase, buckets and per-frame counters, charges and shares, the
shadow walk, the Hod's polling and the ledger's beat (R52, R396, R44, R74, R65, R176, R382, R481). -/
def headerWork (s : State) : State :=
  let s1 := takeShares (chargesReset (nextFrame (bucketsLeak (phaseCorrect s))))
  hodPoll { s1 with
    sort := { s1.sort with walking := true }
    top := { s1.top with ledgerSticky := beatNow s } }

def headerBeatDo (s : State) : State := if headerNow s then oncePerBeat 0 headerWork s else s

/-! ## The journal flush point (R210) -/

/-- Frames between flush points. -/
def flushInterval (s : State) : Nat := min 64 (getNZ s F.COURSE_JOURNAL_INTERVAL)

/-- A flush is laid or waits. -/
def flushLate (s : State) : Bool :=
  decide (s.map.flushes ≠ []) || s.map.ctxs.any (fun p => match p.2.kind with
    | .flush _ => true
    | _ => false)

/-- Every record below the next JSEQ is laid, with a reservation of 2^24 write sequences (R195). -/
def flushRecords (s : State) : State :=
  let s1 := if flushLate s then happen baseCourse 2 s else s
  let s2 := journal 6 (s.map.wseq + 2 ^ 24) s1
  layFlush { s2 with map := { s2.map with flushes := s2.map.flushes ++ [s2.map.jseq - 1] } }

/-- The journal is flushed, where the map is loaded; the recorder's records are mirrored and the ledger's beat is saved (R459,
R481). -/
def flushWork (mirrorOk : Bool) (s : State) : State :=
  let s1 := if s.map.loaded then flushRecords s else s
  mirrorFlush mirrorOk { s1 with top := { s1.top with ledgerNv := beatNow s } }

def journalFlushDo (mirrorOk : Bool) (s : State) : State :=
  if headerNow s && decide (frameNow s % flushInterval s = 0) && !s.grout.frozen then
    oncePerBeat 1 (flushWork mirrorOk) s
  else s

/-! ## The epoch boundary -/

/-- Courses that hold data, in order. -/
def dataCourses (s : State) : List Nat := (s.map.courses.filter (fun p => holdsData p.2)).map (·.1)

/-- Courses of active zones. -/
def activeCourses (s : State) : List Nat :=
  (s.map.zones.filter (fun p => isActive p.2.st)).filterMap (·.2.course)

/-- The courses sampled next: from the last pass's end on, wrapping. -/
def sampleCourses (s : State) : List Nat :=
  let l := dataCourses s
  (l.filter (fun c => decide (s.trowel.sample ≤ c)) ++ l.filter (fun c => decide (c < s.trowel.sample))).take
    (getF s F.TROWEL_RETENTION_SAMPLES)

/-- A sample read of one codeword of a course, at a position and a block (MU × 16 + block) that the part draws. -/
def sampleRead (c pos at_ : Nat) (s : State) : State :=
  let row := courseTable s c
  let laid := muPerWave s (courseCell s c) * (getCourse s c).nextWave
  match row[pos % max 1 row.length]? with
  | some a =>
    if laid = 0 ∨ lunLost s a.ch a.lun then s
    else
      let u := at_ / 16 % laid
      (newRd { rd0 with
        kind := .sample, tile := (getCourse s c).tile, entry := flashEnt a.ch a.lun a.brick u 0 stMapped
        ch := a.ch, lun := a.lun, brick := a.brick, u := u, t := at_ % 16, beat := beatNow s, since := beatNow s
        st := .waiting } s).2
  | none => s

/-- The samples of an epoch (R256). -/
def sampleReads (picks : List (Nat × Nat)) (s : State) : State :=
  let l := sampleCourses s
  let all := l ++ (activeCourses s).filter (fun c => !l.contains c)
  let s1 := (List.range all.length).foldl (fun t i =>
    let p := picks.getD i (0, 0)
    sampleRead (all.getD i 0) p.1 p.2 t) s
  match l.getLast? with
  | some c => { s1 with trowel := { s1.trowel with sample := c + 1 } }
  | none => s1

/-- Courses whose last program is MAX_AGE × 65,536 epochs old are queued for refresh (R256). -/
def ageRefresh (s : State) : State :=
  let m := getF s F.TROWEL_RETENTION_MAX_AGE
  if m = 0 then s
  else ((s.map.courses.filter (fun p => holdsData p.2
    && decide (p.2.lastProg / 65536 + m * 65536 ≤ epochNow s))).map (·.1)).foldl (fun t c => queueRefresh 2 c t) s

/-- Segments beyond the epoch's own that keep a cycle below 2^31 records (R213), from the records of the epoch before. -/
def extraSegments (s : State) : List Nat :=
  let cyc := ckptCycle s
  let e := epochNow s % cyc
  let before := tget zeroD s.map.ckpt ((e + cyc - 1) % cyc)
  (List.range ((s.map.jseq - before) * cyc / 2 ^ 31)).map (fun i => (e + 1 + i) % cyc)

/-- The next checkpoint segment (R212). -/
def ckptEpoch (s : State) : State :=
  let s1 := if s.map.ckptNow.isSome then happen baseCourse 3 s else s
  let extra := if s.map.ckpt = [] then [] else extraSegments s
  layCkpt { s1 with
    map := { s1.map with ckptNow := some (epochNow s % ckptCycle s, s.map.jseq) }
    mems := { s1.mems with owedSegs := s1.mems.owedSegs ++ extra } }

def epochWork (picks : List (Nat × Nat)) (s : State) : State :=
  saveStacks (ckptEpoch (ageRefresh (sampleReads picks s)))

def epochBoundaryDo (picks : List (Nat × Nat)) (s : State) : State :=
  if headerNow s && decide (beatNow s % 65536 = 0) && !mapStill s then oncePerBeat 2 (epochWork picks) s else s

def execBeatBoundary (s : State) : Res := .next (beatBoundaryDo s)
def execHeaderBeat (s : State) : Res := .next (headerBeatDo s)
def execJournalFlushPoint (mirrorOk : Bool) (s : State) : Res := .next (journalFlushDo mirrorOk s)
def execEpochBoundary (picks : List (Nat × Nat)) (s : State) : Res := .next (epochBoundaryDo picks s)

end Sys2Proof.Machine
end

