-- ==== Sys2Proof/Machine/Grout.lean ====
section
/-!
DEFINITION. Machine/Grout.lean: the hold-up signals and the grout sequence (R279 to R290, R25, R28): what starts it, and its
seal.
-/

namespace Sys2Proof.Machine

/-! ## HOLDUP_OK (R280, R281) -/

/-- A write whose completion is not yet in a plan waits for the programs of its slots (R18, R281). -/
def holdWrite (i : Nat) (s : State) : State :=
  let c := getCmd s i
  let w := c.slots.filter (slotHeld s)
  if isWrite c.kind && decide (c.st = .ready) && !c.planned && decide (w ≠ []) then
    setCmd i { c with st := .working, waits := w } s
  else s

/-- Yard slots that hold acknowledged data. -/
def ackedSlots (s : State) : List Nat :=
  (s.map.slots.filter (fun p => decide (p.2.acked ≠ 0) && slotHeld s p.1)).map (·.1)

/-- The urgent drain of the yard: acknowledged data that no wave has loaded moves to pallets. -/
def holdupDrain (s : State) : State :=
  let l := ackedSlots s
  let s1 := setF F.PWR_HOLDUP_STAT_DRAINING (if l = [] then 0 else 1) { s with grout := { s.grout with drain := l } }
  if mapOpen s then (l.filterMap (fun k => (getSlot s k).course)).foldl (fun t c => palletMove c t) s1 else s1

/-- The filter of HOLDUP_OK begins anew. -/
def holdupFrom (s : State) : State := { s with grout := { s.grout with okFrom := frameNow s } }

def holdupLost (s : State) : State :=
  let s1 := holdupFrom s
  if !isSet s F.PWR_HOLDUP_STAT_HOLDUP_OK then s1
  else
    let s2 := setF F.PWR_HOLDUP_STAT_WRITE_THROUGH 1 (setF F.PWR_HOLDUP_STAT_HOLDUP_OK 0 s1)
    let s3 := driveAen (happen basePwr 8 s2)
    holdupDrain ((s3.host.cmds.map (·.1)).foldl (fun t i => holdWrite i t) s3)

/-- HOLDUP_OK has stayed high for OK_FRAMES whole frames; the change takes effect at a header beat. -/
def holdupBack (s : State) : State :=
  if headerNow s && !isSet s F.PWR_HOLDUP_STAT_HOLDUP_OK
      && decide (s.grout.okFrom + 1 + getNZ s F.PWR_HOLDUP_CFG_OK_FRAMES ≤ frameNow s) then
    driveAen (happen basePwr 9 (setF F.PWR_HOLDUP_STAT_WRITE_THROUGH 0 (setF F.PWR_HOLDUP_STAT_HOLDUP_OK 1 s)))
  else s

/-! ## The causes (R284, R25, R28) -/

/-- POWER_FAIL_N is recognised: cause bit 0, and bit 4 in Sleep and Deep sleep; in Off nothing. -/
def powerFail (s : State) : State := groutCause (if asleep s then 4 else 0) s

/-- PG_CORE falls: a power fail while PWR_EN_CORE is asserted. -/
def pgCoreLow (s : State) : State :=
  let s1 := setF (bitF Reg.PWR_PG 0) 0 s
  if bitsOf (getF s F.PWR_DOM_STAT_ON) 3 1 = 1 then groutCause 1 s1 else s1

/-- The FATAL sources of the die's checkers: a failed planner pair (R17), a failed activation (R358), and a map-memory
channel whose loss the part does not survive (R403). -/
def fatalDo (src : Nat) (s : State) : State :=
  if !running s then s
  else if src = 8 then fatal baseTop 8 s
  else if src = 125 then fatal baseSec 5 s
  else if 64 ≤ src ∧ src < 72 ∧ src % 2 = 1 then
    (if isSet s (F.MAPMEM_LAYOUT_DEG_OK 0) && !degraded s then s else mapChannelLost ((src - 64) / 2) s)
  else s

/-! ## The seal (R288, R289) -/

/-- LUNs of a grout set that are busy with other work. -/
def setBusy (s : State) (n : Nat) : Bool :=
  (setCourses n).any (fun c => (boundRow s c).any (fun a => (getLun s a.ch a.lun).op.isSome))

/-- The longest SLC program. -/
def slcMax (s : State) : Nat := (List.range (width s)).foldl (fun m ch => max m (getF s (F.FCH_PROF_SLC_MAX ch))) 0

/-- Grout sets that are not used, lowest first. -/
def freeSets (s : State) : List Nat := (List.range 32).filter (fun n => !s.grout.used.contains n)

/-- What a grout of an image may take at most, in beats. -/
def groutBound (s : State) (img : GroutImg) (retried : Nat) : Nat :=
  let set := (freeSets s).headD 0
  let mus := 1 + (img.tail.length + 4095) / 4096 + img.slots.length
  let d := (boundRow s ((setCourses set).headD 0)).length - 1
  let c := if asleep s || !setBusy s set then 0 else max (slcMax s) 1
  5 + c + 2 * ((mus + d - 1) / max 1 d + retried) + 2 * slcMax s

/-- The grout is sealed: the sets it used, its seal record, the count, and the power-down. -/
def groutSeal (retried : Nat) (s : State) : State :=
  match s.grout.frozen && grouting s && !s.top.off, s.grout.img with
  | true, some img =>
    let s1 := if retried = 0 then s else happen basePwr 11 s
    let n := min (groutBound s img retried) (Config.groutBeats s.freeCtr)
    let s2 := enterOff (addF F.PWR_GROUT_COUNT_COUNT 1 (tick s1))
    { s2 with
      grout := { s2.grout with
        beat := none
        img := some { img with done := true, retried := decide (retried ≠ 0), beats := n }
        used := s.grout.used ++ (freeSets s).take (if retried = 0 then 1 else 2) }
      kiln := { s2.kiln with trip := none }
      top := { s2.top with sealFrame := some (frameNow s) } }
  | _, _ => s

def execHoldupOkDeasserted (s : State) : Res := .next (holdupLost s)
def execHoldupOkAsserted (s : State) : Res := .next (holdupBack s)
def execPowerFailRecognised (s : State) : Res := .next (powerFail s)
def execPgCoreFall (s : State) : Res := .next (pgCoreLow s)
def execFatalEvent (src : Nat) (s : State) : Res := .next (fatalDo src s)
def execGroutSealed (retriedWaves : Nat) (s : State) : Res := .next (groutSeal retriedWaves s)

end Sys2Proof.Machine
end

