-- ==== Sys2Proof/Machine/HodBurst.lean ====
section
/-!
DEFINITION. Machine/HodBurst.lean: what a Hod burst, a read-back and a write-back move (R371, R378 to R380), and the end of a
descriptor (R376, R386).
-/

namespace Sys2Proof.Machine

/-! ## Spaces (R371) -/

/-- Bytes of consecutive addresses of one 32-bit word, with their places in it: runs in rising order within a word. -/
def groupWords : List (Nat × Nat) → List (Nat × List (Nat × Nat))
  | [] => []
  | (a, v) :: rest =>
    match groupWords rest with
    | (w, l) :: gs =>
      if a / 4 = w ∧ (match l with
          | q :: _ => decide (a % 4 < q.1)
          | [] => true) = true then (w, (a % 4, v) :: l) :: gs
      else (a / 4, [(a % 4, v)]) :: (w, l) :: gs
    | [] => [(a / 4, [(a % 4, v)])]

/-- The address within its space. -/
def inSpace (a : Nat) : Nat := a % 2 ^ 56

/-- What a Hod address names. -/
inductive HodPlace where
  | window (a : Nat) | line (l byte : Nat) | yard (slot t byte : Nat) | far
  deriving DecidableEq, Repr

def hodPlace (s : State) (a : Nat) : HodPlace :=
  match spaceBit a with
  | some 0 => if inSpace a < windowSize then .window (inSpace a) else .far
  | some 1 => if inSpace a / 64 < mapTableLines s then .line (inSpace a / 64) (inSpace a % 64) else .far
  | some 2 => .yard (inSpace a / 65536) (inSpace a % 65536 / 4096) (inSpace a % 4096)
  | _ => .far

/-- A byte outside the window. -/
def hodByteAt (s : State) (a : Nat) : Nat :=
  match hodPlace s a with
  | .line l j => bitsOf (getLine s l).toNat (8 * j) 8
  | .yard k t j =>
    if present (getSlot s k) t then bitsOf (slotBlk (getSlot s k) t).toNat (8 * j) 8 else (Config.hodByte s.freeCtr a).toNat
  | _ => (Config.hodByte s.freeCtr a).toNat

/-- The bytes of a list of addresses that lie in one word. -/
def readGroup (w : Nat) (l : List (Nat × Nat)) (s : State) : List Nat × State :=
  match hodPlace s (4 * w) with
  | .window a =>
    let (v, s1) := readWord .onChip a s
    (l.map (fun p => bitsOf (v.getD 0xFFFFFFFF) (8 * p.1) 8), s1)
  | _ => (l.map (fun p => hodByteAt s (4 * w + p.1)), tick s)

def readBytes (as : List Nat) (s : State) : List Nat × State :=
  (groupWords (as.map (fun a => (a, 0)))).foldl (fun (acc : List Nat × State) g =>
    let (l, t) := readGroup g.1 g.2 acc.2
    (acc.1 ++ l, t)) ([], s)

/-- A byte outside the window takes a value; what the spec does not lay out leaves the model's sight. -/
def putHodByte (a v : Nat) (s : State) : State :=
  match hodPlace s a with
  | .line l j => setLine l (lineWith (getLine s l) (8 * j) 8 v) s
  | .yard k t j =>
    let x := getSlot s k
    setSlot k { x with blks := tset blk0 t (BitVec.ofNat 33152 (putBits (slotBlk x t).toNat (8 * j) 8 v)) x.blks } s
  | _ => emit (.hodWrite a [BitVec.ofNat 8 v]) s

/-- The bytes of one word are written. -/
def writeGroup (w : Nat) (l : List (Nat × Nat)) (s : State) : State :=
  match hodPlace s (4 * w) with
  | .window a =>
    writeAccess .onChip a (l.foldl (fun v p => putBits v (8 * p.1) 8 p.2) 0) (l.foldl (fun m p => m + 2 ^ p.1) 0) s
  | .far => emit (.hodWrite (4 * w + (l.head?.map (·.1)).getD 0) (l.map (fun p => BitVec.ofNat 8 p.2))) s
  | _ => l.foldl (fun t p => putHodByte (4 * w + p.1) p.2 t) s

def writeBytes (l : List (Nat × Nat)) (s : State) : State :=
  (groupWords l).foldl (fun t g => writeGroup g.1 g.2 t) s

/-! ## Bursts (R378) -/

/-- The addresses of a burst at one end: consecutive, or the same 8-byte word again and again. -/
def burstAddrs (a : Nat) (fixed : Bool) (off n : Nat) : List Nat :=
  (List.range n).map (fun j => if fixed then a + (off + j) % 8 else a + off + j)

/-- An access of a burst meets a sleeping page: the domain is woken and the burst waits (R423). -/
def burstSleeps (s : State) (as : List Nat) : Option Nat :=
  as.findSome? (fun a => match hodPlace s a with
    | .window w => if reach s w = .sleeping then some w else none
    | _ => none)

/-- Bytes moved are counted. -/
def countMoved (k n : Nat) (s : State) : State :=
  let m := s.hod.rem + n
  addF F.HOD_BYTES_COUNT (m / 1024) (addF (F.HOD_CH_MOVED_BYTES k) n { s with hod := { s.hod with rem := m % 1024 } })

/-- The oldest burst in flight is acknowledged: its bytes have moved. -/
def ackBurst (k : Nat) (s : State) : State :=
  let c := getCh s k
  match c.inflight with
  | [] => s
  | (off, n) :: rest =>
    let src := burstAddrs c.desc.src (dSrcFixed c.desc) off n
    let dst := burstAddrs c.desc.dst (dDstFixed c.desc) off n
    match burstSleeps s (src ++ dst) with
    | some a => domainUp (domainOf a) s
    | none =>
      let (l, s1) := readBytes src s
      let s2 := countMoved k n (writeBytes (dst.zip l) s1)
      let s3 := setCh k { getCh s2 k with inflight := rest, tries := 0 } s2
      if rest ≠ [] then s3
      else if hodState s3 k = hRun ∧ c.issued = c.desc.length then setHod k hFinish s3
      else settleFinish k s3

/-- HOD_BURST_ISSUE: the bursts that have been acknowledged since the last one, then one burst of the channel that the arbiter
grants. -/
def burstIssue (slot : Nat) (acked : List Nat) (s : State) : State :=
  let s1 := acked.foldl (fun t k => if k < 32 then ackBurst k t else t) s
  if slot < 64 ∧ isSet s1 (F.BLK_CTRL_ENABLE baseHod) ∧ running s1 ∧ powerNow s1 = 0 then issueBurst slot s1 else s1

/-- HOD_TRANSFER_DONE: every burst in flight is acknowledged, the oldest first. -/
def transferDone (k : Nat) (s : State) : State :=
  ((getCh s k).inflight).foldl (fun t _ => ackBurst k t) s

/-! ## The end of a descriptor -/

/-- The 8-byte word that holds the last byte written is read back and discarded (R379). -/
def readBack (k : Nat) (s : State) : State :=
  let c := getCh s k
  let n := getF s (F.HOD_CH_MOVED_BYTES k)
  if hodState s k = hFinish ∧ c.inflight = [] ∧ c.writing = false ∧ n ≠ 0 then
    let last := c.desc.dst + (if dDstFixed c.desc then (n - 1) % 8 else n - 1)
    readbackDone k (readBytes (burstAddrs (last / 8 * 8) false 0 8) s).2
  else readbackDone k s

/-- The two writes of R380. -/
def writeBack (k : Nat) (s : State) : State :=
  let c := getCh s k
  let st := c.retries % 256 + 256 * (c.code % 16)
  let b := leBytes 4 (getF s (F.HOD_CH_MOVED_BYTES k)) ++ leBytes 2 c.desc.control ++ leBytes 2 (st + 0x8000)
  let s1 := writeBytes ((burstAddrs (c.cur + 24) false 0 8).zip (b.map (·.toNat))) s
  writeBytes ((burstAddrs (c.cur + 30) false 0 2).zip ((leBytes 2 st).map (·.toNat))) s1

/-- The completion's causes and the owner's interrupt (R386). -/
def descCauses (k : Nat) (s : State) : State :=
  let c := getCh s k
  let s1 := addF (F.HOD_CH_DESCS_COUNT k) 1 (setF (F.HOD_CH_STAT_LAST_CODE k) c.code s)
  let s2 := if c.code = 1 then hodCause k 2 (addF F.HOD_WITHDRAWALS_COUNT 1 s1) else if c.code = 6 then hodCause k 4 s1 else s1
  if dIrq c.desc then
    let core := getF s (F.HOD_CH_CFG_OWNER k)
    hodCause k 0 (if core < 12 then emit (.coreIrq core) s2 else s2)
  else s2

/-- HOD_WRITEBACK_DONE: the channel goes on, idles or halts (R376). -/
def writebackDone (k : Nat) (s : State) : State :=
  let c := getCh s k
  if hodState s k ≠ hFinish ∨ !c.writing then s
  else
    let s1 := descCauses k (writeBack k s)
    let s2 := setCh k { getCh s1 k with writing := false, tries := 0 } s1
    let stop := decide (c.code = 6) || (decide (c.code = 1) && dWdStop c.desc)
    hodReset (
      if c.code = 5 then hodHalt k 4 s2
      else if 2 ≤ c.code ∧ c.code ≤ 4 then hodHalt k 1 s2
      else
        let s3 := setNext k c.desc.next s2
        if stop ∨ c.desc.next = 0 then setHod k hIdle s3 else setHod k hFetch s3)

def execHodBurstIssue (slot : Nat) (acked : List Nat) (s : State) : Res := .next (burstIssue slot acked s)
def execHodTransferDone (k : Nat) (s : State) : Res := .next (onCh k (transferDone k) s)
def execHodReadbackDone (k : Nat) (s : State) : Res := .next (onCh k (readBack k) s)
def execHodWritebackDone (k : Nat) (s : State) : Res := .next (onCh k (writebackDone k) s)

end Sys2Proof.Machine
end

