-- ==== Sys2Proof/Machine/Rirus.lean ====
section
/-!
DEFINITION. Machine/Rirus.lean: Rirus messages and MCTP control on the sideband (R362 to R367).
-/

namespace Sys2Proof.Machine

/-! ## STATUS -/

def rirOk : Nat := 0
def rirInvalid : Nat := 1
def rirBusy : Nat := 2
def rirRefused : Nat := 3
def rirSession : Nat := 4
def rirUnavailable : Nat := 5

/-- A response, with the TAG echoed (R364). -/
def rirSay (tag st : Nat) (data : List Byte) (s : State) : State := emit (.rirus (tag % 65536) st data) s

/-- An NVMe status as the result of a refused operation (R365). -/
def stsBytes (st : Sts) : List Byte := leBytes 1 st.sc ++ leBytes 1 st.sct

/-- The status of a command that a message repeats, as the message answers it: a bad field is INVALID (R365). -/
def rirSts (tag : Nat) (st : Sts) (data : List Byte) (s : State) : State :=
  if st = stOk then rirSay tag rirOk data s
  else if st = stField ∨ st = stOpcode ∨ st = stLogPage then rirSay tag rirInvalid [] s
  else rirSay tag rirRefused (stsBytes st) s

/-- The sideband is served: the part is neither off nor halted nor starting nor sealed, and has an image or the ROM's
recovery loader (R341, R363, R370). -/
def sidebandUp (s : State) : Bool :=
  isSet s F.SEC_SIDEBAND_ENABLE && !s.top.off && !s.top.halted && !s.top.starting && s.top.sealFrame.isNone
    && (decide (modeNow s ≠ 15) || inLoader s)

/-- What a message meets before its operation: the recovery loader (R341), an activation pause (R366), the session it
needs (R367), and the modes of the command it repeats (R102). -/
structure RirNeed where
  loader : Bool
  session : Bool
  sanOk : Bool
  recOk : Bool
  evac : Bool
  deriving DecidableEq, Repr

def rirus (tag : Nat) (n : RirNeed) (inSession : Bool) (f : State → State) (s : State) : State :=
  heard (sidebandUp s) (fun t =>
    if inLoader t then (if n.loader then f t else rirSay tag rirUnavailable [] t)
    else if pausing t then rirSay tag rirBusy [] t
    else if n.session && isSet t F.SEC_SIDEBAND_REQUIRE_SESSION && !inSession then
      rirSay tag rirSession [] (happen baseSec 14 t)
    else match adminGate t n.sanOk n.recOk n.evac with
      | some st => rirSts tag st [] t
      | none => f t) s

def needRead : RirNeed := { loader := false, session := false, sanOk := true, recOk := true, evac := true }
def needWrite : RirNeed := { loader := false, session := true, sanOk := true, recOk := true, evac := true }
def needTile : RirNeed := { loader := false, session := true, sanOk := false, recOk := true, evac := true }
def needFw : RirNeed := { loader := true, session := true, sanOk := false, recOk := true, evac := true }

/-! ## The messages -/

/-- IDENTIFY and HEALTH: in an activation pause they wait for its end (R366). -/
def rirAsk (tag : Nat) (health : Bool) (s : State) : State :=
  heard (sidebandUp s) (fun t =>
    if inLoader t && health then rirSay tag rirUnavailable [] t
    else if !inLoader t && pausing t then
      { t with sec := { t.sec with waiting := t.sec.waiting ++ [(tag % 65536, health)] } }
    else rirSay tag rirOk (if health then healthBytes t else identifyBytes t) t) s

/-- MGMT_READ and MGMT_WRITE: vendor commands 0xC2 and 0xC5 (R123, R500). -/
def rirMgmt (tag off count : Nat) (write : Bool) (words : List W32) (s : State) : State :=
  if off % 4 ≠ 0 ∨ windowSize < off + 4 * count ∨ count = 0 ∨ 1024 < count then rirSay tag rirInvalid [] s
  else mgmtGo .sideband none (tag % 65536) off count write words [] s

/-- TILE_OP: vendor command 0xC1. -/
def rirTile (tag t op : Nat) (data : List W32) (s : State) : State :=
  if 64 ≤ t ∨ op = 0 ∨ 5 < op ∨ !running s then rirSay tag rirInvalid [] s
  else
    let (res, s1) := tileOp t op data s
    rirSay tag (if res = tileOk then rirOk else rirRefused) (leBytes 4 res) s1

/-- MODE_REQUEST: vendor command 0xC0. -/
def rirMode (tag m : Nat) (s : State) : State :=
  match modeOutcome s m with
  | some t => rirSay tag rirOk [] t
  | none => rirSts tag stModeRefused [] (modeRefused s)

/-- LOG_READ: a log page as FN 0 reads it, with RAE set (R85, R127, log 30). -/
def rirLog (tag lid off len : Nat) (s : State) : State :=
  if 4096 < len then rirSay tag rirInvalid [] s
  else
    let l := if lid = 0xC3 then some (sealData 0 0 s.mac.epochs.length s) else stdLog s 0 lid (max len (off + len))
    match l with
    | none => rirSay tag rirInvalid [] s
    | some d => rirSay tag rirOk (slice d off len) (tick s)

/-- RECORDER_CONTROL: vendor command 0xC4; freeze and thaw together are a bad field. -/
def rirRec (tag : Nat) (freeze thawIt : Bool) (s : State) : State :=
  if freeze == thawIt then rirSay tag rirInvalid [] s
  else rirSay tag rirOk [] (if freeze then startFreeze 2 s else thaw 0 s)

/-- FW_DOWNLOAD: a piece of the staging buffer, as FN 0 sends it. -/
def rirDownload (tag off len data : Nat) (s : State) : State :=
  let (st, t) := stagePiece 0 off len data s
  rirSts tag st [] t

/-- FW_COMMIT: the answer comes with the commit's end (`commitEnd`). -/
def rirCommit (tag action fs : Nat) (img : ImageInfo) (s : State) : State :=
  commitStart { cmd := none, tag := tag % 65536, action := action, fs := fs, img := img } s

def execRirusIdentify (tag : Nat) (s : State) : Res := .next (rirAsk tag false s)
def execRirusHealth (tag : Nat) (s : State) : Res := .next (rirAsk tag true s)
def execRirusMgmtRead (tag offset count : Nat) (s : State) : Res :=
  .next (rirus tag needRead false (rirMgmt tag offset count false []) s)
def execRirusMgmtWrite (tag : Nat) (inSession : Bool) (offset : Nat) (words : List W32) (s : State) : Res :=
  .next (rirus tag needWrite inSession (rirMgmt tag offset words.length true words) s)
def execRirusTileOp (tag : Nat) (inSession : Bool) (t op : Nat) (staging : List W32) (s : State) : Res :=
  .next (rirus tag needTile inSession (rirTile tag t op staging) s)
def execRirusModeRequest (tag : Nat) (inSession : Bool) (mode : Nat) (s : State) : Res :=
  .next (rirus tag needTile inSession (rirMode tag mode) s)
def execRirusLogRead (tag lid offset len : Nat) (s : State) : Res :=
  .next (rirus tag needRead false (rirLog tag lid offset len) s)
def execRirusRecorderControl (tag : Nat) (inSession freeze thaw : Bool) (s : State) : Res :=
  .next (rirus tag needTile inSession (rirRec tag freeze thaw) s)
def execRirusFwDownload (tag : Nat) (inSession : Bool) (offset len data : Nat) (s : State) : Res :=
  .next (rirus tag needFw inSession (rirDownload tag offset len data) s)
def execRirusFwCommit (tag : Nat) (inSession : Bool) (action fs : Nat) (img : ImageInfo) (s : State) : Res :=
  .next (rirus tag needFw inSession (rirCommit tag action fs img) s)

/-! ## MCTP control (R362; codes and fields of DSP0236, log 31) -/

/-- An MCTP control message is answered wherever the sideband is served; the recovery loader answers none. -/
def mctp (cmd : Nat) (f : State → State × Nat × List Byte) (s : State) : State :=
  heard (sidebandUp s && !inLoader s) (fun t =>
    let (t1, code, data) := f t
    emit (.mctp cmd code data) t1) s

/-- Set Endpoint ID: the identifier is taken where it is one that an endpoint may have (8 to 254). -/
def setEid (eid : Nat) (s : State) : State :=
  mctp 1 (fun t =>
    if eid < 8 ∨ 254 < eid then (t, 2, [])
    else ({ t with sec := { t.sec with eid := eid } }, 0, leBytes 1 0 ++ leBytes 1 eid ++ leBytes 1 0)) s

def getEid (s : State) : State :=
  mctp 2 (fun t => (t, 0, leBytes 1 t.sec.eid ++ leBytes 1 0 ++ leBytes 1 0)) s

/-- One version of the base specification: 1.3.1, as F1 F3 F1 00. -/
def getVersions (s : State) : State := mctp 4 (fun t => (t, 0, leBytes 1 1 ++ leBytes 4 0x00F1F3F1)) s

/-- Message types: SPDM 0x05, secured SPDM 0x06, Rirus 0x7E. -/
def getTypes (s : State) : State :=
  mctp 5 (fun t => (t, 0, leBytes 1 3 ++ leBytes 1 0x05 ++ leBytes 1 0x06 ++ leBytes 1 0x7E)) s

/-- The vendor-defined message: one set, PCI Vendor ID 0x1F9A. -/
def getVendor (s : State) : State :=
  mctp 6 (fun t => (t, 0, leBytes 1 0xFF ++ leBytes 1 0 ++ leBytes 1 0x1F ++ leBytes 1 0x9A ++ leBytes 2 0)) s

/-- Dynamic address assignment on I3C. -/
def assignAddr (addr : Nat) (s : State) : State :=
  if sidebandUp s ∧ getF s F.SEC_SIDEBAND_MODE = 0 then { s with sec := { s.sec with dynAddr := addr % 128 } } else s

def execMctpSetEndpointId (eid : Nat) (s : State) : Res := .next (setEid eid s)
def execMctpGetEndpointId (s : State) : Res := .next (getEid s)
def execMctpGetVersionSupport (s : State) : Res := .next (getVersions s)
def execMctpGetMessageTypeSupport (s : State) : Res := .next (getTypes s)
def execMctpGetVendorMsgSupport (s : State) : Res := .next (getVendor s)
def execDynamicAddressAssignment (addr : Nat) (s : State) : Res := .next (assignAddr addr s)

end Sys2Proof.Machine
end

