-- ==== Sys2Proof/Machine/Replay.lean ====
section
/-!
DEFINITION. Machine/Replay.lean: the rebuild of the map at S10 and S11 (R297 to R303, R528): the journal and the grout tail,
the scan of the open courses, and the MUs that have candidates.
-/

namespace Sys2Proof.Machine

/-! ## The records (R297 steps 1 to 3) -/

/-- The grout that the start replays: one whose GROUT_ID is above the last replayed. -/
def replayImg (s : State) : Option GroutImg :=
  match s.grout.img with
  | some g => if s.grout.lastId < g.id then some g else none
  | none => none

/-- The records that can be replayed: the durable ones, then those of the grout's tail, or the later ones that lie on
flash. -/
def replayRecs (s : State) (later : Nat) : List JRec :=
  s.map.journal ++ (match replayImg s with
    | some g => g.tail.filter (fun r => decide (s.map.jdur < r.seq))
    | none => s.map.tail.take later)

/-- The records before the first that cannot be read, and those after it. -/
def recsBefore (gap : Option Nat) (l : List JRec) : List JRec :=
  match gap with
  | some g => l.filter (fun r => decide (r.seq < g))
  | none => l
def recsBeyond (gap : Option Nat) (l : List JRec) : List JRec :=
  match gap with
  | some g => l.filter (fun r => decide (g < r.seq))
  | none => []

/-- A record that should be there is missing. -/
def gapHit (gap : Option Nat) (l : List JRec) : Bool :=
  match gap with
  | some g => l.any (fun r => r.seq == g)
  | none => false

/-- Every entry of a line leaves its course. -/
def lineOut (l : Nat) (s : State) : State := (List.range 12).foldl (fun t i => courseOut (getEnt t l i) t) s

/-- One record is applied: the map, the courses with their mapped MUs, and the sequences of the erase fence (R295). -/
def applyRec (s0 : State) (r : JRec) : State :=
  let s := { s0 with map := { s0.map with jseq := r.seq + 1 } }
  let lines := recLines r s.map.lines
  match r.typ with
  | 1 =>
    let l := bitsOf r.body 4 31
    let i := bitsOf r.body 0 4
    let s1 := courseOut (getEnt s l i) s
    let s2 := { s1 with map := { s1.map with lines := lines } }
    courseIn (getEnt s2 l i) s2
  | 2 =>
    let s1 := (s.map.lines.filter (fun p => tget lineD lines p.1 != p.2)).foldl (fun t p => lineOut p.1 t) s
    { s1 with map := { s1.map with lines := lines } }
  | 6 => { s with map := { s.map with wseqRes := max s.map.wseqRes (bitsOf r.body 0 56) } }
  | _ =>
    let c := bitsOf r.body 0 18
    let s1 := { s with map := { s.map with courses := recCourses s r s.map.courses } }
    let k := getCourse s1 c
    if r.typ = 3 ∧ bitsOf r.body 18 2 = 2 then setCourse c { k with relSeq := r.seq + 1 } s1
    else if r.typ = 5 then setCourse c { k with erasedSeq := r.seq + 1 } s1
    else s1

/-- The checkpoint is loaded: the map and the courses, each with its mapped MUs. -/
def loadCkpt (s : State) : State :=
  let s1 := { s with map := { s.map with
    loaded := true, lines := s.map.base, courses := s.map.baseCourses, jseq := s.map.jdur + 1 } }
  s1.map.lines.foldl (fun t p => (List.range 12).foldl (fun x i => courseIn (getEnt x p.1 i) x) t) s1

/-- What a course has beside its records: the beat of its last program, from its bricks, and that it is queued for
refresh. -/
def courseMedia (s : State) (c : Nat) : State :=
  setCourse c { getCourse s c with
    lastProg := (courseTable s c).foldl (fun m a => max m (getBrick s (brickKey a.ch a.lun a.brick)).lastProg) 0
    refresh := s.trowel.refresh.any (fun x => x.2 == c) } s

/-- Steps 1 to 3.  The applied records above JDUR stay the journal tail. -/
def replayJournal (inp : StartInput) (s : State) : State :=
  let l := replayRecs s inp.later
  let recs := recsBefore inp.gapAt l
  let s1 := recs.foldl applyRec (loadCkpt s)
  let s2 := { s1 with map := { s1.map with tail := recs.filter (fun r => decide (s.map.jdur < r.seq)) } }
  let s3 := (s2.map.courses.map (·.1)).foldl courseMedia s2
  let s4 := setF F.PWR_REPLAY_RECORDS_COUNT (recs.length / 1000) s3
  if gapHit inp.gapAt l then happen basePwr 12 (setF F.PWR_REPLAY_STAT_GAP 1 s4) else s4

/-- The courses bound and walls and pallets open after the replay; courses that wait for erase. -/
def replayBindings (s : State) : State :=
  let open_ (p : Nat × Nat) (ok : CourseUse → Bool) : Bool :=
    decide (p.2 ≠ 0) && decide ((getCourse s (p.2 - 1)).st = .taken) && ok (getCourse s (p.2 - 1)).use
  { s with
    map := { s.map with
      walls := s.map.walls.filter (fun p => open_ p (fun u =>
        if p.1 % 512 < 256 then decide (u = .wall (p.1 % 512)) else decide (u = .reloc))
        && decide ((getCourse s (p.2 - 1)).tile = p.1 / 512))
      pallets := s.map.pallets.filter (fun p => open_ p (fun u => decide (u = .pallet))
        && decide ((getCourse s (p.2 - 1)).tile = p.1)) }
    trowel := { s.trowel with
      erase := (s.map.courses.filter (fun p => decide (p.2.st = .toErase))).map (·.1)
      refresh := s.trowel.refresh.filter (fun x => holdsData (getCourse s x.2))
      rebuildNow := match s.trowel.rebuildNow with
        | some (c, k, old, g) =>
          (match (courseTable s c)[k]? with
           | some a => if brickKey a.ch a.lun a.brick = old then none else some (c, k, old, g)
           | none => none)
        | none => none } }

/-! ## Candidates (R298, R299) -/

/-- A candidate for a block: where it comes from (0 the replayed copy, 1 the scan, 2 the grout), the block, the entry of its
flash MU, and whether it was acknowledged. -/
structure Cand where
  rank : Nat
  blk : Blk
  ent : BitVec 40
  acked : Bool
  deriving DecidableEq, Repr

def candHdr (c : Cand) : Hdr := blkTag c.blk
def candNs (c : Cand) : Nat := (candHdr c).ns + 1
def candMu (c : Cand) : Nat × Nat := (candNs c, (candHdr c).lba / 16 * 16)

/-- The MAC of a block verifies under the slot that its tag names, and that slot holds a key (R298, R302). -/
def tagOk (s : State) (b : Blk) : Bool :=
  let h := blkTag b
  let k := 4 * h.tile + h.kver
  (decide (keyState s k = keyLoaded) || decide (keyState s k = keyRetiring)) && macOk s h.tile h.kver b

/-- A course is open, and holds a tile's data. -/
def openCourse (k : Course) : Bool :=
  decide (k.st = .taken) && (match k.use with
    | .zone _ _ => true
    | .wall _ => true
    | .reloc => true
    | .pallet => true
    | _ => false)

/-- The blocks of an MU position of a course that are not erased, with their bricks. -/
def posBlks (s : State) (c u : Nat) : List (BrickAddr × Blk) :=
  (courseTable s c).flatMap (fun a => (List.range 16).filterMap (fun t =>
    let b := tget blk0 s.map.flash (flashKey a.ch a.lun a.brick u t)
    if b = 0 then none else some (a, b)))

/-- The MU positions of an open course that the scan reads: from the first after the highest wave replayed to the first
that reads erased. -/
def scanned (s : State) (c : Nat) : List Nat :=
  let u0 := muPerWave s (courseCell s c) * (getCourse s c).nextWave
  ((List.range (muPerBrick s (courseCell s c) - u0)).map (u0 + ·)).takeWhile (fun u => decide (posBlks s c u ≠ []))

/-- The scan's candidates on a course. -/
def scanCands (s : State) (c : Nat) : List Cand :=
  (scanned s c).flatMap (fun u => (posBlks s c u).filterMap (fun x =>
    let h := blkTag x.2
    if tagOk s x.2 && decide (h.tile = (getCourse s c).tile) && decide (h.ns ≠ 0x3FF) && nsExists s (h.ns + 1) then
      some { rank := 1, blk := x.2, ent := flashEnt x.1.ch x.1.lun x.1.brick u h.kver stMapped, acked := false }
    else none))

/-- The courses that the scan covers. -/
def openCourses (s : State) : List Nat := (s.map.courses.filter (fun p => openCourse p.2)).map (·.1)

/-- The grout's candidates: the blocks present that verify; without a manifest each counts as acknowledged (R302). -/
def groutCands (s : State) (inp : StartInput) : List Cand :=
  match replayImg s with
  | none => []
  | some g => (g.slots.filter (fun p => !inp.groutLost.contains p.1)).flatMap (fun p => (List.range 16).filterMap (fun t =>
      let b := slotBlk p.2 t
      let h := blkTag b
      if present p.2 t && tagOk s b && nsExists s (h.ns + 1) then
        some { rank := 2, blk := b, ent := 0, acked := !inp.manifestOk || p.2.acked.getLsbD t }
      else none))

/-- The block of the flash MU that the replayed map names. -/
def replayCand (s : State) (nsid lba : Nat) : Option Cand :=
  let e := entOf s nsid lba
  let b := tget blk0 s.map.flash (flashKey (entCh e) (entLun e) (entBrick e) (entU e) (lba % 16))
  if onFlash e ∧ b ≠ 0 then some { rank := 0, blk := b, ent := withState e stMapped, acked := false } else none

/-- A scan or grout candidate older than the MU's kept UNMAP_SEQ is rejected. -/
def tooOld (s : State) (u : Unmaps) (c : Cand) : Bool :=
  let m := muOf s (candNs c) (candHdr c).lba
  match unmapOf u m.1 m.2 with
  | some q => decide (2 ^ 31 ≤ ((candHdr c).wseq % 2 ^ 32 + 2 ^ 32 - q % 2 ^ 32) % 2 ^ 32)
  | none => false

/-! ### Atomic groups (R301) -/

/-- A block is a member of a candidate's group at a position. -/
def groupMate (c : Cand) (pos : Nat) (b : Blk) : Bool :=
  let h := candHdr c
  let g := blkTag b
  g.ag && decide (g.tile = h.tile) && decide (g.ns = h.ns) && decide (g.wseq = h.wseq)
    && decide (g.lba = h.lba - h.agPos + pos)

/-- The candidate's group is complete. -/
def groupWhole (s : State) (all : List Cand) (c : Cand) : Bool :=
  let h := candHdr c
  (List.range (h.agLast + 1)).all (fun pos =>
    all.any (fun x => groupMate c pos x.blk)
      || (match replayCand s (h.ns + 1) (h.lba - h.agPos + pos) with
          | some x => groupMate c pos x.blk && tagOk s x.blk
          | none => false))

def groupBroken (s : State) (all : List Cand) (c : Cand) : Bool := (candHdr c).ag && !groupWhole s all c

/-- The extents of incomplete groups with an acknowledged member: namespace, first LBA, blocks. -/
def brokenAcked (s : State) (all : List Cand) : List (Nat × Nat × Nat) :=
  ((all.filter (fun c => groupBroken s all c && all.any (fun x => x.acked && groupMate c (candHdr x).agPos x.blk))).map (fun c =>
    (candNs c, (candHdr c).lba - (candHdr c).agPos, (candHdr c).agLast + 1))).dedup

/-! ## Resolving (R299 to R302) -/

/-- The higher write sequence owns; among equals the replayed copy, then the scan, then the grout. -/
def ownsOver (a b : Cand) : Bool :=
  decide ((candHdr b).wseq < (candHdr a).wseq) || (decide ((candHdr a).wseq = (candHdr b).wseq) && decide (a.rank < b.rank))

def ownerOf_ (l : List Cand) : Option Cand :=
  l.foldl (fun best c => match best with
    | none => some c
    | some b => if ownsOver c b then some c else best) none

/-- The owner of each block of an MU. -/
def owners (s : State) (cands : List Cand) (nsid lba : Nat) : List (Option Cand) :=
  (List.range 16).map (fun t => ownerOf_ ((replayCand s nsid (lba + t)).toList
    ++ cands.filter (fun c => decide (candNs c = nsid) && decide ((candHdr c).lba = lba + t))))

/-- The flash MU in which every block of an MU lies. -/
def oneMu (l : List (Option Cand)) : Option Ent :=
  match l.head? with
  | some (some c) =>
    if l.all (fun o => match o with
      | some x => decide (x.rank ≠ 2) && decide (x.ent = c.ent)
      | none => false) then some c.ent else none
  | _ => none

/-- The course of a zone that an MU is to be laid on. -/
def muCourse (s : State) (nsid lba : Nat) : Option Nat :=
  (s.map.courses.find? (fun p => decide (p.2.st = .taken) && decide (p.2.use = .zone nsid (lba / zsze s)))).map (·.1)

/-- The descriptor of the MU's slot in the grout. -/
def descOf (s : State) (inp : StartInput) (nsid lba : Nat) : Option Slot :=
  if !inp.manifestOk then none
  else match replayImg s with
    | some g => (g.slots.find? (fun p => decide (p.2.nsid = nsid) && decide (p.2.lba = lba))).map (·.2)
    | none => none

/-- An owned block as the slot holds it: one from flash or of another key version takes a new tag (R196, R317). -/
def ownedBlk (s : State) (x : Slot) (c : Cand) : Blk :=
  if c.rank = 2 ∧ (candHdr c).kver = x.kver then c.blk else copyBlk s x c.blk

/-- An MU is assembled in a fresh yard slot, with `lost` its blocks that are lost for good. -/
def assemble (inp : StartInput) (nsid lba : Nat) (own : List (Option Cand)) (lost : List Nat) (s : State) : State :=
  match (freeSlots s 1).head? with
  | none => s
  | some k =>
    let m := muOf s nsid lba
    let t := (getNs s nsid).tile
    let d := descOf s inp nsid lba
    let x0 : Slot := { slot0 with
      st := .filling, tile := t, nsid := nsid, lba := lba, line := m.1, idx := m.2
      kver := match d with
        | some x => x.kver
        | none => curVer s t
      old := match d with
        | some x => x.old
        | none => 0
      course := muCourse s nsid lba }
    let x1 := (List.range 16).foldl (fun x i =>
      match own.getD i none with
      | some c =>
        if lost.contains i then x
        else
          let y := putBlk i (ownedBlk s x c) x
          if c.acked then { y with acked := y.acked ||| BitVec.ofNat 16 (2 ^ i) } else y
      | none => x) x0
    let s1 := setSlot k x1 { s with grout := { s.grout with restored := s.grout.restored ++ [k] } }
    let s2 := lost.foldl (fun y i => fillLost k i y) s1
    addF F.PWR_REPLAY_MUS_COUNT 1 (mapYard m.1 m.2 k x0.kver s2)

/-- An MU that has candidates is resolved. -/
def resolveMu (inp : StartInput) (cands : List Cand) (mu : Nat × Nat) (s : State) : State :=
  let own := owners s cands mu.1 mu.2
  if own.all (·.isNone) then s
  else match oneMu own with
    | some e =>
      let m := muOf s mu.1 mu.2
      if withState (getEnt s m.1 m.2) stMapped = e then s else mapSet m.1 m.2 e s
    | none => assemble inp mu.1 mu.2 own [] s

/-- The slots of the grout whose MU cannot be read, with their acknowledged blocks (R302). -/
def lostSlots (s : State) (inp : StartInput) : List (Slot × List Nat) :=
  if !inp.manifestOk then []
  else match replayImg s with
    | some g => ((g.slots.filter (fun p => inp.groutLost.contains p.1)).map (fun p =>
        (p.2, (List.range 16).filter (fun t => p.2.acked.getLsbD t)))).filter (fun x => decide (x.2 ≠ []))
    | none => []

/-- Acknowledged blocks that a grout MU has lost: STATE 10 where nothing else of the MU is left, and otherwise blocks of
KIND lost beside the earlier data. -/
def resolveLost (inp : StartInput) (cands : List Cand) (x : Slot × List Nat) (s : State) : State :=
  let own := owners s cands x.1.nsid x.1.lba
  if (List.range 16).all (fun t => x.2.contains t || (own.getD t none).isNone) then
    mapSet x.1.line x.1.idx (lostEnt x.1.kver) s
  else assemble inp x.1.nsid x.1.lba own x.2 s

/-- The records of a lost slot's acknowledged blocks (R113, R157). -/
def reportLost (x : Slot × List Nat) (s : State) : State :=
  (runs x.1.acked).foldl (fun t r =>
    blocksLost x.1.nsid (x.1.lba + r.1) r.2 0x02 (deferredError x.1.nsid (x.1.lba + r.1) r.2 0x03 t)) s

/-! ## Beyond a gap (R528) -/

/-- The MUs that a record names, with the entry it would have set; a RANGE_UNMAP names every MU of its lines that is
mapped. -/
def recMus (s : State) (r : JRec) : List ((Nat × Nat) × Ent) :=
  match r.typ with
  | 1 =>
    let e := bitsOf r.body 36 40
    [((bitsOf r.body 4 31, bitsOf r.body 0 4), if bitsOf e 1 2 = stUnmapped then 0 else BitVec.ofNat 40 e)]
  | 2 =>
    (s.map.lines.filter (fun p => decide (bitsOf r.body 0 31 ≤ p.1) && decide (p.1 < bitsOf r.body 0 31 + bitsOf r.body 31 29))).flatMap
      (fun p => ((List.range 12).filter (fun i => decide (getEnt s p.1 i ≠ 0))).map (fun i => ((p.1, i), (0 : Ent))))
  | _ => []

/-- The MUs that no longer hold what the host last wrote or deallocated. -/
def beyondMus (s : State) (recs : List JRec) : List (Nat × Nat) :=
  (((recs.flatMap (recMus s)).filter (fun x => decide (getEnt s x.1.1 x.1.2 ≠ x.2))).map (·.1)).dedup

def reportBeyond (recs : List JRec) (s : State) : State :=
  (beyondMus s recs).foldl (fun t m =>
    match muLba s m.1 m.2 with
    | some (nsid, lba) => deferredError nsid lba 16 0x05 t
    | none => t) s

/-! ## Zones after a start (R136, R139, R155, R325) -/

/-- A block of a zone has been written: its entry names it, and it is not a deallocated one. -/
def written (s : State) (nsid lba : Nat) : Bool :=
  let e := entOf s nsid lba
  let t := lba % 16
  if entYard e then
    present (getSlot s (entSlot e)) t && decide ((blkTag (slotBlk (getSlot s (entSlot e)) t)).kind ≠ kindDealloc)
  else if entState e = stLost then true
  else if onFlash e then
    let b := tget blk0 s.map.flash (flashKey (entCh e) (entLun e) (entBrick e) (entU e) t)
    decide (b ≠ 0) && decide ((blkTag b).kind ≠ kindDealloc)
  else false

/-- One more than the last written block of a zone: the blocks of its mapped MUs are looked at from the last. -/
def foundWp (s : State) (nsid z cap : Nat) : Nat :=
  let first := (muOf s nsid (z * zsze s)).1
  let lines := (s.map.lines.filter (fun p => decide (first ≤ p.1) && decide (p.1 < first + zcapOf s (width s) / 192))).map (·.1)
  min cap (lines.foldl (fun w l => (List.range 192).foldl (fun v j =>
    let o := (l - first) * 192 + j
    if written s nsid (z * zsze s + o) then max v (o + 1) else v) w) 0)

/-- A zone as a start finds it, by the course that the replay leaves bound to it. -/
def zoneFound (s : State) (nsid z : Nat) (x : Zone) : Zone :=
  match x.st with
  | .readOnly => x
  | .offline => x
  | _ =>
    match s.map.courses.find? (fun p => holdsData p.2 && decide (p.2.use = .zone nsid z)) with
    | none => if x.reported = .full ∧ x.course = none then x else zone0
    | some (c, _) =>
      if x.reported = .full ∧ x.course = some c then x
      else
        let cap := if x.cap = 0 ∨ x.course ≠ some c then zcapOf s (courseWidth s c) else x.cap
        let wp := foundWp s nsid z cap
        { zone0 with st := if wp = cap then .full else .closed, reported := .closed, course := some c, cap := cap, wp := wp }

/-- The zones that may have something: those listed, and those with a course. -/
def zoneKeys (s : State) : List (Nat × Nat) :=
  ((s.map.zones.map (fun p => (p.1 / 2 ^ 20, p.1 % 2 ^ 20))) ++ s.map.courses.filterMap (fun (p : Nat × Course) =>
    match p.2.use with
    | .zone n z => if holdsData p.2 then some (n, z) else none
    | _ => none)).dedup.filter (fun k => nsExists s k.1)

/-- The zones are found, and the stacks of those not sealed begin from what was saved. -/
def findZones (s : State) : State :=
  let zs := (zoneKeys s).map (fun k => (k, zoneFound s k.1 k.2 (getZone s k.1 k.2)))
  let s1 := zs.foldl (fun t p => setZone p.1.1 p.1.2 p.2 t) { s with map := { s.map with zones := [] } }
  let due := (zs.filter (fun p => p.2.course.isSome && decide (p.2.reported ≠ .full) && decide (p.2.wp ≠ 0))).map
    (fun p => zKey p.1.1 p.1.2)
  { s1 with mac := { s1.mac with behind := due, trees := s1.mac.saved.filter (fun p => due.contains p.1) } }

/-! ## The grout set (R283, R295, R303) -/

/-- The courses of used grout sets wait for the fence. -/
def keepSets (s : State) : State :=
  (s.grout.used.flatMap setCourses).foldl (fun t c =>
    if (getCourse t c).st = .toErase then t
    else setCourse c { course0 with use := .grout, st := .taken, table := (getCourse t c).table } t) s

/-- A new reservation of write sequences is made durable before any is given (R195, R303). -/
def reserve (s : State) : State :=
  let s1 := journal 6 (s.map.wseqRes + 2 ^ 24) { s with map := { s.map with wseq := s.map.wseqRes } }
  flushDone (s1.map.jseq - 1) s1

/-- The positions that the scan has read are passed over by the next wave. -/
def skipScanned (s : State) (c : Nat) : State :=
  let k := getCourse s c
  let mw := max 1 (muPerWave s (courseCell s c))
  let w := k.nextWave + ((scanned s c).length + mw - 1) / mw
  setCourse c { k with nextWave := w, st := if wavesOf s k.use ≤ w then .full else k.st } s

/-! ## The rebuild -/

/-- Step 4 and 5: the scan, and every MU with a candidate. -/
def resolve (inp : StartInput) (s : State) : State :=
  let recs := replayRecs s inp.later
  let unmaps := (recsBefore inp.gapAt recs).foldl (fun u r => recUnmaps r u) { single := [], ranges := [] }
  let opens := openCourses s
  let all := opens.flatMap (scanCands s) ++ groutCands s inp
  let bad (c : Cand) : Bool := tooOld s unmaps c || groupBroken s all c
  let cands := all.filter (fun c => !bad c)
  let lost := lostSlots s inp
  let mus := ((all.map candMu).dedup).filter (fun m => !lost.any (fun x => decide ((x.1.nsid, x.1.lba) = m)))
  let s1 := addF F.PWR_REPLAY_REJECT_COUNT (all.length - cands.length)
    (addF F.PWR_REPLAY_SCAN_COUNT (opens.foldl (fun n c => n + (scanned s c).length) 0) s)
  let s2 := mus.foldl (fun t m => resolveMu inp cands m t) s1
  let s3 := lost.foldl (fun t x => resolveLost inp cands x t) s2
  let s4 := findZones (opens.foldl skipScanned s3)
  let s5 := (brokenAcked s all).foldl (fun t x => deferredError x.1 x.2.1 x.2.2 0x03 t) s4
  let s6 := reportBeyond (recsBeyond inp.gapAt recs) (lost.foldl (fun t x => reportLost x t) s5)
  let s7 := s6.grout.restored.foldl (fun t k => stageSlot k (fillNow k t)) s6
  if lost ≠ [] ∨ brokenAcked s all ≠ [] then happen basePwr 12 s7 else s7

/-- The registers of the last grout and of its replay (R302, R306). -/
def showGrout (inp : StartInput) (s : State) : State :=
  match s.grout.img with
  | none => s
  | some g =>
    let s1 := setF F.PWR_GROUT_LAST_SEALED (if g.done then 1 else 0) (setF F.PWR_GROUT_LAST_CAUSE g.cause
      (setF F.PWR_GROUT_LAST_BEATS (min 511 g.beats) s))
    let s2 := setR Reg.PWR_GROUT_ID_HI (g.id / 2 ^ 32) (setR Reg.PWR_GROUT_ID_LO g.id s1)
    if replayImg s = none then s2
    else
      let s3 := setF F.PWR_REPLAY_STAT_REPLAYED 1 s2
      let s4 := if g.done then s3 else happen basePwr 11 (setF F.PWR_REPLAY_STAT_UNSEALED 1 s3)
      if inp.manifestOk then s4 else happen basePwr 12 (setF F.PWR_REPLAY_STAT_NO_MANIFEST 1 s4)

/-- S10: steps 1 to 3 of R297. -/
def rebuildLoad (inp : StartInput) (s : State) : State := replayBindings (replayJournal inp (showGrout inp s))

/-- S11: steps 4 and 5, the new reservation, and the key slots' TAGGED (R316). -/
def rebuildResolve (inp : StartInput) (s : State) : State :=
  let s1 := keepSets { s with grout := { s.grout with restored := [], fence := 2 ^ 64 } }
  let s2 := resolve inp (reserve s1)
  keysSettle { s2 with grout := { s2.grout with fence := s2.map.jseq } }

end Sys2Proof.Machine
end

