-- ==== Sys2Proof/Machine/Start.lean ====
section
/-!
DEFINITION. Machine/Start.lean: the start from S01 to S12 (R341, R342, R466, R471 to R481, R486, R488): what a start keeps, its
steps with their primaries and alternates, and what begins and ends it.
-/

namespace Sys2Proof.Machine

/-! ## What a start keeps (R12, R31, R87, R182, R316, R459, R471, R482, R491, R526) -/

/-- Fields that the system area, the fuses or the NAND keep across every start. -/
def keptFields : List Fld :=
  [F.COURSE_CFG_WIDTH, F.COURSE_CFG_CELL, F.TROWEL_GC_HEADROOM_PM, F.TROWEL_SPARES_BRICKS, F.TROWEL_STATUS_SPARES_EXHAUSTED
   , F.PWR_GROUT_COUNT_COUNT, F.TOP_MODE_BASE, F.TOP_MODE_CAUSE_SANITIZING, F.TOP_MODE_CAUSE_EVAC_HOST
   , F.TOP_MODE_CAUSE_EVAC_SPARES, F.TOP_MODE_CAUSE_EVAC_WSEQ, F.MAC_STATUS_WSEQ_LIMIT, F.MAC_SEAL_EPOCH_LO_EPOCH
   , F.MAC_SEAL_EPOCH_HI_EPOCH, F.REC_MIRROR_SEQ_SEQ, F.SEC_SVN_FUSE_COUNT, F.SEC_SVN_ROOT_REVOKED, F.SEC_STATUS_DEBUG_NEVER]
  ++ (List.range 4).map F.SEC_UNIT_ID_ID
  ++ (List.range 32).flatMap (fun n => [F.FCH_LUN_LOST_LO_LOST n, F.FCH_LUN_LOST_HI_LOST n])
  ++ (List.range 64).map F.MAC_TILE_KEY_CUR
  ++ (List.range 256).flatMap (fun k => [F.MAC_SLOT_STATE k, F.MAC_SLOT_SOURCE k, F.MAC_SLOT_GEN k])

/-- What a warm start keeps besides: the fields coded RWS, the Kiln's record of trips, and the ledger in the sticky store. -/
def warmFields : List Fld :=
  [F.SEC_SIDEBAND_REQUIRE_SESSION, F.KILN_CFG_AUTO_RESTART, F.KILN_RESTART_TEMP, F.KILN_TRIPS_COUNT, F.KILN_LAST_TRIP_TEMP
   , F.KILN_LAST_TRIP_SENSOR, F.HOST_ATOMIC_MY72 0, F.TOP_LEDGER_FAILS_FAILS]

/-- Every register takes its reset value but for some fields, which stay. -/
def keepFields (l : List Fld) (s : State) : State := l.foldl (fun t f => setF f (getF s f) t) { s with regs := [] }

/-- The tile pages as the system area holds them, over their reset values (R526). -/
def loadTiles (s : State) : State :=
  let s1 := s.tiles.nv.foldl (fun t p => setR p.1 p.2.toNat t) s
  let s2 := (List.range 64).foldl (fun t k => if tileState t k = tQuiescing then tileTo k tStopped t else t) s1
  { s2 with tiles := { s2.tiles with stage := s2.tiles.nvStage } }

/-- A RETIRING slot has no old copy after a start, since no read is bound to it (R317). -/
def loadKeys (s : State) : State :=
  (List.range 256).foldl (fun t k => if keyState t k = keyRetiring then setF (F.MAC_SLOT_STATE k) keyLoaded t else t) s

def freshTop (cold : Bool) (t : TopSt) : TopSt :=
  { TopSt.reset with
    starts := t.starts
    ledgerSticky := if cold then 0 else t.ledgerSticky
    ledgerNv := t.ledgerNv
    nvValid := t.nvValid
    startCount := t.startCount
    compatNv := t.compatNv
    faultN := t.faultN
    wakeIn := t.wakeIn
    perst := t.perst
    recNext := t.recNext
    sanStat := t.sanStat
    standalone := t.standalone }

def freshMap (m : MapSt) : MapSt :=
  { MapSt.reset with
    flash := m.flash
    bricks := m.bricks
    base := m.base
    baseCourses := m.baseCourses
    journal := m.journal
    tail := m.tail
    jdur := m.jdur
    jseq := m.jdur + 1
    ckpt := m.ckpt
    zones := m.zones
    walls := m.walls
    pallets := m.pallets
    wseq := m.wseqRes
    wseqRes := m.wseqRes }

def freshTrowel (t : TrowelSt) : TrowelSt :=
  { t with
    gc := []
    gcUrgent := []
    timeouts := []
    resets := []
    xfers := []
    xferLuns := []
    retrains := [] }

def freshMac (m : MacSt) : MacSt :=
  { m with
    old := []
    bound := []
    curDue := []
    eraseDue := []
    sweeping := []
    trees := []
    behind := []
    drbg := 0
    resume := false }

def freshHost (h : HostSt) : HostSt :=
  { HostSt.reset with
    fns := h.fns.filterMap (fun p =>
      let f := { fnD p.1 with lostC0 := p.2.lostC0, lostC1 := p.2.lostC1 }
      if f = fnD p.1 then none else some (p.1, f))
    nextCmd := h.nextCmd
    ns := h.ns
    dweLog := h.dweLog
    dweSeq := h.dweSeq
    lostLog := h.lostLog
    lostSeq := h.lostSeq
    fdpTiles := h.fdpTiles }

def freshRec (cold : Bool) (r : RecSt) : RecSt :=
  { RecSt.reset with
    mirror := r.mirror
    mirrored := r.mirrored
    sticky := if cold then [] else r.sticky
    failCell := if cold then none else r.failCell }

def freshKiln (k : KilnSt) : KilnSt :=
  { KilnSt.reset with clock := k.clock, hotFrom := k.clock, coolFrom := k.clock, evalAt := k.clock, restart := k.restart }

def freshMems (m : MemsSt) : MemsSt :=
  { MemsSt.reset with mems := m.mems.filterMap (fun p =>
      let x := { memD p.1 with remaps := p.2.remaps }
      if x = memD p.1 then none else some (p.1, x)) }

def freshSec (x : SecSt) : SecSt :=
  { SecSt.reset with
    slots := x.slots
    nextStart := x.nextStart
    active := x.active
    running := x.running }

/-- The machine as a reset leaves it that begins a start. -/
def freshState (cold : Bool) (s : State) : State :=
  let s1 := setR Reg.SORT_CFG s.sort.savedCfg.toNat (keepFields (keptFields ++ (if cold then [] else warmFields)) s)
  loadKeys (loadTiles { s1 with
    beat := .reset
    recd := freshRec cold s.recd
    tiles := { TileSt.reset with owner := s.tiles.owner, nv := s.tiles.nv, nvStage := s.tiles.nvStage }
    host := freshHost s.host
    map := freshMap s.map
    trowel := freshTrowel s.trowel
    grout := { GroutSt.reset with img := s.grout.img, lastId := s.grout.lastId, used := s.grout.used }
    mac := freshMac s.mac
    sort := { SortSt.reset with
      arr := s.sort.saved, shadow := s.sort.saved, saved := s.sort.saved, savedCfg := s.sort.savedCfg
      searches := s.sort.searches, defaults := s.sort.defaults }
    kiln := freshKiln s.kiln
    sec := freshSec s.sec
    hod := .reset
    mems := freshMems s.mems
    top := freshTop cold s.top
    errHeld := []
    msixDue := []
    msixBeat := [] })

/-! ## The ledger (R478, R479) -/

def outOk : Nat := 1
def outAlt : Nat := 2
def outLeft : Nat := 3
def outFailed : Nat := 4

/-- The primary of a step is tried at this start: always where the step has no alternate. -/
def primaryTried (s : State) (i : Nat) : Bool :=
  [5, 10, 11, 12].contains i || decide (getF s (failsF i) < 2) || decide (s.top.startCount % 16 = 0)

/-- FAILS after a step: `ok` says that the primary, where it was tried, succeeded for every unit. -/
def noteFails (i : Nat) (ok : Bool) (s : State) : State :=
  if !primaryTried s i then s
  else if ok then setF (failsF i) 0 s
  else setF (failsF i) (min 3 (getF s (failsF i) + 1)) s

/-- A step ends with an outcome. -/
def stepOut (i out : Nat) (s : State) : State :=
  let s1 := setF (outF i) out s
  if out = outAlt then happen baseTop 2 s1 else if out = outLeft then happen baseTop 3 s1 else s1

/-- The step outcome of a try that is not judged per unit. -/
def tryOut (s : State) (i : Nat) (t : StepTry) : Nat :=
  if primaryTried s i && t.primary then outOk else if t.alternate then outAlt else outFailed

/-- What the world answers to a step; a step that is not listed succeeds. -/
def tryOf (inp : StartInput) (i : Nat) : StepTry :=
  inp.steps.getD (i - 1) { primary := true, alternate := true, slow := false }

/-! ## How a start ends before S12 -/

/-- Halt (R475): every domain but AON down, FAULT_N asserted. -/
def haltStart (s : State) : State :=
  let s1 := enterOff (endStart 0xFFFFFFFF s)
  { s1 with top := { s1.top with halted := true, faultN := true } }

/-- The cause REC_STEP: the part comes up in RECOVERY. -/
def recStep (s : State) : State := setF F.TOP_MODE_CAUSE_REC_STEP 1 s
def recDue (s : State) : Bool := isSet s F.TOP_MODE_CAUSE_REC_STEP

/-- Steps S01 to S04 whose failure halts the part. -/
def haltStep (i : Nat) (t : StepTry) (f : State → State) (s : State) : State :=
  let o := tryOut s i t
  let s1 := noteFails i t.primary (stepOut i o s)
  if o = outFailed then haltStart s1 else f s1

/-! ## S01 to S05 -/

/-- Straps, the supplies and the domains (R473, R475). -/
def doS01 (inp : StartInput) (s : State) : State :=
  let s1 := setF F.TOP_STRAP_PORT inp.strapPort (setF F.TOP_STRAP_SRIS (if inp.strapSris then 1 else 0)
    (setF F.TOP_STRAP_NAND_IF (if inp.strapNandIf then 1 else 0) (setF F.TOP_STRAP_SIDEBAND (if inp.strapSideband then 1 else 0)
    (setF F.TOP_STRAP_SB_ADDR inp.strapSbAddr (setF F.TOP_STRAP_RECOVERY (if inp.strapRecovery then 1 else 0) s)))))
  let s2 := setF F.SEC_SIDEBAND_MODE (if inp.strapSideband then 1 else 0)
    (setF F.SEC_SIDEBAND_ADDRESS (0x68 + inp.strapSbAddr % 8) s1)
  let s3 := (List.range 32).foldl (fun t n => setF (F.FCH_CFG_IFACE n) (if inp.strapNandIf then 1 else 0) t) s2
  let s4 := setF F.TOP_MODE_CAUSE_REC_STRAP (if inp.strapRecovery then 1 else 0) s3
  let s5 := (List.range 64).foldl (fun t k => if isSet t (F.TILE_BIND_BOUND k) then showPort k t else t) s4
  let s6 := if twoPort s5 then setF (F.BLK_CTRL_ENABLE (baseHost 1)) 1 s5 else s5
  setF F.PWR_PG_PG 0x1F (setF F.PWR_DOM_STAT_ON (domsOn s6 0) s6)

/-- The reference clock that the clock monitor finds good. -/
def doS02 (alt : Bool) (s : State) : State :=
  if alt then setF F.PWR_REFCLK_B_OK 1 (setF F.PWR_REFCLK_A_OK 0 (setF F.PWR_REFCLK_ACTIVE 1 s))
  else setF F.PWR_REFCLK_A_OK 1 (setF F.PWR_REFCLK_ACTIVE 0 s)

/-- BEAT_COUNT becomes valid (R31, R481); the filter of HOLDUP_OK counts frames from here. -/
def countFrom (n : Nat) (s : State) : State :=
  let s1 := setF F.BEAT_STATUS_COUNT_VALID 1 { s with
    beat := { s.beat with count := BitVec.ofNat 64 (n + 2 ^ 20) }
    grout := { s.grout with okFrom := (n + 2 ^ 20) / 64 } }
  { s1 with recd := { s1.recd with intake := s1.recd.intake.map (fun e => { e with beat := s1.beat.count }) } }

/-- The beat grid runs; at a warm start the count goes on (R481). -/
def doS03 (cold alt : Bool) (s : State) : State :=
  let s1 := if alt then setF F.PWR_REFCLK_ACTIVE (1 - getF s F.PWR_REFCLK_ACTIVE) s else s
  if cold then s1 else countFrom s1.top.ledgerSticky s1

def runS04 (t : StepTry) (s : State) : State :=
  let o := tryOut s 4 t
  let s1 := noteFails 4 t.primary (stepOut 4 o s)
  if o = outFailed then haltStart (happen baseSec 13 s1) else s1

/-- S05 (R341): a ROM-digest or hash-engine failure halts; an entropy failure goes on under R315. -/
def runS05 (inp : StartInput) (t : StepTry) (s : State) : State :=
  if !t.primary then haltStart (noteFails 5 false (stepOut 5 outFailed s))
  else
    let s1 := noteFails 5 true (stepOut 5 outOk s)
    if inp.entropyOk then s1 else entropyTest false s1

/-! ## S06 and S07 (R341, R342, R477, R488) -/

/-- The slot whose image the start is to run (R339, R356). -/
def bootSlot (s : State) : Nat := s.sec.nextStart.getD s.sec.active

/-- The slot of a source coded as SEC_STATUS.BOOT_SRC: 1 or 2, or 3 for the recovery image. -/
def srcSlot (src : Nat) : Nat := if src = 4 then 3 else src % 2 + 1

/-- The source's slot is not marked failed, and it holds an image that can be read. -/
def srcImage (s : State) (inp : StartInput) (src : Nat) : Option ImageInfo :=
  if inp.sources.contains src ∧ (getSlotFw s (srcSlot src)).failed = false then (getSlotFw s (srcSlot src)).img else none

/-- Each image that is read and refused raises SEC_IMAGE_REJECTED; the walk ends at the first that is accepted. -/
def tryImages (inp : StartInput) : List Nat → State → Option Nat × State
  | [], s => (none, s)
  | src :: rest, s =>
    match srcImage s inp src with
    | none => tryImages inp rest s
    | some i => if imageFail s i = 0 then (some src, s) else tryImages inp rest (rejected (imageFail s i) s)

/-- The header of the active slot, from SPI NOR or from its mirror. -/
def runS06 (t : StepTry) (r : StartRun) (s : State) : State :=
  let o := tryOut s 6 t
  let a := bootSlot s - 1
  let src := if o = outOk then some a else if o = outAlt then some (a + 2) else none
  let s1 := noteFails 6 t.primary (stepOut 6 o s)
  { s1 with top := { s1.top with start := some { r with src := src } } }

/-- The image of a source runs: what the SEC page shows of it, and the slots. -/
def runImage (src : Nat) (s : State) : State :=
  match (getSlotFw s (srcSlot src)).img with
  | none => s
  | some i =>
    let slot := if src = 4 then 0 else srcSlot src
    let want := bootSlot s
    let s1 := showImage { s with sec := { s.sec with
      running := i, active := if slot = want then want else s.sec.active, nextStart := none } }
    let s2 := setF F.SEC_STATUS_BOOT_SRC src (setF F.SEC_STATUS_ACTIVE_SLOT slot (setF F.SEC_STATUS_PENDING 0 s1))
    let s3 := if src + 1 = want then s2 else happen baseSec 0 s2
    if src = 4 then setF F.TOP_MODE_CAUSE_REC_IMAGE 1 s3 else s3

/-- The ROM's recovery loader (R341): the start goes no further. -/
def romLoader (s : State) : State :=
  let s1 := endStart 0xFFFFFFFF (setF F.SEC_STATUS_BOOT_SRC 5 (setF F.SEC_STATUS_ACTIVE_SLOT 0 s))
  { s1 with top := { s1.top with faultN := true } }

/-- The planners' self-check (R477): a failed one gives its channels to the other of its pair, and with both of a pair
failed the part comes up in RECOVERY. -/
def planners (inp : StartInput) (s : State) : State :=
  let bad := (List.range 8).filter (fun p => !inp.plannerOk.getD p true)
  let ok := (List.range 8).foldl (fun n p => if bad.contains p then n else n + 2 ^ p) 0
  let s1 := setF F.TOP_PLANNER_OK_OK ok { s with beat := { s.beat with failed := bad } }
  let s2 := if bad = [] then s1 else setF F.TOP_MODE_CAUSE_DEG_PLANNER 1 s1
  if (List.range 4).any (fun k => bad.contains (2 * k) && bad.contains (2 * k + 1)) then recStep s2 else s2

/-- The compatibility level of this start (R488). -/
def takeCompat (s : State) : State :=
  let l := if s.top.nvValid then s.top.compatNv else getF s F.TOP_COMPAT_MAX
  setF F.TOP_COMPAT_LEVEL l (setF F.TOP_COMPAT_REQUEST l { s with top := { s.top with compatNv := l } })

def runS07 (inp : StartInput) (t : StepTry) (r : StartRun) (s0 : State) : State :=
  let s := takeCompat s0
  let other := 2 - bootSlot s
  let first := if primaryTried s 7 && t.primary then r.src.toList else []
  let (a, s1) := tryImages inp first s
  let (b, s2) := match a with
    | some x => (some x, s1)
    | none => tryImages inp (if t.alternate then [other, other + 2] else []) s1
  let (c, s3) := match b with
    | some x => (some x, s2)
    | none => tryImages inp [4] s2
  let o := if a.isSome then outOk else if b.isSome then outAlt else outFailed
  let s4 := noteFails 7 a.isSome (stepOut 7 o s3)
  match c with
  | some src => planners inp (runImage src s4)
  | none => romLoader s4

/-! ## S08: map memory (R401 to R404) -/

/-- Units of each channel that the map-memory space uses, and DEG_BASE (R402, R207). -/
def spaceN (s : State) : Nat := (journalUnit s + 16384 + 65536 + 3) / 4
def degBase (s : State) : Nat := (spaceN s + 262143) / 262144

/-- A build survives the loss of a map-memory channel. -/
def degOk (s : State) (gib : Nat) : Bool :=
  decide (degBase s * 262144 + (spaceN s + 2) / 3 + 4097 ≤ gib * 262144)

/-- The width that the start uses: the one found at first start (R182, R486). -/
def startWidth (inp : StartInput) (s : State) : State :=
  if s.top.nvValid then s else setF F.COURSE_CFG_WIDTH inp.width s

def mmUp (inp : StartInput) (alt : Bool) (s : State) : State :=
  (List.range 4).foldl (fun t c =>
    let t1 := setF (F.MAPMEM_SIZE_GIB c) inp.mmGib t
    if inp.mmFail.contains c then t1
    else setF (F.MAPMEM_STATUS_CONSERVATIVE c) (if alt then 1 else 0) (setF (F.MAPMEM_STATUS_STATE c) 2 t1)) s

/-- A channel is left out (R403): the degraded layout, without restoration (R408). -/
def mmLeave (c : Nat) (s : State) : State :=
  setF F.TOP_MODE_CAUSE_DEG_MAPMEM 1 (setF F.TOP_LEFT_OUT_MM_CH (2 ^ c)
    (setF (F.MAPMEM_LAYOUT_DEGRADED_LAYOUT 0) 1 (setF (F.MAPMEM_LAYOUT_LOST 0) c
      (happen (baseMapmem c) 1 (setF (F.MAPMEM_STATUS_STATE c) 4 s)))))

def runS08 (inp : StartInput) (t : StepTry) (s : State) : State :=
  let out := (List.range 4).filter inp.mmFail.contains
  let prim := t.primary && decide (out = [])
  let alt := !(primaryTried s 8 && prim)
  let s1 := mmUp inp alt s
  let s2 := noteFails 8 prim s1
  let s3 := if s.top.recNext then recStep s2 else s2
  match out with
  | [] => if !alt then stepOut 8 outOk s3 else if t.alternate then stepOut 8 outAlt s3 else recStep (stepOut 8 outFailed s3)
  | c :: rest =>
    if rest = [] ∧ degOk (startWidth inp s) inp.mmGib = true then stepOut 8 outLeft (mmLeave c s3)
    else recStep (stepOut 8 outFailed (out.foldl (fun x k => happen (baseMapmem k) 1 (setF (F.MAPMEM_STATUS_STATE k) 4
      (setF F.TOP_LEFT_OUT_MM_CH (Nat.lor (getF x F.TOP_LEFT_OUT_MM_CH) (2 ^ k)) x))) s3))

/-! ## S09: flash channels (R182, R476) -/

/-- The courses as checkpoint and durable journal leave them, for the judgement of R476. -/
def courseView (inp : StartInput) (s : State) : State :=
  (recsBefore inp.gapAt (replayRecs s inp.later)).foldl
    (fun t r => { t with map := { t.map with courses := recCourses t r t.map.courses } })
    { s with map := { s.map with courses := s.map.baseCourses } }

/-- The LUNs that fail and are not lost already. -/
def newLuns (inp : StartInput) (s : State) : List (Nat × Nat) :=
  ((inp.fchFail.flatMap (fun ch => (List.range lunsPerCh).map (fun l => (ch, l)))) ++ inp.lunFail).dedup.filter
    (fun x => decide (x.1 < width s) && decide (x.2 < lunsPerCh) && !lunLost s x.1 x.2)

/-- Every course that holds data is left with at most one brick missing. -/
def mayLose (inp : StartInput) (s : State) (l : List (Nat × Nat)) : Bool :=
  let v := courseView inp s
  v.map.courses.all (fun p => !holdsData p.2 ||
    decide (((courseTable v p.1).filter (fun a => lunLost s a.ch a.lun || l.contains (a.ch, a.lun))).length ≤ 1))

/-- Channels of the width that are lost. -/
def lostOnes (s : State) : List Nat := (List.range (width s)).filter (chLost s)

def noteChannels (s : State) : State :=
  let l := lostOnes s
  setF F.TOP_LEFT_OUT_FCH_CH (l.foldl (fun n ch => n + 2 ^ ch) 0)
    (if l = [] then s else setF F.TOP_MODE_CAUSE_DEG_CHANNEL 1 s)

def runS09 (inp : StartInput) (t : StepTry) (s0 : State) : State :=
  let s := startWidth inp s0
  let s' := (List.range (width s)).foldl (fun x ch =>
    setF (F.FCH_CFG_CE_MASK ch) 0xFF (setF (F.FCH_CFG_LUNS_PER_CE ch) 3 x)) s
  let out := newLuns inp s
  let prim := t.primary && decide (out = [])
  let s1 := noteFails 9 prim s'
  if out = [] then
    noteChannels (if primaryTried s 9 && prim then stepOut 9 outOk s1
      else if t.alternate then stepOut 9 outAlt s1 else recStep (stepOut 9 outFailed s1))
  else if mayLose inp s out then noteChannels (stepOut 9 outLeft (out.foldl (fun x p => loseLun p.1 p.2 x) s1))
  else
    let chs := (lostOnes s ++ inp.fchFail.filter (fun ch => decide (ch < width s))).dedup
    setF F.TOP_LEFT_OUT_FCH_CH (chs.foldl (fun n ch => n + 2 ^ ch) 0)
      (recStep (stepOut 9 outFailed (noteChannels s1)))

/-! ## S10 and S11: the map -/

/-- The count and the number of starts that a cold start finds in the system area (R481, R491). -/
def coldCount (cold : Bool) (s : State) : State :=
  if cold then setF F.TOP_START_COUNT_COUNT s.top.startCount (countFrom s.top.ledgerNv s) else s

def showDeg (inp : StartInput) (s : State) : State :=
  setF (F.MAPMEM_LAYOUT_DEG_BASE 0) (degBase s) (setF (F.MAPMEM_LAYOUT_DEG_OK 0) (if degOk s inp.mmGib then 1 else 0) s)

/-- S10; a part that is bound for RECOVERY by an earlier step does not load the map. -/
def runS10 (inp : StartInput) (t : StepTry) (cold : Bool) (s0 : State) : State :=
  let s := showDeg inp (coldCount cold s0)
  if recDue s then s
  else if !t.primary then recStep (noteFails 10 false (stepOut 10 outFailed s))
  else setF F.PWR_REPLAY_MS_S10 inp.ms10 (rebuildLoad inp (noteFails 10 true (stepOut 10 outOk s)))

def runS11 (inp : StartInput) (t : StepTry) (s : State) : State :=
  if recDue s then s
  else if !t.primary then recStep (noteFails 11 false (stepOut 11 outFailed { s with map := { s.map with loaded := false } }))
  else setF F.PWR_REPLAY_MS_S11 inp.ms11 (rebuildResolve inp (noteFails 11 true (stepOut 11 outOk s)))

/-! ## S12 -/

/-- The grout is replayed, and a set is armed (R283, R302). -/
def armAtStart (s : State) : State :=
  let s1 := match s.map.loaded, s.grout.img with
    | true, some g => { s with grout := { s.grout with lastId := max s.grout.lastId g.id } }
    | _, _ => s
  noteArmed (if s1.grout.used.length < 32 then s1
    else { s1 with grout := { s1.grout with used := s1.grout.used.drop (s1.grout.used.length - 1) } })

/-- The highest sequence in the mirror and the sticky store. -/
def lastSeq (s : State) : Option Nat :=
  match (s.recd.mirror ++ s.recd.sticky).map (·.seq) with
  | [] => none
  | a :: l => some (l.foldl max a)

/-- What the recorder does before S12 ends (R466). -/
def startRecorder (inp : StartInput) (s : State) : State :=
  let prev := lastSeq s
  let again := s.recd.failCell
  let s1 := if inp.recorderMemOk then s
    else recorderFailed (Config.recorderWord s.freeCtr).toNat false (tick s)
  let keep := s.recd.sticky.filter (fun r => decide (getF s F.REC_MIRROR_SEQ_SEQ < r.seq))
  let s2 := if inp.recorderMemOk then { s1 with recd := { s1.recd with ring := keep.map (fun r => { r with replayed := true }) } }
    else s1
  let s3 := match prev with
    | some q => setF F.REC_NEXT_SEQ_SEQ (q + 1) s2
    | none => s2
  let s4 := match again with
    | none => s3
    | some (w, b) =>
      let x := writeNow 219 4 (leBytes 4 w ++ leBytes 8 b.toNat ++ leBytes 4 1) s3
      if inp.recorderMemOk then { x with recd := { x.recd with failCell := none } } else x
  let body := leBytes 1 (derivedMode s) ++ leBytes 1 12 ++ leBytes 1 (if again.isSome then 1 else 0) ++ leBytes 1 0
    ++ leBytes 4 (prev.getD 0)
  anchor 0 (happen baseRec 6 (writeNow 222 2 body s4))

/-- The size of the STANDALONE namespace in blocks: the largest whole number of TiB that fits (R252). -/
def standaloneSize (s : State) : Nat :=
  let cap := zcapOf s (width s)
  let fits (n : Nat) : Bool :=
    let d := (n * 2 ^ 28 + cap - 1) / cap
    decide (d + (d * getF s F.TROWEL_GC_HEADROOM_PM + 999) / 1000 ≤ s.trowel.userCourses)
  ((List.range (s.trowel.userCourses * cap / 2 ^ 28 + 1)).filter fits).getLastD 0 * 2 ^ 28

/-- The STANDALONE namespace at the first start in STANDALONE (R135, R252). -/
def standaloneAtStart (s : State) : State :=
  if s.top.standalone = 0 ∧ getF s F.TOP_MODE_BASE = modeStandalone ∧ derivedMode s ≠ modeRecovery then
    standaloneNs { s with top := { s.top with standalone := standaloneSize s } }
  else s

/-- First start (R267, R486): the courses and spares of the width, and the flag. -/
def firstStart (s : State) : State :=
  if s.top.nvValid then s
  else
    let s1 := setF F.TOP_MODE_FIRST_START 1 (setF F.TROWEL_SPARES_BRICKS (4096 * width s) s)
    { s1 with trowel := { s1.trowel with userCourses := 172032 } }

/-- Seal epochs that closed before this start without a signature are signed with RESTARTED (R326). -/
def reopenSeals (s : State) : State :=
  (((s.mac.recs.map (fun r => r.beat / 1048576)).dedup.filter (fun e => decide (e < sealEpochNow s)))).foldl
    (fun t e => closeEpoch e true t) { s with mac := { s.mac with closing := s.mac.closing.map (fun p => (p.1, true)) } }

/-- Work that begins anew with a loaded map: rebuilds, a Sanitize that was cut, unsigned seal epochs. -/
def resumeWork (s : State) : State :=
  if !s.map.loaded then s
  else
    let s1 := startRebuild (noteRebuild (noteSpares (reopenSeals s)))
    if isSet s1 F.TOP_MODE_CAUSE_SANITIZING ∧ s1.top.sanStat = 2 then eraseAll s1 else s1

/-- The mode is chosen, and the registers of the end of a start. -/
def finishStart (inp : StartInput) (s : State) : State :=
  let m := derivedMode s
  let s1 := setF (F.BLK_LOCK_LOCK baseTrowel) 1 (setF (F.BLK_LOCK_LOCK baseCourse) 1
    (setF F.TOP_START_MS_MS (min 65535 inp.ms) (setF F.TOP_MODE_MODE m s)))
  let s2 := happen baseTop 1 (if m = modeRecovery then happen baseTop 4 s1 else s1)
  let s3 := if s2.kiln.restart then happen baseKiln 5 { s2 with kiln := { s2.kiln with restart := false } } else s2
  let s4 := endStart inp.ms s3
  { s4 with top := { s4.top with nvValid := true, faultN := false, recNext := false } }

def runS12 (inp : StartInput) (s : State) : State :=
  let s1 := armAtStart (noteFails 12 true (stepOut 12 outOk s))
  let s2 := [0, 1].foldl (fun t p => setF (F.HOST_ATOMIC_ACTIVE p) (getF t (F.HOST_ATOMIC_MY72 0)) t) s1
  let s3 := standaloneAtStart (firstStart s2)
  finishStart inp (startRecorder inp (resumeWork s3))

/-! ## The driver -/

/-- One start step. -/
def runStep (r : StartRun) (s : State) : State :=
  let t := tryOf r.inp r.step
  let alt : Bool := !(primaryTried s r.step && t.primary)
  match r.step with
  | 1 => haltStep 1 t (doS01 r.inp) s
  | 2 => haltStep 2 t (doS02 alt) s
  | 3 => haltStep 3 t (doS03 r.cold alt) s
  | 4 => runS04 t s
  | 5 => runS05 r.inp t s
  | 6 => runS06 t r s
  | 7 => runS07 r.inp t r s
  | 8 => runS08 r.inp t s
  | 9 => runS09 r.inp t s
  | 10 => runS10 r.inp t r.cold s
  | 11 => runS11 r.inp t s
  | _ => runS12 r.inp s

/-- A part that is bound for RECOVERY goes past S10 and S11 without reaching them. -/
def skipped (s : State) (i : Nat) : Bool := (decide (i = 10) || decide (i = 11)) && recDue s

/-- The steps run until the start has ended or one does not come to an end. -/
def runStart : Nat → State → State
  | 0, s => s
  | n + 1, s =>
    match s.top.start with
    | none => s
    | some r =>
      let s0 := if skipped s r.step then s else setF F.TOP_LEDGER_STEP_STEP r.step s
      if (tryOf r.inp r.step).slow && !skipped s r.step then s0
      else
        let s1 := runStep r s0
        match s1.top.start with
        | none => s1
        | some q => runStart n { s1 with top := { s1.top with start := some { q with step := r.step + 1 } } }

/-- A start begins at S01. -/
def beginStart (cold : Bool) (trigger : Nat) (inp : StartInput) (s : State) : State :=
  let n := if s.top.nvValid then s.top.startCount + 1 else 0
  let s1 := freshState cold { s with top := { s.top with startCount := n } }
  let s2 := setF F.TOP_LEDGER_STEP_PREV (if cold then 0 else getF s F.TOP_LEDGER_STEP_STEP)
    (setF F.TOP_LEDGER_STEP_COLD (if cold then 1 else 0) (setF F.TOP_LEDGER_STEP_TRIGGER trigger
      (setF F.TOP_START_COUNT_COUNT (if cold then 0 else n) s1)))
  let r : StartRun := { inp := inp, trigger := trigger, cold := cold, step := 1, src := none }
  runStart 13 { s2 with top := { s2.top with starting := true, start := some r } }

/-! ## What begins a start, and what ends it -/

/-- A start under way is cut by a loss of power. -/
def lostPower (s : State) : State :=
  match s.top.start with
  | none => s
  | some r => endStart 0xFFFFFFFF (setF (outF r.step) 5 s)

/-- POWER_ON_START: VDD_AON comes up. -/
def powerOn (inp : StartInput) (s : State) : State := beginStart true 0 inp (lostPower s)

/-- OFF_EXIT: an exit of R419, or a start that is due without one; while THERM_TRIP_N is asserted it is held (R443, R471). -/
def leaveOff (inp : StartInput) (s : State) : State :=
  if s.top.starting then s
  else if s.top.off ∨ s.top.halted then
    if s.top.thermTrip then { s with top := { s.top with startDue := some (s.top.startDue.getD 1) } }
    else beginStart false (s.top.startDue.getD 1) inp s
  else match s.top.startDue with
    | some k => if inLoader s ∨ drained s then beginStart false k inp s else s
    | none => s

/-- GROUT_RESTART: main power is still present RESTART_FRAMES after a seal or a start that was ended (R289, R472). -/
def restartAfterGrout (inp : StartInput) (s : State) : State :=
  if s.top.sealFrame.isSome ∧ !s.top.thermTrip ∧ !s.top.starting then beginStart false 2 inp s else s

/-- START_STEP_TIMEOUT (R475): the step that hangs has used its time; its alternate is tried where it has one. -/
def stepTimedOut (step : Nat) (altLeft : Bool) (s : State) : State :=
  match s.top.start with
  | none => s
  | some r =>
    if r.step = step ∧ (tryOf r.inp step).slow = true then
      let full := (List.range 12).map (fun i => tryOf r.inp (i + 1))
      let inp := { r.inp with steps := full.set (step - 1) { primary := false, alternate := altLeft, slow := false } }
      runStart 13 { s with top := { s.top with start := some { r with inp := inp } } }
    else s

/-- START_INTERRUPTED (R472): a grout cause, a loss of power or a thermal shutdown before S12. -/
def startCut (thermal : Bool) (s : State) : State :=
  if s.top.start = none then s
  else if thermal then
    let s1 := cutStart (happen baseKiln 3 (addF F.KILN_TRIPS_COUNT 1 s))
    { s1 with top := { s1.top with thermTrip := true, faultN := true } }
  else
    let s1 := cutStart s
    { s1 with top := { s1.top with sealFrame := some (frameNow s) } }

def execPowerOnStart (inp : StartInput) (s : State) : Res := .next (powerOn inp s)
def execOffExit (inp : StartInput) (s : State) : Res := .next (leaveOff inp s)
def execGroutRestart (inp : StartInput) (s : State) : Res := .next (restartAfterGrout inp s)
def execStartStepTimeout (step : Nat) (alternateLeft : Bool) (s : State) : Res := .next (stepTimedOut step alternateLeft s)
def execStartInterrupted (thermal : Bool) (s : State) : Res := .next (startCut thermal s)

end Sys2Proof.Machine
end

