-- ==== Sys2Proof/Machine/Dispatch.lean ====
section
/-!
DEFINITION. Machine/Dispatch.lean: one arm for each command, each a direct call of its meaning.
-/

namespace Sys2Proof.Machine

def exec (i : Instr) (s : State) : Host.Outcome State Fault Refusal :=
  match i with
  | .beatBoundary => Sys2Proof.Machine.execBeatBoundary s
  | .headerBeat => Sys2Proof.Machine.execHeaderBeat s
  | .journalFlushPoint mirrorOk => Sys2Proof.Machine.execJournalFlushPoint mirrorOk s
  | .epochBoundary picks => Sys2Proof.Machine.execEpochBoundary picks s
  | .sealEpochClose => Sys2Proof.Machine.execSealEpochClose s
  | .sealSigned epoch => Sys2Proof.Machine.execSealSigned epoch s
  | .sealLate epoch => Sys2Proof.Machine.execSealLate epoch s
  | .planCommit u writer target entries accts => Sys2Proof.Machine.execPlanCommit u writer target entries accts s
  | .planWriteClosedBuffer u buf posted => Sys2Proof.Machine.execPlanWriteClosedBuffer u buf posted s
  | .plannerFailed p => Sys2Proof.Machine.execPlannerFailed p s
  | .fchNop ch idx => Sys2Proof.Machine.execFchNop ch idx s
  | .readPage ch idx => Sys2Proof.Machine.execReadPage ch idx s
  | .readSoft ch idx => Sys2Proof.Machine.execReadSoft ch idx s
  | .program ch idx => Sys2Proof.Machine.execProgram ch idx s
  | .erase ch idx => Sys2Proof.Machine.execErase ch idx s
  | .suspend ch idx => Sys2Proof.Machine.execSuspend ch idx s
  | .resume ch idx => Sys2Proof.Machine.execResume ch idx s
  | .status ch idx r => Sys2Proof.Machine.execStatus ch idx r s
  | .dieOpTimeout ch lun => Sys2Proof.Machine.execDieOpTimeout ch lun s
  | .load ch idx xferErr => Sys2Proof.Machine.execLoad ch idx xferErr s
  | .fetch ch idx stillBusy xferErr => Sys2Proof.Machine.execFetch ch idx stillBusy xferErr s
  | .setTrim ch idx => Sys2Proof.Machine.execSetTrim ch idx s
  | .resetLun ch idx => Sys2Proof.Machine.execResetLun ch idx s
  | .courseStep ch idx => Sys2Proof.Machine.execCourseStep ch idx s
  | .laneNop lane idx => Sys2Proof.Machine.execLaneNop lane idx s
  | .accum lane idx => Sys2Proof.Machine.execAccum lane idx s
  | .emit lane idx => Sys2Proof.Machine.execEmit lane idx s
  | .arm lane idx => Sys2Proof.Machine.execArm lane idx s
  | .clear lane idx => Sys2Proof.Machine.execClear lane idx s
  | .waveConfirm ctx => Sys2Proof.Machine.execWaveConfirm ctx s
  | .macNop p idx => Sys2Proof.Machine.execMacNop p idx s
  | .verifyEntry p idx rds => Sys2Proof.Machine.execVerifyEntry p idx rds s
  | .retag p idx rds => Sys2Proof.Machine.execRetag p idx rds s
  | .raw p idx => Sys2Proof.Machine.execRaw p idx s
  | .cplNop c idx => Sys2Proof.Machine.execCplNop c idx s
  | .post c idx linkOk => Sys2Proof.Machine.execPost c idx linkOk s
  | .postQuiet c idx linkOk => Sys2Proof.Machine.execPostQuiet c idx linkOk s
  | .hodNop idx => Sys2Proof.Machine.execHodNop idx s
  | .window idx => Sys2Proof.Machine.execWindow idx s
  | .ldpcDecodeDone rd r => Sys2Proof.Machine.execLdpcDecodeDone rd r s
  | .macCheckDone rd pi => Sys2Proof.Machine.execMacCheckDone rd pi s
  | .readDataTransferred cmd slot => Sys2Proof.Machine.execReadDataTransferred cmd slot s
  | .writeDataArrival cmd blocks pi => Sys2Proof.Machine.execWriteDataArrival cmd blocks pi s
  | .writeAdmitted cmd => Sys2Proof.Machine.execWriteAdmitted cmd s
  | .palletIdle course => Sys2Proof.Machine.execPalletIdle course s
  | .bgWindowApply => Sys2Proof.Machine.execBgWindowApply s
  | .bgWindowEnd ch lun dieAllows => Sys2Proof.Machine.execBgWindowEnd ch lun dieAllows s
  | .beatWinApplyWrite v => Sys2Proof.Machine.execBeatWinApplyWrite v s
  | .beatSrcWrite v => Sys2Proof.Machine.execBeatSrcWrite v s
  | .beatHostOffsetWrite v => Sys2Proof.Machine.execBeatHostOffsetWrite v s
  | .beatOriginWrite hi v => Sys2Proof.Machine.execBeatOriginWrite hi v s
  | .beatCountLoRead => Sys2Proof.Machine.execBeatCountLoRead s
  | .ptmExchange err hostTime => Sys2Proof.Machine.execPtmExchange err hostTime s
  | .ptmExchangeFail notEnabled => Sys2Proof.Machine.execPtmExchangeFail notEnabled s
  | .syncInEdge err => Sys2Proof.Machine.execSyncInEdge err s
  | .syncInMissing => Sys2Proof.Machine.execSyncInMissing s
  | .syncOutPulse => Sys2Proof.Machine.execSyncOutPulse s
  | .tileProvision t req => Sys2Proof.Machine.execTileProvision t req s
  | .tileStart t req => Sys2Proof.Machine.execTileStart t req s
  | .tileStop t req => Sys2Proof.Machine.execTileStop t req s
  | .tileRelease t req => Sys2Proof.Machine.execTileRelease t req s
  | .tileSetShares t req => Sys2Proof.Machine.execTileSetShares t req s
  | .tileQuiesced t => Sys2Proof.Machine.execTileQuiesced t s
  | .tileScrubbed t => Sys2Proof.Machine.execTileScrubbed t s
  | .sqDoorbellWrite fn qid tail => Sys2Proof.Machine.execSqDoorbellWrite fn qid tail s
  | .cqDoorbellWrite fn qid head => Sys2Proof.Machine.execCqDoorbellWrite fn qid head s
  | .commandFetch port => Sys2Proof.Machine.execCommandFetch port s
  | .matcherSearch cmd => Sys2Proof.Machine.execMatcherSearch cmd s
  | .unsupportedOpcode h opcode => Sys2Proof.Machine.execUnsupportedOpcode h opcode s
  | .createIoSq h sqid size prio cqid => Sys2Proof.Machine.execCreateIoSq h sqid size prio cqid s
  | .deleteIoSq h sqid => Sys2Proof.Machine.execDeleteIoSq h sqid s
  | .createIoCq h cqid size vector => Sys2Proof.Machine.execCreateIoCq h cqid size vector s
  | .deleteIoCq h cqid => Sys2Proof.Machine.execDeleteIoCq h cqid s
  | .getLogPage h lid offset len rae => Sys2Proof.Machine.execGetLogPage h lid offset len rae s
  | .getLogPageC0 h entries rae => Sys2Proof.Machine.execGetLogPageC0 h entries rae s
  | .getLogPageC1 h entries rae => Sys2Proof.Machine.execGetLogPageC1 h entries rae s
  | .getLogPageC2 h rae => Sys2Proof.Machine.execGetLogPageC2 h rae s
  | .getLogPageC3 h first entries rae => Sys2Proof.Machine.execGetLogPageC3 h first entries rae s
  | .getLogPageC4 h offsetType offset len => Sys2Proof.Machine.execGetLogPageC4 h offsetType offset len s
  | .getLogPageC5 h => Sys2Proof.Machine.execGetLogPageC5 h s
  | .identify h cns => Sys2Proof.Machine.execIdentify h cns s
  | .abort h sqid cid => Sys2Proof.Machine.execAbort h sqid cid s
  | .setFeatures h fid v => Sys2Proof.Machine.execSetFeatures h fid v s
  | .setFeaturesPowerManagement h ps => Sys2Proof.Machine.execSetFeaturesPowerManagement h ps s
  | .setFeaturesArbitration h burst lpw mpw hpw => Sys2Proof.Machine.execSetFeaturesArbitration h burst lpw mpw hpw s
  | .setFeaturesVwc h wce => Sys2Proof.Machine.execSetFeaturesVwc h wce s
  | .setFeaturesFdp h enable => Sys2Proof.Machine.execSetFeaturesFdp h enable s
  | .setFeaturesFdpEvents h enable kinds => Sys2Proof.Machine.execSetFeaturesFdpEvents h enable kinds s
  | .setFeaturesTimestamp h ms => Sys2Proof.Machine.execSetFeaturesTimestamp h ms s
  | .getFeatures h fid => Sys2Proof.Machine.execGetFeatures h fid s
  | .asyncEventRequest h => Sys2Proof.Machine.execAsyncEventRequest h s
  | .namespaceCreate h csi nsze lbaf handles => Sys2Proof.Machine.execNamespaceCreate h csi nsze lbaf handles s
  | .namespaceDelete h => Sys2Proof.Machine.execNamespaceDelete h s
  | .namespaceAttachment h attach => Sys2Proof.Machine.execNamespaceAttachment h attach s
  | .formatNvm h lbaf ses => Sys2Proof.Machine.execFormatNvm h lbaf ses s
  | .deviceSelfTest h stc => Sys2Proof.Machine.execDeviceSelfTest h stc s
  | .securitySend h => Sys2Proof.Machine.execSecuritySend h s
  | .securityReceive h => Sys2Proof.Machine.execSecurityReceive h s
  | .directiveSend h => Sys2Proof.Machine.execDirectiveSend h s
  | .directiveReceive h => Sys2Proof.Machine.execDirectiveReceive h s
  | .firmwareImageDownload h offset len data => Sys2Proof.Machine.execFirmwareImageDownload h offset len data s
  | .fwCommitStore h fs img => Sys2Proof.Machine.execFwCommitStore h fs img s
  | .fwCommitStoreActivateReset h fs img => Sys2Proof.Machine.execFwCommitStoreActivateReset h fs img s
  | .fwCommitActivateReset h fs img => Sys2Proof.Machine.execFwCommitActivateReset h fs img s
  | .fwCommitActivateNow h fs img => Sys2Proof.Machine.execFwCommitActivateNow h fs img s
  | .fwImageStored => Sys2Proof.Machine.execFwImageStored s
  | .sanitize h act => Sys2Proof.Machine.execSanitize h act s
  | .sanitizeDone reachedStandalone => Sys2Proof.Machine.execSanitizeDone reachedStandalone s
  | .modeRequest h mode => Sys2Proof.Machine.execModeRequest h mode s
  | .managementRead h offset count => Sys2Proof.Machine.execManagementRead h offset count s
  | .managementWrite h offset words => Sys2Proof.Machine.execManagementWrite h offset words s
  | .recorderFreeze req path => Sys2Proof.Machine.execRecorderFreeze req path s
  | .recorderThaw req path => Sys2Proof.Machine.execRecorderThaw req path s
  | .write h slba nlb hints => Sys2Proof.Machine.execWrite h slba nlb hints s
  | .read h slba nlb hints slot => Sys2Proof.Machine.execRead h slba nlb hints slot s
  | .flush h late => Sys2Proof.Machine.execFlush h late s
  | .writeZeroes h slba nlb hints => Sys2Proof.Machine.execWriteZeroes h slba nlb hints s
  | .datasetManagement h deallocate ranges => Sys2Proof.Machine.execDatasetManagement h deallocate ranges s
  | .verify h slba nlb => Sys2Proof.Machine.execVerify h slba nlb s
  | .ioManagementSend h handles => Sys2Proof.Machine.execIoManagementSend h handles s
  | .ioManagementReceive h => Sys2Proof.Machine.execIoManagementReceive h s
  | .zoneAppend h zslba nlb hints => Sys2Proof.Machine.execZoneAppend h zslba nlb hints s
  | .zoneManagementReceive h slba count extended => Sys2Proof.Machine.execZoneManagementReceive h slba count extended s
  | .openZone h zslba all => Sys2Proof.Machine.execOpenZone h zslba all s
  | .closeZone h zslba all => Sys2Proof.Machine.execCloseZone h zslba all s
  | .finishZone h zslba all => Sys2Proof.Machine.execFinishZone h zslba all s
  | .resetZone h zslba all => Sys2Proof.Machine.execResetZone h zslba all s
  | .offlineZone h zslba all => Sys2Proof.Machine.execOfflineZone h zslba all s
  | .setZoneDescriptorExtension h => Sys2Proof.Machine.execSetZoneDescriptorExtension h s
  | .zoneSealed nsid zone => Sys2Proof.Machine.execZoneSealed nsid zone s
  | .zoneFinishRecommended nsid zone => Sys2Proof.Machine.execZoneFinishRecommended nsid zone s
  | .zoneAudit h zslba nonce => Sys2Proof.Machine.execZoneAudit h zslba nonce s
  | .readTags h slba count => Sys2Proof.Machine.execReadTags h slba count s
  | .controllerReset fn => Sys2Proof.Machine.execControllerReset fn s
  | .shutdownNotification fn => Sys2Proof.Machine.execShutdownNotification fn s
  | .shutdownComplete fn => Sys2Proof.Machine.execShutdownComplete fn s
  | .functionLevelReset fn => Sys2Proof.Machine.execFunctionLevelReset fn s
  | .portReset p => Sys2Proof.Machine.execPortReset p s
  | .hostLinkUp p speed width flit => Sys2Proof.Machine.execHostLinkUp p speed width flit s
  | .hostLinkDown p => Sys2Proof.Machine.execHostLinkDown p s
  | .hostLinkRetrain p => Sys2Proof.Machine.execHostLinkRetrain p s
  | .hostCplTimeout cmd => Sys2Proof.Machine.execHostCplTimeout cmd s
  | .linkWidthChange p upconfigure => Sys2Proof.Machine.execLinkWidthChange p upconfigure s
  | .sortEntryStage idx word v => Sys2Proof.Machine.execSortEntryStage idx word v s
  | .sortEntryCommit idx v => Sys2Proof.Machine.execSortEntryCommit idx v s
  | .sortInsert idx j => Sys2Proof.Machine.execSortInsert idx j s
  | .sortDelete idx j => Sys2Proof.Machine.execSortDelete idx j s
  | .sortInvalidate idx j => Sys2Proof.Machine.execSortInvalidate idx j s
  | .sortSave => Sys2Proof.Machine.execSortSave s
  | .sortSaveDone ok => Sys2Proof.Machine.execSortSaveDone ok s
  | .sortUpdateStep => Sys2Proof.Machine.execSortUpdateStep s
  | .sortCfgWrite v => Sys2Proof.Machine.execSortCfgWrite v s
  | .shadowRewrite idx shadowUe => Sys2Proof.Machine.execShadowRewrite idx shadowUe s
  | .sortAutosave ok => Sys2Proof.Machine.execSortAutosave ok s
  | .yardCfgWrite v => Sys2Proof.Machine.execYardCfgWrite v s
  | .trowelBudgetWrite v => Sys2Proof.Machine.execTrowelBudgetWrite v s
  | .fchRetrain ch ok => Sys2Proof.Machine.execFchRetrain ch ok s
  | .holdupOkDeasserted => Sys2Proof.Machine.execHoldupOkDeasserted s
  | .holdupOkAsserted => Sys2Proof.Machine.execHoldupOkAsserted s
  | .powerFailRecognised => Sys2Proof.Machine.execPowerFailRecognised s
  | .pgCoreFall => Sys2Proof.Machine.execPgCoreFall s
  | .groutSealed retriedWaves => Sys2Proof.Machine.execGroutSealed retriedWaves s
  | .groutRestart inp => Sys2Proof.Machine.execGroutRestart inp s
  | .fatalEvent src => Sys2Proof.Machine.execFatalEvent src s
  | .macKat engine ok => Sys2Proof.Machine.execMacKat engine ok s
  | .maskReseed engine => Sys2Proof.Machine.execMaskReseed engine s
  | .drbgReseed => Sys2Proof.Machine.execDrbgReseed s
  | .entropyHealthTest ok => Sys2Proof.Machine.execEntropyHealthTest ok s
  | .drbgExhausted => Sys2Proof.Machine.execDrbgExhausted s
  | .wseqLimitReached => Sys2Proof.Machine.execWseqLimitReached s
  | .keyGenerate t v => Sys2Proof.Machine.execKeyGenerate t v s
  | .keyLoad t v restore key => Sys2Proof.Machine.execKeyLoad t v restore key s
  | .keySetCurrent t v => Sys2Proof.Machine.execKeySetCurrent t v s
  | .keyCurrentSwitch t => Sys2Proof.Machine.execKeyCurrentSwitch t s
  | .keyErase t v => Sys2Proof.Machine.execKeyErase t v s
  | .keyEraseEffect slot => Sys2Proof.Machine.execKeyEraseEffect slot s
  | .keyOldCopyRetired slot => Sys2Proof.Machine.execKeyOldCopyRetired slot s
  | .keyStatus t => Sys2Proof.Machine.execKeyStatus t s
  | .slhSignatureGet c => Sys2Proof.Machine.execSlhSignatureGet c s
  | .slhChainGet c => Sys2Proof.Machine.execSlhChainGet c s
  | .spdmGetVersion c => Sys2Proof.Machine.execSpdmGetVersion c s
  | .spdmGetCapabilities c => Sys2Proof.Machine.execSpdmGetCapabilities c s
  | .spdmNegotiateAlgorithms c => Sys2Proof.Machine.execSpdmNegotiateAlgorithms c s
  | .spdmGetDigests c => Sys2Proof.Machine.execSpdmGetDigests c s
  | .spdmGetCertificate c slot offset len => Sys2Proof.Machine.execSpdmGetCertificate c slot offset len s
  | .spdmChallenge c slot nonce => Sys2Proof.Machine.execSpdmChallenge c slot nonce s
  | .spdmGetMeasurements c index nonce signed => Sys2Proof.Machine.execSpdmGetMeasurements c index nonce signed s
  | .spdmKeyExchange c mutAuth owner => Sys2Proof.Machine.execSpdmKeyExchange c mutAuth owner s
  | .spdmFinish c mutAuth verified owner => Sys2Proof.Machine.execSpdmFinish c mutAuth verified owner s
  | .spdmKeyUpdate c => Sys2Proof.Machine.execSpdmKeyUpdate c s
  | .spdmEndSession c => Sys2Proof.Machine.execSpdmEndSession c s
  | .spdmSessionLimit c => Sys2Proof.Machine.execSpdmSessionLimit c s
  | .mbxKeyErase path => Sys2Proof.Machine.execMbxKeyErase path s
  | .mbxSessionEnd path => Sys2Proof.Machine.execMbxSessionEnd path s
  | .mbxChallenge path => Sys2Proof.Machine.execMbxChallenge path s
  | .mbxDebugUnlock path auth => Sys2Proof.Machine.execMbxDebugUnlock path auth s
  | .mbxSvnCommit path readBack => Sys2Proof.Machine.execMbxSvnCommit path readBack s
  | .mbxRootRevoke path auth => Sys2Proof.Machine.execMbxRootRevoke path auth s
  | .activationStandbyLoaded => Sys2Proof.Machine.execActivationStandbyLoaded s
  | .activationPauseStart => Sys2Proof.Machine.execActivationPauseStart s
  | .activationBankSwitch => Sys2Proof.Machine.execActivationBankSwitch s
  | .activationPauseEnd => Sys2Proof.Machine.execActivationPauseEnd s
  | .activationDone => Sys2Proof.Machine.execActivationDone s
  | .activationRevert => Sys2Proof.Machine.execActivationRevert s
  | .activationFailed => Sys2Proof.Machine.execActivationFailed s
  | .rirusIdentify tag => Sys2Proof.Machine.execRirusIdentify tag s
  | .rirusMgmtRead tag offset count => Sys2Proof.Machine.execRirusMgmtRead tag offset count s
  | .rirusMgmtWrite tag inSession offset words => Sys2Proof.Machine.execRirusMgmtWrite tag inSession offset words s
  | .rirusTileOp tag inSession t op staging => Sys2Proof.Machine.execRirusTileOp tag inSession t op staging s
  | .rirusModeRequest tag inSession mode => Sys2Proof.Machine.execRirusModeRequest tag inSession mode s
  | .rirusLogRead tag lid offset len => Sys2Proof.Machine.execRirusLogRead tag lid offset len s
  | .rirusRecorderControl tag inSession freeze thaw => Sys2Proof.Machine.execRirusRecorderControl tag inSession freeze thaw s
  | .rirusFwDownload tag inSession offset len data => Sys2Proof.Machine.execRirusFwDownload tag inSession offset len data s
  | .rirusFwCommit tag inSession action fs img => Sys2Proof.Machine.execRirusFwCommit tag inSession action fs img s
  | .rirusHealth tag => Sys2Proof.Machine.execRirusHealth tag s
  | .mctpSetEndpointId eid => Sys2Proof.Machine.execMctpSetEndpointId eid s
  | .mctpGetEndpointId => Sys2Proof.Machine.execMctpGetEndpointId s
  | .mctpGetVersionSupport => Sys2Proof.Machine.execMctpGetVersionSupport s
  | .mctpGetMessageTypeSupport => Sys2Proof.Machine.execMctpGetMessageTypeSupport s
  | .mctpGetVendorMsgSupport => Sys2Proof.Machine.execMctpGetVendorMsgSupport s
  | .hodStart k => Sys2Proof.Machine.execHodStart k s
  | .hodKick k => Sys2Proof.Machine.execHodKick k s
  | .hodAbort k => Sys2Proof.Machine.execHodAbort k s
  | .hodDescFetched k d => Sys2Proof.Machine.execHodDescFetched k d s
  | .hodBurstIssue slot acked => Sys2Proof.Machine.execHodBurstIssue slot acked s
  | .hodTransferDone k => Sys2Proof.Machine.execHodTransferDone k s
  | .hodReadbackDone k => Sys2Proof.Machine.execHodReadbackDone k s
  | .hodWritebackDone k => Sys2Proof.Machine.execHodWritebackDone k s
  | .hodReqLineAssert line => Sys2Proof.Machine.execHodReqLineAssert line s
  | .hodWithdrawal k => Sys2Proof.Machine.execHodWithdrawal k s
  | .hodBusError k acc => Sys2Proof.Machine.execHodBusError k acc s
  | .hodSwreqWrite v => Sys2Proof.Machine.execHodSwreqWrite v s
  | .hodChNextWrite k hi v => Sys2Proof.Machine.execHodChNextWrite k hi v s
  | .memoryUncorrectable m word syndrome src write posted poisoned => Sys2Proof.Machine.execMemoryUncorrectable m word syndrome src write posted poisoned s
  | .memoryCorrectable m word syndrome src => Sys2Proof.Machine.execMemoryCorrectable m word syndrome src s
  | .scrubPeriod m granted => Sys2Proof.Machine.execScrubPeriod m granted s
  | .mapmemAlert c nth => Sys2Proof.Machine.execMapmemAlert c nth s
  | .mapRestoreDone ms => Sys2Proof.Machine.execMapRestoreDone ms s
  | .mapmemRetrain c ok => Sys2Proof.Machine.execMapmemRetrain c ok s
  | .fabParityError sender receiver response posted failure addr => Sys2Proof.Machine.execFabParityError sender receiver response posted failure addr s
  | .wakeInRise => Sys2Proof.Machine.execWakeInRise s
  | .powerStateEntered => Sys2Proof.Machine.execPowerStateEntered s
  | .ioWakeReturn => Sys2Proof.Machine.execIoWakeReturn s
  | .offEntry => Sys2Proof.Machine.execOffEntry s
  | .domainDrainTimeout d => Sys2Proof.Machine.execDomainDrainTimeout d s
  | .domainWakeDone => Sys2Proof.Machine.execDomainWakeDone s
  | .wakeStepTimeout d step retryFailed otherClockGood => Sys2Proof.Machine.execWakeStepTimeout d step retryFailed otherClockGood s
  | .accessStallTimeout addr isWrite => Sys2Proof.Machine.execAccessStallTimeout addr isWrite s
  | .refclkLost otherGood => Sys2Proof.Machine.execRefclkLost otherGood s
  | .kilnSample temps => Sys2Proof.Machine.execKilnSample temps s
  | .kilnLevelEval => Sys2Proof.Machine.execKilnLevelEval s
  | .thermalPowerdownTimeout => Sys2Proof.Machine.execThermalPowerdownTimeout s
  | .thermTripRelease => Sys2Proof.Machine.execThermTripRelease s
  | .kilnMinLevelWrite v => Sys2Proof.Machine.execKilnMinLevelWrite v s
  | .evtForceWrite base v => Sys2Proof.Machine.execEvtForceWrite base v s
  | .evtEnWrite base v => Sys2Proof.Machine.execEvtEnWrite base v s
  | .evtPendClear base v => Sys2Proof.Machine.execEvtPendClear base v s
  | .evtRouteWrite src v => Sys2Proof.Machine.execEvtRouteWrite src v s
  | .evtMsixSend p deliverable => Sys2Proof.Machine.execEvtMsixSend p deliverable s
  | .evtFwRaiseWrite v => Sys2Proof.Machine.execEvtFwRaiseWrite v s
  | .recordIntake => Sys2Proof.Machine.execRecordIntake s
  | .recNext => Sys2Proof.Machine.execRecNext s
  | .recRefill => Sys2Proof.Machine.execRecRefill s
  | .recCursorWrite v => Sys2Proof.Machine.execRecCursorWrite v s
  | .freezeTimeout => Sys2Proof.Machine.execFreezeTimeout s
  | .timeAnchorPeriodic => Sys2Proof.Machine.execTimeAnchorPeriodic s
  | .powerOnStart inp => Sys2Proof.Machine.execPowerOnStart inp s
  | .offExit inp => Sys2Proof.Machine.execOffExit inp s
  | .startStepTimeout step alternateLeft => Sys2Proof.Machine.execStartStepTimeout step alternateLeft s
  | .startInterrupted thermal => Sys2Proof.Machine.execStartInterrupted thermal s
  | .topRestart => Sys2Proof.Machine.execTopRestart s
  | .topLedgerClear => Sys2Proof.Machine.execTopLedgerClear s
  | .topCompatWrite v => Sys2Proof.Machine.execTopCompatWrite v s
  | .blkSoftReset base => Sys2Proof.Machine.execBlkSoftReset base s
  | .blkEnableWrite base v => Sys2Proof.Machine.execBlkEnableWrite base v s
  | .blkPowerVoteWrite base v => Sys2Proof.Machine.execBlkPowerVoteWrite base v s
  | .blkLockSet base => Sys2Proof.Machine.execBlkLockSet base s
  | .errInfoRead base => Sys2Proof.Machine.execErrInfoRead base s
  | .rcCounterRead a => Sys2Proof.Machine.execRcCounterRead a s
  | .latchingLoRead a => Sys2Proof.Machine.execLatchingLoRead a s
  | .disabledBlockAccess a isWrite => Sys2Proof.Machine.execDisabledBlockAccess a isWrite s
  | .registerWrite path a v bytes => Sys2Proof.Machine.execRegisterWrite path a v bytes s
  | .controllerEnable fn => Sys2Proof.Machine.execControllerEnable fn s
  | .autonomousPowerStateTransition fn ps => Sys2Proof.Machine.execAutonomousPowerStateTransition fn ps s
  | .perstDeasserted p => Sys2Proof.Machine.execPerstDeasserted p s
  | .vfEnable port numVfs enable => Sys2Proof.Machine.execVfEnable port numVfs enable s
  | .aerError p correctable => Sys2Proof.Machine.execAerError p correctable s
  | .linkRecoveryExit p width => Sys2Proof.Machine.execLinkRecoveryExit p width s
  | .spdmChunkGet c chunk => Sys2Proof.Machine.execSpdmChunkGet c chunk s
  | .spdmChunkSend c chunk last => Sys2Proof.Machine.execSpdmChunkSend c chunk last s
  | .dynamicAddressAssignment addr => Sys2Proof.Machine.execDynamicAddressAssignment addr s

end Sys2Proof.Machine
end

