-- ==== Sys2Proof/WellFormed.lean ====
section
/-!
DEFINITION. WellFormed.lean: what each command's operands may be: the numbers of the functions, channels, LUNs, tiles,
slots and addresses that the spec lays out, and the widths of the fields that carry the rest.
-/

namespace Sys2Proof

/-- Functions 0 to 63 (R70), and the widths of NVMe's fields. -/
def CmdHead.wf (h : CmdHead) : Bool :=
  decide (h.fn < 64) && decide (h.qid < 65536) && decide (h.cid < 65536) && decide (h.nsid < 2 ^ 32)

/-- Units that take plans: 32 channels and lanes, 8 planners, 2 host-front cores (R34). -/
def PlanUnit.wf (u : PlanUnit) : Bool :=
  match u with
  | .fch n => decide (n < 32)
  | .lane n => decide (n < 32)
  | .mac p => decide (p < 8)
  | .poster c => decide (c < 2)
  | .hod => true

/-- The fields of an entry (R38). -/
def PlanEntry.wf (e : PlanEntry) : Bool :=
  decide (e.slot < 64) && decide (e.cls < 4) && decide (e.len < 64) && decide (e.op < 256) && decide (e.body < 2 ^ 72)
    && decide (e.ticket < 65536) && decide (e.tile < 64)

def Account.wf (a : Account) : Bool :=
  match a with
  | .tile t => decide (t < 64)
  | .trowel => true

/-- The staged words of a tile operation (R123). -/
def TileReq.wf (r : TileReq) : Bool := r.h.wf && decide (r.staging.length ≤ 16)

/-- A Dataset Management range (NVMe). -/
def DsmRange.wf (r : DsmRange) : Bool := decide (r.slba < 2 ^ 64) && decide (r.nlb < 2 ^ 32)

/-- A block of 4 KiB with its 16-byte metadata field (R189). -/
def BlockIn.wf (b : BlockIn) : Bool := decide (b.data < 2 ^ 32768) && decide (b.metaField < 2 ^ 128)

/-- Corrected bits of a codeword. -/
def DecodeResult.wf (r : DecodeResult) : Bool := decide (r.corrected < 65536)

/-- Placement hints of a command (R160). -/
def Hints.wf (h : Hints) : Bool := decide (h.dsm < 256) && decide (h.dtype < 16) && decide (h.dspec < 65536)

/-- Storage binding of a function, DOE mailbox of a port, MCTP (R346). -/
def Conn.wf (c : Conn) : Bool :=
  match c with
  | .storage fn => decide (fn < 64)
  | .doe p => decide (p < 2)
  | .mctp => true

/-- The fields of an image header (R343); conditions 1 to 7 of R340, 0 for none. -/
def ImageInfo.wf (i : ImageInfo) : Bool :=
  decide (i.failedCondition ≤ 7) && decide (i.svn < 256) && decide (i.root < 4) && decide (i.compatMin < 65536)
    && decide (i.compatMax < 65536) && decide (i.stateVersion < 65536) && decide (i.stateMin < 65536)
    && decide (i.rev < 2 ^ 64) && decide (i.digest < 2 ^ 384)

/-- An authorisation's fields (R361). -/
def Authorisation.wf (a : Authorisation) : Bool :=
  decide (a.purpose < 256) && decide (a.scope < 65536) && decide (a.target < 256) && decide (a.root < 256)
    && decide (a.nonce < 2 ^ 256)

/-- A Hod descriptor (R372). -/
def HodDesc.wf (d : HodDesc) : Bool :=
  decide (d.next < 2 ^ 64) && decide (d.src < 2 ^ 64) && decide (d.dst < 2 ^ 64) && decide (d.length < 2 ^ 32)
    && decide (d.control < 2 ^ 32) && decide (d.status < 2 ^ 32)

/-- What a start meets: straps (R473), 12 steps, sources (R370), 4 map-memory channels, 32 channels of 64 LUNs, 8 to 32 of them
populated (R182), 8 planners. -/
def StartInput.wf (i : StartInput) : Bool :=
  decide (i.strapPort < 4) && decide (i.strapSbAddr < 8) && decide (i.steps.length ≤ 12) && i.sources.all (fun n => decide (n < 5))
    && i.mmFail.all (fun n => decide (n < 4)) && i.fchFail.all (fun n => decide (n < 32))
    && i.lunFail.all (fun p => decide (p.1 < 32) && decide (p.2 < 64)) && decide (i.plannerOk.length ≤ 8)
    && decide (8 ≤ i.width ∧ i.width ≤ 32) && decide (i.mmGib < 256)

/-- A command's operands are ones that its row can carry. -/
def Instr.wf (i : Instr) : Bool :=
  match i with
  | .beatBoundary => true
  | .headerBeat => true
  | .journalFlushPoint _ => true
  | .epochBoundary _ => true
  | .sealEpochClose => true
  | .sealSigned epoch => decide (epoch < 2 ^ 44)
  | .sealLate epoch => decide (epoch < 2 ^ 44)
  | .planCommit u writer target entries accts => u.wf && decide (writer < 11) && decide (target < 2 ^ 64) && entries.all PlanEntry.wf && accts.all Account.wf
  | .planWriteClosedBuffer u buf _ => u.wf && decide (buf < 4)
  | .plannerFailed p => decide (p < 8)
  | .fchNop ch idx => decide (ch < 32) && decide (idx < 1022)
  | .readPage ch idx => decide (ch < 32) && decide (idx < 1022)
  | .readSoft ch idx => decide (ch < 32) && decide (idx < 1022)
  | .program ch idx => decide (ch < 32) && decide (idx < 1022)
  | .erase ch idx => decide (ch < 32) && decide (idx < 1022)
  | .suspend ch idx => decide (ch < 32) && decide (idx < 1022)
  | .resume ch idx => decide (ch < 32) && decide (idx < 1022)
  | .status ch idx _ => decide (ch < 32) && decide (idx < 1022)
  | .dieOpTimeout ch lun => decide (ch < 32) && decide (lun < 64)
  | .load ch idx _ => decide (ch < 32) && decide (idx < 1022)
  | .fetch ch idx _ _ => decide (ch < 32) && decide (idx < 1022)
  | .setTrim ch idx => decide (ch < 32) && decide (idx < 1022)
  | .resetLun ch idx => decide (ch < 32) && decide (idx < 1022)
  | .courseStep ch idx => decide (ch < 32) && decide (idx < 1022)
  | .laneNop lane idx => decide (lane < 32) && decide (idx < 126)
  | .accum lane idx => decide (lane < 32) && decide (idx < 126)
  | .emit lane idx => decide (lane < 32) && decide (idx < 126)
  | .arm lane idx => decide (lane < 32) && decide (idx < 126)
  | .clear lane idx => decide (lane < 32) && decide (idx < 126)
  | .waveConfirm ctx => decide (ctx < 16)
  | .macNop p idx => decide (p < 8) && decide (idx < 126)
  | .verifyEntry p idx _ => decide (p < 8) && decide (idx < 126)
  | .retag p idx _ => decide (p < 8) && decide (idx < 126)
  | .raw p idx => decide (p < 8) && decide (idx < 126)
  | .cplNop c idx => decide (c < 2) && decide (idx < 1022)
  | .post c idx _ => decide (c < 2) && decide (idx < 1022)
  | .postQuiet c idx _ => decide (c < 2) && decide (idx < 1022)
  | .hodNop idx => decide (idx < 126)
  | .window idx => decide (idx < 126)
  | .ldpcDecodeDone _ r => r.wf
  | .macCheckDone _ _ => true
  | .readDataTransferred cmd slot => decide (cmd < 262144) && decide (slot < 64)
  | .writeDataArrival cmd blocks _ => decide (cmd < 262144) && blocks.all BlockIn.wf
  | .writeAdmitted cmd => decide (cmd < 262144)
  | .palletIdle course => decide (course < 179200)
  | .bgWindowApply => true
  | .bgWindowEnd ch lun _ => decide (ch < 32) && decide (lun < 64)
  | .beatWinApplyWrite _ => true
  | .beatSrcWrite _ => true
  | .beatHostOffsetWrite _ => true
  | .beatOriginWrite _ _ => true
  | .beatCountLoRead => true
  | .ptmExchange _ _ => true
  | .ptmExchangeFail _ => true
  | .syncInEdge _ => true
  | .syncInMissing => true
  | .syncOutPulse => true
  | .tileProvision t req => decide (t < 64) && req.all TileReq.wf
  | .tileStart t req => decide (t < 64) && req.all TileReq.wf
  | .tileStop t req => decide (t < 64) && req.all TileReq.wf
  | .tileRelease t req => decide (t < 64) && req.all TileReq.wf
  | .tileSetShares t req => decide (t < 64) && req.all TileReq.wf
  | .tileQuiesced t => decide (t < 64)
  | .tileScrubbed t => decide (t < 64)
  | .sqDoorbellWrite fn qid tail => decide (fn < 64) && decide (qid < 65536) && decide (tail < 65536)
  | .cqDoorbellWrite fn qid head => decide (fn < 64) && decide (qid < 65536) && decide (head < 65536)
  | .commandFetch port => decide (port < 2)
  | .matcherSearch cmd => decide (cmd < 262144)
  | .unsupportedOpcode h opcode => h.wf && decide (opcode < 256)
  | .createIoSq h sqid size prio cqid => h.wf && decide (sqid < 65536) && decide (1 ≤ size ∧ size ≤ 65536) && decide (prio < 4) && decide (cqid < 65536)
  | .deleteIoSq h sqid => h.wf && decide (sqid < 65536)
  | .createIoCq h cqid size vector => h.wf && decide (cqid < 65536) && decide (1 ≤ size ∧ size ≤ 65536) && decide (vector < 2048)
  | .deleteIoCq h cqid => h.wf && decide (cqid < 65536)
  | .getLogPage h lid offset len _ => h.wf && decide (lid < 256) && decide (offset < 2 ^ 64) && decide (len < 2 ^ 34)
  | .getLogPageC0 h entries _ => h.wf && decide (entries < 65536)
  | .getLogPageC1 h entries _ => h.wf && decide (entries < 65536)
  | .getLogPageC2 h _ => h.wf
  | .getLogPageC3 h first entries _ => h.wf && decide (first < 2 ^ 64) && decide (entries < 65536)
  | .getLogPageC4 h _ offset len => h.wf && decide (offset < 2 ^ 64) && decide (len < 2 ^ 34)
  | .getLogPageC5 h => h.wf
  | .identify h cns => h.wf && decide (cns < 256)
  | .abort h sqid cid => h.wf && decide (sqid < 65536) && decide (cid < 65536)
  | .setFeatures h fid v => h.wf && decide (fid < 256) && decide (v < 2 ^ 32)
  | .setFeaturesPowerManagement h ps => h.wf && decide (ps < 32)
  | .setFeaturesArbitration h burst lpw mpw hpw => h.wf && decide (burst < 8) && decide (lpw < 256) && decide (mpw < 256) && decide (hpw < 256)
  | .setFeaturesVwc h _ => h.wf
  | .setFeaturesFdp h _ => h.wf
  | .setFeaturesFdpEvents h _ _ => h.wf
  | .setFeaturesTimestamp h _ => h.wf
  | .getFeatures h fid => h.wf && decide (fid < 256)
  | .asyncEventRequest h => h.wf
  | .namespaceCreate h csi nsze lbaf _ => h.wf && decide (csi < 256) && decide (nsze < 2 ^ 64) && decide (lbaf < 64)
  | .namespaceDelete h => h.wf
  | .namespaceAttachment h _ => h.wf
  | .formatNvm h lbaf ses => h.wf && decide (lbaf < 64) && decide (ses < 8)
  | .deviceSelfTest h stc => h.wf && decide (stc < 16)
  | .securitySend h => h.wf
  | .securityReceive h => h.wf
  | .directiveSend h => h.wf
  | .directiveReceive h => h.wf
  | .firmwareImageDownload h offset len _ => h.wf && decide (offset < 2 ^ 64) && decide (len < 2 ^ 34)
  | .fwCommitStore h fs img => h.wf && decide (fs < 8) && img.wf
  | .fwCommitStoreActivateReset h fs img => h.wf && decide (fs < 8) && img.wf
  | .fwCommitActivateReset h fs img => h.wf && decide (fs < 8) && img.wf
  | .fwCommitActivateNow h fs img => h.wf && decide (fs < 8) && img.wf
  | .fwImageStored => true
  | .sanitize h act => h.wf && decide (act < 8)
  | .sanitizeDone _ => true
  | .modeRequest h mode => h.wf && decide (mode < 16)
  | .managementRead h offset count => h.wf && decide (offset < 2 ^ 32) && decide (count ≤ 1024)
  | .managementWrite h offset _ => h.wf && decide (offset < 2 ^ 64)
  | .recorderFreeze req path => req.all CmdHead.wf && decide (path < 4)
  | .recorderThaw req path => req.all CmdHead.wf && decide (path < 4)
  | .write h slba nlb hints => h.wf && decide (slba < 2 ^ 64) && decide (1 ≤ nlb ∧ nlb ≤ 65536) && hints.wf
  | .read h slba nlb hints slot => h.wf && decide (slba < 2 ^ 64) && decide (1 ≤ nlb ∧ nlb ≤ 65536) && hints.wf && decide (slot < 64)
  | .flush h _ => h.wf
  | .writeZeroes h slba nlb hints => h.wf && decide (slba < 2 ^ 64) && decide (1 ≤ nlb ∧ nlb ≤ 65536) && hints.wf
  | .datasetManagement h _ ranges => h.wf && ranges.all DsmRange.wf
  | .verify h slba nlb => h.wf && decide (slba < 2 ^ 64) && decide (1 ≤ nlb ∧ nlb ≤ 65536)
  | .ioManagementSend h _ => h.wf
  | .ioManagementReceive h => h.wf
  | .zoneAppend h zslba nlb hints => h.wf && decide (zslba < 2 ^ 64) && decide (1 ≤ nlb ∧ nlb ≤ 65536) && hints.wf
  | .zoneManagementReceive h slba count _ => h.wf && decide (slba < 2 ^ 64) && decide (count < 65536)
  | .openZone h zslba _ => h.wf && decide (zslba < 2 ^ 64)
  | .closeZone h zslba _ => h.wf && decide (zslba < 2 ^ 64)
  | .finishZone h zslba _ => h.wf && decide (zslba < 2 ^ 64)
  | .resetZone h zslba _ => h.wf && decide (zslba < 2 ^ 64)
  | .offlineZone h zslba _ => h.wf && decide (zslba < 2 ^ 64)
  | .setZoneDescriptorExtension h => h.wf
  | .zoneSealed nsid zone => decide (1 ≤ nsid ∧ nsid ≤ 1024) && decide (zone < 2 ^ 20)
  | .zoneFinishRecommended nsid zone => decide (1 ≤ nsid ∧ nsid ≤ 1024) && decide (zone < 2 ^ 20)
  | .zoneAudit h zslba nonce => h.wf && decide (zslba < 2 ^ 64) && decide (nonce < 2 ^ 256)
  | .readTags h slba count => h.wf && decide (slba < 2 ^ 64) && decide (count < 65536)
  | .controllerReset fn => decide (fn < 64)
  | .shutdownNotification fn => decide (fn < 64)
  | .shutdownComplete fn => decide (fn < 64)
  | .functionLevelReset fn => decide (fn < 64)
  | .portReset p => decide (p < 2)
  | .hostLinkUp p speed width _ => decide (p < 2) && decide (speed < 8) && decide (width ≤ 16)
  | .hostLinkDown p => decide (p < 2)
  | .hostLinkRetrain p => decide (p < 2)
  | .hostCplTimeout cmd => decide (cmd < 262144)
  | .linkWidthChange p _ => decide (p < 2)
  | .sortEntryStage i word _ => decide (i < 4096) && decide (word < 8)
  | .sortEntryCommit i _ => decide (i < 4096)
  | .sortInsert i j => decide (i < 4096) && decide (j < 4096)
  | .sortDelete i j => decide (i < 4096) && decide (j < 4096)
  | .sortInvalidate i j => decide (i < 4096) && decide (j < 4096)
  | .sortSave => true
  | .sortSaveDone _ => true
  | .sortUpdateStep => true
  | .sortCfgWrite _ => true
  | .shadowRewrite i _ => decide (i < 4096)
  | .sortAutosave _ => true
  | .yardCfgWrite _ => true
  | .trowelBudgetWrite _ => true
  | .fchRetrain ch _ => decide (ch < 32)
  | .holdupOkDeasserted => true
  | .holdupOkAsserted => true
  | .powerFailRecognised => true
  | .pgCoreFall => true
  | .groutSealed _ => true
  | .groutRestart inp => inp.wf
  | .fatalEvent src => decide (src < 256)
  | .macKat engine _ => decide (engine < 12)
  | .maskReseed engine => decide (engine < 12)
  | .drbgReseed => true
  | .entropyHealthTest _ => true
  | .drbgExhausted => true
  | .wseqLimitReached => true
  | .keyGenerate t v => decide (t < 64) && decide (v < 4)
  | .keyLoad t v _ _ => decide (t < 64) && decide (v < 4)
  | .keySetCurrent t v => decide (t < 64) && decide (v < 4)
  | .keyCurrentSwitch t => decide (t < 64)
  | .keyErase t v => decide (t < 64) && decide (v < 4)
  | .keyEraseEffect slot => decide (slot < 256)
  | .keyOldCopyRetired slot => decide (slot < 256)
  | .keyStatus t => decide (t < 64)
  | .slhSignatureGet c => c.wf
  | .slhChainGet c => c.wf
  | .spdmGetVersion c => c.wf
  | .spdmGetCapabilities c => c.wf
  | .spdmNegotiateAlgorithms c => c.wf
  | .spdmGetDigests c => c.wf
  | .spdmGetCertificate c slot offset len => c.wf && decide (slot < 8) && decide (offset < 2 ^ 64) && decide (len < 2 ^ 34)
  | .spdmChallenge c slot nonce => c.wf && decide (slot < 8) && decide (nonce < 2 ^ 256)
  | .spdmGetMeasurements c index nonce _ => c.wf && decide (index < 256) && decide (nonce < 2 ^ 256)
  | .spdmKeyExchange c _ owner => c.wf && decide (owner < 2 ^ 384)
  | .spdmFinish c _ _ owner => c.wf && decide (owner < 2 ^ 384)
  | .spdmKeyUpdate c => c.wf
  | .spdmEndSession c => c.wf
  | .spdmSessionLimit c => c.wf
  | .mbxKeyErase _ => true
  | .mbxSessionEnd _ => true
  | .mbxChallenge _ => true
  | .mbxDebugUnlock _ auth => auth.wf
  | .mbxSvnCommit _ _ => true
  | .mbxRootRevoke _ auth => auth.wf
  | .activationStandbyLoaded => true
  | .activationPauseStart => true
  | .activationBankSwitch => true
  | .activationPauseEnd => true
  | .activationDone => true
  | .activationRevert => true
  | .activationFailed => true
  | .rirusIdentify tag => decide (tag < 65536)
  | .rirusMgmtRead tag offset count => decide (tag < 65536) && decide (offset < 2 ^ 64) && decide (count < 65536)
  | .rirusMgmtWrite tag _ offset _ => decide (tag < 65536) && decide (offset < 2 ^ 64)
  | .rirusTileOp tag _ t op _ => decide (tag < 65536) && decide (t < 64) && decide (op < 16)
  | .rirusModeRequest tag _ mode => decide (tag < 65536) && decide (mode < 16)
  | .rirusLogRead tag lid offset len => decide (tag < 65536) && decide (lid < 256) && decide (offset < 2 ^ 64) && decide (len < 2 ^ 34)
  | .rirusRecorderControl tag _ _ _ => decide (tag < 65536)
  | .rirusFwDownload tag _ offset len _ => decide (tag < 65536) && decide (offset < 2 ^ 64) && decide (len < 2 ^ 34)
  | .rirusFwCommit tag _ action fs img => decide (tag < 65536) && decide (action < 8) && decide (fs < 8) && img.wf
  | .rirusHealth tag => decide (tag < 65536)
  | .mctpSetEndpointId eid => decide (eid < 256)
  | .mctpGetEndpointId => true
  | .mctpGetVersionSupport => true
  | .mctpGetMessageTypeSupport => true
  | .mctpGetVendorMsgSupport => true
  | .hodStart k => decide (k < 32)
  | .hodKick k => decide (k < 32)
  | .hodAbort k => decide (k < 32)
  | .hodDescFetched k d => decide (k < 32) && d.wf
  | .hodBurstIssue slot _ => decide (slot < 64)
  | .hodTransferDone k => decide (k < 32)
  | .hodReadbackDone k => decide (k < 32)
  | .hodWritebackDone k => decide (k < 32)
  | .hodReqLineAssert line => decide (line < 32)
  | .hodWithdrawal k => decide (k < 32)
  | .hodBusError k _ => decide (k < 32)
  | .hodSwreqWrite _ => true
  | .hodChNextWrite k _ _ => decide (k < 32)
  | .memoryUncorrectable m word syndrome _ _ _ _ => decide (m < 20) && decide (word < 2 ^ 32) && decide (syndrome < 32768)
  | .memoryCorrectable m word syndrome _ => decide (m < 20) && decide (word < 2 ^ 32) && decide (syndrome < 32768)
  | .scrubPeriod m _ => decide (m < 20)
  | .mapmemAlert c _ => decide (c < 4)
  | .mapRestoreDone _ => true
  | .mapmemRetrain c _ => decide (c < 4)
  | .fabParityError sender receiver _ _ failure addr => decide (sender < 256) && decide (receiver < 256) && decide (failure < 16) && decide (addr < 0x4000000)
  | .wakeInRise => true
  | .powerStateEntered => true
  | .ioWakeReturn => true
  | .offEntry => true
  | .domainDrainTimeout d => decide (d < 16)
  | .domainWakeDone => true
  | .wakeStepTimeout d step _ _ => decide (d < 16) && decide (1 ≤ step ∧ step ≤ 12)
  | .accessStallTimeout addr _ => decide (addr < 0x4000000)
  | .refclkLost _ => true
  | .kilnSample _ => true
  | .kilnLevelEval => true
  | .thermalPowerdownTimeout => true
  | .thermTripRelease => true
  | .kilnMinLevelWrite _ => true
  | .evtForceWrite base _ => decide (base < 0x4000000)
  | .evtEnWrite base _ => decide (base < 0x4000000)
  | .evtPendClear base _ => decide (base < 0x4000000)
  | .evtRouteWrite src _ => decide (src < 256)
  | .evtMsixSend p _ => decide (p < 2)
  | .evtFwRaiseWrite _ => true
  | .recordIntake => true
  | .recNext => true
  | .recRefill => true
  | .recCursorWrite _ => true
  | .freezeTimeout => true
  | .timeAnchorPeriodic => true
  | .powerOnStart inp => inp.wf
  | .offExit inp => inp.wf
  | .startStepTimeout step _ => decide (1 ≤ step ∧ step ≤ 12)
  | .startInterrupted _ => true
  | .topRestart => true
  | .topLedgerClear => true
  | .topCompatWrite _ => true
  | .blkSoftReset base => decide (base < 0x4000000)
  | .blkEnableWrite base _ => decide (base < 0x4000000)
  | .blkPowerVoteWrite base _ => decide (base < 0x4000000)
  | .blkLockSet base => decide (base < 0x4000000)
  | .errInfoRead base => decide (base < 0x4000000)
  | .rcCounterRead a => decide (a < 0x4000000)
  | .latchingLoRead a => decide (a < 0x4000000)
  | .disabledBlockAccess a _ => decide (a < 0x4000000)
  | .registerWrite _ a _ bytes => decide (a < 0x4000000) && decide (bytes < 16)
  | .controllerEnable fn => decide (fn < 64)
  | .autonomousPowerStateTransition fn ps => decide (fn < 64) && decide (ps < 32)
  | .perstDeasserted p => decide (p < 2)
  | .vfEnable port numVfs _ => decide (port < 2) && decide (numVfs < 65536)
  | .aerError p _ => decide (p < 2)
  | .linkRecoveryExit p width => decide (p < 2) && decide (width ≤ 16)
  | .spdmChunkGet c chunk => c.wf && decide (chunk < 65536)
  | .spdmChunkSend c chunk _ => c.wf && decide (chunk < 65536)
  | .dynamicAddressAssignment addr => decide (addr < 0x4000000)

end Sys2Proof
end

