-- ==== Sys2Proof/Safety.lean ====
section
/-!
DEFINITION. Safety.lean: the terms that claims about the MY96 use: completion, what a state holds, what two states share.
-/

namespace Sys2Proof.Machine

/-- A command completes: `exec` answers a next state. -/
def completes (c : Instr) (s t : State) : Prop := exec c s = .next t

/-- The register table is in its canonical form. -/
def regsWf (s : State) : Bool := twf resetValue s.regs

/-- Bit `i` of a page's EVT_RAW is set (R496). -/
def raised (base i : Nat) (s : State) : Bool := decide (getF s (bitF (Reg.EVT_RAW base) i) = 1)

/-- A register that events change: a page's EVT_RAW and EVT_PEND, a source's count, the intake's peak (R448, R496). -/
def eventReg (a : Nat) : Prop :=
  a % 0x1000 = 0x010 ∨ a % 0x1000 = 0x018 ∨ (0x5000 ≤ a ∧ a < 0x5400) ∨ a = Reg.EVT_INTAKE

/-- The parts of the state. -/
inductive Part where
  | regs | beat | recd | tiles | host | map | trowel | grout | mac | sort | kiln | sec | hod | mems | top | errHeld
  | msixDue | msixBeat | out | freeCtr
  deriving DecidableEq, Repr

/-- Two states agree on a part. -/
def Part.same (s t : State) : Part → Prop
  | .regs => t.regs = s.regs
  | .beat => t.beat = s.beat
  | .recd => t.recd = s.recd
  | .tiles => t.tiles = s.tiles
  | .host => t.host = s.host
  | .map => t.map = s.map
  | .trowel => t.trowel = s.trowel
  | .grout => t.grout = s.grout
  | .mac => t.mac = s.mac
  | .sort => t.sort = s.sort
  | .kiln => t.kiln = s.kiln
  | .sec => t.sec = s.sec
  | .hod => t.hod = s.hod
  | .mems => t.mems = s.mems
  | .top => t.top = s.top
  | .errHeld => t.errHeld = s.errHeld
  | .msixDue => t.msixDue = s.msixDue
  | .msixBeat => t.msixBeat = s.msixBeat
  | .out => t.out = s.out
  | .freeCtr => t.freeCtr = s.freeCtr

/-- Only the parts named change; the queue of commands stays. -/
def changesOnly (ps : List Part) (s t : State) : Prop := t.pending = s.pending ∧ ∀ p, p ∉ ps → p.same s t

/-- The parts that the happening of an event changes (R448, R455, R496). -/
def eventParts : List Part := [.regs, .recd, .msixDue, .freeCtr]

/-- Every register but those of a set reads as before. -/
def regsKept (but : Nat → Prop) (s t : State) : Prop := ∀ a, ¬ but a → rd t a = rd s a

/-- Every register but those of a set, and but those that events change, reads as before. -/
def regsKeptE (but : Nat → Prop) (s t : State) : Prop := ∀ a, ¬ but a → ¬ eventReg a → rd t a = rd s a

/-- Nothing but what events change has changed. -/
def evtOnly (s t : State) : Prop := changesOnly eventParts s t ∧ regsKeptE (fun _ => False) s t

/-- One register alone takes a value; nothing else of the state changes. -/
def writesReg (a v : Nat) (s t : State) : Prop :=
  getR t a = v % 2 ^ 32 ∧ regsKept (· = a) s t ∧ changesOnly [.regs] s t

/-- The window address that a command carries, where it carries one. -/
def windowAddr : Instr → Option Nat
  | .blkSoftReset base => some base
  | .blkEnableWrite base _ => some base
  | .blkPowerVoteWrite base _ => some base
  | .blkLockSet base => some base
  | .errInfoRead base => some base
  | .rcCounterRead a => some a
  | .latchingLoRead a => some a
  | .disabledBlockAccess a _ => some a
  | .registerWrite _ a _ _ => some a
  | _ => none

/-- R50 and R51: what a measured phase error of `e` ns does from each lock state. -/
def afterMeasure (e : Int) (s t : State) : Prop :=
  getR t Reg.BEAT_PHASE_ERR = sat32 e ∧ t.beat.count = s.beat.count ∧ changesOnly (.beat :: eventParts) s t ∧
  (lockState s = lockFree → lockState t = lockFree) ∧
  (lockState s = lockHoldover → lockState t = lockAcquire) ∧
  (lockState s = lockLocked →
    (100 * (getF s F.BEAT_LOCK_CFG_UNLOCK_TOL : Int) < e ∨ 100 * (getF s F.BEAT_LOCK_CFG_UNLOCK_TOL : Int) < -e →
      lockState t = lockAcquire ∧ raised baseBeat 3 t = true) ∧
    (e ≤ 100 * (getF s F.BEAT_LOCK_CFG_UNLOCK_TOL : Int) → -e ≤ 100 * (getF s F.BEAT_LOCK_CFG_UNLOCK_TOL : Int) →
      lockState t = lockLocked)) ∧
  (lockState s = lockAcquire →
    (100 * (getF s F.BEAT_LOCK_CFG_LOCK_TOL : Int) < e ∨ 100 * (getF s F.BEAT_LOCK_CFG_LOCK_TOL : Int) < -e →
      lockState t = lockAcquire ∧ t.beat.inTol = 0) ∧
    (e ≤ 100 * (getF s F.BEAT_LOCK_CFG_LOCK_TOL : Int) → -e ≤ 100 * (getF s F.BEAT_LOCK_CFG_LOCK_TOL : Int) →
      if getF s F.BEAT_LOCK_CFG_LOCK_FRAMES ≤ frameNow s + 2 - inTolNext s then
        lockState t = lockLocked ∧ raised baseBeat 3 t = true
      else lockState t = lockAcquire)) ∧
  (512000 < e ∨ 512000 < -e ∨ s.beat.firstMeas = true →
    t.beat.offset = s.beat.offset - BitVec.ofInt 64 (64 * nearestFrames e)) ∧
  (e ≤ 512000 → -e ≤ 512000 → s.beat.firstMeas = false → t.beat.offset = s.beat.offset)

/-- The rows that begin a run of the part or end one: the beat count then jumps (R31, R481). -/
def startRow : Instr → Bool
  | .powerOnStart _ => true
  | .offExit _ => true
  | .startStepTimeout _ _ => true
  | .groutRestart _ => true
  | _ => false

/-! ## Plan entries -/

/-- Where the entry of a plan-entry row stands, and its OP code (R39, R108, R191, R312, R377). -/
def entryRow : Instr → Option (PlanUnit × Nat × Nat)
  | .fchNop ch idx => some (.fch ch, idx, 0)
  | .readPage ch idx => some (.fch ch, idx, 1)
  | .readSoft ch idx => some (.fch ch, idx, 2)
  | .program ch idx => some (.fch ch, idx, 3)
  | .erase ch idx => some (.fch ch, idx, 4)
  | .suspend ch idx => some (.fch ch, idx, 5)
  | .resume ch idx => some (.fch ch, idx, 6)
  | .status ch idx _ => some (.fch ch, idx, 7)
  | .load ch idx _ => some (.fch ch, idx, 8)
  | .fetch ch idx _ _ => some (.fch ch, idx, 9)
  | .setTrim ch idx => some (.fch ch, idx, 0x0A)
  | .resetLun ch idx => some (.fch ch, idx, 0x0B)
  | .courseStep ch idx => some (.fch ch, idx, 0x0C)
  | .laneNop lane idx => some (.lane lane, idx, 0)
  | .accum lane idx => some (.lane lane, idx, 1)
  | .emit lane idx => some (.lane lane, idx, 2)
  | .arm lane idx => some (.lane lane, idx, 3)
  | .clear lane idx => some (.lane lane, idx, 4)
  | .macNop p idx => some (.mac p, idx, 0)
  | .verifyEntry p idx _ => some (.mac p, idx, 1)
  | .retag p idx _ => some (.mac p, idx, 2)
  | .raw p idx => some (.mac p, idx, 3)
  | .cplNop c idx => some (.poster c, idx, 0)
  | .post c idx _ => some (.poster c, idx, 1)
  | .postQuiet c idx _ => some (.poster c, idx, 2)
  | .hodNop idx => some (.hod, idx, 0)
  | .window idx => some (.hod, idx, 1)
  | _ => none

/-- The entries that act on nothing the model holds: they only retire done. -/
def quietEntry : Instr → Option (PlanUnit × Nat × Nat)
  | .fchNop ch idx => some (.fch ch, idx, 0)
  | .setTrim ch idx => some (.fch ch, idx, 0x0A)
  | .courseStep ch idx => some (.fch ch, idx, 0x0C)
  | .laneNop lane idx => some (.lane lane, idx, 0)
  | .macNop p idx => some (.mac p, idx, 0)
  | .cplNop c idx => some (.poster c, idx, 0)
  | .hodNop idx => some (.hod, idx, 0)
  | _ => none

/-- The channel entries that begin a die operation of their own: channel, index, OP code and kind (R39). -/
def dieRow : Instr → Option (Nat × Nat × Nat × DieKind)
  | .readPage ch idx => some (ch, idx, 1, .read)
  | .readSoft ch idx => some (ch, idx, 2, .soft)
  | .program ch idx => some (ch, idx, 3, .program)
  | .erase ch idx => some (ch, idx, 4, .erase)
  | .resetLun ch idx => some (ch, idx, 0x0B, .reset)
  | _ => none

/-- Entry `idx` of the plan a unit executes has RETIRED set and a status code (R38, R40). -/
def retiredAs (u : PlanUnit) (idx code : Nat) (s t : State) : Prop :=
  (getBuf t u (beatNow s)).ents[idx]?.map (fun p => (p.retired, p.code)) = some (true, code)

/-! ## Commands of the host interface -/

/-- The queue and identifier of a row that a host issues as an NVMe command. -/
def hostHead : Instr → Option CmdHead
  | .tileProvision _ req => req.map (·.h)
  | .tileStart _ req => req.map (·.h)
  | .tileStop _ req => req.map (·.h)
  | .tileRelease _ req => req.map (·.h)
  | .tileSetShares _ req => req.map (·.h)
  | .unsupportedOpcode h _ => some h
  | .createIoSq h _ _ _ _ => some h
  | .deleteIoSq h _ => some h
  | .createIoCq h _ _ _ => some h
  | .deleteIoCq h _ => some h
  | .getLogPage h _ _ _ _ => some h
  | .getLogPageC0 h _ _ => some h
  | .getLogPageC1 h _ _ => some h
  | .getLogPageC2 h _ => some h
  | .getLogPageC3 h _ _ _ => some h
  | .getLogPageC4 h _ _ _ => some h
  | .getLogPageC5 h => some h
  | .identify h _ => some h
  | .abort h _ _ => some h
  | .setFeatures h _ _ => some h
  | .setFeaturesPowerManagement h _ => some h
  | .setFeaturesArbitration h _ _ _ _ => some h
  | .setFeaturesVwc h _ => some h
  | .setFeaturesFdp h _ => some h
  | .setFeaturesFdpEvents h _ _ => some h
  | .setFeaturesTimestamp h _ => some h
  | .getFeatures h _ => some h
  | .asyncEventRequest h => some h
  | .namespaceCreate h _ _ _ _ => some h
  | .namespaceDelete h => some h
  | .namespaceAttachment h _ => some h
  | .formatNvm h _ _ => some h
  | .deviceSelfTest h _ => some h
  | .securitySend h => some h
  | .securityReceive h => some h
  | .directiveSend h => some h
  | .directiveReceive h => some h
  | .firmwareImageDownload h _ _ _ => some h
  | .fwCommitStore h _ _ => some h
  | .fwCommitStoreActivateReset h _ _ => some h
  | .fwCommitActivateReset h _ _ => some h
  | .fwCommitActivateNow h _ _ => some h
  | .sanitize h _ => some h
  | .modeRequest h _ => some h
  | .managementRead h _ _ => some h
  | .managementWrite h _ _ => some h
  | .recorderFreeze req _ => req
  | .recorderThaw req _ => req
  | .write h _ _ _ => some h
  | .read h _ _ _ _ => some h
  | .flush h _ => some h
  | .writeZeroes h _ _ _ => some h
  | .datasetManagement h _ _ => some h
  | .verify h _ _ => some h
  | .ioManagementSend h _ => some h
  | .ioManagementReceive h => some h
  | .zoneAppend h _ _ _ => some h
  | .zoneManagementReceive h _ _ _ => some h
  | .openZone h _ _ => some h
  | .closeZone h _ _ => some h
  | .finishZone h _ _ => some h
  | .resetZone h _ _ => some h
  | .offlineZone h _ _ => some h
  | .setZoneDescriptorExtension h => some h
  | .zoneAudit h _ _ => some h
  | .readTags h _ _ => some h
  | _ => none

/-- The admin commands: what R98 and R102 say of each: its OP code, whether it is for a PF0 function alone, and whether SANITIZE,
RECOVERY and EVACUATE serve it. -/
structure AdminRow where
  h : CmdHead
  op : Nat
  pf0 : Bool
  san : Bool
  recov : Bool
  evac : Bool

def adminRow (s : State) : Instr → Option AdminRow
  | .unsupportedOpcode h opcode => some ⟨h, opcode, false, true, true, true⟩
  | .createIoSq h _ _ _ _ => some ⟨h, 0x01, false, false, false, true⟩
  | .deleteIoSq h _ => some ⟨h, 0x00, false, false, false, true⟩
  | .createIoCq h _ _ _ => some ⟨h, 0x05, false, false, false, true⟩
  | .deleteIoCq h _ => some ⟨h, 0x04, false, false, false, true⟩
  | .getLogPage h _ _ _ _ => some ⟨h, 0x02, false, true, true, true⟩
  | .getLogPageC0 h _ _ => some ⟨h, 0x02, false, true, true, true⟩
  | .getLogPageC1 h _ _ => some ⟨h, 0x02, false, true, true, true⟩
  | .getLogPageC2 h _ => some ⟨h, 0x02, false, true, true, true⟩
  | .getLogPageC3 h _ _ _ => some ⟨h, 0x02, false, true, true, true⟩
  | .getLogPageC4 h _ _ _ => some ⟨h, 0x02, false, true, true, true⟩
  | .getLogPageC5 h => some ⟨h, 0x02, false, true, true, true⟩
  | .identify h _ => some ⟨h, 0x06, false, true, true, true⟩
  | .abort h _ _ => some ⟨h, 0x08, false, true, false, true⟩
  | .setFeatures h _ _ => some ⟨h, 0x09, false, false, true, true⟩
  | .setFeaturesPowerManagement h _ => some ⟨h, 0x09, false, false, true, true⟩
  | .setFeaturesArbitration h _ _ _ _ => some ⟨h, 0x09, false, false, true, true⟩
  | .setFeaturesVwc h _ => some ⟨h, 0x09, false, false, true, true⟩
  | .setFeaturesFdp h _ => some ⟨h, 0x09, false, false, true, true⟩
  | .setFeaturesFdpEvents h _ _ => some ⟨h, 0x09, false, false, true, true⟩
  | .setFeaturesTimestamp h _ => some ⟨h, 0x09, false, false, true, true⟩
  | .getFeatures h _ => some ⟨h, 0x0A, false, true, true, true⟩
  | .asyncEventRequest h => some ⟨h, 0x0C, false, true, false, true⟩
  | .namespaceCreate h _ _ _ _ => some ⟨h, 0x0D, false, false, false, false⟩
  | .namespaceDelete h => some ⟨h, 0x0D, false, false, false, true⟩
  | .namespaceAttachment h _ => some ⟨h, 0x15, false, false, false, true⟩
  | .formatNvm h _ _ => some ⟨h, 0x80, false, false, false, false⟩
  | .deviceSelfTest h _ => some ⟨h, 0x14, false, false, false, true⟩
  | .securitySend h => some ⟨h, 0x81, false, false, false, true⟩
  | .securityReceive h => some ⟨h, 0x82, false, false, false, true⟩
  | .directiveSend h => some ⟨h, 0x19, false, false, false, true⟩
  | .directiveReceive h => some ⟨h, 0x1A, false, false, false, true⟩
  | .firmwareImageDownload h _ _ _ => some ⟨h, 0x11, true, false, true, true⟩
  | .fwCommitStore h _ _ => some ⟨h, 0x10, true, false, true, true⟩
  | .fwCommitStoreActivateReset h _ _ => some ⟨h, 0x10, true, false, true, true⟩
  | .fwCommitActivateReset h _ _ => some ⟨h, 0x10, true, false, true, true⟩
  | .fwCommitActivateNow h _ _ => some ⟨h, 0x10, true, false, true, true⟩
  | .sanitize h _ => some ⟨h, 0x84, true, decide (s.top.sanStat = 3), false, false⟩
  | .modeRequest h _ => some ⟨h, 0xC0, true, false, true, true⟩
  | .managementRead h _ _ => some ⟨h, 0xC2, true, true, true, true⟩
  | .managementWrite h _ _ => some ⟨h, 0xC5, true, true, true, true⟩
  | .recorderFreeze req _ => req.map (fun h => ⟨h, 0xC4, true, false, true, true⟩)
  | .recorderThaw req _ => req.map (fun h => ⟨h, 0xC4, true, false, true, true⟩)
  | _ => none

/-- The I/O commands: what each is, and whether it is one that EVACUATE serves (R102). -/
def ioRow : Instr → Option (CmdHead × CmdKind × Bool)
  | .write h _ _ _ => some (h, .write, false)
  | .read h _ _ _ _ => some (h, .read, true)
  | .flush h _ => some (h, .flush, true)
  | .writeZeroes h _ _ _ => some (h, .writeZeroes, false)
  | .datasetManagement h _ _ => some (h, .dsm, false)
  | .verify h _ _ => some (h, .verify, true)
  | .ioManagementSend h _ => some (h, .ioMgmt, false)
  | .ioManagementReceive h => some (h, .ioMgmt, false)
  | .zoneAppend h _ _ _ => some (h, .append, false)
  | .zoneManagementReceive h _ _ _ => some (h, .zoneReceive, true)
  | .openZone h _ _ => some (h, .zoneSend 3, false)
  | .closeZone h _ _ => some (h, .zoneSend 1, false)
  | .finishZone h _ _ => some (h, .zoneSend 2, false)
  | .resetZone h _ _ => some (h, .zoneSend 4, false)
  | .offlineZone h _ _ => some (h, .zoneSend 5, false)
  | .setZoneDescriptorExtension h => some (h, .zoneSend 0x10, false)
  | .zoneAudit h _ _ => some (h, .audit, true)
  | .readTags h _ _ => some (h, .readTags, true)
  | _ => none

/-- The blocks that a command looks up at its fetch (R406). -/
def lookupRow : Instr → Option (CmdHead × Nat × Nat)
  | .read h slba nlb _ _ => some (h, slba, nlb)
  | .verify h slba nlb => some (h, slba, nlb)
  | .readTags h slba count => some (h, slba, count + 1)
  | _ => none

/-- An admin command of its row is served: by its function (R98) and in the present mode (R102). -/
def adminServed (s : State) (r : AdminRow) : Prop :=
  (r.pf0 = false ∨ isPF0 s r.h.fn = true) ∧ (modeNow s = modeSanitize → r.san = true) ∧
    (modeNow s = modeRecovery → r.recov = true) ∧ (modeNow s = modeEvacuate → r.evac = true)

/-- A row is an admin command that its queue gives up, the state then being `u`, and that is served. -/
def adminRuns (s : State) (c : Instr) (u : State) : Prop :=
  ∃ r, adminRow s c = some r ∧ adminServed s r ∧ takeCmd r.h s = some u

/-- An I/O command of its row is served: its namespace valid, no deferred error to report first, the mode allowing it, its
queue giving it up, and its map lines present (R71, R102, R114, R406). -/
def ioRuns (s : State) (c : Instr) (u : State) : Prop :=
  ∃ h kind reads, ioRow c = some (h, kind, reads) ∧ takeCmd h s = some u ∧ nsOk s h = true ∧ dweDue s h.nsid = false ∧
    modeNow s ≠ modeSanitize ∧ modeNow s ≠ modeRecovery ∧ (modeNow s = modeEvacuate → reads = true) ∧
    ∀ l, lookupRow c = some l → mapReady s h.nsid l.2.1 l.2.2 = true

/-- The command that a row has put into the table, where it has answered it at once: ready, with a status. -/
def answeredWith (h : CmdHead) (sts : Sts) (u t : State) : Prop :=
  (getCmd t u.host.nextCmd).h = h ∧ (getCmd t u.host.nextCmd).st = .ready ∧ (getCmd t u.host.nextCmd).status = sts ∧
    t.host.nextCmd = (u.host.nextCmd + 1) % 262144

/-- The rows that are SPDM requests on a connection, with the negotiation that each needs; none where it needs none of its
own (R346, R347). -/
def spdmRow : Instr → Option (Conn × Option Nat)
  | .slhSignatureGet c => some (c, none)
  | .spdmChunkGet c _ => some (c, none)
  | .slhChainGet c => some (c, some 1)
  | .spdmGetVersion c => some (c, some 0)
  | .spdmGetCapabilities c => some (c, some 1)
  | .spdmNegotiateAlgorithms c => some (c, some 2)
  | .spdmGetDigests c => some (c, some 3)
  | .spdmGetCertificate c _ _ _ => some (c, some 3)
  | .spdmChallenge c _ _ => some (c, some 3)
  | .spdmGetMeasurements c _ _ _ => some (c, some 3)
  | .spdmKeyExchange c _ _ => some (c, some 3)
  | .spdmFinish c _ _ _ => some (c, some 3)
  | .spdmKeyUpdate c => some (c, some 3)
  | .spdmEndSession c => some (c, some 3)
  | .spdmChunkSend c _ _ => some (c, some 2)
  | _ => none

/-- A response on a connection is the newest thing that left the part, and only the security core's state, and what a free
value counts, changed with it. -/
def saidOn (c : Conn) (code : Nat) (data : List Byte) (u t : State) : Prop :=
  t.out = .spdm c code data :: u.out ∧ changesOnly [.sec, .out, .freeCtr] u t

/-- The Rirus messages: TAG, and whether each needs a session, is served by the recovery loader, and in SANITIZE (R341, R364,
R367, R102). -/
def rirusRow : Instr → Option (Nat × Bool × RirNeed)
  | .rirusMgmtRead tag _ _ => some (tag, false, needRead)
  | .rirusMgmtWrite tag inSession _ _ => some (tag, inSession, needWrite)
  | .rirusTileOp tag inSession _ _ _ => some (tag, inSession, needTile)
  | .rirusModeRequest tag inSession _ => some (tag, inSession, needTile)
  | .rirusLogRead tag _ _ _ => some (tag, false, needRead)
  | .rirusRecorderControl tag inSession _ _ => some (tag, inSession, needTile)
  | .rirusFwDownload tag inSession _ _ _ => some (tag, inSession, needFw)
  | .rirusFwCommit tag inSession _ _ _ => some (tag, inSession, needFw)
  | _ => none

/-- A Rirus message is taken, the state then being `u`, and nothing stands in its way. -/
def rirusRuns (s : State) (c : Instr) (u : State) : Prop :=
  ∃ tag inSession n, rirusRow c = some (tag, inSession, n) ∧ sidebandUp s = true ∧ asleep s = false ∧ u = wakeDrive s ∧
    (inLoader u = true → n.loader = true) ∧
    (inLoader u = false → pausing u = false ∧
      (n.session = true → isSet u F.SEC_SIDEBAND_REQUIRE_SESSION = true → inSession = true) ∧
      adminGate u n.sanOk n.recOk n.evac = none)

/-- The registers of a memory: its MEMCHK sub-block, or its channel's page (R389). -/
def memPage (m a : Nat) : Prop :=
  if m < 16 then 0x9000 + 0x100 * m ≤ a ∧ a < 0x9100 + 0x100 * m
  else 0xA000 + 0x1000 * (m - 16) ≤ a ∧ a < 0xB000 + 0x1000 * (m - 16)

/-- Cause `bit` of a memory reads set (R395 to R399). -/
def memCaused (m bit : Nat) (t : State) : Prop :=
  getF t (mF m (fun k => bitF (Reg.MEMCHK_CAUSE k) bit) (fun c => bitF (Reg.MAPMEM_CAUSE c) bit)) = 1

/-- A counter of a memory has risen by one, if it had not reached its largest value. -/
def memCounted (m : Nat) (chk map : Nat → Fld) (s t : State) : Prop :=
  getF t (mF m chk map) = min (2 ^ (mF m chk map).w - 1) (getF s (mF m chk map) + 1)

/-- The entry that an error makes in a memory's log (R395). -/
def memEntry (s : State) (word syndrome kind : Nat) (src : ErrSource) : MemLog :=
  { no := s.mems.nextNo, word := word, syndrome := syndrome, kind := kind, beat := beatNow s % 2 ^ 32
    source := match src with
      | .read => 0
      | .merge => 1
      | .scrub => 2 }

/-- Times an error has been found at the same bits of a word (R398). -/
def memHits (s : State) (m word syndrome : Nat) : Nat :=
  (((getMem s m).found.find? (fun p => decide (p.1 = word) && decide (p.2.1 = syndrome))).map (·.2.2)).getD 0

/-- The rows that are one register write under R423 and R424: its path, its window address and its word. -/
def guardRow (s : State) : Instr → Option (Path × Nat × W32)
  | .kilnMinLevelWrite v => some (.onChip, Reg.KILN_CFG, v)
  | .beatWinApplyWrite v => some (.onChip, Reg.BEAT_WIN_APPLY, v)
  | .beatSrcWrite v => some (.onChip, Reg.BEAT_CTRL, v)
  | .beatHostOffsetWrite v => some (.onChip, Reg.BEAT_HOST_OFFSET_HI, v)
  | .beatOriginWrite hi v => some (.onChip, if hi then Reg.BEAT_ORIGIN_HI else Reg.BEAT_ORIGIN_LO, v)
  | .hodStart k => if k < 32 then some (.onChip, Reg.HOD_CH_CTRL k, 1) else none
  | .hodKick k => if k < 32 then some (.onChip, Reg.HOD_CH_CTRL k, 2) else none
  | .hodAbort k => if k < 32 then some (.onChip, Reg.HOD_CH_CTRL k, 4) else none
  | .hodSwreqWrite v => some (.onChip, Reg.HOD_SWREQ, v)
  | .hodChNextWrite k hi v =>
    if k < 32 then some (.onChip, if hi then Reg.HOD_CH_NEXT_HI k else Reg.HOD_CH_NEXT_LO k, v) else none
  | .hostLinkRetrain p => some (.onChip, Reg.HOST_LINK_CTRL p, 8)
  | .mapmemRetrain c _ => some (.onChip, Reg.MAPMEM_CFG c, 4)
  | .evtForceWrite base v => if isPage base then some (.onChip, Reg.EVT_FORCE base, v) else none
  | .evtEnWrite base v => if isPage base then some (.onChip, Reg.EVT_EN base, v) else none
  | .evtPendClear base v => if isPage base then some (.onChip, Reg.EVT_PEND base, v) else none
  | .evtRouteWrite src v => if src < 256 then some (.onChip, Reg.EVT_ROUTE src, v) else none
  | .evtFwRaiseWrite v => some (.onChip, Reg.EVT_FW_RAISE, v)
  | .recNext => some (.onChip, Reg.REC_CTRL, 4)
  | .recRefill => some (.onChip, Reg.REC_CTRL, 8)
  | .recCursorWrite v => some (.onChip, Reg.REC_CURSOR, v)
  | .recorderFreeze none _ => some (.onChip, Reg.REC_CTRL, 1)
  | .recorderThaw none _ => some (.onChip, Reg.REC_CTRL, 2)
  | .sortEntryStage i word v => some (.onChip, sortWindow i word, v)
  | .sortEntryCommit i v => some (.onChip, sortWindow i 7, v)
  | .sortInsert i j => some (.onChip, Reg.SORT_CMD, sortCmdWord 2 i j)
  | .sortDelete i j => some (.onChip, Reg.SORT_CMD, sortCmdWord 3 i j)
  | .sortInvalidate i j => some (.onChip, Reg.SORT_CMD, sortCmdWord 4 i j)
  | .sortSave => some (.onChip, Reg.SORT_CMD, sortCmdWord 5 0 0)
  | .sortCfgWrite v => some (.onChip, Reg.SORT_CFG, v)
  | .tileProvision t none => if t < 64 ∧ running s = true then some (.onChip, Reg.TILE_CMD t, 1) else none
  | .tileStart t none => if t < 64 ∧ running s = true then some (.onChip, Reg.TILE_CMD t, 2) else none
  | .tileStop t none => if t < 64 ∧ running s = true then some (.onChip, Reg.TILE_CMD t, 3) else none
  | .tileRelease t none => if t < 64 ∧ running s = true then some (.onChip, Reg.TILE_CMD t, 4) else none
  | .tileSetShares t none => if t < 64 ∧ running s = true then some (.onChip, Reg.TILE_CMD t, 5) else none
  | .yardCfgWrite v => some (.onChip, Reg.YARD_CFG, v)
  | .trowelBudgetWrite v => some (.onChip, Reg.TROWEL_BUDGET, v)
  | .topCompatWrite v => some (.onChip, Reg.TOP_COMPAT, v)
  | .topLedgerClear => some (.onChip, Reg.TOP_CTRL, 2)
  | .topRestart => some (.onChip, Reg.TOP_CTRL, 1)
  | .blkSoftReset base => if isPage base then some (.onChip, Reg.BLK_CTRL base, 2) else none
  | .blkEnableWrite base v => if isPage base then some (.onChip, Reg.BLK_CTRL base, v) else none
  | .blkPowerVoteWrite base v => if isPage base then some (.onChip, Reg.BLK_CTRL base, v) else none
  | .blkLockSet base => if isPage base then some (.onChip, Reg.BLK_LOCK base, 1) else none
  | .mbxKeyErase path => some (path, Reg.SEC_MBX_CMD, 1)
  | .mbxSessionEnd path => some (path, Reg.SEC_MBX_CMD, 2)
  | .mbxChallenge path => some (path, Reg.SEC_MBX_CMD, 3)
  | .mbxDebugUnlock path _ => some (path, Reg.SEC_MBX_CMD, 4)
  | .mbxSvnCommit path _ => some (path, Reg.SEC_MBX_CMD, 5)
  | .mbxRootRevoke path _ => some (path, Reg.SEC_MBX_CMD, 6)
  | _ => none

/-- The rows whose whole effect a write of their word by any path has (R11, R500): those of `guardRow` but for the rows whose
operands say more than the word does, or less. -/
def ownWrite : Instr → Bool
  | .hostLinkRetrain _ => false
  | .mapmemRetrain _ _ => false
  | .recorderFreeze _ _ => false
  | .recorderThaw _ _ => false
  | .sortEntryStage i word _ => decide (i < 4096 ∧ word < 16 ∧ word ≠ 7)
  | .sortEntryCommit i _ => decide (i < 4096)
  | .blkSoftReset _ => false
  | .blkEnableWrite _ _ => false
  | .blkPowerVoteWrite _ _ => false
  | .mbxDebugUnlock _ _ => false
  | .mbxSvnCommit _ _ => false
  | .mbxRootRevoke _ _ => false
  | _ => true

/-- A register's fields after a write of a word to it, by their access codes (R11). -/
def fieldsWritten (s t : State) (a v : Nat) (locked : Bool) (f : RegFld) : Prop :=
  bitsOf (getR t a) f.lo f.w =
    match f.acc with
    | .rw => bitsOf v f.lo f.w
    | .rws => bitsOf v f.lo f.w
    | .rwl => if locked then bitsOf (getR s a) f.lo f.w else bitsOf v f.lo f.w
    | .w1c => Nat.land (bitsOf (getR s a) f.lo f.w) (2 ^ f.w - 1 - bitsOf v f.lo f.w)
    | .w1s => Nat.lor (bitsOf (getR s a) f.lo f.w) (bitsOf v f.lo f.w)
    | _ => bitsOf (getR s a) f.lo f.w

/-- A page's ERR_INFO holds an error: the first since it was last read whole, and with a later one MORE (R497). -/
def errNoted (base code detail addr : Nat) (s t : State) : Prop :=
  (base ∉ s.errHeld → getF t (F.ERR_INFO_CODE base) = code ∧ getF t (F.ERR_INFO_DETAIL base) = detail ∧
    getR t (Reg.ERR_ADDR_LO base) = addr % 2 ^ 32 ∧ getR t (Reg.ERR_ADDR_HI base) = addr / 2 ^ 32 % 2 ^ 32 ∧
    t.errHeld = base :: s.errHeld) ∧
  (base ∈ s.errHeld → getF t (F.ERR_INFO_MORE base) = 1 ∧ getF t (F.ERR_INFO_CODE base) = getF s (F.ERR_INFO_CODE base) ∧
    t.errHeld = s.errHeld)

/-- A step neither faults nor refuses. -/
def safeStep (s : State) : Prop := ∃ t, step s = .next t

end Sys2Proof.Machine
end

