-- ==== Sys2Proof/Certificates/Slice0/Obligations.lean ====
section
/-!
DEFINITION. Certificates/Slice0/Obligations.lean: the statements about the model of the MY96.  Each docstring names the rules
of spec/ a statement rests on.
-/

open Sys2Proof Sys2Proof.Machine

/-- Model's own framing of the block (log 5): a step takes the command at the front of the queue and runs exactly its
meaning on the state with the rest of the queue. -/
def Obligations.StepRunsFrontCommand : Prop :=
  ∀ (s : State) (c : Instr) (cs : List Instr), step { s with pending := c :: cs } = exec c { s with pending := cs }

/-- Log 5: on an empty queue the block idles; a command of the queue's front leaves the rest of the queue as it was.
R492 lays out a window of 64 MiB. No command is refused, and a command stops only where it carries an address outside
the window, and then always. -/
def Obligations.CommandsLeaveTheQueueAndFaultOutside : Prop :=
  ((∀ s : State, s.pending = [] → step s = .next s) ∧
   ∀ (s t : State) (c : Instr), exec c s = .next t → t.pending = s.pending) ∧
  ((∀ (c : Instr) (s : State) (r : Refusal), exec c s ≠ .refused r) ∧
   ∀ (c : Instr) (s : State) (f : Fault), exec c s = .fault f ↔
     f = .outsideWindow ∧ ∃ a, windowAddr c = some a ∧ windowSize ≤ a)

/-- The reset columns of the register tables (R491, R62, R469, R431, R88, R445, R335): what registers of every chapter
read after a power-on reset, and that every register of the window reads the value its table row gives. The register
table is in its canonical form after reset. -/
def Obligations.ResetHasItsValues : Prop :=
  ((∀ a, rd State.reset a = resetValue a) ∧
   getR State.reset Reg.TOP_CHIP_ID = 0x4E5A9600 ∧ getF State.reset F.TOP_MODE_MODE = 0xF ∧
   getF State.reset F.TOP_MODE_BASE = 1 ∧ getF State.reset F.BEAT_STATUS_COUNT_VALID = 0 ∧
   getF State.reset F.BEAT_CTRL_SRC = 0 ∧ getF State.reset F.BEAT_CTRL_PTM_FAILOVER = 1 ∧
   getF State.reset F.BEAT_LOCK_CFG_LOCK_FRAMES = 16 ∧ getF State.reset F.EVT_MSIX_A_VECTOR = 255 ∧
   getF State.reset F.REC_CFG_FREEZE_MAX = 4096 ∧ getF State.reset F.COURSE_CFG_WIDTH = 32 ∧
   getF State.reset F.PWR_STATE_CUR = 0 ∧ getF State.reset (F.TILE_STATE_STATE 0) = 2 ∧
   (∀ t, 1 ≤ t → t < 64 → getF State.reset (F.TILE_STATE_STATE t) = 0)) ∧
  (regsWf State.reset = true ∧ State.reset.pending = [])

/-- The register window keeps one canonical form whatever command runs: addresses strictly rising and no entry equal
to the reset value an unlisted register reads as, so that equal windows are equal data; and a free value once used is
never used again, for the counter behind it does not run back (log 3). -/
def Obligations.StepKeepsCanonicalForm : Prop :=
  ∀ s t : State, step s = .next t → (regsWf s = true → regsWf t = true) ∧ s.freeCtr ≤ t.freeCtr

/-- R62 (BEAT_WIN_APPLY, BEAT_ORIGIN, BEAT_HOST_OFFSET and BEAT_COUNT_LO), R49 and R463 reason 4: where the page
answers, the register takes the value written; the offset and the origin also write a TIME_ANCHOR; nothing else moves,
BEAT_COUNT included. Bits [5:0] of the offset are always 0. R55, R56, R59: SYNC_OUT is high in the first beat of each
host-grid frame that its mode selects and low otherwise; an armed window set whose frame has come becomes active as
one whole where every window fits its period, and is refused with BEAT_WIN_INVALID where one does not, ARM clearing
either way. -/
def Obligations.BeatRegistersSyncAndWindowsAct : Prop :=
  (∀ (s : State) (v : W32),
     (reach s Reg.BEAT_WIN_APPLY = .ok →
       ∃ t, completes (.beatWinApplyWrite v) s t ∧ writesReg Reg.BEAT_WIN_APPLY v.toNat s t) ∧
     (∀ hi, reach s (if hi then Reg.BEAT_ORIGIN_HI else Reg.BEAT_ORIGIN_LO) = .ok →
       ∃ t, completes (.beatOriginWrite hi v) s t ∧
         getR t (if hi then Reg.BEAT_ORIGIN_HI else Reg.BEAT_ORIGIN_LO) = v.toNat ∧ raised baseRec 5 t = true ∧
         regsKeptE (· = if hi then Reg.BEAT_ORIGIN_HI else Reg.BEAT_ORIGIN_LO) s t ∧ changesOnly eventParts s t) ∧
     (reach s Reg.BEAT_HOST_OFFSET_HI = .ok →
       ∃ t, completes (.beatHostOffsetWrite v) s t ∧
         t.beat.offset.toNat = v.toNat * 2 ^ 32 + getR s Reg.BEAT_HOST_OFFSET_LO / 64 * 64 ∧
         t.beat = { s.beat with offset := t.beat.offset } ∧ raised baseRec 5 t = true ∧
         regsKeptE (fun a => a = Reg.BEAT_HOST_OFFSET_LO ∨ a = Reg.BEAT_HOST_OFFSET_HI) s t ∧
         changesOnly (.beat :: eventParts) s t) ∧
     (reach s Reg.BEAT_COUNT_LO = .ok →
       ∃ t, completes .beatCountLoRead s t ∧
         writesReg Reg.BEAT_COUNT_HI (if countValid s then s.beat.count.toNat / 2 ^ 32 else 0) s t)) ∧
  (∀ s : State,
     (∃ t, completes .syncOutPulse s t ∧ changesOnly [.beat] s t ∧
       t.beat = { s.beat with syncOut := t.beat.syncOut } ∧
       (getF s F.BEAT_CTRL_SYNC_OUT_MODE = 0 ∨ getF s F.BEAT_CTRL_SYNC_OUT_MODE = 3 → t.beat.syncOut = false) ∧
       (getF s F.BEAT_CTRL_SYNC_OUT_MODE = 1 → (t.beat.syncOut = true ↔
         (hostGrid s).toNat % 64 = 0 ∧ (hostGrid s).toNat / 64 % getNZ s F.BEAT_SYNC_CFG_FRAMES = 0)) ∧
       (getF s F.BEAT_CTRL_SYNC_OUT_MODE = 2 → (t.beat.syncOut = true ↔
         (hostGrid s).toNat % 64 = 0 ∧ (hostGrid s).toNat / 64 % 1024 = 0))) ∧
     (winDue s = true → (∀ w ∈ pendingWins s, w.1 = 0 ∨ w.2.1 + w.2.2 ≤ 64 * w.1) →
       ∃ t, completes .bgWindowApply s t ∧ t.beat.wins = pendingWins s ∧
         t.beat.bgOnly = isSet s F.BEAT_CTRL_BG_WINDOWS_ONLY ∧ getF t F.BEAT_WIN_APPLY_ARM = 0 ∧
         regsKept (· = Reg.BEAT_WIN_APPLY) s t ∧ changesOnly [.regs, .beat] s t) ∧
     (winDue s = true → (∃ w ∈ pendingWins s, w.1 ≠ 0 ∧ 64 * w.1 < w.2.1 + w.2.2) →
       ∃ t, completes .bgWindowApply s t ∧ raised baseBeat 5 t = true ∧ getF t F.BEAT_WIN_APPLY_ARM = 0 ∧
         regsKeptE (· = Reg.BEAT_WIN_APPLY) s t ∧ changesOnly eventParts s t))

/-- R50 (the rows of BEAT_CTRL.SRC) and R59: writing BEAT_CTRL sets the register; SRC = FREE, or the reserved 0b11,
moves the lock to FREE with the rate correction at 0 and the offset kept; PTM or SYNC_IN moves it from FREE to
ACQUIRE, and its next measurement counts as the first after FREE; otherwise the lock stays. The active background copy
does not change. R50, R51, R53: a PTM exchange on a port that is up, and a SYNC_IN edge, measure the phase error; each
ends the run of failures. R50, R53, R61: LOSS_COUNT consecutive failed PTM exchanges, or MISS_LIMIT consecutive
missing SYNC_IN edges, move a lock that acquires or is locked to HOLDOVER and raise BEAT_SYNC_FAULT; before that the
count of failures rises by one. A host that has not enabled PTM raises BEAT_SYNC_FAULT once and moves nothing. -/
def Obligations.TheTimeLockFollowsItsSource : Prop :=
  (∀ (s : State) (v : W32), reach s Reg.BEAT_CTRL = .ok →
     ∃ t, completes (.beatSrcWrite v) s t ∧ getR t Reg.BEAT_CTRL = v.toNat % 128 ∧
       t.beat.count = s.beat.count ∧ t.beat.offset = s.beat.offset ∧ t.beat.bgOnly = s.beat.bgOnly ∧
       t.beat.wins = s.beat.wins ∧ changesOnly (.beat :: eventParts) s t ∧
       (v.toNat % 4 = 0 ∨ v.toNat % 4 = 3 →
         lockState t = lockFree ∧ (lockState s ≠ lockFree → getR t Reg.BEAT_RATE_ADJ = 0)) ∧
       (v.toNat % 4 = 1 ∨ v.toNat % 4 = 2 →
         (lockState s = lockFree → lockState t = lockAcquire ∧ t.beat.firstMeas = true) ∧
         (lockState s ≠ lockFree → lockState t = lockState s))) ∧
  (∀ (s : State) (e : Int),
     (∀ h, lockSrc s = 1 → isSet s (F.HOST_LINK_STATUS_UP (ptmPort s)) = true →
       ∃ t, completes (.ptmExchange e h) s t ∧ afterMeasure e s t ∧ t.beat.ptmFails = 0 ∧
         t.beat.hostTime = some (h, s.beat.count)) ∧
     (lockSrc s = 2 → ∃ t, completes (.syncInEdge e) s t ∧ afterMeasure e s t ∧ t.beat.syncMisses = 0)) ∧
  (∀ s : State, (lockState s = lockAcquire ∨ lockState s = lockLocked) →
     (lockSrc s = 1 → getF s F.BEAT_PTM_CFG_LOSS_COUNT ≤ s.beat.ptmFails + 1 →
       ∃ t, completes (.ptmExchangeFail false) s t ∧ lockState t = lockHoldover ∧ raised baseBeat 7 t = true ∧
         getR t Reg.BEAT_RATE_ADJ = getR s Reg.BEAT_RATE_ADJ ∧ t.beat.count = s.beat.count) ∧
     (lockSrc s = 1 → s.beat.ptmFails + 1 < getF s F.BEAT_PTM_CFG_LOSS_COUNT →
       ∃ t, completes (.ptmExchangeFail false) s t ∧
         t = { s with beat := { s.beat with ptmFails := s.beat.ptmFails + 1 } }) ∧
     (lockSrc s = 1 → s.beat.faulted = false →
       ∃ t, completes (.ptmExchangeFail true) s t ∧ raised baseBeat 7 t = true ∧ lockState t = lockState s) ∧
     (lockSrc s = 2 → getF s F.BEAT_SYNC_CFG_MISS_LIMIT ≤ s.beat.syncMisses + 1 →
       ∃ t, completes .syncInMissing s t ∧ lockState t = lockHoldover ∧ raised baseBeat 7 t = true ∧
         getR t Reg.BEAT_RATE_ADJ = getR s Reg.BEAT_RATE_ADJ ∧ t.beat.count = s.beat.count) ∧
     (lockSrc s = 2 → s.beat.syncMisses + 1 < getF s F.BEAT_SYNC_CFG_MISS_LIMIT →
       ∃ t, completes .syncInMissing s t ∧
         t = { s with beat := { s.beat with syncMisses := s.beat.syncMisses + 1 } }))

/-- R448: EVT_FORCE raises each cause written as 1 and nothing beyond what events change; a forced occurrence of a
FATAL source starts no grout, and on a cause page it sets no cause. R448, R496: a write of EVT_EN sets the enables of
the page's own bits (those of sources 221 and 222 read 1 whatever is written, R449), makes no occurrence, count or
record, and acts on the MSI-X target alone; a 1 written to EVT_PEND clears EVT_PEND and EVT_RAW of its bit, and is
ignored on the cause pages. R449, R453, R469: EVT_ROUTE takes its targets as written, with REC of sources 221 and 222
fixed at 1 and SEV writable for sources 248 to 255 alone. -/
def Obligations.EventRegistersAct : Prop :=
  (∀ (s : State) (base : Nat) (v : W32), isPage base = true → reach s (Reg.EVT_FORCE base) = .ok →
     ∃ t, completes (.evtForceWrite base v) s t ∧ evtOnly s t ∧
       (causePage base = false → ∀ i, i < pageBits base → bitsOf v.toNat i 1 = 1 → raised base i t = true) ∧
       (causePage base = true → getR t (Reg.EVT_RAW base) = getR s (Reg.EVT_RAW base)) ∧ t.grout = s.grout) ∧
  (∀ (s : State) (base : Nat) (v : W32), isPage base = true →
     (reach s (Reg.EVT_EN base) = .ok →
       ∃ t, completes (.evtEnWrite base v) s t ∧
         enWord t base = (if base = baseRec then Nat.lor (v.toNat % 2 ^ pageBits base) 0x60 else v.toNat % 2 ^ pageBits base) ∧
         regsKept (· = Reg.EVT_EN base) s t ∧ changesOnly [.regs, .msixDue] s t) ∧
     (reach s (Reg.EVT_PEND base) = .ok → causePage base = false →
       ∃ t, completes (.evtPendClear base v) s t ∧
         (∀ i, i < 32 → bitsOf (getR t (Reg.EVT_PEND base)) i 1 =
           if bitsOf v.toNat i 1 = 1 then 0 else bitsOf (getR s (Reg.EVT_PEND base)) i 1) ∧
         (∀ i, i < 32 → bitsOf (getR t (Reg.EVT_RAW base)) i 1 =
           if bitsOf v.toNat i 1 = 1 then 0 else bitsOf (getR s (Reg.EVT_RAW base)) i 1) ∧
         regsKept (fun a => a = Reg.EVT_PEND base ∨ a = Reg.EVT_RAW base) s t ∧ changesOnly [.regs] s t) ∧
     (reach s (Reg.EVT_PEND base) = .ok → causePage base = true → completes (.evtPendClear base v) s s)) ∧
  (∀ (s : State) (src : Nat) (v : W32), src < 256 → reach s (Reg.EVT_ROUTE src) = .ok →
     ∃ t, completes (.evtRouteWrite src v) s t ∧
       getF t (F.EVT_ROUTE_MSIX src) = bitsOf v.toNat 0 1 ∧ getF t (F.EVT_ROUTE_CORE src) = bitsOf v.toNat 1 1 ∧
       getF t (F.EVT_ROUTE_ALERT src) = bitsOf v.toNat 2 1 ∧
       getF t (F.EVT_ROUTE_REC src) = (if src = 221 ∨ src = 222 then 1 else bitsOf v.toNat 3 1) ∧
       getF t (F.EVT_ROUTE_CORE_SEL src) = bitsOf v.toNat 4 4 ∧
       getF t (F.EVT_ROUTE_SEV src) = (if 248 ≤ src then bitsOf v.toNat 8 3 else getF s (F.EVT_ROUTE_SEV src)) ∧
       regsKept (· = Reg.EVT_ROUTE src) s t ∧ changesOnly [.regs, .msixDue] s t)

/-- R450, R453: a port with a message due and none sent in this beat sends one MSI-X message to its vector, and one
that cannot be delivered is counted instead; EVT_FW_RAISE of a source 248 to 255 and a TYPE of 0x80 or above is one
occurrence of the source, and of any other source or TYPE is ignored. R455, R458, R461: from S12 on the oldest intake
entry takes the next sequence number; it enters the ring where a cell is free, and the holding FIFO while the recorder
is frozen and its severity is below CRITICAL. -/
def Obligations.EventsAreSentAndRecorded : Prop :=
  (∀ s : State,
     (∀ p, p ∈ s.msixDue → tget (fun _ => 0) s.msixBeat p ≠ beatNow s + 1 → isSet s (F.HOST_LINK_STATUS_UP p) = true →
       ∃ t, completes (.evtMsixSend p true) s t ∧ p ∉ t.msixDue ∧
         t.out = .msix (32 * p) (getF s (if p = 0 then F.EVT_MSIX_A_VECTOR else F.EVT_MSIX_B_VECTOR)) :: s.out ∧
         changesOnly [.msixDue, .msixBeat, .out] s t) ∧
     (∀ p, p ∈ s.msixDue → tget (fun _ => 0) s.msixBeat p ≠ beatNow s + 1 →
       ∃ t, completes (.evtMsixSend p false) s t ∧ t.out = s.out ∧
         getF t F.EVT_MSIX_LOST_COUNT = min (2 ^ 32 - 1) (getF s F.EVT_MSIX_LOST_COUNT + 1) ∧
         (1001 ∉ s.beat.frameRaised → raised baseEvt 0 t = true) ∧ tget (fun _ => 0) t.msixBeat p = beatNow s + 1) ∧
     (∀ v : W32, reach s Reg.EVT_FW_RAISE = .ok → 248 ≤ bitsOf v.toNat 0 8 → 128 ≤ bitsOf v.toNat 8 8 →
       ∃ t, completes (.evtFwRaiseWrite v) s t ∧ evtOnly s t ∧
         getF t (F.EVT_COUNT_COUNT (bitsOf v.toNat 0 8)) =
           min (2 ^ 32 - 1) (getF s (F.EVT_COUNT_COUNT (bitsOf v.toNat 0 8)) + 1) ∧
         (isSet s (F.EVT_ROUTE_REC (bitsOf v.toNat 0 8)) = true → asleep s = false →
           ∃ e ∈ t.recd.intake, e.src = bitsOf v.toNat 0 8)) ∧
     (∀ v : W32, reach s Reg.EVT_FW_RAISE = .ok → bitsOf v.toNat 0 8 < 248 ∨ bitsOf v.toNat 8 8 < 128 →
       completes (.evtFwRaiseWrite v) s s)) ∧
  (∀ (s : State) (e : IntakeEnt) (es : List IntakeEnt), modeNow s ≠ 15 → s.recd.intake = e :: es → e.typ ≠ 3 →
     (frozen s = false → s.recd.ring.length < ringCap s →
       ∃ t, completes .recordIntake s t ∧ t.recd.intake = es ∧
         t.recd.ring = s.recd.ring ++ [recOf e (getF s F.REC_NEXT_SEQ_SEQ) s.recd.dropSum] ∧
         getF t F.REC_NEXT_SEQ_SEQ = (getF s F.REC_NEXT_SEQ_SEQ + 1) % 2 ^ 32 ∧
         regsKept (· = Reg.REC_NEXT_SEQ) s t ∧ changesOnly [.regs, .recd] s t) ∧
     (frozen s = true → e.sev < 4 → s.recd.fifo.length < 63 →
       ∃ t, completes .recordIntake s t ∧ t.recd.intake = es ∧ t.recd.ring = s.recd.ring ∧
         t.recd.fifo = s.recd.fifo ++ [recOf e (getF s F.REC_NEXT_SEQ_SEQ) s.recd.dropSum] ∧
         getF t F.REC_NEXT_SEQ_SEQ = (getF s F.REC_NEXT_SEQ_SEQ + 1) % 2 ^ 32 ∧
         regsKept (· = Reg.REC_NEXT_SEQ) s t ∧ changesOnly [.regs, .recd] s t))

/-- R460, R461, R463: the read window's snapshot holds whole records from the cursor on, at most 4 KiB and 256 of
them; NEXT moves the cursor past the snapshot first; a freeze that has lasted FREEZE_MAX frames ends; a periodic
anchor is written when its epoch comes. -/
def Obligations.WindowFreezeAndAnchors : Prop :=
  ∀ s : State,
    (∀ v : W32, reach s Reg.REC_CURSOR = .ok →
      ∃ t, completes (.recCursorWrite v) s t ∧ getR t Reg.REC_CURSOR = v.toNat ∧
        t.recd.snap = (fitRecs 4096 (s.recd.ring.filter (fun r => decide (v.toNat ≤ r.seq)))).take 256 ∧
        getF t F.REC_WIN_INFO_COUNT = t.recd.snap.length % 2 ^ 9 ∧
        changesOnly [.regs, .recd] s t) ∧
    (reach s Reg.REC_CTRL = .ok →
      ∃ t, completes .recRefill s t ∧ getR t Reg.REC_CURSOR = getR s Reg.REC_CURSOR ∧
        t.recd = { s.recd with snap := t.recd.snap } ∧
        t.recd.snap =
          (fitRecs 4096 (s.recd.ring.filter (fun r => decide (getF s F.REC_CURSOR_SEQ ≤ r.seq)))).take 256) ∧
    (∀ r, reach s Reg.REC_CTRL = .ok → s.recd.snap.getLast? = some r → r.seq + 1 < 2 ^ 32 →
      ∃ t, completes .recNext s t ∧ getF t F.REC_CURSOR_SEQ = r.seq + 1 ∧
        t.recd.snap = (fitRecs 4096 (s.recd.ring.filter (fun x => decide (r.seq + 1 ≤ x.seq)))).take 256) ∧
    (freezeExpired s = true →
      ∃ t, completes .freezeTimeout s t ∧ frozen t = false ∧ t.recd.fifo = [] ∧ raised baseRec 1 t = true) ∧
    (getF s F.REC_CFG_ANCHOR_EPOCHS ≠ 0 → lockState s = lockLocked →
      beatNow s % (65536 * getF s F.REC_CFG_ANCHOR_EPOCHS) = 0 → 3 ∉ s.beat.once →
      ∃ t, completes .timeAnchorPeriodic s t ∧ raised baseRec 5 t = true ∧ t.beat.count = s.beat.count ∧
        t.recd.ring = s.recd.ring ∧ changesOnly (.beat :: eventParts) s t)

/-- R31: at every beat boundary while it is valid, in Run and Idle, BEAT_COUNT increments by one; in Sleep, Deep sleep
and Off, and before it is valid, a boundary does nothing; and of all commands only boundaries, and the starts at which
the count jumps, move the count. -/
def Obligations.BeatCountMovesAtBoundariesOnly : Prop :=
  (∀ s : State, countRuns s = true → ∃ t, completes .beatBoundary s t ∧ t.beat.count = s.beat.count + 1) ∧
  (∀ s : State, countRuns s = false → completes .beatBoundary s s) ∧
  (∀ (s t : State) (c : Instr), c ≠ .beatBoundary → startRow c = false → exec c s = .next t → t.beat.count = s.beat.count)

/-- R33, R74, R176, R481, R210, R212: the work of a header beat begins the shadow walk and the frame's counting,
leaves only the charges of plans for this frame, and saves the count in the sticky store; at a frame that is a
multiple of JOURNAL_INTERVAL the flush point journals a write-sequence reservation and saves the count in the system
area; at an epoch boundary the next checkpoint segment falls due and the seal stacks are saved. Each is done once in
its beat and in no other. -/
def Obligations.HeaderBeatFlushAndEpoch : Prop :=
  ∀ s : State,
    (headerNow s = true → 0 ∉ s.beat.once →
      ∃ t, completes .headerBeat s t ∧ t.sort.walking = true ∧ t.top = { s.top with ledgerSticky := beatNow s } ∧
        t.beat.once = 0 :: s.beat.once ∧ t.beat.frameRaised = [] ∧ t.beat.count = s.beat.count ∧
        t.tiles.sharesDue = [] ∧ (∀ x ∈ t.tiles.charge, x.1 / 2 ^ 18 = beatNow s / 64 % 2) ∧
        t.map = s.map ∧ t.host = s.host ∧ t.recd = s.recd) ∧
    (headerNow s = false ∨ 0 ∈ s.beat.once → completes .headerBeat s s) ∧
    (∀ ok, headerNow s = true → frameNow s % flushInterval s = 0 → s.grout.frozen = false → 1 ∉ s.beat.once →
      ∃ t, completes (.journalFlushPoint ok) s t ∧ t.top = { s.top with ledgerNv := beatNow s } ∧
        t.beat.once = 1 :: s.beat.once ∧ (s.map.loaded = true → t.map.jseq = s.map.jseq + 1) ∧
        (s.map.loaded = false → t.map = s.map)) ∧
    (∀ ok, headerNow s = false ∨ frameNow s % flushInterval s ≠ 0 ∨ s.grout.frozen = true ∨ 1 ∈ s.beat.once →
      completes (.journalFlushPoint ok) s s) ∧
    (∀ picks, headerNow s = true → beatNow s % 65536 = 0 → mapStill s = false → 2 ∉ s.beat.once →
      ∃ t, completes (.epochBoundary picks) s t ∧ t.beat.once = 2 :: s.beat.once ∧ t.mac.saved = s.mac.trees ∧
        (∃ q, t.map.ckptNow = some (epochNow s % ckptCycle s, q)) ∧ t.host = s.host ∧ t.top = s.top) ∧
    (∀ picks, headerNow s = false ∨ beatNow s % 65536 ≠ 0 ∨ mapStill s = true ∨ 2 ∈ s.beat.once →
      completes (.epochBoundary picks) s s)

/-- R34, R35, R36, R38: the writer of a unit commits the open buffer of the present beat, which then holds its
entries, none of them retired; a commit to a buffer that is not open, or by another writer, is dropped with
BEAT_PLAN_INVALID; a channel plan beyond its die cap is not committed (R438), nor is any once the grout has frozen the
plans (R285). R45, R17: a planner all of whose channels have run holding plans for BEAT_FAILOVER.BEATS consecutive
beats is declared failed: BEAT_PLANNER_FAILED, the DEGRADED cause, and its channels planned by its pair; where the
pair has failed already, the FATAL TOP_PLANNER_PAIR_FAILED. -/
def Obligations.PlanCommitFillsTheOpenBuffer : Prop :=
  (∀ (s : State) (u : PlanUnit) (writer target : Nat) (es : List PlanEntry) (accts : List Account),
     (capKept s u (beatNow s + 2) es = true → s.grout.frozen = false → openBuf s target = true → writer = writerOf s u →
       running s = true →
       ∃ t, completes (.planCommit u writer target es accts) s t ∧
         (getBuf t u target).target = target % 2 ^ 32 ∧ (getBuf t u target).valid = true ∧
         (getBuf t u target).held = false ∧ (getBuf t u target).invalid = false ∧
         (getBuf t u target).writer = writer ∧ (getBuf t u target).ents.map (·.e) = es ∧
         (∀ p ∈ (getBuf t u target).ents, p.retired = false ∧ p.code = 0)) ∧
     (capKept s u (beatNow s + 2) es = true → s.grout.frozen = false →
       openBuf s target = false ∨ writer ≠ writerOf s u ∨ running s = false →
       ∃ t, completes (.planCommit u writer target es accts) s t ∧ raised baseBeat 1 t = true ∧ evtOnly s t) ∧
     (capKept s u (beatNow s + 2) es = false ∨ s.grout.frozen = true →
       completes (.planCommit u writer target es accts) s s)) ∧
  (∀ (s : State) (p : Nat),
     (p < 8 → p ∉ s.beat.failed → plannerSilent s p = true →
       ∃ t, completes (.plannerFailed p) s t ∧ p ∈ t.beat.failed ∧ raised baseBeat 2 t = true ∧
         getF t F.TOP_MODE_CAUSE_DEG_PLANNER = 1 ∧ (∀ ch, ch / 4 = p → plannerOf t ch = Nat.xor p 1) ∧
         (Nat.xor p 1 ∈ s.beat.failed → raised baseTop 8 t = true ∧ (running s = true → t.top.faultN = true)) ∧
         (Nat.xor p 1 ∉ s.beat.failed → changesOnly (.beat :: eventParts) s t ∧
           regsKeptE (· = Reg.TOP_MODE_CAUSE) s t)) ∧
     (8 ≤ p ∨ p ∈ s.beat.failed ∨ plannerSilent s p = false → completes (.plannerFailed p) s s))

/-- R36: a write to a buffer that is sealed, executing or retired is dropped; a non-posted writer receives a bus
error, and a posted write raises BEAT_PLAN_INVALID. -/
def Obligations.ClosedBufferWritesAreDropped : Prop :=
  ∀ (s : State) (u : PlanUnit) (buf : Nat),
    (openBuf s buf = false →
      (∃ t, completes (.planWriteClosedBuffer u buf true) s t ∧ raised baseBeat 1 t = true ∧ evtOnly s t) ∧
      completes (.planWriteClosedBuffer u buf false) s { s with out := .busError :: s.out }) ∧
    (openBuf s buf = true → ∀ posted, completes (.planWriteClosedBuffer u buf posted) s s)

/-- R38, R40: an entry runs only in the beat its plan is executed, once: a row that names no such entry of the plan
does nothing; a NOP, SET_TRIM or COURSE_STEP entry retires done and changes nothing but its own status. -/
def Obligations.EntriesRunOnceInTheirBeat : Prop :=
  ∀ (s : State) (c : Instr) (u : PlanUnit) (idx op : Nat),
    (entryRow c = some (u, idx, op) → entryAt s u idx op = none → completes c s s) ∧
    (∀ p, quietEntry c = some (u, idx, op) → entryAt s u idx op = some p →
      ∃ t, completes c s t ∧ retiredAs u idx 1 s t ∧ changesOnly [.beat] s t ∧ t.beat.count = s.beat.count ∧
        ∀ j, j ≠ idx → (getBuf t u (beatNow s)).ents[j]? = (getBuf s u (beatNow s)).ents[j]?)

/-- R39, R40, R57, R225, R259: a die-starting entry outside the background windows, of class background, retires with
0x6, one on a busy LUN with 0x2, neither starting anything; otherwise its operation is under way on its LUN and it
retires with 0x1. A joined READ_PAGE adds its target to the read it joins. An erase of a brick that may not be erased
yet does not run. -/
def Obligations.DieEntriesLaunch : Prop :=
  ∀ (s : State) (c : Instr) (ch idx op : Nat) (kind : DieKind) (p : PEnt),
    dieRow c = some (ch, idx, op, kind) → entryAt s (.fch ch) idx op = some p →
    (op = 4 → mayErase s ch (eLun p.e) (eBrick p.e) = false → completes c s s) ∧
    ((op = 4 → mayErase s ch (eLun p.e) (eBrick p.e) = true) →
      (p.e.cls = 3 → bgBeat s = false →
        ∃ t, completes c s t ∧ retiredAs (.fch ch) idx 6 s t ∧ changesOnly [.beat, .tiles] s t) ∧
      (p.e.cls ≠ 3 ∨ bgBeat s = true → (op = 1 → joins s ch p = false) →
        ((getLun s ch (eLun p.e)).op.isSome = true →
          ∃ t, completes c s t ∧ retiredAs (.fch ch) idx 2 s t ∧ changesOnly [.beat, .tiles] s t) ∧
        ((getLun s ch (eLun p.e)).op = none →
          ∃ t, completes c s t ∧ retiredAs (.fch ch) idx 1 s t ∧
            (getLun t ch (eLun p.e)).op = some (opOf s kind p) ∧
            (op ≠ 1 → op ≠ 2 → changesOnly [.beat, .map] s t))) ∧
      (p.e.cls ≠ 3 ∨ bgBeat s = true → op = 1 → joins s ch p = true →
        ∀ o, (getLun s ch (eLun p.e)).op = some o →
          ∃ t, completes c s t ∧ retiredAs (.fch ch) idx 1 s t ∧
            (getLun t ch (eLun p.e)).op =
              some { o with targets := o.targets ++ [(eBrick p.e, ePage p.e, eMask p.e)] }))

/-- R40, R58, R227, R228, R262: SUSPEND at slot 0 suspends a program or an erase that may be suspended once more, and
RESUME takes it up with the beats it was suspended left out; STATUS ends the LUN's operation as the die answers; an
operation beyond its maximum ends with TIMEOUT as a failed one; a background operation still running as its window
ends is suspended where the die allows it, and otherwise raises BEAT_WIN_OVERRUN. R40, R190, R197, R224, R263: LOAD
gives its slot's plane-pages to the die and lays the slot; FETCH moves the codewords of the reads sensed on its page
to the decoders; a transfer error on either retires with 0x5 and XFER_ERR, and a FETCH on a busy LUN with 0x2. -/
def Obligations.DieOperationsEndAndBlocksMove : Prop :=
  (∀ (s : State) (ch idx : Nat) (p : PEnt),
     (entryAt s (.fch ch) idx 5 = some p →
       (∀ o, (getLun s ch (eLun p.e)).op = some o → p.e.slot = 0 → suspendable s ch o = true →
         ∃ t, completes (.suspend ch idx) s t ∧ retiredAs (.fch ch) idx 1 s t ∧ (getLun t ch (eLun p.e)).op = none ∧
           (getLun t ch (eLun p.e)).susp = some { o with susUsed := o.susUsed + 1, susBeat := beatNow s } ∧
           getF t (F.FCH_SUSPENDS_COUNT ch) = min (2 ^ 32 - 1) (getF s (F.FCH_SUSPENDS_COUNT ch) + 1) ∧
           regsKept (· = Reg.FCH_SUSPENDS ch) s t ∧ changesOnly [.beat, .map, .regs] s t) ∧
       ((∀ o, (getLun s ch (eLun p.e)).op = some o → p.e.slot ≠ 0 ∨ suspendable s ch o = false) →
         ∃ t, completes (.suspend ch idx) s t ∧ retiredAs (.fch ch) idx 1 s t ∧ changesOnly [.beat] s t)) ∧
     (∀ o, entryAt s (.fch ch) idx 6 = some p → p.e.cls ≠ 3 ∨ bgBeat s = true → (getLun s ch (eLun p.e)).op = none →
       (getLun s ch (eLun p.e)).susp = some o →
       ∃ t, completes (.resume ch idx) s t ∧ retiredAs (.fch ch) idx 1 s t ∧ (getLun t ch (eLun p.e)).susp = none ∧
         (getLun t ch (eLun p.e)).op = some { o with beat := o.beat + (beatNow s - o.susBeat) } ∧
         changesOnly [.beat, .map] s t) ∧
     (entryAt s (.fch ch) idx 7 = some p →
       (∀ r, (getLun s ch (eLun p.e)).op = none →
         ∃ t, completes (.status ch idx r) s t ∧ retiredAs (.fch ch) idx 1 s t ∧ changesOnly [.beat] s t) ∧
       (∃ t, completes (.status ch idx .busy) s t ∧ retiredAs (.fch ch) idx 1 s t ∧ changesOnly [.beat] s t) ∧
       (∀ o, (getLun s ch (eLun p.e)).op = some o →
         (o.kind ≠ .erase → ∃ t, completes (.status ch idx .done) s t ∧ retiredAs (.fch ch) idx 1 s t ∧
           (getLun t ch (eLun p.e)).op = none ∧ (o.kind = .program → (getLun t ch (eLun p.e)).loads = []) ∧
           (o.kind = .read ∨ o.kind = .soft → (getLun t ch (eLun p.e)).sensed = o.targets)) ∧
         completes (.status ch idx .done) s (retire (.fch ch) idx 1 (opDone ch (eLun p.e) o s)) ∧
         completes (.status ch idx .failed) s (retire (.fch ch) idx 3 (opFailed ch (eLun p.e) o s)))) ∧
     (∀ lun o, (getLun s ch lun).op = some o →
       (overdue s ch o = true → s.grout.frozen = false →
         ∃ u, raised (baseFch ch) 2 u = true ∧
           tget zeroD u.trowel.timeouts (lunKey ch lun) = tget zeroD s.trowel.timeouts (lunKey ch lun) + 1 ∧
           changesOnly (.trowel :: eventParts) s u ∧
           completes (.dieOpTimeout ch lun) s (checkResets ch lun (opFailed ch lun o u))) ∧
       (overdue s ch o = false ∨ s.grout.frozen = true → completes (.dieOpTimeout ch lun) s s) ∧
       (o.bg = true → bgBeat s = false → o.kind = .program ∨ o.kind = .erase →
         (suspendable s ch o = true → ∃ t, completes (.bgWindowEnd ch lun true) s t ∧ (getLun t ch lun).op = none ∧
           (getLun t ch lun).susp = some { o with susUsed := o.susUsed + 1, susBeat := beatNow s } ∧
           changesOnly [.map, .regs] s t) ∧
         (∃ t, completes (.bgWindowEnd ch lun false) s t ∧ raised baseBeat 6 t = true ∧ evtOnly s t)) ∧
       (o.bg = false ∨ bgBeat s = true → ∀ ok, completes (.bgWindowEnd ch lun ok) s s))) ∧
  (∀ (s : State) (ch idx : Nat) (p : PEnt),
     (entryAt s (.fch ch) idx 8 = some p →
       (∃ t, completes (.load ch idx true) s t ∧ retiredAs (.fch ch) idx 5 s t ∧ raised (baseFch ch) 3 t = true ∧
         t.map = s.map) ∧
       (eYardValid p.e = false →
         ∃ t, completes (.load ch idx false) s t ∧ retiredAs (.fch ch) idx 1 s t ∧ changesOnly [.beat] s t) ∧
       (eYardValid p.e = true →
         ∃ t, completes (.load ch idx false) s t ∧ retiredAs (.fch ch) idx 1 s t ∧
           (∀ i, i < planes s → bitsOf (eMask p.e) i 1 = 1 →
             (ePage p.e * planes s + i, eYard p.e) ∈ (getLun t ch (eLun p.e)).loads) ∧
           ((getSlot s (eYard p.e)).st = .staged ∨ (getSlot s (eYard p.e)).st = .filling →
             (getSlot t (eYard p.e)).st = .laid) ∧
           changesOnly [.beat, .map, .trowel] s t)) ∧
     (entryAt s (.fch ch) idx 9 = some p →
       (∀ e, ∃ t, completes (.fetch ch idx true e) s t ∧ retiredAs (.fch ch) idx 2 s t ∧
         getF t (F.FCH_READ_LATE_COUNT ch) = min (2 ^ 32 - 1) (getF s (F.FCH_READ_LATE_COUNT ch) + 1) ∧ t.map = s.map) ∧
       (∃ t, completes (.fetch ch idx false true) s t ∧ retiredAs (.fch ch) idx 5 s t ∧ raised (baseFch ch) 3 t = true ∧
         t.map = s.map) ∧
       (∃ t, completes (.fetch ch idx false false) s t ∧ retiredAs (.fch ch) idx 1 s t ∧
         (∀ i ∈ fetchable s ch p.e, (getRd t i).st = .fetched) ∧ changesOnly [.beat, .map, .trowel] s t)))

/-- R190, R191, R200: each course-engine entry opens its context where it is not open; CLEAR empties the context's
mortar slots, ARM counts its channel, ACCUM XORs the LOAD of its slot into the mortar slot of its position, and EMIT
of a poisoned mortar slot is refused with 0x2 and the mortar formed again. R191, R210, R212, R271, R406: a context is
confirmed once its programs are done in an earlier beat, its map lines present: a flush makes its journal records
durable, a checkpoint segment is recorded, a wave and a rebuilt word line are taken into the map; until then it waits.
-/
def Obligations.CoursesAreFormedAndConfirmed : Prop :=
  (∀ (s : State) (lane idx : Nat) (p : PEnt),
     (entryAt s (.lane lane) idx 4 = some p →
       ∃ t, completes (.clear lane idx) s t ∧ retiredAs (.lane lane) idx 1 s t ∧ changesOnly [.beat, .map, .regs] s t ∧
         (ctxFits (openCtx (eCtx p.e) p.e s) p.e = true →
           ∀ m ∈ (getCtx (openCtx (eCtx p.e) p.e s) (eCtx p.e)).mortar, getSlot t m = { slot0 with st := .mortar })) ∧
     (entryAt s (.lane lane) idx 3 = some p →
       ∃ t, completes (.arm lane idx) s t ∧ retiredAs (.lane lane) idx 1 s t ∧ changesOnly [.beat, .map, .regs] s t ∧
         (ctxFits (openCtx (eCtx p.e) p.e s) p.e = true → lane ∈ (getCtx t (eCtx p.e)).armed)) ∧
     (entryAt s (.lane lane) idx 1 = some p →
       ∃ t, completes (.accum lane idx) s t ∧ retiredAs (.lane lane) idx 1 s t ∧ changesOnly [.beat, .map, .regs] s t ∧
         (∀ u l m pos, u = openCtx (eCtx p.e) p.e s → ctxFits u p.e = true → loadAt u lane p.e.slot = some l →
           (getCtx u (eCtx p.e)).mortar[eK p.e]? = some m →
           posOf u (getCtx u (eCtx p.e)).course lane (eLun l) (eBrick l) = some pos →
           (eK p.e, pos, eYard l) ∈ (getCtx t (eCtx p.e)).loads ∧
           ∀ k ∈ (readBlocks u l).2,
             slotBlk (getSlot t m) k = slotBlk (getSlot u m) k ^^^ slotBlk (getSlot u (eYard l)) k)) ∧
     (entryAt s (.lane lane) idx 2 = some p →
       (∀ m, ctxFits s p.e = true → (getCtx s (eCtx p.e)).mortar[eK p.e]? = some m → (getSlot s m).poisoned = true →
         ∃ t, completes (.emit lane idx) s t ∧ retiredAs (.lane lane) idx 2 s t ∧ (getSlot t m).poisoned = false ∧
           changesOnly [.beat, .map, .tiles] s t) ∧
       ((∀ m, ctxFits s p.e = true → (getCtx s (eCtx p.e)).mortar[eK p.e]? = some m → (getSlot s m).poisoned = false) →
         ∃ t, completes (.emit lane idx) s t ∧ retiredAs (.lane lane) idx 1 s t ∧ changesOnly [.beat] s t))) ∧
  (∀ (s : State) (i : Nat),
     (hasCtx s i = true → mapOpen s = true → (getCtx s i).doneBeat < beatNow s →
       (∀ q, (getCtx s i).kind = .flush q → ∃ t, completes (.waveConfirm i) s t ∧ t.map.jdur = max s.map.jdur q) ∧
       (∀ g q, (getCtx s i).kind = .ckpt g q →
         ∃ t, completes (.waveConfirm i) s t ∧ tget zeroD t.map.ckpt g = q ∧ hasCtx t i = false) ∧
       ((getCtx s i).kind = .rebuild → (getCtx s i).done ≠ [] → completes (.waveConfirm i) s (confirmRebuild i s)) ∧
       ((getCtx s i).kind = .wave → (∀ k, k < courseWidth s (getCtx s i).course → k ∈ (getCtx s i).done) →
         (∀ l ∈ (getCtx s i).loads, lineAbsent s (getSlot s l.2.2).line = false) →
         completes (.waveConfirm i) s (confirmWave i s))) ∧
     (hasCtx s i = false ∨ mapOpen s = false ∨ beatNow s ≤ (getCtx s i).doneBeat → completes (.waveConfirm i) s s))

/-- R231, R233, R234: a codeword that decodes makes its read decoded with the block on flash, a source read is XORed
into its read-around, and a sample read ends; one that fails climbs the ladder to the lowest step allowed, which step
2 tells by LDPC's soft event; step 4 reads every other position of the course. R20, R101, R233, R308, R319: a host
block that passes the MAC check leaves for the host with its data and metadata, and its command no longer waits for
it; one that fails is counted, raises the MAC-failure event and climbs the ladder as a failed decode; while the read
side is down nothing is checked. -/
def Obligations.ReadsDecodeUnderTheirTags : Prop :=
  (∀ (s : State) (i : Nat) (d : DecodeResult), hasRd s i = true → (getRd s i).st = .fetched →
     (d.ok = true →
       ((∀ p, (getRd s i).kind ≠ .source p) → (getRd s i).kind ≠ .sample →
         ∃ t, completes (.ldpcDecodeDone i d) s t ∧ (getRd t i).st = .decoded ∧
           (getRd t i).blk = tget blk0 s.map.flash
             (flashKey (getRd s i).ch (getRd s i).lun (getRd s i).brick (getRd s i).u (getRd s i).t) ∧
           t.host = s.host ∧ t.map.flash = s.map.flash) ∧
       ((getRd s i).kind = .sample → ∃ t, completes (.ldpcDecodeDone i d) s t ∧ hasRd t i = false ∧ t.host = s.host) ∧
       (∀ p, (getRd s i).kind = .source p → p ≠ i →
         ∃ t, completes (.ldpcDecodeDone i d) s t ∧ hasRd t i = false ∧ t.host = s.host ∧
           (getRd t p).sources = removeNat i (getRd s p).sources ∧
           (getRd t p).acc = (getRd s p).acc ^^^ tget blk0 s.map.flash
             (flashKey (getRd s i).ch (getRd s i).lun (getRd s i).brick (getRd s i).u (getRd s i).t))) ∧
     (d.ok = false → (∀ p, (getRd s i).kind ≠ .source p) → (getRd s i).kind ≠ .sample →
       (∀ k, nextStep s (getRd s i) (getRd s i).step = k → k < 4 →
         ∃ t, completes (.ldpcDecodeDone i d) s t ∧ (getRd t i).step = k ∧ (getRd t i).st = .waiting ∧
           (k = 2 → raised baseLdpc 2 t = true) ∧ t.host = s.host) ∧
       (∀ l, nextStep s (getRd s i) (getRd s i).step = 4 → sourcesOf s (getRd s i) = some l →
         ∃ t, completes (.ldpcDecodeDone i d) s t ∧ (getRd t i).step = 4 ∧ (getRd t i).sources.length = l.length ∧
           t.host = s.host))) ∧
  (∀ (s : State) (i : Nat), hasRd s i = true → (getRd s i).kind = .host →
     (readSideUp s = true → (getRd s i).st = .checked → keyGone s (4 * (getRd s i).tile + entKver (getRd s i).entry) = false →
       i ∉ s.mac.bound →
       (blkOk s (getRd s i).tile (getRd s i).nsid (getRd s i).lba (entKver (getRd s i).entry) (getRd s i).blk = true →
         (blkTag (getRd s i).blk).kind ≠ kindLost → (blkTag (getRd s i).blk).kind ≠ kindDealloc → grouting s = false →
         hasCmd s (getRd s i).cmd = true →
         ∃ t, completes (.macCheckDone i none) s t ∧
           t.out = .block (getCmd s (getRd s i).cmd).h.fn (getCmd s (getRd s i).cmd).h.cid (getRd s i).lba
             (blkData (getRd s i).blk) (blkMeta (getRd s i).blk) :: s.out ∧
           (getRd s i).lba ∉ (getCmd t (getRd s i).cmd).left ∧ hasRd t i = false) ∧
       (blkOk s (getRd s i).tile (getRd s i).nsid (getRd s i).lba (entKver (getRd s i).entry) (getRd s i).blk = false →
         entYard (getRd s i).entry = false → nextStep s (getRd s i) (getRd s i).step < 4 →
         ∃ t, completes (.macCheckDone i none) s t ∧ raised baseLdpc 1 t = true ∧ t.out = s.out ∧
           getF t F.MAC_TAG_FAIL_COUNT = min (2 ^ 32 - 1) (getF s F.MAC_TAG_FAIL_COUNT + 1) ∧
           (getRd t i).step = nextStep s (getRd s i) (getRd s i).step ∧ (getRd t i).st = .waiting)) ∧
     (∀ pi, readSideUp s = false → completes (.macCheckDone i pi) s s))

/-- R312, R320, R321: VERIFY and RETAG take the decoded blocks of their channel, up to COUNT, into the read side, and
the entry says whether a key's erase is due (0x3), a version is erased (0x4), or a block fails (0x2); RETAG gives the
slot of a relocated block the version NEWVER; RAW moves a block of an erased version unchecked into its slot. In the
end each entry is retired. -/
def Obligations.MacEntriesTakeBlocks : Prop :=
  ∀ (s : State) (p idx : Nat) (rds : List Nat) (e : PEnt) (l : List Nat),
    (entryAt s (.mac p) idx 1 = some e →
      l = (rds.filter (fun i => hasRd s i && decide ((getRd s i).st = .decoded) && decide ((getRd s i).ch = eCh e.e))).take
        (eCount e.e) →
      ∃ t, completes (.verifyEntry p idx rds) s t ∧ changesOnly [.beat, .map, .tiles] s t ∧
        (∀ i ∈ l, (getRd t i).st = .checked) ∧
        ((∃ i ∈ l, 4 * e.e.tile + entKver (getRd s i).entry ∈ s.mac.eraseDue) → retiredAs (.mac p) idx 3 s t) ∧
        ((∀ i ∈ l, 4 * e.e.tile + entKver (getRd s i).entry ∉ s.mac.eraseDue) →
          (∃ i ∈ l, keyState s (4 * e.e.tile + entKver (getRd s i).entry) = keyErased) → retiredAs (.mac p) idx 4 s t) ∧
        ((∀ i ∈ l, 4 * e.e.tile + entKver (getRd s i).entry ∉ s.mac.eraseDue ∧
            keyState s (4 * e.e.tile + entKver (getRd s i).entry) ≠ keyErased ∧
            blkOk s (getRd s i).tile (getRd s i).nsid (getRd s i).lba (entKver (getRd s i).entry) (getRd s i).blk = true) →
          retiredAs (.mac p) idx 1 s t)) ∧
    (∀ i k, entryAt s (.mac p) idx 2 = some e → hasRd s i = true → relocSlot s (getRd s i) = some k →
      (getSlot s k).present = 0 →
      ∃ t code, completes (.retag p idx [i]) s t ∧ retiredAs (.mac p) idx code s t ∧ code ≠ 0 ∧
        (getSlot t k).kver = eNewVer e.e ∧ changesOnly [.beat, .map, .tiles] s t) ∧
    (entryAt s (.mac p) idx 3 = some e →
      ∃ t, completes (.raw p idx) s t ∧ retiredAs (.mac p) idx 1 s t ∧ changesOnly [.beat, .map] s t ∧
        (∀ i r, s.map.rds = [(i, r)] → (∃ k, r.kind = .fold k ∧ (getSlot s k).st = .filling) → r.st = .decoded →
          r.ch = eCh e.e → r.t < 16 → 0 < eCount e.e → keyState s (4 * r.tile + entKver r.entry) = keyErased →
          hasRd t i = false))

/-- R101, R195, R223: each block of a started write is tagged as it arrives and is no longer awaited; with the last
one the write is done, and its completion is ready unless its programs are waited for; a failed protection check, or a
write side that is down, ends it with that status. A read whose last block is in host memory has its completion ready
for the plan of the beat k + 2, or k + 3 from slot 60 on. R79, R106, R137, R197, R201: a write to a conventional
namespace starts once its tile may take the slots its MUs need, and else is held at the head of its queue while its
tile waits for slots; a write to a zone that fails a check of R137 ends with that check's status; data of a course to
which no write has come for PALLET_IDLE frames goes to pallets. -/
def Obligations.WriteDataEntersTheYard : Prop :=
  (∀ (s : State) (i : Nat), hasCmd s i = true →
     (∀ bs, isWrite (getCmd s i).kind = true → (getCmd s i).st = .started → moving s = true →
       ((∀ b ∈ bs, b.piOk = true) → writeSideUp s = true →
         ((∃ lba ∈ (getCmd s i).left, ∀ b ∈ bs, (getCmd s i).slba + b.off ≠ lba) →
           ∃ t, completes (.writeDataArrival i bs none) s t ∧ (getCmd t i).st = .started ∧
             (∀ b ∈ bs, (getCmd s i).slba + b.off ∉ (getCmd t i).left) ∧
             (∀ lba ∈ (getCmd s i).left, (∀ b ∈ bs, (getCmd s i).slba + b.off ≠ lba) → lba ∈ (getCmd t i).left)) ∧
         ((∀ lba ∈ (getCmd s i).left, ∃ b ∈ bs, (getCmd s i).slba + b.off = lba) →
           ∃ t, completes (.writeDataArrival i bs none) s t ∧ (getCmd t i).left = [] ∧
             ((getCmd t i).st = .ready ∧ (getCmd t i).waits = [] ∨
               (getCmd t i).st = .working ∧ (getCmd t i).waits ≠ []))) ∧
       (∀ e, ∃ t, completes (.writeDataArrival i bs (some e)) s t ∧ (getCmd t i).st = .ready ∧
         (getCmd t i).status = piStatus e) ∧
       ((∀ b ∈ bs, b.piOk = true) → writeSideUp s = false →
         ∃ t, completes (.writeDataArrival i bs none) s t ∧ (getCmd t i).st = .ready ∧
           (getCmd t i).status = stNoEngine)) ∧
     (∀ slot, (getCmd s i).kind = .read → (getCmd s i).left = [] → (getCmd s i).st ≠ .ready →
       ∃ t, completes (.readDataTransferred i slot) s t ∧ (getCmd t i).st = .ready ∧
         (getCmd t i).due = beatNow s + (if slot < 60 then 2 else 3) ∧ changesOnly [.host] s t)) ∧
  (∀ (s : State) (i : Nat),
     (hasCmd s i = true → (getCmd s i).st = .fetched → moving s = true → (∀ fn, i ∉ (getFn s fn).aers) →
       mapReady s (getCmd s i).h.nsid (getCmd s i).slba (getCmd s i).nlb = true → isWrite (getCmd s i).kind = true →
       ((getNs s (getCmd s i).h.nsid).zoned = false →
         (∀ slots u, slotsToHand s (tileOf s (getCmd s i).h) (newMus s (getCmd s i)).length = true →
           takeSlots (getCmd s i) (tileOf s (getCmd s i).h) (musOf (getCmd s i).slba (getCmd s i).nlb) (unhold i s) =
             some (slots, u) → (getCmd s i).kind ≠ .writeZeroes →
           ∃ t, completes (.writeAdmitted i) s t ∧ (getCmd t i).st = .started ∧ (getCmd t i).slots = slots ∧
             (getCmd t i).left = (List.range (getCmd s i).nlb).map (fun k => (getCmd s i).slba + k) ∧
             tileOf s (getCmd s i).h ∉ t.tiles.waiting) ∧
         (slotsToHand s (tileOf s (getCmd s i).h) (newMus s (getCmd s i)).length = false →
           (getSq s (getCmd s i).h.fn (getCmd s i).h.qid).held = none →
           ∃ t, completes (.writeAdmitted i) s t ∧ getCmd t i = getCmd s i ∧
             (getSq t (getCmd s i).h.fn (getCmd s i).h.qid).held = some i ∧
             tileOf s (getCmd s i).h ∈ t.tiles.waiting)) ∧
       ((getNs s (getCmd s i).h.nsid).zoned = true → s.host.zoneActs = [] → s.mac.behind = [] →
         zoneCheck s (getCmd s i) ≠ stOk →
         ∃ t, completes (.writeAdmitted i) s t ∧ (getCmd t i).st = .ready ∧
           (getCmd t i).status = zoneCheck s (getCmd s i) ∧ t.map = s.map)) ∧
     (hasCmd s i = false ∨ (getCmd s i).st ≠ .fetched ∨ moving s = false → completes (.writeAdmitted i) s s) ∧
     (∀ c, (getCourse s c).lastAdm / 64 + getNZ s F.YARD_CFG_PALLET_IDLE ≤ frameNow s → (getCourse s c).st = .taken →
       mapOpen s = true → completes (.palletIdle c) s (palletMove c s)) ∧
     (∀ c, frameNow s < (getCourse s c).lastAdm / 64 + getNZ s F.YARD_CFG_PALLET_IDLE ∨ (getCourse s c).st ≠ .taken ∨
       mapOpen s = false → completes (.palletIdle c) s s))

/-- R64, R71, R94, R98, R102, R105: a command that its queue does not give up (the function not serving, the queue
empty, blocked or not to be fetched) does nothing; a PF0 command on another function completes with Invalid Command
Opcode; SANITIZE, RECOVERY and EVACUATE refuse the admin commands that R102 names with its statuses. -/
def Obligations.AdminCommandsAreGated : Prop :=
  ∀ (s : State) (c : Instr),
    (∀ h, hostHead c = some h → takeCmd h s = none → completes c s s) ∧
    (∀ (r : AdminRow) (u : State), adminRow s c = some r → takeCmd r.h s = some u →
      (r.pf0 = true → isPF0 s r.h.fn = false → completes c s (answer r.h (.admin r.op) stOpcode 0 [] u)) ∧
      (r.pf0 = false ∨ isPF0 s r.h.fn = true →
        (modeNow s = modeSanitize → r.san = false → completes c s (answer r.h (.admin r.op) stSanitize 0 [] u)) ∧
        (modeNow s = modeRecovery → r.recov = false → completes c s (answer r.h (.admin r.op) stSequence 0 [] u)) ∧
        (modeNow s = modeEvacuate → r.evac = false → completes c s (answer r.h (.admin r.op) stSequence 0 [] u))))

/-- R71, R102, R114, R406: what every I/O command meets: SANITIZE and RECOVERY serve none; a namespace that is not the
tile's own and attached is invalid; a pending deferred error is reported first; EVACUATE refuses all but the commands
that R102 names; a lookup of an absent map unit waits. -/
def Obligations.IoCommandsAreGated : Prop :=
  (∀ (s : State) (c : Instr) (h : CmdHead) (slba nlb : Nat), lookupRow c = some (h, slba, nlb) →
    mapReady s h.nsid slba nlb = false → completes c s s) ∧
  ∀ (s u : State) (c : Instr) (h : CmdHead) (kind : CmdKind) (reads : Bool),
    ioRow c = some (h, kind, reads) → kind = .flush ∧ h.nsid ≠ allNs ∨ kind ≠ .flush →
    (∀ l, lookupRow c = some l → mapReady s h.nsid l.2.1 l.2.2 = true) → takeCmd h s = some u →
    (modeNow s = modeSanitize → completes c s (answer h kind stSanitize 0 [] u)) ∧
    (modeNow s = modeRecovery → completes c s (answer h kind stNs 0 [] u)) ∧
    (modeNow s ≠ modeSanitize → modeNow s ≠ modeRecovery →
      (nsOk s h = false → completes c s (answer h kind stNs 0 [] u)) ∧
      (nsOk s h = true → dweDue s h.nsid = true → completes c s (answer h kind stDeferred 0 [] u)) ∧
      (nsOk s h = true → dweDue s h.nsid = false → modeNow s = modeEvacuate → reads = false →
        completes c s (answer h kind stWriteProt 0 [] u)))

/-- The head of a submission queue that has a command of a function that serves, in a state where nothing but its own
size stands in its way, is given up, and the rest of the queue and every other register than the fetch counter stay
(R104, R105). R99, R104, R418: a doorbell write moves its queue's tail or head, where the queue exists and the value
lies in it, and wakes the drive; one outside is dropped. -/
def Obligations.DoorbellsMoveTheirQueues : Prop :=
  (∀ (s : State) (h : CmdHead), serving s h.fn = true → (getSq s h.fn h.qid).size ≠ 0 → (getSq s h.fn h.qid).held = none →
     (0 < (getSq s h.fn h.qid).granted →
       ∃ u, takeCmd h s = some u ∧ getSq u h.fn h.qid = { getSq s h.fn h.qid with
         granted := (getSq s h.fn h.qid).granted - 1 } ∧ changesOnly [.host] s u) ∧
     ((getSq s h.fn h.qid).granted = 0 → (getSq s h.fn h.qid).head ≠ (getSq s h.fn h.qid).tail → fetches s h.fn = true →
       ∃ u, takeCmd h s = some u ∧ getSq u h.fn h.qid = { getSq s h.fn h.qid with
         head := ((getSq s h.fn h.qid).head + 1) % (getSq s h.fn h.qid).size } ∧
         getF u (F.HOST_FETCHED_COUNT (portOf s h.fn)) =
           min (2 ^ 32 - 1) (getF s (F.HOST_FETCHED_COUNT (portOf s h.fn)) + 1) ∧
         u.host = { s.host with sqs := u.host.sqs } ∧ changesOnly [.host, .regs] s u)) ∧
  (∀ (s : State) (fn qid n : Nat),
     ((getCq s fn qid).size ≠ 0 → n < (getCq s fn qid).size →
       ∃ t, completes (.cqDoorbellWrite fn qid n) s t ∧ getCq t fn qid = { getCq s fn qid with head := n } ∧
         changesOnly [.host] s t) ∧
     ((getCq s fn qid).size = 0 ∨ (getCq s fn qid).size ≤ n → completes (.cqDoorbellWrite fn qid n) s s) ∧
     ((getSq s fn qid).size ≠ 0 → n < (getSq s fn qid).size → s.top.off = false →
       ∃ t, completes (.sqDoorbellWrite fn qid n) s t ∧ getSq t fn qid = { getSq s fn qid with tail := n } ∧
         (powerNow s = 1 → powerNow t = 0) ∧ (2 ≤ powerNow s → t.top.wakeRun = true ∧ powerNow t = powerNow s)) ∧
     ((getSq s fn qid).size = 0 ∨ (getSq s fn qid).size ≤ n ∨ s.top.off = true → completes (.sqDoorbellWrite fn qid n) s s))

/-- R47, R104, R105, R170: the arbiter of a port grants its winner's chosen queue a burst of commands, as many as it
holds, up to TILE_BURST and the tile's in-flight limit, counts them as fetched, and moves its pointer past the winner;
with its search queue full, or with no requester, it grants nothing. R108, R109, R114, R223: a POST or POST_QUIET
entry of a completion that is ready and due writes its queue entry, raises the queue's interrupt in the first case,
and takes the command out of the table; a full queue retires it with 0x2, a link that is not up with 0x5, an entry
that names no such command with 0x3; before its time it waits. -/
def Obligations.CommandsAreGrantedAndPosted : Prop :=
  (∀ (s : State) (port : Nat) (r : Nat × Nat),
     (searchDepth s port < 512 →
       rotate (tget zeroT s.host.fetchPtr port)
         (if (requesters s port).filter (asksUrgent s port) ≠ [] then (requesters s port).filter (asksUrgent s port)
          else requesters s port) = some r →
       ∃ t n, completes (.commandFetch port) s t ∧ tget zeroT t.host.fetchPtr port = r.1 + 1 ∧
         n ≤ getNZ s (F.HOST_FETCH_CFG_TILE_BURST port) ∧
         (getSq t r.2 (pickQueue s r.2)).granted = (getSq s r.2 (pickQueue s r.2)).granted + n ∧
         (∀ k, tileOfFn s r.2 = some k → n + inflight s k ≤ max (inflight s k) (getF s (F.TILE_CMDS_MAX_INFLIGHT k))) ∧
         getF t (F.HOST_FETCHED_COUNT port) = min (2 ^ 32 - 1) (getF s (F.HOST_FETCHED_COUNT port) + n) ∧
         regsKept (· = Reg.HOST_FETCHED port) s t ∧ changesOnly [.host, .regs, .freeCtr] s t) ∧
     (512 ≤ searchDepth s port ∨ requesters s port = [] → completes (.commandFetch port) s s)) ∧
  (∀ (s : State) (c idx : Nat) (p : PEnt) (quiet : Bool),
     entryAt s (.poster c) idx (if quiet then 2 else 1) = some p → grouting s = false → running s = true →
     (hasCmd s (eCmd p.e) = false ∨ (getCmd s (eCmd p.e)).h.fn ≠ eFn p.e →
       ∃ t, completes (if quiet then .postQuiet c idx true else .post c idx true) s t ∧
         retiredAs (.poster c) idx 3 s t ∧ changesOnly [.beat] s t) ∧
     (hasCmd s (eCmd p.e) = true → (getCmd s (eCmd p.e)).h.fn = eFn p.e →
       ((getCmd s (eCmd p.e)).st ≠ .ready ∨ beatNow s < (getCmd s (eCmd p.e)).due →
         ∀ ok, completes (if quiet then .postQuiet c idx ok else .post c idx ok) s s) ∧
       ((getCmd s (eCmd p.e)).st = .ready → (getCmd s (eCmd p.e)).due ≤ beatNow s →
         isSet s (F.HOST_CPL_STAT_PAUSED (portOf s (eFn p.e))) = false →
         (cqFull (getCq s (eFn p.e) (cqOf s (getCmd s (eCmd p.e)))) = true →
           ∀ ok, ∃ t, completes (if quiet then .postQuiet c idx ok else .post c idx ok) s t ∧
             retiredAs (.poster c) idx 2 s t ∧ t.host = s.host ∧ t.out = s.out) ∧
         (cqFull (getCq s (eFn p.e) (cqOf s (getCmd s (eCmd p.e)))) = false →
           (∃ t, completes (if quiet then .postQuiet c idx false else .post c idx false) s t ∧
             retiredAs (.poster c) idx 5 s t ∧ changesOnly [.beat] s t) ∧
           (∀ x q k, x = getCmd s (eCmd p.e) → k = cqOf s x → q = getCq s x.h.fn k →
             ∃ t, completes (if quiet then .postQuiet c idx true else .post c idx true) s t ∧
               retiredAs (.poster c) idx 1 s t ∧ hasCmd t (eCmd p.e) = false ∧
               t.out = (if quiet then [] else [.msix x.h.fn q.vector]) ++
                 .cqe x.h.fn k x.h.qid (getSq s x.h.fn x.h.qid).head x.h.cid q.phase x.status.sct x.status.sc x.status.dnr
                   x.dw0 x.dw1 x.data :: s.out ∧
               (getCq t x.h.fn k).tail = (q.tail + 1) % q.size ∧
               getF t (F.HOST_POSTED_COUNT (portOf s x.h.fn)) =
                 min (2 ^ 32 - 1) (getF s (F.HOST_POSTED_COUNT (portOf s x.h.fn)) + 1))))))

/-- R98, R99, R80, R127, R97: an unsupported opcode completes with Invalid Command Opcode; I/O queues are made within
the tile's limits and deleted again, a completion queue only once no submission queue feeds it; Identify and the log
pages answer with their data, and a log read with RAE cleared re-arms its events; the commands whose payload NVMe or
SPDM defines complete. -/
def Obligations.QueueAndLogCommandsComplete : Prop :=
  ∀ (s u : State) (h : CmdHead),
    (∀ op, adminRuns s (.unsupportedOpcode h op) u →
      completes (.unsupportedOpcode h op) s (answer h (.admin op) stOpcode 0 [] u)) ∧
    (∀ sqid size prio cqid k, adminRuns s (.createIoSq h sqid size prio cqid) u → tileOfFn u h.fn = some k →
      1 ≤ sqid → sqid ≤ 4096 → (getSq u h.fn sqid).size = 0 → sqCount u h.fn < getF u (F.TILE_QUEUES_MAX_QP k) →
      2 ≤ size → size ≤ 65536 → cqid ≠ 0 → (getCq u h.fn cqid).size ≠ 0 →
      ∃ t, completes (.createIoSq h sqid size prio cqid) s t ∧ answeredWith h stOk u t ∧
        getSq t h.fn sqid = { sq0 with size := size, prio := prio % 4, cq := cqid } ∧ changesOnly [.host] u t) ∧
    (∀ cqid size vector k, adminRuns s (.createIoCq h cqid size vector) u → tileOfFn u h.fn = some k →
      1 ≤ cqid → cqid ≤ 4096 → (getCq u h.fn cqid).size = 0 → cqCount u h.fn < getF u (F.TILE_QUEUES_MAX_QP k) →
      2 ≤ size → size ≤ 65536 → vector < getF u (F.TILE_QUEUES_MAX_VEC k) →
      ∃ t, completes (.createIoCq h cqid size vector) s t ∧ answeredWith h stOk u t ∧
        getCq t h.fn cqid = { cq0 with size := size, vector := vector } ∧ changesOnly [.host] u t) ∧
    (∀ sqid, adminRuns s (.deleteIoSq h sqid) u → sqid ≠ 0 → (getSq u h.fn sqid).size ≠ 0 →
      ∃ t, completes (.deleteIoSq h sqid) s t ∧ getSq t h.fn sqid = sq0) ∧
    (∀ cqid, adminRuns s (.deleteIoCq h cqid) u → cqid ≠ 0 → (getCq u h.fn cqid).size ≠ 0 →
      ((∀ x ∈ u.host.sqs, x.1 / 8192 = h.fn → x.1 % 8192 ≠ 0 → x.2.cq ≠ cqid) →
        ∃ t, completes (.deleteIoCq h cqid) s t ∧ answeredWith h stOk u t ∧ getCq t h.fn cqid = cq0) ∧
      ((∃ x ∈ u.host.sqs, x.1 / 8192 = h.fn ∧ x.1 % 8192 ≠ 0 ∧ x.2.cq = cqid) →
        completes (.deleteIoCq h cqid) s (answer h (.admin 0x04) stQueueDel 0 [] u))) ∧
    (∀ cns, adminRuns s (.identify h cns) u →
      (∀ st d, idOf u h cns = some (st, d) → completes (.identify h cns) s (answer h (.admin 0x06) st 0 d u)) ∧
      (idOf u h cns = none → completes (.identify h cns) s (answer h (.admin 0x06) stField 0 [] u))) ∧
    (∀ lid off len rae, adminRuns s (.getLogPage h lid off len rae) u → len ≤ maxXfer →
      (∀ l, stdLog u h.fn lid len = some l → ∃ t, completes (.getLogPage h lid off len rae) s t ∧ answeredWith h stOk u t ∧
        (getCmd t u.host.nextCmd).data = slice l off len ∧ (rae = true → changesOnly [.host, .freeCtr] u t)) ∧
      (stdLog u h.fn lid len = none →
        completes (.getLogPage h lid off len rae) s (answer h (.admin 0x02) stLogPage 0 [] u))) ∧
    (∀ n rae, adminRuns s (.getLogPageC0 h n rae) u →
      completes (.getLogPageC0 h n rae) s
        (answer h (.admin 0x02) stOk 0 (lossData false h.fn n u) (if rae then u else lossRead false h.fn n u))) ∧
    (∀ n rae, adminRuns s (.getLogPageC1 h n rae) u →
      completes (.getLogPageC1 h n rae) s
        (answer h (.admin 0x02) stOk 0 (lossData true h.fn n u) (if rae then u else lossRead true h.fn n u))) ∧
    (∀ rae, adminRuns s (.getLogPageC2 h rae) u →
      completes (.getLogPageC2 h rae) s
        (answer h (.admin 0x02) stOk 0 (healthData h.fn u) (if rae then u else rearm h.fn 0xC2 u))) ∧
    (∀ k n rae, adminRuns s (.getLogPageC3 h k n rae) u →
      completes (.getLogPageC3 h k n rae) s
        (answer h (.admin 0x02) stOk 0 (sealData h.fn k n u) (if rae then u else rearm h.fn 0xC3 u))) ∧
    (∀ byType off len, adminRuns s (.getLogPageC4 h byType off len) u → len ≤ maxXfer →
      completes (.getLogPageC4 h byType off len) s
        (answer h (.admin 0x02) stOk 0 (extractData h.fn byType off len u) u)) ∧
    (adminRuns s (.getLogPageC5 h) u →
      completes (.getLogPageC5 h) s (answer h (.admin 0x02) stOk 0 (ledgerData h.fn u) u)) ∧
    (∀ stc, adminRuns s (.deviceSelfTest h stc) u → completes (.deviceSelfTest h stc) s
      (answer h (.admin 0x14) (if stc = 1 ∨ stc = 2 ∨ stc = 0xF then stOk else stField) 0 [] u)) ∧
    (adminRuns s (.securitySend h) u → completes (.securitySend h) s (answer h (.admin 0x81) stOk 0 [] u)) ∧
    (adminRuns s (.securityReceive h) u → completes (.securityReceive h) s (answer h (.admin 0x82) stOk 0 [] u)) ∧
    (adminRuns s (.directiveSend h) u → completes (.directiveSend h) s (answer h (.admin 0x19) stOk 0 [] u)) ∧
    (adminRuns s (.directiveReceive h) u → completes (.directiveReceive h) s (answer h (.admin 0x1A) stOk 0 [] u))

/-- R23, R119, R104, R149, R153, R463, R417: each feature that Set Features takes is in effect and read back; a power
state beyond PS4, or other than PS0 on a function that is not PF0, is refused, and one that the mode holds waits; the
Timestamp of a PF0 function anchors the recorder's time. -/
def Obligations.FeaturesTakeEffect : Prop :=
  ∀ (s u : State) (h : CmdHead),
    (∀ wce, adminRuns s (.setFeaturesVwc h wce) u →
      ∃ t, completes (.setFeaturesVwc h wce) s t ∧ answeredWith h stOk u t ∧
        getFn t h.fn = { getFn u h.fn with wce := wce } ∧ changesOnly [.host] u t) ∧
    (∀ b l m hi, adminRuns s (.setFeaturesArbitration h b l m hi) u →
      ∃ t, completes (.setFeaturesArbitration h b l m hi) s t ∧ answeredWith h stOk u t ∧
        tget zeroD (getFn t h.fn).feat 0x01 = b % 8 + l % 256 * 2 ^ 8 + m % 256 * 2 ^ 16 + hi % 256 * 2 ^ 24 ∧
        changesOnly [.host] u t) ∧
    (∀ ps, adminRuns s (.setFeaturesPowerManagement h ps) u →
      (4 < ps ∨ isPF0 u h.fn = false ∧ ps ≠ 0 ∨ psAllowed u ps = 2 →
        completes (.setFeaturesPowerManagement h ps) s (answer h (.admin 0x09) stField 0 [] u)) ∧
      (ps ≤ 4 → isPF0 u h.fn = true → psAllowed u ps = 0 →
        ∃ t, completes (.setFeaturesPowerManagement h ps) s t ∧ answeredWith h stOk u t ∧ (getFn t h.fn).ps = ps ∧
          (getFn t h.fn).psHeld = none) ∧
      (ps ≤ 4 → isPF0 u h.fn = true → psAllowed u ps = 1 →
        ∃ t, completes (.setFeaturesPowerManagement h ps) s t ∧ answeredWith h stOk u t ∧
          getFn t h.fn = { getFn u h.fn with psHeld := some ps } ∧ changesOnly [.host] u t)) ∧
    (∀ on k, adminRuns s (.setFeaturesFdp h on) u → tileOfFn u h.fn = some k →
      (tileNs u k = [] → ∃ t, completes (.setFeaturesFdp h on) s t ∧ answeredWith h stOk u t ∧
        (k ∈ t.host.fdpTiles ↔ on = true) ∧ changesOnly [.host] u t) ∧
      (tileNs u k ≠ [] → completes (.setFeaturesFdp h on) s (answer h (.admin 0x09) stSequence 0 [] u))) ∧
    (∀ on kind k, adminRuns s (.setFeaturesFdpEvents h on [kind]) u → tileOfFn u h.fn = some k → k ∈ u.host.fdpTiles →
      ∃ t, completes (.setFeaturesFdpEvents h on [kind]) s t ∧ answeredWith h stOk u t ∧
        bitsOf (tget zeroD t.host.fdpEvents k) kind 1 = (if on then 1 else 0) ∧ changesOnly [.host] u t) ∧
    (∀ ms, adminRuns s (.setFeaturesTimestamp h ms) u →
      ∃ t, completes (.setFeaturesTimestamp h ms) s t ∧ answeredWith h stOk u t ∧
        (isPF0 u h.fn = true → t.host.timestamp = some (ms, beatNow u) ∧ raised baseRec 5 t = true) ∧
        (isPF0 u h.fn = false → tget zeroD (getFn t h.fn).feat 0x0E = ms ∧ changesOnly [.host] u t)) ∧
    (∀ fid v, adminRuns s (.setFeatures h fid v) u →
      (fid ∈ [0x04, 0x05, 0x08, 0x09, 0x0A, 0x0B, 0x0C] →
        ∃ t, completes (.setFeatures h fid v) s t ∧ answeredWith h stOk u t ∧ tget zeroD (getFn t h.fn).feat fid = v ∧
          changesOnly [.host] u t) ∧
      (fid ∉ [0x01, 0x02, 0x04, 0x05, 0x06, 0x07, 0x08, 0x09, 0x0A, 0x0B, 0x0C, 0x1D] →
        completes (.setFeatures h fid v) s (answer h (.admin 0x09) stField 0 [] u))) ∧
    (∀ fid, adminRuns s (.getFeatures h fid) u →
      (fid ∈ [0x01, 0x04, 0x05, 0x07, 0x08, 0x09, 0x0A, 0x0B, 0x0C] →
        completes (.getFeatures h fid) s (answer h (.admin 0x0A) stOk (tget zeroD (getFn u h.fn).feat fid) [] u)) ∧
      (fid = 0x02 → completes (.getFeatures h fid) s (answer h (.admin 0x0A) stOk (getFn u h.fn).ps [] u)) ∧
      (fid = 0x06 → completes (.getFeatures h fid) s
        (answer h (.admin 0x0A) stOk (if (getFn u h.fn).wce then 1 else 0) [] u)))

/-- R116, R117, R126, R133, R134, R100: an Abort ends a command that has had no effect, and tells one that is past
aborting; an asynchronous event that waits answers the next request, and up to eight requests wait for one; namespaces
are made on the lowest free NSID, attached, formatted and deleted. -/
def Obligations.NamespaceAndEventCommandsComplete : Prop :=
  ∀ (s u : State) (h : CmdHead),
    (∀ sq cid i, adminRuns s (.abort h sq cid) u → findCmd u h.fn sq cid = some i → i ≠ u.host.nextCmd →
      (abortable u (getCmd u i) = true → ∃ t, completes (.abort h sq cid) s t ∧ (getCmd t i).st = .ready ∧
        (getCmd t i).status = stAborted ∧ answeredWith h stOk u t ∧ (getCmd t u.host.nextCmd).dw0 = 0) ∧
      (abortable u (getCmd u i) = false → ∃ t, completes (.abort h sq cid) s t ∧ answeredWith h stOk u t ∧
        (getCmd t u.host.nextCmd).dw0 = 1 ∧ getCmd t i = getCmd u i ∧
        getF t (F.HOST_NOT_ABORTED_COUNT (portOf u h.fn)) =
          min (2 ^ 32 - 1) (getF u (F.HOST_NOT_ABORTED_COUNT (portOf u h.fn)) + 1))) ∧
    (adminRuns s (.asyncEventRequest h) u →
      (∀ e es, (getFn u h.fn).aens = e :: es → ∃ t, completes (.asyncEventRequest h) s t ∧ answeredWith h stOk u t ∧
        (getCmd t u.host.nextCmd).dw0 = e.1 + 256 * e.2.1 + 65536 * e.2.2 ∧ (getFn t h.fn).aens = es ∧
        e ∈ (getFn t h.fn).masked ∧ changesOnly [.host] u t) ∧
      ((getFn u h.fn).aens = [] → (getFn u h.fn).aers.length < 8 → ∃ t, completes (.asyncEventRequest h) s t ∧
        (getFn t h.fn).aers = (getFn u h.fn).aers ++ [u.host.nextCmd] ∧
        (getCmd t u.host.nextCmd).kind = .aer ∧ (getCmd t u.host.nextCmd).st = .fetched ∧ changesOnly [.host] u t) ∧
      ((getFn u h.fn).aens = [] → 8 ≤ (getFn u h.fn).aers.length →
        completes (.asyncEventRequest h) s (answer h (.admin 0x0C) stAerLimit 0 [] u))) ∧
    (∀ csi nsze lbaf k n, adminRuns s (.namespaceCreate h csi nsze lbaf []) u → modeNow u ≠ modeStandalone →
      (modeNow u = modeDegraded → getF u F.TOP_MODE_BASE ≠ modeStandalone) →
      tileOfFn u h.fn = some k → csi = 0 ∨ csi = 2 → nsze ≠ 0 → (csi = 2 → nsze % zsze u = 0) → lbaf ≤ 2 →
      k ∉ u.host.fdpTiles → (tileNs u k).length < getF u (F.TILE_NS_MAX_NS k) →
      ((List.range 1024).map (· + 1)).find? (fun m => !nsExists u m) = some n →
      reservedOf u k + leaving u (fun j => decide (j = k)) + (newNs u k (decide (csi = 2)) nsze lbaf []).reserved ≤
        getF u (F.TILE_COURSES_MAX k) →
      reservedAll u + leaving u (fun _ => true) + (newNs u k (decide (csi = 2)) nsze lbaf []).reserved ≤ u.trowel.userCourses →
      ∃ t, completes (.namespaceCreate h csi nsze lbaf []) s t ∧ answeredWith h stOk u t ∧
        (getCmd t u.host.nextCmd).dw0 = n ∧ getNs t n = newNs u k (decide (csi = 2)) nsze lbaf [] ∧
        (∀ m, m ≠ n → getNs t m = getNs u m) ∧ changesOnly [.host] u t) ∧
    (∀ k, adminRuns s (.namespaceDelete h) u → modeNow u ≠ modeStandalone →
      (modeNow u = modeDegraded → getF u F.TOP_MODE_BASE ≠ modeStandalone) → tileOfFn u h.fn = some k → h.nsid ≠ allNs →
      nsExists u h.nsid = true → (getNs u h.nsid).tile = k →
      ∃ t, completes (.namespaceDelete h) s t ∧ getNs t h.nsid = ns0) ∧
    (∀ k at_, adminRuns s (.namespaceAttachment h at_) u → modeNow u ≠ modeStandalone →
      (modeNow u = modeDegraded → getF u F.TOP_MODE_BASE ≠ modeStandalone) → tileOfFn u h.fn = some k →
      nsExists u h.nsid = true → (getNs u h.nsid).tile = k → (getNs u h.nsid).attached ≠ at_ →
      ∃ t, completes (.namespaceAttachment h at_) s t ∧ answeredWith h stOk u t ∧
        getNs t h.nsid = { getNs u h.nsid with attached := at_ } ∧ changesOnly [.host] u t) ∧
    (∀ k lbaf ses, adminRuns s (.formatNvm h lbaf ses) u → tileOfFn u h.fn = some k → nsExists u h.nsid = true →
      (getNs u h.nsid).tile = k → ses ≤ 1 → lbaf ≤ 2 →
      ∃ t, completes (.formatNvm h lbaf ses) s t ∧ getNs t h.nsid = { getNs u h.nsid with lbaf := lbaf })

/-- R122, R354 to R356, R341: a piece of an image that lies in the staging buffer, is aligned to 4 KiB and overlaps
none is staged, and a piece at offset 0 begins anew; a commit while another is in hand ends with Command Sequence
Error, and one that asks for the running slot or without a staged image is refused; one that R340 accepts waits for
the image to be stored, and then, for action 0, succeeds. R103, R483, R484, R28, R461: a Mode Request sets the base
mode or the host's cause of EVACUATE as R483 allows, and else is refused with Mode Change Refused and
TOP_MODE_REFUSED; Sanitize begins on FN 0 with every other tile FREE, and ends in STANDALONE once everything is
erased. -/
def Obligations.FirmwareAndModesAreRequested : Prop :=
  (∀ (s u : State) (h : CmdHead),
     (∀ off len d, adminRuns s (.firmwareImageDownload h off len d) u →
       (len = 0 ∨ len % 4096 ≠ 0 ∨ stagingSize < off + len →
         completes (.firmwareImageDownload h off len d) s (answer h (.admin 0x11) stField 0 [] u)) ∧
       (len ≠ 0 → len % 4096 = 0 → off + len ≤ stagingSize →
         (off = 0 → ∃ t, completes (.firmwareImageDownload h off len d) s t ∧ answeredWith h stOk u t ∧
           t.sec = { u.sec with staging := [(0, len, d)], stagingFn := some h.fn } ∧ changesOnly [.host, .sec] u t) ∧
         (off ≠ 0 → (u.sec.stagingFn = none ∨ u.sec.stagingFn = some h.fn) →
           (∀ x ∈ u.sec.staging, off + len ≤ x.1 ∨ x.1 + x.2.1 ≤ off) →
           ∃ t, completes (.firmwareImageDownload h off len d) s t ∧ answeredWith h stOk u t ∧
             t.sec = { u.sec with staging := u.sec.staging ++ [(off, len, d)] } ∧ changesOnly [.host, .sec] u t))) ∧
     (∀ (c : Instr) (action fs : Nat) (img : ImageInfo),
       (c = .fwCommitStore h fs img ∧ action = 0 ∨ c = .fwCommitStoreActivateReset h fs img ∧ action = 1 ∨
         c = .fwCommitActivateReset h fs img ∧ action = 2 ∨ c = .fwCommitActivateNow h fs img ∧ action = 3) →
       adminRuns s c u →
       (u.sec.commit ≠ none ∨ u.sec.act ≠ none → ∃ t, completes c s t ∧ answeredWith h stSequence u t ∧
         t.sec = u.sec ∧ changesOnly [.host] u t) ∧
       (u.sec.commit = none → u.sec.act = none → inLoader u = false →
         (2 < fwTarget u fs ∨ action ≠ 2 ∧ fwTarget u fs = getF u F.SEC_STATUS_ACTIVE_SLOT →
           ∃ t, completes c s t ∧ answeredWith h stFwSlot u t ∧ changesOnly [.host, .sec] u t) ∧
         (fwTarget u fs ≤ 2 → action ≠ 2 → fwTarget u fs ≠ getF u F.SEC_STATUS_ACTIVE_SLOT → u.sec.staging ≠ [] →
           imageFail u img = 0 →
           ∃ t, completes c s t ∧ (getCmd t u.host.nextCmd).h = h ∧ (getCmd t u.host.nextCmd).st = .working ∧
             t.sec = { u.sec with commit := some { cmd := some u.host.nextCmd, tag := 0, action := action
                                                   fs := fwTarget u fs, img := img } } ∧
             changesOnly [.host, .sec] u t) ∧
         (∀ i, fwTarget u fs ≤ 2 → action = 2 → (getSlotFw u (fwTarget u fs)).img = some i → imageFail u i = 0 →
           modeNow u ≠ modeRecovery → hitless u i = true →
           ∃ t, completes c s t ∧ answeredWith h stOk u t ∧ t.sec = { u.sec with onReset := some (fwTarget u fs) } ∧
             changesOnly [.host, .sec] u t))) ∧
     (∀ x, s.sec.commit = some x → inLoader s = false →
       (x.action = 0 → ∃ t, completes .fwImageStored s t ∧ (getSlotFw t x.fs).img = some x.img ∧
         (getSlotFw t x.fs).failed = false ∧ t.sec.commit = none ∧
         (∀ i, x.cmd = some i → hasCmd s i = true → (getCmd t i).st = .ready ∧ (getCmd t i).status = stOk)) ∧
       (x.action = 3 → modeNow s ≠ modeRecovery → hitless s x.img = true → ∃ t, completes .fwImageStored s t ∧
         (getSlotFw t x.fs).img = some x.img ∧ getF t F.SEC_STATUS_ACT_PHASE = 1 ∧
         t.sec.act = some { commit := x, phase := 0, h := 0, failed := 0 })) ∧
     (s.sec.commit = none → completes .fwImageStored s s)) ∧
  (∀ (s u : State) (h : CmdHead),
     (∀ m, adminRuns s (.modeRequest h m) u →
       (m = modeNow u → completes (.modeRequest h m) s (answer h (.admin 0xC0) stOk 0 [] u)) ∧
       (m = modeZoned → modeNow u = modeStandalone → ∃ t, completes (.modeRequest h m) s t ∧ answeredWith h stOk u t ∧
         getF t F.TOP_MODE_BASE = modeZoned ∧ regsKept (· = Reg.TOP_MODE) u t ∧ changesOnly [.host, .regs] u t) ∧
       (m = modeEvacuate → (modeNow u = modeZoned ∨ modeNow u = modeStandalone ∨ modeNow u = modeDegraded) →
         ∃ t, completes (.modeRequest h m) s t ∧ answeredWith h stOk u t ∧ getF t F.TOP_MODE_CAUSE_EVAC_HOST = 1 ∧
           regsKept (· = Reg.TOP_MODE_CAUSE) u t ∧ changesOnly [.host, .regs] u t) ∧
       (modeNow u = modeEvacuate → m = getF u F.TOP_MODE_BASE → m ≠ modeEvacuate → isSet u F.TOP_MODE_CAUSE_EVAC_HOST = true →
         isSet u F.TOP_MODE_CAUSE_EVAC_SPARES = false → isSet u F.TOP_MODE_CAUSE_EVAC_WSEQ = false →
         ∃ t, completes (.modeRequest h m) s t ∧ answeredWith h stOk u t ∧ getF t F.TOP_MODE_CAUSE_EVAC_HOST = 0 ∧
           regsKept (· = Reg.TOP_MODE_CAUSE) u t ∧ changesOnly [.host, .regs] u t) ∧
       (m ≠ modeNow u → modeNow u = modeSanitize ∨ modeNow u = modeRecovery ∨
           m ≠ modeZoned ∧ m ≠ modeEvacuate ∧ m ≠ getF u F.TOP_MODE_BASE →
         ∃ t, completes (.modeRequest h m) s t ∧ answeredWith h stModeRefused u t ∧ raised baseTop 6 t = true ∧
           changesOnly (.host :: eventParts) u t)) ∧
     (∀ act, adminRuns s (.sanitize h act) u → h.fn = 0 →
       (act ≠ 2 → completes (.sanitize h act) s (answer h (.admin 0x84) stField 0 [] u)) ∧
       (act = 2 → (∃ k, 1 ≤ k ∧ k < 64 ∧ tileState u k ≠ tFree) →
         completes (.sanitize h act) s (answer h (.admin 0x84) stSequence 0 [] u)) ∧
       (act = 2 → (∀ k, 1 ≤ k → k < 64 → tileState u k = tFree) →
         ∃ t, completes (.sanitize h act) s t ∧ getF t F.TOP_MODE_CAUSE_SANITIZING = 1 ∧ t.top.sanStat = 2)) ∧
     (isSet s F.TOP_MODE_CAUSE_SANITIZING = true → s.top.sanStat = 2 → allErased s = true → running s = true →
       (∃ t, completes (.sanitizeDone true) s t ∧ getF t F.TOP_MODE_CAUSE_SANITIZING = 0 ∧
         getF t F.TOP_MODE_BASE = modeStandalone ∧ t.top.sanStat = 1 ∧ (getNs t 1).attached = true ∧
         (getNs t 1).tile = 0 ∧ (getNs t 1).zoned = false ∧ (getNs t 1).nsze = s.top.standalone) ∧
       completes (.sanitizeDone false) s { s with top := { s.top with sanStat := 3 } }) ∧
     (∀ ok, isSet s F.TOP_MODE_CAUSE_SANITIZING = false ∨ s.top.sanStat ≠ 2 ∨ allErased s = false ∨ running s = false →
       completes (.sanitizeDone ok) s s))

/-- R123, R461, R462, R500: REC_CTRL and command 0xC4 freeze the recorder with a FREEZE record and thaw it again; a
Management Read or Write of up to 1,024 words runs word by word, ends with the data read, and waits at a word whose
domain sleeps. -/
def Obligations.ManagementCommandsReachTheWindow : Prop :=
  ∀ (s u : State),
    (∀ path, reach s Reg.REC_CTRL = .ok → frozen s = false →
      ∃ t, completes (.recorderFreeze none path) s t ∧ frozen t = true ∧ raised baseRec 0 t = true ∧
        t.recd.frozenAt = frameNow s ∧ t.recd.fifo = s.recd.fifo) ∧
    (∀ path, reach s Reg.REC_CTRL = .ok → frozen s = true →
      completes (.recorderFreeze none path) s s ∧
      ∃ t, completes (.recorderThaw none path) s t ∧ frozen t = false ∧ raised baseRec 1 t = true ∧ t.recd.fifo = []) ∧
    (∀ h path, adminRuns s (.recorderFreeze (some h) path) u →
      completes (.recorderFreeze (some h) path) s (answer h (.admin 0xC4) stOk 0 [] (startFreeze path u))) ∧
    (∀ h path, adminRuns s (.recorderThaw (some h) path) u →
      completes (.recorderThaw (some h) path) s (answer h (.admin 0xC4) stOk 0 [] (thaw 0 u))) ∧
    (∀ h off n, adminRuns s (.managementRead h off n) u →
      (off % 4 ≠ 0 ∨ windowSize < off + 4 * n ∨ n = 0 ∨ 1024 < n →
        completes (.managementRead h off n) s (answer h (.admin 0xC2) stField 0 [] u)) ∧
      (off % 4 = 0 → off + 4 * n ≤ windowSize → n = 1 → reach u off = .ok →
        ∃ t v, completes (.managementRead h off n) s t ∧ answeredWith h stOk u t ∧
          (getCmd t u.host.nextCmd).data = leBytes 4 v)) ∧
    (∀ h off (ws : List W32), adminRuns s (.managementWrite h off ws) u →
      (off % 4 ≠ 0 ∨ windowSize < off + 4 * ws.length ∨ ws = [] ∨ 1024 < ws.length →
        completes (.managementWrite h off ws) s (answer h (.admin 0xC5) stField 0 [] u)) ∧
      (∀ w, off % 4 = 0 → off + 4 ≤ windowSize → ws = [w] → reach u off = .ok → ∀ i v,
        allocCmd { cmdOf h (.admin 0xC5) u with st := .working } u = (i, v) →
        completes (.managementWrite h off ws) s (mgmtEnd (some i) 0 []
          (writeAccess (if portOf u h.fn = 1 then .portB else .portA) off w.toNat 15 v))) ∧
      (∀ w, off % 4 = 0 → off + 4 ≤ windowSize → ws = [w] → reach u off = .sleeping →
        ∃ t, completes (.managementWrite h off ws) s t ∧ domainOf off ∈ t.top.waking ∧
          ∃ m ∈ t.top.mgmt, m.addr = off ∧ m.left = 1 ∧ m.write = true ∧ m.cmd = some u.host.nextCmd))

/-- R20 to R22, R99, R101, R137, R318, R333: a Write, Write Zeroes or Zone Append that its checks let through is in
the table, waits for its matcher search, and has had no effect yet; one of no blocks or more than 512, beyond the
namespace, without a write side or without a key is answered with the status of that check. -/
def Obligations.WritesEnterTheTable : Prop :=
  ∀ (s u : State) (c : Instr) (h : CmdHead) (slba nlb : Nat) (hints : Hints) (kind : CmdKind),
    (c = .write h slba nlb hints ∧ kind = .write ∨ c = .writeZeroes h slba nlb hints ∧ kind = .writeZeroes ∨
      c = .zoneAppend h slba nlb hints ∧ kind = .append) → ioRuns s c u →
    (kind = .append → (getNs u h.nsid).zoned = false → completes c s (answer h kind stOpcode 0 [] u)) ∧
    ((kind = .append → (getNs u h.nsid).zoned = true) →
      (nlb = 0 ∨ 512 < nlb → completes c s (answer h kind stField 0 [] u)) ∧
      (1 ≤ nlb → nlb ≤ 512 →
        ((getNs u h.nsid).nsze < slba + nlb → completes c s (answer h kind stLbaRange 0 [] u)) ∧
        (slba + nlb ≤ (getNs u h.nsid).nsze →
          (writeSideUp u = false → completes c s (answer h kind stNoEngine 0 [] u)) ∧
          (writeSideUp u = true → writeRefusal u h slba nlb = none →
            ∃ t, completes c s t ∧ (getCmd t u.host.nextCmd).h = h ∧ (getCmd t u.host.nextCmd).kind = kind ∧
              (getCmd t u.host.nextCmd).st = .fetched ∧ (getCmd t u.host.nextCmd).searched = false ∧
              (getCmd t u.host.nextCmd).slba = slba ∧ (getCmd t u.host.nextCmd).nlb = nlb ∧
              (getCmd t u.host.nextCmd).wall = defaultWall u h.nsid hints ∧ t.map = u.map))))

/-- R21, R222, R236, R238, R319, R331: a Read or Verify of blocks that have no data ends them at once, a Read sending
zeroes; a lost block fails with Unrecovered Read Error; a block on flash or in the yard has a read under way. -/
def Obligations.ReadsLookTheirBlocksUp : Prop :=
  ∀ (s u : State) (h : CmdHead) (slba : Nat),
    (∀ hints slot, ioRuns s (.read h slba 1 hints slot) u → readRefusal u h slba 1 512 = none → hints.dsm = 0 →
      grouting u = false →
      (placeOf u h.nsid slba = .unmapped → ∃ t, completes (.read h slba 1 hints slot) s t ∧
        (getCmd t u.host.nextCmd).left = [] ∧ (getCmd t u.host.nextCmd).status = stOk ∧
        t.out = .block h.fn h.cid slba 0 (deallocMeta u h.nsid) :: u.out) ∧
      (placeOf u h.nsid slba = .lost → ∃ t, completes (.read h slba 1 hints slot) s t ∧
        (getCmd t u.host.nextCmd).left = [] ∧ (getCmd t u.host.nextCmd).status = stUnrecovered ∧
        (getCmd t u.host.nextCmd).failLba = some slba ∧ t.out = u.out) ∧
      (∀ e, placeOf u h.nsid slba = .flash e → erasedAt u (tileOf u h) e = false → lunLost u (entCh e) (entLun e) = false →
        ∃ t, completes (.read h slba 1 hints slot) s t ∧ (getCmd t u.host.nextCmd).left = [slba] ∧ t.out = u.out ∧
          (getRd t u.map.nextRd).cmd = u.host.nextCmd ∧ (getRd t u.map.nextRd).st = .waiting ∧
          (getRd t u.map.nextRd).entry = e ∧ (getRd t u.map.nextRd).lba = slba) ∧
      (∀ k e, placeOf u h.nsid slba = .slot k e → erasedAt u (tileOf u h) e = false →
        ∃ t, completes (.read h slba 1 hints slot) s t ∧ (getRd t u.map.nextRd).st = .decoded ∧
          (getRd t u.map.nextRd).blk = slotBlk (getSlot u k) (slba % 16) ∧ u.map.nextRd ∈ (getSlot t k).pins)) ∧
    (∀ nlb hints slot st, ioRuns s (.read h slba nlb hints slot) u → readRefusal u h slba nlb 512 = some st →
      completes (.read h slba nlb hints slot) s (answer h .read st 0 [] u)) ∧
    (∀ nlb st, ioRuns s (.verify h slba nlb) u → readRefusal u h slba nlb 65536 = some st →
      completes (.verify h slba nlb) s (answer h .verify st 0 [] u)) ∧
    (ioRuns s (.verify h slba 1) u → readRefusal u h slba 1 65536 = none → placeOf u h.nsid slba = .unmapped →
      ∃ t, completes (.verify h slba 1) s t ∧ answeredWith h stOk u t ∧ changesOnly [.host] u t) ∧
    (∀ n st, ioRuns s (.readTags h slba n) u → readRefusal u h slba (n + 1) 32768 = some st →
      completes (.readTags h slba n) s (answer h .readTags st 0 [] u)) ∧
    (ioRuns s (.readTags h slba 0) u → readRefusal u h slba 1 32768 = none → placeOf u h.nsid slba = .unmapped →
      ∃ t, completes (.readTags h slba 0) s t ∧ answeredWith h stOk u t ∧
        (getCmd t u.host.nextCmd).data = tagBytes { tagRes0 with res := 3, mapB := mapByte (entOf u h.nsid slba) } ∧
        changesOnly [.host] u t)

/-- R114, R118, R119, R144, R152, R527: a Flush of one namespace is ready at once with write-back, and in
write-through waits for the slots of acknowledged data; Dataset Management without a deallocation, or of a zoned
namespace, succeeds and does nothing, and one of whole MUs unmaps them; FDP's commands answer where the namespace
places by FDP, and are invalid elsewhere; a zone descriptor extension is never taken. -/
def Obligations.FlushDeallocateAndFdpComplete : Prop :=
  ∀ (s u : State) (h : CmdHead),
    (∀ late, ioRuns s (.flush h late) u → h.nsid ≠ allNs →
      (writeThrough u h.fn = false → ∃ t, completes (.flush h late) s t ∧ answeredWith h stOk u t ∧
        (getCmd t u.host.nextCmd).due = beatNow u + (if late then 3 else 2) ∧ changesOnly [.host] u t) ∧
      (writeThrough u h.fn = true → flushSlots u [h.nsid] ≠ [] → ∃ t, completes (.flush h late) s t ∧
        (getCmd t u.host.nextCmd).st = .working ∧ (getCmd t u.host.nextCmd).waits = flushSlots u [h.nsid] ∧
        changesOnly [.host] u t)) ∧
    (∀ d l, ioRuns s (.datasetManagement h d l) u → l.length ≤ 256 →
      (∀ r ∈ l, r.slba + r.nlb ≤ (getNs u h.nsid).nsze) →
      (d = false ∨ (getNs u h.nsid).zoned = true →
        completes (.datasetManagement h d l) s (answer h .dsm stOk 0 [] u)) ∧
      (d = true → (getNs u h.nsid).zoned = false → moving u = true → mapReady u h.nsid 0 0 = true →
        partMus (l.map (fun r => (r.slba, r.nlb))) = [] →
        ∃ t, completes (.datasetManagement h d l) s t ∧ answeredWith h stOk u t)) ∧
    (∀ d l, ioRuns s (.datasetManagement h d l) u → 256 < l.length →
      completes (.datasetManagement h d l) s (answer h .dsm stField 0 [] u)) ∧
    (∀ l, ioRuns s (.ioManagementSend h l) u →
      (fdpOn u h.nsid = false → completes (.ioManagementSend h l) s (answer h .ioMgmt stField 0 [] u)) ∧
      (fdpOn u h.nsid = true → (∀ p ∈ l, p < (getNs u h.nsid).handles.length) →
        completes (.ioManagementSend h l) s (answer h .ioMgmt stOk 0 []
          (l.foldl (fun y p => endUnit (tileOf u h) ((getNs u h.nsid).handles.getD p 0) y) u)))) ∧
    (ioRuns s (.ioManagementReceive h) u →
      (fdpOn u h.nsid = false → completes (.ioManagementReceive h) s (answer h .ioMgmt stField 0 [] u)) ∧
      (fdpOn u h.nsid = true → ∃ t, completes (.ioManagementReceive h) s t ∧ answeredWith h stOk u t ∧
        changesOnly [.host] u t)) ∧
    (ioRuns s (.setZoneDescriptorExtension h) u → completes (.setZoneDescriptorExtension h) s
      (answer h (.zoneSend 0x10) (if (getNs u h.nsid).zoned then stField else stOpcode) 0 [] u))

/-- R98, R136, R139, R143, R154: a Zone Management Send to a namespace that is not zoned is an invalid opcode, one
beyond it out of range, one not at a zone's start invalid; with nothing in its way it acts at once on its zone as
R136's state machine says: Close and Finish of an open zone, Open and Reset of a closed one, Offline of a read-only
one, and the transitions the table does not have fail. -/
def Obligations.ZoneActionsFollowTheStateMachine : Prop :=
  ∀ (s u : State) (c : Instr) (h : CmdHead) (zslba a : Nat) (all : Bool),
    (c = .closeZone h zslba all ∧ a = actClose ∨ c = .finishZone h zslba all ∧ a = actFinish ∨
      c = .openZone h zslba all ∧ a = actOpen ∨ c = .resetZone h zslba all ∧ a = actReset ∨
      c = .offlineZone h zslba all ∧ a = actOffline) → ioRuns s c u →
    ((getNs u h.nsid).zoned = false → completes c s (answer h (.zoneSend a) stOpcode 0 [] u)) ∧
    ((getNs u h.nsid).zoned = true → all = false → (getNs u h.nsid).nsze ≤ zslba →
      completes c s (answer h (.zoneSend a) stLbaRange 0 [] u)) ∧
    ((getNs u h.nsid).zoned = true → all = false → zslba < (getNs u h.nsid).nsze → zslba % zsze u ≠ 0 →
      completes c s (answer h (.zoneSend a) stField 0 [] u)) ∧
    (∀ z, (getNs u h.nsid).zoned = true → all = false → zslba < (getNs u h.nsid).nsze → zslba % zsze u = 0 → mapOpen u = true →
      u.host.zoneActs = [] → u.mac.behind = [] → (∀ x ∈ u.host.cmds, x.2.h.nsid ≠ h.nsid) → z = zslba / zsze u →
      (a = actClose → isOpen (getZone u h.nsid z).st = true →
        ∃ t, completes c s t ∧ (getZone t h.nsid z).st = .closed ∧ answeredWith h stOk u t) ∧
      (a = actFinish → isActive (getZone u h.nsid z).st = true →
        ∃ t, completes c s t ∧ (getZone t h.nsid z).st = .full ∧ answeredWith h stOk u t) ∧
      (a = actOpen → (getZone u h.nsid z).st = .closed → openCount u (getNs u h.nsid).tile < openMax u (getNs u h.nsid).tile →
        ∃ t, completes c s t ∧ (getZone t h.nsid z).st = .explOpen ∧ answeredWith h stOk u t) ∧
      (a = actReset → isActive (getZone u h.nsid z).st = true ∨ (getZone u h.nsid z).st = .full →
        ∃ t, completes c s t ∧ getZone t h.nsid z = zone0) ∧
      (a = actOffline → (getZone u h.nsid z).st = .readOnly →
        ∃ t, completes c s t ∧ (getZone t h.nsid z).st = .offline) ∧
      (a ≠ actOffline → (getZone u h.nsid z).st = .readOnly →
        ∃ t, completes c s t ∧ answeredWith h stZoneReadOnly u t ∧ t.map = u.map) ∧
      (a ≠ actOffline → (getZone u h.nsid z).st = .offline →
        ∃ t, completes c s t ∧ answeredWith h stZoneOffline u t ∧ t.map = u.map) ∧
      (a = actReset → (getZone u h.nsid z).st = .empty →
        ∃ t, completes c s t ∧ answeredWith h stZoneTransition u t ∧ t.map = u.map))

/-- R132, R141, R330: a Zone Report answers with the descriptors from the zone named; an audit of a zone that is not
sealed or Offline is refused and waits in the table else; a zone idle for FRL is recommended for finish. -/
def Obligations.ZonesAreReportedAndAudited : Prop :=
  ∀ (s u : State) (h : CmdHead) (zslba : Nat),
    (∀ n ext, ioRuns s (.zoneManagementReceive h zslba n ext) u →
      ((getNs u h.nsid).zoned = false →
        completes (.zoneManagementReceive h zslba n ext) s (answer h .zoneReceive stOpcode 0 [] u)) ∧
      ((getNs u h.nsid).zoned = true → zslba < (getNs u h.nsid).nsze →
        ∃ t, completes (.zoneManagementReceive h zslba n ext) s t ∧ answeredWith h stOk u t ∧
          (getCmd t u.host.nextCmd).data.take 8 = leBytes 8 (nsZones u h.nsid - zslba / zsze u) ∧
          changesOnly [.host] u t)) ∧
    (∀ nonce, ioRuns s (.zoneAudit h zslba nonce) u → (getNs u h.nsid).zoned = true → zslba % zsze u = 0 →
      zslba < (getNs u h.nsid).nsze →
      ((getZone u h.nsid (zslba / zsze u)).st = .offline →
        completes (.zoneAudit h zslba nonce) s (answer h .audit stZoneOffline 0 [] u)) ∧
      ((getZone u h.nsid (zslba / zsze u)).st ≠ .offline → (getZone u h.nsid (zslba / zsze u)).zdev = false →
        completes (.zoneAudit h zslba nonce) s (answer h .audit stNotSealed 0 [] u)) ∧
      ((getZone u h.nsid (zslba / zsze u)).st ≠ .offline → (getZone u h.nsid (zslba / zsze u)).zdev = true →
        readSideUp u = true → 16 ≤ auditsNow u →
        ∃ t, completes (.zoneAudit h zslba nonce) s t ∧ (getCmd t u.host.nextCmd).kind = .audit ∧
          (getCmd t u.host.nextCmd).st = .fetched ∧ (getCmd t u.host.nextCmd).nonce = nonce ∧ t.map = u.map) ∧
      ((getZone u h.nsid (zslba / zsze u)).st ≠ .offline → (getZone u h.nsid (zslba / zsze u)).zdev = true →
        readSideUp u = true → u.host.cmds = [] → u.mems.absentLines = [] → u.mems.absentCh = none →
        (getZone u h.nsid (zslba / zsze u)).blocks = 0 →
        ∃ t, completes (.zoneAudit h zslba nonce) s t ∧ answeredWith h stOk u t)) ∧
    (∀ nsid z, isActive (getZone s nsid z).st = true → (getZone s nsid z).finishRec = false →
      (getZone s nsid z).lastAdm + 16200000000 ≤ beatNow s →
      ∃ t, completes (.zoneFinishRecommended nsid z) s t ∧ (getZone t nsid z).finishRec = true ∧
        (getZone t nsid z).st = (getZone s nsid z).st ∧ t.beat = s.beat)

/-- R33, R155, R325, R326, R327, R328: a zone that is Full and whose stack holds every leaf becomes sealed, its zone
record the last of the list; a seal epoch closes at its boundary and waits for signing where it has a record with
blocks; signing appends the epoch, with the tree of its records as root and the hash of the statement before as PREV,
to the seal store, which keeps the 2^20 most recent; a signing that takes over an epoch raises MAC_SEAL_LATE. -/
def Obligations.SealsCloseAndAreSigned : Prop :=
  ∀ (s : State) (nsid z ep : Nat),
    ((getZone s nsid z).st = .full → (getZone s nsid z).reported ≠ .full →
      stackCount (getStack (catchUp nsid z s) (zKey nsid z)) = (getZone s nsid z).wp →
      ∃ t, completes (.zoneSealed nsid z) s t ∧ (getZone t nsid z).reported = .full ∧ (getZone t nsid z).zdev = true ∧
        (getZone t nsid z).root = stackRoot (getStack (catchUp nsid z s) (zKey nsid z)) ∧
        (getZone t nsid z).signed = false ∧ (getZone t nsid z).blocks = (getZone s nsid z).wp ∧
        (getZone t nsid z).partialSeal = decide ((getZone s nsid z).wp < (getZone s nsid z).cap) ∧
        getStack t (zKey nsid z) = [] ∧
        t.mac.recs = s.mac.recs ++ [{
          tile := (getNs s nsid).tile, part := decide ((getZone s nsid z).wp < (getZone s nsid z).cap), nsid := nsid
          zslba := z * zsze s, blocks := (getZone s nsid z).wp, beat := beatNow s
          root := stackRoot (getStack (catchUp nsid z s) (zKey nsid z)) }] ∧
        regsKept (· = Reg.MAC_SEAL_ZONES) s t ∧ changesOnly [.regs, .map, .mac] s t) ∧
    ((getZone s nsid z).st ≠ .full ∨ (getZone s nsid z).reported = .full ∨
        stackCount (getStack (catchUp nsid z s) (zKey nsid z)) ≠ (getZone s nsid z).wp →
      completes (.zoneSealed nsid z) s (catchUp nsid z s) ∧ changesOnly [.mac] s (catchUp nsid z s)) ∧
    (beatNow s % 1048576 = 0 → beatNow s ≠ 0 → running s = true →
      ∃ t, completes .sealEpochClose s t ∧ getF t F.MAC_SEAL_ZONES_COUNT = 0 ∧ regsKept (· = Reg.MAC_SEAL_ZONES) s t ∧
        changesOnly [.regs, .mac] s t ∧ t.mac.recs = s.mac.recs ∧
        ((∃ r ∈ s.mac.recs, r.beat / 1048576 = sealEpochNow s - 1 ∧ r.blocks ≠ 0) →
          ∃ b, (sealEpochNow s - 1, b) ∈ t.mac.closing) ∧
        ((∀ r ∈ s.mac.recs, r.beat / 1048576 = sealEpochNow s - 1 → r.blocks = 0) → t.mac.closing = s.mac.closing)) ∧
    (beatNow s % 1048576 ≠ 0 ∨ beatNow s = 0 ∨ running s = false → completes .sealEpochClose s s) ∧
    (∀ c, s.mac.closing.find? (fun p => p.1 == ep) = some c →
      ∃ t e, completes (.sealSigned ep) s t ∧ t.mac.epochs.getLast? = some e ∧ e.epoch = ep ∧ e.restarted = c.2 ∧
        e.recs = epochRecs s ep ∧ e.root = treeRoot ((epochRecs s ep).map recLeaf) ∧
        (∀ p, s.mac.epochs.getLast? = some p → e.prev = Config.sha384 (epStatement p)) ∧
        (s.mac.epochs = [] → e.prev = 0) ∧
        t.mac.epochs.length = min (s.mac.epochs.length + 1) (2 ^ 20) ∧
        (∀ b, (ep, b) ∉ t.mac.closing) ∧ raised baseMac 5 t = true ∧
        getR t Reg.MAC_SEAL_EPOCH_LO = ep % 2 ^ 32 ∧ t.beat = s.beat) ∧
    (s.mac.closing.find? (fun p => p.1 == ep) = none → completes (.sealSigned ep) s s) ∧
    ((∃ b, (ep, b) ∈ s.mac.closing) → (ep + 1) * 1048576 + 65536 ≤ beatNow s →
      ∃ t, completes (.sealLate ep) s t ∧ raised baseMac 6 t = true ∧ evtOnly s t) ∧
    ((∀ b, (ep, b) ∉ s.mac.closing) ∨ beatNow s < (ep + 1) * 1048576 + 65536 → completes (.sealLate ep) s s)

/-- R162: an entry matches a search when it is VALID and not SHADOWED, lies in the searching tile's range, and agrees
with the key in every bit below 90 that its CARE names; key bits 95 to 90 are never compared. -/
def Obligations.EntriesMatchByTheirCareBits : Prop :=
  ∀ (s : State) (t i : Nat) (key : BitVec 96) (e : SEnt), (i, e) ∈ s.sort.arr →
    ((i, e) ∈ hitsFor s t key ↔
      e.valid = true ∧ e.shadowed = false ∧ getF s (F.TILE_SORT_BASE t) ≤ i ∧
        i < getF s (F.TILE_SORT_BASE t) + getF s (F.TILE_SORT_COUNT t) ∧
        ∀ b, b < 90 → e.care.getLsbD b = true → key.getLsbD b = e.key.getLsbD b)

/-- R160, R166 to R168, R220, R457: of the entries of the tile's range that match, the one of the highest PRIO wins,
the lowest index among equals; the search binds its wall and quality of service to the command and counts a hit, or
the defaults where no entry matches. R163, R164, R172 to R174, R176 to R178, R180: staging, commits, INSERT, DELETE,
INVALIDATE, their single updates, saves, SORT_CFG and the comparer's rewrite; what each refuses, with its RESULT and
SORT_CMD_REFUSED, and that a refusal changes no entry. -/
def Obligations.TheMatcherSearchesAndUpdates : Prop :=
  (∀ (s : State) (i : Nat), hasCmd s i = true → (getCmd s i).searched = false →
     (hitsFor s (tileOf s (getCmd s i).h) (searchKey s (getCmd s i)) = [] →
       ∃ t, completes (.matcherSearch i) s t ∧ getCmd t i = { getCmd s i with
           wall := defaultWall s (getCmd s i).h.nsid (getCmd s i).hints, qos := queueQos s (getCmd s i).h
           searched := true } ∧
         t.sort.arr = s.sort.arr ∧ t.sort.shadow = s.sort.shadow ∧ changesOnly [.regs, .host, .map, .sort] s t ∧
         regsKept (fun a => a = Reg.SORT_SEARCHES ∨ a = Reg.SORT_DEFAULTS) s t) ∧
     (∀ k e, (hitsFor s (tileOf s (getCmd s i).h) (searchKey s (getCmd s i))).Pairwise (fun a b => a.1 < b.1) →
       (k, e) ∈ hitsFor s (tileOf s (getCmd s i).h) (searchKey s (getCmd s i)) →
       (∀ m ∈ hitsFor s (tileOf s (getCmd s i).h) (searchKey s (getCmd s i)),
         m.2.prio < e.prio ∨ m.2.prio = e.prio ∧ k ≤ m.1) →
       ∃ t, completes (.matcherSearch i) s t ∧ (getCmd t i).searched = true ∧
         (getCmd t i).wall = bitsOf e.action.toNat 0 8 ∧
         (getCmd t i).qos = (if bitsOf e.action.toNat 10 1 = 1 then queueQos s (getCmd s i).h
           else bitsOf e.action.toNat 8 2) ∧
         (getE t k).hits = min (2 ^ 32 - 1) ((getE s k).hits + 1) ∧ (∀ m, m ≠ k → getE t m = getE s m) ∧
         t.sort.arr = s.sort.arr ∧ (bitsOf e.action.toNat 11 1 = 1 → raised baseSort 6 t = true) ∧
         changesOnly (.host :: .map :: .sort :: eventParts) s t) ∧
     ∀ m, hasCmd s m = false ∨ (getCmd s m).searched = true → completes (.matcherSearch m) s s) ∧
  (∀ (s : State),
     (∀ i word v, i < 4096 → word ≤ 6 → reach s (sortWindow i word) = .ok →
       ∃ t, completes (.sortEntryStage i word v) s t ∧ staged t i = true ∧ stagedWord t word = some v.toNat ∧
         t.sort.arr = s.sort.arr ∧ t.sort.shadow = s.sort.shadow ∧ regsKeptE (· = Reg.SORT_STATUS) s t ∧
         changesOnly (.sort :: eventParts) s t ∧
         (isSet s F.SORT_STATUS_STAGE_VALID = false ∨ getF s F.SORT_STATUS_STAGE_INDEX = i →
           (∀ w, w ≠ word → stagedWord t w = stagedWord s w) ∧
             getF t F.SORT_STATUS_RESULT = getF s F.SORT_STATUS_RESULT) ∧
         (isSet s F.SORT_STATUS_STAGE_VALID = true → getF s F.SORT_STATUS_STAGE_INDEX ≠ i →
           (∀ w, w ≠ word → stagedWord t w = none) ∧ getF t F.SORT_STATUS_RESULT = 6 ∧ raised baseSort 4 t = true)) ∧
     (∀ i v, reach s (sortWindow i 7) = .ok →
       (∀ r, (sortRefusal s i i = some r ∨ sortRefusal s i i = none ∧ badAction s i = true ∧ r = 3) →
         ∃ t, completes (.sortEntryCommit i v) s t ∧ t.sort = s.sort ∧ getF t F.SORT_STATUS_RESULT = r ∧
           raised baseSort 3 t = true ∧ regsKeptE (· = Reg.SORT_STATUS) s t ∧ changesOnly eventParts s t) ∧
       (sortRefusal s i i = none → badAction s i = false →
         ∃ t, completes (.sortEntryCommit i v) s t ∧
           getE t i = { withStaged s i (getE s i) with
             prio := bitsOf v.toNat 0 8, valid := decide (bitsOf v.toNat 8 1 = 1) } ∧
           tget sD t.sort.arr i = arrOf (getE t i) ∧ (∀ k, k ≠ i → getE t k = getE s k) ∧ staged t i = false ∧
           getF t F.SORT_STATUS_RESULT = 0 ∧ isSet t F.SORT_STATUS_DIRTY = true ∧ raised baseSort 2 t = true ∧
           changesOnly (.sort :: eventParts) s t ∧
           regsKeptE (fun a => a = Reg.SORT_STATUS ∨ a = Reg.SORT_UPDATES) s t)) ∧
     (∀ i j, i < 4096 → j < 4096 → reach s Reg.SORT_CMD = .ok →
       (∀ c r, c = .sortInsert i j ∨ c = .sortDelete i j ∨ c = .sortInvalidate i j → sortRefusal s i j = some r →
         ∃ t, completes c s t ∧ t.sort = s.sort ∧ getF t F.SORT_STATUS_RESULT = r ∧ raised baseSort 3 t = true ∧
           regsKeptE (· = Reg.SORT_STATUS) s t ∧ changesOnly eventParts s t) ∧
       (sortRefusal s i j = none →
         (∀ r, (badAction s i = true ∧ r = 3 ∨ badAction s i = false ∧ (getE s j).valid = true ∧ r = 4 ∨
             badAction s i = false ∧ (getE s j).valid = false ∧ staged s i = false ∧ r = 5) →
           ∃ t, completes (.sortInsert i j) s t ∧ t.sort = s.sort ∧ getF t F.SORT_STATUS_RESULT = r ∧
             raised baseSort 3 t = true ∧ changesOnly eventParts s t) ∧
         (badAction s i = false → (getE s j).valid = false → staged s i = true →
           ∃ t, completes (.sortInsert i j) s t ∧ isSet t F.SORT_STATUS_BUSY = true ∧
             t.sort = { s.sort with op := some (.insert, i, j, 0,
               { withStaged s i (getE s i) with valid := true, shadowed := false, hits := 0 }) } ∧
             regsKept (· = Reg.SORT_STATUS) s t ∧ changesOnly [.regs, .sort] s t) ∧
         (∃ t, completes (.sortDelete i j) s t ∧ isSet t F.SORT_STATUS_BUSY = true ∧
           t.sort = { s.sort with op := some (.delete, i, j, 0, sEnt0) } ∧
           regsKept (· = Reg.SORT_STATUS) s t ∧ changesOnly [.regs, .sort] s t) ∧
         (∃ t, completes (.sortInvalidate i j) s t ∧ isSet t F.SORT_STATUS_BUSY = true ∧
           t.sort = { s.sort with op := some (.invalidate, i, j, 0, sEnt0) } ∧
           regsKept (· = Reg.SORT_STATUS) s t ∧ changesOnly [.regs, .sort] s t))) ∧
     (s.sort.op = none → completes .sortUpdateStep s s) ∧
     (∀ op i j n e, s.sort.op = some (op, i, j, n, e) →
       ∃ t, completes .sortUpdateStep s t ∧ isSet t F.SORT_STATUS_DIRTY = true ∧
         changesOnly (.sort :: eventParts) s t ∧
         (n < j - i → t.sort.op = some (op, i, j, n + 1, e) ∧ isSet t F.SORT_STATUS_BUSY = isSet s F.SORT_STATUS_BUSY) ∧
         (j - i ≤ n → t.sort.op = none ∧ isSet t F.SORT_STATUS_BUSY = false ∧ getF t F.SORT_STATUS_RESULT = 0 ∧
           raised baseSort 2 t = true) ∧
         (op = .invalidate → getE t (i + n) = { getE s (i + n) with valid := false } ∧
           ∀ k, k ≠ i + n → getE t k = getE s k) ∧
         (op = .insert → n < j - i → getE t (j - n) = { getE s (j - n - 1) with shadowed := true } ∧
           (0 < n → (getE t (j - n + 1)).shadowed = false) ∧
           ∀ k, k ≠ j - n → k ≠ j - n + 1 → getE t k = getE s k) ∧
         (op = .insert → n = j - i → i < j → getE t i = { e with prio := (getE s i).prio } ∧
           (getE t (i + 1)).shadowed = false ∧ ∀ k, k ≠ i → k ≠ i + 1 → getE t k = getE s k) ∧
         (op = .delete → n < j - i → getE t (i + n) = { getE s (i + n + 1) with shadowed := true } ∧
           (0 < n → (getE t (i + n - 1)).shadowed = false) ∧
           ∀ k, k ≠ i + n → k ≠ i + n - 1 → getE t k = getE s k) ∧
         (op = .delete → n = j - i → i < j → (getE t j).valid = false ∧ (getE t (j - 1)).shadowed = false ∧
           ∀ k, k ≠ j → k ≠ j - 1 → getE t k = getE s k)) ∧
     (reach s Reg.SORT_CMD = .ok →
       (isSet s F.SORT_STATUS_BUSY = true → ∃ t, completes .sortSave s t ∧ t.sort = s.sort ∧
         getF t F.SORT_STATUS_RESULT = 1 ∧ raised baseSort 3 t = true ∧ changesOnly eventParts s t) ∧
       (isSet s F.SORT_STATUS_BUSY = false → ∃ t, completes .sortSave s t ∧ isSet t F.SORT_STATUS_BUSY = true ∧
         t.sort = { s.sort with save := some (true, s.sort.arr, rd s Reg.SORT_CFG), changed := false } ∧
         regsKept (· = Reg.SORT_STATUS) s t ∧ changesOnly [.regs, .sort] s t)) ∧
     (∀ ok b l cfg, s.sort.save = some (b, l, cfg) →
       ∃ t, completes (.sortSaveDone ok) s t ∧ t.sort.save = none ∧ isSet t F.SORT_STATUS_BUSY = false ∧
         raised baseSort 2 t = true ∧ t.sort.arr = s.sort.arr ∧ t.sort.shadow = s.sort.shadow ∧
         (ok = true → t.sort.saved = l ∧ t.sort.savedCfg = cfg ∧ getF t F.SORT_STATUS_RESULT = 0 ∧
           isSet t F.SORT_STATUS_DIRTY = s.sort.changed) ∧
         (ok = false → t.sort.saved = s.sort.saved ∧ t.sort.savedCfg = s.sort.savedCfg ∧
           getF t F.SORT_STATUS_RESULT = 7 ∧ isSet t F.SORT_STATUS_DIRTY = isSet s F.SORT_STATUS_DIRTY)) ∧
     (∀ ok, s.sort.save = none → completes (.sortSaveDone ok) s s) ∧
     (∀ ok, (ok = true → isSet s F.SORT_STATUS_DIRTY = true → ∃ t, completes (.sortAutosave ok) s t ∧
         t.sort = { s.sort with saved := s.sort.arr, savedCfg := rd s Reg.SORT_CFG, changed := false } ∧
         isSet t F.SORT_STATUS_DIRTY = false ∧ raised baseSort 2 t = true ∧ regsKeptE (· = Reg.SORT_STATUS) s t) ∧
       (ok = false ∨ isSet s F.SORT_STATUS_DIRTY = false → completes (.sortAutosave ok) s s)) ∧
     (∀ v : W32, reach s Reg.SORT_CFG = .ok → ∃ t, completes (.sortCfgWrite v) s t ∧
       getR t Reg.SORT_CFG = Nat.land v.toNat 0x10F0F ∧ isSet t F.SORT_STATUS_DIRTY = true ∧ t.sort.arr = s.sort.arr ∧
       t.sort.shadow = s.sort.shadow ∧ regsKept (fun a => a = Reg.SORT_CFG ∨ a = Reg.SORT_STATUS) s t ∧
       changesOnly [.regs, .sort] s t) ∧
     (∀ i, i < 4096 → s.sort.walking = true →
       (∃ t, completes (.shadowRewrite i false) s t ∧ tget sD t.sort.arr i = arrOf (getE s i) ∧
         (∀ k, k ≠ i → tget sD t.sort.arr k = tget sD s.sort.arr k) ∧ t.sort.shadow = s.sort.shadow ∧
         raised baseSort 0 t = true ∧
         regsKeptE (fun a => a = Reg.SORT_FIXED ∨ a = Reg.SORT_UPDATES) s t) ∧
       (∃ t, completes (.shadowRewrite i true) s t ∧ getE t i = { getE s i with valid := false } ∧
         (∀ k, k ≠ i → getE t k = getE s k) ∧ (tget sD t.sort.arr i).valid = false ∧
         isSet t F.SORT_STATUS_SHADOW_UE = true ∧ raised baseSort 1 t = true)) ∧
     (∀ i ue, 4096 ≤ i ∨ s.sort.walking = false → completes (.shadowRewrite i ue) s s))

/-- R65 to R71, R125, R175, R526: PROVISION, START, STOP, RELEASE and SET_SHARES of a tile move it as R65's table says
where their checks pass, and else leave it, with the result in TILE_STATE and the tile's event 0; command 0xC1 does
the same and answers with the result; a tile that is QUIESCING becomes STOPPED, and one that is SCRUBBING FREE with
its resource registers at their reset values. R17, R199, R218, R245, R262, R263: YARD_CFG and TROWEL_BUDGET take a
value that leaves the tiles' guarantees and shares and else keep theirs and set CFG_REFUSED; a retrain of a channel
that clears its fault ends the run of transfer errors, and a second that does not may lose the channel. -/
def Obligations.TilesAreOperated : Prop :=
  (∀ (s : State) (k : Nat), k < 64 → running s = true →
     (reach s (Reg.TILE_CMD k) = .ok →
       (∀ c r, (c = .tileProvision k none ∧ r = tileCheck s k 1 ∨
           c = .tileStart k none ∧ (k ≠ 0 ∧ modeNow s ≠ modeZoned ∧ r = badMode ∨
             (k = 0 ∨ modeNow s = modeZoned) ∧ tileState s k ≠ tStopped ∧ r = tileBadState) ∨
           c = .tileStop k none ∧ tileState s k ≠ tActive ∧ r = tileBadState ∨
           c = .tileRelease k none ∧ (k = 0 ∧ r = tile0Fixed ∨ k ≠ 0 ∧ tileState s k ≠ tStopped ∧ r = tileBadState) ∨
           c = .tileSetShares k none ∧ (tileState s k ≠ tActive ∧ r = tileBadState ∨
             tileState s k = tActive ∧ bitsOf (staging s (Reg.TILE_COURSES k)) 0 18 < coursesHeld s k ∧ r = overOther ∨
             tileState s k = tActive ∧ coursesHeld s k ≤ bitsOf (staging s (Reg.TILE_COURSES k)) 0 18 ∧
               r = overcommit s k)) →
         r ≠ tileOk →
         ∃ t, completes c s t ∧ getF t (F.TILE_STATE_RESULT k) = r ∧ tileState t k = tileState s k ∧
           raised (baseTile k) 0 t = true ∧ changesOnly (.errHeld :: eventParts) s t ∧
           regsKeptE (fun a => a = Reg.TILE_STATE k ∨ a = Reg.ERR_INFO (baseTile k) ∨ a = Reg.ERR_ADDR_LO (baseTile k) ∨
             a = Reg.ERR_ADDR_HI (baseTile k)) s t) ∧
       (tileCheck s k 1 = tileOk →
         ∃ t, completes (.tileProvision k none) s t ∧ getF t (F.TILE_STATE_RESULT k) = tileOk ∧ tileState t k = tStopped ∧
           (∀ a ∈ stageRegs k, a ≠ Reg.TILE_BIND k → getR t a = staging s a) ∧
           getF t (F.TILE_BIND_FN k) = bitsOf (staging s (Reg.TILE_BIND k)) 0 6 ∧
           getF t (F.TILE_BIND_BOUND k) = bitsOf (staging s (Reg.TILE_BIND k)) 6 1 ∧
           (∀ i, sortMoved s k i = true → (getE t i).valid = false) ∧
           (∀ i, sortMoved s k i = false → getE t i = getE s i) ∧ changesOnly [.regs, .sort, .tiles] s t) ∧
       ((k = 0 ∨ modeNow s = modeZoned) → tileState s k = tStopped →
         ∃ t, completes (.tileStart k none) s t ∧ getF t (F.TILE_STATE_RESULT k) = tileOk ∧ tileState t k = tActive ∧
           (∀ p ∈ s.host.ns, p.2.tile = k → (getNs t p.1).attached = true) ∧
           regsKept (· = Reg.TILE_STATE k) s t ∧ changesOnly [.regs, .host, .tiles] s t) ∧
       (tileState s k = tActive →
         ∃ t, completes (.tileStop k none) s t ∧ getF t (F.TILE_STATE_RESULT k) = tileOk ∧ tileState t k = tQuiescing ∧
           regsKept (· = Reg.TILE_STATE k) s t ∧ changesOnly [.regs, .tiles] s t) ∧
       (k ≠ 0 → tileState s k = tStopped →
         ∃ t, completes (.tileRelease k none) s t ∧ getF t (F.TILE_STATE_RESULT k) = tileOk ∧
           tileState t k = tScrubbing ∧ getF t (F.TILE_BIND_BOUND k) = 0) ∧
       (tileState s k = tActive → coursesHeld s k ≤ bitsOf (staging s (Reg.TILE_COURSES k)) 0 18 →
         overcommit s k = tileOk →
         ∃ t, completes (.tileSetShares k none) s t ∧ getF t (F.TILE_STATE_RESULT k) = tileOk ∧ tileState t k = tActive ∧
           (∀ a ∈ stageRegs k, a ≠ Reg.TILE_BIND k → a ≠ Reg.TILE_DIE_SHARE k → a ≠ Reg.TILE_YARD k →
             getR t a = staging s a) ∧
           rd t (Reg.TILE_DIE_SHARE k) = rd s (Reg.TILE_DIE_SHARE k) ∧ rd t (Reg.TILE_YARD k) = rd s (Reg.TILE_YARD k) ∧
           (k, BitVec.ofNat 32 (staging s (Reg.TILE_DIE_SHARE k)), BitVec.ofNat 32 (staging s (Reg.TILE_YARD k))) ∈
             t.tiles.sharesDue ∧ changesOnly [.regs, .sort, .tiles] s t)) ∧
     (∀ c op req u, (c = .tileProvision k (some req) ∧ op = 1 ∨ c = .tileStart k (some req) ∧ op = 2 ∨
         c = .tileStop k (some req) ∧ op = 3 ∨ c = .tileRelease k (some req) ∧ op = 4 ∨
         c = .tileSetShares k (some req) ∧ op = 5) →
       takeCmd req.h s = some u → isPF0 s req.h.fn = true → modeNow s ≠ modeSanitize →
       completes c s (answer req.h (.admin 0xC1)
         (if (tileOp k op req.staging u).1 = tileOk then stOk else stTileRefused false)
         (tileOp k op req.staging u).1 [] (tileOp k op req.staging u).2)) ∧
     (tileState s k = tQuiescing → (∀ p ∈ s.host.cmds, p.2.tile = some k → p.2.kind = .aer) →
       (∀ fn, fnOfTile s k = some fn → ∀ p ∈ s.host.sqs, p.1 / 8192 = fn → p.2.granted = 0) → tileHeld s k = false →
       ∃ t, completes (.tileQuiesced k) s t ∧ tileState t k = tStopped ∧ raised (baseTile k) 1 t = true ∧
         changesOnly (.tiles :: .errHeld :: eventParts) s t) ∧
     (tileState s k ≠ tQuiescing → completes (.tileQuiesced k) s s) ∧
     (tileState s k = tScrubbing → (∀ p ∈ s.map.courses, p.2.tile = k → p.2.use = .none) →
       ∃ t, completes (.tileScrubbed k) s t ∧ tileState t k = tFree ∧ raised (baseTile k) 2 t = true ∧
         (∀ a ∈ stageRegs k, rd t a = resetValue a) ∧ changesOnly (.tiles :: .errHeld :: eventParts) s t) ∧
     (tileState s k ≠ tScrubbing → completes (.tileScrubbed k) s s)) ∧
  (∀ (s : State) (v : W32),
     (reach s Reg.YARD_CFG = .ok →
       (2048 - (16 * muPerWave s (userCell s) + max 16 (bitsOf v.toNat 0 6)) < yardMinSum s →
         ∃ t, completes (.yardCfgWrite v) s t ∧ getF t F.YARD_STATUS_CFG_REFUSED = 1 ∧
           getF t F.YARD_CFG_EXTRA = getF s F.YARD_CFG_EXTRA ∧ getF t F.YARD_CFG_PALLET_IDLE = bitsOf v.toNat 8 8 ∧
           regsKept (fun a => a = Reg.YARD_CFG ∨ a = Reg.YARD_STATUS) s t ∧ changesOnly [.regs] s t) ∧
       (yardMinSum s ≤ 2048 - (16 * muPerWave s (userCell s) + max 16 (bitsOf v.toNat 0 6)) →
         ∃ t, completes (.yardCfgWrite v) s t ∧ getF t F.YARD_CFG_EXTRA = bitsOf v.toNat 0 6 ∧
           getF t F.YARD_CFG_PALLET_IDLE = bitsOf v.toNat 8 8 ∧ regsKept (· = Reg.YARD_CFG) s t ∧
           changesOnly [.regs] s t)) ∧
     (reach s Reg.TROWEL_BUDGET = .ok →
       (∀ n, n = (notFree s).foldl (fun n k => n + bitsOf (held s k (Reg.TILE_DIE_SHARE k)) 0 13) 0 →
         (4096 < bitsOf v.toNat 0 13 + n →
           ∃ t, completes (.trowelBudgetWrite v) s t ∧ getF t F.TROWEL_STATUS_CFG_REFUSED = 1 ∧
             regsKept (· = Reg.TROWEL_STATUS) s t ∧ changesOnly [.regs] s t) ∧
         (bitsOf v.toNat 0 13 + n ≤ 4096 →
           ∃ t, completes (.trowelBudgetWrite v) s t ∧ getF t F.TROWEL_BUDGET_SHARE = bitsOf v.toNat 0 13 ∧
             regsKept (· = Reg.TROWEL_BUDGET) s t ∧ changesOnly [.regs] s t))) ∧
     (∀ ch, ch < width s → chLost s ch = false →
       (∃ t, completes (.fchRetrain ch true) s t ∧ tget zeroD t.trowel.retrains ch = 0 ∧ xferLimit t ch = false ∧
         changesOnly [.trowel] s t) ∧
       (tget zeroD s.trowel.retrains ch = 0 ∨ xferLimit s ch = false →
         ∃ t, completes (.fchRetrain ch false) s t ∧
           tget zeroD t.trowel.retrains ch = tget zeroD s.trowel.retrains ch + 1 ∧ changesOnly [.trowel] s t) ∧
       (1 ≤ tget zeroD s.trowel.retrains ch → xferLimit s ch = true →
         completes (.fchRetrain ch false) s (loseChannel ch
           { s with trowel := { s.trowel with retrains := bumpT ch s.trowel.retrains } }))) ∧
     (∀ ch ok, width s ≤ ch ∨ chLost s ch = true → completes (.fchRetrain ch ok) s s))

/-- R94, R105, R120, R121, R129: a reset function is disabled, its queues and commands are gone and it keeps what R121
and R94 leave it; in an activation pause a reset waits; a controller is enabled where its tile is ACTIVE, its function
enabled and its link up; a shutdown completes at once with HOLDUP_OK; the virtual functions are those that NumVFs
names; a host read that times out fails its command. -/
def Obligations.FunctionsAreResetAndEnabled : Prop :=
  ∀ (s : State) (fn : Nat),
    (∀ c, c = .controllerReset fn ∨ c = .functionLevelReset fn →
      (pausedPort s (portOf s fn) = true → ∃ k, completes c s
        { s with host := { s.host with paused := s.host.paused ++ [(k, fn)] } }) ∧
      (pausedPort s (portOf s fn) = false → (getFn s fn).en = true → (fn ≠ 0 ∨ s.sec.onReset = none) →
        (∀ i, (getCmd s i).st ≠ .started) →
        ∃ t, completes c s t ∧ (∀ p ∈ t.host.cmds, p.2.h.fn ≠ fn) ∧ (∀ p ∈ s.host.cmds, p.2.h.fn ≠ fn →
            (∀ q ∈ s.host.cmds, q.1 = p.1 → q.2.h.fn ≠ fn) → p ∈ t.host.cmds) ∧
          (∀ q, q < 8192 → getSq t fn q = sq0 ∧ getCq t fn q = cq0) ∧
          (∀ k q, k ≠ fn → q < 8192 → getSq t k q = getSq s k q ∧ getCq t k q = getCq s k q) ∧
          (∀ k, k ≠ fn → getFn t k = getFn s k) ∧
          (c = .controllerReset fn → getFn t fn = { fn0 with
            vf := (getFn s fn).vf, lostC0 := (getFn s fn).lostC0, lostC1 := (getFn s fn).lostC1
            errLog := (getFn s fn).errLog, ps := (getFn s fn).ps, psHeld := (getFn s fn).psHeld }) ∧
          (c = .functionLevelReset fn → getFn t fn = { fn0 with
            vf := (getFn s fn).vf, lostC0 := (getFn s fn).lostC0, lostC1 := (getFn s fn).lostC1 }) ∧
          (getConn t (.storage fn)).sessions = 0 ∧ changesOnly [.host, .map, .sec] s t)) ∧
    (pausedPort s (portOf s fn) = false → (getFn s fn).en = false → completes (.controllerReset fn) s s) ∧
    ((getFn s fn).en = false → (∀ k, tileOfFn s fn = some k → tileState s k = tActive) →
      isPF0 s fn = true ∨ (getFn s fn).vf = true → isSet s (F.HOST_LINK_STATUS_UP (portOf s fn)) = true →
      running s = true →
      ∃ t, completes (.controllerEnable fn) s t ∧ (getFn t fn).en = true ∧ (getFn t fn).rdy = true ∧
        (getFn t fn).shut = false ∧ (getSq t fn 0).size = 4096 ∧ (getCq t fn 0).size = 4096 ∧
        (∀ k q, q < 8192 → k ≠ fn → getSq t k q = getSq s k q) ∧ changesOnly [.host] s t) ∧
    ((getFn s fn).en = true ∨ (∃ k, tileOfFn s fn = some k ∧ tileState s k ≠ tActive) ∨
        isPF0 s fn = false ∧ (getFn s fn).vf = false ∨ isSet s (F.HOST_LINK_STATUS_UP (portOf s fn)) = false ∨
        running s = false → completes (.controllerEnable fn) s s) ∧
    ((getFn s fn).en = true → completes (.shutdownNotification fn) s (setFn fn { getFn s fn with shutting := true } s)) ∧
    ((getFn s fn).en = false → completes (.shutdownNotification fn) s s) ∧
    ((getFn s fn).shutting = true → (isSet s F.PWR_HOLDUP_STAT_WRITE_THROUGH = false ∨
        ∀ k, tileOfFn s fn = some k → tileHeld s k = false) →
      ∃ t, completes (.shutdownComplete fn) s t ∧ (getFn t fn).shut = true ∧ (getFn t fn).shutting = false ∧
        changesOnly [.host] s t) ∧
    ((getFn s fn).shutting = false ∨ isSet s F.PWR_HOLDUP_STAT_WRITE_THROUGH = true ∧
        (∃ k, tileOfFn s fn = some k ∧ tileHeld s k = true) → completes (.shutdownComplete fn) s s) ∧
    (∀ p n on, hasPort s p = true → (∀ i, (getCmd s i).st ≠ .started) →
      ∃ t, completes (.vfEnable p n on) s t ∧
        (∀ k, 1 ≤ k → k ≤ (if twoPort s then 31 else 63) →
          (getFn t ((if p = 1 then 32 else 0) + k)).vf = (on && decide (k ≤ n))) ∧
        changesOnly [.host, .map, .sec] s t) ∧
    (∀ p n on, hasPort s p = false → completes (.vfEnable p n on) s s) ∧
    (∀ i, hasCmd s i = true → (getCmd s i).st ≠ .ready →
      ∃ t, completes (.hostCplTimeout i) s t ∧ (getCmd t i).st = .ready ∧ (getCmd t i).status = stXfer ∧
        raised (baseHost (portOf s (getCmd s i).h.fn)) 6 t = true) ∧
    (∀ i, hasCmd s i = false ∨ (getCmd s i).st = .ready → completes (.hostCplTimeout i) s s)

/-- R92, R121, R128, R129, R419, R429, R437, R440: a link comes up at a speed and width the port allows and says where
they are below its best; a link down, or a reset of the port, resets every function of it; a retrain holds the port in
Recovery until the link exits it at its width; the Kiln changes the width where the partner can, and else notes that
it is fixed; PERST and AER. -/
def Obligations.LinksTrainAndPortsReset : Prop :=
  ∀ (s : State) (p : Nat), p < 2 →
    (∀ sp w flit, hasPort s p = true → p ∉ s.top.perst → s.top.off = false → s.top.halted = false →
      isSet s (F.HOST_LINK_STATUS_UP p) = false → sp ≠ 0 → sp ≤ maxSpeed s p → w ≤ layoutWidth s →
      ∃ t, completes (.hostLinkUp p sp w flit) s t ∧ isSet t (F.HOST_LINK_STATUS_UP p) = true ∧
        getF t (F.HOST_LINK_STATUS_SPEED p) = sp ∧ getF t (F.HOST_LINK_STATUS_WIDTH p) = w ∧
        isSet t (F.HOST_LINK_STATUS_FLIT p) = flit ∧ raised (baseHost p) 0 t = true ∧
        (sp < maxSpeed s p ∨ w < layoutWidth s → raised (baseHost p) 2 t = true) ∧
        regsKeptE (· = Reg.HOST_LINK_STATUS p) s t ∧ changesOnly (.host :: eventParts) s t) ∧
    (∀ sp w flit, hasPort s p = false ∨ p ∈ s.top.perst ∨ s.top.off = true ∨ s.top.halted = true ∨
        isSet s (F.HOST_LINK_STATUS_UP p) = true ∨ sp = 0 ∨ maxSpeed s p < sp ∨ layoutWidth s < w →
      completes (.hostLinkUp p sp w flit) s s) ∧
    (isSet s (F.HOST_LINK_STATUS_UP p) = false → completes (.hostLinkDown p) s s) ∧
    (isSet s (F.HOST_LINK_STATUS_UP p) = true → (∀ i, (getCmd s i).st ≠ .started) →
      ∃ t, completes (.hostLinkDown p) s t ∧ isSet t (F.HOST_LINK_STATUS_UP p) = false ∧ raised (baseHost p) 1 t = true ∧
        p ∉ t.host.recov ∧ regsKeptE (· = Reg.HOST_LINK_STATUS p) s t ∧
        (pausedPort s p = false → ∀ fn, fn < 64 → portOf s fn = p →
          (getFn t fn).en = false ∧ (getFn t fn).vf = false ∧ ∀ x ∈ t.host.cmds, x.2.h.fn ≠ fn) ∧
        (∀ fn, portOf s fn ≠ p → getFn t fn = getFn s fn) ∧
        (pausedPort s p = true → t.host.paused = s.host.paused ++ [(2, p)])) ∧
    (s.top.off = true ∨ s.top.halted = true →
      completes (.portReset p) s { s with top := { s.top with perst := insertNat p s.top.perst } }) ∧
    (s.top.off = false → s.top.halted = false → hasPort s p = false → completes (.portReset p) s s) ∧
    (s.top.off = false → s.top.halted = false → hasPort s p = true → (∀ i, (getCmd s i).st ≠ .started) →
      ∃ t, completes (.portReset p) s t ∧ isSet t (F.HOST_LINK_STATUS_UP p) = false ∧ p ∈ t.top.perst ∧
        (pausedPort s p = false → ∀ fn, fn < 64 → portOf s fn = p →
          (getFn t fn).en = false ∧ (getFn t fn).vf = false ∧ ∀ x ∈ t.host.cmds, x.2.h.fn ≠ fn) ∧
        (∀ fn, portOf s fn ≠ p → getFn t fn = getFn s fn)) ∧
    (∃ t, completes (.perstDeasserted p) s t ∧ p ∉ t.top.perst ∧ changesOnly [.top] s t ∧
      ((s.top.off = true ∨ s.top.halted = true) → p ∈ s.top.perst → t.top.wakeIn = true) ∧
      (s.top.off = false → s.top.halted = false → t.top.wakeIn = s.top.wakeIn)) ∧
    (reach s (Reg.HOST_LINK_CTRL p) = .ok →
      (isSet s (F.HOST_LINK_STATUS_UP p) = false → completes (.hostLinkRetrain p) s s) ∧
      (isSet s (F.HOST_LINK_STATUS_UP p) = true →
        ∃ t, completes (.hostLinkRetrain p) s t ∧ p ∈ t.host.recov ∧ (∀ fn, portOf t fn = p → serving t fn = false) ∧
          changesOnly [.host] s t)) ∧
    (∀ w, w < 32 → p ∈ s.host.recov →
      ∃ t, completes (.linkRecoveryExit p w) s t ∧ p ∉ t.host.recov ∧ getF t (F.HOST_LINK_STATUS_WIDTH p) = w ∧
        regsKept (· = Reg.HOST_LINK_STATUS p) s t ∧ changesOnly [.regs, .host] s t) ∧
    (∀ w, p ∉ s.host.recov → completes (.linkRecoveryExit p w) s s) ∧
    (∀ up, isSet s (F.HOST_LINK_STATUS_UP p) = true → getF s (F.HOST_LINK_STATUS_WIDTH p) ≠ levelWidth s p →
      (up = true → isSet s F.KILN_CFG_LINK_EN = true →
        ∃ t, completes (.linkWidthChange p up) s t ∧ p ∈ t.host.recov ∧ changesOnly [.host] s t) ∧
      (up = false ∨ isSet s F.KILN_CFG_LINK_EN = false →
        (isSet s F.KILN_STATUS_LINK_FIXED = true → completes (.linkWidthChange p up) s s) ∧
        (isSet s F.KILN_STATUS_LINK_FIXED = false →
          ∃ t, completes (.linkWidthChange p up) s t ∧ isSet t F.KILN_STATUS_LINK_FIXED = true ∧
            raised baseKiln 6 t = true ∧ regsKeptE (· = Reg.KILN_STATUS) s t ∧ changesOnly eventParts s t))) ∧
    (∀ up, isSet s (F.HOST_LINK_STATUS_UP p) = false ∨ getF s (F.HOST_LINK_STATUS_WIDTH p) = levelWidth s p →
      completes (.linkWidthChange p up) s s) ∧
    (∀ cor, isSet s (F.HOST_LINK_STATUS_UP p) = true →
      ∃ t, completes (.aerError p cor) s t ∧ raised (baseHost p) (if cor then 3 else 4) t = true ∧ evtOnly s t) ∧
    (∀ cor, isSet s (F.HOST_LINK_STATUS_UP p) = false → completes (.aerError p cor) s s)

/-- R17, R25, R28, R280, R281, R284, R285, R288, R289, R358, R403: HOLDUP_OK's loss sets write-through, holds the
ready writes whose data is not programmed, and begins the drain; its return is taken at a header beat after OK_FRAMES
whole frames; the first cause begins a grout, a later one joins its mask, none acts before S12; a confirmed seal
powers the part down and counts. -/
def Obligations.PowerLossBeginsAndSealsTheGrout : Prop :=
  ∀ (s : State),
    (isSet s F.PWR_HOLDUP_STAT_HOLDUP_OK = true →
      ∃ u, completes .holdupOkDeasserted s (if mapOpen u then
          ((ackedSlots s).filterMap (fun k => (getSlot u k).course)).foldl (fun t c => palletMove c t) u else u) ∧
        isSet u F.PWR_HOLDUP_STAT_HOLDUP_OK = false ∧ isSet u F.PWR_HOLDUP_STAT_WRITE_THROUGH = true ∧
        raised basePwr 8 u = true ∧ u.grout.okFrom = frameNow s ∧ u.grout.drain = ackedSlots s ∧
        isSet u F.PWR_HOLDUP_STAT_DRAINING = decide (ackedSlots s ≠ []) ∧
        regsKeptE (· = Reg.PWR_HOLDUP_STAT) s u ∧ changesOnly (.host :: .grout :: eventParts) s u ∧
        (∀ i, hasCmd s i = true → (∀ fn, i ∉ (getFn s fn).aers) → isWrite (getCmd s i).kind = true →
          (getCmd s i).st = .ready → (getCmd s i).planned = false → (getCmd s i).slots.filter (slotHeld s) ≠ [] →
          (getCmd u i).st = .working ∧ (getCmd u i).waits = (getCmd s i).slots.filter (slotHeld s))) ∧
    (isSet s F.PWR_HOLDUP_STAT_HOLDUP_OK = false →
      completes .holdupOkDeasserted s { s with grout := { s.grout with okFrom := frameNow s } }) ∧
    (headerNow s = true → isSet s F.PWR_HOLDUP_STAT_HOLDUP_OK = false →
      s.grout.okFrom + 1 + getNZ s F.PWR_HOLDUP_CFG_OK_FRAMES ≤ frameNow s →
      ∃ t, completes .holdupOkAsserted s t ∧ isSet t F.PWR_HOLDUP_STAT_HOLDUP_OK = true ∧
        isSet t F.PWR_HOLDUP_STAT_WRITE_THROUGH = false ∧ raised basePwr 9 t = true ∧
        regsKeptE (· = Reg.PWR_HOLDUP_STAT) s t ∧ changesOnly (.host :: eventParts) s t) ∧
    (headerNow s = false ∨ isSet s F.PWR_HOLDUP_STAT_HOLDUP_OK = true ∨
        frameNow s < s.grout.okFrom + 1 + getNZ s F.PWR_HOLDUP_CFG_OK_FRAMES → completes .holdupOkAsserted s s) ∧
    (∀ c b, (c = .powerFailRecognised ∧ b = (if asleep s then 4 else 0) ∨
        c = .pgCoreFall ∧ b = 1 ∧ bitsOf (getF s F.PWR_DOM_STAT_ON) 3 1 = 1 ∨
        c = .fatalEvent 8 ∧ b = 2 ∨ c = .fatalEvent 125 ∧ b = 2) → running s = true →
      (grouting s = false → s.map.loaded = true →
        ∃ t g, completes c s t ∧ t.grout.img = some g ∧ g.cause = 2 ^ b ∧ g.id = s.grout.lastId + 1 ∧
          g.beat = beatNow s ∧ g.done = false ∧ t.grout.beat = some (beatNow s) ∧
          t.grout.frozen = (s.grout.frozen || asleep s) ∧ raised basePwr 10 t = true ∧ t.map = s.map ∧ t.host = s.host ∧
          regsKeptE (· = Reg.PWR_PG) s t ∧ changesOnly (.grout :: .top :: eventParts) s t) ∧
      (∀ g, grouting s = true → s.grout.img = some g →
        ∃ t, completes c s t ∧ t.grout.img = some { g with cause := Nat.lor g.cause (2 ^ b) } ∧
          t.grout.beat = s.grout.beat ∧ regsKeptE (· = Reg.PWR_PG) s t ∧
          changesOnly (.grout :: .top :: eventParts) s t)) ∧
    (∃ t, completes .pgCoreFall s t ∧ getF t (bitF Reg.PWR_PG 0) = 0) ∧
    (running s = true → ∀ src base i, (src = 8 ∧ base = baseTop ∧ i = 8 ∨ src = 125 ∧ base = baseSec ∧ i = 5) →
      ∃ t, completes (.fatalEvent src) s t ∧ raised base i t = true ∧ t.top.faultN = true) ∧
    (running s = true → ∀ c, c < 4 → isSet s (F.MAPMEM_LAYOUT_DEG_OK 0) = false ∨ degraded s = true →
      getF s (F.MAPMEM_STATUS_STATE c) ≠ 4 →
      ∃ t, completes (.fatalEvent (65 + 2 * c)) s t ∧ getF t (F.MAPMEM_STATUS_STATE c) = 4 ∧
        raised (baseMapmem c) 1 t = true ∧ t.top.recNext = true ∧ t.top.faultN = true ∧ grouting t = true) ∧
    (running s = false → completes .powerFailRecognised s s ∧ ∀ src, completes (.fatalEvent src) s s) ∧
    (∀ n g, s.grout.frozen = true → grouting s = true → s.top.off = false → s.grout.img = some g →
      ∃ t g', completes (.groutSealed n) s t ∧ t.grout.img = some g' ∧ g'.done = true ∧ g'.cause = g.cause ∧
        g'.retried = decide (n ≠ 0) ∧ g'.beats ≤ groutBound s g n ∧ t.grout.beat = none ∧
        t.grout.used = s.grout.used ++ (freeSets s).take (if n = 0 then 1 else 2) ∧ t.top.off = true ∧
        t.top.sealFrame = some (frameNow s) ∧ getF t F.PWR_DOM_STAT_ON = 1 ∧
        isSet t (F.HOST_LINK_STATUS_UP 0) = false ∧ isSet t (F.HOST_LINK_STATUS_UP 1) = false ∧
        getF t F.PWR_GROUT_COUNT_COUNT = min (2 ^ 32 - 1) (getF s F.PWR_GROUT_COUNT_COUNT + 1) ∧
        (n ≠ 0 → raised basePwr 11 t = true) ∧ t.map = s.map) ∧
    (∀ n, s.grout.frozen = false ∨ grouting s = false ∨ s.top.off = true ∨ s.grout.img = none →
      completes (.groutSealed n) s s)

/-- R24, R25, R417 to R420, R423 to R425, R427 to R429: which state is entered, when the drive falls asleep, returns
and goes off, what a wake ends with, and what a drain, a wake step, an access or a reference clock that fails leaves.
-/
def Obligations.PowerStatesAreEnteredAndLeft : Prop :=
  ∀ (s : State),
    (∀ k, s.top.target = some k → (k = 1 ∨ (k = 2 ∨ k = 3) ∧ drained s = true) →
      ∃ t, completes .powerStateEntered s t ∧ powerNow t = k ∧ t.top.target = none ∧ getF t F.PWR_DOM_STAT_ON = domsOn s k ∧
        getF t F.PWR_DOM_STAT_RET = domsRet k ∧ raised basePwr 0 t = true ∧
        regsKeptE (fun a => a = Reg.PWR_STATE ∨ a = Reg.PWR_DOM_STAT) s t ∧ changesOnly (.top :: eventParts) s t) ∧
    (s.top.target = none ∨ (∃ k, s.top.target = some k ∧ k ≠ 1 ∧ ((k ≠ 2 ∧ k ≠ 3) ∨ drained s = false)) →
      completes .powerStateEntered s s) ∧
    (∀ f, s.top.target = some 4 → s.top.offFrom = some f → f + getNZ s F.PWR_CFG_GRACE ≤ frameNow s → drained s = true →
      ∃ t, completes .offEntry s t ∧ t.top.off = true ∧ t.top.target = none ∧ getF t F.PWR_DOM_STAT_ON = 1 ∧
        isSet t (F.HOST_LINK_STATUS_UP 0) = false ∧ isSet t (F.HOST_LINK_STATUS_UP 1) = false ∧
        raised basePwr 0 t = true ∧ changesOnly (.top :: eventParts) s t) ∧
    (s.top.target ≠ some 4 ∨ s.top.offFrom = none ∨ drained s = false → completes .offEntry s s) ∧
    (isSet s F.PWR_STATE_IO_WAKE = true → busyCmds s = false →
      s.top.waitFrom + getNZ s F.PWR_CFG_RETURN_FRAMES ≤ frameNow s →
      (selected s = 0 → ∃ t, completes .ioWakeReturn s t ∧ isSet t F.PWR_STATE_IO_WAKE = false ∧
        regsKept (· = Reg.PWR_STATE) s t ∧ changesOnly [.regs] s t) ∧
      (selected s = 1 → ∃ t, completes .ioWakeReturn s t ∧ powerNow t = 1 ∧ isSet t F.PWR_STATE_IO_WAKE = false ∧
        raised basePwr 0 t = true) ∧
      (2 ≤ selected s → ∃ t, completes .ioWakeReturn s t ∧ t.top.target = some (selected s) ∧
        isSet t F.PWR_STATE_IN_TRANSITION = true ∧ regsKept (· = Reg.PWR_STATE) s t ∧ changesOnly [.regs, .top] s t)) ∧
    (isSet s F.PWR_STATE_IO_WAKE = false ∨ busyCmds s = true ∨
      frameNow s < s.top.waitFrom + getNZ s F.PWR_CFG_RETURN_FRAMES → completes .ioWakeReturn s s) ∧
    (s.top.off = true ∨ s.top.halted = true →
      completes .wakeInRise s { s with top := { s.top with wakeIn := true } }) ∧
    (s.top.off = false → s.top.halted = false →
      (2 ≤ powerNow s → ∃ t, completes .wakeInRise s t ∧ t.top.wakeRun = true ∧ t.top.wakeIn = true ∧
        isSet t F.PWR_STATE_IN_TRANSITION = true ∧ regsKept (· = Reg.PWR_STATE) s t ∧ changesOnly [.regs, .top] s t) ∧
      (powerNow s = 1 → ∃ t, completes .wakeInRise s t ∧ powerNow t = 0 ∧ getF t F.PWR_DOM_STAT_ON = domsOn s 0 ∧
        raised basePwr 0 t = true ∧ t.top.wakeIn = true ∧
        isSet t F.PWR_STATE_IO_WAKE = decide (selected s ≠ 0)) ∧
      (powerNow s = 0 → s.top.target ≠ none → s.top.requested = false → ∃ t, completes .wakeInRise s t ∧
        t.top.target = none ∧ raised basePwr 13 t = true) ∧
      (powerNow s = 0 → s.top.target = none → completes .wakeInRise s
        { s with top := { s.top with wakeIn := true, waitFrom := frameNow s } })) ∧
    (∀ d, s.top.wakeRun = false → s.top.waking = [d] → d < 10 → s.top.stalled = [] → s.top.mgmt = [] →
      ∃ t, completes .domainWakeDone s t ∧ t.top.waking = [] ∧ d ∈ t.top.woken ∧
        bitsOf (getF t F.PWR_DOM_STAT_ON) d 1 = 1 ∧ powerNow t = powerNow s ∧
        getF t F.PWR_WAKES_COUNT = min (2 ^ 32 - 1) (getF s F.PWR_WAKES_COUNT + 1)) ∧
    (s.top.wakeRun = true → completes .domainWakeDone s (releaseStalled (wakeOk (runAgain s)))) ∧
    (∀ d, d < 16 → (s.top.target ≠ none ∨ d ∈ s.top.drains) →
      ∃ t, completes (.domainDrainTimeout d) s t ∧ t.top.target = none ∧ d ∉ t.top.drains ∧ raised basePwr 2 t = true ∧
        getF t F.PWR_DOM_DRAIN_DOMAIN = d ∧ isSet t F.PWR_DOM_DRAIN_FAILED = true ∧
        regsKeptE (fun a => a = Reg.PWR_STATE ∨ a = Reg.PWR_DOM_DRAIN) s t ∧ changesOnly (.top :: eventParts) s t) ∧
    (∀ d, s.top.target = none → d ∉ s.top.drains → completes (.domainDrainTimeout d) s s) ∧
    (∀ d step other, d < 16 → (s.top.wakeRun = true ∨ d ∈ s.top.waking) →
      (∃ t, completes (.wakeStepTimeout d step false other) s t ∧ raised basePwr 3 t = true ∧ evtOnly s t) ∧
      (∀ bit, (step = 1 ∧ bit = 5 ∨ step = 2 ∧ (other && isSet s F.PWR_CFG_FAILOVER_EN) = false ∧ bit = 7 ∨
          step = 3 ∧ other = false ∧ bit = 6) →
        ∃ t, completes (.wakeStepTimeout d step true other) s t ∧ raised basePwr 3 t = true ∧ raised basePwr bit t = true ∧
          t.top.faultN = true ∧ t.top.wakeRun = false ∧ d ∈ t.top.altNext ∧ powerNow t = powerNow s ∧
          getF t F.PWR_WAKE_FAIL_DOMAIN = d ∧ getF t F.PWR_WAKE_FAIL_STEP = step) ∧
      (step = 2 → (other && isSet s F.PWR_CFG_FAILOVER_EN) = true →
        ∃ t, completes (.wakeStepTimeout d step true other) s t ∧ raised basePwr 4 t = true ∧
          getF t F.PWR_REFCLK_ACTIVE = 1 - getF s F.PWR_REFCLK_ACTIVE ∧ t.top.wakeRun = s.top.wakeRun) ∧
      (step = 3 → other = true →
        ∃ t, completes (.wakeStepTimeout d step true other) s t ∧ raised basePwr 3 t = true ∧
          getF t F.PWR_REFCLK_ACTIVE = 1 - getF s F.PWR_REFCLK_ACTIVE ∧ t.top.wakeRun = s.top.wakeRun)) ∧
    (∀ d step r other, s.top.wakeRun = false → d ∉ s.top.waking → completes (.wakeStepTimeout d step r other) s s) ∧
    (∀ other, ∃ t, completes (.refclkLost other) s t ∧
      getF t (if getF s F.PWR_REFCLK_ACTIVE = 0 then F.PWR_REFCLK_A_OK else F.PWR_REFCLK_B_OK) = 0 ∧
      (isSet s F.PWR_CFG_FAILOVER_EN = true → other = true → raised basePwr 4 t = true ∧
        getF t F.PWR_REFCLK_ACTIVE = 1 - getF s F.PWR_REFCLK_ACTIVE ∧
        getF t F.PWR_FAILOVERS_COUNT = min (2 ^ 32 - 1) (getF s F.PWR_FAILOVERS_COUNT + 1) ∧
        (isSet s F.TOP_STRAP_SRIS = false → ∀ p, p < 2 → isSet s (F.HOST_LINK_STATUS_UP p) = true → p ∈ t.host.recov)) ∧
      (isSet s F.PWR_CFG_FAILOVER_EN = false ∨ other = false →
        getF t F.PWR_REFCLK_ACTIVE = getF s F.PWR_REFCLK_ACTIVE ∧ regsKept (· = Reg.PWR_REFCLK) s t ∧
        changesOnly [.regs] s t)) ∧
    (∀ path a, s.top.stalled = [(path, a, none)] → s.top.mgmt = [] →
      ∃ t, completes (.accessStallTimeout a false) s t ∧ t.out = .readData path a 0xFFFFFFFF :: s.out ∧
        t.top.stalled = [] ∧ raised basePwr 1 t = true ∧
        getF t F.PWR_WAKE_TIMEOUTS_COUNT = min (2 ^ 32 - 1) (getF s F.PWR_WAKE_TIMEOUTS_COUNT + 1)) ∧
    (∀ path a v b, s.top.stalled = [(path, a, some (v, b))] → s.top.mgmt = [] →
      ∃ t, completes (.accessStallTimeout a true) s t ∧ t.out = s.out ∧ t.top.stalled = [] ∧ raised basePwr 1 t = true) ∧
    (∀ a w, s.top.stalled = [] → s.top.mgmt = [] → completes (.accessStallTimeout a w) s s) ∧
    (∀ fn ps, isPF0 s fn = true → (getFn s fn).rdy = true → ps ≤ 4 → busyCmds s = false → psAllowed s ps = 0 →
      powerNow s = 0 → isSet s F.PWR_STATE_IO_WAKE = false →
      ∃ t u, completes (.autonomousPowerStateTransition fn ps) s t ∧ u = setFn fn { getFn s fn with ps := ps, psHeld := none } s ∧
        t.host = u.host ∧ (selected u = 0 → t.top.target = none) ∧
        (selected u ≠ 0 → t.top.target = some (selected u) ∧ t.top.requested = false ∧
          isSet t F.PWR_STATE_IN_TRANSITION = decide (2 ≤ selected u)) ∧
        regsKept (· = Reg.PWR_STATE) s t ∧ changesOnly [.regs, .host, .top] s t) ∧
    (∀ fn ps, isPF0 s fn = false ∨ (getFn s fn).rdy = false ∨ 4 < ps ∨ busyCmds s = true ∨ psAllowed s ps ≠ 0 ∨
      powerNow s ≠ 0 → completes (.autonomousPowerStateTransition fn ps) s s)

/-- R432 to R436, R439, R442, R443: a sample of working sensors shows each reading and the highest, sets and clears
WARN with its hysteresis, faults a sensor whose reading is out of range, and trips on a sensor at SHUTDOWN twice; the
level changes at its header beat, by one, after UP frames hot or DOWN frames cool; MIN_LEVEL raises it; a tripped part
powers down, and THERM_TRIP_N is released after an epoch below RESTART. -/
def Obligations.TheKilnSamplesAndThrottles : Prop :=
  ∀ (s : State),
    (∀ (temps : List (Option Int)) (val : Nat → Int) (j : Nat), samples s = true → j < 24 →
      (∀ i, i < 24 → faulted s i = false ∧ temps.getD i none = some (val i) ∧ -200 ≤ val i ∧ val i ≤ 600 ∧ val i ≤ val j) →
      ∃ t, completes (.kilnSample temps) s t ∧ getF t F.KILN_TMAX_TEMP = tempCode (val j) ∧
        (∀ i, i < 24 → getF t (F.KILN_TEMP_TEMP i) = tempCode (val i) ∧ faulted t i = false) ∧
        isSet t F.KILN_STATUS_HOT = decide (throttleAt s ≤ val j) ∧
        t.kiln.clock = s.kiln.clock + samplePeriod s ∧
        (isSet s F.KILN_STATUS_WARN = false → 4 * (getF s F.KILN_THRESH_WARN : Int) ≤ val j →
          isSet t F.KILN_STATUS_WARN = true ∧ raised baseKiln 0 t = true) ∧
        (isSet s F.KILN_STATUS_WARN = true →
          val j < 4 * (getF s F.KILN_THRESH_WARN : Int) - 4 * (getNZ s F.KILN_HYST_WARN_H : Int) →
          isSet t F.KILN_STATUS_WARN = false) ∧
        (val j < shutdownAt s → t.top.thermTrip = s.top.thermTrip ∧ t.kiln.trip = s.kiln.trip ∧ t.grout = s.grout) ∧
        (shutdownAt s ≤ val j → (∀ i, i < 24 → i ≠ j → val i < shutdownAt s) → j ∈ s.kiln.atTrip →
          s.kiln.trip = none → s.top.off = false →
          t.top.thermTrip = true ∧ t.top.faultN = true ∧ raised baseKiln 3 t = true ∧
          getF t F.KILN_LAST_TRIP_SENSOR = j ∧ getF t F.KILN_LAST_TRIP_TEMP = tempCode (val j) ∧
          getF t F.KILN_TRIPS_COUNT = min (2 ^ 32 - 1) (getF s F.KILN_TRIPS_COUNT + 1) ∧
          (running s = true → grouting t = true))) ∧
    (∀ temps i, samples s = true → i < 24 → faulted s i = false → goodReading (temps.getD i none) = false →
      ∃ t, completes (.kilnSample temps) s t ∧ faulted t i = true ∧ raised baseKiln 4 t = true) ∧
    (∀ temps, samples s = false → completes (.kilnSample temps) s s) ∧
    (evalDue s = false → completes .kilnLevelEval s s) ∧
    (evalDue s = true →
      (∀ k, (s.kiln.due = some k ∧ k ≠ levelNow s ∧ k < 4 ∨
          s.kiln.due = none ∧ (levelNow s = 1 ∨ levelNow s = 2) ∧
            s.kiln.hotFrom + 1024 * getNZ s F.KILN_STEP_UP ≤ s.kiln.clock ∧ k = levelNow s + 1 ∨
          s.kiln.due = none ∧ s.kiln.clock < s.kiln.hotFrom + 1024 * getNZ s F.KILN_STEP_UP ∧
            getF s F.KILN_CFG_MIN_LEVEL < levelNow s ∧
            s.kiln.coolFrom + 1024 * getNZ s F.KILN_STEP_DOWN ≤ s.kiln.clock ∧
            (levelNow s ≠ 3 ∨ faultHold s = false) ∧ k = levelNow s - 1) →
        ∃ t, completes .kilnLevelEval s t ∧ levelNow t = k ∧ getF t F.SORT_STATUS_LEVEL = k ∧ t.kiln.due = none ∧
          t.kiln.hotFrom = s.kiln.clock ∧ t.kiln.coolFrom = s.kiln.clock ∧ raised baseKiln 1 t = true ∧
          regsKeptE (fun a => a = Reg.KILN_STATUS ∨ a = Reg.SORT_STATUS ∨ a = Reg.MAC_STATUS) s t ∧
          changesOnly (.kiln :: .host :: eventParts) s t) ∧
      (s.kiln.due = none → s.kiln.clock < s.kiln.hotFrom + 1024 * getNZ s F.KILN_STEP_UP →
        s.kiln.clock < s.kiln.coolFrom + 1024 * getNZ s F.KILN_STEP_DOWN →
        completes .kilnLevelEval s { s with kiln := { s.kiln with evalAt := s.kiln.clock } })) ∧
    (∀ v : W32, reach s Reg.KILN_CFG = .ok →
      ∃ t, completes (.kilnMinLevelWrite v) s t ∧ getR t Reg.KILN_CFG = Nat.land v.toNat 0x3F7 ∧
        (bitsOf v.toNat 8 2 ≤ levelAhead s → regsKept (· = Reg.KILN_CFG) s t ∧ changesOnly [.regs] s t) ∧
        (levelAhead s < bitsOf v.toNat 8 2 → asleep s = false → t.kiln.due = some (bitsOf v.toNat 8 2) ∧
          regsKept (· = Reg.KILN_CFG) s t ∧ changesOnly [.regs, .kiln] s t) ∧
        (levelNow s < bitsOf v.toNat 8 2 → s.kiln.due = none → asleep s = true →
          levelNow t = bitsOf v.toNat 8 2 ∧ raised baseKiln 1 t = true)) ∧
    (s.kiln.trip ≠ none → s.top.off = false →
      ∃ t, completes .thermalPowerdownTimeout s t ∧ t.top.off = true ∧ t.kiln.trip = none ∧
        getF t F.PWR_DOM_STAT_ON = 1 ∧ t.top.thermTrip = s.top.thermTrip ∧ changesOnly [.regs, .top, .kiln] s t) ∧
    (s.kiln.trip = none ∨ s.top.off = true → completes .thermalPowerdownTimeout s s) ∧
    (∀ b, s.top.thermTrip = true → s.top.off = true → s.kiln.belowFrom = some b → b + 1048576 ≤ s.kiln.clock →
      ∃ t, completes .thermTripRelease s t ∧ t.top.thermTrip = false ∧ t.kiln.restart = true ∧
        (isSet s F.KILN_CFG_AUTO_RESTART = true → t.top.startDue = some 3) ∧
        (isSet s F.KILN_CFG_AUTO_RESTART = false → t.top.startDue = s.top.startDue) ∧ changesOnly [.top, .kiln] s t) ∧
    (s.top.thermTrip = false ∨ s.top.off = false ∨ s.kiln.belowFrom = none → completes .thermTripRelease s s)

/-- R434: KILN_STATUS.WARN sets at the first sample at which Tmax is at or above WARN, with KILN_WARN raised once; it
clears when Tmax falls below WARN − WARN_H, and only a WARN that sets again raises KILN_WARN again; 110 °C and 105 °C
at reset. -/
def Obligations.WarnSetsAndClearsOnce : Prop :=
  getF State.reset F.KILN_THRESH_WARN = 110 ∧ getF State.reset F.KILN_HYST_WARN_H = 5 ∧
  ∀ (s : State) (temps : List (Option Int)) (val : Nat → Int) (j : Nat), samples s = true → j < 24 →
    (∀ i, i < 24 → faulted s i = false ∧ temps.getD i none = some (val i) ∧ -200 ≤ val i ∧ val i ≤ 600 ∧ val i ≤ val j) →
    ∃ t, completes (.kilnSample temps) s t ∧
      (isSet s F.KILN_STATUS_WARN = false → 4 * (getF s F.KILN_THRESH_WARN : Int) ≤ val j →
        isSet t F.KILN_STATUS_WARN = true ∧ raised baseKiln 0 t = true ∧
        (bitsOf (getR s (Reg.EVT_EN baseKiln)) 0 1 = 1 →
          getF t (F.EVT_COUNT_COUNT 32) = min (2 ^ 32 - 1) (getF s (F.EVT_COUNT_COUNT 32) + 1))) ∧
      (isSet s F.KILN_STATUS_WARN = false → val j < 4 * (getF s F.KILN_THRESH_WARN : Int) →
        isSet t F.KILN_STATUS_WARN = false ∧ raised baseKiln 0 t = raised baseKiln 0 s ∧
        getF t (F.EVT_COUNT_COUNT 32) = getF s (F.EVT_COUNT_COUNT 32)) ∧
      (isSet s F.KILN_STATUS_WARN = true →
        4 * (getF s F.KILN_THRESH_WARN : Int) - 4 * (getNZ s F.KILN_HYST_WARN_H : Int) ≤ val j →
        isSet t F.KILN_STATUS_WARN = true ∧ raised baseKiln 0 t = raised baseKiln 0 s ∧
        getF t (F.EVT_COUNT_COUNT 32) = getF s (F.EVT_COUNT_COUNT 32)) ∧
      (isSet s F.KILN_STATUS_WARN = true →
        val j < 4 * (getF s F.KILN_THRESH_WARN : Int) - 4 * (getNZ s F.KILN_HYST_WARN_H : Int) →
        isSet t F.KILN_STATUS_WARN = false ∧ raised baseKiln 0 t = raised baseKiln 0 s ∧
        getF t (F.EVT_COUNT_COUNT 32) = getF s (F.EVT_COUNT_COUNT 32))

/-- R289, R419, R443, R471, R472, R475, R478, R481, R488: what begins a start and of which kind; the start stands at
S01 while that step takes its time, with the beat, the queues and the Hod at reset and the flash, the grout and the
seal store kept; S01 with nothing left halts it, as do S02 to S04; a start that is cut leaves its step INTERRUPTED and
the part in Off; RESTART, LEDGER_CLEAR and TOP_COMPAT. -/
def Obligations.StartsBeginAndEnd : Prop :=
  ∀ (s : State) (inp : StartInput),
    (∀ c cold trig u, (c = .powerOnStart inp ∧ cold = true ∧ trig = 0 ∧ s.top.start = none ∧ u = s ∨
        c = .offExit inp ∧ cold = false ∧ s.top.starting = false ∧ (s.top.off = true ∨ s.top.halted = true) ∧
          s.top.thermTrip = false ∧ trig = s.top.startDue.getD 1 ∧ u = s ∨
        c = .offExit inp ∧ cold = false ∧ s.top.starting = false ∧ s.top.off = false ∧ s.top.halted = false ∧
          s.top.startDue = some trig ∧ (inLoader s = true ∨ drained s = true) ∧ u = s ∨
        c = .groutRestart inp ∧ cold = false ∧ s.top.sealFrame ≠ none ∧ s.top.thermTrip = false ∧
          s.top.starting = false ∧ trig = 2 ∧ u = s) →
      completes c s (beginStart cold trig inp u) ∧
      ((tryOf inp 1).slow = true →
        ∃ t, completes c s t ∧ t.top.starting = true ∧ t.top.off = false ∧ getF t F.TOP_LEDGER_STEP_STEP = 1 ∧
          getF t F.TOP_LEDGER_STEP_TRIGGER = trig % 8 ∧ isSet t F.TOP_LEDGER_STEP_COLD = cold ∧
          t.beat = .reset ∧ t.hod = .reset ∧ t.host.sqs = [] ∧ t.host.cmds = [] ∧ t.map.flash = s.map.flash ∧
          t.map.loaded = false ∧ t.grout.img = s.grout.img ∧ t.mac.epochs = s.mac.epochs ∧ t.mac.recs = s.mac.recs ∧
          t.host.ns = s.host.ns ∧ t.sort.arr = s.sort.saved ∧ t.recd.mirror = s.recd.mirror ∧
          t.recd.sticky = (if cold then [] else s.recd.sticky) ∧ t.out = s.out ∧ t.pending = s.pending ∧
          t.top.startCount = (if s.top.nvValid then s.top.startCount + 1 else 0)) ∧
      ((tryOf inp 1).slow = false → (tryOf inp 1).primary = false → (tryOf inp 1).alternate = false →
        ∃ t, completes c s t ∧ t.top.halted = true ∧ t.top.off = true ∧ t.top.faultN = true ∧ t.top.starting = false ∧
          getF t (outF 1) = outFailed ∧ t.map.flash = s.map.flash)) ∧
    (s.top.starting = true → completes (.offExit inp) s s) ∧
    (s.top.starting = false → (s.top.off = true ∨ s.top.halted = true) → s.top.thermTrip = true →
      completes (.offExit inp) s { s with top := { s.top with startDue := some (s.top.startDue.getD 1) } }) ∧
    (s.top.starting = false → s.top.off = false → s.top.halted = false → s.top.startDue = none →
      completes (.offExit inp) s s) ∧
    (s.top.sealFrame = none ∨ s.top.thermTrip = true ∨ s.top.starting = true → completes (.groutRestart inp) s s) ∧
    (∀ r k, s.top.start = some r → r.step = k → 1 ≤ k → k ≤ 4 → (tryOf r.inp k).slow = true →
      ∃ t, completes (.startStepTimeout k false) s t ∧ t.top.halted = true ∧ t.top.off = true ∧ t.top.faultN = true ∧
        t.top.start = none ∧ getF t (outF k) = outFailed ∧ (k = 4 → raised baseSec 13 t = true)) ∧
    (∀ k b, s.top.start = none ∨ (∃ r, s.top.start = some r ∧ (r.step ≠ k ∨ (tryOf r.inp k).slow = false)) →
      completes (.startStepTimeout k b) s s) ∧
    (∀ b, s.top.start = none → completes (.startInterrupted b) s s) ∧
    (∀ r, s.top.start = some r → 1 ≤ r.step → r.step ≤ 12 →
      (∃ t, completes (.startInterrupted false) s t ∧ t.top.off = true ∧ t.top.start = none ∧ t.top.starting = false ∧
        t.top.sealFrame = some (frameNow s) ∧ getF t (outF r.step) = 5 ∧ changesOnly [.regs, .top] s t) ∧
      (∃ t, completes (.startInterrupted true) s t ∧ t.top.off = true ∧ t.top.start = none ∧ t.top.thermTrip = true ∧
        t.top.faultN = true ∧ getF t (outF r.step) = 5 ∧ raised baseKiln 3 t = true ∧
        getF t F.KILN_TRIPS_COUNT = min (2 ^ 32 - 1) (getF s F.KILN_TRIPS_COUNT + 1))) ∧
    (running s = true → grouting s = false → completes .topRestart s
      { s with top := { s.top with startDue := some 4, target := some 4, requested := true } }) ∧
    (running s = false ∨ grouting s = true → completes .topRestart s s) ∧
    (∃ t, completes .topLedgerClear s t ∧ getF t F.TOP_LEDGER_FAILS_FAILS = 0 ∧
      regsKept (· = Reg.TOP_LEDGER_FAILS) s t ∧ changesOnly [.regs] s t) ∧
    (∀ v : W32,
      (getF s F.TOP_COMPAT_MAX < bitsOf v.toNat 8 8 ∨ bitsOf v.toNat 8 8 < s.sec.running.compatMin ∨
          s.sec.running.compatMax < bitsOf v.toNat 8 8 →
        ∃ t, completes (.topCompatWrite v) s t ∧ isSet t F.TOP_COMPAT_REFUSED = true ∧ raised baseTop 7 t = true ∧
          getF t F.TOP_COMPAT_REQUEST = getF s F.TOP_COMPAT_REQUEST ∧ regsKeptE (· = Reg.TOP_COMPAT) s t ∧
          changesOnly eventParts s t) ∧
      (bitsOf v.toNat 8 8 ≤ getF s F.TOP_COMPAT_MAX → s.sec.running.compatMin ≤ bitsOf v.toNat 8 8 →
        bitsOf v.toNat 8 8 ≤ s.sec.running.compatMax →
        ∃ t, completes (.topCompatWrite v) s t ∧ getF t F.TOP_COMPAT_REQUEST = bitsOf v.toNat 8 8 ∧
          t.top.compatNv = bitsOf v.toNat 8 8 ∧
          isSet t F.TOP_COMPAT_REFUSED = (isSet s F.TOP_COMPAT_REFUSED && decide (bitsOf v.toNat 24 1 = 0)) ∧
          regsKept (· = Reg.TOP_COMPAT) s t ∧ changesOnly [.regs, .top] s t))

/-- R313 to R316, R318, R320, R321, R323, R333, R352: key operations run in the tile's session and answer with R316's
result byte; a new key is LOADED, or RETIRING over a LOADED one; SET_CURRENT is due at the boundary; an erase marks
the slot ERASED and, at the boundary, zeroises its copies and raises MAC_KEY_ERASED; the engines' tests, the
generator's counts and the write-sequence limit. -/
def Obligations.KeysAndRandomnessAreKept : Prop :=
  ∀ (s : State),
    (∀ k v fn, k < 64 → v < 4 → pausing s = false → running s = true → fnOfTile s k = some fn →
      ((getConn s (.storage fn)).sessions = 0 → ∀ c, c = .keySetCurrent k v ∨ c = .keyErase k v ∨ c = .keyStatus k ∨
          (∃ r key, c = .keyLoad k v r key) →
        completes c s (spdmErr (.storage fn) errUnexpected s)) ∧
      ((getConn s (.storage fn)).sessions ≠ 0 →
        (∀ c key restore src, (c = .keyLoad k v restore key ∧ src = 1 ∨
            c = .keyGenerate k v ∧ restore = false ∧ src = 0 ∧ key = Config.drbgKey s.freeCtr) →
          (∀ r, newKeyRefusal k v (if restore then some key else none) s = some r →
            ∃ t, completes c s t ∧ getF t (F.MAC_TILE_KEY_RESULT k) = r ∧ t.mac = s.mac ∧
              t.out = .spdm (.storage fn) spdmVendor (leBytes 1 r ++
                leBytes 8 (tget (fun _ => 0) s.mac.kcv (4 * k + v) : W64).toNat) :: s.out ∧
              regsKept (· = Reg.MAC_TILE_KEY k) s t ∧ changesOnly [.regs, .sec, .out, .freeCtr] s t) ∧
          (newKeyRefusal k v (if restore then some key else none) s = none →
            ∃ t, completes c s t ∧ getF t (F.MAC_TILE_KEY_RESULT k) = keyOk ∧ slotKey t (4 * k + v) = key ∧
              keyState t (4 * k + v) = (if keyState s (4 * k + v) = keyLoaded then keyRetiring else keyLoaded) ∧
              genOf t (4 * k + v) = genOf s (4 * k + v) + 1 ∧
              getF t (F.MAC_SLOT_GEN (4 * k + v)) = (genOf s (4 * k + v) + 1) % 2 ^ 24 ∧
              getF t (F.MAC_SLOT_SOURCE (4 * k + v)) = src ∧
              (∀ j, j ≠ 4 * k + v → slotKey t j = slotKey s j) ∧
              regsKept (fun a => a = Reg.MAC_TILE_KEY k ∨ a = Reg.MAC_SLOT (4 * k + v)) s t ∧
              changesOnly [.regs, .mac, .sec, .out, .freeCtr] s t)) ∧
        (∀ r, (keyState s (4 * k + v) = keyRetiring ∨ tileBusy s k = true) ∧ r = keyBusy ∨
            keyState s (4 * k + v) ≠ keyRetiring ∧ tileBusy s k = false ∧ keyState s (4 * k + v) ≠ keyLoaded ∧
              r = keyNotLoaded →
          ∃ t, completes (.keySetCurrent k v) s t ∧ getF t (F.MAC_TILE_KEY_RESULT k) = r ∧ t.mac = s.mac) ∧
        (keyState s (4 * k + v) = keyLoaded → tileBusy s k = false →
          ∃ t, completes (.keySetCurrent k v) s t ∧ getF t (F.MAC_TILE_KEY_RESULT k) = keyOk ∧ (k, v) ∈ t.mac.curDue ∧
            curVer t k = curVer s k ∧ changesOnly [.regs, .mac, .sec, .out] s t) ∧
        (tileBusy s k = true → ∃ t, completes (.keyErase k v) s t ∧ getF t (F.MAC_TILE_KEY_RESULT k) = keyBusy ∧
          t.mac = s.mac) ∧
        (tileBusy s k = false →
          ∃ t, completes (.keyErase k v) s t ∧ getF t (F.MAC_TILE_KEY_RESULT k) = keyOk ∧
            (keyState s (4 * k + v) = keyLoaded ∨ keyState s (4 * k + v) = keyRetiring →
              keyState t (4 * k + v) = keyErased ∧ 4 * k + v ∈ t.mac.eraseDue ∧
              genOf t (4 * k + v) = min (2 ^ 32 - 1) (genOf s (4 * k + v) + 1)) ∧
            (keyState s (4 * k + v) ≠ keyLoaded → keyState s (4 * k + v) ≠ keyRetiring → t.mac = s.mac ∧
              keyState t (4 * k + v) = keyState s (4 * k + v)) ∧ changesOnly [.regs, .mac, .sec, .out] s t) ∧
        (∃ t, completes (.keyStatus k) s t ∧ t.out = .spdm (.storage fn) spdmVendor (keyStatusData s k) :: s.out ∧
          changesOnly [.sec, .out] s t))) ∧
    (∀ k, (∀ p ∈ s.mac.curDue, p.1 ≠ k) → completes (.keyCurrentSwitch k) s s) ∧
    (∀ k v, k < 64 → v < 4 → s.mac.curDue.find? (fun p => p.1 == k) = some (k, v) →
      ∃ t, completes (.keyCurrentSwitch k) s t ∧ curVer t k = v ∧ (∀ p ∈ t.mac.curDue, p.1 ≠ k) ∧
        (∀ j, j < 64 → j ≠ k → curVer t j = curVer s j) ∧
        (s.map.loaded = false → getF t (F.MAC_TILE_KEY_SWEEPING k) = 1)) ∧
    (∀ j, j ∉ s.mac.eraseDue → completes (.keyEraseEffect j) s s) ∧
    (∀ j, j ∈ s.mac.eraseDue → ∃ t, completes (.keyEraseEffect j) s t ∧ tget (fun _ => 0) t.mac.keys j = 0 ∧
      tget (fun _ => 0) t.mac.old j = 0 ∧ j ∉ t.mac.eraseDue ∧ raised baseMac 3 t = true) ∧
    (∀ j, keyState s j ≠ keyRetiring → completes (.keyOldCopyRetired j) s s) ∧
    (∀ j, j < 256 → keyState s j = keyRetiring → (∀ i ∈ s.mac.bound, hasRd s i = true →
        4 * (getRd s i).tile + entKver (getRd s i).entry ≠ j) →
      ∃ t, completes (.keyOldCopyRetired j) s t ∧ keyState t j = keyLoaded ∧ tget (fun _ => 0) t.mac.old j = 0) ∧
    (∀ e, isSet s F.MAC_CFG_KAT_EPOCH = true → running s = true →
      (e < 5 → ∃ t, completes (.macKat e false) s t ∧ bitsOf (getF t F.MAC_ENGINE_OK_WRITE) e 1 = 0 ∧
        raised baseMac 7 t = true ∧ regsKeptE (fun a => a = Reg.MAC_ENGINE_OK ∨ a = Reg.MAC_STATUS) s t ∧
        changesOnly eventParts s t) ∧
      (5 ≤ e → e < 10 → ∃ t, completes (.macKat e false) s t ∧ bitsOf (getF t F.MAC_ENGINE_OK_READ) (e - 5) 1 = 0 ∧
        raised baseMac 7 t = true) ∧
      (10 ≤ e → e < 12 → ∃ t, completes (.macKat e false) s t ∧ raised baseMac 7 t = true ∧ evtOnly s t)) ∧
    (∀ e ok, isSet s F.MAC_CFG_KAT_EPOCH = false ∨ ok = true ∨ 12 ≤ e ∨ running s = false → completes (.macKat e ok) s s) ∧
    (∀ e, e < 12 → ∃ t, completes (.maskReseed e) s t ∧ t.mac = { s.mac with drbg := s.mac.drbg + 1 } ∧
      (isSet s F.MAC_STATUS_ENTROPY_OK = true → changesOnly [.mac] s t) ∧
      (isSet s F.MAC_STATUS_ENTROPY_OK = false → getF t F.MAC_DRBG_LEFT_COUNT = getF s F.MAC_DRBG_LEFT_COUNT - 1 ∧
        regsKept (· = Reg.MAC_DRBG_LEFT) s t)) ∧
    (∀ e, 12 ≤ e → completes (.maskReseed e) s s) ∧
    (isSet s F.MAC_STATUS_ENTROPY_OK = true → 2 ^ 20 ≤ s.mac.drbg →
      completes .drbgReseed s { s with mac := { s.mac with drbg := 0 } }) ∧
    (isSet s F.MAC_STATUS_ENTROPY_OK = false ∨ s.mac.drbg < 2 ^ 20 → completes .drbgReseed s s) ∧
    (getF s F.MAC_DRBG_LEFT_COUNT = 0 → isSet s F.MAC_STATUS_REFUSING = false →
      ∃ t, completes .drbgExhausted s t ∧ isSet t F.MAC_STATUS_REFUSING = true ∧ readSideUp t = false ∧ writeSideUp t = false ∧
        raised baseMac 1 t = true ∧ regsKeptE (· = Reg.MAC_STATUS) s t ∧ changesOnly eventParts s t) ∧
    (getF s F.MAC_DRBG_LEFT_COUNT ≠ 0 ∨ isSet s F.MAC_STATUS_REFUSING = true → completes .drbgExhausted s s) ∧
    (isSet s F.MAC_STATUS_ENTROPY_OK = true → completes (.entropyHealthTest true) s s ∧
      ∃ t, completes (.entropyHealthTest false) s t ∧ isSet t F.MAC_STATUS_ENTROPY_OK = false ∧ raised baseMac 0 t = true ∧
        regsKeptE (· = Reg.MAC_STATUS) s t) ∧
    (isSet s F.MAC_STATUS_ENTROPY_OK = false → completes (.entropyHealthTest false) s s ∧
      ∃ t, completes (.entropyHealthTest true) s t ∧ isSet t F.MAC_STATUS_ENTROPY_OK = true ∧
        getF t F.MAC_DRBG_LEFT_COUNT = 0xFFFFFFFF ∧ t.mac.drbg = 0 ∧ t.mac.resume = isSet s F.MAC_STATUS_REFUSING ∧
        regsKept (fun a => a = Reg.MAC_STATUS ∨ a = Reg.MAC_DRBG_LEFT) s t ∧ changesOnly [.regs, .mac] s t) ∧
    (2 ^ 56 - 2 ^ 32 ≤ s.map.wseq → isSet s F.MAC_STATUS_WSEQ_LIMIT = false →
      ∃ t, completes .wseqLimitReached s t ∧ isSet t F.MAC_STATUS_WSEQ_LIMIT = true ∧
        isSet t F.TOP_MODE_CAUSE_EVAC_WSEQ = true ∧ raised baseMac 2 t = true ∧
        regsKeptE (fun a => a = Reg.MAC_STATUS ∨ a = Reg.TOP_MODE_CAUSE) s t ∧ changesOnly eventParts s t) ∧
    (s.map.wseq < 2 ^ 56 - 2 ^ 32 ∨ isSet s F.MAC_STATUS_WSEQ_LIMIT = true → completes .wseqLimitReached s s)

/-- R346, R347, R363, R418: what every SPDM request meets: a connection that is not up does nothing, a sleeping drive
only wakes, and a request before the negotiation it needs is unexpected; the negotiation's steps; measurements,
digests and the certificate chain; sessions open with KEY_EXCHANGE and FINISH, the first with mutual authentication
claiming an unclaimed tile (R350), and end (R353); the SLH-DSA signature is held and given out in chunks. -/
def Obligations.SpdmAnswersItsRequests : Prop :=
  ∀ (s : State) (c : Conn),
    (∀ i n, spdmRow i = some (c, n) →
      (connUp s c = false → completes i s s) ∧
      (connUp s c = true → asleep s = true → completes i s (wakeDrive s)) ∧
      (∀ m, n = some m → connUp s c = true → asleep s = false → (getConn s c).neg < m →
        completes i s (spdmErr c errUnexpected (dropSig c (wakeDrive s))))) ∧
    (∀ u, connUp s c = true → asleep s = false → u = dropSig c (wakeDrive s) →
      (∃ t, completes (.spdmGetVersion c) s t ∧ (getConn t c).neg = 1 ∧ (getConn t c).exch = none ∧
        saidOn c 0x04 (leBytes 1 2 ++ leBytes 2 0x1200 ++ leBytes 2 0x1300) u t) ∧
      (1 ≤ (getConn s c).neg → (∃ t, completes (.spdmGetCapabilities c) s t ∧ (getConn t c).neg = 2 ∧
          saidOn c 0x61 (leBytes 4 capFlags ++ leBytes 4 4096 ++ leBytes 4 65536) u t) ∧
        completes (.slhChainGet c) s
          (respond c spdmVendor (leBytes 1 0x21 ++ Config.certChain 1 (aliasBytes u c)) u)) ∧
      (2 ≤ (getConn s c).neg →
        (∃ t d, completes (.spdmNegotiateAlgorithms c) s t ∧ (getConn t c).neg = 3 ∧ saidOn c 0x63 d u t) ∧
        (∀ k last, k = (getConn s c).chunks → k * chunkSize < 65536 →
          ∃ t, completes (.spdmChunkSend c k last) s t ∧ saidOn c 0x05 (leBytes 2 k) u t ∧
            (getConn t c).chunks = (if last then 0 else k + 1)) ∧
        (∀ k last, k ≠ (getConn s c).chunks ∨ 65536 ≤ k * chunkSize →
          ∃ t, completes (.spdmChunkSend c k last) s t ∧ saidOn c spdmError (leBytes 1 errInvalid) u t ∧
            (getConn t c).chunks = 0)) ∧
      (3 ≤ (getConn s c).neg →
        (∃ t, completes (.spdmGetDigests c) s t ∧
          saidOn c 0x01 (leBytes 1 1 ++ digBytes (Config.sha384 (chain u c))) u t) ∧
        (∀ slot off len, slot ≠ 0 ∨ (chain u c).length < off →
          completes (.spdmGetCertificate c slot off len) s (spdmErr c errInvalid u)) ∧
        (∀ off len d, off ≤ (chain u c).length → d = ((chain u c).drop off).take len →
          completes (.spdmGetCertificate c 0 off len) s (respond c 0x02 (leBytes 1 0 ++ leBytes 2 d.length ++
            leBytes 2 ((chain u c).length - off - d.length) ++ d) u)) ∧
        (∀ slot nonce, slot ≠ 0 → completes (.spdmChallenge c slot nonce) s (spdmErr c errInvalid u)) ∧
        (∀ nonce, ∃ t d, completes (.spdmChallenge c 0 nonce) s t ∧
          d = digBytes (Config.sha384 (chain u c)) ++ leBytes 32 nonce ++ leBytes 32 (Config.nonce u.freeCtr).toNat ∧
          saidOn c 0x03 (d ++ leBytes 384 (Config.sigRsa u.freeCtr d).toNat) u t ∧
          (getConn t c).sig = some (Config.sigSlh u.freeCtr d)) ∧
        (∀ index nonce sign, index ≠ 0xFF → 6 < index →
          completes (.spdmGetMeasurements c index nonce sign) s (spdmErr c errInvalid u)) ∧
        (∀ index nonce, 1 ≤ index → index ≤ 6 → ∃ t, completes (.spdmGetMeasurements c index nonce false) s t ∧
          saidOn c 0x60 (leBytes 1 1 ++ measureBlock u c index) u t ∧ (getConn t c).sig = none) ∧
        (∀ index nonce, index ≤ 6 → ∃ t d, completes (.spdmGetMeasurements c index nonce true) s t ∧
          saidOn c 0x60 (d ++ leBytes 384 (Config.sigRsa u.freeCtr d).toNat) u t ∧
          (getConn t c).sig = some (Config.sigSlh u.freeCtr d)) ∧
        (∀ m o fn, c = .storage fn → tileOfFn u fn = none →
          completes (.spdmKeyExchange c m o) s (spdmErr c errInvalid u)) ∧
        (∀ m o fn k, c = .storage fn → tileOfFn u fn = some k →
          ((∃ x, ownerOf u k = some x ∧ (m = false ∨ x ≠ o)) →
            ∃ t, completes (.spdmKeyExchange c m o) s t ∧ raised baseSec 9 t = true ∧
              t.out = .spdm c spdmError (leBytes 1 errUnspecified) :: u.out ∧
              getF t F.SEC_AUTH_FAILS_COUNT = min (2 ^ 32 - 1) (getF u F.SEC_AUTH_FAILS_COUNT + 1)) ∧
          ((∀ x, ownerOf u k = some x → m = true ∧ x = o) →
            ∃ t d, completes (.spdmKeyExchange c m o) s t ∧ saidOn c 0x64 d u t ∧ (getConn t c).exch = some (m, o) ∧
              (getConn t c).sessions = 0)) ∧
        (∀ m o, (∀ fn, c ≠ .storage fn) →
          (8 ≤ mgmtSessions u → completes (.spdmKeyExchange c m o) s (spdmErr c errLimit u)) ∧
          (mgmtSessions u < 8 → ∃ t d, completes (.spdmKeyExchange c m o) s t ∧ saidOn c 0x64 d u t ∧
            (getConn t c).exch = some (m, o) ∧ (getConn t c).sessions = (getConn u c).sessions)) ∧
        (∀ m ok o, (getConn u c).exch = none → completes (.spdmFinish c m ok o) s (spdmErr c errUnexpected u)) ∧
        (∀ m ok o m' o', (getConn u c).exch = some (m', o') → ok = false ∨ m' ≠ m ∨ o' ≠ o →
          ∃ t, completes (.spdmFinish c m ok o) s t ∧ (getConn t c).exch = none ∧ raised baseSec 9 t = true ∧
            (getConn t c).sessions = (getConn u c).sessions ∧ t.tiles = u.tiles) ∧
        (∀ m o, (getConn u c).exch = some (m, o) →
          (sessTile u c = none ∨ (∃ k, sessTile u c = some k ∧ ownerOf u k = none ∧ m = false) ∨
              (∃ k, sessTile u c = some k ∧ ownerOf u k = some o ∧ m = true) →
            ∃ t d, completes (.spdmFinish c m true o) s t ∧ saidOn c 0x65 d u t ∧ (getConn t c).exch = none ∧
              (getConn t c).sessions = (getConn u c).sessions + 1) ∧
          (∀ k, sessTile u c = some k → ownerOf u k = none → m = true →
            ∃ t, completes (.spdmFinish c m true o) s t ∧ ownerOf t k = some o ∧ raised baseSec 10 t = true ∧
              (getConn t c).sessions = (getConn u c).sessions + 1)) ∧
        ((getConn s c).sessions = 0 → completes (.spdmKeyUpdate c) s (spdmErr c errSession u) ∧
          completes (.spdmEndSession c) s (spdmErr c errSession u)) ∧
        ((getConn s c).sessions ≠ 0 → completes (.spdmKeyUpdate c) s (spdmSay c 0x69 [] u) ∧
          ∃ t, completes (.spdmEndSession c) s t ∧ saidOn c 0x6C [] u t ∧
            (getConn t c).sessions = (getConn s c).sessions - 1))) ∧
    (∀ u, connUp s c = true → asleep s = false → u = wakeDrive s →
      ((getConn s c).sig = none → completes (.slhSignatureGet c) s (spdmErr c errUnexpected (dropSig c u))) ∧
      (∀ g, (getConn s c).sig = some g → ∃ t, completes (.slhSignatureGet c) s t ∧
        saidOn c spdmError (leBytes 1 errLarge) u t ∧ (getConn t c).sig = none ∧
        (getConn t c).large = some (0, leBytes 1 0x20 ++ leBytes 17088 g.toNat)) ∧
      (∀ k, (getConn s c).large = none → completes (.spdmChunkGet c k) s (spdmErr c errUnexpected u)) ∧
      (∀ k n d, (getConn s c).large = some (n, d) →
        (k ≠ n → completes (.spdmChunkGet c k) s (spdmErr c errInvalid u)) ∧
        (k = n → ∃ t, completes (.spdmChunkGet c k) s t ∧
          saidOn c 0x06 (leBytes 2 n ++ leBytes 1 (if d.length ≤ chunkSize then 1 else 0) ++ d.take chunkSize) u t ∧
          (d.length ≤ chunkSize → (getConn t c).large = none) ∧
          (chunkSize < d.length → (getConn t c).large = some (n + 1, d.drop chunkSize))))) ∧
    ((getConn s c).sessions = 0 → completes (.spdmSessionLimit c) s s) ∧
    ((getConn s c).sessions ≠ 0 → ∃ t, completes (.spdmSessionLimit c) s t ∧ raised baseSec 11 t = true ∧
      (getConn t c).sessions = (getConn s c).sessions - 1 ∧
      getF t F.SEC_SESSION_LIMIT_COUNT = min (2 ^ 32 - 1) (getF s F.SEC_SESSION_LIMIT_COUNT + 1) ∧
      changesOnly (.sec :: eventParts) s t)

/-- R362, R363: the MCTP control messages, where the sideband is served and no recovery loader runs: an endpoint
identifier of 8 to 254 is taken; the answers to the others; a dynamic address is taken on I3C. R123, R341, R358, R362
to R367, R102: what a Rirus message meets: the sideband, sleep, the recovery loader, the pause, the session it needs,
the mode; and what each does once taken: the same as the vendor command it repeats, with its STATUS and its TAG.
IDENTIFY and HEALTH need no session, and wait for the end of a pause. -/
def Obligations.TheSidebandIsAnswered : Prop :=
  (∀ (s : State),
     (∀ c, (c = .mctpGetEndpointId ∨ c = .mctpGetVersionSupport ∨ c = .mctpGetMessageTypeSupport ∨
         c = .mctpGetVendorMsgSupport ∨ ∃ e, c = .mctpSetEndpointId e) →
       (sidebandUp s = false ∨ inLoader s = true → completes c s s) ∧
       (sidebandUp s = true → inLoader s = false → asleep s = true → completes c s (wakeDrive s))) ∧
     (∀ u, sidebandUp s = true → inLoader s = false → asleep s = false → u = wakeDrive s →
       (∀ e, 8 ≤ e → e ≤ 254 → ∃ t, completes (.mctpSetEndpointId e) s t ∧ t.sec.eid = e ∧
         t.out = .mctp 1 0 (leBytes 1 0 ++ leBytes 1 e ++ leBytes 1 0) :: u.out ∧ changesOnly [.sec, .out] u t) ∧
       (∀ e, e < 8 ∨ 254 < e → completes (.mctpSetEndpointId e) s (emit (.mctp 1 2 []) u)) ∧
       (∀ c n d, (c = .mctpGetEndpointId ∧ n = 2 ∧ d = leBytes 1 s.sec.eid ++ leBytes 1 0 ++ leBytes 1 0 ∨
           c = .mctpGetVersionSupport ∧ n = 4 ∧ d = leBytes 1 1 ++ leBytes 4 0x00F1F3F1 ∨
           c = .mctpGetMessageTypeSupport ∧ n = 5 ∧ d = leBytes 1 3 ++ leBytes 1 0x05 ++ leBytes 1 0x06 ++ leBytes 1 0x7E ∨
           c = .mctpGetVendorMsgSupport ∧ n = 6 ∧
             d = leBytes 1 0xFF ++ leBytes 1 0 ++ leBytes 1 0x1F ++ leBytes 1 0x9A ++ leBytes 2 0) →
         ∃ t, completes c s t ∧ t.out = .mctp n 0 d :: u.out ∧ changesOnly [.out] u t)) ∧
     (∀ a, a < 128 → sidebandUp s = true → getF s F.SEC_SIDEBAND_MODE = 0 →
       completes (.dynamicAddressAssignment a) s { s with sec := { s.sec with dynAddr := a } }) ∧
     (∀ a, sidebandUp s = false ∨ getF s F.SEC_SIDEBAND_MODE ≠ 0 → completes (.dynamicAddressAssignment a) s s)) ∧
  (∀ (s : State) (tag : Nat), tag < 65536 →
     (∀ c ss n, rirusRow c = some (tag, ss, n) →
       (sidebandUp s = false → completes c s s) ∧
       (sidebandUp s = true → asleep s = true → completes c s (wakeDrive s)) ∧
       (∀ u, sidebandUp s = true → asleep s = false → u = wakeDrive s →
         (inLoader u = true → n.loader = false → completes c s (emit (.rirus tag rirUnavailable []) u)) ∧
         (inLoader u = false → pausing u = true → completes c s (emit (.rirus tag rirBusy []) u)) ∧
         (inLoader u = false → pausing u = false → n.session = true → isSet u F.SEC_SIDEBAND_REQUIRE_SESSION = true →
           ss = false → ∃ t, completes c s t ∧ t.out = .rirus tag rirSession [] :: u.out ∧ raised baseSec 14 t = true ∧
             changesOnly (.out :: eventParts) u t ∧ regsKeptE (fun _ => False) u t) ∧
         (inLoader u = false → pausing u = false → (n.session = true → isSet u F.SEC_SIDEBAND_REQUIRE_SESSION = true →
           ss = true) → modeNow u = modeSanitize → n.sanOk = false →
           completes c s (emit (.rirus tag rirRefused (stsBytes stSanitize)) u)))) ∧
     (∀ c b, (c = .rirusIdentify tag ∧ b = false ∨ c = .rirusHealth tag ∧ b = true) →
       (sidebandUp s = false → completes c s s) ∧
       (∀ u, sidebandUp s = true → asleep s = false → u = wakeDrive s →
         (inLoader u = true → b = true → completes c s (emit (.rirus tag rirUnavailable []) u)) ∧
         (inLoader u = false → pausing u = true →
           completes c s { u with sec := { u.sec with waiting := u.sec.waiting ++ [(tag, b)] } }) ∧
         (inLoader u = false → pausing u = false →
           completes c s (emit (.rirus tag rirOk (if b then healthBytes u else identifyBytes u)) u)) ∧
         (inLoader u = true → b = false → completes c s (emit (.rirus tag rirOk (identifyBytes u)) u)))) ∧
     (∀ u off n, rirusRuns s (.rirusMgmtRead tag off n) u →
       (off % 4 ≠ 0 ∨ windowSize < off + 4 * n ∨ n = 0 ∨ 1024 < n →
         completes (.rirusMgmtRead tag off n) s (emit (.rirus tag rirInvalid []) u)) ∧
       (off % 4 = 0 → off + 4 * n ≤ windowSize → n = 1 → reach u off = .ok →
         ∃ t v, completes (.rirusMgmtRead tag off n) s t ∧ t.out = .rirus tag 0 (leBytes 4 v) :: u.out ∧
           readWord .sideband off u = (some v, { t with out := u.out }))) ∧
     (∀ u ss off (w : W32), rirusRuns s (.rirusMgmtWrite tag ss off [w]) u →
       (off % 4 ≠ 0 ∨ windowSize < off + 4 →
         completes (.rirusMgmtWrite tag ss off [w]) s (emit (.rirus tag rirInvalid []) u)) ∧
       (off % 4 = 0 → off + 4 ≤ windowSize → reach u off = .ok →
         completes (.rirusMgmtWrite tag ss off [w]) s
           (emit (.rirus tag 0 []) (writeAccess .sideband off w.toNat 15 u)))) ∧
     (∀ u ss k op l, rirusRuns s (.rirusTileOp tag ss k op l) u →
       (64 ≤ k ∨ op = 0 ∨ 5 < op ∨ running u = false →
         completes (.rirusTileOp tag ss k op l) s (emit (.rirus tag rirInvalid []) u)) ∧
       (k < 64 → 1 ≤ op → op ≤ 5 → running u = true →
         completes (.rirusTileOp tag ss k op l) s (emit (.rirus tag
           (if (tileOp k op l u).1 = tileOk then rirOk else rirRefused) (leBytes 4 (tileOp k op l u).1))
           (tileOp k op l u).2))) ∧
     (∀ u ss m, rirusRuns s (.rirusModeRequest tag ss m) u →
       (m = modeNow u → completes (.rirusModeRequest tag ss m) s (emit (.rirus tag rirOk []) u)) ∧
       (m = modeZoned → modeNow u = modeStandalone → ∃ t, completes (.rirusModeRequest tag ss m) s t ∧
         getF t F.TOP_MODE_BASE = modeZoned ∧ t.out = .rirus tag rirOk [] :: u.out ∧
         regsKept (· = Reg.TOP_MODE) u t ∧ changesOnly [.regs, .out] u t) ∧
       (modeOutcome u m = none → ∃ t, completes (.rirusModeRequest tag ss m) s t ∧ raised baseTop 6 t = true ∧
         t.out = .rirus tag rirRefused (stsBytes stModeRefused) :: u.out ∧ changesOnly (.out :: eventParts) u t)) ∧
     (∀ u lid off len, rirusRuns s (.rirusLogRead tag lid off len) u →
       (4096 < len ∨ lid ≠ 0xC3 ∧ stdLog u 0 lid (max len (off + len)) = none →
         completes (.rirusLogRead tag lid off len) s (emit (.rirus tag rirInvalid []) u)) ∧
       (∀ d, len ≤ 4096 → lid ≠ 0xC3 → stdLog u 0 lid (max len (off + len)) = some d →
         ∃ t, completes (.rirusLogRead tag lid off len) s t ∧ t.out = .rirus tag rirOk (slice d off len) :: u.out ∧
           changesOnly [.out, .freeCtr] u t)) ∧
     (∀ u ss fz th, rirusRuns s (.rirusRecorderControl tag ss fz th) u →
       (fz = th → completes (.rirusRecorderControl tag ss fz th) s (emit (.rirus tag rirInvalid []) u)) ∧
       (fz = true → th = false → completes (.rirusRecorderControl tag ss fz th) s
         (emit (.rirus tag rirOk []) (startFreeze 2 u))) ∧
       (fz = false → th = true → completes (.rirusRecorderControl tag ss fz th) s
         (emit (.rirus tag rirOk []) (thaw 0 u)))) ∧
     (∀ u ss off len d, rirusRuns s (.rirusFwDownload tag ss off len d) u →
       (len = 0 ∨ len % 4096 ≠ 0 ∨ stagingSize < off + len →
         completes (.rirusFwDownload tag ss off len d) s (emit (.rirus tag rirInvalid []) u)) ∧
       (off = 0 → len ≠ 0 → len % 4096 = 0 → len ≤ stagingSize →
         ∃ t, completes (.rirusFwDownload tag ss off len d) s t ∧ t.out = .rirus tag rirOk [] :: u.out ∧
           t.sec = { u.sec with staging := [(0, len, d)], stagingFn := some 0 } ∧ changesOnly [.sec, .out] u t)) ∧
     (∀ u ss act fs img, rirusRuns s (.rirusFwCommit tag ss act fs img) u →
       (u.sec.commit ≠ none ∨ u.sec.act ≠ none → ∃ t, completes (.rirusFwCommit tag ss act fs img) s t ∧
         t.out = .rirus tag 3 (leBytes 1 stSequence.sc ++ leBytes 1 stSequence.sct) :: u.out ∧ t.sec = u.sec ∧
         changesOnly [.out] u t) ∧
       (u.sec.commit = none → u.sec.act = none → inLoader u = false → act < 4 → act ≠ 2 → fwTarget u fs ≤ 2 →
         fwTarget u fs ≠ getF u F.SEC_STATUS_ACTIVE_SLOT → u.sec.staging ≠ [] → imageFail u img = 0 →
         completes (.rirusFwCommit tag ss act fs img) s { u with sec := { u.sec with commit := some {
           cmd := none, tag := tag, action := act, fs := fwTarget u fs, img := img } } })))

/-- R318, R344, R353, R360, R361, R368, R370: the SEC mailbox: while it is busy a command ends with BUSY and the one
in hand goes on; KEY_ERASE and DEBUG_UNLOCK erase their keys and wait for the erases; SESSION_END, CHALLENGE; an
authorisation needs the nonce, this device and its signatures, and a failed one is counted; SVN_COMMIT blows fuses up
to the running image's SVN; ROOT_REVOKE takes a root that no held image needs. -/
def Obligations.TheMailboxRunsItsOperations : Prop :=
  ∀ (s : State) (p : Path), reach s Reg.SEC_MBX_CMD = .ok →
    (∀ c, (c = .mbxKeyErase p ∨ c = .mbxSessionEnd p ∨ c = .mbxChallenge p ∨ (∃ a, c = .mbxDebugUnlock p a) ∨
        (∃ b, c = .mbxSvnCommit p b) ∨ ∃ a, c = .mbxRootRevoke p a) → isSet s F.SEC_MBX_STATUS_BUSY = true →
      ∃ t, completes c s t ∧ getF t F.SEC_MBX_STATUS_RESULT = mbxBusy ∧ isSet t F.SEC_MBX_STATUS_BUSY = true ∧
        getF t F.SEC_MBX_STATUS_PATH = pathCode p ∧ raised baseSec 15 t = true ∧ t.sec = s.sec ∧
        regsKeptE (· = Reg.SEC_MBX_STATUS) s t ∧ changesOnly eventParts s t) ∧
    (isSet s F.SEC_MBX_STATUS_BUSY = false →
      (∀ c r, (c = .mbxKeyErase p ∧ (64 ≤ mbxArg s 0 ∨ 16 ≤ mbxArg s 1) ∧ r = mbxBadOp ∨
          c = .mbxSessionEnd p ∧ 64 ≤ mbxArg s 0 ∧ mbxArg s 0 ≠ 0xFE ∧ mbxArg s 0 ≠ 0xFF ∧ r = mbxBadOp ∨
          (∃ b, c = .mbxSvnCommit p b) ∧ mbxArg s 0 ≠ s.sec.running.svn ∧ r = mbxBadOp ∨
          (∃ b, c = .mbxSvnCommit p b) ∧ mbxArg s 0 = s.sec.running.svn ∧
            (s.sec.running.svn ≤ getF s F.SEC_SVN_FUSE_COUNT ∨ ∃ i ∈ heldImages s, i.svn < s.sec.running.svn) ∧
            r = mbxNotAllowed ∨
          (∃ a, c = .mbxDebugUnlock p a) ∧ isSet s F.SEC_STATUS_DEBUG_NEVER = true ∧ r = mbxNotAllowed ∨
          (∃ a, c = .mbxDebugUnlock p a ∧ (a.purpose ≠ 1 ∨ 8 ≤ a.scope)) ∧ isSet s F.SEC_STATUS_DEBUG_NEVER = false ∧
            r = mbxBadOp ∨
          (∃ a, c = .mbxRootRevoke p a ∧ (a.purpose ≠ 2 ∨ 4 ≤ a.target)) ∧ r = mbxBadOp) →
        ∃ t, completes c s t ∧ getF t F.SEC_MBX_STATUS_RESULT = r ∧ isSet t F.SEC_MBX_STATUS_BUSY = false ∧
          raised baseSec 15 t = true ∧ t.mac = s.mac ∧ t.sec = { s.sec with mbxOp := none } ∧
          regsKeptE (· = Reg.SEC_MBX_STATUS) s t) ∧
      (mbxArg s 0 < 64 → mbxArg s 1 < 16 →
        ∃ t, completes (.mbxKeyErase p) s t ∧ raised baseSec 15 t = (raised baseSec 15 s || decide (t.mac.eraseDue = [])) ∧
          isSet t F.SEC_MBX_STATUS_BUSY = decide (t.mac.eraseDue ≠ []) ∧
          (t.mac.eraseDue = [] → getF t F.SEC_MBX_STATUS_RESULT = mbxOk ∧ t.sec.mbxOp = none) ∧
          (t.mac.eraseDue ≠ [] → t.sec.mbxOp = some (1, 0)) ∧
          (∀ v, v < 4 → bitsOf (mbxArg s 1) v 1 = 1 →
            (keyState s (4 * mbxArg s 0 + v) = keyLoaded ∨ keyState s (4 * mbxArg s 0 + v) = keyRetiring) →
            keyState t (4 * mbxArg s 0 + v) = keyErased ∧ 4 * mbxArg s 0 + v ∈ t.mac.eraseDue)) ∧
      (mbxArg s 0 = 0xFE → ∃ t, completes (.mbxSessionEnd p) s t ∧ getF t F.SEC_MBX_STATUS_RESULT = mbxOk ∧
        (∀ c, 64 ≤ connKey c → (getConn t c).sessions = 0) ∧ (∀ c, connKey c < 64 → getConn t c = getConn s c)) ∧
      (mbxArg s 0 = 0xFF → ∃ t, completes (.mbxSessionEnd p) s t ∧ getF t F.SEC_MBX_STATUS_RESULT = mbxOk ∧
        (∀ c, connKey c < 64 → (getConn t c).sessions = 0) ∧ (∀ c, 64 ≤ connKey c → getConn t c = getConn s c)) ∧
      (∀ fn, mbxArg s 0 < 64 → fnOfTile s (mbxArg s 0) = some fn →
        ∃ t, completes (.mbxSessionEnd p) s t ∧ getF t F.SEC_MBX_STATUS_RESULT = mbxOk ∧
          (getConn t (.storage fn)).sessions = 0) ∧
      (∃ t, completes (.mbxChallenge p) s t ∧ getF t F.SEC_MBX_STATUS_RESULT = mbxOk ∧
        isSet t F.SEC_MBX_STATUS_BUSY = false ∧ t.sec.nonce = some (Config.nonce s.freeCtr).toNat ∧
        bufNat t 0 32 = (Config.nonce s.freeCtr).toNat ∧ bufNat t 32 48 = Config.deviceId.toNat ∧
        raised baseSec 15 t = true) ∧
      (∀ c a, (c = .mbxDebugUnlock p a ∧ isSet s F.SEC_STATUS_DEBUG_NEVER = false ∧ a.purpose = 1 ∧ a.scope < 8 ∨
          c = .mbxRootRevoke p a ∧ a.purpose = 2 ∧ a.target < 4) →
        (s.sec.nonce ≠ some a.nonce ∨ a.deviceIdOk = false →
          ∃ t, completes c s t ∧ getF t F.SEC_MBX_STATUS_RESULT = mbxBadNonce ∧ raised baseSec 9 t = true ∧
            t.mac = s.mac ∧ t.sec.scopes = s.sec.scopes ∧ t.sec.nonce = s.sec.nonce ∧
            getF t F.SEC_AUTH_FAILS_COUNT = min (2 ^ 32 - 1) (getF s F.SEC_AUTH_FAILS_COUNT + 1)) ∧
        (s.sec.nonce = some a.nonce → a.deviceIdOk = true →
          a.verified = false ∨ 4 ≤ a.root ∨ rootRevoked s a.root = true →
          ∃ t, completes c s t ∧ getF t F.SEC_MBX_STATUS_RESULT = mbxBadSig ∧ raised baseSec 9 t = true ∧
            t.mac = s.mac ∧ t.sec.scopes = s.sec.scopes ∧ t.sec.nonce = none)) ∧
      (∀ a, isSet s F.SEC_STATUS_DEBUG_NEVER = false → a.purpose = 1 → a.scope < 8 → s.sec.nonce = some a.nonce →
        a.deviceIdOk = true → a.verified = true → a.root < 4 → rootRevoked s a.root = false →
        ∃ t, completes (.mbxDebugUnlock p a) s t ∧
          (∀ k, k < 256 → keyState t k ≠ keyLoaded ∧ keyState t k ≠ keyRetiring) ∧
          (t.mac.eraseDue = [] → t.sec.scopes = a.scope ∧ isSet t F.SEC_STATUS_DEBUG_UNLOCKED = true ∧
            raised baseSec 8 t = true ∧ getF t F.SEC_MBX_STATUS_RESULT = mbxOk) ∧
          (t.mac.eraseDue ≠ [] → t.sec.scopes = s.sec.scopes ∧ t.sec.mbxOp = some (4, a.scope) ∧
            isSet t F.SEC_MBX_STATUS_BUSY = true)) ∧
      (mbxArg s 0 = s.sec.running.svn → getF s F.SEC_SVN_FUSE_COUNT < s.sec.running.svn → s.sec.running.svn ≤ 64 →
        (∀ i ∈ heldImages s, s.sec.running.svn ≤ i.svn) →
        (∃ t, completes (.mbxSvnCommit p true) s t ∧ getF t F.SEC_SVN_FUSE_COUNT = s.sec.running.svn ∧
          raised baseSec 6 t = true ∧ (60 ≤ s.sec.running.svn → raised baseSec 7 t = true) ∧
          getF t F.SEC_MBX_STATUS_RESULT = mbxOk ∧ t.freeCtr ≥ s.freeCtr + 1) ∧
        (∃ t, completes (.mbxSvnCommit p false) s t ∧ getF t F.SEC_MBX_STATUS_RESULT = mbxFuse ∧
          getF s F.SEC_SVN_FUSE_COUNT ≤ getF t F.SEC_SVN_FUSE_COUNT ∧
          getF t F.SEC_SVN_FUSE_COUNT ≤ s.sec.running.svn)) ∧
      (∀ a, a.purpose = 2 → a.target < 4 → s.sec.nonce = some a.nonce → a.deviceIdOk = true → a.verified = true →
        a.root < 4 → rootRevoked s a.root = false →
        (a.root = a.target → ∃ t, completes (.mbxRootRevoke p a) s t ∧ getF t F.SEC_MBX_STATUS_RESULT = mbxNotAllowed ∧
          getF t F.SEC_SVN_ROOT_REVOKED = getF s F.SEC_SVN_ROOT_REVOKED) ∧
        (a.root ≠ a.target → Nat.lor (getF s F.SEC_SVN_ROOT_REVOKED) (2 ^ a.target) ≠ 15 →
          ((∃ i ∈ heldImages s, i.root = a.target) →
            ∃ t, completes (.mbxRootRevoke p a) s t ∧ getF t F.SEC_MBX_STATUS_RESULT = mbxInUse ∧
              getF t F.SEC_SVN_ROOT_REVOKED = getF s F.SEC_SVN_ROOT_REVOKED) ∧
          ((∀ i ∈ heldImages s, i.root ≠ a.target) →
            ∃ t, completes (.mbxRootRevoke p a) s t ∧ getF t F.SEC_MBX_STATUS_RESULT = mbxOk ∧
              rootRevoked t a.target = true ∧
              (rootRevoked s a.target = false → raised baseSec 12 t = true)))))

/-- R122, R357 to R359: a hitless activation goes through its phases: standby banks loaded, the pause at header beat
H, the switch 64 beats on, the end of the pause with the new image running, and the slot's naming; it reverts when the
pause would pass H + 192 or a planner failed in it, and fails for good where the old image has no plans by H + 248. -/
def Obligations.ActivationsGoThroughTheirPhases : Prop :=
  ∀ (s : State) (a : FwAct),
    (s.sec.act = none → ∀ c, c = .activationStandbyLoaded ∨ c = .activationPauseStart ∨ c = .activationBankSwitch ∨
      c = .activationPauseEnd ∨ c = .activationDone ∨ c = .activationRevert ∨ c = .activationFailed → completes c s s) ∧
    (s.sec.act = some a →
      (a.phase = 0 → running s = true → ∃ t, completes .activationStandbyLoaded s t ∧
        t.sec.act = some { a with phase := 1, h := (beatNow s + 127) / 64 * 64 } ∧ changesOnly [.host, .sec] s t) ∧
      (a.phase ≠ 0 ∨ running s = false → completes .activationStandbyLoaded s s) ∧
      (a.phase = 1 → beatNow s % 64 = 0 → a.h ≤ beatNow s → noticesWait s = false → running s = true →
        grouting s = false →
        ∃ t, completes .activationPauseStart s t ∧ (∀ p ∈ ports s, pausedPort t p = true) ∧ raised baseSec 2 t = true ∧
          getF t F.SEC_STATUS_ACT_PHASE = 2 ∧
          t.sec.act = some { a with phase := 2, h := beatNow s, failed := s.beat.failed.length } ∧
          (∀ fn, serving t fn = false) ∧ changesOnly (.sec :: eventParts) s t) ∧
      (a.phase ≠ 1 ∨ beatNow s % 64 ≠ 0 ∨ beatNow s < a.h → completes .activationPauseStart s s) ∧
      (a.phase = 2 → beatNow s = a.h + 64 → grouting s = false →
        completes .activationBankSwitch s { s with sec := { s.sec with act := some { a with phase := 3 } } }) ∧
      (a.phase ≠ 2 ∨ beatNow s ≠ a.h + 64 → completes .activationBankSwitch s s) ∧
      (a.phase = 3 → a.h + 64 < beatNow s → beatNow s ≤ a.h + 192 → grouting s = false → s.host.paused = [] →
        s.sec.waiting = [] →
        ∃ t, completes .activationPauseEnd s t ∧ (∀ p ∈ ports s, pausedPort t p = false ∧ raised (baseHost p) 7 t = true ∧
            getF t (F.HOST_LAST_PAUSE_US p) = 16 * (beatNow s - a.h)) ∧
          t.sec.running = a.commit.img ∧ t.sec.act = some { a with phase := 4 } ∧ getF t F.SEC_STATUS_ACT_PHASE = 0 ∧
          changesOnly (.sec :: eventParts) s t) ∧
      (a.phase = 5 → a.h ≤ beatNow s → beatNow s ≤ a.h + 248 → grouting s = false → s.host.paused = [] →
        s.sec.waiting = [] →
        ∃ t, completes .activationPauseEnd s t ∧ (∀ p ∈ ports s, pausedPort t p = false) ∧ t.sec.act = none ∧
          t.sec.running = s.sec.running) ∧
      (a.phase ≠ 3 → a.phase ≠ 5 → completes .activationPauseEnd s s) ∧
      (a.phase = 4 → grouting s = false → 1 ≤ a.commit.fs → a.commit.fs ≤ 2 → a.commit.action = 3 →
        ∃ t, completes .activationDone s t ∧ getF t F.SEC_STATUS_ACTIVE_SLOT = a.commit.fs ∧ t.sec.act = none ∧
          getF t F.SEC_STATUS_BOOT_SRC = a.commit.fs - 1 ∧ isSet t F.SEC_STATUS_PENDING = false ∧ raised baseSec 3 t = true ∧
          (∀ i, a.commit.cmd = some i → hasCmd s i = true →
            (getCmd t i).st = .ready ∧ (getCmd t i).status = stOk)) ∧
      (a.phase ≠ 4 ∨ grouting s = true → completes .activationDone s s) ∧
      ((a.phase = 2 ∨ a.phase = 3) → grouting s = false →
        (a.phase = 3 ∧ a.h + 192 ≤ beatNow s ∨ a.failed < s.beat.failed.length) →
        ∃ t, completes .activationRevert s t ∧ (getSlotFw t a.commit.fs).failed = true ∧ raised baseSec 4 t = true ∧
          isSet t F.SEC_STATUS_LAST_REVERTED = true ∧ getF t F.SEC_STATUS_ACT_PHASE = 3 ∧
          t.sec.act = some { a with phase := 5 } ∧ t.sec.running = s.sec.running ∧
          (∀ i, a.commit.action = 3 → a.commit.cmd = some i → hasCmd s i = true →
            (getCmd t i).st = .ready ∧ (getCmd t i).status = stFwProhibited)) ∧
      (a.phase ≠ 2 → a.phase ≠ 3 → completes .activationRevert s s) ∧
      (a.phase = 5 → a.h + 248 ≤ beatNow s → running s = true → ∃ t, completes .activationFailed s t ∧
        raised baseSec 5 t = true ∧ t.top.faultN = true ∧ grouting t = true ∧ t.sec.act = none) ∧
      (a.phase ≠ 5 ∨ beatNow s < a.h + 248 → completes .activationFailed s s))

/-- R375, R376, R384, R388: START, KICK, ABORT, the fetched descriptor and a write of HOD_CH_NEXT move a channel as
the transition table says, and out of place they are ignored. -/
def Obligations.HodChannelsFollowTheirTable : Prop :=
  ∀ (s : State) (k : Nat),
    (k < 32 →
      (reach s (Reg.HOD_CH_CTRL k) = .ok →
        (hodState s k = hIdle → ∃ t, completes (.hodStart k) s t ∧
          writesReg (Reg.HOD_CH_STAT k) (putBits (getR s (Reg.HOD_CH_STAT k)) 0 3 hFetch) s t) ∧
        (hodState s k = hHalted → ∃ t, completes (.hodStart k) s t ∧
          writesReg (Reg.HOD_CH_STAT k) (putBits (putBits (getR s (Reg.HOD_CH_STAT k)) 0 3 hFetch) 4 3 0) s t) ∧
        (hodState s k ≠ hIdle → hodState s k ≠ hHalted → ∃ t, completes (.hodStart k) s t ∧
          writesReg (Reg.HOD_CH_STAT k) (putBits (getR s (Reg.HOD_CH_STAT k)) 3 1 1) s t) ∧
        (hodState s k = hWait → ∃ t, completes (.hodKick k) s t ∧
          writesReg (Reg.HOD_CH_STAT k) (putBits (getR s (Reg.HOD_CH_STAT k)) 0 3 hFetch) s t) ∧
        (hodState s k ≠ hWait → ∃ t, completes (.hodKick k) s t ∧
          writesReg (Reg.HOD_CH_STAT k) (putBits (getR s (Reg.HOD_CH_STAT k)) 3 1 1) s t) ∧
        (hodState s k = hHalted → ∃ t, completes (.hodAbort k) s t ∧
          writesReg (Reg.HOD_CH_STAT k) (putBits (getR s (Reg.HOD_CH_STAT k)) 0 3 hIdle) s t) ∧
        (hodState s k = hRun ∨ hodState s k = hPace ∨ hodState s k = hWait →
          ∃ t, completes (.hodAbort k) s t ∧ hodState t k = hFinish ∧ (getCh t k).inflight = (getCh s k).inflight ∧
            (codeRank (getCh s k).code < 2 → (getCh t k).code = 6) ∧
            (hodState s k ≠ hWait → getF t (F.HOD_CH_MOVED_BYTES k) = getF s (F.HOD_CH_MOVED_BYTES k)) ∧
            (hodState s k = hWait → getF t (F.HOD_CH_MOVED_BYTES k) = 0) ∧
            ((getCh s k).inflight = [] → getF t (F.HOD_CH_MOVED_BYTES k) = 0 → (getCh t k).writing = true) ∧
            regsKept (fun a => a = Reg.HOD_CH_STAT k ∨ a = Reg.HOD_CH_MOVED k) s t ∧ changesOnly [.regs, .hod] s t) ∧
        (hodState s k = hIdle ∨ hodState s k = hFetch ∨ hodState s k = hFinish → completes (.hodAbort k) s s)) ∧
      (∀ d : HodDesc,
        (hodState s k ≠ hFetch → completes (.hodDescFetched k d) s s) ∧
        (hodState s k = hFetch → dOwn d = false →
          ∃ t, completes (.hodDescFetched k d) s t ∧ hodState t k = hWait ∧ getF t (bitF (Reg.HOD_CH_CAUSE k) 3) = 1 ∧
            regsKeptE (fun a => a = Reg.HOD_CH_STAT k ∨ a = Reg.HOD_CH_CAUSE k) s t ∧
            changesOnly (.hod :: eventParts) s t) ∧
        (hodState s k = hFetch → dOwn d = true →
          ∃ t, completes (.hodDescFetched k d) s t ∧ (getCh t k).desc = d ∧ (getCh t k).cur = hodNext s k ∧
            (getCh t k).shown = hodNext s k ∧ (getCh t k).inflight = [] ∧ (getCh t k).issued = 0 ∧
            (getCh t k).retries = 0 ∧ getF t (F.HOD_CH_MOVED_BYTES k) = 0 ∧
            (badDesc d = true → hodState t k = hFinish ∧ (getCh t k).code = 5 ∧ (getCh t k).writing = true) ∧
            (badDesc d = false → d.length = 0 → hodState t k = hFinish ∧ (getCh t k).code = 0 ∧
              (getCh t k).writing = true) ∧
            (badDesc d = false → d.length ≠ 0 → hodState t k = (if dPaced d then hPace else hRun) ∧
              (getCh t k).writing = false) ∧
            regsKept (fun a => a = Reg.HOD_CH_STAT k ∨ a = Reg.HOD_CH_MOVED k) s t ∧ changesOnly [.regs, .hod] s t)) ∧
      (∀ (hi : Bool) (v : W32), reach s (if hi then Reg.HOD_CH_NEXT_HI k else Reg.HOD_CH_NEXT_LO k) = .ok →
        (1 ≤ hodState s k ∧ hodState s k ≤ 4 → ∃ t, completes (.hodChNextWrite k hi v) s t ∧
          writesReg (Reg.HOD_CH_STAT k) (putBits (getR s (Reg.HOD_CH_STAT k)) 3 1 1) s t) ∧
        (¬ (1 ≤ hodState s k ∧ hodState s k ≤ 4) → ∃ t, completes (.hodChNextWrite k hi v) s t ∧
          writesReg (if hi then Reg.HOD_CH_NEXT_HI k else Reg.HOD_CH_NEXT_LO k)
            (if hi then v.toNat else v.toNat / 32 * 32) s t))) ∧
    (32 ≤ k → completes (.hodStart k) s s ∧ completes (.hodKick k) s s ∧ completes (.hodAbort k) s s ∧
      (∀ d, completes (.hodDescFetched k d) s s) ∧ (∀ hi v, completes (.hodChNextWrite k hi v) s s) ∧
      completes (.hodTransferDone k) s s ∧ completes (.hodReadbackDone k) s s ∧ completes (.hodWritebackDone k) s s ∧
      completes (.hodWithdrawal k) s s ∧ ∀ acc, completes (.hodBusError k acc) s s)

/-- R381, R382, R383: a rising request line takes its paced channels out of PACE; one that falls between bursts
returns them to it, and one that falls during a burst ends the descriptor WITHDRAWN unless no byte is unmoved;
HOD_SWREQ drives lines 16 to 31; a failed access is retried up to HOD_RETRY.COUNT times, and after the last retry the
channel stops with the code and the halt cause of its access. -/
def Obligations.HodRequestsAndErrorsEndDescriptors : Prop :=
  ∀ s : State,
    (∀ l, (lineHigh s l = false → completes (.hodReqLineAssert l) s s) ∧
      (lineHigh s l = true → ∃ t, completes (.hodReqLineAssert l) s t ∧
        (∀ k, k < 32 → hodState t k = if hodState s k = hPace ∧ dReq (getCh s k).desc = l then hRun else hodState s k) ∧
        regsKept (fun a => ∃ k, k < 32 ∧ a = Reg.HOD_CH_STAT k) s t ∧ changesOnly [.regs] s t)) ∧
    (∀ k, k < 32 →
      (lineHigh s (dReq (getCh s k).desc) = true ∨ hodState s k ≠ hRun ∨ dPaced (getCh s k).desc = false ∨
          ((getCh s k).inflight ≠ [] ∧ (getCh s k).issued = (getCh s k).desc.length) → completes (.hodWithdrawal k) s s) ∧
      (lineHigh s (dReq (getCh s k).desc) = false → hodState s k = hRun → dPaced (getCh s k).desc = true →
        ((getCh s k).inflight = [] → ∃ t, completes (.hodWithdrawal k) s t ∧
          writesReg (Reg.HOD_CH_STAT k) (putBits (getR s (Reg.HOD_CH_STAT k)) 0 3 hPace) s t) ∧
        ((getCh s k).inflight ≠ [] → (getCh s k).issued ≠ (getCh s k).desc.length →
          ∃ t, completes (.hodWithdrawal k) s t ∧ hodState t k = hFinish ∧
            (getCh t k).inflight = (getCh s k).inflight ∧ (codeRank (getCh s k).code < 1 → (getCh t k).code = 1) ∧
            regsKept (· = Reg.HOD_CH_STAT k) s t ∧ changesOnly [.regs, .hod] s t)) ∧
      (∀ acc,
        (hasAccess s k acc = false → completes (.hodBusError k acc) s s) ∧
        (hasAccess s k acc = true → ∃ t, completes (.hodBusError k acc) s t ∧
          getF t F.HOD_BUS_ERR_COUNT = min (2 ^ 32 - 1) (getF s F.HOD_BUS_ERR_COUNT + 1) ∧
          ((getCh s k).tries < getF s F.HOD_RETRY_COUNT →
            getF t (F.HOD_CH_RETRIES_COUNT k) = min (2 ^ 32 - 1) (getF s (F.HOD_CH_RETRIES_COUNT k) + 1) ∧
            (getCh t k).tries = (getCh s k).tries + 1 ∧ (getCh t k).retries = min 255 ((getCh s k).retries + 1) ∧
            (getCh t k).code = (getCh s k).code ∧ hodState t k = hodState s k ∧
            regsKept (fun a => a = Reg.HOD_CH_STAT k ∨ a = Reg.HOD_BUS_ERR ∨ a = Reg.HOD_CH_RETRIES k) s t ∧
            changesOnly [.regs, .hod] s t) ∧
          (getF s F.HOD_RETRY_COUNT ≤ (getCh s k).tries →
            (acc = .fetch ∨ acc = .writeback → hodState t k = hHalted ∧
              getF t (F.HOD_CH_STAT_HALT_CAUSE k) = (if acc = .fetch then 2 else 3) ∧
              getF t (bitF (Reg.HOD_CH_CAUSE k) 1) = 1) ∧
            (acc = .readback → hodState t k = hFinish ∧ (getCh t k).writing = true ∧
              (codeRank (getCh s k).code < 3 → (getCh t k).code = 4)) ∧
            (acc = .source ∨ acc = .destination → hodState t k = hFinish ∧ (getCh t k).inflight = [] ∧
              (codeRank (getCh s k).code < 3 → (getCh t k).code = if acc = .source then 2 else 3)) ∧
            regsKeptE (fun a => a = Reg.HOD_CH_STAT k ∨ a = Reg.HOD_BUS_ERR ∨ a = Reg.HOD_CH_CAUSE k) s t ∧
            changesOnly (.hod :: eventParts) s t)))) ∧
    (∀ v : W32, reach s Reg.HOD_SWREQ = .ok →
      ∃ t, completes (.hodSwreqWrite v) s t ∧ getR t Reg.HOD_SWREQ = v.toNat % 65536 ∧
        (∀ k, k < 32 →
          (dReq (getCh s k).desc < 16 → hodState t k = hodState s k) ∧
          (∀ i, i < 16 → dReq (getCh s k).desc = 16 + i →
            (bitsOf v.toNat i 1 = 1 → hodState t k = if hodState s k = hPace then hRun else hodState s k) ∧
            (bitsOf v.toNat i 1 = 0 → hodState s k = hRun → dPaced (getCh s k).desc = true →
              ((getCh s k).inflight = [] → hodState t k = hPace) ∧
              ((getCh s k).inflight ≠ [] → (getCh s k).issued ≠ (getCh s k).desc.length → hodState t k = hFinish ∧
                (codeRank (getCh s k).code < 1 → (getCh t k).code = 1))))) ∧
        regsKept (fun a => a = Reg.HOD_SWREQ ∨ ∃ k, k < 32 ∧ a = Reg.HOD_CH_STAT k) s t ∧ changesOnly [.regs, .hod] s t)

/-- R376 to R380, R386: the arbiter grants one burst of an allowed channel of the most urgent class; a burst's bytes
move when it is acknowledged, and its count with them; the read-back follows the last, and the write-back gives the
descriptor back with its bytes, code and retries, after which the channel fetches NEXT, idles or halts; DONE signals
the owner's core. -/
def Obligations.HodBurstsMoveAndComplete : Prop :=
  ∀ s : State,
    (∀ slot,
      (64 ≤ slot ∨ isSet s (F.BLK_CTRL_ENABLE baseHod) = false ∨ running s = false ∨ powerNow s ≠ 0 ∨
          (∀ k, k < 32 → mayIssue s slot k = false) → completes (.hodBurstIssue slot []) s s) ∧
      (∀ j, slot < 64 → isSet s (F.BLK_CTRL_ENABLE baseHod) = true → running s = true → powerNow s = 0 → j < 32 →
        mayIssue s slot j = true →
        ∃ t k w, completes (.hodBurstIssue slot []) s t ∧ k < 32 ∧ mayIssue s slot k = true ∧
          getF s (F.HOD_CH_CFG_CLASS k) ≤ getF s (F.HOD_CH_CFG_CLASS j) ∧
          openWindow s slot k (getCh s k).desc = some w ∧
          getCh t k = { getCh s k with
            issued := (getCh s k).issued + min (dBurst (getCh s k).desc) ((getCh s k).desc.length - (getCh s k).issued)
            inflight := (getCh s k).inflight ++
              [((getCh s k).issued, min (dBurst (getCh s k).desc) ((getCh s k).desc.length - (getCh s k).issued))] } ∧
          t.hod.ptr = (k + 1) % 32 ∧ tget (fun _ => 0) t.hod.used w = tget (fun _ => 0) s.hod.used w + 1 ∧
          hodState t k = hRun ∧ regsKept (· = Reg.HOD_CH_STAT k) s t ∧ changesOnly [.regs, .hod] s t) ∧
      (∀ k, 64 ≤ slot → k < 32 → ∀ t, completes (.hodTransferDone k) s t → (getCh s k).inflight.length = 1 →
        completes (.hodBurstIssue slot [k]) s t)) ∧
    (∀ k, k < 32 →
      ((getCh s k).inflight = [] → completes (.hodTransferDone k) s s) ∧
      (∀ off n, (getCh s k).inflight = [(off, n)] →
        (∀ a ∈ burstAddrs (getCh s k).desc.src (dSrcFixed (getCh s k).desc) off n, spaceBit a ≠ some 0) →
        (∀ a ∈ burstAddrs (getCh s k).desc.dst (dDstFixed (getCh s k).desc) off n, spaceBit a ≠ some 0) →
        ∃ t, completes (.hodTransferDone k) s t ∧ (getCh t k).inflight = [] ∧
          getF t (F.HOD_CH_MOVED_BYTES k) = min (2 ^ 32 - 1) (getF s (F.HOD_CH_MOVED_BYTES k) + n) ∧
          getF t F.HOD_BYTES_COUNT = min (2 ^ 32 - 1) (getF s F.HOD_BYTES_COUNT + (s.hod.rem + n) / 1024) ∧
          t.hod.rem = (s.hod.rem + n) % 1024 ∧
          (hodState s k = hRun → hodState t k = if (getCh s k).issued = (getCh s k).desc.length then hFinish else hRun) ∧
          (n ≤ 4096 → dSrcFixed (getCh s k).desc = false → dDstFixed (getCh s k).desc = false →
            (∀ j, j < n → (∃ l b, hodPlace s ((getCh s k).desc.src + off + j) = .line l b) ∧
              ∃ l b, hodPlace s ((getCh s k).desc.dst + off + j) = .line l b) →
            ∀ j, j < n → hodByteAt t ((getCh s k).desc.dst + off + j) = hodByteAt s ((getCh s k).desc.src + off + j)) ∧
          regsKept (fun a => a = Reg.HOD_CH_STAT k ∨ a = Reg.HOD_CH_MOVED k ∨ a = Reg.HOD_BYTES) s t ∧
          changesOnly [.regs, .hod, .map, .out, .freeCtr] s t) ∧
      (hodState s k ≠ hFinish ∨ (getCh s k).inflight ≠ [] ∨ (getCh s k).writing = true →
        completes (.hodReadbackDone k) s s) ∧
      (∀ off n, (getCh s k).inflight = [(off, n)] → completes (.hodTransferDone k) s (ackBurst k s)) ∧
      (∀ m a, m = getF s (F.HOD_CH_MOVED_BYTES k) →
        a = ((getCh s k).desc.dst + (if dDstFixed (getCh s k).desc then (m - 1) % 8 else m - 1)) / 8 * 8 →
        hodState s k = hFinish → (getCh s k).inflight = [] → (getCh s k).writing = false →
        (m ≠ 0 → completes (.hodReadbackDone k) s (readbackDone k (readBytes (burstAddrs a false 0 8) s).2)) ∧
        (m = 0 ∨ spaceBit a ≠ some 0 →
        ∃ t, completes (.hodReadbackDone k) s t ∧ (getCh t k).writing = true ∧ (getCh t k).tries = 0 ∧
          hodState t k = hFinish ∧ t.map = s.map ∧ regsKept (· = Reg.HOD_CH_STAT k) s t ∧
          changesOnly [.regs, .hod, .freeCtr] s t)) ∧
      (hodState s k ≠ hFinish ∨ (getCh s k).writing = false → completes (.hodWritebackDone k) s s) ∧
      (∀ c, c = getCh s k → hodState s k = hFinish → c.writing = true → s.hod.resetting = false →
        (∀ j, j < 8 → spaceBit (c.cur + 24 + j) ≠ some 0) →
        ∃ t, completes (.hodWritebackDone k) s t ∧ (getCh t k).writing = false ∧
          getF t (F.HOD_CH_STAT_LAST_CODE k) = c.code % 16 ∧
          getF t (F.HOD_CH_DESCS_COUNT k) = min (2 ^ 32 - 1) (getF s (F.HOD_CH_DESCS_COUNT k) + 1) ∧
          ((∀ j, j < 8 → ∃ l b, hodPlace s (c.cur + 24 + j) = .line l b) →
            (∀ j, j < 8 → hodByteAt t (c.cur + 24 + j) = ((leBytes 4 (getF s (F.HOD_CH_MOVED_BYTES k)) ++
              leBytes 2 c.desc.control ++ leBytes 2 (c.retries % 256 + 256 * (c.code % 16))).getD j 0).toNat) ∧
            (dIrq c.desc = true → getF s (F.HOD_CH_CFG_OWNER k) < 12 →
              t.out = .coreIrq (getF s (F.HOD_CH_CFG_OWNER k)) :: s.out) ∧
            (dIrq c.desc = false → t.out = s.out)) ∧
          (c.code = 5 → hodState t k = hHalted ∧ getF t (F.HOD_CH_STAT_HALT_CAUSE k) = 4) ∧
          (2 ≤ c.code → c.code ≤ 4 → hodState t k = hHalted ∧ getF t (F.HOD_CH_STAT_HALT_CAUSE k) = 1) ∧
          (c.code ≤ 1 ∨ c.code = 6 → c.desc.next % 32 = 0 → c.desc.next < 2 ^ 64 →
            hodNext t k = c.desc.next ∧
            hodState t k = if c.code = 6 ∨ c.code = 1 ∧ dWdStop c.desc = true ∨ c.desc.next = 0 then hIdle else hFetch) ∧
          (c.code = 1 → getF t (bitF (Reg.HOD_CH_CAUSE k) 2) = 1 ∧
            getF t F.HOD_WITHDRAWALS_COUNT = min (2 ^ 32 - 1) (getF s F.HOD_WITHDRAWALS_COUNT + 1)) ∧
          (c.code = 6 → getF t (bitF (Reg.HOD_CH_CAUSE k) 4) = 1) ∧
          (dIrq c.desc = true → getF t (bitF (Reg.HOD_CH_CAUSE k) 0) = 1) ∧
          regsKeptE (fun a => a = Reg.HOD_CH_STAT k ∨ a = Reg.HOD_CH_CAUSE k ∨ a = Reg.HOD_CH_NEXT_LO k ∨
            a = Reg.HOD_CH_NEXT_HI k ∨ a = Reg.HOD_CH_DESCS k ∨ a = Reg.HOD_WITHDRAWALS) s t ∧
          changesOnly (.hod :: .map :: .out :: eventParts) s t)) ∧
    (∀ idx p, entryAt s .hod idx 1 = some p →
      ∃ t, completes (.window idx) s t ∧ changesOnly [.beat, .tiles] s t ∧
        retiredAs .hod idx (if eBursts p.e ≠ 0 ∧ eBursts p.e ≤ tget (fun _ => 0) s.hod.used idx then 2 else 1) s t)

/-- R395, R396, R398, R399: a correctable word is counted and logged and fills the leaky bucket, which overflows with
its cause; errors found HARD_COUNT times at the same bits remap the word to a spare, or set REMAP_FULL where there is
none. R200, R391, R392, R393, R395, R400, R403, R405: an uncorrectable word newly found is poisoned, counted, logged
and its cause set, and its owner acts; a reader gets a bus error; a narrower write over it is counted, and a posted
writer sees only its cause. The owners: a plan buffer is invalid, the recorder's memory fails, a yard word counts
YARD_UE, and map memory restores the line or loses the channel. -/
def Obligations.MemoryErrorsAreCountedAndOwned : Prop :=
  (∀ (s : State) (m word syn : Nat) (src : ErrSource),
     (isMem m = false → completes (.memoryCorrectable m word syn src) s s) ∧
     (isMem m = true → (getMem s m).log.length < 16 → ∃ t, completes (.memoryCorrectable m word syn src) s t ∧
       (getMem t m).log = (getMem s m).log ++ [memEntry s word syn 0 src]) ∧
     (isMem m = true → 16 ≤ (getMem s m).log.length → ((getMem s m).log.map (·.no)).Nodup →
       ∃ t, completes (.memoryCorrectable m word syn src) s t ∧
         (∀ x ∈ (getMem s m).log, x.kind ≠ 0 → x ∈ (getMem t m).log) ∧
         ((∃ x ∈ (getMem s m).log, x.kind = 0) → memEntry s word syn 0 src ∈ (getMem t m).log) ∧
         ((∀ x ∈ (getMem s m).log, x.kind ≠ 0) → (getMem t m).log = (getMem s m).log ∧
           (m ≠ 0 → memCaused m 5 t) ∧
           (m < 16 → m ≠ 0 → memCounted m F.MEMCHK_LOG_DROPPED_COUNT F.MEMCHK_LOG_DROPPED_COUNT s t))) ∧
     (m = 0 → ∃ t, completes (.memoryCorrectable m word syn src) s t ∧
       (getMem t 0).level = (if 16 ≤ (getMem s 0).level then 0 else (getMem s 0).level + 1) ∧
       (16 ≤ (getMem s 0).level → raised baseMemchk 0 t = true) ∧ regsKeptE (fun _ => False) s t ∧
       changesOnly (.mems :: eventParts) s t) ∧
     (hasRegs m = true → ∃ t, completes (.memoryCorrectable m word syn src) s t ∧
       memCounted m F.MEMCHK_CE_COUNT_COUNT F.MAPMEM_CE_COUNT_COUNT s t ∧
       (getF s (mF m F.MEMCHK_BUCKET_LEVEL F.MAPMEM_BUCKET_LEVEL) < getF s (mF m F.MEMCHK_BUCKET_DEPTH F.MAPMEM_BUCKET_DEPTH) →
         getF t (mF m F.MEMCHK_BUCKET_LEVEL F.MAPMEM_BUCKET_LEVEL) =
           getF s (mF m F.MEMCHK_BUCKET_LEVEL F.MAPMEM_BUCKET_LEVEL) + 1) ∧
       (getF s (mF m F.MEMCHK_BUCKET_DEPTH F.MAPMEM_BUCKET_DEPTH) ≤ getF s (mF m F.MEMCHK_BUCKET_LEVEL F.MAPMEM_BUCKET_LEVEL) →
         getF t (mF m F.MEMCHK_BUCKET_LEVEL F.MAPMEM_BUCKET_LEVEL) = 0 ∧ memCaused m 0 t) ∧
       (memHits s m word syn + 1 < hardCount s m ∨ remapOn s m = false ∨
           (groupOf m word, remapUnit m word) ∈ (getMem s m).remaps → (getMem t m).remaps = (getMem s m).remaps) ∧
       (hardCount s m ≤ memHits s m word syn + 1 → remapOn s m = true →
         (groupOf m word, remapUnit m word) ∉ (getMem s m).remaps →
         (remapRoom s m (groupOf m word) = true →
           (getMem t m).remaps = (getMem s m).remaps ++ [(groupOf m word, remapUnit m word)] ∧ memCaused m 3 t) ∧
         (remapRoom s m (groupOf m word) = false → (getMem t m).remaps = (getMem s m).remaps ∧ memCaused m 4 t)) ∧
       (m ≠ 9 → regsKeptE (memPage m) s t ∧ changesOnly (.mems :: eventParts) s t))) ∧
  ((∀ (s : State) (m word syn : Nat) (src : ErrSource) (write posted poisoned : Bool), isMem m = false →
     completes (.memoryUncorrectable m word syn src write posted poisoned) s s) ∧
   (∀ (s : State) (m word syn : Nat) (src : ErrSource) (poisoned old : Bool), hasRegs m = true →
     old = (poisoned || (getMem s m).poisoned.contains word) →
     ∃ v, (old = true → v = s) ∧
       (old = false → ∃ u, (getMem u m).poisoned = insertNat word (getMem s m).poisoned ∧
         memCounted m F.MEMCHK_UE_COUNT_COUNT F.MAPMEM_UE_COUNT_COUNT s u ∧ memCaused m 1 u ∧
         ((getMem s m).log.length < 16 → (getMem u m).log = (getMem s m).log ++ [memEntry s word syn 1 src]) ∧
         regsKeptE (memPage m) s u ∧ changesOnly (.mems :: eventParts) s u ∧ v = ownerActs m word u) ∧
       (src = .scrub → ∀ posted, completes (.memoryUncorrectable m word syn src false posted poisoned) s v) ∧
       (src ≠ .scrub → ∀ posted, ∃ t, completes (.memoryUncorrectable m word syn src false posted poisoned) s t ∧
         t.out = .busError :: v.out ∧ getF t F.FAB_POISON_CPL_COUNT = min (2 ^ 32 - 1) (getF v F.FAB_POISON_CPL_COUNT + 1) ∧
         regsKept (· = Reg.FAB_POISON_CPL) v t ∧ changesOnly [.regs, .out] v t) ∧
       ∀ posted, ∃ t, completes (.memoryUncorrectable m word syn src true posted poisoned) s t ∧
         memCounted m F.MEMCHK_POISON_WR_COUNT F.MAPMEM_POISON_WR_COUNT v t ∧ memCaused m 2 t ∧
         t.out = (if posted then v.out else .busError :: v.out) ∧ regsKeptE (memPage m) v t ∧
         changesOnly (.mems :: .out :: eventParts) v t) ∧
   (∀ (u : State) (word : Nat),
     (∀ m, m ≤ 5 → m ≠ 1 → ownerActs m word u = u) ∧
     (getF (ownerActs 1 word u) F.YARD_UE_COUNT = min (2 ^ 32 - 1) (getF u F.YARD_UE_COUNT + 1) ∨
       (getSlot u (word / 8192)).st = .free) ∧
     (getBuf (ownerActs 7 word u) (.fch (8 * word / 0x10000)) (8 * word / 0x4000 % 4)).invalid = true ∧
     (word < 32768 → (getE (ownerActs 8 word u) (word / 8)).valid = false ∧
       raised baseSort 1 (ownerActs 8 word u) = true) ∧
     (isSet u F.REC_STATUS_MEM_FAILED = false → isSet (ownerActs 9 word u) F.REC_STATUS_MEM_FAILED = true ∧
       raised baseRec 3 (ownerActs 9 word u) = true) ∧
     (∀ p b, otherPlan word = some (p, b) → (getBuf (ownerActs 12 word u) p b).invalid = true) ∧
     (otherPlan word = none → ownerActs 12 word u = u) ∧
     (∀ c, c < 4 → getF u (F.MAPMEM_STATUS_STATE c) ≠ 4 →
       (getNZ u (F.MAPMEM_LOSS_CFG_UE_LIMIT 0) ≤ tget (fun _ => 0) u.mems.ueFrame c + 1 →
         ∃ t, t = ownerActs (16 + c) word u ∧ getF t (F.MAPMEM_STATUS_STATE c) = 4 ∧ raised (baseMapmem c) 1 t = true ∧
           (isSet u (F.MAPMEM_LAYOUT_DEG_OK 0) = true → degraded u = false →
             getF t F.TOP_MODE_CAUSE_DEG_MAPMEM = 1 ∧ degraded t = true ∧ getF t (F.MAPMEM_LAYOUT_LOST 0) = c ∧
             restoring t = true ∧ t.mems.absentCh = some c) ∧
           (isSet u (F.MAPMEM_LAYOUT_DEG_OK 0) = false ∨ degraded u = true → t.top.recNext = true)) ∧
       (tget (fun _ => 0) u.mems.ueFrame c + 1 < getNZ u (F.MAPMEM_LOSS_CFG_UE_LIMIT 0) → ∀ l, mapWord u c word = .line l →
         ∃ t, t = ownerActs (16 + c) word u ∧ l ∈ t.mems.absentLines ∧ restoring t = true ∧
           changesOnly [.regs, .mems] u t))))

/-- R397, R401, R403, R405, R409, R412: Pointing moves its position by the words the port granted and carries the rest
over; a write-CRC alert is counted, the fourth a fault that two failed retrains in a row turn into the loss of the
channel; the end of restoration brings entries that were being moved back to their source; a fabric parity error is
replayed three times, and the fourth ends the transfer. -/
def Obligations.PointingRetrainsAndFabricErrors : Prop :=
  ∀ s : State,
    (∀ m granted,
      (isMem m = false ∨ asleep s = true ∨ s.top.off = true → completes (.scrubPeriod m granted) s s) ∧
      (asleep s = false → s.top.off = false → m = 0 → ∃ t, completes (.scrubPeriod m granted) s t ∧
        (getMem t 0).owed = (getMem s 0).owed + 1 - min granted ((getMem s 0).owed + 1) ∧ changesOnly [.mems] s t) ∧
      (∀ words beats g, hasRegs m = true → words = getF s (mF m F.MEMCHK_SCRUB_WORDS F.MAPMEM_SCRUB_WORDS) →
        beats = getNZ s (mF m F.MEMCHK_SCRUB_BEATS F.MAPMEM_SCRUB_BEATS) → g = min granted ((getMem s m).owed + words) →
        (words = 0 ∨ beatNow s % beats ≠ 0 → completes (.scrubPeriod m granted) s s) ∧
        (asleep s = false → s.top.off = false → words ≠ 0 → beatNow s % beats = 0 →
          ∃ t pos n, completes (.scrubPeriod m granted) s t ∧ (getMem t m).owed = (getMem s m).owed + words - g ∧
            pos = getF s (mF m F.MEMCHK_SCRUB_POS_WORD F.MAPMEM_SCRUB_POS_WORD) + g ∧ n = max 1 (memWords s m) ∧
            (n ≤ 2 ^ (mF m F.MEMCHK_SCRUB_POS_WORD F.MAPMEM_SCRUB_POS_WORD).w →
              getF t (mF m F.MEMCHK_SCRUB_POS_WORD F.MAPMEM_SCRUB_POS_WORD) = pos % n) ∧
            getF t (mF m F.MEMCHK_SCRUB_PASSES_COUNT F.MAPMEM_SCRUB_PASSES_COUNT) =
              min (2 ^ 32 - 1) (getF s (mF m F.MEMCHK_SCRUB_PASSES_COUNT F.MAPMEM_SCRUB_PASSES_COUNT) + pos / n) ∧
            regsKept (memPage m) s t ∧ changesOnly [.regs, .mems] s t))) ∧
    (∀ c nth, (4 ≤ c → completes (.mapmemAlert c nth) s s) ∧
      (c < 4 → nth < 4 → ∃ t, completes (.mapmemAlert c nth) s t ∧
        getF t (F.MAPMEM_CRC_RETRY_COUNT c) = min (2 ^ 32 - 1) (getF s (F.MAPMEM_CRC_RETRY_COUNT c) + 1) ∧
        regsKept (· = Reg.MAPMEM_CRC_RETRY c) s t ∧ changesOnly [.regs] s t) ∧
      (c < 4 → 4 ≤ nth → ∃ t, completes (.mapmemAlert c nth) s t ∧ tget (fun _ => 0) t.mems.crcTries c = 1 ∧
        tget (fun _ => 0) t.mems.retrains c = 0 ∧ changesOnly [.mems] s t)) ∧
    (∀ c, reach s (Reg.MAPMEM_CFG c) = .ok →
      (4 ≤ c ∨ getF s (F.MAPMEM_STATUS_STATE c) = 4 → ∀ ok, completes (.mapmemRetrain c ok) s s) ∧
      (c < 4 → getF s (F.MAPMEM_STATUS_STATE c) ≠ 4 →
        (∃ t, completes (.mapmemRetrain c true) s t ∧ getF t (F.MAPMEM_STATUS_STATE c) = 2 ∧
          tget (fun _ => 0) t.mems.crcTries c = 0 ∧ tget (fun _ => 0) t.mems.retrains c = 0 ∧
          regsKept (· = Reg.MAPMEM_STATUS c) s t ∧ changesOnly [.regs, .mems] s t) ∧
        (tget (fun _ => 0) s.mems.crcTries c ≠ 1 ∨ tget (fun _ => 0) s.mems.retrains c = 0 →
          ∃ t, completes (.mapmemRetrain c false) s t ∧
            tget (fun _ => 0) t.mems.retrains c = tget (fun _ => 0) s.mems.retrains c + 1 ∧ changesOnly [.mems] s t) ∧
        (tget (fun _ => 0) s.mems.crcTries c = 1 → tget (fun _ => 0) s.mems.retrains c ≠ 0 →
          ∃ t, completes (.mapmemRetrain c false) s t ∧ getF t (F.MAPMEM_STATUS_STATE c) = 4 ∧
            raised (baseMapmem c) 1 t = true))) ∧
    (∀ ms, (restoring s = false → completes (.mapRestoreDone ms) s s) ∧
      (restoring s = true → ∃ t, completes (.mapRestoreDone ms) s t ∧ restoring t = false ∧
        t.mems.absentCh = none ∧ t.mems.absentLines = [] ∧ getF t (F.MAPMEM_RESTORE_MS_MS 0) = ms % 2 ^ 32 ∧
        (∀ l, lineAbsent s l = false → getLine t l = getLine s l) ∧
        (∀ l i, lineAbsent s l = true → i < 12 →
          entState (getEnt t l i) = if entState (getEnt s l i) = stReloc then stMapped else entState (getEnt s l i)) ∧
        (∀ l ∈ s.mems.absentLines, memCaused (16 + lineChannel l) 6 t) ∧
        regsKeptE (fun a => ∃ c, c < 4 ∧ memPage (16 + c) a) s t ∧ changesOnly (.mems :: .map :: eventParts) s t)) ∧
    (∀ sender receiver response posted failure a,
      (failure < 4 → ∃ t, completes (.fabParityError sender receiver response posted failure a) s t ∧
        getF t F.FAB_REPLAYS_COUNT = min (2 ^ 32 - 1) (getF s F.FAB_REPLAYS_COUNT + 1) ∧ raised baseFab 0 t = true ∧
        regsKeptE (· = Reg.FAB_REPLAYS) s t ∧ changesOnly eventParts s t) ∧
      (4 ≤ failure → ∃ t, completes (.fabParityError sender receiver response posted failure a) s t ∧
        getF t F.FAB_FATALS_COUNT = min (2 ^ 32 - 1) (getF s F.FAB_FATALS_COUNT + 1) ∧ raised baseFab 1 t = true ∧
        getF t F.FAB_LAST_FATAL_SENDER = sender % 64 ∧ getF t F.FAB_LAST_FATAL_RECEIVER = receiver % 64 ∧
        getF t F.FAB_LAST_FATAL_RESPONSE = (if response then 1 else 0) ∧
        (posted = false ∨ response = true → t.out = .busError :: s.out ∧ t.errHeld = s.errHeld) ∧
        (posted = true → response = false → t.out = s.out ∧
          (portBase sender ∉ s.errHeld → getF t (F.ERR_INFO_CODE (portBase sender)) = 0xF4 ∧
            getF t (F.ERR_INFO_DETAIL (portBase sender)) = receiver % 65536 ∧
            getR t (Reg.ERR_ADDR_LO (portBase sender)) = a % 2 ^ 32 ∧ portBase sender ∈ t.errHeld) ∧
          (portBase sender ∈ s.errHeld → getF t (F.ERR_INFO_MORE (portBase sender)) = 1)) ∧
        changesOnly (.errHeld :: .out :: eventParts) s t))

/-- R412: FAB raises source 232, FAB_REPLAY, INFO, not enabled at reset, through bit 0, and source 233, FAB_FATAL,
CRITICAL, enabled at reset, through bit 1, and has no other event bit. -/
def Obligations.FabEventsHaveTheirSources : Prop :=
  srcOf baseFab 0 = 232 ∧ (∀ s : State, sevOf s 232 = 0) ∧ bitsOf (getR State.reset (Reg.EVT_EN baseFab)) 0 1 = 0 ∧
  srcOf baseFab 1 = 233 ∧ (∀ s : State, sevOf s 233 = 4) ∧ bitsOf (getR State.reset (Reg.EVT_EN baseFab)) 1 1 = 1 ∧
  pageBits baseFab = 2 ∧
  ∀ (s : State) (sender receiver a : Nat) (response posted : Bool),
    (∀ n, n < 4 → ∃ t, completes (.fabParityError sender receiver response posted n a) s t ∧ raised baseFab 0 t = true ∧
      (bitsOf (getR s (Reg.EVT_EN baseFab)) 0 1 = 1 →
        getF t (F.EVT_COUNT_COUNT 232) = min (2 ^ 32 - 1) (getF s (F.EVT_COUNT_COUNT 232) + 1))) ∧
    (∀ n, 4 ≤ n → ∃ t, completes (.fabParityError sender receiver response posted n a) s t ∧ raised baseFab 1 t = true ∧
      (bitsOf (getR s (Reg.EVT_EN baseFab)) 1 1 = 1 →
        getF t (F.EVT_COUNT_COUNT 233) = min (2 ^ 32 - 1) (getF s (F.EVT_COUNT_COUNT 233) + 1)))

/-- R423, R424, R497: a row that is one register write meets its page first: a disabled block drops it, with
TOP_ACCESS_DISABLED and TOP's ERR_INFO; a sleeping domain is woken and the write stalls. A write of the row's word to
the register by its path has the row's whole effect (R11, R500). -/
def Obligations.RegisterRowsMeetTheirPage : Prop :=
  ∀ (s : State) (c : Instr) (path : Path) (a : Nat) (w : W32), guardRow s c = some (path, a, w) →
    (reach s a = .disabled → ∃ t, completes c s t ∧
      (∀ ty inst base, blockOf a = some (ty, inst, base) → raised baseTop 5 t = true ∧
        errNoted baseTop 0xF1 (ty * 256 + inst) a s t) ∧
      regsKeptE (fun x => x = Reg.ERR_INFO baseTop ∨ x = Reg.ERR_ADDR_LO baseTop ∨ x = Reg.ERR_ADDR_HI baseTop) s t ∧
      changesOnly (.errHeld :: eventParts) s t) ∧
    (reach s a = .sleeping → ∃ t, completes c s t ∧ t.top.stalled = s.top.stalled ++ [(path, a, some (w, 15))] ∧
      domainOf a ∈ t.top.waking ∧ isSet t F.PWR_STATE_IN_TRANSITION = true ∧ regsKept (· = Reg.PWR_STATE) s t ∧
      changesOnly [.regs, .top] s t) ∧
    (ownWrite c = true → exec (.registerWrite path a w 15) s = exec c s)

/-- R11, R13, R423, R424, R499: a whole word written to a register that has no rule of its own changes its fields by
their access codes, and nothing else; reserved addresses ignore writes; a write of part of a word is dropped with
ERR_INFO 0xF0, but lands byte by byte in EVT_FW_BODY. -/
def Obligations.RegisterWritesFollowTheirAccessCodes : Prop :=
  ∀ (s : State) (path : Path) (a : Nat) (v : W32) (bytes : Nat), a < windowSize → a % 4 = 0 →
    (reach s a = .ok → bytes % 16 = 15 →
      (∀ ty inst base r, blockOf a = some (ty, inst, base) → rowAt a = some r → 0x30 ≤ a - base →
        (writeLow ty inst (a - base) v.toNat).isNone = true → (writeHigh path ty inst (a - base) v.toNat s).isNone = true →
        ∃ t, completes (.registerWrite path a v bytes) s t ∧
          (∀ f ∈ r.flds, fieldsWritten s t a v.toNat (isSet s (F.BLK_LOCK_LOCK base)) f) ∧
          regsKept (· = a) s t ∧ changesOnly [.regs, .msixDue] s t ∧
          (causePage base = false → changesOnly [.regs] s t)) ∧
      (a < 0x100000 ∨ 0x140000 ≤ a → rowAt a = none → completes (.registerWrite path a v bytes) s s)) ∧
    (reach s a = .ok → bytes % 16 ≠ 15 →
      (∀ ty inst base, blockOf a = some (ty, inst, base) → ¬ (ty = 13 ∧ 0x800 ≤ a - base) →
        ¬ (ty = 5 ∧ 0x2000 ≤ a - base ∧ a - base < 0x20F0) →
        ∃ t, completes (.registerWrite path a v bytes) s t ∧ errNoted base 0xF0 ((a - base) / 4) a s t ∧
          regsKept (fun x => x = Reg.ERR_INFO base ∨ x = Reg.ERR_ADDR_LO base ∨ x = Reg.ERR_ADDR_HI base) s t ∧
          changesOnly [.regs, .errHeld] s t) ∧
      (0x6000 ≤ a → a < 0x60F0 → ∃ t, completes (.registerWrite path a v bytes) s t ∧
        (∀ j, j < 4 → bitsOf (getR t a) (8 * j) 8 =
          if bitsOf bytes j 1 = 1 then bitsOf v.toNat (8 * j) 8 else bitsOf (getR s a) (8 * j) 8) ∧
        regsKept (· = a) s t ∧ changesOnly [.regs] s t) ∧
      (0x100000 ≤ a → a < 0x140000 → ∃ t, completes (.registerWrite path a v bytes) s t ∧
        errNoted baseSort 0xF0 ((a - 0x100000) / 4) a s t ∧ t.sort = s.sort ∧ changesOnly [.regs, .errHeld] s t) ∧
      (blockOf a = none → a < 0x100000 ∨ 0x140000 ≤ a → completes (.registerWrite path a v bytes) s s)) ∧
    (reach s a = .disabled → ∃ t, completes (.registerWrite path a v bytes) s t ∧ raised baseTop 5 t = true ∧
      changesOnly (.errHeld :: eventParts) s t) ∧
    (reach s a = .sleeping → ∃ t, completes (.registerWrite path a v bytes) s t ∧
      t.top.stalled = s.top.stalled ++ [(path, a, some (v, bytes % 16))] ∧ domainOf a ∈ t.top.waking ∧
      changesOnly [.regs, .top] s t)

/-- R11, R62, R216, R335, R388, R424, R491, R497: a read gives the register's word; its RC fields clear; a LO register
latches its HI; ERR_INFO clears with its address; a disabled block reads all ones, and a sleeping one stalls. -/
def Obligations.ReadsClearAndLatch : Prop :=
  ∀ (s : State) (a : Nat), a < windowSize → a % 4 = 0 →
    (∀ c, c = .rcCounterRead a ∨ c = .latchingLoRead a →
      (∀ ty inst base r, reach s a = .ok → blockOf a = some (ty, inst, base) → rowAt a = some r → a - base ≠ 0x20 →
        ∃ t, completes c s t ∧ t.out = .readData .onChip a (BitVec.ofNat 32 (viewWord s a true)) :: s.out ∧
          (∀ f ∈ r.flds, bitsOf (getR t a) f.lo f.w = if f.acc = .rc then 0 else bitsOf (getR s a) f.lo f.w) ∧
          (latched s a = none → regsKept (· = a) s t) ∧
          (∀ h, latched s a = some h → getR t (a + 4) = h % 2 ^ 32 ∧ regsKept (· = a + 4) s t) ∧
          changesOnly [.regs, .kiln, .out, .freeCtr] s t) ∧
      (reach s a = .disabled → ∃ t, completes c s t ∧ t.out = .readData .onChip a 0xFFFFFFFF :: s.out ∧
        raised baseTop 5 t = true ∧ changesOnly (.errHeld :: .out :: eventParts) s t) ∧
      (reach s a = .sleeping → ∃ t, completes c s t ∧ t.top.stalled = s.top.stalled ++ [(.onChip, a, none)] ∧
        domainOf a ∈ t.top.waking ∧ changesOnly [.regs, .top] s t)) ∧
    (∀ h n, (a = Reg.COURSE_JSEQ_LO ∧ n = s.map.jseq ∨ a = Reg.COURSE_JDUR_LO ∧ n = s.map.jdur ∨
        a = Reg.COURSE_WSEQ_LO ∧ n = s.map.wseq ∨ a = Reg.TOP_LEDGER_BEAT_LO ∧ n = s.top.ledgerSticky ∨
        a = Reg.MAC_SEAL_EPOCH_LO ∧ n = lastSealed s ∨ (∃ k, k < 32 ∧ a = Reg.HOD_CH_CUR_LO k ∧ n = (getCh s k).shown)) →
      h = n / 2 ^ 32 → latched s a = some h ∧ viewWord s a true = n % 2 ^ 32) ∧
    (∀ isWrite,
      (reach s a ≠ .disabled → completes (.disabledBlockAccess a isWrite) s s) ∧
      (reach s a = .disabled → ∃ t, completes (.disabledBlockAccess a isWrite) s t ∧ raised baseTop 5 t = true ∧
        t.out = (if isWrite then s.out else .readData .onChip a 0xFFFFFFFF :: s.out) ∧
        changesOnly (.errHeld :: .out :: eventParts) s t)) ∧
    (isPage a = true → reach s (Reg.ERR_INFO a) = .ok → ∃ t, completes (.errInfoRead a) s t ∧
      t.out = .readData .onChip (Reg.ERR_INFO a) (rd s (Reg.ERR_INFO a)) :: s.out ∧ getR t (Reg.ERR_INFO a) = 0 ∧
      getR t (Reg.ERR_ADDR_LO a) = 0 ∧ getR t (Reg.ERR_ADDR_HI a) = 0 ∧ a ∉ t.errHeld ∧
      (∀ b, b ≠ a → (b ∈ t.errHeld ↔ b ∈ s.errHeld)) ∧
      regsKept (fun x => x = Reg.ERR_INFO a ∨ x = Reg.ERR_ADDR_LO a ∨ x = Reg.ERR_ADDR_HI a) s t ∧
      changesOnly [.regs, .errHeld, .out] s t) ∧
    (isPage a = false → completes (.errInfoRead a) s s)

/-- R422, R425, R495, R498: ENABLE is writable in the Hod alone, and refused while a channel is in use; a vote of the
Hod or of port B's page drains its domain or wakes it; LOCK sets; SOFT_RESET acts in the Hod alone, unlocked: it
aborts every channel and, once all are IDLE, gives the fields their reset values. -/
def Obligations.BlockControlsAct : Prop :=
  ∀ (s : State) (base : Nat), isPage base = true → reach s (Reg.BLK_CTRL base) = .ok →
    (∀ v : W32,
      (base ≠ baseHod → completes (.blkEnableWrite base v) s s) ∧
      (base = baseHod → bitsOf v.toNat 0 1 = 0 → hodInUse s = true → ∃ t, completes (.blkEnableWrite base v) s t ∧
        errNoted base 0xF2 0 (Reg.BLK_CTRL base) s t ∧ getR t (Reg.BLK_CTRL base) = getR s (Reg.BLK_CTRL base) ∧
        changesOnly [.regs, .errHeld] s t) ∧
      (base = baseHod → bitsOf v.toNat 0 1 = 1 ∨ hodInUse s = false → ∃ t, completes (.blkEnableWrite base v) s t ∧
        writesReg (Reg.BLK_CTRL base) (putBits (getR s (Reg.BLK_CTRL base)) 0 1 (bitsOf v.toNat 0 1)) s t) ∧
      ∃ t, completes (.blkPowerVoteWrite base v) s t ∧
        getR t (Reg.BLK_CTRL base) = putBits (getR s (Reg.BLK_CTRL base)) 2 2 (bitsOf v.toNat 2 2) ∧
        regsKept (· = Reg.BLK_CTRL base) s t ∧ changesOnly [.regs, .top] s t ∧
        (voteDomain base = none → t.top = s.top) ∧
        (∀ d, voteDomain base = some d →
          (bitsOf v.toNat 2 2 = 2 → bitsOf (getF s F.PWR_DOM_STAT_ON) d 1 = 1 → d ∈ t.top.drains ∧ d ∉ t.top.woken) ∧
          (bitsOf v.toNat 2 2 ≠ 2 → d ∉ t.top.drains ∧
            (bitsOf (getF s F.PWR_DOM_STAT_ON) d 1 = 0 → powerNow s ≤ 1 → d = 6 ∨ twoPort s = true → d ∈ t.top.waking) ∧
            (bitsOf (getF s F.PWR_DOM_STAT_ON) d 1 = 1 → t.top.waking = s.top.waking)))) ∧
    (∃ t, completes (.blkLockSet base) s t ∧
      writesReg (Reg.BLK_LOCK base) (putBits (getR s (Reg.BLK_LOCK base)) 0 1 1) s t) ∧
    (base ≠ baseHod ∨ isSet s (F.BLK_LOCK_LOCK base) = true → completes (.blkSoftReset base) s s) ∧
    (base = baseHod → isSet s (F.BLK_LOCK_LOCK base) = false →
      ((∀ k, k < 32 → hodState s k = hIdle ∨ hodState s k = hHalted) → ∃ t, completes (.blkSoftReset base) s t ∧
        (∀ a, baseHod ≤ a → a < baseHod + 0x2000 → rd t a = resetValue a) ∧
        t.hod = { s.hod with chs := [], ptr := 0, used := [], rem := 0, resetting := false } ∧ baseHod ∉ t.errHeld ∧
        regsKept (fun a => baseHod ≤ a ∧ a < baseHod + 0x2000) s t ∧ changesOnly [.regs, .hod, .errHeld] s t) ∧
      ((∃ k, k < 32 ∧ hodState s k ≠ hIdle ∧ hodState s k ≠ hHalted) → ∃ t, completes (.blkSoftReset base) s t ∧
        t.hod.resetting = true ∧
        (∀ k, k < 32 → hodState t k =
          if hodState s k = hHalted then hIdle
          else if hodState s k = hRun ∨ hodState s k = hPace ∨ hodState s k = hWait then hFinish else hodState s k) ∧
        regsKept (fun a => baseHod ≤ a ∧ a < baseHod + 0x2000) s t ∧ changesOnly [.regs, .hod] s t))
end

