-- ==== Sys2Proof/Laws/Tbl.lean ====
section
/-!
SUPPORT. Laws/Tbl.lean: reading a table after a write, and that a write keeps the canonical form.
-/

namespace Sys2Proof.Machine

theorem find_terase_same {α : Type} (k : Nat) (t : Tbl α) : (terase k t).find? (fun p => p.1 == k) = none := by
  simp [terase, List.find?_eq_none]

theorem find_terase_ne {α : Type} {j k : Nat} (h : j ≠ k) (t : Tbl α) :
    (terase k t).find? (fun p => p.1 == j) = t.find? (fun p => p.1 == j) := by
  induction t with
  | nil => rfl
  | cons p t ih =>
    unfold terase at ih ⊢
    by_cases hk : p.1 = k
    · have hj : ¬ p.1 = j := fun e => h (e.symm.trans hk)
      simp [hk, ih, Ne.symm h]
    · by_cases hj : p.1 = j
      · simp [hj, h]
      · simp [hk, hj, ih]

theorem find_tinsert_same {α : Type} (k : Nat) (v : α) (t : Tbl α)
    (h : t.find? (fun p => p.1 == k) = none) : (tinsert k v t).find? (fun p => p.1 == k) = some (k, v) := by
  induction t with
  | nil => simp [tinsert]
  | cons p t ih =>
    have hp : (p.1 == k) = false := by
      by_contra hc
      simp [Bool.eq_true_of_not_eq_false hc] at h
    have ht : t.find? (fun p => p.1 == k) = none := by simpa [List.find?_cons, hp] using h
    simp only [tinsert]
    split
    · simp
    · simp [hp, ih ht]

theorem find_tinsert_ne {α : Type} {j k : Nat} (v : α) (t : Tbl α) (h : j ≠ k) :
    (tinsert k v t).find? (fun p => p.1 == j) = t.find? (fun p => p.1 == j) := by
  have hkj : (k == j) = false := by simpa using Ne.symm h
  induction t with
  | nil => simp [tinsert, hkj]
  | cons p t ih =>
    simp only [tinsert]
    split
    · simp [List.find?_cons, hkj]
    · by_cases hj : (p.1 == j) = true
      · simp [hj]
      · simp [hj, ih]

/-- A key reads what was last written to it. -/
@[simp] theorem tget_tset_same {α : Type} [DecidableEq α] (d : Nat → α) (k : Nat) (v : α) (t : Tbl α) :
    tget d (tset d k v t) k = v := by
  unfold tset
  by_cases h : v = d k
  · simp [tget, h, find_terase_same]
  · simp [tget, h, find_tinsert_same _ _ _ (find_terase_same k t)]

/-- A write of one key leaves every other key. -/
theorem tget_tset_ne {α : Type} [DecidableEq α] (d : Nat → α) {j k : Nat} (v : α) (t : Tbl α) (h : j ≠ k) :
    tget d (tset d k v t) j = tget d t j := by
  unfold tset
  by_cases hv : v = d k
  · simp [tget, hv, find_terase_ne h]
  · simp [tget, hv, find_tinsert_ne _ _ h, find_terase_ne h]

/-- What any key reads after a write. -/
theorem tget_tset {α : Type} [DecidableEq α] (d : Nat → α) (j k : Nat) (v : α) (t : Tbl α) :
    tget d (tset d k v t) j = if j = k then v else tget d t j := by
  split
  · next h => subst h; simp
  · next h => exact tget_tset_ne d v t h

/-! ## The canonical form -/

/-- Every key of a table lies above `k`. -/
def above {α : Type} (k : Nat) (t : Tbl α) : Prop := ∀ p ∈ t, k < p.1

theorem tsorted_cons {α : Type} (p : Nat × α) (t : Tbl α) (h : tsorted (p :: t) = true) :
    tsorted t = true ∧ above p.1 t := by
  induction t generalizing p with
  | nil => exact ⟨rfl, by simp [above]⟩
  | cons q t ih =>
    simp only [tsorted, Bool.and_eq_true, decide_eq_true_eq] at h
    have hq := ih q (by simp only [tsorted, Bool.and_eq_true]; exact h.2)
    refine ⟨by simp only [tsorted, Bool.and_eq_true]; exact h.2, ?_⟩
    intro r hr
    rcases List.mem_cons.mp hr with rfl | hr
    · exact h.1
    · exact lt_trans h.1 (hq.2 r hr)

theorem tsorted_of {α : Type} (p : Nat × α) (t : Tbl α) (h : tsorted t = true) (ha : above p.1 t) :
    tsorted (p :: t) = true := by
  cases t with
  | nil => rfl
  | cons q t =>
    simp only [tsorted, Bool.and_eq_true, decide_eq_true_eq]
    exact ⟨ha q (by simp), by simpa only [tsorted, Bool.and_eq_true] using h⟩

theorem tsorted_filter {α : Type} (f : Nat × α → Bool) (t : Tbl α) (h : tsorted t = true) :
    tsorted (t.filter f) = true := by
  induction t with
  | nil => rfl
  | cons p t ih =>
    have hp := tsorted_cons p t h
    simp only [List.filter_cons]
    split
    · exact tsorted_of p _ (ih hp.1) (fun q hq => hp.2 q (List.mem_of_mem_filter hq))
    · exact ih hp.1

theorem mem_tinsert {α : Type} {k : Nat} {v : α} {t : Tbl α} {p : Nat × α} (h : p ∈ tinsert k v t) :
    p = (k, v) ∨ p ∈ t := by
  induction t with
  | nil => simpa [tinsert] using h
  | cons q t ih =>
    simp only [tinsert] at h
    split at h
    · simpa using h
    · rcases List.mem_cons.mp h with rfl | h
      · exact Or.inr (by simp)
      · rcases ih h with rfl | h
        · exact Or.inl rfl
        · exact Or.inr (by simp [h])

theorem tsorted_tinsert {α : Type} (k : Nat) (v : α) (t : Tbl α) (h : tsorted t = true)
    (hk : ∀ p ∈ t, p.1 ≠ k) : tsorted (tinsert k v t) = true := by
  induction t with
  | nil => rfl
  | cons p t ih =>
    have hp := tsorted_cons p t h
    simp only [tinsert]
    split
    · next hlt =>
      refine tsorted_of (k, v) _ h ?_
      intro q hq
      rcases List.mem_cons.mp hq with rfl | hq
      · exact hlt
      · exact lt_trans hlt (hp.2 q hq)
    · next hlt =>
      have hne : p.1 ≠ k := hk p (by simp)
      refine tsorted_of p _ (ih hp.1 (fun q hq => hk q (by simp [hq]))) ?_
      intro q hq
      rcases mem_tinsert hq with rfl | hq
      · show p.1 < k
        omega
      · exact hp.2 q hq

/-- A write keeps the canonical form. -/
theorem twf_tset {α : Type} [DecidableEq α] (d : Nat → α) (k : Nat) (v : α) (t : Tbl α) (h : twf d t = true) :
    twf d (tset d k v t) = true := by
  simp only [twf, Bool.and_eq_true, List.all_eq_true, decide_eq_true_eq] at h ⊢
  have hs : tsorted (terase k t) = true := tsorted_filter _ t h.1
  unfold tset
  split
  · exact ⟨hs, fun p hp => h.2 p (List.mem_of_mem_filter hp)⟩
  · next hv =>
    refine ⟨tsorted_tinsert k v _ hs ?_, ?_⟩
    · intro p hp
      simp only [terase, List.mem_filter] at hp
      simpa using hp.2
    · intro p hp
      rcases mem_tinsert hp with rfl | hp
      · exact hv
      · exact h.2 p (List.mem_of_mem_filter hp)

/-- Leaving entries out keeps the canonical form. -/
theorem twf_filter {α : Type} [DecidableEq α] (d : Nat → α) (f : Nat × α → Bool) (t : Tbl α) (h : twf d t = true) :
    twf d (t.filter f) = true := by
  simp only [twf, Bool.and_eq_true, List.all_eq_true, decide_eq_true_eq] at h ⊢
  exact ⟨tsorted_filter f t h.1, fun p hp => h.2 p (List.mem_of_mem_filter hp)⟩

/-! ## Bits -/

theorem bitsOf_lt (x lo w : Nat) : bitsOf x lo w < 2 ^ w := Nat.mod_lt _ (by positivity)

/-- A field reads what was put into it. -/
@[simp] theorem bitsOf_putBits (x lo w v : Nat) : bitsOf (putBits x lo w v) lo w = v % 2 ^ w := by
  have hx : x % 2 ^ lo < 2 ^ lo := Nat.mod_lt _ (by positivity)
  have e : putBits x lo w v = x % 2 ^ lo + 2 ^ lo * (v % 2 ^ w + 2 ^ w * (x / 2 ^ (lo + w))) := by
    unfold putBits; rw [pow_add]; ring
  unfold bitsOf
  rw [e, Nat.add_mul_div_left _ _ (by positivity), Nat.div_eq_of_lt hx, Nat.zero_add, Nat.add_mul_mod_self_left,
    Nat.mod_mod]

/-- A field below the one written stays. -/
theorem bitsOf_putBits_below (x lo w v lo' w' : Nat) (h : lo' + w' ≤ lo) :
    bitsOf (putBits x lo w v) lo' w' = bitsOf x lo' w' := by
  obtain ⟨m, rfl⟩ := Nat.exists_eq_add_of_le h
  unfold bitsOf
  have key (y : Nat) : y / 2 ^ lo' % 2 ^ w' = y % 2 ^ (lo' + w') / 2 ^ lo' := by
    rw [pow_add, Nat.mod_mul_right_div_self]
  rw [key, key]
  congr 1
  have e : putBits x (lo' + w' + m) w v
      = x % 2 ^ (lo' + w' + m) + 2 ^ (lo' + w') * (2 ^ m * (v % 2 ^ w + 2 ^ w * (x / 2 ^ (lo' + w' + m + w)))) := by
    unfold putBits; rw [pow_add 2 (lo' + w' + m) w, pow_add 2 (lo' + w') m]; ring
  rw [e, Nat.add_mul_mod_self_left, Nat.mod_mod_of_dvd]
  exact pow_dvd_pow 2 (by omega)

/-- A field above the one written stays. -/
theorem bitsOf_putBits_above (x lo w v lo' w' : Nat) (h : lo + w ≤ lo') :
    bitsOf (putBits x lo w v) lo' w' = bitsOf x lo' w' := by
  obtain ⟨m, rfl⟩ := Nat.exists_eq_add_of_le h
  unfold bitsOf
  have hlt : x % 2 ^ lo + v % 2 ^ w * 2 ^ lo < 2 ^ (lo + w) := by
    have h1 : x % 2 ^ lo < 2 ^ lo := Nat.mod_lt _ (by positivity)
    have h2 : v % 2 ^ w + 1 ≤ 2 ^ w := Nat.mod_lt _ (by positivity)
    calc x % 2 ^ lo + v % 2 ^ w * 2 ^ lo < (v % 2 ^ w + 1) * 2 ^ lo := by rw [add_mul]; omega
      _ ≤ 2 ^ w * 2 ^ lo := Nat.mul_le_mul_right _ h2
      _ = 2 ^ (lo + w) := by rw [pow_add, mul_comm]
  congr 1
  rw [pow_add 2 (lo + w) m, ← Nat.div_div_eq_div_mul, ← Nat.div_div_eq_div_mul]
  congr 1
  unfold putBits
  rw [Nat.add_mul_div_right _ _ (by positivity), Nat.div_eq_of_lt hlt, Nat.zero_add]

theorem putBits_lt (x lo w v n : Nat) (hx : x < 2 ^ n) (h : lo + w ≤ n) : putBits x lo w v < 2 ^ n := by
  have h1 : x % 2 ^ lo < 2 ^ lo := Nat.mod_lt _ (by positivity)
  have h2 : v % 2 ^ w + 1 ≤ 2 ^ w := Nat.mod_lt _ (by positivity)
  have hlt : x % 2 ^ lo + v % 2 ^ w * 2 ^ lo < 2 ^ (lo + w) := by
    calc x % 2 ^ lo + v % 2 ^ w * 2 ^ lo < (v % 2 ^ w + 1) * 2 ^ lo := by rw [add_mul]; omega
      _ ≤ 2 ^ w * 2 ^ lo := Nat.mul_le_mul_right _ h2
      _ = 2 ^ (lo + w) := by rw [pow_add, mul_comm]
  obtain ⟨m, rfl⟩ := Nat.exists_eq_add_of_le h
  have h3 : x / 2 ^ (lo + w) + 1 ≤ 2 ^ m := by
    apply Nat.div_lt_of_lt_mul
    rw [← pow_add]; exact hx
  unfold putBits
  calc x % 2 ^ lo + v % 2 ^ w * 2 ^ lo + x / 2 ^ (lo + w) * 2 ^ (lo + w)
      < (x / 2 ^ (lo + w) + 1) * 2 ^ (lo + w) := by rw [add_mul]; omega
    _ ≤ 2 ^ m * 2 ^ (lo + w) := Nat.mul_le_mul_right _ h3
    _ = 2 ^ (lo + w + m) := by rw [pow_add 2 (lo + w) m, mul_comm]

end Sys2Proof.Machine
end

