-- ==== Sys2Proof/Laws/State.lean ====
section
/-!
SUPPORT. Laws/State.lean: what each plain update of the state leaves: one lemma for each field and update.
-/

namespace Sys2Proof.Machine

/-! ### setR -/

@[simp] theorem setR_pending (a v : Nat) (s : State) : (setR a v s).pending = s.pending := (rfl)
@[simp] theorem setR_beat (a v : Nat) (s : State) : (setR a v s).beat = s.beat := (rfl)
@[simp] theorem setR_recd (a v : Nat) (s : State) : (setR a v s).recd = s.recd := (rfl)
@[simp] theorem setR_tiles (a v : Nat) (s : State) : (setR a v s).tiles = s.tiles := (rfl)
@[simp] theorem setR_host (a v : Nat) (s : State) : (setR a v s).host = s.host := (rfl)
@[simp] theorem setR_map (a v : Nat) (s : State) : (setR a v s).map = s.map := (rfl)
@[simp] theorem setR_trowel (a v : Nat) (s : State) : (setR a v s).trowel = s.trowel := (rfl)
@[simp] theorem setR_grout (a v : Nat) (s : State) : (setR a v s).grout = s.grout := (rfl)
@[simp] theorem setR_mac (a v : Nat) (s : State) : (setR a v s).mac = s.mac := (rfl)
@[simp] theorem setR_sort (a v : Nat) (s : State) : (setR a v s).sort = s.sort := (rfl)
@[simp] theorem setR_kiln (a v : Nat) (s : State) : (setR a v s).kiln = s.kiln := (rfl)
@[simp] theorem setR_sec (a v : Nat) (s : State) : (setR a v s).sec = s.sec := (rfl)
@[simp] theorem setR_hod (a v : Nat) (s : State) : (setR a v s).hod = s.hod := (rfl)
@[simp] theorem setR_mems (a v : Nat) (s : State) : (setR a v s).mems = s.mems := (rfl)
@[simp] theorem setR_top (a v : Nat) (s : State) : (setR a v s).top = s.top := (rfl)
@[simp] theorem setR_errHeld (a v : Nat) (s : State) : (setR a v s).errHeld = s.errHeld := (rfl)
@[simp] theorem setR_msixDue (a v : Nat) (s : State) : (setR a v s).msixDue = s.msixDue := (rfl)
@[simp] theorem setR_msixBeat (a v : Nat) (s : State) : (setR a v s).msixBeat = s.msixBeat := (rfl)
@[simp] theorem setR_out (a v : Nat) (s : State) : (setR a v s).out = s.out := (rfl)
@[simp] theorem setR_freeCtr (a v : Nat) (s : State) : (setR a v s).freeCtr = s.freeCtr := (rfl)

/-! ### setF -/

@[simp] theorem setF_pending (f : Fld) (v : Nat) (s : State) : (setF f v s).pending = s.pending := (rfl)
@[simp] theorem setF_beat (f : Fld) (v : Nat) (s : State) : (setF f v s).beat = s.beat := (rfl)
@[simp] theorem setF_recd (f : Fld) (v : Nat) (s : State) : (setF f v s).recd = s.recd := (rfl)
@[simp] theorem setF_tiles (f : Fld) (v : Nat) (s : State) : (setF f v s).tiles = s.tiles := (rfl)
@[simp] theorem setF_host (f : Fld) (v : Nat) (s : State) : (setF f v s).host = s.host := (rfl)
@[simp] theorem setF_map (f : Fld) (v : Nat) (s : State) : (setF f v s).map = s.map := (rfl)
@[simp] theorem setF_trowel (f : Fld) (v : Nat) (s : State) : (setF f v s).trowel = s.trowel := (rfl)
@[simp] theorem setF_grout (f : Fld) (v : Nat) (s : State) : (setF f v s).grout = s.grout := (rfl)
@[simp] theorem setF_mac (f : Fld) (v : Nat) (s : State) : (setF f v s).mac = s.mac := (rfl)
@[simp] theorem setF_sort (f : Fld) (v : Nat) (s : State) : (setF f v s).sort = s.sort := (rfl)
@[simp] theorem setF_kiln (f : Fld) (v : Nat) (s : State) : (setF f v s).kiln = s.kiln := (rfl)
@[simp] theorem setF_sec (f : Fld) (v : Nat) (s : State) : (setF f v s).sec = s.sec := (rfl)
@[simp] theorem setF_hod (f : Fld) (v : Nat) (s : State) : (setF f v s).hod = s.hod := (rfl)
@[simp] theorem setF_mems (f : Fld) (v : Nat) (s : State) : (setF f v s).mems = s.mems := (rfl)
@[simp] theorem setF_top (f : Fld) (v : Nat) (s : State) : (setF f v s).top = s.top := (rfl)
@[simp] theorem setF_errHeld (f : Fld) (v : Nat) (s : State) : (setF f v s).errHeld = s.errHeld := (rfl)
@[simp] theorem setF_msixDue (f : Fld) (v : Nat) (s : State) : (setF f v s).msixDue = s.msixDue := (rfl)
@[simp] theorem setF_msixBeat (f : Fld) (v : Nat) (s : State) : (setF f v s).msixBeat = s.msixBeat := (rfl)
@[simp] theorem setF_out (f : Fld) (v : Nat) (s : State) : (setF f v s).out = s.out := (rfl)
@[simp] theorem setF_freeCtr (f : Fld) (v : Nat) (s : State) : (setF f v s).freeCtr = s.freeCtr := (rfl)

/-! ### addF -/

@[simp] theorem addF_pending (f : Fld) (n : Nat) (s : State) : (addF f n s).pending = s.pending := (rfl)
@[simp] theorem addF_beat (f : Fld) (n : Nat) (s : State) : (addF f n s).beat = s.beat := (rfl)
@[simp] theorem addF_recd (f : Fld) (n : Nat) (s : State) : (addF f n s).recd = s.recd := (rfl)
@[simp] theorem addF_tiles (f : Fld) (n : Nat) (s : State) : (addF f n s).tiles = s.tiles := (rfl)
@[simp] theorem addF_host (f : Fld) (n : Nat) (s : State) : (addF f n s).host = s.host := (rfl)
@[simp] theorem addF_map (f : Fld) (n : Nat) (s : State) : (addF f n s).map = s.map := (rfl)
@[simp] theorem addF_trowel (f : Fld) (n : Nat) (s : State) : (addF f n s).trowel = s.trowel := (rfl)
@[simp] theorem addF_grout (f : Fld) (n : Nat) (s : State) : (addF f n s).grout = s.grout := (rfl)
@[simp] theorem addF_mac (f : Fld) (n : Nat) (s : State) : (addF f n s).mac = s.mac := (rfl)
@[simp] theorem addF_sort (f : Fld) (n : Nat) (s : State) : (addF f n s).sort = s.sort := (rfl)
@[simp] theorem addF_kiln (f : Fld) (n : Nat) (s : State) : (addF f n s).kiln = s.kiln := (rfl)
@[simp] theorem addF_sec (f : Fld) (n : Nat) (s : State) : (addF f n s).sec = s.sec := (rfl)
@[simp] theorem addF_hod (f : Fld) (n : Nat) (s : State) : (addF f n s).hod = s.hod := (rfl)
@[simp] theorem addF_mems (f : Fld) (n : Nat) (s : State) : (addF f n s).mems = s.mems := (rfl)
@[simp] theorem addF_top (f : Fld) (n : Nat) (s : State) : (addF f n s).top = s.top := (rfl)
@[simp] theorem addF_errHeld (f : Fld) (n : Nat) (s : State) : (addF f n s).errHeld = s.errHeld := (rfl)
@[simp] theorem addF_msixDue (f : Fld) (n : Nat) (s : State) : (addF f n s).msixDue = s.msixDue := (rfl)
@[simp] theorem addF_msixBeat (f : Fld) (n : Nat) (s : State) : (addF f n s).msixBeat = s.msixBeat := (rfl)
@[simp] theorem addF_out (f : Fld) (n : Nat) (s : State) : (addF f n s).out = s.out := (rfl)
@[simp] theorem addF_freeCtr (f : Fld) (n : Nat) (s : State) : (addF f n s).freeCtr = s.freeCtr := (rfl)

/-! ### maxF -/

@[simp] theorem maxF_pending (f : Fld) (v : Nat) (s : State) : (maxF f v s).pending = s.pending := (rfl)
@[simp] theorem maxF_beat (f : Fld) (v : Nat) (s : State) : (maxF f v s).beat = s.beat := (rfl)
@[simp] theorem maxF_recd (f : Fld) (v : Nat) (s : State) : (maxF f v s).recd = s.recd := (rfl)
@[simp] theorem maxF_tiles (f : Fld) (v : Nat) (s : State) : (maxF f v s).tiles = s.tiles := (rfl)
@[simp] theorem maxF_host (f : Fld) (v : Nat) (s : State) : (maxF f v s).host = s.host := (rfl)
@[simp] theorem maxF_map (f : Fld) (v : Nat) (s : State) : (maxF f v s).map = s.map := (rfl)
@[simp] theorem maxF_trowel (f : Fld) (v : Nat) (s : State) : (maxF f v s).trowel = s.trowel := (rfl)
@[simp] theorem maxF_grout (f : Fld) (v : Nat) (s : State) : (maxF f v s).grout = s.grout := (rfl)
@[simp] theorem maxF_mac (f : Fld) (v : Nat) (s : State) : (maxF f v s).mac = s.mac := (rfl)
@[simp] theorem maxF_sort (f : Fld) (v : Nat) (s : State) : (maxF f v s).sort = s.sort := (rfl)
@[simp] theorem maxF_kiln (f : Fld) (v : Nat) (s : State) : (maxF f v s).kiln = s.kiln := (rfl)
@[simp] theorem maxF_sec (f : Fld) (v : Nat) (s : State) : (maxF f v s).sec = s.sec := (rfl)
@[simp] theorem maxF_hod (f : Fld) (v : Nat) (s : State) : (maxF f v s).hod = s.hod := (rfl)
@[simp] theorem maxF_mems (f : Fld) (v : Nat) (s : State) : (maxF f v s).mems = s.mems := (rfl)
@[simp] theorem maxF_top (f : Fld) (v : Nat) (s : State) : (maxF f v s).top = s.top := (rfl)
@[simp] theorem maxF_errHeld (f : Fld) (v : Nat) (s : State) : (maxF f v s).errHeld = s.errHeld := (rfl)
@[simp] theorem maxF_msixDue (f : Fld) (v : Nat) (s : State) : (maxF f v s).msixDue = s.msixDue := (rfl)
@[simp] theorem maxF_msixBeat (f : Fld) (v : Nat) (s : State) : (maxF f v s).msixBeat = s.msixBeat := (rfl)
@[simp] theorem maxF_out (f : Fld) (v : Nat) (s : State) : (maxF f v s).out = s.out := (rfl)
@[simp] theorem maxF_freeCtr (f : Fld) (v : Nat) (s : State) : (maxF f v s).freeCtr = s.freeCtr := (rfl)

/-! ### tick -/

@[simp] theorem tick_pending (s : State) : (tick s).pending = s.pending := (rfl)
@[simp] theorem tick_regs (s : State) : (tick s).regs = s.regs := (rfl)
@[simp] theorem tick_beat (s : State) : (tick s).beat = s.beat := (rfl)
@[simp] theorem tick_recd (s : State) : (tick s).recd = s.recd := (rfl)
@[simp] theorem tick_tiles (s : State) : (tick s).tiles = s.tiles := (rfl)
@[simp] theorem tick_host (s : State) : (tick s).host = s.host := (rfl)
@[simp] theorem tick_map (s : State) : (tick s).map = s.map := (rfl)
@[simp] theorem tick_trowel (s : State) : (tick s).trowel = s.trowel := (rfl)
@[simp] theorem tick_grout (s : State) : (tick s).grout = s.grout := (rfl)
@[simp] theorem tick_mac (s : State) : (tick s).mac = s.mac := (rfl)
@[simp] theorem tick_sort (s : State) : (tick s).sort = s.sort := (rfl)
@[simp] theorem tick_kiln (s : State) : (tick s).kiln = s.kiln := (rfl)
@[simp] theorem tick_sec (s : State) : (tick s).sec = s.sec := (rfl)
@[simp] theorem tick_hod (s : State) : (tick s).hod = s.hod := (rfl)
@[simp] theorem tick_mems (s : State) : (tick s).mems = s.mems := (rfl)
@[simp] theorem tick_top (s : State) : (tick s).top = s.top := (rfl)
@[simp] theorem tick_errHeld (s : State) : (tick s).errHeld = s.errHeld := (rfl)
@[simp] theorem tick_msixDue (s : State) : (tick s).msixDue = s.msixDue := (rfl)
@[simp] theorem tick_msixBeat (s : State) : (tick s).msixBeat = s.msixBeat := (rfl)
@[simp] theorem tick_out (s : State) : (tick s).out = s.out := (rfl)

/-! ### emit -/

@[simp] theorem emit_pending (o : Out) (s : State) : (emit o s).pending = s.pending := (rfl)
@[simp] theorem emit_regs (o : Out) (s : State) : (emit o s).regs = s.regs := (rfl)
@[simp] theorem emit_beat (o : Out) (s : State) : (emit o s).beat = s.beat := (rfl)
@[simp] theorem emit_recd (o : Out) (s : State) : (emit o s).recd = s.recd := (rfl)
@[simp] theorem emit_tiles (o : Out) (s : State) : (emit o s).tiles = s.tiles := (rfl)
@[simp] theorem emit_host (o : Out) (s : State) : (emit o s).host = s.host := (rfl)
@[simp] theorem emit_map (o : Out) (s : State) : (emit o s).map = s.map := (rfl)
@[simp] theorem emit_trowel (o : Out) (s : State) : (emit o s).trowel = s.trowel := (rfl)
@[simp] theorem emit_grout (o : Out) (s : State) : (emit o s).grout = s.grout := (rfl)
@[simp] theorem emit_mac (o : Out) (s : State) : (emit o s).mac = s.mac := (rfl)
@[simp] theorem emit_sort (o : Out) (s : State) : (emit o s).sort = s.sort := (rfl)
@[simp] theorem emit_kiln (o : Out) (s : State) : (emit o s).kiln = s.kiln := (rfl)
@[simp] theorem emit_sec (o : Out) (s : State) : (emit o s).sec = s.sec := (rfl)
@[simp] theorem emit_hod (o : Out) (s : State) : (emit o s).hod = s.hod := (rfl)
@[simp] theorem emit_mems (o : Out) (s : State) : (emit o s).mems = s.mems := (rfl)
@[simp] theorem emit_top (o : Out) (s : State) : (emit o s).top = s.top := (rfl)
@[simp] theorem emit_errHeld (o : Out) (s : State) : (emit o s).errHeld = s.errHeld := (rfl)
@[simp] theorem emit_msixDue (o : Out) (s : State) : (emit o s).msixDue = s.msixDue := (rfl)
@[simp] theorem emit_msixBeat (o : Out) (s : State) : (emit o s).msixBeat = s.msixBeat := (rfl)
@[simp] theorem emit_freeCtr (o : Out) (s : State) : (emit o s).freeCtr = s.freeCtr := (rfl)

/-! ### setFn -/

@[simp] theorem setFn_pending (fn : Nat) (v : Fn) (s : State) : (setFn fn v s).pending = s.pending := (rfl)
@[simp] theorem setFn_regs (fn : Nat) (v : Fn) (s : State) : (setFn fn v s).regs = s.regs := (rfl)
@[simp] theorem setFn_beat (fn : Nat) (v : Fn) (s : State) : (setFn fn v s).beat = s.beat := (rfl)
@[simp] theorem setFn_recd (fn : Nat) (v : Fn) (s : State) : (setFn fn v s).recd = s.recd := (rfl)
@[simp] theorem setFn_tiles (fn : Nat) (v : Fn) (s : State) : (setFn fn v s).tiles = s.tiles := (rfl)
@[simp] theorem setFn_map (fn : Nat) (v : Fn) (s : State) : (setFn fn v s).map = s.map := (rfl)
@[simp] theorem setFn_trowel (fn : Nat) (v : Fn) (s : State) : (setFn fn v s).trowel = s.trowel := (rfl)
@[simp] theorem setFn_grout (fn : Nat) (v : Fn) (s : State) : (setFn fn v s).grout = s.grout := (rfl)
@[simp] theorem setFn_mac (fn : Nat) (v : Fn) (s : State) : (setFn fn v s).mac = s.mac := (rfl)
@[simp] theorem setFn_sort (fn : Nat) (v : Fn) (s : State) : (setFn fn v s).sort = s.sort := (rfl)
@[simp] theorem setFn_kiln (fn : Nat) (v : Fn) (s : State) : (setFn fn v s).kiln = s.kiln := (rfl)
@[simp] theorem setFn_sec (fn : Nat) (v : Fn) (s : State) : (setFn fn v s).sec = s.sec := (rfl)
@[simp] theorem setFn_hod (fn : Nat) (v : Fn) (s : State) : (setFn fn v s).hod = s.hod := (rfl)
@[simp] theorem setFn_mems (fn : Nat) (v : Fn) (s : State) : (setFn fn v s).mems = s.mems := (rfl)
@[simp] theorem setFn_top (fn : Nat) (v : Fn) (s : State) : (setFn fn v s).top = s.top := (rfl)
@[simp] theorem setFn_errHeld (fn : Nat) (v : Fn) (s : State) : (setFn fn v s).errHeld = s.errHeld := (rfl)
@[simp] theorem setFn_msixDue (fn : Nat) (v : Fn) (s : State) : (setFn fn v s).msixDue = s.msixDue := (rfl)
@[simp] theorem setFn_msixBeat (fn : Nat) (v : Fn) (s : State) : (setFn fn v s).msixBeat = s.msixBeat := (rfl)
@[simp] theorem setFn_out (fn : Nat) (v : Fn) (s : State) : (setFn fn v s).out = s.out := (rfl)
@[simp] theorem setFn_freeCtr (fn : Nat) (v : Fn) (s : State) : (setFn fn v s).freeCtr = s.freeCtr := (rfl)

/-! ### setSq -/

@[simp] theorem setSq_pending (fn qid : Nat) (v : Sq) (s : State) : (setSq fn qid v s).pending = s.pending := (rfl)
@[simp] theorem setSq_regs (fn qid : Nat) (v : Sq) (s : State) : (setSq fn qid v s).regs = s.regs := (rfl)
@[simp] theorem setSq_beat (fn qid : Nat) (v : Sq) (s : State) : (setSq fn qid v s).beat = s.beat := (rfl)
@[simp] theorem setSq_recd (fn qid : Nat) (v : Sq) (s : State) : (setSq fn qid v s).recd = s.recd := (rfl)
@[simp] theorem setSq_tiles (fn qid : Nat) (v : Sq) (s : State) : (setSq fn qid v s).tiles = s.tiles := (rfl)
@[simp] theorem setSq_map (fn qid : Nat) (v : Sq) (s : State) : (setSq fn qid v s).map = s.map := (rfl)
@[simp] theorem setSq_trowel (fn qid : Nat) (v : Sq) (s : State) : (setSq fn qid v s).trowel = s.trowel := (rfl)
@[simp] theorem setSq_grout (fn qid : Nat) (v : Sq) (s : State) : (setSq fn qid v s).grout = s.grout := (rfl)
@[simp] theorem setSq_mac (fn qid : Nat) (v : Sq) (s : State) : (setSq fn qid v s).mac = s.mac := (rfl)
@[simp] theorem setSq_sort (fn qid : Nat) (v : Sq) (s : State) : (setSq fn qid v s).sort = s.sort := (rfl)
@[simp] theorem setSq_kiln (fn qid : Nat) (v : Sq) (s : State) : (setSq fn qid v s).kiln = s.kiln := (rfl)
@[simp] theorem setSq_sec (fn qid : Nat) (v : Sq) (s : State) : (setSq fn qid v s).sec = s.sec := (rfl)
@[simp] theorem setSq_hod (fn qid : Nat) (v : Sq) (s : State) : (setSq fn qid v s).hod = s.hod := (rfl)
@[simp] theorem setSq_mems (fn qid : Nat) (v : Sq) (s : State) : (setSq fn qid v s).mems = s.mems := (rfl)
@[simp] theorem setSq_top (fn qid : Nat) (v : Sq) (s : State) : (setSq fn qid v s).top = s.top := (rfl)
@[simp] theorem setSq_errHeld (fn qid : Nat) (v : Sq) (s : State) : (setSq fn qid v s).errHeld = s.errHeld := (rfl)
@[simp] theorem setSq_msixDue (fn qid : Nat) (v : Sq) (s : State) : (setSq fn qid v s).msixDue = s.msixDue := (rfl)
@[simp] theorem setSq_msixBeat (fn qid : Nat) (v : Sq) (s : State) : (setSq fn qid v s).msixBeat = s.msixBeat := (rfl)
@[simp] theorem setSq_out (fn qid : Nat) (v : Sq) (s : State) : (setSq fn qid v s).out = s.out := (rfl)
@[simp] theorem setSq_freeCtr (fn qid : Nat) (v : Sq) (s : State) : (setSq fn qid v s).freeCtr = s.freeCtr := (rfl)

/-! ### setCq -/

@[simp] theorem setCq_pending (fn qid : Nat) (v : Cq) (s : State) : (setCq fn qid v s).pending = s.pending := (rfl)
@[simp] theorem setCq_regs (fn qid : Nat) (v : Cq) (s : State) : (setCq fn qid v s).regs = s.regs := (rfl)
@[simp] theorem setCq_beat (fn qid : Nat) (v : Cq) (s : State) : (setCq fn qid v s).beat = s.beat := (rfl)
@[simp] theorem setCq_recd (fn qid : Nat) (v : Cq) (s : State) : (setCq fn qid v s).recd = s.recd := (rfl)
@[simp] theorem setCq_tiles (fn qid : Nat) (v : Cq) (s : State) : (setCq fn qid v s).tiles = s.tiles := (rfl)
@[simp] theorem setCq_map (fn qid : Nat) (v : Cq) (s : State) : (setCq fn qid v s).map = s.map := (rfl)
@[simp] theorem setCq_trowel (fn qid : Nat) (v : Cq) (s : State) : (setCq fn qid v s).trowel = s.trowel := (rfl)
@[simp] theorem setCq_grout (fn qid : Nat) (v : Cq) (s : State) : (setCq fn qid v s).grout = s.grout := (rfl)
@[simp] theorem setCq_mac (fn qid : Nat) (v : Cq) (s : State) : (setCq fn qid v s).mac = s.mac := (rfl)
@[simp] theorem setCq_sort (fn qid : Nat) (v : Cq) (s : State) : (setCq fn qid v s).sort = s.sort := (rfl)
@[simp] theorem setCq_kiln (fn qid : Nat) (v : Cq) (s : State) : (setCq fn qid v s).kiln = s.kiln := (rfl)
@[simp] theorem setCq_sec (fn qid : Nat) (v : Cq) (s : State) : (setCq fn qid v s).sec = s.sec := (rfl)
@[simp] theorem setCq_hod (fn qid : Nat) (v : Cq) (s : State) : (setCq fn qid v s).hod = s.hod := (rfl)
@[simp] theorem setCq_mems (fn qid : Nat) (v : Cq) (s : State) : (setCq fn qid v s).mems = s.mems := (rfl)
@[simp] theorem setCq_top (fn qid : Nat) (v : Cq) (s : State) : (setCq fn qid v s).top = s.top := (rfl)
@[simp] theorem setCq_errHeld (fn qid : Nat) (v : Cq) (s : State) : (setCq fn qid v s).errHeld = s.errHeld := (rfl)
@[simp] theorem setCq_msixDue (fn qid : Nat) (v : Cq) (s : State) : (setCq fn qid v s).msixDue = s.msixDue := (rfl)
@[simp] theorem setCq_msixBeat (fn qid : Nat) (v : Cq) (s : State) : (setCq fn qid v s).msixBeat = s.msixBeat := (rfl)
@[simp] theorem setCq_out (fn qid : Nat) (v : Cq) (s : State) : (setCq fn qid v s).out = s.out := (rfl)
@[simp] theorem setCq_freeCtr (fn qid : Nat) (v : Cq) (s : State) : (setCq fn qid v s).freeCtr = s.freeCtr := (rfl)

/-! ### setCmd -/

@[simp] theorem setCmd_pending (i : Nat) (c : Cmd) (s : State) : (setCmd i c s).pending = s.pending := (rfl)
@[simp] theorem setCmd_regs (i : Nat) (c : Cmd) (s : State) : (setCmd i c s).regs = s.regs := (rfl)
@[simp] theorem setCmd_beat (i : Nat) (c : Cmd) (s : State) : (setCmd i c s).beat = s.beat := (rfl)
@[simp] theorem setCmd_recd (i : Nat) (c : Cmd) (s : State) : (setCmd i c s).recd = s.recd := (rfl)
@[simp] theorem setCmd_tiles (i : Nat) (c : Cmd) (s : State) : (setCmd i c s).tiles = s.tiles := (rfl)
@[simp] theorem setCmd_map (i : Nat) (c : Cmd) (s : State) : (setCmd i c s).map = s.map := (rfl)
@[simp] theorem setCmd_trowel (i : Nat) (c : Cmd) (s : State) : (setCmd i c s).trowel = s.trowel := (rfl)
@[simp] theorem setCmd_grout (i : Nat) (c : Cmd) (s : State) : (setCmd i c s).grout = s.grout := (rfl)
@[simp] theorem setCmd_mac (i : Nat) (c : Cmd) (s : State) : (setCmd i c s).mac = s.mac := (rfl)
@[simp] theorem setCmd_sort (i : Nat) (c : Cmd) (s : State) : (setCmd i c s).sort = s.sort := (rfl)
@[simp] theorem setCmd_kiln (i : Nat) (c : Cmd) (s : State) : (setCmd i c s).kiln = s.kiln := (rfl)
@[simp] theorem setCmd_sec (i : Nat) (c : Cmd) (s : State) : (setCmd i c s).sec = s.sec := (rfl)
@[simp] theorem setCmd_hod (i : Nat) (c : Cmd) (s : State) : (setCmd i c s).hod = s.hod := (rfl)
@[simp] theorem setCmd_mems (i : Nat) (c : Cmd) (s : State) : (setCmd i c s).mems = s.mems := (rfl)
@[simp] theorem setCmd_top (i : Nat) (c : Cmd) (s : State) : (setCmd i c s).top = s.top := (rfl)
@[simp] theorem setCmd_errHeld (i : Nat) (c : Cmd) (s : State) : (setCmd i c s).errHeld = s.errHeld := (rfl)
@[simp] theorem setCmd_msixDue (i : Nat) (c : Cmd) (s : State) : (setCmd i c s).msixDue = s.msixDue := (rfl)
@[simp] theorem setCmd_msixBeat (i : Nat) (c : Cmd) (s : State) : (setCmd i c s).msixBeat = s.msixBeat := (rfl)
@[simp] theorem setCmd_out (i : Nat) (c : Cmd) (s : State) : (setCmd i c s).out = s.out := (rfl)
@[simp] theorem setCmd_freeCtr (i : Nat) (c : Cmd) (s : State) : (setCmd i c s).freeCtr = s.freeCtr := (rfl)

/-! ### setNs -/

@[simp] theorem setNs_pending (n : Nat) (v : Ns) (s : State) : (setNs n v s).pending = s.pending := (rfl)
@[simp] theorem setNs_regs (n : Nat) (v : Ns) (s : State) : (setNs n v s).regs = s.regs := (rfl)
@[simp] theorem setNs_beat (n : Nat) (v : Ns) (s : State) : (setNs n v s).beat = s.beat := (rfl)
@[simp] theorem setNs_recd (n : Nat) (v : Ns) (s : State) : (setNs n v s).recd = s.recd := (rfl)
@[simp] theorem setNs_tiles (n : Nat) (v : Ns) (s : State) : (setNs n v s).tiles = s.tiles := (rfl)
@[simp] theorem setNs_map (n : Nat) (v : Ns) (s : State) : (setNs n v s).map = s.map := (rfl)
@[simp] theorem setNs_trowel (n : Nat) (v : Ns) (s : State) : (setNs n v s).trowel = s.trowel := (rfl)
@[simp] theorem setNs_grout (n : Nat) (v : Ns) (s : State) : (setNs n v s).grout = s.grout := (rfl)
@[simp] theorem setNs_mac (n : Nat) (v : Ns) (s : State) : (setNs n v s).mac = s.mac := (rfl)
@[simp] theorem setNs_sort (n : Nat) (v : Ns) (s : State) : (setNs n v s).sort = s.sort := (rfl)
@[simp] theorem setNs_kiln (n : Nat) (v : Ns) (s : State) : (setNs n v s).kiln = s.kiln := (rfl)
@[simp] theorem setNs_sec (n : Nat) (v : Ns) (s : State) : (setNs n v s).sec = s.sec := (rfl)
@[simp] theorem setNs_hod (n : Nat) (v : Ns) (s : State) : (setNs n v s).hod = s.hod := (rfl)
@[simp] theorem setNs_mems (n : Nat) (v : Ns) (s : State) : (setNs n v s).mems = s.mems := (rfl)
@[simp] theorem setNs_top (n : Nat) (v : Ns) (s : State) : (setNs n v s).top = s.top := (rfl)
@[simp] theorem setNs_errHeld (n : Nat) (v : Ns) (s : State) : (setNs n v s).errHeld = s.errHeld := (rfl)
@[simp] theorem setNs_msixDue (n : Nat) (v : Ns) (s : State) : (setNs n v s).msixDue = s.msixDue := (rfl)
@[simp] theorem setNs_msixBeat (n : Nat) (v : Ns) (s : State) : (setNs n v s).msixBeat = s.msixBeat := (rfl)
@[simp] theorem setNs_out (n : Nat) (v : Ns) (s : State) : (setNs n v s).out = s.out := (rfl)
@[simp] theorem setNs_freeCtr (n : Nat) (v : Ns) (s : State) : (setNs n v s).freeCtr = s.freeCtr := (rfl)

/-! ### setConn -/

@[simp] theorem setConn_pending (c : Conn) (v : SpdmSt) (s : State) : (setConn c v s).pending = s.pending := (rfl)
@[simp] theorem setConn_regs (c : Conn) (v : SpdmSt) (s : State) : (setConn c v s).regs = s.regs := (rfl)
@[simp] theorem setConn_beat (c : Conn) (v : SpdmSt) (s : State) : (setConn c v s).beat = s.beat := (rfl)
@[simp] theorem setConn_recd (c : Conn) (v : SpdmSt) (s : State) : (setConn c v s).recd = s.recd := (rfl)
@[simp] theorem setConn_tiles (c : Conn) (v : SpdmSt) (s : State) : (setConn c v s).tiles = s.tiles := (rfl)
@[simp] theorem setConn_host (c : Conn) (v : SpdmSt) (s : State) : (setConn c v s).host = s.host := (rfl)
@[simp] theorem setConn_map (c : Conn) (v : SpdmSt) (s : State) : (setConn c v s).map = s.map := (rfl)
@[simp] theorem setConn_trowel (c : Conn) (v : SpdmSt) (s : State) : (setConn c v s).trowel = s.trowel := (rfl)
@[simp] theorem setConn_grout (c : Conn) (v : SpdmSt) (s : State) : (setConn c v s).grout = s.grout := (rfl)
@[simp] theorem setConn_mac (c : Conn) (v : SpdmSt) (s : State) : (setConn c v s).mac = s.mac := (rfl)
@[simp] theorem setConn_sort (c : Conn) (v : SpdmSt) (s : State) : (setConn c v s).sort = s.sort := (rfl)
@[simp] theorem setConn_kiln (c : Conn) (v : SpdmSt) (s : State) : (setConn c v s).kiln = s.kiln := (rfl)
@[simp] theorem setConn_hod (c : Conn) (v : SpdmSt) (s : State) : (setConn c v s).hod = s.hod := (rfl)
@[simp] theorem setConn_mems (c : Conn) (v : SpdmSt) (s : State) : (setConn c v s).mems = s.mems := (rfl)
@[simp] theorem setConn_top (c : Conn) (v : SpdmSt) (s : State) : (setConn c v s).top = s.top := (rfl)
@[simp] theorem setConn_errHeld (c : Conn) (v : SpdmSt) (s : State) : (setConn c v s).errHeld = s.errHeld := (rfl)
@[simp] theorem setConn_msixDue (c : Conn) (v : SpdmSt) (s : State) : (setConn c v s).msixDue = s.msixDue := (rfl)
@[simp] theorem setConn_msixBeat (c : Conn) (v : SpdmSt) (s : State) : (setConn c v s).msixBeat = s.msixBeat := (rfl)
@[simp] theorem setConn_out (c : Conn) (v : SpdmSt) (s : State) : (setConn c v s).out = s.out := (rfl)
@[simp] theorem setConn_freeCtr (c : Conn) (v : SpdmSt) (s : State) : (setConn c v s).freeCtr = s.freeCtr := (rfl)

/-! ### setBrick -/

@[simp] theorem setBrick_pending (k : Nat) (v : Brick) (s : State) : (setBrick k v s).pending = s.pending := (rfl)
@[simp] theorem setBrick_regs (k : Nat) (v : Brick) (s : State) : (setBrick k v s).regs = s.regs := (rfl)
@[simp] theorem setBrick_beat (k : Nat) (v : Brick) (s : State) : (setBrick k v s).beat = s.beat := (rfl)
@[simp] theorem setBrick_recd (k : Nat) (v : Brick) (s : State) : (setBrick k v s).recd = s.recd := (rfl)
@[simp] theorem setBrick_tiles (k : Nat) (v : Brick) (s : State) : (setBrick k v s).tiles = s.tiles := (rfl)
@[simp] theorem setBrick_host (k : Nat) (v : Brick) (s : State) : (setBrick k v s).host = s.host := (rfl)
@[simp] theorem setBrick_trowel (k : Nat) (v : Brick) (s : State) : (setBrick k v s).trowel = s.trowel := (rfl)
@[simp] theorem setBrick_grout (k : Nat) (v : Brick) (s : State) : (setBrick k v s).grout = s.grout := (rfl)
@[simp] theorem setBrick_mac (k : Nat) (v : Brick) (s : State) : (setBrick k v s).mac = s.mac := (rfl)
@[simp] theorem setBrick_sort (k : Nat) (v : Brick) (s : State) : (setBrick k v s).sort = s.sort := (rfl)
@[simp] theorem setBrick_kiln (k : Nat) (v : Brick) (s : State) : (setBrick k v s).kiln = s.kiln := (rfl)
@[simp] theorem setBrick_sec (k : Nat) (v : Brick) (s : State) : (setBrick k v s).sec = s.sec := (rfl)
@[simp] theorem setBrick_hod (k : Nat) (v : Brick) (s : State) : (setBrick k v s).hod = s.hod := (rfl)
@[simp] theorem setBrick_mems (k : Nat) (v : Brick) (s : State) : (setBrick k v s).mems = s.mems := (rfl)
@[simp] theorem setBrick_top (k : Nat) (v : Brick) (s : State) : (setBrick k v s).top = s.top := (rfl)
@[simp] theorem setBrick_errHeld (k : Nat) (v : Brick) (s : State) : (setBrick k v s).errHeld = s.errHeld := (rfl)
@[simp] theorem setBrick_msixDue (k : Nat) (v : Brick) (s : State) : (setBrick k v s).msixDue = s.msixDue := (rfl)
@[simp] theorem setBrick_msixBeat (k : Nat) (v : Brick) (s : State) : (setBrick k v s).msixBeat = s.msixBeat := (rfl)
@[simp] theorem setBrick_out (k : Nat) (v : Brick) (s : State) : (setBrick k v s).out = s.out := (rfl)
@[simp] theorem setBrick_freeCtr (k : Nat) (v : Brick) (s : State) : (setBrick k v s).freeCtr = s.freeCtr := (rfl)

/-! ### setCourse -/

@[simp] theorem setCourse_pending (c : Nat) (v : Course) (s : State) : (setCourse c v s).pending = s.pending := (rfl)
@[simp] theorem setCourse_regs (c : Nat) (v : Course) (s : State) : (setCourse c v s).regs = s.regs := (rfl)
@[simp] theorem setCourse_beat (c : Nat) (v : Course) (s : State) : (setCourse c v s).beat = s.beat := (rfl)
@[simp] theorem setCourse_recd (c : Nat) (v : Course) (s : State) : (setCourse c v s).recd = s.recd := (rfl)
@[simp] theorem setCourse_tiles (c : Nat) (v : Course) (s : State) : (setCourse c v s).tiles = s.tiles := (rfl)
@[simp] theorem setCourse_host (c : Nat) (v : Course) (s : State) : (setCourse c v s).host = s.host := (rfl)
@[simp] theorem setCourse_trowel (c : Nat) (v : Course) (s : State) : (setCourse c v s).trowel = s.trowel := (rfl)
@[simp] theorem setCourse_grout (c : Nat) (v : Course) (s : State) : (setCourse c v s).grout = s.grout := (rfl)
@[simp] theorem setCourse_mac (c : Nat) (v : Course) (s : State) : (setCourse c v s).mac = s.mac := (rfl)
@[simp] theorem setCourse_sort (c : Nat) (v : Course) (s : State) : (setCourse c v s).sort = s.sort := (rfl)
@[simp] theorem setCourse_kiln (c : Nat) (v : Course) (s : State) : (setCourse c v s).kiln = s.kiln := (rfl)
@[simp] theorem setCourse_sec (c : Nat) (v : Course) (s : State) : (setCourse c v s).sec = s.sec := (rfl)
@[simp] theorem setCourse_hod (c : Nat) (v : Course) (s : State) : (setCourse c v s).hod = s.hod := (rfl)
@[simp] theorem setCourse_mems (c : Nat) (v : Course) (s : State) : (setCourse c v s).mems = s.mems := (rfl)
@[simp] theorem setCourse_top (c : Nat) (v : Course) (s : State) : (setCourse c v s).top = s.top := (rfl)
@[simp] theorem setCourse_errHeld (c : Nat) (v : Course) (s : State) : (setCourse c v s).errHeld = s.errHeld := (rfl)
@[simp] theorem setCourse_msixDue (c : Nat) (v : Course) (s : State) : (setCourse c v s).msixDue = s.msixDue := (rfl)
@[simp] theorem setCourse_msixBeat (c : Nat) (v : Course) (s : State) : (setCourse c v s).msixBeat = s.msixBeat := (rfl)
@[simp] theorem setCourse_out (c : Nat) (v : Course) (s : State) : (setCourse c v s).out = s.out := (rfl)
@[simp] theorem setCourse_freeCtr (c : Nat) (v : Course) (s : State) : (setCourse c v s).freeCtr = s.freeCtr := (rfl)

/-! ### setSlot -/

@[simp] theorem setSlot_pending (k : Nat) (v : Slot) (s : State) : (setSlot k v s).pending = s.pending := (rfl)
@[simp] theorem setSlot_regs (k : Nat) (v : Slot) (s : State) : (setSlot k v s).regs = s.regs := (rfl)
@[simp] theorem setSlot_beat (k : Nat) (v : Slot) (s : State) : (setSlot k v s).beat = s.beat := (rfl)
@[simp] theorem setSlot_recd (k : Nat) (v : Slot) (s : State) : (setSlot k v s).recd = s.recd := (rfl)
@[simp] theorem setSlot_tiles (k : Nat) (v : Slot) (s : State) : (setSlot k v s).tiles = s.tiles := (rfl)
@[simp] theorem setSlot_host (k : Nat) (v : Slot) (s : State) : (setSlot k v s).host = s.host := (rfl)
@[simp] theorem setSlot_trowel (k : Nat) (v : Slot) (s : State) : (setSlot k v s).trowel = s.trowel := (rfl)
@[simp] theorem setSlot_grout (k : Nat) (v : Slot) (s : State) : (setSlot k v s).grout = s.grout := (rfl)
@[simp] theorem setSlot_mac (k : Nat) (v : Slot) (s : State) : (setSlot k v s).mac = s.mac := (rfl)
@[simp] theorem setSlot_sort (k : Nat) (v : Slot) (s : State) : (setSlot k v s).sort = s.sort := (rfl)
@[simp] theorem setSlot_kiln (k : Nat) (v : Slot) (s : State) : (setSlot k v s).kiln = s.kiln := (rfl)
@[simp] theorem setSlot_sec (k : Nat) (v : Slot) (s : State) : (setSlot k v s).sec = s.sec := (rfl)
@[simp] theorem setSlot_hod (k : Nat) (v : Slot) (s : State) : (setSlot k v s).hod = s.hod := (rfl)
@[simp] theorem setSlot_mems (k : Nat) (v : Slot) (s : State) : (setSlot k v s).mems = s.mems := (rfl)
@[simp] theorem setSlot_top (k : Nat) (v : Slot) (s : State) : (setSlot k v s).top = s.top := (rfl)
@[simp] theorem setSlot_errHeld (k : Nat) (v : Slot) (s : State) : (setSlot k v s).errHeld = s.errHeld := (rfl)
@[simp] theorem setSlot_msixDue (k : Nat) (v : Slot) (s : State) : (setSlot k v s).msixDue = s.msixDue := (rfl)
@[simp] theorem setSlot_msixBeat (k : Nat) (v : Slot) (s : State) : (setSlot k v s).msixBeat = s.msixBeat := (rfl)
@[simp] theorem setSlot_out (k : Nat) (v : Slot) (s : State) : (setSlot k v s).out = s.out := (rfl)
@[simp] theorem setSlot_freeCtr (k : Nat) (v : Slot) (s : State) : (setSlot k v s).freeCtr = s.freeCtr := (rfl)

/-! ### setCtx -/

@[simp] theorem setCtx_pending (i : Nat) (v : Ctx) (s : State) : (setCtx i v s).pending = s.pending := (rfl)
@[simp] theorem setCtx_regs (i : Nat) (v : Ctx) (s : State) : (setCtx i v s).regs = s.regs := (rfl)
@[simp] theorem setCtx_beat (i : Nat) (v : Ctx) (s : State) : (setCtx i v s).beat = s.beat := (rfl)
@[simp] theorem setCtx_recd (i : Nat) (v : Ctx) (s : State) : (setCtx i v s).recd = s.recd := (rfl)
@[simp] theorem setCtx_tiles (i : Nat) (v : Ctx) (s : State) : (setCtx i v s).tiles = s.tiles := (rfl)
@[simp] theorem setCtx_host (i : Nat) (v : Ctx) (s : State) : (setCtx i v s).host = s.host := (rfl)
@[simp] theorem setCtx_trowel (i : Nat) (v : Ctx) (s : State) : (setCtx i v s).trowel = s.trowel := (rfl)
@[simp] theorem setCtx_grout (i : Nat) (v : Ctx) (s : State) : (setCtx i v s).grout = s.grout := (rfl)
@[simp] theorem setCtx_mac (i : Nat) (v : Ctx) (s : State) : (setCtx i v s).mac = s.mac := (rfl)
@[simp] theorem setCtx_sort (i : Nat) (v : Ctx) (s : State) : (setCtx i v s).sort = s.sort := (rfl)
@[simp] theorem setCtx_kiln (i : Nat) (v : Ctx) (s : State) : (setCtx i v s).kiln = s.kiln := (rfl)
@[simp] theorem setCtx_sec (i : Nat) (v : Ctx) (s : State) : (setCtx i v s).sec = s.sec := (rfl)
@[simp] theorem setCtx_hod (i : Nat) (v : Ctx) (s : State) : (setCtx i v s).hod = s.hod := (rfl)
@[simp] theorem setCtx_mems (i : Nat) (v : Ctx) (s : State) : (setCtx i v s).mems = s.mems := (rfl)
@[simp] theorem setCtx_top (i : Nat) (v : Ctx) (s : State) : (setCtx i v s).top = s.top := (rfl)
@[simp] theorem setCtx_errHeld (i : Nat) (v : Ctx) (s : State) : (setCtx i v s).errHeld = s.errHeld := (rfl)
@[simp] theorem setCtx_msixDue (i : Nat) (v : Ctx) (s : State) : (setCtx i v s).msixDue = s.msixDue := (rfl)
@[simp] theorem setCtx_msixBeat (i : Nat) (v : Ctx) (s : State) : (setCtx i v s).msixBeat = s.msixBeat := (rfl)
@[simp] theorem setCtx_out (i : Nat) (v : Ctx) (s : State) : (setCtx i v s).out = s.out := (rfl)
@[simp] theorem setCtx_freeCtr (i : Nat) (v : Ctx) (s : State) : (setCtx i v s).freeCtr = s.freeCtr := (rfl)

/-! ### setLine -/

@[simp] theorem setLine_pending (l : Nat) (x : BitVec 512) (s : State) : (setLine l x s).pending = s.pending := (rfl)
@[simp] theorem setLine_regs (l : Nat) (x : BitVec 512) (s : State) : (setLine l x s).regs = s.regs := (rfl)
@[simp] theorem setLine_beat (l : Nat) (x : BitVec 512) (s : State) : (setLine l x s).beat = s.beat := (rfl)
@[simp] theorem setLine_recd (l : Nat) (x : BitVec 512) (s : State) : (setLine l x s).recd = s.recd := (rfl)
@[simp] theorem setLine_tiles (l : Nat) (x : BitVec 512) (s : State) : (setLine l x s).tiles = s.tiles := (rfl)
@[simp] theorem setLine_host (l : Nat) (x : BitVec 512) (s : State) : (setLine l x s).host = s.host := (rfl)
@[simp] theorem setLine_trowel (l : Nat) (x : BitVec 512) (s : State) : (setLine l x s).trowel = s.trowel := (rfl)
@[simp] theorem setLine_grout (l : Nat) (x : BitVec 512) (s : State) : (setLine l x s).grout = s.grout := (rfl)
@[simp] theorem setLine_mac (l : Nat) (x : BitVec 512) (s : State) : (setLine l x s).mac = s.mac := (rfl)
@[simp] theorem setLine_sort (l : Nat) (x : BitVec 512) (s : State) : (setLine l x s).sort = s.sort := (rfl)
@[simp] theorem setLine_kiln (l : Nat) (x : BitVec 512) (s : State) : (setLine l x s).kiln = s.kiln := (rfl)
@[simp] theorem setLine_sec (l : Nat) (x : BitVec 512) (s : State) : (setLine l x s).sec = s.sec := (rfl)
@[simp] theorem setLine_hod (l : Nat) (x : BitVec 512) (s : State) : (setLine l x s).hod = s.hod := (rfl)
@[simp] theorem setLine_mems (l : Nat) (x : BitVec 512) (s : State) : (setLine l x s).mems = s.mems := (rfl)
@[simp] theorem setLine_top (l : Nat) (x : BitVec 512) (s : State) : (setLine l x s).top = s.top := (rfl)
@[simp] theorem setLine_errHeld (l : Nat) (x : BitVec 512) (s : State) : (setLine l x s).errHeld = s.errHeld := (rfl)
@[simp] theorem setLine_msixDue (l : Nat) (x : BitVec 512) (s : State) : (setLine l x s).msixDue = s.msixDue := (rfl)
@[simp] theorem setLine_msixBeat (l : Nat) (x : BitVec 512) (s : State) : (setLine l x s).msixBeat = s.msixBeat := (rfl)
@[simp] theorem setLine_out (l : Nat) (x : BitVec 512) (s : State) : (setLine l x s).out = s.out := (rfl)
@[simp] theorem setLine_freeCtr (l : Nat) (x : BitVec 512) (s : State) : (setLine l x s).freeCtr = s.freeCtr := (rfl)

/-! ### setZone -/

@[simp] theorem setZone_pending (nsid z : Nat) (v : Zone) (s : State) : (setZone nsid z v s).pending = s.pending := (rfl)
@[simp] theorem setZone_regs (nsid z : Nat) (v : Zone) (s : State) : (setZone nsid z v s).regs = s.regs := (rfl)
@[simp] theorem setZone_beat (nsid z : Nat) (v : Zone) (s : State) : (setZone nsid z v s).beat = s.beat := (rfl)
@[simp] theorem setZone_recd (nsid z : Nat) (v : Zone) (s : State) : (setZone nsid z v s).recd = s.recd := (rfl)
@[simp] theorem setZone_tiles (nsid z : Nat) (v : Zone) (s : State) : (setZone nsid z v s).tiles = s.tiles := (rfl)
@[simp] theorem setZone_host (nsid z : Nat) (v : Zone) (s : State) : (setZone nsid z v s).host = s.host := (rfl)
@[simp] theorem setZone_trowel (nsid z : Nat) (v : Zone) (s : State) : (setZone nsid z v s).trowel = s.trowel := (rfl)
@[simp] theorem setZone_grout (nsid z : Nat) (v : Zone) (s : State) : (setZone nsid z v s).grout = s.grout := (rfl)
@[simp] theorem setZone_mac (nsid z : Nat) (v : Zone) (s : State) : (setZone nsid z v s).mac = s.mac := (rfl)
@[simp] theorem setZone_sort (nsid z : Nat) (v : Zone) (s : State) : (setZone nsid z v s).sort = s.sort := (rfl)
@[simp] theorem setZone_kiln (nsid z : Nat) (v : Zone) (s : State) : (setZone nsid z v s).kiln = s.kiln := (rfl)
@[simp] theorem setZone_sec (nsid z : Nat) (v : Zone) (s : State) : (setZone nsid z v s).sec = s.sec := (rfl)
@[simp] theorem setZone_hod (nsid z : Nat) (v : Zone) (s : State) : (setZone nsid z v s).hod = s.hod := (rfl)
@[simp] theorem setZone_mems (nsid z : Nat) (v : Zone) (s : State) : (setZone nsid z v s).mems = s.mems := (rfl)
@[simp] theorem setZone_top (nsid z : Nat) (v : Zone) (s : State) : (setZone nsid z v s).top = s.top := (rfl)
@[simp] theorem setZone_errHeld (nsid z : Nat) (v : Zone) (s : State) : (setZone nsid z v s).errHeld = s.errHeld := (rfl)
@[simp] theorem setZone_msixDue (nsid z : Nat) (v : Zone) (s : State) : (setZone nsid z v s).msixDue = s.msixDue := (rfl)
@[simp] theorem setZone_msixBeat (nsid z : Nat) (v : Zone) (s : State) : (setZone nsid z v s).msixBeat = s.msixBeat := (rfl)
@[simp] theorem setZone_out (nsid z : Nat) (v : Zone) (s : State) : (setZone nsid z v s).out = s.out := (rfl)
@[simp] theorem setZone_freeCtr (nsid z : Nat) (v : Zone) (s : State) : (setZone nsid z v s).freeCtr = s.freeCtr := (rfl)

/-! ### setLun -/

@[simp] theorem setLun_pending (ch lun : Nat) (v : Lun) (s : State) : (setLun ch lun v s).pending = s.pending := (rfl)
@[simp] theorem setLun_regs (ch lun : Nat) (v : Lun) (s : State) : (setLun ch lun v s).regs = s.regs := (rfl)
@[simp] theorem setLun_beat (ch lun : Nat) (v : Lun) (s : State) : (setLun ch lun v s).beat = s.beat := (rfl)
@[simp] theorem setLun_recd (ch lun : Nat) (v : Lun) (s : State) : (setLun ch lun v s).recd = s.recd := (rfl)
@[simp] theorem setLun_tiles (ch lun : Nat) (v : Lun) (s : State) : (setLun ch lun v s).tiles = s.tiles := (rfl)
@[simp] theorem setLun_host (ch lun : Nat) (v : Lun) (s : State) : (setLun ch lun v s).host = s.host := (rfl)
@[simp] theorem setLun_trowel (ch lun : Nat) (v : Lun) (s : State) : (setLun ch lun v s).trowel = s.trowel := (rfl)
@[simp] theorem setLun_grout (ch lun : Nat) (v : Lun) (s : State) : (setLun ch lun v s).grout = s.grout := (rfl)
@[simp] theorem setLun_mac (ch lun : Nat) (v : Lun) (s : State) : (setLun ch lun v s).mac = s.mac := (rfl)
@[simp] theorem setLun_sort (ch lun : Nat) (v : Lun) (s : State) : (setLun ch lun v s).sort = s.sort := (rfl)
@[simp] theorem setLun_kiln (ch lun : Nat) (v : Lun) (s : State) : (setLun ch lun v s).kiln = s.kiln := (rfl)
@[simp] theorem setLun_sec (ch lun : Nat) (v : Lun) (s : State) : (setLun ch lun v s).sec = s.sec := (rfl)
@[simp] theorem setLun_hod (ch lun : Nat) (v : Lun) (s : State) : (setLun ch lun v s).hod = s.hod := (rfl)
@[simp] theorem setLun_mems (ch lun : Nat) (v : Lun) (s : State) : (setLun ch lun v s).mems = s.mems := (rfl)
@[simp] theorem setLun_top (ch lun : Nat) (v : Lun) (s : State) : (setLun ch lun v s).top = s.top := (rfl)
@[simp] theorem setLun_errHeld (ch lun : Nat) (v : Lun) (s : State) : (setLun ch lun v s).errHeld = s.errHeld := (rfl)
@[simp] theorem setLun_msixDue (ch lun : Nat) (v : Lun) (s : State) : (setLun ch lun v s).msixDue = s.msixDue := (rfl)
@[simp] theorem setLun_msixBeat (ch lun : Nat) (v : Lun) (s : State) : (setLun ch lun v s).msixBeat = s.msixBeat := (rfl)
@[simp] theorem setLun_out (ch lun : Nat) (v : Lun) (s : State) : (setLun ch lun v s).out = s.out := (rfl)
@[simp] theorem setLun_freeCtr (ch lun : Nat) (v : Lun) (s : State) : (setLun ch lun v s).freeCtr = s.freeCtr := (rfl)

/-! ### setRd -/

@[simp] theorem setRd_pending (i : Nat) (v : Rd) (s : State) : (setRd i v s).pending = s.pending := (rfl)
@[simp] theorem setRd_regs (i : Nat) (v : Rd) (s : State) : (setRd i v s).regs = s.regs := (rfl)
@[simp] theorem setRd_beat (i : Nat) (v : Rd) (s : State) : (setRd i v s).beat = s.beat := (rfl)
@[simp] theorem setRd_recd (i : Nat) (v : Rd) (s : State) : (setRd i v s).recd = s.recd := (rfl)
@[simp] theorem setRd_tiles (i : Nat) (v : Rd) (s : State) : (setRd i v s).tiles = s.tiles := (rfl)
@[simp] theorem setRd_host (i : Nat) (v : Rd) (s : State) : (setRd i v s).host = s.host := (rfl)
@[simp] theorem setRd_trowel (i : Nat) (v : Rd) (s : State) : (setRd i v s).trowel = s.trowel := (rfl)
@[simp] theorem setRd_grout (i : Nat) (v : Rd) (s : State) : (setRd i v s).grout = s.grout := (rfl)
@[simp] theorem setRd_mac (i : Nat) (v : Rd) (s : State) : (setRd i v s).mac = s.mac := (rfl)
@[simp] theorem setRd_sort (i : Nat) (v : Rd) (s : State) : (setRd i v s).sort = s.sort := (rfl)
@[simp] theorem setRd_kiln (i : Nat) (v : Rd) (s : State) : (setRd i v s).kiln = s.kiln := (rfl)
@[simp] theorem setRd_sec (i : Nat) (v : Rd) (s : State) : (setRd i v s).sec = s.sec := (rfl)
@[simp] theorem setRd_hod (i : Nat) (v : Rd) (s : State) : (setRd i v s).hod = s.hod := (rfl)
@[simp] theorem setRd_mems (i : Nat) (v : Rd) (s : State) : (setRd i v s).mems = s.mems := (rfl)
@[simp] theorem setRd_top (i : Nat) (v : Rd) (s : State) : (setRd i v s).top = s.top := (rfl)
@[simp] theorem setRd_errHeld (i : Nat) (v : Rd) (s : State) : (setRd i v s).errHeld = s.errHeld := (rfl)
@[simp] theorem setRd_msixDue (i : Nat) (v : Rd) (s : State) : (setRd i v s).msixDue = s.msixDue := (rfl)
@[simp] theorem setRd_msixBeat (i : Nat) (v : Rd) (s : State) : (setRd i v s).msixBeat = s.msixBeat := (rfl)
@[simp] theorem setRd_out (i : Nat) (v : Rd) (s : State) : (setRd i v s).out = s.out := (rfl)
@[simp] theorem setRd_freeCtr (i : Nat) (v : Rd) (s : State) : (setRd i v s).freeCtr = s.freeCtr := (rfl)

/-! ### setBuf -/

@[simp] theorem setBuf_pending (u : PlanUnit) (b : Nat) (v : PlanBuf) (s : State) : (setBuf u b v s).pending = s.pending := (rfl)
@[simp] theorem setBuf_regs (u : PlanUnit) (b : Nat) (v : PlanBuf) (s : State) : (setBuf u b v s).regs = s.regs := (rfl)
@[simp] theorem setBuf_recd (u : PlanUnit) (b : Nat) (v : PlanBuf) (s : State) : (setBuf u b v s).recd = s.recd := (rfl)
@[simp] theorem setBuf_tiles (u : PlanUnit) (b : Nat) (v : PlanBuf) (s : State) : (setBuf u b v s).tiles = s.tiles := (rfl)
@[simp] theorem setBuf_host (u : PlanUnit) (b : Nat) (v : PlanBuf) (s : State) : (setBuf u b v s).host = s.host := (rfl)
@[simp] theorem setBuf_map (u : PlanUnit) (b : Nat) (v : PlanBuf) (s : State) : (setBuf u b v s).map = s.map := (rfl)
@[simp] theorem setBuf_trowel (u : PlanUnit) (b : Nat) (v : PlanBuf) (s : State) : (setBuf u b v s).trowel = s.trowel := (rfl)
@[simp] theorem setBuf_grout (u : PlanUnit) (b : Nat) (v : PlanBuf) (s : State) : (setBuf u b v s).grout = s.grout := (rfl)
@[simp] theorem setBuf_mac (u : PlanUnit) (b : Nat) (v : PlanBuf) (s : State) : (setBuf u b v s).mac = s.mac := (rfl)
@[simp] theorem setBuf_sort (u : PlanUnit) (b : Nat) (v : PlanBuf) (s : State) : (setBuf u b v s).sort = s.sort := (rfl)
@[simp] theorem setBuf_kiln (u : PlanUnit) (b : Nat) (v : PlanBuf) (s : State) : (setBuf u b v s).kiln = s.kiln := (rfl)
@[simp] theorem setBuf_sec (u : PlanUnit) (b : Nat) (v : PlanBuf) (s : State) : (setBuf u b v s).sec = s.sec := (rfl)
@[simp] theorem setBuf_hod (u : PlanUnit) (b : Nat) (v : PlanBuf) (s : State) : (setBuf u b v s).hod = s.hod := (rfl)
@[simp] theorem setBuf_mems (u : PlanUnit) (b : Nat) (v : PlanBuf) (s : State) : (setBuf u b v s).mems = s.mems := (rfl)
@[simp] theorem setBuf_top (u : PlanUnit) (b : Nat) (v : PlanBuf) (s : State) : (setBuf u b v s).top = s.top := (rfl)
@[simp] theorem setBuf_errHeld (u : PlanUnit) (b : Nat) (v : PlanBuf) (s : State) : (setBuf u b v s).errHeld = s.errHeld := (rfl)
@[simp] theorem setBuf_msixDue (u : PlanUnit) (b : Nat) (v : PlanBuf) (s : State) : (setBuf u b v s).msixDue = s.msixDue := (rfl)
@[simp] theorem setBuf_msixBeat (u : PlanUnit) (b : Nat) (v : PlanBuf) (s : State) : (setBuf u b v s).msixBeat = s.msixBeat := (rfl)
@[simp] theorem setBuf_out (u : PlanUnit) (b : Nat) (v : PlanBuf) (s : State) : (setBuf u b v s).out = s.out := (rfl)
@[simp] theorem setBuf_freeCtr (u : PlanUnit) (b : Nat) (v : PlanBuf) (s : State) : (setBuf u b v s).freeCtr = s.freeCtr := (rfl)

/-! ### setMem -/

@[simp] theorem setMem_pending (m : Nat) (v : MemSt) (s : State) : (setMem m v s).pending = s.pending := (rfl)
@[simp] theorem setMem_regs (m : Nat) (v : MemSt) (s : State) : (setMem m v s).regs = s.regs := (rfl)
@[simp] theorem setMem_beat (m : Nat) (v : MemSt) (s : State) : (setMem m v s).beat = s.beat := (rfl)
@[simp] theorem setMem_recd (m : Nat) (v : MemSt) (s : State) : (setMem m v s).recd = s.recd := (rfl)
@[simp] theorem setMem_tiles (m : Nat) (v : MemSt) (s : State) : (setMem m v s).tiles = s.tiles := (rfl)
@[simp] theorem setMem_host (m : Nat) (v : MemSt) (s : State) : (setMem m v s).host = s.host := (rfl)
@[simp] theorem setMem_map (m : Nat) (v : MemSt) (s : State) : (setMem m v s).map = s.map := (rfl)
@[simp] theorem setMem_trowel (m : Nat) (v : MemSt) (s : State) : (setMem m v s).trowel = s.trowel := (rfl)
@[simp] theorem setMem_grout (m : Nat) (v : MemSt) (s : State) : (setMem m v s).grout = s.grout := (rfl)
@[simp] theorem setMem_mac (m : Nat) (v : MemSt) (s : State) : (setMem m v s).mac = s.mac := (rfl)
@[simp] theorem setMem_sort (m : Nat) (v : MemSt) (s : State) : (setMem m v s).sort = s.sort := (rfl)
@[simp] theorem setMem_kiln (m : Nat) (v : MemSt) (s : State) : (setMem m v s).kiln = s.kiln := (rfl)
@[simp] theorem setMem_sec (m : Nat) (v : MemSt) (s : State) : (setMem m v s).sec = s.sec := (rfl)
@[simp] theorem setMem_hod (m : Nat) (v : MemSt) (s : State) : (setMem m v s).hod = s.hod := (rfl)
@[simp] theorem setMem_top (m : Nat) (v : MemSt) (s : State) : (setMem m v s).top = s.top := (rfl)
@[simp] theorem setMem_errHeld (m : Nat) (v : MemSt) (s : State) : (setMem m v s).errHeld = s.errHeld := (rfl)
@[simp] theorem setMem_msixDue (m : Nat) (v : MemSt) (s : State) : (setMem m v s).msixDue = s.msixDue := (rfl)
@[simp] theorem setMem_msixBeat (m : Nat) (v : MemSt) (s : State) : (setMem m v s).msixBeat = s.msixBeat := (rfl)
@[simp] theorem setMem_out (m : Nat) (v : MemSt) (s : State) : (setMem m v s).out = s.out := (rfl)
@[simp] theorem setMem_freeCtr (m : Nat) (v : MemSt) (s : State) : (setMem m v s).freeCtr = s.freeCtr := (rfl)

/-! ### setStack -/

@[simp] theorem setStack_pending (z : Nat) (l : List (Nat × BitVec 384)) (s : State) : (setStack z l s).pending = s.pending := (rfl)
@[simp] theorem setStack_regs (z : Nat) (l : List (Nat × BitVec 384)) (s : State) : (setStack z l s).regs = s.regs := (rfl)
@[simp] theorem setStack_beat (z : Nat) (l : List (Nat × BitVec 384)) (s : State) : (setStack z l s).beat = s.beat := (rfl)
@[simp] theorem setStack_recd (z : Nat) (l : List (Nat × BitVec 384)) (s : State) : (setStack z l s).recd = s.recd := (rfl)
@[simp] theorem setStack_tiles (z : Nat) (l : List (Nat × BitVec 384)) (s : State) : (setStack z l s).tiles = s.tiles := (rfl)
@[simp] theorem setStack_host (z : Nat) (l : List (Nat × BitVec 384)) (s : State) : (setStack z l s).host = s.host := (rfl)
@[simp] theorem setStack_map (z : Nat) (l : List (Nat × BitVec 384)) (s : State) : (setStack z l s).map = s.map := (rfl)
@[simp] theorem setStack_trowel (z : Nat) (l : List (Nat × BitVec 384)) (s : State) : (setStack z l s).trowel = s.trowel := (rfl)
@[simp] theorem setStack_grout (z : Nat) (l : List (Nat × BitVec 384)) (s : State) : (setStack z l s).grout = s.grout := (rfl)
@[simp] theorem setStack_sort (z : Nat) (l : List (Nat × BitVec 384)) (s : State) : (setStack z l s).sort = s.sort := (rfl)
@[simp] theorem setStack_kiln (z : Nat) (l : List (Nat × BitVec 384)) (s : State) : (setStack z l s).kiln = s.kiln := (rfl)
@[simp] theorem setStack_sec (z : Nat) (l : List (Nat × BitVec 384)) (s : State) : (setStack z l s).sec = s.sec := (rfl)
@[simp] theorem setStack_hod (z : Nat) (l : List (Nat × BitVec 384)) (s : State) : (setStack z l s).hod = s.hod := (rfl)
@[simp] theorem setStack_mems (z : Nat) (l : List (Nat × BitVec 384)) (s : State) : (setStack z l s).mems = s.mems := (rfl)
@[simp] theorem setStack_top (z : Nat) (l : List (Nat × BitVec 384)) (s : State) : (setStack z l s).top = s.top := (rfl)
@[simp] theorem setStack_errHeld (z : Nat) (l : List (Nat × BitVec 384)) (s : State) : (setStack z l s).errHeld = s.errHeld := (rfl)
@[simp] theorem setStack_msixDue (z : Nat) (l : List (Nat × BitVec 384)) (s : State) : (setStack z l s).msixDue = s.msixDue := (rfl)
@[simp] theorem setStack_msixBeat (z : Nat) (l : List (Nat × BitVec 384)) (s : State) : (setStack z l s).msixBeat = s.msixBeat := (rfl)
@[simp] theorem setStack_out (z : Nat) (l : List (Nat × BitVec 384)) (s : State) : (setStack z l s).out = s.out := (rfl)
@[simp] theorem setStack_freeCtr (z : Nat) (l : List (Nat × BitVec 384)) (s : State) : (setStack z l s).freeCtr = s.freeCtr := (rfl)

/-! ### What a table reads after its own update -/

@[simp] theorem getFn_setFn (fn : Nat) (v : Fn) (s : State) : getFn (setFn fn v s) fn = v := tget_tset_same _ _ _ _
@[simp] theorem getSq_setSq (fn qid : Nat) (v : Sq) (s : State) : getSq (setSq fn qid v s) fn qid = v := tget_tset_same _ _ _ _
@[simp] theorem getCq_setCq (fn qid : Nat) (v : Cq) (s : State) : getCq (setCq fn qid v s) fn qid = v := tget_tset_same _ _ _ _
@[simp] theorem getCmd_setCmd (i : Nat) (c : Cmd) (s : State) : getCmd (setCmd i c s) i = c := tget_tset_same _ _ _ _
@[simp] theorem getNs_setNs (n : Nat) (v : Ns) (s : State) : getNs (setNs n v s) n = v := tget_tset_same _ _ _ _
@[simp] theorem getConn_setConn (c : Conn) (v : SpdmSt) (s : State) : getConn (setConn c v s) c = v := tget_tset_same _ _ _ _
@[simp] theorem getBrick_setBrick (k : Nat) (v : Brick) (s : State) : getBrick (setBrick k v s) k = v := tget_tset_same _ _ _ _
@[simp] theorem getCourse_setCourse (c : Nat) (v : Course) (s : State) : getCourse (setCourse c v s) c = v := tget_tset_same _ _ _ _
@[simp] theorem getSlot_setSlot (k : Nat) (v : Slot) (s : State) : getSlot (setSlot k v s) k = v := tget_tset_same _ _ _ _
@[simp] theorem getCtx_setCtx (i : Nat) (v : Ctx) (s : State) : getCtx (setCtx i v s) i = v := tget_tset_same _ _ _ _
@[simp] theorem getLine_setLine (l : Nat) (x : BitVec 512) (s : State) : getLine (setLine l x s) l = x := tget_tset_same _ _ _ _
@[simp] theorem getZone_setZone (nsid z : Nat) (v : Zone) (s : State) : getZone (setZone nsid z v s) nsid z = v := tget_tset_same _ _ _ _
@[simp] theorem getLun_setLun (ch lun : Nat) (v : Lun) (s : State) : getLun (setLun ch lun v s) ch lun = v := tget_tset_same _ _ _ _
@[simp] theorem getRd_setRd (i : Nat) (v : Rd) (s : State) : getRd (setRd i v s) i = v := tget_tset_same _ _ _ _
@[simp] theorem getBuf_setBuf (u : PlanUnit) (b : Nat) (v : PlanBuf) (s : State) : getBuf (setBuf u b v s) u b = v := tget_tset_same _ _ _ _
@[simp] theorem getMem_setMem (m : Nat) (v : MemSt) (s : State) : getMem (setMem m v s) m = v := tget_tset_same _ _ _ _

end Sys2Proof.Machine
end

