-- ==== Sys2Proof/Laws/Regs.lean ====
section
/-!
SUPPORT. Laws/Regs.lean: what a register and a field read after a write, that a write keeps the register table in its
canonical form, and what the shared event operations can do to the registers.
-/

namespace Sys2Proof.Machine

/-! ## Registers -/

theorem rd_setR (a b v : Nat) (s : State) : rd (setR b v s) a = if a = b then BitVec.ofNat 32 v else rd s a :=
  tget_tset _ _ _ _ _

@[simp] theorem rd_setR_same (a v : Nat) (s : State) : rd (setR a v s) a = BitVec.ofNat 32 v := by simp [rd_setR]

theorem rd_setR_ne {a b : Nat} (v : Nat) (s : State) (h : a ≠ b) : rd (setR b v s) a = rd s a := by simp [rd_setR, h]

@[simp] theorem getR_setR_same (a v : Nat) (s : State) : getR (setR a v s) a = v % 2 ^ 32 := by simp [getR]

theorem getR_setR_ne {a b : Nat} (v : Nat) (s : State) (h : a ≠ b) : getR (setR b v s) a = getR s a := by
  simp [getR, rd_setR_ne v s h]

theorem getR_lt (s : State) (a : Nat) : getR s a < 2 ^ 32 := (rd s a).isLt

/-- The field lies in its register. -/
def Fld.ok (f : Fld) : Prop := f.lo + f.w ≤ 32

theorem getR_setF_same (f : Fld) (v : Nat) (s : State) (h : f.ok) :
    getR (setF f v s) f.addr = putBits (getR s f.addr) f.lo f.w v := by
  unfold setF
  rw [getR_setR_same]
  exact Nat.mod_eq_of_lt (putBits_lt _ _ _ _ _ (getR_lt _ _) h)

/-- A field reads what was written to it, cut to its width. -/
theorem getF_setF_same (f : Fld) (v : Nat) (s : State) (h : f.ok) : getF (setF f v s) f = v % 2 ^ f.w := by
  unfold getF
  rw [getR_setF_same f v s h, bitsOf_putBits]

theorem rd_setF_ne {a : Nat} (f : Fld) (v : Nat) (s : State) (h : a ≠ f.addr) : rd (setF f v s) a = rd s a :=
  rd_setR_ne _ _ h

theorem getR_setF_ne {a : Nat} (f : Fld) (v : Nat) (s : State) (h : a ≠ f.addr) : getR (setF f v s) a = getR s a :=
  getR_setR_ne _ _ h

/-- A field of another register stays. -/
theorem getF_setF_ne (f g : Fld) (v : Nat) (s : State) (h : f.addr ≠ g.addr) : getF (setF g v s) f = getF s f := by
  unfold getF
  rw [getR_setF_ne g v s h]

theorem getF_setR_ne (f : Fld) (a v : Nat) (s : State) (h : f.addr ≠ a) : getF (setR a v s) f = getF s f := by
  unfold getF
  rw [getR_setR_ne v s h]

/-- Another field of the same register stays. -/
theorem getF_setF_apart (f g : Fld) (v : Nat) (s : State) (hg : g.ok)
    (h : f.lo + f.w ≤ g.lo ∨ g.lo + g.w ≤ f.lo) : getF (setF g v s) f = getF s f := by
  by_cases ha : f.addr = g.addr
  · unfold getF
    rw [ha, getR_setF_same g v s hg]
    rcases h with h | h
    · exact bitsOf_putBits_below _ _ _ _ _ _ h
    · exact bitsOf_putBits_above _ _ _ _ _ _ h
  · exact getF_setF_ne f g v s ha

theorem getF_lt (s : State) (f : Fld) : getF s f < 2 ^ f.w := bitsOf_lt _ _ _

theorem rd_addF_ne {a : Nat} (f : Fld) (n : Nat) (s : State) (h : a ≠ f.addr) : rd (addF f n s) a = rd s a :=
  rd_setF_ne _ _ _ h

theorem rd_maxF_ne {a : Nat} (f : Fld) (n : Nat) (s : State) (h : a ≠ f.addr) : rd (maxF f n s) a = rd s a :=
  rd_setF_ne _ _ _ h

/-- A counter rises by `n` and stays at its largest value. -/
theorem getF_addF_same (f : Fld) (n : Nat) (s : State) (h : f.ok) :
    getF (addF f n s) f = min (2 ^ f.w - 1) (getF s f + n) := by
  unfold addF
  rw [getF_setF_same f _ s h]
  exact Nat.mod_eq_of_lt (lt_of_le_of_lt (min_le_left _ _) (Nat.sub_lt (by positivity) Nat.one_pos))

theorem getF_of_rd {s t : State} {f : Fld} (h : rd t f.addr = rd s f.addr) : getF t f = getF s f := by
  simp [getF, getR, h]

@[simp] theorem rd_emit (a : Nat) (o : Out) (s : State) : rd (emit o s) a = rd s a := (rfl)
@[simp] theorem rd_tick (a : Nat) (s : State) : rd (tick s) a = rd s a := (rfl)

/-! ## The canonical form of the register table -/

theorem regsWf_setR (a v : Nat) (s : State) (h : regsWf s = true) : regsWf (setR a v s) = true := twf_tset _ _ _ _ h
theorem regsWf_setF (f : Fld) (v : Nat) (s : State) (h : regsWf s = true) : regsWf (setF f v s) = true :=
  regsWf_setR _ _ _ h

/-! ## Events -/

/-- The registers that a record request can change. -/
theorem rd_request (src typ : Nat) (fo co : Bool) (l : List Byte) (s : State) (a : Nat) (h : a ≠ Reg.EVT_INTAKE) :
    rd (request src typ fo co l s) a = rd s a := by
  unfold request
  split
  · rfl
  · split
    · rfl
    · exact rd_maxF_ne _ _ _ h

theorem rd_onAssert (src : Nat) (s : State) (a : Nat) : rd (onAssert src s) a = rd s a := by
  unfold onAssert
  split <;> rfl

/-- An occurrence changes its source's count and the intake's peak, and no other register. -/
theorem rd_occur (src typ : Nat) (fo was : Bool) (l : List Byte) (s : State) (a : Nat)
    (h1 : a ≠ Reg.EVT_COUNT src) (h2 : a ≠ Reg.EVT_INTAKE) : rd (occur src typ fo was l s) a = rd s a := by
  have h0 : rd (addF (F.EVT_COUNT_COUNT src) 1 s) a = rd s a := rd_addF_ne _ _ _ h1
  unfold occur
  dsimp only
  split
  · split
    · rw [rd_request _ _ _ _ _ _ _ h2, h0]
    · exact h0
  · rw [rd_onAssert]
    split
    · rw [rd_request _ _ _ _ _ _ _ h2, h0]
    · exact h0

/-- A happening changes its page's EVT_RAW and EVT_PEND, its source's count and the intake's peak, and no other register. -/
theorem rd_happenAs (base i typ : Nat) (x : List Byte) (fo : Bool) (s : State) (a : Nat) (h1 : a ≠ Reg.EVT_RAW base)
    (h2 : a ≠ Reg.EVT_PEND base) (h3 : a ≠ Reg.EVT_COUNT (srcOf base i)) (h4 : a ≠ Reg.EVT_INTAKE) :
    rd (happenAs base i typ x fo s) a = rd s a := by
  have h0 : rd (setF (bitF (Reg.EVT_RAW base) i) 1 s) a = rd s a := rd_setF_ne _ _ _ h1
  unfold happenAs
  dsimp only
  split
  · rw [rd_occur _ _ _ _ _ _ _ h3 h4]
    exact (rd_setF_ne _ _ _ h2).trans h0
  · exact h0

theorem rd_happen (base i : Nat) (s : State) (a : Nat) (h1 : a ≠ Reg.EVT_RAW base)
    (h2 : a ≠ Reg.EVT_PEND base) (h3 : a ≠ Reg.EVT_COUNT (srcOf base i)) (h4 : a ≠ Reg.EVT_INTAKE) :
    rd (happen base i s) a = rd s a := rd_happenAs base i 0 [] false s a h1 h2 h3 h4

/-- An error that is noted changes its page's ERR_INFO and ERR_ADDR, and no other register. -/
theorem rd_noteErr (base code detail addr : Nat) (s : State) (a : Nat) (h1 : a ≠ Reg.ERR_INFO base)
    (h2 : a ≠ Reg.ERR_ADDR_LO base) (h3 : a ≠ Reg.ERR_ADDR_HI base) : rd (noteErr base code detail addr s) a = rd s a := by
  unfold noteErr
  split
  · exact rd_setF_ne _ _ _ h1
  · rw [rd_setR_ne _ _ h3, rd_setR_ne _ _ h2]
    exact (rd_setF_ne _ _ _ h1).trans (rd_setF_ne _ _ _ h1)

end Sys2Proof.Machine
end

