-- ==== Sys2Proof/Laws/Events.lean ====
section
/-!
SUPPORT. Laws/Events.lean: what the shared event operations leave, and that a happening sets its bit.
-/

namespace Sys2Proof.Machine

@[simp] theorem request_pending (src typ : Nat) (fo co : Bool) (l : List Byte) (s : State) :
    (request src typ fo co l s).pending = s.pending := by
  unfold request; split <;> [rfl; (split <;> [rfl; simp])]
@[simp] theorem onAssert_pending (src : Nat) (s : State) : (onAssert src s).pending = s.pending := by
  unfold onAssert; split <;> rfl
@[simp] theorem occur_pending (src typ : Nat) (fo was : Bool) (l : List Byte) (s : State) :
    (occur src typ fo was l s).pending = s.pending := by
  unfold occur; dsimp only; split <;> [skip; rw [onAssert_pending]] <;> split <;> simp
@[simp] theorem happenAs_pending (base i typ : Nat) (x : List Byte) (fo : Bool) (s : State) :
    (happenAs base i typ x fo s).pending = s.pending := by
  unfold happenAs; dsimp only; split <;> simp
@[simp] theorem happen_pending (base i : Nat) (s : State) : (happen base i s).pending = s.pending := happenAs_pending _ _ _ _ _ _

@[simp] theorem noteErr_pending (base code detail addr : Nat) (s : State) : (noteErr base code detail addr s).pending = s.pending := by
  unfold noteErr; split <;> simp
@[simp] theorem happenTile_pending (t i : Nat) (s : State) : (happenTile t i s).pending = s.pending := by simp [happenTile]
@[simp] theorem happenCause_pending (base i cause en bit : Nat) (s : State) : (happenCause base i cause en bit s).pending = s.pending := by
  unfold happenCause; dsimp only; split <;> simp

@[simp] theorem request_beat (src typ : Nat) (fo co : Bool) (l : List Byte) (s : State) :
    (request src typ fo co l s).beat = s.beat := by
  unfold request; split <;> [rfl; (split <;> [rfl; simp])]
@[simp] theorem onAssert_beat (src : Nat) (s : State) : (onAssert src s).beat = s.beat := by
  unfold onAssert; split <;> rfl
@[simp] theorem occur_beat (src typ : Nat) (fo was : Bool) (l : List Byte) (s : State) :
    (occur src typ fo was l s).beat = s.beat := by
  unfold occur; dsimp only; split <;> [skip; rw [onAssert_beat]] <;> split <;> simp
@[simp] theorem happenAs_beat (base i typ : Nat) (x : List Byte) (fo : Bool) (s : State) :
    (happenAs base i typ x fo s).beat = s.beat := by
  unfold happenAs; dsimp only; split <;> simp
@[simp] theorem happen_beat (base i : Nat) (s : State) : (happen base i s).beat = s.beat := happenAs_beat _ _ _ _ _ _

@[simp] theorem noteErr_beat (base code detail addr : Nat) (s : State) : (noteErr base code detail addr s).beat = s.beat := by
  unfold noteErr; split <;> simp
@[simp] theorem happenTile_beat (t i : Nat) (s : State) : (happenTile t i s).beat = s.beat := by simp [happenTile]
@[simp] theorem happenCause_beat (base i cause en bit : Nat) (s : State) : (happenCause base i cause en bit s).beat = s.beat := by
  unfold happenCause; dsimp only; split <;> simp

@[simp] theorem request_tiles (src typ : Nat) (fo co : Bool) (l : List Byte) (s : State) :
    (request src typ fo co l s).tiles = s.tiles := by
  unfold request; split <;> [rfl; (split <;> [rfl; simp])]
@[simp] theorem onAssert_tiles (src : Nat) (s : State) : (onAssert src s).tiles = s.tiles := by
  unfold onAssert; split <;> rfl
@[simp] theorem occur_tiles (src typ : Nat) (fo was : Bool) (l : List Byte) (s : State) :
    (occur src typ fo was l s).tiles = s.tiles := by
  unfold occur; dsimp only; split <;> [skip; rw [onAssert_tiles]] <;> split <;> simp
@[simp] theorem happenAs_tiles (base i typ : Nat) (x : List Byte) (fo : Bool) (s : State) :
    (happenAs base i typ x fo s).tiles = s.tiles := by
  unfold happenAs; dsimp only; split <;> simp
@[simp] theorem happen_tiles (base i : Nat) (s : State) : (happen base i s).tiles = s.tiles := happenAs_tiles _ _ _ _ _ _

@[simp] theorem noteErr_tiles (base code detail addr : Nat) (s : State) : (noteErr base code detail addr s).tiles = s.tiles := by
  unfold noteErr; split <;> simp
@[simp] theorem happenTile_tiles (t i : Nat) (s : State) : (happenTile t i s).tiles = s.tiles := by simp [happenTile]
@[simp] theorem happenCause_tiles (base i cause en bit : Nat) (s : State) : (happenCause base i cause en bit s).tiles = s.tiles := by
  unfold happenCause; dsimp only; split <;> simp

@[simp] theorem request_host (src typ : Nat) (fo co : Bool) (l : List Byte) (s : State) :
    (request src typ fo co l s).host = s.host := by
  unfold request; split <;> [rfl; (split <;> [rfl; simp])]
@[simp] theorem onAssert_host (src : Nat) (s : State) : (onAssert src s).host = s.host := by
  unfold onAssert; split <;> rfl
@[simp] theorem occur_host (src typ : Nat) (fo was : Bool) (l : List Byte) (s : State) :
    (occur src typ fo was l s).host = s.host := by
  unfold occur; dsimp only; split <;> [skip; rw [onAssert_host]] <;> split <;> simp
@[simp] theorem happenAs_host (base i typ : Nat) (x : List Byte) (fo : Bool) (s : State) :
    (happenAs base i typ x fo s).host = s.host := by
  unfold happenAs; dsimp only; split <;> simp
@[simp] theorem happen_host (base i : Nat) (s : State) : (happen base i s).host = s.host := happenAs_host _ _ _ _ _ _

@[simp] theorem noteErr_host (base code detail addr : Nat) (s : State) : (noteErr base code detail addr s).host = s.host := by
  unfold noteErr; split <;> simp
@[simp] theorem happenTile_host (t i : Nat) (s : State) : (happenTile t i s).host = s.host := by simp [happenTile]
@[simp] theorem happenCause_host (base i cause en bit : Nat) (s : State) : (happenCause base i cause en bit s).host = s.host := by
  unfold happenCause; dsimp only; split <;> simp

@[simp] theorem request_map (src typ : Nat) (fo co : Bool) (l : List Byte) (s : State) :
    (request src typ fo co l s).map = s.map := by
  unfold request; split <;> [rfl; (split <;> [rfl; simp])]
@[simp] theorem onAssert_map (src : Nat) (s : State) : (onAssert src s).map = s.map := by
  unfold onAssert; split <;> rfl
@[simp] theorem occur_map (src typ : Nat) (fo was : Bool) (l : List Byte) (s : State) :
    (occur src typ fo was l s).map = s.map := by
  unfold occur; dsimp only; split <;> [skip; rw [onAssert_map]] <;> split <;> simp
@[simp] theorem happenAs_map (base i typ : Nat) (x : List Byte) (fo : Bool) (s : State) :
    (happenAs base i typ x fo s).map = s.map := by
  unfold happenAs; dsimp only; split <;> simp
@[simp] theorem happen_map (base i : Nat) (s : State) : (happen base i s).map = s.map := happenAs_map _ _ _ _ _ _

@[simp] theorem noteErr_map (base code detail addr : Nat) (s : State) : (noteErr base code detail addr s).map = s.map := by
  unfold noteErr; split <;> simp
@[simp] theorem happenTile_map (t i : Nat) (s : State) : (happenTile t i s).map = s.map := by simp [happenTile]
@[simp] theorem happenCause_map (base i cause en bit : Nat) (s : State) : (happenCause base i cause en bit s).map = s.map := by
  unfold happenCause; dsimp only; split <;> simp

@[simp] theorem request_trowel (src typ : Nat) (fo co : Bool) (l : List Byte) (s : State) :
    (request src typ fo co l s).trowel = s.trowel := by
  unfold request; split <;> [rfl; (split <;> [rfl; simp])]
@[simp] theorem onAssert_trowel (src : Nat) (s : State) : (onAssert src s).trowel = s.trowel := by
  unfold onAssert; split <;> rfl
@[simp] theorem occur_trowel (src typ : Nat) (fo was : Bool) (l : List Byte) (s : State) :
    (occur src typ fo was l s).trowel = s.trowel := by
  unfold occur; dsimp only; split <;> [skip; rw [onAssert_trowel]] <;> split <;> simp
@[simp] theorem happenAs_trowel (base i typ : Nat) (x : List Byte) (fo : Bool) (s : State) :
    (happenAs base i typ x fo s).trowel = s.trowel := by
  unfold happenAs; dsimp only; split <;> simp
@[simp] theorem happen_trowel (base i : Nat) (s : State) : (happen base i s).trowel = s.trowel := happenAs_trowel _ _ _ _ _ _

@[simp] theorem noteErr_trowel (base code detail addr : Nat) (s : State) : (noteErr base code detail addr s).trowel = s.trowel := by
  unfold noteErr; split <;> simp
@[simp] theorem happenTile_trowel (t i : Nat) (s : State) : (happenTile t i s).trowel = s.trowel := by simp [happenTile]
@[simp] theorem happenCause_trowel (base i cause en bit : Nat) (s : State) : (happenCause base i cause en bit s).trowel = s.trowel := by
  unfold happenCause; dsimp only; split <;> simp

@[simp] theorem request_grout (src typ : Nat) (fo co : Bool) (l : List Byte) (s : State) :
    (request src typ fo co l s).grout = s.grout := by
  unfold request; split <;> [rfl; (split <;> [rfl; simp])]
@[simp] theorem onAssert_grout (src : Nat) (s : State) : (onAssert src s).grout = s.grout := by
  unfold onAssert; split <;> rfl
@[simp] theorem occur_grout (src typ : Nat) (fo was : Bool) (l : List Byte) (s : State) :
    (occur src typ fo was l s).grout = s.grout := by
  unfold occur; dsimp only; split <;> [skip; rw [onAssert_grout]] <;> split <;> simp
@[simp] theorem happenAs_grout (base i typ : Nat) (x : List Byte) (fo : Bool) (s : State) :
    (happenAs base i typ x fo s).grout = s.grout := by
  unfold happenAs; dsimp only; split <;> simp
@[simp] theorem happen_grout (base i : Nat) (s : State) : (happen base i s).grout = s.grout := happenAs_grout _ _ _ _ _ _

@[simp] theorem noteErr_grout (base code detail addr : Nat) (s : State) : (noteErr base code detail addr s).grout = s.grout := by
  unfold noteErr; split <;> simp
@[simp] theorem happenTile_grout (t i : Nat) (s : State) : (happenTile t i s).grout = s.grout := by simp [happenTile]
@[simp] theorem happenCause_grout (base i cause en bit : Nat) (s : State) : (happenCause base i cause en bit s).grout = s.grout := by
  unfold happenCause; dsimp only; split <;> simp

@[simp] theorem request_mac (src typ : Nat) (fo co : Bool) (l : List Byte) (s : State) :
    (request src typ fo co l s).mac = s.mac := by
  unfold request; split <;> [rfl; (split <;> [rfl; simp])]
@[simp] theorem onAssert_mac (src : Nat) (s : State) : (onAssert src s).mac = s.mac := by
  unfold onAssert; split <;> rfl
@[simp] theorem occur_mac (src typ : Nat) (fo was : Bool) (l : List Byte) (s : State) :
    (occur src typ fo was l s).mac = s.mac := by
  unfold occur; dsimp only; split <;> [skip; rw [onAssert_mac]] <;> split <;> simp
@[simp] theorem happenAs_mac (base i typ : Nat) (x : List Byte) (fo : Bool) (s : State) :
    (happenAs base i typ x fo s).mac = s.mac := by
  unfold happenAs; dsimp only; split <;> simp
@[simp] theorem happen_mac (base i : Nat) (s : State) : (happen base i s).mac = s.mac := happenAs_mac _ _ _ _ _ _

@[simp] theorem noteErr_mac (base code detail addr : Nat) (s : State) : (noteErr base code detail addr s).mac = s.mac := by
  unfold noteErr; split <;> simp
@[simp] theorem happenTile_mac (t i : Nat) (s : State) : (happenTile t i s).mac = s.mac := by simp [happenTile]
@[simp] theorem happenCause_mac (base i cause en bit : Nat) (s : State) : (happenCause base i cause en bit s).mac = s.mac := by
  unfold happenCause; dsimp only; split <;> simp

@[simp] theorem request_sort (src typ : Nat) (fo co : Bool) (l : List Byte) (s : State) :
    (request src typ fo co l s).sort = s.sort := by
  unfold request; split <;> [rfl; (split <;> [rfl; simp])]
@[simp] theorem onAssert_sort (src : Nat) (s : State) : (onAssert src s).sort = s.sort := by
  unfold onAssert; split <;> rfl
@[simp] theorem occur_sort (src typ : Nat) (fo was : Bool) (l : List Byte) (s : State) :
    (occur src typ fo was l s).sort = s.sort := by
  unfold occur; dsimp only; split <;> [skip; rw [onAssert_sort]] <;> split <;> simp
@[simp] theorem happenAs_sort (base i typ : Nat) (x : List Byte) (fo : Bool) (s : State) :
    (happenAs base i typ x fo s).sort = s.sort := by
  unfold happenAs; dsimp only; split <;> simp
@[simp] theorem happen_sort (base i : Nat) (s : State) : (happen base i s).sort = s.sort := happenAs_sort _ _ _ _ _ _

@[simp] theorem noteErr_sort (base code detail addr : Nat) (s : State) : (noteErr base code detail addr s).sort = s.sort := by
  unfold noteErr; split <;> simp
@[simp] theorem happenTile_sort (t i : Nat) (s : State) : (happenTile t i s).sort = s.sort := by simp [happenTile]
@[simp] theorem happenCause_sort (base i cause en bit : Nat) (s : State) : (happenCause base i cause en bit s).sort = s.sort := by
  unfold happenCause; dsimp only; split <;> simp

@[simp] theorem request_kiln (src typ : Nat) (fo co : Bool) (l : List Byte) (s : State) :
    (request src typ fo co l s).kiln = s.kiln := by
  unfold request; split <;> [rfl; (split <;> [rfl; simp])]
@[simp] theorem onAssert_kiln (src : Nat) (s : State) : (onAssert src s).kiln = s.kiln := by
  unfold onAssert; split <;> rfl
@[simp] theorem occur_kiln (src typ : Nat) (fo was : Bool) (l : List Byte) (s : State) :
    (occur src typ fo was l s).kiln = s.kiln := by
  unfold occur; dsimp only; split <;> [skip; rw [onAssert_kiln]] <;> split <;> simp
@[simp] theorem happenAs_kiln (base i typ : Nat) (x : List Byte) (fo : Bool) (s : State) :
    (happenAs base i typ x fo s).kiln = s.kiln := by
  unfold happenAs; dsimp only; split <;> simp
@[simp] theorem happen_kiln (base i : Nat) (s : State) : (happen base i s).kiln = s.kiln := happenAs_kiln _ _ _ _ _ _

@[simp] theorem noteErr_kiln (base code detail addr : Nat) (s : State) : (noteErr base code detail addr s).kiln = s.kiln := by
  unfold noteErr; split <;> simp
@[simp] theorem happenTile_kiln (t i : Nat) (s : State) : (happenTile t i s).kiln = s.kiln := by simp [happenTile]
@[simp] theorem happenCause_kiln (base i cause en bit : Nat) (s : State) : (happenCause base i cause en bit s).kiln = s.kiln := by
  unfold happenCause; dsimp only; split <;> simp

@[simp] theorem request_sec (src typ : Nat) (fo co : Bool) (l : List Byte) (s : State) :
    (request src typ fo co l s).sec = s.sec := by
  unfold request; split <;> [rfl; (split <;> [rfl; simp])]
@[simp] theorem onAssert_sec (src : Nat) (s : State) : (onAssert src s).sec = s.sec := by
  unfold onAssert; split <;> rfl
@[simp] theorem occur_sec (src typ : Nat) (fo was : Bool) (l : List Byte) (s : State) :
    (occur src typ fo was l s).sec = s.sec := by
  unfold occur; dsimp only; split <;> [skip; rw [onAssert_sec]] <;> split <;> simp
@[simp] theorem happenAs_sec (base i typ : Nat) (x : List Byte) (fo : Bool) (s : State) :
    (happenAs base i typ x fo s).sec = s.sec := by
  unfold happenAs; dsimp only; split <;> simp
@[simp] theorem happen_sec (base i : Nat) (s : State) : (happen base i s).sec = s.sec := happenAs_sec _ _ _ _ _ _

@[simp] theorem noteErr_sec (base code detail addr : Nat) (s : State) : (noteErr base code detail addr s).sec = s.sec := by
  unfold noteErr; split <;> simp
@[simp] theorem happenTile_sec (t i : Nat) (s : State) : (happenTile t i s).sec = s.sec := by simp [happenTile]
@[simp] theorem happenCause_sec (base i cause en bit : Nat) (s : State) : (happenCause base i cause en bit s).sec = s.sec := by
  unfold happenCause; dsimp only; split <;> simp

@[simp] theorem request_hod (src typ : Nat) (fo co : Bool) (l : List Byte) (s : State) :
    (request src typ fo co l s).hod = s.hod := by
  unfold request; split <;> [rfl; (split <;> [rfl; simp])]
@[simp] theorem onAssert_hod (src : Nat) (s : State) : (onAssert src s).hod = s.hod := by
  unfold onAssert; split <;> rfl
@[simp] theorem occur_hod (src typ : Nat) (fo was : Bool) (l : List Byte) (s : State) :
    (occur src typ fo was l s).hod = s.hod := by
  unfold occur; dsimp only; split <;> [skip; rw [onAssert_hod]] <;> split <;> simp
@[simp] theorem happenAs_hod (base i typ : Nat) (x : List Byte) (fo : Bool) (s : State) :
    (happenAs base i typ x fo s).hod = s.hod := by
  unfold happenAs; dsimp only; split <;> simp
@[simp] theorem happen_hod (base i : Nat) (s : State) : (happen base i s).hod = s.hod := happenAs_hod _ _ _ _ _ _

@[simp] theorem noteErr_hod (base code detail addr : Nat) (s : State) : (noteErr base code detail addr s).hod = s.hod := by
  unfold noteErr; split <;> simp
@[simp] theorem happenTile_hod (t i : Nat) (s : State) : (happenTile t i s).hod = s.hod := by simp [happenTile]
@[simp] theorem happenCause_hod (base i cause en bit : Nat) (s : State) : (happenCause base i cause en bit s).hod = s.hod := by
  unfold happenCause; dsimp only; split <;> simp

@[simp] theorem request_mems (src typ : Nat) (fo co : Bool) (l : List Byte) (s : State) :
    (request src typ fo co l s).mems = s.mems := by
  unfold request; split <;> [rfl; (split <;> [rfl; simp])]
@[simp] theorem onAssert_mems (src : Nat) (s : State) : (onAssert src s).mems = s.mems := by
  unfold onAssert; split <;> rfl
@[simp] theorem occur_mems (src typ : Nat) (fo was : Bool) (l : List Byte) (s : State) :
    (occur src typ fo was l s).mems = s.mems := by
  unfold occur; dsimp only; split <;> [skip; rw [onAssert_mems]] <;> split <;> simp
@[simp] theorem happenAs_mems (base i typ : Nat) (x : List Byte) (fo : Bool) (s : State) :
    (happenAs base i typ x fo s).mems = s.mems := by
  unfold happenAs; dsimp only; split <;> simp
@[simp] theorem happen_mems (base i : Nat) (s : State) : (happen base i s).mems = s.mems := happenAs_mems _ _ _ _ _ _

@[simp] theorem noteErr_mems (base code detail addr : Nat) (s : State) : (noteErr base code detail addr s).mems = s.mems := by
  unfold noteErr; split <;> simp
@[simp] theorem happenTile_mems (t i : Nat) (s : State) : (happenTile t i s).mems = s.mems := by simp [happenTile]
@[simp] theorem happenCause_mems (base i cause en bit : Nat) (s : State) : (happenCause base i cause en bit s).mems = s.mems := by
  unfold happenCause; dsimp only; split <;> simp

@[simp] theorem request_top (src typ : Nat) (fo co : Bool) (l : List Byte) (s : State) :
    (request src typ fo co l s).top = s.top := by
  unfold request; split <;> [rfl; (split <;> [rfl; simp])]
@[simp] theorem onAssert_top (src : Nat) (s : State) : (onAssert src s).top = s.top := by
  unfold onAssert; split <;> rfl
@[simp] theorem occur_top (src typ : Nat) (fo was : Bool) (l : List Byte) (s : State) :
    (occur src typ fo was l s).top = s.top := by
  unfold occur; dsimp only; split <;> [skip; rw [onAssert_top]] <;> split <;> simp
@[simp] theorem happenAs_top (base i typ : Nat) (x : List Byte) (fo : Bool) (s : State) :
    (happenAs base i typ x fo s).top = s.top := by
  unfold happenAs; dsimp only; split <;> simp
@[simp] theorem happen_top (base i : Nat) (s : State) : (happen base i s).top = s.top := happenAs_top _ _ _ _ _ _

@[simp] theorem noteErr_top (base code detail addr : Nat) (s : State) : (noteErr base code detail addr s).top = s.top := by
  unfold noteErr; split <;> simp
@[simp] theorem happenTile_top (t i : Nat) (s : State) : (happenTile t i s).top = s.top := by simp [happenTile]
@[simp] theorem happenCause_top (base i cause en bit : Nat) (s : State) : (happenCause base i cause en bit s).top = s.top := by
  unfold happenCause; dsimp only; split <;> simp

@[simp] theorem request_errHeld (src typ : Nat) (fo co : Bool) (l : List Byte) (s : State) :
    (request src typ fo co l s).errHeld = s.errHeld := by
  unfold request; split <;> [rfl; (split <;> [rfl; simp])]
@[simp] theorem onAssert_errHeld (src : Nat) (s : State) : (onAssert src s).errHeld = s.errHeld := by
  unfold onAssert; split <;> rfl
@[simp] theorem occur_errHeld (src typ : Nat) (fo was : Bool) (l : List Byte) (s : State) :
    (occur src typ fo was l s).errHeld = s.errHeld := by
  unfold occur; dsimp only; split <;> [skip; rw [onAssert_errHeld]] <;> split <;> simp
@[simp] theorem happenAs_errHeld (base i typ : Nat) (x : List Byte) (fo : Bool) (s : State) :
    (happenAs base i typ x fo s).errHeld = s.errHeld := by
  unfold happenAs; dsimp only; split <;> simp
@[simp] theorem happen_errHeld (base i : Nat) (s : State) : (happen base i s).errHeld = s.errHeld := happenAs_errHeld _ _ _ _ _ _

@[simp] theorem request_msixBeat (src typ : Nat) (fo co : Bool) (l : List Byte) (s : State) :
    (request src typ fo co l s).msixBeat = s.msixBeat := by
  unfold request; split <;> [rfl; (split <;> [rfl; simp])]
@[simp] theorem onAssert_msixBeat (src : Nat) (s : State) : (onAssert src s).msixBeat = s.msixBeat := by
  unfold onAssert; split <;> rfl
@[simp] theorem occur_msixBeat (src typ : Nat) (fo was : Bool) (l : List Byte) (s : State) :
    (occur src typ fo was l s).msixBeat = s.msixBeat := by
  unfold occur; dsimp only; split <;> [skip; rw [onAssert_msixBeat]] <;> split <;> simp
@[simp] theorem happenAs_msixBeat (base i typ : Nat) (x : List Byte) (fo : Bool) (s : State) :
    (happenAs base i typ x fo s).msixBeat = s.msixBeat := by
  unfold happenAs; dsimp only; split <;> simp
@[simp] theorem happen_msixBeat (base i : Nat) (s : State) : (happen base i s).msixBeat = s.msixBeat := happenAs_msixBeat _ _ _ _ _ _

@[simp] theorem noteErr_msixBeat (base code detail addr : Nat) (s : State) : (noteErr base code detail addr s).msixBeat = s.msixBeat := by
  unfold noteErr; split <;> simp
@[simp] theorem happenTile_msixBeat (t i : Nat) (s : State) : (happenTile t i s).msixBeat = s.msixBeat := by simp [happenTile]
@[simp] theorem happenCause_msixBeat (base i cause en bit : Nat) (s : State) : (happenCause base i cause en bit s).msixBeat = s.msixBeat := by
  unfold happenCause; dsimp only; split <;> simp

@[simp] theorem request_out (src typ : Nat) (fo co : Bool) (l : List Byte) (s : State) :
    (request src typ fo co l s).out = s.out := by
  unfold request; split <;> [rfl; (split <;> [rfl; simp])]
@[simp] theorem onAssert_out (src : Nat) (s : State) : (onAssert src s).out = s.out := by
  unfold onAssert; split <;> rfl
@[simp] theorem occur_out (src typ : Nat) (fo was : Bool) (l : List Byte) (s : State) :
    (occur src typ fo was l s).out = s.out := by
  unfold occur; dsimp only; split <;> [skip; rw [onAssert_out]] <;> split <;> simp
@[simp] theorem happenAs_out (base i typ : Nat) (x : List Byte) (fo : Bool) (s : State) :
    (happenAs base i typ x fo s).out = s.out := by
  unfold happenAs; dsimp only; split <;> simp
@[simp] theorem happen_out (base i : Nat) (s : State) : (happen base i s).out = s.out := happenAs_out _ _ _ _ _ _

@[simp] theorem noteErr_out (base code detail addr : Nat) (s : State) : (noteErr base code detail addr s).out = s.out := by
  unfold noteErr; split <;> simp
@[simp] theorem happenTile_out (t i : Nat) (s : State) : (happenTile t i s).out = s.out := by simp [happenTile]
@[simp] theorem happenCause_out (base i cause en bit : Nat) (s : State) : (happenCause base i cause en bit s).out = s.out := by
  unfold happenCause; dsimp only; split <;> simp

/-- An occurrence leaves every EVT_RAW. -/
theorem raw_occur (src typ : Nat) (fo was : Bool) (l : List Byte) (s : State) (base i : Nat)
    (hs : src < 256) (hb : base % 0x1000 = 0) (hn : base ≠ 0x5000) :
    getF (occur src typ fo was l s) (bitF (Reg.EVT_RAW base) i) = getF s (bitF (Reg.EVT_RAW base) i) := by
  refine getF_of_rd (rd_occur _ _ _ _ _ _ _ ?_ ?_)
  · simp only [bitF, Reg.EVT_RAW, Reg.EVT_COUNT]; omega
  · simp only [bitF, Reg.EVT_RAW, Reg.EVT_INTAKE]; omega

/-- A happening sets its bit of EVT_RAW. -/
theorem raised_happen (base i : Nat) (s : State) (hs : srcOf base i < 256) (hb : base % 0x1000 = 0) (hn : base ≠ 0x5000)
    (hi : i < 32) :
    raised base i (happen base i s) = true := by
  have hok : (bitF (Reg.EVT_RAW base) i).ok := by simp only [Fld.ok, bitF]; omega
  have h0 : getF (setF (bitF (Reg.EVT_RAW base) i) 1 s) (bitF (Reg.EVT_RAW base) i) = 1 := by
    rw [getF_setF_same _ _ _ hok]; rfl
  have hp : (bitF (Reg.EVT_RAW base) i).addr ≠ (bitF (Reg.EVT_PEND base) i).addr := by
    simp only [bitF, Reg.EVT_RAW, Reg.EVT_PEND]; omega
  unfold raised
  rw [decide_eq_true_eq]
  unfold happen happenAs
  dsimp only
  split
  · rw [raw_occur _ _ _ _ _ _ _ _ hs hb hn, getF_setF_ne _ _ _ _ hp, h0]
  · exact h0

/-! ## Operations that only raise events -/

theorem changesOnly.refl (ps : List Part) (s : State) : changesOnly ps s s := ⟨rfl, fun p _ => by cases p <;> rfl⟩

theorem Part.same_trans {s t u : State} {p : Part} (h : p.same s t) (k : p.same t u) : p.same s u := by
  cases p <;> exact Eq.trans k h

theorem changesOnly.trans {ps : List Part} {s t u : State} (h : changesOnly ps s t) (k : changesOnly ps t u) :
    changesOnly ps s u := ⟨k.1.trans h.1, fun p hp => Part.same_trans (h.2 p hp) (k.2 p hp)⟩

theorem changesOnly.mono {ps qs : List Part} {s t : State} (h : changesOnly ps s t) (hq : ∀ p, p ∈ ps → p ∈ qs) :
    changesOnly qs s t := ⟨h.1, fun p hp => h.2 p (fun hm => hp (hq p hm))⟩

theorem changesOnly_setR (a v : Nat) (s : State) : changesOnly [.regs] s (setR a v s) :=
  ⟨rfl, fun p hp => by cases p <;> first | rfl | exact absurd (List.mem_cons_self ..) hp⟩

theorem evtOnly.refl (s : State) : evtOnly s s := ⟨.refl _ _, fun _ _ _ => rfl⟩

theorem evtOnly.trans {s t u : State} (h : evtOnly s t) (k : evtOnly t u) : evtOnly s u :=
  ⟨h.1.trans k.1, fun a ha he => (k.2 a ha he).trans (h.2 a ha he)⟩

theorem evtOnly.rd {s t : State} (h : evtOnly s t) {a : Nat} (ha : ¬ eventReg a) : rd t a = rd s a := h.2 a id ha

theorem evtOnly.getR {s t : State} (h : evtOnly s t) {a : Nat} (ha : ¬ eventReg a) : getR t a = getR s a :=
  congrArg BitVec.toNat (h.rd ha)

theorem evtOnly.getF {s t : State} (h : evtOnly s t) {f : Fld} (ha : ¬ eventReg f.addr) : getF t f = getF s f :=
  getF_of_rd (h.rd ha)

theorem evtOnly.part {s t : State} (h : evtOnly s t) {p : Part} (hp : p ∉ eventParts) : p.same s t := h.1.2 p hp

theorem evtOnly_request (src typ : Nat) (fo co : Bool) (l : List Byte) (s : State) : evtOnly s (request src typ fo co l s) := by
  refine ⟨⟨by simp, fun p hp => ?_⟩, fun a _ he => rd_request _ _ _ _ _ _ _ (fun e => he (Or.inr (Or.inr (Or.inr e))))⟩
  cases p <;> first | exact absurd (by decide) hp | simp [Part.same]

theorem evtOnly_onAssert (src : Nat) (s : State) : evtOnly s (onAssert src s) := by
  refine ⟨⟨by simp, fun p hp => ?_⟩, fun a _ _ => rd_onAssert _ _ _⟩
  cases p <;> first | exact absurd (by decide) hp | simp [Part.same]

theorem evtOnly_occur (src typ : Nat) (fo was : Bool) (l : List Byte) (s : State) (hs : src < 256) :
    evtOnly s (occur src typ fo was l s) := by
  refine ⟨⟨by simp, fun p hp => ?_⟩, fun a _ he => rd_occur _ _ _ _ _ _ _ (fun e => ?_) (fun e => ?_)⟩
  · cases p <;> first | exact absurd (by decide) hp | simp [Part.same]
  · exact he (by simp only [eventReg, Reg.EVT_COUNT, Reg.EVT_INTAKE] at *; omega)
  · exact he (Or.inr (Or.inr (Or.inr e)))

theorem evtOnly_happenAs (base i typ : Nat) (x : List Byte) (fo : Bool) (s : State) (hb : base % 0x1000 = 0)
    (hs : srcOf base i < 256) : evtOnly s (happenAs base i typ x fo s) := by
  refine ⟨⟨by simp, fun p hp => ?_⟩, fun a _ he => rd_happenAs _ _ _ _ _ _ _ (fun e => ?_) (fun e => ?_) (fun e => ?_) (fun e => ?_)⟩
  · cases p <;> first | exact absurd (by decide) hp | simp [Part.same]
  all_goals exact he (by simp only [eventReg, Reg.EVT_RAW, Reg.EVT_PEND, Reg.EVT_COUNT, Reg.EVT_INTAKE] at *; omega)

theorem evtOnly_happen (base i : Nat) (s : State) (hb : base % 0x1000 = 0) (hs : srcOf base i < 256) :
    evtOnly s (happen base i s) := evtOnly_happenAs _ _ _ _ _ _ hb hs

theorem evtOnly_anchor (reason : Nat) (s : State) : evtOnly s (anchor reason s) := by
  unfold anchor
  exact (evtOnly_request ..).trans (evtOnly_happen _ _ _ (by decide) (by decide))

theorem raised_anchor (reason : Nat) (s : State) : raised baseRec 5 (anchor reason s) = true := by
  unfold anchor
  exact raised_happen _ _ _ (by decide) (by decide) (by decide) (by decide)

theorem rd_congr {s t : State} (h : t.regs = s.regs) (a : Nat) : Machine.rd t a = Machine.rd s a := by
  unfold Machine.rd; rw [h]

/-- No event clears a bit of EVT_RAW. -/
theorem raised_happenAs_keep (base i base' j typ : Nat) (x : List Byte) (fo : Bool) (s : State) (hs : srcOf base' j < 256)
    (hb : base % 0x1000 = 0) (hb' : base' % 0x1000 = 0) (hn : base ≠ 0x5000) (hi : i < 32) (hj : j < 32)
    (h : raised base i s = true) : raised base i (happenAs base' j typ x fo s) = true := by
  have hok : (bitF (Reg.EVT_RAW base') j).ok := by simp only [Fld.ok, bitF]; omega
  have h0 : getF (setF (bitF (Reg.EVT_RAW base') j) 1 s) (bitF (Reg.EVT_RAW base) i) = 1 := by
    unfold raised at h
    rw [decide_eq_true_eq] at h
    by_cases hbb : base = base'
    · subst hbb
      by_cases hij : i = j
      · subst hij
        rw [getF_setF_same _ _ _ hok]; rfl
      · rw [getF_setF_apart _ _ _ _ hok]
        · exact h
        · simp only [bitF]; omega
    · rw [getF_setF_ne]
      · exact h
      · simp only [bitF, Reg.EVT_RAW]; omega
  have hp : (bitF (Reg.EVT_RAW base) i).addr ≠ (bitF (Reg.EVT_PEND base') j).addr := by
    simp only [bitF, Reg.EVT_RAW, Reg.EVT_PEND]; omega
  unfold raised
  rw [decide_eq_true_eq]
  unfold happenAs
  dsimp only
  split
  · rw [raw_occur _ _ _ _ _ _ _ _ hs hb hn, getF_setF_ne _ _ _ _ hp, h0]
  · exact h0

theorem raised_happen_keep (base i base' j : Nat) (s : State) (hs : srcOf base' j < 256)
    (hb : base % 0x1000 = 0) (hb' : base' % 0x1000 = 0) (hn : base ≠ 0x5000) (hi : i < 32) (hj : j < 32)
    (h : raised base i s = true) : raised base i (happen base' j s) = true :=
  raised_happenAs_keep _ _ _ _ _ _ _ _ hs hb hb' hn hi hj h

theorem raised_request (base i src typ : Nat) (fo co : Bool) (l : List Byte) (s : State) (hb : base % 0x1000 = 0)
    (h : raised base i s = true) : raised base i (request src typ fo co l s) = true := by
  unfold raised at *
  rw [decide_eq_true_eq] at *
  rw [← h]
  refine getF_of_rd (rd_request _ _ _ _ _ _ _ ?_)
  simp only [bitF, Reg.EVT_RAW, Reg.EVT_INTAKE]; omega

theorem raised_anchor_keep (base i reason : Nat) (s : State) (hb : base % 0x1000 = 0) (hn : base ≠ 0x5000) (hi : i < 32)
    (h : raised base i s = true) : raised base i (anchor reason s) = true := by
  unfold anchor
  exact raised_happen_keep _ _ _ _ _ (by decide) hb (by decide) hn hi (by decide) (raised_request _ _ _ _ _ _ _ _ hb h)

theorem raised_of_regs {s t : State} (base i : Nat) (h : t.regs = s.regs) : raised base i t = raised base i s := by
  unfold raised getF getR; rw [rd_congr h]

theorem changesOnly_of (ps : List Part) {s t : State} (h0 : t.pending = s.pending) (h : ∀ p, p ∉ ps → p.same s t) :
    changesOnly ps s t := ⟨h0, h⟩

theorem getR_setR_self (a v : Nat) (s : State) : Machine.getR (setR a v s) a = v % 2 ^ 32 := by
  simp [Machine.getR]

theorem writesReg_setR (a v : Nat) (s : State) : writesReg a v s (setR a v s) :=
  ⟨getR_setR_self .., fun _ h => rd_setR_ne _ _ h, changesOnly_setR ..⟩

theorem ne_evt {a : Nat} (h : a % 0x1000 ≠ 0x10 ∧ a % 0x1000 ≠ 0x18 ∧ ¬ (0x5000 ≤ a ∧ a < 0x5400) ∧ a ≠ 0x4110) :
    ¬ eventReg a := by
  rintro (h1 | h1 | h1 | h1)
  exacts [h.1 h1, h.2.1 h1, h.2.2.1 h1, h.2.2.2 h1]

theorem guarded_ok {p : Path} {a : Nat} {v : W32} {s : State} (f : State → State) (h : reach s a = .ok) :
    guarded p a v f s = f s := by
  unfold guarded; rw [h]

end Sys2Proof.Machine
end

