-- ==== Sys2Proof/Laws/Moves.lean ====
section
/-!
SUPPORT. Laws/Moves.lean: what holds across every operation of the model, as one relation, and how the relation passes
through the ways in which meanings are put together.
-/

namespace Sys2Proof.Machine

/-- What no operation breaks: the queue of commands is left alone, the counter of free values does not run back, and
the register table keeps its canonical form; and, for every operation but those of a beat boundary and of a start (`cc`),
BEAT_COUNT stands (R31). -/
def Moves (cc : Bool) (s t : State) : Prop :=
  t.pending = s.pending ∧ s.freeCtr ≤ t.freeCtr ∧ (regsWf s = true → regsWf t = true) ∧
    (cc = true → t.beat.count = s.beat.count)

theorem Moves.refl {cc : Bool} (s : State) : Moves cc s s := ⟨rfl, Nat.le_refl _, id, fun _ => rfl⟩

theorem Moves.trans {cc : Bool} {s t u : State} (h : Moves cc s t) (k : Moves cc t u) : Moves cc s u :=
  ⟨k.1.trans h.1, Nat.le_trans h.2.1 k.2.1, fun w => k.2.2.1 (h.2.2.1 w), fun c => (k.2.2.2 c).trans (h.2.2.2 c)⟩

/-- Parts other than the queue, the registers and the counter may change. -/
theorem Moves.mk {cc : Bool} {s y : State} (h : Moves cc s y) {beat : BeatSt} {recd : RecSt} {tiles : TileSt} {host : HostSt}
    {map : MapSt} {trowel : TrowelSt} {grout : GroutSt} {mac : MacSt} {sort : SortSt} {kiln : KilnSt} {sec : SecSt}
    {hod : HodSt} {mems : MemsSt} {top : TopSt} {errHeld msixDue : List Nat} {msixBeat : Tbl Nat} {out : List Out}
    (hb : cc = true → beat.count = y.beat.count) :
    Moves cc s ⟨y.pending, y.regs, beat, recd, tiles, host, map, trowel, grout, mac, sort, kiln, sec, hod, mems, top,
      errHeld, msixDue, msixBeat, out, y.freeCtr⟩ := h.trans ⟨rfl, Nat.le_refl _, id, hb⟩

theorem Moves.ite {cc : Bool} {s x y : State} {c : Prop} [Decidable c] (h : c → Moves cc s x) (k : ¬ c → Moves cc s y) :
    Moves cc s (if c then x else y) := by
  split
  · exact h ‹_›
  · exact k ‹_›

theorem Moves.foldl {cc : Bool} {α : Type} {s y : State} {g : State → α → State} {l : List α} (h : Moves cc s y)
    (hg : ∀ u x, Moves cc s u → Moves cc s (g u x)) : Moves cc s (l.foldl g y) := by
  induction l generalizing y with
  | nil => exact h
  | cons a l ih => exact ih (hg _ _ h)

theorem Moves.foldr {cc : Bool} {α : Type} {s y : State} {g : α → State → State} {l : List α} (h : Moves cc s y)
    (hg : ∀ x u, Moves cc s u → Moves cc s (g x u)) : Moves cc s (l.foldr g y) := by
  induction l with
  | nil => exact h
  | cons a l ih => exact hg _ _ ih

/-- An outcome moves from a state when the state it answers, if any, does. -/
def MovesR (cc : Bool) (s : State) (r : Host.Outcome State Fault Refusal) : Prop := ∀ t, r = .next t → Moves cc s t

theorem MovesR.next {cc : Bool} {s t : State} (h : Moves cc s t) : MovesR cc s (.next t) := fun _ e => by
  cases e
  exact h

theorem MovesR.fault {cc : Bool} {s : State} (f : Fault) : MovesR cc s (.fault f) := fun _ e => by cases e

theorem MovesR.ite {cc : Bool} {s : State} {c : Prop} [Decidable c] {x y : Host.Outcome State Fault Refusal}
    (h : c → MovesR cc s x) (k : ¬ c → MovesR cc s y) : MovesR cc s (if c then x else y) := by
  split
  · exact h ‹_›
  · exact k ‹_›

/-- The same of an answer that may be absent. -/
def MovesO (cc : Bool) (s : State) (o : Option State) : Prop := ∀ t, o = some t → Moves cc s t

theorem MovesO.some {cc : Bool} {s t : State} (h : Moves cc s t) : MovesO cc s (Option.some t) := fun _ e => by
  cases e
  exact h

theorem MovesO.none {cc : Bool} {s : State} : MovesO cc s Option.none := fun _ e => by cases e

theorem MovesO.ite {cc : Bool} {s : State} {c : Prop} [Decidable c] {x y : Option State}
    (h : c → MovesO cc s x) (k : ¬ c → MovesO cc s y) : MovesO cc s (if c then x else y) := by
  split
  · exact h ‹_›
  · exact k ‹_›

/-- The same of a pair, of a triple, and of a pair that may be absent. -/
def MovesP {α : Type} (cc : Bool) (s : State) (p : α × State) : Prop := ∀ a t, p = (a, t) → Moves cc s t

theorem MovesP.pair {cc : Bool} {α : Type} {a : α} {s t : State} (h : Moves cc s t) : MovesP cc s (a, t) := fun _ _ e => by
  cases e
  exact h

theorem MovesP.ite {cc : Bool} {α : Type} {s : State} {c : Prop} [Decidable c] {x y : α × State}
    (h : c → MovesP cc s x) (k : ¬ c → MovesP cc s y) : MovesP cc s (if c then x else y) := by
  split
  · exact h ‹_›
  · exact k ‹_›

theorem MovesP.snd {cc : Bool} {α : Type} {s : State} {p : α × State} (h : MovesP cc s p) : Moves cc s p.2 := h _ _ rfl

def MovesT {α β : Type} (cc : Bool) (s : State) (p : α × β × State) : Prop := ∀ a b t, p = (a, b, t) → Moves cc s t

theorem MovesT.trip {cc : Bool} {α β : Type} {a : α} {b : β} {s t : State} (h : Moves cc s t) : MovesT cc s (a, b, t) := fun _ _ _ e => by
  cases e
  exact h

theorem MovesT.ite {cc : Bool} {α β : Type} {s : State} {c : Prop} [Decidable c] {x y : α × β × State}
    (h : c → MovesT cc s x) (k : ¬ c → MovesT cc s y) : MovesT cc s (if c then x else y) := by
  split
  · exact h ‹_›
  · exact k ‹_›

theorem MovesT.snd {cc : Bool} {α β : Type} {s : State} {p : α × β × State} (h : MovesT cc s p) : Moves cc s p.2.2 := h _ _ _ rfl

def MovesQ {α : Type} (cc : Bool) (s : State) (o : Option (α × State)) : Prop := ∀ a t, o = Option.some (a, t) → Moves cc s t

theorem MovesQ.some {cc : Bool} {α : Type} {a : α} {s t : State} (h : Moves cc s t) : MovesQ cc s (Option.some (a, t)) := fun _ _ e => by
  cases e
  exact h

theorem MovesQ.none {cc : Bool} {α : Type} {s : State} : MovesQ cc s (Option.none : Option (α × State)) := fun _ _ e => by cases e

theorem MovesQ.ite {cc : Bool} {α : Type} {s : State} {c : Prop} [Decidable c] {x y : Option (α × State)}
    (h : c → MovesQ cc s x) (k : ¬ c → MovesQ cc s y) : MovesQ cc s (if c then x else y) := by
  split
  · exact h ‹_›
  · exact k ‹_›

theorem foldl_movesP {cc : Bool} {α β : Type} {s : State} {p : α × State} {g : α × State → β → α × State} {l : List β} (h : MovesP cc s p)
    (hg : ∀ q x, MovesP cc s q → MovesP cc s (g q x)) : MovesP cc s (l.foldl g p) := by
  induction l generalizing p with
  | nil => exact h
  | cons a l ih => exact ih (hg _ _ h)

theorem setR_moves {cc : Bool} {s0 : State} (a v : Nat) (s : State) (h : Moves cc s0 s) : Moves cc s0 (setR a v s) :=
  h.trans ⟨rfl, Nat.le_refl _, regsWf_setR a v s, fun _ => rfl⟩

theorem tick_moves {cc : Bool} {s0 : State} (s : State) (h : Moves cc s0 s) : Moves cc s0 (tick s) :=
  h.trans ⟨rfl, Nat.le_succ _, id, fun _ => rfl⟩

end Sys2Proof.Machine
end

