-- ==== Sys2Proof/Laws/Moves/Ops.lean ====
section
/-!
SUPPORT. Laws/Moves/Ops.lean: the operations of Machine/Ops.lean keep what `Moves` says.
-/

namespace Sys2Proof.Machine

theorem setF_moves {cc : Bool} {r0 : State} (f : Fld) (v : Nat) (s : State) (hm : Moves cc r0 s) :
    Moves cc r0 (setF f v s) := by
  unfold setF
  with_reducible repeat' first | assumption | apply setR_moves

theorem addF_moves {cc : Bool} {r0 : State} (f : Fld) (n : Nat) (s : State) (hm : Moves cc r0 s) :
    Moves cc r0 (addF f n s) := by
  unfold addF
  with_reducible repeat' first | assumption | apply setF_moves

theorem maxF_moves {cc : Bool} {r0 : State} (f : Fld) (v : Nat) (s : State) (hm : Moves cc r0 s) :
    Moves cc r0 (maxF f v s) := by
  unfold maxF
  with_reducible repeat' first | assumption | apply setF_moves

theorem emit_moves {cc : Bool} {r0 : State} (o : Out) (s : State) (hm : Moves cc r0 s) :
    Moves cc r0 (emit o s) := by
  unfold emit
  with_reducible repeat' first | exact fun _ => rfl | (apply Moves.mk; assumption)

theorem noteErr_moves {cc : Bool} {r0 : State} (base code detail addr : Nat) (s : State) (hm : Moves cc r0 s) :
    Moves cc r0 (noteErr base code detail addr s) := by
  unfold noteErr
  with_reducible repeat' first
    | assumption | exact fun _ => rfl | apply Moves.ite | apply setF_moves | apply setR_moves
    | (apply Moves.mk; assumption) | intro _

theorem request_moves {cc : Bool} {r0 : State} (src typ : Nat) (forced counted : Bool) (rest : List Byte) (s : State) (hm : Moves cc r0 s) :
    Moves cc r0 (request src typ forced counted rest s) := by
  unfold request
  with_reducible repeat' first
    | exact fun _ => rfl | apply Moves.ite | apply maxF_moves | apply tick_moves | (apply Moves.mk; assumption)
    | intro _

theorem onAssert_moves {cc : Bool} {r0 : State} (src : Nat) (s : State) (hm : Moves cc r0 s) :
    Moves cc r0 (onAssert src s) := by
  unfold onAssert
  with_reducible repeat' first
    | assumption | exact fun _ => rfl | apply Moves.ite | (apply Moves.mk; assumption) | intro _

theorem occur_moves {cc : Bool} {r0 : State} (src typ : Nat) (forced was : Bool) (rest : List Byte) (s : State) (hm : Moves cc r0 s) :
    Moves cc r0 (occur src typ forced was rest s) := by
  unfold occur
  with_reducible repeat' first
    | assumption | apply Moves.ite | apply addF_moves | apply request_moves | apply onAssert_moves | intro _

theorem happenAs_moves {cc : Bool} {r0 : State} (base i typ : Nat) (extra : List Byte) (forced : Bool) (s : State) (hm : Moves cc r0 s) :
    Moves cc r0 (happenAs base i typ extra forced s) := by
  unfold happenAs
  with_reducible repeat' first | assumption | apply Moves.ite | apply setF_moves | apply occur_moves | intro _

theorem happen_moves {cc : Bool} {r0 : State} (base i : Nat) (s : State) (hm : Moves cc r0 s) :
    Moves cc r0 (happen base i s) := by
  unfold happen
  with_reducible repeat' first | assumption | apply happenAs_moves

theorem happenTile_moves {cc : Bool} {r0 : State} (t i : Nat) (s : State) (hm : Moves cc r0 s) :
    Moves cc r0 (happenTile t i s) := by
  unfold happenTile
  with_reducible repeat' first | assumption | apply happen_moves | apply noteErr_moves

theorem happenCause_moves {cc : Bool} {r0 : State} (base i : Nat) (cause en bit : Nat) (s : State) (hm : Moves cc r0 s) :
    Moves cc r0 (happenCause base i cause en bit s) := by
  unfold happenCause
  with_reducible repeat' first | assumption | apply Moves.ite | apply setF_moves | apply occur_moves | intro _

theorem oncePerFrame_moves {cc : Bool} {r0 : State} (key : Nat) (f : State → State) (s : State)
    (hf : ∀ u, Moves cc r0 u → Moves cc r0 (f u)) (hm : Moves cc r0 s) : Moves cc r0 (oncePerFrame key f s) := by
  unfold oncePerFrame
  exact .ite (fun _ => hm) (fun _ => hf _ (.mk hm (fun _ => rfl)))

theorem oncePerBeat_moves {cc : Bool} {r0 : State} (key : Nat) (f : State → State) (s : State)
    (hf : ∀ u, Moves cc r0 u → Moves cc r0 (f u)) (hm : Moves cc r0 s) : Moves cc r0 (oncePerBeat key f s) := by
  unfold oncePerBeat
  exact .ite (fun _ => hm) (fun _ => hf _ (.mk hm (fun _ => rfl)))

end Sys2Proof.Machine
end

