-- ==== Sys2Proof/Laws/Moves/Access.lean ====
section
/-!
SUPPORT. Laws/Moves/Access.lean: the operations of Machine/Access.lean keep what `Moves` says.
-/

namespace Sys2Proof.Machine

theorem accessDisabled_moves {cc : Bool} {r0 : State} (a : Nat) (s : State) (hm : Moves cc r0 s) :
    Moves cc r0 (accessDisabled a s) := by
  unfold accessDisabled
  with_reducible repeat' first | assumption | apply happen_moves | apply noteErr_moves | split

theorem stallBytes_moves {cc : Bool} {r0 : State} (path : Path) (a : Nat) (w : Option (W32 × Nat)) (s : State)
    (hm : Moves cc r0 s) : Moves cc r0 (stallBytes path a w s) := by
  unfold stallBytes
  with_reducible repeat' first | exact fun _ => rfl | apply setF_moves | (apply Moves.mk; assumption)

theorem accessStall_moves {cc : Bool} {r0 : State} (path : Path) (a : Nat) (w : Option W32) (s : State) (hm : Moves cc r0 s) :
    Moves cc r0 (accessStall path a w s) := stallBytes_moves _ _ _ _ hm

theorem guarded_moves {cc : Bool} {r0 : State} (path : Path) (a : Nat) (v : W32) (f : State → State) (s : State)
    (hf : ∀ u, Moves cc r0 u → Moves cc r0 (f u)) (hm : Moves cc r0 s) : Moves cc r0 (guarded path a v f s) := by
  unfold guarded
  split
  · exact hf _ hm
  · exact accessDisabled_moves _ _ hm
  · exact accessStall_moves _ _ _ _ hm

end Sys2Proof.Machine
end

