-- ==== Sys2Proof/Laws/Moves/Recorder.lean ====
section
/-!
SUPPORT. Laws/Moves/Recorder.lean: the operations of Machine/Recorder.lean keep what `Moves` says.
-/

namespace Sys2Proof.Machine

theorem setRing_moves {cc : Bool} {r0 : State} (l : List Rec) (s : State) (hm : Moves cc r0 s) :
    Moves cc r0 (setRing l s) := by
  unfold setRing
  with_reducible repeat' first | exact fun _ => rfl | (apply Moves.mk; assumption)

theorem dropRec_moves {cc : Bool} {r0 : State} (r : Rec) (s : State) (hm : Moves cc r0 s) :
    Moves cc r0 (dropRec r s) := by
  unfold dropRec
  with_reducible repeat' first
    | assumption | exact fun _ => rfl | apply Moves.ite | apply addF_moves | apply oncePerFrame_moves
    | apply happen_moves | apply request_moves | (apply Moves.mk; assumption) | intro _

theorem storeRec_moves {cc : Bool} {r0 : State} (r : Rec) (s : State) (hm : Moves cc r0 s) :
    Moves cc r0 (storeRec r s) := by
  unfold storeRec
  with_reducible repeat' first
    | assumption | apply Moves.ite | apply setRing_moves | apply addF_moves | apply dropRec_moves | intro _
    | extract_lets | split

theorem nextSeq_moves {cc : Bool} {r0 : State} (s : State) (hm : Moves cc r0 s) :
    MovesP cc r0 (nextSeq s) := by
  unfold nextSeq
  with_reducible repeat' first | assumption | apply MovesP.pair | apply setF_moves

theorem nextSeq_movesE {cc : Bool} {r0 : State} {s : State} {a0} {t0 : State} (hm : Moves cc r0 s) (e : nextSeq s = (a0, t0)) :
    Moves cc r0 t0 := nextSeq_moves _ hm _ _ e

theorem stickyCopy_moves {cc : Bool} {r0 : State} (r : Rec) (s : State) (hm : Moves cc r0 s) :
    Moves cc r0 (stickyCopy r s) := by
  unfold stickyCopy
  with_reducible repeat' first
    | assumption | exact fun _ => rfl | apply Moves.ite | (apply Moves.mk; assumption) | intro _

theorem writeNow_moves {cc : Bool} {r0 : State} (src typ : Nat) (body : List Byte) (s : State) (hm : Moves cc r0 s) :
    Moves cc r0 (writeNow src typ body s) := by
  unfold writeNow
  with_reducible repeat' first
    | assumption | (apply MovesP.snd; apply nextSeq_moves) | apply storeRec_moves | apply stickyCopy_moves

theorem endFreeze_moves {cc : Bool} {r0 : State} (reason : Nat) (last : Option Rec) (s : State) (hm : Moves cc r0 s) :
    Moves cc r0 (endFreeze reason last s) := by
  unfold endFreeze
  with_reducible repeat' first
    | exact fun _ => rfl | apply setF_moves | apply storeRec_moves | apply happen_moves | apply writeNow_moves
    | (apply Moves.mk; assumption) | apply Moves.foldl | intro _ | extract_lets | split

theorem startFreeze_moves {cc : Bool} {r0 : State} (path : Nat) (s : State) (hm : Moves cc r0 s) :
    Moves cc r0 (startFreeze path s) := by
  unfold startFreeze
  with_reducible repeat' first
    | assumption | exact fun _ => rfl | apply Moves.ite | apply happen_moves | apply setF_moves | intro _
    | extract_lets | (apply Moves.mk; apply writeNow_moves)

theorem thaw_moves {cc : Bool} {r0 : State} (reason : Nat) (s : State) (hm : Moves cc r0 s) :
    Moves cc r0 (thaw reason s) := by
  unfold thaw
  with_reducible repeat' first | assumption | apply Moves.ite | apply endFreeze_moves | intro _

theorem placeRec_moves {cc : Bool} {r0 : State} (r : Rec) (s : State) (hm : Moves cc r0 s) :
    Moves cc r0 (placeRec r s) := by
  unfold placeRec
  with_reducible repeat' first
    | assumption | exact fun _ => rfl | apply Moves.ite | apply endFreeze_moves | apply dropRec_moves
    | apply storeRec_moves | (apply Moves.mk; assumption) | intro _

theorem takeIn_moves {cc : Bool} {r0 : State} (s : State) (hm : Moves cc r0 s) :
    Moves cc r0 (takeIn s) := by
  unfold takeIn
  with_reducible repeat' first
    | assumption | exact fun _ => rfl | apply Moves.ite | (apply MovesP.snd; apply nextSeq_moves)
    | apply placeRec_moves | apply stickyCopy_moves | (apply Moves.mk; assumption) | intro _ | extract_lets | split
    | (apply Moves.mk; apply MovesP.snd; apply nextSeq_moves)

theorem snapshot_moves {cc : Bool} {r0 : State} (s : State) (hm : Moves cc r0 s) :
    Moves cc r0 (snapshot s) := by
  unfold snapshot
  with_reducible repeat' first | exact fun _ => rfl | apply setF_moves | (apply Moves.mk; assumption)

theorem recNextDo_moves {cc : Bool} {r0 : State} (s : State) (hm : Moves cc r0 s) :
    Moves cc r0 (recNextDo s) := by
  unfold recNextDo
  with_reducible repeat' first | assumption | apply snapshot_moves | apply setF_moves | split

theorem recCursorDo_moves {cc : Bool} {r0 : State} (v : Nat) (s : State) (hm : Moves cc r0 s) :
    Moves cc r0 (recCursorDo v s) := by
  unfold recCursorDo
  with_reducible repeat' first | assumption | apply snapshot_moves | apply setR_moves

theorem mirrorFlush_moves {cc : Bool} {r0 : State} (ok : Bool) (s : State) (hm : Moves cc r0 s) :
    Moves cc r0 (mirrorFlush ok s) := by
  unfold mirrorFlush
  with_reducible repeat' first
    | assumption | exact fun _ => rfl | apply Moves.ite | apply setF_moves | apply happen_moves
    | (apply Moves.mk; assumption) | intro _

theorem anchor_moves {cc : Bool} {r0 : State} (reason : Nat) (s : State) (hm : Moves cc r0 s) :
    Moves cc r0 (anchor reason s) := by
  unfold anchor
  with_reducible repeat' first | assumption | apply happen_moves | apply request_moves

theorem recorderFailed_moves {cc : Bool} {r0 : State} (word : Nat) (again : Bool) (s : State) (hm : Moves cc r0 s) :
    Moves cc r0 (recorderFailed word again s) := by
  unfold recorderFailed
  with_reducible repeat' first
    | assumption | exact fun _ => rfl | apply Moves.ite | apply setF_moves | apply happen_moves | apply request_moves
    | (apply Moves.mk; assumption) | intro _

theorem releaseHeld_moves {cc : Bool} {r0 : State} (s : State) (hm : Moves cc r0 s) :
    Moves cc r0 (releaseHeld s) := by
  unfold releaseHeld
  with_reducible repeat' first
    | assumption | exact fun _ => rfl | (apply Moves.mk; assumption) | apply Moves.foldl | intro _ | extract_lets
    | (apply Moves.mk; apply request_moves)

theorem forceWrite_moves {cc : Bool} {r0 : State} (base : Nat) (v : W32) (s : State) (hm : Moves cc r0 s) :
    Moves cc r0 (forceWrite base v s) := by
  unfold forceWrite
  with_reducible repeat' first
    | assumption | apply Moves.ite | apply occur_moves | apply happenAs_moves | apply Moves.foldl | intro _

theorem enWrite_moves {cc : Bool} {r0 : State} (base : Nat) (v : W32) (s : State) (hm : Moves cc r0 s) :
    Moves cc r0 (enWrite base v s) := by
  unfold enWrite
  with_reducible repeat' first
    | assumption | apply Moves.ite | apply setR_moves | apply onAssert_moves | apply Moves.foldl | intro _

theorem pendWrite_moves {cc : Bool} {r0 : State} (base : Nat) (v : W32) (s : State) (hm : Moves cc r0 s) :
    Moves cc r0 (pendWrite base v s) := by
  unfold pendWrite
  with_reducible repeat' first | assumption | apply Moves.ite | apply setR_moves | intro _

theorem routeWrite_moves {cc : Bool} {r0 : State} (src : Nat) (v : W32) (s : State) (hm : Moves cc r0 s) :
    Moves cc r0 (routeWrite src v s) := by
  unfold routeWrite
  with_reducible repeat' first | assumption | apply Moves.ite | apply setR_moves | apply onAssert_moves | intro _

theorem fwRaise_moves {cc : Bool} {r0 : State} (v : W32) (s : State) (hm : Moves cc r0 s) :
    Moves cc r0 (fwRaise v s) := by
  unfold fwRaise
  with_reducible repeat' first | assumption | apply Moves.ite | apply addF_moves | apply request_moves | intro _

theorem msixSend_moves {cc : Bool} {r0 : State} (p : Nat) (deliverable : Bool) (s : State) (hm : Moves cc r0 s) :
    Moves cc r0 (msixSend p deliverable s) := by
  unfold msixSend
  with_reducible repeat' first
    | assumption | exact fun _ => rfl | apply Moves.ite | apply emit_moves | apply oncePerFrame_moves
    | apply happen_moves | apply addF_moves | (apply Moves.mk; assumption) | intro _

theorem execEvtForceWrite_moves {cc : Bool} {r0 : State} (base : Nat) (v : W32) (s : State) (hm : Moves cc r0 s) :
    MovesR cc r0 (execEvtForceWrite base v s) := by
  unfold execEvtForceWrite
  with_reducible repeat' first
    | assumption | apply Moves.ite | apply MovesR.next | apply guarded_moves | apply forceWrite_moves | intro _

theorem execEvtEnWrite_moves {cc : Bool} {r0 : State} (base : Nat) (v : W32) (s : State) (hm : Moves cc r0 s) :
    MovesR cc r0 (execEvtEnWrite base v s) := by
  unfold execEvtEnWrite
  with_reducible repeat' first
    | assumption | apply Moves.ite | apply MovesR.next | apply guarded_moves | apply enWrite_moves | intro _

theorem execEvtPendClear_moves {cc : Bool} {r0 : State} (base : Nat) (v : W32) (s : State) (hm : Moves cc r0 s) :
    MovesR cc r0 (execEvtPendClear base v s) := by
  unfold execEvtPendClear
  with_reducible repeat' first
    | assumption | apply Moves.ite | apply MovesR.next | apply guarded_moves | apply pendWrite_moves | intro _

theorem execEvtRouteWrite_moves {cc : Bool} {r0 : State} (src : Nat) (v : W32) (s : State) (hm : Moves cc r0 s) :
    MovesR cc r0 (execEvtRouteWrite src v s) := by
  unfold execEvtRouteWrite
  with_reducible repeat' first
    | assumption | apply Moves.ite | apply MovesR.next | apply guarded_moves | apply routeWrite_moves | intro _

theorem execEvtMsixSend_moves {cc : Bool} {r0 : State} (p : Nat) (deliverable : Bool) (s : State) (hm : Moves cc r0 s) :
    MovesR cc r0 (execEvtMsixSend p deliverable s) := by
  unfold execEvtMsixSend
  with_reducible repeat' first | assumption | apply MovesR.next | apply msixSend_moves

theorem execEvtFwRaiseWrite_moves {cc : Bool} {r0 : State} (v : W32) (s : State) (hm : Moves cc r0 s) :
    MovesR cc r0 (execEvtFwRaiseWrite v s) := by
  unfold execEvtFwRaiseWrite
  with_reducible repeat' first | assumption | apply MovesR.next | apply guarded_moves | apply fwRaise_moves

theorem execRecordIntake_moves {cc : Bool} {r0 : State} (s : State) (hm : Moves cc r0 s) :
    MovesR cc r0 (execRecordIntake s) := by
  unfold execRecordIntake
  with_reducible repeat' first | assumption | apply Moves.ite | apply MovesR.next | apply takeIn_moves | intro _

theorem execRecNext_moves {cc : Bool} {r0 : State} (s : State) (hm : Moves cc r0 s) :
    MovesR cc r0 (execRecNext s) := by
  unfold execRecNext
  with_reducible repeat' first | assumption | apply MovesR.next | apply guarded_moves | apply recNextDo_moves

theorem execRecRefill_moves {cc : Bool} {r0 : State} (s : State) (hm : Moves cc r0 s) :
    MovesR cc r0 (execRecRefill s) := by
  unfold execRecRefill
  with_reducible repeat' first | assumption | apply MovesR.next | apply guarded_moves | apply snapshot_moves

theorem execRecCursorWrite_moves {cc : Bool} {r0 : State} (v : W32) (s : State) (hm : Moves cc r0 s) :
    MovesR cc r0 (execRecCursorWrite v s) := by
  unfold execRecCursorWrite
  with_reducible repeat' first | assumption | apply MovesR.next | apply guarded_moves | apply recCursorDo_moves

theorem execFreezeTimeout_moves {cc : Bool} {r0 : State} (s : State) (hm : Moves cc r0 s) :
    MovesR cc r0 (execFreezeTimeout s) := by
  unfold execFreezeTimeout
  with_reducible repeat' first | assumption | apply Moves.ite | apply MovesR.next | apply endFreeze_moves | intro _

theorem execTimeAnchorPeriodic_moves {cc : Bool} {r0 : State} (s : State) (hm : Moves cc r0 s) :
    MovesR cc r0 (execTimeAnchorPeriodic s) := by
  unfold execTimeAnchorPeriodic
  with_reducible repeat' first
    | assumption | apply Moves.ite | apply MovesR.next | apply oncePerBeat_moves | apply anchor_moves | intro _

end Sys2Proof.Machine
end

