-- ==== Sys2Proof/Laws/Moves/Cmds.lean ====
section
/-!
SUPPORT. Laws/Moves/Cmds.lean: the operations of Machine/Cmds.lean keep what `Moves` says.
-/

namespace Sys2Proof.Machine

theorem setFn_moves {cc : Bool} {r0 : State} (fn : Nat) (v : Fn) (s : State) (hm : Moves cc r0 s) :
    Moves cc r0 (setFn fn v s) := by
  unfold setFn
  with_reducible repeat' first | exact fun _ => rfl | (apply Moves.mk; assumption)

theorem setSq_moves {cc : Bool} {r0 : State} (fn qid : Nat) (v : Sq) (s : State) (hm : Moves cc r0 s) :
    Moves cc r0 (setSq fn qid v s) := by
  unfold setSq
  with_reducible repeat' first | exact fun _ => rfl | (apply Moves.mk; assumption)

theorem setCq_moves {cc : Bool} {r0 : State} (fn qid : Nat) (v : Cq) (s : State) (hm : Moves cc r0 s) :
    Moves cc r0 (setCq fn qid v s) := by
  unfold setCq
  with_reducible repeat' first | exact fun _ => rfl | (apply Moves.mk; assumption)

theorem setCmd_moves {cc : Bool} {r0 : State} (i : Nat) (c : Cmd) (s : State) (hm : Moves cc r0 s) :
    Moves cc r0 (setCmd i c s) := by
  unfold setCmd
  with_reducible repeat' first | exact fun _ => rfl | (apply Moves.mk; assumption)

theorem dropCmd_moves {cc : Bool} {r0 : State} (i : Nat) (s : State) (hm : Moves cc r0 s) :
    Moves cc r0 (dropCmd i s) := by
  unfold dropCmd
  with_reducible repeat' first | exact fun _ => rfl | (apply Moves.mk; assumption)

theorem ready_moves {cc : Bool} {r0 : State} (i : Nat) (sts : Sts) (dw0 : Nat) (data : List Byte) (s : State) (hm : Moves cc r0 s) :
    Moves cc r0 (ready i sts dw0 data s) := by
  unfold ready
  with_reducible repeat' first | assumption | apply setCmd_moves

theorem allocCmd_moves {cc : Bool} {r0 : State} (c : Cmd) (s : State) (hm : Moves cc r0 s) :
    MovesP cc r0 (allocCmd c s) := by
  unfold allocCmd
  with_reducible repeat' first
    | exact fun _ => rfl | apply MovesP.pair | apply setCmd_moves | (apply Moves.mk; assumption)

theorem allocCmd_movesE {cc : Bool} {r0 : State} {c : Cmd} {s : State} {a0} {t0 : State} (hm : Moves cc r0 s) (e : allocCmd c s = (a0, t0)) :
    Moves cc r0 t0 := allocCmd_moves _ _ hm _ _ e

theorem takeCmd_moves {cc : Bool} {r0 : State} (h : CmdHead) (s : State) (hm : Moves cc r0 s) :
    MovesO cc r0 (takeCmd h s) := by
  unfold takeCmd
  with_reducible repeat' first
    | assumption | apply MovesO.ite | apply MovesO.some | exact MovesO.none | apply setSq_moves | apply addF_moves
    | split | intro _

theorem takeCmd_movesE {cc : Bool} {r0 : State} {h : CmdHead} {s : State} {t0 : State} (hm : Moves cc r0 s) (e : takeCmd h s = some t0) :
    Moves cc r0 t0 := takeCmd_moves _ _ hm _ e

theorem answer_moves {cc : Bool} {r0 : State} (h : CmdHead) (kind : CmdKind) (sts : Sts) (dw0 : Nat) (data : List Byte) (s : State) (hm : Moves cc r0 s) :
    Moves cc r0 (answer h kind sts dw0 data s) := by
  unfold answer
  with_reducible repeat' first | assumption | (apply MovesP.snd; apply allocCmd_moves)

theorem queueSearch_moves {cc : Bool} {r0 : State} (i : Nat) (s : State) (hm : Moves cc r0 s) :
    Moves cc r0 (queueSearch i s) := by
  unfold queueSearch
  with_reducible repeat' first
    | assumption | apply Moves.ite | apply setCmd_moves | apply maxF_moves | apply oncePerFrame_moves
    | apply happen_moves | intro _

theorem adminCmd_moves {cc : Bool} {r0 : State} (h : CmdHead) (op : Nat) (pf0 sanOk recOk evac : Bool) (f : State → State) (s : State) (hf : ∀ u, Moves cc r0 u → Moves cc r0 (f u)) (hm : Moves cc r0 s) :
    Moves cc r0 (adminCmd h op pf0 sanOk recOk evac f s) := by
  unfold adminCmd
  with_reducible repeat' first
    | assumption | apply Moves.ite | apply hf | apply answer_moves | intro _ | refine takeCmd_movesE ?_ ‹_›
    | extract_lets | split

theorem aen_moves {cc : Bool} {r0 : State} (fn typ info lid : Nat) (s : State) (hm : Moves cc r0 s) :
    Moves cc r0 (aen fn typ info lid s) := by
  unfold aen
  with_reducible repeat' first
    | assumption | apply Moves.ite | apply setFn_moves | apply ready_moves | intro _ | extract_lets | split

theorem rearm_moves {cc : Bool} {r0 : State} (fn lid : Nat) (s : State) (hm : Moves cc r0 s) :
    Moves cc r0 (rearm fn lid s) := by
  unfold rearm
  with_reducible repeat' first | assumption | apply setFn_moves

theorem driveAen_moves {cc : Bool} {r0 : State} (s : State) (hm : Moves cc r0 s) :
    Moves cc r0 (driveAen s) := by
  unfold driveAen
  with_reducible repeat' first
    | assumption | apply Moves.ite | apply aen_moves | apply Moves.foldl | intro _ | extract_lets | split

theorem tileAen_moves {cc : Bool} {r0 : State} (t typ info lid : Nat) (s : State) (hm : Moves cc r0 s) :
    Moves cc r0 (tileAen t typ info lid s) := by
  unfold tileAen
  with_reducible repeat' first | assumption | apply aen_moves | split

theorem setConn_moves {cc : Bool} {r0 : State} (c : Conn) (v : SpdmSt) (s : State) (hm : Moves cc r0 s) :
    Moves cc r0 (setConn c v s) := by
  unfold setConn
  with_reducible repeat' first | exact fun _ => rfl | (apply Moves.mk; assumption)

theorem spdmSay_moves {cc : Bool} {r0 : State} (c : Conn) (code : Nat) (data : List Byte) (s : State) (hm : Moves cc r0 s) :
    Moves cc r0 (spdmSay c code data s) := by
  unfold spdmSay
  with_reducible repeat' first | assumption | apply emit_moves

theorem spdmErr_moves {cc : Bool} {r0 : State} (c : Conn) (e : Nat) (s : State) (hm : Moves cc r0 s) :
    Moves cc r0 (spdmErr c e s) := by
  unfold spdmErr
  with_reducible repeat' first | assumption | apply spdmSay_moves

theorem dropSig_moves {cc : Bool} {r0 : State} (c : Conn) (s : State) (hm : Moves cc r0 s) :
    Moves cc r0 (dropSig c s) := by
  unfold dropSig
  with_reducible repeat' first | assumption | apply setConn_moves

theorem endSession_moves {cc : Bool} {r0 : State} (c : Conn) (s : State) (hm : Moves cc r0 s) :
    Moves cc r0 (endSession c s) := by
  unfold endSession
  with_reducible repeat' first | assumption | apply setConn_moves

theorem fdpNote_moves {cc : Bool} {r0 : State} (t kind handle n : Nat) (s : State) (hm : Moves cc r0 s) :
    Moves cc r0 (fdpNote t kind handle n s) := by
  unfold fdpNote
  with_reducible repeat' first
    | assumption | exact fun _ => rfl | apply Moves.ite | (apply Moves.mk; assumption) | intro _

theorem setNs_moves {cc : Bool} {r0 : State} (n : Nat) (v : Ns) (s : State) (hm : Moves cc r0 s) :
    Moves cc r0 (setNs n v s) := by
  unfold setNs
  with_reducible repeat' first | exact fun _ => rfl | (apply Moves.mk; assumption)

end Sys2Proof.Machine
end

