-- ==== Sys2Proof/Laws/Moves/Fail.lean ====
section
/-!
SUPPORT. Laws/Moves/Fail.lean: the operations of Machine/Fail.lean keep what `Moves` says.
-/

namespace Sys2Proof.Machine

theorem toHost_moves {cc : Bool} {r0 : State} (o : Out) (s : State) (hm : Moves cc r0 s) :
    Moves cc r0 (toHost o s) := by
  unfold toHost
  with_reducible repeat' first | assumption | apply Moves.ite | apply emit_moves | intro _

theorem setCause_moves {cc : Bool} {r0 : State} (f : Fld) (s : State) (hm : Moves cc r0 s) :
    Moves cc r0 (setCause f s) := by
  unfold setCause
  with_reducible repeat' first | assumption | apply setF_moves

theorem groutCause_moves {cc : Bool} {r0 : State} (bit : Nat) (s0 : State) (hm : Moves cc r0 s0) :
    Moves cc r0 (groutCause bit s0) := by
  unfold groutCause
  with_reducible repeat' first
    | assumption | exact fun _ => rfl | apply Moves.ite | apply happen_moves | intro _ | extract_lets | split
    | (apply Moves.mk; apply Moves.ite)

theorem fatal_moves {cc : Bool} {r0 : State} (base i : Nat) (s : State) (hm : Moves cc r0 s) :
    Moves cc r0 (fatal base i s) := by
  unfold fatal
  with_reducible repeat' first
    | assumption | exact fun _ => rfl | apply Moves.ite | apply happen_moves | apply groutCause_moves | intro _
    | extract_lets | (apply Moves.mk; apply happen_moves)

theorem mediaAen_moves {cc : Bool} {r0 : State} (s : State) (hm : Moves cc r0 s) :
    Moves cc r0 (mediaAen s) := by
  unfold mediaAen
  with_reducible repeat' first
    | assumption | apply Moves.ite | apply aen_moves | apply Moves.foldl | intro _ | extract_lets | split

theorem addThousand_moves {cc : Bool} {r0 : State} (key : Nat) (f : Fld) (n : Nat) (s : State) (hm : Moves cc r0 s) :
    Moves cc r0 (addThousand key f n s) := by
  unfold addThousand
  with_reducible repeat' first
    | exact fun _ => rfl | apply Moves.ite | apply addF_moves | (apply Moves.mk; assumption) | intro _

end Sys2Proof.Machine
end

