-- ==== Sys2Proof/Laws/Moves/Power.lean ====
section
/-!
SUPPORT. Laws/Moves/Power.lean: the operations of Machine/Power.lean keep what `Moves` says.
-/

namespace Sys2Proof.Machine

theorem noteSel_moves {cc : Bool} {r0 : State} (s : State) (hm : Moves cc r0 s) :
    Moves cc r0 (noteSel s) := by
  unfold noteSel
  with_reducible repeat' first | assumption | apply setF_moves

theorem aimAt_moves {cc : Bool} {r0 : State} (requested : Bool) (s : State) (hm : Moves cc r0 s) :
    Moves cc r0 (aimAt requested s) := by
  unfold aimAt
  with_reducible repeat' first
    | assumption | exact fun _ => rfl | apply Moves.ite | apply noteSel_moves | apply setF_moves | intro _
    | extract_lets | (apply Moves.mk; apply noteSel_moves) | (apply Moves.mk; apply setF_moves)

theorem selectPs_moves {cc : Bool} {r0 : State} (fn ps : Nat) (requested : Bool) (s : State) (hm : Moves cc r0 s) :
    Moves cc r0 (selectPs fn ps requested s) := by
  unfold selectPs
  with_reducible repeat' first | assumption | apply Moves.ite | apply setFn_moves | apply aimAt_moves | intro _

theorem releasePs_moves {cc : Bool} {r0 : State} (s : State) (hm : Moves cc r0 s) :
    Moves cc r0 (releasePs s) := by
  unfold releasePs
  with_reducible repeat' first
    | assumption | apply Moves.ite | apply selectPs_moves | apply Moves.foldl | intro _ | extract_lets | split

theorem enterState_moves {cc : Bool} {r0 : State} (k : Nat) (s : State) (hm : Moves cc r0 s) :
    Moves cc r0 (enterState k s) := by
  unfold enterState
  with_reducible repeat' first
    | assumption | exact fun _ => rfl | apply setF_moves | apply happen_moves | extract_lets
    | (apply Moves.mk; apply setF_moves)

theorem stateEntered_moves {cc : Bool} {r0 : State} (s : State) (hm : Moves cc r0 s) :
    Moves cc r0 (stateEntered s) := by
  unfold stateEntered
  with_reducible repeat' first | assumption | apply Moves.ite | apply enterState_moves | intro _ | split

theorem abandon_moves {cc : Bool} {r0 : State} (s : State) (hm : Moves cc r0 s) :
    Moves cc r0 (abandon s) := by
  unfold abandon
  with_reducible repeat' first
    | assumption | exact fun _ => rfl | apply Moves.ite | apply happen_moves | apply setF_moves
    | (apply Moves.mk; assumption) | intro _

theorem enterOff_moves {cc : Bool} {r0 : State} (s : State) (hm : Moves cc r0 s) :
    Moves cc r0 (enterOff s) := by
  unfold enterOff
  with_reducible repeat' first
    | assumption | exact fun _ => rfl | apply setF_moves | extract_lets | (apply Moves.mk; apply setF_moves)

theorem offDue_moves {cc : Bool} {r0 : State} (s : State) (hm : Moves cc r0 s) :
    Moves cc r0 (offDue s) := by
  unfold offDue
  with_reducible repeat' first
    | assumption | apply Moves.ite | apply enterOff_moves | apply happen_moves | intro _ | split

theorem ioReturn_moves {cc : Bool} {r0 : State} (s : State) (hm : Moves cc r0 s) :
    Moves cc r0 (ioReturn s) := by
  unfold ioReturn
  with_reducible repeat' first
    | assumption | exact fun _ => rfl | apply Moves.ite | apply setF_moves | apply enterState_moves
    | (apply Moves.mk; assumption) | intro _ | extract_lets | split

theorem relock_moves {cc : Bool} {r0 : State} (s : State) (hm : Moves cc r0 s) :
    Moves cc r0 (relock s) := by
  unfold relock
  with_reducible repeat' first | exact fun _ => rfl | apply setF_moves | (apply Moves.mk; assumption)

theorem sleptWake_moves {cc : Bool} {r0 : State} (s : State) (hm : Moves cc r0 s) :
    Moves cc r0 (sleptWake s) := by
  unfold sleptWake
  with_reducible repeat' first
    | assumption | apply Moves.ite | apply anchor_moves | apply releaseHeld_moves | apply relock_moves | intro _

theorem runAgain_moves {cc : Bool} {r0 : State} (s : State) (hm : Moves cc r0 s) :
    Moves cc r0 (runAgain s) := by
  unfold runAgain
  with_reducible repeat' first
    | assumption | exact fun _ => rfl | apply Moves.ite | apply setF_moves | apply addF_moves | apply sleptWake_moves
    | intro _ | extract_lets | split | (apply Moves.mk; apply happen_moves)

theorem wakeDrive_moves {cc : Bool} {r0 : State} (s : State) (hm : Moves cc r0 s) :
    Moves cc r0 (wakeDrive s) := by
  unfold wakeDrive
  with_reducible repeat' first
    | assumption | exact fun _ => rfl | apply abandon_moves | apply runAgain_moves | apply setF_moves
    | (apply Moves.mk; assumption) | extract_lets | split

theorem wakeOk_moves {cc : Bool} {r0 : State} (s : State) (hm : Moves cc r0 s) :
    Moves cc r0 (wakeOk s) := by
  unfold wakeOk
  with_reducible repeat' first
    | assumption | exact fun _ => rfl | apply Moves.ite | apply setF_moves | (apply Moves.mk; assumption) | intro _

theorem wakeDone_moves {cc : Bool} {r0 : State} (s : State) (hm : Moves cc r0 s) :
    Moves cc r0 (wakeDone s) := by
  unfold wakeDone
  with_reducible repeat' first
    | assumption | exact fun _ => rfl | apply Moves.ite | apply wakeOk_moves | apply runAgain_moves | apply setF_moves
    | apply addF_moves | (apply Moves.mk; assumption) | intro _

theorem wakeFails_moves {cc : Bool} {r0 : State} (d step bit : Nat) (s : State) (hm : Moves cc r0 s) :
    Moves cc r0 (wakeFails d step bit s) := by
  unfold wakeFails
  with_reducible repeat' first
    | assumption | exact fun _ => rfl | apply setF_moves | apply happen_moves | extract_lets
    | (apply Moves.mk; apply setF_moves)

theorem failover_moves {cc : Bool} {r0 : State} (s : State) (hm : Moves cc r0 s) :
    Moves cc r0 (failover s) := by
  unfold failover
  with_reducible repeat' first
    | assumption | exact fun _ => rfl | apply Moves.ite | apply happen_moves | apply addF_moves | apply setF_moves
    | intro _ | extract_lets | (apply Moves.mk; apply happen_moves)

theorem stepTimeout_moves {cc : Bool} {r0 : State} (d step : Nat) (retryFailed other : Bool) (s : State) (hm : Moves cc r0 s) :
    Moves cc r0 (stepTimeout d step retryFailed other s) := by
  unfold stepTimeout
  with_reducible repeat' first
    | assumption | apply Moves.ite | apply happen_moves | apply wakeFails_moves | apply failover_moves
    | apply setF_moves | intro _ | extract_lets | split

theorem refclkLostDo_moves {cc : Bool} {r0 : State} (other : Bool) (s : State) (hm : Moves cc r0 s) :
    Moves cc r0 (refclkLostDo other s) := by
  unfold refclkLostDo
  with_reducible repeat' first | assumption | apply Moves.ite | apply setF_moves | apply failover_moves | intro _

theorem drainTimeout_moves {cc : Bool} {r0 : State} (d : Nat) (s : State) (hm : Moves cc r0 s) :
    Moves cc r0 (drainTimeout d s) := by
  unfold drainTimeout
  with_reducible repeat' first
    | assumption | exact fun _ => rfl | apply Moves.ite | apply setF_moves | intro _ | extract_lets
    | (apply Moves.mk; apply happen_moves)

theorem stallTimeout_moves {cc : Bool} {r0 : State} (a : Nat) (isWrite : Bool) (s : State) (hm : Moves cc r0 s) :
    Moves cc r0 (stallTimeout a isWrite s) := by
  unfold stallTimeout
  with_reducible repeat' first
    | assumption | exact fun _ => rfl | apply Moves.ite | apply addF_moves | apply maxF_moves | apply happen_moves
    | apply noteErr_moves | apply emit_moves | (apply Moves.mk; assumption) | intro _ | extract_lets | split

theorem wakeIn_moves {cc : Bool} {r0 : State} (s : State) (hm : Moves cc r0 s) :
    Moves cc r0 (wakeIn s) := by
  unfold wakeIn
  with_reducible repeat' first
    | exact fun _ => rfl | apply Moves.ite | apply wakeDrive_moves | (apply Moves.mk; assumption) | intro _

theorem sqDoorbell_moves {cc : Bool} {r0 : State} (fn qid tail : Nat) (s : State) (hm : Moves cc r0 s) :
    Moves cc r0 (sqDoorbell fn qid tail s) := by
  unfold sqDoorbell
  with_reducible repeat' first | assumption | apply Moves.ite | apply wakeDrive_moves | apply setSq_moves | intro _

theorem apst_moves {cc : Bool} {r0 : State} (fn ps : Nat) (s : State) (hm : Moves cc r0 s) :
    Moves cc r0 (apst fn ps s) := by
  unfold apst
  with_reducible repeat' first | assumption | apply Moves.ite | apply selectPs_moves | intro _

theorem recoveryExit_moves {cc : Bool} {r0 : State} (p width : Nat) (s : State) (hm : Moves cc r0 s) :
    Moves cc r0 (recoveryExit p width s) := by
  unfold recoveryExit
  with_reducible repeat' first
    | assumption | exact fun _ => rfl | apply Moves.ite | apply setF_moves | (apply Moves.mk; assumption) | intro _

theorem endStart_moves {cc : Bool} {r0 : State} (ms : Nat) (s : State) (hm : Moves cc r0 s) :
    Moves cc r0 (endStart ms s) := by
  unfold endStart
  with_reducible repeat' first | assumption | exact fun _ => rfl | (apply Moves.mk; assumption) | extract_lets | split

theorem cutStart_moves {cc : Bool} {r0 : State} (s : State) (hm : Moves cc r0 s) :
    Moves cc r0 (cutStart s) := by
  unfold cutStart
  with_reducible repeat' first | assumption | apply enterOff_moves | apply endStart_moves | apply setF_moves | split

theorem execWakeInRise_moves {cc : Bool} {r0 : State} (s : State) (hm : Moves cc r0 s) :
    MovesR cc r0 (execWakeInRise s) := by
  unfold execWakeInRise
  with_reducible repeat' first | assumption | apply MovesR.next | apply wakeIn_moves

theorem execPowerStateEntered_moves {cc : Bool} {r0 : State} (s : State) (hm : Moves cc r0 s) :
    MovesR cc r0 (execPowerStateEntered s) := by
  unfold execPowerStateEntered
  with_reducible repeat' first | assumption | apply MovesR.next | apply stateEntered_moves

theorem execIoWakeReturn_moves {cc : Bool} {r0 : State} (s : State) (hm : Moves cc r0 s) :
    MovesR cc r0 (execIoWakeReturn s) := by
  unfold execIoWakeReturn
  with_reducible repeat' first | assumption | apply MovesR.next | apply ioReturn_moves

theorem execOffEntry_moves {cc : Bool} {r0 : State} (s : State) (hm : Moves cc r0 s) :
    MovesR cc r0 (execOffEntry s) := by
  unfold execOffEntry
  with_reducible repeat' first | assumption | apply MovesR.next | apply offDue_moves

theorem execDomainDrainTimeout_moves {cc : Bool} {r0 : State} (d : Nat) (s : State) (hm : Moves cc r0 s) :
    MovesR cc r0 (execDomainDrainTimeout d s) := by
  unfold execDomainDrainTimeout
  with_reducible repeat' first | assumption | apply MovesR.next | apply drainTimeout_moves

theorem execWakeStepTimeout_moves {cc : Bool} {r0 : State} (d step : Nat) (retryFailed otherClockGood : Bool) (s : State) (hm : Moves cc r0 s) :
    MovesR cc r0 (execWakeStepTimeout d step retryFailed otherClockGood s) := by
  unfold execWakeStepTimeout
  with_reducible repeat' first | assumption | apply MovesR.next | apply stepTimeout_moves

theorem execRefclkLost_moves {cc : Bool} {r0 : State} (otherGood : Bool) (s : State) (hm : Moves cc r0 s) :
    MovesR cc r0 (execRefclkLost otherGood s) := by
  unfold execRefclkLost
  with_reducible repeat' first | assumption | apply MovesR.next | apply refclkLostDo_moves

theorem execSqDoorbellWrite_moves {cc : Bool} {r0 : State} (fn qid tail : Nat) (s : State) (hm : Moves cc r0 s) :
    MovesR cc r0 (execSqDoorbellWrite fn qid tail s) := by
  unfold execSqDoorbellWrite
  with_reducible repeat' first | assumption | apply MovesR.next | apply sqDoorbell_moves

theorem execAutonomousPowerStateTransition_moves {cc : Bool} {r0 : State} (fn ps : Nat) (s : State) (hm : Moves cc r0 s) :
    MovesR cc r0 (execAutonomousPowerStateTransition fn ps s) := by
  unfold execAutonomousPowerStateTransition
  with_reducible repeat' first | assumption | apply MovesR.next | apply apst_moves

theorem execLinkRecoveryExit_moves {cc : Bool} {r0 : State} (p width : Nat) (s : State) (hm : Moves cc r0 s) :
    MovesR cc r0 (execLinkRecoveryExit p width s) := by
  unfold execLinkRecoveryExit
  with_reducible repeat' first | assumption | apply MovesR.next | apply recoveryExit_moves

end Sys2Proof.Machine
end

