-- ==== Sys2Proof/Laws/Moves/Map.lean ====
section
/-!
SUPPORT. Laws/Moves/Map.lean: the operations of Machine/Map.lean keep what `Moves` says.
-/

namespace Sys2Proof.Machine

theorem setBrick_moves {cc : Bool} {r0 : State} (k : Nat) (v : Brick) (s : State) (hm : Moves cc r0 s) :
    Moves cc r0 (setBrick k v s) := by
  unfold setBrick
  with_reducible repeat' first | exact fun _ => rfl | (apply Moves.mk; assumption)

theorem setCourse_moves {cc : Bool} {r0 : State} (c : Nat) (v : Course) (s : State) (hm : Moves cc r0 s) :
    Moves cc r0 (setCourse c v s) := by
  unfold setCourse
  with_reducible repeat' first | exact fun _ => rfl | (apply Moves.mk; assumption)

theorem setSlot_moves {cc : Bool} {r0 : State} (k : Nat) (v : Slot) (s : State) (hm : Moves cc r0 s) :
    Moves cc r0 (setSlot k v s) := by
  unfold setSlot
  with_reducible repeat' first | exact fun _ => rfl | (apply Moves.mk; assumption)

theorem freeSlot_moves {cc : Bool} {r0 : State} (k : Nat) (s : State) (hm : Moves cc r0 s) :
    Moves cc r0 (freeSlot k s) := by
  unfold freeSlot
  with_reducible repeat' first | assumption | apply Moves.ite | apply setSlot_moves | intro _

theorem notePeak_moves {cc : Bool} {r0 : State} (s : State) (hm : Moves cc r0 s) :
    Moves cc r0 (notePeak s) := by
  unfold notePeak
  with_reducible repeat' first | assumption | apply maxF_moves

theorem setCtx_moves {cc : Bool} {r0 : State} (i : Nat) (v : Ctx) (s : State) (hm : Moves cc r0 s) :
    Moves cc r0 (setCtx i v s) := by
  unfold setCtx
  with_reducible repeat' first | exact fun _ => rfl | (apply Moves.mk; assumption)

theorem dropCtx_moves {cc : Bool} {r0 : State} (i : Nat) (s : State) (hm : Moves cc r0 s) :
    Moves cc r0 (dropCtx i s) := by
  unfold dropCtx
  with_reducible repeat' first | exact fun _ => rfl | (apply Moves.mk; assumption)

theorem setLine_moves {cc : Bool} {r0 : State} (l : Nat) (x : BitVec 512) (s : State) (hm : Moves cc r0 s) :
    Moves cc r0 (setLine l x s) := by
  unfold setLine
  with_reducible repeat' first | exact fun _ => rfl | (apply Moves.mk; assumption)

theorem journal_moves {cc : Bool} {r0 : State} (typ body : Nat) (s : State) (hm : Moves cc r0 s) :
    Moves cc r0 (journal typ body s) := by
  unfold journal
  with_reducible repeat' first
    | assumption | exact fun _ => rfl | apply Moves.ite | (apply Moves.mk; assumption) | intro _

theorem bindRecord_moves {cc : Bool} {r0 : State} (c op wave : Nat) (s : State) (hm : Moves cc r0 s) :
    Moves cc r0 (bindRecord c op wave s) := by
  unfold bindRecord
  with_reducible repeat' first | assumption | apply journal_moves

theorem tableRecord_moves {cc : Bool} {r0 : State} (c pos : Nat) (a : BrickAddr) (s : State) (hm : Moves cc r0 s) :
    Moves cc r0 (tableRecord c pos a s) := by
  unfold tableRecord
  with_reducible repeat' first | assumption | apply journal_moves

theorem courseOut_moves {cc : Bool} {r0 : State} (e : Ent) (s : State) (hm : Moves cc r0 s) :
    Moves cc r0 (courseOut e s) := by
  unfold courseOut
  with_reducible repeat' first | assumption | apply Moves.ite | apply setCourse_moves | intro _ | extract_lets | split

theorem courseIn_moves {cc : Bool} {r0 : State} (e : Ent) (s : State) (hm : Moves cc r0 s) :
    Moves cc r0 (courseIn e s) := by
  unfold courseIn
  with_reducible repeat' first | assumption | apply Moves.ite | apply setCourse_moves | intro _ | extract_lets | split

theorem supersede_moves {cc : Bool} {r0 : State} (k : Nat) (s : State) (hm : Moves cc r0 s) :
    Moves cc r0 (supersede k s) := by
  unfold supersede
  with_reducible repeat' first | assumption | apply Moves.ite | apply addF_moves | apply freeSlot_moves | intro _

theorem putEnt_moves {cc : Bool} {r0 : State} (l i : Nat) (e : Ent) (s : State) (hm : Moves cc r0 s) :
    Moves cc r0 (putEnt l i e s) := by
  unfold putEnt
  with_reducible repeat' first
    | assumption | apply Moves.ite | apply setLine_moves | apply courseIn_moves | apply courseOut_moves
    | apply supersede_moves | intro _

theorem mapSet_moves {cc : Bool} {r0 : State} (l i : Nat) (e : Ent) (s : State) (hm : Moves cc r0 s) :
    Moves cc r0 (mapSet l i e s) := by
  unfold mapSet
  with_reducible repeat' first
    | assumption | apply Moves.ite | apply putEnt_moves | apply journal_moves | apply setLine_moves | intro _

theorem mapYard_moves {cc : Bool} {r0 : State} (l i slot kver : Nat) (s : State) (hm : Moves cc r0 s) :
    Moves cc r0 (mapYard l i slot kver s) := by
  unfold mapYard
  with_reducible repeat' first | assumption | apply putEnt_moves

theorem unmapLines_moves {cc : Bool} {r0 : State} (first count : Nat) (s : State) (hm : Moves cc r0 s) :
    Moves cc r0 (unmapLines first count s) := by
  unfold unmapLines
  with_reducible repeat' first
    | assumption | apply Moves.ite | apply putEnt_moves | apply journal_moves | apply setLine_moves
    | apply Moves.foldl | intro _

theorem countLost_moves {cc : Bool} {r0 : State} (c1 : Bool) (d : LossEnt) (s : State) (hm : Moves cc r0 s) :
    Moves cc r0 (countLost c1 d s) := by
  unfold countLost
  with_reducible repeat' first | assumption | apply Moves.ite | apply setFn_moves | intro _ | extract_lets | split

theorem deferredError_moves {cc : Bool} {r0 : State} (nsid lba n cause : Nat) (s : State) (hm : Moves cc r0 s) :
    Moves cc r0 (deferredError nsid lba n cause s) := by
  unfold deferredError
  with_reducible repeat' first
    | exact fun _ => rfl | apply countLost_moves | apply setNs_moves | apply tileAen_moves | apply happen_moves
    | (apply Moves.mk; assumption) | extract_lets | split

theorem lossEntry_moves {cc : Bool} {r0 : State} (nsid slba n kind cause : Nat) (s : State) (hm : Moves cc r0 s) :
    Moves cc r0 (lossEntry nsid slba n kind cause s) := by
  unfold lossEntry
  with_reducible repeat' first
    | exact fun _ => rfl | apply countLost_moves | apply tileAen_moves | (apply Moves.mk; assumption) | extract_lets
    | split

theorem setZone_moves {cc : Bool} {r0 : State} (nsid z : Nat) (v : Zone) (s : State) (hm : Moves cc r0 s) :
    Moves cc r0 (setZone nsid z v s) := by
  unfold setZone
  with_reducible repeat' first | exact fun _ => rfl | (apply Moves.mk; assumption)

theorem zoneChanged_moves {cc : Bool} {r0 : State} (nsid z : Nat) (s : State) (hm : Moves cc r0 s) :
    Moves cc r0 (zoneChanged nsid z s) := by
  unfold zoneChanged
  with_reducible repeat' first | exact fun _ => rfl | apply tileAen_moves | (apply Moves.mk; assumption)

theorem handForErase_moves {cc : Bool} {r0 : State} (c : Nat) (s : State) (hm : Moves cc r0 s) :
    Moves cc r0 (handForErase c s) := by
  unfold handForErase
  with_reducible repeat' first
    | assumption | exact fun _ => rfl | apply Moves.ite | apply bindRecord_moves | intro _ | extract_lets
    | (apply Moves.mk; apply setCourse_moves)

theorem releaseCourse_moves {cc : Bool} {r0 : State} (c : Nat) (s : State) (hm : Moves cc r0 s) :
    Moves cc r0 (releaseCourse c s) := by
  unfold releaseCourse
  with_reducible repeat' first | assumption | apply handForErase_moves | apply setCourse_moves

theorem zoneOffline_moves {cc : Bool} {r0 : State} (nsid z n cause : Nat) (s : State) (hm : Moves cc r0 s) :
    Moves cc r0 (zoneOffline nsid z n cause s) := by
  unfold zoneOffline
  with_reducible repeat' first
    | assumption | apply unmapLines_moves | apply releaseCourse_moves | apply lossEntry_moves
    | apply zoneChanged_moves | apply setZone_moves | extract_lets | split

theorem zoneReadOnly_moves {cc : Bool} {r0 : State} (nsid z n cause : Nat) (s : State) (hm : Moves cc r0 s) :
    Moves cc r0 (zoneReadOnly nsid z n cause s) := by
  unfold zoneReadOnly
  with_reducible repeat' first
    | assumption | apply Moves.ite | apply lossEntry_moves | apply zoneChanged_moves | apply setZone_moves | intro _

theorem blocksLost_moves {cc : Bool} {r0 : State} (nsid lba n cause : Nat) (s : State) (hm : Moves cc r0 s) :
    Moves cc r0 (blocksLost nsid lba n cause s) := by
  unfold blocksLost
  with_reducible repeat' first
    | assumption | apply Moves.ite | apply zoneReadOnly_moves | apply zoneOffline_moves | apply lossEntry_moves
    | intro _

theorem noteSpares_moves {cc : Bool} {r0 : State} (s : State) (hm : Moves cc r0 s) :
    Moves cc r0 (noteSpares s) := by
  unfold noteSpares
  with_reducible repeat' first
    | assumption | apply Moves.ite | apply mediaAen_moves | apply setCause_moves | apply happen_moves
    | apply setF_moves | intro _

theorem takeSpare_moves {cc : Bool} {r0 : State} (a : BrickAddr) (s : State) (hm : Moves cc r0 s) :
    Moves cc r0 (takeSpare a s) := by
  unfold takeSpare
  with_reducible repeat' first | assumption | apply noteSpares_moves | apply setF_moves | apply setBrick_moves

theorem setRow_moves {cc : Bool} {r0 : State} (c : Nat) (row : List BrickAddr) (s : State) (hm : Moves cc r0 s) :
    Moves cc r0 (setRow c row s) := by
  unfold setRow
  with_reducible repeat' first
    | assumption | apply Moves.ite | apply takeSpare_moves | apply setCourse_moves | apply tableRecord_moves
    | apply Moves.foldl | intro _ | extract_lets | split

theorem bindCourse_moves {cc : Bool} {r0 : State} (c t : Nat) (use : CourseUse) (row : List BrickAddr) (s : State) (hm : Moves cc r0 s) :
    Moves cc r0 (bindCourse c t use row s) := by
  unfold bindCourse
  with_reducible repeat' first
    | assumption | apply Moves.ite | apply setRow_moves | apply bindRecord_moves | apply setCourse_moves | intro _

theorem takeCourse_moves {cc : Bool} {r0 : State} (role t : Nat) (use : CourseUse) (cold : Bool) (s : State) (hm : Moves cc r0 s) :
    MovesQ cc r0 (takeCourse role t use cold s) := by
  unfold takeCourse
  with_reducible repeat' first | assumption | apply MovesQ.some | exact MovesQ.none | apply bindCourse_moves | split

theorem takeCourse_movesE {cc : Bool} {r0 : State} {role t : Nat} {use : CourseUse} {cold : Bool} {s : State} {a0} {t0 : State} (hm : Moves cc r0 s) (e : takeCourse role t use cold s = some (a0, t0)) :
    Moves cc r0 t0 := takeCourse_moves _ _ _ _ _ hm _ _ e

theorem sparesExhausted_moves {cc : Bool} {r0 : State} (s : State) (hm : Moves cc r0 s) :
    Moves cc r0 (sparesExhausted s) := by
  unfold sparesExhausted
  with_reducible repeat' first
    | assumption | apply Moves.ite | apply mediaAen_moves | apply setCause_moves | apply happen_moves
    | apply setF_moves | intro _

theorem keysSettle_moves {cc : Bool} {r0 : State} (s : State) (hm : Moves cc r0 s) :
    Moves cc r0 (keysSettle s) := by
  unfold keysSettle
  with_reducible repeat' first
    | assumption | exact fun _ => rfl | apply Moves.ite | apply happen_moves | apply Moves.foldl | intro _
    | extract_lets | (apply Moves.mk; apply setF_moves)

end Sys2Proof.Machine
end

