-- ==== Sys2Proof/Laws/Moves/Beat.lean ====
section
/-!
SUPPORT. Laws/Moves/Beat.lean: the operations of Machine/Beat.lean keep what `Moves` says.
-/

namespace Sys2Proof.Machine

theorem applyWins_moves {cc : Bool} {r0 : State} (s : State) (hm : Moves cc r0 s) :
    Moves cc r0 (applyWins s) := by
  unfold applyWins
  with_reducible repeat' first
    | assumption | exact fun _ => rfl | apply Moves.ite | apply setF_moves | apply happen_moves | intro _
    | extract_lets | (apply Moves.mk; apply setF_moves)

theorem setLock_moves {cc : Bool} {r0 : State} (n : Nat) (s : State) (hm : Moves cc r0 s) :
    Moves cc r0 (setLock n s) := by
  unfold setLock
  with_reducible repeat' first
    | exact fun _ => rfl | apply Moves.ite | apply setF_moves | apply anchor_moves | apply happen_moves
    | (apply Moves.mk; assumption) | intro _

theorem setOffset_moves {cc : Bool} {r0 : State} (v : W64) (s : State) (hm : Moves cc r0 s) :
    Moves cc r0 (setOffset v s) := by
  unfold setOffset
  with_reducible repeat' first | exact fun _ => rfl | apply setR_moves | (apply Moves.mk; assumption)

theorem timeStep_moves {cc : Bool} {r0 : State} (e : Int) (s : State) (hm : Moves cc r0 s) :
    Moves cc r0 (timeStep e s) := by
  unfold timeStep
  with_reducible repeat' first
    | assumption | exact fun _ => rfl | apply anchor_moves | apply happen_moves | extract_lets
    | (apply Moves.mk; apply setOffset_moves)

theorem lockMeasure_moves {cc : Bool} {r0 : State} (e : Int) (s : State) (hm : Moves cc r0 s) :
    Moves cc r0 (lockMeasure e s) := by
  unfold lockMeasure
  with_reducible repeat' first
    | assumption | exact fun _ => rfl | apply Moves.ite | apply setLock_moves | (apply Moves.mk; assumption) | intro _
    | extract_lets | split

theorem measure_moves {cc : Bool} {r0 : State} (e : Int) (s : State) (hm : Moves cc r0 s) :
    Moves cc r0 (measure e s) := by
  unfold measure
  with_reducible repeat' first
    | exact fun _ => rfl | apply Moves.ite | apply setR_moves | apply timeStep_moves | apply lockMeasure_moves
    | (apply Moves.mk; assumption) | intro _

theorem toHoldover_moves {cc : Bool} {r0 : State} (s : State) (hm : Moves cc r0 s) :
    Moves cc r0 (toHoldover s) := by
  unfold toHoldover
  with_reducible repeat' first | assumption | apply happen_moves | apply setLock_moves

theorem phaseCorrect_moves {cc : Bool} {r0 : State} (s : State) (hm : Moves cc r0 s) :
    Moves cc r0 (phaseCorrect s) := by
  unfold phaseCorrect
  with_reducible repeat' first
    | exact fun _ => rfl | apply Moves.ite | apply tick_moves | apply setR_moves | (apply Moves.mk; assumption)
    | intro _

theorem ctrlWrite_moves {cc : Bool} {r0 : State} (v : W32) (s : State) (hm : Moves cc r0 s) :
    Moves cc r0 (ctrlWrite v s) := by
  unfold ctrlWrite
  with_reducible repeat' first
    | assumption | exact fun _ => rfl | apply Moves.ite | apply setR_moves | apply setLock_moves | intro _
    | extract_lets | (apply Moves.mk; apply setR_moves)

theorem ptmExchangeDo_moves {cc : Bool} {r0 : State} (e : Int) (t : Nat) (s : State) (hm : Moves cc r0 s) :
    Moves cc r0 (ptmExchangeDo e t s) := by
  unfold ptmExchangeDo
  with_reducible repeat' first
    | assumption | exact fun _ => rfl | apply Moves.ite | apply measure_moves | (apply Moves.mk; assumption) | intro _

theorem ptmFailDo_moves {cc : Bool} {r0 : State} (notEnabled : Bool) (s : State) (hm : Moves cc r0 s) :
    Moves cc r0 (ptmFailDo notEnabled s) := by
  unfold ptmFailDo
  with_reducible repeat' first
    | assumption | exact fun _ => rfl | apply Moves.ite | apply happen_moves | apply toHoldover_moves
    | (apply Moves.mk; assumption) | intro _

theorem syncMissDo_moves {cc : Bool} {r0 : State} (s : State) (hm : Moves cc r0 s) :
    Moves cc r0 (syncMissDo s) := by
  unfold syncMissDo
  with_reducible repeat' first
    | assumption | exact fun _ => rfl | apply Moves.ite | apply toHoldover_moves | (apply Moves.mk; assumption)
    | intro _

theorem syncOutDo_moves {cc : Bool} {r0 : State} (s : State) (hm : Moves cc r0 s) :
    Moves cc r0 (syncOutDo s) := by
  unfold syncOutDo
  with_reducible repeat' first | exact fun _ => rfl | (apply Moves.mk; assumption)

theorem offsetWrite_moves {cc : Bool} {r0 : State} (v : W32) (s : State) (hm : Moves cc r0 s) :
    Moves cc r0 (offsetWrite v s) := by
  unfold offsetWrite
  with_reducible repeat' first | assumption | apply anchor_moves | apply setOffset_moves

theorem originWrite_moves {cc : Bool} {r0 : State} (hi : Bool) (v : W32) (s : State) (hm : Moves cc r0 s) :
    Moves cc r0 (originWrite hi v s) := by
  unfold originWrite
  with_reducible repeat' first | assumption | apply anchor_moves | apply setR_moves

theorem countRead_moves {cc : Bool} {r0 : State} (s : State) (hm : Moves cc r0 s) :
    Moves cc r0 (countRead s) := by
  unfold countRead
  with_reducible repeat' first | assumption | apply setR_moves

theorem execBgWindowApply_moves {cc : Bool} {r0 : State} (s : State) (hm : Moves cc r0 s) :
    MovesR cc r0 (execBgWindowApply s) := by
  unfold execBgWindowApply
  with_reducible repeat' first | assumption | apply MovesR.next | apply applyWins_moves

theorem execBeatWinApplyWrite_moves {cc : Bool} {r0 : State} (v : W32) (s : State) (hm : Moves cc r0 s) :
    MovesR cc r0 (execBeatWinApplyWrite v s) := by
  unfold execBeatWinApplyWrite
  with_reducible repeat' first | assumption | apply MovesR.next | apply guarded_moves | apply setR_moves

theorem execBeatSrcWrite_moves {cc : Bool} {r0 : State} (v : W32) (s : State) (hm : Moves cc r0 s) :
    MovesR cc r0 (execBeatSrcWrite v s) := by
  unfold execBeatSrcWrite
  with_reducible repeat' first | assumption | apply MovesR.next | apply guarded_moves | apply ctrlWrite_moves

theorem execBeatHostOffsetWrite_moves {cc : Bool} {r0 : State} (v : W32) (s : State) (hm : Moves cc r0 s) :
    MovesR cc r0 (execBeatHostOffsetWrite v s) := by
  unfold execBeatHostOffsetWrite
  with_reducible repeat' first | assumption | apply MovesR.next | apply guarded_moves | apply offsetWrite_moves

theorem execBeatOriginWrite_moves {cc : Bool} {r0 : State} (hi : Bool) (v : W32) (s : State) (hm : Moves cc r0 s) :
    MovesR cc r0 (execBeatOriginWrite hi v s) := by
  unfold execBeatOriginWrite
  with_reducible repeat' first | assumption | apply MovesR.next | apply guarded_moves | apply originWrite_moves

theorem execBeatCountLoRead_moves {cc : Bool} {r0 : State} (s : State) (hm : Moves cc r0 s) :
    MovesR cc r0 (execBeatCountLoRead s) := by
  unfold execBeatCountLoRead
  with_reducible repeat' first
    | assumption | apply MovesR.next | apply countRead_moves | apply accessDisabled_moves | apply accessStall_moves
    | split

theorem execPtmExchange_moves {cc : Bool} {r0 : State} (e : Int) (t : Nat) (s : State) (hm : Moves cc r0 s) :
    MovesR cc r0 (execPtmExchange e t s) := by
  unfold execPtmExchange
  with_reducible repeat' first | assumption | apply MovesR.next | apply ptmExchangeDo_moves

theorem execPtmExchangeFail_moves {cc : Bool} {r0 : State} (notEnabled : Bool) (s : State) (hm : Moves cc r0 s) :
    MovesR cc r0 (execPtmExchangeFail notEnabled s) := by
  unfold execPtmExchangeFail
  with_reducible repeat' first | assumption | apply MovesR.next | apply ptmFailDo_moves

theorem execSyncInEdge_moves {cc : Bool} {r0 : State} (e : Int) (s : State) (hm : Moves cc r0 s) :
    MovesR cc r0 (execSyncInEdge e s) := by
  unfold execSyncInEdge
  with_reducible repeat' first | assumption | apply Moves.ite | apply MovesR.next | apply measure_moves | intro _

theorem execSyncInMissing_moves {cc : Bool} {r0 : State} (s : State) (hm : Moves cc r0 s) :
    MovesR cc r0 (execSyncInMissing s) := by
  unfold execSyncInMissing
  with_reducible repeat' first | assumption | apply MovesR.next | apply syncMissDo_moves

theorem execSyncOutPulse_moves {cc : Bool} {r0 : State} (s : State) (hm : Moves cc r0 s) :
    MovesR cc r0 (execSyncOutPulse s) := by
  unfold execSyncOutPulse
  with_reducible repeat' first | assumption | apply MovesR.next | apply syncOutDo_moves

end Sys2Proof.Machine
end

