-- ==== Sys2Proof/Laws/Moves/Plan.lean ====
section
/-!
SUPPORT. Laws/Moves/Plan.lean: the operations of Machine/Plan.lean keep what `Moves` says.
-/

namespace Sys2Proof.Machine

theorem setBuf_moves {cc : Bool} {r0 : State} (u : PlanUnit) (b : Nat) (v : PlanBuf) (s : State) (hm : Moves cc r0 s) :
    Moves cc r0 (setBuf u b v s) := by
  unfold setBuf
  with_reducible repeat' first | exact fun _ => rfl | (apply Moves.mk; assumption)

theorem refund_moves {cc : Bool} {r0 : State} (p : PEnt) (s : State) (hm : Moves cc r0 s) :
    Moves cc r0 (refund p s) := by
  unfold refund
  with_reducible repeat' first | assumption | exact fun _ => rfl | (apply Moves.mk; assumption) | extract_lets | split

theorem retire_moves {cc : Bool} {r0 : State} (u : PlanUnit) (idx code : Nat) (s : State) (hm : Moves cc r0 s) :
    Moves cc r0 (retire u idx code s) := by
  unfold retire
  with_reducible repeat' first
    | assumption | apply Moves.ite | apply setBuf_moves | apply refund_moves | intro _ | extract_lets | split

theorem onEntry_moves {cc : Bool} {r0 : State} (u : PlanUnit) (idx op : Nat) (f : PEnt → State → State) (s : State) (hf : ∀ a0 u, Moves cc r0 u → Moves cc r0 (f a0 u)) (hm : Moves cc r0 s) :
    Moves cc r0 (onEntry u idx op f s) := by
  unfold onEntry
  with_reducible repeat' first | assumption | apply hf | split

theorem nopEntry_moves {cc : Bool} {r0 : State} (u : PlanUnit) (idx : Nat) (s : State) (hm : Moves cc r0 s) :
    Moves cc r0 (nopEntry u idx s) := by
  unfold nopEntry
  with_reducible repeat' first | assumption | apply onEntry_moves | apply retire_moves | intro _

theorem closedWrite_moves {cc : Bool} {r0 : State} (posted : Bool) (s : State) (hm : Moves cc r0 s) :
    Moves cc r0 (closedWrite posted s) := by
  unfold closedWrite
  with_reducible repeat' first | assumption | apply Moves.ite | apply happen_moves | apply emit_moves | intro _

theorem plannerFail_moves {cc : Bool} {r0 : State} (p : Nat) (s : State) (hm : Moves cc r0 s) :
    Moves cc r0 (plannerFail p s) := by
  unfold plannerFail
  with_reducible repeat' first
    | assumption | exact fun _ => rfl | apply Moves.ite | apply happen_moves | apply setCause_moves
    | apply fatal_moves | (apply Moves.mk; assumption) | intro _

theorem execPlanWriteClosedBuffer_moves {cc : Bool} {r0 : State} (_u : PlanUnit) (buf : Nat) (posted : Bool) (s : State) (hm : Moves cc r0 s) :
    MovesR cc r0 (execPlanWriteClosedBuffer _u buf posted s) := by
  unfold execPlanWriteClosedBuffer
  with_reducible repeat' first | assumption | apply Moves.ite | apply MovesR.next | apply closedWrite_moves | intro _

theorem execPlannerFailed_moves {cc : Bool} {r0 : State} (p : Nat) (s : State) (hm : Moves cc r0 s) :
    MovesR cc r0 (execPlannerFailed p s) := by
  unfold execPlannerFailed
  with_reducible repeat' first | assumption | apply MovesR.next | apply plannerFail_moves

theorem execFchNop_moves {cc : Bool} {r0 : State} (ch idx : Nat) (s : State) (hm : Moves cc r0 s) :
    MovesR cc r0 (execFchNop ch idx s) := by
  unfold execFchNop
  with_reducible repeat' first | assumption | apply MovesR.next | apply nopEntry_moves

theorem execSetTrim_moves {cc : Bool} {r0 : State} (ch idx : Nat) (s : State) (hm : Moves cc r0 s) :
    MovesR cc r0 (execSetTrim ch idx s) := by
  unfold execSetTrim
  with_reducible repeat' first | assumption | apply MovesR.next | apply onEntry_moves | apply retire_moves | intro _

theorem execCourseStep_moves {cc : Bool} {r0 : State} (ch idx : Nat) (s : State) (hm : Moves cc r0 s) :
    MovesR cc r0 (execCourseStep ch idx s) := by
  unfold execCourseStep
  with_reducible repeat' first | assumption | apply MovesR.next | apply onEntry_moves | apply retire_moves | intro _

theorem execLaneNop_moves {cc : Bool} {r0 : State} (lane idx : Nat) (s : State) (hm : Moves cc r0 s) :
    MovesR cc r0 (execLaneNop lane idx s) := by
  unfold execLaneNop
  with_reducible repeat' first | assumption | apply MovesR.next | apply nopEntry_moves

theorem execMacNop_moves {cc : Bool} {r0 : State} (p idx : Nat) (s : State) (hm : Moves cc r0 s) :
    MovesR cc r0 (execMacNop p idx s) := by
  unfold execMacNop
  with_reducible repeat' first | assumption | apply MovesR.next | apply nopEntry_moves

theorem execCplNop_moves {cc : Bool} {r0 : State} (c idx : Nat) (s : State) (hm : Moves cc r0 s) :
    MovesR cc r0 (execCplNop c idx s) := by
  unfold execCplNop
  with_reducible repeat' first | assumption | apply MovesR.next | apply nopEntry_moves

theorem execHodNop_moves {cc : Bool} {r0 : State} (idx : Nat) (s : State) (hm : Moves cc r0 s) :
    MovesR cc r0 (execHodNop idx s) := by
  unfold execHodNop
  with_reducible repeat' first | assumption | apply MovesR.next | apply nopEntry_moves

end Sys2Proof.Machine
end

