-- ==== Sys2Proof/Laws/Moves/Trowel.lean ====
section
/-!
SUPPORT. Laws/Moves/Trowel.lean: the operations of Machine/Trowel.lean keep what `Moves` says.
-/

namespace Sys2Proof.Machine

theorem loseMus_moves {cc : Bool} {r0 : State} (mus : List (Nat × Nat)) (cause1 : Nat) (cause0 : Option Nat) (s : State) (hm : Moves cc r0 s) :
    Moves cc r0 (loseMus mus cause1 cause0 s) := by
  unfold loseMus
  with_reducible repeat' first
    | assumption | apply mapSet_moves | apply blocksLost_moves | apply deferredError_moves | apply Moves.foldl
    | intro _ | extract_lets | split

theorem queueRefresh_moves {cc : Bool} {r0 : State} (reason c : Nat) (s : State) (hm : Moves cc r0 s) :
    Moves cc r0 (queueRefresh reason c s) := by
  unfold queueRefresh
  with_reducible repeat' first
    | assumption | exact fun _ => rfl | apply Moves.ite | intro _ | extract_lets
    | (apply Moves.mk; apply setCourse_moves)

theorem countRead1_moves {cc : Bool} {r0 : State} (ch lun b : Nat) (s : State) (hm : Moves cc r0 s) :
    Moves cc r0 (countRead1 ch lun b s) := by
  unfold countRead1
  with_reducible repeat' first
    | assumption | apply Moves.ite | apply setBrick_moves | apply queueRefresh_moves | intro _ | extract_lets | split

theorem atMargin_moves {cc : Bool} {r0 : State} (ch lun b : Nat) (s : State) (hm : Moves cc r0 s) :
    Moves cc r0 (atMargin ch lun b s) := by
  unfold atMargin
  with_reducible repeat' first | assumption | apply queueRefresh_moves | split

theorem gcTrigger_moves {cc : Bool} {r0 : State} (t : Nat) (s : State) (hm : Moves cc r0 s) :
    Moves cc r0 (gcTrigger t s) := by
  unfold gcTrigger
  with_reducible repeat' first
    | assumption | exact fun _ => rfl | apply Moves.ite | apply setF_moves | apply happen_moves
    | (apply Moves.mk; assumption) | intro _

theorem giveUp_moves {cc : Bool} {r0 : State} (c : Nat) (s : State) (hm : Moves cc r0 s) :
    Moves cc r0 (giveUp c s) := by
  unfold giveUp
  with_reducible repeat' first
    | assumption | exact fun _ => rfl | apply setBrick_moves | apply setF_moves | apply bindRecord_moves
    | apply noteSpares_moves | apply Moves.foldl | intro _ | extract_lets | (apply Moves.mk; apply setCourse_moves)

theorem giveUpOne_moves {cc : Bool} {r0 : State} (s : State) (hm : Moves cc r0 s) : MovesO cc r0 (giveUpOne s) := by
  unfold giveUpOne
  refine .ite (fun _ => ?_) (fun _ => .none)
  intro t e
  obtain ⟨c, -, rfl⟩ := Option.map_eq_some_iff.1 e
  exact giveUp_moves _ _ hm

theorem giveUpOne_movesE {cc : Bool} {r0 : State} {s : State} {t0 : State} (hm : Moves cc r0 s) (e : giveUpOne s = some t0) :
    Moves cc r0 t0 := giveUpOne_moves _ hm _ e

theorem relieveSpares_moves {cc : Bool} {r0 : State} (n : Nat) (s : State) (hm : Moves cc r0 s) : Moves cc r0 (relieveSpares n s) := by
  induction n generalizing s with
  | zero => exact hm
  | succ n ih =>
    unfold relieveSpares
    refine .ite (fun _ => ?_) (fun _ => hm)
    split
    · exact ih _ (giveUpOne_movesE hm ‹_›)
    · exact hm

theorem replaceAt_moves {cc : Bool} {r0 : State} (c k : Nat) (s : State) (hm : Moves cc r0 s) : MovesO cc r0 (replaceAt c k s) := by
  intro t e
  unfold replaceAt at e
  dsimp only at e
  split at e
  · cases e
  · split at e
    · rename_i t' h
      cases e
      obtain ⟨x, -, rfl⟩ := Option.map_eq_some_iff.1 h
      exact setRow_moves _ _ _ hm
    · split at e
      · rename_i h
        obtain ⟨x, -, rfl⟩ := Option.map_eq_some_iff.1 e
        exact setRow_moves _ _ _ (giveUpOne_movesE hm h)
      · cases e

theorem replaceAt_movesE {cc : Bool} {r0 : State} {c k : Nat} {s : State} {t0 : State} (hm : Moves cc r0 s) (e : replaceAt c k s = some t0) :
    Moves cc r0 t0 := replaceAt_moves _ _ _ hm _ e

theorem retireBrick_moves {cc : Bool} {r0 : State} (ch lun b : Nat) (s : State) (hm : Moves cc r0 s) :
    Moves cc r0 (retireBrick ch lun b s) := by
  unfold retireBrick
  with_reducible repeat' first
    | assumption | apply Moves.ite | apply addF_moves | apply setBrick_moves | apply noteSpares_moves
    | apply setF_moves | intro _

theorem noteRebuild_moves {cc : Bool} {r0 : State} (s : State) (hm : Moves cc r0 s) :
    Moves cc r0 (noteRebuild s) := by
  unfold noteRebuild
  with_reducible repeat' first
    | exact fun _ => rfl | apply Moves.ite | apply setF_moves | apply mediaAen_moves | apply happen_moves
    | (apply Moves.mk; assumption) | intro _

theorem startRebuild_moves {cc : Bool} {r0 : State} (s : State) (hm : Moves cc r0 s) :
    Moves cc r0 (startRebuild s) := by
  unfold startRebuild
  with_reducible repeat' first
    | assumption | exact fun _ => rfl | apply Moves.ite | apply noteRebuild_moves | apply sparesExhausted_moves
    | intro _ | extract_lets | split | (apply Moves.mk; refine replaceAt_movesE ?_ ‹_›)

theorem secondLoss_moves {cc : Bool} {r0 : State} (c : Nat) (s : State) (hm : Moves cc r0 s) :
    Moves cc r0 (secondLoss c s) := by
  unfold secondLoss
  with_reducible repeat' first | assumption | apply Moves.ite | apply loseMus_moves | intro _

theorem loseLun_moves {cc : Bool} {r0 : State} (ch lun : Nat) (s : State) (hm : Moves cc r0 s) :
    Moves cc r0 (loseLun ch lun s) := by
  unfold loseLun
  with_reducible repeat' first
    | assumption | apply Moves.ite | apply setF_moves | apply retireBrick_moves | apply setCause_moves
    | apply happen_moves | apply secondLoss_moves | apply startRebuild_moves | apply noteRebuild_moves
    | apply mediaAen_moves | apply Moves.foldl | intro _

theorem loseChannel_moves {cc : Bool} {r0 : State} (ch : Nat) (s : State) (hm : Moves cc r0 s) :
    Moves cc r0 (loseChannel ch s) := by
  unfold loseChannel
  with_reducible repeat' first | assumption | apply loseLun_moves | apply Moves.foldl | intro _

theorem checkRetired_moves {cc : Bool} {r0 : State} (ch lun : Nat) (s : State) (hm : Moves cc r0 s) :
    Moves cc r0 (checkRetired ch lun s) := by
  unfold checkRetired
  with_reducible repeat' first | assumption | apply Moves.ite | apply loseLun_moves | intro _

theorem checkResets_moves {cc : Bool} {r0 : State} (ch lun : Nat) (s : State) (hm : Moves cc r0 s) :
    Moves cc r0 (checkResets ch lun s) := by
  unfold checkResets
  with_reducible repeat' first | assumption | apply Moves.ite | apply loseLun_moves | intro _

theorem noteXfer_moves {cc : Bool} {r0 : State} (ch lun : Nat) (s : State) (hm : Moves cc r0 s) :
    Moves cc r0 (noteXfer ch lun s) := by
  unfold noteXfer
  with_reducible repeat' first
    | exact fun _ => rfl | apply addF_moves | apply happen_moves | (apply Moves.mk; assumption)

theorem xferGood_moves {cc : Bool} {r0 : State} (ch : Nat) (s : State) (hm : Moves cc r0 s) :
    Moves cc r0 (xferGood ch s) := by
  unfold xferGood
  with_reducible repeat' first | exact fun _ => rfl | (apply Moves.mk; assumption)

theorem fchRetrainDo_moves {cc : Bool} {r0 : State} (ch : Nat) (ok : Bool) (s : State) (hm : Moves cc r0 s) :
    Moves cc r0 (fchRetrainDo ch ok s) := by
  unfold fchRetrainDo
  with_reducible repeat' first
    | exact fun _ => rfl | apply Moves.ite | apply xferGood_moves | apply loseChannel_moves
    | (apply Moves.mk; assumption) | intro _

theorem execFchRetrain_moves {cc : Bool} {r0 : State} (ch : Nat) (ok : Bool) (s : State) (hm : Moves cc r0 s) :
    MovesR cc r0 (execFchRetrain ch ok s) := by
  unfold execFchRetrain
  with_reducible repeat' first | assumption | apply Moves.ite | apply MovesR.next | apply fchRetrainDo_moves | intro _

theorem programFailed_moves {cc : Bool} {r0 : State} (ch lun b : Nat) (s : State) (hm : Moves cc r0 s) :
    Moves cc r0 (programFailed ch lun b s) := by
  unfold programFailed
  with_reducible repeat' first
    | assumption | apply addF_moves | apply happen_moves | apply retireBrick_moves | apply setF_moves
    | apply setCourse_moves | apply setCtx_moves | apply sparesExhausted_moves | apply relieveSpares_moves
    | apply checkRetired_moves | refine replaceAt_movesE ?_ ‹_› | extract_lets | split

theorem eraseFailed_moves {cc : Bool} {r0 : State} (ch lun b : Nat) (s : State) (hm : Moves cc r0 s) :
    Moves cc r0 (eraseFailed ch lun b s) := by
  unfold eraseFailed
  with_reducible repeat' first
    | assumption | apply relieveSpares_moves | apply checkRetired_moves | apply retireBrick_moves | apply addF_moves
    | apply happen_moves

theorem noteArmed_moves {cc : Bool} {r0 : State} (s : State) (hm : Moves cc r0 s) :
    Moves cc r0 (noteArmed s) := by
  unfold noteArmed
  with_reducible repeat' first | assumption | apply setF_moves

theorem armSets_moves {cc : Bool} {r0 : State} (s : State) (hm : Moves cc r0 s) :
    Moves cc r0 (armSets s) := by
  unfold armSets
  with_reducible repeat' first
    | assumption | exact fun _ => rfl | apply Moves.ite | apply noteArmed_moves | (apply Moves.mk; assumption)
    | intro _

theorem courseErased_moves {cc : Bool} {r0 : State} (c : Nat) (s : State) (hm : Moves cc r0 s) :
    Moves cc r0 (courseErased c s) := by
  unfold courseErased
  with_reducible repeat' first
    | assumption | exact fun _ => rfl | apply Moves.ite | apply journal_moves | apply addF_moves | apply armSets_moves
    | apply setRow_moves | apply giveUp_moves | intro _ | extract_lets | split
    | (apply Moves.mk; apply setCourse_moves)

theorem noteWear_moves {cc : Bool} {r0 : State} (s : State) (hm : Moves cc r0 s) :
    Moves cc r0 (noteWear s) := by
  unfold noteWear
  with_reducible repeat' first | assumption | apply setF_moves

end Sys2Proof.Machine
end

