-- ==== Sys2Proof/Laws/Moves/Read.lean ====
section
/-!
SUPPORT. Laws/Moves/Read.lean: the operations of Machine/Read.lean keep what `Moves` says.
-/

namespace Sys2Proof.Machine

theorem setRd_moves {cc : Bool} {r0 : State} (i : Nat) (v : Rd) (s : State) (hm : Moves cc r0 s) :
    Moves cc r0 (setRd i v s) := by
  unfold setRd
  with_reducible repeat' first | exact fun _ => rfl | (apply Moves.mk; assumption)

theorem newRd_moves {cc : Bool} {r0 : State} (r : Rd) (s : State) (hm : Moves cc r0 s) :
    MovesP cc r0 (newRd r s) := by
  unfold newRd
  with_reducible repeat' first
    | exact fun _ => rfl | apply MovesP.pair | apply setRd_moves | (apply Moves.mk; assumption)

theorem newRd_movesE {cc : Bool} {r0 : State} {r : Rd} {s : State} {a0} {t0 : State} (hm : Moves cc r0 s) (e : newRd r s = (a0, t0)) :
    Moves cc r0 t0 := newRd_moves _ _ hm _ _ e

theorem dropRd_moves {cc : Bool} {r0 : State} (i : Nat) (s : State) (hm : Moves cc r0 s) :
    Moves cc r0 (dropRd i s) := by
  unfold dropRd
  with_reducible repeat' first
    | exact fun _ => rfl | apply setSlot_moves | (apply Moves.mk; assumption) | apply Moves.foldl | intro _

theorem rdTo_moves {cc : Bool} {r0 : State} (i : Nat) (st : RdSt) (s : State) (hm : Moves cc r0 s) :
    Moves cc r0 (rdTo i st s) := by
  unfold rdTo
  with_reducible repeat' first | assumption | apply setRd_moves

theorem blockDone_moves {cc : Bool} {r0 : State} (i lba : Nat) (bad : Option Sts) (s : State) (hm : Moves cc r0 s) :
    Moves cc r0 (blockDone i lba bad s) := by
  unfold blockDone
  with_reducible repeat' first | assumption | apply Moves.ite | apply setCmd_moves | intro _

theorem errInfoLog_moves {cc : Bool} {r0 : State} (i : Nat) (s : State) (hm : Moves cc r0 s) :
    Moves cc r0 (errInfoLog i s) := by
  unfold errInfoLog
  with_reducible repeat' first | assumption | apply setFn_moves

theorem noteTag_moves {cc : Bool} {r0 : State} (i lba : Nat) (x : TagRes) (s : State) (hm : Moves cc r0 s) :
    Moves cc r0 (noteTag i lba x s) := by
  unfold noteTag
  with_reducible repeat' first | assumption | apply Moves.ite | apply setCmd_moves | intro _

theorem endIfDone_moves {cc : Bool} {r0 : State} (i : Nat) (s : State) (hm : Moves cc r0 s) :
    Moves cc r0 (endIfDone i s) := by
  unfold endIfDone
  with_reducible repeat' first
    | assumption | apply Moves.ite | apply ready_moves | apply errInfoLog_moves | apply tick_moves | intro _
    | extract_lets | split

theorem nextWseq_moves {cc : Bool} {r0 : State} (s : State) (hm : Moves cc r0 s) :
    MovesP cc r0 (nextWseq s) := by
  unfold nextWseq
  with_reducible repeat' first | exact fun _ => rfl | apply MovesP.pair | (apply Moves.mk; assumption)

theorem nextWseq_movesE {cc : Bool} {r0 : State} {s : State} {a0} {t0 : State} (hm : Moves cc r0 s) (e : nextWseq s = (a0, t0)) :
    Moves cc r0 t0 := nextWseq_moves _ hm _ _ e

theorem fillSlot_moves {cc : Bool} {r0 : State} (k t : Nat) (b : Blk) (s : State) (hm : Moves cc r0 s) :
    Moves cc r0 (fillSlot k t b s) := by
  unfold fillSlot
  with_reducible repeat' first | assumption | apply setSlot_moves

theorem fillLost_moves {cc : Bool} {r0 : State} (k t : Nat) (s : State) (hm : Moves cc r0 s) :
    Moves cc r0 (fillLost k t s) := by
  unfold fillLost
  with_reducible repeat' first | assumption | (apply MovesP.snd; apply nextWseq_moves) | apply fillSlot_moves

theorem unrecoverable_moves {cc : Bool} {r0 : State} (i : Nat) (s : State) (hm : Moves cc r0 s) :
    Moves cc r0 (unrecoverable i s) := by
  unfold unrecoverable
  with_reducible repeat' first
    | assumption | exact fun _ => rfl | apply Moves.ite | apply happen_moves | apply addF_moves
    | apply blocksLost_moves | intro _ | extract_lets | split | (apply Moves.mk; apply happen_moves)

theorem rdFail_moves {cc : Bool} {r0 : State} (i : Nat) (s : State) (hm : Moves cc r0 s) :
    Moves cc r0 (rdFail i s) := by
  unfold rdFail
  with_reducible repeat' first
    | assumption | apply dropRd_moves | apply blockDone_moves | apply unrecoverable_moves | apply endIfDone_moves
    | apply noteTag_moves | apply fillLost_moves | apply blocksLost_moves | apply queueRefresh_moves | extract_lets
    | split

theorem readAround_moves {cc : Bool} {r0 : State} (i : Nat) (s : State) (hm : Moves cc r0 s) : Moves cc r0 (readAround i s) := by
  unfold readAround
  extract_lets r
  split
  · exact rdFail_moves _ _ hm
  · split
    rename_i e
    exact setRd_moves _ _ _ ((foldl_movesP (fun _ _ e => by cases e; exact addF_moves _ _ _ hm)
      (fun acc x h => .pair (newRd_movesE (h _ _ rfl) rfl))) _ _ e)

theorem goStep_moves {cc : Bool} {r0 : State} (i k : Nat) (s : State) (hm : Moves cc r0 s) :
    Moves cc r0 (goStep i k s) := by
  unfold goStep
  with_reducible repeat' first
    | assumption | apply Moves.ite | apply readAround_moves | apply rdFail_moves | apply setRd_moves
    | apply happen_moves | intro _ | extract_lets | split

theorem climb_moves {cc : Bool} {r0 : State} (i : Nat) (s : State) (hm : Moves cc r0 s) :
    Moves cc r0 (climb i s) := by
  unfold climb
  with_reducible repeat' first
    | assumption | apply Moves.ite | apply dropRd_moves | apply rdFail_moves | apply setRd_moves | apply goStep_moves
    | apply Moves.foldl | intro _ | extract_lets | split

theorem recordSet_moves {cc : Bool} {r0 : State} (r : Rd) (s : State) (hm : Moves cc r0 s) :
    Moves cc r0 (recordSet r s) := by
  unfold recordSet
  with_reducible repeat' first
    | assumption | exact fun _ => rfl | apply Moves.ite | (apply Moves.mk; assumption) | intro _

theorem sourceDone_moves {cc : Bool} {r0 : State} (i : Nat) (b : Blk) (s : State) (hm : Moves cc r0 s) :
    Moves cc r0 (sourceDone i b s) := by
  unfold sourceDone
  with_reducible repeat' first | assumption | apply dropRd_moves | apply setRd_moves | extract_lets | split

theorem sampleDone_moves {cc : Bool} {r0 : State} (i : Nat) (margin : Bool) (s : State) (hm : Moves cc r0 s) :
    Moves cc r0 (sampleDone i margin s) := by
  unfold sampleDone
  with_reducible repeat' first | assumption | apply Moves.ite | apply dropRd_moves | apply atMargin_moves | intro _

theorem decodeDone_moves {cc : Bool} {r0 : State} (i : Nat) (d : DecodeResult) (s : State) (hm : Moves cc r0 s) :
    Moves cc r0 (decodeDone i d s) := by
  unfold decodeDone
  with_reducible repeat' first
    | assumption | apply Moves.ite | apply oncePerFrame_moves | apply happen_moves | apply addThousand_moves
    | apply atMargin_moves | apply addF_moves | apply sourceDone_moves | apply sampleDone_moves | apply setRd_moves
    | apply climb_moves | intro _ | extract_lets | split

theorem countStep_moves {cc : Bool} {r0 : State} (r : Rd) (s : State) (hm : Moves cc r0 s) :
    Moves cc r0 (countStep r s) := by
  unfold countStep
  with_reducible repeat' first | assumption | apply addF_moves | split

theorem sendBlock_moves {cc : Bool} {r0 : State} (r : Rd) (s0 : State) (hm : Moves cc r0 s0) :
    Moves cc r0 (sendBlock r s0) := by
  unfold sendBlock
  with_reducible repeat' first | assumption | apply Moves.ite | apply setCmd_moves | apply toHost_moves | intro _

theorem tagFormed_moves {cc : Bool} {r0 : State} (s : State) (hm : Moves cc r0 s) :
    Moves cc r0 (tagFormed s) := by
  unfold tagFormed
  with_reducible repeat' first | assumption | apply addThousand_moves

theorem verified_moves {cc : Bool} {r0 : State} (i : Nat) (pi : Option PiError) (s : State) (hm : Moves cc r0 s) :
    Moves cc r0 (verified i pi s) := by
  unfold verified
  with_reducible repeat' first
    | assumption | apply Moves.ite | apply dropRd_moves | apply blockDone_moves | apply sendBlock_moves
    | apply endIfDone_moves | apply noteTag_moves | apply fillSlot_moves | apply tagFormed_moves | intro _
    | extract_lets | split

theorem unverifiable_moves {cc : Bool} {r0 : State} (i : Nat) (s : State) (hm : Moves cc r0 s) :
    Moves cc r0 (unverifiable i s) := by
  unfold unverifiable
  with_reducible repeat' first
    | assumption | apply addF_moves | apply dropRd_moves | apply blockDone_moves | apply endIfDone_moves
    | apply noteTag_moves | apply fillLost_moves | apply blocksLost_moves | extract_lets | split

theorem macCheck_moves {cc : Bool} {r0 : State} (i : Nat) (pi : Option PiError) (s : State) (hm : Moves cc r0 s) :
    Moves cc r0 (macCheck i pi s) := by
  unfold macCheck
  with_reducible repeat' first
    | assumption | apply Moves.ite | apply unverifiable_moves | apply verified_moves | apply recordSet_moves
    | apply countStep_moves | apply addThousand_moves | apply addF_moves | apply happen_moves | apply rdFail_moves
    | apply climb_moves | intro _

theorem macEntry_moves {cc : Bool} {r0 : State} (p idx op : Nat) (rds : List Nat) (s : State) (hm : Moves cc r0 s) :
    Moves cc r0 (macEntry p idx op rds s) := by
  unfold macEntry
  with_reducible repeat' first
    | assumption | apply onEntry_moves | apply retire_moves | apply rdTo_moves | apply Moves.foldl | intro _

theorem retagVersions_moves {cc : Bool} {r0 : State} (p idx : Nat) (rds : List Nat) (s : State) (hm : Moves cc r0 s) :
    Moves cc r0 (retagVersions p idx rds s) := by
  unfold retagVersions
  with_reducible repeat' first
    | assumption | apply Moves.ite | apply setSlot_moves | apply Moves.foldl | intro _ | extract_lets | split

theorem rawEntry_moves {cc : Bool} {r0 : State} (p idx : Nat) (s : State) (hm : Moves cc r0 s) :
    Moves cc r0 (rawEntry p idx s) := by
  unfold rawEntry
  with_reducible repeat' first
    | assumption | apply onEntry_moves | apply retire_moves | apply dropRd_moves | apply fillSlot_moves
    | apply setSlot_moves | apply Moves.foldl | intro _ | extract_lets | split

theorem execLdpcDecodeDone_moves {cc : Bool} {r0 : State} (rd : Nat) (r : DecodeResult) (s : State) (hm : Moves cc r0 s) :
    MovesR cc r0 (execLdpcDecodeDone rd r s) := by
  unfold execLdpcDecodeDone
  with_reducible repeat' first | assumption | apply Moves.ite | apply MovesR.next | apply decodeDone_moves | intro _

theorem execMacCheckDone_moves {cc : Bool} {r0 : State} (rd : Nat) (pi : Option PiError) (s : State) (hm : Moves cc r0 s) :
    MovesR cc r0 (execMacCheckDone rd pi s) := by
  unfold execMacCheckDone
  with_reducible repeat' first | assumption | apply Moves.ite | apply MovesR.next | apply macCheck_moves | intro _

theorem execVerifyEntry_moves {cc : Bool} {r0 : State} (p idx : Nat) (rds : List Nat) (s : State) (hm : Moves cc r0 s) :
    MovesR cc r0 (execVerifyEntry p idx rds s) := by
  unfold execVerifyEntry
  with_reducible repeat' first | assumption | apply MovesR.next | apply macEntry_moves

theorem execRetag_moves {cc : Bool} {r0 : State} (p idx : Nat) (rds : List Nat) (s : State) (hm : Moves cc r0 s) :
    MovesR cc r0 (execRetag p idx rds s) := by
  unfold execRetag
  with_reducible repeat' first | assumption | apply MovesR.next | apply macEntry_moves | apply retagVersions_moves

theorem execRaw_moves {cc : Bool} {r0 : State} (p idx : Nat) (s : State) (hm : Moves cc r0 s) :
    MovesR cc r0 (execRaw p idx s) := by
  unfold execRaw
  with_reducible repeat' first | assumption | apply MovesR.next | apply rawEntry_moves

end Sys2Proof.Machine
end

