-- ==== Sys2Proof/Laws/Moves/Commit.lean ====
section
/-!
SUPPORT. Laws/Moves/Commit.lean: the operations of Machine/Commit.lean keep what `Moves` says.
-/

namespace Sys2Proof.Machine

theorem chargeEntry_moves {cc : Bool} {r0 : State} (beat ch lun acct cost : Nat) (urgent : Bool) (s : State) (hm : Moves cc r0 s) :
    Moves cc r0 (chargeEntry beat ch lun acct cost urgent s) := by
  unfold chargeEntry
  with_reducible repeat' first
    | exact fun _ => rfl | apply Moves.ite | apply addThousand_moves | (apply Moves.mk; assumption) | intro _
    | extract_lets | (apply Moves.mk; apply Moves.mk; assumption)

theorem startReads_moves {cc : Bool} {r0 : State} (kind : RdKind) (tile nsid lba : Nat) (ent : Ent) (ts : List Nat) (s : State) (hm : Moves cc r0 s) :
    Moves cc r0 (startReads kind tile nsid lba ent ts s) := by
  unfold startReads
  with_reducible repeat' first | assumption | (apply MovesP.snd; apply newRd_moves) | apply Moves.foldl | intro _

theorem startReloc_moves {cc : Bool} {r0 : State} (slot ch lun b u : Nat) (ts : List Nat) (s : State) (hm : Moves cc r0 s) :
    Moves cc r0 (startReloc slot ch lun b u ts s) := by
  unfold startReloc
  with_reducible repeat' first
    | assumption | apply Moves.ite | apply startReads_moves | apply putEnt_moves | apply notePeak_moves
    | apply setSlot_moves | intro _ | extract_lets | split

theorem startFold_moves {cc : Bool} {r0 : State} (slot ch lun b u : Nat) (ts : List Nat) (s : State) (hm : Moves cc r0 s) :
    Moves cc r0 (startFold slot ch lun b u ts s) := by
  unfold startFold
  with_reducible repeat' first
    | assumption | apply Moves.ite | apply setSlot_moves | apply notePeak_moves | apply addF_moves
    | apply startReads_moves | apply mapYard_moves | intro _ | extract_lets | split

theorem startCopy_moves {cc : Bool} {r0 : State} (ch : Nat) (e : PlanEntry) (s : State) (hm : Moves cc r0 s) :
    Moves cc r0 (startCopy ch e s) := by
  unfold startCopy
  with_reducible repeat' first
    | assumption | apply Moves.ite | apply addF_moves | apply startReads_moves | apply startFold_moves
    | apply startReloc_moves | intro _ | extract_lets | split

theorem setLun_moves {cc : Bool} {r0 : State} (ch lun : Nat) (v : Lun) (s : State) (hm : Moves cc r0 s) :
    Moves cc r0 (setLun ch lun v s) := by
  unfold setLun
  with_reducible repeat' first | exact fun _ => rfl | (apply Moves.mk; assumption)

theorem noteLate_moves {cc : Bool} {r0 : State} (s0 : State) (beat : Nat) (l : List Nat) (tile ch lun : Nat) (out : Bool) (s : State) (hm : Moves cc r0 s) :
    Moves cc r0 (noteLate s0 beat l tile ch lun out s) := by
  unfold noteLate
  with_reducible repeat' first
    | assumption | exact fun _ => rfl | apply Moves.ite | apply addF_moves | apply happen_moves
    | apply happenTile_moves | (apply Moves.mk; assumption) | intro _

theorem chooseAround_moves {cc : Bool} {r0 : State} (i : Nat) (s : State) (hm : Moves cc r0 s) :
    Moves cc r0 (chooseAround i s) := by
  unfold chooseAround
  with_reducible repeat' first | assumption | apply readAround_moves | apply happen_moves | apply addF_moves

theorem readStarts_moves {cc : Bool} {r0 : State} (i : Nat) (s : State) (hm : Moves cc r0 s) :
    Moves cc r0 (readStarts i s) := by
  unfold readStarts
  with_reducible repeat' first | assumption | apply Moves.ite | apply setCmd_moves | intro _

theorem commitFch_moves {cc : Bool} {r0 : State} (ch beat : Nat) (ents : List PlanEntry) (i : Nat) (e : PlanEntry) (a : Option Account) (s : State) (hm : Moves cc r0 s) :
    MovesP cc r0 (commitFch ch beat ents i e a s) := by
  unfold commitFch
  with_reducible repeat' first
    | assumption | apply MovesP.ite | apply MovesP.pair | apply chargeEntry_moves | apply noteLate_moves
    | apply startCopy_moves | apply chooseAround_moves | apply readStarts_moves | apply Moves.foldl | split | intro _

theorem commitFch_movesE {cc : Bool} {r0 : State} {ch beat : Nat} {ents : List PlanEntry} {i : Nat} {e : PlanEntry} {a : Option Account} {s : State} {a0} {t0 : State} (hm : Moves cc r0 s) (e : commitFch ch beat ents i e a s = (a0, t0)) :
    Moves cc r0 t0 := commitFch_moves _ _ _ _ _ _ _ hm _ _ e

theorem commitPost_moves {cc : Bool} {r0 : State} (e : PlanEntry) (s : State) (hm : Moves cc r0 s) :
    Moves cc r0 (commitPost e s) := by
  unfold commitPost
  with_reducible repeat' first
    | assumption | apply Moves.ite | apply setCmd_moves | apply setSlot_moves | apply Moves.foldl | intro _

theorem commitAll_moves {cc : Bool} {r0 : State} (u : PlanUnit) (beat : Nat) (ents : List PlanEntry) (accts : List Account) (s : State)
    (hm : Moves cc r0 s) : MovesP cc r0 (commitAll u beat ents accts s) := by
  unfold commitAll
  split
  · refine foldl_movesP (fun _ _ e => by cases e; exact hm) (fun acc i h => ?_)
    split
    · exact .pair (commitFch_movesE (h _ _ rfl) rfl)
    · exact h
  · exact .pair (.foldl hm (fun _ _ hu => commitPost_moves _ _ hu))
  · exact .pair hm

theorem commitAll_movesE {cc : Bool} {r0 : State} {u : PlanUnit} {beat : Nat} {ents : List PlanEntry} {accts : List Account} {s : State} {a0} {t0 : State} (hm : Moves cc r0 s) (e : commitAll u beat ents accts s = (a0, t0)) :
    Moves cc r0 t0 := commitAll_moves _ _ _ _ _ hm _ _ e

theorem planCommit_moves {cc : Bool} {r0 : State} (u : PlanUnit) (writer target : Nat) (ents : List PlanEntry) (accts : List Account) (s : State) (hm : Moves cc r0 s) :
    Moves cc r0 (planCommit u writer target ents accts s) := by
  unfold planCommit
  with_reducible repeat' first
    | assumption | apply Moves.ite | (apply MovesP.snd; apply commitAll_moves) | apply setBuf_moves
    | apply closedWrite_moves | intro _

theorem execPlanCommit_moves {cc : Bool} {r0 : State} (u : PlanUnit) (writer target : Nat) (entries : List PlanEntry) (accts : List Account) (s : State) (hm : Moves cc r0 s) :
    MovesR cc r0 (execPlanCommit u writer target entries accts s) := by
  unfold execPlanCommit
  with_reducible repeat' first | assumption | apply MovesR.next | apply planCommit_moves

end Sys2Proof.Machine
end

