-- ==== Sys2Proof/Laws/Moves/Die.lean ====
section
/-!
SUPPORT. Laws/Moves/Die.lean: the operations of Machine/Die.lean keep what `Moves` says.
-/

namespace Sys2Proof.Machine

theorem launch_moves {cc : Bool} {r0 : State} (ch idx : Nat) (p : PEnt) (free : Bool) (go : State → State) (s : State) (hgo : ∀ u, Moves cc r0 u → Moves cc r0 (go u)) (hm : Moves cc r0 s) :
    Moves cc r0 (launch ch idx p free go s) := by
  unfold launch
  with_reducible repeat' first | assumption | apply Moves.ite | apply hgo | apply retire_moves | intro _

theorem startOp_moves {cc : Bool} {r0 : State} (ch : Nat) (p : PEnt) (kind : DieKind) (s : State) (hm : Moves cc r0 s) :
    Moves cc r0 (startOp ch p kind s) := by
  unfold startOp
  with_reducible repeat' first | assumption | apply setLun_moves

theorem launchReads_moves {cc : Bool} {r0 : State} (ch : Nat) (e : PlanEntry) (s : State) (hm : Moves cc r0 s) :
    Moves cc r0 (launchReads ch e s) := by
  unfold launchReads
  with_reducible repeat' first
    | assumption | apply addThousand_moves | apply countRead1_moves | apply rdTo_moves | apply Moves.foldl | intro _

theorem joinRead_moves {cc : Bool} {r0 : State} (ch : Nat) (p : PEnt) (s : State) (hm : Moves cc r0 s) :
    Moves cc r0 (joinRead ch p s) := by
  unfold joinRead
  with_reducible repeat' first | assumption | apply setLun_moves | apply startOp_moves | extract_lets | split

theorem readPageDo_moves {cc : Bool} {r0 : State} (ch idx : Nat) (s : State) (hm : Moves cc r0 s) :
    Moves cc r0 (readPageDo ch idx s) := by
  unfold readPageDo
  with_reducible repeat' first
    | assumption | apply Moves.ite | apply onEntry_moves | apply launch_moves | apply launchReads_moves
    | apply joinRead_moves | apply startOp_moves | intro _

theorem readSoftDo_moves {cc : Bool} {r0 : State} (ch idx : Nat) (s : State) (hm : Moves cc r0 s) :
    Moves cc r0 (readSoftDo ch idx s) := by
  unfold readSoftDo
  with_reducible repeat' first
    | assumption | apply onEntry_moves | apply launch_moves | apply launchReads_moves | apply startOp_moves | intro _

theorem programDo_moves {cc : Bool} {r0 : State} (ch idx : Nat) (s : State) (hm : Moves cc r0 s) :
    Moves cc r0 (programDo ch idx s) := by
  unfold programDo
  with_reducible repeat' first | assumption | apply onEntry_moves | apply launch_moves | apply startOp_moves | intro _

theorem eraseDo_moves {cc : Bool} {r0 : State} (ch idx : Nat) (s : State) (hm : Moves cc r0 s) :
    Moves cc r0 (eraseDo ch idx s) := by
  unfold eraseDo
  with_reducible repeat' first
    | assumption | apply Moves.ite | apply onEntry_moves | apply launch_moves | apply startOp_moves
    | apply setCourse_moves | intro _ | extract_lets | split

theorem suspendOp_moves {cc : Bool} {r0 : State} (ch lun : Nat) (o : DieOp) (s : State) (hm : Moves cc r0 s) :
    Moves cc r0 (suspendOp ch lun o s) := by
  unfold suspendOp
  with_reducible repeat' first | assumption | apply addF_moves | apply setLun_moves

theorem suspendDo_moves {cc : Bool} {r0 : State} (ch idx : Nat) (s : State) (hm : Moves cc r0 s) :
    Moves cc r0 (suspendDo ch idx s) := by
  unfold suspendDo
  with_reducible repeat' first
    | assumption | apply Moves.ite | apply onEntry_moves | apply retire_moves | apply suspendOp_moves | intro _
    | extract_lets | split

theorem resumeDo_moves {cc : Bool} {r0 : State} (ch idx : Nat) (s : State) (hm : Moves cc r0 s) :
    Moves cc r0 (resumeDo ch idx s) := by
  unfold resumeDo
  with_reducible repeat' first
    | assumption | apply onEntry_moves | apply launch_moves | apply setLun_moves | intro _ | extract_lets | split

theorem resetLunDo_moves {cc : Bool} {r0 : State} (ch idx : Nat) (s : State) (hm : Moves cc r0 s) :
    Moves cc r0 (resetLunDo ch idx s) := by
  unfold resetLunDo
  with_reducible repeat' first | assumption | apply onEntry_moves | apply launch_moves | apply startOp_moves | intro _

theorem writeLoads_moves {cc : Bool} {r0 : State} (ch lun b : Nat) (loads : List (Nat × Nat)) (s : State) (hm : Moves cc r0 s) :
    Moves cc r0 (writeLoads ch lun b loads s) := by
  unfold writeLoads
  with_reducible repeat' first
    | assumption | exact fun _ => rfl | (apply Moves.mk; assumption) | apply Moves.foldl | intro _

theorem programDone_moves {cc : Bool} {r0 : State} (ch lun b : Nat) (s : State) (hm : Moves cc r0 s) :
    Moves cc r0 (programDone ch lun b s) := by
  unfold programDone
  with_reducible repeat' first
    | assumption | apply writeLoads_moves | apply setLun_moves | apply setBrick_moves | apply setCourse_moves
    | apply setCtx_moves | extract_lets | split

theorem eraseDone_moves {cc : Bool} {r0 : State} (ch lun b : Nat) (s : State) (hm : Moves cc r0 s) :
    Moves cc r0 (eraseDone ch lun b s) := by
  unfold eraseDone
  with_reducible repeat' first
    | exact fun _ => rfl | apply setBrick_moves | apply noteWear_moves | apply courseErased_moves
    | apply setCourse_moves | (apply Moves.mk; assumption) | extract_lets | split

theorem readsFail_moves {cc : Bool} {r0 : State} (ch lun : Nat) (s : State) (hm : Moves cc r0 s) :
    Moves cc r0 (readsFail ch lun s) := by
  unfold readsFail
  with_reducible repeat' first | assumption | apply climb_moves | apply Moves.foldl | intro _

theorem opDone_moves {cc : Bool} {r0 : State} (ch lun : Nat) (o : DieOp) (s : State) (hm : Moves cc r0 s) :
    Moves cc r0 (opDone ch lun o s) := by
  unfold opDone
  with_reducible repeat' first
    | assumption | exact fun _ => rfl | apply setLun_moves | apply programDone_moves | apply eraseDone_moves
    | extract_lets | split | (apply Moves.mk; apply Moves.mk; apply setLun_moves)

theorem opFailed_moves {cc : Bool} {r0 : State} (ch lun : Nat) (o : DieOp) (s : State) (hm : Moves cc r0 s) :
    Moves cc r0 (opFailed ch lun o s) := by
  unfold opFailed
  with_reducible repeat' first
    | assumption | exact fun _ => rfl | apply setLun_moves | apply readsFail_moves | apply programFailed_moves
    | apply eraseFailed_moves | apply courseErased_moves | apply checkResets_moves | extract_lets | split
    | (apply Moves.mk; apply setLun_moves)

theorem statusDo_moves {cc : Bool} {r0 : State} (ch idx : Nat) (r : DieStatus) (s : State) (hm : Moves cc r0 s) :
    Moves cc r0 (statusDo ch idx r s) := by
  unfold statusDo
  with_reducible repeat' first
    | assumption | apply onEntry_moves | apply retire_moves | apply opDone_moves | apply opFailed_moves | intro _
    | extract_lets | split

theorem timeoutDo_moves {cc : Bool} {r0 : State} (ch lun : Nat) (s : State) (hm : Moves cc r0 s) :
    Moves cc r0 (timeoutDo ch lun s) := by
  unfold timeoutDo
  with_reducible repeat' first
    | assumption | exact fun _ => rfl | apply Moves.ite | apply happen_moves | apply checkResets_moves
    | apply opFailed_moves | (apply Moves.mk; assumption) | intro _ | extract_lets | split

theorem padSlot_moves {cc : Bool} {r0 : State} (k : Nat) (s : State) (hm : Moves cc r0 s) :
    Moves cc r0 (padSlot k s) := by
  unfold padSlot
  with_reducible repeat' first
    | assumption | (apply MovesP.snd; apply nextWseq_moves) | apply setSlot_moves | apply Moves.foldl | intro _

theorem slotLoaded_moves {cc : Bool} {r0 : State} (k : Nat) (s : State) (hm : Moves cc r0 s) :
    Moves cc r0 (slotLoaded k s) := by
  unfold slotLoaded
  with_reducible repeat' first | assumption | apply setSlot_moves | apply padSlot_moves | extract_lets | split

theorem loadDo_moves {cc : Bool} {r0 : State} (ch idx : Nat) (xferErr : Bool) (s : State) (hm : Moves cc r0 s) :
    Moves cc r0 (loadDo ch idx xferErr s) := by
  unfold loadDo
  with_reducible repeat' first
    | assumption | apply Moves.ite | apply onEntry_moves | apply retire_moves | apply noteXfer_moves
    | apply slotLoaded_moves | apply setLun_moves | apply xferGood_moves | intro _

theorem fetchDo_moves {cc : Bool} {r0 : State} (ch idx : Nat) (stillBusy xferErr : Bool) (s : State) (hm : Moves cc r0 s) :
    Moves cc r0 (fetchDo ch idx stillBusy xferErr s) := by
  unfold fetchDo
  with_reducible repeat' first
    | assumption | apply Moves.ite | apply onEntry_moves | apply retire_moves | apply addF_moves
    | apply noteXfer_moves | apply rdTo_moves | apply xferGood_moves | apply Moves.foldl | intro _

theorem windowEnd_moves {cc : Bool} {r0 : State} (ch lun : Nat) (dieAllows : Bool) (s : State) (hm : Moves cc r0 s) :
    Moves cc r0 (windowEnd ch lun dieAllows s) := by
  unfold windowEnd
  with_reducible repeat' first
    | assumption | apply Moves.ite | apply suspendOp_moves | apply happen_moves | intro _ | split

theorem execReadPage_moves {cc : Bool} {r0 : State} (ch idx : Nat) (s : State) (hm : Moves cc r0 s) :
    MovesR cc r0 (execReadPage ch idx s) := by
  unfold execReadPage
  with_reducible repeat' first | assumption | apply MovesR.next | apply readPageDo_moves

theorem execReadSoft_moves {cc : Bool} {r0 : State} (ch idx : Nat) (s : State) (hm : Moves cc r0 s) :
    MovesR cc r0 (execReadSoft ch idx s) := by
  unfold execReadSoft
  with_reducible repeat' first | assumption | apply MovesR.next | apply readSoftDo_moves

theorem execProgram_moves {cc : Bool} {r0 : State} (ch idx : Nat) (s : State) (hm : Moves cc r0 s) :
    MovesR cc r0 (execProgram ch idx s) := by
  unfold execProgram
  with_reducible repeat' first | assumption | apply MovesR.next | apply programDo_moves

theorem execErase_moves {cc : Bool} {r0 : State} (ch idx : Nat) (s : State) (hm : Moves cc r0 s) :
    MovesR cc r0 (execErase ch idx s) := by
  unfold execErase
  with_reducible repeat' first | assumption | apply MovesR.next | apply eraseDo_moves

theorem execSuspend_moves {cc : Bool} {r0 : State} (ch idx : Nat) (s : State) (hm : Moves cc r0 s) :
    MovesR cc r0 (execSuspend ch idx s) := by
  unfold execSuspend
  with_reducible repeat' first | assumption | apply MovesR.next | apply suspendDo_moves

theorem execResume_moves {cc : Bool} {r0 : State} (ch idx : Nat) (s : State) (hm : Moves cc r0 s) :
    MovesR cc r0 (execResume ch idx s) := by
  unfold execResume
  with_reducible repeat' first | assumption | apply MovesR.next | apply resumeDo_moves

theorem execStatus_moves {cc : Bool} {r0 : State} (ch idx : Nat) (r : DieStatus) (s : State) (hm : Moves cc r0 s) :
    MovesR cc r0 (execStatus ch idx r s) := by
  unfold execStatus
  with_reducible repeat' first | assumption | apply MovesR.next | apply statusDo_moves

theorem execDieOpTimeout_moves {cc : Bool} {r0 : State} (ch lun : Nat) (s : State) (hm : Moves cc r0 s) :
    MovesR cc r0 (execDieOpTimeout ch lun s) := by
  unfold execDieOpTimeout
  with_reducible repeat' first | assumption | apply MovesR.next | apply timeoutDo_moves

theorem execLoad_moves {cc : Bool} {r0 : State} (ch idx : Nat) (xferErr : Bool) (s : State) (hm : Moves cc r0 s) :
    MovesR cc r0 (execLoad ch idx xferErr s) := by
  unfold execLoad
  with_reducible repeat' first | assumption | apply MovesR.next | apply loadDo_moves

theorem execFetch_moves {cc : Bool} {r0 : State} (ch idx : Nat) (stillBusy xferErr : Bool) (s : State) (hm : Moves cc r0 s) :
    MovesR cc r0 (execFetch ch idx stillBusy xferErr s) := by
  unfold execFetch
  with_reducible repeat' first | assumption | apply MovesR.next | apply fetchDo_moves

theorem execResetLun_moves {cc : Bool} {r0 : State} (ch idx : Nat) (s : State) (hm : Moves cc r0 s) :
    MovesR cc r0 (execResetLun ch idx s) := by
  unfold execResetLun
  with_reducible repeat' first | assumption | apply MovesR.next | apply resetLunDo_moves

theorem execBgWindowEnd_moves {cc : Bool} {r0 : State} (ch lun : Nat) (dieAllows : Bool) (s : State) (hm : Moves cc r0 s) :
    MovesR cc r0 (execBgWindowEnd ch lun dieAllows s) := by
  unfold execBgWindowEnd
  with_reducible repeat' first | assumption | apply MovesR.next | apply windowEnd_moves

end Sys2Proof.Machine
end

