-- ==== Sys2Proof/Laws/Moves/Lane.lean ====
section
/-!
SUPPORT. Laws/Moves/Lane.lean: the operations of Machine/Lane.lean keep what `Moves` says.
-/

namespace Sys2Proof.Machine

theorem openCtx_moves {cc : Bool} {r0 : State} (i : Nat) (e : PlanEntry) (s : State) (hm : Moves cc r0 s) :
    Moves cc r0 (openCtx i e s) := by
  unfold openCtx
  with_reducible repeat' first
    | assumption | apply Moves.ite | apply setSlot_moves | apply setCourse_moves | apply notePeak_moves
    | apply setCtx_moves | apply Moves.foldl | intro _

theorem xorInto_moves {cc : Bool} {r0 : State} (src dst : Nat) (ts : List Nat) (s : State) (hm : Moves cc r0 s) :
    Moves cc r0 (xorInto src dst ts s) := by
  unfold xorInto
  with_reducible repeat' first | assumption | apply setSlot_moves

theorem accumDo_moves {cc : Bool} {r0 : State} (lane idx : Nat) (s : State) (hm : Moves cc r0 s) :
    Moves cc r0 (accumDo lane idx s) := by
  unfold accumDo
  with_reducible repeat' first
    | assumption | apply onEntry_moves | apply openCtx_moves | apply xorInto_moves | apply retire_moves
    | apply setCtx_moves | intro _ | extract_lets | split

theorem rebuildMortar_moves {cc : Bool} {r0 : State} (x : Ctx) (k m : Nat) (s : State) (hm : Moves cc r0 s) :
    Moves cc r0 (rebuildMortar x k m s) := by
  unfold rebuildMortar
  with_reducible repeat' first | assumption | apply setSlot_moves | apply xorInto_moves | apply Moves.foldl | intro _

theorem emitDo_moves {cc : Bool} {r0 : State} (lane idx : Nat) (s : State) (hm : Moves cc r0 s) :
    Moves cc r0 (emitDo lane idx s) := by
  unfold emitDo
  with_reducible repeat' first
    | assumption | apply Moves.ite | apply onEntry_moves | apply retire_moves | apply rebuildMortar_moves | intro _
    | extract_lets | split

theorem armDo_moves {cc : Bool} {r0 : State} (lane idx : Nat) (s : State) (hm : Moves cc r0 s) :
    Moves cc r0 (armDo lane idx s) := by
  unfold armDo
  with_reducible repeat' first
    | assumption | apply Moves.ite | apply onEntry_moves | apply openCtx_moves | apply retire_moves
    | apply setCtx_moves | intro _

theorem clearDo_moves {cc : Bool} {r0 : State} (lane idx : Nat) (s : State) (hm : Moves cc r0 s) :
    Moves cc r0 (clearDo lane idx s) := by
  unfold clearDo
  with_reducible repeat' first
    | assumption | apply Moves.ite | apply onEntry_moves | apply openCtx_moves | apply retire_moves
    | apply setSlot_moves | apply Moves.foldl | intro _

theorem settleCmd_moves {cc : Bool} {r0 : State} (i : Nat) (x : Cmd) (s : State) (hm : Moves cc r0 s) :
    Moves cc r0 (settleCmd i x s) := by
  unfold settleCmd
  with_reducible repeat' first | assumption | apply setCmd_moves

theorem settleWaits_moves {cc : Bool} {r0 : State} (s : State) (hm : Moves cc r0 s) : Moves cc r0 (settleWaits s) := by
  unfold settleWaits
  extract_lets s0 left _ s1 d _ s2
  have h0 : Moves cc r0 s0 := .foldl hm (fun _ _ hu => settleCmd_moves _ _ _ hu)
  have h1 : Moves cc r0 s1 := .ite (fun _ => h0) (fun _ => .mk h0 (fun _ => rfl))
  have h2 : Moves cc r0 s2 := .mk h1 (fun _ => rfl)
  exact .ite (fun _ => h1) (fun _ => .ite (fun _ => setF_moves _ _ _ h2) (fun _ => h2))

theorem relocCount_moves {cc : Bool} {r0 : State} (tile : Nat) (src : Ent) (s : State) (hm : Moves cc r0 s) :
    Moves cc r0 (relocCount tile src s) := by
  unfold relocCount
  with_reducible repeat' first
    | exact fun _ => rfl | apply Moves.ite | apply fdpNote_moves | apply addThousand_moves
    | (apply Moves.mk; assumption) | intro _ | extract_lets | split

theorem confirmLoad_moves {cc : Bool} {r0 : State} (c wave mw : Nat) (l : Nat × Nat × Nat) (s : State) (hm : Moves cc r0 s) :
    Moves cc r0 (confirmLoad c wave mw l s) := by
  unfold confirmLoad
  with_reducible repeat' first
    | assumption | exact fun _ => rfl | apply Moves.ite | apply mapSet_moves | apply addF_moves | intro _
    | extract_lets | split | (apply Moves.mk; apply relocCount_moves) | (apply Moves.mk; apply mapSet_moves)

theorem handEmptied_moves {cc : Bool} {r0 : State} (s : State) (hm : Moves cc r0 s) :
    Moves cc r0 (handEmptied s) := by
  unfold handEmptied
  with_reducible repeat' first | assumption | apply handForErase_moves | apply Moves.foldl | intro _

theorem replacedDone_moves {cc : Bool} {r0 : State} (x : Ctx) (s : State) (hm : Moves cc r0 s) :
    Moves cc r0 (replacedDone x s) := by
  unfold replacedDone
  with_reducible repeat' first
    | assumption | exact fun _ => rfl | apply Moves.ite | apply happen_moves | apply setCourse_moves
    | apply setF_moves | (apply Moves.mk; assumption) | apply Moves.foldl | intro _ | extract_lets | split

theorem confirmWave_moves {cc : Bool} {r0 : State} (i : Nat) (s : State) (hm : Moves cc r0 s) :
    Moves cc r0 (confirmWave i s) := by
  unfold confirmWave
  with_reducible repeat' first
    | assumption | apply Moves.ite | apply confirmLoad_moves | apply bindRecord_moves | apply freeSlot_moves
    | apply setSlot_moves | apply dropCtx_moves | apply replacedDone_moves | apply addF_moves | apply setCourse_moves
    | apply handForErase_moves | apply keysSettle_moves | apply gcTrigger_moves | apply handEmptied_moves
    | apply settleWaits_moves | apply Moves.foldl | intro _

theorem groutRelease_moves {cc : Bool} {r0 : State} (s : State) (hm : Moves cc r0 s) :
    Moves cc r0 (groutRelease s) := by
  unfold groutRelease
  with_reducible repeat' first | assumption | apply Moves.ite | apply handForErase_moves | apply Moves.foldl | intro _

theorem flushDone_moves {cc : Bool} {r0 : State} (last : Nat) (s : State) (hm : Moves cc r0 s) :
    Moves cc r0 (flushDone last s) := by
  unfold flushDone
  with_reducible repeat' first | exact fun _ => rfl | apply groutRelease_moves | (apply Moves.mk; assumption)

theorem layFlush_moves {cc : Bool} {r0 : State} (s : State) (hm : Moves cc r0 s) :
    Moves cc r0 (layFlush s) := by
  unfold layFlush
  with_reducible repeat' first
    | assumption | exact fun _ => rfl | apply setCtx_moves | (apply Moves.mk; assumption) | extract_lets | split

theorem trimJournal_moves {cc : Bool} {r0 : State} (s : State) (hm : Moves cc r0 s) :
    Moves cc r0 (trimJournal s) := by
  unfold trimJournal
  with_reducible repeat' first
    | assumption | exact fun _ => rfl | apply Moves.ite | (apply Moves.mk; assumption) | intro _

theorem ckptDone_moves {cc : Bool} {r0 : State} (seg start : Nat) (s : State) (hm : Moves cc r0 s) :
    Moves cc r0 (ckptDone seg start s) := by
  unfold ckptDone
  with_reducible repeat' first
    | exact fun _ => rfl | apply trimJournal_moves | apply journal_moves | (apply Moves.mk; assumption)

theorem rebuiltLine_moves {cc : Bool} {r0 : State} (c k old mw wave : Nat) (a : BrickAddr) (s : State) (hm : Moves cc r0 s) :
    Moves cc r0 (rebuiltLine c k old mw wave a s) := by
  unfold rebuiltLine
  with_reducible repeat' first
    | assumption | exact fun _ => rfl | apply mapSet_moves | (apply Moves.mk; assumption) | apply Moves.foldl
    | intro _

theorem confirmRebuild_moves {cc : Bool} {r0 : State} (i : Nat) (s : State) (hm : Moves cc r0 s) :
    Moves cc r0 (confirmRebuild i s) := by
  unfold confirmRebuild
  with_reducible repeat' first
    | assumption | exact fun _ => rfl | apply Moves.ite | apply dropCtx_moves | apply rebuiltLine_moves
    | apply setSlot_moves | apply setCourse_moves | apply startRebuild_moves | apply noteRebuild_moves
    | apply addF_moves | intro _ | extract_lets | split | (apply Moves.mk; apply Moves.foldl)

theorem confirm_moves {cc : Bool} {r0 : State} (i : Nat) (s : State) (hm : Moves cc r0 s) :
    Moves cc r0 (confirm i s) := by
  unfold confirm
  with_reducible repeat' first
    | assumption | apply Moves.ite | apply confirmWave_moves | apply layFlush_moves | apply flushDone_moves
    | apply dropCtx_moves | apply ckptDone_moves | apply confirmRebuild_moves | intro _ | extract_lets | split

theorem execAccum_moves {cc : Bool} {r0 : State} (lane idx : Nat) (s : State) (hm : Moves cc r0 s) :
    MovesR cc r0 (execAccum lane idx s) := by
  unfold execAccum
  with_reducible repeat' first | assumption | apply MovesR.next | apply accumDo_moves

theorem execEmit_moves {cc : Bool} {r0 : State} (lane idx : Nat) (s : State) (hm : Moves cc r0 s) :
    MovesR cc r0 (execEmit lane idx s) := by
  unfold execEmit
  with_reducible repeat' first | assumption | apply MovesR.next | apply emitDo_moves

theorem execArm_moves {cc : Bool} {r0 : State} (lane idx : Nat) (s : State) (hm : Moves cc r0 s) :
    MovesR cc r0 (execArm lane idx s) := by
  unfold execArm
  with_reducible repeat' first | assumption | apply MovesR.next | apply armDo_moves

theorem execClear_moves {cc : Bool} {r0 : State} (lane idx : Nat) (s : State) (hm : Moves cc r0 s) :
    MovesR cc r0 (execClear lane idx s) := by
  unfold execClear
  with_reducible repeat' first | assumption | apply MovesR.next | apply clearDo_moves

theorem execWaveConfirm_moves {cc : Bool} {r0 : State} (ctx : Nat) (s : State) (hm : Moves cc r0 s) :
    MovesR cc r0 (execWaveConfirm ctx s) := by
  unfold execWaveConfirm
  with_reducible repeat' first | assumption | apply MovesR.next | apply confirm_moves

end Sys2Proof.Machine
end

