-- ==== Sys2Proof/Laws/Moves/Seal.lean ====
section
/-!
SUPPORT. Laws/Moves/Seal.lean: the operations of Machine/Seal.lean keep what `Moves` says.
-/

namespace Sys2Proof.Machine

theorem setStack_moves {cc : Bool} {r0 : State} (z : Nat) (l : List (Nat × BitVec 384)) (s : State) (hm : Moves cc r0 s) :
    Moves cc r0 (setStack z l s) := by
  unfold setStack
  with_reducible repeat' first | exact fun _ => rfl | (apply Moves.mk; assumption)

theorem foldLeaves_moves {cc : Bool} {r0 : State} (n nsid z : Nat) (s : State) (hm : Moves cc r0 s) :
    Moves cc r0 (foldLeaves n nsid z s) := by
  induction n generalizing s with
  | zero => exact hm
  | succ n ih =>
    unfold foldLeaves
    refine .ite (fun _ => ?_) (fun _ => hm)
    split
    · exact ih _ (setStack_moves _ _ _ hm)
    · exact hm

theorem catchUp_moves {cc : Bool} {r0 : State} (nsid z : Nat) (s : State) (hm : Moves cc r0 s) :
    Moves cc r0 (catchUp nsid z s) := by
  unfold catchUp
  with_reducible repeat' first
    | assumption | exact fun _ => rfl | apply Moves.ite | apply foldLeaves_moves | intro _ | extract_lets
    | (apply Moves.mk; apply foldLeaves_moves)

theorem saveStacks_moves {cc : Bool} {r0 : State} (s : State) (hm : Moves cc r0 s) :
    Moves cc r0 (saveStacks s) := by
  unfold saveStacks
  with_reducible repeat' first | exact fun _ => rfl | (apply Moves.mk; assumption)

theorem zoneSeal_moves {cc : Bool} {r0 : State} (nsid z : Nat) (s : State) (hm : Moves cc r0 s) :
    Moves cc r0 (zoneSeal nsid z s) := by
  unfold zoneSeal
  with_reducible repeat' first
    | assumption | exact fun _ => rfl | apply Moves.ite | apply catchUp_moves | apply setZone_moves | apply setF_moves
    | intro _ | extract_lets | (apply Moves.mk; apply setStack_moves)

theorem closeEpoch_moves {cc : Bool} {r0 : State} (ep : Nat) (restarted : Bool) (s : State) (hm : Moves cc r0 s) :
    Moves cc r0 (closeEpoch ep restarted s) := by
  unfold closeEpoch
  with_reducible repeat' first
    | assumption | exact fun _ => rfl | apply Moves.ite | apply setF_moves | intro _ | extract_lets
    | (apply Moves.mk; apply setF_moves)

theorem sealSignedDo_moves {cc : Bool} {r0 : State} (ep : Nat) (s : State) (hm : Moves cc r0 s) :
    Moves cc r0 (sealSignedDo ep s) := by
  unfold sealSignedDo
  with_reducible repeat' first
    | assumption | exact fun _ => rfl | apply Moves.ite | apply tick_moves | apply setR_moves | apply setZone_moves
    | apply happen_moves | apply tileAen_moves | (apply Moves.mk; assumption) | apply Moves.foldl | intro _
    | extract_lets | split

theorem execZoneSealed_moves {cc : Bool} {r0 : State} (nsid zone : Nat) (s : State) (hm : Moves cc r0 s) :
    MovesR cc r0 (execZoneSealed nsid zone s) := by
  unfold execZoneSealed
  with_reducible repeat' first | assumption | apply MovesR.next | apply zoneSeal_moves

theorem execSealEpochClose_moves {cc : Bool} {r0 : State} (s : State) (hm : Moves cc r0 s) :
    MovesR cc r0 (execSealEpochClose s) := by
  unfold execSealEpochClose
  with_reducible repeat' first | assumption | apply Moves.ite | apply MovesR.next | apply closeEpoch_moves | intro _

theorem execSealSigned_moves {cc : Bool} {r0 : State} (epoch : Nat) (s : State) (hm : Moves cc r0 s) :
    MovesR cc r0 (execSealSigned epoch s) := by
  unfold execSealSigned
  with_reducible repeat' first | assumption | apply MovesR.next | apply sealSignedDo_moves

theorem execSealLate_moves {cc : Bool} {r0 : State} (epoch : Nat) (s : State) (hm : Moves cc r0 s) :
    MovesR cc r0 (execSealLate epoch s) := by
  unfold execSealLate
  with_reducible repeat' first | assumption | apply Moves.ite | apply MovesR.next | apply happen_moves | intro _

end Sys2Proof.Machine
end

