-- ==== Sys2Proof/Laws/Moves/Zone.lean ====
section
/-!
SUPPORT. Laws/Moves/Zone.lean: the operations of Machine/Zone.lean keep what `Moves` says.
-/

namespace Sys2Proof.Machine

theorem ioCmd_moves {cc : Bool} {r0 : State} (h : CmdHead) (kind : CmdKind) (reads : Bool) (f : State → State) (s : State) (hf : ∀ u, Moves cc r0 u → Moves cc r0 (f u)) (hm : Moves cc r0 s) :
    Moves cc r0 (ioCmd h kind reads f s) := by
  unfold ioCmd
  with_reducible repeat' first
    | assumption | apply Moves.ite | apply hf | apply answer_moves | intro _ | refine takeCmd_movesE ?_ ‹_›
    | extract_lets | split

theorem limitHit_moves {cc : Bool} {r0 : State} (t : Nat) (s : State) (hm : Moves cc r0 s) :
    Moves cc r0 (limitHit t s) := by
  unfold limitHit
  with_reducible repeat' first | assumption | apply happenTile_moves

theorem palletFor_moves {cc : Bool} {r0 : State} (t : Nat) (s : State) (hm : Moves cc r0 s) :
    MovesQ cc r0 (palletFor t s) := by
  unfold palletFor
  with_reducible repeat' first
    | assumption | exact fun _ => rfl | apply MovesQ.ite | apply MovesQ.some | exact MovesQ.none | split | intro _
    | extract_lets | (apply Moves.mk; refine takeCourse_movesE ?_ ‹_›)

theorem palletFor_movesE {cc : Bool} {r0 : State} {t : Nat} {s : State} {a0} {t0 : State} (hm : Moves cc r0 s) (e : palletFor t s = some (a0, t0)) :
    Moves cc r0 t0 := palletFor_moves _ _ hm _ _ e

theorem toPallet_moves {cc : Bool} {r0 : State} (k : Nat) (s : State) (hm : Moves cc r0 s) :
    Moves cc r0 (toPallet k s) := by
  unfold toPallet
  with_reducible repeat' first
    | assumption | apply setSlot_moves | apply sparesExhausted_moves | refine palletFor_movesE ?_ ‹_› | extract_lets
    | split

theorem palletMove_moves {cc : Bool} {r0 : State} (c : Nat) (s : State) (hm : Moves cc r0 s) :
    Moves cc r0 (palletMove c s) := by
  unfold palletMove
  with_reducible repeat' first | assumption | apply Moves.ite | apply toPallet_moves | apply Moves.foldl | intro _

theorem palletIdleDo_moves {cc : Bool} {r0 : State} (c : Nat) (s : State) (hm : Moves cc r0 s) :
    Moves cc r0 (palletIdleDo c s) := by
  unfold palletIdleDo
  with_reducible repeat' first | assumption | apply Moves.ite | apply palletMove_moves | intro _

theorem closeZone_moves {cc : Bool} {r0 : State} (nsid z : Nat) (s : State) (hm : Moves cc r0 s) :
    Moves cc r0 (closeZone nsid z s) := by
  unfold closeZone
  with_reducible repeat' first | assumption | apply setZone_moves | apply palletMove_moves | extract_lets | split

theorem bindZone_moves {cc : Bool} {r0 : State} (nsid z : Nat) (s : State) (hm : Moves cc r0 s) :
    MovesP cc r0 (bindZone nsid z s) := by
  unfold bindZone
  with_reducible repeat' first
    | assumption | apply MovesP.pair | apply setZone_moves | apply sparesExhausted_moves | split
    | refine takeCourse_movesE ?_ ‹_›

theorem bindZone_movesE {cc : Bool} {r0 : State} {nsid z : Nat} {s : State} {a0} {t0 : State} (hm : Moves cc r0 s) (e : bindZone nsid z s = (a0, t0)) :
    Moves cc r0 t0 := bindZone_moves _ _ _ hm _ _ e

theorem openZone_moves {cc : Bool} {r0 : State} (nsid z : Nat) (implicit : Bool) (s : State) (hm : Moves cc r0 s) :
    MovesP cc r0 (openZone nsid z implicit s) := by
  unfold openZone
  with_reducible repeat' first
    | assumption | apply MovesP.ite | apply MovesP.pair | apply setZone_moves | apply limitHit_moves
    | apply closeZone_moves | split | intro _ | refine bindZone_movesE ?_ ‹_›

theorem openZone_movesE {cc : Bool} {r0 : State} {nsid z : Nat} {implicit : Bool} {s : State} {a0} {t0 : State} (hm : Moves cc r0 s) (e : openZone nsid z implicit s = (a0, t0)) :
    Moves cc r0 t0 := openZone_moves _ _ _ _ hm _ _ e

theorem finishZone_moves {cc : Bool} {r0 : State} (nsid z : Nat) (s : State) (hm : Moves cc r0 s) :
    Moves cc r0 (finishZone nsid z s) := by
  unfold finishZone
  with_reducible repeat' first
    | assumption | apply Moves.ite | apply setZone_moves | apply palletMove_moves | apply setCourse_moves | intro _
    | extract_lets | split

theorem resetZone_moves {cc : Bool} {r0 : State} (nsid z : Nat) (s : State) (hm : Moves cc r0 s) :
    Moves cc r0 (resetZone nsid z s) := by
  unfold resetZone
  with_reducible repeat' first
    | assumption | exact fun _ => rfl | apply unmapLines_moves | apply releaseCourse_moves | apply setZone_moves
    | apply keysSettle_moves | apply settleWaits_moves | extract_lets | split | (apply Moves.mk; apply setStack_moves)

theorem zoneAct_moves {cc : Bool} {r0 : State} (a nsid z : Nat) (s : State) (hm : Moves cc r0 s) :
    MovesP cc r0 (zoneAct a nsid z s) := by
  unfold zoneAct
  with_reducible repeat' first
    | assumption | apply MovesP.ite | apply MovesP.pair | apply zoneOffline_moves | apply closeZone_moves
    | apply finishZone_moves | (apply MovesP.snd; apply openZone_moves) | apply resetZone_moves | split | intro _

theorem zoneAct_movesE {cc : Bool} {r0 : State} {a nsid z : Nat} {s : State} {a0} {t0 : State} (hm : Moves cc r0 s) (e : zoneAct a nsid z s = (a0, t0)) :
    Moves cc r0 t0 := zoneAct_moves _ _ _ _ hm _ _ e

theorem actNow_moves {cc : Bool} {r0 : State} (i a nsid : Nat) (zs : List Nat) (s : State) (hm : Moves cc r0 s) :
    Moves cc r0 (actNow i a nsid zs s) := by
  unfold actNow
  with_reducible repeat' first
    | assumption | apply Moves.ite | (apply MovesP.snd; apply zoneAct_moves) | apply ready_moves
    | apply limitHit_moves | apply Moves.foldl | intro _ | extract_lets | split

theorem runActs_moves {cc : Bool} {r0 : State} (kept l : List (Nat × Nat × Nat × List Nat)) (s : State) (hm : Moves cc r0 s) :
    Moves cc r0 (runActs kept l s) := by
  induction l generalizing kept s with
  | nil => exact .mk hm (fun _ => rfl)
  | cons x l ih =>
    unfold runActs
    exact .ite (fun _ => ih _ _ hm) (fun _ => ih _ _ (actNow_moves _ _ _ _ _ hm))

theorem settleActs_moves {cc : Bool} {r0 : State} (s : State) (hm : Moves cc r0 s) :
    Moves cc r0 (settleActs s) := by
  unfold settleActs
  with_reducible repeat' first | assumption | apply Moves.ite | apply runActs_moves | intro _

theorem zoneSend_moves {cc : Bool} {r0 : State} (a : Nat) (h : CmdHead) (zslba : Nat) (all : Bool) (s : State) (hm : Moves cc r0 s) :
    Moves cc r0 (zoneSend a h zslba all s) := by
  unfold zoneSend
  with_reducible repeat' first
    | assumption | exact fun _ => rfl | apply Moves.ite | apply ioCmd_moves | apply answer_moves
    | apply settleActs_moves | intro _ | extract_lets | split
    | (apply Moves.mk; apply MovesP.snd; apply allocCmd_moves)

theorem setZdx_moves {cc : Bool} {r0 : State} (h : CmdHead) (s : State) (hm : Moves cc r0 s) :
    Moves cc r0 (setZdx h s) := by
  unfold setZdx
  with_reducible repeat' first | assumption | apply ioCmd_moves | apply answer_moves | intro _

theorem finishRecommended_moves {cc : Bool} {r0 : State} (nsid z : Nat) (s : State) (hm : Moves cc r0 s) :
    Moves cc r0 (finishRecommended nsid z s) := by
  unfold finishRecommended
  with_reducible repeat' first
    | assumption | apply Moves.ite | apply zoneChanged_moves | apply setZone_moves | intro _

theorem execPalletIdle_moves {cc : Bool} {r0 : State} (course : Nat) (s : State) (hm : Moves cc r0 s) :
    MovesR cc r0 (execPalletIdle course s) := by
  unfold execPalletIdle
  with_reducible repeat' first | assumption | apply MovesR.next | apply palletIdleDo_moves

theorem execOpenZone_moves {cc : Bool} {r0 : State} (h : CmdHead) (zslba : Nat) (all : Bool) (s : State) (hm : Moves cc r0 s) :
    MovesR cc r0 (execOpenZone h zslba all s) := by
  unfold execOpenZone
  with_reducible repeat' first | assumption | apply MovesR.next | apply zoneSend_moves

theorem execCloseZone_moves {cc : Bool} {r0 : State} (h : CmdHead) (zslba : Nat) (all : Bool) (s : State) (hm : Moves cc r0 s) :
    MovesR cc r0 (execCloseZone h zslba all s) := by
  unfold execCloseZone
  with_reducible repeat' first | assumption | apply MovesR.next | apply zoneSend_moves

theorem execFinishZone_moves {cc : Bool} {r0 : State} (h : CmdHead) (zslba : Nat) (all : Bool) (s : State) (hm : Moves cc r0 s) :
    MovesR cc r0 (execFinishZone h zslba all s) := by
  unfold execFinishZone
  with_reducible repeat' first | assumption | apply MovesR.next | apply zoneSend_moves

theorem execResetZone_moves {cc : Bool} {r0 : State} (h : CmdHead) (zslba : Nat) (all : Bool) (s : State) (hm : Moves cc r0 s) :
    MovesR cc r0 (execResetZone h zslba all s) := by
  unfold execResetZone
  with_reducible repeat' first | assumption | apply MovesR.next | apply zoneSend_moves

theorem execOfflineZone_moves {cc : Bool} {r0 : State} (h : CmdHead) (zslba : Nat) (all : Bool) (s : State) (hm : Moves cc r0 s) :
    MovesR cc r0 (execOfflineZone h zslba all s) := by
  unfold execOfflineZone
  with_reducible repeat' first | assumption | apply MovesR.next | apply zoneSend_moves

theorem execSetZoneDescriptorExtension_moves {cc : Bool} {r0 : State} (h : CmdHead) (s : State) (hm : Moves cc r0 s) :
    MovesR cc r0 (execSetZoneDescriptorExtension h s) := by
  unfold execSetZoneDescriptorExtension
  with_reducible repeat' first | assumption | apply MovesR.next | apply setZdx_moves

theorem execZoneFinishRecommended_moves {cc : Bool} {r0 : State} (nsid zone : Nat) (s : State) (hm : Moves cc r0 s) :
    MovesR cc r0 (execZoneFinishRecommended nsid zone s) := by
  unfold execZoneFinishRecommended
  with_reducible repeat' first | assumption | apply MovesR.next | apply finishRecommended_moves

end Sys2Proof.Machine
end

