-- ==== Sys2Proof/Laws/Moves/Write.lean ====
section
/-!
SUPPORT. Laws/Moves/Write.lean: the operations of Machine/Write.lean keep what `Moves` says.
-/

namespace Sys2Proof.Machine

theorem wallCourse_moves {cc : Bool} {r0 : State} (t w : Nat) (s : State) (hm : Moves cc r0 s) :
    MovesQ cc r0 (wallCourse t w s) := by
  unfold wallCourse
  with_reducible repeat' first
    | assumption | exact fun _ => rfl | apply MovesQ.ite | apply MovesQ.some | exact MovesQ.none
    | apply gcTrigger_moves | split | intro _ | extract_lets | (apply Moves.mk; refine takeCourse_movesE ?_ ‹_›)

theorem wallCourse_movesE {cc : Bool} {r0 : State} {t w : Nat} {s : State} {a0} {t0 : State} (hm : Moves cc r0 s) (e : wallCourse t w s = some (a0, t0)) :
    Moves cc r0 t0 := wallCourse_moves _ _ _ hm _ _ e

theorem courseFor_moves {cc : Bool} {r0 : State} (c : Cmd) (t : Nat) (s : State) (hm : Moves cc r0 s) : MovesQ cc r0 (courseFor c t s) := by
  unfold courseFor
  refine .ite (fun _ => ?_) (fun _ => wallCourse_moves _ _ _ hm)
  intro a u e
  obtain ⟨k, -, h⟩ := Option.map_eq_some_iff.1 e
  cases h
  exact hm

theorem courseFor_movesE {cc : Bool} {r0 : State} {c : Cmd} {t : Nat} {s : State} {a0} {t0 : State} (hm : Moves cc r0 s) (e : courseFor c t s = some (a0, t0)) :
    Moves cc r0 t0 := courseFor_moves _ _ _ hm _ _ e

theorem fillOne_moves {cc : Bool} {r0 : State} (k t : Nat) (s : State) (hm : Moves cc r0 s) :
    Moves cc r0 (fillOne k t s) := by
  unfold fillOne
  with_reducible repeat' first
    | assumption | apply Moves.ite | apply tagFormed_moves | apply fillSlot_moves
    | (apply MovesP.snd; apply nextWseq_moves) | apply fillLost_moves | intro _

theorem fillNow_moves {cc : Bool} {r0 : State} (k : Nat) (s : State) (hm : Moves cc r0 s) :
    Moves cc r0 (fillNow k s) := by
  unfold fillNow
  with_reducible repeat' first | assumption | apply Moves.ite | apply fillOne_moves | apply Moves.foldl | intro _

theorem newSlot_moves {cc : Bool} {r0 : State} (c : Cmd) (t mu : Nat) (s : State) (hm : Moves cc r0 s) :
    MovesQ cc r0 (newSlot c t mu s) := by
  unfold newSlot
  with_reducible repeat' first
    | assumption | apply MovesQ.some | exact MovesQ.none | apply setCourse_moves | apply setSlot_moves | split
    | refine courseFor_movesE ?_ ‹_›

theorem newSlot_movesE {cc : Bool} {r0 : State} {c : Cmd} {t mu : Nat} {s : State} {a0} {t0 : State} (hm : Moves cc r0 s) (e : newSlot c t mu s = some (a0, t0)) :
    Moves cc r0 t0 := newSlot_moves _ _ _ _ hm _ _ e

theorem takeSlots_moves {cc : Bool} {r0 : State} (c : Cmd) (t : Nat) (l : List Nat) (s : State) (hm : Moves cc r0 s) :
    MovesQ cc r0 (takeSlots c t l s) := by
  induction l generalizing s with
  | nil => exact .some hm
  | cons mu l ih =>
    intro a u e
    unfold takeSlots at e
    dsimp only at e
    split at e
    · cases e
    · rename_i k s1 h
      obtain ⟨p, hp, h2⟩ := Option.map_eq_some_iff.1 e
      cases h2
      refine ih s1 ?_ _ _ hp
      split at h
      · cases h
        exact hm
      · exact newSlot_movesE hm h

theorem takeSlots_movesE {cc : Bool} {r0 : State} {c : Cmd} {t : Nat} {l : List Nat} {s : State} {a0} {t0 : State} (hm : Moves cc r0 s)
    (e : takeSlots c t l s = some (a0, t0)) : Moves cc r0 t0 := takeSlots_moves c t l s hm _ _ e

theorem holdCmd_moves {cc : Bool} {r0 : State} (i : Nat) (s : State) (hm : Moves cc r0 s) :
    Moves cc r0 (holdCmd i s) := by
  unfold holdCmd
  with_reducible repeat' first | assumption | apply Moves.ite | apply setSq_moves | intro _

theorem unhold_moves {cc : Bool} {r0 : State} (i : Nat) (s : State) (hm : Moves cc r0 s) :
    Moves cc r0 (unhold i s) := by
  unfold unhold
  with_reducible repeat' first | assumption | apply Moves.ite | apply setSq_moves | intro _

theorem yardWait_moves {cc : Bool} {r0 : State} (t : Nat) (s : State) (hm : Moves cc r0 s) :
    Moves cc r0 (yardWait t s) := by
  unfold yardWait
  with_reducible repeat' first
    | assumption | exact fun _ => rfl | apply Moves.ite | apply happenTile_moves | apply happen_moves
    | apply palletMove_moves | (apply Moves.mk; assumption) | intro _ | extract_lets | split

theorem failCmd_moves {cc : Bool} {r0 : State} (i : Nat) (st : Sts) (s : State) (hm : Moves cc r0 s) :
    Moves cc r0 (failCmd i st s) := by
  unfold failCmd
  with_reducible repeat' first | assumption | apply ready_moves

theorem seqFor_moves {cc : Bool} {r0 : State} (i : Nat) (s : State) (hm : Moves cc r0 s) :
    MovesP cc r0 (seqFor i s) := by
  unfold seqFor
  with_reducible repeat' first
    | assumption | apply MovesP.ite | apply MovesP.pair | (apply MovesP.snd; apply nextWseq_moves)
    | apply setCmd_moves | split | intro _ | refine nextWseq_movesE ?_ ‹_›

theorem seqFor_movesE {cc : Bool} {r0 : State} {i : Nat} {s : State} {a0} {t0 : State} (hm : Moves cc r0 s) (e : seqFor i s = (a0, t0)) :
    Moves cc r0 t0 := seqFor_moves _ _ hm _ _ e

theorem tagBlock_moves {cc : Bool} {r0 : State} (i off kind data metaF : Nat) (s : State) (hm : Moves cc r0 s) :
    Moves cc r0 (tagBlock i off kind data metaF s) := by
  unfold tagBlock
  with_reducible repeat' first
    | assumption | (apply MovesP.snd; apply seqFor_moves) | apply tagFormed_moves | apply setCmd_moves

theorem switchMu_moves {cc : Bool} {r0 : State} (k : Nat) (s : State) (hm : Moves cc r0 s) :
    Moves cc r0 (switchMu k s) := by
  unfold switchMu
  with_reducible repeat' first
    | assumption | apply Moves.ite | apply setSlot_moves | apply mapYard_moves | apply Moves.foldl | intro _

theorem stageSlot_moves {cc : Bool} {r0 : State} (k : Nat) (s : State) (hm : Moves cc r0 s) :
    Moves cc r0 (stageSlot k s) := by
  unfold stageSlot
  with_reducible repeat' first | assumption | apply Moves.ite | apply setSlot_moves | intro _

theorem landBlocks_moves {cc : Bool} {r0 : State} (c : Cmd) (s : State) (hm : Moves cc r0 s) :
    Moves cc r0 (landBlocks c s) := by
  unfold landBlocks
  with_reducible repeat' first | assumption | apply setSlot_moves | apply Moves.foldl | intro _

theorem renewSlots_moves {cc : Bool} {r0 : State} (i : Nat) (s : State) (hm : Moves cc r0 s) : Moves cc r0 (renewSlots i s) := by
  unfold renewSlots
  refine setCmd_moves _ _ _ (MovesP.snd (foldl_movesP (fun _ _ e => by cases e; exact hm) (fun acc k h => ?_)))
  have h2 : Moves cc r0 acc.2 := h _ _ rfl
  dsimp -proj only
  split
  · exact .pair h2
  · split
    · exact .pair (setSlot_moves _ _ _ (newSlot_movesE h2 ‹_›))
    · exact .pair h2

theorem landWrite_moves {cc : Bool} {r0 : State} (i : Nat) (s0 : State) (hm : Moves cc r0 s0) :
    Moves cc r0 (landWrite i s0) := by
  unfold landWrite
  with_reducible repeat' first
    | assumption | apply Moves.ite | apply renewSlots_moves | apply landBlocks_moves | apply setCmd_moves
    | apply switchMu_moves | apply stageSlot_moves | apply fillNow_moves | apply catchUp_moves | apply Moves.foldl
    | intro _

theorem writeDone_moves {cc : Bool} {r0 : State} (i : Nat) (s : State) (hm : Moves cc r0 s) :
    Moves cc r0 (writeDone i s) := by
  unfold writeDone
  with_reducible repeat' first | assumption | apply landWrite_moves | apply setCmd_moves

theorem startWrite_moves {cc : Bool} {r0 : State} (i : Nat) (slots : List Nat) (wp : Nat) (s : State) (hm : Moves cc r0 s) :
    Moves cc r0 (startWrite i slots wp s) := by
  unfold startWrite
  with_reducible repeat' first
    | assumption | apply Moves.ite | apply notePeak_moves | apply setCmd_moves | apply fillNow_moves
    | apply writeDone_moves | apply tagBlock_moves | apply Moves.foldl | intro _

theorem admitZoned_moves {cc : Bool} {r0 : State} (i t : Nat) (s : State) (hm : Moves cc r0 s) :
    Moves cc r0 (admitZoned i t s) := by
  unfold admitZoned
  with_reducible repeat' first
    | assumption | apply Moves.ite | apply holdCmd_moves | apply failCmd_moves | apply unhold_moves
    | apply zoneReadOnly_moves | apply yardWait_moves | (apply MovesP.snd; apply openZone_moves) | apply setCmd_moves
    | apply startWrite_moves | apply setZone_moves | intro _ | refine takeSlots_movesE ?_ ‹_› | extract_lets | split

theorem admitConventional_moves {cc : Bool} {r0 : State} (i t : Nat) (s : State) (hm : Moves cc r0 s) :
    Moves cc r0 (admitConventional i t s) := by
  unfold admitConventional
  with_reducible repeat' first
    | assumption | apply Moves.ite | apply yardWait_moves | apply holdCmd_moves | apply unhold_moves
    | apply failCmd_moves | apply sparesExhausted_moves | apply startWrite_moves | intro _
    | refine takeSlots_movesE ?_ ‹_› | extract_lets | split

theorem unmapWhole_moves {cc : Bool} {r0 : State} (nsid : Nat) (l : List (Nat × Nat)) (s : State) (hm : Moves cc r0 s) :
    Moves cc r0 (unmapWhole nsid l s) := by
  unfold unmapWhole
  with_reducible repeat' first
    | assumption | apply Moves.ite | apply mapSet_moves | apply Moves.foldl | intro _ | extract_lets | split

theorem dsmPart_moves {cc : Bool} {r0 : State} (i t : Nat) (l : List (Nat × Nat)) (mu : Nat) (s : State) (hm : Moves cc r0 s) :
    Moves cc r0 (dsmPart i t l mu s) := by
  unfold dsmPart
  with_reducible repeat' first
    | assumption | apply sparesExhausted_moves | (apply MovesP.snd; apply nextWseq_moves) | apply tagFormed_moves
    | apply setSlot_moves | apply notePeak_moves | apply stageSlot_moves | apply fillNow_moves | apply switchMu_moves
    | apply Moves.foldl | intro _ | refine newSlot_movesE ?_ ‹_› | extract_lets | split

theorem admitDsm_moves {cc : Bool} {r0 : State} (i t : Nat) (s : State) (hm : Moves cc r0 s) :
    Moves cc r0 (admitDsm i t s) := by
  unfold admitDsm
  with_reducible repeat' first
    | assumption | apply Moves.ite | apply yardWait_moves | apply holdCmd_moves | apply dsmPart_moves
    | apply unhold_moves | apply ready_moves | apply keysSettle_moves | apply handEmptied_moves
    | apply unmapWhole_moves | apply Moves.foldl | intro _

theorem admitWrite_moves {cc : Bool} {r0 : State} (i : Nat) (s : State) (hm : Moves cc r0 s) :
    Moves cc r0 (admitWrite i s) := by
  unfold admitWrite
  with_reducible repeat' first
    | assumption | apply Moves.ite | apply holdCmd_moves | apply admitDsm_moves | apply admitZoned_moves
    | apply admitConventional_moves | intro _

theorem admitted_moves {cc : Bool} {r0 : State} (i : Nat) (s : State) (hm : Moves cc r0 s) :
    Moves cc r0 (admitted i s) := by
  unfold admitted
  with_reducible repeat' first
    | assumption | exact fun _ => rfl | apply Moves.ite | apply admitWrite_moves | intro _ | extract_lets
    | (apply Moves.mk; apply admitWrite_moves)

theorem leaveSlots_moves {cc : Bool} {r0 : State} (i : Nat) (slots : List Nat) (s : State) (hm : Moves cc r0 s) :
    Moves cc r0 (leaveSlots i slots s) := by
  unfold leaveSlots
  with_reducible repeat' first
    | assumption | apply Moves.ite | apply setSlot_moves | apply stageSlot_moves | apply fillNow_moves
    | apply Moves.foldl | intro _

theorem deallocRest_moves {cc : Bool} {r0 : State} (i : Nat) (s : State) (hm : Moves cc r0 s) :
    Moves cc r0 (deallocRest i s) := by
  unfold deallocRest
  with_reducible repeat' first | assumption | apply tagBlock_moves | apply Moves.foldl | intro _

theorem cutWrite_moves {cc : Bool} {r0 : State} (i : Nat) (keep : Bool) (s : State) (hm : Moves cc r0 s) :
    Moves cc r0 (cutWrite i keep s) := by
  unfold cutWrite
  with_reducible repeat' first
    | assumption | apply Moves.ite | apply setCmd_moves | apply deallocRest_moves | apply landWrite_moves
    | apply leaveSlots_moves | intro _

theorem dataArrival_moves {cc : Bool} {r0 : State} (i : Nat) (blocks : List BlockIn) (pi : Option PiError) (s : State) (hm : Moves cc r0 s) :
    Moves cc r0 (dataArrival i blocks pi s) := by
  unfold dataArrival
  with_reducible repeat' first
    | assumption | apply Moves.ite | apply failCmd_moves | apply cutWrite_moves | apply tagBlock_moves
    | apply writeDone_moves | apply Moves.foldl | intro _

theorem writeCmd_moves {cc : Bool} {r0 : State} (kind : CmdKind) (h : CmdHead) (slba nlb : Nat) (hints : Hints) (s : State) (hm : Moves cc r0 s) :
    Moves cc r0 (writeCmd kind h slba nlb hints s) := by
  unfold writeCmd
  with_reducible repeat' first
    | assumption | apply Moves.ite | apply ioCmd_moves | apply answer_moves | apply fdpNote_moves
    | (apply MovesP.snd; apply allocCmd_moves) | apply queueSearch_moves | intro _ | extract_lets | split

theorem dsmCmd_moves {cc : Bool} {r0 : State} (h : CmdHead) (dealloc : Bool) (ranges : List DsmRange) (s : State) (hm : Moves cc r0 s) :
    Moves cc r0 (dsmCmd h dealloc ranges s) := by
  unfold dsmCmd
  with_reducible repeat' first
    | assumption | apply Moves.ite | apply ioCmd_moves | apply answer_moves | (apply MovesP.snd; apply allocCmd_moves)
    | apply admitted_moves | intro _

theorem execWrite_moves {cc : Bool} {r0 : State} (h : CmdHead) (slba nlb : Nat) (hints : Hints) (s : State) (hm : Moves cc r0 s) :
    MovesR cc r0 (execWrite h slba nlb hints s) := by
  unfold execWrite
  with_reducible repeat' first | assumption | apply MovesR.next | apply writeCmd_moves

theorem execWriteZeroes_moves {cc : Bool} {r0 : State} (h : CmdHead) (slba nlb : Nat) (hints : Hints) (s : State) (hm : Moves cc r0 s) :
    MovesR cc r0 (execWriteZeroes h slba nlb hints s) := by
  unfold execWriteZeroes
  with_reducible repeat' first | assumption | apply MovesR.next | apply writeCmd_moves

theorem execZoneAppend_moves {cc : Bool} {r0 : State} (h : CmdHead) (zslba nlb : Nat) (hints : Hints) (s : State) (hm : Moves cc r0 s) :
    MovesR cc r0 (execZoneAppend h zslba nlb hints s) := by
  unfold execZoneAppend
  with_reducible repeat' first | assumption | apply MovesR.next | apply writeCmd_moves

theorem execDatasetManagement_moves {cc : Bool} {r0 : State} (h : CmdHead) (deallocate : Bool) (ranges : List DsmRange) (s : State) (hm : Moves cc r0 s) :
    MovesR cc r0 (execDatasetManagement h deallocate ranges s) := by
  unfold execDatasetManagement
  with_reducible repeat' first | assumption | apply MovesR.next | apply dsmCmd_moves

theorem execWriteAdmitted_moves {cc : Bool} {r0 : State} (cmd : Nat) (s : State) (hm : Moves cc r0 s) :
    MovesR cc r0 (execWriteAdmitted cmd s) := by
  unfold execWriteAdmitted
  with_reducible repeat' first | assumption | apply MovesR.next | apply admitted_moves

theorem execWriteDataArrival_moves {cc : Bool} {r0 : State} (cmd : Nat) (blocks : List BlockIn) (pi : Option PiError) (s : State) (hm : Moves cc r0 s) :
    MovesR cc r0 (execWriteDataArrival cmd blocks pi s) := by
  unfold execWriteDataArrival
  with_reducible repeat' first | assumption | apply MovesR.next | apply dataArrival_moves

end Sys2Proof.Machine
end

