-- ==== Sys2Proof/Laws/Moves/ReadCmd.lean ====
section
/-!
SUPPORT. Laws/Moves/ReadCmd.lean: the operations of Machine/ReadCmd.lean keep what `Moves` says.
-/

namespace Sys2Proof.Machine

theorem notRead_moves {cc : Bool} {r0 : State} (i lba : Nat) (kind : RdKind) (e : Ent) (s : State) (hm : Moves cc r0 s) :
    Moves cc r0 (notRead i lba kind e s) := by
  unfold notRead
  with_reducible repeat' first
    | assumption | apply addF_moves | apply noteTag_moves | apply blockDone_moves | extract_lets | split

theorem startBlock_moves {cc : Bool} {r0 : State} (i : Nat) (kind : RdKind) (slot lba : Nat) (s : State) (hm : Moves cc r0 s) :
    Moves cc r0 (startBlock i kind slot lba s) := by
  unfold startBlock
  with_reducible repeat' first
    | assumption | apply Moves.ite | apply blockDone_moves | apply toHost_moves | apply setCmd_moves
    | apply noteTag_moves | apply notRead_moves | (apply MovesP.snd; apply newRd_moves) | apply setSlot_moves
    | apply readAround_moves | intro _ | extract_lets | split

theorem startBlocks_moves {cc : Bool} {r0 : State} (i : Nat) (kind : RdKind) (slot : Nat) (s : State) (hm : Moves cc r0 s) :
    Moves cc r0 (startBlocks i kind slot s) := by
  unfold startBlocks
  with_reducible repeat' first | assumption | apply startBlock_moves | apply Moves.foldl | intro _

theorem readCmd_moves {cc : Bool} {r0 : State} (h : CmdHead) (slba nlb : Nat) (hints : Hints) (slot : Nat) (s : State) (hm : Moves cc r0 s) :
    Moves cc r0 (readCmd h slba nlb hints slot s) := by
  unfold readCmd
  with_reducible repeat' first
    | assumption | apply Moves.ite | apply ioCmd_moves | apply answer_moves | (apply MovesP.snd; apply allocCmd_moves)
    | apply queueSearch_moves | apply startBlocks_moves | intro _ | extract_lets | split

theorem verifyCmd_moves {cc : Bool} {r0 : State} (h : CmdHead) (slba nlb : Nat) (s : State) (hm : Moves cc r0 s) :
    Moves cc r0 (verifyCmd h slba nlb s) := by
  unfold verifyCmd
  with_reducible repeat' first
    | assumption | apply ioCmd_moves | apply answer_moves | (apply MovesP.snd; apply allocCmd_moves)
    | apply endIfDone_moves | apply startBlocks_moves | intro _ | extract_lets | split

theorem readTagsCmd_moves {cc : Bool} {r0 : State} (h : CmdHead) (slba count : Nat) (s : State) (hm : Moves cc r0 s) :
    Moves cc r0 (readTagsCmd h slba count s) := by
  unfold readTagsCmd
  with_reducible repeat' first
    | assumption | apply ioCmd_moves | apply answer_moves | (apply MovesP.snd; apply allocCmd_moves)
    | apply endIfDone_moves | apply startBlocks_moves | intro _ | extract_lets | split

theorem startAudit_moves {cc : Bool} {r0 : State} (i : Nat) (s : State) (hm : Moves cc r0 s) :
    Moves cc r0 (startAudit i s) := by
  unfold startAudit
  with_reducible repeat' first | assumption | apply endIfDone_moves | apply startBlocks_moves | apply setCmd_moves

theorem settleAudits_moves {cc : Bool} {r0 : State} (s : State) (hm : Moves cc r0 s) :
    Moves cc r0 (settleAudits s) := by
  unfold settleAudits
  with_reducible repeat' first | assumption | apply Moves.ite | apply startAudit_moves | apply Moves.foldl | intro _

theorem auditCmd_moves {cc : Bool} {r0 : State} (h : CmdHead) (zslba nonce : Nat) (s : State) (hm : Moves cc r0 s) :
    Moves cc r0 (auditCmd h zslba nonce s) := by
  unfold auditCmd
  with_reducible repeat' first
    | assumption | apply Moves.ite | apply ioCmd_moves | apply answer_moves | (apply MovesP.snd; apply allocCmd_moves)
    | apply settleAudits_moves | intro _

theorem readTransferred_moves {cc : Bool} {r0 : State} (i slot : Nat) (s : State) (hm : Moves cc r0 s) :
    Moves cc r0 (readTransferred i slot s) := by
  unfold readTransferred
  with_reducible repeat' first | assumption | apply Moves.ite | apply errInfoLog_moves | apply setCmd_moves | intro _

theorem dropReads_moves {cc : Bool} {r0 : State} (i : Nat) (s : State) (hm : Moves cc r0 s) :
    Moves cc r0 (dropReads i s) := by
  unfold dropReads
  with_reducible repeat' first | assumption | apply dropRd_moves | apply Moves.foldl | intro _

theorem cplTimeout_moves {cc : Bool} {r0 : State} (i : Nat) (s : State) (hm : Moves cc r0 s) :
    Moves cc r0 (cplTimeout i s) := by
  unfold cplTimeout
  with_reducible repeat' first
    | assumption | apply Moves.ite | apply cutWrite_moves | apply dropReads_moves | apply unhold_moves
    | apply happen_moves | apply failCmd_moves | intro _

theorem flushBody_moves {cc : Bool} {r0 : State} (h : CmdHead) (late : Bool) (s : State) (hm : Moves cc r0 s) :
    Moves cc r0 (flushBody h late s) := by
  unfold flushBody
  with_reducible repeat' first
    | assumption | apply Moves.ite | apply answer_moves | (apply MovesP.snd; apply allocCmd_moves) | intro _

theorem flushCmd_moves {cc : Bool} {r0 : State} (h : CmdHead) (late : Bool) (s : State) (hm : Moves cc r0 s) :
    Moves cc r0 (flushCmd h late s) := by
  unfold flushCmd
  with_reducible repeat' first
    | assumption | apply Moves.ite | apply answer_moves | apply flushBody_moves | apply ioCmd_moves | intro _
    | refine takeCmd_movesE ?_ ‹_› | extract_lets | split

theorem endUnit_moves {cc : Bool} {r0 : State} (t w : Nat) (s : State) (hm : Moves cc r0 s) :
    Moves cc r0 (endUnit t w s) := by
  unfold endUnit
  with_reducible repeat' first
    | assumption | exact fun _ => rfl | apply Moves.ite | apply setCourse_moves | apply handEmptied_moves
    | apply setSlot_moves | apply sparesExhausted_moves | (apply Moves.mk; assumption) | apply Moves.foldl | intro _
    | refine wallCourse_movesE ?_ ‹_› | extract_lets | split | (apply Moves.mk; apply fdpNote_moves)

theorem ioSend_moves {cc : Bool} {r0 : State} (h : CmdHead) (handles : List Nat) (s : State) (hm : Moves cc r0 s) :
    Moves cc r0 (ioSend h handles s) := by
  unfold ioSend
  with_reducible repeat' first
    | assumption | apply Moves.ite | apply ioCmd_moves | apply answer_moves | apply endUnit_moves | apply Moves.foldl
    | intro _

theorem ioReceive_moves {cc : Bool} {r0 : State} (h : CmdHead) (s : State) (hm : Moves cc r0 s) :
    Moves cc r0 (ioReceive h s) := by
  unfold ioReceive
  with_reducible repeat' first | assumption | apply Moves.ite | apply ioCmd_moves | apply answer_moves | intro _

theorem zoneReceive_moves {cc : Bool} {r0 : State} (h : CmdHead) (slba count : Nat) (extended : Bool) (s : State) (hm : Moves cc r0 s) :
    Moves cc r0 (zoneReceive h slba count extended s) := by
  unfold zoneReceive
  with_reducible repeat' first | assumption | apply Moves.ite | apply ioCmd_moves | apply answer_moves | intro _

theorem whenPresent_moves {cc : Bool} {r0 : State} (h : CmdHead) (slba nlb : Nat) (f : State → State) (s : State) (hf : ∀ u, Moves cc r0 u → Moves cc r0 (f u)) (hm : Moves cc r0 s) :
    Moves cc r0 (whenPresent h slba nlb f s) := by
  unfold whenPresent
  with_reducible repeat' first | assumption | apply Moves.ite | apply hf | intro _

theorem execRead_moves {cc : Bool} {r0 : State} (h : CmdHead) (slba nlb : Nat) (hints : Hints) (slot : Nat) (s : State) (hm : Moves cc r0 s) :
    MovesR cc r0 (execRead h slba nlb hints slot s) := by
  unfold execRead
  with_reducible repeat' first | assumption | apply MovesR.next | apply whenPresent_moves | apply readCmd_moves

theorem execVerify_moves {cc : Bool} {r0 : State} (h : CmdHead) (slba nlb : Nat) (s : State) (hm : Moves cc r0 s) :
    MovesR cc r0 (execVerify h slba nlb s) := by
  unfold execVerify
  with_reducible repeat' first | assumption | apply MovesR.next | apply whenPresent_moves | apply verifyCmd_moves

theorem execReadTags_moves {cc : Bool} {r0 : State} (h : CmdHead) (slba count : Nat) (s : State) (hm : Moves cc r0 s) :
    MovesR cc r0 (execReadTags h slba count s) := by
  unfold execReadTags
  with_reducible repeat' first | assumption | apply MovesR.next | apply whenPresent_moves | apply readTagsCmd_moves

theorem execZoneAudit_moves {cc : Bool} {r0 : State} (h : CmdHead) (zslba nonce : Nat) (s : State) (hm : Moves cc r0 s) :
    MovesR cc r0 (execZoneAudit h zslba nonce s) := by
  unfold execZoneAudit
  with_reducible repeat' first | assumption | apply MovesR.next | apply auditCmd_moves

theorem execReadDataTransferred_moves {cc : Bool} {r0 : State} (cmd slot : Nat) (s : State) (hm : Moves cc r0 s) :
    MovesR cc r0 (execReadDataTransferred cmd slot s) := by
  unfold execReadDataTransferred
  with_reducible repeat' first | assumption | apply MovesR.next | apply readTransferred_moves

theorem execHostCplTimeout_moves {cc : Bool} {r0 : State} (cmd : Nat) (s : State) (hm : Moves cc r0 s) :
    MovesR cc r0 (execHostCplTimeout cmd s) := by
  unfold execHostCplTimeout
  with_reducible repeat' first | assumption | apply MovesR.next | apply cplTimeout_moves

theorem execFlush_moves {cc : Bool} {r0 : State} (h : CmdHead) (late : Bool) (s : State) (hm : Moves cc r0 s) :
    MovesR cc r0 (execFlush h late s) := by
  unfold execFlush
  with_reducible repeat' first | assumption | apply MovesR.next | apply flushCmd_moves

theorem execIoManagementSend_moves {cc : Bool} {r0 : State} (h : CmdHead) (handles : List Nat) (s : State) (hm : Moves cc r0 s) :
    MovesR cc r0 (execIoManagementSend h handles s) := by
  unfold execIoManagementSend
  with_reducible repeat' first | assumption | apply MovesR.next | apply ioSend_moves

theorem execIoManagementReceive_moves {cc : Bool} {r0 : State} (h : CmdHead) (s : State) (hm : Moves cc r0 s) :
    MovesR cc r0 (execIoManagementReceive h s) := by
  unfold execIoManagementReceive
  with_reducible repeat' first | assumption | apply MovesR.next | apply ioReceive_moves

theorem execZoneManagementReceive_moves {cc : Bool} {r0 : State} (h : CmdHead) (slba count : Nat) (extended : Bool) (s : State) (hm : Moves cc r0 s) :
    MovesR cc r0 (execZoneManagementReceive h slba count extended s) := by
  unfold execZoneManagementReceive
  with_reducible repeat' first | assumption | apply MovesR.next | apply zoneReceive_moves

end Sys2Proof.Machine
end

