-- ==== Sys2Proof/Laws/Moves/Host.lean ====
section
/-!
SUPPORT. Laws/Moves/Host.lean: the operations of Machine/Host.lean keep what `Moves` says.
-/

namespace Sys2Proof.Machine

theorem fetchGrant_moves {cc : Bool} {r0 : State} (port : Nat) (s : State) (hm : Moves cc r0 s) :
    Moves cc r0 (fetchGrant port s) := by
  unfold fetchGrant
  with_reducible repeat' first
    | assumption | exact fun _ => rfl | apply addF_moves | apply tick_moves | extract_lets | split
    | (apply Moves.mk; apply setSq_moves)

theorem cqDoorbell_moves {cc : Bool} {r0 : State} (fn qid head : Nat) (s : State) (hm : Moves cc r0 s) :
    Moves cc r0 (cqDoorbell fn qid head s) := by
  unfold cqDoorbell
  with_reducible repeat' first | assumption | apply Moves.ite | apply setCq_moves | intro _

theorem clearDwe_moves {cc : Bool} {r0 : State} (c : Cmd) (s : State) (hm : Moves cc r0 s) :
    Moves cc r0 (clearDwe c s) := by
  unfold clearDwe
  with_reducible repeat' first | assumption | apply setNs_moves | apply Moves.foldl | intro _

theorem postNow_moves {cc : Bool} {r0 : State} (i : Nat) (signal : Bool) (s : State) (hm : Moves cc r0 s) :
    Moves cc r0 (postNow i signal s) := by
  unfold postNow
  with_reducible repeat' first
    | assumption | exact fun _ => rfl | apply Moves.ite | apply emit_moves | apply setCq_moves | apply clearDwe_moves
    | apply addF_moves | apply dropCmd_moves | intro _ | extract_lets | split | (apply Moves.mk; apply addF_moves)

theorem postEntry_moves {cc : Bool} {r0 : State} (c idx op : Nat) (linkOk : Bool) (s : State) (hm : Moves cc r0 s) :
    Moves cc r0 (postEntry c idx op linkOk s) := by
  unfold postEntry
  with_reducible repeat' first
    | assumption | apply Moves.ite | apply onEntry_moves | apply retire_moves | apply addF_moves | apply postNow_moves
    | intro _

theorem resetCmd_moves {cc : Bool} {r0 : State} (i : Nat) (s : State) (hm : Moves cc r0 s) :
    Moves cc r0 (resetCmd i s) := by
  unfold resetCmd
  with_reducible repeat' first
    | assumption | exact fun _ => rfl | apply Moves.ite | apply cutWrite_moves | apply dropCmd_moves | intro _
    | extract_lets | split | (apply Moves.mk; apply dropReads_moves)

theorem dropQueues_moves {cc : Bool} {r0 : State} (fn : Nat) (s : State) (hm : Moves cc r0 s) :
    Moves cc r0 (dropQueues fn s) := by
  unfold dropQueues
  with_reducible repeat' first | exact fun _ => rfl | (apply Moves.mk; assumption)

theorem resetFn_moves {cc : Bool} {r0 : State} (fn : Nat) (s : State) (hm : Moves cc r0 s) :
    Moves cc r0 (resetFn fn s) := by
  unfold resetFn
  with_reducible repeat' first
    | assumption | apply resetCmd_moves | apply setFn_moves | apply dropQueues_moves | apply endSession_moves
    | apply Moves.foldl | intro _

theorem orPaused_moves {cc : Bool} {r0 : State} (kind n port : Nat) (f : State → State) (s : State) (hf : ∀ u, Moves cc r0 u → Moves cc r0 (f u)) (hm : Moves cc r0 s) :
    Moves cc r0 (orPaused kind n port f s) := by
  unfold orPaused
  with_reducible repeat' first
    | assumption | exact fun _ => rfl | apply Moves.ite | apply hf | (apply Moves.mk; assumption) | intro _

theorem flr_moves {cc : Bool} {r0 : State} (fn : Nat) (s : State) (hm : Moves cc r0 s) :
    Moves cc r0 (flr fn s) := by
  unfold flr
  with_reducible repeat' first | assumption | apply resetFn_moves | apply setFn_moves

theorem resetPort_moves {cc : Bool} {r0 : State} (p : Nat) (s : State) (hm : Moves cc r0 s) :
    Moves cc r0 (resetPort p s) := by
  unfold resetPort
  with_reducible repeat' first | assumption | apply resetFn_moves | apply setFn_moves | apply Moves.foldl | intro _

theorem linkDown_moves {cc : Bool} {r0 : State} (p : Nat) (s : State) (hm : Moves cc r0 s) :
    Moves cc r0 (linkDown p s) := by
  unfold linkDown
  with_reducible repeat' first
    | assumption | exact fun _ => rfl | apply Moves.ite | apply setF_moves | apply happen_moves | intro _
    | extract_lets | (apply Moves.mk; apply setF_moves)

theorem linkUp_moves {cc : Bool} {r0 : State} (p speed w : Nat) (flit : Bool) (s : State) (hm : Moves cc r0 s) :
    Moves cc r0 (linkUp p speed w flit s) := by
  unfold linkUp
  with_reducible repeat' first
    | assumption | exact fun _ => rfl | apply Moves.ite | apply setF_moves | apply happen_moves
    | (apply Moves.mk; assumption) | intro _

theorem retrain_moves {cc : Bool} {r0 : State} (p : Nat) (s : State) (hm : Moves cc r0 s) :
    Moves cc r0 (retrain p s) := by
  unfold retrain
  with_reducible repeat' first
    | assumption | exact fun _ => rfl | apply Moves.ite | (apply Moves.mk; assumption) | intro _

theorem widthChange_moves {cc : Bool} {r0 : State} (p : Nat) (upconfigure : Bool) (s : State) (hm : Moves cc r0 s) :
    Moves cc r0 (widthChange p upconfigure s) := by
  unfold widthChange
  with_reducible repeat' first
    | assumption | apply Moves.ite | apply retrain_moves | apply happen_moves | apply setF_moves | intro _

theorem perstHigh_moves {cc : Bool} {r0 : State} (p : Nat) (s : State) (hm : Moves cc r0 s) :
    Moves cc r0 (perstHigh p s) := by
  unfold perstHigh
  with_reducible repeat' first
    | exact fun _ => rfl | apply Moves.ite | (apply Moves.mk; assumption) | intro _ | extract_lets
    | (apply Moves.mk; apply Moves.mk; assumption)

theorem portResetDo_moves {cc : Bool} {r0 : State} (p : Nat) (s : State) (hm : Moves cc r0 s) :
    Moves cc r0 (portResetDo p s) := by
  unfold portResetDo
  with_reducible repeat' first
    | assumption | exact fun _ => rfl | apply Moves.ite | apply linkDown_moves | apply orPaused_moves
    | apply resetPort_moves | (apply Moves.mk; assumption) | intro _

theorem enableFn_moves {cc : Bool} {r0 : State} (fn : Nat) (s : State) (hm : Moves cc r0 s) :
    Moves cc r0 (enableFn fn s) := by
  unfold enableFn
  with_reducible repeat' first
    | assumption | apply Moves.ite | apply setCq_moves | apply setSq_moves | apply setFn_moves | intro _

theorem shutdownNote_moves {cc : Bool} {r0 : State} (fn : Nat) (s : State) (hm : Moves cc r0 s) :
    Moves cc r0 (shutdownNote fn s) := by
  unfold shutdownNote
  with_reducible repeat' first | assumption | apply Moves.ite | apply setFn_moves | intro _

theorem shutdownEnd_moves {cc : Bool} {r0 : State} (fn : Nat) (s : State) (hm : Moves cc r0 s) :
    Moves cc r0 (shutdownEnd fn s) := by
  unfold shutdownEnd
  with_reducible repeat' first | assumption | apply Moves.ite | apply setFn_moves | intro _

theorem vfEnableDo_moves {cc : Bool} {r0 : State} (port numVfs : Nat) (enable : Bool) (s : State) (hm : Moves cc r0 s) :
    Moves cc r0 (vfEnableDo port numVfs enable s) := by
  unfold vfEnableDo
  with_reducible repeat' first
    | assumption | apply Moves.ite | apply setFn_moves | apply resetFn_moves | apply Moves.foldl | intro _

theorem execCommandFetch_moves {cc : Bool} {r0 : State} (port : Nat) (s : State) (hm : Moves cc r0 s) :
    MovesR cc r0 (execCommandFetch port s) := by
  unfold execCommandFetch
  with_reducible repeat' first | assumption | apply MovesR.next | apply fetchGrant_moves

theorem execCqDoorbellWrite_moves {cc : Bool} {r0 : State} (fn qid head : Nat) (s : State) (hm : Moves cc r0 s) :
    MovesR cc r0 (execCqDoorbellWrite fn qid head s) := by
  unfold execCqDoorbellWrite
  with_reducible repeat' first | assumption | apply MovesR.next | apply cqDoorbell_moves

theorem execPost_moves {cc : Bool} {r0 : State} (c idx : Nat) (linkOk : Bool) (s : State) (hm : Moves cc r0 s) :
    MovesR cc r0 (execPost c idx linkOk s) := by
  unfold execPost
  with_reducible repeat' first | assumption | apply MovesR.next | apply postEntry_moves

theorem execPostQuiet_moves {cc : Bool} {r0 : State} (c idx : Nat) (linkOk : Bool) (s : State) (hm : Moves cc r0 s) :
    MovesR cc r0 (execPostQuiet c idx linkOk s) := by
  unfold execPostQuiet
  with_reducible repeat' first | assumption | apply MovesR.next | apply postEntry_moves

theorem execFunctionLevelReset_moves {cc : Bool} {r0 : State} (fn : Nat) (s : State) (hm : Moves cc r0 s) :
    MovesR cc r0 (execFunctionLevelReset fn s) := by
  unfold execFunctionLevelReset
  with_reducible repeat' first | assumption | apply MovesR.next | apply orPaused_moves | apply flr_moves

theorem execPortReset_moves {cc : Bool} {r0 : State} (p : Nat) (s : State) (hm : Moves cc r0 s) :
    MovesR cc r0 (execPortReset p s) := by
  unfold execPortReset
  with_reducible repeat' first | assumption | apply MovesR.next | apply portResetDo_moves

theorem execHostLinkUp_moves {cc : Bool} {r0 : State} (p speed width : Nat) (flit : Bool) (s : State) (hm : Moves cc r0 s) :
    MovesR cc r0 (execHostLinkUp p speed width flit s) := by
  unfold execHostLinkUp
  with_reducible repeat' first | assumption | apply MovesR.next | apply linkUp_moves

theorem execHostLinkDown_moves {cc : Bool} {r0 : State} (p : Nat) (s : State) (hm : Moves cc r0 s) :
    MovesR cc r0 (execHostLinkDown p s) := by
  unfold execHostLinkDown
  with_reducible repeat' first
    | assumption | apply Moves.ite | apply MovesR.next | apply orPaused_moves | apply resetPort_moves
    | apply linkDown_moves | intro _

theorem execHostLinkRetrain_moves {cc : Bool} {r0 : State} (p : Nat) (s : State) (hm : Moves cc r0 s) :
    MovesR cc r0 (execHostLinkRetrain p s) := by
  unfold execHostLinkRetrain
  with_reducible repeat' first | assumption | apply MovesR.next | apply guarded_moves | apply retrain_moves

theorem execLinkWidthChange_moves {cc : Bool} {r0 : State} (p : Nat) (upconfigure : Bool) (s : State) (hm : Moves cc r0 s) :
    MovesR cc r0 (execLinkWidthChange p upconfigure s) := by
  unfold execLinkWidthChange
  with_reducible repeat' first | assumption | apply MovesR.next | apply widthChange_moves

theorem execPerstDeasserted_moves {cc : Bool} {r0 : State} (p : Nat) (s : State) (hm : Moves cc r0 s) :
    MovesR cc r0 (execPerstDeasserted p s) := by
  unfold execPerstDeasserted
  with_reducible repeat' first | assumption | apply MovesR.next | apply perstHigh_moves

theorem execControllerEnable_moves {cc : Bool} {r0 : State} (fn : Nat) (s : State) (hm : Moves cc r0 s) :
    MovesR cc r0 (execControllerEnable fn s) := by
  unfold execControllerEnable
  with_reducible repeat' first | assumption | apply MovesR.next | apply enableFn_moves

theorem execShutdownNotification_moves {cc : Bool} {r0 : State} (fn : Nat) (s : State) (hm : Moves cc r0 s) :
    MovesR cc r0 (execShutdownNotification fn s) := by
  unfold execShutdownNotification
  with_reducible repeat' first | assumption | apply MovesR.next | apply shutdownNote_moves

theorem execShutdownComplete_moves {cc : Bool} {r0 : State} (fn : Nat) (s : State) (hm : Moves cc r0 s) :
    MovesR cc r0 (execShutdownComplete fn s) := by
  unfold execShutdownComplete
  with_reducible repeat' first | assumption | apply MovesR.next | apply shutdownEnd_moves

theorem execVfEnable_moves {cc : Bool} {r0 : State} (port numVfs : Nat) (enable : Bool) (s : State) (hm : Moves cc r0 s) :
    MovesR cc r0 (execVfEnable port numVfs enable s) := by
  unfold execVfEnable
  with_reducible repeat' first | assumption | apply MovesR.next | apply vfEnableDo_moves

theorem execAerError_moves {cc : Bool} {r0 : State} (p : Nat) (correctable : Bool) (s : State) (hm : Moves cc r0 s) :
    MovesR cc r0 (execAerError p correctable s) := by
  unfold execAerError
  with_reducible repeat' first
    | assumption | apply Moves.ite | apply MovesR.next | apply happen_moves | split | intro _

end Sys2Proof.Machine
end

