-- ==== Sys2Proof/Laws/Moves/Kiln.lean ====
section
/-!
SUPPORT. Laws/Moves/Kiln.lean: the operations of Machine/Kiln.lean keep what `Moves` says.
-/

namespace Sys2Proof.Machine

theorem faultSensor_moves {cc : Bool} {r0 : State} (i : Nat) (s : State) (hm : Moves cc r0 s) :
    Moves cc r0 (faultSensor i s) := by
  unfold faultSensor
  with_reducible repeat' first | assumption | apply Moves.ite | apply setF_moves | apply happen_moves | intro _

theorem readSensor_moves {cc : Bool} {r0 : State} (i : Nat) (r : Option Int) (s : State) (hm : Moves cc r0 s) :
    Moves cc r0 (readSensor i r s) := by
  unfold readSensor
  with_reducible repeat' first
    | assumption | apply Moves.ite | apply setF_moves | apply faultSensor_moves | intro _ | extract_lets | split

theorem showEngines_moves {cc : Bool} {r0 : State} (s : State) (hm : Moves cc r0 s) :
    Moves cc r0 (showEngines s) := by
  unfold showEngines
  with_reducible repeat' first | assumption | apply setF_moves

theorem takeLevel_moves {cc : Bool} {r0 : State} (k : Nat) (s : State) (hm : Moves cc r0 s) :
    Moves cc r0 (takeLevel k s) := by
  unfold takeLevel
  with_reducible repeat' first
    | exact fun _ => rfl | apply Moves.ite | apply driveAen_moves | apply happen_moves | apply showEngines_moves
    | apply setF_moves | (apply Moves.mk; assumption) | intro _

theorem moveLevel_moves {cc : Bool} {r0 : State} (k : Nat) (s : State) (hm : Moves cc r0 s) :
    Moves cc r0 (moveLevel k s) := by
  unfold moveLevel
  with_reducible repeat' first
    | assumption | exact fun _ => rfl | apply Moves.ite | apply takeLevel_moves | (apply Moves.mk; assumption)
    | intro _

theorem countLevel_moves {cc : Bool} {r0 : State} (us : Nat) (s : State) (hm : Moves cc r0 s) :
    Moves cc r0 (countLevel us s) := by
  unfold countLevel
  with_reducible repeat' first | exact fun _ => rfl | apply addF_moves | (apply Moves.mk; assumption)

theorem countPower_moves {cc : Bool} {r0 : State} (us : Nat) (s : State) (hm : Moves cc r0 s) :
    Moves cc r0 (countPower us s) := by
  unfold countPower
  with_reducible repeat' first
    | assumption | exact fun _ => rfl | apply Moves.ite | apply addF_moves | (apply Moves.mk; assumption) | intro _

theorem warnStep_moves {cc : Bool} {r0 : State} (t : Int) (s : State) (hm : Moves cc r0 s) :
    Moves cc r0 (warnStep t s) := by
  unfold warnStep
  with_reducible repeat' first | assumption | apply Moves.ite | apply setF_moves | apply happen_moves | intro _

theorem levelStep_moves {cc : Bool} {r0 : State} (t : Int) (rise : Bool) (s : State) (hm : Moves cc r0 s) :
    Moves cc r0 (levelStep t rise s) := by
  unfold levelStep
  with_reducible repeat' first
    | exact fun _ => rfl | apply Moves.ite | apply moveLevel_moves | (apply Moves.mk; assumption) | intro _

theorem thermalTrip_moves {cc : Bool} {r0 : State} (i : Nat) (t : Int) (s : State) (hm : Moves cc r0 s) :
    Moves cc r0 (thermalTrip i t s) := by
  unfold thermalTrip
  with_reducible repeat' first
    | exact fun _ => rfl | apply Moves.ite | apply setF_moves | apply addF_moves | apply happen_moves
    | apply groutCause_moves | apply cutStart_moves | (apply Moves.mk; assumption) | intro _ | extract_lets
    | (apply Moves.mk; apply enterOff_moves)

theorem tripStep_moves {cc : Bool} {r0 : State} (live : List (Nat × Int)) (s : State) (hm : Moves cc r0 s) :
    Moves cc r0 (tripStep live s) := by
  unfold tripStep
  with_reducible repeat' first
    | exact fun _ => rfl | apply Moves.ite | apply thermalTrip_moves | (apply Moves.mk; assumption) | intro _
    | extract_lets | split

theorem tmaxStep_moves {cc : Bool} {r0 : State} (live : List (Nat × Int)) (s : State) (hm : Moves cc r0 s) :
    Moves cc r0 (tmaxStep live s) := by
  unfold tmaxStep
  with_reducible repeat' first
    | assumption | exact fun _ => rfl | apply Moves.ite | apply setF_moves | apply warnStep_moves
    | apply levelStep_moves | apply happen_moves | intro _ | extract_lets | split | (apply Moves.mk; apply setF_moves)

theorem kilnSampleDo_moves {cc : Bool} {r0 : State} (temps : List (Option Int)) (s : State) (hm : Moves cc r0 s) :
    Moves cc r0 (kilnSampleDo temps s) := by
  unfold kilnSampleDo
  with_reducible repeat' first
    | assumption | exact fun _ => rfl | apply Moves.ite | apply countPower_moves | apply countLevel_moves
    | apply readSensor_moves | apply tripStep_moves | apply tmaxStep_moves | (apply Moves.mk; assumption)
    | apply Moves.foldl | intro _

theorem kilnEval_moves {cc : Bool} {r0 : State} (s : State) (hm : Moves cc r0 s) :
    Moves cc r0 (kilnEval s) := by
  unfold kilnEval
  with_reducible repeat' first
    | assumption | exact fun _ => rfl | apply Moves.ite | apply takeLevel_moves | (apply Moves.mk; assumption)
    | intro _ | extract_lets | split

theorem kilnBoundary_moves {cc : Bool} {r0 : State} (s : State) (hm : Moves cc r0 s) :
    Moves cc r0 (kilnBoundary s) := by
  unfold kilnBoundary
  with_reducible repeat' first | assumption | apply takeLevel_moves | split

theorem minLevelWrite_moves {cc : Bool} {r0 : State} (v : W32) (s : State) (hm : Moves cc r0 s) :
    Moves cc r0 (minLevelWrite v s) := by
  unfold minLevelWrite
  with_reducible repeat' first | assumption | apply Moves.ite | apply setR_moves | apply moveLevel_moves | intro _

theorem thermalOff_moves {cc : Bool} {r0 : State} (s : State) (hm : Moves cc r0 s) :
    Moves cc r0 (thermalOff s) := by
  unfold thermalOff
  with_reducible repeat' first
    | assumption | exact fun _ => rfl | apply Moves.ite | intro _ | extract_lets
    | (apply Moves.mk; apply enterOff_moves)

theorem tripRelease_moves {cc : Bool} {r0 : State} (s : State) (hm : Moves cc r0 s) :
    Moves cc r0 (tripRelease s) := by
  unfold tripRelease
  with_reducible repeat' first
    | assumption | exact fun _ => rfl | apply Moves.ite | (apply Moves.mk; assumption) | intro _ | extract_lets
    | split

theorem execKilnSample_moves {cc : Bool} {r0 : State} (temps : List (Option Int)) (s : State) (hm : Moves cc r0 s) :
    MovesR cc r0 (execKilnSample temps s) := by
  unfold execKilnSample
  with_reducible repeat' first | assumption | apply MovesR.next | apply kilnSampleDo_moves

theorem execKilnLevelEval_moves {cc : Bool} {r0 : State} (s : State) (hm : Moves cc r0 s) :
    MovesR cc r0 (execKilnLevelEval s) := by
  unfold execKilnLevelEval
  with_reducible repeat' first | assumption | apply MovesR.next | apply kilnEval_moves

theorem execThermalPowerdownTimeout_moves {cc : Bool} {r0 : State} (s : State) (hm : Moves cc r0 s) :
    MovesR cc r0 (execThermalPowerdownTimeout s) := by
  unfold execThermalPowerdownTimeout
  with_reducible repeat' first | assumption | apply MovesR.next | apply thermalOff_moves

theorem execThermTripRelease_moves {cc : Bool} {r0 : State} (s : State) (hm : Moves cc r0 s) :
    MovesR cc r0 (execThermTripRelease s) := by
  unfold execThermTripRelease
  with_reducible repeat' first | assumption | apply MovesR.next | apply tripRelease_moves

theorem execKilnMinLevelWrite_moves {cc : Bool} {r0 : State} (v : W32) (s : State) (hm : Moves cc r0 s) :
    MovesR cc r0 (execKilnMinLevelWrite v s) := by
  unfold execKilnMinLevelWrite
  with_reducible repeat' first | assumption | apply MovesR.next | apply guarded_moves | apply minLevelWrite_moves

end Sys2Proof.Machine
end

