-- ==== Sys2Proof/Laws/Moves/Sort.lean ====
section
/-!
SUPPORT. Laws/Moves/Sort.lean: the operations of Machine/Sort.lean keep what `Moves` says.
-/

namespace Sys2Proof.Machine

theorem putE_moves {cc : Bool} {r0 : State} (i : Nat) (e : SEnt) (s : State) (hm : Moves cc r0 s) :
    Moves cc r0 (putE i e s) := by
  unfold putE
  with_reducible repeat' first | exact fun _ => rfl | (apply Moves.mk; assumption)

theorem updateE_moves {cc : Bool} {r0 : State} (i : Nat) (e : SEnt) (s : State) (hm : Moves cc r0 s) :
    Moves cc r0 (updateE i e s) := by
  unfold updateE
  with_reducible repeat' first | assumption | apply addF_moves | apply setF_moves | apply putE_moves

theorem unshadow_moves {cc : Bool} {r0 : State} (i : Nat) (s : State) (hm : Moves cc r0 s) :
    Moves cc r0 (unshadow i s) := by
  unfold unshadow
  with_reducible repeat' first | assumption | apply Moves.ite | apply putE_moves | intro _

theorem countSearch_moves {cc : Bool} {r0 : State} (default : Bool) (s : State) (hm : Moves cc r0 s) :
    Moves cc r0 (countSearch default s) := by
  unfold countSearch
  with_reducible repeat' first | exact fun _ => rfl | apply addF_moves | (apply Moves.mk; assumption)

theorem bindResult_moves {cc : Bool} {r0 : State} (i wall qos : Nat) (s : State) (hm : Moves cc r0 s) :
    Moves cc r0 (bindResult i wall qos s) := by
  unfold bindResult
  with_reducible repeat' first | assumption | exact fun _ => rfl | extract_lets | (apply Moves.mk; apply setCmd_moves)

theorem searchDo_moves {cc : Bool} {r0 : State} (i : Nat) (s : State) (hm : Moves cc r0 s) :
    Moves cc r0 (searchDo i s) := by
  unfold searchDo
  with_reducible repeat' first
    | assumption | exact fun _ => rfl | apply Moves.ite | apply bindResult_moves | apply countSearch_moves
    | apply happenAs_moves | (apply Moves.mk; assumption) | intro _ | extract_lets | split

theorem stageWord_moves {cc : Bool} {r0 : State} (i word : Nat) (v : W32) (s : State) (hm : Moves cc r0 s) :
    Moves cc r0 (stageWord i word v s) := by
  unfold stageWord
  with_reducible repeat' first
    | assumption | exact fun _ => rfl | apply Moves.ite | apply setF_moves | (apply Moves.mk; assumption) | intro _
    | extract_lets | split | (apply Moves.mk; apply happen_moves)

theorem clearStage_moves {cc : Bool} {r0 : State} (i : Nat) (s : State) (hm : Moves cc r0 s) :
    Moves cc r0 (clearStage i s) := by
  unfold clearStage
  with_reducible repeat' first
    | assumption | exact fun _ => rfl | apply Moves.ite | apply setF_moves | (apply Moves.mk; assumption) | intro _

theorem sortRefuse_moves {cc : Bool} {r0 : State} (r : Nat) (s : State) (hm : Moves cc r0 s) :
    Moves cc r0 (sortRefuse r s) := by
  unfold sortRefuse
  with_reducible repeat' first | assumption | apply happen_moves | apply setF_moves

theorem sortDone_moves {cc : Bool} {r0 : State} (r : Nat) (s : State) (hm : Moves cc r0 s) :
    Moves cc r0 (sortDone r s) := by
  unfold sortDone
  with_reducible repeat' first | assumption | apply happen_moves | apply setF_moves

theorem commitEntry_moves {cc : Bool} {r0 : State} (i : Nat) (v : W32) (s : State) (hm : Moves cc r0 s) :
    Moves cc r0 (commitEntry i v s) := by
  unfold commitEntry
  with_reducible repeat' first
    | assumption | apply sortRefuse_moves | apply sortDone_moves | apply updateE_moves | apply clearStage_moves
    | extract_lets | split

theorem sortStart_moves {cc : Bool} {r0 : State} (op : SortOp) (i j : Nat) (e : SEnt) (s : State) (hm : Moves cc r0 s) :
    Moves cc r0 (sortStart op i j e s) := by
  unfold sortStart
  with_reducible repeat' first | exact fun _ => rfl | apply setF_moves | (apply Moves.mk; assumption)

theorem insertDo_moves {cc : Bool} {r0 : State} (i j : Nat) (s : State) (hm : Moves cc r0 s) :
    Moves cc r0 (insertDo i j s) := by
  unfold insertDo
  with_reducible repeat' first
    | assumption | apply Moves.ite | apply sortRefuse_moves | apply sortStart_moves | intro _ | extract_lets | split

theorem deleteDo_moves {cc : Bool} {r0 : State} (i j : Nat) (s : State) (hm : Moves cc r0 s) :
    Moves cc r0 (deleteDo i j s) := by
  unfold deleteDo
  with_reducible repeat' first | assumption | apply sortRefuse_moves | apply sortStart_moves | split

theorem invalidateDo_moves {cc : Bool} {r0 : State} (i j : Nat) (s : State) (hm : Moves cc r0 s) :
    Moves cc r0 (invalidateDo i j s) := by
  unfold invalidateDo
  with_reducible repeat' first | assumption | apply sortRefuse_moves | apply sortStart_moves | split

theorem sortStep_moves {cc : Bool} {r0 : State} (op : SortOp) (i j n : Nat) (e : SEnt) (s : State) (hm : Moves cc r0 s) :
    Moves cc r0 (sortStep op i j n e s) := by
  unfold sortStep
  with_reducible repeat' first
    | assumption | apply Moves.ite | apply updateE_moves | apply unshadow_moves | apply clearStage_moves | intro _
    | extract_lets | split

theorem updateStep_moves {cc : Bool} {r0 : State} (s : State) (hm : Moves cc r0 s) :
    Moves cc r0 (updateStep s) := by
  unfold updateStep
  with_reducible repeat' first
    | assumption | exact fun _ => rfl | apply Moves.ite | apply sortDone_moves | apply setF_moves | intro _
    | extract_lets | split | (apply Moves.mk; apply sortStep_moves)

theorem invalidateAll_moves {cc : Bool} {r0 : State} (f : Nat → Bool) (s : State) (hm : Moves cc r0 s) :
    Moves cc r0 (invalidateAll f s) := by
  unfold invalidateAll
  with_reducible repeat' first | assumption | apply updateE_moves | apply Moves.foldl | intro _

theorem saveDo_moves {cc : Bool} {r0 : State} (s : State) (hm : Moves cc r0 s) :
    Moves cc r0 (saveDo s) := by
  unfold saveDo
  with_reducible repeat' first
    | assumption | exact fun _ => rfl | apply Moves.ite | apply sortRefuse_moves | apply setF_moves
    | (apply Moves.mk; assumption) | intro _

theorem saveDone_moves {cc : Bool} {r0 : State} (ok : Bool) (s : State) (hm : Moves cc r0 s) :
    Moves cc r0 (saveDone ok s) := by
  unfold saveDone
  with_reducible repeat' first
    | assumption | exact fun _ => rfl | apply Moves.ite | apply setF_moves | apply sortDone_moves
    | (apply Moves.mk; assumption) | intro _ | extract_lets | split | (apply Moves.mk; apply setF_moves)

theorem autosave_moves {cc : Bool} {r0 : State} (ok : Bool) (s : State) (hm : Moves cc r0 s) :
    Moves cc r0 (autosave ok s) := by
  unfold autosave
  with_reducible repeat' first
    | assumption | exact fun _ => rfl | apply Moves.ite | apply happen_moves | apply setF_moves
    | (apply Moves.mk; assumption) | intro _

theorem sortCfg_moves {cc : Bool} {r0 : State} (v : W32) (s : State) (hm : Moves cc r0 s) :
    Moves cc r0 (sortCfg v s) := by
  unfold sortCfg
  with_reducible repeat' first
    | exact fun _ => rfl | apply setF_moves | apply setR_moves | (apply Moves.mk; assumption)

theorem shadowUeDo_moves {cc : Bool} {r0 : State} (i : Nat) (s : State) (hm : Moves cc r0 s) :
    Moves cc r0 (shadowUeDo i s) := by
  unfold shadowUeDo
  with_reducible repeat' first
    | assumption | apply happen_moves | apply noteErr_moves | apply setF_moves | apply putE_moves

theorem shadowRewriteDo_moves {cc : Bool} {r0 : State} (i : Nat) (shadowUe : Bool) (s : State) (hm : Moves cc r0 s) :
    Moves cc r0 (shadowRewriteDo i shadowUe s) := by
  unfold shadowRewriteDo
  with_reducible repeat' first
    | assumption | exact fun _ => rfl | apply Moves.ite | apply shadowUeDo_moves | apply happen_moves
    | apply addF_moves | (apply Moves.mk; assumption) | intro _

theorem execMatcherSearch_moves {cc : Bool} {r0 : State} (cmd : Nat) (s : State) (hm : Moves cc r0 s) :
    MovesR cc r0 (execMatcherSearch cmd s) := by
  unfold execMatcherSearch
  with_reducible repeat' first | assumption | apply MovesR.next | apply searchDo_moves

theorem execSortEntryStage_moves {cc : Bool} {r0 : State} (i word : Nat) (v : W32) (s : State) (hm : Moves cc r0 s) :
    MovesR cc r0 (execSortEntryStage i word v s) := by
  unfold execSortEntryStage
  with_reducible repeat' first | assumption | apply MovesR.next | apply guarded_moves | apply stageWord_moves

theorem execSortEntryCommit_moves {cc : Bool} {r0 : State} (i : Nat) (v : W32) (s : State) (hm : Moves cc r0 s) :
    MovesR cc r0 (execSortEntryCommit i v s) := by
  unfold execSortEntryCommit
  with_reducible repeat' first | assumption | apply MovesR.next | apply guarded_moves | apply commitEntry_moves

theorem execSortInsert_moves {cc : Bool} {r0 : State} (i j : Nat) (s : State) (hm : Moves cc r0 s) :
    MovesR cc r0 (execSortInsert i j s) := by
  unfold execSortInsert
  with_reducible repeat' first | assumption | apply MovesR.next | apply guarded_moves | apply insertDo_moves

theorem execSortDelete_moves {cc : Bool} {r0 : State} (i j : Nat) (s : State) (hm : Moves cc r0 s) :
    MovesR cc r0 (execSortDelete i j s) := by
  unfold execSortDelete
  with_reducible repeat' first | assumption | apply MovesR.next | apply guarded_moves | apply deleteDo_moves

theorem execSortInvalidate_moves {cc : Bool} {r0 : State} (i j : Nat) (s : State) (hm : Moves cc r0 s) :
    MovesR cc r0 (execSortInvalidate i j s) := by
  unfold execSortInvalidate
  with_reducible repeat' first | assumption | apply MovesR.next | apply guarded_moves | apply invalidateDo_moves

theorem execSortSave_moves {cc : Bool} {r0 : State} (s : State) (hm : Moves cc r0 s) :
    MovesR cc r0 (execSortSave s) := by
  unfold execSortSave
  with_reducible repeat' first | assumption | apply MovesR.next | apply guarded_moves | apply saveDo_moves

theorem execSortSaveDone_moves {cc : Bool} {r0 : State} (ok : Bool) (s : State) (hm : Moves cc r0 s) :
    MovesR cc r0 (execSortSaveDone ok s) := by
  unfold execSortSaveDone
  with_reducible repeat' first | assumption | apply MovesR.next | apply saveDone_moves

theorem execSortUpdateStep_moves {cc : Bool} {r0 : State} (s : State) (hm : Moves cc r0 s) :
    MovesR cc r0 (execSortUpdateStep s) := by
  unfold execSortUpdateStep
  with_reducible repeat' first | assumption | apply MovesR.next | apply updateStep_moves

theorem execSortCfgWrite_moves {cc : Bool} {r0 : State} (v : W32) (s : State) (hm : Moves cc r0 s) :
    MovesR cc r0 (execSortCfgWrite v s) := by
  unfold execSortCfgWrite
  with_reducible repeat' first | assumption | apply MovesR.next | apply guarded_moves | apply sortCfg_moves

theorem execShadowRewrite_moves {cc : Bool} {r0 : State} (i : Nat) (shadowUe : Bool) (s : State) (hm : Moves cc r0 s) :
    MovesR cc r0 (execShadowRewrite i shadowUe s) := by
  unfold execShadowRewrite
  with_reducible repeat' first | assumption | apply MovesR.next | apply shadowRewriteDo_moves

theorem execSortAutosave_moves {cc : Bool} {r0 : State} (ok : Bool) (s : State) (hm : Moves cc r0 s) :
    MovesR cc r0 (execSortAutosave ok s) := by
  unfold execSortAutosave
  with_reducible repeat' first | assumption | apply MovesR.next | apply autosave_moves

end Sys2Proof.Machine
end

