-- ==== Sys2Proof/Laws/Moves/Mem.lean ====
section
/-!
SUPPORT. Laws/Moves/Mem.lean: the operations of Machine/Mem.lean keep what `Moves` says.
-/

namespace Sys2Proof.Machine

theorem setMem_moves {cc : Bool} {r0 : State} (m : Nat) (v : MemSt) (s : State) (hm : Moves cc r0 s) :
    Moves cc r0 (setMem m v s) := by
  unfold setMem
  with_reducible repeat' first | exact fun _ => rfl | (apply Moves.mk; assumption)

theorem memCause_moves {cc : Bool} {r0 : State} (m bit : Nat) (s : State) (hm : Moves cc r0 s) :
    Moves cc r0 (memCause m bit s) := by
  unfold memCause
  with_reducible repeat' first | assumption | apply Moves.ite | apply happen_moves | apply happenCause_moves | intro _

theorem memCount_moves {cc : Bool} {r0 : State} (m : Nat) (f : Fld) (n : Nat) (s : State) (hm : Moves cc r0 s) :
    Moves cc r0 (memCount m f n s) := by
  unfold memCount
  with_reducible repeat' first | assumption | apply Moves.ite | apply addF_moves | intro _

theorem memLog_moves {cc : Bool} {r0 : State} (m word syndrome kind : Nat) (src : ErrSource) (s : State) (hm : Moves cc r0 s) :
    Moves cc r0 (memLog m word syndrome kind src s) := by
  unfold memLog
  with_reducible repeat' first
    | exact fun _ => rfl | apply Moves.ite | apply setMem_moves | apply memCause_moves | apply memCount_moves
    | (apply Moves.mk; assumption) | intro _ | extract_lets | split

theorem bucketUp_moves {cc : Bool} {r0 : State} (m : Nat) (s : State) (hm : Moves cc r0 s) :
    Moves cc r0 (bucketUp m s) := by
  unfold bucketUp
  with_reducible repeat' first
    | assumption | apply Moves.ite | apply memCause_moves | apply setMem_moves | apply setF_moves | intro _

theorem bucketsLeak_moves {cc : Bool} {r0 : State} (s : State) (hm : Moves cc r0 s) :
    Moves cc r0 (bucketsLeak s) := by
  unfold bucketsLeak
  with_reducible repeat' first | assumption | apply setMem_moves | apply setF_moves | apply Moves.foldl | intro _

theorem remap_moves {cc : Bool} {r0 : State} (m word : Nat) (s : State) (hm : Moves cc r0 s) :
    Moves cc r0 (remap m word s) := by
  unfold remap
  with_reducible repeat' first
    | assumption | apply Moves.ite | apply setMem_moves | apply memCause_moves | apply addF_moves
    | apply recorderFailed_moves | intro _

theorem noteFound_moves {cc : Bool} {r0 : State} (m word syndrome : Nat) (s : State) (hm : Moves cc r0 s) :
    Moves cc r0 (noteFound m word syndrome s) := by
  unfold noteFound
  with_reducible repeat' first | assumption | apply Moves.ite | apply setMem_moves | apply remap_moves | intro _

theorem correctable_moves {cc : Bool} {r0 : State} (m word syndrome : Nat) (src : ErrSource) (s : State) (hm : Moves cc r0 s) :
    Moves cc r0 (correctable m word syndrome src s) := by
  unfold correctable
  with_reducible repeat' first
    | assumption | apply Moves.ite | apply memLog_moves | apply memCount_moves | apply bucketUp_moves
    | apply noteFound_moves | intro _

theorem loseRecord_moves {cc : Bool} {r0 : State} (k : Nat) (s : State) (hm : Moves cc r0 s) :
    Moves cc r0 (loseRecord k s) := by
  unfold loseRecord
  with_reducible repeat' first | exact fun _ => rfl | (apply Moves.mk; assumption)

theorem beginRestore_moves {cc : Bool} {r0 : State} (s : State) (hm : Moves cc r0 s) :
    Moves cc r0 (beginRestore s) := by
  unfold beginRestore
  with_reducible repeat' first | assumption | apply setF_moves

theorem mapChannelLost_moves {cc : Bool} {r0 : State} (c : Nat) (s : State) (hm : Moves cc r0 s) :
    Moves cc r0 (mapChannelLost c s) := by
  unfold mapChannelLost
  with_reducible repeat' first
    | assumption | exact fun _ => rfl | apply Moves.ite | apply setF_moves | apply happen_moves
    | apply beginRestore_moves | intro _ | extract_lets | (apply Moves.mk; apply setCause_moves)
    | (apply Moves.mk; apply fatal_moves)

theorem journalLost_moves {cc : Bool} {r0 : State} (c k : Nat) (s : State) (hm : Moves cc r0 s) :
    Moves cc r0 (journalLost c k s) := by
  unfold journalLost
  with_reducible repeat' first
    | assumption | exact fun _ => rfl | apply loseRecord_moves | extract_lets | (apply Moves.mk; apply memCause_moves)

theorem mapWordLost_moves {cc : Bool} {r0 : State} (c word : Nat) (s : State) (hm : Moves cc r0 s) :
    Moves cc r0 (mapWordLost c word s) := by
  unfold mapWordLost
  with_reducible repeat' first
    | exact fun _ => rfl | apply Moves.ite | apply mapChannelLost_moves | apply beginRestore_moves
    | apply journalLost_moves | (apply Moves.mk; assumption) | intro _ | extract_lets | split
    | (apply Moves.mk; apply Moves.mk; assumption)

theorem backToSource_moves {cc : Bool} {r0 : State} (l : Nat) (s : State) (hm : Moves cc r0 s) :
    Moves cc r0 (backToSource l s) := by
  unfold backToSource
  with_reducible repeat' first | assumption | apply Moves.ite | apply setLine_moves | apply Moves.foldl | intro _

theorem restoreDone_moves {cc : Bool} {r0 : State} (ms : Nat) (s : State) (hm : Moves cc r0 s) :
    Moves cc r0 (restoreDone ms s) := by
  unfold restoreDone
  with_reducible repeat' first
    | assumption | exact fun _ => rfl | apply Moves.ite | apply backToSource_moves | apply memCause_moves
    | apply setF_moves | apply Moves.foldl | intro _ | extract_lets | (apply Moves.mk; apply Moves.foldl)

theorem mapAlert_moves {cc : Bool} {r0 : State} (c nth : Nat) (s : State) (hm : Moves cc r0 s) :
    Moves cc r0 (mapAlert c nth s) := by
  unfold mapAlert
  with_reducible repeat' first
    | assumption | exact fun _ => rfl | apply Moves.ite | apply addF_moves | (apply Moves.mk; assumption) | intro _

theorem mapRetrain_moves {cc : Bool} {r0 : State} (c : Nat) (ok : Bool) (s : State) (hm : Moves cc r0 s) :
    Moves cc r0 (mapRetrain c ok s) := by
  unfold mapRetrain
  with_reducible repeat' first
    | assumption | exact fun _ => rfl | apply Moves.ite | apply setF_moves | apply mapChannelLost_moves
    | (apply Moves.mk; assumption) | intro _

theorem yardBlockLost_moves {cc : Bool} {r0 : State} (k t : Nat) (s : State) (hm : Moves cc r0 s) :
    Moves cc r0 (yardBlockLost k t s) := by
  unfold yardBlockLost
  with_reducible repeat' first
    | assumption | apply Moves.ite | (apply MovesP.snd; apply nextWseq_moves) | apply tagFormed_moves
    | apply setSlot_moves | apply blocksLost_moves | apply deferredError_moves | intro _

theorem yardWordLost_moves {cc : Bool} {r0 : State} (k t : Nat) (s : State) (hm : Moves cc r0 s) :
    Moves cc r0 (yardWordLost k t s) := by
  unfold yardWordLost
  with_reducible repeat' first
    | assumption | apply happen_moves | apply addF_moves | apply setSlot_moves | apply yardBlockLost_moves
    | extract_lets | split

theorem planLost_moves {cc : Bool} {r0 : State} (u : PlanUnit) (b : Nat) (s : State) (hm : Moves cc r0 s) :
    Moves cc r0 (planLost u b s) := by
  unfold planLost
  with_reducible repeat' first | assumption | apply setBuf_moves

theorem loseCmd_moves {cc : Bool} {r0 : State} (i : Nat) (s : State) (hm : Moves cc r0 s) :
    Moves cc r0 (loseCmd i s) := by
  unfold loseCmd
  with_reducible repeat' first
    | assumption | apply Moves.ite | apply cutWrite_moves | apply dropReads_moves | apply unhold_moves
    | apply failCmd_moves | intro _

theorem ownerActs_moves {cc : Bool} {r0 : State} (m word : Nat) (s : State) (hm : Moves cc r0 s) :
    Moves cc r0 (ownerActs m word s) := by
  unfold ownerActs
  with_reducible repeat' first
    | assumption | apply Moves.ite | apply yardWordLost_moves | apply climb_moves | apply planLost_moves
    | apply shadowUeDo_moves | apply recorderFailed_moves | apply loseCmd_moves | apply yardBlockLost_moves
    | apply mapWordLost_moves | apply Moves.foldl | intro _ | split

theorem newUe_moves {cc : Bool} {r0 : State} (m word syndrome : Nat) (src : ErrSource) (s : State) (hm : Moves cc r0 s) :
    Moves cc r0 (newUe m word syndrome src s) := by
  unfold newUe
  with_reducible repeat' first
    | assumption | apply memLog_moves | apply memCount_moves | apply setMem_moves | apply ownerActs_moves
    | apply memCause_moves

theorem uncorrectable_moves {cc : Bool} {r0 : State} (m word syndrome : Nat) (src : ErrSource) (write posted poisoned : Bool) (s : State) (hm : Moves cc r0 s) :
    Moves cc r0 (uncorrectable m word syndrome src write posted poisoned s) := by
  unfold uncorrectable
  with_reducible repeat' first
    | assumption | apply Moves.ite | apply newUe_moves | apply memCause_moves | apply memLog_moves
    | apply memCount_moves | apply emit_moves | apply addF_moves | intro _

theorem scrubDo_moves {cc : Bool} {r0 : State} (m granted : Nat) (s : State) (hm : Moves cc r0 s) :
    Moves cc r0 (scrubDo m granted s) := by
  unfold scrubDo
  with_reducible repeat' first
    | assumption | apply Moves.ite | apply setMem_moves | apply addF_moves | apply setF_moves | intro _

theorem fabError_moves {cc : Bool} {r0 : State} (sender receiver : Nat) (response posted : Bool) (failure a : Nat) (s : State) (hm : Moves cc r0 s) :
    Moves cc r0 (fabError sender receiver response posted failure a s) := by
  unfold fabError
  with_reducible repeat' first
    | assumption | apply Moves.ite | apply happen_moves | apply addF_moves | apply setF_moves | apply noteErr_moves
    | apply emit_moves | intro _

theorem execMemoryUncorrectable_moves {cc : Bool} {r0 : State} (m word syndrome : Nat) (src : ErrSource) (write posted poisoned : Bool) (s : State) (hm : Moves cc r0 s) :
    MovesR cc r0 (execMemoryUncorrectable m word syndrome src write posted poisoned s) := by
  unfold execMemoryUncorrectable
  with_reducible repeat' first | assumption | apply MovesR.next | apply uncorrectable_moves

theorem execMemoryCorrectable_moves {cc : Bool} {r0 : State} (m word syndrome : Nat) (src : ErrSource) (s : State) (hm : Moves cc r0 s) :
    MovesR cc r0 (execMemoryCorrectable m word syndrome src s) := by
  unfold execMemoryCorrectable
  with_reducible repeat' first | assumption | apply MovesR.next | apply correctable_moves

theorem execScrubPeriod_moves {cc : Bool} {r0 : State} (m granted : Nat) (s : State) (hm : Moves cc r0 s) :
    MovesR cc r0 (execScrubPeriod m granted s) := by
  unfold execScrubPeriod
  with_reducible repeat' first | assumption | apply MovesR.next | apply scrubDo_moves

theorem execMapmemAlert_moves {cc : Bool} {r0 : State} (c nth : Nat) (s : State) (hm : Moves cc r0 s) :
    MovesR cc r0 (execMapmemAlert c nth s) := by
  unfold execMapmemAlert
  with_reducible repeat' first | assumption | apply MovesR.next | apply mapAlert_moves

theorem execMapRestoreDone_moves {cc : Bool} {r0 : State} (ms : Nat) (s : State) (hm : Moves cc r0 s) :
    MovesR cc r0 (execMapRestoreDone ms s) := by
  unfold execMapRestoreDone
  with_reducible repeat' first | assumption | apply MovesR.next | apply restoreDone_moves

theorem execMapmemRetrain_moves {cc : Bool} {r0 : State} (c : Nat) (ok : Bool) (s : State) (hm : Moves cc r0 s) :
    MovesR cc r0 (execMapmemRetrain c ok s) := by
  unfold execMapmemRetrain
  with_reducible repeat' first | assumption | apply MovesR.next | apply guarded_moves | apply mapRetrain_moves

theorem execFabParityError_moves {cc : Bool} {r0 : State} (sender receiver : Nat) (response posted : Bool) (failure addr : Nat) (s : State) (hm : Moves cc r0 s) :
    MovesR cc r0 (execFabParityError sender receiver response posted failure addr s) := by
  unfold execFabParityError
  with_reducible repeat' first | assumption | apply MovesR.next | apply fabError_moves

end Sys2Proof.Machine
end

