-- ==== Sys2Proof/Laws/Moves/Hod.lean ====
section
/-!
SUPPORT. Laws/Moves/Hod.lean: the operations of Machine/Hod.lean keep what `Moves` says.
-/

namespace Sys2Proof.Machine

theorem setCh_moves {cc : Bool} {r0 : State} (k : Nat) (v : HodCh) (s : State) (hm : Moves cc r0 s) :
    Moves cc r0 (setCh k v s) := by
  unfold setCh
  with_reducible repeat' first | exact fun _ => rfl | apply setF_moves | (apply Moves.mk; assumption)

theorem setHod_moves {cc : Bool} {r0 : State} (k st : Nat) (s : State) (hm : Moves cc r0 s) :
    Moves cc r0 (setHod k st s) := by
  unfold setHod
  with_reducible repeat' first | assumption | apply setF_moves

theorem hodCause_moves {cc : Bool} {r0 : State} (k bit : Nat) (s : State) (hm : Moves cc r0 s) :
    Moves cc r0 (hodCause k bit s) := by
  unfold hodCause
  with_reducible repeat' first | assumption | apply happenCause_moves

theorem hodIgnored_moves {cc : Bool} {r0 : State} (k : Nat) (s : State) (hm : Moves cc r0 s) :
    Moves cc r0 (hodIgnored k s) := by
  unfold hodIgnored
  with_reducible repeat' first | assumption | apply setF_moves

theorem hodHalt_moves {cc : Bool} {r0 : State} (k cause : Nat) (s : State) (hm : Moves cc r0 s) :
    Moves cc r0 (hodHalt k cause s) := by
  unfold hodHalt
  with_reducible repeat' first | assumption | apply hodCause_moves | apply setF_moves | apply setHod_moves

theorem setNext_moves {cc : Bool} {r0 : State} (k v : Nat) (s : State) (hm : Moves cc r0 s) :
    Moves cc r0 (setNext k v s) := by
  unfold setNext
  with_reducible repeat' first | assumption | apply setR_moves

theorem setCur_moves {cc : Bool} {r0 : State} (k v : Nat) (s : State) (hm : Moves cc r0 s) :
    Moves cc r0 (setCur k v s) := by
  unfold setCur
  with_reducible repeat' first | assumption | apply setCh_moves

theorem startCh_moves {cc : Bool} {r0 : State} (k : Nat) (s : State) (hm : Moves cc r0 s) :
    Moves cc r0 (startCh k s) := by
  unfold startCh
  with_reducible repeat' first
    | assumption | apply Moves.ite | apply setHod_moves | apply setF_moves | apply hodIgnored_moves | intro _

theorem kickCh_moves {cc : Bool} {r0 : State} (k : Nat) (s : State) (hm : Moves cc r0 s) :
    Moves cc r0 (kickCh k s) := by
  unfold kickCh
  with_reducible repeat' first | assumption | apply Moves.ite | apply setHod_moves | apply hodIgnored_moves | intro _

theorem descFetched_moves {cc : Bool} {r0 : State} (k : Nat) (d : HodDesc) (s : State) (hm : Moves cc r0 s) :
    Moves cc r0 (descFetched k d s) := by
  unfold descFetched
  with_reducible repeat' first
    | assumption | apply Moves.ite | apply hodCause_moves | apply setHod_moves | apply setCh_moves | apply setF_moves
    | intro _

theorem endWith_moves {cc : Bool} {r0 : State} (k code : Nat) (s : State) (hm : Moves cc r0 s) :
    Moves cc r0 (endWith k code s) := by
  unfold endWith
  with_reducible repeat' first | assumption | apply setCh_moves

theorem settleFinish_moves {cc : Bool} {r0 : State} (k : Nat) (s : State) (hm : Moves cc r0 s) :
    Moves cc r0 (settleFinish k s) := by
  unfold settleFinish
  with_reducible repeat' first | assumption | apply Moves.ite | apply setCh_moves | intro _

theorem withdraw_moves {cc : Bool} {r0 : State} (k : Nat) (s : State) (hm : Moves cc r0 s) :
    Moves cc r0 (withdraw k s) := by
  unfold withdraw
  with_reducible repeat' first | assumption | apply Moves.ite | apply setHod_moves | apply endWith_moves | intro _

theorem lineRises_moves {cc : Bool} {r0 : State} (l : Nat) (s : State) (hm : Moves cc r0 s) :
    Moves cc r0 (lineRises l s) := by
  unfold lineRises
  with_reducible repeat' first | assumption | apply Moves.ite | apply setHod_moves | apply Moves.foldl | intro _

theorem lineFalls_moves {cc : Bool} {r0 : State} (l : Nat) (s : State) (hm : Moves cc r0 s) :
    Moves cc r0 (lineFalls l s) := by
  unfold lineFalls
  with_reducible repeat' first | assumption | apply Moves.ite | apply withdraw_moves | apply Moves.foldl | intro _

theorem swreqWrite_moves {cc : Bool} {r0 : State} (v : W32) (s : State) (hm : Moves cc r0 s) :
    Moves cc r0 (swreqWrite v s) := by
  unfold swreqWrite
  with_reducible repeat' first
    | assumption | apply setR_moves | apply lineFalls_moves | apply lineRises_moves | apply Moves.foldl | intro _

theorem withdrawal_moves {cc : Bool} {r0 : State} (k : Nat) (s : State) (hm : Moves cc r0 s) :
    Moves cc r0 (withdrawal k s) := by
  unfold withdrawal
  with_reducible repeat' first | assumption | apply Moves.ite | apply withdraw_moves | intro _

theorem abortCh_moves {cc : Bool} {r0 : State} (k : Nat) (s : State) (hm : Moves cc r0 s) :
    Moves cc r0 (abortCh k s) := by
  unfold abortCh
  with_reducible repeat' first
    | assumption | apply Moves.ite | apply setHod_moves | apply settleFinish_moves | apply endWith_moves
    | apply setF_moves | apply setCur_moves | intro _

theorem issueBurst_moves {cc : Bool} {r0 : State} (slot : Nat) (s : State) (hm : Moves cc r0 s) :
    Moves cc r0 (issueBurst slot s) := by
  unfold issueBurst
  with_reducible repeat' first
    | assumption | exact fun _ => rfl | extract_lets | split | (apply Moves.mk; apply setCh_moves)

theorem windowDo_moves {cc : Bool} {r0 : State} (idx : Nat) (s : State) (hm : Moves cc r0 s) :
    Moves cc r0 (windowDo idx s) := by
  unfold windowDo
  with_reducible repeat' first | assumption | apply onEntry_moves | apply retire_moves | intro _

theorem lastFailure_moves {cc : Bool} {r0 : State} (k : Nat) (acc : HodAccess) (s : State) (hm : Moves cc r0 s) :
    Moves cc r0 (lastFailure k acc s) := by
  unfold lastFailure
  with_reducible repeat' first
    | assumption | apply hodHalt_moves | apply setCh_moves | apply endWith_moves | apply settleFinish_moves
    | apply setHod_moves | extract_lets | split

theorem hodError_moves {cc : Bool} {r0 : State} (k : Nat) (acc : HodAccess) (s : State) (hm : Moves cc r0 s) :
    Moves cc r0 (hodError k acc s) := by
  unfold hodError
  with_reducible repeat' first
    | assumption | apply Moves.ite | apply addF_moves | apply setCh_moves | apply lastFailure_moves | intro _

theorem readbackDone_moves {cc : Bool} {r0 : State} (k : Nat) (s : State) (hm : Moves cc r0 s) :
    Moves cc r0 (readbackDone k s) := by
  unfold readbackDone
  with_reducible repeat' first | assumption | apply Moves.ite | apply setCh_moves | intro _

theorem nextWrite_moves {cc : Bool} {r0 : State} (k : Nat) (hi : Bool) (v : W32) (s : State) (hm : Moves cc r0 s) :
    Moves cc r0 (nextWrite k hi v s) := by
  unfold nextWrite
  with_reducible repeat' first | assumption | apply Moves.ite | apply hodIgnored_moves | apply setR_moves | intro _

theorem hodPoll_moves {cc : Bool} {r0 : State} (s : State) (hm : Moves cc r0 s) :
    Moves cc r0 (hodPoll s) := by
  unfold hodPoll
  with_reducible repeat' first | assumption | apply Moves.ite | apply setHod_moves | apply Moves.foldl | intro _

theorem ctrlCh_moves {cc : Bool} {r0 : State} (k : Nat) (v : W32) (s : State) (hm : Moves cc r0 s) :
    Moves cc r0 (ctrlCh k v s) := by
  unfold ctrlCh
  with_reducible repeat' first
    | assumption | apply Moves.ite | apply abortCh_moves | apply hodIgnored_moves | apply startCh_moves
    | apply kickCh_moves | intro _

theorem onCh_moves {cc : Bool} {r0 : State} (k : Nat) (f : State → State) (s : State) (hf : ∀ u, Moves cc r0 u → Moves cc r0 (f u)) (hm : Moves cc r0 s) :
    Moves cc r0 (onCh k f s) := by
  unfold onCh
  with_reducible repeat' first | assumption | apply Moves.ite | apply hf | intro _

theorem execHodStart_moves {cc : Bool} {r0 : State} (k : Nat) (s : State) (hm : Moves cc r0 s) :
    MovesR cc r0 (execHodStart k s) := by
  unfold execHodStart
  with_reducible repeat' first
    | assumption | apply MovesR.next | apply onCh_moves | apply guarded_moves | apply startCh_moves | intro _

theorem execHodKick_moves {cc : Bool} {r0 : State} (k : Nat) (s : State) (hm : Moves cc r0 s) :
    MovesR cc r0 (execHodKick k s) := by
  unfold execHodKick
  with_reducible repeat' first
    | assumption | apply MovesR.next | apply onCh_moves | apply guarded_moves | apply kickCh_moves | intro _

theorem execHodAbort_moves {cc : Bool} {r0 : State} (k : Nat) (s : State) (hm : Moves cc r0 s) :
    MovesR cc r0 (execHodAbort k s) := by
  unfold execHodAbort
  with_reducible repeat' first
    | assumption | apply MovesR.next | apply onCh_moves | apply guarded_moves | apply abortCh_moves | intro _

theorem execHodDescFetched_moves {cc : Bool} {r0 : State} (k : Nat) (d : HodDesc) (s : State) (hm : Moves cc r0 s) :
    MovesR cc r0 (execHodDescFetched k d s) := by
  unfold execHodDescFetched
  with_reducible repeat' first | assumption | apply MovesR.next | apply onCh_moves | apply descFetched_moves

theorem execHodReqLineAssert_moves {cc : Bool} {r0 : State} (line : Nat) (s : State) (hm : Moves cc r0 s) :
    MovesR cc r0 (execHodReqLineAssert line s) := by
  unfold execHodReqLineAssert
  with_reducible repeat' first | assumption | apply MovesR.next | apply lineRises_moves

theorem execHodWithdrawal_moves {cc : Bool} {r0 : State} (k : Nat) (s : State) (hm : Moves cc r0 s) :
    MovesR cc r0 (execHodWithdrawal k s) := by
  unfold execHodWithdrawal
  with_reducible repeat' first | assumption | apply MovesR.next | apply onCh_moves | apply withdrawal_moves

theorem execHodBusError_moves {cc : Bool} {r0 : State} (k : Nat) (acc : HodAccess) (s : State) (hm : Moves cc r0 s) :
    MovesR cc r0 (execHodBusError k acc s) := by
  unfold execHodBusError
  with_reducible repeat' first | assumption | apply MovesR.next | apply onCh_moves | apply hodError_moves

theorem execHodSwreqWrite_moves {cc : Bool} {r0 : State} (v : W32) (s : State) (hm : Moves cc r0 s) :
    MovesR cc r0 (execHodSwreqWrite v s) := by
  unfold execHodSwreqWrite
  with_reducible repeat' first | assumption | apply MovesR.next | apply guarded_moves | apply swreqWrite_moves

theorem execHodChNextWrite_moves {cc : Bool} {r0 : State} (k : Nat) (hi : Bool) (v : W32) (s : State) (hm : Moves cc r0 s) :
    MovesR cc r0 (execHodChNextWrite k hi v s) := by
  unfold execHodChNextWrite
  with_reducible repeat' first
    | assumption | apply MovesR.next | apply onCh_moves | apply guarded_moves | apply nextWrite_moves | split
    | intro _

theorem execWindow_moves {cc : Bool} {r0 : State} (idx : Nat) (s : State) (hm : Moves cc r0 s) :
    MovesR cc r0 (execWindow idx s) := by
  unfold execWindow
  with_reducible repeat' first | assumption | apply MovesR.next | apply windowDo_moves

end Sys2Proof.Machine
end

