-- ==== Sys2Proof/Laws/Moves/Keys.lean ====
section
/-!
SUPPORT. Laws/Moves/Keys.lean: the operations of Machine/Keys.lean keep what `Moves` says.
-/

namespace Sys2Proof.Machine

theorem keyResult_moves {cc : Bool} {r0 : State} (t r : Nat) (s : State) (hm : Moves cc r0 s) :
    Moves cc r0 (keyResult t r s) := by
  unfold keyResult
  with_reducible repeat' first | assumption | apply setF_moves

theorem setGen_moves {cc : Bool} {r0 : State} (k g : Nat) (s : State) (hm : Moves cc r0 s) :
    Moves cc r0 (setGen k g s) := by
  unfold setGen
  with_reducible repeat' first | exact fun _ => rfl | apply setF_moves | (apply Moves.mk; assumption)

theorem putKey_moves {cc : Bool} {r0 : State} (t v : Nat) (key : BitVec 256) (hostLoaded : Bool) (s : State) (hm : Moves cc r0 s) :
    Moves cc r0 (putKey t v key hostLoaded s) := by
  unfold putKey
  with_reducible repeat' first
    | exact fun _ => rfl | apply setF_moves | apply setGen_moves | (apply Moves.mk; assumption)

theorem inSession_moves {cc : Bool} {r0 : State} (t v : Nat) (f : Conn → State → State) (s : State) (hf : ∀ a0 u, Moves cc r0 u → Moves cc r0 (f a0 u)) (hm : Moves cc r0 s) :
    Moves cc r0 (inSession t v f s) := by
  unfold inSession
  with_reducible repeat' first
    | assumption | apply Moves.ite | apply hf | apply spdmErr_moves | apply dropSig_moves | intro _ | extract_lets
    | split

theorem keyAnswer_moves {cc : Bool} {r0 : State} (c : Conn) (t r : Nat) (kcv : Option W64) (s : State) (hm : Moves cc r0 s) :
    Moves cc r0 (keyAnswer c t r kcv s) := by
  unfold keyAnswer
  with_reducible repeat' first | assumption | apply spdmSay_moves | apply keyResult_moves

theorem newKey_moves {cc : Bool} {r0 : State} (t v : Nat) (restore hostLoaded : Bool) (key : BitVec 256) (s : State) (hm : Moves cc r0 s) :
    Moves cc r0 (newKey t v restore hostLoaded key s) := by
  unfold newKey
  with_reducible repeat' first
    | assumption | apply inSession_moves | apply keyAnswer_moves | apply putKey_moves | intro _ | extract_lets | split

theorem setCurrent_moves {cc : Bool} {r0 : State} (t v : Nat) (s : State) (hm : Moves cc r0 s) :
    Moves cc r0 (setCurrent t v s) := by
  unfold setCurrent
  with_reducible repeat' first
    | assumption | exact fun _ => rfl | apply Moves.ite | apply inSession_moves | apply keyAnswer_moves
    | (apply Moves.mk; assumption) | intro _

theorem currentSwitch_moves {cc : Bool} {r0 : State} (t : Nat) (s : State) (hm : Moves cc r0 s) :
    Moves cc r0 (currentSwitch t s) := by
  unfold currentSwitch
  with_reducible repeat' first
    | assumption | exact fun _ => rfl | apply keysSettle_moves | apply setF_moves | (apply Moves.mk; assumption)
    | extract_lets | split

theorem eraseSlot_moves {cc : Bool} {r0 : State} (k : Nat) (s : State) (hm : Moves cc r0 s) :
    Moves cc r0 (eraseSlot k s) := by
  unfold eraseSlot
  with_reducible repeat' first
    | assumption | exact fun _ => rfl | apply Moves.ite | apply setF_moves | intro _ | extract_lets
    | (apply Moves.mk; apply setGen_moves)

theorem keyEraseDo_moves {cc : Bool} {r0 : State} (t v : Nat) (s : State) (hm : Moves cc r0 s) :
    Moves cc r0 (keyEraseDo t v s) := by
  unfold keyEraseDo
  with_reducible repeat' first
    | assumption | apply Moves.ite | apply inSession_moves | apply keyAnswer_moves | apply eraseSlot_moves | intro _

theorem markErased_moves {cc : Bool} {r0 : State} (r : Rd) (s : State) (hm : Moves cc r0 s) :
    Moves cc r0 (markErased r s) := by
  unfold markErased
  with_reducible repeat' first | assumption | apply setBuf_moves

theorem readErased_moves {cc : Bool} {r0 : State} (i : Nat) (s : State) (hm : Moves cc r0 s) :
    Moves cc r0 (readErased i s) := by
  unfold readErased
  with_reducible repeat' first
    | assumption | apply addF_moves | apply markErased_moves | apply dropRd_moves | apply blockDone_moves
    | apply endIfDone_moves | apply failCmd_moves | apply dropReads_moves | apply fillLost_moves
    | apply blocksLost_moves | extract_lets | split

theorem writeErased_moves {cc : Bool} {r0 : State} (k i : Nat) (s : State) (hm : Moves cc r0 s) :
    Moves cc r0 (writeErased k i s) := by
  unfold writeErased
  with_reducible repeat' first
    | assumption | apply Moves.ite | apply failCmd_moves | apply addF_moves | apply cutWrite_moves | intro _

theorem slotErased_moves {cc : Bool} {r0 : State} (k : Nat) (s : State) (hm : Moves cc r0 s) :
    Moves cc r0 (slotErased k s) := by
  unfold slotErased
  with_reducible repeat' first
    | assumption | apply Moves.ite | apply freeSlot_moves | apply mapSet_moves | apply putEnt_moves
    | apply blocksLost_moves | apply deferredError_moves | apply Moves.foldl | intro _

theorem waitersErased_moves {cc : Bool} {r0 : State} (lost : List Nat) (s : State) (hm : Moves cc r0 s) :
    Moves cc r0 (waitersErased lost s) := by
  unfold waitersErased
  with_reducible repeat' first | assumption | apply failCmd_moves | apply Moves.foldl | intro _

theorem mbxEnd_moves {cc : Bool} {r0 : State} (r : Nat) (s : State) (hm : Moves cc r0 s) :
    Moves cc r0 (mbxEnd r s) := by
  unfold mbxEnd
  with_reducible repeat' first
    | exact fun _ => rfl | apply happen_moves | apply setF_moves | (apply Moves.mk; assumption)

theorem openScopes_moves {cc : Bool} {r0 : State} (n : Nat) (s : State) (hm : Moves cc r0 s) :
    Moves cc r0 (openScopes n s) := by
  unfold openScopes
  with_reducible repeat' first
    | exact fun _ => rfl | apply happen_moves | apply setF_moves | (apply Moves.mk; assumption)

theorem mbxSettle_moves {cc : Bool} {r0 : State} (s : State) (hm : Moves cc r0 s) :
    Moves cc r0 (mbxSettle s) := by
  unfold mbxSettle
  with_reducible repeat' first
    | assumption | apply Moves.ite | apply mbxEnd_moves | apply openScopes_moves | intro _ | split

theorem eraseEffect_moves {cc : Bool} {r0 : State} (k : Nat) (s : State) (hm : Moves cc r0 s) :
    Moves cc r0 (eraseEffect k s) := by
  unfold eraseEffect
  with_reducible repeat' first
    | assumption | exact fun _ => rfl | apply Moves.ite | apply writeErased_moves | apply readErased_moves
    | apply waitersErased_moves | apply slotErased_moves | apply mbxSettle_moves | apply happen_moves
    | apply keysSettle_moves | apply Moves.foldl | intro _ | extract_lets | (apply Moves.mk; apply settleWaits_moves)

theorem oldRetired_moves {cc : Bool} {r0 : State} (k : Nat) (s : State) (hm : Moves cc r0 s) :
    Moves cc r0 (oldRetired k s) := by
  unfold oldRetired
  with_reducible repeat' first
    | assumption | exact fun _ => rfl | apply Moves.ite | apply keysSettle_moves | apply setF_moves
    | (apply Moves.mk; assumption) | intro _

theorem keyStatusDo_moves {cc : Bool} {r0 : State} (t : Nat) (s : State) (hm : Moves cc r0 s) :
    Moves cc r0 (keyStatusDo t s) := by
  unfold keyStatusDo
  with_reducible repeat' first | assumption | apply inSession_moves | apply spdmSay_moves | intro _

theorem macKat_moves {cc : Bool} {r0 : State} (e : Nat) (ok : Bool) (s : State) (hm : Moves cc r0 s) :
    Moves cc r0 (macKat e ok s) := by
  unfold macKat
  with_reducible repeat' first
    | assumption | apply Moves.ite | apply happen_moves | apply showEngines_moves | apply setF_moves | intro _

theorem maskReseed_moves {cc : Bool} {r0 : State} (e : Nat) (s : State) (hm : Moves cc r0 s) :
    Moves cc r0 (maskReseed e s) := by
  unfold maskReseed
  with_reducible repeat' first
    | assumption | exact fun _ => rfl | apply Moves.ite | apply setF_moves | (apply Moves.mk; assumption) | intro _

theorem drbgReseedDo_moves {cc : Bool} {r0 : State} (s : State) (hm : Moves cc r0 s) :
    Moves cc r0 (drbgReseedDo s) := by
  unfold drbgReseedDo
  with_reducible repeat' first
    | assumption | exact fun _ => rfl | apply Moves.ite | (apply Moves.mk; assumption) | intro _

theorem drbgExhaustedDo_moves {cc : Bool} {r0 : State} (s : State) (hm : Moves cc r0 s) :
    Moves cc r0 (drbgExhaustedDo s) := by
  unfold drbgExhaustedDo
  with_reducible repeat' first | assumption | apply Moves.ite | apply happen_moves | apply setF_moves | intro _

theorem entropyTest_moves {cc : Bool} {r0 : State} (ok : Bool) (s : State) (hm : Moves cc r0 s) :
    Moves cc r0 (entropyTest ok s) := by
  unfold entropyTest
  with_reducible repeat' first
    | assumption | exact fun _ => rfl | apply Moves.ite | apply setF_moves | apply happen_moves
    | (apply Moves.mk; assumption) | intro _

theorem macResume_moves {cc : Bool} {r0 : State} (s : State) (hm : Moves cc r0 s) :
    Moves cc r0 (macResume s) := by
  unfold macResume
  with_reducible repeat' first
    | assumption | exact fun _ => rfl | apply Moves.ite | apply setF_moves | (apply Moves.mk; assumption) | intro _

theorem wseqLimit_moves {cc : Bool} {r0 : State} (s : State) (hm : Moves cc r0 s) :
    Moves cc r0 (wseqLimit s) := by
  unfold wseqLimit
  with_reducible repeat' first
    | assumption | apply Moves.ite | apply setCause_moves | apply happen_moves | apply setF_moves | intro _

theorem execMacKat_moves {cc : Bool} {r0 : State} (engine : Nat) (ok : Bool) (s : State) (hm : Moves cc r0 s) :
    MovesR cc r0 (execMacKat engine ok s) := by
  unfold execMacKat
  with_reducible repeat' first | assumption | apply MovesR.next | apply macKat_moves

theorem execMaskReseed_moves {cc : Bool} {r0 : State} (engine : Nat) (s : State) (hm : Moves cc r0 s) :
    MovesR cc r0 (execMaskReseed engine s) := by
  unfold execMaskReseed
  with_reducible repeat' first | assumption | apply MovesR.next | apply maskReseed_moves

theorem execDrbgReseed_moves {cc : Bool} {r0 : State} (s : State) (hm : Moves cc r0 s) :
    MovesR cc r0 (execDrbgReseed s) := by
  unfold execDrbgReseed
  with_reducible repeat' first | assumption | apply MovesR.next | apply drbgReseedDo_moves

theorem execEntropyHealthTest_moves {cc : Bool} {r0 : State} (ok : Bool) (s : State) (hm : Moves cc r0 s) :
    MovesR cc r0 (execEntropyHealthTest ok s) := by
  unfold execEntropyHealthTest
  with_reducible repeat' first | assumption | apply MovesR.next | apply entropyTest_moves

theorem execDrbgExhausted_moves {cc : Bool} {r0 : State} (s : State) (hm : Moves cc r0 s) :
    MovesR cc r0 (execDrbgExhausted s) := by
  unfold execDrbgExhausted
  with_reducible repeat' first | assumption | apply MovesR.next | apply drbgExhaustedDo_moves

theorem execWseqLimitReached_moves {cc : Bool} {r0 : State} (s : State) (hm : Moves cc r0 s) :
    MovesR cc r0 (execWseqLimitReached s) := by
  unfold execWseqLimitReached
  with_reducible repeat' first | assumption | apply MovesR.next | apply wseqLimit_moves

theorem execKeyGenerate_moves {cc : Bool} {r0 : State} (t v : Nat) (s : State) (hm : Moves cc r0 s) :
    MovesR cc r0 (execKeyGenerate t v s) := by
  unfold execKeyGenerate
  with_reducible repeat' first | assumption | apply MovesR.next | apply newKey_moves | apply tick_moves

theorem execKeyLoad_moves {cc : Bool} {r0 : State} (t v : Nat) (restore : Bool) (key : BitVec 256) (s : State) (hm : Moves cc r0 s) :
    MovesR cc r0 (execKeyLoad t v restore key s) := by
  unfold execKeyLoad
  with_reducible repeat' first | assumption | apply MovesR.next | apply newKey_moves

theorem execKeySetCurrent_moves {cc : Bool} {r0 : State} (t v : Nat) (s : State) (hm : Moves cc r0 s) :
    MovesR cc r0 (execKeySetCurrent t v s) := by
  unfold execKeySetCurrent
  with_reducible repeat' first | assumption | apply MovesR.next | apply setCurrent_moves

theorem execKeyCurrentSwitch_moves {cc : Bool} {r0 : State} (t : Nat) (s : State) (hm : Moves cc r0 s) :
    MovesR cc r0 (execKeyCurrentSwitch t s) := by
  unfold execKeyCurrentSwitch
  with_reducible repeat' first | assumption | apply MovesR.next | apply currentSwitch_moves

theorem execKeyErase_moves {cc : Bool} {r0 : State} (t v : Nat) (s : State) (hm : Moves cc r0 s) :
    MovesR cc r0 (execKeyErase t v s) := by
  unfold execKeyErase
  with_reducible repeat' first | assumption | apply MovesR.next | apply keyEraseDo_moves

theorem execKeyEraseEffect_moves {cc : Bool} {r0 : State} (slot : Nat) (s : State) (hm : Moves cc r0 s) :
    MovesR cc r0 (execKeyEraseEffect slot s) := by
  unfold execKeyEraseEffect
  with_reducible repeat' first | assumption | apply MovesR.next | apply eraseEffect_moves

theorem execKeyOldCopyRetired_moves {cc : Bool} {r0 : State} (slot : Nat) (s : State) (hm : Moves cc r0 s) :
    MovesR cc r0 (execKeyOldCopyRetired slot s) := by
  unfold execKeyOldCopyRetired
  with_reducible repeat' first | assumption | apply MovesR.next | apply oldRetired_moves

theorem execKeyStatus_moves {cc : Bool} {r0 : State} (t : Nat) (s : State) (hm : Moves cc r0 s) :
    MovesR cc r0 (execKeyStatus t s) := by
  unfold execKeyStatus
  with_reducible repeat' first | assumption | apply MovesR.next | apply keyStatusDo_moves

end Sys2Proof.Machine
end

