-- ==== Sys2Proof/Laws/Moves/Tiles.lean ====
section
/-!
SUPPORT. Laws/Moves/Tiles.lean: the operations of Machine/Tiles.lean keep what `Moves` says.
-/

namespace Sys2Proof.Machine

theorem dropNsCmds_moves {cc : Bool} {r0 : State} (n : Nat) (s : State) (hm : Moves cc r0 s) :
    Moves cc r0 (dropNsCmds n s) := by
  unfold dropNsCmds
  with_reducible repeat' first
    | assumption | apply failCmd_moves | apply dropReads_moves | apply unhold_moves | apply setCmd_moves
    | apply Moves.foldl | intro _

theorem wipeNs_moves {cc : Bool} {r0 : State} (n : Nat) (s : State) (hm : Moves cc r0 s) :
    Moves cc r0 (wipeNs n s) := by
  unfold wipeNs
  with_reducible repeat' first
    | assumption | exact fun _ => rfl | apply dropNsCmds_moves | apply unmapLines_moves | apply freeSlot_moves
    | apply releaseCourse_moves | apply Moves.foldl | intro _ | extract_lets | split
    | (apply Moves.mk; apply Moves.foldl)

theorem dropWalls_moves {cc : Bool} {r0 : State} (t : Nat) (s : State) (hm : Moves cc r0 s) :
    Moves cc r0 (dropWalls t s) := by
  unfold dropWalls
  with_reducible repeat' first
    | assumption | apply Moves.ite | apply releaseCourse_moves | apply handEmptied_moves | apply keysSettle_moves
    | apply gcTrigger_moves | apply settleWaits_moves | apply Moves.foldl | intro _

theorem deleteNs_moves {cc : Bool} {r0 : State} (n : Nat) (s : State) (hm : Moves cc r0 s) :
    Moves cc r0 (deleteNs n s) := by
  unfold deleteNs
  with_reducible repeat' first | assumption | apply dropWalls_moves | apply setNs_moves | apply wipeNs_moves

theorem stageWrite_moves {cc : Bool} {r0 : State} (t a v : Nat) (s : State) (hm : Moves cc r0 s) :
    Moves cc r0 (stageWrite t a v s) := by
  unfold stageWrite
  with_reducible repeat' first
    | assumption | exact fun _ => rfl | apply Moves.ite | (apply Moves.mk; assumption) | intro _

theorem stageAll_moves {cc : Bool} {r0 : State} (t : Nat) (l : List W32) (s : State) (hm : Moves cc r0 s) :
    Moves cc r0 (stageAll t l s) := by
  unfold stageAll
  with_reducible repeat' first
    | assumption | apply stageWrite_moves | apply setR_moves | apply Moves.foldl | intro _ | extract_lets | split

theorem saveTile_moves {cc : Bool} {r0 : State} (t : Nat) (s : State) (hm : Moves cc r0 s) :
    Moves cc r0 (saveTile t s) := by
  unfold saveTile
  with_reducible repeat' first | exact fun _ => rfl | (apply Moves.mk; assumption)

theorem clearTileStage_moves {cc : Bool} {r0 : State} (t : Nat) (s : State) (hm : Moves cc r0 s) :
    Moves cc r0 (clearTileStage t s) := by
  unfold clearTileStage
  with_reducible repeat' first | exact fun _ => rfl | (apply Moves.mk; assumption)

theorem tileTo_moves {cc : Bool} {r0 : State} (t st : Nat) (s : State) (hm : Moves cc r0 s) :
    Moves cc r0 (tileTo t st s) := by
  unfold tileTo
  with_reducible repeat' first | assumption | apply setF_moves

theorem takeStage_moves {cc : Bool} {r0 : State} (s0 : State) (a : Nat) (s : State) (hm : Moves cc r0 s) :
    Moves cc r0 (takeStage s0 a s) := by
  unfold takeStage
  with_reducible repeat' first | assumption | apply setR_moves

theorem showPort_moves {cc : Bool} {r0 : State} (t : Nat) (s : State) (hm : Moves cc r0 s) :
    Moves cc r0 (showPort t s) := by
  unfold showPort
  with_reducible repeat' first | assumption | apply setF_moves

theorem provision_moves {cc : Bool} {r0 : State} (t : Nat) (s : State) (hm : Moves cc r0 s) :
    Moves cc r0 (provision t s) := by
  unfold provision
  with_reducible repeat' first
    | assumption | exact fun _ => rfl | apply Moves.ite | apply invalidateAll_moves | apply tileTo_moves
    | apply showPort_moves | apply takeStage_moves | apply Moves.foldl | intro _ | extract_lets
    | (apply Moves.mk; apply tileTo_moves)

theorem setShares_moves {cc : Bool} {r0 : State} (t : Nat) (s : State) (hm : Moves cc r0 s) :
    Moves cc r0 (setShares t s) := by
  unfold setShares
  with_reducible repeat' first
    | assumption | exact fun _ => rfl | apply takeStage_moves | apply invalidateAll_moves | intro _ | extract_lets
    | (apply Moves.mk; apply Moves.foldl)

theorem startTile_moves {cc : Bool} {r0 : State} (t : Nat) (s : State) (hm : Moves cc r0 s) :
    Moves cc r0 (startTile t s) := by
  unfold startTile
  with_reducible repeat' first | assumption | apply tileTo_moves | apply setNs_moves | apply Moves.foldl | intro _

theorem releaseTile_moves {cc : Bool} {r0 : State} (t : Nat) (s : State) (hm : Moves cc r0 s) :
    Moves cc r0 (releaseTile t s) := by
  unfold releaseTile
  with_reducible repeat' first
    | assumption | exact fun _ => rfl | apply eraseSlot_moves | apply endSession_moves | apply deleteNs_moves
    | apply releaseCourse_moves | apply tileTo_moves | apply setF_moves | apply Moves.foldl | intro _ | extract_lets
    | split | (apply Moves.mk; apply invalidateAll_moves)

theorem tileOp_moves {cc : Bool} {r0 : State} (t op : Nat) (data : List W32) (s : State) (hm : Moves cc r0 s) :
    MovesP cc r0 (tileOp t op data s) := by
  unfold tileOp
  with_reducible repeat' first
    | assumption | apply MovesP.ite | apply MovesP.pair | apply stageAll_moves | apply happenTile_moves
    | apply setF_moves | apply clearTileStage_moves | apply provision_moves | apply startTile_moves
    | apply tileTo_moves | apply releaseTile_moves | apply setShares_moves | apply saveTile_moves | split | intro _

theorem tileOp_movesE {cc : Bool} {r0 : State} {t op : Nat} {data : List W32} {s : State} {a0} {t0 : State} (hm : Moves cc r0 s) (e : tileOp t op data s = (a0, t0)) :
    Moves cc r0 t0 := tileOp_moves _ _ _ _ hm _ _ e

theorem tileRow_moves {cc : Bool} {r0 : State} (t op : Nat) (req : Option TileReq) (s : State) (hm : Moves cc r0 s) :
    Moves cc r0 (tileRow t op req s) := by
  unfold tileRow
  with_reducible repeat' first
    | assumption | apply Moves.ite | apply guarded_moves | (apply MovesP.snd; apply tileOp_moves)
    | apply adminCmd_moves | apply answer_moves | intro _ | extract_lets | split

theorem quiesced_moves {cc : Bool} {r0 : State} (t : Nat) (s : State) (hm : Moves cc r0 s) :
    Moves cc r0 (quiesced t s) := by
  unfold quiesced
  with_reducible repeat' first
    | assumption | apply Moves.ite | apply happenTile_moves | apply saveTile_moves | apply tileTo_moves | intro _

theorem scrubbed_moves {cc : Bool} {r0 : State} (t : Nat) (s : State) (hm : Moves cc r0 s) :
    Moves cc r0 (scrubbed t s) := by
  unfold scrubbed
  with_reducible repeat' first
    | assumption | apply Moves.ite | apply setR_moves | apply happenTile_moves | apply saveTile_moves
    | apply clearTileStage_moves | apply tileTo_moves | apply Moves.foldl | intro _

theorem takeShares_moves {cc : Bool} {r0 : State} (s : State) (hm : Moves cc r0 s) :
    Moves cc r0 (takeShares s) := by
  unfold takeShares
  with_reducible repeat' first
    | assumption | exact fun _ => rfl | apply setR_moves | intro _ | extract_lets
    | (apply Moves.mk; apply Moves.foldl)

theorem yardCfg_moves {cc : Bool} {r0 : State} (v : W32) (s : State) (hm : Moves cc r0 s) :
    Moves cc r0 (yardCfg v s) := by
  unfold yardCfg
  with_reducible repeat' first | assumption | apply Moves.ite | apply setF_moves | intro _

theorem budgetWrite_moves {cc : Bool} {r0 : State} (v : W32) (s : State) (hm : Moves cc r0 s) :
    Moves cc r0 (budgetWrite v s) := by
  unfold budgetWrite
  with_reducible repeat' first | assumption | apply Moves.ite | apply setF_moves | intro _

theorem execTileProvision_moves {cc : Bool} {r0 : State} (t : Nat) (req : Option TileReq) (s : State) (hm : Moves cc r0 s) :
    MovesR cc r0 (execTileProvision t req s) := by
  unfold execTileProvision
  with_reducible repeat' first | assumption | apply MovesR.next | apply tileRow_moves

theorem execTileStart_moves {cc : Bool} {r0 : State} (t : Nat) (req : Option TileReq) (s : State) (hm : Moves cc r0 s) :
    MovesR cc r0 (execTileStart t req s) := by
  unfold execTileStart
  with_reducible repeat' first | assumption | apply MovesR.next | apply tileRow_moves

theorem execTileStop_moves {cc : Bool} {r0 : State} (t : Nat) (req : Option TileReq) (s : State) (hm : Moves cc r0 s) :
    MovesR cc r0 (execTileStop t req s) := by
  unfold execTileStop
  with_reducible repeat' first | assumption | apply MovesR.next | apply tileRow_moves

theorem execTileRelease_moves {cc : Bool} {r0 : State} (t : Nat) (req : Option TileReq) (s : State) (hm : Moves cc r0 s) :
    MovesR cc r0 (execTileRelease t req s) := by
  unfold execTileRelease
  with_reducible repeat' first | assumption | apply MovesR.next | apply tileRow_moves

theorem execTileSetShares_moves {cc : Bool} {r0 : State} (t : Nat) (req : Option TileReq) (s : State) (hm : Moves cc r0 s) :
    MovesR cc r0 (execTileSetShares t req s) := by
  unfold execTileSetShares
  with_reducible repeat' first | assumption | apply MovesR.next | apply tileRow_moves

theorem execTileQuiesced_moves {cc : Bool} {r0 : State} (t : Nat) (s : State) (hm : Moves cc r0 s) :
    MovesR cc r0 (execTileQuiesced t s) := by
  unfold execTileQuiesced
  with_reducible repeat' first | assumption | apply MovesR.next | apply quiesced_moves

theorem execTileScrubbed_moves {cc : Bool} {r0 : State} (t : Nat) (s : State) (hm : Moves cc r0 s) :
    MovesR cc r0 (execTileScrubbed t s) := by
  unfold execTileScrubbed
  with_reducible repeat' first | assumption | apply MovesR.next | apply scrubbed_moves

theorem execYardCfgWrite_moves {cc : Bool} {r0 : State} (v : W32) (s : State) (hm : Moves cc r0 s) :
    MovesR cc r0 (execYardCfgWrite v s) := by
  unfold execYardCfgWrite
  with_reducible repeat' first | assumption | apply MovesR.next | apply guarded_moves | apply yardCfg_moves

theorem execTrowelBudgetWrite_moves {cc : Bool} {r0 : State} (v : W32) (s : State) (hm : Moves cc r0 s) :
    MovesR cc r0 (execTrowelBudgetWrite v s) := by
  unfold execTrowelBudgetWrite
  with_reducible repeat' first | assumption | apply MovesR.next | apply guarded_moves | apply budgetWrite_moves

end Sys2Proof.Machine
end

