-- ==== Sys2Proof/Laws/Moves/Logs.lean ====
section
/-!
SUPPORT. Laws/Moves/Logs.lean: the operations of Machine/Logs.lean keep what `Moves` says.
-/

namespace Sys2Proof.Machine

theorem lossRead_moves {cc : Bool} {r0 : State} (c1 : Bool) (fn n : Nat) (s : State) (hm : Moves cc r0 s) :
    Moves cc r0 (lossRead c1 fn n s) := by
  unfold lossRead
  with_reducible repeat' first
    | exact fun _ => rfl | apply Moves.ite | apply setFn_moves | apply rearm_moves | (apply Moves.mk; assumption)
    | intro _

end Sys2Proof.Machine
end

