-- ==== Sys2Proof/Laws/Moves/Admin.lean ====
section
/-!
SUPPORT. Laws/Moves/Admin.lean: the operations of Machine/Admin.lean keep what `Moves` says.
-/

namespace Sys2Proof.Machine

theorem answerLimit_moves {cc : Bool} {r0 : State} (h : CmdHead) (op : Nat) (st : Sts) (t : Nat) (s : State) (hm : Moves cc r0 s) :
    Moves cc r0 (answerLimit h op st t s) := by
  unfold answerLimit
  with_reducible repeat' first | assumption | apply answer_moves | apply limitHit_moves

theorem createSq_moves {cc : Bool} {r0 : State} (h : CmdHead) (sqid size prio cqid : Nat) (s : State) (hm : Moves cc r0 s) :
    Moves cc r0 (createSq h sqid size prio cqid s) := by
  unfold createSq
  with_reducible repeat' first
    | assumption | apply Moves.ite | apply answer_moves | apply answerLimit_moves | apply setSq_moves | intro _
    | extract_lets | split

theorem createCq_moves {cc : Bool} {r0 : State} (h : CmdHead) (cqid size vector : Nat) (s : State) (hm : Moves cc r0 s) :
    Moves cc r0 (createCq h cqid size vector s) := by
  unfold createCq
  with_reducible repeat' first
    | assumption | apply Moves.ite | apply answer_moves | apply answerLimit_moves | apply setCq_moves | intro _
    | extract_lets | split

theorem deleteSq_moves {cc : Bool} {r0 : State} (h : CmdHead) (sqid : Nat) (s : State) (hm : Moves cc r0 s) :
    Moves cc r0 (deleteSq h sqid s) := by
  unfold deleteSq
  with_reducible repeat' first
    | assumption | apply Moves.ite | apply answer_moves | apply resetCmd_moves | apply setSq_moves | apply Moves.foldl
    | intro _

theorem deleteCq_moves {cc : Bool} {r0 : State} (h : CmdHead) (cqid : Nat) (s : State) (hm : Moves cc r0 s) :
    Moves cc r0 (deleteCq h cqid s) := by
  unfold deleteCq
  with_reducible repeat' first | assumption | apply Moves.ite | apply answer_moves | apply setCq_moves | intro _

theorem logCmd_moves {cc : Bool} {r0 : State} (h : CmdHead) (data : State → List Byte) (after : State → State) (s : State) (hafter : ∀ u, Moves cc r0 u → Moves cc r0 (after u)) (hm : Moves cc r0 s) :
    Moves cc r0 (logCmd h data after s) := by
  unfold logCmd
  with_reducible repeat' first | assumption | apply hafter | apply adminCmd_moves | apply answer_moves | intro _

theorem logRead_moves {cc : Bool} {r0 : State} (fn lid len : Nat) (s : State) (hm : Moves cc r0 s) :
    Moves cc r0 (logRead fn lid len s) := by
  unfold logRead
  with_reducible repeat' first
    | assumption | exact fun _ => rfl | apply lossRead_moves | apply rearm_moves | (apply Moves.mk; assumption)
    | extract_lets | split

theorem getLog_moves {cc : Bool} {r0 : State} (h : CmdHead) (lid off len : Nat) (rae : Bool) (s : State) (hm : Moves cc r0 s) :
    Moves cc r0 (getLog h lid off len rae s) := by
  unfold getLog
  with_reducible repeat' first
    | assumption | apply Moves.ite | apply adminCmd_moves | apply answer_moves | apply tick_moves
    | apply logRead_moves | intro _ | extract_lets | split

theorem identifyCmd_moves {cc : Bool} {r0 : State} (h : CmdHead) (cns : Nat) (s : State) (hm : Moves cc r0 s) :
    Moves cc r0 (identifyCmd h cns s) := by
  unfold identifyCmd
  with_reducible repeat' first
    | assumption | apply adminCmd_moves | apply answer_moves | intro _ | extract_lets | split

theorem dropPlanned_moves {cc : Bool} {r0 : State} (i : Nat) (s : State) (hm : Moves cc r0 s) :
    Moves cc r0 (dropPlanned i s) := by
  unfold dropPlanned
  with_reducible repeat' first
    | assumption | apply Moves.ite | apply refund_moves | apply setBuf_moves | apply Moves.foldl | intro _

theorem abortNow_moves {cc : Bool} {r0 : State} (i : Nat) (s0 : State) (hm : Moves cc r0 s0) :
    Moves cc r0 (abortNow i s0) := by
  unfold abortNow
  with_reducible repeat' first
    | assumption | exact fun _ => rfl | apply dropPlanned_moves | apply unhold_moves | apply failCmd_moves
    | apply setCmd_moves | extract_lets | split | (apply Moves.mk; apply cutWrite_moves)
    | (apply Moves.mk; apply dropReads_moves)

theorem abortCmd_moves {cc : Bool} {r0 : State} (h : CmdHead) (sqid cid : Nat) (s : State) (hm : Moves cc r0 s) :
    Moves cc r0 (abortCmd h sqid cid s) := by
  unfold abortCmd
  with_reducible repeat' first
    | assumption | apply Moves.ite | apply adminCmd_moves | apply answer_moves | apply addF_moves
    | apply abortNow_moves | intro _ | extract_lets | split

theorem setFeat_moves {cc : Bool} {r0 : State} (fn fid v : Nat) (s : State) (hm : Moves cc r0 s) :
    Moves cc r0 (setFeat fn fid v s) := by
  unfold setFeat
  with_reducible repeat' first | assumption | apply setFn_moves

theorem featCmd_moves {cc : Bool} {r0 : State} (h : CmdHead) (f : State → Sts × Nat × State) (s : State) (hf : ∀ u, Moves cc r0 u → MovesT cc r0 (f u)) (hm : Moves cc r0 s) :
    Moves cc r0 (featCmd h f s) := by
  unfold featCmd
  with_reducible repeat' first
    | assumption | (apply MovesT.snd; apply hf) | apply adminCmd_moves | apply answer_moves | intro _

theorem featPs_moves {cc : Bool} {r0 : State} (fn ps : Nat) (s : State) (hm : Moves cc r0 s) :
    MovesT cc r0 (featPs fn ps s) := by
  unfold featPs
  with_reducible repeat' first
    | assumption | apply MovesT.ite | apply MovesT.trip | apply selectPs_moves | split | intro _

theorem featPs_movesE {cc : Bool} {r0 : State} {fn ps : Nat} {s : State} {a0 b0} {t0 : State} (hm : Moves cc r0 s) (e : featPs fn ps s = (a0, b0, t0)) :
    Moves cc r0 t0 := featPs_moves _ _ _ hm _ _ _ e

theorem featArb_moves {cc : Bool} {r0 : State} (fn burst lpw mpw hpw : Nat) (s : State) (hm : Moves cc r0 s) :
    MovesT cc r0 (featArb fn burst lpw mpw hpw s) := by
  unfold featArb
  with_reducible repeat' first | assumption | apply MovesT.trip | apply setFeat_moves

theorem featArb_movesE {cc : Bool} {r0 : State} {fn burst lpw mpw hpw : Nat} {s : State} {a0 b0} {t0 : State} (hm : Moves cc r0 s) (e : featArb fn burst lpw mpw hpw s = (a0, b0, t0)) :
    Moves cc r0 t0 := featArb_moves _ _ _ _ _ _ hm _ _ _ e

theorem featVwc_moves {cc : Bool} {r0 : State} (fn : Nat) (wce : Bool) (s : State) (hm : Moves cc r0 s) :
    MovesT cc r0 (featVwc fn wce s) := by
  unfold featVwc
  with_reducible repeat' first | assumption | apply MovesT.trip | apply setFn_moves

theorem featVwc_movesE {cc : Bool} {r0 : State} {fn : Nat} {wce : Bool} {s : State} {a0 b0} {t0 : State} (hm : Moves cc r0 s) (e : featVwc fn wce s = (a0, b0, t0)) :
    Moves cc r0 t0 := featVwc_moves _ _ _ hm _ _ _ e

theorem featFdp_moves {cc : Bool} {r0 : State} (fn : Nat) (enable : Bool) (s : State) (hm : Moves cc r0 s) :
    MovesT cc r0 (featFdp fn enable s) := by
  unfold featFdp
  with_reducible repeat' first
    | assumption | exact fun _ => rfl | apply MovesT.trip | (apply Moves.mk; assumption) | split

theorem featFdp_movesE {cc : Bool} {r0 : State} {fn : Nat} {enable : Bool} {s : State} {a0 b0} {t0 : State} (hm : Moves cc r0 s) (e : featFdp fn enable s = (a0, b0, t0)) :
    Moves cc r0 t0 := featFdp_moves _ _ _ hm _ _ _ e

theorem featFdpEvents_moves {cc : Bool} {r0 : State} (fn : Nat) (enable : Bool) (kinds : List Nat) (s : State) (hm : Moves cc r0 s) :
    MovesT cc r0 (featFdpEvents fn enable kinds s) := by
  unfold featFdpEvents
  with_reducible repeat' first
    | assumption | exact fun _ => rfl | apply MovesT.trip | (apply Moves.mk; assumption) | split

theorem featFdpEvents_movesE {cc : Bool} {r0 : State} {fn : Nat} {enable : Bool} {kinds : List Nat} {s : State} {a0 b0} {t0 : State} (hm : Moves cc r0 s) (e : featFdpEvents fn enable kinds s = (a0, b0, t0)) :
    Moves cc r0 t0 := featFdpEvents_moves _ _ _ _ hm _ _ _ e

theorem featTime_moves {cc : Bool} {r0 : State} (fn ms : Nat) (s : State) (hm : Moves cc r0 s) :
    MovesT cc r0 (featTime fn ms s) := by
  unfold featTime
  with_reducible repeat' first
    | assumption | exact fun _ => rfl | apply MovesT.ite | apply MovesT.trip | apply anchor_moves
    | apply setFeat_moves | (apply Moves.mk; assumption) | split | intro _ | extract_lets
    | (apply Moves.mk; apply Moves.mk; assumption)

theorem featTime_movesE {cc : Bool} {r0 : State} {fn ms : Nat} {s : State} {a0 b0} {t0 : State} (hm : Moves cc r0 s) (e : featTime fn ms s = (a0, b0, t0)) :
    Moves cc r0 t0 := featTime_moves _ _ _ hm _ _ _ e

theorem featOther_moves {cc : Bool} {r0 : State} (fn fid v : Nat) (s : State) (hm : Moves cc r0 s) :
    MovesT cc r0 (featOther fn fid v s) := by
  unfold featOther
  with_reducible repeat' first
    | assumption | apply MovesT.trip | (apply MovesT.snd; apply featArb_moves)
    | (apply MovesT.snd; apply featPs_moves) | (apply MovesT.snd; apply featVwc_moves) | apply setFeat_moves
    | (apply MovesT.snd; apply featFdp_moves) | split

theorem featOther_movesE {cc : Bool} {r0 : State} {fn fid v : Nat} {s : State} {a0 b0} {t0 : State} (hm : Moves cc r0 s) (e : featOther fn fid v s = (a0, b0, t0)) :
    Moves cc r0 t0 := featOther_moves _ _ _ _ hm _ _ _ e

theorem getFeat_moves {cc : Bool} {r0 : State} (h : CmdHead) (fid : Nat) (s : State) (hm : Moves cc r0 s) :
    Moves cc r0 (getFeat h fid s) := by
  unfold getFeat
  with_reducible repeat' first
    | assumption | apply Moves.ite | apply adminCmd_moves | apply answer_moves | intro _ | extract_lets | split

theorem aerCmd_moves {cc : Bool} {r0 : State} (h : CmdHead) (s : State) (hm : Moves cc r0 s) :
    Moves cc r0 (aerCmd h s) := by
  unfold aerCmd
  with_reducible repeat' first
    | assumption | apply Moves.ite | apply adminCmd_moves | apply answer_moves | apply setFn_moves
    | (apply MovesP.snd; apply allocCmd_moves) | intro _ | extract_lets | split

theorem nsAdmin_moves {cc : Bool} {r0 : State} (h : CmdHead) (op : Nat) (evac : Bool) (f : Nat → State → State) (s : State) (hf : ∀ a0 u, Moves cc r0 u → Moves cc r0 (f a0 u)) (hm : Moves cc r0 s) :
    Moves cc r0 (nsAdmin h op evac f s) := by
  unfold nsAdmin
  with_reducible repeat' first
    | assumption | apply Moves.ite | apply hf | apply adminCmd_moves | apply answer_moves | intro _ | extract_lets
    | split

theorem nsCreate_moves {cc : Bool} {r0 : State} (h : CmdHead) (csi nsze lbaf : Nat) (handles : List Nat) (s : State) (hm : Moves cc r0 s) :
    Moves cc r0 (nsCreate h csi nsze lbaf handles s) := by
  unfold nsCreate
  with_reducible repeat' first
    | assumption | apply Moves.ite | apply nsAdmin_moves | apply answer_moves | apply answerLimit_moves
    | apply setNs_moves | intro _ | extract_lets | split

theorem nsDelete_moves {cc : Bool} {r0 : State} (h : CmdHead) (s : State) (hm : Moves cc r0 s) :
    Moves cc r0 (nsDelete h s) := by
  unfold nsDelete
  with_reducible repeat' first
    | assumption | apply Moves.ite | apply nsAdmin_moves | apply answer_moves | apply deleteNs_moves
    | apply Moves.foldl | intro _

theorem nsAttach_moves {cc : Bool} {r0 : State} (h : CmdHead) (attach : Bool) (s : State) (hm : Moves cc r0 s) :
    Moves cc r0 (nsAttach h attach s) := by
  unfold nsAttach
  with_reducible repeat' first
    | assumption | apply Moves.ite | apply nsAdmin_moves | apply answer_moves | apply setNs_moves | intro _

theorem formatCmd_moves {cc : Bool} {r0 : State} (h : CmdHead) (lbaf ses : Nat) (s : State) (hm : Moves cc r0 s) :
    Moves cc r0 (formatCmd h lbaf ses s) := by
  unfold formatCmd
  with_reducible repeat' first
    | assumption | apply Moves.ite | apply adminCmd_moves | apply answer_moves | apply setNs_moves
    | apply dropWalls_moves | apply wipeNs_moves | intro _

theorem eraseAll_moves {cc : Bool} {r0 : State} (s : State) (hm : Moves cc r0 s) :
    Moves cc r0 (eraseAll s) := by
  unfold eraseAll
  with_reducible repeat' first
    | assumption | apply releaseCourse_moves | apply wipeNs_moves | apply Moves.foldl | intro _

theorem sanitizeCmd_moves {cc : Bool} {r0 : State} (h : CmdHead) (act : Nat) (s : State) (hm : Moves cc r0 s) :
    Moves cc r0 (sanitizeCmd h act s) := by
  unfold sanitizeCmd
  with_reducible repeat' first
    | assumption | exact fun _ => rfl | apply Moves.ite | apply adminCmd_moves | apply answer_moves
    | apply eraseAll_moves | intro _ | extract_lets | (apply Moves.mk; apply setCause_moves)

theorem standaloneNs_moves {cc : Bool} {r0 : State} (s : State) (hm : Moves cc r0 s) :
    Moves cc r0 (standaloneNs s) := by
  unfold standaloneNs
  with_reducible repeat' first | assumption | apply setNs_moves

theorem sanitizeEnd_moves {cc : Bool} {r0 : State} (reached : Bool) (s : State) (hm : Moves cc r0 s) :
    Moves cc r0 (sanitizeEnd reached s) := by
  unfold sanitizeEnd
  with_reducible repeat' first
    | assumption | exact fun _ => rfl | apply Moves.ite | apply deleteNs_moves | apply setF_moves
    | apply standaloneNs_moves | apply invalidateAll_moves | (apply Moves.mk; assumption) | apply Moves.foldl
    | intro _ | extract_lets | (apply Moves.mk; apply setF_moves)

theorem modeOutcome_moves {cc : Bool} {r0 : State} (s : State) (m : Nat) (hm : Moves cc r0 s) :
    MovesO cc r0 (modeOutcome s m) := by
  unfold modeOutcome
  with_reducible repeat' first
    | assumption | apply MovesO.ite | apply MovesO.some | exact MovesO.none | apply setF_moves | apply setCause_moves
    | split | intro _

theorem modeOutcome_movesE {cc : Bool} {r0 : State} {s : State} {m : Nat} {t0 : State} (hm : Moves cc r0 s) (e : modeOutcome s m = some t0) :
    Moves cc r0 t0 := modeOutcome_moves _ _ hm _ e

theorem modeRefused_moves {cc : Bool} {r0 : State} (s : State) (hm : Moves cc r0 s) :
    Moves cc r0 (modeRefused s) := by
  unfold modeRefused
  with_reducible repeat' first | assumption | apply happen_moves

theorem modeCmd_moves {cc : Bool} {r0 : State} (h : CmdHead) (m : Nat) (s : State) (hm : Moves cc r0 s) :
    Moves cc r0 (modeCmd h m s) := by
  unfold modeCmd
  with_reducible repeat' first
    | assumption | apply adminCmd_moves | apply answer_moves | apply modeRefused_moves | intro _
    | refine modeOutcome_movesE ?_ ‹_› | extract_lets | split

theorem recControl_moves {cc : Bool} {r0 : State} (req : Option CmdHead) (v : W32) (f : State → State) (s : State) (hf : ∀ u, Moves cc r0 u → Moves cc r0 (f u)) (hm : Moves cc r0 s) :
    Moves cc r0 (recControl req v f s) := by
  unfold recControl
  with_reducible repeat' first
    | assumption | apply hf | apply guarded_moves | apply adminCmd_moves | apply answer_moves | intro _ | split

theorem plainAdmin_moves {cc : Bool} {r0 : State} (h : CmdHead) (op : Nat) (s : State) (hm : Moves cc r0 s) :
    Moves cc r0 (plainAdmin h op s) := by
  unfold plainAdmin
  with_reducible repeat' first | assumption | apply adminCmd_moves | apply answer_moves

theorem selfTest_moves {cc : Bool} {r0 : State} (h : CmdHead) (stc : Nat) (s : State) (hm : Moves cc r0 s) :
    Moves cc r0 (selfTest h stc s) := by
  unfold selfTest
  with_reducible repeat' first | assumption | apply adminCmd_moves | apply answer_moves

theorem execUnsupportedOpcode_moves {cc : Bool} {r0 : State} (h : CmdHead) (opcode : Nat) (s : State) (hm : Moves cc r0 s) :
    MovesR cc r0 (execUnsupportedOpcode h opcode s) := by
  unfold execUnsupportedOpcode
  with_reducible repeat' first | assumption | apply MovesR.next | apply adminCmd_moves | apply answer_moves

theorem execCreateIoSq_moves {cc : Bool} {r0 : State} (h : CmdHead) (sqid size prio cqid : Nat) (s : State) (hm : Moves cc r0 s) :
    MovesR cc r0 (execCreateIoSq h sqid size prio cqid s) := by
  unfold execCreateIoSq
  with_reducible repeat' first | assumption | apply MovesR.next | apply adminCmd_moves | apply createSq_moves

theorem execDeleteIoSq_moves {cc : Bool} {r0 : State} (h : CmdHead) (sqid : Nat) (s : State) (hm : Moves cc r0 s) :
    MovesR cc r0 (execDeleteIoSq h sqid s) := by
  unfold execDeleteIoSq
  with_reducible repeat' first | assumption | apply MovesR.next | apply adminCmd_moves | apply deleteSq_moves

theorem execCreateIoCq_moves {cc : Bool} {r0 : State} (h : CmdHead) (cqid size vector : Nat) (s : State) (hm : Moves cc r0 s) :
    MovesR cc r0 (execCreateIoCq h cqid size vector s) := by
  unfold execCreateIoCq
  with_reducible repeat' first | assumption | apply MovesR.next | apply adminCmd_moves | apply createCq_moves

theorem execDeleteIoCq_moves {cc : Bool} {r0 : State} (h : CmdHead) (cqid : Nat) (s : State) (hm : Moves cc r0 s) :
    MovesR cc r0 (execDeleteIoCq h cqid s) := by
  unfold execDeleteIoCq
  with_reducible repeat' first | assumption | apply MovesR.next | apply adminCmd_moves | apply deleteCq_moves

theorem execGetLogPage_moves {cc : Bool} {r0 : State} (h : CmdHead) (lid offset len : Nat) (rae : Bool) (s : State) (hm : Moves cc r0 s) :
    MovesR cc r0 (execGetLogPage h lid offset len rae s) := by
  unfold execGetLogPage
  with_reducible repeat' first | assumption | apply MovesR.next | apply getLog_moves

theorem execGetLogPageC0_moves {cc : Bool} {r0 : State} (h : CmdHead) (entries : Nat) (rae : Bool) (s : State) (hm : Moves cc r0 s) :
    MovesR cc r0 (execGetLogPageC0 h entries rae s) := by
  unfold execGetLogPageC0
  with_reducible repeat' first
    | assumption | apply MovesR.next | apply logCmd_moves | apply lossRead_moves | split | intro _

theorem execGetLogPageC1_moves {cc : Bool} {r0 : State} (h : CmdHead) (entries : Nat) (rae : Bool) (s : State) (hm : Moves cc r0 s) :
    MovesR cc r0 (execGetLogPageC1 h entries rae s) := by
  unfold execGetLogPageC1
  with_reducible repeat' first
    | assumption | apply MovesR.next | apply logCmd_moves | apply lossRead_moves | split | intro _

theorem execGetLogPageC2_moves {cc : Bool} {r0 : State} (h : CmdHead) (rae : Bool) (s : State) (hm : Moves cc r0 s) :
    MovesR cc r0 (execGetLogPageC2 h rae s) := by
  unfold execGetLogPageC2
  with_reducible repeat' first
    | assumption | apply MovesR.next | apply logCmd_moves | apply rearm_moves | split | intro _

theorem execGetLogPageC3_moves {cc : Bool} {r0 : State} (h : CmdHead) (first entries : Nat) (rae : Bool) (s : State) (hm : Moves cc r0 s) :
    MovesR cc r0 (execGetLogPageC3 h first entries rae s) := by
  unfold execGetLogPageC3
  with_reducible repeat' first
    | assumption | apply MovesR.next | apply logCmd_moves | apply rearm_moves | split | intro _

theorem execGetLogPageC4_moves {cc : Bool} {r0 : State} (h : CmdHead) (offsetType : Bool) (offset len : Nat) (s : State) (hm : Moves cc r0 s) :
    MovesR cc r0 (execGetLogPageC4 h offsetType offset len s) := by
  unfold execGetLogPageC4
  with_reducible repeat' first
    | assumption | apply MovesR.next | apply adminCmd_moves | apply answer_moves | split | intro _

theorem execGetLogPageC5_moves {cc : Bool} {r0 : State} (h : CmdHead) (s : State) (hm : Moves cc r0 s) : MovesR cc r0 (execGetLogPageC5 h s) :=
  .next (logCmd_moves _ _ _ _ (fun _ hu => hu) hm)

theorem execIdentify_moves {cc : Bool} {r0 : State} (h : CmdHead) (cns : Nat) (s : State) (hm : Moves cc r0 s) :
    MovesR cc r0 (execIdentify h cns s) := by
  unfold execIdentify
  with_reducible repeat' first | assumption | apply MovesR.next | apply identifyCmd_moves

theorem execAbort_moves {cc : Bool} {r0 : State} (h : CmdHead) (sqid cid : Nat) (s : State) (hm : Moves cc r0 s) :
    MovesR cc r0 (execAbort h sqid cid s) := by
  unfold execAbort
  with_reducible repeat' first | assumption | apply MovesR.next | apply abortCmd_moves

theorem execSetFeatures_moves {cc : Bool} {r0 : State} (h : CmdHead) (fid v : Nat) (s : State) (hm : Moves cc r0 s) :
    MovesR cc r0 (execSetFeatures h fid v s) := by
  unfold execSetFeatures
  repeat' first
    | with_reducible assumption | with_reducible apply MovesR.next | with_reducible apply featCmd_moves | intro _
    | with_reducible refine featOther_movesE ?_ ‹_›

theorem execSetFeaturesPowerManagement_moves {cc : Bool} {r0 : State} (h : CmdHead) (ps : Nat) (s : State) (hm : Moves cc r0 s) :
    MovesR cc r0 (execSetFeaturesPowerManagement h ps s) := by
  unfold execSetFeaturesPowerManagement
  repeat' first
    | with_reducible assumption | with_reducible apply MovesR.next | with_reducible apply featCmd_moves | intro _
    | with_reducible refine featPs_movesE ?_ ‹_›

theorem execSetFeaturesArbitration_moves {cc : Bool} {r0 : State} (h : CmdHead) (burst lpw mpw hpw : Nat) (s : State) (hm : Moves cc r0 s) :
    MovesR cc r0 (execSetFeaturesArbitration h burst lpw mpw hpw s) := by
  unfold execSetFeaturesArbitration
  repeat' first
    | with_reducible assumption | with_reducible apply MovesR.next | with_reducible apply featCmd_moves | intro _
    | with_reducible refine featArb_movesE ?_ ‹_›

theorem execSetFeaturesVwc_moves {cc : Bool} {r0 : State} (h : CmdHead) (wce : Bool) (s : State) (hm : Moves cc r0 s) :
    MovesR cc r0 (execSetFeaturesVwc h wce s) := by
  unfold execSetFeaturesVwc
  repeat' first
    | with_reducible assumption | with_reducible apply MovesR.next | with_reducible apply featCmd_moves | intro _
    | with_reducible refine featVwc_movesE ?_ ‹_›

theorem execSetFeaturesFdp_moves {cc : Bool} {r0 : State} (h : CmdHead) (enable : Bool) (s : State) (hm : Moves cc r0 s) :
    MovesR cc r0 (execSetFeaturesFdp h enable s) := by
  unfold execSetFeaturesFdp
  repeat' first
    | with_reducible assumption | with_reducible apply MovesR.next | with_reducible apply featCmd_moves | intro _
    | with_reducible refine featFdp_movesE ?_ ‹_›

theorem execSetFeaturesFdpEvents_moves {cc : Bool} {r0 : State} (h : CmdHead) (enable : Bool) (kinds : List Nat) (s : State) (hm : Moves cc r0 s) :
    MovesR cc r0 (execSetFeaturesFdpEvents h enable kinds s) := by
  unfold execSetFeaturesFdpEvents
  repeat' first
    | with_reducible assumption | with_reducible apply MovesR.next | with_reducible apply featCmd_moves | intro _
    | with_reducible refine featFdpEvents_movesE ?_ ‹_›

theorem execSetFeaturesTimestamp_moves {cc : Bool} {r0 : State} (h : CmdHead) (ms : Nat) (s : State) (hm : Moves cc r0 s) :
    MovesR cc r0 (execSetFeaturesTimestamp h ms s) := by
  unfold execSetFeaturesTimestamp
  repeat' first
    | with_reducible assumption | with_reducible apply MovesR.next | with_reducible apply featCmd_moves | intro _
    | with_reducible refine featTime_movesE ?_ ‹_›

theorem execGetFeatures_moves {cc : Bool} {r0 : State} (h : CmdHead) (fid : Nat) (s : State) (hm : Moves cc r0 s) :
    MovesR cc r0 (execGetFeatures h fid s) := by
  unfold execGetFeatures
  with_reducible repeat' first | assumption | apply MovesR.next | apply getFeat_moves

theorem execAsyncEventRequest_moves {cc : Bool} {r0 : State} (h : CmdHead) (s : State) (hm : Moves cc r0 s) :
    MovesR cc r0 (execAsyncEventRequest h s) := by
  unfold execAsyncEventRequest
  with_reducible repeat' first | assumption | apply MovesR.next | apply aerCmd_moves

theorem execNamespaceCreate_moves {cc : Bool} {r0 : State} (h : CmdHead) (csi nsze lbaf : Nat) (handles : List Nat) (s : State) (hm : Moves cc r0 s) :
    MovesR cc r0 (execNamespaceCreate h csi nsze lbaf handles s) := by
  unfold execNamespaceCreate
  with_reducible repeat' first | assumption | apply MovesR.next | apply nsCreate_moves

theorem execNamespaceDelete_moves {cc : Bool} {r0 : State} (h : CmdHead) (s : State) (hm : Moves cc r0 s) :
    MovesR cc r0 (execNamespaceDelete h s) := by
  unfold execNamespaceDelete
  with_reducible repeat' first | assumption | apply MovesR.next | apply nsDelete_moves

theorem execNamespaceAttachment_moves {cc : Bool} {r0 : State} (h : CmdHead) (attach : Bool) (s : State) (hm : Moves cc r0 s) :
    MovesR cc r0 (execNamespaceAttachment h attach s) := by
  unfold execNamespaceAttachment
  with_reducible repeat' first | assumption | apply MovesR.next | apply nsAttach_moves

theorem execFormatNvm_moves {cc : Bool} {r0 : State} (h : CmdHead) (lbaf ses : Nat) (s : State) (hm : Moves cc r0 s) :
    MovesR cc r0 (execFormatNvm h lbaf ses s) := by
  unfold execFormatNvm
  with_reducible repeat' first | assumption | apply MovesR.next | apply formatCmd_moves

theorem execDeviceSelfTest_moves {cc : Bool} {r0 : State} (h : CmdHead) (stc : Nat) (s : State) (hm : Moves cc r0 s) :
    MovesR cc r0 (execDeviceSelfTest h stc s) := by
  unfold execDeviceSelfTest
  with_reducible repeat' first | assumption | apply MovesR.next | apply selfTest_moves

theorem execSecuritySend_moves {cc : Bool} {r0 : State} (h : CmdHead) (s : State) (hm : Moves cc r0 s) :
    MovesR cc r0 (execSecuritySend h s) := by
  unfold execSecuritySend
  with_reducible repeat' first | assumption | apply MovesR.next | apply plainAdmin_moves

theorem execSecurityReceive_moves {cc : Bool} {r0 : State} (h : CmdHead) (s : State) (hm : Moves cc r0 s) :
    MovesR cc r0 (execSecurityReceive h s) := by
  unfold execSecurityReceive
  with_reducible repeat' first | assumption | apply MovesR.next | apply plainAdmin_moves

theorem execDirectiveSend_moves {cc : Bool} {r0 : State} (h : CmdHead) (s : State) (hm : Moves cc r0 s) :
    MovesR cc r0 (execDirectiveSend h s) := by
  unfold execDirectiveSend
  with_reducible repeat' first | assumption | apply MovesR.next | apply plainAdmin_moves

theorem execDirectiveReceive_moves {cc : Bool} {r0 : State} (h : CmdHead) (s : State) (hm : Moves cc r0 s) :
    MovesR cc r0 (execDirectiveReceive h s) := by
  unfold execDirectiveReceive
  with_reducible repeat' first | assumption | apply MovesR.next | apply plainAdmin_moves

theorem execSanitize_moves {cc : Bool} {r0 : State} (h : CmdHead) (act : Nat) (s : State) (hm : Moves cc r0 s) :
    MovesR cc r0 (execSanitize h act s) := by
  unfold execSanitize
  with_reducible repeat' first | assumption | apply MovesR.next | apply sanitizeCmd_moves

theorem execSanitizeDone_moves {cc : Bool} {r0 : State} (reachedStandalone : Bool) (s : State) (hm : Moves cc r0 s) :
    MovesR cc r0 (execSanitizeDone reachedStandalone s) := by
  unfold execSanitizeDone
  with_reducible repeat' first | assumption | apply MovesR.next | apply sanitizeEnd_moves

theorem execModeRequest_moves {cc : Bool} {r0 : State} (h : CmdHead) (mode : Nat) (s : State) (hm : Moves cc r0 s) :
    MovesR cc r0 (execModeRequest h mode s) := by
  unfold execModeRequest
  with_reducible repeat' first | assumption | apply MovesR.next | apply modeCmd_moves

theorem execRecorderFreeze_moves {cc : Bool} {r0 : State} (req : Option CmdHead) (path : Nat) (s : State) (hm : Moves cc r0 s) :
    MovesR cc r0 (execRecorderFreeze req path s) := by
  unfold execRecorderFreeze
  with_reducible repeat' first | assumption | apply MovesR.next | apply recControl_moves | apply startFreeze_moves

theorem execRecorderThaw_moves {cc : Bool} {r0 : State} (req : Option CmdHead) (_path : Nat) (s : State) (hm : Moves cc r0 s) :
    MovesR cc r0 (execRecorderThaw req _path s) := by
  unfold execRecorderThaw
  with_reducible repeat' first | assumption | apply MovesR.next | apply recControl_moves | apply thaw_moves

end Sys2Proof.Machine
end

