-- ==== Sys2Proof/Laws/Moves/Spdm.lean ====
section
/-!
SUPPORT. Laws/Moves/Spdm.lean: the operations of Machine/Spdm.lean keep what `Moves` says.
-/

namespace Sys2Proof.Machine

theorem heard_moves {cc : Bool} {r0 : State} (up : Bool) (f : State → State) (s : State) (hf : ∀ u, Moves cc r0 u → Moves cc r0 (f u)) (hm : Moves cc r0 s) :
    Moves cc r0 (heard up f s) := by
  unfold heard
  with_reducible repeat' first | assumption | apply Moves.ite | apply hf | apply wakeDrive_moves | intro _

theorem respond_moves {cc : Bool} {r0 : State} (c : Conn) (code : Nat) (data : List Byte) (s : State) (hm : Moves cc r0 s) :
    Moves cc r0 (respond c code data s) := by
  unfold respond
  with_reducible repeat' first
    | assumption | apply Moves.ite | apply spdmSay_moves | apply spdmErr_moves | apply setConn_moves | intro _

theorem spdmReq_moves {cc : Bool} {r0 : State} (c : Conn) (need : Nat) (f : State → State) (s : State) (hf : ∀ u, Moves cc r0 u → Moves cc r0 (f u)) (hm : Moves cc r0 s) :
    Moves cc r0 (spdmReq c need f s) := by
  unfold spdmReq
  with_reducible repeat' first
    | assumption | apply Moves.ite | apply hf | apply heard_moves | apply dropSig_moves | apply spdmErr_moves
    | intro _

theorem inSess_moves {cc : Bool} {r0 : State} (c : Conn) (f : State → State) (s : State) (hf : ∀ u, Moves cc r0 u → Moves cc r0 (f u)) (hm : Moves cc r0 s) :
    Moves cc r0 (inSess c f s) := by
  unfold inSess
  with_reducible repeat' first
    | assumption | apply Moves.ite | apply hf | apply spdmReq_moves | apply spdmErr_moves | intro _

theorem signed_moves {cc : Bool} {r0 : State} (c : Conn) (code : Nat) (data : List Byte) (s : State) (hm : Moves cc r0 s) :
    Moves cc r0 (signed c code data s) := by
  unfold signed
  with_reducible repeat' first | assumption | apply setConn_moves | apply respond_moves | apply tick_moves

theorem getVersion_moves {cc : Bool} {r0 : State} (c : Conn) (s : State) (hm : Moves cc r0 s) :
    Moves cc r0 (getVersion c s) := by
  unfold getVersion
  with_reducible repeat' first
    | assumption | apply spdmReq_moves | apply spdmSay_moves | apply setConn_moves | intro _

theorem getCapabilities_moves {cc : Bool} {r0 : State} (c : Conn) (s : State) (hm : Moves cc r0 s) :
    Moves cc r0 (getCapabilities c s) := by
  unfold getCapabilities
  with_reducible repeat' first
    | assumption | apply spdmReq_moves | apply spdmSay_moves | apply setConn_moves | intro _

theorem negotiate_moves {cc : Bool} {r0 : State} (c : Conn) (s : State) (hm : Moves cc r0 s) :
    Moves cc r0 (negotiate c s) := by
  unfold negotiate
  with_reducible repeat' first
    | assumption | apply spdmReq_moves | apply spdmSay_moves | apply setConn_moves | intro _

theorem getMeasurements_moves {cc : Bool} {r0 : State} (c : Conn) (index nonce : Nat) (sign : Bool) (s : State) (hm : Moves cc r0 s) :
    Moves cc r0 (getMeasurements c index nonce sign s) := by
  unfold getMeasurements
  with_reducible repeat' first
    | assumption | apply Moves.ite | apply spdmReq_moves | apply spdmErr_moves | apply signed_moves
    | apply respond_moves | intro _

theorem getDigests_moves {cc : Bool} {r0 : State} (c : Conn) (s : State) (hm : Moves cc r0 s) :
    Moves cc r0 (getDigests c s) := by
  unfold getDigests
  with_reducible repeat' first | assumption | apply spdmReq_moves | apply spdmSay_moves | intro _

theorem getCertificate_moves {cc : Bool} {r0 : State} (c : Conn) (slot off len : Nat) (s : State) (hm : Moves cc r0 s) :
    Moves cc r0 (getCertificate c slot off len s) := by
  unfold getCertificate
  with_reducible repeat' first
    | assumption | apply Moves.ite | apply spdmReq_moves | apply spdmErr_moves | apply respond_moves | intro _

theorem challenge_moves {cc : Bool} {r0 : State} (c : Conn) (slot nonce : Nat) (s : State) (hm : Moves cc r0 s) :
    Moves cc r0 (challenge c slot nonce s) := by
  unfold challenge
  with_reducible repeat' first
    | assumption | apply Moves.ite | apply spdmReq_moves | apply spdmErr_moves | apply signed_moves | intro _

theorem authFail_moves {cc : Bool} {r0 : State} (s : State) (hm : Moves cc r0 s) :
    Moves cc r0 (authFail s) := by
  unfold authFail
  with_reducible repeat' first | assumption | apply happen_moves | apply addF_moves

theorem keyExchange_moves {cc : Bool} {r0 : State} (c : Conn) (mutAuth : Bool) (owner : Nat) (s : State) (hm : Moves cc r0 s) :
    Moves cc r0 (keyExchange c mutAuth owner s) := by
  unfold keyExchange
  with_reducible repeat' first
    | assumption | apply Moves.ite | apply spdmReq_moves | apply spdmErr_moves | apply authFail_moves
    | apply signed_moves | apply setConn_moves | intro _ | extract_lets | split

theorem finishRsp_moves {cc : Bool} {r0 : State} (c : Conn) (mutAuth : Bool) (s : State) (hm : Moves cc r0 s) :
    Moves cc r0 (finishRsp c mutAuth s) := by
  unfold finishRsp
  with_reducible repeat' first
    | assumption | apply Moves.ite | apply setConn_moves | apply signed_moves | apply spdmSay_moves | intro _

theorem finishBad_moves {cc : Bool} {r0 : State} (c : Conn) (s : State) (hm : Moves cc r0 s) :
    Moves cc r0 (finishBad c s) := by
  unfold finishBad
  with_reducible repeat' first | assumption | apply spdmErr_moves | apply authFail_moves | apply setConn_moves

theorem finish_moves {cc : Bool} {r0 : State} (c : Conn) (mutAuth ok : Bool) (owner : Nat) (s : State) (hm : Moves cc r0 s) :
    Moves cc r0 (finish c mutAuth ok owner s) := by
  unfold finish
  with_reducible repeat' first
    | assumption | exact fun _ => rfl | apply Moves.ite | apply spdmReq_moves | apply spdmErr_moves
    | apply finishBad_moves | apply finishRsp_moves | apply happen_moves | (apply Moves.mk; assumption) | intro _
    | extract_lets | split

theorem keyUpdate_moves {cc : Bool} {r0 : State} (c : Conn) (s : State) (hm : Moves cc r0 s) :
    Moves cc r0 (keyUpdate c s) := by
  unfold keyUpdate
  with_reducible repeat' first | assumption | apply inSess_moves | apply spdmSay_moves

theorem endOne_moves {cc : Bool} {r0 : State} (c : Conn) (s : State) (hm : Moves cc r0 s) :
    Moves cc r0 (endOne c s) := by
  unfold endOne
  with_reducible repeat' first | assumption | apply setConn_moves

theorem endSess_moves {cc : Bool} {r0 : State} (c : Conn) (s : State) (hm : Moves cc r0 s) :
    Moves cc r0 (endSess c s) := by
  unfold endSess
  with_reducible repeat' first | assumption | apply inSess_moves | apply spdmSay_moves | apply endOne_moves | intro _

theorem sessionLimit_moves {cc : Bool} {r0 : State} (c : Conn) (s : State) (hm : Moves cc r0 s) :
    Moves cc r0 (sessionLimit c s) := by
  unfold sessionLimit
  with_reducible repeat' first
    | assumption | apply Moves.ite | apply happen_moves | apply addF_moves | apply endOne_moves | intro _

theorem slhGet_moves {cc : Bool} {r0 : State} (c : Conn) (s : State) (hm : Moves cc r0 s) :
    Moves cc r0 (slhGet c s) := by
  unfold slhGet
  with_reducible repeat' first
    | assumption | apply heard_moves | apply spdmErr_moves | apply dropSig_moves | apply respond_moves | intro _
    | extract_lets | split

theorem slhChain_moves {cc : Bool} {r0 : State} (c : Conn) (s : State) (hm : Moves cc r0 s) :
    Moves cc r0 (slhChain c s) := by
  unfold slhChain
  with_reducible repeat' first | assumption | apply spdmReq_moves | apply respond_moves | intro _

theorem chunkGet_moves {cc : Bool} {r0 : State} (c : Conn) (k : Nat) (s : State) (hm : Moves cc r0 s) :
    Moves cc r0 (chunkGet c k s) := by
  unfold chunkGet
  with_reducible repeat' first
    | assumption | apply Moves.ite | apply heard_moves | apply spdmErr_moves | apply spdmSay_moves
    | apply setConn_moves | intro _ | extract_lets | split

theorem chunkSend_moves {cc : Bool} {r0 : State} (c : Conn) (k : Nat) (last : Bool) (s : State) (hm : Moves cc r0 s) :
    Moves cc r0 (chunkSend c k last s) := by
  unfold chunkSend
  with_reducible repeat' first
    | assumption | apply Moves.ite | apply spdmReq_moves | apply spdmErr_moves | apply setConn_moves
    | apply spdmSay_moves | intro _

theorem execSlhSignatureGet_moves {cc : Bool} {r0 : State} (c : Conn) (s : State) (hm : Moves cc r0 s) :
    MovesR cc r0 (execSlhSignatureGet c s) := by
  unfold execSlhSignatureGet
  with_reducible repeat' first | assumption | apply MovesR.next | apply slhGet_moves

theorem execSlhChainGet_moves {cc : Bool} {r0 : State} (c : Conn) (s : State) (hm : Moves cc r0 s) :
    MovesR cc r0 (execSlhChainGet c s) := by
  unfold execSlhChainGet
  with_reducible repeat' first | assumption | apply MovesR.next | apply slhChain_moves

theorem execSpdmGetVersion_moves {cc : Bool} {r0 : State} (c : Conn) (s : State) (hm : Moves cc r0 s) :
    MovesR cc r0 (execSpdmGetVersion c s) := by
  unfold execSpdmGetVersion
  with_reducible repeat' first | assumption | apply MovesR.next | apply getVersion_moves

theorem execSpdmGetCapabilities_moves {cc : Bool} {r0 : State} (c : Conn) (s : State) (hm : Moves cc r0 s) :
    MovesR cc r0 (execSpdmGetCapabilities c s) := by
  unfold execSpdmGetCapabilities
  with_reducible repeat' first | assumption | apply MovesR.next | apply getCapabilities_moves

theorem execSpdmNegotiateAlgorithms_moves {cc : Bool} {r0 : State} (c : Conn) (s : State) (hm : Moves cc r0 s) :
    MovesR cc r0 (execSpdmNegotiateAlgorithms c s) := by
  unfold execSpdmNegotiateAlgorithms
  with_reducible repeat' first | assumption | apply MovesR.next | apply negotiate_moves

theorem execSpdmGetDigests_moves {cc : Bool} {r0 : State} (c : Conn) (s : State) (hm : Moves cc r0 s) :
    MovesR cc r0 (execSpdmGetDigests c s) := by
  unfold execSpdmGetDigests
  with_reducible repeat' first | assumption | apply MovesR.next | apply getDigests_moves

theorem execSpdmGetCertificate_moves {cc : Bool} {r0 : State} (c : Conn) (slot offset len : Nat) (s : State) (hm : Moves cc r0 s) :
    MovesR cc r0 (execSpdmGetCertificate c slot offset len s) := by
  unfold execSpdmGetCertificate
  with_reducible repeat' first | assumption | apply MovesR.next | apply getCertificate_moves

theorem execSpdmChallenge_moves {cc : Bool} {r0 : State} (c : Conn) (slot nonce : Nat) (s : State) (hm : Moves cc r0 s) :
    MovesR cc r0 (execSpdmChallenge c slot nonce s) := by
  unfold execSpdmChallenge
  with_reducible repeat' first | assumption | apply MovesR.next | apply challenge_moves

theorem execSpdmGetMeasurements_moves {cc : Bool} {r0 : State} (c : Conn) (index nonce : Nat) (sign : Bool) (s : State) (hm : Moves cc r0 s) :
    MovesR cc r0 (execSpdmGetMeasurements c index nonce sign s) := by
  unfold execSpdmGetMeasurements
  with_reducible repeat' first | assumption | apply MovesR.next | apply getMeasurements_moves

theorem execSpdmKeyExchange_moves {cc : Bool} {r0 : State} (c : Conn) (mutAuth : Bool) (owner : Nat) (s : State) (hm : Moves cc r0 s) :
    MovesR cc r0 (execSpdmKeyExchange c mutAuth owner s) := by
  unfold execSpdmKeyExchange
  with_reducible repeat' first | assumption | apply MovesR.next | apply keyExchange_moves

theorem execSpdmFinish_moves {cc : Bool} {r0 : State} (c : Conn) (mutAuth verified : Bool) (owner : Nat) (s : State) (hm : Moves cc r0 s) :
    MovesR cc r0 (execSpdmFinish c mutAuth verified owner s) := by
  unfold execSpdmFinish
  with_reducible repeat' first | assumption | apply MovesR.next | apply finish_moves

theorem execSpdmKeyUpdate_moves {cc : Bool} {r0 : State} (c : Conn) (s : State) (hm : Moves cc r0 s) :
    MovesR cc r0 (execSpdmKeyUpdate c s) := by
  unfold execSpdmKeyUpdate
  with_reducible repeat' first | assumption | apply MovesR.next | apply keyUpdate_moves

theorem execSpdmEndSession_moves {cc : Bool} {r0 : State} (c : Conn) (s : State) (hm : Moves cc r0 s) :
    MovesR cc r0 (execSpdmEndSession c s) := by
  unfold execSpdmEndSession
  with_reducible repeat' first | assumption | apply MovesR.next | apply endSess_moves

theorem execSpdmSessionLimit_moves {cc : Bool} {r0 : State} (c : Conn) (s : State) (hm : Moves cc r0 s) :
    MovesR cc r0 (execSpdmSessionLimit c s) := by
  unfold execSpdmSessionLimit
  with_reducible repeat' first | assumption | apply MovesR.next | apply sessionLimit_moves

theorem execSpdmChunkGet_moves {cc : Bool} {r0 : State} (c : Conn) (chunk : Nat) (s : State) (hm : Moves cc r0 s) :
    MovesR cc r0 (execSpdmChunkGet c chunk s) := by
  unfold execSpdmChunkGet
  with_reducible repeat' first | assumption | apply MovesR.next | apply chunkGet_moves

theorem execSpdmChunkSend_moves {cc : Bool} {r0 : State} (c : Conn) (chunk : Nat) (last : Bool) (s : State) (hm : Moves cc r0 s) :
    MovesR cc r0 (execSpdmChunkSend c chunk last s) := by
  unfold execSpdmChunkSend
  with_reducible repeat' first | assumption | apply MovesR.next | apply chunkSend_moves

end Sys2Proof.Machine
end

