-- ==== Sys2Proof/Laws/Moves/Mailbox.lean ====
section
/-!
SUPPORT. Laws/Moves/Mailbox.lean: the operations of Machine/Mailbox.lean keep what `Moves` says.
-/

namespace Sys2Proof.Machine

theorem mbx_moves {cc : Bool} {r0 : State} (path : Path) (op : Nat) (f : State → State) (s : State) (hf : ∀ u, Moves cc r0 u → Moves cc r0 (f u)) (hm : Moves cc r0 s) :
    Moves cc r0 (mbx path op f s) := by
  unfold mbx
  with_reducible repeat' first
    | assumption | apply Moves.ite | apply hf | apply guarded_moves | apply setF_moves | apply happen_moves | intro _

theorem mbxWait_moves {cc : Bool} {r0 : State} (op n : Nat) (s : State) (hm : Moves cc r0 s) :
    Moves cc r0 (mbxWait op n s) := by
  unfold mbxWait
  with_reducible repeat' first
    | exact fun _ => rfl | apply mbxSettle_moves | apply setF_moves | (apply Moves.mk; assumption)

theorem mbxKeyErase_moves {cc : Bool} {r0 : State} (path : Path) (s : State) (hm : Moves cc r0 s) :
    Moves cc r0 (mbxKeyErase path s) := by
  unfold mbxKeyErase
  with_reducible repeat' first
    | assumption | apply Moves.ite | apply mbx_moves | apply mbxEnd_moves | apply mbxWait_moves
    | apply eraseSlot_moves | apply Moves.foldl | intro _

theorem endSessions_moves {cc : Bool} {r0 : State} (f : Nat → Bool) (s : State) (hm : Moves cc r0 s) :
    Moves cc r0 (endSessions f s) := by
  unfold endSessions
  with_reducible repeat' first
    | assumption | exact fun _ => rfl | (apply Moves.mk; assumption) | apply Moves.foldl | intro _

theorem mbxSessionEnd_moves {cc : Bool} {r0 : State} (path : Path) (s : State) (hm : Moves cc r0 s) :
    Moves cc r0 (mbxSessionEnd path s) := by
  unfold mbxSessionEnd
  with_reducible repeat' first
    | assumption | apply Moves.ite | apply mbx_moves | apply mbxEnd_moves | apply endSessions_moves
    | apply endSession_moves | intro _ | extract_lets | split

theorem putBuf_moves {cc : Bool} {r0 : State} (off : Nat) (l : List Byte) (s : State) (hm : Moves cc r0 s) :
    Moves cc r0 (putBuf off l s) := by
  unfold putBuf
  with_reducible repeat' first | exact fun _ => rfl | (apply Moves.mk; assumption)

theorem mbxChallenge_moves {cc : Bool} {r0 : State} (path : Path) (s : State) (hm : Moves cc r0 s) :
    Moves cc r0 (mbxChallenge path s) := by
  unfold mbxChallenge
  with_reducible repeat' first
    | assumption | exact fun _ => rfl | apply mbx_moves | apply tick_moves | apply mbxEnd_moves | apply putBuf_moves
    | (apply Moves.mk; assumption) | intro _

theorem authBad_moves {cc : Bool} {r0 : State} (r : Nat) (s : State) (hm : Moves cc r0 s) :
    Moves cc r0 (authBad r s) := by
  unfold authBad
  with_reducible repeat' first | assumption | apply mbxEnd_moves | apply authFail_moves

theorem authorise_moves {cc : Bool} {r0 : State} (a : Authorisation) (f : State → State) (s : State) (hf : ∀ u, Moves cc r0 u → Moves cc r0 (f u)) (hm : Moves cc r0 s) :
    Moves cc r0 (authorise a f s) := by
  unfold authorise
  with_reducible repeat' first
    | assumption | exact fun _ => rfl | apply Moves.ite | apply hf | apply authBad_moves
    | (apply Moves.mk; assumption) | intro _

theorem mbxUnlock_moves {cc : Bool} {r0 : State} (path : Path) (a : Authorisation) (s : State) (hm : Moves cc r0 s) :
    Moves cc r0 (mbxUnlock path a s) := by
  unfold mbxUnlock
  with_reducible repeat' first
    | assumption | apply Moves.ite | apply mbx_moves | apply mbxEnd_moves | apply authorise_moves
    | apply mbxWait_moves | apply eraseSlot_moves | apply Moves.foldl | intro _

theorem mbxSvn_moves {cc : Bool} {r0 : State} (path : Path) (readBack : Bool) (s : State) (hm : Moves cc r0 s) :
    Moves cc r0 (mbxSvn path readBack s) := by
  unfold mbxSvn
  with_reducible repeat' first
    | assumption | apply Moves.ite | apply mbx_moves | apply mbxEnd_moves | apply setF_moves | apply tick_moves
    | apply happen_moves | intro _

theorem mbxRevoke_moves {cc : Bool} {r0 : State} (path : Path) (a : Authorisation) (s : State) (hm : Moves cc r0 s) :
    Moves cc r0 (mbxRevoke path a s) := by
  unfold mbxRevoke
  with_reducible repeat' first
    | assumption | apply Moves.ite | apply mbx_moves | apply mbxEnd_moves | apply authorise_moves | apply happen_moves
    | apply setF_moves | intro _

theorem mbxWrite_moves {cc : Bool} {r0 : State} (path : Path) (v : Nat) (s : State) (hm : Moves cc r0 s) :
    Moves cc r0 (mbxWrite path v s) := by
  unfold mbxWrite
  with_reducible repeat' first
    | assumption | apply mbxKeyErase_moves | apply mbxSessionEnd_moves | apply mbxChallenge_moves
    | apply mbxUnlock_moves | apply mbxSvn_moves | apply mbxRevoke_moves | apply mbx_moves | apply mbxEnd_moves
    | split

theorem rejected_moves {cc : Bool} {r0 : State} (n : Nat) (s : State) (hm : Moves cc r0 s) :
    Moves cc r0 (rejected n s) := by
  unfold rejected
  with_reducible repeat' first | assumption | apply happen_moves | apply noteErr_moves

theorem showImage_moves {cc : Bool} {r0 : State} (s : State) (hm : Moves cc r0 s) :
    Moves cc r0 (showImage s) := by
  unfold showImage
  with_reducible repeat' first | assumption | apply setR_moves | apply setF_moves

theorem execMbxKeyErase_moves {cc : Bool} {r0 : State} (path : Path) (s : State) (hm : Moves cc r0 s) :
    MovesR cc r0 (execMbxKeyErase path s) := by
  unfold execMbxKeyErase
  with_reducible repeat' first | assumption | apply MovesR.next | apply mbxKeyErase_moves

theorem execMbxSessionEnd_moves {cc : Bool} {r0 : State} (path : Path) (s : State) (hm : Moves cc r0 s) :
    MovesR cc r0 (execMbxSessionEnd path s) := by
  unfold execMbxSessionEnd
  with_reducible repeat' first | assumption | apply MovesR.next | apply mbxSessionEnd_moves

theorem execMbxChallenge_moves {cc : Bool} {r0 : State} (path : Path) (s : State) (hm : Moves cc r0 s) :
    MovesR cc r0 (execMbxChallenge path s) := by
  unfold execMbxChallenge
  with_reducible repeat' first | assumption | apply MovesR.next | apply mbxChallenge_moves

theorem execMbxDebugUnlock_moves {cc : Bool} {r0 : State} (path : Path) (auth : Authorisation) (s : State) (hm : Moves cc r0 s) :
    MovesR cc r0 (execMbxDebugUnlock path auth s) := by
  unfold execMbxDebugUnlock
  with_reducible repeat' first | assumption | apply MovesR.next | apply mbxUnlock_moves

theorem execMbxSvnCommit_moves {cc : Bool} {r0 : State} (path : Path) (readBack : Bool) (s : State) (hm : Moves cc r0 s) :
    MovesR cc r0 (execMbxSvnCommit path readBack s) := by
  unfold execMbxSvnCommit
  with_reducible repeat' first | assumption | apply MovesR.next | apply mbxSvn_moves

theorem execMbxRootRevoke_moves {cc : Bool} {r0 : State} (path : Path) (auth : Authorisation) (s : State) (hm : Moves cc r0 s) :
    MovesR cc r0 (execMbxRootRevoke path auth s) := by
  unfold execMbxRootRevoke
  with_reducible repeat' first | assumption | apply MovesR.next | apply mbxRevoke_moves

end Sys2Proof.Machine
end

