-- ==== Sys2Proof/Laws/Moves/Firmware.lean ====
section
/-!
SUPPORT. Laws/Moves/Firmware.lean: the operations of Machine/Firmware.lean keep what `Moves` says.
-/

namespace Sys2Proof.Machine

theorem stagePiece_moves {cc : Bool} {r0 : State} (fn off len data : Nat) (s : State) (hm : Moves cc r0 s) :
    MovesP cc r0 (stagePiece fn off len data s) := by
  unfold stagePiece
  with_reducible repeat' first
    | assumption | exact fun _ => rfl | apply MovesP.ite | apply MovesP.pair | (apply Moves.mk; assumption) | split
    | intro _

theorem stagePiece_movesE {cc : Bool} {r0 : State} {fn off len data : Nat} {s : State} {a0} {t0 : State} (hm : Moves cc r0 s) (e : stagePiece fn off len data s = (a0, t0)) :
    Moves cc r0 t0 := stagePiece_moves _ _ _ _ _ hm _ _ e

theorem fwDownload_moves {cc : Bool} {r0 : State} (h : CmdHead) (off len data : Nat) (s : State) (hm : Moves cc r0 s) :
    Moves cc r0 (fwDownload h off len data s) := by
  unfold fwDownload
  with_reducible repeat' first
    | assumption | apply adminCmd_moves | (apply MovesP.snd; apply stagePiece_moves) | apply answer_moves | intro _

theorem setSlotFw_moves {cc : Bool} {r0 : State} (k : Nat) (v : FwSlot) (s : State) (hm : Moves cc r0 s) :
    Moves cc r0 (setSlotFw k v s) := by
  unfold setSlotFw
  with_reducible repeat' first | exact fun _ => rfl | (apply Moves.mk; assumption)

theorem commitEnd_moves {cc : Bool} {r0 : State} (c : FwCommit) (st : Sts) (s : State) (hm : Moves cc r0 s) :
    Moves cc r0 (commitEnd c st s) := by
  unfold commitEnd
  with_reducible repeat' first
    | exact fun _ => rfl | apply Moves.ite | apply ready_moves | apply emit_moves | (apply Moves.mk; assumption)
    | intro _ | extract_lets | split

theorem pendSlot_moves {cc : Bool} {r0 : State} (fs : Nat) (s : State) (hm : Moves cc r0 s) :
    Moves cc r0 (pendSlot fs s) := by
  unfold pendSlot
  with_reducible repeat' first | exact fun _ => rfl | apply setF_moves | (apply Moves.mk; assumption)

theorem startFor_moves {cc : Bool} {r0 : State} (fs : Nat) (s : State) (hm : Moves cc r0 s) :
    Moves cc r0 (startFor fs s) := by
  unfold startFor
  with_reducible repeat' first | exact fun _ => rfl | (apply Moves.mk; assumption)

theorem activateOnReset_moves {cc : Bool} {r0 : State} (c : FwCommit) (s : State) (hm : Moves cc r0 s) :
    Moves cc r0 (activateOnReset c s) := by
  unfold activateOnReset
  with_reducible repeat' first
    | assumption | exact fun _ => rfl | apply Moves.ite | apply commitEnd_moves | apply pendSlot_moves
    | (apply Moves.mk; assumption) | intro _

theorem commitRefused_moves {cc : Bool} {r0 : State} (c : FwCommit) (n : Nat) (s : State) (hm : Moves cc r0 s) :
    Moves cc r0 (commitRefused c n s) := by
  unfold commitRefused
  with_reducible repeat' first | assumption | apply commitEnd_moves | apply rejected_moves

theorem commitStart_moves {cc : Bool} {r0 : State} (c0 : FwCommit) (s : State) (hm : Moves cc r0 s) : Moves cc r0 (commitStart c0 s) := by
  unfold commitStart
  extract_lets fs s1 _ img
  refine .ite (fun _ => .mk (commitEnd_moves _ _ _ hm) (fun _ => rfl)) (fun _ => .ite (fun _ => commitEnd_moves _ _ _ hm)
    (fun _ => .ite (fun _ => commitEnd_moves _ _ _ hm) (fun _ => ?_)))
  clear_value img
  cases img with
  | none => exact commitRefused_moves _ _ _ hm
  | some i =>
    exact .ite (fun _ => commitRefused_moves _ _ _ hm) (fun _ => .ite (fun _ => activateOnReset_moves _ _ hm)
      (fun _ => .mk hm (fun _ => rfl)))

theorem fwCommit_moves {cc : Bool} {r0 : State} (h : CmdHead) (action fs : Nat) (img : ImageInfo) (s : State) (hm : Moves cc r0 s) :
    Moves cc r0 (fwCommit h action fs img s) := by
  unfold fwCommit
  with_reducible repeat' first
    | assumption | apply adminCmd_moves | (apply MovesP.snd; apply allocCmd_moves) | apply commitStart_moves | intro _

theorem beginAct_moves {cc : Bool} {r0 : State} (c : FwCommit) (s : State) (hm : Moves cc r0 s) :
    Moves cc r0 (beginAct c s) := by
  unfold beginAct
  with_reducible repeat' first | exact fun _ => rfl | apply setF_moves | (apply Moves.mk; assumption)

theorem fwStored_moves {cc : Bool} {r0 : State} (s : State) (hm : Moves cc r0 s) :
    Moves cc r0 (fwStored s) := by
  unfold fwStored
  with_reducible repeat' first
    | assumption | exact fun _ => rfl | apply Moves.ite | apply setSlotFw_moves | apply startFor_moves
    | apply commitEnd_moves | apply activateOnReset_moves | apply beginAct_moves | apply pendSlot_moves | intro _
    | extract_lets | split | (apply Moves.mk; apply setSlotFw_moves)

theorem actLoaded_moves {cc : Bool} {r0 : State} (s : State) (hm : Moves cc r0 s) :
    Moves cc r0 (actLoaded s) := by
  unfold actLoaded
  with_reducible repeat' first
    | assumption | exact fun _ => rfl | apply Moves.ite | apply aen_moves | intro _ | extract_lets | split
    | (apply Moves.mk; apply Moves.foldl)

theorem actPause_moves {cc : Bool} {r0 : State} (s : State) (hm : Moves cc r0 s) :
    Moves cc r0 (actPause s) := by
  unfold actPause
  with_reducible repeat' first
    | assumption | exact fun _ => rfl | apply Moves.ite | apply setF_moves | apply happen_moves | intro _
    | extract_lets | split | (apply Moves.mk; apply Moves.foldl)

theorem actSwitch_moves {cc : Bool} {r0 : State} (s : State) (hm : Moves cc r0 s) :
    Moves cc r0 (actSwitch s) := by
  unfold actSwitch
  with_reducible repeat' first
    | assumption | exact fun _ => rfl | apply Moves.ite | (apply Moves.mk; assumption) | intro _ | extract_lets
    | split

theorem ctrlReset_moves {cc : Bool} {r0 : State} (fn : Nat) (s : State) (hm : Moves cc r0 s) :
    Moves cc r0 (ctrlReset fn s) := by
  unfold ctrlReset
  with_reducible repeat' first
    | assumption | exact fun _ => rfl | apply Moves.ite | apply resetFn_moves | apply rejected_moves
    | apply startFor_moves | apply pendSlot_moves | apply beginAct_moves | intro _ | extract_lets | split
    | (apply Moves.mk; apply resetFn_moves)

theorem afterPause_moves {cc : Bool} {r0 : State} (s : State) (hm : Moves cc r0 s) :
    Moves cc r0 (afterPause s) := by
  unfold afterPause
  with_reducible repeat' first
    | assumption | exact fun _ => rfl | apply ctrlReset_moves | apply flr_moves | apply resetPort_moves
    | apply emit_moves | (apply Moves.mk; assumption) | apply Moves.foldl | intro _ | extract_lets | split
    | (apply Moves.mk; apply Moves.foldl)

theorem endPause_moves {cc : Bool} {r0 : State} (h : Nat) (s : State) (hm : Moves cc r0 s) :
    Moves cc r0 (endPause h s) := by
  unfold endPause
  with_reducible repeat' first
    | assumption | apply afterPause_moves | apply happen_moves | apply setF_moves | apply Moves.foldl | intro _

theorem actEnd_moves {cc : Bool} {r0 : State} (s : State) (hm : Moves cc r0 s) :
    Moves cc r0 (actEnd s) := by
  unfold actEnd
  with_reducible repeat' first
    | assumption | exact fun _ => rfl | apply Moves.ite | apply endPause_moves | apply setF_moves
    | apply showImage_moves | (apply Moves.mk; assumption) | intro _ | extract_lets | split

theorem actAnswer_moves {cc : Bool} {r0 : State} (c : FwCommit) (st : Sts) (s : State) (hm : Moves cc r0 s) :
    Moves cc r0 (actAnswer c st s) := by
  unfold actAnswer
  with_reducible repeat' first | assumption | apply Moves.ite | apply commitEnd_moves | intro _

theorem actDone_moves {cc : Bool} {r0 : State} (s : State) (hm : Moves cc r0 s) :
    Moves cc r0 (actDone s) := by
  unfold actDone
  with_reducible repeat' first
    | assumption | exact fun _ => rfl | apply Moves.ite | apply happen_moves | apply actAnswer_moves
    | apply setF_moves | (apply Moves.mk; assumption) | intro _ | extract_lets | split

theorem actRevert_moves {cc : Bool} {r0 : State} (s : State) (hm : Moves cc r0 s) :
    Moves cc r0 (actRevert s) := by
  unfold actRevert
  with_reducible repeat' first
    | assumption | exact fun _ => rfl | apply Moves.ite | apply happen_moves | apply actAnswer_moves
    | apply setF_moves | intro _ | extract_lets | split | (apply Moves.mk; apply setSlotFw_moves)

theorem actFailed_moves {cc : Bool} {r0 : State} (s : State) (hm : Moves cc r0 s) :
    Moves cc r0 (actFailed s) := by
  unfold actFailed
  with_reducible repeat' first
    | assumption | exact fun _ => rfl | apply Moves.ite | apply fatal_moves | (apply Moves.mk; assumption) | intro _
    | extract_lets | split

theorem execFirmwareImageDownload_moves {cc : Bool} {r0 : State} (h : CmdHead) (offset len data : Nat) (s : State) (hm : Moves cc r0 s) :
    MovesR cc r0 (execFirmwareImageDownload h offset len data s) := by
  unfold execFirmwareImageDownload
  with_reducible repeat' first | assumption | apply MovesR.next | apply fwDownload_moves

theorem execFwCommitStore_moves {cc : Bool} {r0 : State} (h : CmdHead) (fs : Nat) (img : ImageInfo) (s : State) (hm : Moves cc r0 s) :
    MovesR cc r0 (execFwCommitStore h fs img s) := by
  unfold execFwCommitStore
  with_reducible repeat' first | assumption | apply MovesR.next | apply fwCommit_moves

theorem execFwCommitStoreActivateReset_moves {cc : Bool} {r0 : State} (h : CmdHead) (fs : Nat) (img : ImageInfo) (s : State) (hm : Moves cc r0 s) :
    MovesR cc r0 (execFwCommitStoreActivateReset h fs img s) := by
  unfold execFwCommitStoreActivateReset
  with_reducible repeat' first | assumption | apply MovesR.next | apply fwCommit_moves

theorem execFwCommitActivateReset_moves {cc : Bool} {r0 : State} (h : CmdHead) (fs : Nat) (img : ImageInfo) (s : State) (hm : Moves cc r0 s) :
    MovesR cc r0 (execFwCommitActivateReset h fs img s) := by
  unfold execFwCommitActivateReset
  with_reducible repeat' first | assumption | apply MovesR.next | apply fwCommit_moves

theorem execFwCommitActivateNow_moves {cc : Bool} {r0 : State} (h : CmdHead) (fs : Nat) (img : ImageInfo) (s : State) (hm : Moves cc r0 s) :
    MovesR cc r0 (execFwCommitActivateNow h fs img s) := by
  unfold execFwCommitActivateNow
  with_reducible repeat' first | assumption | apply MovesR.next | apply fwCommit_moves

theorem execFwImageStored_moves {cc : Bool} {r0 : State} (s : State) (hm : Moves cc r0 s) :
    MovesR cc r0 (execFwImageStored s) := by
  unfold execFwImageStored
  with_reducible repeat' first | assumption | apply MovesR.next | apply fwStored_moves

theorem execActivationStandbyLoaded_moves {cc : Bool} {r0 : State} (s : State) (hm : Moves cc r0 s) :
    MovesR cc r0 (execActivationStandbyLoaded s) := by
  unfold execActivationStandbyLoaded
  with_reducible repeat' first | assumption | apply MovesR.next | apply actLoaded_moves

theorem execActivationPauseStart_moves {cc : Bool} {r0 : State} (s : State) (hm : Moves cc r0 s) :
    MovesR cc r0 (execActivationPauseStart s) := by
  unfold execActivationPauseStart
  with_reducible repeat' first | assumption | apply MovesR.next | apply actPause_moves

theorem execActivationBankSwitch_moves {cc : Bool} {r0 : State} (s : State) (hm : Moves cc r0 s) :
    MovesR cc r0 (execActivationBankSwitch s) := by
  unfold execActivationBankSwitch
  with_reducible repeat' first | assumption | apply MovesR.next | apply actSwitch_moves

theorem execActivationPauseEnd_moves {cc : Bool} {r0 : State} (s : State) (hm : Moves cc r0 s) :
    MovesR cc r0 (execActivationPauseEnd s) := by
  unfold execActivationPauseEnd
  with_reducible repeat' first | assumption | apply MovesR.next | apply actEnd_moves

theorem execActivationDone_moves {cc : Bool} {r0 : State} (s : State) (hm : Moves cc r0 s) :
    MovesR cc r0 (execActivationDone s) := by
  unfold execActivationDone
  with_reducible repeat' first | assumption | apply MovesR.next | apply actDone_moves

theorem execActivationRevert_moves {cc : Bool} {r0 : State} (s : State) (hm : Moves cc r0 s) :
    MovesR cc r0 (execActivationRevert s) := by
  unfold execActivationRevert
  with_reducible repeat' first | assumption | apply MovesR.next | apply actRevert_moves

theorem execActivationFailed_moves {cc : Bool} {r0 : State} (s : State) (hm : Moves cc r0 s) :
    MovesR cc r0 (execActivationFailed s) := by
  unfold execActivationFailed
  with_reducible repeat' first | assumption | apply MovesR.next | apply actFailed_moves

theorem execControllerReset_moves {cc : Bool} {r0 : State} (fn : Nat) (s : State) (hm : Moves cc r0 s) :
    MovesR cc r0 (execControllerReset fn s) := by
  unfold execControllerReset
  with_reducible repeat' first | assumption | apply MovesR.next | apply orPaused_moves | apply ctrlReset_moves

end Sys2Proof.Machine
end

