-- ==== Sys2Proof/Laws/Moves/Window.lean ====
section
/-!
SUPPORT. Laws/Moves/Window.lean: the operations of Machine/Window.lean keep what `Moves` says.
-/

namespace Sys2Proof.Machine

theorem clearRc_moves {cc : Bool} {r0 : State} (a : Nat) (s : State) (hm : Moves cc r0 s) :
    Moves cc r0 (clearRc a s) := by
  unfold clearRc
  with_reducible repeat' first | assumption | apply Moves.ite | apply setF_moves | apply Moves.foldl | intro _ | split

theorem readErrInfo_moves {cc : Bool} {r0 : State} (base : Nat) (s : State) (hm : Moves cc r0 s) :
    Moves cc r0 (readErrInfo base s) := by
  unfold readErrInfo
  with_reducible repeat' first | exact fun _ => rfl | apply setR_moves | (apply Moves.mk; assumption)

theorem readEffect_moves {cc : Bool} {r0 : State} (a : Nat) (s : State) (hm : Moves cc r0 s) : Moves cc r0 (readEffect a s) := by
  unfold readEffect
  refine .ite (fun _ => .ite (fun _ => .mk hm (fun _ => rfl)) (fun _ => hm)) (fun _ => ?_)
  split
  · exact hm
  · extract_lets s1 s2 _ s3
    have h1 : Moves cc r0 s1 := by
      unfold s1
      split
      · exact setR_moves _ _ _ hm
      · exact hm
    have h2 : Moves cc r0 s2 := .ite (fun _ => readErrInfo_moves _ _ h1) (fun _ => clearRc_moves _ _ h1)
    have h3 : Moves cc r0 s3 := .ite (fun _ => .mk h2 (fun _ => rfl)) (fun _ => h2)
    exact .ite (fun _ => tick_moves _ h3) (fun _ => h3)

theorem readWord_moves {cc : Bool} {r0 : State} (path : Path) (a : Nat) (s : State) (hm : Moves cc r0 s) :
    MovesP cc r0 (readWord path a s) := by
  unfold readWord
  with_reducible repeat' first
    | assumption | apply MovesP.pair | apply readEffect_moves | apply accessDisabled_moves | apply accessStall_moves
    | split

theorem readWord_movesE {cc : Bool} {r0 : State} {path : Path} {a : Nat} {s : State} {a0} {t0 : State} (hm : Moves cc r0 s) (e : readWord path a s = (a0, t0)) :
    Moves cc r0 t0 := readWord_moves _ _ _ hm _ _ e

theorem readOut_moves {cc : Bool} {r0 : State} (path : Path) (a : Nat) (s : State) (hm : Moves cc r0 s) :
    Moves cc r0 (readOut path a s) := by
  unfold readOut
  with_reducible repeat' first | assumption | apply emit_moves | refine readWord_movesE ?_ ‹_› | split

theorem nowAsserted_moves {cc : Bool} {r0 : State} (base : Nat) (s0 s : State) (hm : Moves cc r0 s) :
    Moves cc r0 (nowAsserted base s0 s) := by
  unfold nowAsserted
  with_reducible repeat' first | assumption | apply Moves.ite | apply onAssert_moves | apply Moves.foldl | intro _

theorem plainWrite_moves {cc : Bool} {r0 : State} (a v : Nat) (s : State) (hm : Moves cc r0 s) :
    Moves cc r0 (plainWrite a v s) := by
  unfold plainWrite
  with_reducible repeat' first
    | assumption | apply Moves.ite | apply setR_moves | apply nowAsserted_moves | intro _ | split

theorem compatWrite_moves {cc : Bool} {r0 : State} (v : Nat) (s : State) (hm : Moves cc r0 s) :
    Moves cc r0 (compatWrite v s) := by
  unfold compatWrite
  with_reducible repeat' first
    | assumption | exact fun _ => rfl | apply Moves.ite | apply setF_moves | apply happen_moves
    | (apply Moves.mk; assumption) | intro _ | extract_lets | split | (apply Moves.mk; apply setF_moves)

theorem restartWrite_moves {cc : Bool} {r0 : State} (s : State) (hm : Moves cc r0 s) :
    Moves cc r0 (restartWrite s) := by
  unfold restartWrite
  with_reducible repeat' first
    | assumption | exact fun _ => rfl | apply Moves.ite | (apply Moves.mk; assumption) | intro _

theorem ledgerClear_moves {cc : Bool} {r0 : State} (s : State) (hm : Moves cc r0 s) :
    Moves cc r0 (ledgerClear s) := by
  unfold ledgerClear
  with_reducible repeat' first | assumption | apply setF_moves

theorem topCtrl_moves {cc : Bool} {r0 : State} (v : Nat) (s : State) (hm : Moves cc r0 s) :
    Moves cc r0 (topCtrl v s) := by
  unfold topCtrl
  with_reducible repeat' first
    | assumption | apply Moves.ite | apply ledgerClear_moves | apply restartWrite_moves | intro _

theorem recCtrlWrite_moves {cc : Bool} {r0 : State} (v : Nat) (s : State) (hm : Moves cc r0 s) :
    Moves cc r0 (recCtrlWrite v s) := by
  unfold recCtrlWrite
  with_reducible repeat' first
    | assumption | apply Moves.ite | apply startFreeze_moves | apply thaw_moves | apply recNextDo_moves
    | apply snapshot_moves | intro _ | extract_lets | split

theorem sortCmdWrite_moves {cc : Bool} {r0 : State} (v : Nat) (s : State) (hm : Moves cc r0 s) :
    Moves cc r0 (sortCmdWrite v s) := by
  unfold sortCmdWrite
  with_reducible repeat' first
    | assumption | apply insertDo_moves | apply deleteDo_moves | apply invalidateDo_moves | apply saveDo_moves
    | extract_lets | split

theorem tileCmdWrite_moves {cc : Bool} {r0 : State} (t v : Nat) (s : State) (hm : Moves cc r0 s) :
    Moves cc r0 (tileCmdWrite t v s) := by
  unfold tileCmdWrite
  with_reducible repeat' first | assumption | apply Moves.ite | (apply MovesP.snd; apply tileOp_moves) | intro _

theorem linkCtrlWrite_moves {cc : Bool} {r0 : State} (p v : Nat) (s : State) (hm : Moves cc r0 s) :
    Moves cc r0 (linkCtrlWrite p v s) := by
  unfold linkCtrlWrite
  with_reducible repeat' first | assumption | apply Moves.ite | apply plainWrite_moves | apply retrain_moves | intro _

theorem mapCfgWrite_moves {cc : Bool} {r0 : State} (c v : Nat) (s : State) (hm : Moves cc r0 s) :
    Moves cc r0 (mapCfgWrite c v s) := by
  unfold mapCfgWrite
  with_reducible repeat' first | assumption | apply Moves.ite | apply plainWrite_moves | apply setF_moves | intro _

theorem hodReset_moves {cc : Bool} {r0 : State} (s : State) (hm : Moves cc r0 s) : Moves cc r0 (hodReset s) := by
  unfold hodReset
  refine .ite (fun _ => ?_) (fun _ => hm)
  exact hm.trans ⟨rfl, Nat.le_refl _, fun w => twf_filter _ _ _ w, fun _ => rfl⟩

theorem softReset_moves {cc : Bool} {r0 : State} (base : Nat) (s : State) (hm : Moves cc r0 s) :
    Moves cc r0 (softReset base s) := by
  unfold softReset
  with_reducible repeat' first
    | assumption | exact fun _ => rfl | apply Moves.ite | apply hodReset_moves | apply abortCh_moves
    | (apply Moves.mk; assumption) | apply Moves.foldl | intro _

theorem enableWrite_moves {cc : Bool} {r0 : State} (base : Nat) (on : Bool) (s : State) (hm : Moves cc r0 s) :
    Moves cc r0 (enableWrite base on s) := by
  unfold enableWrite
  with_reducible repeat' first | assumption | apply Moves.ite | apply noteErr_moves | apply setF_moves | intro _

theorem domainUp_moves {cc : Bool} {r0 : State} (d : Nat) (s : State) (hm : Moves cc r0 s) :
    Moves cc r0 (domainUp d s) := by
  unfold domainUp
  with_reducible repeat' first | exact fun _ => rfl | (apply Moves.mk; assumption)

theorem voteWrite_moves {cc : Bool} {r0 : State} (base v : Nat) (s : State) (hm : Moves cc r0 s) :
    Moves cc r0 (voteWrite base v s) := by
  unfold voteWrite
  with_reducible repeat' first
    | assumption | exact fun _ => rfl | apply Moves.ite | apply setF_moves | apply domainUp_moves | intro _
    | extract_lets | split | (apply Moves.mk; apply setF_moves)

theorem blkCtrlWrite_moves {cc : Bool} {r0 : State} (base v : Nat) (s : State) (hm : Moves cc r0 s) :
    Moves cc r0 (blkCtrlWrite base v s) := by
  unfold blkCtrlWrite
  with_reducible repeat' first
    | assumption | apply Moves.ite | apply voteWrite_moves | apply enableWrite_moves | apply softReset_moves | intro _

theorem voteDown_moves {cc : Bool} {r0 : State} (d : Nat) (s : State) (hm : Moves cc r0 s) :
    Moves cc r0 (voteDown d s) := by
  unfold voteDown
  with_reducible repeat' first
    | assumption | exact fun _ => rfl | apply Moves.ite | apply setHod_moves | apply setF_moves
    | (apply Moves.mk; assumption) | intro _ | extract_lets | split | (apply Moves.mk; apply Moves.foldl)

theorem voteDrains_moves {cc : Bool} {r0 : State} (s : State) (hm : Moves cc r0 s) :
    Moves cc r0 (voteDrains s) := by
  unfold voteDrains
  with_reducible repeat' first | assumption | apply voteDown_moves | apply Moves.foldl | intro _

theorem writeCommon_moves {cc : Bool} {r0 : State} (base o v : Nat) (s : State) (hm : Moves cc r0 s) :
    Moves cc r0 (writeCommon base o v s) := by
  unfold writeCommon
  with_reducible repeat' first
    | assumption | apply blkCtrlWrite_moves | apply enWrite_moves | apply pendWrite_moves | apply forceWrite_moves
    | apply plainWrite_moves | split

theorem writeLow_moves {cc : Bool} {r0 : State} (ty inst o v : Nat) (f : State → State) (e : writeLow ty inst o v = some f) (s : State)
    (hm : Moves cc r0 s) : Moves cc r0 (f s) := by
  unfold writeLow at e
  dsimp only at e
  repeat' split at e
  all_goals first
    | cases e
    | skip
  all_goals first
    | with_reducible exact compatWrite_moves _ _ hm
    | with_reducible exact topCtrl_moves _ _ hm
    | with_reducible exact minLevelWrite_moves _ _ hm
    | with_reducible exact ctrlWrite_moves _ _ hm
    | with_reducible exact offsetWrite_moves _ _ hm
    | with_reducible exact originWrite_moves _ _ _ hm
    | with_reducible exact routeWrite_moves _ _ _ hm
    | with_reducible exact fwRaise_moves _ _ hm
    | with_reducible exact recCtrlWrite_moves _ _ hm
    | with_reducible exact recCursorDo_moves _ _ hm
    | with_reducible exact mapCfgWrite_moves _ _ _ hm
    | with_reducible exact sortCfg_moves _ _ hm
    | with_reducible exact sortCmdWrite_moves _ _ hm

theorem writeHigh_moves {cc : Bool} {r0 : State} (path : Path) (ty inst o v : Nat) (s' : State) (f : State → State)
    (e : writeHigh path ty inst o v s' = some f) (s : State) (hm : Moves cc r0 s) : Moves cc r0 (f s) := by
  unfold writeHigh at e
  dsimp only at e
  repeat' split at e
  all_goals first
    | cases e
    | skip
  all_goals first
    | exact hm
    | (show Moves cc r0 s; with_reducible exact hm)
    | with_reducible exact swreqWrite_moves _ _ hm
    | with_reducible exact ctrlCh_moves _ _ _ hm
    | with_reducible exact nextWrite_moves _ _ _ _ hm
    | with_reducible exact mbxWrite_moves _ _ _ hm
    | with_reducible exact putBuf_moves _ _ _ hm
    | with_reducible exact linkCtrlWrite_moves _ _ _ hm
    | with_reducible exact budgetWrite_moves _ _ hm
    | with_reducible exact yardCfg_moves _ _ hm
    | with_reducible exact tileCmdWrite_moves _ _ _ hm
    | with_reducible exact stageWrite_moves _ _ _ _ hm

theorem writeWord_moves {cc : Bool} {r0 : State} (path : Path) (a v : Nat) (s : State) (hm : Moves cc r0 s) : Moves cc r0 (writeWord path a v s) := by
  unfold writeWord
  refine .ite (fun _ => .ite (fun _ => commitEntry_moves _ _ _ hm) (fun _ => stageWord_moves _ _ _ _ hm)) (fun _ => ?_)
  split
  · refine .ite (fun _ => writeCommon_moves _ _ _ _ hm) (fun _ => ?_)
    split
    · rename_i f e
      rcases h : writeLow _ _ _ v with _ | g
      · rw [h] at e
        exact writeHigh_moves _ _ _ _ _ _ _ e _ hm
      · rw [h] at e
        cases e
        exact writeLow_moves _ _ _ _ _ h _ hm
    · exact plainWrite_moves _ _ _ hm
  · exact hm

theorem partialWrite_moves {cc : Bool} {r0 : State} (a v bytes : Nat) (s : State) (hm : Moves cc r0 s) :
    Moves cc r0 (partialWrite a v bytes s) := by
  unfold partialWrite
  with_reducible repeat' first
    | assumption | apply Moves.ite | apply noteErr_moves | apply writeWord_moves | intro _ | extract_lets | split

theorem writeAccess_moves {cc : Bool} {r0 : State} (path : Path) (a v bytes : Nat) (s : State) (hm : Moves cc r0 s) :
    Moves cc r0 (writeAccess path a v bytes s) := by
  unfold writeAccess
  with_reducible repeat' first
    | assumption | apply Moves.ite | apply writeWord_moves | apply partialWrite_moves | apply accessDisabled_moves
    | apply stallBytes_moves | intro _ | split

theorem mgmtWords_moves {cc : Bool} {r0 : State} (path : Path) (write : Bool) (n a : Nat) (ws : List W32) (data : List Byte) (s : State)
    (hm : Moves cc r0 s) : MovesT cc r0 (mgmtWords path write n a ws data s) := by
  induction n generalizing a ws data s with
  | zero => exact .trip hm
  | succ n ih =>
    unfold mgmtWords
    split
    · exact .trip (accessStall_moves _ _ _ _ hm)
    · exact .ite (fun _ => ih _ _ _ _ (writeAccess_moves _ _ _ _ _ hm)) (fun _ => ih _ _ _ _ (readWord_movesE hm rfl))

theorem mgmtWords_movesE {cc : Bool} {r0 : State} {path : Path} {write : Bool} {n a : Nat} {ws : List W32} {data : List Byte} {s : State}
    {a0 b0} {t0 : State} (hm : Moves cc r0 s) (e : mgmtWords path write n a ws data s = (a0, b0, t0)) : Moves cc r0 t0 :=
  mgmtWords_moves path write n a ws data s hm _ _ _ e

theorem mgmtEnd_moves {cc : Bool} {r0 : State} (cmd : Option Nat) (tag : Nat) (data : List Byte) (s : State) (hm : Moves cc r0 s) :
    Moves cc r0 (mgmtEnd cmd tag data s) := by
  unfold mgmtEnd
  with_reducible repeat' first | assumption | apply Moves.ite | apply ready_moves | apply emit_moves | intro _ | split

theorem mgmtGo_moves {cc : Bool} {r0 : State} (path : Path) (cmd : Option Nat) (tag a n : Nat) (write : Bool) (ws : List W32)
    (data : List Byte) (s : State) (hm : Moves cc r0 s) : Moves cc r0 (mgmtGo path cmd tag a n write ws data s) := by
  unfold mgmtGo
  split
  · exact mgmtEnd_moves _ _ _ _ (mgmtWords_movesE hm ‹_›)
  · exact .mk (mgmtWords_movesE hm ‹_›) (fun _ => rfl)

theorem mgmtResume_moves {cc : Bool} {r0 : State} (s : State) (hm : Moves cc r0 s) :
    Moves cc r0 (mgmtResume s) := by
  unfold mgmtResume
  with_reducible repeat' first
    | exact fun _ => rfl | apply mgmtGo_moves | (apply Moves.mk; assumption) | apply Moves.foldl | intro _

theorem mgmtCmd_moves {cc : Bool} {r0 : State} (h : CmdHead) (op off count : Nat) (write : Bool) (words : List W32) (s : State) (hm : Moves cc r0 s) :
    Moves cc r0 (mgmtCmd h op off count write words s) := by
  unfold mgmtCmd
  with_reducible repeat' first
    | assumption | apply Moves.ite | apply adminCmd_moves | apply answer_moves
    | (apply MovesP.snd; apply allocCmd_moves) | apply mgmtGo_moves | intro _

theorem releaseStalled_moves {cc : Bool} {r0 : State} (s : State) (hm : Moves cc r0 s) :
    Moves cc r0 (releaseStalled s) := by
  unfold releaseStalled
  with_reducible repeat' first
    | assumption | exact fun _ => rfl | apply Moves.ite | apply mgmtResume_moves | apply writeWord_moves
    | apply partialWrite_moves | apply emit_moves | apply readEffect_moves | (apply Moves.mk; assumption) | apply Moves.foldl | intro _
    | extract_lets | split

theorem domainWoken_moves {cc : Bool} {r0 : State} (s : State) (hm : Moves cc r0 s) :
    Moves cc r0 (domainWoken s) := by
  unfold domainWoken
  with_reducible repeat' first | assumption | apply releaseStalled_moves | apply wakeDone_moves

theorem mgmtTimeout_moves {cc : Bool} {r0 : State} (a : Nat) (isWrite : Bool) (s : State) (hm : Moves cc r0 s) :
    Moves cc r0 (mgmtTimeout a isWrite s) := by
  unfold mgmtTimeout
  with_reducible repeat' first
    | assumption | exact fun _ => rfl | apply mgmtGo_moves | (apply Moves.mk; assumption) | extract_lets | split

theorem inWindow_moves {cc : Bool} {r0 : State} (a : Nat) (f : State → State) (s : State) (hf : ∀ u, Moves cc r0 u → Moves cc r0 (f u)) (hm : Moves cc r0 s) :
    MovesR cc r0 (inWindow a f s) := by
  unfold inWindow
  with_reducible repeat' first
    | assumption | apply hf | apply MovesR.ite | apply MovesR.next | exact MovesR.fault _ | intro _

theorem onPage_moves {cc : Bool} {r0 : State} (base : Nat) (f : State → State) (s : State) (hf : ∀ u, Moves cc r0 u → Moves cc r0 (f u)) (hm : Moves cc r0 s) :
    MovesR cc r0 (onPage base f s) := by
  unfold onPage
  with_reducible repeat' first
    | assumption | apply hf | apply MovesR.ite | apply MovesR.next | exact MovesR.fault _ | split | intro _

theorem blkRow_moves {cc : Bool} {r0 : State} (base o v : Nat) (f : State → State) (s : State) (hf : ∀ u, Moves cc r0 u → Moves cc r0 (f u)) (hm : Moves cc r0 s) :
    MovesR cc r0 (blkRow base o v f s) := by
  unfold blkRow
  with_reducible repeat' first | assumption | apply onPage_moves | apply guarded_moves | intro _

theorem execBlkSoftReset_moves {cc : Bool} {r0 : State} (base : Nat) (s : State) (hm : Moves cc r0 s) :
    MovesR cc r0 (execBlkSoftReset base s) := by
  unfold execBlkSoftReset
  with_reducible repeat' first | assumption | apply blkRow_moves | apply softReset_moves

theorem execBlkEnableWrite_moves {cc : Bool} {r0 : State} (base : Nat) (v : W32) (s : State) (hm : Moves cc r0 s) :
    MovesR cc r0 (execBlkEnableWrite base v s) := by
  unfold execBlkEnableWrite
  with_reducible repeat' first | assumption | apply blkRow_moves | apply enableWrite_moves

theorem execBlkPowerVoteWrite_moves {cc : Bool} {r0 : State} (base : Nat) (v : W32) (s : State) (hm : Moves cc r0 s) :
    MovesR cc r0 (execBlkPowerVoteWrite base v s) := by
  unfold execBlkPowerVoteWrite
  with_reducible repeat' first | assumption | apply blkRow_moves | apply voteWrite_moves

theorem execBlkLockSet_moves {cc : Bool} {r0 : State} (base : Nat) (s : State) (hm : Moves cc r0 s) :
    MovesR cc r0 (execBlkLockSet base s) := by
  unfold execBlkLockSet
  with_reducible repeat' first | assumption | apply blkRow_moves | apply setF_moves

theorem execErrInfoRead_moves {cc : Bool} {r0 : State} (base : Nat) (s : State) (hm : Moves cc r0 s) :
    MovesR cc r0 (execErrInfoRead base s) := by
  unfold execErrInfoRead
  with_reducible repeat' first | assumption | apply onPage_moves | apply readOut_moves

theorem execRcCounterRead_moves {cc : Bool} {r0 : State} (a : Nat) (s : State) (hm : Moves cc r0 s) :
    MovesR cc r0 (execRcCounterRead a s) := by
  unfold execRcCounterRead
  with_reducible repeat' first | assumption | apply inWindow_moves | apply readOut_moves

theorem execLatchingLoRead_moves {cc : Bool} {r0 : State} (a : Nat) (s : State) (hm : Moves cc r0 s) :
    MovesR cc r0 (execLatchingLoRead a s) := by
  unfold execLatchingLoRead
  with_reducible repeat' first | assumption | apply inWindow_moves | apply readOut_moves

theorem execDisabledBlockAccess_moves {cc : Bool} {r0 : State} (a : Nat) (isWrite : Bool) (s : State) (hm : Moves cc r0 s) :
    MovesR cc r0 (execDisabledBlockAccess a isWrite s) := by
  unfold execDisabledBlockAccess
  with_reducible repeat' first
    | assumption | apply inWindow_moves | apply accessDisabled_moves | apply emit_moves | split | intro _

theorem execRegisterWrite_moves {cc : Bool} {r0 : State} (path : Path) (a : Nat) (v : W32) (bytes : Nat) (s : State) (hm : Moves cc r0 s) :
    MovesR cc r0 (execRegisterWrite path a v bytes s) := by
  unfold execRegisterWrite
  with_reducible repeat' first | assumption | apply inWindow_moves | apply writeAccess_moves

theorem execManagementRead_moves {cc : Bool} {r0 : State} (h : CmdHead) (offset count : Nat) (s : State) (hm : Moves cc r0 s) :
    MovesR cc r0 (execManagementRead h offset count s) := by
  unfold execManagementRead
  with_reducible repeat' first | assumption | apply MovesR.next | apply mgmtCmd_moves

theorem execManagementWrite_moves {cc : Bool} {r0 : State} (h : CmdHead) (offset : Nat) (words : List W32) (s : State) (hm : Moves cc r0 s) :
    MovesR cc r0 (execManagementWrite h offset words s) := by
  unfold execManagementWrite
  with_reducible repeat' first | assumption | apply MovesR.next | apply mgmtCmd_moves

theorem execDomainWakeDone_moves {cc : Bool} {r0 : State} (s : State) (hm : Moves cc r0 s) :
    MovesR cc r0 (execDomainWakeDone s) := by
  unfold execDomainWakeDone
  with_reducible repeat' first | assumption | apply MovesR.next | apply domainWoken_moves

theorem execAccessStallTimeout_moves {cc : Bool} {r0 : State} (addr : Nat) (isWrite : Bool) (s : State) (hm : Moves cc r0 s) :
    MovesR cc r0 (execAccessStallTimeout addr isWrite s) := by
  unfold execAccessStallTimeout
  with_reducible repeat' first | assumption | apply MovesR.next | apply mgmtTimeout_moves | apply stallTimeout_moves

theorem execTopCompatWrite_moves {cc : Bool} {r0 : State} (v : W32) (s : State) (hm : Moves cc r0 s) :
    MovesR cc r0 (execTopCompatWrite v s) := by
  unfold execTopCompatWrite
  with_reducible repeat' first | assumption | apply MovesR.next | apply guarded_moves | apply compatWrite_moves

theorem execTopLedgerClear_moves {cc : Bool} {r0 : State} (s : State) (hm : Moves cc r0 s) :
    MovesR cc r0 (execTopLedgerClear s) := by
  unfold execTopLedgerClear
  with_reducible repeat' first | assumption | apply MovesR.next | apply guarded_moves | apply ledgerClear_moves

theorem execTopRestart_moves {cc : Bool} {r0 : State} (s : State) (hm : Moves cc r0 s) :
    MovesR cc r0 (execTopRestart s) := by
  unfold execTopRestart
  with_reducible repeat' first | assumption | apply MovesR.next | apply guarded_moves | apply restartWrite_moves

end Sys2Proof.Machine
end

