-- ==== Sys2Proof/Laws/Moves/HodBurst.lean ====
section
/-!
SUPPORT. Laws/Moves/HodBurst.lean: the operations of Machine/HodBurst.lean keep what `Moves` says.
-/

namespace Sys2Proof.Machine

theorem readGroup_moves {cc : Bool} {r0 : State} (w : Nat) (l : List (Nat × Nat)) (s : State) (hm : Moves cc r0 s) :
    MovesP cc r0 (readGroup w l s) := by
  unfold readGroup
  with_reducible repeat' first
    | assumption | apply MovesP.pair | apply tick_moves | split | refine readWord_movesE ?_ ‹_›

theorem readGroup_movesE {cc : Bool} {r0 : State} {w : Nat} {l : List (Nat × Nat)} {s : State} {a0} {t0 : State} (hm : Moves cc r0 s) (e : readGroup w l s = (a0, t0)) :
    Moves cc r0 t0 := readGroup_moves _ _ _ hm _ _ e

theorem readBytes_moves {cc : Bool} {r0 : State} (as : List Nat) (s : State) (hm : Moves cc r0 s) : MovesP cc r0 (readBytes as s) := by
  unfold readBytes
  refine foldl_movesP (fun _ _ e => by cases e; exact hm) (fun acc g h => .pair (readGroup_movesE (h _ _ rfl) rfl))

theorem readBytes_movesE {cc : Bool} {r0 : State} {as : List Nat} {s : State} {a0} {t0 : State} (hm : Moves cc r0 s) (e : readBytes as s = (a0, t0)) :
    Moves cc r0 t0 := readBytes_moves _ _ hm _ _ e

theorem putHodByte_moves {cc : Bool} {r0 : State} (a v : Nat) (s : State) (hm : Moves cc r0 s) :
    Moves cc r0 (putHodByte a v s) := by
  unfold putHodByte
  with_reducible repeat' first | assumption | apply setLine_moves | apply setSlot_moves | apply emit_moves | split

theorem writeGroup_moves {cc : Bool} {r0 : State} (w : Nat) (l : List (Nat × Nat)) (s : State) (hm : Moves cc r0 s) :
    Moves cc r0 (writeGroup w l s) := by
  unfold writeGroup
  with_reducible repeat' first
    | assumption | apply writeAccess_moves | apply emit_moves | apply putHodByte_moves | apply Moves.foldl | intro _
    | split

theorem writeBytes_moves {cc : Bool} {r0 : State} (l : List (Nat × Nat)) (s : State) (hm : Moves cc r0 s) :
    Moves cc r0 (writeBytes l s) := by
  unfold writeBytes
  with_reducible repeat' first | assumption | apply writeGroup_moves | apply Moves.foldl | intro _

theorem countMoved_moves {cc : Bool} {r0 : State} (k n : Nat) (s : State) (hm : Moves cc r0 s) :
    Moves cc r0 (countMoved k n s) := by
  unfold countMoved
  with_reducible repeat' first | exact fun _ => rfl | apply addF_moves | (apply Moves.mk; assumption)

theorem ackBurst_moves {cc : Bool} {r0 : State} (k : Nat) (s : State) (hm : Moves cc r0 s) :
    Moves cc r0 (ackBurst k s) := by
  unfold ackBurst
  with_reducible repeat' first
    | assumption | apply Moves.ite | apply domainUp_moves | (apply MovesP.snd; apply readBytes_moves)
    | apply countMoved_moves | apply writeBytes_moves | apply setCh_moves | apply setHod_moves
    | apply settleFinish_moves | intro _ | extract_lets | split

theorem burstIssue_moves {cc : Bool} {r0 : State} (slot : Nat) (acked : List Nat) (s : State) (hm : Moves cc r0 s) :
    Moves cc r0 (burstIssue slot acked s) := by
  unfold burstIssue
  with_reducible repeat' first
    | assumption | apply Moves.ite | apply ackBurst_moves | apply issueBurst_moves | apply Moves.foldl | intro _

theorem transferDone_moves {cc : Bool} {r0 : State} (k : Nat) (s : State) (hm : Moves cc r0 s) :
    Moves cc r0 (transferDone k s) := by
  unfold transferDone
  with_reducible repeat' first | assumption | apply ackBurst_moves | apply Moves.foldl | intro _

theorem readBack_moves {cc : Bool} {r0 : State} (k : Nat) (s : State) (hm : Moves cc r0 s) :
    Moves cc r0 (readBack k s) := by
  unfold readBack
  with_reducible repeat' first
    | assumption | apply Moves.ite | apply readbackDone_moves | (apply MovesP.snd; apply readBytes_moves) | intro _

theorem writeBack_moves {cc : Bool} {r0 : State} (k : Nat) (s : State) (hm : Moves cc r0 s) :
    Moves cc r0 (writeBack k s) := by
  unfold writeBack
  with_reducible repeat' first | assumption | apply writeBytes_moves

theorem descCauses_moves {cc : Bool} {r0 : State} (k : Nat) (s : State) (hm : Moves cc r0 s) :
    Moves cc r0 (descCauses k s) := by
  unfold descCauses
  with_reducible repeat' first
    | assumption | apply Moves.ite | apply addF_moves | apply setF_moves | apply hodCause_moves | apply emit_moves
    | intro _

theorem writebackDone_moves {cc : Bool} {r0 : State} (k : Nat) (s : State) (hm : Moves cc r0 s) :
    Moves cc r0 (writebackDone k s) := by
  unfold writebackDone
  with_reducible repeat' first
    | assumption | apply Moves.ite | apply descCauses_moves | apply writeBack_moves | apply setCh_moves
    | apply hodReset_moves | apply hodHalt_moves | apply setNext_moves | apply setHod_moves | intro _

theorem execHodBurstIssue_moves {cc : Bool} {r0 : State} (slot : Nat) (acked : List Nat) (s : State) (hm : Moves cc r0 s) :
    MovesR cc r0 (execHodBurstIssue slot acked s) := by
  unfold execHodBurstIssue
  with_reducible repeat' first | assumption | apply MovesR.next | apply burstIssue_moves

theorem execHodTransferDone_moves {cc : Bool} {r0 : State} (k : Nat) (s : State) (hm : Moves cc r0 s) :
    MovesR cc r0 (execHodTransferDone k s) := by
  unfold execHodTransferDone
  with_reducible repeat' first | assumption | apply MovesR.next | apply onCh_moves | apply transferDone_moves

theorem execHodReadbackDone_moves {cc : Bool} {r0 : State} (k : Nat) (s : State) (hm : Moves cc r0 s) :
    MovesR cc r0 (execHodReadbackDone k s) := by
  unfold execHodReadbackDone
  with_reducible repeat' first | assumption | apply MovesR.next | apply onCh_moves | apply readBack_moves

theorem execHodWritebackDone_moves {cc : Bool} {r0 : State} (k : Nat) (s : State) (hm : Moves cc r0 s) :
    MovesR cc r0 (execHodWritebackDone k s) := by
  unfold execHodWritebackDone
  with_reducible repeat' first | assumption | apply MovesR.next | apply onCh_moves | apply writebackDone_moves

end Sys2Proof.Machine
end

