-- ==== Sys2Proof/Laws/Moves/Rirus.lean ====
section
/-!
SUPPORT. Laws/Moves/Rirus.lean: the operations of Machine/Rirus.lean keep what `Moves` says.
-/

namespace Sys2Proof.Machine

theorem rirSay_moves {cc : Bool} {r0 : State} (tag st : Nat) (data : List Byte) (s : State) (hm : Moves cc r0 s) :
    Moves cc r0 (rirSay tag st data s) := by
  unfold rirSay
  with_reducible repeat' first | assumption | apply emit_moves

theorem rirSts_moves {cc : Bool} {r0 : State} (tag : Nat) (st : Sts) (data : List Byte) (s : State) (hm : Moves cc r0 s) :
    Moves cc r0 (rirSts tag st data s) := by
  unfold rirSts
  with_reducible repeat' first | assumption | apply Moves.ite | apply rirSay_moves | intro _

theorem rirus_moves {cc : Bool} {r0 : State} (tag : Nat) (n : RirNeed) (inSession : Bool) (f : State → State) (s : State) (hf : ∀ u, Moves cc r0 u → Moves cc r0 (f u)) (hm : Moves cc r0 s) :
    Moves cc r0 (rirus tag n inSession f s) := by
  unfold rirus
  with_reducible repeat' first
    | assumption | apply Moves.ite | apply hf | apply heard_moves | apply rirSay_moves | apply happen_moves
    | apply rirSts_moves | intro _ | extract_lets | split

theorem rirAsk_moves {cc : Bool} {r0 : State} (tag : Nat) (health : Bool) (s : State) (hm : Moves cc r0 s) :
    Moves cc r0 (rirAsk tag health s) := by
  unfold rirAsk
  with_reducible repeat' first
    | assumption | exact fun _ => rfl | apply Moves.ite | apply heard_moves | apply rirSay_moves
    | (apply Moves.mk; assumption) | intro _

theorem rirMgmt_moves {cc : Bool} {r0 : State} (tag off count : Nat) (write : Bool) (words : List W32) (s : State) (hm : Moves cc r0 s) :
    Moves cc r0 (rirMgmt tag off count write words s) := by
  unfold rirMgmt
  with_reducible repeat' first | assumption | apply Moves.ite | apply rirSay_moves | apply mgmtGo_moves | intro _

theorem rirTile_moves {cc : Bool} {r0 : State} (tag t op : Nat) (data : List W32) (s : State) (hm : Moves cc r0 s) :
    Moves cc r0 (rirTile tag t op data s) := by
  unfold rirTile
  with_reducible repeat' first
    | assumption | apply Moves.ite | apply rirSay_moves | (apply MovesP.snd; apply tileOp_moves) | intro _

theorem rirMode_moves {cc : Bool} {r0 : State} (tag m : Nat) (s : State) (hm : Moves cc r0 s) :
    Moves cc r0 (rirMode tag m s) := by
  unfold rirMode
  with_reducible repeat' first
    | assumption | apply rirSay_moves | apply rirSts_moves | apply modeRefused_moves
    | refine modeOutcome_movesE ?_ ‹_› | split

theorem rirLog_moves {cc : Bool} {r0 : State} (tag lid off len : Nat) (s : State) (hm : Moves cc r0 s) : Moves cc r0 (rirLog tag lid off len s) := by
  unfold rirLog
  refine .ite (fun _ => rirSay_moves _ _ _ _ hm) (fun _ => ?_)
  extract_lets l
  clear_value l
  cases l with
  | none => exact rirSay_moves _ _ _ _ hm
  | some d => exact rirSay_moves _ _ _ _ (tick_moves _ hm)

theorem rirRec_moves {cc : Bool} {r0 : State} (tag : Nat) (freeze thawIt : Bool) (s : State) (hm : Moves cc r0 s) :
    Moves cc r0 (rirRec tag freeze thawIt s) := by
  unfold rirRec
  with_reducible repeat' first
    | assumption | apply Moves.ite | apply rirSay_moves | apply startFreeze_moves | apply thaw_moves | intro _

theorem rirDownload_moves {cc : Bool} {r0 : State} (tag off len data : Nat) (s : State) (hm : Moves cc r0 s) :
    Moves cc r0 (rirDownload tag off len data s) := by
  unfold rirDownload
  with_reducible repeat' first | assumption | (apply MovesP.snd; apply stagePiece_moves) | apply rirSts_moves

theorem rirCommit_moves {cc : Bool} {r0 : State} (tag action fs : Nat) (img : ImageInfo) (s : State) (hm : Moves cc r0 s) :
    Moves cc r0 (rirCommit tag action fs img s) := by
  unfold rirCommit
  with_reducible repeat' first | assumption | apply commitStart_moves

theorem execRirusIdentify_moves {cc : Bool} {r0 : State} (tag : Nat) (s : State) (hm : Moves cc r0 s) :
    MovesR cc r0 (execRirusIdentify tag s) := by
  unfold execRirusIdentify
  with_reducible repeat' first | assumption | apply MovesR.next | apply rirAsk_moves

theorem execRirusHealth_moves {cc : Bool} {r0 : State} (tag : Nat) (s : State) (hm : Moves cc r0 s) :
    MovesR cc r0 (execRirusHealth tag s) := by
  unfold execRirusHealth
  with_reducible repeat' first | assumption | apply MovesR.next | apply rirAsk_moves

theorem execRirusMgmtRead_moves {cc : Bool} {r0 : State} (tag offset count : Nat) (s : State) (hm : Moves cc r0 s) :
    MovesR cc r0 (execRirusMgmtRead tag offset count s) := by
  unfold execRirusMgmtRead
  with_reducible repeat' first | assumption | apply MovesR.next | apply rirus_moves | apply rirMgmt_moves

theorem execRirusMgmtWrite_moves {cc : Bool} {r0 : State} (tag : Nat) (inSession : Bool) (offset : Nat) (words : List W32) (s : State) (hm : Moves cc r0 s) :
    MovesR cc r0 (execRirusMgmtWrite tag inSession offset words s) := by
  unfold execRirusMgmtWrite
  with_reducible repeat' first | assumption | apply MovesR.next | apply rirus_moves | apply rirMgmt_moves

theorem execRirusTileOp_moves {cc : Bool} {r0 : State} (tag : Nat) (inSession : Bool) (t op : Nat) (staging : List W32) (s : State) (hm : Moves cc r0 s) :
    MovesR cc r0 (execRirusTileOp tag inSession t op staging s) := by
  unfold execRirusTileOp
  with_reducible repeat' first | assumption | apply MovesR.next | apply rirus_moves | apply rirTile_moves

theorem execRirusModeRequest_moves {cc : Bool} {r0 : State} (tag : Nat) (inSession : Bool) (mode : Nat) (s : State) (hm : Moves cc r0 s) :
    MovesR cc r0 (execRirusModeRequest tag inSession mode s) := by
  unfold execRirusModeRequest
  with_reducible repeat' first | assumption | apply MovesR.next | apply rirus_moves | apply rirMode_moves

theorem execRirusLogRead_moves {cc : Bool} {r0 : State} (tag lid offset len : Nat) (s : State) (hm : Moves cc r0 s) :
    MovesR cc r0 (execRirusLogRead tag lid offset len s) := by
  unfold execRirusLogRead
  with_reducible repeat' first | assumption | apply MovesR.next | apply rirus_moves | apply rirLog_moves

theorem execRirusRecorderControl_moves {cc : Bool} {r0 : State} (tag : Nat) (inSession freeze thaw : Bool) (s : State) (hm : Moves cc r0 s) :
    MovesR cc r0 (execRirusRecorderControl tag inSession freeze thaw s) := by
  unfold execRirusRecorderControl
  with_reducible repeat' first | assumption | apply MovesR.next | apply rirus_moves | apply rirRec_moves

theorem execRirusFwDownload_moves {cc : Bool} {r0 : State} (tag : Nat) (inSession : Bool) (offset len data : Nat) (s : State) (hm : Moves cc r0 s) :
    MovesR cc r0 (execRirusFwDownload tag inSession offset len data s) := by
  unfold execRirusFwDownload
  with_reducible repeat' first | assumption | apply MovesR.next | apply rirus_moves | apply rirDownload_moves

theorem execRirusFwCommit_moves {cc : Bool} {r0 : State} (tag : Nat) (inSession : Bool) (action fs : Nat) (img : ImageInfo) (s : State) (hm : Moves cc r0 s) :
    MovesR cc r0 (execRirusFwCommit tag inSession action fs img s) := by
  unfold execRirusFwCommit
  with_reducible repeat' first | assumption | apply MovesR.next | apply rirus_moves | apply rirCommit_moves

theorem mctp_moves {cc : Bool} {r0 : State} (cmd : Nat) (f : State → State × Nat × List Byte) (s : State)
    (hf : ∀ u, Moves cc r0 u → Moves cc r0 (f u).1) (hm : Moves cc r0 s) : Moves cc r0 (mctp cmd f s) := by
  unfold mctp
  exact heard_moves _ _ _ (fun u hu => emit_moves _ _ (hf _ hu)) hm

theorem setEid_moves {cc : Bool} {r0 : State} (eid : Nat) (s : State) (hm : Moves cc r0 s) :
    Moves cc r0 (setEid eid s) := by
  unfold setEid
  with_reducible repeat' first
    | assumption | exact fun _ => rfl | apply mctp_moves | (apply Moves.mk; assumption) | intro _ | extract_lets
    | split

theorem getEid_moves {cc : Bool} {r0 : State} (s : State) (hm : Moves cc r0 s) :
    Moves cc r0 (getEid s) := by
  unfold getEid
  with_reducible repeat' first | assumption | apply mctp_moves | intro _

theorem getVersions_moves {cc : Bool} {r0 : State} (s : State) (hm : Moves cc r0 s) :
    Moves cc r0 (getVersions s) := by
  unfold getVersions
  with_reducible repeat' first | assumption | apply mctp_moves | intro _

theorem getTypes_moves {cc : Bool} {r0 : State} (s : State) (hm : Moves cc r0 s) :
    Moves cc r0 (getTypes s) := by
  unfold getTypes
  with_reducible repeat' first | assumption | apply mctp_moves | intro _

theorem getVendor_moves {cc : Bool} {r0 : State} (s : State) (hm : Moves cc r0 s) :
    Moves cc r0 (getVendor s) := by
  unfold getVendor
  with_reducible repeat' first | assumption | apply mctp_moves | intro _

theorem assignAddr_moves {cc : Bool} {r0 : State} (addr : Nat) (s : State) (hm : Moves cc r0 s) :
    Moves cc r0 (assignAddr addr s) := by
  unfold assignAddr
  with_reducible repeat' first
    | assumption | exact fun _ => rfl | apply Moves.ite | (apply Moves.mk; assumption) | intro _

theorem execMctpSetEndpointId_moves {cc : Bool} {r0 : State} (eid : Nat) (s : State) (hm : Moves cc r0 s) :
    MovesR cc r0 (execMctpSetEndpointId eid s) := by
  unfold execMctpSetEndpointId
  with_reducible repeat' first | assumption | apply MovesR.next | apply setEid_moves

theorem execMctpGetEndpointId_moves {cc : Bool} {r0 : State} (s : State) (hm : Moves cc r0 s) :
    MovesR cc r0 (execMctpGetEndpointId s) := by
  unfold execMctpGetEndpointId
  with_reducible repeat' first | assumption | apply MovesR.next | apply getEid_moves

theorem execMctpGetVersionSupport_moves {cc : Bool} {r0 : State} (s : State) (hm : Moves cc r0 s) :
    MovesR cc r0 (execMctpGetVersionSupport s) := by
  unfold execMctpGetVersionSupport
  with_reducible repeat' first | assumption | apply MovesR.next | apply getVersions_moves

theorem execMctpGetMessageTypeSupport_moves {cc : Bool} {r0 : State} (s : State) (hm : Moves cc r0 s) :
    MovesR cc r0 (execMctpGetMessageTypeSupport s) := by
  unfold execMctpGetMessageTypeSupport
  with_reducible repeat' first | assumption | apply MovesR.next | apply getTypes_moves

theorem execMctpGetVendorMsgSupport_moves {cc : Bool} {r0 : State} (s : State) (hm : Moves cc r0 s) :
    MovesR cc r0 (execMctpGetVendorMsgSupport s) := by
  unfold execMctpGetVendorMsgSupport
  with_reducible repeat' first | assumption | apply MovesR.next | apply getVendor_moves

theorem execDynamicAddressAssignment_moves {cc : Bool} {r0 : State} (addr : Nat) (s : State) (hm : Moves cc r0 s) :
    MovesR cc r0 (execDynamicAddressAssignment addr s) := by
  unfold execDynamicAddressAssignment
  with_reducible repeat' first | assumption | apply MovesR.next | apply assignAddr_moves

end Sys2Proof.Machine
end

