-- ==== Sys2Proof/Laws/Moves/Boundary.lean ====
section
/-!
SUPPORT. Laws/Moves/Boundary.lean: the operations of Machine/Boundary.lean keep what `Moves` says.
-/

namespace Sys2Proof.Machine

theorem sealUnit_moves {cc : Bool} {r0 : State} (s : State) (u : PlanUnit) (hm : Moves cc r0 s) :
    Moves cc r0 (sealUnit s u) := by
  unfold sealUnit
  with_reducible repeat' first | assumption | apply Moves.ite | apply happen_moves | apply setBuf_moves | intro _

theorem setRun_moves {cc : Bool} {r0 : State} (u : PlanUnit) (n : Nat) (s : State) (hm : Moves cc r0 s) :
    Moves cc r0 (setRun u n s) := by
  unfold setRun
  with_reducible repeat' first | assumption | exact fun _ => rfl | (apply Moves.mk; assumption) | extract_lets | split

theorem startUnit_moves {cc : Bool} {r0 : State} (s : State) (u : PlanUnit) (hm : Moves cc r0 s) :
    Moves cc r0 (startUnit s u) := by
  unfold startUnit
  with_reducible repeat' first | assumption | apply Moves.ite | apply setRun_moves | apply setBuf_moves | intro _

theorem lateWriter_moves {cc : Bool} {r0 : State} (s : State) (w : Nat) (hm : Moves cc r0 s) :
    Moves cc r0 (lateWriter s w) := by
  unfold lateWriter
  with_reducible repeat' first | assumption | apply oncePerFrame_moves | apply happen_moves | apply addF_moves

theorem openBuffers_moves {cc : Bool} {r0 : State} (s : State) (hm : Moves cc r0 s) :
    Moves cc r0 (openBuffers s) := by
  unfold openBuffers
  with_reducible repeat' first | exact fun _ => rfl | (apply Moves.mk; assumption)

theorem pipeline_moves {cc : Bool} {r0 : State} (s : State) (hm : Moves cc r0 s) :
    Moves cc r0 (pipeline s) := by
  unfold pipeline
  with_reducible repeat' first
    | assumption | apply sealUnit_moves | apply startUnit_moves | apply openBuffers_moves | apply lateWriter_moves
    | apply Moves.foldl

theorem modeStep_moves {cc : Bool} {r0 : State} (s : State) (hm : Moves cc r0 s) :
    Moves cc r0 (modeStep s) := by
  unfold modeStep
  with_reducible repeat' first
    | assumption | apply Moves.ite | apply releasePs_moves | apply driveAen_moves | apply happen_moves
    | apply setF_moves | intro _

theorem freezeMap_moves {cc : Bool} {r0 : State} (s : State) (hm : Moves cc r0 s) :
    Moves cc r0 (freezeMap s) := by
  unfold freezeMap
  with_reducible repeat' first
    | assumption | exact fun _ => rfl | apply Moves.ite | (apply Moves.mk; assumption) | intro _ | extract_lets
    | split

theorem layCkpt_moves {cc : Bool} {r0 : State} (s : State) (hm : Moves cc r0 s) :
    Moves cc r0 (layCkpt s) := by
  unfold layCkpt
  with_reducible repeat' first
    | assumption | exact fun _ => rfl | apply setF_moves | apply setCtx_moves | (apply Moves.mk; assumption)
    | extract_lets | split

theorem keyBoundary_moves {cc : Bool} {r0 : State} (s : State) (hm : Moves cc r0 s) :
    Moves cc r0 (keyBoundary s) := by
  unfold keyBoundary
  with_reducible repeat' first
    | assumption | apply eraseEffect_moves | apply macResume_moves | apply currentSwitch_moves | apply Moves.foldl
    | intro _

theorem gainCredit_moves {cc : Bool} {r0 : State} (s : State) (hm : Moves cc r0 s) :
    Moves cc r0 (gainCredit s) := by
  unfold gainCredit
  with_reducible repeat' first | exact fun _ => rfl | (apply Moves.mk; assumption)

theorem walkEnd_moves {cc : Bool} {r0 : State} (s : State) (hm : Moves cc r0 s) :
    Moves cc r0 (walkEnd s) := by
  unfold walkEnd
  with_reducible repeat' first
    | assumption | exact fun _ => rfl | apply Moves.ite | apply addF_moves | (apply Moves.mk; assumption) | intro _

theorem catchUps_moves {cc : Bool} {r0 : State} (s : State) (hm : Moves cc r0 s) :
    Moves cc r0 (catchUps s) := by
  unfold catchUps
  with_reducible repeat' first | assumption | apply catchUp_moves | apply Moves.foldl | intro _

theorem drainPallets_moves {cc : Bool} {r0 : State} (s : State) (hm : Moves cc r0 s) :
    Moves cc r0 (drainPallets s) := by
  unfold drainPallets
  with_reducible repeat' first | assumption | apply Moves.ite | apply palletMove_moves | apply Moves.foldl | intro _

theorem settleBeat_moves {cc : Bool} {r0 : State} (s : State) (hm : Moves cc r0 s) :
    Moves cc r0 (settleBeat s) := by
  unfold settleBeat
  with_reducible repeat' first
    | assumption | apply Moves.ite | apply catchUps_moves | apply settleAudits_moves | apply settleActs_moves
    | apply layFlush_moves | apply layCkpt_moves | apply drainPallets_moves | intro _

theorem nextBeat_moves {r0 : State} (s : State) (hm : Moves false r0 s) :
    Moves false r0 (nextBeat s) := by
  unfold nextBeat
  with_reducible repeat' first | exact fun h => Bool.noConfusion h | (apply Moves.mk; assumption)

theorem boundaryWork_moves {cc : Bool} {r0 : State} (s : State) (hm : Moves cc r0 s) :
    Moves cc r0 (boundaryWork s) := by
  unfold boundaryWork
  with_reducible repeat' first
    | assumption | apply Moves.ite | apply modeStep_moves | apply freezeMap_moves | apply gainCredit_moves
    | apply voteDrains_moves | apply walkEnd_moves | apply showEngines_moves | apply kilnBoundary_moves
    | apply keyBoundary_moves | apply settleBeat_moves | apply pipeline_moves | intro _

theorem beatBoundaryDo_moves {r0 : State} (s : State) (hm : Moves false r0 s) :
    Moves false r0 (beatBoundaryDo s) := by
  unfold beatBoundaryDo
  with_reducible repeat' first
    | assumption | apply Moves.ite | apply nextBeat_moves | apply boundaryWork_moves | intro _

theorem chargesReset_moves {cc : Bool} {r0 : State} (s : State) (hm : Moves cc r0 s) :
    Moves cc r0 (chargesReset s) := by
  unfold chargesReset
  with_reducible repeat' first | exact fun _ => rfl | (apply Moves.mk; assumption)

theorem nextFrame_moves {cc : Bool} {r0 : State} (s : State) (hm : Moves cc r0 s) :
    Moves cc r0 (nextFrame s) := by
  unfold nextFrame
  with_reducible repeat' first | exact fun _ => rfl | (apply Moves.mk; assumption)

theorem headerWork_moves {cc : Bool} {r0 : State} (s : State) (hm : Moves cc r0 s) :
    Moves cc r0 (headerWork s) := by
  unfold headerWork
  with_reducible repeat' first
    | assumption | exact fun _ => rfl | apply chargesReset_moves | apply nextFrame_moves | apply bucketsLeak_moves
    | apply phaseCorrect_moves | apply hodPoll_moves | extract_lets | (apply Moves.mk; apply takeShares_moves)

theorem headerBeatDo_moves {cc : Bool} {r0 : State} (s : State) (hm : Moves cc r0 s) :
    Moves cc r0 (headerBeatDo s) := by
  unfold headerBeatDo
  with_reducible repeat' first
    | assumption | apply Moves.ite | apply oncePerBeat_moves | apply headerWork_moves | intro _

theorem flushRecords_moves {cc : Bool} {r0 : State} (s : State) (hm : Moves cc r0 s) :
    Moves cc r0 (flushRecords s) := by
  unfold flushRecords
  with_reducible repeat' first
    | assumption | exact fun _ => rfl | apply happen_moves | apply layFlush_moves | extract_lets | split
    | (apply Moves.mk; apply journal_moves)

theorem flushWork_moves {cc : Bool} {r0 : State} (mirrorOk : Bool) (s : State) (hm : Moves cc r0 s) :
    Moves cc r0 (flushWork mirrorOk s) := by
  unfold flushWork
  with_reducible repeat' first
    | assumption | exact fun _ => rfl | apply mirrorFlush_moves | (apply Moves.mk; assumption) | extract_lets | split
    | (apply Moves.mk; apply flushRecords_moves)

theorem journalFlushDo_moves {cc : Bool} {r0 : State} (mirrorOk : Bool) (s : State) (hm : Moves cc r0 s) :
    Moves cc r0 (journalFlushDo mirrorOk s) := by
  unfold journalFlushDo
  with_reducible repeat' first
    | assumption | apply Moves.ite | apply oncePerBeat_moves | apply flushWork_moves | intro _

theorem sampleRead_moves {cc : Bool} {r0 : State} (c pos at_ : Nat) (s : State) (hm : Moves cc r0 s) :
    Moves cc r0 (sampleRead c pos at_ s) := by
  unfold sampleRead
  with_reducible repeat' first
    | assumption | apply Moves.ite | (apply MovesP.snd; apply newRd_moves) | intro _ | extract_lets | split

theorem sampleReads_moves {cc : Bool} {r0 : State} (picks : List (Nat × Nat)) (s : State) (hm : Moves cc r0 s) :
    Moves cc r0 (sampleReads picks s) := by
  unfold sampleReads
  with_reducible repeat' first
    | assumption | exact fun _ => rfl | apply sampleRead_moves | apply Moves.foldl | intro _ | extract_lets | split
    | (apply Moves.mk; apply Moves.foldl)

theorem ageRefresh_moves {cc : Bool} {r0 : State} (s : State) (hm : Moves cc r0 s) :
    Moves cc r0 (ageRefresh s) := by
  unfold ageRefresh
  with_reducible repeat' first | assumption | apply Moves.ite | apply queueRefresh_moves | apply Moves.foldl | intro _

theorem ckptEpoch_moves {cc : Bool} {r0 : State} (s : State) (hm : Moves cc r0 s) :
    Moves cc r0 (ckptEpoch s) := by
  unfold ckptEpoch
  with_reducible repeat' first
    | assumption | exact fun _ => rfl | apply layCkpt_moves | (apply Moves.mk; assumption) | extract_lets | split
    | (apply Moves.mk; apply happen_moves)

theorem epochWork_moves {cc : Bool} {r0 : State} (picks : List (Nat × Nat)) (s : State) (hm : Moves cc r0 s) :
    Moves cc r0 (epochWork picks s) := by
  unfold epochWork
  with_reducible repeat' first
    | assumption | apply saveStacks_moves | apply ckptEpoch_moves | apply ageRefresh_moves | apply sampleReads_moves

theorem epochBoundaryDo_moves {cc : Bool} {r0 : State} (picks : List (Nat × Nat)) (s : State) (hm : Moves cc r0 s) :
    Moves cc r0 (epochBoundaryDo picks s) := by
  unfold epochBoundaryDo
  with_reducible repeat' first
    | assumption | apply Moves.ite | apply oncePerBeat_moves | apply epochWork_moves | intro _

theorem execBeatBoundary_moves {r0 : State} (s : State) (hm : Moves false r0 s) :
    MovesR false r0 (execBeatBoundary s) := by
  unfold execBeatBoundary
  with_reducible repeat' first | assumption | apply MovesR.next | apply beatBoundaryDo_moves

theorem execHeaderBeat_moves {cc : Bool} {r0 : State} (s : State) (hm : Moves cc r0 s) :
    MovesR cc r0 (execHeaderBeat s) := by
  unfold execHeaderBeat
  with_reducible repeat' first | assumption | apply MovesR.next | apply headerBeatDo_moves

theorem execJournalFlushPoint_moves {cc : Bool} {r0 : State} (mirrorOk : Bool) (s : State) (hm : Moves cc r0 s) :
    MovesR cc r0 (execJournalFlushPoint mirrorOk s) := by
  unfold execJournalFlushPoint
  with_reducible repeat' first | assumption | apply MovesR.next | apply journalFlushDo_moves

theorem execEpochBoundary_moves {cc : Bool} {r0 : State} (picks : List (Nat × Nat)) (s : State) (hm : Moves cc r0 s) :
    MovesR cc r0 (execEpochBoundary picks s) := by
  unfold execEpochBoundary
  with_reducible repeat' first | assumption | apply MovesR.next | apply epochBoundaryDo_moves

end Sys2Proof.Machine
end

