-- ==== Sys2Proof/Laws/Moves/Grout.lean ====
section
/-!
SUPPORT. Laws/Moves/Grout.lean: the operations of Machine/Grout.lean keep what `Moves` says.
-/

namespace Sys2Proof.Machine

theorem holdWrite_moves {cc : Bool} {r0 : State} (i : Nat) (s : State) (hm : Moves cc r0 s) :
    Moves cc r0 (holdWrite i s) := by
  unfold holdWrite
  with_reducible repeat' first | assumption | apply Moves.ite | apply setCmd_moves | intro _

theorem holdupDrain_moves {cc : Bool} {r0 : State} (s : State) (hm : Moves cc r0 s) :
    Moves cc r0 (holdupDrain s) := by
  unfold holdupDrain
  with_reducible repeat' first
    | exact fun _ => rfl | apply Moves.ite | apply setF_moves | apply palletMove_moves | (apply Moves.mk; assumption)
    | apply Moves.foldl | intro _

theorem holdupFrom_moves {cc : Bool} {r0 : State} (s : State) (hm : Moves cc r0 s) :
    Moves cc r0 (holdupFrom s) := by
  unfold holdupFrom
  with_reducible repeat' first | exact fun _ => rfl | (apply Moves.mk; assumption)

theorem holdupLost_moves {cc : Bool} {r0 : State} (s : State) (hm : Moves cc r0 s) :
    Moves cc r0 (holdupLost s) := by
  unfold holdupLost
  with_reducible repeat' first
    | assumption | apply Moves.ite | apply holdupFrom_moves | apply setF_moves | apply driveAen_moves
    | apply happen_moves | apply holdupDrain_moves | apply holdWrite_moves | apply Moves.foldl | intro _

theorem holdupBack_moves {cc : Bool} {r0 : State} (s : State) (hm : Moves cc r0 s) :
    Moves cc r0 (holdupBack s) := by
  unfold holdupBack
  with_reducible repeat' first
    | assumption | apply Moves.ite | apply driveAen_moves | apply happen_moves | apply setF_moves | intro _

theorem powerFail_moves {cc : Bool} {r0 : State} (s : State) (hm : Moves cc r0 s) :
    Moves cc r0 (powerFail s) := by
  unfold powerFail
  with_reducible repeat' first | assumption | apply groutCause_moves

theorem pgCoreLow_moves {cc : Bool} {r0 : State} (s : State) (hm : Moves cc r0 s) :
    Moves cc r0 (pgCoreLow s) := by
  unfold pgCoreLow
  with_reducible repeat' first | assumption | apply Moves.ite | apply setF_moves | apply groutCause_moves | intro _

theorem fatalDo_moves {cc : Bool} {r0 : State} (src : Nat) (s : State) (hm : Moves cc r0 s) :
    Moves cc r0 (fatalDo src s) := by
  unfold fatalDo
  with_reducible repeat' first
    | assumption | apply Moves.ite | apply fatal_moves | apply mapChannelLost_moves | intro _

theorem groutSeal_moves {cc : Bool} {r0 : State} (retried : Nat) (s : State) (hm : Moves cc r0 s) :
    Moves cc r0 (groutSeal retried s) := by
  unfold groutSeal
  with_reducible repeat' first
    | assumption | exact fun _ => rfl | apply Moves.ite | apply happen_moves | apply addF_moves | apply tick_moves
    | intro _ | extract_lets | split | (apply Moves.mk; apply enterOff_moves)

theorem execHoldupOkDeasserted_moves {cc : Bool} {r0 : State} (s : State) (hm : Moves cc r0 s) :
    MovesR cc r0 (execHoldupOkDeasserted s) := by
  unfold execHoldupOkDeasserted
  with_reducible repeat' first | assumption | apply MovesR.next | apply holdupLost_moves

theorem execHoldupOkAsserted_moves {cc : Bool} {r0 : State} (s : State) (hm : Moves cc r0 s) :
    MovesR cc r0 (execHoldupOkAsserted s) := by
  unfold execHoldupOkAsserted
  with_reducible repeat' first | assumption | apply MovesR.next | apply holdupBack_moves

theorem execPowerFailRecognised_moves {cc : Bool} {r0 : State} (s : State) (hm : Moves cc r0 s) :
    MovesR cc r0 (execPowerFailRecognised s) := by
  unfold execPowerFailRecognised
  with_reducible repeat' first | assumption | apply MovesR.next | apply powerFail_moves

theorem execPgCoreFall_moves {cc : Bool} {r0 : State} (s : State) (hm : Moves cc r0 s) :
    MovesR cc r0 (execPgCoreFall s) := by
  unfold execPgCoreFall
  with_reducible repeat' first | assumption | apply MovesR.next | apply pgCoreLow_moves

theorem execFatalEvent_moves {cc : Bool} {r0 : State} (src : Nat) (s : State) (hm : Moves cc r0 s) :
    MovesR cc r0 (execFatalEvent src s) := by
  unfold execFatalEvent
  with_reducible repeat' first | assumption | apply MovesR.next | apply fatalDo_moves

theorem execGroutSealed_moves {cc : Bool} {r0 : State} (retriedWaves : Nat) (s : State) (hm : Moves cc r0 s) :
    MovesR cc r0 (execGroutSealed retriedWaves s) := by
  unfold execGroutSealed
  with_reducible repeat' first | assumption | apply MovesR.next | apply groutSeal_moves

end Sys2Proof.Machine
end

