-- ==== Sys2Proof/Laws/Moves/Replay.lean ====
section
/-!
SUPPORT. Laws/Moves/Replay.lean: the operations of Machine/Replay.lean keep what `Moves` says.
-/

namespace Sys2Proof.Machine

theorem lineOut_moves {cc : Bool} {r0 : State} (l : Nat) (s : State) (hm : Moves cc r0 s) :
    Moves cc r0 (lineOut l s) := by
  unfold lineOut
  with_reducible repeat' first | assumption | apply courseOut_moves | apply Moves.foldl | intro _

theorem applyRec_moves {cc : Bool} {r0 : State} (s0 : State) (r : JRec) (hm : Moves cc r0 s0) : Moves cc r0 (applyRec s0 r) := by
  unfold applyRec
  extract_lets _ s lines l i s1 _ s2 s1' _ _ c s1'' k
  have h0 : Moves cc r0 s := .mk hm (fun _ => rfl)
  have h1 : Moves cc r0 s1'' := .mk h0 (fun _ => rfl)
  clear_value s1''
  split
  · exact courseIn_moves _ _ (.mk (courseOut_moves _ _ h0) (fun _ => rfl))
  · exact .mk (.foldl h0 (fun _ _ hu => lineOut_moves _ _ hu)) (fun _ => rfl)
  · exact .mk h0 (fun _ => rfl)
  · exact .ite (fun _ => setCourse_moves _ _ _ h1) (fun _ => .ite (fun _ => setCourse_moves _ _ _ h1) (fun _ => h1))

theorem loadCkpt_moves {cc : Bool} {r0 : State} (s : State) (hm : Moves cc r0 s) :
    Moves cc r0 (loadCkpt s) := by
  unfold loadCkpt
  with_reducible repeat' first
    | assumption | exact fun _ => rfl | apply courseIn_moves | (apply Moves.mk; assumption) | apply Moves.foldl
    | intro _

theorem courseMedia_moves {cc : Bool} {r0 : State} (s : State) (c : Nat) (hm : Moves cc r0 s) :
    Moves cc r0 (courseMedia s c) := by
  unfold courseMedia
  with_reducible repeat' first | assumption | apply setCourse_moves

theorem replayJournal_moves {cc : Bool} {r0 : State} (inp : StartInput) (s : State) (hm : Moves cc r0 s) :
    Moves cc r0 (replayJournal inp s) := by
  unfold replayJournal
  with_reducible repeat' first
    | assumption | exact fun _ => rfl | apply Moves.ite | apply applyRec_moves | apply loadCkpt_moves
    | apply courseMedia_moves | apply setF_moves | apply happen_moves | apply Moves.foldl | intro _ | extract_lets
    | (apply Moves.mk; apply Moves.foldl)

theorem replayBindings_moves {cc : Bool} {r0 : State} (s : State) (hm : Moves cc r0 s) :
    Moves cc r0 (replayBindings s) := by
  unfold replayBindings
  with_reducible repeat' first | exact fun _ => rfl | (apply Moves.mk; assumption)

theorem assemble_moves {cc : Bool} {r0 : State} (inp : StartInput) (nsid lba : Nat) (own : List (Option Cand)) (lost : List Nat) (s : State) (hm : Moves cc r0 s) :
    Moves cc r0 (assemble inp nsid lba own lost s) := by
  unfold assemble
  with_reducible repeat' first
    | assumption | exact fun _ => rfl | apply setSlot_moves | apply fillLost_moves | apply addF_moves
    | apply mapYard_moves | (apply Moves.mk; assumption) | apply Moves.foldl | intro _ | extract_lets | split

theorem resolveMu_moves {cc : Bool} {r0 : State} (inp : StartInput) (cands : List Cand) (mu : Nat × Nat) (s : State) (hm : Moves cc r0 s) :
    Moves cc r0 (resolveMu inp cands mu s) := by
  unfold resolveMu
  with_reducible repeat' first
    | assumption | apply Moves.ite | apply mapSet_moves | apply assemble_moves | intro _ | extract_lets | split

theorem resolveLost_moves {cc : Bool} {r0 : State} (inp : StartInput) (cands : List Cand) (x : Slot × List Nat) (s : State) (hm : Moves cc r0 s) :
    Moves cc r0 (resolveLost inp cands x s) := by
  unfold resolveLost
  with_reducible repeat' first | assumption | apply Moves.ite | apply mapSet_moves | apply assemble_moves | intro _

theorem reportLost_moves {cc : Bool} {r0 : State} (x : Slot × List Nat) (s : State) (hm : Moves cc r0 s) :
    Moves cc r0 (reportLost x s) := by
  unfold reportLost
  with_reducible repeat' first
    | assumption | apply blocksLost_moves | apply deferredError_moves | apply Moves.foldl | intro _

theorem reportBeyond_moves {cc : Bool} {r0 : State} (recs : List JRec) (s : State) (hm : Moves cc r0 s) :
    Moves cc r0 (reportBeyond recs s) := by
  unfold reportBeyond
  with_reducible repeat' first
    | assumption | apply deferredError_moves | apply Moves.foldl | intro _ | extract_lets | split

theorem findZones_moves {cc : Bool} {r0 : State} (s : State) (hm : Moves cc r0 s) :
    Moves cc r0 (findZones s) := by
  unfold findZones
  with_reducible repeat' first
    | exact fun _ => rfl | apply setZone_moves | (apply Moves.mk; assumption) | intro _ | extract_lets
    | (apply Moves.mk; apply Moves.foldl)

theorem keepSets_moves {cc : Bool} {r0 : State} (s : State) (hm : Moves cc r0 s) :
    Moves cc r0 (keepSets s) := by
  unfold keepSets
  with_reducible repeat' first | assumption | apply Moves.ite | apply setCourse_moves | apply Moves.foldl | intro _

theorem reserve_moves {cc : Bool} {r0 : State} (s : State) (hm : Moves cc r0 s) :
    Moves cc r0 (reserve s) := by
  unfold reserve
  with_reducible repeat' first
    | exact fun _ => rfl | apply journal_moves | apply flushDone_moves | (apply Moves.mk; assumption)

theorem skipScanned_moves {cc : Bool} {r0 : State} (s : State) (c : Nat) (hm : Moves cc r0 s) :
    Moves cc r0 (skipScanned s c) := by
  unfold skipScanned
  with_reducible repeat' first | assumption | apply setCourse_moves

theorem resolve_moves {cc : Bool} {r0 : State} (inp : StartInput) (s : State) (hm : Moves cc r0 s) :
    Moves cc r0 (resolve inp s) := by
  unfold resolve
  with_reducible repeat' first
    | assumption | apply Moves.ite | apply addF_moves | apply resolveMu_moves | apply resolveLost_moves
    | apply findZones_moves | apply skipScanned_moves | apply deferredError_moves | apply reportBeyond_moves
    | apply reportLost_moves | apply stageSlot_moves | apply fillNow_moves | apply happen_moves | apply Moves.foldl
    | intro _

theorem showGrout_moves {cc : Bool} {r0 : State} (inp : StartInput) (s : State) (hm : Moves cc r0 s) :
    Moves cc r0 (showGrout inp s) := by
  unfold showGrout
  with_reducible repeat' first
    | assumption | apply Moves.ite | apply setF_moves | apply setR_moves | apply happen_moves | intro _ | split

theorem rebuildLoad_moves {cc : Bool} {r0 : State} (inp : StartInput) (s : State) (hm : Moves cc r0 s) :
    Moves cc r0 (rebuildLoad inp s) := by
  unfold rebuildLoad
  with_reducible repeat' first
    | assumption | apply replayBindings_moves | apply replayJournal_moves | apply showGrout_moves

theorem rebuildResolve_moves {cc : Bool} {r0 : State} (inp : StartInput) (s : State) (hm : Moves cc r0 s) :
    Moves cc r0 (rebuildResolve inp s) := by
  unfold rebuildResolve
  with_reducible repeat' first
    | exact fun _ => rfl | apply keepSets_moves | apply reserve_moves | apply keysSettle_moves
    | (apply Moves.mk; assumption) | extract_lets | (apply Moves.mk; apply resolve_moves)

end Sys2Proof.Machine
end

