-- ==== Sys2Proof/Laws/Moves/Start.lean ====
section
/-!
SUPPORT. Laws/Moves/Start.lean: the operations of Machine/Start.lean keep what `Moves` says.
-/

namespace Sys2Proof.Machine

theorem keepFields_moves {cc : Bool} {r0 : State} (l : List Fld) (s : State) (hm : Moves cc r0 s) : Moves cc r0 (keepFields l s) := by
  unfold keepFields
  exact .foldl (hm.trans ⟨rfl, Nat.le_refl _, fun _ => (show twf resetValue [] = true from rfl), fun _ => rfl⟩) (fun _ _ hu => setF_moves _ _ _ hu)

theorem loadTiles_moves {cc : Bool} {r0 : State} (s : State) (hm : Moves cc r0 s) :
    Moves cc r0 (loadTiles s) := by
  unfold loadTiles
  with_reducible repeat' first
    | assumption | exact fun _ => rfl | apply Moves.ite | apply setR_moves | apply tileTo_moves | apply Moves.foldl
    | intro _ | extract_lets | (apply Moves.mk; apply Moves.foldl)

theorem loadKeys_moves {cc : Bool} {r0 : State} (s : State) (hm : Moves cc r0 s) :
    Moves cc r0 (loadKeys s) := by
  unfold loadKeys
  with_reducible repeat' first | assumption | apply Moves.ite | apply setF_moves | apply Moves.foldl | intro _

theorem freshState_moves {r0 : State} (cold : Bool) (s : State) (hm : Moves false r0 s) :
    Moves false r0 (freshState cold s) :=
  loadKeys_moves _ (loadTiles_moves _ (.mk (setR_moves _ _ _ (keepFields_moves _ _ hm)) (fun h => Bool.noConfusion h)))

theorem noteFails_moves {cc : Bool} {r0 : State} (i : Nat) (ok : Bool) (s : State) (hm : Moves cc r0 s) :
    Moves cc r0 (noteFails i ok s) := by
  unfold noteFails
  with_reducible repeat' first | assumption | apply Moves.ite | apply setF_moves | intro _

theorem stepOut_moves {cc : Bool} {r0 : State} (i out : Nat) (s : State) (hm : Moves cc r0 s) :
    Moves cc r0 (stepOut i out s) := by
  unfold stepOut
  with_reducible repeat' first | assumption | apply Moves.ite | apply setF_moves | apply happen_moves | intro _

theorem haltStart_moves {cc : Bool} {r0 : State} (s : State) (hm : Moves cc r0 s) :
    Moves cc r0 (haltStart s) := by
  unfold haltStart
  with_reducible repeat' first
    | assumption | exact fun _ => rfl | apply endStart_moves | extract_lets | (apply Moves.mk; apply enterOff_moves)

theorem recStep_moves {cc : Bool} {r0 : State} (s : State) (hm : Moves cc r0 s) :
    Moves cc r0 (recStep s) := by
  unfold recStep
  with_reducible repeat' first | assumption | apply setF_moves

theorem haltStep_moves {cc : Bool} {r0 : State} (i : Nat) (t : StepTry) (f : State → State) (s : State) (hf : ∀ u, Moves cc r0 u → Moves cc r0 (f u)) (hm : Moves cc r0 s) :
    Moves cc r0 (haltStep i t f s) := by
  unfold haltStep
  with_reducible repeat' first
    | assumption | apply Moves.ite | apply hf | apply noteFails_moves | apply stepOut_moves | apply haltStart_moves
    | intro _

theorem doS01_moves {cc : Bool} {r0 : State} (inp : StartInput) (s : State) (hm : Moves cc r0 s) :
    Moves cc r0 (doS01 inp s) := by
  unfold doS01
  with_reducible repeat' first
    | assumption | apply Moves.ite | apply setF_moves | apply showPort_moves | apply Moves.foldl | intro _

theorem doS02_moves {cc : Bool} {r0 : State} (alt : Bool) (s : State) (hm : Moves cc r0 s) :
    Moves cc r0 (doS02 alt s) := by
  unfold doS02
  with_reducible repeat' first | assumption | apply Moves.ite | apply setF_moves | intro _

theorem countFrom_moves {r0 : State} (n : Nat) (s : State) (hm : Moves false r0 s) : Moves false r0 (countFrom n s) :=
  .mk (setF_moves _ _ _ (.mk hm (fun h => Bool.noConfusion h))) (fun h => Bool.noConfusion h)

theorem doS03_moves {r0 : State} (cold alt : Bool) (s : State) (hm : Moves false r0 s) :
    Moves false r0 (doS03 cold alt s) := by
  unfold doS03
  with_reducible repeat' first | assumption | apply Moves.ite | apply setF_moves | apply countFrom_moves | intro _

theorem runS04_moves {cc : Bool} {r0 : State} (t : StepTry) (s : State) (hm : Moves cc r0 s) :
    Moves cc r0 (runS04 t s) := by
  unfold runS04
  with_reducible repeat' first
    | assumption | apply Moves.ite | apply noteFails_moves | apply stepOut_moves | apply haltStart_moves
    | apply happen_moves | intro _

theorem runS05_moves {cc : Bool} {r0 : State} (inp : StartInput) (t : StepTry) (s : State) (hm : Moves cc r0 s) :
    Moves cc r0 (runS05 inp t s) := by
  unfold runS05
  with_reducible repeat' first
    | assumption | apply Moves.ite | apply haltStart_moves | apply noteFails_moves | apply stepOut_moves
    | apply entropyTest_moves | intro _

theorem tryImages_moves {cc : Bool} {r0 : State} (inp : StartInput) (l : List Nat) (s : State) (hm : Moves cc r0 s) :
    MovesP cc r0 (tryImages inp l s) := by
  induction l generalizing s with
  | nil => exact .pair hm
  | cons x l ih =>
    unfold tryImages
    split
    · exact ih _ hm
    · exact .ite (fun _ => .pair hm) (fun _ => ih _ (rejected_moves _ _ hm))

theorem tryImages_movesE {cc : Bool} {r0 : State} {inp : StartInput} {l : List Nat} {s : State} {a0} {t0 : State} (hm : Moves cc r0 s)
    (e : tryImages inp l s = (a0, t0)) : Moves cc r0 t0 := tryImages_moves inp l s hm _ _ e

theorem runS06_moves {cc : Bool} {r0 : State} (t : StepTry) (r : StartRun) (s : State) (hm : Moves cc r0 s) :
    Moves cc r0 (runS06 t r s) := by
  unfold runS06
  with_reducible repeat' first
    | assumption | exact fun _ => rfl | apply stepOut_moves | extract_lets | (apply Moves.mk; apply noteFails_moves)

theorem runImage_moves {cc : Bool} {r0 : State} (src : Nat) (s : State) (hm : Moves cc r0 s) :
    Moves cc r0 (runImage src s) := by
  unfold runImage
  with_reducible repeat' first
    | assumption | exact fun _ => rfl | apply Moves.ite | apply showImage_moves | apply setF_moves
    | apply happen_moves | (apply Moves.mk; assumption) | intro _ | extract_lets | split

theorem romLoader_moves {cc : Bool} {r0 : State} (s : State) (hm : Moves cc r0 s) :
    Moves cc r0 (romLoader s) := by
  unfold romLoader
  with_reducible repeat' first
    | assumption | exact fun _ => rfl | apply setF_moves | extract_lets | (apply Moves.mk; apply endStart_moves)

theorem planners_moves {cc : Bool} {r0 : State} (inp : StartInput) (s : State) (hm : Moves cc r0 s) :
    Moves cc r0 (planners inp s) := by
  unfold planners
  with_reducible repeat' first
    | exact fun _ => rfl | apply Moves.ite | apply setF_moves | apply recStep_moves | (apply Moves.mk; assumption)
    | intro _

theorem takeCompat_moves {cc : Bool} {r0 : State} (s : State) (hm : Moves cc r0 s) :
    Moves cc r0 (takeCompat s) := by
  unfold takeCompat
  with_reducible repeat' first | exact fun _ => rfl | apply setF_moves | (apply Moves.mk; assumption)

theorem runS07_moves {cc : Bool} {r0 : State} (inp : StartInput) (t : StepTry) (r : StartRun) (s0 : State) (hm : Moves cc r0 s0) :
    Moves cc r0 (runS07 inp t r s0) := by
  unfold runS07
  extract_lets s other first
  have h0 : Moves cc r0 s := takeCompat_moves _ hm
  split
  rename_i a s1 e1
  have h1 : Moves cc r0 s1 := tryImages_movesE h0 e1
  split
  rename_i b s2 e2
  have h2 : Moves cc r0 s2 := by
    split at e2
    · cases e2
      exact h1
    · exact tryImages_movesE h1 e2
  split
  rename_i c s3 e3
  have h3 : Moves cc r0 s3 := by
    split at e3
    · cases e3
      exact h2
    · exact tryImages_movesE h2 e3
  extract_lets o s4
  have h4 : Moves cc r0 s4 := noteFails_moves _ _ _ (stepOut_moves _ _ _ h3)
  split
  · exact planners_moves _ _ (runImage_moves _ _ h4)
  · exact romLoader_moves _ h4

theorem startWidth_moves {cc : Bool} {r0 : State} (inp : StartInput) (s : State) (hm : Moves cc r0 s) :
    Moves cc r0 (startWidth inp s) := by
  unfold startWidth
  with_reducible repeat' first | assumption | apply Moves.ite | apply setF_moves | intro _

theorem mmUp_moves {cc : Bool} {r0 : State} (inp : StartInput) (alt : Bool) (s : State) (hm : Moves cc r0 s) :
    Moves cc r0 (mmUp inp alt s) := by
  unfold mmUp
  with_reducible repeat' first | assumption | apply Moves.ite | apply setF_moves | apply Moves.foldl | intro _

theorem mmLeave_moves {cc : Bool} {r0 : State} (c : Nat) (s : State) (hm : Moves cc r0 s) :
    Moves cc r0 (mmLeave c s) := by
  unfold mmLeave
  with_reducible repeat' first | assumption | apply setF_moves | apply happen_moves

theorem runS08_moves {cc : Bool} {r0 : State} (inp : StartInput) (t : StepTry) (s : State) (hm : Moves cc r0 s) :
    Moves cc r0 (runS08 inp t s) := by
  unfold runS08
  extract_lets out prim alt s1 s2 s3
  have h2 : Moves cc r0 s2 := noteFails_moves _ _ _ (mmUp_moves _ _ _ hm)
  have h3 : Moves cc r0 s3 := .ite (fun _ => recStep_moves _ h2) (fun _ => h2)
  clear_value out s3
  split
  · exact .ite (fun _ => stepOut_moves _ _ _ h3) (fun _ => .ite (fun _ => stepOut_moves _ _ _ h3)
      (fun _ => recStep_moves _ (stepOut_moves _ _ _ h3)))
  · exact .ite (fun _ => stepOut_moves _ _ _ (mmLeave_moves _ _ h3))
      (fun _ => recStep_moves _ (stepOut_moves _ _ _ (.foldl h3 (fun _ _ hu => happen_moves _ _ _ (setF_moves _ _ _ (setF_moves _ _ _ hu))))))

theorem courseView_moves {cc : Bool} {r0 : State} (inp : StartInput) (s : State) (hm : Moves cc r0 s) :
    Moves cc r0 (courseView inp s) := by
  unfold courseView
  with_reducible repeat' first | exact fun _ => rfl | (apply Moves.mk; assumption) | apply Moves.foldl | intro _

theorem noteChannels_moves {cc : Bool} {r0 : State} (s : State) (hm : Moves cc r0 s) :
    Moves cc r0 (noteChannels s) := by
  unfold noteChannels
  with_reducible repeat' first | assumption | apply Moves.ite | apply setF_moves | intro _

theorem runS09_moves {cc : Bool} {r0 : State} (inp : StartInput) (t : StepTry) (s0 : State) (hm : Moves cc r0 s0) :
    Moves cc r0 (runS09 inp t s0) := by
  unfold runS09
  with_reducible repeat' first
    | assumption | apply Moves.ite | apply startWidth_moves | apply setF_moves | apply noteFails_moves
    | apply noteChannels_moves | apply stepOut_moves | apply recStep_moves | apply loseLun_moves | apply Moves.foldl
    | intro _

theorem coldCount_moves {r0 : State} (cold : Bool) (s : State) (hm : Moves false r0 s) :
    Moves false r0 (coldCount cold s) := by
  unfold coldCount
  with_reducible repeat' first | assumption | apply Moves.ite | apply setF_moves | apply countFrom_moves | intro _

theorem showDeg_moves {cc : Bool} {r0 : State} (inp : StartInput) (s : State) (hm : Moves cc r0 s) :
    Moves cc r0 (showDeg inp s) := by
  unfold showDeg
  with_reducible repeat' first | assumption | apply setF_moves

theorem runS10_moves {r0 : State} (inp : StartInput) (t : StepTry) (cold : Bool) (s0 : State) (hm : Moves false r0 s0) :
    Moves false r0 (runS10 inp t cold s0) := by
  unfold runS10
  with_reducible repeat' first
    | assumption | apply Moves.ite | apply showDeg_moves | apply coldCount_moves | apply recStep_moves
    | apply noteFails_moves | apply stepOut_moves | apply setF_moves | apply rebuildLoad_moves | intro _

theorem runS11_moves {cc : Bool} {r0 : State} (inp : StartInput) (t : StepTry) (s : State) (hm : Moves cc r0 s) :
    Moves cc r0 (runS11 inp t s) := by
  unfold runS11
  with_reducible repeat' first
    | assumption | exact fun _ => rfl | apply Moves.ite | apply recStep_moves | apply noteFails_moves
    | apply stepOut_moves | apply setF_moves | apply rebuildResolve_moves | (apply Moves.mk; assumption) | intro _

theorem armAtStart_moves {cc : Bool} {r0 : State} (s : State) (hm : Moves cc r0 s) : Moves cc r0 (armAtStart s) := by
  unfold armAtStart
  extract_lets _ s1
  have h1 : Moves cc r0 s1 := by
    unfold s1
    split
    · exact .mk hm (fun _ => rfl)
    · exact hm
  exact noteArmed_moves _ (.ite (fun _ => h1) (fun _ => .mk h1 (fun _ => rfl)))

theorem startRecorder_moves {cc : Bool} {r0 : State} (inp : StartInput) (s : State) (hm : Moves cc r0 s) :
    Moves cc r0 (startRecorder inp s) := by
  unfold startRecorder
  with_reducible repeat' first
    | assumption | exact fun _ => rfl | apply Moves.ite | apply recorderFailed_moves | apply tick_moves
    | apply setF_moves | apply writeNow_moves | apply anchor_moves | apply happen_moves | (apply Moves.mk; assumption)
    | intro _ | extract_lets | split | (apply Moves.mk; apply writeNow_moves)

theorem standaloneAtStart_moves {cc : Bool} {r0 : State} (s : State) (hm : Moves cc r0 s) :
    Moves cc r0 (standaloneAtStart s) := by
  unfold standaloneAtStart
  with_reducible repeat' first
    | assumption | exact fun _ => rfl | apply Moves.ite | apply standaloneNs_moves | (apply Moves.mk; assumption)
    | intro _

theorem firstStart_moves {cc : Bool} {r0 : State} (s : State) (hm : Moves cc r0 s) :
    Moves cc r0 (firstStart s) := by
  unfold firstStart
  with_reducible repeat' first
    | assumption | exact fun _ => rfl | apply Moves.ite | apply setF_moves | intro _ | extract_lets
    | (apply Moves.mk; apply setF_moves)

theorem reopenSeals_moves {cc : Bool} {r0 : State} (s : State) (hm : Moves cc r0 s) :
    Moves cc r0 (reopenSeals s) := by
  unfold reopenSeals
  with_reducible repeat' first
    | exact fun _ => rfl | apply closeEpoch_moves | (apply Moves.mk; assumption) | apply Moves.foldl | intro _

theorem resumeWork_moves {cc : Bool} {r0 : State} (s : State) (hm : Moves cc r0 s) :
    Moves cc r0 (resumeWork s) := by
  unfold resumeWork
  with_reducible repeat' first
    | assumption | apply Moves.ite | apply startRebuild_moves | apply noteRebuild_moves | apply noteSpares_moves
    | apply reopenSeals_moves | apply eraseAll_moves | intro _

theorem finishStart_moves {cc : Bool} {r0 : State} (inp : StartInput) (s : State) (hm : Moves cc r0 s) :
    Moves cc r0 (finishStart inp s) := by
  unfold finishStart
  with_reducible repeat' first
    | assumption | exact fun _ => rfl | apply Moves.ite | apply setF_moves | apply happen_moves | intro _
    | extract_lets | (apply Moves.mk; apply happen_moves) | (apply Moves.mk; apply endStart_moves)

theorem runS12_moves {cc : Bool} {r0 : State} (inp : StartInput) (s : State) (hm : Moves cc r0 s) :
    Moves cc r0 (runS12 inp s) := by
  unfold runS12
  with_reducible repeat' first
    | assumption | apply armAtStart_moves | apply noteFails_moves | apply stepOut_moves | apply setF_moves
    | apply standaloneAtStart_moves | apply firstStart_moves | apply finishStart_moves | apply startRecorder_moves
    | apply resumeWork_moves | apply Moves.foldl | intro _

theorem runStep_moves {r0 : State} (r : StartRun) (s : State) (hm : Moves false r0 s) :
    Moves false r0 (runStep r s) := by
  unfold runStep
  with_reducible repeat' first
    | assumption | apply haltStep_moves | apply doS01_moves | apply doS02_moves | apply doS03_moves
    | apply runS04_moves | apply runS05_moves | apply runS06_moves | apply runS07_moves | apply runS08_moves
    | apply runS09_moves | apply runS10_moves | apply runS11_moves | apply runS12_moves | extract_lets | split

theorem runStart_moves {r0 : State} (n : Nat) (s : State) (hm : Moves false r0 s) : Moves false r0 (runStart n s) := by
  induction n generalizing s with
  | zero => exact hm
  | succ n ih =>
    unfold runStart
    split
    · exact hm
    · rename_i r _
      extract_lets s0 s1
      have h0 : Moves false r0 s0 := .ite (fun _ => hm) (fun _ => setF_moves _ _ _ hm)
      have h1 : Moves false r0 s1 := runStep_moves _ _ h0
      refine .ite (fun _ => h0) (fun _ => ?_)
      split
      · exact h1
      · exact ih _ (.mk h1 (fun _ => rfl))

theorem beginStart_moves {r0 : State} (cold : Bool) (trigger : Nat) (inp : StartInput) (s : State) (hm : Moves false r0 s) :
    Moves false r0 (beginStart cold trigger inp s) := by
  unfold beginStart
  with_reducible repeat' first
    | exact fun _ => rfl | apply freshState_moves | apply setF_moves | apply runStart_moves
    | (apply Moves.mk; assumption) | extract_lets | split | (apply Moves.mk; apply setF_moves)

theorem lostPower_moves {cc : Bool} {r0 : State} (s : State) (hm : Moves cc r0 s) :
    Moves cc r0 (lostPower s) := by
  unfold lostPower
  with_reducible repeat' first | assumption | apply endStart_moves | apply setF_moves | split

theorem powerOn_moves {r0 : State} (inp : StartInput) (s : State) (hm : Moves false r0 s) :
    Moves false r0 (powerOn inp s) := by
  unfold powerOn
  with_reducible repeat' first | assumption | apply beginStart_moves | apply lostPower_moves

theorem leaveOff_moves {r0 : State} (inp : StartInput) (s : State) (hm : Moves false r0 s) :
    Moves false r0 (leaveOff inp s) := by
  unfold leaveOff
  with_reducible repeat' first
    | assumption | exact fun _ => rfl | apply Moves.ite | apply beginStart_moves | (apply Moves.mk; assumption)
    | intro _ | extract_lets | split

theorem restartAfterGrout_moves {r0 : State} (inp : StartInput) (s : State) (hm : Moves false r0 s) :
    Moves false r0 (restartAfterGrout inp s) := by
  unfold restartAfterGrout
  with_reducible repeat' first | assumption | apply Moves.ite | apply beginStart_moves | intro _

theorem stepTimedOut_moves {r0 : State} (step : Nat) (altLeft : Bool) (s : State) (hm : Moves false r0 s) :
    Moves false r0 (stepTimedOut step altLeft s) := by
  unfold stepTimedOut
  with_reducible repeat' first
    | assumption | exact fun _ => rfl | apply Moves.ite | apply runStart_moves | (apply Moves.mk; assumption)
    | intro _ | extract_lets | split

theorem startCut_moves {cc : Bool} {r0 : State} (thermal : Bool) (s : State) (hm : Moves cc r0 s) :
    Moves cc r0 (startCut thermal s) := by
  unfold startCut
  with_reducible repeat' first
    | assumption | exact fun _ => rfl | apply Moves.ite | apply happen_moves | apply addF_moves | intro _
    | extract_lets | (apply Moves.mk; apply cutStart_moves)

theorem execPowerOnStart_moves {r0 : State} (inp : StartInput) (s : State) (hm : Moves false r0 s) :
    MovesR false r0 (execPowerOnStart inp s) := by
  unfold execPowerOnStart
  with_reducible repeat' first | assumption | apply MovesR.next | apply powerOn_moves

theorem execOffExit_moves {r0 : State} (inp : StartInput) (s : State) (hm : Moves false r0 s) :
    MovesR false r0 (execOffExit inp s) := by
  unfold execOffExit
  with_reducible repeat' first | assumption | apply MovesR.next | apply leaveOff_moves

theorem execGroutRestart_moves {r0 : State} (inp : StartInput) (s : State) (hm : Moves false r0 s) :
    MovesR false r0 (execGroutRestart inp s) := by
  unfold execGroutRestart
  with_reducible repeat' first | assumption | apply MovesR.next | apply restartAfterGrout_moves

theorem execStartStepTimeout_moves {r0 : State} (step : Nat) (alternateLeft : Bool) (s : State) (hm : Moves false r0 s) :
    MovesR false r0 (execStartStepTimeout step alternateLeft s) := by
  unfold execStartStepTimeout
  with_reducible repeat' first | assumption | apply MovesR.next | apply stepTimedOut_moves

theorem execStartInterrupted_moves {cc : Bool} {r0 : State} (thermal : Bool) (s : State) (hm : Moves cc r0 s) :
    MovesR cc r0 (execStartInterrupted thermal s) := by
  unfold execStartInterrupted
  with_reducible repeat' first | assumption | apply MovesR.next | apply startCut_moves

end Sys2Proof.Machine
end

