-- ==== Sys2Proof/Tests/Slice0.lean ====
section
/-!
SUPPORT. Tests/Slice0.lean: small tests of the model: ill-formed commands that WellFormed refuses, single steps whose results are
worked out from the spec, and, for every statement that has hypotheses, a state and operands that meet them.
-/

namespace Sys2Proof.Tests

open Sys2Proof Sys2Proof.Machine

set_option Elab.async false

/-! ## States to test on -/

/-- A part that runs in ZONED from one seal epoch on, port A's link up. -/
def up : State :=
  { State.reset with
    regs := [(0x10C, 0x22), (0x1108, 0x3FB), (0x3104, 0x8008), (0x14108, 0x201)]
    map := { MapSt.reset with loaded := true }
    beat := { BeatSt.reset with count := 1048576 } }

/-- A state with registers written. -/
def regs (l : List (Nat × Nat)) (s : State) : State := l.foldl (fun t p => setR p.1 p.2 t) s

/-- A state with fields written. -/
def flds (l : List (Fld × Nat)) (s : State) : State := l.foldl (fun t p => setF p.1 p.2 t) s

/-- A state at another beat. -/
def atBeat (n : Nat) (s : State) : State := { s with beat := { s.beat with count := BitVec.ofNat 64 n } }


/-! ## Hosts -/

def h0 : CmdHead := ⟨0, 0, 7, 1⟩
def h1 : CmdHead := ⟨0, 1, 8, 1⟩

/-- Function 0 of `up` is enabled; its admin queue and I/O queue 1 hold a command; namespace 1 is conventional, namespace 2 zoned. -/
def hosted : State :=
  { up with host := { up.host with
      fns := [(0, { fn0 with en := true, rdy := true })]
      sqs := [(0, { sq0 with size := 4096, tail := 1 }), (1, { sq0 with size := 64, cq := 1, tail := 1 })]
      cqs := [(0, { cq0 with size := 4096 }), (1, { cq0 with size := 64, vector := 1 })]
      ns := [(1, { ns0 with nsze := 4096, attached := true, handles := [0] }), (2, { ns0 with nsze := 4096, attached := true, zoned := true })] } }

/-- `hosted` once its queue has given up a command. -/
def gave (h : CmdHead) (s : State) : State := (takeCmd h s).getD s

/-- A command stands in the table. -/
def cmdAt (i : Nat) (c : Cmd) (s : State) : State := setCmd i c s

/-- A read stands in the table. -/
def rdAt (i : Nat) (r : Rd) (s : State) : State := setRd i r s
theorem witness_beatRegisters : reach up Reg.BEAT_WIN_APPLY = .ok ∧ reach up Reg.BEAT_ORIGIN_LO = .ok ∧
    reach up Reg.BEAT_ORIGIN_HI = .ok ∧ reach up Reg.BEAT_HOST_OFFSET_HI = .ok ∧ reach up Reg.BEAT_COUNT_LO = .ok := by
  decide +kernel

theorem witness_windowsDue :
    winDue (flds [(F.BEAT_WIN_APPLY_ARM, 1)] (atBeat 0 up)) = true ∧
    (∀ w ∈ pendingWins (flds [(F.BEAT_WIN_APPLY_ARM, 1)] (atBeat 0 up)), w.1 = 0 ∨ w.2.1 + w.2.2 ≤ 64 * w.1) ∧
    winDue (regs [(Reg.BEAT_WIN_APPLY, 0x80000000), (0x3190, 1), (0x3194, 1), (0x3198, 64)] (atBeat 0 up)) = true ∧
    (∃ w ∈ pendingWins (regs [(Reg.BEAT_WIN_APPLY, 0x80000000), (0x3190, 1), (0x3194, 1), (0x3198, 64)] (atBeat 0 up)),
      w.1 ≠ 0 ∧ 64 * w.1 < w.2.1 + w.2.2) := by decide +kernel

theorem witness_lockSource : reach up Reg.BEAT_CTRL = .ok ∧ lockState up = lockFree ∧
    lockState (flds [(F.BEAT_STATUS_LOCK_STATE, 2)] up) = lockLocked := by decide +kernel

theorem witness_measure : lockSrc (flds [(F.BEAT_CTRL_SRC, 1)] up) = 1 ∧
    isSet (flds [(F.BEAT_CTRL_SRC, 1)] up) (F.HOST_LINK_STATUS_UP (ptmPort (flds [(F.BEAT_CTRL_SRC, 1)] up))) = true ∧
    lockSrc (flds [(F.BEAT_CTRL_SRC, 2)] up) = 2 := by decide +kernel

/-- A part that is locked to a source. -/
def locked (src fails : Nat) : State :=
  let s := flds [(F.BEAT_CTRL_SRC, src), (F.BEAT_STATUS_LOCK_STATE, 2)] up
  { s with beat := { s.beat with ptmFails := fails, syncMisses := fails } }

theorem witness_loss : lockState (locked 1 0) = lockLocked ∧ lockSrc (locked 1 0) = 1 ∧
    (locked 1 0).beat.ptmFails + 1 < getF (locked 1 0) F.BEAT_PTM_CFG_LOSS_COUNT ∧ (locked 1 0).beat.faulted = false ∧
    getF (locked 1 15) F.BEAT_PTM_CFG_LOSS_COUNT ≤ (locked 1 15).beat.ptmFails + 1 ∧ lockSrc (locked 2 0) = 2 ∧
    (locked 2 0).beat.syncMisses + 1 < getF (locked 2 0) F.BEAT_SYNC_CFG_MISS_LIMIT ∧
    getF (locked 2 15) F.BEAT_SYNC_CFG_MISS_LIMIT ≤ (locked 2 15).beat.syncMisses + 1 := by decide +kernel

theorem witness_eventPages : isPage baseKiln = true ∧ reach up (Reg.EVT_FORCE baseKiln) = .ok ∧ causePage baseKiln = false ∧
    isPage baseMemchk = true ∧ reach up (Reg.EVT_FORCE baseMemchk) = .ok ∧ causePage baseMemchk = true ∧
    reach up (Reg.EVT_EN baseKiln) = .ok ∧ reach up (Reg.EVT_PEND baseKiln) = .ok ∧ reach up (Reg.EVT_PEND baseMemchk) = .ok ∧
    reach up (Reg.EVT_ROUTE 255) = .ok := by decide +kernel

theorem witness_messages : 0 ∈ { up with msixDue := [0] }.msixDue ∧ tget (fun _ => 0) up.msixBeat 0 ≠ beatNow up + 1 ∧
    isSet up (F.HOST_LINK_STATUS_UP 0) = true ∧ 1001 ∉ up.beat.frameRaised ∧ reach up Reg.EVT_FW_RAISE = .ok ∧
    248 ≤ bitsOf (0x80F8 : W32).toNat 0 8 ∧ 128 ≤ bitsOf (0x80F8 : W32).toNat 8 8 ∧
    isSet (flds [(F.EVT_ROUTE_REC 248, 1)] up) (F.EVT_ROUTE_REC 248) = true ∧ asleep up = false ∧
    bitsOf (0x80F7 : W32).toNat 0 8 < 248 := by decide +kernel

/-- An intake entry. -/
def ent : IntakeEnt := { src := 8, typ := 0, sev := 2, forced := false, count := 1, beat := 1048576, cycle := 0, counted := true, rest := [] }

theorem witness_intake : modeNow up ≠ 15 ∧ ent.typ ≠ 3 ∧
    frozen { up with recd := { up.recd with intake := [ent] } } = false ∧
    { up with recd := { up.recd with intake := [ent] } }.recd.ring.length < ringCap { up with recd := { up.recd with intake := [ent] } } ∧
    frozen (flds [(F.REC_STATUS_FROZEN, 1)] up) = true ∧ ent.sev < 4 ∧ up.recd.fifo.length < 63 := by decide +kernel

theorem witness_recorder : reach up Reg.REC_CURSOR = .ok ∧ reach up Reg.REC_CTRL = .ok ∧
    freezeExpired (atBeat (64 * 4096) (flds [(F.REC_STATUS_FROZEN, 1)] up)) = true ∧
    getF (locked 1 0) F.REC_CFG_ANCHOR_EPOCHS ≠ 0 ∧
    beatNow (atBeat (2 ^ 30) (locked 1 0)) % (65536 * getF (atBeat (2 ^ 30) (locked 1 0)) F.REC_CFG_ANCHOR_EPOCHS) = 0 ∧
    3 ∉ up.beat.once := by decide +kernel

/-! ## Plans and die work -/

/-- A plan entry. -/
def pe (op body : Nat) : PlanEntry := ⟨0, 0, 0, false, op, body, 0, 0⟩

/-- The plan of a unit for the present beat holds one entry. -/
def plan (u : PlanUnit) (e : PlanEntry) (s : State) : State :=
  setBuf u (beatNow s) ⟨beatNow s % 2 ^ 32, true, false, false, false, writerOf s u, [⟨e, 0, false, 0, 0, false⟩]⟩ s

/-- A die operation on LUN 0 of channel 0. -/
def op0 (kind : DieKind) : DieOp :=
  { kind := kind, targets := [(0, 0, 1)], cell := 1, param := 0, tile := 0, bg := false, borrowed := false
    beat := 1048576, slot := 0, susUsed := 0, susBeat := 0 }

def busy (kind : DieKind) (s : State) : State := setLun 0 0 { getLun s 0 0 with op := some (op0 kind) } s

theorem witness_boundaries : countRuns up = true ∧ countRuns State.reset = false ∧ headerNow up = true ∧
    frameNow up % flushInterval up = 0 ∧ up.grout.frozen = false ∧ beatNow up % 65536 = 0 ∧ mapStill up = false ∧
    headerNow (atBeat 1048577 up) = false := by decide +kernel

theorem witness_commit : capKept up (.fch 0) (beatNow up + 2) [pe 1 0] = true ∧ openBuf up 1048578 = true ∧
    writerOf up (.fch 0) = 0 ∧ running up = true ∧ openBuf up 1048577 = false ∧ openBuf up 1048576 = false ∧
    openBuf up 1048579 = false := by decide +kernel

theorem witness_silent :
    plannerSilent { up with beat := { up.beat with holdRun := [(0, 64), (1, 64), (2, 64), (3, 64)] } } 0 = true ∧
    plannerSilent up 0 = false := by decide +kernel

theorem witness_entries : (entryAt (plan (.fch 0) (pe 1 0) up) (.fch 0) 0 1).isSome = true ∧
    entryAt up (.fch 0) 0 1 = none ∧ (entryAt (plan (.fch 0) (pe 0 0) up) (.fch 0) 0 0).isSome = true ∧
    (entryAt (plan (.lane 3) (pe 0 0) up) (.lane 3) 0 0).isSome = true ∧
    (entryAt (plan (.mac 1) (pe 0 0) up) (.mac 1) 0 0).isSome = true ∧
    (entryAt (plan (.poster 1) (pe 0 0) up) (.poster 1) 0 0).isSome = true ∧
    (entryAt (plan .hod (pe 0 0) up) .hod 0 0).isSome = true := by decide +kernel

theorem witness_launch : mayErase up 0 0 4000 = true ∧ mayErase up 0 0 0 = false ∧ bgBeat up = true ∧ (getLun up 0 0).op.isNone = true ∧
    (getLun (busy .read up) 0 0).op.isSome = true ∧ eLun (pe 1 0) = 0 ∧
    bgBeat { up with beat := { up.beat with bgOnly := true } } = false ∧ (pe 1 0).cls ≠ 3 ∧
    joins (busy .read up) 0 ⟨{ pe 1 0 with join := true }, 0, false, 0, 0, false⟩ = true := by decide +kernel

theorem witness_dieEnd : suspendable (busy .erase up) 0 (op0 .erase) = true ∧ (pe 5 0).slot = 0 ∧
    suspendable (busy .read up) 0 (op0 .read) = false ∧
    overdue (atBeat (1048576 + 65536) (busy .erase up)) 0 (op0 .erase) = true ∧ overdue (busy .erase up) 0 (op0 .erase) = false ∧
    (getLun (busy .erase up) 0 0).op = some (op0 .erase) ∧ { op0 .erase with bg := true }.bg = true := by decide +kernel

theorem witness_load : eYardValid (pe 8 0) = false ∧ eYardValid (pe 8 (2 ^ 60)) = eYardValid (pe 8 (2 ^ 60)) ∧
    (entryAt (plan (.fch 0) (pe 8 0) up) (.fch 0) 0 8).isSome = true ∧
    (entryAt (plan (.fch 0) (pe 9 0) up) (.fch 0) 0 9).isSome = true := by decide +kernel

/-- A context of a wave that is programmed. -/
def ctxDone (k : CtxKind) : State :=
  setCtx 5 { ctx0 with kind := k, done := List.range 32, doneBeat := 1048570, mortar := [7] } up

theorem witness_contexts : hasCtx (ctxDone .wave) 5 = true ∧ mapOpen (ctxDone .wave) = true ∧
    (getCtx (ctxDone .wave) 5).doneBeat < beatNow (ctxDone .wave) ∧ (getCtx (ctxDone (.flush 9)) 5).kind = .flush 9 ∧
    (getCtx (ctxDone (.ckpt 1 2)) 5).kind = .ckpt 1 2 ∧ (getCtx (ctxDone .rebuild) 5).done ≠ [] ∧
    (∀ k, k < courseWidth (ctxDone .wave) 0 → k ∈ (getCtx (ctxDone .wave) 5).done) ∧
    mapOpen State.reset = false := by decide +kernel

theorem witness_lanes : (entryAt (plan (.lane 0) (pe 4 0) up) (.lane 0) 0 4).isSome = true ∧
    ctxFits (openCtx (eCtx (pe 4 0)) (pe 4 0) up) (pe 4 0) = true ∧
    (entryAt (plan (.lane 0) (pe 2 0) up) (.lane 0) 0 2).isSome = true := by decide +kernel

theorem test_beatBoundary : (match exec .beatBoundary up with | .next t => t.beat.count | _ => 0) = 1048577 := by
  decide +kernel

theorem test_readLaunches : (match exec (.readPage 0 0) (plan (.fch 0) (pe 1 (2 ^ 8)) up) with
    | .next t => (getLun t 0 0).op.map (·.kind) | _ => none) = some .read := by decide +kernel

/-- A host read of block 5 of namespace 1. -/
def rdH (st : RdSt) : Rd :=
  { rd0 with kind := .host, cmd := 3, nsid := 1, lba := 5, st := st, ch := 1, lun := 2, brick := 3, u := 4, t := 5 }

theorem witness_ladder : hasRd (rdAt 0 (rdH .fetched) up) 0 = true ∧ (getRd (rdAt 0 (rdH .fetched) up) 0).st = .fetched ∧
    nextStep up (rdH .fetched) 0 = 1 ∧ nextStep up (rdH .fetched) 1 = 2 ∧ nextStep up (rdH .fetched) 2 = 3 ∧
    nextStep up (rdH .fetched) 3 = 4 ∧ (sourcesOf up { rdH .fetched with step := 3, brick := 3, lun := 0, ch := 0 }).isSome = true ∧
    (getRd (rdAt 0 { rdH .fetched with kind := .sample } up) 0).kind = .sample ∧
    (getRd (rdAt 0 { rdH .fetched with kind := .source 7 } up) 0).kind = .source 7 ∧
    nextStep (flds [(F.LDPC_LADDER_STEP1_EN, 0), (F.LDPC_LADDER_STEP2_EN, 0), (F.LDPC_LADDER_STEP3_EN, 0)] up) (rdH .fetched) 0 = 4 := by
  decide +kernel

theorem witness_macCheck : readSideUp up = true ∧ (rdH .checked).kind = .host ∧ keyGone up 0 = false ∧ 0 ∉ up.mac.bound ∧
    grouting up = false ∧ entYard (rdH .checked).entry = false ∧ nextStep up (rdH .checked) 0 < 4 ∧
    hasCmd (cmdAt 3 { cmd0 with h := h1, kind := .read, left := [5] } up) 3 = true ∧
    readSideUp (flds [(F.MAC_STATUS_REFUSING, 1)] up) = false := by decide +kernel

theorem bits_at (a b c lo w : Nat) (ha : a < 2 ^ lo) (hb : b < 2 ^ w) : bitsOf (a + b * 2 ^ lo + c * 2 ^ (lo + w)) lo w = b := by
  have h : a + b * 2 ^ lo + c * 2 ^ (lo + w) = a + 2 ^ lo * (b + 2 ^ w * c) := by
    rw [Nat.pow_add, Nat.mul_add, Nat.mul_comm b, Nat.add_assoc, Nat.mul_comm c, Nat.mul_assoc]
  unfold bitsOf
  rw [h, Nat.add_mul_div_left _ _ (Nat.two_pow_pos lo), Nat.div_eq_of_lt ha, Nat.zero_add, Nat.add_mul_mod_self_left,
    Nat.mod_eq_of_lt hb]

theorem pow_split (n a b : Nat) (h : n = a + b) : (2 : Nat) ^ n = 2 ^ a * 2 ^ b := by rw [h, Nat.pow_add]

/-- A block that holds nothing but its header and MAC. -/
def bare (hdr mac : Nat) : Blk := mkBlk 0 hdr 0 mac

theorem bare_nat (hdr mac : Nat) (hh : hdr < 2 ^ 128) (hm : mac < 2 ^ 128) :
    (bare hdr mac).toNat = hdr * 2 ^ 32768 + mac * 2 ^ 33024 := by
  have e1 : (2 : Nat) ^ 33152 = 2 ^ 128 * 2 ^ 33024 := pow_split 33152 128 33024 rfl
  have e2 : (2 : Nat) ^ 33024 = 2 ^ 128 * 2 ^ 32896 := pow_split 33024 128 32896 rfl
  have e3 : (2 : Nat) ^ 32896 = 2 ^ 128 * 2 ^ 32768 := pow_split 32896 128 32768 rfl
  have p : (0 : Nat) < 2 ^ 32768 := Nat.two_pow_pos _
  have b1 : hdr * 2 ^ 32768 < 2 ^ 128 * 2 ^ 32768 := Nat.mul_lt_mul_of_pos_right hh p
  have b0 : (2 : Nat) ^ 32896 ≤ 2 ^ 33024 := Nat.pow_le_pow_right (by decide) (by decide)
  have b2 : (mac + 1) * 2 ^ 33024 ≤ 2 ^ 128 * 2 ^ 33024 := Nat.mul_le_mul_right _ hm
  unfold bare mkBlk
  rw [BitVec.toNat_ofNat, Nat.mod_eq_of_lt hh, Nat.mod_eq_of_lt hm, Nat.mod_eq_of_lt]
  · simp only [Nat.zero_mod, Nat.zero_mul, Nat.add_zero, Nat.zero_add]
  · simp only [Nat.zero_mod, Nat.zero_mul, Nat.add_zero, Nat.zero_add]
    rw [Nat.add_mul, Nat.one_mul] at b2
    generalize (2 : Nat) ^ 33152 = A at *
    generalize (2 : Nat) ^ 33024 = B at *
    generalize (2 : Nat) ^ 32896 = C at *
    generalize hdr * 2 ^ 32768 = D at *
    generalize mac * B = E at *
    omega

theorem bare_parts (hdr mac : Nat) (hh : hdr < 2 ^ 128) (hm : mac < 2 ^ 128) :
    blkHdr (bare hdr mac) = hdr ∧ blkMac (bare hdr mac) = mac ∧ blkData (bare hdr mac) = 0 ∧ blkMeta (bare hdr mac) = 0 := by
  have n := bare_nat hdr mac hh hm
  have z : (0 : Nat) < 2 ^ 128 := by decide
  have c1 : hdr * 2 ^ 32768 + mac * 2 ^ 33024 = 0 + hdr * 2 ^ 32768 + mac * 2 ^ 128 * 2 ^ (32768 + 128) := by
    rw [Nat.zero_add, Nat.mul_assoc mac, ← Nat.pow_add]
  have c2 : hdr * 2 ^ 32768 + mac * 2 ^ 33024 = hdr * 2 ^ 32768 + mac * 2 ^ 33024 + 0 * 2 ^ (33024 + 128) := by
    rw [Nat.zero_mul, Nat.add_zero]
  have c3 : hdr * 2 ^ 32768 + mac * 2 ^ 33024 = 0 + 0 * 2 ^ 0 + (hdr + mac * 2 ^ 256) * 2 ^ (0 + 32768) := by
    rw [Nat.zero_mul, Nat.zero_add, Nat.zero_add, Nat.add_mul, Nat.mul_assoc mac, ← Nat.pow_add]
  have c4 : hdr * 2 ^ 32768 + mac * 2 ^ 33024 = hdr * 2 ^ 32768 + 0 * 2 ^ 32896 + mac * 2 ^ (32896 + 128) := by
    rw [Nat.zero_mul, Nat.add_zero]
  have l1 : hdr * 2 ^ 32768 < 2 ^ 32896 := by
    rw [pow_split 32896 128 32768 rfl]
    exact Nat.mul_lt_mul_of_pos_right hh (Nat.two_pow_pos _)
  have l2 : hdr * 2 ^ 32768 < 2 ^ 33024 := Nat.lt_of_lt_of_le l1 (Nat.pow_le_pow_right (by decide) (by decide))
  refine ⟨?_, ?_, ?_, ?_⟩
  · unfold blkHdr; rw [n, c1]; exact bits_at 0 hdr _ 32768 128 (Nat.two_pow_pos _) hh
  · unfold blkMac; rw [n, c2]; exact bits_at _ mac 0 33024 128 l2 hm
  · unfold blkData; rw [n, c3]; exact bits_at 0 0 _ 0 32768 (by decide) (Nat.two_pow_pos _)
  · unfold blkMeta; rw [n, c4]; exact bits_at _ 0 _ 32896 128 l1 z

/-- The block that LBA 5 of namespace 1 holds under key version 0 of tile 0. -/
def block5 : Blk := bare (5 * 2 ^ 16) (macOf 0 (5 * 2 ^ 16) 0 0).toNat

theorem witness_blkOk : blkOk up 0 1 5 0 block5 = true ∧ (blkTag block5).kind = 0 := by
  obtain ⟨a, b, c, d⟩ := bare_parts (5 * 2 ^ 16) (macOf 0 (5 * 2 ^ 16) 0 0).toNat (by decide) (BitVec.isLt _)
  have k : slotKey up (4 * 0 + 0) = 0 := by decide +kernel
  unfold blkOk macOk macUnder hdrOk blkTag block5
  rw [a, b, c, d, k]
  refine ⟨?_, by decide⟩
  rw [decide_eq_true rfl, Bool.true_and]
  decide

theorem witness_blkBad : blkOk up 0 1 5 0 (bare 0 (macOf 0 0 0 0).toNat) = false := by
  obtain ⟨a, -, -, -⟩ := bare_parts 0 (macOf 0 0 0 0).toNat (by decide) (BitVec.isLt _)
  unfold blkOk hdrOk blkTag
  rw [a]
  simp only [Bool.and_eq_false_iff]
  exact .inr (by decide)

theorem witness_macEntries : (entryAt (plan (.mac 0) (pe 1 (2 ^ 20)) up) (.mac 0) 0 1).isSome = true ∧
    (entryAt (plan (.mac 1) (pe 2 0) up) (.mac 1) 0 2).isSome = true ∧
    (entryAt (plan (.mac 1) (pe 3 0) up) (.mac 1) 0 3).isSome = true ∧
    relocSlot { up with map := { up.map with slots := [(9, { slot0 with reloc := true })] } } { rdH .decoded with entry := 0 } = some 9 ∧
    (getSlot { up with map := { up.map with slots := [(9, { slot0 with reloc := true })] } } 9).present = 0 := by decide +kernel

/-- `up` with a write of two blocks in the table, in some state. -/
def wr (st : CmdSt) (left : List Nat) (s : State) : State :=
  cmdAt 3 { cmd0 with h := h1, kind := .write, st := st, slba := 0, nlb := 2, left := left, slots := [4] } s

theorem witness_dataMoves : hasCmd (wr .started [0, 1] hosted) 3 = true ∧ isWrite (getCmd (wr .started [0, 1] hosted) 3).kind = true ∧
    moving (wr .started [0, 1] hosted) = true ∧ writeSideUp (wr .started [0, 1] hosted) = true ∧
    (∃ lba ∈ (getCmd (wr .started [0, 1] hosted) 3).left, ∀ b ∈ [(⟨0, 0, 0, true⟩ : BlockIn)], 0 + b.off ≠ lba) ∧
    (∀ lba ∈ (getCmd (wr .started [0] hosted) 3).left, ∃ b ∈ [(⟨0, 0, 0, true⟩ : BlockIn)], 0 + b.off = lba) ∧
    writeSideUp (flds [(F.MAC_ENGINE_OK_WRITE, 0)] hosted) = false ∧
    (getCmd (cmdAt 3 { cmd0 with h := h1, kind := .read } hosted) 3).st ≠ .ready := by decide +kernel

/-- A slot fills with the write's unit. -/
def filling (s : State) : State := { s with map := { s.map with slots := [(4, { slot0 with st := .filling, nsid := 1, course := some 7 })] } }

theorem witness_admission : hasCmd (wr .fetched [] (filling hosted)) 3 = true ∧ mapReady (wr .fetched [] (filling hosted)) 1 0 2 = true ∧
    (getNs hosted 1).zoned = false ∧ slotsToHand (wr .fetched [] (filling hosted)) 0 (newMus (filling hosted) (getCmd (wr .fetched [] hosted) 3)).length = true ∧
    (takeSlots (getCmd (wr .fetched [] hosted) 3) 0 (musOf 0 2) (unhold 3 (wr .fetched [] (filling hosted)))).isSome = true ∧
    slotsToHand (wr .fetched [] (flds [(F.TILE_YARD_MAX 0, 0)] hosted)) 0 1 = false ∧ (getSq hosted 0 1).held = none ∧
    (getNs hosted 2).zoned = true ∧ hosted.host.zoneActs = [] ∧ hosted.mac.behind = [] := by decide +kernel

theorem witness_noAers (fn : Nat) : 3 ∉ (getFn (wr .fetched [] hosted) fn).aers := by
  have h : ∀ p ∈ (wr .fetched [] hosted).host.fns, p.2.aers = [] := by decide +kernel
  unfold getFn tget
  cases e : (wr .fetched [] hosted).host.fns.find? (fun p => p.1 == fn) with
  | none => simp [fnD, fn0]
  | some p => simp [h p (List.mem_of_find?_eq_some e)]

theorem witness_zoneCheck : zoneCheck { hosted with map := { hosted.map with zones := [(zKey 2 0, { zone0 with st := .offline })] } }
    { cmd0 with h := { h1 with nsid := 2 }, kind := .write, nlb := 1 } = stZoneOffline := by
  have h : (getZone { hosted with map := { hosted.map with zones := [(zKey 2 0, { zone0 with st := .offline })] } } 2 0).st = .offline := by
    decide +kernel
  unfold zoneCheck
  simp [cmd0, h]

theorem witness_palletIdle :
    (getCourse { up with map := { up.map with courses := [(7, { course0 with st := .taken })] } } 7).lastAdm / 64 + getNZ up F.YARD_CFG_PALLET_IDLE ≤ frameNow up ∧
    (getCourse { up with map := { up.map with courses := [(7, { course0 with st := .taken })] } } 7).st = .taken ∧
    frameNow (atBeat 0 up) < 0 / 64 + getNZ up F.YARD_CFG_PALLET_IDLE := by decide +kernel

/-! ## Commands of the host interface -/

theorem gave_eq {h : CmdHead} {s : State} (e : (takeCmd h s).isSome = true) : takeCmd h s = some (gave h s) := by
  unfold gave
  cases hs : takeCmd h s with
  | none => rw [hs] at e; cases e
  | some u => rfl

theorem take0 : takeCmd h0 hosted = some (gave h0 hosted) := gave_eq (by decide +kernel)
theorem take1 : takeCmd h1 hosted = some (gave h1 hosted) := gave_eq (by decide +kernel)

/-- Every admin command of function 0's admin queue runs on `hosted`. -/
theorem witness_adminRuns (c : Instr) (r : AdminRow) (e : adminRow hosted c = some r) (hh : r.h = h0) :
    adminRuns hosted c (gave h0 hosted) := by
  have m : modeNow hosted = 2 := by decide +kernel
  have p : isPF0 hosted h0.fn = true := by decide +kernel
  refine ⟨r, e, ⟨?_, ?_, ?_, ?_⟩, ?_⟩
  · rw [hh]; exact .inr p
  all_goals first
    | rw [hh]; exact take0
    | intro h; rw [m] at h; exact absurd h (by decide)

/-- Every I/O command on namespace 1 runs on `hosted`. -/
theorem witness_ioRuns (c : Instr) (kind : CmdKind) (reads : Bool) (e : ioRow c = some (h1, kind, reads)) : ioRuns hosted c (gave h1 hosted) := by
  have m : modeNow hosted = 2 := by decide +kernel
  refine ⟨h1, kind, reads, e, take1, by decide +kernel, by decide +kernel, ?_, ?_, ?_, ?_⟩
  · rw [m]; decide
  · rw [m]; decide
  · intro h; rw [m] at h; exact absurd h (by decide)
  · intro x hx
    have r : (decide (hosted.mems.absentLines = []) && hosted.mems.absentCh.isNone) = true := by decide +kernel
    unfold mapReady
    rw [r]
    rfl

theorem witness_gates : takeCmd h0 up = none ∧ isPF0 hosted 5 = false ∧
    modeNow (flds [(F.TOP_MODE_MODE, 5)] hosted) = modeSanitize ∧ (takeCmd h0 (flds [(F.TOP_MODE_MODE, 5)] hosted)).isSome = true ∧
    (takeCmd h0 (flds [(F.TOP_MODE_MODE, 0)] hosted)).isSome = true ∧ (takeCmd h1 (flds [(F.TOP_MODE_MODE, 4)] hosted)).isSome = true ∧
    nsOk hosted h1 = true ∧ nsOk hosted { h1 with nsid := 9 } = false ∧ dweDue hosted 1 = false ∧
    dweDue { hosted with host := { hosted.host with ns := [(1, { ns0 with nsze := 4096, attached := true, dwe := true })] } } 1 = true ∧
    mapReady { hosted with mems := { hosted.mems with absentCh := some 0, absentLines := [0] } } 1 0 2 = false := by decide +kernel

theorem witness_queueHeads : serving hosted 0 = true ∧ (getSq hosted 0 1).size ≠ 0 ∧ (getSq hosted 0 1).held = none ∧
    (getSq hosted 0 1).granted = 0 ∧ (getSq hosted 0 1).head ≠ (getSq hosted 0 1).tail ∧ fetches hosted 0 = true ∧
    0 < (getSq (setSq 0 1 { getSq hosted 0 1 with granted := 2 } hosted) 0 1).granted := by decide +kernel

theorem witness_doorbells : (getCq hosted 0 1).size ≠ 0 ∧ 63 < (getCq hosted 0 1).size ∧ (getCq hosted 0 1).size ≤ 64 ∧
    (getSq hosted 0 1).size ≠ 0 ∧ 63 < (getSq hosted 0 1).size ∧ hosted.top.off = false ∧ (getSq hosted 0 9).size = 0 ∧
    powerNow (flds [(F.PWR_STATE_CUR, 1)] hosted) = 1 ∧ 2 ≤ powerNow (flds [(F.PWR_STATE_CUR, 2)] hosted) := by decide +kernel

theorem witness_fetch : searchDepth hosted 0 < 512 ∧
    rotate (tget zeroT hosted.host.fetchPtr 0)
      (if (requesters hosted 0).filter (asksUrgent hosted 0) ≠ [] then (requesters hosted 0).filter (asksUrgent hosted 0)
       else requesters hosted 0) ≠ none ∧ tileOfFn hosted 0 = some 0 ∧ requesters up 0 = [] := by decide +kernel

/-- A completion plan of core 0 that posts command 0 of function 0. -/
def posts (op : Nat) (c : Cmd) : State := plan (.poster 0) (pe op 0) (cmdAt 0 c hosted)

theorem witness_posting : (entryAt (posts 1 { cmd0 with h := h1, st := .ready }) (.poster 0) 0 1).isSome = true ∧
    (entryAt (posts 2 { cmd0 with h := h1, st := .ready }) (.poster 0) 0 2).isSome = true ∧ eCmd (pe 1 0) = 0 ∧ eFn (pe 1 0) = 0 ∧
    hasCmd (posts 1 { cmd0 with h := h1, st := .ready }) 0 = true ∧ hasCmd (plan (.poster 0) (pe 1 0) hosted) 0 = false ∧
    (getCmd (posts 1 { cmd0 with h := h1, st := .ready }) 0).due ≤ beatNow up ∧
    beatNow up < (getCmd (posts 1 { cmd0 with h := h1, st := .ready, due := 1048577 }) 0).due ∧
    isSet hosted (F.HOST_CPL_STAT_PAUSED (portOf hosted 0)) = false ∧ cqFull (getCq hosted 0 (cqOf hosted { cmd0 with h := h1 })) = false ∧
    cqFull { cq0 with size := 2, tail := 1 } = true ∧ grouting hosted = false ∧ running hosted = true := by decide +kernel

theorem witness_queues : tileOfFn (gave h0 hosted) 0 = some 0 ∧ (getSq (gave h0 hosted) 0 4096).size = 0 ∧
    (getSq (gave h0 hosted) 0 2).size = 0 ∧ sqCount (gave h0 hosted) 0 < getF (gave h0 hosted) (F.TILE_QUEUES_MAX_QP 0) ∧
    (getCq (gave h0 hosted) 0 1).size ≠ 0 ∧ (getCq (gave h0 hosted) 0 2).size = 0 ∧
    cqCount (gave h0 hosted) 0 < getF (gave h0 hosted) (F.TILE_QUEUES_MAX_QP 0) ∧ 1 < getF (gave h0 hosted) (F.TILE_QUEUES_MAX_VEC 0) ∧
    (getSq (gave h0 hosted) 0 1).size ≠ 0 ∧
    (∃ x ∈ (gave h0 hosted).host.sqs, x.1 / 8192 = 0 ∧ x.1 % 8192 ≠ 0 ∧ x.2.cq = 1) ∧
    (∀ x ∈ (gave h0 (setSq 0 1 sq0 hosted)).host.sqs, x.1 / 8192 = 0 → x.1 % 8192 ≠ 0 → x.2.cq ≠ 1) := by decide +kernel

theorem witness_logs : (stdLog (gave h0 hosted) 0 0x03 64).isSome = true ∧ stdLog (gave h0 hosted) 0 0xFF 64 = none ∧ 64 ≤ maxXfer ∧
    idOf (gave h0 hosted) h0 0xFF = none ∧ (idOf (gave h0 hosted) h0 0x02).isSome = true := by decide +kernel

theorem witness_features : psAllowed (gave h0 hosted) 0 = 0 ∧ isPF0 (gave h0 hosted) 0 = true ∧
    psAllowed (gave h0 (flds [(F.TOP_MODE_MODE, 5)] hosted)) 4 = 1 ∧
    tileNs (gave h0 hosted) 0 ≠ [] ∧ tileNs { hosted with host := { hosted.host with ns := [] } } 0 = [] ∧
    0 ∈ { hosted with host := { hosted.host with fdpTiles := [0] } }.host.fdpTiles := by decide +kernel

/-- `hosted` with a read in flight under identifier 9 of queue 1. -/
def flying (st : CmdSt) : State := cmdAt 5 { cmd0 with h := ⟨0, 1, 9, 1⟩, kind := .read, st := st } hosted

theorem witness_abort : findCmd (gave h0 (flying .fetched)) 0 1 9 = some 5 ∧ 5 ≠ (gave h0 (flying .fetched)).host.nextCmd ∧
    abortable (gave h0 (flying .fetched)) (getCmd (gave h0 (flying .fetched)) 5) = true ∧
    abortable (gave h0 (flying .ready)) (getCmd (gave h0 (flying .ready)) 5) = false := by decide +kernel

theorem witness_namespaces : modeNow (gave h0 hosted) ≠ modeStandalone ∧ modeNow (gave h0 hosted) ≠ modeDegraded ∧
    0 ∉ (gave h0 hosted).host.fdpTiles ∧ (tileNs (gave h0 hosted) 0).length < getF (gave h0 hosted) (F.TILE_NS_MAX_NS 0) ∧
    ((List.range 1024).map (· + 1)).find? (fun m => !nsExists (gave h0 hosted) m) = some 3 ∧
    nsExists (gave h0 hosted) h0.nsid = true ∧ (getNs (gave h0 hosted) h0.nsid).tile = 0 ∧
    (getNs (gave h0 hosted) h0.nsid).attached ≠ false ∧ h0.nsid ≠ allNs := by decide +kernel

theorem witness_reserved : reservedOf hosted 0 + leaving hosted (fun j => decide (j = 0)) + (newNs hosted 0 false 4096 0 []).reserved ≤
    getF hosted (F.TILE_COURSES_MAX 0) := by decide +kernel

def img0 : ImageInfo := image0

theorem witness_download : stagingSize < 4096 + stagingSize ∧ 4096 + 4096 ≤ stagingSize ∧ (gave h0 hosted).sec.stagingFn = none ∧
    (∀ x ∈ (gave h0 hosted).sec.staging, 4096 + 4096 ≤ x.1 ∨ x.1 + x.2.1 ≤ 4096) ∧ stagingSize - 4096 + 4096 ≤ stagingSize := by
  decide +kernel

/-- `hosted` with an image in the staging buffer. -/
def stagedFw : State := { hosted with sec := { hosted.sec with staging := [(0, 4096, 1)], stagingFn := some 0 } }

theorem witness_commits : (gave h0 stagedFw).sec.commit = none ∧ (gave h0 stagedFw).sec.act = none ∧ inLoader (gave h0 stagedFw) = false ∧
    2 < fwTarget (gave h0 stagedFw) 3 ∧ fwTarget (gave h0 stagedFw) 2 ≤ 2 ∧
    fwTarget (gave h0 stagedFw) 2 ≠ getF (gave h0 stagedFw) F.SEC_STATUS_ACTIVE_SLOT ∧ (gave h0 stagedFw).sec.staging ≠ [] ∧
    imageFail (gave h0 stagedFw) img0 = 0 ∧ (getSlotFw (gave h0 stagedFw) (fwTarget (gave h0 stagedFw) 1)).img = some img0 ∧
    fwTarget (gave h0 stagedFw) 1 = 1 ∧ modeNow (gave h0 stagedFw) ≠ modeRecovery ∧ hitless (gave h0 stagedFw) img0 = true := by
  decide +kernel

/-- A commit waits for its image to be stored. -/
def storing (action : Nat) : State :=
  { hosted with sec := { hosted.sec with commit := some { cmd := none, tag := 5, action := action, fs := 2, img := img0 } } }

theorem witness_stored : (storing 3).sec.commit = some { cmd := none, tag := 5, action := 3, fs := 2, img := img0 } ∧
    inLoader (storing 3) = false ∧ modeNow (storing 3) ≠ modeRecovery ∧ hitless (storing 3) img0 = true ∧ hosted.sec.commit = none := by
  decide +kernel

theorem witness_modeRequests : modeNow (gave h0 hosted) = modeZoned ∧
    modeNow (gave h0 (flds [(F.TOP_MODE_MODE, 1)] hosted)) = modeStandalone ∧
    modeNow (gave h0 (flds [(F.TOP_MODE_MODE, 4), (F.TOP_MODE_CAUSE_EVAC_HOST, 1)] hosted)) = modeEvacuate ∧
    getF (gave h0 (flds [(F.TOP_MODE_MODE, 4), (F.TOP_MODE_CAUSE_EVAC_HOST, 1)] hosted)) F.TOP_MODE_BASE ≠ modeEvacuate ∧
    isSet (gave h0 (flds [(F.TOP_MODE_MODE, 4), (F.TOP_MODE_CAUSE_EVAC_HOST, 1)] hosted)) F.TOP_MODE_CAUSE_EVAC_HOST = true ∧
    isSet (gave h0 hosted) F.TOP_MODE_CAUSE_EVAC_SPARES = false ∧ isSet (gave h0 hosted) F.TOP_MODE_CAUSE_EVAC_WSEQ = false ∧
    (modeSanitize ≠ modeZoned ∧ modeSanitize ≠ modeEvacuate ∧ modeSanitize ≠ getF (gave h0 hosted) F.TOP_MODE_BASE) := by
  decide +kernel

theorem witness_sanitize : (∀ k, k < 64 → 1 ≤ k → tileState (gave h0 hosted) k = tFree) ∧
    tileState (flds [(F.TILE_STATE_STATE 63, 1)] hosted) 63 ≠ tFree ∧
    isSet (flds [(F.TOP_MODE_CAUSE_SANITIZING, 1)] hosted) F.TOP_MODE_CAUSE_SANITIZING = true ∧ running hosted = true ∧
    isSet hosted F.TOP_MODE_CAUSE_SANITIZING = false := by decide +kernel

theorem witness_allErased : ∃ s : State, allErased s = true ∧ s.top.sanStat = 2 ∧ isSet s F.TOP_MODE_CAUSE_SANITIZING = true ∧
    running s = true := by
  refine ⟨flds [(F.TOP_MODE_CAUSE_SANITIZING, 1)] { up with top := { up.top with sanStat := 2 } }, ?_⟩
  decide +kernel

theorem witness_recorderGates : reach up Reg.REC_CTRL = .ok ∧ frozen up = false ∧ frozen (flds [(F.REC_STATUS_FROZEN, 1)] up) = true := by
  decide +kernel

theorem witness_management : reach (gave h0 hosted) 0x4000 = .ok ∧ 0x4000 % 4 = 0 ∧ 0x4000 + 4 ≤ windowSize ∧
    windowSize < windowSize - 4 + 4 * 2 ∧ (List.replicate 1025 (0 : W32)).length > 1024 := by decide +kernel

theorem witness_sleeping : ∃ s : State, ∃ a, reach s a = .sleeping ∧ a % 4 = 0 ∧ a + 4 ≤ windowSize ∧ (takeCmd h0 s).isSome = true ∧
    reach (gave h0 s) a = .sleeping := by
  refine ⟨flds [(F.PWR_DOM_STAT_ON, 1)] hosted, 0x14000, ?_⟩
  decide +kernel

/-! ## I/O commands -/

theorem witness_writes : (getNs (gave h1 hosted) 1).zoned = false ∧ 0 + 1 ≤ (getNs (gave h1 hosted) 1).nsze ∧
    4000 + 96 ≤ (getNs (gave h1 hosted) 1).nsze ∧ (getNs (gave h1 hosted) 1).nsze < 4000 + 97 ∧
    writeSideUp (gave h1 hosted) = true ∧
    writeRefusal (gave h1 (flds [(F.MAC_SLOT_STATE 0, 1)] hosted)) h1 0 1 = none ∧
    writeSideUp (gave h1 (flds [(F.MAC_ENGINE_OK_WRITE, 0)] hosted)) = false ∧
    (getNs (gave h1 hosted) 2).zoned = true := by decide +kernel

/-- `hosted` with a map entry for the first unit of namespace 1, and slot 9 holding block 5 of it. -/
def mapped (e : Ent) : State :=
  { hosted with map := { hosted.map with
      lines := tset lineD 0 (BitVec.ofNat 512 (e.toNat * 2 ^ (40 * (muOf hosted 1 5).2))) []
      slots := [(9, { slot0 with st := .staged, nsid := 1, present := 0xFFFF })] } }

theorem witness_reads : (muOf hosted 1 5).1 = 0 ∧ readRefusal (gave h1 hosted) h1 5 1 512 = none ∧ grouting (gave h1 hosted) = false ∧
    placeOf (gave h1 hosted) 1 5 = .unmapped ∧ placeOf (gave h1 (mapped (lostEnt 0))) 1 5 = .lost ∧
    placeOf (gave h1 (mapped (flashEnt 1 2 3 4 0 1))) 1 5 = .flash (flashEnt 1 2 3 4 0 1) ∧
    erasedAt (gave h1 (mapped (flashEnt 1 2 3 4 0 1))) 0 (flashEnt 1 2 3 4 0 1) = false ∧
    lunLost (gave h1 (mapped (flashEnt 1 2 3 4 0 1))) 1 2 = false ∧
    placeOf (gave h1 (mapped (yardEnt 9 0))) 1 5 = .slot 9 (yardEnt 9 0) ∧
    readRefusal (gave h1 hosted) h1 4095 2 512 = some stLbaRange ∧ readRefusal (gave h1 hosted) h1 0 513 512 = some stField ∧
    readRefusal (gave h1 hosted) h1 0 4097 65536 = some stLbaRange ∧ readRefusal (gave h1 hosted) h1 0 4097 32768 = some stLbaRange ∧
    readRefusal (gave h1 hosted) h1 4095 1 65536 = none ∧ readRefusal (gave h1 hosted) h1 4095 1 32768 = none := by decide +kernel

theorem witness_flush : h1.nsid ≠ allNs ∧ writeThrough (gave h1 (flds [(F.PWR_HOLDUP_STAT_WRITE_THROUGH, 0)] hosted)) 0 = false := by decide +kernel

theorem witness_flushWaits : ∃ s : State, writeThrough (gave h1 s) 0 = true ∧ flushSlots (gave h1 s) [1] ≠ [] ∧
    (takeCmd h1 s).isSome = true := by
  refine ⟨{ hosted with host := { hosted.host with fns := [(0, { fn0 with en := true, rdy := true, wce := false })] }
                        map := { hosted.map with slots := [(4, { slot0 with st := .staged, nsid := 1, acked := 1, present := 1 })] } }, ?_⟩
  decide +kernel

theorem witness_dsm : (∀ r ∈ [(⟨16, 32⟩ : DsmRange)], r.slba + r.nlb ≤ (getNs (gave h1 hosted) 1).nsze) ∧
    partMus [(16, 32)] = [] ∧ moving (gave h1 hosted) = true ∧ mapReady (gave h1 hosted) 1 0 0 = true ∧
    (List.replicate 257 (⟨0, 0⟩ : DsmRange)).length > 256 := by decide +kernel

theorem witness_fdp : fdpOn (gave h1 hosted) 1 = false ∧
    fdpOn (gave h1 { hosted with host := { hosted.host with fdpTiles := [0] } }) 1 = true ∧
    (∀ p ∈ [0], p < (getNs (gave h1 hosted) 1).handles.length) := by decide +kernel

/-- The head of a command on the zoned namespace. -/
def h2 : CmdHead := ⟨0, 1, 9, 2⟩

/-- `hosted` with zone 0 of namespace 2 in a state. -/
def zonedIn (z : Zone) : State := { hosted with map := { hosted.map with zones := tset (fun _ => zone0) (zKey 2 0) z [] } }

theorem witness_zones : (getNs (gave h2 hosted) 2).zoned = true ∧ nsOk hosted h2 = true ∧ 0 < (getNs (gave h2 hosted) 2).nsze ∧
    mapOpen (gave h2 hosted) = true ∧ (gave h2 hosted).host.zoneActs = [] ∧ (gave h2 hosted).mac.behind = [] ∧
    (∀ x ∈ (gave h2 hosted).host.cmds, x.2.h.nsid ≠ 2) ∧ (getNs (gave h2 hosted) 2).nsze ≤ 4096 ∧
    isOpen (getZone (gave h2 (zonedIn { zone0 with st := .implOpen })) 2 0).st = true ∧
    isActive (getZone (gave h2 (zonedIn { zone0 with st := .explOpen })) 2 0).st = true ∧
    (getZone (gave h2 (zonedIn { zone0 with st := .closed })) 2 0).st = .closed ∧
    openCount (gave h2 (zonedIn { zone0 with st := .closed })) 0 < openMax (gave h2 (zonedIn { zone0 with st := .closed })) 0 ∧
    (getZone (gave h2 (zonedIn { zone0 with st := .readOnly })) 2 0).st = .readOnly ∧
    (getZone (gave h2 (zonedIn { zone0 with st := .offline })) 2 0).st = .offline ∧
    (getZone (gave h2 hosted) 2 0).st = .empty := by decide +kernel

theorem witness_zoneStart : 0 % zsze (gave h2 hosted) = 0 ∧ 0 = 0 / zsze (gave h2 hosted) := by
  simp

theorem witness_audits : (getZone (gave h2 (zonedIn { zone0 with st := .full, zdev := true })) 2 0).zdev = true ∧
    (getZone (gave h2 (zonedIn { zone0 with st := .full, zdev := true })) 2 0).st ≠ .offline ∧
    (getZone (gave h2 (zonedIn { zone0 with st := .full, zdev := true })) 2 0).blocks = 0 ∧
    readSideUp (gave h2 hosted) = true ∧ (gave h2 hosted).host.cmds = [] ∧ (gave h2 hosted).mems.absentLines = [] ∧
    (gave h2 hosted).mems.absentCh = none ∧
    16 ≤ auditsNow { hosted with host := { hosted.host with
      cmds := (List.range 16).map (fun i => (i, { cmd0 with kind := .audit, st := .started })) } } := by decide +kernel

theorem witness_finishRecommended :
    isActive (getZone (zonedIn { zone0 with st := .implOpen }) 2 0).st = true ∧
    (getZone (zonedIn { zone0 with st := .implOpen }) 2 0).finishRec = false ∧
    (getZone (zonedIn { zone0 with st := .implOpen }) 2 0).lastAdm + 16200000000 ≤
      beatNow (atBeat 16200000000 (zonedIn { zone0 with st := .implOpen })) := by decide +kernel

/-! ## Seals -/

theorem witness_sealed : (getZone (zonedIn { zone0 with st := .full }) 2 0).st = .full ∧
    (getZone (zonedIn { zone0 with st := .full }) 2 0).reported ≠ .full ∧
    stackCount (getStack (catchUp 2 0 (zonedIn { zone0 with st := .full })) (zKey 2 0)) =
      (getZone (zonedIn { zone0 with st := .full }) 2 0).wp := by decide +kernel

theorem witness_sealEpoch : beatNow up % 1048576 = 0 ∧ beatNow up ≠ 0 ∧ running up = true ∧ beatNow (locked 1 0) % 1048576 = 0 ∧
    (let s := { up with mac := { up.mac with
        recs := [{ tile := 0, part := false, nsid := 2, zslba := 0, blocks := 5, beat := 7, root := 0 }], closing := [(0, false)] } }
     (∃ r ∈ s.mac.recs, r.beat / 1048576 = sealEpochNow s - 1 ∧ r.blocks ≠ 0) ∧
     s.mac.closing.find? (fun p => p.1 == 0) = some (0, false) ∧ (∃ b, b = false ∧ (0, b) ∈ s.mac.closing)) ∧
    (0 + 1) * 1048576 + 65536 ≤ beatNow (atBeat 1114112 up) ∧ ¬ (0 + 1) * 1048576 + 65536 ≤ beatNow (atBeat 1114111 up) := by
  refine ⟨?_, ?_, ?_, ?_, ⟨?_, ?_, ⟨false, rfl, ?_⟩⟩, ?_, ?_⟩ <;> decide +kernel

/-! ## The placement matcher -/

/-- An entry that every key matches, of some priority. -/
def anyKey (prio : Nat) : SEnt := { sEnt0 with valid := true, prio := prio, action := 0x803 }

/-- `hosted` with entries 3 and 5 in tile 0's range, and a read that waits for its search. -/
def searching : State :=
  cmdAt 3 { cmd0 with h := h1, kind := .read, slba := 0, nlb := 1, searched := false }
    { hosted with sort := { hosted.sort with arr := [(3, anyKey 1), (5, anyKey 7)], shadow := [(3, anyKey 1), (5, anyKey 7)] } }

theorem witness_noHits : hasCmd (cmdAt 3 { cmd0 with h := h1, searched := false } hosted) 3 = true ∧
    (getCmd (cmdAt 3 { cmd0 with h := h1, searched := false } hosted) 3).searched = false ∧
    hosted.sort.arr = [] := by decide +kernel

theorem matches_any (p : Nat) (key : BitVec 96) : entryMatches (anyKey p) key = true := by
  have h : (key ^^^ (anyKey p).key) &&& (anyKey p).care = 0 := by
    show (key ^^^ (0 : BitVec 96)) &&& (0 : BitVec 96) = 0
    exact BitVec.and_zero
  unfold entryMatches
  rw [h]
  rfl

theorem witness_winner (key : BitVec 96) : hitsFor searching 0 key = [(3, anyKey 1), (5, anyKey 7)] ∧
    (hitsFor searching 0 key).Pairwise (fun a b => a.1 < b.1) ∧
    (∀ m ∈ hitsFor searching 0 key, m.2.prio < 7 ∨ m.2.prio = 7 ∧ 5 ≤ m.1) ∧ bitsOf (anyKey 7).action.toNat 11 1 = 1 := by
  have a : searching.sort.arr = [(3, anyKey 1), (5, anyKey 7)] := by decide +kernel
  have r3 : inSortRange searching 0 3 = true := by decide +kernel
  have r5 : inSortRange searching 0 5 = true := by decide +kernel
  have h : hitsFor searching 0 key = [(3, anyKey 1), (5, anyKey 7)] := by
    unfold hitsFor
    rw [a]
    simp [r3, r5, matches_any]
  rw [h]
  refine ⟨rfl, ?_, ?_, ?_⟩ <;> decide

/-- Words of entry 5 are staged. -/
def stagedAt (action : Nat) : State :=
  flds [(F.SORT_STATUS_STAGE_VALID, 1), (F.SORT_STATUS_STAGE_INDEX, 5)]
    { searching with sort := { searching.sort with stage := [(6, BitVec.ofNat 32 action)] } }

theorem witness_staging : reach searching (sortWindow 5 0) = .ok ∧ reach searching (sortWindow 4095 6) = .ok ∧
    isSet searching F.SORT_STATUS_STAGE_VALID = false ∧ isSet (stagedAt 0) F.SORT_STATUS_STAGE_VALID = true ∧
    getF (stagedAt 0) F.SORT_STATUS_STAGE_INDEX ≠ 4 ∧ reach searching (sortWindow 4095 7) = .ok ∧
    sortRefusal searching 5 5 = none ∧ sortRefusal (flds [(F.SORT_STATUS_BUSY, 1)] searching) 5 5 = some 1 ∧
    sortRefusal searching 7 6 = some 2 ∧ badAction (stagedAt 0x1000) 5 = true ∧ badAction (stagedAt 0xFFF) 5 = false := by decide +kernel

theorem witness_sortCommands : reach searching Reg.SORT_CMD = .ok ∧ sortRefusal searching 0 4095 = none ∧
    badAction (stagedAt 0) 5 = false ∧ (getE (stagedAt 0) 9).valid = false ∧ staged (stagedAt 0) 5 = true ∧
    (getE (stagedAt 0) 5).valid = true ∧ staged searching 5 = false ∧ reach searching Reg.SORT_CFG = .ok ∧
    isSet (flds [(F.SORT_STATUS_BUSY, 1)] searching) F.SORT_STATUS_BUSY = true ∧ isSet searching F.SORT_STATUS_BUSY = false ∧
    isSet (flds [(F.SORT_STATUS_DIRTY, 1)] searching) F.SORT_STATUS_DIRTY = true := by decide +kernel

/-- An update engine at step `n` of an operation. -/
def updating (op : SortOp) (i j n : Nat) : State := { searching with sort := { searching.sort with op := some (op, i, j, n, anyKey 2) } }

theorem witness_updates : (updating .insert 5 9 4).sort.op = some (.insert, 5, 9, 4, anyKey 2) ∧ 4 = 9 - 5 ∧ 3 < 9 - 5 ∧
    (updating .delete 5 5 0).sort.op = some (.delete, 5, 5, 0, anyKey 2) ∧
    { searching with sort := { searching.sort with save := some (true, [], 0), walking := true } }.sort.walking = true ∧
    searching.sort.save = none ∧ searching.sort.walking = false := by decide +kernel

/-! ## Tiles -/

theorem witness_tileChecks : running up = true ∧ reach up (Reg.TILE_CMD 63) = .ok ∧ reach up (Reg.TILE_CMD 0) = .ok ∧
    tileCheck up 0 1 ≠ tileOk ∧ tileState up 1 ≠ tStopped ∧ modeNow (flds [(F.TOP_MODE_MODE, 1)] up) ≠ modeZoned ∧
    tileState up 63 ≠ tActive ∧ tileState up 0 = tActive ∧
    coursesHeld up 0 ≤ bitsOf (staging up (Reg.TILE_COURSES 0)) 0 18 ∧ overcommit up 0 = tileOk ∧
    tileState (flds [(F.TILE_STATE_STATE 1, 1)] up) 1 = tStopped := by decide +kernel

theorem witness_tileProvision : ∃ s : State, tileCheck s 1 1 = tileOk ∧ running s = true ∧ reach s (Reg.TILE_CMD 1) = .ok := by
  refine ⟨{ up with tiles := { up.tiles with stage := [(Reg.TILE_BIND 1, 0x41)] } }, ?_⟩
  decide +kernel

theorem witness_tileShares : ∃ s : State, tileState s 0 = tActive ∧ bitsOf (staging s (Reg.TILE_COURSES 0)) 0 18 < coursesHeld s 0 := by
  refine ⟨{ up with tiles := { up.tiles with stage := [(Reg.TILE_COURSES 0, 0)] }
                    map := { up.map with courses := [(9, { course0 with use := .zone 1 0, st := .taken, tile := 0 })] } }, ?_⟩
  decide +kernel

theorem witness_tileOver : ∃ s : State, tileState s 0 = tActive ∧ overcommit s 0 ≠ tileOk ∧
    coursesHeld s 0 ≤ bitsOf (staging s (Reg.TILE_COURSES 0)) 0 18 := by
  refine ⟨{ up with tiles := { up.tiles with stage := [(Reg.TILE_DIE_SHARE 0, 0x1FFF)] } }, ?_⟩
  decide +kernel

theorem witness_tileRequests : (takeCmd h0 hosted).isSome = true ∧ isPF0 hosted h0.fn = true ∧ modeNow hosted ≠ modeSanitize := by
  decide +kernel

theorem witness_tileEnds : tileState (flds [(F.TILE_STATE_STATE 0, 3)] up) 0 = tQuiescing ∧ up.host.cmds = [] ∧
    up.host.sqs = [] ∧ tileHeld (flds [(F.TILE_STATE_STATE 0, 3)] up) 0 = false ∧
    tileState (flds [(F.TILE_STATE_STATE 1, 4)] up) 1 = tScrubbing ∧ up.map.courses = [] := by decide +kernel

theorem witness_yardCfg : reach up Reg.YARD_CFG = .ok ∧
    yardMinSum up ≤ 2048 - (16 * muPerWave up (userCell up) + max 16 (bitsOf 63 0 6)) ∧
    2048 - (16 * muPerWave up (userCell up) + max 16 (bitsOf 63 0 6)) < yardMinSum (flds [(F.TILE_YARD_MIN 0, 2047)] up) := by
  decide +kernel

theorem witness_budget : reach up Reg.TROWEL_BUDGET = .ok ∧
    bitsOf 0 0 13 + (notFree up).foldl (fun n k => n + bitsOf (held up k (Reg.TILE_DIE_SHARE k)) 0 13) 0 ≤ 4096 ∧
    4096 < bitsOf 4097 0 13 + (notFree up).foldl (fun n k => n + bitsOf (held up k (Reg.TILE_DIE_SHARE k)) 0 13) 0 := by decide +kernel

theorem witness_retrain : 31 < width up ∧ width up ≤ 32 ∧ chLost up 31 = false ∧ tget zeroD up.trowel.retrains 3 = 0 ∧
    chLost (regs [(Reg.FCH_LUN_LOST_LO 3, 0xFFFFFFFF), (Reg.FCH_LUN_LOST_HI 3, 0xFFFFFFFF)] up) 3 = true := by decide +kernel

theorem witness_xferLimit : ∃ s : State, 1 ≤ tget zeroD s.trowel.retrains 3 ∧ xferLimit s 3 = true ∧ chLost s 3 = false := by
  refine ⟨{ up with trowel := { up.trowel with retrains := [(3, 1)], xfers := [(3, 1000000)], xferLuns := [(3, 3)] } }, ?_⟩
  decide +kernel

/-! ## Controllers, functions and links -/

theorem witness_resets : pausedPort hosted 0 = false ∧ (getFn hosted 0).en = true ∧ hosted.sec.onReset = none ∧ hosted.host.cmds = [] ∧
    pausedPort (flds [(F.HOST_CPL_STAT_PAUSED 0, 1)] hosted) 0 = true ∧ (getFn up 0).en = false ∧ tileOfFn up 0 = some 0 ∧
    tileState up 0 = tActive ∧ isPF0 up 0 = true ∧ isSet up (F.HOST_LINK_STATUS_UP (portOf up 0)) = true ∧ running up = true ∧
    isPF0 up 63 = false ∧ (getFn up 63).vf = false := by decide +kernel

theorem witness_noStarted (s : State) (h : s.host.cmds = []) (i : Nat) : (getCmd s i).st ≠ .started := by
  unfold getCmd
  rw [h]
  exact fun e => CmdSt.noConfusion e

theorem witness_shutdown :
    (getFn { hosted with host := { hosted.host with fns := [(0, { fn0 with en := true, rdy := true, shutting := true })] } } 0).shutting = true ∧
    isSet (flds [(F.PWR_HOLDUP_STAT_WRITE_THROUGH, 0)] hosted) F.PWR_HOLDUP_STAT_WRITE_THROUGH = false ∧
    (∃ k, k = 0 ∧ tileOfFn (filling hosted) 0 = some k) ∧ isSet up F.PWR_HOLDUP_STAT_WRITE_THROUGH = true ∧ hasPort up 0 = true ∧
    hasPort up 1 = false ∧ hasCmd (flying .started) 5 = true ∧ (getCmd (flying .started) 5).st ≠ .ready := by
  refine ⟨?_, ?_, ⟨0, rfl, ?_⟩, ?_, ?_, ?_, ?_, ?_⟩ <;> decide +kernel

theorem witness_tileHeld : tileHeld { up with map := { up.map with slots := [(4, { slot0 with st := .staged, nsid := 1 })] } } 0 = true := by
  decide +kernel

/-- `up` with port A's link down and out of PERST. -/
def linkless : State := flds [(F.HOST_LINK_STATUS_UP 0, 0)] { up with top := { up.top with perst := [] } }

theorem witness_linkUp : hasPort linkless 0 = true ∧ 0 ∉ linkless.top.perst ∧ linkless.top.off = false ∧ linkless.top.halted = false ∧
    isSet linkless (F.HOST_LINK_STATUS_UP 0) = false ∧ 1 ≤ maxSpeed linkless 0 ∧ 16 ≤ layoutWidth linkless ∧
    1 < maxSpeed linkless 0 ∧ layoutWidth linkless < 17 ∧ pausedPort up 0 = false ∧ up.top.off = false ∧ 0 ∈ up.top.perst ∧
    { up with top := { up.top with off := true } }.top.off = true ∧ reach up (Reg.HOST_LINK_CTRL 0) = .ok := by decide +kernel


theorem witness_widthChange : ∃ s : State, isSet s (F.HOST_LINK_STATUS_UP 0) = true ∧
    getF s (F.HOST_LINK_STATUS_WIDTH 0) ≠ levelWidth s 0 ∧ isSet s F.KILN_CFG_LINK_EN = true ∧
    isSet s F.KILN_STATUS_LINK_FIXED = false := by
  refine ⟨flds [(F.HOST_LINK_STATUS_WIDTH 0, 8)] { up with host := { up.host with trained := [(0, 16)] } }, ?_⟩
  decide +kernel

/-! ## Hold-up, power loss and the grout -/

/-- `up` with hold-up good, and `up` with a grout under way. -/
def heldUp : State := flds [(F.PWR_HOLDUP_STAT_HOLDUP_OK, 1), (F.PWR_HOLDUP_STAT_WRITE_THROUGH, 0)] up
def inGrout : State := { up with grout := { up.grout with beat := some 1048570, frozen := true, img := some (grout0 up) } }

theorem witness_holdup : isSet heldUp F.PWR_HOLDUP_STAT_HOLDUP_OK = true ∧ isSet up F.PWR_HOLDUP_STAT_HOLDUP_OK = false ∧
    headerNow up = true ∧ up.grout.okFrom + 1 + getNZ up F.PWR_HOLDUP_CFG_OK_FRAMES ≤ frameNow up ∧
    frameNow (atBeat 0 up) < up.grout.okFrom + 1 + getNZ up F.PWR_HOLDUP_CFG_OK_FRAMES := by decide +kernel

theorem witness_heldWrites : ∃ s : State, isSet s F.PWR_HOLDUP_STAT_HOLDUP_OK = true ∧ hasCmd s 3 = true ∧
    isWrite (getCmd s 3).kind = true ∧ (getCmd s 3).st = .ready ∧ (getCmd s 3).planned = false ∧
    (getCmd s 3).slots.filter (slotHeld s) ≠ [] := by
  refine ⟨wr .ready [] { heldUp with map := { heldUp.map with
    slots := [(4, { slot0 with st := .staged, nsid := 1, present := 3, acked := 3 })] } }, ?_⟩
  decide +kernel

theorem witness_grouts : running up = true ∧ grouting up = false ∧ up.map.loaded = true ∧ asleep up = false ∧
    bitsOf (getF up F.PWR_DOM_STAT_ON) 3 1 = 1 ∧ grouting inGrout = true ∧ inGrout.grout.img = some (grout0 up) ∧
    inGrout.grout.frozen = true ∧ inGrout.top.off = false ∧ running inGrout = true ∧ running State.reset = false ∧
    asleep (flds [(F.PWR_STATE_CUR, 2)] up) = true ∧ running (flds [(F.PWR_STATE_CUR, 2)] up) = true ∧
    isSet (flds [(F.MAPMEM_LAYOUT_DEG_OK 0, 0)] up) (F.MAPMEM_LAYOUT_DEG_OK 0) = false ∧ getF up (F.MAPMEM_STATUS_STATE 3) ≠ 4 := by
  decide +kernel

/-! ## Power states -/

/-- `hosted` with a power state to be entered. -/
def aimed (k : Nat) : State := { up with top := { up.top with target := some k, offFrom := some 0 } }

theorem witness_entry : (aimed 3).top.target = some 3 ∧ drained (aimed 3) = true ∧ (aimed 1).top.target = some 1 ∧
    drained (aimed 4) = true ∧ (aimed 4).top.offFrom = some 0 ∧ 0 + getNZ (aimed 4) F.PWR_CFG_GRACE ≤ frameNow (aimed 4) ∧
    drained (wr .started [0] (aimed 2)) = false ∧ up.top.target = none := by decide +kernel

theorem witness_ioWake : isSet (flds [(F.PWR_STATE_IO_WAKE, 1)] up) F.PWR_STATE_IO_WAKE = true ∧ busyCmds up = false ∧
    up.top.waitFrom + getNZ up F.PWR_CFG_RETURN_FRAMES ≤ frameNow up ∧ 2 ≤ selected up ∧ selected hosted = 0 ∧
    selected { hosted with host := { hosted.host with fns := [(0, { fn0 with en := true, rdy := true, ps := 1 })] } } = 1 ∧
    busyCmds (wr .started [0] up) = true ∧ frameNow (atBeat 0 up) < up.top.waitFrom + getNZ up F.PWR_CFG_RETURN_FRAMES := by
  decide +kernel

theorem witness_wakes : 2 ≤ powerNow (flds [(F.PWR_STATE_CUR, 3)] up) ∧ powerNow (flds [(F.PWR_STATE_CUR, 1)] up) = 1 ∧
    powerNow (aimed 2) = 0 ∧ (aimed 2).top.requested = false ∧ up.top.off = false ∧ up.top.halted = false ∧
    up.top.wakeRun = false ∧ { up with top := { up.top with waking := [9] } }.top.waking = [9] ∧ up.top.stalled = [] ∧ up.top.mgmt = [] ∧
    9 ∈ { up with top := { up.top with drains := [9] } }.top.drains ∧ 9 ∉ up.top.drains ∧ 9 ∉ up.top.waking ∧
    isSet (flds [(F.PWR_CFG_FAILOVER_EN, 1)] up) F.PWR_CFG_FAILOVER_EN = true ∧
    isSet (flds [(F.PWR_CFG_FAILOVER_EN, 0)] up) F.PWR_CFG_FAILOVER_EN = false ∧ isSet up F.TOP_STRAP_SRIS = false := by decide +kernel

theorem witness_stalls : { up with top := { up.top with stalled := [(.portA, 0x4000, none)] } }.top.stalled = [(.portA, 0x4000, none)] ∧
    isPF0 hosted 0 = true ∧ (getFn hosted 0).rdy = true ∧ busyCmds hosted = false ∧ psAllowed hosted 4 = 0 ∧ powerNow hosted = 0 ∧
    isSet hosted F.PWR_STATE_IO_WAKE = false ∧ isPF0 hosted 1 = false := by decide +kernel

/-! ## The Kiln -/

/-- 24 sensors at one reading but for sensor 7. -/
def temps (all seven : Int) : List (Option Int) := (List.range 24).map (fun i => some (if i = 7 then seven else all))
def val (all seven : Int) (i : Nat) : Int := if i = 7 then seven else all

theorem witness_sensors : samples up = true ∧
    (∀ i, i < 24 → faulted up i = false ∧ (temps 200 600).getD i none = some (val 200 600 i) ∧ -200 ≤ val 200 600 i ∧
      val 200 600 i ≤ 600 ∧ val 200 600 i ≤ val 200 600 7) ∧
    isSet up F.KILN_STATUS_WARN = false ∧ 4 * (getF up F.KILN_THRESH_WARN : Int) ≤ val 200 440 7 ∧
    isSet (flds [(F.KILN_STATUS_WARN, 1)] up) F.KILN_STATUS_WARN = true ∧
    val 200 419 7 < 4 * (getF up F.KILN_THRESH_WARN : Int) - 4 * (getNZ up F.KILN_HYST_WARN_H : Int) ∧
    4 * (getF up F.KILN_THRESH_WARN : Int) - 4 * (getNZ up F.KILN_HYST_WARN_H : Int) ≤ val 200 420 7 ∧
    val 200 439 7 < 4 * (getF up F.KILN_THRESH_WARN : Int) ∧ shutdownAt up ≤ val 200 600 7 ∧
    (∀ i, i < 24 → i ≠ 7 → val 200 600 i < shutdownAt up) ∧ 7 ∈ { up with kiln := { up.kiln with atTrip := [7] } }.kiln.atTrip ∧
    up.kiln.trip = none ∧ up.top.off = false ∧ goodReading (some 601) = false ∧ goodReading none = false ∧
    samples { up with top := { up.top with off := true } } = false := by decide +kernel

/-- `up` at a throttle level, hot or cool for long. -/
def level (k hot cool clock : Nat) : State :=
  flds [(F.KILN_STATUS_LEVEL, k)] { up with kiln := { up.kiln with hotFrom := hot, coolFrom := cool, clock := clock, evalAt := 0 } }

theorem witness_levels : evalDue up = true ∧ evalDue (atBeat 1048577 up) = false ∧ levelNow (level 1 0 0 100000000) = 1 ∧
    (level 1 0 0 100000000).kiln.due = none ∧
    (level 1 0 0 100000000).kiln.hotFrom + 1024 * getNZ (level 1 0 0 100000000) F.KILN_STEP_UP ≤ (level 1 0 0 100000000).kiln.clock ∧
    (level 2 100000000 0 100000000).kiln.clock <
      (level 2 100000000 0 100000000).kiln.hotFrom + 1024 * getNZ (level 2 100000000 0 100000000) F.KILN_STEP_UP ∧
    getF (level 2 100000000 0 100000000) F.KILN_CFG_MIN_LEVEL < levelNow (level 2 100000000 0 100000000) ∧
    (level 2 100000000 0 100000000).kiln.coolFrom + 1024 * getNZ (level 2 100000000 0 100000000) F.KILN_STEP_DOWN ≤ 100000000 ∧
    faultHold up = false ∧ reach up Reg.KILN_CFG = .ok ∧ levelAhead up < bitsOf (0x300 : W32).toNat 8 2 ∧ asleep up = false ∧
    bitsOf (0 : W32).toNat 8 2 ≤ levelAhead up ∧ levelNow up < 3 ∧ up.kiln.due = none := by decide +kernel

theorem witness_trips : ∃ s : State, s.top.thermTrip = true ∧ s.top.off = true ∧ s.kiln.belowFrom = some 5 ∧ 5 + 1048576 ≤ s.kiln.clock ∧
    isSet s F.KILN_CFG_AUTO_RESTART = true := by
  refine ⟨flds [(F.KILN_CFG_AUTO_RESTART, 1)] { up with top := { up.top with thermTrip := true, off := true }
                                                        kiln := { up.kiln with belowFrom := some 5, clock := 1048581 } }, ?_⟩
  decide +kernel

/-! ## Starts -/

/-- What the world answers in a start whose first steps are given. -/
def world (steps : List StepTry) : StartInput :=
  { strapPort := 0, strapSris := false, strapNandIf := false, strapSideband := false, strapSbAddr := 0, strapRecovery := false
    steps := steps, sources := [1], entropyOk := true, mmFail := [], fchFail := [], lunFail := [], plannerOk := [], width := 32
    mmGib := 32, recorderMemOk := true, manifestOk := true, groutLost := [], gapAt := none, later := 0, ms := 0, ms10 := 0, ms11 := 0 }

theorem witness_startKinds : State.reset.top.start = none ∧ State.reset.top.starting = false ∧
    { up with top := { up.top with off := true } }.top.off = true ∧ up.top.thermTrip = false ∧ drained up = true ∧
    { up with top := { up.top with startDue := some 4 } }.top.startDue = some 4 ∧
    { up with top := { up.top with sealFrame := some 7 } }.top.sealFrame ≠ none ∧
    (tryOf (world [⟨false, false, true⟩]) 1).slow = true ∧ (tryOf (world [⟨false, false, false⟩]) 1).slow = false ∧
    (tryOf (world [⟨false, false, false⟩]) 1).primary = false ∧ (tryOf (world [⟨false, false, false⟩]) 1).alternate = false := by
  decide +kernel

/-- A start that hangs in a step. -/
def hanging (k : Nat) : State :=
  { up with top := { up.top with
      starting := true
      start := some { inp := world (List.replicate 12 ⟨false, false, true⟩), trigger := 1, cold := false, step := k, src := none } } }

theorem witness_hanging : (hanging 4).top.start.map (·.step) = some 4 ∧ (hanging 1).top.start.map (·.step) = some 1 ∧
    (tryOf (world (List.replicate 12 ⟨false, false, true⟩)) 4).slow = true ∧
    (tryOf (world (List.replicate 12 ⟨false, false, true⟩)) 1).slow = true ∧ (hanging 12).top.starting = true := by decide +kernel

theorem witness_restart : running up = true ∧ grouting up = false ∧ running State.reset = false ∧
    bitsOf (0 : W32).toNat 8 8 ≤ getF up F.TOP_COMPAT_MAX ∧ up.sec.running.compatMin ≤ bitsOf (0 : W32).toNat 8 8 ∧
    bitsOf (0 : W32).toNat 8 8 ≤ up.sec.running.compatMax ∧ getF up F.TOP_COMPAT_MAX < bitsOf (0xFF00 : W32).toNat 8 8 := by
  decide +kernel

/-! ## Keys and randomness -/

/-- `up` with a session on tile 0's function, and slot 1 in a state. -/
def keyed (st : Nat) : State :=
  flds [(F.MAC_SLOT_STATE 1, st)] { up with sec := { up.sec with spdm := [(connKey (.storage 0), { spdm0 with neg := 3, sessions := 1 })] } }

theorem witness_sessions : pausing (keyed 0) = false ∧ running (keyed 0) = true ∧ fnOfTile (keyed 0) 0 = some 0 ∧
    (getConn (keyed 0) (.storage 0)).sessions ≠ 0 ∧ (getConn up (.storage 0)).sessions = 0 ∧ fnOfTile up 0 = some 0 := by
  decide +kernel

theorem witness_newKeys : newKeyRefusal 0 1 none (keyed 0) = none ∧ newKeyRefusal 0 1 none (keyed 2) ≠ none ∧
    newKeyRefusal 0 1 none (keyed 1) = none ∧ keyState (keyed 1) (4 * 0 + 1) = keyLoaded ∧ tileBusy (keyed 1) 0 = false ∧
    keyState (keyed 2) (4 * 0 + 1) = keyRetiring ∧ keyState (keyed 0) (4 * 0 + 1) ≠ keyLoaded ∧
    tileBusy { up with mac := { up.mac with eraseDue := [2] } } 0 = true := by decide +kernel

theorem witness_keyBoundary : { up with mac := { up.mac with curDue := [(0, 1)] } }.mac.curDue.find? (fun p => p.1 == 0) = some (0, 1) ∧
    { up with map := { up.map with loaded := false } }.map.loaded = false ∧
    2 ∈ { up with mac := { up.mac with eraseDue := [2] } }.mac.eraseDue ∧ 2 ∉ up.mac.eraseDue ∧ up.mac.curDue = [] ∧
    keyState (keyed 2) 1 = keyRetiring ∧ (keyed 2).mac.bound = [] ∧ keyState up 255 ≠ keyRetiring := by decide +kernel

theorem witness_engines : isSet (flds [(F.MAC_CFG_KAT_EPOCH, 1)] up) F.MAC_CFG_KAT_EPOCH = true ∧
    isSet (flds [(F.MAC_CFG_KAT_EPOCH, 0)] up) F.MAC_CFG_KAT_EPOCH = false ∧
    isSet (flds [(F.MAC_STATUS_ENTROPY_OK, 1)] up) F.MAC_STATUS_ENTROPY_OK = true ∧
    isSet (flds [(F.MAC_STATUS_ENTROPY_OK, 0)] up) F.MAC_STATUS_ENTROPY_OK = false ∧
    2 ^ 20 ≤ { up with mac := { up.mac with drbg := 2 ^ 20 } }.mac.drbg ∧ up.mac.drbg < 2 ^ 20 ∧
    getF (flds [(F.MAC_DRBG_LEFT_COUNT, 0)] up) F.MAC_DRBG_LEFT_COUNT = 0 ∧ isSet up F.MAC_STATUS_REFUSING = false ∧
    2 ^ 56 - 2 ^ 32 ≤ { up with map := { up.map with wseq := 2 ^ 56 - 2 ^ 32 } }.map.wseq ∧
    isSet up F.MAC_STATUS_WSEQ_LIMIT = false ∧ up.map.wseq < 2 ^ 56 - 2 ^ 32 := by decide +kernel

/-! ## SPDM and MCTP -/

/-- `hosted` with a connection's state. -/
def spdm (c : Conn) (v : SpdmSt) : State := setConn c v hosted

/-- `hosted` with tile 0 owned, and a connection of its function. -/
def owned (v : SpdmSt) : State :=
  { spdm (.storage 0) v with tiles := { hosted.tiles with owner := [(0, 8)] } }

/-- `hosted` in Sleep. -/
def sleeping : State := flds [(F.PWR_STATE_CUR, 2)] hosted

/-- A connection after its negotiation. -/
def agreed : SpdmSt := { spdm0 with neg := 3 }

theorem witness_connections : connUp up (.storage 0) = false ∧ connUp hosted (.storage 0) = true ∧ connUp hosted (.doe 0) = true ∧
    asleep hosted = false ∧ connUp sleeping (.storage 0) = true ∧ asleep sleeping = true ∧
    spdmRow (.spdmGetDigests (.storage 0)) = some (.storage 0, some 3) ∧ (getConn hosted (.storage 0)).neg < 3 ∧
    spdmRow (.slhSignatureGet .mctp) = some (.mctp, none) := by decide +kernel

theorem witness_negotiated :
    1 ≤ (getConn (spdm (.storage 0) { spdm0 with neg := 1 }) (.storage 0)).neg ∧
    2 ≤ (getConn (spdm (.storage 0) { spdm0 with neg := 2, chunks := 15 }) (.storage 0)).neg ∧
    15 = (getConn (spdm (.storage 0) { spdm0 with neg := 2, chunks := 15 }) (.storage 0)).chunks ∧ 15 * chunkSize < 65536 ∧
    16 ≠ (getConn (spdm (.storage 0) { spdm0 with neg := 2, chunks := 15 }) (.storage 0)).chunks ∧ 65536 ≤ 17 * chunkSize ∧
    3 ≤ (getConn (spdm (.storage 0) agreed) (.storage 0)).neg ∧ connUp (spdm (.storage 0) agreed) (.storage 0) = true ∧
    asleep (spdm (.storage 0) agreed) = false := by decide +kernel

theorem witness_certificate (u : State) (c : Conn) : (1 : Nat) ≠ 0 ∧ 0 ≤ (chain u c).length :=
  ⟨by decide, Nat.zero_le _⟩

theorem witness_measurements : (7 : Nat) ≠ 0xFF ∧ 6 < 7 ∧ 1 ≤ 1 ∧ 6 ≤ 6 := by decide

theorem witness_exchange : tileOfFn hosted 1 = none ∧ tileOfFn (spdm (.storage 0) agreed) 0 = some 0 ∧
    ownerOf (owned agreed) 0 = some 7 ∧ (false = false ∨ 7 ≠ 7) ∧ ownerOf (spdm (.storage 0) agreed) 0 = none ∧
    tileOfFn (owned agreed) 0 = some 0 ∧
    (∀ fn, Conn.doe 0 ≠ .storage fn) ∧ 8 ≤ mgmtSessions (spdm (.doe 0) { agreed with sessions := 8 }) ∧
    mgmtSessions (spdm (.doe 0) { agreed with sessions := 7 }) < 8 :=
  ⟨by decide +kernel, by decide +kernel, by decide +kernel, by decide +kernel, by decide +kernel, by decide +kernel,
    (by intro fn h; cases h), by decide +kernel, by decide +kernel⟩

theorem witness_finish : (getConn (spdm (.storage 0) agreed) (.storage 0)).exch = none ∧
    (getConn (owned { agreed with exch := some (true, 7) }) (.storage 0)).exch = some (true, 7) ∧
    (getConn (spdm (.storage 0) { agreed with exch := some (true, 7) }) (.storage 0)).exch = some (true, 7) ∧
    sessTile (spdm (.doe 0) agreed) (.doe 0) = none ∧ sessTile (owned agreed) (.storage 0) = some 0 ∧
    sessTile (spdm (.storage 0) agreed) (.storage 0) = some 0 ∧ ownerOf (owned agreed) 0 = some 7 ∧
    ownerOf (spdm (.storage 0) agreed) 0 = none ∧ (true ≠ false) ∧ (getConn (spdm (.storage 0) agreed) (.storage 0)).sessions = 0 ∧
    (getConn (spdm (.storage 0) { agreed with sessions := 1 }) (.storage 0)).sessions ≠ 0 := by decide +kernel

theorem witness_heldSignature : (getConn hosted (.storage 0)).sig = none ∧
    (getConn (spdm (.storage 0) { agreed with sig := some 1 }) (.storage 0)).sig = some 1 ∧
    (getConn hosted (.storage 0)).large = none ∧
    (getConn (spdm (.storage 0) { agreed with large := some (2, leBytes 4 1) }) (.storage 0)).large = some (2, leBytes 4 1) ∧
    (leBytes 4 1).length ≤ chunkSize ∧ chunkSize < (leBytes 4081 1).length := by decide +kernel

/-- The sideband without I3C. -/
def served : State := flds [(F.SEC_SIDEBAND_ENABLE, 1)] up

theorem witness_sideband : sidebandUp (flds [(F.SEC_SIDEBAND_ENABLE, 0)] up) = false ∧ sidebandUp served = true ∧
    inLoader served = false ∧ asleep served = false ∧ inLoader (flds [(F.SEC_STATUS_BOOT_SRC, 5)] served) = true ∧
    asleep (flds [(F.PWR_STATE_CUR, 2)] served) = true ∧ sidebandUp (flds [(F.PWR_STATE_CUR, 2)] served) = true ∧
    8 ≤ 8 ∧ 254 ≤ 254 ∧ 7 < 8 ∧ 254 < 255 ∧ 127 < 128 ∧
    getF (flds [(F.SEC_SIDEBAND_MODE, 0)] served) F.SEC_SIDEBAND_MODE = 0 ∧
    sidebandUp (flds [(F.SEC_SIDEBAND_MODE, 0)] served) = true ∧
    getF (flds [(F.SEC_SIDEBAND_MODE, 1)] served) F.SEC_SIDEBAND_MODE ≠ 0 := by decide +kernel

/-! ## The mailbox and activation -/

/-- `up` with the mailbox's arguments, a nonce, and the SVN of the running image. -/
def mailed (a0 a1 : Nat) (n : Option Nat) (svn : Nat) : State :=
  regs [(Reg.SEC_MBX_ARG 0, a0), (Reg.SEC_MBX_ARG 1, a1)]
    { up with sec := { up.sec with nonce := n, running := { image0 with svn := svn } } }

/-- The recovery slot and slots 1 and 2 hold an image. -/
def holding (i : ImageInfo) (s : State) : State :=
  { s with sec := { s.sec with slots := [(1, { img := some i, failed := false }), (3, { img := some i, failed := false })] } }

def auth (purpose scope target root nonce : Nat) : Authorisation :=
  { purpose := purpose, scope := scope, target := target, root := root, nonce := nonce, deviceIdOk := true, verified := true }

theorem witness_mailbox : reach up Reg.SEC_MBX_CMD = .ok ∧ isSet up F.SEC_MBX_STATUS_BUSY = false ∧
    isSet (flds [(F.SEC_MBX_STATUS_BUSY, 1)] up) F.SEC_MBX_STATUS_BUSY = true ∧
    reach (flds [(F.SEC_MBX_STATUS_BUSY, 1)] up) Reg.SEC_MBX_CMD = .ok ∧
    64 ≤ mbxArg (mailed 64 0 none 0) 0 ∧ 16 ≤ mbxArg (mailed 0 16 none 0) 1 ∧ mbxArg (mailed 64 0 none 0) 0 ≠ 0xFE ∧
    mbxArg (mailed 64 0 none 0) 0 ≠ 0xFF ∧ mbxArg (mailed 63 15 none 0) 0 < 64 ∧ mbxArg (mailed 63 15 none 0) 1 < 16 ∧
    mbxArg (mailed 0xFE 0 none 0) 0 = 0xFE ∧ mbxArg (mailed 0xFF 0 none 0) 0 = 0xFF ∧ fnOfTile (mailed 0 0 none 0) 0 = some 0 ∧
    reach (mailed 0 15 none 0) Reg.SEC_MBX_CMD = .ok ∧ isSet (mailed 0 15 none 0) F.SEC_MBX_STATUS_BUSY = false ∧
    (let s := flds [(F.MAC_SLOT_STATE 255, keyLoaded)] (mailed 63 15 none 0)
     bitsOf (mbxArg s 1) 3 1 = 1 ∧ keyState s (4 * mbxArg s 0 + 3) = keyLoaded) := by decide +kernel

theorem witness_svn : mbxArg (mailed 1 0 none 0) 0 ≠ (mailed 1 0 none 0).sec.running.svn ∧
    (mailed 0 0 none 0).sec.running.svn ≤ getF (mailed 0 0 none 0) F.SEC_SVN_FUSE_COUNT ∧
    (∃ i ∈ heldImages (holding image0 (mailed 5 0 none 5)), i.svn < (mailed 5 0 none 5).sec.running.svn) ∧
    (let s := holding { image0 with svn := 64 } (mailed 64 0 none 64)
     mbxArg s 0 = s.sec.running.svn ∧ getF s F.SEC_SVN_FUSE_COUNT < s.sec.running.svn ∧ s.sec.running.svn ≤ 64 ∧
      60 ≤ s.sec.running.svn ∧ ∀ i ∈ heldImages s, s.sec.running.svn ≤ i.svn) := by
  refine ⟨?_, ?_, ⟨{ image0 with svn := 0 }, ?_⟩, ?_⟩ <;> decide +kernel

theorem witness_authorisations : isSet (flds [(F.SEC_STATUS_DEBUG_NEVER, 1)] up) F.SEC_STATUS_DEBUG_NEVER = true ∧
    isSet up F.SEC_STATUS_DEBUG_NEVER = false ∧ (auth 1 8 0 0 7).purpose = 1 ∧ 8 ≤ (auth 1 8 0 0 7).scope ∧
    (auth 1 7 0 0 7).scope < 8 ∧ 4 ≤ (auth 2 0 4 0 7).target ∧ (auth 2 0 3 0 7).target < 4 ∧ (auth 2 0 3 0 7).purpose = 2 ∧
    up.sec.nonce ≠ some (auth 1 7 0 0 7).nonce ∧ (mailed 0 0 (some 7) 0).sec.nonce = some (auth 1 7 0 0 7).nonce ∧
    (auth 1 7 0 0 7).deviceIdOk = true ∧ 4 ≤ (auth 1 7 0 4 7).root ∧ (auth 1 7 0 3 7).verified = true ∧ (auth 1 7 0 3 7).root < 4 ∧
    rootRevoked (mailed 0 0 (some 7) 0) (auth 1 7 0 3 7).root = false ∧
    rootRevoked (flds [(F.SEC_SVN_ROOT_REVOKED, 8)] up) 3 = true ∧
    reach (mailed 0 0 (some 7) 0) Reg.SEC_MBX_CMD = .ok ∧ isSet (mailed 0 0 (some 7) 0) F.SEC_MBX_STATUS_BUSY = false := by
  decide +kernel

theorem witness_revocation : (auth 2 0 3 3 7).root = (auth 2 0 3 3 7).target ∧ (auth 2 0 3 0 7).root ≠ (auth 2 0 3 0 7).target ∧
    Nat.lor (getF (mailed 0 0 (some 7) 0) F.SEC_SVN_ROOT_REVOKED) (2 ^ 3) ≠ 15 ∧
    (∃ i ∈ heldImages (holding { image0 with root := 3 } (mailed 0 0 (some 7) 0)), i.root = 3) ∧
    (∀ i ∈ heldImages (holding { image0 with root := 0 } (mailed 0 0 (some 7) 0)), i.root ≠ 3) ∧
    rootRevoked (mailed 0 0 (some 7) 0) 3 = false := by
  refine ⟨?_, ?_, ?_, ⟨{ image0 with root := 3 }, ?_⟩, ?_, ?_⟩ <;> decide +kernel

/-- The activation of slot 2's image, in a phase, with header beat H and a number of planners failed by then. -/
def activating (phase h n : Nat) : FwAct :=
  { commit := { cmd := some 3, tag := 0, action := 3, fs := 2, img := image0 }, phase := phase, h := h, failed := n }

/-- `up` in an activation, at a beat. -/
def inAct (a : FwAct) (n : Nat) : State :=
  cmdAt 3 { cmd0 with h := h0, kind := .admin 0x10, st := .started } (atBeat n { up with sec := { up.sec with act := some a } })

theorem witness_activation : up.sec.act = none ∧ (inAct (activating 0 0 0) 5).sec.act = some (activating 0 0 0) ∧
    running (inAct (activating 0 0 0) 5) = true ∧ beatNow (inAct (activating 1 1024 0) 1024) % 64 = 0 ∧
    (activating 1 1024 0).h ≤ beatNow (inAct (activating 1 1024 0) 1024) ∧ noticesWait (inAct (activating 1 1024 0) 1024) = false ∧
    running (inAct (activating 1 1024 0) 1024) = true ∧ grouting (inAct (activating 1 1024 0) 1024) = false ∧
    beatNow (inAct (activating 1 1024 0) 960) < (activating 1 1024 0).h ∧ beatNow (inAct (activating 1 1024 0) 1025) % 64 ≠ 0 ∧
    beatNow (inAct (activating 2 1024 0) 1088) = (activating 2 1024 0).h + 64 ∧
    beatNow (inAct (activating 2 1024 0) 1089) ≠ (activating 2 1024 0).h + 64 := by decide +kernel

theorem witness_pauseEnds : (activating 3 1024 0).h + 64 < beatNow (inAct (activating 3 1024 0) 1089) ∧
    beatNow (inAct (activating 3 1024 0) 1216) ≤ (activating 3 1024 0).h + 192 ∧ grouting (inAct (activating 3 1024 0) 1216) = false ∧
    (inAct (activating 3 1024 0) 1216).host.paused = [] ∧ (inAct (activating 3 1024 0) 1216).sec.waiting = [] ∧
    (activating 5 1024 0).h ≤ beatNow (inAct (activating 5 1024 0) 1024) ∧
    beatNow (inAct (activating 5 1024 0) 1272) ≤ (activating 5 1024 0).h + 248 ∧
    (inAct (activating 5 1024 0) 1272).host.paused = [] ∧ (inAct (activating 5 1024 0) 1272).sec.waiting = [] ∧
    (activating 5 1024 0).h + 248 ≤ beatNow (inAct (activating 5 1024 0) 1272) ∧
    beatNow (inAct (activating 5 1024 0) 1271) < (activating 5 1024 0).h + 248 := by decide +kernel

theorem witness_actEnds : 1 ≤ (activating 4 0 0).commit.fs ∧ (activating 4 0 0).commit.fs ≤ 2 ∧ (activating 4 0 0).commit.action = 3 ∧
    (activating 4 0 0).commit.cmd = some 3 ∧ hasCmd (inAct (activating 4 0 0) 5) 3 = true ∧
    (activating 3 1024 0).h + 192 ≤ beatNow (inAct (activating 3 1024 0) 1216) ∧
    (∃ s : State, (activating 2 1024 0).failed < s.beat.failed.length ∧ grouting s = false ∧ s.sec.act = some (activating 2 1024 0)) := by
  refine ⟨?_, ?_, ?_, ?_, ?_, ?_, ⟨let t := inAct (activating 2 1024 0) 1050
    { t with beat := { t.beat with failed := [0] } }, ?_⟩⟩ <;> decide +kernel

/-! ## Rirus messages -/

/-- Every Rirus message runs on `served`, where it comes in a session or needs none. -/
theorem witness_rirusRuns (c : Instr) (tag : Nat) (ss : Bool) (n : RirNeed) (e : rirusRow c = some (tag, ss, n))
    (hs : n.session = true → ss = true) : rirusRuns served c (wakeDrive served) := by
  refine ⟨tag, ss, n, e, by decide +kernel, by decide +kernel, rfl, ?_, fun _ => ⟨by decide +kernel, fun h _ => hs h, ?_⟩⟩
  · intro h; exact absurd h (by decide +kernel)
  · have m : modeNow (wakeDrive served) = 2 := by decide +kernel
    unfold adminGate
    rw [m]
    rfl

theorem witness_rirus : sidebandUp State.reset = false ∧ sidebandUp (flds [(F.PWR_STATE_CUR, 2)] served) = true ∧
    asleep (flds [(F.PWR_STATE_CUR, 2)] served) = true ∧
    rirusRow (.rirusMgmtRead 5 0 1) = some (5, false, needRead) ∧ needRead.loader = false ∧
    inLoader (wakeDrive (flds [(F.SEC_STATUS_BOOT_SRC, 5)] served)) = true ∧ sidebandUp (flds [(F.SEC_STATUS_BOOT_SRC, 5)] served) = true ∧
    pausing (wakeDrive (flds [(F.HOST_CPL_STAT_PAUSED 0, 1)] served)) = true ∧
    inLoader (wakeDrive (flds [(F.HOST_CPL_STAT_PAUSED 0, 1)] served)) = false ∧
    rirusRow (.rirusTileOp 5 false 0 1 []) = some (5, false, needTile) ∧ needTile.session = true ∧
    isSet (wakeDrive (flds [(F.SEC_SIDEBAND_REQUIRE_SESSION, 1)] served)) F.SEC_SIDEBAND_REQUIRE_SESSION = true ∧
    pausing (wakeDrive (flds [(F.SEC_SIDEBAND_REQUIRE_SESSION, 1)] served)) = false ∧
    rirusRow (.rirusTileOp 5 true 0 1 []) = some (5, true, needTile) ∧ needTile.sanOk = false ∧
    modeNow (wakeDrive (flds [(F.TOP_MODE_MODE, 5)] served)) = modeSanitize ∧ 65535 < 65536 ∧
    inLoader (wakeDrive served) = false ∧ pausing (wakeDrive served) = false := by decide +kernel

theorem witness_rirusAccess : (2 : Nat) % 4 ≠ 0 ∧ windowSize < windowSize + 4 * 1 ∧ 1024 < 1025 ∧ (windowSize - 4) % 4 = 0 ∧
    windowSize - 4 + 4 * 1 ≤ windowSize ∧ reach (wakeDrive served) (windowSize - 4) = .ok ∧
    reach (wakeDrive served) Reg.SEC_SIDEBAND = .ok := by decide +kernel

theorem witness_rirusModes : running (wakeDrive served) = true ∧ 63 < 64 ∧ (5 : Nat) ≤ 5 ∧ modeZoned = modeNow (wakeDrive served) ∧
    modeNow (wakeDrive (flds [(F.TOP_MODE_MODE, 1)] served)) = modeStandalone ∧ (modeOutcome (wakeDrive served) 7).isNone = true := by
  decide +kernel

theorem witness_rirusStandalone : rirusRuns (flds [(F.TOP_MODE_MODE, 1)] served) (.rirusModeRequest 5 true modeZoned)
    (wakeDrive (flds [(F.TOP_MODE_MODE, 1)] served)) := by
  refine ⟨5, true, needTile, rfl, by decide +kernel, by decide +kernel, rfl, ?_, fun _ => ⟨by decide +kernel, fun _ _ => rfl, ?_⟩⟩
  · intro h; exact absurd h (by decide +kernel)
  · have m : modeNow (wakeDrive (flds [(F.TOP_MODE_MODE, 1)] served)) = 1 := by decide +kernel
    unfold adminGate
    rw [m]
    rfl

theorem witness_rirusLogs (s : State) : (4096 : Nat) < 4097 ∧ (0x99 : Nat) ≠ 0xC3 ∧ stdLog s 0 0x99 16 = none ∧
    stdLog s 0 0x03 512 = some (fwSlotLog s) := ⟨by decide, by decide, rfl, rfl⟩

/-- `served` with an image in the staging buffer. -/
def servedFw : State := { served with sec := { served.sec with staging := [(0, 4096, 1)], stagingFn := some 0 } }

theorem witness_rirusFirmware : (1 : Nat) % 4096 ≠ 0 ∧ stagingSize < 4096 + stagingSize ∧ 4096 % 4096 = 0 ∧ stagingSize ≤ stagingSize ∧
    (let u := wakeDrive servedFw
     u.sec.commit = none ∧ u.sec.act = none ∧ inLoader u = false ∧ fwTarget u 2 ≤ 2 ∧
      fwTarget u 2 ≠ getF u F.SEC_STATUS_ACTIVE_SLOT ∧ u.sec.staging ≠ [] ∧ imageFail u image0 = 0) ∧
    (wakeDrive { served with sec := { served.sec with act := some (activating 1 0 0) } }).sec.act ≠ none := by decide +kernel

theorem witness_rirusCommitRuns : rirusRuns servedFw (.rirusFwCommit 5 true 1 2 image0) (wakeDrive servedFw) := by
  refine ⟨5, true, needFw, rfl, by decide +kernel, by decide +kernel, rfl, ?_, fun _ => ⟨by decide +kernel, fun _ _ => rfl, ?_⟩⟩
  · intro h; exact absurd h (by decide +kernel)
  · have m : modeNow (wakeDrive servedFw) = 2 := by decide +kernel
    unfold adminGate
    rw [m]
    rfl

/-! ## The Hod -/

/-- `up` with channel 31 in a state. -/
def chan (st : Nat) (c : HodCh) : State := setHod 31 st (setCh 31 c up)

/-- A descriptor from map memory to map memory. -/
def desc (length control : Nat) : HodDesc :=
  { next := 0, src := 2 ^ 56, dst := 2 ^ 56 + 4096, length := length, control := control, status := 0x8000 }

/-- A channel that works on a descriptor, with bursts in flight and bytes issued. -/
def works (d : HodDesc) (inflight : List (Nat × Nat)) (issued : Nat) : HodCh :=
  { hodCh0 with desc := d, cur := 2 ^ 56 + 8192, inflight := inflight, issued := issued }

theorem witness_channels : 31 < 32 ∧ reach (chan 0 hodCh0) (Reg.HOD_CH_CTRL 31) = .ok ∧ hodState (chan hIdle hodCh0) 31 = hIdle ∧
    hodState (chan hHalted hodCh0) 31 = hHalted ∧ hodState (chan hWait hodCh0) 31 = hWait ∧ hodState (chan hRun hodCh0) 31 = hRun ∧
    hodState (chan hRun hodCh0) 31 ≠ hIdle ∧ hodState (chan hRun hodCh0) 31 ≠ hHalted ∧ hodState (chan hRun hodCh0) 31 ≠ hWait ∧
    codeRank (getCh (chan hRun hodCh0) 31).code < 2 ∧ (getCh (chan hRun hodCh0) 31).inflight = [] ∧
    hodState (chan hFetch hodCh0) 31 = hFetch ∧ hodState (chan hRun hodCh0) 31 ≠ hFetch ∧
    dOwn { desc 64 0 with status := 0 } = false ∧ dOwn (desc 64 0) = true ∧ badDesc (desc 64 0x1000) = true ∧
    badDesc (desc 64 0) = false ∧ (desc 0 0).length = 0 ∧ badDesc (desc 0 0) = false ∧ (desc 64 0).length ≠ 0 ∧
    (1 ≤ hodState (chan hFetch hodCh0) 31 ∧ hodState (chan hFetch hodCh0) 31 ≤ 4) ∧
    ¬ (1 ≤ hodState (chan hWait hodCh0) 31 ∧ hodState (chan hWait hodCh0) 31 ≤ 4) ∧
    reach (chan hWait hodCh0) (Reg.HOD_CH_NEXT_HI 31) = .ok ∧ reach (chan hWait hodCh0) (Reg.HOD_CH_NEXT_LO 31) = .ok := by
  decide +kernel

theorem witness_requests : lineHigh up 1 = false ∧ lineHigh up 2 = true ∧
    lineHigh (chan hRun (works (desc 128 6) [(0, 64)] 64)) (dReq (getCh (chan hRun (works (desc 128 6) [(0, 64)] 64)) 31).desc) = false ∧
    hodState (chan hRun (works (desc 128 6) [(0, 64)] 64)) 31 = hRun ∧
    dPaced (getCh (chan hRun (works (desc 128 6) [(0, 64)] 64)) 31).desc = true ∧
    (getCh (chan hRun (works (desc 128 6) [(0, 64)] 64)) 31).inflight ≠ [] ∧
    (getCh (chan hRun (works (desc 128 6) [(0, 64)] 64)) 31).issued ≠ (getCh (chan hRun (works (desc 128 6) [(0, 64)] 64)) 31).desc.length ∧
    codeRank (getCh (chan hRun (works (desc 128 6) [(0, 64)] 64)) 31).code < 1 ∧
    (getCh (chan hRun (works (desc 128 6) [] 64)) 31).inflight = [] ∧
    (getCh (chan hRun (works (desc 128 6) [(64, 64)] 128)) 31).issued = (getCh (chan hRun (works (desc 128 6) [(64, 64)] 128)) 31).desc.length ∧
    reach up Reg.HOD_SWREQ = .ok ∧ dReq (desc 64 (2 + 4 * 31)) = 16 + 15 ∧ bitsOf (0x8000 : W32).toNat 15 1 = 1 ∧
    bitsOf (0x7FFF : W32).toNat 15 1 = 0 ∧ dReq (desc 64 (2 + 4 * 15)) < 16 := by decide +kernel

theorem witness_busErrors : hasAccess (chan hRun hodCh0) 31 .fetch = false ∧ hasAccess (chan hFetch hodCh0) 31 .fetch = true ∧
    hasAccess (chan hFinish { hodCh0 with writing := true }) 31 .writeback = true ∧ hasAccess (chan hFinish hodCh0) 31 .readback = true ∧
    hasAccess (chan hRun (works (desc 128 0) [(0, 64)] 64)) 31 .source = true ∧
    hasAccess (chan hRun (works (desc 128 0) [(0, 64)] 64)) 31 .destination = true ∧
    (getCh (flds [(F.HOD_RETRY_COUNT, 1)] (chan hFetch hodCh0)) 31).tries < getF (flds [(F.HOD_RETRY_COUNT, 1)] (chan hFetch hodCh0)) F.HOD_RETRY_COUNT ∧
    getF (flds [(F.HOD_RETRY_COUNT, 0)] (chan hFetch hodCh0)) F.HOD_RETRY_COUNT ≤
      (getCh (flds [(F.HOD_RETRY_COUNT, 0)] (chan hFetch hodCh0)) 31).tries ∧
    codeRank (getCh (chan hFinish hodCh0) 31).code < 3 := by decide +kernel

/-- Channel 31 may issue: a WINDOW entry names it, map memory, and one burst. -/
def windowed : State := plan .hod (pe 1 (0x1F + 2 ^ 39 + 2 ^ 40)) (chan hRun (works (desc 128 0) [] 0))

theorem witness_bursts : isSet windowed (F.BLK_CTRL_ENABLE baseHod) = true ∧ running windowed = true ∧ powerNow windowed = 0 ∧
    mayIssue windowed 63 31 = true ∧ 63 < 64 ∧ (∀ k, k < 32 → mayIssue up 0 k = false) ∧
    isSet (flds [(F.BLK_CTRL_ENABLE baseHod, 0)] up) (F.BLK_CTRL_ENABLE baseHod) = false ∧
    (∀ t, completes (.hodTransferDone 31) windowed t → (getCh windowed 31).inflight.length ≠ 1) ∧
    (getCh (chan hRun (works (desc 128 0) [(0, 64)] 64)) 31).inflight.length = 1 ∧
    (entryAt windowed .hod 0 1).isSome = true ∧ eBursts (pe 1 (2 ^ 40)) ≠ 0 ∧
    eBursts (pe 1 (2 ^ 40)) ≤ tget (fun _ => 0) { windowed with hod := { windowed.hod with used := [(0, 1)] } }.hod.used 0 := by
  refine ⟨?_, ?_, ?_, ?_, ?_, ?_, ?_, fun _ _ => ?_, ?_, ?_, ?_, ?_⟩ <;> decide +kernel

theorem witness_ackedBurst : completes (.hodTransferDone 31) (chan hRun (works (desc 128 0) [(0, 64)] 64))
      (transferDone 31 (chan hRun (works (desc 128 0) [(0, 64)] 64))) ∧
    (getCh (chan hRun (works (desc 128 0) [(64, 64)] 128)) 31).inflight = [(64, 64)] ∧
    (∀ a ∈ burstAddrs (desc 128 0).src (dSrcFixed (desc 128 0)) 64 64, spaceBit a ≠ some 0) ∧
    (∀ a ∈ burstAddrs (desc 128 0).dst (dDstFixed (desc 128 0)) 64 64, spaceBit a ≠ some 0) ∧ 64 ≤ 4096 ∧
    dSrcFixed (desc 128 0) = false ∧ dDstFixed (desc 128 0) = false := by
  refine ⟨rfl, ?_, ?_, ?_, ?_, ?_, ?_⟩ <;> decide +kernel

theorem witness_hodLines : ∀ j, j < 64 → (∃ l b, hodPlace up ((desc 128 0).src + 64 + j) = .line l b) ∧
    ∃ l b, hodPlace up ((desc 128 0).dst + 64 + j) = .line l b := by
  have h : ∀ j, j < 64 → hodPlace up ((desc 128 0).src + 64 + j) = .line (1 + j / 64) (j % 64) ∧
      hodPlace up ((desc 128 0).dst + 64 + j) = .line (65 + j / 64) (j % 64) := by decide +kernel
  exact fun j hj => ⟨⟨_, _, (h j hj).1⟩, ⟨_, _, (h j hj).2⟩⟩

theorem witness_readBack : hodState (chan hFinish (works (desc 64 0) [] 64)) 31 = hFinish ∧
    (getCh (chan hFinish (works (desc 64 0) [] 64)) 31).inflight = [] ∧ (getCh (chan hFinish (works (desc 64 0) [] 64)) 31).writing = false ∧
    getF (flds [(F.HOD_CH_MOVED_BYTES 31, 64)] (chan hFinish (works (desc 64 0) [] 64))) (F.HOD_CH_MOVED_BYTES 31) ≠ 0 ∧
    spaceBit ((2 ^ 56 + 4096 + 63) / 8 * 8) ≠ some 0 ∧ (getCh (chan hFinish { hodCh0 with writing := true }) 31).writing = true ∧
    hodState (chan hRun hodCh0) 31 ≠ hFinish := by decide +kernel

theorem witness_writeBack :
    (let c := { works (desc 64 1) [] 64 with writing := true }
     let s := chan hFinish c
     c = getCh s 31 ∧ hodState s 31 = hFinish ∧ s.hod.resetting = false ∧ (∀ j, j < 8 → spaceBit (c.cur + 24 + j) ≠ some 0) ∧
      (∀ j, j < 8 → hodPlace s (c.cur + 24 + j) = .line 128 (24 + j)) ∧ dIrq c.desc = true ∧ getF s (F.HOD_CH_CFG_OWNER 31) < 12 ∧
      c.code ≤ 1 ∧ c.desc.next % 32 = 0 ∧ c.desc.next < 2 ^ 64) ∧
    dIrq (desc 64 0) = false ∧ dWdStop (desc 64 0x800) = true ∧ ({ hodCh0 with code := 5 }).code = 5 ∧
    (∀ n, 2 ≤ n → n ≤ 4 → 2 ≤ ({ hodCh0 with code := n }).code ∧ ({ hodCh0 with code := n }).code ≤ 4) ∧
    ({ hodCh0 with code := 6 }).code = 6 := by
  refine ⟨?_, ?_, ?_, ?_, fun n a b => ⟨a, b⟩, ?_⟩ <;> decide +kernel

/-! ## Memory and fabric protection -/

/-- An entry of a memory's log. -/
def logged (kind no : Nat) : MemLog := { no := no, word := 0, syndrome := 0, kind := kind, source := 0, beat := 0 }

/-- `up` with a memory in a state. -/
def memIn (m : Nat) (v : MemSt) : State := setMem m v up

/-- A memory whose log is full, its entries of one kind. -/
def fullLog (kind : Nat) : MemSt := { mem0 with log := (List.range 16).map (logged kind) }

theorem witness_memories : isMem 13 = false ∧ isMem 20 = false ∧ isMem 12 = true ∧ isMem 0 = true ∧ hasRegs 19 = true ∧ hasRegs 1 = true ∧
    (getMem up 1).log.length < 16 ∧ 16 ≤ (getMem (memIn 1 (fullLog 0)) 1).log.length ∧
    ((getMem (memIn 1 (fullLog 0)) 1).log.map (·.no)).Nodup ∧ (∃ x ∈ (getMem (memIn 1 (fullLog 0)) 1).log, x.kind = 0) ∧
    (∀ x ∈ (getMem (memIn 1 (fullLog 1)) 1).log, x.kind ≠ 0) ∧ 16 ≤ (getMem (memIn 0 { mem0 with level := 16 }) 0).level := by
  refine ⟨?_, ?_, ?_, ?_, ?_, ?_, ?_, ?_, ?_, ⟨logged 0 0, ?_⟩, ?_, ?_⟩ <;> decide +kernel

theorem witness_buckets :
    getF up (mF 19 F.MEMCHK_BUCKET_LEVEL F.MAPMEM_BUCKET_LEVEL) < getF up (mF 19 F.MEMCHK_BUCKET_DEPTH F.MAPMEM_BUCKET_DEPTH) ∧
    getF (flds [(F.MEMCHK_BUCKET_LEVEL 1, 255)] up) (mF 1 F.MEMCHK_BUCKET_DEPTH F.MAPMEM_BUCKET_DEPTH) ≤
      getF (flds [(F.MEMCHK_BUCKET_LEVEL 1, 255)] up) (mF 1 F.MEMCHK_BUCKET_LEVEL F.MAPMEM_BUCKET_LEVEL) ∧
    memHits up 1 5 3 + 1 < hardCount up 1 ∧ hardCount (memIn 1 { mem0 with found := [(5, 3, 9)] }) 1 ≤
      memHits (memIn 1 { mem0 with found := [(5, 3, 9)] }) 1 5 3 + 1 ∧
    remapOn up 19 = true ∧ (groupOf 1 5, remapUnit 1 5) ∉ (getMem up 1).remaps ∧ remapRoom up 1 (groupOf 1 5) = true ∧
    remapRoom (memIn 1 { mem0 with remaps := (List.range 32).map (fun k => (0, 10 + k)) }) 1 (groupOf 1 5) = false ∧
    (groupOf 1 5, remapUnit 1 5) ∉ (getMem (memIn 1 { mem0 with remaps := (List.range 32).map (fun k => (0, 10 + k)) }) 1).remaps := by
  decide +kernel

theorem witness_poison : true = (false || (getMem (memIn 1 { mem0 with poisoned := [5] }) 1).poisoned.contains 5) ∧
    false = (false || (getMem up 1).poisoned.contains 5) ∧ hasRegs 16 = true ∧ (getMem up 16).log.length < 16 ∧ ErrSource.scrub = .scrub ∧
    ErrSource.read ≠ .scrub := by decide +kernel

theorem witness_owners : 5 ≤ 5 ∧ 5 ≠ 1 ∧ 32767 < 32768 ∧ isSet up F.REC_STATUS_MEM_FAILED = false ∧
    otherPlan (0x72000 / 8 - 1) = some (.poster 1, 3) ∧ otherPlan (0x72000 / 8) = none ∧ 3 < 4 ∧ getF up (F.MAPMEM_STATUS_STATE 3) ≠ 4 ∧
    getNZ { up with mems := { up.mems with ueFrame := [(3, 255)] } } (F.MAPMEM_LOSS_CFG_UE_LIMIT 0) ≤
      tget (fun _ => 0) { up with mems := { up.mems with ueFrame := [(3, 255)] } }.mems.ueFrame 3 + 1 ∧
    isSet (flds [(F.MAPMEM_LAYOUT_DEG_OK 0, 1)] up) (F.MAPMEM_LAYOUT_DEG_OK 0) = true ∧
    degraded (flds [(F.MAPMEM_LAYOUT_DEG_OK 0, 1)] up) = false ∧ isSet (flds [(F.MAPMEM_LAYOUT_DEG_OK 0, 0)] up) (F.MAPMEM_LAYOUT_DEG_OK 0) = false ∧
    tget (fun _ => 0) up.mems.ueFrame 3 + 1 < getNZ up (F.MAPMEM_LOSS_CFG_UE_LIMIT 0) ∧
    (∃ l, mapWord (flds [(F.MAPMEM_SIZE_GIB 3, 64)] up) 3 0 = .line l) :=
  ⟨by decide, by decide, by decide, by decide +kernel, by decide +kernel, by decide +kernel, by decide, by decide +kernel,
    by decide +kernel, by decide +kernel, by decide +kernel, by decide +kernel, by decide +kernel, 192, by decide +kernel⟩

/-- `up` with Pointing of memory 1 on. -/
def pointing : State := flds [(F.MEMCHK_SCRUB_WORDS 1, 2), (F.MEMCHK_SCRUB_BEATS 1, 64)] up

theorem witness_pointing : asleep up = false ∧ up.top.off = false ∧ asleep (flds [(F.PWR_STATE_CUR, 2)] up) = true ∧
    getF pointing (mF 1 F.MEMCHK_SCRUB_WORDS F.MAPMEM_SCRUB_WORDS) ≠ 0 ∧
    beatNow pointing % getNZ pointing (mF 1 F.MEMCHK_SCRUB_BEATS F.MAPMEM_SCRUB_BEATS) = 0 ∧
    beatNow (atBeat 1048577 pointing) % getNZ (atBeat 1048577 pointing) (mF 1 F.MEMCHK_SCRUB_BEATS F.MAPMEM_SCRUB_BEATS) ≠ 0 ∧
    asleep pointing = false ∧ pointing.top.off = false ∧
    max 1 (memWords pointing 1) ≤ 2 ^ (mF 1 F.MEMCHK_SCRUB_POS_WORD F.MAPMEM_SCRUB_POS_WORD).w := by decide +kernel

/-- `up` with channel 3 of map memory under restoration. -/
def restored : State :=
  flds [(F.MAPMEM_RESTORE_ACTIVE 0, 1)] { up with mems := { up.mems with crcTries := [(3, 1)], retrains := [(3, 1)], absentLines := [7] } }

theorem witness_channelFaults : (3 : Nat) < 4 ∧ 4 ≤ 4 ∧ reach up (Reg.MAPMEM_CFG 3) = .ok ∧
    getF (flds [(F.MAPMEM_STATUS_STATE 3, 4)] up) (F.MAPMEM_STATUS_STATE 3) = 4 ∧ getF up (F.MAPMEM_STATUS_STATE 3) ≠ 4 ∧
    tget (fun _ => 0) up.mems.crcTries 3 ≠ 1 ∧ tget (fun _ => 0) restored.mems.crcTries 3 = 1 ∧
    tget (fun _ => 0) restored.mems.retrains 3 ≠ 0 ∧ getF restored (F.MAPMEM_STATUS_STATE 3) ≠ 4 ∧
    reach restored (Reg.MAPMEM_CFG 3) = .ok ∧ restoring up = false ∧ restoring restored = true ∧ lineAbsent restored 0 = false ∧
    lineAbsent restored 7 = true ∧ 7 ∈ restored.mems.absentLines ∧ 11 < 12 := by decide +kernel

theorem witness_fabric : portBase 18 ∉ up.errHeld ∧ portBase 18 ∈ { up with errHeld := [baseSort] }.errHeld ∧
    bitsOf (getR up (Reg.EVT_EN baseFab)) 1 1 = 1 ∧ bitsOf (getR (regs [(Reg.EVT_EN baseFab, 3)] up) (Reg.EVT_EN baseFab)) 0 1 = 1 := by
  decide +kernel

/-! ## The management window -/

/-- `up` with the Hod disabled, and in Sleep. -/
def hodOff : State := flds [(F.BLK_CTRL_ENABLE baseHod, 0)] up
def asleepUp : State := flds [(F.PWR_STATE_CUR, 2)] up

theorem witness_pages : guardRow up (.hodStart 31) = some (.onChip, Reg.HOD_CH_CTRL 31, 1) ∧
    ownWrite (.hodStart 31) = true ∧ reach hodOff (Reg.HOD_CH_CTRL 31) = .disabled ∧
    (blockOf (Reg.HOD_CH_CTRL 31)).isSome = true ∧ reach asleepUp (Reg.HOD_CH_CTRL 31) = .sleeping ∧
    reach up (Reg.HOD_CH_CTRL 31) = .ok := by decide +kernel

/-- A register with no rule of its own. -/
theorem witness_windowWrites (v : Nat) : Reg.KILN_HYST < windowSize ∧ Reg.KILN_HYST % 4 = 0 ∧ reach up Reg.KILN_HYST = .ok ∧ 31 % 16 = 15 ∧
    blockOf Reg.KILN_HYST = some (3, 0, baseKiln) ∧ (rowAt Reg.KILN_HYST).isSome = true ∧ 0x30 ≤ Reg.KILN_HYST - baseKiln ∧
    (writeLow 3 0 (Reg.KILN_HYST - baseKiln) v).isNone = true ∧ (writeHigh .onChip 3 0 (Reg.KILN_HYST - baseKiln) v up).isNone = true ∧
    causePage baseKiln = false := by
  refine ⟨?_, ?_, ?_, ?_, ?_, ?_, ?_, ?_, ?_, ?_⟩ <;> first | rfl | decide +kernel

theorem witness_noRegister : windowSize - 4 < windowSize ∧ (windowSize - 4) % 4 = 0 ∧ 0x140000 ≤ windowSize - 4 ∧
    rowAt (windowSize - 4) = none ∧ blockOf (windowSize - 4) = none ∧ reach up (windowSize - 4) = .ok := by decide +kernel

theorem witness_partWrites : 7 % 16 ≠ 15 ∧ blockOf Reg.KILN_HYST = some (3, 0, baseKiln) ∧ ¬ (3 = 13 ∧ 0x800 ≤ Reg.KILN_HYST - baseKiln) ∧
    ¬ (3 = 5 ∧ 0x2000 ≤ Reg.KILN_HYST - baseKiln ∧ Reg.KILN_HYST - baseKiln < 0x20F0) ∧
    0x6000 ≤ 0x60EC ∧ 0x60EC < 0x60F0 ∧ 0x60EC % 4 = 0 ∧ reach up 0x60EC = .ok ∧ 0x100000 ≤ 0x13FFFC ∧ 0x13FFFC < 0x140000 ∧
    reach up 0x13FFFC = .ok ∧ reach hodOff Reg.HOD_SWREQ = .disabled ∧ reach asleepUp Reg.HOD_SWREQ = .sleeping := by decide +kernel

theorem witness_windowReads : reach up Reg.HOD_BUS_ERR = .ok ∧ blockOf Reg.HOD_BUS_ERR = some (11, 0, baseHod) ∧
    (rowAt Reg.HOD_BUS_ERR).isSome = true ∧ Reg.HOD_BUS_ERR - baseHod ≠ 0x20 ∧ latched up Reg.HOD_BUS_ERR = none ∧
    latched up (Reg.HOD_CH_CUR_LO 31) = some 0 ∧ (rowAt (Reg.HOD_CH_CUR_LO 31)).isSome = true ∧ Reg.HOD_CH_CUR_LO 31 < windowSize ∧
    reach hodOff Reg.HOD_BUS_ERR = .disabled ∧ reach asleepUp Reg.HOD_BUS_ERR = .sleeping ∧ reach up Reg.HOD_BUS_ERR ≠ .disabled ∧
    isPage baseHod = true ∧ reach up (Reg.ERR_INFO baseHod) = .ok ∧ isPage (baseHod + 4) = false ∧ baseKiln ≠ baseHod ∧
    Reg.HOD_BUS_ERR % 4 = 0 := by decide +kernel

theorem witness_blockControls : isPage baseHod = true ∧ reach up (Reg.BLK_CTRL baseHod) = .ok ∧ isPage baseKiln = true ∧
    reach up (Reg.BLK_CTRL baseKiln) = .ok ∧ baseKiln ≠ baseHod ∧ bitsOf (0 : W32).toNat 0 1 = 0 ∧ bitsOf (1 : W32).toNat 0 1 = 1 ∧
    hodInUse (setHod 31 hRun up) = true ∧ hodInUse up = false ∧ reach (setHod 31 hRun up) (Reg.BLK_CTRL baseHod) = .ok ∧
    voteDomain baseKiln = none ∧ voteDomain baseHod = some 6 ∧ bitsOf (8 : W32).toNat 2 2 = 2 ∧ bitsOf (4 : W32).toNat 2 2 ≠ 2 ∧
    bitsOf (getF up F.PWR_DOM_STAT_ON) 6 1 = 1 ∧ powerNow up ≤ 1 ∧
    bitsOf (getF (flds [(F.PWR_DOM_STAT_ON, 0)] up) F.PWR_DOM_STAT_ON) 6 1 = 0 ∧
    reach (flds [(F.PWR_DOM_STAT_ON, 0)] up) (Reg.BLK_CTRL baseHod) = .sleeping ∧
    isSet (flds [(F.BLK_LOCK_LOCK baseHod, 1)] up) (F.BLK_LOCK_LOCK baseHod) = true ∧ isSet up (F.BLK_LOCK_LOCK baseHod) = false ∧
    (∀ k, k < 32 → hodState up k = hIdle ∨ hodState up k = hHalted) ∧
    (hodState (setHod 31 hRun up) 31 ≠ hIdle ∧ hodState (setHod 31 hRun up) 31 ≠ hHalted) := by decide +kernel

/-- A domain that is off whose page an access has woken: its vote can be written. -/
theorem witness_votes : ∃ s : State, reach s (Reg.BLK_CTRL baseHod) = .ok ∧ bitsOf (getF s F.PWR_DOM_STAT_ON) 6 1 = 0 ∧ powerNow s ≤ 1 := by
  refine ⟨flds [(F.PWR_DOM_STAT_ON, 0)] { up with top := { up.top with woken := [6] } }, ?_⟩
  decide +kernel

/-! ## Ill-formed terms -/

/-- Every check of a record, broken one at a time. -/
theorem illFormed_records :
    [CmdHead.wf ⟨64, 0, 0, 0⟩, CmdHead.wf ⟨0, 65536, 0, 0⟩, CmdHead.wf ⟨0, 0, 65536, 0⟩, CmdHead.wf ⟨0, 0, 0, 2 ^ 32⟩,
      PlanUnit.wf (.fch 32), PlanUnit.wf (.lane 32), PlanUnit.wf (.mac 8), PlanUnit.wf (.poster 2),
      PlanEntry.wf ⟨64, 0, 0, false, 0, 0, 0, 0⟩, PlanEntry.wf ⟨0, 4, 0, false, 0, 0, 0, 0⟩, PlanEntry.wf ⟨0, 0, 64, false, 0, 0, 0, 0⟩,
      PlanEntry.wf ⟨0, 0, 0, false, 256, 0, 0, 0⟩, PlanEntry.wf ⟨0, 0, 0, false, 0, 2 ^ 72, 0, 0⟩,
      PlanEntry.wf ⟨0, 0, 0, false, 0, 0, 65536, 0⟩, PlanEntry.wf ⟨0, 0, 0, false, 0, 0, 0, 64⟩, Account.wf (.tile 64),
      TileReq.wf ⟨⟨64, 0, 0, 0⟩, []⟩, TileReq.wf ⟨h0, List.replicate 17 0⟩, DsmRange.wf ⟨2 ^ 64, 0⟩, DsmRange.wf ⟨0, 2 ^ 32⟩,
      BlockIn.wf ⟨0, 2 ^ 32768, 0, true⟩, BlockIn.wf ⟨0, 0, 2 ^ 128, true⟩, DecodeResult.wf ⟨true, 65536, 0⟩,
      Hints.wf ⟨256, 0, 0, false, false⟩, Hints.wf ⟨0, 16, 0, false, false⟩, Hints.wf ⟨0, 0, 65536, false, false⟩,
      Conn.wf (.storage 64), Conn.wf (.doe 2)].all (!·) = true := by decide +kernel

theorem illFormed_images :
    [ImageInfo.wf { image0 with failedCondition := 8 }, ImageInfo.wf { image0 with svn := 256 }, ImageInfo.wf { image0 with root := 4 },
      ImageInfo.wf { image0 with compatMin := 65536 }, ImageInfo.wf { image0 with compatMax := 65536 },
      ImageInfo.wf { image0 with stateVersion := 65536 }, ImageInfo.wf { image0 with stateMin := 65536 },
      ImageInfo.wf { image0 with rev := 2 ^ 64 }, ImageInfo.wf { image0 with digest := 2 ^ 384 },
      Authorisation.wf (auth 256 0 0 0 0), Authorisation.wf (auth 0 65536 0 0 0), Authorisation.wf (auth 0 0 256 0 0),
      Authorisation.wf (auth 0 0 0 256 0), Authorisation.wf (auth 0 0 0 0 (2 ^ 256)),
      HodDesc.wf { hodDesc0 with next := 2 ^ 64 }, HodDesc.wf { hodDesc0 with src := 2 ^ 64 }, HodDesc.wf { hodDesc0 with dst := 2 ^ 64 },
      HodDesc.wf { hodDesc0 with length := 2 ^ 32 }, HodDesc.wf { hodDesc0 with control := 2 ^ 32 },
      HodDesc.wf { hodDesc0 with status := 2 ^ 32 }].all (!·) = true := by decide +kernel

/-- A start that meets nothing amiss. -/
def start0 : StartInput :=
  { strapPort := 0, strapSris := false, strapNandIf := false, strapSideband := false, strapSbAddr := 0, strapRecovery := false
    steps := [], sources := [], entropyOk := true, mmFail := [], fchFail := [], lunFail := [], plannerOk := [], width := 32
    mmGib := 64, recorderMemOk := true, manifestOk := true, groutLost := [], gapAt := none, later := 0, ms := 0, ms10 := 0, ms11 := 0 }

theorem illFormed_starts :
    start0.wf = true ∧
    [StartInput.wf { start0 with strapPort := 4 }, StartInput.wf { start0 with strapSbAddr := 8 },
      StartInput.wf { start0 with steps := List.replicate 13 ⟨true, true, false⟩ }, StartInput.wf { start0 with sources := [5] },
      StartInput.wf { start0 with mmFail := [4] }, StartInput.wf { start0 with fchFail := [32] },
      StartInput.wf { start0 with lunFail := [(32, 0)] }, StartInput.wf { start0 with lunFail := [(0, 64)] },
      StartInput.wf { start0 with plannerOk := List.replicate 9 true }, StartInput.wf { start0 with width := 7 },
      StartInput.wf { start0 with width := 33 }, StartInput.wf { start0 with mmGib := 256 }].all (!·) = true := by decide +kernel

/-- Hints of a command that places nothing. -/
def hn0 : Hints := ⟨0, 0, 0, false, false⟩

theorem illFormed_commands_1 :
    ([
      .sealSigned 0, .sealLate 0, .planCommit .hod 0 0 [] [], .planWriteClosedBuffer .hod 0 false, .plannerFailed 0, .fchNop 0 0,
      .readPage 0 0, .readSoft 0 0, .program 0 0, .erase 0 0, .suspend 0 0, .resume 0 0, .status 0 0 .done, .dieOpTimeout 0 0] : List Instr).all Instr.wf = true ∧
    ([
      .sealSigned (2 ^ 44), .sealLate (2 ^ 44), .planCommit (.fch 32) 0 0 [] [], .planCommit .hod 11 0 [] [],
      .planCommit .hod 0 (2 ^ 64) [] [], .planCommit .hod 0 0 [⟨64, 0, 0, false, 0, 0, 0, 0⟩] [], .planCommit .hod 0 0 [] [.tile 64],
      .planWriteClosedBuffer (.fch 32) 0 false, .planWriteClosedBuffer .hod 4 false, .plannerFailed 8, .fchNop 32 0, .fchNop 0 1022,
      .readPage 32 0, .readPage 0 1022, .readSoft 32 0, .readSoft 0 1022, .program 32 0, .program 0 1022, .erase 32 0, .erase 0 1022,
      .suspend 32 0, .suspend 0 1022, .resume 32 0, .resume 0 1022, .status 32 0 .done, .status 0 1022 .done, .dieOpTimeout 32 0,
      .dieOpTimeout 0 64] : List Instr).all (fun i => !i.wf) = true := by
  decide +kernel

theorem illFormed_commands_2 :
    ([
      .load 0 0 false, .fetch 0 0 false false, .setTrim 0 0, .resetLun 0 0, .courseStep 0 0, .laneNop 0 0, .accum 0 0, .emit 0 0,
      .arm 0 0, .clear 0 0, .waveConfirm 0, .macNop 0 0, .verifyEntry 0 0 [], .retag 0 0 []] : List Instr).all Instr.wf = true ∧
    ([
      .load 32 0 false, .load 0 1022 false, .fetch 32 0 false false, .fetch 0 1022 false false, .setTrim 32 0, .setTrim 0 1022,
      .resetLun 32 0, .resetLun 0 1022, .courseStep 32 0, .courseStep 0 1022, .laneNop 32 0, .laneNop 0 126, .accum 32 0, .accum 0 126,
      .emit 32 0, .emit 0 126, .arm 32 0, .arm 0 126, .clear 32 0, .clear 0 126, .waveConfirm 16, .macNop 8 0, .macNop 0 126,
      .verifyEntry 8 0 [], .verifyEntry 0 126 [], .retag 8 0 [], .retag 0 126 []] : List Instr).all (fun i => !i.wf) = true := by
  decide +kernel

theorem illFormed_commands_3 :
    ([
      .raw 0 0, .cplNop 0 0, .post 0 0 false, .postQuiet 0 0 false, .hodNop 0, .window 0, .ldpcDecodeDone 0 ⟨true, 0, 0⟩,
      .readDataTransferred 0 0, .writeDataArrival 0 [] none, .writeAdmitted 0, .palletIdle 0, .bgWindowEnd 0 0 false,
      .tileProvision 0 none, .tileStart 0 none] : List Instr).all Instr.wf = true ∧
    ([
      .raw 8 0, .raw 0 126, .cplNop 2 0, .cplNop 0 1022, .post 2 0 false, .post 0 1022 false, .postQuiet 2 0 false,
      .postQuiet 0 1022 false, .hodNop 126, .window 126, .ldpcDecodeDone 0 ⟨true, 65536, 0⟩, .readDataTransferred 262144 0,
      .readDataTransferred 0 64, .writeDataArrival 262144 [] none, .writeDataArrival 0 [⟨0, 2 ^ 32768, 0, true⟩] none,
      .writeAdmitted 262144, .palletIdle 179200, .bgWindowEnd 32 0 false, .bgWindowEnd 0 64 false, .tileProvision 64 none,
      .tileProvision 0 (some ⟨⟨64, 0, 0, 0⟩, []⟩), .tileStart 64 none, .tileStart 0 (some ⟨⟨64, 0, 0, 0⟩, []⟩)] : List Instr).all (fun i => !i.wf) = true := by
  decide +kernel

theorem illFormed_commands_4 :
    ([
      .tileStop 0 none, .tileRelease 0 none, .tileSetShares 0 none, .tileQuiesced 0, .tileScrubbed 0, .sqDoorbellWrite 0 0 0,
      .cqDoorbellWrite 0 0 0, .commandFetch 0, .matcherSearch 0, .unsupportedOpcode h0 0, .createIoSq h0 0 1 0 0, .deleteIoSq h0 0,
      .createIoCq h0 0 1 0, .deleteIoCq h0 0] : List Instr).all Instr.wf = true ∧
    ([
      .tileStop 64 none, .tileStop 0 (some ⟨⟨64, 0, 0, 0⟩, []⟩), .tileRelease 64 none, .tileRelease 0 (some ⟨⟨64, 0, 0, 0⟩, []⟩),
      .tileSetShares 64 none, .tileSetShares 0 (some ⟨⟨64, 0, 0, 0⟩, []⟩), .tileQuiesced 64, .tileScrubbed 64, .sqDoorbellWrite 64 0 0,
      .sqDoorbellWrite 0 65536 0, .sqDoorbellWrite 0 0 65536, .cqDoorbellWrite 64 0 0, .cqDoorbellWrite 0 65536 0,
      .cqDoorbellWrite 0 0 65536, .commandFetch 2, .matcherSearch 262144, .unsupportedOpcode ⟨64, 0, 0, 0⟩ 0,
      .unsupportedOpcode h0 256, .createIoSq ⟨64, 0, 0, 0⟩ 0 1 0 0, .createIoSq h0 65536 1 0 0, .createIoSq h0 0 0 0 0,
      .createIoSq h0 0 65537 0 0, .createIoSq h0 0 1 4 0, .createIoSq h0 0 1 0 65536, .deleteIoSq ⟨64, 0, 0, 0⟩ 0,
      .deleteIoSq h0 65536, .createIoCq ⟨64, 0, 0, 0⟩ 0 1 0, .createIoCq h0 65536 1 0, .createIoCq h0 0 0 0, .createIoCq h0 0 65537 0,
      .createIoCq h0 0 1 2048, .deleteIoCq ⟨64, 0, 0, 0⟩ 0, .deleteIoCq h0 65536] : List Instr).all (fun i => !i.wf) = true := by
  decide +kernel

theorem illFormed_commands_5 :
    ([
      .getLogPage h0 0 0 0 false, .getLogPageC0 h0 0 false, .getLogPageC1 h0 0 false, .getLogPageC2 h0 false,
      .getLogPageC3 h0 0 0 false, .getLogPageC4 h0 false 0 0, .getLogPageC5 h0, .identify h0 0, .abort h0 0 0, .setFeatures h0 0 0,
      .setFeaturesPowerManagement h0 0, .setFeaturesArbitration h0 0 0 0 0, .setFeaturesVwc h0 false, .setFeaturesFdp h0 false] : List Instr).all Instr.wf = true ∧
    ([
      .getLogPage ⟨64, 0, 0, 0⟩ 0 0 0 false, .getLogPage h0 256 0 0 false, .getLogPage h0 0 (2 ^ 64) 0 false,
      .getLogPage h0 0 0 (2 ^ 34) false, .getLogPageC0 ⟨64, 0, 0, 0⟩ 0 false, .getLogPageC0 h0 65536 false,
      .getLogPageC1 ⟨64, 0, 0, 0⟩ 0 false, .getLogPageC1 h0 65536 false, .getLogPageC2 ⟨64, 0, 0, 0⟩ false,
      .getLogPageC3 ⟨64, 0, 0, 0⟩ 0 0 false, .getLogPageC3 h0 (2 ^ 64) 0 false, .getLogPageC3 h0 0 65536 false,
      .getLogPageC4 ⟨64, 0, 0, 0⟩ false 0 0, .getLogPageC4 h0 false (2 ^ 64) 0, .getLogPageC4 h0 false 0 (2 ^ 34),
      .getLogPageC5 ⟨64, 0, 0, 0⟩, .identify ⟨64, 0, 0, 0⟩ 0, .identify h0 256, .abort ⟨64, 0, 0, 0⟩ 0 0, .abort h0 65536 0,
      .abort h0 0 65536, .setFeatures ⟨64, 0, 0, 0⟩ 0 0, .setFeatures h0 256 0, .setFeatures h0 0 (2 ^ 32),
      .setFeaturesPowerManagement ⟨64, 0, 0, 0⟩ 0, .setFeaturesPowerManagement h0 32, .setFeaturesArbitration ⟨64, 0, 0, 0⟩ 0 0 0 0,
      .setFeaturesArbitration h0 8 0 0 0, .setFeaturesArbitration h0 0 256 0 0, .setFeaturesArbitration h0 0 0 256 0,
      .setFeaturesArbitration h0 0 0 0 256, .setFeaturesVwc ⟨64, 0, 0, 0⟩ false, .setFeaturesFdp ⟨64, 0, 0, 0⟩ false] : List Instr).all (fun i => !i.wf) = true := by
  decide +kernel

theorem illFormed_commands_6 :
    ([
      .setFeaturesFdpEvents h0 false [], .setFeaturesTimestamp h0 0, .getFeatures h0 0, .asyncEventRequest h0,
      .namespaceCreate h0 0 0 0 [], .namespaceDelete h0, .namespaceAttachment h0 false, .formatNvm h0 0 0, .deviceSelfTest h0 0,
      .securitySend h0, .securityReceive h0, .directiveSend h0, .directiveReceive h0, .firmwareImageDownload h0 0 0 0] : List Instr).all Instr.wf = true ∧
    ([
      .setFeaturesFdpEvents ⟨64, 0, 0, 0⟩ false [], .setFeaturesTimestamp ⟨64, 0, 0, 0⟩ 0, .getFeatures ⟨64, 0, 0, 0⟩ 0,
      .getFeatures h0 256, .asyncEventRequest ⟨64, 0, 0, 0⟩, .namespaceCreate ⟨64, 0, 0, 0⟩ 0 0 0 [], .namespaceCreate h0 256 0 0 [],
      .namespaceCreate h0 0 (2 ^ 64) 0 [], .namespaceCreate h0 0 0 64 [], .namespaceDelete ⟨64, 0, 0, 0⟩,
      .namespaceAttachment ⟨64, 0, 0, 0⟩ false, .formatNvm ⟨64, 0, 0, 0⟩ 0 0, .formatNvm h0 64 0, .formatNvm h0 0 8,
      .deviceSelfTest ⟨64, 0, 0, 0⟩ 0, .deviceSelfTest h0 16, .securitySend ⟨64, 0, 0, 0⟩, .securityReceive ⟨64, 0, 0, 0⟩,
      .directiveSend ⟨64, 0, 0, 0⟩, .directiveReceive ⟨64, 0, 0, 0⟩, .firmwareImageDownload ⟨64, 0, 0, 0⟩ 0 0 0,
      .firmwareImageDownload h0 (2 ^ 64) 0 0, .firmwareImageDownload h0 0 (2 ^ 34) 0] : List Instr).all (fun i => !i.wf) = true := by
  decide +kernel

theorem illFormed_commands_7 :
    ([
      .fwCommitStore h0 0 image0, .fwCommitStoreActivateReset h0 0 image0, .fwCommitActivateReset h0 0 image0,
      .fwCommitActivateNow h0 0 image0, .sanitize h0 0, .modeRequest h0 0, .managementRead h0 0 0, .managementWrite h0 0 [],
      .recorderFreeze none 0, .recorderThaw none 0, .write h0 0 1 hn0, .read h0 0 1 hn0 0, .flush h0 false, .writeZeroes h0 0 1 hn0] : List Instr).all Instr.wf = true ∧
    ([
      .fwCommitStore ⟨64, 0, 0, 0⟩ 0 image0, .fwCommitStore h0 8 image0, .fwCommitStore h0 0 { image0 with svn := 256 },
      .fwCommitStoreActivateReset ⟨64, 0, 0, 0⟩ 0 image0, .fwCommitStoreActivateReset h0 8 image0,
      .fwCommitStoreActivateReset h0 0 { image0 with svn := 256 }, .fwCommitActivateReset ⟨64, 0, 0, 0⟩ 0 image0,
      .fwCommitActivateReset h0 8 image0, .fwCommitActivateReset h0 0 { image0 with svn := 256 },
      .fwCommitActivateNow ⟨64, 0, 0, 0⟩ 0 image0, .fwCommitActivateNow h0 8 image0,
      .fwCommitActivateNow h0 0 { image0 with svn := 256 }, .sanitize ⟨64, 0, 0, 0⟩ 0, .sanitize h0 8, .modeRequest ⟨64, 0, 0, 0⟩ 0,
      .modeRequest h0 16, .managementRead ⟨64, 0, 0, 0⟩ 0 0, .managementRead h0 (2 ^ 32) 0, .managementRead h0 0 1025,
      .managementWrite ⟨64, 0, 0, 0⟩ 0 [], .managementWrite h0 (2 ^ 64) [], .recorderFreeze (some ⟨64, 0, 0, 0⟩) 0,
      .recorderFreeze none 4, .recorderThaw (some ⟨64, 0, 0, 0⟩) 0, .recorderThaw none 4, .write ⟨64, 0, 0, 0⟩ 0 1 hn0,
      .write h0 (2 ^ 64) 1 hn0, .write h0 0 0 hn0, .write h0 0 65537 hn0, .write h0 0 1 ⟨256, 0, 0, false, false⟩,
      .read ⟨64, 0, 0, 0⟩ 0 1 hn0 0, .read h0 (2 ^ 64) 1 hn0 0, .read h0 0 0 hn0 0, .read h0 0 65537 hn0 0,
      .read h0 0 1 ⟨256, 0, 0, false, false⟩ 0, .read h0 0 1 hn0 64, .flush ⟨64, 0, 0, 0⟩ false, .writeZeroes ⟨64, 0, 0, 0⟩ 0 1 hn0,
      .writeZeroes h0 (2 ^ 64) 1 hn0, .writeZeroes h0 0 0 hn0, .writeZeroes h0 0 65537 hn0,
      .writeZeroes h0 0 1 ⟨256, 0, 0, false, false⟩] : List Instr).all (fun i => !i.wf) = true := by
  decide +kernel

theorem illFormed_commands_8 :
    ([
      .datasetManagement h0 false [], .verify h0 0 1, .ioManagementSend h0 [], .ioManagementReceive h0, .zoneAppend h0 0 1 hn0,
      .zoneManagementReceive h0 0 0 false, .openZone h0 0 false, .closeZone h0 0 false, .finishZone h0 0 false, .resetZone h0 0 false,
      .offlineZone h0 0 false, .setZoneDescriptorExtension h0, .zoneSealed 1 0, .zoneFinishRecommended 1 0] : List Instr).all Instr.wf = true ∧
    ([
      .datasetManagement ⟨64, 0, 0, 0⟩ false [], .datasetManagement h0 false [⟨2 ^ 64, 0⟩], .verify ⟨64, 0, 0, 0⟩ 0 1,
      .verify h0 (2 ^ 64) 1, .verify h0 0 0, .verify h0 0 65537, .ioManagementSend ⟨64, 0, 0, 0⟩ [],
      .ioManagementReceive ⟨64, 0, 0, 0⟩, .zoneAppend ⟨64, 0, 0, 0⟩ 0 1 hn0, .zoneAppend h0 (2 ^ 64) 1 hn0, .zoneAppend h0 0 0 hn0,
      .zoneAppend h0 0 65537 hn0, .zoneAppend h0 0 1 ⟨256, 0, 0, false, false⟩, .zoneManagementReceive ⟨64, 0, 0, 0⟩ 0 0 false,
      .zoneManagementReceive h0 (2 ^ 64) 0 false, .zoneManagementReceive h0 0 65536 false, .openZone ⟨64, 0, 0, 0⟩ 0 false,
      .openZone h0 (2 ^ 64) false, .closeZone ⟨64, 0, 0, 0⟩ 0 false, .closeZone h0 (2 ^ 64) false, .finishZone ⟨64, 0, 0, 0⟩ 0 false,
      .finishZone h0 (2 ^ 64) false, .resetZone ⟨64, 0, 0, 0⟩ 0 false, .resetZone h0 (2 ^ 64) false,
      .offlineZone ⟨64, 0, 0, 0⟩ 0 false, .offlineZone h0 (2 ^ 64) false, .setZoneDescriptorExtension ⟨64, 0, 0, 0⟩, .zoneSealed 0 0,
      .zoneSealed 1025 0, .zoneSealed 1 (2 ^ 20), .zoneFinishRecommended 0 0, .zoneFinishRecommended 1025 0,
      .zoneFinishRecommended 1 (2 ^ 20)] : List Instr).all (fun i => !i.wf) = true := by
  decide +kernel

theorem illFormed_commands_9 :
    ([
      .zoneAudit h0 0 0, .readTags h0 0 0, .controllerReset 0, .shutdownNotification 0, .shutdownComplete 0, .functionLevelReset 0,
      .portReset 0, .hostLinkUp 0 0 0 false, .hostLinkDown 0, .hostLinkRetrain 0, .hostCplTimeout 0, .linkWidthChange 0 false,
      .sortEntryStage 0 0 0, .sortEntryCommit 0 0] : List Instr).all Instr.wf = true ∧
    ([
      .zoneAudit ⟨64, 0, 0, 0⟩ 0 0, .zoneAudit h0 (2 ^ 64) 0, .zoneAudit h0 0 (2 ^ 256), .readTags ⟨64, 0, 0, 0⟩ 0 0,
      .readTags h0 (2 ^ 64) 0, .readTags h0 0 65536, .controllerReset 64, .shutdownNotification 64, .shutdownComplete 64,
      .functionLevelReset 64, .portReset 2, .hostLinkUp 2 0 0 false, .hostLinkUp 0 8 0 false, .hostLinkUp 0 0 17 false,
      .hostLinkDown 2, .hostLinkRetrain 2, .hostCplTimeout 262144, .linkWidthChange 2 false, .sortEntryStage 4096 0 0,
      .sortEntryStage 0 8 0, .sortEntryCommit 4096 0] : List Instr).all (fun i => !i.wf) = true := by
  decide +kernel

theorem illFormed_commands_10 :
    ([
      .sortInsert 0 0, .sortDelete 0 0, .sortInvalidate 0 0, .shadowRewrite 0 false, .fchRetrain 0 false, .groutRestart start0,
      .fatalEvent 0, .macKat 0 false, .maskReseed 0, .keyGenerate 0 0, .keyLoad 0 0 false 0, .keySetCurrent 0 0, .keyCurrentSwitch 0,
      .keyErase 0 0] : List Instr).all Instr.wf = true ∧
    ([
      .sortInsert 4096 0, .sortInsert 0 4096, .sortDelete 4096 0, .sortDelete 0 4096, .sortInvalidate 4096 0, .sortInvalidate 0 4096,
      .shadowRewrite 4096 false, .fchRetrain 32 false, .groutRestart { start0 with width := 33 }, .fatalEvent 256, .macKat 12 false,
      .maskReseed 12, .keyGenerate 64 0, .keyGenerate 0 4, .keyLoad 64 0 false 0, .keyLoad 0 4 false 0, .keySetCurrent 64 0,
      .keySetCurrent 0 4, .keyCurrentSwitch 64, .keyErase 64 0, .keyErase 0 4] : List Instr).all (fun i => !i.wf) = true := by
  decide +kernel

theorem illFormed_commands_11 :
    ([
      .keyEraseEffect 0, .keyOldCopyRetired 0, .keyStatus 0, .slhSignatureGet .mctp, .slhChainGet .mctp, .spdmGetVersion .mctp,
      .spdmGetCapabilities .mctp, .spdmNegotiateAlgorithms .mctp, .spdmGetDigests .mctp, .spdmGetCertificate .mctp 0 0 0,
      .spdmChallenge .mctp 0 0, .spdmGetMeasurements .mctp 0 0 false, .spdmKeyExchange .mctp false 0, .spdmFinish .mctp false false 0] : List Instr).all Instr.wf = true ∧
    ([
      .keyEraseEffect 256, .keyOldCopyRetired 256, .keyStatus 64, .slhSignatureGet (.storage 64), .slhChainGet (.storage 64),
      .spdmGetVersion (.storage 64), .spdmGetCapabilities (.storage 64), .spdmNegotiateAlgorithms (.storage 64),
      .spdmGetDigests (.storage 64), .spdmGetCertificate (.storage 64) 0 0 0, .spdmGetCertificate .mctp 8 0 0,
      .spdmGetCertificate .mctp 0 (2 ^ 64) 0, .spdmGetCertificate .mctp 0 0 (2 ^ 34), .spdmChallenge (.storage 64) 0 0,
      .spdmChallenge .mctp 8 0, .spdmChallenge .mctp 0 (2 ^ 256), .spdmGetMeasurements (.storage 64) 0 0 false,
      .spdmGetMeasurements .mctp 256 0 false, .spdmGetMeasurements .mctp 0 (2 ^ 256) false, .spdmKeyExchange (.storage 64) false 0,
      .spdmKeyExchange .mctp false (2 ^ 384), .spdmFinish (.storage 64) false false 0, .spdmFinish .mctp false false (2 ^ 384)] : List Instr).all (fun i => !i.wf) = true := by
  decide +kernel

theorem illFormed_commands_12 :
    ([
      .spdmKeyUpdate .mctp, .spdmEndSession .mctp, .spdmSessionLimit .mctp, .mbxDebugUnlock .onChip (auth 0 0 0 0 0),
      .mbxRootRevoke .onChip (auth 0 0 0 0 0), .rirusIdentify 0, .rirusMgmtRead 0 0 0, .rirusMgmtWrite 0 false 0 [],
      .rirusTileOp 0 false 0 0 [], .rirusModeRequest 0 false 0, .rirusLogRead 0 0 0 0, .rirusRecorderControl 0 false false false,
      .rirusFwDownload 0 false 0 0 0, .rirusFwCommit 0 false 0 0 image0] : List Instr).all Instr.wf = true ∧
    ([
      .spdmKeyUpdate (.storage 64), .spdmEndSession (.storage 64), .spdmSessionLimit (.storage 64),
      .mbxDebugUnlock .onChip (auth 256 0 0 0 0), .mbxRootRevoke .onChip (auth 256 0 0 0 0), .rirusIdentify 65536,
      .rirusMgmtRead 65536 0 0, .rirusMgmtRead 0 (2 ^ 64) 0, .rirusMgmtRead 0 0 65536, .rirusMgmtWrite 65536 false 0 [],
      .rirusMgmtWrite 0 false (2 ^ 64) [], .rirusTileOp 65536 false 0 0 [], .rirusTileOp 0 false 64 0 [], .rirusTileOp 0 false 0 16 [],
      .rirusModeRequest 65536 false 0, .rirusModeRequest 0 false 16, .rirusLogRead 65536 0 0 0, .rirusLogRead 0 256 0 0,
      .rirusLogRead 0 0 (2 ^ 64) 0, .rirusLogRead 0 0 0 (2 ^ 34), .rirusRecorderControl 65536 false false false,
      .rirusFwDownload 65536 false 0 0 0, .rirusFwDownload 0 false (2 ^ 64) 0 0, .rirusFwDownload 0 false 0 (2 ^ 34) 0,
      .rirusFwCommit 65536 false 0 0 image0, .rirusFwCommit 0 false 8 0 image0, .rirusFwCommit 0 false 0 8 image0,
      .rirusFwCommit 0 false 0 0 { image0 with svn := 256 }] : List Instr).all (fun i => !i.wf) = true := by
  decide +kernel

theorem illFormed_commands_13 :
    ([
      .rirusHealth 0, .mctpSetEndpointId 0, .hodStart 0, .hodKick 0, .hodAbort 0, .hodDescFetched 0 hodDesc0, .hodBurstIssue 0 [],
      .hodTransferDone 0, .hodReadbackDone 0, .hodWritebackDone 0, .hodReqLineAssert 0, .hodWithdrawal 0, .hodBusError 0 .fetch,
      .hodChNextWrite 0 false 0] : List Instr).all Instr.wf = true ∧
    ([
      .rirusHealth 65536, .mctpSetEndpointId 256, .hodStart 32, .hodKick 32, .hodAbort 32, .hodDescFetched 32 hodDesc0,
      .hodDescFetched 0 { hodDesc0 with next := 2 ^ 64 }, .hodBurstIssue 64 [], .hodTransferDone 32, .hodReadbackDone 32,
      .hodWritebackDone 32, .hodReqLineAssert 32, .hodWithdrawal 32, .hodBusError 32 .fetch, .hodChNextWrite 32 false 0] : List Instr).all (fun i => !i.wf) = true := by
  decide +kernel

theorem illFormed_commands_14 :
    ([
      .memoryUncorrectable 0 0 0 .read false false false, .memoryCorrectable 0 0 0 .read, .scrubPeriod 0 0, .mapmemAlert 0 0,
      .mapmemRetrain 0 false, .fabParityError 0 0 false false 0 0, .domainDrainTimeout 0, .wakeStepTimeout 0 1 false false,
      .accessStallTimeout 0 false, .evtForceWrite 0 0, .evtEnWrite 0 0, .evtPendClear 0 0, .evtRouteWrite 0 0, .evtMsixSend 0 false] : List Instr).all Instr.wf = true ∧
    ([
      .memoryUncorrectable 20 0 0 .read false false false, .memoryUncorrectable 0 (2 ^ 32) 0 .read false false false,
      .memoryUncorrectable 0 0 32768 .read false false false, .memoryCorrectable 20 0 0 .read, .memoryCorrectable 0 (2 ^ 32) 0 .read,
      .memoryCorrectable 0 0 32768 .read, .scrubPeriod 20 0, .mapmemAlert 4 0, .mapmemRetrain 4 false,
      .fabParityError 256 0 false false 0 0, .fabParityError 0 256 false false 0 0, .fabParityError 0 0 false false 16 0,
      .fabParityError 0 0 false false 0 0x4000000, .domainDrainTimeout 16, .wakeStepTimeout 16 1 false false,
      .wakeStepTimeout 0 0 false false, .wakeStepTimeout 0 13 false false, .accessStallTimeout 0x4000000 false,
      .evtForceWrite 0x4000000 0, .evtEnWrite 0x4000000 0, .evtPendClear 0x4000000 0, .evtRouteWrite 256 0, .evtMsixSend 2 false] : List Instr).all (fun i => !i.wf) = true := by
  decide +kernel

theorem illFormed_commands_15 :
    ([
      .powerOnStart start0, .offExit start0, .startStepTimeout 1 false, .blkSoftReset 0, .blkEnableWrite 0 0, .blkPowerVoteWrite 0 0,
      .blkLockSet 0, .errInfoRead 0, .rcCounterRead 0, .latchingLoRead 0, .disabledBlockAccess 0 false, .registerWrite .onChip 0 0 0,
      .controllerEnable 0, .autonomousPowerStateTransition 0 0] : List Instr).all Instr.wf = true ∧
    ([
      .powerOnStart { start0 with width := 33 }, .offExit { start0 with width := 33 }, .startStepTimeout 0 false,
      .startStepTimeout 13 false, .blkSoftReset 0x4000000, .blkEnableWrite 0x4000000 0, .blkPowerVoteWrite 0x4000000 0,
      .blkLockSet 0x4000000, .errInfoRead 0x4000000, .rcCounterRead 0x4000000, .latchingLoRead 0x4000000,
      .disabledBlockAccess 0x4000000 false, .registerWrite .onChip 0x4000000 0 0, .registerWrite .onChip 0 0 16, .controllerEnable 64,
      .autonomousPowerStateTransition 64 0, .autonomousPowerStateTransition 0 32] : List Instr).all (fun i => !i.wf) = true := by
  decide +kernel

theorem illFormed_commands_16 :
    ([
      .perstDeasserted 0, .vfEnable 0 0 false, .aerError 0 false, .linkRecoveryExit 0 0, .spdmChunkGet .mctp 0,
      .spdmChunkSend .mctp 0 false, .dynamicAddressAssignment 0] : List Instr).all Instr.wf = true ∧
    ([
      .perstDeasserted 2, .vfEnable 2 0 false, .vfEnable 0 65536 false, .aerError 2 false, .linkRecoveryExit 2 0,
      .linkRecoveryExit 0 17, .spdmChunkGet (.storage 64) 0, .spdmChunkGet .mctp 65536, .spdmChunkSend (.storage 64) 0 false,
      .spdmChunkSend .mctp 65536 false, .dynamicAddressAssignment 0x4000000] : List Instr).all (fun i => !i.wf) = true := by
  decide +kernel

/-! ## The block as a whole -/

/-- The next state of a command, or the state before it. -/
def after (c : Instr) (s : State) : State := match exec c s with | .next t => t | _ => s

theorem witness_idle : up.pending = [] ∧ step up = .next up := ⟨by decide +kernel, rfl⟩

theorem witness_exec : exec .beatBoundary up = .next (after .beatBoundary up) ∧ regsWf up = true ∧
    step { up with pending := [.beatBoundary] } = .next (after .beatBoundary { up with pending := [] }) :=
  ⟨rfl, by decide +kernel, rfl⟩

theorem witness_outside : windowAddr (.rcCounterRead windowSize) = some windowSize ∧ windowSize ≤ windowSize ∧
    windowAddr (.rcCounterRead (windowSize - 1)) = some (windowSize - 1) ∧ windowAddr .headerBeat = none := by decide +kernel

/-! ## Single steps, their results worked out from the spec -/

/-- R376: START takes an IDLE channel to FETCH, state code 1. -/
theorem test_hodStart : getF (after (.hodStart 5) up) (F.HOD_CH_STAT_STATE 5) = 1 := by decide +kernel

/-- R376: START out of place is ignored, and says so. -/
theorem test_hodStartIgnored : getF (after (.hodStart 31) (chan 2 hodCh0)) (F.HOD_CH_STAT_IGNORED 31) = 1 := by decide +kernel

/-- R376: KICK takes WAIT, state code 5, to FETCH. -/
theorem test_hodKick : getF (after (.hodKick 31) (chan 5 hodCh0)) (F.HOD_CH_STAT_STATE 31) = 1 := by decide +kernel

/-- R498: LOCK is set by a write of 1. -/
theorem test_blkLockSet : getR (after (.blkLockSet baseKiln) up) (Reg.BLK_LOCK baseKiln) = 1 := by decide +kernel

/-- R499: a write of part of a word is dropped, and ERR_INFO of its page holds code 0xF0. -/
theorem test_partWrite : getF (after (.registerWrite .onChip Reg.KILN_HYST 0xFFFFFFFF 7) up) (F.ERR_INFO_CODE baseKiln) = 0xF0 ∧
    getR (after (.registerWrite .onChip Reg.KILN_HYST 0xFFFFFFFF 7) up) Reg.KILN_HYST = getR up Reg.KILN_HYST := by decide +kernel

/-- R491: CHIP_ID reads 0x4E5A9600. -/
theorem test_chipId : (after (.rcCounterRead Reg.TOP_CHIP_ID) up).out = [.readData .onChip Reg.TOP_CHIP_ID 0x4E5A9600] := by decide +kernel

/-- R424: a disabled block reads all ones. -/
theorem test_disabledRead : (after (.disabledBlockAccess Reg.HOD_SWREQ false) hodOff).out = [.readData .onChip Reg.HOD_SWREQ 0xFFFFFFFF] := by
  decide +kernel

/-- R362: an endpoint identifier of 8 to 254 is taken. -/
theorem test_setEndpointId : (after (.mctpSetEndpointId 8) served).sec.eid = 8 := by decide +kernel

/-- R412: the fourth failure of a word is a fatal error, and the counter of replays stands still. -/
theorem test_fabFatal : getF (after (.fabParityError 1 2 false false 4 0) up) F.FAB_FATALS_COUNT = 1 ∧
    getF (after (.fabParityError 1 2 false false 4 0) up) F.FAB_REPLAYS_COUNT = 0 := by decide +kernel

/-- R346, R347: a key exchange before the negotiation is an unexpected request, error 0x04 of DSP0274. -/
theorem test_keyExchangeEarly : (after (.spdmKeyExchange (.storage 0) false 0) hosted).out = [.spdm (.storage 0) 0x7F [4]] := by
  decide +kernel

end Sys2Proof.Tests
end

/-! ## Writes to a plan buffer after its beat of planning (R36) -/

section

namespace Sys2Proof.Machine

/-- A posted write that comes too late answers nothing and is known by its event alone. -/
theorem closedWrite_posted (s : State) : closedWrite true s = happen baseBeat 1 s := if_pos rfl

/-- A non-posted write that comes too late is answered by a bus error alone. -/
theorem closedWrite_nonPosted (s : State) : closedWrite false s = { s with out := .busError :: s.out } :=
  if_neg Bool.false_ne_true

theorem raised_closedWrite_posted (s : State) : raised baseBeat 1 (closedWrite true s) = true := by
  rw [closedWrite_posted]
  exact raised_happen _ _ _ (by decide) (by decide) (by decide) (by decide)

theorem evtOnly_closedWrite_posted (s : State) : evtOnly s (closedWrite true s) := by
  rw [closedWrite_posted]
  exact evtOnly_happen _ _ _ (by decide) (by decide)

theorem exec_planWriteClosedBuffer (u : PlanUnit) (buf : Nat) (posted : Bool) (s : State) :
    exec (.planWriteClosedBuffer u buf posted) s = .next (if openBuf s buf then s else closedWrite posted s) := by
  rfl

/-- The row of a closed buffer has nothing to act on while the buffer is open (log 1). -/
theorem completes_planWriteClosedBuffer_of_open (u : PlanUnit) {buf : Nat} (posted : Bool) {s : State}
    (h : openBuf s buf = true) : completes (.planWriteClosedBuffer u buf posted) s s := by
  rw [completes, exec_planWriteClosedBuffer, if_pos h]

theorem completes_planWriteClosedBuffer_of_closed (u : PlanUnit) {buf : Nat} (posted : Bool) {s : State}
    (h : openBuf s buf = false) : completes (.planWriteClosedBuffer u buf posted) s (closedWrite posted s) := by
  rw [completes, exec_planWriteClosedBuffer, if_neg (Bool.eq_false_iff.mp h)]

/-- Settles O13: a closed buffer sends the row to `closedWrite`, whose posted arm is the happening of
BEAT_PLAN_INVALID and whose other arm is the bus error. -/
theorem closedBufferWritesAreDropped : Obligations.ClosedBufferWritesAreDropped := by
  intro s u buf
  refine ⟨fun hclosed => ⟨?posted, ?nonPosted⟩, fun hopen posted => ?stillOpen⟩
  case posted =>
    exact ⟨closedWrite true s, completes_planWriteClosedBuffer_of_closed u true hclosed,
      raised_closedWrite_posted s, evtOnly_closedWrite_posted s⟩
  case nonPosted =>
    rw [← closedWrite_nonPosted]
    exact completes_planWriteClosedBuffer_of_closed u false hclosed
  case stillOpen => exact completes_planWriteClosedBuffer_of_open u posted hopen

end Sys2Proof.Machine
end

/-! ## When an entry of the placement matcher matches a search (R162) -/

section

namespace Sys2Proof.Machine

theorem mod_two_pow_eq_zero_iff_testBit {x n : Nat} :
    x % 2 ^ n = 0 ↔ ∀ b, b < n → x.testBit b = false := by
  constructor
  · intro h b hb
    have hbit : (x % 2 ^ n).testBit b = x.testBit b := by simp [hb]
    rw [← hbit, h, Nat.zero_testBit]
  · intro h
    refine Nat.zero_of_testBit_eq_false fun b => ?_
    rw [Nat.testBit_mod_two_pow]
    by_cases hb : b < n
    · simp [h b hb]
    · simp [hb]

/-- One bit of (search key XOR KEY) AND CARE. -/
theorem getLsbD_xor_and_eq_false_iff {w : Nat} (k e c : BitVec w) (b : Nat) :
    ((k ^^^ e) &&& c).getLsbD b = false ↔ (c.getLsbD b = true → k.getLsbD b = e.getLsbD b) := by
  rw [BitVec.getLsbD_and, BitVec.getLsbD_xor]
  cases c.getLsbD b <;> simp

theorem entryMatches_iff (e : SEnt) (key : BitVec 96) :
    entryMatches e key = true ↔ e.valid = true ∧ e.shadowed = false ∧
      ∀ b, b < 90 → e.care.getLsbD b = true → key.getLsbD b = e.key.getLsbD b := by
  have hbits : ((key ^^^ e.key) &&& e.care).toNat % 2 ^ 90 = 0 ↔
      ∀ b, b < 90 → e.care.getLsbD b = true → key.getLsbD b = e.key.getLsbD b := by
    rw [mod_two_pow_eq_zero_iff_testBit]
    refine forall₂_congr fun b _ => ?_
    rw [BitVec.testBit_toNat, getLsbD_xor_and_eq_false_iff]
  rw [← hbits, entryMatches]
  simp only [Bool.and_eq_true, Bool.not_eq_true', decide_eq_true_eq, and_assoc]

theorem inSortRange_iff (s : State) (t i : Nat) :
    inSortRange s t i = true ↔ getF s (F.TILE_SORT_BASE t) ≤ i ∧
      i < getF s (F.TILE_SORT_BASE t) + getF s (F.TILE_SORT_COUNT t) := by
  rw [inSortRange, Bool.and_eq_true, decide_eq_true_eq, decide_eq_true_eq]

theorem mem_hitsFor_iff {s : State} {t i : Nat} {key : BitVec 96} {e : SEnt} :
    (i, e) ∈ hitsFor s t key ↔
      (i, e) ∈ s.sort.arr ∧ inSortRange s t i = true ∧ entryMatches e key = true := by
  rw [hitsFor, List.mem_filter, Bool.and_eq_true]

/-- Settles O36: an entry of the array is a hit when it passes the range test and the match test, and the match test
reads bit by bit as agreement under CARE below bit 90. -/
theorem entriesMatchByTheirCareBits : Obligations.EntriesMatchByTheirCareBits := by
  intro s t i key e hmem
  rw [mem_hitsFor_iff, inSortRange_iff, entryMatches_iff]
  constructor
  · rintro ⟨-, ⟨hbase, hend⟩, hvalid, hshadowed, hcare⟩
    exact ⟨hvalid, hshadowed, hbase, hend, hcare⟩
  · rintro ⟨hvalid, hshadowed, hbase, hend, hcare⟩
    exact ⟨hmem, ⟨hbase, hend⟩, hvalid, hshadowed, hcare⟩

end Sys2Proof.Machine
end

/-! ## The events of the fabric (R412) -/

section

namespace Sys2Proof.Machine

/-- A page's enables as they act are a matter of its EVT_EN alone. -/
theorem enWord_congr {s t : State} {base : Nat} (h : rd t (Reg.EVT_EN base) = rd s (Reg.EVT_EN base)) :
    enWord t base = enWord s base := by
  simp only [enWord, getR, h]

theorem enWord_eq_getR (s : State) {base : Nat} (h : base ≠ baseRec) : enWord s base = getR s (Reg.EVT_EN base) :=
  if_neg h

/-- The severity of a source below the firmware's range is its own, whatever the state. -/
theorem sevOf_eq_severityOf (s : State) {src : Nat} (h : src < 248) : sevOf s src = severityOf src :=
  if_neg (Nat.not_le.mpr h)

theorem getF_request_count (src typ : Nat) (fo co : Bool) (l : List Byte) (s : State) (n : Nat) :
    getF (request src typ fo co l s) (F.EVT_COUNT_COUNT n) = getF s (F.EVT_COUNT_COUNT n) :=
  getF_of_rd (rd_request _ _ _ _ _ _ _ (by simp only [Reg.EVT_COUNT, Reg.EVT_INTAKE]; omega))

theorem getF_onAssert (src : Nat) (s : State) (f : Fld) : getF (onAssert src s) f = getF s f :=
  getF_of_rd (rd_onAssert _ _ _)

/-- An occurrence is counted once, and neither its record nor its assertion moves the count (R448). -/
theorem getF_occur_count (src typ : Nat) (fo was : Bool) (l : List Byte) (s : State) :
    getF (occur src typ fo was l s) (F.EVT_COUNT_COUNT src) =
      min (2 ^ 32 - 1) (getF s (F.EVT_COUNT_COUNT src) + 1) := by
  have hadd := getF_addF_same (F.EVT_COUNT_COUNT src) 1 s (by decide : 0 + 32 ≤ 32)
  unfold occur
  dsimp only
  split <;> [skip; rw [getF_onAssert]] <;> split <;> simp only [getF_request_count, hadd]

/-- A happening whose enable is set is counted once for its source (R448, R496). -/
theorem getF_happen_count (base i : Nat) (s : State) (hb : base % 0x1000 = 0) (hn : base ≠ 0x5000)
    (hsrc : srcOf base i < 256) (hen : bitsOf (enWord s base) i 1 = 1) :
    getF (happen base i s) (F.EVT_COUNT_COUNT (srcOf base i)) =
      min (2 ^ 32 - 1) (getF s (F.EVT_COUNT_COUNT (srcOf base i)) + 1) := by
  have hraw : (F.EVT_COUNT_COUNT (srcOf base i)).addr ≠ (bitF (Reg.EVT_RAW base) i).addr := by
    simp only [bitF, Reg.EVT_RAW, Reg.EVT_COUNT]; omega
  have hpend : (F.EVT_COUNT_COUNT (srcOf base i)).addr ≠ (bitF (Reg.EVT_PEND base) i).addr := by
    simp only [bitF, Reg.EVT_PEND, Reg.EVT_COUNT]; omega
  have hkeep : enWord (setF (bitF (Reg.EVT_RAW base) i) 1 s) base = enWord s base :=
    enWord_congr (rd_setF_ne _ _ _ (by simp only [bitF, Reg.EVT_RAW, Reg.EVT_EN]; omega))
  unfold happen happenAs
  dsimp only
  rw [hkeep, if_pos hen, getF_occur_count, getF_setF_ne _ _ _ _ hpend, getF_setF_ne _ _ _ _ hraw]

theorem srcOf_baseFab (i : Nat) : srcOf baseFab i = 232 + i := rfl

theorem raised_happen_baseFab (s : State) {i : Nat} (hi : i < 2) : raised baseFab i (happen baseFab i s) = true :=
  raised_happen _ _ _ (by rw [srcOf_baseFab]; omega) (by decide) (by decide) (by omega)

/-- A happening of the fabric after writes to its own registers is counted as the enables and the count stood before
those writes. -/
theorem getF_happen_baseFab_count {s t : State} {i : Nat} (hi : i < 2)
    (hkept : regsKept (fun a => 0xF100 ≤ a) s t) (hen : bitsOf (getR s (Reg.EVT_EN baseFab)) i 1 = 1) :
    getF (happen baseFab i t) (F.EVT_COUNT_COUNT (232 + i)) =
      min (2 ^ 32 - 1) (getF s (F.EVT_COUNT_COUNT (232 + i)) + 1) := by
  have hword : enWord t baseFab = getR s (Reg.EVT_EN baseFab) := by
    rw [enWord_congr (hkept _ (by decide)), enWord_eq_getR s (by decide)]
  have hcount : getF t (F.EVT_COUNT_COUNT (232 + i)) = getF s (F.EVT_COUNT_COUNT (232 + i)) :=
    getF_of_rd (hkept _ (by simp only [Reg.EVT_COUNT]; omega))
  rw [← hcount, ← srcOf_baseFab]
  exact getF_happen_count _ _ _ (by decide) (by decide) (by rw [srcOf_baseFab]; omega) (by rw [hword, hen])

/-- What a fatal failure leaves in the fabric's own registers: the transfer's ends and kind, and its count. -/
def fabFatalNoted (sender receiver : Nat) (response : Bool) (s : State) : State :=
  addF F.FAB_FATALS_COUNT 1 (setF F.FAB_LAST_FATAL_RESPONSE (if response then 1 else 0)
    (setF F.FAB_LAST_FATAL_RECEIVER receiver (setF F.FAB_LAST_FATAL_SENDER sender s)))

theorem regsKept_fabFatalNoted (sender receiver : Nat) (response : Bool) (s : State) :
    regsKept (fun a => 0xF100 ≤ a) s (fabFatalNoted sender receiver response s) := by
  intro a ha
  have hlast : a ≠ Reg.FAB_LAST_FATAL := by simp only [Reg.FAB_LAST_FATAL]; omega
  have hfatals : a ≠ Reg.FAB_FATALS := by simp only [Reg.FAB_FATALS]; omega
  rw [fabFatalNoted, rd_addF_ne _ _ _ hfatals, rd_setF_ne _ _ _ hlast, rd_setF_ne _ _ _ hlast,
    rd_setF_ne _ _ _ hlast]

theorem regsKept_addF_fabReplays (s : State) : regsKept (fun a => 0xF100 ≤ a) s (addF F.FAB_REPLAYS_COUNT 1 s) :=
  fun _ ha => rd_addF_ne _ _ _ fun h => ha (h ▸ by decide)

theorem fabError_of_lt (sender receiver : Nat) (response posted : Bool) {n : Nat} (a : Nat) (s : State) (hn : n < 4) :
    fabError sender receiver response posted n a s = happen baseFab 0 (addF F.FAB_REPLAYS_COUNT 1 s) :=
  if_pos hn

theorem fabError_of_ge (sender receiver : Nat) (response posted : Bool) {n : Nat} (a : Nat) (s : State) (hn : 4 ≤ n) :
    fabError sender receiver response posted n a s =
      if posted && !response then
        noteErr (portBase sender) 0xF4 receiver a (happen baseFab 1 (fabFatalNoted sender receiver response s))
      else emit .busError (happen baseFab 1 (fabFatalNoted sender receiver response s)) :=
  if_neg (Nat.not_lt.mpr hn)

theorem ite_mod_page {c : Prop} [Decidable c] {a b : Nat} (ha : a % 0x1000 = 0) (hb : b % 0x1000 = 0) :
    (if c then a else b) % 0x1000 = 0 := by
  split <;> assumption

/-- Every fabric port reports on a whole page. -/
theorem portBase_mod_page (p : Nat) : portBase p % 0x1000 = 0 := by
  unfold portBase
  with_reducible repeat' apply ite_mod_page
  all_goals simp [baseSec, baseTop, baseHost, baseHod, baseMac, baseCourse, baseLdpc, baseSort, baseTrowel,
    baseMapmem, baseYard, baseMemchk, baseFch, baseFab]

/-- How a fatal failure is reported to its requester moves no register but the ERR_INFO and ERR_ADDR of a page. -/
theorem rd_fabError_of_ge (sender receiver : Nat) (response posted : Bool) {n : Nat} (a : Nat) (s : State) (hn : 4 ≤ n)
    {r : Nat} (hr : r % 0x1000 < 0x20 ∨ 0x2C ≤ r % 0x1000) :
    rd (fabError sender receiver response posted n a s) r =
      rd (happen baseFab 1 (fabFatalNoted sender receiver response s)) r := by
  have hpage := portBase_mod_page sender
  rw [fabError_of_ge _ _ _ _ _ _ hn]
  split
  · refine rd_noteErr _ _ _ _ _ _ ?_ ?_ ?_ <;> simp only [Reg.ERR_INFO, Reg.ERR_ADDR_LO, Reg.ERR_ADDR_HI] <;> omega
  · exact rd_emit _ _ _

theorem exec_fabParityError (sender receiver : Nat) (response posted : Bool) (n a : Nat) (s : State) :
    exec (.fabParityError sender receiver response posted n a) s =
      .next (fabError sender receiver response posted n a s) := by
  rfl

/-- Settles O56: a failure before the fourth is the happening of bit 0 and a later one that of bit 1, each counted where
its enable is set. The report of a fatal failure moves neither EVT_RAW nor the count. -/
theorem fabEventsHaveTheirSources : Obligations.FabEventsHaveTheirSources := by
  refine ⟨srcOf_baseFab 0, fun s => sevOf_eq_severityOf s (by decide), by decide,
    srcOf_baseFab 1, fun s => sevOf_eq_severityOf s (by decide), by decide, by decide,
    fun s sender receiver a response posted => ⟨fun n hn => ?replay, fun n hn => ?fatal⟩⟩
  case replay =>
    refine ⟨_, exec_fabParityError .., ?_⟩
    rw [fabError_of_lt _ _ _ _ _ _ hn]
    exact ⟨raised_happen_baseFab _ (by decide),
      getF_happen_baseFab_count (i := 0) (by decide) (regsKept_addF_fabReplays s)⟩
  case fatal =>
    refine ⟨_, exec_fabParityError .., ?_, fun hen => ?_⟩
    · rw [raised, getF_of_rd (rd_fabError_of_ge _ _ _ _ _ _ hn (by decide))]
      exact raised_happen_baseFab _ (by decide)
    · rw [getF_of_rd (rd_fabError_of_ge _ _ _ _ _ _ hn (by decide))]
      exact getF_happen_baseFab_count (i := 1) (by decide) (regsKept_fabFatalNoted _ _ _ s) hen

end Sys2Proof.Machine
end

/-! ## WARN and its hysteresis (R434) -/

section

namespace Sys2Proof.Machine

/-! ### What a sample leaves of the fields that WARN is decided from -/

/-- What WARN at a sample is read from and shown in: WARN, its two thresholds, the enable, the raw bit and the count of
KILN_WARN, and the fault bits of the sensors, which choose the readings that Tmax is over. -/
def warnBasis : List Fld :=
  [F.KILN_STATUS_WARN, F.KILN_THRESH_WARN, F.KILN_HYST_WARN_H, bitF (Reg.EVT_EN baseKiln) 0,
    bitF (Reg.EVT_RAW baseKiln) 0, F.EVT_COUNT_COUNT 32] ++ (List.range 24).map (bitF Reg.KILN_SENSOR_FAULT)

/-- The registers of `warnBasis`. -/
def warnRegs : List Nat :=
  [Reg.KILN_STATUS, Reg.KILN_THRESH, Reg.KILN_HYST, Reg.EVT_EN baseKiln, Reg.EVT_RAW baseKiln, Reg.EVT_COUNT 32,
    Reg.KILN_SENSOR_FAULT]

/-- A write to the field leaves every field of `warnBasis`: it lies in another register, or beside them in its own. -/
def warnApart (f : Fld) : Bool :=
  warnBasis.all fun g => decide (g.addr ≠ f.addr ∨ f.lo + f.w ≤ 32 ∧ (g.lo + g.w ≤ f.lo ∨ f.lo + f.w ≤ g.lo))

/-- Two states agree on `warnBasis`. -/
structure WarnKept (s t : State) : Prop where
  getF_eq : ∀ g ∈ warnBasis, getF t g = getF s g

theorem addr_mem_warnRegs : ∀ g ∈ warnBasis, g.addr ∈ warnRegs := by decide

theorem warnRegs_range : ∀ a ∈ warnRegs, 0x2010 ≤ a ∧ a ≤ 0x212C ∨ a = 0x5080 := by decide

theorem warnApart_of_addr {f : Fld} (h : f.addr < 0x2010 ∨ 0x212C < f.addr ∧ f.addr < 0x5080) : warnApart f = true := by
  refine List.all_eq_true.mpr fun g hg => decide_eq_true (.inl fun e => ?_)
  have hrange := warnRegs_range _ (addr_mem_warnRegs g hg)
  omega

namespace WarnKept

variable {s t u : State}

theorem refl (s : State) : WarnKept s s := ⟨fun _ _ => rfl⟩

theorem trans (h : WarnKept s t) (k : WarnKept t u) : WarnKept s u :=
  ⟨fun g hg => (k.getF_eq g hg).trans (h.getF_eq g hg)⟩

theorem of_rd (h : ∀ a ∈ warnRegs, rd t a = rd s a) : WarnKept s t :=
  ⟨fun g hg => getF_of_rd (h _ (addr_mem_warnRegs g hg))⟩

theorem of_regs (h : t.regs = s.regs) : WarnKept s t := of_rd fun a _ => rd_congr h a

theorem congr (h : WarnKept s t) (hregs : u.regs = t.regs) : WarnKept s u := h.trans (of_regs hregs)

theorem ite {c : Prop} [Decidable c] (ht : WarnKept s t) (hu : WarnKept s u) : WarnKept s (if c then t else u) := by
  split <;> assumption

theorem foldl {α : Type} {g : State → α → State} {l : List α} (h : ∀ t, ∀ x ∈ l, WarnKept t (g t x)) (s : State) :
    WarnKept s (l.foldl g s) :=
  List.foldlRecOn (motive := WarnKept s) l g (refl s) fun t (ht : WarnKept s t) x hx => ht.trans (h t x hx)

theorem isSet_warn (h : WarnKept s t) : isSet t F.KILN_STATUS_WARN = isSet s F.KILN_STATUS_WARN := by
  rw [isSet, isSet, h.getF_eq _ (by decide)]

theorem warnAt (h : WarnKept s t) : getF t F.KILN_THRESH_WARN = getF s F.KILN_THRESH_WARN := h.getF_eq _ (by decide)

theorem warnHyst (h : WarnKept s t) : getNZ t F.KILN_HYST_WARN_H = getNZ s F.KILN_HYST_WARN_H := by
  rw [getNZ, getNZ, h.getF_eq _ (by decide)]

theorem enabled (h : WarnKept s t) :
    bitsOf (getR t (Reg.EVT_EN baseKiln)) 0 1 = bitsOf (getR s (Reg.EVT_EN baseKiln)) 0 1 :=
  h.getF_eq (bitF (Reg.EVT_EN baseKiln) 0) (by decide)

theorem raised_warn (h : WarnKept s t) : raised baseKiln 0 t = raised baseKiln 0 s := by
  rw [raised, raised, h.getF_eq _ (by decide)]

theorem count (h : WarnKept s t) : getF t (F.EVT_COUNT_COUNT 32) = getF s (F.EVT_COUNT_COUNT 32) := h.getF_eq _ (by decide)

theorem sensor (h : WarnKept s t) {i : Nat} (hi : i < 24) : faulted t i = faulted s i := by
  have hmem : bitF Reg.KILN_SENSOR_FAULT i ∈ warnBasis :=
    List.mem_append_right _ (List.mem_map_of_mem (List.mem_range.mpr hi))
  rw [faulted, faulted, isSet, isSet, h.getF_eq _ hmem]

end WarnKept

/-! ### Shared operations -/

section

variable {s t : State}

theorem warnKept_setF {f : Fld} {v : Nat} (h : WarnKept s t) (hf : warnApart f = true) : WarnKept s (setF f v t) := by
  refine h.trans ⟨fun g hg => ?_⟩
  obtain ha | ⟨hok, hb⟩ := of_decide_eq_true (List.all_eq_true.mp hf g hg)
  · exact getF_setF_ne g f v t ha
  · exact getF_setF_apart g f v t hok hb

theorem warnKept_addF {f : Fld} {n : Nat} (h : WarnKept s t) (hf : warnApart f = true) : WarnKept s (addF f n t) :=
  warnKept_setF h hf

theorem warnKept_occur {src typ : Nat} {fo was : Bool} {l : List Byte} (h : WarnKept s t) (hsrc : src ≠ 32) :
    WarnKept s (occur src typ fo was l t) := by
  refine h.trans (.of_rd fun a ha => ?_)
  have hrange := warnRegs_range a ha
  refine rd_occur _ _ _ _ _ _ _ ?_ ?_
  · simp only [Reg.EVT_COUNT]; omega
  · simp only [Reg.EVT_INTAKE]; omega

/-- A happening of another event leaves what WARN is decided from and KILN_WARN. -/
theorem warnKept_happen {base i : Nat} (h : WarnKept s t) (hraw : warnApart (bitF (Reg.EVT_RAW base) i) = true)
    (hpend : warnApart (bitF (Reg.EVT_PEND base) i) = true) (hsrc : srcOf base i ≠ 32) :
    WarnKept s (happen base i t) := by
  unfold happen happenAs
  dsimp only
  split
  · exact warnKept_occur (warnKept_setF (warnKept_setF h hraw) hpend) hsrc
  · exact warnKept_setF h hraw

theorem aen_regs (fn typ info lid : Nat) (s : State) : (aen fn typ info lid s).regs = s.regs := by
  unfold aen
  dsimp only
  split
  · rfl
  · split <;> rfl

theorem driveAen_regs (s : State) : (driveAen s).regs = s.regs := by
  unfold driveAen
  refine List.foldlRecOn (motive := fun t : State => t.regs = s.regs) _ _ rfl fun t ht k _ => ?_
  split
  · split
    · exact (aen_regs ..).trans ht
    · exact ht
  · exact ht

theorem warnKept_driveAen (h : WarnKept s t) : WarnKept s (driveAen t) := h.congr (driveAen_regs t)

theorem warnKept_groutCause (bit : Nat) (h : WarnKept s t) : WarnKept s (groutCause bit t) := by
  have hs : WarnKept s (if grouting t then t else happen basePwr 10 t) :=
    .ite h (warnKept_happen h (by decide) (by decide) (by decide))
  unfold groutCause
  exact .ite h (hs.congr rfl)

theorem warnKept_enterOff (h : WarnKept s t) : WarnKept s (enterOff t) := by
  unfold enterOff
  extract_lets s1 s2
  have h2 : WarnKept s s2 := by
    iterate 9 refine warnKept_setF ?_ (by decide)
    exact h
  exact h2.congr rfl

theorem outF_addr_lt (i : Nat) : (outF i).addr < 0x1000 := by
  unfold outF
  split <;> simp only [Reg.TOP_LEDGER_OUT_LO, Reg.TOP_LEDGER_OUT_HI] <;> omega

theorem warnApart_outF (i : Nat) : warnApart (outF i) = true :=
  warnApart_of_addr (.inl ((outF_addr_lt i).trans (by decide)))

theorem endStart_regs (ms : Nat) (s : State) : (endStart ms s).regs = s.regs := by
  unfold endStart
  split <;> rfl

theorem warnKept_cutStart (h : WarnKept s t) : WarnKept s (cutStart t) := by
  unfold cutStart
  split
  · exact h
  · exact warnKept_enterOff ((warnKept_setF h (warnApart_outF _)).congr (endStart_regs ..))

/-! ### The parts of a sample -/

theorem warnKept_countLevel (us : Nat) (h : WarnKept s t) : WarnKept s (countLevel us t) := by
  have hk : levelNow t < 4 := getF_lt t F.KILN_STATUS_LEVEL
  refine warnKept_addF (h.congr rfl) (warnApart_of_addr (.inr ?_))
  simp only [Reg.KILN_RES]
  omega

theorem warnKept_countPower (us : Nat) (h : WarnKept s t) : WarnKept s (countPower us t) := by
  unfold countPower
  extract_lets k n src
  split
  · exact h
  · refine warnKept_addF (h.congr rfl) (warnApart_of_addr (.inl ?_))
    simp only [Reg.PWR_RES]
    omega

theorem readSensor_of_good (i : Nat) {r : Int} (s : State) (h : goodReading (some r) = true) :
    readSensor i (some r) s = setF (F.KILN_TEMP_TEMP i) (tempCode r) s :=
  if_pos h

theorem warnKept_readSensor_of_good {i : Nat} {r : Int} (h : WarnKept s t) (hi : i < 24)
    (hr : goodReading (some r) = true) : WarnKept s (readSensor i (some r) t) := by
  rw [readSensor_of_good i t hr]
  refine warnKept_setF h (warnApart_of_addr (.inr ?_))
  simp only [Reg.KILN_TEMP]
  omega

theorem warnKept_showEngines (h : WarnKept s t) : WarnKept s (showEngines t) := by
  unfold showEngines
  iterate 2 refine warnKept_setF ?_ (by decide)
  exact h

theorem warnKept_takeLevel (k : Nat) (h : WarnKept s t) : WarnKept s (takeLevel k t) := by
  unfold takeLevel
  refine .ite (h.congr rfl) (warnKept_driveAen ?_)
  refine warnKept_happen (warnKept_showEngines ?_) (by decide) (by decide) (by decide)
  exact warnKept_setF (warnKept_setF (h.congr rfl) (by decide)) (by decide)

theorem warnKept_moveLevel (k : Nat) (h : WarnKept s t) : WarnKept s (moveLevel k t) := by
  unfold moveLevel
  exact .ite (warnKept_takeLevel k h) (h.congr rfl)

theorem warnKept_levelStep (tmax : Int) (rise : Bool) (h : WarnKept s t) : WarnKept s (levelStep tmax rise t) := by
  unfold levelStep
  extract_lets src s1
  have h1 : WarnKept s s1 := h.congr rfl
  exact .ite h1 (.ite (warnKept_moveLevel 3 h1) (.ite (warnKept_moveLevel 1 h1) h1))

theorem warnKept_thermalTrip (i : Nat) (r : Int) (h : WarnKept s t) : WarnKept s (thermalTrip i r t) := by
  unfold thermalTrip
  extract_lets top kiln s1 s2 s3 s4 kiln'
  have h1 : WarnKept s s1 := h.congr rfl
  have h2 : WarnKept s s2 := by
    iterate 2 refine warnKept_setF ?_ (by decide)
    exact warnKept_addF h1 (by decide)
  have h3 : WarnKept s s3 := warnKept_happen h2 (by decide) (by decide) (by decide)
  have h4 : WarnKept s s4 := warnKept_enterOff (warnKept_cutStart h3)
  exact .ite (warnKept_groutCause 3 h3) (h4.congr rfl)

theorem warnKept_tripStep (live : List (Nat × Int)) (h : WarnKept s t) : WarnKept s (tripStep live t) := by
  unfold tripStep
  extract_lets hot kiln s1
  have h1 : WarnKept s s1 := h.congr rfl
  refine .ite h1 ?_
  split
  · exact warnKept_thermalTrip _ _ h1
  · exact h1

end

/-! ### Tmax -/

theorem hottest_mem {l : List (Nat × Int)} {q : Nat × Int} (h : hottest l = some q) : q ∈ l := by
  induction l generalizing q with
  | nil => cases h
  | cons p l ih =>
    unfold hottest at h
    split at h
    · next r hr =>
      split at h <;> cases h
      · exact List.mem_cons_of_mem _ (ih hr)
      · exact List.mem_cons_self
    · cases h
      exact List.mem_cons_self

theorem le_hottest {l : List (Nat × Int)} {p : Nat × Int} (h : p ∈ l) : ∃ q, hottest l = some q ∧ p.2 ≤ q.2 := by
  induction l with
  | nil => cases h
  | cons a l ih =>
    unfold hottest
    obtain rfl | hl := List.mem_cons.mp h
    · split
      · split
        · exact ⟨_, rfl, by omega⟩
        · exact ⟨_, rfl, le_rfl⟩
      · exact ⟨_, rfl, le_rfl⟩
    · obtain ⟨q, hq, hle⟩ := ih hl
      simp only [hq]
      split
      · exact ⟨_, rfl, hle⟩
      · exact ⟨_, rfl, by omega⟩

/-- The reading of a sensor that no other exceeds is Tmax. -/
theorem hottest_eq_of_max {l : List (Nat × Int)} {p : Nat × Int} (hp : p ∈ l) (hmax : ∀ q ∈ l, q.2 ≤ p.2) :
    ∃ i, hottest l = some (i, p.2) := by
  obtain ⟨⟨i, t⟩, hq, hle⟩ := le_hottest hp
  exact ⟨i, by rw [hq, le_antisymm hle (hmax _ (hottest_mem hq))]⟩

theorem mem_liveReadings_iff {s : State} {temps : List (Option Int)} {i : Nat} {t : Int} :
    (i, t) ∈ liveReadings s temps ↔ i < 24 ∧ faulted s i = false ∧ temps.getD i none = some t := by
  unfold liveReadings
  rw [List.mem_filterMap]
  constructor
  · rintro ⟨k, hk, h⟩
    split at h
    · cases h
    · next hf =>
      split at h
      · next hr =>
        cases h
        exact ⟨List.mem_range.mp hk, Bool.eq_false_iff.mpr hf, hr⟩
      · cases h
  · rintro ⟨hi, hf, hr⟩
    exact ⟨i, List.mem_range.mpr hi, by rw [hf, hr]; rfl⟩

/-! ### WARN -/

section

variable {t : Int} {s : State}

theorem warnStep_of_rise (hclear : isSet s F.KILN_STATUS_WARN = false) (h : 4 * (getF s F.KILN_THRESH_WARN : Int) ≤ t) :
    warnStep t s = happen baseKiln 0 (setF F.KILN_STATUS_WARN 1 s) := by
  simp [warnStep, hclear, h]

theorem warnStep_of_below (hclear : isSet s F.KILN_STATUS_WARN = false)
    (h : t < 4 * (getF s F.KILN_THRESH_WARN : Int)) : warnStep t s = s := by
  simp [warnStep, hclear, h]

theorem warnStep_of_held (hset : isSet s F.KILN_STATUS_WARN = true)
    (h : 4 * (getF s F.KILN_THRESH_WARN : Int) - 4 * (getNZ s F.KILN_HYST_WARN_H : Int) ≤ t) : warnStep t s = s := by
  simp only [warnStep, hset, if_true, if_neg (not_lt.mpr h)]

theorem warnStep_of_fall (hset : isSet s F.KILN_STATUS_WARN = true)
    (h : t < 4 * (getF s F.KILN_THRESH_WARN : Int) - 4 * (getNZ s F.KILN_HYST_WARN_H : Int)) :
    warnStep t s = setF F.KILN_STATUS_WARN 0 s := by
  simp only [warnStep, hset, if_true, if_pos h]

end

theorem isSet_warn_setF (v : Nat) (s : State) :
    isSet (setF F.KILN_STATUS_WARN v s) F.KILN_STATUS_WARN = decide (v % 2 ≠ 0) := by
  rw [isSet, getF_setF_same _ _ _ (by unfold Fld.ok; decide)]
  rfl

theorem isSet_warn_happen (i : Nat) (s : State) (hi : i < 8) :
    isSet (happen baseKiln i s) F.KILN_STATUS_WARN = isSet s F.KILN_STATUS_WARN := by
  have hsrc : srcOf baseKiln i = 32 + i := rfl
  have hrd : rd (happen baseKiln i s) Reg.KILN_STATUS = rd s Reg.KILN_STATUS := by
    refine rd_happen _ _ _ _ (by decide) (by decide) ?_ (by decide)
    rw [hsrc]
    simp only [Reg.KILN_STATUS, Reg.EVT_COUNT]
    omega
  rw [isSet, isSet, getF_of_rd hrd]

theorem count_happen_warn (s : State) (hen : bitsOf (getR s (Reg.EVT_EN baseKiln)) 0 1 = 1) :
    getF (happen baseKiln 0 s) (F.EVT_COUNT_COUNT 32) = min (2 ^ 32 - 1) (getF s (F.EVT_COUNT_COUNT 32) + 1) :=
  getF_happen_count baseKiln 0 s (by decide) (by decide) (by decide) (by rwa [enWord_eq_getR s (by decide)])

/-- Of all that Tmax does at a sample, `warnStep` alone acts on WARN and KILN_WARN. -/
theorem tmaxStep_through_warnStep {live : List (Nat × Int)} {i : Nat} {t : Int} (s : State)
    (h : hottest live = some (i, t)) :
    ∃ u, WarnKept s u ∧ WarnKept (warnStep t u) (tmaxStep live s) := by
  unfold tmaxStep
  split
  · next hnone => cases h.symm.trans hnone
  · next i' t' hsome =>
    cases h.symm.trans hsome
    extract_lets peak rise s1 kiln s2 s3
    have h1 : WarnKept s s1 := by
      iterate 4 refine warnKept_setF ?_ (by decide)
      exact .refl s
    refine ⟨s2, h1.congr rfl, warnKept_levelStep t rise (.ite ?_ (.refl s3))⟩
    exact warnKept_happen (.refl s3) (by decide) (by decide) (by decide)

/-- A sample of sensors that all count decides WARN by `warnStep` at the highest reading, on what the state before the
sample holds. -/
theorem kilnSampleDo_through_warnStep {s : State} {temps : List (Option Int)} {val : Nat → Int} {j : Nat}
    (hs : samples s = true) (hj : j < 24)
    (hgood : ∀ i, i < 24 → faulted s i = false ∧ temps.getD i none = some (val i) ∧ -200 ≤ val i ∧ val i ≤ 600 ∧
      val i ≤ val j) :
    ∃ u, WarnKept s u ∧ WarnKept (warnStep (val j) u) (kilnSampleDo temps s) := by
  unfold kilnSampleDo
  rw [if_pos hs]
  extract_lets us src s1 s2
  have h1 : WarnKept s s1 := warnKept_countPower us (warnKept_countLevel us (.of_regs rfl))
  have h2 : WarnKept s s2 := by
    refine h1.trans (.foldl (fun t i hi => ?_) s1)
    have hi := List.mem_range.mp hi
    obtain ⟨-, hread, hlow, hhigh, -⟩ := hgood i hi
    rw [hread]
    exact warnKept_readSensor_of_good (.refl t) hi (by simp [goodReading, hlow, hhigh])
  have hmem : (j, val j) ∈ liveReadings s2 temps :=
    mem_liveReadings_iff.mpr ⟨hj, (h2.sensor hj).trans (hgood j hj).1, (hgood j hj).2.1⟩
  have hmax : ∀ q ∈ liveReadings s2 temps, q.2 ≤ val j := by
    rintro ⟨i, t⟩ hq
    obtain ⟨hi, -, hread⟩ := mem_liveReadings_iff.mp hq
    obtain ⟨-, hval, -, -, hle⟩ := hgood i hi
    cases hread.symm.trans hval
    exact hle
  obtain ⟨i, htmax⟩ := hottest_eq_of_max hmem hmax
  obtain ⟨u, hu, hstep⟩ := tmaxStep_through_warnStep s2 htmax
  exact ⟨u, h2.trans hu, warnKept_tripStep _ hstep⟩

theorem exec_kilnSample (temps : List (Option Int)) (s : State) :
    exec (.kilnSample temps) s = .next (kilnSampleDo temps s) := by
  rfl

/-- Settles O44: everything else of a sample keeps what WARN is decided from and shown in, so the four cases are those
of `warnStep` at Tmax. -/
theorem warnSetsAndClearsOnce : Obligations.WarnSetsAndClearsOnce := by
  refine ⟨by decide, by decide, fun s temps val j hs hj hgood => ⟨_, exec_kilnSample temps s, ?_⟩⟩
  obtain ⟨u, hu, ht⟩ := kilnSampleDo_through_warnStep hs hj hgood
  rw [← hu.isSet_warn, ← hu.warnAt, ← hu.warnHyst, ← hu.enabled, ← hu.raised_warn, ← hu.count]
  refine ⟨fun hclear hhot => ?rises, fun hclear hcold => ?below, fun hset hhot => ?held, fun hset hcold => ?falls⟩
  case rises =>
    rw [warnStep_of_rise hclear hhot] at ht
    refine ⟨?_, ?_, fun hen => ?_⟩
    · rw [ht.isSet_warn, isSet_warn_happen _ _ (by decide), isSet_warn_setF]; rfl
    · rw [ht.raised_warn]
      exact raised_happen _ _ _ (by decide) (by decide) (by decide) (by decide)
    · rw [ht.count, count_happen_warn, getF_setF_ne _ _ _ _ (by decide)]
      rwa [getR_setF_ne _ _ _ (by decide)]
  case below =>
    rw [warnStep_of_below hclear hcold] at ht
    exact ⟨ht.isSet_warn.trans hclear, ht.raised_warn, ht.count⟩
  case held =>
    rw [warnStep_of_held hset hhot] at ht
    exact ⟨ht.isSet_warn.trans hset, ht.raised_warn, ht.count⟩
  case falls =>
    rw [warnStep_of_fall hset hcold] at ht
    refine ⟨?_, ?_, ?_⟩
    · rw [ht.isSet_warn, isSet_warn_setF]; rfl
    · rw [ht.raised_warn, raised, raised, getF_setF_ne _ _ _ _ (by decide)]
    · rw [ht.count, getF_setF_ne _ _ _ _ (by decide)]

end Sys2Proof.Machine
end

/-! ## What every command does (log 5) -/

section

-- One proof after another: elaborated side by side, the proofs of this text take more memory than its check allows.
set_option Elab.async false

namespace Sys2Proof.Machine

/-- An operation that leaves BEAT_COUNT is one of those that may move it. -/
theorem MovesR.weaken {cc : Bool} {s : State} {r : Host.Outcome State Fault Refusal} (h : MovesR true s r) : MovesR cc s r :=
  fun t ht =>
    have ⟨hqueue, hfree, hregs, hcount⟩ := h t ht
    ⟨hqueue, hfree, hregs, fun _ => hcount rfl⟩

/-- Every command but a beat boundary and the rows of a start keeps what `Moves` says, BEAT_COUNT included. -/
theorem exec_moves_of_not_start (s : State) : ∀ c : Instr, c ≠ .beatBoundary → startRow c = false → MovesR true s (exec c s)
  | .beatBoundary, h, _ => absurd rfl h
  | .headerBeat, _, _ => execHeaderBeat_moves s (.refl s)
  | .journalFlushPoint .., _, _ => execJournalFlushPoint_moves _ s (.refl s)
  | .epochBoundary .., _, _ => execEpochBoundary_moves _ s (.refl s)
  | .sealEpochClose, _, _ => execSealEpochClose_moves s (.refl s)
  | .sealSigned .., _, _ => execSealSigned_moves _ s (.refl s)
  | .sealLate .., _, _ => execSealLate_moves _ s (.refl s)
  | .planCommit .., _, _ => execPlanCommit_moves _ _ _ _ _ s (.refl s)
  | .planWriteClosedBuffer u buf posted, _, _ => execPlanWriteClosedBuffer_moves u buf posted s (.refl s)
  | .plannerFailed .., _, _ => execPlannerFailed_moves _ s (.refl s)
  | .fchNop .., _, _ => execFchNop_moves _ _ s (.refl s)
  | .readPage .., _, _ => execReadPage_moves _ _ s (.refl s)
  | .readSoft .., _, _ => execReadSoft_moves _ _ s (.refl s)
  | .program .., _, _ => execProgram_moves _ _ s (.refl s)
  | .erase .., _, _ => execErase_moves _ _ s (.refl s)
  | .suspend .., _, _ => execSuspend_moves _ _ s (.refl s)
  | .resume .., _, _ => execResume_moves _ _ s (.refl s)
  | .status .., _, _ => execStatus_moves _ _ _ s (.refl s)
  | .dieOpTimeout .., _, _ => execDieOpTimeout_moves _ _ s (.refl s)
  | .load .., _, _ => execLoad_moves _ _ _ s (.refl s)
  | .fetch .., _, _ => execFetch_moves _ _ _ _ s (.refl s)
  | .setTrim .., _, _ => execSetTrim_moves _ _ s (.refl s)
  | .resetLun .., _, _ => execResetLun_moves _ _ s (.refl s)
  | .courseStep .., _, _ => execCourseStep_moves _ _ s (.refl s)
  | .laneNop .., _, _ => execLaneNop_moves _ _ s (.refl s)
  | .accum .., _, _ => execAccum_moves _ _ s (.refl s)
  | .emit .., _, _ => execEmit_moves _ _ s (.refl s)
  | .arm .., _, _ => execArm_moves _ _ s (.refl s)
  | .clear .., _, _ => execClear_moves _ _ s (.refl s)
  | .waveConfirm .., _, _ => execWaveConfirm_moves _ s (.refl s)
  | .macNop .., _, _ => execMacNop_moves _ _ s (.refl s)
  | .verifyEntry .., _, _ => execVerifyEntry_moves _ _ _ s (.refl s)
  | .retag .., _, _ => execRetag_moves _ _ _ s (.refl s)
  | .raw .., _, _ => execRaw_moves _ _ s (.refl s)
  | .cplNop .., _, _ => execCplNop_moves _ _ s (.refl s)
  | .post .., _, _ => execPost_moves _ _ _ s (.refl s)
  | .postQuiet .., _, _ => execPostQuiet_moves _ _ _ s (.refl s)
  | .hodNop .., _, _ => execHodNop_moves _ s (.refl s)
  | .window .., _, _ => execWindow_moves _ s (.refl s)
  | .ldpcDecodeDone .., _, _ => execLdpcDecodeDone_moves _ _ s (.refl s)
  | .macCheckDone .., _, _ => execMacCheckDone_moves _ _ s (.refl s)
  | .readDataTransferred .., _, _ => execReadDataTransferred_moves _ _ s (.refl s)
  | .writeDataArrival .., _, _ => execWriteDataArrival_moves _ _ _ s (.refl s)
  | .writeAdmitted .., _, _ => execWriteAdmitted_moves _ s (.refl s)
  | .palletIdle .., _, _ => execPalletIdle_moves _ s (.refl s)
  | .bgWindowApply, _, _ => execBgWindowApply_moves s (.refl s)
  | .bgWindowEnd .., _, _ => execBgWindowEnd_moves _ _ _ s (.refl s)
  | .beatWinApplyWrite .., _, _ => execBeatWinApplyWrite_moves _ s (.refl s)
  | .beatSrcWrite .., _, _ => execBeatSrcWrite_moves _ s (.refl s)
  | .beatHostOffsetWrite .., _, _ => execBeatHostOffsetWrite_moves _ s (.refl s)
  | .beatOriginWrite .., _, _ => execBeatOriginWrite_moves _ _ s (.refl s)
  | .beatCountLoRead, _, _ => execBeatCountLoRead_moves s (.refl s)
  | .ptmExchange .., _, _ => execPtmExchange_moves _ _ s (.refl s)
  | .ptmExchangeFail .., _, _ => execPtmExchangeFail_moves _ s (.refl s)
  | .syncInEdge .., _, _ => execSyncInEdge_moves _ s (.refl s)
  | .syncInMissing, _, _ => execSyncInMissing_moves s (.refl s)
  | .syncOutPulse, _, _ => execSyncOutPulse_moves s (.refl s)
  | .tileProvision .., _, _ => execTileProvision_moves _ _ s (.refl s)
  | .tileStart .., _, _ => execTileStart_moves _ _ s (.refl s)
  | .tileStop .., _, _ => execTileStop_moves _ _ s (.refl s)
  | .tileRelease .., _, _ => execTileRelease_moves _ _ s (.refl s)
  | .tileSetShares .., _, _ => execTileSetShares_moves _ _ s (.refl s)
  | .tileQuiesced .., _, _ => execTileQuiesced_moves _ s (.refl s)
  | .tileScrubbed .., _, _ => execTileScrubbed_moves _ s (.refl s)
  | .sqDoorbellWrite .., _, _ => execSqDoorbellWrite_moves _ _ _ s (.refl s)
  | .cqDoorbellWrite .., _, _ => execCqDoorbellWrite_moves _ _ _ s (.refl s)
  | .commandFetch .., _, _ => execCommandFetch_moves _ s (.refl s)
  | .matcherSearch .., _, _ => execMatcherSearch_moves _ s (.refl s)
  | .unsupportedOpcode .., _, _ => execUnsupportedOpcode_moves _ _ s (.refl s)
  | .createIoSq .., _, _ => execCreateIoSq_moves _ _ _ _ _ s (.refl s)
  | .deleteIoSq .., _, _ => execDeleteIoSq_moves _ _ s (.refl s)
  | .createIoCq .., _, _ => execCreateIoCq_moves _ _ _ _ s (.refl s)
  | .deleteIoCq .., _, _ => execDeleteIoCq_moves _ _ s (.refl s)
  | .getLogPage .., _, _ => execGetLogPage_moves _ _ _ _ _ s (.refl s)
  | .getLogPageC0 .., _, _ => execGetLogPageC0_moves _ _ _ s (.refl s)
  | .getLogPageC1 .., _, _ => execGetLogPageC1_moves _ _ _ s (.refl s)
  | .getLogPageC2 .., _, _ => execGetLogPageC2_moves _ _ s (.refl s)
  | .getLogPageC3 .., _, _ => execGetLogPageC3_moves _ _ _ _ s (.refl s)
  | .getLogPageC4 .., _, _ => execGetLogPageC4_moves _ _ _ _ s (.refl s)
  | .getLogPageC5 .., _, _ => execGetLogPageC5_moves _ s (.refl s)
  | .identify .., _, _ => execIdentify_moves _ _ s (.refl s)
  | .abort .., _, _ => execAbort_moves _ _ _ s (.refl s)
  | .setFeatures .., _, _ => execSetFeatures_moves _ _ _ s (.refl s)
  | .setFeaturesPowerManagement .., _, _ => execSetFeaturesPowerManagement_moves _ _ s (.refl s)
  | .setFeaturesArbitration .., _, _ => execSetFeaturesArbitration_moves _ _ _ _ _ s (.refl s)
  | .setFeaturesVwc .., _, _ => execSetFeaturesVwc_moves _ _ s (.refl s)
  | .setFeaturesFdp .., _, _ => execSetFeaturesFdp_moves _ _ s (.refl s)
  | .setFeaturesFdpEvents .., _, _ => execSetFeaturesFdpEvents_moves _ _ _ s (.refl s)
  | .setFeaturesTimestamp .., _, _ => execSetFeaturesTimestamp_moves _ _ s (.refl s)
  | .getFeatures .., _, _ => execGetFeatures_moves _ _ s (.refl s)
  | .asyncEventRequest .., _, _ => execAsyncEventRequest_moves _ s (.refl s)
  | .namespaceCreate .., _, _ => execNamespaceCreate_moves _ _ _ _ _ s (.refl s)
  | .namespaceDelete .., _, _ => execNamespaceDelete_moves _ s (.refl s)
  | .namespaceAttachment .., _, _ => execNamespaceAttachment_moves _ _ s (.refl s)
  | .formatNvm .., _, _ => execFormatNvm_moves _ _ _ s (.refl s)
  | .deviceSelfTest .., _, _ => execDeviceSelfTest_moves _ _ s (.refl s)
  | .securitySend .., _, _ => execSecuritySend_moves _ s (.refl s)
  | .securityReceive .., _, _ => execSecurityReceive_moves _ s (.refl s)
  | .directiveSend .., _, _ => execDirectiveSend_moves _ s (.refl s)
  | .directiveReceive .., _, _ => execDirectiveReceive_moves _ s (.refl s)
  | .firmwareImageDownload .., _, _ => execFirmwareImageDownload_moves _ _ _ _ s (.refl s)
  | .fwCommitStore .., _, _ => execFwCommitStore_moves _ _ _ s (.refl s)
  | .fwCommitStoreActivateReset .., _, _ => execFwCommitStoreActivateReset_moves _ _ _ s (.refl s)
  | .fwCommitActivateReset .., _, _ => execFwCommitActivateReset_moves _ _ _ s (.refl s)
  | .fwCommitActivateNow .., _, _ => execFwCommitActivateNow_moves _ _ _ s (.refl s)
  | .fwImageStored, _, _ => execFwImageStored_moves s (.refl s)
  | .sanitize .., _, _ => execSanitize_moves _ _ s (.refl s)
  | .sanitizeDone .., _, _ => execSanitizeDone_moves _ s (.refl s)
  | .modeRequest .., _, _ => execModeRequest_moves _ _ s (.refl s)
  | .managementRead .., _, _ => execManagementRead_moves _ _ _ s (.refl s)
  | .managementWrite .., _, _ => execManagementWrite_moves _ _ _ s (.refl s)
  | .recorderFreeze .., _, _ => execRecorderFreeze_moves _ _ s (.refl s)
  | .recorderThaw req path, _, _ => execRecorderThaw_moves req path s (.refl s)
  | .write .., _, _ => execWrite_moves _ _ _ _ s (.refl s)
  | .read .., _, _ => execRead_moves _ _ _ _ _ s (.refl s)
  | .flush .., _, _ => execFlush_moves _ _ s (.refl s)
  | .writeZeroes .., _, _ => execWriteZeroes_moves _ _ _ _ s (.refl s)
  | .datasetManagement .., _, _ => execDatasetManagement_moves _ _ _ s (.refl s)
  | .verify .., _, _ => execVerify_moves _ _ _ s (.refl s)
  | .ioManagementSend .., _, _ => execIoManagementSend_moves _ _ s (.refl s)
  | .ioManagementReceive .., _, _ => execIoManagementReceive_moves _ s (.refl s)
  | .zoneAppend .., _, _ => execZoneAppend_moves _ _ _ _ s (.refl s)
  | .zoneManagementReceive .., _, _ => execZoneManagementReceive_moves _ _ _ _ s (.refl s)
  | .openZone .., _, _ => execOpenZone_moves _ _ _ s (.refl s)
  | .closeZone .., _, _ => execCloseZone_moves _ _ _ s (.refl s)
  | .finishZone .., _, _ => execFinishZone_moves _ _ _ s (.refl s)
  | .resetZone .., _, _ => execResetZone_moves _ _ _ s (.refl s)
  | .offlineZone .., _, _ => execOfflineZone_moves _ _ _ s (.refl s)
  | .setZoneDescriptorExtension .., _, _ => execSetZoneDescriptorExtension_moves _ s (.refl s)
  | .zoneSealed .., _, _ => execZoneSealed_moves _ _ s (.refl s)
  | .zoneFinishRecommended .., _, _ => execZoneFinishRecommended_moves _ _ s (.refl s)
  | .zoneAudit .., _, _ => execZoneAudit_moves _ _ _ s (.refl s)
  | .readTags .., _, _ => execReadTags_moves _ _ _ s (.refl s)
  | .controllerReset .., _, _ => execControllerReset_moves _ s (.refl s)
  | .shutdownNotification .., _, _ => execShutdownNotification_moves _ s (.refl s)
  | .shutdownComplete .., _, _ => execShutdownComplete_moves _ s (.refl s)
  | .functionLevelReset .., _, _ => execFunctionLevelReset_moves _ s (.refl s)
  | .portReset .., _, _ => execPortReset_moves _ s (.refl s)
  | .hostLinkUp .., _, _ => execHostLinkUp_moves _ _ _ _ s (.refl s)
  | .hostLinkDown .., _, _ => execHostLinkDown_moves _ s (.refl s)
  | .hostLinkRetrain .., _, _ => execHostLinkRetrain_moves _ s (.refl s)
  | .hostCplTimeout .., _, _ => execHostCplTimeout_moves _ s (.refl s)
  | .linkWidthChange .., _, _ => execLinkWidthChange_moves _ _ s (.refl s)
  | .sortEntryStage .., _, _ => execSortEntryStage_moves _ _ _ s (.refl s)
  | .sortEntryCommit .., _, _ => execSortEntryCommit_moves _ _ s (.refl s)
  | .sortInsert .., _, _ => execSortInsert_moves _ _ s (.refl s)
  | .sortDelete .., _, _ => execSortDelete_moves _ _ s (.refl s)
  | .sortInvalidate .., _, _ => execSortInvalidate_moves _ _ s (.refl s)
  | .sortSave, _, _ => execSortSave_moves s (.refl s)
  | .sortSaveDone .., _, _ => execSortSaveDone_moves _ s (.refl s)
  | .sortUpdateStep, _, _ => execSortUpdateStep_moves s (.refl s)
  | .sortCfgWrite .., _, _ => execSortCfgWrite_moves _ s (.refl s)
  | .shadowRewrite .., _, _ => execShadowRewrite_moves _ _ s (.refl s)
  | .sortAutosave .., _, _ => execSortAutosave_moves _ s (.refl s)
  | .yardCfgWrite .., _, _ => execYardCfgWrite_moves _ s (.refl s)
  | .trowelBudgetWrite .., _, _ => execTrowelBudgetWrite_moves _ s (.refl s)
  | .fchRetrain .., _, _ => execFchRetrain_moves _ _ s (.refl s)
  | .holdupOkDeasserted, _, _ => execHoldupOkDeasserted_moves s (.refl s)
  | .holdupOkAsserted, _, _ => execHoldupOkAsserted_moves s (.refl s)
  | .powerFailRecognised, _, _ => execPowerFailRecognised_moves s (.refl s)
  | .pgCoreFall, _, _ => execPgCoreFall_moves s (.refl s)
  | .groutSealed .., _, _ => execGroutSealed_moves _ s (.refl s)
  | .groutRestart .., _, h => Bool.noConfusion h
  | .fatalEvent .., _, _ => execFatalEvent_moves _ s (.refl s)
  | .macKat .., _, _ => execMacKat_moves _ _ s (.refl s)
  | .maskReseed .., _, _ => execMaskReseed_moves _ s (.refl s)
  | .drbgReseed, _, _ => execDrbgReseed_moves s (.refl s)
  | .entropyHealthTest .., _, _ => execEntropyHealthTest_moves _ s (.refl s)
  | .drbgExhausted, _, _ => execDrbgExhausted_moves s (.refl s)
  | .wseqLimitReached, _, _ => execWseqLimitReached_moves s (.refl s)
  | .keyGenerate .., _, _ => execKeyGenerate_moves _ _ s (.refl s)
  | .keyLoad .., _, _ => execKeyLoad_moves _ _ _ _ s (.refl s)
  | .keySetCurrent .., _, _ => execKeySetCurrent_moves _ _ s (.refl s)
  | .keyCurrentSwitch .., _, _ => execKeyCurrentSwitch_moves _ s (.refl s)
  | .keyErase .., _, _ => execKeyErase_moves _ _ s (.refl s)
  | .keyEraseEffect .., _, _ => execKeyEraseEffect_moves _ s (.refl s)
  | .keyOldCopyRetired .., _, _ => execKeyOldCopyRetired_moves _ s (.refl s)
  | .keyStatus .., _, _ => execKeyStatus_moves _ s (.refl s)
  | .slhSignatureGet .., _, _ => execSlhSignatureGet_moves _ s (.refl s)
  | .slhChainGet .., _, _ => execSlhChainGet_moves _ s (.refl s)
  | .spdmGetVersion .., _, _ => execSpdmGetVersion_moves _ s (.refl s)
  | .spdmGetCapabilities .., _, _ => execSpdmGetCapabilities_moves _ s (.refl s)
  | .spdmNegotiateAlgorithms .., _, _ => execSpdmNegotiateAlgorithms_moves _ s (.refl s)
  | .spdmGetDigests .., _, _ => execSpdmGetDigests_moves _ s (.refl s)
  | .spdmGetCertificate .., _, _ => execSpdmGetCertificate_moves _ _ _ _ s (.refl s)
  | .spdmChallenge .., _, _ => execSpdmChallenge_moves _ _ _ s (.refl s)
  | .spdmGetMeasurements .., _, _ => execSpdmGetMeasurements_moves _ _ _ _ s (.refl s)
  | .spdmKeyExchange .., _, _ => execSpdmKeyExchange_moves _ _ _ s (.refl s)
  | .spdmFinish .., _, _ => execSpdmFinish_moves _ _ _ _ s (.refl s)
  | .spdmKeyUpdate .., _, _ => execSpdmKeyUpdate_moves _ s (.refl s)
  | .spdmEndSession .., _, _ => execSpdmEndSession_moves _ s (.refl s)
  | .spdmSessionLimit .., _, _ => execSpdmSessionLimit_moves _ s (.refl s)
  | .mbxKeyErase .., _, _ => execMbxKeyErase_moves _ s (.refl s)
  | .mbxSessionEnd .., _, _ => execMbxSessionEnd_moves _ s (.refl s)
  | .mbxChallenge .., _, _ => execMbxChallenge_moves _ s (.refl s)
  | .mbxDebugUnlock .., _, _ => execMbxDebugUnlock_moves _ _ s (.refl s)
  | .mbxSvnCommit .., _, _ => execMbxSvnCommit_moves _ _ s (.refl s)
  | .mbxRootRevoke .., _, _ => execMbxRootRevoke_moves _ _ s (.refl s)
  | .activationStandbyLoaded, _, _ => execActivationStandbyLoaded_moves s (.refl s)
  | .activationPauseStart, _, _ => execActivationPauseStart_moves s (.refl s)
  | .activationBankSwitch, _, _ => execActivationBankSwitch_moves s (.refl s)
  | .activationPauseEnd, _, _ => execActivationPauseEnd_moves s (.refl s)
  | .activationDone, _, _ => execActivationDone_moves s (.refl s)
  | .activationRevert, _, _ => execActivationRevert_moves s (.refl s)
  | .activationFailed, _, _ => execActivationFailed_moves s (.refl s)
  | .rirusIdentify .., _, _ => execRirusIdentify_moves _ s (.refl s)
  | .rirusMgmtRead .., _, _ => execRirusMgmtRead_moves _ _ _ s (.refl s)
  | .rirusMgmtWrite .., _, _ => execRirusMgmtWrite_moves _ _ _ _ s (.refl s)
  | .rirusTileOp .., _, _ => execRirusTileOp_moves _ _ _ _ _ s (.refl s)
  | .rirusModeRequest .., _, _ => execRirusModeRequest_moves _ _ _ s (.refl s)
  | .rirusLogRead .., _, _ => execRirusLogRead_moves _ _ _ _ s (.refl s)
  | .rirusRecorderControl .., _, _ => execRirusRecorderControl_moves _ _ _ _ s (.refl s)
  | .rirusFwDownload .., _, _ => execRirusFwDownload_moves _ _ _ _ _ s (.refl s)
  | .rirusFwCommit .., _, _ => execRirusFwCommit_moves _ _ _ _ _ s (.refl s)
  | .rirusHealth .., _, _ => execRirusHealth_moves _ s (.refl s)
  | .mctpSetEndpointId .., _, _ => execMctpSetEndpointId_moves _ s (.refl s)
  | .mctpGetEndpointId, _, _ => execMctpGetEndpointId_moves s (.refl s)
  | .mctpGetVersionSupport, _, _ => execMctpGetVersionSupport_moves s (.refl s)
  | .mctpGetMessageTypeSupport, _, _ => execMctpGetMessageTypeSupport_moves s (.refl s)
  | .mctpGetVendorMsgSupport, _, _ => execMctpGetVendorMsgSupport_moves s (.refl s)
  | .hodStart .., _, _ => execHodStart_moves _ s (.refl s)
  | .hodKick .., _, _ => execHodKick_moves _ s (.refl s)
  | .hodAbort .., _, _ => execHodAbort_moves _ s (.refl s)
  | .hodDescFetched .., _, _ => execHodDescFetched_moves _ _ s (.refl s)
  | .hodBurstIssue .., _, _ => execHodBurstIssue_moves _ _ s (.refl s)
  | .hodTransferDone .., _, _ => execHodTransferDone_moves _ s (.refl s)
  | .hodReadbackDone .., _, _ => execHodReadbackDone_moves _ s (.refl s)
  | .hodWritebackDone .., _, _ => execHodWritebackDone_moves _ s (.refl s)
  | .hodReqLineAssert .., _, _ => execHodReqLineAssert_moves _ s (.refl s)
  | .hodWithdrawal .., _, _ => execHodWithdrawal_moves _ s (.refl s)
  | .hodBusError .., _, _ => execHodBusError_moves _ _ s (.refl s)
  | .hodSwreqWrite .., _, _ => execHodSwreqWrite_moves _ s (.refl s)
  | .hodChNextWrite .., _, _ => execHodChNextWrite_moves _ _ _ s (.refl s)
  | .memoryUncorrectable .., _, _ => execMemoryUncorrectable_moves _ _ _ _ _ _ _ s (.refl s)
  | .memoryCorrectable .., _, _ => execMemoryCorrectable_moves _ _ _ _ s (.refl s)
  | .scrubPeriod .., _, _ => execScrubPeriod_moves _ _ s (.refl s)
  | .mapmemAlert .., _, _ => execMapmemAlert_moves _ _ s (.refl s)
  | .mapRestoreDone .., _, _ => execMapRestoreDone_moves _ s (.refl s)
  | .mapmemRetrain .., _, _ => execMapmemRetrain_moves _ _ s (.refl s)
  | .fabParityError .., _, _ => execFabParityError_moves _ _ _ _ _ _ s (.refl s)
  | .wakeInRise, _, _ => execWakeInRise_moves s (.refl s)
  | .powerStateEntered, _, _ => execPowerStateEntered_moves s (.refl s)
  | .ioWakeReturn, _, _ => execIoWakeReturn_moves s (.refl s)
  | .offEntry, _, _ => execOffEntry_moves s (.refl s)
  | .domainDrainTimeout .., _, _ => execDomainDrainTimeout_moves _ s (.refl s)
  | .domainWakeDone, _, _ => execDomainWakeDone_moves s (.refl s)
  | .wakeStepTimeout .., _, _ => execWakeStepTimeout_moves _ _ _ _ s (.refl s)
  | .accessStallTimeout .., _, _ => execAccessStallTimeout_moves _ _ s (.refl s)
  | .refclkLost .., _, _ => execRefclkLost_moves _ s (.refl s)
  | .kilnSample .., _, _ => execKilnSample_moves _ s (.refl s)
  | .kilnLevelEval, _, _ => execKilnLevelEval_moves s (.refl s)
  | .thermalPowerdownTimeout, _, _ => execThermalPowerdownTimeout_moves s (.refl s)
  | .thermTripRelease, _, _ => execThermTripRelease_moves s (.refl s)
  | .kilnMinLevelWrite .., _, _ => execKilnMinLevelWrite_moves _ s (.refl s)
  | .evtForceWrite .., _, _ => execEvtForceWrite_moves _ _ s (.refl s)
  | .evtEnWrite .., _, _ => execEvtEnWrite_moves _ _ s (.refl s)
  | .evtPendClear .., _, _ => execEvtPendClear_moves _ _ s (.refl s)
  | .evtRouteWrite .., _, _ => execEvtRouteWrite_moves _ _ s (.refl s)
  | .evtMsixSend .., _, _ => execEvtMsixSend_moves _ _ s (.refl s)
  | .evtFwRaiseWrite .., _, _ => execEvtFwRaiseWrite_moves _ s (.refl s)
  | .recordIntake, _, _ => execRecordIntake_moves s (.refl s)
  | .recNext, _, _ => execRecNext_moves s (.refl s)
  | .recRefill, _, _ => execRecRefill_moves s (.refl s)
  | .recCursorWrite .., _, _ => execRecCursorWrite_moves _ s (.refl s)
  | .freezeTimeout, _, _ => execFreezeTimeout_moves s (.refl s)
  | .timeAnchorPeriodic, _, _ => execTimeAnchorPeriodic_moves s (.refl s)
  | .powerOnStart .., _, h => Bool.noConfusion h
  | .offExit .., _, h => Bool.noConfusion h
  | .startStepTimeout .., _, h => Bool.noConfusion h
  | .startInterrupted .., _, _ => execStartInterrupted_moves _ s (.refl s)
  | .topRestart, _, _ => execTopRestart_moves s (.refl s)
  | .topLedgerClear, _, _ => execTopLedgerClear_moves s (.refl s)
  | .topCompatWrite .., _, _ => execTopCompatWrite_moves _ s (.refl s)
  | .blkSoftReset .., _, _ => execBlkSoftReset_moves _ s (.refl s)
  | .blkEnableWrite .., _, _ => execBlkEnableWrite_moves _ _ s (.refl s)
  | .blkPowerVoteWrite .., _, _ => execBlkPowerVoteWrite_moves _ _ s (.refl s)
  | .blkLockSet .., _, _ => execBlkLockSet_moves _ s (.refl s)
  | .errInfoRead .., _, _ => execErrInfoRead_moves _ s (.refl s)
  | .rcCounterRead .., _, _ => execRcCounterRead_moves _ s (.refl s)
  | .latchingLoRead .., _, _ => execLatchingLoRead_moves _ s (.refl s)
  | .disabledBlockAccess .., _, _ => execDisabledBlockAccess_moves _ _ s (.refl s)
  | .registerWrite .., _, _ => execRegisterWrite_moves _ _ _ _ s (.refl s)
  | .controllerEnable .., _, _ => execControllerEnable_moves _ s (.refl s)
  | .autonomousPowerStateTransition .., _, _ => execAutonomousPowerStateTransition_moves _ _ s (.refl s)
  | .perstDeasserted .., _, _ => execPerstDeasserted_moves _ s (.refl s)
  | .vfEnable .., _, _ => execVfEnable_moves _ _ _ s (.refl s)
  | .aerError .., _, _ => execAerError_moves _ _ s (.refl s)
  | .linkRecoveryExit .., _, _ => execLinkRecoveryExit_moves _ _ s (.refl s)
  | .spdmChunkGet .., _, _ => execSpdmChunkGet_moves _ _ s (.refl s)
  | .spdmChunkSend .., _, _ => execSpdmChunkSend_moves _ _ _ s (.refl s)
  | .dynamicAddressAssignment .., _, _ => execDynamicAddressAssignment_moves _ s (.refl s)

/-- Every command keeps what `Moves` says but for BEAT_COUNT. -/
theorem exec_moves (s : State) (c : Instr) : MovesR false s (exec c s) := by
  by_cases hb : c = .beatBoundary
  · subst hb
    exact execBeatBoundary_moves s (.refl s)
  by_cases hs : startRow c = true
  · cases c with
    | powerOnStart inp => exact execPowerOnStart_moves inp s (.refl s)
    | offExit inp => exact execOffExit_moves inp s (.refl s)
    | startStepTimeout step left => exact execStartStepTimeout_moves step left s (.refl s)
    | groutRestart inp => exact execGroutRestart_moves inp s (.refl s)
    | _ => cases hs
  · exact (exec_moves_of_not_start s c hb (Bool.eq_false_iff.mpr hs)).weaken

theorem step_of_empty {s : State} (h : s.pending = []) : step s = .next s := by
  unfold step
  rw [h]

theorem step_of_cons {s : State} {c : Instr} {cs : List Instr} (h : s.pending = c :: cs) :
    step s = exec c { s with pending := cs } := by
  unfold step
  rw [h]

/-- Settles O1: the step matches on the queue, whose front is the command. -/
theorem stepRunsFrontCommand : Obligations.StepRunsFrontCommand := by
  intro s c cs
  exact step_of_cons rfl

/-- Settles O4: an idle step changes nothing, and a command keeps what `Moves` says. -/
theorem stepKeepsCanonicalForm : Obligations.StepKeepsCanonicalForm := by
  intro s t h
  match hq : s.pending with
  | [] =>
    cases (step_of_empty hq).symm.trans h
    exact ⟨id, le_rfl⟩
  | c :: cs =>
    have ⟨_, hfree, hregs, _⟩ := exec_moves _ c t ((step_of_cons hq).symm.trans h)
    exact ⟨hregs, hfree⟩

/-- What a command answers: a next state, or the fault where it carries an address outside the window. -/
def answersIn (c : Instr) (s : State) : Prop :=
  ∃ t, exec c s = if ∃ a, windowAddr c = some a ∧ windowSize ≤ a then .fault .outsideWindow else .next t

theorem inWindow_eq (a : Nat) (f : State → State) (s : State) :
    ∃ t, inWindow a f s = if windowSize ≤ a then .fault .outsideWindow else .next t :=
  ⟨f s, by simp only [inWindow, ← Nat.not_le, ite_not]⟩

theorem onPage_eq (base : Nat) (f : State → State) (s : State) :
    ∃ t, onPage base f s = if windowSize ≤ base then .fault .outsideWindow else .next t := ⟨_, rfl⟩

theorem answersIn_of_windowAddr {c : Instr} {a : Nat} {s : State} (hc : windowAddr c = some a)
    (h : ∃ t, exec c s = if windowSize ≤ a then .fault .outsideWindow else .next t) : answersIn c s := by
  obtain ⟨t, ht⟩ := h
  have haddr : (∃ b, windowAddr c = some b ∧ windowSize ≤ b) ↔ windowSize ≤ a := by
    rw [hc]
    simp only [Option.some.injEq, exists_eq_left']
  exact ⟨t, by rw [ht]; simp only [haddr]⟩

theorem answersIn_of_next {c : Instr} {s : State} (hc : windowAddr c = none) (h : ∃ t, exec c s = .next t) :
    answersIn c s := by
  obtain ⟨t, ht⟩ := h
  refine ⟨t, ?_⟩
  rw [if_neg, ht]
  rintro ⟨a, ha, -⟩
  cases hc.symm.trans ha

/-- Nine rows carry a window address and stop where it lies outside; the others answer a next state. -/
theorem exec_answersIn (c : Instr) (s : State) : answersIn c s := by
  cases c
  case blkSoftReset base => exact answersIn_of_windowAddr rfl (onPage_eq ..)
  case blkEnableWrite base v => exact answersIn_of_windowAddr rfl (onPage_eq ..)
  case blkPowerVoteWrite base v => exact answersIn_of_windowAddr rfl (onPage_eq ..)
  case blkLockSet base => exact answersIn_of_windowAddr rfl (onPage_eq ..)
  case errInfoRead base => exact answersIn_of_windowAddr rfl (onPage_eq ..)
  case rcCounterRead a => exact answersIn_of_windowAddr rfl (inWindow_eq ..)
  case latchingLoRead a => exact answersIn_of_windowAddr rfl (inWindow_eq ..)
  case disabledBlockAccess a isWrite => exact answersIn_of_windowAddr rfl (inWindow_eq ..)
  case registerWrite path a v bytes => exact answersIn_of_windowAddr rfl (inWindow_eq ..)
  all_goals exact answersIn_of_next rfl ⟨_, rfl⟩

/-- Settles O2: `Moves` holds the queue, and `exec_answersIn` says which outcome each row has. -/
theorem commandsLeaveTheQueueAndFaultOutside : Obligations.CommandsLeaveTheQueueAndFaultOutside := by
  refine ⟨⟨fun s => step_of_empty, fun s t c h => (exec_moves s c t h).1⟩, fun c s r => ?_, fun c s f => ?_⟩
  all_goals
    obtain ⟨t, ht⟩ := exec_answersIn c s
    rw [ht]
    split
  · exact fun h => nomatch h
  · exact fun h => nomatch h
  · next hout => exact ⟨fun h => by cases h; exact ⟨rfl, hout⟩, fun h => by rw [h.1]⟩
  · next hin => exact ⟨fun h => (nomatch h), fun h => absurd h.2 hin⟩

/-! ## After reset -/

theorem rd_reset (a : Nat) : rd State.reset a = resetValue a := rfl

/-- A field after reset is cut from its register's reset value. -/
theorem getF_reset (f : Fld) : getF State.reset f = bitsOf (resetValue f.addr).toNat f.lo f.w := rfl

theorem tileState_reset : ∀ t, 1 ≤ t → t < 64 → getF State.reset (F.TILE_STATE_STATE t) = 0 := by
  have hall : ∀ t < 64, 1 ≤ t → bitsOf (resetValue (Reg.TILE_STATE t)).toNat 0 3 = 0 := by decide +kernel
  intro t h1 h64
  rw [getF_reset]
  exact hall t h64 h1

/-- Settles O3: an empty register table reads the reset columns, which are evaluated register by register. -/
theorem resetHasItsValues : Obligations.ResetHasItsValues := by
  refine ⟨⟨rd_reset, ?_, ?_, ?_, ?_, ?_, ?_, ?_, ?_, ?_, ?_, ?_, ?_, tileState_reset⟩, rfl, rfl⟩
  all_goals decide +kernel

/-! ## The beat count (R31) -/

theorem beatBoundaryDo_of_stopped {s : State} (h : countRuns s = false) : beatBoundaryDo s = s := by
  simp only [beatBoundaryDo, h, Bool.not_false, if_true]

/-- A boundary that counts raises the count by one, and its other work leaves it. -/
theorem beatBoundaryDo_count {s : State} (h : countRuns s = true) :
    (beatBoundaryDo s).beat.count = s.beat.count + 1 := by
  have hwork := (boundaryWork_moves (cc := true) (nextBeat s) (.refl _)).2.2.2 rfl
  unfold beatBoundaryDo
  simp only [h, Bool.not_true, Bool.false_eq_true, if_false]
  split
  · rw [hwork]
    rfl
  · rfl

theorem exec_beatBoundary (s : State) : exec .beatBoundary s = .next (beatBoundaryDo s) := by
  rfl

/-- Settles O10: a boundary acts where the count runs, and no other row but a start's moves the count. -/
theorem beatCountMovesAtBoundariesOnly : Obligations.BeatCountMovesAtBoundariesOnly := by
  refine ⟨fun s h => ⟨_, exec_beatBoundary s, beatBoundaryDo_count h⟩, fun s h => ?stopped, fun s t c hb hs h => ?others⟩
  case stopped =>
    rw [completes, exec_beatBoundary, beatBoundaryDo_of_stopped h]
  case others =>
    have ⟨_, _, _, hcount⟩ := exec_moves_of_not_start s c hb hs t h
    exact hcount rfl

end Sys2Proof.Machine
end

/-! ## Frames: what an operation leaves, put together from what its parts leave -/

section

-- One proof after another: elaborated side by side, the proofs of this text take more memory than its check allows.
set_option Elab.async false

namespace Sys2Proof.Machine

variable {s t u : State} {ps : List Part} {but : Nat → Prop}

/-- A register that no event changes. -/
def quietReg (a : Nat) : Bool :=
  decide (a % 0x1000 ≠ 0x10 ∧ a % 0x1000 ≠ 0x18 ∧ ¬ (0x5000 ≤ a ∧ a < 0x5400) ∧ a ≠ 0x4110)

theorem not_eventReg_of_quiet {a : Nat} (h : quietReg a = true) : ¬ eventReg a := ne_evt (of_decide_eq_true h)

theorem quietReg_of_not_eventReg {a : Nat} (h : ¬ eventReg a) : quietReg a = true := by
  simp only [eventReg, not_or] at h
  obtain ⟨hraw, hpend, hcount, hpeak⟩ := h
  exact decide_eq_true ⟨hraw, hpend, hcount, hpeak⟩

/-! ### Parts of the state -/

namespace changesOnly

theorem congr_parts (h : changesOnly ps s t) (k : changesOnly [] t u) : changesOnly ps s u :=
  h.trans (k.mono fun _ hp => absurd hp List.not_mem_nil)

theorem setR (h : changesOnly ps s t) (a v : Nat) (hp : .regs ∈ ps := by decide) : changesOnly ps s (setR a v t) :=
  h.trans ((changesOnly_setR a v t).mono (by simpa using hp))

theorem setF (h : changesOnly ps s t) (f : Fld) (v : Nat) (hp : .regs ∈ ps := by decide) :
    changesOnly ps s (setF f v t) := h.setR _ _ hp

theorem addF (h : changesOnly ps s t) (f : Fld) (n : Nat) (hp : .regs ∈ ps := by decide) :
    changesOnly ps s (addF f n t) := h.setF _ _ hp

theorem maxF (h : changesOnly ps s t) (f : Fld) (v : Nat) (hp : .regs ∈ ps := by decide) :
    changesOnly ps s (maxF f v t) := h.setF _ _ hp

theorem of_evtOnly (h : changesOnly ps s t) (k : evtOnly t u) (hp : ∀ p ∈ eventParts, p ∈ ps := by decide) :
    changesOnly ps s u := h.trans (k.1.mono hp)

theorem happen (h : changesOnly ps s t) (base i : Nat) (hp : ∀ p ∈ eventParts, p ∈ ps := by decide)
    (hb : base % 0x1000 = 0 := by decide) (hs : srcOf base i < 256 := by decide) :
    changesOnly ps s (happen base i t) := h.of_evtOnly (evtOnly_happen _ _ _ hb hs) hp

theorem anchor (h : changesOnly ps s t) (reason : Nat) (hp : ∀ p ∈ eventParts, p ∈ ps := by decide) :
    changesOnly ps s (anchor reason t) := h.of_evtOnly (evtOnly_anchor _ _) hp

theorem ite {c : Prop} [Decidable c] (ht : changesOnly ps s t) (hu : changesOnly ps s u) :
    changesOnly ps s (if c then t else u) := by
  split <;> assumption

/-- One part of the state may take any value where it is among those that may change. -/
theorem put (h : changesOnly ps s t) (p : Part) (hp : p ∈ ps) (hq : u.pending = t.pending)
    (k : ∀ q, q ≠ p → q.same t u) : changesOnly ps s u :=
  h.trans ⟨hq, fun q hnot => k q fun e => hnot (e ▸ hp)⟩

theorem regs (h : changesOnly ps s t) {x : Tbl W32} (hp : .regs ∈ ps := by decide) : changesOnly ps s { t with regs := x } :=
  h.put .regs hp rfl fun q hq => by
    cases q with
    | regs => exact absurd rfl hq
    | _ => rfl

theorem beat (h : changesOnly ps s t) {x : BeatSt} (hp : .beat ∈ ps := by decide) : changesOnly ps s { t with beat := x } :=
  h.put .beat hp rfl fun q hq => by
    cases q with
    | beat => exact absurd rfl hq
    | _ => rfl

theorem recd (h : changesOnly ps s t) {x : RecSt} (hp : .recd ∈ ps := by decide) : changesOnly ps s { t with recd := x } :=
  h.put .recd hp rfl fun q hq => by
    cases q with
    | recd => exact absurd rfl hq
    | _ => rfl

theorem tiles (h : changesOnly ps s t) {x : TileSt} (hp : .tiles ∈ ps := by decide) : changesOnly ps s { t with tiles := x } :=
  h.put .tiles hp rfl fun q hq => by
    cases q with
    | tiles => exact absurd rfl hq
    | _ => rfl

theorem host (h : changesOnly ps s t) {x : HostSt} (hp : .host ∈ ps := by decide) : changesOnly ps s { t with host := x } :=
  h.put .host hp rfl fun q hq => by
    cases q with
    | host => exact absurd rfl hq
    | _ => rfl

theorem map (h : changesOnly ps s t) {x : MapSt} (hp : .map ∈ ps := by decide) : changesOnly ps s { t with map := x } :=
  h.put .map hp rfl fun q hq => by
    cases q with
    | map => exact absurd rfl hq
    | _ => rfl

theorem trowel (h : changesOnly ps s t) {x : TrowelSt} (hp : .trowel ∈ ps := by decide) : changesOnly ps s { t with trowel := x } :=
  h.put .trowel hp rfl fun q hq => by
    cases q with
    | trowel => exact absurd rfl hq
    | _ => rfl

theorem grout (h : changesOnly ps s t) {x : GroutSt} (hp : .grout ∈ ps := by decide) : changesOnly ps s { t with grout := x } :=
  h.put .grout hp rfl fun q hq => by
    cases q with
    | grout => exact absurd rfl hq
    | _ => rfl

theorem mac (h : changesOnly ps s t) {x : MacSt} (hp : .mac ∈ ps := by decide) : changesOnly ps s { t with mac := x } :=
  h.put .mac hp rfl fun q hq => by
    cases q with
    | mac => exact absurd rfl hq
    | _ => rfl

theorem sort (h : changesOnly ps s t) {x : SortSt} (hp : .sort ∈ ps := by decide) : changesOnly ps s { t with sort := x } :=
  h.put .sort hp rfl fun q hq => by
    cases q with
    | sort => exact absurd rfl hq
    | _ => rfl

theorem kiln (h : changesOnly ps s t) {x : KilnSt} (hp : .kiln ∈ ps := by decide) : changesOnly ps s { t with kiln := x } :=
  h.put .kiln hp rfl fun q hq => by
    cases q with
    | kiln => exact absurd rfl hq
    | _ => rfl

theorem sec (h : changesOnly ps s t) {x : SecSt} (hp : .sec ∈ ps := by decide) : changesOnly ps s { t with sec := x } :=
  h.put .sec hp rfl fun q hq => by
    cases q with
    | sec => exact absurd rfl hq
    | _ => rfl

theorem hod (h : changesOnly ps s t) {x : HodSt} (hp : .hod ∈ ps := by decide) : changesOnly ps s { t with hod := x } :=
  h.put .hod hp rfl fun q hq => by
    cases q with
    | hod => exact absurd rfl hq
    | _ => rfl

theorem mems (h : changesOnly ps s t) {x : MemsSt} (hp : .mems ∈ ps := by decide) : changesOnly ps s { t with mems := x } :=
  h.put .mems hp rfl fun q hq => by
    cases q with
    | mems => exact absurd rfl hq
    | _ => rfl

theorem top (h : changesOnly ps s t) {x : TopSt} (hp : .top ∈ ps := by decide) : changesOnly ps s { t with top := x } :=
  h.put .top hp rfl fun q hq => by
    cases q with
    | top => exact absurd rfl hq
    | _ => rfl

theorem errHeld (h : changesOnly ps s t) {x : List Nat} (hp : .errHeld ∈ ps := by decide) : changesOnly ps s { t with errHeld := x } :=
  h.put .errHeld hp rfl fun q hq => by
    cases q with
    | errHeld => exact absurd rfl hq
    | _ => rfl

theorem msixDue (h : changesOnly ps s t) {x : List Nat} (hp : .msixDue ∈ ps := by decide) : changesOnly ps s { t with msixDue := x } :=
  h.put .msixDue hp rfl fun q hq => by
    cases q with
    | msixDue => exact absurd rfl hq
    | _ => rfl

theorem msixBeat (h : changesOnly ps s t) {x : Tbl Nat} (hp : .msixBeat ∈ ps := by decide) : changesOnly ps s { t with msixBeat := x } :=
  h.put .msixBeat hp rfl fun q hq => by
    cases q with
    | msixBeat => exact absurd rfl hq
    | _ => rfl

theorem out (h : changesOnly ps s t) {x : List Out} (hp : .out ∈ ps := by decide) : changesOnly ps s { t with out := x } :=
  h.put .out hp rfl fun q hq => by
    cases q with
    | out => exact absurd rfl hq
    | _ => rfl

theorem freeCtr (h : changesOnly ps s t) {x : Nat} (hp : .freeCtr ∈ ps := by decide) : changesOnly ps s { t with freeCtr := x } :=
  h.put .freeCtr hp rfl fun q hq => by
    cases q with
    | freeCtr => exact absurd rfl hq
    | _ => rfl

theorem emit (h : changesOnly ps s t) (o : Out) (hp : .out ∈ ps := by decide) : changesOnly ps s (emit o t) := h.out hp

theorem tick (h : changesOnly ps s t) (hp : .freeCtr ∈ ps := by decide) : changesOnly ps s (tick t) := h.freeCtr hp

/-! What a part that may not change holds. -/

theorem regs_eq (h : changesOnly ps s t) (hp : .regs ∉ ps := by decide) : t.regs = s.regs := h.2 .regs hp

theorem beat_eq (h : changesOnly ps s t) (hp : .beat ∉ ps := by decide) : t.beat = s.beat := h.2 .beat hp

theorem recd_eq (h : changesOnly ps s t) (hp : .recd ∉ ps := by decide) : t.recd = s.recd := h.2 .recd hp

theorem tiles_eq (h : changesOnly ps s t) (hp : .tiles ∉ ps := by decide) : t.tiles = s.tiles := h.2 .tiles hp

theorem host_eq (h : changesOnly ps s t) (hp : .host ∉ ps := by decide) : t.host = s.host := h.2 .host hp

theorem map_eq (h : changesOnly ps s t) (hp : .map ∉ ps := by decide) : t.map = s.map := h.2 .map hp

theorem trowel_eq (h : changesOnly ps s t) (hp : .trowel ∉ ps := by decide) : t.trowel = s.trowel := h.2 .trowel hp

theorem grout_eq (h : changesOnly ps s t) (hp : .grout ∉ ps := by decide) : t.grout = s.grout := h.2 .grout hp

theorem mac_eq (h : changesOnly ps s t) (hp : .mac ∉ ps := by decide) : t.mac = s.mac := h.2 .mac hp

theorem sort_eq (h : changesOnly ps s t) (hp : .sort ∉ ps := by decide) : t.sort = s.sort := h.2 .sort hp

theorem kiln_eq (h : changesOnly ps s t) (hp : .kiln ∉ ps := by decide) : t.kiln = s.kiln := h.2 .kiln hp

theorem sec_eq (h : changesOnly ps s t) (hp : .sec ∉ ps := by decide) : t.sec = s.sec := h.2 .sec hp

theorem hod_eq (h : changesOnly ps s t) (hp : .hod ∉ ps := by decide) : t.hod = s.hod := h.2 .hod hp

theorem mems_eq (h : changesOnly ps s t) (hp : .mems ∉ ps := by decide) : t.mems = s.mems := h.2 .mems hp

theorem top_eq (h : changesOnly ps s t) (hp : .top ∉ ps := by decide) : t.top = s.top := h.2 .top hp

theorem errHeld_eq (h : changesOnly ps s t) (hp : .errHeld ∉ ps := by decide) : t.errHeld = s.errHeld := h.2 .errHeld hp

theorem msixDue_eq (h : changesOnly ps s t) (hp : .msixDue ∉ ps := by decide) : t.msixDue = s.msixDue := h.2 .msixDue hp

theorem msixBeat_eq (h : changesOnly ps s t) (hp : .msixBeat ∉ ps := by decide) : t.msixBeat = s.msixBeat := h.2 .msixBeat hp

theorem out_eq (h : changesOnly ps s t) (hp : .out ∉ ps := by decide) : t.out = s.out := h.2 .out hp

theorem freeCtr_eq (h : changesOnly ps s t) (hp : .freeCtr ∉ ps := by decide) : t.freeCtr = s.freeCtr := h.2 .freeCtr hp

theorem foldl {α : Type} {g : State → α → State} {l : List α} (h : changesOnly ps s t)
    (hg : ∀ u, ∀ x ∈ l, changesOnly ps u (g u x)) : changesOnly ps s (l.foldl g t) :=
  List.foldlRecOn (motive := changesOnly ps s) l g h fun u hu x hx => hu.trans (hg u x hx)

end changesOnly

/-! ### Registers -/

namespace regsKept

theorem foldl {α : Type} {g : State → α → State} {l : List α} (h : regsKept but s t)
    (hg : ∀ u, ∀ x ∈ l, regsKept but u (g u x)) : regsKept but s (l.foldl g t) :=
  List.foldlRecOn (motive := regsKept but s) l g h fun u hu x hx a ha => (hg u x hx a ha).trans (hu a ha)

theorem refl (s : State) : regsKept but s s := fun _ _ => rfl

theorem of_regs (h : t.regs = s.regs) : regsKept but s t := fun a _ => rd_congr h a

theorem trans (h : regsKept but s t) (k : regsKept but t u) : regsKept but s u := fun a ha => (k a ha).trans (h a ha)

theorem congr (h : regsKept but s t) (hr : u.regs = t.regs := by rfl) : regsKept but s u := fun a ha => (rd_congr hr a).trans (h a ha)

theorem setR (h : regsKept but s t) (a v : Nat) (ha : but a := by simp) : regsKept but s (setR a v t) :=
  fun b hb => (rd_setR_ne _ _ fun (e : b = a) => hb (e ▸ ha)).trans (h b hb)

theorem setF (h : regsKept but s t) (f : Fld) (v : Nat) (ha : but f.addr := by simp) : regsKept but s (setF f v t) := h.setR _ _ ha

theorem addF (h : regsKept but s t) (f : Fld) (n : Nat) (ha : but f.addr := by simp) : regsKept but s (addF f n t) := h.setF _ _ ha

theorem maxF (h : regsKept but s t) (f : Fld) (v : Nat) (ha : but f.addr := by simp) : regsKept but s (maxF f v t) := h.setF _ _ ha

theorem ite {c : Prop} [Decidable c] (ht : regsKept but s t) (hu : regsKept but s u) :
    regsKept but s (if c then t else u) := by
  split <;> assumption

theorem mono {but' : Nat → Prop} (h : regsKept but s t) (hb : ∀ a, but a → but' a) : regsKept but' s t :=
  fun a ha => h a fun hk => ha (hb a hk)

/-- What is kept is kept whatever events do. -/
theorem toE (h : regsKept but s t) : regsKeptE but s t := fun a ha _ => h a ha

end regsKept

namespace regsKeptE

theorem refl (s : State) : regsKeptE but s s := fun _ _ _ => rfl

theorem of_regs (h : t.regs = s.regs) : regsKeptE but s t := fun a _ _ => rd_congr h a

theorem trans (h : regsKeptE but s t) (k : regsKeptE but t u) : regsKeptE but s u :=
  fun a ha he => (k a ha he).trans (h a ha he)

theorem congr (h : regsKeptE but s t) (hr : u.regs = t.regs := by rfl) : regsKeptE but s u :=
  fun a ha he => (rd_congr hr a).trans (h a ha he)

theorem setR (h : regsKeptE but s t) (a v : Nat) (ha : but a := by simp) : regsKeptE but s (setR a v t) :=
  h.trans (regsKept.setR (.refl t) a v ha).toE

theorem setF (h : regsKeptE but s t) (f : Fld) (v : Nat) (ha : but f.addr := by simp) : regsKeptE but s (setF f v t) := h.setR _ _ ha

theorem addF (h : regsKeptE but s t) (f : Fld) (n : Nat) (ha : but f.addr := by simp) : regsKeptE but s (addF f n t) := h.setF _ _ ha

theorem of_evtOnly (h : regsKeptE but s t) (k : evtOnly t u) : regsKeptE but s u :=
  h.trans fun _ _ he => k.rd he

theorem happen (h : regsKeptE but s t) (base i : Nat) (hb : base % 0x1000 = 0 := by decide)
    (hs : srcOf base i < 256 := by decide) : regsKeptE but s (happen base i t) :=
  h.of_evtOnly (evtOnly_happen _ _ _ hb hs)

theorem anchor (h : regsKeptE but s t) (reason : Nat) : regsKeptE but s (anchor reason t) := h.of_evtOnly (evtOnly_anchor ..)

theorem ite {c : Prop} [Decidable c] (ht : regsKeptE but s t) (hu : regsKeptE but s u) :
    regsKeptE but s (if c then t else u) := by
  split <;> assumption

end regsKeptE

/-! ### What a register and a field read after events -/

theorem getR_of_rd {a : Nat} (h : rd t a = rd s a) : getR t a = getR s a := congrArg BitVec.toNat h

theorem getR_congr (a : Nat) (h : t.regs = s.regs := by rfl) : getR t a = getR s a := getR_of_rd (rd_congr h a)

theorem getF_congr (f : Fld) (h : t.regs = s.regs := by rfl) : getF t f = getF s f := getF_of_rd (rd_congr h _)

theorem isSet_of_getF {f : Fld} (h : getF t f = getF s f) : isSet t f = isSet s f := by rw [isSet, isSet, h]

theorem regsKept.getR (h : regsKept but s t) {a : Nat} (ha : ¬ but a) : getR t a = getR s a := getR_of_rd (h a ha)

theorem regsKept.getF (h : regsKept but s t) {f : Fld} (ha : ¬ but f.addr) : getF t f = getF s f := getF_of_rd (h _ ha)

theorem regsKeptE.getR (h : regsKeptE but s t) {a : Nat} (ha : ¬ but a) (hq : quietReg a = true) : getR t a = getR s a :=
  getR_of_rd (h a ha (not_eventReg_of_quiet hq))

theorem regsKeptE.getF (h : regsKeptE but s t) {f : Fld} (ha : ¬ but f.addr) (hq : quietReg f.addr = true) :
    getF t f = getF s f := getF_of_rd (h _ ha (not_eventReg_of_quiet hq))

theorem getR_happen {base i a : Nat} (hq : quietReg a = true) (hb : base % 0x1000 = 0) (hs : srcOf base i < 256) :
    getR (happen base i s) a = getR s a := (evtOnly_happen _ _ _ hb hs).getR (not_eventReg_of_quiet hq)

theorem getF_happen {base i : Nat} {f : Fld} (hq : quietReg f.addr = true) (hb : base % 0x1000 = 0)
    (hs : srcOf base i < 256) : getF (happen base i s) f = getF s f :=
  (evtOnly_happen _ _ _ hb hs).getF (not_eventReg_of_quiet hq)

theorem getR_anchor {reason a : Nat} (hq : quietReg a = true) : getR (anchor reason s) a = getR s a :=
  (evtOnly_anchor ..).getR (not_eventReg_of_quiet hq)

theorem getF_anchor {reason : Nat} {f : Fld} (hq : quietReg f.addr = true) : getF (anchor reason s) f = getF s f :=
  (evtOnly_anchor ..).getF (not_eventReg_of_quiet hq)

@[simp] theorem anchor_beat (reason : Nat) (s : State) : (anchor reason s).beat = s.beat :=
  (evtOnly_anchor reason s).part (p := .beat) (by decide)

theorem getR_setR (a b v : Nat) (s : State) : getR (setR b v s) a = if a = b then v % 2 ^ 32 else getR s a := by
  split
  · next h => rw [h, getR_setR_same]
  · next h => exact getR_setR_ne v s h

/-- A field whose whole register is written is cut from the value written. -/
theorem getF_setR_same (f : Fld) (v : Nat) (s : State) : getF (setR f.addr v s) f = bitsOf (v % 2 ^ 32) f.lo f.w := by
  rw [getF, getR_setR_same]

/-- Setting a bit of EVT_RAW is a thing apart from every register that no event changes. -/
theorem raised_of_rd {base i : Nat} (h : rd t (Reg.EVT_RAW base) = rd s (Reg.EVT_RAW base)) :
    raised base i t = raised base i s := by
  rw [raised, raised, getF_of_rd (f := bitF (Reg.EVT_RAW base) i) h]

end Sys2Proof.Machine
end

/-! ## The beat's registers, SYNC_OUT, the background windows and the time lock (R49 to R62) -/

section

-- One proof after another: elaborated side by side, the proofs of this text take more memory than its check allows.
set_option Elab.async false

namespace Sys2Proof.Machine

/-! ### Register writes -/

theorem exec_beatWinApplyWrite (v : W32) {s : State} (h : reach s Reg.BEAT_WIN_APPLY = .ok) :
    exec (.beatWinApplyWrite v) s = .next (setR Reg.BEAT_WIN_APPLY v.toNat s) :=
  congrArg Host.Outcome.next (guarded_ok _ h)

theorem exec_beatOriginWrite (hi : Bool) (v : W32) {s : State}
    (h : reach s (if hi then Reg.BEAT_ORIGIN_HI else Reg.BEAT_ORIGIN_LO) = .ok) :
    exec (.beatOriginWrite hi v) s = .next (originWrite hi v s) :=
  congrArg Host.Outcome.next (guarded_ok _ h)

theorem exec_beatHostOffsetWrite (v : W32) {s : State} (h : reach s Reg.BEAT_HOST_OFFSET_HI = .ok) :
    exec (.beatHostOffsetWrite v) s = .next (offsetWrite v s) :=
  congrArg Host.Outcome.next (guarded_ok _ h)

theorem exec_beatCountLoRead {s : State} (h : reach s Reg.BEAT_COUNT_LO = .ok) :
    exec .beatCountLoRead s = .next (countRead s) := by
  show Host.Outcome.next (match reach s Reg.BEAT_COUNT_LO with
    | .ok => countRead s
    | .disabled => accessDisabled Reg.BEAT_COUNT_LO s
    | .sleeping => accessStall .onChip Reg.BEAT_COUNT_LO none s) = _
  rw [h]

theorem exec_beatSrcWrite (v : W32) {s : State} (h : reach s Reg.BEAT_CTRL = .ok) :
    exec (.beatSrcWrite v) s = .next (ctrlWrite v s) :=
  congrArg Host.Outcome.next (guarded_ok _ h)

theorem w32_toNat_mod (v : W32) : v.toNat % 2 ^ 32 = v.toNat := Nat.mod_eq_of_lt v.isLt

theorem originReg_quiet (hi : Bool) : quietReg (if hi then Reg.BEAT_ORIGIN_HI else Reg.BEAT_ORIGIN_LO) = true := by
  cases hi <;> decide

theorem getR_originWrite (hi : Bool) (v : W32) (s : State) :
    getR (originWrite hi v s) (if hi then Reg.BEAT_ORIGIN_HI else Reg.BEAT_ORIGIN_LO) = v.toNat := by
  rw [originWrite, getR_anchor (originReg_quiet hi), getR_setR_same, w32_toNat_mod]

theorem regsKeptE_originWrite (hi : Bool) (v : W32) (s : State) :
    regsKeptE (· = if hi then Reg.BEAT_ORIGIN_HI else Reg.BEAT_ORIGIN_LO) s (originWrite hi v s) :=
  (regsKeptE.setR (.refl s) _ v.toNat).anchor 4

theorem regsKeptE_setOffset (v : W64) (s : State) :
    regsKeptE (fun a => a = Reg.BEAT_HOST_OFFSET_LO ∨ a = Reg.BEAT_HOST_OFFSET_HI) s (setOffset v s) :=
  .setR (.setR (t := { s with beat := { s.beat with offset := v } }) (.of_regs rfl) _ _) _ _

theorem changesOnly_setOffset (v : W64) (s : State) : changesOnly [.regs, .beat] s (setOffset v s) :=
  .setR (.setR (.beat (.refl _ s)) _ _) _ _

theorem offsetWrite_beat (v : W32) (s : State) :
    (offsetWrite v s).beat =
      { s.beat with offset := BitVec.ofNat 64 (v.toNat * 2 ^ 32 + getR s Reg.BEAT_HOST_OFFSET_LO / 64 * 64) } := by
  rw [offsetWrite, anchor_beat]
  rfl

/-- The two halves of an offset make 64 bits. -/
theorem offset_lt (v : W32) (s : State) : v.toNat * 2 ^ 32 + getR s Reg.BEAT_HOST_OFFSET_LO / 64 * 64 < 2 ^ 64 := by
  have hv := v.isLt
  have hlo := getR_lt s Reg.BEAT_HOST_OFFSET_LO
  omega

/-! ### SYNC_OUT and the windows -/

theorem exec_syncOutPulse (s : State) : exec .syncOutPulse s = .next (syncOutDo s) := by
  rfl

theorem exec_bgWindowApply (s : State) : exec .bgWindowApply s = .next (applyWins s) := by
  rfl

theorem syncOut_of_period {s : State} {p : Nat} (h : syncOutPeriod s = some p) :
    (syncOutDo s).beat.syncOut = true ↔ (hostGrid s).toNat % 64 = 0 ∧ (hostGrid s).toNat / 64 % p = 0 := by
  simp only [syncOutDo, h, Bool.and_eq_true, decide_eq_true_eq]

theorem syncOut_of_none {s : State} (h : syncOutPeriod s = none) : (syncOutDo s).beat.syncOut = false := by
  simp only [syncOutDo, h]

theorem winFits_iff (w : Nat × Nat × Nat) : winFits w = true ↔ w.1 = 0 ∨ w.2.1 + w.2.2 ≤ 64 * w.1 := by
  rw [winFits, Bool.or_eq_true, decide_eq_true_eq, decide_eq_true_eq]

theorem applyWins_of_fit {s : State} (hdue : winDue s = true)
    (hfit : ∀ w ∈ pendingWins s, w.1 = 0 ∨ w.2.1 + w.2.2 ≤ 64 * w.1) :
    applyWins s = { setF F.BEAT_WIN_APPLY_ARM 0 s with
      beat := { s.beat with wins := pendingWins s, bgOnly := isSet s F.BEAT_CTRL_BG_WINDOWS_ONLY } } := by
  have hall : (pendingWins s).all winFits = true := List.all_eq_true.mpr fun w hw => (winFits_iff w).mpr (hfit w hw)
  simp only [applyWins, hdue, hall, if_true, setF_beat]

theorem applyWins_of_misfit {s : State} (hdue : winDue s = true)
    (hbad : ∃ w ∈ pendingWins s, w.1 ≠ 0 ∧ 64 * w.1 < w.2.1 + w.2.2) :
    applyWins s = happen baseBeat 5 (setF F.BEAT_WIN_APPLY_ARM 0 s) := by
  obtain ⟨w, hw, hne, hlong⟩ := hbad
  have hall : ¬ (pendingWins s).all winFits = true := fun h => by
    have hfit := (winFits_iff w).mp (List.all_eq_true.mp h w hw)
    omega
  simp only [applyWins, hdue, if_true, if_neg hall]

theorem getF_arm_cleared (s : State) : getF (setF F.BEAT_WIN_APPLY_ARM 0 s) F.BEAT_WIN_APPLY_ARM = 0 :=
  getF_setF_same _ _ _ (by unfold Fld.ok; decide)

/-- Settles O5: each row is one write with its anchor, and an armed set is applied or refused as `winFits` decides. -/
theorem beatRegistersSyncAndWindowsAct : Obligations.BeatRegistersSyncAndWindowsAct := by
  refine ⟨fun s v => ⟨fun h => ?win, fun hi h => ?origin, fun h => ?offset, fun h => ?count⟩,
    fun s => ⟨?pulse, fun hdue hfit => ?fits, fun hdue hbad => ?misfit⟩⟩
  case win => exact ⟨_, exec_beatWinApplyWrite v h, writesReg_setR ..⟩
  case origin =>
    exact ⟨_, exec_beatOriginWrite hi v h, getR_originWrite hi v s, raised_anchor ..,
      regsKeptE_originWrite hi v s, .anchor (.setR (.refl _ s) _ _) 4⟩
  case offset =>
    refine ⟨_, exec_beatHostOffsetWrite v h, ?_, ?_, raised_anchor .., .anchor (regsKeptE_setOffset _ s) 4,
      .anchor ((changesOnly_setOffset ..).mono (by decide)) 4⟩
    · rw [offsetWrite_beat, BitVec.toNat_ofNat, Nat.mod_eq_of_lt (offset_lt v s)]
    · rw [offsetWrite_beat]
  case count => exact ⟨_, exec_beatCountLoRead h, writesReg_setR ..⟩
  case pulse =>
    refine ⟨_, exec_syncOutPulse s, .beat (.refl _ s), rfl, fun h => syncOut_of_none ?_, fun h => syncOut_of_period ?_,
      fun h => syncOut_of_period ?_⟩
    · obtain h | h := h <;> simp only [syncOutPeriod, h]
    · simp only [syncOutPeriod, h]
    · simp only [syncOutPeriod, h]
  case fits =>
    refine ⟨_, exec_bgWindowApply s, ?_⟩
    rw [applyWins_of_fit hdue hfit]
    exact ⟨rfl, rfl, (getF_congr (s := setF F.BEAT_WIN_APPLY_ARM 0 s) _).trans (getF_arm_cleared s), .congr (.setF (.refl s) F.BEAT_WIN_APPLY_ARM 0) rfl,
      .beat (.setF (.refl _ s) F.BEAT_WIN_APPLY_ARM 0)⟩
  case misfit =>
    refine ⟨_, exec_bgWindowApply s, ?_⟩
    rw [applyWins_of_misfit hdue hbad]
    refine ⟨raised_happen _ _ _ (by decide) (by decide) (by decide) (by decide), ?_,
      .happen (.setF (.refl s) _ _) _ _, .happen (.setF (.refl _ s) _ _) _ _⟩
    rw [getF_happen (by decide) (by decide) (by decide), getF_arm_cleared]

/-! ### The lock -/

theorem lockState_of_rd {s t : State} (h : rd t Reg.BEAT_STATUS = rd s Reg.BEAT_STATUS) : lockState t = lockState s :=
  getF_of_rd h

section

variable (n : Nat) (e : Int) (s : State)

/-- The lock's field is written, and the run of frames in tolerance ends. -/
def lockSet : State := setF F.BEAT_STATUS_LOCK_STATE n { s with beat := { s.beat with inTol := 0 } }

theorem setLock_eq : setLock n s =
    if lockState s = n then lockSet n s
    else if n = lockLocked then anchor 2 (happen baseBeat 3 (lockSet n s))
    else if lockState s = lockLocked then happen baseBeat 3 (lockSet n s)
    else lockSet n s := rfl

theorem lockState_lockSet : lockState (lockSet n s) = n % 2 ^ 3 :=
  getF_setF_same _ _ _ (by unfold Fld.ok; decide)

theorem evtOnly_setLock : evtOnly (lockSet n s) (setLock n s) := by
  have hchange : evtOnly (lockSet n s) (happen baseBeat 3 (lockSet n s)) := evtOnly_happen _ _ _ (by decide) (by decide)
  rw [setLock_eq]
  split
  · exact .refl _
  · split
    · exact hchange.trans (evtOnly_anchor ..)
    · split
      · exact hchange
      · exact .refl _

theorem lockState_setLock : lockState (setLock n s) = n % 2 ^ 3 := by
  rw [lockState_of_rd ((evtOnly_setLock n s).rd (ne_evt (by decide))), lockState_lockSet]

theorem setLock_beat : (setLock n s).beat = { s.beat with inTol := 0 } :=
  ((evtOnly_setLock n s).part (p := .beat) (by decide)).trans rfl

theorem changesOnly_setLock : changesOnly (.beat :: eventParts) s (setLock n s) :=
  .of_evtOnly (.setF (.beat (.refl _ s)) _ _) (evtOnly_setLock n s)

theorem regsKeptE_setLock : regsKeptE (· = Reg.BEAT_STATUS) s (setLock n s) :=
  .of_evtOnly (.setF (t := { s with beat := { s.beat with inTol := 0 } }) (.of_regs rfl) _ _) (evtOnly_setLock n s)

theorem raised_lockChange (t : State) : raised baseBeat 3 (happen baseBeat 3 t) = true :=
  raised_happen _ _ _ (by decide) (by decide) (by decide) (by decide)

variable {s}

theorem raised_setLock_enter (h : lockState s ≠ lockLocked) : raised baseBeat 3 (setLock lockLocked s) = true := by
  rw [setLock_eq, if_neg h, if_pos rfl]
  exact raised_anchor_keep _ _ _ _ (by decide) (by decide) (by decide) (raised_lockChange _)

theorem raised_setLock_leave {n : Nat} (hn : n ≠ lockLocked) (h : lockState s = lockLocked) :
    raised baseBeat 3 (setLock n s) = true := by
  rw [setLock_eq, if_neg (h ▸ hn.symm), if_neg hn, if_pos h]
  exact raised_lockChange _

end

/-! ### Holdover (R50) -/

section

variable (s : State)

theorem lockState_toHoldover : lockState (toHoldover s) = lockHoldover := by
  rw [toHoldover, lockState_of_rd ((evtOnly_happen _ _ _ (by decide) (by decide)).rd (ne_evt (by decide))),
    lockState_setLock]
  rfl

theorem raised_syncFault (t : State) : raised baseBeat 7 (happen baseBeat 7 t) = true :=
  raised_happen _ _ _ (by decide) (by decide) (by decide) (by decide)

theorem regsKeptE_toHoldover : regsKeptE (· = Reg.BEAT_STATUS) s (toHoldover s) :=
  (regsKeptE_setLock lockHoldover s).happen _ _

theorem toHoldover_count : (toHoldover s).beat.count = s.beat.count := by
  rw [toHoldover, happen_beat, setLock_beat]

end

/-! ### The source (R50) -/

theorem getF_src_written (v : W32) (s : State) :
    getF (setR Reg.BEAT_CTRL (v.toNat % 128) s) F.BEAT_CTRL_SRC = v.toNat % 4 := by
  rw [getF_setR_same F.BEAT_CTRL_SRC]
  simp only [bitsOf]
  omega

theorem lockSrc_written (v : W32) (s : State) :
    lockSrc (setR Reg.BEAT_CTRL (v.toNat % 128) s) = if v.toNat % 4 = 3 then 0 else v.toNat % 4 := by
  rw [lockSrc, getF_src_written]

section

variable (v : W32) (s : State)

/-- The control register is written. -/
def ctrlSet : State := setR Reg.BEAT_CTRL (v.toNat % 128) s

/-- A source is taken up afresh: nothing is measured and nothing has failed yet. -/
def sourceTaken : State :=
  { ctrlSet v s with beat := { s.beat with firstMeas := true, faulted := false, ptmFails := 0, syncMisses := 0 } }

theorem lockState_ctrlSet : lockState (ctrlSet v s) = lockState s := lockState_of_rd (rd_setR_ne _ _ (by decide))

theorem lockState_sourceTaken : lockState (sourceTaken v s) = lockState s :=
  (lockState_of_rd (rd_congr rfl _)).trans (lockState_ctrlSet v s)

theorem ctrlWrite_eq : ctrlWrite v s =
    if lockSrc (ctrlSet v s) = 0 then
      if lockState s = lockFree then ctrlSet v s else setLock lockFree (setR Reg.BEAT_RATE_ADJ 0 (ctrlSet v s))
    else if lockState s = lockFree then setLock lockAcquire (sourceTaken v s)
    else ctrlSet v s := rfl

/-- What a write of BEAT_CTRL leaves, whichever way the lock moves. -/
structure CtrlKeeps (t : State) : Prop where
  regs : regsKeptE (fun a => a = Reg.BEAT_STATUS ∨ a = Reg.BEAT_RATE_ADJ) (ctrlSet v s) t
  parts : changesOnly (.beat :: eventParts) s t
  count : t.beat.count = s.beat.count
  offset : t.beat.offset = s.beat.offset
  bgOnly : t.beat.bgOnly = s.beat.bgOnly
  wins : t.beat.wins = s.beat.wins

theorem changesOnly_ctrlSet : changesOnly (.beat :: eventParts) s (ctrlSet v s) := .setR (.refl _ s) _ _

theorem ctrlKeeps_ctrlSet : CtrlKeeps v s (ctrlSet v s) := ⟨.refl _, changesOnly_ctrlSet v s, rfl, rfl, rfl, rfl⟩

theorem ctrlKeeps_setLock {n : Nat} {t : State} (h : CtrlKeeps v s t) : CtrlKeeps v s (setLock n t) where
  regs := h.regs.trans fun _ ha he => regsKeptE_setLock n t _ (fun hk => ha (.inl hk)) he
  parts := h.parts.trans (changesOnly_setLock n t)
  count := by rw [setLock_beat]; exact h.count
  offset := by rw [setLock_beat]; exact h.offset
  bgOnly := by rw [setLock_beat]; exact h.bgOnly
  wins := by rw [setLock_beat]; exact h.wins

theorem ctrlKeeps_ctrlWrite : CtrlKeeps v s (ctrlWrite v s) := by
  have hset := ctrlKeeps_ctrlSet v s
  rw [ctrlWrite_eq]
  split
  · split
    · exact hset
    · refine ctrlKeeps_setLock v s ⟨.setR hset.regs _ _, .setR hset.parts _ _, rfl, rfl, rfl, rfl⟩
  · split
    · refine ctrlKeeps_setLock v s ⟨.congr hset.regs rfl, .beat hset.parts, rfl, rfl, rfl, rfl⟩
    · exact hset

theorem getR_ctrlWrite : getR (ctrlWrite v s) Reg.BEAT_CTRL = v.toNat % 128 := by
  rw [(ctrlKeeps_ctrlWrite v s).regs.getR (by decide) (by decide), ctrlSet, getR_setR_same]
  omega

variable {v s}

theorem ctrlWrite_of_free (hv : v.toNat % 4 = 0 ∨ v.toNat % 4 = 3) :
    lockState (ctrlWrite v s) = lockFree ∧ (lockState s ≠ lockFree → getR (ctrlWrite v s) Reg.BEAT_RATE_ADJ = 0) := by
  have hsrc : lockSrc (ctrlSet v s) = 0 := by
    rw [ctrlSet, lockSrc_written]
    obtain h | h := hv <;> rw [h] <;> rfl
  rw [ctrlWrite_eq, if_pos hsrc]
  split
  · next hfree => exact ⟨(lockState_ctrlSet v s).trans hfree, fun h => absurd hfree h⟩
  · refine ⟨lockState_setLock _ _, fun _ => ?_⟩
    rw [(regsKeptE_setLock _ _).getR (by decide) (by decide), getR_setR_same, Nat.zero_mod]

theorem ctrlWrite_of_source (hv : v.toNat % 4 = 1 ∨ v.toNat % 4 = 2) :
    (lockState s = lockFree → lockState (ctrlWrite v s) = lockAcquire ∧ (ctrlWrite v s).beat.firstMeas = true) ∧
      (lockState s ≠ lockFree → lockState (ctrlWrite v s) = lockState s) := by
  have hsrc : lockSrc (ctrlSet v s) ≠ 0 := by
    rw [ctrlSet, lockSrc_written]
    obtain h | h := hv <;> rw [h] <;> decide
  rw [ctrlWrite_eq, if_neg hsrc]
  refine ⟨fun hfree => ?_, fun hbusy => ?_⟩
  · rw [if_pos hfree, lockState_setLock, setLock_beat]
    exact ⟨rfl, rfl⟩
  · rw [if_neg hbusy, lockState_ctrlSet]

end

/-! ### Measurements (R50, R51) -/

section

variable (e : Int) (s : State)

/-- A measurement is shown, and ends the runs of failures. -/
def phaseShown : State :=
  setR Reg.BEAT_PHASE_ERR (sat32 e)
    { s with beat := { s.beat with ptmFails := 0, syncMisses := 0, faulted := false, residual := e } }

/-- The measurement before the lock answers it: shown, and stepped away where it calls for that. -/
def stepped : State :=
  if 512000 < e ∨ 512000 < -e ∨ s.beat.firstMeas then timeStep e (phaseShown e s) else phaseShown e s

theorem measure_eq : measure e s = lockMeasure e (stepped e s) := rfl

/-- The offset stepped against the error. -/
def steppedOffset : W64 := s.beat.offset - BitVec.ofInt 64 (64 * nearestFrames e)

/-- The state of `timeStep` before its event and its anchor. -/
def offsetStepped : State :=
  let s1 := setOffset (steppedOffset e s) s
  { s1 with beat := { s1.beat with residual := e - 1024000 * nearestFrames e, firstMeas := false } }

theorem evtOnly_timeStep : evtOnly (offsetStepped e s) (timeStep e s) :=
  (evtOnly_happen baseBeat 4 (offsetStepped e s) (by decide) (by decide)).trans (evtOnly_anchor 1 _)

theorem timeStep_beat : (timeStep e s).beat =
    { s.beat with offset := steppedOffset e s, residual := e - 1024000 * nearestFrames e, firstMeas := false } :=
  ((evtOnly_timeStep e s).part (p := .beat) (by decide)).trans rfl

/-- The registers that a measurement writes before the lock answers it. -/
def measReg (a : Nat) : Prop := a = Reg.BEAT_PHASE_ERR ∨ a = Reg.BEAT_HOST_OFFSET_LO ∨ a = Reg.BEAT_HOST_OFFSET_HI

/-- What a measurement has done before the lock answers it. -/
structure Stepped (p : State) : Prop where
  regs : regsKeptE measReg s p
  err : getR p Reg.BEAT_PHASE_ERR = sat32 e
  parts : changesOnly (.beat :: eventParts) s p
  beat : p.beat = { s.beat with
    offset := p.beat.offset, residual := p.beat.residual, firstMeas := p.beat.firstMeas,
    ptmFails := 0, syncMisses := 0, faulted := false }
  step : 512000 < e ∨ 512000 < -e ∨ s.beat.firstMeas = true → p.beat.offset = steppedOffset e s
  stay : e ≤ 512000 → -e ≤ 512000 → s.beat.firstMeas = false → p.beat.offset = s.beat.offset

theorem regsKeptE_phaseShown : regsKeptE measReg s (phaseShown e s) := by
  refine .setR (.of_regs rfl) _ _ (.inl rfl)

theorem changesOnly_phaseShown : changesOnly (.beat :: eventParts) s (phaseShown e s) := .setR (.beat (.refl _ s)) _ _

theorem sat32_lt : sat32 e < 2 ^ 32 := by
  simp only [sat32]
  omega

theorem getR_phaseShown : getR (phaseShown e s) Reg.BEAT_PHASE_ERR = sat32 e := by
  rw [phaseShown, getR_setR_same, Nat.mod_eq_of_lt (sat32_lt e)]

theorem regsKeptE_offsetStepped :
    regsKeptE (fun a => a = Reg.BEAT_HOST_OFFSET_LO ∨ a = Reg.BEAT_HOST_OFFSET_HI) s (offsetStepped e s) :=
  (regsKeptE_setOffset (steppedOffset e s) s).congr rfl

theorem changesOnly_offsetStepped : changesOnly [.regs, .beat] s (offsetStepped e s) :=
  .beat (changesOnly_setOffset (steppedOffset e s) s)

theorem stepped_spec : Stepped e s (stepped e s) := by
  have hreg := regsKeptE_phaseShown e s
  have hpart := changesOnly_phaseShown e s
  unfold stepped
  split
  · next hstep =>
    have htime := (regsKeptE_offsetStepped e (phaseShown e s)).of_evtOnly (evtOnly_timeStep e _)
    have hparts : changesOnly (.beat :: eventParts) (phaseShown e s) (timeStep e (phaseShown e s)) :=
      .of_evtOnly ((changesOnly_offsetStepped e _).mono (by decide)) (evtOnly_timeStep e _)
    refine ⟨hreg.trans fun a ha he => htime a (fun h => ha (.inr h)) he, ?_, hpart.trans hparts, ?_, fun _ => ?_,
      fun hle hge hfirst => ?_⟩
    · rw [htime.getR (by decide) (by decide), getR_phaseShown]
    · rw [timeStep_beat]; rfl
    · rw [timeStep_beat]; rfl
    · simp only [hfirst, Bool.false_eq_true, or_false] at hstep
      omega
  · next hstep => exact ⟨hreg, getR_phaseShown e s, hpart, rfl, fun h => absurd h hstep, fun _ _ _ => rfl⟩

end

/-! ### The lock's answer (R50) -/

section

variable {e : Int} {s : State}

theorem lockMeasure_of_free (h : lockState s = lockFree) : lockMeasure e s = s := by
  simp only [lockMeasure, h, lockFree]

theorem lockMeasure_of_holdover (h : lockState s = lockHoldover) : lockMeasure e s = setLock lockAcquire s := by
  simp only [lockMeasure, h, lockHoldover]

theorem lockMeasure_of_locked (h : lockState s = lockLocked) : lockMeasure e s =
    if 100 * (getF s F.BEAT_LOCK_CFG_UNLOCK_TOL : Int) < e ∨ 100 * (getF s F.BEAT_LOCK_CFG_UNLOCK_TOL : Int) < -e then
      setLock lockAcquire s
    else s := by
  simp only [lockMeasure, h, lockLocked]

theorem lockMeasure_of_acquire (h : lockState s = lockAcquire) : lockMeasure e s =
    if e ≤ 100 * (getF s F.BEAT_LOCK_CFG_LOCK_TOL : Int) ∧ -(100 * (getF s F.BEAT_LOCK_CFG_LOCK_TOL : Int)) ≤ e then
      if getF s F.BEAT_LOCK_CFG_LOCK_FRAMES ≤ frameNow s + 2 - inTolNext s then setLock lockLocked s
      else { s with beat := { s.beat with inTol := inTolNext s } }
    else { s with beat := { s.beat with inTol := 0 } } := by
  simp only [lockMeasure, h, lockAcquire]

/-- What the lock's answer leaves: it moves its own register and the run in tolerance. -/
structure LockKeeps (s t : State) : Prop where
  regs : regsKeptE (· = Reg.BEAT_STATUS) s t
  parts : changesOnly (.beat :: eventParts) s t
  beat : t.beat = { s.beat with inTol := t.beat.inTol }

theorem lockKeeps_refl : LockKeeps s s := ⟨.refl s, .refl _ s, rfl⟩

theorem lockKeeps_setLock (n : Nat) : LockKeeps s (setLock n s) :=
  ⟨regsKeptE_setLock n s, changesOnly_setLock n s, by rw [setLock_beat]⟩

theorem lockKeeps_inTol (f : Nat) : LockKeeps s { s with beat := { s.beat with inTol := f } } :=
  ⟨.of_regs rfl, .beat (.refl _ s), rfl⟩

theorem lockKeeps_ite {c : Prop} [Decidable c] {t u : State} (ht : LockKeeps s t) (hu : LockKeeps s u) :
    LockKeeps s (if c then t else u) := by
  split <;> assumption

theorem lockKeeps_lockMeasure : LockKeeps s (lockMeasure e s) := by
  unfold lockMeasure
  extract_lets tol utol
  split
  · exact lockKeeps_ite (lockKeeps_ite (lockKeeps_setLock _) (lockKeeps_inTol _)) (lockKeeps_inTol _)
  · exact lockKeeps_ite (lockKeeps_setLock _) lockKeeps_refl
  · exact lockKeeps_setLock _
  · exact lockKeeps_refl

theorem Stepped.lockState_eq {p : State} (h : Stepped e s p) : lockState p = lockState s :=
  h.regs.getF (by simp [measReg]) (by decide)

theorem Stepped.lockCfg_eq {p : State} (h : Stepped e s p) {f : Fld} (hf : f.addr = Reg.BEAT_LOCK_CFG) :
    getF p f = getF s f :=
  h.regs.getF (by simp [measReg, hf]) (by rw [hf]; decide)

theorem Stepped.frameNow_eq {p : State} (h : Stepped e s p) : frameNow p = frameNow s := by
  rw [frameNow, frameNow, beatNow, beatNow, h.beat]

theorem Stepped.inTolNext_eq {p : State} (h : Stepped e s p) : inTolNext p = inTolNext s := by
  rw [inTolNext, inTolNext, h.frameNow_eq, h.beat]

variable (e s)

theorem measure_lockKeeps : LockKeeps (stepped e s) (measure e s) := by
  rw [measure_eq]
  exact lockKeeps_lockMeasure

theorem lockState_measure_of_locked (h : lockState s = lockLocked) :
    (100 * (getF s F.BEAT_LOCK_CFG_UNLOCK_TOL : Int) < e ∨ 100 * (getF s F.BEAT_LOCK_CFG_UNLOCK_TOL : Int) < -e →
      lockState (measure e s) = lockAcquire ∧ raised baseBeat 3 (measure e s) = true) ∧
    (e ≤ 100 * (getF s F.BEAT_LOCK_CFG_UNLOCK_TOL : Int) → -e ≤ 100 * (getF s F.BEAT_LOCK_CFG_UNLOCK_TOL : Int) →
      lockState (measure e s) = lockLocked) := by
  have hp := stepped_spec e s
  have hlocked : lockState (stepped e s) = lockLocked := hp.lockState_eq.trans h
  rw [measure_eq, lockMeasure_of_locked hlocked, hp.lockCfg_eq (f := F.BEAT_LOCK_CFG_UNLOCK_TOL) rfl]
  refine ⟨fun hout => ?_, fun hle hge => ?_⟩
  · rw [if_pos hout]
    exact ⟨lockState_setLock .., raised_setLock_leave (by decide) hlocked⟩
  · rw [if_neg (by omega)]
    exact hlocked

theorem lockState_measure_of_acquire (h : lockState s = lockAcquire) :
    (100 * (getF s F.BEAT_LOCK_CFG_LOCK_TOL : Int) < e ∨ 100 * (getF s F.BEAT_LOCK_CFG_LOCK_TOL : Int) < -e →
      lockState (measure e s) = lockAcquire ∧ (measure e s).beat.inTol = 0) ∧
    (e ≤ 100 * (getF s F.BEAT_LOCK_CFG_LOCK_TOL : Int) → -e ≤ 100 * (getF s F.BEAT_LOCK_CFG_LOCK_TOL : Int) →
      if getF s F.BEAT_LOCK_CFG_LOCK_FRAMES ≤ frameNow s + 2 - inTolNext s then
        lockState (measure e s) = lockLocked ∧ raised baseBeat 3 (measure e s) = true
      else lockState (measure e s) = lockAcquire) := by
  have hp := stepped_spec e s
  have hacq : lockState (stepped e s) = lockAcquire := hp.lockState_eq.trans h
  rw [measure_eq, lockMeasure_of_acquire hacq, hp.lockCfg_eq (f := F.BEAT_LOCK_CFG_LOCK_TOL) rfl,
    hp.lockCfg_eq (f := F.BEAT_LOCK_CFG_LOCK_FRAMES) rfl, hp.frameNow_eq, hp.inTolNext_eq]
  refine ⟨fun hout => ?_, fun hle hge => ?_⟩
  · rw [if_neg (by omega)]
    exact ⟨(lockState_of_rd (rd_congr rfl _)).trans hacq, rfl⟩
  · have hin : e ≤ 100 * (getF s F.BEAT_LOCK_CFG_LOCK_TOL : Int) ∧ -(100 * (getF s F.BEAT_LOCK_CFG_LOCK_TOL : Int)) ≤ e :=
      ⟨hle, by omega⟩
    rw [if_pos hin]
    by_cases hframes : getF s F.BEAT_LOCK_CFG_LOCK_FRAMES ≤ frameNow s + 2 - inTolNext s
    · rw [if_pos hframes, if_pos hframes]
      exact ⟨lockState_setLock .., raised_setLock_enter (by rw [hacq]; decide)⟩
    · rw [if_neg hframes, if_neg hframes]
      exact (lockState_of_rd (rd_congr rfl _)).trans hacq

theorem afterMeasure_measure : afterMeasure e s (measure e s) := by
  have hp := stepped_spec e s
  have hk := measure_lockKeeps e s
  refine ⟨?err, ?count, hp.parts.trans hk.parts, fun h => ?free, fun h => ?holdover,
    lockState_measure_of_locked e s, lockState_measure_of_acquire e s, fun h => ?step, fun hle hge hfirst => ?stay⟩
  case err => rw [hk.regs.getR (by decide) (by decide), hp.err]
  case count => rw [hk.beat, hp.beat]
  case free =>
    have hfree := hp.lockState_eq.trans h
    rw [measure_eq, lockMeasure_of_free hfree, hfree]
  case holdover =>
    rw [measure_eq, lockMeasure_of_holdover (hp.lockState_eq.trans h)]
    exact lockState_setLock ..
  case step => rw [hk.beat]; exact hp.step h
  case stay => rw [hk.beat]; exact hp.stay hle hge hfirst

theorem exec_ptmExchange (h : Nat) (hsrc : lockSrc s = 1) (hup : isSet s (F.HOST_LINK_STATUS_UP (ptmPort s)) = true) :
    exec (.ptmExchange e h) s =
      .next (measure e { s with beat := { s.beat with hostTime := some (h, s.beat.count) } }) :=
  congrArg Host.Outcome.next (if_pos ⟨hsrc, hup⟩)

theorem exec_syncInEdge (hsrc : lockSrc s = 2) : exec (.syncInEdge e) s = .next (measure e s) :=
  congrArg Host.Outcome.next (if_pos hsrc)

theorem measure_ptmFails : (measure e s).beat.ptmFails = 0 := by
  rw [(measure_lockKeeps e s).beat, (stepped_spec e s).beat]

theorem measure_syncMisses : (measure e s).beat.syncMisses = 0 := by
  rw [(measure_lockKeeps e s).beat, (stepped_spec e s).beat]

theorem measure_hostTime : (measure e s).beat.hostTime = s.beat.hostTime := by
  rw [(measure_lockKeeps e s).beat, (stepped_spec e s).beat]

/-- The host's time is noted before a measurement and has no part in it. -/
theorem afterMeasure_of_hostTime (x : Option (Nat × W64))
    (h : afterMeasure e { s with beat := { s.beat with hostTime := x } } (measure e { s with beat := { s.beat with hostTime := x } })) :
    afterMeasure e s (measure e { s with beat := { s.beat with hostTime := x } }) := by
  generalize measure e { s with beat := { s.beat with hostTime := x } } = t at h ⊢
  obtain ⟨herr, hcount, hparts, hrest⟩ := h
  exact ⟨herr, hcount, .trans (.beat (.refl _ s)) hparts, hrest⟩

end

/-! ### A source that fails (R50, R53) -/

section

variable {s : State}

theorem exec_ptmExchangeFail (notEnabled : Bool) : exec (.ptmExchangeFail notEnabled) s = .next (ptmFailDo notEnabled s) := by
  rfl

theorem exec_syncInMissing : exec .syncInMissing s = .next (syncMissDo s) := by
  rfl

/-- One more failed exchange, one more missing edge. -/
def ptmFailed (s : State) : State := { s with beat := { s.beat with ptmFails := s.beat.ptmFails + 1 } }
def syncMissed (s : State) : State := { s with beat := { s.beat with syncMisses := s.beat.syncMisses + 1 } }

theorem ptmFailDo_of_loss (hl : lockState s = lockAcquire ∨ lockState s = lockLocked) (hsrc : lockSrc s = 1)
    (h : getF s F.BEAT_PTM_CFG_LOSS_COUNT ≤ s.beat.ptmFails + 1) :
    ptmFailDo false s = toHoldover (ptmFailed s) := by
  simp only [ptmFailDo, hsrc, ne_eq, not_true, if_false, Bool.false_eq_true, hl, h, and_self, if_true, ptmFailed]

theorem ptmFailDo_of_few (hsrc : lockSrc s = 1) (h : s.beat.ptmFails + 1 < getF s F.BEAT_PTM_CFG_LOSS_COUNT) :
    ptmFailDo false s = ptmFailed s := by
  simp only [ptmFailDo, hsrc, ne_eq, not_true, if_false, Bool.false_eq_true, Nat.not_le.mpr h, and_false, ptmFailed]

theorem ptmFailDo_of_notEnabled (hsrc : lockSrc s = 1) (h : s.beat.faulted = false) :
    ptmFailDo true s = happen baseBeat 7 { s with beat := { s.beat with faulted := true } } := by
  simp only [ptmFailDo, hsrc, ne_eq, not_true, if_false, if_true, h, Bool.false_eq_true]

theorem syncMissDo_of_loss (hl : lockState s = lockAcquire ∨ lockState s = lockLocked) (hsrc : lockSrc s = 2)
    (h : getF s F.BEAT_SYNC_CFG_MISS_LIMIT ≤ s.beat.syncMisses + 1) : syncMissDo s = toHoldover (syncMissed s) := by
  simp only [syncMissDo, hsrc, ne_eq, not_true, if_false, hl, h, and_self, if_true, syncMissed]

theorem syncMissDo_of_few (hsrc : lockSrc s = 2) (h : s.beat.syncMisses + 1 < getF s F.BEAT_SYNC_CFG_MISS_LIMIT) :
    syncMissDo s = syncMissed s := by
  simp only [syncMissDo, hsrc, ne_eq, not_true, if_false, Nat.not_le.mpr h, and_false, syncMissed]

/-- A lost source leaves the rate and the count (R50). -/
theorem lost_spec {u : State} (hr : u.regs = s.regs) (hc : u.beat.count = s.beat.count) :
    lockState (toHoldover u) = lockHoldover ∧ raised baseBeat 7 (toHoldover u) = true ∧
      getR (toHoldover u) Reg.BEAT_RATE_ADJ = getR s Reg.BEAT_RATE_ADJ ∧ (toHoldover u).beat.count = s.beat.count := by
  refine ⟨lockState_toHoldover u, raised_syncFault _, ?_, (toHoldover_count u).trans hc⟩
  rw [(regsKeptE_toHoldover u).getR (by decide) (by decide), getR_congr _ hr]

end

/-- Settles O6: the three ways of the lock are `ctrlWrite`, `measure` and `toHoldover`, each with its own lemmas. -/
theorem theTimeLockFollowsItsSource : Obligations.TheTimeLockFollowsItsSource := by
  refine ⟨fun s v h => ?write, fun s e => ⟨fun h hsrc hup => ?exchange, fun hsrc => ?edge⟩,
    fun s hl => ⟨fun hsrc hn => ?lost, fun hsrc hn => ?failed, fun hsrc hf => ?notEnabled, fun hsrc hn => ?missing,
      fun hsrc hn => ?missed⟩⟩
  case write =>
    have hk := ctrlKeeps_ctrlWrite v s
    exact ⟨_, exec_beatSrcWrite v h, getR_ctrlWrite v s, hk.count, hk.offset, hk.bgOnly, hk.wins, hk.parts,
      ctrlWrite_of_free, ctrlWrite_of_source⟩
  case exchange =>
    exact ⟨_, exec_ptmExchange e s h hsrc hup, afterMeasure_of_hostTime e s _ (afterMeasure_measure ..),
      measure_ptmFails .., measure_hostTime ..⟩
  case edge => exact ⟨_, exec_syncInEdge e s hsrc, afterMeasure_measure .., measure_syncMisses ..⟩
  case lost =>
    refine ⟨_, exec_ptmExchangeFail false, ?_⟩
    rw [ptmFailDo_of_loss hl hsrc hn]
    exact lost_spec rfl rfl
  case failed => exact ⟨_, exec_ptmExchangeFail false, ptmFailDo_of_few hsrc hn⟩
  case notEnabled =>
    refine ⟨_, exec_ptmExchangeFail true, ?_⟩
    rw [ptmFailDo_of_notEnabled hsrc hf]
    refine ⟨raised_syncFault _, lockState_of_rd ?_⟩
    rw [(evtOnly_happen _ _ _ (by decide) (by decide)).rd (ne_evt (by decide))]
    exact rd_congr rfl _
  case missing =>
    refine ⟨_, exec_syncInMissing, ?_⟩
    rw [syncMissDo_of_loss hl hsrc hn]
    exact lost_spec rfl rfl
  case missed => exact ⟨_, exec_syncInMissing, syncMissDo_of_few hsrc hn⟩

end Sys2Proof.Machine
end

/-! ## The event registers, the interrupt messages and the recorder (R446 to R469) -/

section

-- One proof after another: elaborated side by side, the proofs of this text take more memory than its check allows.
set_option Elab.async false

namespace Sys2Proof.Machine

/-! ### Pages -/

/-- The blocks that the window lays out (R492). -/
structure BlockLaid (ty inst base : Nat) : Prop where
  ty_pos : 1 ≤ ty
  ty_le : ty ≤ 20
  whole : base % 0x1000 = 0
  notCounts : base ≠ 0x5000
  inst_lt : inst < 64
  inst_mapmem : ty = 8 → inst < 4
  inst_host : ty = 14 → inst < 2
  inst_fch : ty = 19 → inst < 32

theorem blockLaid_of_blockOf {a ty inst base : Nat} (h : blockOf a = some (ty, inst, base)) : BlockLaid ty inst base := by
  unfold blockOf at h
  simp only [ite_eq_iff, Option.some.injEq, Prod.mk.injEq, reduceCtorEq, and_false, or_false, false_or] at h
  constructor <;> omega

theorem evtBits_le {ty : Nat} (h1 : 1 ≤ ty) (h20 : ty ≤ 20) : evtBits ty ≤ 32 := by
  interval_cases ty <;> decide

theorem blockOf_of_isPage {base : Nat} (h : isPage base = true) : ∃ ty inst, blockOf base = some (ty, inst, base) := by
  unfold isPage at h
  split at h
  · next ty inst b hb => exact ⟨ty, inst, by rw [hb, of_decide_eq_true h]⟩
  · cases h

/-- What every page's event bits share: the page is whole, and each of its bits has a source. -/
structure EventPage (base : Nat) : Prop where
  whole : base % 0x1000 = 0
  notCounts : base ≠ 0x5000
  bits : pageBits base ≤ 32
  src : ∀ i, i < pageBits base → srcOf base i < 256

theorem eventPage_of_isPage {base : Nat} (h : isPage base = true) : EventPage base := by
  obtain ⟨ty, inst, hb⟩ := blockOf_of_isPage h
  have hlaid := blockLaid_of_blockOf hb
  have hbits : pageBits base = evtBits ty := by rw [pageBits, hb]
  refine ⟨hlaid.whole, hlaid.notCounts, hbits ▸ evtBits_le hlaid.ty_pos hlaid.ty_le, fun i hi => ?_⟩
  obtain ⟨hpos, hle, -, -, hinst, hmapmem, hhost, hfch⟩ := hlaid
  rw [hbits] at hi
  rw [srcOf, hb]
  interval_cases ty <;> simp only [evtBits] at hi ⊢ <;> omega

theorem mem_bitsList {v n i : Nat} : i ∈ bitsList v n ↔ i < n ∧ bitsOf v i 1 = 1 := by
  rw [bitsList, List.mem_filter, List.mem_range, decide_eq_true_eq]

/-! ### EVT_FORCE (R448) -/

/-- One bit written to EVT_FORCE. -/
def forceBit (base : Nat) (t : State) (i : Nat) : State :=
  if causePage base then
    if bitsOf (enWord t base) i 1 = 1 then occur (srcOf base i) 0 true true (eventRest t base) t else t
  else happenAs base i 0 [] true t

theorem forceWrite_eq (base : Nat) (v : W32) (s : State) :
    forceWrite base v s = (bitsList v.toNat (pageBits base)).foldl (forceBit base) s := rfl

section

variable {base : Nat} (hp : EventPage base)
include hp

theorem evtOnly_forceBit {i : Nat} (hi : i < pageBits base) (t : State) : evtOnly t (forceBit base t i) := by
  unfold forceBit
  split
  · split
    · exact evtOnly_occur _ _ _ _ _ _ (hp.src i hi)
    · exact .refl t
  · exact evtOnly_happenAs _ _ _ _ _ _ hp.whole (hp.src i hi)

theorem evtOnly_forceBits {l : List Nat} (hl : ∀ i ∈ l, i < pageBits base) (s : State) :
    evtOnly s (l.foldl (forceBit base) s) :=
  List.foldlRecOn (motive := evtOnly s) l _ (.refl s) fun t ht i hi => ht.trans (evtOnly_forceBit hp (hl i hi) t)

theorem raised_forceBit_same (hc : causePage base = false) {i : Nat} (hi : i < pageBits base) (t : State) :
    raised base i (forceBit base t i) = true := by
  have h32 : i < 32 := hi.trans_le hp.bits
  have hok : (bitF (Reg.EVT_RAW base) i).ok := by simp only [Fld.ok, bitF]; omega
  have h1 : raised base i (setF (bitF (Reg.EVT_RAW base) i) 1 t) = true := by
    rw [raised, getF_setF_same _ _ _ hok]; rfl
  rw [forceBit, if_neg (by rw [hc]; exact Bool.false_ne_true)]
  rw [happenAs]
  dsimp only
  split
  · rw [raised, raw_occur _ _ _ _ _ _ _ _ (hp.src i hi) hp.whole hp.notCounts, getF_setF_ne]
    · exact h1
    · simp only [bitF, Reg.EVT_RAW, Reg.EVT_PEND]; omega
  · exact h1

theorem raised_forceBit_keep (hc : causePage base = false) {i j : Nat} (hi : i < pageBits base) (hj : j < pageBits base)
    {t : State} (h : raised base i t = true) : raised base i (forceBit base t j) = true := by
  rw [forceBit, if_neg (by rw [hc]; exact Bool.false_ne_true)]
  exact raised_happenAs_keep _ _ _ _ _ _ _ _ (hp.src j hj) hp.whole hp.whole hp.notCounts (hi.trans_le hp.bits)
    (hj.trans_le hp.bits) h

theorem raised_forceBits (hc : causePage base = false) {i : Nat} {l : List Nat} (hl : ∀ j ∈ l, j < pageBits base)
    (hi : i < pageBits base) {s : State} (h : i ∈ l ∨ raised base i s = true) :
    raised base i (l.foldl (forceBit base) s) = true := by
  induction l generalizing s with
  | nil => exact h.resolve_left List.not_mem_nil
  | cons j l ih =>
    refine ih (fun k hk => hl k (List.mem_cons_of_mem _ hk)) ?_
    obtain hmem | hset := h
    · obtain rfl | hmem := List.mem_cons.mp hmem
      · exact .inr (raised_forceBit_same hp hc hi s)
      · exact .inl hmem
    · exact .inr (raised_forceBit_keep hp hc hi (hl j List.mem_cons_self) hset)

/-- On a cause page a forced bit sets no cause (R448). -/
theorem getR_raw_forceBits (hc : causePage base = true) {l : List Nat} (hl : ∀ j ∈ l, j < pageBits base) (s : State) :
    getR (l.foldl (forceBit base) s) (Reg.EVT_RAW base) = getR s (Reg.EVT_RAW base) := by
  have hwhole := hp.whole
  have hne := hp.notCounts
  refine List.foldlRecOn (motive := fun t => getR t _ = getR s _) l _ rfl fun t ht j hj => ?_
  refine Eq.trans ?_ ht
  have hsrc := hp.src j (hl j hj)
  rw [forceBit, if_pos hc]
  split
  · refine getR_of_rd (rd_occur _ _ _ _ _ _ _ ?_ ?_)
    · simp only [Reg.EVT_RAW, Reg.EVT_COUNT]; omega
    · simp only [Reg.EVT_RAW, Reg.EVT_INTAKE]; omega
  · rfl

end

/-! ### EVT_EN, EVT_PEND and EVT_ROUTE (R448, R449, R496) -/

theorem changesOnly_onAssert (src : Nat) (s : State) : changesOnly [.regs, .msixDue] s (onAssert src s) := by
  unfold onAssert
  exact .ite (.msixDue (.refl _ s)) (.refl _ s)

/-- A source that becomes enabled asserts itself, and no more. -/
theorem enWrite_spec (base : Nat) (v : W32) (s : State) :
    (∀ a, rd (enWrite base v s) a = rd (setR (Reg.EVT_EN base) (v.toNat % 2 ^ pageBits base) s) a) ∧
      changesOnly [.regs, .msixDue] s (enWrite base v s) := by
  unfold enWrite
  extract_lets n s1
  refine List.foldlRecOn (motive := fun t => (∀ a, rd t a = rd s1 a) ∧ changesOnly [.regs, .msixDue] s t) _ _
    ⟨fun _ => rfl, .setR (.refl _ s) _ _⟩ fun t ht i _ => ?_
  split
  · exact ⟨fun a => (rd_onAssert _ _ _).trans (ht.1 a), ht.2.trans (changesOnly_onAssert _ t)⟩
  · exact ht

theorem enWord_enWrite (base : Nat) (v : W32) (s : State) :
    enWord (enWrite base v s) base =
      if base = baseRec then Nat.lor (v.toNat % 2 ^ pageBits base) 0x60 else v.toNat % 2 ^ pageBits base := by
  have hlt : v.toNat % 2 ^ pageBits base < 2 ^ 32 := (Nat.mod_le _ _).trans_lt v.isLt
  rw [enWord, getR_of_rd ((enWrite_spec base v s).1 _), getR_setR_same, Nat.mod_eq_of_lt hlt]

theorem bitsOf_one (x i : Nat) : bitsOf x i 1 = if x.testBit i then 1 else 0 := by
  rw [bitsOf, pow_one, Nat.testBit_eq_decide_div_mod_eq]
  have h := Nat.mod_two_eq_zero_or_one (x / 2 ^ i)
  obtain h | h := h <;> rw [h] <;> rfl

/-- The bits of a word that a mask of ones written clears. -/
theorem bitsOf_land_mask (x v : Nat) {i : Nat} (hi : i < 32) :
    bitsOf (Nat.land x (Nat.xor (v % 2 ^ 32) 0xFFFFFFFF)) i 1 = if bitsOf v i 1 = 1 then 0 else bitsOf x i 1 := by
  have hmask : (Nat.land x (Nat.xor (v % 2 ^ 32) 0xFFFFFFFF)).testBit i = (x.testBit i && !v.testBit i) := by
    have hones : (0xFFFFFFFF : Nat).testBit i = true := by
      rw [show (0xFFFFFFFF : Nat) = 2 ^ 32 - 1 by norm_num, Nat.testBit_two_pow_sub_one, decide_eq_true hi]
    show (x &&& ((v % 2 ^ 32) ^^^ 0xFFFFFFFF)).testBit i = _
    rw [Nat.testBit_and, Nat.testBit_xor, Nat.testBit_mod_two_pow, hones, decide_eq_true hi]
    simp
  rw [bitsOf_one, hmask, bitsOf_one, bitsOf_one]
  cases v.testBit i <;> simp

/-- The word of EVT_PEND or of EVT_RAW with the bits written as 1 cleared. -/
def maskedWord (s : State) (a v : Nat) : Nat := Nat.land (getR s a) (Nat.xor (v % 2 ^ 32) 0xFFFFFFFF)

theorem maskedWord_lt (s : State) (a v : Nat) : maskedWord s a v < 2 ^ 32 := Nat.and_lt_two_pow _ (by
  refine Nat.xor_lt_two_pow (Nat.mod_lt _ (by positivity)) (by norm_num))

theorem pendWrite_of_cause {base : Nat} (v : W32) (s : State) (h : causePage base = true) : pendWrite base v s = s :=
  if_pos h

theorem pendWrite_of_ordinary {base : Nat} (v : W32) (s : State) (h : causePage base = false) :
    pendWrite base v s = setR (Reg.EVT_RAW base) (maskedWord s (Reg.EVT_RAW base) v.toNat)
      (setR (Reg.EVT_PEND base) (maskedWord s (Reg.EVT_PEND base) v.toNat) s) :=
  if_neg (by rw [h]; exact Bool.false_ne_true)

/-- The word that EVT_ROUTE takes: the targets and the core as written, REC fixed for sources 221 and 222, and SEV as
written where it is writable. -/
def routeWord (src : Nat) (v : W32) (s : State) : Nat :=
  (if src = 221 ∨ src = 222 then putBits (bitsOf v.toNat 0 8) 3 1 1 else bitsOf v.toNat 0 8) +
    256 * (if 248 ≤ src then bitsOf v.toNat 8 3 else bitsOf (getR s (Reg.EVT_ROUTE src)) 8 3)

theorem routeWrite_spec (src : Nat) (v : W32) (s : State) :
    (∀ a, rd (routeWrite src v s) a = rd (setR (Reg.EVT_ROUTE src) (routeWord src v s) s) a) ∧
      changesOnly [.regs, .msixDue] s (routeWrite src v s) := by
  unfold routeWrite
  extract_lets old lo lo' sev s1
  split
  · exact ⟨fun a => rd_onAssert _ _ _, .trans (.setR (.refl _ s) _ _) (changesOnly_onAssert _ s1)⟩
  · exact ⟨fun _ => rfl, .setR (.refl _ s) _ _⟩

section

variable (src : Nat) (v : W32) (s : State)

theorem routeTargets_lt : (if src = 221 ∨ src = 222 then putBits (bitsOf v.toNat 0 8) 3 1 1 else bitsOf v.toNat 0 8) < 256 := by
  have h := bitsOf_lt v.toNat 0 8
  split
  · exact putBits_lt _ _ _ _ 8 h (by decide)
  · exact h

theorem routeWord_lt : routeWord src v s < 2 ^ 32 := by
  have hlo := routeTargets_lt src v
  have hsev : (if 248 ≤ src then bitsOf v.toNat 8 3 else bitsOf (getR s (Reg.EVT_ROUTE src)) 8 3) < 8 := by
    split <;> exact bitsOf_lt _ 8 3
  unfold routeWord
  omega

theorem bitsOf_below (x y : Nat) {lo w : Nat} (h : lo + w ≤ 8) : bitsOf (x + 256 * y) lo w = bitsOf x lo w := by
  have key (z : Nat) : bitsOf z lo w = z % 2 ^ (lo + w) / 2 ^ lo := by
    rw [bitsOf, pow_add, Nat.mod_mul_right_div_self]
  obtain ⟨m, hm⟩ := Nat.exists_eq_add_of_le h
  have h256 : (256 : Nat) = 2 ^ (lo + w) * 2 ^ m := by rw [← pow_add, ← hm]; norm_num
  rw [key, key, h256, mul_assoc, Nat.add_mul_mod_self_left]

theorem bitsOf_bitsOf_byte (x : Nat) {lo w : Nat} (h : lo + w ≤ 8) : bitsOf (bitsOf x 0 8) lo w = bitsOf x lo w := by
  have hx : x = bitsOf x 0 8 + 256 * (x / 256) := by
    rw [bitsOf, pow_zero, Nat.div_one]
    omega
  conv_rhs => rw [hx]
  exact (bitsOf_below _ _ h).symm

theorem bitsOf_routeTargets {lo w : Nat} (h : lo + w ≤ 8) (hrec : lo + w ≤ 3 ∨ 4 ≤ lo) :
    bitsOf (routeWord src v s) lo w = bitsOf v.toNat lo w := by
  rw [routeWord, bitsOf_below _ _ h]
  split
  · refine Eq.trans ?_ (bitsOf_bitsOf_byte v.toNat h)
    obtain h3 | h4 := hrec
    · exact bitsOf_putBits_below _ _ _ _ _ _ h3
    · exact bitsOf_putBits_above _ _ _ _ _ _ h4
  · exact bitsOf_bitsOf_byte _ h

theorem bitsOf_routeRec :
    bitsOf (routeWord src v s) 3 1 = if src = 221 ∨ src = 222 then 1 else bitsOf v.toNat 3 1 := by
  rw [routeWord, bitsOf_below _ _ (by decide)]
  split
  · exact bitsOf_putBits ..
  · exact bitsOf_bitsOf_byte _ (by decide)

theorem bitsOf_routeSev :
    bitsOf (routeWord src v s) 8 3 =
      if 248 ≤ src then bitsOf v.toNat 8 3 else bitsOf (getR s (Reg.EVT_ROUTE src)) 8 3 := by
  have hlo := routeTargets_lt src v
  have hsev : (if 248 ≤ src then bitsOf v.toNat 8 3 else bitsOf (getR s (Reg.EVT_ROUTE src)) 8 3) < 8 := by
    split <;> exact bitsOf_lt _ 8 3
  rw [routeWord]
  generalize (if 248 ≤ src then bitsOf v.toNat 8 3 else bitsOf (getR s (Reg.EVT_ROUTE src)) 8 3) = y at hsev ⊢
  simp only [bitsOf] at hlo ⊢
  omega

theorem getF_routeWrite (f : Fld) (hf : f.addr = Reg.EVT_ROUTE src) :
    getF (routeWrite src v s) f = bitsOf (routeWord src v s) f.lo f.w := by
  rw [getF, getR_of_rd ((routeWrite_spec src v s).1 _), hf, getR_setR_same, Nat.mod_eq_of_lt (routeWord_lt src v s)]

end

section

variable {base : Nat} (v : W32) {s : State} (hpage : isPage base = true)
include hpage

theorem exec_evtForceWrite (h : reach s (Reg.EVT_FORCE base) = .ok) :
    exec (.evtForceWrite base v) s = .next (forceWrite base v s) :=
  congrArg Host.Outcome.next ((if_pos hpage).trans (guarded_ok _ h))

theorem exec_evtEnWrite (h : reach s (Reg.EVT_EN base) = .ok) :
    exec (.evtEnWrite base v) s = .next (enWrite base v s) :=
  congrArg Host.Outcome.next ((if_pos hpage).trans (guarded_ok _ h))

theorem exec_evtPendClear (h : reach s (Reg.EVT_PEND base) = .ok) :
    exec (.evtPendClear base v) s = .next (pendWrite base v s) :=
  congrArg Host.Outcome.next ((if_pos hpage).trans (guarded_ok _ h))

end

theorem exec_evtRouteWrite {src : Nat} (v : W32) {s : State} (hsrc : src < 256) (h : reach s (Reg.EVT_ROUTE src) = .ok) :
    exec (.evtRouteWrite src v) s = .next (routeWrite src v s) :=
  congrArg Host.Outcome.next ((if_pos hsrc).trans (guarded_ok _ h))

/-- What a write of EVT_PEND leaves on an ordinary page, word by word. -/
theorem pendWrite_spec {base : Nat} (v : W32) (s : State) (hc : causePage base = false) :
    (∀ i, i < 32 → bitsOf (getR (pendWrite base v s) (Reg.EVT_PEND base)) i 1 =
      if bitsOf v.toNat i 1 = 1 then 0 else bitsOf (getR s (Reg.EVT_PEND base)) i 1) ∧
    (∀ i, i < 32 → bitsOf (getR (pendWrite base v s) (Reg.EVT_RAW base)) i 1 =
      if bitsOf v.toNat i 1 = 1 then 0 else bitsOf (getR s (Reg.EVT_RAW base)) i 1) ∧
    regsKept (fun a => a = Reg.EVT_PEND base ∨ a = Reg.EVT_RAW base) s (pendWrite base v s) ∧
    changesOnly [.regs] s (pendWrite base v s) := by
  have hne : Reg.EVT_PEND base ≠ Reg.EVT_RAW base := by simp only [Reg.EVT_PEND, Reg.EVT_RAW]; omega
  rw [pendWrite_of_ordinary v s hc]
  refine ⟨fun i hi => ?_, fun i hi => ?_, .setR (.setR (.refl s) _ _) _ _, .setR (.setR (.refl _ s) _ _) _ _⟩
  · rw [getR_setR_ne _ _ hne, getR_setR_same, Nat.mod_eq_of_lt (maskedWord_lt ..)]
    exact bitsOf_land_mask _ _ hi
  · rw [getR_setR_same, Nat.mod_eq_of_lt (maskedWord_lt ..)]
    exact bitsOf_land_mask _ _ hi

/-- Settles O7: EVT_FORCE is a fold of forced happenings, and the other three are one register write each, whose
fields are cut from the word written. -/
theorem eventRegistersAct : Obligations.EventRegistersAct := by
  refine ⟨fun s base v hpage h => ?force, fun s base v hpage => ⟨fun h => ?enable, fun h hc => ?pend, fun h hc => ?cause⟩,
    fun s src v hsrc h => ?route⟩
  case force =>
    have hp := eventPage_of_isPage hpage
    have hl : ∀ j ∈ bitsList v.toNat (pageBits base), j < pageBits base := fun j hj => (mem_bitsList.mp hj).1
    have hev := evtOnly_forceBits hp hl s
    rw [← forceWrite_eq] at hev
    refine ⟨_, exec_evtForceWrite v hpage h, hev, fun hc i hi hbit => ?_, fun hc => ?_, hev.part (p := .grout) (by decide)⟩
    · rw [forceWrite_eq]
      exact raised_forceBits hp hc hl hi (.inl (mem_bitsList.mpr ⟨hi, hbit⟩))
    · rw [forceWrite_eq]
      exact getR_raw_forceBits hp hc hl s
  case enable =>
    have ⟨hregs, hparts⟩ := enWrite_spec base v s
    exact ⟨_, exec_evtEnWrite v hpage h, enWord_enWrite base v s, fun a ha => (hregs a).trans (rd_setR_ne _ _ ha), hparts⟩
  case pend => exact ⟨_, exec_evtPendClear v hpage h, pendWrite_spec v s hc⟩
  case cause =>
    rw [completes, exec_evtPendClear v hpage h, pendWrite_of_cause v s hc]
  case route =>
    have ⟨hregs, hparts⟩ := routeWrite_spec src v s
    refine ⟨_, exec_evtRouteWrite v hsrc h, ?_, ?_, ?_, ?_, ?_, ?_, fun a ha => (hregs a).trans (rd_setR_ne _ _ ha), hparts⟩
    all_goals refine (getF_routeWrite src v s _ rfl).trans ?_
    · exact bitsOf_routeTargets src v s (lo := 0) (w := 1) (by decide) (by decide)
    · exact bitsOf_routeTargets src v s (lo := 1) (w := 1) (by decide) (by decide)
    · exact bitsOf_routeTargets src v s (lo := 2) (w := 1) (by decide) (by decide)
    · exact bitsOf_routeRec src v s
    · exact bitsOf_routeTargets src v s (lo := 4) (w := 4) (by decide) (by decide)
    · exact bitsOf_routeSev src v s

/-! ### Interrupt messages and firmware events (R450, R453) -/

theorem exec_evtMsixSend (p : Nat) (deliverable : Bool) (s : State) :
    exec (.evtMsixSend p deliverable) s = .next (msixSend p deliverable s) := by
  rfl

theorem exec_evtFwRaiseWrite (v : W32) {s : State} (h : reach s Reg.EVT_FW_RAISE = .ok) :
    exec (.evtFwRaiseWrite v) s = .next (fwRaise v s) :=
  congrArg Host.Outcome.next (guarded_ok _ h)

/-- A port's message is no longer due, and its beat is noted. -/
def msixTaken (p : Nat) (s : State) : State :=
  { s with
    msixDue := removeNat p s.msixDue
    msixBeat := tset (fun _ => 0) p (beatNow s + 1) s.msixBeat }

theorem changesOnly_msixTaken (p : Nat) (s : State) : changesOnly [.msixDue, .msixBeat] s (msixTaken p s) :=
  .msixBeat (t := { s with msixDue := removeNat p s.msixDue }) (.msixDue (.refl _ s))

theorem not_mem_removeNat (p : Nat) (l : List Nat) : p ∉ removeNat p l := by
  simp [removeNat]

section

variable {p : Nat} {s : State} (hdue : p ∈ s.msixDue) (hbeat : tget (fun _ => 0) s.msixBeat p ≠ beatNow s + 1)
include hdue hbeat

theorem msixSend_of_up (hup : isSet s (F.HOST_LINK_STATUS_UP p) = true) :
    msixSend p true s =
      emit (.msix (32 * p) (getF s (if p = 0 then F.EVT_MSIX_A_VECTOR else F.EVT_MSIX_B_VECTOR))) (msixTaken p s) := by
  have hmem : s.msixDue.contains p = true := List.contains_iff_mem.mpr hdue
  simp only [msixSend, hmem, hbeat, ne_eq, not_false_eq_true, and_self, if_true, hup, Bool.and_self, msixTaken]

theorem msixSend_of_lost :
    msixSend p false s = oncePerFrame 1001 (happen baseEvt 0) (addF F.EVT_MSIX_LOST_COUNT 1 (msixTaken p s)) := by
  have hmem : s.msixDue.contains p = true := List.contains_iff_mem.mpr hdue
  simp only [msixSend, hmem, hbeat, ne_eq, not_false_eq_true, and_self, if_true, Bool.false_and, Bool.false_eq_true,
    if_false, msixTaken]

end

/-- What a once-a-frame event does: nothing where it has been raised in the frame, else the event. -/
theorem oncePerFrame_cases (key : Nat) (f : State → State) (s : State) :
    key ∈ s.beat.frameRaised ∧ oncePerFrame key f s = s ∨
      key ∉ s.beat.frameRaised ∧
        oncePerFrame key f s = f { s with beat := { s.beat with frameRaised := key :: s.beat.frameRaised } } := by
  by_cases h : key ∈ s.beat.frameRaised
  · exact .inl ⟨h, if_pos (List.contains_iff_mem.mpr h)⟩
  · exact .inr ⟨h, if_neg fun hc => h (List.contains_iff_mem.mp hc)⟩

theorem getF_msixLost (p : Nat) (s : State) :
    getF (addF F.EVT_MSIX_LOST_COUNT 1 (msixTaken p s)) F.EVT_MSIX_LOST_COUNT =
      min (2 ^ 32 - 1) (getF s F.EVT_MSIX_LOST_COUNT + 1) := by
  rw [getF_addF_same _ _ _ (by unfold Fld.ok; decide), getF_congr (s := s) (t := msixTaken p s)]

/-- The event of lost messages, raised at most once a frame, leaves what has left the part, the count and the beats. -/
theorem msixLostEvent_spec (s : State) :
    ∃ t, oncePerFrame 1001 (happen baseEvt 0) s = t ∧ t.out = s.out ∧
      getF t F.EVT_MSIX_LOST_COUNT = getF s F.EVT_MSIX_LOST_COUNT ∧
      (1001 ∉ s.beat.frameRaised → raised baseEvt 0 t = true) ∧ t.msixBeat = s.msixBeat := by
  refine ⟨_, rfl, ?_⟩
  obtain ⟨hmem, heq⟩ | ⟨-, heq⟩ := oncePerFrame_cases 1001 (happen baseEvt 0) s
  · rw [heq]
    exact ⟨rfl, rfl, fun h => absurd hmem h, rfl⟩
  · rw [heq, happen_out, happen_msixBeat, getF_happen (by decide) (by decide) (by decide)]
    exact ⟨rfl, getF_congr _, fun _ => raised_happen _ _ _ (by decide) (by decide) (by decide) (by decide), rfl⟩

/-- A message that cannot be delivered is counted, and its event raised once a frame. -/
theorem msixLost_spec (p : Nat) (s : State) :
    ∃ t, oncePerFrame 1001 (happen baseEvt 0) (addF F.EVT_MSIX_LOST_COUNT 1 (msixTaken p s)) = t ∧ t.out = s.out ∧
      getF t F.EVT_MSIX_LOST_COUNT = min (2 ^ 32 - 1) (getF s F.EVT_MSIX_LOST_COUNT + 1) ∧
      (1001 ∉ s.beat.frameRaised → raised baseEvt 0 t = true) ∧ tget (fun _ => 0) t.msixBeat p = beatNow s + 1 := by
  obtain ⟨t, ht, hout, hcount, hraised, hbeats⟩ := msixLostEvent_spec (addF F.EVT_MSIX_LOST_COUNT 1 (msixTaken p s))
  rw [addF_out] at hout
  rw [addF_beat] at hraised
  rw [addF_msixBeat] at hbeats
  refine ⟨t, ht, hout, hcount.trans (getF_msixLost p s), hraised, ?_⟩
  rw [hbeats]
  exact tget_tset_same (fun _ => 0) p (beatNow s + 1) s.msixBeat

theorem fwRaise_of_ignored {v : W32} (s : State) (h : bitsOf v.toNat 0 8 < 248 ∨ bitsOf v.toNat 8 8 < 128) :
    fwRaise v s = s := by
  rw [fwRaise]
  exact if_neg (by omega)

/-- A record request that is not held leaves an entry of its source in the intake. -/
theorem request_intake (src typ : Nat) (fo co : Bool) (l : List Byte) {s : State} (h : asleep s = false) :
    ∃ e ∈ (request src typ fo co l s).recd.intake, e.src = src := by
  unfold request
  rw [if_neg (by rw [h]; exact Bool.false_ne_true)]
  split
  · next hany =>
    obtain ⟨e, he, hsrc⟩ := List.any_eq_true.mp hany
    have hsrc : e.src = src := by simpa using hsrc
    refine ⟨_, List.mem_map_of_mem he, ?_⟩
    rw [if_pos hsrc]
    exact hsrc
  · rw [maxF_recd]
    exact ⟨_, List.mem_append_right _ (List.mem_singleton.mpr rfl), rfl⟩

theorem evtOnly_addCount {src : Nat} (hsrc : src < 256) (s : State) : evtOnly s (addF (F.EVT_COUNT_COUNT src) 1 s) := by
  refine ⟨(changesOnly.addF (.refl [.regs] s) _ _).mono (by decide), fun a _ he => rd_addF_ne _ _ _ fun h => he ?_⟩
  simp only [eventReg, h, Reg.EVT_COUNT]
  omega

theorem fwRaise_spec {v : W32} (s : State) (hsrc : 248 ≤ bitsOf v.toNat 0 8) (htyp : 128 ≤ bitsOf v.toNat 8 8) :
    evtOnly s (fwRaise v s) ∧
      getF (fwRaise v s) (F.EVT_COUNT_COUNT (bitsOf v.toNat 0 8)) =
        min (2 ^ 32 - 1) (getF s (F.EVT_COUNT_COUNT (bitsOf v.toNat 0 8)) + 1) ∧
      (isSet s (F.EVT_ROUTE_REC (bitsOf v.toNat 0 8)) = true → asleep s = false →
        ∃ e ∈ (fwRaise v s).recd.intake, e.src = bitsOf v.toNat 0 8) := by
  have hlt := bitsOf_lt v.toNat 0 8
  unfold fwRaise
  extract_lets src typ n body s1
  rw [if_pos ⟨hsrc, htyp⟩]
  have hcount : evtOnly s s1 := evtOnly_addCount hlt s
  have hget := getF_addF_same (F.EVT_COUNT_COUNT src) 1 s (by decide : 0 + 32 ≤ 32)
  have hroute : isSet s1 (F.EVT_ROUTE_REC src) = isSet s (F.EVT_ROUTE_REC src) :=
    isSet_of_getF (hcount.getF (ne_evt (by simp only [Reg.EVT_ROUTE]; omega)))
  have hasleep : asleep s1 = asleep s := by
    rw [asleep, asleep, hcount.getF (ne_evt (by decide))]
  split
  · refine ⟨hcount.trans (evtOnly_request ..), ?_, fun _ hs => request_intake _ _ _ _ _ (hasleep.trans hs)⟩
    rw [getF_request_count, hget]
  · next hoff => exact ⟨hcount, hget, fun hon _ => absurd (hroute.trans hon) hoff⟩

/-! ### The recorder's intake (R455, R458, R461) -/

section

variable (s : State) (es : List IntakeEnt) (r : Rec)

/-- An entry has left the intake, and the next sequence number is given. -/
def seqTaken : State :=
  setF F.REC_NEXT_SEQ_SEQ (getF s F.REC_NEXT_SEQ_SEQ + 1) { s with recd := { s.recd with intake := es } }

theorem stickyCopy_eq : ∃ l, stickyCopy r s = { s with recd := { s.recd with sticky := l } } := by
  unfold stickyCopy
  split
  · exact ⟨_, rfl⟩
  · exact ⟨s.recd.sticky, rfl⟩

theorem setRing_eq (l : List Rec) : ∃ k, setRing l s = { s with recd := { s.recd with ring := l, sticky := k } } := ⟨_, rfl⟩

/-- The recorder as `placeRec` finds it: the entry gone, its number given, a CRITICAL record copied. -/
structure Taken (u : State) : Prop where
  regs : regsKept (· = Reg.REC_NEXT_SEQ) s u
  seq : getF u F.REC_NEXT_SEQ_SEQ = (getF s F.REC_NEXT_SEQ_SEQ + 1) % 2 ^ 32
  parts : changesOnly [.regs, .recd] s u
  intake : u.recd.intake = es
  ring : u.recd.ring = s.recd.ring
  fifo : u.recd.fifo = s.recd.fifo

theorem taken_stickyCopy : Taken s es (stickyCopy r (seqTaken s es)) := by
  have hregs : regsKept (· = Reg.REC_NEXT_SEQ) s (seqTaken s es) :=
    .setF (t := { s with recd := { s.recd with intake := es } }) (.of_regs rfl) _ _
  have hseq : getF (seqTaken s es) F.REC_NEXT_SEQ_SEQ = (getF s F.REC_NEXT_SEQ_SEQ + 1) % 2 ^ 32 :=
    getF_setF_same _ _ _ (by unfold Fld.ok; decide)
  have hparts : changesOnly [.regs, .recd] s (seqTaken s es) := .setF (.recd (.refl _ s)) _ _
  obtain ⟨l, hl⟩ := stickyCopy_eq (seqTaken s es) r
  rw [hl]
  exact ⟨hregs.congr rfl, (getF_congr (s := seqTaken s es) _).trans hseq, .recd hparts, rfl, rfl, rfl⟩

variable {s es}

theorem Taken.frozen_eq {u : State} (h : Taken s es u) : frozen u = frozen s :=
  isSet_of_getF (h.regs.getF (by decide))

theorem Taken.ringCap_eq {u : State} (h : Taken s es u) : ringCap u = ringCap s := by
  rw [ringCap, ringCap, isSet_of_getF (h.regs.getF (f := F.REC_STATUS_MEM_FAILED) (by decide))]

/-- What the recorder's lists become does not touch what an intake leaves besides them. -/
theorem Taken.recd_only {u : State} (h : Taken s es u) (x : RecSt) :
    getF { u with recd := x } F.REC_NEXT_SEQ_SEQ = (getF s F.REC_NEXT_SEQ_SEQ + 1) % 2 ^ 32 ∧
      regsKept (· = Reg.REC_NEXT_SEQ) s { u with recd := x } ∧ changesOnly [.regs, .recd] s { u with recd := x } :=
  ⟨(getF_congr (s := u) _).trans h.seq, h.regs.congr rfl, .recd h.parts⟩

theorem takeIn_eq {e : IntakeEnt} (hin : s.recd.intake = e :: es) (htyp : e.typ ≠ 3) :
    takeIn s = placeRec (recOf e (getF s F.REC_NEXT_SEQ_SEQ) s.recd.dropSum)
      (stickyCopy (recOf e (getF s F.REC_NEXT_SEQ_SEQ) s.recd.dropSum) (seqTaken s es)) := by
  have hfld : getF { s with recd := { s.recd with intake := es } } F.REC_NEXT_SEQ_SEQ = getF s F.REC_NEXT_SEQ_SEQ :=
    getF_congr _
  simp only [takeIn, hin, nextSeq, hfld, htyp, false_and, if_false, seqTaken]

theorem placeRec_of_room {u : State} (hfroz : frozen u = false) (hroom : u.recd.ring.length < ringCap u) :
    placeRec r u = setRing (u.recd.ring ++ [r]) u := by
  rw [placeRec, if_neg (by rw [hfroz]; exact Bool.false_ne_true), storeRec, if_pos hroom]

theorem placeRec_of_frozen {u : State} (hfroz : frozen u = true) (hsev : r.sev < 4) (hroom : u.recd.fifo.length < 63) :
    placeRec r u = { u with recd := { u.recd with fifo := u.recd.fifo ++ [r] } } := by
  rw [placeRec, if_pos hfroz, if_neg (Nat.not_le.mpr hsev), if_pos (.inl hroom)]

theorem exec_recordIntake (h : modeNow s ≠ 15) : exec .recordIntake s = .next (takeIn s) :=
  congrArg Host.Outcome.next (if_neg h)

end

/-- Settles O8: a message due is sent or counted, a firmware event is one occurrence, and an intake entry becomes a
record where `placeRec` finds room. -/
theorem eventsAreSentAndRecorded : Obligations.EventsAreSentAndRecorded := by
  refine ⟨fun s => ⟨fun p hdue hbeat hup => ?sent, fun p hdue hbeat => ?lost, fun v h hsrc htyp => ?raise,
    fun v h hbad => ?ignored⟩, fun s e es hmode hin htyp => ⟨fun hfroz hroom => ?ring, fun hfroz hsev hroom => ?fifo⟩⟩
  case sent =>
    refine ⟨_, exec_evtMsixSend p true s, ?_⟩
    rw [msixSend_of_up hdue hbeat hup]
    exact ⟨not_mem_removeNat p s.msixDue, rfl, .emit ((changesOnly_msixTaken p s).mono (by decide)) _⟩
  case lost =>
    obtain ⟨t, ht, hspec⟩ := msixLost_spec p s
    refine ⟨t, ?_, hspec⟩
    rw [completes, exec_evtMsixSend, msixSend_of_lost hdue hbeat, ht]
  case raise => exact ⟨_, exec_evtFwRaiseWrite v h, fwRaise_spec s hsrc htyp⟩
  case ignored => rw [completes, exec_evtFwRaiseWrite v h, fwRaise_of_ignored s hbad]
  case ring =>
    have hu := taken_stickyCopy s es (recOf e (getF s F.REC_NEXT_SEQ_SEQ) s.recd.dropSum)
    refine ⟨_, exec_recordIntake hmode, ?_⟩
    rw [takeIn_eq hin htyp, placeRec_of_room _ (hu.frozen_eq.trans hfroz) (by rw [hu.ring, hu.ringCap_eq]; exact hroom)]
    exact ⟨hu.intake, congrArg (· ++ _) hu.ring, hu.recd_only _⟩
  case fifo =>
    have hu := taken_stickyCopy s es (recOf e (getF s F.REC_NEXT_SEQ_SEQ) s.recd.dropSum)
    refine ⟨_, exec_recordIntake hmode, ?_⟩
    rw [takeIn_eq hin htyp, placeRec_of_frozen _ (hu.frozen_eq.trans hfroz) hsev (by rw [hu.fifo]; exact hroom)]
    exact ⟨hu.intake, hu.ring, congrArg (· ++ _) hu.fifo, hu.recd_only _⟩

/-! ### The read window (R460) -/

section

variable (s : State)

/-- The records that the window shows from a sequence number on. -/
def snapFrom (s : State) (q : Nat) : List Rec :=
  (fitRecs 4096 (s.recd.ring.filter (fun r => decide (q ≤ r.seq)))).take 256

theorem snapshot_recd : (snapshot s).recd = { s.recd with snap := snapFrom s (getF s F.REC_CURSOR_SEQ) } := by
  simp only [snapshot, setF_recd, snapFrom]

theorem changesOnly_snapshot : changesOnly [.regs, .recd] s (snapshot s) := by
  unfold snapshot
  exact .setF (.setF (.setF (.setF (.setF (.recd (.refl _ s)) _ _) _ _) _ _) _ _) _ _

theorem getR_snapshot_cursor : getR (snapshot s) Reg.REC_CURSOR = getR s Reg.REC_CURSOR := by
  unfold snapshot
  extract_lets cur l first
  iterate 5 rw [getR_setF_ne _ _ _ (by decide)]
  exact getR_congr _

theorem getF_snapshot_count :
    getF (snapshot s) F.REC_WIN_INFO_COUNT = (snapFrom s (getF s F.REC_CURSOR_SEQ)).length % 2 ^ 9 := by
  unfold snapshot
  extract_lets cur l first
  iterate 2 rw [getF_setF_ne _ _ _ _ (by decide)]
  exact getF_setF_same _ _ _ (by unfold Fld.ok; decide)

theorem exec_recCursorWrite (v : W32) (h : reach s Reg.REC_CURSOR = .ok) :
    exec (.recCursorWrite v) s = .next (recCursorDo v.toNat s) :=
  congrArg Host.Outcome.next (guarded_ok _ h)

theorem exec_recRefill (h : reach s Reg.REC_CTRL = .ok) : exec .recRefill s = .next (snapshot s) :=
  congrArg Host.Outcome.next (guarded_ok _ h)

theorem exec_recNext (h : reach s Reg.REC_CTRL = .ok) : exec .recNext s = .next (recNextDo s) :=
  congrArg Host.Outcome.next (guarded_ok _ h)

/-- A cursor that takes a value shows the records from that value on. -/
theorem snap_of_cursor {q : Nat} (hq : q < 2 ^ 32) {t : State} (hring : t.recd.ring = s.recd.ring)
    (hcur : getR t Reg.REC_CURSOR = q) :
    (snapshot t).recd.snap = snapFrom s q ∧ getF (snapshot t) F.REC_CURSOR_SEQ = q := by
  have hread : getF t F.REC_CURSOR_SEQ = q := by
    rw [getF, hcur, bitsOf, pow_zero, Nat.div_one, Nat.mod_eq_of_lt hq]
  refine ⟨?_, ?_⟩
  · rw [snapshot_recd, snapFrom, hring, hread, snapFrom]
  · rw [getF, getR_snapshot_cursor]
    exact hread

theorem recNextDo_of_last {r : Rec} (hlast : s.recd.snap.getLast? = some r) :
    recNextDo s = snapshot (setF F.REC_CURSOR_SEQ (r.seq + 1) s) := by
  rw [recNextDo, hlast]

end

/-! ### The end of a freeze (R461) -/

section

variable {s t : State}

/-- A step that leaves the recorder's status and its holding FIFO. -/
structure FifoKept (s t : State) : Prop where
  status : rd t Reg.REC_STATUS = rd s Reg.REC_STATUS
  fifo : t.recd.fifo = s.recd.fifo

namespace FifoKept

theorem refl (s : State) : FifoKept s s := ⟨rfl, rfl⟩

theorem trans {u : State} (h : FifoKept s t) (k : FifoKept t u) : FifoKept s u :=
  ⟨k.status.trans h.status, k.fifo.trans h.fifo⟩

theorem congr {u : State} (h : FifoKept s t) (hr : u.regs = t.regs := by rfl)
    (hf : u.recd.fifo = t.recd.fifo := by rfl) : FifoKept s u := ⟨(rd_congr hr _).trans h.status, hf.trans h.fifo⟩

theorem request (src typ : Nat) (fo co : Bool) (l : List Byte) (s : State) : FifoKept s (request src typ fo co l s) := by
  refine ⟨rd_request _ _ _ _ _ _ _ (by decide), ?_⟩
  unfold Machine.request
  split
  · rfl
  · split
    · rfl
    · rw [maxF_recd]
      rfl

theorem onAssert (src : Nat) (s : State) : FifoKept s (onAssert src s) := by
  refine ⟨rd_onAssert _ _ _, ?_⟩
  unfold Machine.onAssert
  split <;> rfl

theorem addF {f : Fld} (h : FifoKept s t) (n : Nat) (hf : f.addr ≠ Reg.REC_STATUS) : FifoKept s (addF f n t) :=
  ⟨(rd_addF_ne _ _ _ hf.symm).trans h.status, by rw [addF_recd]; exact h.fifo⟩

theorem setF {f : Fld} (h : FifoKept s t) (v : Nat) (hf : f.addr ≠ Reg.REC_STATUS) : FifoKept s (setF f v t) :=
  ⟨(rd_setF_ne _ _ _ hf.symm).trans h.status, by rw [setF_recd]; exact h.fifo⟩

theorem ite {c : Prop} [Decidable c] {u : State} (ht : FifoKept s t) (hu : FifoKept s u) :
    FifoKept s (if c then t else u) := by
  split <;> assumption

theorem occur {src typ : Nat} {fo was : Bool} {l : List Byte} (h : FifoKept s t) (hsrc : src < 256) :
    FifoKept s (occur src typ fo was l t) := by
  have hcount : FifoKept s (Machine.addF (F.EVT_COUNT_COUNT src) 1 t) :=
    h.addF 1 (by simp only [Reg.EVT_COUNT, Reg.REC_STATUS]; omega)
  unfold Machine.occur
  dsimp only
  refine .ite (.ite (hcount.trans (.request ..)) hcount) (.trans ?_ (.onAssert ..))
  exact .ite (hcount.trans (.request ..)) hcount

theorem happen (h : FifoKept s t) (i : Nat) (hsrc : srcOf baseRec i < 256) : FifoKept s (happen baseRec i t) := by
  unfold Machine.happen happenAs
  dsimp only
  have hraw : FifoKept s (Machine.setF (bitF (Reg.EVT_RAW baseRec) i) 1 t) := h.setF 1 (by simp only [bitF]; decide)
  exact .ite (.occur (hraw.setF 1 (by simp only [bitF]; decide)) hsrc) hraw

theorem setRing (h : FifoKept s t) (l : List Rec) : FifoKept s (setRing l t) := h.congr

theorem stickyCopy (h : FifoKept s t) (r : Rec) : FifoKept s (stickyCopy r t) := by
  obtain ⟨l, hl⟩ := stickyCopy_eq t r
  rw [hl]
  exact h.congr

theorem dropRec (h : FifoKept s t) (r : Rec) : FifoKept s (dropRec r t) := by
  unfold Machine.dropRec
  extract_lets _ s1
  have h1 : FifoKept s s1 := by
    refine addF ?_ 1 ?_
    · exact h.congr
    · simp only [Reg.REC_DROPPED, Reg.REC_STATUS]
      omega
  clear_value s1
  obtain ⟨-, heq⟩ | ⟨-, heq⟩ := oncePerFrame_cases 1000
    (fun t => Machine.happen baseRec 2 (if summaryWaits t then t else Machine.request 218 3 false false [] t)) s1
  · rw [heq]
    exact h1
  · rw [heq]
    have h2 : FifoKept s { s1 with beat := { s1.beat with frameRaised := 1000 :: s1.beat.frameRaised } } :=
      h1.congr
    exact happen (.ite h2 (h2.trans (.request ..))) 2 (by decide)

theorem storeRec (h : FifoKept s t) (r : Rec) : FifoKept s (storeRec r t) := by
  unfold Machine.storeRec
  split
  · exact h.setRing _
  · split
    · refine addF (h.setRing _) 1 ?_
      simp only [Reg.REC_EVICTED, Reg.REC_STATUS]
      omega
    · exact h.dropRec r

theorem writeNow (h : FifoKept s t) (src typ : Nat) (body : List Byte) : FifoKept s (writeNow src typ body t) :=
  storeRec (stickyCopy (setF h _ (by decide)) _) _

end FifoKept

theorem exec_freezeTimeout (h : freezeExpired s = true) : exec .freezeTimeout s = .next (endFreeze 2 none s) :=
  congrArg Host.Outcome.next (if_pos h)

/-- A freeze that ends leaves the recorder unfrozen, its FIFO drained and REC_THAWED raised. -/
theorem endFreeze_spec (reason : Nat) (s : State) :
    frozen (endFreeze reason none s) = false ∧ (endFreeze reason none s).recd.fifo = [] ∧
      raised baseRec 1 (endFreeze reason none s) = true := by
  unfold endFreeze
  extract_lets counts _ s1 s2 s3
  have h2 : FifoKept s1 s2 := List.foldlRecOn (motive := FifoKept s1) _ _ (.refl s1) fun t ht r _ => ht.storeRec r
  have hend := (h2.writeNow 217 6 (leBytes 1 reason ++ leBytes 3 0 ++ sixBytes counts)).happen 1 (by decide)
  have hthawed : getF s1 F.REC_STATUS_FROZEN = 0 := getF_setF_same _ _ _ (by unfold Fld.ok; decide)
  have hempty : s1.recd.fifo = [] := by
    rw [setF_recd]
  refine ⟨?_, hend.fifo.trans hempty, raised_happen _ _ _ (by decide) (by decide) (by decide) (by decide)⟩
  rw [frozen, isSet_of_getF (getF_of_rd hend.status), isSet, hthawed]
  rfl

end

/-! ### Anchors (R463) -/

theorem request_ring (src typ : Nat) (fo co : Bool) (l : List Byte) (s : State) :
    (request src typ fo co l s).recd.ring = s.recd.ring := by
  unfold request
  split
  · rfl
  · split
    · rfl
    · rw [maxF_recd]
      rfl

theorem onAssert_recd (src : Nat) (s : State) : (onAssert src s).recd = s.recd := by
  unfold onAssert
  split <;> rfl

theorem occur_ring (src typ : Nat) (fo was : Bool) (l : List Byte) (s : State) :
    (occur src typ fo was l s).recd.ring = s.recd.ring := by
  unfold occur
  dsimp only
  split <;> [skip; rw [onAssert_recd]] <;> split <;> simp only [request_ring, addF_recd]

theorem happen_ring (base i : Nat) (s : State) : (happen base i s).recd.ring = s.recd.ring := by
  unfold happen happenAs
  dsimp only
  split
  · rw [occur_ring, setF_recd, setF_recd]
  · rw [setF_recd]

theorem anchor_ring (reason : Nat) (s : State) : (anchor reason s).recd.ring = s.recd.ring := by
  unfold anchor
  rw [happen_ring, request_ring]

theorem exec_timeAnchorPeriodic {s : State} (hon : getF s F.REC_CFG_ANCHOR_EPOCHS ≠ 0) (hlock : lockState s = lockLocked)
    (hbeat : beatNow s % (65536 * getF s F.REC_CFG_ANCHOR_EPOCHS) = 0) (honce : 3 ∉ s.beat.once) :
    exec .timeAnchorPeriodic s = .next (anchor 3 { s with beat := { s.beat with once := 3 :: s.beat.once } }) := by
  refine congrArg Host.Outcome.next ((if_pos ⟨hon, hlock, hbeat⟩).trans (if_neg fun h => honce ?_))
  exact List.contains_iff_mem.mp h

/-- Settles O9: the window's rows end in one snapshot, the freeze in `endFreeze`, and a periodic anchor in `anchor`. -/
theorem windowFreezeAndAnchors : Obligations.WindowFreezeAndAnchors := by
  intro s
  refine ⟨fun v h => ?cursor, fun h => ?refill, fun r h hlast hseq => ?next, fun h => ?thaws, fun hon hlock hbeat honce => ?anchor⟩
  case cursor =>
    have hcur : getR (setR Reg.REC_CURSOR v.toNat s) Reg.REC_CURSOR = v.toNat := by rw [getR_setR_same, w32_toNat_mod]
    have hsnap := snap_of_cursor s v.isLt (t := setR Reg.REC_CURSOR v.toNat s) (by rw [setR_recd]) hcur
    refine ⟨_, exec_recCursorWrite s v h, ?_, hsnap.1, ?_, .trans (.setR (.refl _ s) _ _) (changesOnly_snapshot _)⟩
    · rw [recCursorDo, getR_snapshot_cursor, hcur]
    · rw [recCursorDo, getF_snapshot_count, snapshot_recd]
  case refill =>
    refine ⟨_, exec_recRefill s h, getR_snapshot_cursor s, ?_, ?_⟩
    · rw [snapshot_recd]
    · rw [snapshot_recd]
      rfl
  case next =>
    have hcur : getR (setF F.REC_CURSOR_SEQ (r.seq + 1) s) Reg.REC_CURSOR = r.seq + 1 := by
      have hget := getF_setF_same F.REC_CURSOR_SEQ (r.seq + 1) s (by unfold Fld.ok; decide)
      rw [getF, bitsOf, pow_zero, Nat.div_one, Nat.mod_eq_of_lt (getR_lt _ _), Nat.mod_eq_of_lt hseq] at hget
      exact hget
    have hsnap := snap_of_cursor s hseq (t := setF F.REC_CURSOR_SEQ (r.seq + 1) s) (by rw [setF_recd]) hcur
    refine ⟨_, exec_recNext s h, ?_⟩
    rw [recNextDo_of_last s hlast]
    exact ⟨hsnap.2, hsnap.1⟩
  case thaws => exact ⟨_, exec_freezeTimeout h, endFreeze_spec 2 s⟩
  case anchor =>
    exact ⟨_, exec_timeAnchorPeriodic hon hlock hbeat honce, raised_anchor .., by rw [anchor_beat], anchor_ring ..,
      .anchor (.beat (.refl _ s)) 3⟩

end Sys2Proof.Machine
end

/-! ## The work of a header beat, of a flush point and of an epoch (R33, R74, R210, R212, R481) -/

section

-- One proof after another: elaborated side by side, the proofs of this text take more memory than its check allows.
set_option Elab.async false

namespace Sys2Proof.Machine

section

variable (key : Nat) (f : State → State) (s : State)

/-- The key of a piece of work is noted in its beat. -/
def onceNoted : State := { s with beat := { s.beat with once := key :: s.beat.once } }

theorem oncePerBeat_of_new (h : key ∉ s.beat.once) : oncePerBeat key f s = f (onceNoted key s) :=
  if_neg fun hc => h (List.contains_iff_mem.mp hc)

theorem oncePerBeat_of_done (h : key ∈ s.beat.once) : oncePerBeat key f s = s :=
  if_pos (List.contains_iff_mem.mpr h)

end

/-! ### The header beat -/

section

variable (s : State)

theorem phaseCorrect_spec : changesOnly [.regs, .beat, .freeCtr] s (phaseCorrect s) ∧
    ∃ r, (phaseCorrect s).beat = { s.beat with residual := r } := by
  unfold phaseCorrect
  split
  · exact ⟨.beat (.refl _ s), 0, rfl⟩
  · extract_lets d r _ s1
    have h1 : changesOnly [.regs, .beat, .freeCtr] s s1 := .tick (.beat (.refl _ s))
    split
    · exact ⟨h1, _, rfl⟩
    · exact ⟨.setR h1 _ _, _, setR_beat ..⟩

theorem changesOnly_bucketsLeak : changesOnly [.regs, .mems] s (bucketsLeak s) := by
  unfold bucketsLeak
  exact .foldl (.mems (.refl _ s)) fun t _ _ => .setF (.refl _ t) _ _

theorem changesOnly_hodPoll : changesOnly [.regs] s (hodPoll s) := by
  unfold hodPoll
  exact .foldl (.refl _ s) fun t _ _ => .ite (.setF (.refl _ t) _ _) (.refl _ t)

theorem takeShares_spec : changesOnly [.regs, .tiles] s (takeShares s) ∧
    (takeShares s).tiles = { s.tiles with sharesDue := [] } := by
  have h : changesOnly [.regs] s (s.tiles.sharesDue.foldl (fun x p => setR (Reg.TILE_YARD p.1) p.2.2.toNat
      (setR (Reg.TILE_DIE_SHARE p.1) p.2.1.toNat x)) s) :=
    .foldl (.refl _ s) fun t _ _ => .setR (.setR (.refl _ t) _ _) _ _
  unfold takeShares
  refine ⟨.tiles (h.mono (by decide)), ?_⟩
  dsimp only
  rw [h.tiles_eq]

/-- The frame begins: its counts, its charges and its shares. -/
theorem frameBegun_spec : ∃ t, takeShares (chargesReset (nextFrame s)) = t ∧
    changesOnly [.regs, .beat, .tiles, .mems] s t ∧ t.beat = { s.beat with frameRaised := [] } ∧
    t.tiles.sharesDue = [] ∧ ∀ x ∈ t.tiles.charge, x.1 / 2 ^ 18 = beatNow s / 64 % 2 := by
  obtain ⟨hshare, htiles⟩ := takeShares_spec (chargesReset (nextFrame s))
  refine ⟨_, rfl, .trans ?_ (hshare.mono (by decide)), hshare.beat_eq, by rw [htiles], fun x hx => ?_⟩
  · exact .tiles (t := nextFrame s) (.mems (t := { s with beat := { s.beat with frameRaised := [] } }) (.beat (.refl _ s)))
  · rw [htiles] at hx
    exact of_decide_eq_true (List.mem_filter.mp hx).2

/-- The shadow walk begins, and the count is saved in the sticky store. -/
def headerNoted (n : Nat) (t : State) : State :=
  { t with sort := { t.sort with walking := true }, top := { t.top with ledgerSticky := n } }

theorem headerWork_eq : headerWork s =
    hodPoll (headerNoted (beatNow s) (takeShares (chargesReset (nextFrame (bucketsLeak (phaseCorrect s)))))) := rfl

theorem headerWork_spec :
    (headerWork s).sort.walking = true ∧ (headerWork s).top = { s.top with ledgerSticky := beatNow s } ∧
      (headerWork s).beat.once = s.beat.once ∧ (headerWork s).beat.frameRaised = [] ∧
      (headerWork s).beat.count = s.beat.count ∧ (headerWork s).tiles.sharesDue = [] ∧
      (∀ x ∈ (headerWork s).tiles.charge, x.1 / 2 ^ 18 = beatNow s / 64 % 2) ∧
      (headerWork s).map = s.map ∧ (headerWork s).host = s.host ∧ (headerWork s).recd = s.recd := by
  obtain ⟨hphase, r, hbeat⟩ := phaseCorrect_spec s
  have hleak := changesOnly_bucketsLeak (phaseCorrect s)
  obtain ⟨t, ht, hframe, hfbeat, hshares, hcharge⟩ := frameBegun_spec (bucketsLeak (phaseCorrect s))
  have hbefore := (hphase.mono (qs := [.regs, .beat, .mems, .freeCtr]) (by decide)).trans (hleak.mono (by decide))
  have hnow : beatNow (bucketsLeak (phaseCorrect s)) = beatNow s := by
    rw [beatNow, hleak.beat_eq, hbeat, beatNow]
  have hraised : t.beat = { s.beat with residual := r, frameRaised := [] } := by
    rw [hfbeat, hleak.beat_eq, hbeat]
  have hall : changesOnly [.regs, .beat, .tiles, .mems, .freeCtr] s t :=
    (hbefore.mono (by decide)).trans (hframe.mono (by decide))
  have hpoll := changesOnly_hodPoll (headerNoted (beatNow s) t)
  rw [hnow] at hcharge
  rw [headerWork_eq, ht, hpoll.sort_eq, hpoll.top_eq, hpoll.beat_eq, hpoll.tiles_eq, hpoll.map_eq, hpoll.host_eq,
    hpoll.recd_eq]
  exact ⟨rfl, congrArg (fun x => { x with ledgerSticky := beatNow s }) hall.top_eq, congrArg (·.once) hraised,
    congrArg (·.frameRaised) hraised, congrArg (·.count) hraised, hshares, hcharge, hall.map_eq,
    hall.host_eq, hall.recd_eq⟩

theorem exec_headerBeat : exec .headerBeat s = .next (headerBeatDo s) := by
  rfl

end

/-! ### The flush point -/

section

variable (ok : Bool) (s : State)

theorem changesOnly_mirrorFlush : changesOnly eventParts s (mirrorFlush ok s) := by
  unfold mirrorFlush
  extract_lets l m
  exact .ite (.refl _ s) (.ite (.setF (.recd (.refl _ s)) _ _) (.happen (.refl _ s) _ _))

theorem layFlush_spec : changesOnly [.map] s (layFlush s) ∧ (layFlush s).map.jseq = s.map.jseq := by
  unfold layFlush
  split
  · exact ⟨.map (.map (.refl _ s)), rfl⟩
  · exact ⟨.refl _ s, rfl⟩

theorem journal_of_moving {s : State} (typ body : Nat) (h : mapStill s = false) :
    journal typ body s =
      { s with map := { s.map with
        tail := s.map.tail ++ [{ seq := s.map.jseq, typ := typ, body := body % 2 ^ 92 }], jseq := s.map.jseq + 1 } } :=
  if_neg (by rw [h]; exact Bool.false_ne_true)

theorem flushRecords_spec {s : State} (h : mapStill s = false) :
    changesOnly (.map :: eventParts) s (flushRecords s) ∧ (flushRecords s).map.jseq = s.map.jseq + 1 := by
  unfold flushRecords
  extract_lets s1 s2
  have h1 : changesOnly eventParts s s1 := .ite (.happen (.refl _ s) _ _) (.refl _ s)
  have hstill : mapStill s1 = false := by rw [mapStill, h1.grout_eq, h1.map_eq]; exact h
  have h2 := journal_of_moving 6 (s.map.wseq + 2 ^ 24) hstill
  have hlay := layFlush_spec { s2 with map := { s2.map with flushes := s2.map.flushes ++ [s2.map.jseq - 1] } }
  refine ⟨.trans (.map ?_) (hlay.1.mono (by decide)), hlay.2.trans ?_⟩
  · show changesOnly _ s (journal _ _ s1)
    rw [h2]
    exact .map (h1.mono (by decide))
  · show (journal _ _ s1).map.jseq = _
    rw [h2]
    exact congrArg (·.jseq + 1) h1.map_eq

theorem flushWork_spec (hfroz : s.grout.frozen = false) :
    (flushWork ok s).top = { s.top with ledgerNv := beatNow s } ∧ (flushWork ok s).beat = s.beat ∧
      (s.map.loaded = true → (flushWork ok s).map.jseq = s.map.jseq + 1) ∧
      (s.map.loaded = false → (flushWork ok s).map = s.map) := by
  unfold flushWork
  extract_lets s1
  have hm := changesOnly_mirrorFlush ok { s1 with top := { s1.top with ledgerNv := beatNow s } }
  rw [hm.top_eq, hm.beat_eq, hm.map_eq]
  dsimp only
  cases hload : s.map.loaded with
  | false =>
    have h1 : s1 = s := if_neg (by rw [hload]; exact Bool.false_ne_true)
    rw [h1]
    exact ⟨rfl, rfl, nofun, fun _ => rfl⟩
  | true =>
    have h1 : s1 = flushRecords s := if_pos hload
    have hrec := flushRecords_spec (s := s) (by rw [mapStill, hfroz, hload]; rfl)
    rw [h1, hrec.1.top_eq, hrec.1.beat_eq]
    exact ⟨rfl, rfl, fun _ => hrec.2, nofun⟩

theorem exec_journalFlushPoint : exec (.journalFlushPoint ok) s = .next (journalFlushDo ok s) := by
  rfl

theorem journalFlushDo_of_due {s : State} (hh : headerNow s = true) (hf : frameNow s % flushInterval s = 0)
    (hfroz : s.grout.frozen = false) : journalFlushDo ok s = oncePerBeat 1 (flushWork ok) s := by
  simp only [journalFlushDo, hh, hf, hfroz, decide_true, Bool.not_false, Bool.and_self, if_true]

theorem journalFlushDo_of_not_due {s : State}
    (h : headerNow s = false ∨ frameNow s % flushInterval s ≠ 0 ∨ s.grout.frozen = true ∨ 1 ∈ s.beat.once) :
    journalFlushDo ok s = s := by
  unfold journalFlushDo
  split
  · next hdue =>
    simp only [Bool.and_eq_true, decide_eq_true_eq, Bool.not_eq_true'] at hdue
    obtain ⟨⟨hh, hf⟩, hfroz⟩ := hdue
    obtain h | h | h | h := h
    · exact absurd (hh.symm.trans h) (by decide)
    · exact absurd hf h
    · exact absurd (h.symm.trans hfroz) (by decide)
    · exact oncePerBeat_of_done _ _ _ h
  · rfl

end

/-! ### The epoch boundary -/

section

variable (s : State)

/-- What a sample and a refresh may touch: the map and the care of the media. -/
def careParts : List Part := [.map, .trowel]

theorem changesOnly_newRd (r : Rd) : changesOnly careParts s (newRd r s).2 :=
  .map (t := { s with map := { s.map with nextRd := s.map.nextRd + 1 } }) (.map (.refl _ s))

theorem changesOnly_sampleRead (c pos at_ : Nat) : changesOnly careParts s (sampleRead c pos at_ s) := by
  unfold sampleRead
  extract_lets row laid
  split
  · exact .ite (.refl _ s) (changesOnly_newRd s _)
  · exact .refl _ s

theorem changesOnly_sampleReads (picks : List (Nat × Nat)) : changesOnly careParts s (sampleReads picks s) := by
  unfold sampleReads
  extract_lets l all s1
  have h1 : changesOnly careParts s s1 := .foldl (.refl _ s) fun t _ _ => changesOnly_sampleRead t _ _ _
  clear_value s1
  split
  · exact .trowel h1
  · exact h1

theorem changesOnly_queueRefresh (reason c : Nat) : changesOnly careParts s (queueRefresh reason c s) := by
  unfold queueRefresh
  extract_lets s1
  exact .ite (.refl _ s) (.trowel (.map (.refl _ s)))

theorem changesOnly_ageRefresh : changesOnly careParts s (ageRefresh s) := by
  unfold ageRefresh
  extract_lets m
  exact .ite (.refl _ s) (.foldl (.refl _ s) fun t _ _ => changesOnly_queueRefresh t _ _)

theorem layCkpt_spec : changesOnly [.regs, .map, .mems] s (layCkpt s) ∧ (layCkpt s).map.ckptNow = s.map.ckptNow := by
  unfold layCkpt
  extract_lets laying
  split
  · exact ⟨.setF (.map (.mems (.refl _ s))) _ _, by rw [setF_map]; rfl⟩
  · exact ⟨.refl _ s, rfl⟩

theorem ckptEpoch_spec : changesOnly (.map :: .mems :: eventParts) s (ckptEpoch s) ∧
    (ckptEpoch s).map.ckptNow = some (epochNow s % ckptCycle s, s.map.jseq) := by
  unfold ckptEpoch
  extract_lets s1 extra
  have h1 : changesOnly eventParts s s1 := .ite (.happen (.refl _ s) _ _) (.refl _ s)
  clear_value s1
  have hlay := layCkpt_spec { s1 with
    map := { s1.map with ckptNow := some (epochNow s % ckptCycle s, s.map.jseq) }
    mems := { s1.mems with owedSegs := s1.mems.owedSegs ++ extra } }
  have hnow : changesOnly (.map :: .mems :: eventParts) s { s1 with
      map := { s1.map with ckptNow := some (epochNow s % ckptCycle s, s.map.jseq) }
      mems := { s1.mems with owedSegs := s1.mems.owedSegs ++ extra } } :=
    .mems (t := { s1 with map := { s1.map with ckptNow := some (epochNow s % ckptCycle s, s.map.jseq) } })
      (.map (h1.mono (by decide)))
  exact ⟨hnow.trans (hlay.1.mono (by decide)), hlay.2⟩

theorem epochWork_spec (picks : List (Nat × Nat)) :
    (epochWork picks s).beat = s.beat ∧ (epochWork picks s).mac.saved = s.mac.trees ∧
      (∃ q, (epochWork picks s).map.ckptNow = some (epochNow s % ckptCycle s, q)) ∧
      (epochWork picks s).host = s.host ∧ (epochWork picks s).top = s.top := by
  have hcare := (changesOnly_sampleReads s picks).trans (changesOnly_ageRefresh (sampleReads picks s))
  obtain ⟨hckpt, hnow⟩ := ckptEpoch_spec (ageRefresh (sampleReads picks s))
  have hcycle : epochNow (ageRefresh (sampleReads picks s)) % ckptCycle (ageRefresh (sampleReads picks s)) =
      epochNow s % ckptCycle s := by
    rw [epochNow, epochNow, beatNow, beatNow, hcare.beat_eq, ckptCycle, ckptCycle, getF_congr (s := s) _ hcare.regs_eq]
  unfold epochWork saveStacks
  refine ⟨hckpt.beat_eq.trans hcare.beat_eq, ?_, ⟨_, hnow.trans (congrArg (fun x => some (x, _)) hcycle)⟩,
    hckpt.host_eq.trans hcare.host_eq, hckpt.top_eq.trans hcare.top_eq⟩
  dsimp only
  rw [hckpt.mac_eq, hcare.mac_eq]

theorem exec_epochBoundary (picks : List (Nat × Nat)) :
    exec (.epochBoundary picks) s = .next (epochBoundaryDo picks s) := by
  rfl

variable {s}

theorem epochBoundaryDo_of_due (picks : List (Nat × Nat)) (hh : headerNow s = true) (hb : beatNow s % 65536 = 0)
    (hm : mapStill s = false) : epochBoundaryDo picks s = oncePerBeat 2 (epochWork picks) s := by
  simp only [epochBoundaryDo, hh, hb, hm, decide_true, Bool.not_false, Bool.and_self, if_true]

theorem epochBoundaryDo_of_not_due (picks : List (Nat × Nat))
    (h : headerNow s = false ∨ beatNow s % 65536 ≠ 0 ∨ mapStill s = true ∨ 2 ∈ s.beat.once) :
    epochBoundaryDo picks s = s := by
  unfold epochBoundaryDo
  split
  · next hdue =>
    simp only [Bool.and_eq_true, decide_eq_true_eq, Bool.not_eq_true'] at hdue
    obtain ⟨⟨hh, hb⟩, hm⟩ := hdue
    obtain h | h | h | h := h
    · exact absurd (hh.symm.trans h) (by decide)
    · exact absurd hb h
    · exact absurd (h.symm.trans hm) (by decide)
    · exact oncePerBeat_of_done _ _ _ h
  · rfl

end

/-- Settles O11: each row is its work done once in its beat, and the three pieces of work keep what `*_spec` says. -/
theorem headerBeatFlushAndEpoch : Obligations.HeaderBeatFlushAndEpoch := by
  intro s
  refine ⟨fun hh h => ?header, fun h => ?noHeader, fun ok hh hf hfroz h => ?flush, fun ok h => ?noFlush,
    fun picks hh hb hm h => ?epoch, fun picks h => ?noEpoch⟩
  case header =>
    have heq : headerBeatDo s = headerWork (onceNoted 0 s) := (if_pos hh).trans (oncePerBeat_of_new 0 headerWork s h)
    refine ⟨_, exec_headerBeat s, ?_⟩
    rw [heq]
    exact headerWork_spec (onceNoted 0 s)
  case noHeader =>
    have heq : headerBeatDo s = s := by
      unfold headerBeatDo
      obtain h | h := h
      · exact if_neg (by rw [h]; exact Bool.false_ne_true)
      · rw [oncePerBeat_of_done _ _ _ h, ite_self]
    rw [completes, exec_headerBeat, heq]
  case flush =>
    obtain ⟨htop, hbeat, hseq, hmap⟩ := flushWork_spec ok (onceNoted 1 s) hfroz
    refine ⟨_, exec_journalFlushPoint ok s, ?_⟩
    rw [journalFlushDo_of_due ok hh hf hfroz, oncePerBeat_of_new 1 _ s h]
    exact ⟨htop, congrArg (·.once) hbeat, hseq, hmap⟩
  case noFlush => rw [completes, exec_journalFlushPoint, journalFlushDo_of_not_due ok h]
  case epoch =>
    obtain ⟨hbeat, hmac, hckpt, hhost, htop⟩ := epochWork_spec (onceNoted 2 s) picks
    refine ⟨_, exec_epochBoundary s picks, ?_⟩
    rw [epochBoundaryDo_of_due picks hh hb hm, oncePerBeat_of_new 2 _ s h]
    exact ⟨congrArg (·.once) hbeat, hmac, hckpt, hhost, htop⟩
  case noEpoch => rw [completes, exec_epochBoundary, epochBoundaryDo_of_not_due picks h]

end Sys2Proof.Machine
end

/-! ## Plans and their entries: commits, the failed planner, and how an entry runs and retires (R36, R38, R40, R45) -/

section

-- One proof after another: elaborated side by side, the proofs of this text take more memory than its check allows.
set_option Elab.async false

namespace Sys2Proof.Machine

variable {s t u : State}

/-! ### Events that stay raised -/

/-- A cause that reads raised is raised still. -/
def raisedKept (s t : State) : Prop :=
  ∀ base i, base % 0x1000 = 0 → base ≠ 0x5000 → i < 32 → raised base i s = true → raised base i t = true

namespace raisedKept

theorem refl (s : State) : raisedKept s s := fun _ _ _ _ _ h => h

theorem trans (h : raisedKept s t) (k : raisedKept t u) : raisedKept s u :=
  fun base i hb hn hi hr => k base i hb hn hi (h base i hb hn hi hr)

theorem congr (h : raisedKept s t) (hr : u.regs = t.regs := by rfl) : raisedKept s u :=
  fun base i hb hn hi hs => (raised_of_regs base i hr).trans (h base i hb hn hi hs)

theorem happen (h : raisedKept s t) (base i : Nat) (hb : base % 0x1000 = 0 := by decide) (hi : i < 32 := by decide)
    (hs : srcOf base i < 256 := by decide) : raisedKept s (happen base i t) :=
  fun base' j hb' hn hj hr => raised_happen_keep _ _ _ _ _ hs hb' hb hn hj hi (h base' j hb' hn hj hr)

theorem setF (h : raisedKept s t) (f : Fld) (v : Nat) (hf : f.addr % 0x1000 ≠ 0x10 := by decide) :
    raisedKept s (setF f v t) :=
  fun base i hb hn hi hr => by
    have hne : Reg.EVT_RAW base ≠ f.addr := by
      simp only [Reg.EVT_RAW]
      omega
    exact (raised_of_rd (rd_setF_ne f v t hne)).trans (h base i hb hn hi hr)

theorem ite {c : Prop} [Decidable c] (ht : raisedKept s t) (hu : raisedKept s u) : raisedKept s (if c then t else u) := by
  split <;> assumption

end raisedKept

/-! ### Grout causes and fatal events -/

/-- A grout cause writes the grout's own state, and raises the cause of the first. -/
theorem groutCause_spec (bit : Nat) (s : State) :
    changesOnly (.grout :: eventParts) s (groutCause bit s) ∧ regsKeptE (fun _ => False) s (groutCause bit s) ∧
      raisedKept s (groutCause bit s) := by
  unfold groutCause
  split
  · exact ⟨.refl _ _, .refl _, .refl _⟩
  · have begun : ∃ u, (if grouting s then s else happen basePwr 10 s) = u ∧ changesOnly (.grout :: eventParts) s u ∧
        regsKeptE (fun _ => False) s u ∧ raisedKept s u :=
      ⟨_, rfl, .ite (.refl _ _) (.happen (.refl _ _) basePwr 10), .ite (.refl _) (.happen (.refl _) basePwr 10),
        .ite (.refl _) (.happen (.refl _) basePwr 10)⟩
    obtain ⟨u, hu, hparts, hregs, hraised⟩ := begun
    simp only [hu]
    exact ⟨.grout hparts, hregs.congr, hraised.congr⟩

/-- A fatal event raises its cause; FAULT_N follows while the part runs (R28). -/
theorem fatal_spec {base i : Nat} (s : State) (hb : base % 0x1000 = 0) (hn : base ≠ 0x5000) (hi : i < 32)
    (hs : srcOf base i < 256) :
    changesOnly (.top :: .grout :: eventParts) s (fatal base i s) ∧ regsKeptE (fun _ => False) s (fatal base i s) ∧
      raisedKept s (fatal base i s) ∧ raised base i (fatal base i s) = true ∧
      (running s = true → (fatal base i s).top.faultN = true) := by
  have noted : ∃ u, (if running s then { happen base i s with top := { (happen base i s).top with faultN := true } }
        else happen base i s) = u ∧ changesOnly (.top :: .grout :: eventParts) s u ∧ regsKeptE (fun _ => False) s u ∧
        raisedKept s u ∧ raised base i u = true ∧ (running s = true → u.top.faultN = true) := by
    refine ⟨_, rfl, .ite (.top (.happen (.refl _ s) base i (by decide) hb hs)) (.happen (.refl _ _) base i (by decide) hb hs),
      .ite ((regsKeptE.happen (.refl s) base i hb hs).congr) (.happen (.refl _) base i hb hs),
      .ite ((raisedKept.happen (.refl s) base i hb hi hs).congr) (.happen (.refl _) base i hb hi hs), ?_, fun h => ?_⟩
    · split
      · exact (raised_of_regs _ _ rfl).trans (raised_happen base i s hs hb hn hi)
      · exact raised_happen base i s hs hb hn hi
    · rw [if_pos h]
  obtain ⟨u, hu, hparts, hregs, hkept, hraised, hfault⟩ := noted
  obtain ⟨gparts, gregs, gkept⟩ := groutCause_spec 2 u
  have e : fatal base i s = groutCause 2 u := by rw [fatal, hu]
  rw [e]
  refine ⟨hparts.trans (gparts.mono (by decide)), hregs.trans gregs, hkept.trans gkept, gkept base i hb hn hi hraised,
    fun h => ?_⟩
  rw [gparts.top_eq]
  exact hfault h

/-! ### Commits -/

/-- What a commit makes of the entries of a plan: one entry for each, none retired. -/
def FreshEnts (es : List PlanEntry) (ps : List PEnt) : Prop :=
  ps.map (·.e) = es ∧ ∀ p ∈ ps, p.retired = false ∧ p.code = 0

theorem commitFch_entry (ch beat : Nat) (ents : List PlanEntry) (i : Nat) (e : PlanEntry) (a : Option Account) (s : State) :
    (commitFch ch beat ents i e a s).1.e = e ∧ (commitFch ch beat ents i e a s).1.retired = false ∧
      (commitFch ch beat ents i e a s).1.code = 0 := by
  unfold commitFch
  split <;> exact ⟨rfl, rfl, rfl⟩

theorem freshEnts_plain (es : List PlanEntry) : FreshEnts es (es.map plainEnt) := by
  refine ⟨?_, fun p hp => ?_⟩
  · rw [List.map_map]
    exact List.map_id _
  · obtain ⟨e, -, rfl⟩ := List.mem_map.mp hp
    exact ⟨rfl, rfl⟩

theorem freshEnts_append {es : List PlanEntry} {ps : List PEnt} (h : FreshEnts es ps) {p : PEnt} (hr : p.retired = false)
    (hc : p.code = 0) : FreshEnts (es ++ [p.e]) (ps ++ [p]) := by
  obtain ⟨hmap, hall⟩ := h
  refine ⟨by rw [List.map_append, hmap]; rfl, fun q hq => ?_⟩
  rcases List.mem_append.mp hq with hq | hq
  · exact hall q hq
  · rw [List.mem_singleton.mp hq]
    exact ⟨hr, hc⟩

/-- One step of a channel plan's commit: entry `i`, where the plan has one. -/
def commitStep (ch beat : Nat) (es : List PlanEntry) (accts : List Account) (acc : List PEnt × State) (i : Nat) :
    List PEnt × State :=
  match es[i]? with
  | some e =>
    let (p, t) := commitFch ch beat es i e accts[i]? acc.2
    (acc.1 ++ [p], t)
  | none => acc

theorem freshEnts_commitSteps (ch beat : Nat) (es : List PlanEntry) (accts : List Account) (s : State) :
    ∀ n ≤ es.length, FreshEnts (es.take n) ((List.range n).foldl (commitStep ch beat es accts) ([], s)).1 := by
  intro n
  induction n with
  | zero => exact fun _ => ⟨rfl, fun p hp => absurd hp List.not_mem_nil⟩
  | succ n ih =>
    intro hn
    obtain ⟨he, hr, hc⟩ := commitFch_entry ch beat es n es[n] accts[n]?
      ((List.range n).foldl (commitStep ch beat es accts) ([], s)).2
    have fresh := freshEnts_append (ih (Nat.le_of_succ_le hn)) hr hc
    rw [he, List.take_append_getElem] at fresh
    rw [List.range_succ, List.foldl_concat, commitStep, List.getElem?_eq_getElem hn]
    exact fresh

theorem freshEnts_commitAll (u : PlanUnit) (beat : Nat) (es : List PlanEntry) (accts : List Account) (s : State) :
    FreshEnts es (commitAll u beat es accts s).1 := by
  cases u with
  | fch ch =>
    have h := freshEnts_commitSteps ch beat es accts s es.length le_rfl
    rw [List.take_length] at h
    exact h
  | lane n => exact freshEnts_plain es
  | mac p => exact freshEnts_plain es
  | poster c => exact freshEnts_plain es
  | hod => exact freshEnts_plain es

theorem exec_planCommit (u : PlanUnit) (writer target : Nat) (es : List PlanEntry) (accts : List Account) :
    exec (.planCommit u writer target es accts) s = .next (planCommit u writer target es accts s) := rfl

/-- What the open buffer holds once a plan is committed to it. -/
def committedBuf (u : PlanUnit) (writer target : Nat) (es : List PlanEntry) (accts : List Account) (s : State) : PlanBuf :=
  { target := target % 2 ^ 32, valid := true, held := false, invalid := false, done := false, writer := writer
    ents := (commitAll u (beatNow s + 2) es accts s).1 }

section

variable {u : PlanUnit} {writer target : Nat} {es : List PlanEntry} {accts : List Account}

theorem planCommit_of_open (hcap : capKept s u (beatNow s + 2) es = true) (hfroz : s.grout.frozen = false)
    (h : openBuf s target = true ∧ writer = writerOf s u ∧ running s = true) :
    planCommit u writer target es accts s =
      setBuf u target (committedBuf u writer target es accts s) (commitAll u (beatNow s + 2) es accts s).2 := by
  rw [planCommit, hcap, hfroz, if_neg (by decide), if_pos h]
  rfl

theorem planCommit_of_dropped (hcap : capKept s u (beatNow s + 2) es = true) (hfroz : s.grout.frozen = false)
    (h : openBuf s target = false ∨ writer ≠ writerOf s u ∨ running s = false) :
    planCommit u writer target es accts s = happen baseBeat 1 s := by
  rw [planCommit, hcap, hfroz, if_neg (by decide), if_neg]
  · rfl
  · rintro ⟨ho, hw, hr⟩
    rcases h with h | h | h
    · exact absurd (ho.symm.trans h) (by decide)
    · exact h hw
    · exact absurd (hr.symm.trans h) (by decide)

theorem planCommit_of_barred (h : capKept s u (beatNow s + 2) es = false ∨ s.grout.frozen = true) :
    planCommit u writer target es accts s = s := by
  rw [planCommit]
  rcases h with h | h <;> simp [h]

end

/-! ### A planner that fails -/

/-- The planner is among the failed. -/
def plannerGone (p : Nat) (s : State) : State := { s with beat := { s.beat with failed := insertNat p s.beat.failed } }

/-- The planner's failure with its cause of DEGRADED, before the pair is looked at. -/
def plannerNoted (p : Nat) (s : State) : State := setCause F.TOP_MODE_CAUSE_DEG_PLANNER (happen baseBeat 2 (plannerGone p s))

theorem mem_insertNat {n m : Nat} {l : List Nat} : m ∈ insertNat n l ↔ m = n ∨ m ∈ l := by
  unfold insertNat
  split
  · next h =>
    have hn : n ∈ l := List.contains_iff_mem.mp h
    exact ⟨.inr, fun h => h.elim (fun e => e ▸ hn) id⟩
  · rw [List.mem_append, List.mem_singleton, Or.comm]

theorem exec_plannerFailed (p : Nat) : exec (.plannerFailed p) s = .next (plannerFail p s) := rfl

theorem plannerFail_of_silent {p : Nat} (hp : p < 8) (hf : p ∉ s.beat.failed) (hs : plannerSilent s p = true) :
    plannerFail p s =
      if s.beat.failed.contains (Nat.xor p 1) then fatal baseTop 8 (plannerNoted p s) else plannerNoted p s :=
  if_pos ⟨hp, mt List.contains_iff_mem.mp hf, hs⟩

theorem plannerFail_of_not {p : Nat} (h : 8 ≤ p ∨ p ∈ s.beat.failed ∨ plannerSilent s p = false) : plannerFail p s = s := by
  refine if_neg ?_
  rintro ⟨hp, hf, hs⟩
  rcases h with h | h | h
  · omega
  · exact hf (List.contains_iff_mem.mpr h)
  · exact absurd (hs.symm.trans h) (by decide)

theorem plannerNoted_spec (p : Nat) (s : State) :
    (plannerNoted p s).beat = (plannerGone p s).beat ∧ raised baseBeat 2 (plannerNoted p s) = true ∧
      getF (plannerNoted p s) F.TOP_MODE_CAUSE_DEG_PLANNER = 1 ∧
      changesOnly (.beat :: eventParts) s (plannerNoted p s) ∧ regsKeptE (· = Reg.TOP_MODE_CAUSE) s (plannerNoted p s) := by
  have hraise := raised_happen baseBeat 2 (plannerGone p s) (by decide) (by decide) (by decide) (by decide)
  refine ⟨?_, ?_, ?_, ?_, ?_⟩
  · simp only [plannerNoted, setCause, setF_beat, happen_beat]
  · exact raisedKept.setF (.refl _) F.TOP_MODE_CAUSE_DEG_PLANNER 1 (by decide) baseBeat 2 (by decide) (by decide)
      (by decide) hraise
  · exact getF_setF_same F.TOP_MODE_CAUSE_DEG_PLANNER 1 _ (by unfold Fld.ok; decide)
  · exact .setF (.happen (.beat (t := s) (.refl _ s)) baseBeat 2) _ _
  · exact .setF (.happen (.of_regs (t := plannerGone p s) rfl) baseBeat 2) _ _ rfl

/-- Settles O12: a commit to the open buffer by its writer fills it; the others are dropped, or barred by the cap and the
grout; a silent planner fails once, fatally where its pair has. -/
theorem planCommitFillsTheOpenBuffer : Obligations.PlanCommitFillsTheOpenBuffer := by
  refine ⟨fun s u writer target es accts => ⟨fun hcap hfroz hopen hw hrun => ?opened, fun hcap hfroz h => ?dropped,
    fun h => ?barred⟩, fun s p => ⟨fun hp hf hs => ?fails, fun h => ?stays⟩⟩
  case opened =>
    obtain ⟨hmap, hall⟩ := freshEnts_commitAll u (beatNow s + 2) es accts s
    refine ⟨_, congrArg Host.Outcome.next (planCommit_of_open hcap hfroz ⟨hopen, hw, hrun⟩), ?_⟩
    rw [getBuf_setBuf]
    exact ⟨rfl, rfl, rfl, rfl, rfl, hmap, hall⟩
  case dropped =>
    exact ⟨_, congrArg Host.Outcome.next (planCommit_of_dropped hcap hfroz h),
      raised_happen _ _ _ (by decide) (by decide) (by decide) (by decide), evtOnly_happen _ _ _ (by decide) (by decide)⟩
  case barred => exact congrArg Host.Outcome.next (planCommit_of_barred h)
  case stays => exact congrArg Host.Outcome.next (plannerFail_of_not h)
  case fails =>
    obtain ⟨hbeat, hraised, hcause, hparts, hregs⟩ := plannerNoted_spec p s
    have hrun : running (plannerNoted p s) = running s := by
      have hmode : modeNow (plannerNoted p s) = modeNow s := hregs.getF (by decide) (by decide)
      rw [running, running, hmode, hparts.top_eq]
    obtain ⟨fparts, fregs, fkept, fraised, ffault⟩ :=
      fatal_spec (base := baseTop) (i := 8) (plannerNoted p s) (by decide) (by decide) (by decide) (by decide)
    have planned : ∀ t : State, t.beat = (plannerGone p s).beat → ∀ ch, ch / 4 = p → plannerOf t ch = Nat.xor p 1 := by
      intro t ht ch hch
      rw [plannerOf, ht, hch]
      exact if_pos (List.contains_iff_mem.mpr (mem_insertNat.mpr (.inl rfl)))
    have gone : ∀ t : State, t.beat = (plannerGone p s).beat → p ∈ t.beat.failed := by
      intro t ht
      rw [ht]
      exact mem_insertNat.mpr (.inl rfl)
    refine ⟨_, congrArg Host.Outcome.next (plannerFail_of_silent hp hf hs), ?_⟩
    by_cases hboth : Nat.xor p 1 ∈ s.beat.failed
    · rw [if_pos (List.contains_iff_mem.mpr hboth)]
      have fbeat := fparts.beat_eq.trans hbeat
      exact ⟨gone _ fbeat, fkept _ _ (by decide) (by decide) (by decide) hraised,
        (fregs.getF id (by decide)).trans hcause, planned _ fbeat, fun _ => ⟨fraised, fun h => ffault (hrun.trans h)⟩,
        fun hn => absurd hboth hn⟩
    · rw [if_neg (mt List.contains_iff_mem.mp hboth)]
      exact ⟨gone _ hbeat, hraised, hcause, planned _ hbeat, fun h => absurd h hboth, fun _ => ⟨hparts, hregs⟩⟩

/-! ### Running and retiring an entry -/

section

variable {w : PlanUnit} {idx op code : Nat} {p : PEnt}

theorem onEntry_of_none (f : PEnt → State → State) (h : entryAt s w idx op = none) : onEntry w idx op f s = s := by
  rw [onEntry, h]

theorem onEntry_of_some (f : PEnt → State → State) (h : entryAt s w idx op = some p) : onEntry w idx op f s = f p s := by
  rw [onEntry, h]

theorem buf_of_running {b : PlanBuf} (h : running? s w = some b) : b = getBuf s w (beatNow s) := by
  simp only [running?, Option.ite_none_right_eq_some, Option.some.injEq] at h
  exact h.2.symm

/-- An entry that runs stands in the executing buffer. -/
theorem ents_of_entryAt (h : entryAt s w idx op = some p) : (getBuf s w (beatNow s)).ents[idx]? = some p := by
  unfold entryAt at h
  cases hr : running? s w with
  | none => simp [hr] at h
  | some b =>
    cases he : b.ents[idx]? with
    | none => simp [hr, he] at h
    | some q =>
      simp only [hr, he, Option.ite_none_right_eq_some, Option.some.injEq] at h
      rw [← buf_of_running hr, he, h.2]

/-- The buffer once its entry `idx` has retired. -/
def retiredBuf (b : PlanBuf) (idx code : Nat) : PlanBuf :=
  let ents := b.ents.modify idx (fun p => { p with code := code, retired := true })
  { b with ents := ents, done := ents.all (·.retired) }

/-- The executing buffer takes the retired entry. -/
def bufRetired (w : PlanUnit) (idx code : Nat) (s : State) : State :=
  setBuf w (beatNow s) (retiredBuf (getBuf s w (beatNow s)) idx code) s

theorem changesOnly_refund (p : PEnt) (s : State) : changesOnly [.tiles] s (refund p s) := by
  unfold refund
  split
  · exact .tiles (.refl _ s)
  · exact .refl _ _

theorem changesOnly_bufRetired : changesOnly [.beat] s (bufRetired w idx code s) := .beat (.refl _ s)

theorem retire_cases : retire w idx code s = bufRetired w idx code s ∨
    (code = 2 ∨ code = 6) ∧ ∃ p, retire w idx code s = refund p (bufRetired w idx code s) := by
  rw [retire]
  split
  · split
    · next p _ h => exact .inr ⟨h, p, rfl⟩
    · exact .inl rfl
  · exact .inl rfl

theorem retire_beat : (retire w idx code s).beat = (bufRetired w idx code s).beat := by
  rcases retire_cases (s := s) (w := w) (idx := idx) (code := code) with h | ⟨-, p, h⟩
  · rw [h]
  · rw [h, (changesOnly_refund _ _).beat_eq]

theorem retire_tiles : changesOnly [.beat, .tiles] s (retire w idx code s) := by
  rcases retire_cases (s := s) (w := w) (idx := idx) (code := code) with h | ⟨-, p, h⟩
  · rw [h]
    exact changesOnly_bufRetired.mono (by decide)
  · rw [h]
    exact (changesOnly_bufRetired.mono (by decide)).trans ((changesOnly_refund _ _).mono (by decide))

/-- An entry that neither failed on a busy LUN nor fell outside a window keeps its charge. -/
theorem changesOnly_retire (h2 : code ≠ 2 := by decide) (h6 : code ≠ 6 := by decide) :
    changesOnly [.beat] s (retire w idx code s) := by
  rcases retire_cases (s := s) (w := w) (idx := idx) (code := code) with h | ⟨hc, -⟩
  · rw [h]
    exact changesOnly_bufRetired
  · exact absurd hc (by rintro (h | h); exacts [h2 h, h6 h])

theorem retire_regs : (retire w idx code s).regs = s.regs := retire_tiles.regs_eq
theorem retire_map : (retire w idx code s).map = s.map := retire_tiles.map_eq
theorem retire_host : (retire w idx code s).host = s.host := retire_tiles.host_eq
theorem retire_count : (retire w idx code s).beat.count = s.beat.count := by rw [retire_beat]; rfl

theorem getBuf_congr (h : t.beat = s.beat) (w : PlanUnit) (b : Nat) : getBuf t w b = getBuf s w b := by
  rw [getBuf, getBuf, h]

theorem beatNow_congr (h : t.beat = s.beat) : beatNow t = beatNow s := by rw [beatNow, beatNow, h]

/-- The executing buffer, in a state whose beat is that of `s`, once its entry has retired. -/
theorem getBuf_retire (hc : t.beat = s.beat) :
    getBuf (retire w idx code t) w (beatNow s) = retiredBuf (getBuf s w (beatNow s)) idx code := by
  rw [getBuf_congr retire_beat, bufRetired, beatNow_congr hc, getBuf_setBuf, getBuf_congr hc]

theorem retiredAs_retire (hc : t.beat = s.beat) (h : entryAt s w idx op = some p) :
    retiredAs w idx code s (retire w idx code t) := by
  rw [retiredAs, getBuf_retire hc, retiredBuf, List.getElem?_modify_eq, ents_of_entryAt h]
  rfl

theorem ents_retire_of_ne (hc : t.beat = s.beat) {j : Nat} (hj : j ≠ idx) :
    (getBuf (retire w idx code t) w (beatNow s)).ents[j]? = (getBuf s w (beatNow s)).ents[j]? := by
  rw [getBuf_retire hc, retiredBuf]
  exact List.getElem?_modify_ne _ _ (Ne.symm hj)

end

/-- What a plan-entry row does before its entry runs: a RETAG gives slots their new version. -/
def entryReady (c : Instr) (s : State) : State :=
  match c with
  | .retag p idx rds => retagVersions p idx rds s
  | _ => s

theorem entryReady_of_none {c : Instr} {w : PlanUnit} {idx op : Nat} (h : entryRow c = some (w, idx, op))
    (hn : entryAt s w idx op = none) : entryReady c s = s := by
  unfold entryReady
  split
  · simp only [entryRow, Option.some.injEq, Prod.mk.injEq] at h
    obtain ⟨rfl, rfl, rfl⟩ := h
    rw [retagVersions, hn]
  · rfl

/-- Every plan-entry row runs its entry where the executing plan has it. -/
theorem exec_entryRow {c : Instr} {w : PlanUnit} {idx op : Nat} (h : entryRow c = some (w, idx, op)) :
    ∃ f, exec c s = .next (onEntry w idx op f (entryReady c s)) := by
  unfold entryRow at h
  split at h
  all_goals
    simp only [Option.some.injEq, Prod.mk.injEq, reduceCtorEq] at h
  all_goals
    obtain ⟨rfl, rfl, rfl⟩ := h
    exact ⟨_, rfl⟩

theorem exec_quietEntry {c : Instr} {w : PlanUnit} {idx op : Nat} (h : quietEntry c = some (w, idx, op)) :
    exec c s = .next (onEntry w idx op (fun _ => retire w idx 1) s) := by
  unfold quietEntry at h
  split at h
  all_goals
    simp only [Option.some.injEq, Prod.mk.injEq, reduceCtorEq] at h
  all_goals
    obtain ⟨rfl, rfl, rfl⟩ := h
    rfl

/-- Settles O14: a row that names no entry of the executing plan does nothing; a quiet entry retires done. -/
theorem entriesRunOnceInTheirBeat : Obligations.EntriesRunOnceInTheirBeat := by
  refine fun s c w idx op => ⟨fun hrow hnone => ?none, fun p hrow hat => ?quiet⟩
  case none =>
    obtain ⟨f, hf⟩ := exec_entryRow (s := s) hrow
    rw [completes, hf, entryReady_of_none hrow hnone, onEntry_of_none f hnone]
  case quiet =>
    refine ⟨_, (exec_quietEntry hrow).trans (congrArg _ (onEntry_of_some _ hat)), retiredAs_retire rfl hat,
      changesOnly_retire, retire_count, fun j hj => ents_retire_of_ne rfl hj⟩

end Sys2Proof.Machine

end

/-! ## Die operations: launch, suspension, end and transfers (R39, R40, R57, R58, R190, R224 to R228, R258 to R263) -/

section

-- One proof after another: elaborated side by side, the proofs of this text take more memory than its check allows.
set_option Elab.async false

namespace Sys2Proof.Machine

variable {s t u : State} {ch idx op lun : Nat} {p : PEnt} {kind : DieKind}

/-! ### The LUNs' operations through other map updates -/

/-- The LUNs and the beat are as they were. -/
def lunsKept (s t : State) : Prop := t.map.luns = s.map.luns ∧ t.beat = s.beat

namespace lunsKept

theorem refl (s : State) : lunsKept s s := ⟨rfl, rfl⟩

theorem trans (h : lunsKept s t) (k : lunsKept t u) : lunsKept s u := ⟨k.1.trans h.1, k.2.trans h.2⟩

theorem getLun (h : lunsKept s t) (ch lun : Nat) : getLun t ch lun = getLun s ch lun := congrArg (tget lunD · _) h.1

theorem addF (h : lunsKept s t) (f : Fld) (n : Nat) : lunsKept s (addF f n t) := by
  rwa [lunsKept, addF_map, addF_beat]

theorem foldl {α : Type} {g : State → α → State} {l : List α} (h : lunsKept s t) (hg : ∀ u, ∀ x ∈ l, lunsKept u (g u x)) :
    lunsKept s (l.foldl g t) :=
  List.foldlRecOn (motive := lunsKept s) l g h fun u hu x hx => hu.trans (hg u x hx)

end lunsKept

theorem lunsKept_rdTo (i : Nat) (st : RdSt) (s : State) : lunsKept s (rdTo i st s) := ⟨rfl, rfl⟩

theorem lunsKept_queueRefresh (reason c : Nat) (s : State) : lunsKept s (queueRefresh reason c s) := by
  unfold queueRefresh
  split
  · exact .refl _
  · exact ⟨rfl, rfl⟩

theorem lunsKept_countRead1 (ch lun b : Nat) (s : State) : lunsKept s (countRead1 ch lun b s) := by
  have noted : ∀ x, lunsKept s (setBrick (brickKey ch lun b) x s) := fun _ => ⟨rfl, rfl⟩
  unfold countRead1
  dsimp only
  split
  · split
    · exact (noted _).trans (lunsKept_queueRefresh _ _ _)
    · exact noted _
  · exact noted _

theorem lunsKept_addThousand (key : Nat) (f : Fld) (n : Nat) (s : State) : lunsKept s (addThousand key f n s) := by
  unfold addThousand
  dsimp only
  split
  · exact lunsKept.addF ⟨rfl, rfl⟩ _ _
  · exact ⟨rfl, rfl⟩

theorem lunsKept_launchReads (ch : Nat) (e : PlanEntry) (s : State) : lunsKept s (launchReads ch e s) :=
  ((lunsKept.foldl (.refl s) fun u i _ => lunsKept_rdTo i .launched u).trans (lunsKept_countRead1 ..)).trans
    (lunsKept_addThousand ..)

/-! ### Launching -/

theorem launch_of_closed {free : Bool} (go : State → State) (hcls : p.e.cls = 3) (hbg : bgBeat s = false) :
    launch ch idx p free go s = retire (.fch ch) idx 6 s := if_pos ⟨hcls, by simp [hbg]⟩

theorem launch_of_busy (go : State → State) (hw : p.e.cls ≠ 3 ∨ bgBeat s = true)
    (hb : (getLun s ch (eLun p.e)).op.isSome = true) : launch ch idx p false go s = retire (.fch ch) idx 2 s := by
  rw [launch, if_neg (by rintro ⟨h, k⟩; exact hw.elim (· h) k), if_pos (by simp [hb])]

theorem launch_of_free {free : Bool} (go : State → State) (hw : p.e.cls ≠ 3 ∨ bgBeat s = true)
    (hf : free = true ∨ (getLun s ch (eLun p.e)).op = none) :
    launch ch idx p free go s = retire (.fch ch) idx 1 (go s) := by
  rw [launch, if_neg (by rintro ⟨h, k⟩; exact hw.elim (· h) k), if_neg]
  rcases hf with h | h <;> simp [h]

/-- What an entry of its own starts: the operation on its LUN, the beat as it was, and but for a read the map alone. -/
def Starts (s : State) (ch op : Nat) (p : PEnt) (kind : DieKind) (t : State) : Prop :=
  t.beat = s.beat ∧ (getLun t ch (eLun p.e)).op = some (opOf s kind p) ∧ (op ≠ 1 → op ≠ 2 → changesOnly [.map] s t)

theorem starts_startOp : Starts s ch op p kind (startOp ch p kind s) :=
  ⟨rfl, by rw [startOp, getLun_setLun], fun _ _ => .map (.refl _ s)⟩

theorem starts_launchReads (h : op = 1 ∨ op = 2) (e : PlanEntry) :
    Starts s ch op p kind (launchReads ch e (startOp ch p kind s)) := by
  have kept := lunsKept_launchReads ch e (startOp ch p kind s)
  refine ⟨kept.2, ?_, fun h1 h2 => absurd h (by rintro (h | h); exacts [h1 h, h2 h])⟩
  rw [kept.getLun, startOp, getLun_setLun]

/-- ERASE starts its operation, and the course is under erase from its first brick on (R259). -/
def eraseGo (ch : Nat) (p : PEnt) (x : State) : State :=
  match courseOf x ch (eLun p.e) (eBrick p.e) with
  | some c =>
    if (getCourse (startOp ch p .erase x) c).st = .toErase then
      setCourse c { getCourse (startOp ch p .erase x) c with st := .erasing } (startOp ch p .erase x)
    else startOp ch p .erase x
  | none => startOp ch p .erase x

theorem starts_eraseGo : Starts s ch op p .erase (eraseGo ch p s) := by
  unfold eraseGo
  split
  · split
    · refine ⟨rfl, ?_, fun _ _ => .map (.map (t := s) (.refl _ s))⟩
      rw [show getLun (setCourse _ _ _) ch (eLun p.e) = getLun (startOp ch p .erase s) ch (eLun p.e) from rfl, startOp,
        getLun_setLun]
    · exact starts_startOp
  · exact starts_startOp

/-- A die-starting row that joins no read launches an operation of its own. -/
theorem exec_dieRow {c : Instr} (hrow : dieRow c = some (ch, idx, op, kind)) (hat : entryAt s (.fch ch) idx op = some p)
    (her : op = 4 → mayErase s ch (eLun p.e) (eBrick p.e) = true) (hj : op = 1 → joins s ch p = false) :
    ∃ go, exec c s = .next (launch ch idx p false go s) ∧ Starts s ch op p kind (go s) := by
  unfold dieRow at hrow
  split at hrow
  all_goals
    simp only [Option.some.injEq, Prod.mk.injEq, reduceCtorEq] at hrow
  all_goals
    obtain ⟨rfl, rfl, rfl, rfl⟩ := hrow
  · refine ⟨_, congrArg Host.Outcome.next ((onEntry_of_some _ hat).trans (if_neg ?_)), starts_launchReads (.inl rfl) p.e⟩
    rw [hj rfl]
    decide
  · exact ⟨_, congrArg Host.Outcome.next (onEntry_of_some _ hat), starts_launchReads (.inr rfl) p.e⟩
  · exact ⟨_, congrArg Host.Outcome.next (onEntry_of_some _ hat), starts_startOp⟩
  · exact ⟨eraseGo _ p, congrArg Host.Outcome.next ((onEntry_of_some _ hat).trans (if_pos (her rfl))), starts_eraseGo⟩
  · exact ⟨_, congrArg Host.Outcome.next (onEntry_of_some _ hat), starts_startOp⟩

/-- A READ_PAGE that joins a read launches with it. -/
theorem exec_readPage_of_joins (hat : entryAt s (.fch ch) idx 1 = some p) (hj : joins s ch p = true) :
    exec (.readPage ch idx) s =
      .next (launch ch idx p true (fun x => launchReads ch p.e (joinRead ch p x)) s) :=
  congrArg Host.Outcome.next ((onEntry_of_some _ hat).trans (if_pos hj))

theorem readPage_of_dieRow {c : Instr} (hrow : dieRow c = some (ch, idx, 1, kind)) : c = .readPage ch idx := by
  unfold dieRow at hrow
  split at hrow
  all_goals
    simp only [Option.some.injEq, Prod.mk.injEq, reduceCtorEq, Nat.reduceEqDiff, and_false, false_and] at hrow
  obtain ⟨rfl, rfl, -⟩ := hrow
  rfl

theorem exec_erase_of_barred {c : Instr} (hrow : dieRow c = some (ch, idx, 4, kind))
    (hat : entryAt s (.fch ch) idx 4 = some p) (h : mayErase s ch (eLun p.e) (eBrick p.e) = false) : exec c s = .next s := by
  unfold dieRow at hrow
  split at hrow
  all_goals
    simp only [Option.some.injEq, Prod.mk.injEq, reduceCtorEq, Nat.reduceEqDiff, and_false, false_and] at hrow
  obtain ⟨rfl, rfl, -⟩ := hrow
  exact congrArg Host.Outcome.next ((onEntry_of_some _ hat).trans (if_neg (by simp [h])))

/-- A joined read senses its target with the read before it (R225). -/
theorem joinRead_spec {o : DieOp} (h : (getLun s ch (eLun p.e)).op = some o) (e : PlanEntry) :
    (launchReads ch e (joinRead ch p s)).beat = s.beat ∧
      (getLun (launchReads ch e (joinRead ch p s)) ch (eLun p.e)).op =
        some { o with targets := o.targets ++ [(eBrick p.e, ePage p.e, eMask p.e)] } := by
  have kept := lunsKept_launchReads ch e (joinRead ch p s)
  have joined : joinRead ch p s = setLun ch (eLun p.e) { getLun s ch (eLun p.e) with op := some { o with
      targets := o.targets ++ [(eBrick p.e, ePage p.e, eMask p.e)] } } s := by
    simp only [joinRead, h]
  rw [kept.getLun, kept.2, joined, getLun_setLun]
  exact ⟨rfl, rfl⟩

theorem getLun_retire {w : PlanUnit} {code : Nat} (t : State) (ch lun : Nat) :
    getLun (retire w idx code t) ch lun = getLun t ch lun := by
  rw [getLun, getLun, retire_map]

/-- Settles O15: a die-starting entry is skipped outside the windows or on a busy LUN, joins a read, or starts its
operation; an erase that the fence bars does not run. -/
theorem dieEntriesLaunch : Obligations.DieEntriesLaunch := by
  refine fun s c ch idx op kind p hrow hat => ⟨fun h4 hmay => ?barred, fun her =>
    ⟨fun hcls hbg => ?closed, fun hw hj => ⟨fun hbusy => ?busy, fun hfree => ?starts⟩, fun hw h1 hj o ho => ?joins⟩⟩
  case barred =>
    subst h4
    exact exec_erase_of_barred hrow hat hmay
  case closed =>
    by_cases hj : op = 1 ∧ joins s ch p = true
    · obtain ⟨rfl, hj⟩ := hj
      rw [readPage_of_dieRow hrow]
      exact ⟨_, (exec_readPage_of_joins hat hj).trans (congrArg _ (launch_of_closed _ hcls hbg)), retiredAs_retire rfl hat,
        retire_tiles⟩
    · obtain ⟨go, hgo, -⟩ := exec_dieRow hrow hat her fun h1 => by simpa [h1] using hj
      exact ⟨_, hgo.trans (congrArg _ (launch_of_closed _ hcls hbg)), retiredAs_retire rfl hat, retire_tiles⟩
  case busy =>
    obtain ⟨go, hgo, -⟩ := exec_dieRow hrow hat her hj
    exact ⟨_, hgo.trans (congrArg _ (launch_of_busy _ hw hbusy)), retiredAs_retire rfl hat, retire_tiles⟩
  case starts =>
    obtain ⟨go, hgo, hbeat, hop, hmap⟩ := exec_dieRow hrow hat her hj
    refine ⟨_, hgo.trans (congrArg _ (launch_of_free _ hw (.inr hfree))), retiredAs_retire hbeat hat, ?_, fun h1 h2 => ?_⟩
    · rw [getLun_retire, hop]
    · exact ((hmap h1 h2).mono (by decide)).trans ((changesOnly_retire).mono (by decide))
  case joins =>
    subst h1
    obtain ⟨hbeat, hop⟩ := joinRead_spec ho p.e
    rw [readPage_of_dieRow hrow]
    refine ⟨_, (exec_readPage_of_joins hat hj).trans (congrArg _ (launch_of_free _ hw (.inl rfl))),
      retiredAs_retire hbeat hat, ?_⟩
    rw [getLun_retire, hop]

end Sys2Proof.Machine

end

/-! ## Suspended, ended and overdue die operations, and transfers (R40, R58, R190, R197, R224, R227, R228, R262, R263) -/

section

-- One proof after another: elaborated side by side, the proofs of this text take more memory than its check allows.
set_option Elab.async false

namespace Sys2Proof.Machine

variable {s t u : State} {ch idx lun : Nat} {p : PEnt} {o : DieOp}

/-! ### A channel's counters and events -/

/-- A counter that fills its register rises to its largest value at most. -/
theorem getF_addF_word (a n : Nat) (s : State) :
    getF (addF ⟨a, 0, 32⟩ n s) ⟨a, 0, 32⟩ = min (2 ^ 32 - 1) (getF s ⟨a, 0, 32⟩ + n) :=
  getF_addF_same _ _ _ (by simp [Fld.ok])


theorem srcOf_baseFch_lt (ch : Nat) {i : Nat} (_ : i < 8) : srcOf (baseFch ch) i < 256 := by
  cases hb : blockOf (baseFch ch) with
  | none => simp [srcOf, hb]
  | some x =>
    obtain ⟨ty, inst, base⟩ := x
    have hlaid : ty = 19 ∧ inst < 32 ∨ ty = 20 ∧ inst < 64 := by
      unfold blockOf baseFch at hb
      simp only [ite_eq_iff, Option.some.injEq, Prod.mk.injEq, reduceCtorEq, and_false, or_false, false_or] at hb
      omega
    rcases hlaid with ⟨rfl, h⟩ | ⟨rfl, h⟩ <;> simp only [srcOf, hb] <;> omega

theorem baseFch_page (ch : Nat) : baseFch ch % 0x1000 = 0 ∧ baseFch ch ≠ 0x5000 := by
  unfold baseFch
  omega

theorem raised_happen_fch (ch : Nat) {i : Nat} (hi : i < 8) (s : State) : raised (baseFch ch) i (happen (baseFch ch) i s) = true :=
  raised_happen _ _ _ (srcOf_baseFch_lt ch hi) (baseFch_page ch).1 (baseFch_page ch).2 (by omega)

theorem changesOnly_happen_fch (ch : Nat) {i : Nat} (hi : i < 8) (s : State) :
    changesOnly eventParts s (happen (baseFch ch) i s) :=
  .happen (.refl _ s) _ _ (by decide) (baseFch_page ch).1 (srcOf_baseFch_lt ch hi)

/-! ### Suspending and resuming -/

/-- The operation as it stands suspended. -/
def suspended (o : DieOp) (s : State) : DieOp := { o with susUsed := o.susUsed + 1, susBeat := beatNow s }

theorem suspendOp_spec (ch lun : Nat) (o : DieOp) (s : State) :
    (getLun (suspendOp ch lun o s) ch lun).op = none ∧
      (getLun (suspendOp ch lun o s) ch lun).susp = some (suspended o s) ∧
      getF (suspendOp ch lun o s) (F.FCH_SUSPENDS_COUNT ch) = min (2 ^ 32 - 1) (getF s (F.FCH_SUSPENDS_COUNT ch) + 1) ∧
      regsKept (· = Reg.FCH_SUSPENDS ch) s (suspendOp ch lun o s) ∧ changesOnly [.map, .regs] s (suspendOp ch lun o s) := by
  have kept : ∀ t f, getLun (addF f 1 t) ch lun = getLun t ch lun := fun t f => by rw [getLun, addF_map, getLun]
  unfold suspendOp
  extract_lets x
  refine ⟨?_, ?_, ?_, ?_, ?_⟩
  · rw [kept, getLun_setLun]
  · rw [kept, getLun_setLun]
    rfl
  · rw [getF_addF_word, getF_congr (s := s) _]
  · exact .addF (.of_regs rfl) _ _ rfl
  · exact .addF (.map (t := s) (.refl _ s)) _ _

section

variable (hat : entryAt s (.fch ch) idx 5 = some p)
include hat

theorem exec_suspend_of_suspendable (ho : (getLun s ch (eLun p.e)).op = some o) (hslot : p.e.slot = 0)
    (hsus : suspendable s ch o = true) :
    exec (.suspend ch idx) s = .next (retire (.fch ch) idx 1 (suspendOp ch (eLun p.e) o s)) := by
  refine congrArg Host.Outcome.next ((onEntry_of_some _ hat).trans (congrArg _ ?_))
  simp only [ho]
  exact if_pos ⟨hslot, hsus⟩

theorem exec_suspend_of_not
    (h : ∀ o, (getLun s ch (eLun p.e)).op = some o → p.e.slot ≠ 0 ∨ suspendable s ch o = false) :
    exec (.suspend ch idx) s = .next (retire (.fch ch) idx 1 s) := by
  refine congrArg Host.Outcome.next ((onEntry_of_some _ hat).trans (congrArg _ ?_))
  split
  · next o ho => exact if_neg fun ⟨hslot, hsus⟩ => (h o ho).elim (· hslot) fun hn => absurd (hsus.symm.trans hn) (by decide)
  · rfl

end

/-- The LUN once its suspended operation runs again: the beats it was suspended are left out (R228). -/
def resumedLun (s : State) (x : Lun) (o : DieOp) : Lun :=
  { x with op := some { o with beat := o.beat + (beatNow s - o.susBeat) }, susp := none }

theorem exec_resume (hat : entryAt s (.fch ch) idx 6 = some p) (hw : p.e.cls ≠ 3 ∨ bgBeat s = true)
    (hfree : (getLun s ch (eLun p.e)).op = none) (hsusp : (getLun s ch (eLun p.e)).susp = some o) :
    exec (.resume ch idx) s = .next (retire (.fch ch) idx 1
      (setLun ch (eLun p.e) (resumedLun s (getLun s ch (eLun p.e)) o) s)) := by
  refine congrArg Host.Outcome.next ((onEntry_of_some _ hat).trans ((launch_of_free _ hw (.inr hfree)).trans (congrArg _ ?_)))
  simp only [hsusp]
  rfl

/-! ### The end of an operation -/

section

variable {r : DieStatus} (hat : entryAt s (.fch ch) idx 7 = some p)
include hat

theorem exec_status_of_idle (hfree : (getLun s ch (eLun p.e)).op = none) :
    exec (.status ch idx r) s = .next (retire (.fch ch) idx 1 s) := by
  refine congrArg Host.Outcome.next ((onEntry_of_some _ hat).trans ?_)
  simp only [hfree]

theorem exec_status_busy : exec (.status ch idx .busy) s = .next (retire (.fch ch) idx 1 s) := by
  refine congrArg Host.Outcome.next ((onEntry_of_some _ hat).trans ?_)
  dsimp only
  split <;> rfl

theorem exec_status_done (ho : (getLun s ch (eLun p.e)).op = some o) :
    exec (.status ch idx .done) s = .next (retire (.fch ch) idx 1 (opDone ch (eLun p.e) o s)) := by
  refine congrArg Host.Outcome.next ((onEntry_of_some _ hat).trans ?_)
  simp only [ho]

theorem exec_status_failed (ho : (getLun s ch (eLun p.e)).op = some o) :
    exec (.status ch idx .failed) s = .next (retire (.fch ch) idx 3 (opFailed ch (eLun p.e) o s)) := by
  refine congrArg Host.Outcome.next ((onEntry_of_some _ hat).trans ?_)
  simp only [ho]

end

theorem lunsKept_writeLoads (ch lun b : Nat) (l : List (Nat × Nat)) (s : State) : lunsKept s (writeLoads ch lun b l s) :=
  .foldl (.refl s) fun _ _ _ => .foldl (.refl _) fun _ _ _ => ⟨rfl, rfl⟩

/-- A program done leaves its LUN without loads; the rest of the LUNs and the beat stay. -/
theorem programDone_luns (ch lun b : Nat) (s : State) :
    lunsKept (setLun ch lun { getLun s ch lun with loads := [] } s) (programDone ch lun b s) := by
  have loaded := lunsKept_writeLoads ch lun b (getLun s ch lun).loads (setLun ch lun { getLun s ch lun with loads := [] } s)
  unfold programDone
  dsimp only
  split
  · exact loaded.trans ⟨rfl, rfl⟩
  · split
    · exact loaded.trans ⟨rfl, rfl⟩
    · exact loaded.trans ⟨rfl, rfl⟩

theorem opDone_spec (ch lun : Nat) {o : DieOp} (s : State) (h : o.kind ≠ .erase) :
    (opDone ch lun o s).beat = s.beat ∧ (getLun (opDone ch lun o s) ch lun).op = none ∧
      (o.kind = .program → (getLun (opDone ch lun o s) ch lun).loads = []) ∧
      (o.kind = .read ∨ o.kind = .soft → (getLun (opDone ch lun o s) ch lun).sensed = o.targets) := by
  unfold opDone
  dsimp only
  split
  · next hk =>
    rw [getLun_setLun]
    exact ⟨rfl, rfl, fun e => by simp [hk] at e, fun _ => rfl⟩
  · next hk =>
    rw [getLun_setLun]
    exact ⟨rfl, rfl, fun e => by simp [hk] at e, fun _ => rfl⟩
  · next hk =>
    have done := fun t => programDone_luns ch lun ((o.targets.head?.map (·.1)).getD 0) t
    rw [(done _).getLun, (done _).2, getLun_setLun]
    refine ⟨rfl, ?_, fun _ => rfl, fun e => by simp [hk] at e⟩
    exact congrArg Lun.op (getLun_setLun ch lun _ s)
  · next hk => exact absurd hk h
  · next hk =>
    refine ⟨rfl, congrArg Lun.op (getLun_setLun ch lun _ s), fun e => by simp [hk] at e, fun e => by simp [hk] at e⟩

/-! ### Overdue operations and the end of a window -/

/-- TIMEOUT of an overdue operation: its event, and one more timeout in a row of the LUN (R262). -/
def timedOut (ch lun : Nat) (s : State) : State :=
  happen (baseFch ch) 2 { s with trowel := { s.trowel with timeouts := bumpT (lunKey ch lun) s.trowel.timeouts } }

theorem exec_dieOpTimeout_of_overdue (ho : (getLun s ch lun).op = some o) (hd : overdue s ch o = true)
    (hfroz : s.grout.frozen = false) :
    exec (.dieOpTimeout ch lun) s = .next (checkResets ch lun (opFailed ch lun o (timedOut ch lun s))) := by
  refine congrArg Host.Outcome.next ?_
  simp only [timeoutDo, ho]
  exact if_pos ⟨hd, hfroz⟩

theorem exec_dieOpTimeout_of_not (ho : (getLun s ch lun).op = some o)
    (h : overdue s ch o = false ∨ s.grout.frozen = true) : exec (.dieOpTimeout ch lun) s = .next s := by
  refine congrArg Host.Outcome.next ?_
  simp only [timeoutDo, ho]
  exact if_neg fun ⟨hd, hf⟩ => h.elim (fun k => absurd (hd.symm.trans k) (by decide)) fun k => absurd (hf.symm.trans k) (by decide)

theorem timedOut_spec (ch lun : Nat) (s : State) :
    raised (baseFch ch) 2 (timedOut ch lun s) = true ∧
      tget zeroD (timedOut ch lun s).trowel.timeouts (lunKey ch lun) = tget zeroD s.trowel.timeouts (lunKey ch lun) + 1 ∧
      changesOnly (.trowel :: eventParts) s (timedOut ch lun s) := by
  refine ⟨raised_happen_fch ch (by decide) _, ?_, ?_⟩
  · rw [timedOut, happen_trowel, bumpT, tget_tset_same]
  · exact (changesOnly.trowel (.refl _ s)).trans ((changesOnly_happen_fch ch (by decide) _).mono (by decide))

theorem exec_bgWindowEnd {ok : Bool} (ho : (getLun s ch lun).op = some o) (hbg : o.bg = true) (hw : bgBeat s = false)
    (hk : o.kind = .program ∨ o.kind = .erase) :
    exec (.bgWindowEnd ch lun ok) s =
      .next (if ok && suspendable s ch o then suspendOp ch lun o s else happen baseBeat 6 s) := by
  refine congrArg Host.Outcome.next ?_
  simp only [windowEnd, ho]
  refine if_pos ?_
  rcases hk with hk | hk <;> simp [hbg, hw, hk]

theorem exec_bgWindowEnd_of_not {ok : Bool} (ho : (getLun s ch lun).op = some o) (h : o.bg = false ∨ bgBeat s = true) :
    exec (.bgWindowEnd ch lun ok) s = .next s := by
  refine congrArg Host.Outcome.next ?_
  simp only [windowEnd, ho]
  refine if_neg ?_
  rcases h with h | h <;> simp [h]

/-! ### Transfers -/

theorem noteXfer_spec (ch lun : Nat) (s : State) :
    raised (baseFch ch) 3 (noteXfer ch lun s) = true ∧ (noteXfer ch lun s).map = s.map ∧ (noteXfer ch lun s).beat = s.beat := by
  unfold noteXfer
  refine ⟨?_, by rw [addF_map, happen_map], by rw [addF_beat, happen_beat]⟩
  refine raisedKept.setF (.refl _) _ _ ?_ (baseFch ch) 3 (baseFch_page ch).1 (baseFch_page ch).2 (by decide)
    (raised_happen_fch ch (by decide) _)
  simp only [Reg.FCH_XFER_ERR]
  omega

/-- What a LOAD gives its LUN: the plane-pages named, of its slot (R190). -/
def loadedPages (s : State) (e : PlanEntry) : List (Nat × Nat) :=
  ((List.range (planes s)).filter (fun i => decide (bitsOf (eMask e) i 1 = 1))).map
    (fun i => (ePage e * planes s + i, eYard e))

/-- The LUN once a LOAD has given it its pages. -/
def loadedLun (s : State) (x : Lun) (e : PlanEntry) : Lun :=
  { x with loads := x.loads.filter (fun l => !(loadedPages s e).any (fun q => q.1 == l.1)) ++ loadedPages s e }

theorem mem_loadedPages {e : PlanEntry} {i : Nat} (hi : i < planes s) (hm : bitsOf (eMask e) i 1 = 1) :
    (ePage e * planes s + i, eYard e) ∈ loadedPages s e :=
  List.mem_map.mpr ⟨i, List.mem_filter.mpr ⟨List.mem_range.mpr hi, decide_eq_true hm⟩, rfl⟩

/-- A state's map apart from its slots and counters: the LUNs and the beat are kept, and only the map changes. -/
theorem padSlot_frame (k : Nat) (s : State) : lunsKept s (padSlot k s) ∧ changesOnly [.map] s (padSlot k s) :=
  ⟨.foldl (.refl s) fun _ _ _ => ⟨rfl, rfl⟩, .foldl (.refl _ s) fun u _ _ => .map (.map (t := u) (.refl _ u))⟩

theorem slotLoaded_frame (k : Nat) (s : State) : lunsKept s (slotLoaded k s) ∧ changesOnly [.map] s (slotLoaded k s) := by
  unfold slotLoaded
  dsimp only
  split
  · exact ⟨⟨rfl, rfl⟩, .map (.refl _ s)⟩
  · exact ⟨(padSlot_frame k s).1.trans ⟨rfl, rfl⟩, (padSlot_frame k s).2.trans (.map (.refl _ _))⟩
  · exact ⟨.refl s, .refl _ s⟩

theorem slotLoaded_laid (k : Nat) (s : State) (h : (getSlot s k).st = .staged ∨ (getSlot s k).st = .filling) :
    (getSlot (slotLoaded k s) k).st = .laid := by
  unfold slotLoaded
  rcases h with h | h
  · simp only [h, getSlot_setSlot]
  · simp only [h, getSlot_setSlot]

section

variable (hat : entryAt s (.fch ch) idx 8 = some p)
include hat

theorem exec_load_of_error :
    exec (.load ch idx true) s = .next (retire (.fch ch) idx 5 (noteXfer ch (eLun p.e) s)) :=
  congrArg Host.Outcome.next (onEntry_of_some _ hat)

theorem exec_load_of_none (h : eYardValid p.e = false) :
    exec (.load ch idx false) s = .next (retire (.fch ch) idx 1 s) := by
  refine congrArg Host.Outcome.next ((onEntry_of_some _ hat).trans ?_)
  simp only [h]
  rfl

theorem exec_load_of_slot (h : eYardValid p.e = true) :
    exec (.load ch idx false) s = .next (retire (.fch ch) idx 1 (slotLoaded (eYard p.e)
      (setLun ch (eLun p.e) (loadedLun s (getLun s ch (eLun p.e)) p.e) (xferGood ch s)))) := by
  refine congrArg Host.Outcome.next ((onEntry_of_some _ hat).trans ?_)
  simp only [h]
  rfl

end

theorem getRd_rdTo (i j : Nat) (st : RdSt) (s : State) :
    (getRd (rdTo i st s) j).st = if j = i then st else (getRd s j).st := by
  rw [rdTo, setRd, getRd]
  change (tget rdD (tset rdD i _ s.map.rds) j).st = _
  rw [tget_tset]
  split <;> rfl

/-- Every read of a list that is moved to a state, one after the other, is in it in the end. -/
theorem st_foldl_rdTo {l : List Nat} {i : Nat} (st : RdSt) (s : State) (h : i ∈ l) :
    (getRd (l.foldl (fun x j => rdTo j st x) s) i).st = st := by
  have moved : ∀ (l : List Nat) (s : State), i ∈ l ∨ (getRd s i).st = st →
      (getRd (l.foldl (fun x j => rdTo j st x) s) i).st = st := by
    intro l
    induction l with
    | nil => exact fun s h => h.resolve_left List.not_mem_nil
    | cons j l ih =>
      intro s h
      refine ih _ ?_
      rw [getRd_rdTo]
      by_cases hj : i = j
      · exact .inr (if_pos hj)
      · rw [if_neg hj]
        exact h.imp_left fun h => (List.mem_cons.mp h).resolve_left hj
  exact moved l s (.inl h)

section

variable (hat : entryAt s (.fch ch) idx 9 = some p)
include hat

theorem exec_fetch_of_busy (e : Bool) :
    exec (.fetch ch idx true e) s = .next (retire (.fch ch) idx 2 (addF (F.FCH_READ_LATE_COUNT ch) 1 s)) :=
  congrArg Host.Outcome.next (onEntry_of_some _ hat)

theorem exec_fetch_of_error :
    exec (.fetch ch idx false true) s = .next (retire (.fch ch) idx 5 (noteXfer ch (eLun p.e) s)) :=
  congrArg Host.Outcome.next (onEntry_of_some _ hat)

theorem exec_fetch_of_moved :
    exec (.fetch ch idx false false) s = .next (retire (.fch ch) idx 1
      ((fetchable s ch p.e).foldl (fun x i => rdTo i .fetched x) (xferGood ch s))) :=
  congrArg Host.Outcome.next (onEntry_of_some _ hat)

end

/-- What retires behind an operation that leaves the beat and changes only certain parts. -/
theorem retire_after {ps : List Part} {w : PlanUnit} {op code : Nat} (hat : entryAt s w idx op = some p)
    (h : changesOnly ps s t) (hbeat : .beat ∉ ps := by decide) (h2 : code ≠ 2 := by decide) (h6 : code ≠ 6 := by decide) :
    retiredAs w idx code s (retire w idx code t) ∧ changesOnly (.beat :: ps) s (retire w idx code t) :=
  ⟨retiredAs_retire (h.beat_eq hbeat) hat, (h.mono fun _ hp => List.mem_cons_of_mem _ hp).trans
    ((changesOnly_retire h2 h6).mono fun _ hp => by rw [List.mem_singleton.mp hp]; exact List.mem_cons_self ..)⟩

/-- Settles O16: what each entry and row does, by the equation of the row and what its operation leaves. -/
theorem dieOperationsEndAndBlocksMove : Obligations.DieOperationsEndAndBlocksMove := by
  refine ⟨fun s ch idx p => ⟨fun hat => ⟨fun o ho hslot hsus => ?suspend, fun h => ?keepsOn⟩,
      fun o hat hw hfree hsusp => ?resume, fun hat => ⟨fun r hfree => ?idle, ?busy, fun o ho => ⟨fun hk => ?done,
        exec_status_done hat ho, exec_status_failed hat ho⟩⟩,
      fun lun o ho => ⟨fun hd hfroz => ?overdue, exec_dieOpTimeout_of_not ho, fun hbg hw hk => ⟨fun hsus => ?window, ?overrun⟩,
        fun h ok => exec_bgWindowEnd_of_not ho h⟩⟩,
    fun s ch idx p => ⟨fun hat => ⟨?loadError, fun h => ?loadNone, fun h => ?loadSlot⟩,
      fun hat => ⟨fun e => ?fetchBusy, ?fetchError, ?fetched⟩⟩⟩
  case suspend =>
    obtain ⟨hop, hsusp, hcount, hregs, hparts⟩ := suspendOp_spec ch (eLun p.e) o s
    obtain ⟨hret, hall⟩ := retire_after (code := 1) hat hparts
    refine ⟨_, exec_suspend_of_suspendable hat ho hslot hsus, hret, ?_, ?_, ?_, hregs.congr retire_regs, hall⟩
    · rw [getLun_retire, hop]
    · rw [getLun_retire, hsusp]
      rfl
    · rw [getF_congr _ retire_regs, hcount]
  case keepsOn =>
    exact ⟨_, exec_suspend_of_not hat h, retire_after hat (.refl [] s)⟩
  case resume =>
    obtain ⟨hret, hall⟩ := retire_after (code := 1) hat (changesOnly.map (ps := [.map]) (.refl _ s)
      : changesOnly [.map] s (setLun ch (eLun p.e) (resumedLun s (getLun s ch (eLun p.e)) o) s))
    refine ⟨_, exec_resume hat hw hfree hsusp, hret, ?_, ?_, hall⟩
    · rw [getLun_retire, getLun_setLun]
      rfl
    · rw [getLun_retire, getLun_setLun]
      rfl
  case idle => exact ⟨_, exec_status_of_idle hat hfree, retire_after hat (.refl [] s)⟩
  case busy => exact ⟨_, exec_status_busy hat, retire_after hat (.refl [] s)⟩
  case done =>
    obtain ⟨hbeat, hop, hloads, hsensed⟩ := opDone_spec ch (eLun p.e) s hk
    refine ⟨_, exec_status_done hat ho, retiredAs_retire hbeat hat, ?_⟩
    rw [getLun_retire]
    exact ⟨hop, hloads, hsensed⟩
  case overdue =>
    obtain ⟨hraised, hcount, hparts⟩ := timedOut_spec ch lun s
    exact ⟨_, hraised, hcount, hparts, exec_dieOpTimeout_of_overdue ho hd hfroz⟩
  case window =>
    obtain ⟨hop, hsusp, -, -, hparts⟩ := suspendOp_spec ch lun o s
    exact ⟨_, (exec_bgWindowEnd ho hbg hw hk).trans (congrArg _ (if_pos hsus)), hop, hsusp, hparts⟩
  case overrun =>
    exact ⟨_, exec_bgWindowEnd ho hbg hw hk, raised_happen _ _ _ (by decide) (by decide) (by decide) (by decide),
      evtOnly_happen _ _ _ (by decide) (by decide)⟩
  case loadError =>
    obtain ⟨hraised, hmap, hbeat⟩ := noteXfer_spec ch (eLun p.e) s
    exact ⟨_, exec_load_of_error hat, retiredAs_retire hbeat hat, (raised_of_regs _ _ retire_regs).trans hraised,
      retire_map.trans hmap⟩
  case loadNone => exact ⟨_, exec_load_of_none hat h, retire_after hat (.refl [] s)⟩
  case loadSlot =>
    have good : changesOnly [.map, .trowel] s
        (setLun ch (eLun p.e) (loadedLun s (getLun s ch (eLun p.e)) p.e) (xferGood ch s)) := .map (.trowel (.refl _ s))
    obtain ⟨hluns, hparts⟩ := slotLoaded_frame (eYard p.e)
      (setLun ch (eLun p.e) (loadedLun s (getLun s ch (eLun p.e)) p.e) (xferGood ch s))
    obtain ⟨hret, hall⟩ := retire_after (code := 1) hat (good.trans (hparts.mono (by decide)))
    refine ⟨_, exec_load_of_slot hat h, hret, fun i hi hm => ?_, fun hst => ?_, hall⟩
    · rw [getLun_retire, hluns.getLun, getLun_setLun]
      exact List.mem_append_right _ (mem_loadedPages hi hm)
    · rw [getSlot, retire_map]
      exact slotLoaded_laid _ _ hst
  case fetchBusy =>
    have parts : changesOnly [.regs] s (addF (F.FCH_READ_LATE_COUNT ch) 1 s) := .addF (.refl _ s) _ _
    refine ⟨_, exec_fetch_of_busy hat e, retiredAs_retire parts.beat_eq hat, ?_, retire_map.trans parts.map_eq⟩
    rw [getF_congr _ retire_regs, getF_addF_word]
  case fetchError =>
    obtain ⟨hraised, hmap, hbeat⟩ := noteXfer_spec ch (eLun p.e) s
    exact ⟨_, exec_fetch_of_error hat, retiredAs_retire hbeat hat, (raised_of_regs _ _ retire_regs).trans hraised,
      retire_map.trans hmap⟩
  case fetched =>
    have moved : changesOnly [.map, .trowel] s
        ((fetchable s ch p.e).foldl (fun x i => rdTo i .fetched x) (xferGood ch s)) :=
      .foldl (.trowel (.refl _ s)) fun u _ _ => .map (.refl _ u)
    obtain ⟨hret, hall⟩ := retire_after (code := 1) hat moved
    refine ⟨_, exec_fetch_of_moved hat, hret, fun i hi => ?_, hall⟩
    rw [getRd, retire_map]
    exact st_foldl_rdTo .fetched _ hi

end Sys2Proof.Machine

end

/-! ## Reads: decoding, the ladder and the MAC check (R20, R101, R231 to R234, R308, R319) -/

section

-- One proof after another: elaborated side by side, the proofs of this text take more memory than its check allows.
set_option Elab.async false

namespace Sys2Proof.Machine

variable {s t u : State} {i k : Nat}

/-! ### The keys of a table -/

section

variable {α : Type} {d : Nat → α} {j k : Nat} {v : α} {x : Tbl α}

theorem any_key_iff_find : x.any (fun p => p.1 == k) = (x.find? (fun p => p.1 == k)).isSome := by
  rw [Bool.eq_iff_iff, List.any_eq_true, List.find?_isSome]

theorem any_terase_same : (terase k x).any (fun p => p.1 == k) = false := by
  rw [any_key_iff_find, find_terase_same]
  rfl

theorem any_terase_ne (h : j ≠ k) : (terase k x).any (fun p => p.1 == j) = x.any (fun p => p.1 == j) := by
  rw [any_key_iff_find, any_key_iff_find, find_terase_ne h]

theorem any_tset_ne [DecidableEq α] (h : j ≠ k) : (tset d k v x).any (fun p => p.1 == j) = x.any (fun p => p.1 == j) := by
  unfold tset
  split
  · exact any_terase_ne h
  · rw [any_key_iff_find, find_tinsert_ne _ _ h, ← any_key_iff_find, any_terase_ne h]

theorem any_tset_same [DecidableEq α] (h : v ≠ d k) : (tset d k v x).any (fun p => p.1 == k) = true := by
  rw [tset, if_neg h, any_key_iff_find, find_tinsert_same _ _ _ (find_terase_same k x)]
  rfl

theorem tget_terase_ne (h : j ≠ k) : tget d (terase k x) j = tget d x j := by
  unfold tget
  rw [find_terase_ne h]

theorem tget_terase_same : tget d (terase k x) k = d k := by
  unfold tget
  rw [find_terase_same]

end

/-! ### What the steps of a decode leave -/

/-- The counters of the decoders, the ladder and the MAC engines. -/
def readCounter (a : Nat) : Prop := 0x18120 ≤ a ∧ a < 0x18200 ∨ 0x12000 ≤ a ∧ a < 0x13000

/-- The reads, the flash, the commands and what has left the part are as they were. -/
structure ReadsKept (s t : State) : Prop where
  rds : t.map.rds = s.map.rds
  flash : t.map.flash = s.map.flash
  host : t.host = s.host
  out : t.out = s.out
  grout : t.grout = s.grout

namespace ReadsKept

theorem refl (s : State) : ReadsKept s s := ⟨rfl, rfl, rfl, rfl, rfl⟩

theorem trans (h : ReadsKept s t) (k : ReadsKept t u) : ReadsKept s u :=
  ⟨k.rds.trans h.rds, k.flash.trans h.flash, k.host.trans h.host, k.out.trans h.out, k.grout.trans h.grout⟩

theorem addF (h : ReadsKept s t) (f : Fld) (n : Nat) : ReadsKept s (addF f n t) :=
  h.trans ⟨by rw [addF_map], by rw [addF_map], by rw [addF_host], by rw [addF_out], by rw [addF_grout]⟩

theorem happen (h : ReadsKept s t) (base i : Nat) : ReadsKept s (happen base i t) :=
  h.trans ⟨by rw [happen_map], by rw [happen_map], by rw [happen_host], by rw [happen_out], by rw [happen_grout]⟩

theorem ite {c : Prop} [Decidable c] (ht : ReadsKept s t) (hu : ReadsKept s u) : ReadsKept s (if c then t else u) := by
  split <;> assumption

theorem getRd (h : ReadsKept s t) (i : Nat) : getRd t i = getRd s i := congrArg (tget rdD · i) h.rds

theorem getCmd (h : ReadsKept s t) (i : Nat) : getCmd t i = getCmd s i := by
  rw [Machine.getCmd, h.host, Machine.getCmd]

theorem hasCmd (h : ReadsKept s t) (i : Nat) : hasCmd t i = hasCmd s i := by
  rw [Machine.hasCmd, h.host, Machine.hasCmd]

theorem addThousand (h : ReadsKept s t) (key : Nat) (f : Fld) (n : Nat) : ReadsKept s (addThousand key f n t) := by
  have kept : ∀ m, ReadsKept t { t with map := { t.map with rem := m } } := fun _ => ⟨rfl, rfl, rfl, rfl, rfl⟩
  unfold Machine.addThousand
  exact h.trans (.ite (.addF (kept _) _ _) (kept _))

theorem oncePerFrame (h : ReadsKept s t) (key base i : Nat) : ReadsKept s
    (oncePerFrame key (Machine.happen base i) t) := by
  have kept : ∀ l, ReadsKept t { t with beat := { t.beat with frameRaised := l } } := fun _ => ⟨rfl, rfl, rfl, rfl, rfl⟩
  obtain ⟨-, e⟩ | ⟨-, e⟩ := oncePerFrame_cases key (Machine.happen base i) t
  · rwa [e]
  · rw [e]
    exact h.trans (.happen (kept _) _ _)

theorem atMargin (h : ReadsKept s t) (ch lun b : Nat) : ReadsKept s (atMargin ch lun b t) := by
  unfold Machine.atMargin queueRefresh
  split
  · exact h.trans (.ite (.refl t) ⟨rfl, rfl, rfl, rfl, rfl⟩)
  · exact h

end ReadsKept

/-- What a ladder step is chosen by is as it was. -/
structure LadderKept (s t : State) : Prop extends ReadsKept s t where
  regs : regsKeptE readCounter s t
  now : beatNow t = beatNow s
  courses : t.map.courses = s.map.courses

namespace LadderKept

theorem refl (s : State) : LadderKept s s := ⟨.refl s, .refl s, rfl, rfl⟩

theorem trans (h : LadderKept s t) (k : LadderKept t u) : LadderKept s u :=
  ⟨h.toReadsKept.trans k.toReadsKept, h.regs.trans k.regs, k.now.trans h.now, k.courses.trans h.courses⟩

theorem addF (h : LadderKept s t) (f : Fld) (n : Nat) (hf : readCounter f.addr := by unfold readCounter; decide) :
    LadderKept s (addF f n t) :=
  ⟨h.toReadsKept.addF f n, h.regs.addF f n hf, by rw [beatNow, addF_beat, ← beatNow, h.now], by rw [addF_map, h.courses]⟩

theorem happen (h : LadderKept s t) (base i : Nat) (hb : base % 0x1000 = 0 := by decide)
    (hs : srcOf base i < 256 := by decide) : LadderKept s (happen base i t) :=
  ⟨h.toReadsKept.happen base i, h.regs.happen base i hb hs, by rw [beatNow, happen_beat, ← beatNow, h.now],
    by rw [happen_map, h.courses]⟩

theorem ite {c : Prop} [Decidable c] (ht : LadderKept s t) (hu : LadderKept s u) :
    LadderKept s (if c then t else u) := by
  split <;> assumption

theorem addThousand (h : LadderKept s t) (key : Nat) (f : Fld) (n : Nat)
    (hf : readCounter f.addr := by unfold readCounter; decide) : LadderKept s (addThousand key f n t) := by
  have kept : ∀ m, LadderKept t { t with map := { t.map with rem := m } } := fun m =>
    ⟨⟨rfl, rfl, rfl, rfl, rfl⟩, .of_regs rfl, rfl, rfl⟩
  unfold Machine.addThousand
  exact h.trans (.ite (.addF (kept _) f _ hf) (kept _))

theorem oncePerFrame (h : LadderKept s t) (key base i : Nat) (hb : base % 0x1000 = 0 := by decide)
    (hs : srcOf base i < 256 := by decide) : LadderKept s (oncePerFrame key (Machine.happen base i) t) := by
  have kept : ∀ l, LadderKept t { t with beat := { t.beat with frameRaised := l } } := fun l =>
    ⟨⟨rfl, rfl, rfl, rfl, rfl⟩, .of_regs rfl, rfl, rfl⟩
  obtain ⟨-, e⟩ | ⟨-, e⟩ := oncePerFrame_cases key (Machine.happen base i) t
  · rwa [e]
  · rw [e]
    exact h.trans (.happen (kept _) base i hb hs)

theorem isSet (h : LadderKept s t) {f : Fld} (ha : ¬ readCounter f.addr) (hq : quietReg f.addr = true) :
    isSet t f = isSet s f := isSet_of_getF (h.regs.getF ha hq)

theorem lunLost (h : LadderKept s t) (ch lun : Nat) : lunLost t ch lun = lunLost s ch lun := by
  have lo : ∀ n, Machine.isSet t (bitF (Reg.FCH_LUN_LOST_LO ch) n) = Machine.isSet s (bitF (Reg.FCH_LUN_LOST_LO ch) n) :=
    fun n => h.isSet (by simp only [readCounter, bitF, Reg.FCH_LUN_LOST_LO]; omega)
      (decide_eq_true (by simp only [bitF, Reg.FCH_LUN_LOST_LO]; omega))
  have hi : ∀ n, Machine.isSet t (bitF (Reg.FCH_LUN_LOST_HI ch) n) = Machine.isSet s (bitF (Reg.FCH_LUN_LOST_HI ch) n) :=
    fun n => h.isSet (by simp only [readCounter, bitF, Reg.FCH_LUN_LOST_HI]; omega)
      (decide_eq_true (by simp only [bitF, Reg.FCH_LUN_LOST_HI]; omega))
  rw [Machine.lunLost, lo, hi, ← Machine.lunLost]

theorem stepAllowed (h : LadderKept s t) (r : Rd) (k : Nat) : stepAllowed t r k = stepAllowed s r k := by
  have step1 : Machine.isSet t F.LDPC_LADDER_STEP1_EN = _ := h.isSet (by unfold readCounter; decide) (by decide)
  have step2 : Machine.isSet t F.LDPC_LADDER_STEP2_EN = _ := h.isSet (by unfold readCounter; decide) (by decide)
  have step3 : Machine.isSet t F.LDPC_LADDER_STEP3_EN = _ := h.isSet (by unfold readCounter; decide) (by decide)
  have soft : Machine.isSet t F.LDPC_LADDER_LR_SKIP_SOFT = _ := h.isSet (by unfold readCounter; decide) (by decide)
  unfold Machine.stepAllowed inTime
  rw [h.lunLost, h.now, step1, step2, step3, soft]

theorem nextStep (h : LadderKept s t) (r : Rd) (k : Nat) : nextStep t r k = nextStep s r k := by
  unfold Machine.nextStep
  simp only [h.stepAllowed]

theorem courseTable (h : LadderKept s t) (c : Nat) : courseTable t c = courseTable s c := by
  have wide : width t = width s := h.regs.getF (by unfold readCounter; decide) (by decide)
  unfold Machine.courseTable
  rw [getCourse, h.courses, wide, ← getCourse]

theorem sourcesOf (h : LadderKept s t) (r : Rd) : sourcesOf t r = sourcesOf s r := by
  have placed : ∀ ch lun b, courseOf t ch lun b = courseOf s ch lun b := fun ch lun b => by
    unfold courseOf
    simp only [h.courseTable, h.courses]
  unfold Machine.sourcesOf
  simp only [placed, h.courseTable, h.lunLost]

end LadderKept

/-! ### A codeword that decodes -/

/-- The counts of a decode, before its outcome is looked at. -/
def decodeCounted (i : Nat) (d : DecodeResult) (s : State) : State :=
  let s1 := if 1 < d.waitedBeats then oncePerFrame 1002 (happen baseLdpc 3) s else s
  if decide ((getRd s i).step ≤ 1) then addThousand remHardCw F.LDPC_HARD_CW_COUNT 1 s1 else s1

theorem ladderKept_decodeCounted (i : Nat) (d : DecodeResult) (s : State) : LadderKept s (decodeCounted i d s) := by
  have waited : LadderKept s (if 1 < d.waitedBeats then oncePerFrame 1002 (happen baseLdpc 3) s else s) :=
    .ite (.oncePerFrame (.refl s) 1002 baseLdpc 3) (.refl s)
  exact .ite (waited.addThousand ..) waited

/-- The counts of a decode that fails. -/
def failCounted (i : Nat) (d : DecodeResult) (s : State) : State :=
  if decide ((getRd s i).step ≤ 1) then addF F.LDPC_HARD_FAIL_COUNT 1 (decodeCounted i d s) else decodeCounted i d s

theorem ladderKept_failCounted (i : Nat) (d : DecodeResult) (s : State) : LadderKept s (failCounted i d s) :=
  .ite ((ladderKept_decodeCounted i d s).addF F.LDPC_HARD_FAIL_COUNT 1) (ladderKept_decodeCounted i d s)

/-- The count of a codeword at its margin, and the refresh it asks for (R256). -/
def marginNoted (i : Nat) (d : DecodeResult) (s t : State) : State :=
  if decide (getF s F.LDPC_CFG_MARGIN ≤ d.corrected) then
    atMargin (getRd s i).ch (getRd s i).lun (getRd s i).brick (addF F.LDPC_MARGIN_HITS_COUNT 1 t)
  else t

theorem readsKept_decoded (i : Nat) (d : DecodeResult) (s : State) :
    ReadsKept s (marginNoted i d s (decodeCounted i d s)) :=
  have counted := (ladderKept_decodeCounted i d s).toReadsKept
  .ite ((counted.addF ..).atMargin ..) counted

/-- The block on flash where the read is. -/
def flashBlk (s : State) (r : Rd) : Blk := tget blk0 s.map.flash (flashKey r.ch r.lun r.brick r.u r.t)

section

variable {d : DecodeResult} (hhas : hasRd s i = true) (hst : (getRd s i).st = .fetched)
include hhas hst

theorem exec_decode_of_failed (hok : d.ok = false) :
    exec (.ldpcDecodeDone i d) s = .next (climb i
      (failCounted i d s)) := by
  refine congrArg Host.Outcome.next ((if_pos hhas).trans ?_)
  unfold decodeDone
  simp only [hst, hok]
  rfl

theorem exec_decode_of_source {p : Nat} (hok : d.ok = true) (hk : (getRd s i).kind = .source p) :
    exec (.ldpcDecodeDone i d) s =
      .next (sourceDone i (flashBlk s (getRd s i)) (marginNoted i d s (decodeCounted i d s))) := by
  refine congrArg Host.Outcome.next ((if_pos hhas).trans ?_)
  unfold decodeDone
  simp only [hst, hok, hk]
  rfl

theorem exec_decode_of_sample (hok : d.ok = true) (hk : (getRd s i).kind = .sample) :
    exec (.ldpcDecodeDone i d) s =
      .next (sampleDone i (decide (getF s F.LDPC_CFG_MARGIN ≤ d.corrected)) (marginNoted i d s (decodeCounted i d s))) := by
  refine congrArg Host.Outcome.next ((if_pos hhas).trans ?_)
  unfold decodeDone
  simp only [hst, hok, hk]
  rfl

theorem exec_decode_of_block (hok : d.ok = true) (hsrc : ∀ p, (getRd s i).kind ≠ .source p)
    (hsam : (getRd s i).kind ≠ .sample) :
    exec (.ldpcDecodeDone i d) s =
      .next (setRd i { getRd (marginNoted i d s (decodeCounted i d s)) i with
          st := .decoded, blk := flashBlk s (getRd s i), since := beatNow s }
        (marginNoted i d s (decodeCounted i d s))) := by
  refine congrArg Host.Outcome.next ((if_pos hhas).trans ?_)
  unfold decodeDone
  simp only [hst, hok]
  cases hk : (getRd s i).kind
  case source p => exact absurd hk (hsrc p)
  case sample => exact absurd hk hsam
  all_goals rfl

end

/-! ### Reads that leave the table -/

theorem dropRd_spec (i : Nat) (s : State) :
    (dropRd i s).map.rds = terase i s.map.rds ∧ (dropRd i s).host = s.host ∧ (dropRd i s).out = s.out := by
  unfold dropRd
  exact List.foldlRecOn (motive := fun (t : State) => t.map.rds = terase i s.map.rds ∧ t.host = s.host ∧ t.out = s.out) _ _
    ⟨rfl, rfl, rfl⟩ fun _ ht _ _ => ht

theorem hasRd_dropRd (i : Nat) (s : State) : hasRd (dropRd i s) i = false := by
  rw [hasRd, (dropRd_spec i s).1, any_terase_same]

theorem getRd_dropRd {p : Nat} (h : p ≠ i) (s : State) : getRd (dropRd i s) p = getRd s p := by
  rw [getRd, (dropRd_spec i s).1, tget_terase_ne h, getRd]

theorem hasRd_setRd {p : Nat} (h : i ≠ p) (v : Rd) (s : State) : hasRd (setRd p v s) i = hasRd s i := any_tset_ne h

/-! ### The ladder -/

theorem climb_of_block (hsrc : ∀ p, (getRd s i).kind ≠ .source p) (hsam : (getRd s i).kind ≠ .sample) :
    climb i s = goStep i (nextStep s (getRd s i) (getRd s i).step) s := by
  unfold climb
  cases hk : (getRd s i).kind
  case source p => exact absurd hk (hsrc p)
  case sample => exact absurd hk hsam
  all_goals simp only [hk]

/-- A read at its next step, waiting. -/
def stepTaken (i k : Nat) (s : State) : State :=
  setRd i { getRd s i with step := k, st := .waiting, since := beatNow s } s

theorem goStep_of_low (hk : k < 4) (s : State) : goStep i k s =
    if k = 2 then happen (baseFch (getRd s i).ch) 6 (happen baseLdpc 2 (stepTaken i k s)) else stepTaken i k s := by
  unfold goStep
  dsimp only
  split
  · omega
  · omega
  · rfl

theorem goStep_spec (hk : k < 4) (s : State) :
    (getRd (goStep i k s) i).step = k ∧ (getRd (goStep i k s) i).st = .waiting ∧
      (k = 2 → raised baseLdpc 2 (goStep i k s) = true) ∧ (goStep i k s).host = s.host ∧ (goStep i k s).out = s.out ∧
      raisedKept s (goStep i k s) ∧ regsKeptE (fun _ => False) s (goStep i k s) := by
  have hsrc := srcOf_baseFch_lt (getRd s i).ch (i := 6) (by decide)
  obtain ⟨hpage, -⟩ := baseFch_page (getRd s i).ch
  rw [goStep_of_low hk]
  split
  · next h =>
    have soft : raised baseLdpc 2 (happen baseLdpc 2 (stepTaken i k s)) = true :=
      raised_happen _ _ _ (by decide) (by decide) (by decide) (by decide)
    refine ⟨?_, ?_, fun _ => ?_, ?_, ?_, ?_, ?_⟩
    · rw [getRd, happen_map, happen_map, ← getRd, stepTaken, getRd_setRd]
    · rw [getRd, happen_map, happen_map, ← getRd, stepTaken, getRd_setRd]
    · exact raisedKept.happen (.refl _) _ 6 hpage (by decide) hsrc _ _ (by decide) (by decide) (by decide) soft
    · rw [happen_host, happen_host]
      rfl
    · rw [happen_out, happen_out]
      rfl
    · exact .happen (.happen (.congr (t := s) (.refl s)) baseLdpc 2) _ 6 hpage (by decide) hsrc
    · exact .happen (.happen (.of_regs (t := stepTaken i k s) rfl) baseLdpc 2) _ 6 hpage hsrc
  · next h =>
    exact ⟨by rw [stepTaken, getRd_setRd], by rw [stepTaken, getRd_setRd], fun e => absurd e h, rfl, rfl, .congr (.refl s),
      .of_regs rfl⟩

/-- A source read of a read-around of read `i`, of one other position of the course. -/
def sourceRead (i : Nat) (r : Rd) (now : Nat) (acc : List Nat × State) (a : BrickAddr) : List Nat × State :=
  let (j, t) := newRd { r with kind := .source i, ch := a.ch, lun := a.lun, brick := a.brick, step := 0, st := .waiting,
                               deadline := 0, since := now, sources := [], acc := 0 } acc.2
  (acc.1 ++ [j], t)

theorem sourceReads_spec (r : Rd) (now : Nat) (l : List BrickAddr) (acc : List Nat × State) :
    (l.foldl (sourceRead i r now) acc).1.length = acc.1.length + l.length ∧
      (l.foldl (sourceRead i r now) acc).2.host = acc.2.host := by
  induction l generalizing acc with
  | nil => exact ⟨rfl, rfl⟩
  | cons a l ih =>
    obtain ⟨hlen, hhost⟩ := ih (sourceRead i r now acc a)
    refine ⟨?_, hhost⟩
    rw [List.foldl_cons, hlen, sourceRead, List.length_append, List.length_singleton, List.length_cons]
    omega

/-- A read-around reads every other position of its course (R234). -/
theorem readAround_spec {l : List BrickAddr} (h : sourcesOf s (getRd s i) = some l) :
    (getRd (readAround i s) i).step = 4 ∧ (getRd (readAround i s) i).sources.length = l.length ∧
      (readAround i s).host = s.host := by
  have e : readAround i s = setRd i { getRd s i with
        step := 4, st := .waiting, sources := (l.foldl (sourceRead i (getRd s i) (beatNow s))
          ([], addF (F.FCH_RA_TARGET_COUNT (getRd s i).ch) 1 s)).1, acc := 0, since := beatNow s }
      (l.foldl (sourceRead i (getRd s i) (beatNow s)) ([], addF (F.FCH_RA_TARGET_COUNT (getRd s i).ch) 1 s)).2 := by
    unfold readAround
    simp only [h]
    rfl
  obtain ⟨hlen, hhost⟩ := sourceReads_spec (i := i) (getRd s i) (beatNow s) l
    ([], addF (F.FCH_RA_TARGET_COUNT (getRd s i).ch) 1 s)
  rw [e, getRd_setRd]
  refine ⟨rfl, by rw [hlen]; exact Nat.zero_add _, ?_⟩
  rw [addF_host] at hhost
  exact hhost

/-! ### The MAC check -/

theorem ladderKept_countStep (r : Rd) (s : State) : LadderKept s (countStep r s) := by
  unfold countStep
  split
  · exact .addF (.refl s) _ _
  · exact .addF (.refl s) _ _
  · exact .addF (.refl s) _ _
  · exact .addF (.refl s) _ _
  · exact .refl s

theorem readsKept_recordSet (r : Rd) (s : State) : ReadsKept s (recordSet r s) := by
  unfold recordSet
  exact .ite ⟨rfl, rfl, rfl, rfl, rfl⟩ (.refl s)

/-- A verified block's counts and threshold set. -/
def checkCounted (i : Nat) (s : State) : State :=
  recordSet (getRd s i) (countStep (getRd s i) (addThousand remChecked F.MAC_TAGS_CHECKED_COUNT 1 s))

theorem readsKept_checkCounted (i : Nat) (s : State) : ReadsKept s (checkCounted i s) :=
  (((ReadsKept.refl s).addThousand ..).trans (ladderKept_countStep ..).toReadsKept).trans (readsKept_recordSet ..)

/-- A failed check's counts and its event (R308). -/
def checkFailed (s : State) : State := addF F.MAC_TAG_FAIL_COUNT 1 (addF F.LDPC_MAC_FAIL_COUNT 1 (happen baseLdpc 1 s))

theorem ladderKept_checkFailed (s : State) : LadderKept s (checkFailed s) :=
  ((LadderKept.refl s).happen baseLdpc 1).addF F.LDPC_MAC_FAIL_COUNT 1 |>.addF F.MAC_TAG_FAIL_COUNT 1

theorem checkFailed_spec (s : State) : raised baseLdpc 1 (checkFailed s) = true ∧
    getF (checkFailed s) F.MAC_TAG_FAIL_COUNT = min (2 ^ 32 - 1) (getF s F.MAC_TAG_FAIL_COUNT + 1) := by
  refine ⟨?_, ?_⟩
  · have kept := ((raisedKept.refl (happen baseLdpc 1 s)).setF F.LDPC_MAC_FAIL_COUNT
      (min (2 ^ 32 - 1) (getF (happen baseLdpc 1 s) F.LDPC_MAC_FAIL_COUNT + 1))).setF F.MAC_TAG_FAIL_COUNT
      (min (2 ^ 32 - 1) (getF (addF F.LDPC_MAC_FAIL_COUNT 1 (happen baseLdpc 1 s)) F.MAC_TAG_FAIL_COUNT + 1))
    exact kept _ _ (by decide) (by decide) (by decide) (raised_happen _ _ _ (by decide) (by decide) (by decide) (by decide))
  · rw [checkFailed, getF_addF_word, addF, getF_setF_ne _ _ _ _ (by decide),
      getF_happen (by decide) (by decide) (by decide)]

section

variable (hhas : hasRd s i = true) (hup : readSideUp s = true) (hst : (getRd s i).st = .checked)
  (hkey : keyGone s (4 * (getRd s i).tile + entKver (getRd s i).entry) = false) (hbound : i ∉ s.mac.bound)
include hhas hup hst hkey hbound

theorem exec_macCheck_of_ok {pi : Option PiError}
    (hok : blkOk s (getRd s i).tile (getRd s i).nsid (getRd s i).lba (entKver (getRd s i).entry) (getRd s i).blk = true) :
    exec (.macCheckDone i pi) s = .next (verified i pi (checkCounted i s)) := by
  refine congrArg Host.Outcome.next ((if_pos hhas).trans ?_)
  unfold macCheck
  simp only [hup, hst, hkey, List.contains_iff_mem, hbound, hok]
  rfl

theorem exec_macCheck_of_bad {pi : Option PiError} (hyard : entYard (getRd s i).entry = false)
    (hok : blkOk s (getRd s i).tile (getRd s i).nsid (getRd s i).lba (entKver (getRd s i).entry) (getRd s i).blk = false) :
    exec (.macCheckDone i pi) s = .next (climb i (checkFailed s)) := by
  refine congrArg Host.Outcome.next ((if_pos hhas).trans ?_)
  unfold macCheck
  simp only [hup, hst, hkey, List.contains_iff_mem, hbound, hok, hyard]
  rfl

end

theorem blockDone_of_hasCmd {c lba : Nat} (h : hasCmd s c = true) :
    blockDone c lba none s = setCmd c { getCmd s c with left := removeNat lba (getCmd s c).left } s := by
  unfold blockDone
  simp only [h]
  rfl

/-- A host block without fault leaves for the host, and its command no longer waits for it (R20, R101). -/
theorem verified_spec (hk : (getRd s i).kind = .host) (hlost : (blkTag (getRd s i).blk).kind ≠ kindLost)
    (hde : (blkTag (getRd s i).blk).kind ≠ kindDealloc) (hg : grouting s = false) :
    (verified i none s).out = .block (getCmd s (getRd s i).cmd).h.fn (getCmd s (getRd s i).cmd).h.cid (getRd s i).lba
        (blkData (getRd s i).blk) (blkMeta (getRd s i).blk) :: s.out ∧
      (getRd s i).lba ∉ (getCmd (verified i none s) (getRd s i).cmd).left ∧ hasRd (verified i none s) i = false := by
  have sent : verified i none s = dropRd i (blockDone (getRd s i).cmd (getRd s i).lba none
      (emit (.block (getCmd s (getRd s i).cmd).h.fn (getCmd s (getRd s i).cmd).h.cid (getRd s i).lba
        (blkData (getRd s i).blk) (blkMeta (getRd s i).blk))
        (setCmd (getRd s i).cmd { getCmd s (getRd s i).cmd with st := .working } s))) := by
    have hg' : grouting (setCmd (getRd s i).cmd { getCmd s (getRd s i).cmd with st := .working } s) = false := hg
    unfold verified
    simp only [hk, if_neg hlost, sendBlock, if_neg hde, toHost, hg']
    rfl
  have working : hasCmd (emit (.block (getCmd s (getRd s i).cmd).h.fn (getCmd s (getRd s i).cmd).h.cid (getRd s i).lba
        (blkData (getRd s i).blk) (blkMeta (getRd s i).blk))
        (setCmd (getRd s i).cmd { getCmd s (getRd s i).cmd with st := .working } s)) (getRd s i).cmd = true :=
    any_tset_same fun e => CmdSt.noConfusion (congrArg Cmd.st e)
  rw [sent, blockDone_of_hasCmd working]
  refine ⟨(dropRd_spec ..).2.2, ?_, hasRd_dropRd ..⟩
  rw [getCmd, (dropRd_spec ..).2.1, ← getCmd, getCmd_setCmd]
  exact not_mem_removeNat _ _

theorem exec_macCheck_of_down {pi : Option PiError} (hhas : hasRd s i = true) (h : readSideUp s = false) :
    exec (.macCheckDone i pi) s = .next s := by
  refine congrArg Host.Outcome.next ((if_pos hhas).trans ?_)
  unfold macCheck
  simp only [h]
  exact if_pos (by simp)

/-- Settles O18: a decode ends by its outcome and the kind of its read; a check by the block's tag. -/
theorem readsDecodeUnderTheirTags : Obligations.ReadsDecodeUnderTheirTags := by
  refine ⟨fun s i d hhas hst => ⟨fun hok => ⟨fun hsrc hsam => ?block, fun hk => ?sample, fun p hk hp => ?source⟩,
    fun hok hsrc hsam => ⟨fun k hk hlt => ?step, fun l h4 hl => ?around⟩⟩,
    fun s i hhas hk => ⟨fun hup hst hkey hbound => ⟨fun hok hlost hde hg hcmd => ?verified, fun hok hyard hlt => ?bad⟩,
      fun pi h => exec_macCheck_of_down hhas h⟩⟩
  case block =>
    have kept := readsKept_decoded i d s
    refine ⟨_, exec_decode_of_block hhas hst hok hsrc hsam, ?_, ?_, kept.host, kept.flash⟩
    · rw [getRd_setRd]
    · rw [getRd_setRd]
      rfl
  case sample =>
    have kept := readsKept_decoded i d s
    refine ⟨_, exec_decode_of_sample hhas hst hok hk, hasRd_dropRd .., (dropRd_spec ..).2.1.trans (Eq.trans ?_ kept.host)⟩
    split
    · exact ((ReadsKept.refl _).atMargin ..).host
    · rfl
  case source =>
    have kept := readsKept_decoded i d s
    have e : ∀ b t, (getRd t i).kind = .source p → sourceDone i b t = setRd p { getRd t p with
        sources := removeNat i (getRd t p).sources, acc := (getRd t p).acc ^^^ b
        st := if removeNat i (getRd t p).sources = [] then .decoded else (getRd t p).st
        blk := if removeNat i (getRd t p).sources = [] then (getRd t p).acc ^^^ b else (getRd t p).blk
        since := beatNow t } (dropRd i t) := by
      intro b t ht
      unfold sourceDone
      simp only [ht]
    refine ⟨_, exec_decode_of_source hhas hst hok hk, ?_⟩
    rw [e _ _ ((congrArg Rd.kind (kept.getRd i)).trans hk), getRd_setRd, hasRd_setRd (Ne.symm hp), hasRd_dropRd, kept.getRd]
    exact ⟨rfl, (dropRd_spec ..).2.1.trans kept.host, rfl, rfl⟩
  case step =>
    have kept := ladderKept_failCounted i d s
    refine ⟨_, exec_decode_of_failed hhas hst hok, ?_⟩
    have hrd := kept.getRd i
    rw [climb_of_block (by rwa [hrd]) (by rwa [hrd]), hrd, kept.nextStep, hk]
    obtain ⟨hstep, hwait, hsoft, hhost, -⟩ := goStep_spec (i := i) hlt _
    exact ⟨hstep, hwait, hsoft, hhost.trans kept.host⟩
  case around =>
    have kept := ladderKept_failCounted i d s
    refine ⟨_, exec_decode_of_failed hhas hst hok, ?_⟩
    have hrd := kept.getRd i
    rw [climb_of_block (by rwa [hrd]) (by rwa [hrd]), hrd, kept.nextStep, h4]
    obtain ⟨hstep, hlen, hhost⟩ := readAround_spec (by rw [hrd, kept.sourcesOf, hl])
    exact ⟨hstep, hlen, hhost.trans kept.host⟩
  case verified =>
    have kept := readsKept_checkCounted i s
    refine ⟨_, exec_macCheck_of_ok hhas hup hst hkey hbound hok, ?_⟩
    have h := verified_spec (s := checkCounted i s) (i := i)
    rw [kept.getRd, kept.getCmd, kept.out] at h
    exact h hk hlost hde (by rw [grouting, kept.grout, ← grouting, hg])
  case bad =>
    have kept := ladderKept_checkFailed s
    obtain ⟨hraised, hcount⟩ := checkFailed_spec s
    refine ⟨_, exec_macCheck_of_bad hhas hup hst hkey hbound hyard hok, ?_⟩
    have hrd := kept.getRd i
    rw [climb_of_block (by rw [hrd, hk]; exact fun p h => by cases h) (by rw [hrd, hk]; exact fun h => by cases h), hrd,
      kept.nextStep]
    obtain ⟨hstep, hwait, -, -, hout, hr, hregs⟩ := goStep_spec (i := i) hlt (checkFailed s)
    exact ⟨hr _ _ (by decide) (by decide) (by decide) hraised, hout.trans kept.out,
      (hregs.getF id (by decide)).trans hcount, hstep, hwait⟩

end Sys2Proof.Machine

end

/-! ## Writes: their data, their admission and pallets (R79, R101, R106, R137, R195, R197, R201, R223) -/

section

-- One proof after another: elaborated side by side, the proofs of this text take more memory than its check allows.
set_option Elab.async false

namespace Sys2Proof.Machine

variable {s t u : State} {i : Nat}

/-! ### The arrival of write data -/

theorem host_tagFormed (s : State) : (tagFormed s).host = s.host :=
  ((ReadsKept.refl s).addThousand remFormed F.MAC_TAGS_FORMED_COUNT 1).host

theorem getCmd_congr (h : t.host = s.host) (i : Nat) : getCmd t i = getCmd s i := by rw [getCmd, getCmd, h]

/-- A block's write sequence is at most noted in its command. -/
theorem seqFor_cmd (i : Nat) (s : State) : ∃ n, getCmd (seqFor i s).2 i = { getCmd s i with nonce := n } := by
  unfold seqFor
  dsimp only
  split
  · split
    · exact ⟨_, getCmd_setCmd ..⟩
    · exact ⟨_, rfl⟩
  · exact ⟨_, rfl⟩

/-- A block that is tagged has arrived, and its command no longer awaits it. -/
theorem tagBlock_cmd (i off kind data metaF : Nat) (s : State) :
    (getCmd (tagBlock i off kind data metaF s) i).st = (getCmd s i).st ∧
      (getCmd (tagBlock i off kind data metaF s) i).slba = (getCmd s i).slba ∧
      (getCmd (tagBlock i off kind data metaF s) i).left = removeNat ((getCmd s i).slba + off) (getCmd s i).left := by
  obtain ⟨n, hn⟩ := seqFor_cmd i s
  unfold tagBlock
  generalize seqFor i s = p at hn ⊢
  dsimp only at hn ⊢
  rw [getCmd_congr (host_tagFormed _) i, getCmd_setCmd, hn]
  exact ⟨rfl, rfl, rfl⟩

theorem mem_removeNat {n m : Nat} {l : List Nat} : m ∈ removeNat n l ↔ m ∈ l ∧ m ≠ n := by
  rw [removeNat, List.mem_filter, bne_iff_ne]

/-- The blocks of an arrival are tagged, each in its turn. -/
def tagBlocks (i : Nat) (bs : List BlockIn) (s : State) : State :=
  bs.foldl (fun t b => tagBlock i b.off kindData b.data b.metaField t) s

theorem tagBlocks_cmd (i : Nat) (bs : List BlockIn) (s : State) :
    (getCmd (tagBlocks i bs s) i).st = (getCmd s i).st ∧ (getCmd (tagBlocks i bs s) i).slba = (getCmd s i).slba ∧
      ∀ x, x ∈ (getCmd (tagBlocks i bs s) i).left ↔ x ∈ (getCmd s i).left ∧ ∀ b ∈ bs, (getCmd s i).slba + b.off ≠ x := by
  induction bs generalizing s with
  | nil => exact ⟨rfl, rfl, fun x => ⟨fun h => ⟨h, fun _ hb => absurd hb List.not_mem_nil⟩, And.left⟩⟩
  | cons b bs ih =>
    obtain ⟨hst1, hslba1, hleft1⟩ := tagBlock_cmd i b.off kindData b.data b.metaField s
    obtain ⟨hst, hslba, hleft⟩ := ih (tagBlock i b.off kindData b.data b.metaField s)
    simp only [hslba1, hleft1, mem_removeNat] at hleft
    refine ⟨hst.trans hst1, hslba.trans hslba1, fun x => (hleft x).trans ?_⟩
    rw [List.forall_mem_cons, and_assoc]
    exact and_congr_right fun _ => and_congr_left fun _ => ne_comm

/-- The blocks of an arrival that are still awaited are all of those that matter. -/
theorem forall_awaited_iff {bs : List BlockIn} {l : List Nat} {slba x : Nat} (hx : x ∈ l) :
    (∀ b ∈ bs.filter (fun b => l.contains (slba + b.off)), slba + b.off ≠ x) ↔ ∀ b ∈ bs, slba + b.off ≠ x := by
  refine ⟨fun h b hb e => h b (List.mem_filter.mpr ⟨hb, ?_⟩) e, fun h b hb => h b (List.mem_of_mem_filter hb)⟩
  exact List.contains_iff_mem.mpr (e ▸ hx)

/-- The state once the awaited blocks of an arrival are tagged. -/
def arrivedState (i : Nat) (bs : List BlockIn) (s : State) : State :=
  tagBlocks i (bs.filter (fun b => (getCmd s i).left.contains ((getCmd s i).slba + b.off))) s

theorem arrivedState_cmd (i : Nat) (bs : List BlockIn) (s : State) :
    (getCmd (arrivedState i bs s) i).st = (getCmd s i).st ∧
      ∀ x, x ∈ (getCmd (arrivedState i bs s) i).left ↔
        x ∈ (getCmd s i).left ∧ ∀ b ∈ bs, (getCmd s i).slba + b.off ≠ x := by
  obtain ⟨hst, -, hleft⟩ := tagBlocks_cmd i
    (bs.filter (fun b => (getCmd s i).left.contains ((getCmd s i).slba + b.off))) s
  exact ⟨hst, fun x => (hleft x).trans (and_congr_right fun hx => forall_awaited_iff hx)⟩

section

variable {bs : List BlockIn} (hhas : hasCmd s i = true) (hst : (getCmd s i).st = .started)
  (hw : isWrite (getCmd s i).kind = true) (hmov : moving s = true)
include hhas hst hw hmov

theorem exec_arrival_of_failed (e : PiError) :
    exec (.writeDataArrival i bs (some e)) s = .next (failCmd i (piStatus e) (cutWrite i false s)) := by
  refine congrArg Host.Outcome.next ?_
  simp [dataArrival, hhas, hst, hw, hmov]

variable (hpi : ∀ b ∈ bs, b.piOk = true)
include hpi

theorem exec_arrival_of_down (hdown : writeSideUp s = false) :
    exec (.writeDataArrival i bs none) s = .next (failCmd i stNoEngine (cutWrite i false s)) := by
  have hbad : bs.any (fun b => !b.piOk) = false := List.any_eq_false.mpr fun b hb => by simp [hpi b hb]
  refine congrArg Host.Outcome.next ?_
  unfold dataArrival
  simp only [hhas, hst, hw, hmov, hbad, hdown]
  rfl

theorem exec_arrival_of_good (hup : writeSideUp s = true) :
    exec (.writeDataArrival i bs none) s = .next (if (getCmd (arrivedState i bs s) i).left = [] then
      writeDone i (arrivedState i bs s) else arrivedState i bs s) := by
  have hbad : bs.any (fun b => !b.piOk) = false := List.any_eq_false.mpr fun b hb => by simp [hpi b hb]
  refine congrArg Host.Outcome.next ?_
  unfold dataArrival
  simp only [hhas, hst, hw, hmov, hbad, hup]
  rfl

end

theorem writeDone_cmd (i : Nat) (s : State) : (getCmd (writeDone i s) i).left = [] ∧
    ((getCmd (writeDone i s) i).st = .ready ∧ (getCmd (writeDone i s) i).waits = [] ∨
      (getCmd (writeDone i s) i).st = .working ∧ (getCmd (writeDone i s) i).waits ≠ []) := by
  unfold writeDone
  extract_lets s1 c w
  rw [getCmd_setCmd]
  refine ⟨rfl, ?_⟩
  by_cases h : w = []
  · exact .inl ⟨if_pos h, h⟩
  · exact .inr ⟨if_neg h, h⟩

/-- The status of a command made ready. -/
theorem ready_cmd (i : Nat) (sts : Sts) (dw0 : Nat) (data : List Byte) (s : State) :
    (getCmd (ready i sts dw0 data s) i).st = .ready ∧ (getCmd (ready i sts dw0 data s) i).status = sts := by
  rw [ready, getCmd_setCmd]
  exact ⟨rfl, rfl⟩

theorem exec_readDataTransferred {slot : Nat} (hhas : hasCmd s i = true) (hk : (getCmd s i).kind = .read)
    (hl : (getCmd s i).left = []) (hst : (getCmd s i).st ≠ .ready) :
    exec (.readDataTransferred i slot) s = .next (setCmd i
      { getCmd s i with st := .ready, due := beatNow s + (if slot < 60 then 2 else 3) }
      (if (getCmd s i).failLba.isSome then errInfoLog i s else s)) :=
  congrArg Host.Outcome.next (if_pos ⟨hhas, hk, hl, hst⟩)

/-! ### A command apart from what happens around it -/

theorem changesOnly_journal (typ body : Nat) (s : State) : changesOnly [.map] s (journal typ body s) := by
  unfold journal
  exact .ite (.refl _ s) (.map (.refl _ s))

/-- Nothing of what command `i` holds, of the queues or of the waiting tiles has changed, and no event request has
become the command's. -/
structure Apart (i : Nat) (s t : State) : Prop where
  cmd : getCmd t i = getCmd s i
  aers : ∀ fn, i ∉ (getFn t fn).aers
  sqs : t.host.sqs = s.host.sqs
  waiting : t.tiles.waiting = s.tiles.waiting

namespace Apart

theorem refl (h : ∀ fn, i ∉ (getFn s fn).aers) : Apart i s s := ⟨rfl, h, rfl, rfl⟩

theorem congr (h : Apart i s t) (hh : u.host = t.host) (ht : u.tiles = t.tiles) : Apart i s u :=
  ⟨(getCmd_congr hh i).trans h.cmd, fun fn => by rw [getFn, hh]; exact h.aers fn, by rw [hh, h.sqs], by rw [ht, h.waiting]⟩

theorem of_parts {ps : List Part} (h : Apart i s t) (k : changesOnly ps t u) (hh : .host ∉ ps := by decide)
    (ht : .tiles ∉ ps := by decide) : Apart i s u := h.congr (k.host_eq hh) (k.tiles_eq ht)

theorem foldl {α : Type} {g : State → α → State} {l : List α} (h : Apart i s t)
    (hg : ∀ u, ∀ x ∈ l, Apart i s u → Apart i s (g u x)) : Apart i s (l.foldl g t) :=
  List.foldlRecOn (motive := Apart i s) l g h fun u hu x hx => hg u x hx hu

theorem setFn (h : Apart i s t) (fn : Nat) (f : Fn) (hf : i ∉ f.aers) : Apart i s (setFn fn f t) := by
  refine ⟨h.cmd, fun k => ?_, h.sqs, h.waiting⟩
  change i ∉ (tget fnD (tset fnD fn f t.host.fns) k).aers
  rw [tget_tset]
  split
  · exact hf
  · exact h.aers k

theorem ready {j : Nat} (h : Apart i s t) (hj : j ≠ i) (sts : Sts) (dw0 : Nat) (data : List Byte) :
    Apart i s (ready j sts dw0 data t) :=
  ⟨(tget_tset_ne _ _ _ (Ne.symm hj)).trans h.cmd, h.aers, h.sqs, h.waiting⟩

theorem aen (h : Apart i s t) (fn typ info lid : Nat) : Apart i s (aen fn typ info lid t) := by
  have free := h.aers fn
  unfold Machine.aen
  dsimp only
  split
  · exact h
  · split
    · exact h.setFn fn _ free
    · next j rest haers =>
      rw [haers, List.mem_cons, not_or] at free
      exact (h.setFn fn _ free.2).ready (Ne.symm free.1) ..

theorem mediaAen (h : Apart i s t) : Apart i s (mediaAen t) := by
  refine h.foldl fun u k _ hu => ?_
  split
  · split
    · exact hu.aen ..
    · exact hu
  · exact hu

theorem sparesExhausted (h : Apart i s t) : Apart i s (sparesExhausted t) := by
  unfold Machine.sparesExhausted
  split
  · exact h
  · refine mediaAen (h.of_parts (ps := eventParts) ?_)
    exact .setF (.happen (.setF (.refl _ t) _ _) baseTrowel 4) _ _

theorem noteSpares (h : Apart i s t) : Apart i s (noteSpares t) := by
  unfold Machine.noteSpares
  dsimp only
  split
  · exact mediaAen (h.of_parts (ps := eventParts) (.setF (.happen (.setF (.refl _ t) _ _) baseTrowel 3) _ _))
  · split
    · exact h.of_parts (ps := eventParts) (.setF (.setF (.refl _ t) _ _) _ _)
    · exact h

theorem setRow (h : Apart i s t) (c : Nat) (row : List BrickAddr) : Apart i s (setRow c row t) := by
  unfold Machine.setRow
  have spared : Apart i s ((row.filter (fun a => !(courseTable t c).contains a)).foldl (fun t a => takeSpare a t) t) :=
    h.foldl fun u a _ hu => noteSpares (hu.of_parts (ps := [.map, .regs]) (.setF (.map (.refl _ u)) _ _))
  refine foldl (spared.congr rfl rfl) fun u k _ hu => ?_
  have noted : ∀ k a, Apart i s (tableRecord c k a u) := fun k a => hu.of_parts (changesOnly_journal ..)
  split
  · split
    · exact hu
    · exact noted ..
  · exact noted ..
  · exact hu

theorem takeCourse {role tile c : Nat} {use : CourseUse} {cold : Bool} (h : Apart i s t)
    (htake : takeCourse role tile use cold t = some (c, u)) : Apart i s u := by
  unfold Machine.takeCourse at htake
  split at htake
  · cases htake
  · next k _ =>
    split at htake
    · cases htake
    · next row _ =>
      cases htake
      have rowed : Apart i s (if row = courseTable t c then t else Machine.setRow c row t) := by
        split
        · exact h
        · exact h.setRow ..
      exact of_parts (ps := [.map]) rowed ((changesOnly.map (.refl _ _)).trans (changesOnly_journal ..))

theorem gcTrigger (h : Apart i s t) (tile : Nat) : Apart i s (gcTrigger tile t) := by
  refine h.of_parts (ps := .trowel :: eventParts) ?_
  unfold Machine.gcTrigger
  dsimp only
  refine .ite (.refl _ t) (.ite (.happen ?_ baseTrowel 5) ?_) <;>
    exact .setF (.trowel (t := t) (.refl _ t)) F.TROWEL_STATUS_GC_URGENT _

theorem courseFor {x : Cmd} {tile c : Nat} (h : Apart i s t) (hfor : courseFor x tile t = some (c, u)) : Apart i s u := by
  unfold Machine.courseFor at hfor
  split at hfor
  · obtain ⟨k, -, hk⟩ := Option.map_eq_some_iff.mp hfor
    cases hk
    exact h
  · unfold wallCourse at hfor
    dsimp only at hfor
    split at hfor
    · cases hfor
      exact h
    · split at hfor
      · next htake =>
        cases hfor
        refine gcTrigger ?_ tile
        exact (h.takeCourse htake).congr rfl rfl
      · cases hfor

theorem newSlot {x : Cmd} {tile mu k : Nat} (h : Apart i s t) (hnew : newSlot x tile mu t = some (k, u)) : Apart i s u := by
  unfold Machine.newSlot at hnew
  split at hnew
  · next hcourse =>
    cases hnew
    exact (h.courseFor hcourse).congr rfl rfl
  · cases hnew

theorem takeSlots {x : Cmd} {tile : Nat} {mus slots : List Nat} (h : Apart i s t)
    (htake : takeSlots x tile mus t = some (slots, u)) : Apart i s u := by
  induction mus generalizing t slots with
  | nil =>
    cases htake
    exact h
  | cons mu rest ih =>
    unfold Machine.takeSlots at htake
    dsimp only at htake
    split at htake
    · cases htake
    · next k t1 hhere =>
      obtain ⟨p, hp, he⟩ := Option.map_eq_some_iff.mp htake
      cases he
      refine ih ?_ hp
      split at hhere
      · cases hhere
        exact h
      · exact h.newSlot hhere

theorem toPallet (h : Apart i s t) (k : Nat) : Apart i s (toPallet k t) := by
  unfold Machine.toPallet palletFor
  dsimp only
  split
  · next c u hpal =>
    split at hpal
    · cases hpal
      exact h.congr rfl rfl
    · split at hpal
      · next htake =>
        cases hpal
        exact (h.takeCourse htake).congr rfl rfl
      · cases hpal
  · exact h.sparesExhausted

theorem palletMove (h : Apart i s t) (c : Nat) : Apart i s (palletMove c t) := by
  unfold Machine.palletMove
  split
  · exact h
  · exact h.foldl fun _ p _ hu => hu.toPallet p.1

end Apart

/-! ### Filling -/

theorem changesOnly_addThousand (key : Nat) (f : Fld) (n : Nat) (s : State) :
    changesOnly [.map, .regs] s (addThousand key f n s) := by
  unfold addThousand
  dsimp only
  exact .ite (.addF (.map (.refl _ s)) _ _) (.map (.refl _ s))

theorem changesOnly_fillOne (k b : Nat) (s : State) : changesOnly [.map, .regs] s (fillOne k b s) := by
  have tagged : ∀ {u}, changesOnly [.map, .regs] s u → changesOnly [.map, .regs] s (tagFormed u) :=
    fun h => h.trans (changesOnly_addThousand ..)
  unfold fillOne
  dsimp only
  refine .ite (.ite (tagged (.map (.refl _ s))) (.refl _ s)) (.ite (tagged ?_) (.ite (tagged ?_) (.refl _ s)))
  · exact .map (.map (t := s) (.refl _ s))
  · exact .map (.map (t := s) (.refl _ s))

theorem changesOnly_fillNow (k : Nat) (s : State) : changesOnly [.map, .regs] s (fillNow k s) := by
  unfold fillNow
  exact .ite (.foldl (.refl _ s) fun _ _ _ => changesOnly_fillOne ..) (.refl _ s)

/-- A write of blocks that starts: its slots are taken, and all its blocks awaited. -/
theorem startWrite_spec {slots : List Nat} (wp : Nat) (s : State) (hk : (getCmd s i).kind ≠ .writeZeroes) :
    (getCmd (startWrite i slots wp s) i).st = .started ∧ (getCmd (startWrite i slots wp s) i).slots = slots ∧
      (getCmd (startWrite i slots wp s) i).left = (List.range (getCmd s i).nlb).map (fun k => (getCmd s i).slba + k) := by
  unfold startWrite
  dsimp only
  rw [if_neg hk]
  generalize hc : ({ getCmd s i with
    st := .started, slots := slots, left := (List.range (getCmd s i).nlb).map (fun k => (getCmd s i).slba + k)
    dw0 := if (getCmd s i).kind = .append then wp % 2 ^ 32 else 0
    dw1 := if (getCmd s i).kind = .append then wp / 2 ^ 32 else 0 } : Cmd) = c
  have filled : changesOnly [.map, .regs] (setCmd i c s) (slots.foldl (fun t k => fillNow k t) (notePeak (setCmd i c s))) :=
    .foldl (.maxF (.refl _ _) _ _) fun _ _ _ => changesOnly_fillNow ..
  rw [getCmd_congr filled.host_eq, getCmd_setCmd, ← hc]
  exact ⟨rfl, rfl, rfl⟩

/-! ### Waiting for slots -/

theorem happenTile_host_tiles (tile k : Nat) (s : State) :
    (happenTile tile k s).host = s.host ∧ (happenTile tile k s).tiles = s.tiles := ⟨happenTile_host .., happenTile_tiles ..⟩

/-- The tile is noted among those that wait. -/
def waitNoted (tile : Nat) (s : State) : State := { s with tiles := { s.tiles with waiting := s.tiles.waiting ++ [tile] } }

/-- The tile waits, and its event has happened. -/
def waitBegun (tile : Nat) (s : State) : State := happenTile tile 3 (waitNoted tile s)

theorem yardWait_of_new {tile : Nat} (h : tile ∉ s.tiles.waiting) : yardWait tile s =
    match forcedCourse (waitBegun tile s) tile with
    | some c => happen baseCourse 4 (palletMove c (waitBegun tile s))
    | none => waitBegun tile s := if_neg (mt List.contains_iff_mem.mp h)

theorem apart_waitBegun (tile : Nat) (hfree : ∀ fn, i ∉ (getFn s fn).aers) :
    Apart i (waitNoted tile s) (waitBegun tile s) :=
  (Apart.refl (s := waitNoted tile s) hfree).congr (happenTile_host_tiles ..).1 (happenTile_host_tiles ..).2

/-- A tile that finds no slot waits; a command of its own stays as it is (R79, R201). -/
theorem yardWait_spec (tile : Nat) (hfree : ∀ fn, i ∉ (getFn s fn).aers) :
    getCmd (yardWait tile s) i = getCmd s i ∧ (yardWait tile s).host.sqs = s.host.sqs ∧
      tile ∈ (yardWait tile s).tiles.waiting := by
  by_cases h : tile ∈ s.tiles.waiting
  · rw [show yardWait tile s = s from if_pos (List.contains_iff_mem.mpr h)]
    exact ⟨rfl, rfl, h⟩
  · have begun := apart_waitBegun tile hfree
    have waits : ∀ u, Apart i (waitNoted tile s) u →
        getCmd u i = getCmd s i ∧ u.host.sqs = s.host.sqs ∧ tile ∈ u.tiles.waiting := fun u hu =>
      ⟨hu.cmd, hu.sqs, hu.waiting ▸ List.mem_append_right _ (List.mem_singleton_self _)⟩
    rw [yardWait_of_new h]
    split
    · next c _ => exact waits _ ((begun.palletMove c).congr (happen_host ..) (happen_tiles ..))
    · exact waits _ begun

/-! ### Admission -/

theorem unhold_cmd (i : Nat) (s : State) : getCmd (unhold i s) i = getCmd s i := by
  unfold unhold
  dsimp only
  split <;> rfl

theorem unhold_fns (i fn : Nat) (s : State) : getFn (unhold i s) fn = getFn s fn := by
  unfold unhold
  dsimp only
  split <;> rfl

theorem unhold_map (i : Nat) (s : State) : (unhold i s).map = s.map := by
  unfold unhold
  dsimp only
  split <;> rfl

section

variable (hhas : hasCmd s i = true) (hst : (getCmd s i).st = .fetched) (hmov : moving s = true)
  (hmap : mapReady s (getCmd s i).h.nsid (getCmd s i).slba (getCmd s i).nlb = true)
  (hw : isWrite (getCmd s i).kind = true)
include hhas hst hmov hmap hw

theorem admitWrite_of_ready : admitWrite i s = if (getNs s (getCmd s i).h.nsid).zoned then
    admitZoned i (tileOf s (getCmd s i).h) s else admitConventional i (tileOf s (getCmd s i).h) s := by
  have hdsm : (getCmd s i).kind ≠ .dsm := fun e => by simp [e, isWrite] at hw
  unfold admitWrite
  simp only [hhas, hst, hmov, hmap, hw, if_neg hdsm]
  rfl

end

theorem exec_writeAdmitted_of_kept (h : (getCmd (admitWrite i s) i).st = .fetched) :
    exec (.writeAdmitted i) s = .next (admitWrite i s) :=
  congrArg Host.Outcome.next (if_neg fun ⟨_, hn⟩ => hn h)

theorem exec_writeAdmitted_of_moved (hst : (getCmd s i).st = .fetched) (h : (getCmd (admitWrite i s) i).st ≠ .fetched) :
    exec (.writeAdmitted i) s = .next { admitWrite i s with tiles := { (admitWrite i s).tiles with
      waiting := removeNat (tileOf s (getCmd s i).h) (admitWrite i s).tiles.waiting } } :=
  congrArg Host.Outcome.next (if_pos ⟨hst, h⟩)

theorem exec_writeAdmitted_of_not (h : hasCmd s i = false ∨ (getCmd s i).st ≠ .fetched ∨ moving s = false) :
    exec (.writeAdmitted i) s = .next s := by
  have kept : admitWrite i s = s := by
    refine if_pos ?_
    rcases h with h | h | h <;> simp [h]
  refine congrArg Host.Outcome.next ?_
  unfold admitted
  rw [kept]
  exact if_neg fun ⟨hf, hn⟩ => hn hf

theorem holdCmd_of_free (h : (getSq s (getCmd s i).h.fn (getCmd s i).h.qid).held = none) :
    holdCmd i s = setSq (getCmd s i).h.fn (getCmd s i).h.qid
      { getSq s (getCmd s i).h.fn (getCmd s i).h.qid with
        held := some i, head := ((getSq s (getCmd s i).h.fn (getCmd s i).h.qid).head +
          (getSq s (getCmd s i).h.fn (getCmd s i).h.qid).size - 1) %
          (getSq s (getCmd s i).h.fn (getCmd s i).h.qid).size } s := by
  unfold holdCmd
  simp only [h]
  rfl

theorem admitZoned_of_failed {tile : Nat} (hacts : s.host.zoneActs = []) (hbehind : s.mac.behind = [])
    (hz : zoneCheck s (getCmd s i) ≠ stOk) :
    admitZoned i tile s = failCmd i (zoneCheck s (getCmd s i)) (unhold i s) := by
  unfold admitZoned
  simp only [hacts, hbehind, if_pos hz]
  rfl

/-- Settles O20: data that arrives, reads that are transferred, and writes that are admitted, held or refused. -/
theorem writeDataEntersTheYard : Obligations.WriteDataEntersTheYard := by
  refine ⟨fun s i hhas => ⟨fun bs hw hst hmov => ⟨fun hpi hup => ⟨fun ⟨lba, hlba, hno⟩ => ?some, fun hall => ?last⟩,
      fun e => ⟨_, exec_arrival_of_failed hhas hst hw hmov e, ready_cmd ..⟩,
      fun hpi hdown => ⟨_, exec_arrival_of_down hhas hst hw hmov hpi hdown, ready_cmd ..⟩⟩,
      fun slot hk hl hst => ?transferred⟩,
    fun s i => ⟨fun hhas hst hmov hfree hmap hw => ⟨fun hz => ⟨fun slots u hhand htake hk => ?starts, fun hhand hheld => ?held⟩,
      fun hz hacts hbehind hcheck => ?zoned⟩, exec_writeAdmitted_of_not, fun c hlate hst hopen => ?idle, fun c h => ?busy⟩⟩
  case some =>
    obtain ⟨hst', hleft⟩ := arrivedState_cmd i bs s
    have hmem := (hleft lba).mpr ⟨hlba, hno⟩
    refine ⟨_, (exec_arrival_of_good hhas hst hw hmov hpi hup).trans (congrArg _ (if_neg ?_)), hst'.trans hst,
      fun b hb h => ((hleft _).mp h).2 b hb rfl, fun x hx hn => (hleft x).mpr ⟨hx, hn⟩⟩
    exact fun e => absurd (e ▸ hmem) List.not_mem_nil
  case last =>
    obtain ⟨-, hleft⟩ := arrivedState_cmd i bs s
    refine ⟨_, (exec_arrival_of_good hhas hst hw hmov hpi hup).trans (congrArg _ (if_pos ?_)), writeDone_cmd ..⟩
    refine List.eq_nil_iff_forall_not_mem.mpr fun x hx => ?_
    obtain ⟨hx, hno⟩ := (hleft x).mp hx
    obtain ⟨b, hb, he⟩ := hall x hx
    exact hno b hb he
  case transferred =>
    refine ⟨_, exec_readDataTransferred hhas hk hl hst, ?_, ?_, .host (.ite (.host (.refl _ s)) (.refl _ s))⟩
    · rw [getCmd_setCmd]
    · rw [getCmd_setCmd]
  case starts =>
    have admits : admitWrite i s = startWrite i slots 0 u := by
      rw [admitWrite_of_ready hhas hst hmov hmap hw, hz, if_neg (by decide)]
      unfold admitConventional
      simp only [hhand, htake]
      rfl
    have hcmd : getCmd u i = getCmd s i :=
      ((Apart.refl fun fn => by rw [unhold_fns]; exact hfree fn).takeSlots htake).cmd.trans (unhold_cmd i s)
    obtain ⟨hst', hslots, hleft⟩ := startWrite_spec (i := i) (slots := slots) 0 u (by rwa [hcmd])
    refine ⟨_, exec_writeAdmitted_of_moved hst (by rw [admits, hst']; decide), ?_, ?_, ?_,
      not_mem_removeNat _ _⟩
    · rw [admits]
      exact hst'
    · rw [admits]
      exact hslots
    · rw [admits, ← hcmd]
      exact hleft
  case held =>
    have admits : admitWrite i s = yardWait (tileOf s (getCmd s i).h) (holdCmd i s) := by
      rw [admitWrite_of_ready hhas hst hmov hmap hw, hz, if_neg (by decide)]
      unfold admitConventional
      simp only [hhand]
      rfl
    obtain ⟨hcmd, hsqs, hwait⟩ := yardWait_spec (s := holdCmd i s) (i := i) (tileOf s (getCmd s i).h) (by
      rw [holdCmd_of_free hheld]
      exact hfree)
    have hcmd' : getCmd (admitWrite i s) i = getCmd s i := by
      rw [admits, hcmd, holdCmd_of_free hheld]
      rfl
    refine ⟨_, exec_writeAdmitted_of_kept (by rw [hcmd', hst]), hcmd', ?_, ?_⟩
    · rw [admits, getSq, hsqs, holdCmd_of_free hheld, ← getSq, getSq_setSq]
    · rw [admits]
      exact hwait
  case zoned =>
    have admits : admitWrite i s = failCmd i (zoneCheck s (getCmd s i)) (unhold i s) := by
      rw [admitWrite_of_ready hhas hst hmov hmap hw, hz, if_pos rfl, admitZoned_of_failed hacts hbehind hcheck]
    obtain ⟨hst', hstatus⟩ := ready_cmd i (zoneCheck s (getCmd s i)) 0 [] (unhold i s)
    refine ⟨_, exec_writeAdmitted_of_moved hst (by rw [admits, failCmd, hst']; decide), ?_, ?_, ?_⟩
    · rw [admits]
      exact hst'
    · rw [admits]
      exact hstatus
    · rw [admits]
      exact unhold_map i s
  case idle => exact congrArg Host.Outcome.next (if_pos ⟨hlate, hst, hopen⟩)
  case busy =>
    refine congrArg Host.Outcome.next (if_neg ?_)
    rintro ⟨hlate, hst, hopen⟩
    rcases h with h | h | h
    · omega
    · exact h hst
    · exact absurd (hopen.symm.trans h) (by decide)

end Sys2Proof.Machine

end

/-! ## Commands of the host interface: how a queue gives them up, and what gates them (R71, R98, R102, R104, R105, R114, R406) -/

section

-- One proof after another: elaborated side by side, the proofs of this text take more memory than its check allows.
set_option Elab.async false

namespace Sys2Proof.Machine

variable {s t u : State} {h : CmdHead} {c : Instr}

/-! ### Taking a command -/

theorem takeCmd_of_granted (hserv : serving s h.fn = true) (hsize : (getSq s h.fn h.qid).size ≠ 0)
    (hheld : (getSq s h.fn h.qid).held = none) (hg : 0 < (getSq s h.fn h.qid).granted) :
    takeCmd h s = some (setSq h.fn h.qid
      { getSq s h.fn h.qid with granted := (getSq s h.fn h.qid).granted - 1 } s) := by
  unfold takeCmd
  simp [hserv, hsize, hheld, hg]

theorem takeCmd_of_fetched (hserv : serving s h.fn = true) (hsize : (getSq s h.fn h.qid).size ≠ 0)
    (hheld : (getSq s h.fn h.qid).held = none) (hg : (getSq s h.fn h.qid).granted = 0)
    (hne : (getSq s h.fn h.qid).head ≠ (getSq s h.fn h.qid).tail) (hf : fetches s h.fn = true) :
    takeCmd h s = some (addF (F.HOST_FETCHED_COUNT (portOf s h.fn)) 1 (setSq h.fn h.qid
      { getSq s h.fn h.qid with head := ((getSq s h.fn h.qid).head + 1) % (getSq s h.fn h.qid).size } s)) := by
  unfold takeCmd
  simp [hserv, hsize, hheld, hg, hne, hf]

/-- A taken command leaves all but its queue and the fetch counter of its port as it was. -/
structure GivenUp (h : CmdHead) (s u : State) : Prop where
  parts : changesOnly [.host, .regs] s u
  regs : regsKept (· = Reg.HOST_FETCHED (portOf s h.fn)) s u
  host : u.host = { s.host with sqs := u.host.sqs }

theorem givenUp_of_takeCmd (ht : takeCmd h s = some u) : GivenUp h s u := by
  unfold takeCmd at ht
  dsimp only at ht
  split at ht
  · cases ht
  · split at ht
    · cases ht
      exact ⟨.host (.refl _ s), .of_regs rfl, rfl⟩
    · split at ht
      · cases ht
        refine ⟨.addF (.host (.refl _ s)) _ _, .addF (.of_regs rfl) _ _ rfl, ?_⟩
        rw [addF_host]
        rfl
      · cases ht

theorem portOf_lt (s : State) (fn : Nat) : portOf s fn < 2 := by
  unfold portOf
  split <;> omega

namespace GivenUp

variable (k : GivenUp h s u)
include k

theorem getF {f : Fld} (hf : f.addr ≠ Reg.HOST_FETCHED 0 := by decide) (hf' : f.addr ≠ Reg.HOST_FETCHED 1 := by decide) :
    getF u f = getF s f := by
  refine k.regs.getF ?_
  have hp := portOf_lt s h.fn
  interval_cases portOf s h.fn <;> assumption

theorem modeNow : modeNow u = modeNow s := k.getF

theorem isPF0 (fn : Nat) : isPF0 u fn = isPF0 s fn := by
  have wide : twoPort u = twoPort s := by
    have strap : Machine.getF u F.TOP_STRAP_PORT = _ := k.getF
    rw [twoPort, twoPort, strap]
  unfold Machine.isPF0
  rw [wide]

theorem portOf (fn : Nat) : portOf u fn = portOf s fn := by
  have wide : twoPort u = twoPort s := by
    have strap : Machine.getF u F.TOP_STRAP_PORT = _ := k.getF
    rw [twoPort, twoPort, strap]
  unfold Machine.portOf
  rw [wide]

theorem getNs (n : Nat) : getNs u n = getNs s n :=
  (congrArg (fun x : HostSt => tget nsD x.ns n) k.host).trans rfl

theorem getCmd (i : Nat) : getCmd u i = getCmd s i :=
  (congrArg (fun x : HostSt => tget cmdD x.cmds i) k.host).trans rfl

theorem getFn (fn : Nat) : getFn u fn = getFn s fn :=
  (congrArg (fun x : HostSt => tget fnD x.fns fn) k.host).trans rfl

theorem getF_tile {f : Fld} (hf : 0x40000 ≤ f.addr) : Machine.getF u f = Machine.getF s f := by
  refine k.regs.getF ?_
  have hp := portOf_lt s h.fn
  simp only [Reg.HOST_FETCHED]
  omega

theorem tileOfFn (fn : Nat) : tileOfFn u fn = tileOfFn s fn := by
  have state : ∀ t, Machine.getF u (F.TILE_STATE_STATE t) = Machine.getF s (F.TILE_STATE_STATE t) := fun t =>
    k.getF_tile (by simp only [Reg.TILE_STATE]; omega)
  have bound : ∀ t, isSet u (F.TILE_BIND_BOUND t) = isSet s (F.TILE_BIND_BOUND t) := fun t =>
    isSet_of_getF (k.getF_tile (by simp only [Reg.TILE_BIND]; omega))
  have fn : ∀ t, Machine.getF u (F.TILE_BIND_FN t) = Machine.getF s (F.TILE_BIND_FN t) := fun t =>
    k.getF_tile (by simp only [Reg.TILE_BIND]; omega)
  unfold Machine.tileOfFn tileState
  simp only [state, bound, fn]

theorem nsOk (h' : CmdHead) : nsOk u h' = nsOk s h' := by
  unfold Machine.nsOk nsExists
  simp only [k.tileOfFn, k.getNs]

theorem dweDue (n : Nat) : dweDue u n = dweDue s n := by
  unfold Machine.dweDue delivering
  rw [k.getNs, k.host]

end GivenUp

/-! ### Admin commands -/

section

variable {op : Nat} {pf0 san recov evac : Bool} {f : State → State}

theorem adminCmd_of_none (ht : takeCmd h s = none) : adminCmd h op pf0 san recov evac f s = s := by
  unfold adminCmd
  rw [ht]

theorem adminCmd_of_foreign (ht : takeCmd h s = some u) (hp : pf0 = true) (hf : isPF0 s h.fn = false) :
    adminCmd h op pf0 san recov evac f s = answer h (.admin op) stOpcode 0 [] u := by
  unfold adminCmd
  simp only [ht, hp, (givenUp_of_takeCmd ht).isPF0, hf]
  rfl

theorem adminCmd_of_gate {sts : Sts} (ht : takeCmd h s = some u) (hp : pf0 = false ∨ isPF0 s h.fn = true)
    (hg : adminGate u san recov evac = some sts) :
    adminCmd h op pf0 san recov evac f s = answer h (.admin op) sts 0 [] u := by
  unfold adminCmd
  simp only [ht, (givenUp_of_takeCmd ht).isPF0, hg]
  rw [if_neg]
  rcases hp with hp | hp <;> simp [hp]

theorem adminGate_of_served (hs : modeNow s = modeSanitize → san = true) (hr : modeNow s = modeRecovery → recov = true)
    (he : modeNow s = modeEvacuate → evac = true) : adminGate s san recov evac = none := by
  unfold adminGate
  split
  · next hm => rw [if_pos (hs hm)]
  · next hm => rw [if_pos (hr hm)]
  · next hm => rw [if_pos (he hm)]
  · rfl

/-- An admin command that is served runs on the state after its fetch. -/
theorem adminCmd_of_served (ht : takeCmd h s = some u) (hs : adminServed s ⟨h, op, pf0, san, recov, evac⟩) :
    adminCmd h op pf0 san recov evac f s = f u := by
  have k := givenUp_of_takeCmd ht
  obtain ⟨hp, hsan, hrec, hev⟩ := hs
  unfold adminCmd
  simp only [ht, k.isPF0, adminGate_of_served (s := u) (k.modeNow ▸ hsan) (k.modeNow ▸ hrec) (k.modeNow ▸ hev)]
  rw [if_neg]
  rcases hp with hp | hp
  · simp [show pf0 = false from hp]
  · simp [hp]

end

/-- Every admin row is its command's gates, and then its own work. -/
theorem exec_adminRow {r : AdminRow} (hrow : adminRow s c = some r) :
    hostHead c = some r.h ∧ ∃ f, exec c s = .next (adminCmd r.h r.op r.pf0 r.san r.recov r.evac f s) := by
  unfold adminRow at hrow
  split at hrow
  case h_42 =>
    obtain ⟨k, rfl, rfl⟩ := Option.map_eq_some_iff.mp hrow
    exact ⟨rfl, _, rfl⟩
  case h_43 =>
    obtain ⟨k, rfl, rfl⟩ := Option.map_eq_some_iff.mp hrow
    exact ⟨rfl, _, rfl⟩
  case h_44 => cases hrow
  all_goals
    obtain rfl := Option.some.inj hrow
    exact ⟨rfl, _, rfl⟩

/-! ### I/O commands -/

/-- A row that looks its blocks up does nothing until their map lines are there (R406). -/
def lookedUp (c : Instr) (f : State → State) (s : State) : State :=
  match lookupRow c with
  | some (h, slba, nlb) => whenPresent h slba nlb f s
  | none => f s

theorem lookedUp_of_present (f : State → State)
    (hl : ∀ l, lookupRow c = some l → mapReady s l.1.nsid l.2.1 l.2.2 = true) : lookedUp c f s = f s := by
  unfold lookedUp
  split
  · next hrow => exact if_pos (hl _ hrow)
  · rfl

theorem lookedUp_of_absent {slba nlb : Nat} (f : State → State) (hrow : lookupRow c = some (h, slba, nlb))
    (hl : mapReady s h.nsid slba nlb = false) : lookedUp c f s = s := by
  unfold lookedUp
  rw [hrow]
  exact if_neg (by simp [hl])

/-- Every I/O row but a flush of every namespace is its lookup, its command's gates, and then its own work. -/
theorem exec_ioRow {kind : CmdKind} {reads : Bool} (hrow : ioRow c = some (h, kind, reads))
    (hf : kind = .flush ∧ h.nsid ≠ allNs ∨ kind ≠ .flush) :
    ∃ f, exec c s = .next (lookedUp c (ioCmd h kind reads f) s) := by
  unfold ioRow at hrow
  split at hrow
  case h_3 =>
    obtain ⟨rfl, rfl, rfl⟩ : _ ∧ _ ∧ _ := by simpa only [Option.some.injEq, Prod.mk.injEq] using hrow
    exact ⟨_, congrArg Host.Outcome.next (if_neg (hf.resolve_right fun n => n rfl).2)⟩
  case h_19 => cases hrow
  all_goals
    obtain ⟨rfl, rfl, rfl⟩ : _ ∧ _ ∧ _ := by simpa only [Option.some.injEq, Prod.mk.injEq] using hrow
    exact ⟨_, rfl⟩

/-- Every row that looks blocks up waits for their map lines before all else. -/
theorem exec_lookupRow {slba nlb : Nat} (hrow : lookupRow c = some (h, slba, nlb)) :
    ∃ f, exec c s = .next (lookedUp c f s) := by
  unfold lookupRow at hrow
  split at hrow
  case h_4 => cases hrow
  all_goals exact ⟨_, rfl⟩

/-- The head of an I/O row's command is the row's. -/
theorem lookupRow_head {kind : CmdKind} {reads : Bool} {l : CmdHead × Nat × Nat} (hrow : ioRow c = some (h, kind, reads))
    (hl : lookupRow c = some l) : l.1 = h := by
  unfold lookupRow at hl
  split at hl
  case h_4 => cases hl
  all_goals
    obtain rfl := Option.some.inj hl
    obtain ⟨rfl, -, -⟩ : _ ∧ _ ∧ _ := by simpa only [ioRow, Option.some.injEq, Prod.mk.injEq] using hrow
    rfl

theorem flushCmd_of_all {late : Bool} (ht : takeCmd h s = none) : flushCmd h late s = s := by
  unfold flushCmd ioCmd
  rw [ht]
  split <;> rfl

section

variable {kind : CmdKind} {reads : Bool} {f : State → State}

theorem ioCmd_of_none (ht : takeCmd h s = none) : ioCmd h kind reads f s = s := by
  unfold ioCmd
  rw [ht]

theorem ioGate_of_other (hs : modeNow s ≠ modeSanitize) (hr : modeNow s ≠ modeRecovery)
    (he : modeNow s = modeEvacuate → reads = true) : ioGate s reads = none := by
  unfold ioGate
  split
  · next hm => exact absurd hm hs
  · next hm => exact absurd hm hr
  · next hm => rw [if_pos (he hm)]
  · rfl

/-- What R102 says before the namespace is looked at: nothing in EVACUATE. -/
theorem gate_of_other (hs : modeNow s ≠ modeSanitize) (hr : modeNow s ≠ modeRecovery) :
    (if modeNow s = modeEvacuate then none else ioGate s reads) = none := by
  split
  · rfl
  · next he => exact ioGate_of_other hs hr fun h => absurd h he

variable (ht : takeCmd h s = some u)
include ht

theorem ioCmd_of_sanitize (hm : modeNow s = modeSanitize) : ioCmd h kind reads f s = answer h kind stSanitize 0 [] u := by
  have hu : modeNow u = modeSanitize := (givenUp_of_takeCmd ht).modeNow.trans hm
  unfold ioCmd ioGate
  simp only [ht, hu]
  rfl

theorem ioCmd_of_recovery (hm : modeNow s = modeRecovery) : ioCmd h kind reads f s = answer h kind stNs 0 [] u := by
  have hu : modeNow u = modeRecovery := (givenUp_of_takeCmd ht).modeNow.trans hm
  unfold ioCmd ioGate
  simp only [ht, hu]
  rfl

variable (hs : modeNow s ≠ modeSanitize) (hr : modeNow s ≠ modeRecovery)
include hs hr

/-- What a command meets once the mode has let it through to its namespace. -/
theorem ioCmd_of_mode : ioCmd h kind reads f s =
    if !nsOk s h then answer h kind stNs 0 [] u
    else if dweDue s h.nsid then answer h kind stDeferred 0 [] u
    else match ioGate u reads with
      | some st => answer h kind st 0 [] u
      | none => f u := by
  have k := givenUp_of_takeCmd ht
  have gate := gate_of_other (reads := reads) (k.modeNow ▸ hs) (k.modeNow ▸ hr)
  unfold ioCmd
  simp only [ht, gate, k.nsOk, k.dweDue] <;> rfl

theorem ioCmd_of_foreign (hn : nsOk s h = false) : ioCmd h kind reads f s = answer h kind stNs 0 [] u := by
  rw [ioCmd_of_mode ht hs hr, hn]
  rfl

theorem ioCmd_of_deferred (hn : nsOk s h = true) (hd : dweDue s h.nsid = true) :
    ioCmd h kind reads f s = answer h kind stDeferred 0 [] u := by
  rw [ioCmd_of_mode ht hs hr, hn, hd]
  rfl

theorem ioCmd_of_evacuate (hn : nsOk s h = true) (hd : dweDue s h.nsid = false) (hm : modeNow s = modeEvacuate) :
    ioCmd h kind false f s = answer h kind stWriteProt 0 [] u := by
  have hg : ioGate u false = some stWriteProt := by
    unfold ioGate
    rw [(givenUp_of_takeCmd ht).modeNow, hm]
    rfl
  rw [ioCmd_of_mode ht hs hr, hn, hd, hg]
  rfl

/-- An I/O command that is served runs on the state after its fetch. -/
theorem ioCmd_of_served (hn : nsOk s h = true) (hd : dweDue s h.nsid = false)
    (he : modeNow s = modeEvacuate → reads = true) : ioCmd h kind reads f s = f u := by
  have k := givenUp_of_takeCmd ht
  rw [ioCmd_of_mode ht hs hr, hn, hd, ioGate_of_other (k.modeNow ▸ hs) (k.modeNow ▸ hr) (k.modeNow ▸ he)]
  rfl

end

/-! ### A command that its queue does not give up -/

/-- The row of a tile operation. -/
def tileOpRow : Instr → Option (Nat × Nat × Option TileReq)
  | .tileProvision t req => some (t, 1, req)
  | .tileStart t req => some (t, 2, req)
  | .tileStop t req => some (t, 3, req)
  | .tileRelease t req => some (t, 4, req)
  | .tileSetShares t req => some (t, 5, req)
  | _ => none

theorem exec_tileOpRow {tile op : Nat} {req : Option TileReq} (hrow : tileOpRow c = some (tile, op, req)) :
    exec c s = .next (tileRow tile op req s) ∧ hostHead c = req.map (·.h) := by
  unfold tileOpRow at hrow
  split at hrow
  case h_6 => cases hrow
  all_goals
    obtain ⟨rfl, rfl, rfl⟩ : _ ∧ _ ∧ _ := by simpa only [Option.some.injEq, Prod.mk.injEq] using hrow
    exact ⟨rfl, rfl⟩

theorem tileRow_of_none {tile op : Nat} {r : TileReq} (ht : takeCmd r.h s = none) : tileRow tile op (some r) s = s := by
  unfold tileRow
  split
  · rfl
  · exact adminCmd_of_none ht

/-- A row that a host issues as a command is a tile operation's, an admin command's or an I/O command's. -/
theorem hostHead_cases (hhead : hostHead c = some h) :
    (∃ tile op r, tileOpRow c = some (tile, op, some r) ∧ r.h = h) ∨ (∃ r, adminRow s c = some r ∧ r.h = h) ∨
      ∃ kind reads, ioRow c = some (h, kind, reads) := by
  cases htile : tileOpRow c with
  | some x =>
    obtain ⟨tile, op, req⟩ := x
    obtain ⟨r, rfl, hr⟩ := Option.map_eq_some_iff.mp ((exec_tileOpRow (s := s) htile).2.symm.trans hhead)
    exact .inl ⟨tile, op, r, rfl, hr⟩
  | none =>
    right
    cases hadmin : adminRow s c with
    | some r => exact .inl ⟨r, rfl, Option.some.inj ((exec_adminRow hadmin).1.symm.trans hhead)⟩
    | none =>
      right
      unfold hostHead at hhead
      split at hhead
      all_goals
        simp only [tileOpRow, adminRow, reduceCtorEq, Option.map_eq_none_iff] at htile hadmin hhead
      all_goals
        first
        | (obtain rfl := Option.some.inj hhead; exact ⟨_, _, rfl⟩)
        | (rw [hadmin] at hhead; cases hhead)

theorem exec_of_not_taken (hhead : hostHead c = some h) (ht : takeCmd h s = none) : exec c s = .next s := by
  rcases hostHead_cases (s := s) hhead with ⟨tile, op, r, hrow, rfl⟩ | ⟨r, hrow, rfl⟩ | ⟨kind, reads, hrow⟩
  · rw [(exec_tileOpRow hrow).1, tileRow_of_none ht]
  · obtain ⟨-, f, hf⟩ := exec_adminRow hrow
    rw [hf, adminCmd_of_none ht]
  · by_cases hall : kind = .flush ∧ h.nsid ≠ allNs ∨ kind ≠ .flush
    · obtain ⟨f, hf⟩ := exec_ioRow (s := s) hrow hall
      rw [hf]
      by_cases hl : ∀ l, lookupRow c = some l → mapReady s l.1.nsid l.2.1 l.2.2 = true
      · rw [lookedUp_of_present _ hl, ioCmd_of_none ht]
      · obtain ⟨l, hlook, hno⟩ : ∃ l, lookupRow c = some l ∧ ¬ mapReady s l.1.nsid l.2.1 l.2.2 = true := by
          simpa only [not_forall, exists_prop] using hl
        rw [lookedUp_of_absent _ hlook (Bool.eq_false_iff.mpr hno)]
    · have hk : kind = .flush := by
        by_contra hk
        exact hall (.inr hk)
      unfold ioRow at hrow
      split at hrow
      case h_3 =>
        obtain ⟨rfl, -, -⟩ : _ ∧ _ ∧ _ := by simpa only [Option.some.injEq, Prod.mk.injEq] using hrow
        exact congrArg Host.Outcome.next (flushCmd_of_all ht)
      all_goals
        simp only [Option.some.injEq, Prod.mk.injEq, hk, reduceCtorEq, false_and, and_false] at hrow

/-- Settles O21: a command not given up changes nothing; the function and the mode gate the others. -/
theorem adminCommandsAreGated : Obligations.AdminCommandsAreGated := by
  refine fun s c => ⟨fun h hhead ht => exec_of_not_taken hhead ht, fun r u hrow ht => ?_⟩
  obtain ⟨-, f, hf⟩ := exec_adminRow hrow
  have hmode := (givenUp_of_takeCmd ht).modeNow
  have gated : ∀ {sts}, r.pf0 = false ∨ isPF0 s r.h.fn = true → adminGate u r.san r.recov r.evac = some sts →
      completes c s (answer r.h (.admin r.op) sts 0 [] u) := fun hp hg =>
    hf.trans (congrArg _ (adminCmd_of_gate ht hp hg))
  refine ⟨fun hp hforeign => hf.trans (congrArg _ (adminCmd_of_foreign ht hp hforeign)), fun hp => ⟨fun hm hno => ?_,
    fun hm hno => ?_, fun hm hno => ?_⟩⟩
  all_goals
    refine gated hp ?_
    unfold adminGate
    rw [hmode, hm, hno]
    rfl

/-- Settles O22: absent map lines, the mode, the namespace and a deferred error come before a command's own work. -/
theorem ioCommandsAreGated : Obligations.IoCommandsAreGated := by
  refine ⟨fun s c h slba nlb hrow habs => ?absent, fun s u c h kind reads hrow hflush hmap ht => ?_⟩
  case absent =>
    obtain ⟨f, hf⟩ := exec_lookupRow (s := s) hrow
    exact hf.trans (congrArg _ (lookedUp_of_absent f hrow habs))
  obtain ⟨f, hf⟩ := exec_ioRow (s := s) hrow hflush
  rw [lookedUp_of_present _ fun l hl => by rw [lookupRow_head hrow hl]; exact hmap l hl] at hf
  refine ⟨fun hm => hf.trans (congrArg _ (ioCmd_of_sanitize ht hm)), fun hm => hf.trans (congrArg _ (ioCmd_of_recovery ht hm)),
    fun hs hr => ⟨fun hn => hf.trans (congrArg _ (ioCmd_of_foreign ht hs hr hn)),
      fun hn hd => hf.trans (congrArg _ (ioCmd_of_deferred ht hs hr hn hd)), fun hn hd hm hreads => ?_⟩⟩
  subst hreads
  exact hf.trans (congrArg _ (ioCmd_of_evacuate ht hs hr hn hd hm))

/-! ### Wakes and doorbells -/

theorem evtOnly_releaseHeld (s : State) : evtOnly s (releaseHeld s) := by
  have kept : ∀ (t : State) (x : RecSt), evtOnly t { t with recd := x } := fun t x => ⟨.recd (.refl _ t), .of_regs rfl⟩
  exact List.foldlRecOn (motive := evtOnly s) _ _ (kept s _) fun u hu x _ =>
    hu.trans ((evtOnly_request ..).trans (kept _ _))

/-- The lock acquires anew after a wake from Sleep, unless it is free (R420). -/
theorem sleptWake_spec (s : State) :
    changesOnly (.beat :: eventParts) s (sleptWake s) ∧ regsKeptE (· = Reg.BEAT_STATUS) s (sleptWake s) := by
  have noted : evtOnly s (anchor 6 (releaseHeld s)) := (evtOnly_releaseHeld s).trans (evtOnly_anchor ..)
  have parts : changesOnly (.beat :: eventParts) s (anchor 6 (releaseHeld s)) := noted.1.mono (by decide)
  have regs : regsKeptE (· = Reg.BEAT_STATUS) s (anchor 6 (releaseHeld s)) := .of_evtOnly (.refl s) noted
  unfold sleptWake
  dsimp only
  split
  · exact ⟨parts, regs⟩
  · refine ⟨.setF (.beat parts) F.BEAT_STATUS_LOCK_STATE 1, .setF ?_ F.BEAT_STATUS_LOCK_STATE 1 rfl⟩
    exact regs.congr

/-- The registers that a wake to Run writes. -/
def wakeReg (a : Nat) : Prop :=
  a = Reg.PWR_STATE ∨ a = Reg.PWR_DOM_STAT ∨ a = Reg.PWR_WAKES ∨ a = Reg.BEAT_STATUS

/-- Run is entered: the state's registers, and its event. -/
def runEntered (s : State) : State :=
  happen basePwr 0 (setF F.PWR_STATE_CUR 0 (setF F.PWR_DOM_STAT_RET 0 (setF F.PWR_DOM_STAT_ON (domsOn s 0)
    (setF F.PWR_STATE_IN_TRANSITION 0 (addF F.PWR_WAKES_COUNT 1
      (setF F.PWR_STATE_IO_WAKE (if selected s = 0 then 0 else 1) s))))))

/-- No wake is under way any more. -/
def wakesEnded (s t : State) : State :=
  { t with top := { t.top with wakeRun := false, waking := [], woken := [], waitFrom := frameNow s } }

theorem runAgain_eq (s : State) : runAgain s = if asleep s then sleptWake (wakesEnded s (runEntered s))
    else wakesEnded s (runEntered s) := rfl

theorem runEntered_spec (s : State) : changesOnly eventParts s (runEntered s) ∧ regsKeptE wakeReg s (runEntered s) ∧
    getF (runEntered s) F.PWR_STATE_CUR = 0 ∧ raised basePwr 0 (runEntered s) = true := by
  have state : wakeReg Reg.PWR_STATE := .inl rfl
  have dom : wakeReg Reg.PWR_DOM_STAT := .inr (.inl rfl)
  have wakes : wakeReg Reg.PWR_WAKES := .inr (.inr (.inl rfl))
  refine ⟨.happen (.setF (.setF (.setF (.setF (.addF (.setF (.refl _ s) _ _) _ _) _ _) _ _) _ _) _ _) basePwr 0,
    .happen (.setF (.setF (.setF (.setF (.addF (.setF (.refl s) _ _ state) _ _ wakes) _ _ state) _ _ dom) _ _ dom) _ _ state)
      basePwr 0, ?_, raised_happen _ _ _ (by decide) (by decide) (by decide) (by decide)⟩
  rw [runEntered, getF_happen (by decide) (by decide) (by decide), getF_setF_same _ _ _ (by unfold Fld.ok; decide)]
  rfl

theorem wakesEnded_spec (s t : State) : changesOnly [.top] t (wakesEnded s t) ∧ (wakesEnded s t).regs = t.regs ∧
    (t.top = s.top → (wakesEnded s t).top = (wakesEnded s s).top) :=
  ⟨.top (.refl _ t), rfl, fun h => by rw [wakesEnded, h, wakesEnded]⟩

theorem runAgain_spec (s : State) : changesOnly (.beat :: .top :: eventParts) s (runAgain s) ∧
    regsKeptE wakeReg s (runAgain s) ∧ powerNow (runAgain s) = 0 ∧ (runAgain s).top = (wakesEnded s s).top := by
  obtain ⟨parts, regs, hcur, -⟩ := runEntered_spec s
  rw [runAgain_eq]
  generalize runEntered s = r at *
  obtain ⟨eparts, eregs, etop⟩ := wakesEnded_spec s r
  have ended : changesOnly (.beat :: .top :: eventParts) s (wakesEnded s r) :=
    (parts.mono (by decide)).trans (eparts.mono (by decide))
  have endedCur : powerNow (wakesEnded s r) = 0 := (getF_congr F.PWR_STATE_CUR eregs).trans hcur
  split
  · obtain ⟨sparts, sregs⟩ := sleptWake_spec (wakesEnded s r)
    exact ⟨ended.trans (sparts.mono (by decide)),
      (regs.congr eregs).trans fun a ha he => sregs a (fun e => ha (.inr (.inr (.inr e)))) he,
      (sregs.getF (by decide) (by decide)).trans endedCur, sparts.top_eq.trans (etop parts.top_eq)⟩
  · exact ⟨ended, regs.congr eregs, endedCur, etop parts.top_eq⟩

/-- What anything of R418 does to the drive. -/
theorem wakeDrive_spec (s : State) : changesOnly (.beat :: .top :: eventParts) s (wakeDrive s) ∧
    regsKeptE wakeReg s (wakeDrive s) ∧ (powerNow s ≤ 1 → powerNow (wakeDrive s) = 0) ∧
    (2 ≤ powerNow s → (wakeDrive s).top.wakeRun = true ∧ powerNow (wakeDrive s) = powerNow s) := by
  unfold wakeDrive
  split
  · next h0 =>
    have waited : changesOnly (.beat :: .top :: eventParts) s { s with top := { s.top with waitFrom := frameNow s } } :=
      .top (.refl _ s)
    unfold abandon
    split
    · refine ⟨.happen (.setF (.top waited) _ _) basePwr 13, ?_, fun _ => ?_, fun h => by omega⟩
      · exact .happen (.setF (.of_regs rfl) _ _ (.inl rfl)) basePwr 13
      · rw [powerNow, getF_happen (by decide) (by decide) (by decide),
          getF_setF_apart _ _ _ _ (by unfold Fld.ok; decide) (.inl (by decide)), getF_congr (s := s) _]
        exact h0
    · exact ⟨waited, .of_regs rfl, fun _ => (getF_congr (s := s) F.PWR_STATE_CUR).trans h0, fun h => by omega⟩
  · next h1 =>
    obtain ⟨parts, regs, hcur, -⟩ := runAgain_spec s
    exact ⟨parts, regs, fun _ => hcur, fun h => by omega⟩
  · next h0 h1 =>
    refine ⟨.setF (.top (.refl _ s)) _ _, .setF (.of_regs rfl) _ _ (.inl rfl), fun h => ?_, fun _ => ⟨?_, ?_⟩⟩
    · have : powerNow s = 0 ∨ powerNow s = 1 := by omega
      exact (this.elim h0 h1).elim
    · rw [setF_top]
    · rw [powerNow, getF_setF_apart _ _ _ _ (by unfold Fld.ok; decide) (.inl (by decide)), getF_congr (s := s) _]
      rfl

theorem getCq_setSq (fn qid fn' qid' : Nat) (v : Sq) (s : State) : getCq (setSq fn qid v s) fn' qid' = getCq s fn' qid' := rfl

theorem exec_sqDoorbell {fn qid n : Nat} (hsize : (getSq s fn qid).size ≠ 0) (hn : n < (getSq s fn qid).size)
    (hoff : s.top.off = false) :
    exec (.sqDoorbellWrite fn qid n) s = .next (wakeDrive (setSq fn qid { getSq s fn qid with tail := n } s)) := by
  refine congrArg Host.Outcome.next (if_neg ?_)
  rintro (h | h | h)
  · exact hsize h
  · omega
  · exact absurd (h.symm.trans hoff) (by decide)

/-- Settles O23: a queue gives its head up where nothing stands in its way, and a doorbell moves its queue. -/
theorem doorbellsMoveTheirQueues : Obligations.DoorbellsMoveTheirQueues := by
  refine ⟨fun s h hserv hsize hheld => ⟨fun hg => ?granted, fun hg hne hf => ?fetched⟩,
    fun s fn qid n => ⟨fun hsize hn => ?cq, fun h => ?cqOut, fun hsize hn hoff => ?sq, fun h => ?sqOut⟩⟩
  case granted =>
    exact ⟨_, takeCmd_of_granted hserv hsize hheld hg, getSq_setSq .., .host (.refl _ s)⟩
  case fetched =>
    have ht := takeCmd_of_fetched hserv hsize hheld hg hne hf
    have k := givenUp_of_takeCmd ht
    refine ⟨_, ht, ?_, ?_, k.host, k.parts⟩
    · rw [getSq, addF_host, ← getSq, getSq_setSq]
    · rw [getF_addF_word, getF_congr (s := s) _]
  case cq =>
    refine ⟨_, congrArg Host.Outcome.next (if_neg ?_), getCq_setCq .., .host (.refl _ s)⟩
    rintro (h | h) <;> omega
  case cqOut => exact congrArg Host.Outcome.next (if_pos h)
  case sq =>
    obtain ⟨parts, -, hrun, hslept⟩ := wakeDrive_spec (setSq fn qid { getSq s fn qid with tail := n } s)
    have hpow : powerNow (setSq fn qid { getSq s fn qid with tail := n } s) = powerNow s := getF_congr (s := s) F.PWR_STATE_CUR
    rw [hpow] at hrun hslept
    refine ⟨_, exec_sqDoorbell hsize hn hoff, ?_, fun h => hrun h.le, hslept⟩
    rw [getSq, parts.host_eq, ← getSq, getSq_setSq]
  case sqOut => exact congrArg Host.Outcome.next (if_pos h)

end Sys2Proof.Machine

end

/-! ## Admin commands: queues, logs and features (R23, R80, R97, R98, R99, R104, R119, R127, R149, R153, R417, R463) -/

section

-- One proof after another: elaborated side by side, the proofs of this text take more memory than its check allows.
set_option Elab.async false

namespace Sys2Proof.Machine

variable {s t u x : State} {h : CmdHead} {c : Instr}

/-! ### Answers -/

theorem getCmd_answer (h : CmdHead) (kind : CmdKind) (sts : Sts) (dw0 : Nat) (data : List Byte) (x : State) :
    getCmd (answer h kind sts dw0 data x) x.host.nextCmd =
      { cmdOf h kind x with st := .ready, status := sts, dw0 := dw0, data := data } := getCmd_setCmd ..

section

variable (h : CmdHead) (kind : CmdKind) (sts : Sts) (dw0 : Nat) (data : List Byte) (x : State) (fn qid : Nat)

theorem getSq_answer : getSq (answer h kind sts dw0 data x) fn qid = getSq x fn qid := rfl

theorem getCq_answer : getCq (answer h kind sts dw0 data x) fn qid = getCq x fn qid := rfl

theorem getFn_answer : getFn (answer h kind sts dw0 data x) fn = getFn x fn := rfl

theorem getNs_answer : getNs (answer h kind sts dw0 data x) fn = getNs x fn := rfl

end

/-- A command is answered whatever its work did, so long as the work took no other place in the table. -/
theorem answeredWith_answer (hn : x.host.nextCmd = u.host.nextCmd) (kind : CmdKind) (sts : Sts) (dw0 : Nat)
    (data : List Byte) : answeredWith h sts u (answer h kind sts dw0 data x) := by
  have hc := getCmd_answer h kind sts dw0 data x
  unfold answeredWith
  rw [← hn, hc]
  exact ⟨rfl, rfl, rfl, rfl⟩

theorem changesOnly.answer {ps : List Part} (hx : changesOnly ps u x) (h : CmdHead) (kind : CmdKind) (sts : Sts)
    (dw0 : Nat) (data : List Byte) (hp : .host ∈ ps := by decide) : changesOnly ps u (answer h kind sts dw0 data x) :=
  hx.host hp

/-- An admin command that runs completes with its own work on the state after its fetch. -/
theorem completes_of_adminRuns {f : State → State} (hrun : adminRuns s c u)
    (hx : ∀ r, adminRow s c = some r → exec c s = .next (adminCmd r.h r.op r.pf0 r.san r.recov r.evac f s)) :
    completes c s (f u) := by
  obtain ⟨r, hrow, hserved, htake⟩ := hrun
  exact (hx r hrow).trans (congrArg _ (adminCmd_of_served htake hserved))

/-! ### Queues -/

theorem createSq_of_ok {sqid size prio cqid k : Nat} (ht : tileOfFn u h.fn = some k) (h1 : 1 ≤ sqid) (h2 : sqid ≤ 4096)
    (hfree : (getSq u h.fn sqid).size = 0) (hroom : sqCount u h.fn < getF u (F.TILE_QUEUES_MAX_QP k)) (h3 : 2 ≤ size)
    (h4 : size ≤ 65536) (h5 : cqid ≠ 0) (hcq : (getCq u h.fn cqid).size ≠ 0) :
    createSq h sqid size prio cqid u =
      answer h (.admin 0x01) stOk 0 [] (setSq h.fn sqid { sq0 with size := size, prio := prio % 4, cq := cqid } u) := by
  unfold createSq
  simp only [ht]
  rw [if_neg (by omega), if_neg (by omega), if_neg (by omega), if_neg (by omega)]

theorem createCq_of_ok {cqid size vector k : Nat} (ht : tileOfFn u h.fn = some k) (h1 : 1 ≤ cqid) (h2 : cqid ≤ 4096)
    (hfree : (getCq u h.fn cqid).size = 0) (hroom : cqCount u h.fn < getF u (F.TILE_QUEUES_MAX_QP k)) (h3 : 2 ≤ size)
    (h4 : size ≤ 65536) (hvec : vector < getF u (F.TILE_QUEUES_MAX_VEC k)) :
    createCq h cqid size vector u =
      answer h (.admin 0x05) stOk 0 [] (setCq h.fn cqid { cq0 with size := size, vector := vector } u) := by
  unfold createCq
  simp only [ht]
  rw [if_neg (by omega), if_neg (by omega), if_neg (by omega), if_neg (by omega)]

/-- A submission queue that a function's own queues feed a completion queue with. -/
theorem anyFeeds_iff {l : Tbl Sq} {fn cqid : Nat} :
    l.any (fun p => decide (p.1 / 8192 = fn) && decide (p.1 % 8192 ≠ 0) && decide (p.2.cq = cqid)) = true ↔
      ∃ x ∈ l, x.1 / 8192 = fn ∧ x.1 % 8192 ≠ 0 ∧ x.2.cq = cqid := by
  simp only [List.any_eq_true, Bool.and_eq_true, decide_eq_true_eq, and_assoc]

theorem deleteCq_of_fed {cqid : Nat} (h1 : cqid ≠ 0) (hcq : (getCq u h.fn cqid).size ≠ 0)
    (hfed : ∃ x ∈ u.host.sqs, x.1 / 8192 = h.fn ∧ x.1 % 8192 ≠ 0 ∧ x.2.cq = cqid) :
    deleteCq h cqid u = answer h (.admin 0x04) stQueueDel 0 [] u := by
  unfold deleteCq
  rw [if_neg (by omega), if_pos (anyFeeds_iff.mpr hfed)]

theorem deleteCq_of_unfed {cqid : Nat} (h1 : cqid ≠ 0) (hcq : (getCq u h.fn cqid).size ≠ 0)
    (hun : ∀ x ∈ u.host.sqs, x.1 / 8192 = h.fn → x.1 % 8192 ≠ 0 → x.2.cq ≠ cqid) :
    deleteCq h cqid u = answer h (.admin 0x04) stOk 0 [] (setCq h.fn cqid cq0 u) := by
  unfold deleteCq
  rw [if_neg (by omega), if_neg]
  rw [anyFeeds_iff]
  rintro ⟨x, hx, hfn, hadmin, hcq⟩
  exact hun x hx hfn hadmin hcq

/-! ### Logs -/

theorem logRead_nextCmd (fn lid len : Nat) (s : State) : (logRead fn lid len s).host.nextCmd = s.host.nextCmd := by
  unfold logRead
  split <;> rfl

/-- A log read that re-arms its events takes no place in the table. -/
theorem logAfter_nextCmd (rae : Bool) (fn lid len : Nat) (s : State) :
    (tick (if rae then s else logRead fn lid len s)).host.nextCmd = s.host.nextCmd := by
  split
  · rfl
  · exact logRead_nextCmd ..

/-- A log page of the vendor that runs is answered with its data as the fetch left it. -/
theorem completes_of_log {data : State → List Byte} {after : State → State} (hrun : adminRuns s c u)
    (hx : ∀ r, adminRow s c = some r → r = ⟨h, 0x02, false, true, true, true⟩ ∧ exec c s = .next (logCmd h data after s)) :
    completes c s (answer h (.admin 0x02) stOk 0 (data u) (after u)) :=
  completes_of_adminRuns (f := fun t => answer h (.admin 0x02) stOk 0 (data t) (after t)) hrun fun r hr => by
    obtain ⟨rfl, hexec⟩ := hx r hr
    exact hexec

/-- Settles O25: each command that runs is answered by its own work, whose checks the premises pass one by one. -/
theorem queueAndLogCommandsComplete : Obligations.QueueAndLogCommandsComplete := by
  unfold Obligations.QueueAndLogCommandsComplete
  intro s u h
  refine ⟨?unsupported, ?createSq, ?createCq, ?deleteSq, ?deleteCq, ?identify, ?getLog, ?c0, ?c1, ?c2, ?c3, ?c4, ?c5,
    ?selfTest, ?secSend, ?secReceive, ?dirSend, ?dirReceive⟩
  case unsupported => exact fun op hrun => completes_of_adminRuns hrun (by rintro _ ⟨⟩; rfl)
  case createSq =>
    intro sqid size prio cqid k hrun ht h1 h2 hfree hroom h3 h4 h5 hcq
    refine ⟨_, completes_of_adminRuns (f := createSq h sqid size prio cqid) hrun (by rintro _ ⟨⟩; rfl), ?_⟩
    rw [createSq_of_ok ht h1 h2 hfree hroom h3 h4 h5 hcq]
    exact ⟨answeredWith_answer (by rfl) .., getSq_setSq .., .answer (.host (.refl _ u)) ..⟩
  case createCq =>
    intro cqid size vector k hrun ht h1 h2 hfree hroom h3 h4 hvec
    refine ⟨_, completes_of_adminRuns (f := createCq h cqid size vector) hrun (by rintro _ ⟨⟩; rfl), ?_⟩
    rw [createCq_of_ok ht h1 h2 hfree hroom h3 h4 hvec]
    exact ⟨answeredWith_answer (by rfl) .., getCq_setCq .., .answer (.host (.refl _ u)) ..⟩
  case deleteSq =>
    intro sqid hrun h1 hsq
    refine ⟨_, completes_of_adminRuns (f := deleteSq h sqid) hrun (by rintro _ ⟨⟩; rfl), ?_⟩
    unfold deleteSq
    rw [if_neg (by omega)]
    dsimp only
    rw [getSq_answer, getSq_setSq]
  case deleteCq =>
    intro cqid hrun h1 hcq
    have run := completes_of_adminRuns (f := deleteCq h cqid) hrun (by rintro _ ⟨⟩; rfl)
    refine ⟨fun hun => ⟨_, run, ?_⟩, fun hfed => deleteCq_of_fed h1 hcq hfed ▸ run⟩
    rw [deleteCq_of_unfed h1 hcq hun]
    exact ⟨answeredWith_answer (by rfl) .., (getCq_answer ..).trans (getCq_setCq ..)⟩
  case identify =>
    intro cns hrun
    have run := completes_of_adminRuns hrun (c := .identify h cns) (by rintro _ ⟨⟩; rfl)
    refine ⟨fun st d hid => ?_, fun hid => ?_⟩
    · simpa only [hid] using run
    · simpa only [hid] using run
  case getLog =>
    intro lid off len rae hrun hlen
    have run := completes_of_adminRuns hrun (c := .getLogPage h lid off len rae) (by rintro _ ⟨⟩; rfl)
    rw [if_neg (Nat.not_lt.mpr hlen)] at run
    refine ⟨fun l hl => ?_, fun hl => ?_⟩
    · simp only [hl] at run
      have kept := logAfter_nextCmd rae h.fn lid len u
      refine ⟨_, run, answeredWith_answer kept .., ?_, ?_⟩
      · rw [← kept, getCmd_answer]
      · rintro rfl
        exact .answer (.tick (.refl _ u)) ..
    · simpa only [hl] using run
  case c0 =>
    exact fun n rae hrun => completes_of_log (data := lossData false h.fn n)
      (after := fun t => if rae then t else lossRead false h.fn n t) hrun (by rintro _ ⟨⟩; exact ⟨rfl, rfl⟩)
  case c1 =>
    exact fun n rae hrun => completes_of_log (data := lossData true h.fn n)
      (after := fun t => if rae then t else lossRead true h.fn n t) hrun (by rintro _ ⟨⟩; exact ⟨rfl, rfl⟩)
  case c2 =>
    exact fun rae hrun => completes_of_log (data := healthData h.fn)
      (after := fun t => if rae then t else rearm h.fn 0xC2 t) hrun (by rintro _ ⟨⟩; exact ⟨rfl, rfl⟩)
  case c3 =>
    exact fun k n rae hrun => completes_of_log (data := sealData h.fn k n)
      (after := fun t => if rae then t else rearm h.fn 0xC3 t) hrun (by rintro _ ⟨⟩; exact ⟨rfl, rfl⟩)
  case c4 =>
    intro byType off len hrun hlen
    have run := completes_of_adminRuns hrun (c := .getLogPageC4 h byType off len) (by rintro _ ⟨⟩; rfl)
    rwa [if_neg (Nat.not_lt.mpr hlen)] at run
  case c5 =>
    intro hrun
    exact completes_of_log (data := ledgerData h.fn) (after := id) hrun (by rintro _ ⟨⟩; exact ⟨rfl, rfl⟩)
  case selfTest =>
    intro stc hrun
    have run := completes_of_adminRuns hrun (c := .deviceSelfTest h stc) (by rintro _ ⟨⟩; rfl)
    simpa only [List.contains_iff_mem, List.mem_cons, List.not_mem_nil, or_false] using run
  case secSend => exact fun hrun => completes_of_adminRuns hrun (by rintro _ ⟨⟩; rfl)
  case secReceive => exact fun hrun => completes_of_adminRuns hrun (by rintro _ ⟨⟩; rfl)
  case dirSend => exact fun hrun => completes_of_adminRuns hrun (by rintro _ ⟨⟩; rfl)
  case dirReceive => exact fun hrun => completes_of_adminRuns hrun (by rintro _ ⟨⟩; rfl)

/-! ### Features -/

/-- What aiming at the state selected leaves: it touches no command and no function. -/
theorem host_aimAt (requested : Bool) (s : State) : (aimAt requested s).host = s.host := by
  have parts : changesOnly [.regs, .top] s (aimAt requested s) := by
    unfold aimAt noteSel
    dsimp only
    generalize hn : setF F.PWR_STATE_SEL_B _ _ = n
    have base : changesOnly [.regs, .top] s n := hn ▸ .setF (.setF (.refl _ s) _ _) _ _
    exact .ite (.top (.setF base _ _)) (.ite (.top base) (.setF (.top base) _ _))
  exact parts.host_eq

/-- A Set Features that runs is answered with what its feature says. -/
theorem completes_of_feature {f : State → Sts × Nat × State} (hrun : adminRuns s c u)
    (hx : ∀ r, adminRow s c = some r → r = ⟨h, 0x09, false, false, true, true⟩ ∧ exec c s = .next (featCmd h f s)) :
    completes c s (answer h (.admin 0x09) (f u).1 (f u).2.1 [] (f u).2.2) :=
  completes_of_adminRuns (f := fun t => answer h (.admin 0x09) (f t).1 (f t).2.1 [] (f t).2.2) hrun fun r hr => by
    obtain ⟨rfl, hexec⟩ := hx r hr
    exact hexec

theorem changesOnly_setFeat (fn fid v : Nat) (s : State) : changesOnly [.host] s (setFeat fn fid v s) := .host (.refl _ s)

theorem feat_setFeat (fn fid v : Nat) (s : State) : tget zeroD (getFn (setFeat fn fid v s) fn).feat fid = v := by
  rw [setFeat, getFn_setFn]
  exact tget_tset_same ..

theorem featPs_of_refused {fn ps : Nat} (hno : 4 < ps ∨ isPF0 u fn = false ∧ ps ≠ 0 ∨ psAllowed u ps = 2) :
    featPs fn ps u = (stField, 0, u) :=
  if_pos (by simpa using hno)

theorem featPs_of_pf0 {fn ps : Nat} (hps : ps ≤ 4) (hpf0 : isPF0 u fn = true) (hall : psAllowed u ps ≠ 2) :
    featPs fn ps u = (stOk, 0, selectPs fn ps true u) := by
  unfold featPs
  rw [if_neg, if_neg] <;> simp [hpf0, hall, hps]

theorem mem_fdpTiles {k : Nat} {l : List Nat} {on : Bool} :
    k ∈ (if on then insertNat k l else removeNat k l) ↔ on = true := by
  cases on
  · simpa using not_mem_removeNat _ _
  · simpa using (mem_insertNat ..).mpr (.inl rfl)

/-- Where host time comes from the host alone, the time given is kept with the beat it came in. -/
theorem featTime_of_pf0 {fn ms : Nat} (hpf0 : isPF0 u fn = true) :
    ∃ y, featTime fn ms u = (stOk, 0, anchor 5 y) ∧ y.host = { u.host with timestamp := some (ms, beatNow u) } := by
  unfold featTime
  rw [if_pos hpf0]
  refine ⟨_, rfl, ?_⟩
  split <;> rfl

theorem featTime_of_other {fn ms : Nat} (hpf0 : isPF0 u fn = false) :
    featTime fn ms u = (stOk, 0, setFeat fn 0x0E ms u) := by
  unfold featTime
  rw [if_neg (by simp [hpf0])]

/-- The features whose value NVMe defines, and the part keeps and reads back. -/
def keptFeatures : List Nat := [0x04, 0x05, 0x08, 0x09, 0x0A, 0x0B, 0x0C]

theorem featOther_of_kept {fn fid v : Nat} (hf : fid ∈ keptFeatures) : featOther fn fid v u = (stOk, 0, setFeat fn fid v u) := by
  simp only [keptFeatures, List.mem_cons, List.not_mem_nil, or_false] at hf
  rcases hf with rfl | rfl | rfl | rfl | rfl | rfl | rfl <;> rfl

theorem featOther_of_unknown {fn fid v : Nat}
    (hf : fid ∉ [0x01, 0x02, 0x04, 0x05, 0x06, 0x07, 0x08, 0x09, 0x0A, 0x0B, 0x0C, 0x1D]) :
    featOther fn fid v u = (stField, 0, u) := by
  have hkept : keptFeatures.contains fid = false :=
    List.contains_eq_mem fid keptFeatures ▸ decide_eq_false fun hm =>
      hf ((show keptFeatures ⊆ _ by decide) hm)
  unfold featOther
  split
  case h_6 => exact if_neg (Bool.eq_false_iff.mp hkept)
  all_goals exact absurd (by decide) hf

/-- Settles O26: each feature's own function is met on the state after the fetch, and the answer reads its result. -/
theorem featuresTakeEffect : Obligations.FeaturesTakeEffect := by
  unfold Obligations.FeaturesTakeEffect
  intro s u h
  refine ⟨?vwc, ?arbitration, ?power, ?fdp, ?fdpEvents, ?timestamp, ?setOther, ?get⟩
  case vwc =>
    intro wce hrun
    exact ⟨_, completes_of_feature (f := featVwc h.fn wce) hrun (by rintro _ ⟨⟩; exact ⟨rfl, rfl⟩),
      answeredWith_answer (by rfl) .., getFn_setFn .., .answer (.host (.refl _ u)) ..⟩
  case arbitration =>
    intro b l m hi hrun
    exact ⟨_, completes_of_feature (f := featArb h.fn b l m hi) hrun (by rintro _ ⟨⟩; exact ⟨rfl, rfl⟩),
      answeredWith_answer (by rfl) .., feat_setFeat .., .answer (changesOnly_setFeat ..) ..⟩
  case power =>
    intro ps hrun
    have run := completes_of_feature (h := h) (f := featPs h.fn ps) hrun (by rintro _ ⟨⟩; exact ⟨rfl, rfl⟩)
    refine ⟨fun hno => ?_, fun hps hpf0 hall => ?_, fun hps hpf0 hall => ?_⟩
    · rwa [featPs_of_refused hno] at run
    · rw [featPs_of_pf0 hps hpf0 (by omega), selectPs, if_neg (by omega)] at run
      have hhost := host_aimAt true (setFn h.fn { getFn u h.fn with ps := ps, psHeld := none } u)
      have place : (aimAt true (setFn h.fn { getFn u h.fn with ps := ps, psHeld := none } u)).host.nextCmd =
          u.host.nextCmd := (congrArg HostSt.nextCmd hhost).trans rfl
      have hfn : getFn (aimAt true (setFn h.fn { getFn u h.fn with ps := ps, psHeld := none } u)) h.fn =
          { getFn u h.fn with ps := ps, psHeld := none } := by
        rw [getFn, hhost]
        exact getFn_setFn ..
      generalize aimAt true _ = y at run place hfn
      have answered := (getFn_answer h (.admin 0x09) stOk 0 [] y h.fn).trans hfn
      exact ⟨_, run, answeredWith_answer place .., congrArg Fn.ps answered, congrArg Fn.psHeld answered⟩
    · rw [featPs_of_pf0 hps hpf0 (by omega), selectPs, if_pos hall] at run
      exact ⟨_, run, answeredWith_answer (by rfl) .., getFn_setFn .., .answer (.host (.refl _ u)) ..⟩
  case fdp =>
    intro on k hrun ht
    have run := completes_of_feature (h := h) (f := featFdp h.fn on) hrun (by rintro _ ⟨⟩; exact ⟨rfl, rfl⟩)
    refine ⟨fun hnone => ?_, fun hsome => ?_⟩
    · simp only [featFdp, ht, hnone, ne_eq, not_true_eq_false, if_false] at run
      exact ⟨_, run, answeredWith_answer (by rfl) .., mem_fdpTiles, .answer (.host (.refl _ u)) ..⟩
    · simpa only [featFdp, ht, if_pos hsome] using run
  case fdpEvents =>
    intro on kind k hrun ht hk
    have run := completes_of_feature (h := h) (f := featFdpEvents h.fn on [kind]) hrun (by rintro _ ⟨⟩; exact ⟨rfl, rfl⟩)
    simp only [featFdpEvents, ht, List.contains_iff_mem.mpr hk, Bool.not_true, Bool.false_eq_true, if_false,
      List.foldl_cons, List.foldl_nil] at run
    refine ⟨_, run, answeredWith_answer (by rfl) .., ?_, .answer (.host (.refl _ u)) ..⟩
    refine (congrArg (fun v => bitsOf v kind 1) (tget_tset_same ..)).trans ?_
    rw [bitsOf_putBits]
    cases on <;> rfl
  case timestamp =>
    intro ms hrun
    have run := completes_of_feature (h := h) (f := featTime h.fn ms) hrun (by rintro _ ⟨⟩; exact ⟨rfl, rfl⟩)
    cases hpf0 : isPF0 u h.fn with
    | false =>
      rw [featTime_of_other hpf0] at run
      refine ⟨_, run, answeredWith_answer (by rfl) .., fun e => Bool.noConfusion e, fun _ => ⟨feat_setFeat .., ?_⟩⟩
      exact .answer (changesOnly_setFeat ..) ..
    | true =>
      obtain ⟨y, hy, hhost⟩ := featTime_of_pf0 (ms := ms) hpf0
      have kept : (anchor 5 y).host = { u.host with timestamp := some (ms, beatNow u) } :=
        ((evtOnly_anchor 5 y).part (p := .host) (by decide)).trans hhost
      have hraised := raised_anchor 5 y
      rw [hy] at run
      generalize anchor 5 y = z at run kept hraised
      have place : z.host.nextCmd = u.host.nextCmd := (congrArg HostSt.nextCmd kept).trans rfl
      refine ⟨_, run, answeredWith_answer place .., fun _ => ⟨?_, hraised⟩, fun e => Bool.noConfusion e⟩
      exact congrArg HostSt.timestamp kept
  case setOther =>
    intro fid v hrun
    have run := completes_of_feature (h := h) (f := featOther h.fn fid v) hrun (by rintro _ ⟨⟩; exact ⟨rfl, rfl⟩)
    refine ⟨fun hkept => ?_, fun hunknown => ?_⟩
    · rw [featOther_of_kept hkept] at run
      exact ⟨_, run, answeredWith_answer (by rfl) .., feat_setFeat .., .answer (changesOnly_setFeat ..) ..⟩
    · rwa [featOther_of_unknown hunknown] at run
  case get =>
    intro fid hrun
    have run := completes_of_adminRuns hrun (c := .getFeatures h fid) (by rintro _ ⟨⟩; rfl)
    refine ⟨fun hkept => ?_, fun hps => ?_, fun hwce => ?_⟩
    · simp only [List.mem_cons, List.not_mem_nil, or_false] at hkept
      rcases hkept with rfl | rfl | rfl | rfl | rfl | rfl | rfl | rfl | rfl <;> exact run
    · subst hps
      exact run
    · subst hwce
      exact run

end Sys2Proof.Machine
end

/-! ## What the operations that end commands and empty namespaces leave (R117, R121, R133, R134) -/

section

-- One proof after another: elaborated side by side, the proofs of this text take more memory than its check allows.
set_option Elab.async false

namespace Sys2Proof.Machine

variable {s t u : State} {i : Nat}

/-! ### The parts that map operations change -/

theorem changesOnly_dropRd (i : Nat) (s : State) : changesOnly [.map] s (dropRd i s) :=
  .foldl (.map (.refl _ s)) fun u _ _ => .map (.refl _ u)

theorem changesOnly_dropReads (i : Nat) (s : State) : changesOnly [.map] s (dropReads i s) :=
  .foldl (.refl _ s) fun u p _ => changesOnly_dropRd p.1 u

theorem changesOnly_stageSlot (k : Nat) (s : State) : changesOnly [.map] s (stageSlot k s) :=
  .ite (.map (.refl _ s)) (.refl _ s)

theorem changesOnly_freeSlot (k : Nat) (s : State) : changesOnly [.map] s (freeSlot k s) :=
  .ite (.map (.refl _ s)) (.map (.refl _ s))

theorem changesOnly_courseIn (e : Ent) (s : State) : changesOnly [.map] s (courseIn e s) := by
  unfold courseIn
  split
  · split
    · exact .map (.refl _ s)
    · exact .refl _ s
  · exact .refl _ s

theorem changesOnly_courseOut (e : Ent) (s : State) : changesOnly [.map] s (courseOut e s) := by
  unfold courseOut
  split
  · split
    · exact .map (.refl _ s)
    · exact .refl _ s
  · exact .refl _ s

theorem changesOnly_supersede (k : Nat) (s : State) : changesOnly [.map, .regs] s (supersede k s) :=
  .ite (.addF ((changesOnly_freeSlot k s).mono (by decide)) _ _) (.refl _ s)

theorem changesOnly_putEnt (l i : Nat) (e : Ent) (s : State) : changesOnly [.map, .regs] s (putEnt l i e s) := by
  unfold putEnt
  split
  · exact .refl _ s
  · dsimp only
    have lined : ∀ x, changesOnly [.map, .regs] s (setLine l x s) := fun _ => .map (.refl _ s)
    have counted : ∀ o v, changesOnly [.map, .regs] s v → changesOnly [.map, .regs] s (courseIn e (courseOut o v)) :=
      fun o v h => h.trans (((changesOnly_courseOut o v).trans (changesOnly_courseIn ..)).mono (by decide))
    have left : ∀ k v, changesOnly [.map, .regs] s v → changesOnly [.map, .regs] s (supersede k v) :=
      fun k v h => h.trans (changesOnly_supersede k v)
    exact .ite (left _ _ (.ite (lined _) (counted _ _ (lined _)))) (.ite (lined _) (counted _ _ (lined _)))

theorem changesOnly_switchMu (k : Nat) (s : State) : changesOnly [.map, .regs] s (switchMu k s) := by
  unfold switchMu
  dsimp only
  refine .ite (.refl _ s) (changesOnly.trans (t := _) ?_ (changesOnly_putEnt ..))
  refine .ite (.map (t := _) (.foldl (.refl _ s) fun u b _ => ?_)) (.map (.refl _ s))
  exact .ite (.map (.refl _ u)) (.refl _ u)

theorem changesOnly_handForErase (c : Nat) (s : State) : changesOnly [.map, .trowel] s (handForErase c s) :=
  .ite (.refl _ s) (.trowel (.map ((changesOnly_journal ..).mono (by decide))))

theorem changesOnly_releaseCourse (c : Nat) (s : State) : changesOnly [.map, .trowel] s (releaseCourse c s) :=
  changesOnly.trans (t := _) (.map (.refl _ s)) (changesOnly_handForErase ..)

theorem changesOnly_gcTrigger (tile : Nat) (s : State) : changesOnly (.trowel :: eventParts) s (gcTrigger tile s) := by
  unfold gcTrigger
  dsimp only
  refine .ite (.refl _ s) (.ite (.happen ?_ baseTrowel 5) ?_) <;>
    exact .setF (.trowel (t := s) (.refl _ s)) F.TROWEL_STATUS_GC_URGENT _

theorem changesOnly_keysSettle (s : State) : changesOnly (.mac :: eventParts) s (keysSettle s) := by
  unfold keysSettle
  dsimp only
  refine .ite (.refl _ s) (.foldl (.foldl (.refl _ s) fun u k _ => ?_) fun u k _ => ?_)
  · exact .ite (.mac (.setF (.refl _ u) _ _)) (.refl _ u)
  · exact .ite (.happen (.mac (.setF (.refl _ u) _ _)) baseMac 4) (.refl _ u)

theorem changesOnly_unmapLines (first count : Nat) (s : State) : changesOnly [.map, .regs] s (unmapLines first count s) := by
  unfold unmapLines
  split
  · exact .refl _ s
  · refine .foldl (.foldl (.refl _ s) fun u p _ => .foldl (.refl _ u) fun v i _ => changesOnly_putEnt ..) fun u r _ => ?_
    exact .foldl ((changesOnly_journal ..).mono (by decide)) fun v p _ => .map (.refl _ v)

theorem changesOnly_foldLeaves (m n z : Nat) (s : State) : changesOnly [.mac] s (foldLeaves m n z s) := by
  induction m generalizing s with
  | zero => exact .refl _ s
  | succ m ih =>
    unfold foldLeaves
    dsimp only
    split
    · split
      · exact changesOnly.trans (t := _) (.mac (.refl _ s)) (ih _)
      · exact .refl _ s
    · exact .refl _ s

theorem changesOnly_catchUp (n z : Nat) (s : State) : changesOnly [.mac] s (catchUp n z s) :=
  .ite (.mac (changesOnly_foldLeaves ..)) (changesOnly_foldLeaves ..)

/-! ### Commands keep their places, and namespaces their data -/

/-- No command has been placed in the table, no namespace changed, and nothing of the part's own state. -/
structure Seated (s t : State) : Prop where
  nextCmd : t.host.nextCmd = s.host.nextCmd
  ns : t.host.ns = s.host.ns
  top : t.top = s.top

namespace Seated

theorem refl (s : State) : Seated s s := ⟨rfl, rfl, rfl⟩

theorem trans (h : Seated s t) (k : Seated t u) : Seated s u :=
  ⟨k.nextCmd.trans h.nextCmd, k.ns.trans h.ns, k.top.trans h.top⟩

theorem of_host (hh : t.host = s.host) (ht : t.top = s.top) : Seated s t :=
  ⟨congrArg HostSt.nextCmd hh, congrArg HostSt.ns hh, ht⟩

theorem of_parts {ps : List Part} (k : changesOnly ps s t) (hh : .host ∉ ps := by decide)
    (ht : .top ∉ ps := by decide) : Seated s t := of_host (k.host_eq hh) (k.top_eq ht)

theorem getNs (h : Seated s t) (n : Nat) : getNs t n = getNs s n := by rw [Machine.getNs, h.ns, Machine.getNs]

theorem foldl {α : Type} {g : State → α → State} {l : List α} (h : Seated s t) (hg : ∀ u, ∀ x ∈ l, Seated u (g u x)) :
    Seated s (l.foldl g t) :=
  List.foldlRecOn (motive := Seated s) l g h fun u hu x hx => hu.trans (hg u x hx)

theorem ite {c : Prop} [Decidable c] (ht : Seated s t) (hu : Seated s u) : Seated s (if c then t else u) := by
  split <;> assumption

theorem setCmd (i : Nat) (c : Cmd) (s : State) : Seated s (setCmd i c s) := ⟨rfl, rfl, rfl⟩

theorem setFn (fn : Nat) (f : Fn) (s : State) : Seated s (setFn fn f s) := ⟨rfl, rfl, rfl⟩

theorem setSq (fn qid : Nat) (q : Sq) (s : State) : Seated s (setSq fn qid q s) := ⟨rfl, rfl, rfl⟩

theorem ready (i : Nat) (sts : Sts) (dw0 : Nat) (data : List Byte) (s : State) : Seated s (ready i sts dw0 data s) :=
  setCmd ..

theorem failCmd (i : Nat) (sts : Sts) (s : State) : Seated s (failCmd i sts s) := ready ..

theorem unhold (i : Nat) (s : State) : Seated s (unhold i s) := ite (setSq ..) (refl s)

theorem aen (fn typ info lid : Nat) (s : State) : Seated s (aen fn typ info lid s) := by
  unfold Machine.aen
  dsimp only
  split
  · exact refl s
  · split
    · exact setFn ..
    · exact (setFn ..).trans (ready ..)

theorem mediaAen (s : State) : Seated s (mediaAen s) := by
  refine foldl (refl s) fun u k _ => ?_
  split
  · exact ite (aen ..) (refl u)
  · exact refl u

theorem noteSpares (s : State) : Seated s (noteSpares s) := by
  unfold Machine.noteSpares
  dsimp only
  refine ite (trans (of_parts (ps := eventParts) ?_) (mediaAen _)) (ite (of_parts (ps := eventParts) ?_) (refl s))
  · exact .setF (.happen (.setF (.refl _ s) _ _) baseTrowel 3) _ _
  · exact .setF (.setF (.refl _ s) _ _) _ _

theorem setRow (c : Nat) (row : List BrickAddr) (s : State) : Seated s (setRow c row s) := by
  unfold Machine.setRow
  have spared : Seated s ((row.filter (fun a => !(courseTable s c).contains a)).foldl (fun t a => takeSpare a t) s) :=
    foldl (refl s) fun u a _ => trans (of_parts (ps := [.map, .regs]) (.setF (.map (.refl _ u)) _ _)) (noteSpares _)
  refine foldl (spared.trans ⟨rfl, rfl, rfl⟩) fun u k _ => ?_
  have noted : ∀ k a, Seated u (tableRecord c k a u) := fun k a => of_parts (changesOnly_journal ..)
  split
  · split
    · exact refl u
    · exact noted ..
  · exact noted ..
  · exact refl u

theorem takeCourse {role tile c : Nat} {use : CourseUse} {cold : Bool} (htake : takeCourse role tile use cold s = some (c, u)) :
    Seated s u := by
  unfold Machine.takeCourse at htake
  split at htake
  · cases htake
  · split at htake
    · cases htake
    · next row _ =>
      cases htake
      have rowed : Seated s (if row = courseTable s c then s else Machine.setRow c row s) := ite (refl s) (setRow ..)
      exact rowed.trans (of_parts (ps := [.map]) ((changesOnly.map (.refl _ _)).trans (changesOnly_journal ..)))

theorem courseFor {x : Cmd} {tile c : Nat} (hfor : courseFor x tile s = some (c, u)) : Seated s u := by
  unfold Machine.courseFor at hfor
  split at hfor
  · obtain ⟨k, -, hk⟩ := Option.map_eq_some_iff.mp hfor
    cases hk
    exact refl s
  · unfold wallCourse at hfor
    dsimp only at hfor
    split at hfor
    · cases hfor
      exact refl s
    · split at hfor
      · next htake =>
        cases hfor
        refine trans (t := _) ?_ (of_parts (changesOnly_gcTrigger ..))
        exact (takeCourse htake).trans ⟨rfl, rfl, rfl⟩
      · cases hfor

theorem newSlot {x : Cmd} {tile mu k : Nat} (hnew : newSlot x tile mu s = some (k, u)) : Seated s u := by
  unfold Machine.newSlot at hnew
  split at hnew
  · next hcourse =>
    cases hnew
    exact (courseFor hcourse).trans ⟨rfl, rfl, rfl⟩
  · cases hnew

/-! #### A cut write -/

theorem tagBlock (i off kind data metaF : Nat) (s : State) : Seated s (tagBlock i off kind data metaF s) := by
  have numbered : Seated s (seqFor i s).2 := by
    unfold seqFor
    dsimp only
    split
    · split
      · exact ⟨rfl, rfl, rfl⟩
      · exact refl s
    · exact ⟨rfl, rfl, rfl⟩
  unfold Machine.tagBlock
  generalize seqFor i s = p at numbered ⊢
  exact (numbered.trans (setCmd ..)).trans (of_parts (changesOnly_addThousand ..))

theorem renewSlots (i : Nat) (s : State) : Seated s (renewSlots i s) := by
  unfold Machine.renewSlots
  dsimp only
  refine trans (t := _) ?_ (setCmd ..)
  refine List.foldlRecOn (motive := fun p : List Nat × State => Seated s p.2) _ _ (refl s) fun p hp k _ => ?_
  split
  · exact hp
  · split
    · next hnew => exact (hp.trans (newSlot hnew)).trans ⟨rfl, rfl, rfl⟩
    · exact hp

theorem landWrite (i : Nat) (s : State) : Seated s (landWrite i s) := by
  unfold Machine.landWrite
  dsimp only
  have caught : ∀ n z v, Seated v (catchUp n z v) := fun n z v => of_parts (changesOnly_catchUp n z v)
  have landed : ∀ c v, Seated v (landBlocks c v) := fun c v =>
    of_parts (ps := [.map]) (.foldl (.refl _ v) fun u p _ => .map (.refl _ u))
  have filled : ∀ (c l : List Nat) v, Seated v (c.foldl (fun t k => stageSlot k (fillNow k t)) (l.foldl (fun t k => switchMu k t) v)) :=
    fun c l v => of_parts (ps := [.map, .regs]) <| .foldl (.foldl (.refl _ v) fun u k _ => changesOnly_switchMu k u) fun u k _ =>
      (changesOnly_fillNow k u).trans ((changesOnly_stageSlot ..).mono (by decide))
  have base : ∀ c1 c2 l m, Seated s (List.foldl (fun t k => stageSlot k (fillNow k t))
      (List.foldl (fun t k => switchMu k t) (landBlocks c1 (Machine.setCmd i c2 (Machine.renewSlots i s))) l) m) :=
    fun c1 c2 l m => (((renewSlots i s).trans (setCmd ..)).trans (landed ..)).trans (filled ..)
  exact ite ((base ..).trans (caught ..)) (base ..)

theorem leaveSlots (i : Nat) (l : List Nat) (s : State) : Seated s (leaveSlots i l s) :=
  foldl (refl _) fun u k _ => ite ⟨rfl, rfl, rfl⟩ <| of_parts (ps := [.map, .regs]) <|
    (changesOnly_fillNow k u).trans ((changesOnly_stageSlot ..).mono (by decide))

theorem cutWrite (i : Nat) (keep : Bool) (s : State) : Seated s (cutWrite i keep s) := by
  unfold Machine.cutWrite
  dsimp only
  have rest : ∀ v, Seated v (deallocRest i v) := fun v => foldl (refl v) fun u k _ => tagBlock ..
  have kept : ∀ (c : Prop) [Decidable c] x v, Seated s v → Seated s (if c then v else Machine.setCmd i x v) :=
    fun c _ x v h => ite h (h.trans (setCmd ..))
  refine trans ?_ (leaveSlots ..)
  refine trans ?_ (setCmd ..)
  refine trans ?_ (landWrite ..)
  exact ite ((kept _ _ _ (refl s)).trans (rest _)) (kept _ _ _ (refl s))

/-- A command that is aborted leaves the table and the namespaces as they were. -/
theorem abortNow (i : Nat) (s : State) : Seated s (abortNow i s) := by
  unfold Machine.abortNow
  dsimp only
  have dropped : Seated s (dropPlanned i s) := by
    refine foldl (refl s) fun u ch _ => foldl (refl u) fun v d _ => ?_
    dsimp only
    refine ite (of_parts (ps := [.tiles, .beat]) (.beat ?_)) (refl v)
    exact .foldl (.refl _ v) fun w p _ => (changesOnly_refund p w).mono (by decide)
  generalize dropPlanned i s = v at dropped
  have ended : Seated v (if isWrite (getCmd v i).kind ∧ (getCmd v i).st = .started then Machine.cutWrite i false v
      else dropReads i (Machine.unhold i v)) :=
    ite (cutWrite ..) ((unhold ..).trans (of_parts (changesOnly_dropReads ..)))
  generalize (if isWrite (getCmd v i).kind ∧ (getCmd v i).st = .started then Machine.cutWrite i false v
      else dropReads i (Machine.unhold i v)) = w at ended
  have left : Seated w { w with host := { w.host with zoneActs := w.host.zoneActs.filter (fun a => a.1 != i) } } := ⟨rfl, rfl, rfl⟩
  exact (((dropped.trans ended).trans left).trans (setCmd ..)).trans (failCmd ..)

/-! #### An emptied namespace -/

theorem settleWaits (s : State) : Seated s (settleWaits s) := by
  unfold Machine.settleWaits
  dsimp only
  have settled : Seated s ((s.host.cmds.filter (fun p => decide (p.2.waits ≠ []))).foldl
      (fun t p => settleCmd p.1 p.2 t) s) := foldl (refl s) fun u p _ => setCmd ..
  have restored : ∀ v b, Seated s v → Seated s (if v.grout.restored = [] then v else { v with grout := b }) :=
    fun v b h => ite h (h.trans ⟨rfl, rfl, rfl⟩)
  have drained : ∀ v b (d : List Nat), Seated s v → Seated s (if v.grout.drain = [] then v
      else if d = [] then setF F.PWR_HOLDUP_STAT_DRAINING 0 { v with grout := b } else { v with grout := b }) :=
    fun v b d h => ite h (ite (h.trans (of_parts (ps := [.grout, .regs]) (.setF (.grout (.refl _ v)) _ _)))
      (h.trans ⟨rfl, rfl, rfl⟩))
  exact drained _ _ _ (restored _ _ settled)

theorem dropWalls (tile : Nat) (s : State) : Seated s (dropWalls tile s) := by
  unfold Machine.dropWalls
  dsimp only
  have emptied : Seated s (handEmptied s) :=
    of_parts (ps := [.map, .trowel]) (.foldl (.refl _ s) fun u p _ => changesOnly_handForErase ..)
  have released : Seated s ((heldBy s tile wallUse).foldl (fun x c => releaseCourse c x) s) :=
    of_parts (ps := [.map, .trowel]) (.foldl (.refl _ s) fun u p _ => changesOnly_releaseCourse ..)
  have h1 := ite (c := tileConv s tile = []) released emptied
  exact ((h1.trans (settleWaits _)).trans (of_parts (changesOnly_gcTrigger ..))).trans (of_parts (changesOnly_keysSettle _))

theorem wipeNs (n : Nat) (s : State) : Seated s (wipeNs n s) := by
  unfold Machine.wipeNs
  dsimp only
  have ended : Seated s (dropNsCmds n s) := foldl (refl s) fun u p _ =>
    (((setCmd ..).trans (unhold ..)).trans (of_parts (changesOnly_dropReads ..))).trans (failCmd ..)
  have unmapped : ∀ first count v, Seated v (unmapLines first count v) := fun _ _ _ => of_parts (changesOnly_unmapLines ..)
  have freed : ∀ (l : Tbl Slot) v, Seated v (l.foldl (fun t p => freeSlot p.1 t) v) := fun l v =>
    foldl (refl v) fun u p _ => of_parts (changesOnly_freeSlot ..)
  refine trans (t := _) (((ended.trans (unmapped ..)).trans (freed ..)).trans (foldl (refl _) fun u p _ => ?_)) ⟨rfl, rfl, rfl⟩
  split
  · exact of_parts (changesOnly_releaseCourse ..)
  · exact refl u

end Seated

end Sys2Proof.Machine
end

/-! ## Admin commands: Abort, events, namespaces, firmware and modes (R100, R103, R116, R126, R133, R354 to R356, R483) -/

section

-- One proof after another: elaborated side by side, the proofs of this text take more memory than its check allows.
set_option Elab.async false

namespace Sys2Proof.Machine

variable {s t u x : State} {h : CmdHead} {c : Instr} {i k : Nat}

/-! ### Abort -/

theorem getCmd_answer_ne (hi : i ≠ x.host.nextCmd) (h : CmdHead) (kind : CmdKind) (sts : Sts) (dw0 : Nat) (data : List Byte) :
    getCmd (answer h kind sts dw0 data x) i = getCmd x i := tget_tset_ne _ _ _ hi

theorem abortNow_cmd (i : Nat) (s : State) :
    (getCmd (abortNow i s) i).st = .ready ∧ (getCmd (abortNow i s) i).status = stAborted := by
  have failed : ∀ v, (getCmd (failCmd i stAborted v) i).st = .ready ∧ (getCmd (failCmd i stAborted v) i).status = stAborted :=
    fun v => by rw [failCmd, ready, getCmd_setCmd]; exact ⟨rfl, rfl⟩
  unfold abortNow
  exact failed _

theorem getFn_allocCmd (x : Cmd) (fn : Nat) (s : State) : getFn (allocCmd x s).2 fn = getFn s fn := rfl

/-! ### Namespaces -/

/-- A namespace command that its mode allows does its own work for the function's tile. -/
theorem completes_of_nsAdmin {op : Nat} {evac : Bool} {f : Nat → State → State} (hrun : adminRuns s c u)
    (hx : ∀ r, adminRow s c = some r → r = ⟨h, op, false, false, false, evac⟩ ∧ exec c s = .next (nsAdmin h op evac f s))
    (hm : modeNow u ≠ modeStandalone) (hd : modeNow u = modeDegraded → getF u F.TOP_MODE_BASE ≠ modeStandalone)
    (ht : tileOfFn u h.fn = some k) : completes c s (f k u) := by
  obtain ⟨r, hrow, hserved, htake⟩ := hrun
  obtain ⟨rfl, hexec⟩ := hx r hrow
  have hno : ¬ (modeNow u = modeStandalone ∨ (modeNow u = modeDegraded ∧ getF u F.TOP_MODE_BASE = modeStandalone)) := by
    rintro (e | ⟨e, e'⟩)
    · exact hm e
    · exact hd e e'
  refine hexec.trans (congrArg _ ((adminCmd_of_served htake hserved).trans ?_))
  rw [if_neg hno, ht]

theorem nsNamed_of_own (hall : h.nsid ≠ allNs) (hns : nsExists u h.nsid = true) (hk : (getNs u h.nsid).tile = k) :
    nsNamed u h k = [h.nsid] := by
  unfold nsNamed
  rw [if_neg hall, if_pos]
  simp [hns, hk]

theorem getNs_deleteNs (n : Nat) (s : State) : getNs (deleteNs n s) n = ns0 :=
  ((Seated.dropWalls _ _).getNs n).trans (getNs_setNs ..)

/-- Settles O27: an Abort's work and a namespace's emptying leave the table's next place, so their answers stand there. -/
theorem namespaceAndEventCommandsComplete : Obligations.NamespaceAndEventCommandsComplete := by
  unfold Obligations.NamespaceAndEventCommandsComplete
  intro s u h
  refine ⟨?abort, ?aer, ?create, ?delete, ?attach, ?format⟩
  case abort =>
    intro sq cid i hrun hfind hi
    have run := completes_of_adminRuns hrun (c := .abort h sq cid) (by rintro _ ⟨⟩; rfl)
    rw [hfind] at run
    dsimp only at run
    refine ⟨fun hab => ?_, fun hab => ?_⟩
    · rw [if_pos hab] at run
      have seat : (addF (F.HOST_ABORTED_COUNT (portOf u h.fn)) 1 (abortNow i u)).host.nextCmd = u.host.nextCmd :=
        (congrArg HostSt.nextCmd (addF_host ..)).trans (Seated.abortNow i u).nextCmd
      have ended : getCmd (addF (F.HOST_ABORTED_COUNT (portOf u h.fn)) 1 (abortNow i u)) i = getCmd (abortNow i u) i :=
        getCmd_congr (addF_host ..) i
      obtain ⟨hst, hstatus⟩ := abortNow_cmd i u
      rw [← ended] at hst hstatus
      generalize addF (F.HOST_ABORTED_COUNT (portOf u h.fn)) 1 (abortNow i u) = v at run seat hst hstatus
      refine ⟨_, run, ?_, ?_, answeredWith_answer seat .., ?_⟩
      · rw [getCmd_answer_ne (seat ▸ hi), hst]
      · rw [getCmd_answer_ne (seat ▸ hi), hstatus]
      · rw [← seat, getCmd_answer]
    · rw [if_neg (by simp [hab])] at run
      have hhost : (addF (F.HOST_NOT_ABORTED_COUNT (portOf u h.fn)) 1 u).host = u.host := addF_host ..
      have seat := congrArg HostSt.nextCmd hhost
      have counted : getF (addF (F.HOST_NOT_ABORTED_COUNT (portOf u h.fn)) 1 u) (F.HOST_NOT_ABORTED_COUNT (portOf u h.fn)) =
          min (2 ^ 32 - 1) (getF u (F.HOST_NOT_ABORTED_COUNT (portOf u h.fn)) + 1) := getF_addF_word ..
      generalize addF (F.HOST_NOT_ABORTED_COUNT (portOf u h.fn)) 1 u = v at run hhost seat counted
      refine ⟨_, run, answeredWith_answer seat .., ?_, ?_, ?_⟩
      · rw [← seat, getCmd_answer]
      · rw [getCmd_answer_ne (seat ▸ hi), getCmd_congr hhost]
      · exact (getF_congr _).trans counted
  case aer =>
    intro hrun
    have run := completes_of_adminRuns hrun (c := .asyncEventRequest h) (by rintro _ ⟨⟩; rfl)
    refine ⟨fun e es he => ?_, fun he hroom => ?_, fun he hfull => ?_⟩
    · simp only [he] at run
      refine ⟨_, run, answeredWith_answer (by rfl) .., ?_, ?_, ?_, .answer (.host (.refl _ u)) ..⟩
      · exact congrArg Cmd.dw0 (getCmd_answer ..)
      · rw [getFn_answer, getFn_setFn]
      · rw [getFn_answer, getFn_setFn]
        exact List.mem_cons_self
    · simp only [he, if_neg (Nat.not_le.mpr hroom)] at run
      have placed : ∀ f, getCmd (setFn h.fn f (allocCmd (cmdOf h .aer u) u).2) u.host.nextCmd = cmdOf h .aer u :=
        fun _ => getCmd_setCmd ..
      refine ⟨_, run, ?_, congrArg Cmd.kind (placed _), congrArg Cmd.st (placed _), .host (.refl _ u)⟩
      rw [getFn_setFn, getFn_allocCmd]
      rfl
    · simpa only [he, if_pos hfull] using run
  case create =>
    intro csi nsze lbaf k n hrun hm hd ht hcsi hsize hzoned hlbaf hfdp hroom hfree hown hall
    have run := completes_of_nsAdmin hrun (c := .namespaceCreate h csi nsze lbaf []) (by rintro _ ⟨⟩; exact ⟨rfl, rfl⟩) hm hd ht
    have hfdp' : u.host.fdpTiles.contains k = false := by simpa using hfdp
    rw [if_neg (by rcases hcsi with rfl | rfl <;> simp_all), if_neg (by omega), if_neg (by simp), if_neg (by simp),
      if_neg (by omega)] at run
    simp only [hfree, hfdp', Bool.false_and, Bool.false_eq_true, if_false, if_neg (Nat.not_lt.mpr hown),
      if_neg (Nat.not_lt.mpr hall)] at run
    refine ⟨_, run, answeredWith_answer (by rfl) .., congrArg Cmd.dw0 (getCmd_answer ..), getNs_setNs .., fun m hm => ?_,
      .answer (.host (.refl _ u)) ..⟩
    exact tget_tset_ne _ _ _ hm
  case delete =>
    intro k hrun hm hd ht hall hns hk
    have run := completes_of_nsAdmin hrun (c := .namespaceDelete h) (by rintro _ ⟨⟩; exact ⟨rfl, rfl⟩) hm hd ht
    simp only [nsNamed_of_own hall hns hk, List.cons_ne_nil, if_false, List.foldl_cons, List.foldl_nil] at run
    exact ⟨_, run, (getNs_answer ..).trans (getNs_deleteNs h.nsid u)⟩
  case attach =>
    intro k at_ hrun hm hd ht hns hk hat
    have run := completes_of_nsAdmin hrun (c := .namespaceAttachment h at_) (by rintro _ ⟨⟩; exact ⟨rfl, rfl⟩) hm hd ht
    rw [if_neg (by simp [hns, hk]), if_neg hat] at run
    exact ⟨_, run, answeredWith_answer (by rfl) .., getNs_setNs .., .answer (.host (.refl _ u)) ..⟩
  case format =>
    intro k lbaf ses hrun ht hns hk hses hlbaf
    have run := completes_of_adminRuns hrun (c := .formatNvm h lbaf ses) (by rintro _ ⟨⟩; rfl)
    rw [if_neg (by simp [hns, hk, ht]), if_neg (Nat.not_lt.mpr hses), if_neg (Nat.not_lt.mpr hlbaf)] at run
    exact ⟨_, run, (getNs_answer ..).trans (getNs_setNs ..)⟩

end Sys2Proof.Machine
end

/-! ## Admin commands: firmware download and commit, Mode Request and Sanitize (R103, R122, R341, R354 to R356, R483, R484) -/

section

-- One proof after another: elaborated side by side, the proofs of this text take more memory than its check allows.
set_option Elab.async false

namespace Sys2Proof.Machine

variable {s t u y : State} {h : CmdHead} {c : Instr} {i m : Nat}

/-- A part that has not changed after all need not be named. -/
theorem changesOnly.of_same {p : Part} {ps : List Part} (hc : changesOnly (p :: ps) s t) (hp : p.same s t) :
    changesOnly ps s t :=
  ⟨hc.1, fun q hq => if e : q = p then e ▸ hp else hc.2 q fun hm => (List.mem_cons.mp hm).elim e hq⟩

theorem inLoader_congr (hr : t.regs = s.regs) : inLoader t = inLoader s := by rw [inLoader, inLoader, getF_congr _ hr]

theorem fwTarget_congr (hr : t.regs = s.regs) (fs : Nat) : fwTarget t fs = fwTarget s fs := by
  rw [fwTarget, fwTarget, getF_congr _ hr]

theorem imageFail_congr (hr : t.regs = s.regs) (img : ImageInfo) : imageFail t img = imageFail s img := by
  unfold imageFail rootRevoked
  simp only [getF_congr (s := s) (t := t) _ hr]

/-! ### Download -/

theorem stagePiece_of_bad {fn off len d : Nat} (hbad : len = 0 ∨ len % 4096 ≠ 0 ∨ stagingSize < off + len) :
    stagePiece fn off len d u = (stField, u) := if_pos hbad

section

variable {fn off len d : Nat} (h0 : len ≠ 0) (hal : len % 4096 = 0) (hfit : off + len ≤ stagingSize)
include h0 hal hfit

theorem stagePiece_of_first (hoff : off = 0) : stagePiece fn off len d u =
    (stOk, { u with sec := { u.sec with staging := [(0, len, d)], stagingFn := some fn } }) := by
  unfold stagePiece
  rw [if_neg (by omega), if_pos hoff]

theorem stagePiece_of_next (hoff : off ≠ 0) (hfn : u.sec.stagingFn = none ∨ u.sec.stagingFn = some fn)
    (hapart : ∀ x ∈ u.sec.staging, off + len ≤ x.1 ∨ x.1 + x.2.1 ≤ off) : stagePiece fn off len d u =
    (stOk, { u with sec := { u.sec with staging := u.sec.staging ++ [(off, len, d)] } }) := by
  unfold stagePiece
  rw [if_neg (by omega), if_neg hoff, if_neg (by rcases hfn with e | e <;> simp [e]), if_neg]
  rw [List.any_eq_true]
  rintro ⟨x, hx, hover⟩
  rw [Bool.and_eq_true, decide_eq_true_eq, decide_eq_true_eq] at hover
  have := hapart x hx
  omega

end

/-! ### Commit -/

/-- The state in which a Firmware Commit has its place in the table. -/
def fwPlaced (h : CmdHead) (u : State) : State := (allocCmd { cmdOf h (.admin 0x10) u with st := .working } u).2

theorem getCmd_fwPlaced (h : CmdHead) (u : State) :
    getCmd (fwPlaced h u) u.host.nextCmd = { cmdOf h (.admin 0x10) u with st := .working } := getCmd_setCmd ..

theorem hasCmd_fwPlaced (h : CmdHead) (u : State) : hasCmd (fwPlaced h u) u.host.nextCmd = true :=
  any_tset_same fun e => CmdSt.noConfusion (congrArg Cmd.st e)

theorem commitEnd_of_command {x : FwCommit} {sts : Sts} (hcmd : x.cmd = some i) (hhas : hasCmd y i = true) :
    commitEnd x sts y = ready i sts 0 [] { y with sec := { y.sec with commit := none } } := by
  unfold commitEnd
  simp only [hcmd]
  rw [if_pos]
  exact hhas

theorem changesOnly_fwPlaced (h : CmdHead) (u : State) : changesOnly [.host, .sec] u (fwPlaced h u) := .host (.refl _ u)

/-- A commit that ends at once answers its command, and no commit is in hand. -/
theorem commitEnd_placed {x : FwCommit} {sts : Sts} (hcmd : x.cmd = some u.host.nextCmd) (hhost : y.host = (fwPlaced h u).host)
    (hparts : changesOnly [.host, .sec] u y) :
    answeredWith h sts u (commitEnd x sts y) ∧ (commitEnd x sts y).sec = { y.sec with commit := none } ∧
      changesOnly [.host, .sec] u (commitEnd x sts y) := by
  have hhas : hasCmd y u.host.nextCmd = true := by rw [hasCmd, hhost]; exact hasCmd_fwPlaced h u
  have hplace : getCmd y u.host.nextCmd = { cmdOf h (.admin 0x10) u with st := .working } :=
    (getCmd_congr hhost _).trans (getCmd_fwPlaced h u)
  have hnext : y.host.nextCmd = (u.host.nextCmd + 1) % 262144 := congrArg HostSt.nextCmd hhost
  rw [commitEnd_of_command hcmd hhas]
  refine ⟨?_, rfl, .host (.sec hparts)⟩
  unfold answeredWith ready
  rw [getCmd_setCmd]
  exact ⟨(congrArg Cmd.h (getCmd_congr (by rfl) _)).trans (congrArg Cmd.h hplace), rfl, rfl, hnext⟩

/-- What a Firmware Commit does from its fetch on. -/
def fwWork (h : CmdHead) (action fs : Nat) (img : ImageInfo) (t : State) : State :=
  commitStart { cmd := some t.host.nextCmd, tag := 0, action := action, fs := fs, img := img } (fwPlaced h t)

/-- The commits of a host are one operation with four actions. -/
theorem completes_of_fwCommit {action fs : Nat} {img : ImageInfo} (hrun : adminRuns s c u)
    (hc : c = .fwCommitStore h fs img ∧ action = 0 ∨ c = .fwCommitStoreActivateReset h fs img ∧ action = 1 ∨
      c = .fwCommitActivateReset h fs img ∧ action = 2 ∨ c = .fwCommitActivateNow h fs img ∧ action = 3) :
    completes c s (fwWork h action fs img u) := by
  refine completes_of_adminRuns (f := fwWork h action fs img) hrun ?_
  rcases hc with ⟨rfl, rfl⟩ | ⟨rfl, rfl⟩ | ⟨rfl, rfl⟩ | ⟨rfl, rfl⟩ <;>
  · rintro _ ⟨⟩
    rfl

section

variable {x : FwCommit}

theorem commitStart_of_busy (hbusy : y.sec.commit ≠ none ∨ y.sec.act ≠ none) : commitStart x y =
    { commitEnd x stSequence y with sec := { (commitEnd x stSequence y).sec with commit := y.sec.commit } } :=
  if_pos (by simpa only [Option.isSome_iff_ne_none] using hbusy)

variable (hc : y.sec.commit = none) (ha : y.sec.act = none) (hl : inLoader y = false) (h4 : x.action < 4)
include hc ha hl h4

theorem commitStart_of_noSlot (hslot : 2 < fwTarget y x.fs ∨ x.action ≠ 2 ∧ fwTarget y x.fs = getF y F.SEC_STATUS_ACTIVE_SLOT) :
    commitStart x y = commitEnd x stFwSlot y := by
  unfold commitStart
  simp only [hl, Bool.false_eq_true, if_false]
  rw [if_neg (by simp [hc, ha]), if_neg (by omega), if_pos hslot]

/-- A commit whose slot is free takes the staged image, or the slot's, where it passes the checks of R340. -/
theorem commitStart_of_image {img : ImageInfo}
    (hslot : ¬ (2 < fwTarget y x.fs ∨ x.action ≠ 2 ∧ fwTarget y x.fs = getF y F.SEC_STATUS_ACTIVE_SLOT))
    (himg : (if x.action = 2 then (getSlotFw y (fwTarget y x.fs)).img else if y.sec.staging = [] then none else some x.img) = some img)
    (hok : imageFail y img = 0) :
    commitStart x y =
      if x.action = 2 then activateOnReset { x with fs := fwTarget y x.fs, img := img } y
      else { y with sec := { y.sec with commit := some { x with fs := fwTarget y x.fs, img := img } } } := by
  unfold commitStart
  simp only [hl, Bool.false_eq_true, if_false]
  rw [if_neg (by simp [hc, ha]), if_neg (by omega), if_neg hslot, himg]
  exact if_neg (by simp [hok])

end

theorem activateOnReset_of_hitless {x : FwCommit} (hh : hitless y x.img = true) :
    activateOnReset x y = commitEnd x stOk { y with sec := { y.sec with onReset := some x.fs } } :=
  if_neg (by simp [hh])

/-! ### Mode Request -/

/-- A Mode Request that is taken is answered on the state its outcome leaves. -/
theorem completes_of_mode {m : Nat} (hrun : adminRuns s (.modeRequest h m) u) (hout : modeOutcome u m = some y) :
    completes (.modeRequest h m) s (answer h (.admin 0xC0) stOk 0 [] y) := by
  have run := completes_of_adminRuns hrun (c := .modeRequest h m) (by rintro _ ⟨⟩; rfl)
  rwa [hout] at run

theorem completes_of_modeRefused {m : Nat} (hrun : adminRuns s (.modeRequest h m) u) (hout : modeOutcome u m = none) :
    completes (.modeRequest h m) s (answer h (.admin 0xC0) stModeRefused 0 [] (modeRefused u)) := by
  have run := completes_of_adminRuns hrun (c := .modeRequest h m) (by rintro _ ⟨⟩; rfl)
  rwa [hout] at run

theorem modeOutcome_of_zoned (hz : m = modeZoned) (hs : modeNow u = modeStandalone) :
    modeOutcome u m = some (setF F.TOP_MODE_BASE modeZoned u) := by
  subst hz
  unfold modeOutcome
  simp only [hs]
  rfl

theorem modeOutcome_of_evacuate (he : m = modeEvacuate)
    (hnow : modeNow u = modeZoned ∨ modeNow u = modeStandalone ∨ modeNow u = modeDegraded) :
    modeOutcome u m = some (setF F.TOP_MODE_CAUSE_EVAC_HOST 1 u) := by
  subst he
  unfold modeOutcome
  rcases hnow with h | h | h <;> simp only [h] <;> rfl

theorem modeOutcome_of_left (hnow : modeNow u = modeEvacuate) (hbase : m = getF u F.TOP_MODE_BASE) (hne : m ≠ modeEvacuate)
    (hhost : isSet u F.TOP_MODE_CAUSE_EVAC_HOST = true) (hsp : isSet u F.TOP_MODE_CAUSE_EVAC_SPARES = false)
    (hws : isSet u F.TOP_MODE_CAUSE_EVAC_WSEQ = false) :
    modeOutcome u m = some (setF F.TOP_MODE_CAUSE_EVAC_HOST 0 u) := by
  unfold modeOutcome
  simp only [hnow]
  rw [if_neg hne, if_neg (by decide), if_neg fun e => ?_, if_neg (by simp), if_pos ⟨trivial, hbase, hhost, by simp [hsp], by simp [hws]⟩]
  rcases e.2 with e | ⟨e, -⟩ <;> exact absurd e (by decide)

theorem modeOutcome_of_refused (hne : m ≠ modeNow u) (hno : modeNow u = modeSanitize ∨ modeNow u = modeRecovery ∨
    m ≠ modeZoned ∧ m ≠ modeEvacuate ∧ m ≠ getF u F.TOP_MODE_BASE) : modeOutcome u m = none := by
  unfold modeOutcome
  dsimp only
  rw [if_neg hne]
  rcases hno with h | h | ⟨hz, he, hb⟩
  · rw [if_pos (.inl h)]
  · rw [if_pos (.inr h)]
  · rw [if_neg (c := m = modeZoned ∧ _) (fun e => hz e.1), if_neg (c := m = modeEvacuate ∧ _) (fun e => he e.1),
      if_neg (c := modeNow u = modeEvacuate ∧ _) (fun e => hb e.2.1), ite_self]

/-- What an answered field write leaves. -/
theorem answer_setF (f : Fld) (v : Nat) (hf : f.ok) (hhost : (setF f v u).host = u.host := by rfl) :
    answeredWith h stOk u (answer h (.admin 0xC0) stOk 0 [] (setF f v u)) ∧
      getF (answer h (.admin 0xC0) stOk 0 [] (setF f v u)) f = v % 2 ^ f.w ∧
      regsKept (· = f.addr) u (answer h (.admin 0xC0) stOk 0 [] (setF f v u)) ∧
      changesOnly [.host, .regs] u (answer h (.admin 0xC0) stOk 0 [] (setF f v u)) := by
  have hset := getF_setF_same f v u hf
  have hkept : regsKept (· = f.addr) u (setF f v u) := .setF (.refl u) f v rfl
  have hparts : changesOnly [.host, .regs] u (setF f v u) := .setF (.refl _ u) f v
  generalize setF f v u = w at hset hkept hparts hhost
  exact ⟨answeredWith_answer (congrArg HostSt.nextCmd hhost) .., (getF_congr f).trans hset, hkept.congr, hparts.answer ..⟩

/-! ### A stored image -/

section

variable {x : FwCommit} (hx : s.sec.commit = some x) (hl : inLoader s = false)
include hx hl

theorem fwStored_of_stored (h0 : x.action = 0) :
    fwStored s = commitEnd x stOk (setSlotFw x.fs { img := some x.img, failed := false } s) := by
  unfold fwStored
  simp only [hx, hl, h0, Bool.false_eq_true, if_false]

theorem fwStored_of_activated (h3 : x.action = 3) (hm : modeNow s ≠ modeRecovery) (hh : hitless s x.img = true) :
    fwStored s = beginAct x (setSlotFw x.fs { img := some x.img, failed := false } s) := by
  unfold fwStored
  simp only [hx, hl, h3, hh, Bool.false_eq_true, if_false, if_true, if_neg hm]

end

theorem getSlotFw_setSlotFw (k : Nat) (v : FwSlot) (s : State) : getSlotFw (setSlotFw k v s) k = v :=
  tget_tset_same fwSlotD ..

theorem getSlotFw_beginAct (x : FwCommit) (s : State) (k : Nat) : getSlotFw (beginAct x s) k = getSlotFw s k := rfl

/-- A stored commit leaves its image in its slot, and answers the command that waits for it. -/
theorem commitEnd_stored (x : FwCommit) (s : State) :
    getSlotFw (commitEnd x stOk (setSlotFw x.fs { img := some x.img, failed := false } s)) x.fs =
        { img := some x.img, failed := false } ∧
      (commitEnd x stOk (setSlotFw x.fs { img := some x.img, failed := false } s)).sec.commit = none ∧
      ∀ i, x.cmd = some i → hasCmd s i = true →
        (getCmd (commitEnd x stOk (setSlotFw x.fs { img := some x.img, failed := false } s)) i).st = .ready ∧
          (getCmd (commitEnd x stOk (setSlotFw x.fs { img := some x.img, failed := false } s)) i).status = stOk := by
  have held := fun i => commitEnd_of_command (i := i) (x := x) (sts := stOk)
    (y := setSlotFw x.fs { img := some x.img, failed := false } s)
  have slot := getSlotFw_setSlotFw x.fs { img := some x.img, failed := false } s
  have cmds : ∀ i, hasCmd (setSlotFw x.fs { img := some x.img, failed := false } s) i = hasCmd s i := fun _ => rfl
  generalize setSlotFw x.fs { img := some x.img, failed := false } s = y at held slot cmds
  have sec : (commitEnd x stOk y).sec = { y.sec with commit := none } := by
    unfold commitEnd
    dsimp only
    split
    · split <;> rfl
    · rfl
  refine ⟨(congrArg (fun z : SecSt => tget fwSlotD z.slots x.fs) sec).trans slot, congrArg SecSt.commit sec, fun i hi hhas => ?_⟩
  rw [held i hi ((cmds i).trans hhas), ready, getCmd_setCmd]
  exact ⟨rfl, rfl⟩

/-! ### Sanitize -/

/-- Some tile other than tile 0 is not FREE. -/
theorem anyTileHeld_iff : (List.range 63).any (fun k => decide (tileState u (k + 1) ≠ tFree)) = true ↔
    ∃ k, 1 ≤ k ∧ k < 64 ∧ tileState u k ≠ tFree := by
  simp only [List.any_eq_true, List.mem_range, decide_eq_true_eq]
  constructor
  · rintro ⟨k, hk, hne⟩
    exact ⟨k + 1, by omega, by omega, hne⟩
  · rintro ⟨k, h1, h64, hne⟩
    exact ⟨k - 1, by omega, by rwa [Nat.sub_add_cancel h1]⟩

theorem top_deleteNs (n : Nat) (s : State) : (deleteNs n s).top = s.top :=
  (Seated.dropWalls _ _).top.trans (Seated.wipeNs n s).top

theorem top_invalidateAll (f : Nat → Bool) (s : State) : (invalidateAll f s).top = s.top := by
  have parts : changesOnly [.regs, .sort] s (invalidateAll f s) :=
    .foldl (.refl _ s) fun u p _ => .addF (.setF (.sort (.refl _ u)) _ _) _ _
  exact parts.top_eq

theorem top_deleteAll (l : List (Nat × Ns)) (s : State) : (l.foldl (fun t p => deleteNs p.1 t) s).top = s.top :=
  List.foldlRecOn (motive := fun t => t.top = s.top) l _ rfl fun t ht p _ => (top_deleteNs p.1 t).trans ht

/-- The STANDALONE namespace is the one of NSID 1, of the size that mode has. -/
theorem getNs_standaloneNs (s : State) : (getNs (standaloneNs s) 1).attached = true ∧ (getNs (standaloneNs s) 1).tile = 0 ∧
    (getNs (standaloneNs s) 1).zoned = false ∧ (getNs (standaloneNs s) 1).nsze = s.top.standalone := by
  unfold standaloneNs newNs
  rw [getNs_setNs]
  exact ⟨rfl, rfl, rfl, rfl⟩

section

variable (hs : isSet s F.TOP_MODE_CAUSE_SANITIZING = true) (h2 : s.top.sanStat = 2) (he : allErased s = true)
  (hr : running s = true)
include hs h2 he hr

theorem sanitizeEnd_of_failed : sanitizeEnd false s = { s with top := { s.top with sanStat := 3 } } := by
  unfold sanitizeEnd
  rw [if_neg (by simp [hs, h2, he, hr]), if_pos (by decide)]

/-- A Sanitize that is reached leaves the STANDALONE mode and its one namespace. -/
theorem sanitizeEnd_of_reached : getF (sanitizeEnd true s) F.TOP_MODE_CAUSE_SANITIZING = 0 ∧
    getF (sanitizeEnd true s) F.TOP_MODE_BASE = modeStandalone ∧ (sanitizeEnd true s).top.sanStat = 1 ∧
    (sanitizeEnd true s).host.ns = (standaloneNs (invalidateAll (fun _ => true)
      ((tileNs s 0).foldl (fun t p => deleteNs p.1 t) s))).host.ns := by
  unfold sanitizeEnd
  rw [if_neg (by simp [hs, h2, he, hr]), if_neg (by decide)]
  dsimp only
  generalize standaloneNs (invalidateAll _ _) = w
  have base := getF_setF_same F.TOP_MODE_BASE modeStandalone w (by unfold Fld.ok; decide)
  have hostw : (setF F.TOP_MODE_BASE modeStandalone w).host = w.host := setF_host ..
  generalize setF F.TOP_MODE_BASE modeStandalone w = v at base hostw
  generalize hb : ({ v with top := { v.top with sanStat := 1 } } : State) = b
  have hregs : b.regs = v.regs := hb ▸ rfl
  have htop : b.top.sanStat = 1 := hb ▸ rfl
  have hhost : b.host = v.host := hb ▸ rfl
  refine ⟨getF_setF_same _ _ _ (by unfold Fld.ok; decide), ?_, ?_, ?_⟩
  · rw [getF_setF_ne _ _ _ _ (by decide), getF_congr _ hregs, base]
    rfl
  · rw [setF_top, htop]
  · rw [setF_host, hhost, hostw]

end

theorem sanitizeEnd_of_early {ok : Bool} (hno : isSet s F.TOP_MODE_CAUSE_SANITIZING = false ∨ s.top.sanStat ≠ 2 ∨
    allErased s = false ∨ running s = false) : sanitizeEnd ok s = s :=
  if_pos (by simpa only [Bool.not_eq_true', Bool.eq_false_iff] using hno)

/-- Settles O28: a commit is met at its place in the table, a mode by its outcome, and a Sanitize's end by its two halves. -/
theorem firmwareAndModesAreRequested : Obligations.FirmwareAndModesAreRequested := by
  unfold Obligations.FirmwareAndModesAreRequested
  refine ⟨fun s u h => ⟨?download, ?commit, ?stored, ?idle⟩, fun s u h => ⟨?mode, ?sanitize, ?done, ?early⟩⟩
  case download =>
    intro off len d hrun
    have run := completes_of_adminRuns hrun (c := .firmwareImageDownload h off len d) (by rintro _ ⟨⟩; rfl)
    refine ⟨fun hbad => ?_, fun h0 hal hfit => ⟨fun hoff => ?_, fun hoff hfn hapart => ?_⟩⟩
    · rwa [stagePiece_of_bad hbad] at run
    · rw [stagePiece_of_first h0 hal hfit hoff] at run
      exact ⟨_, run, answeredWith_answer (by rfl) .., rfl, .answer (.sec (.refl _ u)) ..⟩
    · rw [stagePiece_of_next h0 hal hfit hoff hfn hapart] at run
      exact ⟨_, run, answeredWith_answer (by rfl) .., rfl, .answer (.sec (.refl _ u)) ..⟩
  case commit =>
    intro c action fs img hc hrun
    have run := completes_of_fwCommit hrun hc
    have h4 : action < 4 := by omega
    unfold fwWork at run
    generalize hx : ({ cmd := some u.host.nextCmd, tag := 0, action := action, fs := fs, img := img } : FwCommit) = x at run
    have hcmd : x.cmd = some u.host.nextCmd := hx ▸ rfl
    refine ⟨fun hbusy => ?_, fun hcommit hact hl => ?_⟩
    · rw [commitStart_of_busy (y := fwPlaced h u) hbusy] at run
      obtain ⟨answered, hsec, hparts⟩ := commitEnd_placed (sts := stSequence) hcmd rfl (changesOnly_fwPlaced h u)
      generalize commitEnd x stSequence (fwPlaced h u) = z at run answered hsec hparts
      have kept : ({ z.sec with commit := u.sec.commit } : SecSt) = u.sec := by rw [hsec]; rfl
      refine ⟨_, run, answered, kept, changesOnly.of_same (p := .sec) ?_ kept⟩
      exact changesOnly.mono (ps := [.host, .sec]) (.sec hparts) (by decide)
    · have noSlot := commitStart_of_noSlot (x := x) (y := fwPlaced h u) hcommit hact hl (hx ▸ h4)
      have starts := fun g => commitStart_of_image (x := x) (y := fwPlaced h u) (img := g) hcommit hact hl (hx ▸ h4)
      have target : fwTarget (fwPlaced h u) x.fs = fwTarget u fs := hx ▸ fwTarget_congr rfl fs
      have active : getF (fwPlaced h u) F.SEC_STATUS_ACTIVE_SLOT = getF u F.SEC_STATUS_ACTIVE_SLOT := getF_congr _
      have haction : x.action = action := hx ▸ rfl
      have himg : x.img = img := hx ▸ rfl
      rw [target, active, haction] at noSlot
      simp only [target, active, haction, himg] at starts
      refine ⟨fun hslot => ?_, fun hslot hnot hfree hstaged hok => ?_, fun i hslot htwo hslotImg hok hmode hhit => ?_⟩
      · obtain ⟨answered, -, hparts⟩ := commitEnd_placed (sts := stFwSlot) hcmd rfl (changesOnly_fwPlaced h u)
        rw [noSlot hslot] at run
        exact ⟨_, run, answered, hparts⟩
      · have hfits : ¬ (2 < fwTarget u fs ∨ action ≠ 2 ∧ fwTarget u fs = getF u F.SEC_STATUS_ACTIVE_SLOT) := by
          omega
        have hstaged' : ¬ (fwPlaced h u).sec.staging = [] := hstaged
        rw [starts img hfits (by rw [if_neg hnot, if_neg hstaged']) ((imageFail_congr rfl img).trans hok), if_neg hnot] at run
        have placed := getCmd_fwPlaced h u
        refine ⟨_, run, congrArg Cmd.h placed, congrArg Cmd.st placed, ?_, .sec (changesOnly_fwPlaced h u)⟩
        rw [← hx]
        rfl
      · have hfits : ¬ (2 < fwTarget u fs ∨ action ≠ 2 ∧ fwTarget u fs = getF u F.SEC_STATUS_ACTIVE_SLOT) := by
          omega
        rw [starts i hfits (by rw [if_pos htwo]; exact hslotImg) ((imageFail_congr rfl i).trans hok), if_pos htwo,
          activateOnReset_of_hitless hhit] at run
        have ends := commitEnd_placed (h := h) (sts := stOk) (x := { x with fs := fwTarget u fs, img := i })
          (y := { fwPlaced h u with sec := { (fwPlaced h u).sec with onReset := some (fwTarget u fs) } }) hcmd rfl
          (.sec (changesOnly_fwPlaced h u))
        obtain ⟨answered, hsec, hparts⟩ := ends
        refine ⟨_, run, answered, hsec.trans ?_, hparts⟩
        rw [← hcommit]
        rfl
  case stored =>
    intro x hx hl
    refine ⟨fun h0 => ⟨_, congrArg Host.Outcome.next (fwStored_of_stored hx hl h0), ?_⟩, fun h3 hm hh =>
      ⟨_, congrArg Host.Outcome.next (fwStored_of_activated hx hl h3 hm hh), ?_⟩⟩
    · obtain ⟨hslot, hcommit, hready⟩ := commitEnd_stored x s
      exact ⟨congrArg FwSlot.img hslot, congrArg FwSlot.failed hslot, hcommit, hready⟩
    · refine ⟨?_, getF_setF_same _ _ _ (by unfold Fld.ok; decide), rfl⟩
      rw [getSlotFw_beginAct, getSlotFw_setSlotFw]
  case idle =>
    intro hnone
    exact congrArg Host.Outcome.next (by unfold fwStored; rw [hnone])
  case mode =>
    intro m hrun
    refine ⟨fun hnow => ?_, fun hz hs => ?_, fun he hnow => ?_, fun hnow hbase hne hhost hsp hws => ?_, fun hne hno => ?_⟩
    · exact completes_of_mode hrun (if_pos hnow)
    · have out := modeOutcome_of_zoned hz hs
      exact ⟨_, completes_of_mode hrun out, answer_setF F.TOP_MODE_BASE modeZoned (by unfold Fld.ok; decide)⟩
    · have out := modeOutcome_of_evacuate he hnow
      exact ⟨_, completes_of_mode hrun out, answer_setF F.TOP_MODE_CAUSE_EVAC_HOST 1 (by unfold Fld.ok; decide)⟩
    · have out := modeOutcome_of_left hnow hbase hne hhost hsp hws
      exact ⟨_, completes_of_mode hrun out, answer_setF F.TOP_MODE_CAUSE_EVAC_HOST 0 (by unfold Fld.ok; decide)⟩
    · have run := completes_of_modeRefused hrun (modeOutcome_of_refused hne hno)
      have seat : (modeRefused u).host.nextCmd = u.host.nextCmd := congrArg HostSt.nextCmd (happen_host ..)
      have hraised : raised baseTop 6 (modeRefused u) = true := raised_happen _ _ _ (by decide) (by decide) (by decide) (by decide)
      have hparts : changesOnly (.host :: eventParts) u (modeRefused u) := .happen (.refl _ u) baseTop 6
      generalize modeRefused u = y at run seat hraised hparts
      exact ⟨_, run, answeredWith_answer seat .., hraised, hparts.answer ..⟩
  case sanitize =>
    intro act hrun hfn
    have run := completes_of_adminRuns hrun (c := .sanitize h act) (by rintro _ ⟨⟩; rfl)
    rw [if_neg (by simp [hfn])] at run
    refine ⟨fun hact => ?_, fun hact hbusy => ?_, fun hact hfree => ?_⟩
    · rwa [if_pos hact] at run
    · rw [if_neg (by simp [hact]), if_pos (anyTileHeld_iff.mpr hbusy)] at run
      exact run
    · rw [if_neg (by simp [hact]), if_neg fun hany => ?_] at run
      · have hset := getF_setF_same F.TOP_MODE_CAUSE_SANITIZING 1 (eraseAll u) (by unfold Fld.ok; decide)
        unfold setCause at run
        generalize setF F.TOP_MODE_CAUSE_SANITIZING 1 (eraseAll u) = y at run hset
        exact ⟨_, run, (getF_congr _).trans hset, rfl⟩
      · obtain ⟨k, h1, h64, hk⟩ := anyTileHeld_iff.mp hany
        exact hk (hfree k h1 h64)
  case done =>
    intro hs h2 he hr
    obtain ⟨hcause, hbase, hstat, hns⟩ := sanitizeEnd_of_reached hs h2 he hr
    refine ⟨⟨_, rfl, hcause, hbase, hstat, ?_⟩, congrArg Host.Outcome.next (sanitizeEnd_of_failed hs h2 he hr)⟩
    rw [show getNs (sanitizeEnd true s) 1 = _ from congrArg (tget nsD · 1) hns,
      ← (top_deleteAll (tileNs s 0) s), ← top_invalidateAll fun _ => true]
    exact getNs_standaloneNs _
  case early => exact fun ok hno => congrArg Host.Outcome.next (sanitizeEnd_of_early hno)

end Sys2Proof.Machine
end

/-! ## Reads and writes enter the table (R20 to R22, R99, R101, R137, R222, R236, R238, R318, R319, R331, R333) -/

section

-- One proof after another: elaborated side by side, the proofs of this text take more memory than its check allows.
set_option Elab.async false

namespace Sys2Proof.Machine

variable {s t u y : State} {h : CmdHead} {c : Instr} {i : Nat}

/-- An I/O command is served, and its queue has given it up. -/
structure IoServed (h : CmdHead) (reads : Bool) (s u : State) : Prop where
  taken : takeCmd h s = some u
  own : nsOk s h = true
  noError : dweDue s h.nsid = false
  notSanitize : modeNow s ≠ modeSanitize
  notRecovery : modeNow s ≠ modeRecovery
  evacuate : modeNow s = modeEvacuate → reads = true

theorem IoServed.run {reads : Bool} (hs : IoServed h reads s u) (kind : CmdKind) (f : State → State) :
    ioCmd h kind reads f s = f u :=
  ioCmd_of_served hs.taken hs.notSanitize hs.notRecovery hs.own hs.noError hs.evacuate

theorem ioServed_of_ioRuns {kind : CmdKind} {reads : Bool} (hrun : ioRuns s c u) (hrow : ioRow c = some (h, kind, reads)) :
    IoServed h reads s u ∧ ∀ l, lookupRow c = some l → mapReady s h.nsid l.2.1 l.2.2 = true := by
  obtain ⟨h', kind', reads', hrow', htake, hns, hd, hs, hr, he, hl⟩ := hrun
  obtain ⟨rfl, rfl, rfl⟩ : _ ∧ _ ∧ _ := by simpa only [Option.some.injEq, Prod.mk.injEq] using hrow.symm.trans hrow'
  exact ⟨⟨htake, hns, hd, hs, hr, he⟩, hl⟩

/-- An I/O command that runs completes with its own work on the state after its fetch. -/
theorem completes_of_ioRuns {kind : CmdKind} {reads : Bool} {f : State → State} (hrun : ioRuns s c u)
    (hrow : ioRow c = some (h, kind, reads)) (hx : exec c s = .next (lookedUp c (ioCmd h kind reads f) s)) :
    completes c s (f u) := by
  obtain ⟨hs, hl⟩ := ioServed_of_ioRuns hrun hrow
  refine hx.trans (congrArg _ ((lookedUp_of_present _ fun l hlook => ?_).trans (hs.run kind f)))
  exact lookupRow_head hrow hlook ▸ hl l hlook

/-! ### Writes -/

theorem changesOnly_oncePerFrame (key base i : Nat) (s : State) (hb : base % 0x1000 = 0 := by decide)
    (hs : srcOf base i < 256 := by decide) : changesOnly (.beat :: eventParts) s (oncePerFrame key (happen base i) s) := by
  rcases oncePerFrame_cases key (happen base i) s with ⟨-, e⟩ | ⟨-, e⟩
  · rw [e]
    exact .refl _ s
  · rw [e]
    exact .happen (.beat (.refl _ s)) base i (by decide) hb hs

/-- Queueing a search marks the command, and else counts. -/
theorem changesOnly_queueSearch (i : Nat) (s : State) :
    changesOnly (.beat :: eventParts) (setCmd i { getCmd s i with searched := false } s) (queueSearch i s) := by
  unfold queueSearch
  dsimp only
  generalize setCmd i { getCmd s i with searched := false } s = v
  have peak : ∀ n, changesOnly (.beat :: eventParts) v (maxF F.SORT_QUEUE_PEAK_DEPTH n v) := fun n => .maxF (.refl _ v) _ _
  exact .ite ((peak _).trans (changesOnly_oncePerFrame ..)) (peak _)

theorem notConventional {kind : CmdKind} (hz : kind = .append → (getNs u h.nsid).zoned = true) :
    ¬ (kind = .append ∧ (!(getNs u h.nsid).zoned) = true) := by
  rintro ⟨hk, e⟩
  rw [hz hk] at e
  exact absurd e (by decide)

section

variable {kind : CmdKind} {slba nlb : Nat} {hints : Hints} (hs : IoServed h false s u)
include hs

theorem writeCmd_of_conventional (hk : kind = .append) (hz : (getNs u h.nsid).zoned = false) :
    writeCmd kind h slba nlb hints s = answer h kind stOpcode 0 [] u := by
  unfold writeCmd
  rw [hs.run, if_pos ⟨hk, by simp [hz]⟩]

variable (hz : kind = .append → (getNs u h.nsid).zoned = true)
include hz

theorem writeCmd_of_refused {sts : Sts} (href : writeRefusal u h slba nlb = some sts) :
    writeCmd kind h slba nlb hints s = answer h kind sts 0 [] u := by
  unfold writeCmd
  rw [hs.run, if_neg (notConventional hz), href]

/-- A write that its checks let through is placed and queued for its matcher search. -/
theorem writeCmd_of_taken (href : writeRefusal u h slba nlb = none) :
    ∃ v, v.host.nextCmd = u.host.nextCmd ∧ v.map = u.map ∧
      writeCmd kind h slba nlb hints s = queueSearch u.host.nextCmd (setCmd u.host.nextCmd
        { cmdOf h kind v with slba := slba, nlb := nlb, hints := hints, wall := defaultWall u h.nsid hints }
        { v with host := { v.host with nextCmd := (u.host.nextCmd + 1) % 262144 } }) := by
  unfold writeCmd
  rw [hs.run, if_neg (notConventional hz), href]
  dsimp only [allocCmd]
  split
  · have noted : ∀ k n, (fdpNote (tileOf u h) k n 0 u).host.nextCmd = u.host.nextCmd ∧ (fdpNote (tileOf u h) k n 0 u).map = u.map := by
      intro k n
      unfold fdpNote
      split <;> exact ⟨rfl, rfl⟩
    obtain ⟨hn, hm⟩ := noted fdpInvalid hints.dspec
    exact ⟨_, hn, hm, by rw [hn]⟩
  · exact ⟨u, rfl, rfl, rfl⟩

end

/-- The rows of the writes are one operation. -/
theorem exec_writeRow {kind : CmdKind} {slba nlb : Nat} {hints : Hints}
    (hc : c = .write h slba nlb hints ∧ kind = .write ∨ c = .writeZeroes h slba nlb hints ∧ kind = .writeZeroes ∨
      c = .zoneAppend h slba nlb hints ∧ kind = .append) :
    ioRow c = some (h, kind, false) ∧ exec c s = .next (writeCmd kind h slba nlb hints s) := by
  rcases hc with ⟨rfl, rfl⟩ | ⟨rfl, rfl⟩ | ⟨rfl, rfl⟩ <;> exact ⟨rfl, rfl⟩

/-- Settles O30: the refusals are `writeRefusal`'s cases, and a write let through is placed and queued. -/
theorem writesEnterTheTable : Obligations.WritesEnterTheTable := by
  unfold Obligations.WritesEnterTheTable
  intro s u c h slba nlb hints kind hc hrun
  obtain ⟨hrow, hexec⟩ := exec_writeRow (s := s) hc
  obtain ⟨hs, -⟩ := ioServed_of_ioRuns hrun hrow
  refine ⟨fun hk hz => ?conventional, fun hz => ⟨fun hn => ?noBlocks, fun h1 h512 => ⟨fun hr => ?beyond, fun hr =>
    ⟨fun hw => ?noEngine, fun hw href => ?taken⟩⟩⟩⟩
  case conventional => exact hexec.trans (congrArg _ (writeCmd_of_conventional hs hk hz))
  case noBlocks => exact hexec.trans (congrArg _ (writeCmd_of_refused hs hz (if_pos hn)))
  case beyond =>
    refine hexec.trans (congrArg _ (writeCmd_of_refused hs hz ?_))
    unfold writeRefusal
    rw [if_neg (by omega), if_pos hr]
  case noEngine =>
    refine hexec.trans (congrArg _ (writeCmd_of_refused hs hz ?_))
    unfold writeRefusal
    rw [if_neg (by omega), if_neg (by omega), if_pos (by simp [hw])]
  case taken =>
    obtain ⟨v, -, hmap, heq⟩ := writeCmd_of_taken (hints := hints) hs hz href
    refine ⟨_, hexec.trans (congrArg _ heq), ?_⟩
    generalize hy : setCmd u.host.nextCmd _ _ = y
    have parts := changesOnly_queueSearch u.host.nextCmd y
    have placed := (getCmd_congr parts.host_eq u.host.nextCmd).trans (getCmd_setCmd ..)
    rw [← hy, getCmd_setCmd, hy] at placed
    rw [placed, parts.map_eq]
    exact ⟨rfl, rfl, rfl, rfl, rfl, rfl, rfl, hy ▸ hmap⟩

/-! ### Where a block stands -/

theorem placeFrom_congr (hm : t.map = s.map) (b n : Nat) (e : Ent) : placeFrom t b n e = placeFrom s b n e := by
  have slot : ∀ k, getSlot t k = getSlot s k := fun k => by rw [getSlot, getSlot, hm]
  induction n generalizing e with
  | zero => rfl
  | succ n ih =>
    unfold placeFrom
    simp only [slot, ih]

/-- What stands where is a matter of the map, the namespaces and the geometry. -/
theorem placeOf_congr (hm : t.map = s.map) (hr : t.regs = s.regs) (hn : t.host.ns = s.host.ns) (n lba : Nat) :
    placeOf t n lba = placeOf s n lba := by
  have size : zsze t = zsze s := by unfold zsze zcapOf planes width; simp only [getF_congr (s := s) (t := t) _ hr]
  have ns : getNs t n = getNs s n := by rw [getNs, getNs, hn]
  have ent : entOf t n lba = entOf s n lba := by
    unfold entOf muOf zcapOf planes width getEnt getLine
    simp only [ns, size, hm, getF_congr (s := s) (t := t) _ hr]
  have zone : ∀ z, getZone t n z = getZone s n z := fun z => by rw [getZone, getZone, hm]
  rw [placeOf, placeOf, ent, size, ns, zone, placeFrom_congr hm]

/-! ### Reads -/

section

variable {x : Cmd} {lba slot : Nat}

theorem getCmd_allocCmd (x : Cmd) (u : State) : getCmd (allocCmd x u).2 u.host.nextCmd = x := getCmd_setCmd ..

theorem hasCmd_setCmd (hx : x.kind ≠ cmd0.kind) (i : Nat) (s : State) : hasCmd (setCmd i x s) i = true :=
  any_tset_same fun e => hx (congrArg Cmd.kind e)

theorem hasCmd_allocCmd (hx : x.kind ≠ cmd0.kind) (u : State) : hasCmd (allocCmd x u).2 u.host.nextCmd = true :=
  hasCmd_setCmd hx ..

theorem placeOf_allocCmd (x : Cmd) (u : State) (n lba : Nat) : placeOf (allocCmd x u).2 n lba = placeOf u n lba :=
  placeOf_congr rfl rfl rfl n lba

theorem removeNat_self (n : Nat) : removeNat n [n] = [] := by simp [removeNat]

/-- A block that fails is the first one noted of its command. -/
theorem blockDone_of_bad {sts : Sts} (hhas : hasCmd s i = true) (hfail : (getCmd s i).failLba = none) :
    blockDone i lba (some sts) s = setCmd i { getCmd s i with
      left := removeNat lba (getCmd s i).left, status := sts, failLba := some lba } s := by
  unfold blockDone
  simp only [hhas, hfail]
  rfl

theorem startBlock_of_unmapped (hp : placeOf s (getCmd s i).h.nsid lba = .unmapped) (hg : grouting s = false) :
    startBlock i .host slot lba s = blockDone i lba none (emit (.block (getCmd s i).h.fn (getCmd s i).h.cid lba 0
      (deallocMeta s (getCmd s i).h.nsid)) (setCmd i { getCmd s i with st := .working } s)) := by
  unfold startBlock
  simp only [hp]
  exact congrArg _ (if_neg (by rw [show grouting (setCmd i _ s) = grouting s from rfl, hg]; decide))

theorem startBlock_of_lost (hp : placeOf s (getCmd s i).h.nsid lba = .lost) :
    startBlock i .host slot lba s = blockDone i lba (some stUnrecovered) s := by
  unfold startBlock
  simp only [hp]

/-- The read that a block in the yard begins is decoded, and pins its slot. -/
theorem startBlock_of_slot {k : Nat} {e : Ent} (hp : placeOf s (getCmd s i).h.nsid lba = .slot k e)
    (he : erasedAt s (tileOf s (getCmd s i).h) e = false) :
    (getRd (startBlock i .host slot lba s) s.map.nextRd).st = .decoded ∧
      (getRd (startBlock i .host slot lba s) s.map.nextRd).blk = slotBlk (getSlot s k) (lba % 16) ∧
      s.map.nextRd ∈ (getSlot (startBlock i .host slot lba s) k).pins := by
  unfold startBlock
  simp only [hp, he, Bool.false_eq_true, false_and, if_false, getSlot_setSlot]
  have kept : ∀ v w, getRd (setSlot k v w) s.map.nextRd = getRd w s.map.nextRd := fun _ _ => rfl
  rw [kept, newRd, getRd_setRd]
  exact ⟨rfl, rfl, List.mem_append_right _ (List.mem_singleton.mpr rfl)⟩

/-- The read that a block on flash begins waits for its die. -/
theorem startBlock_of_flash {e : Ent} (hp : placeOf s (getCmd s i).h.nsid lba = .flash e)
    (he : erasedAt s (tileOf s (getCmd s i).h) e = false) (hl : lunLost s (entCh e) (entLun e) = false) :
    ∃ r : Rd, startBlock i .host slot lba s = setRd s.map.nextRd r { s with map := { s.map with nextRd := s.map.nextRd + 1 } } ∧
      r.cmd = i ∧ r.st = .waiting ∧ r.entry = e ∧ r.lba = lba := by
  unfold startBlock
  simp only [hp, he, hl, Bool.false_eq_true, false_and, if_false]
  exact ⟨_, rfl, rfl, rfl, rfl, rfl⟩

end

/-- The command that a read of one block puts into the table. -/
def readOf (h : CmdHead) (slba : Nat) (hints : Hints) (u : State) : Cmd :=
  { cmdOf h .read u with slba := slba, nlb := 1, hints := hints, left := [slba] }

theorem out_emit (o : Out) (s : State) : (emit o s).out = o :: s.out := rfl

theorem startBlocks_of_one {i slba slot : Nat} {kind : RdKind} (hl : (getCmd y i).left = [slba]) :
    startBlocks i kind slot y = startBlock i kind slot slba y := by
  unfold startBlocks
  rw [hl]
  rfl

/-- What a read of one block without a search begins from its place in the table. -/
theorem completes_read {slba slot : Nat} {hints : Hints} (hrun : ioRuns s (.read h slba 1 hints slot) u)
    (href : readRefusal u h slba 1 512 = none) (hd : hints.dsm = 0) :
    completes (.read h slba 1 hints slot) s
      (startBlock u.host.nextCmd .host slot slba (allocCmd (readOf h slba hints u) u).2) := by
  have run := completes_of_ioRuns hrun (c := .read h slba 1 hints slot) rfl rfl
  rw [href] at run
  dsimp only at run
  rw [if_neg (fun e => e.1 hd)] at run
  have left : (getCmd (allocCmd (readOf h slba hints u) u).2 u.host.nextCmd).left = [slba] := congrArg Cmd.left (getCmd_allocCmd ..)
  exact run.trans (congrArg _ (startBlocks_of_one left))

section

variable {x : Cmd} {slba : Nat} (hl : x.left = [slba]) (hs : x.st = .fetched) (hp : placeOf u x.h.nsid slba = .unmapped)
include hl hs hp

/-- A Verify of one block that has no data is answered at once. -/
theorem verify_of_unmapped (hk : x.kind = .verify) (hstatus : x.status = stOk) (hfail : x.failLba = none) :
    answeredWith x.h stOk u (endIfDone u.host.nextCmd (startBlocks u.host.nextCmd .verify 0 (allocCmd x u).2)) ∧
      changesOnly [.host] u (endIfDone u.host.nextCmd (startBlocks u.host.nextCmd .verify 0 (allocCmd x u).2)) := by
  have placed := getCmd_allocCmd x u
  have place := placeOf_allocCmd x u x.h.nsid slba
  have has := hasCmd_allocCmd (x := x) (by rw [hk]; decide) u
  have parts : changesOnly [.host] u (allocCmd x u).2 := .host (.refl _ u)
  have next : (allocCmd x u).2.host.nextCmd = (u.host.nextCmd + 1) % 262144 := rfl
  generalize (allocCmd x u).2 = y at placed place has parts next
  have looked : startBlock u.host.nextCmd .verify 0 slba y = setCmd u.host.nextCmd { x with left := [] } y := by
    unfold startBlock
    simp only [placed, place, hp]
    rw [blockDone_of_hasCmd has, placed, hl, removeNat_self]
  have hasz := hasCmd_setCmd (x := { x with left := [] }) (by rw [hk]; decide) u.host.nextCmd y
  have cmdz := getCmd_setCmd u.host.nextCmd { x with left := [] } y
  have ended : endIfDone u.host.nextCmd (setCmd u.host.nextCmd { x with left := [] } y) =
      ready u.host.nextCmd stOk x.dw0 x.data (setCmd u.host.nextCmd { x with left := [] } y) := by
    unfold endIfDone
    rw [cmdz]
    dsimp only
    rw [if_pos ⟨hasz, rfl, by rw [hs]; decide⟩, hk, hfail, hstatus]
    rfl
  rw [startBlocks_of_one (by rw [placed, hl]), looked, ended]
  refine ⟨?_, .host (.host parts)⟩
  unfold answeredWith ready
  rw [getCmd_setCmd, cmdz]
  exact ⟨rfl, rfl, rfl, next⟩

/-- Read Tags of one block that has no data answers with an entry that says so. -/
theorem tags_of_unmapped (hk : x.kind = .readTags) (hstatus : x.status = stOk) (hslba : x.slba = slba) (hnlb : x.nlb = 1) :
    answeredWith x.h stOk u (endIfDone u.host.nextCmd (startBlocks u.host.nextCmd .tags 0 (allocCmd x u).2)) ∧
      (getCmd (endIfDone u.host.nextCmd (startBlocks u.host.nextCmd .tags 0 (allocCmd x u).2)) u.host.nextCmd).data =
        tagBytes { tagRes0 with res := 3, mapB := mapByte (entOf u x.h.nsid slba) } ∧
      changesOnly [.host] u (endIfDone u.host.nextCmd (startBlocks u.host.nextCmd .tags 0 (allocCmd x u).2)) := by
  have placed := getCmd_allocCmd x u
  have place := placeOf_allocCmd x u x.h.nsid slba
  have has := hasCmd_allocCmd (x := x) (by rw [hk]; decide) u
  have ent : entOf (allocCmd x u).2 x.h.nsid slba = entOf u x.h.nsid slba := rfl
  have parts : changesOnly [.host] u (allocCmd x u).2 := .host (.refl _ u)
  have next : (allocCmd x u).2.host.nextCmd = (u.host.nextCmd + 1) % 262144 := rfl
  generalize (allocCmd x u).2 = y at placed place has ent parts next
  generalize htag : ({ tagRes0 with res := 3, mapB := mapByte (entOf u x.h.nsid slba) } : TagRes) = tag
  generalize hc : ({ x with tags := tset tagResD slba tag x.tags, left := [] } : Cmd) = c
  have looked : startBlock u.host.nextCmd .tags 0 slba y = setCmd u.host.nextCmd c y := by
    unfold startBlock noteTag
    simp only [placed, place, hp, ent, htag, hl, removeNat_self, has, if_true, hc]
  have hasz := hasCmd_setCmd (x := c) (by rw [← hc, hk]; decide) u.host.nextCmd y
  have cmdz := getCmd_setCmd u.host.nextCmd c y
  have bytes : tagsBytes c = tagBytes tag := by
    unfold tagsBytes
    rw [← hc]
    simp only [hnlb, hslba, List.range_one, List.flatMap_cons, List.flatMap_nil, List.append_nil, Nat.add_zero, tget_tset_same]
  have ended : endIfDone u.host.nextCmd (setCmd u.host.nextCmd c y) =
      ready u.host.nextCmd stOk 0 (tagBytes tag) (setCmd u.host.nextCmd c y) := by
    have kind : c.kind = .readTags := hc ▸ hk
    have status : c.status = stOk := hc ▸ hstatus
    unfold endIfDone
    rw [cmdz]
    dsimp only
    rw [if_pos ⟨hasz, by rw [← hc], by rw [← hc, hs]; decide⟩, kind, status, ← bytes]
    rfl
  rw [startBlocks_of_one (by rw [placed, hl]), looked, ended]
  refine ⟨?_, ?_, .host (.host parts)⟩
  · unfold answeredWith ready
    rw [getCmd_setCmd, cmdz]
    exact ⟨by rw [← hc], rfl, rfl, next⟩
  · rw [ready, getCmd_setCmd]

end

/-- Settles O31: each read's one block is looked up from the command's place in the table. -/
theorem readsLookTheirBlocksUp : Obligations.ReadsLookTheirBlocksUp := by
  unfold Obligations.ReadsLookTheirBlocksUp
  intro s u h slba
  refine ⟨?read, ?readRefused, ?verifyRefused, ?verify, ?tagsRefused, ?tags⟩
  case read =>
    intro hints slot hrun href hd hg
    have run := completes_read hrun href hd
    have placed := getCmd_allocCmd (readOf h slba hints u) u
    have place := placeOf_allocCmd (readOf h slba hints u) u h.nsid slba
    have has := hasCmd_allocCmd (x := readOf h slba hints u) (show CmdKind.read ≠ _ by decide) u
    have parts : changesOnly [.host] u (allocCmd (readOf h slba hints u) u).2 := .host (.refl _ u)
    have sameNs : (allocCmd (readOf h slba hints u) u).2.host.ns = u.host.ns := rfl
    generalize (allocCmd (readOf h slba hints u) u).2 = y at run placed place has parts sameNs
    have erased : ∀ e, erasedAt y (tileOf y h) e = erasedAt u (tileOf u h) e := fun e => by
      have tile : tileOf y h = tileOf u h := by rw [tileOf, tileOf, getNs, getNs, sameNs]
      have key : ∀ k, keyState y k = keyState u k := fun _ => getF_congr _ parts.regs_eq
      rw [erasedAt, erasedAt, tile, key]
    have lost : ∀ e, lunLost y (entCh e) (entLun e) = lunLost u (entCh e) (entLun e) := fun e => by
      unfold lunLost isSet
      simp only [getF_congr (s := u) (t := y) _ parts.regs_eq]
    have head : (getCmd y u.host.nextCmd).h = h := by rw [placed]; rfl
    have left : (getCmd y u.host.nextCmd).left = [slba] := by rw [placed]; rfl
    refine ⟨fun hp => ?unmapped, fun hp => ?lost, fun e hp he hl => ?flash, fun k e hp he => ?yard⟩
    case unmapped =>
      rw [startBlock_of_unmapped (by rw [head, place, hp]) ((congrArg (fun g : GroutSt => g.beat.isSome) parts.grout_eq).trans hg),
        head] at run
      generalize hw : setCmd u.host.nextCmd { getCmd y u.host.nextCmd with st := .working } y = w at run
      have working : getCmd w u.host.nextCmd = { getCmd y u.host.nextCmd with st := .working } := hw ▸ getCmd_setCmd ..
      have hasw : hasCmd w u.host.nextCmd = true := hw ▸ hasCmd_setCmd (by rw [placed]; exact show CmdKind.read ≠ _ by decide) ..
      have hmeta : deallocMeta y h.nsid = deallocMeta u h.nsid := by
        rw [deallocMeta, deallocMeta, getNs, getNs, sameNs]
      have out : w.out = u.out := (hw ▸ setCmd_out ..).trans parts.out_eq
      rw [blockDone_of_hasCmd (show hasCmd (emit _ w) _ = true from hasw),
        show getCmd (emit _ w) u.host.nextCmd = getCmd w u.host.nextCmd from rfl, working] at run
      refine ⟨_, run, ?_, ?_, ?_⟩
      · rw [getCmd_setCmd, left]
        exact removeNat_self slba
      · rw [getCmd_setCmd, placed]
        rfl
      · rw [setCmd_out, out_emit, out, hmeta]
    case lost =>
      rw [startBlock_of_lost (by rw [head, place, hp]), blockDone_of_bad has (by rw [placed]; rfl), left, removeNat_self] at run
      exact ⟨_, run, by rw [getCmd_setCmd], by rw [getCmd_setCmd], by rw [getCmd_setCmd], parts.out_eq⟩
    case flash =>
      obtain ⟨r, heq, hcmd, hst, hentry, hlba⟩ := startBlock_of_flash (i := u.host.nextCmd) (slot := slot)
        (by rw [head, place, hp]) (by rw [head, erased]; exact he) (by rw [lost]; exact hl)
      rw [heq, parts.map_eq] at run
      refine ⟨_, run, left, parts.out_eq, ?_⟩
      rw [getRd_setRd]
      exact ⟨hcmd, hst, hentry, hlba⟩
    case yard =>
      obtain ⟨hst, hblk, hpin⟩ := startBlock_of_slot (i := u.host.nextCmd) (slot := slot) (s := y) (lba := slba)
        (by rw [head, place, hp]) (by rw [head, erased]; exact he)
      rw [parts.map_eq] at hst hblk hpin
      refine ⟨_, run, hst, hblk.trans ?_, hpin⟩
      rw [getSlot, getSlot, parts.map_eq]
  case readRefused =>
    intro nlb hints slot st hrun href
    have run := completes_of_ioRuns hrun (c := .read h slba nlb hints slot) rfl rfl
    rwa [href] at run
  case verifyRefused =>
    intro nlb st hrun href
    have run := completes_of_ioRuns hrun (c := .verify h slba nlb) rfl rfl
    rwa [href] at run
  case tagsRefused =>
    intro n st hrun href
    have run := completes_of_ioRuns hrun (c := .readTags h slba n) rfl rfl
    rwa [href] at run
  case verify =>
    intro hrun href hp
    have run := completes_of_ioRuns hrun (c := .verify h slba 1) rfl rfl
    rw [href] at run
    exact ⟨_, run, verify_of_unmapped (x := { cmdOf h .verify u with slba := slba, nlb := 1, left := lbas slba 1 })
      rfl rfl hp rfl rfl rfl⟩
  case tags =>
    intro hrun href hp
    have run := completes_of_ioRuns hrun (c := .readTags h slba 0) rfl rfl
    rw [href] at run
    exact ⟨_, run, tags_of_unmapped (x := { cmdOf h .readTags u with slba := slba, nlb := 0 + 1, left := lbas slba (0 + 1) })
      rfl rfl hp rfl rfl rfl rfl⟩

end Sys2Proof.Machine
end

/-! ## Seals (R155, R325 to R328) -/

section

-- One proof after another: elaborated side by side, the proofs of this text take more memory than its check allows.
set_option Elab.async false

namespace Sys2Proof.Machine

variable {s t u : State} {nsid z ep : Nat}

/-! ### Stacks catch up -/

theorem recs_foldLeaves (m n z : Nat) (s : State) : (foldLeaves m n z s).mac.recs = s.mac.recs := by
  induction m generalizing s with
  | zero => rfl
  | succ m ih =>
    unfold foldLeaves
    dsimp only
    split
    · split
      · exact ih _
      · rfl
    · rfl

theorem recs_catchUp (n z : Nat) (s : State) : (catchUp n z s).mac.recs = s.mac.recs := by
  unfold catchUp
  dsimp only
  split <;> exact recs_foldLeaves ..

theorem getZone_catchUp (n z : Nat) (s : State) (n' z' : Nat) : getZone (catchUp n z s) n' z' = getZone s n' z' := by
  rw [getZone, (changesOnly_catchUp n z s).map_eq, getZone]

/-! ### A zone is sealed -/

/-- The record of a zone whose stack has every leaf. -/
def sealRec (s : State) (nsid z : Nat) : ZRec :=
  { tile := (getNs s nsid).tile, part := decide ((getZone s nsid z).wp < (getZone s nsid z).cap), nsid := nsid
    zslba := z * zsze s, blocks := (getZone s nsid z).wp, beat := beatNow s
    root := stackRoot (getStack (catchUp nsid z s) (zKey nsid z)) }

/-- The zone as its sealing leaves it. -/
def sealZone (s : State) (nsid z : Nat) : Zone :=
  { getZone s nsid z with
    reported := .full, zdev := true, root := stackRoot (getStack (catchUp nsid z s) (zKey nsid z))
    sealEpoch := sealEpochNow s, blocks := (getZone s nsid z).wp, signed := false
    partialSeal := decide ((getZone s nsid z).wp < (getZone s nsid z).cap) }

theorem zoneSeal_of_ready (hst : (getZone s nsid z).st = .full) (hrep : (getZone s nsid z).reported ≠ .full)
    (hall : stackCount (getStack (catchUp nsid z s) (zKey nsid z)) = (getZone s nsid z).wp) :
    ∃ (n : Nat) (v : State), zoneSeal nsid z s = setF F.MAC_SEAL_ZONES_COUNT n v ∧ getZone v nsid z = sealZone s nsid z ∧
      getStack v (zKey nsid z) = [] ∧ v.mac.recs = s.mac.recs ++ [sealRec s nsid z] ∧ v.regs = s.regs ∧
      changesOnly [.regs, .map, .mac] s v := by
  have zone := getZone_catchUp nsid z s nsid z
  have recs := recs_catchUp nsid z s
  have parts := changesOnly_catchUp nsid z s
  unfold zoneSeal sealZone sealRec
  dsimp only
  generalize catchUp nsid z s = y at *
  rw [zone, if_pos ⟨hst, hrep, hall⟩]
  refine ⟨_, _, rfl, tget_tset_same .., tget_tset_same stackD _ [] _, congrArg (· ++ _) recs, parts.regs_eq, ?_⟩
  exact .mac (.mac (.map (parts.mono (by decide))))

theorem zoneSeal_of_unready (hno : (getZone s nsid z).st ≠ .full ∨ (getZone s nsid z).reported = .full ∨
    stackCount (getStack (catchUp nsid z s) (zKey nsid z)) ≠ (getZone s nsid z).wp) : zoneSeal nsid z s = catchUp nsid z s := by
  unfold zoneSeal
  dsimp only
  rw [getZone_catchUp, if_neg]
  rintro ⟨hst, hrep, hall⟩
  exact hno.elim (· hst) (·.elim hrep (· hall))

/-! ### An epoch closes -/

theorem anyClosing_iff {l : List (Nat × Bool)} : l.any (fun p => p.1 == ep) = true ↔ ∃ b, (ep, b) ∈ l := by
  rw [List.any_eq_true]
  constructor
  · rintro ⟨⟨e, b⟩, hm, he⟩
    exact ⟨b, beq_iff_eq.mp he ▸ hm⟩
  · rintro ⟨b, hm⟩
    exact ⟨_, hm, beq_self_eq_true ep⟩

theorem epochRecs_eq_nil_iff : epochRecs s ep = [] ↔ ∀ r ∈ s.mac.recs, r.beat / 1048576 = ep → r.blocks = 0 := by
  unfold epochRecs
  rw [← List.length_eq_zero_iff, List.length_mergeSort, List.length_eq_zero_iff, List.filter_eq_nil_iff]
  simp only [Bool.and_eq_true, decide_eq_true_eq, not_and, not_not]

/-- Closing an epoch counts from 0, and holds the epoch for signing where it has a record with blocks. -/
theorem closeEpoch_spec (ep : Nat) (s : State) :
    getF (closeEpoch ep false s) F.MAC_SEAL_ZONES_COUNT = 0 ∧ regsKept (· = Reg.MAC_SEAL_ZONES) s (closeEpoch ep false s) ∧
      changesOnly [.regs, .mac] s (closeEpoch ep false s) ∧ (closeEpoch ep false s).mac.recs = s.mac.recs ∧
      ((∃ r ∈ s.mac.recs, r.beat / 1048576 = ep ∧ r.blocks ≠ 0) → ∃ b, (ep, b) ∈ (closeEpoch ep false s).mac.closing) ∧
      ((∀ r ∈ s.mac.recs, r.beat / 1048576 = ep → r.blocks = 0) → (closeEpoch ep false s).mac.closing = s.mac.closing) := by
  have count := getF_setF_same F.MAC_SEAL_ZONES_COUNT 0 s (by unfold Fld.ok; decide)
  have kept : regsKept (· = Reg.MAC_SEAL_ZONES) s (setF F.MAC_SEAL_ZONES_COUNT 0 s) := .setF (.refl s) _ _ rfl
  have parts : changesOnly [.regs, .mac] s (setF F.MAC_SEAL_ZONES_COUNT 0 s) := .setF (.refl _ s) _ _
  have mac : (setF F.MAC_SEAL_ZONES_COUNT 0 s).mac = s.mac := setF_mac ..
  have recs : (setF F.MAC_SEAL_ZONES_COUNT 0 s).mac.recs = s.mac.recs := congrArg MacSt.recs mac
  unfold closeEpoch
  dsimp only
  generalize setF F.MAC_SEAL_ZONES_COUNT 0 s = v at *
  split
  · next hheld =>
    refine ⟨count, kept, parts, congrArg MacSt.recs mac, fun ⟨r, hr, hep, hblocks⟩ => ?_, fun _ => congrArg MacSt.closing mac⟩
    rcases hheld with hnil | hany
    · exact absurd (epochRecs_eq_nil_iff.mp hnil r hr hep) hblocks
    · rw [mac]
      exact anyClosing_iff.mp hany
  · next hfree =>
    refine ⟨(getF_congr _).trans count, kept.congr, .mac parts, recs, fun _ => ?_, fun hnone => ?_⟩
    · exact ⟨false, List.mem_append_right _ (List.mem_singleton.mpr rfl)⟩
    · exact absurd (.inl (epochRecs_eq_nil_iff.mpr hnone)) hfree

/-! ### An epoch is signed -/



theorem changesOnly_tileAen (k typ info lid : Nat) (s : State) : changesOnly [.host] s (tileAen k typ info lid s) := by
  unfold tileAen
  split
  · unfold aen
    dsimp only
    split
    · exact .refl _ s
    · split
      · exact .host (.refl _ s)
      · exact .host (.host (.refl _ s))
  · exact .refl _ s

theorem length_drop_store {α : Type} (l : List α) (e : α) (m : Nat) :
    ((l ++ [e]).drop (l.length + 1 - m)).length = min (l.length + 1) m := by
  rw [List.length_drop, List.length_append, List.length_singleton]
  omega

theorem getLast?_drop_store {α : Type} (l : List α) (e : α) {m : Nat} (hm : 0 < m) :
    ((l ++ [e]).drop (l.length + 1 - m)).getLast? = some e := by
  rw [List.drop_append_of_le_length (by omega), List.getLast?_append, List.getLast?_singleton]
  rfl

/-- Signing appends the epoch's entry to the store, and then tells of it. -/
theorem sealSignedDo_spec {c : Nat × Bool} (hfind : s.mac.closing.find? (fun p => p.1 == ep) = some c) :
    ∃ (e : SealEp) (v : State), sealSignedDo ep s = happen baseMac 5 v ∧ e.epoch = ep ∧ e.restarted = c.2 ∧
      e.recs = epochRecs s ep ∧ e.root = treeRoot ((epochRecs s ep).map recLeaf) ∧
      (∀ p, s.mac.epochs.getLast? = some p → e.prev = Config.sha384 (epStatement p)) ∧ (s.mac.epochs = [] → e.prev = 0) ∧
      v.beat = s.beat ∧ getR v Reg.MAC_SEAL_EPOCH_LO = ep % 2 ^ 32 ∧
      v.mac.closing = s.mac.closing.filter (fun p => p.1 != ep) ∧
      v.mac.epochs = (s.mac.epochs ++ [e]).drop (s.mac.epochs.length + 1 - sealStore) := by
  unfold sealSignedDo
  rw [hfind]
  dsimp only
  generalize he : SealEp.mk ep c.2 _ _ _ _ _ = e
  generalize hs1 : tick _ = s1
  have hbeat : s1.beat = s.beat := hs1 ▸ rfl
  have hclosing : s1.mac.closing = s.mac.closing.filter (fun p => p.1 != ep) := hs1 ▸ rfl
  have hepochs : s1.mac.epochs = (s.mac.epochs ++ [e]).drop (s.mac.epochs.length + 1 - sealStore) := by
    rw [← hs1]
    simp only [tick]
  have shown : getR (setR Reg.MAC_SEAL_EPOCH_HI (ep / 2 ^ 32) (setR Reg.MAC_SEAL_EPOCH_LO (ep % 2 ^ 32) s1))
      Reg.MAC_SEAL_EPOCH_LO = ep % 2 ^ 32 := by
    rw [getR_setR_ne _ _ (by decide), getR_setR_same, Nat.mod_mod]
  have parts : changesOnly [.regs] s1 (setR Reg.MAC_SEAL_EPOCH_HI (ep / 2 ^ 32) (setR Reg.MAC_SEAL_EPOCH_LO (ep % 2 ^ 32) s1)) :=
    .setR (.setR (.refl _ s1) _ _) _ _
  generalize setR Reg.MAC_SEAL_EPOCH_HI (ep / 2 ^ 32) (setR Reg.MAC_SEAL_EPOCH_LO (ep % 2 ^ 32) s1) = s2 at shown parts
  refine ⟨e, _, rfl, ?_⟩
  generalize hv : List.foldl (fun t k => tileAen k 7 0x83 0xC3 t) _ _ = v
  have told : changesOnly [.map, .host] s2 v := by
    rw [← hv]
    refine .foldl (.foldl (.refl _ s2) fun u r _ => ?_) fun u k _ => (changesOnly_tileAen ..).mono (by decide)
    exact .ite (.map (.refl _ u)) (.refl _ u)
  rw [told.beat_eq, parts.beat_eq, told.mac_eq, parts.mac_eq]
  refine ⟨he ▸ rfl, he ▸ rfl, he ▸ rfl, he ▸ rfl, fun p hp => ?_, fun hnil => ?_, hbeat,
    (getR_congr _ told.regs_eq).trans shown, hclosing, hepochs⟩
  · rw [← he]
    simp only [hp]
  · rw [← he]
    simp only [hnil, List.getLast?_nil]

/-- Settles O35: a sealing is one zone and one record, and a signing one entry of the store. -/
theorem sealsCloseAndAreSigned : Obligations.SealsCloseAndAreSigned := by
  unfold Obligations.SealsCloseAndAreSigned
  intro s nsid z ep
  refine ⟨fun hst hrep hall => ?sealed, fun hno => ?unready, fun h1 h2 h3 => ?close, fun hno => ?still, fun c hfind => ?signed,
    fun hnone => ?unsigned, fun ⟨b, hb⟩ hlate => ?late, fun hno => ?early⟩
  case sealed =>
    obtain ⟨n, v, heq, hzone, hstack, hrecs, hregs, hparts⟩ := zoneSeal_of_ready hst hrep hall
    refine ⟨_, congrArg Host.Outcome.next heq, ?_⟩
    have zone : getZone (setF F.MAC_SEAL_ZONES_COUNT n v) nsid z = sealZone s nsid z := by
      rw [getZone, setF_map]
      exact hzone
    have stack : getStack (setF F.MAC_SEAL_ZONES_COUNT n v) (zKey nsid z) = [] := by
      rw [getStack, setF_mac]
      exact hstack
    rw [zone, stack, setF_mac]
    exact ⟨rfl, rfl, rfl, rfl, rfl, rfl, rfl, hrecs, .setF (.of_regs hregs) _ _ rfl, .setF hparts _ _⟩
  case unready => exact ⟨congrArg Host.Outcome.next (zoneSeal_of_unready hno), changesOnly_catchUp ..⟩
  case close =>
    refine ⟨_, congrArg Host.Outcome.next (if_pos ⟨h1, h2, h3⟩), ?_⟩
    exact closeEpoch_spec ..
  case still =>
    refine congrArg Host.Outcome.next (if_neg fun e => ?_)
    obtain ⟨e1, e2, e3⟩ := e
    rcases hno with h | h | h
    · exact h e1
    · exact e2 h
    · exact absurd e3 (by simp [h])
  case signed =>
    obtain ⟨e, v, heq, hep, hrestarted, hrecs, hroot, hprev, hfirst, hbeat, hshown, hclosing, hepochs⟩ := sealSignedDo_spec hfind
    have hmac : (happen baseMac 5 v).mac = v.mac := (evtOnly_happen baseMac 5 v (by decide) (by decide)).part (p := .mac) (by decide)
    refine ⟨_, e, congrArg Host.Outcome.next heq, ?_, hep, hrestarted, hrecs, hroot, hprev, hfirst, ?_, fun b hb => ?_, ?_, ?_, ?_⟩
    · rw [hmac, hepochs]
      exact getLast?_drop_store _ _ (by decide)
    · rw [hmac, hepochs]
      exact length_drop_store ..
    · rw [hmac, hclosing, List.mem_filter] at hb
      simp at hb
    · exact raised_happen _ _ _ (by decide) (by decide) (by decide) (by decide)
    · rw [getR_happen (by decide) (by decide) (by decide), hshown]
    · exact ((evtOnly_happen baseMac 5 v (by decide) (by decide)).part (p := .beat) (by decide)).trans hbeat
  case unsigned =>
    refine congrArg Host.Outcome.next ?_
    unfold sealSignedDo
    rw [hnone]
  case late =>
    refine ⟨_, congrArg Host.Outcome.next (if_pos ⟨anyClosing_iff.mpr ⟨b, hb⟩, hlate⟩), ?_, evtOnly_happen _ _ _ (by decide) (by decide)⟩
    exact raised_happen _ _ _ (by decide) (by decide) (by decide) (by decide)
  case early =>
    refine congrArg Host.Outcome.next (if_neg fun e => ?_)
    obtain ⟨b, hb⟩ := anyClosing_iff.mp e.1
    exact hno.elim (· b hb) (Nat.not_lt.mpr e.2)

end Sys2Proof.Machine
end

/-! ## The placement matcher's search (R160, R166 to R168, R220, R457) -/

section

-- One proof after another: elaborated side by side, the proofs of this text take more memory than its check allows.
set_option Elab.async false

namespace Sys2Proof.Machine

variable {s t u : State} {i k : Nat} {e : SEnt}

/-! ### The winner -/

theorem winner_mem {l : List (Nat × SEnt)} {q : Nat × SEnt} (h : winner l = some q) : q ∈ l := by
  induction l with
  | nil => cases h
  | cons p l ih =>
    unfold winner at h
    split at h
    · next q' hq =>
      split at h
      · cases h
        exact List.mem_cons_of_mem _ (ih hq)
      · cases h
        exact List.mem_cons_self
    · cases h
      exact List.mem_cons_self

/-- Of the entries in the order of their indices, the winner is the first of the highest PRIO. -/
theorem winner_eq {l : List (Nat × SEnt)} (hp : l.Pairwise (fun a b => a.1 < b.1)) (hm : (k, e) ∈ l)
    (hbest : ∀ m ∈ l, m.2.prio < e.prio ∨ m.2.prio = e.prio ∧ k ≤ m.1) : winner l = some (k, e) := by
  induction l with
  | nil => cases hm
  | cons p l ih =>
    obtain ⟨hfirst, hrest⟩ := List.pairwise_cons.mp hp
    unfold winner
    rcases List.mem_cons.mp hm with rfl | hmem
    · split
      · next q hq =>
        have hprio : q.2.prio ≤ e.prio := by
          rcases hbest q (List.mem_cons_of_mem _ (winner_mem hq)) with h | h <;> omega
        exact if_neg (Nat.not_lt.mpr hprio)
      · rfl
    · rw [ih hrest hmem fun m h => hbest m (List.mem_cons_of_mem _ h)]
      have hlt : p.1 < k := hfirst _ hmem
      have hprio : p.2.prio < e.prio := by
        rcases hbest p List.mem_cons_self with h | h <;> omega
      exact if_pos hprio

/-! ### Counting and binding -/

theorem raised_happenAs (base i typ : Nat) (x : List Byte) (s : State) (hs : srcOf base i < 256 := by decide)
    (hb : base % 0x1000 = 0 := by decide) (hn : base ≠ 0x5000 := by decide) (hi : i < 32 := by decide) :
    raised base i (happenAs base i typ x false s) = true := by
  have hok : (bitF (Reg.EVT_RAW base) i).ok := by simp only [Fld.ok, bitF]; omega
  have h0 : getF (setF (bitF (Reg.EVT_RAW base) i) 1 s) (bitF (Reg.EVT_RAW base) i) = 1 := by
    rw [getF_setF_same _ _ _ hok]
    rfl
  have hp : (bitF (Reg.EVT_RAW base) i).addr ≠ (bitF (Reg.EVT_PEND base) i).addr := by
    simp only [bitF, Reg.EVT_RAW, Reg.EVT_PEND]
    omega
  refine decide_eq_true ?_
  unfold happenAs
  dsimp only
  split
  · rw [raw_occur _ _ _ _ _ _ _ _ hs hb hn, getF_setF_ne _ _ _ _ hp, h0]
  · exact h0

/-- A search is counted, and nothing of the entries changes with that. -/
theorem countSearch_spec (d : Bool) (s : State) :
    changesOnly [.regs, .sort] s (countSearch d s) ∧ (countSearch d s).sort.arr = s.sort.arr ∧
      (countSearch d s).sort.shadow = s.sort.shadow ∧
      regsKept (fun a => a = Reg.SORT_SEARCHES ∨ a = Reg.SORT_DEFAULTS) s (countSearch d s) := by
  unfold countSearch
  dsimp only
  generalize hv : ({ s with sort := _ } : State) = v
  have parts : changesOnly [.regs, .sort] s v := hv ▸ .sort (.refl _ s)
  have arr : v.sort.arr = s.sort.arr := hv ▸ rfl
  have shadow : v.sort.shadow = s.sort.shadow := hv ▸ rfl
  have kept : regsKept (fun a => a = Reg.SORT_SEARCHES ∨ a = Reg.SORT_DEFAULTS) s v := hv ▸ .of_regs rfl
  refine ⟨.addF (.addF parts _ _) _ _, ?_, ?_, .addF (.addF kept _ _ (.inl rfl)) _ _ (.inr rfl)⟩
  · rw [addF_sort, addF_sort, arr]
  · rw [addF_sort, addF_sort, shadow]

theorem changesOnly_bindResult (i wall qos : Nat) (s : State) : changesOnly [.host, .map] s (bindResult i wall qos s) :=
  .map (.host (.refl _ s))

theorem getCmd_bindResult (i wall qos : Nat) (s : State) :
    getCmd (bindResult i wall qos s) i = { getCmd s i with wall := wall, qos := qos, searched := true } := getCmd_setCmd ..

/-! ### A search -/

section

variable (hhas : hasCmd s i = true) (hsearch : (getCmd s i).searched = false)
include hhas hsearch

theorem searchDo_of_none (hnone : hitsFor s (tileOf s (getCmd s i).h) (searchKey s (getCmd s i)) = []) :
    searchDo i s = bindResult i (defaultWall s (getCmd s i).h.nsid (getCmd s i).hints) (queueQos s (getCmd s i).h)
      (countSearch true s) := by
  unfold searchDo
  dsimp only
  rw [if_neg (by simp [hhas, hsearch]), hnone]
  rfl

theorem searchDo_of_hit (hwin : winner (hitsFor s (tileOf s (getCmd s i).h) (searchKey s (getCmd s i))) = some (k, e)) :
    ∃ y, y.sort.arr = s.sort.arr ∧ y.sort.shadow = tset sD k { getE s k with hits := min (2 ^ 32 - 1) ((getE s k).hits + 1) } s.sort.shadow ∧
      changesOnly [.regs, .sort] s y ∧
      searchDo i s = (if bitsOf e.action.toNat 11 1 = 1 then happenAs baseSort 6 0x10 (traceBody (getCmd s i) k) false else id)
        (bindResult i (bitsOf e.action.toNat 0 8)
          (if bitsOf e.action.toNat 10 1 = 1 then queueQos s (getCmd s i).h else bitsOf e.action.toNat 8 2) y) := by
  unfold searchDo
  dsimp only
  rw [if_neg (by simp [hhas, hsearch]), hwin]
  dsimp only
  generalize hv : ({ s with sort := _ } : State) = v
  obtain ⟨parts, arr, shadow, -⟩ := countSearch_spec false v
  refine ⟨countSearch false v, arr.trans (hv ▸ rfl), shadow.trans (hv ▸ rfl), changesOnly.trans (hv ▸ .sort (.refl _ s)) parts, ?_⟩
  split <;> rfl

end

theorem searchDo_of_done (hno : hasCmd s i = false ∨ (getCmd s i).searched = true) : searchDo i s = s :=
  if_pos (by simpa using hno)

/-- A search binds the winner's wall and quality of service, and counts the hit. -/
theorem searchHit_spec (hhas : hasCmd s i = true) (hsearch : (getCmd s i).searched = false)
    (hwin : winner (hitsFor s (tileOf s (getCmd s i).h) (searchKey s (getCmd s i))) = some (k, e)) :
    (getCmd (searchDo i s) i).searched = true ∧ (getCmd (searchDo i s) i).wall = bitsOf e.action.toNat 0 8 ∧
      (getCmd (searchDo i s) i).qos = (if bitsOf e.action.toNat 10 1 = 1 then queueQos s (getCmd s i).h
        else bitsOf e.action.toNat 8 2) ∧
      (getE (searchDo i s) k).hits = min (2 ^ 32 - 1) ((getE s k).hits + 1) ∧
      (∀ m, m ≠ k → getE (searchDo i s) m = getE s m) ∧ (searchDo i s).sort.arr = s.sort.arr ∧
      (bitsOf e.action.toNat 11 1 = 1 → raised baseSort 6 (searchDo i s) = true) ∧
      changesOnly (.host :: .map :: .sort :: eventParts) s (searchDo i s) := by
  obtain ⟨y, harr, hshadow, hparts, heq⟩ := searchDo_of_hit hhas hsearch hwin
  rw [heq]
  generalize hz : bindResult i _ _ y = z
  have cmd : getCmd z i = _ := hz ▸ getCmd_bindResult ..
  have bound : changesOnly [.host, .map] y z := hz ▸ changesOnly_bindResult ..
  generalize hg : (if bitsOf e.action.toNat 11 1 = 1 then happenAs baseSort 6 0x10 (traceBody (getCmd s i) k) false else id) = g
  have told : evtOnly z (g z) := by
    rw [← hg]
    split
    · exact evtOnly_happenAs _ _ _ _ _ _ (by decide) (by decide)
    · exact ⟨.refl _ z, .refl z⟩
  have sort : (g z).sort = y.sort := (told.1.sort_eq).trans bound.sort_eq
  have entry : ∀ m, getE (g z) m = tget sD y.sort.shadow m := fun m => by rw [getE, sort]
  rw [getCmd_congr told.1.host_eq, cmd, sort]
  simp only [entry, hshadow]
  refine ⟨trivial, trivial, trivial, ?_, fun m hm => tget_tset_ne _ _ _ hm, harr, fun htrace => ?_, ?_⟩
  · rw [tget_tset_same]
  · rw [← hg, if_pos htrace]
    exact raised_happenAs ..
  · exact ((hparts.mono (by decide)).trans (bound.mono (by decide))).trans (told.1.mono (by decide))

end Sys2Proof.Machine
end

/-! ## The placement matcher's updates (R163, R164, R172 to R174, R176 to R178, R180) -/

section

-- One proof after another: elaborated side by side, the proofs of this text take more memory than its check allows.
set_option Elab.async false

namespace Sys2Proof.Machine

variable {s t u : State} {i j k n r : Nat} {e : SEnt}

/-! ### Entries -/

theorem getE_putE (i : Nat) (e : SEnt) (s : State) (k : Nat) : getE (putE i e s) k = if k = i then e else getE s k :=
  tget_tset ..

theorem getE_putE_ne (h : k ≠ i) (e : SEnt) (s : State) : getE (putE i e s) k = getE s k := tget_tset_ne _ _ _ h

theorem getE_congr (h : t.sort.shadow = s.sort.shadow) (k : Nat) : getE t k = getE s k := by rw [getE, getE, h]

theorem staged_congr (hv : getF t F.SORT_STATUS_STAGE_VALID = getF s F.SORT_STATUS_STAGE_VALID)
    (hx : getF t F.SORT_STATUS_STAGE_INDEX = getF s F.SORT_STATUS_STAGE_INDEX) (k : Nat) : staged t k = staged s k := by
  rw [staged, staged, isSet, isSet, hv, hx]

/-! ### SORT_STATUS -/

/-- Field `g` of SORT_STATUS has a value, and every other field of it the one it had. -/
structure StatusSet (g : Fld) (v : Nat) (s t : State) : Prop where
  value : getF t g = v
  others : ∀ f : Fld, f.addr = Reg.SORT_STATUS → f.lo + f.w ≤ g.lo ∨ g.lo + g.w ≤ f.lo → getF t f = getF s f

theorem statusSet_setF {g : Fld} (hg : g.ok) (v : Nat) (s : State) : StatusSet g (v % 2 ^ g.w) s (setF g v s) :=
  ⟨getF_setF_same g v s hg, fun f _ h => getF_setF_apart f g v s hg h⟩

/-- What an event of the matcher leaves of SORT_STATUS: all of it. -/
theorem getF_happen_sort {f : Fld} (hf : f.addr = Reg.SORT_STATUS) (i : Nat) (hi : srcOf baseSort i < 256) (s : State) :
    getF (happen baseSort i s) f = getF s f := getF_happen (by rw [hf]; decide) (by decide) hi

theorem StatusSet.happen {g : Fld} {v : Nat} (h : StatusSet g v s t) (hg : g.addr = Reg.SORT_STATUS) (i : Nat)
    (hi : srcOf baseSort i < 256 := by decide) : StatusSet g v s (happen baseSort i t) :=
  ⟨(getF_happen_sort hg i hi t).trans h.value, fun f hf ha => (getF_happen_sort hf i hi t).trans (h.others f hf ha)⟩

theorem StatusSet.congr {g : Fld} {v : Nat} (h : StatusSet g v s t) (hr : u.regs = t.regs) : StatusSet g v s u :=
  ⟨(getF_congr g hr).trans h.value, fun f hf ha => (getF_congr f hr).trans (h.others f hf ha)⟩

/-- The end of an operation: its result, its event, and nothing of the entries. -/
theorem sortDone_spec (r : Nat) (s : State) :
    StatusSet F.SORT_STATUS_RESULT (r % 2 ^ 3) s (sortDone r s) ∧ (sortDone r s).sort = s.sort ∧
      raised baseSort 2 (sortDone r s) = true ∧ regsKeptE (· = Reg.SORT_STATUS) s (sortDone r s) ∧
      changesOnly eventParts s (sortDone r s) := by
  have set := statusSet_setF (g := F.SORT_STATUS_RESULT) (by unfold Fld.ok; decide) r s
  have sort : (setF F.SORT_STATUS_RESULT r s).sort = s.sort := setF_sort ..
  have kept : regsKeptE (· = Reg.SORT_STATUS) s (setF F.SORT_STATUS_RESULT r s) := .setF (.refl s) _ _ rfl
  have parts : changesOnly eventParts s (setF F.SORT_STATUS_RESULT r s) := .setF (.refl _ s) _ _
  unfold sortDone
  generalize setF F.SORT_STATUS_RESULT r s = v at *
  exact ⟨set.happen rfl 2, ((evtOnly_happen baseSort 2 v (by decide) (by decide)).1.sort_eq).trans sort,
    raised_happen _ _ _ (by decide) (by decide) (by decide) (by decide), kept.happen _ _, parts.happen _ _⟩

/-- A refusal: its result, its event, and nothing of the entries. -/
theorem sortRefuse_spec (r : Nat) (s : State) :
    StatusSet F.SORT_STATUS_RESULT (r % 2 ^ 3) s (sortRefuse r s) ∧ (sortRefuse r s).sort = s.sort ∧
      raised baseSort 3 (sortRefuse r s) = true ∧ regsKeptE (· = Reg.SORT_STATUS) s (sortRefuse r s) ∧
      changesOnly eventParts s (sortRefuse r s) := by
  have set := statusSet_setF (g := F.SORT_STATUS_RESULT) (by unfold Fld.ok; decide) r s
  have sort : (setF F.SORT_STATUS_RESULT r s).sort = s.sort := setF_sort ..
  have kept : regsKeptE (· = Reg.SORT_STATUS) s (setF F.SORT_STATUS_RESULT r s) := .setF (.refl s) _ _ rfl
  have parts : changesOnly eventParts s (setF F.SORT_STATUS_RESULT r s) := .setF (.refl _ s) _ _
  unfold sortRefuse
  generalize setF F.SORT_STATUS_RESULT r s = v at *
  exact ⟨set.happen rfl 3, ((evtOnly_happen baseSort 3 v (by decide) (by decide)).1.sort_eq).trans sort,
    raised_happen _ _ _ (by decide) (by decide) (by decide) (by decide), kept.happen _ _, parts.happen _ _⟩

/-- An update: both copies of its entry, DIRTY and the count. -/
theorem updateE_spec (i : Nat) (e : SEnt) (s : State) :
    StatusSet F.SORT_STATUS_DIRTY 1 s (updateE i e s) ∧ (updateE i e s).sort = (putE i e s).sort ∧
      regsKept (fun a => a = Reg.SORT_STATUS ∨ a = Reg.SORT_UPDATES) s (updateE i e s) ∧
      changesOnly [.regs, .sort] s (updateE i e s) := by
  have set := statusSet_setF (g := F.SORT_STATUS_DIRTY) (by unfold Fld.ok; decide) 1 (putE i e s)
  have sort : (setF F.SORT_STATUS_DIRTY 1 (putE i e s)).sort = (putE i e s).sort := setF_sort ..
  have kept : regsKept (fun a => a = Reg.SORT_STATUS ∨ a = Reg.SORT_UPDATES) s (setF F.SORT_STATUS_DIRTY 1 (putE i e s)) :=
    .setF (.of_regs rfl) _ _ (.inl rfl)
  have parts : changesOnly [.regs, .sort] s (setF F.SORT_STATUS_DIRTY 1 (putE i e s)) := .setF (.sort (.refl _ s)) _ _
  unfold updateE
  generalize setF F.SORT_STATUS_DIRTY 1 (putE i e s) = v at *
  have count : ∀ f : Fld, f.addr = Reg.SORT_STATUS → getF (addF F.SORT_UPDATES_COUNT 1 v) f = getF v f := fun f hf =>
    getF_setF_ne _ _ _ _ (by rw [hf]; decide)
  refine ⟨⟨(count _ rfl).trans set.value, fun f hf ha => (count f hf).trans ((set.others f hf ha).trans (getF_congr f))⟩,
    ?_, kept.addF _ _ (.inr rfl), parts.addF _ _⟩
  rw [addF_sort, sort]

/-- A staging buffer that has been used is empty; the entries stay. -/
theorem clearStage_spec (i : Nat) (s : State) :
    staged (clearStage i s) i = false ∧ (clearStage i s).sort.shadow = s.sort.shadow ∧ (clearStage i s).sort.arr = s.sort.arr ∧
      (∀ f : Fld, f.addr = Reg.SORT_STATUS → f.lo + f.w ≤ 16 ∨ 17 ≤ f.lo → getF (clearStage i s) f = getF s f) ∧
      regsKept (· = Reg.SORT_STATUS) s (clearStage i s) ∧ changesOnly [.regs, .sort] s (clearStage i s) := by
  unfold clearStage
  split
  · generalize hv : ({ s with sort := { s.sort with stage := [] } } : State) = v
    have regs : v.regs = s.regs := hv ▸ rfl
    have shadow : v.sort.shadow = s.sort.shadow := hv ▸ rfl
    have arr : v.sort.arr = s.sort.arr := hv ▸ rfl
    have parts : changesOnly [.regs, .sort] s v := hv ▸ .sort (.refl _ s)
    have set := statusSet_setF (g := F.SORT_STATUS_STAGE_VALID) (by unfold Fld.ok; decide) 0 v
    refine ⟨?_, ?_, ?_, fun f hf ha => (set.others f hf ha).trans (getF_congr f regs), .setF (.of_regs regs) _ _ rfl, .setF parts _ _⟩
    · rw [staged, isSet, set.value]
      rfl
    · rw [setF_sort, shadow]
    · rw [setF_sort, arr]
  · next h => exact ⟨Bool.eq_false_iff.mpr h, rfl, rfl, fun _ _ _ => rfl, .refl s, .refl _ s⟩

/-- Clearing SHADOWED touches one entry alone. -/
theorem unshadow_spec (i : Nat) (s : State) :
    (getE (unshadow i s) i).shadowed = false ∧ (∀ k, k ≠ i → getE (unshadow i s) k = getE s k) ∧
      (unshadow i s).regs = s.regs ∧ changesOnly [.regs, .sort] s (unshadow i s) := by
  unfold unshadow
  split
  · exact ⟨by rw [getE_putE, if_pos rfl], fun k hk => getE_putE_ne hk _ _, rfl, .sort (.refl _ s)⟩
  · next h => exact ⟨Bool.eq_false_iff.mpr h, fun _ _ => rfl, rfl, .refl _ s⟩

/-! ### Steps of an operation -/

/-- An operation's step has updated: DIRTY is set, BUSY as it was. -/
structure SortStepped (s t : State) : Prop where
  dirty : getF t F.SORT_STATUS_DIRTY = 1
  busy : getF t F.SORT_STATUS_BUSY = getF s F.SORT_STATUS_BUSY
  parts : changesOnly [.regs, .sort] s t

namespace SortStepped

theorem updateE (i : Nat) (e : SEnt) (s : State) : SortStepped s (updateE i e s) := by
  obtain ⟨set, -, -, parts⟩ := updateE_spec i e s
  exact ⟨set.value, set.others F.SORT_STATUS_BUSY rfl (by decide), parts⟩

theorem unshadow (h : SortStepped s t) (i : Nat) : SortStepped s (unshadow i t) := by
  obtain ⟨-, -, regs, parts⟩ := unshadow_spec i t
  exact ⟨(getF_congr _ regs).trans h.dirty, (getF_congr _ regs).trans h.busy, h.parts.trans parts⟩

theorem clearStage (h : SortStepped s t) (i : Nat) : SortStepped s (clearStage i t) := by
  obtain ⟨-, -, -, others, -, parts⟩ := clearStage_spec i t
  exact ⟨(others F.SORT_STATUS_DIRTY rfl (by decide)).trans h.dirty, (others F.SORT_STATUS_BUSY rfl (by decide)).trans h.busy,
    h.parts.trans parts⟩

theorem ite {c : Prop} [Decidable c] (ht : SortStepped s t) (hu : SortStepped s u) : SortStepped s (if c then t else u) := by
  split <;> assumption

theorem sortStep (op : SortOp) (i j n : Nat) (e : SEnt) (s : State) : SortStepped s (sortStep op i j n e s) := by
  cases op with
  | insert => exact ite (ite (updateE ..) ((updateE ..).unshadow _)) (ite (((updateE ..).clearStage _).unshadow _) ((updateE ..).clearStage _))
  | delete => exact ite (ite (updateE ..) ((updateE ..).unshadow _)) (ite ((updateE ..).unshadow _) (updateE ..))
  | invalidate => exact updateE ..

end SortStepped

/-- The entry that an update writes. -/
theorem getE_updateE (i : Nat) (e : SEnt) (s : State) (k : Nat) : getE (updateE i e s) k = if k = i then e else getE s k := by
  obtain ⟨-, sort, -, -⟩ := updateE_spec i e s
  rw [getE, sort, ← getE, getE_putE]

/-- An update, with SHADOWED cleared in one other entry. -/
theorem getE_unshadow_updateE (hne : j ≠ i) (e : SEnt) (s : State) :
    getE (unshadow j (updateE i e s)) i = e ∧ (getE (unshadow j (updateE i e s)) j).shadowed = false ∧
      ∀ k, k ≠ i → k ≠ j → getE (unshadow j (updateE i e s)) k = getE s k := by
  obtain ⟨cleared, others, -, -⟩ := unshadow_spec j (updateE i e s)
  refine ⟨?_, cleared, fun k hki hkj => ?_⟩
  · rw [others i hne.symm, getE_updateE, if_pos rfl]
  · rw [others k hkj, getE_updateE, if_neg hki]

theorem sortStep_invalidate (i j n : Nat) (e : SEnt) (s : State) :
    getE (sortStep .invalidate i j n e s) (i + n) = { getE s (i + n) with valid := false } ∧
      ∀ k, k ≠ i + n → getE (sortStep .invalidate i j n e s) k = getE s k := by
  unfold sortStep
  exact ⟨by rw [getE_updateE, if_pos rfl], fun k hk => by rw [getE_updateE, if_neg hk]⟩

/-- INSERT moves an entry up, and clears SHADOWED where the last one moved from. -/
theorem sortStep_insert_move (h : n < j - i) (e : SEnt) (s : State) :
    getE (sortStep .insert i j n e s) (j - n) = { getE s (j - n - 1) with shadowed := true } ∧
      (0 < n → (getE (sortStep .insert i j n e s) (j - n + 1)).shadowed = false) ∧
      ∀ k, k ≠ j - n → k ≠ j - n + 1 → getE (sortStep .insert i j n e s) k = getE s k := by
  have ha : j - 1 - n + 1 = j - n := by omega
  have hb : j - 1 - n + 2 = j - n + 1 := by omega
  have hc : j - 1 - n = j - n - 1 := by omega
  unfold sortStep
  dsimp only
  rw [if_pos h, ha, hb, hc]
  split
  · next h0 =>
    exact ⟨by rw [getE_updateE, if_pos rfl], fun hn => absurd h0 (by omega), fun k hk _ => by rw [getE_updateE, if_neg hk]⟩
  · obtain ⟨moved, cleared, others⟩ := getE_unshadow_updateE (i := j - n) (j := j - n + 1) (by omega)
      { getE s (j - n - 1) with shadowed := true } s
    exact ⟨moved, fun _ => cleared, others⟩

/-- The last step of INSERT writes the new entry. -/
theorem sortStep_insert_last (hn : n = j - i) (hij : i < j) (e : SEnt) (s : State) :
    getE (sortStep .insert i j n e s) i = { e with prio := (getE s i).prio } ∧
      (getE (sortStep .insert i j n e s) (i + 1)).shadowed = false ∧
      ∀ k, k ≠ i → k ≠ i + 1 → getE (sortStep .insert i j n e s) k = getE s k := by
  unfold sortStep
  dsimp only
  rw [if_neg (by omega), if_pos hij]
  generalize hv : updateE i { e with prio := (getE s i).prio } s = v
  have written : ∀ k, getE v k = if k = i then { e with prio := (getE s i).prio } else getE s k := fun k => hv ▸ getE_updateE ..
  obtain ⟨-, shadow, -, -, -, -⟩ := clearStage_spec i v
  obtain ⟨cleared, others, -, -⟩ := unshadow_spec (i + 1) (clearStage i v)
  refine ⟨?_, cleared, fun k hk hk1 => ?_⟩
  · rw [others i (by omega), getE_congr shadow, written, if_pos rfl]
  · rw [others k hk1, getE_congr shadow, written, if_neg hk]

/-- DELETE moves an entry down, and clears SHADOWED where the last one moved to. -/
theorem sortStep_delete_move (h : n < j - i) (e : SEnt) (s : State) :
    getE (sortStep .delete i j n e s) (i + n) = { getE s (i + n + 1) with shadowed := true } ∧
      (0 < n → (getE (sortStep .delete i j n e s) (i + n - 1)).shadowed = false) ∧
      ∀ k, k ≠ i + n → k ≠ i + n - 1 → getE (sortStep .delete i j n e s) k = getE s k := by
  unfold sortStep
  dsimp only
  rw [if_pos h]
  split
  · next h0 =>
    exact ⟨by rw [getE_updateE, if_pos rfl], fun hn => absurd h0 (by omega), fun k hk _ => by rw [getE_updateE, if_neg hk]⟩
  · obtain ⟨moved, cleared, others⟩ := getE_unshadow_updateE (i := i + n) (j := i + n - 1) (by omega)
      { getE s (i + n + 1) with shadowed := true } s
    exact ⟨moved, fun _ => cleared, others⟩

/-- The last step of DELETE takes the last entry of the span out. -/
theorem sortStep_delete_last (hn : n = j - i) (hij : i < j) (e : SEnt) (s : State) :
    (getE (sortStep .delete i j n e s) j).valid = false ∧ (getE (sortStep .delete i j n e s) (j - 1)).shadowed = false ∧
      ∀ k, k ≠ j → k ≠ j - 1 → getE (sortStep .delete i j n e s) k = getE s k := by
  unfold sortStep
  dsimp only
  rw [if_neg (by omega), if_pos hij]
  obtain ⟨taken, cleared, others⟩ := getE_unshadow_updateE (i := j) (j := j - 1) (by omega)
    { getE s j with valid := false, shadowed := false } s
  exact ⟨by rw [taken], cleared, others⟩

end Sys2Proof.Machine
end

/-! ## The placement matcher's staging, commands, saves and comparer (R163, R164, R172 to R174, R176 to R178, R180) -/

section

-- One proof after another: elaborated side by side, the proofs of this text take more memory than its check allows.
set_option Elab.async false

namespace Sys2Proof.Machine

variable {s t u : State} {i j k n r : Nat} {e : SEnt}

/-! ### Staging -/

/-- The staging buffer with one word more. -/
def stageOn (i word : Nat) (v : W32) (s : State) : State :=
  setF F.SORT_STATUS_STAGE_VALID 1 (setF F.SORT_STATUS_STAGE_INDEX i
    { s with sort := { s.sort with stage := s.sort.stage.filter (fun p => p.1 != word) ++ [(word, v)] } })

theorem stagedWord_stageOn (i word : Nat) (v : W32) (s : State) :
    stagedWord (stageOn i word v s) word = some v.toNat ∧ ∀ w, w ≠ word → stagedWord (stageOn i word v s) w = stagedWord s w := by
  have stage : (stageOn i word v s).sort.stage = s.sort.stage.filter (fun p => p.1 != word) ++ [(word, v)] := by
    rw [stageOn, setF_sort, setF_sort]
  unfold stagedWord
  rw [stage]
  refine ⟨?_, fun w hw => ?_⟩
  · rw [List.find?_append, List.find?_eq_none.mpr, Option.none_or, List.find?_singleton, if_pos (beq_self_eq_true word)]
    · rfl
    · intro p hp
      simpa using (List.mem_filter.mp hp).2
  · rw [List.find?_append, List.find?_singleton, if_neg (by simpa using hw.symm), Option.or_none, List.find?_filter]
    congr 2
    funext p
    by_cases hp : p.1 = w <;> simp [hp, hw]

theorem stageOn_spec (hi : i < 4096) (word : Nat) (v : W32) (s : State) :
    staged (stageOn i word v s) i = true ∧ (stageOn i word v s).sort.arr = s.sort.arr ∧
      (stageOn i word v s).sort.shadow = s.sort.shadow ∧
      getF (stageOn i word v s) F.SORT_STATUS_RESULT = getF s F.SORT_STATUS_RESULT ∧
      regsKept (· = Reg.SORT_STATUS) s (stageOn i word v s) ∧ changesOnly [.regs, .sort] s (stageOn i word v s) := by
  unfold stageOn
  generalize hx : ({ s with sort := _ } : State) = x
  have regs : x.regs = s.regs := hx ▸ rfl
  have arr : x.sort.arr = s.sort.arr := hx ▸ rfl
  have shadow : x.sort.shadow = s.sort.shadow := hx ▸ rfl
  have parts : changesOnly [.regs, .sort] s x := hx ▸ .sort (.refl _ s)
  have index := statusSet_setF (g := F.SORT_STATUS_STAGE_INDEX) (by unfold Fld.ok; decide) i x
  have sort : (setF F.SORT_STATUS_STAGE_INDEX i x).sort = x.sort := setF_sort ..
  have kept : regsKept (· = Reg.SORT_STATUS) s (setF F.SORT_STATUS_STAGE_INDEX i x) := .setF (.of_regs regs) _ _ rfl
  have parts : changesOnly [.regs, .sort] s (setF F.SORT_STATUS_STAGE_INDEX i x) := .setF parts _ _
  generalize setF F.SORT_STATUS_STAGE_INDEX i x = y at *
  have valid := statusSet_setF (g := F.SORT_STATUS_STAGE_VALID) (by unfold Fld.ok; decide) 1 y
  refine ⟨?_, ?_, ?_, ?_, .setF kept _ _ rfl, .setF parts _ _⟩
  · rw [staged, isSet, valid.value, valid.others F.SORT_STATUS_STAGE_INDEX rfl (by decide), index.value,
      show i % 2 ^ 12 = i from Nat.mod_eq_of_lt hi]
    simp
  · rw [setF_sort, sort, arr]
  · rw [setF_sort, sort, shadow]
  · rw [valid.others F.SORT_STATUS_RESULT rfl (by decide), index.others F.SORT_STATUS_RESULT rfl (by decide), getF_congr _ regs]

theorem stageWord_of_same {word : Nat} {v : W32} (hw : word ≤ 6)
    (hsame : isSet s F.SORT_STATUS_STAGE_VALID = false ∨ getF s F.SORT_STATUS_STAGE_INDEX = i) :
    stageWord i word v s = stageOn i word v s := by
  unfold stageWord stageOn
  dsimp only
  rw [if_neg (by omega), if_neg]
  rcases hsame with h | h <;> simp [h]

/-- A word of another entry takes the buffer over: what was staged is lost. -/
theorem stageWord_of_other {word : Nat} {v : W32} (hw : word ≤ 6) (hset : isSet s F.SORT_STATUS_STAGE_VALID = true)
    (hother : getF s F.SORT_STATUS_STAGE_INDEX ≠ i) :
    ∃ y, stageWord i word v s = stageOn i word v y ∧ y.sort = { s.sort with stage := [] } ∧
      getF y F.SORT_STATUS_RESULT = 6 ∧ raised baseSort 4 y = true ∧ regsKeptE (· = Reg.SORT_STATUS) s y ∧
      changesOnly (.sort :: eventParts) s y := by
  refine ⟨happen baseSort 4 (setF F.SORT_STATUS_RESULT 6 { s with sort := { s.sort with stage := [] } }), ?_, ?_⟩
  · unfold stageWord stageOn
    dsimp only
    rw [if_neg (by omega), if_pos (by simp [hset, hother])]
  · generalize hx : ({ s with sort := { s.sort with stage := [] } } : State) = x
    have regs : x.regs = s.regs := hx ▸ rfl
    have xsort : x.sort = { s.sort with stage := [] } := hx ▸ rfl
    have parts : changesOnly (.sort :: eventParts) s x := hx ▸ .sort (.refl _ s)
    have set := statusSet_setF (g := F.SORT_STATUS_RESULT) (by unfold Fld.ok; decide) 6 x
    have sort : (setF F.SORT_STATUS_RESULT 6 x).sort = x.sort := setF_sort ..
    have kept : regsKeptE (· = Reg.SORT_STATUS) s (setF F.SORT_STATUS_RESULT 6 x) := .setF (.of_regs regs) _ _ rfl
    have parts : changesOnly (.sort :: eventParts) s (setF F.SORT_STATUS_RESULT 6 x) := .setF parts _ _
    generalize setF F.SORT_STATUS_RESULT 6 x = y at *
    exact ⟨((evtOnly_happen baseSort 4 y (by decide) (by decide)).1.sort_eq).trans (sort.trans xsort),
      (set.happen rfl 4).value, raised_happen _ _ _ (by decide) (by decide) (by decide) (by decide), kept.happen _ _,
      parts.happen _ _⟩

/-! ### Commits -/

theorem commitEntry_of_refused {v : W32} (h : sortRefusal s i i = some r ∨ sortRefusal s i i = none ∧ badAction s i = true ∧ r = 3) :
    commitEntry i v s = sortRefuse r s := by
  unfold commitEntry
  rcases h with h | ⟨h, hb, rfl⟩
  · rw [if_neg (by simp [h]), h]
  · rw [if_pos (by simp [h, hb])]

/-- A commit writes the entry with what is staged for it, and uses the buffer up. -/
theorem commitEntry_spec {v : W32} (h : sortRefusal s i i = none) (hb : badAction s i = false) :
    getE (commitEntry i v s) i = { withStaged s i (getE s i) with
        prio := bitsOf v.toNat 0 8, valid := decide (bitsOf v.toNat 8 1 = 1) } ∧
      tget sD (commitEntry i v s).sort.arr i = arrOf (getE (commitEntry i v s) i) ∧
      (∀ k, k ≠ i → getE (commitEntry i v s) k = getE s k) ∧ staged (commitEntry i v s) i = false ∧
      getF (commitEntry i v s) F.SORT_STATUS_RESULT = 0 ∧ isSet (commitEntry i v s) F.SORT_STATUS_DIRTY = true ∧
      raised baseSort 2 (commitEntry i v s) = true ∧ changesOnly (.sort :: eventParts) s (commitEntry i v s) ∧
      regsKeptE (fun a => a = Reg.SORT_STATUS ∨ a = Reg.SORT_UPDATES) s (commitEntry i v s) := by
  unfold commitEntry
  rw [if_neg (by simp [hb]), h]
  dsimp only
  generalize ({ withStaged s i (getE s i) with prio := bitsOf v.toNat 0 8, valid := decide (bitsOf v.toNat 8 1 = 1) } : SEnt) = e
  obtain ⟨free, cshadow, -, -, ckept, cparts⟩ := clearStage_spec i s
  generalize clearStage i s = c at *
  obtain ⟨dirty, usort, ukept, uparts⟩ := updateE_spec i e c
  generalize updateE i e c = d at *
  obtain ⟨result, dsort, hraised, dkept, dparts⟩ := sortDone_spec 0 d
  have entry : ∀ k, getE (sortDone 0 d) k = if k = i then e else getE s k := fun k => by
    rw [getE, dsort, usort, ← getE, getE_putE, getE_congr cshadow]
  have sameStage : staged (sortDone 0 d) i = staged c i := staged_congr
    ((result.others _ rfl (by decide)).trans (dirty.others _ rfl (by decide)))
    ((result.others _ rfl (by decide)).trans (dirty.others _ rfl (by decide))) i
  refine ⟨(entry i).trans (if_pos rfl), ?_, fun k hk => (entry k).trans (if_neg hk), sameStage.trans free, result.value, ?_,
    hraised, ?_, ?_⟩
  · rw [entry, if_pos rfl, dsort, usort]
    exact tget_tset_same ..
  · rw [isSet, result.others F.SORT_STATUS_DIRTY rfl (by decide), dirty.value]
    rfl
  · exact ((cparts.mono (by decide)).trans (uparts.mono (by decide))).trans (dparts.mono (by decide))
  · intro a ha he
    rw [dkept a (fun h => ha (.inl h)) he, ukept a ha, ckept a (fun h => ha (.inl h))]

/-! ### Commands -/

theorem sortStart_spec (op : SortOp) (i j : Nat) (e : SEnt) (s : State) :
    isSet (sortStart op i j e s) F.SORT_STATUS_BUSY = true ∧ (sortStart op i j e s).sort = { s.sort with op := some (op, i, j, 0, e) } ∧
      regsKept (· = Reg.SORT_STATUS) s (sortStart op i j e s) ∧ changesOnly [.regs, .sort] s (sortStart op i j e s) := by
  unfold sortStart
  generalize hx : ({ s with sort := _ } : State) = x
  have regs : x.regs = s.regs := hx ▸ rfl
  have sort : x.sort = { s.sort with op := some (op, i, j, 0, e) } := hx ▸ rfl
  have parts : changesOnly [.regs, .sort] s x := hx ▸ .sort (.refl _ s)
  refine ⟨?_, by rw [setF_sort, sort], .setF (.of_regs regs) _ _ rfl, .setF parts _ _⟩
  rw [isSet, getF_setF_same _ _ _ (by unfold Fld.ok; decide)]
  rfl

/-- An update of the engine: its step, and where it is the last one the end of the operation. -/
theorem updateStep_spec {op : SortOp} (hop : s.sort.op = some (op, i, j, n, e)) :
    isSet (updateStep s) F.SORT_STATUS_DIRTY = true ∧ changesOnly (.sort :: eventParts) s (updateStep s) ∧
      (n < j - i → (updateStep s).sort.op = some (op, i, j, n + 1, e) ∧
        isSet (updateStep s) F.SORT_STATUS_BUSY = isSet s F.SORT_STATUS_BUSY) ∧
      (j - i ≤ n → (updateStep s).sort.op = none ∧ isSet (updateStep s) F.SORT_STATUS_BUSY = false ∧
        getF (updateStep s) F.SORT_STATUS_RESULT = 0 ∧ raised baseSort 2 (updateStep s) = true) ∧
      ∀ k, getE (updateStep s) k = getE (sortStep op i j n e s) k := by
  have step := SortStepped.sortStep op i j n e s
  unfold updateStep
  rw [hop]
  dsimp only
  generalize sortStep op i j n e s = y at step ⊢
  by_cases hn : n < j - i
  · rw [if_pos hn]
    refine ⟨?_, .sort (step.parts.mono (by decide)), fun _ => ⟨rfl, ?_⟩, fun h => absurd hn (by omega), fun k => rfl⟩
    · rw [isSet, getF_congr (s := y), step.dirty]
      rfl
    · exact isSet_of_getF ((getF_congr (s := y) _).trans step.busy)
  · rw [if_neg hn]
    generalize hx : ({ y with sort := { y.sort with op := none } } : State) = x
    have regs : x.regs = y.regs := hx ▸ rfl
    have shadow : x.sort.shadow = y.sort.shadow := hx ▸ rfl
    have ended : x.sort.op = none := hx ▸ rfl
    have parts : changesOnly (.sort :: eventParts) s x := hx ▸ .sort (step.parts.mono (by decide))
    have busy := statusSet_setF (g := F.SORT_STATUS_BUSY) (by unfold Fld.ok; decide) 0 x
    have sort : (setF F.SORT_STATUS_BUSY 0 x).sort = x.sort := setF_sort ..
    have parts : changesOnly (.sort :: eventParts) s (setF F.SORT_STATUS_BUSY 0 x) := .setF parts _ _
    generalize setF F.SORT_STATUS_BUSY 0 x = z at *
    obtain ⟨result, zsort, hraised, -, zparts⟩ := sortDone_spec 0 z
    refine ⟨?_, parts.trans (zparts.mono (by decide)), fun h => absurd h hn, fun _ => ⟨by rw [zsort, sort, ended], ?_, result.value,
      hraised⟩, fun k => by rw [getE, zsort, sort, shadow, getE]⟩
    · rw [isSet, result.others F.SORT_STATUS_DIRTY rfl (by decide), busy.others F.SORT_STATUS_DIRTY rfl (by decide),
        getF_congr _ regs, step.dirty]
      rfl
    · rw [isSet, result.others F.SORT_STATUS_BUSY rfl (by decide), busy.value]
      rfl

/-! ### Saves and the comparer -/

theorem saveDo_spec (hb : isSet s F.SORT_STATUS_BUSY = false) :
    isSet (saveDo s) F.SORT_STATUS_BUSY = true ∧
      (saveDo s).sort = { s.sort with save := some (true, s.sort.arr, rd s Reg.SORT_CFG), changed := false } ∧
      regsKept (· = Reg.SORT_STATUS) s (saveDo s) ∧ changesOnly [.regs, .sort] s (saveDo s) := by
  unfold saveDo
  rw [if_neg (by simp [hb])]
  generalize hx : ({ s with sort := _ } : State) = x
  have regs : x.regs = s.regs := hx ▸ rfl
  have sort : x.sort = { s.sort with save := some (true, s.sort.arr, rd s Reg.SORT_CFG), changed := false } := hx ▸ rfl
  have parts : changesOnly [.regs, .sort] s x := hx ▸ .sort (.refl _ s)
  refine ⟨?_, by rw [setF_sort, sort], .setF (.of_regs regs) _ _ rfl, .setF parts _ _⟩
  rw [isSet, getF_setF_same _ _ _ (by unfold Fld.ok; decide)]
  rfl

end Sys2Proof.Machine
end

/-! ## The placement matcher is searched and updated (R160 to R180) -/

section

-- One proof after another: elaborated side by side, the proofs of this text take more memory than its check allows.
set_option Elab.async false

namespace Sys2Proof.Machine

variable {s t u : State} {i j k n r : Nat} {e : SEnt}

/-! ### The end of a save -/

/-- A save that ends: its copy is gone, BUSY is cleared, and all else of SORT_STATUS and of the entries stays. -/
structure SaveEnded (s t : State) : Prop where
  save : t.sort.save = none
  busy : getF t F.SORT_STATUS_BUSY = 0
  dirty : getF t F.SORT_STATUS_DIRTY = getF s F.SORT_STATUS_DIRTY
  arr : t.sort.arr = s.sort.arr
  shadow : t.sort.shadow = s.sort.shadow
  saved : t.sort.saved = s.sort.saved
  savedCfg : t.sort.savedCfg = s.sort.savedCfg

theorem saveEnded (s : State) :
    SaveEnded s (setF F.SORT_STATUS_BUSY 0 { s with sort := { s.sort with save := none } }) := by
  generalize hx : ({ s with sort := { s.sort with save := none } } : State) = x
  have regs : x.regs = s.regs := hx ▸ rfl
  have sort : x.sort = { s.sort with save := none } := hx ▸ rfl
  have set := statusSet_setF (g := F.SORT_STATUS_BUSY) (by unfold Fld.ok; decide) 0 x
  have kept : (setF F.SORT_STATUS_BUSY 0 x).sort = { s.sort with save := none } := (setF_sort ..).trans sort
  generalize setF F.SORT_STATUS_BUSY 0 x = y at *
  constructor
  case busy => exact set.value
  case dirty => exact (set.others _ rfl (by decide)).trans (getF_congr _ regs)
  all_goals rw [kept]

theorem saveDone_of_stored {b : Bool} {l : List (Nat × SEnt)} {cfg : W32} (hsave : s.sort.save = some (b, l, cfg)) :
    (saveDone true s).sort.save = none ∧ isSet (saveDone true s) F.SORT_STATUS_BUSY = false ∧
      raised baseSort 2 (saveDone true s) = true ∧ (saveDone true s).sort.arr = s.sort.arr ∧
      (saveDone true s).sort.shadow = s.sort.shadow ∧ (saveDone true s).sort.saved = l ∧
      (saveDone true s).sort.savedCfg = cfg ∧ getF (saveDone true s) F.SORT_STATUS_RESULT = 0 ∧
      isSet (saveDone true s) F.SORT_STATUS_DIRTY = s.sort.changed := by
  unfold saveDone
  rw [hsave]
  dsimp only
  rw [if_pos rfl]
  have ended := saveEnded s
  generalize setF F.SORT_STATUS_BUSY 0 { s with sort := { s.sort with save := none } } = y at *
  generalize hz : ({ y with sort := { y.sort with saved := l, savedCfg := cfg } } : State) = z
  have regs : z.regs = y.regs := hz ▸ rfl
  have sort : z.sort = { y.sort with saved := l, savedCfg := cfg } := hz ▸ rfl
  have dirty := statusSet_setF (g := F.SORT_STATUS_DIRTY) (by unfold Fld.ok; decide) (if s.sort.changed then 1 else 0) z
  have dsort : (setF F.SORT_STATUS_DIRTY (if s.sort.changed then 1 else 0) z).sort = { y.sort with saved := l, savedCfg := cfg } :=
    (setF_sort ..).trans sort
  generalize setF F.SORT_STATUS_DIRTY (if s.sort.changed then 1 else 0) z = d at *
  obtain ⟨result, rsort, told, -, -⟩ := sortDone_spec 0 d
  rw [rsort, dsort]
  refine ⟨ended.save, ?_, told, ended.arr, ended.shadow, rfl, rfl, result.value, ?_⟩
  · rw [isSet, result.others F.SORT_STATUS_BUSY rfl (by decide), dirty.others F.SORT_STATUS_BUSY rfl (by decide),
      getF_congr _ regs, ended.busy]
    rfl
  · rw [isSet, result.others F.SORT_STATUS_DIRTY rfl (by decide), dirty.value]
    cases s.sort.changed <;> rfl

theorem saveDone_of_failed {b : Bool} {l : List (Nat × SEnt)} {cfg : W32} (hsave : s.sort.save = some (b, l, cfg)) :
    (saveDone false s).sort.save = none ∧ isSet (saveDone false s) F.SORT_STATUS_BUSY = false ∧
      raised baseSort 2 (saveDone false s) = true ∧ (saveDone false s).sort.arr = s.sort.arr ∧
      (saveDone false s).sort.shadow = s.sort.shadow ∧ (saveDone false s).sort.saved = s.sort.saved ∧
      (saveDone false s).sort.savedCfg = s.sort.savedCfg ∧ getF (saveDone false s) F.SORT_STATUS_RESULT = 7 ∧
      isSet (saveDone false s) F.SORT_STATUS_DIRTY = isSet s F.SORT_STATUS_DIRTY := by
  unfold saveDone
  rw [hsave]
  dsimp only
  rw [if_neg Bool.false_ne_true]
  have ended := saveEnded s
  generalize setF F.SORT_STATUS_BUSY 0 { s with sort := { s.sort with save := none } } = y at *
  obtain ⟨result, rsort, told, -, -⟩ := sortDone_spec 7 y
  rw [rsort]
  refine ⟨ended.save, ?_, told, ended.arr, ended.shadow, ended.saved, ended.savedCfg, result.value, ?_⟩
  · rw [isSet, result.others F.SORT_STATUS_BUSY rfl (by decide), ended.busy]
    rfl
  · exact isSet_of_getF ((result.others _ rfl (by decide)).trans ended.dirty)

theorem autosave_spec (hdirty : isSet s F.SORT_STATUS_DIRTY = true) :
    (autosave true s).sort = { s.sort with saved := s.sort.arr, savedCfg := rd s Reg.SORT_CFG, changed := false } ∧
      isSet (autosave true s) F.SORT_STATUS_DIRTY = false ∧ raised baseSort 2 (autosave true s) = true ∧
      regsKeptE (· = Reg.SORT_STATUS) s (autosave true s) := by
  unfold autosave
  rw [if_pos ⟨rfl, hdirty⟩]
  generalize hx : ({ s with sort := _ } : State) = x
  have regs : x.regs = s.regs := hx ▸ rfl
  have sort : x.sort = { s.sort with saved := s.sort.arr, savedCfg := rd s Reg.SORT_CFG, changed := false } := hx ▸ rfl
  have set := statusSet_setF (g := F.SORT_STATUS_DIRTY) (by unfold Fld.ok; decide) 0 x
  have xsort : (setF F.SORT_STATUS_DIRTY 0 x).sort = _ := (setF_sort ..).trans sort
  have kept : regsKeptE (· = Reg.SORT_STATUS) s (setF F.SORT_STATUS_DIRTY 0 x) := .setF (.of_regs regs) _ _ rfl
  generalize setF F.SORT_STATUS_DIRTY 0 x = y at *
  refine ⟨((evtOnly_happen baseSort 2 y (by decide) (by decide)).1.sort_eq).trans xsort, ?_,
    raised_happen _ _ _ (by decide) (by decide) (by decide) (by decide), kept.happen _ _⟩
  rw [isSet, (set.happen rfl 2).value]
  rfl

theorem autosave_of_not {ok : Bool} (h : ok = false ∨ isSet s F.SORT_STATUS_DIRTY = false) : autosave ok s = s :=
  if_neg (by rcases h with h | h <;> simp [h])

/-! ### SORT_CFG -/

theorem sortCfg_spec (v : W32) (s : State) :
    getR (sortCfg v s) Reg.SORT_CFG = Nat.land v.toNat 0x10F0F ∧ isSet (sortCfg v s) F.SORT_STATUS_DIRTY = true ∧
      (sortCfg v s).sort.arr = s.sort.arr ∧ (sortCfg v s).sort.shadow = s.sort.shadow ∧
      regsKept (fun a => a = Reg.SORT_CFG ∨ a = Reg.SORT_STATUS) s (sortCfg v s) ∧
      changesOnly [.regs, .sort] s (sortCfg v s) := by
  unfold sortCfg
  generalize hx : ({ s with sort := _ } : State) = x
  have regs : x.regs = s.regs := hx ▸ rfl
  have arr : x.sort.arr = s.sort.arr := hx ▸ rfl
  have shadow : x.sort.shadow = s.sort.shadow := hx ▸ rfl
  have parts : changesOnly [.regs, .sort] s x := hx ▸ .sort (.refl _ s)
  have hlt : Nat.land v.toNat 0x10F0F < 2 ^ 32 := lt_of_le_of_lt Nat.and_le_right (by decide)
  refine ⟨?_, ?_, ?_, ?_, .setF (.setR (.of_regs regs) _ _ (.inl rfl)) _ _ (.inr rfl), .setF (.setR parts _ _) _ _⟩
  · rw [getR_of_rd (rd_setF_ne _ _ _ (by decide)), getR_setR, if_pos rfl, Nat.mod_eq_of_lt hlt]
  · rw [isSet, getF_setF_same _ _ _ (by unfold Fld.ok; decide)]
    rfl
  · rw [setF_sort, setR_sort, arr]
  · rw [setF_sort, setR_sort, shadow]

/-! ### The comparer -/

section

variable (hi : i < 4096) (hwalk : s.sort.walking = true)
include hi hwalk

theorem shadowRewriteDo_of_shadow :
    tget sD (shadowRewriteDo i false s).sort.arr i = arrOf (getE s i) ∧
      (∀ k, k ≠ i → tget sD (shadowRewriteDo i false s).sort.arr k = tget sD s.sort.arr k) ∧
      (shadowRewriteDo i false s).sort.shadow = s.sort.shadow ∧ raised baseSort 0 (shadowRewriteDo i false s) = true ∧
      regsKeptE (fun a => a = Reg.SORT_FIXED ∨ a = Reg.SORT_UPDATES) s (shadowRewriteDo i false s) := by
  unfold shadowRewriteDo
  rw [if_neg (by simp [hwalk, hi]), if_neg Bool.false_ne_true]
  generalize hx : ({ s with sort := _ } : State) = x
  have regs : x.regs = s.regs := hx ▸ rfl
  have sort : x.sort = { s.sort with arr := tset sD i (arrOf (getE s i)) s.sort.arr } := hx ▸ rfl
  have counted : (addF F.SORT_FIXED_COUNT 1 (addF F.SORT_UPDATES_COUNT 1 x)).sort = _ :=
    (addF_sort ..).trans ((addF_sort ..).trans sort)
  have kept : regsKeptE (fun a => a = Reg.SORT_FIXED ∨ a = Reg.SORT_UPDATES) s
      (addF F.SORT_FIXED_COUNT 1 (addF F.SORT_UPDATES_COUNT 1 x)) := .addF (.addF (.of_regs regs) _ _ (.inr rfl)) _ _ (.inl rfl)
  generalize addF F.SORT_FIXED_COUNT 1 (addF F.SORT_UPDATES_COUNT 1 x) = y at *
  have told : (happen baseSort 0 y).sort = _ := ((evtOnly_happen baseSort 0 y (by decide) (by decide)).1.sort_eq).trans counted
  rw [told]
  exact ⟨tget_tset_same .., fun k hk => tget_tset_ne _ _ _ hk, rfl,
    raised_happen _ _ _ (by decide) (by decide) (by decide) (by decide), kept.happen _ _⟩

/-- An entry whose shadow word is uncorrectable too is invalid in both copies. -/
theorem shadowRewriteDo_of_ue :
    getE (shadowRewriteDo i true s) i = { getE s i with valid := false } ∧
      (∀ k, k ≠ i → getE (shadowRewriteDo i true s) k = getE s k) ∧
      (tget sD (shadowRewriteDo i true s).sort.arr i).valid = false ∧
      isSet (shadowRewriteDo i true s) F.SORT_STATUS_SHADOW_UE = true ∧ raised baseSort 1 (shadowRewriteDo i true s) = true := by
  unfold shadowRewriteDo shadowUeDo
  rw [if_neg (by simp [hwalk, hi]), if_pos rfl]
  generalize hx : putE i { getE s i with valid := false } s = x
  have entry : ∀ k, getE x k = if k = i then { getE s i with valid := false } else getE s k := hx ▸ getE_putE _ _ _
  have arr : (tget sD x.sort.arr i).valid = false := by
    rw [← hx]
    exact (congrArg SEnt.valid (tget_tset_same ..)).trans rfl
  generalize hy : setF F.SORT_STATUS_SHADOW_UE 1 (setF F.SORT_STATUS_DIRTY 1 x) = y
  have set : getF y F.SORT_STATUS_SHADOW_UE = 1 := by
    rw [← hy, getF_setF_same _ _ _ (by unfold Fld.ok; decide)]
    rfl
  have ysort : y.sort = x.sort := by rw [← hy, setF_sort, setF_sort]
  have noted : getF (noteErr baseSort 0 i 0 y) F.SORT_STATUS_SHADOW_UE = 1 :=
    (getF_of_rd (rd_noteErr _ _ _ _ _ _ (by decide) (by decide) (by decide))).trans set
  have zsort : (noteErr baseSort 0 i 0 y).sort = x.sort := (noteErr_sort ..).trans ysort
  generalize noteErr baseSort 0 i 0 y = z at *
  have told : (happen baseSort 1 z).sort = x.sort := ((evtOnly_happen baseSort 1 z (by decide) (by decide)).1.sort_eq).trans zsort
  have kept : ∀ k, getE (happen baseSort 1 z) k = getE x k := getE_congr (congrArg SortSt.shadow told)
  refine ⟨by rw [kept, entry, if_pos rfl], fun k hk => by rw [kept, entry, if_neg hk], by rw [told, arr], ?_,
    raised_happen _ _ _ (by decide) (by decide) (by decide) (by decide)⟩
  rw [isSet, getF_happen_sort rfl 1 (by decide), noted]
  rfl

end

theorem shadowRewriteDo_of_out {ue : Bool} (h : 4096 ≤ i ∨ s.sort.walking = false) : shadowRewriteDo i ue s = s := if_pos h

/-! ### SORT_CMD -/

/-- What a refused operation leaves. -/
theorem sortRefused {c : Instr} (hrun : exec c s = .next (sortRefuse r s)) (hr : r < 8) :
    ∃ t, completes c s t ∧ t.sort = s.sort ∧ getF t F.SORT_STATUS_RESULT = r ∧ raised baseSort 3 t = true ∧
      regsKeptE (· = Reg.SORT_STATUS) s t ∧ changesOnly eventParts s t := by
  obtain ⟨result, sort, told, kept, parts⟩ := sortRefuse_spec r s
  exact ⟨_, hrun, sort, result.value.trans (Nat.mod_eq_of_lt hr), told, kept, parts⟩

/-- The results of R164's refusals. -/
theorem sortRefusal_lt (h : sortRefusal s i j = some r) : r < 8 := by
  unfold sortRefusal at h
  split at h
  · cases h
    decide
  · split at h
    · cases h
      decide
    · cases h

section

variable (hi : i < 4096) (hj : j < 4096) (hreach : reach s Reg.SORT_CMD = .ok)
include hi hj hreach

theorem exec_sortInsert : exec (.sortInsert i j) s = .next (insertDo i j s) := by
  change execSortInsert i j s = _
  rw [execSortInsert, guarded_ok _ hreach, Nat.mod_eq_of_lt hi, Nat.mod_eq_of_lt hj]

theorem exec_sortDelete : exec (.sortDelete i j) s = .next (deleteDo i j s) := by
  change execSortDelete i j s = _
  rw [execSortDelete, guarded_ok _ hreach, Nat.mod_eq_of_lt hi, Nat.mod_eq_of_lt hj]

theorem exec_sortInvalidate : exec (.sortInvalidate i j) s = .next (invalidateDo i j s) := by
  change execSortInvalidate i j s = _
  rw [execSortInvalidate, guarded_ok _ hreach, Nat.mod_eq_of_lt hi, Nat.mod_eq_of_lt hj]

/-- A busy engine, or a span outside its tile's range, refuses all three operations. -/
theorem exec_sortCmd_of_refusal {c : Instr} (hc : c = .sortInsert i j ∨ c = .sortDelete i j ∨ c = .sortInvalidate i j)
    (h : sortRefusal s i j = some r) : exec c s = .next (sortRefuse r s) := by
  rcases hc with rfl | rfl | rfl
  · rw [exec_sortInsert hi hj hreach, insertDo, h]
  · rw [exec_sortDelete hi hj hreach, deleteDo, h]
  · rw [exec_sortInvalidate hi hj hreach, invalidateDo, h]

variable (hfree : sortRefusal s i j = none)
include hfree

theorem exec_sortInsert_of_unfit (h : badAction s i = true ∧ r = 3 ∨ badAction s i = false ∧ (getE s j).valid = true ∧ r = 4 ∨
    badAction s i = false ∧ (getE s j).valid = false ∧ staged s i = false ∧ r = 5) :
    exec (.sortInsert i j) s = .next (sortRefuse r s) ∧ r < 8 := by
  rw [exec_sortInsert hi hj hreach, insertDo, hfree]
  rcases h with ⟨hb, rfl⟩ | ⟨hb, hv, rfl⟩ | ⟨hb, hv, hs, rfl⟩ <;> simp [*]

theorem exec_sortInsert_of_fit (hb : badAction s i = false) (hv : (getE s j).valid = false) (hs : staged s i = true) :
    exec (.sortInsert i j) s = .next
      (sortStart .insert i j { withStaged s i (getE s i) with valid := true, shadowed := false, hits := 0 } s) := by
  rw [exec_sortInsert hi hj hreach, insertDo, hfree]
  simp [hb, hv, hs]

end

/-! ### The obligation -/

/-- A search with no match, with a match, and one that is not to be made. -/
theorem matcherSearch_spec (s : State) (i : Nat) (hhas : hasCmd s i = true) (hsearch : (getCmd s i).searched = false) :
    (hitsFor s (tileOf s (getCmd s i).h) (searchKey s (getCmd s i)) = [] →
      ∃ t, completes (.matcherSearch i) s t ∧ getCmd t i = { getCmd s i with
          wall := defaultWall s (getCmd s i).h.nsid (getCmd s i).hints, qos := queueQos s (getCmd s i).h
          searched := true } ∧
        t.sort.arr = s.sort.arr ∧ t.sort.shadow = s.sort.shadow ∧ changesOnly [.regs, .host, .map, .sort] s t ∧
        regsKept (fun a => a = Reg.SORT_SEARCHES ∨ a = Reg.SORT_DEFAULTS) s t) := by
  intro hnone
  obtain ⟨parts, arr, shadow, kept⟩ := countSearch_spec true s
  have heq := searchDo_of_none hhas hsearch hnone
  generalize countSearch true s = y at *
  have bound := changesOnly_bindResult i (defaultWall s (getCmd s i).h.nsid (getCmd s i).hints) (queueQos s (getCmd s i).h) y
  have cmd := getCmd_bindResult i (defaultWall s (getCmd s i).h.nsid (getCmd s i).hints) (queueQos s (getCmd s i).h) y
  generalize bindResult i _ _ y = z at *
  rw [getCmd_congr parts.host_eq] at cmd
  exact ⟨z, congrArg Host.Outcome.next heq, cmd, (congrArg SortSt.arr bound.sort_eq).trans arr,
    (congrArg SortSt.shadow bound.sort_eq).trans shadow, (parts.mono (by decide)).trans (bound.mono (by decide)),
    kept.congr bound.regs_eq⟩

/-- Settles O37: each operation of the matcher by its own lemma. -/
theorem theMatcherSearchesAndUpdates : Obligations.TheMatcherSearchesAndUpdates := by
  unfold Obligations.TheMatcherSearchesAndUpdates
  refine ⟨fun s i hhas hsearch => ⟨matcherSearch_spec s i hhas hsearch, ?hit, ?quiet⟩, fun s =>
    ⟨?stage, ?commit, ?command, ?idle, ?step, ?save, ?saved, ?unsaved, ?auto, ?cfg, ?rewrite, ?out⟩⟩
  case hit =>
    intro k e hsorted hmem hbest
    exact ⟨_, rfl, searchHit_spec hhas hsearch (winner_eq hsorted hmem hbest)⟩
  case quiet => exact fun m h => congrArg Host.Outcome.next (searchDo_of_done h)
  case stage =>
    intro i word v hi hw hreach
    have hrun : completes (.sortEntryStage i word v) s (stageWord i word v s) := congrArg Host.Outcome.next (guarded_ok _ hreach)
    by_cases hsame : isSet s F.SORT_STATUS_STAGE_VALID = false ∨ getF s F.SORT_STATUS_STAGE_INDEX = i
    · rw [stageWord_of_same hw hsame] at hrun
      obtain ⟨isStaged, arr, shadow, result, kept, parts⟩ := stageOn_spec hi word v s
      obtain ⟨word, others⟩ := stagedWord_stageOn i word v s
      refine ⟨_, hrun, isStaged, word, arr, shadow, fun a ha _ => kept a ha, parts.mono (by decide),
        fun _ => ⟨others, result⟩, fun hset hother => ?_⟩
      rcases hsame with h | h
      · exact absurd (h.symm.trans hset) Bool.false_ne_true
      · exact absurd h hother
    · obtain ⟨hset, hother⟩ := not_or.mp hsame
      obtain ⟨y, heq, ysort, yresult, ytold, ykept, yparts⟩ :=
        stageWord_of_other (i := i) (v := v) hw (Bool.not_eq_false _ ▸ hset) hother
      rw [heq] at hrun
      obtain ⟨isStaged, arr, shadow, result, kept, parts⟩ := stageOn_spec hi word v y
      obtain ⟨hword, others⟩ := stagedWord_stageOn i word v y
      refine ⟨_, hrun, isStaged, hword, arr.trans ((congrArg SortSt.arr ysort).trans rfl),
        shadow.trans ((congrArg SortSt.shadow ysort).trans rfl),
        fun a ha he => (kept a ha).trans (ykept a ha he), yparts.trans (parts.mono (by decide)), fun h => absurd h hsame,
        fun _ _ => ⟨fun w hne => ?_, result.trans yresult, ?_⟩⟩
      · rw [others w hne, stagedWord, ysort]
        rfl
      · rw [raised_of_rd (kept _ (by decide)), ytold]
  case commit =>
    intro i v hreach
    have hrun : completes (.sortEntryCommit i v) s (commitEntry i v s) := congrArg Host.Outcome.next (guarded_ok _ hreach)
    refine ⟨fun r hr => ?_, fun hfree hb => ⟨_, hrun, commitEntry_spec hfree hb⟩⟩
    rw [commitEntry_of_refused hr] at hrun
    refine sortRefused hrun ?_
    rcases hr with h | ⟨-, -, rfl⟩
    · exact sortRefusal_lt h
    · decide
  case command =>
    intro i j hi hj hreach
    refine ⟨fun c r hc hr => sortRefused (exec_sortCmd_of_refusal hi hj hreach hc hr) (sortRefusal_lt hr), fun hfree =>
      ⟨fun r hr => ?_, fun hb hv hs => ⟨_, exec_sortInsert_of_fit hi hj hreach hfree hb hv hs, sortStart_spec ..⟩, ?_, ?_⟩⟩
    · obtain ⟨hrun, hlt⟩ := exec_sortInsert_of_unfit hi hj hreach hfree hr
      obtain ⟨t, hrun, sort, result, told, -, parts⟩ := sortRefused hrun hlt
      exact ⟨t, hrun, sort, result, told, parts⟩
    · refine ⟨_, (exec_sortDelete hi hj hreach).trans ?_, sortStart_spec ..⟩
      rw [deleteDo, hfree]
    · refine ⟨_, (exec_sortInvalidate hi hj hreach).trans ?_, sortStart_spec ..⟩
      rw [invalidateDo, hfree]
  case idle =>
    intro hop
    refine congrArg Host.Outcome.next ?_
    rw [updateStep, hop]
  case step =>
    intro op i j n e hop
    obtain ⟨dirty, parts, more, last, entry⟩ := updateStep_spec hop
    refine ⟨_, rfl, dirty, parts, more, last, ?_, ?_, ?_, ?_, ?_⟩ <;> simp only [entry]
    · rintro rfl
      exact sortStep_invalidate ..
    · rintro rfl h
      exact sortStep_insert_move h ..
    · rintro rfl hn hij
      exact sortStep_insert_last hn hij ..
    · rintro rfl h
      exact sortStep_delete_move h ..
    · rintro rfl hn hij
      exact sortStep_delete_last hn hij ..
  case save =>
    intro hreach
    have hrun : completes .sortSave s (saveDo s) := congrArg Host.Outcome.next (guarded_ok _ hreach)
    refine ⟨fun hb => ?_, fun hb => ⟨_, hrun, saveDo_spec hb⟩⟩
    obtain ⟨t, hrun, sort, result, told, -, parts⟩ :=
      sortRefused (r := 1) (hrun.trans (congrArg Host.Outcome.next (if_pos hb))) (by decide)
    exact ⟨t, hrun, sort, result, told, parts⟩
  case saved =>
    intro ok b l cfg hsave
    cases ok with
    | true =>
      obtain ⟨gone, busy, told, arr, shadow, stored⟩ := saveDone_of_stored hsave
      exact ⟨_, rfl, gone, busy, told, arr, shadow, fun _ => stored, fun h => absurd h.symm Bool.false_ne_true⟩
    | false =>
      obtain ⟨gone, busy, told, arr, shadow, failed⟩ := saveDone_of_failed hsave
      exact ⟨_, rfl, gone, busy, told, arr, shadow, fun h => absurd h Bool.false_ne_true, fun _ => failed⟩
  case unsaved =>
    intro ok hsave
    refine congrArg Host.Outcome.next ?_
    rw [saveDone, hsave]
  case auto =>
    refine fun ok => ⟨?_, fun h => congrArg Host.Outcome.next (autosave_of_not h)⟩
    rintro rfl hdirty
    exact ⟨_, rfl, autosave_spec hdirty⟩
  case cfg => exact fun v hreach => ⟨_, congrArg Host.Outcome.next (guarded_ok _ hreach), sortCfg_spec v s⟩
  case rewrite =>
    exact fun i hi hwalk => ⟨⟨_, rfl, shadowRewriteDo_of_shadow hi hwalk⟩, ⟨_, rfl, shadowRewriteDo_of_ue hi hwalk⟩⟩
  case out => exact fun i ue h => congrArg Host.Outcome.next (shadowRewriteDo_of_out h)

end Sys2Proof.Machine
end

/-! ## Tile operations and what they check and write (R65 to R71, R88, R125, R175, R199, R245, R263, R526) -/

section

-- One proof after another: elaborated side by side, the proofs of this text take more memory than its check allows.
set_option Elab.async false

namespace Sys2Proof.Machine

variable {s t u : State} {i j k n r : Nat}

/-! ### The tile page and its events -/

theorem srcOf_baseTile_lt (hk : k < 64) {i : Nat} (_ : i < 32) : srcOf (baseTile k) i < 256 := by
  have hb : blockOf (baseTile k) = some (20, k, baseTile k) := by
    unfold blockOf baseTile
    iterate 20 rw [if_neg (by omega)]
    rw [if_pos (by omega), Nat.add_sub_cancel_left, Nat.mul_div_cancel_left _ (by decide),
      show (0x40000 + 0x1000 * k) / 0x1000 * 0x1000 = 0x40000 + 0x1000 * k by omega]
  simp only [srcOf, hb]
  omega

theorem baseTile_page (k : Nat) : baseTile k % 0x1000 = 0 ∧ baseTile k ≠ 0x5000 := by
  unfold baseTile
  omega

theorem quietReg_tile {a : Nat} (h : 0x40100 + 0x1000 * k ≤ a ∧ a ≤ 0x40134 + 0x1000 * k) : quietReg a = true := by
  refine decide_eq_true ?_
  omega

theorem changesOnly_noteErr (base code detail addr : Nat) (s : State) :
    changesOnly [.regs, .errHeld] s (noteErr base code detail addr s) := by
  unfold noteErr
  split
  · exact .setF (.refl _ s) _ _
  · exact .setR (.setR (.setF (.setF (.errHeld (.refl _ s)) _ _) _ _) _ _) _ _

/-- A register of a page's error record. -/
abbrev errReg (base : Nat) (a : Nat) : Prop := a = Reg.ERR_INFO base ∨ a = Reg.ERR_ADDR_LO base ∨ a = Reg.ERR_ADDR_HI base

theorem regsKept_noteErr (base code detail addr : Nat) (s : State) : regsKept (errReg base) s (noteErr base code detail addr s) :=
  fun a ha => rd_noteErr _ _ _ _ _ _ (fun h => ha (.inl h)) (fun h => ha (.inr (.inl h))) (fun h => ha (.inr (.inr h)))

/-- An event of a tile stands in its EVT_RAW, with its error record. -/
theorem happenTile_spec (hk : k < 64) (hi : i < 32) (s : State) :
    raised (baseTile k) i (happenTile k i s) = true ∧ changesOnly (.errHeld :: eventParts) s (happenTile k i s) ∧
      regsKeptE (errReg (baseTile k)) s (happenTile k i s) := by
  obtain ⟨hpage, hne⟩ := baseTile_page k
  have hsrc := srcOf_baseTile_lt hk hi
  exact ⟨raised_happen _ _ _ hsrc hpage hne hi,
    ((changesOnly_noteErr ..).mono (by decide)).trans (.happen (.refl _ _) _ _ (by decide) hpage hsrc),
    (regsKept.toE (regsKept_noteErr _ _ _ _ s)).trans (.happen (.refl _) _ _ hpage hsrc)⟩

/-- A register of the tile page is no error register of it. -/
theorem not_errReg_tile {a : Nat} (h : 0x40100 + 0x1000 * k ≤ a) : ¬ errReg (baseTile k) a := by
  simp only [errReg, Reg.ERR_INFO, Reg.ERR_ADDR_LO, Reg.ERR_ADDR_HI, baseTile]
  omega

/-- A tile's event leaves the registers of its page alone. -/
theorem rd_happenTile (hk : k < 64) (hi : i < 32) {a : Nat} (h : 0x40100 + 0x1000 * k ≤ a ∧ a ≤ 0x40134 + 0x1000 * k) (s : State) :
    rd (happenTile k i s) a = rd s a :=
  (happenTile_spec hk hi s).2.2 a (not_errReg_tile h.1) (not_eventReg_of_quiet (quietReg_tile h))

/-! ### Staging -/

theorem stageAll_nil (k : Nat) (s : State) : stageAll k [] s = s := by
  unfold stageAll
  have kept : ∀ (l : List Nat) (x : State), l.foldl (fun x j =>
      match ([] : List W32)[j]? with
      | some v => stageWrite k (Reg.TILE_BIND k + 4 * j) v.toNat x
      | none => x) x = x := fun l x => by
    induction l generalizing x with
    | nil => rfl
    | cons a l ih => exact ih x
  exact kept _ s

theorem staging_lt (s : State) (a : Nat) : staging s a < 2 ^ 32 := by
  unfold staging
  split
  · exact BitVec.isLt _
  · exact getR_lt s a

/-- Staging registers that take effect. -/
theorem getR_takeStages (l : List Nat) (s x : State) (a : Nat) :
    getR (l.foldl (fun x a => takeStage s a x) x) a = if a ∈ l then staging s a else getR x a := by
  induction l generalizing x with
  | nil => rfl
  | cons b l ih =>
    rw [List.foldl_cons, ih, takeStage, getR_setR, Nat.mod_eq_of_lt (staging_lt s b)]
    by_cases hab : a = b
    · subst hab
      simp
    · simp [hab]

theorem changesOnly_takeStages (l : List Nat) (s x : State) : changesOnly [.regs] x (l.foldl (fun x a => takeStage s a x) x) :=
  .foldl (.refl _ x) fun _ _ _ => .setR (.refl _ _) _ _

/-! ### Matcher entries taken out -/

/-- An entry as a tile operation leaves it where it takes it out. -/
def takenOut (e : SEnt) : SEnt := { e with valid := false, shadowed := false }

theorem getE_takeOut (l : List (Nat × SEnt)) (s : State) (i : Nat) :
    getE (l.foldl (fun t p => updateE p.1 { getE t p.1 with valid := false, shadowed := false } t) s) i =
      if i ∈ l.map (·.1) then takenOut (getE s i) else getE s i := by
  induction l generalizing s with
  | nil => rfl
  | cons p l ih =>
    rw [List.foldl_cons, ih, getE_updateE]
    by_cases hi : i = p.1
    · subst hi
      simp [takenOut]
    · rw [List.map_cons, if_congr (List.mem_cons.trans (or_iff_right hi)) rfl rfl, if_neg hi]

theorem invalidateAll_spec (f : Nat → Bool) (s : State) :
    (∀ i, f i = true → (getE (invalidateAll f s) i).valid = false) ∧
      (∀ i, f i = false → getE (invalidateAll f s) i = getE s i) ∧
      regsKept (fun a => a = Reg.SORT_STATUS ∨ a = Reg.SORT_UPDATES) s (invalidateAll f s) ∧
      changesOnly [.regs, .sort] s (invalidateAll f s) := by
  unfold invalidateAll
  refine ⟨fun i hi => ?_, fun i hi => ?_, .foldl (.refl s) fun u p _ => (updateE_spec p.1 _ u).2.2.1,
    .foldl (.refl _ s) fun u p _ => (updateE_spec p.1 _ u).2.2.2⟩
  · rw [getE_takeOut]
    split
    · rfl
    · next hnot =>
      rw [getE, tget]
      split
      · next p hp =>
        have hkey : p.1 = i := by simpa using List.find?_some hp
        by_contra hv
        exact hnot (List.mem_map.mpr ⟨p, List.mem_filter.mpr ⟨List.mem_of_find?_eq_some hp, by simpa [hkey, hi] using hv⟩, hkey⟩)
      · rfl
  · rw [getE_takeOut, if_neg]
    intro hmem
    obtain ⟨p, hp, rfl⟩ := List.mem_map.mp hmem
    simp [hi] at hp

/-! ### The end of an operation -/

/-- Saving a page touches the saved copies alone. -/
theorem saveTile_eq (k : Nat) (s : State) :
    ∃ nv stage, saveTile k s = { s with tiles := { s.tiles with nv := nv, nvStage := stage } } := ⟨_, _, rfl⟩

/-- An operation that is accepted: its result is noted, and the page is saved. -/
structure OpNoted (k : Nat) (s t : State) : Prop where
  result : getF t (F.TILE_STATE_RESULT k) = tileOk
  state : tileState t k = tileState s k
  kept : regsKept (· = Reg.TILE_STATE k) s t
  sharesDue : t.tiles.sharesDue = s.tiles.sharesDue
  parts : changesOnly [.regs, .tiles] s t

theorem opNoted (k : Nat) (s : State) : OpNoted k s (saveTile k (setF (F.TILE_STATE_RESULT k) tileOk s)) := by
  have hok : (F.TILE_STATE_RESULT k).ok := by simp [Fld.ok]
  generalize hx : setF (F.TILE_STATE_RESULT k) tileOk s = x
  have result : getF x (F.TILE_STATE_RESULT k) = tileOk := by
    rw [← hx, getF_setF_same _ _ _ hok]
    rfl
  have state : tileState x k = tileState s k := by
    rw [tileState, ← hx, getF_setF_apart _ _ _ _ hok (.inl (by simp))]
    rfl
  have kept : regsKept (· = Reg.TILE_STATE k) s x := hx ▸ .setF (.refl s) _ _ rfl
  have tiles : x.tiles = s.tiles := hx ▸ setF_tiles ..
  have parts : changesOnly [.regs, .tiles] s x := hx ▸ .setF (.refl _ s) _ _
  obtain ⟨nv, stage, hsave⟩ := saveTile_eq k x
  rw [hsave]
  generalize hy : ({ x with tiles := { x.tiles with nv := nv, nvStage := stage } } : State) = y
  have regs : y.regs = x.regs := hy ▸ rfl
  have due : y.tiles.sharesDue = x.tiles.sharesDue := hy ▸ rfl
  have saved : changesOnly [.tiles] x y := hy ▸ .tiles (.refl _ x)
  exact ⟨(getF_congr _ regs).trans result, (getF_congr _ regs).trans state, kept.congr regs, due.trans (congrArg TileSt.sharesDue tiles),
    parts.trans (saved.mono (by decide))⟩

theorem tileOp_of_refused {op : Nat} (h : tileCheck s k op = r) (hr : r ≠ tileOk) :
    (tileOp k op [] s).2 = happenTile k 0 (setF (F.TILE_STATE_RESULT k) r s) := by
  unfold tileOp
  dsimp only
  rw [stageAll_nil, h, if_pos hr]

/-- A refused operation leaves its result and its event, and the tile in its state. -/
theorem tileRefused_spec (hk : k < 64) (hr : r < 16) (s : State) :
    getF (happenTile k 0 (setF (F.TILE_STATE_RESULT k) r s)) (F.TILE_STATE_RESULT k) = r ∧
      tileState (happenTile k 0 (setF (F.TILE_STATE_RESULT k) r s)) k = tileState s k ∧
      raised (baseTile k) 0 (happenTile k 0 (setF (F.TILE_STATE_RESULT k) r s)) = true ∧
      changesOnly (.errHeld :: eventParts) s (happenTile k 0 (setF (F.TILE_STATE_RESULT k) r s)) ∧
      regsKeptE (fun a => a = Reg.TILE_STATE k ∨ errReg (baseTile k) a) s (happenTile k 0 (setF (F.TILE_STATE_RESULT k) r s)) := by
  have hok : (F.TILE_STATE_RESULT k).ok := by simp [Fld.ok]
  generalize hx : setF (F.TILE_STATE_RESULT k) r s = x
  have result : getF x (F.TILE_STATE_RESULT k) = r := by
    rw [← hx, getF_setF_same _ _ _ hok]
    exact Nat.mod_eq_of_lt hr
  have state : tileState x k = tileState s k := by
    rw [tileState, ← hx, getF_setF_apart _ _ _ _ hok (.inl (by simp))]
    rfl
  have kept : regsKeptE (fun a => a = Reg.TILE_STATE k ∨ errReg (baseTile k) a) s x := hx ▸ .setF (.refl s) _ _ (.inl rfl)
  have parts : changesOnly (.errHeld :: eventParts) s x := hx ▸ .setF (.refl _ s) _ _
  obtain ⟨told, tparts, tkept⟩ := happenTile_spec hk (i := 0) (by decide) x
  have page : rd (happenTile k 0 x) (Reg.TILE_STATE k) = rd x (Reg.TILE_STATE k) := rd_happenTile hk (by decide) (by simp only [Reg.TILE_STATE]; omega) x
  exact ⟨(getF_of_rd page).trans result, (getF_of_rd page).trans state, told, parts.trans tparts,
    fun a ha he => (tkept a (fun h => ha (.inr h)) he).trans (kept a ha he)⟩

end Sys2Proof.Machine
end

/-! ## What a tile operation does where it is accepted (R65 to R71, R88, R175, R526) -/

section

-- One proof after another: elaborated side by side, the proofs of this text take more memory than its check allows.
set_option Elab.async false

namespace Sys2Proof.Machine

variable {s t u : State} {i j k n r op : Nat}

/-! ### Registers of the page -/

theorem mem_stageRegs_range {a : Nat} (h : a ∈ stageRegs k) : 0x40108 + 0x1000 * k ≤ a ∧ a ≤ 0x40128 + 0x1000 * k := by
  simp only [stageRegs, List.mem_cons, List.not_mem_nil, or_false, Reg.TILE_BIND, Reg.TILE_DIE_SHARE, Reg.TILE_YARD,
    Reg.TILE_QUEUES, Reg.TILE_CMDS, Reg.TILE_NS, Reg.TILE_ZONES, Reg.TILE_COURSES, Reg.TILE_SORT] at h
  omega

/-- A register of the tile page is none of the matcher's. -/
theorem not_sortReg_tile {a : Nat} (h : 0x40100 ≤ a) : ¬ (a = Reg.SORT_STATUS ∨ a = Reg.SORT_UPDATES) := by
  simp only [Reg.SORT_STATUS, Reg.SORT_UPDATES]
  omega

/-- TILE_STATE alone changes as a tile moves to state `n`. -/
theorem tileTo_spec (hn : n < 8) (k : Nat) (s : State) :
    tileState (tileTo k n s) k = n ∧ regsKept (· = Reg.TILE_STATE k) s (tileTo k n s) ∧ changesOnly [.regs] s (tileTo k n s) := by
  refine ⟨?_, .setF (.refl s) _ _ rfl, .setF (.refl _ s) _ _⟩
  rw [tileState, tileTo, getF_setF_same _ _ _ (by simp [Fld.ok])]
  exact Nat.mod_eq_of_lt hn

theorem showPort_spec (k : Nat) (s : State) :
    getF (showPort k s) (F.TILE_BIND_FN k) = getF s (F.TILE_BIND_FN k) ∧
      getF (showPort k s) (F.TILE_BIND_BOUND k) = getF s (F.TILE_BIND_BOUND k) ∧
      regsKept (· = Reg.TILE_BIND k) s (showPort k s) ∧ changesOnly [.regs] s (showPort k s) := by
  have hok : (F.TILE_BIND_PORT k).ok := by simp [Fld.ok]
  exact ⟨getF_setF_apart _ _ _ _ hok (.inl (by simp)), getF_setF_apart _ _ _ _ hok (.inl (by simp)), .setF (.refl s) _ _ rfl,
    .setF (.refl _ s) _ _⟩

theorem clearTileStage_spec (k : Nat) (s : State) :
    (clearTileStage k s).regs = s.regs ∧ (clearTileStage k s).tiles.sharesDue = s.tiles.sharesDue ∧
      changesOnly [.tiles] s (clearTileStage k s) := ⟨rfl, rfl, .tiles (.refl _ s)⟩

/-! ### PROVISION -/

/-- Every staged value takes effect at once, the binding with its port, and the matcher entries that move are taken out. -/
structure Provisioned (k : Nat) (s t : State) : Prop where
  state : tileState t k = tStopped
  values : ∀ a ∈ stageRegs k, a ≠ Reg.TILE_BIND k → getR t a = staging s a
  fn : getF t (F.TILE_BIND_FN k) = bitsOf (staging s (Reg.TILE_BIND k)) 0 6
  bound : getF t (F.TILE_BIND_BOUND k) = bitsOf (staging s (Reg.TILE_BIND k)) 6 1
  moved : ∀ i, sortMoved s k i = true → (getE t i).valid = false
  stays : ∀ i, sortMoved s k i = false → getE t i = getE s i
  parts : changesOnly [.regs, .sort, .tiles] s t

theorem Provisioned.congr (h : Provisioned k s t) (hr : regsKept (· = Reg.TILE_STATE k) t u) (hs : tileState u k = tileState t k)
    (hp : changesOnly [.regs, .tiles] t u) : Provisioned k s u where
  state := hs.trans h.state
  values a ha hb := (hr.getR (by have := mem_stageRegs_range ha; simp only [Reg.TILE_STATE]; omega)).trans (h.values a ha hb)
  fn := (hr.getF (by simp)).trans h.fn
  bound := (hr.getF (by simp)).trans h.bound
  moved i hi := (congrArg SEnt.valid (getE_congr (congrArg SortSt.shadow hp.sort_eq) i)).trans (h.moved i hi)
  stays i hi := (getE_congr (congrArg SortSt.shadow hp.sort_eq) i).trans (h.stays i hi)
  parts := h.parts.trans (hp.mono (by decide))

theorem provisioned (k : Nat) (s : State) : Provisioned k s (clearTileStage k (provision k s)) := by
  obtain ⟨moved, stays, -, iparts⟩ := invalidateAll_spec (sortMoved s k) s
  unfold provision
  dsimp only
  generalize invalidateAll (sortMoved s k) s = x at *
  have values := getR_takeStages (stageRegs k) s x
  have taken := changesOnly_takeStages (stageRegs k) s x
  generalize (stageRegs k).foldl (fun x a => takeStage s a x) x = y at *
  obtain ⟨fn, bound, shown, sparts⟩ := showPort_spec k y
  generalize showPort k y = z at *
  obtain ⟨state, skept, tparts⟩ := tileTo_spec (n := tStopped) (by decide) k z
  generalize tileTo k tStopped z = w at *
  have hbind : getR y (Reg.TILE_BIND k) = staging s (Reg.TILE_BIND k) :=
    (values _).trans (if_pos (by simp [stageRegs]))
  have shadow : w.sort = x.sort := tparts.sort_eq.trans (sparts.sort_eq.trans taken.sort_eq)
  have done : Provisioned k s w :=
    { state
      values := fun a ha hb => by
        have hne : a ≠ Reg.TILE_STATE k := by
          have := mem_stageRegs_range ha
          simp only [Reg.TILE_STATE]
          omega
        rw [skept.getR hne, shown.getR hb, values, if_pos ha]
      fn := by rw [skept.getF (by simp), fn, getF, hbind]
      bound := by rw [skept.getF (by simp), bound, getF, hbind]
      moved := fun i hi => by rw [getE_congr (congrArg SortSt.shadow shadow), moved i hi]
      stays := fun i hi => by rw [getE_congr (congrArg SortSt.shadow shadow), stays i hi]
      parts := (((iparts.mono (by decide)).trans (taken.mono (by decide))).trans (sparts.mono (by decide))).trans
        (tparts.mono (by decide)) }
  have cleared : ∀ v : State, v.regs = w.regs → changesOnly [.tiles] w v → Provisioned k s (clearTileStage k v) := fun v hr hp =>
    done.congr (regsKept.of_regs hr) (getF_congr (s := w) _ hr) ((hp.trans (clearTileStage_spec k v).2.2).mono (by decide))
  split
  · exact cleared _ rfl (.tiles (.refl _ w))
  · exact cleared _ rfl (.refl _ w)

/-! ### SET_SHARES -/

/-- The limits take effect at once, and the shares at the next header beat. -/
theorem sharesSet (k : Nat) (s : State) :
    tileState (clearTileStage k (setShares k s)) k = tileState s k ∧
      (∀ a ∈ stageRegs k, a ≠ Reg.TILE_BIND k → a ≠ Reg.TILE_DIE_SHARE k → a ≠ Reg.TILE_YARD k →
        getR (clearTileStage k (setShares k s)) a = staging s a) ∧
      rd (clearTileStage k (setShares k s)) (Reg.TILE_DIE_SHARE k) = rd s (Reg.TILE_DIE_SHARE k) ∧
      rd (clearTileStage k (setShares k s)) (Reg.TILE_YARD k) = rd s (Reg.TILE_YARD k) ∧
      (k, BitVec.ofNat 32 (staging s (Reg.TILE_DIE_SHARE k)), BitVec.ofNat 32 (staging s (Reg.TILE_YARD k))) ∈
        (clearTileStage k (setShares k s)).tiles.sharesDue ∧
      changesOnly [.regs, .sort, .tiles] s (clearTileStage k (setShares k s)) := by
  obtain ⟨-, -, ikept, iparts⟩ := invalidateAll_spec (sortMoved s k) s
  unfold setShares
  dsimp only
  generalize invalidateAll (sortMoved s k) s = x at *
  generalize hl : [Reg.TILE_QUEUES k, Reg.TILE_CMDS k, Reg.TILE_NS k, Reg.TILE_ZONES k, Reg.TILE_COURSES k, Reg.TILE_SORT k] = l
  have values := getR_takeStages l s x
  have taken := changesOnly_takeStages l s x
  generalize l.foldl (fun x a => takeStage s a x) x = y at *
  generalize hz : ({ y with tiles := _ } : State) = z
  have regs : z.regs = y.regs := hz ▸ rfl
  have due : (k, BitVec.ofNat 32 (staging s (Reg.TILE_DIE_SHARE k)), BitVec.ofNat 32 (staging s (Reg.TILE_YARD k))) ∈
      z.tiles.sharesDue := by
    rw [← hz]
    exact List.mem_append_right _ (List.mem_singleton.mpr rfl)
  have zparts : changesOnly [.tiles] y z := hz ▸ .tiles (.refl _ y)
  obtain ⟨cregs, cdue, cparts⟩ := clearTileStage_spec k z
  generalize clearTileStage k z = w at *
  have kept : ∀ a, 0x40100 ≤ a → a ∉ l → rd w a = rd s a := fun a ha hnot => BitVec.eq_of_toNat_eq <| by
    change getR w a = getR s a
    rw [getR_congr a (cregs.trans regs), values, if_neg hnot, ikept.getR (not_sortReg_tile ha)]
  subst hl
  refine ⟨getF_of_rd (kept _ (by simp only [Reg.TILE_STATE]; omega) (by simp)), fun a ha hb hd hy => ?_,
    kept _ (by simp only [Reg.TILE_DIE_SHARE]; omega) (by simp), kept _ (by simp only [Reg.TILE_YARD]; omega) (by simp),
    cdue ▸ due, ?_⟩
  · rw [getR_congr a (cregs.trans regs), values, if_pos]
    simpa [stageRegs, hb, hd, hy] using ha
  · exact (((iparts.mono (by decide)).trans (taken.mono (by decide))).trans (zparts.mono (by decide))).trans
      (cparts.mono (by decide))

/-! ### START and RELEASE -/

theorem getNs_attach (l : List (Nat × Ns)) (s : State) (n : Nat) :
    getNs (l.foldl (fun x p => setNs p.1 { getNs x p.1 with attached := true } x) s) n =
      if n ∈ l.map (·.1) then { getNs s n with attached := true } else getNs s n := by
  induction l generalizing s with
  | nil => rfl
  | cons p l ih =>
    rw [List.foldl_cons, ih]
    by_cases hn : n = p.1
    · subst hn
      simp [getNs, setNs]
    · rw [List.map_cons, if_congr (List.mem_cons.trans (or_iff_right hn)) rfl rfl]
      simp only [getNs, setNs, tget_tset_ne _ _ _ hn]

theorem startTile_spec (k : Nat) (s : State) :
    tileState (startTile k s) k = tActive ∧ (∀ p ∈ s.host.ns, p.2.tile = k → (getNs (startTile k s) p.1).attached = true) ∧
      regsKept (· = Reg.TILE_STATE k) s (startTile k s) ∧ changesOnly [.regs, .host] s (startTile k s) := by
  unfold startTile
  dsimp only
  have attached := getNs_attach (s.host.ns.filter (fun p => decide (p.2.tile = k))) s
  have parts : changesOnly [.host] s ((s.host.ns.filter (fun p => decide (p.2.tile = k))).foldl
      (fun x p => setNs p.1 { getNs x p.1 with attached := true } x) s) := .foldl (.refl _ s) fun _ _ _ => .host (.refl _ _)
  generalize (s.host.ns.filter (fun p => decide (p.2.tile = k))).foldl
    (fun x p => setNs p.1 { getNs x p.1 with attached := true } x) s = y at *
  obtain ⟨state, kept, tparts⟩ := tileTo_spec (n := tActive) (by decide) k y
  refine ⟨state, fun p hp htile => ?_, (regsKept.of_regs parts.regs_eq).trans kept,
    (parts.mono (by decide)).trans (tparts.mono (by decide))⟩
  rw [getNs, tparts.host_eq, ← getNs, attached, if_pos]
  exact List.mem_map.mpr ⟨p, List.mem_filter.mpr ⟨hp, decide_eq_true htile⟩, rfl⟩

theorem releaseTile_spec (k : Nat) (s : State) :
    tileState (releaseTile k s) k = tScrubbing ∧ getF (releaseTile k s) (F.TILE_BIND_BOUND k) = 0 := by
  unfold releaseTile
  extract_lets s1 s2 s3 s4 s5
  generalize ({ s5 with tiles := _ } : State) = x
  generalize hy : setF (F.TILE_BIND_BOUND k) 0 x = y
  have bound : getF y (F.TILE_BIND_BOUND k) = 0 := by
    rw [← hy, getF_setF_same _ _ _ (by simp [Fld.ok]), Nat.zero_mod]
  obtain ⟨state, kept, -⟩ := tileTo_spec (n := tScrubbing) (by decide) k (setF (F.TILE_BIND_PORT k) 0 y)
  exact ⟨state, by rw [kept.getF (by simp), getF_setF_apart _ _ _ _ (by simp [Fld.ok]) (.inl (by simp)), bound]⟩

theorem released (k : Nat) (s : State) :
    tileState (clearTileStage k (releaseTile k s)) k = tScrubbing ∧
      getF (clearTileStage k (releaseTile k s)) (F.TILE_BIND_BOUND k) = 0 := by
  obtain ⟨state, bound⟩ := releaseTile_spec k s
  generalize releaseTile k s = x at *
  obtain ⟨regs, -, -⟩ := clearTileStage_spec k x
  exact ⟨(getF_congr _ regs).trans state, (getF_congr _ regs).trans bound⟩

/-! ### The row -/

/-- What an accepted operation does before it is noted. -/
def tileEffect (k op : Nat) (s : State) : State :=
  match op with
  | 1 => clearTileStage k (provision k s)
  | 2 => startTile k s
  | 3 => tileTo k tQuiescing s
  | 4 => clearTileStage k (releaseTile k s)
  | _ => clearTileStage k (setShares k s)

theorem tileOp_of_ok (h : tileCheck s k op = tileOk) : OpNoted k (tileEffect k op s) (tileOp k op [] s).2 := by
  have heq : (tileOp k op [] s).2 = saveTile k (setF (F.TILE_STATE_RESULT k) tileOk (tileEffect k op s)) := by
    unfold tileOp
    dsimp only
    rw [stageAll_nil, if_neg (not_not.mpr h)]
    rfl
  exact heq ▸ opNoted ..

theorem overcommit_mem (s : State) (k : Nat) : overcommit s k ∈ [0, 3, 4, 5, 6, 9] := by
  unfold overcommit
  split_ifs <;> decide

/-- The results of R66: none of them is 1, which is the answer while an operation runs. -/
theorem tileCheck_mem (s : State) (k op : Nat) : tileCheck s k op ∈ [0, 2, 3, 4, 5, 6, 7, 8, 9, 10] := by
  have more : overcommit s k ∈ [0, 2, 3, 4, 5, 6, 7, 8, 9, 10] := by
    have h := overcommit_mem s k
    simp only [List.mem_cons, List.not_mem_nil, or_false] at h ⊢
    omega
  unfold tileCheck
  split <;> dsimp only <;> split_ifs <;> simp [more, tileOk, badMode, tileBadState, fnInUse, tile0Fixed, overOther]

theorem exec_tileOp {c : Instr} (hrow : tileOpRow c = some (k, op, none)) (hk : k < 64) (hrun : running s = true)
    (hreach : reach s (Reg.TILE_CMD k) = .ok) : exec c s = .next (tileOp k op [] s).2 := by
  rw [(exec_tileOpRow hrow).1, tileRow, if_neg (by simp [hrun, hk])]
  exact congrArg Host.Outcome.next (guarded_ok _ hreach)

theorem exec_tileOp_admin {c : Instr} {req : TileReq} (hrow : tileOpRow c = some (k, op, some req)) (hk : k < 64)
    (hrun : running s = true) (ht : takeCmd req.h s = some u) (hpf : isPF0 s req.h.fn = true) (hmode : modeNow s ≠ modeSanitize) :
    completes c s (answer req.h (.admin 0xC1)
      (if (tileOp k op req.staging u).1 = tileOk then stOk else stTileRefused false)
      (tileOp k op req.staging u).1 [] (tileOp k op req.staging u).2) := by
  have hres : (tileOp k op req.staging u).1 ≠ 1 := by
    unfold tileOp
    dsimp only
    have hmem := tileCheck_mem (stageAll k req.staging u) k op
    split
    · exact fun h => absurd ((congrArg (· ∈ [0, 2, 3, 4, 5, 6, 7, 8, 9, 10]) h).mp hmem) (by decide)
    · exact Nat.zero_ne_one
  refine (exec_tileOpRow hrow).1.trans (congrArg Host.Outcome.next ?_)
  rw [tileRow, if_neg (by simp [hrun, hk])]
  dsimp only
  rw [adminCmd_of_served ht ⟨.inr hpf, fun h => absurd h hmode, fun _ => rfl, fun _ => rfl⟩, decide_eq_false hres]

end Sys2Proof.Machine
end

/-! ## Tiles are operated (R65 to R71, R125, R199, R218, R245, R263, R526) -/

section

-- One proof after another: elaborated side by side, the proofs of this text take more memory than its check allows.
set_option Elab.async false

namespace Sys2Proof.Machine

variable {s t u : State} {i j k n r op ch : Nat}

/-! ### QUIESCING and SCRUBBING -/

/-- A move of a tile that is saved, with its event. -/
theorem tileMoved_spec (hk : k < 64) (hi : i < 32) {x : State} (hx : changesOnly [.regs, .tiles] s x) :
    tileState (happenTile k i (saveTile k x)) k = tileState x k ∧ raised (baseTile k) i (happenTile k i (saveTile k x)) = true ∧
      (∀ a, 0x40100 + 0x1000 * k ≤ a ∧ a ≤ 0x40134 + 0x1000 * k → rd (happenTile k i (saveTile k x)) a = rd x a) ∧
      changesOnly (.tiles :: .errHeld :: eventParts) s (happenTile k i (saveTile k x)) := by
  obtain ⟨nv, stage, hsave⟩ := saveTile_eq k x
  rw [hsave]
  generalize hy : ({ x with tiles := { x.tiles with nv := nv, nvStage := stage } } : State) = y
  have regs : y.regs = x.regs := hy ▸ rfl
  have saved : changesOnly [.tiles] x y := hy ▸ .tiles (.refl _ x)
  obtain ⟨told, parts, -⟩ := happenTile_spec hk hi y
  have page : ∀ a, 0x40100 + 0x1000 * k ≤ a ∧ a ≤ 0x40134 + 0x1000 * k → rd (happenTile k i y) a = rd x a := fun a ha =>
    (rd_happenTile hk hi ha y).trans (rd_congr regs a)
  exact ⟨getF_of_rd (page _ (by simp only [Reg.TILE_STATE]; omega)), told, page,
    ((hx.mono (by decide)).trans (saved.mono (by decide))).trans (parts.mono (by decide))⟩

theorem quiesced_of_idle (hk : k < 64) (hstate : tileState s k = tQuiescing)
    (hcmds : ∀ p ∈ s.host.cmds, p.2.tile = some k → p.2.kind = .aer)
    (hsqs : ∀ fn, fnOfTile s k = some fn → ∀ p ∈ s.host.sqs, p.1 / 8192 = fn → p.2.granted = 0) (hheld : tileHeld s k = false) :
    quiesced k s = happenTile k 1 (saveTile k (tileTo k tStopped s)) := by
  unfold quiesced
  dsimp only
  refine if_pos ⟨hk, hstate, ?_, ?_, by simp [hheld]⟩
  · rw [Bool.not_eq_true', List.any_eq_false]
    intro p hp hbad
    rw [Bool.and_eq_true, decide_eq_true_eq, decide_eq_true_eq] at hbad
    exact hbad.2 (hcmds p hp hbad.1)
  · rw [Bool.not_eq_true']
    cases hfn : fnOfTile s k with
    | none => rfl
    | some fn =>
      refine List.any_eq_false.mpr fun p hp hbad => ?_
      rw [Bool.and_eq_true, decide_eq_true_eq, decide_eq_true_eq] at hbad
      exact hbad.2 (hsqs fn hfn p hp hbad.1)

/-- A tile whose last command has ended and whose slots are programmed is STOPPED. -/
theorem quiesced_spec (hk : k < 64) (hstate : tileState s k = tQuiescing)
    (hcmds : ∀ p ∈ s.host.cmds, p.2.tile = some k → p.2.kind = .aer)
    (hsqs : ∀ fn, fnOfTile s k = some fn → ∀ p ∈ s.host.sqs, p.1 / 8192 = fn → p.2.granted = 0) (hheld : tileHeld s k = false) :
    tileState (quiesced k s) k = tStopped ∧ raised (baseTile k) 1 (quiesced k s) = true ∧
      changesOnly (.tiles :: .errHeld :: eventParts) s (quiesced k s) := by
  rw [quiesced_of_idle hk hstate hcmds hsqs hheld]
  obtain ⟨state, -, parts⟩ := tileTo_spec (n := tStopped) (by decide) k s
  generalize tileTo k tStopped s = x at *
  obtain ⟨hstate, told, -, tparts⟩ := tileMoved_spec (s := s) (i := 1) hk (by decide) (parts.mono (by decide))
  exact ⟨hstate.trans state, told, tparts⟩

theorem quiesced_of_other (h : tileState s k ≠ tQuiescing) : quiesced k s = s := if_neg fun hall => h hall.2.1

/-- Registers that go to their reset values. -/
theorem rd_resetRegs (l : List Nat) (s : State) (a : Nat) :
    rd (l.foldl (fun x a => setR a (resetValue a).toNat x) s) a = if a ∈ l then resetValue a else rd s a := by
  induction l generalizing s with
  | nil => rfl
  | cons b l ih =>
    rw [List.foldl_cons, ih]
    by_cases hab : a = b
    · subst hab
      rw [rd_setR_same, BitVec.ofNat_toNat, BitVec.setWidth_eq, ite_self, if_pos List.mem_cons_self]
    · rw [rd_setR_ne _ _ hab, if_congr (List.mem_cons.trans (or_iff_right hab)) rfl rfl]

theorem scrubbed_of_erased (hk : k < 64) (hstate : tileState s k = tScrubbing)
    (hcourses : ∀ p ∈ s.map.courses, p.2.tile = k → p.2.use = .none) :
    tileState (scrubbed k s) k = tFree ∧ raised (baseTile k) 2 (scrubbed k s) = true ∧
      (∀ a ∈ stageRegs k, rd (scrubbed k s) a = resetValue a) ∧
      changesOnly (.tiles :: .errHeld :: eventParts) s (scrubbed k s) := by
  have erased : (s.map.courses.any (fun p => decide (p.2.tile = k) && decide (p.2.use ≠ .none))) = false := by
    refine List.any_eq_false.mpr fun p hp hbad => ?_
    rw [Bool.and_eq_true, decide_eq_true_eq, decide_eq_true_eq] at hbad
    exact hbad.2 (hcourses p hp hbad.1)
  have values := rd_resetRegs (Reg.TILE_EVT_VIS k :: stageRegs k) s
  have parts : changesOnly [.regs] s ((Reg.TILE_EVT_VIS k :: stageRegs k).foldl (fun x a => setR a (resetValue a).toNat x) s) :=
    .foldl (.refl _ s) fun _ _ _ => .setR (.refl _ _) _ _
  unfold scrubbed
  dsimp only
  rw [if_pos ⟨hk, hstate, by rw [erased]; rfl⟩]
  generalize (Reg.TILE_EVT_VIS k :: stageRegs k).foldl (fun x a => setR a (resetValue a).toNat x) s = x at *
  obtain ⟨state, tkept, tparts⟩ := tileTo_spec (n := tFree) (by decide) k x
  generalize tileTo k tFree x = y at *
  obtain ⟨cregs, -, cparts⟩ := clearTileStage_spec k y
  generalize clearTileStage k y = z at *
  obtain ⟨hstate, told, page, hparts⟩ := tileMoved_spec (s := s) (i := 2) hk (by decide) (x := z)
    (((parts.mono (by decide)).trans (tparts.mono (by decide))).trans (cparts.mono (by decide)))
  refine ⟨hstate.trans ((getF_congr _ cregs).trans state), told, fun a ha => ?_, hparts⟩
  have hrange := mem_stageRegs_range ha
  rw [page a (by omega), rd_congr cregs, tkept a (by simp only [Reg.TILE_STATE]; omega), values,
    if_pos (List.mem_cons_of_mem _ ha)]

theorem scrubbed_of_other (h : tileState s k ≠ tScrubbing) : scrubbed k s = s := if_neg fun hall => h hall.2.1

/-! ### YARD_CFG and TROWEL_BUDGET -/

theorem bitsOf_mod (v lo w : Nat) : bitsOf v lo w % 2 ^ w = bitsOf v lo w := Nat.mod_mod ..

theorem yardCfg_of_refused {v : W32} (h : 2048 - (16 * muPerWave s (userCell s) + max 16 (bitsOf v.toNat 0 6)) < yardMinSum s) :
    getF (yardCfg v s) F.YARD_STATUS_CFG_REFUSED = 1 ∧ getF (yardCfg v s) F.YARD_CFG_EXTRA = getF s F.YARD_CFG_EXTRA ∧
      getF (yardCfg v s) F.YARD_CFG_PALLET_IDLE = bitsOf v.toNat 8 8 ∧
      regsKept (fun a => a = Reg.YARD_CFG ∨ a = Reg.YARD_STATUS) s (yardCfg v s) ∧ changesOnly [.regs] s (yardCfg v s) := by
  unfold yardCfg
  dsimp only
  rw [if_pos h]
  refine ⟨getF_setF_same _ _ _ (by unfold Fld.ok; decide), ?_, ?_, .setF (.setF (.refl s) _ _ (.inl rfl)) _ _ (.inr rfl),
    .setF (.setF (.refl _ s) _ _) _ _⟩
  · rw [getF_setF_ne _ _ _ _ (by decide), getF_setF_apart _ _ _ _ (by unfold Fld.ok; decide) (by decide)]
  · rw [getF_setF_ne _ _ _ _ (by decide), getF_setF_same _ _ _ (by unfold Fld.ok; decide)]
    exact bitsOf_mod ..

theorem yardCfg_of_taken {v : W32} (h : yardMinSum s ≤ 2048 - (16 * muPerWave s (userCell s) + max 16 (bitsOf v.toNat 0 6))) :
    getF (yardCfg v s) F.YARD_CFG_EXTRA = bitsOf v.toNat 0 6 ∧ getF (yardCfg v s) F.YARD_CFG_PALLET_IDLE = bitsOf v.toNat 8 8 ∧
      regsKept (· = Reg.YARD_CFG) s (yardCfg v s) ∧ changesOnly [.regs] s (yardCfg v s) := by
  unfold yardCfg
  dsimp only
  rw [if_neg (Nat.not_lt.mpr h)]
  refine ⟨?_, ?_, regsKept.setF (but := (· = Reg.YARD_CFG)) (.setF (.refl s) F.YARD_CFG_PALLET_IDLE _ rfl) F.YARD_CFG_EXTRA _ rfl,
    .setF (.setF (.refl _ s) _ _) _ _⟩
  · rw [getF_setF_same _ _ _ (by unfold Fld.ok; decide)]
    exact bitsOf_mod ..
  · rw [getF_setF_apart _ _ _ _ (by unfold Fld.ok; decide) (by decide), getF_setF_same _ _ _ (by unfold Fld.ok; decide)]
    exact bitsOf_mod ..

theorem budgetWrite_of_over {v : W32} (h : 4096 < bitsOf v.toNat 0 13 +
      (notFree s).foldl (fun n k => n + bitsOf (held s k (Reg.TILE_DIE_SHARE k)) 0 13) 0) :
    getF (budgetWrite v s) F.TROWEL_STATUS_CFG_REFUSED = 1 ∧ regsKept (· = Reg.TROWEL_STATUS) s (budgetWrite v s) ∧
      changesOnly [.regs] s (budgetWrite v s) := by
  unfold budgetWrite
  dsimp only
  rw [if_pos h]
  exact ⟨getF_setF_same _ _ _ (by unfold Fld.ok; decide), .setF (.refl s) _ _ rfl, .setF (.refl _ s) _ _⟩

theorem budgetWrite_of_fit {v : W32} (h : bitsOf v.toNat 0 13 +
      (notFree s).foldl (fun n k => n + bitsOf (held s k (Reg.TILE_DIE_SHARE k)) 0 13) 0 ≤ 4096) :
    getF (budgetWrite v s) F.TROWEL_BUDGET_SHARE = bitsOf v.toNat 0 13 ∧ regsKept (· = Reg.TROWEL_BUDGET) s (budgetWrite v s) ∧
      changesOnly [.regs] s (budgetWrite v s) := by
  unfold budgetWrite
  dsimp only
  rw [if_neg (Nat.not_lt.mpr h)]
  refine ⟨?_, .setF (.refl s) _ _ rfl, .setF (.refl _ s) _ _⟩
  rw [getF_setF_same _ _ _ (by unfold Fld.ok; decide)]
  exact bitsOf_mod ..

/-! ### A channel's retrain -/

theorem retrain_of_good (ch : Nat) (s : State) :
    tget zeroD (fchRetrainDo ch true s).trowel.retrains ch = 0 ∧ xferLimit (fchRetrainDo ch true s) ch = false ∧
      changesOnly [.trowel] s (fchRetrainDo ch true s) := by
  unfold fchRetrainDo xferGood
  rw [if_pos rfl]
  refine ⟨tget_terase_same, ?_, .trowel (.trowel (.refl _ s))⟩
  unfold xferLimit
  dsimp only
  rw [tget_terase_same, decide_eq_false, Bool.false_and]
  unfold getNZ zeroD
  split <;> omega

/-- The retrains that did not clear a channel's fault, with one more. -/
def retrainNoted (ch : Nat) (s : State) : State := { s with trowel := { s.trowel with retrains := bumpT ch s.trowel.retrains } }

theorem retrains_noted (ch : Nat) (s : State) :
    tget zeroD (retrainNoted ch s).trowel.retrains ch = tget zeroD s.trowel.retrains ch + 1 := by
  change tget zeroD (bumpT ch s.trowel.retrains) ch = _
  exact tget_tset_same ..

theorem retrain_of_single (h : tget zeroD s.trowel.retrains ch = 0 ∨ xferLimit s ch = false) :
    fchRetrainDo ch false s = retrainNoted ch s := by
  refine (if_neg Bool.false_ne_true).trans (if_neg ?_)
  rintro ⟨htwo, hlimit⟩
  rcases h with h | h
  · have := retrains_noted ch s
    unfold retrainNoted at this
    omega
  · exact Bool.false_ne_true (h.symm.trans hlimit)

theorem retrain_of_second (h : 1 ≤ tget zeroD s.trowel.retrains ch) (hlimit : xferLimit s ch = true) :
    fchRetrainDo ch false s = loseChannel ch (retrainNoted ch s) := by
  refine (if_neg Bool.false_ne_true).trans (if_pos ⟨?_, hlimit⟩)
  have := retrains_noted ch s
  unfold retrainNoted at this
  omega

theorem exec_fchRetrain (hch : ch < width s) (hlost : chLost s ch = false) (ok : Bool) :
    exec (.fchRetrain ch ok) s = .next (fchRetrainDo ch ok s) :=
  congrArg Host.Outcome.next (if_pos ⟨hch, by simp [hlost]⟩)

/-! ### The obligation -/

/-- Settles O38: each operation by its row, its check and its effect. -/
theorem tilesAreOperated : Obligations.TilesAreOperated := by
  unfold Obligations.TilesAreOperated
  refine ⟨fun s k hk hrun => ⟨fun hreach => ⟨?refused, ?provision, ?start, ?stop, ?release, ?shares⟩, ?vendor, ?quiesced, ?still,
    ?scrubbed, ?unscrubbed⟩, fun s v => ⟨?yard, ?budget, ?retrain, ?away⟩⟩
  case refused =>
    intro c r hc hr
    obtain ⟨op, hrow, hcheck⟩ : ∃ op, tileOpRow c = some (k, op, none) ∧ tileCheck s k op = r := by
      rcases hc with ⟨rfl, rfl⟩ | ⟨rfl, h⟩ | ⟨rfl, hst, rfl⟩ | ⟨rfl, h⟩ | ⟨rfl, h⟩
      · exact ⟨1, rfl, rfl⟩
      · refine ⟨2, rfl, ?_⟩
        rcases h with ⟨hk0, hm, rfl⟩ | ⟨h, hst, rfl⟩
        · simp [tileCheck, hk0, hm]
        · simp only [tileCheck]
          rw [if_neg, if_pos hst]
          rcases h with rfl | h <;> simp [*]
      · exact ⟨3, rfl, if_pos hst⟩
      · refine ⟨4, rfl, ?_⟩
        rcases h with ⟨rfl, rfl⟩ | ⟨hk0, hst, rfl⟩
        · rfl
        · exact (if_neg hk0).trans (if_pos hst)
      · refine ⟨5, rfl, ?_⟩
        rcases h with ⟨hst, rfl⟩ | ⟨hst, hfew, rfl⟩ | ⟨hst, hmany, rfl⟩
        · exact if_pos hst
        · exact (if_neg (not_not.mpr hst)).trans (if_pos hfew)
        · exact (if_neg (not_not.mpr hst)).trans (if_neg (Nat.not_lt.mpr hmany))
    have hlt : r < 16 := by
      have hmem := hcheck ▸ tileCheck_mem s k op
      simp only [List.mem_cons, List.not_mem_nil, or_false] at hmem
      omega
    exact ⟨_, (exec_tileOp hrow hk hrun hreach).trans (congrArg Host.Outcome.next (tileOp_of_refused hcheck hr)),
      tileRefused_spec hk hlt s⟩
  case provision =>
    intro hok
    have noted := tileOp_of_ok hok
    have done := (provisioned k s).congr noted.kept noted.state noted.parts
    exact ⟨_, exec_tileOp rfl hk hrun hreach, noted.result, done.state, done.values, done.fn, done.bound, done.moved, done.stays,
      done.parts⟩
  case start =>
    intro hmode hst
    have hcheck : tileCheck s k 2 = tileOk := by
      simp only [tileCheck]
      rw [if_neg, if_neg (not_not.mpr hst)]
      rcases hmode with rfl | h <;> simp [*]
    have noted := tileOp_of_ok hcheck
    obtain ⟨state, attached, kept, parts⟩ := startTile_spec k s
    refine ⟨_, exec_tileOp rfl hk hrun hreach, noted.result, noted.state.trans state, fun p hp htile => ?_, kept.trans noted.kept,
      (parts.mono (by decide)).trans (noted.parts.mono (by decide))⟩
    rw [getNs, noted.parts.host_eq]
    exact attached p hp htile
  case stop =>
    intro hst
    have noted := tileOp_of_ok (s := s) (k := k) (op := 3) (if_neg (not_not.mpr hst))
    obtain ⟨state, kept, parts⟩ := tileTo_spec (n := tQuiescing) (by decide) k s
    exact ⟨_, exec_tileOp rfl hk hrun hreach, noted.result, noted.state.trans state, kept.trans noted.kept,
      (parts.mono (by decide)).trans (noted.parts.mono (by decide))⟩
  case release =>
    intro hk0 hst
    have noted := tileOp_of_ok (s := s) (k := k) (op := 4) ((if_neg hk0).trans (if_neg (not_not.mpr hst)))
    obtain ⟨state, bound⟩ := released k s
    exact ⟨_, exec_tileOp rfl hk hrun hreach, noted.result, noted.state.trans state, (noted.kept.getF (by simp)).trans bound⟩
  case shares =>
    intro hst hmany hover
    have noted := tileOp_of_ok (s := s) (k := k) (op := 5)
      ((if_neg (not_not.mpr hst)).trans ((if_neg (Nat.not_lt.mpr hmany)).trans hover))
    obtain ⟨state, values, die, yard, due, parts⟩ := sharesSet k s
    refine ⟨_, exec_tileOp rfl hk hrun hreach, noted.result, noted.state.trans (state.trans hst), fun a ha hb hd hy => ?_,
      (noted.kept _ (by simp)).trans die, (noted.kept _ (by simp)).trans yard, noted.sharesDue ▸ due,
      parts.trans (noted.parts.mono (by decide))⟩
    have hrange := mem_stageRegs_range ha
    exact (noted.kept.getR (by simp only [Reg.TILE_STATE]; omega)).trans (values a ha hb hd hy)
  case vendor =>
    intro c op req u hc ht hpf hmode
    refine exec_tileOp_admin ?_ hk hrun ht hpf hmode
    rcases hc with ⟨rfl, rfl⟩ | ⟨rfl, rfl⟩ | ⟨rfl, rfl⟩ | ⟨rfl, rfl⟩ | ⟨rfl, rfl⟩ <;> rfl
  case quiesced =>
    intro hst hcmds hsqs hheld
    exact ⟨_, rfl, quiesced_spec hk hst hcmds hsqs hheld⟩
  case still => exact fun h => congrArg Host.Outcome.next (quiesced_of_other h)
  case scrubbed => exact fun hst hcourses => ⟨_, rfl, scrubbed_of_erased hk hst hcourses⟩
  case unscrubbed => exact fun h => congrArg Host.Outcome.next (scrubbed_of_other h)
  case yard =>
    intro hreach
    have hrun : completes (.yardCfgWrite v) s (yardCfg v s) := congrArg Host.Outcome.next (guarded_ok _ hreach)
    exact ⟨fun h => ⟨_, hrun, yardCfg_of_refused h⟩, fun h => ⟨_, hrun, yardCfg_of_taken h⟩⟩
  case budget =>
    rintro hreach n rfl
    have hrun : completes (.trowelBudgetWrite v) s (budgetWrite v s) := congrArg Host.Outcome.next (guarded_ok _ hreach)
    exact ⟨fun h => ⟨_, hrun, budgetWrite_of_over h⟩, fun h => ⟨_, hrun, budgetWrite_of_fit h⟩⟩
  case retrain =>
    intro ch hch hlost
    exact ⟨⟨_, exec_fchRetrain hch hlost true, retrain_of_good ch s⟩,
      fun h => ⟨_, (exec_fchRetrain hch hlost false).trans (congrArg Host.Outcome.next (retrain_of_single h)),
        retrains_noted ch s, .trowel (.refl _ s)⟩,
      fun h hlimit => (exec_fchRetrain hch hlost false).trans (congrArg Host.Outcome.next (retrain_of_second h hlimit))⟩
  case away =>
    refine fun ch ok h => congrArg Host.Outcome.next (if_neg ?_)
    rintro ⟨hch, hlost⟩
    rcases h with h | h
    · exact absurd hch (Nat.not_lt.mpr h)
    · exact hlost h

end Sys2Proof.Machine
end

/-! ## Functions are reset and enabled (R94, R105, R120 to R122, R129) -/

section

-- One proof after another: elaborated side by side, the proofs of this text take more memory than its check allows.
set_option Elab.async false

namespace Sys2Proof.Machine

variable {s t u : State} {fn i k n p : Nat}

/-! ### Commands and queues of a reset function -/

/-- No write has been started: a reset lands nothing. -/
def NoStarted (s : State) : Prop := ∀ i, (getCmd s i).st ≠ .started

theorem NoStarted.congr (h : NoStarted s) (hc : t.host.cmds = s.host.cmds) : NoStarted t := fun i => by
  rw [getCmd, hc]
  exact h i

theorem tget_filter_key {α : Type} (d : Nat → α) (f : Nat → Bool) (x : Tbl α) (k : Nat) :
    tget d (x.filter (fun p => f p.1)) k = if f k = true then tget d x k else d k := by
  unfold tget
  rw [List.find?_filter]
  by_cases hf : f k = true
  · rw [if_pos hf]
    have same : (fun p : Nat × α => decide (f p.1 = true ∧ (p.1 == k) = true)) = fun p => p.1 == k := by
      funext p
      by_cases hp : p.1 = k <;> simp [hp, hf]
    rw [same]
  · rw [if_neg hf, List.find?_eq_none.mpr fun p _ => by simp only [decide_eq_true_eq, not_and, beq_iff_eq]; rintro h rfl; exact hf h]

/-- What a function's commands leave as they go: the commands of other keys, and every function and queue. -/
structure CmdsGone (l : List Nat) (s t : State) : Prop where
  mem : ∀ p, p ∈ t.host.cmds ↔ p ∈ s.host.cmds ∧ p.1 ∉ l
  none : NoStarted t
  fns : t.host.fns = s.host.fns
  sqs : t.host.sqs = s.host.sqs
  cqs : t.host.cqs = s.host.cqs
  recov : t.host.recov = s.host.recov
  parts : changesOnly [.host, .map] s t

theorem CmdsGone.refl (h : NoStarted s) : CmdsGone [] s s :=
  ⟨fun _ => by simp, h, rfl, rfl, rfl, rfl, .refl _ s⟩

theorem CmdsGone.trans {l m : List Nat} (h : CmdsGone l s t) (g : CmdsGone m t u) : CmdsGone (l ++ m) s u where
  mem p := by rw [g.mem, h.mem, List.mem_append, not_or, and_assoc]
  none := g.none
  fns := g.fns.trans h.fns
  sqs := g.sqs.trans h.sqs
  cqs := g.cqs.trans h.cqs
  recov := g.recov.trans h.recov
  parts := h.parts.trans g.parts

/-- A command that is no started write leaves nothing behind. -/
theorem cmdsGone_resetCmd (h : NoStarted s) (i : Nat) : CmdsGone [i] s (resetCmd i s) := by
  unfold resetCmd
  dsimp only
  rw [if_neg fun hc => h i hc.2]
  have reads := changesOnly_dropReads i s
  have host : (dropReads i s).host = s.host := reads.host_eq
  generalize dropReads i s = x at *
  generalize hy : ({ x with host := _ } : State) = y
  have cmds : y.host.cmds = s.host.cmds := (hy ▸ rfl : y.host.cmds = x.host.cmds).trans (congrArg HostSt.cmds host)
  have fns : y.host.fns = s.host.fns := (hy ▸ rfl : y.host.fns = x.host.fns).trans (congrArg HostSt.fns host)
  have sqs : y.host.sqs = s.host.sqs := (hy ▸ rfl : y.host.sqs = x.host.sqs).trans (congrArg HostSt.sqs host)
  have cqs : y.host.cqs = s.host.cqs := (hy ▸ rfl : y.host.cqs = x.host.cqs).trans (congrArg HostSt.cqs host)
  have recov : y.host.recov = s.host.recov := (hy ▸ rfl : y.host.recov = x.host.recov).trans (congrArg HostSt.recov host)
  have parts : changesOnly [.host, .map] s y := hy ▸ .host (reads.mono (by decide))
  refine ⟨fun p => ?_, fun j => ?_, fns, sqs, cqs, recov, .host parts⟩
  · rw [dropCmd, terase, List.mem_filter, cmds, List.mem_singleton, bne_iff_ne]
  · have hcmd : getCmd (dropCmd i y) j = tget cmdD (terase i s.host.cmds) j := by rw [getCmd, dropCmd, cmds]
    rw [hcmd]
    by_cases hj : j = i
    · rw [hj, tget_terase_same]
      exact fun e => CmdSt.noConfusion e
    · rw [tget_terase_ne hj]
      exact h j

theorem cmdsGone_foldl (l : List (Nat × Cmd)) (h : NoStarted s) :
    CmdsGone (l.map (·.1)) s (l.foldl (fun t p => resetCmd p.1 t) s) := by
  induction l generalizing s with
  | nil => exact .refl h
  | cons p l ih =>
    have first := cmdsGone_resetCmd h p.1
    exact first.trans (ih first.none)

/-! ### Resets -/

/-- The function as a controller reset leaves it. -/
def fnReset (f : Fn) : Fn :=
  { fn0 with vf := f.vf, lostC0 := f.lostC0, lostC1 := f.lostC1, errLog := f.errLog, ps := f.ps, psHeld := f.psHeld }

/-- What a reset of a function leaves, its own record apart. -/
structure FnReset (fn : Nat) (s t : State) : Prop where
  sub : ∀ p ∈ t.host.cmds, p ∈ s.host.cmds
  gone : ∀ p ∈ t.host.cmds, p.2.h.fn ≠ fn
  kept : ∀ p ∈ s.host.cmds, p.2.h.fn ≠ fn → (∀ q ∈ s.host.cmds, q.1 = p.1 → q.2.h.fn ≠ fn) → p ∈ t.host.cmds
  none : NoStarted t
  sq : ∀ q, q < 8192 → getSq t fn q = sq0
  cq : ∀ q, q < 8192 → getCq t fn q = cq0
  sqs : ∀ k q, k ≠ fn → q < 8192 → getSq t k q = getSq s k q
  cqs : ∀ k q, k ≠ fn → q < 8192 → getCq t k q = getCq s k q
  fns : ∀ k, k ≠ fn → getFn t k = getFn s k
  sessions : (getConn t (.storage fn)).sessions = 0
  recov : t.host.recov = s.host.recov
  parts : changesOnly [.host, .map, .sec] s t

theorem FnReset.setFn (h : FnReset fn s t) (f : Fn) : FnReset fn s (setFn fn f t) where
  sub := h.sub
  gone := h.gone
  kept := h.kept
  none := h.none
  sq := h.sq
  cq := h.cq
  sqs := h.sqs
  cqs := h.cqs
  fns k hk := (tget_tset_ne _ _ _ hk).trans (h.fns k hk)
  sessions := h.sessions
  recov := h.recov
  parts := .host h.parts

theorem fnReset_resetFn (h : NoStarted s) (fn : Nat) :
    FnReset fn s (resetFn fn s) ∧ getFn (resetFn fn s) fn = fnReset (getFn s fn) := by
  unfold resetFn
  dsimp only
  generalize hx : setFn fn { getFn s fn with aers := [] } s = x
  have xcmds : x.host.cmds = s.host.cmds := hx ▸ rfl
  have xsqs : x.host.sqs = s.host.sqs := hx ▸ rfl
  have xcqs : x.host.cqs = s.host.cqs := hx ▸ rfl
  have xrecov : x.host.recov = s.host.recov := hx ▸ rfl
  have xfn : getFn x fn = { getFn s fn with aers := [] } := hx ▸ tget_tset_same ..
  have xfns : ∀ k, k ≠ fn → getFn x k = getFn s k := fun k hk => hx ▸ tget_tset_ne _ _ _ hk
  have xparts : changesOnly [.host, .map, .sec] s x := hx ▸ .host (.refl _ s)
  have gone := cmdsGone_foldl (s.host.cmds.filter (fun p => decide (p.2.h.fn = fn))) (h.congr xcmds)
  generalize (s.host.cmds.filter (fun p => decide (p.2.h.fn = fn))).foldl (fun t p => resetCmd p.1 t) x = y at *
  have yfn : getFn y fn = { getFn s fn with aers := [] } := by rw [getFn, gone.fns, ← getFn, xfn]
  have yfns : ∀ k, k ≠ fn → getFn y k = getFn s k := fun k hk => by rw [getFn, gone.fns, ← getFn, xfns k hk]
  have keys : ∀ p : Nat × Cmd, p.1 ∉ (s.host.cmds.filter (fun p => decide (p.2.h.fn = fn))).map (·.1) ↔
      ∀ q ∈ s.host.cmds, q.1 = p.1 → q.2.h.fn ≠ fn := fun p => by
    simp only [List.mem_map, List.mem_filter, decide_eq_true_eq, not_exists, not_and]
    exact ⟨fun hall q hq hk hf => hall q ⟨hq, hf⟩ hk, fun hall q hq hk => hall q hq.1 hk hq.2⟩
  generalize hz : dropQueues fn (endSession (.storage fn) y) = z
  have zcmds : z.host.cmds = y.host.cmds := hz ▸ rfl
  have zfns : z.host.fns = y.host.fns := hz ▸ rfl
  have zsqs : z.host.sqs = y.host.sqs.filter (fun p => decide (p.1 / 8192 ≠ fn)) := hz ▸ rfl
  have zcqs : z.host.cqs = y.host.cqs.filter (fun p => decide (p.1 / 8192 ≠ fn)) := hz ▸ rfl
  have zrecov : z.host.recov = y.host.recov := hz ▸ rfl
  have zconn : (getConn z (.storage fn)).sessions = 0 := hz ▸ congrArg SpdmSt.sessions (getConn_setConn ..)
  have zparts : changesOnly [.host, .map, .sec] y z := hz ▸ .host (.sec (.refl _ y))
  have zsq : ∀ k q, q < 8192 → getSq z k q = if k ≠ fn then getSq s k q else sq0 := fun k q hq => by
    have hkey : qKey k q / 8192 = k := by unfold qKey; omega
    rw [getSq, zsqs, tget_filter_key sqD (fun a => decide (a / 8192 ≠ fn)), gone.sqs, xsqs, hkey]
    simp only [decide_eq_true_eq]
    rfl
  have zcq : ∀ k q, q < 8192 → getCq z k q = if k ≠ fn then getCq s k q else cq0 := fun k q hq => by
    have hkey : qKey k q / 8192 = k := by unfold qKey; omega
    rw [getCq, zcqs, tget_filter_key cqD (fun a => decide (a / 8192 ≠ fn)), gone.cqs, xcqs, hkey]
    simp only [decide_eq_true_eq]
    rfl
  refine ⟨FnReset.setFn ?_ _, (tget_tset_same ..).trans (by rw [yfn]; rfl)⟩
  exact
    { sub := fun p hp => xcmds ▸ ((gone.mem p).mp (zcmds ▸ hp)).1
      gone := fun p hp hf => by
        obtain ⟨hmem, hkey⟩ := (gone.mem p).mp (zcmds ▸ hp)
        exact (keys p).mp hkey p (xcmds ▸ hmem) rfl hf
      kept := fun p hp _ hall => zcmds ▸ (gone.mem p).mpr ⟨xcmds ▸ hp, (keys p).mpr hall⟩
      none := gone.none.congr zcmds
      sq := fun q hq => (zsq fn q hq).trans (if_neg (not_not.mpr rfl))
      cq := fun q hq => (zcq fn q hq).trans (if_neg (not_not.mpr rfl))
      sqs := fun k q hk hq => (zsq k q hq).trans (if_pos hk)
      cqs := fun k q hk hq => (zcq k q hq).trans (if_pos hk)
      fns := fun k hk => by rw [getFn, zfns, ← getFn, yfns k hk]
      sessions := zconn
      recov := zrecov.trans (gone.recov.trans xrecov)
      parts := (xparts.trans (gone.parts.mono (by decide))).trans zparts }

theorem ctrlReset_of_disabled (h : (getFn s fn).en = false) : ctrlReset fn s = s := if_pos (by simp [h])

theorem ctrlReset_of_enabled (hen : (getFn s fn).en = true) (hnone : fn ≠ 0 ∨ s.sec.onReset = none) :
    ctrlReset fn s = resetFn fn s := by
  unfold ctrlReset
  dsimp only
  rw [if_neg (by simp [hen])]
  have : (if fn = 0 then s.sec.onReset else none) = none := by
    split
    · next h0 => exact hnone.resolve_left (not_not.mpr h0)
    · rfl
  rw [this]

/-- A Function Level Reset leaves what R94 and R121 keep. -/
theorem fnReset_flr (h : NoStarted s) (fn : Nat) :
    FnReset fn s (flr fn s) ∧ getFn (flr fn s) fn = { fn0 with
      vf := (getFn s fn).vf, lostC0 := (getFn s fn).lostC0, lostC1 := (getFn s fn).lostC1 } := by
  obtain ⟨reset, hfn⟩ := fnReset_resetFn h fn
  unfold flr
  generalize resetFn fn s = x at *
  exact ⟨reset.setFn _, (tget_tset_same ..).trans (by rw [hfn]; rfl)⟩

/-! ### Enable -/

theorem enableFn_spec (hen : (getFn s fn).en = false) (htile : ∀ k, tileOfFn s fn = some k → tileState s k = tActive)
    (hfn : isPF0 s fn = true ∨ (getFn s fn).vf = true) (hup : isSet s (F.HOST_LINK_STATUS_UP (portOf s fn)) = true)
    (hrun : running s = true) :
    (getFn (enableFn fn s) fn).en = true ∧ (getFn (enableFn fn s) fn).rdy = true ∧ (getFn (enableFn fn s) fn).shut = false ∧
      (getSq (enableFn fn s) fn 0).size = 4096 ∧ (getCq (enableFn fn s) fn 0).size = 4096 ∧
      (∀ k q, q < 8192 → k ≠ fn → getSq (enableFn fn s) k q = getSq s k q) ∧ changesOnly [.host] s (enableFn fn s) := by
  have heq : enableFn fn s = setCq fn 0 { cq0 with size := 4096 } (setSq fn 0 { sq0 with size := 4096 }
      (setFn fn { getFn s fn with en := true, rdy := true, shut := false, shutting := false } s)) := by
    refine if_neg ?_
    rintro (h | h | h | h | h)
    · exact Bool.false_ne_true (hen.symm.trans h)
    · revert h
      cases hk : tileOfFn s fn with
      | none => simp
      | some k => simp [htile k hk]
    · rcases hfn with hf | hf <;> simp [hf] at h
    · simp [hup] at h
    · simp [hrun] at h
  rw [heq]
  generalize hx : setFn fn { getFn s fn with en := true, rdy := true, shut := false, shutting := false } s = x
  have hfn : getFn x fn = { getFn s fn with en := true, rdy := true, shut := false, shutting := false } := hx ▸ getFn_setFn ..
  have sqs : x.host.sqs = s.host.sqs := hx ▸ rfl
  have parts : changesOnly [.host] s x := hx ▸ .host (.refl _ s)
  have same : getFn (setCq fn 0 { cq0 with size := 4096 } (setSq fn 0 { sq0 with size := 4096 } x)) fn = getFn x fn := rfl
  rw [same, hfn]
  have sq : ∀ k q, getSq (setCq fn 0 { cq0 with size := 4096 } (setSq fn 0 { sq0 with size := 4096 } x)) k q =
      getSq (setSq fn 0 { sq0 with size := 4096 } x) k q := fun _ _ => rfl
  refine ⟨rfl, rfl, rfl, by rw [sq, getSq_setSq], by rw [getCq_setCq], fun k q hq hk => ?_, .host (.host parts)⟩
  have hkey : qKey k q ≠ qKey fn 0 := by
    unfold qKey
    omega
  rw [sq, getSq, setSq, tget_tset_ne _ _ _ hkey, sqs, getSq]

theorem enableFn_of_not (h : (getFn s fn).en = true ∨ (∃ k, tileOfFn s fn = some k ∧ tileState s k ≠ tActive) ∨
    isPF0 s fn = false ∧ (getFn s fn).vf = false ∨ isSet s (F.HOST_LINK_STATUS_UP (portOf s fn)) = false ∨
    running s = false) : enableFn fn s = s := by
  refine if_pos ?_
  rcases h with h | ⟨k, hk, hst⟩ | ⟨hp, hv⟩ | h | h
  · exact .inl h
  · exact .inr (.inl (by simp [hk, hst]))
  · exact .inr (.inr (.inl (by simp [hp, hv])))
  · exact .inr (.inr (.inr (.inl (by simp [h]))))
  · exact .inr (.inr (.inr (.inr (by simp [h]))))

/-! ### Virtual functions -/

/-- One function's enable by NumVFs. -/
def vfStep (on : Bool) (fn : Nat) (t : State) : State :=
  if on then setFn fn { getFn t fn with vf := true } t
  else if (getFn t fn).vf then setFn fn { getFn (resetFn fn t) fn with vf := false } (resetFn fn t)
  else t

theorem vfStep_spec (h : NoStarted s) (on : Bool) (fn : Nat) :
    NoStarted (vfStep on fn s) ∧ (getFn (vfStep on fn s) fn).vf = on ∧ (∀ k, k ≠ fn → getFn (vfStep on fn s) k = getFn s k) ∧
      changesOnly [.host, .map, .sec] s (vfStep on fn s) := by
  unfold vfStep
  split
  · next hon => exact ⟨h, (congrArg Fn.vf (tget_tset_same ..)).trans hon.symm, fun k hk => tget_tset_ne _ _ _ hk, .host (.refl _ s)⟩
  · next hoff =>
    have hon : on = false := Bool.eq_false_iff.mpr hoff
    split
    · have reset := (fnReset_resetFn h fn).1
      generalize resetFn fn s = x at *
      have set := reset.setFn { getFn x fn with vf := false }
      exact ⟨set.none, (congrArg Fn.vf (tget_tset_same ..)).trans hon.symm, set.fns, set.parts⟩
    · next hv => exact ⟨h, (Bool.eq_false_iff.mpr hv).trans hon.symm, fun _ _ => rfl, .refl _ s⟩

theorem vfSteps_spec (h : NoStarted s) (g : Nat → Bool) (l : List Nat) :
    (∀ k ∈ l, (getFn (l.foldl (fun t fn => vfStep (g fn) fn t) s) k).vf = g k) ∧
      (∀ k, k ∉ l → getFn (l.foldl (fun t fn => vfStep (g fn) fn t) s) k = getFn s k) ∧
      changesOnly [.host, .map, .sec] s (l.foldl (fun t fn => vfStep (g fn) fn t) s) := by
  induction l generalizing s with
  | nil => exact ⟨fun _ hk => absurd hk List.not_mem_nil, fun _ _ => rfl, .refl _ s⟩
  | cons a l ih =>
    obtain ⟨none, value, others, parts⟩ := vfStep_spec h (g a) a
    obtain ⟨values, rest, more⟩ := ih none
    refine ⟨fun k hk => ?_, fun k hk => ?_, parts.trans more⟩
    · rw [List.foldl_cons]
      by_cases hl : k ∈ l
      · exact values k hl
      · obtain rfl := (List.mem_cons.mp hk).resolve_right hl
        rw [rest k hl, value]
    · rw [List.foldl_cons, rest k fun hl => hk (List.mem_cons_of_mem _ hl), others k fun he => hk (he ▸ List.mem_cons_self)]

/-- NumVFs names the virtual functions that are enabled. -/
theorem vfEnableDo_spec {on : Bool} (h : NoStarted s) (hport : hasPort s p = true) :
    (∀ k, 1 ≤ k → k ≤ (if twoPort s then 31 else 63) →
      (getFn (vfEnableDo p n on s) ((if p = 1 then 32 else 0) + k)).vf = (on && decide (k ≤ n))) ∧
      changesOnly [.host, .map, .sec] s (vfEnableDo p n on s) := by
  have steps := vfSteps_spec h (fun fn => on && decide (fn - (if p = 1 then 32 else 0) ≤ n))
    ((List.range (if twoPort s then 31 else 63)).map (fun k => (if p = 1 then 32 else 0) + k + 1))
  have heq : vfEnableDo p n on s = ((List.range (if twoPort s then 31 else 63)).map (fun k => (if p = 1 then 32 else 0) + k + 1)).foldl
      (fun t fn => vfStep (on && decide (fn - (if p = 1 then 32 else 0) ≤ n)) fn t) s := if_neg (by simp [hport])
  rw [← heq] at steps
  obtain ⟨values, -, parts⟩ := steps
  refine ⟨fun k h1 h2 => ?_, parts⟩
  have value := values ((if p = 1 then 32 else 0) + k) (List.mem_map.mpr ⟨k - 1, List.mem_range.mpr (by omega), by omega⟩)
  rwa [Nat.add_sub_cancel_left] at value

/-! ### A read or a completion that the host does not answer -/

theorem cplTimeout_spec (hhas : hasCmd s i = true) (hst : (getCmd s i).st ≠ .ready) :
    (getCmd (cplTimeout i s) i).st = .ready ∧ (getCmd (cplTimeout i s) i).status = stXfer ∧
      raised (baseHost (portOf s (getCmd s i).h.fn)) 6 (cplTimeout i s) = true := by
  obtain ⟨x, heq⟩ : ∃ x, cplTimeout i s = happen (baseHost (portOf s (getCmd s i).h.fn)) 6 (failCmd i stXfer x) :=
    ⟨_, if_pos ⟨hhas, hst⟩⟩
  rw [heq]
  obtain ⟨done, status⟩ := ready_cmd i stXfer 0 [] x
  have hp := portOf_lt s (getCmd s i).h.fn
  generalize portOf s (getCmd s i).h.fn = p at *
  change (getCmd (failCmd i stXfer x) i).st = _ at done
  change (getCmd (failCmd i stXfer x) i).status = _ at status
  generalize failCmd i stXfer x = y at *
  have same : getCmd (happen (baseHost p) 6 y) i = getCmd y i := getCmd_congr (happen_host ..) i
  refine ⟨same ▸ done, same ▸ status, ?_⟩
  interval_cases p <;> exact raised_happen _ _ _ (by decide) (by decide) (by decide) (by decide)

theorem cplTimeout_of_done (h : hasCmd s i = false ∨ (getCmd s i).st = .ready) : cplTimeout i s = s := by
  refine if_neg ?_
  rintro ⟨hhas, hst⟩
  rcases h with h | h
  · exact Bool.false_ne_true (h.symm.trans hhas)
  · exact hst h

/-! ### Shutdown -/

theorem shutdownEnd_of_free (hshut : (getFn s fn).shutting = true) (hfree : isSet s F.PWR_HOLDUP_STAT_WRITE_THROUGH = false ∨
      ∀ k, tileOfFn s fn = some k → tileHeld s k = false) :
    shutdownEnd fn s = setFn fn { getFn s fn with shutting := false, shut := true } s := by
  refine if_pos ?_
  rcases hfree with h | h
  · simp [hshut, h]
  · cases hk : tileOfFn s fn with
    | none => simp [hshut]
    | some k => simp [hshut, h k hk]

theorem shutdownEnd_of_not (h : (getFn s fn).shutting = false ∨ isSet s F.PWR_HOLDUP_STAT_WRITE_THROUGH = true ∧
    ∃ k, tileOfFn s fn = some k ∧ tileHeld s k = true) : shutdownEnd fn s = s := by
  refine if_neg ?_
  rcases h with h | ⟨hw, k, hk, hheld⟩
  · simp [h]
  · simp [hw, hk, hheld]

/-! ### The obligation -/

/-- Settles O39: a reset drops its function's commands and queues; the other rows by their checks. -/
theorem functionsAreResetAndEnabled : Obligations.FunctionsAreResetAndEnabled := by
  unfold Obligations.FunctionsAreResetAndEnabled
  refine fun s fn => ⟨fun c hc => ⟨?waits, ?reset⟩, ?off, ?enable, ?refused, ?note, ?noNote, ?shut, ?held, ?vf, ?noPort, ?timeout,
    ?done⟩
  case waits =>
    intro hpause
    rcases hc with rfl | rfl
    · exact ⟨0, congrArg Host.Outcome.next (if_pos hpause)⟩
    · exact ⟨1, congrArg Host.Outcome.next (if_pos hpause)⟩
  case reset =>
    intro hpause hen hnone hstarted
    obtain ⟨reset, hctrl⟩ := fnReset_resetFn hstarted fn
    obtain ⟨flrReset, hflr⟩ := fnReset_flr hstarted fn
    obtain ⟨t, hrun, ht, hkept, hall⟩ : ∃ t, completes c s t ∧ FnReset fn s t ∧
        (c = .controllerReset fn → getFn t fn = fnReset (getFn s fn)) ∧
        (c = .functionLevelReset fn → getFn t fn = { fn0 with
          vf := (getFn s fn).vf, lostC0 := (getFn s fn).lostC0, lostC1 := (getFn s fn).lostC1 }) := by
      have hno : ¬ pausedPort s (portOf s fn) = true := Bool.eq_false_iff.mp hpause
      rcases hc with rfl | rfl
      · exact ⟨_, congrArg Host.Outcome.next ((if_neg hno).trans (ctrlReset_of_enabled hen hnone)), reset, fun _ => hctrl,
          fun h => (nomatch h)⟩
      · exact ⟨_, congrArg Host.Outcome.next (if_neg hno), flrReset, fun h => (nomatch h), fun _ => hflr⟩
    exact ⟨t, hrun, ht.gone, ht.kept, fun q hq => ⟨ht.sq q hq, ht.cq q hq⟩, fun k q hk hq => ⟨ht.sqs k q hk hq, ht.cqs k q hk hq⟩,
      ht.fns, hkept, hall, ht.sessions, ht.parts⟩
  case off =>
    exact fun hpause hen => congrArg Host.Outcome.next ((if_neg (Bool.eq_false_iff.mp hpause)).trans (ctrlReset_of_disabled hen))
  case enable => exact fun hen htile hfn hup hrun => ⟨_, rfl, enableFn_spec hen htile hfn hup hrun⟩
  case refused => exact fun h => congrArg Host.Outcome.next (enableFn_of_not h)
  case note => exact fun hen => congrArg Host.Outcome.next (if_pos hen)
  case noNote => exact fun hen => congrArg Host.Outcome.next (if_neg (Bool.eq_false_iff.mp hen))
  case shut =>
    intro hshut hfree
    refine ⟨_, congrArg Host.Outcome.next (shutdownEnd_of_free hshut hfree), ?_, ?_, .host (.refl _ s)⟩ <;> rw [getFn_setFn]
  case held => exact fun h => congrArg Host.Outcome.next (shutdownEnd_of_not h)
  case vf => exact fun p n on hport hstarted => ⟨_, rfl, vfEnableDo_spec hstarted hport⟩
  case noPort => exact fun p n on hport => congrArg Host.Outcome.next (if_pos (by simp [hport]))
  case timeout => exact fun i hhas hst => ⟨_, rfl, cplTimeout_spec hhas hst⟩
  case done => exact fun i h => congrArg Host.Outcome.next (cplTimeout_of_done h)

end Sys2Proof.Machine
end

/-! ## Links train and ports reset (R92, R121, R128, R129, R419, R437, R440) -/

section

-- One proof after another: elaborated side by side, the proofs of this text take more memory than its check allows.
set_option Elab.async false

namespace Sys2Proof.Machine

variable {s t u : State} {p fn n w sp : Nat}

/-! ### HOST_LINK_STATUS -/

/-- The link's status, written as one. -/
def linkSet (p speed w up flit : Nat) (s : State) : State :=
  setF (F.HOST_LINK_STATUS_FLIT p) flit (setF (F.HOST_LINK_STATUS_UP p) up
    (setF (F.HOST_LINK_STATUS_WIDTH p) w (setF (F.HOST_LINK_STATUS_SPEED p) speed s)))

/-- What the written status reads. -/
structure LinkSet (p speed w up flit : Nat) (s t : State) : Prop where
  speed : getF t (F.HOST_LINK_STATUS_SPEED p) = speed % 2 ^ 3
  width : getF t (F.HOST_LINK_STATUS_WIDTH p) = w % 2 ^ 5
  up : getF t (F.HOST_LINK_STATUS_UP p) = up % 2 ^ 1
  flit : getF t (F.HOST_LINK_STATUS_FLIT p) = flit % 2 ^ 1
  kept : regsKept (· = Reg.HOST_LINK_STATUS p) s t
  parts : changesOnly [.regs] s t

theorem linkSet_spec (p speed w up flit : Nat) (s : State) : LinkSet p speed w up flit s (linkSet p speed w up flit s) := by
  have hs : (F.HOST_LINK_STATUS_SPEED p).ok := by simp [Fld.ok]
  have hw : (F.HOST_LINK_STATUS_WIDTH p).ok := by simp [Fld.ok]
  have hu : (F.HOST_LINK_STATUS_UP p).ok := by simp [Fld.ok]
  have hf : (F.HOST_LINK_STATUS_FLIT p).ok := by simp [Fld.ok]
  unfold linkSet
  constructor
  case speed =>
    rw [getF_setF_apart _ _ _ _ hf (.inl (by simp)), getF_setF_apart _ _ _ _ hu (.inl (by simp)),
      getF_setF_apart _ _ _ _ hw (.inl (by simp)), getF_setF_same _ _ _ hs]
  case width =>
    rw [getF_setF_apart _ _ _ _ hf (.inl (by simp)), getF_setF_apart _ _ _ _ hu (.inl (by simp)), getF_setF_same _ _ _ hw]
  case up => rw [getF_setF_apart _ _ _ _ hf (.inr (by simp)), getF_setF_same _ _ _ hu]
  case flit => rw [getF_setF_same _ _ _ hf]
  case kept =>
    have link : ∀ {t : State} (f : Fld) (v : Nat), f.addr = Reg.HOST_LINK_STATUS p → regsKept (· = Reg.HOST_LINK_STATUS p) s t →
        regsKept (· = Reg.HOST_LINK_STATUS p) s (setF f v t) := fun f v hf h => h.setF f v hf
    exact link _ _ rfl (link _ _ rfl (link _ _ rfl (link _ _ rfl (.refl s))))
  case parts => exact .setF (.setF (.setF (.setF (.refl _ s) _ _) _ _) _ _) _ _

/-! ### Events of a port -/

theorem srcOf_baseHost_lt (hp : p < 2) {i : Nat} (hi : i < 8) : srcOf (baseHost p) i < 256 := by
  have small : ∀ p < 2, ∀ i < 8, srcOf (baseHost p) i < 256 := by decide
  exact small p hp i hi

theorem baseHost_page (p : Nat) : baseHost p % 0x1000 = 0 ∧ baseHost p ≠ 0x5000 := by
  unfold baseHost
  omega

theorem quietReg_link (p : Nat) : quietReg (Reg.HOST_LINK_STATUS p) = true := by
  refine decide_eq_true ?_
  simp only [Reg.HOST_LINK_STATUS]
  omega

/-- An event of a port leaves its link's status alone. -/
theorem happen_host_spec (hp : p < 2) {i : Nat} (hi : i < 8) (s : State) :
    raised (baseHost p) i (happen (baseHost p) i s) = true ∧ evtOnly s (happen (baseHost p) i s) ∧
      ∀ f : Fld, f.addr = Reg.HOST_LINK_STATUS p → getF (happen (baseHost p) i s) f = getF s f := by
  obtain ⟨hpage, hne⟩ := baseHost_page p
  have hsrc := srcOf_baseHost_lt hp hi
  exact ⟨raised_happen _ _ _ hsrc hpage hne (by omega), evtOnly_happen _ _ _ hpage hsrc,
    fun f hf => getF_happen (by rw [hf]; exact quietReg_link p) hpage hsrc⟩

/-! ### Up and down -/

theorem maxSpeed_lt (s : State) (p : Nat) : maxSpeed s p < 8 := by
  have h : getF s (F.HOST_LINK_CTRL_MAX_SPEED p) < 2 ^ 3 := getF_lt ..
  unfold maxSpeed
  dsimp only
  split <;> omega

theorem layoutWidth_lt (s : State) : layoutWidth s < 32 := by
  unfold layoutWidth
  split <;> decide

theorem linkUp_spec {flit : Bool} (hp : p < 2) (hport : hasPort s p = true) (hperst : p ∉ s.top.perst) (hoff : s.top.off = false)
    (hhalt : s.top.halted = false) (hdown : isSet s (F.HOST_LINK_STATUS_UP p) = false) (h0 : sp ≠ 0) (hsp : sp ≤ maxSpeed s p)
    (hw : w ≤ layoutWidth s) :
    isSet (linkUp p sp w flit s) (F.HOST_LINK_STATUS_UP p) = true ∧ getF (linkUp p sp w flit s) (F.HOST_LINK_STATUS_SPEED p) = sp ∧
      getF (linkUp p sp w flit s) (F.HOST_LINK_STATUS_WIDTH p) = w ∧ isSet (linkUp p sp w flit s) (F.HOST_LINK_STATUS_FLIT p) = flit ∧
      raised (baseHost p) 0 (linkUp p sp w flit s) = true ∧
      (sp < maxSpeed s p ∨ w < layoutWidth s → raised (baseHost p) 2 (linkUp p sp w flit s) = true) ∧
      regsKeptE (· = Reg.HOST_LINK_STATUS p) s (linkUp p sp w flit s) ∧ changesOnly (.host :: eventParts) s (linkUp p sp w flit s) := by
  generalize hx : ({ s with host := { s.host with trained := tset (fun _ => 0) p w s.host.trained } } : State) = x
  have regs : x.regs = s.regs := hx ▸ rfl
  have xparts : changesOnly (.host :: eventParts) s x := hx ▸ .host (.refl _ s)
  have heq : linkUp p sp w flit s = (if sp < maxSpeed s p ∨ w < layoutWidth s
      then happen (baseHost p) 2 (happen (baseHost p) 0 (linkSet p sp w 1 (if flit then 1 else 0) x))
      else happen (baseHost p) 0 (linkSet p sp w 1 (if flit then 1 else 0) x)) := by
    rw [← hx]
    refine if_neg ?_
    simp [hport, hperst, hoff, hhalt, hdown, h0, hsp, hw]
  have set := linkSet_spec p sp w 1 (if flit then 1 else 0) x
  generalize linkSet p sp w 1 (if flit then 1 else 0) x = y at *
  obtain ⟨told, first, page⟩ := happen_host_spec hp (i := 0) (by decide) y
  generalize happen (baseHost p) 0 y = z at *
  obtain ⟨told2, second, page2⟩ := happen_host_spec hp (i := 2) (by decide) z
  have both : raised (baseHost p) 0 (happen (baseHost p) 2 z) = true :=
    raisedKept.happen (.refl z) (baseHost p) 2 (baseHost_page p).1 (by decide) (srcOf_baseHost_lt hp (by decide)) _ _
      (baseHost_page p).1 (baseHost_page p).2 (by decide) told
  obtain ⟨v, hv, told0, toldLess, evt, fields⟩ : ∃ v, linkUp p sp w flit s = v ∧ raised (baseHost p) 0 v = true ∧
      (sp < maxSpeed s p ∨ w < layoutWidth s → raised (baseHost p) 2 v = true) ∧ evtOnly y v ∧
      ∀ f : Fld, f.addr = Reg.HOST_LINK_STATUS p → getF v f = getF y f := by
    by_cases hless : sp < maxSpeed s p ∨ w < layoutWidth s
    · exact ⟨_, heq.trans (if_pos hless), both, fun _ => told2, first.trans second, fun f hf => (page2 f hf).trans (page f hf)⟩
    · exact ⟨_, heq.trans (if_neg hless), told, fun h => absurd h hless, first, page⟩
  rw [hv]
  have hspeed := maxSpeed_lt s p
  have hwidth := layoutWidth_lt s
  refine ⟨?_, ?_, ?_, ?_, told0, toldLess, ?_, ?_⟩
  · rw [isSet, fields _ rfl, set.up]
    rfl
  · rw [fields _ rfl, set.speed, Nat.mod_eq_of_lt (by omega)]
  · rw [fields _ rfl, set.width, Nat.mod_eq_of_lt (by omega)]
  · rw [isSet, fields _ rfl, set.flit]
    cases flit <;> rfl
  · exact ((regsKeptE.of_regs regs).trans set.kept.toE).of_evtOnly evt
  · exact (xparts.trans (set.parts.mono (by decide))).of_evtOnly evt

theorem linkUp_of_not {flit : Bool} (h : hasPort s p = false ∨ p ∈ s.top.perst ∨ s.top.off = true ∨ s.top.halted = true ∨
    isSet s (F.HOST_LINK_STATUS_UP p) = true ∨ sp = 0 ∨ maxSpeed s p < sp ∨ layoutWidth s < w) : linkUp p sp w flit s = s := by
  refine if_pos ?_
  rcases h with h | h | h | h | h | h | h | h <;> simp [h]

/-- What a link that goes down leaves: its status cleared, its event, and no more of the host than its recovery. -/
structure LinkDown (p : Nat) (s t : State) : Prop where
  down : isSet t (F.HOST_LINK_STATUS_UP p) = false
  told : raised (baseHost p) 1 t = true
  recov : p ∉ t.host.recov
  cmds : t.host.cmds = s.host.cmds
  fns : t.host.fns = s.host.fns
  paused : t.host.paused = s.host.paused
  kept : regsKeptE (· = Reg.HOST_LINK_STATUS p) s t
  parts : changesOnly (.host :: eventParts) s t

theorem linkDown_spec (hp : p < 2) (hup : isSet s (F.HOST_LINK_STATUS_UP p) = true) : LinkDown p s (linkDown p s) := by
  have set := linkSet_spec p 0 0 0 0 s
  have heq : linkDown p s = happen (baseHost p) 1 { linkSet p 0 0 0 0 s with
      host := { (linkSet p 0 0 0 0 s).host with recov := removeNat p (linkSet p 0 0 0 0 s).host.recov } } := if_pos hup
  rw [heq]
  generalize linkSet p 0 0 0 0 s = y at *
  generalize hz : ({ y with host := _ } : State) = z
  have regs : z.regs = y.regs := hz ▸ rfl
  have recov : z.host.recov = removeNat p y.host.recov := hz ▸ rfl
  have cmds : z.host.cmds = y.host.cmds := hz ▸ rfl
  have fns : z.host.fns = y.host.fns := hz ▸ rfl
  have paused : z.host.paused = y.host.paused := hz ▸ rfl
  have parts : changesOnly [.host] y z := hz ▸ .host (.refl _ y)
  obtain ⟨told, evt, page⟩ := happen_host_spec hp (i := 1) (by decide) z
  have host : (happen (baseHost p) 1 z).host = z.host := happen_host ..
  generalize happen (baseHost p) 1 z = v at *
  exact
    { down := by
        rw [isSet, page _ rfl, getF_congr _ regs, set.up]
        rfl
      told
      recov := by
        rw [host, recov]
        exact not_mem_removeNat p _
      cmds := by rw [host, cmds, set.parts.host_eq]
      fns := by rw [host, fns, set.parts.host_eq]
      paused := by rw [host, paused, set.parts.host_eq]
      kept := (set.kept.toE.congr regs).of_evtOnly evt
      parts := ((set.parts.mono (by decide)).trans (parts.mono (by decide))).of_evtOnly evt }

/-! ### A port's reset -/

/-- A function's reset with its port. -/
def portFnReset (fn : Nat) (t : State) : State := setFn fn { getFn (resetFn fn t) fn with vf := false } (resetFn fn t)

/-- What a port's reset leaves: its functions disabled and without commands, the others as they were. -/
structure PortReset (l : List Nat) (s t : State) : Prop where
  sub : ∀ x ∈ t.host.cmds, x ∈ s.host.cmds
  off : ∀ fn ∈ l, (getFn t fn).en = false ∧ (getFn t fn).vf = false ∧ ∀ x ∈ t.host.cmds, x.2.h.fn ≠ fn
  others : ∀ fn, fn ∉ l → getFn t fn = getFn s fn
  recov : t.host.recov = s.host.recov
  parts : changesOnly [.host, .map, .sec] s t

theorem portReset_foldl (l : List Nat) (h : NoStarted s) : PortReset l s (l.foldl (fun t fn => portFnReset fn t) s) := by
  induction l generalizing s with
  | nil => exact ⟨fun _ hx => hx, fun _ hf => absurd hf List.not_mem_nil, fun _ _ => rfl, rfl, .refl _ s⟩
  | cons a l ih =>
    obtain ⟨reset, hfn⟩ := fnReset_resetFn h a
    have set := reset.setFn { getFn (resetFn a s) a with vf := false }
    have value : getFn (portFnReset a s) a = { fnReset (getFn s a) with vf := false } := (getFn_setFn ..).trans (by rw [hfn])
    change FnReset a s (portFnReset a s) at set
    rw [List.foldl_cons]
    generalize portFnReset a s = x at *
    have rest := ih set.none
    exact
      { sub := fun y hy => set.sub y (rest.sub y hy)
        off := fun fn hf => by
          by_cases hl : fn ∈ l
          · exact rest.off fn hl
          · obtain rfl := (List.mem_cons.mp hf).resolve_right hl
            rw [rest.others fn hl, value]
            exact ⟨rfl, rfl, fun y hy => set.gone y (rest.sub y hy)⟩
        others := fun fn hf => by
          rw [rest.others fn fun hl => hf (List.mem_cons_of_mem _ hl), set.fns fn fun he => hf (he ▸ List.mem_cons_self)]
        recov := rest.recov.trans set.recov
        parts := set.parts.trans rest.parts }

theorem portReset_spec (h : NoStarted s) (p : Nat) : PortReset (portFns s p) s (resetPort p s) := portReset_foldl _ h

theorem mem_portFns : fn ∈ portFns s p ↔ fn < 64 ∧ portOf s fn = p := by
  rw [portFns, List.mem_filter, List.mem_range, decide_eq_true_eq]

/-- The port of a function rests on the strap, which no link changes. -/
theorem portOf_of_link (h : regsKeptE (· = Reg.HOST_LINK_STATUS p) s t) (fn : Nat) : portOf t fn = portOf s fn := by
  have strap : getF t F.TOP_STRAP_PORT = getF s F.TOP_STRAP_PORT :=
    h.getF (by simp only [Reg.HOST_LINK_STATUS, Reg.TOP_STRAP]; omega) (by decide)
  rw [portOf, portOf, twoPort, twoPort, strap]

/-- The reset that goes with a link, or that waits for the end of the pause. -/
structure ResetWith (p : Nat) (s x t : State) : Prop where
  regs : t.regs = x.regs
  recov : t.host.recov = x.host.recov
  top : t.top = x.top
  off : pausedPort s p = false → ∀ fn, fn < 64 → portOf s fn = p →
    (getFn t fn).en = false ∧ (getFn t fn).vf = false ∧ ∀ y ∈ t.host.cmds, y.2.h.fn ≠ fn
  others : ∀ fn, portOf s fn ≠ p → getFn t fn = getFn s fn
  waits : pausedPort s p = true → t.host.paused = x.host.paused ++ [(2, p)]

theorem resetWith {x : State} (h : NoStarted s) (hcmds : x.host.cmds = s.host.cmds) (hfns : x.host.fns = s.host.fns)
    (hkept : regsKeptE (· = Reg.HOST_LINK_STATUS p) s x) : ResetWith p s x (orPaused 2 p p (resetPort p) x) := by
  have paused : pausedPort x p = pausedPort s p :=
    isSet_of_getF (hkept.getF (by simp) (decide_eq_true (by simp only [Reg.HOST_CPL_STAT]; omega)))
  have fns : ∀ fn, getFn x fn = getFn s fn := fun fn => by rw [getFn, hfns, getFn]
  unfold orPaused
  rw [paused]
  by_cases hpause : pausedPort s p = true
  · rw [if_pos hpause]
    exact ⟨rfl, rfl, rfl, fun hno => absurd (hpause.symm.trans hno) (by decide), fun fn _ => fns fn, fun _ => rfl⟩
  · rw [if_neg hpause]
    have reset := portReset_spec (h.congr hcmds) p
    generalize resetPort p x = t at *
    exact
      { regs := reset.parts.regs_eq
        recov := reset.recov
        top := reset.parts.top_eq
        off := fun _ fn hlt hport => reset.off fn (mem_portFns.mpr ⟨hlt, (portOf_of_link hkept fn).trans hport⟩)
        others := fun fn hport => by
          rw [reset.others fn fun hmem => hport ((portOf_of_link hkept fn).symm.trans (mem_portFns.mp hmem).2), fns fn]
        waits := fun hyes => absurd hyes hpause }

/-! ### Widths -/

theorem retrain_spec (hup : isSet s (F.HOST_LINK_STATUS_UP p) = true) :
    p ∈ (retrain p s).host.recov ∧ changesOnly [.host] s (retrain p s) := by
  unfold retrain
  rw [if_pos hup]
  exact ⟨mem_insertNat.mpr (.inl rfl), .host (.refl _ s)⟩

theorem recoveryExit_spec (hw : w < 32) (hrecov : p ∈ s.host.recov) :
    p ∉ (recoveryExit p w s).host.recov ∧ getF (recoveryExit p w s) (F.HOST_LINK_STATUS_WIDTH p) = w ∧
      regsKept (· = Reg.HOST_LINK_STATUS p) s (recoveryExit p w s) ∧ changesOnly [.regs, .host] s (recoveryExit p w s) := by
  unfold recoveryExit
  rw [if_pos (List.contains_iff_mem.mpr hrecov)]
  generalize hx : ({ s with host := { s.host with recov := removeNat p s.host.recov } } : State) = x
  have regs : x.regs = s.regs := hx ▸ rfl
  have recov : x.host.recov = removeNat p s.host.recov := hx ▸ rfl
  have parts : changesOnly [.regs, .host] s x := hx ▸ .host (.refl _ s)
  refine ⟨?_, ?_, .setF (.of_regs regs) _ _ rfl, .setF parts _ _⟩
  · rw [setF_host, recov]
    exact not_mem_removeNat p _
  · rw [getF_setF_same _ _ _ (by simp [Fld.ok])]
    exact Nat.mod_eq_of_lt hw

section

variable {up : Bool} (hup : isSet s (F.HOST_LINK_STATUS_UP p) = true) (hw : getF s (F.HOST_LINK_STATUS_WIDTH p) ≠ levelWidth s p)
include hup hw

theorem widthChange_of_able (h1 : up = true) (h2 : isSet s F.KILN_CFG_LINK_EN = true) : widthChange p up s = retrain p s :=
  (if_pos ⟨hup, hw⟩).trans (if_pos (by simp [h1, h2]))

theorem widthChange_of_fixed (h : up = false ∨ isSet s F.KILN_CFG_LINK_EN = false) (hfix : isSet s F.KILN_STATUS_LINK_FIXED = true) :
    widthChange p up s = s := by
  refine (if_pos ⟨hup, hw⟩).trans ((if_neg ?_).trans (if_pos hfix))
  rcases h with h | h <;> simp [h]

theorem widthChange_of_unable (h : up = false ∨ isSet s F.KILN_CFG_LINK_EN = false) (hfix : isSet s F.KILN_STATUS_LINK_FIXED = false) :
    widthChange p up s = happen baseKiln 6 (setF F.KILN_STATUS_LINK_FIXED 1 s) := by
  refine (if_pos ⟨hup, hw⟩).trans ((if_neg ?_).trans (if_neg (by simp [hfix])))
  rcases h with h | h <;> simp [h]

end

theorem linkFixed_spec (s : State) :
    isSet (happen baseKiln 6 (setF F.KILN_STATUS_LINK_FIXED 1 s)) F.KILN_STATUS_LINK_FIXED = true ∧
      raised baseKiln 6 (happen baseKiln 6 (setF F.KILN_STATUS_LINK_FIXED 1 s)) = true ∧
      regsKeptE (· = Reg.KILN_STATUS) s (happen baseKiln 6 (setF F.KILN_STATUS_LINK_FIXED 1 s)) ∧
      changesOnly eventParts s (happen baseKiln 6 (setF F.KILN_STATUS_LINK_FIXED 1 s)) := by
  refine ⟨?_, raised_happen _ _ _ (by decide) (by decide) (by decide) (by decide), .happen (.setF (.refl s) F.KILN_STATUS_LINK_FIXED _) baseKiln 6,
    .happen (.setF (.refl _ s) _ _) baseKiln 6⟩
  rw [isSet, getF_happen (by decide) (by decide) (by decide), getF_setF_same _ _ _ (by unfold Fld.ok; decide)]
  rfl

theorem widthChange_of_right {up : Bool} (h : isSet s (F.HOST_LINK_STATUS_UP p) = false ∨
    getF s (F.HOST_LINK_STATUS_WIDTH p) = levelWidth s p) : widthChange p up s = s := by
  refine if_neg ?_
  rintro ⟨hup, hw⟩
  rcases h with h | h
  · exact Bool.false_ne_true (h.symm.trans hup)
  · exact hw h

/-! ### The obligation -/

/-- A port's reset by its rows: it is out of DL_Active, in PERST, and its functions are reset. -/
theorem portResetDo_spec (hp : p < 2) (hoff : s.top.off = false) (hhalt : s.top.halted = false) (hport : hasPort s p = true)
    (h : NoStarted s) :
    isSet (portResetDo p s) (F.HOST_LINK_STATUS_UP p) = false ∧ p ∈ (portResetDo p s).top.perst ∧
      (pausedPort s p = false → ∀ fn, fn < 64 → portOf s fn = p → (getFn (portResetDo p s) fn).en = false ∧
        (getFn (portResetDo p s) fn).vf = false ∧ ∀ x ∈ (portResetDo p s).host.cmds, x.2.h.fn ≠ fn) ∧
      (∀ fn, portOf s fn ≠ p → getFn (portResetDo p s) fn = getFn s fn) := by
  generalize hx : ({ s with top := { s.top with perst := insertNat p s.top.perst } } : State) = x
  have heq : portResetDo p s = orPaused 2 p p (resetPort p) (linkDown p x) :=
    hx ▸ (if_neg (by simp [hoff, hhalt])).trans (if_pos hport)
  have regs : x.regs = s.regs := hx ▸ rfl
  have host : x.host = s.host := hx ▸ rfl
  have perst : p ∈ x.top.perst := hx ▸ mem_insertNat.mpr (.inl rfl)
  obtain ⟨y, hy, down, cmds, fns, top, kept⟩ : ∃ y, linkDown p x = y ∧ isSet y (F.HOST_LINK_STATUS_UP p) = false ∧
      y.host.cmds = x.host.cmds ∧ y.host.fns = x.host.fns ∧ y.top = x.top ∧ regsKeptE (· = Reg.HOST_LINK_STATUS p) x y := by
    by_cases hup : isSet x (F.HOST_LINK_STATUS_UP p) = true
    · have done := linkDown_spec hp hup
      exact ⟨_, rfl, done.down, done.cmds, done.fns, done.parts.top_eq, done.kept⟩
    · exact ⟨x, if_neg hup, Bool.eq_false_iff.mpr hup, rfl, rfl, rfl, .refl x⟩
  have reset := resetWith (p := p) (x := y) h (cmds.trans (congrArg HostSt.cmds host)) (fns.trans (congrArg HostSt.fns host))
    ((regsKeptE.of_regs regs).trans kept)
  rw [heq, hy]
  generalize orPaused 2 p p (resetPort p) y = t at *
  exact ⟨(isSet_of_getF (getF_congr _ reset.regs)).trans down, by rw [reset.top, top]; exact perst, reset.off, reset.others⟩

/-- Settles O40: each row by what it does to HOST_LINK_STATUS and to the port's functions. -/
theorem linksTrainAndPortsReset : Obligations.LinksTrainAndPortsReset := by
  unfold Obligations.LinksTrainAndPortsReset
  refine fun s p hp => ⟨?up, ?noUp, ?noDown, ?down, ?offReset, ?noPort, ?reset, ?perst, ?retrain, ?leave, ?noExit, ?width, ?right, ?aer,
    ?noAer⟩
  case up =>
    exact fun sp w flit hport hperst hoff hhalt hdown h0 hsp hw =>
      ⟨_, rfl, linkUp_spec hp hport hperst hoff hhalt hdown h0 hsp hw⟩
  case noUp => exact fun sp w flit h => congrArg Host.Outcome.next (linkUp_of_not h)
  case noDown => exact fun h => congrArg Host.Outcome.next (if_neg (Bool.eq_false_iff.mp h))
  case down =>
    intro hup hstarted
    have done := linkDown_spec hp hup
    have reset := resetWith (p := p) hstarted done.cmds done.fns done.kept
    have hrun : completes (.hostLinkDown p) s (orPaused 2 p p (resetPort p) (linkDown p s)) := congrArg Host.Outcome.next (if_pos hup)
    generalize linkDown p s = x at *
    generalize orPaused 2 p p (resetPort p) x = t at *
    refine ⟨t, hrun, (isSet_of_getF (getF_congr _ reset.regs)).trans done.down, ?_, ?_, done.kept.congr reset.regs, reset.off,
      reset.others, fun h => (reset.waits h).trans (by rw [done.paused])⟩
    · rw [raised_of_rd (rd_congr reset.regs _), done.told]
    · rw [reset.recov]
      exact done.recov
  case offReset => exact fun h => congrArg Host.Outcome.next (if_pos h)
  case noPort =>
    exact fun hoff hhalt hport => congrArg Host.Outcome.next ((if_neg (by simp [hoff, hhalt])).trans (if_neg (by simp [hport])))
  case reset => exact fun hoff hhalt hport hstarted => ⟨_, rfl, portResetDo_spec hp hoff hhalt hport hstarted⟩
  case perst =>
    refine ⟨_, rfl, ?_⟩
    unfold perstHigh
    dsimp only
    split
    · next h =>
      exact ⟨not_mem_removeNat _ _, .top (.top (.refl _ s)), fun _ _ => rfl, fun hoff hhalt => by simp [hoff, hhalt] at h⟩
    · next h =>
      exact ⟨not_mem_removeNat _ _, .top (.refl _ s), fun hoff hperst => absurd ⟨hoff, List.contains_iff_mem.mpr hperst⟩ h,
        fun _ _ => rfl⟩
  case retrain =>
    intro hreach
    have hrun : completes (.hostLinkRetrain p) s (retrain p s) := congrArg Host.Outcome.next (guarded_ok _ hreach)
    refine ⟨fun hdown => hrun.trans (congrArg Host.Outcome.next (if_neg (Bool.eq_false_iff.mp hdown))), fun hup => ?_⟩
    obtain ⟨recov, parts⟩ := retrain_spec hup
    refine ⟨_, hrun, recov, fun fn hfn => ?_, parts⟩
    simp [serving, hfn, recov]
  case leave => exact fun w hw hrecov => ⟨_, rfl, recoveryExit_spec hw hrecov⟩
  case noExit => exact fun w h => congrArg Host.Outcome.next (if_neg fun hc => h (List.contains_iff_mem.mp hc))
  case width =>
    refine fun up hup hw => ⟨fun h1 h2 => ?_, fun h => ⟨fun hfix => ?_, fun hfix => ?_⟩⟩
    · exact ⟨_, congrArg Host.Outcome.next (widthChange_of_able hup hw h1 h2), retrain_spec hup⟩
    · exact congrArg Host.Outcome.next (widthChange_of_fixed hup hw h hfix)
    · exact ⟨_, congrArg Host.Outcome.next (widthChange_of_unable hup hw h hfix), linkFixed_spec s⟩
  case right => exact fun up h => congrArg Host.Outcome.next (widthChange_of_right h)
  case aer =>
    intro cor hup
    refine ⟨_, congrArg Host.Outcome.next (if_pos hup), ?_⟩
    obtain ⟨told, evt, -⟩ := happen_host_spec hp (i := if cor then 3 else 4) (by split <;> decide) s
    exact ⟨told, evt⟩
  case noAer => exact fun cor h => congrArg Host.Outcome.next (if_neg (Bool.eq_false_iff.mp h))

end Sys2Proof.Machine
end

/-! ## Power loss begins the grout and seals it (R17, R25, R28, R280 to R289, R358, R403) -/

section

-- One proof after another: elaborated side by side, the proofs of this text take more memory than its check allows.
set_option Elab.async false

namespace Sys2Proof.Machine

variable {s t u : State} {i j n b : Nat}

/-! ### HOLDUP_OK -/

theorem changesOnly_aen (fn typ info lid : Nat) (s : State) : changesOnly [.host] s (aen fn typ info lid s) := by
  unfold aen
  dsimp only
  split
  · exact .refl _ s
  · split
    · exact .host (.refl _ s)
    · exact .host (.host (.refl _ s))

theorem changesOnly_driveAen (s : State) : changesOnly [.host] s (driveAen s) := by
  refine .foldl (.refl _ s) fun u k _ => ?_
  split
  · exact .ite (changesOnly_aen ..) (.refl _ u)
  · exact .refl _ u

theorem Apart.driveAen (h : Apart i s t) : Apart i s (driveAen t) := by
  refine h.foldl fun u k _ hu => ?_
  split
  · split
    · exact hu.aen ..
    · exact hu
  · exact hu

theorem changesOnly_holdWrite (i : Nat) (s : State) : changesOnly [.host] s (holdWrite i s) := by
  unfold holdWrite
  dsimp only
  split
  · exact .host (.refl _ s)
  · exact .refl _ s

theorem slotHeld_congr (h : t.map = s.map) : slotHeld t = slotHeld s := by
  funext k
  rw [slotHeld, slotHeld, getSlot, getSlot, h]

theorem ackedSlots_congr (h : t.map = s.map) : ackedSlots t = ackedSlots s := by
  rw [ackedSlots, ackedSlots, slotHeld_congr h, h]

theorem getCmd_holdWrite_ne (h : j ≠ i) (s : State) : getCmd (holdWrite j s) i = getCmd s i := by
  unfold holdWrite
  dsimp only
  split
  · exact tget_tset_ne _ _ _ h.symm
  · rfl

/-- What a command that is ready before its data is programmed waits for. -/
def heldCmd (c : Cmd) (w : List Nat) : Cmd := { c with st := .working, waits := w }

theorem getCmd_holdWrite (hw : isWrite (getCmd s i).kind = true) (hst : (getCmd s i).st = .ready) (hp : (getCmd s i).planned = false)
    (hne : (getCmd s i).slots.filter (slotHeld s) ≠ []) :
    getCmd (holdWrite i s) i = heldCmd (getCmd s i) ((getCmd s i).slots.filter (slotHeld s)) := by
  unfold holdWrite
  dsimp only
  rw [if_pos (by simp only [hw, hst, hp, decide_true, Bool.not_false, Bool.and_true, decide_eq_true hne]), getCmd_setCmd]
  rfl

theorem holdWrite_of_working (h : (getCmd s i).st = .working) : holdWrite i s = s := if_neg (by simp [h])

theorem getCmd_holdWrites_working (l : List Nat) (h : (getCmd s i).st = .working) :
    getCmd (l.foldl (fun t j => holdWrite j t) s) i = getCmd s i := by
  induction l generalizing s with
  | nil => rfl
  | cons j l ih =>
    rw [List.foldl_cons]
    by_cases hj : j = i
    · rw [hj, holdWrite_of_working h, ih h]
    · have same := getCmd_holdWrite_ne hj s
      rw [ih (by rw [same, h]), same]

theorem getCmd_holdWrites {l : List Nat} (hmem : i ∈ l) (hw : isWrite (getCmd s i).kind = true) (hst : (getCmd s i).st = .ready)
    (hp : (getCmd s i).planned = false) (hne : (getCmd s i).slots.filter (slotHeld s) ≠ []) :
    getCmd (l.foldl (fun t j => holdWrite j t) s) i = heldCmd (getCmd s i) ((getCmd s i).slots.filter (slotHeld s)) := by
  induction l generalizing s with
  | nil => cases hmem
  | cons j l ih =>
    rw [List.foldl_cons]
    by_cases hj : j = i
    · have held := getCmd_holdWrite hw hst hp hne
      rw [hj, getCmd_holdWrites_working l (by rw [held]; rfl), held]
    · have same := getCmd_holdWrite_ne hj s
      have slots := slotHeld_congr (changesOnly_holdWrite j s).map_eq
      rw [ih ((List.mem_cons.mp hmem).resolve_left (Ne.symm hj)) (same ▸ hw) (same ▸ hst) (same ▸ hp) (by rw [same, slots]; exact hne),
        same, slots]

theorem mem_keys_of_getCmd (h : (getCmd s i).st = .ready) : i ∈ s.host.cmds.map (·.1) := by
  by_contra hno
  have none : s.host.cmds.find? (fun p => p.1 == i) = none :=
    List.find?_eq_none.mpr fun p hp hk => hno (List.mem_map.mpr ⟨p, hp, by simpa using hk⟩)
  rw [getCmd, tget, none] at h
  exact CmdSt.noConfusion h

/-- The state in which HOLDUP_OK's loss is noted and its ready writes held, and the drain begins. -/
structure HoldupLost (s u : State) : Prop where
  ok : isSet u F.PWR_HOLDUP_STAT_HOLDUP_OK = false
  through : isSet u F.PWR_HOLDUP_STAT_WRITE_THROUGH = true
  told : raised basePwr 8 u = true
  okFrom : u.grout.okFrom = frameNow s
  frozen : u.grout.frozen = s.grout.frozen
  drain : u.grout.drain = s.grout.drain
  kept : regsKeptE (· = Reg.PWR_HOLDUP_STAT) s u
  parts : changesOnly (.host :: .grout :: eventParts) s u
  held : ∀ i, (∀ fn, i ∉ (getFn s fn).aers) → isWrite (getCmd s i).kind = true → (getCmd s i).st = .ready →
    (getCmd s i).planned = false → (getCmd s i).slots.filter (slotHeld s) ≠ [] →
    (getCmd u i).st = .working ∧ (getCmd u i).waits = (getCmd s i).slots.filter (slotHeld s)

/-- HOLDUP_OK's loss, before the drain. -/
def holdupNoted (s : State) : State :=
  let x := driveAen (happen basePwr 8 (setF F.PWR_HOLDUP_STAT_WRITE_THROUGH 1 (setF F.PWR_HOLDUP_STAT_HOLDUP_OK 0 (holdupFrom s))))
  (x.host.cmds.map (·.1)).foldl (fun t i => holdWrite i t) x

theorem holdupNoted_spec (s : State) : HoldupLost s (holdupNoted s) := by
  unfold holdupNoted
  dsimp only
  have hfrom : changesOnly [.grout] s (holdupFrom s) := .grout (.refl _ s)
  have okFrom : (holdupFrom s).grout.okFrom = frameNow s := rfl
  have frozen : (holdupFrom s).grout.frozen = s.grout.frozen := rfl
  have drain : (holdupFrom s).grout.drain = s.grout.drain := rfl
  generalize holdupFrom s = a at *
  generalize hy : setF F.PWR_HOLDUP_STAT_WRITE_THROUGH 1 (setF F.PWR_HOLDUP_STAT_HOLDUP_OK 0 a) = y at *
  have ok : getF y F.PWR_HOLDUP_STAT_HOLDUP_OK = 0 := by
    rw [← hy, getF_setF_apart _ _ _ _ (by unfold Fld.ok; decide) (by decide), getF_setF_same _ _ _ (by unfold Fld.ok; decide)]
    rfl
  have through : getF y F.PWR_HOLDUP_STAT_WRITE_THROUGH = 1 := by
    rw [← hy, getF_setF_same _ _ _ (by unfold Fld.ok; decide)]
    rfl
  have ykept : regsKept (· = Reg.PWR_HOLDUP_STAT) a y :=
    hy ▸ .setF (.setF (.refl a) F.PWR_HOLDUP_STAT_HOLDUP_OK _) F.PWR_HOLDUP_STAT_WRITE_THROUGH _
  have yparts : changesOnly [.regs] a y := hy ▸ .setF (.setF (.refl _ a) _ _) _ _
  have told : raised basePwr 8 (happen basePwr 8 y) = true :=
    raised_happen _ _ _ (by decide) (by decide) (by decide) (by decide)
  have evt := evtOnly_happen basePwr 8 y (by decide) (by decide)
  have upto : changesOnly (.grout :: eventParts) s (happen basePwr 8 y) :=
    ((hfrom.mono (by decide)).trans (yparts.mono (by decide))).of_evtOnly evt
  have aens := changesOnly_driveAen (happen basePwr 8 y)
  have apart : ∀ i, (∀ fn, i ∉ (getFn s fn).aers) → Apart i s (driveAen (happen basePwr 8 y)) := fun i hfree =>
    ((Apart.refl hfree).of_parts upto).driveAen
  generalize driveAen (happen basePwr 8 y) = x at *
  have writes : changesOnly [.host] x ((x.host.cmds.map (·.1)).foldl (fun t i => holdWrite i t) x) :=
    .foldl (.refl _ x) fun u j _ => changesOnly_holdWrite j u
  have all : changesOnly [.host] (happen basePwr 8 y) ((x.host.cmds.map (·.1)).foldl (fun t i => holdWrite i t) x) := aens.trans writes
  have regs := all.regs_eq
  have grout : ((x.host.cmds.map (·.1)).foldl (fun t i => holdWrite i t) x).grout = a.grout :=
    all.grout_eq.trans (evt.1.grout_eq.trans yparts.grout_eq)
  constructor
  case ok =>
    rw [isSet, getF_congr _ regs, evt.getF (not_eventReg_of_quiet (by decide)), ok]
    rfl
  case through =>
    rw [isSet, getF_congr _ regs, evt.getF (not_eventReg_of_quiet (by decide)), through]
    rfl
  case told => rw [raised_of_rd (rd_congr regs _), told]
  case okFrom => rw [grout, okFrom]
  case frozen => rw [grout, frozen]
  case drain => rw [grout, drain]
  case kept => exact (((regsKeptE.of_regs hfrom.regs_eq).trans ykept.toE).of_evtOnly evt).congr regs
  case parts => exact (upto.mono (by decide)).trans (all.mono (by decide))
  case held =>
    intro i hfree hw hst hp hne
    have apart := apart i hfree
    have slots : slotHeld x = slotHeld s := slotHeld_congr (aens.map_eq.trans upto.map_eq)
    have cmd := getCmd_holdWrites (s := x) (mem_keys_of_getCmd (by rw [apart.cmd]; exact hst)) (by rw [apart.cmd]; exact hw)
      (by rw [apart.cmd]; exact hst) (by rw [apart.cmd]; exact hp) (by rw [apart.cmd, slots]; exact hne)
    rw [cmd, apart.cmd, slots]
    exact ⟨rfl, rfl⟩

/-- The drain as it is noted. -/
def drainNoted (s : State) : State :=
  setF F.PWR_HOLDUP_STAT_DRAINING (if ackedSlots s = [] then 0 else 1) { s with grout := { s.grout with drain := ackedSlots s } }

theorem drainNoted_spec (s : State) :
    (drainNoted s).grout.drain = ackedSlots s ∧ (drainNoted s).grout.okFrom = s.grout.okFrom ∧
      (drainNoted s).grout.frozen = s.grout.frozen ∧
      isSet (drainNoted s) F.PWR_HOLDUP_STAT_DRAINING = decide (ackedSlots s ≠ []) ∧
      getF (drainNoted s) F.PWR_HOLDUP_STAT_HOLDUP_OK = getF s F.PWR_HOLDUP_STAT_HOLDUP_OK ∧
      getF (drainNoted s) F.PWR_HOLDUP_STAT_WRITE_THROUGH = getF s F.PWR_HOLDUP_STAT_WRITE_THROUGH ∧
      regsKept (· = Reg.PWR_HOLDUP_STAT) s (drainNoted s) ∧ changesOnly [.regs, .grout] s (drainNoted s) := by
  unfold drainNoted
  generalize hx : ({ s with grout := { s.grout with drain := ackedSlots s } } : State) = x
  have regs : x.regs = s.regs := hx ▸ rfl
  have grout : x.grout = { s.grout with drain := ackedSlots s } := hx ▸ rfl
  have parts : changesOnly [.regs, .grout] s x := hx ▸ .grout (.refl _ s)
  have hok : F.PWR_HOLDUP_STAT_DRAINING.ok := by unfold Fld.ok; decide
  refine ⟨by rw [setF_grout, grout], by rw [setF_grout, grout], by rw [setF_grout, grout], ?_, ?_, ?_, .setF (.of_regs regs) _ _ rfl,
    .setF parts _ _⟩
  · rw [isSet, getF_setF_same _ _ _ hok]
    by_cases h : ackedSlots s = [] <;> simp [h]
  · rw [getF_setF_apart _ _ _ _ hok (by decide), getF_congr _ regs]
  · rw [getF_setF_apart _ _ _ _ hok (by decide), getF_congr _ regs]

theorem mapOpen_congr (hm : getF t F.TOP_MODE_MODE = getF s F.TOP_MODE_MODE) (ht : t.top = s.top) (hf : t.grout.frozen = s.grout.frozen)
    (hl : t.map = s.map) : mapOpen t = mapOpen s := by
  rw [mapOpen, mapOpen, running, running, mapStill, mapStill, modeNow, modeNow, hm, ht, hf, hl]

theorem holdupLost_eq (hok : isSet s F.PWR_HOLDUP_STAT_HOLDUP_OK = true) :
    holdupLost s = if mapOpen (drainNoted (holdupNoted s)) then
      ((ackedSlots s).filterMap (fun k => (getSlot (drainNoted (holdupNoted s)) k).course)).foldl (fun t c => palletMove c t)
        (drainNoted (holdupNoted s)) else drainNoted (holdupNoted s) := by
  have lost := holdupNoted_spec s
  have heq : holdupLost s = holdupDrain (holdupNoted s) := if_neg (by simp [hok])
  rw [heq]
  generalize holdupNoted s = x at *
  have hdrain : holdupDrain x = if mapOpen x then
      ((ackedSlots x).filterMap (fun k => (getSlot x k).course)).foldl (fun t c => palletMove c t) (drainNoted x) else drainNoted x := rfl
  obtain ⟨-, -, frozen, -, -, -, kept, parts⟩ := drainNoted_spec x
  rw [hdrain]
  generalize drainNoted x = v at *
  have hmode : getF v F.TOP_MODE_MODE = getF x F.TOP_MODE_MODE := kept.getF (by decide)
  rw [mapOpen_congr hmode parts.top_eq frozen parts.map_eq, ackedSlots_congr lost.parts.map_eq]
  have slot : ∀ k, getSlot v k = getSlot x k := fun k => by rw [getSlot, parts.map_eq, getSlot]
  simp only [slot]

theorem holdupBack_spec (hhead : headerNow s = true) (hok : isSet s F.PWR_HOLDUP_STAT_HOLDUP_OK = false)
    (hfrom : s.grout.okFrom + 1 + getNZ s F.PWR_HOLDUP_CFG_OK_FRAMES ≤ frameNow s) :
    isSet (holdupBack s) F.PWR_HOLDUP_STAT_HOLDUP_OK = true ∧ isSet (holdupBack s) F.PWR_HOLDUP_STAT_WRITE_THROUGH = false ∧
      raised basePwr 9 (holdupBack s) = true ∧ regsKeptE (· = Reg.PWR_HOLDUP_STAT) s (holdupBack s) ∧
      changesOnly (.host :: eventParts) s (holdupBack s) := by
  have heq : holdupBack s = driveAen (happen basePwr 9 (setF F.PWR_HOLDUP_STAT_WRITE_THROUGH 0 (setF F.PWR_HOLDUP_STAT_HOLDUP_OK 1 s))) :=
    if_pos (by simp [hhead, hok, hfrom])
  rw [heq]
  generalize hy : setF F.PWR_HOLDUP_STAT_WRITE_THROUGH 0 (setF F.PWR_HOLDUP_STAT_HOLDUP_OK 1 s) = y
  have ok : getF y F.PWR_HOLDUP_STAT_HOLDUP_OK = 1 := by
    rw [← hy, getF_setF_apart _ _ _ _ (by unfold Fld.ok; decide) (by decide), getF_setF_same _ _ _ (by unfold Fld.ok; decide)]
    rfl
  have through : getF y F.PWR_HOLDUP_STAT_WRITE_THROUGH = 0 := by
    rw [← hy, getF_setF_same _ _ _ (by unfold Fld.ok; decide)]
    rfl
  have kept : regsKept (· = Reg.PWR_HOLDUP_STAT) s y :=
    hy ▸ .setF (.setF (.refl s) F.PWR_HOLDUP_STAT_HOLDUP_OK _) F.PWR_HOLDUP_STAT_WRITE_THROUGH _
  have parts : changesOnly [.regs] s y := hy ▸ .setF (.setF (.refl _ s) _ _) _ _
  have told : raised basePwr 9 (happen basePwr 9 y) = true :=
    raised_happen _ _ _ (by decide) (by decide) (by decide) (by decide)
  have evt := evtOnly_happen basePwr 9 y (by decide) (by decide)
  generalize happen basePwr 9 y = z at *
  have aens := changesOnly_driveAen z
  have regs := aens.regs_eq
  refine ⟨?_, ?_, by rw [raised_of_rd (rd_congr regs _), told], (kept.toE.of_evtOnly evt).congr regs,
    ((parts.mono (by decide)).of_evtOnly evt).trans (aens.mono (by decide))⟩
  · rw [isSet, getF_congr _ regs, evt.getF (not_eventReg_of_quiet (by decide)), ok]
    rfl
  · rw [isSet, getF_congr _ regs, evt.getF (not_eventReg_of_quiet (by decide)), through]
    rfl

theorem holdupBack_of_not (h : headerNow s = false ∨ isSet s F.PWR_HOLDUP_STAT_HOLDUP_OK = true ∨
    frameNow s < s.grout.okFrom + 1 + getNZ s F.PWR_HOLDUP_CFG_OK_FRAMES) : holdupBack s = s := by
  refine if_neg ?_
  rcases h with h | h | h
  · simp [h]
  · simp [h]
  · simp [Nat.not_le.mpr h]

/-! ### The causes of a grout -/

/-- The first cause begins a grout. -/
theorem groutCause_first (hrun : running u = true) (hno : grouting u = false) (hload : u.map.loaded = true) (b : Nat) :
    ∃ g, (groutCause b u).grout.img = some g ∧ g.cause = 2 ^ b ∧ g.id = u.grout.lastId + 1 ∧ g.beat = beatNow u ∧ g.done = false ∧
      (groutCause b u).grout.beat = some (beatNow u) ∧ (groutCause b u).grout.frozen = (u.grout.frozen || asleep u) ∧
      raised basePwr 10 (groutCause b u) = true := by
  unfold groutCause
  dsimp only
  rw [if_neg (by simp [hrun]), if_neg (by simp [hno])]
  have told : raised basePwr 10 (happen basePwr 10 u) = true :=
    raised_happen _ _ _ (by decide) (by decide) (by decide) (by decide)
  have evt := evtOnly_happen basePwr 10 u (by decide) (by decide)
  generalize happen basePwr 10 u = x at *
  have grout : x.grout = u.grout := evt.1.grout_eq
  have still : grouting x = false := by rw [grouting, grout, ← grouting, hno]
  have sleep : asleep x = asleep u := by rw [asleep, evt.getF (not_eventReg_of_quiet (by decide)), asleep]
  have beat : beatNow x = beatNow u := congrArg (fun b => b.count.toNat) evt.1.beat_eq
  have new : groutBegun x = grout0 x := if_neg (by simp [still, evt.1.map_eq, hload])
  rw [new, still, grout, sleep, beat]
  exact ⟨_, rfl, Nat.zero_or _, congrArg (fun g => g.lastId + 1) grout, beat, rfl, rfl, rfl, (raised_of_rd rfl).trans told⟩

/-- A later cause joins the mask of the grout under way. -/
theorem groutCause_join {g : GroutImg} (hrun : running u = true) (hyes : grouting u = true) (himg : u.grout.img = some g) (b : Nat) :
    (groutCause b u).grout.img = some { g with cause := Nat.lor g.cause (2 ^ b) } ∧ (groutCause b u).grout.beat = u.grout.beat := by
  have begun : groutBegun u = g := by rw [groutBegun, if_pos (by simp [hyes]), himg, Option.getD_some]
  unfold groutCause
  dsimp only
  rw [if_neg (by simp [hrun]), if_pos hyes, if_pos hyes, begun]
  exact ⟨rfl, rfl⟩

theorem grouting_groutCause (hrun : running u = true) (b : Nat) : grouting (groutCause b u) = true := by
  unfold groutCause
  dsimp only
  rw [if_neg (by simp [hrun])]
  generalize (if grouting u = true then u else happen basePwr 10 u) = x
  change (if grouting x = true then x.grout.beat else some (beatNow x)).isSome = true
  split
  · next h => exact h
  · rfl

/-- What is as it was where a cause of the grout acts. -/
structure CauseAt (s u : State) : Prop where
  running : running u = true
  grout : u.grout = s.grout
  map : u.map = s.map
  host : u.host = s.host
  beat : beatNow u = beatNow s
  asleep : asleep u = asleep s
  kept : regsKeptE (· = Reg.PWR_PG) s u
  parts : changesOnly (.top :: eventParts) s u

theorem causeAt {x : State} (hrun : running s = true) (hkept : regsKeptE (· = Reg.PWR_PG) s x) (hparts : changesOnly (.top :: eventParts) s x)
    (hstart : x.top.starting = s.top.starting) (hoff : x.top.off = s.top.off) (hhalt : x.top.halted = s.top.halted)
    (hseal : x.top.sealFrame = s.top.sealFrame) : CauseAt s x where
  running := by
    have hmode : modeNow x = modeNow s := hkept.getF (by decide) (by decide)
    rw [Machine.running, hmode, hstart, hoff, hhalt, hseal]
    exact hrun
  grout := hparts.grout_eq
  map := hparts.map_eq
  host := hparts.host_eq
  beat := congrArg (fun b => b.count.toNat) hparts.beat_eq
  asleep := by rw [Machine.asleep, hkept.getF (by decide) (by decide), Machine.asleep]
  kept := hkept
  parts := hparts

theorem causeAt_self (hrun : running s = true) : CauseAt s s := causeAt hrun (.refl s) (.refl _ s) rfl rfl rfl rfl

theorem causeAt_pgCore (hrun : running s = true) : CauseAt s (setF (bitF Reg.PWR_PG 0) 0 s) := by
  have top : (setF (bitF Reg.PWR_PG 0) 0 s).top = s.top := setF_top ..
  exact causeAt hrun (.setF (.refl s) _ _ rfl) (.setF (.refl _ s) _ _) (by rw [top]) (by rw [top]) (by rw [top]) (by rw [top])

/-- A FATAL event of a running part: its bit and FAULT_N, and then the grout's cause. -/
theorem fatal_eq (hrun : running s = true) {base i : Nat} (hb : base % 0x1000 = 0) (hs : srcOf base i < 256) :
    ∃ u, fatal base i s = groutCause 2 u ∧ CauseAt s u := by
  have evt := evtOnly_happen base i s hb hs
  have heq : fatal base i s = groutCause 2 (if running s then
      { happen base i s with top := { (happen base i s).top with faultN := true } } else happen base i s) := rfl
  rw [if_pos hrun] at heq
  generalize happen base i s = x at *
  generalize hy : ({ x with top := { x.top with faultN := true } } : State) = y at *
  have regs : y.regs = x.regs := hy ▸ rfl
  have top : y.top = { x.top with faultN := true } := hy ▸ rfl
  have parts : changesOnly [.top] x y := hy ▸ .top (.refl _ x)
  refine ⟨y, heq, causeAt hrun ((regsKeptE.of_evtOnly (.refl s) evt).congr regs) ((evt.1.mono (by decide)).trans (parts.mono (by decide)))
    ?_ ?_ ?_ ?_⟩ <;> rw [top, evt.1.top_eq]

/-- The rows that are causes of a grout. -/
theorem exec_cause {c : Instr} (hrun : running s = true) (hc : c = .powerFailRecognised ∧ b = (if asleep s then 4 else 0) ∨
      c = .pgCoreFall ∧ b = 1 ∧ bitsOf (getF s F.PWR_DOM_STAT_ON) 3 1 = 1 ∨
      c = .fatalEvent 8 ∧ b = 2 ∨ c = .fatalEvent 125 ∧ b = 2) :
    ∃ u, completes c s (groutCause b u) ∧ CauseAt s u := by
  have running : ¬ (!Machine.running s) = true := by simp [hrun]
  rcases hc with ⟨rfl, rfl⟩ | ⟨rfl, rfl, hon⟩ | ⟨rfl, rfl⟩ | ⟨rfl, rfl⟩
  · exact ⟨s, rfl, causeAt_self hrun⟩
  · exact ⟨_, congrArg Host.Outcome.next (if_pos hon), causeAt_pgCore hrun⟩
  · obtain ⟨u, heq, hu⟩ := fatal_eq hrun (base := baseTop) (i := 8) (by decide) (by decide)
    exact ⟨u, congrArg Host.Outcome.next ((if_neg running).trans ((if_pos rfl).trans heq)), hu⟩
  · obtain ⟨u, heq, hu⟩ := fatal_eq hrun (base := baseSec) (i := 5) (by decide) (by decide)
    exact ⟨u, congrArg Host.Outcome.next ((if_neg running).trans ((if_neg (by decide)).trans ((if_pos rfl).trans heq))), hu⟩

/-! ### A lost channel of map memory -/

theorem srcOf_baseMapmem_lt {c i : Nat} (hc : c < 4) (hi : i < 2) : srcOf (baseMapmem c) i < 256 := by
  have small : ∀ c < 4, ∀ i < 2, srcOf (baseMapmem c) i < 256 := by decide
  exact small c hc i hi

theorem baseMapmem_page (c : Nat) : baseMapmem c % 0x1000 = 0 ∧ baseMapmem c ≠ 0x5000 := by
  unfold baseMapmem
  omega

/-- A channel whose loss the part does not survive: FATAL, the recovery of the next start, and the grout. -/
theorem mapChannelLost_fatal {c : Nat} (hrun : running s = true) (hc : c < 4)
    (hdeg : isSet s (F.MAPMEM_LAYOUT_DEG_OK 0) = false ∨ degraded s = true) (hst : getF s (F.MAPMEM_STATUS_STATE c) ≠ 4) :
    getF (mapChannelLost c s) (F.MAPMEM_STATUS_STATE c) = 4 ∧ raised (baseMapmem c) 1 (mapChannelLost c s) = true ∧
      (mapChannelLost c s).top.recNext = true ∧ (mapChannelLost c s).top.faultN = true ∧ grouting (mapChannelLost c s) = true := by
  obtain ⟨hpage, hne⟩ := baseMapmem_page c
  have hsrc := srcOf_baseMapmem_lt hc (i := 1) (by decide)
  unfold mapChannelLost
  dsimp only
  rw [if_neg hst, if_neg (by rcases hdeg with h | h <;> simp [h])]
  generalize hx : setF (F.MAPMEM_STATUS_STATE c) 4 s = x
  have state : getF x (F.MAPMEM_STATUS_STATE c) = 4 := by
    rw [← hx, getF_setF_same _ _ _ (by simp [Fld.ok])]
    rfl
  have xrun : running x = true := by
    have hmode : modeNow x = modeNow s := by
      rw [modeNow, ← hx]
      exact getF_setF_ne _ _ _ _ (by simp only [Reg.TOP_MODE, Reg.MAPMEM_STATUS]; omega)
    rw [running, hmode, ← hx, setF_top]
    exact hrun
  obtain ⟨-, kept, -, told, fault⟩ := fatal_spec x hpage hne (i := 1) (by decide) hsrc
  obtain ⟨u, heq, hu⟩ := fatal_eq xrun hpage hsrc
  have grout : grouting (fatal (baseMapmem c) 1 x) = true := heq ▸ grouting_groutCause hu.running 2
  have quiet : quietReg (Reg.MAPMEM_STATUS c) = true := by
    refine decide_eq_true ?_
    simp only [Reg.MAPMEM_STATUS]
    omega
  have still : getF (fatal (baseMapmem c) 1 x) (F.MAPMEM_STATUS_STATE c) = getF x (F.MAPMEM_STATUS_STATE c) :=
    kept.getF (fun h => h) quiet
  have hfault := fault xrun
  generalize fatal (baseMapmem c) 1 x = y at *
  exact ⟨(getF_congr (s := y) _).trans (still.trans state), (raised_of_rd (s := y) rfl).trans told, rfl, hfault, grout⟩

/-! ### The seal -/

/-- Off: what AON alone keeps, and what stays. -/
structure OffEntered (s t : State) : Prop where
  off : t.top.off = true
  target : t.top.target = none
  doms : getF t F.PWR_DOM_STAT_ON = 1
  linkA : isSet t (F.HOST_LINK_STATUS_UP 0) = false
  linkB : isSet t (F.HOST_LINK_STATUS_UP 1) = false
  kept : regsKept (fun a => a = Reg.PWR_STATE ∨ a = Reg.PWR_DOM_STAT ∨ a = Reg.HOST_LINK_STATUS 0 ∨ a = Reg.HOST_LINK_STATUS 1) s t
  parts : changesOnly [.regs, .top] s t

theorem offEntered (s : State) : OffEntered s (enterOff s) := by
  unfold enterOff
  extract_lets s1 s2
  have doms1 : getF s1 F.PWR_DOM_STAT_ON = 1 := by
    rw [getF_setF_apart _ _ _ _ (by unfold Fld.ok; decide) (by decide), getF_setF_same _ _ _ (by unfold Fld.ok; decide)]
    rfl
  have kept1 : regsKept (fun a => a = Reg.PWR_STATE ∨ a = Reg.PWR_DOM_STAT ∨ a = Reg.HOST_LINK_STATUS 0 ∨ a = Reg.HOST_LINK_STATUS 1) s s1 :=
    .setF (.setF (.setF (.refl s) _ _ (.inl rfl)) _ _ (.inr (.inl rfl))) _ _ (.inr (.inl rfl))
  have parts1 : changesOnly [.regs, .top] s s1 := .setF (.setF (.setF (.refl _ s) _ _) _ _) _ _
  clear_value s1
  have linkB : getF s2 (F.HOST_LINK_STATUS_UP 1) = 0 := by
    rw [getF_setF_same _ _ _ (by unfold Fld.ok; decide)]
    rfl
  have linkA : getF s2 (F.HOST_LINK_STATUS_UP 0) = 0 := by
    rw [getF_setF_ne _ _ _ _ (by decide), getF_setF_ne _ _ _ _ (by decide), getF_setF_ne _ _ _ _ (by decide),
      getF_setF_same _ _ _ (by unfold Fld.ok; decide)]
    rfl
  have kept2 : regsKept (fun a => a = Reg.HOST_LINK_STATUS 0 ∨ a = Reg.HOST_LINK_STATUS 1) s1 s2 :=
    .setF (.setF (.setF (.setF (.setF (.setF (.refl s1) _ _ (.inl rfl)) _ _ (.inl rfl)) _ _ (.inl rfl)) _ _ (.inr rfl)) _ _ (.inr rfl))
      _ _ (.inr rfl)
  have parts2 : changesOnly [.regs] s1 s2 := .setF (.setF (.setF (.setF (.setF (.setF (.refl _ s1) _ _) _ _) _ _) _ _) _ _) _ _
  clear_value s2
  exact
    { off := rfl
      target := rfl
      doms := (getF_congr (s := s2) _).trans ((kept2.getF (by decide)).trans doms1)
      linkA := by rw [isSet, getF_congr (s := s2), linkA]; rfl
      linkB := by rw [isSet, getF_congr (s := s2), linkB]; rfl
      kept := (kept1.trans (kept2.mono fun a h => by rcases h with h | h <;> simp [h])).congr
      parts := .top (parts1.trans (parts2.mono (by decide))) }

/-- The seal of a grout in a part that has powered down. -/
def groutSealed (g : GroutImg) (used : List Nat) (f : Nat) (z : State) : State :=
  { z with
    grout := { z.grout with beat := none, img := some g, used := used }
    kiln := { z.kiln with trip := none }
    top := { z.top with sealFrame := some f } }

theorem groutSealed_regs (g : GroutImg) (used : List Nat) (f : Nat) (z : State) : (groutSealed g used f z).regs = z.regs := rfl
theorem groutSealed_map (g : GroutImg) (used : List Nat) (f : Nat) (z : State) : (groutSealed g used f z).map = z.map := rfl

/-- The image of a grout that took `n` retries more. -/
def imgSealed (s : State) (g : GroutImg) (n : Nat) : GroutImg :=
  { g with done := true, retried := decide (n ≠ 0), beats := min (groutBound s g n) (Config.groutBeats s.freeCtr) }

theorem groutSeal_eq {g : GroutImg} (hfrozen : s.grout.frozen = true) (hgr : grouting s = true) (hoff : s.top.off = false)
    (himg : s.grout.img = some g) :
    groutSeal n s = groutSealed (imgSealed s g n) (s.grout.used ++ (freeSets s).take (if n = 0 then 1 else 2)) (frameNow s)
      (enterOff (addF F.PWR_GROUT_COUNT_COUNT 1 (tick (if n = 0 then s else happen basePwr 11 s)))) := by
  unfold groutSeal
  rw [show (s.grout.frozen && grouting s && !s.top.off) = true by simp [hfrozen, hgr, hoff], himg]
  rfl

theorem groutSeal_spec {g : GroutImg} (hfrozen : s.grout.frozen = true) (hgr : grouting s = true) (hoff : s.top.off = false)
    (himg : s.grout.img = some g) :
    ∃ g', (groutSeal n s).grout.img = some g' ∧ g'.done = true ∧ g'.cause = g.cause ∧ g'.retried = decide (n ≠ 0) ∧
      g'.beats ≤ groutBound s g n ∧ (groutSeal n s).grout.beat = none ∧
      (groutSeal n s).grout.used = s.grout.used ++ (freeSets s).take (if n = 0 then 1 else 2) ∧ (groutSeal n s).top.off = true ∧
      (groutSeal n s).top.sealFrame = some (frameNow s) ∧ getF (groutSeal n s) F.PWR_DOM_STAT_ON = 1 ∧
      isSet (groutSeal n s) (F.HOST_LINK_STATUS_UP 0) = false ∧ isSet (groutSeal n s) (F.HOST_LINK_STATUS_UP 1) = false ∧
      getF (groutSeal n s) F.PWR_GROUT_COUNT_COUNT = min (2 ^ 32 - 1) (getF s F.PWR_GROUT_COUNT_COUNT + 1) ∧
      (n ≠ 0 → raised basePwr 11 (groutSeal n s) = true) ∧ (groutSeal n s).map = s.map := by
  rw [groutSeal_eq hfrozen hgr hoff himg]
  obtain ⟨x, hx, told, evt⟩ : ∃ x, (if n = 0 then s else happen basePwr 11 s) = x ∧ (n ≠ 0 → raised basePwr 11 x = true) ∧ evtOnly s x := by
    by_cases h0 : n = 0
    · exact ⟨s, if_pos h0, fun h => absurd h0 h, .refl _ s, .refl s⟩
    · exact ⟨_, if_neg h0, fun _ => raised_happen _ _ _ (by decide) (by decide) (by decide) (by decide),
        evtOnly_happen _ _ _ (by decide) (by decide)⟩
  rw [hx]
  have count : getF (addF F.PWR_GROUT_COUNT_COUNT 1 (tick x)) F.PWR_GROUT_COUNT_COUNT =
      min (2 ^ 32 - 1) (getF s F.PWR_GROUT_COUNT_COUNT + 1) := by
    rw [getF_addF_word, getF_congr (s := x) _, evt.getF (not_eventReg_of_quiet (by decide))]
  have raw : rd (addF F.PWR_GROUT_COUNT_COUNT 1 (tick x)) (Reg.EVT_RAW basePwr) = rd x (Reg.EVT_RAW basePwr) :=
    rd_addF_ne _ _ _ (by decide)
  have map : (addF F.PWR_GROUT_COUNT_COUNT 1 (tick x)).map = s.map := (addF_map ..).trans evt.1.map_eq
  generalize addF F.PWR_GROUT_COUNT_COUNT 1 (tick x) = y at *
  have off := offEntered y
  generalize enterOff y = z at *
  generalize s.grout.used ++ (freeSets s).take (if n = 0 then 1 else 2) = used
  generalize frameNow s = f
  have done : (imgSealed s g n).done = true ∧ (imgSealed s g n).cause = g.cause ∧ (imgSealed s g n).retried = decide (n ≠ 0) ∧
      (imgSealed s g n).beats ≤ groutBound s g n := ⟨rfl, rfl, rfl, Nat.min_le_left ..⟩
  generalize imgSealed s g n = g' at *
  obtain ⟨done, cause, retried, beats⟩ := done
  have regs := groutSealed_regs g' used f z
  have mapKept : z.map = s.map := off.parts.map_eq.trans map
  refine ⟨g', rfl, done, cause, retried, beats, rfl, rfl, off.off, rfl, (getF_congr _ regs).trans off.doms,
    (isSet_of_getF (getF_congr _ regs)).trans off.linkA, (isSet_of_getF (getF_congr _ regs)).trans off.linkB, ?_, fun hn => ?_,
    (groutSealed_map ..).trans mapKept⟩
  · rw [getF_congr _ regs, off.kept.getF (by decide), count]
  · rw [raised_of_rd (rd_congr regs _), raised_of_rd (off.kept _ (by decide)), raised_of_rd raw, told hn]

theorem groutSeal_of_not (h : s.grout.frozen = false ∨ grouting s = false ∨ s.top.off = true ∨ s.grout.img = none) :
    groutSeal n s = s := by
  unfold groutSeal
  rcases h with h | h | h | h
  · simp [h]
  · simp [h]
  · simp [h]
  · rw [h]
    split
    · next heq => cases heq
    · rfl

/-! ### The obligation -/

/-- Settles O41: the hold-up signals, the causes of a grout and its seal, each by its lemma. -/
theorem powerLossBeginsAndSealsTheGrout : Obligations.PowerLossBeginsAndSealsTheGrout := by
  unfold Obligations.PowerLossBeginsAndSealsTheGrout
  refine fun s => ⟨?lost, ?again, ?back, ?early, ?causes, ?pg, ?fatal, ?mapmem, ?stopped, ?sealed, ?unsealed⟩
  case lost =>
    intro hok
    have lost := holdupNoted_spec s
    have heq := holdupLost_eq hok
    generalize holdupNoted s = x at *
    obtain ⟨drain, okFrom, -, draining, ok, through, kept, parts⟩ := drainNoted_spec x
    have acked := ackedSlots_congr lost.parts.map_eq
    generalize drainNoted x = u at *
    refine ⟨u, congrArg Host.Outcome.next heq, (isSet_of_getF ok).trans lost.ok, (isSet_of_getF through).trans lost.through, ?_,
      okFrom.trans lost.okFrom, drain.trans acked, draining.trans (by rw [acked]), lost.kept.trans kept.toE,
      lost.parts.trans (parts.mono (by decide)), fun i _ hfree hw hst hp hne => ?_⟩
    · rw [raised_of_rd (kept _ (by decide)), lost.told]
    · rw [getCmd_congr parts.host_eq]
      exact lost.held i hfree hw hst hp hne
  case again => exact fun hok => congrArg Host.Outcome.next (if_pos (by simp [hok]))
  case back => exact fun hhead hok hfrom => ⟨_, rfl, holdupBack_spec hhead hok hfrom⟩
  case early => exact fun h => congrArg Host.Outcome.next (holdupBack_of_not h)
  case causes =>
    intro c b hc hrun
    obtain ⟨u, hexec, hu⟩ := exec_cause hrun hc
    obtain ⟨parts, kept, -⟩ := groutCause_spec b u
    have allKept : regsKeptE (· = Reg.PWR_PG) s (groutCause b u) := hu.kept.trans fun a _ he => kept a (fun h => h) he
    have allParts : changesOnly (.grout :: .top :: eventParts) s (groutCause b u) :=
      (hu.parts.mono (by decide)).trans (parts.mono (by decide))
    refine ⟨fun hno hload => ?_, fun g hyes himg => ?_⟩
    · obtain ⟨g, himg, cause, id, beat, done, hbeat, frozen, told⟩ := groutCause_first hu.running
        (by rw [grouting, hu.grout, ← grouting, hno]) (by rw [hu.map, hload]) b
      exact ⟨_, g, hexec, himg, cause, id.trans (by rw [hu.grout]), beat.trans hu.beat, done, hbeat.trans (by rw [hu.beat]),
        frozen.trans (by rw [hu.grout, hu.asleep]), told, allParts.map_eq, allParts.host_eq, allKept, allParts⟩
    · obtain ⟨himg, hbeat⟩ := groutCause_join hu.running (by rw [grouting, hu.grout, ← grouting, hyes]) (hu.grout ▸ himg) b
      exact ⟨_, hexec, himg, hbeat.trans (by rw [hu.grout]), allKept, allParts⟩
  case pg =>
    refine ⟨_, rfl, ?_⟩
    unfold pgCoreLow
    dsimp only
    generalize hx : setF (bitF Reg.PWR_PG 0) 0 s = x
    have low : getF x (bitF Reg.PWR_PG 0) = 0 := by
      rw [← hx, getF_setF_same _ _ _ (by unfold Fld.ok; decide)]
      rfl
    split
    · exact ((groutCause_spec 1 x).2.1.getF (fun h => h) (by decide)).trans low
    · exact low
  case fatal =>
    rintro hrun src base i (⟨rfl, rfl, rfl⟩ | ⟨rfl, rfl, rfl⟩)
    · obtain ⟨-, -, -, told, fault⟩ := fatal_spec (base := baseTop) (i := 8) s (by decide) (by decide) (by decide) (by decide)
      exact ⟨_, congrArg Host.Outcome.next ((if_neg (by simp [hrun])).trans (if_pos rfl)), told, fault hrun⟩
    · obtain ⟨-, -, -, told, fault⟩ := fatal_spec (base := baseSec) (i := 5) s (by decide) (by decide) (by decide) (by decide)
      exact ⟨_, congrArg Host.Outcome.next ((if_neg (by simp [hrun])).trans ((if_neg (by decide)).trans (if_pos rfl))), told, fault hrun⟩
  case mapmem =>
    intro hrun c hc hdeg hst
    refine ⟨_, congrArg Host.Outcome.next (?_ : fatalDo (65 + 2 * c) s = mapChannelLost c s), mapChannelLost_fatal hrun hc hdeg hst⟩
    unfold fatalDo
    rw [if_neg (by simp [hrun]), if_neg (by omega), if_neg (by omega), if_pos (by omega), if_neg,
      show (65 + 2 * c - 64) / 2 = c by omega]
    rcases hdeg with h | h <;> simp [h]
  case stopped =>
    exact fun hstop => ⟨congrArg Host.Outcome.next (if_pos (by simp [hstop])),
      fun src => congrArg Host.Outcome.next (if_pos (by simp [hstop]))⟩
  case sealed =>
    intro n g hfrozen hgr hoff himg
    obtain ⟨g', hall⟩ := groutSeal_spec (n := n) hfrozen hgr hoff himg
    exact ⟨_, g', rfl, hall⟩
  case unsealed => exact fun n h => congrArg Host.Outcome.next (groutSeal_of_not h)

end Sys2Proof.Machine
end

/-! ## Power states are entered and left (R24, R25, R417 to R420, R423 to R425, R427 to R429) -/

section

-- One proof after another: elaborated side by side, the proofs of this text take more memory than its check allows.
set_option Elab.async false

namespace Sys2Proof.Machine

variable {s t u : State} {d k f step bit : Nat} {other : Bool}

/-! ### States entered -/

theorem domsOn_lt (s : State) (k : Nat) : domsOn s k < 2 ^ 10 := by
  unfold domsOn
  split <;> omega

theorem domsRet_lt (k : Nat) : domsRet k < 2 ^ 10 := by
  unfold domsRet
  split <;> decide

theorem enterState_spec (hk : k < 8) (s : State) :
    powerNow (enterState k s) = k ∧ (enterState k s).top.target = none ∧ getF (enterState k s) F.PWR_DOM_STAT_ON = domsOn s k ∧
      getF (enterState k s) F.PWR_DOM_STAT_RET = domsRet k ∧ isSet (enterState k s) F.PWR_STATE_IO_WAKE = false ∧
      raised basePwr 0 (enterState k s) = true ∧
      regsKeptE (fun a => a = Reg.PWR_STATE ∨ a = Reg.PWR_DOM_STAT) s (enterState k s) ∧
      changesOnly (.top :: eventParts) s (enterState k s) := by
  unfold enterState
  extract_lets s1
  have ret : getF s1 F.PWR_DOM_STAT_RET = domsRet k := by
    rw [getF_setF_same _ _ _ (by unfold Fld.ok; decide)]
    exact Nat.mod_eq_of_lt (domsRet_lt k)
  have on : getF s1 F.PWR_DOM_STAT_ON = domsOn s k := by
    rw [getF_setF_apart _ _ _ _ (by unfold Fld.ok; decide) (by decide), getF_setF_same _ _ _ (by unfold Fld.ok; decide)]
    exact Nat.mod_eq_of_lt (domsOn_lt s k)
  have wake : getF s1 F.PWR_STATE_IO_WAKE = 0 := by
    rw [getF_setF_ne _ _ _ _ (by decide), getF_setF_ne _ _ _ _ (by decide), getF_setF_same _ _ _ (by unfold Fld.ok; decide)]
    rfl
  have kept : regsKept (fun a => a = Reg.PWR_STATE ∨ a = Reg.PWR_DOM_STAT) s s1 :=
    .setF (.setF (.setF (.setF (.refl s) _ _ (.inl rfl)) _ _ (.inl rfl)) _ _ (.inr rfl)) _ _ (.inr rfl)
  have parts : changesOnly [.regs] s s1 := .setF (.setF (.setF (.setF (.refl _ s) _ _) _ _) _ _) _ _
  clear_value s1
  generalize hx : ({ s1 with top := { s1.top with target := none, woken := [] } } : State) = x
  have regs : x.regs = s1.regs := hx ▸ rfl
  have target : x.top.target = none := hx ▸ rfl
  have xparts : changesOnly [.top] s1 x := hx ▸ .top (.refl _ s1)
  have evt := evtOnly_happen basePwr 0 x (by decide) (by decide)
  have told : raised basePwr 0 (happen basePwr 0 x) = true := raised_happen _ _ _ (by decide) (by decide) (by decide) (by decide)
  generalize happen basePwr 0 x = y at *
  have same : ∀ f : Fld, quietReg f.addr = true → getF y f = getF s1 f := fun f hf =>
    (evt.getF (not_eventReg_of_quiet hf)).trans (getF_congr f regs)
  have hcur : F.PWR_STATE_CUR.ok := by unfold Fld.ok; decide
  refine ⟨?_, ?_, ?_, ?_, ?_, ?_, .setF ((kept.toE.congr regs).of_evtOnly evt) _ _ (.inl rfl),
    .setF (((parts.mono (by decide)).trans (xparts.mono (by decide))).of_evtOnly evt) _ _⟩
  · rw [powerNow, getF_setF_same _ _ _ hcur]
    exact Nat.mod_eq_of_lt hk
  · rw [setF_top, evt.1.top_eq, target]
  · rw [getF_setF_ne _ _ _ _ (by decide), same _ (by decide), on]
  · rw [getF_setF_ne _ _ _ _ (by decide), same _ (by decide), ret]
  · rw [isSet, getF_setF_apart _ _ _ _ hcur (by decide), same _ (by decide), wake]
    rfl
  · rw [raised_of_rd (rd_setF_ne _ _ _ (by decide)), told]

theorem stateEntered_of_due (ht : s.top.target = some k) (hk : k = 1 ∨ (k = 2 ∨ k = 3) ∧ drained s = true) :
    stateEntered s = enterState k s := by
  rw [stateEntered, ht]
  exact if_pos hk

theorem stateEntered_of_not (h : s.top.target = none ∨
    ∃ k, s.top.target = some k ∧ k ≠ 1 ∧ ((k ≠ 2 ∧ k ≠ 3) ∨ drained s = false)) : stateEntered s = s := by
  unfold stateEntered
  rcases h with h | ⟨k, h, h1, hk⟩
  · rw [h]
  · rw [h]
    refine if_neg ?_
    rintro (h | ⟨h23, hd⟩)
    · exact h1 h
    · rcases hk with ⟨h2, h3⟩ | hno
      · exact h23.elim h2 h3
      · exact Bool.false_ne_true (hno.symm.trans hd)

/-- Off is entered once GRACE has passed. -/
theorem offDue_spec (ht : s.top.target = some 4) (hf : s.top.offFrom = some f) (hg : f + getNZ s F.PWR_CFG_GRACE ≤ frameNow s)
    (hd : drained s = true) :
    (offDue s).top.off = true ∧ (offDue s).top.target = none ∧ getF (offDue s) F.PWR_DOM_STAT_ON = 1 ∧
      isSet (offDue s) (F.HOST_LINK_STATUS_UP 0) = false ∧ isSet (offDue s) (F.HOST_LINK_STATUS_UP 1) = false ∧
      raised basePwr 0 (offDue s) = true ∧ changesOnly (.top :: eventParts) s (offDue s) := by
  have heq : offDue s = enterOff (happen basePwr 0 s) := by
    rw [offDue, ht, hf]
    exact if_pos ⟨hg, hd⟩
  rw [heq]
  have evt := evtOnly_happen basePwr 0 s (by decide) (by decide)
  have told : raised basePwr 0 (happen basePwr 0 s) = true := raised_happen _ _ _ (by decide) (by decide) (by decide) (by decide)
  generalize happen basePwr 0 s = x at *
  have off := offEntered x
  exact ⟨off.off, off.target, off.doms, off.linkA, off.linkB, by rw [raised_of_rd (off.kept _ (by decide)), told],
    (evt.1.mono (by decide)).trans (off.parts.mono (by decide))⟩

theorem offDue_of_not (h : s.top.target ≠ some 4 ∨ s.top.offFrom = none ∨ drained s = false) : offDue s = s := by
  unfold offDue
  split
  · next ht hf =>
    refine if_neg fun hc => ?_
    rcases h with h | h | h
    · exact h ht
    · exact absurd (h.symm.trans hf) (by simp)
    · exact Bool.false_ne_true (h.symm.trans hc.2)
  · rfl

/-! ### The return from IO_WAKE -/

section

variable (hwake : isSet s F.PWR_STATE_IO_WAKE = true) (hidle : busyCmds s = false)
  (hret : s.top.waitFrom + getNZ s F.PWR_CFG_RETURN_FRAMES ≤ frameNow s)
include hwake hidle hret

theorem ioReturn_of_run (h : selected s = 0) : ioReturn s = setF F.PWR_STATE_IO_WAKE 0 s := by
  unfold ioReturn
  rw [if_pos ⟨hwake, by simp [hidle], hret⟩, h]
  rfl

theorem ioReturn_of_idle (h : selected s = 1) : ioReturn s = enterState 1 s := by
  unfold ioReturn
  rw [if_pos ⟨hwake, by simp [hidle], hret⟩, h]
  rfl

theorem ioReturn_of_sleep (h : 2 ≤ selected s) :
    ioReturn s = setF F.PWR_STATE_IN_TRANSITION 1 { s with top := { s.top with target := some (selected s) } } := by
  unfold ioReturn
  rw [if_pos ⟨hwake, by simp [hidle], hret⟩]
  split
  · next h0 => omega
  · next h1 => omega
  · rfl

end

theorem ioReturn_of_not (h : isSet s F.PWR_STATE_IO_WAKE = false ∨ busyCmds s = true ∨
    frameNow s < s.top.waitFrom + getNZ s F.PWR_CFG_RETURN_FRAMES) : ioReturn s = s := by
  refine if_neg ?_
  rintro ⟨hwake, hidle, hret⟩
  rcases h with h | h | h
  · exact Bool.false_ne_true (h.symm.trans hwake)
  · exact hidle h
  · omega

/-- The transition is shown while the drive moves toward a deeper state. -/
theorem inTransition_spec (s : State) :
    isSet (setF F.PWR_STATE_IN_TRANSITION 1 s) F.PWR_STATE_IN_TRANSITION = true ∧
      (setF F.PWR_STATE_IN_TRANSITION 1 s).top = s.top ∧ regsKept (· = Reg.PWR_STATE) s (setF F.PWR_STATE_IN_TRANSITION 1 s) ∧
      changesOnly [.regs] s (setF F.PWR_STATE_IN_TRANSITION 1 s) := by
  refine ⟨?_, setF_top .., .setF (.refl s) _ _ rfl, .setF (.refl _ s) _ _⟩
  rw [isSet, getF_setF_same _ _ _ (by unfold Fld.ok; decide)]
  rfl

/-! ### Wakes -/

/-- The part sees WAKE_IN. -/
def wakeSeen (s : State) : State := { s with top := { s.top with wakeIn := true } }

theorem wakeSeen_regs (s : State) : (wakeSeen s).regs = s.regs := rfl
theorem wakeSeen_parts (s : State) : changesOnly [.top] s (wakeSeen s) := .top (.refl _ s)

theorem powerNow_wakeSeen (s : State) : powerNow (wakeSeen s) = powerNow s := getF_congr _ (wakeSeen_regs s)

theorem selected_congr (hr : t.regs = s.regs) (hh : t.host = s.host) : selected t = selected s := by
  have link : ∀ p, isSet t (F.HOST_LINK_STATUS_UP p) = isSet s (F.HOST_LINK_STATUS_UP p) := fun p => isSet_of_getF (getF_congr _ hr)
  have port : ∀ fn, portOf t fn = portOf s fn := fun fn => by
    rw [portOf, portOf, twoPort, twoPort, getF_congr F.TOP_STRAP_PORT hr]
  have by' : ∀ fn, selectedBy t fn = selectedBy s fn := fun fn => by
    rw [selectedBy, selectedBy, getFn, hh, ← getFn, port, link]
  have two : twoPort t = twoPort s := by rw [twoPort, twoPort, getF_congr F.TOP_STRAP_PORT hr]
  rw [selected, selected, two, by', by']

theorem domsOn_congr (hr : t.regs = s.regs) (k : Nat) : domsOn t k = domsOn s k := by
  have two : twoPort t = twoPort s := by rw [twoPort, twoPort, getF_congr F.TOP_STRAP_PORT hr]
  unfold domsOn
  rw [two]

theorem wakeIn_of_sleep (hoff : s.top.off = false) (hhalt : s.top.halted = false) (h : 2 ≤ powerNow s) :
    (wakeIn s).top.wakeRun = true ∧ (wakeIn s).top.wakeIn = true ∧ isSet (wakeIn s) F.PWR_STATE_IN_TRANSITION = true ∧
      regsKept (· = Reg.PWR_STATE) s (wakeIn s) ∧ changesOnly [.regs, .top] s (wakeIn s) := by
  have heq : wakeIn s = setF F.PWR_STATE_IN_TRANSITION 1 { wakeSeen s with top := { (wakeSeen s).top with wakeRun := true } } := by
    refine (if_neg (by simp [hoff, hhalt])).trans ?_
    change wakeDrive (wakeSeen s) = _
    have hp := powerNow_wakeSeen s
    unfold wakeDrive
    split
    · next h0 => omega
    · next h1 => omega
    · rfl
  rw [heq]
  generalize hx : ({ wakeSeen s with top := { (wakeSeen s).top with wakeRun := true } } : State) = x
  have regs : x.regs = s.regs := hx ▸ rfl
  have run : x.top.wakeRun = true := hx ▸ rfl
  have seen : x.top.wakeIn = true := hx ▸ rfl
  have parts : changesOnly [.regs, .top] s x := hx ▸ .top ((wakeSeen_parts s).mono (by decide))
  obtain ⟨moving, top, kept, more⟩ := inTransition_spec x
  exact ⟨by rw [top, run], by rw [top, seen], moving, (regsKept.of_regs regs).trans kept, parts.trans (more.mono (by decide))⟩

/-- What Run reads as it is entered. -/
theorem runEntered_fields (s : State) :
    getF (runEntered s) F.PWR_DOM_STAT_ON = domsOn s 0 ∧ isSet (runEntered s) F.PWR_STATE_IO_WAKE = decide (selected s ≠ 0) := by
  have hd := domsOn_lt s 0
  unfold runEntered
  constructor
  · rw [getF_happen (by decide) (by decide) (by decide), getF_setF_ne _ _ _ _ (by decide),
      getF_setF_apart _ _ _ _ (by unfold Fld.ok; decide) (by decide), getF_setF_same _ _ _ (by unfold Fld.ok; decide)]
    exact Nat.mod_eq_of_lt hd
  · rw [isSet, getF_happen (by decide) (by decide) (by decide), getF_setF_apart _ _ _ _ (by unfold Fld.ok; decide) (by decide),
      getF_setF_ne _ _ _ _ (by decide), getF_setF_ne _ _ _ _ (by decide),
      getF_setF_apart _ _ _ _ (by unfold Fld.ok; decide) (by decide), addF, getF_setF_ne _ _ _ _ (by decide),
      getF_setF_same _ _ _ (by unfold Fld.ok; decide)]
    by_cases h : selected s = 0 <;> simp [h]

theorem wakesEnded_wakeIn (s t : State) : (wakesEnded s t).top.wakeIn = t.top.wakeIn := rfl
theorem wakeSeen_wakeIn (s : State) : (wakeSeen s).top.wakeIn = true := rfl

theorem wakeIn_of_idle (hoff : s.top.off = false) (hhalt : s.top.halted = false) (h : powerNow s = 1) :
    powerNow (wakeIn s) = 0 ∧ getF (wakeIn s) F.PWR_DOM_STAT_ON = domsOn s 0 ∧ raised basePwr 0 (wakeIn s) = true ∧
      (wakeIn s).top.wakeIn = true ∧ isSet (wakeIn s) F.PWR_STATE_IO_WAKE = decide (selected s ≠ 0) := by
  have hp := (powerNow_wakeSeen s).trans h
  have seen := wakeSeen_wakeIn s
  have sel := selected_congr (wakeSeen_regs s) (wakeSeen_parts s).host_eq
  have doms := domsOn_congr (wakeSeen_regs s) 0
  have heq : wakeIn s = runAgain (wakeSeen s) := by
    refine (if_neg (by simp [hoff, hhalt])).trans ?_
    change wakeDrive (wakeSeen s) = _
    unfold wakeDrive
    rw [hp]
    rfl
  have awake : asleep (wakeSeen s) = false := decide_eq_false (by rw [← powerNow, hp]; decide)
  rw [heq, runAgain_eq, awake]
  generalize wakeSeen s = x at *
  obtain ⟨parts, -, cur, told⟩ := runEntered_spec x
  obtain ⟨on, wake⟩ := runEntered_fields x
  generalize runEntered x = y at *
  obtain ⟨-, regs, -⟩ := wakesEnded_spec x y
  have kept := wakesEnded_wakeIn x y
  simp only [Bool.false_eq_true, if_false]
  generalize wakesEnded x y = z at *
  exact ⟨(getF_congr _ regs).trans cur, by rw [getF_congr _ regs, on, doms], by rw [raised_of_rd (rd_congr regs _), told],
    by rw [kept, parts.top_eq, seen], by rw [isSet_of_getF (getF_congr _ regs), wake, sel]⟩

theorem wakeIn_of_drain (hoff : s.top.off = false) (hhalt : s.top.halted = false) (h : powerNow s = 0) (ht : s.top.target ≠ none)
    (hr : s.top.requested = false) : (wakeIn s).top.target = none ∧ raised basePwr 13 (wakeIn s) = true := by
  have heq : ∃ x : State, wakeIn s = happen basePwr 13 (setF F.PWR_STATE_IN_TRANSITION 0 { x with top := { x.top with target := none } }) := by
    refine ⟨{ wakeSeen s with top := { (wakeSeen s).top with waitFrom := frameNow (wakeSeen s) } }, ?_⟩
    refine (if_neg (by simp [hoff, hhalt])).trans ?_
    change wakeDrive (wakeSeen s) = _
    unfold wakeDrive
    rw [(powerNow_wakeSeen s).trans h]
    exact if_pos ⟨by rw [Option.isSome_iff_ne_none]; exact ht, by simpa [wakeSeen] using hr⟩
  obtain ⟨x, hx⟩ := heq
  rw [hx]
  generalize hy : ({ x with top := { x.top with target := none } } : State) = y
  have target : y.top.target = none := hy ▸ rfl
  refine ⟨?_, raised_happen _ _ _ (by decide) (by decide) (by decide) (by decide)⟩
  rw [(evtOnly_happen basePwr 13 _ (by decide) (by decide)).1.top_eq, setF_top, target]

theorem wakeIn_of_run (hoff : s.top.off = false) (hhalt : s.top.halted = false) (h : powerNow s = 0) (ht : s.top.target = none) :
    wakeIn s = { s with top := { s.top with wakeIn := true, waitFrom := frameNow s } } := by
  refine (if_neg (by simp [hoff, hhalt])).trans ?_
  change wakeDrive (wakeSeen s) = _
  unfold wakeDrive
  rw [(powerNow_wakeSeen s).trans h]
  exact if_neg (by simp [wakeSeen, ht])

end Sys2Proof.Machine
end

/-! ## Drains, wake steps, reference clocks and stalled accesses (R417, R423, R425, R427 to R429) -/

section

-- One proof after another: elaborated side by side, the proofs of this text take more memory than its check allows.
set_option Elab.async false

namespace Sys2Proof.Machine

variable {s t u : State} {d k f step bit a : Nat} {other : Bool}

/-! ### Domains that accesses woke -/

theorem releaseStalled_of_none (hs : s.top.stalled = []) (hm : s.top.mgmt = []) : releaseStalled s = s := by
  have top : s.top = { s.top with stalled := [], mgmt := [] } := by rw [← hs, ← hm]
  have self : ({ s with top := { s.top with stalled := [], mgmt := [] } } : State) = s := by rw [← top]
  unfold releaseStalled mgmtResume
  simp only [hs, hm, List.filter_nil, List.foldl_nil]
  exact self

/-- What ends FAULT_N leaves the rest as it was. -/
theorem wakeOk_spec (s : State) :
    (wakeOk s).top.waking = s.top.waking ∧ (wakeOk s).top.woken = s.top.woken ∧ (wakeOk s).top.stalled = s.top.stalled ∧
      (wakeOk s).top.mgmt = s.top.mgmt ∧ regsKept (· = Reg.PWR_WAKE_FAIL) s (wakeOk s) := by
  unfold wakeOk
  split
  · exact ⟨rfl, rfl, rfl, rfl, .refl s⟩
  · generalize hx : ({ s with top := { s.top with altNext := [], faultN := false } } : State) = x
    have regs : x.regs = s.regs := hx ▸ rfl
    have top : x.top = { s.top with altNext := [], faultN := false } := hx ▸ rfl
    refine ⟨?_, ?_, ?_, ?_, .setF (.of_regs regs) _ _ rfl⟩ <;> rw [setF_top, top]

/-- The domain is on and woken; the count of wakes rises. -/
theorem domainWoken_spec (hrun : s.top.wakeRun = false) (hd : s.top.waking = [d]) (hlt : d < 10) (hs : s.top.stalled = [])
    (hm : s.top.mgmt = []) :
    (domainWoken s).top.waking = [] ∧ d ∈ (domainWoken s).top.woken ∧ bitsOf (getF (domainWoken s) F.PWR_DOM_STAT_ON) d 1 = 1 ∧
      powerNow (domainWoken s) = powerNow s ∧
      getF (domainWoken s) F.PWR_WAKES_COUNT = min (2 ^ 32 - 1) (getF s F.PWR_WAKES_COUNT + 1) := by
  generalize hx : ({ s with top := { s.top with woken := insertNat d s.top.woken, waking := [] } } : State) = x
  have regs : x.regs = s.regs := hx ▸ rfl
  have top : x.top = { s.top with woken := insertNat d s.top.woken, waking := [] } := hx ▸ rfl
  generalize hy : setF F.PWR_STATE_IN_TRANSITION 0 (addF F.PWR_WAKES_COUNT 1
    (setF F.PWR_DOM_STAT_ON (Nat.lor (getF s F.PWR_DOM_STAT_ON) (2 ^ d)) x)) = y
  have heq : wakeDone s = wakeOk y := by
    unfold wakeDone
    rw [if_neg (by simp [hrun]), if_neg (by simp [hd]), hd, ← hy, ← hx]
    rfl
  have ytop : y.top = x.top := by rw [← hy, setF_top, addF_top, setF_top]
  have hlor : Nat.lor (getF s F.PWR_DOM_STAT_ON) (2 ^ d) < 2 ^ 10 :=
    Nat.or_lt_two_pow (getF_lt ..) (Nat.pow_lt_pow_right (by decide) hlt)
  have on : getF y F.PWR_DOM_STAT_ON = Nat.lor (getF s F.PWR_DOM_STAT_ON) (2 ^ d) := by
    rw [← hy, getF_setF_ne _ _ _ _ (by decide), addF, getF_setF_ne _ _ _ _ (by decide), getF_setF_same _ _ _ (by unfold Fld.ok; decide)]
    exact Nat.mod_eq_of_lt hlor
  have count : getF y F.PWR_WAKES_COUNT = min (2 ^ 32 - 1) (getF s F.PWR_WAKES_COUNT + 1) := by
    rw [← hy, getF_setF_ne _ _ _ _ (by decide), getF_addF_word, getF_setF_ne _ _ _ _ (by decide), getF_congr _ regs]
  have cur : powerNow y = powerNow s := by
    rw [powerNow, ← hy, getF_setF_apart _ _ _ _ (by unfold Fld.ok; decide) (by decide), addF, getF_setF_ne _ _ _ _ (by decide),
      getF_setF_ne _ _ _ _ (by decide), getF_congr _ regs]
    rfl
  clear hy
  obtain ⟨waking, woken, stalled, mgmt, kept⟩ := wakeOk_spec y
  have done : domainWoken s = wakeOk y := by
    rw [domainWoken, heq, releaseStalled_of_none (by rw [stalled, ytop, top, hs]) (by rw [mgmt, ytop, top, hm])]
  rw [done]
  generalize wakeOk y = z at *
  refine ⟨by rw [waking, ytop, top], by rw [woken, ytop, top]; exact mem_insertNat.mpr (.inl rfl), ?_, (kept.getF (by decide)).trans cur,
    (kept.getF (by decide)).trans count⟩
  rw [kept.getF (by decide), on, bitsOf_one]
  refine if_pos ?_
  rw [show Nat.lor (getF s F.PWR_DOM_STAT_ON) (2 ^ d) = getF s F.PWR_DOM_STAT_ON ||| 2 ^ d from rfl, Nat.testBit_or,
    Nat.testBit_two_pow_self, Bool.or_true]

/-! ### Drains and wake steps that fail -/

theorem drainTimeout_spec (hd : d < 16) (h : s.top.target ≠ none ∨ d ∈ s.top.drains) :
    (drainTimeout d s).top.target = none ∧ d ∉ (drainTimeout d s).top.drains ∧ raised basePwr 2 (drainTimeout d s) = true ∧
      getF (drainTimeout d s) F.PWR_DOM_DRAIN_DOMAIN = d ∧ isSet (drainTimeout d s) F.PWR_DOM_DRAIN_FAILED = true ∧
      regsKeptE (fun a => a = Reg.PWR_STATE ∨ a = Reg.PWR_DOM_DRAIN) s (drainTimeout d s) ∧
      changesOnly (.top :: eventParts) s (drainTimeout d s) := by
  unfold drainTimeout
  dsimp only
  rw [if_neg (by rcases h with h | h <;> simp [Option.isNone_iff_eq_none, h])]
  generalize hx : setF F.PWR_DOM_DRAIN_FAILED 1 (setF F.PWR_DOM_DRAIN_DOMAIN d s) = x
  have failed : getF x F.PWR_DOM_DRAIN_FAILED = 1 := by
    rw [← hx, getF_setF_same _ _ _ (by unfold Fld.ok; decide)]
    rfl
  have domain : getF x F.PWR_DOM_DRAIN_DOMAIN = d := by
    rw [← hx, getF_setF_apart _ _ _ _ (by unfold Fld.ok; decide) (by decide), getF_setF_same _ _ _ (by unfold Fld.ok; decide)]
    exact Nat.mod_eq_of_lt hd
  have kept : regsKeptE (fun a => a = Reg.PWR_STATE ∨ a = Reg.PWR_DOM_DRAIN) s x :=
    hx ▸ .setF (.setF (.refl s) _ _ (.inr rfl)) _ _ (.inr rfl)
  have parts : changesOnly [.regs] s x := hx ▸ .setF (.setF (.refl _ s) _ _) _ _
  have evt := evtOnly_happen basePwr 2 x (by decide) (by decide)
  have told : raised basePwr 2 (happen basePwr 2 x) = true := raised_happen _ _ _ (by decide) (by decide) (by decide) (by decide)
  generalize happen basePwr 2 x = y at *
  generalize hz : ({ y with top := { y.top with target := none, drains := removeNat d y.top.drains } } : State) = z
  have regs : z.regs = y.regs := hz ▸ rfl
  have top : z.top = { y.top with target := none, drains := removeNat d y.top.drains } := hz ▸ rfl
  have zparts : changesOnly [.top] y z := hz ▸ .top (.refl _ y)
  refine ⟨by rw [setF_top, top], by rw [setF_top, top]; exact not_mem_removeNat d _, ?_, ?_, ?_,
    .setF ((kept.of_evtOnly evt).congr regs) _ _ (.inl rfl),
    .setF (((parts.mono (by decide)).of_evtOnly evt).trans (zparts.mono (by decide))) _ _⟩
  · rw [raised_of_rd (rd_setF_ne _ _ _ (by decide)), raised_of_rd (rd_congr regs _), told]
  · rw [getF_setF_ne _ _ _ _ (by decide), getF_congr _ regs, evt.getF (not_eventReg_of_quiet (by decide)), domain]
  · rw [isSet, getF_setF_ne _ _ _ _ (by decide), getF_congr _ regs, evt.getF (not_eventReg_of_quiet (by decide)), failed]
    rfl

theorem drainTimeout_of_none (ht : s.top.target = none) (hd : d ∉ s.top.drains) : drainTimeout d s = s :=
  if_pos (by simp [ht, hd])

/-- A wake that fails for good leaves the drive where it is, with FAULT_N and the step noted (R428). -/
theorem wakeFails_spec (hd : d < 16) (hstep : step < 8) (hbit : bit = 5 ∨ bit = 6 ∨ bit = 7) (s : State) :
    raised basePwr bit (wakeFails d step bit s) = true ∧ raisedKept s (wakeFails d step bit s) ∧
      (wakeFails d step bit s).top.faultN = true ∧ (wakeFails d step bit s).top.wakeRun = false ∧
      d ∈ (wakeFails d step bit s).top.altNext ∧ powerNow (wakeFails d step bit s) = powerNow s ∧
      getF (wakeFails d step bit s) F.PWR_WAKE_FAIL_DOMAIN = d ∧ getF (wakeFails d step bit s) F.PWR_WAKE_FAIL_STEP = step := by
  have hsrc : srcOf basePwr bit < 256 := by rcases hbit with rfl | rfl | rfl <;> decide
  have hlt : bit < 32 := by omega
  unfold wakeFails
  dsimp only
  have evt := evtOnly_happen basePwr bit s (by decide) hsrc
  have told : raised basePwr bit (happen basePwr bit s) = true := raised_happen _ _ _ hsrc (by decide) (by decide) hlt
  have stays : raisedKept s (happen basePwr bit s) := .happen (.refl s) basePwr bit (by decide) hlt hsrc
  generalize happen basePwr bit s = x at *
  generalize hy : setF F.PWR_WAKE_FAIL_VALID 1 (setF F.PWR_WAKE_FAIL_ALT_NEXT 1
    (setF F.PWR_WAKE_FAIL_STEP step (setF F.PWR_WAKE_FAIL_DOMAIN d x))) = y
  have hv : F.PWR_WAKE_FAIL_VALID.ok := by unfold Fld.ok; decide
  have ha : F.PWR_WAKE_FAIL_ALT_NEXT.ok := by unfold Fld.ok; decide
  have hs : F.PWR_WAKE_FAIL_STEP.ok := by unfold Fld.ok; decide
  have stepped : getF y F.PWR_WAKE_FAIL_STEP = step := by
    rw [← hy, getF_setF_apart _ _ _ _ hv (by decide), getF_setF_apart _ _ _ _ ha (by decide), getF_setF_same _ _ _ hs]
    exact Nat.mod_eq_of_lt hstep
  have domain : getF y F.PWR_WAKE_FAIL_DOMAIN = d := by
    rw [← hy, getF_setF_apart _ _ _ _ hv (by decide), getF_setF_apart _ _ _ _ ha (by decide), getF_setF_apart _ _ _ _ hs (by decide),
      getF_setF_same _ _ _ (by unfold Fld.ok; decide)]
    exact Nat.mod_eq_of_lt hd
  have fail : ∀ {t : State} (f : Fld) (v : Nat), f.addr = Reg.PWR_WAKE_FAIL → regsKept (· = Reg.PWR_WAKE_FAIL) x t →
      regsKept (· = Reg.PWR_WAKE_FAIL) x (setF f v t) := fun f v hf h => h.setF f v hf
  have kept : regsKept (· = Reg.PWR_WAKE_FAIL) x y := hy ▸ fail _ _ rfl (fail _ _ rfl (fail _ _ rfl (fail _ _ rfl (.refl x))))
  have raisedY : raisedKept x y := hy ▸ .setF (.setF (.setF (.setF (.refl x) _ _) _ _) _ _) _ _
  generalize hz : ({ y with top := { y.top with
    faultN := true, wakeRun := false, waking := [], altNext := insertNat d y.top.altNext } } : State) = z
  have regs : z.regs = y.regs := hz ▸ rfl
  have top : z.top = { y.top with faultN := true, wakeRun := false, waking := [], altNext := insertNat d y.top.altNext } := hz ▸ rfl
  have all : raisedKept x (setF F.PWR_STATE_IN_TRANSITION 0 z) := .setF (raisedY.congr regs) _ _
  refine ⟨all _ _ (by decide) (by decide) hlt told, stays.trans all, by rw [setF_top, top], by rw [setF_top, top],
    by rw [setF_top, top]; exact mem_insertNat.mpr (.inl rfl), ?_, ?_, ?_⟩
  · rw [powerNow, getF_setF_apart _ _ _ _ (by unfold Fld.ok; decide) (by decide), getF_congr _ regs, kept.getF (by decide),
      evt.getF (not_eventReg_of_quiet (by decide))]
    rfl
  · rw [getF_setF_ne _ _ _ _ (by decide), getF_congr _ regs, domain]
  · rw [getF_setF_ne _ _ _ _ (by decide), getF_congr _ regs, stepped]

/-- What a switch of the reference clock leaves of a state `y`: the ports whose link was up in `s` go into Recovery. -/
def recovering (s y : State) : State :=
  if isSet s F.TOP_STRAP_SRIS then y
  else { y with host := { y.host with recov :=
    ([0, 1].filter (fun p => isSet s (F.HOST_LINK_STATUS_UP p))).foldl (fun l p => insertNat p l) y.host.recov } }

theorem mem_foldl_insertNat {p : Nat} (l m : List Nat) (h : p ∈ l ∨ p ∈ m) : p ∈ l.foldl (fun l p => insertNat p l) m := by
  induction l generalizing m with
  | nil => exact h.resolve_left List.not_mem_nil
  | cons q l ih =>
    refine ih _ ?_
    rcases h with h | h
    · exact (List.mem_cons.mp h).elim (fun e => .inr (mem_insertNat.mpr (.inl e))) .inl
    · exact .inr (mem_insertNat.mpr (.inr h))

theorem recovering_spec (s y : State) :
    (recovering s y).regs = y.regs ∧ (recovering s y).top = y.top ∧
      (isSet s F.TOP_STRAP_SRIS = false → ∀ p, p < 2 → isSet s (F.HOST_LINK_STATUS_UP p) = true → p ∈ (recovering s y).host.recov) := by
  unfold recovering
  split
  · next h => exact ⟨rfl, rfl, fun hno => absurd (hno.symm.trans h) (by decide)⟩
  · refine ⟨rfl, rfl, fun _ p hp hup => mem_foldl_insertNat _ _ (.inl (List.mem_filter.mpr ⟨?_, hup⟩))⟩
    interval_cases p <;> decide

/-- The switch to the other reference clock (R429). -/
theorem failover_spec (s : State) :
    raised basePwr 4 (failover s) = true ∧ raisedKept s (failover s) ∧
      getF (failover s) F.PWR_REFCLK_ACTIVE = 1 - getF s F.PWR_REFCLK_ACTIVE ∧
      getF (failover s) F.PWR_REFCLK_A_OK = getF s F.PWR_REFCLK_A_OK ∧ getF (failover s) F.PWR_REFCLK_B_OK = getF s F.PWR_REFCLK_B_OK ∧
      getF (failover s) F.PWR_FAILOVERS_COUNT = min (2 ^ 32 - 1) (getF s F.PWR_FAILOVERS_COUNT + 1) ∧
      (isSet s F.TOP_STRAP_SRIS = false → ∀ p, p < 2 → isSet s (F.HOST_LINK_STATUS_UP p) = true → p ∈ (failover s).host.recov) ∧
      (failover s).top = s.top := by
  have hact : F.PWR_REFCLK_ACTIVE.ok := by unfold Fld.ok; decide
  unfold failover
  dsimp only
  generalize hx : addF F.PWR_FAILOVERS_COUNT 1 (setF F.PWR_REFCLK_ACTIVE (1 - getF s F.PWR_REFCLK_ACTIVE) s) = x
  have active : getF x F.PWR_REFCLK_ACTIVE = 1 - getF s F.PWR_REFCLK_ACTIVE := by
    rw [← hx, addF, getF_setF_ne _ _ _ _ (by decide), getF_setF_same _ _ _ hact]
    exact Nat.mod_eq_of_lt (by simp only; omega)
  have aOk : getF x F.PWR_REFCLK_A_OK = getF s F.PWR_REFCLK_A_OK := by
    rw [← hx, addF, getF_setF_ne _ _ _ _ (by decide), getF_setF_apart _ _ _ _ hact (by decide)]
  have bOk : getF x F.PWR_REFCLK_B_OK = getF s F.PWR_REFCLK_B_OK := by
    rw [← hx, addF, getF_setF_ne _ _ _ _ (by decide), getF_setF_apart _ _ _ _ hact (by decide)]
  have count : getF x F.PWR_FAILOVERS_COUNT = min (2 ^ 32 - 1) (getF s F.PWR_FAILOVERS_COUNT + 1) := by
    rw [← hx, getF_addF_word, getF_setF_ne _ _ _ _ (by decide)]
  have top : x.top = s.top := by rw [← hx, addF_top, setF_top]
  have raisedX : raisedKept s x := hx ▸ .setF (.setF (.refl s) _ _) _ _
  clear hx
  have evt := evtOnly_happen basePwr 4 x (by decide) (by decide)
  have told : raised basePwr 4 (happen basePwr 4 x) = true := raised_happen _ _ _ (by decide) (by decide) (by decide) (by decide)
  have stays : raisedKept x (happen basePwr 4 x) := .happen (.refl x) basePwr 4
  generalize happen basePwr 4 x = y at *
  have fields : ∀ f : Fld, quietReg f.addr = true → getF y f = getF x f := fun f hf => evt.getF (not_eventReg_of_quiet hf)
  obtain ⟨regs, ztop, recov⟩ := recovering_spec s y
  change raised basePwr 4 (recovering s y) = true ∧ raisedKept s (recovering s y) ∧ getF (recovering s y) _ = _ ∧
    getF (recovering s y) _ = _ ∧ getF (recovering s y) _ = _ ∧ getF (recovering s y) _ = _ ∧ (_ → ∀ p, _ → _ → p ∈ (recovering s y).host.recov) ∧
    (recovering s y).top = _
  generalize recovering s y = z at *
  refine ⟨(raised_of_regs _ _ regs).trans told, raisedX.trans (stays.congr regs), ?_, ?_, ?_, ?_, recov, ztop.trans (evt.1.top_eq.trans top)⟩
  · rw [getF_congr _ regs, fields _ (by decide), active]
  · rw [getF_congr _ regs, fields _ (by decide), aOk]
  · rw [getF_congr _ regs, fields _ (by decide), bOk]
  · rw [getF_congr _ regs, fields _ (by decide), count]

/-- A wake step that a retry does not save is noted with its domain. -/
def stepNoted (d step : Nat) (s : State) : State :=
  setF F.PWR_WAKE_FAIL_VALID 1 (setF F.PWR_WAKE_FAIL_STEP step (setF F.PWR_WAKE_FAIL_DOMAIN d s))

theorem stepNoted_spec (d step : Nat) (s : State) :
    (stepNoted d step s).top = s.top ∧ regsKept (· = Reg.PWR_WAKE_FAIL) s (stepNoted d step s) := by
  unfold stepNoted
  refine ⟨by rw [setF_top, setF_top, setF_top], ?_⟩
  have fail : ∀ {t : State} (f : Fld) (v : Nat), f.addr = Reg.PWR_WAKE_FAIL → regsKept (· = Reg.PWR_WAKE_FAIL) s t →
      regsKept (· = Reg.PWR_WAKE_FAIL) s (setF f v t) := fun f v hf h => h.setF f v hf
  exact fail _ _ rfl (fail _ _ rfl (fail _ _ rfl (.refl s)))

theorem stepTimeout_of_none {r : Bool} (hrun : s.top.wakeRun = false) (hd : d ∉ s.top.waking) : stepTimeout d step r other s = s :=
  if_pos (by simp [hrun, hd])

section

variable (hw : s.top.wakeRun = true ∨ d ∈ s.top.waking)
include hw

theorem stepTimeout_of_retried : stepTimeout d step false other s = happen basePwr 3 s := by
  unfold stepTimeout
  dsimp only
  rw [if_neg (by rcases hw with h | h <;> simp [h])]
  exact if_pos rfl

theorem stepTimeout_of_failed (h : step = 1 ∧ bit = 5 ∨ step = 2 ∧ (other && isSet s F.PWR_CFG_FAILOVER_EN) = false ∧ bit = 7 ∨
    step = 3 ∧ other = false ∧ bit = 6) : stepTimeout d step true other s = wakeFails d step bit (happen basePwr 3 s) := by
  unfold stepTimeout
  dsimp only
  rw [if_neg (by rcases hw with h | h <;> simp [h]), if_neg (by decide)]
  rcases h with ⟨rfl, rfl⟩ | ⟨rfl, hno, rfl⟩ | ⟨rfl, rfl, rfl⟩
  · rfl
  · exact if_neg (Bool.eq_false_iff.mp hno)
  · rfl

theorem stepTimeout_of_failover (h : (other && isSet s F.PWR_CFG_FAILOVER_EN) = true) :
    stepTimeout d 2 true other s = failover (stepNoted d 2 (happen basePwr 3 s)) := by
  unfold stepTimeout
  dsimp only
  rw [if_neg (by rcases hw with h | h <;> simp [h]), if_neg (by decide)]
  exact if_pos h

theorem stepTimeout_of_switch :
    stepTimeout d 3 true true s =
      setF F.PWR_REFCLK_ACTIVE (1 - getF s F.PWR_REFCLK_ACTIVE) (stepNoted d 3 (happen basePwr 3 s)) := by
  unfold stepTimeout
  dsimp only
  rw [if_neg (by rcases hw with h | h <;> simp [h]), if_neg (by decide)]
  rfl

end

/-! ### A lost reference clock -/

theorem refclkOk_spec (s : State) :
    getF (setF (if getF s F.PWR_REFCLK_ACTIVE = 0 then F.PWR_REFCLK_A_OK else F.PWR_REFCLK_B_OK) 0 s)
      (if getF s F.PWR_REFCLK_ACTIVE = 0 then F.PWR_REFCLK_A_OK else F.PWR_REFCLK_B_OK) = 0 ∧
      getF (setF (if getF s F.PWR_REFCLK_ACTIVE = 0 then F.PWR_REFCLK_A_OK else F.PWR_REFCLK_B_OK) 0 s) F.PWR_REFCLK_ACTIVE =
        getF s F.PWR_REFCLK_ACTIVE ∧
      regsKept (· = Reg.PWR_REFCLK) s (setF (if getF s F.PWR_REFCLK_ACTIVE = 0 then F.PWR_REFCLK_A_OK else F.PWR_REFCLK_B_OK) 0 s) ∧
      changesOnly [.regs] s (setF (if getF s F.PWR_REFCLK_ACTIVE = 0 then F.PWR_REFCLK_A_OK else F.PWR_REFCLK_B_OK) 0 s) := by
  have hok : ∀ f, f = F.PWR_REFCLK_A_OK ∨ f = F.PWR_REFCLK_B_OK → f.ok ∧ f.addr = Reg.PWR_REFCLK ∧
      (F.PWR_REFCLK_ACTIVE.lo + F.PWR_REFCLK_ACTIVE.w ≤ f.lo) ∧ f.w = 1 := by
    rintro f (rfl | rfl) <;> exact ⟨by unfold Fld.ok; decide, rfl, by decide, rfl⟩
  obtain ⟨ok, addr, apart, w⟩ := hok (if getF s F.PWR_REFCLK_ACTIVE = 0 then F.PWR_REFCLK_A_OK else F.PWR_REFCLK_B_OK)
    (by split <;> simp)
  generalize (if getF s F.PWR_REFCLK_ACTIVE = 0 then F.PWR_REFCLK_A_OK else F.PWR_REFCLK_B_OK) = f at *
  exact ⟨by rw [getF_setF_same _ _ _ ok, Nat.zero_mod], getF_setF_apart _ _ _ _ ok (.inl apart), .setF (.refl s) _ _ addr,
    .setF (.refl _ s) _ _⟩

/-! ### Stalled accesses -/

/-- A stalled access that its time has passed: gone, with its event and its count. -/
def stallEnded (a : Nat) (x : Path × Nat × Option (W32 × Nat)) (s : State) : State :=
  addF F.PWR_WAKE_TIMEOUTS_COUNT 1 (maxF F.PWR_STALL_MAX_US 900 (happen basePwr 1 (noteErr basePwr 0xF3 (domainOf a) a
    { s with top := { s.top with stalled := s.top.stalled.erase x } })))

theorem stallEnded_spec {x : Path × Nat × Option (W32 × Nat)} (hx : s.top.stalled = [x]) (a : Nat) :
    (stallEnded a x s).out = s.out ∧ (stallEnded a x s).top.stalled = [] ∧ (stallEnded a x s).top.mgmt = s.top.mgmt ∧
      raised basePwr 1 (stallEnded a x s) = true ∧
      getF (stallEnded a x s) F.PWR_WAKE_TIMEOUTS_COUNT = min (2 ^ 32 - 1) (getF s F.PWR_WAKE_TIMEOUTS_COUNT + 1) := by
  unfold stallEnded
  rw [hx, List.erase_cons_head]
  generalize hy : ({ s with top := { s.top with stalled := [] } } : State) = y
  have regs : y.regs = s.regs := hy ▸ rfl
  have out : y.out = s.out := hy ▸ rfl
  have top : y.top = { s.top with stalled := [] } := hy ▸ rfl
  have count : getF (noteErr basePwr 0xF3 (domainOf a) a y) F.PWR_WAKE_TIMEOUTS_COUNT = getF s F.PWR_WAKE_TIMEOUTS_COUNT :=
    (getF_of_rd (rd_noteErr _ _ _ _ _ _ (by decide) (by decide) (by decide))).trans (getF_congr _ regs)
  have zout : (noteErr basePwr 0xF3 (domainOf a) a y).out = s.out := (noteErr_out ..).trans out
  have ztop : (noteErr basePwr 0xF3 (domainOf a) a y).top = { s.top with stalled := [] } := (noteErr_top ..).trans top
  generalize noteErr basePwr 0xF3 (domainOf a) a y = z at *
  have told : raised basePwr 1 (happen basePwr 1 z) = true := raised_happen _ _ _ (by decide) (by decide) (by decide) (by decide)
  have evt := evtOnly_happen basePwr 1 z (by decide) (by decide)
  have vout : (happen basePwr 1 z).out = s.out := (happen_out ..).trans zout
  generalize happen basePwr 1 z = v at *
  have vtop : v.top = { s.top with stalled := [] } := evt.1.top_eq.trans ztop
  refine ⟨by rw [addF_out, maxF_out, vout], by rw [addF_top, maxF_top, vtop], by rw [addF_top, maxF_top, vtop], ?_, ?_⟩
  · rw [raised_of_rd (rd_addF_ne _ _ _ (by decide)), maxF, raised_of_rd (rd_setF_ne _ _ _ (by decide)), told]
  · rw [getF_addF_word, maxF, getF_setF_ne _ _ _ _ (by decide), evt.getF (not_eventReg_of_quiet (by decide)), count]

theorem mgmtTimeout_of_none {w : Bool} (h : s.top.mgmt = []) : mgmtTimeout a w s = s := by
  rw [mgmtTimeout, h]
  rfl

theorem stallTimeout_read {path : Path} (hs : s.top.stalled = [(path, a, none)]) :
    stallTimeout a false s = emit (.readData path a 0xFFFFFFFF) (stallEnded a (path, a, none) s) := by
  unfold stallTimeout stallEnded
  rw [hs, List.find?_cons_of_pos (by simp)]
  rfl

theorem stallTimeout_write {path : Path} {v : W32} {b : Nat} (hs : s.top.stalled = [(path, a, some (v, b))]) :
    stallTimeout a true s = stallEnded a (path, a, some (v, b)) s := by
  unfold stallTimeout stallEnded
  rw [hs, List.find?_cons_of_pos (by simp)]
  rfl

theorem stallTimeout_of_none {w : Bool} (hs : s.top.stalled = []) : stallTimeout a w s = s := by
  rw [stallTimeout, hs]
  rfl

end Sys2Proof.Machine
end

/-! ## Power states: autonomous transitions, and the statement (R24, R25, R417 to R420, R423 to R429) -/

section

-- One proof after another: elaborated side by side, the proofs of this text take more memory than its check allows.
set_option Elab.async false

namespace Sys2Proof.Machine

variable {s t u : State} {d k f step bit a fn ps : Nat} {other : Bool}

theorem noteSel_spec (s : State) :
    (noteSel s).top = s.top ∧ (noteSel s).host = s.host ∧ regsKept (· = Reg.PWR_STATE) s (noteSel s) ∧
      changesOnly [.regs] s (noteSel s) := by
  have noted : ∀ {t : State} (f : Fld) (v : Nat), f.addr = Reg.PWR_STATE → regsKept (· = Reg.PWR_STATE) s t →
      regsKept (· = Reg.PWR_STATE) s (setF f v t) := fun f v hf h => h.setF f v hf
  exact ⟨by rw [noteSel, setF_top, setF_top], by rw [noteSel, setF_host, setF_host], noted _ _ rfl (noted _ _ rfl (.refl s)),
    .setF (.setF (.refl _ s) _ _) _ _⟩

/-- From Run, with no IO_WAKE, the selected state becomes the target (R417, R420). -/
theorem aimAt_of_run (r : Bool) (hrun : powerNow u = 0) (hwake : isSet u F.PWR_STATE_IO_WAKE = false) :
    (selected u = 0 → (aimAt r u).top.target = none) ∧
      (selected u ≠ 0 → (aimAt r u).top.target = some (selected u) ∧ (aimAt r u).top.requested = r ∧
        isSet (aimAt r u) F.PWR_STATE_IN_TRANSITION = decide (2 ≤ selected u)) ∧
      regsKept (· = Reg.PWR_STATE) u (aimAt r u) ∧ changesOnly [.regs, .top] u (aimAt r u) := by
  obtain ⟨top, -, kept, parts⟩ := noteSel_spec u
  unfold aimAt
  extract_lets k x
  change regsKept _ u x at kept
  change x.top = u.top at top
  change changesOnly [.regs] u x at parts
  rw [if_neg (by simp [hwake])]
  by_cases hk : k = 0
  · rw [if_pos (.inl hk)]
    exact ⟨fun _ => rfl, fun h => absurd hk h, kept.congr rfl, .top (parts.mono (by decide))⟩
  · rw [if_neg (by rw [hrun, or_self]; exact hk)]
    generalize hy : ({ x with top := { x.top with target := some k, requested := r } } : State) = y
    have ytop : y.top = { x.top with target := some k, requested := r } := hy ▸ rfl
    have regs : y.regs = x.regs := hy ▸ rfl
    have yparts : changesOnly [.regs, .top] u y := hy ▸ .top (parts.mono (by decide))
    refine ⟨fun h => absurd h hk, fun _ => ⟨by rw [setF_top, ytop], by rw [setF_top, ytop], ?_⟩, .setF (kept.congr regs) _ _ rfl,
      .setF yparts _ _⟩
    change isSet _ _ = decide (2 ≤ k)
    rw [isSet, getF_setF_same _ _ _ (by unfold Fld.ok; decide)]
    by_cases h2 : 2 ≤ k
    · rw [if_pos h2]; simp [h2]
    · rw [if_neg h2]; simp [h2]

/-- An autonomous transition (R417) selects the state of its function and aims at it. -/
theorem apst_spec (hpf0 : isPF0 s fn = true) (hrdy : (getFn s fn).rdy = true) (hps : ps ≤ 4) (hidle : busyCmds s = false)
    (hall : psAllowed s ps = 0) (hrun : powerNow s = 0) (hwake : isSet s F.PWR_STATE_IO_WAKE = false)
    (hu : u = setFn fn { getFn s fn with ps := ps, psHeld := none } s) :
    (apst fn ps s).host = u.host ∧ (selected u = 0 → (apst fn ps s).top.target = none) ∧
      (selected u ≠ 0 → (apst fn ps s).top.target = some (selected u) ∧ (apst fn ps s).top.requested = false ∧
        isSet (apst fn ps s) F.PWR_STATE_IN_TRANSITION = decide (2 ≤ selected u)) ∧
      regsKept (· = Reg.PWR_STATE) s (apst fn ps s) ∧ changesOnly [.regs, .host, .top] s (apst fn ps s) := by
  have heq : apst fn ps s = aimAt false u := by
    rw [apst, if_pos (by simp [hpf0, hrdy, hps, hidle, hall, hrun]), selectPs, if_neg (by simp [hall]), hu]
  have regs : u.regs = s.regs := hu ▸ rfl
  have parts : changesOnly [.host] s u := hu ▸ .host (.refl _ s)
  clear hu
  obtain ⟨run, sleep, kept, aimed⟩ := aimAt_of_run false ((getF_congr F.PWR_STATE_CUR regs).trans hrun)
    ((isSet_of_getF (getF_congr _ regs)).trans hwake)
  rw [heq]
  exact ⟨host_aimAt .., run, sleep, (regsKept.of_regs regs).trans kept, (parts.mono (by decide)).trans (aimed.mono (by decide))⟩

theorem apst_of_not (h : isPF0 s fn = false ∨ (getFn s fn).rdy = false ∨ 4 < ps ∨ busyCmds s = true ∨ psAllowed s ps ≠ 0 ∨
    powerNow s ≠ 0) : apst fn ps s = s := by
  refine if_neg fun hc => ?_
  simp only [Bool.and_eq_true, Bool.not_eq_true', decide_eq_true_eq] at hc
  obtain ⟨⟨⟨⟨⟨hpf0, hrdy⟩, hps⟩, hidle⟩, hall⟩, hrun⟩ := hc
  rcases h with h | h | h | h | h | h
  · exact Bool.false_ne_true (h.symm.trans hpf0)
  · exact Bool.false_ne_true (h.symm.trans hrdy)
  · omega
  · exact Bool.false_ne_true (hidle.symm.trans h)
  · exact h hall
  · exact h hrun

/-- A lost reference clock (R429): its OK falls, and the failover follows where it is enabled and the other is good. -/
theorem refclkLost_spec (other : Bool) (s : State) :
    getF (refclkLostDo other s) (if getF s F.PWR_REFCLK_ACTIVE = 0 then F.PWR_REFCLK_A_OK else F.PWR_REFCLK_B_OK) = 0 ∧
      (isSet s F.PWR_CFG_FAILOVER_EN = true → other = true → raised basePwr 4 (refclkLostDo other s) = true ∧
        getF (refclkLostDo other s) F.PWR_REFCLK_ACTIVE = 1 - getF s F.PWR_REFCLK_ACTIVE ∧
        getF (refclkLostDo other s) F.PWR_FAILOVERS_COUNT = min (2 ^ 32 - 1) (getF s F.PWR_FAILOVERS_COUNT + 1) ∧
        (isSet s F.TOP_STRAP_SRIS = false → ∀ p, p < 2 → isSet s (F.HOST_LINK_STATUS_UP p) = true →
          p ∈ (refclkLostDo other s).host.recov)) ∧
      (isSet s F.PWR_CFG_FAILOVER_EN = false ∨ other = false →
        getF (refclkLostDo other s) F.PWR_REFCLK_ACTIVE = getF s F.PWR_REFCLK_ACTIVE ∧
        regsKept (· = Reg.PWR_REFCLK) s (refclkLostDo other s) ∧ changesOnly [.regs] s (refclkLostDo other s)) := by
  obtain ⟨lost, active, kept, parts⟩ := refclkOk_spec s
  unfold refclkLostDo
  extract_lets x
  change getF x _ = 0 at lost
  change getF x _ = _ at active
  change regsKept _ s x at kept
  change changesOnly _ s x at parts
  obtain ⟨told, -, toggled, aOk, bOk, count, recov, -⟩ := failover_spec x
  clear_value x
  by_cases h : (isSet s F.PWR_CFG_FAILOVER_EN && other) = true
  · rw [if_pos h]
    obtain ⟨hen, hother⟩ := Bool.and_eq_true_iff.mp h
    refine ⟨?_, fun _ _ => ⟨told, by rw [toggled, active], ?_, fun hs p hp hup => ?_⟩, fun hno => ?_⟩
    · split at lost <;> split
      · rw [aOk, lost]
      · contradiction
      · contradiction
      · rw [bOk, lost]
    · rw [count, kept.getF (by decide)]
    · refine recov ?_ p hp ?_
      · rw [isSet_of_getF (kept.getF (by decide)), hs]
      · rw [isSet_of_getF (kept.getF (by interval_cases p <;> decide)), hup]
    · rcases hno with hno | hno
      · exact absurd (hno.symm.trans hen) (by decide)
      · exact absurd (hno.symm.trans hother) (by decide)
  · rw [if_neg h]
    exact ⟨lost, fun hen hother => absurd (by rw [hen, hother]; rfl) h, fun _ => ⟨active, kept, parts⟩⟩

/-- The step that the other clock takes over (R428): the active clock changes, the wake goes on. -/
theorem stepSwitched_spec (d : Nat) (s : State) :
    raised basePwr 3 (setF F.PWR_REFCLK_ACTIVE (1 - getF s F.PWR_REFCLK_ACTIVE) (stepNoted d 3 (happen basePwr 3 s))) = true ∧
      getF (setF F.PWR_REFCLK_ACTIVE (1 - getF s F.PWR_REFCLK_ACTIVE) (stepNoted d 3 (happen basePwr 3 s))) F.PWR_REFCLK_ACTIVE =
        1 - getF s F.PWR_REFCLK_ACTIVE ∧
      (setF F.PWR_REFCLK_ACTIVE (1 - getF s F.PWR_REFCLK_ACTIVE) (stepNoted d 3 (happen basePwr 3 s))).top = s.top := by
  have told : raised basePwr 3 (happen basePwr 3 s) = true := raised_happen _ _ _ (by decide) (by decide) (by decide) (by decide)
  obtain ⟨top, kept⟩ := stepNoted_spec d 3 (happen basePwr 3 s)
  refine ⟨?_, ?_, by rw [setF_top, top, happen_top]⟩
  · rw [raised_of_rd (rd_setF_ne _ _ _ (by decide)), raised_of_rd (kept _ (by decide)), told]
  · rw [getF_setF_same _ _ _ (by unfold Fld.ok; decide)]
    exact Nat.mod_eq_of_lt (by simp only; omega)

theorem stepFailover_spec (d : Nat) (s : State) :
    raised basePwr 4 (failover (stepNoted d 2 (happen basePwr 3 s))) = true ∧
      getF (failover (stepNoted d 2 (happen basePwr 3 s))) F.PWR_REFCLK_ACTIVE = 1 - getF s F.PWR_REFCLK_ACTIVE ∧
      (failover (stepNoted d 2 (happen basePwr 3 s))).top = s.top := by
  obtain ⟨top, kept⟩ := stepNoted_spec d 2 (happen basePwr 3 s)
  obtain ⟨told, -, toggled, -, -, -, -, ftop⟩ := failover_spec (stepNoted d 2 (happen basePwr 3 s))
  exact ⟨told, by rw [toggled, kept.getF (by decide), getF_happen (by decide) (by decide) (by decide)], by rw [ftop, top, happen_top]⟩

theorem exec_accessStallTimeout {w : Bool} (hm : (stallTimeout a w s).top.mgmt = []) :
    completes (.accessStallTimeout a w) s (stallTimeout a w s) :=
  congrArg Host.Outcome.next (mgmtTimeout_of_none hm)

/-- Settles O42: each state entry, return, wake, failed drain or wake step, lost clock and stalled access by the lemma of its
operation. -/
theorem powerStatesAreEnteredAndLeft : Obligations.PowerStatesAreEnteredAndLeft := by
  unfold Obligations.PowerStatesAreEnteredAndLeft
  intro s
  refine ⟨?entered, ?notEntered, ?wentOff, ?notOff, ?returns, ?noReturn, ?seen, ?wakes, ?woken, ?ran, ?drainFails, ?noDrain, ?steps, ?noStep,
    ?clock, ?readStall, ?writeStall, ?noStall, ?apst, ?noApst⟩
  case entered =>
    intro k ht hk
    obtain ⟨now, target, on, ret, -, told, kept, parts⟩ := enterState_spec (k := k) (by omega) s
    exact ⟨_, congrArg Host.Outcome.next (stateEntered_of_due ht hk), now, target, on, ret, told, kept, parts⟩
  case notEntered => exact fun h => congrArg Host.Outcome.next (stateEntered_of_not h)
  case wentOff => exact fun f ht hf hg hd => ⟨_, rfl, offDue_spec ht hf hg hd⟩
  case notOff => exact fun h => congrArg Host.Outcome.next (offDue_of_not h)
  case returns =>
    intro hwake hidle hret
    refine ⟨fun h => ⟨_, congrArg Host.Outcome.next (ioReturn_of_run hwake hidle hret h), ?_, .setF (.refl s) _ _ rfl,
      .setF (.refl _ s) _ _⟩, fun h => ?_, fun h => ?_⟩
    · rw [isSet, getF_setF_same _ _ _ (by unfold Fld.ok; decide)]
      rfl
    · obtain ⟨now, -, -, -, wake, told, -, -⟩ := enterState_spec (k := 1) (by decide) s
      exact ⟨_, congrArg Host.Outcome.next (ioReturn_of_idle hwake hidle hret h), now, wake, told⟩
    · have run : completes .ioWakeReturn s _ := congrArg Host.Outcome.next (ioReturn_of_sleep hwake hidle hret h)
      generalize hx : ({ s with top := { s.top with target := some (selected s) } } : State) = x at run
      have regs : x.regs = s.regs := hx ▸ rfl
      have top : x.top = { s.top with target := some (selected s) } := hx ▸ rfl
      have xparts : changesOnly [.regs, .top] s x := hx ▸ .top (.refl _ s)
      obtain ⟨moving, ttop, kept, parts⟩ := inTransition_spec x
      exact ⟨_, run, by rw [ttop, top], moving, (regsKept.of_regs regs).trans kept, xparts.trans (parts.mono (by decide))⟩
  case noReturn => exact fun h => congrArg Host.Outcome.next (ioReturn_of_not h)
  case seen => exact fun h => congrArg Host.Outcome.next (if_pos h)
  case wakes =>
    exact fun hoff hhalt => ⟨fun h => ⟨_, rfl, wakeIn_of_sleep hoff hhalt h⟩, fun h => ⟨_, rfl, wakeIn_of_idle hoff hhalt h⟩,
      fun h ht hr => ⟨_, rfl, wakeIn_of_drain hoff hhalt h ht hr⟩, fun h ht => congrArg Host.Outcome.next (wakeIn_of_run hoff hhalt h ht)⟩
  case woken => exact fun d hrun hd hlt hs hm => ⟨_, rfl, domainWoken_spec hrun hd hlt hs hm⟩
  case ran => exact fun h => congrArg (fun t => Host.Outcome.next (releaseStalled t)) (if_pos h)
  case drainFails => exact fun d hd h => ⟨_, rfl, drainTimeout_spec hd h⟩
  case noDrain => exact fun d ht hd => congrArg Host.Outcome.next (drainTimeout_of_none ht hd)
  case steps =>
    refine fun d step other hd hw => ⟨⟨_, congrArg Host.Outcome.next (stepTimeout_of_retried hw), ?_, evtOnly_happen _ _ _ (by decide) (by decide)⟩,
      fun bit h => ?_, fun hstep h => ?_, fun hstep hother => ?_⟩
    · exact raised_happen _ _ _ (by decide) (by decide) (by decide) (by decide)
    · have hbit : bit = 5 ∨ bit = 6 ∨ bit = 7 := by omega
      obtain ⟨told, stays, faultN, wakeRun, alt, now, domain, stepped⟩ :=
        wakeFails_spec (step := step) hd (by omega) hbit (happen basePwr 3 s)
      refine ⟨_, congrArg Host.Outcome.next (stepTimeout_of_failed hw h), ?_, told, faultN, wakeRun, alt, ?_, domain, stepped⟩
      · exact stays _ _ (by decide) (by decide) (by decide) (raised_happen _ _ _ (by decide) (by decide) (by decide) (by decide))
      · exact now.trans (getF_happen (by decide) (by decide) (by decide))
    · subst hstep
      obtain ⟨told, toggled, top⟩ := stepFailover_spec d s
      exact ⟨_, congrArg Host.Outcome.next (stepTimeout_of_failover hw h), told, toggled, congrArg TopSt.wakeRun top⟩
    · subst hstep hother
      obtain ⟨told, toggled, top⟩ := stepSwitched_spec d s
      exact ⟨_, congrArg Host.Outcome.next (stepTimeout_of_switch hw), told, toggled, congrArg TopSt.wakeRun top⟩
  case noStep => exact fun d step r other hrun hd => congrArg Host.Outcome.next (stepTimeout_of_none hrun hd)
  case clock => exact fun other => ⟨_, rfl, refclkLost_spec other s⟩
  case readStall =>
    intro path a hs hm
    obtain ⟨out, stalled, mgmt, told, count⟩ := stallEnded_spec hs a
    have ended := stallTimeout_read hs
    generalize stallEnded a (path, a, none) s = x at *
    have run : completes (.accessStallTimeout a false) s (stallTimeout a false s) := exec_accessStallTimeout (by rw [ended]; exact mgmt.trans hm)
    exact ⟨_, run.trans (congrArg Host.Outcome.next ended), congrArg (_ :: ·) out, stalled, told, count⟩
  case writeStall =>
    intro path a v b hs hm
    obtain ⟨out, stalled, mgmt, told, -⟩ := stallEnded_spec hs a
    have ended := stallTimeout_write hs
    have run : completes (.accessStallTimeout a true) s (stallTimeout a true s) := exec_accessStallTimeout (by rw [ended, mgmt, hm])
    exact ⟨_, run.trans (congrArg Host.Outcome.next ended), out, stalled, told⟩
  case noStall =>
    intro a w hs hm
    have ended := stallTimeout_of_none (a := a) (w := w) hs
    have run : completes (.accessStallTimeout a w) s (stallTimeout a w s) := exec_accessStallTimeout (by rw [ended, hm])
    exact run.trans (congrArg Host.Outcome.next ended)
  case apst => exact fun fn ps hpf0 hrdy hps hidle hall hrun hwake => ⟨_, _, rfl, rfl, apst_spec hpf0 hrdy hps hidle hall hrun hwake rfl⟩
  case noApst => exact fun fn ps h => congrArg Host.Outcome.next (apst_of_not h)

end Sys2Proof.Machine
end

/-! ## The Kiln's levels, its shutdown and its restart (R436, R439, R442, R443) -/

section

-- One proof after another: elaborated side by side, the proofs of this text take more memory than its check allows.
set_option Elab.async false

namespace Sys2Proof.Machine

variable {s t u : State} {i j k : Nat}

/-! ### A level in force -/

/-- The registers that a level moves. -/
def levelReg (a : Nat) : Prop := a = Reg.KILN_STATUS ∨ a = Reg.SORT_STATUS ∨ a = Reg.MAC_STATUS

/-- A level other than the present one is in force. -/
structure LevelTaken (k : Nat) (s t : State) : Prop where
  now : levelNow t = k
  sort : getF t F.SORT_STATUS_LEVEL = k
  kiln : t.kiln = { s.kiln with due := none, hotFrom := s.kiln.clock, coolFrom := s.kiln.clock, capOld := levelNow s, capBeat := beatNow s + 2 }
  told : raised baseKiln 1 t = true
  hot : getF t F.KILN_STATUS_HOT = getF s F.KILN_STATUS_HOT
  stays : raisedKept s t
  kept : regsKeptE levelReg s t
  parts : changesOnly (.kiln :: .host :: eventParts) s t

theorem showEngines_spec (s : State) :
    regsKept (· = Reg.MAC_STATUS) s (showEngines s) ∧ raisedKept s (showEngines s) ∧ changesOnly [.regs] s (showEngines s) ∧
      (showEngines s).kiln = s.kiln := by
  have shown : ∀ {t : State} (f : Fld) (v : Nat), f.addr = Reg.MAC_STATUS → regsKept (· = Reg.MAC_STATUS) s t →
      regsKept (· = Reg.MAC_STATUS) s (setF f v t) := fun f v hf h => h.setF f v hf
  unfold showEngines
  exact ⟨shown _ _ rfl (shown _ _ rfl (.refl s)), .setF (.setF (.refl s) _ _) _ _, .setF (.setF (.refl _ s) _ _) _ _, by
    rw [setF_kiln, setF_kiln]⟩

theorem takeLevel_of_eq (h : k = levelNow s) : takeLevel k s = { s with kiln := { s.kiln with due := none } } := if_pos h

theorem levelTaken (hk : k < 4) (h : k ≠ levelNow s) : LevelTaken k s (takeLevel k s) := by
  unfold takeLevel
  rw [if_neg h]
  generalize hx : ({ s with kiln := { s.kiln with
    due := none, hotFrom := s.kiln.clock, coolFrom := s.kiln.clock, capOld := levelNow s, capBeat := beatNow s + 2 } } : State) = x
  have regs : x.regs = s.regs := hx ▸ rfl
  have kiln : x.kiln = { s.kiln with
    due := none, hotFrom := s.kiln.clock, coolFrom := s.kiln.clock, capOld := levelNow s, capBeat := beatNow s + 2 } := hx ▸ rfl
  have xparts : changesOnly [.kiln] s x := hx ▸ .kiln (.refl _ s)
  clear hx
  dsimp only
  generalize hy : setF F.SORT_STATUS_LEVEL k (setF F.KILN_STATUS_LEVEL k x) = y
  have hl : F.KILN_STATUS_LEVEL.ok := by unfold Fld.ok; decide
  have now : getF y F.KILN_STATUS_LEVEL = k := by
    rw [← hy, getF_setF_ne _ _ _ _ (by decide), getF_setF_same _ _ _ hl]
    exact Nat.mod_eq_of_lt hk
  have sort : getF y F.SORT_STATUS_LEVEL = k := by
    rw [← hy, getF_setF_same _ _ _ (by unfold Fld.ok; decide)]
    exact Nat.mod_eq_of_lt hk
  have hot : getF y F.KILN_STATUS_HOT = getF s F.KILN_STATUS_HOT := by
    rw [← hy, getF_setF_ne _ _ _ _ (by decide), getF_setF_apart _ _ _ _ hl (by decide), getF_congr _ regs]
  have kept : regsKeptE levelReg s y := hy ▸ .setF (.setF (.of_regs regs) _ _ (.inl rfl)) _ _ (.inr (.inl rfl))
  have stays : raisedKept s y := hy ▸ .setF (.setF (.congr (.refl s) regs) _ _) _ _
  have ykiln : y.kiln = x.kiln := by rw [← hy, setF_kiln, setF_kiln]
  have yparts : changesOnly [.regs] x y := hy ▸ .setF (.setF (.refl _ x) _ _) _ _
  clear hy
  obtain ⟨shown, zstays, zparts, zkiln⟩ := showEngines_spec y
  generalize showEngines y = z at *
  have evt := evtOnly_happen baseKiln 1 z (by decide) (by decide)
  have told : raised baseKiln 1 (happen baseKiln 1 z) = true := raised_happen _ _ _ (by decide) (by decide) (by decide) (by decide)
  have vstays : raisedKept z (happen baseKiln 1 z) := .happen (.refl z) baseKiln 1
  have vkiln : (happen baseKiln 1 z).kiln = z.kiln := happen_kiln ..
  generalize happen baseKiln 1 z = v at *
  have aen := changesOnly_driveAen v
  generalize driveAen v = w at *
  have wregs := aen.regs_eq
  have field : ∀ f : Fld, quietReg f.addr = true → f.addr ≠ Reg.MAC_STATUS → getF w f = getF y f := fun f hq hf => by
    rw [getF_congr _ wregs, evt.getF (not_eventReg_of_quiet hq), shown.getF hf]
  exact
    { now := (field _ (by decide) (by decide)).trans now
      sort := (field _ (by decide) (by decide)).trans sort
      kiln := aen.kiln_eq.trans (vkiln.trans (zkiln.trans (ykiln.trans kiln)))
      told := (raised_of_regs _ _ wregs).trans told
      hot := (field _ (by decide) (by decide)).trans hot
      stays := ((stays.trans zstays).trans vstays).congr wregs
      kept := ((kept.trans (shown.mono fun _ h => .inr (.inr h)).toE).of_evtOnly evt).congr wregs
      parts := ((xparts.mono (by decide)).trans ((yparts.trans zparts).mono (by decide))).of_evtOnly evt |>.trans (aen.mono (by decide)) }

/-! ### The end of an evaluation (R436) -/

theorem kilnEval_of_not (h : evalDue s = false) : kilnEval s = s := if_pos (by simp [h])

section

variable (hdue : evalDue s = true)
include hdue

/-- An evaluation notes its time, and takes the level due, or one up, or one down, or none. -/
theorem kilnEval_of_due (hd : s.kiln.due = some k) : kilnEval s = takeLevel k { s with kiln := { s.kiln with evalAt := s.kiln.clock } } := by
  unfold kilnEval
  rw [if_neg (by simp [hdue])]
  dsimp only
  rw [hd]

theorem kilnEval_of_up (hd : s.kiln.due = none) (hl : levelNow s = 1 ∨ levelNow s = 2)
    (hhot : s.kiln.hotFrom + 1024 * getNZ s F.KILN_STEP_UP ≤ s.kiln.clock) :
    kilnEval s = takeLevel (levelNow s + 1) { s with kiln := { s.kiln with evalAt := s.kiln.clock } } := by
  unfold kilnEval
  rw [if_neg (by simp [hdue])]
  dsimp only
  rw [hd]
  exact if_pos ⟨hl, hhot⟩

theorem kilnEval_of_down (hd : s.kiln.due = none) (hhot : s.kiln.clock < s.kiln.hotFrom + 1024 * getNZ s F.KILN_STEP_UP)
    (hmin : getF s F.KILN_CFG_MIN_LEVEL < levelNow s) (hcool : s.kiln.coolFrom + 1024 * getNZ s F.KILN_STEP_DOWN ≤ s.kiln.clock)
    (hhold : levelNow s ≠ 3 ∨ faultHold s = false) :
    kilnEval s = takeLevel (levelNow s - 1) { s with kiln := { s.kiln with evalAt := s.kiln.clock } } := by
  unfold kilnEval
  rw [if_neg (by simp [hdue])]
  dsimp only
  rw [hd]
  refine (if_neg fun h => ?_).trans (if_pos ⟨hmin, hcool, fun h => ?_⟩)
  · have := h.2
    omega
  · exact hhold.elim (fun e => e h.1) fun e => Bool.false_ne_true (e.symm.trans h.2)

theorem kilnEval_of_none (hd : s.kiln.due = none) (hhot : s.kiln.clock < s.kiln.hotFrom + 1024 * getNZ s F.KILN_STEP_UP)
    (hcool : s.kiln.clock < s.kiln.coolFrom + 1024 * getNZ s F.KILN_STEP_DOWN) :
    kilnEval s = { s with kiln := { s.kiln with evalAt := s.kiln.clock } } := by
  unfold kilnEval
  rw [if_neg (by simp [hdue])]
  dsimp only
  rw [hd]
  refine (if_neg fun h => ?_).trans (if_neg fun h => ?_)
  · have := h.2
    omega
  · have := h.2.1
    omega

end

/-! ### The minimum level -/

theorem minLevel_spec (v : W32) (s : State) :
    getR (setR Reg.KILN_CFG (Nat.land v.toNat 0x3F7) s) Reg.KILN_CFG = Nat.land v.toNat 0x3F7 ∧
      getF (setR Reg.KILN_CFG (Nat.land v.toNat 0x3F7) s) F.KILN_CFG_MIN_LEVEL = bitsOf v.toNat 8 2 ∧
      levelAhead (setR Reg.KILN_CFG (Nat.land v.toNat 0x3F7) s) = levelAhead s ∧
      levelNow (setR Reg.KILN_CFG (Nat.land v.toNat 0x3F7) s) = levelNow s ∧
      asleep (setR Reg.KILN_CFG (Nat.land v.toNat 0x3F7) s) = asleep s := by
  have hlt : Nat.land v.toNat 0x3F7 < 2 ^ 32 := lt_of_le_of_lt Nat.and_le_left v.isLt
  have kept : regsKept (· = Reg.KILN_CFG) s (setR Reg.KILN_CFG (Nat.land v.toNat 0x3F7) s) := .setR (.refl s) _ _ rfl
  have now : levelNow (setR Reg.KILN_CFG (Nat.land v.toNat 0x3F7) s) = levelNow s := kept.getF (by decide)
  refine ⟨by rw [getR_setR_same, Nat.mod_eq_of_lt hlt], ?_, by rw [levelAhead, levelAhead, now, setR_kiln], now, ?_⟩
  · refine (getF_setR_same F.KILN_CFG_MIN_LEVEL _ s).trans ?_
    rw [Nat.mod_eq_of_lt hlt]
    refine Nat.eq_of_testBit_eq fun n => ?_
    change (bitsOf (v.toNat &&& 0x3F7) 8 2).testBit n = _
    simp only [bitsOf, Nat.testBit_mod_two_pow, Nat.testBit_div_two_pow, Nat.testBit_and]
    by_cases h : n < 2
    · interval_cases n <;> simp <;> exact fun _ => rfl
    · simp [h]
  · rw [asleep, asleep, kept.getF (by decide)]

theorem minLevelWrite_of_le {v : W32} (h : bitsOf v.toNat 8 2 ≤ levelAhead s) :
    minLevelWrite v s = setR Reg.KILN_CFG (Nat.land v.toNat 0x3F7) s := by
  obtain ⟨-, min, ahead, -, -⟩ := minLevel_spec v s
  exact if_neg (by rw [min, ahead]; omega)

theorem minLevelWrite_of_lt {v : W32} (h : levelAhead s < bitsOf v.toNat 8 2) :
    minLevelWrite v s = moveLevel (bitsOf v.toNat 8 2) (setR Reg.KILN_CFG (Nat.land v.toNat 0x3F7) s) := by
  obtain ⟨-, min, ahead, -, -⟩ := minLevel_spec v s
  refine (if_pos (by rw [min, ahead]; exact h)).trans ?_
  rw [min]

theorem moveLevel_of_awake (h : asleep s = false) (k : Nat) : moveLevel k s = { s with kiln := { s.kiln with due := some k } } :=
  if_neg (by simp [h])

theorem moveLevel_of_asleep (h : asleep s = true) (k : Nat) : moveLevel k s = takeLevel k s := if_pos h

/-! ### Shutdown and restart -/

theorem enterOff_kiln (s : State) : (enterOff s).kiln = s.kiln := (offEntered s).parts.kiln_eq

theorem enterOff_pins (s : State) : (enterOff s).top.thermTrip = s.top.thermTrip ∧ (enterOff s).top.faultN = s.top.faultN := by
  unfold enterOff
  extract_lets s1 s2
  have top : s2.top = s.top := by
    rw [setF_top, setF_top, setF_top, setF_top, setF_top, setF_top, setF_top, setF_top, setF_top]
  clear_value s2
  have pins : s2.top.thermTrip = s.top.thermTrip ∧ s2.top.faultN = s.top.faultN := by rw [top]; exact ⟨rfl, rfl⟩
  exact pins

/-- A tripped part powers down. -/
theorem thermalOff_spec (htrip : s.kiln.trip ≠ none) (hoff : s.top.off = false) :
    (thermalOff s).top.off = true ∧ (thermalOff s).kiln.trip = none ∧ getF (thermalOff s) F.PWR_DOM_STAT_ON = 1 ∧
      (thermalOff s).top.thermTrip = s.top.thermTrip ∧ changesOnly [.regs, .top, .kiln] s (thermalOff s) := by
  have heq : thermalOff s = { enterOff s with kiln := { (enterOff s).kiln with trip := none, belowFrom := none } } :=
    if_pos ⟨by rwa [Option.isSome_iff_ne_none], by simp [hoff]⟩
  have entered := offEntered s
  obtain ⟨pin, -⟩ := enterOff_pins s
  rw [heq]
  generalize enterOff s = x at *
  exact ⟨entered.off, rfl, (getF_congr _).trans entered.doms, pin, .kiln (entered.parts.mono (by decide))⟩

theorem thermalOff_of_not (h : s.kiln.trip = none ∨ s.top.off = true) : thermalOff s = s := by
  refine if_neg fun hc => ?_
  rcases h with h | h
  · rw [h] at hc
    exact absurd hc.1 (by simp)
  · exact hc.2 h

theorem tripRelease_of_not (h : s.top.thermTrip = false ∨ s.top.off = false ∨ s.kiln.belowFrom = none) : tripRelease s = s := by
  unfold tripRelease
  split
  · next ht ho hb =>
    rcases h with h | h | h
    · exact absurd (h.symm.trans ht) (by decide)
    · exact absurd (h.symm.trans ho) (by decide)
    · exact absurd (h.symm.trans hb) (by simp)
  · rfl

theorem tripRelease_of_cool {b : Nat} (ht : s.top.thermTrip = true) (ho : s.top.off = true) (hb : s.kiln.belowFrom = some b)
    (hc : b + 1048576 ≤ s.kiln.clock) :
    tripRelease s = { s with
      kiln := { s.kiln with restart := true }
      top := { s.top with
        thermTrip := false, startDue := if isSet s F.KILN_CFG_AUTO_RESTART then some 3 else s.top.startDue } } := by
  rw [tripRelease, ht, ho, hb]
  exact if_pos hc

end Sys2Proof.Machine
end

/-! ## The Kiln's samples (R432 to R436, R442, R443) -/

section

-- One proof after another: elaborated side by side, the proofs of this text take more memory than its check allows.
set_option Elab.async false

namespace Sys2Proof.Machine

variable {s t u x : State} {i j k : Nat} {but : Nat → Prop} {temps : List (Option Int)} {live : List (Nat × Int)}

theorem raisedKept.of_regsKept (h : regsKept but s t) (hb : ∀ a, but a → a % 0x1000 ≠ 0x10) : raisedKept s t :=
  fun base i hbase _ _ hr => (raised_of_rd (h _ fun hbut => hb _ hbut (by simp only [Reg.EVT_RAW]; omega))).trans hr

/-! ### What a part of a sample leaves -/

/-- A part of a sample: beyond some registers and what events change, it moves the Kiln's own state and the hosts' events. -/
structure Sampled (but : Nat → Prop) (s t : State) : Prop where
  kept : regsKeptE but s t
  parts : changesOnly (.kiln :: .host :: eventParts) s t
  stays : raisedKept s t
  clock : t.kiln.clock = s.kiln.clock
  trip : t.kiln.trip = s.kiln.trip
  atTrip : t.kiln.atTrip = s.kiln.atTrip

namespace Sampled

theorem refl (s : State) : Sampled but s s := ⟨.refl s, .refl _ s, .refl s, rfl, rfl, rfl⟩

theorem trans (h : Sampled but s t) (k : Sampled but t u) : Sampled but s u :=
  ⟨h.kept.trans k.kept, h.parts.trans k.parts, h.stays.trans k.stays, k.clock.trans h.clock, k.trip.trans h.trip,
    k.atTrip.trans h.atTrip⟩

theorem mono {but' : Nat → Prop} (h : Sampled but s t) (hb : ∀ a, but a → but' a) : Sampled but' s t :=
  { h with kept := fun a ha => h.kept a fun hk => ha (hb a hk) }

theorem setF (h : Sampled but s t) (f : Fld) (v : Nat) (hf : but f.addr) (hr : f.addr % 0x1000 ≠ 0x10) :
    Sampled but s (setF f v t) :=
  ⟨h.kept.setF f v hf, h.parts.setF f v, h.stays.setF f v hr, by rw [setF_kiln, h.clock], by rw [setF_kiln, h.trip],
    by rw [setF_kiln, h.atTrip]⟩

theorem happen (h : Sampled but s t) (i : Nat) (hi : i < 8) : Sampled but s (happen baseKiln i t) := by
  have hsrc : srcOf baseKiln i < 256 := (show srcOf baseKiln i = 32 + i from rfl) ▸ by omega
  exact ⟨h.kept.happen baseKiln i (by decide) hsrc, h.parts.happen baseKiln i (by decide) (by decide) hsrc,
    h.stays.happen baseKiln i (by decide) (by omega) hsrc, by rw [happen_kiln, h.clock], by rw [happen_kiln, h.trip],
    by rw [happen_kiln, h.atTrip]⟩

theorem kiln (h : Sampled but s t) {k : KilnSt} (hc : k.clock = t.kiln.clock := by rfl) (ht : k.trip = t.kiln.trip := by rfl)
    (ha : k.atTrip = t.kiln.atTrip := by rfl) : Sampled but s { t with kiln := k } :=
  ⟨h.kept.congr, h.parts.kiln, h.stays.congr, hc.trans h.clock, ht.trans h.trip, ha.trans h.atTrip⟩

theorem ite {c : Prop} [Decidable c] (ht : Sampled but s t) (hu : Sampled but s u) : Sampled but s (if c then t else u) := by
  split <;> assumption

end Sampled

/-! ### Time counted -/

/-- The registers that count time by level and by power state. -/
def countReg (a : Nat) : Prop := (0x21A0 ≤ a ∧ a < 0x21B0) ∨ (0x1140 ≤ a ∧ a < 0x1150)

theorem sampled_countLevel (us : Nat) (s : State) : Sampled countReg s (countLevel us s) := by
  have hk : levelNow s < 4 := getF_lt s F.KILN_STATUS_LEVEL
  unfold countLevel
  dsimp only
  refine .setF (.kiln (.refl s)) _ _ (.inl ?_) ?_ <;> simp only [Reg.KILN_RES] <;> omega

theorem sampled_countPower (us : Nat) (s : State) : Sampled countReg s (countPower us s) := by
  unfold countPower
  extract_lets k n
  split
  · exact .refl s
  · next h => refine .setF (.kiln (.refl s)) _ _ (.inr ?_) ?_ <;> simp only [Reg.PWR_RES] <;> omega

/-! ### Readings -/

/-- The registers of readings and of faulted sensors. -/
def readReg (a : Nat) : Prop := a = Reg.KILN_STATUS ∨ a = Reg.KILN_SENSOR_FAULT ∨ (0x2140 ≤ a ∧ a < 0x21A0)

theorem sampled_tempSet (hi : i < 24) (v : Nat) (s : State) : Sampled readReg s (setF (F.KILN_TEMP_TEMP i) v s) := by
  refine .setF (.refl s) _ _ (.inr (.inr ?_)) ?_ <;> simp only [Reg.KILN_TEMP] <;> omega

theorem faulted_of_getF (h : getF t (bitF Reg.KILN_SENSOR_FAULT i) = getF s (bitF Reg.KILN_SENSOR_FAULT i)) :
    faulted t i = faulted s i := isSet_of_getF h

theorem faulted_tempSet (hi : i < 24) (v j : Nat) (s : State) : faulted (setF (F.KILN_TEMP_TEMP i) v s) j = faulted s j :=
  faulted_of_getF (getF_setF_ne _ _ _ _ (by simp only [bitF, Reg.KILN_TEMP, Reg.KILN_SENSOR_FAULT]; omega))

/-- A sensor newly faulted, and the others as they were. -/
theorem faultSensor_spec (hi : i < 24) (s : State) :
    Sampled readReg s (faultSensor i s) ∧ faulted (faultSensor i s) i = true ∧
      (∀ j, j ≠ i → faulted (faultSensor i s) j = faulted s j) ∧
      (faulted s i = false → raised baseKiln 4 (faultSensor i s) = true) := by
  unfold faultSensor
  split
  · next h => exact ⟨.refl s, h, fun _ _ => rfl, fun hno => absurd (hno.symm.trans h) (by decide)⟩
  · have hok : (bitF Reg.KILN_SENSOR_FAULT i).ok := by simp only [Fld.ok, bitF]; omega
    dsimp only
    generalize hx : setF (bitF Reg.KILN_SENSOR_FAULT i) 1 s = x
    have xs : Sampled readReg s x := hx ▸ .setF (.refl s) _ _ (.inr (.inl rfl)) (by simp only [bitF]; decide)
    have same : getF x (bitF Reg.KILN_SENSOR_FAULT i) = 1 := by rw [← hx, getF_setF_same _ _ _ hok]; rfl
    have others : ∀ j, j ≠ i → getF x (bitF Reg.KILN_SENSOR_FAULT j) = getF s (bitF Reg.KILN_SENSOR_FAULT j) := fun j hj => by
      rw [← hx, getF_setF_apart _ _ _ _ hok (by simp only [bitF]; omega)]
    clear hx
    generalize hy : setF F.KILN_STATUS_FAULTED (faultCount x) x = y
    have ys : Sampled readReg s y := hy ▸ .setF xs _ _ (.inl rfl) (by decide)
    have field : ∀ j, getF (happen baseKiln 4 y) (bitF Reg.KILN_SENSOR_FAULT j) = getF x (bitF Reg.KILN_SENSOR_FAULT j) := fun j => by
      rw [getF_happen (f := bitF Reg.KILN_SENSOR_FAULT j) (by simp only [bitF]; decide) (by decide) (by decide), ← hy,
        getF_setF_ne _ _ _ _ (by simp only [bitF]; decide)]
    refine ⟨.happen ys 4 (by decide), ?_, fun j hj => faulted_of_getF ((field j).trans (others j hj)), fun _ => ?_⟩
    · rw [faulted, isSet, field, same]
      rfl
    · exact raised_happen _ _ _ (by decide) (by decide) (by decide) (by decide)

theorem readSensor_spec (hi : i < 24) (r : Option Int) (s : State) :
    Sampled readReg s (readSensor i r s) ∧ (∀ j, j ≠ i → faulted (readSensor i r s) j = faulted s j) ∧
      (faulted s i = true → faulted (readSensor i r s) i = true) ∧
      (goodReading r = false → faulted s i = false →
        faulted (readSensor i r s) i = true ∧ raised baseKiln 4 (readSensor i r s) = true) := by
  unfold readSensor
  extract_lets y
  have ys : Sampled readReg s y ∧ ∀ j, faulted y j = faulted s j := by
    cases r with
    | none => exact ⟨.refl s, fun _ => rfl⟩
    | some v => exact ⟨sampled_tempSet hi _ s, fun j => faulted_tempSet hi _ j s⟩
  clear_value y
  obtain ⟨ys, same⟩ := ys
  split
  · next h =>
    exact ⟨ys, fun j _ => same j, fun hf => (same i).trans hf, fun hbad => absurd (hbad.symm.trans h) (by decide)⟩
  · obtain ⟨faultedS, now, others, told⟩ := faultSensor_spec hi y
    exact ⟨ys.trans faultedS, fun j hj => (others j hj).trans (same j), fun _ => now, fun _ hno => ⟨now, told ((same i).trans hno)⟩⟩

theorem sampled_readAll {l : List Nat} (hl : ∀ k ∈ l, k < 24) (s : State) :
    Sampled readReg s (l.foldl (fun t i => readSensor i (temps.getD i none) t) s) :=
  List.foldlRecOn (motive := Sampled readReg s) l _ (.refl s) fun _ ht k hk => ht.trans (readSensor_spec (hl k hk) _ _).1

/-- A sensor whose reading does not count is faulted with its event once its turn has come. -/
theorem faulted_readAll (hbad : goodReading (temps.getD i none) = false) (l : List Nat) (hl : ∀ k ∈ l, k < 24) (s : State)
    (h : i ∈ l ∧ faulted s i = false ∨ faulted s i = true ∧ raised baseKiln 4 s = true) :
    faulted (l.foldl (fun t i => readSensor i (temps.getD i none) t) s) i = true ∧
      raised baseKiln 4 (l.foldl (fun t i => readSensor i (temps.getD i none) t) s) = true := by
  induction l generalizing s with
  | nil => exact h.resolve_left fun h => List.not_mem_nil h.1
  | cons k l ih =>
    refine ih (fun k hk => hl k (List.mem_cons_of_mem _ hk)) _ ?_
    obtain ⟨ks, others, stays, fault⟩ := readSensor_spec (hl k List.mem_cons_self) (temps.getD k none) s
    rcases h with ⟨hmem, hno⟩ | ⟨hyes, told⟩
    · by_cases hk : i = k
      · subst hk
        exact .inr (fault hbad hno)
      · exact .inl ⟨(List.mem_cons.mp hmem).resolve_left hk, (others i hk).trans hno⟩
    · refine .inr ⟨?_, ks.stays _ _ (by decide) (by decide) (by decide) told⟩
      by_cases hk : i = k
      · subst hk
        exact stays hyes
      · exact (others i hk).trans hyes

/-- Readings that count are shown, and fault no sensor. -/
theorem readAll_of_good {val : Nat → Int} (l : List Nat)
    (hl : ∀ k ∈ l, k < 24 ∧ temps.getD k none = some (val k) ∧ goodReading (some (val k)) = true) (s : State) :
    (∀ i, faulted (l.foldl (fun t i => readSensor i (temps.getD i none) t) s) i = faulted s i) ∧
      ∀ i, i ∈ l ∨ getF s (F.KILN_TEMP_TEMP i) = tempCode (val i) →
        getF (l.foldl (fun t i => readSensor i (temps.getD i none) t) s) (F.KILN_TEMP_TEMP i) = tempCode (val i) := by
  induction l generalizing s with
  | nil => exact ⟨fun _ => rfl, fun i h => h.resolve_left List.not_mem_nil⟩
  | cons k l ih =>
    obtain ⟨hk, hread, hgood⟩ := hl k List.mem_cons_self
    have step : readSensor k (temps.getD k none) s = setF (F.KILN_TEMP_TEMP k) (tempCode (val k)) s := by
      rw [hread, readSensor_of_good k s hgood]
    rw [List.foldl_cons, step]
    obtain ⟨faults, shown⟩ := ih (fun k hk => hl k (List.mem_cons_of_mem _ hk)) (setF (F.KILN_TEMP_TEMP k) (tempCode (val k)) s)
    refine ⟨fun i => (faults i).trans (faulted_tempSet hk _ i s), fun i hi => shown i ?_⟩
    by_cases hik : i = k
    · subst hik
      refine .inr ((getF_setF_same _ _ _ (by simp [Fld.ok])).trans (Nat.mod_eq_of_lt ?_))
      simp only [tempCode]
      omega
    · rcases hi with hi | hi
      · exact .inl ((List.mem_cons.mp hi).resolve_left hik)
      · exact .inr ((getF_setF_ne _ _ _ _ (by simp only [Reg.KILN_TEMP]; omega)).trans hi)

/-! ### Tmax -/

/-- The registers that Tmax moves. -/
def tmaxReg (a : Nat) : Prop := levelReg a ∨ a = Reg.KILN_TMAX ∨ a = Reg.KILN_TPEAK

theorem takeLevel_sampled (hk : k < 4) (s : State) :
    Sampled levelReg s (takeLevel k s) ∧ getF (takeLevel k s) F.KILN_STATUS_HOT = getF s F.KILN_STATUS_HOT := by
  by_cases h : k = levelNow s
  · rw [takeLevel_of_eq h]
    exact ⟨.kiln (.refl s), rfl⟩
  · have taken := levelTaken hk h
    generalize takeLevel k s = t at *
    have kiln := taken.kiln
    refine ⟨⟨taken.kept, taken.parts, taken.stays, ?_, ?_, ?_⟩, taken.hot⟩ <;> rw [kiln]

theorem moveLevel_sampled (hk : k < 4) (s : State) :
    Sampled levelReg s (moveLevel k s) ∧ getF (moveLevel k s) F.KILN_STATUS_HOT = getF s F.KILN_STATUS_HOT := by
  unfold moveLevel
  split
  · exact takeLevel_sampled hk s
  · exact ⟨.kiln (.refl s), rfl⟩

theorem levelStep_sampled (v : Int) (rise : Bool) (s : State) :
    Sampled levelReg s (levelStep v rise s) ∧ getF (levelStep v rise s) F.KILN_STATUS_HOT = getF s F.KILN_STATUS_HOT := by
  unfold levelStep
  extract_lets kiln y
  have ys : Sampled levelReg s y := .kiln (.refl s)
  have hot : getF y F.KILN_STATUS_HOT = getF s F.KILN_STATUS_HOT := getF_congr _
  clear_value y
  have moved : ∀ k, k < 4 → Sampled levelReg s (moveLevel k y) ∧ getF (moveLevel k y) F.KILN_STATUS_HOT = getF s F.KILN_STATUS_HOT :=
    fun k hk => ⟨ys.trans (moveLevel_sampled hk y).1, (moveLevel_sampled hk y).2.trans hot⟩
  split
  · exact ⟨ys, hot⟩
  · split
    · exact moved 3 (by decide)
    · split
      · exact moved 1 (by decide)
      · exact ⟨ys, hot⟩

theorem warnStep_sampled (v : Int) (s : State) :
    Sampled levelReg s (warnStep v s) ∧ getF (warnStep v s) F.KILN_STATUS_HOT = getF s F.KILN_STATUS_HOT := by
  have set : ∀ n, Sampled levelReg s (setF F.KILN_STATUS_WARN n s) ∧
      getF (setF F.KILN_STATUS_WARN n s) F.KILN_STATUS_HOT = getF s F.KILN_STATUS_HOT := fun n =>
    ⟨.setF (.refl s) _ _ (.inl rfl) (by decide), getF_setF_apart _ _ _ _ (by unfold Fld.ok; decide) (by decide)⟩
  unfold warnStep
  extract_lets w
  split
  · split
    · exact set 0
    · exact ⟨.refl s, rfl⟩
  · split
    · exact ⟨.happen (set 1).1 0 (by decide), (getF_happen (by decide) (by decide) (by decide)).trans (set 1).2⟩
    · exact ⟨.refl s, rfl⟩

/-- The highest reading is shown, and whether it is hot. -/
theorem tmaxStep_spec {v : Int} (h : hottest live = some (i, v)) (s : State) :
    Sampled tmaxReg s (tmaxStep live s) ∧ getF (tmaxStep live s) F.KILN_TMAX_TEMP = tempCode v ∧
      getF (tmaxStep live s) F.KILN_STATUS_HOT = if throttleAt s ≤ v then 1 else 0 := by
  unfold tmaxStep
  split
  · next hnone => exact absurd (h.symm.trans hnone) (by simp)
  next i' v' hsome =>
  cases h.symm.trans hsome
  extract_lets peak rise x kiln y z
  clear_value peak rise
  have hhot : F.KILN_STATUS_HOT.ok := by unfold Fld.ok; decide
  have xs : Sampled tmaxReg s x :=
    .setF (.setF (.setF (.setF (.refl s) _ _ (.inl (.inl rfl)) (by decide)) _ _ (.inl (.inl rfl)) (by decide)) _ _ (.inr (.inl rfl)) (by decide))
      _ _ (.inr (.inr rfl)) (by decide)
  have max : getF x F.KILN_TMAX_TEMP = tempCode v := by
    rw [getF_setF_ne _ _ _ _ (by decide), getF_setF_same _ _ _ (by unfold Fld.ok; decide)]
    refine Nat.mod_eq_of_lt ?_
    simp only [tempCode]
    omega
  have hot : getF x F.KILN_STATUS_HOT = if throttleAt s ≤ v then 1 else 0 := by
    rw [getF_setF_ne _ _ _ _ (by decide), getF_setF_ne _ _ _ _ (by decide), getF_setF_same _ _ _ hhot]
    split <;> rfl
  clear_value x
  have ys : Sampled tmaxReg s y := .kiln xs
  have yregs : y.regs = x.regs := rfl
  clear_value y
  obtain ⟨zs, zhot⟩ := warnStep_sampled v y
  change Sampled levelReg y z at zs
  change getF z _ = _ at zhot
  clear_value z
  obtain ⟨w, hw, ws, whot⟩ : ∃ w, (if rise = true then happen baseKiln 2 z else z) = w ∧ Sampled levelReg y w ∧
      getF w F.KILN_STATUS_HOT = getF y F.KILN_STATUS_HOT := by
    refine ⟨_, rfl, .ite (zs.happen 2 (by decide)) zs, ?_⟩
    split
    · exact (getF_happen (by decide) (by decide) (by decide)).trans zhot
    · exact zhot
  rw [hw]
  obtain ⟨vs, vhot⟩ := levelStep_sampled v rise w
  generalize levelStep v rise w = r at *
  refine ⟨ys.trans ((ws.trans vs).mono fun a ha => .inl ha), ?_, ?_⟩
  · exact ((ws.trans vs).kept.getF (by unfold levelReg; decide) (by decide)).trans ((getF_congr _ yregs).trans max)
  · exact vhot.trans (whot.trans ((getF_congr _ yregs).trans hot))

theorem tmaxStep_sampled (s : State) : Sampled tmaxReg s (tmaxStep live s) := by
  cases h : hottest live with
  | none =>
    unfold tmaxStep
    rw [h]
    exact .refl s
  | some p => exact (tmaxStep_spec h s).1

end Sys2Proof.Machine
end

/-! ## The Kiln samples, throttles and shuts down (R432 to R436, R439, R442, R443) -/

section

-- One proof after another: elaborated side by side, the proofs of this text take more memory than its check allows.
set_option Elab.async false

namespace Sys2Proof.Machine

variable {s t u x : State} {i j k : Nat} {temps : List (Option Int)} {live : List (Nat × Int)} {v : Int}

/-! ### Shutdown -/

/-- The registers outside the Kiln's page. -/
def besideKiln (a : Nat) : Prop := a < 0x2000 ∨ 0x3000 ≤ a

/-- A start cut short, and the domains powered down: nothing of the Kiln, and the pins, move. -/
structure Stopped (s t : State) : Prop where
  kept : regsKept besideKiln s t
  stays : raisedKept s t
  kiln : t.kiln = s.kiln
  trip : t.top.thermTrip = s.top.thermTrip
  fault : t.top.faultN = s.top.faultN

theorem Stopped.trans (h : Stopped s t) (k : Stopped t u) : Stopped s u :=
  ⟨h.kept.trans k.kept, h.stays.trans k.stays, k.kiln.trans h.kiln, k.trip.trans h.trip, k.fault.trans h.fault⟩

theorem stopped_enterOff (s : State) : Stopped s (enterOff s) where
  kept := (offEntered s).kept.mono fun a ha => by
    rcases ha with rfl | rfl | rfl | rfl <;> unfold besideKiln <;> decide
  stays := .of_regsKept (offEntered s).kept fun a ha => by rcases ha with rfl | rfl | rfl | rfl <;> decide
  kiln := enterOff_kiln s
  trip := (enterOff_pins s).1
  fault := (enterOff_pins s).2

theorem stopped_endStart (ms : Nat) (s : State) : Stopped s (endStart ms s) := by
  unfold endStart
  split
  · exact ⟨.refl s, .refl s, rfl, rfl, rfl⟩
  · exact ⟨.of_regs rfl, .congr (.refl s), rfl, rfl, rfl⟩

theorem outF_page (i : Nat) : (outF i).addr % 0x1000 ≠ 0x10 := by
  unfold outF
  split <;> simp only <;> decide

theorem stopped_cutStart (s : State) : Stopped s (cutStart s) := by
  unfold cutStart
  split
  · exact ⟨.refl s, .refl s, rfl, rfl, rfl⟩
  · next r _ =>
    have noted : Stopped s (setF (outF r.step) 5 s) :=
      ⟨.setF (.refl s) _ _ (.inl ((outF_addr_lt _).trans (by decide))), .setF (.refl s) _ _ (outF_page _), setF_kiln .., by rw [setF_top],
        by rw [setF_top]⟩
    exact (noted.trans (stopped_endStart ..)).trans (stopped_enterOff _)

/-- What a thermal trip leaves. -/
structure Tripped (i : Nat) (v : Int) (s t : State) : Prop where
  trip : t.top.thermTrip = true
  fault : t.top.faultN = true
  told : raised baseKiln 3 t = true
  sensor : getF t F.KILN_LAST_TRIP_SENSOR = i
  temp : getF t F.KILN_LAST_TRIP_TEMP = tempCode v
  count : getF t F.KILN_TRIPS_COUNT = min (2 ^ 32 - 1) (getF s F.KILN_TRIPS_COUNT + 1)
  clock : t.kiln.clock = s.kiln.clock
  kept : regsKeptE (fun a => besideKiln a ∨ a = Reg.KILN_TRIPS ∨ a = Reg.KILN_LAST_TRIP) s t
  stays : raisedKept s t

/-- The pins and the record of a trip. -/
def tripNoted (i : Nat) (v : Int) (s : State) : State :=
  happen baseKiln 3 (setF F.KILN_LAST_TRIP_SENSOR i (setF F.KILN_LAST_TRIP_TEMP (tempCode v) (addF F.KILN_TRIPS_COUNT 1
    { s with top := { s.top with thermTrip := true, faultN := true }, kiln := { s.kiln with trip := some s.kiln.clock } })))

theorem tripped_noted (hi : i < 32) (v : Int) (s : State) :
    Tripped i v s (tripNoted i v s) ∧ running (tripNoted i v s) = running s := by
  unfold tripNoted
  generalize hx : ({ s with top := { s.top with thermTrip := true, faultN := true }, kiln := { s.kiln with trip := some s.kiln.clock } } :
    State) = x
  have regs : x.regs = s.regs := hx ▸ rfl
  have top : x.top = { s.top with thermTrip := true, faultN := true } := hx ▸ rfl
  have clock : x.kiln.clock = s.kiln.clock := hx ▸ rfl
  clear hx
  generalize hy : setF F.KILN_LAST_TRIP_SENSOR i (setF F.KILN_LAST_TRIP_TEMP (tempCode v) (addF F.KILN_TRIPS_COUNT 1 x)) = y
  have hsen : F.KILN_LAST_TRIP_SENSOR.ok := by unfold Fld.ok; decide
  have sensor : getF y F.KILN_LAST_TRIP_SENSOR = i := by
    rw [← hy, getF_setF_same _ _ _ hsen]
    exact Nat.mod_eq_of_lt hi
  have temp : getF y F.KILN_LAST_TRIP_TEMP = tempCode v := by
    rw [← hy, getF_setF_apart _ _ _ _ hsen (by decide), getF_setF_same _ _ _ (by unfold Fld.ok; decide)]
    refine Nat.mod_eq_of_lt ?_
    simp only [tempCode]
    omega
  have count : getF y F.KILN_TRIPS_COUNT = min (2 ^ 32 - 1) (getF s F.KILN_TRIPS_COUNT + 1) := by
    rw [← hy, getF_setF_ne _ _ _ _ (by decide), getF_setF_ne _ _ _ _ (by decide), getF_addF_word, getF_congr _ regs]
  have kept : regsKeptE (fun a => besideKiln a ∨ a = Reg.KILN_TRIPS ∨ a = Reg.KILN_LAST_TRIP) s y :=
    hy ▸ .setF (.setF (.addF (.of_regs regs) F.KILN_TRIPS_COUNT 1 (.inr (.inl rfl))) F.KILN_LAST_TRIP_TEMP _ (.inr (.inr rfl)))
      F.KILN_LAST_TRIP_SENSOR _ (.inr (.inr rfl))
  have modes : getF y F.TOP_MODE_MODE = getF s F.TOP_MODE_MODE := by
    rw [← hy, getF_setF_ne _ _ _ _ (by decide), getF_setF_ne _ _ _ _ (by decide), addF, getF_setF_ne _ _ _ _ (by decide),
      getF_congr _ regs]
  have stays : raisedKept s y := hy ▸ .setF (.setF (.setF (.congr (.refl s) regs) _ _) _ _) _ _
  have ytop : y.top = x.top := by rw [← hy, setF_top, setF_top, addF_top]
  have ykiln : y.kiln = x.kiln := by rw [← hy, setF_kiln, setF_kiln, addF_kiln]
  clear hy
  have evt := evtOnly_happen baseKiln 3 y (by decide) (by decide)
  have told : raised baseKiln 3 (happen baseKiln 3 y) = true := raised_happen _ _ _ (by decide) (by decide) (by decide) (by decide)
  have ends : raisedKept y (happen baseKiln 3 y) := .happen (.refl y) baseKiln 3
  generalize happen baseKiln 3 y = z at *
  have ztop : z.top = { s.top with thermTrip := true, faultN := true } := evt.1.top_eq.trans (ytop.trans top)
  have field : ∀ f : Fld, quietReg f.addr = true → getF z f = getF y f := fun f hf => evt.getF (not_eventReg_of_quiet hf)
  refine ⟨?_, ?_⟩
  · exact
      { trip := congrArg TopSt.thermTrip ztop
        fault := congrArg TopSt.faultN ztop
        told := told
        sensor := (field _ (by decide)).trans sensor
        temp := (field _ (by decide)).trans temp
        count := (field _ (by decide)).trans count
        clock := (congrArg KilnSt.clock (evt.1.kiln_eq.trans ykiln)).trans clock
        kept := kept.of_evtOnly evt
        stays := stays.trans ends }
  · have mode : modeNow z = modeNow s := (field _ (by decide)).trans modes
    unfold running
    rw [mode, ztop]

/-- A part not yet running powers down at a trip. -/
def tripOff (x : State) : State := { enterOff (cutStart x) with kiln := { (enterOff (cutStart x)).kiln with trip := none } }

theorem tripOff_spec (x : State) :
    (tripOff x).regs = (enterOff (cutStart x)).regs ∧ (tripOff x).top = (enterOff (cutStart x)).top ∧
      (tripOff x).kiln.clock = (enterOff (cutStart x)).kiln.clock := by
  unfold tripOff
  generalize enterOff (cutStart x) = z
  exact ⟨rfl, rfl, rfl⟩

theorem thermalTrip_of_running (h : running s = true) : thermalTrip i v s = groutCause 3 (tripNoted i v s) := by
  unfold tripNoted
  exact if_pos h

theorem thermalTrip_of_not (h : running s ≠ true) : thermalTrip i v s = tripOff (tripNoted i v s) := by
  unfold tripNoted
  exact if_neg h

/-- A trip is noted, then the running part begins its grout, and one that is not yet running powers down. -/
theorem tripped_thermalTrip (hi : i < 32) (v : Int) (s : State) :
    Tripped i v s (thermalTrip i v s) ∧ (running s = true → grouting (thermalTrip i v s) = true) := by
  obtain ⟨noted, hrun⟩ := tripped_noted hi v s
  by_cases hx : running s = true
  · rw [thermalTrip_of_running hx]
    generalize tripNoted i v s = x at *
    obtain ⟨parts, kept, stays⟩ := groutCause_spec 3 x
    have begun := grouting_groutCause (hrun.trans hx) 3
    generalize groutCause 3 x = t at *
    have all : ∀ f : Fld, quietReg f.addr = true → getF t f = getF x f := fun f hq => kept.getF id hq
    refine ⟨?_, fun _ => begun⟩
    exact
      { trip := (congrArg TopSt.thermTrip parts.top_eq).trans noted.trip
        fault := (congrArg TopSt.faultN parts.top_eq).trans noted.fault
        told := stays _ _ (by decide) (by decide) (by decide) noted.told
        sensor := (all _ (by decide)).trans noted.sensor
        temp := (all _ (by decide)).trans noted.temp
        count := (all _ (by decide)).trans noted.count
        clock := (congrArg KilnSt.clock parts.kiln_eq).trans noted.clock
        kept := fun a ha he => (kept a id he).trans (noted.kept a ha he)
        stays := noted.stays.trans stays }
  · rw [thermalTrip_of_not hx]
    generalize tripNoted i v s = x at *
    have stopped : Stopped x (enterOff (cutStart x)) := (stopped_cutStart x).trans (stopped_enterOff _)
    obtain ⟨regs, top, clock⟩ := tripOff_spec x
    generalize enterOff (cutStart x) = z at *
    generalize tripOff x = t at *
    have all : ∀ f : Fld, ¬ besideKiln f.addr → getF t f = getF x f := fun f hf => (getF_congr f regs).trans (stopped.kept.getF hf)
    have stays : raisedKept x t := stopped.stays.congr regs
    refine ⟨?_, fun h => absurd h hx⟩
    exact
      { trip := (congrArg TopSt.thermTrip top).trans (stopped.trip.trans noted.trip)
        fault := (congrArg TopSt.faultN top).trans (stopped.fault.trans noted.fault)
        told := stays _ _ (by decide) (by decide) (by decide) noted.told
        sensor := (all _ (by unfold besideKiln; decide)).trans noted.sensor
        temp := (all _ (by unfold besideKiln; decide)).trans noted.temp
        count := (all _ (by unfold besideKiln; decide)).trans noted.count
        clock := clock.trans ((congrArg KilnSt.clock stopped.kiln).trans noted.clock)
        kept := fun a ha he => (rd_congr regs a).trans ((stopped.kept a fun hb => ha (.inl hb)).trans (noted.kept a ha he))
        stays := noted.stays.trans stays }

/-- Where no reading reaches SHUTDOWN, nothing trips. -/
theorem tripStep_of_cold (h : ∀ p ∈ live, p.2 < shutdownAt s) : ∃ l, tripStep live s = { s with kiln := { s.kiln with atTrip := l } } := by
  unfold tripStep
  extract_lets hot kiln x
  refine ⟨hot, ?_⟩
  split
  · rfl
  · have none : live.find? (fun p => decide (shutdownAt s ≤ p.2) && s.kiln.atTrip.contains p.1) = none := by
      refine List.find?_eq_none.mpr fun p hp => ?_
      simp [h p hp]
    rw [none]

/-- A sensor at SHUTDOWN twice, and no other at it, trips. -/
theorem tripStep_of_hot (hmem : (j, v) ∈ live) (hhot : shutdownAt s ≤ v) (honly : ∀ p ∈ live, shutdownAt s ≤ p.2 → p = (j, v))
    (hagain : j ∈ s.kiln.atTrip) (htrip : s.kiln.trip = none) (hoff : s.top.off = false) :
    ∃ l, tripStep live s = thermalTrip j v { s with kiln := { s.kiln with atTrip := l } } := by
  unfold tripStep
  extract_lets hot kiln x
  refine ⟨hot, ?_⟩
  rw [if_neg (by simp [hoff, htrip])]
  have found : live.find? (fun p => decide (shutdownAt s ≤ p.2) && s.kiln.atTrip.contains p.1) = some (j, v) := by
    cases h : live.find? (fun p => decide (shutdownAt s ≤ p.2) && s.kiln.atTrip.contains p.1) with
    | none => exact absurd (List.find?_eq_none.mp h _ hmem) (by simp [hhot, hagain])
    | some p =>
      have hp := List.find?_some h
      simp only [Bool.and_eq_true, decide_eq_true_eq] at hp
      rw [honly p (List.mem_of_find?_eq_some h) hp.1]
  rw [found]

/-- Whatever trips, the Kiln's own registers but the record of the trip stay, and events stay raised. -/
theorem tripStep_kept (hl : ∀ p ∈ live, p.1 < 32) (s : State) :
    regsKeptE (fun a => besideKiln a ∨ a = Reg.KILN_TRIPS ∨ a = Reg.KILN_LAST_TRIP) s (tripStep live s) ∧ raisedKept s (tripStep live s) ∧
      (tripStep live s).kiln.clock = s.kiln.clock := by
  unfold tripStep
  extract_lets hot kiln x
  have xregs : x.regs = s.regs := rfl
  have xclock : x.kiln.clock = s.kiln.clock := rfl
  clear_value x
  split
  · exact ⟨.of_regs xregs, .congr (.refl s) xregs, xclock⟩
  · split
    · next p hp =>
      have tripped := (tripped_thermalTrip (hl p (List.mem_of_find?_eq_some hp)) p.2 x).1
      exact ⟨(regsKeptE.of_regs xregs).trans tripped.kept, (raisedKept.congr (.refl s) xregs).trans tripped.stays, tripped.clock.trans xclock⟩
    · exact ⟨.of_regs xregs, .congr (.refl s) xregs, xclock⟩

/-! ### A whole sample -/

/-- The clock of the samples moves by the period. -/
def clocked (s : State) : State := { s with kiln := { s.kiln with clock := s.kiln.clock + samplePeriod s } }

/-- The time counted and the sensors read. -/
def sensed (temps : List (Option Int)) (s : State) : State :=
  (List.range 24).foldl (fun t i => readSensor i (temps.getD i none) t) (countPower (samplePeriod s) (countLevel (samplePeriod s) (clocked s)))

theorem kilnSampleDo_eq (h : samples s = true) (temps : List (Option Int)) :
    kilnSampleDo temps s = tripStep (liveReadings (sensed temps s) temps) (tmaxStep (liveReadings (sensed temps s) temps) (sensed temps s)) :=
  if_pos h

theorem sampled_counted (s : State) : Sampled countReg (clocked s) (countPower (samplePeriod s) (countLevel (samplePeriod s) (clocked s))) :=
  (sampled_countLevel ..).trans (sampled_countPower ..)

/-- The registers of a sample before any trip. -/
def sampleReg (a : Nat) : Prop := countReg a ∨ readReg a ∨ tmaxReg a

theorem sampled_sensed (temps : List (Option Int)) (s : State) : Sampled sampleReg (clocked s) (sensed temps s) :=
  ((sampled_counted s).mono fun _ h => .inl h).trans
    ((sampled_readAll (fun _ hk => List.mem_range.mp hk) _).mono fun _ h => .inr (.inl h))

theorem not_sampleReg_of (h : a < 0x1140 ∨ 0x1150 ≤ a ∧ a < 0x2120 ∨ 0x2130 ≤ a ∧ a < 0x2140) : ¬ sampleReg a := by
  unfold sampleReg countReg readReg tmaxReg levelReg
  simp only [Reg.KILN_STATUS, Reg.KILN_SENSOR_FAULT, Reg.SORT_STATUS, Reg.MAC_STATUS, Reg.KILN_TMAX, Reg.KILN_TPEAK]
  omega

theorem live_lt {p : Nat × Int} (hp : p ∈ liveReadings s temps) : p.1 < 32 := by
  obtain ⟨i, v⟩ := p
  obtain ⟨hi, -, -⟩ := mem_liveReadings_iff.mp hp
  exact hi.trans (by decide)

/-- A sensor that does not count is faulted, with its event. -/
theorem faulted_kilnSampleDo (hs : samples s = true) (hi : i < 24) (hno : faulted s i = false) (hbad : goodReading (temps.getD i none) = false) :
    faulted (kilnSampleDo temps s) i = true ∧ raised baseKiln 4 (kilnSampleDo temps s) = true := by
  rw [kilnSampleDo_eq hs]
  have counted := sampled_counted s
  have hno' : faulted (countPower (samplePeriod s) (countLevel (samplePeriod s) (clocked s))) i = false := by
    rw [faulted_of_getF (counted.kept.getF (by simp only [bitF]; unfold countReg; decide) (by simp only [bitF]; decide)),
      faulted_of_getF (getF_congr _ (show (clocked s).regs = s.regs from rfl)), hno]
  obtain ⟨fault, told⟩ := faulted_readAll hbad (List.range 24) (fun _ hk => List.mem_range.mp hk) _ (.inl ⟨List.mem_range.mpr hi, hno'⟩)
  change faulted (sensed temps s) i = true at fault
  change raised baseKiln 4 (sensed temps s) = true at told
  generalize hlive : liveReadings (sensed temps s) temps = live
  have hl : ∀ p ∈ live, p.1 < 32 := fun p hp => live_lt (hlive ▸ hp)
  have maxed := tmaxStep_sampled (live := live) (sensed temps s)
  obtain ⟨kept, stays, -⟩ := tripStep_kept hl (tmaxStep live (sensed temps s))
  refine ⟨?_, stays _ _ (by decide) (by decide) (by decide) (maxed.stays _ _ (by decide) (by decide) (by decide) told)⟩
  rw [faulted_of_getF (kept.getF (by simp only [bitF]; unfold besideKiln; decide) (by simp only [bitF]; decide)),
    faulted_of_getF (maxed.kept.getF (by simp only [bitF]; unfold tmaxReg levelReg; decide) (by simp only [bitF]; decide)), fault]

/-- Every sensor counts, and no reading is above that of `j`. -/
def AllGood (s : State) (temps : List (Option Int)) (val : Nat → Int) (j : Nat) : Prop :=
  ∀ i, i < 24 → faulted s i = false ∧ temps.getD i none = some (val i) ∧ -200 ≤ val i ∧ val i ≤ 600 ∧ val i ≤ val j

/-- What a sample of sensors that all count leaves before any trip. -/
structure Shown (val : Nat → Int) (j : Nat) (s t : State) : Prop where
  sampled : Sampled sampleReg (clocked s) t
  max : getF t F.KILN_TMAX_TEMP = tempCode (val j)
  temp : ∀ i, i < 24 → getF t (F.KILN_TEMP_TEMP i) = tempCode (val i)
  fault : ∀ i, i < 24 → faulted t i = false
  hot : isSet t F.KILN_STATUS_HOT = decide (throttleAt s ≤ val j)

section

variable {val : Nat → Int} (hgood : AllGood s temps val j)
include hgood

theorem sensed_spec :
    (∀ i, faulted (sensed temps s) i = faulted s i) ∧ ∀ i, i < 24 → getF (sensed temps s) (F.KILN_TEMP_TEMP i) = tempCode (val i) := by
  have counted := sampled_counted s
  obtain ⟨faults, shown⟩ := readAll_of_good (temps := temps) (val := val) (List.range 24) (fun k hk => by
    obtain ⟨-, hread, hlow, hhigh, -⟩ := hgood k (List.mem_range.mp hk)
    exact ⟨List.mem_range.mp hk, hread, by simp [goodReading, hlow, hhigh]⟩)
    (countPower (samplePeriod s) (countLevel (samplePeriod s) (clocked s)))
  refine ⟨fun i => (faults i).trans ?_, fun i hi => shown i (.inl (List.mem_range.mpr hi))⟩
  rw [faulted_of_getF (counted.kept.getF (by simp only [bitF]; unfold countReg; decide) (by simp only [bitF]; decide)),
    faulted_of_getF (getF_congr _ (show (clocked s).regs = s.regs from rfl))]

theorem mem_live_iff (p : Nat × Int) : p ∈ liveReadings (sensed temps s) temps ↔ p.1 < 24 ∧ p.2 = val p.1 := by
  obtain ⟨i, v⟩ := p
  obtain ⟨faults, -⟩ := sensed_spec hgood
  rw [mem_liveReadings_iff]
  constructor
  · rintro ⟨hi, -, hread⟩
    obtain ⟨-, hval, -⟩ := hgood i hi
    exact ⟨hi, Option.some.inj (hread.symm.trans hval)⟩
  · rintro ⟨hi, hv⟩
    obtain ⟨hno, hval, -⟩ := hgood i hi
    exact ⟨hi, (faults i).trans hno, hval.trans (congrArg some hv.symm)⟩

theorem shown_tmaxStep (hj : j < 24) : Shown val j s (tmaxStep (liveReadings (sensed temps s) temps) (sensed temps s)) := by
  obtain ⟨faults, temp⟩ := sensed_spec hgood
  obtain ⟨i, hmax⟩ := hottest_eq_of_max ((mem_live_iff hgood (j, val j)).mpr ⟨hj, rfl⟩) fun q hq => by
    obtain ⟨hq1, hq2⟩ := (mem_live_iff hgood q).mp hq
    exact hq2 ▸ (hgood q.1 hq1).2.2.2.2
  obtain ⟨maxed, max, hot⟩ := tmaxStep_spec hmax (sensed temps s)
  have read := sampled_sensed temps s
  have throttle : throttleAt (sensed temps s) = throttleAt s := by
    rw [throttleAt, throttleAt, read.kept.getF (not_sampleReg_of (by decide)) (by decide), getF_congr _ (show (clocked s).regs = s.regs from rfl)]
  generalize tmaxStep (liveReadings (sensed temps s) temps) (sensed temps s) = t at *
  refine ⟨read.trans (maxed.mono fun _ h => .inr (.inr h)), max, fun i hi => ?_, fun i hi => ?_, ?_⟩
  · refine (maxed.kept.getF ?_ ?_).trans (temp i hi)
    · unfold tmaxReg levelReg
      simp only [Reg.KILN_TEMP, Reg.KILN_STATUS, Reg.SORT_STATUS, Reg.MAC_STATUS, Reg.KILN_TMAX, Reg.KILN_TPEAK]
      omega
    · simp only [quietReg, Reg.KILN_TEMP, decide_eq_true_eq]
      omega
  · rw [faulted_of_getF (maxed.kept.getF (by simp only [bitF]; unfold tmaxReg levelReg; decide) (by simp only [bitF]; decide)), faults,
      (hgood i hi).1]
  · rw [isSet, hot, throttle]
    split <;> simp [*]

end

end Sys2Proof.Machine
end

/-! ## The Kiln samples, throttles and shuts down: the statement (R432 to R436, R439, R442, R443) -/

section

-- One proof after another: elaborated side by side, the proofs of this text take more memory than its check allows.
set_option Elab.async false

namespace Sys2Proof.Machine

variable {s t : State} {j : Nat} {temps : List (Option Int)} {val : Nat → Int}

theorem shutdownAt_of_getF (h : getF t F.KILN_THRESH_SHUTDOWN = getF s F.KILN_THRESH_SHUTDOWN) : shutdownAt t = shutdownAt s := by
  rw [shutdownAt, shutdownAt, h]

namespace Shown

variable (h : Shown val j s t)
include h

theorem top : t.top = s.top := h.sampled.parts.top_eq.trans rfl

theorem grout : t.grout = s.grout := h.sampled.parts.grout_eq.trans rfl

theorem trip : t.kiln.trip = s.kiln.trip := h.sampled.trip.trans rfl

theorem atTrip : t.kiln.atTrip = s.kiln.atTrip := h.sampled.atTrip.trans rfl

theorem field {f : Fld} (hf : f.addr < 0x1140 ∨ 0x1150 ≤ f.addr ∧ f.addr < 0x2120 ∨ 0x2130 ≤ f.addr ∧ f.addr < 0x2140)
    (hq : quietReg f.addr = true) : getF t f = getF s f :=
  (h.sampled.kept.getF (not_sampleReg_of hf) hq).trans (getF_congr f (show (clocked s).regs = s.regs from rfl))

theorem shutdown : shutdownAt t = shutdownAt s := shutdownAt_of_getF (h.field (by decide) (by decide))

theorem running : Machine.running t = Machine.running s := by
  have mode : modeNow t = modeNow s := h.field (by decide) (by decide)
  rw [Machine.running, Machine.running, mode, h.top]

end Shown

section

variable (hs : samples s = true) (hj : j < 24) (hgood : AllGood s temps val j)
include hs hj hgood

/-- What every sample of sensors that all count shows, a trip or none. -/
theorem kilnSampleDo_shown :
    getF (kilnSampleDo temps s) F.KILN_TMAX_TEMP = tempCode (val j) ∧
      (∀ i, i < 24 → getF (kilnSampleDo temps s) (F.KILN_TEMP_TEMP i) = tempCode (val i) ∧ faulted (kilnSampleDo temps s) i = false) ∧
      isSet (kilnSampleDo temps s) F.KILN_STATUS_HOT = decide (throttleAt s ≤ val j) ∧
      (kilnSampleDo temps s).kiln.clock = s.kiln.clock + samplePeriod s := by
  have shown := shown_tmaxStep hgood hj
  rw [kilnSampleDo_eq hs]
  obtain ⟨kept, -, clock⟩ := tripStep_kept (fun _ => live_lt (temps := temps) (s := sensed temps s))
    (tmaxStep (liveReadings (sensed temps s) temps) (sensed temps s))
  generalize tmaxStep (liveReadings (sensed temps s) temps) (sensed temps s) = u at *
  generalize tripStep (liveReadings (sensed temps s) temps) u = t at *
  refine ⟨(kept.getF (by unfold besideKiln; decide) (by decide)).trans shown.max, fun i hi => ⟨?_, ?_⟩, ?_,
    clock.trans (shown.sampled.clock.trans rfl)⟩
  · refine (kept.getF ?_ ?_).trans (shown.temp i hi)
    · unfold besideKiln
      simp only [Reg.KILN_TEMP, Reg.KILN_TRIPS, Reg.KILN_LAST_TRIP]
      omega
    · simp only [quietReg, Reg.KILN_TEMP, decide_eq_true_eq]
      omega
  · rw [faulted_of_getF (kept.getF (by simp only [bitF]; unfold besideKiln; decide) (by simp only [bitF]; decide)), shown.fault i hi]
  · rw [isSet_of_getF (kept.getF (by unfold besideKiln; decide) (by decide)), shown.hot]

theorem kilnSampleDo_cold (hcold : val j < shutdownAt s) :
    (kilnSampleDo temps s).top.thermTrip = s.top.thermTrip ∧ (kilnSampleDo temps s).kiln.trip = s.kiln.trip ∧
      (kilnSampleDo temps s).grout = s.grout := by
  have shown := shown_tmaxStep hgood hj
  have mem := mem_live_iff hgood
  rw [kilnSampleDo_eq hs]
  generalize liveReadings (sensed temps s) temps = live at *
  generalize tmaxStep live (sensed temps s) = u at *
  obtain ⟨l, hl⟩ := tripStep_of_cold (s := u) (live := live) fun p hp => by
    obtain ⟨hp1, hp2⟩ := (mem p).mp hp
    rw [shown.shutdown, hp2]
    exact lt_of_le_of_lt (hgood p.1 hp1).2.2.2.2 hcold
  rw [hl]
  exact ⟨congrArg TopSt.thermTrip shown.top, shown.trip, shown.grout⟩

theorem kilnSampleDo_trips (hhot : shutdownAt s ≤ val j) (honly : ∀ i, i < 24 → i ≠ j → val i < shutdownAt s) (hagain : j ∈ s.kiln.atTrip)
    (htrip : s.kiln.trip = none) (hoff : s.top.off = false) :
    ∃ u l, Shown val j s u ∧ kilnSampleDo temps s = thermalTrip j (val j) { u with kiln := { u.kiln with atTrip := l } } := by
  have shown := shown_tmaxStep hgood hj
  have mem := mem_live_iff hgood
  rw [kilnSampleDo_eq hs]
  generalize liveReadings (sensed temps s) temps = live at *
  generalize tmaxStep live (sensed temps s) = u at *
  obtain ⟨l, hl⟩ := tripStep_of_hot (s := u) (j := j) ((mem (j, val j)).mpr ⟨hj, rfl⟩) (shown.shutdown ▸ hhot) (fun p hp hle => by
    obtain ⟨hp1, hp2⟩ := (mem p).mp hp
    by_cases hpj : p.1 = j
    · exact Prod.ext hpj (by rw [hp2, hpj])
    · have := honly p.1 hp1 hpj
      rw [shown.shutdown, hp2] at hle
      omega) (shown.atTrip ▸ hagain) (shown.trip.trans htrip) ((congrArg TopSt.off shown.top).trans hoff)
  exact ⟨u, l, shown, hl⟩

end

/-- A sensor at SHUTDOWN twice: the pins, the record and the grout of the running part. -/
theorem kilnSampleDo_tripped (hs : samples s = true) (hj : j < 24) (hgood : AllGood s temps val j) (hhot : shutdownAt s ≤ val j)
    (honly : ∀ i, i < 24 → i ≠ j → val i < shutdownAt s) (hagain : j ∈ s.kiln.atTrip) (htrip : s.kiln.trip = none)
    (hoff : s.top.off = false) :
    (kilnSampleDo temps s).top.thermTrip = true ∧ (kilnSampleDo temps s).top.faultN = true ∧
      raised baseKiln 3 (kilnSampleDo temps s) = true ∧ getF (kilnSampleDo temps s) F.KILN_LAST_TRIP_SENSOR = j ∧
      getF (kilnSampleDo temps s) F.KILN_LAST_TRIP_TEMP = tempCode (val j) ∧
      getF (kilnSampleDo temps s) F.KILN_TRIPS_COUNT = min (2 ^ 32 - 1) (getF s F.KILN_TRIPS_COUNT + 1) ∧
      (running s = true → grouting (kilnSampleDo temps s) = true) := by
  obtain ⟨u, l, shown, heq⟩ := kilnSampleDo_trips hs hj hgood hhot honly hagain htrip hoff
  generalize hx : ({ u with kiln := { u.kiln with atTrip := l } } : State) = x at heq
  have regs : x.regs = u.regs := hx ▸ rfl
  have top : x.top = u.top := hx ▸ rfl
  have run : running x = running s := by
    rw [running, modeNow, getF_congr _ regs, top]
    exact shown.running
  have count : getF x F.KILN_TRIPS_COUNT = getF s F.KILN_TRIPS_COUNT := (getF_congr _ regs).trans (shown.field (by decide) (by decide))
  obtain ⟨tripped, grout⟩ := tripped_thermalTrip (i := j) (by omega) (val j) x
  rw [heq]
  exact ⟨tripped.trip, tripped.fault, tripped.told, tripped.sensor, tripped.temp, count ▸ tripped.count, fun h => grout (run.trans h)⟩

/-- Settles O43: a sample by what it shows and what trips (with WARN as O44 states it), the level by its evaluation, the minimum
level, the shutdown and the restart by the lemmas of their operations. -/
theorem theKilnSamplesAndThrottles : Obligations.TheKilnSamplesAndThrottles := by
  unfold Obligations.TheKilnSamplesAndThrottles
  intro s
  refine ⟨?sample, ?fault, ?noSample, ?noEval, fun hdue => ⟨?level, ?same⟩, ?minimum, ?down, ?noDown, ?release, ?noRelease⟩
  case sample =>
    intro temps val j hs hj hgood
    obtain ⟨max, temp, hot, clock⟩ := kilnSampleDo_shown hs hj hgood
    obtain ⟨-, -, warns⟩ := warnSetsAndClearsOnce
    obtain ⟨t, ht, rises, -, -, falls⟩ := warns s temps val j hs hj hgood
    cases (exec_kilnSample temps s).symm.trans ht
    exact ⟨_, rfl, max, temp, hot, clock, fun hclear hwarm => ⟨(rises hclear hwarm).1, (rises hclear hwarm).2.1⟩,
      fun hset hcool => (falls hset hcool).1, fun hcold => kilnSampleDo_cold hs hj hgood hcold,
      fun hhot honly hagain htrip hoff => kilnSampleDo_tripped hs hj hgood hhot honly hagain htrip hoff⟩
  case fault => exact fun temps i hs hi hno hbad => ⟨_, rfl, faulted_kilnSampleDo hs hi hno hbad⟩
  case noSample => exact fun temps h => congrArg Host.Outcome.next (if_neg (by simp [h]))
  case noEval => exact fun h => congrArg Host.Outcome.next (kilnEval_of_not h)
  case level =>
    intro k hk
    have heq : kilnEval s = takeLevel k { s with kiln := { s.kiln with evalAt := s.kiln.clock } } := by
      rcases hk with ⟨hd, -, -⟩ | ⟨hd, hl, hhot, rfl⟩ | ⟨hd, hhot, hmin, hcool, hhold, rfl⟩
      · exact kilnEval_of_due hdue hd
      · exact kilnEval_of_up hdue hd hl hhot
      · exact kilnEval_of_down hdue hd hhot hmin hcool hhold
    have hlt : levelNow s < 4 := getF_lt s F.KILN_STATUS_LEVEL
    have hk4 : k < 4 ∧ k ≠ levelNow s := by omega
    generalize hx : ({ s with kiln := { s.kiln with evalAt := s.kiln.clock } } : State) = x at heq
    have regs : x.regs = s.regs := hx ▸ rfl
    have xclock : x.kiln.clock = s.kiln.clock := hx ▸ rfl
    have parts : changesOnly [.kiln] s x := hx ▸ .kiln (.refl _ s)
    have taken := levelTaken (s := x) hk4.1 (fun e => hk4.2 (e.trans (getF_congr _ regs)))
    have run : completes .kilnLevelEval s (takeLevel k x) := congrArg Host.Outcome.next heq
    generalize takeLevel k x = t at *
    have kiln := taken.kiln
    exact ⟨t, run, taken.now, taken.sort, by rw [kiln], by rw [kiln]; exact xclock, by rw [kiln]; exact xclock, taken.told,
      (regsKeptE.of_regs regs).trans taken.kept, (parts.mono (by decide)).trans taken.parts⟩
  case same => exact fun hd hhot hcool => congrArg Host.Outcome.next (kilnEval_of_none hdue hd hhot hcool)
  case minimum =>
    intro v hreach
    have run : completes (.kilnMinLevelWrite v) s (minLevelWrite v s) := congrArg Host.Outcome.next (guarded_ok _ hreach)
    obtain ⟨word, -, ahead, now, sleep⟩ := minLevel_spec v s
    have kept : regsKept (· = Reg.KILN_CFG) s (setR Reg.KILN_CFG (Nat.land v.toNat 0x3F7) s) := .setR (.refl s) _ _ rfl
    have parts : changesOnly [.regs] s (setR Reg.KILN_CFG (Nat.land v.toNat 0x3F7) s) := .setR (.refl _ s) _ _
    have le := minLevelWrite_of_le (s := s) (v := v)
    have lt := minLevelWrite_of_lt (s := s) (v := v)
    have hlt : bitsOf v.toNat 8 2 < 4 := Nat.mod_lt _ (by decide)
    generalize setR Reg.KILN_CFG (Nat.land v.toNat 0x3F7) s = x at *
    refine ⟨_, run, ?_, fun h => ?_, fun h ha => ?_, fun h hd ha => ?_⟩
    · by_cases h : bitsOf v.toNat 8 2 ≤ levelAhead s
      · rw [le h, word]
      · rw [lt (by omega)]
        exact ((moveLevel_sampled hlt x).1.kept.getR (by unfold levelReg; decide) (by decide)).trans word
    · rw [le h]
      exact ⟨kept, parts⟩
    · rw [lt h, moveLevel_of_awake (sleep.trans ha)]
      exact ⟨rfl, kept.congr, .kiln (parts.mono (by decide))⟩
    · have hle : levelAhead s < bitsOf v.toNat 8 2 := by rw [levelAhead, hd]; exact h
      rw [lt hle, moveLevel_of_asleep (sleep.trans ha)]
      have taken := levelTaken (s := x) hlt (by rw [now]; omega)
      exact ⟨taken.now, taken.told⟩
  case down => exact fun htrip hoff => ⟨_, rfl, thermalOff_spec htrip hoff⟩
  case noDown => exact fun h => congrArg Host.Outcome.next (thermalOff_of_not h)
  case release =>
    intro b ht ho hb hc
    refine ⟨_, congrArg Host.Outcome.next (tripRelease_of_cool ht ho hb hc), rfl, rfl, fun h => ?_, fun h => ?_,
      (changesOnly.kiln (x := { s.kiln with restart := true }) (.refl [.top, .kiln] s)).top⟩
    · exact if_pos h
    · exact if_neg (by simp [h])
  case noRelease => exact fun h => congrArg Host.Outcome.next (tripRelease_of_not h)

end Sys2Proof.Machine
end

/-! ## Starts begin and end (R289, R419, R443, R471, R472, R475, R478, R481, R488) -/

section

-- One proof after another: elaborated side by side, the proofs of this text take more memory than its check allows.
set_option Elab.async false

namespace Sys2Proof.Machine

variable {s t u x : State} {r : StartRun} {i k n : Nat} {cold : Bool} {trig : Nat} {inp : StartInput}

/-! ### What a start keeps -/

theorem changesOnly_loadTiles (s : State) : changesOnly [.regs, .tiles] s (loadTiles s) := by
  unfold loadTiles
  refine .tiles (.foldl (.foldl (.refl _ s) fun u p _ => .setR (.refl _ u) _ _) fun u k _ => .ite ?_ (.refl _ u))
  exact .setF (.refl _ u) _ _

theorem changesOnly_loadKeys (s : State) : changesOnly [.regs] s (loadKeys s) := by
  unfold loadKeys
  exact .foldl (.refl _ s) fun u k _ => .ite (.setF (.refl _ u) _ _) (.refl _ u)

theorem changesOnly_keepFields (l : List Fld) (s : State) : changesOnly [.regs] s (keepFields l s) := by
  unfold keepFields
  exact .foldl (.regs (.refl _ s)) fun u f _ => .setF (.refl _ u) _ _

/-- What of the machine a start keeps, and what it resets. -/
structure Fresh (cold : Bool) (s t : State) : Prop where
  beat : t.beat = .reset
  hod : t.hod = .reset
  host : t.host = freshHost s.host
  map : t.map = freshMap s.map
  img : t.grout.img = s.grout.img
  mac : t.mac = freshMac s.mac
  arr : t.sort.arr = s.sort.saved
  recd : t.recd = freshRec cold s.recd
  out : t.out = s.out
  pending : t.pending = s.pending

theorem Fresh.of_regsTop (h : Fresh cold s t) (k : changesOnly [.regs, .top] t u) : Fresh cold s u where
  beat := k.beat_eq.trans h.beat
  hod := k.hod_eq.trans h.hod
  host := k.host_eq.trans h.host
  map := k.map_eq.trans h.map
  img := (congrArg GroutSt.img k.grout_eq).trans h.img
  mac := k.mac_eq.trans h.mac
  arr := (congrArg SortSt.arr k.sort_eq).trans h.arr
  recd := k.recd_eq.trans h.recd
  out := k.out_eq.trans h.out
  pending := k.1.trans h.pending

theorem fresh_freshState (cold : Bool) (s : State) : Fresh cold s (freshState cold s) ∧ (freshState cold s).top = freshTop cold s.top := by
  unfold freshState
  extract_lets x
  have kept : changesOnly [.regs] s x := .setR (changesOnly_keepFields _ s) _ _
  have pending := kept.1
  have out := kept.out_eq
  clear_value x
  have loaded : ∀ w, changesOnly [.regs, .tiles] w (loadKeys (loadTiles w)) := fun w =>
    (changesOnly_loadTiles w).trans ((changesOnly_loadKeys _).mono (by decide))
  exact ⟨
    { beat := (loaded _).beat_eq
      hod := (loaded _).hod_eq
      host := (loaded _).host_eq
      map := (loaded _).map_eq
      img := by rw [(loaded _).grout_eq]
      mac := (loaded _).mac_eq
      arr := by rw [(loaded _).sort_eq]
      recd := (loaded _).recd_eq
      out := (loaded _).out_eq.trans out
      pending := (loaded _).1.trans pending }, (loaded _).top_eq⟩

/-! ### The first step -/

/-- The record of a start that stands at S01. -/
def firstRun (cold : Bool) (trig : Nat) (inp : StartInput) : StartRun := { inp := inp, trigger := trig, cold := cold, step := 1, src := none }

/-- How many starts there have been. -/
def startNo (s : State) : Nat := if s.top.nvValid then s.top.startCount + 1 else 0

theorem beginStart_eq (cold : Bool) (trig : Nat) (inp : StartInput) (s : State) :
    ∃ x, beginStart cold trig inp s = runStart 13 x ∧ Fresh cold s x ∧
      x.top = { freshTop cold { s.top with startCount := startNo s } with starting := true, start := some (firstRun cold trig inp) } ∧
      getF x F.TOP_LEDGER_STEP_TRIGGER = trig % 8 ∧ isSet x F.TOP_LEDGER_STEP_COLD = cold := by
  unfold beginStart
  extract_lets count src y z r
  have fresh : Fresh cold { s with top := { s.top with startCount := startNo s } } y ∧
      y.top = freshTop cold { s.top with startCount := startNo s } := fresh_freshState cold _
  clear_value y
  obtain ⟨fresh, top⟩ := fresh
  have base : Fresh cold s y := { fresh with }
  clear fresh
  have zparts : changesOnly [.regs] y z := .setF (.setF (.setF (.setF (.refl _ y) _ _) _ _) _ _) _ _
  have hprev : F.TOP_LEDGER_STEP_PREV.ok := by unfold Fld.ok; decide
  have hcold : F.TOP_LEDGER_STEP_COLD.ok := by unfold Fld.ok; decide
  have htrig : F.TOP_LEDGER_STEP_TRIGGER.ok := by unfold Fld.ok; decide
  have trigger : getF z F.TOP_LEDGER_STEP_TRIGGER = trig % 8 := by
    rw [getF_setF_apart _ _ _ _ hprev (by decide), getF_setF_apart _ _ _ _ hcold (by decide), getF_setF_same _ _ _ htrig]
    rfl
  have isCold : isSet z F.TOP_LEDGER_STEP_COLD = cold := by
    rw [isSet, getF_setF_apart _ _ _ _ hprev (by decide), getF_setF_same _ _ _ hcold]
    cases cold <;> rfl
  clear_value z
  generalize hx : ({ z with top := { z.top with starting := true, start := some r } } : State) = x
  have regs : x.regs = z.regs := hx ▸ rfl
  have xtop : x.top = { z.top with starting := true, start := some r } := hx ▸ rfl
  have xparts : changesOnly [.top] z x := hx ▸ .top (.refl _ z)
  refine ⟨x, rfl, base.of_regsTop ((zparts.mono (by decide)).trans (xparts.mono (by decide))), ?_, (getF_congr _ regs).trans trigger,
    (isSet_of_getF (getF_congr _ regs)).trans isCold⟩
  rw [xtop, zparts.top_eq, top]
  rfl

theorem skipped_of_le (h : i ≤ 4) (s : State) : skipped s i = false := by
  have h10 : i ≠ 10 := by omega
  have h11 : i ≠ 11 := by omega
  simp [skipped, h10, h11]

/-- A step that takes its time holds the start. -/
theorem runStart_of_slow (hr : x.top.start = some r) (hstep : r.step ≤ 4) (hslow : (tryOf r.inp r.step).slow = true) (n : Nat) :
    runStart (n + 1) x = setF F.TOP_LEDGER_STEP_STEP r.step x := by
  unfold runStart
  rw [hr]
  dsimp only
  rw [skipped_of_le hstep]
  exact if_pos (by simp [hslow])

/-- A step that ends the start is its last. -/
theorem runStart_of_ended (hr : x.top.start = some r) (hstep : r.step ≤ 4) (hslow : (tryOf r.inp r.step).slow = false)
    (hend : (runStep r (setF F.TOP_LEDGER_STEP_STEP r.step x)).top.start = none) (n : Nat) :
    runStart (n + 1) x = runStep r (setF F.TOP_LEDGER_STEP_STEP r.step x) := by
  unfold runStart
  rw [hr]
  dsimp only
  rw [skipped_of_le hstep]
  refine (if_neg (by simp [hslow])).trans ?_
  change (match (runStep r (setF F.TOP_LEDGER_STEP_STEP r.step x)).top.start with
    | none => runStep r (setF F.TOP_LEDGER_STEP_STEP r.step x)
    | some q => _) = _
  rw [hend]

/-! ### A start that halts -/

/-- A start that has halted the part. -/
structure Halted (s t : State) : Prop where
  halted : t.top.halted = true
  off : t.top.off = true
  fault : t.top.faultN = true
  starting : t.top.starting = false
  start : t.top.start = none
  kept : regsKept besideKiln s t
  out : ∀ i, getF t (outF i) = getF s (outF i)
  stays : raisedKept s t
  map : t.map = s.map

theorem endStart_spec (hr : s.top.start = some r) (ms : Nat) :
    (endStart ms s).top.start = none ∧ (endStart ms s).top.starting = false ∧ changesOnly [.top] s (endStart ms s) := by
  unfold endStart
  rw [hr]
  exact ⟨rfl, rfl, .top (.refl _ s)⟩

theorem enterOff_start (s : State) : (enterOff s).top.start = s.top.start ∧ (enterOff s).top.starting = s.top.starting := by
  unfold enterOff
  extract_lets s1 s2
  have top : s2.top = s.top := by
    rw [setF_top, setF_top, setF_top, setF_top, setF_top, setF_top, setF_top, setF_top, setF_top]
  clear_value s2
  have same : s2.top.start = s.top.start ∧ s2.top.starting = s.top.starting := by rw [top]; exact ⟨rfl, rfl⟩
  exact same

theorem outF_enterOff (s : State) (i : Nat) : getF (enterOff s) (outF i) = getF s (outF i) := by
  refine (offEntered s).kept.getF ?_
  have hlt := outF_addr_lt i
  simp only [Reg.PWR_STATE, Reg.PWR_DOM_STAT, Reg.HOST_LINK_STATUS]
  omega

theorem haltStart_spec (s : State) :
    (haltStart s).regs = (enterOff (endStart 0xFFFFFFFF s)).regs ∧ (haltStart s).map = (enterOff (endStart 0xFFFFFFFF s)).map ∧
      (haltStart s).top = { (enterOff (endStart 0xFFFFFFFF s)).top with halted := true, faultN := true } := by
  unfold haltStart
  generalize enterOff (endStart 0xFFFFFFFF s) = z
  exact ⟨rfl, rfl, rfl⟩

theorem halted_haltStart (hr : s.top.start = some r) : Halted s (haltStart s) := by
  obtain ⟨start, starting, parts⟩ := endStart_spec hr 0xFFFFFFFF
  have regs : (endStart 0xFFFFFFFF s).regs = s.regs := endStart_regs ..
  obtain ⟨hregs, hmap, htop⟩ := haltStart_spec s
  generalize haltStart s = t at *
  generalize endStart 0xFFFFFFFF s = x at *
  have entered := offEntered x
  obtain ⟨xstart, xstarting⟩ := enterOff_start x
  have stopped := stopped_enterOff x
  have outs := outF_enterOff x
  generalize enterOff x = y at *
  exact
    { halted := congrArg TopSt.halted htop
      off := (congrArg TopSt.off htop).trans entered.off
      fault := congrArg TopSt.faultN htop
      starting := (congrArg TopSt.starting htop).trans (xstarting.trans starting)
      start := (congrArg TopSt.start htop).trans (xstart.trans start)
      kept := (regsKept.of_regs regs).trans (stopped.kept.congr hregs)
      out := fun i => (getF_congr _ hregs).trans ((outs i).trans (getF_congr _ regs))
      stays := (raisedKept.congr (.refl s) regs).trans (stopped.stays.congr hregs)
      map := hmap.trans (entered.parts.map_eq.trans parts.map_eq) }

/-! ### Steps S01 to S04 with nothing left -/

/-- A step that failed is noted. -/
def stepFailed (i : Nat) (s : State) : State := noteFails i false (stepOut i outFailed s)

theorem outF_ok (h : 1 ≤ i) (hi : i ≤ 12) : (outF i).ok := by
  unfold outF
  split <;> simp only [Fld.ok] <;> omega

theorem stepFailed_spec (h : 1 ≤ i) (hi : i ≤ 12) (s : State) :
    getF (stepFailed i s) (outF i) = outFailed ∧ (stepFailed i s).top = s.top ∧ (stepFailed i s).map = s.map := by
  have step : stepOut i outFailed s = setF (outF i) outFailed s := by
    unfold stepOut
    dsimp only
    rw [if_neg (by decide), if_neg (by decide)]
  have w : (outF i).w = 4 := by
    unfold outF
    split <;> rfl
  have noted : ∃ t, noteFails i false (setF (outF i) outFailed s) = t ∧ getF t (outF i) = outFailed ∧ changesOnly [.regs] s t := by
    have same : getF (setF (outF i) outFailed s) (outF i) = outFailed := by
      rw [getF_setF_same _ _ _ (outF_ok h hi), w]
      rfl
    have apart : (outF i).addr ≠ (failsF i).addr := by
      unfold outF failsF
      split <;> simp only <;> decide
    refine ⟨_, rfl, ?_, ?_⟩
    · unfold noteFails
      split
      · exact same
      · rw [if_neg (by decide), getF_setF_ne _ _ _ _ apart, same]
    · unfold noteFails
      exact .ite (.setF (.refl _ s) _ _) (.ite (.setF (.setF (.refl _ s) _ _) _ _) (.setF (.setF (.refl _ s) _ _) _ _))
  obtain ⟨t, ht, out, parts⟩ := noted
  rw [stepFailed, step, ht]
  exact ⟨out, parts.top_eq, parts.map_eq⟩

theorem tryOut_of_nothing {y : StepTry} (hp : y.primary = false) (ha : y.alternate = false) : tryOut s i y = outFailed := by
  simp [tryOut, hp, ha]

theorem haltStep_of_nothing {y : StepTry} (hp : y.primary = false) (ha : y.alternate = false) (f : State → State) :
    haltStep i y f s = haltStart (stepFailed i s) := by
  unfold haltStep
  dsimp only
  rw [tryOut_of_nothing hp ha, hp, if_pos rfl]
  rfl

theorem runStep_of_nothing (h1 : 1 ≤ r.step) (h4 : r.step ≤ 4) (hp : (tryOf r.inp r.step).primary = false)
    (ha : (tryOf r.inp r.step).alternate = false) :
    runStep r s = haltStart (if r.step = 4 then happen baseSec 13 (stepFailed r.step s) else stepFailed r.step s) := by
  have hcase : r.step = 1 ∨ r.step = 2 ∨ r.step = 3 ∨ r.step = 4 := by omega
  unfold runStep
  dsimp only
  rcases hcase with h | h | h | h
  · rw [h] at hp ha ⊢
    exact haltStep_of_nothing hp ha _
  · rw [h] at hp ha ⊢
    exact haltStep_of_nothing hp ha _
  · rw [h] at hp ha ⊢
    exact haltStep_of_nothing hp ha _
  · rw [h] at hp ha ⊢
    change runS04 _ s = _
    unfold runS04
    dsimp only
    rw [tryOut_of_nothing hp ha, hp, if_pos rfl]
    rfl

/-- Steps S01 to S04 with nothing left halt the part. -/
theorem halted_runStep (hr : s.top.start = some r) (h1 : 1 ≤ r.step) (h4 : r.step ≤ 4) (hp : (tryOf r.inp r.step).primary = false)
    (ha : (tryOf r.inp r.step).alternate = false) {x : State} (hx : x.top.start = s.top.start) (hm : x.map = s.map) :
    (runStep r x).top.halted = true ∧ (runStep r x).top.off = true ∧ (runStep r x).top.faultN = true ∧
      (runStep r x).top.starting = false ∧ (runStep r x).top.start = none ∧ getF (runStep r x) (outF r.step) = outFailed ∧
      (runStep r x).map = s.map ∧ (r.step = 4 → raised baseSec 13 (runStep r x) = true) := by
  rw [runStep_of_nothing h1 h4 hp ha]
  obtain ⟨out, top, map⟩ := stepFailed_spec h1 (h4.trans (by decide)) x
  generalize stepFailed r.step x = y at *
  obtain ⟨z, hz, zout, ztop, zmap, told⟩ : ∃ z, (if r.step = 4 then happen baseSec 13 y else y) = z ∧
      getF z (outF r.step) = outFailed ∧ z.top.start = some r ∧ z.map = s.map ∧ (r.step = 4 → raised baseSec 13 z = true) := by
    have start : y.top.start = some r := (congrArg TopSt.start top).trans (hx.trans hr)
    refine ⟨_, rfl, ?_, ?_, ?_, fun h => ?_⟩
    · split
      · refine (getF_happen ?_ (by decide) (by decide)).trans out
        unfold outF
        split <;> simp only <;> decide
      · exact out
    · split
      · rw [happen_top, start]
      · exact start
    · split
      · rw [happen_map, map, hm]
      · rw [map, hm]
    · rw [if_pos h]
      exact raised_happen _ _ _ (by decide) (by decide) (by decide) (by decide)
  rw [hz]
  have halted := halted_haltStart ztop
  exact ⟨halted.halted, halted.off, halted.fault, halted.starting, halted.start, (halted.out _).trans zout, halted.map.trans zmap,
    fun h => halted.stays _ _ (by decide) (by decide) (by decide) (told h)⟩

end Sys2Proof.Machine
end

/-! ## Starts begin and end: steps that hang, starts that are cut, and the statement (R471, R472, R475, R488) -/

section

-- One proof after another: elaborated side by side, the proofs of this text take more memory than its check allows.
set_option Elab.async false

namespace Sys2Proof.Machine

variable {s t u x : State} {r : StartRun} {i k n : Nat} {cold : Bool} {trig : Nat} {inp : StartInput}

/-! ### What begins a start -/

theorem powerOn_of_none (h : s.top.start = none) : powerOn inp s = beginStart true 0 inp s := by
  rw [powerOn, lostPower, h]

section

variable (hidle : s.top.starting = false)
include hidle

theorem leaveOff_of_off (hoff : s.top.off = true ∨ s.top.halted = true) (htrip : s.top.thermTrip = false) :
    leaveOff inp s = beginStart false (s.top.startDue.getD 1) inp s := by
  rw [leaveOff, if_neg (by simp [hidle]), if_pos hoff, if_neg (by simp [htrip])]

theorem leaveOff_of_held (hoff : s.top.off = true ∨ s.top.halted = true) (htrip : s.top.thermTrip = true) :
    leaveOff inp s = { s with top := { s.top with startDue := some (s.top.startDue.getD 1) } } := by
  rw [leaveOff, if_neg (by simp [hidle]), if_pos hoff, if_pos htrip]

theorem leaveOff_of_due (hoff : s.top.off = false) (hhalt : s.top.halted = false) (hdue : s.top.startDue = some k)
    (hready : inLoader s = true ∨ drained s = true) : leaveOff inp s = beginStart false k inp s := by
  rw [leaveOff, if_neg (by simp [hidle]), if_neg (by simp [hoff, hhalt]), hdue]
  exact if_pos hready

theorem leaveOff_of_none (hoff : s.top.off = false) (hhalt : s.top.halted = false) (hdue : s.top.startDue = none) :
    leaveOff inp s = s := by
  rw [leaveOff, if_neg (by simp [hidle]), if_neg (by simp [hoff, hhalt]), hdue]

end

/-- A start whose first step takes its time stands at S01. -/
theorem beginStart_of_slow (hslow : (tryOf inp 1).slow = true) (cold : Bool) (trig : Nat) (s : State) :
    Fresh cold s (beginStart cold trig inp s) ∧ (beginStart cold trig inp s).top.starting = true ∧
      (beginStart cold trig inp s).top.off = false ∧ (beginStart cold trig inp s).top.startCount = startNo s ∧
      getF (beginStart cold trig inp s) F.TOP_LEDGER_STEP_STEP = 1 ∧
      getF (beginStart cold trig inp s) F.TOP_LEDGER_STEP_TRIGGER = trig % 8 ∧
      isSet (beginStart cold trig inp s) F.TOP_LEDGER_STEP_COLD = cold := by
  obtain ⟨x, heq, fresh, top, trigger, isCold⟩ := beginStart_eq cold trig inp s
  have run : runStart 13 x = setF F.TOP_LEDGER_STEP_STEP 1 x :=
    runStart_of_slow (r := firstRun cold trig inp) (by rw [top]) (by decide : 1 ≤ 4) hslow 12
  rw [heq, run]
  have hstep : F.TOP_LEDGER_STEP_STEP.ok := by unfold Fld.ok; decide
  refine ⟨fresh.of_regsTop (.setF (.refl _ x) _ _), by rw [setF_top, top], by rw [setF_top, top]; rfl, by rw [setF_top, top]; rfl, ?_, ?_, ?_⟩
  · rw [getF_setF_same _ _ _ hstep]
    rfl
  · rw [getF_setF_apart _ _ _ _ hstep (by decide), trigger]
  · rw [isSet, getF_setF_apart _ _ _ _ hstep (by decide)]
    exact isCold

/-- A start whose first step has nothing left halts. -/
theorem beginStart_of_nothing (hslow : (tryOf inp 1).slow = false) (hp : (tryOf inp 1).primary = false)
    (ha : (tryOf inp 1).alternate = false) (cold : Bool) (trig : Nat) (s : State) :
    (beginStart cold trig inp s).top.halted = true ∧ (beginStart cold trig inp s).top.off = true ∧
      (beginStart cold trig inp s).top.faultN = true ∧ (beginStart cold trig inp s).top.starting = false ∧
      getF (beginStart cold trig inp s) (outF 1) = outFailed ∧ (beginStart cold trig inp s).map.flash = s.map.flash := by
  obtain ⟨x, heq, fresh, top, -, -⟩ := beginStart_eq cold trig inp s
  have start : x.top.start = some (firstRun cold trig inp) := by rw [top]
  obtain ⟨halted, off, fault, starting, ended, out, map, -⟩ := halted_runStep start (by decide : 1 ≤ 1) (by decide : 1 ≤ 4) hp ha
    (x := setF F.TOP_LEDGER_STEP_STEP 1 x) (by rw [setF_top]) (setF_map ..)
  have run : runStart 13 x = runStep (firstRun cold trig inp) (setF F.TOP_LEDGER_STEP_STEP 1 x) :=
    runStart_of_ended start (by decide : 1 ≤ 4) hslow ended 12
  rw [heq, run]
  exact ⟨halted, off, fault, starting, out, by rw [map, fresh.map]; rfl⟩

/-! ### Steps that hang -/

/-- What the world answers once a step has used its time, and has nothing left. -/
def hung (r : StartRun) (k : Nat) : StartRun :=
  { r with inp := { r.inp with steps :=
    ((List.range 12).map (fun i => tryOf r.inp (i + 1))).set (k - 1) { primary := false, alternate := false, slow := false } } }

theorem tryOf_hung (h1 : 1 ≤ k) (h12 : k ≤ 12) : tryOf (hung r k).inp k = { primary := false, alternate := false, slow := false } := by
  unfold tryOf hung
  dsimp only
  have hlt : k - 1 < 12 := by omega
  simp [List.getD, hlt]

theorem stepTimedOut_of_hung (hr : s.top.start = some r) (hk : r.step = k) (hslow : (tryOf r.inp k).slow = true) :
    stepTimedOut k false s = runStart 13 { s with top := { s.top with start := some (hung r k) } } := by
  rw [stepTimedOut, hr]
  exact if_pos ⟨hk, hslow⟩

theorem stepTimedOut_of_not {b : Bool}
    (h : s.top.start = none ∨ ∃ r, s.top.start = some r ∧ (r.step ≠ k ∨ (tryOf r.inp k).slow = false)) : stepTimedOut k b s = s := by
  rcases h with h | ⟨r, h, hno⟩
  · rw [stepTimedOut, h]
  · rw [stepTimedOut, h]
    refine if_neg fun hc => ?_
    rcases hno with hno | hno
    · exact hno hc.1
    · exact Bool.false_ne_true (hno.symm.trans hc.2)

/-- S01 to S04 that hang with nothing left halt the part. -/
theorem stepTimedOut_spec (hr : s.top.start = some r) (hk : r.step = k) (h1 : 1 ≤ k) (h4 : k ≤ 4) (hslow : (tryOf r.inp k).slow = true) :
    (stepTimedOut k false s).top.halted = true ∧ (stepTimedOut k false s).top.off = true ∧ (stepTimedOut k false s).top.faultN = true ∧
      (stepTimedOut k false s).top.start = none ∧ getF (stepTimedOut k false s) (outF k) = outFailed ∧
      (k = 4 → raised baseSec 13 (stepTimedOut k false s) = true) := by
  rw [stepTimedOut_of_hung hr hk hslow]
  have nothing := tryOf_hung (r := r) h1 (h4.trans (by decide))
  have hstep : (hung r k).step = k := hk
  generalize hung r k = q at *
  generalize hx : ({ s with top := { s.top with start := some q } } : State) = x
  have start : x.top.start = some q := hx ▸ rfl
  obtain ⟨halted, off, fault, -, ended, out, -, told⟩ := halted_runStep start (hstep.symm ▸ h1) (hstep.symm ▸ h4) (by rw [hstep, nothing])
    (by rw [hstep, nothing]) (x := setF F.TOP_LEDGER_STEP_STEP q.step x) (by rw [setF_top]) (setF_map ..)
  have run : runStart 13 x = runStep q (setF F.TOP_LEDGER_STEP_STEP q.step x) :=
    runStart_of_ended start (hstep.symm ▸ h4) (by rw [hstep, nothing]) ended 12
  rw [run]
  generalize runStep q (setF F.TOP_LEDGER_STEP_STEP q.step x) = t at *
  rw [hstep] at out told
  exact ⟨halted, off, fault, ended, out, told⟩

/-! ### Starts that are cut -/

theorem cutStart_spec (hr : s.top.start = some r) (h1 : 1 ≤ r.step) (h12 : r.step ≤ 12) :
    (cutStart s).top.off = true ∧ (cutStart s).top.start = none ∧ (cutStart s).top.starting = false ∧ getF (cutStart s) (outF r.step) = 5 ∧
      changesOnly [.regs, .top] s (cutStart s) := by
  have heq : cutStart s = enterOff (endStart 0xFFFFFFFF (setF (outF r.step) 5 s)) := by rw [cutStart, hr]
  rw [heq]
  have noted : getF (setF (outF r.step) 5 s) (outF r.step) = 5 := by
    have w : (outF r.step).w = 4 := by
      unfold outF
      split <;> rfl
    rw [getF_setF_same _ _ _ (outF_ok h1 h12), w]
    rfl
  have parts : changesOnly [.regs, .top] s (setF (outF r.step) 5 s) := .setF (.refl _ s) _ _
  have start : (setF (outF r.step) 5 s).top.start = some r := by rw [setF_top, hr]
  generalize setF (outF r.step) 5 s = x at *
  obtain ⟨ended, starting, xparts⟩ := endStart_spec start 0xFFFFFFFF
  have regs : (endStart 0xFFFFFFFF x).regs = x.regs := endStart_regs ..
  generalize endStart 0xFFFFFFFF x = y at *
  obtain ⟨ystart, ystarting⟩ := enterOff_start y
  have entered := offEntered y
  exact ⟨entered.off, ystart.trans ended, ystarting.trans starting, (outF_enterOff y _).trans ((getF_congr _ regs).trans noted),
    (parts.trans (xparts.mono (by decide))).trans entered.parts⟩

/-- A loss of power cuts the start: the seal frame is noted. -/
theorem startCut_power (hr : s.top.start = some r) (h1 : 1 ≤ r.step) (h12 : r.step ≤ 12) :
    (startCut false s).top.off = true ∧ (startCut false s).top.start = none ∧ (startCut false s).top.starting = false ∧
      (startCut false s).top.sealFrame = some (frameNow s) ∧ getF (startCut false s) (outF r.step) = 5 ∧
      changesOnly [.regs, .top] s (startCut false s) := by
  obtain ⟨off, start, starting, out, parts⟩ := cutStart_spec hr h1 h12
  have heq : startCut false s = { cutStart s with top := { (cutStart s).top with sealFrame := some (frameNow s) } } := by
    rw [startCut, if_neg (by simp [hr]), if_neg (by decide)]
  rw [heq]
  generalize cutStart s = x at *
  exact ⟨off, start, starting, rfl, (getF_congr (t := { x with top := _ }) _).trans out, .top parts⟩

/-- The pins of a thermal shutdown. -/
def tripPinned (s : State) : State := { s with top := { s.top with thermTrip := true, faultN := true } }

theorem tripPinned_spec (s : State) :
    (tripPinned s).regs = s.regs ∧ (tripPinned s).top.off = s.top.off ∧ (tripPinned s).top.start = s.top.start ∧
      (tripPinned s).top.thermTrip = true ∧ (tripPinned s).top.faultN = true := ⟨rfl, rfl, rfl, rfl, rfl⟩

theorem startCut_eq (hr : s.top.start ≠ none) : startCut true s = tripPinned (cutStart (happen baseKiln 3 (addF F.KILN_TRIPS_COUNT 1 s))) := by
  have pinned : ∀ y : State, ({ y with top := { y.top with thermTrip := true, faultN := true } } : State) = tripPinned y := fun _ => rfl
  simp only [startCut, hr, if_false, if_true, pinned]

/-- A thermal shutdown cuts the start, with its pins and its count. -/
theorem startCut_thermal (hr : s.top.start = some r) (h1 : 1 ≤ r.step) (h12 : r.step ≤ 12) :
    (startCut true s).top.off = true ∧ (startCut true s).top.start = none ∧ (startCut true s).top.thermTrip = true ∧
      (startCut true s).top.faultN = true ∧ getF (startCut true s) (outF r.step) = 5 ∧ raised baseKiln 3 (startCut true s) = true ∧
      getF (startCut true s) F.KILN_TRIPS_COUNT = min (2 ^ 32 - 1) (getF s F.KILN_TRIPS_COUNT + 1) := by
  rw [startCut_eq (by simp [hr])]
  have told : raised baseKiln 3 (happen baseKiln 3 (addF F.KILN_TRIPS_COUNT 1 s)) = true :=
    raised_happen _ _ _ (by decide) (by decide) (by decide) (by decide)
  have count : getF (happen baseKiln 3 (addF F.KILN_TRIPS_COUNT 1 s)) F.KILN_TRIPS_COUNT =
      min (2 ^ 32 - 1) (getF s F.KILN_TRIPS_COUNT + 1) := by
    rw [getF_happen (by decide) (by decide) (by decide), getF_addF_word]
  have start : (happen baseKiln 3 (addF F.KILN_TRIPS_COUNT 1 s)).top.start = some r := by rw [happen_top, addF_top, hr]
  generalize happen baseKiln 3 (addF F.KILN_TRIPS_COUNT 1 s) = x at *
  obtain ⟨off, ended, -, out, -⟩ := cutStart_spec start h1 h12
  have stopped := stopped_cutStart x
  generalize cutStart x = y at *
  obtain ⟨regs, zoff, zstart, trip, fault⟩ := tripPinned_spec y
  generalize tripPinned y = z at *
  refine ⟨zoff.trans off, zstart.trans ended, trip, fault, (getF_congr _ regs).trans out, ?_, ?_⟩
  · exact (raised_of_regs _ _ regs).trans (stopped.stays _ _ (by decide) (by decide) (by decide) told)
  · rw [getF_congr _ regs, stopped.kept.getF (by unfold besideKiln; decide), count]

/-! ### RESTART, LEDGER_CLEAR and TOP_COMPAT -/

/-- The TOP page answers always. -/
theorem reach_topCtrl (s : State) : reach s Reg.TOP_CTRL = .ok := rfl

theorem reach_topCompat (s : State) : reach s Reg.TOP_COMPAT = .ok := rfl

theorem ledgerClear_spec (s : State) :
    getF (ledgerClear s) F.TOP_LEDGER_FAILS_FAILS = 0 ∧ regsKept (· = Reg.TOP_LEDGER_FAILS) s (ledgerClear s) ∧
      changesOnly [.regs] s (ledgerClear s) :=
  ⟨(getF_setF_same _ _ _ (by unfold Fld.ok; decide)).trans (Nat.zero_mod _), .setF (.refl s) _ _ rfl, .setF (.refl _ s) _ _⟩

/-- The REFUSED bit as a 1 written to it leaves it. -/
theorem refusedCleared (b : Bool) (s : State) :
    ∃ y, (if b = true then setF F.TOP_COMPAT_REFUSED 0 s else s) = y ∧ isSet y F.TOP_COMPAT_REFUSED = (isSet s F.TOP_COMPAT_REFUSED && !b) ∧
      getF y F.TOP_COMPAT_REQUEST = getF s F.TOP_COMPAT_REQUEST ∧ regsKept (· = Reg.TOP_COMPAT) s y ∧ changesOnly [.regs] s y := by
  have hok : F.TOP_COMPAT_REFUSED.ok := by unfold Fld.ok; decide
  cases b with
  | false => exact ⟨s, rfl, by simp, rfl, .refl s, .refl _ s⟩
  | true =>
    refine ⟨_, rfl, ?_, getF_setF_apart _ _ _ _ hok (by decide), .setF (.refl s) _ _ rfl, .setF (.refl _ s) _ _⟩
    rw [if_pos rfl, isSet, getF_setF_same _ _ _ hok]
    simp

theorem compatWrite_of_refused {v : Nat} (h : getF s F.TOP_COMPAT_MAX < bitsOf v 8 8 ∨ bitsOf v 8 8 < s.sec.running.compatMin ∨
    s.sec.running.compatMax < bitsOf v 8 8) :
    isSet (compatWrite v s) F.TOP_COMPAT_REFUSED = true ∧ raised baseTop 7 (compatWrite v s) = true ∧
      getF (compatWrite v s) F.TOP_COMPAT_REQUEST = getF s F.TOP_COMPAT_REQUEST ∧ regsKeptE (· = Reg.TOP_COMPAT) s (compatWrite v s) ∧
      changesOnly eventParts s (compatWrite v s) := by
  have hok : F.TOP_COMPAT_REFUSED.ok := by unfold Fld.ok; decide
  obtain ⟨y, hy, -, request, kept, parts⟩ := refusedCleared (decide (bitsOf v 24 1 = 1)) s
  have heq : compatWrite v s = happen baseTop 7 (setF F.TOP_COMPAT_REFUSED 1 y) := by
    rw [← hy]
    simp only [decide_eq_true_eq]
    exact if_pos h
  rw [heq]
  refine ⟨?_, raised_happen _ _ _ (by decide) (by decide) (by decide) (by decide), ?_, ?_, ?_⟩
  · rw [isSet, getF_happen (by decide) (by decide) (by decide), getF_setF_same _ _ _ hok]
    rfl
  · rw [getF_happen (by decide) (by decide) (by decide), getF_setF_apart _ _ _ _ hok (by decide), request]
  · exact .happen (kept.setF _ _ rfl).toE baseTop 7
  · exact .happen (.setF (parts.mono (by decide)) _ _) baseTop 7

theorem compatWrite_of_taken {v : Nat} (h1 : bitsOf v 8 8 ≤ getF s F.TOP_COMPAT_MAX) (h2 : s.sec.running.compatMin ≤ bitsOf v 8 8)
    (h3 : bitsOf v 8 8 ≤ s.sec.running.compatMax) :
    getF (compatWrite v s) F.TOP_COMPAT_REQUEST = bitsOf v 8 8 ∧ (compatWrite v s).top.compatNv = bitsOf v 8 8 ∧
      isSet (compatWrite v s) F.TOP_COMPAT_REFUSED = (isSet s F.TOP_COMPAT_REFUSED && decide (bitsOf v 24 1 = 0)) ∧
      regsKept (· = Reg.TOP_COMPAT) s (compatWrite v s) ∧ changesOnly [.regs, .top] s (compatWrite v s) := by
  have hok : F.TOP_COMPAT_REQUEST.ok := by unfold Fld.ok; decide
  obtain ⟨y, hy, refused, -, kept, parts⟩ := refusedCleared (decide (bitsOf v 24 1 = 1)) s
  have heq : compatWrite v s = setF F.TOP_COMPAT_REQUEST (bitsOf v 8 8) { y with top := { y.top with compatNv := bitsOf v 8 8 } } := by
    rw [← hy]
    simp only [decide_eq_true_eq]
    exact if_neg (by omega)
  rw [heq]
  have bit : (!decide (bitsOf v 24 1 = 1)) = decide (bitsOf v 24 1 = 0) := by
    have : bitsOf v 24 1 < 2 := Nat.mod_lt _ (by decide)
    rw [← decide_not]
    exact decide_eq_decide.mpr (by omega)
  generalize hz : ({ y with top := { y.top with compatNv := bitsOf v 8 8 } } : State) = z
  have regs : z.regs = y.regs := hz ▸ rfl
  have nv : z.top.compatNv = bitsOf v 8 8 := hz ▸ rfl
  have zparts : changesOnly [.top] y z := hz ▸ .top (.refl _ y)
  refine ⟨?_, by rw [setF_top, nv], ?_, .setF (kept.congr regs) _ _ rfl, .setF ((parts.mono (by decide)).trans (zparts.mono (by decide))) _ _⟩
  · rw [getF_setF_same _ _ _ hok]
    exact Nat.mod_eq_of_lt (Nat.mod_lt _ (by decide))
  · rw [isSet, getF_setF_apart _ _ _ _ hok (by decide), getF_congr _ regs, ← isSet, refused, bit]

/-- Settles O45: what begins a start runs `beginStart`, which stands at S01 or halts there; a step that hangs, a cut and the registers
by the lemmas of their operations. -/
theorem startsBeginAndEnd : Obligations.StartsBeginAndEnd := by
  unfold Obligations.StartsBeginAndEnd
  intro s inp
  refine ⟨?begins, ?underWay, ?held, ?noneDue, ?noRestart, ?hangs, ?noHang, ?noCut, ?cut, ?restart, ?noTopRestart, ?ledger, ?compat⟩
  case begins =>
    intro c cold trig u h
    have run : u = s ∧ completes c s (beginStart cold trig inp u) := by
      rcases h with ⟨rfl, rfl, rfl, hno, rfl⟩ | ⟨rfl, rfl, hidle, hoff, htrip, rfl, rfl⟩ |
          ⟨rfl, rfl, hidle, hoff, hhalt, hdue, hready, rfl⟩ | ⟨rfl, rfl, hseal, htrip, hidle, rfl, rfl⟩
      · exact ⟨rfl, congrArg Host.Outcome.next (powerOn_of_none hno)⟩
      · exact ⟨rfl, congrArg Host.Outcome.next (leaveOff_of_off hidle hoff htrip)⟩
      · exact ⟨rfl, congrArg Host.Outcome.next (leaveOff_of_due hidle hoff hhalt hdue hready)⟩
      · exact ⟨rfl, congrArg Host.Outcome.next (if_pos ⟨by rwa [Option.isSome_iff_ne_none], by simp [htrip, hidle]⟩)⟩
    obtain ⟨rfl, run⟩ := run
    refine ⟨run, fun hslow => ?_, fun hslow hp ha => ?_⟩
    · obtain ⟨fresh, starting, off, count, step, trigger, isCold⟩ := beginStart_of_slow hslow cold trig u
      generalize beginStart cold trig inp u = t at *
      exact ⟨t, run, starting, off, step, trigger, isCold, fresh.beat, fresh.hod, by rw [fresh.host]; rfl, by rw [fresh.host]; rfl,
        by rw [fresh.map]; rfl, by rw [fresh.map]; rfl, fresh.img, by rw [fresh.mac]; rfl, by rw [fresh.mac]; rfl, by rw [fresh.host]; rfl,
        fresh.arr, by rw [fresh.recd]; rfl, by rw [fresh.recd]; rfl, fresh.out, fresh.pending, count⟩
    · obtain ⟨halted, off, fault, starting, out, flash⟩ := beginStart_of_nothing hslow hp ha cold trig u
      exact ⟨_, run, halted, off, fault, starting, out, flash⟩
  case underWay => exact fun h => congrArg Host.Outcome.next (if_pos h)
  case held => exact fun hidle hoff htrip => congrArg Host.Outcome.next (leaveOff_of_held hidle hoff htrip)
  case noneDue => exact fun hidle hoff hhalt hdue => congrArg Host.Outcome.next (leaveOff_of_none hidle hoff hhalt hdue)
  case noRestart =>
    refine fun h => congrArg Host.Outcome.next (if_neg fun hc => ?_)
    rcases h with h | h | h <;> simp [h] at hc
  case hangs => exact fun r k hr hk h1 h4 hslow => ⟨_, rfl, stepTimedOut_spec hr hk h1 h4 hslow⟩
  case noHang => exact fun k b h => congrArg Host.Outcome.next (stepTimedOut_of_not h)
  case noCut => exact fun b h => congrArg Host.Outcome.next (if_pos h)
  case cut => exact fun r hr h1 h12 => ⟨⟨_, rfl, startCut_power hr h1 h12⟩, ⟨_, rfl, startCut_thermal hr h1 h12⟩⟩
  case restart =>
    refine fun hrun hno => congrArg Host.Outcome.next ((guarded_ok _ (reach_topCtrl s)).trans (if_neg ?_))
    simp [hrun, hno]
  case noTopRestart =>
    refine fun h => congrArg Host.Outcome.next ((guarded_ok _ (reach_topCtrl s)).trans (if_pos ?_))
    rcases h with h | h <;> simp [h]
  case ledger => exact ⟨_, congrArg Host.Outcome.next (guarded_ok _ (reach_topCtrl s)), ledgerClear_spec s⟩
  case compat =>
    exact fun v => ⟨fun h => ⟨_, congrArg Host.Outcome.next (guarded_ok _ (reach_topCompat s)), compatWrite_of_refused h⟩,
      fun h1 h2 h3 => ⟨_, congrArg Host.Outcome.next (guarded_ok _ (reach_topCompat s)), compatWrite_of_taken h1 h2 h3⟩⟩

end Sys2Proof.Machine
end

/-! ## Key slots and their operations (R316 to R318, R320, R321, R352) -/

section

-- One proof after another: elaborated side by side, the proofs of this text take more memory than its check allows.
set_option Elab.async false

namespace Sys2Proof.Machine

variable {s t u : State} {k v j r : Nat} {fn : Nat} {c : Conn}

/-! ### What an operation of a session works on -/

theorem changesOnly_dropSig (c : Conn) (s : State) : changesOnly [.sec] s (dropSig c s) := by
  unfold dropSig setConn
  exact .sec (.refl _ s)

theorem newKeyRefusal_dropSig (c : Conn) (k v : Nat) (restore : Option (BitVec 256)) (s : State) :
    newKeyRefusal k v restore (dropSig c s) = newKeyRefusal k v restore s := rfl

theorem newKeyRefusal_tick (k v : Nat) (restore : Option (BitVec 256)) (s : State) :
    newKeyRefusal k v restore (tick s) = newKeyRefusal k v restore s := rfl

theorem keyStatusData_dropSig (c : Conn) (k : Nat) (s : State) : keyStatusData (dropSig c s) k = keyStatusData s k := rfl

section

variable (hk : k < 64) (hv : v < 4) (hp : pausing s = false) (hrun : running s = true) (hfn : fnOfTile s k = some fn)
include hk hv hp hrun hfn

theorem inSession_of_open (hs : (getConn s (.storage fn)).sessions ≠ 0) (f : Conn → State → State) :
    inSession k v f s = f (.storage fn) (dropSig (.storage fn) s) := by
  unfold inSession
  rw [if_neg (by simp [hp, hrun]; omega), hfn]
  exact if_neg hs

theorem inSession_of_closed (hs : (getConn s (.storage fn)).sessions = 0) (f : Conn → State → State) :
    inSession k v f s = spdmErr (.storage fn) errUnexpected s := by
  unfold inSession
  rw [if_neg (by simp [hp, hrun]; omega), hfn]
  exact if_pos hs

end

/-- The answer: the result byte in the tile's page, and the message. -/
theorem keyAnswer_spec (hr : r < 16) (c : Conn) (k : Nat) (kcv : Option W64) (s : State) :
    getF (keyAnswer c k r kcv s) (F.MAC_TILE_KEY_RESULT k) = r ∧ (keyAnswer c k r kcv s).mac = s.mac ∧
      regsKept (· = Reg.MAC_TILE_KEY k) s (keyAnswer c k r kcv s) ∧ changesOnly [.regs, .out] s (keyAnswer c k r kcv s) ∧
      curVer (keyAnswer c k r kcv s) k = curVer s k := by
  have hok : (F.MAC_TILE_KEY_RESULT k).ok := by simp [Fld.ok]
  have parts : changesOnly [.regs, .out] s (keyAnswer c k r kcv s) := .emit (.setF (.refl _ s) _ _) _
  have regs : (keyAnswer c k r kcv s).regs = (setF (F.MAC_TILE_KEY_RESULT k) r s).regs := rfl
  have kept : regsKept (· = Reg.MAC_TILE_KEY k) s (setF (F.MAC_TILE_KEY_RESULT k) r s) := .setF (.refl s) _ _ rfl
  refine ⟨?_, parts.mac_eq, kept.congr regs, parts, ?_⟩
  · rw [getF_congr _ regs, getF_setF_same _ _ _ hok]
    exact Nat.mod_eq_of_lt hr
  · exact (getF_congr _ regs).trans (getF_setF_apart _ _ _ _ hok (.inl (by simp)))

theorem keyAnswer_out (c : Conn) (k r : Nat) (x : W64) (s : State) :
    (keyAnswer c k r (some x) s).out = .spdm c spdmVendor (leBytes 1 r ++ leBytes 8 x.toNat) :: s.out := rfl

/-- A slot's registers are none of the tiles'. -/
theorem slot_ne_tile {i : Nat} (hk : k < 64) : Reg.MAC_SLOT i ≠ Reg.MAC_TILE_KEY k := by
  simp only [Reg.MAC_SLOT, Reg.MAC_TILE_KEY]
  omega

theorem keyState_keyAnswer (hk : k < 64) (hr : r < 16) (kcv : Option W64) (s : State) (i : Nat) :
    keyState (keyAnswer c k r kcv s) i = keyState s i :=
  (keyAnswer_spec hr c k kcv s).2.2.1.getF (slot_ne_tile hk)

theorem newKeyRefusal_lt {x : Option (BitVec 256)} (h : newKeyRefusal k v x s = some r) : r < 16 := by
  have row : ∀ {p : Prop} [Decidable p] {n : Nat} {o : Option Nat}, (if p then some n else o) = some r → r = n ∨ o = some r := fun h => by
    split at h
    · exact .inl (Option.some.inj h).symm
    · exact .inr h
  unfold newKeyRefusal at h
  rcases row h with rfl | h
  · decide
  rcases row h with rfl | h
  · decide
  rcases row h with rfl | h
  · decide
  rcases row h with rfl | h
  · decide
  rcases row h with rfl | h
  · decide
  cases h

/-! ### A key comes into a slot -/

theorem setGen_spec (j g : Nat) (s : State) :
    genOf (setGen j g s) j = g ∧ getF (setGen j g s) (F.MAC_SLOT_GEN j) = g % 2 ^ 24 ∧ keyState (setGen j g s) j = keyState s j ∧
      regsKept (· = Reg.MAC_SLOT j) s (setGen j g s) ∧ changesOnly [.regs, .mac] s (setGen j g s) ∧
      (setGen j g s).mac = { s.mac with gens := tset zeroD j g s.mac.gens } := by
  have hok : (F.MAC_SLOT_GEN j).ok := by simp [Fld.ok]
  unfold setGen
  generalize hx : ({ s with mac := { s.mac with gens := tset zeroD j g s.mac.gens } } : State) = x
  have regs : x.regs = s.regs := hx ▸ rfl
  have mac : x.mac = { s.mac with gens := tset zeroD j g s.mac.gens } := hx ▸ rfl
  have parts : changesOnly [.mac] s x := hx ▸ .mac (.refl _ s)
  refine ⟨?_, ?_, ?_, .setF (.of_regs regs) _ _ rfl, .setF (parts.mono (by decide)) _ _, by rw [setF_mac, mac]⟩
  · rw [genOf, setF_mac, mac]
    exact tget_tset_same ..
  · rw [getF_setF_same _ _ _ hok]
    exact Nat.mod_mod _ _
  · exact (getF_setF_apart _ _ _ _ hok (.inl (by simp))).trans (getF_congr _ regs)

/-- What GENERATE and LOAD do to the slot. -/
structure KeyPut (j : Nat) (key : BitVec 256) (src : Nat) (s t : State) : Prop where
  key : slotKey t j = key
  state : keyState t j = if keyState s j = keyLoaded then keyRetiring else keyLoaded
  gen : genOf t j = genOf s j + 1
  genF : getF t (F.MAC_SLOT_GEN j) = (genOf s j + 1) % 2 ^ 24
  source : getF t (F.MAC_SLOT_SOURCE j) = src
  others : ∀ i, i ≠ j → slotKey t i = slotKey s i
  kept : regsKept (· = Reg.MAC_SLOT j) s t
  parts : changesOnly [.regs, .mac] s t

theorem slotKey_of_keys (h : tget (fun _ => (0 : BitVec 256)) t.mac.keys j = tget (fun _ => 0) s.mac.keys j) : slotKey t j = slotKey s j := by
  rw [slotKey, slotKey, h]

/-- The keys and the old copies with a new key in its slot. -/
def keyIn (k v : Nat) (key : BitVec 256) (s : State) : State :=
  { s with mac := { s.mac with
    keys := tset (fun _ => 0) (4 * k + v) key s.mac.keys
    old := if decide (keyState s (4 * k + v) = keyLoaded) then tset (fun _ => 0) (4 * k + v) (slotKey s (4 * k + v)) s.mac.old else s.mac.old
    bound := if decide (keyState s (4 * k + v) = keyLoaded) then s.mac.bound ++ boundReads s (4 * k + v) else s.mac.bound
    kcv := tset (fun _ => 0) (4 * k + v) (Config.kcvOf key) s.mac.kcv } }

theorem keyIn_spec (k v : Nat) (key : BitVec 256) (s : State) :
    (keyIn k v key s).regs = s.regs ∧ (keyIn k v key s).mac.keys = tset (fun _ => 0) (4 * k + v) key s.mac.keys ∧
      (keyIn k v key s).mac.gens = s.mac.gens ∧ changesOnly [.mac] s (keyIn k v key s) := ⟨rfl, rfl, rfl, .mac (.refl _ s)⟩

theorem putKey_eq (k v : Nat) (key : BitVec 256) (host : Bool) (s : State) :
    putKey k v key host s = setF (F.MAC_SLOT_SOURCE (4 * k + v)) (if host then 1 else 0)
      (setF (F.MAC_SLOT_STATE (4 * k + v)) (if decide (keyState s (4 * k + v) = keyLoaded) then keyRetiring else keyLoaded)
        (setGen (4 * k + v) (genOf s (4 * k + v) + 1) (keyIn k v key s))) := rfl

theorem keyPut_putKey (hk : k < 64) (hv : v < 4) (key : BitVec 256) (host : Bool) (s : State) :
    KeyPut (4 * k + v) key (if host then 1 else 0) s (putKey k v key host s) := by
  rw [putKey_eq]
  have hj : 4 * k + v < 256 := by omega
  generalize hjd : 4 * k + v = j at *
  obtain ⟨regs, keys, gens, parts⟩ := keyIn_spec k v key s
  rw [hjd] at keys
  generalize keyIn k v key s = x at *
  obtain ⟨gen, genF, -, kept, gparts, mac⟩ := setGen_spec j (genOf s j + 1) x
  generalize setGen j (genOf s j + 1) x = y at *
  have hstate : (F.MAC_SLOT_STATE j).ok := by simp [Fld.ok]
  have hsrc : (F.MAC_SLOT_SOURCE j).ok := by simp [Fld.ok]
  have ykeys : y.mac.keys = tset (fun _ => 0) j key s.mac.keys := by rw [mac]; exact keys
  generalize hz : setF (F.MAC_SLOT_SOURCE j) (if host then 1 else 0)
    (setF (F.MAC_SLOT_STATE j) (if decide (keyState s j = keyLoaded) then keyRetiring else keyLoaded) y) = z
  have zmac : z.mac = y.mac := by rw [← hz, setF_mac, setF_mac]
  exact
    { key := by rw [slotKey, if_neg (by omega), zmac, ykeys, tget_tset_same]
      state := by
        rw [keyState, ← hz, getF_setF_apart _ _ _ _ hsrc (.inl (by simp)), getF_setF_same _ _ _ hstate]
        by_cases h : keyState s j = keyLoaded <;> simp [h] <;> decide
      gen := by rw [genOf, zmac]; exact gen
      genF := by
        rw [← hz, getF_setF_apart _ _ _ _ hsrc (.inr (by simp)), getF_setF_apart _ _ _ _ hstate (.inr (by simp))]
        exact genF
      source := by
        rw [← hz, getF_setF_same _ _ _ hsrc]
        cases host <;> rfl
      others := fun i hi => slotKey_of_keys (by rw [zmac, ykeys, tget_tset_ne _ _ _ hi])
      kept := hz ▸ .setF (.setF ((regsKept.of_regs regs).trans kept) (F.MAC_SLOT_STATE j) _ rfl) (F.MAC_SLOT_SOURCE j) _ rfl
      parts := hz ▸ .setF (.setF ((parts.mono (by decide)).trans gparts) _ _) _ _ }

/-- GENERATE and LOAD on the state that the session gives them. -/
def newKeyIn (k v : Nat) (restore host : Bool) (key : BitVec 256) (c : Conn) (s : State) : State :=
  match newKeyRefusal k v (if restore then some key else none) s with
  | some r => keyAnswer c k r (some (tget (fun _ => 0) s.mac.kcv (4 * k + v))) s
  | none => keyAnswer c k keyOk (some (Config.kcvOf key)) (putKey k v key host s)

theorem newKey_eq (k v : Nat) (restore host : Bool) (key : BitVec 256) (s : State) :
    newKey k v restore host key s = inSession k v (newKeyIn k v restore host key) s := rfl

theorem newKeyIn_of_refused {restore host : Bool} {key : BitVec 256}
    (h : newKeyRefusal k v (if restore then some key else none) s = some r) :
    newKeyIn k v restore host key c s = keyAnswer c k r (some (tget (fun _ => 0) s.mac.kcv (4 * k + v))) s := by
  rw [newKeyIn, h]

theorem newKeyIn_of_taken {restore host : Bool} {key : BitVec 256}
    (h : newKeyRefusal k v (if restore then some key else none) s = none) :
    newKeyIn k v restore host key c s = keyAnswer c k keyOk (some (Config.kcvOf key)) (putKey k v key host s) := by
  rw [newKeyIn, h]

/-! ### SET_CURRENT -/

/-- SET_CURRENT on the state that the session gives it. -/
def setCurrentIn (k v : Nat) (c : Conn) (s : State) : State :=
  if keyState s (4 * k + v) = keyRetiring ∨ tileBusy s k then keyAnswer c k keyBusy none s
  else if keyState s (4 * k + v) ≠ keyLoaded then keyAnswer c k keyNotLoaded none s
  else keyAnswer c k keyOk none
    { s with mac := { s.mac with curDue := s.mac.curDue.filter (fun p => p.1 != k) ++ [(k, v)] } }

theorem setCurrent_eq (k v : Nat) (s : State) : setCurrent k v s = inSession k v (setCurrentIn k v) s := rfl

theorem setCurrentIn_of_refused (h : (keyState s (4 * k + v) = keyRetiring ∨ tileBusy s k = true) ∧ r = keyBusy ∨
    keyState s (4 * k + v) ≠ keyRetiring ∧ tileBusy s k = false ∧ keyState s (4 * k + v) ≠ keyLoaded ∧ r = keyNotLoaded) :
    setCurrentIn k v c s = keyAnswer c k r none s := by
  rcases h with ⟨h, rfl⟩ | ⟨h1, h2, h3, rfl⟩
  · exact if_pos h
  · exact (if_neg (by simp [h1, h2])).trans (if_pos h3)

theorem setCurrentIn_of_loaded (hl : keyState s (4 * k + v) = keyLoaded) (hb : tileBusy s k = false) :
    setCurrentIn k v c s = keyAnswer c k keyOk none
      { s with mac := { s.mac with curDue := s.mac.curDue.filter (fun p => p.1 != k) ++ [(k, v)] } } :=
  (if_neg (by simp [hl, hb, keyLoaded, keyRetiring])).trans (if_neg (by simp [hl]))

/-! ### An erase -/

theorem eraseSlot_of_not (h1 : keyState s j ≠ keyLoaded) (h2 : keyState s j ≠ keyRetiring) : eraseSlot j s = s :=
  if_neg (by simp [h1, h2])

theorem eraseSlot_spec (h : keyState s j = keyLoaded ∨ keyState s j = keyRetiring) :
    keyState (eraseSlot j s) j = keyErased ∧ j ∈ (eraseSlot j s).mac.eraseDue ∧
      genOf (eraseSlot j s) j = min (2 ^ 32 - 1) (genOf s j + 1) ∧ changesOnly [.regs, .mac] s (eraseSlot j s) := by
  have heq : ∃ y : State, y = setGen j (min (2 ^ 32 - 1) (genOf s j + 1)) (setF (F.MAC_SLOT_STATE j) keyErased s) ∧
      eraseSlot j s = { y with mac := { y.mac with eraseDue := insertNat j y.mac.eraseDue } } := ⟨_, rfl, if_pos h⟩
  obtain ⟨y, hy, heq⟩ := heq
  obtain ⟨gen, -, state, -, parts, -⟩ := setGen_spec j (min (2 ^ 32 - 1) (genOf s j + 1)) (setF (F.MAC_SLOT_STATE j) keyErased s)
  rw [← hy] at gen state parts
  have erased : keyState (setF (F.MAC_SLOT_STATE j) keyErased s) j = keyErased := by
    rw [keyState, getF_setF_same _ _ _ (by simp [Fld.ok])]
    rfl
  have yparts : changesOnly [.regs, .mac] s y := (changesOnly.setF (.refl [.regs, .mac] s) (F.MAC_SLOT_STATE j) keyErased).trans parts
  rw [heq]
  exact ⟨(getF_congr (s := y) _).trans (state.trans erased), mem_insertNat.mpr (.inl rfl), gen, .mac yparts⟩

/-- KEY_ERASE on the state that the session gives it. -/
def keyEraseIn (k v : Nat) (c : Conn) (s : State) : State :=
  if tileBusy s k then keyAnswer c k keyBusy none s else keyAnswer c k keyOk none (eraseSlot (4 * k + v) s)

theorem keyEraseDo_eq (k v : Nat) (s : State) : keyEraseDo k v s = inSession k v (keyEraseIn k v) s := rfl

end Sys2Proof.Machine
end

/-! ## Keys, erasure and the random generator: the statement (R313 to R316, R318, R320, R321, R323, R333, R352) -/

section

-- One proof after another: elaborated side by side, the proofs of this text take more memory than its check allows.
set_option Elab.async false

namespace Sys2Proof.Machine

variable {s t u : State} {k v j r e : Nat} {c : Conn}

/-! ### The slots settle (R317) -/

/-- What a settling of the slots leaves: the current versions, the copies, what is due, and the LOADED slots. -/
structure Settled (s t : State) : Prop where
  cur : ∀ i, i < 64 → curVer t i = curVer s i
  keys : t.mac.keys = s.mac.keys
  old : t.mac.old = s.mac.old
  eraseDue : t.mac.eraseDue = s.mac.eraseDue
  curDue : t.mac.curDue = s.mac.curDue
  loaded : ∀ i, i < 256 → keyState s i = keyLoaded → keyState t i = keyLoaded

namespace Settled

theorem refl (s : State) : Settled s s := ⟨fun _ _ => rfl, rfl, rfl, rfl, rfl, fun _ _ h => h⟩

theorem trans (h : Settled s t) (k : Settled t u) : Settled s u :=
  ⟨fun i hi => (k.cur i hi).trans (h.cur i hi), k.keys.trans h.keys, k.old.trans h.old, k.eraseDue.trans h.eraseDue,
    k.curDue.trans h.curDue, fun i hi hl => k.loaded i hi (h.loaded i hi hl)⟩

theorem foldl {g : State → Nat → State} {l : List Nat} (h : ∀ t, ∀ x ∈ l, Settled t (g t x)) (s : State) : Settled s (l.foldl g s) :=
  List.foldlRecOn (motive := Settled s) l g (refl s) fun t ht x hx => ht.trans (h t x hx)

end Settled

/-- A STATE field whose highest bit is cleared reads LOADED still. -/
theorem loaded_of_cleared {a : Nat} (h : getF s ⟨a, 0, 3⟩ = keyLoaded) : getF (setF ⟨a, 2, 1⟩ 0 s) ⟨a, 0, 3⟩ = keyLoaded := by
  have hok : (⟨a, 2, 1⟩ : Fld).ok := by simp [Fld.ok]
  have split : ∀ t : State, getF t ⟨a, 0, 3⟩ = getF t ⟨a, 0, 2⟩ + 4 * getF t ⟨a, 2, 1⟩ := fun t => by
    simp only [getF, bitsOf]
    omega
  have low : getF (setF ⟨a, 2, 1⟩ 0 s) ⟨a, 0, 2⟩ = getF s ⟨a, 0, 2⟩ := getF_setF_apart _ _ _ _ hok (.inl (by simp))
  have high : getF (setF ⟨a, 2, 1⟩ 0 s) ⟨a, 2, 1⟩ = 0 := getF_setF_same _ _ _ hok
  have before := split s
  have two : getF s ⟨a, 2, 1⟩ < 2 := getF_lt s ⟨a, 2, 1⟩
  rw [split, low, high]
  unfold keyLoaded at *
  omega

/-- A slot whose key is gone, and that tags nothing, is EMPTY. -/
def slotEmptied (k : Nat) (s : State) : State :=
  { setF (F.MAC_SLOT_STATE k) keyEmpty s with mac := { (setF (F.MAC_SLOT_STATE k) keyEmpty s).mac with
    kcv := terase k (setF (F.MAC_SLOT_STATE k) keyEmpty s).mac.kcv } }

theorem slotEmptied_spec (k : Nat) (s : State) :
    (slotEmptied k s).regs = (setF (F.MAC_SLOT_STATE k) keyEmpty s).regs ∧ (slotEmptied k s).mac.keys = s.mac.keys ∧
      (slotEmptied k s).mac.old = s.mac.old ∧ (slotEmptied k s).mac.eraseDue = s.mac.eraseDue ∧
      (slotEmptied k s).mac.curDue = s.mac.curDue := ⟨rfl, rfl, rfl, rfl, rfl⟩

theorem settled_slotEmptied (hgone : keyGone s k = true) : Settled s (slotEmptied k s) := by
  obtain ⟨regs, keys, old, eraseDue, curDue⟩ := slotEmptied_spec k s
  have erased : keyState s k = keyErased := by
    have := (Bool.and_eq_true_iff.mp hgone).1
    exact of_decide_eq_true this
  have kept : regsKept (· = Reg.MAC_SLOT k) s (setF (F.MAC_SLOT_STATE k) keyEmpty s) := .setF (.refl s) _ _ rfl
  refine ⟨fun i hi => (getF_congr _ regs).trans (kept.getF ?_), keys, old, eraseDue, curDue, fun i hi hl => ?_⟩
  · exact (slot_ne_tile hi).symm
  · have hne : i ≠ k := fun e => by
      subst e
      rw [erased] at hl
      exact absurd hl (by decide)
    refine ((getF_congr _ regs).trans (kept.getF ?_)).trans hl
    simp only [Reg.MAC_SLOT]
    omega

/-- The sweep of a tile has ended. -/
def swept (k : Nat) (s : State) : State :=
  { setF (F.MAC_TILE_KEY_SWEEPING k) 0 s with mac := { (setF (F.MAC_TILE_KEY_SWEEPING k) 0 s).mac with
    sweeping := removeNat k (setF (F.MAC_TILE_KEY_SWEEPING k) 0 s).mac.sweeping } }

theorem swept_spec (k : Nat) (s : State) :
    (swept k s).regs = (setF (F.MAC_TILE_KEY_SWEEPING k) 0 s).regs ∧ (swept k s).mac.keys = s.mac.keys ∧
      (swept k s).mac.old = s.mac.old ∧ (swept k s).mac.eraseDue = s.mac.eraseDue ∧ (swept k s).mac.curDue = s.mac.curDue :=
  ⟨rfl, rfl, rfl, rfl, rfl⟩

theorem settled_swept (k : Nat) (s : State) : Settled s (happen baseMac 4 (swept k s)) := by
  obtain ⟨regs, keys, old, eraseDue, curDue⟩ := swept_spec k s
  have mac : (happen baseMac 4 (swept k s)).mac = (swept k s).mac := happen_mac ..
  have hok : (F.MAC_TILE_KEY_SWEEPING k).ok := by simp [Fld.ok]
  have quiet : ∀ a, 0x12200 ≤ a → a < 0x12800 → quietReg a = true := fun a h1 h2 => by
    simp only [quietReg, decide_eq_true_eq]
    omega
  refine ⟨fun i hi => ?_, by rw [mac, keys], by rw [mac, old], by rw [mac, eraseDue], by rw [mac, curDue], fun i hi hl => ?_⟩
  · refine (getF_happen (quiet _ ?_ ?_) (by decide) (by decide)).trans ((getF_congr _ regs).trans (getF_setF_apart _ _ _ _ hok (.inl (by simp)))) <;>
      simp only [Reg.MAC_TILE_KEY] <;> omega
  · have field : keyState (happen baseMac 4 (swept k s)) i = keyState (setF (F.MAC_TILE_KEY_SWEEPING k) 0 s) i := by
      refine (getF_happen (quiet _ ?_ ?_) (by decide) (by decide)).trans (getF_congr _ regs) <;> simp only [Reg.MAC_SLOT] <;> omega
    rw [field]
    by_cases ha : Reg.MAC_SLOT i = Reg.MAC_TILE_KEY k
    · have same : F.MAC_SLOT_STATE i = ⟨Reg.MAC_TILE_KEY k, 0, 3⟩ := congrArg (fun a => (⟨a, 0, 3⟩ : Fld)) ha
      rw [keyState, same] at hl ⊢
      exact loaded_of_cleared hl
    · exact (getF_setF_ne _ _ _ _ ha).trans hl

theorem keysSettle_eq (h : s.map.loaded = true) :
    keysSettle s = ((List.range 256).foldl (fun t k => if keyGone t k ∧ taggedOf t (k / 4) (k % 4) = 0 then slotEmptied k t else t) s).mac.sweeping.foldl
      (fun t k => if (List.range 4).all (fun v => v == curVer t k || decide (keyState t (4 * k + v) ≠ keyLoaded) || decide (taggedOf t k v = 0)) then
        happen baseMac 4 (swept k t) else t)
      ((List.range 256).foldl (fun t k => if keyGone t k ∧ taggedOf t (k / 4) (k % 4) = 0 then slotEmptied k t else t) s) := by
  rw [keysSettle, h]
  rfl

theorem keysSettle_of_unloaded (h : s.map.loaded = false) : keysSettle s = s := by
  rw [keysSettle, h]
  rfl

theorem settled_keysSettle (s : State) : Settled s (keysSettle s) := by
  by_cases h : s.map.loaded = true
  · rw [keysSettle_eq h]
    refine (Settled.foldl (fun t k _ => ?_) s).trans (.foldl (fun t k _ => ?_) _)
    · split
      · next hg => exact settled_slotEmptied hg.1
      · exact .refl t
    · split
      · exact settled_swept k t
      · exact .refl t
  · rw [keysSettle_of_unloaded (Bool.eq_false_iff.mpr h)]
    exact .refl s

/-! ### The switch at the boundary (R320) -/

/-- The version due is current, and the sweep begins. -/
def switched (k v : Nat) (s : State) : State :=
  setF (F.MAC_TILE_KEY_SWEEPING k) 1 (setF (F.MAC_TILE_KEY_CUR k) v
    { s with mac := { s.mac with curDue := s.mac.curDue.filter (fun p => p.1 != k), sweeping := insertNat k s.mac.sweeping } })

theorem currentSwitch_of_some {w : Nat} (h : s.mac.curDue.find? (fun p => p.1 == k) = some (w, v)) :
    currentSwitch k s = keysSettle (switched k v s) := by
  rw [currentSwitch, h]
  rfl

theorem switched_spec (hv : v < 4) (k : Nat) (s : State) :
    curVer (switched k v s) k = v ∧ (∀ i, i ≠ k → curVer (switched k v s) i = curVer s i) ∧
      getF (switched k v s) (F.MAC_TILE_KEY_SWEEPING k) = 1 ∧ (switched k v s).mac.curDue = s.mac.curDue.filter (fun p => p.1 != k) ∧
      (switched k v s).map = s.map := by
  have hsweep : (F.MAC_TILE_KEY_SWEEPING k).ok := by simp [Fld.ok]
  have hcur : (F.MAC_TILE_KEY_CUR k).ok := by simp [Fld.ok]
  unfold switched
  generalize hx : ({ s with mac := { s.mac with
    curDue := s.mac.curDue.filter (fun p => p.1 != k), sweeping := insertNat k s.mac.sweeping } } : State) = x
  have regs : x.regs = s.regs := hx ▸ rfl
  have due : x.mac.curDue = s.mac.curDue.filter (fun p => p.1 != k) := hx ▸ rfl
  have map : x.map = s.map := hx ▸ rfl
  refine ⟨?_, fun i hi => ?_, ?_, by rw [setF_mac, setF_mac, due], by rw [setF_map, setF_map, map]⟩
  · rw [curVer, getF_setF_apart _ _ _ _ hsweep (.inl (by simp)), getF_setF_same _ _ _ hcur]
    exact Nat.mod_eq_of_lt hv
  · have hne : Reg.MAC_TILE_KEY i ≠ Reg.MAC_TILE_KEY k := by simp only [Reg.MAC_TILE_KEY]; omega
    rw [curVer, getF_setF_ne _ _ _ _ hne, getF_setF_ne _ _ _ _ hne, getF_congr _ regs, curVer]
  · rw [getF_setF_same _ _ _ hsweep]
    rfl

/-! ### The effect of an erase, and an old copy retired (R316, R318) -/

/-- The copies of a slot are zeroised. -/
def zeroised (k : Nat) (s : State) : State :=
  { s with mac := { s.mac with keys := terase k s.mac.keys, old := terase k s.mac.old, eraseDue := removeNat k s.mac.eraseDue } }

theorem zeroised_spec (k : Nat) (s : State) :
    (zeroised k s).mac.keys = terase k s.mac.keys ∧ (zeroised k s).mac.old = terase k s.mac.old ∧
      (zeroised k s).mac.eraseDue = removeNat k s.mac.eraseDue := ⟨rfl, rfl, rfl⟩

/-- Whatever reads, writes and slots an erase ends before, its effect zeroises the copies and is told. -/
theorem eraseEffect_eq (h : j ∈ s.mac.eraseDue) : ∃ x : State, eraseEffect j s = mbxSettle (happen baseMac 3 (keysSettle (zeroised j x))) := by
  unfold eraseEffect
  rw [if_neg (by simpa using h)]
  extract_lets s1 s2 lost s3 m
  exact ⟨s3, rfl⟩

theorem eraseEffect_of_not (h : j ∉ s.mac.eraseDue) : eraseEffect j s = s := if_pos (by simpa using h)

theorem mbxSettle_spec (s : State) : (mbxSettle s).mac = s.mac ∧ raisedKept s (mbxSettle s) := by
  have ended : ∀ (t : State), (mbxEnd 0 t).mac = t.mac ∧ raisedKept t (mbxEnd 0 t) := fun t => by
    unfold mbxEnd
    exact ⟨by rw [happen_mac, setF_mac, setF_mac], .happen (.setF (.setF (.congr (.refl t)) _ _) _ _) baseSec 15⟩
  have opened : ∀ n, (openScopes n s).mac = s.mac ∧ raisedKept s (openScopes n s) := fun n => by
    unfold openScopes
    exact ⟨by rw [happen_mac, setF_mac], .happen (.setF (.congr (.refl s)) _ _) baseSec 8⟩
  unfold mbxSettle
  split
  · next op n _ =>
    split
    · exact ⟨rfl, .refl s⟩
    · split
      · obtain ⟨mac, stays⟩ := ended (openScopes n s)
        exact ⟨mac.trans (opened n).1, (opened n).2.trans stays⟩
      · exact ended s
  · exact ⟨rfl, .refl s⟩

theorem eraseEffect_spec (h : j ∈ s.mac.eraseDue) :
    tget (fun _ => 0) (eraseEffect j s).mac.keys j = 0 ∧ tget (fun _ => 0) (eraseEffect j s).mac.old j = 0 ∧
      j ∉ (eraseEffect j s).mac.eraseDue ∧ raised baseMac 3 (eraseEffect j s) = true := by
  obtain ⟨x, heq⟩ := eraseEffect_eq h
  rw [heq]
  obtain ⟨keys, old, due⟩ := zeroised_spec j x
  generalize zeroised j x = y at *
  have settled := settled_keysSettle y
  generalize keysSettle y = z at *
  have told : raised baseMac 3 (happen baseMac 3 z) = true := raised_happen _ _ _ (by decide) (by decide) (by decide) (by decide)
  obtain ⟨mac, stays⟩ := mbxSettle_spec (happen baseMac 3 z)
  have all : (mbxSettle (happen baseMac 3 z)).mac = z.mac := mac.trans (happen_mac ..)
  refine ⟨?_, ?_, ?_, stays _ _ (by decide) (by decide) (by decide) told⟩
  · rw [all, settled.keys, keys, tget_terase_same]
  · rw [all, settled.old, old, tget_terase_same]
  · rw [all, settled.eraseDue, due]
    exact not_mem_removeNat j _

theorem oldRetired_of_not (h : keyState s j ≠ keyRetiring) : oldRetired j s = s := if_pos (.inl h)

/-- The old copy of a slot is zeroised. -/
def oldGone (j : Nat) (s : State) : State :=
  setF (F.MAC_SLOT_STATE j) keyLoaded
    { s with mac := { s.mac with old := terase j s.mac.old, bound := s.mac.bound.filter (fun i => hasRd s i) } }

theorem oldGone_spec (j : Nat) (s : State) : keyState (oldGone j s) j = keyLoaded ∧ (oldGone j s).mac.old = terase j s.mac.old := by
  unfold oldGone
  refine ⟨?_, by rw [setF_mac]⟩
  rw [keyState, getF_setF_same _ _ _ (by simp [Fld.ok])]
  rfl

theorem oldRetired_of_done (hs : keyState s j = keyRetiring)
    (h : ∀ i ∈ s.mac.bound, hasRd s i = true → 4 * (getRd s i).tile + entKver (getRd s i).entry ≠ j) :
    oldRetired j s = keysSettle (oldGone j s) := by
  refine if_neg ?_
  rintro (hno | hany)
  · exact hno hs
  · obtain ⟨i, hi, hj⟩ := List.any_eq_true.mp hany
    obtain ⟨hmem, hrd⟩ := List.mem_filter.mp hi
    exact h i hmem hrd (of_decide_eq_true hj)

end Sys2Proof.Machine
end

/-! ## Engines and randomness, and the statement on keys (R313 to R316, R318, R320, R321, R323, R333, R352) -/

section

-- One proof after another: elaborated side by side, the proofs of this text take more memory than its check allows.
set_option Elab.async false

namespace Sys2Proof.Machine

variable {s t u : State} {k v j r e fn : Nat} {c : Conn}

/-! ### Engines and randomness -/

theorem macKat_of_not {ok : Bool} (h : isSet s F.MAC_CFG_KAT_EPOCH = false ∨ ok = true ∨ 12 ≤ e ∨ running s = false) : macKat e ok s = s := by
  refine if_pos ?_
  rcases h with h | h | h | h <;> simp [h]

/-- An engine is out of service. -/
def engineOut (i : Nat) (s : State) : State := happen baseMac 7 (showEngines (setF (bitF Reg.MAC_ENGINE_OK i) 0 s))

theorem engineOut_spec {i : Nat} (hi : i < 16) (s : State) :
    bitsOf (getR (engineOut i s) Reg.MAC_ENGINE_OK) i 1 = 0 ∧ raised baseMac 7 (engineOut i s) = true ∧
      regsKeptE (fun a => a = Reg.MAC_ENGINE_OK ∨ a = Reg.MAC_STATUS) s (engineOut i s) ∧ changesOnly eventParts s (engineOut i s) := by
  have hok : (bitF Reg.MAC_ENGINE_OK i).ok := by simp only [Fld.ok, bitF]; omega
  unfold engineOut
  have out : getF (setF (bitF Reg.MAC_ENGINE_OK i) 0 s) (bitF Reg.MAC_ENGINE_OK i) = 0 := getF_setF_same _ _ _ hok
  have base : regsKeptE (fun a => a = Reg.MAC_ENGINE_OK ∨ a = Reg.MAC_STATUS) s (setF (bitF Reg.MAC_ENGINE_OK i) 0 s) :=
    .setF (.refl s) _ _ (.inl rfl)
  have bparts : changesOnly eventParts s (setF (bitF Reg.MAC_ENGINE_OK i) 0 s) := .setF (.refl _ s) _ _
  generalize setF (bitF Reg.MAC_ENGINE_OK i) 0 s = x at *
  obtain ⟨kept, -, parts, -⟩ := showEngines_spec x
  generalize showEngines x = y at *
  refine ⟨?_, raised_happen _ _ _ (by decide) (by decide) (by decide) (by decide),
    .happen (base.trans (kept.mono fun _ h => .inr h).toE) baseMac 7, .happen (bparts.trans (parts.mono (by decide))) baseMac 7⟩
  rw [getR_happen (by decide) (by decide) (by decide), kept.getR (by decide)]
  exact out

section

variable (hkat : isSet s F.MAC_CFG_KAT_EPOCH = true) (hrun : running s = true)
include hkat hrun

theorem macKat_of_write (he : e < 5) : macKat e false s = engineOut e s :=
  (if_neg (by simp [hkat, hrun]; omega)).trans (if_pos he)

theorem macKat_of_read (h5 : 5 ≤ e) (he : e < 10) : macKat e false s = engineOut (e + 3) s :=
  (if_neg (by simp [hkat, hrun]; omega)).trans ((if_neg (by omega)).trans (if_pos he))

theorem macKat_of_iterated (h10 : 10 ≤ e) (he : e < 12) : macKat e false s = happen baseMac 7 s :=
  (if_neg (by simp [hkat, hrun]; omega)).trans ((if_neg (by omega)).trans (if_neg (by omega)))

end

/-- A bit of a field is a bit of its register. -/
theorem bitsOf_getF {f : Fld} {i : Nat} (hi : i < f.w) (s : State) : bitsOf (getF s f) i 1 = bitsOf (getR s f.addr) (f.lo + i) 1 := by
  rw [bitsOf_one, bitsOf_one, getF, bitsOf, Nat.testBit_mod_two_pow, Nat.testBit_div_two_pow, Nat.add_comm i f.lo]
  simp [hi]

theorem maskReseed_of_not (h : 12 ≤ e) : maskReseed e s = s := if_pos h

theorem maskReseed_spec (h : e < 12) (s : State) :
    (maskReseed e s).mac = { s.mac with drbg := s.mac.drbg + 1 } ∧
      (isSet s F.MAC_STATUS_ENTROPY_OK = true → changesOnly [.mac] s (maskReseed e s)) ∧
      (isSet s F.MAC_STATUS_ENTROPY_OK = false → getF (maskReseed e s) F.MAC_DRBG_LEFT_COUNT = getF s F.MAC_DRBG_LEFT_COUNT - 1 ∧
        regsKept (· = Reg.MAC_DRBG_LEFT) s (maskReseed e s)) := by
  obtain ⟨x, regs, mac, parts, heq⟩ : ∃ x : State, x.regs = s.regs ∧ x.mac = { s.mac with drbg := s.mac.drbg + 1 } ∧ changesOnly [.mac] s x ∧
      maskReseed e s = if isSet x F.MAC_STATUS_ENTROPY_OK then x else setF F.MAC_DRBG_LEFT_COUNT (getF x F.MAC_DRBG_LEFT_COUNT - 1) x :=
    ⟨{ s with mac := { s.mac with drbg := s.mac.drbg + 1 } }, rfl, rfl, .mac (.refl _ s), if_neg (by omega)⟩
  have left : getF x F.MAC_DRBG_LEFT_COUNT = getF s F.MAC_DRBG_LEFT_COUNT := getF_congr _ regs
  rw [heq, isSet_of_getF (getF_congr _ regs), left]
  refine ⟨?_, fun h => ?_, fun h => ?_⟩
  · split
    · exact mac
    · rw [setF_mac, mac]
  · rw [if_pos h]
    exact parts
  · rw [if_neg (by simp [h])]
    refine ⟨?_, .setF (.of_regs regs) _ _ rfl⟩
    rw [getF_setF_same _ _ _ (by unfold Fld.ok; decide)]
    exact Nat.mod_eq_of_lt (lt_of_le_of_lt (Nat.sub_le _ _) (getF_lt s F.MAC_DRBG_LEFT_COUNT))

/-- New MAC operations are refused. -/
theorem drbgExhausted_spec (h0 : getF s F.MAC_DRBG_LEFT_COUNT = 0) (hr : isSet s F.MAC_STATUS_REFUSING = false) :
    isSet (drbgExhaustedDo s) F.MAC_STATUS_REFUSING = true ∧ readSideUp (drbgExhaustedDo s) = false ∧
      writeSideUp (drbgExhaustedDo s) = false ∧ raised baseMac 1 (drbgExhaustedDo s) = true ∧
      regsKeptE (· = Reg.MAC_STATUS) s (drbgExhaustedDo s) ∧ changesOnly eventParts s (drbgExhaustedDo s) := by
  have heq : drbgExhaustedDo s = happen baseMac 1 (setF F.MAC_STATUS_REFUSING 1 s) := if_pos ⟨h0, by simp [hr]⟩
  rw [heq]
  have refusing : isSet (happen baseMac 1 (setF F.MAC_STATUS_REFUSING 1 s)) F.MAC_STATUS_REFUSING = true := by
    rw [isSet, getF_happen (by decide) (by decide) (by decide), getF_setF_same _ _ _ (by unfold Fld.ok; decide)]
    rfl
  refine ⟨refusing, by rw [readSideUp, refusing]; rfl, by rw [writeSideUp, refusing]; rfl,
    raised_happen _ _ _ (by decide) (by decide) (by decide) (by decide), ?_, .happen (.setF (.refl _ s) _ _) baseMac 1⟩
  exact regsKeptE.happen (but := (· = Reg.MAC_STATUS)) (.setF (.refl s) _ _ rfl) baseMac 1

/-- The entropy tests fail. -/
theorem entropyTest_fails (h : isSet s F.MAC_STATUS_ENTROPY_OK = true) :
    isSet (entropyTest false s) F.MAC_STATUS_ENTROPY_OK = false ∧ raised baseMac 0 (entropyTest false s) = true ∧
      regsKeptE (· = Reg.MAC_STATUS) s (entropyTest false s) := by
  obtain ⟨x, regs, heq⟩ : ∃ x : State, x.regs = s.regs ∧ entropyTest false s = happen baseMac 0 (setF F.MAC_STATUS_ENTROPY_OK 0 x) :=
    ⟨{ s with mac := { s.mac with resume := false } }, rfl, (if_neg (by decide)).trans (if_pos h)⟩
  rw [heq]
  refine ⟨?_, raised_happen _ _ _ (by decide) (by decide) (by decide) (by decide), ?_⟩
  · rw [isSet, getF_happen (by decide) (by decide) (by decide), getF_setF_same _ _ _ (by unfold Fld.ok; decide)]
    rfl
  · exact regsKeptE.happen (but := (· = Reg.MAC_STATUS)) (.setF (.of_regs regs) _ _ rfl) baseMac 0

/-- The entropy tests pass again. -/
theorem entropyTest_passes (h : isSet s F.MAC_STATUS_ENTROPY_OK = false) :
    isSet (entropyTest true s) F.MAC_STATUS_ENTROPY_OK = true ∧ getF (entropyTest true s) F.MAC_DRBG_LEFT_COUNT = 0xFFFFFFFF ∧
      (entropyTest true s).mac.drbg = 0 ∧ (entropyTest true s).mac.resume = isSet s F.MAC_STATUS_REFUSING ∧
      regsKept (fun a => a = Reg.MAC_STATUS ∨ a = Reg.MAC_DRBG_LEFT) s (entropyTest true s) ∧
      changesOnly [.regs, .mac] s (entropyTest true s) := by
  obtain ⟨x, regs, drbg, resume, parts, heq⟩ : ∃ x : State, x.regs = s.regs ∧ x.mac.drbg = 0 ∧ x.mac.resume = isSet s F.MAC_STATUS_REFUSING ∧
      changesOnly [.mac] s x ∧ entropyTest true s = setF F.MAC_STATUS_ENTROPY_OK 1 (setF F.MAC_DRBG_LEFT_COUNT 0xFFFFFFFF x) :=
    ⟨{ s with mac := { s.mac with drbg := 0, resume := isSet s F.MAC_STATUS_REFUSING } }, rfl, rfl, rfl, .mac (.refl _ s),
      (if_pos rfl).trans (if_neg (by simp [h]))⟩
  rw [heq]
  refine ⟨?_, ?_, by rw [setF_mac, setF_mac, drbg], by rw [setF_mac, setF_mac, resume], ?_, .setF (.setF (parts.mono (by decide)) _ _) _ _⟩
  · rw [isSet, getF_setF_same _ _ _ (by unfold Fld.ok; decide)]
    rfl
  · rw [getF_setF_ne _ _ _ _ (by decide), getF_setF_same _ _ _ (by unfold Fld.ok; decide)]
    rfl
  · exact .setF (.setF (.of_regs regs) _ _ (.inr rfl)) _ _ (.inl rfl)

/-- The write-sequence counter has reached its limit. -/
theorem wseqLimit_spec (hw : 2 ^ 56 - 2 ^ 32 ≤ s.map.wseq) (hno : isSet s F.MAC_STATUS_WSEQ_LIMIT = false) :
    isSet (wseqLimit s) F.MAC_STATUS_WSEQ_LIMIT = true ∧ isSet (wseqLimit s) F.TOP_MODE_CAUSE_EVAC_WSEQ = true ∧
      raised baseMac 2 (wseqLimit s) = true ∧ regsKeptE (fun a => a = Reg.MAC_STATUS ∨ a = Reg.TOP_MODE_CAUSE) s (wseqLimit s) ∧
      changesOnly eventParts s (wseqLimit s) := by
  have heq : wseqLimit s = setF F.TOP_MODE_CAUSE_EVAC_WSEQ 1 (happen baseMac 2 (setF F.MAC_STATUS_WSEQ_LIMIT 1 s)) :=
    if_pos ⟨hw, by simp [hno]⟩
  rw [heq]
  have told : raised baseMac 2 (happen baseMac 2 (setF F.MAC_STATUS_WSEQ_LIMIT 1 s)) = true :=
    raised_happen _ _ _ (by decide) (by decide) (by decide) (by decide)
  refine ⟨?_, ?_, ?_, ?_, .setF (.happen (.setF (.refl _ s) _ _) baseMac 2) _ _⟩
  · rw [isSet, getF_setF_ne _ _ _ _ (by decide), getF_happen (by decide) (by decide) (by decide),
      getF_setF_same _ _ _ (by unfold Fld.ok; decide)]
    rfl
  · rw [isSet, getF_setF_same _ _ _ (by unfold Fld.ok; decide)]
    rfl
  · rw [raised_of_rd (rd_setF_ne _ _ _ (by decide)), told]
  · exact .setF (.happen (.setF (.refl s) F.MAC_STATUS_WSEQ_LIMIT _ (.inl rfl)) baseMac 2) _ _ (.inr rfl)

/-! ### The operations of a session -/

/-- The session of tile `k` is there for its operations. -/
structure KeySession (s : State) (k v fn : Nat) : Prop where
  tile : k < 64
  version : v < 4
  awake : pausing s = false
  running : running s = true
  bound : fnOfTile s k = some fn

namespace KeySession

variable (h : KeySession s k v fn)
include h

theorem tick : KeySession (tick s) k v fn := ⟨h.tile, h.version, h.awake, h.running, h.bound⟩

theorem opened (hs : (getConn s (.storage fn)).sessions ≠ 0) (f : Conn → State → State) :
    inSession k v f s = f (.storage fn) (dropSig (.storage fn) s) :=
  inSession_of_open h.tile h.version h.awake h.running h.bound hs f

theorem closed (hs : (getConn s (.storage fn)).sessions = 0) (f : Conn → State → State) :
    inSession k v f s = spdmErr (.storage fn) errUnexpected s :=
  inSession_of_closed h.tile h.version h.awake h.running h.bound hs f

end KeySession

/-- A refused key: its result, and the copies as they were. -/
theorem newKeyIn_refused {restore host : Bool} {key : BitVec 256} (hr : newKeyRefusal k v (if restore then some key else none) s = some r) :
    getF (newKeyIn k v restore host key c (dropSig c s)) (F.MAC_TILE_KEY_RESULT k) = r ∧
      (newKeyIn k v restore host key c (dropSig c s)).mac = s.mac ∧
      (newKeyIn k v restore host key c (dropSig c s)).out = .spdm c spdmVendor (leBytes 1 r ++
        leBytes 8 (tget (fun _ => 0) s.mac.kcv (4 * k + v) : W64).toNat) :: s.out ∧
      regsKept (· = Reg.MAC_TILE_KEY k) s (newKeyIn k v restore host key c (dropSig c s)) ∧
      changesOnly [.regs, .sec, .out] s (newKeyIn k v restore host key c (dropSig c s)) := by
  rw [newKeyIn_of_refused ((newKeyRefusal_dropSig ..).trans hr)]
  have parts := changesOnly_dropSig c s
  have mac := parts.mac_eq
  have out := parts.out_eq
  have regs := parts.regs_eq
  generalize dropSig c s = x at *
  rw [mac]
  obtain ⟨result, xmac, kept, xparts, -⟩ := keyAnswer_spec (newKeyRefusal_lt hr) c k (some (tget (fun _ => 0) s.mac.kcv (4 * k + v))) x
  exact ⟨result, xmac.trans mac, (keyAnswer_out ..).trans (congrArg _ out), (regsKept.of_regs regs).trans kept,
    (parts.mono (by decide)).trans (xparts.mono (by decide))⟩

/-- A key taken: what its slot holds, and that nothing else of the slots moved. -/
theorem newKeyIn_taken {restore host : Bool} {key : BitVec 256} (hk : k < 64) (hv : v < 4)
    (hr : newKeyRefusal k v (if restore then some key else none) s = none) :
    getF (newKeyIn k v restore host key c (dropSig c s)) (F.MAC_TILE_KEY_RESULT k) = keyOk ∧
      slotKey (newKeyIn k v restore host key c (dropSig c s)) (4 * k + v) = key ∧
      keyState (newKeyIn k v restore host key c (dropSig c s)) (4 * k + v) =
        (if keyState s (4 * k + v) = keyLoaded then keyRetiring else keyLoaded) ∧
      genOf (newKeyIn k v restore host key c (dropSig c s)) (4 * k + v) = genOf s (4 * k + v) + 1 ∧
      getF (newKeyIn k v restore host key c (dropSig c s)) (F.MAC_SLOT_GEN (4 * k + v)) = (genOf s (4 * k + v) + 1) % 2 ^ 24 ∧
      getF (newKeyIn k v restore host key c (dropSig c s)) (F.MAC_SLOT_SOURCE (4 * k + v)) = (if host then 1 else 0) ∧
      (∀ j, j ≠ 4 * k + v → slotKey (newKeyIn k v restore host key c (dropSig c s)) j = slotKey s j) ∧
      regsKept (fun a => a = Reg.MAC_TILE_KEY k ∨ a = Reg.MAC_SLOT (4 * k + v)) s (newKeyIn k v restore host key c (dropSig c s)) ∧
      changesOnly [.regs, .mac, .sec, .out] s (newKeyIn k v restore host key c (dropSig c s)) := by
  rw [newKeyIn_of_taken ((newKeyRefusal_dropSig ..).trans hr)]
  have parts := changesOnly_dropSig c s
  have mac := parts.mac_eq
  have regs := parts.regs_eq
  generalize dropSig c s = x at *
  have put := keyPut_putKey hk hv key host x
  generalize putKey k v key host x = y at *
  obtain ⟨result, zmac, kept, zparts, -⟩ := keyAnswer_spec (by decide : keyOk < 16) c k (some (Config.kcvOf key)) y
  generalize keyAnswer c k keyOk (some (Config.kcvOf key)) y = z at *
  have field : ∀ f : Fld, f.addr = Reg.MAC_SLOT (4 * k + v) → getF z f = getF y f := fun f hf => kept.getF (hf ▸ slot_ne_tile hk)
  have key' : ∀ j, slotKey z j = slotKey y j := fun j => slotKey_of_keys (by rw [zmac])
  have before : genOf x (4 * k + v) = genOf s (4 * k + v) := by rw [genOf, genOf, mac]
  refine ⟨result, (key' _).trans put.key, (field _ rfl).trans ?_, ?_, (field _ rfl).trans ?_, (field _ rfl).trans put.source,
    fun j hj => (key' j).trans ((put.others j hj).trans (slotKey_of_keys (by rw [mac]))), ?_, ?_⟩
  · rw [← keyState, put.state, keyState, getF_congr _ regs, keyState]
  · rw [genOf, zmac, ← genOf, put.gen, before]
  · rw [put.genF, before]
  · exact (regsKept.of_regs regs).trans ((put.kept.mono fun _ h => .inr h).trans (kept.mono fun _ h => .inl h))
  · exact (parts.mono (by decide)).trans ((put.parts.mono (by decide)).trans (zparts.mono (by decide)))

/-- Settles O46: the operations of a session by what they do on the state it gives them, the boundary's by what they and the settling
leave. -/
theorem keysAndRandomnessAreKept : Obligations.KeysAndRandomnessAreKept := by
  unfold Obligations.KeysAndRandomnessAreKept
  intro s
  refine ⟨fun k v fn hk hv hp hrun hfn => ⟨?closed, fun hs => ⟨?newKey, ?refused, ?current, ?busy, ?erased, ?status⟩⟩, ?noSwitch, ?switch,
    ?noErase, ?erase, ?noRetire, ?retire, ?kat, ?noKat, ?reseed, ?noReseed, ?drbg, ?noDrbg, ?exhausted, ?notExhausted, ?healthy, ?unhealthy,
    ?limit, ?noLimit⟩
  case closed =>
    have session : KeySession s k v fn := ⟨hk, hv, hp, hrun, hfn⟩
    have session0 : KeySession s k 0 fn := ⟨hk, by decide, hp, hrun, hfn⟩
    rintro hs c (rfl | rfl | rfl | ⟨r, key, rfl⟩)
    · exact congrArg Host.Outcome.next (session.closed hs _)
    · exact congrArg Host.Outcome.next (session.closed hs _)
    · exact congrArg Host.Outcome.next (session0.closed hs _)
    · exact congrArg Host.Outcome.next (session.closed hs _)
  case newKey =>
    intro c key restore src hc
    have session : KeySession s k v fn := ⟨hk, hv, hp, hrun, hfn⟩
    obtain ⟨x, host, run, hx, mac, regs, out, parts, hsrc, hrefusal⟩ : ∃ (x : State) (host : Bool),
        completes c s (newKeyIn k v restore host key (.storage fn) (dropSig (.storage fn) x)) ∧ (x = s ∨ x = tick s) ∧ x.mac = s.mac ∧
        x.regs = s.regs ∧ x.out = s.out ∧ changesOnly [.freeCtr] s x ∧ (if host then 1 else 0) = src ∧
        newKeyRefusal k v (if restore then some key else none) x = newKeyRefusal k v (if restore then some key else none) s := by
      rcases hc with ⟨rfl, rfl⟩ | ⟨rfl, rfl, rfl, rfl⟩
      · exact ⟨s, true, congrArg Host.Outcome.next (session.opened hs _), .inl rfl, rfl, rfl, rfl, .refl _ s, rfl, rfl⟩
      · exact ⟨tick s, false, congrArg Host.Outcome.next (session.tick.opened hs _), .inr rfl, rfl, rfl, rfl, .tick (.refl _ s), rfl,
          newKeyRefusal_tick ..⟩
    have keys : ∀ j, slotKey x j = slotKey s j := fun j => slotKey_of_keys (by rw [mac])
    have gens : genOf x (4 * k + v) = genOf s (4 * k + v) := by rw [genOf, genOf, mac]
    have state : keyState x (4 * k + v) = keyState s (4 * k + v) := getF_congr _ regs
    refine ⟨fun r hr => ?_, fun hr => ?_⟩
    · obtain ⟨result, tmac, tout, kept, tparts⟩ := newKeyIn_refused (host := host) (c := .storage fn) (hrefusal.trans hr)
      exact ⟨_, run, result, tmac.trans mac, by rw [tout, out, mac], (regsKept.of_regs regs).trans kept,
        (parts.mono (by decide)).trans (tparts.mono (by decide))⟩
    · obtain ⟨result, tkey, tstate, gen, genF, source, others, kept, tparts⟩ :=
        newKeyIn_taken (host := host) (c := .storage fn) hk hv (hrefusal.trans hr)
      rw [state] at tstate
      rw [gens] at gen genF
      exact ⟨_, run, result, tkey, tstate, gen, genF, source.trans hsrc, fun j hj => (others j hj).trans (keys j),
        (regsKept.of_regs regs).trans kept, (parts.mono (by decide)).trans (tparts.mono (by decide))⟩
  case refused =>
    intro r h
    have session : KeySession s k v fn := ⟨hk, hv, hp, hrun, hfn⟩
    have run : completes (.keySetCurrent k v) s (setCurrentIn k v (.storage fn) (dropSig (.storage fn) s)) :=
      congrArg Host.Outcome.next (session.opened hs _)
    have hr : r < 16 := by rcases h with ⟨-, rfl⟩ | ⟨-, -, -, rfl⟩ <;> decide
    rw [setCurrentIn_of_refused (s := dropSig (.storage fn) s) h] at run
    obtain ⟨result, mac, -⟩ := keyAnswer_spec hr (.storage fn) k none (dropSig (.storage fn) s)
    exact ⟨_, run, result, mac.trans (changesOnly_dropSig ..).mac_eq⟩
  case current =>
    intro hl hb
    have session : KeySession s k v fn := ⟨hk, hv, hp, hrun, hfn⟩
    have run : completes (.keySetCurrent k v) s (setCurrentIn k v (.storage fn) (dropSig (.storage fn) s)) :=
      congrArg Host.Outcome.next (session.opened hs _)
    rw [setCurrentIn_of_loaded (s := dropSig (.storage fn) s) hl hb] at run
    have parts := changesOnly_dropSig (.storage fn) s
    generalize dropSig (.storage fn) s = x at *
    generalize hy : ({ x with mac := { x.mac with curDue := x.mac.curDue.filter (fun p => p.1 != k) ++ [(k, v)] } } : State) = y at *
    have due : (k, v) ∈ y.mac.curDue := hy ▸ List.mem_append_right _ (List.mem_singleton.mpr rfl)
    have regs : y.regs = x.regs := hy ▸ rfl
    have yparts : changesOnly [.mac] x y := hy ▸ .mac (.refl _ x)
    obtain ⟨result, mac, -, zparts, cur⟩ := keyAnswer_spec (by decide : keyOk < 16) (.storage fn) k none y
    exact ⟨_, run, result, by rw [mac]; exact due, cur.trans (getF_congr _ (regs.trans parts.regs_eq)),
      (parts.mono (by decide)).trans ((yparts.mono (by decide)).trans (zparts.mono (by decide)))⟩
  case busy =>
    intro hb
    have session : KeySession s k v fn := ⟨hk, hv, hp, hrun, hfn⟩
    have run : completes (.keyErase k v) s (keyEraseIn k v (.storage fn) (dropSig (.storage fn) s)) :=
      congrArg Host.Outcome.next (session.opened hs _)
    have heq : keyEraseIn k v (.storage fn) (dropSig (.storage fn) s) = keyAnswer (.storage fn) k keyBusy none (dropSig (.storage fn) s) :=
      if_pos hb
    obtain ⟨result, mac, -⟩ := keyAnswer_spec (by decide : keyBusy < 16) (.storage fn) k none (dropSig (.storage fn) s)
    exact ⟨_, run.trans (congrArg Host.Outcome.next heq), result, mac.trans (changesOnly_dropSig ..).mac_eq⟩
  case erased =>
    intro hb
    have session : KeySession s k v fn := ⟨hk, hv, hp, hrun, hfn⟩
    have run : completes (.keyErase k v) s (keyEraseIn k v (.storage fn) (dropSig (.storage fn) s)) :=
      congrArg Host.Outcome.next (session.opened hs _)
    have heq : keyEraseIn k v (.storage fn) (dropSig (.storage fn) s) =
        keyAnswer (.storage fn) k keyOk none (eraseSlot (4 * k + v) (dropSig (.storage fn) s)) :=
      if_neg (Bool.eq_false_iff.mp (show tileBusy (dropSig (.storage fn) s) k = false from hb))
    rw [heq] at run
    have parts := changesOnly_dropSig (.storage fn) s
    have state : keyState (dropSig (.storage fn) s) (4 * k + v) = keyState s (4 * k + v) := getF_congr _ parts.regs_eq
    have gen : genOf (dropSig (.storage fn) s) (4 * k + v) = genOf s (4 * k + v) := by rw [genOf, genOf, parts.mac_eq]
    generalize dropSig (.storage fn) s = x at *
    obtain ⟨result, mac, -, tparts, -⟩ := keyAnswer_spec (by decide : keyOk < 16) (.storage fn) k none (eraseSlot (4 * k + v) x)
    have tstate := keyState_keyAnswer (c := .storage fn) hk (by decide : keyOk < 16) none (eraseSlot (4 * k + v) x) (4 * k + v)
    generalize keyAnswer (.storage fn) k keyOk none (eraseSlot (4 * k + v) x) = t at *
    refine ⟨t, run, result, fun h => ?_, fun h1 h2 => ?_, ?_⟩
    · obtain ⟨erased, due, xgen, -⟩ := eraseSlot_spec (s := x) (j := 4 * k + v) (by rw [state]; exact h)
      exact ⟨tstate.trans erased, by rw [mac]; exact due, by rw [genOf, mac, ← genOf, xgen, gen]⟩
    · have same := eraseSlot_of_not (s := x) (j := 4 * k + v) (by rw [state]; exact h1) (by rw [state]; exact h2)
      rw [same] at mac tstate
      exact ⟨mac.trans parts.mac_eq, tstate.trans state⟩
    · have eparts : changesOnly [.regs, .mac] x (eraseSlot (4 * k + v) x) := by
        by_cases h : keyState x (4 * k + v) = keyLoaded ∨ keyState x (4 * k + v) = keyRetiring
        · exact (eraseSlot_spec h).2.2.2
        · rw [not_or] at h
          rw [eraseSlot_of_not h.1 h.2]
          exact .refl _ x
      exact (parts.mono (by decide)).trans ((eparts.mono (by decide)).trans (tparts.mono (by decide)))
  case status =>
    have session0 : KeySession s k 0 fn := ⟨hk, by decide, hp, hrun, hfn⟩
    have run : completes (.keyStatus k) s (spdmSay (.storage fn) spdmVendor (keyStatusData (dropSig (.storage fn) s) k) (dropSig (.storage fn) s)) :=
      congrArg Host.Outcome.next (session0.opened hs _)
    have parts := changesOnly_dropSig (.storage fn) s
    refine ⟨_, run, ?_, .emit (parts.mono (by decide)) _⟩
    rw [keyStatusData_dropSig]
    exact congrArg (_ :: ·) parts.out_eq
  case noSwitch =>
    intro k h
    have none : s.mac.curDue.find? (fun p => p.1 == k) = none := List.find?_eq_none.mpr fun p hp => by simpa using h p hp
    refine congrArg Host.Outcome.next ?_
    rw [currentSwitch, none]
  case switch =>
    intro k v hk hv h
    have run : completes (.keyCurrentSwitch k) s (keysSettle (switched k v s)) := congrArg Host.Outcome.next (currentSwitch_of_some h)
    obtain ⟨cur, others, sweeping, due, map⟩ := switched_spec hv k s
    generalize switched k v s = x at *
    have settled := settled_keysSettle x
    refine ⟨_, run, (settled.cur k hk).trans cur, fun p hp => ?_, fun j hj hne => (settled.cur j hj).trans (others j hne), fun hload => ?_⟩
    · rw [settled.curDue, due] at hp
      simpa using (List.mem_filter.mp hp).2
    · rw [keysSettle_of_unloaded ((congrArg MapSt.loaded map).trans hload), sweeping]
  case noErase => exact fun j h => congrArg Host.Outcome.next (eraseEffect_of_not h)
  case erase => exact fun j h => ⟨_, rfl, eraseEffect_spec h⟩
  case noRetire => exact fun j h => congrArg Host.Outcome.next (oldRetired_of_not h)
  case retire =>
    intro j hj hs h
    have run : completes (.keyOldCopyRetired j) s (keysSettle (oldGone j s)) := congrArg Host.Outcome.next (oldRetired_of_done hs h)
    obtain ⟨loaded, old⟩ := oldGone_spec j s
    generalize oldGone j s = x at *
    have settled := settled_keysSettle x
    exact ⟨_, run, settled.loaded j hj loaded, by rw [settled.old, old, tget_terase_same]⟩
  case kat =>
    refine fun e hkat hrun => ⟨fun he => ?_, fun h5 he => ?_, fun h10 he => ?_⟩
    · obtain ⟨bit, told, kept, parts⟩ := engineOut_spec (i := e) (by omega) s
      refine ⟨_, congrArg Host.Outcome.next (macKat_of_write hkat hrun he), ?_, told, kept, parts⟩
      rw [bitsOf_getF he]
      simpa using bit
    · obtain ⟨bit, told, kept, parts⟩ := engineOut_spec (i := e + 3) (by omega) s
      refine ⟨_, congrArg Host.Outcome.next (macKat_of_read hkat hrun h5 he), ?_, told⟩
      rw [bitsOf_getF (by simp only; omega)]
      simpa [show 8 + (e - 5) = e + 3 by omega] using bit
    · exact ⟨_, congrArg Host.Outcome.next (macKat_of_iterated hkat hrun h10 he),
        raised_happen _ _ _ (by decide) (by decide) (by decide) (by decide), evtOnly_happen _ _ _ (by decide) (by decide)⟩
  case noKat => exact fun e ok h => congrArg Host.Outcome.next (macKat_of_not h)
  case reseed => exact fun e he => ⟨_, rfl, maskReseed_spec he s⟩
  case noReseed => exact fun e he => congrArg Host.Outcome.next (maskReseed_of_not he)
  case drbg => exact fun hok hn => congrArg Host.Outcome.next (if_pos (by simpa [hok] using hn))
  case noDrbg =>
    refine fun h => congrArg Host.Outcome.next (if_neg ?_)
    rcases h with h | h
    · simp [h]
    · simp only [Bool.and_eq_true, decide_eq_true_eq]
      omega
  case exhausted => exact fun h0 hr => ⟨_, rfl, drbgExhausted_spec h0 hr⟩
  case notExhausted =>
    refine fun h => congrArg Host.Outcome.next (if_neg ?_)
    rcases h with h | h <;> simp [h]
  case healthy => exact fun h => ⟨congrArg Host.Outcome.next ((if_pos rfl).trans (if_pos h)), _, rfl, entropyTest_fails h⟩
  case unhealthy =>
    exact fun h => ⟨congrArg Host.Outcome.next ((if_neg (by decide)).trans (if_neg (by simp [h]))), _, rfl, entropyTest_passes h⟩
  case limit => exact fun hw hno => ⟨_, rfl, wseqLimit_spec hw hno⟩
  case noLimit =>
    refine fun h => congrArg Host.Outcome.next (if_neg ?_)
    rintro ⟨hw, hno⟩
    rcases h with h | h
    · omega
    · simp [h] at hno

end Sys2Proof.Machine
end

/-! ## SPDM requests: what each meets, and what a response leaves (R346, R347, R363, R418) -/

section

-- One proof after another: elaborated side by side, the proofs of this text take more memory than its check allows.
set_option Elab.async false

namespace Sys2Proof.Machine

variable {s t u x : State} {c : Conn} {code need : Nat} {d : List Byte}

/-! ### Responses -/

theorem length_leBytes (k n : Nat) : (leBytes k n).length = k := by
  induction k generalizing n with
  | zero => rfl
  | succ k ih => rw [leBytes, List.length_cons, ih]

theorem saidOn_say (c : Conn) (code : Nat) (d : List Byte) (u : State) : saidOn c code d u (spdmSay c code d u) :=
  ⟨rfl, .emit (.refl _ u) _⟩

theorem saidOn.of_sec (h : saidOn c code d x t) (k : changesOnly [.sec] u x) : saidOn c code d u t :=
  ⟨h.1.trans (congrArg _ k.out_eq), (k.mono (by decide)).trans h.2⟩

theorem changesOnly_setConn (c : Conn) (v : SpdmSt) (s : State) : changesOnly [.sec] s (setConn c v s) := .sec (.refl _ s)

theorem getConn_congr (h : t.sec = s.sec) (c : Conn) : getConn t c = getConn s c := by rw [getConn, getConn, h]

theorem getConn_dropSig (c : Conn) (s : State) : getConn (dropSig c s) c = { getConn s c with sig := none, large := none } :=
  getConn_setConn ..

theorem respond_of_short (h : d.length ≤ chunkSize) : respond c code d s = spdmSay c code d s := if_pos h

theorem respond_of_long (h : chunkSize < d.length) :
    respond c code d s = spdmErr c errLarge (setConn c { getConn s c with large := some (0, d) } s) := if_neg (Nat.not_le.mpr h)

/-- A signed response ends in the RSA signature, and the SLH-DSA signature over the same is held. -/
theorem signed_spec (h : d.length + 384 ≤ chunkSize) (c : Conn) (code : Nat) (u : State) :
    saidOn c code (d ++ leBytes 384 (Config.sigRsa u.freeCtr d).toNat) u (signed c code d u) ∧
      getConn (signed c code d u) c = { getConn u c with sig := some (Config.sigSlh u.freeCtr d) } := by
  unfold signed
  dsimp only
  rw [respond_of_short (by rw [List.length_append, length_leBytes]; exact h)]
  have parts := changesOnly_setConn c { getConn u c with sig := some (Config.sigSlh u.freeCtr d) } u
  have held := getConn_setConn c { getConn u c with sig := some (Config.sigSlh u.freeCtr d) } u
  generalize setConn c { getConn u c with sig := some (Config.sigSlh u.freeCtr d) } u = x at *
  exact ⟨⟨congrArg _ parts.out_eq, .emit (.tick (parts.mono (by decide))) _⟩, held⟩

/-! ### Measurements -/

theorem length_measured (s : State) (c : Conn) (i : Nat) : (measured s c i).length = 48 := by
  have dig : ∀ x, (digBytes x).length = 48 := fun x => length_leBytes 48 _
  have none : (zeros 48).length = 48 := List.length_replicate
  unfold measured
  split
  · exact dig _
  · exact length_leBytes 48 _
  · split
    · split
      · exact none
      · exact dig _
    · exact none
  · exact dig _

theorem length_measureBlock (s : State) (c : Conn) (i : Nat) : (measureBlock s c i).length = 55 := by
  simp only [measureBlock, List.length_append, length_leBytes, length_measured]

/-! ### What every request meets -/

theorem heard_of_down {f : State → State} : heard false f s = s := rfl

theorem heard_of_asleep {f : State → State} (h : asleep s = true) : heard true f s = wakeDrive s := by
  rw [heard, if_neg (by decide), if_pos h]

theorem heard_of_awake {f : State → State} (h : asleep s = false) : heard true f s = f (wakeDrive s) := by
  rw [heard, if_neg (by decide), if_neg (by simp [h])]

theorem sec_wakeDrive (s : State) : (wakeDrive s).sec = s.sec := (wakeDrive_spec s).1.sec_eq

/-- The state that a request acts on: its connection is as it was, without the signature and the chunks held. -/
theorem getConn_heard (s : State) (c : Conn) :
    getConn (dropSig c (wakeDrive s)) c = { getConn s c with sig := none, large := none } := by
  rw [getConn_dropSig, getConn_congr (sec_wakeDrive s)]

theorem spdmReq_of_early {f : State → State} (hup : connUp s c = true) (hawake : asleep s = false) (h : (getConn s c).neg < need) :
    spdmReq c need f s = spdmErr c errUnexpected (dropSig c (wakeDrive s)) := by
  rw [spdmReq, hup, heard_of_awake hawake]
  exact if_pos (by rw [getConn_heard]; exact h)

/-- A request that the negotiation has come to runs on the connection without its signature. -/
theorem spdmReq_of_ready {f : State → State} (hup : connUp s c = true) (hawake : asleep s = false) (h : need ≤ (getConn s c).neg) :
    spdmReq c need f s = f (dropSig c (wakeDrive s)) := by
  rw [spdmReq, hup, heard_of_awake hawake]
  exact if_neg (by rw [getConn_heard]; exact Nat.not_lt.mpr h)

/-- A request inside a session runs where one is open. -/
def whileOpen (c : Conn) (f : State → State) (t : State) : State :=
  if (getConn t c).sessions = 0 then spdmErr c errSession t else f t

theorem keyUpdate_eq (c : Conn) (s : State) : keyUpdate c s = spdmReq c 3 (whileOpen c (spdmSay c 0x69 [])) s := rfl

theorem endSess_eq (c : Conn) (s : State) : endSess c s = spdmReq c 3 (whileOpen c (fun t => spdmSay c 0x6C [] (endOne c t))) s := rfl

/-- Every request of the table is `heard`, and after a negotiation it is `spdmReq`. -/
theorem exec_spdmRow {i : Instr} {n : Option Nat} (h : spdmRow i = some (c, n)) :
    (∃ f, exec i s = .next (heard (connUp s c) f s)) ∧ ∀ m, n = some m → ∃ f, exec i s = .next (spdmReq c m f s) := by
  unfold spdmRow at h
  split at h
  case h_16 => cases h
  case h_13 =>
    cases h
    exact ⟨⟨_, congrArg Host.Outcome.next (keyUpdate_eq ..)⟩, fun m hm => Option.some.inj hm ▸ ⟨_, congrArg Host.Outcome.next (keyUpdate_eq ..)⟩⟩
  case h_14 =>
    cases h
    exact ⟨⟨_, congrArg Host.Outcome.next (endSess_eq ..)⟩, fun m hm => Option.some.inj hm ▸ ⟨_, congrArg Host.Outcome.next (endSess_eq ..)⟩⟩
  case h_1 =>
    cases h
    exact ⟨⟨_, rfl⟩, fun m hm => nomatch hm⟩
  case h_2 =>
    cases h
    exact ⟨⟨_, rfl⟩, fun m hm => nomatch hm⟩
  all_goals
    cases h
    refine (fun ⟨f, hf⟩ => ⟨⟨_, hf⟩, fun m hm => Option.some.inj hm ▸ ⟨f, hf⟩⟩ : (∃ f, exec _ s = .next (spdmReq c _ f s)) → _) ⟨_, rfl⟩

end Sys2Proof.Machine
end

/-! ## SPDM requests are answered (R346 to R350, R353, R363, R418) -/

section

-- One proof after another: elaborated side by side, the proofs of this text take more memory than its check allows.
set_option Elab.async false

namespace Sys2Proof.Machine

variable {s t u x : State} {c : Conn} {k index nonce fn o : Nat} {m ok sign last : Bool}

/-! ### A connection changed and a message said -/

/-- A connection takes a value, and a message is said on it. -/
theorem said_setConn (c : Conn) (v : SpdmSt) (code : Nat) (d : List Byte) (u : State) :
    saidOn c code d u (spdmSay c code d (setConn c v u)) ∧ getConn (spdmSay c code d (setConn c v u)) c = v :=
  ⟨(saidOn_say ..).of_sec (changesOnly_setConn ..), getConn_setConn ..⟩

/-- A connection takes a value, and a signed message is said on it. -/
theorem signed_setConn {d : List Byte} (h : d.length + 384 ≤ chunkSize) (c : Conn) (v : SpdmSt) (code : Nat) (u : State) :
    ∃ d', saidOn c code d' u (signed c code d (setConn c v u)) ∧
      getConn (signed c code d (setConn c v u)) c = { v with sig := some (Config.sigSlh u.freeCtr d) } := by
  obtain ⟨said, conn⟩ := signed_spec h c code (setConn c v u)
  refine ⟨_, said.of_sec (changesOnly_setConn ..), conn.trans ?_⟩
  rw [getConn_setConn, (changesOnly_setConn c v u).freeCtr_eq]

/-! ### Chunks of a request -/

/-- CHUNK_SEND on the state that its request gives it. -/
def chunkSendIn (c : Conn) (k : Nat) (last : Bool) (t : State) : State :=
  if k ≠ (getConn t c).chunks ∨ 65536 ≤ k * chunkSize then spdmErr c errInvalid (setConn c { getConn t c with chunks := 0 } t)
  else spdmSay c 0x05 (leBytes 2 k) (setConn c { getConn t c with chunks := if last then 0 else (getConn t c).chunks + 1 } t)

theorem exec_chunkSend (c : Conn) (k : Nat) (last : Bool) (s : State) :
    exec (.spdmChunkSend c k last) s = .next (spdmReq c 2 (chunkSendIn c k last) s) := rfl

/-! ### Measurements and certificates -/

/-- GET_MEASUREMENTS on the state that its request gives it. -/
def measureIn (c : Conn) (index nonce : Nat) (sign : Bool) (t : State) : State :=
  if index ≠ 0 ∧ index ≠ 0xFF ∧ 6 < index then spdmErr c errInvalid t
  else
    let l := if index = 0 then [] else if index = 0xFF then [1, 2, 3, 4, 5, 6] else [index]
    let body := leBytes 1 (if index = 0 then 6 else l.length) ++ l.flatMap (measureBlock t c)
    if sign then signed c 0x60 (body ++ leBytes 32 nonce ++ leBytes 32 (Config.nonce t.freeCtr).toNat) t
    else respond c 0x60 body t

theorem exec_getMeasurements (c : Conn) (index nonce : Nat) (sign : Bool) (s : State) :
    exec (.spdmGetMeasurements c index nonce sign) s = .next (spdmReq c 3 (measureIn c index nonce sign) s) := rfl

theorem measureIn_of_beyond (h : index ≠ 0xFF) (h6 : 6 < index) : measureIn c index nonce sign u = spdmErr c errInvalid u :=
  if_pos ⟨by omega, h, h6⟩

theorem measureIn_of_one (h1 : 1 ≤ index) (h6 : index ≤ 6) :
    measureIn c index nonce false u = spdmSay c 0x60 (leBytes 1 1 ++ measureBlock u c index) u := by
  have h0 : index ≠ 0 := by omega
  have h255 : index ≠ 0xFF := by omega
  unfold measureIn
  rw [if_neg (by omega)]
  simp only [h0, h255, if_false, Bool.false_eq_true, List.flatMap_singleton, List.length_singleton]
  refine respond_of_short ?_
  rw [List.length_append, length_leBytes, length_measureBlock]
  decide

theorem measureIn_of_signed (h6 : index ≤ 6) :
    ∃ d, saidOn c 0x60 (d ++ leBytes 384 (Config.sigRsa u.freeCtr d).toNat) u (measureIn c index nonce true u) ∧
      (getConn (measureIn c index nonce true u) c).sig = some (Config.sigSlh u.freeCtr d) := by
  unfold measureIn
  dsimp only
  rw [if_neg (by omega), if_pos rfl]
  generalize hl : (if index = 0 then [] else if index = 0xFF then [1, 2, 3, 4, 5, 6] else [index]) = l
  have short : (l.flatMap (measureBlock u c)).length ≤ 55 := by
    rw [← hl]
    by_cases h0 : index = 0
    · simp [h0]
    · rw [if_neg h0, if_neg (by omega), List.flatMap_singleton, length_measureBlock]
  generalize l.flatMap (measureBlock u c) = b at *
  obtain ⟨said, conn⟩ := signed_spec (c := c) (code := 0x60) (u := u)
    (d := leBytes 1 (if index = 0 then 6 else l.length) ++ b ++ leBytes 32 nonce ++ leBytes 32 (Config.nonce u.freeCtr).toNat) (by
      simp only [List.length_append, length_leBytes, chunkSize]
      omega)
  exact ⟨_, said, by rw [conn]⟩

/-- GET_CERTIFICATE on the state that its request gives it. -/
def certificateIn (c : Conn) (slot off len : Nat) (t : State) : State :=
  let l := chain t c
  if slot ≠ 0 ∨ l.length < off then spdmErr c errInvalid t
  else
    let d := (l.drop off).take len
    respond c 0x02 (leBytes 1 0 ++ leBytes 2 d.length ++ leBytes 2 (l.length - off - d.length) ++ d) t

theorem exec_getCertificate (c : Conn) (slot off len : Nat) (s : State) :
    exec (.spdmGetCertificate c slot off len) s = .next (spdmReq c 3 (certificateIn c slot off len) s) := rfl

/-- CHALLENGE on the state that its request gives it. -/
def challengeIn (c : Conn) (slot nonce : Nat) (t : State) : State :=
  if slot ≠ 0 then spdmErr c errInvalid t
  else signed c 0x03 (digBytes (Config.sha384 (chain t c)) ++ leBytes 32 nonce ++ leBytes 32 (Config.nonce t.freeCtr).toNat) t

theorem exec_challenge (c : Conn) (slot nonce : Nat) (s : State) :
    exec (.spdmChallenge c slot nonce) s = .next (spdmReq c 3 (challengeIn c slot nonce) s) := rfl

theorem short_challenge (nonce : Nat) (n : BitVec 256) (x : BitVec 384) :
    (digBytes x ++ leBytes 32 nonce ++ leBytes 32 n.toNat).length + 384 ≤ chunkSize := by
  simp only [List.length_append, length_leBytes, digBytes, chunkSize]
  decide

/-! ### KEY_EXCHANGE -/

/-- KEY_EXCHANGE on the state that its request gives it. -/
def keyExchangeIn (c : Conn) (m : Bool) (o : Nat) (t : State) : State :=
  match c with
  | .storage _ =>
    (match sessTile t c with
     | none => spdmErr c errInvalid t
     | some k =>
       if (match ownerOf t k with
           | some x => !m || decide (x ≠ o)
           | none => false) then spdmErr c errUnspecified (authFail t)
       else signed c 0x64 (leBytes 32 (Config.nonce t.freeCtr).toNat)
         (setConn c { getConn t c with sessions := 0, exch := some (m, o) } t))
  | _ =>
    if 8 ≤ mgmtSessions t then spdmErr c errLimit t
    else signed c 0x64 (leBytes 32 (Config.nonce t.freeCtr).toNat)
      (setConn c { getConn t c with exch := some (m, o) } t)

theorem exec_keyExchange (c : Conn) (m : Bool) (o : Nat) (s : State) :
    exec (.spdmKeyExchange c m o) s = .next (spdmReq c 3 (keyExchangeIn c m o) s) := rfl

theorem keyExchangeIn_of_unbound (h : tileOfFn u fn = none) :
    keyExchangeIn (.storage fn) m o u = spdmErr (.storage fn) errInvalid u := by
  have none : sessTile u (.storage fn) = none := h
  rw [keyExchangeIn, none]

theorem keyExchangeIn_of_other (h : tileOfFn u fn = some k) (hx : ∃ x, ownerOf u k = some x ∧ (m = false ∨ x ≠ o)) :
    keyExchangeIn (.storage fn) m o u = spdmErr (.storage fn) errUnspecified (authFail u) := by
  have some' : sessTile u (.storage fn) = some k := h
  obtain ⟨x, hown, hno⟩ := hx
  rw [keyExchangeIn, some']
  dsimp only
  rw [hown]
  exact if_pos (by rcases hno with rfl | hno <;> simp [*])

theorem keyExchangeIn_of_owner (h : tileOfFn u fn = some k) (hx : ∀ x, ownerOf u k = some x → m = true ∧ x = o) :
    keyExchangeIn (.storage fn) m o u = signed (.storage fn) 0x64 (leBytes 32 (Config.nonce u.freeCtr).toNat)
      (setConn (.storage fn) { getConn u (.storage fn) with sessions := 0, exch := some (m, o) } u) := by
  have some' : sessTile u (.storage fn) = some k := h
  rw [keyExchangeIn, some']
  dsimp only
  cases hown : ownerOf u k with
  | none => exact if_neg Bool.false_ne_true
  | some x =>
    obtain ⟨rfl, rfl⟩ := hx x hown
    exact if_neg (by simp)

theorem keyExchangeIn_of_mgmt (hc : ∀ fn, c ≠ .storage fn) :
    keyExchangeIn c m o u = if 8 ≤ mgmtSessions u then spdmErr c errLimit u
      else signed c 0x64 (leBytes 32 (Config.nonce u.freeCtr).toNat) (setConn c { getConn u c with exch := some (m, o) } u) := by
  cases c with
  | storage fn => exact absurd rfl (hc fn)
  | doe p => rfl
  | mctp => rfl

theorem short_keyExchange (n : BitVec 256) : (leBytes 32 n.toNat).length + 384 ≤ chunkSize := by
  rw [length_leBytes]
  decide

/-- A failed authentication is counted and told. -/
theorem authFail_spec (s : State) :
    raised baseSec 9 (authFail s) = true ∧ getF (authFail s) F.SEC_AUTH_FAILS_COUNT = min (2 ^ 32 - 1) (getF s F.SEC_AUTH_FAILS_COUNT + 1) ∧
      changesOnly eventParts s (authFail s) ∧ (authFail s).out = s.out := by
  unfold authFail
  refine ⟨raised_happen _ _ _ (by decide) (by decide) (by decide) (by decide), ?_, .happen (.addF (.refl _ s) _ _) baseSec 9, ?_⟩
  · rw [getF_happen (by decide) (by decide) (by decide), getF_addF_word]
  · rw [happen_out, addF_out]

theorem spdmErr_spec (c : Conn) (e : Nat) (x : State) :
    (spdmErr c e x).regs = x.regs ∧ (spdmErr c e x).sec = x.sec ∧ (spdmErr c e x).tiles = x.tiles := ⟨rfl, rfl, rfl⟩

theorem authErr_told (c : Conn) (u : State) :
    raised baseSec 9 (spdmErr c errUnspecified (authFail u)) = true ∧
      getF (spdmErr c errUnspecified (authFail u)) F.SEC_AUTH_FAILS_COUNT = min (2 ^ 32 - 1) (getF u F.SEC_AUTH_FAILS_COUNT + 1) ∧
      (spdmErr c errUnspecified (authFail u)).out = .spdm c spdmError (leBytes 1 errUnspecified) :: u.out := by
  obtain ⟨told, count, -, out⟩ := authFail_spec u
  have regs := (spdmErr_spec c errUnspecified (authFail u)).1
  exact ⟨(raised_of_regs _ _ regs).trans told, (getF_congr _ regs).trans count, congrArg (List.cons _) out⟩

/-- An authentication error is said once the failure is counted and told. -/
theorem authErr_spec (c : Conn) (s : State) :
    raised baseSec 9 (spdmErr c errUnspecified (authFail s)) = true ∧
      getConn (spdmErr c errUnspecified (authFail s)) c = getConn s c ∧ (spdmErr c errUnspecified (authFail s)).tiles = s.tiles := by
  obtain ⟨told, -, parts, -⟩ := authFail_spec s
  obtain ⟨regs, sec, tiles⟩ := spdmErr_spec c errUnspecified (authFail s)
  exact ⟨(raised_of_regs _ _ regs).trans told, getConn_congr (sec.trans parts.sec_eq) c, tiles.trans parts.tiles_eq⟩

/-! ### FINISH -/

/-- FINISH on the state that its request gives it. -/
def finishIn (c : Conn) (m ok : Bool) (o : Nat) (t : State) : State :=
  match (getConn t c).exch with
  | none => spdmErr c errUnexpected t
  | some (m', o') =>
    if !ok || m' != m || decide (o' ≠ o) then finishBad c t
    else match sessTile t c with
      | none => finishRsp c m t
      | some k =>
        match ownerOf t k with
        | some x => if m && decide (x = o) then finishRsp c m t else finishBad c t
        | none =>
          if m then
            finishRsp c m (happen baseSec 10
              { t with tiles := { t.tiles with owner := tset zeroD k (o + 1) t.tiles.owner } })
          else finishRsp c m t

theorem exec_finish (c : Conn) (m ok : Bool) (o : Nat) (s : State) :
    exec (.spdmFinish c m ok o) s = .next (spdmReq c 3 (finishIn c m ok o) s) := rfl

theorem finishIn_of_none (h : (getConn u c).exch = none) : finishIn c m ok o u = spdmErr c errUnexpected u := by
  rw [finishIn, h]

theorem finishIn_of_bad {m' : Bool} {o' : Nat} (h : (getConn u c).exch = some (m', o')) (hno : ok = false ∨ m' ≠ m ∨ o' ≠ o) :
    finishIn c m ok o u = finishBad c u := by
  rw [finishIn, h]
  refine if_pos ?_
  rcases hno with rfl | hno | hno
  · rfl
  · simp [bne_iff_ne.mpr hno]
  · simp [hno]

theorem finishBad_spec (c : Conn) (u : State) :
    (getConn (finishBad c u) c).exch = none ∧ raised baseSec 9 (finishBad c u) = true ∧
      (getConn (finishBad c u) c).sessions = (getConn u c).sessions ∧ (finishBad c u).tiles = u.tiles := by
  unfold finishBad
  have noExch := congrArg SpdmSt.exch (getConn_setConn c { getConn u c with exch := none } u)
  have sessions := congrArg SpdmSt.sessions (getConn_setConn c { getConn u c with exch := none } u)
  have tiles := (changesOnly_setConn c { getConn u c with exch := none } u).tiles_eq
  obtain ⟨told, refused, kept⟩ := authErr_spec c (setConn c { getConn u c with exch := none } u)
  exact ⟨(congrArg SpdmSt.exch refused).trans noExch, told, (congrArg SpdmSt.sessions refused).trans sessions, kept.trans tiles⟩

theorem finishRsp_spec (c : Conn) (m : Bool) (u : State) :
    (∃ d, saidOn c 0x65 d u (finishRsp c m u)) ∧ (getConn (finishRsp c m u) c).exch = none ∧
      (getConn (finishRsp c m u) c).sessions = (getConn u c).sessions + 1 := by
  unfold finishRsp
  dsimp only
  cases m with
  | true =>
    obtain ⟨d, said, conn⟩ := signed_setConn (d := []) (by decide) c { getConn u c with exch := none, sessions := (getConn u c).sessions + 1 } 0x65 u
    exact ⟨⟨d, said⟩, congrArg SpdmSt.exch conn, congrArg SpdmSt.sessions conn⟩
  | false =>
    obtain ⟨said, conn⟩ := said_setConn c { getConn u c with exch := none, sessions := (getConn u c).sessions + 1 } 0x65 [] u
    exact ⟨⟨[], said⟩, congrArg SpdmSt.exch conn, congrArg SpdmSt.sessions conn⟩

theorem finishIn_of_open (h : (getConn u c).exch = some (m, o))
    (hx : sessTile u c = none ∨ (∃ k, sessTile u c = some k ∧ ownerOf u k = none ∧ m = false) ∨
      (∃ k, sessTile u c = some k ∧ ownerOf u k = some o ∧ m = true)) : finishIn c m true o u = finishRsp c m u := by
  rw [finishIn, h]
  dsimp only
  rw [if_neg (by simp)]
  rcases hx with hx | ⟨k, hx, hown, rfl⟩ | ⟨k, hx, hown, rfl⟩
  · rw [hx]
  · rw [hx]
    dsimp only
    rw [hown]
    exact if_neg (by decide)
  · rw [hx]
    dsimp only
    rw [hown]
    exact if_pos (by simp)

/-- The tile is claimed. -/
def tileClaimed (k o : Nat) (u : State) : State :=
  happen baseSec 10 { u with tiles := { u.tiles with owner := tset zeroD k (o + 1) u.tiles.owner } }

theorem tileClaimed_spec (k o : Nat) (u : State) :
    ownerOf (tileClaimed k o u) k = some o ∧ raised baseSec 10 (tileClaimed k o u) = true ∧ (tileClaimed k o u).sec = u.sec := by
  unfold tileClaimed
  refine ⟨?_, raised_happen _ _ _ (by decide) (by decide) (by decide) (by decide), happen_sec ..⟩
  rw [ownerOf, happen_tiles]
  dsimp only
  rw [tget_tset_same]
  rfl

theorem finishIn_of_claim (h : (getConn u c).exch = some (true, o)) (hx : sessTile u c = some k) (hown : ownerOf u k = none) :
    finishIn c true true o u = finishRsp c true (tileClaimed k o u) := by
  rw [finishIn, h]
  dsimp only
  rw [if_neg (by simp), hx]
  dsimp only
  rw [hown]
  exact if_pos rfl

theorem finishRsp_claimed (c : Conn) (k o : Nat) (u : State) :
    ownerOf (finishRsp c true (tileClaimed k o u)) k = some o ∧ raised baseSec 10 (finishRsp c true (tileClaimed k o u)) = true ∧
      (getConn (finishRsp c true (tileClaimed k o u)) c).sessions = (getConn u c).sessions + 1 := by
  obtain ⟨owner, told, sec⟩ := tileClaimed_spec k o u
  obtain ⟨⟨d, -, parts⟩, -, opened⟩ := finishRsp_spec c true (tileClaimed k o u)
  refine ⟨?_, (raised_of_regs _ _ parts.regs_eq).trans told, opened.trans ?_⟩
  · rw [ownerOf, parts.tiles_eq]
    exact owner
  · rw [getConn_congr sec]

/-! ### The signature and its chunks -/

/-- SLH_SIGNATURE_GET on the state that wakes. -/
def slhGetIn (c : Conn) (t : State) : State :=
  match (getConn t c).sig with
  | none => spdmErr c errUnexpected (dropSig c t)
  | some g => respond c spdmVendor (leBytes 1 0x20 ++ leBytes 17088 g.toNat) (dropSig c t)

/-- CHUNK_GET on the state that wakes. -/
def chunkGetIn (c : Conn) (k : Nat) (t : State) : State :=
  match (getConn t c).large with
  | none => spdmErr c errUnexpected t
  | some (n, d) =>
    if k ≠ n then spdmErr c errInvalid t
    else
      let rest := d.drop chunkSize
      spdmSay c 0x06 (leBytes 2 n ++ leBytes 1 (if rest = [] then 1 else 0) ++ d.take chunkSize)
        (setConn c { getConn t c with large := if rest = [] then none else some (n + 1, rest) } t)

theorem slhGetIn_of_none (h : (getConn u c).sig = none) : slhGetIn c u = spdmErr c errUnexpected (dropSig c u) := by
  rw [slhGetIn, h]

theorem slhGetIn_of_some {g : BitVec 136704} (h : (getConn u c).sig = some g) :
    saidOn c spdmError (leBytes 1 errLarge) u (slhGetIn c u) ∧ (getConn (slhGetIn c u) c).sig = none ∧
      (getConn (slhGetIn c u) c).large = some (0, leBytes 1 0x20 ++ leBytes 17088 g.toNat) := by
  rw [slhGetIn, h]
  dsimp only
  rw [respond_of_long (by rw [List.length_append, length_leBytes, length_leBytes]; decide)]
  have conn := getConn_dropSig c u
  have parts := changesOnly_dropSig c u
  generalize dropSig c u = x at *
  obtain ⟨said, held⟩ := said_setConn c { getConn x c with large := some (0, leBytes 1 0x20 ++ leBytes 17088 g.toNat) } spdmError
    (leBytes 1 errLarge) x
  refine ⟨said.of_sec parts, (congrArg SpdmSt.sig held).trans ?_, congrArg SpdmSt.large held⟩
  rw [conn]

theorem chunkGetIn_of_none (h : (getConn u c).large = none) : chunkGetIn c k u = spdmErr c errUnexpected u := by
  rw [chunkGetIn, h]

theorem chunkGetIn_of_other {n : Nat} {d : List Byte} (h : (getConn u c).large = some (n, d)) (hk : k ≠ n) :
    chunkGetIn c k u = spdmErr c errInvalid u := by
  rw [chunkGetIn, h]
  exact if_pos hk

theorem chunkGetIn_of_next {n : Nat} {d : List Byte} (h : (getConn u c).large = some (n, d)) :
    saidOn c 0x06 (leBytes 2 n ++ leBytes 1 (if d.length ≤ chunkSize then 1 else 0) ++ d.take chunkSize) u (chunkGetIn c n u) ∧
      (d.length ≤ chunkSize → (getConn (chunkGetIn c n u) c).large = none) ∧
      (chunkSize < d.length → (getConn (chunkGetIn c n u) c).large = some (n + 1, d.drop chunkSize)) := by
  have heq : chunkGetIn c n u = spdmSay c 0x06 (leBytes 2 n ++ leBytes 1 (if d.length ≤ chunkSize then 1 else 0) ++ d.take chunkSize)
      (setConn c { getConn u c with large := if d.length ≤ chunkSize then none else some (n + 1, d.drop chunkSize) } u) := by
    rw [chunkGetIn, h]
    dsimp only
    rw [if_neg (by simp)]
    simp only [List.drop_eq_nil_iff]
  rw [heq]
  obtain ⟨said, conn⟩ := said_setConn c { getConn u c with large := if d.length ≤ chunkSize then none else some (n + 1, d.drop chunkSize) }
    0x06 (leBytes 2 n ++ leBytes 1 (if d.length ≤ chunkSize then 1 else 0) ++ d.take chunkSize) u
  exact ⟨said, fun h => (congrArg SpdmSt.large conn).trans (if_pos h), fun h => (congrArg SpdmSt.large conn).trans (if_neg (Nat.not_le.mpr h))⟩

/-! ### Sessions -/

theorem exec_keyUpdate (c : Conn) (s : State) :
    exec (.spdmKeyUpdate c) s = .next (spdmReq c 3 (whileOpen c (spdmSay c 0x69 [])) s) :=
  congrArg Host.Outcome.next (keyUpdate_eq c s)

theorem exec_endSession (c : Conn) (s : State) :
    exec (.spdmEndSession c) s = .next (spdmReq c 3 (whileOpen c (fun t => spdmSay c 0x6C [] (endOne c t))) s) :=
  congrArg Host.Outcome.next (endSess_eq c s)

theorem endOne_spec (c : Conn) (u : State) :
    (getConn (endOne c u) c).sessions = (getConn u c).sessions - 1 ∧ changesOnly [.sec] u (endOne c u) :=
  ⟨congrArg SpdmSt.sessions (getConn_setConn ..), changesOnly_setConn ..⟩

theorem sessionLimit_spec (h : (getConn s c).sessions ≠ 0) :
    raised baseSec 11 (sessionLimit c s) = true ∧ (getConn (sessionLimit c s) c).sessions = (getConn s c).sessions - 1 ∧
      getF (sessionLimit c s) F.SEC_SESSION_LIMIT_COUNT = min (2 ^ 32 - 1) (getF s F.SEC_SESSION_LIMIT_COUNT + 1) ∧
      changesOnly (.sec :: eventParts) s (sessionLimit c s) := by
  have heq : sessionLimit c s = happen baseSec 11 (addF F.SEC_SESSION_LIMIT_COUNT 1 (endOne c s)) := if_neg h
  obtain ⟨sessions, parts⟩ := endOne_spec c s
  rw [heq]
  generalize endOne c s = x at *
  refine ⟨raised_happen _ _ _ (by decide) (by decide) (by decide) (by decide), ?_, ?_, .happen (.addF (parts.mono (by decide)) _ _) baseSec 11⟩
  · rw [getConn_congr (happen_sec ..), getConn_congr (addF_sec ..), sessions]
  · rw [getF_happen (by decide) (by decide) (by decide), getF_addF_word, getF_congr _ parts.regs_eq]

end Sys2Proof.Machine
end

/-! ## SPDM requests are answered: the statement (R346 to R350, R353, R363, R418) -/

section

-- One proof after another: elaborated side by side, the proofs of this text take more memory than its check allows.
set_option Elab.async false

namespace Sys2Proof.Machine

/-- Settles O47: a request is heard on the connection without its signature; each answer by the lemma of its operation. -/
theorem spdmAnswersItsRequests : Obligations.SpdmAnswersItsRequests := by
  unfold Obligations.SpdmAnswersItsRequests
  intro s c
  refine ⟨?row, ?asked, ?held, ?limitNone, ?limit⟩
  case row =>
    intro i n hrow
    obtain ⟨⟨f, hrun⟩, hneed⟩ := exec_spdmRow (s := s) hrow
    refine ⟨fun hup => ?_, fun hup hasleep => ?_, fun m hm hup hawake hneg => ?_⟩
    · exact hrun.trans (congrArg Host.Outcome.next (by rw [hup, heard_of_down]))
    · exact hrun.trans (congrArg Host.Outcome.next (by rw [hup, heard_of_asleep hasleep]))
    · obtain ⟨g, hrun'⟩ := hneed m hm
      exact hrun'.trans (congrArg Host.Outcome.next (spdmReq_of_early hup hawake hneg))
  case asked =>
    intro u hup hawake hu
    have conn : getConn u c = { getConn s c with sig := none, large := none } := hu ▸ getConn_heard s c
    have run : ∀ {i need f}, exec i s = .next (spdmReq c need f s) → need ≤ (getConn s c).neg → completes i s (f u) :=
      fun hrun hneg => hrun.trans (congrArg Host.Outcome.next ((spdmReq_of_ready hup hawake hneg).trans (congrArg _ hu.symm)))
    have chunks : (getConn u c).chunks = (getConn s c).chunks := by rw [conn]
    have sessions : (getConn u c).sessions = (getConn s c).sessions := by rw [conn]
    have noSig : (getConn u c).sig = none := congrArg SpdmSt.sig conn
    clear hu conn
    refine ⟨?version, fun hneg => ⟨?capabilities, ?slhChain⟩, fun hneg => ⟨?algorithms, ?chunkNext, ?chunkBad⟩,
      fun hneg => ⟨?digests, ?certificateBad, ?certificate, ?challengeBad, ?challenge, ?measureBad, ?measureOne, ?measureSigned,
        ?exchangeUnbound, ?exchangeStorage, ?exchangeMgmt, ?finishNone, ?finishBad, ?finishGood, ?noSession, ?session⟩⟩
    case version =>
      obtain ⟨said, held⟩ := said_setConn c { getConn u c with neg := 1, exch := none, chunks := 0 } 0x04
        (leBytes 1 2 ++ leBytes 2 0x1200 ++ leBytes 2 0x1300) u
      exact ⟨_, run rfl (Nat.zero_le _), congrArg SpdmSt.neg held, congrArg SpdmSt.exch held, said⟩
    case capabilities =>
      obtain ⟨said, held⟩ := said_setConn c { getConn u c with neg := 2 } 0x61
        (leBytes 4 capFlags ++ leBytes 4 4096 ++ leBytes 4 65536) u
      exact ⟨_, run rfl hneg, congrArg SpdmSt.neg held, said⟩
    case slhChain => exact run (f := fun t => respond c spdmVendor (leBytes 1 0x21 ++ Config.certChain 1 (aliasBytes t c)) t) rfl hneg
    case algorithms => exact ⟨_, _, run rfl hneg, congrArg SpdmSt.neg (getConn_setConn ..), (saidOn_say ..).of_sec (changesOnly_setConn ..)⟩
    case chunkNext =>
      rintro k last rfl hlen
      have next : chunkSendIn c (getConn s c).chunks last u = _ := if_neg (by omega)
      obtain ⟨said, held⟩ := said_setConn c { getConn u c with chunks := if last then 0 else (getConn u c).chunks + 1 } 0x05
        (leBytes 2 (getConn s c).chunks) u
      exact ⟨_, (run (exec_chunkSend ..) hneg).trans (congrArg Host.Outcome.next next), said,
        (congrArg SpdmSt.chunks held).trans (by rw [← chunks])⟩
    case chunkBad =>
      intro k last hbad
      have bad : chunkSendIn c k last u = _ := if_pos (by rwa [chunks])
      obtain ⟨said, held⟩ := said_setConn c { getConn u c with chunks := 0 } spdmError (leBytes 1 errInvalid) u
      exact ⟨_, (run (exec_chunkSend ..) hneg).trans (congrArg Host.Outcome.next bad), said, congrArg SpdmSt.chunks held⟩
    case digests => exact ⟨_, run rfl hneg, saidOn_say ..⟩
    case certificateBad =>
      intro slot off len hbad
      exact (run (exec_getCertificate ..) hneg).trans (congrArg Host.Outcome.next (if_pos hbad))
    case certificate =>
      rintro off len d hoff rfl
      exact (run (exec_getCertificate ..) hneg).trans (congrArg Host.Outcome.next (if_neg (by simpa using hoff)))
    case challengeBad =>
      intro slot nonce hslot
      exact (run (exec_challenge ..) hneg).trans (congrArg Host.Outcome.next (if_pos hslot))
    case challenge =>
      intro nonce
      obtain ⟨said, held⟩ := signed_spec (short_challenge nonce (Config.nonce u.freeCtr) (Config.sha384 (chain u c))) c 0x03 u
      exact ⟨_, _, (run (exec_challenge ..) hneg).trans (congrArg Host.Outcome.next (if_neg (by simp))), rfl, said, congrArg SpdmSt.sig held⟩
    case measureBad =>
      intro index nonce sign hff hindex
      exact (run (exec_getMeasurements ..) hneg).trans (congrArg Host.Outcome.next (measureIn_of_beyond hff hindex))
    case measureOne =>
      intro index nonce h1 h6
      exact ⟨_, (run (exec_getMeasurements ..) hneg).trans (congrArg Host.Outcome.next (measureIn_of_one h1 h6)), saidOn_say .., noSig⟩
    case measureSigned =>
      intro index nonce h6
      obtain ⟨d, said, sig⟩ := measureIn_of_signed (c := c) (nonce := nonce) (u := u) h6
      exact ⟨_, d, run (exec_getMeasurements ..) hneg, said, sig⟩
    case exchangeUnbound =>
      rintro m o fn rfl hfn
      exact (run (exec_keyExchange ..) hneg).trans (congrArg Host.Outcome.next (keyExchangeIn_of_unbound hfn))
    case exchangeStorage =>
      rintro m o fn k rfl hfn
      refine ⟨fun hother => ?_, fun howner => ?_⟩
      · obtain ⟨told, count, parts⟩ := authErr_told (.storage fn) u
        exact ⟨_, (run (exec_keyExchange ..) hneg).trans (congrArg Host.Outcome.next (keyExchangeIn_of_other hfn hother)), told,
          parts, count⟩
      · obtain ⟨d, said, held⟩ := signed_setConn (short_keyExchange (Config.nonce u.freeCtr)) (.storage fn)
          { getConn u (.storage fn) with sessions := 0, exch := some (m, o) } 0x64 u
        exact ⟨_, d, (run (exec_keyExchange ..) hneg).trans (congrArg Host.Outcome.next (keyExchangeIn_of_owner hfn howner)), said,
          congrArg SpdmSt.exch held, congrArg SpdmSt.sessions held⟩
    case exchangeMgmt =>
      intro m o hc
      refine ⟨fun hfull => ?_, fun hroom => ?_⟩
      · exact (run (exec_keyExchange ..) hneg).trans (congrArg Host.Outcome.next ((keyExchangeIn_of_mgmt hc).trans (if_pos hfull)))
      · obtain ⟨d, said, held⟩ := signed_setConn (short_keyExchange (Config.nonce u.freeCtr)) c
          { getConn u c with exch := some (m, o) } 0x64 u
        exact ⟨_, d, (run (exec_keyExchange ..) hneg).trans (congrArg Host.Outcome.next
          ((keyExchangeIn_of_mgmt hc).trans (if_neg (Nat.not_le.mpr hroom)))), said, congrArg SpdmSt.exch held,
          (congrArg SpdmSt.sessions held).trans rfl⟩
    case finishNone =>
      intro m ok o hexch
      exact (run (exec_finish ..) hneg).trans (congrArg Host.Outcome.next (finishIn_of_none hexch))
    case finishBad =>
      intro m ok o m' o' hexch hbad
      exact ⟨_, (run (exec_finish ..) hneg).trans (congrArg Host.Outcome.next (finishIn_of_bad hexch hbad)), finishBad_spec c u⟩
    case finishGood =>
      intro m o hexch
      refine ⟨fun hopen => ?_, ?_⟩
      · obtain ⟨⟨d, said⟩, noExch, opened⟩ := finishRsp_spec c m u
        exact ⟨_, d, (run (exec_finish ..) hneg).trans (congrArg Host.Outcome.next (finishIn_of_open hexch hopen)), said, noExch, opened⟩
      · rintro k hk hown rfl
        exact ⟨_, (run (exec_finish ..) hneg).trans (congrArg Host.Outcome.next (finishIn_of_claim hexch hk hown)), finishRsp_claimed c k o u⟩
    case noSession =>
      intro hnone
      rw [← sessions] at hnone
      exact ⟨(run (exec_keyUpdate c s) hneg).trans (congrArg Host.Outcome.next (if_pos hnone)),
        (run (exec_endSession c s) hneg).trans (congrArg Host.Outcome.next (if_pos hnone))⟩
    case session =>
      intro hsome
      rw [← sessions] at hsome ⊢
      obtain ⟨ended, parts⟩ := endOne_spec c u
      exact ⟨(run (exec_keyUpdate c s) hneg).trans (congrArg Host.Outcome.next (if_neg hsome)), _,
        (run (exec_endSession c s) hneg).trans (congrArg Host.Outcome.next (if_neg hsome)),
        (saidOn_say ..).of_sec parts, ended⟩
  case held =>
    intro u hup hawake hu
    have conn : getConn u c = getConn s c := getConn_congr (hu ▸ sec_wakeDrive s) c
    have heard' : ∀ {f}, heard (connUp s c) f s = f u := fun {f} => by rw [hup, heard_of_awake hawake, hu]
    have sigGet : completes (.slhSignatureGet c) s (slhGetIn c u) := congrArg Host.Outcome.next (heard' (f := slhGetIn c))
    have chunk : ∀ k, completes (.spdmChunkGet c k) s (chunkGetIn c k u) := fun k => congrArg Host.Outcome.next (heard' (f := chunkGetIn c k))
    rw [← conn]
    refine ⟨fun hnone => ?_, fun g hsig => ⟨_, sigGet, slhGetIn_of_some hsig⟩, fun k hnone => ?_, fun k n d hlarge => ⟨fun hk => ?_, ?_⟩⟩
    · exact sigGet.trans (congrArg Host.Outcome.next (slhGetIn_of_none hnone))
    · exact (chunk k).trans (congrArg Host.Outcome.next (chunkGetIn_of_none hnone))
    · exact (chunk k).trans (congrArg Host.Outcome.next (chunkGetIn_of_other hlarge hk))
    · rintro rfl
      exact ⟨_, chunk k, chunkGetIn_of_next hlarge⟩
  case limitNone => exact fun hnone => congrArg Host.Outcome.next (if_pos hnone)
  case limit => exact fun hsome => ⟨_, rfl, sessionLimit_spec hsome⟩

end Sys2Proof.Machine
end

/-! ## The sideband: MCTP control and Rirus messages (R123, R341, R358, R362 to R367) -/

section

-- One proof after another: elaborated side by side, the proofs of this text take more memory than its check allows.
set_option Elab.async false

namespace Sys2Proof.Machine

variable {s t u x : State} {c : Instr} {tag tag' : Nat} {ss : Bool} {n : RirNeed} {f : State → State}

/-! ### What a Rirus message meets -/

theorem rirSay_eq (h : tag < 65536) (st : Nat) (d : List Byte) (u : State) : rirSay tag st d u = emit (.rirus tag st d) u := by
  rw [rirSay, Nat.mod_eq_of_lt h]

theorem rirSts_ok (h : tag < 65536) (d : List Byte) (u : State) : rirSts tag stOk d u = emit (.rirus tag rirOk d) u := by
  rw [rirSts, if_pos rfl, rirSay_eq h]

theorem rirSts_field (h : tag < 65536) (d : List Byte) (u : State) : rirSts tag stField d u = emit (.rirus tag rirInvalid []) u := by
  rw [rirSts, if_neg (by decide), if_pos (.inl rfl), rirSay_eq h]

theorem rirSts_refused {st : Sts} (h : tag < 65536) (hok : st ≠ stOk) (hbad : ¬ (st = stField ∨ st = stOpcode ∨ st = stLogPage))
    (d : List Byte) (u : State) : rirSts tag st d u = emit (.rirus tag rirRefused (stsBytes st)) u := by
  rw [rirSts, if_neg hok, if_neg hbad, rirSay_eq h]

/-- Every message of the table is `rirus`, with its TAG, its session and its needs. -/
theorem exec_rirusRow (h : rirusRow c = some (tag, ss, n)) (s : State) : ∃ f, exec c s = .next (rirus tag n ss f s) := by
  unfold rirusRow at h
  split at h
  case h_9 => cases h
  all_goals
    cases h
    exact ⟨_, rfl⟩

theorem rirus_of_down (h : sidebandUp s = false) : rirus tag n ss f s = s := by
  rw [rirus, h, heard_of_down]

theorem rirus_of_asleep (h : sidebandUp s = true) (hs : asleep s = true) : rirus tag n ss f s = wakeDrive s := by
  rw [rirus, h, heard_of_asleep hs]

section

variable (hup : sidebandUp s = true) (hawake : asleep s = false)
include hup hawake

theorem rirus_of_loader (hl : inLoader (wakeDrive s) = true) (hn : n.loader = false) :
    rirus tag n ss f s = rirSay tag rirUnavailable [] (wakeDrive s) := by
  rw [rirus, hup, heard_of_awake hawake, if_pos hl, if_neg (by simp [hn])]

theorem rirus_of_pausing (hl : inLoader (wakeDrive s) = false) (hp : pausing (wakeDrive s) = true) :
    rirus tag n ss f s = rirSay tag rirBusy [] (wakeDrive s) := by
  rw [rirus, hup, heard_of_awake hawake, if_neg (by simp [hl]), if_pos hp]

theorem rirus_of_noSession (hl : inLoader (wakeDrive s) = false) (hp : pausing (wakeDrive s) = false) (hn : n.session = true)
    (hr : isSet (wakeDrive s) F.SEC_SIDEBAND_REQUIRE_SESSION = true) (hss : ss = false) :
    rirus tag n ss f s = rirSay tag rirSession [] (happen baseSec 14 (wakeDrive s)) := by
  rw [rirus, hup, heard_of_awake hawake, if_neg (by simp [hl]), if_neg (by simp [hp]), if_pos (by simp [hn, hr, hss])]

theorem rirus_of_sanitize (hl : inLoader (wakeDrive s) = false) (hp : pausing (wakeDrive s) = false)
    (hss : n.session = true → isSet (wakeDrive s) F.SEC_SIDEBAND_REQUIRE_SESSION = true → ss = true)
    (hm : modeNow (wakeDrive s) = modeSanitize) (hn : n.sanOk = false) :
    rirus tag n ss f s = rirSts tag stSanitize [] (wakeDrive s) := by
  have gate : adminGate (wakeDrive s) n.sanOk n.recOk n.evac = some stSanitize := by
    simp only [adminGate, hm, hn, modeSanitize, Bool.false_eq_true, if_false]
  rw [rirus, hup, heard_of_awake hawake, if_neg (by simp [hl]), if_neg (by simp [hp]), if_neg, gate]
  simp only [Bool.and_eq_true, Bool.not_eq_true', not_and, Bool.not_eq_false, and_imp]
  exact hss

end

/-- A message that nothing stands in the way of runs on the state that wakes. -/
theorem completes_of_rirusRuns (h : rirusRuns s c u) (hrow : rirusRow c = some (tag, ss, n))
    (hexec : exec c s = .next (rirus tag n ss f s)) : completes c s (f u) := by
  obtain ⟨tag', ss', n', hrow', hup, hawake, hu, hloader, hfree⟩ := h
  obtain ⟨rfl, rfl, rfl⟩ : tag = tag' ∧ ss = ss' ∧ n = n' := by simpa using hrow.symm.trans hrow'
  refine hexec.trans (congrArg Host.Outcome.next ?_)
  rw [rirus, hup, heard_of_awake hawake, ← hu]
  cases hl : inLoader u with
  | true => rw [if_pos rfl, if_pos (hloader hl)]
  | false =>
    obtain ⟨hp, hss, hgate⟩ := hfree hl
    rw [if_neg (by decide), if_neg (by simp [hp]), if_neg, hgate]
    simp only [Bool.and_eq_true, Bool.not_eq_true', not_and, Bool.not_eq_false, and_imp]
    exact hss

/-! ### IDENTIFY and HEALTH -/

/-- IDENTIFY and HEALTH on the state that wakes. -/
def rirAskIn (tag : Nat) (b : Bool) (t : State) : State :=
  if inLoader t && b then rirSay tag rirUnavailable [] t
  else if !inLoader t && pausing t then
    { t with sec := { t.sec with waiting := t.sec.waiting ++ [(tag % 65536, b)] } }
  else rirSay tag rirOk (if b then healthBytes t else identifyBytes t) t

theorem rirAsk_eq (tag : Nat) (b : Bool) (s : State) : rirAsk tag b s = heard (sidebandUp s) (rirAskIn tag b) s := rfl

section

variable {b : Bool}

theorem rirAskIn_of_loader (hl : inLoader u = true) (hb : b = true) : rirAskIn tag b u = rirSay tag rirUnavailable [] u :=
  if_pos (by simp [hl, hb])

theorem rirAskIn_of_pausing (h : tag < 65536) (hl : inLoader u = false) (hp : pausing u = true) :
    rirAskIn tag b u = { u with sec := { u.sec with waiting := u.sec.waiting ++ [(tag, b)] } } := by
  rw [rirAskIn, if_neg (by simp [hl]), if_pos (by simp [hl, hp]), Nat.mod_eq_of_lt h]

theorem rirAskIn_of_free (h : inLoader u = false ∧ pausing u = false ∨ inLoader u = true ∧ b = false) :
    rirAskIn tag b u = rirSay tag rirOk (if b then healthBytes u else identifyBytes u) u := by
  rcases h with ⟨hl, hp⟩ | ⟨hl, rfl⟩
  · rw [rirAskIn, if_neg (by simp [hl]), if_neg (by simp [hp])]
  · rw [rirAskIn, if_neg (by simp), if_neg (by simp [hl])]

end

/-! ### MCTP control -/

section

variable {cmd : Nat} {g : State → State × Nat × List Byte}

theorem mctp_of_down (h : sidebandUp s = false ∨ inLoader s = true) : mctp cmd g s = s := by
  have down : (sidebandUp s && !inLoader s) = false := by rcases h with h | h <;> simp [h]
  rw [mctp, down, heard_of_down]

section

variable (hup : sidebandUp s = true) (hl : inLoader s = false)
include hup hl

theorem mctp_of_asleep (hs : asleep s = true) : mctp cmd g s = wakeDrive s := by
  have up : (sidebandUp s && !inLoader s) = true := by simp [hup, hl]
  rw [mctp, up, heard_of_asleep hs]

theorem mctp_of_awake (hs : asleep s = false) :
    mctp cmd g s = emit (.mctp cmd (g (wakeDrive s)).2.1 (g (wakeDrive s)).2.2) (g (wakeDrive s)).1 := by
  have up : (sidebandUp s && !inLoader s) = true := by simp [hup, hl]
  rw [mctp, up, heard_of_awake hs]

end

end

/-- An endpoint identifier is taken, or refused with the code 2. -/
def eidTaken (e : Nat) (t : State) : State × Nat × List Byte :=
  if e < 8 ∨ 254 < e then (t, 2, [])
  else ({ t with sec := { t.sec with eid := e } }, 0, leBytes 1 0 ++ leBytes 1 e ++ leBytes 1 0)

theorem exec_setEndpointId (e : Nat) (s : State) : exec (.mctpSetEndpointId e) s = .next (mctp 1 (eidTaken e) s) := rfl

/-- The control messages are `mctp`. -/
theorem exec_mctp (hc : c = .mctpGetEndpointId ∨ c = .mctpGetVersionSupport ∨ c = .mctpGetMessageTypeSupport ∨
    c = .mctpGetVendorMsgSupport ∨ ∃ e, c = .mctpSetEndpointId e) (s : State) : ∃ cmd g, exec c s = .next (mctp cmd g s) := by
  rcases hc with rfl | rfl | rfl | rfl | ⟨e, rfl⟩
  all_goals exact ⟨_, _, rfl⟩

/-! ### A read of one word -/

theorem changesOnly_clearRc (a : Nat) (s : State) : changesOnly [.regs] s (clearRc a s) := by
  unfold clearRc
  split
  · exact .foldl (.refl _ s) fun u x _ => .ite (.setF (.refl _ u) ..) (.refl _ u)
  · exact .refl _ s

theorem changesOnly_readErrInfo (b : Nat) (s : State) : changesOnly [.regs, .errHeld] s (readErrInfo b s) :=
  .setR (.setR (.setR (.errHeld (.refl _ s)) ..) ..) ..

/-- What a read changes: it sends nothing. -/
theorem changesOnly_readEffect (a : Nat) (s : State) :
    changesOnly [.regs, .errHeld, .sort, .kiln, .freeCtr] s (readEffect a s) := by
  unfold readEffect
  dsimp only
  split
  · exact .ite (.sort (.refl _ s)) (.refl _ s)
  · split
    · exact .refl _ s
    next ty inst base _ =>
      have low : changesOnly [.regs, .errHeld, .sort, .kiln, .freeCtr] s (match latched s a with
          | some h => setR (a + 4) h s
          | none => s) := by
        split
        · exact .setR (.refl _ s) ..
        · exact .refl _ s
      have cleared : ∀ x, changesOnly [.regs, .errHeld, .sort, .kiln, .freeCtr] x
          (if a - base = 0x20 then readErrInfo base x else clearRc a x) :=
        fun x => .ite ((changesOnly_readErrInfo base x).mono (by decide)) ((changesOnly_clearRc a x).mono (by decide))
      have peak : ∀ {x}, changesOnly [.regs, .errHeld, .sort, .kiln, .freeCtr] s x → changesOnly [.regs, .errHeld, .sort, .kiln, .freeCtr] s
          (if a = Reg.KILN_TPEAK then { x with kiln := { x.kiln with peak := none } } else x) := fun h => .ite (.kiln h) h
      have all := peak (low.trans (cleared _))
      exact .ite (.tick all) all

/-- A Rirus message that reads one word is answered with it. -/
theorem mgmtGo_read {off : Nat} {ws : List W32} (h : reach u off = .ok) (p : Path) :
    mgmtGo p none tag off 1 false ws [] u = emit (.rirus tag 0 (leBytes 4 (viewWord u off true))) (readEffect off u) := by
  have words : mgmtWords p false 1 off ws [] u = (none, leBytes 4 (viewWord u off true), readEffect off u) := by
    simp only [mgmtWords, h, readWord, Bool.false_eq_true, if_false, Option.getD_some, List.nil_append]
  rw [mgmtGo, words]
  rfl

/-- A Rirus message that writes one word is answered once it is written. -/
theorem mgmtGo_write {off : Nat} {w : W32} (h : reach u off = .ok) (p : Path) :
    mgmtGo p none tag off 1 true [w] [] u = emit (.rirus tag 0 []) (writeAccess p off w.toNat 15 u) := by
  have words : mgmtWords p true 1 off [w] [] u = (none, [], writeAccess p off w.toNat 15 u) := by
    simp only [mgmtWords, h, if_true, List.headD_cons]
  rw [mgmtGo, words]
  rfl

theorem rirMgmt_of_bad {off k : Nat} {b : Bool} {ws : List W32} (h : tag < 65536)
    (hbad : off % 4 ≠ 0 ∨ windowSize < off + 4 * k ∨ k = 0 ∨ 1024 < k) :
    rirMgmt tag off k b ws u = emit (.rirus tag rirInvalid []) u := by
  rw [rirMgmt, if_pos hbad, rirSay_eq h]

theorem rirMgmt_of_one {off : Nat} {b : Bool} {ws : List W32} (h : tag < 65536) (hal : off % 4 = 0) (hfit : off + 4 ≤ windowSize) :
    rirMgmt tag off 1 b ws u = mgmtGo .sideband none tag off 1 b ws [] u := by
  rw [rirMgmt, if_neg (by omega), Nat.mod_eq_of_lt h]

theorem rirMgmt_read {off : Nat} (h : tag < 65536) (hal : off % 4 = 0) (hfit : off + 4 ≤ windowSize) (hok : reach u off = .ok) :
    (rirMgmt tag off 1 false [] u).out = .rirus tag 0 (leBytes 4 (viewWord u off true)) :: u.out ∧
      readWord .sideband off u = (some (viewWord u off true), { rirMgmt tag off 1 false [] u with out := u.out }) := by
  have kept := (changesOnly_readEffect off u).out_eq
  rw [rirMgmt_of_one h hal hfit, mgmtGo_read hok]
  refine ⟨congrArg _ kept, ?_⟩
  have effect : readWord .sideband off u = (some (viewWord u off true), readEffect off u) := by rw [readWord, hok]
  rw [effect, ← kept]
  rfl

/-! ### What the messages repeat -/

theorem rirTile_of_bad {k op : Nat} {l : List W32} (h : tag < 65536) (hbad : 64 ≤ k ∨ op = 0 ∨ 5 < op ∨ running u = false) :
    rirTile tag k op l u = emit (.rirus tag rirInvalid []) u := by
  rw [rirTile, if_pos (by simpa using hbad), rirSay_eq h]

theorem rirTile_of_ok {k op : Nat} {l : List W32} (h : tag < 65536) (hk : k < 64) (h1 : 1 ≤ op) (h5 : op ≤ 5)
    (hrun : running u = true) :
    rirTile tag k op l u = emit (.rirus tag (if (tileOp k op l u).1 = tileOk then rirOk else rirRefused)
      (leBytes 4 (tileOp k op l u).1)) (tileOp k op l u).2 := by
  have good : ¬ (64 ≤ k ∨ op = 0 ∨ 5 < op ∨ !running u) := by
    simp only [hrun, Bool.not_true, Bool.false_eq_true, or_false]
    omega
  unfold rirTile
  rw [if_neg good]
  exact rirSay_eq h ..

theorem rirMode_of_taken {m : Nat} (h : tag < 65536) (hout : modeOutcome u m = some x) :
    rirMode tag m u = emit (.rirus tag rirOk []) x := by
  rw [rirMode, hout]
  exact rirSay_eq h ..

theorem rirMode_of_refused {m : Nat} (h : tag < 65536) (hout : modeOutcome u m = none) :
    rirMode tag m u = emit (.rirus tag rirRefused (stsBytes stModeRefused)) (modeRefused u) := by
  rw [rirMode, hout]
  exact rirSts_refused h (by decide) (by decide) ..

section

variable {lid off len : Nat}

theorem rirLog_of_bad (h : tag < 65536) (hbad : 4096 < len ∨ lid ≠ 0xC3 ∧ stdLog u 0 lid (max len (off + len)) = none) :
    rirLog tag lid off len u = emit (.rirus tag rirInvalid []) u := by
  by_cases hlen : 4096 < len
  · rw [rirLog, if_pos hlen, rirSay_eq h]
  · obtain ⟨hlid, hnone⟩ := hbad.resolve_left hlen
    unfold rirLog
    rw [if_neg hlen, if_neg hlid, hnone]
    exact rirSay_eq h ..

theorem rirLog_of_page {d : List Byte} (h : tag < 65536) (hlen : len ≤ 4096) (hlid : lid ≠ 0xC3)
    (hd : stdLog u 0 lid (max len (off + len)) = some d) :
    rirLog tag lid off len u = emit (.rirus tag rirOk (slice d off len)) (tick u) := by
  unfold rirLog
  rw [if_neg (Nat.not_lt.mpr hlen), if_neg hlid, hd]
  exact rirSay_eq h ..

end

theorem rirRec_of_same {fz th : Bool} (h : tag < 65536) (hsame : fz = th) : rirRec tag fz th u = emit (.rirus tag rirInvalid []) u := by
  rw [rirRec, if_pos (by simp [hsame]), rirSay_eq h]

theorem rirRec_of_freeze (h : tag < 65536) : rirRec tag true false u = emit (.rirus tag rirOk []) (startFreeze 2 u) := by
  rw [rirRec, if_neg (by decide), if_pos rfl, rirSay_eq h]

theorem rirRec_of_thaw (h : tag < 65536) : rirRec tag false true u = emit (.rirus tag rirOk []) (thaw 0 u) := by
  rw [rirRec, if_neg (by decide), if_neg (by decide), rirSay_eq h]

section

variable {off len d : Nat}

theorem rirDownload_of_bad (h : tag < 65536) (hbad : len = 0 ∨ len % 4096 ≠ 0 ∨ stagingSize < off + len) :
    rirDownload tag off len d u = emit (.rirus tag rirInvalid []) u := by
  rw [rirDownload, stagePiece_of_bad hbad]
  exact rirSts_field h ..

theorem rirDownload_of_first (h : tag < 65536) (h0 : len ≠ 0) (hal : len % 4096 = 0) (hfit : len ≤ stagingSize) :
    rirDownload tag 0 len d u =
      emit (.rirus tag rirOk []) { u with sec := { u.sec with staging := [(0, len, d)], stagingFn := some 0 } } := by
  rw [rirDownload, stagePiece_of_first h0 hal (by omega) rfl]
  exact rirSts_ok h ..

end

section

variable {act fs : Nat} {img : ImageInfo}

/-- A commit refused as another is in hand is answered, and the one in hand stays. -/
theorem rirCommit_of_busy (h : tag < 65536) (hbusy : u.sec.commit ≠ none ∨ u.sec.act ≠ none) :
    (rirCommit tag act fs img u).out = .rirus tag 3 (leBytes 1 stSequence.sc ++ leBytes 1 stSequence.sct) :: u.out ∧
      (rirCommit tag act fs img u).sec = u.sec ∧ changesOnly [.out] u (rirCommit tag act fs img u) := by
  rw [rirCommit, commitStart_of_busy hbusy, Nat.mod_eq_of_lt h]
  exact ⟨rfl, rfl, .of_same (p := .sec) (.sec (.emit (.sec (.refl _ u)) _)) rfl⟩

theorem rirCommit_of_image (h : tag < 65536) (hc : u.sec.commit = none) (ha : u.sec.act = none) (hl : inLoader u = false)
    (h4 : act < 4) (h2 : act ≠ 2) (hslot : fwTarget u fs ≤ 2) (hother : fwTarget u fs ≠ getF u F.SEC_STATUS_ACTIVE_SLOT)
    (hst : u.sec.staging ≠ []) (hok : imageFail u img = 0) :
    rirCommit tag act fs img u = { u with sec := { u.sec with commit := some {
      cmd := none, tag := tag, action := act, fs := fwTarget u fs, img := img } } } := by
  have starts := commitStart_of_image (x := { cmd := none, tag := tag, action := act, fs := fs, img := img }) (y := u) (img := img)
    hc ha hl h4 (by dsimp only; omega) (by dsimp only; rw [if_neg h2, if_neg hst]) hok
  rw [rirCommit, Nat.mod_eq_of_lt h, starts]
  exact if_neg h2

end

end Sys2Proof.Machine
end

/-! ## The sideband is answered: the statement (R123, R341, R358, R362 to R367) -/

section

-- One proof after another: elaborated side by side, the proofs of this text take more memory than its check allows.
set_option Elab.async false

namespace Sys2Proof.Machine

variable {s u : State} {tag : Nat} {ss : Bool}

/-- What an operation did to the registers, a message that follows leaves. -/
theorem emit_spec (o : Out) (x : State) : (emit o x).regs = x.regs ∧ (emit o x).out = o :: x.out := ⟨rfl, rfl⟩

theorem mode_taken_spec (tag : Nat) (u : State) :
    getF (emit (.rirus tag rirOk []) (setF F.TOP_MODE_BASE modeZoned u)) F.TOP_MODE_BASE = modeZoned ∧
      (emit (.rirus tag rirOk []) (setF F.TOP_MODE_BASE modeZoned u)).out = .rirus tag rirOk [] :: u.out ∧
      regsKept (· = Reg.TOP_MODE) u (emit (.rirus tag rirOk []) (setF F.TOP_MODE_BASE modeZoned u)) ∧
      changesOnly [.regs, .out] u (emit (.rirus tag rirOk []) (setF F.TOP_MODE_BASE modeZoned u)) := by
  have written : getF (setF F.TOP_MODE_BASE modeZoned u) F.TOP_MODE_BASE = modeZoned := getF_setF_same _ _ _ (by unfold Fld.ok; decide)
  have kept : regsKept (· = Reg.TOP_MODE) u (setF F.TOP_MODE_BASE modeZoned u) := .setF (.refl u) _ _ rfl
  have parts : changesOnly [.regs, .out] u (setF F.TOP_MODE_BASE modeZoned u) := .setF (.refl _ u) ..
  obtain ⟨regs, out⟩ := emit_spec (.rirus tag rirOk []) (setF F.TOP_MODE_BASE modeZoned u)
  exact ⟨(getF_congr _ regs).trans written, out.trans (congrArg _ (setF_out ..)), kept.congr regs, .emit parts _⟩

theorem modeRefused_spec (tag : Nat) (d : List Byte) (u : State) :
    raised baseTop 6 (emit (.rirus tag rirRefused d) (modeRefused u)) = true ∧
      (emit (.rirus tag rirRefused d) (modeRefused u)).out = .rirus tag rirRefused d :: u.out ∧
      changesOnly (.out :: eventParts) u (emit (.rirus tag rirRefused d) (modeRefused u)) := by
  obtain ⟨regs, out⟩ := emit_spec (.rirus tag rirRefused d) (modeRefused u)
  have told : raised baseTop 6 (modeRefused u) = true := raised_happen _ _ _ (by decide) (by decide) (by decide) (by decide)
  have parts : changesOnly (.out :: eventParts) u (modeRefused u) := .happen (.refl _ u) baseTop 6
  exact ⟨(raised_of_regs _ _ regs).trans told, out.trans (congrArg _ (happen_out ..)), .emit parts _⟩

theorem noSession_spec (tag : Nat) (u : State) :
    (emit (.rirus tag rirSession []) (happen baseSec 14 u)).out = .rirus tag rirSession [] :: u.out ∧
      raised baseSec 14 (emit (.rirus tag rirSession []) (happen baseSec 14 u)) = true ∧
      changesOnly (.out :: eventParts) u (emit (.rirus tag rirSession []) (happen baseSec 14 u)) ∧
      regsKeptE (fun _ => False) u (emit (.rirus tag rirSession []) (happen baseSec 14 u)) := by
  obtain ⟨regs, out⟩ := emit_spec (.rirus tag rirSession []) (happen baseSec 14 u)
  have told : raised baseSec 14 (happen baseSec 14 u) = true := raised_happen _ _ _ (by decide) (by decide) (by decide) (by decide)
  have parts : changesOnly (.out :: eventParts) u (happen baseSec 14 u) := .happen (.refl _ u) baseSec 14
  have kept : regsKeptE (fun _ => False) u (happen baseSec 14 u) := .happen (.refl u) baseSec 14
  exact ⟨out.trans (congrArg _ (happen_out ..)), (raised_of_regs _ _ regs).trans told, .emit parts _, kept.congr regs⟩

theorem modeOutcome_of_same {m : Nat} (h : m = modeNow u) : modeOutcome u m = some u := if_pos h

/-- The clauses of O48 about MCTP control: each answer by what `mctp` does with its message. -/
theorem mctp_answered (s : State) :
    (∀ c, (c = .mctpGetEndpointId ∨ c = .mctpGetVersionSupport ∨ c = .mctpGetMessageTypeSupport ∨
         c = .mctpGetVendorMsgSupport ∨ ∃ e, c = .mctpSetEndpointId e) →
       (sidebandUp s = false ∨ inLoader s = true → completes c s s) ∧
       (sidebandUp s = true → inLoader s = false → asleep s = true → completes c s (wakeDrive s))) := by
  intro c hc
  obtain ⟨cmd, g, hrun⟩ := exec_mctp hc s
  exact ⟨fun hdown => hrun.trans (congrArg Host.Outcome.next (mctp_of_down hdown)),
    fun hup hl hs => hrun.trans (congrArg Host.Outcome.next (mctp_of_asleep hup hl hs))⟩

/-- Settles O48: each message runs on the state that wakes, and answers by the lemma of what it repeats. -/
theorem theSidebandIsAnswered : Obligations.TheSidebandIsAnswered := by
  unfold Obligations.TheSidebandIsAnswered
  refine ⟨fun s => ⟨mctp_answered s, ?served, ?address, ?noAddress⟩, fun s tag htag => ⟨?row, ?ask, ?mgmtRead, ?mgmtWrite, ?tile, ?mode,
    ?log, ?recorder, ?download, ?commit⟩⟩
  case served =>
    intro u hup hl hs hu
    have run : ∀ {c cmd g}, exec c s = .next (mctp cmd g s) → completes c s (emit (.mctp cmd (g u).2.1 (g u).2.2) (g u).1) :=
      fun hrun => hrun.trans (congrArg Host.Outcome.next (by rw [mctp_of_awake hup hl hs, hu]))
    have eid : s.sec.eid = u.sec.eid := congrArg SecSt.eid (hu ▸ (sec_wakeDrive s).symm)
    rw [eid]
    clear hu eid
    refine ⟨fun e h8 h254 => ?taken, fun e hbad => ?refused, fun c n d hc => ?asked⟩
    case taken =>
      have ok : eidTaken e u = _ := if_neg (by omega)
      have done := run (exec_setEndpointId e s)
      rw [ok] at done
      exact ⟨_, done, rfl, rfl, .emit (.sec (.refl _ u)) _⟩
    case refused =>
      have bad : eidTaken e u = _ := if_pos hbad
      have done := run (exec_setEndpointId e s)
      rwa [bad] at done
    case asked =>
      rcases hc with ⟨rfl, rfl, rfl⟩ | ⟨rfl, rfl, rfl⟩ | ⟨rfl, rfl, rfl⟩ | ⟨rfl, rfl, rfl⟩
      · exact ⟨_, run (g := fun t => (t, 0, leBytes 1 t.sec.eid ++ leBytes 1 0 ++ leBytes 1 0)) rfl, rfl, .emit (.refl _ u) _⟩
      all_goals exact ⟨_, run (g := fun t => (t, 0, _)) rfl, rfl, .emit (.refl _ u) _⟩
  case address =>
    intro a ha hup hmode
    have taken : assignAddr a s = _ := if_pos ⟨hup, hmode⟩
    rw [Nat.mod_eq_of_lt ha] at taken
    exact congrArg Host.Outcome.next taken
  case noAddress =>
    intro a hno
    have kept : assignAddr a s = _ := if_neg fun ⟨hup, hmode⟩ => hno.elim (by simp [hup]) (absurd hmode)
    exact congrArg Host.Outcome.next kept
  case row =>
    intro c ss n hrow
    obtain ⟨f, hrun⟩ := exec_rirusRow hrow s
    have done : ∀ {t}, rirus tag n ss f s = t → completes c s t := fun h => hrun.trans (congrArg Host.Outcome.next h)
    refine ⟨fun hdown => done (rirus_of_down hdown), fun hup hs => done (rirus_of_asleep hup hs), ?_⟩
    rintro _ hup hawake rfl
    refine ⟨fun hl hn => ?_, fun hl hp => ?_, fun hl hp hn hr hss => ?_, fun hl hp hss hm hn => ?_⟩
    · exact done ((rirus_of_loader hup hawake hl hn).trans (rirSay_eq htag ..))
    · exact done ((rirus_of_pausing hup hawake hl hp).trans (rirSay_eq htag ..))
    · exact ⟨_, done ((rirus_of_noSession hup hawake hl hp hn hr hss).trans (rirSay_eq htag ..)), noSession_spec tag _⟩
    · exact done ((rirus_of_sanitize hup hawake hl hp hss hm hn).trans (rirSts_refused htag (by decide) (by decide) ..))
  case ask =>
    intro c b hc
    have hrun : exec c s = .next (heard (sidebandUp s) (rirAskIn tag b) s) := by
      rcases hc with ⟨rfl, rfl⟩ | ⟨rfl, rfl⟩ <;> exact congrArg Host.Outcome.next (rirAsk_eq ..)
    refine ⟨fun hdown => hrun.trans (by rw [hdown, heard_of_down]), ?_⟩
    intro u hup hawake hu
    have done : ∀ {t}, rirAskIn tag b u = t → completes c s t := fun h => hrun.trans (by rw [hup, heard_of_awake hawake, ← hu, h])
    refine ⟨fun hl hb => ?_, fun hl hp => ?_, fun hl hp => ?_, ?_⟩
    · exact done ((rirAskIn_of_loader hl hb).trans (rirSay_eq htag ..))
    · exact done (rirAskIn_of_pausing htag hl hp)
    · exact done ((rirAskIn_of_free (.inl ⟨hl, hp⟩)).trans (rirSay_eq htag ..))
    · rintro hl rfl
      exact done ((rirAskIn_of_free (.inr ⟨hl, rfl⟩)).trans (rirSay_eq htag ..))
  case mgmtRead =>
    intro u off n hruns
    have done := completes_of_rirusRuns hruns rfl (f := rirMgmt tag off n false []) rfl
    refine ⟨fun hbad => ?_, ?_⟩
    · rwa [rirMgmt_of_bad htag hbad] at done
    · rintro hal hfit rfl hok
      obtain ⟨out, word⟩ := rirMgmt_read (tag := tag) htag hal hfit hok
      exact ⟨_, _, done, out, word⟩
  case mgmtWrite =>
    intro u ss off w hruns
    have done := completes_of_rirusRuns hruns rfl (f := rirMgmt tag off 1 true [w]) rfl
    refine ⟨fun hbad => ?_, fun hal hfit hok => ?_⟩
    · rwa [rirMgmt_of_bad htag (by omega)] at done
    · rwa [rirMgmt_of_one htag hal hfit, mgmtGo_write hok] at done
  case tile =>
    intro u ss k op l hruns
    have done := completes_of_rirusRuns hruns rfl (f := rirTile tag k op l) rfl
    refine ⟨fun hbad => ?_, fun hk h1 h5 hrun => ?_⟩
    · rwa [rirTile_of_bad htag hbad] at done
    · rwa [rirTile_of_ok htag hk h1 h5 hrun] at done
  case mode =>
    intro u ss m hruns
    have done := completes_of_rirusRuns hruns rfl (f := rirMode tag m) rfl
    refine ⟨fun hm => ?_, fun hz hs => ?_, fun hno => ?_⟩
    · rwa [rirMode_of_taken htag (modeOutcome_of_same hm)] at done
    · rw [rirMode_of_taken htag (modeOutcome_of_zoned hz hs)] at done
      exact ⟨_, done, mode_taken_spec tag u⟩
    · rw [rirMode_of_refused htag hno] at done
      exact ⟨_, done, modeRefused_spec tag _ u⟩
  case log =>
    intro u lid off len hruns
    have done := completes_of_rirusRuns hruns rfl (f := rirLog tag lid off len) rfl
    refine ⟨fun hbad => ?_, fun d hlen hlid hd => ?_⟩
    · rwa [rirLog_of_bad htag hbad] at done
    · rw [rirLog_of_page htag hlen hlid hd] at done
      exact ⟨_, done, rfl, .emit (.tick (.refl _ u)) _⟩
  case recorder =>
    intro u ss fz th hruns
    have done := completes_of_rirusRuns hruns rfl (f := rirRec tag fz th) rfl
    refine ⟨fun hsame => ?_, ?_, ?_⟩
    · rwa [rirRec_of_same htag hsame] at done
    · rintro rfl rfl
      rwa [rirRec_of_freeze htag] at done
    · rintro rfl rfl
      rwa [rirRec_of_thaw htag] at done
  case download =>
    intro u ss off len d hruns
    have done := completes_of_rirusRuns hruns rfl (f := rirDownload tag off len d) rfl
    refine ⟨fun hbad => ?_, ?_⟩
    · rwa [rirDownload_of_bad htag hbad] at done
    · rintro rfl h0 hal hfit
      rw [rirDownload_of_first htag h0 hal hfit] at done
      exact ⟨_, done, rfl, rfl, .emit (.sec (.refl _ u)) _⟩
  case commit =>
    intro u ss act fs img hruns
    have done := completes_of_rirusRuns hruns rfl (f := rirCommit tag act fs img) rfl
    refine ⟨fun hbusy => ⟨_, done, rirCommit_of_busy htag hbusy⟩, fun hc ha hl h4 h2 hslot hother hst hok => ?_⟩
    rwa [rirCommit_of_image htag hc ha hl h4 h2 hslot hother hst hok] at done

end Sys2Proof.Machine
end

/-! ## The SEC mailbox and its operations (R318, R344, R353, R360, R361, R368, R370) -/

section

-- One proof after another: elaborated side by side, the proofs of this text take more memory than its check allows.
set_option Elab.async false

namespace Sys2Proof.Machine

variable {s t u x : State} {p : Path} {op r j k v : Nat} {a : Authorisation}

/-! ### A write of SEC_MBX_CMD -/

/-- The state an operation of the mailbox runs on: PATH says where it came from. -/
def mbxAt (p : Path) (s : State) : State := setF F.SEC_MBX_STATUS_PATH (pathCode p) s

theorem pathCode_lt (p : Path) : pathCode p < 4 := by cases p <;> decide

theorem ok_mbxPath : F.SEC_MBX_STATUS_PATH.ok := by unfold Fld.ok; decide
theorem ok_mbxResult : F.SEC_MBX_STATUS_RESULT.ok := by unfold Fld.ok; decide
theorem ok_mbxBusy : F.SEC_MBX_STATUS_BUSY.ok := by unfold Fld.ok; decide

theorem mbxAt_spec (p : Path) (s : State) :
    getF (mbxAt p s) F.SEC_MBX_STATUS_PATH = pathCode p ∧
      getF (mbxAt p s) F.SEC_MBX_STATUS_BUSY = getF s F.SEC_MBX_STATUS_BUSY ∧
      regsKept (· = Reg.SEC_MBX_STATUS) s (mbxAt p s) ∧ changesOnly [.regs] s (mbxAt p s) :=
  ⟨(getF_setF_same _ _ _ ok_mbxPath).trans (Nat.mod_eq_of_lt (pathCode_lt p)), getF_setF_apart _ _ _ _ ok_mbxPath (.inl (by decide)),
    .setF (.refl s) _ _ rfl, .setF (.refl _ s) _ _⟩

theorem mbx_of_busy {f : State → State} (hreach : reach s Reg.SEC_MBX_CMD = .ok) (h : isSet s F.SEC_MBX_STATUS_BUSY = true) :
    mbx p op f s = happen baseSec 15 (setF F.SEC_MBX_STATUS_RESULT mbxBusy (mbxAt p s)) :=
  (guarded_ok _ hreach).trans (if_pos h)

theorem mbx_of_free {f : State → State} (hreach : reach s Reg.SEC_MBX_CMD = .ok) (h : isSet s F.SEC_MBX_STATUS_BUSY = false) :
    mbx p op f s = f (mbxAt p s) :=
  (guarded_ok _ hreach).trans (if_neg (by simp [h]))

/-- A command that the busy mailbox refuses: its result, and the operation in hand as it was. -/
theorem mbxRefused_spec (p : Path) (s : State) (h : isSet s F.SEC_MBX_STATUS_BUSY = true) :
    getF (happen baseSec 15 (setF F.SEC_MBX_STATUS_RESULT mbxBusy (mbxAt p s))) F.SEC_MBX_STATUS_RESULT = mbxBusy ∧
      isSet (happen baseSec 15 (setF F.SEC_MBX_STATUS_RESULT mbxBusy (mbxAt p s))) F.SEC_MBX_STATUS_BUSY = true ∧
      getF (happen baseSec 15 (setF F.SEC_MBX_STATUS_RESULT mbxBusy (mbxAt p s))) F.SEC_MBX_STATUS_PATH = pathCode p ∧
      raised baseSec 15 (happen baseSec 15 (setF F.SEC_MBX_STATUS_RESULT mbxBusy (mbxAt p s))) = true ∧
      (happen baseSec 15 (setF F.SEC_MBX_STATUS_RESULT mbxBusy (mbxAt p s))).sec = s.sec ∧
      regsKeptE (· = Reg.SEC_MBX_STATUS) s (happen baseSec 15 (setF F.SEC_MBX_STATUS_RESULT mbxBusy (mbxAt p s))) ∧
      changesOnly eventParts s (happen baseSec 15 (setF F.SEC_MBX_STATUS_RESULT mbxBusy (mbxAt p s))) := by
  obtain ⟨path, busy, kept, parts⟩ := mbxAt_spec p s
  generalize mbxAt p s = x at *
  refine ⟨?_, ?_, ?_, raised_happen _ _ _ (by decide) (by decide) (by decide) (by decide), ?_, ?_, ?_⟩
  · rw [getF_happen (by decide) (by decide) (by decide), getF_setF_same _ _ _ ok_mbxResult]
    rfl
  · refine (isSet_of_getF ?_).trans h
    rw [getF_happen (by decide) (by decide) (by decide), getF_setF_apart _ _ _ _ ok_mbxResult (.inl (by decide)), busy]
  · rw [getF_happen (by decide) (by decide) (by decide), getF_setF_apart _ _ _ _ ok_mbxResult (.inr (by decide)), path]
  · rw [happen_sec, setF_sec, parts.sec_eq]
  · exact .happen (.setF kept.toE _ _ rfl) baseSec 15
  · exact .happen (.setF (parts.mono (by decide)) _ _) baseSec 15

/-! ### The end of an operation -/

/-- An operation has ended with a result. -/
structure MbxEnded (r : Nat) (u t : State) : Prop where
  result : getF t F.SEC_MBX_STATUS_RESULT = r
  idle : isSet t F.SEC_MBX_STATUS_BUSY = false
  told : raised baseSec 15 t = true
  sec : t.sec = { u.sec with mbxOp := none }
  kept : regsKeptE (· = Reg.SEC_MBX_STATUS) u t
  raisedKept : raisedKept u t
  parts : changesOnly (.sec :: eventParts) u t

/-- No operation is in hand. -/
def mbxDropped (s : State) : State := { s with sec := { s.sec with mbxOp := none } }

theorem mbxDropped_spec (s : State) :
    (mbxDropped s).regs = s.regs ∧ (mbxDropped s).sec = { s.sec with mbxOp := none } ∧ changesOnly [.sec] s (mbxDropped s) :=
  ⟨rfl, rfl, .sec (.refl _ s)⟩

theorem mbxEnd_eq (r : Nat) (s : State) :
    mbxEnd r s = happen baseSec 15 (setF F.SEC_MBX_STATUS_RESULT r (setF F.SEC_MBX_STATUS_BUSY 0 (mbxDropped s))) := rfl

theorem mbxEnded_mbxEnd (hr : r < 16) (u : State) : MbxEnded r u (mbxEnd r u) := by
  obtain ⟨regs, sec, parts⟩ := mbxDropped_spec u
  rw [mbxEnd_eq]
  generalize mbxDropped u = x at *
  exact
    { result := by
        rw [getF_happen (by decide) (by decide) (by decide), getF_setF_same _ _ _ ok_mbxResult]
        exact Nat.mod_eq_of_lt hr
      idle := (isSet_of_getF (s := setF F.SEC_MBX_STATUS_BUSY 0 x) (by
        rw [getF_happen (by decide) (by decide) (by decide), getF_setF_apart _ _ _ _ ok_mbxResult (.inl (by decide))])).trans
          (by rw [isSet, getF_setF_same _ _ _ ok_mbxBusy]; rfl)
      told := raised_happen _ _ _ (by decide) (by decide) (by decide) (by decide)
      sec := by rw [happen_sec, setF_sec, setF_sec, sec]
      kept := .happen (.setF (.setF (but := (· = Reg.SEC_MBX_STATUS)) (.of_regs regs) F.SEC_MBX_STATUS_BUSY _ rfl)
        F.SEC_MBX_STATUS_RESULT _ rfl) baseSec 15
      raisedKept := .happen (.setF (.setF (.congr (.refl u) regs) _ _) _ _) baseSec 15
      parts := .happen (.setF (.setF (parts.mono (by decide)) _ _) _ _) baseSec 15 }

/-- An operation that ends at once on the state that the write gives it. -/
theorem MbxEnded.of_at (h : MbxEnded r (mbxAt p s) t) : MbxEnded r s t := by
  obtain ⟨-, -, kept, parts⟩ := mbxAt_spec p s
  exact
    { result := h.result
      idle := h.idle
      told := h.told
      sec := h.sec.trans (by rw [parts.sec_eq])
      kept := kept.toE.trans h.kept
      raisedKept := (raisedKept.setF (.refl s) _ _).trans h.raisedKept
      parts := (parts.mono (by decide)).trans h.parts }

/-- A failed authorisation is counted, told and ends the operation. -/
theorem authBad_spec (hr : r < 16) (s : State) :
    getF (authBad r s) F.SEC_MBX_STATUS_RESULT = r ∧ raised baseSec 9 (authBad r s) = true ∧ (authBad r s).mac = s.mac ∧
      (authBad r s).sec = { s.sec with mbxOp := none } ∧
      getF (authBad r s) F.SEC_AUTH_FAILS_COUNT = min (2 ^ 32 - 1) (getF s F.SEC_AUTH_FAILS_COUNT + 1) := by
  unfold authBad
  obtain ⟨told, count, parts, -⟩ := authFail_spec s
  generalize authFail s = x at *
  have ended := mbxEnded_mbxEnd hr x
  refine ⟨ended.result, ended.raisedKept _ _ (by decide) (by decide) (by decide) told, ?_, ?_, ?_⟩
  · rw [ended.parts.mac_eq, parts.mac_eq]
  · rw [ended.sec, parts.sec_eq]
  · rw [ended.kept.getF (by decide) (by decide), count]

/-! ### Erases of many slots (R318) -/

/-- A slot that holds a key. -/
def keyHeld (s : State) (i : Nat) : Prop := keyState s i = keyLoaded ∨ keyState s i = keyRetiring

theorem eraseSlot_of_empty (h : ¬ keyHeld s j) : eraseSlot j s = s := if_neg h

/-- The slot is due to be erased. -/
def dueAdded (j : Nat) (s : State) : State := { s with mac := { s.mac with eraseDue := insertNat j s.mac.eraseDue } }

theorem dueAdded_spec (j : Nat) (s : State) :
    (dueAdded j s).regs = s.regs ∧ ∀ i ∈ s.mac.eraseDue, i ∈ (dueAdded j s).mac.eraseDue :=
  ⟨rfl, fun _ hi => mem_insertNat.mpr (.inr hi)⟩

theorem eraseSlot_of_held (h : keyHeld s j) :
    eraseSlot j s = dueAdded j (setGen j (min (2 ^ 32 - 1) (genOf s j + 1)) (setF (F.MAC_SLOT_STATE j) keyErased s)) := if_pos h

/-- An erase changes its slot's register, and what was due stays due. -/
theorem eraseSlot_kept (j : Nat) (s : State) :
    regsKept (· = Reg.MAC_SLOT j) s (eraseSlot j s) ∧ ∀ i ∈ s.mac.eraseDue, i ∈ (eraseSlot j s).mac.eraseDue := by
  by_cases h : keyHeld s j
  · rw [eraseSlot_of_held h]
    obtain ⟨-, -, -, kept, -, mac⟩ := setGen_spec j (min (2 ^ 32 - 1) (genOf s j + 1)) (setF (F.MAC_SLOT_STATE j) keyErased s)
    have kept' : regsKept (· = Reg.MAC_SLOT j) s (setF (F.MAC_SLOT_STATE j) keyErased s) := .setF (.refl s) _ _ rfl
    have due : (setF (F.MAC_SLOT_STATE j) keyErased s).mac = s.mac := setF_mac ..
    generalize setF (F.MAC_SLOT_STATE j) keyErased s = y at *
    generalize setGen j (min (2 ^ 32 - 1) (genOf s j + 1)) y = z at *
    obtain ⟨regs, added⟩ := dueAdded_spec j z
    exact ⟨(kept'.trans kept).congr regs, fun i hi => added i (by rw [mac, due]; exact hi)⟩
  · rw [eraseSlot_of_empty h]
    exact ⟨.refl s, fun _ hi => hi⟩

theorem changesOnly_eraseSlot (j : Nat) (s : State) : changesOnly [.regs, .mac] s (eraseSlot j s) := by
  by_cases h : keyHeld s j
  · exact (eraseSlot_spec h).2.2.2
  · rw [eraseSlot_of_empty h]
    exact .refl _ s

theorem keyState_eraseSlot_ne {i : Nat} (h : i ≠ j) : keyState (eraseSlot j s) i = keyState s i :=
  (eraseSlot_kept j s).1.getF (by simp only [Reg.MAC_SLOT]; omega)

theorem keyState_eraseSlot_self (j : Nat) (s : State) : ¬ keyHeld (eraseSlot j s) j := by
  by_cases h : keyHeld s j
  · rw [keyHeld, (eraseSlot_spec h).1]
    decide
  · rwa [eraseSlot_of_empty h]

theorem erased_eraseSlot {i : Nat} (h : keyState s i = keyErased) : keyState (eraseSlot j s) i = keyErased := by
  by_cases hj : i = j
  · subst hj
    rwa [eraseSlot_of_empty (by rw [keyHeld, h]; decide)]
  · rwa [keyState_eraseSlot_ne hj]

theorem not_held_eraseSlot {i : Nat} (h : ¬ keyHeld s i) : ¬ keyHeld (eraseSlot j s) i := by
  by_cases hj : i = j
  · exact hj ▸ keyState_eraseSlot_self j s
  · rwa [keyHeld, keyState_eraseSlot_ne hj]

/-- The slots of a list are erased. -/
def eraseSlots (l : List Nat) (s : State) : State := l.foldl (fun y k => eraseSlot k y) s

section

variable {l : List Nat} {i : Nat}

theorem erased_eraseSlots (h : keyState s i = keyErased) : keyState (eraseSlots l s) i = keyErased :=
  List.foldlRecOn (motive := fun y => keyState y i = keyErased) l _ h fun _ hy _ _ => erased_eraseSlot hy

theorem due_eraseSlots (h : i ∈ s.mac.eraseDue) : i ∈ (eraseSlots l s).mac.eraseDue :=
  List.foldlRecOn (motive := fun y => i ∈ y.mac.eraseDue) l _ h fun y hy x _ => (eraseSlot_kept x y).2 i hy

theorem not_held_eraseSlots (h : ¬ keyHeld s i) : ¬ keyHeld (eraseSlots l s) i :=
  List.foldlRecOn (motive := fun y => ¬ keyHeld y i) l _ h fun _ hy _ _ => not_held_eraseSlot hy

theorem changesOnly_eraseSlots (l : List Nat) (s : State) : changesOnly [.regs, .mac] s (eraseSlots l s) :=
  .foldl (.refl _ s) fun y x _ => changesOnly_eraseSlot x y

/-- The registers that erases leave: all but the slots'. -/
theorem regsKept_eraseSlots (l : List Nat) (s : State) : regsKept (fun x => ∃ j ∈ l, x = Reg.MAC_SLOT j) s (eraseSlots l s) :=
  .foldl (.refl s) fun y x hx => (eraseSlot_kept x y).1.mono fun _ h => ⟨x, hx, h⟩

/-- No slot of the list holds a key any more. -/
theorem gone_eraseSlots (h : i ∈ l) : ¬ keyHeld (eraseSlots l s) i := by
  induction l generalizing s with
  | nil => cases h
  | cons j l ih =>
    rcases List.mem_cons.mp h with rfl | h
    · exact not_held_eraseSlots (l := l) (keyState_eraseSlot_self i s)
    · exact ih h

/-- A slot of the list that held a key is erased, and its erase is due. -/
theorem held_eraseSlots (h : i ∈ l) (hheld : keyHeld s i) :
    keyState (eraseSlots l s) i = keyErased ∧ i ∈ (eraseSlots l s).mac.eraseDue := by
  induction l generalizing s with
  | nil => cases h
  | cons j l ih =>
    by_cases hj : i = j
    · subst hj
      obtain ⟨erased, due, -, -⟩ := eraseSlot_spec hheld
      exact ⟨erased_eraseSlots (l := l) erased, due_eraseSlots (l := l) due⟩
    · exact ih ((List.mem_cons.mp h).resolve_left hj) (by rwa [keyHeld, keyState_eraseSlot_ne hj])

end

/-! ### Waiting for the erases -/

/-- An operation is in hand. -/
def mbxHeld (op n : Nat) (s : State) : State := { s with sec := { s.sec with mbxOp := some (op, n) } }

theorem mbxHeld_spec (op n : Nat) (s : State) :
    (mbxHeld op n s).regs = s.regs ∧ (mbxHeld op n s).sec = { s.sec with mbxOp := some (op, n) } ∧
      changesOnly [.sec] s (mbxHeld op n s) := ⟨rfl, rfl, .sec (.refl _ s)⟩

/-- An operation is in hand, and the mailbox shows it. -/
def mbxBegun (op n : Nat) (s : State) : State := setF F.SEC_MBX_STATUS_BUSY 1 (mbxHeld op n s)

theorem mbxBegun_spec (op n : Nat) (s : State) :
    isSet (mbxBegun op n s) F.SEC_MBX_STATUS_BUSY = true ∧ (mbxBegun op n s).mac = s.mac ∧
      (mbxBegun op n s).sec = { s.sec with mbxOp := some (op, n) } ∧ regsKept (· = Reg.SEC_MBX_STATUS) s (mbxBegun op n s) ∧
      changesOnly [.regs, .sec] s (mbxBegun op n s) := by
  obtain ⟨regs, sec, parts⟩ := mbxHeld_spec op n s
  unfold mbxBegun
  generalize mbxHeld op n s = x at *
  refine ⟨by rw [isSet, getF_setF_same _ _ _ ok_mbxBusy]; rfl, by rw [setF_mac, parts.mac_eq], by rw [setF_sec, sec],
    .setF (.of_regs regs) _ _ rfl, .setF (parts.mono (by decide)) _ _⟩

theorem mbxWait_eq (op n : Nat) (s : State) : mbxWait op n s = mbxSettle (mbxBegun op n s) := rfl

theorem mbxWait_of_due (h : s.mac.eraseDue ≠ []) (op n : Nat) : mbxWait op n s = mbxBegun op n s := by
  obtain ⟨-, mac, sec, -⟩ := mbxBegun_spec op n s
  rw [mbxWait_eq]
  generalize mbxBegun op n s = x at *
  rw [mbxSettle, sec]
  exact if_pos (by rwa [mac])

theorem mbxWait_of_none (h : s.mac.eraseDue = []) (hop : op ≠ 4) (n : Nat) : mbxWait op n s = mbxEnd 0 (mbxBegun op n s) := by
  obtain ⟨-, mac, sec, -⟩ := mbxBegun_spec op n s
  rw [mbxWait_eq]
  generalize mbxBegun op n s = x at *
  rw [mbxSettle, sec]
  dsimp only
  rw [if_neg (by simp [mac, h]), if_neg hop]

theorem mbxWait_of_opened (h : s.mac.eraseDue = []) (n : Nat) : mbxWait 4 n s = mbxEnd 0 (openScopes n (mbxBegun 4 n s)) := by
  obtain ⟨-, mac, sec, -⟩ := mbxBegun_spec 4 n s
  rw [mbxWait_eq]
  generalize mbxBegun 4 n s = x at *
  rw [mbxSettle, sec]
  dsimp only
  rw [if_neg (by simp [mac, h]), if_pos rfl]

/-- KEY_ERASE waits while an erase is due, and has ended otherwise. -/
theorem mbxWait_spec (hop : op ≠ 4) (n : Nat) (s : State) :
    raised baseSec 15 (mbxWait op n s) = (raised baseSec 15 s || decide (s.mac.eraseDue = [])) ∧
      isSet (mbxWait op n s) F.SEC_MBX_STATUS_BUSY = decide (s.mac.eraseDue ≠ []) ∧
      (s.mac.eraseDue = [] → getF (mbxWait op n s) F.SEC_MBX_STATUS_RESULT = mbxOk ∧ (mbxWait op n s).sec.mbxOp = none) ∧
      (s.mac.eraseDue ≠ [] → (mbxWait op n s).sec.mbxOp = some (op, n)) ∧ (mbxWait op n s).mac = s.mac ∧
      regsKeptE (· = Reg.SEC_MBX_STATUS) s (mbxWait op n s) := by
  obtain ⟨busy, mac, sec, kept, -⟩ := mbxBegun_spec op n s
  by_cases h : s.mac.eraseDue = []
  · rw [mbxWait_of_none h hop]
    generalize mbxBegun op n s = x at *
    have ended := mbxEnded_mbxEnd (by decide : 0 < 16) x
    refine ⟨by rw [ended.told]; simp [h], by rw [ended.idle]; simp [h], fun _ => ⟨ended.result, by rw [ended.sec]⟩, fun hne => absurd h hne,
      ended.parts.mac_eq.trans mac, kept.toE.trans ended.kept⟩
  · rw [mbxWait_of_due h]
    generalize mbxBegun op n s = x at *
    refine ⟨?_, by rw [busy]; simp [h], fun he => absurd he h, fun _ => by rw [sec], mac, kept.toE⟩
    rw [raised_of_rd (kept _ (by decide))]
    simp [h]

end Sys2Proof.Machine
end

/-! ## The mailbox: sessions, the challenge, authorisations, fuses and roots (R344, R353, R360, R361, R368) -/

section

-- One proof after another: elaborated side by side, the proofs of this text take more memory than its check allows.
set_option Elab.async false

namespace Sys2Proof.Machine

variable {s t u x : State} {p : Path} {op r j k n v : Nat} {a : Authorisation}

/-! ### What the state of an operation shares with the one before -/

theorem getF_mbxAt (p : Path) (s : State) {f : Fld} (h : f.addr ≠ Reg.SEC_MBX_STATUS) : getF (mbxAt p s) f = getF s f :=
  (mbxAt_spec p s).2.2.1.getF h

theorem isSet_mbxAt (p : Path) (s : State) {f : Fld} (h : f.addr ≠ Reg.SEC_MBX_STATUS) : isSet (mbxAt p s) f = isSet s f :=
  isSet_of_getF (getF_mbxAt p s h)

theorem sec_mbxAt (p : Path) (s : State) : (mbxAt p s).sec = s.sec := (mbxAt_spec p s).2.2.2.sec_eq
theorem mac_mbxAt (p : Path) (s : State) : (mbxAt p s).mac = s.mac := (mbxAt_spec p s).2.2.2.mac_eq

theorem mbxArg_mbxAt (p : Path) (s : State) (k : Nat) : mbxArg (mbxAt p s) k = mbxArg s k :=
  (mbxAt_spec p s).2.2.1.getR (by simp only [Reg.SEC_MBX_ARG, Reg.SEC_MBX_STATUS]; omega)

/-- A slot's register is none of the security core's, and no event changes it. -/
theorem slot_lt {i : Nat} (hi : i < 256) : (F.MAC_SLOT_STATE i).addr < 0x12800 := by
  simp only [Reg.MAC_SLOT]
  omega

theorem slot_quiet {i : Nat} (hi : i < 256) : quietReg (F.MAC_SLOT_STATE i).addr = true := by
  refine decide_eq_true ?_
  simp only [Reg.MAC_SLOT]
  omega

theorem slot_ne {i b : Nat} (hi : i < 256) (hb : 0x12800 ≤ b) : (F.MAC_SLOT_STATE i).addr ≠ b :=
  Nat.ne_of_lt (Nat.lt_of_lt_of_le (slot_lt hi) hb)

theorem keyState_mbxAt (p : Path) (s : State) {i : Nat} (hi : i < 256) : keyState (mbxAt p s) i = keyState s i :=
  getF_mbxAt p s (slot_ne hi (by decide))

theorem raised_mbxAt (p : Path) (s : State) : raised baseSec 15 (mbxAt p s) = raised baseSec 15 s :=
  raised_of_rd ((mbxAt_spec p s).2.2.1 _ (by decide))

theorem rootRevoked_mbxAt (p : Path) (s : State) (k : Nat) : rootRevoked (mbxAt p s) k = rootRevoked s k := by
  rw [rootRevoked, rootRevoked, getF_mbxAt p s (by decide)]

theorem fnOfTile_mbxAt (p : Path) (s : State) (k : Nat) : fnOfTile (mbxAt p s) k = fnOfTile s k := by
  have bind : Reg.TILE_BIND k ≠ Reg.SEC_MBX_STATUS := by simp only [Reg.TILE_BIND, Reg.SEC_MBX_STATUS]; omega
  have state : tileState (mbxAt p s) k = tileState s k :=
    getF_mbxAt p s (by simp only [Reg.TILE_STATE, Reg.SEC_MBX_STATUS]; omega)
  rw [fnOfTile, fnOfTile, state, isSet_mbxAt p s bind, getF_mbxAt p s bind]

/-! ### Sessions end -/

/-- A connection of the table loses its sessions. -/
def sessionsGone (q : Nat × SpdmSt) (y : State) : State :=
  { y with sec := { y.sec with spdm := tset spdmD q.1 { q.2 with sessions := 0, exch := none } y.sec.spdm } }

theorem endSessions_eq (f : Nat → Bool) (s : State) :
    endSessions f s = (s.sec.spdm.filter (fun q => f q.1)).foldl (fun y q => sessionsGone q y) s := rfl

theorem foldl_sessionsGone_ne {l : List (Nat × SpdmSt)} (h : ∀ q ∈ l, q.1 ≠ k) (y : State) :
    tget spdmD (l.foldl (fun y q => sessionsGone q y) y).sec.spdm k = tget spdmD y.sec.spdm k :=
  List.foldlRecOn (motive := fun z : State => tget spdmD z.sec.spdm k = tget spdmD y.sec.spdm k) l _ rfl fun _ hz q hq =>
    (tget_tset_ne _ _ _ (h q hq).symm).trans hz

theorem foldl_sessionsGone_mem {l : List (Nat × SpdmSt)} (h : ∃ q ∈ l, q.1 = k) (y : State) :
    (tget spdmD (l.foldl (fun y q => sessionsGone q y) y).sec.spdm k).sessions = 0 := by
  induction l generalizing y with
  | nil => simp at h
  | cons q l ih =>
    rw [List.foldl_cons]
    by_cases hl : ∃ q ∈ l, q.1 = k
    · exact ih hl _
    · obtain ⟨q', hmem, rfl⟩ := h
      obtain rfl : q' = q := (List.mem_cons.mp hmem).resolve_right fun hq => hl ⟨q', hq, rfl⟩
      rw [foldl_sessionsGone_ne fun q hq he => hl ⟨q, hq, he⟩]
      exact congrArg SpdmSt.sessions (tget_tset_same ..)

theorem getConn_endSessions_out {f : Nat → Bool} {c : Conn} (h : f (connKey c) = false) : getConn (endSessions f s) c = getConn s c := by
  rw [endSessions_eq]
  refine foldl_sessionsGone_ne (fun q hq he => ?_) s
  have := (List.mem_filter.mp hq).2
  rw [he, h] at this
  cases this

theorem sessions_endSessions_in {f : Nat → Bool} {c : Conn} (h : f (connKey c) = true) :
    (getConn (endSessions f s) c).sessions = 0 := by
  rw [endSessions_eq]
  by_cases hmem : ∃ q ∈ s.sec.spdm.filter (fun q => f q.1), q.1 = connKey c
  · exact foldl_sessionsGone_mem hmem s
  · have absent : s.sec.spdm.find? (fun q => q.1 == connKey c) = none := by
      rw [List.find?_eq_none]
      intro q hq he
      exact hmem ⟨q, List.mem_filter.mpr ⟨hq, by rw [of_decide_eq_true he]; exact h⟩, of_decide_eq_true he⟩
    have same : getConn ((s.sec.spdm.filter (fun q => f q.1)).foldl (fun y q => sessionsGone q y) s) c = spdm0 :=
      (foldl_sessionsGone_ne (fun q hq he => hmem ⟨q, hq, he⟩) s).trans (by rw [tget, absent]; rfl)
    rw [same]
    rfl

/-- SESSION_END on the state that the write gives it. -/
def sessionEndIn (t : State) : State :=
  if mbxArg t 0 = 0xFE then mbxEnd mbxOk (endSessions (fun n => decide (64 ≤ n)) t)
  else if mbxArg t 0 = 0xFF then mbxEnd mbxOk (endSessions (fun n => decide (n < 64)) t)
  else if 64 ≤ mbxArg t 0 then mbxEnd mbxBadOp t
  else match fnOfTile t (mbxArg t 0) with
    | some fn => mbxEnd mbxOk (endSession (.storage fn) t)
    | none => mbxEnd mbxOk t

theorem exec_mbxSessionEnd (p : Path) (s : State) : exec (.mbxSessionEnd p) s = .next (mbx p 2 sessionEndIn s) := rfl

/-! ### The challenge -/

theorem leNat_leBytes (k n : Nat) : leNat (leBytes k n) = n % 256 ^ k := by
  induction k generalizing n with
  | zero => rw [leBytes, leNat, Nat.pow_zero, Nat.mod_one]
  | succ k ih =>
    have power : 256 ^ (k + 1) = 256 * 256 ^ k := Nat.pow_succ'
    rw [leBytes, leNat, ih, BitVec.toNat_ofNat, power, Nat.mod_mul]

theorem tget_foldl_tset (off : Nat) (g : Nat → Nat) (b : Tbl Nat) (j n : Nat) (h : j < n) :
    tget zeroD ((List.range n).foldl (fun b i => tset zeroD (off + i) (g i) b) b) (off + j) = g j := by
  induction n with
  | zero => omega
  | succ n ih =>
    rw [List.range_succ, List.foldl_append, List.foldl_cons, List.foldl_nil]
    by_cases hj : j = n
    · rw [hj, tget_tset_same]
    · rw [tget_tset_ne _ _ _ (by omega), ih (by omega)]

theorem leNat_leBytes_of_lt {k n : Nat} (h : n < 2 ^ (8 * k)) : leNat (leBytes k n) = n :=
  (leNat_leBytes k n).trans (Nat.mod_eq_of_lt (h.trans_eq (Nat.pow_mul 2 8 k)))

theorem leNat_leBytes_toNat {k : Nat} (x : BitVec (8 * k)) : leNat (leBytes k x.toNat) = x.toNat := leNat_leBytes_of_lt x.isLt

/-- A number of the buffer, where it was put. -/
theorem bufNat_putBuf {l : List Byte} {i len : Nat} (h : i + len ≤ l.length) (s : State) :
    bufNat (putBuf 0 l s) i len = leNat ((l.drop i).take len) := by
  unfold bufNat
  refine congrArg leNat (List.ext_getElem (by simp; omega) fun j hj _ => ?_)
  rw [List.length_map, List.length_range] at hj
  have byte : tget zeroD (putBuf 0 l s).sec.buf (i + j) = (l.getD (i + j) 0).toNat := by
    have := tget_foldl_tset 0 (fun i => (l.getD i 0).toNat) s.sec.buf (i + j) l.length (by omega)
    rwa [Nat.zero_add] at this
  rw [List.getElem_map, List.getElem_range, byte, List.getElem_take, List.getElem_drop, List.getD_eq_getElem _ _ (by omega)]
  simp

theorem bufNat_congr (h : t.sec.buf = s.sec.buf) (i len : Nat) : bufNat t i len = bufNat s i len := by rw [bufNat, bufNat, h]

/-- The state with a fresh nonce. -/
def nonced (t : State) : State := tick { t with sec := { t.sec with nonce := some (Config.nonce t.freeCtr).toNat } }

/-- CHALLENGE on the state that the write gives it. -/
def challengedIn (t : State) : State :=
  putBuf 0 (leBytes 32 (Config.nonce t.freeCtr).toNat ++ digBytes Config.deviceId) (nonced t)

theorem exec_mbxChallenge (p : Path) (s : State) :
    exec (.mbxChallenge p) s = .next (mbx p 3 (fun t => mbxEnd mbxOk (challengedIn t)) s) := rfl

theorem challengedIn_spec (t : State) :
    (challengedIn t).sec.nonce = some (Config.nonce t.freeCtr).toNat ∧ bufNat (challengedIn t) 0 32 = (Config.nonce t.freeCtr).toNat ∧
      bufNat (challengedIn t) 32 48 = Config.deviceId.toNat := by
  have len : (leBytes 32 (Config.nonce t.freeCtr).toNat).length = 32 := length_leBytes ..
  have dev : (digBytes Config.deviceId).length = 48 := length_leBytes ..
  unfold challengedIn
  refine ⟨rfl, ?_, ?_⟩
  · rw [bufNat_putBuf (by rw [List.length_append, len, dev]; omega), List.drop_zero, List.take_left' len]
    exact leNat_leBytes_toNat (k := 32) (Config.nonce t.freeCtr)
  · rw [bufNat_putBuf (by rw [List.length_append, len, dev]), List.drop_left' len, List.take_of_length_le (by rw [dev]), digBytes]
    exact leNat_leBytes_toNat (k := 48) Config.deviceId

/-! ### Authorisations -/

/-- The nonce is used up. -/
def nonceUsed (s : State) : State := { s with sec := { s.sec with nonce := none } }

theorem nonceUsed_spec (s : State) :
    (nonceUsed s).sec = { s.sec with nonce := none } ∧ (nonceUsed s).regs = s.regs ∧ (nonceUsed s).mac = s.mac ∧
      changesOnly [.sec] s (nonceUsed s) := ⟨rfl, rfl, rfl, .sec (.refl _ s)⟩

theorem authorise_of_stranger {f : State → State} (h : s.sec.nonce ≠ some a.nonce ∨ a.deviceIdOk = false) :
    authorise a f s = authBad mbxBadNonce s := if_pos (by simpa using h)

theorem authorise_of_unsigned {f : State → State} (hn : s.sec.nonce = some a.nonce) (hd : a.deviceIdOk = true)
    (h : a.verified = false ∨ 4 ≤ a.root ∨ rootRevoked s a.root = true) : authorise a f s = authBad mbxBadSig (nonceUsed s) :=
  (if_neg (by simp [hn, hd])).trans (if_pos (by simpa [or_assoc] using h))

theorem authorise_of_good {f : State → State} (hn : s.sec.nonce = some a.nonce) (hd : a.deviceIdOk = true) (hv : a.verified = true)
    (hr : a.root < 4) (hroot : rootRevoked s a.root = false) : authorise a f s = f (nonceUsed s) :=
  (if_neg (by simp [hn, hd])).trans (if_neg (by simp [hv, hr, hroot]))

/-! ### Debug unlock -/

theorem openScopes_spec (hn : n < 8) (s : State) :
    (openScopes n s).sec.scopes = n ∧ isSet (openScopes n s) F.SEC_STATUS_DEBUG_UNLOCKED = true ∧ raised baseSec 8 (openScopes n s) = true ∧
      (openScopes n s).mac = s.mac ∧ regsKeptE (· = Reg.SEC_STATUS) s (openScopes n s) := by
  have opened : ∃ y : State, openScopes n s = happen baseSec 8 (setF F.SEC_STATUS_DEBUG_UNLOCKED 1 y) ∧ y.sec.scopes = n % 8 ∧
      y.mac = s.mac ∧ y.regs = s.regs := ⟨_, rfl, rfl, rfl, rfl⟩
  obtain ⟨y, heq, scopes, mac, regs⟩ := opened
  rw [heq]
  refine ⟨?_, ?_, raised_happen _ _ _ (by decide) (by decide) (by decide) (by decide), ?_, ?_⟩
  · rw [happen_sec, setF_sec, scopes, Nat.mod_eq_of_lt hn]
  · rw [isSet, getF_happen (by decide) (by decide) (by decide), getF_setF_same _ _ _ (by unfold Fld.ok; decide)]
    rfl
  · rw [happen_mac, setF_mac, mac]
  · exact .happen (.setF (but := (· = Reg.SEC_STATUS)) (.of_regs regs) _ _ rfl) baseSec 8

/-- DEBUG_UNLOCK waits while an erase is due, and opens its scopes otherwise. -/
theorem mbxWait_unlock (hn : n < 8) (s : State) :
      (mbxWait 4 n s).mac = s.mac ∧ (∀ i, i < 256 → keyState (mbxWait 4 n s) i = keyState s i) ∧
      (s.mac.eraseDue = [] → (mbxWait 4 n s).sec.scopes = n ∧ isSet (mbxWait 4 n s) F.SEC_STATUS_DEBUG_UNLOCKED = true ∧
        raised baseSec 8 (mbxWait 4 n s) = true ∧ getF (mbxWait 4 n s) F.SEC_MBX_STATUS_RESULT = mbxOk) ∧
      (s.mac.eraseDue ≠ [] → (mbxWait 4 n s).sec.scopes = s.sec.scopes ∧ (mbxWait 4 n s).sec.mbxOp = some (4, n) ∧
        isSet (mbxWait 4 n s) F.SEC_MBX_STATUS_BUSY = true) := by
  obtain ⟨busy, mac, sec, kept, -⟩ := mbxBegun_spec 4 n s
  by_cases h : s.mac.eraseDue = []
  · rw [mbxWait_of_opened h]
    generalize mbxBegun 4 n s = x at *
    obtain ⟨scopes, unlocked, told, omac, okept⟩ := openScopes_spec hn x
    generalize openScopes n x = y at *
    have ended := mbxEnded_mbxEnd (by decide : 0 < 16) y
    have all : regsKeptE (fun b => b = Reg.SEC_MBX_STATUS ∨ b = Reg.SEC_STATUS) s (mbxEnd 0 y) :=
      ((kept.mono fun _ hb => .inl hb).toE.trans fun b hb he => okept b (fun e => hb (.inr e)) he).trans
        fun b hb he => ended.kept b (fun e => hb (.inl e)) he
    refine ⟨ended.parts.mac_eq.trans (omac.trans mac), fun i hi => ?_, fun _ => ⟨by rw [ended.sec]; exact scopes, ?_, ?_, ended.result⟩,
      fun hne => absurd h hne⟩
    · exact all.getF (fun hb => hb.elim (slot_ne hi (by decide)) (slot_ne hi (by decide))) (slot_quiet hi)
    · exact (isSet_of_getF (ended.kept.getF (by decide) (by decide))).trans unlocked
    · exact ended.raisedKept _ _ (by decide) (by decide) (by decide) told
  · rw [mbxWait_of_due h]
    generalize mbxBegun 4 n s = x at *
    exact ⟨mac, fun i hi => kept.getF (slot_ne hi (by decide)), fun he => absurd he h,
      fun _ => ⟨by rw [sec], by rw [sec], busy⟩⟩

/-! ### Fuses -/

/-- The fuses that tell the SVN: the count, and the events of a step and of the last ones. -/
def svnBlown (n n1 : Nat) (y : State) : State :=
  if 60 ≤ n1 then happen baseSec 7 (if n < n1 then happen baseSec 6 (setF F.SEC_SVN_FUSE_COUNT n1 (tick y))
    else setF F.SEC_SVN_FUSE_COUNT n1 (tick y))
  else if n < n1 then happen baseSec 6 (setF F.SEC_SVN_FUSE_COUNT n1 (tick y)) else setF F.SEC_SVN_FUSE_COUNT n1 (tick y)

theorem svnBlown_spec {n1 : Nat} (h : n1 ≤ 64) (n : Nat) (y : State) :
    getF (svnBlown n n1 y) F.SEC_SVN_FUSE_COUNT = n1 ∧ (n < n1 → raised baseSec 6 (svnBlown n n1 y) = true) ∧
      (60 ≤ n1 → raised baseSec 7 (svnBlown n n1 y) = true) ∧ y.freeCtr + 1 ≤ (svnBlown n n1 y).freeCtr := by
  have count : getF (setF F.SEC_SVN_FUSE_COUNT n1 (tick y)) F.SEC_SVN_FUSE_COUNT = n1 :=
    (getF_setF_same _ _ _ (by unfold Fld.ok; decide)).trans (Nat.mod_eq_of_lt (by simp; omega))
  have ctr : (setF F.SEC_SVN_FUSE_COUNT n1 (tick y)).freeCtr = y.freeCtr + 1 := rfl
  unfold svnBlown
  generalize setF F.SEC_SVN_FUSE_COUNT n1 (tick y) = x at *
  have step : getF (if n < n1 then happen baseSec 6 x else x) F.SEC_SVN_FUSE_COUNT = n1 ∧
      (n < n1 → raised baseSec 6 (if n < n1 then happen baseSec 6 x else x) = true) ∧
      y.freeCtr + 1 ≤ (if n < n1 then happen baseSec 6 x else x).freeCtr := by
    have ticks : x.freeCtr ≤ (happen baseSec 6 x).freeCtr := (happen_moves (cc := false) baseSec 6 x (.refl x)).2.1
    split
    · exact ⟨(getF_happen (by decide) (by decide) (by decide)).trans count,
        fun _ => raised_happen _ _ _ (by decide) (by decide) (by decide) (by decide), ctr ▸ ticks⟩
    · next hn => exact ⟨count, fun hlt => absurd hlt hn, ctr.ge⟩
  generalize (if n < n1 then happen baseSec 6 x else x) = z at *
  obtain ⟨zcount, told, zctr⟩ := step
  split
  · have ticks : z.freeCtr ≤ (happen baseSec 7 z).freeCtr := (happen_moves (cc := false) baseSec 7 z (.refl z)).2.1
    exact ⟨(getF_happen (by decide) (by decide) (by decide)).trans zcount,
      fun hn => (raisedKept.happen (.refl z) baseSec 7) _ _ (by decide) (by decide) (by decide) (told hn),
      fun _ => raised_happen _ _ _ (by decide) (by decide) (by decide) (by decide), zctr.trans ticks⟩
  · next h60 => exact ⟨zcount, told, fun h => absurd h h60, zctr⟩

/-- SVN_COMMIT on the state that the write gives it. -/
def svnIn (readBack : Bool) (t : State) : State :=
  if mbxArg t 0 ≠ t.sec.running.svn then mbxEnd mbxBadOp t
  else if t.sec.running.svn ≤ getF t F.SEC_SVN_FUSE_COUNT ∨ (heldImages t).any (fun i => decide (i.svn < t.sec.running.svn)) then
    mbxEnd mbxNotAllowed t
  else
    mbxEnd (if readBack then mbxOk else mbxFuse) (svnBlown (getF t F.SEC_SVN_FUSE_COUNT)
      (if readBack then t.sec.running.svn
        else getF t F.SEC_SVN_FUSE_COUNT + Config.fuseSteps t.freeCtr % (t.sec.running.svn - getF t F.SEC_SVN_FUSE_COUNT + 1)) t)

theorem exec_mbxSvnCommit (p : Path) (b : Bool) (s : State) : exec (.mbxSvnCommit p b) s = .next (mbx p 5 (svnIn b) s) := rfl

theorem svnIn_of_blown {b : Bool} (harg : mbxArg t 0 = t.sec.running.svn) (hlt : getF t F.SEC_SVN_FUSE_COUNT < t.sec.running.svn)
    (hheld : ∀ i ∈ heldImages t, t.sec.running.svn ≤ i.svn) :
    svnIn b t = mbxEnd (if b then mbxOk else mbxFuse) (svnBlown (getF t F.SEC_SVN_FUSE_COUNT)
      (if b then t.sec.running.svn
        else getF t F.SEC_SVN_FUSE_COUNT + Config.fuseSteps t.freeCtr % (t.sec.running.svn - getF t F.SEC_SVN_FUSE_COUNT + 1)) t) := by
  rw [svnIn, if_neg (by simp [harg]), if_neg]
  rw [not_or, List.any_eq_true]
  refine ⟨Nat.not_le.mpr hlt, ?_⟩
  rintro ⟨i, hi, hbad⟩
  exact absurd (of_decide_eq_true hbad) (Nat.not_lt.mpr (hheld i hi))

/-! ### Roots -/

/-- ROOT_REVOKE, authorised, on the state whose nonce is used up. -/
def revokeIn (a : Authorisation) (x : State) : State :=
  if a.root = a.target ∨ Nat.lor (getF x F.SEC_SVN_ROOT_REVOKED) (2 ^ a.target) = 15 then mbxEnd mbxNotAllowed x
  else if (heldImages x).any (fun i => decide (i.root = a.target)) then mbxEnd mbxInUse x
  else if rootRevoked x a.target then mbxEnd mbxOk x
  else mbxEnd mbxOk (happen baseSec 12 (setF F.SEC_SVN_ROOT_REVOKED (Nat.lor (getF x F.SEC_SVN_ROOT_REVOKED) (2 ^ a.target)) x))

theorem revokeIn_of_own (h : a.root = a.target) : revokeIn a x = mbxEnd mbxNotAllowed x := if_pos (.inl h)

section

variable (hne : a.root ≠ a.target) (hall : Nat.lor (getF x F.SEC_SVN_ROOT_REVOKED) (2 ^ a.target) ≠ 15)
include hne hall

theorem revokeIn_of_used (h : ∃ i ∈ heldImages x, i.root = a.target) : revokeIn a x = mbxEnd mbxInUse x := by
  rw [revokeIn, if_neg (not_or.mpr ⟨hne, hall⟩), if_pos (by simpa using h)]

theorem revokeIn_of_revoked (h : ∀ i ∈ heldImages x, i.root ≠ a.target) (hr : rootRevoked x a.target = true) :
    revokeIn a x = mbxEnd mbxOk x := by
  rw [revokeIn, if_neg (not_or.mpr ⟨hne, hall⟩), if_neg (by simpa using h), if_pos hr]

theorem revokeIn_of_new (h : ∀ i ∈ heldImages x, i.root ≠ a.target) (hr : rootRevoked x a.target = false) :
    revokeIn a x = mbxEnd mbxOk
      (happen baseSec 12 (setF F.SEC_SVN_ROOT_REVOKED (Nat.lor (getF x F.SEC_SVN_ROOT_REVOKED) (2 ^ a.target)) x)) := by
  rw [revokeIn, if_neg (not_or.mpr ⟨hne, hall⟩), if_neg (by simpa using h), if_neg (by simp [hr])]

end

theorem exec_mbxRootRevoke (p : Path) (a : Authorisation) (s : State) :
    exec (.mbxRootRevoke p a) s = .next (mbx p 6 (fun t =>
      if a.purpose ≠ 2 ∨ 4 ≤ a.target then mbxEnd mbxBadOp t else authorise a (revokeIn a) t) s) := rfl

/-- The revoked root reads revoked. -/
theorem rootRevoked_setF (h : k < 4) (x : State) :
    rootRevoked (setF F.SEC_SVN_ROOT_REVOKED (Nat.lor (getF x F.SEC_SVN_ROOT_REVOKED) (2 ^ k)) x) k = true := by
  have lt : getF x F.SEC_SVN_ROOT_REVOKED < 2 ^ 4 := getF_lt x F.SEC_SVN_ROOT_REVOKED
  have bit : ∀ n, n < 2 ^ 4 → ∀ k, k < 4 → bitsOf (Nat.lor n (2 ^ k) % 2 ^ 4) k 1 = 1 := by decide
  rw [rootRevoked, getF_setF_same _ _ _ (by unfold Fld.ok; decide)]
  exact decide_eq_true (bit _ lt k h)

/-! ### Key erase -/

/-- KEY_ERASE on the state that the write gives it. -/
def keysErasedIn (t : State) : State :=
  if 64 ≤ mbxArg t 0 ∨ 16 ≤ mbxArg t 1 then mbxEnd mbxBadOp t
  else mbxWait 1 0 (eraseSlots ((bitsList (mbxArg t 1) 4).map fun v => 4 * mbxArg t 0 + v) t)

theorem exec_mbxKeyErase (p : Path) (s : State) : exec (.mbxKeyErase p) s = .next (mbx p 1 keysErasedIn s) := by
  have body : keysErasedIn = fun t =>
      if 64 ≤ mbxArg t 0 ∨ 16 ≤ mbxArg t 1 then mbxEnd mbxBadOp t
      else mbxWait 1 0 ((bitsList (mbxArg t 1) 4).foldl (fun x v => eraseSlot (4 * mbxArg t 0 + v) x) t) := by
    funext t
    rw [keysErasedIn, eraseSlots, List.foldl_map]
  rw [body]
  rfl

/-- DEBUG_UNLOCK on the state that the write gives it. -/
def unlockIn (a : Authorisation) (t : State) : State :=
  if isSet t F.SEC_STATUS_DEBUG_NEVER then mbxEnd mbxNotAllowed t
  else if a.purpose ≠ 1 ∨ 8 ≤ a.scope then mbxEnd mbxBadOp t
  else authorise a (fun x => mbxWait 4 a.scope (eraseSlots (List.range 256) x)) t

theorem exec_mbxDebugUnlock (p : Path) (a : Authorisation) (s : State) :
    exec (.mbxDebugUnlock p a) s = .next (mbx p 4 (unlockIn a) s) := rfl

end Sys2Proof.Machine
end

/-! ## The mailbox runs its operations: the statement (R318, R344, R353, R360, R361, R368, R370) -/

section

-- One proof after another: elaborated side by side, the proofs of this text take more memory than its check allows.
set_option Elab.async false

namespace Sys2Proof.Machine

variable {s : State} {p : Path} {a : Authorisation}

/-- KEY_ERASE with a tile and versions that exist erases the slots named, and waits for them. -/
theorem mbxKeyErase_spec (hk : mbxArg s 0 < 64) (hm : mbxArg s 1 < 16) :
    ∃ t, keysErasedIn (mbxAt p s) = t ∧ raised baseSec 15 t = (raised baseSec 15 s || decide (t.mac.eraseDue = [])) ∧
      isSet t F.SEC_MBX_STATUS_BUSY = decide (t.mac.eraseDue ≠ []) ∧
      (t.mac.eraseDue = [] → getF t F.SEC_MBX_STATUS_RESULT = mbxOk ∧ t.sec.mbxOp = none) ∧
      (t.mac.eraseDue ≠ [] → t.sec.mbxOp = some (1, 0)) ∧
      (∀ v, v < 4 → bitsOf (mbxArg s 1) v 1 = 1 →
        (keyState s (4 * mbxArg s 0 + v) = keyLoaded ∨ keyState s (4 * mbxArg s 0 + v) = keyRetiring) →
        keyState t (4 * mbxArg s 0 + v) = keyErased ∧ 4 * mbxArg s 0 + v ∈ t.mac.eraseDue) := by
  have good : ¬ (64 ≤ mbxArg (mbxAt p s) 0 ∨ 16 ≤ mbxArg (mbxAt p s) 1) := by
    rw [mbxArg_mbxAt, mbxArg_mbxAt]
    omega
  refine ⟨_, if_neg good, ?_⟩
  rw [mbxArg_mbxAt, mbxArg_mbxAt]
  have small : ∀ j ∈ (bitsList (mbxArg s 1) 4).map (fun v => 4 * mbxArg s 0 + v), j < 256 := by
    intro j hj
    obtain ⟨v, hv, rfl⟩ := List.mem_map.mp hj
    have := List.mem_range.mp (List.mem_filter.mp hv).1
    omega
  have named : ∀ v, v < 4 → bitsOf (mbxArg s 1) v 1 = 1 →
      4 * mbxArg s 0 + v ∈ (bitsList (mbxArg s 1) 4).map (fun v => 4 * mbxArg s 0 + v) := fun v hv hbit =>
    List.mem_map.mpr ⟨v, List.mem_filter.mpr ⟨List.mem_range.mpr hv, decide_eq_true hbit⟩, rfl⟩
  generalize (bitsList (mbxArg s 1) 4).map (fun v => 4 * mbxArg s 0 + v) = l at *
  have told : raised baseSec 15 (eraseSlots l (mbxAt p s)) = raised baseSec 15 s := by
    refine (raised_of_rd (regsKept_eraseSlots l (mbxAt p s) _ ?_)).trans (raised_mbxAt p s)
    rintro ⟨j, hj, he⟩
    exact slot_ne (small j hj) (by decide) he.symm
  have held := fun i hi hl => held_eraseSlots (l := l) (s := mbxAt p s) (i := i) hi hl
  generalize eraseSlots l (mbxAt p s) = y at *
  obtain ⟨raised', busy, done, waits, mac, kept⟩ := mbxWait_spec (by decide : 1 ≠ 4) 0 y
  refine ⟨by rw [raised', told, mac], by rw [busy, mac], by rwa [mac], by rwa [mac], fun v hv hbit hloaded => ?_⟩
  have small' : 4 * mbxArg s 0 + v < 256 := by omega
  obtain ⟨erased, due⟩ := held _ (named v hv hbit) (by rwa [keyHeld, keyState_mbxAt p s small'])
  refine ⟨(kept.getF ?_ (slot_quiet small')).trans erased, by rwa [mac]⟩
  exact slot_ne small' (by decide)

/-- An authorised DEBUG_UNLOCK erases every slot, and opens its scopes once the erases are done. -/
theorem unlock_spec (hscope : a.scope < 8) (p : Path) (s : State) :
    ∃ t, mbxWait 4 a.scope (eraseSlots (List.range 256) (nonceUsed (mbxAt p s))) = t ∧
      (∀ k, k < 256 → keyState t k ≠ keyLoaded ∧ keyState t k ≠ keyRetiring) ∧
      (t.mac.eraseDue = [] → t.sec.scopes = a.scope ∧ isSet t F.SEC_STATUS_DEBUG_UNLOCKED = true ∧
        raised baseSec 8 t = true ∧ getF t F.SEC_MBX_STATUS_RESULT = mbxOk) ∧
      (t.mac.eraseDue ≠ [] → t.sec.scopes = s.sec.scopes ∧ t.sec.mbxOp = some (4, a.scope) ∧
        isSet t F.SEC_MBX_STATUS_BUSY = true) := by
  refine ⟨_, rfl, ?_⟩
  have gone := fun k hk => gone_eraseSlots (s := nonceUsed (mbxAt p s)) (l := List.range 256) (i := k) hk
  have scopes : (eraseSlots (List.range 256) (nonceUsed (mbxAt p s))).sec.scopes = s.sec.scopes := by
    rw [(changesOnly_eraseSlots _ _).sec_eq, (nonceUsed_spec _).1, sec_mbxAt]
  generalize eraseSlots (List.range 256) (nonceUsed (mbxAt p s)) = y at *
  obtain ⟨mac, state, opened, waits⟩ := mbxWait_unlock hscope y
  rw [mac, ← scopes]
  refine ⟨fun k hk => ?_, opened, waits⟩
  rw [state k hk]
  exact not_or.mp (gone k (List.mem_range.mpr hk))

/-- An authorised revocation of a root that another image does not need. -/
theorem revoke_spec (htarget : a.target < 4) (hne : a.root ≠ a.target) {x : State}
    (hall : Nat.lor (getF x F.SEC_SVN_ROOT_REVOKED) (2 ^ a.target) ≠ 15) (h : ∀ i ∈ heldImages x, i.root ≠ a.target) :
    getF (revokeIn a x) F.SEC_MBX_STATUS_RESULT = mbxOk ∧ rootRevoked (revokeIn a x) a.target = true ∧
      (rootRevoked x a.target = false → raised baseSec 12 (revokeIn a x) = true) := by
  have after : ∀ y, rootRevoked (mbxEnd mbxOk y) a.target = rootRevoked y a.target := fun y => by
    rw [rootRevoked, rootRevoked, (mbxEnded_mbxEnd (by decide : mbxOk < 16) y).kept.getF (by decide) (by decide)]
  cases hr : rootRevoked x a.target with
  | true =>
    rw [revokeIn_of_revoked hne hall h hr, after]
    exact ⟨(mbxEnded_mbxEnd (by decide) x).result, hr, fun hf => nomatch hf⟩
  | false =>
    rw [revokeIn_of_new hne hall h hr, after]
    have shown := rootRevoked_setF htarget x
    generalize setF F.SEC_SVN_ROOT_REVOKED (Nat.lor (getF x F.SEC_SVN_ROOT_REVOKED) (2 ^ a.target)) x = y at *
    have told : raised baseSec 12 (happen baseSec 12 y) = true := raised_happen _ _ _ (by decide) (by decide) (by decide) (by decide)
    have kept : rootRevoked (happen baseSec 12 y) a.target = true := by
      rwa [rootRevoked, getF_happen (by decide) (by decide) (by decide)]
    generalize happen baseSec 12 y = z at *
    have ended := mbxEnded_mbxEnd (by decide : mbxOk < 16) z
    exact ⟨ended.result, kept, fun _ => ended.raisedKept _ _ (by decide) (by decide) (by decide) told⟩

/-- Settles O49: an operation of a mailbox that is not busy runs on `mbxAt`, and ends by `mbxEnd` or waits by `mbxWait`. -/
theorem theMailboxRunsItsOperations : Obligations.TheMailboxRunsItsOperations := by
  unfold Obligations.TheMailboxRunsItsOperations
  intro s p hreach
  refine ⟨?busy, fun hfree => ⟨?rejected, ?erase, ?endMgmt, ?endTiles, ?endOne, ?challenge, ?refused, ?unlock, ?svn, ?revoke⟩⟩
  case busy =>
    intro c hc hbusy
    have hrun : ∃ op f, exec c s = .next (mbx p op f s) := by
      rcases hc with rfl | rfl | rfl | ⟨a, rfl⟩ | ⟨b, rfl⟩ | ⟨a, rfl⟩
      · exact ⟨_, _, exec_mbxKeyErase p s⟩
      · exact ⟨_, _, exec_mbxSessionEnd p s⟩
      · exact ⟨_, _, exec_mbxChallenge p s⟩
      · exact ⟨_, _, exec_mbxDebugUnlock p a s⟩
      · exact ⟨_, _, exec_mbxSvnCommit p b s⟩
      · exact ⟨_, _, exec_mbxRootRevoke p a s⟩
    obtain ⟨op, f, hrun⟩ := hrun
    exact ⟨_, hrun.trans (congrArg Host.Outcome.next (mbx_of_busy hreach hbusy)), mbxRefused_spec p s hbusy⟩
  all_goals
    have run : ∀ {c op f t}, exec c s = .next (mbx p op f s) → f (mbxAt p s) = t → completes c s t :=
      fun hrun ht => hrun.trans (congrArg Host.Outcome.next ((mbx_of_free hreach hfree).trans ht))
    have arg := mbxArg_mbxAt p s
    have sec := sec_mbxAt p s
    have debugNever : isSet (mbxAt p s) F.SEC_STATUS_DEBUG_NEVER = isSet s F.SEC_STATUS_DEBUG_NEVER := isSet_mbxAt p s (by decide)
    have fuses : getF (mbxAt p s) F.SEC_SVN_FUSE_COUNT = getF s F.SEC_SVN_FUSE_COUNT := getF_mbxAt p s (by decide)
    have held : heldImages (mbxAt p s) = heldImages s := by rw [heldImages, heldImages, sec]
  case rejected =>
    intro c r hc
    have hrun : r < 16 ∧ completes c s (mbxEnd r (mbxAt p s)) := by
      rcases hc with ⟨rfl, hbad, rfl⟩ | ⟨rfl, hk, h1, h2, rfl⟩ | ⟨⟨b, rfl⟩, hne, rfl⟩ | ⟨⟨b, rfl⟩, he, hbad, rfl⟩ | ⟨⟨a, rfl⟩, hnever, rfl⟩ |
        ⟨⟨a, rfl, hbad⟩, hnever, rfl⟩ | ⟨⟨a, rfl, hbad⟩, rfl⟩
      · exact ⟨by decide, run (exec_mbxKeyErase p s) (if_pos (by rwa [arg, arg]))⟩
      · exact ⟨by decide, run (exec_mbxSessionEnd p s) (by
          unfold sessionEndIn
          rw [arg, if_neg h1, if_neg h2, if_pos hk])⟩
      · exact ⟨by decide, run (exec_mbxSvnCommit p b s) (if_pos (by rwa [arg, sec]))⟩
      · refine ⟨by decide, run (exec_mbxSvnCommit p b s) ((if_neg (by simp [arg, sec, he])).trans (if_pos ?_))⟩
        rw [sec, fuses, held, List.any_eq_true]
        simpa using hbad
      · exact ⟨by decide, run (exec_mbxDebugUnlock p a s) (if_pos (by rwa [debugNever]))⟩
      · exact ⟨by decide, run (exec_mbxDebugUnlock p a s) ((if_neg (by simp [debugNever, hnever])).trans (if_pos hbad))⟩
      · exact ⟨by decide, run (exec_mbxRootRevoke p a s) (if_pos hbad)⟩
    obtain ⟨hr, hrun⟩ := hrun
    have ended := (mbxEnded_mbxEnd hr (mbxAt p s)).of_at
    exact ⟨_, hrun, ended.result, ended.idle, ended.told, ended.parts.mac_eq, ended.sec, ended.kept⟩
  case erase =>
    intro hk hm
    obtain ⟨t, ht, rest⟩ := mbxKeyErase_spec (p := p) hk hm
    exact ⟨t, run (exec_mbxKeyErase p s) ht, rest⟩
  case endMgmt =>
    intro he
    have ended := mbxEnded_mbxEnd (by decide : mbxOk < 16) (endSessions (fun n => decide (64 ≤ n)) (mbxAt p s))
    have conn : ∀ c, getConn (mbxEnd mbxOk (endSessions (fun n => decide (64 ≤ n)) (mbxAt p s))) c =
        getConn (endSessions (fun n => decide (64 ≤ n)) (mbxAt p s)) c := fun c => by rw [getConn, ended.sec]; rfl
    refine ⟨_, run (exec_mbxSessionEnd p s) (if_pos (by rwa [arg])), ended.result, fun c hc => ?_, fun c hc => ?_⟩
    · rw [conn, sessions_endSessions_in (decide_eq_true hc)]
    · rw [conn, getConn_endSessions_out (decide_eq_false (Nat.not_le.mpr hc)), getConn_congr sec]
  case endTiles =>
    intro he
    have ended := mbxEnded_mbxEnd (by decide : mbxOk < 16) (endSessions (fun n => decide (n < 64)) (mbxAt p s))
    have conn : ∀ c, getConn (mbxEnd mbxOk (endSessions (fun n => decide (n < 64)) (mbxAt p s))) c =
        getConn (endSessions (fun n => decide (n < 64)) (mbxAt p s)) c := fun c => by rw [getConn, ended.sec]; rfl
    refine ⟨_, run (exec_mbxSessionEnd p s) ((if_neg (by rw [arg, he]; decide)).trans (if_pos (by rwa [arg]))), ended.result,
      fun c hc => ?_, fun c hc => ?_⟩
    · rw [conn, sessions_endSessions_in (decide_eq_true hc)]
    · rw [conn, getConn_endSessions_out (decide_eq_false (Nat.not_lt.mpr hc)), getConn_congr sec]
  case endOne =>
    intro fn hk hfn
    have one : sessionEndIn (mbxAt p s) = mbxEnd mbxOk (endSession (.storage fn) (mbxAt p s)) := by
      unfold sessionEndIn
      rw [arg, if_neg (by omega), if_neg (by omega), if_neg (by omega), fnOfTile_mbxAt, hfn]
    have gone : (getConn (endSession (.storage fn) (mbxAt p s)) (.storage fn)).sessions = 0 := congrArg SpdmSt.sessions (getConn_setConn ..)
    have ended := mbxEnded_mbxEnd (by decide : mbxOk < 16) (endSession (.storage fn) (mbxAt p s))
    generalize endSession (.storage fn) (mbxAt p s) = y at *
    refine ⟨_, run (exec_mbxSessionEnd p s) one, ended.result, ?_⟩
    rw [getConn, ended.sec]
    exact gone
  case challenge =>
    obtain ⟨nonce, low, high⟩ := challengedIn_spec (mbxAt p s)
    have ctr : (mbxAt p s).freeCtr = s.freeCtr := (mbxAt_spec p s).2.2.2.freeCtr_eq
    have ended := mbxEnded_mbxEnd (by decide : mbxOk < 16) (challengedIn (mbxAt p s))
    have buf : (mbxEnd mbxOk (challengedIn (mbxAt p s))).sec.buf = (challengedIn (mbxAt p s)).sec.buf := by rw [ended.sec]
    rw [ctr] at nonce low
    refine ⟨_, run (exec_mbxChallenge p s) rfl, ended.result, ended.idle, by rw [ended.sec]; exact nonce,
      (bufNat_congr buf ..).trans low, (bufNat_congr buf ..).trans high, ended.told⟩
  case refused =>
    intro c a hc
    have hrun : ∃ f, completes c s (authorise a f (mbxAt p s)) := by
      rcases hc with ⟨rfl, hnever, h1, h8⟩ | ⟨rfl, h2, h4⟩
      · exact ⟨_, run (exec_mbxDebugUnlock p a s) ((if_neg (by simp [debugNever, hnever])).trans (if_neg (by omega)))⟩
      · exact ⟨_, run (exec_mbxRootRevoke p a s) (if_neg (by omega))⟩
    obtain ⟨f, hrun⟩ := hrun
    refine ⟨fun hno => ?_, fun hn hd hbad => ?_⟩
    · rw [authorise_of_stranger (by rwa [sec])] at hrun
      obtain ⟨result, told, mac, asec, count⟩ := authBad_spec (by decide : mbxBadNonce < 16) (mbxAt p s)
      rw [getF_mbxAt p s (by decide)] at count
      exact ⟨_, hrun, result, told, mac.trans (mac_mbxAt p s), by rw [asec, sec], by rw [asec, sec], count⟩
    · rw [authorise_of_unsigned (by rwa [sec]) hd (by rwa [rootRevoked_mbxAt])] at hrun
      obtain ⟨usec, -, umac, -⟩ := nonceUsed_spec (mbxAt p s)
      obtain ⟨result, told, mac, asec, -⟩ := authBad_spec (by decide : mbxBadSig < 16) (nonceUsed (mbxAt p s))
      exact ⟨_, hrun, result, told, mac.trans (umac.trans (mac_mbxAt p s)), by rw [asec, usec, sec], by rw [asec, usec]⟩
  case unlock =>
    intro a hnever h1 h8 hn hd hv hr hroot
    obtain ⟨t, ht, rest⟩ := unlock_spec h8 p s
    refine ⟨t, run (exec_mbxDebugUnlock p a s) ?_, rest⟩
    refine ((if_neg (by simp [debugNever, hnever])).trans (if_neg (by omega))).trans ?_
    rw [authorise_of_good (by rwa [sec]) hd hv hr (by rwa [rootRevoked_mbxAt]), ht]
  case svn =>
    intro he hlt h64 hall
    have blown := fun b => svnIn_of_blown (t := mbxAt p s) (b := b) (by rwa [arg, sec]) (by rwa [fuses, sec]) (by rwa [held, sec])
    rw [sec, fuses] at blown
    refine ⟨?_, ?_⟩
    · obtain ⟨count, told, last, ctr⟩ := svnBlown_spec h64 (getF s F.SEC_SVN_FUSE_COUNT) (mbxAt p s)
      have done := run (exec_mbxSvnCommit p true s) (blown true)
      rw [if_pos rfl, if_pos rfl] at done
      generalize svnBlown (getF s F.SEC_SVN_FUSE_COUNT) s.sec.running.svn (mbxAt p s) = y at *
      have ended := mbxEnded_mbxEnd (by decide : mbxOk < 16) y
      have ticks : y.freeCtr ≤ (mbxEnd mbxOk y).freeCtr := (mbxEnd_moves (cc := false) mbxOk y (.refl y)).2.1
      refine ⟨_, done, ?_, ended.raisedKept _ _ (by decide) (by decide) (by decide) (told hlt),
        fun h60 => ended.raisedKept _ _ (by decide) (by decide) (by decide) (last h60), ended.result, ?_⟩
      · rw [ended.kept.getF (by decide) (by decide), count]
      · rw [(mbxAt_spec p s).2.2.2.freeCtr_eq] at ctr
        omega
    · have steps := Nat.mod_lt (Config.fuseSteps (mbxAt p s).freeCtr) (by omega : 0 < s.sec.running.svn - getF s F.SEC_SVN_FUSE_COUNT + 1)
      have done := run (exec_mbxSvnCommit p false s) (blown false)
      rw [if_neg Bool.false_ne_true, if_neg Bool.false_ne_true] at done
      generalize Config.fuseSteps (mbxAt p s).freeCtr % (s.sec.running.svn - getF s F.SEC_SVN_FUSE_COUNT + 1) = m at *
      obtain ⟨count, -⟩ := svnBlown_spec (by omega : getF s F.SEC_SVN_FUSE_COUNT + m ≤ 64) (getF s F.SEC_SVN_FUSE_COUNT) (mbxAt p s)
      generalize svnBlown (getF s F.SEC_SVN_FUSE_COUNT) (getF s F.SEC_SVN_FUSE_COUNT + m) (mbxAt p s) = y at *
      have ended := mbxEnded_mbxEnd (by decide : mbxFuse < 16) y
      have final := (ended.kept.getF (f := F.SEC_SVN_FUSE_COUNT) (by decide) (by decide)).trans count
      exact ⟨_, done, ended.result, by omega, by omega⟩
  case revoke =>
    intro a h2 h4 hn hd hv hr hroot
    have done := run (exec_mbxRootRevoke p a s) ((if_neg (by omega)).trans
      (authorise_of_good (f := revokeIn a) (by rwa [sec]) hd hv hr (by rwa [rootRevoked_mbxAt])))
    obtain ⟨usec, uregs, -, -⟩ := nonceUsed_spec (mbxAt p s)
    have revoked : getF (nonceUsed (mbxAt p s)) F.SEC_SVN_ROOT_REVOKED = getF s F.SEC_SVN_ROOT_REVOKED :=
      (getF_congr _ uregs).trans (getF_mbxAt p s (by decide))
    have images : heldImages (nonceUsed (mbxAt p s)) = heldImages s := by rw [heldImages, heldImages, usec, sec]
    have root : ∀ k, rootRevoked (nonceUsed (mbxAt p s)) k = rootRevoked s k := fun k => by rw [rootRevoked, rootRevoked, revoked]
    generalize nonceUsed (mbxAt p s) = x at *
    have kept : ∀ {r}, r < 16 → getF (mbxEnd r x) F.SEC_SVN_ROOT_REVOKED = getF s F.SEC_SVN_ROOT_REVOKED := fun hr =>
      ((mbxEnded_mbxEnd hr x).kept.getF (by decide) (by decide)).trans revoked
    refine ⟨fun hown => ?_, fun hne hall => ⟨fun hused => ?_, fun hunused => ?_⟩⟩
    · rw [revokeIn_of_own hown] at done
      exact ⟨_, done, (mbxEnded_mbxEnd (by decide) x).result, kept (by decide)⟩
    · rw [revokeIn_of_used hne (by rwa [revoked]) (by rwa [images])] at done
      exact ⟨_, done, (mbxEnded_mbxEnd (by decide) x).result, kept (by decide)⟩
    · obtain ⟨result, gone, told⟩ := revoke_spec h4 hne (x := x) (by rwa [revoked]) (by rwa [images])
      exact ⟨_, done, result, gone, fun hf => told (by rwa [root])⟩

end Sys2Proof.Machine
end

/-! ## A firmware activation goes through its phases (R122, R357 to R359) -/

section

-- One proof after another: elaborated side by side, the proofs of this text take more memory than its check allows.
set_option Elab.async false

namespace Sys2Proof.Machine

variable {s t u x : State} {a : FwAct} {p n : Nat}

/-! ### An operation of an activation acts in its phase -/

/-- The operations of an activation: each looks at the activation in hand. -/
theorem act_of_none (h : s.sec.act = none) {c : Instr} (hc : c = .activationStandbyLoaded ∨ c = .activationPauseStart ∨
    c = .activationBankSwitch ∨ c = .activationPauseEnd ∨ c = .activationDone ∨ c = .activationRevert ∨ c = .activationFailed) :
    exec c s = .next s := by
  rcases hc with rfl | rfl | rfl | rfl | rfl | rfl | rfl
  · exact congrArg Host.Outcome.next (show actLoaded s = s by rw [actLoaded, h])
  · exact congrArg Host.Outcome.next (show actPause s = s by rw [actPause, h])
  · exact congrArg Host.Outcome.next (show actSwitch s = s by rw [actSwitch, h])
  · exact congrArg Host.Outcome.next (show actEnd s = s by rw [actEnd, h])
  · exact congrArg Host.Outcome.next (show actDone s = s by rw [actDone, h])
  · exact congrArg Host.Outcome.next (show actRevert s = s by rw [actRevert, h])
  · exact congrArg Host.Outcome.next (show actFailed s = s by rw [actFailed, h])

/-- The activation in hand takes a value. -/
def actSet (v : Option FwAct) (x : State) : State := { x with sec := { x.sec with act := v } }

theorem actSet_spec (v : Option FwAct) (x : State) :
    (actSet v x).regs = x.regs ∧ (actSet v x).sec = { x.sec with act := v } ∧ changesOnly [.sec] x (actSet v x) :=
  ⟨rfl, rfl, .sec (.refl _ x)⟩

/-! ### The standby banks are loaded -/

/-- The notices of an activation. -/
def noticed (s : State) : State :=
  (List.range 64).foldl (fun t fn => if (getFn t fn).rdy && wantsNotice t fn then aen fn 2 1 3 t else t) s

theorem changesOnly_noticed (s : State) : changesOnly [.host] s (noticed s) :=
  .foldl (.refl _ s) fun u _ _ => .ite (changesOnly_aen ..) (.refl _ u)

theorem actLoaded_of_phase (h : s.sec.act = some a) (hp : a.phase = 0) (hrun : running s = true) :
    actLoaded s = actSet (some { a with phase := 1, h := (beatNow s + 127) / 64 * 64 }) (noticed s) := by
  unfold actLoaded noticed actSet
  rw [h]
  exact if_pos ⟨hp, hrun⟩

theorem actLoaded_of_not (h : s.sec.act = some a) (hno : a.phase ≠ 0 ∨ running s = false) : actLoaded s = s := by
  rw [actLoaded, h]
  exact if_neg fun ⟨hp, hrun⟩ => hno.elim (absurd hp) (by simp [hrun])

/-! ### The pause begins -/

theorem ports_lt (hp : p ∈ ports s) : p < 2 := by
  unfold ports at hp
  split at hp <;> simp at hp <;> omega

theorem portOf_mem (s : State) (fn : Nat) : portOf s fn ∈ ports s := by
  unfold portOf ports
  by_cases h : (twoPort s && decide (32 ≤ fn)) = true
  · rw [if_pos h, if_pos (Bool.and_eq_true_iff.mp h).1]
    decide
  · rw [if_neg h]
    split <;> decide

/-- The ports' completions are paused. -/
def portsPaused (s : State) : State := (ports s).foldl (fun t p => setF (F.HOST_CPL_STAT_PAUSED p) 1 t) s

theorem ok_paused (p : Nat) : (F.HOST_CPL_STAT_PAUSED p).ok := by simp [Fld.ok]

theorem portsPaused_spec (s : State) :
    (∀ p ∈ ports s, pausedPort (portsPaused s) p = true) ∧ (portsPaused s).sec = s.sec ∧
      regsKept (fun b => ∃ p ∈ ports s, b = Reg.HOST_CPL_STAT p) s (portsPaused s) ∧ changesOnly [.regs] s (portsPaused s) := by
  refine ⟨?_, ?_, .foldl (.refl s) fun u p hp => .setF (.refl u) _ _ ⟨p, hp, rfl⟩, .foldl (.refl _ s) fun u p _ => .setF (.refl _ u) ..⟩
  · have set : ∀ p u, pausedPort (setF (F.HOST_CPL_STAT_PAUSED p) 1 u) p = true := fun p u => by
      rw [pausedPort, isSet, getF_setF_same _ _ _ (ok_paused p)]
      rfl
    have other : ∀ u, pausedPort (setF (F.HOST_CPL_STAT_PAUSED 1) 1 u) 0 = pausedPort u 0 := fun u =>
      isSet_of_getF (getF_setF_ne _ _ _ _ (by decide))
    intro p hp
    unfold portsPaused
    unfold ports at hp ⊢
    cases h2 : twoPort s with
    | false =>
      rw [h2, if_neg Bool.false_ne_true, List.mem_singleton] at hp
      subst hp
      exact set 0 s
    | true =>
      rw [h2, if_pos rfl] at hp
      rcases List.mem_cons.mp hp with rfl | hp
      · exact (other _).trans (set 0 s)
      · obtain rfl := List.mem_singleton.mp hp
        exact set 1 _
  · exact (changesOnly.foldl (ps := [.regs]) (.refl _ s) fun u p _ => .setF (.refl _ u) ..).sec_eq

theorem actPause_of_phase (h : s.sec.act = some a) (hp : a.phase = 1) (hb : beatNow s % 64 = 0) (hh : a.h ≤ beatNow s)
    (hn : noticesWait s = false) (hrun : running s = true) (hg : grouting s = false) :
    actPause s = happen baseSec 2 (setF F.SEC_STATUS_ACT_PHASE 2
      (actSet (some { a with phase := 2, h := beatNow s, failed := s.beat.failed.length }) (portsPaused s))) := by
  rw [actPause, h]
  exact if_pos ⟨hp, hb, hh, by simp [hn], hrun, by simp [hg]⟩

theorem actPause_of_not (h : s.sec.act = some a) (hno : a.phase ≠ 1 ∨ beatNow s % 64 ≠ 0 ∨ beatNow s < a.h) : actPause s = s := by
  rw [actPause, h]
  refine if_neg ?_
  rintro ⟨hp, hb, hh, -⟩
  omega

theorem ok_actPhase : F.SEC_STATUS_ACT_PHASE.ok := by unfold Fld.ok; decide

/-- The pause at header beat H. -/
theorem paused_spec (v : Option FwAct) (s : State) :
    (∀ p ∈ ports s, pausedPort (happen baseSec 2 (setF F.SEC_STATUS_ACT_PHASE 2 (actSet v (portsPaused s)))) p = true) ∧
      raised baseSec 2 (happen baseSec 2 (setF F.SEC_STATUS_ACT_PHASE 2 (actSet v (portsPaused s)))) = true ∧
      getF (happen baseSec 2 (setF F.SEC_STATUS_ACT_PHASE 2 (actSet v (portsPaused s)))) F.SEC_STATUS_ACT_PHASE = 2 ∧
      (happen baseSec 2 (setF F.SEC_STATUS_ACT_PHASE 2 (actSet v (portsPaused s)))).sec.act = v ∧
      (∀ fn, serving (happen baseSec 2 (setF F.SEC_STATUS_ACT_PHASE 2 (actSet v (portsPaused s)))) fn = false) ∧
      changesOnly (.sec :: eventParts) s (happen baseSec 2 (setF F.SEC_STATUS_ACT_PHASE 2 (actSet v (portsPaused s)))) := by
  obtain ⟨paused, -, kept, parts⟩ := portsPaused_spec s
  generalize portsPaused s = x at *
  obtain ⟨regs, sec, aparts⟩ := actSet_spec v x
  generalize actSet v x = y at *
  have ykept : regsKept (fun b => ∃ p ∈ ports s, b = Reg.HOST_CPL_STAT p) s y := kept.congr regs
  have ypaused : ∀ p ∈ ports s, pausedPort y p = true := fun p hp => (isSet_of_getF (getF_congr _ regs)).trans (paused p hp)
  have status : getF (setF F.SEC_STATUS_ACT_PHASE 2 y) F.SEC_STATUS_ACT_PHASE = 2 := getF_setF_same _ _ _ ok_actPhase
  have zkept : regsKept (· = Reg.SEC_STATUS) y (setF F.SEC_STATUS_ACT_PHASE 2 y) := .setF (.refl y) _ _ rfl
  have zsec : (setF F.SEC_STATUS_ACT_PHASE 2 y).sec = y.sec := setF_sec ..
  have zparts : changesOnly (.sec :: eventParts) s (setF F.SEC_STATUS_ACT_PHASE 2 y) :=
    .setF ((parts.mono (by decide)).trans (aparts.mono (by decide))) _ _
  generalize setF F.SEC_STATUS_ACT_PHASE 2 y = z at *
  have evt := evtOnly_happen baseSec 2 z (by decide) (by decide)
  have told : raised baseSec 2 (happen baseSec 2 z) = true := raised_happen _ _ _ (by decide) (by decide) (by decide) (by decide)
  generalize happen baseSec 2 z = t at *
  have all : ∀ {f : Fld}, quietReg f.addr = true → f.addr ≠ Reg.SEC_STATUS → getF t f = getF y f := fun hq hs =>
    (evt.getF (not_eventReg_of_quiet hq)).trans (zkept.getF hs)
  have stays : ∀ p ∈ ports s, pausedPort t p = true := fun p hp => by
    have two := ports_lt hp
    refine (isSet_of_getF (all (decide_eq_true ?_) ?_)).trans (ypaused p hp)
    · simp only [Reg.HOST_CPL_STAT]; omega
    · simp only [Reg.HOST_CPL_STAT, Reg.SEC_STATUS]; omega
  have layout : ∀ fn, portOf t fn = portOf s fn := fun fn => by
    have strap : getF t F.TOP_STRAP_PORT = getF s F.TOP_STRAP_PORT := by
      refine (all (by decide) (by decide)).trans (ykept.getF ?_)
      rintro ⟨p, hp, he⟩
      have two := ports_lt hp
      simp only [Reg.HOST_CPL_STAT, Reg.TOP_STRAP] at he
      omega
    rw [portOf, portOf, twoPort, twoPort, strap]
  refine ⟨stays, told, (evt.getF (not_eventReg_of_quiet (by decide))).trans status, ?_, fun fn => ?_, zparts.of_evtOnly evt⟩
  · rw [evt.1.sec_eq, zsec, sec]
  · have port := stays _ (portOf_mem s fn)
    rw [← layout fn, pausedPort] at port
    unfold serving
    simp only [port, Bool.not_true, Bool.and_false, Bool.false_and]

/-! ### The bank switch -/

theorem actSwitch_of_phase (h : s.sec.act = some a) (hp : a.phase = 2) (hb : beatNow s = a.h + 64) (hg : grouting s = false) :
    actSwitch s = actSet (some { a with phase := 3 }) s := by
  rw [actSwitch, h]
  exact if_pos ⟨hp, hb, by simp [hg]⟩

theorem actSwitch_of_not (h : s.sec.act = some a) (hno : a.phase ≠ 2 ∨ beatNow s ≠ a.h + 64) : actSwitch s = s := by
  rw [actSwitch, h]
  exact if_neg fun ⟨hp, hb, _⟩ => hno.elim (absurd hp) (absurd hb)

/-! ### The end of the pause -/

/-- A port's pause ends. -/
def portResumed (n p : Nat) (t : State) : State :=
  happen (baseHost p) 7 (setF (F.HOST_LAST_PAUSE_US p) n (setF (F.HOST_CPL_STAT_PAUSED p) 0 t))

theorem portResumed_spec (hn : n < 4096) (hp : p < 2) (t : State) :
    pausedPort (portResumed n p t) p = false ∧ raised (baseHost p) 7 (portResumed n p t) = true ∧
      getF (portResumed n p t) (F.HOST_LAST_PAUSE_US p) = n ∧
      regsKeptE (fun b => b = Reg.HOST_CPL_STAT p ∨ b = Reg.HOST_LAST_PAUSE p) t (portResumed n p t) ∧
      changesOnly eventParts t (portResumed n p t) ∧ raisedKept t (portResumed n p t) := by
  obtain ⟨hpage, hne⟩ := baseHost_page p
  have hsrc : srcOf (baseHost p) 7 < 256 := srcOf_baseHost_lt hp (by decide)
  have okPause : (F.HOST_LAST_PAUSE_US p).ok := by simp [Fld.ok]
  have stat : quietReg (Reg.HOST_CPL_STAT p) = true := decide_eq_true (by simp only [Reg.HOST_CPL_STAT]; omega)
  have pause : quietReg (Reg.HOST_LAST_PAUSE p) = true := decide_eq_true (by simp only [Reg.HOST_LAST_PAUSE]; omega)
  unfold portResumed
  refine ⟨?_, raised_happen _ _ _ hsrc hpage hne (by decide), ?_, ?_, ?_, ?_⟩
  · rw [pausedPort, isSet, getF_happen stat hpage hsrc, getF_setF_ne _ _ _ _ (by simp only [Reg.HOST_CPL_STAT, Reg.HOST_LAST_PAUSE]; omega),
      getF_setF_same _ _ _ (ok_paused p)]
    rfl
  · rw [getF_happen pause hpage hsrc, getF_setF_same _ _ _ okPause]
    exact Nat.mod_eq_of_lt hn
  · exact .happen (.setF (.setF (.refl t) _ _ (.inl rfl)) _ _ (.inr rfl)) _ _ hpage hsrc
  · exact .happen (.setF (.setF (.refl _ t) _ _) _ _) _ _ (by decide) hpage hsrc
  · exact .happen (.setF (.setF (.refl t) _ _ (by simp only [Reg.HOST_CPL_STAT]; omega)) _ _ (by simp only [Reg.HOST_LAST_PAUSE]; omega))
      _ _ hpage (by decide) hsrc

/-- The pause of every port ends. -/
def portsResumed (n : Nat) (s : State) : State := (ports s).foldl (fun t p => portResumed n p t) s

theorem portsResumed_spec (hn : n < 4096) (s : State) :
    (∀ p ∈ ports s, pausedPort (portsResumed n s) p = false ∧ raised (baseHost p) 7 (portsResumed n s) = true ∧
      getF (portsResumed n s) (F.HOST_LAST_PAUSE_US p) = n) ∧
      getF (portsResumed n s) F.SEC_STATUS_ACT_PHASE = getF s F.SEC_STATUS_ACT_PHASE ∧ changesOnly eventParts s (portsResumed n s) := by
  obtain ⟨paused0, told0, last0, kept0, parts0, -⟩ := portResumed_spec hn (by decide : 0 < 2) s
  have phase0 := kept0.getF (f := F.SEC_STATUS_ACT_PHASE) (by decide) (by decide)
  unfold portsResumed ports
  cases twoPort s with
  | false =>
    refine ⟨fun p hp => ?_, phase0, parts0⟩
    obtain rfl := List.mem_singleton.mp hp
    exact ⟨paused0, told0, last0⟩
  | true =>
    have both : (if true = true then [0, 1] else [0]).foldl (fun t p => portResumed n p t) s = portResumed n 1 (portResumed n 0 s) := rfl
    rw [both]
    generalize portResumed n 0 s = x at *
    obtain ⟨paused1, told1, last1, kept1, parts1, stays⟩ := portResumed_spec hn (by decide : 1 < 2) x
    refine ⟨fun p hp => ?_, (kept1.getF (by decide) (by decide)).trans phase0, parts0.trans parts1⟩
    rcases List.mem_cons.mp hp with rfl | hp
    · exact ⟨(isSet_of_getF (kept1.getF (by decide) (by decide))).trans paused0, stays _ _ (by decide) (by decide) (by decide) told0,
        (kept1.getF (by decide) (by decide)).trans last0⟩
    · obtain rfl := List.mem_singleton.mp hp
      exact ⟨paused1, told1, last1⟩

/-- Nothing waits for the end of the pause any more. -/
def noneWaits (x : State) : State :=
  { { x with host := { x.host with paused := [] } } with sec := { x.sec with waiting := [] } }

theorem noneWaits_spec (x : State) :
    (noneWaits x).regs = x.regs ∧ (noneWaits x).sec = { x.sec with waiting := [] } ∧ (noneWaits x).host = { x.host with paused := [] } ∧
      changesOnly [.host, .sec] x (noneWaits x) := ⟨rfl, rfl, rfl, .sec (.host (.refl _ x))⟩

theorem afterPause_of_none (hp : x.host.paused = []) (hw : x.sec.waiting = []) : afterPause x = noneWaits x := by
  unfold afterPause
  dsimp only
  rw [hp, List.foldl_nil, hw, List.foldl_nil]
  rfl

theorem endPause_eq (h : Nat) (s : State) : endPause h s = afterPause (portsResumed (16 * (beatNow s - h)) s) := rfl

/-- The end of a pause in which nothing came that waits for it. -/
theorem endPause_spec {h : Nat} (hn : 16 * (beatNow s - h) < 4096) (hp : s.host.paused = []) (hw : s.sec.waiting = []) :
    (∀ p ∈ ports s, pausedPort (endPause h s) p = false ∧ raised (baseHost p) 7 (endPause h s) = true ∧
      getF (endPause h s) (F.HOST_LAST_PAUSE_US p) = 16 * (beatNow s - h)) ∧
      getF (endPause h s) F.SEC_STATUS_ACT_PHASE = getF s F.SEC_STATUS_ACT_PHASE ∧
      (endPause h s).sec = { s.sec with waiting := [] } ∧ changesOnly (.sec :: eventParts) s (endPause h s) := by
  obtain ⟨each, phase, parts⟩ := portsResumed_spec hn s
  rw [endPause_eq]
  generalize portsResumed (16 * (beatNow s - h)) s = x at *
  rw [afterPause_of_none (by rw [parts.host_eq, hp]) (by rw [parts.sec_eq, hw])]
  obtain ⟨regs, sec, host, nparts⟩ := noneWaits_spec x
  generalize noneWaits x = y at *
  refine ⟨fun p hpm => ?_, (getF_congr _ regs).trans phase, by rw [sec, parts.sec_eq],
    .of_same (p := .host) ((parts.mono (by decide)).trans (nparts.mono (by decide))) ?_⟩
  · obtain ⟨paused, told, last⟩ := each p hpm
    exact ⟨(isSet_of_getF (getF_congr _ regs)).trans paused, (raised_of_regs _ _ regs).trans told, (getF_congr _ regs).trans last⟩
  · change y.host = s.host
    rw [host, parts.host_eq, ← hp]

theorem actEnd_of_not (h : s.sec.act = some a) (h3 : a.phase ≠ 3) (h5 : a.phase ≠ 5) : actEnd s = s := by
  rw [actEnd, h]
  exact (if_neg fun ⟨hp, _⟩ => h3 hp).trans (if_neg fun ⟨hp, _⟩ => h5 hp)

/-- The image of an activation runs, and its registers show it. -/
def imageRuns (v : Option FwAct) (i : ImageInfo) (s : State) : State :=
  { s with sec := { s.sec with act := v, running := i } }

theorem imageRuns_spec (v : Option FwAct) (i : ImageInfo) (s : State) :
    (imageRuns v i s).sec = { s.sec with act := v, running := i } ∧ (imageRuns v i s).host = s.host ∧
      (imageRuns v i s).regs = s.regs ∧ changesOnly [.sec] s (imageRuns v i s) := ⟨rfl, rfl, rfl, .sec (.refl _ s)⟩

theorem actEnd_of_new (h : s.sec.act = some a) (hp : a.phase = 3) (hlo : a.h + 64 < beatNow s) (hhi : beatNow s ≤ a.h + 192)
    (hg : grouting s = false) : actEnd s = endPause a.h (setF F.SEC_STATUS_ACT_PHASE 0
      (showImage (imageRuns (some { a with phase := 4 }) a.commit.img s))) := by
  rw [actEnd, h]
  exact if_pos ⟨hp, hlo, hhi, by simp [hg]⟩

theorem actEnd_of_old (h : s.sec.act = some a) (hp : a.phase = 5) (hhi : beatNow s ≤ a.h + 248) (hg : grouting s = false) :
    actEnd s = endPause a.h (setF F.SEC_STATUS_ACT_PHASE 0 (actSet none s)) := by
  rw [actEnd, h]
  exact (if_neg (by simp [hp])).trans (if_pos ⟨hp, hhi, by simp [hg]⟩)

theorem showImage_spec (s : State) :
    regsKept (fun b => b = Reg.SEC_SVN ∨ b = Reg.SEC_FW_REV_LO ∨ b = Reg.SEC_FW_REV_HI) s (showImage s) ∧
      changesOnly [.regs] s (showImage s) := by
  unfold showImage
  dsimp only
  exact ⟨.setR (.setR (.setF (.setF (.refl s) _ _ (.inl rfl)) _ _ (.inl rfl)) _ _ (.inr (.inl rfl))) _ _ (.inr (.inr rfl)),
    .setR (.setR (.setF (.setF (.refl _ s) ..) ..) ..) ..⟩

/-- The layout of the ports is a strap's. -/
theorem ports_of_strap (h : getF t F.TOP_STRAP_PORT = getF s F.TOP_STRAP_PORT) : ports t = ports s := by
  rw [ports, ports, twoPort, twoPort, h]

/-! ### The answers of an activation -/

theorem commitEnd_spec (c : FwCommit) (st : Sts) (s : State) :
    (commitEnd c st s).regs = s.regs ∧ (commitEnd c st s).sec = { s.sec with commit := none } ∧
      changesOnly [.host, .sec, .out] s (commitEnd c st s) ∧
      (∀ i, c.cmd = some i → hasCmd s i = true → (getCmd (commitEnd c st s) i).st = .ready ∧ (getCmd (commitEnd c st s) i).status = st) := by
  cases hc : c.cmd with
  | none =>
    have heq : commitEnd c st s = emit (.rirus c.tag (if st = stOk then 0 else 3) (leBytes 1 st.sc ++ leBytes 1 st.sct))
        { s with sec := { s.sec with commit := none } } := by rw [commitEnd, hc]
    rw [heq]
    exact ⟨rfl, rfl, .emit (.sec (.refl _ s)) _, fun i h => nomatch h⟩
  | some i =>
    by_cases hhas : hasCmd s i = true
    · rw [commitEnd_of_command hc hhas]
      refine ⟨rfl, rfl, .host (.sec (.refl _ s)), fun j hj _ => ?_⟩
      obtain rfl := Option.some.inj hj
      exact ready_cmd ..
    · have heq : commitEnd c st s = { s with sec := { s.sec with commit := none } } := by
        unfold commitEnd
        simp only [hc]
        exact if_neg hhas
      rw [heq]
      refine ⟨rfl, rfl, .sec (.refl _ s), fun j hj hj' => ?_⟩
      obtain rfl := Option.some.inj hj
      exact absurd hj' hhas

theorem actAnswer_spec (c : FwCommit) (st : Sts) (s : State) :
    (actAnswer c st s).regs = s.regs ∧ (actAnswer c st s).sec.act = s.sec.act ∧ (actAnswer c st s).sec.slots = s.sec.slots ∧
      (actAnswer c st s).sec.running = s.sec.running ∧
      (∀ i, c.action = 3 → c.cmd = some i → hasCmd s i = true →
        (getCmd (actAnswer c st s) i).st = .ready ∧ (getCmd (actAnswer c st s) i).status = st) := by
  by_cases h : c.action = 3
  · have heq : actAnswer c st s = commitEnd c st s := if_pos h
    obtain ⟨regs, sec, -, cmd⟩ := commitEnd_spec c st s
    rw [heq]
    exact ⟨regs, by rw [sec], by rw [sec], by rw [sec], fun i _ => cmd i⟩
  · have heq : actAnswer c st s = s := if_neg h
    rw [heq]
    exact ⟨rfl, rfl, rfl, rfl, fun i ha => absurd ha h⟩

end Sys2Proof.Machine
end

/-! ## Activations go through their phases: the statement (R122, R357 to R359) -/

section

-- One proof after another: elaborated side by side, the proofs of this text take more memory than its check allows.
set_option Elab.async false

namespace Sys2Proof.Machine

variable {s x : State} {a : FwAct}

/-! ### The end of an activation -/

theorem actDone_of_not (h : s.sec.act = some a) (hno : a.phase ≠ 4 ∨ grouting s = true) : actDone s = s := by
  rw [actDone, h]
  exact if_neg fun ⟨hp, hg⟩ => hno.elim (absurd hp) (by simpa using hg)

/-- No activation is in hand, and no slot waits for a start. -/
def actOver (s : State) : State := { s with sec := { s.sec with act := none, nextStart := none } }

theorem actOver_spec (s : State) : (actOver s).sec.act = none ∧ (actOver s).host = s.host := ⟨rfl, rfl⟩

/-- The registers name the new slot. -/
def slotNamed (k : Nat) (s : State) : State :=
  setF F.SEC_STATUS_BOOT_SRC (k - 1) (setF F.SEC_STATUS_ACTIVE_SLOT k (setF F.SEC_STATUS_PENDING 0 s))

theorem slotNamed_spec {k : Nat} (hk : k ≤ 2) (s : State) :
    getF (slotNamed k s) F.SEC_STATUS_ACTIVE_SLOT = k ∧ getF (slotNamed k s) F.SEC_STATUS_BOOT_SRC = k - 1 ∧
      isSet (slotNamed k s) F.SEC_STATUS_PENDING = false ∧ (slotNamed k s).sec = s.sec ∧ (slotNamed k s).host = s.host := by
  have okSrc : F.SEC_STATUS_BOOT_SRC.ok := by unfold Fld.ok; decide
  have okSlot : F.SEC_STATUS_ACTIVE_SLOT.ok := by unfold Fld.ok; decide
  have okPending : F.SEC_STATUS_PENDING.ok := by unfold Fld.ok; decide
  unfold slotNamed
  refine ⟨?_, ?_, ?_, by simp only [setF_sec], by simp only [setF_host]⟩
  · rw [getF_setF_apart _ _ _ _ okSrc (.inr (by decide)), getF_setF_same _ _ _ okSlot]
    exact Nat.mod_eq_of_lt (by simp; omega)
  · rw [getF_setF_same _ _ _ okSrc]
    exact Nat.mod_eq_of_lt (by simp; omega)
  · rw [isSet, getF_setF_apart _ _ _ _ okSrc (.inr (by decide)), getF_setF_apart _ _ _ _ okSlot (.inr (by decide)),
      getF_setF_same _ _ _ okPending]
    rfl

theorem actDone_of_phase (h : s.sec.act = some a) (hp : a.phase = 4) (hg : grouting s = false) :
    actDone s = happen baseSec 3 (actAnswer a.commit stOk (slotNamed a.commit.fs (actOver s))) := by
  rw [actDone, h]
  exact if_pos ⟨hp, by simp [hg]⟩

theorem actDone_spec (h : s.sec.act = some a) (hp : a.phase = 4) (hg : grouting s = false) (hfs : a.commit.fs ≤ 2)
    (haction : a.commit.action = 3) :
    getF (actDone s) F.SEC_STATUS_ACTIVE_SLOT = a.commit.fs ∧ (actDone s).sec.act = none ∧
      getF (actDone s) F.SEC_STATUS_BOOT_SRC = a.commit.fs - 1 ∧ isSet (actDone s) F.SEC_STATUS_PENDING = false ∧
      raised baseSec 3 (actDone s) = true ∧
      (∀ i, a.commit.cmd = some i → hasCmd s i = true → (getCmd (actDone s) i).st = .ready ∧ (getCmd (actDone s) i).status = stOk) := by
  rw [actDone_of_phase h hp hg]
  obtain ⟨ended, host⟩ := actOver_spec s
  generalize actOver s = x at *
  obtain ⟨slot, src, pending, sec, nhost⟩ := slotNamed_spec hfs x
  generalize slotNamed a.commit.fs x = y at *
  obtain ⟨regs, act, -, -, cmd⟩ := actAnswer_spec a.commit stOk y
  generalize actAnswer a.commit stOk y = z at *
  have evt := evtOnly_happen baseSec 3 z (by decide) (by decide)
  have fld : ∀ {f : Fld}, f.addr = Reg.SEC_STATUS → getF (happen baseSec 3 z) f = getF y f := fun hf =>
    (evt.getF (not_eventReg_of_quiet (by rw [hf]; decide))).trans (getF_congr _ regs)
  refine ⟨(fld rfl).trans slot, ?_, (fld rfl).trans src, (isSet_of_getF (fld rfl)).trans pending,
    raised_happen _ _ _ (by decide) (by decide) (by decide) (by decide), fun i hi hhas => ?_⟩
  · rw [happen_sec, act, sec, ended]
  · have ready := cmd i haction hi (by rwa [hasCmd, nhost, host])
    rwa [getCmd_congr (happen_host ..)]

/-! ### A revert -/

theorem actRevert_of_not (h : s.sec.act = some a) (h2 : a.phase ≠ 2) (h3 : a.phase ≠ 3) : actRevert s = s := by
  rw [actRevert, h]
  exact if_neg fun ⟨hp, _⟩ => hp.elim h2 h3

/-- The image of a slot has failed. -/
def slotFailed (k : Nat) (s : State) : State := setSlotFw k { getSlotFw s k with failed := true } s

theorem slotFailed_spec (k : Nat) (s : State) :
    (getSlotFw (slotFailed k s) k).failed = true ∧ (slotFailed k s).sec.running = s.sec.running ∧ (slotFailed k s).host = s.host :=
  ⟨congrArg FwSlot.failed (getSlotFw_setSlotFw ..), rfl, rfl⟩

/-- The registers tell a revert. -/
def revertShown (s : State) : State := setF F.SEC_STATUS_LAST_REVERTED 1 (setF F.SEC_STATUS_ACT_PHASE 3 s)

theorem revertShown_spec (s : State) :
    isSet (revertShown s) F.SEC_STATUS_LAST_REVERTED = true ∧ getF (revertShown s) F.SEC_STATUS_ACT_PHASE = 3 ∧
      (revertShown s).sec = s.sec ∧ (revertShown s).host = s.host := by
  have ok : F.SEC_STATUS_LAST_REVERTED.ok := by unfold Fld.ok; decide
  unfold revertShown
  refine ⟨?_, ?_, by simp only [setF_sec], by simp only [setF_host]⟩
  · rw [isSet, getF_setF_same _ _ _ ok]
    rfl
  · rw [getF_setF_apart _ _ _ _ ok (.inl (by decide)), getF_setF_same _ _ _ ok_actPhase]
    rfl

theorem actRevert_of_phase (h : s.sec.act = some a) (hp : a.phase = 2 ∨ a.phase = 3) (hg : grouting s = false)
    (hw : a.phase = 3 ∧ a.h + 192 ≤ beatNow s ∨ a.failed < s.beat.failed.length) :
    actRevert s = happen baseSec 4 (actAnswer a.commit stFwProhibited
      (revertShown (actSet (some { a with phase := 5 }) (slotFailed a.commit.fs s)))) := by
  rw [actRevert, h]
  exact if_pos ⟨hp, by simp [hg], hw⟩

theorem actRevert_spec (h : s.sec.act = some a) (hp : a.phase = 2 ∨ a.phase = 3) (hg : grouting s = false)
    (hw : a.phase = 3 ∧ a.h + 192 ≤ beatNow s ∨ a.failed < s.beat.failed.length) :
    (getSlotFw (actRevert s) a.commit.fs).failed = true ∧ raised baseSec 4 (actRevert s) = true ∧
      isSet (actRevert s) F.SEC_STATUS_LAST_REVERTED = true ∧ getF (actRevert s) F.SEC_STATUS_ACT_PHASE = 3 ∧
      (actRevert s).sec.act = some { a with phase := 5 } ∧ (actRevert s).sec.running = s.sec.running ∧
      (∀ i, a.commit.action = 3 → a.commit.cmd = some i → hasCmd s i = true →
        (getCmd (actRevert s) i).st = .ready ∧ (getCmd (actRevert s) i).status = stFwProhibited) := by
  rw [actRevert_of_phase h hp hg hw]
  obtain ⟨failed, running, host⟩ := slotFailed_spec a.commit.fs s
  generalize slotFailed a.commit.fs s = x at *
  generalize some { a with phase := 5 } = v
  obtain ⟨-, asec, aparts⟩ := actSet_spec v x
  generalize actSet v x = y at *
  obtain ⟨reverted, phase, sec, rhost⟩ := revertShown_spec y
  generalize revertShown y = w at *
  obtain ⟨regs, act, slots, run, cmd⟩ := actAnswer_spec a.commit stFwProhibited w
  generalize actAnswer a.commit stFwProhibited w = z at *
  have evt := evtOnly_happen baseSec 4 z (by decide) (by decide)
  have fld : ∀ {f : Fld}, f.addr = Reg.SEC_STATUS → getF (happen baseSec 4 z) f = getF w f := fun hf =>
    (evt.getF (not_eventReg_of_quiet (by rw [hf]; decide))).trans (getF_congr _ regs)
  refine ⟨?_, raised_happen _ _ _ (by decide) (by decide) (by decide) (by decide), (isSet_of_getF (fld rfl)).trans reverted,
    (fld rfl).trans phase, ?_, ?_, fun i ha hi hhas => ?_⟩
  · rw [getSlotFw, happen_sec, slots, sec, asec]
    exact failed
  · rw [happen_sec, act, sec, asec]
  · rw [happen_sec, run, sec, asec, ← running]
  · have ready := cmd i ha hi (by rwa [hasCmd, rhost, aparts.host_eq, host])
    rwa [getCmd_congr (happen_host ..)]

/-! ### A failed activation -/

theorem actFailed_of_not (h : s.sec.act = some a) (hno : a.phase ≠ 5 ∨ beatNow s < a.h + 248) : actFailed s = s := by
  rw [actFailed, h]
  exact if_neg fun ⟨hp, hb⟩ => hno.elim (absurd hp) (Nat.not_lt.mpr hb)

theorem actFailed_of_phase (h : s.sec.act = some a) (hp : a.phase = 5) (hb : a.h + 248 ≤ beatNow s) :
    actFailed s = fatal baseSec 5 (actSet none s) := by
  rw [actFailed, h]
  exact if_pos ⟨hp, hb⟩

theorem actFailed_spec (hrun : running s = true) :
    raised baseSec 5 (fatal baseSec 5 (actSet none s)) = true ∧ (fatal baseSec 5 (actSet none s)).top.faultN = true ∧
      grouting (fatal baseSec 5 (actSet none s)) = true ∧ (fatal baseSec 5 (actSet none s)).sec.act = none := by
  obtain ⟨regs, sec, parts⟩ := actSet_spec none s
  generalize actSet none s = x at *
  have xrun : running x = true := by
    rw [running, modeNow, getF_congr (s := s) _ regs, parts.top_eq]
    exact hrun
  obtain ⟨fparts, -, -, told, fault⟩ := fatal_spec (base := baseSec) (i := 5) x (by decide) (by decide) (by decide) (by decide)
  obtain ⟨u, heq, hu⟩ := fatal_eq xrun (base := baseSec) (i := 5) (by decide) (by decide)
  refine ⟨told, fault xrun, ?_, by rw [fparts.sec_eq, sec]⟩
  rw [heq]
  exact grouting_groutCause hu.running 2

/-! ### The statement -/

/-- The end of the pause with the new image. -/
theorem pauseEnded_new (h : s.sec.act = some a) (hp : a.phase = 3) (hlo : a.h + 64 < beatNow s) (hhi : beatNow s ≤ a.h + 192)
    (hg : grouting s = false) (hnone : s.host.paused = []) (hw : s.sec.waiting = []) :
    (∀ p ∈ ports s, pausedPort (actEnd s) p = false ∧ raised (baseHost p) 7 (actEnd s) = true ∧
        getF (actEnd s) (F.HOST_LAST_PAUSE_US p) = 16 * (beatNow s - a.h)) ∧
      (actEnd s).sec.running = a.commit.img ∧ (actEnd s).sec.act = some { a with phase := 4 } ∧
      getF (actEnd s) F.SEC_STATUS_ACT_PHASE = 0 ∧ changesOnly (.sec :: eventParts) s (actEnd s) := by
  rw [actEnd_of_new h hp hlo hhi hg]
  generalize some { a with phase := 4 } = v
  obtain ⟨sec, host, regs, parts⟩ := imageRuns_spec v a.commit.img s
  generalize imageRuns v a.commit.img s = x at *
  obtain ⟨shown, sparts⟩ := showImage_spec x
  generalize showImage x = y at *
  have phase : getF (setF F.SEC_STATUS_ACT_PHASE 0 y) F.SEC_STATUS_ACT_PHASE = 0 := getF_setF_same _ _ _ ok_actPhase
  have strap : getF (setF F.SEC_STATUS_ACT_PHASE 0 y) F.TOP_STRAP_PORT = getF s F.TOP_STRAP_PORT :=
    (getF_setF_ne _ _ _ _ (by decide)).trans ((shown.getF (by decide)).trans (getF_congr _ regs))
  have zparts : changesOnly (.sec :: eventParts) s (setF F.SEC_STATUS_ACT_PHASE 0 y) :=
    .setF ((parts.mono (by decide)).trans (sparts.mono (by decide))) _ _
  have zsec : (setF F.SEC_STATUS_ACT_PHASE 0 y).sec = x.sec := by rw [setF_sec, sparts.sec_eq]
  generalize setF F.SEC_STATUS_ACT_PHASE 0 y = z at *
  have beat : beatNow z = beatNow s := by rw [beatNow, beatNow, zparts.beat_eq]
  obtain ⟨each, ephase, esec, eparts⟩ := endPause_spec (s := z) (h := a.h) (by omega) (by rw [zparts.host_eq, hnone])
    (by rw [zsec, sec]; exact hw)
  rw [ports_of_strap strap, beat] at each
  exact ⟨each, by rw [esec, zsec, sec], by rw [esec, zsec, sec], ephase.trans phase, zparts.trans eparts⟩

/-- The end of the pause with the old image. -/
theorem pauseEnded_old (h : s.sec.act = some a) (hp : a.phase = 5) (hhi : beatNow s ≤ a.h + 248)
    (hg : grouting s = false) (hnone : s.host.paused = []) (hw : s.sec.waiting = []) :
    (∀ p ∈ ports s, pausedPort (actEnd s) p = false) ∧ (actEnd s).sec.act = none ∧ (actEnd s).sec.running = s.sec.running := by
  rw [actEnd_of_old h hp hhi hg]
  obtain ⟨regs, sec, parts⟩ := actSet_spec none s
  generalize actSet none s = x at *
  have strap : getF (setF F.SEC_STATUS_ACT_PHASE 0 x) F.TOP_STRAP_PORT = getF s F.TOP_STRAP_PORT :=
    (getF_setF_ne _ _ _ _ (by decide)).trans (getF_congr _ regs)
  have zparts : changesOnly [.regs, .sec] s (setF F.SEC_STATUS_ACT_PHASE 0 x) := .setF (parts.mono (by decide)) _ _
  have zsec : (setF F.SEC_STATUS_ACT_PHASE 0 x).sec = x.sec := setF_sec ..
  generalize setF F.SEC_STATUS_ACT_PHASE 0 x = z at *
  have beat : beatNow z = beatNow s := by rw [beatNow, beatNow, zparts.beat_eq]
  obtain ⟨each, -, esec, -⟩ := endPause_spec (s := z) (h := a.h) (by omega) (by rw [zparts.host_eq, hnone])
    (by rw [zsec, sec]; exact hw)
  rw [ports_of_strap strap] at each
  exact ⟨fun p hp => (each p hp).1, by rw [esec, zsec, sec], by rw [esec, zsec, sec]⟩

/-- Settles O50: each operation in its phase by its lemma, and out of its phase it leaves the state. -/
theorem activationsGoThroughTheirPhases : Obligations.ActivationsGoThroughTheirPhases := by
  unfold Obligations.ActivationsGoThroughTheirPhases
  intro s a
  have done : ∀ {x : State}, x = s → Host.Outcome.next x = (Host.Outcome.next s : Res) := fun h => congrArg _ h
  refine ⟨fun hnone c hc => act_of_none hnone hc, fun h => ⟨?loaded, ?notLoaded, ?paused, ?notPaused, ?switched, ?notSwitched, ?ended,
    ?endedOld, ?notEnded, ?finished, ?notFinished, ?reverted, ?notReverted, ?failed, ?notFailed⟩⟩
  case loaded =>
    intro hp hrun
    refine ⟨_, congrArg Host.Outcome.next (actLoaded_of_phase h hp hrun), rfl, ?_⟩
    exact ((changesOnly_noticed s).mono (by decide)).trans ((actSet_spec _ _).2.2.mono (by decide))
  case notLoaded => exact fun hno => done (actLoaded_of_not h hno)
  case paused =>
    intro hp hb hh hn hrun hg
    exact ⟨_, congrArg Host.Outcome.next (actPause_of_phase h hp hb hh hn hrun hg), paused_spec _ s⟩
  case notPaused => exact fun hno => done (actPause_of_not h hno)
  case switched => exact fun hp hb hg => congrArg Host.Outcome.next (actSwitch_of_phase h hp hb hg)
  case notSwitched => exact fun hno => done (actSwitch_of_not h hno)
  case ended => exact fun hp hlo hhi hg hnone hw => ⟨_, rfl, pauseEnded_new h hp hlo hhi hg hnone hw⟩
  case endedOld => exact fun hp _ hhi hg hnone hw => ⟨_, rfl, pauseEnded_old h hp hhi hg hnone hw⟩
  case notEnded => exact fun h3 h5 => done (actEnd_of_not h h3 h5)
  case finished => exact fun hp hg _ hfs haction => ⟨_, rfl, actDone_spec h hp hg hfs haction⟩
  case notFinished => exact fun hno => done (actDone_of_not h hno)
  case reverted => exact fun hp hg hw => ⟨_, rfl, actRevert_spec h hp hg hw⟩
  case notReverted => exact fun h2 h3 => done (actRevert_of_not h h2 h3)
  case failed =>
    intro hp hb hrun
    exact ⟨_, congrArg Host.Outcome.next (actFailed_of_phase h hp hb), actFailed_spec hrun⟩
  case notFailed => exact fun hno => done (actFailed_of_not h hno)

end Sys2Proof.Machine
end

/-! ## Hod channels: their states and what changes them (R375, R376, R384, R386, R388) -/

section

-- One proof after another: elaborated side by side, the proofs of this text take more memory than its check allows.
set_option Elab.async false

namespace Sys2Proof.Machine

variable {s t u x : State} {j k n : Nat} {d : HodDesc}

/-! ### A channel takes a value, and a state -/

theorem ok_state (k : Nat) : (F.HOD_CH_STAT_STATE k).ok := by simp [Fld.ok]
theorem ok_inFlight (k : Nat) : (F.HOD_CH_STAT_IN_FLIGHT k).ok := by simp [Fld.ok]
theorem ok_haltCause (k : Nat) : (F.HOD_CH_STAT_HALT_CAUSE k).ok := by simp [Fld.ok]

/-- The registers of two channels are apart. -/
theorem stat_ne (h : j ≠ k) : Reg.HOD_CH_STAT j ≠ Reg.HOD_CH_STAT k := by
  simp only [Reg.HOD_CH_STAT]
  omega

theorem stat_ne_moved (j k : Nat) : Reg.HOD_CH_STAT j ≠ Reg.HOD_CH_MOVED k := by
  simp only [Reg.HOD_CH_STAT, Reg.HOD_CH_MOVED]
  omega

theorem getCh_congr (h : t.hod = s.hod) (k : Nat) : getCh t k = getCh s k := by rw [getCh, getCh, h]

theorem hodState_congr (h : t.regs = s.regs) (k : Nat) : hodState t k = hodState s k := getF_congr _ h

/-- The channel's value, before HOD_CH_STAT shows its bursts. -/
def chPut (k : Nat) (v : HodCh) (s : State) : State := { s with hod := { s.hod with chs := tset hodD k v s.hod.chs } }

theorem chPut_spec (k : Nat) (v : HodCh) (s : State) :
    (chPut k v s).regs = s.regs ∧ (chPut k v s).hod = { s.hod with chs := tset hodD k v s.hod.chs } ∧ changesOnly [.hod] s (chPut k v s) :=
  ⟨rfl, rfl, .hod (.refl _ s)⟩

theorem setCh_eq (k : Nat) (v : HodCh) (s : State) : setCh k v s = setF (F.HOD_CH_STAT_IN_FLIGHT k) v.inflight.length (chPut k v s) := rfl

theorem setCh_hod (k : Nat) (v : HodCh) (s : State) : (setCh k v s).hod = { s.hod with chs := tset hodD k v s.hod.chs } := by
  rw [setCh_eq, setF_hod, (chPut_spec ..).2.1]

theorem getCh_setCh (k : Nat) (v : HodCh) (s : State) : getCh (setCh k v s) k = v := by
  rw [getCh, setCh_hod]
  exact tget_tset_same ..

theorem getCh_setCh_ne (h : j ≠ k) (v : HodCh) (s : State) : getCh (setCh k v s) j = getCh s j := by
  rw [getCh, setCh_hod]
  exact tget_tset_ne _ _ _ h

theorem changesOnly_setCh (k : Nat) (v : HodCh) (s : State) : changesOnly [.regs, .hod] s (setCh k v s) := by
  rw [setCh_eq]
  exact .setF ((chPut_spec ..).2.2.mono (by decide)) _ _

theorem regsKept_setCh (k : Nat) (v : HodCh) (s : State) : regsKept (· = Reg.HOD_CH_STAT k) s (setCh k v s) := by
  rw [setCh_eq]
  exact .setF (.of_regs (chPut_spec ..).1) _ _ rfl

/-- A channel's value shows in IN_FLIGHT alone. -/
theorem getF_setCh {f : Fld} (h : f.lo + f.w ≤ 12) (k : Nat) (v : HodCh) (s : State) : getF (setCh k v s) f = getF s f := by
  rw [setCh_eq]
  exact (getF_setF_apart _ _ _ _ (ok_inFlight k) (.inl h)).trans (getF_congr _ (chPut_spec ..).1)

theorem hodState_setCh (j k : Nat) (v : HodCh) (s : State) : hodState (setCh k v s) j = hodState s j := getF_setCh (by simp) ..

theorem hodState_setHod (hn : n < 8) (k : Nat) (s : State) : hodState (setHod k n s) k = n :=
  (getF_setF_same _ _ _ (ok_state k)).trans (Nat.mod_eq_of_lt hn)

theorem hodState_setHod_ne (h : j ≠ k) (n : Nat) (s : State) : hodState (setHod k n s) j = hodState s j := getF_setF_ne _ _ _ _ (stat_ne h)

theorem getCh_setHod (j k n : Nat) (s : State) : getCh (setHod k n s) j = getCh s j := getCh_congr (setF_hod ..) j

theorem regsKept_setHod (k n : Nat) (s : State) : regsKept (· = Reg.HOD_CH_STAT k) s (setHod k n s) := .setF (.refl s) _ _ rfl

theorem changesOnly_setHod (k n : Nat) (s : State) : changesOnly [.regs] s (setHod k n s) := .setF (.refl _ s) ..

/-- A field of a state's register that is not STATE. -/
theorem getF_setHod {f : Fld} (h : 3 ≤ f.lo) (k n : Nat) (s : State) : getF (setHod k n s) f = getF s f :=
  getF_setF_apart _ _ _ _ (ok_state k) (.inr h)

theorem writesReg_setF (f : Fld) (v : Nat) (s : State) :
    writesReg f.addr (putBits (getR s f.addr) f.lo f.w v) s (setF f v s) := writesReg_setR ..

/-! ### Causes (R386) -/

theorem srcOf_baseHod_lt (h : k < 32) : srcOf baseHod k < 256 := by
  have all : ∀ k < 32, srcOf baseHod k < 256 := by decide
  exact all k h

theorem ok_cause (k : Nat) (h : n < 32) : (bitF (Reg.HOD_CH_CAUSE k) n).ok := by
  simp only [bitF, Fld.ok]
  omega

theorem cause_quiet (k : Nat) : quietReg (Reg.HOD_CH_CAUSE k) = true := decide_eq_true (by simp only [Reg.HOD_CH_CAUSE]; omega)
theorem stat_quiet (k : Nat) : quietReg (Reg.HOD_CH_STAT k) = true := decide_eq_true (by simp only [Reg.HOD_CH_STAT]; omega)
theorem moved_quiet (k : Nat) : quietReg (Reg.HOD_CH_MOVED k) = true := decide_eq_true (by simp only [Reg.HOD_CH_MOVED]; omega)

/-- What a cause of a register `a` leaves. -/
structure Caused (a bit : Nat) (s t : State) : Prop where
  set : getF t (bitF a bit) = 1
  kept : regsKeptE (· = a) s t
  others : ∀ b, b ≠ bit → getF t (bitF a b) = getF s (bitF a b)
  parts : changesOnly eventParts s t

theorem caused_happenCause {base i a en bit : Nat} (hs : srcOf base i < 256) (hok : (bitF a bit).ok) (hq : quietReg a = true) (s : State) :
    Caused a bit s (happenCause base i a en bit s) := by
  have written : getF (setF (bitF a bit) 1 s) (bitF a bit) = 1 := getF_setF_same _ _ _ hok
  have others : ∀ b, b ≠ bit → getF (setF (bitF a bit) 1 s) (bitF a b) = getF s (bitF a b) := fun b hb =>
    getF_setF_apart _ _ _ _ hok (by simp only [bitF]; omega)
  have kept : regsKeptE (· = a) s (setF (bitF a bit) 1 s) := .setF (.refl s) _ _ rfl
  have parts : changesOnly eventParts s (setF (bitF a bit) 1 s) := .setF (.refl _ s) _ _
  unfold happenCause
  dsimp only
  generalize setF (bitF a bit) 1 s = x at *
  split
  · have evt := evtOnly_occur (srcOf base i) 0 false (srcOn s (srcOf base i)) (eventRest x base) x hs
    have same : ∀ b, getF (occur (srcOf base i) 0 false (srcOn s (srcOf base i)) (eventRest x base) x) (bitF a b) = getF x (bitF a b) :=
      fun b => evt.getF (not_eventReg_of_quiet hq)
    exact ⟨(same bit).trans written, kept.of_evtOnly evt, fun b hb => (same b).trans (others b hb), parts.of_evtOnly evt⟩
  · exact ⟨written, kept, others, parts⟩

theorem caused_hodCause (hk : k < 32) (hn : n < 32) (s : State) : Caused (Reg.HOD_CH_CAUSE k) n s (hodCause k n s) :=
  caused_happenCause (srcOf_baseHod_lt hk) (ok_cause k hn) (cause_quiet k) s

/-- A channel halts with a cause. -/
theorem hodHalt_spec (hk : k < 32) (hn : n < 8) (s : State) :
    hodState (hodHalt k n s) k = hHalted ∧ getF (hodHalt k n s) (F.HOD_CH_STAT_HALT_CAUSE k) = n ∧
      getF (hodHalt k n s) (bitF (Reg.HOD_CH_CAUSE k) 1) = 1 ∧
      (∀ b, b ≠ 1 → getF (hodHalt k n s) (bitF (Reg.HOD_CH_CAUSE k) b) = getF s (bitF (Reg.HOD_CH_CAUSE k) b)) ∧
      (∀ f : Fld, f.addr = Reg.HOD_CH_STAT k → 7 ≤ f.lo → getF (hodHalt k n s) f = getF s f) ∧
      regsKeptE (fun a => a = Reg.HOD_CH_STAT k ∨ a = Reg.HOD_CH_CAUSE k) s (hodHalt k n s) ∧
      changesOnly eventParts s (hodHalt k n s) := by
  have halted := hodState_setHod (by decide : hHalted < 8) k s
  have high : ∀ f : Fld, 7 ≤ f.lo → getF (setHod k hHalted s) f = getF s f := fun f hf => getF_setHod (by omega) k hHalted s
  have kept0 := regsKept_setHod k hHalted s
  have parts0 := changesOnly_setHod k hHalted s
  unfold hodHalt
  generalize setHod k hHalted s = x at *
  have state : hodState (setF (F.HOD_CH_STAT_HALT_CAUSE k) n x) k = hodState x k := getF_setF_apart _ _ _ _ (ok_haltCause k) (.inl (by simp))
  have cause : getF (setF (F.HOD_CH_STAT_HALT_CAUSE k) n x) (F.HOD_CH_STAT_HALT_CAUSE k) = n :=
    (getF_setF_same _ _ _ (ok_haltCause k)).trans (Nat.mod_eq_of_lt hn)
  have high1 : ∀ f : Fld, 7 ≤ f.lo → getF (setF (F.HOD_CH_STAT_HALT_CAUSE k) n x) f = getF x f := fun f hf =>
    getF_setF_apart _ _ _ _ (ok_haltCause k) (.inr hf)
  have kept1 : regsKept (· = Reg.HOD_CH_STAT k) s (setF (F.HOD_CH_STAT_HALT_CAUSE k) n x) := kept0.setF _ _ rfl
  have parts1 : changesOnly eventParts s (setF (F.HOD_CH_STAT_HALT_CAUSE k) n x) := .setF (parts0.mono (by decide)) _ _
  generalize setF (F.HOD_CH_STAT_HALT_CAUSE k) n x = y at *
  have told := caused_hodCause hk (by decide : 1 < 32) y
  generalize hodCause k 1 y = z at *
  have stat : ∀ f : Fld, f.addr = Reg.HOD_CH_STAT k → getF z f = getF y f := fun f hf =>
    told.kept.getF (by rw [hf]; simp only [Reg.HOD_CH_STAT, Reg.HOD_CH_CAUSE]; omega) (by rw [hf]; exact stat_quiet k)
  refine ⟨(stat _ rfl).trans (state.trans halted), (stat _ rfl).trans cause, told.set, fun b hb => (told.others b hb).trans ?_,
    fun f hf h7 => (stat f hf).trans ((high1 f h7).trans (high f h7)), ?_, parts1.trans told.parts⟩
  · exact kept1.getF (by simp only [bitF, Reg.HOD_CH_STAT, Reg.HOD_CH_CAUSE]; omega)
  · exact (kept1.mono fun _ h => .inl h).toE.trans fun a ha he => told.kept a (fun h => ha (.inr h)) he

/-! ### START and KICK -/

theorem writesReg_stat (f : Fld) (hf : f.addr = Reg.HOD_CH_STAT k) (v : Nat) (s : State) :
    writesReg (Reg.HOD_CH_STAT k) (putBits (getR s (Reg.HOD_CH_STAT k)) f.lo f.w v) s (setF f v s) := by
  have h := writesReg_setF f v s
  rwa [hf] at h

theorem startCh_of_idle (h : hodState s k = hIdle) : startCh k s = setHod k hFetch s := if_pos h

theorem startCh_of_halted (h : hodState s k = hHalted) : startCh k s = setF (F.HOD_CH_STAT_HALT_CAUSE k) 0 (setHod k hFetch s) :=
  (if_neg (by rw [h]; decide)).trans (if_pos h)

theorem startCh_of_not (h1 : hodState s k ≠ hIdle) (h2 : hodState s k ≠ hHalted) : startCh k s = hodIgnored k s :=
  (if_neg h1).trans (if_neg h2)

/-- A restart of a halted channel writes its register once for the state and once for the cause. -/
theorem writesReg_restarted (k : Nat) (s : State) :
    writesReg (Reg.HOD_CH_STAT k) (putBits (putBits (getR s (Reg.HOD_CH_STAT k)) 0 3 hFetch) 4 3 0) s
      (setF (F.HOD_CH_STAT_HALT_CAUSE k) 0 (setHod k hFetch s)) := by
  have first : getR (setHod k hFetch s) (Reg.HOD_CH_STAT k) = putBits (getR s (Reg.HOD_CH_STAT k)) 0 3 hFetch :=
    getR_setF_same (F.HOD_CH_STAT_STATE k) hFetch s (ok_state k)
  obtain ⟨value, kept, parts⟩ := writesReg_stat (k := k) (F.HOD_CH_STAT_HALT_CAUSE k) rfl 0 (setHod k hFetch s)
  rw [first] at value
  exact ⟨value, (regsKept_setHod k hFetch s).trans kept, (changesOnly_setHod k hFetch s).trans parts⟩

theorem kickCh_of_wait (h : hodState s k = hWait) : kickCh k s = setHod k hFetch s := if_pos h
theorem kickCh_of_not (h : hodState s k ≠ hWait) : kickCh k s = hodIgnored k s := if_neg h

/-! ### The end of a descriptor -/

theorem endWith_eq (k n : Nat) (s : State) : endWith k n s =
    setCh k (if codeRank (getCh s k).code < codeRank n then { getCh s k with code := n } else getCh s k) s := rfl

theorem endWith_spec (k n : Nat) (s : State) :
    (codeRank (getCh s k).code < codeRank n → (getCh (endWith k n s) k).code = n) ∧
      (getCh (endWith k n s) k).inflight = (getCh s k).inflight ∧ (getCh (endWith k n s) k).desc = (getCh s k).desc ∧
      (getCh (endWith k n s) k).issued = (getCh s k).issued := by
  rw [endWith_eq, getCh_setCh]
  refine ⟨fun h => by rw [if_pos h], ?_, ?_, ?_⟩ <;> split <;> rfl

theorem settleFinish_spec (k : Nat) (s : State) :
    (∀ j, hodState (settleFinish k s) j = hodState s j) ∧ (getCh (settleFinish k s) k).inflight = (getCh s k).inflight ∧
      (getCh (settleFinish k s) k).code = (getCh s k).code ∧
      (hodState s k = hFinish → (getCh s k).inflight = [] → getF s (F.HOD_CH_MOVED_BYTES k) = 0 →
        (getCh (settleFinish k s) k).writing = true) ∧
      regsKept (· = Reg.HOD_CH_STAT k) s (settleFinish k s) ∧ changesOnly [.regs, .hod] s (settleFinish k s) := by
  by_cases h : hodState s k = hFinish ∧ (getCh s k).inflight = [] ∧ getF s (F.HOD_CH_MOVED_BYTES k) = 0
  · have heq : settleFinish k s = setCh k { getCh s k with writing := true } s := if_pos h
    rw [heq, getCh_setCh]
    exact ⟨fun j => hodState_setCh .., rfl, rfl, fun _ _ _ => rfl, regsKept_setCh _ _ _, changesOnly_setCh ..⟩
  · have heq : settleFinish k s = s := if_neg h
    rw [heq]
    exact ⟨fun _ => rfl, rfl, rfl, fun h1 h2 h3 => absurd ⟨h1, h2, h3⟩ h, .refl s, .refl _ s⟩

/-! ### ABORT (R384) -/

theorem abortCh_of_halted (h : hodState s k = hHalted) : abortCh k s = setHod k hIdle s := if_pos h

theorem abortCh_of_other (h : hodState s k = hIdle ∨ hodState s k = hFetch ∨ hodState s k = hFinish) : abortCh k s = s := by
  have no : hodState s k ≠ hHalted ∧ ¬ (hodState s k = hRun ∨ hodState s k = hPace ∨ hodState s k = hWait) := by
    rcases h with h | h | h <;> rw [h] <;> decide
  exact (if_neg no.1).trans (if_neg no.2)

/-- What an aborted channel has moved: nothing where it waited for a descriptor. -/
def abortBase (k : Nat) (s : State) : State :=
  if hodState s k = hWait then setF (F.HOD_CH_MOVED_BYTES k) 0 (setCur k (getCh s k).cur s) else s

theorem abortBase_spec (k : Nat) (s : State) :
    (getCh (abortBase k s) k).inflight = (getCh s k).inflight ∧ (getCh (abortBase k s) k).code = (getCh s k).code ∧
      (hodState s k ≠ hWait → getF (abortBase k s) (F.HOD_CH_MOVED_BYTES k) = getF s (F.HOD_CH_MOVED_BYTES k)) ∧
      (hodState s k = hWait → getF (abortBase k s) (F.HOD_CH_MOVED_BYTES k) = 0) ∧
      regsKept (fun a => a = Reg.HOD_CH_STAT k ∨ a = Reg.HOD_CH_MOVED k) s (abortBase k s) ∧
      changesOnly [.regs, .hod] s (abortBase k s) := by
  by_cases h : hodState s k = hWait
  · have heq : abortBase k s = setF (F.HOD_CH_MOVED_BYTES k) 0 (setCh k { getCh s k with shown := (getCh s k).cur } s) := if_pos h
    rw [heq, getCh_congr (setF_hod ..), getCh_setCh]
    refine ⟨rfl, rfl, fun hno => absurd h hno, fun _ => getF_setF_same _ _ _ (by simp [Fld.ok]), ?_, .setF (changesOnly_setCh ..) _ _⟩
    exact .setF ((regsKept_setCh _ _ _).mono fun _ ha => .inl ha) _ _ (.inr rfl)
  · have heq : abortBase k s = s := if_neg h
    rw [heq]
    exact ⟨rfl, rfl, fun _ => rfl, fun hw => absurd hw h, .refl s, .refl _ s⟩

theorem abortCh_of_active (h : hodState s k = hRun ∨ hodState s k = hPace ∨ hodState s k = hWait) :
    abortCh k s = settleFinish k (setHod k hFinish (endWith k 6 (abortBase k s))) :=
  (if_neg (by rcases h with h | h | h <;> rw [h] <;> decide)).trans (if_pos h)

/-- An active channel that is aborted finishes: what is in flight is waited for. -/
theorem aborted_spec (h : hodState s k = hRun ∨ hodState s k = hPace ∨ hodState s k = hWait) :
    hodState (abortCh k s) k = hFinish ∧ (getCh (abortCh k s) k).inflight = (getCh s k).inflight ∧
      (codeRank (getCh s k).code < 2 → (getCh (abortCh k s) k).code = 6) ∧
      (hodState s k ≠ hWait → getF (abortCh k s) (F.HOD_CH_MOVED_BYTES k) = getF s (F.HOD_CH_MOVED_BYTES k)) ∧
      (hodState s k = hWait → getF (abortCh k s) (F.HOD_CH_MOVED_BYTES k) = 0) ∧
      ((getCh s k).inflight = [] → getF (abortCh k s) (F.HOD_CH_MOVED_BYTES k) = 0 → (getCh (abortCh k s) k).writing = true) ∧
      regsKept (fun a => a = Reg.HOD_CH_STAT k ∨ a = Reg.HOD_CH_MOVED k) s (abortCh k s) ∧ changesOnly [.regs, .hod] s (abortCh k s) := by
  rw [abortCh_of_active h]
  obtain ⟨flight0, code0, moved0, wait0, kept0, parts0⟩ := abortBase_spec k s
  generalize abortBase k s = x at *
  obtain ⟨code1, flight1, -, -⟩ := endWith_spec k 6 x
  have kept1 : regsKept (· = Reg.HOD_CH_STAT k) x (endWith k 6 x) := regsKept_setCh _ _ _
  have parts1 : changesOnly [.regs, .hod] x (endWith k 6 x) := changesOnly_setCh ..
  generalize endWith k 6 x = y at *
  have state := hodState_setHod (by decide : hFinish < 8) k y
  have ch := getCh_setHod k k hFinish y
  have kept2 := kept1.trans (regsKept_setHod k hFinish y)
  have parts2 := parts1.trans ((changesOnly_setHod k hFinish y).mono (by decide))
  generalize setHod k hFinish y = z at *
  obtain ⟨state3, flight3, code3, settles, kept3, parts3⟩ := settleFinish_spec k z
  have moved : getF (settleFinish k z) (F.HOD_CH_MOVED_BYTES k) = getF x (F.HOD_CH_MOVED_BYTES k) :=
    (kept2.trans kept3).getF (stat_ne_moved k k).symm
  have movedz : getF z (F.HOD_CH_MOVED_BYTES k) = getF x (F.HOD_CH_MOVED_BYTES k) := kept2.getF (stat_ne_moved k k).symm
  have flight : (getCh z k).inflight = (getCh s k).inflight := by rw [ch, flight1, flight0]
  refine ⟨(state3 k).trans state, flight3.trans flight, fun hr => ?_, fun hno => moved.trans (moved0 hno), fun hw => moved.trans (wait0 hw),
    fun hnone hzero => settles state (flight.trans hnone) (movedz.trans (moved.symm.trans hzero)), ?_, (parts0.trans parts2).trans parts3⟩
  · rw [code3, ch, code1]
    rw [code0]
    exact Nat.lt_of_lt_of_le hr (by decide)
  · exact kept0.trans ((kept2.trans kept3).mono fun _ ha => .inl ha)

/-! ### The fetched descriptor (R375) -/

/-- What a channel takes from a descriptor that it owns. -/
def chOf (k : Nat) (d : HodDesc) (code : Nat) (writing : Bool) (s : State) : HodCh :=
  { hodCh0 with desc := d, cur := hodNext s k, shown := hodNext s k, code := code, writing := writing }

theorem descFetched_of_not (h : hodState s k ≠ hFetch) (d : HodDesc) : descFetched k d s = s := if_pos h

theorem descFetched_of_unowned (h : hodState s k = hFetch) (hown : dOwn d = false) :
    descFetched k d s = hodCause k 3 (setHod k hWait (setCh k { hodCh0 with desc := d, cur := hodNext s k, shown := (getCh s k).shown } s)) := by
  unfold descFetched
  simp only [h, hown, ne_eq, not_true_eq_false, if_false, Bool.false_eq_true, Bool.not_false, if_true]

theorem unowned_spec (hk : k < 32) (c : HodCh) (s : State) :
    hodState (hodCause k 3 (setHod k hWait (setCh k c s))) k = hWait ∧
      getF (hodCause k 3 (setHod k hWait (setCh k c s))) (bitF (Reg.HOD_CH_CAUSE k) 3) = 1 ∧
      regsKeptE (fun a => a = Reg.HOD_CH_STAT k ∨ a = Reg.HOD_CH_CAUSE k) s (hodCause k 3 (setHod k hWait (setCh k c s))) ∧
      changesOnly (.hod :: eventParts) s (hodCause k 3 (setHod k hWait (setCh k c s))) := by
  have kept0 := regsKept_setCh k c s
  have parts0 := changesOnly_setCh k c s
  generalize setCh k c s = x at *
  have state := hodState_setHod (by decide : hWait < 8) k x
  have kept1 := kept0.trans (regsKept_setHod k hWait x)
  have parts1 := parts0.trans ((changesOnly_setHod k hWait x).mono (by decide))
  generalize setHod k hWait x = y at *
  have told := caused_hodCause hk (by decide : 3 < 32) y
  refine ⟨(told.kept.getF ?_ (stat_quiet k)).trans state, told.set, ?_, (parts1.mono (by decide)).trans (told.parts.mono (by decide))⟩
  · simp only [Reg.HOD_CH_STAT, Reg.HOD_CH_CAUSE]
    omega
  · exact (kept1.mono fun _ h => .inl h).toE.trans fun a ha he => told.kept a (fun h => ha (.inr h)) he

/-- A channel that owns its descriptor. -/
def chTaken (k st : Nat) (c : HodCh) (s : State) : State := setHod k st (setCh k c (setF (F.HOD_CH_MOVED_BYTES k) 0 s))

theorem descFetched_of_owned (h : hodState s k = hFetch) (hown : dOwn d = true) :
    descFetched k d s = if badDesc d then chTaken k hFinish (chOf k d 5 true s) s
      else if d.length = 0 then chTaken k hFinish (chOf k d 0 true s) s
      else chTaken k (if dPaced d then hPace else hRun) (chOf k d 0 false s) s := by
  unfold descFetched
  simp only [h, hown, ne_eq, not_true_eq_false, if_false, Bool.false_eq_true, Bool.not_true, if_true]
  rfl

theorem chTaken_spec {st : Nat} (hst : st < 8) (k : Nat) (c : HodCh) (s : State) :
    hodState (chTaken k st c s) k = st ∧ getCh (chTaken k st c s) k = c ∧ getF (chTaken k st c s) (F.HOD_CH_MOVED_BYTES k) = 0 ∧
      regsKept (fun a => a = Reg.HOD_CH_STAT k ∨ a = Reg.HOD_CH_MOVED k) s (chTaken k st c s) ∧
      changesOnly [.regs, .hod] s (chTaken k st c s) := by
  have moved : getF (setF (F.HOD_CH_MOVED_BYTES k) 0 s) (F.HOD_CH_MOVED_BYTES k) = 0 := getF_setF_same _ _ _ (by simp [Fld.ok])
  have kept0 : regsKept (fun a => a = Reg.HOD_CH_STAT k ∨ a = Reg.HOD_CH_MOVED k) s (setF (F.HOD_CH_MOVED_BYTES k) 0 s) :=
    .setF (.refl s) _ _ (.inr rfl)
  have parts0 : changesOnly [.regs, .hod] s (setF (F.HOD_CH_MOVED_BYTES k) 0 s) := .setF (.refl _ s) _ _
  unfold chTaken
  generalize setF (F.HOD_CH_MOVED_BYTES k) 0 s = x at *
  have kept1 := (regsKept_setCh k c x).trans (regsKept_setHod k st (setCh k c x))
  refine ⟨hodState_setHod hst .., (getCh_setHod ..).trans (getCh_setCh ..), (kept1.getF (stat_ne_moved k k).symm).trans moved,
    kept0.trans (kept1.mono fun _ h => .inl h), parts0.trans ((changesOnly_setCh k c x).trans ((changesOnly_setHod ..).mono (by decide)))⟩

/-! ### A write of HOD_CH_NEXT (R388) -/

theorem nextWrite_of_busy (h : 1 ≤ hodState s k ∧ hodState s k ≤ 4) (hi : Bool) (v : W32) : nextWrite k hi v s = hodIgnored k s := if_pos h

theorem nextWrite_of_free (h : ¬ (1 ≤ hodState s k ∧ hodState s k ≤ 4)) (hi : Bool) (v : W32) :
    nextWrite k hi v s = setR (if hi then Reg.HOD_CH_NEXT_HI k else Reg.HOD_CH_NEXT_LO k)
      (if hi then v.toNat else v.toNat / 32 * 32) s := by
  refine (if_neg h).trans ?_
  cases hi <;> rfl

end Sys2Proof.Machine
end

/-! ## Hod channels follow their table: the statement (R375, R376, R384, R388) -/

section

-- One proof after another: elaborated side by side, the proofs of this text take more memory than its check allows.
set_option Elab.async false

namespace Sys2Proof.Machine

variable {s : State} {k : Nat}

theorem onCh_of_lt (h : k < 32) (f : State → State) (s : State) : onCh k f s = f s := if_pos h

theorem onCh_of_beyond (h : 32 ≤ k) (f : State → State) (s : State) : onCh k f s = s := if_neg (Nat.not_lt.mpr h)

/-- A register write of a channel whose page answers. -/
theorem onCh_guarded {a : Nat} {v : W32} {f : State → State} {t : State} (hk : k < 32) (hreach : reach s a = .ok) (ht : f s = t) :
    (Host.Outcome.next (onCh k (guarded .onChip a v f) s) : Res) = .next t :=
  congrArg _ ((onCh_of_lt hk _ s).trans ((guarded_ok _ hreach).trans ht))

/-- Settles O51: each move by the lemma of its operation, and a channel beyond the last is none. -/
theorem hodChannelsFollowTheirTable : Obligations.HodChannelsFollowTheirTable := by
  unfold Obligations.HodChannelsFollowTheirTable
  intro s k
  refine ⟨fun hk => ⟨fun hreach => ⟨?startIdle, ?startHalted, ?startNot, ?kick, ?kickNot, ?abortHalted, ?abort, ?abortNot⟩,
    fun d => ⟨?notFetch, ?unowned, ?owned⟩, fun hi v hreach => ⟨?nextBusy, ?nextFree⟩⟩, ?beyond⟩
  case beyond =>
    intro hk
    have none : ∀ f, (Host.Outcome.next (onCh k f s) : Res) = .next s := fun f => congrArg _ (onCh_of_beyond hk f s)
    exact ⟨none _, none _, none _, fun _ => none _, fun _ _ => none _, none _, none _, none _, none _, fun _ => none _⟩
  case notFetch => exact fun h => congrArg Host.Outcome.next ((onCh_of_lt hk _ s).trans (descFetched_of_not h d))
  case unowned =>
    intro h hown
    exact ⟨_, congrArg Host.Outcome.next ((onCh_of_lt hk _ s).trans (descFetched_of_unowned h hown)), unowned_spec hk _ s⟩
  case owned =>
    intro h hown
    have run : exec (.hodDescFetched k d) s = .next _ :=
      congrArg Host.Outcome.next ((onCh_of_lt hk (descFetched k d) s).trans (descFetched_of_owned h hown))
    by_cases hbad : badDesc d = true
    · rw [if_pos hbad] at run
      obtain ⟨state, ch, moved, kept, parts⟩ := chTaken_spec (by decide : hFinish < 8) k (chOf k d 5 true s) s
      refine ⟨_, run, ?_⟩
      rw [ch]
      exact ⟨rfl, rfl, rfl, rfl, rfl, rfl, moved, fun _ => ⟨state, rfl, rfl⟩, fun hok => by simp [hbad] at hok,
        fun hok => by simp [hbad] at hok, kept, parts⟩
    · rw [if_neg hbad] at run
      by_cases hlen : d.length = 0
      · rw [if_pos hlen] at run
        obtain ⟨state, ch, moved, kept, parts⟩ := chTaken_spec (by decide : hFinish < 8) k (chOf k d 0 true s) s
        refine ⟨_, run, ?_⟩
        rw [ch]
        exact ⟨rfl, rfl, rfl, rfl, rfl, rfl, moved, fun hb => absurd hb hbad, fun _ _ => ⟨state, rfl, rfl⟩,
          fun _ hne => absurd hlen hne, kept, parts⟩
      · rw [if_neg hlen] at run
        obtain ⟨state, ch, moved, kept, parts⟩ := chTaken_spec (by split <;> decide : (if dPaced d then hPace else hRun) < 8) k
          (chOf k d 0 false s) s
        refine ⟨_, run, ?_⟩
        rw [ch]
        exact ⟨rfl, rfl, rfl, rfl, rfl, rfl, moved, fun hb => absurd hb hbad, fun _ h0 => absurd h0 hlen, fun _ _ => ⟨state, rfl⟩,
          kept, parts⟩
  all_goals have run := fun {f t v} => onCh_guarded (f := f) (t := t) (v := v) hk hreach
  case startIdle => exact fun h => ⟨_, run (startCh_of_idle h), writesReg_stat (F.HOD_CH_STAT_STATE k) rfl hFetch s⟩
  case startHalted => exact fun h => ⟨_, run (startCh_of_halted h), writesReg_restarted k s⟩
  case startNot => exact fun h1 h2 => ⟨_, run (startCh_of_not h1 h2), writesReg_stat (F.HOD_CH_STAT_IGNORED k) rfl 1 s⟩
  case kick => exact fun h => ⟨_, run (kickCh_of_wait h), writesReg_stat (F.HOD_CH_STAT_STATE k) rfl hFetch s⟩
  case kickNot => exact fun h => ⟨_, run (kickCh_of_not h), writesReg_stat (F.HOD_CH_STAT_IGNORED k) rfl 1 s⟩
  case abortHalted => exact fun h => ⟨_, run (abortCh_of_halted h), writesReg_stat (F.HOD_CH_STAT_STATE k) rfl hIdle s⟩
  case abort => exact fun h => ⟨_, run rfl, aborted_spec h⟩
  case abortNot => exact fun h => run (abortCh_of_other h)
  case nextBusy => exact fun h => ⟨_, run (nextWrite_of_busy h hi v), writesReg_stat (F.HOD_CH_STAT_IGNORED k) rfl 1 s⟩
  case nextFree => exact fun h => ⟨_, run (nextWrite_of_free h hi v), writesReg_setR ..⟩

end Sys2Proof.Machine
end

/-! ## Hod channels: request lines, withdrawal and bus errors (R381 to R384) -/

section

-- One proof after another: elaborated side by side, the proofs of this text take more memory than its check allows.
set_option Elab.async false

namespace Sys2Proof.Machine

variable {s t u x : State} {i j k l n : Nat}

/-! ### One channel of many -/

/-- A channel's state and value are the same in two states. -/
def chSame (k : Nat) (s t : State) : Prop := hodState t k = hodState s k ∧ getCh t k = getCh s k

theorem chSame.refl (k : Nat) (s : State) : chSame k s s := ⟨rfl, rfl⟩

theorem chSame.trans (h : chSame k s t) (h' : chSame k t u) : chSame k s u := ⟨h'.1.trans h.1, h'.2.trans h.2⟩

theorem chSame_setHod (h : j ≠ k) (n : Nat) (s : State) : chSame j s (setHod k n s) := ⟨hodState_setHod_ne h .., getCh_setHod ..⟩

theorem chSame_setCh (h : j ≠ k) (v : HodCh) (s : State) : chSame j s (setCh k v s) := ⟨hodState_setCh .., getCh_setCh_ne h ..⟩

/-- A fold in which one index alone concerns a channel: what the channel is before that step and after it. -/
theorem foldl_range_focus {g : State → Nat → State} {P : State → Prop} (hi : i < n)
    (hother : ∀ t j, j ≠ i → P t → chSame k t (g t j) ∧ P (g t j)) (hself : ∀ t, P t → P (g t i)) (hs : P s) :
    ∃ u, chSame k s u ∧ P u ∧ chSame k (g u i) ((List.range n).foldl g s) ∧ P ((List.range n).foldl g s) := by
  induction n with
  | zero => omega
  | succ n ih =>
    rw [List.range_succ, List.foldl_append, List.foldl_cons, List.foldl_nil]
    by_cases hn : i = n
    · subst hn
      have before : chSame k s ((List.range i).foldl g s) ∧ P ((List.range i).foldl g s) :=
        List.foldlRecOn (motive := fun y => chSame k s y ∧ P y) _ g ⟨.refl k s, hs⟩ fun y ⟨hy, hp⟩ j hj => by
          obtain ⟨same, hp'⟩ := hother y j (Nat.ne_of_lt (List.mem_range.mp hj)) hp
          exact ⟨hy.trans same, hp'⟩
      exact ⟨_, before.1, before.2, .refl k _, hself _ before.2⟩
    · obtain ⟨u, hu, hp, hsame, hp'⟩ := ih (by omega)
      obtain ⟨same, hp''⟩ := hother _ n (Ne.symm hn) hp'
      exact ⟨u, hu, hp, hsame.trans same, hp''⟩

/-- A fold no index of which concerns a channel. -/
theorem foldl_range_other {g : State → Nat → State} {P : State → Prop} (hother : ∀ t j, P t → chSame k t (g t j) ∧ P (g t j)) (hs : P s)
    (n : Nat) : chSame k s ((List.range n).foldl g s) ∧ P ((List.range n).foldl g s) :=
  List.foldlRecOn (motive := fun y => chSame k s y ∧ P y) _ g ⟨.refl k s, hs⟩ fun y ⟨hy, hp⟩ j _ =>
    ⟨hy.trans (hother y j hp).1, (hother y j hp).2⟩

/-! ### A line that rises -/

/-- A channel leaves PACE where its line has risen. -/
def riseCh (l : Nat) (t : State) (k : Nat) : State := if hodState t k = hPace ∧ dReq (getCh t k).desc = l then setHod k hRun t else t

theorem lineRises_of_low (h : lineHigh s l = false) : lineRises l s = s := if_neg (by simp [h])

theorem lineRises_of_high (h : lineHigh s l = true) : lineRises l s = (List.range 32).foldl (riseCh l) s := if_pos h

theorem chSame_riseCh (h : j ≠ k) (t : State) : chSame j t (riseCh l t k) := by
  unfold riseCh
  split
  · exact chSame_setHod h ..
  · exact .refl ..

theorem riseCh_self (l k : Nat) (t : State) :
    hodState (riseCh l t k) k = (if hodState t k = hPace ∧ dReq (getCh t k).desc = l then hRun else hodState t k) ∧
      getCh (riseCh l t k) k = getCh t k := by
  unfold riseCh
  split
  · exact ⟨hodState_setHod (by decide) .., getCh_setHod ..⟩
  · exact ⟨rfl, rfl⟩

/-- The registers of the channels alone change. -/
def besideStats (a : Nat) : Prop := ∃ k, k < 32 ∧ a = Reg.HOD_CH_STAT k

theorem lineRises_kept (l : Nat) (s : State) : regsKept besideStats s (lineRises l s) ∧ changesOnly [.regs] s (lineRises l s) := by
  cases h : lineHigh s l with
  | false =>
    rw [lineRises_of_low h]
    exact ⟨.refl s, .refl _ s⟩
  | true =>
    rw [lineRises_of_high h]
    exact ⟨.foldl (.refl s) fun t k hk => .ite ((regsKept_setHod k hRun t).mono fun _ ha => ⟨k, List.mem_range.mp hk, ha⟩) (.refl t),
      .foldl (.refl _ s) fun t k _ => .ite (changesOnly_setHod ..) (.refl _ t)⟩

/-- What a channel is after its line has risen. -/
theorem lineRises_spec (h : lineHigh s l = true) (hk : k < 32) :
    hodState (lineRises l s) k = (if hodState s k = hPace ∧ dReq (getCh s k).desc = l then hRun else hodState s k) ∧
      getCh (lineRises l s) k = getCh s k := by
  rw [lineRises_of_high h]
  obtain ⟨u, ⟨state, ch⟩, -, ⟨state', ch'⟩, -⟩ := foldl_range_focus (g := riseCh l) (P := fun _ => True) (k := k) (s := s) hk
    (fun t j hj _ => ⟨chSame_riseCh (Ne.symm hj) t, trivial⟩) (fun _ _ => trivial) trivial
  obtain ⟨self, selfCh⟩ := riseCh_self l k u
  rw [state', ch', self, selfCh, state, ch]
  exact ⟨rfl, rfl⟩

theorem lineRises_other (h : dReq (getCh s k).desc ≠ l) (hk : k < 32) : chSame k s (lineRises l s) := by
  cases hl : lineHigh s l with
  | false =>
    rw [lineRises_of_low hl]
    exact .refl k s
  | true =>
    obtain ⟨state, ch⟩ := lineRises_spec hl hk
    exact ⟨state.trans (if_neg fun ⟨_, he⟩ => h he), ch⟩

/-! ### A line that falls -/

theorem withdraw_of_not (h : hodState s k ≠ hRun ∨ dPaced (getCh s k).desc = false ∨
    ((getCh s k).inflight ≠ [] ∧ (getCh s k).issued = (getCh s k).desc.length)) : withdraw k s = s := by
  unfold withdraw
  dsimp only
  rcases h with h | h | ⟨h1, h2⟩
  · exact if_pos (.inl h)
  · exact if_pos (.inr (by simp [h]))
  · split
    · rfl
    · rfl

section

variable (hrun : hodState s k = hRun) (hp : dPaced (getCh s k).desc = true)
include hrun hp

theorem withdraw_of_idle (h : (getCh s k).inflight = []) : withdraw k s = setHod k hPace s :=
  (if_neg (by simp [hrun, hp])).trans (if_pos h)

theorem withdraw_of_flight (h : (getCh s k).inflight ≠ []) (hi : (getCh s k).issued ≠ (getCh s k).desc.length) :
    withdraw k s = setHod k hFinish (endWith k 1 s) :=
  (if_neg (by simp [hrun, hp])).trans ((if_neg h).trans (if_neg hi))

end

/-- The descriptor of a channel that is withdrawn ends, once what is in flight is acknowledged. -/
theorem withdrawn_spec (k : Nat) (s : State) :
    hodState (setHod k hFinish (endWith k 1 s)) k = hFinish ∧
      (getCh (setHod k hFinish (endWith k 1 s)) k).inflight = (getCh s k).inflight ∧
      (codeRank (getCh s k).code < 1 → (getCh (setHod k hFinish (endWith k 1 s)) k).code = 1) ∧
      (getCh (setHod k hFinish (endWith k 1 s)) k).desc = (getCh s k).desc ∧
      regsKept (· = Reg.HOD_CH_STAT k) s (setHod k hFinish (endWith k 1 s)) ∧
      changesOnly [.regs, .hod] s (setHod k hFinish (endWith k 1 s)) := by
  obtain ⟨code, flight, desc, -⟩ := endWith_spec k 1 s
  have kept : regsKept (· = Reg.HOD_CH_STAT k) s (endWith k 1 s) := regsKept_setCh _ _ _
  have parts : changesOnly [.regs, .hod] s (endWith k 1 s) := changesOnly_setCh ..
  generalize endWith k 1 s = y at *
  rw [getCh_setHod]
  exact ⟨hodState_setHod (by decide) .., flight, code, desc, kept.trans (regsKept_setHod k hFinish y),
    parts.trans ((changesOnly_setHod ..).mono (by decide))⟩

theorem withdraw_kept (k : Nat) (s : State) :
    (getCh (withdraw k s) k).desc = (getCh s k).desc ∧ (∀ j, j ≠ k → chSame j s (withdraw k s)) ∧
      regsKept (· = Reg.HOD_CH_STAT k) s (withdraw k s) ∧ changesOnly [.regs, .hod] s (withdraw k s) := by
  by_cases hno : hodState s k ≠ hRun ∨ dPaced (getCh s k).desc = false ∨
      ((getCh s k).inflight ≠ [] ∧ (getCh s k).issued = (getCh s k).desc.length)
  · rw [withdraw_of_not hno]
    exact ⟨rfl, fun j _ => .refl j s, .refl s, .refl _ s⟩
  · simp only [not_or, not_not, not_and, Bool.not_eq_false] at hno
    obtain ⟨hrun, hp, hissued⟩ := hno
    by_cases hf : (getCh s k).inflight = []
    · rw [withdraw_of_idle hrun hp hf]
      exact ⟨congrArg HodCh.desc (getCh_setHod ..), fun j hj => chSame_setHod hj .., regsKept_setHod _ _ _,
        (changesOnly_setHod ..).mono (by decide)⟩
    · rw [withdraw_of_flight hrun hp hf (hissued hf)]
      obtain ⟨-, -, -, desc, kept, parts⟩ := withdrawn_spec k s
      exact ⟨desc, fun j hj => (chSame_setCh hj _ s).trans (chSame_setHod hj ..), kept, parts⟩

/-- A channel's request is withdrawn where its line has fallen. -/
def fallCh (l : Nat) (t : State) (k : Nat) : State := if dReq (getCh t k).desc = l then withdraw k t else t

theorem lineFalls_of_high (h : lineHigh s l = true) : lineFalls l s = s := if_pos h

theorem lineFalls_of_low (h : lineHigh s l = false) : lineFalls l s = (List.range 32).foldl (fallCh l) s := if_neg (by simp [h])

theorem fallCh_kept (l k : Nat) (t : State) :
    (getCh (fallCh l t k) k).desc = (getCh t k).desc ∧ (∀ j, j ≠ k → chSame j t (fallCh l t k)) ∧
      regsKept (· = Reg.HOD_CH_STAT k) t (fallCh l t k) ∧ changesOnly [.regs, .hod] t (fallCh l t k) := by
  unfold fallCh
  split
  · exact withdraw_kept k t
  · exact ⟨rfl, fun j _ => .refl j t, .refl t, .refl _ t⟩

theorem lineFalls_kept (l : Nat) (s : State) : regsKept besideStats s (lineFalls l s) ∧ changesOnly [.regs, .hod] s (lineFalls l s) := by
  cases h : lineHigh s l with
  | true =>
    rw [lineFalls_of_high h]
    exact ⟨.refl s, .refl _ s⟩
  | false =>
    rw [lineFalls_of_low h]
    exact ⟨.foldl (.refl s) fun t k hk => (fallCh_kept l k t).2.2.1.mono fun _ ha => ⟨k, List.mem_range.mp hk, ha⟩,
      .foldl (.refl _ s) fun t k _ => (fallCh_kept l k t).2.2.2⟩

/-- What a channel is after its line has fallen: it is withdrawn, in a state in which it is as before. -/
theorem lineFalls_spec (h : lineHigh s l = false) (hk : k < 32) :
    ∃ u, chSame k s u ∧ chSame k (fallCh l u k) (lineFalls l s) := by
  rw [lineFalls_of_low h]
  obtain ⟨u, same, -, same', -⟩ := foldl_range_focus (g := fallCh l) (P := fun _ => True) (k := k) (s := s) hk
    (fun t j hj _ => ⟨(fallCh_kept l j t).2.1 k (Ne.symm hj), trivial⟩) (fun _ _ => trivial) trivial
  exact ⟨u, same, same'⟩

theorem lineFalls_other (h : dReq (getCh s k).desc ≠ l) (hk : k < 32) : chSame k s (lineFalls l s) := by
  cases hl : lineHigh s l with
  | true =>
    rw [lineFalls_of_high hl]
    exact .refl k s
  | false =>
    obtain ⟨u, same, same'⟩ := lineFalls_spec hl hk
    have none : fallCh l u k = u := if_neg (by rwa [same.2])
    rw [none] at same'
    exact same.trans same'

theorem desc_lineFalls (l : Nat) (hk : k < 32) (s : State) : (getCh (lineFalls l s) k).desc = (getCh s k).desc := by
  cases hl : lineHigh s l with
  | true => rw [lineFalls_of_high hl]
  | false =>
    obtain ⟨u, same, same'⟩ := lineFalls_spec hl hk
    rw [same'.2, (fallCh_kept l k u).1, same.2]

theorem desc_lineRises (l : Nat) (hk : k < 32) (s : State) : (getCh (lineRises l s) k).desc = (getCh s k).desc := by
  cases hl : lineHigh s l with
  | false => rw [lineRises_of_low hl]
  | true => rw [(lineRises_spec hl hk).2]

/-! ### HOD_SWREQ -/

theorem lineHigh_sw (i : Nat) (s : State) : lineHigh s (16 + i) = decide (bitsOf (getF s F.HOD_SWREQ_LINE) i 1 = 1) := by
  unfold lineHigh
  rw [if_neg (by omega), if_neg (by omega), if_neg (by omega), if_pos (by omega), Nat.add_sub_cancel_left]

/-- The lines of HOD_SWREQ, one after another. -/
def swLine (t : State) (i : Nat) : State := lineFalls (16 + i) (lineRises (16 + i) t)

theorem swLine_kept (i : Nat) (t : State) : regsKept besideStats t (swLine t i) ∧ changesOnly [.regs, .hod] t (swLine t i) := by
  obtain ⟨kept, parts⟩ := lineRises_kept (16 + i) t
  obtain ⟨kept', parts'⟩ := lineFalls_kept (16 + i) (lineRises (16 + i) t)
  exact ⟨kept.trans kept', (parts.mono (by decide)).trans parts'⟩

theorem swreq_beside : ¬ besideStats Reg.HOD_SWREQ := by
  rintro ⟨k, hk, he⟩
  simp only [Reg.HOD_SWREQ, Reg.HOD_CH_STAT] at he
  omega

theorem swLine_other (h : dReq (getCh s k).desc ≠ 16 + i) (hk : k < 32) : chSame k s (swLine s i) := by
  have rises := lineRises_other h hk
  exact rises.trans (lineFalls_other (by rwa [rises.2]) hk)

theorem desc_swLine (i : Nat) (hk : k < 32) (s : State) : (getCh (swLine s i) k).desc = (getCh s k).desc :=
  (desc_lineFalls _ hk _).trans (desc_lineRises _ hk _)

/-- What a channel is after the line it waits on was set high. -/
theorem swLine_high (h : lineHigh s (16 + i) = true) (hreq : dReq (getCh s k).desc = 16 + i) (hk : k < 32) :
    hodState (swLine s i) k = if hodState s k = hPace then hRun else hodState s k := by
  have still : lineHigh (lineRises (16 + i) s) (16 + i) = true := by
    rw [lineHigh_sw, (lineRises_kept (16 + i) s).1.getF swreq_beside, ← lineHigh_sw]
    exact h
  unfold swLine
  rw [lineFalls_of_high still, (lineRises_spec h hk).1]
  simp only [hreq, and_true]

/-- What a channel is after the line it waits on was set low. -/
theorem swLine_low (h : lineHigh s (16 + i) = false) (hreq : dReq (getCh s k).desc = 16 + i) (hk : k < 32) :
    ∃ u, chSame k s u ∧ chSame k (withdraw k u) (swLine s i) := by
  unfold swLine
  rw [lineRises_of_low h]
  obtain ⟨u, same, same'⟩ := lineFalls_spec h hk
  have falls : fallCh (16 + i) u k = withdraw k u := if_pos (by rwa [same.2])
  rw [falls] at same'
  exact ⟨u, same, same'⟩

/-! ### Bus errors (R383) -/

/-- A failed access is counted, and its channel takes a value. -/
def errCounted (k : Nat) (c : HodCh) (s : State) : State := setCh k c (addF F.HOD_BUS_ERR_COUNT 1 s)

theorem stat_ne_busErr (hk : k < 32) : Reg.HOD_CH_STAT k ≠ Reg.HOD_BUS_ERR := by
  simp only [Reg.HOD_CH_STAT, Reg.HOD_BUS_ERR]
  omega

theorem errCounted_spec (hk : k < 32) (c : HodCh) (s : State) :
    getF (errCounted k c s) F.HOD_BUS_ERR_COUNT = min (2 ^ 32 - 1) (getF s F.HOD_BUS_ERR_COUNT + 1) ∧
      hodState (errCounted k c s) k = hodState s k ∧ getCh (errCounted k c s) k = c ∧
      regsKept (fun a => a = Reg.HOD_CH_STAT k ∨ a = Reg.HOD_BUS_ERR) s (errCounted k c s) ∧
      changesOnly [.regs, .hod] s (errCounted k c s) := by
  have count : getF (addF F.HOD_BUS_ERR_COUNT 1 s) F.HOD_BUS_ERR_COUNT = min (2 ^ 32 - 1) (getF s F.HOD_BUS_ERR_COUNT + 1) :=
    getF_addF_word ..
  have state : hodState (addF F.HOD_BUS_ERR_COUNT 1 s) k = hodState s k := getF_setF_ne _ _ _ _ (stat_ne_busErr hk)
  have kept : regsKept (fun a => a = Reg.HOD_CH_STAT k ∨ a = Reg.HOD_BUS_ERR) s (addF F.HOD_BUS_ERR_COUNT 1 s) :=
    .setF (.refl s) _ _ (.inr rfl)
  have parts : changesOnly [.regs, .hod] s (addF F.HOD_BUS_ERR_COUNT 1 s) := .addF (.refl _ s) _ _
  unfold errCounted
  generalize addF F.HOD_BUS_ERR_COUNT 1 s = x at *
  exact ⟨((regsKept_setCh k c x).getF (stat_ne_busErr hk).symm).trans count, (hodState_setCh ..).trans state, getCh_setCh ..,
    kept.trans ((regsKept_setCh k c x).mono fun _ ha => .inl ha), parts.trans (changesOnly_setCh ..)⟩

theorem hodError_of_none {acc : HodAccess} (h : hasAccess s k acc = false) : hodError k acc s = s := if_pos (by simp [h])

theorem hodError_of_retry {acc : HodAccess} (h : hasAccess s k acc = true) (ht : (getCh s k).tries < getF s F.HOD_RETRY_COUNT) :
    hodError k acc s = addF (F.HOD_CH_RETRIES_COUNT k) 1
      (errCounted k { getCh s k with tries := (getCh s k).tries + 1, retries := min 255 ((getCh s k).retries + 1) } s) :=
  (if_neg (by simp [h])).trans (if_pos ht)

theorem hodError_of_last {acc : HodAccess} (h : hasAccess s k acc = true) (ht : getF s F.HOD_RETRY_COUNT ≤ (getCh s k).tries) :
    hodError k acc s = lastFailure k acc (errCounted k { getCh s k with tries := 0 } s) :=
  (if_neg (by simp [h])).trans (if_neg (Nat.not_lt.mpr ht))

/-- A source or destination error drops the bursts in flight, and the descriptor ends with its code. -/
def dropFlight (k n : Nat) (x : State) : State :=
  settleFinish k (setHod k hFinish (endWith k n (setCh k { getCh x k with inflight := [], failed := true } x)))

theorem dropFlight_spec (k n : Nat) (x : State) :
    hodState (dropFlight k n x) k = hFinish ∧ (getCh (dropFlight k n x) k).inflight = [] ∧
      (codeRank (getCh x k).code < codeRank n → (getCh (dropFlight k n x) k).code = n) ∧
      regsKept (· = Reg.HOD_CH_STAT k) x (dropFlight k n x) ∧ changesOnly [.regs, .hod] x (dropFlight k n x) := by
  have ch := getCh_setCh k { getCh x k with inflight := [], failed := true } x
  have kept0 := regsKept_setCh k { getCh x k with inflight := [], failed := true } x
  have parts0 := changesOnly_setCh k { getCh x k with inflight := [], failed := true } x
  unfold dropFlight
  generalize setCh k { getCh x k with inflight := [], failed := true } x = y at *
  obtain ⟨code, flight, -, -⟩ := endWith_spec k n y
  have kept1 : regsKept (· = Reg.HOD_CH_STAT k) y (endWith k n y) := regsKept_setCh _ _ _
  have parts1 : changesOnly [.regs, .hod] y (endWith k n y) := changesOnly_setCh ..
  rw [ch] at code flight
  generalize endWith k n y = z at *
  have state := hodState_setHod (by decide : hFinish < 8) k z
  have same := getCh_setHod k k hFinish z
  have kept2 := regsKept_setHod k hFinish z
  have parts2 := changesOnly_setHod k hFinish z
  generalize setHod k hFinish z = w at *
  obtain ⟨state3, flight3, code3, -, kept3, parts3⟩ := settleFinish_spec k w
  refine ⟨(state3 k).trans state, by rw [flight3, same, flight], fun h => by rw [code3, same, code h], kept0.trans (kept1.trans (kept2.trans kept3)),
    parts0.trans (parts1.trans ((parts2.mono (by decide)).trans parts3))⟩

/-- What the last failure of an access leaves. -/
structure LastFailed (k : Nat) (acc : HodAccess) (s t : State) : Prop where
  halts : acc = .fetch ∨ acc = .writeback → hodState t k = hHalted ∧
    getF t (F.HOD_CH_STAT_HALT_CAUSE k) = (if acc = .fetch then 2 else 3) ∧ getF t (bitF (Reg.HOD_CH_CAUSE k) 1) = 1
  readback : acc = .readback → hodState t k = hodState s k ∧ (getCh t k).writing = true ∧
    (codeRank (getCh s k).code < 3 → (getCh t k).code = 4)
  moves : acc = .source ∨ acc = .destination → hodState t k = hFinish ∧ (getCh t k).inflight = [] ∧
    (codeRank (getCh s k).code < 3 → (getCh t k).code = if acc = .source then 2 else 3)
  kept : regsKeptE (fun a => a = Reg.HOD_CH_STAT k ∨ a = Reg.HOD_CH_CAUSE k) s t
  parts : changesOnly (.hod :: eventParts) s t

theorem lastFailed_lastFailure (hk : k < 32) (acc : HodAccess) (x : State) : LastFailed k acc x (lastFailure k acc x) := by
  cases acc with
  | fetch =>
    obtain ⟨state, cause, told, -, -, kept, parts⟩ := hodHalt_spec hk (by decide : 2 < 8) x
    exact ⟨fun _ => ⟨state, cause, told⟩, (fun h => nomatch h), (by simp), kept,
      parts.mono (by decide)⟩
  | writeback =>
    have heq : lastFailure k .writeback x = hodHalt k 3 (setCh k { getCh x k with writing := false } x) := rfl
    have kept0 := regsKept_setCh k { getCh x k with writing := false } x
    have parts0 := changesOnly_setCh k { getCh x k with writing := false } x
    rw [heq]
    generalize setCh k { getCh x k with writing := false } x = y at *
    obtain ⟨state, cause, told, -, -, kept, parts⟩ := hodHalt_spec hk (by decide : 3 < 8) y
    exact ⟨fun _ => ⟨state, cause, told⟩, (fun h => nomatch h), (by simp),
      (kept0.mono fun _ h => .inl h).toE.trans kept, (parts0.mono (by decide)).trans (parts.mono (by decide))⟩
  | readback =>
    have heq : lastFailure k .readback x = setCh k { getCh (endWith k 4 x) k with writing := true } x := rfl
    obtain ⟨code, -, -, -⟩ := endWith_spec k 4 x
    rw [heq]
    refine ⟨(by simp), fun _ => ⟨hodState_setCh .., ?_, fun h => ?_⟩,
      (by simp), ((regsKept_setCh _ _ _).mono fun _ h => .inl h).toE,
      (changesOnly_setCh ..).mono (by decide)⟩
    · rw [getCh_setCh]
    · rw [getCh_setCh]
      exact code h
  | source =>
    have heq : lastFailure k .source x = dropFlight k 2 x := rfl
    obtain ⟨state, flight, code, kept, parts⟩ := dropFlight_spec k 2 x
    rw [heq]
    exact ⟨(by simp), (fun h => nomatch h), fun _ => ⟨state, flight, code⟩,
      (kept.mono fun _ h => .inl h).toE, parts.mono (by decide)⟩
  | destination =>
    have heq : lastFailure k .destination x = dropFlight k 3 x := rfl
    obtain ⟨state, flight, code, kept, parts⟩ := dropFlight_spec k 3 x
    rw [heq]
    exact ⟨(by simp), (fun h => nomatch h), fun _ => ⟨state, flight, code⟩,
      (kept.mono fun _ h => .inl h).toE, parts.mono (by decide)⟩

end Sys2Proof.Machine
end

/-! ## Hod requests and errors end descriptors: the statement (R381 to R383) -/

section

-- One proof after another: elaborated side by side, the proofs of this text take more memory than its check allows.
set_option Elab.async false

namespace Sys2Proof.Machine

variable {s t : State} {k : Nat} {v : W32}

/-- HOD_SWREQ after its write shows the lines written. -/
theorem swreq_written (v : W32) (s : State) :
    getR (setR Reg.HOD_SWREQ (v.toNat % 65536) s) Reg.HOD_SWREQ = v.toNat % 65536 := by
  rw [getR_setR, if_pos rfl]
  exact Nat.mod_eq_of_lt (by omega)

theorem line_written {i : Nat} (hi : i < 16) (h : getR t Reg.HOD_SWREQ = v.toNat % 65536) :
    lineHigh t (16 + i) = decide (bitsOf v.toNat i 1 = 1) := by
  have shown : getF t F.HOD_SWREQ_LINE = v.toNat % 2 ^ 16 := by
    rw [getF, bitsOf, h, Nat.pow_zero, Nat.div_one]
    exact Nat.mod_mod _ _
  have bit : bitsOf (v.toNat % 2 ^ 16) i 1 = bitsOf v.toNat i 1 := by
    rw [bitsOf_one, bitsOf_one, Nat.testBit_mod_two_pow, decide_eq_true hi, Bool.true_and]
  rw [lineHigh_sw, shown, bit]

theorem stat_ne_swreq (k : Nat) : Reg.HOD_CH_STAT k ≠ Reg.HOD_SWREQ := by
  simp only [Reg.HOD_CH_STAT, Reg.HOD_SWREQ]
  omega

/-- What the lines of HOD_SWREQ leave of a channel. -/
theorem swreqWrite_spec (v : W32) (s : State) :
    getR (swreqWrite v s) Reg.HOD_SWREQ = v.toNat % 65536 ∧
      regsKept (fun a => a = Reg.HOD_SWREQ ∨ ∃ k, k < 32 ∧ a = Reg.HOD_CH_STAT k) s (swreqWrite v s) ∧
      changesOnly [.regs, .hod] s (swreqWrite v s) ∧
      (∀ k, k < 32 → dReq (getCh s k).desc < 16 → chSame k s (swreqWrite v s)) ∧
      (∀ k, k < 32 → ∀ i, i < 16 → dReq (getCh s k).desc = 16 + i →
        ∃ u, chSame k s u ∧ getR u Reg.HOD_SWREQ = v.toNat % 65536 ∧ chSame k (swLine u i) (swreqWrite v s)) := by
  have heq : swreqWrite v s = (List.range 16).foldl swLine (setR Reg.HOD_SWREQ (v.toNat % 65536) s) := rfl
  have written := swreq_written v s
  have kept0 : regsKept (fun a => a = Reg.HOD_SWREQ ∨ besideStats a) s (setR Reg.HOD_SWREQ (v.toNat % 65536) s) :=
    .setR (.refl s) _ _ (.inl rfl)
  have parts0 : changesOnly [.regs, .hod] s (setR Reg.HOD_SWREQ (v.toNat % 65536) s) := .setR (.refl _ s) _ _
  have same0 : ∀ k, k < 32 → chSame k s (setR Reg.HOD_SWREQ (v.toNat % 65536) s) := fun k _ =>
    ⟨(regsKept.setR (but := (· = Reg.HOD_SWREQ)) (.refl s) _ (v.toNat % 65536) rfl).getF (stat_ne_swreq k), getCh_congr (setR_hod ..) k⟩
  rw [heq]
  generalize setR Reg.HOD_SWREQ (v.toNat % 65536) s = x at *
  have line : ∀ t i, getR (swLine t i) Reg.HOD_SWREQ = getR t Reg.HOD_SWREQ := fun t i => (swLine_kept i t).1.getR swreq_beside
  refine ⟨?_, ?_, ?_, fun k hk hreq => ?_, fun k hk i hi hreq => ?_⟩
  · exact List.foldlRecOn (motive := fun y => getR y Reg.HOD_SWREQ = v.toNat % 65536) _ _ written fun y hy i _ => (line y i).trans hy
  · exact .foldl kept0 fun t i _ => (swLine_kept i t).1.mono fun _ ha => .inr ha
  · exact .foldl parts0 fun t i _ => (swLine_kept i t).2
  · have desc : dReq (getCh x k).desc < 16 := by rwa [(same0 k hk).2]
    refine (same0 k hk).trans (foldl_range_other (P := fun y => dReq (getCh y k).desc < 16) (fun t i ht => ⟨?_, ?_⟩) desc 16).1
    · exact swLine_other (by omega) hk
    · rwa [desc_swLine i hk]
  · have desc : dReq (getCh x k).desc = 16 + i := by rwa [(same0 k hk).2]
    obtain ⟨u, same, ⟨-, hu⟩, same', -⟩ := foldl_range_focus (g := swLine) (k := k) (s := x) hi
      (P := fun y => dReq (getCh y k).desc = 16 + i ∧ getR y Reg.HOD_SWREQ = v.toNat % 65536)
      (fun t j hj ⟨hd, hr⟩ => ⟨swLine_other (by omega) hk, by rw [desc_swLine j hk]; exact hd, (line t j).trans hr⟩)
      (fun t ⟨hd, hr⟩ => ⟨by rw [desc_swLine i hk]; exact hd, (line t i).trans hr⟩) ⟨desc, written⟩
    exact ⟨u, (same0 k hk).trans same, hu, same'⟩

/-- A retry is counted for the Hod and for its channel. -/
theorem retried_spec (hk : k < 32) (c : HodCh) (s : State) :
    getF (addF (F.HOD_CH_RETRIES_COUNT k) 1 (errCounted k c s)) F.HOD_BUS_ERR_COUNT = min (2 ^ 32 - 1) (getF s F.HOD_BUS_ERR_COUNT + 1) ∧
      getF (addF (F.HOD_CH_RETRIES_COUNT k) 1 (errCounted k c s)) (F.HOD_CH_RETRIES_COUNT k) =
        min (2 ^ 32 - 1) (getF s (F.HOD_CH_RETRIES_COUNT k) + 1) ∧
      getCh (addF (F.HOD_CH_RETRIES_COUNT k) 1 (errCounted k c s)) k = c ∧
      hodState (addF (F.HOD_CH_RETRIES_COUNT k) 1 (errCounted k c s)) k = hodState s k ∧
      regsKept (fun a => a = Reg.HOD_CH_STAT k ∨ a = Reg.HOD_BUS_ERR ∨ a = Reg.HOD_CH_RETRIES k) s
        (addF (F.HOD_CH_RETRIES_COUNT k) 1 (errCounted k c s)) ∧
      changesOnly [.regs, .hod] s (addF (F.HOD_CH_RETRIES_COUNT k) 1 (errCounted k c s)) := by
  obtain ⟨count, state, ch, kept, parts⟩ := errCounted_spec hk c s
  generalize errCounted k c s = x at *
  have retries : getF x (F.HOD_CH_RETRIES_COUNT k) = getF s (F.HOD_CH_RETRIES_COUNT k) :=
    kept.getF (by simp only [Reg.HOD_CH_RETRIES, Reg.HOD_CH_STAT, Reg.HOD_BUS_ERR]; omega)
  refine ⟨?_, ?_, (getCh_congr (addF_hod ..) k).trans ch, ?_, .addF (kept.mono ?_) _ _ (.inr (.inr rfl)), .addF parts _ _⟩
  · refine (getF_setF_ne _ _ _ _ ?_).trans count
    simp only [Reg.HOD_CH_RETRIES, Reg.HOD_BUS_ERR]
    omega
  · rw [getF_addF_word, retries]
  · refine (getF_setF_ne _ _ _ _ ?_).trans state
    simp only [Reg.HOD_CH_RETRIES, Reg.HOD_CH_STAT]
    omega
  · exact fun a ha => ha.imp_right .inl

/-- An access whose last retry has failed. -/
theorem lastFailed_spec (hk : k < 32) (acc : HodAccess) (s : State) :
    getF (lastFailure k acc (errCounted k { getCh s k with tries := 0 } s)) F.HOD_BUS_ERR_COUNT =
        min (2 ^ 32 - 1) (getF s F.HOD_BUS_ERR_COUNT + 1) ∧
      LastFailed k acc (errCounted k { getCh s k with tries := 0 } s) (lastFailure k acc (errCounted k { getCh s k with tries := 0 } s)) ∧
      hodState (errCounted k { getCh s k with tries := 0 } s) k = hodState s k ∧
      (getCh (errCounted k { getCh s k with tries := 0 } s) k).code = (getCh s k).code ∧
      regsKeptE (fun a => a = Reg.HOD_CH_STAT k ∨ a = Reg.HOD_BUS_ERR ∨ a = Reg.HOD_CH_CAUSE k) s
        (lastFailure k acc (errCounted k { getCh s k with tries := 0 } s)) ∧
      changesOnly (.hod :: eventParts) s (lastFailure k acc (errCounted k { getCh s k with tries := 0 } s)) := by
  obtain ⟨count, state, ch, kept, parts⟩ := errCounted_spec hk { getCh s k with tries := 0 } s
  have code := congrArg HodCh.code ch
  generalize errCounted k { getCh s k with tries := 0 } s = x at *
  have last := lastFailed_lastFailure hk acc x
  refine ⟨(last.kept.getF ?_ (by decide)).trans count, last, state, code, ?_, (parts.mono (by decide)).trans last.parts⟩
  · simp only [Reg.HOD_CH_STAT, Reg.HOD_CH_CAUSE, Reg.HOD_BUS_ERR]
    omega
  · exact (kept.mono fun a ha => ha.imp_right .inl).toE.trans fun a ha he =>
      last.kept a (fun h => ha (h.imp_right .inr)) he

/-- Settles O52: request lines by what a rise and a fall do to one channel, bus errors by `LastFailed`. -/
theorem hodRequestsAndErrorsEndDescriptors : Obligations.HodRequestsAndErrorsEndDescriptors := by
  unfold Obligations.HodRequestsAndErrorsEndDescriptors
  intro s
  refine ⟨fun l => ⟨?low, ?high⟩, fun k hk => ⟨?noWithdrawal, ?withdrawal, fun acc => ⟨?noAccess, ?access⟩⟩, ?swreq⟩
  case low => exact fun h => congrArg Host.Outcome.next (lineRises_of_low h)
  case high =>
    intro h
    obtain ⟨kept, parts⟩ := lineRises_kept l s
    exact ⟨_, rfl, fun k hk => (lineRises_spec h hk).1, kept, parts⟩
  case noWithdrawal =>
    intro h
    refine congrArg Host.Outcome.next ((onCh_of_lt hk _ s).trans ?_)
    rcases h with h | h
    · exact if_pos h
    · unfold withdrawal
      rw [withdraw_of_not h, ite_self]
  case withdrawal =>
    intro hlow hrun hp
    have run : exec (.hodWithdrawal k) s = .next (withdraw k s) :=
      congrArg Host.Outcome.next ((onCh_of_lt hk _ s).trans (if_neg (by simp [hlow])))
    refine ⟨fun hf => ?_, fun hf hi => ?_⟩
    · rw [withdraw_of_idle hrun hp hf] at run
      exact ⟨_, run, writesReg_stat (F.HOD_CH_STAT_STATE k) rfl hPace s⟩
    · rw [withdraw_of_flight hrun hp hf hi] at run
      obtain ⟨state, flight, code, -, kept, parts⟩ := withdrawn_spec k s
      exact ⟨_, run, state, flight, code, kept, parts⟩
  case noAccess => exact fun h => congrArg Host.Outcome.next ((onCh_of_lt hk _ s).trans (hodError_of_none h))
  case access =>
    intro h
    have run : exec (.hodBusError k acc) s = .next (hodError k acc s) := congrArg Host.Outcome.next (onCh_of_lt hk _ s)
    by_cases ht : (getCh s k).tries < getF s F.HOD_RETRY_COUNT
    · rw [hodError_of_retry h ht] at run
      obtain ⟨count, retries, ch, state, kept, parts⟩ := retried_spec hk
        { getCh s k with tries := (getCh s k).tries + 1, retries := min 255 ((getCh s k).retries + 1) } s
      refine ⟨_, run, count, fun _ => ⟨retries, ?_, ?_, ?_, state, kept, parts⟩, fun hge => absurd ht (Nat.not_lt.mpr hge)⟩
      all_goals rw [ch]
    · rw [hodError_of_last h (Nat.not_lt.mp ht)] at run
      obtain ⟨count, last, state, code, kept, parts⟩ := lastFailed_spec hk acc s
      rw [← code]
      refine ⟨_, run, count, fun hlt => absurd hlt ht, fun _ => ⟨last.halts, fun hacc => ?_, last.moves, kept, parts⟩⟩
      obtain ⟨same, rest⟩ := last.readback hacc
      subst hacc
      refine ⟨same.trans (state.trans ?_), rest⟩
      simp only [hasAccess, Bool.and_eq_true, decide_eq_true_eq] at h
      exact h.1.1
  case swreq =>
    intro v hreach
    obtain ⟨written, kept, parts, other, focus⟩ := swreqWrite_spec v s
    refine ⟨_, congrArg Host.Outcome.next (guarded_ok _ hreach), written, fun k hk => ⟨fun hreq => (other k hk hreq).1, ?_⟩, kept, parts⟩
    intro i hi hreq
    obtain ⟨u, same, hu, same'⟩ := focus k hk i hi hreq
    have line := line_written hi hu
    have ureq : dReq (getCh u k).desc = 16 + i := by rwa [same.2]
    refine ⟨fun hbit => ?_, fun hbit hrun hp => ?_⟩
    · rw [same'.1, swLine_high (line.trans (decide_eq_true hbit)) ureq hk, same.1]
    · obtain ⟨w, wsame, wsame'⟩ := swLine_low (line.trans (decide_eq_false (by rw [hbit]; decide))) ureq hk
      have both := same.trans wsame
      have all := wsame'.trans same'
      have wrun : hodState w k = hRun := both.1.trans hrun
      have wp : dPaced (getCh w k).desc = true := by rw [both.2, hp]
      refine ⟨fun hf => ?_, fun hf hi' => ?_⟩
      · rw [withdraw_of_idle wrun wp (by rw [both.2, hf])] at all
        exact all.1.trans (hodState_setHod (by decide) ..)
      · rw [withdraw_of_flight wrun wp (by rwa [both.2]) (by rwa [both.2])] at all
        obtain ⟨state, -, code, -, -, -⟩ := withdrawn_spec k w
        exact ⟨all.1.trans state, fun hc => by rw [all.2, code (by rwa [both.2])]⟩

end Sys2Proof.Machine
end

/-! ## What a Hod burst and a write-back move (R371, R378 to R380) -/

section

-- One proof after another: elaborated side by side, the proofs of this text take more memory than its check allows.
set_option Elab.async false

namespace Sys2Proof.Machine

variable {s t u x : State} {a b k n v : Nat} {l : List (Nat × Nat)}

/-! ### Bytes of words -/

/-- The bytes of a group of one word, with their addresses. -/
def groupBytes (g : Nat × List (Nat × Nat)) : List (Nat × Nat) := g.2.map (fun p => (4 * g.1 + p.1, p.2))

/-- A byte begins a group, or joins the first. -/
theorem groupWords_cons (a v : Nat) (l : List (Nat × Nat)) :
    groupWords ((a, v) :: l) = (a / 4, [(a % 4, v)]) :: groupWords l ∨
      ∃ q gs, groupWords l = (a / 4, q) :: gs ∧ groupWords ((a, v) :: l) = (a / 4, (a % 4, v) :: q) :: gs := by
  cases hg : groupWords l with
  | nil => exact .inl (by simp only [groupWords, hg])
  | cons g gs =>
    obtain ⟨w, q⟩ := g
    simp only [groupWords, hg]
    split_ifs with h
    · exact .inr ⟨q, gs, by rw [h.1], by rw [h.1]⟩
    · exact .inl rfl

theorem groupBytes_cons (a v : Nat) (q : List (Nat × Nat)) : groupBytes (a / 4, (a % 4, v) :: q) = (a, v) :: groupBytes (a / 4, q) := by
  rw [groupBytes, List.map_cons, Nat.div_add_mod]
  rfl

/-- Grouped by words the bytes are the same, in the same order. -/
theorem flatMap_groupWords (l : List (Nat × Nat)) : (groupWords l).flatMap groupBytes = l := by
  induction l with
  | nil => rfl
  | cons p l ih =>
    obtain ⟨a, v⟩ := p
    rcases groupWords_cons a v l with h | ⟨q, gs, hl, h⟩
    · rw [h, List.flatMap_cons, groupBytes_cons, ih]
      rfl
    · rw [hl, List.flatMap_cons] at ih
      rw [h, List.flatMap_cons, groupBytes_cons, List.cons_append, ih]

/-- Every group of words holds a byte, and only bytes of its word. -/
theorem groupWords_ne_nil (l : List (Nat × Nat)) : ∀ g ∈ groupWords l, g.2 ≠ [] ∧ ∀ p ∈ g.2, p.1 < 4 := by
  induction l with
  | nil => exact fun g hg => absurd hg List.not_mem_nil
  | cons p l ih =>
    obtain ⟨a, v⟩ := p
    have low : a % 4 < 4 := Nat.mod_lt _ (by decide)
    intro g hg
    rcases groupWords_cons a v l with h | ⟨q, gs, hl, h⟩ <;> rw [h] at hg
    · rcases List.mem_cons.mp hg with rfl | hg
      · exact ⟨List.cons_ne_nil _ _, fun p hp => by rw [List.mem_singleton.mp hp]; exact low⟩
      · exact ih g hg
    · rcases List.mem_cons.mp hg with rfl | hg
      · refine ⟨List.cons_ne_nil _ _, fun p hp => ?_⟩
        rcases List.mem_cons.mp hp with rfl | hp
        · exact low
        · exact (ih (a / 4, q) (by rw [hl]; exact List.mem_cons_self)).2 p hp
      · exact ih g (by rw [hl]; exact List.mem_cons_of_mem _ hg)

/-- A group has a byte of the list, and its word is that byte's. -/
theorem mem_of_groupWords {g : Nat × List (Nat × Nat)} (h : g ∈ groupWords l) : ∃ p ∈ l, g.1 = p.1 / 4 := by
  obtain ⟨hne, hlow⟩ := groupWords_ne_nil l g h
  obtain ⟨q, hq⟩ := List.exists_mem_of_ne_nil _ hne
  have hmem : (4 * g.1 + q.1, q.2) ∈ l := by
    rw [← flatMap_groupWords l]
    exact List.mem_flatMap.mpr ⟨g, h, List.mem_map.mpr ⟨q, hq, rfl⟩⟩
  refine ⟨_, hmem, ?_⟩
  have := hlow q hq
  dsimp only
  omega

/-! ### Where a Hod address lies (R371) -/

/-- The sizes that lay the map memory out. -/
def sizesKept (s t : State) : Prop := mapTableLines t = mapTableLines s

theorem sizesKept_of_kept {but : Nat → Prop} (h : regsKeptE but s t) (hb : ∀ a, but a → 0x10000 ≤ a ∧ a < 0x12000) : sizesKept s t := by
  have same : ∀ f : Fld, f.addr < 0x10000 ∨ 0x12000 ≤ f.addr → quietReg f.addr = true → getF t f = getF s f := fun f hf hq =>
    h.getF (fun hbut => by have := hb _ hbut; omega) hq
  unfold sizesKept mapTableLines zcapOf width planes
  rw [same F.TOP_MODE_BASE (by decide) (by decide), same F.COURSE_CFG_WIDTH (by decide) (by decide),
    same (F.FCH_CFG_PLANES 0) (by decide) (by decide)]

theorem sizesKept_of_regs (h : t.regs = s.regs) : sizesKept s t :=
  sizesKept_of_kept (but := fun _ => False) (.of_regs h) (fun _ hf => hf.elim)

theorem hodPlace_congr (h : sizesKept s t) (a : Nat) : hodPlace t a = hodPlace s a := by
  unfold hodPlace
  rw [h]

/-- A byte that lies in a line of the map memory. -/
def inLine (s : State) (a : Nat) : Prop := ∃ l b, hodPlace s a = .line l b

theorem inLine_congr (h : sizesKept s t) : inLine t a ↔ inLine s a := by rw [inLine, inLine, hodPlace_congr h]

theorem inLine_iff : inLine s a ↔ spaceBit a = some 1 ∧ inSpace a / 64 < mapTableLines s := by
  unfold inLine hodPlace
  split
  · next h => rw [h]; split <;> simp
  · next h => rw [h]; split <;> simp [*]
  · next h => rw [h]; simp
  · next h0 h1 h2 =>
    constructor
    · rintro ⟨_, _, h⟩
      exact HodPlace.noConfusion h
    · exact fun h => (h1 h.1).elim

theorem place_of_inLine (h : inLine s a) : hodPlace s a = .line (inSpace a / 64) (inSpace a % 64) := by
  obtain ⟨hs, hl⟩ := inLine_iff.mp h
  unfold hodPlace
  rw [hs]
  exact if_pos hl

theorem spaceBit_word (a : Nat) : spaceBit (4 * (a / 4)) = spaceBit a := by
  have space : 4 * (a / 4) / 2 ^ 56 % 256 = a / 2 ^ 56 % 256 := by omega
  rw [spaceBit, spaceBit, space]

/-- A word lies where its bytes do. -/
theorem inLine_word (h : inLine s a) : inLine s (4 * (a / 4)) := by
  obtain ⟨hs, hl⟩ := inLine_iff.mp h
  have line : inSpace (4 * (a / 4)) / 64 = inSpace a / 64 := by
    unfold inSpace
    omega
  exact inLine_iff.mpr ⟨(spaceBit_word a).trans hs, by rwa [line]⟩

/-- A byte outside the register window. -/
theorem place_ne_window (h : spaceBit a ≠ some 0) (s : State) (w : Nat) : hodPlace s a ≠ .window w := by
  unfold hodPlace
  split
  · next hs => exact absurd hs h
  · split <;> simp
  · simp
  · simp

/-! ### Reading -/

/-- Nothing but the count of the free values taken has changed. -/
def ticked (s t : State) : Prop := changesOnly [.freeCtr] s t

theorem hodByteAt_kept (h : sizesKept s t) (hm : t.map = s.map) (ha : inLine s a) : hodByteAt t a = hodByteAt s a := by
  unfold hodByteAt getLine
  rw [hodPlace_congr h, place_of_inLine ha, hm]

theorem hodByteAt_ticked (h : ticked s t) (ha : inLine s a) : hodByteAt t a = hodByteAt s a :=
  hodByteAt_kept (sizesKept_of_regs h.regs_eq) h.map_eq ha

theorem readGroup_outside {g : Nat × List (Nat × Nat)} (h : spaceBit (4 * g.1) ≠ some 0) (s : State) :
    readGroup g.1 g.2 s = ((groupBytes g).map (fun p => hodByteAt s p.1), tick s) := by
  unfold readGroup
  split
  · next w hw => exact absurd hw (place_ne_window h s w)
  · rw [groupBytes, List.map_map]
    rfl

/-- One step of a read: the bytes of a group follow those before. -/
def readStep (acc : List Nat × State) (g : Nat × List (Nat × Nat)) : List Nat × State :=
  (acc.1 ++ (readGroup g.1 g.2 acc.2).1, (readGroup g.1 g.2 acc.2).2)

theorem readBytes_eq (as : List Nat) (s : State) : readBytes as s = (groupWords (as.map (fun a => (a, 0)))).foldl readStep ([], s) := rfl

/-- Groups outside the window are read with nothing changed, and their bytes are those the state held. -/
theorem foldl_readStep {gs : List (Nat × List (Nat × Nat))} (h : ∀ g ∈ gs, spaceBit (4 * g.1) ≠ some 0) {acc : List Nat × State}
    (hs : ticked s acc.2) :
    ticked s (gs.foldl readStep acc).2 ∧ (gs.foldl readStep acc).1.length = acc.1.length + (gs.flatMap groupBytes).length ∧
      ((∀ p ∈ gs.flatMap groupBytes, inLine s p.1) →
        (gs.foldl readStep acc).1 = acc.1 ++ (gs.flatMap groupBytes).map (fun p => hodByteAt s p.1)) := by
  induction gs generalizing acc with
  | nil => exact ⟨hs, by simp, fun _ => by simp⟩
  | cons g gs ih =>
    have step : readStep acc g = (acc.1 ++ (groupBytes g).map (fun p => hodByteAt acc.2 p.1), tick acc.2) := by
      rw [readStep, readGroup_outside (h g List.mem_cons_self)]
    rw [List.foldl_cons, List.flatMap_cons]
    obtain ⟨ticks, len, bytes⟩ := ih (acc := readStep acc g) (fun g' hg' => h g' (List.mem_cons_of_mem _ hg'))
      (by rw [step]; exact .tick hs)
    refine ⟨ticks, ?_, fun hline => ?_⟩
    · rw [len, step]
      simp only [List.length_append, List.length_map]
      omega
    · have same : (groupBytes g).map (fun p => hodByteAt acc.2 p.1) = (groupBytes g).map (fun p => hodByteAt s p.1) :=
        List.map_congr_left fun p hp => hodByteAt_ticked hs (hline p (List.mem_append_left _ hp))
      rw [bytes fun p hp => hline p (List.mem_append_right _ hp), step, same, List.map_append, List.append_assoc]

theorem mem_pairs {as : List Nat} {p : Nat × Nat} (h : p ∈ as.map (fun a => (a, 0))) : p.1 ∈ as := by
  obtain ⟨a, ha, rfl⟩ := List.mem_map.mp h
  exact ha

/-- A read outside the window gives as many bytes as it names, those of the lines where they lie in lines. -/
theorem readBytes_spec {as : List Nat} (h : ∀ a ∈ as, spaceBit a ≠ some 0) (s : State) :
    ticked s (readBytes as s).2 ∧ (readBytes as s).1.length = as.length ∧
      ((∀ a ∈ as, inLine s a) → (readBytes as s).1 = as.map (hodByteAt s)) := by
  rw [readBytes_eq]
  obtain ⟨ticks, len, bytes⟩ := foldl_readStep (s := s) (gs := groupWords (as.map (fun a => (a, 0)))) (acc := ([], s)) (fun g hg => by
    obtain ⟨p, hp, hw⟩ := mem_of_groupWords hg
    rw [hw, spaceBit_word]
    exact h _ (mem_pairs hp)) (.refl _ s)
  rw [flatMap_groupWords] at len bytes
  refine ⟨ticks, by rw [len]; simp, fun hline => ?_⟩
  rw [bytes fun p hp => hline _ (mem_pairs hp), List.nil_append, List.map_map]
  rfl

/-! ### Writing -/

theorem changesOnly_putHodByte (a v : Nat) (s : State) : changesOnly [.map, .out] s (putHodByte a v s) := by
  unfold putHodByte
  split
  · exact .map (.refl _ s)
  · exact .map (.refl _ s)
  · exact .emit (.refl _ s) _

theorem changesOnly_writeGroup {g : Nat × List (Nat × Nat)} (h : spaceBit (4 * g.1) ≠ some 0) (s : State) :
    changesOnly [.map, .out] s (writeGroup g.1 g.2 s) := by
  unfold writeGroup
  split
  · next w hw => exact absurd hw (place_ne_window h s w)
  · exact .emit (.refl _ s) _
  · exact .foldl (.refl _ s) fun t p _ => changesOnly_putHodByte ..

/-- A write outside the window changes what the memories hold and what leaves the part. -/
theorem changesOnly_writeBytes (h : ∀ p ∈ l, spaceBit p.1 ≠ some 0) (s : State) : changesOnly [.map, .out] s (writeBytes l s) := by
  refine .foldl (.refl _ s) fun t g hg => changesOnly_writeGroup ?_ t
  obtain ⟨p, hp, hw⟩ := mem_of_groupWords hg
  rw [hw, spaceBit_word]
  exact h p hp

/-- A byte of a line takes a value. -/
def putByte (t : State) (p : Nat × Nat) : State := putHodByte p.1 p.2 t

theorem putByte_of_line (h : inLine s a) (v : Nat) :
    putByte s (a, v) = setLine (inSpace a / 64) (lineWith (getLine s (inSpace a / 64)) (8 * (inSpace a % 64)) 8 v) s := by
  rw [putByte, putHodByte, place_of_inLine h]

theorem foldl_putByte_kept (l : List (Nat × Nat)) (s : State) : changesOnly [.map, .out] s (l.foldl putByte s) :=
  .foldl (.refl _ s) fun _ _ _ => changesOnly_putHodByte ..

theorem writeGroup_of_line {g : Nat × List (Nat × Nat)} (h : inLine s (4 * g.1)) : writeGroup g.1 g.2 s = (groupBytes g).foldl putByte s := by
  rw [writeGroup, place_of_inLine h, groupBytes, List.foldl_map]
  rfl

/-- A write to lines is a write of its bytes one after another. -/
theorem writeBytes_of_lines (h : ∀ p ∈ l, inLine s p.1) : writeBytes l s = l.foldl putByte s := by
  have groups : ∀ gs : List (Nat × List (Nat × Nat)), ∀ t, sizesKept s t → (∀ g ∈ gs, inLine s (4 * g.1)) →
      gs.foldl (fun t g => writeGroup g.1 g.2 t) t = (gs.flatMap groupBytes).foldl putByte t := by
    intro gs
    induction gs with
    | nil => exact fun _ _ _ => rfl
    | cons g gs ih =>
      intro t ht hline
      have first := writeGroup_of_line ((inLine_congr ht).mpr (hline g List.mem_cons_self))
      rw [List.foldl_cons, List.flatMap_cons, List.foldl_append, first]
      refine ih _ ?_ fun g' hg' => hline g' (List.mem_cons_of_mem _ hg')
      exact (sizesKept_of_regs (foldl_putByte_kept _ t).regs_eq).trans ht
  refine (groups (groupWords l) s rfl fun g hg => ?_).trans (by rw [flatMap_groupWords])
  obtain ⟨p, hp, hw⟩ := mem_of_groupWords hg
  rw [hw]
  exact inLine_word (h p hp)

theorem putByte_out (h : inLine s a) (v : Nat) : (putByte s (a, v)).out = s.out := by
  rw [putByte_of_line h, setLine_out]

theorem getLine_setLine_ne {i j : Nat} (h : j ≠ i) (y : BitVec 512) (s : State) : getLine (setLine i y s) j = getLine s j :=
  tget_tset_ne _ _ _ h

theorem toNat_ofNat_putBits {m lo w : Nat} (x : BitVec m) (h : lo + w ≤ m) (v : Nat) :
    (BitVec.ofNat m (putBits x.toNat lo w v)).toNat = putBits x.toNat lo w v := by
  rw [BitVec.toNat_ofNat]
  exact Nat.mod_eq_of_lt (putBits_lt _ _ _ _ _ x.isLt h)

theorem toNat_lineWith (x : BitVec 512) {j : Nat} (hj : j < 64) (v : Nat) : (lineWith x (8 * j) 8 v).toNat = putBits x.toNat (8 * j) 8 v :=
  toNat_ofNat_putBits x (by omega) v

theorem bitsOf_lineWith_same (x : BitVec 512) {j : Nat} (hj : j < 64) (v : Nat) : bitsOf (lineWith x (8 * j) 8 v).toNat (8 * j) 8 = v % 256 :=
  (congrArg (bitsOf · (8 * j) 8) (toNat_lineWith x hj v)).trans (bitsOf_putBits ..)

theorem bitsOf_lineWith_ne (x : BitVec 512) {i j : Nat} (hj : j < 64) (h : i ≠ j) (v : Nat) :
    bitsOf (lineWith x (8 * j) 8 v).toNat (8 * i) 8 = bitsOf x.toNat (8 * i) 8 := by
  rw [toNat_lineWith x hj]
  rcases Nat.lt_or_gt_of_ne h with h | h
  · exact bitsOf_putBits_below _ _ _ _ _ _ (by omega)
  · exact bitsOf_putBits_above _ _ _ _ _ _ (by omega)

theorem hodByteAt_of_line (h : inLine s a) : hodByteAt s a = bitsOf (getLine s (inSpace a / 64)).toNat (8 * (inSpace a % 64)) 8 := by
  rw [hodByteAt, place_of_inLine h]

theorem sizesKept_putByte (s : State) (a v : Nat) : sizesKept s (putByte s (a, v)) :=
  sizesKept_of_regs (changesOnly_putHodByte a v s).regs_eq

/-- A byte written reads as written. -/
theorem hodByteAt_putByte (h : inLine s a) (v : Nat) : hodByteAt (putByte s (a, v)) a = v % 256 := by
  have line : getLine (putByte s (a, v)) (inSpace a / 64) = lineWith (getLine s (inSpace a / 64)) (8 * (inSpace a % 64)) 8 v := by
    rw [putByte_of_line h, getLine_setLine]
  rw [hodByteAt_of_line ((inLine_congr (sizesKept_putByte s a v)).mpr h), line,
    bitsOf_lineWith_same _ (Nat.mod_lt _ (by decide))]

/-- A byte of another address stays. -/
theorem hodByteAt_putByte_ne (h : inLine s a) (hb : inLine s b) (hne : inSpace b ≠ inSpace a) (v : Nat) :
    hodByteAt (putByte s (a, v)) b = hodByteAt s b := by
  rw [hodByteAt_of_line ((inLine_congr (sizesKept_putByte s a v)).mpr hb), hodByteAt_of_line hb, putByte_of_line h]
  by_cases hl : inSpace b / 64 = inSpace a / 64
  · rw [hl, getLine_setLine, bitsOf_lineWith_ne _ (Nat.mod_lt _ (by decide)) (by omega)]
  · rw [getLine_setLine_ne hl]

/-- Bytes written to addresses apart read as written. -/
theorem hodByteAt_foldl_putByte (h : ∀ p ∈ l, inLine s p.1) (hd : (l.map (fun p => inSpace p.1)).Nodup) :
    (∀ p ∈ l, hodByteAt (l.foldl putByte s) p.1 = p.2 % 256) ∧
      (∀ b, inLine s b → (∀ p ∈ l, inSpace b ≠ inSpace p.1) → hodByteAt (l.foldl putByte s) b = hodByteAt s b) ∧
      (l.foldl putByte s).out = s.out := by
  induction l generalizing s with
  | nil => exact ⟨fun p hp => absurd hp List.not_mem_nil, fun _ _ _ => rfl, rfl⟩
  | cons p l ih =>
    obtain ⟨a, v⟩ := p
    have ha : inLine s a := h (a, v) List.mem_cons_self
    have sizes := sizesKept_putByte s a v
    obtain ⟨hnot, hrest⟩ := List.nodup_cons.mp hd
    have apart : ∀ p ∈ l, inSpace a ≠ inSpace p.1 := fun p hp e => hnot (List.mem_map.mpr ⟨p, hp, e.symm⟩)
    obtain ⟨written, others, out⟩ := ih (s := putByte s (a, v))
      (fun p hp => (inLine_congr sizes).mpr (h p (List.mem_cons_of_mem _ hp))) hrest
    rw [List.foldl_cons]
    refine ⟨fun p hp => ?_, fun b hb hne => ?_, out.trans (putByte_out ha v)⟩
    · rcases List.mem_cons.mp hp with rfl | hp
      · rw [others a ((inLine_congr sizes).mpr ha) apart, hodByteAt_putByte ha]
      · exact written p hp
    · rw [others b ((inLine_congr sizes).mpr hb) fun p hp => hne p (List.mem_cons_of_mem _ hp),
        hodByteAt_putByte_ne ha hb (hne (a, v) List.mem_cons_self)]

end Sys2Proof.Machine
end

/-! ## The arbiter grants a burst (R377, R378) -/

section

-- One proof after another: elaborated side by side, the proofs of this text take more memory than its check allows.
set_option Elab.async false

namespace Sys2Proof.Machine

variable {s t u x : State} {slot j k n w : Nat}

/-! ### Which channel is granted -/

/-- A least value is a bound below, and one of the list's or the first. -/
theorem foldl_min_spec (f : Nat → Nat) (l : List Nat) (n : Nat) :
    l.foldl (fun n k => min n (f k)) n ≤ n ∧ (∀ k ∈ l, l.foldl (fun n k => min n (f k)) n ≤ f k) ∧
      (l.foldl (fun n k => min n (f k)) n = n ∨ ∃ k ∈ l, f k = l.foldl (fun n k => min n (f k)) n) := by
  induction l generalizing n with
  | nil => exact ⟨Nat.le_refl n, fun k hk => absurd hk List.not_mem_nil, .inl rfl⟩
  | cons i l ih =>
    obtain ⟨below, least, which⟩ := ih (min n (f i))
    rw [List.foldl_cons]
    refine ⟨Nat.le_trans below (Nat.min_le_left ..), fun k hk => ?_, ?_⟩
    · rcases List.mem_cons.mp hk with rfl | hk
      · exact Nat.le_trans below (Nat.min_le_right ..)
      · exact least k hk
    · rcases which with h | ⟨k, hk, h⟩
      · rcases Nat.le_total n (f i) with hn | hn
        · exact .inl (h.trans (Nat.min_eq_left hn))
        · exact .inr ⟨i, List.mem_cons_self, (h.trans (Nat.min_eq_right hn)).symm⟩
      · exact .inr ⟨k, List.mem_cons_of_mem _ hk, h⟩

theorem class_lt (s : State) (k : Nat) : getF s (F.HOD_CH_CFG_CLASS k) < 4 := getF_lt ..

/-- The channels that may issue a burst. -/
def issuers (s : State) (slot : Nat) : List Nat := (List.range 32).filter (mayIssue s slot)

theorem mem_issuers : k ∈ issuers s slot ↔ k < 32 ∧ mayIssue s slot k = true := by
  rw [issuers, List.mem_filter, List.mem_range]

/-- The most urgent class of the channels that may issue a burst. -/
def topClass (s : State) (slot : Nat) : Nat := (issuers s slot).foldl (fun n k => min n (getF s (F.HOD_CH_CFG_CLASS k))) 3

theorem topClass_attained (h : j ∈ issuers s slot) : ∃ k ∈ issuers s slot, getF s (F.HOD_CH_CFG_CLASS k) = topClass s slot := by
  obtain ⟨-, least, which⟩ := foldl_min_spec (fun k => getF s (F.HOD_CH_CFG_CLASS k)) (issuers s slot) 3
  rcases which with h3 | hk
  · refine ⟨j, h, ?_⟩
    have low := least j h
    have high := class_lt s j
    unfold topClass
    omega
  · exact hk

theorem topClass_le (h : j ∈ issuers s slot) : topClass s slot ≤ getF s (F.HOD_CH_CFG_CLASS j) :=
  (foldl_min_spec (fun k => getF s (F.HOD_CH_CFG_CLASS k)) (issuers s slot) 3).2.1 j h

/-- The issuers of the most urgent class. -/
def urgent (s : State) (slot : Nat) : List Nat := (issuers s slot).filter (fun k => decide (getF s (F.HOD_CH_CFG_CLASS k) = topClass s slot))

theorem hodGrant_eq (s : State) (slot : Nat) : hodGrant s slot =
    match (urgent s slot).find? (fun k => decide (s.hod.ptr ≤ k)) with
    | some k => some k
    | none => (urgent s slot).head? := rfl

theorem mem_urgent_of_grant (h : hodGrant s slot = some k) : k ∈ urgent s slot := by
  rw [hodGrant_eq] at h
  split at h
  · next hf =>
    cases h
    exact List.mem_of_find?_eq_some hf
  · exact List.mem_of_mem_head? h

theorem grant_of_urgent (h : urgent s slot ≠ []) : ∃ k, hodGrant s slot = some k := by
  rw [hodGrant_eq]
  split
  · exact ⟨_, rfl⟩
  · exact ⟨_, List.head?_eq_some_head h⟩

/-- Where a channel may issue, one of the most urgent class is granted. -/
theorem hodGrant_of_mayIssue (hj : j < 32) (h : mayIssue s slot j = true) :
    ∃ k, hodGrant s slot = some k ∧ k < 32 ∧ mayIssue s slot k = true ∧
      getF s (F.HOD_CH_CFG_CLASS k) ≤ getF s (F.HOD_CH_CFG_CLASS j) := by
  have hmem := mem_issuers.mpr ⟨hj, h⟩
  obtain ⟨i, hi, htop⟩ := topClass_attained hmem
  obtain ⟨k, hk⟩ := grant_of_urgent (List.ne_nil_of_mem (List.mem_filter.mpr ⟨hi, decide_eq_true htop⟩))
  obtain ⟨hk32, hclass⟩ := List.mem_filter.mp (mem_urgent_of_grant hk)
  obtain ⟨lt, may⟩ := mem_issuers.mp hk32
  exact ⟨k, hk, lt, may, by rw [of_decide_eq_true hclass]; exact topClass_le hmem⟩

theorem hodGrant_of_none (h : ∀ k, k < 32 → mayIssue s slot k = false) : hodGrant s slot = none := by
  cases hg : hodGrant s slot with
  | none => rfl
  | some k =>
    obtain ⟨lt, may⟩ := mem_issuers.mp (List.mem_filter.mp (mem_urgent_of_grant hg)).1
    rw [h k lt] at may
    cases may

/-! ### What a grant leaves -/

theorem run_of_mayIssue (h : mayIssue s slot k = true) : hodState s k = hRun ∧ ∃ w, openWindow s slot k (getCh s k).desc = some w := by
  simp only [mayIssue, Bool.and_eq_true, decide_eq_true_eq] at h
  exact ⟨h.1.1.1.1.1, Option.isSome_iff_exists.mp h.2⟩

/-- The arbiter moves on, and the window counts the burst. -/
def grantNoted (k w c : Nat) (x : State) : State :=
  { x with hod := { x.hod with ptr := (k + 1) % 32, used := tset (fun _ => 0) w (c + 1) x.hod.used } }

theorem grantNoted_spec (k w c : Nat) (x : State) :
    (grantNoted k w c x).hod = { x.hod with ptr := (k + 1) % 32, used := tset (fun _ => 0) w (c + 1) x.hod.used } ∧
      (grantNoted k w c x).regs = x.regs ∧ changesOnly [.hod] x (grantNoted k w c x) :=
  ⟨rfl, rfl, .hod (.refl _ x)⟩

/-- The channel with a burst more in flight. -/
def withBurst (c : HodCh) : HodCh :=
  { c with
    issued := c.issued + min (dBurst c.desc) (c.desc.length - c.issued)
    inflight := c.inflight ++ [(c.issued, min (dBurst c.desc) (c.desc.length - c.issued))] }

theorem issueBurst_of_grant (h : hodGrant s slot = some k) (hw : openWindow s slot k (getCh s k).desc = some w) :
    issueBurst slot s = grantNoted k w (tget (fun _ => 0) s.hod.used w) (setCh k (withBurst (getCh s k)) s) := by
  rw [issueBurst, h]
  dsimp only
  rw [hw]
  rfl

theorem granted_spec (k w : Nat) (c : HodCh) (s : State) (n : Nat) :
    getCh (grantNoted k w n (setCh k c s)) k = c ∧ (grantNoted k w n (setCh k c s)).hod.ptr = (k + 1) % 32 ∧
      tget (fun _ => 0) (grantNoted k w n (setCh k c s)).hod.used w = n + 1 ∧
      hodState (grantNoted k w n (setCh k c s)) k = hodState s k ∧ regsKept (· = Reg.HOD_CH_STAT k) s (grantNoted k w n (setCh k c s)) ∧
      changesOnly [.regs, .hod] s (grantNoted k w n (setCh k c s)) := by
  have ch := getCh_setCh k c s
  have state := hodState_setCh k k c s
  have kept := regsKept_setCh k c s
  have parts := changesOnly_setCh k c s
  generalize setCh k c s = x at *
  obtain ⟨hod, regs, noted⟩ := grantNoted_spec k w n x
  refine ⟨Eq.trans ?_ ch, by rw [hod], ?_, (hodState_congr regs k).trans state, kept.trans (.of_regs regs), parts.trans (noted.mono (by decide))⟩
  · rw [getCh, hod, getCh]
  · rw [hod, tget_tset_same]

theorem burstIssue_of_not (h : 64 ≤ slot ∨ isSet s (F.BLK_CTRL_ENABLE baseHod) = false ∨ running s = false ∨ powerNow s ≠ 0) :
    burstIssue slot [] s = s := by
  refine if_neg fun ⟨h1, h2, h3, h4⟩ => ?_
  rcases h with h | h | h | h
  · exact absurd h1 (Nat.not_lt.mpr h)
  · rw [List.foldl_nil, h] at h2
    cases h2
  · rw [List.foldl_nil, h] at h3
    cases h3
  · exact h h4

theorem burstIssue_of_running (h1 : slot < 64) (h2 : isSet s (F.BLK_CTRL_ENABLE baseHod) = true) (h3 : running s = true) (h4 : powerNow s = 0) :
    burstIssue slot [] s = issueBurst slot s := if_pos ⟨h1, h2, h3, h4⟩

theorem burstIssue_none (h : ∀ k, k < 32 → mayIssue s slot k = false) : burstIssue slot [] s = s := by
  have none : issueBurst slot s = s := by rw [issueBurst, hodGrant_of_none h]
  simp only [burstIssue, List.foldl_nil, none, ite_self]

end Sys2Proof.Machine
end

/-! ## Bursts acknowledged, and the read-back (R371, R378, R379) -/

section

-- One proof after another: elaborated side by side, the proofs of this text take more memory than its check allows.
set_option Elab.async false

namespace Sys2Proof.Machine

variable {s t u x : State} {a k n off slot : Nat} {vs : List Nat}

/-! ### Rows of bytes -/

/-- The addresses of a row of bytes. -/
def rowAddrs (a n : Nat) : List Nat := (List.range n).map (a + ·)

theorem rowAddrs_of_moving (a off n : Nat) : burstAddrs a false off n = rowAddrs (a + off) n := rfl

theorem mem_rowAddrs {c : Nat} : c ∈ rowAddrs a n ↔ ∃ j, j < n ∧ c = a + j := by
  simp only [rowAddrs, List.mem_map, List.mem_range, eq_comm]

theorem length_burstAddrs (a : Nat) (f : Bool) (off n : Nat) : (burstAddrs a f off n).length = n := by
  rw [burstAddrs, List.length_map, List.length_range]

theorem length_rowAddrs (a n : Nat) : (rowAddrs a n).length = n := by rw [rowAddrs, List.length_map, List.length_range]

/-- The bytes of a row lie apart. -/
theorem nodup_rowAddrs (h : n ≤ 4096) (a : Nat) : ((rowAddrs a n).map inSpace).Nodup := by
  rw [rowAddrs, List.map_map]
  refine List.Nodup.map_on (fun i hi j hj he => ?_) List.nodup_range
  have hi := List.mem_range.mp hi
  have hj := List.mem_range.mp hj
  simp only [Function.comp_apply, inSpace] at he
  omega

/-- A row of bytes is written. -/
def writeRow (a : Nat) (vs : List Nat) (s : State) : State := writeBytes ((rowAddrs a vs.length).zip vs) s

theorem fst_of_row {p : Nat × Nat} (h : p ∈ (rowAddrs a vs.length).zip vs) : ∃ j, j < vs.length ∧ p.1 = a + j :=
  mem_rowAddrs.mp (List.of_mem_zip (b := p.2) h).1

theorem changesOnly_writeRow (h : ∀ j, j < vs.length → spaceBit (a + j) ≠ some 0) (s : State) :
    changesOnly [.map, .out] s (writeRow a vs s) :=
  changesOnly_writeBytes (fun p hp => by
    obtain ⟨j, hj, he⟩ := fst_of_row hp
    rw [he]
    exact h j hj) s

/-- A row of bytes written to lines reads as written, and nothing leaves the part. -/
theorem writeRow_spec (hn : vs.length ≤ 4096) (h : ∀ j, j < vs.length → inLine s (a + j)) :
    (∀ j, j < vs.length → hodByteAt (writeRow a vs s) (a + j) = vs.getD j 0 % 256) ∧
      (∀ b, inLine s b → (∀ j, j < vs.length → inSpace b ≠ inSpace (a + j)) → hodByteAt (writeRow a vs s) b = hodByteAt s b) ∧
      (writeRow a vs s).out = s.out := by
  have lines : ∀ p ∈ (rowAddrs a vs.length).zip vs, inLine s p.1 := fun p hp => by
    obtain ⟨j, hj, he⟩ := fst_of_row hp
    rw [he]
    exact h j hj
  have len : (rowAddrs a vs.length).length = vs.length := length_rowAddrs ..
  have apart : (((rowAddrs a vs.length).zip vs).map (fun p => inSpace p.1)).Nodup := by
    have fsts : ((rowAddrs a vs.length).zip vs).map (fun p => inSpace p.1) = (rowAddrs a vs.length).map inSpace := by
      rw [← List.map_fst_zip (l₁ := rowAddrs a vs.length) (l₂ := vs) (Nat.le_of_eq len), List.map_map, List.map_fst_zip (Nat.le_of_eq len)]
      rfl
    rw [fsts]
    exact nodup_rowAddrs hn a
  obtain ⟨written, others, out⟩ := hodByteAt_foldl_putByte lines apart
  rw [writeRow, writeBytes_of_lines lines]
  refine ⟨fun j hj => ?_, fun b hb hne => others b hb fun p hp => ?_, out⟩
  · have hmem : (a + j, vs.getD j 0) ∈ (rowAddrs a vs.length).zip vs := by
      refine List.mem_iff_getElem.mpr ⟨j, by rw [List.length_zip, len]; omega, ?_⟩
      rw [List.getElem_zip, List.getD_eq_getElem _ _ hj]
      simp [rowAddrs]
    exact written _ hmem
  · obtain ⟨j, hj, he⟩ := fst_of_row hp
    rw [he]
    exact hne j hj

/-! ### A burst -/

theorem burstSleeps_of_outside {as : List Nat} (h : ∀ a ∈ as, spaceBit a ≠ some 0) (s : State) : burstSleeps s as = none := by
  refine List.findSome?_eq_none_iff.mpr fun a ha => ?_
  split
  · next w hw => exact absurd hw (place_ne_window (h a ha) s w)
  · rfl

/-- The bytes counted in KiB, before the registers. -/
def remPut (r : Nat) (x : State) : State := { x with hod := { x.hod with rem := r } }

theorem remPut_spec (r : Nat) (x : State) :
    (remPut r x).regs = x.regs ∧ (remPut r x).hod = { x.hod with rem := r } ∧ changesOnly [.hod] x (remPut r x) :=
  ⟨rfl, rfl, .hod (.refl _ x)⟩

theorem moved_ne_bytes (_hk : k < 32) : Reg.HOD_CH_MOVED k ≠ Reg.HOD_BYTES := by
  simp only [Reg.HOD_CH_MOVED, Reg.HOD_BYTES]
  omega

theorem stat_ne_bytes (hk : k < 32) : Reg.HOD_CH_STAT k ≠ Reg.HOD_BYTES := by
  simp only [Reg.HOD_CH_STAT, Reg.HOD_BYTES]
  omega

theorem countMoved_eq (k n : Nat) (x : State) : countMoved k n x =
    addF F.HOD_BYTES_COUNT ((x.hod.rem + n) / 1024) (addF (F.HOD_CH_MOVED_BYTES k) n (remPut ((x.hod.rem + n) % 1024) x)) := rfl

theorem countMoved_spec (hk : k < 32) (n : Nat) (x : State) :
    getF (countMoved k n x) (F.HOD_CH_MOVED_BYTES k) = min (2 ^ 32 - 1) (getF x (F.HOD_CH_MOVED_BYTES k) + n) ∧
      getF (countMoved k n x) F.HOD_BYTES_COUNT = min (2 ^ 32 - 1) (getF x F.HOD_BYTES_COUNT + (x.hod.rem + n) / 1024) ∧
      (countMoved k n x).hod = { x.hod with rem := (x.hod.rem + n) % 1024 } ∧ hodState (countMoved k n x) k = hodState x k ∧
      regsKept (fun a => a = Reg.HOD_CH_MOVED k ∨ a = Reg.HOD_BYTES) x (countMoved k n x) ∧
      changesOnly [.regs, .hod] x (countMoved k n x) := by
  rw [countMoved_eq]
  obtain ⟨regs, hod, parts⟩ := remPut_spec ((x.hod.rem + n) % 1024) x
  generalize remPut ((x.hod.rem + n) % 1024) x = y at *
  have kept : regsKept (fun a => a = Reg.HOD_CH_MOVED k ∨ a = Reg.HOD_BYTES) x
      (addF F.HOD_BYTES_COUNT ((x.hod.rem + n) / 1024) (addF (F.HOD_CH_MOVED_BYTES k) n y)) :=
    .addF (.addF (.of_regs regs) _ _ (.inl rfl)) _ _ (.inr rfl)
  refine ⟨?_, ?_, ?_, kept.getF ?_, kept, .addF (.addF (parts.mono (by decide)) _ _) _ _⟩
  · rw [addF, getF_setF_ne _ _ _ _ (moved_ne_bytes hk), getF_addF_word, getF_congr _ regs]
  · have same : getF (addF (F.HOD_CH_MOVED_BYTES k) n y) F.HOD_BYTES_COUNT = getF x F.HOD_BYTES_COUNT := by
      rw [addF, getF_setF_ne _ _ _ _ (moved_ne_bytes hk).symm, getF_congr _ regs]
    rw [getF_addF_word, same]
  · rw [addF_hod, addF_hod, hod]
  · rintro (h | h)
    · exact stat_ne_moved k k h
    · exact stat_ne_bytes hk h

/-- The last burst in flight ends, and the descriptor with it where all of it is issued. -/
def burstEnd (k : Nat) (done : Bool) (x : State) : State :=
  if done then setHod k hFinish x else settleFinish k x

theorem rem_setCh (k : Nat) (v : HodCh) (x : State) : (setCh k v x).hod.rem = x.hod.rem := by rw [setCh_hod]

theorem rem_settleFinish (k : Nat) (x : State) : (settleFinish k x).hod.rem = x.hod.rem := by
  unfold settleFinish
  dsimp only
  split
  · exact rem_setCh ..
  · rfl

theorem burstEnd_spec (k : Nat) (done : Bool) (x : State) :
    hodState (burstEnd k done x) k = (if done then hFinish else hodState x k) ∧
      (getCh (burstEnd k done x) k).inflight = (getCh x k).inflight ∧ (burstEnd k done x).hod.rem = x.hod.rem ∧
      regsKept (· = Reg.HOD_CH_STAT k) x (burstEnd k done x) ∧ changesOnly [.regs, .hod] x (burstEnd k done x) := by
  cases done with
  | true =>
    exact ⟨hodState_setHod (by decide) .., congrArg HodCh.inflight (getCh_setHod ..), congrArg HodSt.rem (setF_hod ..),
      regsKept_setHod _ _ _, (changesOnly_setHod ..).mono (by decide)⟩
  | false =>
    obtain ⟨state, flight, -, -, kept, parts⟩ := settleFinish_spec k x
    exact ⟨state k, flight, rem_settleFinish k x, kept, parts⟩

/-- What the channel moves of its burst: the bytes read, written. -/
def moveBurst (d : HodDesc) (off n : Nat) (s : State) : State :=
  writeBytes ((burstAddrs d.dst (dDstFixed d) off n).zip (readBytes (burstAddrs d.src (dSrcFixed d) off n) s).1)
    (readBytes (burstAddrs d.src (dSrcFixed d) off n) s).2

/-- The bytes moved are counted, and the burst is no longer in flight. -/
def burstCounted (k n : Nat) (x : State) : State :=
  setCh k { getCh (countMoved k n x) k with inflight := [], tries := 0 } (countMoved k n x)

theorem burstCounted_spec (hk : k < 32) (n : Nat) (x : State) :
    (getCh (burstCounted k n x) k).inflight = [] ∧
      getF (burstCounted k n x) (F.HOD_CH_MOVED_BYTES k) = min (2 ^ 32 - 1) (getF x (F.HOD_CH_MOVED_BYTES k) + n) ∧
      getF (burstCounted k n x) F.HOD_BYTES_COUNT = min (2 ^ 32 - 1) (getF x F.HOD_BYTES_COUNT + (x.hod.rem + n) / 1024) ∧
      (burstCounted k n x).hod.rem = (x.hod.rem + n) % 1024 ∧ hodState (burstCounted k n x) k = hodState x k ∧
      regsKept (fun a => a = Reg.HOD_CH_STAT k ∨ a = Reg.HOD_CH_MOVED k ∨ a = Reg.HOD_BYTES) x (burstCounted k n x) ∧
      changesOnly [.regs, .hod] x (burstCounted k n x) := by
  obtain ⟨moved, bytes, hod, state, kept, parts⟩ := countMoved_spec hk n x
  unfold burstCounted
  generalize countMoved k n x = y at *
  have stat := regsKept_setCh k { getCh y k with inflight := [], tries := 0 } y
  refine ⟨congrArg HodCh.inflight (getCh_setCh ..), ?_, ?_, ?_, (hodState_setCh ..).trans state, ?_, parts.trans (changesOnly_setCh ..)⟩
  · exact (stat.getF (stat_ne_moved k k).symm).trans moved
  · exact (stat.getF (stat_ne_bytes hk).symm).trans bytes
  · rw [rem_setCh, hod]
  · exact (kept.mono fun _ h => .inr h).trans (stat.mono fun _ h => .inl h)

theorem burstEnd_eq (k : Nat) (P : Prop) [Decidable P] (x : State) :
    (if hodState x k = hRun ∧ P then setHod k hFinish x else settleFinish k x) = burstEnd k (decide (hodState x k = hRun ∧ P)) x := by
  rw [burstEnd]
  simp only [decide_eq_true_eq]

theorem ackBurst_of_one {c : HodCh} (hc : getCh s k = c) (h : c.inflight = [(off, n)])
    (hsleep : burstSleeps s (burstAddrs c.desc.src (dSrcFixed c.desc) off n ++ burstAddrs c.desc.dst (dDstFixed c.desc) off n) = none) :
    ackBurst k s = burstEnd k (decide (hodState (burstCounted k n (moveBurst c.desc off n s)) k = hRun ∧ c.issued = c.desc.length))
      (burstCounted k n (moveBurst c.desc off n s)) := by
  refine Eq.trans ?_ (burstEnd_eq ..)
  unfold ackBurst burstCounted moveBurst
  simp only [hc, h, hsleep, ne_eq, not_true_eq_false, if_false]

/-- What the acknowledgement of the burst in flight leaves, of the bytes it has moved. -/
theorem acked_spec (hk : k < 32) (n : Nat) (done : Bool) (x : State) :
    (getCh (burstEnd k done (burstCounted k n x)) k).inflight = [] ∧
      getF (burstEnd k done (burstCounted k n x)) (F.HOD_CH_MOVED_BYTES k) = min (2 ^ 32 - 1) (getF x (F.HOD_CH_MOVED_BYTES k) + n) ∧
      getF (burstEnd k done (burstCounted k n x)) F.HOD_BYTES_COUNT =
        min (2 ^ 32 - 1) (getF x F.HOD_BYTES_COUNT + (x.hod.rem + n) / 1024) ∧
      (burstEnd k done (burstCounted k n x)).hod.rem = (x.hod.rem + n) % 1024 ∧
      hodState (burstEnd k done (burstCounted k n x)) k = (if done then hFinish else hodState x k) ∧
      regsKept (fun a => a = Reg.HOD_CH_STAT k ∨ a = Reg.HOD_CH_MOVED k ∨ a = Reg.HOD_BYTES) x (burstEnd k done (burstCounted k n x)) ∧
      changesOnly [.regs, .hod] x (burstEnd k done (burstCounted k n x)) := by
  obtain ⟨flight, moved, bytes, rem, state, kept, parts⟩ := burstCounted_spec hk n x
  generalize burstCounted k n x = y at *
  obtain ⟨state', flight', rem', kept', parts'⟩ := burstEnd_spec k done y
  refine ⟨flight'.trans flight, (kept'.getF (stat_ne_moved k k).symm).trans moved, (kept'.getF (stat_ne_bytes hk).symm).trans bytes,
    rem'.trans rem, ?_, kept.trans (kept'.mono fun _ h => .inl h), parts.trans parts'⟩
  rw [state', state]

section

variable {d : HodDesc} (hsrc : ∀ a ∈ burstAddrs d.src (dSrcFixed d) off n, spaceBit a ≠ some 0)
include hsrc

theorem moveBurst_kept (hdst : ∀ a ∈ burstAddrs d.dst (dDstFixed d) off n, spaceBit a ≠ some 0) (s : State) :
    changesOnly [.map, .out, .freeCtr] s (moveBurst d off n s) := by
  obtain ⟨ticks, -, -⟩ := readBytes_spec hsrc s
  exact (ticks.mono (by decide)).trans ((changesOnly_writeBytes (fun p hp => hdst _ (List.of_mem_zip (b := p.2) hp).1) _).mono (by decide))

/-- Bytes moved from lines to lines are the bytes that stood there. -/
theorem moveBurst_bytes (hn : n ≤ 4096) (hs : dSrcFixed d = false) (hd : dDstFixed d = false)
    (hlines : ∀ j, j < n → inLine s (d.src + off + j) ∧ inLine s (d.dst + off + j)) :
    ∀ j, j < n → hodByteAt (moveBurst d off n s) (d.dst + off + j) = hodByteAt s (d.src + off + j) := by
  obtain ⟨ticks, len, bytes⟩ := readBytes_spec hsrc s
  have read := bytes fun a ha => by
    rw [hs, rowAddrs_of_moving] at ha
    obtain ⟨j, hj, rfl⟩ := mem_rowAddrs.mp ha
    exact (hlines j hj).1
  have move : moveBurst d off n s = writeRow (d.dst + off) (readBytes (burstAddrs d.src (dSrcFixed d) off n) s).1
      (readBytes (burstAddrs d.src (dSrcFixed d) off n) s).2 := by
    rw [writeRow, len, length_burstAddrs, ← rowAddrs_of_moving, ← hd]
    rfl
  rw [move]
  rw [length_burstAddrs] at len
  have sizes := sizesKept_of_regs ticks.regs_eq
  generalize readBytes (burstAddrs d.src (dSrcFixed d) off n) s = r at *
  obtain ⟨written, -, -⟩ := writeRow_spec (s := r.2) (a := d.dst + off) (vs := r.1) (by omega) fun j hj =>
    (inLine_congr sizes).mpr (hlines j (by omega)).2
  intro j hj
  have value : r.1.getD j 0 = hodByteAt s (d.src + off + j) := by
    rw [read, List.getD_eq_getElem _ _ (by rw [List.length_map, length_burstAddrs]; exact hj), List.getElem_map]
    refine congrArg _ ?_
    simp only [burstAddrs, hs, List.getElem_map, List.getElem_range, Bool.false_eq_true, if_false]
  have low : hodByteAt s (d.src + off + j) < 256 := by
    rw [hodByteAt_of_line (hlines j hj).1]
    exact bitsOf_lt ..
  rw [written j (by omega), value, Nat.mod_eq_of_lt low]

end

theorem transferDone_of_one (h : (getCh s k).inflight = [(off, n)]) : transferDone k s = ackBurst k s := by
  rw [transferDone, h]
  rfl

theorem burstIssue_of_acked (h : 64 ≤ slot) (hk : k < 32) : burstIssue slot [k] s = ackBurst k s :=
  (if_neg fun h' => absurd h'.1 (Nat.not_lt.mpr h)).trans (if_pos hk)

/-! ### The read-back -/

theorem readbackDone_of_not (h : hodState s k ≠ hFinish ∨ (getCh s k).inflight ≠ [] ∨ (getCh s k).writing = true) :
    readBack k s = s := by
  have not : ¬ (hodState s k = hFinish ∧ (getCh s k).inflight = [] ∧ (getCh s k).writing = false) := fun ⟨h1, h2, h3⟩ => by
    rcases h with h | h | h
    · exact h h1
    · exact h h2
    · rw [h3] at h
      cases h
  exact (if_neg fun h => not ⟨h.1, h.2.1, h.2.2.1⟩).trans (if_neg not)

theorem readBack_of_none (h : getF s (F.HOD_CH_MOVED_BYTES k) = 0) : readBack k s = readbackDone k s := if_neg fun h' => h'.2.2.2 h

section

variable (h1 : hodState s k = hFinish) (h2 : (getCh s k).inflight = []) (h3 : (getCh s k).writing = false)
include h1 h2 h3

theorem readbackDone_of_finish : readbackDone k s = setCh k { getCh s k with writing := true, tries := 0 } s := if_pos ⟨h1, h2, h3⟩

theorem readBack_of_moved {m : Nat} (hm : m = getF s (F.HOD_CH_MOVED_BYTES k)) (h : m ≠ 0)
    (ha : a = ((getCh s k).desc.dst + (if dDstFixed (getCh s k).desc then (m - 1) % 8 else m - 1)) / 8 * 8) :
    readBack k s = readbackDone k (readBytes (burstAddrs a false 0 8) s).2 := by
  subst hm
  subst ha
  exact if_pos ⟨h1, h2, h3, h⟩

theorem readbackDone_spec : (getCh (readbackDone k s) k).writing = true ∧ (getCh (readbackDone k s) k).tries = 0 ∧
    hodState (readbackDone k s) k = hFinish ∧ regsKept (· = Reg.HOD_CH_STAT k) s (readbackDone k s) ∧
    changesOnly [.regs, .hod] s (readbackDone k s) := by
  rw [readbackDone_of_finish h1 h2 h3, getCh_setCh]
  exact ⟨rfl, rfl, (hodState_setCh ..).trans h1, regsKept_setCh _ _ _, changesOnly_setCh ..⟩

end

/-- The bytes of an aligned row of eight lie in one space. -/
theorem spaceBit_of_aligned {j : Nat} (h : a % 8 = 0) (hj : j < 8) : spaceBit (a + j) = spaceBit a := by
  have space : (a + j) / 2 ^ 56 % 256 = a / 2 ^ 56 % 256 := by omega
  rw [spaceBit, spaceBit, space]

/-- An aligned read-back outside the window changes nothing but the count of the free values. -/
theorem ticked_readBack (h : a % 8 = 0) (hs : spaceBit a ≠ some 0) (s : State) : ticked s (readBytes (burstAddrs a false 0 8) s).2 := by
  refine (readBytes_spec (fun b hb => ?_) s).1
  rw [rowAddrs_of_moving] at hb
  obtain ⟨j, hj, rfl⟩ := mem_rowAddrs.mp hb
  rw [Nat.add_zero, spaceBit_of_aligned h hj]
  exact hs

end Sys2Proof.Machine
end

/-! ## A descriptor is written back, and what follows it (R379, R380, R386, R387) -/

section

-- One proof after another: elaborated side by side, the proofs of this text take more memory than its check allows.
set_option Elab.async false

namespace Sys2Proof.Machine

variable {s t u x : State} {a k n : Nat} {c : HodCh}

/-! ### The bytes written back -/

/-- The bytes that a descriptor is given back with: its count, its control word and its status. -/
def doneBytes (k : Nat) (c : HodCh) (st : Nat) (s : State) : List Byte :=
  leBytes 4 (getF s (F.HOD_CH_MOVED_BYTES k)) ++ leBytes 2 c.desc.control ++ leBytes 2 st

/-- The status that a descriptor is given back with. -/
def doneStatus (c : HodCh) : Nat := c.retries % 256 + 256 * (c.code % 16)

theorem length_doneBytes (k : Nat) (c : HodCh) (st : Nat) (s : State) : (doneBytes k c st s).length = 8 := by
  simp only [doneBytes, List.length_append, length_leBytes]

theorem length_doneBytes_low (k : Nat) (c : HodCh) (s : State) :
    (leBytes 4 (getF s (F.HOD_CH_MOVED_BYTES k)) ++ leBytes 2 c.desc.control).length = 6 := by
  simp only [List.length_append, length_leBytes]

/-- The status is the last two bytes. -/
theorem doneBytes_low {j : Nat} (h : j < 6) (st st' : Nat) : (doneBytes k c st s).getD j 0 = (doneBytes k c st' s).getD j 0 := by
  have len := length_doneBytes_low k c s
  unfold doneBytes
  generalize leBytes 4 (getF s (F.HOD_CH_MOVED_BYTES k)) ++ leBytes 2 c.desc.control = p at *
  rw [List.getD_append _ _ _ _ (by omega), List.getD_append _ _ _ _ (by omega)]

theorem doneBytes_high (i st : Nat) : (doneBytes k c st s).getD (6 + i) 0 = (leBytes 2 st).getD i 0 := by
  have len := length_doneBytes_low k c s
  rw [doneBytes, List.getD_append_right _ _ _ _ (by omega), len, Nat.add_sub_cancel_left]

theorem getD_toNat (l : List Byte) (j : Nat) : (l.map (·.toNat)).getD j 0 = (l.getD j 0).toNat :=
  List.getD_map l (0 : Byte) (fun b : Byte => b.toNat)

theorem writeBack_eq (k : Nat) (s : State) : writeBack k s =
    writeRow ((getCh s k).cur + 30) ((leBytes 2 (doneStatus (getCh s k))).map (·.toNat))
      (writeRow ((getCh s k).cur + 24) ((doneBytes k (getCh s k) (doneStatus (getCh s k) + 0x8000) s).map (·.toNat)) s) := by
  rw [writeRow, writeRow, List.length_map, List.length_map, length_leBytes, length_doneBytes]
  rfl

/-- The bytes of the row written first, and of the status over its last two. -/
theorem writeBack_spec (hc : getCh s k = c) (h : ∀ j, j < 8 → inLine s (c.cur + 24 + j)) :
    (∀ j, j < 8 → hodByteAt (writeBack k s) (c.cur + 24 + j) = ((doneBytes k c (doneStatus c) s).getD j 0).toNat) ∧
      (writeBack k s).out = s.out := by
  rw [writeBack_eq, hc]
  have len8 : ((doneBytes k c (doneStatus c + 0x8000) s).map (·.toNat)).length = 8 := by rw [List.length_map, length_doneBytes]
  have len2 : ((leBytes 2 (doneStatus c)).map (·.toNat)).length = 2 := by rw [List.length_map, length_leBytes]
  obtain ⟨written, -, out⟩ := writeRow_spec (s := s) (a := c.cur + 24) (vs := (doneBytes k c (doneStatus c + 0x8000) s).map (·.toNat))
    (by omega) fun j hj => h j (by omega)
  have sizes : sizesKept s (writeRow (c.cur + 24) ((doneBytes k c (doneStatus c + 0x8000) s).map (·.toNat)) s) :=
    sizesKept_of_regs (changesOnly_writeRow (fun j hj => by
      rw [(inLine_iff.mp (h j (by omega))).1]
      decide) s).regs_eq
  rw [len8] at written
  generalize writeRow (c.cur + 24) ((doneBytes k c (doneStatus c + 0x8000) s).map (·.toNat)) s = x at *
  have lines : ∀ j, j < 8 → inLine x (c.cur + 24 + j) := fun j hj => (inLine_congr sizes).mpr (h j hj)
  obtain ⟨over2, others, out2⟩ := writeRow_spec (s := x) (a := c.cur + 30) (vs := (leBytes 2 (doneStatus c)).map (·.toNat))
    (by omega) fun j hj => by
      have := lines (6 + j) (by omega)
      rwa [show c.cur + 24 + (6 + j) = c.cur + 30 + j by omega] at this
  rw [len2] at over2 others
  refine ⟨fun j hj => ?_, out2.trans out⟩
  by_cases hj6 : j < 6
  · have apart : ∀ i, i < 2 → inSpace (c.cur + 24 + j) ≠ inSpace (c.cur + 30 + i) := fun i hi => by
      unfold inSpace
      omega
    rw [others _ (lines j hj) apart, written j hj, getD_toNat, Nat.mod_eq_of_lt (BitVec.isLt _), doneBytes_low hj6]
  · obtain ⟨i, rfl⟩ := Nat.exists_eq_add_of_le (Nat.le_of_not_lt hj6)
    have value := over2 i (by omega)
    rw [getD_toNat, Nat.mod_eq_of_lt (BitVec.isLt _), show c.cur + 30 + i = c.cur + 24 + (6 + i) by omega] at value
    rw [value, doneBytes_high]

/-- A write-back outside the window changes what the memories hold and what leaves the part. -/
theorem changesOnly_writeBack (hc : getCh s k = c) (h : ∀ j, j < 8 → spaceBit (c.cur + 24 + j) ≠ some 0) :
    changesOnly [.map, .out] s (writeBack k s) := by
  rw [writeBack_eq, hc]
  have first := changesOnly_writeRow (a := c.cur + 24) (vs := (doneBytes k c (doneStatus c + 0x8000) s).map (·.toNat))
    (fun j hj => h j (by rwa [List.length_map, length_doneBytes] at hj)) s
  refine first.trans (changesOnly_writeRow (fun j hj => ?_) _)
  rw [List.length_map, length_leBytes] at hj
  have := h (6 + j) (by omega)
  rwa [show c.cur + 24 + (6 + j) = c.cur + 30 + j by omega] at this

/-! ### Causes of a descriptor's end -/

theorem stat_ne_descs (j k : Nat) : Reg.HOD_CH_STAT j ≠ Reg.HOD_CH_DESCS k := by
  simp only [Reg.HOD_CH_STAT, Reg.HOD_CH_DESCS]
  omega

/-- The count of descriptors and the code of the last. -/
def descNoted (k code : Nat) (x : State) : State := addF (F.HOD_CH_DESCS_COUNT k) 1 (setF (F.HOD_CH_STAT_LAST_CODE k) code x)

theorem ok_lastCode (k : Nat) : (F.HOD_CH_STAT_LAST_CODE k).ok := by simp [Fld.ok]

theorem descNoted_spec (k code : Nat) (x : State) :
    getF (descNoted k code x) (F.HOD_CH_STAT_LAST_CODE k) = code % 16 ∧
      getF (descNoted k code x) (F.HOD_CH_DESCS_COUNT k) = min (2 ^ 32 - 1) (getF x (F.HOD_CH_DESCS_COUNT k) + 1) ∧
      regsKept (fun a => a = Reg.HOD_CH_STAT k ∨ a = Reg.HOD_CH_DESCS k) x (descNoted k code x) ∧
      changesOnly [.regs] x (descNoted k code x) := by
  have last : getF (setF (F.HOD_CH_STAT_LAST_CODE k) code x) (F.HOD_CH_STAT_LAST_CODE k) = code % 2 ^ 4 := getF_setF_same _ _ _ (ok_lastCode k)
  have descs : getF (setF (F.HOD_CH_STAT_LAST_CODE k) code x) (F.HOD_CH_DESCS_COUNT k) = getF x (F.HOD_CH_DESCS_COUNT k) :=
    getF_setF_ne _ _ _ _ (stat_ne_descs k k).symm
  have kept : regsKept (fun a => a = Reg.HOD_CH_STAT k ∨ a = Reg.HOD_CH_DESCS k) x (setF (F.HOD_CH_STAT_LAST_CODE k) code x) :=
    .setF (.refl x) _ _ (.inl rfl)
  have parts : changesOnly [.regs] x (setF (F.HOD_CH_STAT_LAST_CODE k) code x) := .setF (.refl _ x) _ _
  unfold descNoted
  generalize setF (F.HOD_CH_STAT_LAST_CODE k) code x = y at *
  refine ⟨?_, by rw [getF_addF_word, descs], .addF kept _ _ (.inr rfl), .addF parts _ _⟩
  rw [addF, getF_setF_ne _ _ _ _ (stat_ne_descs k k)]
  exact last

/-- The cause of the code that a descriptor ends with. -/
def codeCause (k code : Nat) (x : State) : State :=
  if code = 1 then hodCause k 2 (addF F.HOD_WITHDRAWALS_COUNT 1 x) else if code = 6 then hodCause k 4 x else x

theorem ne_withdrawals (hk : k < 32) : Reg.HOD_CH_STAT k ≠ Reg.HOD_WITHDRAWALS ∧ Reg.HOD_CH_DESCS k ≠ Reg.HOD_WITHDRAWALS ∧
    Reg.HOD_CH_CAUSE k ≠ Reg.HOD_WITHDRAWALS := by
  simp only [Reg.HOD_CH_STAT, Reg.HOD_CH_DESCS, Reg.HOD_CH_CAUSE, Reg.HOD_WITHDRAWALS]
  omega

theorem codeCause_spec (hk : k < 32) (code : Nat) (x : State) :
    (code = 1 → getF (codeCause k code x) (bitF (Reg.HOD_CH_CAUSE k) 2) = 1 ∧
        getF (codeCause k code x) F.HOD_WITHDRAWALS_COUNT = min (2 ^ 32 - 1) (getF x F.HOD_WITHDRAWALS_COUNT + 1)) ∧
      (code = 6 → getF (codeCause k code x) (bitF (Reg.HOD_CH_CAUSE k) 4) = 1) ∧
      regsKeptE (fun a => a = Reg.HOD_CH_CAUSE k ∨ a = Reg.HOD_WITHDRAWALS) x (codeCause k code x) ∧
      changesOnly eventParts x (codeCause k code x) := by
  by_cases h1 : code = 1
  · subst h1
    rw [codeCause, if_pos rfl]
    have count := getF_addF_word (a := Reg.HOD_WITHDRAWALS) 1 x
    have kept : regsKept (fun a => a = Reg.HOD_CH_CAUSE k ∨ a = Reg.HOD_WITHDRAWALS) x (addF F.HOD_WITHDRAWALS_COUNT 1 x) :=
      .addF (.refl x) _ _ (.inr rfl)
    have parts : changesOnly eventParts x (addF F.HOD_WITHDRAWALS_COUNT 1 x) := .addF (.refl _ x) _ _
    generalize addF F.HOD_WITHDRAWALS_COUNT 1 x = y at *
    have told := caused_hodCause hk (by decide : 2 < 32) y
    refine ⟨fun _ => ⟨told.set, (told.kept.getF (ne_withdrawals hk).2.2.symm (by decide)).trans count⟩, fun h => absurd h (by decide), ?_,
      parts.trans told.parts⟩
    exact kept.toE.trans fun a ha he => told.kept a (fun h => ha (.inl h)) he
  · by_cases h6 : code = 6
    · subst h6
      rw [codeCause, if_neg h1, if_pos rfl]
      have told := caused_hodCause hk (by decide : 4 < 32) x
      exact ⟨fun h => absurd h h1, fun _ => told.set, fun a ha he => told.kept a (fun h => ha (.inl h)) he, told.parts⟩
    · have heq : codeCause k code x = x := (if_neg h1).trans (if_neg h6)
      rw [heq]
      exact ⟨fun h => absurd h h1, fun h => absurd h h6, .refl x, .refl _ x⟩

/-- DONE, and the completion signal of the owner's core. -/
def doneTold (k core : Nat) (irq : Bool) (x : State) : State :=
  if irq then hodCause k 0 (if core < 12 then emit (.coreIrq core) x else x) else x

theorem doneTold_spec (hk : k < 32) (core : Nat) (irq : Bool) (x : State) :
    (irq = true → getF (doneTold k core irq x) (bitF (Reg.HOD_CH_CAUSE k) 0) = 1 ∧ (core < 12 → (doneTold k core irq x).out = .coreIrq core :: x.out)) ∧
      (irq = false → (doneTold k core irq x).out = x.out) ∧
      (∀ b, b ≠ 0 → getF (doneTold k core irq x) (bitF (Reg.HOD_CH_CAUSE k) b) = getF x (bitF (Reg.HOD_CH_CAUSE k) b)) ∧
      regsKeptE (· = Reg.HOD_CH_CAUSE k) x (doneTold k core irq x) ∧ changesOnly (.out :: eventParts) x (doneTold k core irq x) := by
  cases irq with
  | false => exact ⟨fun h => absurd h Bool.false_ne_true, fun _ => rfl, fun _ _ => rfl, .refl x, .refl _ x⟩
  | true =>
    rw [doneTold, if_pos rfl]
    have out : core < 12 → (if core < 12 then emit (.coreIrq core) x else x).out = .coreIrq core :: x.out := fun h => by
      rw [if_pos h, out_emit]
    have parts : changesOnly [.out] x (if core < 12 then emit (.coreIrq core) x else x) := .ite (.emit (.refl _ x) _) (.refl _ x)
    generalize (if core < 12 then emit (.coreIrq core) x else x) = y at *
    have told := caused_hodCause hk (by decide : 0 < 32) y
    have regs : y.regs = x.regs := parts.regs_eq
    refine ⟨fun _ => ⟨told.set, fun h => told.parts.out_eq.trans (out h)⟩, (fun h => nomatch h), fun b hb => (told.others b hb).trans (getF_congr _ regs),
      (regsKeptE.of_regs regs).trans told.kept, (parts.mono (by decide)).trans (told.parts.mono (by decide))⟩

theorem descCauses_eq (hc : getCh x k = c) : descCauses k x =
    doneTold k (getF x (F.HOD_CH_CFG_OWNER k)) (dIrq c.desc) (codeCause k c.code (descNoted k c.code x)) := by
  unfold descCauses
  rw [hc]
  rfl

theorem changesOnly_descCauses (hk : k < 32) (x : State) : changesOnly (.out :: eventParts) x (descCauses k x) := by
  rw [descCauses_eq rfl]
  obtain ⟨-, -, -, parts⟩ := descNoted_spec k (getCh x k).code x
  obtain ⟨-, -, -, parts1⟩ := codeCause_spec hk (getCh x k).code (descNoted k (getCh x k).code x)
  obtain ⟨-, -, -, -, parts2⟩ := doneTold_spec hk (getF x (F.HOD_CH_CFG_OWNER k)) (dIrq (getCh x k).desc)
    (codeCause k (getCh x k).code (descNoted k (getCh x k).code x))
  exact ((parts.mono (by decide)).trans (parts1.mono (by decide))).trans parts2

/-- What the end of a descriptor raises and counts. -/
structure DescEnded (k : Nat) (c : HodCh) (core : Nat) (s t : State) : Prop where
  last : getF t (F.HOD_CH_STAT_LAST_CODE k) = c.code % 16
  descs : getF t (F.HOD_CH_DESCS_COUNT k) = min (2 ^ 32 - 1) (getF s (F.HOD_CH_DESCS_COUNT k) + 1)
  withdrawn : c.code = 1 → getF t (bitF (Reg.HOD_CH_CAUSE k) 2) = 1 ∧
    getF t F.HOD_WITHDRAWALS_COUNT = min (2 ^ 32 - 1) (getF s F.HOD_WITHDRAWALS_COUNT + 1)
  aborted : c.code = 6 → getF t (bitF (Reg.HOD_CH_CAUSE k) 4) = 1
  done : dIrq c.desc = true → getF t (bitF (Reg.HOD_CH_CAUSE k) 0) = 1
  signal : dIrq c.desc = true → core < 12 → t.out = .coreIrq core :: s.out
  silent : dIrq c.desc = false → t.out = s.out
  kept : regsKeptE (fun a => a = Reg.HOD_CH_STAT k ∨ a = Reg.HOD_CH_CAUSE k ∨ a = Reg.HOD_CH_NEXT_LO k ∨
    a = Reg.HOD_CH_NEXT_HI k ∨ a = Reg.HOD_CH_DESCS k ∨ a = Reg.HOD_WITHDRAWALS) s t
  parts : changesOnly (.hod :: .out :: eventParts) s t

theorem withdrawals_quiet : quietReg Reg.HOD_WITHDRAWALS = true := by decide
theorem descs_quiet (k : Nat) : quietReg (Reg.HOD_CH_DESCS k) = true := decide_eq_true (by simp only [Reg.HOD_CH_DESCS]; omega)

theorem stat_ne_cause (j k : Nat) : Reg.HOD_CH_STAT j ≠ Reg.HOD_CH_CAUSE k := by
  simp only [Reg.HOD_CH_STAT, Reg.HOD_CH_CAUSE]
  omega

theorem descs_ne_cause (j k : Nat) : Reg.HOD_CH_DESCS j ≠ Reg.HOD_CH_CAUSE k := by
  simp only [Reg.HOD_CH_DESCS, Reg.HOD_CH_CAUSE]
  omega

theorem descEnded (hk : k < 32) (core : Nat) (c : HodCh) (x : State) :
    DescEnded k c core x (doneTold k core (dIrq c.desc) (codeCause k c.code (descNoted k c.code x))) := by
  obtain ⟨last, descs, kept, parts⟩ := descNoted_spec k c.code x
  obtain ⟨nes, ned, nec⟩ := ne_withdrawals hk
  have count : getF (descNoted k c.code x) F.HOD_WITHDRAWALS_COUNT = getF x F.HOD_WITHDRAWALS_COUNT :=
    kept.getF (fun h => h.elim nes.symm ned.symm)
  generalize descNoted k c.code x = y at *
  obtain ⟨withdrawn, aborted, kept1, parts1⟩ := codeCause_spec hk c.code y
  have last1 := (kept1.getF (f := F.HOD_CH_STAT_LAST_CODE k) (fun h => h.elim (stat_ne_cause k k) nes) (stat_quiet k)).trans last
  have descs1 := (kept1.getF (f := F.HOD_CH_DESCS_COUNT k) (fun h => h.elim (descs_ne_cause k k) ned) (descs_quiet k)).trans descs
  have out1 := parts1.out_eq.trans parts.out_eq
  generalize codeCause k c.code y = z at *
  obtain ⟨irq, noIrq, others, kept2, parts2⟩ := doneTold_spec hk core (dIrq c.desc) z
  refine ⟨(kept2.getF (stat_ne_cause k k) (stat_quiet k)).trans last1, (kept2.getF (descs_ne_cause k k) (descs_quiet k)).trans descs1,
    fun h => ⟨(others 2 (by decide)).trans (withdrawn h).1, (kept2.getF nec.symm withdrawals_quiet).trans ((withdrawn h).2.trans (by rw [count]))⟩,
    fun h => (others 4 (by decide)).trans (aborted h), fun h => (irq h).1, fun h hc => ((irq h).2 hc).trans (by rw [out1]),
    fun h => (noIrq h).trans out1, ?_, ((parts.mono (by decide)).trans (parts1.mono (by decide))).trans (parts2.mono (by decide))⟩
  refine (kept.mono fun a h => ?_).toE.trans fun a ha he => (kept2 a (fun h => ha (.inr (.inl h))) he).trans
    (kept1 a (fun h => h.elim (fun h => ha (.inr (.inl h))) fun h => ha (.inr (.inr (.inr (.inr (.inr h)))))) he)
  exact h.imp_right fun h => .inr (.inr (.inr (.inl h)))

theorem ne_next (k : Nat) : Reg.HOD_CH_STAT k ≠ Reg.HOD_CH_NEXT_LO k ∧ Reg.HOD_CH_STAT k ≠ Reg.HOD_CH_NEXT_HI k ∧
    Reg.HOD_CH_NEXT_LO k ≠ Reg.HOD_CH_NEXT_HI k := by
  simp only [Reg.HOD_CH_STAT, Reg.HOD_CH_NEXT_LO, Reg.HOD_CH_NEXT_HI]
  omega

theorem counts_beside (_hk : k < 32) {b : Nat} (h : b = Reg.HOD_CH_DESCS k ∨ b = Reg.HOD_WITHDRAWALS) :
    ¬ (b = Reg.HOD_CH_STAT k ∨ b = Reg.HOD_CH_CAUSE k ∨ b = Reg.HOD_CH_NEXT_LO k ∨ b = Reg.HOD_CH_NEXT_HI k) := by
  simp only [Reg.HOD_CH_STAT, Reg.HOD_CH_CAUSE, Reg.HOD_CH_NEXT_LO, Reg.HOD_CH_NEXT_HI, Reg.HOD_CH_DESCS, Reg.HOD_WITHDRAWALS] at *
  omega

/-- What moves neither the counts, nor the code, nor the causes leaves the end of a descriptor as it was. -/
theorem DescEnded.later {core : Nat} (hk : k < 32) (h : DescEnded k c core s x)
    (hlast : getF t (F.HOD_CH_STAT_LAST_CODE k) = getF x (F.HOD_CH_STAT_LAST_CODE k))
    (hcauses : ∀ b, b ≠ 1 → getF t (bitF (Reg.HOD_CH_CAUSE k) b) = getF x (bitF (Reg.HOD_CH_CAUSE k) b))
    (hkept : regsKeptE (fun a => a = Reg.HOD_CH_STAT k ∨ a = Reg.HOD_CH_CAUSE k ∨ a = Reg.HOD_CH_NEXT_LO k ∨ a = Reg.HOD_CH_NEXT_HI k) x t)
    (hparts : changesOnly (.hod :: eventParts) x t) : DescEnded k c core s t := by
  have out : t.out = x.out := hparts.out_eq
  refine ⟨hlast.trans h.last, (hkept.getF (counts_beside hk (.inl rfl)) (descs_quiet k)).trans h.descs, fun h1 => ?_,
    fun h6 => (hcauses 4 (by decide)).trans (h.aborted h6), fun hi => (hcauses 0 (by decide)).trans (h.done hi),
    fun hi hc => out.trans (h.signal hi hc), fun hi => out.trans (h.silent hi), ?_, h.parts.trans (hparts.mono (by decide))⟩
  · obtain ⟨cause, count⟩ := h.withdrawn h1
    exact ⟨(hcauses 2 (by decide)).trans cause, (hkept.getF (counts_beside hk (.inr rfl)) withdrawals_quiet).trans count⟩
  · refine h.kept.trans fun a ha he => hkept a (fun h' => ha ?_) he
    exact h'.imp_right (.imp_right (.imp_right .inl))

end Sys2Proof.Machine
end

/-! ## The channel after its descriptor, and the Hod's bursts (R379, R380, R387, R388) -/

section

-- One proof after another: elaborated side by side, the proofs of this text take more memory than its check allows.
set_option Elab.async false

namespace Sys2Proof.Machine

variable {s t u x : State} {a k n : Nat} {c : HodCh}

/-! ### NEXT -/

theorem setNext_spec (k v : Nat) (x : State) :
    (v % 32 = 0 → v < 2 ^ 64 → hodNext (setNext k v x) k = v) ∧
      regsKept (fun a => a = Reg.HOD_CH_NEXT_LO k ∨ a = Reg.HOD_CH_NEXT_HI k) x (setNext k v x) ∧ changesOnly [.regs] x (setNext k v x) := by
  refine ⟨fun h32 h64 => ?_, .setR (.setR (.refl x) _ _ (.inl rfl)) _ _ (.inr rfl), .setR (.setR (.refl _ x) _ _) _ _⟩
  have hi : getR (setNext k v x) (Reg.HOD_CH_NEXT_HI k) = v / 2 ^ 32 % 2 ^ 32 := getR_setR_same ..
  have lo : getR (setNext k v x) (Reg.HOD_CH_NEXT_LO k) = v / 32 * 32 % 2 ^ 32 % 2 ^ 32 :=
    (getR_setR_ne _ _ (ne_next k).2.2).trans (getR_setR_same ..)
  rw [hodNext, hi, lo]
  omega

theorem hodNext_setHod (k n : Nat) (x : State) : hodNext (setHod k n x) k = hodNext x k := by
  have kept := regsKept_setHod k n x
  rw [hodNext, hodNext, kept.getR (ne_next k).1.symm, kept.getR (ne_next k).2.1.symm]

/-- The channel goes on to its next descriptor, or idles. -/
def goOn (k next : Nat) (stop : Bool) (x : State) : State :=
  if stop = true ∨ next = 0 then setHod k hIdle (setNext k next x) else setHod k hFetch (setNext k next x)

theorem goOn_spec (k next : Nat) (stop : Bool) (x : State) :
    hodState (goOn k next stop x) k = (if stop = true ∨ next = 0 then hIdle else hFetch) ∧
      (next % 32 = 0 → next < 2 ^ 64 → hodNext (goOn k next stop x) k = next) ∧
      (∀ f : Fld, f.addr = Reg.HOD_CH_STAT k → 7 ≤ f.lo → getF (goOn k next stop x) f = getF x f) ∧
      regsKept (fun a => a = Reg.HOD_CH_STAT k ∨ a = Reg.HOD_CH_NEXT_LO k ∨ a = Reg.HOD_CH_NEXT_HI k) x (goOn k next stop x) ∧
      changesOnly [.regs] x (goOn k next stop x) := by
  obtain ⟨value, kept, parts⟩ := setNext_spec k next x
  have form : goOn k next stop x = setHod k (if stop = true ∨ next = 0 then hIdle else hFetch) (setNext k next x) := by
    rw [goOn]
    split <;> rfl
  rw [form]
  generalize setNext k next x = y at *
  refine ⟨hodState_setHod (by split <;> decide) .., fun h1 h2 => (hodNext_setHod ..).trans (value h1 h2), fun f hf h7 => ?_,
    (kept.mono fun _ h => .inr h).trans ((regsKept_setHod _ _ _).mono fun _ h => .inl h), parts.trans (changesOnly_setHod ..)⟩
  refine (getF_setHod (by omega) ..).trans (kept.getF fun h => ?_)
  rw [hf] at h
  exact h.elim (ne_next k).1 (ne_next k).2.1

/-- What follows a descriptor that is given back with a code. -/
def afterDesc (k : Nat) (c : HodCh) (x : State) : State :=
  if c.code = 5 then hodHalt k 4 x
  else if 2 ≤ c.code ∧ c.code ≤ 4 then hodHalt k 1 x
  else goOn k c.desc.next (decide (c.code = 6) || (decide (c.code = 1) && dWdStop c.desc)) x

/-- What the channel is after a descriptor. -/
structure AfterDesc (k : Nat) (c : HodCh) (s t : State) : Prop where
  refused : c.code = 5 → hodState t k = hHalted ∧ getF t (F.HOD_CH_STAT_HALT_CAUSE k) = 4
  failed : 2 ≤ c.code → c.code ≤ 4 → hodState t k = hHalted ∧ getF t (F.HOD_CH_STAT_HALT_CAUSE k) = 1
  goes : c.code ≤ 1 ∨ c.code = 6 → c.desc.next % 32 = 0 → c.desc.next < 2 ^ 64 →
    hodNext t k = c.desc.next ∧
      hodState t k = if c.code = 6 ∨ c.code = 1 ∧ dWdStop c.desc = true ∨ c.desc.next = 0 then hIdle else hFetch
  stat : ∀ f : Fld, f.addr = Reg.HOD_CH_STAT k → 7 ≤ f.lo → getF t f = getF s f
  causes : ∀ b, b ≠ 1 → getF t (bitF (Reg.HOD_CH_CAUSE k) b) = getF s (bitF (Reg.HOD_CH_CAUSE k) b)
  kept : regsKeptE (fun a => a = Reg.HOD_CH_STAT k ∨ a = Reg.HOD_CH_CAUSE k ∨ a = Reg.HOD_CH_NEXT_LO k ∨ a = Reg.HOD_CH_NEXT_HI k) s t
  parts : changesOnly eventParts s t

theorem cause_ne_next (k : Nat) : Reg.HOD_CH_CAUSE k ≠ Reg.HOD_CH_NEXT_LO k ∧ Reg.HOD_CH_CAUSE k ≠ Reg.HOD_CH_NEXT_HI k := by
  simp only [Reg.HOD_CH_CAUSE, Reg.HOD_CH_NEXT_LO, Reg.HOD_CH_NEXT_HI]
  omega

theorem afterDesc_halted (hk : k < 32) (hn : n < 8) (x : State)
    (h5 : c.code = 5 → n = 4) (hmid : 2 ≤ c.code → c.code ≤ 4 → n = 1) (hno : ¬ (c.code ≤ 1 ∨ c.code = 6)) :
    AfterDesc k c x (hodHalt k n x) := by
  obtain ⟨state, cause, -, causes, stat, kept, parts⟩ := hodHalt_spec hk hn x
  exact ⟨fun h => ⟨state, cause.trans (h5 h)⟩, fun h1 h2 => ⟨state, cause.trans (hmid h1 h2)⟩, fun h => absurd h hno, stat, causes,
    fun a ha he => kept a (fun h => ha (h.imp_right .inl)) he, parts⟩

theorem afterDesc_goes (x : State) (hno : c.code ≤ 1 ∨ 5 < c.code) :
    AfterDesc k c x (goOn k c.desc.next (decide (c.code = 6) || (decide (c.code = 1) && dWdStop c.desc)) x) := by
  obtain ⟨state, next, stat, kept, parts⟩ := goOn_spec k c.desc.next (decide (c.code = 6) || (decide (c.code = 1) && dWdStop c.desc)) x
  refine ⟨fun h => by omega, fun h1 h2 => by omega, fun _ h32 h64 => ⟨next h32 h64, state.trans ?_⟩, stat, fun b _ => kept.getF ?_, ?_,
    parts.mono (by decide)⟩
  · simp only [Bool.or_eq_true, Bool.and_eq_true, decide_eq_true_eq, or_assoc]
  · rintro (h | h | h)
    · exact stat_ne_cause k k h.symm
    · exact (cause_ne_next k).1 h
    · exact (cause_ne_next k).2 h
  · exact (kept.mono fun a h => h.imp_right .inr).toE

theorem afterDesc_spec (hk : k < 32) (c : HodCh) (x : State) : AfterDesc k c x (afterDesc k c x) := by
  unfold afterDesc
  split_ifs with h5 hmid
  · exact afterDesc_halted hk (by decide) x (fun _ => rfl) (by omega) (by omega)
  · exact afterDesc_halted hk (by decide) x (fun h => absurd h h5) (fun _ _ => rfl) (by omega)
  · exact afterDesc_goes x (by omega)

/-! ### The write-back -/

theorem hodReset_of_not (h : s.hod.resetting = false) : hodReset s = s := by
  rw [hodReset, h]
  rfl

theorem writebackDone_of_not (h : hodState s k ≠ hFinish ∨ (getCh s k).writing = false) : writebackDone k s = s :=
  if_pos (h.imp_right fun h => by rw [h]; rfl)

theorem resetting_setCh (k : Nat) (v : HodCh) (x : State) : (setCh k v x).hod.resetting = x.hod.resetting := by rw [setCh_hod]

/-- The write-back is over. -/
def backDone (k : Nat) (x : State) : State := setCh k { getCh x k with writing := false, tries := 0 } x

theorem backDone_spec (k : Nat) (x : State) :
    (getCh (backDone k x) k).writing = false ∧ (backDone k x).hod.resetting = x.hod.resetting ∧
      (∀ f : Fld, f.addr = Reg.HOD_CH_STAT k → f.lo + f.w ≤ 12 → getF (backDone k x) f = getF x f) ∧
      regsKept (· = Reg.HOD_CH_STAT k) x (backDone k x) ∧ changesOnly [.regs, .hod] x (backDone k x) :=
  ⟨congrArg HodCh.writing (getCh_setCh ..), resetting_setCh .., fun _ _ h => getF_setCh h .., regsKept_setCh _ _ _,
    changesOnly_setCh ..⟩

theorem writebackDone_of_writing (hc : getCh s k = c) (h1 : hodState s k = hFinish) (h2 : c.writing = true) :
    writebackDone k s = hodReset (afterDesc k c (backDone k (descCauses k (writeBack k s)))) := by
  unfold writebackDone
  simp only [hc, h1, h2, ne_eq, not_true_eq_false, Bool.not_true, Bool.false_eq_true, or_false, if_false]
  rfl

/-- What a descriptor given back leaves, of the memories as the write-back left them. -/
theorem givenBack_spec (hk : k < 32) (hc : getCh x k = c) (hr : x.hod.resetting = false) :
    DescEnded k c (getF x (F.HOD_CH_CFG_OWNER k)) x (afterDesc k c (backDone k (descCauses k x))) ∧
      (∃ y, AfterDesc k c y (afterDesc k c (backDone k (descCauses k x)))) ∧
      (getCh (afterDesc k c (backDone k (descCauses k x))) k).writing = false ∧
      (afterDesc k c (backDone k (descCauses k x))).hod.resetting = false := by
  have ended : DescEnded k c (getF x (F.HOD_CH_CFG_OWNER k)) x (descCauses k x) := by
    rw [descCauses_eq hc]
    exact descEnded hk _ c x
  have hod := (changesOnly_descCauses hk x).hod_eq
  generalize descCauses k x = y at *
  obtain ⟨writing, resets, stat, kept, parts⟩ := backDone_spec k y
  have later : DescEnded k c (getF x (F.HOD_CH_CFG_OWNER k)) x (backDone k y) := ended.later hk (stat _ rfl (by simp))
    (fun b _ => kept.getF (stat_ne_cause k k).symm) (kept.mono fun _ h => .inl h).toE (parts.mono (by decide))
  generalize backDone k y = z at *
  have after := afterDesc_spec hk c z
  refine ⟨later.later hk (after.stat _ rfl (by simp)) after.causes after.kept (after.parts.mono (by decide)), ⟨z, after⟩, ?_, ?_⟩
  · rw [getCh_congr after.parts.hod_eq, writing]
  · rw [after.parts.hod_eq, resets, hod, hr]

/-- Settles O53: the arbiter by `hodGrant_of_mayIssue`, bursts by `moveBurst_bytes`, the write-back by `writeBack_spec`. -/
theorem hodBurstsMoveAndComplete : Obligations.HodBurstsMoveAndComplete := by
  unfold Obligations.HodBurstsMoveAndComplete
  intro s
  refine ⟨fun slot => ⟨?idles, ?grants, ?acked⟩, fun k hk => ⟨?noFlight, ?moves, ?noReadback, ?ack, ?readback, ?noWriteback, ?writeback⟩, ?window⟩
  case idles =>
    intro h
    refine congrArg Host.Outcome.next ?_
    rcases h with h | h | h | h | h
    · exact burstIssue_of_not (.inl h)
    · exact burstIssue_of_not (.inr (.inl h))
    · exact burstIssue_of_not (.inr (.inr (.inl h)))
    · exact burstIssue_of_not (.inr (.inr (.inr h)))
    · exact burstIssue_none h
  case grants =>
    intro j hslot hen hrun hpower hj hmay
    obtain ⟨k, grant, hk, may, low⟩ := hodGrant_of_mayIssue hj hmay
    obtain ⟨state, w, hw⟩ := run_of_mayIssue may
    have run : exec (.hodBurstIssue slot []) s = .next (grantNoted k w (tget (fun _ => 0) s.hod.used w) (setCh k (withBurst (getCh s k)) s)) :=
      congrArg Host.Outcome.next ((burstIssue_of_running hslot hen hrun hpower).trans (issueBurst_of_grant grant hw))
    obtain ⟨ch, ptr, used, kept, regs, parts⟩ := granted_spec k w (withBurst (getCh s k)) s (tget (fun _ => 0) s.hod.used w)
    exact ⟨_, k, w, run, hk, may, low, hw, ch, ptr, used, kept.trans state, regs, parts⟩
  case acked =>
    intro k hslot hk t ht hone
    obtain ⟨⟨off, n⟩, hin⟩ := List.length_eq_one_iff.mp hone
    have run : exec (.hodTransferDone k) s = .next (ackBurst k s) :=
      congrArg Host.Outcome.next ((onCh_of_lt hk _ s).trans (transferDone_of_one hin))
    have run' : exec (.hodBurstIssue slot [k]) s = .next (ackBurst k s) := congrArg Host.Outcome.next (burstIssue_of_acked hslot hk)
    exact run'.trans (run.symm.trans ht)
  case noFlight =>
    intro h
    refine congrArg Host.Outcome.next ((onCh_of_lt hk _ s).trans ?_)
    rw [transferDone, h]
    rfl
  case moves =>
    intro off n hin hsrc hdst
    have awake := burstSleeps_of_outside (fun a ha => (List.mem_append.mp ha).elim (hsrc a) (hdst a)) s
    have run : exec (.hodTransferDone k) s = .next (burstEnd k
        (decide (hodState (burstCounted k n (moveBurst (getCh s k).desc off n s)) k = hRun ∧ (getCh s k).issued = (getCh s k).desc.length))
        (burstCounted k n (moveBurst (getCh s k).desc off n s))) :=
      congrArg Host.Outcome.next ((onCh_of_lt hk _ s).trans ((transferDone_of_one hin).trans (ackBurst_of_one rfl hin awake)))
    have counted : hodState (burstCounted k n (moveBurst (getCh s k).desc off n s)) k = hodState s k :=
      (burstCounted_spec hk n _).2.2.2.2.1.trans (hodState_congr (moveBurst_kept hsrc hdst s).regs_eq k)
    rw [counted] at run
    have bytes := moveBurst_bytes (s := s) hsrc
    have moved := moveBurst_kept hsrc hdst s
    generalize moveBurst (getCh s k).desc off n s = x at *
    obtain ⟨flight, total, kib, rem, state, kept, parts⟩ := acked_spec hk n (decide (hodState s k = hRun ∧ (getCh s k).issued = (getCh s k).desc.length)) x
    have sizes := sizesKept_of_kept kept.toE (by
      rintro a (rfl | rfl | rfl)
      all_goals
        simp only [Reg.HOD_CH_STAT, Reg.HOD_CH_MOVED, Reg.HOD_BYTES]
        omega)
    refine ⟨_, run, flight, total.trans ?_, kib.trans ?_, rem.trans ?_, fun hrun => state.trans ?_, fun hn hs hd hlines j hj => ?_,
      (regsKept.of_regs moved.regs_eq).trans kept, (moved.mono (by decide)).trans (parts.mono (by decide))⟩
    · rw [getF_congr _ moved.regs_eq]
    · rw [getF_congr _ moved.regs_eq, moved.hod_eq]
    · rw [moved.hod_eq]
    · rw [hodState_congr moved.regs_eq, hrun]
      simp only [true_and, decide_eq_true_eq]
    · have line : inLine x ((getCh s k).desc.dst + off + j) := (inLine_congr (sizesKept_of_regs moved.regs_eq)).mpr (hlines j hj).2
      exact (hodByteAt_kept sizes parts.map_eq line).trans (bytes hn hs hd hlines j hj)
  case noReadback => exact fun h => congrArg Host.Outcome.next ((onCh_of_lt hk _ s).trans (readbackDone_of_not h))
  case ack =>
    intro off n hin
    exact congrArg Host.Outcome.next ((onCh_of_lt hk _ s).trans (transferDone_of_one hin))
  case readback =>
    intro m a hm ha h1 h2 h3
    have run (h : m ≠ 0) : exec (.hodReadbackDone k) s = .next (readbackDone k (readBytes (burstAddrs a false 0 8) s).2) :=
      congrArg Host.Outcome.next ((onCh_of_lt hk _ s).trans (readBack_of_moved h1 h2 h3 hm h ha))
    refine ⟨run, fun h => ?_⟩
    by_cases hz : m = 0
    · have run0 : exec (.hodReadbackDone k) s = .next (readbackDone k s) :=
        congrArg Host.Outcome.next ((onCh_of_lt hk _ s).trans (readBack_of_none (hm.symm.trans hz)))
      obtain ⟨writing, tries, state, kept, parts⟩ := readbackDone_spec h1 h2 h3
      exact ⟨_, run0, writing, tries, state, parts.map_eq, kept, parts.mono (by decide)⟩
    · have ticks : ticked s (readBytes (burstAddrs a false 0 8) s).2 := ticked_readBack (by omega) (h.resolve_left hz) s
      have run1 := run hz
      generalize (readBytes (burstAddrs a false 0 8) s).2 = x at *
      have ch : getCh x k = getCh s k := getCh_congr ticks.hod_eq k
      obtain ⟨writing, tries, state, kept, parts⟩ := readbackDone_spec (s := x) ((hodState_congr ticks.regs_eq k).trans h1) (by rw [ch, h2])
        (by rw [ch, h3])
      exact ⟨_, run1, writing, tries, state, parts.map_eq.trans ticks.map_eq, (regsKept.of_regs ticks.regs_eq).trans kept,
        (ticks.mono (by decide)).trans (parts.mono (by decide))⟩
  case noWriteback => exact fun h => congrArg Host.Outcome.next ((onCh_of_lt hk _ s).trans (writebackDone_of_not h))
  case writeback =>
    intro c hc h1 h2 hreset hspace
    have run : exec (.hodWritebackDone k) s = .next (hodReset (afterDesc k c (backDone k (descCauses k (writeBack k s))))) :=
      congrArg Host.Outcome.next ((onCh_of_lt hk _ s).trans (writebackDone_of_writing hc.symm h1 h2))
    have wrote := changesOnly_writeBack hc.symm hspace
    have bytes := writeBack_spec hc.symm
    generalize writeBack k s = x at *
    obtain ⟨ended, ⟨y, after⟩, idle, reset⟩ := givenBack_spec hk ((getCh_congr wrote.hod_eq k).trans hc.symm) (by rw [wrote.hod_eq, hreset])
    rw [hodReset_of_not reset] at run
    generalize afterDesc k c (backDone k (descCauses k x)) = t at *
    have owner : getF x (F.HOD_CH_CFG_OWNER k) = getF s (F.HOD_CH_CFG_OWNER k) := getF_congr _ wrote.regs_eq
    rw [owner] at ended
    have sizes : sizesKept x t := sizesKept_of_kept ended.kept (by
      rintro a (rfl | rfl | rfl | rfl | rfl | rfl)
      all_goals
        simp only [Reg.HOD_CH_STAT, Reg.HOD_CH_CAUSE, Reg.HOD_CH_NEXT_LO, Reg.HOD_CH_NEXT_HI, Reg.HOD_CH_DESCS, Reg.HOD_WITHDRAWALS]
        omega)
    refine ⟨_, run, idle, ended.last, ended.descs.trans ?_, fun hlines => ?_, after.refused, after.failed, after.goes,
      fun h => ⟨(ended.withdrawn h).1, (ended.withdrawn h).2.trans ?_⟩, ended.aborted, ended.done,
      (regsKeptE.of_regs wrote.regs_eq).trans ended.kept, (wrote.mono (by decide)).trans (ended.parts.mono (by decide))⟩
    · rw [getF_congr _ wrote.regs_eq]
    · obtain ⟨written, out⟩ := bytes hlines
      refine ⟨fun j hj => ?_, fun hi hcore => (ended.signal hi hcore).trans (by rw [out]), fun hi => (ended.silent hi).trans out⟩
      have line : inLine x (c.cur + 24 + j) := (inLine_congr (sizesKept_of_regs wrote.regs_eq)).mpr (hlines j hj)
      exact (hodByteAt_kept sizes ended.parts.map_eq line).trans (written j hj)
    · rw [getF_congr _ wrote.regs_eq]
  case window =>
    intro idx p hat
    have run : exec (.window idx) s = .next (retire .hod idx (if eBursts p.e ≠ 0 ∧ eBursts p.e ≤ tget (fun _ => 0) s.hod.used idx then 2 else 1) s) := by
      refine congrArg Host.Outcome.next ((onEntry_of_some _ hat).trans ?_)
      simp only [Bool.and_eq_true, decide_eq_true_eq]
    exact ⟨_, run, retire_tiles, retiredAs_retire rfl hat⟩

end Sys2Proof.Machine
end

/-! ## Protected memories: registers, causes and the log (R389, R395, R396) -/

section

-- One proof after another: elaborated side by side, the proofs of this text take more memory than its check allows.
set_option Elab.async false

namespace Sys2Proof.Machine

variable {s t u x : State} {m word syn bit : Nat} {src : ErrSource} {e : MemLog}

/-! ### A memory's registers -/

/-- The address of a register of a memory: its MEMCHK sub-block's, or its channel's page's. -/
def memAddr (m chk map : Nat) : Nat := if m < 16 then 0x9000 + 0x100 * m + chk else 0xA000 + 0x1000 * (m - 16) + map

theorem hasRegs_cases (h : hasRegs m = true) : (1 ≤ m ∧ m ≤ 12) ∨ (16 ≤ m ∧ m < 20) := by
  simpa only [hasRegs, Bool.or_eq_true, decide_eq_true_eq] using h

theorem hasRegs_ne_zero (h : hasRegs m = true) : m ≠ 0 := by
  have := hasRegs_cases h
  omega

theorem isMem_of_hasRegs (h : hasRegs m = true) : isMem m = true := by rw [isMem, h]; rfl

theorem hasRegs_of_isMem (h : isMem m = true) (h0 : m ≠ 0) : hasRegs m = true := by
  simpa [isMem, h0] using h

theorem memAddr_ne {a b a' b' : Nat} (ha : a ≠ a') (hb : b ≠ b') (m : Nat) : memAddr m a b ≠ memAddr m a' b' := by
  unfold memAddr
  split <;> omega

theorem memAddr_quiet (h : hasRegs m = true) {a b : Nat} (ha : a < 0x100) (hb : 0x100 ≤ b ∧ b < 0x1000) :
    quietReg (memAddr m a b) = true := by
  have hm := hasRegs_cases h
  refine decide_eq_true ?_
  unfold memAddr
  split <;> omega

theorem memPage_memAddr (m : Nat) {a b : Nat} (ha : a < 0x100) (hb : b < 0x1000) : memPage m (memAddr m a b) := by
  unfold memPage memAddr
  split <;> omega

/-- A memory's field lies in its register, at its place. -/
theorem mF_mk (m : Nat) {chk map : Nat → Nat} {a b lo w : Nat} (hchk : ∀ k, chk k = 0x9000 + 0x100 * k + a)
    (hmap : ∀ c, map c = 0xA000 + 0x1000 * c + b) :
    mF m (fun k => ⟨chk k, lo, w⟩) (fun c => ⟨map c, lo, w⟩) = ⟨memAddr m a b, lo, w⟩ := by
  unfold mF memAddr
  split
  · dsimp only
    rw [hchk]
  · dsimp only
    rw [hmap]

theorem address_offset {n m a b c : Nat} (h : a + b = c) : c + n * m = a + n * m + b := by omega

/-- The register of a memory's causes. -/
def causeReg (m : Nat) : Nat := memAddr m 0x24 0x12C

theorem memCaused_iff : memCaused m bit t ↔ getF t (bitF (causeReg m) bit) = 1 := by
  rw [memCaused]
  exact Iff.of_eq (congrArg (getF t · = 1) (mF_mk m (fun _ => address_offset rfl) (fun _ => address_offset rfl)))

/-! ### A memory takes a value -/

theorem getMem_congr (h : t.mems = s.mems) (m : Nat) : getMem t m = getMem s m := by rw [getMem, getMem, h]

theorem setMem_spec (m : Nat) (v : MemSt) (s : State) :
    getMem (setMem m v s) m = v ∧ (setMem m v s).regs = s.regs ∧ (setMem m v s).mems = { s.mems with mems := tset memD m v s.mems.mems } ∧
      changesOnly [.mems] s (setMem m v s) :=
  ⟨tget_tset_same .., rfl, rfl, .mems (.refl _ s)⟩

/-! ### Causes -/

theorem memCause_zero (bit : Nat) (s : State) : memCause 0 bit s = happen baseMemchk 0 s := if_pos rfl

theorem evtOnly_memchk (s : State) : evtOnly s (happen baseMemchk 0 s) := evtOnly_happen baseMemchk 0 s (by decide) (by decide)

theorem raised_memchk (s : State) : raised baseMemchk 0 (happen baseMemchk 0 s) = true := raised_happen _ _ s (by decide) (by decide) (by decide) (by decide)

theorem srcOf_baseMemchk_lt (h : m ≤ 12) : srcOf baseMemchk m < 256 := by
  have all : ∀ m ≤ 12, srcOf baseMemchk m < 256 := by decide
  exact all m h

theorem caused_memCause (h : hasRegs m = true) (hb : bit < 32) (s : State) : Caused (causeReg m) bit s (memCause m bit s) := by
  have hm := hasRegs_cases h
  have hq : quietReg (causeReg m) = true := memAddr_quiet h (by decide) (by decide)
  have hok : (bitF (causeReg m) bit).ok := by
    simp only [bitF, Fld.ok]
    omega
  unfold memCause
  rw [if_neg (hasRegs_ne_zero h)]
  rcases hm with hm | hm
  · have low : m < 16 := by omega
    have reg : causeReg m = Reg.MEMCHK_CAUSE m := (if_pos low).trans (address_offset rfl).symm
    rw [if_pos low]
    rw [reg] at hq hok ⊢
    exact caused_happenCause (srcOf_baseMemchk_lt hm.2) hok hq s
  · have high : ¬ m < 16 := by omega
    have reg : causeReg m = Reg.MAPMEM_CAUSE (m - 16) := (if_neg high).trans (address_offset rfl).symm
    rw [if_neg high]
    rw [reg] at hq hok ⊢
    exact caused_happenCause (srcOf_baseMapmem_lt (by omega) (by decide)) hok hq s

/-! ### The log -/

/-- What the fold over the entries of a log gives is one of them, and there is one where there is an entry. -/
theorem foldl_oldest (l : List MemLog) (b : Option MemLog) :
    ((l.foldl (fun (b : Option MemLog) x => match b with
      | none => some x
      | some y => if x.no < y.no then some x else b) b = none → b = none ∧ l = []) ∧
      ∀ y, l.foldl (fun (b : Option MemLog) x => match b with
        | none => some x
        | some y => if x.no < y.no then some x else b) b = some y → b = some y ∨ y ∈ l) := by
  induction l generalizing b with
  | nil => exact ⟨fun h => ⟨h, rfl⟩, fun y h => .inl h⟩
  | cons x l ih =>
    rw [List.foldl_cons]
    cases b with
    | none =>
      obtain ⟨no, some⟩ := ih (some x)
      refine ⟨fun h => (Option.some_ne_none x (no h).1).elim, fun y h => .inr ?_⟩
      rcases some y h with h | h
      · cases h
        exact List.mem_cons_self
      · exact List.mem_cons_of_mem _ h
    | some z =>
      dsimp only
      by_cases hx : x.no < z.no
      · rw [if_pos hx]
        obtain ⟨no, some⟩ := ih (some x)
        refine ⟨fun h => (Option.some_ne_none x (no h).1).elim, fun y h => ?_⟩
        rcases some y h with h | h
        · cases h
          exact .inr List.mem_cons_self
        · exact .inr (List.mem_cons_of_mem _ h)
      · rw [if_neg hx]
        obtain ⟨no, some⟩ := ih (some z)
        exact ⟨fun h => (Option.some_ne_none z (no h).1).elim, fun y h => (some y h).imp_right (List.mem_cons_of_mem _)⟩

theorem replaceCe_none {l : List MemLog} (h : replaceCe e l = none) : ∀ y ∈ l, y.kind ≠ 0 := by
  unfold replaceCe at h
  split at h
  · cases h
  · next hf =>
    intro y hy hk
    have empty := ((foldl_oldest _ _).1 hf).2
    exact List.not_mem_nil (empty ▸ List.mem_filter.mpr ⟨hy, decide_eq_true hk⟩)

theorem replaceCe_some {l l' : List MemLog} (h : replaceCe e l = some l') :
    ∃ old ∈ l, old.kind = 0 ∧ l' = l.map (fun y => if y.no = old.no then e else y) := by
  unfold replaceCe at h
  split at h
  · next old hf =>
    obtain ⟨hmem, hkind⟩ := List.mem_filter.mp (((foldl_oldest _ _).2 old hf).resolve_left (by simp))
    exact ⟨old, hmem, of_decide_eq_true hkind, (Option.some.inj h).symm⟩
  · cases h

/-- The state of memories with its next number taken. -/
def noTaken (s : State) : State := { s with mems := { s.mems with nextNo := s.mems.nextNo + 1 } }

theorem noTaken_spec (m : Nat) (s : State) : getMem (noTaken s) m = getMem s m ∧ (noTaken s).regs = s.regs ∧ changesOnly [.mems] s (noTaken s) :=
  ⟨rfl, rfl, .mems (.refl _ s)⟩

theorem memLog_eq (m word syn kind : Nat) (src : ErrSource) (s : State) : memLog m word syn kind src s =
    if (getMem s m).log.length < 16 then setMem m { getMem s m with log := (getMem s m).log ++ [memEntry s word syn kind src] } (noTaken s)
    else match replaceCe (memEntry s word syn kind src) (getMem s m).log with
      | some l => setMem m { getMem s m with log := l } (noTaken s)
      | none => memCause m 5 (if m < 16 then memCount m (F.MEMCHK_LOG_DROPPED_COUNT m) 1 (noTaken s) else noTaken s) := rfl

/-- The registers that a full log changes. -/
def logRegs (m a : Nat) : Prop := m ≠ 0 ∧ (a = causeReg m ∨ m < 16 ∧ a = Reg.MEMCHK_LOG_DROPPED m)

/-- What an entry for a memory's log leaves. -/
structure MemLogged (m : Nat) (e : MemLog) (s t : State) : Prop where
  kept : getMem t m = { getMem s m with log := (getMem t m).log }
  room : (getMem s m).log.length < 16 → (getMem t m).log = (getMem s m).log ++ [e]
  full : 16 ≤ (getMem s m).log.length → ((getMem s m).log.map (·.no)).Nodup →
    (∀ x ∈ (getMem s m).log, x.kind ≠ 0 → x ∈ (getMem t m).log) ∧
      ((∃ x ∈ (getMem s m).log, x.kind = 0) → e ∈ (getMem t m).log) ∧
      ((∀ x ∈ (getMem s m).log, x.kind ≠ 0) → (getMem t m).log = (getMem s m).log ∧ (m ≠ 0 → memCaused m 5 t) ∧
        (m < 16 → m ≠ 0 → memCounted m F.MEMCHK_LOG_DROPPED_COUNT F.MEMCHK_LOG_DROPPED_COUNT s t))
  regs : regsKeptE (logRegs m) s t
  causes : m ≠ 0 → ∀ b, b ≠ 5 → getF t (bitF (causeReg m) b) = getF s (bitF (causeReg m) b)
  parts : changesOnly (.mems :: eventParts) s t

theorem memLogged_room (h : (getMem s m).log.length < 16) (e : MemLog) :
    MemLogged m e s (setMem m { getMem s m with log := (getMem s m).log ++ [e] } (noTaken s)) := by
  obtain ⟨ch, regs, parts⟩ := noTaken_spec m s
  generalize noTaken s = x at *
  obtain ⟨value, regs', -, parts'⟩ := setMem_spec m { getMem s m with log := (getMem s m).log ++ [e] } x
  generalize setMem m { getMem s m with log := (getMem s m).log ++ [e] } x = t at *
  have same : t.regs = s.regs := regs'.trans regs
  exact ⟨by rw [value], fun _ => by rw [value], fun h' => absurd h' (Nat.not_le.mpr h), .of_regs same, fun _ b _ => getF_congr _ same,
    (parts.trans parts').mono (by decide)⟩

theorem memLogged_replaced (h : 16 ≤ (getMem s m).log.length) {l : List MemLog} (hl : replaceCe e (getMem s m).log = some l) :
    MemLogged m e s (setMem m { getMem s m with log := l } (noTaken s)) := by
  obtain ⟨old, hold, hkind, rfl⟩ := replaceCe_some hl
  obtain ⟨ch, regs, parts⟩ := noTaken_spec m s
  generalize noTaken s = x at *
  generalize hl' : (getMem s m).log.map (fun y => if y.no = old.no then e else y) = l at *
  obtain ⟨value, regs', -, parts'⟩ := setMem_spec m { getMem s m with log := l } x
  generalize setMem m { getMem s m with log := l } x = t at *
  have same : t.regs = s.regs := regs'.trans regs
  refine ⟨by rw [value], fun h' => absurd h (Nat.not_le.mpr h'), fun _ hnd => ⟨fun y hy hk => ?_, fun _ => ?_, fun hno => absurd hkind (hno old hold)⟩,
    .of_regs same, fun _ b _ => getF_congr _ same, (parts.trans parts').mono (by decide)⟩
  · have apart : y.no ≠ old.no := fun he => hk ((List.inj_on_of_nodup_map hnd hy hold he) ▸ hkind)
    rw [value, ← hl']
    exact List.mem_map.mpr ⟨y, hy, if_neg apart⟩
  · rw [value, ← hl']
    exact List.mem_map.mpr ⟨old, hold, if_pos rfl⟩

/-- A log full of errors that must stay: the memory has no registers. -/
theorem memLogged_full_zero (h : 16 ≤ (getMem s 0).log.length) (hl : replaceCe e (getMem s 0).log = none) :
    MemLogged 0 e s (memCause 0 5 (noTaken s)) := by
  obtain ⟨ch, regs, parts⟩ := noTaken_spec 0 s
  have no := replaceCe_none hl
  generalize noTaken s = x at *
  rw [memCause_zero]
  have evt := evtOnly_memchk x
  generalize happen baseMemchk 0 x = t at *
  have value : getMem t 0 = getMem s 0 := (getMem_congr evt.1.mems_eq 0).trans ch
  refine ⟨by rw [value], fun h' => absurd h (Nat.not_le.mpr h'), fun _ _ => ⟨fun y hy _ => by rwa [value],
    fun ⟨y, hy, hk⟩ => absurd hk (no y hy), fun _ => ⟨by rw [value], fun h0 => absurd rfl h0, fun _ h0 => absurd rfl h0⟩⟩,
    (regsKeptE.of_regs regs).of_evtOnly evt, fun h0 => absurd rfl h0, .of_evtOnly (parts.mono (by decide)) evt⟩

/-- The log's overflow is counted, where the memory has the counter. -/
def dropCounted (m : Nat) (x : State) : State := if m < 16 then memCount m (F.MEMCHK_LOG_DROPPED_COUNT m) 1 x else x

theorem dropCounted_spec (h0 : m ≠ 0) (x : State) :
    (m < 16 → memCounted m F.MEMCHK_LOG_DROPPED_COUNT F.MEMCHK_LOG_DROPPED_COUNT x (dropCounted m x)) ∧
      regsKept (fun a => m < 16 ∧ a = Reg.MEMCHK_LOG_DROPPED m) x (dropCounted m x) ∧ changesOnly [.regs] x (dropCounted m x) := by
  by_cases h : m < 16
  · have heq : dropCounted m x = addF (F.MEMCHK_LOG_DROPPED_COUNT m) 1 x := (if_pos h).trans (if_neg h0)
    rw [heq]
    refine ⟨fun _ => ?_, .addF (.refl x) _ _ ⟨h, rfl⟩, .addF (.refl _ x) _ _⟩
    have field : mF m F.MEMCHK_LOG_DROPPED_COUNT F.MEMCHK_LOG_DROPPED_COUNT = F.MEMCHK_LOG_DROPPED_COUNT m := if_pos h
    rw [memCounted, field]
    exact getF_addF_word ..
  · have heq : dropCounted m x = x := if_neg h
    rw [heq]
    exact ⟨fun h' => absurd h' h, .refl x, .refl _ x⟩

theorem dropped_quiet (h : hasRegs m = true) : quietReg (Reg.MEMCHK_LOG_DROPPED m) = true := by
  have hm := hasRegs_cases h
  refine decide_eq_true ?_
  simp only [Reg.MEMCHK_LOG_DROPPED]
  omega

theorem cause_ne_dropped (h : m < 16) : causeReg m ≠ Reg.MEMCHK_LOG_DROPPED m := by
  rw [causeReg, memAddr, if_pos h]
  simp only [Reg.MEMCHK_LOG_DROPPED]
  omega

theorem memLogged_full (hm : hasRegs m = true) (h : 16 ≤ (getMem s m).log.length) (hl : replaceCe e (getMem s m).log = none) :
    MemLogged m e s (memCause m 5 (dropCounted m (noTaken s))) := by
  obtain ⟨ch, regs, parts⟩ := noTaken_spec m s
  have no := replaceCe_none hl
  generalize noTaken s = x at *
  have h0 := hasRegs_ne_zero hm
  obtain ⟨count, kept, parts1⟩ := dropCounted_spec h0 x
  have mems1 : (dropCounted m x).mems = x.mems := parts1.mems_eq
  generalize dropCounted m x = y at *
  have told := caused_memCause hm (by decide : 5 < 32) y
  generalize memCause m 5 y = t at *
  have value : getMem t m = getMem s m := (getMem_congr (told.parts.mems_eq.trans mems1) m).trans ch
  refine ⟨by rw [value], fun h' => absurd h (Nat.not_le.mpr h'), fun _ _ => ⟨fun y hy _ => by rwa [value],
    fun ⟨y, hy, hk⟩ => absurd hk (no y hy), fun _ => ⟨by rw [value], fun _ => memCaused_iff.mpr told.set, fun h16 _ => ?_⟩⟩,
    ?_, fun _ b hb => (told.others b hb).trans ((kept.getF ?_).trans (getF_congr _ regs)), ?_⟩
  · have field : mF m F.MEMCHK_LOG_DROPPED_COUNT F.MEMCHK_LOG_DROPPED_COUNT = F.MEMCHK_LOG_DROPPED_COUNT m := if_pos h16
    have counted := count h16
    rw [memCounted, field] at counted ⊢
    rw [told.kept.getF (cause_ne_dropped h16).symm (dropped_quiet hm), counted, getF_congr _ regs]
  · intro a ha he
    rw [told.kept a (fun h => ha ⟨h0, .inl h⟩) he, kept a (fun h => ha ⟨h0, .inr h⟩), rd_congr regs]
  · exact fun ⟨h16, h⟩ => cause_ne_dropped h16 h
  · exact ((parts.mono (by decide)).trans (parts1.mono (by decide))).trans (told.parts.mono (by decide))

theorem memLogged_memLog (hm : isMem m = true) (word syn kind : Nat) (src : ErrSource) (s : State) :
    MemLogged m (memEntry s word syn kind src) s (memLog m word syn kind src s) := by
  rw [memLog_eq]
  generalize memEntry s word syn kind src = e
  by_cases h : (getMem s m).log.length < 16
  · rw [if_pos h]
    exact memLogged_room h e
  · rw [if_neg h]
    split
    · next l hl => exact memLogged_replaced (Nat.le_of_not_lt h) hl
    · next hl =>
      by_cases h0 : m = 0
      · subst h0
        exact memLogged_full_zero (Nat.le_of_not_lt h) hl
      · exact memLogged_full (hasRegs_of_isMem hm h0) (Nat.le_of_not_lt h) hl

end Sys2Proof.Machine
end

/-! ## Correctable words: the bucket, hard errors and remapping (R396, R398, R399) -/

section

-- One proof after another: elaborated side by side, the proofs of this text take more memory than its check allows.
set_option Elab.async false

namespace Sys2Proof.Machine

variable {s t u x : State} {m word syn n : Nat}

/-! ### The leaky bucket -/

/-- The register of a memory's bucket. -/
def bucketReg (m : Nat) : Nat := memAddr m 0x0C 0x110

theorem bucketLevel_eq (m : Nat) : mF m F.MEMCHK_BUCKET_LEVEL F.MAPMEM_BUCKET_LEVEL = ⟨bucketReg m, 16, 8⟩ :=
  mF_mk m (fun _ => address_offset rfl) (fun _ => address_offset rfl)

theorem bucketDepth_eq (m : Nat) : mF m F.MEMCHK_BUCKET_DEPTH F.MAPMEM_BUCKET_DEPTH = ⟨bucketReg m, 0, 8⟩ :=
  mF_mk m (fun _ => address_offset rfl) (fun _ => address_offset rfl)

theorem bucket_ne_cause (m : Nat) : bucketReg m ≠ causeReg m := memAddr_ne (by decide) (by decide) m

/-- What a correctable error leaves of a bucket. -/
structure BucketFilled (m : Nat) (s t : State) : Prop where
  below : getF s ⟨bucketReg m, 16, 8⟩ < getF s ⟨bucketReg m, 0, 8⟩ → getF t ⟨bucketReg m, 16, 8⟩ = getF s ⟨bucketReg m, 16, 8⟩ + 1
  full : getF s ⟨bucketReg m, 0, 8⟩ ≤ getF s ⟨bucketReg m, 16, 8⟩ → getF t ⟨bucketReg m, 16, 8⟩ = 0 ∧ memCaused m 0 t
  regs : regsKeptE (fun a => a = bucketReg m ∨ a = causeReg m) s t
  causes : ∀ b, b ≠ 0 → getF t (bitF (causeReg m) b) = getF s (bitF (causeReg m) b)
  parts : changesOnly eventParts s t

theorem levelSet_spec (m n : Nat) (s : State) :
    getF (setF ⟨bucketReg m, 16, 8⟩ n s) ⟨bucketReg m, 16, 8⟩ = n % 256 ∧
      regsKept (· = bucketReg m) s (setF ⟨bucketReg m, 16, 8⟩ n s) ∧ changesOnly [.regs] s (setF ⟨bucketReg m, 16, 8⟩ n s) :=
  ⟨getF_setF_same ⟨bucketReg m, 16, 8⟩ _ _ (by simp [Fld.ok]), .setF (.refl s) _ _ rfl, .setF (.refl _ s) _ _⟩

theorem bucketFilled (hm : hasRegs m = true) (s : State) : BucketFilled m s (bucketUp m s) := by
  have hq : quietReg (bucketReg m) = true := memAddr_quiet hm (by decide) (by decide)
  have deep : getF s ⟨bucketReg m, 0, 8⟩ < 256 := getF_lt ..
  unfold bucketUp
  rw [if_neg (hasRegs_ne_zero hm), bucketLevel_eq, bucketDepth_eq]
  dsimp only
  by_cases h : getF s ⟨bucketReg m, 0, 8⟩ < getF s ⟨bucketReg m, 16, 8⟩ + 1
  · rw [if_pos h]
    obtain ⟨level, kept, parts⟩ := levelSet_spec m 0 s
    generalize setF ⟨bucketReg m, 16, 8⟩ 0 s = x at *
    have told := caused_memCause hm (by decide : 0 < 32) x
    refine ⟨fun h' => by omega, fun _ => ⟨(told.kept.getF (bucket_ne_cause m) hq).trans level, memCaused_iff.mpr told.set⟩,
      fun a ha he => (told.kept a (fun h => ha (.inr h)) he).trans (kept a fun h => ha (.inl h)),
      fun b hb => (told.others b hb).trans (kept.getF (bucket_ne_cause m).symm), (parts.mono (by decide)).trans told.parts⟩
  · rw [if_neg h]
    obtain ⟨level, kept, parts⟩ := levelSet_spec m (getF s ⟨bucketReg m, 16, 8⟩ + 1) s
    exact ⟨fun h' => level.trans (Nat.mod_eq_of_lt (by omega)), fun h' => by omega, (kept.mono fun _ h => .inl h).toE,
      fun b _ => kept.getF (bucket_ne_cause m).symm, parts.mono (by decide)⟩

/-- Memory 0's bucket, which has no register. -/
theorem bucketUp_zero (s : State) :
    (getMem (bucketUp 0 s) 0).level = (if 16 ≤ (getMem s 0).level then 0 else (getMem s 0).level + 1) ∧
      (getMem (bucketUp 0 s) 0).log = (getMem s 0).log ∧
      (16 ≤ (getMem s 0).level → raised baseMemchk 0 (bucketUp 0 s) = true) ∧ regsKeptE (fun _ => False) s (bucketUp 0 s) ∧
      changesOnly (.mems :: eventParts) s (bucketUp 0 s) := by
  by_cases h : 16 ≤ (getMem s 0).level
  · have heq : bucketUp 0 s = memCause 0 0 (setMem 0 { getMem s 0 with level := 0 } s) := (if_pos rfl).trans (if_pos (by omega))
    rw [heq, memCause_zero, if_pos h]
    obtain ⟨value, regs, -, parts⟩ := setMem_spec 0 { getMem s 0 with level := 0 } s
    generalize setMem 0 { getMem s 0 with level := 0 } s = x at *
    have evt := evtOnly_memchk x
    have same : getMem (happen baseMemchk 0 x) 0 = { getMem s 0 with level := 0 } := (getMem_congr evt.1.mems_eq 0).trans value
    exact ⟨by rw [same], by rw [same], fun _ => raised_memchk x, (regsKeptE.of_regs regs).of_evtOnly evt, .of_evtOnly (parts.mono (by decide)) evt⟩
  · have heq : bucketUp 0 s = setMem 0 { getMem s 0 with level := (getMem s 0).level + 1 } s := (if_pos rfl).trans (if_neg (by omega))
    rw [heq, if_neg h]
    obtain ⟨value, regs, -, parts⟩ := setMem_spec 0 { getMem s 0 with level := (getMem s 0).level + 1 } s
    exact ⟨by rw [value], by rw [value], fun h' => absurd h' h, .of_regs regs, parts.mono (by decide)⟩

/-! ### The recorder's memory (R465) -/

/-- The recorder's ring as the sticky cells have it, and the cell that failed. -/
def ringFailed (word : Nat) (x : State) : State :=
  setF F.REC_STATUS_MEM_FAILED 1 { x with recd := { x.recd with ring := x.recd.sticky, failCell := some (word, x.beat.count) } }

theorem ringFailed_spec (word : Nat) (x : State) :
    isSet (ringFailed word x) F.REC_STATUS_MEM_FAILED = true ∧ regsKept (· = Reg.REC_STATUS) x (ringFailed word x) ∧
      changesOnly [.regs, .recd] x (ringFailed word x) := by
  refine ⟨?_, ?_, .setF (.recd (.refl _ x)) _ _⟩
  · rw [isSet, ringFailed, getF_setF_same _ _ _ (by unfold Fld.ok; decide)]
    rfl
  · exact .setF (.of_regs rfl) _ _ rfl

theorem recorderFailed_of_not (h : isSet s F.REC_STATUS_MEM_FAILED = false) (word : Nat) : recorderFailed word false s =
    happen baseRec 3 (request 219 4 false false (leBytes 4 word ++ leBytes 8 s.beat.count.toNat ++ leBytes 4 0) (ringFailed word s)) :=
  if_neg (by rw [h]; decide)

theorem recorderFailed_spec (word : Nat) (s : State) :
    (isSet s F.REC_STATUS_MEM_FAILED = false →
      isSet (recorderFailed word false s) F.REC_STATUS_MEM_FAILED = true ∧ raised baseRec 3 (recorderFailed word false s) = true) ∧
      regsKeptE (· = Reg.REC_STATUS) s (recorderFailed word false s) ∧ changesOnly eventParts s (recorderFailed word false s) := by
  cases h : isSet s F.REC_STATUS_MEM_FAILED with
  | true =>
    have heq : recorderFailed word false s = s := if_pos h
    rw [heq]
    exact ⟨fun h' => (nomatch h'), .refl s, .refl _ s⟩
  | false =>
    rw [recorderFailed_of_not h]
    obtain ⟨failed, kept, parts⟩ := ringFailed_spec word s
    generalize ringFailed word s = x at *
    have evt := evtOnly_request 219 4 false false (leBytes 4 word ++ leBytes 8 s.beat.count.toNat ++ leBytes 4 0) x
    generalize request 219 4 false false (leBytes 4 word ++ leBytes 8 s.beat.count.toNat ++ leBytes 4 0) x = y at *
    have evt' := evtOnly_happen baseRec 3 y (by decide) (by decide)
    have told := raised_happen baseRec 3 y (by decide) (by decide) (by decide) (by decide)
    refine ⟨fun _ => ⟨?_, told⟩, (kept.toE.of_evtOnly evt).of_evtOnly evt', .of_evtOnly (.of_evtOnly (parts.mono (by decide)) evt) evt'⟩
    rw [isSet_of_getF (evt'.getF (not_eventReg_of_quiet (by decide))), isSet_of_getF (evt.getF (not_eventReg_of_quiet (by decide))), failed]

/-! ### Hard errors -/

theorem remapRoom_congr (h : (getMem t m).remaps = (getMem s m).remaps) (g : Nat) : remapRoom t m g = remapRoom s m g := by
  rw [remapRoom, remapRoom, h]

/-- The registers that a remapping changes. -/
def remapRegs (m a : Nat) : Prop := a = causeReg m ∨ (m < 16 ∧ a = Reg.MEMCHK_REMAP_USED m) ∨ (m = 9 ∧ a = Reg.REC_STATUS)

/-- What a word with a hard error leaves. -/
structure Remapped (m word : Nat) (s t : State) : Prop where
  there : (groupOf m word, remapUnit m word) ∈ (getMem s m).remaps → (getMem t m).remaps = (getMem s m).remaps
  spare : (groupOf m word, remapUnit m word) ∉ (getMem s m).remaps → remapRoom s m (groupOf m word) = true →
    (getMem t m).remaps = (getMem s m).remaps ++ [(groupOf m word, remapUnit m word)] ∧ memCaused m 3 t
  full : (groupOf m word, remapUnit m word) ∉ (getMem s m).remaps → remapRoom s m (groupOf m word) = false →
    (getMem t m).remaps = (getMem s m).remaps ∧ memCaused m 4 t
  log : (getMem t m).log = (getMem s m).log
  regs : regsKeptE (remapRegs m) s t
  causes : ∀ b, b ≠ 3 → b ≠ 4 → getF t (bitF (causeReg m) b) = getF s (bitF (causeReg m) b)
  parts : changesOnly (.mems :: eventParts) s t

theorem used_ne_cause (h : m < 16) : Reg.MEMCHK_REMAP_USED m ≠ causeReg m := by
  rw [causeReg, memAddr, if_pos h]
  simp only [Reg.MEMCHK_REMAP_USED]
  omega

theorem rec_ne_cause (m : Nat) : Reg.REC_STATUS ≠ causeReg m := by
  unfold causeReg memAddr
  split <;> simp only [Reg.REC_STATUS] <;> omega

/-- The spares used, where the memory counts them. -/
def usedCounted (m : Nat) (x : State) : State := if m < 16 then addF (F.MEMCHK_REMAP_USED_COUNT m) 1 x else x

theorem usedCounted_spec (m : Nat) (x : State) :
    regsKept (fun a => m < 16 ∧ a = Reg.MEMCHK_REMAP_USED m) x (usedCounted m x) ∧ changesOnly [.regs] x (usedCounted m x) := by
  unfold usedCounted
  split
  · next h => exact ⟨.addF (.refl x) _ _ ⟨h, rfl⟩, .addF (.refl _ x) _ _⟩
  · exact ⟨.refl x, .refl _ x⟩

/-- A word is redirected to a spare, and its errors are found no more. -/
def spared (m word : Nat) (v : MemSt) : MemSt :=
  { v with remaps := v.remaps ++ [(groupOf m word, remapUnit m word)], found := v.found.filter (fun p => p.1 != word) }

theorem remapped_spare (hm : hasRegs m = true) (hno : (groupOf m word, remapUnit m word) ∉ (getMem s m).remaps)
    (hroom : remapRoom s m (groupOf m word) = true) :
    Remapped m word s (memCause m 3 (usedCounted m (setMem m (spared m word (getMem s m)) s))) := by
  obtain ⟨value, regs, -, parts⟩ := setMem_spec m (spared m word (getMem s m)) s
  generalize setMem m (spared m word (getMem s m)) s = x at *
  obtain ⟨kept, parts1⟩ := usedCounted_spec m x
  have mems1 : (usedCounted m x).mems = x.mems := parts1.mems_eq
  generalize usedCounted m x = y at *
  have told := caused_memCause hm (by decide : 3 < 32) y
  generalize memCause m 3 y = t at *
  have same : getMem t m = spared m word (getMem s m) := (getMem_congr (told.parts.mems_eq.trans mems1) m).trans value
  refine ⟨fun h => absurd h hno, fun _ _ => ⟨by rw [same]; rfl, memCaused_iff.mpr told.set⟩, fun _ h => absurd (h.symm.trans hroom) Bool.false_ne_true,
    by rw [same]; rfl, fun a ha he => ?_, fun b hb _ => (told.others b hb).trans ((kept.getF ?_).trans (getF_congr _ regs)),
    ((parts.mono (by decide)).trans (parts1.mono (by decide))).trans (told.parts.mono (by decide))⟩
  · rw [told.kept a (fun h => ha (.inl h)) he, kept a (fun h => ha (.inr (.inl h))), rd_congr regs]
  · exact fun ⟨h16, h⟩ => used_ne_cause h16 h.symm

theorem remapped_full (hm : hasRegs m = true) (hno : (groupOf m word, remapUnit m word) ∉ (getMem s m).remaps)
    (hroom : remapRoom s m (groupOf m word) = false) :
    Remapped m word s (if m = 9 then recorderFailed word false (memCause m 4 s) else memCause m 4 s) := by
  have told := caused_memCause hm (by decide : 4 < 32) s
  generalize memCause m 4 s = x at *
  have hq : quietReg (causeReg m) = true := memAddr_quiet hm (by decide) (by decide)
  have later : ∀ t, regsKeptE (fun a => m = 9 ∧ a = Reg.REC_STATUS) x t → changesOnly eventParts x t → Remapped m word s t := fun t kept parts => by
    have same : getMem t m = getMem s m := getMem_congr (parts.mems_eq.trans told.parts.mems_eq) m
    have cause : ∀ b, getF t (bitF (causeReg m) b) = getF x (bitF (causeReg m) b) := fun b =>
      kept.getF (fun h => rec_ne_cause m h.2.symm) hq
    refine ⟨fun h => absurd h hno, fun _ h => absurd (hroom.symm.trans h) Bool.false_ne_true,
      fun _ _ => ⟨by rw [same], memCaused_iff.mpr ((cause 4).trans told.set)⟩, by rw [same], fun a ha he => ?_,
      fun b _ hb => (cause b).trans (told.others b hb), (told.parts.mono (by decide)).trans (parts.mono (by decide))⟩
    rw [kept a (fun h => ha (.inr (.inr h))) he, told.kept a (fun h => ha (.inl h)) he]
  by_cases h9 : m = 9
  · rw [if_pos h9]
    obtain ⟨-, kept, parts⟩ := recorderFailed_spec word x
    exact later _ (fun a ha he => kept a (fun h => ha ⟨h9, h⟩) he) parts
  · rw [if_neg h9]
    exact later x (.refl x) (.refl _ x)

theorem remap_eq (m word : Nat) (s : State) : remap m word s =
    if (getMem s m).remaps.contains (groupOf m word, remapUnit m word) then s
    else if remapRoom s m (groupOf m word) then memCause m 3 (usedCounted m (setMem m (spared m word (getMem s m)) s))
    else if m = 9 then recorderFailed word false (memCause m 4 s) else memCause m 4 s := rfl

theorem remapped_remap (hm : hasRegs m = true) (word : Nat) (s : State) : Remapped m word s (remap m word s) := by
  rw [remap_eq]
  by_cases h : (groupOf m word, remapUnit m word) ∈ (getMem s m).remaps
  · rw [if_pos (List.contains_iff_mem.mpr h)]
    exact ⟨fun _ => rfl, fun h' => absurd h h', fun h' => absurd h h', rfl, .refl s, fun _ _ _ => rfl, .refl _ s⟩
  · rw [if_neg fun h' => h (List.contains_iff_mem.mp h')]
    cases hroom : remapRoom s m (groupOf m word) with
    | true =>
      rw [if_pos rfl]
      exact remapped_spare hm h hroom
    | false =>
      rw [if_neg Bool.false_ne_true]
      exact remapped_full hm h hroom

/-- What an error found at the same bits leaves. -/
structure FoundNoted (m word syn : Nat) (s t : State) : Prop where
  soft : memHits s m word syn + 1 < hardCount s m ∨ remapOn s m = false ∨ (groupOf m word, remapUnit m word) ∈ (getMem s m).remaps →
    (getMem t m).remaps = (getMem s m).remaps
  hard : hardCount s m ≤ memHits s m word syn + 1 → remapOn s m = true → (groupOf m word, remapUnit m word) ∉ (getMem s m).remaps →
    (remapRoom s m (groupOf m word) = true →
      (getMem t m).remaps = (getMem s m).remaps ++ [(groupOf m word, remapUnit m word)] ∧ memCaused m 3 t) ∧
    (remapRoom s m (groupOf m word) = false → (getMem t m).remaps = (getMem s m).remaps ∧ memCaused m 4 t)
  log : (getMem t m).log = (getMem s m).log
  regs : regsKeptE (remapRegs m) s t
  causes : ∀ b, b ≠ 3 → b ≠ 4 → getF t (bitF (causeReg m) b) = getF s (bitF (causeReg m) b)
  parts : changesOnly (.mems :: eventParts) s t

/-- The errors found with one more. -/
def foundPut (word syn n : Nat) (v : MemSt) : MemSt :=
  { v with found := v.found.filter (fun p => !(decide (p.1 = word) && decide (p.2.1 = syn))) ++ [(word, syn, n)] }

theorem noteFound_eq (m word syn : Nat) (s : State) : noteFound m word syn s =
    if hardCount s m ≤ memHits s m word syn + 1 ∧ remapOn s m = true then
      remap m word (setMem m (foundPut word syn (memHits s m word syn + 1) (getMem s m)) s)
    else setMem m (foundPut word syn (memHits s m word syn + 1) (getMem s m)) s := by
  cases hf : (getMem s m).found.find? (fun p => decide (p.1 = word) && decide (p.2.1 = syn)) with
  | none =>
    simp only [noteFound, memHits, hf]
    rfl
  | some p =>
    simp only [noteFound, memHits, hf]
    rfl

theorem foundNoted (hm : hasRegs m = true) (word syn : Nat) (s : State) : FoundNoted m word syn s (noteFound m word syn s) := by
  rw [noteFound_eq]
  obtain ⟨value, regs, -, parts⟩ := setMem_spec m (foundPut word syn (memHits s m word syn + 1) (getMem s m)) s
  generalize setMem m (foundPut word syn (memHits s m word syn + 1) (getMem s m)) s = x at *
  have remaps : (getMem x m).remaps = (getMem s m).remaps := by rw [value]; rfl
  have log : (getMem x m).log = (getMem s m).log := by rw [value]; rfl
  by_cases h : hardCount s m ≤ memHits s m word syn + 1 ∧ remapOn s m = true
  · rw [if_pos h]
    have done := remapped_remap hm word x
    generalize remap m word x = t at *
    refine ⟨fun h' => ?_, fun _ _ hno => ⟨fun hroom => ?_, fun hroom => ?_⟩, done.log.trans log, fun a ha he => (done.regs a ha he).trans (rd_congr regs a),
      fun b h3 h4 => (done.causes b h3 h4).trans (getF_congr _ regs), (parts.mono (by decide)).trans done.parts⟩
    · rcases h' with h' | h' | h'
      · omega
      · exact absurd (h'.symm.trans h.2) Bool.false_ne_true
      · rw [done.there (by rwa [remaps]), remaps]
    · rw [← remaps]
      exact done.spare (by rwa [remaps]) (by rw [remapRoom_congr remaps, hroom])
    · rw [← remaps]
      exact done.full (by rwa [remaps]) (by rw [remapRoom_congr remaps, hroom])
  · rw [if_neg h]
    exact ⟨fun _ => remaps, fun h1 h2 => absurd ⟨h1, h2⟩ h, log, .of_regs regs, fun b _ _ => getF_congr _ regs, parts.mono (by decide)⟩

end Sys2Proof.Machine
end

/-! ## Uncorrectable words: what their owners do (R200, R400, R403 to R405) -/

section

-- One proof after another: elaborated side by side, the proofs of this text take more memory than its check allows.
set_option Elab.async false

namespace Sys2Proof.Machine

variable {s t u x : State} {c k l m n word : Nat}

/-! ### A word of the yard (R200) -/

/-- The registers that count what leaves the yard. -/
def yardRegs (a : Nat) : Prop := a = Reg.YARD_SUPERSEDED ∨ a = Reg.MAC_TAGS_FORMED

theorem yardKept_of_parts {ps : List Part} (h : changesOnly ps s t) (hp : .regs ∉ ps := by decide) : regsKeptE yardRegs s t :=
  .of_regs (h.regs_eq hp)

theorem yardKept_supersede (k : Nat) (s : State) : regsKeptE yardRegs s (supersede k s) :=
  .ite (.addF (.of_regs (changesOnly_freeSlot k s).regs_eq) _ _ (.inl rfl)) (.refl s)

theorem yardKept_putEnt (l i : Nat) (e : Ent) (s : State) : regsKeptE yardRegs s (putEnt l i e s) := by
  unfold putEnt
  split
  · exact .refl s
  · dsimp only
    have lined : ∀ y, regsKeptE yardRegs s (setLine l y s) := fun _ => .of_regs rfl
    have counted : ∀ o v, regsKeptE yardRegs s v → regsKeptE yardRegs s (courseIn e (courseOut o v)) := fun o v h =>
      h.trans (yardKept_of_parts ((changesOnly_courseOut o v).trans (changesOnly_courseIn ..)))
    have left : ∀ k v, regsKeptE yardRegs s v → regsKeptE yardRegs s (supersede k v) := fun k v h => h.trans (yardKept_supersede k v)
    exact .ite (left _ _ (.ite (lined _) (counted _ _ (lined _)))) (.ite (lined _) (counted _ _ (lined _)))

theorem regsKeptE.foldl {but : Nat → Prop} {α : Type} {g : State → α → State} {l : List α} (h : regsKeptE but s t)
    (hg : ∀ u, ∀ x ∈ l, regsKeptE but u (g u x)) : regsKeptE but s (l.foldl g t) :=
  List.foldlRecOn (motive := fun u => regsKeptE but s u) l g h fun u hu x hx => hu.trans (hg u x hx)

theorem yardKept_unmapLines (first count : Nat) (s : State) : regsKeptE yardRegs s (unmapLines first count s) := by
  unfold unmapLines
  split
  · exact .refl s
  · refine .foldl (.foldl (.refl s) fun u p _ => .foldl (.refl u) fun v i _ => yardKept_putEnt _ _ _ v) fun u r _ => ?_
    exact .foldl (yardKept_of_parts (changesOnly_journal ..)) fun v p _ => .of_regs (setLine_regs ..)

theorem yardKept_addThousand (key n : Nat) (s : State) : regsKeptE yardRegs s (addThousand key F.MAC_TAGS_FORMED_COUNT n s) := by
  unfold addThousand
  dsimp only
  exact .ite (.addF (.of_regs rfl) _ _ (.inr rfl)) (.of_regs rfl)

theorem changesOnly_countLost (b : Bool) (d : LossEnt) (s : State) : changesOnly [.host] s (countLost b d s) := by
  unfold countLost
  dsimp only
  split
  · exact .ite (.ite (.refl _ s) (.host (.refl _ s))) (.host (.ite (.refl _ s) (.host (.refl _ s))))
  · exact .ite (.refl _ s) (.host (.refl _ s))

theorem changesOnly_lossEntry (nsid slba n kind cause : Nat) (s : State) : changesOnly [.host] s (lossEntry nsid slba n kind cause s) := by
  unfold lossEntry
  dsimp only
  split
  · exact (changesOnly.host (.refl _ s)).trans ((changesOnly_countLost ..).trans (changesOnly_tileAen ..))
  · exact (changesOnly.host (.refl _ s)).trans (changesOnly_tileAen ..)

theorem changesOnly_zoneChanged (nsid z : Nat) (s : State) : changesOnly [.host] s (zoneChanged nsid z s) :=
  (changesOnly.host (.refl _ s)).trans (changesOnly_tileAen ..)

theorem changesOnly_zoneReadOnly (nsid z n cause : Nat) (s : State) : changesOnly [.map, .host] s (zoneReadOnly nsid z n cause s) := by
  unfold zoneReadOnly
  dsimp only
  refine .ite (.refl _ s) (changesOnly.trans ?_ ((changesOnly_lossEntry ..).mono (by decide)))
  exact (changesOnly.map (.refl _ s)).trans ((changesOnly_zoneChanged ..).mono (by decide))

theorem yardKept_zoneOffline (nsid z n cause : Nat) (s : State) : regsKeptE yardRegs s (zoneOffline nsid z n cause s) := by
  have ends : ∀ {y zn}, regsKeptE yardRegs s y →
      regsKeptE yardRegs s (lossEntry nsid (z * zsze s) n 2 cause (zoneChanged nsid z (setZone nsid z zn y))) := fun {y zn} h =>
    h.trans (yardKept_of_parts ((changesOnly.map (t := y) (ps := [.map, .host]) (.refl _ y)).trans
      (((changesOnly_zoneChanged ..).trans (changesOnly_lossEntry ..)).mono (by decide))))
  have unmapped := yardKept_unmapLines (muOf s nsid (z * zsze s)).1 (zcapOf s (width s) / 192) s
  unfold zoneOffline
  dsimp only
  refine ends ?_
  split
  · exact unmapped.trans (yardKept_of_parts (changesOnly_releaseCourse ..))
  · exact unmapped

theorem yardKept_blocksLost (nsid lba n cause : Nat) (s : State) : regsKeptE yardRegs s (blocksLost nsid lba n cause s) := by
  have closed := yardKept_of_parts (changesOnly_zoneReadOnly nsid (lba / zsze s) n cause s)
  unfold blocksLost
  dsimp only
  exact .ite (.ite (closed.trans (yardKept_zoneOffline _ _ _ _ _)) closed) (yardKept_of_parts (changesOnly_lossEntry ..))

/-- An entry in the log of deferred errors, and the loss of the oldest where it is full. -/
def dweLogged (e : LossEnt) (s : State) : State :=
  match (pushLog e s.host.dweLog).2 with
  | some d => countLost false d { s with host := { s.host with dweLog := (pushLog e s.host.dweLog).1, dweSeq := s.host.dweSeq + 1 } }
  | none => { s with host := { s.host with dweLog := (pushLog e s.host.dweLog).1, dweSeq := s.host.dweSeq + 1 } }

theorem changesOnly_dweLogged (e : LossEnt) (s : State) : changesOnly [.host] s (dweLogged e s) := by
  unfold dweLogged
  split
  · exact (changesOnly.host (.refl _ s)).trans (changesOnly_countLost ..)
  · exact .host (.refl _ s)

/-- The port of a tile's function, or port A. -/
def tilePort (s : State) (t : Nat) : Nat :=
  match fnOfTile s t with
  | some fn => portOf s fn
  | none => 0

theorem tilePort_lt (s : State) (t : Nat) : tilePort s t < 2 := by
  unfold tilePort
  split
  · exact portOf_lt ..
  · decide

/-- The entry that a deferred error makes. -/
def dweEntry (nsid lba n cause : Nat) (s : State) : LossEnt :=
  { beat := beatNow s, slba := lba, nlb := n, nsid := nsid, tile := (getNs s nsid).tile, kind := 0, cause := cause
    seq := s.host.dweSeq, outOwn := false, outFn0 := false }

theorem deferredError_eq (nsid lba n cause : Nat) (s : State) : deferredError nsid lba n cause s =
    tileAen (getNs s nsid).tile 7 0x80 0xC0 (happen (baseHost (tilePort s (getNs s nsid).tile)) 5
      (setNs nsid { getNs (dweLogged (dweEntry nsid lba n cause s) s) nsid with dwe := true } (dweLogged (dweEntry nsid lba n cause s) s))) := rfl

theorem yardKept_deferredError (nsid lba n cause : Nat) (s : State) : regsKeptE yardRegs s (deferredError nsid lba n cause s) := by
  rw [deferredError_eq]
  have logged := (changesOnly_dweLogged (dweEntry nsid lba n cause s) s).regs_eq
  have hp := tilePort_lt s (getNs s nsid).tile
  generalize dweLogged (dweEntry nsid lba n cause s) s = x at *
  generalize { getNs x nsid with dwe := true } = v
  have evt := evtOnly_happen (baseHost (tilePort s (getNs s nsid).tile)) 5 (setNs nsid v x) (baseHost_page _).1 (srcOf_baseHost_lt hp (by decide))
  have kept : regsKeptE yardRegs s (setNs nsid v x) := .of_regs ((setNs_regs ..).trans logged)
  exact (kept.of_evtOnly evt).trans (yardKept_of_parts (changesOnly_tileAen ..))

/-- A block that is lost takes a write sequence number and a tag. -/
def lostLaid (k t : Nat) (s : State) : State :=
  tagFormed (setSlot k (putBlk t (lostBlk (nextWseq s).2 (getSlot s k) t (nextWseq s).1) (getSlot (nextWseq s).2 k)) (nextWseq s).2)

theorem yardKept_lostLaid (k t : Nat) (s : State) : regsKeptE yardRegs s (lostLaid k t s) := by
  unfold lostLaid
  generalize putBlk t (lostBlk (nextWseq s).2 (getSlot s k) t (nextWseq s).1) (getSlot (nextWseq s).2 k) = v
  have put : (setSlot k v (nextWseq s).2).regs = s.regs := setSlot_regs k v (nextWseq s).2
  exact (regsKeptE.of_regs put).trans (yardKept_addThousand _ _ _)

theorem yardBlockLost_eq (k t : Nat) (s : State) : yardBlockLost k t s =
    if !present (getSlot s k) t then s
    else if (getSlot s k).acked.getLsbD t then
      deferredError (getSlot s k).nsid ((getSlot s k).lba + t) 1 0x01 (blocksLost (getSlot s k).nsid ((getSlot s k).lba + t) 1 0x01 (lostLaid k t s))
    else blocksLost (getSlot s k).nsid ((getSlot s k).lba + t) 1 0x01 (lostLaid k t s) := rfl

theorem yardKept_yardBlockLost (k t : Nat) (s : State) : regsKeptE yardRegs s (yardBlockLost k t s) := by
  rw [yardBlockLost_eq]
  have laid := (yardKept_lostLaid k t s).trans (yardKept_blocksLost (getSlot s k).nsid ((getSlot s k).lba + t) 1 0x01 _)
  exact .ite (.refl s) (.ite (laid.trans (yardKept_deferredError _ _ _ _ _)) laid)

/-- A lost word of the yard is counted, where its slot holds one. -/
theorem yardWordLost_counts (k t : Nat) (u : State) :
    getF (yardWordLost k t u) F.YARD_UE_COUNT = min (2 ^ 32 - 1) (getF u F.YARD_UE_COUNT + 1) ∨ (getSlot u k).st = .free := by
  have count := getF_addF_word (a := Reg.YARD_UE) 1 u
  unfold yardWordLost
  dsimp only
  generalize addF F.YARD_UE_COUNT 1 u = x at *
  have told : getF (happen baseCourse 5 x) F.YARD_UE_COUNT = getF x F.YARD_UE_COUNT := getF_happen (by decide) (by decide) (by decide)
  generalize happen baseCourse 5 x = y at *
  have counted := told.trans count
  cases (getSlot u k).st with
  | free => exact .inr rfl
  | mortar => exact .inl ((getF_congr _ (setSlot_regs ..)).trans counted)
  | filling => exact .inl (((yardKept_yardBlockLost k t y).getF (by simp [yardRegs]) (by decide)).trans counted)
  | laid => exact .inl (((yardKept_yardBlockLost k t y).getF (by simp [yardRegs]) (by decide)).trans counted)
  | staged => exact .inl (((yardKept_yardBlockLost k t y).getF (by simp [yardRegs]) (by decide)).trans counted)

/-! ### A word of a map-memory channel (R403 to R405) -/

theorem ok_mapState (c : Nat) : (F.MAPMEM_STATUS_STATE c).ok := by simp [Fld.ok]

theorem mapStatus_quiet (c : Nat) : quietReg (Reg.MAPMEM_STATUS c) = true := by
  refine decide_eq_true ?_
  simp only [Reg.MAPMEM_STATUS]
  omega

/-- Restoration begins. -/
theorem beginRestore_spec (x : State) :
    restoring (beginRestore x) = true ∧ regsKept (· = Reg.MAPMEM_RESTORE 0) x (beginRestore x) ∧ changesOnly [.regs] x (beginRestore x) := by
  have kept : regsKept (· = Reg.MAPMEM_RESTORE 0) x (setF (F.MAPMEM_RESTORE_ACTIVE 0) 1 x) := .setF (.refl x) _ _ rfl
  refine ⟨?_, kept.setF _ _ rfl,
    .setF (.setF (.refl _ x) (F.MAPMEM_RESTORE_ACTIVE 0) 1) (F.MAPMEM_RESTORE_STEP 0) 1⟩
  have active : getF (setF (F.MAPMEM_RESTORE_ACTIVE 0) 1 x) (F.MAPMEM_RESTORE_ACTIVE 0) = 1 := getF_setF_same _ _ _ (by unfold Fld.ok; decide)
  have both : getF (beginRestore x) (F.MAPMEM_RESTORE_ACTIVE 0) = 1 :=
    (getF_setF_apart _ _ _ _ (by unfold Fld.ok; decide) (by decide)).trans active
  rw [restoring, isSet, both]
  rfl

/-- The lines of a channel are absent. -/
def channelAbsent (c : Nat) (x : State) : State := { x with mems := { x.mems with absentCh := some c } }

theorem channelAbsent_spec (c : Nat) (x : State) :
    (channelAbsent c x).mems.absentCh = some c ∧ (channelAbsent c x).regs = x.regs ∧ changesOnly [.mems] x (channelAbsent c x) :=
  ⟨rfl, rfl, .mems (.refl _ x)⟩

/-- The degraded layout, without one channel. -/
def laidWithout (c : Nat) (x : State) : State := setF (F.MAPMEM_LAYOUT_DEGRADED_LAYOUT 0) 1 (setF (F.MAPMEM_LAYOUT_LOST 0) c x)

theorem laidWithout_spec (hc : c < 4) (x : State) :
    getF (laidWithout c x) (F.MAPMEM_LAYOUT_LOST 0) = c ∧ degraded (laidWithout c x) = true ∧
      regsKept (· = Reg.MAPMEM_LAYOUT 0) x (laidWithout c x) ∧ changesOnly [.regs] x (laidWithout c x) := by
  have lost : getF (setF (F.MAPMEM_LAYOUT_LOST 0) c x) (F.MAPMEM_LAYOUT_LOST 0) = c :=
    (getF_setF_same _ _ _ (by unfold Fld.ok; decide)).trans (Nat.mod_eq_of_lt hc)
  have kept : regsKept (· = Reg.MAPMEM_LAYOUT 0) x (setF (F.MAPMEM_LAYOUT_LOST 0) c x) := .setF (.refl x) _ _ rfl
  refine ⟨(getF_setF_apart _ _ _ _ (by unfold Fld.ok; decide) (by decide)).trans lost, ?_, kept.setF _ _ rfl,
    .setF (.setF (.refl _ x) (F.MAPMEM_LAYOUT_LOST 0) c) (F.MAPMEM_LAYOUT_DEGRADED_LAYOUT 0) 1⟩
  rw [degraded, isSet, laidWithout, getF_setF_same _ _ _ (by unfold Fld.ok; decide)]
  rfl

/-- A channel's loss is survived in the degraded layout. -/
def lostSurvived (c : Nat) (x : State) : State :=
  beginRestore (laidWithout c (channelAbsent c (setCause F.TOP_MODE_CAUSE_DEG_MAPMEM (happen (baseMapmem c) 1 x))))

/-- A channel's loss is not survived. -/
def lostFatal (c : Nat) (x : State) : State :=
  { fatal (baseMapmem c) 1 x with top := { (fatal (baseMapmem c) 1 x).top with recNext := true } }

theorem mapChannelLost_eq (c : Nat) (s : State) : mapChannelLost c s =
    if getF s (F.MAPMEM_STATUS_STATE c) = 4 then s
    else if isSet s (F.MAPMEM_LAYOUT_DEG_OK 0) && !degraded s then lostSurvived c (setF (F.MAPMEM_STATUS_STATE c) 4 s)
    else lostFatal c (setF (F.MAPMEM_STATUS_STATE c) 4 s) := rfl

/-- The registers of a survived loss. -/
def lossRegs (a : Nat) : Prop := a = Reg.TOP_MODE_CAUSE ∨ a = Reg.MAPMEM_LAYOUT 0 ∨ a = Reg.MAPMEM_RESTORE 0

theorem not_lossRegs (hc : c < 4) : ¬ lossRegs (Reg.MAPMEM_STATUS c) ∧ ¬ lossRegs (Reg.EVT_RAW (baseMapmem c)) := by
  simp only [lossRegs, Reg.MAPMEM_STATUS, Reg.TOP_MODE_CAUSE, Reg.MAPMEM_LAYOUT, Reg.MAPMEM_RESTORE, Reg.EVT_RAW, baseMapmem]
  omega

/-- What a survived loss leaves, of the state after its event. -/
theorem survived_spec (hc : c < 4) (y : State) :
    getF (beginRestore (laidWithout c (channelAbsent c (setCause F.TOP_MODE_CAUSE_DEG_MAPMEM y)))) F.TOP_MODE_CAUSE_DEG_MAPMEM = 1 ∧
      degraded (beginRestore (laidWithout c (channelAbsent c (setCause F.TOP_MODE_CAUSE_DEG_MAPMEM y)))) = true ∧
      getF (beginRestore (laidWithout c (channelAbsent c (setCause F.TOP_MODE_CAUSE_DEG_MAPMEM y)))) (F.MAPMEM_LAYOUT_LOST 0) = c ∧
      restoring (beginRestore (laidWithout c (channelAbsent c (setCause F.TOP_MODE_CAUSE_DEG_MAPMEM y)))) = true ∧
      (beginRestore (laidWithout c (channelAbsent c (setCause F.TOP_MODE_CAUSE_DEG_MAPMEM y)))).mems.absentCh = some c ∧
      regsKept lossRegs y (beginRestore (laidWithout c (channelAbsent c (setCause F.TOP_MODE_CAUSE_DEG_MAPMEM y)))) := by
  have cause : getF (setCause F.TOP_MODE_CAUSE_DEG_MAPMEM y) F.TOP_MODE_CAUSE_DEG_MAPMEM = 1 := getF_setF_same _ _ _ (by unfold Fld.ok; decide)
  have kept0 : regsKept lossRegs y (setCause F.TOP_MODE_CAUSE_DEG_MAPMEM y) := .setF (.refl y) _ _ (.inl rfl)
  generalize setCause F.TOP_MODE_CAUSE_DEG_MAPMEM y = z at *
  obtain ⟨absent, regs, -⟩ := channelAbsent_spec c z
  generalize channelAbsent c z = w at *
  obtain ⟨lost, deg, kept1, parts1⟩ := laidWithout_spec hc w
  have mems1 : (laidWithout c w).mems = w.mems := parts1.mems_eq
  generalize laidWithout c w = v at *
  obtain ⟨active, kept2, parts2⟩ := beginRestore_spec v
  have same : ∀ f : Fld, f.addr = Reg.MAPMEM_LAYOUT 0 → getF (beginRestore v) f = getF v f := fun f hf => kept2.getF (by rw [hf]; decide)
  refine ⟨?_, ?_, (same _ rfl).trans lost, active, ?_, ?_⟩
  · exact (kept2.getF (by decide)).trans ((kept1.getF (by decide)).trans ((getF_congr _ regs).trans cause))
  · rw [degraded, isSet_of_getF (same _ rfl)]
    exact deg
  · rw [parts2.mems_eq, mems1, absent]
  · exact (((kept0.trans (.of_regs regs)).trans (kept1.mono fun _ h => .inr (.inl h))).trans (kept2.mono fun _ h => .inr (.inr h)))

theorem lostSurvived_spec (hc : c < 4) (x : State) :
    getF (lostSurvived c x) (F.MAPMEM_STATUS_STATE c) = getF x (F.MAPMEM_STATUS_STATE c) ∧ raised (baseMapmem c) 1 (lostSurvived c x) = true ∧
      getF (lostSurvived c x) F.TOP_MODE_CAUSE_DEG_MAPMEM = 1 ∧ degraded (lostSurvived c x) = true ∧
      getF (lostSurvived c x) (F.MAPMEM_LAYOUT_LOST 0) = c ∧ restoring (lostSurvived c x) = true ∧
      (lostSurvived c x).mems.absentCh = some c := by
  obtain ⟨hpage, hne⟩ := baseMapmem_page c
  have hsrc := srcOf_baseMapmem_lt hc (i := 1) (by decide)
  have state : getF (happen (baseMapmem c) 1 x) (F.MAPMEM_STATUS_STATE c) = getF x (F.MAPMEM_STATUS_STATE c) :=
    getF_happen (mapStatus_quiet c) hpage hsrc
  have told := raised_happen (baseMapmem c) 1 x hsrc hpage hne (by decide)
  unfold lostSurvived
  generalize happen (baseMapmem c) 1 x = y at *
  obtain ⟨cause, deg, lost, active, absent, kept⟩ := survived_spec hc y
  obtain ⟨hstat, hraw⟩ := not_lossRegs hc
  exact ⟨(kept.getF hstat).trans state, (raised_of_rd (kept _ hraw)).trans told, cause, deg, lost, active, absent⟩

theorem lostFatal_spec (hc : c < 4) (x : State) :
    getF (lostFatal c x) (F.MAPMEM_STATUS_STATE c) = getF x (F.MAPMEM_STATUS_STATE c) ∧ raised (baseMapmem c) 1 (lostFatal c x) = true ∧
      (lostFatal c x).top.recNext = true := by
  obtain ⟨hpage, hne⟩ := baseMapmem_page c
  obtain ⟨-, kept, -, told, -⟩ := fatal_spec x hpage hne (i := 1) (by decide) (srcOf_baseMapmem_lt hc (by decide))
  have state := kept.getF (f := F.MAPMEM_STATUS_STATE c) (fun h => h) (mapStatus_quiet c)
  unfold lostFatal
  generalize fatal (baseMapmem c) 1 x = y at *
  exact ⟨(getF_congr (s := y) _).trans state, (raised_of_rd (s := y) rfl).trans told, rfl⟩

/-- What the loss of a channel leaves. -/
structure ChannelLost (c : Nat) (s t : State) : Prop where
  state : getF t (F.MAPMEM_STATUS_STATE c) = 4
  told : raised (baseMapmem c) 1 t = true
  survived : isSet s (F.MAPMEM_LAYOUT_DEG_OK 0) = true → degraded s = false →
    getF t F.TOP_MODE_CAUSE_DEG_MAPMEM = 1 ∧ degraded t = true ∧ getF t (F.MAPMEM_LAYOUT_LOST 0) = c ∧ restoring t = true ∧
      t.mems.absentCh = some c
  fatal : isSet s (F.MAPMEM_LAYOUT_DEG_OK 0) = false ∨ degraded s = true → t.top.recNext = true

theorem channelLost (hc : c < 4) (h : getF s (F.MAPMEM_STATUS_STATE c) ≠ 4) : ChannelLost c s (mapChannelLost c s) := by
  rw [mapChannelLost_eq, if_neg h]
  have state : getF (setF (F.MAPMEM_STATUS_STATE c) 4 s) (F.MAPMEM_STATUS_STATE c) = 4 := getF_setF_same _ _ _ (ok_mapState c)
  generalize setF (F.MAPMEM_STATUS_STATE c) 4 s = x at *
  by_cases hdeg : (isSet s (F.MAPMEM_LAYOUT_DEG_OK 0) && !degraded s) = true
  · rw [if_pos hdeg]
    obtain ⟨same, told, rest⟩ := lostSurvived_spec hc x
    refine ⟨same.trans state, told, fun _ _ => rest, fun h' => ?_⟩
    rw [Bool.and_eq_true, Bool.not_eq_true'] at hdeg
    rcases h' with h' | h'
    · exact absurd (h'.symm.trans hdeg.1) Bool.false_ne_true
    · exact absurd (hdeg.2.symm.trans h') Bool.false_ne_true
  · rw [if_neg hdeg]
    obtain ⟨same, told, next⟩ := lostFatal_spec hc x
    exact ⟨same.trans state, told, fun h1 h2 => absurd (by rw [h1, h2]; rfl) hdeg, fun _ => next⟩

/-- The words lost in a frame are counted. -/
def ueCounted (c : Nat) (s : State) : State :=
  { s with mems := { s.mems with ueFrame := tset zeroT c (tget zeroT s.mems.ueFrame c + 1) s.mems.ueFrame } }

theorem ueCounted_spec (c : Nat) (s : State) : (ueCounted c s).regs = s.regs ∧ changesOnly [.mems] s (ueCounted c s) := ⟨rfl, .mems (.refl _ s)⟩

/-- A line is absent until it is restored. -/
def lineLost (l : Nat) (x : State) : State := { x with mems := { x.mems with absentLines := insertNat l x.mems.absentLines } }

theorem lineLost_spec (l : Nat) (x : State) : l ∈ (lineLost l x).mems.absentLines ∧ changesOnly [.mems] x (lineLost l x) :=
  ⟨(mem_insertNat ..).mpr (.inl rfl), .mems (.refl _ x)⟩

theorem mapWordLost_of_limit (h : getNZ s (F.MAPMEM_LOSS_CFG_UE_LIMIT 0) ≤ tget (fun _ => 0) s.mems.ueFrame c + 1) :
    mapWordLost c word s = mapChannelLost c (ueCounted c s) := if_pos h

theorem mapWordLost_of_line (h : tget (fun _ => 0) s.mems.ueFrame c + 1 < getNZ s (F.MAPMEM_LOSS_CFG_UE_LIMIT 0))
    (hl : mapWord s c word = .line l) : mapWordLost c word s = beginRestore (lineLost l (ueCounted c s)) := by
  refine (if_neg (Nat.not_le.mpr h)).trans ?_
  rw [hl]
  rfl

theorem ownerActs_channel (hc : c < 4) (word : Nat) (s : State) : ownerActs (16 + c) word s = mapWordLost c word s := by
  match c, hc with
  | 0, _ => rfl
  | 1, _ => rfl
  | 2, _ => rfl
  | 3, _ => rfl

theorem channelLost_of_limit (hc : c < 4) (h : getF s (F.MAPMEM_STATUS_STATE c) ≠ 4)
    (hl : getNZ s (F.MAPMEM_LOSS_CFG_UE_LIMIT 0) ≤ tget (fun _ => 0) s.mems.ueFrame c + 1) :
    ChannelLost c s (ownerActs (16 + c) word s) := by
  rw [ownerActs_channel hc, mapWordLost_of_limit hl]
  have regs := (ueCounted_spec c s).1
  generalize ueCounted c s = x at *
  have same : ∀ f : Fld, getF x f = getF s f := fun f => getF_congr f regs
  have lost := channelLost hc (s := x) (by rwa [same])
  have deg : degraded x = degraded s := isSet_of_getF (same _)
  exact ⟨lost.state, lost.told, fun h1 h2 => lost.survived ((isSet_of_getF (same _)).trans h1) (deg.trans h2),
    fun h' => lost.fatal (h'.imp (fun h1 => (isSet_of_getF (same _)).trans h1) (fun h2 => deg.trans h2))⟩

theorem lineLost_of_word (hc : c < 4) (h : tget (fun _ => 0) s.mems.ueFrame c + 1 < getNZ s (F.MAPMEM_LOSS_CFG_UE_LIMIT 0))
    (hl : mapWord s c word = .line l) :
    l ∈ (ownerActs (16 + c) word s).mems.absentLines ∧ restoring (ownerActs (16 + c) word s) = true ∧
      changesOnly [.regs, .mems] s (ownerActs (16 + c) word s) := by
  rw [ownerActs_channel hc, mapWordLost_of_line h hl]
  have parts := (ueCounted_spec c s).2
  generalize ueCounted c s = x at *
  obtain ⟨absent, parts1⟩ := lineLost_spec l x
  generalize lineLost l x = y at *
  obtain ⟨active, -, parts2⟩ := beginRestore_spec y
  exact ⟨by rwa [parts2.mems_eq], active, ((parts.trans parts1).mono (by decide)).trans (parts2.mono (by decide))⟩

/-! ### The shadow's entry (R190) -/

theorem shadowUeDo_spec (i : Nat) (s : State) : (getE (shadowUeDo i s) i).valid = false ∧ raised baseSort 1 (shadowUeDo i s) = true := by
  have put : (getE (putE i { getE s i with valid := false } s) i).valid = false := by rw [getE_putE, if_pos rfl]
  unfold shadowUeDo
  generalize putE i { getE s i with valid := false } s = x at *
  have marked : changesOnly [.regs] x (setF F.SORT_STATUS_SHADOW_UE 1 (setF F.SORT_STATUS_DIRTY 1 x)) := .setF (.setF (.refl _ x) _ _) _ _
  generalize setF F.SORT_STATUS_SHADOW_UE 1 (setF F.SORT_STATUS_DIRTY 1 x) = y at *
  have noted := changesOnly_noteErr baseSort 0 i 0 y
  generalize noteErr baseSort 0 i 0 y = z at *
  refine ⟨?_, raised_happen _ _ z (by decide) (by decide) (by decide) (by decide)⟩
  have evt := evtOnly_happen baseSort 1 z (by decide) (by decide)
  rw [getE, evt.1.sort_eq, noted.sort_eq, marked.sort_eq]
  exact put

end Sys2Proof.Machine
end

/-! ## Correctable and uncorrectable words (R391 to R396, R398 to R400) -/

section

-- One proof after another: elaborated side by side, the proofs of this text take more memory than its check allows.
set_option Elab.async false

namespace Sys2Proof.Machine

variable {s t u x : State} {m word syn a b : Nat} {src : ErrSource} {f : Fld}

/-! ### Counters -/

theorem memCounted_iff {chk map : Nat → Fld} (hf : mF m chk map = f) :
    memCounted m chk map s t ↔ getF t f = min (2 ^ f.w - 1) (getF s f + 1) := by rw [memCounted, hf]

theorem ceCount_eq (m : Nat) : mF m F.MEMCHK_CE_COUNT_COUNT F.MAPMEM_CE_COUNT_COUNT = ⟨memAddr m 0x10 0x114, 0, 32⟩ :=
  mF_mk m (fun _ => address_offset rfl) (fun _ => address_offset rfl)

theorem ueCount_eq (m : Nat) : mF m F.MEMCHK_UE_COUNT_COUNT F.MAPMEM_UE_COUNT_COUNT = ⟨memAddr m 0x14 0x118, 0, 32⟩ :=
  mF_mk m (fun _ => address_offset rfl) (fun _ => address_offset rfl)

theorem poisonCount_eq (m : Nat) : mF m F.MEMCHK_POISON_WR_COUNT F.MAPMEM_POISON_WR_COUNT = ⟨memAddr m 0x18 0x11C, 0, 32⟩ :=
  mF_mk m (fun _ => address_offset rfl) (fun _ => address_offset rfl)

theorem memCount_spec (hm : hasRegs m = true) (a : Nat) (s : State) :
    getF (memCount m ⟨a, 0, 32⟩ 1 s) ⟨a, 0, 32⟩ = min (2 ^ 32 - 1) (getF s ⟨a, 0, 32⟩ + 1) ∧
      regsKept (· = a) s (memCount m ⟨a, 0, 32⟩ 1 s) ∧ changesOnly [.regs] s (memCount m ⟨a, 0, 32⟩ 1 s) := by
  rw [memCount, if_neg (hasRegs_ne_zero hm)]
  exact ⟨getF_addF_word .., .addF (.refl s) _ _ rfl, .addF (.refl _ s) _ _⟩

/-! ### Registers apart -/

theorem not_logRegs (ha : a ≠ 0x24) (ha' : a ≠ 0x3C) (hb : b ≠ 0x12C) (m : Nat) : ¬ logRegs m (memAddr m a b) := by
  rintro ⟨-, h | ⟨h16, h⟩⟩
  · exact memAddr_ne ha hb m h
  · rw [memAddr, if_pos h16] at h
    simp only [Reg.MEMCHK_LOG_DROPPED] at h
    omega

theorem not_remapRegs (ha : a ≠ 0x24) (ha' : a ≠ 0x48) (hb : b ≠ 0x12C) (m : Nat) : ¬ remapRegs m (memAddr m a b) := by
  rintro (h | ⟨h16, h⟩ | ⟨h9, h⟩)
  · exact memAddr_ne ha hb m h
  · rw [memAddr, if_pos h16] at h
    simp only [Reg.MEMCHK_REMAP_USED] at h
    omega
  · rw [h9, memAddr, if_pos (by decide)] at h
    simp only [Reg.REC_STATUS] at h
    omega

theorem page_of_logRegs (h : logRegs m a) : memPage m a := by
  obtain ⟨-, rfl | ⟨h16, rfl⟩⟩ := h
  · exact memPage_memAddr m (by decide) (by decide)
  · rw [memPage, if_pos h16]
    simp only [Reg.MEMCHK_LOG_DROPPED]
    omega

theorem page_of_remapRegs (h9 : m ≠ 9) (h : remapRegs m a) : memPage m a := by
  rcases h with rfl | ⟨h16, rfl⟩ | ⟨h, -⟩
  · exact memPage_memAddr m (by decide) (by decide)
  · rw [memPage, if_pos h16]
    simp only [Reg.MEMCHK_REMAP_USED]
    omega
  · exact absurd h h9

theorem dropped_eq (h : m < 16) : Reg.MEMCHK_LOG_DROPPED m = memAddr m 0x3C 0x200 := by
  rw [memAddr, if_pos h]
  exact address_offset rfl

theorem memEntry_congr (hn : t.mems.nextNo = s.mems.nextNo) (hb : t.beat = s.beat) (word syn kind : Nat) (src : ErrSource) :
    memEntry t word syn kind src = memEntry s word syn kind src := by
  unfold memEntry beatNow
  rw [hn, hb]

theorem memHits_congr (h : (getMem t m).found = (getMem s m).found) (word syn : Nat) : memHits t m word syn = memHits s m word syn := by
  rw [memHits, memHits, h]

/-! ### A correctable word -/

/-- The registers that a correctable word changes before its bits are looked for. -/
def ceRegs (m a : Nat) : Prop := a = memAddr m 0x10 0x114 ∨ logRegs m a ∨ a = bucketReg m ∨ a = causeReg m

theorem config_kept (hm : hasRegs m = true) (h : regsKeptE (ceRegs m) s t) :
    hardCount t m = hardCount s m ∧ remapOn t m = remapOn s m := by
  by_cases h16 : m < 16
  · have cfg : Reg.MEMCHK_CFG m = memAddr m 0x04 0x200 := by
      rw [memAddr, if_pos h16]
      exact address_offset rfl
    have same : ∀ f : Fld, f.addr = Reg.MEMCHK_CFG m → getF t f = getF s f := fun f hf => by
      refine h.getF ?_ (by rw [hf, cfg]; exact memAddr_quiet hm (by decide) (by decide))
      rw [hf, cfg]
      rintro (h | h | h | h)
      · exact memAddr_ne (by decide) (by decide) m h
      · exact not_logRegs (by decide) (by decide) (by decide) m h
      · exact memAddr_ne (by decide) (by decide) m h
      · exact memAddr_ne (by decide) (by decide) m h
    rw [hardCount, hardCount, remapOn, remapOn, if_pos h16, if_pos h16, if_pos h16, if_pos h16, getNZ, getNZ, same _ rfl,
      isSet_of_getF (same _ rfl)]
    exact ⟨rfl, rfl⟩
  · rw [hardCount, hardCount, remapOn, remapOn, if_neg h16, if_neg h16, if_neg h16, if_neg h16]
    exact ⟨rfl, rfl⟩

/-- A correctable word counted, logged and in its bucket. -/
structure CeNoted (m : Nat) (e : MemLog) (s t : State) : Prop where
  mem : ∃ l, getMem t m = { getMem s m with log := l }
  room : (getMem s m).log.length < 16 → (getMem t m).log = (getMem s m).log ++ [e]
  fullLog : 16 ≤ (getMem s m).log.length → ((getMem s m).log.map (·.no)).Nodup →
    (∀ x ∈ (getMem s m).log, x.kind ≠ 0 → x ∈ (getMem t m).log) ∧
      ((∃ x ∈ (getMem s m).log, x.kind = 0) → e ∈ (getMem t m).log) ∧
      ((∀ x ∈ (getMem s m).log, x.kind ≠ 0) → (getMem t m).log = (getMem s m).log ∧ memCaused m 5 t ∧
        (m < 16 → memCounted m F.MEMCHK_LOG_DROPPED_COUNT F.MEMCHK_LOG_DROPPED_COUNT s t))
  counted : getF t ⟨memAddr m 0x10 0x114, 0, 32⟩ = min (2 ^ 32 - 1) (getF s ⟨memAddr m 0x10 0x114, 0, 32⟩ + 1)
  below : getF s ⟨bucketReg m, 16, 8⟩ < getF s ⟨bucketReg m, 0, 8⟩ → getF t ⟨bucketReg m, 16, 8⟩ = getF s ⟨bucketReg m, 16, 8⟩ + 1
  full : getF s ⟨bucketReg m, 0, 8⟩ ≤ getF s ⟨bucketReg m, 16, 8⟩ → getF t ⟨bucketReg m, 16, 8⟩ = 0 ∧ memCaused m 0 t
  regs : regsKeptE (ceRegs m) s t
  parts : changesOnly (.mems :: eventParts) s t

theorem ceNoted (hm : hasRegs m = true) (word syn : Nat) (src : ErrSource) (s : State) :
    CeNoted m (memEntry s word syn 0 src) s (bucketUp m (memLog m word syn 0 src (memCount m ⟨memAddr m 0x10 0x114, 0, 32⟩ 1 s))) := by
  have quiet {a b : Nat} (ha : a < 0x100) (hb : 0x100 ≤ b ∧ b < 0x1000) : quietReg (memAddr m a b) = true := memAddr_quiet hm ha hb
  obtain ⟨count, kept0, parts0⟩ := memCount_spec hm (memAddr m 0x10 0x114) s
  generalize memCount m ⟨memAddr m 0x10 0x114, 0, 32⟩ 1 s = x at *
  have logged := memLogged_memLog (isMem_of_hasRegs hm) word syn 0 src x
  rw [memEntry_congr (by rw [parts0.mems_eq]) parts0.beat_eq] at logged
  generalize memLog m word syn 0 src x = y at *
  have filled := bucketFilled hm y
  generalize bucketUp m y = t at *
  have mem0 : getMem x m = getMem s m := getMem_congr parts0.mems_eq m
  have mem2 : getMem t m = getMem y m := getMem_congr filled.parts.mems_eq m
  have level : ∀ f : Fld, f.addr = bucketReg m → getF y f = getF s f := fun f hf => by
    have hq : quietReg f.addr = true := by
      rw [hf]
      exact quiet (by decide) (by decide)
    refine (logged.regs.getF (f := f) ?_ hq).trans (kept0.getF ?_) <;> rw [hf]
    · exact not_logRegs (by decide) (by decide) (by decide) m
    · exact memAddr_ne (by decide) (by decide) m
  obtain ⟨below, full⟩ : _ ∧ _ := ⟨filled.below, filled.full⟩
  rw [level _ rfl, level _ rfl] at below full
  refine ⟨⟨(getMem y m).log, by rw [mem2, logged.kept, mem0]⟩, fun h => ?_, fun h hnd => ?_, ?_, below, full, fun a ha he => ?_,
    (parts0.mono (by decide)).trans (logged.parts.trans (filled.parts.mono (by decide)))⟩
  · rw [mem2, ← mem0]
    exact logged.room (by rwa [mem0])
  · obtain ⟨stays, enters, overflows⟩ := logged.full (by rwa [mem0]) (by rwa [mem0])
    rw [mem0] at stays enters overflows
    rw [mem2]
    refine ⟨stays, enters, fun hno => ?_⟩
    obtain ⟨same, cause, dropped⟩ := overflows hno
    refine ⟨same, memCaused_iff.mpr ((filled.causes 5 (by decide)).trans (memCaused_iff.mp (cause (hasRegs_ne_zero hm)))), fun h16 => ?_⟩
    have field : mF m F.MEMCHK_LOG_DROPPED_COUNT F.MEMCHK_LOG_DROPPED_COUNT = ⟨memAddr m 0x3C 0x200, 0, 32⟩ :=
      (if_pos h16).trans (congrArg (Fld.mk · 0 32) (dropped_eq h16))
    have counted := (memCounted_iff field).mp (dropped h16 (hasRegs_ne_zero hm))
    refine (memCounted_iff field).mpr ((filled.regs.getF (fun h => ?_) (quiet (by decide) (by decide))).trans (counted.trans ?_))
    · exact h.elim (memAddr_ne (by decide) (by decide) m) (memAddr_ne (by decide) (by decide) m)
    · rw [kept0.getF (f := ⟨memAddr m 0x3C 0x200, 0, 32⟩) (memAddr_ne (by decide) (by decide) m)]
  · refine (filled.regs.getF (fun h => ?_) (quiet (by decide) (by decide))).trans
      ((logged.regs.getF (not_logRegs (by decide) (by decide) (by decide) m) (quiet (by decide) (by decide))).trans count)
    exact h.elim (memAddr_ne (by decide) (by decide) m) (memAddr_ne (by decide) (by decide) m)
  · rw [filled.regs a (fun h => ha (.inr (.inr h))) he, logged.regs a (fun h => ha (.inr (.inl h))) he, kept0 a fun h => ha (.inl h)]

/-- What a correctable word leaves of a memory with registers. -/
structure Corrected (m word syn : Nat) (src : ErrSource) (s t : State) : Prop where
  room : (getMem s m).log.length < 16 → (getMem t m).log = (getMem s m).log ++ [memEntry s word syn 0 src]
  fullLog : 16 ≤ (getMem s m).log.length → ((getMem s m).log.map (·.no)).Nodup →
    (∀ x ∈ (getMem s m).log, x.kind ≠ 0 → x ∈ (getMem t m).log) ∧
      ((∃ x ∈ (getMem s m).log, x.kind = 0) → memEntry s word syn 0 src ∈ (getMem t m).log) ∧
      ((∀ x ∈ (getMem s m).log, x.kind ≠ 0) → (getMem t m).log = (getMem s m).log ∧ memCaused m 5 t ∧
        (m < 16 → memCounted m F.MEMCHK_LOG_DROPPED_COUNT F.MEMCHK_LOG_DROPPED_COUNT s t))
  counted : memCounted m F.MEMCHK_CE_COUNT_COUNT F.MAPMEM_CE_COUNT_COUNT s t
  below : getF s ⟨bucketReg m, 16, 8⟩ < getF s ⟨bucketReg m, 0, 8⟩ → getF t ⟨bucketReg m, 16, 8⟩ = getF s ⟨bucketReg m, 16, 8⟩ + 1
  full : getF s ⟨bucketReg m, 0, 8⟩ ≤ getF s ⟨bucketReg m, 16, 8⟩ → getF t ⟨bucketReg m, 16, 8⟩ = 0 ∧ memCaused m 0 t
  soft : memHits s m word syn + 1 < hardCount s m ∨ remapOn s m = false ∨ (groupOf m word, remapUnit m word) ∈ (getMem s m).remaps →
    (getMem t m).remaps = (getMem s m).remaps
  hard : hardCount s m ≤ memHits s m word syn + 1 → remapOn s m = true → (groupOf m word, remapUnit m word) ∉ (getMem s m).remaps →
    (remapRoom s m (groupOf m word) = true →
      (getMem t m).remaps = (getMem s m).remaps ++ [(groupOf m word, remapUnit m word)] ∧ memCaused m 3 t) ∧
    (remapRoom s m (groupOf m word) = false → (getMem t m).remaps = (getMem s m).remaps ∧ memCaused m 4 t)
  page : m ≠ 9 → regsKeptE (memPage m) s t
  parts : changesOnly (.mems :: eventParts) s t

theorem page_of_ceRegs (h : ceRegs m a) : memPage m a := by
  rcases h with rfl | h | rfl | rfl
  · exact memPage_memAddr m (by decide) (by decide)
  · exact page_of_logRegs h
  · exact memPage_memAddr m (by decide) (by decide)
  · exact memPage_memAddr m (by decide) (by decide)

theorem corrected (hm : hasRegs m = true) (word syn : Nat) (src : ErrSource) (s : State) :
    Corrected m word syn src s (correctable m word syn src s) := by
  have form : correctable m word syn src s =
      noteFound m word syn (bucketUp m (memLog m word syn 0 src (memCount m ⟨memAddr m 0x10 0x114, 0, 32⟩ 1 s))) := by
    rw [correctable, isMem_of_hasRegs hm, ceCount_eq]
    exact if_neg (hasRegs_ne_zero hm)
  rw [form]
  have noted := ceNoted hm word syn src s
  generalize bucketUp m (memLog m word syn 0 src (memCount m ⟨memAddr m 0x10 0x114, 0, 32⟩ 1 s)) = x at *
  have found := foundNoted hm word syn x
  generalize noteFound m word syn x = t at *
  obtain ⟨l, hmem⟩ := noted.mem
  have remaps : (getMem x m).remaps = (getMem s m).remaps := by rw [hmem]
  have hits : memHits x m word syn = memHits s m word syn := memHits_congr (by rw [hmem]) word syn
  obtain ⟨hard, on⟩ := config_kept hm noted.regs
  obtain ⟨soft, hardens⟩ : _ ∧ _ := ⟨found.soft, found.hard⟩
  rw [hits, hard, on, remaps] at soft hardens
  rw [remapRoom_congr remaps] at hardens
  have later : ∀ {a b : Nat} (lo w : Nat), a < 0x100 → 0x100 ≤ b ∧ b < 0x1000 → a ≠ 0x24 → a ≠ 0x48 → b ≠ 0x12C →
      getF t ⟨memAddr m a b, lo, w⟩ = getF x ⟨memAddr m a b, lo, w⟩ := fun lo w ha hb h1 h2 h3 =>
    found.regs.getF (not_remapRegs h1 h2 h3 m) (memAddr_quiet hm ha hb)
  have cause : ∀ b, b ≠ 3 → b ≠ 4 → memCaused m b x → memCaused m b t := fun b h3 h4 h =>
    memCaused_iff.mpr ((found.causes b h3 h4).trans (memCaused_iff.mp h))
  have bucket : getF t ⟨bucketReg m, 16, 8⟩ = getF x ⟨bucketReg m, 16, 8⟩ := later 16 8 (by decide) (by decide) (by decide) (by decide) (by decide)
  refine ⟨fun h => found.log.trans (noted.room h), fun h hnd => ?_, ?_, fun h => bucket.trans (noted.below h),
    fun h => ⟨bucket.trans (noted.full h).1, cause 0 (by decide) (by decide) (noted.full h).2⟩, soft, hardens,
    fun h9 a ha he => ?_, noted.parts.trans found.parts⟩
  · obtain ⟨stays, enters, overflows⟩ := noted.fullLog h hnd
    rw [found.log]
    refine ⟨stays, enters, fun hno => ?_⟩
    obtain ⟨same, full, dropped⟩ := overflows hno
    refine ⟨same, cause 5 (by decide) (by decide) full, fun h16 => ?_⟩
    have field : mF m F.MEMCHK_LOG_DROPPED_COUNT F.MEMCHK_LOG_DROPPED_COUNT = ⟨memAddr m 0x3C 0x200, 0, 32⟩ :=
      (if_pos h16).trans (congrArg (Fld.mk · 0 32) (dropped_eq h16))
    exact (memCounted_iff field).mpr ((later 0 32 (by decide) (by decide) (by decide) (by decide) (by decide)).trans
      ((memCounted_iff field).mp (dropped h16)))
  · exact (memCounted_iff (ceCount_eq m)).mpr ((later 0 32 (by decide) (by decide) (by decide) (by decide) (by decide)).trans noted.counted)
  · rw [found.regs a (fun h => ha (page_of_remapRegs h9 h)) he, noted.regs a (fun h => ha (page_of_ceRegs h)) he]

/-- A correctable word of the security island's memory, which has no registers. -/
theorem correctable_zero (word syn : Nat) (src : ErrSource) (s : State) :
    ((getMem s 0).log.length < 16 → (getMem (correctable 0 word syn src s) 0).log = (getMem s 0).log ++ [memEntry s word syn 0 src]) ∧
      (16 ≤ (getMem s 0).log.length → ((getMem s 0).log.map (·.no)).Nodup →
        (∀ x ∈ (getMem s 0).log, x.kind ≠ 0 → x ∈ (getMem (correctable 0 word syn src s) 0).log) ∧
        ((∃ x ∈ (getMem s 0).log, x.kind = 0) → memEntry s word syn 0 src ∈ (getMem (correctable 0 word syn src s) 0).log) ∧
        ((∀ x ∈ (getMem s 0).log, x.kind ≠ 0) → (getMem (correctable 0 word syn src s) 0).log = (getMem s 0).log)) ∧
      (getMem (correctable 0 word syn src s) 0).level = (if 16 ≤ (getMem s 0).level then 0 else (getMem s 0).level + 1) ∧
      (16 ≤ (getMem s 0).level → raised baseMemchk 0 (correctable 0 word syn src s) = true) ∧
      regsKeptE (fun _ => False) s (correctable 0 word syn src s) ∧ changesOnly (.mems :: eventParts) s (correctable 0 word syn src s) := by
  have form : correctable 0 word syn src s = bucketUp 0 (memLog 0 word syn 0 src s) := rfl
  rw [form]
  have logged := memLogged_memLog (m := 0) rfl word syn 0 src s
  generalize memLog 0 word syn 0 src s = x at *
  obtain ⟨level, log, told, kept, parts⟩ := bucketUp_zero x
  have same : (getMem x 0).level = (getMem s 0).level := by rw [logged.kept]
  rw [same] at level told
  refine ⟨fun h => log.trans (logged.room h), fun h hnd => ?_, level, told, ?_, logged.parts.trans parts⟩
  · obtain ⟨stays, enters, overflows⟩ := logged.full h hnd
    rw [log]
    exact ⟨stays, enters, fun hno => (overflows hno).1⟩
  · exact fun a _ he => (kept a (fun h => h) he).trans (logged.regs a (fun h => h.1 rfl) he)

end Sys2Proof.Machine
end

/-! ## Uncorrectable words are poisoned, counted and owned (R200, R391 to R393, R400, R403, R405) -/

section

-- One proof after another: elaborated side by side, the proofs of this text take more memory than its check allows.
set_option Elab.async false

namespace Sys2Proof.Machine

variable {s t u x : State} {m word syn a b : Nat} {src : ErrSource}

/-- What counts a word, logs it and sets a cause. -/
structure WordNoted (m a b bit : Nat) (e : MemLog) (s t : State) : Prop where
  mem : ∃ l, getMem t m = { getMem s m with log := l }
  room : (getMem s m).log.length < 16 → (getMem t m).log = (getMem s m).log ++ [e]
  counted : getF t ⟨memAddr m a b, 0, 32⟩ = min (2 ^ 32 - 1) (getF s ⟨memAddr m a b, 0, 32⟩ + 1)
  caused : memCaused m bit t
  page : regsKeptE (memPage m) s t
  parts : changesOnly (.mems :: eventParts) s t

theorem wordNoted (hm : hasRegs m = true) {bit : Nat} (hbit : bit < 32) (ha : a < 0x24) (hb : 0x100 ≤ b ∧ b < 0x12C)
    (word syn kind : Nat) (src : ErrSource) (s : State) :
    WordNoted m a b bit (memEntry s word syn kind src) s
      (memCause m bit (memLog m word syn kind src (memCount m ⟨memAddr m a b, 0, 32⟩ 1 s))) := by
  have hq : quietReg (memAddr m a b) = true := memAddr_quiet hm (by omega) (by omega)
  obtain ⟨count, kept0, parts0⟩ := memCount_spec hm (memAddr m a b) s
  generalize memCount m ⟨memAddr m a b, 0, 32⟩ 1 s = x at *
  have logged := memLogged_memLog (isMem_of_hasRegs hm) word syn kind src x
  rw [memEntry_congr (by rw [parts0.mems_eq]) parts0.beat_eq] at logged
  generalize memLog m word syn kind src x = y at *
  have told := caused_memCause hm hbit y
  generalize memCause m bit y = t at *
  have mem0 : getMem x m = getMem s m := getMem_congr parts0.mems_eq m
  have mem2 : getMem t m = getMem y m := getMem_congr told.parts.mems_eq m
  refine ⟨⟨(getMem y m).log, by rw [mem2, logged.kept, mem0]⟩, fun h => ?_, ?_, memCaused_iff.mpr told.set, fun c hc he => ?_,
    (parts0.mono (by decide)).trans (logged.parts.trans (told.parts.mono (by decide)))⟩
  · rw [mem2, ← mem0]
    exact logged.room (by rwa [mem0])
  · refine (told.kept.getF (memAddr_ne (by omega) (by omega) m) hq).trans ((logged.regs.getF (not_logRegs ?_ ?_ ?_ m) hq).trans count) <;> omega
  · have notCause : c ≠ causeReg m := fun h => hc (h ▸ memPage_memAddr m (by decide) (by decide))
    have notCount : c ≠ memAddr m a b := fun h => hc (h ▸ memPage_memAddr m (by omega) (by omega))
    rw [told.kept c notCause he, logged.regs c (fun h => hc (page_of_logRegs h)) he, kept0 c notCount]

/-- A word is poisoned. -/
def wordPoisoned (m word : Nat) (s : State) : State := setMem m { getMem s m with poisoned := insertNat word (getMem s m).poisoned } s

theorem wordPoisoned_spec (m word : Nat) (s : State) :
    getMem (wordPoisoned m word s) m = { getMem s m with poisoned := insertNat word (getMem s m).poisoned } ∧
      (wordPoisoned m word s).regs = s.regs ∧ (wordPoisoned m word s).mems.nextNo = s.mems.nextNo ∧
      changesOnly [.mems] s (wordPoisoned m word s) := by
  obtain ⟨value, regs, -, parts⟩ := setMem_spec m { getMem s m with poisoned := insertNat word (getMem s m).poisoned } s
  exact ⟨value, regs, rfl, parts⟩

/-- What an uncorrectable word found for the first time leaves before its owner acts. -/
def ueNoted (m word syn : Nat) (src : ErrSource) (s : State) : State :=
  memCause m 1 (memLog m word syn 1 src (memCount m ⟨memAddr m 0x14 0x118, 0, 32⟩ 1 (wordPoisoned m word s)))

theorem newUe_eq (m word syn : Nat) (src : ErrSource) (s : State) : newUe m word syn src s = ownerActs m word (ueNoted m word syn src s) := by
  rw [newUe, ueCount_eq]
  rfl

theorem ueNoted_spec (hm : hasRegs m = true) (word syn : Nat) (src : ErrSource) (s : State) :
    (getMem (ueNoted m word syn src s) m).poisoned = insertNat word (getMem s m).poisoned ∧
      memCounted m F.MEMCHK_UE_COUNT_COUNT F.MAPMEM_UE_COUNT_COUNT s (ueNoted m word syn src s) ∧ memCaused m 1 (ueNoted m word syn src s) ∧
      ((getMem s m).log.length < 16 → (getMem (ueNoted m word syn src s) m).log = (getMem s m).log ++ [memEntry s word syn 1 src]) ∧
      regsKeptE (memPage m) s (ueNoted m word syn src s) ∧ changesOnly (.mems :: eventParts) s (ueNoted m word syn src s) := by
  unfold ueNoted
  obtain ⟨value, regs, no, parts⟩ := wordPoisoned_spec m word s
  have beat := parts.beat_eq
  generalize wordPoisoned m word s = x at *
  have noted := wordNoted hm (by decide : 1 < 32) (by decide : 0x14 < 0x24) (by decide : 0x100 ≤ 0x118 ∧ 0x118 < 0x12C) word syn 1 src x
  rw [memEntry_congr no beat] at noted
  obtain ⟨l, hmem⟩ := noted.mem
  have log : (getMem x m).log = (getMem s m).log := by rw [value]
  refine ⟨by rw [hmem, value], (memCounted_iff (ueCount_eq m)).mpr (noted.counted.trans (by rw [getF_congr _ regs])), noted.caused, fun h => ?_,
    (regsKeptE.of_regs regs).trans noted.page, (parts.mono (by decide)).trans noted.parts⟩
  rw [noted.room (by rwa [log]), log]

/-- The state that the access acts on: as it was where the word was poisoned already. -/
def ueFound (m word syn : Nat) (src : ErrSource) (old : Bool) (s : State) : State :=
  if old then s else newUe m word syn src s

/-- A narrower write over a poisoned word. -/
def poisonWritten (m word syn : Nat) (v : State) : State :=
  memCause m 2 (memLog m word syn 2 .merge (memCount m ⟨memAddr m 0x18 0x11C, 0, 32⟩ 1 v))

theorem uncorrectable_eq (hm : hasRegs m = true) (word syn : Nat) (src : ErrSource) (write posted poisoned : Bool) (s : State) :
    uncorrectable m word syn src write posted poisoned s =
      if write then
        if posted then poisonWritten m word syn (ueFound m word syn src (poisoned || (getMem s m).poisoned.contains word) s)
        else emit .busError (poisonWritten m word syn (ueFound m word syn src (poisoned || (getMem s m).poisoned.contains word) s))
      else if src = .scrub then ueFound m word syn src (poisoned || (getMem s m).poisoned.contains word) s
      else emit .busError (addF F.FAB_POISON_CPL_COUNT 1 (ueFound m word syn src (poisoned || (getMem s m).poisoned.contains word) s)) := by
  rw [uncorrectable, isMem_of_hasRegs hm, poisonCount_eq]
  rfl

theorem poisonWritten_spec (hm : hasRegs m = true) (word syn : Nat) (v : State) :
    memCounted m F.MEMCHK_POISON_WR_COUNT F.MAPMEM_POISON_WR_COUNT v (poisonWritten m word syn v) ∧ memCaused m 2 (poisonWritten m word syn v) ∧
      regsKeptE (memPage m) v (poisonWritten m word syn v) ∧ changesOnly (.mems :: eventParts) v (poisonWritten m word syn v) := by
  have noted := wordNoted hm (by decide : 2 < 32) (by decide : 0x18 < 0x24) (by decide : 0x100 ≤ 0x11C ∧ 0x11C < 0x12C) word syn 2 .merge v
  exact ⟨(memCounted_iff (poisonCount_eq m)).mpr noted.counted, noted.caused, noted.page, noted.parts⟩

/-- A bus error is emitted. -/
theorem busError_spec (x : State) :
    (emit .busError x).out = .busError :: x.out ∧ (emit .busError x).regs = x.regs ∧ changesOnly [.out] x (emit .busError x) :=
  ⟨rfl, rfl, .emit (.refl _ x) _⟩

theorem memCaused_congr (h : t.regs = s.regs) {bit : Nat} (hc : memCaused m bit s) : memCaused m bit t :=
  (getF_congr _ h).trans hc

theorem memCounted_congr (h : u.regs = t.regs) {chk map : Nat → Fld} (hc : memCounted m chk map s t) : memCounted m chk map s u :=
  (getF_congr _ h).trans hc

theorem fabCounted_spec (v : State) :
    getF (addF F.FAB_POISON_CPL_COUNT 1 v) F.FAB_POISON_CPL_COUNT = min (2 ^ 32 - 1) (getF v F.FAB_POISON_CPL_COUNT + 1) ∧
      regsKept (· = Reg.FAB_POISON_CPL) v (addF F.FAB_POISON_CPL_COUNT 1 v) ∧ changesOnly [.regs] v (addF F.FAB_POISON_CPL_COUNT 1 v) :=
  ⟨getF_addF_word .., .addF (.refl v) _ _ rfl, .addF (.refl _ v) _ _⟩

theorem planLost_invalid (p : PlanUnit) (b : Nat) (s : State) : (getBuf (planLost p b s) p b).invalid = true := by
  rw [planLost, getBuf_setBuf]

/-- Settles O54: correctable words by `corrected`, uncorrectable ones by `ueNoted_spec`, owners one by one. -/
theorem memoryErrorsAreCountedAndOwned : Obligations.MemoryErrorsAreCountedAndOwned := by
  unfold Obligations.MemoryErrorsAreCountedAndOwned
  refine ⟨fun s m word syn src => ⟨?noMem, ?log, ?fullLog, ?zero, ?counts⟩, ?noWord, ?found, fun u word => ⟨?quiet, ?yard, ?plan, ?shadow, ?recorder,
    ?others, ?noPlan, ?channel⟩⟩
  case noMem => exact fun h => congrArg Host.Outcome.next (if_pos (by rw [h]; rfl))
  case log =>
    intro hm hlen
    refine ⟨_, rfl, ?_⟩
    by_cases h0 : m = 0
    · subst h0
      exact (correctable_zero word syn src s).1 hlen
    · exact (corrected (hasRegs_of_isMem hm h0) word syn src s).room hlen
  case fullLog =>
    intro hm hlen hnd
    refine ⟨_, rfl, ?_⟩
    by_cases h0 : m = 0
    · subst h0
      obtain ⟨stays, enters, overflows⟩ := (correctable_zero word syn src s).2.1 hlen hnd
      exact ⟨stays, enters, fun hno => ⟨overflows hno, fun h => absurd rfl h, fun _ h => absurd rfl h⟩⟩
    · obtain ⟨stays, enters, overflows⟩ := (corrected (hasRegs_of_isMem hm h0) word syn src s).fullLog hlen hnd
      exact ⟨stays, enters, fun hno => ⟨(overflows hno).1, fun _ => (overflows hno).2.1, fun h16 _ => (overflows hno).2.2 h16⟩⟩
  case zero =>
    rintro rfl
    exact ⟨_, rfl, (correctable_zero word syn src s).2.2⟩
  case counts =>
    intro hm
    have done := corrected hm word syn src s
    rw [bucketLevel_eq, bucketDepth_eq]
    exact ⟨_, rfl, done.counted, done.below, done.full, done.soft, done.hard, fun h9 => ⟨done.page h9, done.parts⟩⟩
  case noWord =>
    intro s m word syn src write posted poisoned h
    exact congrArg Host.Outcome.next (if_pos (by rw [h]; rfl))
  case found =>
    intro s m word syn src poisoned old hm hold
    have run (write posted : Bool) : exec (.memoryUncorrectable m word syn src write posted poisoned) s = _ :=
      congrArg Host.Outcome.next (uncorrectable_eq hm word syn src write posted poisoned s)
    rw [← hold] at run
    refine ⟨ueFound m word syn src old s, fun h => by rw [h]; rfl, fun h => ?_, ?_⟩
    · obtain ⟨poisons, counted, cause, room, page, parts⟩ := ueNoted_spec hm word syn src s
      exact ⟨_, poisons, counted, cause, room, page, parts, by rw [h, ← newUe_eq]; rfl⟩
    · generalize ueFound m word syn src old s = v at *
      refine ⟨fun hs posted => ?_, fun hs posted => ?_, fun posted => ?_⟩
      · exact (run false posted).trans (congrArg Host.Outcome.next (if_pos hs))
      · have read := run false posted
        rw [if_neg Bool.false_ne_true, if_neg hs] at read
        obtain ⟨count, kept, parts⟩ := fabCounted_spec v
        generalize addF F.FAB_POISON_CPL_COUNT 1 v = x at *
        obtain ⟨out, regs, told⟩ := busError_spec x
        exact ⟨_, read, out.trans (by rw [parts.out_eq]), (getF_congr _ regs).trans count, kept.trans (.of_regs regs),
          (parts.mono (by decide)).trans (told.mono (by decide))⟩
      · have wrote := run true posted
        rw [if_pos rfl] at wrote
        obtain ⟨counted, cause, page, parts⟩ := poisonWritten_spec hm word syn v
        generalize poisonWritten m word syn v = x at *
        cases posted with
        | true => exact ⟨_, wrote, counted, cause, parts.out_eq, page, parts.mono (by decide)⟩
        | false =>
          obtain ⟨out, regs, told⟩ := busError_spec x
          exact ⟨_, wrote, memCounted_congr regs counted, memCaused_congr regs cause, out.trans (by rw [parts.out_eq]; rfl),
            page.trans (.of_regs regs), (parts.mono (by decide)).trans (told.mono (by decide))⟩
  case quiet =>
    intro m hm h1
    interval_cases m
    · rfl
    · exact absurd rfl h1
    all_goals rfl
  case yard => exact yardWordLost_counts ..
  case plan => exact planLost_invalid ..
  case shadow =>
    intro h
    have acts : ownerActs 8 word u = shadowUeDo (word / 8) u := if_pos (by omega)
    rw [acts]
    exact shadowUeDo_spec ..
  case recorder => exact (recorderFailed_spec word u).1
  case others =>
    intro p b h
    have acts : ownerActs 12 word u = planLost p b u := by rw [ownerActs, h]
    rw [acts]
    exact planLost_invalid ..
  case noPlan =>
    intro h
    rw [ownerActs, h]
  case channel =>
    intro c hc hst
    refine ⟨fun hl => ?_, fun hl l hline => ?_⟩
    · have lost := channelLost_of_limit (word := word) hc hst hl
      exact ⟨_, rfl, lost.state, lost.told, lost.survived, lost.fatal⟩
    · exact ⟨_, rfl, lineLost_of_word hc hl hline⟩

end Sys2Proof.Machine
end

/-! ## Pointing, retrains, restoration and the fabric (R397, R401, R403, R405, R409) -/

section

-- One proof after another: elaborated side by side, the proofs of this text take more memory than its check allows.
set_option Elab.async false

namespace Sys2Proof.Machine

variable {s t u x : State} {a c i j k l m n base : Nat}

/-! ### A page's error record (R497) -/

/-- What an error noted in a page leaves. -/
structure ErrNoted (base code detail addr : Nat) (s t : State) : Prop where
  first : base ∉ s.errHeld → getF t (F.ERR_INFO_CODE base) = code % 256 ∧ getF t (F.ERR_INFO_DETAIL base) = detail % 65536 ∧
    getR t (Reg.ERR_ADDR_LO base) = addr % 2 ^ 32 ∧ getR t (Reg.ERR_ADDR_HI base) = addr / 2 ^ 32 % 2 ^ 32 ∧
    t.errHeld = base :: s.errHeld
  more : base ∈ s.errHeld → getF t (F.ERR_INFO_MORE base) = 1 ∧ getF t (F.ERR_INFO_CODE base) = getF s (F.ERR_INFO_CODE base) ∧
    t.errHeld = s.errHeld
  kept : regsKept (errReg base) s t
  parts : changesOnly [.regs, .errHeld] s t

theorem err_apart (base : Nat) : Reg.ERR_INFO base ≠ Reg.ERR_ADDR_LO base ∧ Reg.ERR_INFO base ≠ Reg.ERR_ADDR_HI base ∧
    Reg.ERR_ADDR_LO base ≠ Reg.ERR_ADDR_HI base := by
  simp only [Reg.ERR_INFO, Reg.ERR_ADDR_LO, Reg.ERR_ADDR_HI]
  omega

theorem ok_errInfo (base : Nat) : (F.ERR_INFO_CODE base).ok ∧ (F.ERR_INFO_DETAIL base).ok ∧ (F.ERR_INFO_MORE base).ok := by simp [Fld.ok]

/-- The code and the detail of an error. -/
theorem infoSet_spec (base code detail : Nat) (x : State) :
    getF (setF (F.ERR_INFO_DETAIL base) detail (setF (F.ERR_INFO_CODE base) code x)) (F.ERR_INFO_CODE base) = code % 256 ∧
      getF (setF (F.ERR_INFO_DETAIL base) detail (setF (F.ERR_INFO_CODE base) code x)) (F.ERR_INFO_DETAIL base) = detail % 65536 := by
  obtain ⟨okc, okd, -⟩ := ok_errInfo base
  have code' : getF (setF (F.ERR_INFO_CODE base) code x) (F.ERR_INFO_CODE base) = code % 2 ^ 8 := getF_setF_same _ _ _ okc
  exact ⟨(getF_setF_apart _ _ _ _ okd (.inl (by simp))).trans code', getF_setF_same _ _ _ okd⟩

/-- The address of an error. -/
theorem addrSet_spec (base addr : Nat) (x : State) :
    getR (setR (Reg.ERR_ADDR_HI base) (addr / 2 ^ 32) (setR (Reg.ERR_ADDR_LO base) addr x)) (Reg.ERR_ADDR_LO base) = addr % 2 ^ 32 ∧
      getR (setR (Reg.ERR_ADDR_HI base) (addr / 2 ^ 32) (setR (Reg.ERR_ADDR_LO base) addr x)) (Reg.ERR_ADDR_HI base) = addr / 2 ^ 32 % 2 ^ 32 ∧
      regsKept (fun a => a = Reg.ERR_ADDR_LO base ∨ a = Reg.ERR_ADDR_HI base) x
        (setR (Reg.ERR_ADDR_HI base) (addr / 2 ^ 32) (setR (Reg.ERR_ADDR_LO base) addr x)) := by
  have lo : getR (setR (Reg.ERR_ADDR_LO base) addr x) (Reg.ERR_ADDR_LO base) = addr % 2 ^ 32 := getR_setR_same ..
  refine ⟨(getR_setR_ne _ _ (err_apart base).2.2).trans lo, getR_setR_same .., .setR (.setR (.refl x) _ _ (.inl rfl)) _ _ (.inr rfl)⟩

theorem errNoted_noteErr (base code detail addr : Nat) (s : State) : ErrNoted base code detail addr s (noteErr base code detail addr s) := by
  refine ⟨fun h => ?_, fun h => ?_, regsKept_noteErr _ _ _ _ _, changesOnly_noteErr ..⟩
  · have form : noteErr base code detail addr s = setR (Reg.ERR_ADDR_HI base) (addr / 2 ^ 32) (setR (Reg.ERR_ADDR_LO base) addr
        (setF (F.ERR_INFO_DETAIL base) detail (setF (F.ERR_INFO_CODE base) code { s with errHeld := base :: s.errHeld }))) :=
      if_neg fun h' => h (List.contains_iff_mem.mp h')
    rw [form, setR_errHeld, setR_errHeld, setF_errHeld, setF_errHeld]
    obtain ⟨hcode, hdetail⟩ := infoSet_spec base code detail { s with errHeld := base :: s.errHeld }
    generalize setF (F.ERR_INFO_DETAIL base) detail (setF (F.ERR_INFO_CODE base) code { s with errHeld := base :: s.errHeld }) = y at *
    obtain ⟨lo, hi, kept⟩ := addrSet_spec base addr y
    have info : ∀ f : Fld, f.addr = Reg.ERR_INFO base → getF _ f = getF y f := fun f hf => kept.getF (by
      rw [hf]
      exact fun h => h.elim (err_apart base).1 (err_apart base).2.1)
    exact ⟨(info _ rfl).trans hcode, (info _ rfl).trans hdetail, lo, hi, rfl⟩
  · have form : noteErr base code detail addr s = setF (F.ERR_INFO_MORE base) 1 s := if_pos (List.contains_iff_mem.mpr h)
    rw [form, setF_errHeld]
    obtain ⟨-, -, okm⟩ := ok_errInfo base
    exact ⟨getF_setF_same _ _ _ okm, getF_setF_apart _ _ _ _ okm (.inl (by simp)), rfl⟩

/-! ### Pointing (R397) -/

theorem scrubDo_of_not (h : isMem m = false ∨ asleep s = true ∨ s.top.off = true) (granted : Nat) : scrubDo m granted s = s := by
  refine if_pos ?_
  rcases h with h | h | h <;> simp [h]

/-- What is owed to Pointing after a period. -/
def owedPut (m granted words : Nat) (s : State) : State :=
  setMem m { getMem s m with owed := (getMem s m).owed + words - min granted ((getMem s m).owed + words) } s

theorem owedPut_spec (m granted words : Nat) (s : State) :
    (getMem (owedPut m granted words s) m).owed = (getMem s m).owed + words - min granted ((getMem s m).owed + words) ∧
      (owedPut m granted words s).regs = s.regs ∧ changesOnly [.mems] s (owedPut m granted words s) := by
  obtain ⟨value, regs, -, parts⟩ := setMem_spec m
    { getMem s m with owed := (getMem s m).owed + words - min granted ((getMem s m).owed + words) } s
  exact ⟨by rw [owedPut, value], regs, parts⟩

theorem scrubDo_zero (h1 : asleep s = false) (h2 : s.top.off = false) (granted : Nat) : scrubDo 0 granted s = owedPut 0 granted 1 s := by
  refine (if_neg ?_).trans (if_pos rfl)
  simp [h1, h2, isMem, Nat.mod_one]

/-- The position that Pointing reaches, and the passes it has completed. -/
def pointed (m pos : Nat) (y s : State) : State :=
  addF (mF m F.MEMCHK_SCRUB_PASSES_COUNT F.MAPMEM_SCRUB_PASSES_COUNT) (pos / max 1 (memWords s m))
    (setF (mF m F.MEMCHK_SCRUB_POS_WORD F.MAPMEM_SCRUB_POS_WORD) (pos % max 1 (memWords s m)) y)

theorem passes_eq (m : Nat) : mF m F.MEMCHK_SCRUB_PASSES_COUNT F.MAPMEM_SCRUB_PASSES_COUNT = ⟨memAddr m 0x20 0x128, 0, 32⟩ :=
  mF_mk m (fun _ => address_offset rfl) (fun _ => address_offset rfl)

theorem position_eq (m : Nat) : mF m F.MEMCHK_SCRUB_POS_WORD F.MAPMEM_SCRUB_POS_WORD = ⟨memAddr m 0x1C 0x124, 0, if m < 16 then 24 else 32⟩ := by
  unfold mF memAddr
  split
  · exact congrArg (Fld.mk · 0 24) (address_offset rfl)
  · exact congrArg (Fld.mk · 0 32) (address_offset rfl)

theorem pointed_spec (m pos : Nat) (y s : State) :
    (max 1 (memWords s m) ≤ 2 ^ (mF m F.MEMCHK_SCRUB_POS_WORD F.MAPMEM_SCRUB_POS_WORD).w →
      getF (pointed m pos y s) (mF m F.MEMCHK_SCRUB_POS_WORD F.MAPMEM_SCRUB_POS_WORD) = pos % max 1 (memWords s m)) ∧
      getF (pointed m pos y s) (mF m F.MEMCHK_SCRUB_PASSES_COUNT F.MAPMEM_SCRUB_PASSES_COUNT) =
        min (2 ^ 32 - 1) (getF y (mF m F.MEMCHK_SCRUB_PASSES_COUNT F.MAPMEM_SCRUB_PASSES_COUNT) + pos / max 1 (memWords s m)) ∧
      regsKept (memPage m) y (pointed m pos y s) ∧ changesOnly [.regs] y (pointed m pos y s) := by
  unfold pointed
  rw [passes_eq, position_eq]
  have apart : memAddr m 0x1C 0x124 ≠ memAddr m 0x20 0x128 := memAddr_ne (by decide) (by decide) m
  have fits : (⟨memAddr m 0x1C 0x124, 0, if m < 16 then 24 else 32⟩ : Fld).ok := by
    unfold Fld.ok
    dsimp only
    split <;> decide
  have page {b : Nat} {f : Fld} (h : f.addr = memAddr m b (b + 0x108)) (hb : b < 0x100) : memPage m f.addr := h ▸ memPage_memAddr m hb (by omega)
  refine ⟨fun h => ?_, ?_, .addF (.setF (.refl y) _ _ (page (b := 0x1C) rfl (by decide))) _ _ (page (b := 0x20) rfl (by decide)),
    .addF (.setF (.refl _ y) _ _) _ _⟩
  · rw [addF, getF_setF_ne _ _ _ _ apart, getF_setF_same _ _ _ fits]
    exact Nat.mod_eq_of_lt (Nat.lt_of_lt_of_le (Nat.mod_lt _ (by omega)) h)
  · rw [getF_addF_word, getF_setF_ne _ _ _ _ apart.symm]

section

variable (hm : hasRegs m = true) {words beats granted : Nat}
  (hw : words = getF s (mF m F.MEMCHK_SCRUB_WORDS F.MAPMEM_SCRUB_WORDS)) (hb : beats = getNZ s (mF m F.MEMCHK_SCRUB_BEATS F.MAPMEM_SCRUB_BEATS))
include hm hw hb

theorem scrubDo_of_idle (h : words = 0 ∨ beatNow s % beats ≠ 0) : scrubDo m granted s = s := by
  refine if_pos ?_
  rw [if_neg (hasRegs_ne_zero hm), if_neg (hasRegs_ne_zero hm), ← hw, ← hb]
  rcases h with h | h <;> simp [h]

theorem scrubDo_of_due (h1 : asleep s = false) (h2 : s.top.off = false) (h3 : words ≠ 0) (h4 : beatNow s % beats = 0) :
    scrubDo m granted s = pointed m
      (getF s (mF m F.MEMCHK_SCRUB_POS_WORD F.MAPMEM_SCRUB_POS_WORD) + min granted ((getMem s m).owed + words)) (owedPut m granted words s) s := by
  unfold scrubDo
  rw [if_neg (hasRegs_ne_zero hm), if_neg (hasRegs_ne_zero hm), ← hw, ← hb]
  dsimp only
  rw [if_neg (by simp [h1, h2, h3, h4, isMem_of_hasRegs hm]), if_neg (hasRegs_ne_zero hm)]
  rfl

end

/-! ### Map-memory channels (R401, R403) -/

theorem mapRetrain_of_not (h : 4 ≤ c ∨ getF s (F.MAPMEM_STATUS_STATE c) = 4) (ok : Bool) : mapRetrain c ok s = s := if_pos h

/-- The counts of failed retrains and of CRC failures in a row. -/
def triesPut (c tries retrains : Nat) (s : State) : State :=
  { s with mems := { s.mems with crcTries := tset zeroT c tries s.mems.crcTries, retrains := tset zeroT c retrains s.mems.retrains } }

theorem triesPut_spec (c tries retrains : Nat) (s : State) :
    tget (fun _ => 0) (triesPut c tries retrains s).mems.crcTries c = tries ∧
      tget (fun _ => 0) (triesPut c tries retrains s).mems.retrains c = retrains ∧ (triesPut c tries retrains s).regs = s.regs ∧
      changesOnly [.mems] s (triesPut c tries retrains s) :=
  ⟨tget_tset_same zeroT c _ _, tget_tset_same zeroT c _ _, rfl, .mems (.refl _ s)⟩

theorem mapAlert_of_fourth (hc : c < 4) (hn : 4 ≤ n) (s : State) : mapAlert c n s = triesPut c 1 0 s :=
  (if_neg (Nat.not_le.mpr hc)).trans (if_neg (Nat.not_lt.mpr hn))

/-- A failed retrain is counted. -/
def retrainFailed (c : Nat) (s : State) : State :=
  { s with mems := { s.mems with retrains := tset zeroT c (tget zeroT s.mems.retrains c + 1) s.mems.retrains } }

theorem retrainFailed_spec (c : Nat) (s : State) :
    tget (fun _ => 0) (retrainFailed c s).mems.retrains c = tget (fun _ => 0) s.mems.retrains c + 1 ∧ (retrainFailed c s).regs = s.regs ∧
      changesOnly [.mems] s (retrainFailed c s) :=
  ⟨tget_tset_same zeroT c (tget zeroT s.mems.retrains c + 1) s.mems.retrains, rfl, .mems (.refl _ s)⟩

section

variable (hc : c < 4) (hst : getF s (F.MAPMEM_STATUS_STATE c) ≠ 4)
include hc hst

theorem mapRetrain_of_ok : mapRetrain c true s = setF (F.MAPMEM_STATUS_STATE c) 2 (triesPut c 0 0 s) :=
  (if_neg fun h => h.elim (Nat.not_le.mpr hc) hst).trans (if_pos rfl)

theorem mapRetrain_of_failed : mapRetrain c false s =
    if tget zeroT s.mems.crcTries c = 1 ∧ 2 ≤ tget zeroT s.mems.retrains c + 1 then mapChannelLost c (retrainFailed c s) else retrainFailed c s :=
  (if_neg fun h => h.elim (Nat.not_le.mpr hc) hst).trans (if_neg Bool.false_ne_true)

end

/-! ### Restoration (R405) -/

theorem getEnt_setEnt_same (hi : i < 12) (e : Ent) (s : State) :
    getEnt (setLine l (lineWith (getLine s l) (40 * i) 40 e.toNat) s) l i = e := by
  have fits : 40 * i + 40 ≤ 512 := by omega
  rw [getEnt, getLine_setLine, lineWith, toNat_ofNat_putBits _ fits, bitsOf_putBits, Nat.mod_eq_of_lt e.isLt, BitVec.ofNat_toNat,
    BitVec.setWidth_eq]

theorem getEnt_setEnt_ne (hi : i < 12) (hj : j ≠ i) (e : Ent) (s : State) :
    getEnt (setLine l (lineWith (getLine s l) (40 * i) 40 e.toNat) s) l j = getEnt s l j := by
  have fits : 40 * i + 40 ≤ 512 := by omega
  rw [getEnt, getLine_setLine, lineWith, toNat_ofNat_putBits _ fits, getEnt]
  rcases Nat.lt_or_gt_of_ne hj with h | h
  · rw [bitsOf_putBits_below _ _ _ _ _ _ (by omega)]
  · rw [bitsOf_putBits_above _ _ _ _ _ _ (by omega)]

/-- The state of an entry brought back: STATE 11 becomes 01. -/
def backState (n : Nat) : Nat := if n = stReloc then stMapped else n

theorem backState_idem (n : Nat) : backState (backState n) = backState n := by
  by_cases h : n = stReloc
  · rw [backState, backState, if_pos h]
    rfl
  · rw [backState, backState, if_neg h, if_neg h]

theorem entState_withState (e : Ent) {n : Nat} (h : n < 4) : entState (withState e n) = n := by
  rw [entState, withState, toNat_ofNat_putBits e (by decide), bitsOf_putBits]
  exact Nat.mod_eq_of_lt h

/-- One entry of a line is brought back. -/
def backOne (l : Nat) (t : State) (i : Nat) : State :=
  if entState (getEnt t l i) = stReloc then setLine l (lineWith (getLine t l) (40 * i) 40 (withState (getEnt t l i) 1).toNat) t else t

theorem backOne_spec (hi : i < 12) (l : Nat) (t : State) :
    entState (getEnt (backOne l t i) l i) = backState (entState (getEnt t l i)) ∧
      (∀ j, j ≠ i → getEnt (backOne l t i) l j = getEnt t l j) ∧ (∀ k, k ≠ l → getLine (backOne l t i) k = getLine t k) ∧
      changesOnly [.map] t (backOne l t i) := by
  unfold backOne
  by_cases h : entState (getEnt t l i) = stReloc
  · rw [if_pos h, getEnt_setEnt_same hi, entState_withState _ (by decide), backState, if_pos h]
    exact ⟨rfl, fun j hj => getEnt_setEnt_ne hi hj _ t, fun k hk => getLine_setLine_ne hk _ t, .map (.refl _ t)⟩
  · rw [if_neg h, backState, if_neg h]
    exact ⟨rfl, fun _ _ => rfl, fun _ _ => rfl, .refl _ t⟩

/-- A line is brought back, and no other changes. -/
def lineBack (l : Nat) (s t : State) : Prop :=
  (∀ j, j < 12 → entState (getEnt t l j) = backState (entState (getEnt s l j))) ∧ (∀ k, k ≠ l → getLine t k = getLine s k) ∧
    changesOnly [.map] s t

theorem lineBack_backToSource (l : Nat) (s : State) : lineBack l s (backToSource l s) := by
  have upTo : ∀ n, n ≤ 12 →
      (∀ j, j < 12 → entState (getEnt ((List.range n).foldl (backOne l) s) l j) =
        if j < n then backState (entState (getEnt s l j)) else entState (getEnt s l j)) ∧
      (∀ k, k ≠ l → getLine ((List.range n).foldl (backOne l) s) k = getLine s k) ∧ changesOnly [.map] s ((List.range n).foldl (backOne l) s) := by
    intro n
    induction n with
    | zero => exact fun _ => ⟨fun j _ => (if_neg (Nat.not_lt_zero j)).symm, fun _ _ => rfl, .refl _ s⟩
    | succ n ih =>
      intro hn
      obtain ⟨before, lines, parts⟩ := ih (by omega)
      rw [List.range_succ, List.foldl_append, List.foldl_cons, List.foldl_nil]
      generalize (List.range n).foldl (backOne l) s = y at *
      obtain ⟨same, others, lines', parts'⟩ := backOne_spec (i := n) (by omega) l y
      refine ⟨fun j hj => ?_, fun k hk => (lines' k hk).trans (lines k hk), parts.trans parts'⟩
      by_cases hjn : j = n
      · subst hjn
        rw [same, before j hj, if_neg (Nat.lt_irrefl j), if_pos (Nat.lt_succ_self j)]
      · rw [others j hjn, before j hj]
        exact if_congr (by omega) rfl rfl
  obtain ⟨ents, lines, parts⟩ := upTo 12 (Nat.le_refl 12)
  exact ⟨fun j hj => (ents j hj).trans (if_pos hj), lines, parts⟩

theorem getEnt_congr (h : getLine t l = getLine s l) (j : Nat) : getEnt t l j = getEnt s l j := by rw [getEnt, getEnt, h]

/-- Lines are brought back, and no others change. -/
theorem foldl_backToSource (ls : List Nat) (s : State) :
    (∀ l ∈ ls, ∀ j, j < 12 → entState (getEnt (ls.foldl (fun t l => backToSource l t) s) l j) = backState (entState (getEnt s l j))) ∧
      (∀ l, l ∉ ls → getLine (ls.foldl (fun t l => backToSource l t) s) l = getLine s l) ∧
      changesOnly [.map] s (ls.foldl (fun t l => backToSource l t) s) := by
  induction ls generalizing s with
  | nil => exact ⟨fun l hl => absurd hl List.not_mem_nil, fun _ _ => rfl, .refl _ s⟩
  | cons k ls ih =>
    obtain ⟨ents, lines, parts⟩ := lineBack_backToSource k s
    obtain ⟨ents', lines', parts'⟩ := ih (backToSource k s)
    rw [List.foldl_cons]
    generalize backToSource k s = y at *
    refine ⟨fun l hl j hj => ?_, fun l hl => ?_, parts.trans parts'⟩
    · by_cases hin : l ∈ ls
      · rw [ents' l hin j hj]
        by_cases hk : l = k
        · subst hk
          rw [ents j hj, backState_idem]
        · rw [getEnt_congr (lines l hk)]
      · have hk : l = k := (List.mem_cons.mp hl).resolve_right hin
        subst hk
        rw [getEnt_congr (lines' l hin), ents j hj]
    · rw [lines' l fun h => hl (List.mem_cons_of_mem _ h), lines l fun h => hl (h ▸ List.mem_cons_self)]

end Sys2Proof.Machine
end

/-! ## Restoration ends, and the fabric's errors (R401, R403, R405, R409, R412) -/

section

-- One proof after another: elaborated side by side, the proofs of this text take more memory than its check allows.
set_option Elab.async false

namespace Sys2Proof.Machine

variable {s t u x : State} {a c i j k l m n : Nat}

/-! ### The end of restoration -/

/-- Lines restored set their channels' causes. -/
def restoredTold (t : State) (l : Nat) : State := memCause (16 + lineChannel l) 6 t

/-- The registers of the map memory's channels. -/
def mapPages (a : Nat) : Prop := ∃ c, c < 4 ∧ memPage (16 + c) a

theorem lineChannel_lt (l : Nat) : lineChannel l < 4 := Nat.mod_lt _ (by decide)

theorem hasRegs_channel (hc : c < 4) : hasRegs (16 + c) = true := by
  simp only [hasRegs, Bool.or_eq_true, decide_eq_true_eq]
  omega

theorem causeReg_inj (h : causeReg (16 + c) = causeReg (16 + k)) : c = k := by
  rw [causeReg, causeReg, memAddr, memAddr, if_neg (by omega), if_neg (by omega)] at h
  omega

theorem restoredTold_spec (l : Nat) (t : State) :
    memCaused (16 + lineChannel l) 6 (restoredTold t l) ∧ (∀ c, c < 4 → memCaused (16 + c) 6 t → memCaused (16 + c) 6 (restoredTold t l)) ∧
      regsKeptE mapPages t (restoredTold t l) ∧ changesOnly eventParts t (restoredTold t l) := by
  have hl := hasRegs_channel (lineChannel_lt l)
  have told := caused_memCause hl (by decide : 6 < 32) t
  unfold restoredTold
  refine ⟨memCaused_iff.mpr told.set, fun c hc h => ?_, fun a ha he => told.kept a (fun h => ha ?_) he, told.parts⟩
  · by_cases hk : c = lineChannel l
    · rw [hk]
      exact memCaused_iff.mpr told.set
    · refine memCaused_iff.mpr ((told.kept.getF (fun h' => hk (causeReg_inj h')) ?_).trans (memCaused_iff.mp h))
      exact memAddr_quiet (hasRegs_channel hc) (by decide) (by decide)
  · exact ⟨lineChannel l, lineChannel_lt l, h ▸ memPage_memAddr _ (by decide) (by decide)⟩

theorem foldl_restoredTold (ls : List Nat) (s : State) :
    (∀ l ∈ ls, memCaused (16 + lineChannel l) 6 (ls.foldl restoredTold s)) ∧
      (∀ c, c < 4 → memCaused (16 + c) 6 s → memCaused (16 + c) 6 (ls.foldl restoredTold s)) ∧
      regsKeptE mapPages s (ls.foldl restoredTold s) ∧ changesOnly eventParts s (ls.foldl restoredTold s) := by
  induction ls generalizing s with
  | nil => exact ⟨fun l hl => absurd hl List.not_mem_nil, fun _ _ h => h, .refl s, .refl _ s⟩
  | cons k ls ih =>
    obtain ⟨told, still, kept, parts⟩ := restoredTold_spec k s
    obtain ⟨told', still', kept', parts'⟩ := ih (restoredTold s k)
    rw [List.foldl_cons]
    refine ⟨fun l hl => ?_, fun c hc h => still' c hc (still c hc h), kept.trans kept', parts.trans parts'⟩
    rcases List.mem_cons.mp hl with rfl | hl
    · exact still' _ (lineChannel_lt l) told
    · exact told' l hl

/-- No line is absent any longer. -/
def absentNone (x : State) : State := { x with mems := { x.mems with absentCh := none, absentLines := [] } }

theorem absentNone_spec (x : State) : (absentNone x).mems.absentCh = none ∧ (absentNone x).mems.absentLines = [] ∧ (absentNone x).regs = x.regs ∧
    changesOnly [.mems] x (absentNone x) := ⟨rfl, rfl, rfl, .mems (.refl _ x)⟩

/-- Restoration is over. -/
def restoreEnded (ms : Nat) (x : State) : State :=
  setF (F.MAPMEM_RESTORE_MS_MS 0) ms (setF (F.MAPMEM_RESTORE_STEP 0) 0 (setF (F.MAPMEM_RESTORE_ACTIVE 0) 0 x))

theorem restoreEnded_spec (ms : Nat) (x : State) :
    restoring (restoreEnded ms x) = false ∧ getF (restoreEnded ms x) (F.MAPMEM_RESTORE_MS_MS 0) = ms % 2 ^ 32 ∧
      regsKept (fun a => a = Reg.MAPMEM_RESTORE 0 ∨ a = Reg.MAPMEM_RESTORE_MS 0) x (restoreEnded ms x) ∧ changesOnly [.regs] x (restoreEnded ms x) := by
  have active : getF (setF (F.MAPMEM_RESTORE_ACTIVE 0) 0 x) (F.MAPMEM_RESTORE_ACTIVE 0) = 0 := getF_setF_same _ _ _ (by unfold Fld.ok; decide)
  have kept0 : regsKept (fun a => a = Reg.MAPMEM_RESTORE 0 ∨ a = Reg.MAPMEM_RESTORE_MS 0) x (setF (F.MAPMEM_RESTORE_ACTIVE 0) 0 x) :=
    .setF (.refl x) _ _ (.inl rfl)
  have parts0 : changesOnly [.regs] x (setF (F.MAPMEM_RESTORE_ACTIVE 0) 0 x) := .setF (.refl _ x) _ _
  unfold restoreEnded
  generalize setF (F.MAPMEM_RESTORE_ACTIVE 0) 0 x = y at *
  have step : getF (setF (F.MAPMEM_RESTORE_STEP 0) 0 y) (F.MAPMEM_RESTORE_ACTIVE 0) = 0 :=
    (getF_setF_apart _ _ _ _ (by unfold Fld.ok; decide) (by decide)).trans active
  have kept1 := kept0.setF (F.MAPMEM_RESTORE_STEP 0) 0 (.inl rfl)
  have parts1 := parts0.setF (F.MAPMEM_RESTORE_STEP 0) 0
  generalize setF (F.MAPMEM_RESTORE_STEP 0) 0 y = z at *
  refine ⟨?_, getF_setF_same _ _ _ (by unfold Fld.ok; decide), kept1.setF _ _ (.inr rfl), parts1.setF _ _⟩
  rw [restoring, isSet, getF_setF_ne _ _ _ _ (by decide), step]
  rfl

/-- The lines of the table that are absent. -/
def absentSet (s : State) : List Nat := (s.map.lines.filter (fun p => lineAbsent s p.1)).map (·.1)

theorem restoreDone_eq (h : restoring s = true) (ms : Nat) : restoreDone ms s =
    restoreEnded ms (absentNone (s.mems.absentLines.foldl restoredTold ((absentSet s).foldl (fun t l => backToSource l t) s))) := by
  rw [restoreDone, h]
  rfl

/-- A line that is absent is brought back, whether the table holds it or it reads as reset. -/
theorem back_of_absent {i : Nat} (hl : lineAbsent s l = true)
    (hin : l ∈ absentSet s → entState (getEnt t l i) = backState (entState (getEnt s l i)))
    (hout : l ∉ absentSet s → getLine t l = getLine s l) : entState (getEnt t l i) = backState (entState (getEnt s l i)) := by
  by_cases h : l ∈ absentSet s
  · exact hin h
  · have none : getLine s l = 0#512 := by
      rw [getLine, tget]
      split
      · next p hp =>
        have key : p.1 = l := by simpa using List.find?_some hp
        exact absurd (List.mem_map.mpr ⟨p, List.mem_filter.mpr ⟨List.mem_of_find?_eq_some hp, by rw [key]; exact hl⟩, key⟩) h
      · rfl
    have zero : entState (getEnt s l i) = 0 := by
      have low : bitsOf 0 (40 * i) 40 = 0 := by rw [bitsOf, Nat.zero_div, Nat.zero_mod]
      rw [entState, getEnt, none, BitVec.toNat_zero, low]
      rfl
    rw [getEnt_congr (hout h), zero]
    rfl

theorem memPage_restore {a : Nat} (h : a = Reg.MAPMEM_RESTORE 0 ∨ a = Reg.MAPMEM_RESTORE_MS 0) : mapPages a := by
  refine ⟨0, by decide, ?_⟩
  rw [memPage, if_neg (by decide)]
  rcases h with rfl | rfl <;> decide

theorem restore_ne_cause (hc : c < 4) {a : Nat} (h : a = Reg.MAPMEM_RESTORE 0 ∨ a = Reg.MAPMEM_RESTORE_MS 0) : causeReg (16 + c) ≠ a := by
  rw [causeReg, memAddr, if_neg (by omega)]
  rcases h with rfl | rfl <;> simp only [Reg.MAPMEM_RESTORE, Reg.MAPMEM_RESTORE_MS] <;> omega

/-- What the end of restoration leaves. -/
structure Restored (ms : Nat) (s t : State) : Prop where
  ended : restoring t = false
  channel : t.mems.absentCh = none
  lines : t.mems.absentLines = []
  time : getF t (F.MAPMEM_RESTORE_MS_MS 0) = ms % 2 ^ 32
  others : ∀ l, lineAbsent s l = false → getLine t l = getLine s l
  back : ∀ l i, lineAbsent s l = true → i < 12 → entState (getEnt t l i) = backState (entState (getEnt s l i))
  told : ∀ l ∈ s.mems.absentLines, memCaused (16 + lineChannel l) 6 t
  regs : regsKeptE mapPages s t
  parts : changesOnly (.mems :: .map :: eventParts) s t

theorem restored (h : restoring s = true) (ms : Nat) : Restored ms s (restoreDone ms s) := by
  rw [restoreDone_eq h]
  obtain ⟨ents, lines, parts0⟩ := foldl_backToSource (absentSet s) s
  generalize (absentSet s).foldl (fun t l => backToSource l t) s = x at *
  obtain ⟨told, -, kept1, parts1⟩ := foldl_restoredTold s.mems.absentLines x
  generalize s.mems.absentLines.foldl restoredTold x = y at *
  obtain ⟨channel, none, regs2, parts2⟩ := absentNone_spec y
  generalize absentNone y = z at *
  obtain ⟨ended, time, kept3, parts3⟩ := restoreEnded_spec ms z
  have map : (restoreEnded ms z).map = x.map := by rw [parts3.map_eq, parts2.map_eq, parts1.map_eq]
  have line (l : Nat) : getLine (restoreEnded ms z) l = getLine x l := by rw [getLine, getLine, map]
  refine ⟨ended, by rw [parts3.mems_eq, channel], by rw [parts3.mems_eq, none], time, fun l hl => ?_, fun l i hl hi => ?_, fun l hl => ?_, ?_, ?_⟩
  · rw [line]
    refine lines l fun hin => ?_
    obtain ⟨p, hp, rfl⟩ := List.mem_map.mp hin
    exact absurd (hl.symm.trans (List.mem_filter.mp hp).2) Bool.false_ne_true
  · exact back_of_absent hl (fun hin => (congrArg entState (getEnt_congr (line l) i)).trans (ents l hin i hi)) (fun hin => (line l).trans (lines l hin))
  · refine memCaused_iff.mpr ((kept3.getF fun h' => ?_).trans ((getF_congr _ regs2).trans (memCaused_iff.mp (told l hl))))
    exact restore_ne_cause (lineChannel_lt l) h' rfl
  · intro a ha he
    rw [kept3 a (fun h' => ha (memPage_restore h')), rd_congr regs2, kept1 a ha he, rd_congr parts0.regs_eq]
  · exact ((parts0.mono (by decide)).trans (parts1.mono (by decide))).trans ((parts2.mono (by decide)).trans (parts3.mono (by decide)))

/-! ### The fabric -/

/-- The page of a port's block is a page. -/
theorem portBase_page (p : Nat) : portBase p % 0x1000 = 0 := by
  have small : ∀ p < 59, portBase p % 0x1000 = 0 := by decide
  by_cases h : p < 59
  · exact small p h
  · have beyond : portBase p = baseFab := by
      unfold portBase
      iterate 14 rw [if_neg (by omega)]
    rw [beyond]
    decide

/-- Who sent the word that failed for the fourth time, who was to receive it, and whether it was a response. -/
def fatalPut (sender receiver response : Nat) (x : State) : State :=
  setF F.FAB_LAST_FATAL_RESPONSE response (setF F.FAB_LAST_FATAL_RECEIVER receiver (setF F.FAB_LAST_FATAL_SENDER sender x))

theorem fatalPut_spec (sender receiver : Nat) {response : Nat} (hr : response < 2) (x : State) :
    getF (fatalPut sender receiver response x) F.FAB_LAST_FATAL_SENDER = sender % 64 ∧
      getF (fatalPut sender receiver response x) F.FAB_LAST_FATAL_RECEIVER = receiver % 64 ∧
      getF (fatalPut sender receiver response x) F.FAB_LAST_FATAL_RESPONSE = response ∧
      regsKept (· = Reg.FAB_LAST_FATAL) x (fatalPut sender receiver response x) ∧ changesOnly [.regs] x (fatalPut sender receiver response x) := by
  have oks : F.FAB_LAST_FATAL_SENDER.ok ∧ F.FAB_LAST_FATAL_RECEIVER.ok ∧ F.FAB_LAST_FATAL_RESPONSE.ok := by
    unfold Fld.ok
    decide
  obtain ⟨ok1, ok2, ok3⟩ := oks
  have s1 : getF (setF F.FAB_LAST_FATAL_SENDER sender x) F.FAB_LAST_FATAL_SENDER = sender % 2 ^ 6 := getF_setF_same _ _ _ ok1
  have kept1 : regsKept (· = Reg.FAB_LAST_FATAL) x (setF F.FAB_LAST_FATAL_SENDER sender x) := .setF (.refl x) _ _ rfl
  have parts1 : changesOnly [.regs] x (setF F.FAB_LAST_FATAL_SENDER sender x) := .setF (.refl _ x) _ _
  unfold fatalPut
  generalize setF F.FAB_LAST_FATAL_SENDER sender x = y at *
  have s2 : getF (setF F.FAB_LAST_FATAL_RECEIVER receiver y) F.FAB_LAST_FATAL_SENDER = sender % 2 ^ 6 :=
    (getF_setF_apart _ _ _ _ ok2 (by decide)).trans s1
  have r2 : getF (setF F.FAB_LAST_FATAL_RECEIVER receiver y) F.FAB_LAST_FATAL_RECEIVER = receiver % 2 ^ 6 := getF_setF_same _ _ _ ok2
  have kept2 := kept1.setF F.FAB_LAST_FATAL_RECEIVER receiver rfl
  have parts2 := parts1.setF F.FAB_LAST_FATAL_RECEIVER receiver
  generalize setF F.FAB_LAST_FATAL_RECEIVER receiver y = z at *
  exact ⟨(getF_setF_apart _ _ _ _ ok3 (by decide)).trans s2, (getF_setF_apart _ _ _ _ ok3 (by decide)).trans r2,
    (getF_setF_same _ _ _ ok3).trans (Nat.mod_eq_of_lt hr), kept2.setF _ _ rfl, parts2.setF _ _⟩

/-- A fatal error of the fabric, before its requester hears of it. -/
def fatalNoted (sender receiver response : Nat) (s : State) : State :=
  happen baseFab 1 (addF F.FAB_FATALS_COUNT 1 (fatalPut sender receiver response s))

theorem fatalNoted_spec (sender receiver : Nat) {response : Nat} (hr : response < 2) (s : State) :
    getF (fatalNoted sender receiver response s) F.FAB_FATALS_COUNT = min (2 ^ 32 - 1) (getF s F.FAB_FATALS_COUNT + 1) ∧
      raised baseFab 1 (fatalNoted sender receiver response s) = true ∧
      getF (fatalNoted sender receiver response s) F.FAB_LAST_FATAL_SENDER = sender % 64 ∧
      getF (fatalNoted sender receiver response s) F.FAB_LAST_FATAL_RECEIVER = receiver % 64 ∧
      getF (fatalNoted sender receiver response s) F.FAB_LAST_FATAL_RESPONSE = response ∧
      changesOnly eventParts s (fatalNoted sender receiver response s) := by
  obtain ⟨sent, received, resp, kept, parts⟩ := fatalPut_spec sender receiver hr s
  unfold fatalNoted
  generalize fatalPut sender receiver response s = x at *
  have count := getF_addF_word (a := Reg.FAB_FATALS) 1 x
  have kept1 : regsKept (· = Reg.FAB_FATALS) x (addF F.FAB_FATALS_COUNT 1 x) := .addF (.refl x) _ _ rfl
  have parts1 : changesOnly [.regs] x (addF F.FAB_FATALS_COUNT 1 x) := .addF (.refl _ x) _ _
  generalize addF F.FAB_FATALS_COUNT 1 x = y at *
  have same : ∀ f : Fld, quietReg f.addr = true → getF (happen baseFab 1 y) f = getF y f := fun f hq => getF_happen hq (by decide) (by decide)
  have told := raised_happen_baseFab y (i := 1) (by decide)
  have last : ∀ f : Fld, f.addr = Reg.FAB_LAST_FATAL → getF (happen baseFab 1 y) f = getF x f := fun f hf =>
    (same f (by rw [hf]; decide)).trans (kept1.getF (by rw [hf]; decide))
  refine ⟨(same _ (by decide)).trans (count.trans ?_), told, (last _ rfl).trans sent, (last _ rfl).trans received, (last _ rfl).trans resp,
    .happen ((parts.trans parts1).mono (by decide)) baseFab 1⟩
  rw [kept.getF (f := ⟨Reg.FAB_FATALS, 0, 32⟩) (by decide)]

theorem fabError_of_fourth (h : 4 ≤ n) (sender receiver : Nat) (response posted : Bool) (a : Nat) (s : State) :
    fabError sender receiver response posted n a s =
      if posted && !response then noteErr (portBase sender) 0xF4 receiver a (fatalNoted sender receiver (if response then 1 else 0) s)
      else emit .busError (fatalNoted sender receiver (if response then 1 else 0) s) := if_neg (Nat.not_lt.mpr h)

/-- A page's error record stands apart from the fabric's registers and from every EVT_RAW. -/
theorem errReg_apart (hp : base % 0x1000 = 0) : ¬ errReg base Reg.FAB_FATALS ∧ ¬ errReg base Reg.FAB_LAST_FATAL ∧
    ¬ errReg base (Reg.EVT_RAW baseFab) := by
  simp only [errReg, Reg.ERR_INFO, Reg.ERR_ADDR_LO, Reg.ERR_ADDR_HI, Reg.FAB_FATALS, Reg.FAB_LAST_FATAL, Reg.EVT_RAW, baseFab]
  omega

/-- What a word's fourth failure leaves of the fabric's own registers. -/
structure FabFatal (sender receiver response : Nat) (s t : State) : Prop where
  count : getF t F.FAB_FATALS_COUNT = min (2 ^ 32 - 1) (getF s F.FAB_FATALS_COUNT + 1)
  told : raised baseFab 1 t = true
  sender : getF t F.FAB_LAST_FATAL_SENDER = sender % 64
  receiver : getF t F.FAB_LAST_FATAL_RECEIVER = receiver % 64
  response : getF t F.FAB_LAST_FATAL_RESPONSE = response

theorem fabFatal_of_kept {sender receiver response : Nat} (hr : response < 2) {but : Nat → Prop}
    (h : regsKept but (fatalNoted sender receiver response s) t) (h1 : ¬ but Reg.FAB_FATALS) (h2 : ¬ but Reg.FAB_LAST_FATAL)
    (h3 : ¬ but (Reg.EVT_RAW baseFab)) : FabFatal sender receiver response s t := by
  obtain ⟨count, told, sent, received, resp, -⟩ := fatalNoted_spec sender receiver hr s
  exact ⟨(h.getF h1).trans count, (raised_of_rd (h _ h3)).trans told, (h.getF h2).trans sent, (h.getF h2).trans received, (h.getF h2).trans resp⟩

/-- Settles O55: Pointing by `pointed_spec`, restoration by `restored`, the fabric by `fatalNoted_spec`. -/
theorem pointingRetrainsAndFabricErrors : Obligations.PointingRetrainsAndFabricErrors := by
  unfold Obligations.PointingRetrainsAndFabricErrors
  intro s
  refine ⟨fun m granted => ⟨?still, ?island, ?points⟩, fun c nth => ⟨?noChannel, ?retries, ?fault⟩, fun c hreach => ⟨?noRetrain, ?retrains⟩,
    fun ms => ⟨?notRestoring, ?restores⟩, fun sender receiver response posted failure a => ⟨?replays, ?fatal⟩⟩
  case still => exact fun h => congrArg Host.Outcome.next (scrubDo_of_not h granted)
  case island =>
    rintro h1 h2 rfl
    obtain ⟨owed, -, parts⟩ := owedPut_spec 0 granted 1 s
    exact ⟨_, congrArg Host.Outcome.next (scrubDo_zero h1 h2 granted), owed, parts⟩
  case points =>
    intro words beats g hm hw hb hg
    refine ⟨fun h => congrArg Host.Outcome.next (scrubDo_of_idle hm hw hb h), fun h1 h2 h3 h4 => ?_⟩
    have run : exec (.scrubPeriod m granted) s = .next _ := congrArg Host.Outcome.next (scrubDo_of_due (granted := granted) hm hw hb h1 h2 h3 h4)
    rw [← hg] at run
    obtain ⟨owed, regs, parts⟩ := owedPut_spec m granted words s
    rw [← hg] at owed
    generalize owedPut m granted words s = y at *
    obtain ⟨position, passes, kept, parts'⟩ := pointed_spec m (getF s (mF m F.MEMCHK_SCRUB_POS_WORD F.MAPMEM_SCRUB_POS_WORD) + g) y s
    refine ⟨_, _, _, run, ?_, rfl, rfl, position, passes.trans ?_, (regsKept.of_regs regs).trans kept, (parts.mono (by decide)).trans (parts'.mono (by decide))⟩
    · rw [getMem_congr parts'.mems_eq, owed]
    · rw [getF_congr _ regs]
  case noChannel => exact fun h => congrArg Host.Outcome.next (if_pos h)
  case retries =>
    intro hc hn
    have run : exec (.mapmemAlert c nth) s = .next (addF (F.MAPMEM_CRC_RETRY_COUNT c) 1 s) :=
      congrArg Host.Outcome.next ((if_neg (Nat.not_le.mpr hc)).trans (if_pos hn))
    exact ⟨_, run, getF_addF_word .., .addF (.refl s) _ _ rfl, .addF (.refl _ s) _ _⟩
  case fault =>
    intro hc hn
    obtain ⟨tries, retrains, -, parts⟩ := triesPut_spec c 1 0 s
    exact ⟨_, congrArg Host.Outcome.next (mapAlert_of_fourth hc hn s), tries, retrains, parts⟩
  case noRetrain => exact fun h ok => congrArg Host.Outcome.next ((guarded_ok _ hreach).trans (mapRetrain_of_not h ok))
  case retrains =>
    intro hc hst
    have run (ok : Bool) : exec (.mapmemRetrain c ok) s = .next (mapRetrain c ok s) := congrArg Host.Outcome.next (guarded_ok _ hreach)
    refine ⟨?_, fun h => ?_, fun h1 h2 => ?_⟩
    · have run := run true
      rw [mapRetrain_of_ok hc hst] at run
      obtain ⟨tries, retrains, regs, parts⟩ := triesPut_spec c 0 0 s
      generalize triesPut c 0 0 s = y at *
      exact ⟨_, run, getF_setF_same _ _ _ (ok_mapState c), by rw [setF_mems, tries], by rw [setF_mems, retrains],
        .setF (.of_regs regs) _ _ rfl, .setF (parts.mono (by decide)) _ _⟩
    · have run := run false
      rw [mapRetrain_of_failed hc hst, if_neg fun ⟨h1, h2⟩ => h.elim (fun h => h h1) fun h => by
        change 2 ≤ tget (fun _ => 0) s.mems.retrains c + 1 at h2
        omega] at run
      obtain ⟨retrains, -, parts⟩ := retrainFailed_spec c s
      exact ⟨_, run, retrains, parts⟩
    · have run := run false
      have again : 2 ≤ tget zeroT s.mems.retrains c + 1 := by
        change 2 ≤ tget (fun _ => 0) s.mems.retrains c + 1
        omega
      rw [mapRetrain_of_failed hc hst, if_pos ⟨h1, again⟩] at run
      obtain ⟨-, regs, -⟩ := retrainFailed_spec c s
      generalize retrainFailed c s = y at *
      have lost := channelLost hc (s := y) (by rwa [getF_congr (s := s) _ regs])
      exact ⟨_, run, lost.state, lost.told⟩
  case notRestoring => exact fun h => congrArg Host.Outcome.next (if_pos (by rw [h]; rfl))
  case restores =>
    intro h
    have done := restored h ms
    exact ⟨_, rfl, done.ended, done.channel, done.lines, done.time, done.others, done.back, done.told, done.regs, done.parts⟩
  case replays =>
    intro h
    have run : exec (.fabParityError sender receiver response posted failure a) s = .next (happen baseFab 0 (addF F.FAB_REPLAYS_COUNT 1 s)) :=
      congrArg Host.Outcome.next (if_pos h)
    have count := getF_addF_word (a := Reg.FAB_REPLAYS) 1 s
    have kept : regsKept (· = Reg.FAB_REPLAYS) s (addF F.FAB_REPLAYS_COUNT 1 s) := .addF (.refl s) _ _ rfl
    have parts : changesOnly eventParts s (addF F.FAB_REPLAYS_COUNT 1 s) := .addF (.refl _ s) _ _
    generalize addF F.FAB_REPLAYS_COUNT 1 s = x at *
    exact ⟨_, run, (getF_happen (by decide) (by decide) (by decide)).trans count, raised_happen_baseFab x (by decide),
      kept.toE.happen baseFab 0, parts.happen baseFab 0⟩
  case fatal =>
    intro h
    have run : exec (.fabParityError sender receiver response posted failure a) s = .next _ :=
      congrArg Host.Outcome.next (fabError_of_fourth h sender receiver response posted a s)
    have hr : (if response then 1 else 0) < 2 := by split <;> decide
    have noted := (fatalNoted_spec sender receiver hr s).2.2.2.2.2
    have done := fun {t : State} {but : Nat → Prop} => fabFatal_of_kept (s := s) (t := t) (sender := sender) (receiver := receiver) (but := but) hr
    generalize fatalNoted sender receiver (if response then 1 else 0) s = x at *
    by_cases hp : (posted && !response) = true
    · rw [if_pos hp] at run
      obtain ⟨rfl, rfl⟩ : posted = true ∧ response = false := by simpa using hp
      obtain ⟨h1, h2, h3⟩ := errReg_apart (portBase_page sender)
      have err := errNoted_noteErr (portBase sender) 0xF4 receiver a x
      generalize noteErr (portBase sender) 0xF4 receiver a x = t at *
      have fab := done err.kept h1 h2 h3
      refine ⟨_, run, fab.count, fab.told, fab.sender, fab.receiver, fab.response, fun h' => ?_, fun _ _ => ⟨?_, fun hno => ?_, fun hin => ?_⟩,
        (noted.mono (by decide)).trans (err.parts.mono (by decide))⟩
      · exact h'.elim (fun h => nomatch h) (fun h => nomatch h)
      · rw [err.parts.out_eq, noted.out_eq]
      · obtain ⟨code, detail, lo, -, held⟩ := err.first (by rwa [noted.errHeld_eq])
        exact ⟨code, detail, lo, by rw [held]; exact List.mem_cons_self⟩
      · exact (err.more (by rwa [noted.errHeld_eq])).1
    · rw [if_neg hp] at run
      obtain ⟨out, regs, told⟩ := busError_spec x
      have fab := done (t := emit .busError x) (but := fun _ => False) (.of_regs regs) (fun h => h) (fun h => h) (fun h => h)
      refine ⟨_, run, fab.count, fab.told, fab.sender, fab.receiver, fab.response, fun _ => ⟨out.trans (by rw [noted.out_eq]), ?_⟩,
        fun h1 h2 => absurd (by rw [h1, h2]; rfl) hp, (noted.mono (by decide)).trans (told.mono (by decide))⟩
      rw [told.errHeld_eq, noted.errHeld_eq]

end Sys2Proof.Machine
end

/-! ## The window's answers: disabled blocks, sleeping domains and errors noted (R423, R424, R497) -/

section

-- One proof after another: elaborated side by side, the proofs of this text take more memory than its check allows.
set_option Elab.async false

namespace Sys2Proof.Machine

variable {s t u : State} {a v ty inst base code detail addr : Nat}

/-! ### ERR_INFO -/

theorem errNoted_of_kept (h : ErrNoted base code detail addr s u) (hc : code < 256) (hd : detail < 65536)
    (kept : ∀ b, errReg base b → rd t b = rd u b) (held : t.errHeld = u.errHeld) : errNoted base code detail addr s t := by
  have info : ∀ f : Fld, f.addr = Reg.ERR_INFO base → getF t f = getF u f := fun f hf =>
    congrArg (fun w : W32 => bitsOf w.toNat f.lo f.w) (kept _ (.inl hf))
  refine ⟨fun hn => ?_, fun hm => ?_⟩
  · obtain ⟨hcode, hdetail, hlo, hhi, hheld⟩ := h.first hn
    rw [Nat.mod_eq_of_lt hc] at hcode
    rw [Nat.mod_eq_of_lt hd] at hdetail
    exact ⟨(info _ rfl).trans hcode, (info _ rfl).trans hdetail, (getR_of_rd (kept _ (.inr (.inl rfl)))).trans hlo,
      (getR_of_rd (kept _ (.inr (.inr rfl)))).trans hhi, held.trans hheld⟩
  · obtain ⟨hmore, hcode, hheld⟩ := h.more hm
    exact ⟨(info _ rfl).trans hmore, (info _ rfl).trans hcode, held.trans hheld⟩

/-! ### A disabled block (R424) -/

theorem blockOf_of_disabled (h : reach s a = .disabled) : ∃ ty inst base, blockOf a = some (ty, inst, base) := by
  cases hb : blockOf a with
  | some b => exact ⟨_, _, _, rfl⟩
  | none =>
    have hblock : blockOff s a = false := by rw [blockOff, hb]
    have hpage : pageOff s a = false := by rw [pageOff, hb]
    rw [reach, hblock, hpage, if_neg Bool.false_ne_true, if_neg Bool.false_ne_true] at h
    split at h <;> cases h

/-- What an access to a disabled block leaves. -/
structure Disabled (ty inst a : Nat) (s t : State) : Prop where
  event : raised baseTop 5 t = true
  info : errNoted baseTop 0xF1 (ty * 256 + inst) a s t
  kept : regsKeptE (errReg baseTop) s t
  parts : changesOnly (.errHeld :: eventParts) s t

theorem errReg_quiet (h : errReg baseTop a) : quietReg a = true := by
  rcases h with rfl | rfl | rfl <;> decide

theorem disabled_accessDisabled (s : State) (hb : blockOf a = some (ty, inst, base)) : Disabled ty inst a s (accessDisabled a s) := by
  have form : accessDisabled a s = happen baseTop 5 (noteErr baseTop 0xF1 (ty * 256 + inst) a s) := by rw [accessDisabled, hb]
  have noted := errNoted_noteErr baseTop 0xF1 (ty * 256 + inst) a s
  have laid := blockLaid_of_blockOf hb
  have hdetail : ty * 256 + inst < 65536 := by
    have := laid.ty_le
    have := laid.inst_lt
    omega
  rw [form]
  generalize noteErr baseTop 0xF1 (ty * 256 + inst) a s = u at noted
  have evt := evtOnly_happen baseTop 5 u (by decide) (by decide)
  exact ⟨raised_happen _ _ _ (by decide) (by decide) (by decide) (by decide),
    errNoted_of_kept noted (by decide) hdetail (fun b hb => evt.2 b not_false (not_eventReg_of_quiet (errReg_quiet hb)))
      evt.1.errHeld_eq,
    noted.kept.toE.of_evtOnly evt, (noted.parts.mono (by decide)).of_evtOnly evt (by decide)⟩

/-! ### A sleeping domain (R423) -/

/-- What a stalled access leaves. -/
structure Stalled (path : Path) (a : Nat) (w : Option (W32 × Nat)) (s t : State) : Prop where
  list : t.top.stalled = s.top.stalled ++ [(path, a, w)]
  waking : domainOf a ∈ t.top.waking
  moving : isSet t F.PWR_STATE_IN_TRANSITION = true
  kept : regsKept (· = Reg.PWR_STATE) s t
  parts : changesOnly [.regs, .top] s t

/-- The access waits, and its domain wakes. -/
def stallNoted (path : Path) (a : Nat) (w : Option (W32 × Nat)) (s : State) : State :=
  { s with top := { s.top with
      stalled := s.top.stalled ++ [(path, a, w)]
      waking := insertNat (domainOf a) s.top.waking } }

theorem stallNoted_spec (path : Path) (a : Nat) (w : Option (W32 × Nat)) (s : State) :
    (stallNoted path a w s).top.stalled = s.top.stalled ++ [(path, a, w)] ∧
      domainOf a ∈ (stallNoted path a w s).top.waking ∧ (stallNoted path a w s).regs = s.regs ∧
      changesOnly [.regs, .top] s (stallNoted path a w s) :=
  ⟨rfl, mem_insertNat.mpr (.inl rfl), rfl, .top (.refl _ s)⟩

theorem stalled_stallBytes (path : Path) (a : Nat) (w : Option (W32 × Nat)) (s : State) :
    Stalled path a w s (stallBytes path a w s) := by
  obtain ⟨list, waking, regs, parts⟩ := stallNoted_spec path a w s
  change Stalled path a w s (setF F.PWR_STATE_IN_TRANSITION 1 (stallNoted path a w s))
  generalize stallNoted path a w s = u at *
  refine ⟨(congrArg TopSt.stalled (setF_top ..)).trans list, (setF_top F.PWR_STATE_IN_TRANSITION 1 u).symm ▸ waking, ?_,
    .setF (.of_regs regs) _ _ rfl, .setF parts _ _⟩
  rw [isSet, getF_setF_same _ _ _ (by unfold Fld.ok; decide)]
  rfl

end Sys2Proof.Machine

end

/-! ## A write of a register by its path is its row (R11, R500) -/

section

-- One proof after another: elaborated side by side, the proofs of this text take more memory than its check allows.
set_option Elab.async false

namespace Sys2Proof.Machine

variable {s t u : State} {path : Path} {a v o k ty inst base : Nat} {w : W32}

/-! ### The rows of the window -/

/-- A block's pages share its entry. -/
theorem blockOf_add (hb : base % 0x1000 = 0) (ho : o < 0x1000) : blockOf (base + o) = blockOf base := by
  have below : ∀ c, c % 0x1000 = 0 → (base + o < c ↔ base < c) := fun c hc => by omega
  have inst : ∀ c, c % 0x1000 = 0 → (base + o - c) / 0x1000 = (base - c) / 0x1000 := fun c hc => by omega
  have page : (base + o) / 0x1000 = base / 0x1000 := by omega
  unfold blockOf
  repeat' refine if_congr (below _ rfl) ?_ ?_
  all_goals simp only [inst 0xA000 rfl, inst 0x14000 rfl, inst 0x20000 rfl, inst 0x40000 rfl, page]

theorem lt_of_blockOf (h : blockOf a = some (ty, inst, base)) : a < 0x80000 := by
  by_contra ha
  rw [blockOf] at h
  iterate 21 rw [if_neg (by omega)] at h
  cases h

theorem findRow_isSome {rows : List RegRow} {r : RegRow} (hr : r ∈ rows) (hoff : r.off ≤ o)
    (hrow : (if r.stride = 0 then decide (o = r.off)
      else decide ((o - r.off) % r.stride = 0) && decide ((o - r.off) / r.stride < r.count)) = true) :
    ∃ r', findRow rows o = some r' := by
  refine Option.isSome_iff_exists.mp (List.find?_isSome.mpr ⟨r, hr, ?_⟩)
  rw [hrow, decide_eq_true hoff]
  rfl

/-- A write with a rule of its own. -/
theorem writeWord_of_rule {f : State → State} {r : RegRow} (ha : a < 0x100000) (hb : blockOf a = some (ty, inst, base))
    (hr : rowAt a = some r) (ho : 0x30 ≤ a - base)
    (hf : (writeLow ty inst (a - base) v).orElse (fun _ => writeHigh path ty inst (a - base) v s) = some f) :
    writeWord path a v s = f s := by
  rw [writeWord, if_neg (by omega), hb, hr]
  simp only [if_neg (Nat.not_lt.mpr ho), hf]

/-- A write with no rule of its own. -/
theorem writeWord_of_plain {r : RegRow} (ha : a < 0x100000 ∨ 0x140000 ≤ a) (hb : blockOf a = some (ty, inst, base))
    (hr : rowAt a = some r) (ho : 0x30 ≤ a - base)
    (hf : (writeLow ty inst (a - base) v).orElse (fun _ => writeHigh path ty inst (a - base) v s) = none) :
    writeWord path a v s = plainWrite a v s := by
  rw [writeWord, if_neg (by omega), hb, hr]
  simp only [if_neg (Nat.not_lt.mpr ho), hf]

/-- A write of the common layout. -/
theorem writeWord_of_common {r : RegRow} (hb : blockOf a = some (ty, inst, base)) (hr : rowAt a = some r)
    (ho : a - base < 0x30) : writeWord path a v s = writeCommon base (a - base) v s := by
  have ha := lt_of_blockOf hb
  rw [writeWord, if_neg (by omega), hb, hr]
  simp only [if_pos ho]

/-! ### The common layout -/

theorem writeWord_page {r : RegRow} (hp : isPage base = true) (ho : o < 0x30) (hr : findRow rowsCommon o = some r) :
    base < 0x80000 ∧ base % 0x1000 = 0 ∧ writeWord path (base + o) v s = writeCommon base o v s := by
  obtain ⟨ty, inst, hb⟩ := blockOf_of_isPage hp
  have whole := (blockLaid_of_blockOf hb).whole
  have hb' : blockOf (base + o) = some (ty, inst, base) := (blockOf_add whole (by omega)).trans hb
  have hrow : rowAt (base + o) = some r := by
    rw [rowAt, hb']
    simp only [Nat.add_sub_cancel_left, if_pos ho, hr]
  refine ⟨lt_of_blockOf hb, whole, ?_⟩
  rw [writeWord_of_common hb' hrow (by omega), Nat.add_sub_cancel_left]

/-! ### A row is a write of its register -/

/-- A row meets its page with the effect `f`, which a write by its path has too. -/
structure RowIs (s : State) (c : Instr) (path : Path) (a : Nat) (w : W32) (f : State → State) : Prop where
  row : exec c s = .next (guarded path a w f s)
  own : ownWrite c = true → a < windowSize ∧ a % 4 = 0 ∧ (reach s a = .ok → writeWord path a w.toNat s = f s)

variable {c : Instr} {r : RegRow}

theorem ofNat_toNat_w32 (w : W32) : BitVec.ofNat 32 w.toNat = w := by rw [BitVec.ofNat_toNat, BitVec.setWidth_eq]

/-- A row whose register has a rule of its own for the number written. -/
theorem RowIs.of_rule {f : Nat → State → State} (hrow : exec c s = .next (guarded path a w (f w.toNat) s)) (ha : a < 0x100000)
    (hw : a % 4 = 0) (hb : blockOf a = some (ty, inst, base)) (hr : rowAt a = some r) (ho : 0x30 ≤ a - base)
    (hf : (writeLow ty inst (a - base) w.toNat).orElse (fun _ => writeHigh path ty inst (a - base) w.toNat s) = some (f w.toNat)) :
    RowIs s c path a w (f w.toNat) :=
  ⟨hrow, fun _ => ⟨ha.trans (by decide), hw, fun _ => writeWord_of_rule ha hb hr ho hf⟩⟩

/-- A row whose register has a rule of its own for the word written. -/
theorem RowIs.of_word (f : W32 → State → State) (hrow : exec c s = .next (guarded path a w (f w) s)) (ha : a < 0x100000)
    (hw : a % 4 = 0) (hb : blockOf a = some (ty, inst, base)) (hr : rowAt a = some r) (ho : 0x30 ≤ a - base)
    (hf : (writeLow ty inst (a - base) w.toNat).orElse (fun _ => writeHigh path ty inst (a - base) w.toNat s) =
      some (f (BitVec.ofNat 32 w.toNat))) : RowIs s c path a w (f w) := by
  refine .of_rule (f := fun _ => f w) hrow ha hw hb hr ho ?_
  rw [hf, ofNat_toNat_w32]

/-! ### Registers of one place -/

theorem rowIs_kilnMinLevel (w : W32) (s : State) : RowIs s (.kilnMinLevelWrite w) .onChip Reg.KILN_CFG w (minLevelWrite w) :=
  .of_word minLevelWrite rfl (by decide) rfl rfl rfl (by decide) rfl

theorem rowIs_beatSrc (w : W32) (s : State) : RowIs s (.beatSrcWrite w) .onChip Reg.BEAT_CTRL w (ctrlWrite w) :=
  .of_word ctrlWrite rfl (by decide) rfl rfl rfl (by decide) rfl

theorem rowIs_beatHostOffset (w : W32) (s : State) :
    RowIs s (.beatHostOffsetWrite w) .onChip Reg.BEAT_HOST_OFFSET_HI w (offsetWrite w) :=
  .of_word offsetWrite rfl (by decide) rfl rfl rfl (by decide) rfl

theorem rowIs_beatOrigin (hi : Bool) (w : W32) (s : State) :
    RowIs s (.beatOriginWrite hi w) .onChip (if hi then Reg.BEAT_ORIGIN_HI else Reg.BEAT_ORIGIN_LO) w (originWrite hi w) := by
  cases hi
  · exact .of_word (originWrite false) rfl (by decide) rfl rfl rfl (by decide) rfl
  · exact .of_word (originWrite true) rfl (by decide) rfl rfl rfl (by decide) rfl

theorem rowIs_hodSwreq (w : W32) (s : State) : RowIs s (.hodSwreqWrite w) .onChip Reg.HOD_SWREQ w (swreqWrite w) :=
  .of_word swreqWrite rfl (by decide) rfl rfl rfl (by decide) rfl

theorem rowIs_evtFwRaise (w : W32) (s : State) : RowIs s (.evtFwRaiseWrite w) .onChip Reg.EVT_FW_RAISE w (fwRaise w) :=
  .of_word fwRaise rfl (by decide) rfl rfl rfl (by decide) rfl

theorem rowIs_recCursor (w : W32) (s : State) : RowIs s (.recCursorWrite w) .onChip Reg.REC_CURSOR w (recCursorDo w.toNat) :=
  .of_rule (f := recCursorDo) rfl (by decide) rfl rfl rfl (by decide) rfl

theorem rowIs_sortCfg (w : W32) (s : State) : RowIs s (.sortCfgWrite w) .onChip Reg.SORT_CFG w (sortCfg w) :=
  .of_word sortCfg rfl (by decide) rfl rfl rfl (by decide) rfl

theorem rowIs_yardCfg (w : W32) (s : State) : RowIs s (.yardCfgWrite w) .onChip Reg.YARD_CFG w (yardCfg w) :=
  .of_word yardCfg rfl (by decide) rfl rfl rfl (by decide) rfl

theorem rowIs_trowelBudget (w : W32) (s : State) : RowIs s (.trowelBudgetWrite w) .onChip Reg.TROWEL_BUDGET w (budgetWrite w) :=
  .of_word budgetWrite rfl (by decide) rfl rfl rfl (by decide) rfl

theorem rowIs_topCompat (w : W32) (s : State) : RowIs s (.topCompatWrite w) .onChip Reg.TOP_COMPAT w (compatWrite w.toNat) :=
  .of_rule (f := compatWrite) rfl (by decide) rfl rfl rfl (by decide) rfl

theorem rowIs_recNext (s : State) : RowIs s .recNext .onChip Reg.REC_CTRL 4 recNextDo :=
  .of_rule (f := fun _ => recNextDo) rfl (by decide) rfl rfl rfl (by decide) rfl

theorem rowIs_recRefill (s : State) : RowIs s .recRefill .onChip Reg.REC_CTRL 8 snapshot :=
  .of_rule (f := fun _ => snapshot) rfl (by decide) rfl rfl rfl (by decide) rfl

theorem rowIs_topLedgerClear (s : State) : RowIs s .topLedgerClear .onChip Reg.TOP_CTRL 2 ledgerClear :=
  .of_rule (f := fun _ => ledgerClear) rfl (by decide) rfl rfl rfl (by decide) rfl

theorem rowIs_topRestart (s : State) : RowIs s .topRestart .onChip Reg.TOP_CTRL 1 restartWrite :=
  .of_rule (f := fun _ => restartWrite) rfl (by decide) rfl rfl rfl (by decide) rfl

/-! ### A register written field by field -/

theorem plainWrite_of_ordinary (hb : blockOf a = some (ty, inst, base)) (hr : rowAt a = some r) (hc : causePage base = false) :
    plainWrite a v s = setR a (writtenWord r (getR s a) v (isSet s (F.BLK_LOCK_LOCK base))) s := by
  rw [plainWrite, hb, hr]
  simp only [hc, Bool.false_eq_true, if_false]

/-- Two fields that make up a whole word take the word. -/
theorem putBits_fields {old v lo w : Nat} (hold : old < 2 ^ (lo + w)) (hv : v < 2 ^ (lo + w)) :
    putBits (putBits old 0 lo (bitsOf v 0 lo)) lo w (bitsOf v lo w) = v := by
  have hx := putBits_lt old 0 lo (bitsOf v 0 lo) (lo + w) hold (by omega)
  have at0 : ∀ x, bitsOf x 0 lo = x % 2 ^ lo := fun x => by rw [bitsOf, pow_zero, Nat.div_one]
  have low : putBits old 0 lo (bitsOf v 0 lo) % 2 ^ lo = v % 2 ^ lo := by
    rw [← at0, bitsOf_putBits, bitsOf_mod, at0]
  have high : bitsOf v lo w = v / 2 ^ lo := Nat.mod_eq_of_lt (Nat.div_lt_of_lt_mul (by rwa [← pow_add]))
  rw [putBits, Nat.div_eq_of_lt hx, Nat.zero_mul, Nat.add_zero, bitsOf_mod, low, high, Nat.mod_add_div']

/-- A register whose two writable fields make it up takes the word. -/
theorem writtenWord_whole {n c lo w x y old v : Nat} (hold : old < 2 ^ (lo + w)) (hv : v < 2 ^ (lo + w)) (locked : Bool) :
    writtenWord ⟨n, 0, c, [⟨0, lo, .rw, x⟩, ⟨lo, w, .rw, y⟩]⟩ old v locked = v :=
  putBits_fields hold hv

theorem rowIs_beatWinApply (w : W32) (s : State) :
    RowIs s (.beatWinApplyWrite w) .onChip Reg.BEAT_WIN_APPLY w (setR Reg.BEAT_WIN_APPLY w.toNat) := by
  refine ⟨rfl, fun _ => ⟨by decide, rfl, fun _ => ?_⟩⟩
  have hb : blockOf Reg.BEAT_WIN_APPLY = some (4, 0, baseBeat) := rfl
  have hr : rowAt Reg.BEAT_WIN_APPLY = some ⟨0x180, 0, 1, [⟨0, 31, .rw, 0⟩, ⟨31, 1, .rw, 0⟩]⟩ := rfl
  rw [writeWord_of_plain (.inl (by decide)) hb hr (by decide) rfl, plainWrite_of_ordinary hb hr rfl,
    writtenWord_whole (Nat.lt_of_lt_of_eq (getR_lt ..) (by norm_num)) (Nat.lt_of_lt_of_eq w.isLt (by norm_num))]

/-! ### The matcher's registers -/

theorem toNat_sortCmdWord (op i j : Nat) (hop : op < 8) : (sortCmdWord op i j).toNat = i % 4096 + j % 4096 * 4096 + op * 2 ^ 24 := by
  rw [sortCmdWord, BitVec.toNat_ofNat]
  omega

theorem bitsOf_sortCmdWord (op i j : Nat) (hop : op < 8) : bitsOf (sortCmdWord op i j).toNat 0 12 = i % 4096 ∧
    bitsOf (sortCmdWord op i j).toNat 12 12 = j % 4096 ∧ bitsOf (sortCmdWord op i j).toNat 24 3 = op := by
  simp only [toNat_sortCmdWord op i j hop, bitsOf]
  omega

theorem writeWord_sortCmd (w : W32) (s : State) : writeWord path Reg.SORT_CMD w.toNat s = sortCmdWrite w.toNat s :=
  writeWord_of_rule (by decide) rfl rfl (by decide) rfl

theorem rowIs_sortInsert (i j : Nat) (s : State) :
    RowIs s (.sortInsert i j) .onChip Reg.SORT_CMD (sortCmdWord 2 i j) (insertDo (i % 4096) (j % 4096)) := by
  refine ⟨rfl, fun _ => ⟨by decide, rfl, fun _ => ?_⟩⟩
  obtain ⟨hi, hj, hop⟩ := bitsOf_sortCmdWord 2 i j (by decide)
  rw [writeWord_sortCmd, sortCmdWrite]
  simp only [hop, hi, hj]

theorem rowIs_sortDelete (i j : Nat) (s : State) :
    RowIs s (.sortDelete i j) .onChip Reg.SORT_CMD (sortCmdWord 3 i j) (deleteDo (i % 4096) (j % 4096)) := by
  refine ⟨rfl, fun _ => ⟨by decide, rfl, fun _ => ?_⟩⟩
  obtain ⟨hi, hj, hop⟩ := bitsOf_sortCmdWord 3 i j (by decide)
  rw [writeWord_sortCmd, sortCmdWrite]
  simp only [hop, hi, hj]

theorem rowIs_sortInvalidate (i j : Nat) (s : State) :
    RowIs s (.sortInvalidate i j) .onChip Reg.SORT_CMD (sortCmdWord 4 i j) (invalidateDo (i % 4096) (j % 4096)) := by
  refine ⟨rfl, fun _ => ⟨by decide, rfl, fun _ => ?_⟩⟩
  obtain ⟨hi, hj, hop⟩ := bitsOf_sortCmdWord 4 i j (by decide)
  rw [writeWord_sortCmd, sortCmdWrite]
  simp only [hop, hi, hj]

theorem rowIs_sortSave (s : State) : RowIs s .sortSave .onChip Reg.SORT_CMD (sortCmdWord 5 0 0) saveDo :=
  ⟨rfl, fun _ => ⟨by decide, rfl, fun _ => writeWord_sortCmd _ s⟩⟩

theorem rowIs_sortEntryStage (i word : Nat) (w : W32) (s : State) :
    RowIs s (.sortEntryStage i word w) .onChip (sortWindow i word) w (stageWord i word w) := by
  refine ⟨rfl, fun h => ?_⟩
  obtain ⟨hi, hword, hne⟩ := of_decide_eq_true h
  have index : (sortWindow i word - 0x100000) / 64 = i ∧ sortWindow i word % 64 = 4 * word ∧ 4 * word / 4 = word := by
    rw [sortWindow]
    omega
  refine ⟨?_, ?_, fun _ => ?_⟩
  · rw [sortWindow, windowSize]
    omega
  · rw [sortWindow]
    omega
  · rw [writeWord, if_pos (by rw [sortWindow]; omega), index.1, index.2.1, if_neg (by omega), index.2.2, ofNat_toNat_w32]

theorem rowIs_sortEntryCommit (i : Nat) (w : W32) (s : State) :
    RowIs s (.sortEntryCommit i w) .onChip (sortWindow i 7) w (commitEntry i w) := by
  refine ⟨rfl, fun h => ?_⟩
  have hi := of_decide_eq_true h
  have index : (sortWindow i 7 - 0x100000) / 64 = i ∧ sortWindow i 7 % 64 = 0x1C := by
    rw [sortWindow]
    omega
  refine ⟨?_, ?_, fun _ => ?_⟩
  · rw [sortWindow, windowSize]
    omega
  · rw [sortWindow]
    omega
  · rw [writeWord, if_pos (by rw [sortWindow]; omega), index.1, if_pos index.2, ofNat_toNat_w32]

/-! ### The mailbox -/

/-- What a mailbox command does once its page answers. -/
def mbxInner (path : Path) (f : State → State) (t : State) : State :=
  if isSet t F.SEC_MBX_STATUS_BUSY then
    happen baseSec 15 (setF F.SEC_MBX_STATUS_RESULT mbxBusy (setF F.SEC_MBX_STATUS_PATH (pathCode path) t))
  else f (setF F.SEC_MBX_STATUS_PATH (pathCode path) t)

theorem writeWord_mbx (v : Nat) (s : State) : writeWord path Reg.SEC_MBX_CMD v s = mbxWrite path v s :=
  writeWord_of_rule (by decide) rfl rfl (by decide) rfl

theorem mbx_of_ok {op : Nat} {f : State → State} (h : reach s Reg.SEC_MBX_CMD = .ok) : mbx path op f s = mbxInner path f s :=
  guarded_ok _ h

theorem rowIs_of_mbx {op : Nat} (f : State → State) (hrow : exec c s = .next (mbx path op f s)) (hop : op < 2 ^ 32)
    (hw : mbxWrite path op s = mbx path op f s) : RowIs s c path Reg.SEC_MBX_CMD (BitVec.ofNat 32 op) (mbxInner path f) := by
  refine ⟨hrow, fun _ => ⟨by decide, rfl, fun h => ?_⟩⟩
  rw [BitVec.toNat_ofNat, Nat.mod_eq_of_lt hop, writeWord_mbx, hw, mbx_of_ok h]

theorem rowIs_mbxKeyErase (path : Path) (s : State) : ∃ f, RowIs s (.mbxKeyErase path) path Reg.SEC_MBX_CMD 1 f :=
  ⟨_, rowIs_of_mbx (op := 1) _ rfl (by decide) rfl⟩

theorem rowIs_mbxSessionEnd (path : Path) (s : State) : ∃ f, RowIs s (.mbxSessionEnd path) path Reg.SEC_MBX_CMD 2 f :=
  ⟨_, rowIs_of_mbx (op := 2) _ rfl (by decide) rfl⟩

theorem rowIs_mbxChallenge (path : Path) (s : State) : ∃ f, RowIs s (.mbxChallenge path) path Reg.SEC_MBX_CMD 3 f :=
  ⟨_, rowIs_of_mbx (op := 3) _ rfl (by decide) rfl⟩

/-- A row that says more than its word, or less, meets its page all the same. -/
theorem RowIs.of_guarded {f : State → State} (hrow : exec c s = .next (guarded path a w f s)) (hown : ownWrite c = false) :
    ∃ f, RowIs s c path a w f :=
  ⟨f, hrow, fun h => absurd h (by rw [hown]; exact Bool.false_ne_true)⟩

/-! ### The Hod's channels -/

theorem hodReg_spec (hk : k < 32) (ho : 0x100 ≤ o) (ho' : o < 0x180) : blockOf (0x10000 + o + 0x80 * k) = some (11, 0, 0x10000) ∧
    0x10000 + o + 0x80 * k - 0x10000 = o + 0x80 * k ∧ ((o + 0x80 * k) - 0x100) / 0x80 = k ∧ (o + 0x80 * k) % 0x80 = o - 0x100 ∧
    o + 0x80 * k < 0x1100 := by
  refine ⟨?_, by omega⟩
  rw [blockOf]
  iterate 10 rw [if_neg (by omega)]
  rw [if_pos (by omega)]

theorem rowAt_hod {r : RegRow} (hk : k < 32) (ho : 0x100 ≤ o) (ho' : o < 0x180) (hr : r ∈ rowsHod)
    (hoff : r.off = o) (hstride : r.stride = 0x80) (hcount : r.count = 32) : ∃ r', rowAt (0x10000 + o + 0x80 * k) = some r' := by
  obtain ⟨hb, hsub, -, -, -⟩ := hodReg_spec hk ho ho'
  rw [rowAt, hb]
  simp only [hsub, if_neg (show ¬ o + 0x80 * k < 0x30 by omega)]
  refine findRow_isSome hr (by omega) ?_
  rw [hoff, hstride, hcount, if_neg (by decide), Nat.add_sub_cancel_left, Nat.mul_mod_right, Nat.mul_div_cancel_left _ (by decide)]
  simpa using hk

theorem writeWord_hod {r : RegRow} {f : State → State} (hk : k < 32) (ho : 0x100 ≤ o) (ho' : o < 0x180) (hr : r ∈ rowsHod)
    (hoff : r.off = o) (hstride : r.stride = 0x80) (hcount : r.count = 32)
    (hf : writeHigh path 11 0 (o + 0x80 * k) w.toNat s = some f) : writeWord path (0x10000 + o + 0x80 * k) w.toNat s = f s := by
  obtain ⟨hb, hsub, -, -, -⟩ := hodReg_spec hk ho ho'
  obtain ⟨r', hrow⟩ := rowAt_hod hk ho ho' hr hoff hstride hcount
  exact writeWord_of_rule (by omega) hb hrow (by omega) (hsub ▸ hf)

theorem writeHigh_hod (hk : k < 32) (hreg : o = 0x100 ∨ o = 0x114 ∨ o = 0x118) (w : W32) (s : State) :
    writeHigh path 11 0 (o + 0x80 * k) w.toNat s =
      some (if o = 0x100 then ctrlCh k w else nextWrite k (decide (o = 0x118)) w) := by
  have hch : (o + 0x80 * k - 0x100) / 0x80 = k := by omega
  have hmod : (o + 0x80 * k) % 0x80 = o - 0x100 := by omega
  rw [writeHigh]
  simp only [if_neg (show ¬ o + 0x80 * k = 0x1104 by omega), if_neg (show ¬ 0x1100 ≤ o + 0x80 * k by omega), hch, hmod,
    ofNat_toNat_w32]
  rcases hreg with rfl | rfl | rfl <;> rfl

theorem ctrlCh_spec (k : Nat) (s : State) : ctrlCh k 1 s = startCh k s ∧ ctrlCh k 2 s = kickCh k s ∧ ctrlCh k 4 s = abortCh k s :=
  ⟨rfl, rfl, rfl⟩

theorem writeWord_hodCtrl (hk : k < 32) (w : W32) (s : State) : writeWord path (Reg.HOD_CH_CTRL k) w.toNat s = ctrlCh k w s :=
  writeWord_hod (r := ⟨0x100, 128, 32, [⟨0, 1, .wo, 0⟩, ⟨1, 1, .wo, 0⟩, ⟨2, 1, .wo, 0⟩]⟩) (o := 0x100) hk (by decide) (by decide)
    (by simp [rowsHod]) rfl rfl rfl (writeHigh_hod hk (.inl rfl) w s)

theorem RowIs.of_ctrl {f : State → State} (hk : k < 32) (hrow : exec c s = .next (onCh k (guarded .onChip (Reg.HOD_CH_CTRL k) w f) s))
    (hf : ctrlCh k w s = f s) : RowIs s c .onChip (Reg.HOD_CH_CTRL k) w f := by
  refine ⟨hrow.trans (congrArg _ (if_pos hk)), fun _ => ⟨?_, ?_, fun _ => (writeWord_hodCtrl hk w s).trans hf⟩⟩
  · rw [Reg.HOD_CH_CTRL, windowSize]
    omega
  · rw [Reg.HOD_CH_CTRL]
    omega

theorem rowIs_hodStart (hk : k < 32) (s : State) : RowIs s (.hodStart k) .onChip (Reg.HOD_CH_CTRL k) 1 (startCh k) :=
  .of_ctrl hk rfl (ctrlCh_spec k s).1

theorem rowIs_hodKick (hk : k < 32) (s : State) : RowIs s (.hodKick k) .onChip (Reg.HOD_CH_CTRL k) 2 (kickCh k) :=
  .of_ctrl hk rfl (ctrlCh_spec k s).2.1

theorem rowIs_hodAbort (hk : k < 32) (s : State) : RowIs s (.hodAbort k) .onChip (Reg.HOD_CH_CTRL k) 4 (abortCh k) :=
  .of_ctrl hk rfl (ctrlCh_spec k s).2.2

theorem rowIs_hodChNext (hk : k < 32) (hi : Bool) (w : W32) (s : State) :
    RowIs s (.hodChNextWrite k hi w) .onChip (if hi then Reg.HOD_CH_NEXT_HI k else Reg.HOD_CH_NEXT_LO k) w (nextWrite k hi w) := by
  have hlo : Reg.HOD_CH_NEXT_LO k = 0x10114 + 0x80 * k := rfl
  have hhi : Reg.HOD_CH_NEXT_HI k = 0x10118 + 0x80 * k := rfl
  refine ⟨congrArg Host.Outcome.next (if_pos hk), fun _ => ?_⟩
  cases hi
  · refine ⟨by simp only [windowSize, Bool.false_eq_true, if_false]; omega, by simp only [Bool.false_eq_true, if_false]; omega, fun _ => ?_⟩
    exact writeWord_hod (r := ⟨0x114, 128, 32, [⟨0, 32, .rw, 0⟩]⟩) (o := 0x114) hk (by decide) (by decide)
      (by simp [rowsHod]) rfl rfl rfl (writeHigh_hod hk (.inr (.inl rfl)) w s)
  · refine ⟨by simp only [windowSize, if_true]; omega, by simp only [if_true]; omega, fun _ => ?_⟩
    exact writeWord_hod (r := ⟨0x118, 128, 32, [⟨0, 32, .rw, 0⟩]⟩) (o := 0x118) hk (by decide) (by decide)
      (by simp [rowsHod]) rfl rfl rfl (writeHigh_hod hk (.inr (.inr rfl)) w s)

/-! ### Routes and tiles -/

theorem rowIs_evtRoute {src : Nat} (hsrc : src < 256) (w : W32) (s : State) :
    RowIs s (.evtRouteWrite src w) .onChip (Reg.EVT_ROUTE src) w (routeWrite src w) := by
  have hval : Reg.EVT_ROUTE src = 0x4400 + 4 * src := rfl
  refine ⟨congrArg Host.Outcome.next (if_pos hsrc), fun _ => ⟨by rw [windowSize]; omega, by omega, fun _ => ?_⟩⟩
  have hb : blockOf (Reg.EVT_ROUTE src) = some (5, 0, 0x4000) := by
    rw [blockOf]
    iterate 4 rw [if_neg (by omega)]
    rw [if_pos (by omega)]
  have hsub : Reg.EVT_ROUTE src - 0x4000 = 0x400 + 4 * src := by omega
  obtain ⟨r, hrow⟩ : ∃ r, rowAt (Reg.EVT_ROUTE src) = some r := by
    rw [rowAt, hb]
    simp only [hsub, if_neg (show ¬ 0x400 + 4 * src < 0x30 by omega)]
    refine findRow_isSome (rows := rowsEvt)
      (r := ⟨0x400, 4, 256, [⟨0, 1, .rw, 0⟩, ⟨1, 1, .rw, 0⟩, ⟨2, 1, .rw, 0⟩, ⟨3, 1, .rw, 1⟩, ⟨4, 4, .rw, 10⟩, ⟨8, 3, .rw, 0⟩]⟩)
      (by simp [rowsEvt]) (Nat.le_add_right ..) ?_
    rw [if_neg (by decide), Nat.add_sub_cancel_left, Nat.mul_mod_right, Nat.mul_div_cancel_left _ (by decide)]
    simpa using hsrc
  refine writeWord_of_rule (by omega) hb hrow (by omega) ?_
  rw [hsub, writeLow]
  simp only [if_pos (show 0x400 ≤ 0x400 + 4 * src ∧ 0x400 + 4 * src < 0x800 by omega), Nat.add_sub_cancel_left,
    Nat.mul_div_cancel_left _ (show 0 < 4 by decide), ofNat_toNat_w32]
  rfl

theorem writeWord_tileCmd (hk : k < 64) (v : Nat) (s : State) : writeWord path (Reg.TILE_CMD k) v s = tileCmdWrite k v s := by
  have hval : Reg.TILE_CMD k = 0x40104 + 0x1000 * k := rfl
  have hb : blockOf (Reg.TILE_CMD k) = some (20, k, 0x40000 + 0x1000 * k) := by
    rw [blockOf]
    iterate 20 rw [if_neg (by omega)]
    rw [if_pos (by omega), show (0x40104 + 0x1000 * k - 0x40000) / 0x1000 = k by omega,
      show (0x40104 + 0x1000 * k) / 0x1000 * 0x1000 = 0x40000 + 0x1000 * k by omega]
  have hsub : Reg.TILE_CMD k - (0x40000 + 0x1000 * k) = 0x104 := by omega
  have hrow : rowAt (Reg.TILE_CMD k) = some ⟨0x104, 0, 1, [⟨0, 3, .wo, 0⟩]⟩ := by
    rw [rowAt, hb]
    simp only [hsub]
    rfl
  exact writeWord_of_rule (by omega) hb hrow (by omega) (by rw [hsub]; rfl)

theorem RowIs.of_tile {op : Nat} (hk : k < 64) (hrun : running s = true) (hop : 1 ≤ op ∧ op ≤ 5)
    (hrow : exec c s = .next (tileRow k op none s)) :
    RowIs s c .onChip (Reg.TILE_CMD k) (BitVec.ofNat 32 op) (fun x => (tileOp k op [] x).2) := by
  have hval : Reg.TILE_CMD k = 0x40104 + 0x1000 * k := rfl
  have hopen : ¬ (64 ≤ k ∨ (!running s) = true) := by simp [hrun, hk]
  have hword : (BitVec.ofNat 32 op).toNat = op := by
    rw [BitVec.toNat_ofNat]
    omega
  refine ⟨hrow.trans (congrArg _ ((if_neg hopen).trans rfl)), fun _ => ⟨by rw [windowSize]; omega, by omega, fun _ => ?_⟩⟩
  have hbits : bitsOf op 0 3 = op := by
    rw [bitsOf]
    omega
  rw [hword, writeWord_tileCmd hk, tileCmdWrite]
  simp only [hbits]
  rw [if_pos ⟨hop.1, hop.2, hrun⟩]

end Sys2Proof.Machine

end

/-! ## Register rows meet their page (R11, R423, R424, R497, R500) -/

section

-- One proof after another: elaborated side by side, the proofs of this text take more memory than its check allows.
set_option Elab.async false

namespace Sys2Proof.Machine

variable {s t u : State} {path : Path} {a v o k ty inst base : Nat} {w : W32} {c : Instr} {r : RegRow}

/-! ### BLK_LOCK has no part in a source's level (R448) -/

/-- Every register agrees but for those at the place of BLK_LOCK in a page. -/
def agreeButLocks (s t : State) : Prop := ∀ a, a % 0x1000 ≠ 0x2C → getR t a = getR s a

theorem agreeButLocks.causeOn (h : agreeButLocks s t) {x y : Nat} (hx : x % 0x1000 ≠ 0x2C) (hy : y % 0x1000 ≠ 0x2C) :
    causeOn t x y = causeOn s x y := by
  rw [Machine.causeOn, h x hx, h y hy, ← Machine.causeOn]

theorem agreeButLocks.getF (h : agreeButLocks s t) {f : Fld} (hf : f.addr % 0x1000 ≠ 0x2C) : getF t f = getF s f := by
  rw [Machine.getF, h _ hf, ← Machine.getF]

theorem agreeButLocks.rawWord (h : agreeButLocks s t) (hb : base % 0x1000 = 0) : rawWord t base = rawWord s base := by
  have mem : ∀ m, Machine.causeOn t (Reg.MEMCHK_CAUSE m) (Reg.MEMCHK_CAUSE_EN m) =
      Machine.causeOn s (Reg.MEMCHK_CAUSE m) (Reg.MEMCHK_CAUSE_EN m) := fun _ =>
    h.causeOn (by simp only [Reg.MEMCHK_CAUSE]; omega) (by simp only [Reg.MEMCHK_CAUSE_EN]; omega)
  have map : ∀ c, Machine.causeOn t (Reg.MAPMEM_CAUSE c) (Reg.MAPMEM_CAUSE_EN c) =
      Machine.causeOn s (Reg.MAPMEM_CAUSE c) (Reg.MAPMEM_CAUSE_EN c) := fun _ =>
    h.causeOn (by simp only [Reg.MAPMEM_CAUSE]; omega) (by simp only [Reg.MAPMEM_CAUSE_EN]; omega)
  have hod : ∀ k, Machine.causeOn t (Reg.HOD_CH_CAUSE k) (Reg.HOD_CH_CAUSE_EN k) =
      Machine.causeOn s (Reg.HOD_CH_CAUSE k) (Reg.HOD_CH_CAUSE_EN k) := fun _ =>
    h.causeOn (by simp only [Reg.HOD_CH_CAUSE]; omega) (by simp only [Reg.HOD_CH_CAUSE_EN]; omega)
  have raw : ∀ i, Machine.getF t (bitF (Reg.EVT_RAW base) i) = Machine.getF s (bitF (Reg.EVT_RAW base) i) := fun i =>
    h.getF (show (base + 0x10) % 0x1000 ≠ 0x2C by omega)
  have whole : getR t (Reg.EVT_RAW base) = getR s (Reg.EVT_RAW base) := h _ (show (base + 0x10) % 0x1000 ≠ 0x2C by omega)
  unfold Machine.rawWord
  simp only [mem, map, hod, raw, whole]

theorem agreeButLocks.enWord (h : agreeButLocks s t) (hb : base % 0x1000 = 0) : enWord t base = enWord s base := by
  rw [Machine.enWord, h _ (show (base + 0x14) % 0x1000 ≠ 0x2C by omega), ← Machine.enWord]

theorem agreeButLocks.bitOn (h : agreeButLocks s t) (base i : Nat) (hb : base % 0x1000 = 0) : bitOn t base i = bitOn s base i := by
  rw [Machine.bitOn, pendWord, h.rawWord hb, h.enWord hb, h _ (show (base + 0x18) % 0x1000 ≠ 0x2C by omega), ← pendWord, ← Machine.bitOn]

theorem agreeButLocks.srcOn (h : agreeButLocks s t) (src : Nat) : srcOn t src = srcOn s src := by
  unfold Machine.srcOn
  simp only [h.bitOn baseTop _ rfl, h.bitOn basePwr _ rfl, h.bitOn baseKiln _ rfl, h.bitOn baseBeat _ rfl, h.bitOn baseMemchk _ rfl,
    h.bitOn (baseMapmem _) _ (baseMapmem_page _).1, h.bitOn baseSort _ rfl, h.bitOn baseHod _ rfl, h.bitOn baseMac _ rfl,
    h.bitOn baseSec _ rfl, h.bitOn (baseHost _) _ (baseHost_page _).1, h.bitOn (baseFch _) _ (baseFch_page _).1,
    h.bitOn baseCourse _ rfl, h.bitOn baseTrowel _ rfl, h.bitOn baseLdpc _ rfl, h.bitOn (baseTile _) _ (baseTile_page _).1,
    h.bitOn baseRec _ rfl, h.bitOn baseEvt _ rfl, h.bitOn baseFab _ rfl]

theorem nowAsserted_of_agree (h : agreeButLocks s t) (base : Nat) : nowAsserted base s t = t := by
  unfold nowAsserted
  refine List.foldlRecOn (motive := fun x => x = t) _ _ rfl fun x hx i _ => ?_
  rw [h.srcOn, if_neg (by simp), hx]

/-! ### The common layout -/

theorem writtenWord_lock (n x old v : Nat) (locked : Bool) :
    writtenWord ⟨n, 0, 1, [⟨0, 1, .w1s, x⟩]⟩ old v locked = putBits old 0 1 (Nat.lor (bitsOf old 0 1) (bitsOf v 0 1)) := rfl

theorem plainWrite_lock (hp : isPage base = true) (s : State) :
    plainWrite (Reg.BLK_LOCK base) 1 s = setF (F.BLK_LOCK_LOCK base) 1 s := by
  obtain ⟨ty, inst, hb⟩ := blockOf_of_isPage hp
  have whole := (blockLaid_of_blockOf hb).whole
  have hb' : blockOf (Reg.BLK_LOCK base) = some (ty, inst, base) := (blockOf_add whole (by decide)).trans hb
  have hrow : rowAt (Reg.BLK_LOCK base) = some ⟨0x2C, 0, 1, [⟨0, 1, .w1s, 0⟩]⟩ := by
    rw [rowAt, hb']
    simp only [Nat.add_sub_cancel_left]
    rfl
  have hbit : Nat.lor (bitsOf (getR s (Reg.BLK_LOCK base)) 0 1) (bitsOf 1 0 1) = 1 := by
    obtain h | h : bitsOf (getR s (Reg.BLK_LOCK base)) 0 1 = 0 ∨ bitsOf (getR s (Reg.BLK_LOCK base)) 0 1 = 1 := by
      have := bitsOf_lt (getR s (Reg.BLK_LOCK base)) 0 1
      omega
    all_goals rw [h]; rfl
  have agree : agreeButLocks s (setF (F.BLK_LOCK_LOCK base) 1 s) := fun a ha => getR_setR_ne _ _ fun h =>
    ha (by rw [h, show (F.BLK_LOCK_LOCK base).addr = base + 0x2C from rfl]; omega)
  rw [plainWrite, hb', hrow]
  simp only [writtenWord_lock, hbit]
  change (if causePage base = true then nowAsserted base s (setF (F.BLK_LOCK_LOCK base) 1 s) else setF (F.BLK_LOCK_LOCK base) 1 s) = _
  rw [nowAsserted_of_agree agree, ite_self]

/-- A row of the common layout whose write goes to it alone. -/
theorem RowIs.of_common {f : State → State} (hp : isPage base = true) (ho : o < 0x30) (hw : o % 4 = 0)
    (hr : findRow rowsCommon o = some r) (hrow : exec c s = .next (guarded path (base + o) w f s))
    (hf : writeCommon base o w.toNat s = f s) : RowIs s c path (base + o) w f := by
  obtain ⟨hlt, whole, hword⟩ := writeWord_page (path := path) (v := w.toNat) (s := s) hp ho hr
  exact ⟨hrow, fun _ => ⟨by rw [windowSize]; omega, by omega, fun _ => hword.trans hf⟩⟩

theorem rowIs_evtForce (hp : isPage base = true) (w : W32) (s : State) :
    RowIs s (.evtForceWrite base w) .onChip (Reg.EVT_FORCE base) w (forceWrite base w) :=
  .of_common (o := 0x1C) hp (by decide) rfl rfl (congrArg Host.Outcome.next (if_pos hp)) (by
    change forceWrite base (BitVec.ofNat 32 w.toNat) s = _
    rw [ofNat_toNat_w32])

theorem rowIs_evtEn (hp : isPage base = true) (w : W32) (s : State) :
    RowIs s (.evtEnWrite base w) .onChip (Reg.EVT_EN base) w (enWrite base w) :=
  .of_common (o := 0x14) hp (by decide) rfl rfl (congrArg Host.Outcome.next (if_pos hp)) (by
    change enWrite base (BitVec.ofNat 32 w.toNat) s = _
    rw [ofNat_toNat_w32])

theorem rowIs_evtPend (hp : isPage base = true) (w : W32) (s : State) :
    RowIs s (.evtPendClear base w) .onChip (Reg.EVT_PEND base) w (pendWrite base w) :=
  .of_common (o := 0x18) hp (by decide) rfl rfl (congrArg Host.Outcome.next (if_pos hp)) (by
    change pendWrite base (BitVec.ofNat 32 w.toNat) s = _
    rw [ofNat_toNat_w32])

theorem lt_of_isPage (hp : isPage base = true) : base < 0x80000 := by
  obtain ⟨ty, inst, hb⟩ := blockOf_of_isPage hp
  exact lt_of_blockOf hb

/-- A row on a page of the common layout. -/
theorem blkRow_page (hp : isPage base = true) (o v : Nat) (f : State → State) (s : State) :
    blkRow base o v f s = .next (guarded .onChip (base + o) (BitVec.ofNat 32 v) f s) := by
  have hlt := lt_of_isPage hp
  rw [blkRow, onPage, if_neg (by rw [windowSize]; omega), if_pos hp]

theorem rowIs_blkLock (hp : isPage base = true) (s : State) :
    RowIs s (.blkLockSet base) .onChip (Reg.BLK_LOCK base) 1 (setF (F.BLK_LOCK_LOCK base) 1) :=
  .of_common (o := 0x2C) hp (by decide) rfl rfl (blkRow_page hp ..) (plainWrite_lock hp s)

theorem exec_blkEnable (hp : isPage base = true) (w : W32) (s : State) : exec (.blkEnableWrite base w) s =
    .next (guarded .onChip (Reg.BLK_CTRL base) w (enableWrite base (decide (bitsOf w.toNat 0 1 = 1))) s) :=
  (blkRow_page hp 8 ..).trans (by rw [ofNat_toNat_w32])

theorem exec_blkPowerVote (hp : isPage base = true) (w : W32) (s : State) : exec (.blkPowerVoteWrite base w) s =
    .next (guarded .onChip (Reg.BLK_CTRL base) w (voteWrite base (bitsOf w.toNat 2 2)) s) :=
  (blkRow_page hp 8 ..).trans (by rw [ofNat_toNat_w32])

theorem exec_blkSoftReset (hp : isPage base = true) (s : State) : exec (.blkSoftReset base) s =
    .next (guarded .onChip (Reg.BLK_CTRL base) 2 (softReset base) s) := blkRow_page hp 8 2 (softReset base) s

/-! ### Every row that is one register write -/

theorem RowIs.of_mbx {op : Nat} (f : State → State) (hrow : exec c s = .next (mbx path op f s)) (hown : ownWrite c = false) :
    ∃ f, RowIs s c path Reg.SEC_MBX_CMD (BitVec.ofNat 32 op) f :=
  RowIs.of_guarded (f := mbxInner path f) hrow hown

theorem rowIs_of_guardRow (h : guardRow s c = some (path, a, w)) : ∃ f, RowIs s c path a w f := by
  cases c with
  | kilnMinLevelWrite v =>
    cases h
    exact ⟨_, rowIs_kilnMinLevel _ s⟩
  | beatWinApplyWrite v =>
    cases h
    exact ⟨_, rowIs_beatWinApply _ s⟩
  | beatSrcWrite v =>
    cases h
    exact ⟨_, rowIs_beatSrc _ s⟩
  | beatHostOffsetWrite v =>
    cases h
    exact ⟨_, rowIs_beatHostOffset _ s⟩
  | beatOriginWrite hi v =>
    cases h
    exact ⟨_, rowIs_beatOrigin hi _ s⟩
  | hodStart k =>
    obtain ⟨hk, ⟨⟩⟩ := Option.ite_none_right_eq_some.mp h
    exact ⟨_, rowIs_hodStart hk s⟩
  | hodKick k =>
    obtain ⟨hk, ⟨⟩⟩ := Option.ite_none_right_eq_some.mp h
    exact ⟨_, rowIs_hodKick hk s⟩
  | hodAbort k =>
    obtain ⟨hk, ⟨⟩⟩ := Option.ite_none_right_eq_some.mp h
    exact ⟨_, rowIs_hodAbort hk s⟩
  | hodSwreqWrite v =>
    cases h
    exact ⟨_, rowIs_hodSwreq _ s⟩
  | hodChNextWrite k hi v =>
    obtain ⟨hk, ⟨⟩⟩ := Option.ite_none_right_eq_some.mp h
    exact ⟨_, rowIs_hodChNext hk hi _ s⟩
  | hostLinkRetrain p =>
    cases h
    exact RowIs.of_guarded rfl rfl
  | mapmemRetrain ch ok =>
    cases h
    exact RowIs.of_guarded rfl rfl
  | evtForceWrite base v =>
    obtain ⟨hp, ⟨⟩⟩ := Option.ite_none_right_eq_some.mp h
    exact ⟨_, rowIs_evtForce hp _ s⟩
  | evtEnWrite base v =>
    obtain ⟨hp, ⟨⟩⟩ := Option.ite_none_right_eq_some.mp h
    exact ⟨_, rowIs_evtEn hp _ s⟩
  | evtPendClear base v =>
    obtain ⟨hp, ⟨⟩⟩ := Option.ite_none_right_eq_some.mp h
    exact ⟨_, rowIs_evtPend hp _ s⟩
  | evtRouteWrite src v =>
    obtain ⟨hsrc, ⟨⟩⟩ := Option.ite_none_right_eq_some.mp h
    exact ⟨_, rowIs_evtRoute hsrc _ s⟩
  | evtFwRaiseWrite v =>
    cases h
    exact ⟨_, rowIs_evtFwRaise _ s⟩
  | recNext =>
    cases h
    exact ⟨_, rowIs_recNext s⟩
  | recRefill =>
    cases h
    exact ⟨_, rowIs_recRefill s⟩
  | recCursorWrite v =>
    cases h
    exact ⟨_, rowIs_recCursor _ s⟩
  | recorderFreeze req p =>
    cases req with
    | none => cases h; exact RowIs.of_guarded rfl rfl
    | some r => cases h
  | recorderThaw req p =>
    cases req with
    | none => cases h; exact RowIs.of_guarded rfl rfl
    | some r => cases h
  | sortEntryStage i word v =>
    cases h
    exact ⟨_, rowIs_sortEntryStage i word _ s⟩
  | sortEntryCommit i v =>
    cases h
    exact ⟨_, rowIs_sortEntryCommit i _ s⟩
  | sortInsert i j =>
    cases h
    exact ⟨_, rowIs_sortInsert i j s⟩
  | sortDelete i j =>
    cases h
    exact ⟨_, rowIs_sortDelete i j s⟩
  | sortInvalidate i j =>
    cases h
    exact ⟨_, rowIs_sortInvalidate i j s⟩
  | sortSave =>
    cases h
    exact ⟨_, rowIs_sortSave s⟩
  | sortCfgWrite v =>
    cases h
    exact ⟨_, rowIs_sortCfg _ s⟩
  | tileProvision k req =>
    cases req with
    | none =>
      obtain ⟨⟨hk, hrun⟩, ⟨⟩⟩ := Option.ite_none_right_eq_some.mp h
      exact ⟨_, .of_tile hk hrun (op := 1) (by decide) rfl⟩
    | some r => cases h
  | tileStart k req =>
    cases req with
    | none =>
      obtain ⟨⟨hk, hrun⟩, ⟨⟩⟩ := Option.ite_none_right_eq_some.mp h
      exact ⟨_, .of_tile hk hrun (op := 2) (by decide) rfl⟩
    | some r => cases h
  | tileStop k req =>
    cases req with
    | none =>
      obtain ⟨⟨hk, hrun⟩, ⟨⟩⟩ := Option.ite_none_right_eq_some.mp h
      exact ⟨_, .of_tile hk hrun (op := 3) (by decide) rfl⟩
    | some r => cases h
  | tileRelease k req =>
    cases req with
    | none =>
      obtain ⟨⟨hk, hrun⟩, ⟨⟩⟩ := Option.ite_none_right_eq_some.mp h
      exact ⟨_, .of_tile hk hrun (op := 4) (by decide) rfl⟩
    | some r => cases h
  | tileSetShares k req =>
    cases req with
    | none =>
      obtain ⟨⟨hk, hrun⟩, ⟨⟩⟩ := Option.ite_none_right_eq_some.mp h
      exact ⟨_, .of_tile hk hrun (op := 5) (by decide) rfl⟩
    | some r => cases h
  | yardCfgWrite v =>
    cases h
    exact ⟨_, rowIs_yardCfg _ s⟩
  | trowelBudgetWrite v =>
    cases h
    exact ⟨_, rowIs_trowelBudget _ s⟩
  | topCompatWrite v =>
    cases h
    exact ⟨_, rowIs_topCompat _ s⟩
  | topLedgerClear =>
    cases h
    exact ⟨_, rowIs_topLedgerClear s⟩
  | topRestart =>
    cases h
    exact ⟨_, rowIs_topRestart s⟩
  | blkSoftReset base =>
    obtain ⟨hp, ⟨⟩⟩ := Option.ite_none_right_eq_some.mp h
    exact RowIs.of_guarded (exec_blkSoftReset hp s) rfl
  | blkEnableWrite base v =>
    obtain ⟨hp, ⟨⟩⟩ := Option.ite_none_right_eq_some.mp h
    exact RowIs.of_guarded (exec_blkEnable hp _ s) rfl
  | blkPowerVoteWrite base v =>
    obtain ⟨hp, ⟨⟩⟩ := Option.ite_none_right_eq_some.mp h
    exact RowIs.of_guarded (exec_blkPowerVote hp _ s) rfl
  | blkLockSet base =>
    obtain ⟨hp, ⟨⟩⟩ := Option.ite_none_right_eq_some.mp h
    exact ⟨_, rowIs_blkLock hp s⟩
  | mbxKeyErase p =>
    cases h
    exact rowIs_mbxKeyErase _ s
  | mbxSessionEnd p =>
    cases h
    exact rowIs_mbxSessionEnd _ s
  | mbxChallenge p =>
    cases h
    exact rowIs_mbxChallenge _ s
  | mbxDebugUnlock p auth =>
    cases h
    exact RowIs.of_mbx (op := 4) _ rfl rfl
  | mbxSvnCommit p back =>
    cases h
    exact RowIs.of_mbx (op := 5) _ rfl rfl
  | mbxRootRevoke p auth =>
    cases h
    exact RowIs.of_mbx (op := 6) _ rfl rfl
  | _ => cases h

/-! ### What a row meets -/

theorem RowIs.of_disabled {f : State → State} (hi : RowIs s c path a w f) (h : reach s a = .disabled) :
    exec c s = .next (accessDisabled a s) := by
  rw [hi.row, guarded, h]

theorem RowIs.of_sleeping {f : State → State} (hi : RowIs s c path a w f) (h : reach s a = .sleeping) :
    exec c s = .next (stallBytes path a (some (w, 15)) s) := by
  rw [hi.row, guarded, h]
  rfl

theorem exec_registerWrite {bytes : Nat} (ha : a < windowSize) (hal : a % 4 = 0) (w : W32) (s : State) :
    exec (.registerWrite path a w bytes) s = .next (writeAccess path a w.toNat bytes s) := by
  have hword : a / 4 * 4 = a := by omega
  exact (if_pos ha).trans (by rw [hword])

/-- A write by its path meets the page as the row does. -/
theorem RowIs.registerWrite {f : State → State} (hi : RowIs s c path a w f) (hown : ownWrite c = true) :
    exec (.registerWrite path a w 15) s = exec c s := by
  obtain ⟨ha, hal, hword⟩ := hi.own hown
  rw [exec_registerWrite ha hal]
  cases hreach : reach s a with
  | ok =>
    rw [hi.row, guarded_ok _ hreach, writeAccess, hreach]
    exact congrArg Host.Outcome.next (hword hreach)
  | disabled => rw [hi.of_disabled hreach, writeAccess, hreach]
  | sleeping => rw [hi.of_sleeping hreach, writeAccess, hreach, ofNat_toNat_w32]

/-- Settles O57: each row is one write of its register, guarded by its page. -/
theorem registerRowsMeetTheirPage : Obligations.RegisterRowsMeetTheirPage := by
  unfold Obligations.RegisterRowsMeetTheirPage
  intro s c path a w h
  obtain ⟨f, hi⟩ := rowIs_of_guardRow h
  refine ⟨fun hoff => ?disabled, fun hsleep => ?sleeping, hi.registerWrite⟩
  case disabled =>
    obtain ⟨ty, inst, base, hb⟩ := blockOf_of_disabled hoff
    have off := disabled_accessDisabled s hb
    refine ⟨_, hi.of_disabled hoff, fun ty' inst' base' hb' => ?_, off.kept, off.parts⟩
    obtain ⟨rfl, rfl, rfl⟩ := Prod.mk.injEq .. ▸ Option.some.inj (hb.symm.trans hb')
    exact ⟨off.event, off.info⟩
  case sleeping =>
    have stall := stalled_stallBytes path a (some (w, 15)) s
    exact ⟨_, hi.of_sleeping hsleep, stall.list, stall.waking, stall.moving, stall.kept, stall.parts⟩

end Sys2Proof.Machine

end

/-! ## The fields of a register word (R11, R502) -/

section

-- One proof after another: elaborated side by side, the proofs of this text take more memory than its check allows.
set_option Elab.async false

namespace Sys2Proof.Machine

variable {s t u : State} {path : Path} {a v o k ty inst base : Nat} {w : W32} {r : RegRow}

/-! ### Fields apart -/

theorem bitsOf_putBits_apart {x lo w y lo' w' : Nat} (h : lo' + w' ≤ lo ∨ lo + w ≤ lo') :
    bitsOf (putBits x lo w y) lo' w' = bitsOf x lo' w' :=
  h.elim (bitsOf_putBits_below _ _ _ _ _ _) (bitsOf_putBits_above _ _ _ _ _ _)

/-- A row's fields lie in the word, each below the next. -/
structure RowLaid (fs : List RegFld) : Prop where
  within : ∀ f ∈ fs, f.lo + f.w ≤ 32
  apart : fs.Pairwise fun f g => f.lo + f.w ≤ g.lo

theorem rowLaid_iff {fs : List RegFld} :
    RowLaid fs ↔ (∀ f ∈ fs, f.lo + f.w ≤ 32) ∧ fs.Pairwise fun f g => f.lo + f.w ≤ g.lo :=
  ⟨fun h => ⟨h.within, h.apart⟩, fun h => ⟨h.1, h.2⟩⟩

/-- A table's rows are laid so. -/
def tableLaid (rows : List RegRow) : Bool :=
  rows.all fun r => decide ((∀ f ∈ r.flds, f.lo + f.w ≤ 32) ∧ r.flds.Pairwise fun f g => f.lo + f.w ≤ g.lo)

theorem rowLaid_of_table {rows : List RegRow} (h : tableLaid rows = true) (hr : r ∈ rows) : RowLaid r.flds :=
  rowLaid_iff.mpr (of_decide_eq_true (List.all_eq_true.mp h r hr))

theorem tableLaid_blockRows (ty : Nat) : tableLaid (blockRows ty) = true := by
  unfold blockRows
  split <;> decide

theorem rowLaid_of_rowAt (h : rowAt a = some r) : RowLaid r.flds := by
  unfold rowAt at h
  split at h
  · cases h
  · split at h
    · exact rowLaid_of_table (by decide) (List.mem_of_find?_eq_some h)
    · exact rowLaid_of_table (tableLaid_blockRows _) (List.mem_of_find?_eq_some h)

/-! ### A word changed field by field -/

/-- A change of a word that touches one field alone, and looks at no other. -/
structure FieldStep (g : RegFld → Nat → Nat) : Prop where
  put : ∀ f x, g f x = x ∨ ∃ y, g f x = putBits x f.lo f.w y
  own : ∀ f x y, bitsOf x f.lo f.w = bitsOf y f.lo f.w → bitsOf (g f x) f.lo f.w = bitsOf (g f y) f.lo f.w

theorem FieldStep.other {g : RegFld → Nat → Nat} (hg : FieldStep g) {f h : RegFld} (hap : f.lo + f.w ≤ h.lo ∨ h.lo + h.w ≤ f.lo) (x : Nat) :
    bitsOf (g f x) h.lo h.w = bitsOf x h.lo h.w := by
  rcases hg.put f x with hx | ⟨y, hx⟩
  · rw [hx]
  · rw [hx, bitsOf_putBits_apart hap.symm]

theorem FieldStep.lt {g : RegFld → Nat → Nat} (hg : FieldStep g) {f : RegFld} {x : Nat} (hf : f.lo + f.w ≤ 32) (hx : x < 2 ^ 32) :
    g f x < 2 ^ 32 := by
  rcases hg.put f x with h | ⟨y, h⟩
  · rwa [h]
  · rw [h]
    exact putBits_lt _ _ _ _ _ hx hf

/-- Changed one after another, each field is as its own change leaves it. -/
theorem FieldStep.foldl {g : RegFld → Nat → Nat} (hg : FieldStep g) {fs : List RegFld} (hl : RowLaid fs) (x : Nat) :
    (∀ f ∈ fs, bitsOf (fs.foldl (fun x f => g f x) x) f.lo f.w = bitsOf (g f x) f.lo f.w) ∧
      (∀ h : RegFld, (∀ f ∈ fs, f.lo + f.w ≤ h.lo ∨ h.lo + h.w ≤ f.lo) →
        bitsOf (fs.foldl (fun x f => g f x) x) h.lo h.w = bitsOf x h.lo h.w) ∧
      (x < 2 ^ 32 → fs.foldl (fun x f => g f x) x < 2 ^ 32) := by
  induction fs generalizing x with
  | nil => exact ⟨fun _ h => absurd h List.not_mem_nil, fun _ _ => rfl, fun h => h⟩
  | cons k fs ih =>
    obtain ⟨hk, hrest⟩ := List.pairwise_cons.mp hl.apart
    obtain ⟨each, rest, lt⟩ := ih ⟨fun f hf => hl.within f (List.mem_cons_of_mem _ hf), hrest⟩ (g k x)
    rw [List.foldl_cons]
    refine ⟨fun f hf => ?_, fun h hap => ?_, fun hx => lt (hg.lt (hl.within k List.mem_cons_self) hx)⟩
    · rcases List.mem_cons.mp hf with rfl | hf
      · exact rest f fun f' hf' => .inr (hk f' hf')
      · exact (each f hf).trans (hg.own f _ _ (hg.other (.inl (hk f hf)) x))
    · exact (rest h fun f hf => hap f (List.mem_cons_of_mem _ hf)).trans (hg.other (hap k List.mem_cons_self) x)

/-! ### A word written (R11) -/

/-- A field's bits after a write, by its access code. -/
def writtenBits (old v : Nat) (locked : Bool) (f : RegFld) : Nat :=
  match f.acc with
  | .rw => bitsOf v f.lo f.w
  | .rws => bitsOf v f.lo f.w
  | .rwl => if locked then bitsOf old f.lo f.w else bitsOf v f.lo f.w
  | .w1c => Nat.land (bitsOf old f.lo f.w) (2 ^ f.w - 1 - bitsOf v f.lo f.w)
  | .w1s => Nat.lor (bitsOf old f.lo f.w) (bitsOf v f.lo f.w)
  | _ => bitsOf old f.lo f.w

theorem writtenBits_lt (old v : Nat) (locked : Bool) (f : RegFld) : writtenBits old v locked f < 2 ^ f.w := by
  unfold writtenBits
  split
  · exact bitsOf_lt ..
  · exact bitsOf_lt ..
  · split <;> exact bitsOf_lt ..
  · exact Nat.and_le_left.trans_lt (bitsOf_lt ..)
  · exact Nat.or_lt_two_pow (bitsOf_lt ..) (bitsOf_lt ..)
  · exact bitsOf_lt ..

/-- A field's part in a write. -/
def writeField (old v : Nat) (locked : Bool) (f : RegFld) (x : Nat) : Nat :=
  match f.acc with
  | .rw => putBits x f.lo f.w (bitsOf v f.lo f.w)
  | .rws => putBits x f.lo f.w (bitsOf v f.lo f.w)
  | .rwl => if locked then x else putBits x f.lo f.w (bitsOf v f.lo f.w)
  | .w1c => putBits x f.lo f.w (Nat.land (bitsOf old f.lo f.w) (2 ^ f.w - 1 - bitsOf v f.lo f.w))
  | .w1s => putBits x f.lo f.w (Nat.lor (bitsOf old f.lo f.w) (bitsOf v f.lo f.w))
  | _ => x

theorem writtenWord_eq (r : RegRow) (old v : Nat) (locked : Bool) :
    writtenWord r old v locked = r.flds.foldl (fun x f => writeField old v locked f x) old := rfl

theorem writeField_eq (old v : Nat) (locked : Bool) (f : RegFld) :
    (∀ x, writeField old v locked f x = x) ∧ writtenBits old v locked f = bitsOf old f.lo f.w ∨
      ∀ x, writeField old v locked f x = putBits x f.lo f.w (writtenBits old v locked f) := by
  unfold writeField writtenBits
  cases f.acc with
  | rwl => cases locked <;> simp
  | _ => simp

theorem fieldStep_writeField (old v : Nat) (locked : Bool) : FieldStep (writeField old v locked) := by
  refine ⟨fun f x => ?_, fun f x y h => ?_⟩
  · rcases writeField_eq old v locked f with ⟨hx, -⟩ | hx
    · exact .inl (hx x)
    · exact .inr ⟨_, hx x⟩
  · rcases writeField_eq old v locked f with ⟨hx, -⟩ | hx
    · rw [hx, hx, h]
    · rw [hx, hx, bitsOf_putBits, bitsOf_putBits]

theorem bitsOf_writeField (old v : Nat) (locked : Bool) (f : RegFld) :
    bitsOf (writeField old v locked f old) f.lo f.w = writtenBits old v locked f := by
  rcases writeField_eq old v locked f with ⟨hx, hb⟩ | hx
  · rw [hx, hb]
  · rw [hx, bitsOf_putBits, Nat.mod_eq_of_lt (writtenBits_lt ..)]

/-- A write leaves each field as its access code says, and a word. -/
theorem writtenWord_spec (hl : RowLaid r.flds) {old : Nat} (hold : old < 2 ^ 32) (v : Nat) (locked : Bool) :
    (∀ f ∈ r.flds, bitsOf (writtenWord r old v locked) f.lo f.w = writtenBits old v locked f) ∧ writtenWord r old v locked < 2 ^ 32 := by
  obtain ⟨each, -, lt⟩ := (fieldStep_writeField old v locked).foldl hl old
  rw [writtenWord_eq]
  exact ⟨fun f hf => (each f hf).trans (bitsOf_writeField ..), lt hold⟩

/-- What a write field by field leaves. -/
structure Written (r : RegRow) (a v : Nat) (base : Nat) (s t : State) : Prop where
  fields : ∀ f ∈ r.flds, fieldsWritten s t a v (isSet s (F.BLK_LOCK_LOCK base)) f
  kept : regsKept (· = a) s t
  parts : changesOnly [.regs, .msixDue] s t
  ordinary : causePage base = false → changesOnly [.regs] s t

theorem nowAsserted_spec (base : Nat) (s0 s : State) :
    (∀ a, rd (nowAsserted base s0 s) a = rd s a) ∧ changesOnly [.regs, .msixDue] s (nowAsserted base s0 s) := by
  unfold nowAsserted
  refine List.foldlRecOn (motive := fun t => (∀ a, rd t a = rd s a) ∧ changesOnly [.regs, .msixDue] s t) _ _
    ⟨fun _ => rfl, .refl _ s⟩ fun t ht i _ => ?_
  split
  · exact ⟨fun a => (rd_onAssert _ _ _).trans (ht.1 a), ht.2.trans (changesOnly_onAssert _ t)⟩
  · exact ht

theorem fieldsWritten_of_rd {x : Nat} {locked : Bool} {f : RegFld} (h : getR t a = x) (hf : bitsOf x f.lo f.w = writtenBits (getR s a) v locked f) :
    fieldsWritten s t a v locked f := by
  rw [fieldsWritten, h, hf]
  rfl

theorem written_plainWrite (hb : blockOf a = some (ty, inst, base)) (hr : rowAt a = some r) (v : Nat) (s : State) :
    Written r a v base s (plainWrite a v s) := by
  obtain ⟨each, lt⟩ := writtenWord_spec (rowLaid_of_rowAt hr) (getR_lt s a) v (isSet s (F.BLK_LOCK_LOCK base))
  have hval : ∀ x : Nat, x < 2 ^ 32 → getR (setR a x s) a = x := fun x hx => (getR_setR_same ..).trans (Nat.mod_eq_of_lt hx)
  have kept : ∀ x : Nat, regsKept (· = a) s (setR a x s) := fun x => .setR (.refl s) _ _ rfl
  have parts : ∀ x : Nat, changesOnly [.regs] s (setR a x s) := fun x => .setR (.refl _ s) _ _
  rw [plainWrite, hb, hr]
  dsimp only
  generalize writtenWord r (getR s a) v (isSet s (F.BLK_LOCK_LOCK base)) = x at each lt ⊢
  generalize hy : setR a x s = y
  have hval := hy ▸ hval x lt
  have kept := hy ▸ kept x
  have parts := hy ▸ parts x
  split
  · next hc =>
    obtain ⟨rds, now⟩ := nowAsserted_spec base s y
    exact ⟨fun f hf => fieldsWritten_of_rd ((getR_of_rd (rds a)).trans hval) (each f hf), fun b hb => (rds b).trans (kept b hb),
      (parts.mono (by decide)).trans now, fun h => absurd hc (by rw [h]; exact Bool.false_ne_true)⟩
  · exact ⟨fun f hf => fieldsWritten_of_rd hval (each f hf), kept, parts.mono (by decide), fun _ => parts⟩

end Sys2Proof.Machine

end

/-! ## Register writes (R11, R13, R423, R424, R499) -/

section

-- One proof after another: elaborated side by side, the proofs of this text take more memory than its check allows.
set_option Elab.async false

namespace Sys2Proof.Machine

variable {s t u : State} {path : Path} {a v o k ty inst base bytes : Nat} {w : W32} {r : RegRow}

/-! ### Whole words -/

theorem writeWord_of_reserved (ha : a < 0x100000 ∨ 0x140000 ≤ a) (hr : rowAt a = none) (v : Nat) (s : State) :
    writeWord path a v s = s := by
  rw [writeWord, if_neg (by omega), hr]
  cases blockOf a <;> rfl

theorem writeAccess_of_whole (hok : reach s a = .ok) (hb : bytes % 16 = 15) : writeAccess path a v bytes s = writeWord path a v s := by
  rw [writeAccess, hok]
  exact if_pos hb

theorem writeAccess_of_part (hok : reach s a = .ok) (hb : bytes % 16 ≠ 15) : writeAccess path a v bytes s = partialWrite a v bytes s := by
  rw [writeAccess, hok]
  exact if_neg hb

theorem writeAccess_of_disabled (h : reach s a = .disabled) : writeAccess path a v bytes s = accessDisabled a s := by
  rw [writeAccess, h]

theorem writeAccess_of_sleeping (h : reach s a = .sleeping) :
    writeAccess path a v bytes s = stallBytes path a (some (BitVec.ofNat 32 v, bytes % 16)) s := by
  rw [writeAccess, h]

/-! ### Parts of words (R499) -/

theorem base_le_of_blockOf (h : blockOf a = some (ty, inst, base)) : base ≤ a ∧ a - base < 0x4000 := by
  unfold blockOf at h
  simp only [ite_eq_iff, Option.some.injEq, Prod.mk.injEq, reduceCtorEq, and_false, or_false, false_or] at h
  omega

theorem partialWrite_of_dropped (hb : blockOf a = some (ty, inst, base)) (hmbx : ¬ (ty = 13 ∧ 0x800 ≤ a - base))
    (hbody : ¬ (ty = 5 ∧ 0x2000 ≤ a - base ∧ a - base < 0x20F0)) (v bytes : Nat) (s : State) :
    partialWrite a v bytes s = noteErr base 0xF0 ((a - base) / 4) a s := by
  have ha := lt_of_blockOf hb
  rw [partialWrite]
  simp only [if_neg (show ¬ (0x100000 ≤ a ∧ a < 0x140000) by omega), hb, if_neg (not_or.mpr ⟨hmbx, hbody⟩)]

theorem partialWrite_of_none (ha : a < 0x100000 ∨ 0x140000 ≤ a) (hb : blockOf a = none) (v bytes : Nat) (s : State) :
    partialWrite a v bytes s = s := by
  rw [partialWrite]
  simp only [if_neg (show ¬ (0x100000 ≤ a ∧ a < 0x140000) by omega), hb]

theorem partialWrite_of_entry (ha : 0x100000 ≤ a ∧ a < 0x140000) (v bytes : Nat) (s : State) :
    partialWrite a v bytes s = noteErr baseSort 0xF0 ((a - 0x100000) / 4) a s := if_pos ha

/-- The word that a write of some bytes leaves. -/
def bytesPut (old v bytes n : Nat) : Nat :=
  (List.range n).foldl (fun w j => if bitsOf bytes j 1 = 1 then putBits w (8 * j) 8 (bitsOf v (8 * j) 8) else w) old

theorem bytesPut_succ (old v bytes n : Nat) : bytesPut old v bytes (n + 1) =
    if bitsOf bytes n 1 = 1 then putBits (bytesPut old v bytes n) (8 * n) 8 (bitsOf v (8 * n) 8) else bytesPut old v bytes n := by
  rw [bytesPut, List.range_succ, List.foldl_append]
  rfl

theorem bitsOf_bytesPut (old v bytes : Nat) {j : Nat} (n : Nat) : bitsOf (bytesPut old v bytes n) (8 * j) 8 =
    if j < n ∧ bitsOf bytes j 1 = 1 then bitsOf v (8 * j) 8 else bitsOf old (8 * j) 8 := by
  induction n with
  | zero => simp [bytesPut]
  | succ n ih =>
    rw [bytesPut_succ]
    by_cases hj : j = n
    · subst hj
      rw [if_neg (by omega)] at ih
      split
      · next hb => rw [bitsOf_putBits, bitsOf_mod, if_pos ⟨by omega, hb⟩]
      · next hb => rw [ih, if_neg (fun h => hb h.2)]
    · have other : ∀ x y, bitsOf (putBits x (8 * n) 8 y) (8 * j) 8 = bitsOf x (8 * j) 8 := fun x y =>
        bitsOf_putBits_apart (by omega)
      have same : (j < n + 1 ∧ bitsOf bytes j 1 = 1) = (j < n ∧ bitsOf bytes j 1 = 1) := by
        rw [show (j < n + 1) = (j < n) by simp only [eq_iff_iff]; omega]
      simp only [same, ← ih]
      split
      · exact other ..
      · rfl

/-- The body of a firmware event. -/
theorem body_spec (h1 : 0x6000 ≤ a) (h2 : a < 0x60F0) (hal : a % 4 = 0) :
    blockOf a = some (5, 0, 0x4000) ∧ rowAt a = some ⟨0x2000, 4, 60, [⟨0, 32, .rw, 0⟩]⟩ := by
  have hb : blockOf a = some (5, 0, 0x4000) := by
    rw [blockOf]
    iterate 4 rw [if_neg (by omega)]
    rw [if_pos (by omega)]
  refine ⟨hb, ?_⟩
  obtain ⟨j, hj, rfl⟩ : ∃ j, j < 60 ∧ a = 0x6000 + 4 * j := ⟨(a - 0x6000) / 4, by omega, by omega⟩
  rw [rowAt, hb]
  simp only [show 0x6000 + 4 * j - 0x4000 = 0x2000 + 4 * j by omega]
  interval_cases j <;> rfl

theorem viewWord_body (h1 : 0x6000 ≤ a) (h2 : a < 0x60F0) (hal : a % 4 = 0) (s : State) : viewWord s a true = getR s a := by
  obtain ⟨hb, hr⟩ := body_spec h1 h2 hal
  rw [viewWord, if_neg (by omega), if_neg (by omega), hb, hr]
  simp only [if_neg (show ¬ a - 0x4000 < 0x30 by omega), viewLow, viewHigh, if_neg (show ¬ a - 0x4000 = 0x100 by omega),
    if_neg (show ¬ a - 0x4000 = 0x110 by omega), if_neg (show ¬ (0x200 ≤ a - 0x4000 ∧ a - 0x4000 < 0x220) by omega)]
  rfl

theorem writeWord_body (h1 : 0x6000 ≤ a) (h2 : a < 0x60F0) (hal : a % 4 = 0) (v : Nat) (s : State) :
    writeWord path a v s = plainWrite a v s := by
  obtain ⟨hb, hr⟩ := body_spec h1 h2 hal
  refine writeWord_of_plain (.inl (by omega)) hb hr (by omega) ?_
  simp only [writeLow, writeHigh, if_neg (show ¬ (0x400 ≤ a - 0x4000 ∧ a - 0x4000 < 0x800) by omega),
    if_neg (show ¬ a - 0x4000 = 0x20F0 by omega)]
  rfl

theorem partialWrite_body (h1 : 0x6000 ≤ a) (h2 : a < 0x60F0) (hal : a % 4 = 0) (v bytes : Nat) (s : State) :
    partialWrite a v bytes s = plainWrite a (bytesPut (getR s a) v bytes 4) s := by
  obtain ⟨hb, -⟩ := body_spec h1 h2 hal
  rw [← writeWord_body h1 h2 hal (path := .onChip), ← viewWord_body h1 h2 hal s, partialWrite]
  simp only [if_neg (show ¬ (0x100000 ≤ a ∧ a < 0x140000) by omega), hb]
  exact if_pos (.inr ⟨trivial, by omega, by omega⟩)

/-- The bytes written land in the body, and nothing else changes. -/
theorem partialWrite_body_spec (h1 : 0x6000 ≤ a) (h2 : a < 0x60F0) (hal : a % 4 = 0) (v bytes : Nat) (s : State) :
    (∀ j, j < 4 → bitsOf (getR (partialWrite a v bytes s) a) (8 * j) 8 =
        if bitsOf bytes j 1 = 1 then bitsOf v (8 * j) 8 else bitsOf (getR s a) (8 * j) 8) ∧
      regsKept (· = a) s (partialWrite a v bytes s) ∧ changesOnly [.regs] s (partialWrite a v bytes s) := by
  obtain ⟨hb, hr⟩ := body_spec h1 h2 hal
  have written := written_plainWrite hb hr (bytesPut (getR s a) v bytes 4) s
  rw [partialWrite_body h1 h2 hal]
  refine ⟨fun j hj => ?_, written.kept, written.ordinary rfl⟩
  have whole : bitsOf (getR (plainWrite a (bytesPut (getR s a) v bytes 4) s) a) 0 32 = bitsOf (bytesPut (getR s a) v bytes 4) 0 32 :=
    written.fields ⟨0, 32, .rw, 0⟩ List.mem_cons_self
  have byte : ∀ x, bitsOf x (8 * j) 8 = bitsOf (bitsOf x 0 32) (8 * j) 8 := fun x => by
    obtain ⟨m, hm⟩ : ∃ m, 32 = 8 * j + (8 + m) := ⟨32 - 8 * j - 8, by omega⟩
    rw [bitsOf, bitsOf, bitsOf, pow_zero, Nat.div_one, hm, pow_add 2 (8 * j), Nat.mod_mul_right_div_self, pow_add 2 8,
      Nat.mod_mul_right_mod]
  rw [byte, whole, ← byte, bitsOf_bytesPut]
  simp only [hj, true_and]

/-- Settles O58: a whole word goes to its fields by their codes; a part is dropped, or lands in a firmware event's body. -/
theorem registerWritesFollowTheirAccessCodes : Obligations.RegisterWritesFollowTheirAccessCodes := by
  unfold Obligations.RegisterWritesFollowTheirAccessCodes
  intro s path a v bytes ha hal
  have exec_write : ∀ {t : State}, writeAccess path a v.toNat bytes s = t → completes (.registerWrite path a v bytes) s t := fun h =>
    (exec_registerWrite ha hal v s).trans (congrArg Host.Outcome.next h)
  refine ⟨fun hok hb => ⟨fun ty inst base r hblock hrow ho hlow hhigh => ?whole, fun hout hrow => ?reserved⟩,
    fun hok hb => ⟨fun ty inst base hblock hmbx hbody => ?dropped, fun h1 h2 => ?body, fun h1 h2 => ?entry, fun hblock hout => ?none⟩,
    fun hoff => ?disabled, fun hsleep => ?sleeping⟩
  case whole =>
    have written := written_plainWrite hblock hrow v.toNat s
    have rule : (writeLow ty inst (a - base) v.toNat).orElse (fun _ => writeHigh path ty inst (a - base) v.toNat s) = none := by
      rw [Option.isNone_iff_eq_none.mp hlow]
      exact Option.isNone_iff_eq_none.mp hhigh
    exact ⟨_, exec_write ((writeAccess_of_whole hok hb).trans (writeWord_of_plain (.inl ((lt_of_blockOf hblock).trans (by decide))) hblock hrow ho rule)),
      written.fields, written.kept, written.parts, written.ordinary⟩
  case reserved => exact exec_write ((writeAccess_of_whole hok hb).trans (writeWord_of_reserved hout hrow ..))
  case dropped =>
    have noted := errNoted_noteErr base 0xF0 ((a - base) / 4) a s
    have hoff := (base_le_of_blockOf hblock).2
    exact ⟨_, exec_write ((writeAccess_of_part hok hb).trans (partialWrite_of_dropped hblock hmbx hbody ..)),
      errNoted_of_kept noted (by decide) (by omega) (fun _ _ => rfl) rfl, noted.kept, noted.parts⟩
  case body =>
    obtain ⟨bits, kept, parts⟩ := partialWrite_body_spec h1 h2 hal v.toNat bytes s
    exact ⟨_, exec_write (writeAccess_of_part hok hb), bits, kept, parts⟩
  case entry =>
    have noted := errNoted_noteErr baseSort 0xF0 ((a - 0x100000) / 4) a s
    exact ⟨_, exec_write ((writeAccess_of_part hok hb).trans (partialWrite_of_entry ⟨h1, h2⟩ ..)),
      errNoted_of_kept noted (by decide) (by omega) (fun _ _ => rfl) rfl, noted.parts.sort_eq, noted.parts⟩
  case none => exact exec_write ((writeAccess_of_part hok hb).trans (partialWrite_of_none hout hblock ..))
  case disabled =>
    obtain ⟨ty, inst, base, hblock⟩ := blockOf_of_disabled hoff
    have off := disabled_accessDisabled s hblock
    exact ⟨_, exec_write (writeAccess_of_disabled hoff), off.event, off.parts⟩
  case sleeping =>
    have stall := stalled_stallBytes path a (some (v, bytes % 16)) s
    exact ⟨_, exec_write ((writeAccess_of_sleeping hsleep).trans (by rw [ofNat_toNat_w32])), stall.list, stall.waking, stall.parts⟩

end Sys2Proof.Machine

end

/-! ## Register reads (R11, R62, R216, R335, R388, R424, R491, R497) -/

section

-- One proof after another: elaborated side by side, the proofs of this text take more memory than its check allows.
set_option Elab.async false

namespace Sys2Proof.Machine

variable {s t u x : State} {path : Path} {a v o k n ty inst base : Nat} {w : W32} {r : RegRow}

/-! ### Fields that clear on reading -/

/-- A field's part in a read. -/
def clearField (f : RegFld) (x : Nat) : Nat := if f.acc = .rc then putBits x f.lo f.w 0 else x

theorem fieldStep_clearField : FieldStep clearField := by
  refine ⟨fun f x => ?_, fun f x y h => ?_⟩
  · unfold clearField
    split
    · exact .inr ⟨0, rfl⟩
    · exact .inl rfl
  · unfold clearField
    split
    · rw [bitsOf_putBits, bitsOf_putBits]
    · exact h

theorem bitsOf_clearField (f : RegFld) (x : Nat) : bitsOf (clearField f x) f.lo f.w = if f.acc = .rc then 0 else bitsOf x f.lo f.w := by
  rw [clearField, apply_ite (fun y => bitsOf y f.lo f.w), bitsOf_putBits, Nat.zero_mod]

/-- Its part in the state. -/
def clearFieldAt (a : Nat) (t : State) (f : RegFld) : State := if f.acc = .rc then setF ⟨a, f.lo, f.w⟩ 0 t else t

theorem clearFieldAt_spec {f : RegFld} (hf : f.lo + f.w ≤ 32) (a : Nat) (t : State) :
    getR (clearFieldAt a t f) a = clearField f (getR t a) ∧ regsKept (· = a) t (clearFieldAt a t f) := by
  rw [clearFieldAt, clearField]
  split
  · exact ⟨(getR_setR_same ..).trans (Nat.mod_eq_of_lt (putBits_lt _ _ _ _ _ (getR_lt t a) hf)), .setF (.refl t) _ _ rfl⟩
  · exact ⟨rfl, .refl t⟩

theorem foldl_clearFieldAt {fs : List RegFld} (hf : ∀ f ∈ fs, f.lo + f.w ≤ 32) (a : Nat) (t : State) :
    getR (fs.foldl (clearFieldAt a) t) a = fs.foldl (fun x f => clearField f x) (getR t a) ∧
      regsKept (· = a) t (fs.foldl (clearFieldAt a) t) := by
  induction fs generalizing t with
  | nil => exact ⟨rfl, .refl t⟩
  | cons f fs ih =>
    obtain ⟨one, kept⟩ := clearFieldAt_spec (hf f List.mem_cons_self) a t
    obtain ⟨rest, kept'⟩ := ih (fun f' h => hf f' (List.mem_cons_of_mem _ h)) (clearFieldAt a t f)
    rw [List.foldl_cons, List.foldl_cons]
    exact ⟨rest.trans (by rw [one]), kept.trans kept'⟩

theorem clearRc_eq (hr : rowAt a = some r) (t : State) : clearRc a t = r.flds.foldl (clearFieldAt a) t := by
  rw [clearRc, hr]
  rfl

theorem clearRc_spec (hr : rowAt a = some r) (t : State) :
    (∀ f ∈ r.flds, bitsOf (getR (clearRc a t) a) f.lo f.w = if f.acc = .rc then 0 else bitsOf (getR t a) f.lo f.w) ∧
      regsKept (· = a) t (clearRc a t) := by
  have laid := rowLaid_of_rowAt hr
  obtain ⟨word, kept⟩ := foldl_clearFieldAt laid.within a t
  obtain ⟨each, -, -⟩ := fieldStep_clearField.foldl laid (getR t a)
  rw [clearRc_eq hr]
  exact ⟨fun f hf => by rw [word, each f hf, bitsOf_clearField], kept⟩

theorem clearRc_of_none (hr : rowAt a = some r) (h : ∀ f ∈ r.flds, f.acc ≠ .rc) (t : State) : clearRc a t = t := by
  rw [clearRc_eq hr]
  refine List.foldlRecOn (motive := fun y => y = t) _ _ rfl fun y hy f hf => ?_
  rw [clearFieldAt, if_neg (h f hf), hy]

/-! ### Words of two halves (R11) -/

/-- A register whose reading latches its upper half. -/
theorem latchReg_of_latched (h : (latched s a).isSome = true) :
    a = Reg.TOP_LEDGER_BEAT_LO ∨ a = Reg.BEAT_COUNT_LO ∨ a = Reg.MAC_SEAL_EPOCH_LO ∨ a = Reg.COURSE_JSEQ_LO ∨
      a = Reg.COURSE_JDUR_LO ∨ a = Reg.COURSE_WSEQ_LO ∨ ∃ m, m < 34 ∧ a = 0x1001C + 0x80 * m := by
  unfold latched at h
  split at h
  · split at h
    · exact .inl ‹_›
    · cases h
  · split at h
    · exact .inr (.inl ‹_›)
    · cases h
  · next inst base hb =>
    split at h
    · next hreg =>
      have hbase : base = 0x10000 ∧ 0x10000 ≤ a := by
        unfold blockOf at hb
        simp only [ite_eq_iff, Option.some.injEq, Prod.mk.injEq, reduceCtorEq, and_false, or_false, false_or] at hb
        omega
      obtain ⟨rfl, ha⟩ := hbase
      exact .inr (.inr (.inr (.inr (.inr (.inr ⟨(a - 0x1001C) / 0x80, by omega, by omega⟩)))))
    · cases h
  · split at h
    · exact .inr (.inr (.inl ‹_›))
    · cases h
  · split at h
    · exact .inr (.inr (.inr (.inl ‹_›)))
    · split at h
      · exact .inr (.inr (.inr (.inr (.inl ‹_›))))
      · split at h
        · exact .inr (.inr (.inr (.inr (.inr (.inl ‹_›)))))
        · cases h
  · cases h

/-- A register has no field that clears on reading. -/
def keptOnRead (a : Nat) : Bool :=
  match rowAt a with
  | some r => r.flds.all fun f => decide (f.acc ≠ .rc)
  | none => true

theorem keptOnRead_channels : ∀ m, m < 34 → keptOnRead (0x1001C + 0x80 * m) = true := by decide

theorem keptOnRead_of_latched (h : (latched s a).isSome = true) : keptOnRead a = true := by
  rcases latchReg_of_latched h with rfl | rfl | rfl | rfl | rfl | rfl | ⟨m, hm, rfl⟩
  iterate 6 decide
  exact keptOnRead_channels m hm

theorem noRc_of_latched (hr : rowAt a = some r) (h : (latched s a).isSome = true) : ∀ f ∈ r.flds, f.acc ≠ .rc := by
  have kept := keptOnRead_of_latched h
  rw [keptOnRead, hr] at kept
  exact fun f hf => of_decide_eq_true (List.all_eq_true.mp kept f hf)

/-! ### What a read does -/

/-- The upper half is held. -/
def latchHigh (a : Nat) (s : State) : State :=
  match latched s a with
  | some h => setR (a + 4) h s
  | none => s

/-- A read's other parts: the peak temperature clears, and a free word moves on. -/
def readRest (a : Nat) (x : State) : State :=
  let y := if a = Reg.KILN_TPEAK then { x with kiln := { x.kiln with peak := none } } else x
  if freeRead a then tick y else y

theorem readRest_spec (a : Nat) (x : State) : (readRest a x).regs = x.regs ∧ changesOnly [.kiln, .freeCtr] x (readRest a x) := by
  rw [readRest]
  refine ⟨?_, .ite (.tick (.ite (.kiln (.refl _ x)) (.refl _ x))) (.ite (.kiln (.refl _ x)) (.refl _ x))⟩
  dsimp only
  split <;> split <;> rfl

theorem readEffect_of_row (hb : blockOf a = some (ty, inst, base)) (ho : a - base ≠ 0x20) (s : State) :
    readEffect a s = readRest a (clearRc a (latchHigh a s)) := by
  have ha := lt_of_blockOf hb
  rw [readEffect, if_neg (by omega), hb]
  simp only [if_neg ho]
  rfl

/-- What a read leaves. -/
structure ReadLeaves (r : RegRow) (a : Nat) (s t : State) : Prop where
  fields : ∀ f ∈ r.flds, bitsOf (getR t a) f.lo f.w = if f.acc = .rc then 0 else bitsOf (getR s a) f.lo f.w
  kept : latched s a = none → regsKept (· = a) s t
  high : ∀ h, latched s a = some h → getR t (a + 4) = h % 2 ^ 32 ∧ regsKept (· = a + 4) s t
  parts : changesOnly [.regs, .kiln, .freeCtr] s t

theorem readLeaves (hb : blockOf a = some (ty, inst, base)) (hr : rowAt a = some r) (ho : a - base ≠ 0x20) (s : State) :
    ReadLeaves r a s (readEffect a s) := by
  rw [readEffect_of_row hb ho]
  obtain ⟨regs, rest⟩ := readRest_spec a (clearRc a (latchHigh a s))
  have clear := changesOnly_clearRc a (latchHigh a s)
  generalize readRest a (clearRc a (latchHigh a s)) = t at regs rest
  cases hl : latched s a with
  | none =>
    have hlow : latchHigh a s = s := by rw [latchHigh, hl]
    rw [hlow] at regs rest clear
    obtain ⟨fields, kept⟩ := clearRc_spec hr s
    exact ⟨fun f hf => by rw [getR_congr _ regs, fields f hf], fun _ => kept.congr regs, fun h hh => absurd (hl.symm.trans hh) nofun,
      (clear.mono (by decide)).trans (rest.mono (by decide))⟩
  | some h =>
    have hlow : latchHigh a s = setR (a + 4) h s := by rw [latchHigh, hl]
    have hsome : (latched s a).isSome = true := by rw [hl]; rfl
    have noRc := noRc_of_latched hr hsome
    rw [clearRc_of_none hr noRc, hlow] at regs rest
    refine ⟨fun f hf => ?_, fun hn => absurd (hl.symm.trans hn) nofun, fun h' hh => ?_, ?_⟩
    · rw [if_neg (noRc f hf), getR_congr _ regs, getR_setR_ne _ _ (by omega)]
    · obtain rfl := Option.some.inj (hl.symm.trans hh)
      exact ⟨(getR_congr _ regs).trans (getR_setR_same ..), .congr (.setR (.refl s) _ _ rfl) regs⟩
    · exact .trans (.setR (.refl _ s) _ _) (rest.mono (by decide))

/-! ### The access itself -/

theorem readOut_of_ok (h : reach s a = .ok) :
    readOut path a s = emit (.readData path a (BitVec.ofNat 32 (viewWord s a true))) (readEffect a s) := by
  rw [readOut, readWord, h]

theorem readOut_of_disabled (h : reach s a = .disabled) :
    readOut path a s = emit (.readData path a 0xFFFFFFFF) (accessDisabled a s) := by
  rw [readOut, readWord, h]
  rfl

theorem readOut_of_sleeping (h : reach s a = .sleeping) : readOut path a s = stallBytes path a none s := by
  rw [readOut, readWord, h]
  rfl

end Sys2Proof.Machine

end

/-! ## Reads clear and latch: the registers, ERR_INFO and disabled blocks (R11, R424, R491, R497) -/

section

-- One proof after another: elaborated side by side, the proofs of this text take more memory than its check allows.
set_option Elab.async false

namespace Sys2Proof.Machine

variable {s t u x : State} {path : Path} {a v o k n h ty inst base : Nat} {w : W32} {r : RegRow} {c : Instr}

/-! ### The halves (R62, R216, R335, R388) -/

theorem viewWord_of_low {y : Nat} (ha : a < 0x100000) (hb : blockOf a = some (ty, inst, base)) (hr : rowAt a = some r) (ho : 0x30 ≤ a - base)
    (hv : (viewLow s ty inst (a - base) (getR s a)).orElse (fun _ => viewHigh s ty inst (a - base) (getR s a)) = some y) :
    viewWord s a true = y := by
  rw [viewWord, if_neg (by omega), if_neg (by omega), hb, hr]
  simp only [if_neg (Nat.not_lt.mpr ho), hv]
  rfl

/-- A register that shows the lower half of a number and latches the upper. -/
structure Halves (a n : Nat) (s : State) : Prop where
  high : latched s a = some (n / 2 ^ 32)
  low : viewWord s a true = n % 2 ^ 32

theorem halves_course (s : State) : Halves Reg.COURSE_JSEQ_LO s.map.jseq s ∧ Halves Reg.COURSE_JDUR_LO s.map.jdur s ∧
    Halves Reg.COURSE_WSEQ_LO s.map.wseq s :=
  ⟨⟨rfl, viewWord_of_low (by decide) rfl rfl (by decide) rfl⟩, ⟨rfl, viewWord_of_low (by decide) rfl rfl (by decide) rfl⟩,
    rfl, viewWord_of_low (by decide) rfl rfl (by decide) rfl⟩

theorem halves_ledger (s : State) : Halves Reg.TOP_LEDGER_BEAT_LO s.top.ledgerSticky s :=
  ⟨rfl, viewWord_of_low (by decide) rfl rfl (by decide) rfl⟩

theorem halves_seal (s : State) : Halves Reg.MAC_SEAL_EPOCH_LO (lastSealed s) s :=
  ⟨rfl, viewWord_of_low (by decide) rfl rfl (by decide) rfl⟩

theorem halves_channel (hk : k < 32) (s : State) : Halves (Reg.HOD_CH_CUR_LO k) (getCh s k).shown s := by
  change Halves (0x10000 + 0x11C + 0x80 * k) (getCh s k).shown s
  obtain ⟨hb, hsub, -, -, hlt⟩ := hodReg_spec (o := 0x11C) hk (by decide) (by decide)
  obtain ⟨r, hr⟩ := rowAt_hod (o := 0x11C) (r := ⟨0x11C, 128, 32, [⟨0, 32, .ro, 0⟩]⟩) hk (by decide) (by decide) (by simp [rowsHod]) rfl rfl rfl
  have hch : (0x11C + 0x80 * k - 0x100) / 0x80 = k := by omega
  have hmod : (0x11C + 0x80 * k) % 0x80 = 0x1C := by omega
  constructor
  · rw [latched, hb]
    simp only [hsub, if_pos (show 0x11C + 0x80 * k < 0x1100 ∧ (0x11C + 0x80 * k) % 0x80 = 0x1C from ⟨hlt, hmod⟩), hch]
  · refine viewWord_of_low (by omega) hb hr (by omega) ?_
    simp only [hsub, viewLow, viewHigh, if_neg (show ¬ 0x11C + 0x80 * k = 0x1108 by omega),
      if_neg (show ¬ 0x11C + 0x80 * k = 0x110C by omega), hlt, hmod, hch]
    rfl

/-! ### ERR_INFO (R497) -/

theorem latched_errInfo (hb : base % 0x1000 = 0) (s : State) : latched s (Reg.ERR_INFO base) = none := by
  rw [← Option.not_isSome_iff_eq_none]
  intro hl
  have hval : Reg.ERR_INFO base = base + 0x20 := rfl
  have places : Reg.TOP_LEDGER_BEAT_LO % 0x1000 ≠ 0x20 ∧ Reg.BEAT_COUNT_LO % 0x1000 ≠ 0x20 ∧ Reg.MAC_SEAL_EPOCH_LO % 0x1000 ≠ 0x20 ∧
    Reg.COURSE_JSEQ_LO % 0x1000 ≠ 0x20 ∧ Reg.COURSE_JDUR_LO % 0x1000 ≠ 0x20 ∧ Reg.COURSE_WSEQ_LO % 0x1000 ≠ 0x20 := by decide
  rcases latchReg_of_latched hl with h | h | h | h | h | h | ⟨m, hm, h⟩ <;> omega

theorem errInfo_row (hp : isPage base = true) : ∃ ty inst, blockOf (Reg.ERR_INFO base) = some (ty, inst, base) ∧
    rowAt (Reg.ERR_INFO base) = some ⟨0x20, 0, 1, [⟨0, 8, .rc, 0⟩, ⟨8, 1, .rc, 0⟩, ⟨16, 16, .rc, 0⟩]⟩ := by
  obtain ⟨ty, inst, hb⟩ := blockOf_of_isPage hp
  have hb' : blockOf (Reg.ERR_INFO base) = some (ty, inst, base) :=
    (blockOf_add (blockLaid_of_blockOf hb).whole (by decide)).trans hb
  refine ⟨ty, inst, hb', ?_⟩
  rw [rowAt, hb']
  simp only [Nat.add_sub_cancel_left]
  rfl

theorem viewWord_errInfo (hp : isPage base = true) (s : State) : viewWord s (Reg.ERR_INFO base) true = getR s (Reg.ERR_INFO base) := by
  obtain ⟨ty, inst, hb, hr⟩ := errInfo_row hp
  have ha := lt_of_blockOf hb
  rw [viewWord, if_neg (by omega), if_neg (by omega), hb, hr]
  simp only [Nat.add_sub_cancel_left]
  rfl

theorem readEffect_errInfo (hp : isPage base = true) (s : State) : readEffect (Reg.ERR_INFO base) s = readErrInfo base s := by
  obtain ⟨ty, inst, hb, hr⟩ := errInfo_row hp
  obtain ⟨ty', inst', hb'⟩ := blockOf_of_isPage hp
  have whole := (blockLaid_of_blockOf hb').whole
  have hval : Reg.ERR_INFO base = base + 0x20 := rfl
  have hpeak : ¬ Reg.ERR_INFO base = Reg.KILN_TPEAK := by
    intro h
    have : Reg.KILN_TPEAK % 0x1000 ≠ 0x20 := by decide
    omega
  have hfree : freeRead (Reg.ERR_INFO base) = false := by
    have status : Reg.BEAT_STATUS % 0x1000 ≠ 0x20 ∧ Reg.BEAT_CYCLE % 0x1000 ≠ 0x20 ∧ Reg.HOST_LINK_STATUS 0 % 0x1000 ≠ 0x20 ∧
      Reg.HOST_LINK_STATUS 1 % 0x1000 ≠ 0x20 := by decide
    rw [freeRead]
    simp only [Bool.or_eq_false_iff, decide_eq_false_iff_not]
    omega
  have ha := lt_of_blockOf hb
  rw [readEffect, if_neg (by omega), hb]
  simp only [latched_errInfo whole, Nat.add_sub_cancel_left, if_true, if_neg hpeak, hfree, Bool.false_eq_true, if_false]

/-- The page holds no error. -/
def errFree (base : Nat) (s : State) : State := { s with errHeld := removeNat base s.errHeld }

theorem errFree_spec (base : Nat) (s : State) : (errFree base s).errHeld = removeNat base s.errHeld ∧ (errFree base s).regs = s.regs :=
  ⟨rfl, rfl⟩

theorem readErrInfo_spec (base : Nat) (s : State) :
    getR (readErrInfo base s) (Reg.ERR_INFO base) = 0 ∧ getR (readErrInfo base s) (Reg.ERR_ADDR_LO base) = 0 ∧
      getR (readErrInfo base s) (Reg.ERR_ADDR_HI base) = 0 ∧ (readErrInfo base s).errHeld = removeNat base s.errHeld ∧
      regsKept (errReg base) s (readErrInfo base s) := by
  obtain ⟨held, regs⟩ := errFree_spec base s
  obtain ⟨hlo, hhi, hlohi⟩ := err_apart base
  have form : readErrInfo base s =
      setR (Reg.ERR_ADDR_HI base) 0 (setR (Reg.ERR_ADDR_LO base) 0 (setR (Reg.ERR_INFO base) 0 (errFree base s))) := rfl
  rw [form]
  generalize errFree base s = y at *
  refine ⟨?_, ?_, getR_setR_same .., ?_, ?_⟩
  · rw [getR_setR_ne _ _ hhi, getR_setR_ne _ _ hlo]
    exact getR_setR_same ..
  · rw [getR_setR_ne _ _ hlohi]
    exact getR_setR_same ..
  · rw [setR_errHeld, setR_errHeld, setR_errHeld, held]
  · exact .setR (.setR (.setR (.of_regs regs) _ _ (.inl rfl)) _ _ (.inr (.inl rfl))) _ _ (.inr (.inr rfl))

/-! ### The commands -/

theorem exec_read (hc : c = .rcCounterRead a ∨ c = .latchingLoRead a) (ha : a < windowSize) (hal : a % 4 = 0) (s : State) :
    exec c s = .next (readOut .onChip a s) := by
  have hword : a / 4 * 4 = a := by omega
  have row : inWindow a (readOut .onChip (a / 4 * 4)) s = .next (readOut .onChip a s) := (if_pos ha).trans (by rw [hword])
  rcases hc with rfl | rfl
  · exact row
  · exact row

theorem exec_disabledBlockAccess (ha : a < windowSize) (isWrite : Bool) (s : State) :
    exec (.disabledBlockAccess a isWrite) s = .next (if reach s a = .disabled then
      if isWrite then accessDisabled a s else emit (.readData .onChip a 0xFFFFFFFF) (accessDisabled a s) else s) := if_pos ha

theorem exec_errInfoRead (hp : isPage base = true) (s : State) :
    exec (.errInfoRead base) s = .next (readOut .onChip (Reg.ERR_INFO base) s) := by
  have hlt := lt_of_isPage hp
  exact (if_neg (by rw [windowSize]; omega)).trans (congrArg Host.Outcome.next (if_pos hp))

theorem exec_errInfoRead_of_none (hp : isPage base = false) (hlt : base < windowSize) (s : State) : exec (.errInfoRead base) s = .next s :=
  (if_neg (by omega)).trans (congrArg Host.Outcome.next (if_neg (by rw [hp]; exact Bool.false_ne_true)))

/-- The readout of a disabled block. -/
theorem emit_disabled (a : Nat) (hoff : reach s a = .disabled) (d : W32) :
    raised baseTop 5 (emit (.readData path a d) (accessDisabled a s)) = true ∧
      (emit (.readData path a d) (accessDisabled a s)).out = .readData path a d :: s.out ∧
      changesOnly (.errHeld :: .out :: eventParts) s (emit (.readData path a d) (accessDisabled a s)) := by
  obtain ⟨ty, inst, base, hb⟩ := blockOf_of_disabled hoff
  have off := disabled_accessDisabled s hb
  generalize accessDisabled a s = y at off
  exact ⟨off.event, congrArg (List.cons _) off.parts.out_eq, .emit (off.parts.mono (by decide)) _⟩

/-- Settles O59: a read gives the word, its RC fields clear, and a LO register's upper half is held. -/
theorem readsClearAndLatch : Obligations.ReadsClearAndLatch := by
  unfold Obligations.ReadsClearAndLatch
  intro s a ha hal
  refine ⟨fun c hc => ⟨fun ty inst base r hok hb hr ho => ?word, fun hoff => ?disabled, fun hsleep => ?sleeping⟩,
    fun h n hreg hn => ?halves, fun isWrite => ⟨fun hon => ?on, fun hoff => ?off⟩, fun hp hok => ?info, fun hp => ?noPage⟩
  case word =>
    have leaves := readLeaves hb hr ho s
    generalize hy : readEffect a s = y at leaves
    refine ⟨emit _ y, (exec_read hc ha hal s).trans (congrArg Host.Outcome.next ((readOut_of_ok hok).trans (by rw [hy]))), ?_,
      leaves.fields, leaves.kept, leaves.high, .emit (leaves.parts.mono (by decide)) _⟩
    exact congrArg (List.cons _) leaves.parts.out_eq
  case disabled =>
    obtain ⟨event, out, parts⟩ := emit_disabled (path := .onChip) a hoff 0xFFFFFFFF
    exact ⟨_, (exec_read hc ha hal s).trans (congrArg Host.Outcome.next (readOut_of_disabled hoff)), out, event, parts⟩
  case sleeping =>
    have stall := stalled_stallBytes .onChip a none s
    exact ⟨_, (exec_read hc ha hal s).trans (congrArg Host.Outcome.next (readOut_of_sleeping hsleep)), stall.list, stall.waking, stall.parts⟩
  case halves =>
    have halves : Halves a n s := by
      obtain ⟨jseq, jdur, wseq⟩ := halves_course s
      rcases hreg with ⟨rfl, rfl⟩ | ⟨rfl, rfl⟩ | ⟨rfl, rfl⟩ | ⟨rfl, rfl⟩ | ⟨rfl, rfl⟩ | ⟨k, hk, rfl, rfl⟩
      · exact jseq
      · exact jdur
      · exact wseq
      · exact halves_ledger s
      · exact halves_seal s
      · exact halves_channel hk s
    exact ⟨hn ▸ halves.high, halves.low⟩
  case on => exact (exec_disabledBlockAccess ha isWrite s).trans (congrArg Host.Outcome.next (if_neg hon))
  case off =>
    have row := (exec_disabledBlockAccess ha isWrite s).trans (congrArg Host.Outcome.next (if_pos hoff))
    cases isWrite with
    | true =>
      obtain ⟨ty, inst, base, hb⟩ := blockOf_of_disabled hoff
      have off := disabled_accessDisabled s hb
      exact ⟨_, row, off.event, off.parts.out_eq, off.parts.mono (by decide)⟩
    | false =>
      obtain ⟨event, out, parts⟩ := emit_disabled (path := .onChip) a hoff 0xFFFFFFFF
      exact ⟨_, row, event, out, parts⟩
  case info =>
    obtain ⟨info, lo, hi, held, kept⟩ := readErrInfo_spec a s
    have parts := changesOnly_readErrInfo a s
    have row := (exec_errInfoRead hp s).trans (congrArg Host.Outcome.next (readOut_of_ok hok))
    rw [viewWord_errInfo hp, readEffect_errInfo hp] at row
    generalize readErrInfo a s = y at *
    refine ⟨_, row, ?_, info, lo, hi, ?_, fun b hb => ?_, kept, .emit (parts.mono (by decide)) _⟩
    · exact congrArg₂ List.cons (congrArg (Out.readData Path.onChip (Reg.ERR_INFO a)) (ofNat_toNat_w32 _)) parts.out_eq
    · change a ∉ y.errHeld
      rw [held, mem_removeNat]
      exact fun h => h.2 rfl
    · change b ∈ y.errHeld ↔ _
      rw [held, mem_removeNat, and_iff_left hb]
  case noPage => exact exec_errInfoRead_of_none hp ha s

end Sys2Proof.Machine

end

/-! ## The block control registers (R422, R425, R495, R498) -/

section

-- One proof after another: elaborated side by side, the proofs of this text take more memory than its check allows.
set_option Elab.async false

namespace Sys2Proof.Machine

variable {s t u x y : State} {a o p v d j k n ty inst base : Nat} {w : W32}

/-! ### A page's low registers answer alike -/

theorem reach_low (hp : isPage base = true) (ho : o < 0x30) (hq : p < 0x30) (s : State) : reach s (base + o) = reach s (base + p) := by
  obtain ⟨ty, inst, hb⟩ := blockOf_of_isPage hp
  have whole := (blockLaid_of_blockOf hb).whole
  have hlt := lt_of_blockOf hb
  have block : ∀ q, q < 0x30 → blockOf (base + q) = some (ty, inst, base) := fun q hq => (blockOf_add whole (by omega)).trans hb
  have off : blockOff s (base + o) = blockOff s (base + p) := by rw [blockOff, blockOff, block o ho, block p hq]
  have domain : ∀ q, q < 0x30 → domainOf (base + q) = domainOf base := fun q hq => by
    rw [domainOf, if_neg (show ¬ (0x100000 ≤ base + q ∧ base + q < 0x140000) by omega), block q hq, domainOf,
      if_neg (show ¬ (0x100000 ≤ base ∧ base < 0x140000) by omega), hb]
  have idle : idleBlock (base + o) = idleBlock (base + p) := by rw [idleBlock, idleBlock, block o ho, block p hq]
  have ready : domReady s (base + o) = domReady s (base + p) := by rw [domReady, domReady, domain o ho, domain p hq, idle]
  have page : ∀ q, q < 0x30 → pageOff s (base + q) = false := fun q hq => by
    rw [pageOff, block q hq]
    split
    · next hc =>
      obtain ⟨rfl, rfl, rfl⟩ := Prod.mk.injEq .. ▸ Option.some.inj hc
      rw [Nat.add_sub_cancel_left, decide_eq_false (show ¬ 0x30 ≤ q by omega), Bool.false_and]
    · rfl
  rw [reach, reach, off, ready, page o ho, page p hq]

/-! ### ENABLE and LOCK (R495, R498) -/

theorem ok_blkEnable (base : Nat) : (F.BLK_CTRL_ENABLE base).ok ∧ (F.BLK_CTRL_POWER_VOTE base).ok ∧ (F.BLK_LOCK_LOCK base).ok := by
  simp [Fld.ok]

theorem b2n_bit (v i : Nat) : b2n (decide (bitsOf v i 1 = 1)) = bitsOf v i 1 := by
  obtain h | h : bitsOf v i 1 = 0 ∨ bitsOf v i 1 = 1 := by
    have := bitsOf_lt v i 1
    omega
  all_goals rw [h]; rfl

theorem enableWrite_of_other {on : Bool} (h : base ≠ baseHod) (s : State) : enableWrite base on s = s := if_pos h

theorem enableWrite_of_refused (h : base = baseHod) (huse : hodInUse s = true) :
    enableWrite base false s = noteErr base 0xF2 0 (Reg.BLK_CTRL base) s := by
  rw [enableWrite, if_neg (not_not.mpr h), huse]
  exact if_pos rfl

theorem enableWrite_of_taken {on : Bool} (h : base = baseHod) (huse : on = true ∨ hodInUse s = false) :
    enableWrite base on s = setF (F.BLK_CTRL_ENABLE base) (b2n on) s := by
  rw [enableWrite, if_neg (not_not.mpr h), if_neg]
  rcases huse with h | h <;> simp [h]

theorem ctrl_not_errReg (base : Nat) : ¬ errReg base (Reg.BLK_CTRL base) := by
  simp only [errReg, Reg.BLK_CTRL, Reg.ERR_INFO, Reg.ERR_ADDR_LO, Reg.ERR_ADDR_HI]
  omega

/-! ### POWER_VOTE (R422, R425) -/

/-- A domain's drain begins. -/
def drainBegun (d : Nat) (y : State) : State :=
  { y with top := { y.top with drains := insertNat d y.top.drains, woken := removeNat d y.top.woken } }

/-- A domain drains no longer. -/
def drainEnded (d : Nat) (y : State) : State := { y with top := { y.top with drains := removeNat d y.top.drains } }

theorem drainBegun_spec (d : Nat) (y : State) : d ∈ (drainBegun d y).top.drains ∧ d ∉ (drainBegun d y).top.woken ∧
    (drainBegun d y).regs = y.regs ∧ changesOnly [.regs, .top] y (drainBegun d y) :=
  ⟨mem_insertNat.mpr (.inl rfl), fun h => (mem_removeNat.mp h).2 rfl, rfl, .top (.refl _ y)⟩

theorem drainEnded_spec (d : Nat) (y : State) : d ∉ (drainEnded d y).top.drains ∧ (drainEnded d y).top.waking = y.top.waking ∧
    (drainEnded d y).regs = y.regs ∧ changesOnly [.regs, .top] y (drainEnded d y) :=
  ⟨fun h => (mem_removeNat.mp h).2 rfl, rfl, rfl, .top (.refl _ y)⟩

theorem domainUp_spec (d : Nat) (y : State) : d ∈ (domainUp d y).top.waking ∧ (domainUp d y).top.drains = y.top.drains ∧
    (domainUp d y).regs = y.regs ∧ changesOnly [.regs, .top] y (domainUp d y) :=
  ⟨mem_insertNat.mpr (.inl rfl), rfl, rfl, .top (.refl _ y)⟩

/-- What a vote does to its domain. -/
def voteDo (d v : Nat) (s y : State) : State :=
  if v = 2 then if bitsOf (getF s F.PWR_DOM_STAT_ON) d 1 = 1 then drainBegun d y else y
  else if bitsOf (getF s F.PWR_DOM_STAT_ON) d 1 = 0 ∧ powerNow s ≤ 1 ∧ (d = 6 ∨ twoPort s = true) then domainUp d (drainEnded d y)
    else drainEnded d y

theorem voteWrite_of_none (h : voteDomain base = none) (v : Nat) (s : State) :
    voteWrite base v s = setF (F.BLK_CTRL_POWER_VOTE base) v s := by
  rw [voteWrite, h]

theorem voteWrite_of_some (h : voteDomain base = some d) (v : Nat) (s : State) :
    voteWrite base v s = voteDo d v s (setF (F.BLK_CTRL_POWER_VOTE base) v s) := by
  rw [voteWrite, h]
  rfl

/-- What a vote leaves of its domain. -/
structure Voted (d v : Nat) (s y t : State) : Prop where
  regs : t.regs = y.regs
  parts : changesOnly [.regs, .top] y t
  off : v = 2 → bitsOf (getF s F.PWR_DOM_STAT_ON) d 1 = 1 → d ∈ t.top.drains ∧ d ∉ t.top.woken
  stay : v ≠ 2 → d ∉ t.top.drains
  up : v ≠ 2 → bitsOf (getF s F.PWR_DOM_STAT_ON) d 1 = 0 → powerNow s ≤ 1 → d = 6 ∨ twoPort s = true → d ∈ t.top.waking
  awake : v ≠ 2 → bitsOf (getF s F.PWR_DOM_STAT_ON) d 1 = 1 → t.top.waking = y.top.waking

theorem voted_voteDo (d v : Nat) (s y : State) : Voted d v s y (voteDo d v s y) := by
  unfold voteDo
  by_cases hv : v = 2
  · rw [if_pos hv]
    by_cases hon : bitsOf (getF s F.PWR_DOM_STAT_ON) d 1 = 1
    · rw [if_pos hon]
      obtain ⟨drains, woken, regs, parts⟩ := drainBegun_spec d y
      exact ⟨regs, parts, fun _ _ => ⟨drains, woken⟩, fun h => absurd hv h, fun h => absurd hv h, fun h => absurd hv h⟩
    · rw [if_neg hon]
      exact ⟨rfl, .refl _ y, fun _ h => absurd h hon, fun h => absurd hv h, fun h => absurd hv h, fun h => absurd hv h⟩
  · rw [if_neg hv]
    obtain ⟨drains, waking, regs, parts⟩ := drainEnded_spec d y
    generalize drainEnded d y = z at *
    by_cases hup : bitsOf (getF s F.PWR_DOM_STAT_ON) d 1 = 0 ∧ powerNow s ≤ 1 ∧ (d = 6 ∨ twoPort s = true)
    · rw [if_pos hup]
      obtain ⟨waking', drains', regs', parts'⟩ := domainUp_spec d z
      exact ⟨regs'.trans regs, parts.trans parts', fun h => absurd h hv, fun _ => drains' ▸ drains, fun _ _ _ _ => waking',
        fun _ h => absurd (hup.1.symm.trans h) (by decide)⟩
    · rw [if_neg hup]
      exact ⟨regs, parts, fun h => absurd h hv, fun _ => drains, fun _ h0 h1 h2 => absurd ⟨h0, h1, h2⟩ hup, fun _ _ => waking⟩

theorem putVote_lt (s : State) (base v : Nat) : putBits (getR s (Reg.BLK_CTRL base)) 2 2 v < 2 ^ 32 :=
  putBits_lt _ _ _ _ _ (getR_lt ..) (by decide)

/-! ### SOFT_RESET (R495) -/

/-- A channel's state after an abort. -/
def abortedState (st : Nat) : Nat :=
  if st = hHalted then hIdle else if st = hRun ∨ st = hPace ∨ st = hWait then hFinish else st

/-- A register of the Hod's page. -/
abbrev hodPage (a : Nat) : Prop := baseHod ≤ a ∧ a < baseHod + 0x2000

theorem hodPage_of_ch (hk : k < 32) (h : a = Reg.HOD_CH_STAT k ∨ a = Reg.HOD_CH_MOVED k) : hodPage a := by
  have hbase : baseHod = 0x10000 := rfl
  rcases h with rfl | rfl
  · simp only [hodPage, Reg.HOD_CH_STAT]
    omega
  · simp only [hodPage, Reg.HOD_CH_MOVED]
    omega

theorem resetting_of_hod (h : t.hod = s.hod) : t.hod.resetting = s.hod.resetting := congrArg HodSt.resetting h

theorem resetting_abortBase (k : Nat) (s : State) : (abortBase k s).hod.resetting = s.hod.resetting := by
  unfold abortBase
  split
  · exact (resetting_of_hod (setF_hod ..)).trans (resetting_setCh ..)
  · rfl

theorem resetting_settleFinish (k : Nat) (s : State) : (settleFinish k s).hod.resetting = s.hod.resetting := by
  unfold settleFinish
  dsimp only
  split
  · exact resetting_setCh ..
  · rfl

/-- What the abort of a channel leaves. -/
structure Aborted (k : Nat) (s t : State) : Prop where
  state : hodState t k = abortedState (hodState s k)
  kept : regsKept (fun a => a = Reg.HOD_CH_STAT k ∨ a = Reg.HOD_CH_MOVED k) s t
  parts : changesOnly [.regs, .hod] s t
  resetting : t.hod.resetting = s.hod.resetting

theorem aborted_abortCh (k : Nat) (s : State) : Aborted k s (abortCh k s) := by
  by_cases hh : hodState s k = hHalted
  · rw [abortCh_of_halted hh]
    refine ⟨?_, (regsKept_setHod k hIdle s).mono fun _ h => .inl h, (changesOnly_setHod k hIdle s).mono (by decide),
      resetting_of_hod (setF_hod ..)⟩
    rw [hodState_setHod (by decide), abortedState, if_pos hh]
  · by_cases ha : hodState s k = hRun ∨ hodState s k = hPace ∨ hodState s k = hWait
    · obtain ⟨state, -, -, -, -, -, kept, parts⟩ := aborted_spec ha
      refine ⟨?_, kept, parts, ?_⟩
      · rw [state, abortedState, if_neg hh, if_pos ha]
      · rw [abortCh_of_active ha, resetting_settleFinish]
        exact (resetting_of_hod (setF_hod ..)).trans ((resetting_setCh ..).trans (resetting_abortBase k s))
    · have same : abortCh k s = s := (if_neg hh).trans (if_neg ha)
      rw [same]
      exact ⟨by rw [abortedState, if_neg hh, if_neg ha], .refl s, .refl _ s, rfl⟩

theorem stat_ne_pair (h : j ≠ k) : ¬ (Reg.HOD_CH_STAT j = Reg.HOD_CH_STAT k ∨ Reg.HOD_CH_STAT j = Reg.HOD_CH_MOVED k) := by
  simp only [Reg.HOD_CH_STAT, Reg.HOD_CH_MOVED]
  omega

/-- Every channel aborted, one after another. -/
theorem abortAll_spec (n : Nat) (hn : n ≤ 32) (s : State) :
    (∀ k, hodState ((List.range n).foldl (fun t k => abortCh k t) s) k = if k < n then abortedState (hodState s k) else hodState s k) ∧
      regsKept hodPage s ((List.range n).foldl (fun t k => abortCh k t) s) ∧
      changesOnly [.regs, .hod] s ((List.range n).foldl (fun t k => abortCh k t) s) ∧
      ((List.range n).foldl (fun t k => abortCh k t) s).hod.resetting = s.hod.resetting := by
  induction n with
  | zero => exact ⟨fun k => rfl, .refl s, .refl _ s, rfl⟩
  | succ n ih =>
    obtain ⟨states, kept, parts, resetting⟩ := ih (by omega)
    rw [List.range_succ, List.foldl_append, List.foldl_cons, List.foldl_nil]
    generalize (List.range n).foldl (fun t k => abortCh k t) s = y at *
    have one := aborted_abortCh n y
    refine ⟨fun k => ?_, kept.trans (one.kept.mono fun _ h => hodPage_of_ch (by omega) h), parts.trans one.parts, one.resetting.trans resetting⟩
    by_cases hk : k = n
    · rw [hk, one.state, states, if_neg (Nat.lt_irrefl n), if_pos (Nat.lt_succ_self n)]
    · have other : hodState (abortCh n y) k = hodState y k := one.kept.getF (stat_ne_pair hk)
      rw [other, states]
      exact if_congr (by omega) rfl rfl

/-- The Hod's fields take their reset values. -/
def hodFieldsReset (x : State) : State :=
  { x with regs := x.regs.filter (fun p => !(decide (baseHod ≤ p.1) && decide (p.1 < baseHod + 0x2000))) }

theorem hodFieldsReset_spec (x : State) : (∀ a, hodPage a → rd (hodFieldsReset x) a = resetValue a) ∧
    regsKept hodPage x (hodFieldsReset x) ∧ changesOnly [.regs] x (hodFieldsReset x) := by
  have read : ∀ a, rd (hodFieldsReset x) a =
      if (!(decide (baseHod ≤ a) && decide (a < baseHod + 0x2000))) = true then rd x a else resetValue a := fun a =>
    tget_filter_key resetValue (fun b => !(decide (baseHod ≤ b) && decide (b < baseHod + 0x2000))) x.regs a
  refine ⟨fun a ha => (read a).trans (if_neg ?_), fun a ha => (read a).trans (if_pos ?_), .regs (.refl _ x)⟩
  · simp [ha.1, ha.2]
  · simp only [Bool.not_eq_true', Bool.and_eq_false_iff, decide_eq_false_iff_not]
    exact not_and_or.mp ha

/-- The Hod has no descriptor in hand. -/
def hodGone (x : State) : State := { x with hod := { x.hod with chs := [], ptr := 0, used := [], rem := 0, resetting := false } }

theorem hodGone_spec (x : State) : (hodGone x).hod = { chs := [], ptr := 0, used := [], rem := 0, resetting := false } ∧
    (hodGone x).regs = x.regs ∧ (hodGone x).errHeld = x.errHeld ∧ changesOnly [.hod] x (hodGone x) := ⟨rfl, rfl, rfl, .hod (.refl _ x)⟩

/-- What a soft reset of the Hod that ends leaves. -/
def hodCleared (s : State) : State := hodFieldsReset (hodGone (errFree baseHod s))

theorem hodCleared_spec (s : State) : (∀ a, hodPage a → rd (hodCleared s) a = resetValue a) ∧ regsKept hodPage s (hodCleared s) ∧
    (hodCleared s).hod = { chs := [], ptr := 0, used := [], rem := 0, resetting := false } ∧ baseHod ∉ (hodCleared s).errHeld ∧
    changesOnly [.regs, .hod, .errHeld] s (hodCleared s) := by
  obtain ⟨held, regs0⟩ := errFree_spec baseHod s
  have parts0 : changesOnly [.errHeld] s (errFree baseHod s) := .errHeld (.refl _ s)
  rw [hodCleared]
  generalize errFree baseHod s = x at *
  obtain ⟨hod, regs1, held1, parts1⟩ := hodGone_spec x
  generalize hodGone x = y at *
  obtain ⟨values, kept, parts2⟩ := hodFieldsReset_spec y
  refine ⟨values, .trans (.of_regs (regs1.trans regs0)) kept, parts2.hod_eq.trans hod, ?_,
    ((parts0.mono (by decide)).trans (parts1.mono (by decide))).trans (parts2.mono (by decide))⟩
  rw [parts2.errHeld_eq, held1, held]
  exact fun h => (mem_removeNat.mp h).2 rfl

theorem hodReset_of_idle (hr : s.hod.resetting = true) (h : ∀ k, k < 32 → hodState s k = hIdle) : hodReset s = hodCleared s := by
  refine if_pos ?_
  rw [hr, Bool.true_and, List.all_eq_true]
  exact fun k hk => decide_eq_true (h k (List.mem_range.mp hk))

theorem hodReset_of_busy (hk : k < 32) (h : hodState s k ≠ hIdle) : hodReset s = s := by
  refine if_neg fun hall => h ?_
  exact of_decide_eq_true (List.all_eq_true.mp (Bool.and_eq_true_iff.mp hall).2 k (List.mem_range.mpr hk))

/-- The Hod's soft reset begins. -/
def resetBegun (s : State) : State := { s with hod := { s.hod with resetting := true } }

theorem resetBegun_spec (s : State) : (resetBegun s).hod.resetting = true ∧ (resetBegun s).regs = s.regs ∧
    changesOnly [.regs, .hod] s (resetBegun s) := ⟨rfl, rfl, .hod (.refl _ s)⟩

theorem softReset_of_other (h : base ≠ baseHod ∨ isSet s (F.BLK_LOCK_LOCK base) = true) : softReset base s = s := if_pos h

/-- Every channel is aborted, and the reset waits for them. -/
structure ResetBegins (s y : State) : Prop where
  states : ∀ k, k < 32 → hodState y k = abortedState (hodState s k)
  resetting : y.hod.resetting = true
  kept : regsKept hodPage s y
  parts : changesOnly [.regs, .hod] s y

theorem softReset_of_hod (h : base = baseHod) (hl : isSet s (F.BLK_LOCK_LOCK base) = false) :
    ∃ y, softReset base s = hodReset y ∧ ResetBegins s y := by
  obtain ⟨resetting0, regs, parts0⟩ := resetBegun_spec s
  have form : softReset base s = hodReset ((List.range 32).foldl (fun t k => abortCh k t) (resetBegun s)) :=
    if_neg (by rw [hl]; simp [h])
  generalize resetBegun s = x at *
  obtain ⟨states, kept, parts, resetting⟩ := abortAll_spec 32 le_rfl x
  refine ⟨_, form, fun k hk => ?_, resetting.trans resetting0, .trans (.of_regs regs) kept, parts0.trans parts⟩
  rw [states, if_pos hk, hodState, getF_congr _ regs]
  rfl

theorem abortedState_of_rest {st : Nat} (h : st = hIdle ∨ st = hHalted) : abortedState st = hIdle := by
  rcases h with rfl | rfl <;> rfl

theorem abortedState_of_busy {st : Nat} (hi : st ≠ hIdle) (hh : st ≠ hHalted) : abortedState st ≠ hIdle := by
  rw [abortedState, if_neg hh]
  split
  · decide
  · exact hi

/-- Settles O60: the four controls of a page, each with its refusals. -/
theorem blockControlsAct : Obligations.BlockControlsAct := by
  unfold Obligations.BlockControlsAct
  intro s base hp hok
  have hlock : reach s (Reg.BLK_LOCK base) = .ok := (reach_low (o := 0x2C) (p := 8) hp (by decide) (by decide) s).trans hok
  refine ⟨fun w => ?writes, ?lock, fun h => ?noReset, fun hbase hl => ?reset⟩
  case writes =>
    have enable : ∀ {t}, enableWrite base (decide (bitsOf w.toNat 0 1 = 1)) s = t → completes (.blkEnableWrite base w) s t := fun ht =>
      (exec_blkEnable hp w s).trans (congrArg Host.Outcome.next ((guarded_ok _ hok).trans ht))
    have vote : ∀ {t}, voteWrite base (bitsOf w.toNat 2 2) s = t → completes (.blkPowerVoteWrite base w) s t := fun ht =>
      (exec_blkPowerVote hp w s).trans (congrArg Host.Outcome.next ((guarded_ok _ hok).trans ht))
    refine ⟨fun hne => enable (enableWrite_of_other hne s), fun hbase hbit huse => ?refused, fun hbase hbit => ?taken, ?vote⟩
    case refused =>
      have noted := errNoted_noteErr base 0xF2 0 (Reg.BLK_CTRL base) s
      have off : decide (bitsOf w.toNat 0 1 = 1) = false := decide_eq_false (by omega)
      exact ⟨_, enable ((congrArg (enableWrite base · s) off).trans (enableWrite_of_refused hbase huse)),
        errNoted_of_kept noted (by decide) (by decide) (fun _ _ => rfl) rfl, noted.kept.getR (ctrl_not_errReg base), noted.parts⟩
    case taken =>
      have taken := enableWrite_of_taken (s := s) hbase (hbit.imp_left fun h => decide_eq_true (p := bitsOf w.toNat 0 1 = 1) h)
      rw [b2n_bit] at taken
      exact ⟨_, enable taken, writesReg_setF (F.BLK_CTRL_ENABLE base) ..⟩
    case vote =>
      obtain ⟨word, kept, parts⟩ := writesReg_setF (F.BLK_CTRL_POWER_VOTE base) (bitsOf w.toNat 2 2) s
      have word := word.trans (Nat.mod_eq_of_lt (putVote_lt s base _))
      have top : (setF (F.BLK_CTRL_POWER_VOTE base) (bitsOf w.toNat 2 2) s).top = s.top := setF_top ..
      cases hd : voteDomain base with
      | none =>
        exact ⟨_, vote (voteWrite_of_none hd _ s), word, kept, parts.mono (by decide), fun _ => top, fun _ h => absurd h nofun⟩
      | some d =>
        have voted := voted_voteDo d (bitsOf w.toNat 2 2) s (setF (F.BLK_CTRL_POWER_VOTE base) (bitsOf w.toNat 2 2) s)
        have run := vote (voteWrite_of_some hd _ s)
        generalize voteDo d (bitsOf w.toNat 2 2) s (setF (F.BLK_CTRL_POWER_VOTE base) (bitsOf w.toNat 2 2) s) = t at *
        refine ⟨t, run, (getR_congr _ voted.regs).trans word, kept.congr voted.regs, (parts.mono (by decide)).trans voted.parts,
          fun h => absurd h nofun, fun d' h => ?_⟩
        obtain rfl := Option.some.inj h
        exact ⟨voted.off, fun hv => ⟨voted.stay hv, voted.up hv, fun h => (voted.awake hv h).trans (congrArg TopSt.waking top)⟩⟩
  case lock =>
    exact ⟨_, (rowIs_blkLock hp s).row.trans (congrArg Host.Outcome.next (guarded_ok _ hlock)), writesReg_setF (F.BLK_LOCK_LOCK base) ..⟩
  case noReset =>
    exact (exec_blkSoftReset hp s).trans (congrArg Host.Outcome.next ((guarded_ok _ hok).trans (softReset_of_other h)))
  case reset =>
    obtain ⟨y, form, begins⟩ := softReset_of_hod hbase hl
    have run : ∀ {t}, hodReset y = t → completes (.blkSoftReset base) s t := fun ht =>
      (exec_blkSoftReset hp s).trans (congrArg Host.Outcome.next ((guarded_ok _ hok).trans (form.trans ht)))
    refine ⟨fun hrest => ?_, fun ⟨k, hk, hi, hh⟩ => ?_⟩
    · have idle : ∀ k, k < 32 → hodState y k = hIdle := fun k hk => (begins.states k hk).trans (abortedState_of_rest (hrest k hk))
      obtain ⟨values, kept, hod, held, parts⟩ := hodCleared_spec y
      exact ⟨_, run (hodReset_of_idle begins.resetting idle), fun a h1 h2 => values a ⟨h1, h2⟩, hod, held, begins.kept.trans kept,
        (begins.parts.mono (by decide)).trans parts⟩
    · have busy : hodState y k ≠ hIdle := by
        rw [begins.states k hk]
        exact abortedState_of_busy hi hh
      exact ⟨y, run (hodReset_of_busy hk busy), begins.resetting, begins.states, begins.kept, begins.parts⟩

end Sys2Proof.Machine

end
